-- ==== Sys2Proof/Word.lean ====
section
/-!
DEFINITION. The word types of the block: 32-bit register words (R5), bytes, and the plain helpers on
unsigned and two's-complement integers of R3.
-/

namespace Sys2Proof

/-- A setup-register word: 32 bits, little-endian (R5). -/
abbrev Word := BitVec 32

/-- One byte of memory. -/
abbrev Byte := BitVec 8

/-- The `w` bits of `x` from bit `lo` up (R3: an unsigned field). -/
def bits (x lo w : Nat) : Nat := x / 2 ^ lo % 2 ^ w

/-- The signed value of a `w`-bit two's-complement field (R3). -/
def signed (w x : Nat) : Int :=
  if x % 2 ^ w < 2 ^ (w - 1) then (x % 2 ^ w : Nat) else (x % 2 ^ w : Nat) - 2 ^ w

/-- The `w`-bit two's-complement pattern of an integer (R3). -/
def pattern (w : Nat) (x : Int) : Nat := (x % 2 ^ w).toNat

/-- Clamp an integer into `[lo, hi]`. -/
def clamp (lo hi x : Int) : Int := if x < lo then lo else if hi < x then hi else x

/-- Saturate at the range of an sN (R3). -/
def satS (w : Nat) (x : Int) : Int := clamp (-(2 ^ (w - 1))) (2 ^ (w - 1) - 1) x

/-- Signed difference of two free-running u32 counters (R143). -/
def sdiff32 (a b : Nat) : Int := signed 32 ((a + (2 ^ 32 - b % 2 ^ 32)) % 2 ^ 32)

/-- Division that truncates toward zero (R12). -/
def divT (a b : Int) : Int := a.tdiv b

/-- Division rounded to nearest, ties away from zero (R84, R88); zero where the divisor is zero. -/
def roundDiv (a b : Int) : Int :=
  let q : Nat := (2 * a.natAbs + b.natAbs) / (2 * b.natAbs)
  if (a < 0) = (b < 0) then (q : Int) else -(q : Int)

/-- Division rounded toward minus infinity (R171). -/
def floorDiv (a b : Int) : Int := a.fdiv b

/-- Arithmetic right shift: division by a power of two, rounded down (R12). -/
def shr (x : Int) (n : Nat) : Int := x.fdiv (2 ^ n)

/-- Set or clear bit `i` of a natural number. -/
def setBit (x i : Nat) (b : Bool) : Nat :=
  if x.testBit i = b then x else if b then x + 2 ^ i else x - 2 ^ i

/-- The little-endian bytes of a number (R11). -/
def leBytes : Nat → Nat → List Byte
  | 0, _ => []
  | n + 1, x => BitVec.ofNat 8 x :: leBytes n (x / 256)

/-- The number little-endian bytes spell (R11). -/
def ofLeBytes : List Byte → Nat
  | [] => 0
  | b :: bs => b.toNat + 256 * ofLeBytes bs

/-- One byte step of the CRC-32 of IEEE 802.3 (R70). -/
def crc32Bit (c : Nat) : Nat := if c % 2 = 1 then (c / 2) ^^^ 0xEDB88320 else c / 2

/-- CRC-32 register after one more byte (R70). -/
def crc32Step (c : Nat) (b : Byte) : Nat :=
  let x := c ^^^ b.toNat
  crc32Bit (crc32Bit (crc32Bit (crc32Bit (crc32Bit (crc32Bit (crc32Bit (crc32Bit x)))))))

/-- The CRC-32 of a string of bytes (R70). -/
def crc32 (bs : List Byte) : Nat := (bs.foldl crc32Step 0xFFFFFFFF) ^^^ 0xFFFFFFFF

end Sys2Proof
end

