-- ==== Sys2Proof/Syntax.lean ====
section
/-!
DEFINITION. The commands the block takes: one constructor per row of the command table, with
the operands the row needs (who makes an access, which vat, channel or slice it concerns, the words that arrive): first the
rows with operands, then those without, each in the table's order.
The table gives no operand bits, so the operands are the model's own reading of each row.
-/

namespace Sys2Proof

/-- Who makes an access (R307): master number, secure world, and the slice it acts for. -/
structure Src where
  master : Fin 16
  secure : Bool
  slice : Fin 64
  deriving DecidableEq, Repr

/-- The kinds of access a region checker tells apart (R308). -/
inductive AccessKind where
  | read | write | exec
  deriving DecidableEq, Repr

/-- What the error code of a memory found during an access: nothing, a corrected single-bit error, or an
uncorrectable one (R352, R355, R357). The memory cell array's faults come from outside the model. -/
inductive Ecc where
  | ok | corrected | uncorrectable
  deriving DecidableEq, Repr

/-- A CAN frame as received from the bus (R293): identifier, format bits, DLC, data. -/
structure CanFrame where
  id : Nat
  ext : Bool
  remote : Bool
  fd : Bool
  brs : Bool
  esi : Bool
  dlc : Nat
  data : List Byte
  deriving DecidableEq, Repr

/-- What moves a controller's bit clock while a frame is on the bus (R284), at an instant in kernel periods of 12.5 ns (R282): an
edge that hard-synchronizes, another recessive-to-dominant edge, which may follow the controller's own dominant bit,
and the sample point at which the other phase's bit timing takes over. [DEDUCED, log 127] -/
inductive CanEdge where
  | hard (at_ : Nat)
  | fall (at_ : Nat) (own : Bool)
  | phase (at_ : Nat) (data : Bool)
  deriving DecidableEq, Repr

/-- The instant of a frame's start-of-frame edge, in ticks, and what moves the bit clock after it (R284, R293). -/
structure CanSof where
  at_ : Nat
  edges : List CanEdge
  deriving DecidableEq, Repr

/-- A received frame's bytes without FCS, and whether its FCS is right (R233). -/
structure RxFrame where
  bytes : List Byte
  good : Bool
  deriving DecidableEq, Repr

/-- A CAN protocol error (the codes of CAN_STAT), or a recessive res bit in an FD frame (R288, R289). -/
inductive CanErr where
  | bitRecessive | bitDominant | stuff | form | crc | ack | resBit
  deriving DecidableEq, Repr

/-- Which rule of ISO 11898-1 counts an error: one that was detected, a bit error in a flag the controller sends, a dominant bit after its
flag, or one of the transmitter's exceptions, an acknowledgement error of an error-passive node or a stuff error of arbitration (R289). -/
inductive CanCount where
  | detected | flagBit | dominant | exempt
  deriving DecidableEq, Repr

/-- How far a CAN frame has come: before its FDF-to-res edge, before its data phase, in it, or after it (R286). -/
inductive CanPlace where
  | arbitration | res | data | tail
  deriving DecidableEq, Repr

/-- How far a CAN controller's own frame gets (R296, R297): it is on the bus at a place, or it ended sent, by losing arbitration,
or by an error at a place. -/
inductive CanFate where
  | onBus (place : CanPlace)
  | sent
  | lost
  | error (err : CanErr) (place : CanPlace) (count : CanCount)
  deriving DecidableEq, Repr

/-- What a transaction of a lockstep core is (KIND of R323). -/
inductive TxnKind where
  | read | write | fetch | add | swap | digest | heartbeat
  deriving DecidableEq, Repr

/-- A transaction of a lockstep core (R320, R323): its kind, address, size code, the eight byte lanes and their enables, the world, whether it is on the
TCM port; and the response a read or a fetch gets. -/
structure Txn where
  kind : TxnKind
  addr : Nat
  size : Fin 4
  wdata : Nat
  be : Nat
  secure : Bool
  tcm : Bool
  resp : Nat
  deriving DecidableEq, Repr

/-- What one switch's sensors read at an estimate (R360, R368): current in mA, junction in m°C, in current limit. -/
structure AuxSample where
  ma : Nat
  tj : Int
  limit : Bool
  deriving DecidableEq, Repr

/-- The faults of R377: the internal rail, the two oscillators, the two configuration copies. -/
inductive MadFault where
  | rail | oscillator | copies
  deriving DecidableEq, Repr

/-- A Virrali image as the flash holds it (R412): the 768-byte header and the segments' bytes. -/
structure Image where
  header : List Byte
  segs : List (List Byte)
  deriving DecidableEq, Repr

/-- A host's access to a doorbell page (R145): a write or a read of so many bytes. -/
inductive DoorOp where
  | write (size : Nat) (data : Word)
  | read (size : Nat)
  deriving DecidableEq, Repr

/-- The kinds of memory access a breakpoint comparator sees (R421). -/
inductive BpKind where
  | fetch | read | write
  deriving DecidableEq, Repr

/-- One command of the block (spec/opcode_table.json). [DESIGN CHOICE, log 5, 102] -/
inductive Instr where
  /-- NARROW_ACCESS (R5): A setup-space access narrower than 32 bits or unaligned reads zero, writes nothing, gets an error response and is logged. -/
  | narrowAccess (src : Src) (addr : Nat) (write : Bool)
  /-- REGISTER_WRITE (R6): A write to a setup register that has no row of its own sets its fields by type, with reserved or rule-breaking values refused under R9. -/
  | registerWrite (src : Src) (addr : Nat) (data : Word)
  /-- PAIR_LOW_READ (R10): A read of the low word of a 64-bit pair captures the high word for the reading master. -/
  | pairLowRead (src : Src) (addr : Nat)
  /-- PAIR_HIGH_WRITE (R10): A write of the high word of a pair commits a held low-word write of the same master together with it. -/
  | pairHighWrite (src : Src) (addr : Nat) (data : Word)
  /-- UNMAPPED_ACCESS (R28): An access to an unoccupied address, a gap, a missing DRAM range or a fenced vat range reads zero, writes nothing, gets an error response and is logged. -/
  | unmappedAccess (src : Src) (addr : Nat) (write : Bool)
  /-- CHECKED_ACCESS (R308): An access reaches a region checker, which permits or denies it by the lowest matching region. -/
  | checkedAccess (src : Src) (kind : AccessKind) (addr : Nat) (size : Nat) (data : Nat) (ecc : Ecc)
  /-- ATOMIC_ADD (R353): An atomic ADD at an SRAM bank adds the operand modulo 2^width and returns the old value. -/
  | atomicAdd (src : Src) (addr : Nat) (size : Nat) (data : Nat) (ecc : Ecc)
  /-- ATOMIC_SWAP (R353): An atomic SWAP at an SRAM bank stores the operand and returns the old value. -/
  | atomicSwap (src : Src) (addr : Nat) (size : Nat) (data : Nat) (ecc : Ecc)
  /-- OFFSET_CORRECTION (R34): A write of TB_ADJ adds an accepted offset to TB_SLEW.REM and starts or extends the slew, or is refused under the jump limit. -/
  | offsetCorrection (src : Src) (data : Word)
  /-- TB_LOAD (R35): A TB_LOAD pair loads TB_NOW once if not yet loaded and every channel is IDLE, restarting lane training and disarming comparators and captures. -/
  | tbLoad (src : Src) (hi : Word)
  /-- LATE_FAULT (R40): A deadline-bearing unit misses its release deadline, counts a LATE fault and reacts by its class. -/
  | lateFault (u : Fin 8) (v : Fin 16) (k : Fin 16)
  /-- GOVERNOR_WINDOW (R42): At the end of each GOV_CTL.WIN window the governor steps the core-rail target by the window's minimum slack. -/
  | governorWindow (slack : List Int)
  /-- JUNCTION_120 (R42): The logic-die junction rising through 120 °C raises a lower rail to the 0.75 V floor. -/
  | junction120 (above : Bool)
  /-- GOV_CTL_WRITE (R43): A write of GOV_CTL pins or unpins the rail, refused under strict mode. -/
  | govCtlWrite (src : Src) (data : Word)
  /-- CLR (R41): A write of GOV_SLACK_CLR.CLR resets every class minimum slack to 0x7FFF. -/
  | clr (src : Src) (data : Word)
  /-- I_BLOCK (R52): An upstream I block arrives and its 16 current words are stamped with their sampling instants and passed to the fast path, trip comparator and precision path. -/
  | iBlock (v : Fin 16) (hdr : Nat) (payload : Nat) (frac : Nat)
  /-- V_BLOCK (R52): An upstream V block arrives and its voltage words are stamped and passed to the filters. -/
  | vBlock (v : Fin 16) (hdr : Nat) (payload : Nat)
  /-- MODF_CLEAR (R79): After a full loop period with no -8 word and the report bit clear, the channel's VAT_MODF bit clears. -/
  | modfClear (v : Fin 16) (k : Fin 16) (current : Bool)
  /-- AUX_REPORT (R55): An upstream AUX report arrives and its channel, board, CFG-answer or error fields are taken in. -/
  | auxReport (v : Fin 16) (hdr : Nat) (payload : Nat) (frac : Nat)
  /-- GROUP_CHECK (R70): An upstream CHK block arrives and the group's CRC and headers decide whether the group verified or failed. -/
  | groupCheck (v : Fin 16) (hdr : Nat) (payload : Nat)
  /-- BLOCK_LOCK_LOSS (R76): Sixteen invalid or empty upstream slots within 64 slots take the lane down. -/
  | blockLockLoss (v : Fin 16) (empties : Nat)
  /-- TRN_BLOCK (R73): An upstream TRN block delivers the board's TSTATE and a descriptor word during training. -/
  | trnBlock (v : Fin 16) (payload : Nat)
  /-- LANE_ENABLE (R72): A write of LANE_CTL.EN = 1 starts training at LOCK. -/
  | laneEnable (src : Src) (v : Fin 16) (data : Word)
  /-- LANE_DISABLE (R77): A write of LANE_CTL.EN = 0 turns the lane OFF if every channel of the vat is IDLE, else is refused and logged. -/
  | laneDisable (src : Src) (v : Fin 16) (data : Word)
  /-- RETRAIN (R77): A write of LANE_CTL.RETRAIN restarts training at LOCK if every channel is IDLE, else is refused and logged. -/
  | retrain (src : Src) (v : Fin 16) (data : Word)
  /-- TRAINING_ADVANCE (R72): The exit condition of a training state is met and the lane moves to the next state, up to ACTIVE. -/
  | trainingAdvance (v : Fin 16) (rtt : List Nat)
  /-- TRAINING_TIMEOUT (R74): LANE_CTL.TRN_TO expires during training and training fails with code 1 or 7. -/
  | trainingTimeout (v : Fin 16)
  /-- TRAINING_RETRY (R74): The 10 ms rest after a failure ends and training restarts, unless TRN_RETRY retries are used up. -/
  | trainingRetry (v : Fin 16)
  /-- BREG_READ (R62): LANE_BREG_CTL.GO with WR = 0 issues a CFG READ, or completes at once with NOT_ACTIVE. -/
  | bregRead (src : Src) (v : Fin 16) (data : Word)
  /-- BREG_WRITE (R62): LANE_BREG_CTL.GO with WR = 1 issues a CFG WRITE, or completes at once with NOT_ACTIVE. -/
  | bregWrite (src : Src) (v : Fin 16) (data : Word)
  /-- CFG_SEND (R61): A queued CFG request is sent in the next free CFG/IDLE slot. -/
  | cfgSend (v : Fin 16)
  /-- CFG_TIMEOUT (R62): No answer within 4 µs repeats the CFG under a new TAG, and after three repeats abandons it. -/
  | cfgTimeout (v : Fin 16)
  /-- FIRMWARE_KILL (R66): A write of LANE_KILL.MASK sends a KILL with CAUSE 0x05 while the lane is ACTIVE. -/
  | firmwareKill (src : Src) (v : Fin 16) (data : Word)
  /-- KILL_EMIT (R66): A ready KILL takes the first slot 25 ns later, merging masks and displacing the slot's block. -/
  | killEmit (v : Fin 16)
  /-- KILL_REPEAT (R66): A KILL is repeated with the same KSEQ in the first CFG/IDLE slot of each of the next two groups. -/
  | killRepeat (v : Fin 16)
  /-- KILL_NOACK (R67): A channel report starting over 2 µs after a KILL does not show KLATCH and the vat is fenced. -/
  | killNoack (v : Fin 16) (k : Fin 16)
  /-- FAST_SAMPLE (R80): At a window or half-sample instant the fast filters output calibrated current and voltage samples. -/
  | fastSample (v : Fin 16) (k : Fin 16)
  /-- SINC4_OUTPUT (R83): A current or voltage sinc4 output falls due on its time-base phase and is passed on with its marks. -/
  | sinc4Output (v : Fin 16) (k : Fin 16) (current : Bool)
  /-- PRECISION_OUTPUT (R84): At each t_out the averaging FIR forms the calibrated precision output with its marks. -/
  | precisionOutput (v : Fin 16) (k : Fin 16) (tOut : Nat)
  /-- RATE_CHANGE (R85): A pending precision-rate change takes effect at t_c, and the next output carries RATE_CHG. -/
  | rateChange (v : Fin 16) (k : Fin 16)
  /-- CAL_COMMIT (R90): A write of VAT_CAL_COMMIT.MASK stages a commit for the next loop-period start. -/
  | calCommit (src : Src) (v : Fin 16) (data : Word)
  /-- CAL_COMMIT_APPLY (R90): At the next 400·n the staged coefficients come into force on each masked IDLE channel, others being refused and logged. -/
  | calCommitApply (v : Fin 16)
  /-- LOOP_COMPUTATION (R97): The loop engine computes channel k once in its slot: protections, precedence, end conditions, start and control law, yielding its CMD. -/
  | loopComputation (v : Fin 16) (k : Fin 16) (residueOk : Bool) (sram : Ecc)
  /-- ARM_TIMEOUT (R110): KLATCH still 1 after ARM_TO returns the channel to IDLE and completes the step with ARM_FAIL. -/
  | armTimeout (v : Fin 16) (k : Fin 16)
  /-- CLOSE_DELAY_END (R100): CLOSE_DLY elapses since the last OPEN command and the channel moves from CLOSE to SOFT. -/
  | closeDelayEnd (v : Fin 16) (k : Fin 16)
  /-- RAMP_TIMEOUT (R113): A ramp-down not meeting the zero criterion within RAMP_MAX kills the channel with stop code RAMP_TO. -/
  | rampTimeout (v : Fin 16) (k : Fin 16)
  /-- HELD_START (R116): A held start proceeds at the first tick at which the channel is IDLE and arming is allowed. -/
  | heldStart (v : Fin 16) (k : Fin 16)
  /-- HOLD_LIMIT_EXPIRY (R116): A start held longer than ENABLE_HOLD_LIMIT completes with STILL_STOPPING. -/
  | holdLimitExpiry (v : Fin 16) (k : Fin 16)
  /-- HOST_LINK_DOWN (R118): A host port's link goes down and the slices whose ring path it was are orphaned. -/
  | hostLinkDown (port : Fin 2)
  /-- ORPHAN_POLICY (R119): At its first tick after an orphan trigger each channel takes the slice's orphan policy. -/
  | orphanPolicy (v : Fin 16) (k : Fin 16)
  /-- ORPHAN_MAX_EXPIRY (R119): Under HOLD_SETPOINT, ORPHAN_MAX expires and the channel is treated as under RAMP_TO_ZERO. -/
  | orphanMaxExpiry (v : Fin 16) (k : Fin 16)
  /-- ORPHAN_END (R120): At the next tick after an accepted ATTACH the orphan state clears and queued steps resume. -/
  | orphanEnd (v : Fin 16) (k : Fin 16)
  /-- FENCE (R121): A write of SYS_VAT_CTL.FENCE fences the named vat with cause 5. -/
  | fence (src : Src) (data : Word)
  /-- FENCE_DONE (R122): The latch, ledger-closure and completion conditions all hold and VAT_STAT.FENCE_DONE is set. -/
  | fenceDone (v : Fin 16)
  /-- LEDGER_CLOSE (R178): At the closing tick the last outputs are formed and integrated and VAT_LDG_CLOSED is set. -/
  | ledgerClose (v : Fin 16)
  /-- REENABLE (R123): A write of SYS_VAT_CTL.REENABLE restarts the vat's lane at LOCK if FENCE_DONE, else is refused and logged. -/
  | reenable (src : Src) (data : Word)
  /-- BUDGET_TIMEOUT (R128): A start budget-deferred longer than VAT_BAL_HOLD.LIMIT completes with BUDGET_TIMEOUT. -/
  | budgetTimeout (v : Fin 16) (k : Fin 16)
  /-- BUDGET_REFUSED (R129): A synchronized start not admitted by ARM_TO + 5 µs before its instant completes with BUDGET_REFUSED. -/
  | budgetRefused (v : Fin 16) (k : Fin 16)
  /-- SYNC_START (R159): A barrier or timed step starts at the channel's tick in the period of its start instant. -/
  | syncStart (v : Fin 16) (k : Fin 16)
  /-- CMD_PI (R147): A CMD_PI doorbell value is accepted or refused, and an accepted one starts descriptor fetching. -/
  | cmdPi (port : Fin 2) (s : Fin 64) (op : DoorOp)
  /-- CONSUMER_DOORBELL (R147): A CMP_CI, EVT_CI or STR_CI doorbell value is accepted or refused and frees ring entries. -/
  | consumerDoorbell (port : Fin 2) (s : Fin 64) (offset : Nat) (op : DoorOp)
  /-- MIRROR_POLL (R146): Every POLL µs the step engine reads the doorbell mirror and applies its values as doorbell writes. -/
  | mirrorPoll (s : Fin 64)
  /-- NOP (R152): A fetched NOP descriptor completes with OK. -/
  | nop (s : Fin 64) (desc : List Word)
  /-- STEP (R152): A fetched STEP descriptor is validated and enters its channel's queue, or completes at fetch. -/
  | step (s : Fin 64) (desc : List Word)
  /-- STOP (R152): A fetched STOP acts at the channel's next tick as a slice stop on the running or head step. -/
  | stop (s : Fin 64) (desc : List Word)
  /-- FLUSH (R152): A fetched FLUSH completes every unstarted queued step with FLUSHED. -/
  | flush (s : Fin 64) (desc : List Word)
  /-- ABORT (R152): A fetched ABORT performs FLUSH then STOP at the same tick. -/
  | abort (s : Fin 64) (desc : List Word)
  /-- MARK (R152): A fetched MARK is queued and completes with OK at the head of the queue. -/
  | mark (s : Fin 64) (desc : List Word)
  /-- RESUME (R152): A fetched RESUME clears the channel's queue halt and completes with OK. -/
  | resume (s : Fin 64) (desc : List Word)
  /-- BAD_OP (R153): A fetched descriptor with a reserved opcode completes with BAD_OP. -/
  | badOp (s : Fin 64) (desc : List Word)
  /-- CMD_STALL (R154): Fetching blocked by a full channel queue for 1 ms raises CMD_STALL. -/
  | cmdStall (s : Fin 64)
  /-- COMPLETION_WRITE (R156): A final completion waiting in the completion buffer is written to the ring once room and path exist. -/
  | completionWrite (s : Fin 64)
  /-- WRITEBACK_WRITE (R144): The step engine writes the write-back block covering new entries and then signals the slice. -/
  | writebackWrite (s : Fin 64)
  /-- PROGRESS_COMPLETION (R166): Every PROG_MS a running step with PROG produces a progress completion. -/
  | progressCompletion (v : Fin 16) (k : Fin 16)
  /-- DMA_ERROR (R169): A DMA error on a ring access stops that ring and produces a DMA_ERR event. -/
  | dmaError (s : Fin 64) (r : Fin 8) (index : Word)
  /-- RING_CFG_WRITE (R142): A write of a ring's configuration enables or disables it, changing its layout only while disabled. -/
  | ringCfgWrite (src : Src) (s : Fin 64) (r : Fin 8) (data : Word)
  /-- STREAM_DELIVER (R184): Buffered records and seal entries leave the stream buffer in order, carrying BUFFERED, once the ring can take them. -/
  | streamDeliver (s : Fin 64) (x : Fin 5)
  /-- DIVERGENCE_CHECK (R180): Every second integrators A and B are compared and any difference marks the channel DIVERGED. -/
  | divergenceCheck (v : Fin 16)
  /-- CHAIN_START (R190): LDG_CFG.EN changing to 1 closes the old chain's blocks and draws a new CHAIN_ID. -/
  | chainStart (src : Src) (s : Fin 64) (data : Word)
  /-- SEAL_CLEAR (R186): A write clearing LDG_CFG.SEAL closes every open non-empty block with its seal entry. -/
  | sealClear (src : Src) (s : Fin 64) (data : Word)
  /-- CHECKPOINT (R191): At each checkpoint instant the slice's totals are captured for a checkpoint, or the checkpoint is skipped. -/
  | checkpoint (s : Fin 64)
  /-- CHECKPOINT_WRITE (R191): A formed checkpoint is signed, written to its slot, advances LDG_CK_PI and signals the ledger event. -/
  | checkpointWrite (s : Fin 64)
  /-- LDG_CK_CI_WRITE (R191): A write of LDG_CK_CI frees checkpoint slots or is refused and counted. -/
  | ldgCkCiWrite (src : Src) (s : Fin 64) (data : Word)
  /-- LDG_SNAP (R456): A write of VAT_LDG_SNAP.CH latches the channel's lifetime and step totals. -/
  | ldgSnap (src : Src) (v : Fin 16) (data : Word)
  /-- IMP_START (R197): A write of IMP_CTL.START starts the sweep at the next loop-period start, refused while BUSY. -/
  | impStart (src : Src) (v : Fin 16) (data : Word)
  /-- IMP_STOP (R208): A write of IMP_CTL.STOP stops the sweep at the next period start with ABORT records. -/
  | impStop (src : Src) (v : Fin 16) (data : Word)
  /-- POINT_START (R197): At P0 a sweep point begins and participating channels are chosen. -/
  | pointStart (v : Fin 16)
  /-- POINT_END (R203): At W_end the point's fits are solved and impedance records formed, and the next point or DONE follows. -/
  | pointEnd (v : Fin 16)
  /-- IMP_RECORD_DELIVER (R211): An impedance record is written to its stream ring, or to the impedance buffer, or lost. -/
  | impRecordDeliver (v : Fin 16)
  /-- CREATE (R217): SLICE_CMD CREATE checks the slice's conditions and takes its shares, restarts its channels and activates it. -/
  | create (src : Src) (data : Word)
  /-- CREATE_COMPLETE (R339): Mordant derives the new slice's keys and certificate and SLICE_CMD_STAT reads OK. -/
  | createComplete (s : Fin 64)
  /-- DESTROY (R218): SLICE_CMD DESTROY puts the slice in TEARDOWN, stops fetching and aborts its channels. -/
  | destroy (src : Src) (data : Word)
  /-- CLOSING_CHECKPOINT (R218): After the slice's step totals close, a closing checkpoint is formed if the ledger is enabled. -/
  | closingCheckpoint (s : Fin 64)
  /-- TEARDOWN_DEADLINE (R218): At D + 1 s undelivered teardown entries are discarded and counted. -/
  | teardownDeadline (s : Fin 64)
  /-- TEARDOWN_DONE (R218): After delivery ends the keys are invalidated, rings disabled, shares returned and the slice FREE. -/
  | teardownDone (s : Fin 64)
  /-- ATTACH (R220): SLICE_CMD ATTACH ends an orphan state at the next tick if the ring path is present, else REFUSED. -/
  | attach (src : Src) (data : Word)
  /-- CONTROLLER_WATCHDOG_EXPIRY (R219): The slice's controller watchdog expires and the slice is orphaned. -/
  | controllerWatchdogExpiry (s : Fin 64)
  /-- SLICE_MODE_WRITE (R221): A write changing STRICT or LEGACY is accepted only with no other slice live and S0's channels IDLE. -/
  | sliceModeWrite (src : Src) (data : Word)
  /-- RESIZE (R227): SLICE_CMD RESIZE applies the staged channel set under LEGACY, staying BUSY until the moves are done. -/
  | resize (src : Src) (data : Word)
  /-- CHANNEL_MOVE (R227): A channel removed by RESIZE leaves the slice at its first tick IDLE with an empty queue. -/
  | channelMove (v : Fin 16) (k : Fin 16)
  /-- MIGRATE (R230): SLICE_CMD MIGRATE is checked and stops new DMA for the slice. -/
  | migrate (src : Src) (data : Word)
  /-- FREEZE (R230): In-flight DMA completes, a final write-back block is written and the slice enters FROZEN. -/
  | freeze (s : Fin 64)
  /-- SLICE_RESUME (R230): SLICE_CMD RESUME moves the slice to the target port or abandons migration and returns it to ACTIVE. -/
  | sliceResume (src : Src) (data : Word)
  /-- FREEZE_MAX_EXPIRY (R231): FREEZE_MAX expires during FROZEN and the slice is orphaned. -/
  | freezeMaxExpiry (s : Fin 64)
  /-- FRAME_RECEIVE (R234): A frame received on a switch port is classified, learned, looked up and queued or staged. -/
  | frameReceive (p : Fin 6) (bytes : List Byte) (good : Bool) (stamp : Nat)
  /-- FRAME_TRANSMIT (R238): An output picks its next frame by strict priority and DRR and sends it. -/
  | frameTransmit (p : Fin 8) (egress : Nat)
  /-- XOFF_REFRESH (R242): XOFF is refreshed every half pause time while the condition persists. -/
  | xoffRefresh (p : Fin 8)
  /-- PAUSE_RECEIVE (R243): A received PAUSE or PFC frame stops the output or queues at the next frame boundary. -/
  | pauseReceive (p : Fin 6) (pfc : Bool) (mask : Nat) (quanta : List Nat)
  /-- PAUSE_EXPIRY (R243): A received pause time runs out and the output or queue resumes. -/
  | pauseExpiry (p : Fin 6)
  /-- AGE_OUT (R236): A dynamic MAC entry not refreshed within AGE to 2·AGE seconds is removed. -/
  | ageOut (idx : Nat)
  /-- MCAST_HOLD_EXPIRY (R246): A held multicast copy still held after MCAST_HOLD is dropped and counted. -/
  | mcastHoldExpiry (p : Fin 8)
  /-- AUDIT_PASS (R247): Every SW_AUDIT.PERIOD the auditor walks the cells, reclaiming leaks and flushing doubly listed outputs. -/
  | auditPass (leaks : List Nat) (duals : Nat)
  /-- PORT_LINK_CHANGE (R433): A switch port's link goes up or down, raising its event source. -/
  | portLinkChange (p : Fin 8) (up : Bool) (mbps : Nat)
  /-- PORT_REMOVAL (R248): A port lacking lock for 10 ms or faulted is removed, its queues and entries flushed. -/
  | portRemoval (p : Fin 8) (cause : Nat)
  /-- PORT_REENABLE (R249): A write of SW_PORT_REEN re-enables a removed port whose link is up, else is refused and logged. -/
  | portReenable (src : Src) (data : Word)
  /-- PREEMPT_VERIFY (R244): 802.3br verification on a J port ends, enabling preemption or setting NOPREEMPT. -/
  | preemptVerify (p : Fin 2) (ok : Bool)
  /-- MAC_READ (R236): SW_MAC_CMD READ returns the MAC entry at INDEX. -/
  | macRead (src : Src) (data : Word)
  /-- MAC_WRITE (R236): SW_MAC_CMD WRITE stores a MAC entry at INDEX. -/
  | macWrite (src : Src) (data : Word)
  /-- MAC_LOOKUP (R236): SW_MAC_CMD LOOKUP finds the address and VID and returns its INDEX or MISS. -/
  | macLookup (src : Src) (data : Word)
  /-- MAC_FLUSH_PORT (R236): SW_MAC_CMD FLUSH removes the dynamic entries of one port. -/
  | macFlushPort (src : Src) (data : Word)
  /-- MAC_FLUSH_ALL (R236): SW_MAC_CMD FLUSH all removes every dynamic entry. -/
  | macFlushAll (src : Src) (data : Word)
  /-- VLAN_READ (R234): SW_VLAN_CMD GO with WR = 0 reads a VLAN entry. -/
  | vlanRead (src : Src) (data : Word)
  /-- VLAN_WRITE (R234): SW_VLAN_CMD GO with WR = 1 writes a VLAN entry. -/
  | vlanWrite (src : Src) (data : Word)
  /-- EXPORT_ACK (R251): A received ACK frame applies its index as the ring's consumer index and restarts the watchdog. -/
  | exportAck (x : Fin 64) (r : Fin 8) (index : Word)
  /-- EXPORT_RESEND (R251): Entries unacknowledged after RTO are sent again from the consumer index. -/
  | exportResend (x : Fin 64) (r : Fin 8)
  /-- BARRIER_REQUEST (R258): The high-word write of JASIA_REQ_INST submits a barrier request that is checked and, if accepted, announced. -/
  | barrierRequest (src : Src) (data : Word)
  /-- JASIA_FORWARD (R259): A Jasia frame arriving on a J or uplink port is forwarded with HOP incremented or dropped. -/
  | jasiaForward (p : Fin 6) (bytes : List Byte) (good : Bool)
  /-- BARRIER_ACCEPT (R260): A BARRIER frame of the device's domain and epoch enters the barrier table or is counted. -/
  | barrierAccept (p : Fin 6) (bytes : List Byte) (good : Bool)
  /-- BEACON_RECEIVE (R262): A received BEACON updates distance, topology and the adopted epoch. -/
  | beaconReceive (p : Fin 6) (bytes : List Byte) (good : Bool)
  /-- BEACON_MISS (R262): An interval passes without an expected beacon on a J port and BEACON_MISS counts it. -/
  | beaconMiss (p : Fin 2)
  /-- AUTO_REENABLE (R263): A removed J port whose link has been up RELINK ms and saw a beacon is re-enabled. -/
  | autoReenable (p : Fin 2)
  /-- PTP_FRAME_RECEIVE (R270): A PTP frame is stamped and taken into the PTP receive ring. -/
  | ptpFrameReceive (p : Fin 6) (frame : RxFrame) (stamp : Nat)
  /-- PTP_TRANSMIT (R273): A PTP transmit ring entry is sent one-step or two-step and its egress stamp written back. -/
  | ptpTransmit (egress : Nat)
  /-- KICK (R278): A write of PTP_SERVO.KICK restarts the holdover timer and ends holdover. -/
  | kick (src : Src) (data : Word)
  /-- COMPARATOR_ARM (R279): A write of TB_CMPi_HI arms the comparator, or is refused with PAST. -/
  | comparatorArm (src : Src) (i : Fin 16) (data : Word)
  /-- COMPARATOR_FIRE (R279): TB_NOW equals TIME and the comparator performs its ACTION and re-arms if periodic. -/
  | comparatorFire (i : Fin 16)
  /-- PULSE_END (R279): A comparator's high pulse of WIDTH ticks ends and its pin goes low. -/
  | pulseEnd (p : Fin 8)
  /-- CAPTURE (R280): An edge on TCAPn latches TB_NOW into its FIFO, or sets OVF when full. -/
  | capture (n : Fin 8) (rising : Bool)
  /-- CAPTURE_POP (R280): A read of TB_CAPn_HI removes the oldest stamp from the FIFO. -/
  | capturePop (src : Src) (n : Fin 8)
  /-- INIT_CLEAR (R283): A write of CAN_CTL.INIT = 0 starts bus integration if the bit timing is valid, else is refused and logged. -/
  | initClear (src : Src) (n : Fin 8) (data : Word)
  /-- BUS_INTEGRATION (R287): After 11 recessive bits the CAN controller takes part on the bus and SYNC reads 1. -/
  | busIntegration (n : Fin 8)
  /-- CAN_FRAME_RECEIVE (R294): An error-free CAN frame is filtered and stored in a FIFO or rejected. -/
  | canFrameReceive (n : Fin 8) (frame : CanFrame) (sof : CanSof)
  /-- CAN_TRANSMIT (R296): The controller starts its winning pending buffer's frame and ends it sent, retried or failed. -/
  | canTransmit (n : Fin 8) (sof : CanSof) (dly : Nat) (fate : CanFate)
  /-- CAN_ERROR (R289): A CAN protocol error updates TEC or REC and the error state. -/
  | canError (n : Fin 8) (err : CanErr) (dataPhase : Bool) (count : CanCount)
  /-- RECOVERED (R290): The bus-off recovery count completes and the controller becomes error-active. -/
  | recovered (n : Fin 8)
  /-- CAN_RESTART (R291): A write of CAN_SUP_CMD.RESTART clears the latch and starts recovery. -/
  | canRestart (src : Src) (n : Fin 8) (data : Word)
  /-- TXGO (R296): A write of 1 to a CAN_TXGO bit makes the buffer pending. -/
  | txgo (src : Src) (n : Fin 8) (data : Word)
  /-- TXABORT (R297): A write of 1 to a CAN_TXABORT bit withdraws the buffer now or at the end of its attempt. -/
  | txabort (src : Src) (n : Fin 8) (data : Word)
  /-- CAN_FIFO_CI_WRITE (R295): A write of CAN_FIFOi_CI frees FIFO elements, or is refused and logged. -/
  | canFifoCiWrite (src : Src) (n : Fin 8) (i : Fin 2) (data : Word)
  /-- GATE (R303): GATE #g in the normal world enters the secure world through a valid gate, or aborts with GATE_DENY. -/
  | gate (n : Fin 6) (word : Word) (next : Nat)
  /-- GRET (R304): GRET in the secure world returns to the normal world and releases held interrupts. -/
  | gret (n : Fin 6)
  /-- SECURE_INTERRUPT (R304): A secure interrupt taken in the normal world starts an entry into the secure world. -/
  | secureInterrupt (n : Fin 6) (next : Nat)
  /-- CORE_FAULT (R314): An application core fault fences the core with CAUSE 1. -/
  | coreFault (n : Fin 4)
  /-- KICK_WATCHDOG (R312): A write of CORE_SWDG_KICK.KICK from the core's own secure world restarts its watchdog, else is ignored and logged. -/
  | kickWatchdog (src : Src) (n : Fin 6) (data : Word)
  /-- SECURE_WATCHDOG_EXPIRY (R312): A core's secure watchdog expires, fencing an application core or silencing a pair's heartbeat. -/
  | secureWatchdogExpiry (n : Fin 6)
  /-- GATE_TIMER_EXPIRY (R313): An entry lasts longer than GATE_MAX and acts as a watchdog expiry with CAUSE 3. -/
  | gateTimerExpiry (n : Fin 6)
  /-- QUIESCE (R318): A PWR_QREQ QUIESCE request is arbitrated by world and tag and drains the block. -/
  | quiesce (src : Src) (data : Word)
  /-- QREQ_RESUME (R318): A PWR_QREQ RESUME request is arbitrated and returns the block to ON. -/
  | qreqResume (src : Src) (data : Word)
  /-- RETAIN (R318): A PWR_QREQ RETAIN request is arbitrated and puts the block into retention or self-refresh. -/
  | retain (src : Src) (data : Word)
  /-- OFF (R318): A PWR_QREQ OFF request is arbitrated and switches the block off, losing its contents. -/
  | off (src : Src) (data : Word)
  /-- QTAG_WRITE (R318): A secure write of PWR_QTAGb.TAG changes ownership and may act or refuse a deferred request. -/
  | qtagWrite (src : Src) (b : Fin 64) (data : Word)
  /-- REQUEST_DRAINED (R318): An acted request's handshakes have drained and the block begins its state change. -/
  | requestDrained (secure : Bool)
  /-- BANK_TRANSITION_DONE (R354): A bank completes its power-state transition and the request reads DONE. -/
  | bankTransitionDone (n : Fin 12)
  /-- LOCKSTEP_COMPARE (R323): The shadow's transaction is compared with the primary's by both comparators. -/
  | lockstepCompare (p : Fin 2) (primary : List Txn) (shadow : Option Txn) (xErr : Bool) (yErr : Bool) (flips : Nat)
  /-- STATE_DIGEST (R325): Each core emits a state digest when its compared-transaction count reaches a multiple of 65,536. -/
  | stateDigest (p : Fin 2) (primary : List Byte) (shadow : List Byte) (xErr : Bool) (yErr : Bool) (flips : Nat)
  /-- INJECTION_TEST (R327): Every INJ_PERIOD ms one comparator is tested by inverting one bit of the shadow vector. -/
  | injectionTest (p : Fin 2) (primary : List Txn) (shadow : Option Txn) (xErr : Bool) (yErr : Bool) (flips : Nat)
  /-- LAG_TIMEOUT (R320): The primary stalled for LAG_TO µs faults the pair with cause STALL. -/
  | lagTimeout (p : Fin 2)
  /-- REACTION_TEST (R331): A write of LS_p_TEST.FAULT causes a pair fault with cause TEST on a CHECKING pair. -/
  | reactionTest (src : Src) (p : Fin 2) (data : Word)
  /-- CLAIM (R342): A read of MORD_CHc_CLAIM claims a free Mordant channel for the reader or returns 0. -/
  | claim (src : Src) (c : Fin 16)
  /-- DERIVE (R338): DERIVE forms a child key under a parent by the KDF into a slot. -/
  | derive (src : Src) (c : Fin 16)
  /-- INVALIDATE (R346): INVALIDATE sets a slot and its descendants INVALID within 2 µs. -/
  | invalidate (src : Src) (c : Fin 16)
  /-- GCM_ENC (R342): GCM_ENC encrypts data under an AES slot and returns the tag. -/
  | gcmEnc (src : Src) (c : Fin 16)
  /-- GCM_DEC (R342): GCM_DEC decrypts data and writes the plaintext only if the tag verifies. -/
  | gcmDec (src : Src) (c : Fin 16)
  /-- HMAC (R342): HMAC computes HMAC-SHA-384 over data under an HMAC slot. -/
  | hmac (src : Src) (c : Fin 16)
  /-- SIGN (R342): SIGN makes an ECDSA P-384 signature over a digest. -/
  | sign (src : Src) (c : Fin 16)
  /-- PUBKEY (R342): PUBKEY writes the public key of an ECDSA slot or of D_ID. -/
  | pubkey (src : Src) (c : Fin 16)
  /-- CHAIN_KEY (R345): CHAIN_KEY derives a chain's K_chain from the slice's ledger key and writes it to the slice's memory. -/
  | chainKey (src : Src) (c : Fin 16)
  /-- RANDOM (R342): RANDOM writes CTR_DRBG output. -/
  | random (src : Src) (c : Fin 16)
  /-- EXPORT (R342): EXPORT writes the value of a slot that allows export. -/
  | exportKey (src : Src) (c : Fin 16)
  /-- SLOT_RELEASE (R336): An INVALID slot becomes EMPTY once no operation holds it. -/
  | slotRelease (k : Fin 128)
  /-- LC_REQUEST (R350): A write of MORD_LC_REQ with CONFIRM requests a permitted life-cycle move and starts fuse programming. -/
  | lcRequest (src : Src) (data : Word)
  /-- DRAM_ENABLE (R356): A write of DRAM_CTL.EN = 1 starts training both channels. -/
  | dramEnable (src : Src) (data : Word)
  /-- DRAM_READY (R356): DRAM training completes and DRAM_STAT.READY is set. -/
  | dramReady (trained : Fin 4)
  /-- DRAM_CHANNEL_FAIL (R358): A DRAM channel failing training or exceeding UE_LIM is removed and the window shrinks. -/
  | dramChannelFail (n : Fin 2)
  /-- SCRUB_PASS (R357): The patrol scrubber completes a read-and-correct pass of the window. -/
  | scrubPass (corrected : Nat) (uncorrectable : List Nat)
  /-- AUX_ON_REQUEST (R362): A write of AUX_n_CTL.ON = 1 turns the switch on, holds the request behind a clamp, or is refused. -/
  | auxOnRequest (src : Src) (n : Fin 24) (data : Word)
  /-- AUX_OFF_REQUEST (R361): A write of AUX_n_CTL.ON = 0 turns the switch off through CLAMP or withdraws a held request. -/
  | auxOffRequest (src : Src) (n : Fin 24) (data : Word)
  /-- INRUSH_END (R361): The inrush window ends and the switch enters ON at its normal limit. -/
  | inrushEnd (n : Fin 24)
  /-- CLAMP_END (R361): Current falls below 10 mA with the clamp idle and the switch leaves CLAMP as the turn-off decided. -/
  | clampEnd (n : Fin 24)
  /-- SHORT (R363): A switch in current limit with a large drop for 2 µs turns off for SHORT. -/
  | short (n : Fin 24)
  /-- OVERLOAD (R363): A switch in current limit for LIM_T ms turns off for OVERLOAD. -/
  | overload (n : Fin 24)
  /-- OT (R363): A switch's junction reaching its over-temperature limit turns it off. -/
  | ot (n : Fin 24)
  /-- RETRY (R365): The retry instant after a fault turns the switch on again and advances RETRIES. -/
  | retry (n : Fin 24)
  /-- RETRIES_RESET (R365): One second in ON without a fault returns RETRIES to zero. -/
  | retriesReset (n : Fin 24)
  /-- AUX_CLR (R365): A write of AUX_CLR returns a latched switch to OFF and resets RETRIES. -/
  | auxClr (src : Src) (data : Word)
  /-- OPEN_LOAD (R366): Current below OL_TH for 10 ms in ON declares open load. -/
  | openLoad (n : Fin 24)
  /-- OPEN_LOAD_CLEAR (R366): Current at or above OL_TH for 10 ms clears open load. -/
  | openLoadClear (n : Fin 24)
  /-- GROUP_WARNING (R367): A thermal group reaching GRP_WARN drops its inrush switches to their normal limit. -/
  | groupWarning (g : Fin 6) (temp : Int)
  /-- GROUP_WARNING_CLEAR (R367): The group temperature falls 10 °C below GRP_WARN and the warning clears. -/
  | groupWarningClear (g : Fin 6) (temp : Int)
  /-- DISSIPATION_ESTIMATE (R368): Every 10 µs switch dissipation is estimated and the 4000 mW budget flag updated. -/
  | dissipationEstimate (samples : List AuxSample)
  /-- AUX_HOLD_END (R372): The reset hold of a switch ends after HOLD ms and it takes ON = DEF. -/
  | auxHoldEnd (n : Fin 24)
  /-- MADDER_CYCLE (R375): Each 250 µs Madder cycle evaluates inputs, feedback, heartbeat and requests and drives its outputs. -/
  | madderCycle (a : Nat) (b : Nat) (fb : Nat) (rb : Nat)
  /-- MADDER_SUPPLY_FAULT (R377): Rail, oscillator or configuration-copy faults de-energize every output and lock SF1. -/
  | madderSupplyFault (cause : MadFault)
  /-- HEARTBEAT (R384): A write of MAD_HB is accepted and restarts the heartbeat timeout, or is rejected and counted. -/
  | heartbeat (src : Src) (data : Word)
  /-- SAFETY_REQUEST (R386): A write of MAD_REQ with CONFIRM requests SF1 and SF2 at the next cycle. -/
  | safetyRequest (src : Src) (data : Word)
  /-- TEST_PULSE (R387): Every TP_PER an energized output's switch is turned off for TP_W to test it. -/
  | testPulse (o : Fin 8)
  /-- TEST_PULSE_END (R387): A test pulse ends and its readback passes or locks the output. -/
  | testPulseEnd (ok : Bool)
  /-- FB_FAIL (R382): Feedback disagreeing past FB_T locks the Class B output and acts SF1. -/
  | fbFail (n : Fin 4)
  /-- SRST_PULSE (R390): A falling SRST_IN edge ends a pulse that is accepted to re-arm or rejected and logged. -/
  | srstPulse (highUs : Nat) (pass : Nat)
  /-- REARM_FEEDBACK (R391): Feedback goes off within FB_T and the re-arm tests and energizes the Class A outputs. -/
  | rearmFeedback (fb : Nat) (pass : Nat)
  /-- CFG_COMMIT (R393): A write of MAD_CFG_COMMIT.GO puts a verified staged configuration in force or refuses it. -/
  | cfgCommit (src : Src) (data : Word)
  /-- LOGIC_DIE_RELEASE (R399): Rails and reference valid, the logic die leaves reset and the straps are sampled. -/
  | logicDieRelease (refsel : Bool) (mstr : Bool)
  /-- VIN_WARNING (R401): VIN below PWR_VIN_CFG.WARN sets VIN_LOW and VIN_WARN. -/
  | vinWarning (mv : Nat)
  /-- SUPPLY_EVENT (R402): A VIN or rail fault sends SF1 and the KILL broadcast. -/
  | supplyEvent (rail : Fin 6)
  /-- WRST_N (R405): WRST_N held low for at least 1 µs starts a warm reset. -/
  | wrstN (lowNs : Nat)
  /-- WARM (R405): A write of RST_CTL.WARM with KEY starts a warm reset. -/
  | warm (src : Src) (data : Word)
  /-- BOOT_COMPLETE (R411): The boot ROM verifies and loads the image and releases SP0 to ENTRY_SP, or stops with a code. -/
  | bootComplete (flash : Option (Image × Image)) (drbgOk : Bool) (startOk : Fin 4)
  /-- SVN_REQUEST (R415): A write of RST_SVN_REQ raises the minimum SVN fuses or is refused and logged. -/
  | svnRequest (src : Src) (data : Word)
  /-- CORE_RELEASE (R411): A write of RST_RELEASE releases held cores at RST_ENTRY in the secure world. -/
  | coreRelease (src : Src) (data : Word) (ok : Bool)
  /-- READ (R420): A Gnotar READ transaction returns a port register with STATUS and CRC. -/
  | gnotarRead (req : Nat) (rcrc : Nat)
  /-- WRITE (R420): A Gnotar WRITE transaction writes a port register, or is refused. -/
  | gnotarWrite (req : Nat) (data : Word) (rcrc : Nat)
  /-- CLEAR (R420): A Gnotar CLEAR clears MEMERR and cancels the outstanding memory access. -/
  | gnotarClear (req : Nat) (rcrc : Nat)
  /-- CERT_WORD (R423): A write of DP_CERT stores the next unlock certificate word. -/
  | certWord (data : Word)
  /-- HALT (R427): DP_RUNCTL.HALT stops masked cores at their next instruction boundary within scope. -/
  | halt (mask : Fin 64)
  /-- RUNCTL_RESUME (R427): DP_RUNCTL.RESUME resumes masked halted cores. -/
  | runctlResume (mask : Fin 64)
  /-- RUNCTL_STEP (R427): DP_RUNCTL.STEP executes one instruction of each halted masked core. -/
  | runctlStep (mask : Fin 64)
  /-- BREAKPOINT_HIT (R427): A breakpoint comparator matches and halts its core. -/
  | breakpointHit (n : Fin 6) (comp : Fin 6) (addr : Nat) (kind : BpKind) (pc : Nat)
  /-- CORE_REGISTER_ACCESS (R427): DP_CREG_DATA accesses a register of a halted core. -/
  | coreRegisterAccess (write : Bool) (data : Word)
  /-- MEMORY_WRITE (R428): A write of DP_DATA posts one aligned memory write as master 14. -/
  | memoryWrite (data : Word)
  /-- MEMORY_ACCESS_DONE (R428): A Gnotar memory access completes, delivering data or setting MEMERR. -/
  | memoryAccessDone (ecc : Ecc)
  /-- RETURN (R431): A write of DP_RETURN moves the device to RETURN as MORD_LC_REQ does. -/
  | returnLc (data : Word)
  /-- ROUTE_WRITE (R434): A write of EVT_ROUTEi sets a source's route, or is refused and logged. -/
  | routeWrite (src : Src) (i : Fin 96) (data : Word)
  /-- ENABLE_WRITE (R434): A write of EVT_ENw enables sources, sending a slice vector for a pending source newly enabled. -/
  | enableWrite (src : Src) (w : Fin 3) (data : Word)
  /-- SOFTWARE_EVENT (R433): A write of EVT_SWI raises sources 82–89. -/
  | softwareEvent (src : Src) (data : Word)
  /-- LOG_SELECT (R437): A write of EVT_LOG_SEL latches the selected log entry or marks it STALE. -/
  | logSelect (src : Src) (data : Word)
  /-- LOG_CI_WRITE (R438): A secure write of EVT_LOG_CI consumes log entries under the consumer test. -/
  | logCiWrite (src : Src) (data : Word)
  /-- HOST_LINK_UP (R144): A host port's PCIe link comes up, setting SYS_SVC.PATH_H0 or PATH_H1 so that write-back blocks, buffered completions and records can flow and ATTACH can be accepted. -/
  | hostLinkUp (port : Fin 2)
  /-- VIN_WARNING_CLEAR (R401): VIN rises 100 mV above PWR_VIN_CFG.WARN and PWR_STAT.VIN_LOW clears. -/
  | vinWarningClear (mv : Nat)
  /-- VIO_BANK_CHANGE (R400): A VIO bank is applied, with the bank detecting 1.8 V or 3.3 V, or removed, with its balls going high-impedance. -/
  | vioBankChange (bank : Fin 4) (mv : Nat)
  /-- TB_LOCK (R30): The time-base PLL achieves lock to the reference and sets TB_STAT.LOCK. -/
  | tbLock
  /-- LOSS_OF_REFERENCE (R36): No reference edge for 160 ns clears LOCK, sets HOLD, lets the PLL run free and raises a device fault. -/
  | lossOfReference
  /-- SLEW_END (R34): TB_SLEW.REM reaches zero, TB_STAT.SLEW clears and the time base returns to its trimmed rate. -/
  | slewEnd
  /-- PIN_REACHED (R43): The rail arrives at the pinned value and GOV_STAT.PINNED becomes 1. -/
  | pinReached
  /-- BALANCER_PASS (R128): At each 400·n the balancer forms the power sums and scale factors and evaluates every pending start in order. -/
  | balancerPass
  /-- RESIZE_TIMEOUT (R227): Moves not done within 10 s end RESIZE with NOT_IDLE. -/
  | resizeTimeout
  /-- FABRIC_ROUND (R237): In each 50 ns round each input transfers at most one cell and each output accepts at most two. -/
  | fabricRound
  /-- C_TRANSMIT (R250): An entry made available in port C's transmit ring is sent as a frame into the switch. -/
  | cTransmit
  /-- EXPORT_FRAME (R250): The exporter sends new ring entries of an exported slice in an export frame. -/
  | exportFrame
  /-- BARRIER_REPEAT (R258): A repeat copy of an announced barrier is sent 5 µs after the previous one. -/
  | barrierRepeat
  /-- BEACON_SEND (R262): The master sends a BEACON on its J and branch ports every BEACON ms. -/
  | beaconSend
  /-- MASTER_LOST (R262): No beacon for MASTER_TO intervals sets MASTER_LOST and lets a STANDBY take over. -/
  | masterLost
  /-- HOLDOVER_ENTRY (R278): No KICK for PTP_HOLD.TO ms while LOCKED enters holdover. -/
  | holdoverEntry
  /-- HOLDOVER_EXPIRY (R278): Holdover lasting PTP_HOLD.MAX s clears TB_STAT.LINE and sets HOLD_EXP. -/
  | holdoverExpiry
  /-- DEFER_TIMEOUT (R318): A deferred normal-world request is refused with TIMEOUT after DEFER_TO ms. -/
  | deferTimeout
  /-- MORDANT_COMMAND_DONE (R344): A queued Mordant command finishes, writing its output and result and releasing its key. -/
  | mordantCommandDone
  /-- REMASK_PASS (R348): Every REMASK interval every key's shares are re-masked with fresh random values. -/
  | remaskPass
  /-- DRBG_FAILURE (R342): The entropy source fails its health tests, clearing DRBG_OK and failing SIGN, RANDOM and CREATE. -/
  | drbgFailure
  /-- FUSE_PROGRAMMING_DONE (R417): Fuse programming ends, the new state takes effect and any waiting warm reset starts. -/
  | fuseProgrammingDone
  /-- VAUX_UNDERVOLTAGE (R371): VAUX below its off threshold turns every on switch off, keeping ON. -/
  | vauxUndervoltage
  /-- VAUX_RECOVERY (R371): VAUX above the on threshold for 1 ms turns every switch with ON = 1 on again. -/
  | vauxRecovery
  /-- SAFE_STOP_KILL (R374): Madder's safe-stop decision reaches the logic die, which broadcasts KILL on every ACTIVE lane and turns off SAFE auxiliary switches. -/
  | safeStopKill
  /-- HB_LOST (R384): No accepted beat for HB_TO acts SF1 and SF2 on every output. -/
  | hbLost
  /-- POWER_ON_RESET (R404): VMAD rising through its threshold resets both dies in full. -/
  | powerOnReset
  /-- VIN_RISE (R399): VIN rising through its power-on threshold starts the rail sequence. -/
  | vinRise
  /-- SUPPLY_SHUTDOWN (R402): 20 µs after a supply event the logic die is held in reset and its rails turned off. -/
  | supplyShutdown
  /-- SUPPLY_RESET (R404): VIN recovering after a supply event resets the logic die in full while the power die holds. -/
  | supplyReset
  /-- BOOT_ROM_START (R408): At the later of 200 µs and WRST_N high the boot ROM starts on SP0. -/
  | bootRomStart
  /-- PORT_ACTIVATE (R419): The wake sequence on DIO activates the Gnotar port or performs a line reset. -/
  | portActivate
  /-- GO (R424): DP_CERT_CTL.GO starts verification of the unlock certificate. -/
  | go
  /-- UNLOCK_RESULT (R425): Certificate verification ends, opening a session with its scope and the test root, or recording a failure. -/
  | unlockResult
  /-- LOCK (R426): DP_CERT_CTL.LOCK ends the session, disables breakpoints and resumes halted cores. -/
  | lock
  /-- CERT_CLEAR (R423): DP_CERT_CTL.CLEAR restarts certificate upload at word 0. -/
  | certClear
  /-- GNOTAR_RESET (R429): DP_RUNCTL.RESET starts a warm reset with WSRC = 4. -/
  | gnotarReset
  /-- MEMORY_READ (R428): A read of DP_DATA starts one aligned memory access as master 14. -/
  | memoryRead
  /-- FUSE_GO (R430): DP_FUSE_CTL.GO programs an owner key hash or revocation under PROVISION. -/
  | fuseGo
  /-- DEV (R430): DP_FUSE_CTL.DEV moves a BLANK device to DEVELOP. -/
  | dev
  /-- DRBG_HEALTH_RECOVERY (R342): The entropy source passes its health tests again, MORD_STAT.DRBG_OK returns to 1 and SIGN, RANDOM, CREATE, re-masking and unlock work again. -/
  | drbgHealthRecovery
  /-- SELF_REFRESH_DONE (R359): The DRAM controller completes entry into self-refresh within 5 µs after a RETAIN drains, or exit within 20 µs after a RESUME, and the request reads DONE. -/
  | selfRefreshDone
  deriving DecidableEq, Repr

end Sys2Proof
end

