-- ==== Sys2Proof/Decode.lean ====
section
/-!
DEFINITION. Words that spell commands: the command table gives no row any bits, so no word spells one; and the words of the two
world-switch instructions of a core (R301).
-/

namespace Sys2Proof

/-- The world-switch instruction a 32-bit word is: GATE #g, GRET, an undefined instruction, or another instruction. -/
inductive GateWord where
  | gate (g : Fin 256)
  | gret
  | undefined
  | other
  deriving DecidableEq, Repr

/-- Read an instruction word (R301): one with the bits [31:20] of GATE or of GRET and another wrong fixed bit is undefined. -/
def gateWord (w : Word) : GateWord :=
  let x := w.toNat
  if x / 2 ^ 8 = 0xE71000 then .gate ⟨x % 256, Nat.mod_lt _ (by decide)⟩
  else if x = 0xE7200000 then .gret
  else if x / 2 ^ 20 = 0xE71 ∨ x / 2 ^ 20 = 0xE72 then .undefined
  else .other

/-- The command an `nbits`-bit word spells by the table's bits: none, since spec/opcode_table.json gives no row bits.
[DESIGN CHOICE, log 2] -/
def decodeTableWord (_nbits _w : Nat) : Option Instr := none

end Sys2Proof
end

