-- ==== Sys2Proof/Config.lean ====
section
/-!
DEFINITION. What the spec leaves open or takes from outside it: free values, the contents of memory nothing has
written, and the functions of the standards the spec refers to. None of them has a body, so nothing can be proved
about their values.
-/

namespace Sys2Proof.Config

/-- A value the spec leaves open; the argument is the model's own counter, so each use is a fresh one. [DESIGN CHOICE, log 7] -/
opaque freeNat : Nat → Nat

/-- The byte an address holds that nothing has written since the memory last lost its contents (the first
argument counts the losses). [DESIGN CHOICE, log 4] -/
opaque memByte : Nat → Nat → Byte

/-- SHA-384 of a string of bytes. [PRESUMED, log 8] -/
opaque sha384 : List Byte → List Byte

/-- HMAC-SHA-384: key, message. [PRESUMED, log 8] -/
opaque hmac : List Byte → List Byte → List Byte

/-- AES-256-GCM encryption: key, IV, additional data, plaintext; the ciphertext. [PRESUMED, log 8] -/
opaque gcmCipher : List Byte → List Byte → List Byte → List Byte → List Byte

/-- AES-256-GCM: the tag over key, IV, additional data and plaintext. [PRESUMED, log 8] -/
opaque gcmTag : List Byte → List Byte → List Byte → List Byte → List Byte

/-- AES-256-GCM decryption: key, IV, additional data, ciphertext; the plaintext. [PRESUMED, log 8] -/
opaque gcmPlain : List Byte → List Byte → List Byte → List Byte → List Byte

/-- ECDSA P-384 signature: private value, digest, per-signature secret number. [PRESUMED, log 8] -/
opaque ecdsaSign : List Byte → List Byte → Nat → List Byte

/-- ECDSA P-384 public key of a private value. [PRESUMED, log 8] -/
opaque ecdsaPublic : List Byte → List Byte

/-- ECDSA P-384 verification: public key, digest, signature. [PRESUMED, log 8] -/
opaque ecdsaVerify : List Byte → List Byte → List Byte → Bool

/-- Output of the CTR_DRBG: the model's counter, bytes wanted. [PRESUMED, log 8] -/
opaque drbg : Nat → Nat → List Byte

/-- The engine's sine of R198: amplitude, 48-bit phase. The spec bounds its error by 1 µA, which its user sees to, and leaves the
value. [DESIGN CHOICE, log 9] -/
opaque sine : Int → Nat → Int

/-- The results of R203 as binary64 leaves them: current samples and voltage samples (instant, value in 1/256 units), window start
and end, phase increment. The list holds Z_RE, Z_IM, I_DC, V_DC, I_AMP, V_AMP, COH and DIST, in that order; its user keeps each
within one unit of the formula's value. [DESIGN CHOICE, log 9] -/
opaque impFit : List (Nat × Int) → List (Nat × Int) → Nat → Nat → Nat → List Int

/-- The device root fused at manufacture: 32 bytes no access can read (R333). [DESIGN CHOICE, log 10] -/
opaque deviceRoot : List Byte

/-- DEVICE_ID, fused at manufacture (R334). [DESIGN CHOICE, log 10] -/
opaque deviceId : Nat

/-- What the manufacturer put into the fused device certificate and the spec does not state: its life-cycle code, NONCE, CREATED, and the
signature by Walrun's device certification key (R334). [DESIGN CHOICE, log 10] -/
opaque deviceCertLc : Nat
opaque deviceCertNonce : List Byte
opaque deviceCertCreated : Nat
opaque deviceCertSig : List Byte

/-- SHA-384 of owner key k, as 12 words, as fused at provisioning (R413). [DESIGN CHOICE, log 10] -/
opaque ownerHash : Nat → List Nat

/-- SHA-384 of Walrun's debug key, as 12 words, fused at manufacture (R424). [DESIGN CHOICE, log 10] -/
opaque debugKeyHash : List Nat

/-- The Kind a log entry of code 0x0A carries (R436): 1 a life-cycle request, 2 a minimum-SVN request, 3 an unlock,
4 a rejected SRST_IN pulse. [DEDUCED, log 15] -/
opaque logKind : Nat → Nat

/-- DATA of the log entry of an accepted unlock, of KEY_IDX and SCOPE (R425); the spec gives DATA the key index and does not
say where SCOPE stands. [DEDUCED, log 15] -/
opaque unlockData : Nat → Nat → Nat

/-- MAC address of a switch port, byte 0 lowest (R257); the spec does not say where it comes from. [DESIGN CHOICE, log 9] -/
opaque portMac : Nat → Nat

/-- On-resistance of an auxiliary switch in mΩ at a junction temperature in m°C (R360, R368). [DESIGN CHOICE, log 9] -/
opaque auxOhms : Int → Nat

/-- Clamp voltage of an auxiliary switch in mV (R360, R368). [DESIGN CHOICE, log 9] -/
opaque auxClampMv : Nat

end Sys2Proof.Config
end

