-- ==== Sys2Proof/Machine/RegTypes.lean ====
section
/-!
DEFINITION. The types the register table is written in: a field selector, a field type (R6), a reset value
(R8), a register row.  The register file itself is a sparse list of field values that differ from reset.
-/

namespace Sys2Proof.Machine

/-- One field of one setup register: the register's address, the field's lowest bit and width, its reset
value (R8), and whether the field belongs to the persist domain (kept by a warm reset). -/
structure RF where
  addr : Nat
  lo : Nat
  w : Nat
  dflt : Nat
  keep : Bool
  deriving DecidableEq, Repr

/-- The key a field's value is filed under: its address and lowest bit, and in the last place whether it
persists, so that a warm reset can keep exactly the persistent ones. -/
def RF.key (f : RF) : Nat := (f.addr * 32 + f.lo) * 2 + (if f.keep then 1 else 0)

/-- The field types of R6. -/
inductive FTy where
  | rw | ro | w1c | w1s | wo
  deriving DecidableEq, Repr

/-- A field's reset value; the arrays whose reset depends on the index name the rule. -/
inductive Rst where
  | const (n : Nat)
  | phOfs      -- VAT_BAL_CFG.PH_OFS resets to 16 v
  | slcState   -- SLC_STATE.STATE resets to ACTIVE for S0, FREE otherwise
  | swMode     -- SW_Pp_CFG.MODE
  | bankHome   -- MEM_Bn_CFG.HOME
  deriving DecidableEq, Repr

/-- Who may write a register: any master the checker admits; only S0, else refused and logged (R213); only the
secure world of a core, else refused and logged; only the secure world of a core, else refused under R29; only the
secure world of a Sienna pair, else refused under R29. -/
inductive Auth where
  | any | s0 | secure | secure29 | pair29
  deriving DecidableEq, Repr

/-- One field of a register row: lowest bit, width, type, reset, persist, the admitted values as ranges
(none: every value), and how many low bits must be zero. -/
structure FieldRow where
  lo : Nat
  w : Nat
  ty : FTy
  rst : Rst
  keep : Bool
  ok : List (Nat × Nat)
  zlow : Nat
  deriving DecidableEq, Repr

/-- One register of the index: first address, the arrays it stands in as (count, stride), whether it is the low word of
a pair (R10), who may write it, its fields. -/
structure RegRow where
  base : Nat
  dims : List (Nat × Nat)
  low : Bool
  auth : Auth
  fields : List FieldRow
  deriving DecidableEq, Repr

/-- MEM_Bn_CFG.HOME at reset: the bank's home target (chapter Memory banks and DRAM). -/
def bankHomeReset (n : Nat) : Nat := [4, 5, 0, 1, 2, 3, 8, 9, 10, 11, 8, 8].getD n 0

/-- MAD_CFG_ACT_CRC after reset: the CRC-32 of the configuration at its reset values (R393).
[DESIGN CHOICE, log 11; PRESUMED, log 100] -/
def madResetCrc : Nat := 0xEB798825

/-- The reset value of the field at address `a`. -/
def Rst.value (r : Rst) (base a : Nat) : Nat :=
  match r with
  | .const n => n
  | .phOfs => 16 * ((a - base) / 0x1000)
  | .slcState => if a = base then 1 else 0
  | .swMode => if (a - base) / 0x100 < 2 then 3 else if (a - base) / 0x100 < 6 then 1 else 0
  | .bankHome => bankHomeReset ((a - base) / 4)

/-- Does the offset land on an element of the nested arrays, exactly? -/
def RegRow.hits (dims : List (Nat × Nat)) (off : Nat) : Bool :=
  match dims with
  | [] => off == 0
  | (count, stride) :: ds => off / stride < count && RegRow.hits ds (off % stride)

/-- The row describes the register at address `a`. -/
def RegRow.covers (r : RegRow) (a : Nat) : Bool := r.base ≤ a && RegRow.hits r.dims (a - r.base)

/-- The selector of a table field at address `a`. -/
def FieldRow.sel (f : FieldRow) (base a : Nat) : RF := ⟨a, f.lo, f.w, f.rst.value base a, f.keep⟩

/-- The register file: values of fields that differ from reset, by key, keys rising. -/
abbrev Regs := List (Nat × Nat)

/-- The value filed under a key, if one is. -/
def Regs.find (r : Regs) (k : Nat) : Option Nat :=
  match r with
  | [] => none
  | (k', v) :: rest => if k' = k then some v else Regs.find rest k

/-- File a value under a key, keeping the keys in rising order. -/
def Regs.insert (r : Regs) (k v : Nat) : Regs :=
  match r with
  | [] => [(k, v)]
  | (k', v') :: rest =>
    if k < k' then (k, v) :: (k', v') :: rest
    else if k = k' then (k, v) :: rest
    else (k', v') :: Regs.insert rest k v

/-- Forget what is filed under a key. -/
def Regs.erase (r : Regs) (k : Nat) : Regs := r.filter (fun e => e.1 ≠ k)

/-- The field's value: what is filed, or its reset value. -/
def Regs.get (r : Regs) (f : RF) : Nat := (Regs.find r f.key).getD f.dflt

/-- Give a field a value (its low `w` bits); a value equal to reset is not filed. -/
def Regs.set (r : Regs) (f : RF) (x : Nat) : Regs :=
  if x % 2 ^ f.w = f.dflt then Regs.erase r f.key else Regs.insert r f.key (x % 2 ^ f.w)

/-- The canonical form: keys strictly rising. -/
def Regs.wf : Regs → Bool
  | [] => true
  | [_] => true
  | a :: b :: rest => a.1 < b.1 && Regs.wf (b :: rest)

/-- What a warm reset leaves (R406): the persistent fields. [DESIGN CHOICE, log 24] -/
def Regs.warm (r : Regs) : Regs := r.filter (fun e => e.1 % 2 = 1)

end Sys2Proof.Machine
end

