-- ==== Sys2Proof/Machine/RegFields.lean ====
section
/-!
DEFINITION. The register FIELDS of the setup space, one selector per field (spec/25_register_index.md
lists the registers, the chapter named beside each block defines the field).  A selector says at which
address, from which bit and how wide the field stands, its reset value (R8), and whether it belongs to the
persist domain.  Array registers take their indices as arguments.
-/

namespace Sys2Proof.Machine.Reg

/-! SYS block, base 0x20000000 (file 00/01/05). -/

/-- SYS_ID, address (R1). -/
def SYS_ID_at : Nat := 0x20000000
def SYS_ID_PART : RF := ⟨SYS_ID_at, 16, 16, 9583, false⟩
def SYS_ID_REV : RF := ⟨SYS_ID_at, 8, 8, 162, false⟩

/-- SYS_SVC, address (R21). -/
def SYS_SVC_at : Nat := 0x20000004
def SYS_SVC_BASE : RF := ⟨SYS_SVC_at, 0, 1, 0, false⟩
def SYS_SVC_CHAN : RF := ⟨SYS_SVC_at, 1, 1, 0, false⟩
def SYS_SVC_NET : RF := ⟨SYS_SVC_at, 2, 1, 0, false⟩
def SYS_SVC_PATH_H0 : RF := ⟨SYS_SVC_at, 3, 1, 0, false⟩
def SYS_SVC_PATH_H1 : RF := ⟨SYS_SVC_at, 4, 1, 0, false⟩
def SYS_SVC_PATH_DRAM : RF := ⟨SYS_SVC_at, 5, 1, 0, false⟩
def SYS_SVC_VATS : RF := ⟨SYS_SVC_at, 8, 5, 0, false⟩
def SYS_SVC_CHANS : RF := ⟨SYS_SVC_at, 16, 9, 0, false⟩

/-- SYS_FENCE, address (R24). -/
def SYS_FENCE_at : Nat := 0x20000008
def SYS_FENCE_VAT : RF := ⟨SYS_FENCE_at, 0, 16, 0, true⟩
def SYS_FENCE_AC : RF := ⟨SYS_FENCE_at, 16, 4, 0, false⟩
def SYS_FENCE_SP : RF := ⟨SYS_FENCE_at, 20, 2, 0, false⟩
def SYS_FENCE_DRAM : RF := ⟨SYS_FENCE_at, 22, 2, 0, false⟩
def SYS_FENCE_PORT : RF := ⟨SYS_FENCE_at, 24, 8, 0, true⟩

/-- SYS_VAT_CTL, address (R123). -/
def SYS_VAT_CTL_at : Nat := 0x20000010
def SYS_VAT_CTL_REENABLE : RF := ⟨SYS_VAT_CTL_at, 0, 16, 0, false⟩
def SYS_VAT_CTL_FENCE : RF := ⟨SYS_VAT_CTL_at, 16, 16, 0, false⟩

/-- SYS_CHAN_AVAIL, address (R26). -/
def SYS_CHAN_AVAIL_at (n : Nat) : Nat := 0x20000020 + 0x4 * n
def SYS_CHAN_AVAIL_CH (n : Nat) : RF := ⟨SYS_CHAN_AVAIL_at n, 0, 32, 0, true⟩

/-! PWR block, base 0x20001000 (file 21/02/06/15). -/

/-- PWR_STAT, address (R401). -/
def PWR_STAT_at : Nat := 0x20001000
def PWR_STAT_RAIL_OK : RF := ⟨PWR_STAT_at, 0, 6, 0, false⟩
def PWR_STAT_VAUX_OK : RF := ⟨PWR_STAT_at, 6, 1, 0, false⟩
def PWR_STAT_VIN_LOW : RF := ⟨PWR_STAT_at, 7, 1, 0, false⟩

/-- PWR_VMEAS, address (R398). -/
def PWR_VMEAS_at : Nat := 0x20001004
def PWR_VMEAS_VIN : RF := ⟨PWR_VMEAS_at, 0, 16, 0, false⟩
def PWR_VMEAS_VAUX : RF := ⟨PWR_VMEAS_at, 16, 16, 0, false⟩

/-- PWR_VIN_CFG, address (R398). -/
def PWR_VIN_CFG_at : Nat := 0x20001008
def PWR_VIN_CFG_WARN : RF := ⟨PWR_VIN_CFG_at, 0, 9, 300, true⟩

/-- PWR_EVT, address (R401). -/
def PWR_EVT_at : Nat := 0x2000100C
def PWR_EVT_VIN_WARN : RF := ⟨PWR_EVT_at, 0, 1, 0, false⟩
def PWR_EVT_VAUX_UV : RF := ⟨PWR_EVT_at, 1, 1, 0, false⟩

/-- GOV_CTL, address (R43). -/
def GOV_CTL_at : Nat := 0x20001100
def GOV_CTL_EN : RF := ⟨GOV_CTL_at, 0, 1, 1, true⟩
def GOV_CTL_PIN : RF := ⟨GOV_CTL_at, 1, 1, 0, true⟩
def GOV_CTL_WIN : RF := ⟨GOV_CTL_at, 8, 8, 10, true⟩
def GOV_CTL_TARGET : RF := ⟨GOV_CTL_at, 16, 10, 64, true⟩
def GOV_CTL_HYST : RF := ⟨GOV_CTL_at, 26, 6, 32, true⟩

/-- GOV_PIN, address (R43). -/
def GOV_PIN_at : Nat := 0x20001104
def GOV_PIN_V : RF := ⟨GOV_PIN_at, 0, 6, 30, true⟩

/-- GOV_STAT, address (R42). -/
def GOV_STAT_at : Nat := 0x20001108
def GOV_STAT_VCORE : RF := ⟨GOV_STAT_at, 0, 6, 50, true⟩
def GOV_STAT_PINNED : RF := ⟨GOV_STAT_at, 6, 1, 0, true⟩
def GOV_STAT_MIN_SLACK : RF := ⟨GOV_STAT_at, 16, 16, 32767, true⟩

/-- GOV_LATE_CFG, address (R40). -/
def GOV_LATE_CFG_at : Nat := 0x2000110C
def GOV_LATE_CFG_VAT_FENCE : RF := ⟨GOV_LATE_CFG_at, 0, 8, 8, true⟩

/-- GOV_SLACK_CLR, address (R41). -/
def GOV_SLACK_CLR_at : Nat := 0x20001110
def GOV_SLACK_CLR_CLR : RF := ⟨GOV_SLACK_CLR_at, 0, 1, 0, false⟩

/-- GOV_SLACK, address (R41). -/
def GOV_SLACK_at (u : Nat) : Nat := 0x20001140 + 0x4 * u
def GOV_SLACK_MIN (u : Nat) : RF := ⟨GOV_SLACK_at u, 0, 16, 32767, true⟩

/-- GOV_LATE, address (R40). -/
def GOV_LATE_at (u : Nat) : Nat := 0x20001180 + 0x4 * u
def GOV_LATE_COUNT (u : Nat) : RF := ⟨GOV_LATE_at u, 0, 32, 0, true⟩

/-- GOV_VLATE, address (R40). -/
def GOV_VLATE_at (v : Nat) : Nat := 0x200011C0 + 0x4 * v
def GOV_VLATE_COUNT (v : Nat) : RF := ⟨GOV_VLATE_at v, 0, 32, 0, true⟩

/-- PWR_SEG_DRAW, address (R124). -/
def PWR_SEG_DRAW_at (g : Nat) : Nat := 0x20001200 + 0x8 * g
def PWR_SEG_DRAW_LIMIT (g : Nat) : RF := ⟨PWR_SEG_DRAW_at g, 0, 32, 4294967295, true⟩

/-- PWR_SEG_REGEN, address (R124). -/
def PWR_SEG_REGEN_at (g : Nat) : Nat := 0x20001204 + 0x8 * g
def PWR_SEG_REGEN_LIMIT (g : Nat) : RF := ⟨PWR_SEG_REGEN_at g, 0, 32, 4294967295, true⟩

/-- PWR_BAL_CFG, address (R127). -/
def PWR_BAL_CFG_at : Nat := 0x20001240
def PWR_BAL_CFG_PAIR : RF := ⟨PWR_BAL_CFG_at, 0, 1, 1, true⟩

/-- PWR_SEG_PRED, address (R125). -/
def PWR_SEG_PRED_at (g : Nat) : Nat := 0x20001260 + 0x4 * g
def PWR_SEG_PRED_N (g : Nat) : RF := ⟨PWR_SEG_PRED_at g, 0, 32, 0, true⟩

/-- PWR_SLC_DRAW, address (R124). -/
def PWR_SLC_DRAW_at (s : Nat) : Nat := 0x20001400 + 0x8 * s
def PWR_SLC_DRAW_LIMIT (s : Nat) : RF := ⟨PWR_SLC_DRAW_at s, 0, 32, 4294967295, true⟩

/-- PWR_SLC_REGEN, address (R124). -/
def PWR_SLC_REGEN_at (s : Nat) : Nat := 0x20001404 + 0x8 * s
def PWR_SLC_REGEN_LIMIT (s : Nat) : RF := ⟨PWR_SLC_REGEN_at s, 0, 32, 4294967295, true⟩

/-- PWR_QREQ, address (R318). -/
def PWR_QREQ_at : Nat := 0x20001600
def PWR_QREQ_BLOCK : RF := ⟨PWR_QREQ_at, 0, 8, 0, false⟩
def PWR_QREQ_OP : RF := ⟨PWR_QREQ_at, 8, 3, 0, false⟩

/-- PWR_QSTAT_N, address (R318). -/
def PWR_QSTAT_N_at : Nat := 0x20001604
def PWR_QSTAT_N_BLOCK : RF := ⟨PWR_QSTAT_N_at, 0, 8, 0, false⟩
def PWR_QSTAT_N_PEND : RF := ⟨PWR_QSTAT_N_at, 8, 1, 0, false⟩
def PWR_QSTAT_N_RESULT : RF := ⟨PWR_QSTAT_N_at, 9, 3, 0, false⟩

/-- PWR_QSTAT_S, address (R318). -/
def PWR_QSTAT_S_at : Nat := 0x20001608
def PWR_QSTAT_S_BLOCK : RF := ⟨PWR_QSTAT_S_at, 0, 8, 0, false⟩
def PWR_QSTAT_S_PEND : RF := ⟨PWR_QSTAT_S_at, 8, 1, 0, false⟩
def PWR_QSTAT_S_RESULT : RF := ⟨PWR_QSTAT_S_at, 9, 3, 0, false⟩

/-- PWR_QCFG, address (R318). -/
def PWR_QCFG_at : Nat := 0x2000160C
def PWR_QCFG_DEFER_TO : RF := ⟨PWR_QCFG_at, 0, 16, 100, false⟩

/-- PWR_QTAG, address (R318). -/
def PWR_QTAG_at (b : Nat) : Nat := 0x20001610 + 0x4 * b
def PWR_QTAG_TAG (b : Nat) : RF := ⟨PWR_QTAG_at b, 0, 2, 0, false⟩
def PWR_QTAG_STATE (b : Nat) : RF := ⟨PWR_QTAG_at b, 2, 3, 0, true⟩

/-! RST block, base 0x20002000 (file 21). -/

/-- RST_CTL, address (R405). -/
def RST_CTL_at : Nat := 0x20002000
def RST_CTL_WARM : RF := ⟨RST_CTL_at, 0, 1, 0, false⟩
def RST_CTL_KEY : RF := ⟨RST_CTL_at, 16, 16, 0, false⟩

/-- RST_STAT, address (R405). -/
def RST_STAT_at : Nat := 0x20002004
def RST_STAT_CAUSE : RF := ⟨RST_STAT_at, 0, 2, 0, true⟩
def RST_STAT_WSRC : RF := ⟨RST_STAT_at, 2, 3, 0, true⟩
def RST_STAT_SUP : RF := ⟨RST_STAT_at, 5, 3, 0, false⟩

/-- RST_WCNT, address (R405). -/
def RST_WCNT_at : Nat := 0x20002008
def RST_WCNT_COUNT : RF := ⟨RST_WCNT_at, 0, 32, 0, true⟩

/-- RST_BOOT, address (R411). -/
def RST_BOOT_at : Nat := 0x2000200C
def RST_BOOT_STAGE : RF := ⟨RST_BOOT_at, 0, 4, 0, false⟩
def RST_BOOT_CODE : RF := ⟨RST_BOOT_at, 4, 8, 0, false⟩
def RST_BOOT_SLOT : RF := ⟨RST_BOOT_at, 12, 1, 0, false⟩
def RST_BOOT_PRI_CODE : RF := ⟨RST_BOOT_at, 16, 8, 0, false⟩

/-- RST_REL_LO, address (R411). -/
def RST_REL_LO_at : Nat := 0x20002010
def RST_REL_LO_TS : RF := ⟨RST_REL_LO_at, 0, 32, 0, false⟩

/-- RST_REL_HI, address (R411). -/
def RST_REL_HI_at : Nat := 0x20002014
def RST_REL_HI_TS : RF := ⟨RST_REL_HI_at, 0, 32, 0, false⟩

/-- RST_STRAP, address (R399). -/
def RST_STRAP_at : Nat := 0x20002018
def RST_STRAP_REFSEL : RF := ⟨RST_STRAP_at, 0, 1, 0, true⟩
def RST_STRAP_MSTR : RF := ⟨RST_STRAP_at, 1, 1, 0, true⟩

/-- RST_SVN, address (R415). -/
def RST_SVN_at : Nat := 0x2000201C
def RST_SVN_MIN : RF := ⟨RST_SVN_at, 0, 6, 0, true⟩
def RST_SVN_RUN : RF := ⟨RST_SVN_at, 8, 6, 0, false⟩

/-- RST_SVN_REQ, address (R415). -/
def RST_SVN_REQ_at : Nat := 0x20002020
def RST_SVN_REQ_NEW : RF := ⟨RST_SVN_REQ_at, 0, 6, 0, false⟩
def RST_SVN_REQ_CONFIRM : RF := ⟨RST_SVN_REQ_at, 16, 16, 0, false⟩

/-- RST_DROP, address (R409). -/
def RST_DROP_at : Nat := 0x20002024
def RST_DROP_COUNT : RF := ⟨RST_DROP_at, 0, 32, 0, true⟩

/-- RST_RELEASE, address (R411). -/
def RST_RELEASE_at : Nat := 0x20002028
def RST_RELEASE_CORE : RF := ⟨RST_RELEASE_at, 0, 6, 0, false⟩

/-- RST_ENTRY_LO, address (R411). -/
def RST_ENTRY_LO_at : Nat := 0x2000202C
def RST_ENTRY_LO_ADDR : RF := ⟨RST_ENTRY_LO_at, 0, 32, 0, false⟩

/-- RST_ENTRY_HI, address (R411). -/
def RST_ENTRY_HI_at : Nat := 0x20002030
def RST_ENTRY_HI_ADDR : RF := ⟨RST_ENTRY_HI_at, 0, 32, 0, false⟩

/-! TB block, base 0x20003000 (file 02/13). -/

/-- TB_NOW_LO, address (R31). -/
def TB_NOW_LO_at : Nat := 0x20003000
def TB_NOW_LO_NOW : RF := ⟨TB_NOW_LO_at, 0, 32, 0, true⟩

/-- TB_NOW_HI, address (R31). -/
def TB_NOW_HI_at : Nat := 0x20003004
def TB_NOW_HI_NOW : RF := ⟨TB_NOW_HI_at, 0, 32, 0, true⟩

/-- TB_STAT, address (R36). -/
def TB_STAT_at : Nat := 0x20003008
def TB_STAT_LOCK : RF := ⟨TB_STAT_at, 0, 1, 0, true⟩
def TB_STAT_HOLD : RF := ⟨TB_STAT_at, 1, 1, 0, true⟩
def TB_STAT_LINE : RF := ⟨TB_STAT_at, 2, 1, 0, true⟩
def TB_STAT_SLEW : RF := ⟨TB_STAT_at, 3, 1, 0, true⟩
def TB_STAT_LOADED : RF := ⟨TB_STAT_at, 4, 1, 0, true⟩

/-- TB_CTL, address (R30). -/
def TB_CTL_at : Nat := 0x2000300C
def TB_CTL_REF_SEL : RF := ⟨TB_CTL_at, 0, 1, 0, true⟩

/-- TB_TRIM, address (R33). -/
def TB_TRIM_at : Nat := 0x20003010
def TB_TRIM_PPB : RF := ⟨TB_TRIM_at, 0, 32, 0, true⟩

/-- TB_ADJ, address (R34). -/
def TB_ADJ_at : Nat := 0x20003014
def TB_ADJ_TICKS : RF := ⟨TB_ADJ_at, 0, 32, 0, false⟩

/-- TB_SLEW, address (R34). -/
def TB_SLEW_at : Nat := 0x20003018
def TB_SLEW_RATE : RF := ⟨TB_SLEW_at, 0, 8, 200, true⟩
def TB_SLEW_REM : RF := ⟨TB_SLEW_at, 8, 24, 0, true⟩

/-- TB_LOAD_LO, address (R35). -/
def TB_LOAD_LO_at : Nat := 0x20003020
def TB_LOAD_LO_VALUE : RF := ⟨TB_LOAD_LO_at, 0, 32, 0, false⟩

/-- TB_LOAD_HI, address (R35). -/
def TB_LOAD_HI_at : Nat := 0x20003024
def TB_LOAD_HI_VALUE : RF := ⟨TB_LOAD_HI_at, 0, 32, 0, false⟩

/-- TB_CMP_CTL, address (R279). -/
def TB_CMP_CTL_at (i : Nat) : Nat := 0x20003100 + 0x10 * i
def TB_CMP_CTL_ACTION (i : Nat) : RF := ⟨TB_CMP_CTL_at i, 0, 3, 0, false⟩
def TB_CMP_CTL_PIN (i : Nat) : RF := ⟨TB_CMP_CTL_at i, 3, 3, 0, false⟩
def TB_CMP_CTL_ARMED (i : Nat) : RF := ⟨TB_CMP_CTL_at i, 6, 1, 0, false⟩
def TB_CMP_CTL_PAST (i : Nat) : RF := ⟨TB_CMP_CTL_at i, 7, 1, 0, false⟩
def TB_CMP_CTL_WIDTH (i : Nat) : RF := ⟨TB_CMP_CTL_at i, 8, 24, 0, false⟩

/-- TB_CMP_LO, address (R279). -/
def TB_CMP_LO_at (i : Nat) : Nat := 0x20003104 + 0x10 * i
def TB_CMP_LO_VALUE (i : Nat) : RF := ⟨TB_CMP_LO_at i, 0, 32, 0, false⟩

/-- TB_CMP_HI, address (R279). -/
def TB_CMP_HI_at (i : Nat) : Nat := 0x20003108 + 0x10 * i
def TB_CMP_HI_VALUE (i : Nat) : RF := ⟨TB_CMP_HI_at i, 0, 32, 0, false⟩

/-- TB_CMP_PERIOD, address (R279). -/
def TB_CMP_PERIOD_at (i : Nat) : Nat := 0x2000310C + 0x10 * i
def TB_CMP_PERIOD_VALUE (i : Nat) : RF := ⟨TB_CMP_PERIOD_at i, 0, 32, 0, false⟩

/-- TB_CAP_CTL, address (R280). -/
def TB_CAP_CTL_at (n : Nat) : Nat := 0x20003200 + 0x10 * n
def TB_CAP_CTL_EDGE (n : Nat) : RF := ⟨TB_CAP_CTL_at n, 0, 2, 0, false⟩

/-- TB_CAP_LO, address (R280). -/
def TB_CAP_LO_at (n : Nat) : Nat := 0x20003204 + 0x10 * n
def TB_CAP_LO_TS (n : Nat) : RF := ⟨TB_CAP_LO_at n, 0, 32, 0, false⟩

/-- TB_CAP_HI, address (R280). -/
def TB_CAP_HI_at (n : Nat) : Nat := 0x20003208 + 0x10 * n
def TB_CAP_HI_TS (n : Nat) : RF := ⟨TB_CAP_HI_at n, 0, 32, 0, false⟩

/-- TB_CAP_STAT, address (R280). -/
def TB_CAP_STAT_at (n : Nat) : Nat := 0x2000320C + 0x10 * n
def TB_CAP_STAT_COUNT (n : Nat) : RF := ⟨TB_CAP_STAT_at n, 0, 3, 0, false⟩
def TB_CAP_STAT_OVF (n : Nat) : RF := ⟨TB_CAP_STAT_at n, 3, 1, 0, false⟩

/-- TB_TRIG_EVT, address (R279). -/
def TB_TRIG_EVT_at : Nat := 0x20003300
def TB_TRIG_EVT_CMP : RF := ⟨TB_TRIG_EVT_at, 0, 16, 0, false⟩
def TB_TRIG_EVT_CAP : RF := ⟨TB_TRIG_EVT_at, 16, 8, 0, false⟩

/-! EVT block, base 0x20004000 (file 23). -/

/-- EVT_PEND, address (R433). -/
def EVT_PEND_at (w : Nat) : Nat := 0x20004000 + 0x4 * w
def EVT_PEND_SRC (w : Nat) : RF := ⟨EVT_PEND_at w, 0, 32, 0, true⟩

/-- EVT_EN, address (R434). -/
def EVT_EN_at (w : Nat) : Nat := 0x20004010 + 0x4 * w
def EVT_EN_SRC (w : Nat) : RF := ⟨EVT_EN_at w, 0, 32, 0, true⟩

/-- EVT_SWI, address (R433). -/
def EVT_SWI_at : Nat := 0x20004020
def EVT_SWI_RAISE : RF := ⟨EVT_SWI_at, 0, 8, 0, false⟩

/-- EVT_LOG_PI, address (R436). -/
def EVT_LOG_PI_at : Nat := 0x20004030
def EVT_LOG_PI_VALUE : RF := ⟨EVT_LOG_PI_at, 0, 32, 0, true⟩

/-- EVT_LOG_CI, address (R438). -/
def EVT_LOG_CI_at : Nat := 0x20004034
def EVT_LOG_CI_VALUE : RF := ⟨EVT_LOG_CI_at, 0, 32, 0, true⟩

/-- EVT_LOG_OVW, address (R438). -/
def EVT_LOG_OVW_at : Nat := 0x20004038
def EVT_LOG_OVW_VALUE : RF := ⟨EVT_LOG_OVW_at, 0, 32, 0, true⟩

/-- EVT_LOG_SEL, address (R437). -/
def EVT_LOG_SEL_at : Nat := 0x2000403C
def EVT_LOG_SEL_INDEX : RF := ⟨EVT_LOG_SEL_at, 0, 32, 0, true⟩

/-- EVT_LOG_W, address (R437). -/
def EVT_LOG_W_at (j : Nat) : Nat := 0x20004040 + 0x4 * j
def EVT_LOG_W_WORD (j : Nat) : RF := ⟨EVT_LOG_W_at j, 0, 32, 0, false⟩

/-- EVT_LOG_SSTAT, address (R437). -/
def EVT_LOG_SSTAT_at : Nat := 0x20004050
def EVT_LOG_SSTAT_STALE : RF := ⟨EVT_LOG_SSTAT_at, 0, 1, 0, false⟩

/-- EVT_LOG_CFG, address (R438). -/
def EVT_LOG_CFG_at : Nat := 0x20004054
def EVT_LOG_CFG_WM : RF := ⟨EVT_LOG_CFG_at, 0, 13, 3072, true⟩

/-- EVT_ROUTE, address (R434). -/
def EVT_ROUTE_at (i : Nat) : Nat := 0x20004100 + 0x4 * i
def EVT_ROUTE_KIND (i : Nat) : RF := ⟨EVT_ROUTE_at i, 0, 2, 0, true⟩
def EVT_ROUTE_CORE (i : Nat) : RF := ⟨EVT_ROUTE_at i, 2, 3, 0, true⟩
def EVT_ROUTE_SEC (i : Nat) : RF := ⟨EVT_ROUTE_at i, 5, 1, 0, true⟩
def EVT_ROUTE_SLICE (i : Nat) : RF := ⟨EVT_ROUTE_at i, 6, 6, 0, true⟩
def EVT_ROUTE_VEC (i : Nat) : RF := ⟨EVT_ROUTE_at i, 12, 6, 0, true⟩

/-! VAT block, base 0x20010000 (files 05 06 04 08 09). -/

/-- VAT_STAT, address (R121). -/
def VAT_STAT_at (v : Nat) : Nat := 0x20010000 + 0x1000 * v
def VAT_STAT_IN_SERVICE (v : Nat) : RF := ⟨VAT_STAT_at v, 0, 1, 0, true⟩
def VAT_STAT_FENCED (v : Nat) : RF := ⟨VAT_STAT_at v, 1, 1, 0, true⟩
def VAT_STAT_FENCE_DONE (v : Nat) : RF := ⟨VAT_STAT_at v, 2, 1, 0, true⟩
def VAT_STAT_CAUSE (v : Nat) : RF := ⟨VAT_STAT_at v, 4, 3, 0, true⟩
def VAT_STAT_IDLE (v : Nat) : RF := ⟨VAT_STAT_at v, 16, 16, 65535, true⟩

/-- VAT_LOOP_CFG, address (R116). -/
def VAT_LOOP_CFG_at (v : Nat) : Nat := 0x20010004 + 0x1000 * v
def VAT_LOOP_CFG_ENABLE_HOLD_LIMIT (v : Nat) : RF := ⟨VAT_LOOP_CFG_at v, 0, 16, 50, true⟩
def VAT_LOOP_CFG_ARM_TO (v : Nat) : RF := ⟨VAT_LOOP_CFG_at v, 16, 8, 20, true⟩
def VAT_LOOP_CFG_CLOSE_DLY (v : Nat) : RF := ⟨VAT_LOOP_CFG_at v, 24, 8, 10, true⟩

/-- VAT_RAMP_CFG, address (R113). -/
def VAT_RAMP_CFG_at (v : Nat) : Nat := 0x20010008 + 0x1000 * v
def VAT_RAMP_CFG_RAMP_MAX (v : Nat) : RF := ⟨VAT_RAMP_CFG_at v, 0, 16, 2000, true⟩

/-- VAT_PROT_EVT, address (R115). -/
def VAT_PROT_EVT_at (v : Nat) : Nat := 0x2001000C + 0x1000 * v
def VAT_PROT_EVT_PROT (v : Nat) : RF := ⟨VAT_PROT_EVT_at v, 0, 16, 0, true⟩
def VAT_PROT_EVT_DEFER (v : Nat) : RF := ⟨VAT_PROT_EVT_at v, 16, 16, 0, true⟩

/-- VAT_ORPHAN, address (R118). -/
def VAT_ORPHAN_at (v : Nat) : Nat := 0x20010010 + 0x1000 * v
def VAT_ORPHAN_CH (v : Nat) : RF := ⟨VAT_ORPHAN_at v, 0, 16, 0, true⟩

/-- VAT_CHSTAT, address (R100). -/
def VAT_CHSTAT_at (v : Nat) (k : Nat) : Nat := 0x20010040 + 0x1000 * v + 0x4 * k
def VAT_CHSTAT_STATE (v : Nat) (k : Nat) : RF := ⟨VAT_CHSTAT_at v k, 0, 4, 0, true⟩
def VAT_CHSTAT_MODE (v : Nat) (k : Nat) : RF := ⟨VAT_CHSTAT_at v k, 4, 4, 0, true⟩
def VAT_CHSTAT_TUNE (v : Nat) (k : Nat) : RF := ⟨VAT_CHSTAT_at v k, 8, 5, 0, true⟩
def VAT_CHSTAT_CV_ACT (v : Nat) (k : Nat) : RF := ⟨VAT_CHSTAT_at v k, 13, 1, 0, true⟩
def VAT_CHSTAT_ORPHAN (v : Nat) (k : Nat) : RF := ⟨VAT_CHSTAT_at v k, 14, 1, 0, true⟩
def VAT_CHSTAT_DEFERRED (v : Nat) (k : Nat) : RF := ⟨VAT_CHSTAT_at v k, 15, 1, 0, true⟩
def VAT_CHSTAT_LAST_STOP (v : Nat) (k : Nat) : RF := ⟨VAT_CHSTAT_at v k, 16, 5, 0, true⟩
def VAT_CHSTAT_SEQ (v : Nat) (k : Nat) : RF := ⟨VAT_CHSTAT_at v k, 24, 8, 0, true⟩

/-- VAT_DUTY, address (R104). -/
def VAT_DUTY_at (v : Nat) (k : Nat) : Nat := 0x20010080 + 0x1000 * v + 0x4 * k
def VAT_DUTY_DUTY (v : Nat) (k : Nat) : RF := ⟨VAT_DUTY_at v k, 0, 24, 0, true⟩
def VAT_DUTY_PHASE (v : Nat) (k : Nat) : RF := ⟨VAT_DUTY_at v k, 24, 8, 0, true⟩

/-- VAT_IREF, address (R104). -/
def VAT_IREF_at (v : Nat) (k : Nat) : Nat := 0x200100C0 + 0x1000 * v + 0x4 * k
def VAT_IREF_R (v : Nat) (k : Nat) : RF := ⟨VAT_IREF_at v k, 0, 32, 0, true⟩

/-- VAT_BAL_CFG, address (R124). -/
def VAT_BAL_CFG_at (v : Nat) : Nat := 0x20010200 + 0x1000 * v
def VAT_BAL_CFG_SEG (v : Nat) : RF := ⟨VAT_BAL_CFG_at v, 0, 3, 0, true⟩
def VAT_BAL_CFG_PH_OFS (v : Nat) : RF := ⟨VAT_BAL_CFG_at v, 8, 8, (16 * v), true⟩

/-- VAT_BAL_LOSS, address (R125). -/
def VAT_BAL_LOSS_at (v : Nat) : Nat := 0x20010204 + 0x1000 * v
def VAT_BAL_LOSS_R_LOSS (v : Nat) : RF := ⟨VAT_BAL_LOSS_at v, 0, 16, 0, true⟩
def VAT_BAL_LOSS_P_SW (v : Nat) : RF := ⟨VAT_BAL_LOSS_at v, 16, 16, 0, true⟩

/-- VAT_BAL_DRAW, address (R124). -/
def VAT_BAL_DRAW_at (v : Nat) : Nat := 0x20010208 + 0x1000 * v
def VAT_BAL_DRAW_LIMIT (v : Nat) : RF := ⟨VAT_BAL_DRAW_at v, 0, 32, 4294967295, true⟩

/-- VAT_BAL_REGEN, address (R124). -/
def VAT_BAL_REGEN_at (v : Nat) : Nat := 0x2001020C + 0x1000 * v
def VAT_BAL_REGEN_LIMIT (v : Nat) : RF := ⟨VAT_BAL_REGEN_at v, 0, 32, 4294967295, true⟩

/-- VAT_BAL_OVB, address (R132). -/
def VAT_BAL_OVB_at (v : Nat) : Nat := 0x20010210 + 0x1000 * v
def VAT_BAL_OVB_BAND (v : Nat) : RF := ⟨VAT_BAL_OVB_at v, 0, 16, 1000, true⟩

/-- VAT_BAL_HOLD, address (R128). -/
def VAT_BAL_HOLD_at (v : Nat) : Nat := 0x20010214 + 0x1000 * v
def VAT_BAL_HOLD_LIMIT (v : Nat) : RF := ⟨VAT_BAL_HOLD_at v, 0, 16, 1000, true⟩

/-- VAT_BAL_PRED, address (R125). -/
def VAT_BAL_PRED_at (v : Nat) : Nat := 0x20010218 + 0x1000 * v
def VAT_BAL_PRED_N (v : Nat) : RF := ⟨VAT_BAL_PRED_at v, 0, 32, 0, true⟩

/-- VAT_BAL_STAT, address (R133). -/
def VAT_BAL_STAT_at (v : Nat) : Nat := 0x2001021C + 0x1000 * v
def VAT_BAL_STAT_SD (v : Nat) : RF := ⟨VAT_BAL_STAT_at v, 0, 17, 65536, true⟩
def VAT_BAL_STAT_BROWN (v : Nat) : RF := ⟨VAT_BAL_STAT_at v, 17, 1, 0, true⟩
def VAT_BAL_STAT_LIMIT (v : Nat) : RF := ⟨VAT_BAL_STAT_at v, 18, 1, 0, true⟩

/-- VAT_BAL_EVT, address (R128). -/
def VAT_BAL_EVT_at (v : Nat) : Nat := 0x20010220 + 0x1000 * v
def VAT_BAL_EVT_DEFER (v : Nat) : RF := ⟨VAT_BAL_EVT_at v, 0, 16, 0, true⟩
def VAT_BAL_EVT_BROWN (v : Nat) : RF := ⟨VAT_BAL_EVT_at v, 16, 1, 0, true⟩
def VAT_BAL_EVT_LIMIT (v : Nat) : RF := ⟨VAT_BAL_EVT_at v, 17, 1, 0, true⟩

/-- VAT_PRATE, address (R85). -/
def VAT_PRATE_at (v : Nat) (h : Nat) : Nat := 0x20010400 + 0x1000 * v + 0x4 * h
def VAT_PRATE_RATE0 (v : Nat) (h : Nat) : RF := ⟨VAT_PRATE_at v h, 0, 4, 0, true⟩
def VAT_PRATE_RATE1 (v : Nat) (h : Nat) : RF := ⟨VAT_PRATE_at v h, 4, 4, 0, true⟩
def VAT_PRATE_RATE2 (v : Nat) (h : Nat) : RF := ⟨VAT_PRATE_at v h, 8, 4, 0, true⟩
def VAT_PRATE_RATE3 (v : Nat) (h : Nat) : RF := ⟨VAT_PRATE_at v h, 12, 4, 0, true⟩
def VAT_PRATE_RATE4 (v : Nat) (h : Nat) : RF := ⟨VAT_PRATE_at v h, 16, 4, 0, true⟩
def VAT_PRATE_RATE5 (v : Nat) (h : Nat) : RF := ⟨VAT_PRATE_at v h, 20, 4, 0, true⟩
def VAT_PRATE_RATE6 (v : Nat) (h : Nat) : RF := ⟨VAT_PRATE_at v h, 24, 4, 0, true⟩
def VAT_PRATE_RATE7 (v : Nat) (h : Nat) : RF := ⟨VAT_PRATE_at v h, 28, 4, 0, true⟩

/-- VAT_CONTACT, address (R96). -/
def VAT_CONTACT_at (v : Nat) : Nat := 0x20010408 + 0x1000 * v
def VAT_CONTACT_WIN (v : Nat) : RF := ⟨VAT_CONTACT_at v, 0, 16, 100, true⟩
def VAT_CONTACT_SETTLE (v : Nat) : RF := ⟨VAT_CONTACT_at v, 16, 16, 200, true⟩

/-- VAT_CAL_COMMIT, address (R90). -/
def VAT_CAL_COMMIT_at (v : Nat) : Nat := 0x2001040C + 0x1000 * v
def VAT_CAL_COMMIT_MASK (v : Nat) : RF := ⟨VAT_CAL_COMMIT_at v, 0, 16, 0, false⟩

/-- VAT_MODF, address (R79). -/
def VAT_MODF_at (v : Nat) : Nat := 0x20010410 + 0x1000 * v
def VAT_MODF_I (v : Nat) : RF := ⟨VAT_MODF_at v, 0, 16, 0, true⟩
def VAT_MODF_V (v : Nat) : RF := ⟨VAT_MODF_at v, 16, 16, 0, true⟩

/-- VAT_MEAS_EVT, address (R91). -/
def VAT_MEAS_EVT_at (v : Nat) : Nat := 0x20010414 + 0x1000 * v
def VAT_MEAS_EVT_TRIP (v : Nat) : RF := ⟨VAT_MEAS_EVT_at v, 0, 16, 0, true⟩
def VAT_MEAS_EVT_MODF (v : Nat) : RF := ⟨VAT_MEAS_EVT_at v, 16, 16, 0, true⟩

/-- VAT_VBUS, address (R95). -/
def VAT_VBUS_at (v : Nat) : Nat := 0x20010418 + 0x1000 * v
def VAT_VBUS_VBUS (v : Nat) : RF := ⟨VAT_VBUS_at v, 0, 32, 0, true⟩

/-- VAT_BRD_TEMP, address (R95). -/
def VAT_BRD_TEMP_at (v : Nat) : Nat := 0x2001041C + 0x1000 * v
def VAT_BRD_TEMP_TEMP (v : Nat) : RF := ⟨VAT_BRD_TEMP_at v, 0, 32, 2147483648, true⟩

/-- VAT_TRIP, address (R93). -/
def VAT_TRIP_at (v : Nat) (k : Nat) : Nat := 0x20010420 + 0x1000 * v + 0x4 * k
def VAT_TRIP_HI (v : Nat) (k : Nat) : RF := ⟨VAT_TRIP_at v k, 0, 8, 26, true⟩
def VAT_TRIP_LO (v : Nat) (k : Nat) : RF := ⟨VAT_TRIP_at v k, 8, 8, 230, true⟩
def VAT_TRIP_CNT (v : Nat) (k : Nat) : RF := ⟨VAT_TRIP_at v k, 16, 3, 1, true⟩

/-- VAT_TOFS, address (R94). -/
def VAT_TOFS_at (v : Nat) (k : Nat) : Nat := 0x20010460 + 0x1000 * v + 0x4 * k
def VAT_TOFS_OFS (v : Nat) (k : Nat) : RF := ⟨VAT_TOFS_at v k, 0, 32, 0, true⟩

/-- VAT_RAWI, address (R84). -/
def VAT_RAWI_at (v : Nat) (k : Nat) : Nat := 0x200104A0 + 0x1000 * v + 0x4 * k
def VAT_RAWI_Q (v : Nat) (k : Nat) : RF := ⟨VAT_RAWI_at v k, 0, 32, 0, true⟩

/-- VAT_RAWV, address (R84). -/
def VAT_RAWV_at (v : Nat) (k : Nat) : Nat := 0x200104E0 + 0x1000 * v + 0x4 * k
def VAT_RAWV_Q (v : Nat) (k : Nat) : RF := ⟨VAT_RAWV_at v k, 0, 32, 0, true⟩

/-- VAT_CAL_GEN, address (R90). -/
def VAT_CAL_GEN_at (v : Nat) (k : Nat) : Nat := 0x20010520 + 0x1000 * v + 0x4 * k
def VAT_CAL_GEN_GEN (v : Nat) (k : Nat) : RF := ⟨VAT_CAL_GEN_at v k, 0, 32, 0, true⟩

/-- VAT_CAL_IG, address (R90). -/
def VAT_CAL_IG_at (v : Nat) (k : Nat) : Nat := 0x20010600 + 0x1000 * v + 0x10 * k
def VAT_CAL_IG_VALUE (v : Nat) (k : Nat) : RF := ⟨VAT_CAL_IG_at v k, 0, 32, 1073741824, true⟩

/-- VAT_CAL_IO, address (R90). -/
def VAT_CAL_IO_at (v : Nat) (k : Nat) : Nat := 0x20010604 + 0x1000 * v + 0x10 * k
def VAT_CAL_IO_VALUE (v : Nat) (k : Nat) : RF := ⟨VAT_CAL_IO_at v k, 0, 32, 0, true⟩

/-- VAT_CAL_VG, address (R90). -/
def VAT_CAL_VG_at (v : Nat) (k : Nat) : Nat := 0x20010608 + 0x1000 * v + 0x10 * k
def VAT_CAL_VG_VALUE (v : Nat) (k : Nat) : RF := ⟨VAT_CAL_VG_at v k, 0, 32, 1073741824, true⟩

/-- VAT_CAL_VO, address (R90). -/
def VAT_CAL_VO_at (v : Nat) (k : Nat) : Nat := 0x2001060C + 0x1000 * v + 0x10 * k
def VAT_CAL_VO_VALUE (v : Nat) (k : Nat) : RF := ⟨VAT_CAL_VO_at v k, 0, 32, 0, true⟩

/-- VAT_LDG_SNAP, address (R456). -/
def VAT_LDG_SNAP_at (v : Nat) : Nat := 0x20010700 + 0x1000 * v
def VAT_LDG_SNAP_CH (v : Nat) : RF := ⟨VAT_LDG_SNAP_at v, 0, 4, 0, false⟩

/-- VAT_LDG_SNAPTS_LO, address (R456). -/
def VAT_LDG_SNAPTS_LO_at (v : Nat) : Nat := 0x20010704 + 0x1000 * v
def VAT_LDG_SNAPTS_LO_TS (v : Nat) : RF := ⟨VAT_LDG_SNAPTS_LO_at v, 0, 32, 0, true⟩

/-- VAT_LDG_SNAPTS_HI, address (R456). -/
def VAT_LDG_SNAPTS_HI_at (v : Nat) : Nat := 0x20010708 + 0x1000 * v
def VAT_LDG_SNAPTS_HI_TS (v : Nat) : RF := ⟨VAT_LDG_SNAPTS_HI_at v, 0, 32, 0, true⟩

/-- VAT_LDG_TOT, address (R456). -/
def VAT_LDG_TOT_at (v : Nat) (w : Nat) : Nat := 0x20010710 + 0x1000 * v + 0x4 * w
def VAT_LDG_TOT_WORD (v : Nat) (w : Nat) : RF := ⟨VAT_LDG_TOT_at v w, 0, 32, 0, true⟩

/-- VAT_LDG_STEP, address (R456). -/
def VAT_LDG_STEP_at (v : Nat) (w : Nat) : Nat := 0x20010740 + 0x1000 * v + 0x4 * w
def VAT_LDG_STEP_WORD (v : Nat) (w : Nat) : RF := ⟨VAT_LDG_STEP_at v w, 0, 32, 0, true⟩

/-- VAT_LDG_DIV, address (R180). -/
def VAT_LDG_DIV_at (v : Nat) : Nat := 0x20010750 + 0x1000 * v
def VAT_LDG_DIV_CH (v : Nat) : RF := ⟨VAT_LDG_DIV_at v, 0, 16, 0, true⟩

/-- VAT_LDG_CLOSED, address (R178). -/
def VAT_LDG_CLOSED_at (v : Nat) : Nat := 0x20010754 + 0x1000 * v
def VAT_LDG_CLOSED_CLOSED (v : Nat) : RF := ⟨VAT_LDG_CLOSED_at v, 0, 1, 0, true⟩

/-- VAT_LDG_BUF, address (R184). -/
def VAT_LDG_BUF_at (v : Nat) : Nat := 0x20010758 + 0x1000 * v
def VAT_LDG_BUF_USED (v : Nat) : RF := ⟨VAT_LDG_BUF_at v, 0, 15, 0, true⟩

/-- VAT_LDG_DROP, address (R185). -/
def VAT_LDG_DROP_at (v : Nat) : Nat := 0x2001075C + 0x1000 * v
def VAT_LDG_DROP_COUNT (v : Nat) : RF := ⟨VAT_LDG_DROP_at v, 0, 32, 0, true⟩

/-- IMP_CTL, address (R197). -/
def IMP_CTL_at (v : Nat) : Nat := 0x20010800 + 0x1000 * v
def IMP_CTL_START (v : Nat) : RF := ⟨IMP_CTL_at v, 0, 1, 0, false⟩
def IMP_CTL_STOP (v : Nat) : RF := ⟨IMP_CTL_at v, 1, 1, 0, false⟩

/-- IMP_MASK, address (R199). -/
def IMP_MASK_at (v : Nat) : Nat := 0x20010804 + 0x1000 * v
def IMP_MASK_MASK (v : Nat) : RF := ⟨IMP_MASK_at v, 0, 16, 0, true⟩

/-- IMP_CFG, address (R197). -/
def IMP_CFG_at (v : Nat) : Nat := 0x20010808 + 0x1000 * v
def IMP_CFG_NPTS (v : Nat) : RF := ⟨IMP_CFG_at v, 0, 7, 1, true⟩
def IMP_CFG_SPREAD (v : Nat) : RF := ⟨IMP_CFG_at v, 7, 1, 1, true⟩
def IMP_CFG_STREAM (v : Nat) : RF := ⟨IMP_CFG_at v, 8, 3, 0, true⟩
def IMP_CFG_REPEAT (v : Nat) : RF := ⟨IMP_CFG_at v, 11, 1, 0, true⟩

/-- IMP_STAT, address (R197). -/
def IMP_STAT_at (v : Nat) : Nat := 0x2001080C + 0x1000 * v
def IMP_STAT_BUSY (v : Nat) : RF := ⟨IMP_STAT_at v, 0, 1, 0, true⟩
def IMP_STAT_POINT (v : Nat) : RF := ⟨IMP_STAT_at v, 8, 6, 0, true⟩
def IMP_STAT_SWEEP (v : Nat) : RF := ⟨IMP_STAT_at v, 16, 16, 0, true⟩

/-- IMP_EVT, address (R197). -/
def IMP_EVT_at (v : Nat) : Nat := 0x20010810 + 0x1000 * v
def IMP_EVT_DONE (v : Nat) : RF := ⟨IMP_EVT_at v, 0, 1, 0, true⟩
def IMP_EVT_DROP (v : Nat) : RF := ⟨IMP_EVT_at v, 1, 1, 0, true⟩

/-- IMP_DROP, address (R211). -/
def IMP_DROP_at (v : Nat) : Nat := 0x20010814 + 0x1000 * v
def IMP_DROP_COUNT (v : Nat) : RF := ⟨IMP_DROP_at v, 0, 32, 0, true⟩

/-- IMP_INC_LO, address (R196). -/
def IMP_INC_LO_at (v : Nat) : Nat := 0x20010818 + 0x1000 * v
def IMP_INC_LO_INC (v : Nat) : RF := ⟨IMP_INC_LO_at v, 0, 32, 0, true⟩

/-- IMP_INC_HI, address (R196). -/
def IMP_INC_HI_at (v : Nat) : Nat := 0x2001081C + 0x1000 * v
def IMP_INC_HI_INC (v : Nat) : RF := ⟨IMP_INC_HI_at v, 0, 32, 0, true⟩

/-- IMP_FREQ, address (R195). -/
def IMP_FREQ_at (v : Nat) (p : Nat) : Nat := 0x20010A00 + 0x1000 * v + 0x8 * p
def IMP_FREQ_FREQ (v : Nat) (p : Nat) : RF := ⟨IMP_FREQ_at v p, 0, 32, 1000000000, true⟩

/-- IMP_PCFG, address (R195). -/
def IMP_PCFG_at (v : Nat) (p : Nat) : Nat := 0x20010A04 + 0x1000 * v + 0x8 * p
def IMP_PCFG_CYCLES (v : Nat) (p : Nat) : RF := ⟨IMP_PCFG_at v p, 0, 10, 9, true⟩
def IMP_PCFG_SETTLE (v : Nat) (p : Nat) : RF := ⟨IMP_PCFG_at v p, 10, 6, 2, true⟩
def IMP_PCFG_AMP (v : Nat) (p : Nat) : RF := ⟨IMP_PCFG_at v p, 16, 10, 100, true⟩

/-! LANE block, base 0x20020000 (file 03). -/

/-- LANE_CTL, address (R72). -/
def LANE_CTL_at (v : Nat) : Nat := 0x20020000 + 0x1000 * v
def LANE_CTL_EN (v : Nat) : RF := ⟨LANE_CTL_at v, 0, 1, 0, true⟩
def LANE_CTL_RETRAIN (v : Nat) : RF := ⟨LANE_CTL_at v, 1, 1, 0, false⟩
def LANE_CTL_TRN_TO (v : Nat) : RF := ⟨LANE_CTL_at v, 8, 8, 50, true⟩
def LANE_CTL_DOWN_GRP (v : Nat) : RF := ⟨LANE_CTL_at v, 16, 4, 4, true⟩
def LANE_CTL_TRN_RETRY (v : Nat) : RF := ⟨LANE_CTL_at v, 20, 2, 3, true⟩

/-- LANE_STAT, address (R72). -/
def LANE_STAT_at (v : Nat) : Nat := 0x20020004 + 0x1000 * v
def LANE_STAT_STATE (v : Nat) : RF := ⟨LANE_STAT_at v, 0, 3, 0, true⟩
def LANE_STAT_UP_LOCK (v : Nat) : RF := ⟨LANE_STAT_at v, 3, 1, 0, true⟩
def LANE_STAT_BRD_LOCK (v : Nat) : RF := ⟨LANE_STAT_at v, 4, 1, 0, true⟩
def LANE_STAT_TRN_FAIL (v : Nat) : RF := ⟨LANE_STAT_at v, 8, 4, 0, true⟩
def LANE_STAT_KLATCH (v : Nat) : RF := ⟨LANE_STAT_at v, 16, 16, 65535, true⟩

/-- LANE_DLY, address (R56). -/
def LANE_DLY_at (v : Nat) : Nat := 0x20020008 + 0x1000 * v
def LANE_DLY_RTT (v : Nat) : RF := ⟨LANE_DLY_at v, 0, 16, 0, true⟩
def LANE_DLY_ONEWAY (v : Nat) : RF := ⟨LANE_DLY_at v, 16, 16, 0, true⟩

/-- LANE_SAMPLE, address (R56). -/
def LANE_SAMPLE_at (v : Nat) : Nat := 0x2002000C + 0x1000 * v
def LANE_SAMPLE_OFS (v : Nat) : RF := ⟨LANE_SAMPLE_at v, 0, 16, 0, true⟩

/-- LANE_ERR_GRP, address (R75). -/
def LANE_ERR_GRP_at (v : Nat) : Nat := 0x20020010 + 0x1000 * v
def LANE_ERR_GRP_COUNT (v : Nat) : RF := ⟨LANE_ERR_GRP_at v, 0, 32, 0, true⟩

/-- LANE_ERR_HDR, address (R75). -/
def LANE_ERR_HDR_at (v : Nat) : Nat := 0x20020014 + 0x1000 * v
def LANE_ERR_HDR_COUNT (v : Nat) : RF := ⟨LANE_ERR_HDR_at v, 0, 32, 0, true⟩

/-- LANE_ERR_DN, address (R75). -/
def LANE_ERR_DN_at (v : Nat) : Nat := 0x20020018 + 0x1000 * v
def LANE_ERR_DN_COUNT (v : Nat) : RF := ⟨LANE_ERR_DN_at v, 0, 32, 0, true⟩

/-- LANE_KILL_CNT, address (R66). -/
def LANE_KILL_CNT_at (v : Nat) : Nat := 0x2002001C + 0x1000 * v
def LANE_KILL_CNT_COUNT (v : Nat) : RF := ⟨LANE_KILL_CNT_at v, 0, 32, 0, true⟩

/-- LANE_DESC, address (R72). -/
def LANE_DESC_at (v : Nat) (i : Nat) : Nat := 0x20020020 + 0x1000 * v + 0x4 * i
def LANE_DESC_WORD (v : Nat) (i : Nat) : RF := ⟨LANE_DESC_at v i, 0, 32, 0, true⟩

/-- LANE_KILL, address (R66). -/
def LANE_KILL_at (v : Nat) : Nat := 0x20020040 + 0x1000 * v
def LANE_KILL_MASK (v : Nat) : RF := ⟨LANE_KILL_at v, 0, 16, 0, false⟩

/-- LANE_EVT, address (R76). -/
def LANE_EVT_at (v : Nat) : Nat := 0x20020044 + 0x1000 * v
def LANE_EVT_DOWN (v : Nat) : RF := ⟨LANE_EVT_at v, 0, 1, 0, true⟩
def LANE_EVT_GRP_ERR (v : Nat) : RF := ⟨LANE_EVT_at v, 1, 1, 0, true⟩
def LANE_EVT_TRN_FAIL (v : Nat) : RF := ⟨LANE_EVT_at v, 2, 1, 0, true⟩
def LANE_EVT_KILL_NOACK (v : Nat) : RF := ⟨LANE_EVT_at v, 3, 1, 0, true⟩
def LANE_EVT_KILL_SUSPECT (v : Nat) : RF := ⟨LANE_EVT_at v, 4, 1, 0, true⟩
def LANE_EVT_CFG_TIMEOUT (v : Nat) : RF := ⟨LANE_EVT_at v, 5, 1, 0, true⟩
def LANE_EVT_BRD_FAULT (v : Nat) : RF := ⟨LANE_EVT_at v, 6, 1, 0, true⟩

/-- LANE_BREG_CTL, address (R62). -/
def LANE_BREG_CTL_at (v : Nat) : Nat := 0x20020048 + 0x1000 * v
def LANE_BREG_CTL_ADDR (v : Nat) : RF := ⟨LANE_BREG_CTL_at v, 0, 8, 0, true⟩
def LANE_BREG_CTL_WR (v : Nat) : RF := ⟨LANE_BREG_CTL_at v, 8, 1, 0, true⟩
def LANE_BREG_CTL_GO (v : Nat) : RF := ⟨LANE_BREG_CTL_at v, 9, 1, 0, false⟩
def LANE_BREG_CTL_BUSY (v : Nat) : RF := ⟨LANE_BREG_CTL_at v, 10, 1, 0, true⟩
def LANE_BREG_CTL_RESULT (v : Nat) : RF := ⟨LANE_BREG_CTL_at v, 11, 2, 0, true⟩

/-- LANE_BREG_DATA, address (R62). -/
def LANE_BREG_DATA_at (v : Nat) : Nat := 0x2002004C + 0x1000 * v
def LANE_BREG_DATA_DATA (v : Nat) : RF := ⟨LANE_BREG_DATA_at v, 0, 32, 0, true⟩

/-! SLICE block, base 0x20030000 (file 10). -/

/-- SLICE_MODE, address (R221). -/
def SLICE_MODE_at : Nat := 0x20030000
def SLICE_MODE_STRICT : RF := ⟨SLICE_MODE_at, 0, 1, 0, true⟩
def SLICE_MODE_LEGACY : RF := ⟨SLICE_MODE_at, 1, 1, 0, true⟩

/-- SLICE_STAT, address (R222). -/
def SLICE_STAT_at : Nat := 0x20030004
def SLICE_STAT_COND : RF := ⟨SLICE_STAT_at, 0, 8, 0, true⟩
def SLICE_STAT_GUARANTEE : RF := ⟨SLICE_STAT_at, 8, 1, 0, true⟩

/-- SLICE_CMD, address (R217). -/
def SLICE_CMD_at : Nat := 0x20030008
def SLICE_CMD_SLICE : RF := ⟨SLICE_CMD_at, 0, 6, 0, false⟩
def SLICE_CMD_OP : RF := ⟨SLICE_CMD_at, 8, 3, 0, false⟩
def SLICE_CMD_PORT : RF := ⟨SLICE_CMD_at, 16, 1, 0, false⟩

/-- SLICE_CMD_STAT, address (R217). -/
def SLICE_CMD_STAT_at : Nat := 0x2003000C
def SLICE_CMD_STAT_BUSY : RF := ⟨SLICE_CMD_STAT_at, 0, 1, 0, true⟩
def SLICE_CMD_STAT_RESULT : RF := ⟨SLICE_CMD_STAT_at, 4, 4, 0, true⟩
def SLICE_CMD_STAT_SLICE : RF := ⟨SLICE_CMD_STAT_at, 8, 6, 0, true⟩

/-- SLICE_EVT, address (R218). -/
def SLICE_EVT_at : Nat := 0x20030010
def SLICE_EVT_DONE : RF := ⟨SLICE_EVT_at, 0, 1, 0, true⟩
def SLICE_EVT_VOID : RF := ⟨SLICE_EVT_at, 1, 1, 0, true⟩
def SLICE_EVT_DPL_OVF : RF := ⟨SLICE_EVT_at, 2, 1, 0, true⟩

/-- SLICE_FREE_VEC, address (R215). -/
def SLICE_FREE_VEC_at : Nat := 0x20030020
def SLICE_FREE_VEC_H0 : RF := ⟨SLICE_FREE_VEC_at, 0, 11, 1024, true⟩
def SLICE_FREE_VEC_H1 : RF := ⟨SLICE_FREE_VEC_at, 16, 11, 1024, true⟩

/-- SLICE_FREE_RES, address (R215). -/
def SLICE_FREE_RES_at : Nat := 0x20030024
def SLICE_FREE_RES_DRAM : RF := ⟨SLICE_FREE_RES_at, 0, 9, 256, true⟩
def SLICE_FREE_RES_SWC : RF := ⟨SLICE_FREE_RES_at, 12, 12, 2048, true⟩
def SLICE_FREE_RES_KEYS : RF := ⟨SLICE_FREE_RES_at, 24, 8, 128, true⟩

/-- DPL_BASE_LO, address (R228). -/
def DPL_BASE_LO_at : Nat := 0x20030100
def DPL_BASE_LO_ADDR : RF := ⟨DPL_BASE_LO_at, 0, 32, 0, true⟩

/-- DPL_BASE_HI, address (R228). -/
def DPL_BASE_HI_at : Nat := 0x20030104
def DPL_BASE_HI_ADDR : RF := ⟨DPL_BASE_HI_at, 0, 32, 0, true⟩

/-- DPL_CFG, address (R228). -/
def DPL_CFG_at : Nat := 0x20030108
def DPL_CFG_EN : RF := ⟨DPL_CFG_at, 0, 1, 0, true⟩
def DPL_CFG_LOG2 : RF := ⟨DPL_CFG_at, 1, 5, 14, true⟩
def DPL_CFG_LOC : RF := ⟨DPL_CFG_at, 6, 1, 0, true⟩

/-- DPL_PI, address (R228). -/
def DPL_PI_at : Nat := 0x2003010C
def DPL_PI_PI : RF := ⟨DPL_PI_at, 0, 32, 0, true⟩

/-- DPL_CI, address (R228). -/
def DPL_CI_at : Nat := 0x20030110
def DPL_CI_CI : RF := ⟨DPL_CI_at, 0, 32, 0, true⟩

/-- DPL_STAT, address (R229). -/
def DPL_STAT_at : Nat := 0x20030114
def DPL_STAT_OVF : RF := ⟨DPL_STAT_at, 0, 1, 0, true⟩

/-- DPL_SLC_LO, address (R228). -/
def DPL_SLC_LO_at : Nat := 0x20030118
def DPL_SLC_LO_MASK : RF := ⟨DPL_SLC_LO_at, 0, 32, 0, true⟩

/-- DPL_SLC_HI, address (R228). -/
def DPL_SLC_HI_at : Nat := 0x2003011C
def DPL_SLC_HI_MASK : RF := ⟨DPL_SLC_HI_at, 0, 32, 0, true⟩

/-! SLC block, base 0x20031000 (file 10). -/

/-- SLC_STATE, address (R216). -/
def SLC_STATE_at (s : Nat) : Nat := 0x20031000 + 0x40 * s
def SLC_STATE_STATE (s : Nat) : RF := ⟨SLC_STATE_at s, 0, 2, (if s = 0 then 1 else 0), true⟩
def SLC_STATE_ORPHAN (s : Nat) : RF := ⟨SLC_STATE_at s, 2, 1, 0, true⟩
def SLC_STATE_KEY_LDG (s : Nat) : RF := ⟨SLC_STATE_at s, 8, 7, 0, true⟩
def SLC_STATE_KEY_SIG (s : Nat) : RF := ⟨SLC_STATE_at s, 16, 7, 0, true⟩

/-- SLC_PASID, address (R212). -/
def SLC_PASID_at (s : Nat) : Nat := 0x20031004 + 0x40 * s
def SLC_PASID_PASID (s : Nat) : RF := ⟨SLC_PASID_at s, 0, 20, 0, true⟩
def SLC_PASID_PORT (s : Nat) : RF := ⟨SLC_PASID_at s, 20, 1, 0, true⟩

/-- SLC_VEC, address (R215). -/
def SLC_VEC_at (s : Nat) : Nat := 0x20031008 + 0x40 * s
def SLC_VEC_COUNT (s : Nat) : RF := ⟨SLC_VEC_at s, 0, 7, 0, true⟩
def SLC_VEC_BASE (s : Nat) : RF := ⟨SLC_VEC_at s, 16, 10, 0, true⟩

/-- SLC_DRAM, address (R215). -/
def SLC_DRAM_at (s : Nat) : Nat := 0x2003100C + 0x40 * s
def SLC_DRAM_SHARE (s : Nat) : RF := ⟨SLC_DRAM_at s, 0, 9, 0, true⟩

/-- SLC_SWQ, address (R215). -/
def SLC_SWQ_at (s : Nat) : Nat := 0x20031010 + 0x40 * s
def SLC_SWQ_CELLS (s : Nat) : RF := ⟨SLC_SWQ_at s, 0, 12, 0, true⟩

/-- SLC_ORPHAN, address (R119). -/
def SLC_ORPHAN_at (s : Nat) : Nat := 0x20031014 + 0x40 * s
def SLC_ORPHAN_POLICY (s : Nat) : RF := ⟨SLC_ORPHAN_at s, 0, 2, 0, true⟩
def SLC_ORPHAN_MAX (s : Nat) : RF := ⟨SLC_ORPHAN_at s, 16, 16, 1000, true⟩

/-- SLC_WDOG, address (R219). -/
def SLC_WDOG_at (s : Nat) : Nat := 0x20031018 + 0x40 * s
def SLC_WDOG_TIMEOUT (s : Nat) : RF := ⟨SLC_WDOG_at s, 0, 16, 0, true⟩
def SLC_WDOG_FREEZE_MAX (s : Nat) : RF := ⟨SLC_WDOG_at s, 16, 16, 40, true⟩

/-- SLC_MIG, address (R230). -/
def SLC_MIG_at (s : Nat) : Nat := 0x2003101C + 0x40 * s
def SLC_MIG_NEW_PASID (s : Nat) : RF := ⟨SLC_MIG_at s, 0, 20, 0, true⟩

/-- SLC_CH, address (R215). -/
def SLC_CH_at (s : Nat) (n : Nat) : Nat := 0x20031020 + 0x40 * s + 0x4 * n
def SLC_CH_CH (s : Nat) (n : Nat) : RF := ⟨SLC_CH_at s n, 0, 32, 0, true⟩

/-! LDG block, base 0x20038000 (file 08). -/

/-- LDG_CFG, address (R190). -/
def LDG_CFG_at (s : Nat) : Nat := 0x20038000 + 0x40 * s
def LDG_CFG_EN (s : Nat) : RF := ⟨LDG_CFG_at s, 0, 1, 0, true⟩
def LDG_CFG_SEAL (s : Nat) : RF := ⟨LDG_CFG_at s, 1, 1, 1, true⟩
def LDG_CFG_CK_LOG2 (s : Nat) : RF := ⟨LDG_CFG_at s, 8, 4, 4, true⟩
def LDG_CFG_LOC (s : Nat) : RF := ⟨LDG_CFG_at s, 12, 2, 0, true⟩
def LDG_CFG_PERIOD (s : Nat) : RF := ⟨LDG_CFG_at s, 16, 16, 10, true⟩

/-- LDG_CK_BASE_LO, address (R192). -/
def LDG_CK_BASE_LO_at (s : Nat) : Nat := 0x20038004 + 0x40 * s
def LDG_CK_BASE_LO_ADDR (s : Nat) : RF := ⟨LDG_CK_BASE_LO_at s, 0, 32, 0, true⟩

/-- LDG_CK_BASE_HI, address (R192). -/
def LDG_CK_BASE_HI_at (s : Nat) : Nat := 0x20038008 + 0x40 * s
def LDG_CK_BASE_HI_ADDR (s : Nat) : RF := ⟨LDG_CK_BASE_HI_at s, 0, 32, 0, true⟩

/-- LDG_CK_PI, address (R191). -/
def LDG_CK_PI_at (s : Nat) : Nat := 0x2003800C + 0x40 * s
def LDG_CK_PI_PI (s : Nat) : RF := ⟨LDG_CK_PI_at s, 0, 32, 0, true⟩

/-- LDG_CK_CI, address (R191). -/
def LDG_CK_CI_at (s : Nat) : Nat := 0x20038010 + 0x40 * s
def LDG_CK_CI_CI (s : Nat) : RF := ⟨LDG_CK_CI_at s, 0, 32, 0, true⟩

/-- LDG_CK_SKIP, address (R191). -/
def LDG_CK_SKIP_at (s : Nat) : Nat := 0x20038014 + 0x40 * s
def LDG_CK_SKIP_COUNT (s : Nat) : RF := ⟨LDG_CK_SKIP_at s, 0, 32, 0, true⟩

/-- LDG_CHAIN_LO, address (R190). -/
def LDG_CHAIN_LO_at (s : Nat) : Nat := 0x20038018 + 0x40 * s
def LDG_CHAIN_LO_ID (s : Nat) : RF := ⟨LDG_CHAIN_LO_at s, 0, 32, 0, true⟩

/-- LDG_CHAIN_HI, address (R190). -/
def LDG_CHAIN_HI_at (s : Nat) : Nat := 0x2003801C + 0x40 * s
def LDG_CHAIN_HI_ID (s : Nat) : RF := ⟨LDG_CHAIN_HI_at s, 0, 32, 0, true⟩

/-! RING block, base 0x20040000 (file 07). -/

/-- SLC_RING_BASE_LO, address (R142). -/
def SLC_RING_BASE_LO_at (s : Nat) (r : Nat) : Nat := 0x20040000 + 0x400 * s + 0x10 * r
def SLC_RING_BASE_LO_ADDR (s : Nat) (r : Nat) : RF := ⟨SLC_RING_BASE_LO_at s r, 0, 32, 0, true⟩

/-- SLC_RING_BASE_HI, address (R142). -/
def SLC_RING_BASE_HI_at (s : Nat) (r : Nat) : Nat := 0x20040004 + 0x400 * s + 0x10 * r
def SLC_RING_BASE_HI_ADDR (s : Nat) (r : Nat) : RF := ⟨SLC_RING_BASE_HI_at s r, 0, 32, 0, true⟩

/-- SLC_RING_CFG, address (R142). -/
def SLC_RING_CFG_at (s : Nat) (r : Nat) : Nat := 0x20040008 + 0x400 * s + 0x10 * r
def SLC_RING_CFG_EN (s : Nat) (r : Nat) : RF := ⟨SLC_RING_CFG_at s r, 0, 1, 0, true⟩
def SLC_RING_CFG_LOG2 (s : Nat) (r : Nat) : RF := ⟨SLC_RING_CFG_at s r, 1, 5, 4, true⟩
def SLC_RING_CFG_LOC (s : Nat) (r : Nat) : RF := ⟨SLC_RING_CFG_at s r, 6, 2, 0, true⟩
def SLC_RING_CFG_ESIZE (s : Nat) (r : Nat) : RF := ⟨SLC_RING_CFG_at s r, 8, 1, 0, true⟩

/-- SLC_RING_IDX, address (R142). -/
def SLC_RING_IDX_at (s : Nat) (r : Nat) : Nat := 0x2004000C + 0x400 * s + 0x10 * r
def SLC_RING_IDX_IDX (s : Nat) (r : Nat) : RF := ⟨SLC_RING_IDX_at s r, 0, 32, 0, true⟩

/-- SLC_WB_LO, address (R144). -/
def SLC_WB_LO_at (s : Nat) : Nat := 0x20040080 + 0x400 * s
def SLC_WB_LO_ADDR (s : Nat) : RF := ⟨SLC_WB_LO_at s, 0, 32, 0, true⟩

/-- SLC_WB_HI, address (R144). -/
def SLC_WB_HI_at (s : Nat) : Nat := 0x20040084 + 0x400 * s
def SLC_WB_HI_ADDR (s : Nat) : RF := ⟨SLC_WB_HI_at s, 0, 32, 0, true⟩

/-- SLC_MIRROR_LO, address (R146). -/
def SLC_MIRROR_LO_at (s : Nat) : Nat := 0x20040088 + 0x400 * s
def SLC_MIRROR_LO_ADDR (s : Nat) : RF := ⟨SLC_MIRROR_LO_at s, 0, 32, 0, true⟩

/-- SLC_MIRROR_HI, address (R146). -/
def SLC_MIRROR_HI_at (s : Nat) : Nat := 0x2004008C + 0x400 * s
def SLC_MIRROR_HI_ADDR (s : Nat) : RF := ⟨SLC_MIRROR_HI_at s, 0, 32, 0, true⟩

/-- SLC_RING_CTL, address (R146). -/
def SLC_RING_CTL_at (s : Nat) : Nat := 0x20040090 + 0x400 * s
def SLC_RING_CTL_POLL (s : Nat) : RF := ⟨SLC_RING_CTL_at s, 0, 8, 10, true⟩
def SLC_RING_CTL_DBSRC (s : Nat) : RF := ⟨SLC_RING_CTL_at s, 8, 1, 0, true⟩
def SLC_RING_CTL_PROG_MS (s : Nat) : RF := ⟨SLC_RING_CTL_at s, 16, 16, 1000, true⟩

/-- SLC_RING_STAT, address (R154). -/
def SLC_RING_STAT_at (s : Nat) : Nat := 0x20040094 + 0x400 * s
def SLC_RING_STAT_CMD_STALL (s : Nat) : RF := ⟨SLC_RING_STAT_at s, 0, 1, 0, true⟩
def SLC_RING_STAT_CMP_FULL (s : Nat) : RF := ⟨SLC_RING_STAT_at s, 1, 1, 0, true⟩
def SLC_RING_STAT_EVT_FULL (s : Nat) : RF := ⟨SLC_RING_STAT_at s, 2, 1, 0, true⟩
def SLC_RING_STAT_ORPHAN (s : Nat) : RF := ⟨SLC_RING_STAT_at s, 3, 1, 0, true⟩
def SLC_RING_STAT_DMA_ERR (s : Nat) : RF := ⟨SLC_RING_STAT_at s, 4, 8, 0, true⟩

/-- SLC_DB_ERR, address (R145). -/
def SLC_DB_ERR_at (s : Nat) : Nat := 0x20040098 + 0x400 * s
def SLC_DB_ERR_COUNT (s : Nat) : RF := ⟨SLC_DB_ERR_at s, 0, 32, 0, true⟩

/-- SLC_EVT_LOST, address (R168). -/
def SLC_EVT_LOST_at (s : Nat) : Nat := 0x2004009C + 0x400 * s
def SLC_EVT_LOST_COUNT (s : Nat) : RF := ⟨SLC_EVT_LOST_at s, 0, 32, 0, true⟩

/-- SLC_PROG_DROP, address (R166). -/
def SLC_PROG_DROP_at (s : Nat) : Nat := 0x200400A0 + 0x400 * s
def SLC_PROG_DROP_COUNT (s : Nat) : RF := ⟨SLC_PROG_DROP_at s, 0, 32, 0, true⟩

/-! SW block, base 0x20050000 (file 11). -/

/-- SW_CTL, address (R252). -/
def SW_CTL_at : Nat := 0x20050000
def SW_CTL_PART : RF := ⟨SW_CTL_at, 0, 1, 0, true⟩
def SW_CTL_MCAST_HOLD : RF := ⟨SW_CTL_at, 8, 10, 20, true⟩
def SW_CTL_AGE : RF := ⟨SW_CTL_at, 18, 14, 300, true⟩

/-- SW_MAXFRM, address (R233). -/
def SW_MAXFRM_at : Nat := 0x20050004
def SW_MAXFRM_BYTES : RF := ⟨SW_MAXFRM_at, 0, 14, 1522, true⟩

/-- SW_EVT, address (R247). -/
def SW_EVT_at : Nat := 0x20050008
def SW_EVT_LEAK : RF := ⟨SW_EVT_at, 0, 1, 0, true⟩
def SW_EVT_DUAL : RF := ⟨SW_EVT_at, 1, 1, 0, true⟩
def SW_EVT_MAC_FULL : RF := ⟨SW_EVT_at, 2, 1, 0, true⟩
def SW_EVT_MC_DROP : RF := ⟨SW_EVT_at, 3, 1, 0, true⟩
def SW_EVT_TAILMARK : RF := ⟨SW_EVT_at, 4, 1, 0, true⟩
def SW_EVT_REMOVED : RF := ⟨SW_EVT_at, 5, 1, 0, true⟩

/-- SW_PORT_REEN, address (R249). -/
def SW_PORT_REEN_at : Nat := 0x2005000C
def SW_PORT_REEN_PORT : RF := ⟨SW_PORT_REEN_at, 0, 8, 0, false⟩

/-- SW_AUDIT, address (R247). -/
def SW_AUDIT_at : Nat := 0x20050010
def SW_AUDIT_PERIOD : RF := ⟨SW_AUDIT_at, 0, 16, 100, true⟩

/-- SW_AUDIT_LEAK, address (R247). -/
def SW_AUDIT_LEAK_at : Nat := 0x20050014
def SW_AUDIT_LEAK_COUNT : RF := ⟨SW_AUDIT_LEAK_at, 0, 32, 0, true⟩

/-- SW_FREE_CELLS, address (R247). -/
def SW_FREE_CELLS_at : Nat := 0x20050018
def SW_FREE_CELLS_CELLS : RF := ⟨SW_FREE_CELLS_at, 0, 15, 24576, true⟩

/-- SW_PCP_MAP, address (R234). -/
def SW_PCP_MAP_at : Nat := 0x2005001C
def SW_PCP_MAP_Q0 : RF := ⟨SW_PCP_MAP_at, 0, 3, 0, true⟩
def SW_PCP_MAP_Q1 : RF := ⟨SW_PCP_MAP_at, 3, 3, 1, true⟩
def SW_PCP_MAP_Q2 : RF := ⟨SW_PCP_MAP_at, 6, 3, 2, true⟩
def SW_PCP_MAP_Q3 : RF := ⟨SW_PCP_MAP_at, 9, 3, 3, true⟩
def SW_PCP_MAP_Q4 : RF := ⟨SW_PCP_MAP_at, 12, 3, 4, true⟩
def SW_PCP_MAP_Q5 : RF := ⟨SW_PCP_MAP_at, 15, 3, 5, true⟩
def SW_PCP_MAP_Q6 : RF := ⟨SW_PCP_MAP_at, 18, 3, 6, true⟩
def SW_PCP_MAP_Q7 : RF := ⟨SW_PCP_MAP_at, 21, 3, 7, true⟩

/-- SW_EXP_CFG, address (R250). -/
def SW_EXP_CFG_at : Nat := 0x20050020
def SW_EXP_CFG_VID : RF := ⟨SW_EXP_CFG_at, 0, 12, 1, true⟩
def SW_EXP_CFG_PCP : RF := ⟨SW_EXP_CFG_at, 12, 3, 5, true⟩
def SW_EXP_CFG_RTO : RF := ⟨SW_EXP_CFG_at, 16, 8, 10, true⟩

/-- SW_EXP_ETYPE, address (R250). -/
def SW_EXP_ETYPE_at : Nat := 0x20050024
def SW_EXP_ETYPE_ETYPE : RF := ⟨SW_EXP_ETYPE_at, 0, 16, 34998, true⟩

/-- SW_EXP_DA_LO, address (R250). -/
def SW_EXP_DA_LO_at : Nat := 0x20050028
def SW_EXP_DA_LO_ADDR : RF := ⟨SW_EXP_DA_LO_at, 0, 32, 0, true⟩

/-- SW_EXP_DA_HI, address (R250). -/
def SW_EXP_DA_HI_at : Nat := 0x2005002C
def SW_EXP_DA_HI_ADDR : RF := ⟨SW_EXP_DA_HI_at, 0, 16, 0, true⟩

/-- SW_EXP_SA_LO, address (R250). -/
def SW_EXP_SA_LO_at : Nat := 0x20050030
def SW_EXP_SA_LO_ADDR : RF := ⟨SW_EXP_SA_LO_at, 0, 32, 0, true⟩

/-- SW_EXP_SA_HI, address (R250). -/
def SW_EXP_SA_HI_at : Nat := 0x20050034
def SW_EXP_SA_HI_ADDR : RF := ⟨SW_EXP_SA_HI_at, 0, 16, 0, true⟩

/-- SW_EXP_SLC_LO, address (R250). -/
def SW_EXP_SLC_LO_at : Nat := 0x20050038
def SW_EXP_SLC_LO_MASK : RF := ⟨SW_EXP_SLC_LO_at, 0, 32, 0, true⟩

/-- SW_EXP_SLC_HI, address (R250). -/
def SW_EXP_SLC_HI_at : Nat := 0x2005003C
def SW_EXP_SLC_HI_MASK : RF := ⟨SW_EXP_SLC_HI_at, 0, 32, 0, true⟩

/-- SW_C_TX_LO, address (R250). -/
def SW_C_TX_LO_at : Nat := 0x20050040
def SW_C_TX_LO_ADDR : RF := ⟨SW_C_TX_LO_at, 0, 32, 0, true⟩

/-- SW_C_TX_HI, address (R250). -/
def SW_C_TX_HI_at : Nat := 0x20050044
def SW_C_TX_HI_ADDR : RF := ⟨SW_C_TX_HI_at, 0, 32, 0, true⟩

/-- SW_C_RX_LO, address (R250). -/
def SW_C_RX_LO_at : Nat := 0x20050048
def SW_C_RX_LO_ADDR : RF := ⟨SW_C_RX_LO_at, 0, 32, 0, true⟩

/-- SW_C_RX_HI, address (R250). -/
def SW_C_RX_HI_at : Nat := 0x2005004C
def SW_C_RX_HI_ADDR : RF := ⟨SW_C_RX_HI_at, 0, 32, 0, true⟩

/-- SW_C_CFG, address (R250). -/
def SW_C_CFG_at : Nat := 0x20050050
def SW_C_CFG_EN : RF := ⟨SW_C_CFG_at, 0, 1, 0, true⟩
def SW_C_CFG_LOG2 : RF := ⟨SW_C_CFG_at, 1, 5, 8, true⟩

/-- SW_C_TX_PI, address (R250). -/
def SW_C_TX_PI_at : Nat := 0x20050054
def SW_C_TX_PI_IDX : RF := ⟨SW_C_TX_PI_at, 0, 32, 0, true⟩

/-- SW_C_TX_CI, address (R250). -/
def SW_C_TX_CI_at : Nat := 0x20050058
def SW_C_TX_CI_IDX : RF := ⟨SW_C_TX_CI_at, 0, 32, 0, true⟩

/-- SW_C_RX_PI, address (R250). -/
def SW_C_RX_PI_at : Nat := 0x2005005C
def SW_C_RX_PI_IDX : RF := ⟨SW_C_RX_PI_at, 0, 32, 0, true⟩

/-- SW_C_RX_CI, address (R250). -/
def SW_C_RX_CI_at : Nat := 0x20050060
def SW_C_RX_CI_IDX : RF := ⟨SW_C_RX_CI_at, 0, 32, 0, true⟩

/-- SW_MAC_CMD, address (R236). -/
def SW_MAC_CMD_at : Nat := 0x20050100
def SW_MAC_CMD_OP : RF := ⟨SW_MAC_CMD_at, 0, 3, 0, false⟩
def SW_MAC_CMD_PORT : RF := ⟨SW_MAC_CMD_at, 8, 3, 0, false⟩
def SW_MAC_CMD_INDEX : RF := ⟨SW_MAC_CMD_at, 16, 13, 0, true⟩
def SW_MAC_CMD_MISS : RF := ⟨SW_MAC_CMD_at, 30, 1, 0, true⟩
def SW_MAC_CMD_BUSY : RF := ⟨SW_MAC_CMD_at, 31, 1, 0, true⟩

/-- SW_MAC_D0, address (R236). -/
def SW_MAC_D0_at : Nat := 0x20050104
def SW_MAC_D0_ADDR_LO : RF := ⟨SW_MAC_D0_at, 0, 32, 0, true⟩

/-- SW_MAC_D1, address (R236). -/
def SW_MAC_D1_at : Nat := 0x20050108
def SW_MAC_D1_ADDR_HI : RF := ⟨SW_MAC_D1_at, 0, 16, 0, true⟩
def SW_MAC_D1_VID : RF := ⟨SW_MAC_D1_at, 16, 12, 0, true⟩

/-- SW_MAC_D2, address (R236). -/
def SW_MAC_D2_at : Nat := 0x2005010C
def SW_MAC_D2_PORTS : RF := ⟨SW_MAC_D2_at, 0, 8, 0, true⟩
def SW_MAC_D2_VALID : RF := ⟨SW_MAC_D2_at, 8, 1, 0, true⟩
def SW_MAC_D2_STATIC : RF := ⟨SW_MAC_D2_at, 9, 1, 0, true⟩

/-- SW_VLAN_CMD, address (R234). -/
def SW_VLAN_CMD_at : Nat := 0x20050120
def SW_VLAN_CMD_VID : RF := ⟨SW_VLAN_CMD_at, 0, 12, 1, true⟩
def SW_VLAN_CMD_WR : RF := ⟨SW_VLAN_CMD_at, 16, 1, 0, true⟩
def SW_VLAN_CMD_GO : RF := ⟨SW_VLAN_CMD_at, 17, 1, 0, false⟩
def SW_VLAN_CMD_BUSY : RF := ⟨SW_VLAN_CMD_at, 31, 1, 0, true⟩

/-- SW_VLAN_DATA, address (R234). -/
def SW_VLAN_DATA_at : Nat := 0x20050124
def SW_VLAN_DATA_MEMBER : RF := ⟨SW_VLAN_DATA_at, 0, 8, 0, true⟩
def SW_VLAN_DATA_UNTAG : RF := ⟨SW_VLAN_DATA_at, 8, 8, 0, true⟩
def SW_VLAN_DATA_LEARN : RF := ⟨SW_VLAN_DATA_at, 16, 1, 0, true⟩

/-! SWP block, base 0x20051000 (file 11). -/

/-- SW_P_CFG, address (R232). -/
def SW_P_CFG_at (p : Nat) : Nat := 0x20051000 + 0x100 * p
def SW_P_CFG_MODE (p : Nat) : RF := ⟨SW_P_CFG_at p, 0, 2, (if p < 2 then 3 else if p < 6 then 1 else 0), true⟩
def SW_P_CFG_AN (p : Nat) : RF := ⟨SW_P_CFG_at p, 2, 1, 1, true⟩
def SW_P_CFG_FC (p : Nat) : RF := ⟨SW_P_CFG_at p, 3, 2, 2, true⟩
def SW_P_CFG_PFC_EN (p : Nat) : RF := ⟨SW_P_CFG_at p, 8, 8, 127, true⟩
def SW_P_CFG_PVID (p : Nat) : RF := ⟨SW_P_CFG_at p, 16, 12, 1, true⟩
def SW_P_CFG_DEF_PCP (p : Nat) : RF := ⟨SW_P_CFG_at p, 28, 3, 0, true⟩
def SW_P_CFG_CT_EN (p : Nat) : RF := ⟨SW_P_CFG_at p, 31, 1, 1, true⟩

/-- SW_P_STAT, address (R248). -/
def SW_P_STAT_at (p : Nat) : Nat := 0x20051004 + 0x100 * p
def SW_P_STAT_LINK (p : Nat) : RF := ⟨SW_P_STAT_at p, 0, 1, 0, true⟩
def SW_P_STAT_REMOVED (p : Nat) : RF := ⟨SW_P_STAT_at p, 1, 1, 0, true⟩
def SW_P_STAT_NOPREEMPT (p : Nat) : RF := ⟨SW_P_STAT_at p, 2, 1, 0, true⟩
def SW_P_STAT_PAUSED (p : Nat) : RF := ⟨SW_P_STAT_at p, 8, 8, 0, true⟩
def SW_P_STAT_XOFF (p : Nat) : RF := ⟨SW_P_STAT_at p, 16, 8, 0, true⟩

/-- SW_P_THR, address (R242). -/
def SW_P_THR_at (p : Nat) : Nat := 0x20051008 + 0x100 * p
def SW_P_THR_XOFF (p : Nat) : RF := ⟨SW_P_THR_at p, 0, 9, 200, true⟩
def SW_P_THR_XON (p : Nat) : RF := ⟨SW_P_THR_at p, 9, 9, 160, true⟩
def SW_P_THR_QXOFF (p : Nat) : RF := ⟨SW_P_THR_at p, 18, 9, 128, true⟩

/-- SW_P_QMIN, address (R239). -/
def SW_P_QMIN_at (p : Nat) : Nat := 0x2005100C + 0x100 * p
def SW_P_QMIN_MIN (p : Nat) : RF := ⟨SW_P_QMIN_at p, 0, 10, 64, true⟩

/-- SW_P_SCHED, address (R238). -/
def SW_P_SCHED_at (p : Nat) : Nat := 0x20051010 + 0x100 * p
def SW_P_SCHED_SP_FROM (p : Nat) : RF := ⟨SW_P_SCHED_at p, 0, 4, 6, true⟩

/-- SW_P_WGT, address (R238). -/
def SW_P_WGT_at (p : Nat) : Nat := 0x20051014 + 0x100 * p
def SW_P_WGT_W0 (p : Nat) : RF := ⟨SW_P_WGT_at p, 0, 4, 1, true⟩
def SW_P_WGT_W1 (p : Nat) : RF := ⟨SW_P_WGT_at p, 4, 4, 1, true⟩
def SW_P_WGT_W2 (p : Nat) : RF := ⟨SW_P_WGT_at p, 8, 4, 1, true⟩
def SW_P_WGT_W3 (p : Nat) : RF := ⟨SW_P_WGT_at p, 12, 4, 1, true⟩
def SW_P_WGT_W4 (p : Nat) : RF := ⟨SW_P_WGT_at p, 16, 4, 1, true⟩
def SW_P_WGT_W5 (p : Nat) : RF := ⟨SW_P_WGT_at p, 20, 4, 1, true⟩
def SW_P_WGT_W6 (p : Nat) : RF := ⟨SW_P_WGT_at p, 24, 4, 1, true⟩
def SW_P_WGT_W7 (p : Nat) : RF := ⟨SW_P_WGT_at p, 28, 4, 1, true⟩

/-! SWC block, base 0x20054000 (file 11). -/

/-- SW_P_CNT_LO, address (R253). -/
def SW_P_CNT_LO_at (p : Nat) (i : Nat) : Nat := 0x20054000 + 0x100 * p + 0x8 * i
def SW_P_CNT_LO_COUNT (p : Nat) (i : Nat) : RF := ⟨SW_P_CNT_LO_at p i, 0, 32, 0, true⟩

/-- SW_P_CNT_HI, address (R253). -/
def SW_P_CNT_HI_at (p : Nat) (i : Nat) : Nat := 0x20054004 + 0x100 * p + 0x8 * i
def SW_P_CNT_HI_COUNT (p : Nat) (i : Nat) : RF := ⟨SW_P_CNT_HI_at p i, 0, 32, 0, true⟩

/-! JASIA block, base 0x20058000 (file 12). -/

/-- JASIA_CFG, address (R256). -/
def JASIA_CFG_at : Nat := 0x20058000
def JASIA_CFG_ROLE : RF := ⟨JASIA_CFG_at, 0, 2, 0, true⟩
def JASIA_CFG_DOMAIN : RF := ⟨JASIA_CFG_at, 2, 3, 0, true⟩
def JASIA_CFG_AUTO_REEN : RF := ⟨JASIA_CFG_at, 5, 1, 1, true⟩
def JASIA_CFG_EN : RF := ⟨JASIA_CFG_at, 6, 1, 0, true⟩
def JASIA_CFG_DEV : RF := ⟨JASIA_CFG_at, 8, 9, 0, true⟩
def JASIA_CFG_UPLINK : RF := ⟨JASIA_CFG_at, 17, 3, 0, true⟩
def JASIA_CFG_BRANCH : RF := ⟨JASIA_CFG_at, 20, 4, 0, true⟩
def JASIA_CFG_REPEAT : RF := ⟨JASIA_CFG_at, 24, 2, 1, true⟩

/-- JASIA_STAT, address (R262). -/
def JASIA_STAT_at : Nat := 0x20058004
def JASIA_STAT_ROLE_NOW : RF := ⟨JASIA_STAT_at, 0, 2, 0, true⟩
def JASIA_STAT_TOPO : RF := ⟨JASIA_STAT_at, 2, 2, 0, true⟩
def JASIA_STAT_MASTER_LOST : RF := ⟨JASIA_STAT_at, 4, 1, 0, true⟩
def JASIA_STAT_J0_UP : RF := ⟨JASIA_STAT_at, 5, 1, 0, true⟩
def JASIA_STAT_J1_UP : RF := ⟨JASIA_STAT_at, 6, 1, 0, true⟩
def JASIA_STAT_MASTER : RF := ⟨JASIA_STAT_at, 7, 9, 0, true⟩
def JASIA_STAT_EPOCH : RF := ⟨JASIA_STAT_at, 16, 16, 0, true⟩

/-- JASIA_POS, address (R262). -/
def JASIA_POS_at : Nat := 0x20058008
def JASIA_POS_HOP_J0 : RF := ⟨JASIA_POS_at, 0, 16, 65535, true⟩
def JASIA_POS_HOP_J1 : RF := ⟨JASIA_POS_at, 16, 16, 65535, true⟩

/-- JASIA_ETYPE, address (R257). -/
def JASIA_ETYPE_at : Nat := 0x20058010
def JASIA_ETYPE_ETYPE : RF := ⟨JASIA_ETYPE_at, 0, 16, 34997, true⟩

/-- JASIA_DA_LO, address (R257). -/
def JASIA_DA_LO_at : Nat := 0x20058014
def JASIA_DA_LO_ADDR : RF := ⟨JASIA_DA_LO_at, 0, 32, 5458435, true⟩

/-- JASIA_DA_HI, address (R257). -/
def JASIA_DA_HI_at : Nat := 0x20058018
def JASIA_DA_HI_ADDR : RF := ⟨JASIA_DA_HI_at, 0, 16, 256, true⟩

/-- JASIA_TIME, address (R262). -/
def JASIA_TIME_at : Nat := 0x2005801C
def JASIA_TIME_BEACON : RF := ⟨JASIA_TIME_at, 0, 8, 10, true⟩
def JASIA_TIME_MASTER_TO : RF := ⟨JASIA_TIME_at, 8, 8, 3, true⟩
def JASIA_TIME_RELINK : RF := ⟨JASIA_TIME_at, 16, 8, 100, true⟩

/-- JASIA_LEAD, address (R266). -/
def JASIA_LEAD_at : Nat := 0x20058020
def JASIA_LEAD_MIN : RF := ⟨JASIA_LEAD_at, 0, 32, 80000, true⟩

/-- JASIA_HOPMAX, address (R259). -/
def JASIA_HOPMAX_at : Nat := 0x20058024
def JASIA_HOPMAX_MAX : RF := ⟨JASIA_HOPMAX_at, 0, 9, 511, true⟩

/-- JASIA_REQ_NUM, address (R258). -/
def JASIA_REQ_NUM_at : Nat := 0x20058030
def JASIA_REQ_NUM_VALUE : RF := ⟨JASIA_REQ_NUM_at, 0, 32, 0, false⟩

/-- JASIA_REQ_INST_LO, address (R258). -/
def JASIA_REQ_INST_LO_at : Nat := 0x20058034
def JASIA_REQ_INST_LO_VALUE : RF := ⟨JASIA_REQ_INST_LO_at, 0, 32, 0, false⟩

/-- JASIA_REQ_INST_HI, address (R258). -/
def JASIA_REQ_INST_HI_at : Nat := 0x20058038
def JASIA_REQ_INST_HI_VALUE : RF := ⟨JASIA_REQ_INST_HI_at, 0, 32, 0, false⟩

/-- JASIA_REQ_STAT, address (R258). -/
def JASIA_REQ_STAT_at : Nat := 0x2005803C
def JASIA_REQ_STAT_RESULT : RF := ⟨JASIA_REQ_STAT_at, 0, 3, 0, true⟩

/-- JASIA_LAST, address (R260). -/
def JASIA_LAST_at : Nat := 0x20058040
def JASIA_LAST_NUMBER : RF := ⟨JASIA_LAST_at, 0, 32, 0, true⟩

/-- JASIA_EVT, address (R260). -/
def JASIA_EVT_at : Nat := 0x20058044
def JASIA_EVT_BREAK : RF := ⟨JASIA_EVT_at, 0, 1, 0, true⟩
def JASIA_EVT_RELINK : RF := ⟨JASIA_EVT_at, 1, 1, 0, true⟩
def JASIA_EVT_MASTER_LOST : RF := ⟨JASIA_EVT_at, 2, 1, 0, true⟩
def JASIA_EVT_TAKEOVER : RF := ⟨JASIA_EVT_at, 3, 1, 0, true⟩
def JASIA_EVT_CONFLICT : RF := ⟨JASIA_EVT_at, 4, 1, 0, true⟩
def JASIA_EVT_LATE_BAR : RF := ⟨JASIA_EVT_at, 5, 1, 0, true⟩
def JASIA_EVT_ROLE_LOST : RF := ⟨JASIA_EVT_at, 6, 1, 0, true⟩

/-- JASIA_BAR_NUM, address (R260). -/
def JASIA_BAR_NUM_at (i : Nat) : Nat := 0x20058080 + 0x10 * i
def JASIA_BAR_NUM_VALUE (i : Nat) : RF := ⟨JASIA_BAR_NUM_at i, 0, 32, 0, true⟩

/-- JASIA_BAR_INST_LO, address (R260). -/
def JASIA_BAR_INST_LO_at (i : Nat) : Nat := 0x20058084 + 0x10 * i
def JASIA_BAR_INST_LO_VALUE (i : Nat) : RF := ⟨JASIA_BAR_INST_LO_at i, 0, 32, 0, true⟩

/-- JASIA_BAR_INST_HI, address (R260). -/
def JASIA_BAR_INST_HI_at (i : Nat) : Nat := 0x20058088 + 0x10 * i
def JASIA_BAR_INST_HI_VALUE (i : Nat) : RF := ⟨JASIA_BAR_INST_HI_at i, 0, 32, 0, true⟩

/-- JASIA_BAR_ARR, address (R260). -/
def JASIA_BAR_ARR_at (i : Nat) : Nat := 0x2005808C + 0x10 * i
def JASIA_BAR_ARR_VALUE (i : Nat) : RF := ⟨JASIA_BAR_ARR_at i, 0, 32, 0, true⟩

/-- JASIA_CNT, address (R260). -/
def JASIA_CNT_at (j : Nat) : Nat := 0x20058200 + 0x4 * j
def JASIA_CNT_COUNT (j : Nat) : RF := ⟨JASIA_CNT_at j, 0, 32, 0, true⟩

/-! PTP block, base 0x20060000 (file 13). -/

/-- PTP_CTL, address (R270). -/
def PTP_CTL_at : Nat := 0x20060000
def PTP_CTL_EN : RF := ⟨PTP_CTL_at, 0, 1, 0, true⟩
def PTP_CTL_TC : RF := ⟨PTP_CTL_at, 1, 1, 1, true⟩

/-- PTP_STAT, address (R278). -/
def PTP_STAT_at : Nat := 0x20060004
def PTP_STAT_HOLDOVER : RF := ⟨PTP_STAT_at, 0, 1, 0, true⟩

/-- PTP_EVT, address (R277). -/
def PTP_EVT_at : Nat := 0x20060008
def PTP_EVT_JUMP : RF := ⟨PTP_EVT_at, 0, 1, 0, true⟩
def PTP_EVT_HOLD_EXP : RF := ⟨PTP_EVT_at, 1, 1, 0, true⟩
def PTP_EVT_BADTX : RF := ⟨PTP_EVT_at, 2, 1, 0, true⟩
def PTP_EVT_RXFULL : RF := ⟨PTP_EVT_at, 3, 1, 0, true⟩

/-- PTP_JUMP, address (R277). -/
def PTP_JUMP_at : Nat := 0x2006000C
def PTP_JUMP_LIMIT : RF := ⟨PTP_JUMP_at, 0, 23, 400, true⟩

/-- PTP_HOLD, address (R278). -/
def PTP_HOLD_at : Nat := 0x20060010
def PTP_HOLD_TO : RF := ⟨PTP_HOLD_at, 0, 16, 100, true⟩
def PTP_HOLD_MAX : RF := ⟨PTP_HOLD_at, 16, 16, 60, true⟩

/-- PTP_SERVO, address (R278). -/
def PTP_SERVO_at : Nat := 0x20060014
def PTP_SERVO_LOCKED : RF := ⟨PTP_SERVO_at, 0, 1, 0, true⟩
def PTP_SERVO_KICK : RF := ⟨PTP_SERVO_at, 1, 1, 0, false⟩

/-- PTP_OFS_LO, address (R268). -/
def PTP_OFS_LO_at : Nat := 0x20060018
def PTP_OFS_LO_VALUE : RF := ⟨PTP_OFS_LO_at, 0, 32, 0, true⟩

/-- PTP_OFS_HI, address (R268). -/
def PTP_OFS_HI_at : Nat := 0x2006001C
def PTP_OFS_HI_VALUE : RF := ⟨PTP_OFS_HI_at, 0, 32, 0, true⟩

/-- PTP_JUMP_CNT, address (R277). -/
def PTP_JUMP_CNT_at : Nat := 0x20060020
def PTP_JUMP_CNT_VALUE : RF := ⟨PTP_JUMP_CNT_at, 0, 32, 0, true⟩

/-- PTP_IPV4, address (R270). -/
def PTP_IPV4_at : Nat := 0x20060024
def PTP_IPV4_VALUE : RF := ⟨PTP_IPV4_at, 0, 32, 0, true⟩

/-- PTP_RX_LO, address (R273). -/
def PTP_RX_LO_at : Nat := 0x20060040
def PTP_RX_LO_ADDR : RF := ⟨PTP_RX_LO_at, 0, 32, 0, true⟩

/-- PTP_RX_HI, address (R273). -/
def PTP_RX_HI_at : Nat := 0x20060044
def PTP_RX_HI_ADDR : RF := ⟨PTP_RX_HI_at, 0, 32, 0, true⟩

/-- PTP_TX_LO, address (R273). -/
def PTP_TX_LO_at : Nat := 0x20060048
def PTP_TX_LO_ADDR : RF := ⟨PTP_TX_LO_at, 0, 32, 0, true⟩

/-- PTP_TX_HI, address (R273). -/
def PTP_TX_HI_at : Nat := 0x2006004C
def PTP_TX_HI_ADDR : RF := ⟨PTP_TX_HI_at, 0, 32, 0, true⟩

/-- PTP_RING_CFG, address (R273). -/
def PTP_RING_CFG_at : Nat := 0x20060050
def PTP_RING_CFG_EN : RF := ⟨PTP_RING_CFG_at, 0, 1, 0, true⟩
def PTP_RING_CFG_LOG2 : RF := ⟨PTP_RING_CFG_at, 1, 5, 6, true⟩

/-- PTP_RX_PI, address (R273). -/
def PTP_RX_PI_at : Nat := 0x20060054
def PTP_RX_PI_IDX : RF := ⟨PTP_RX_PI_at, 0, 32, 0, true⟩

/-- PTP_RX_CI, address (R273). -/
def PTP_RX_CI_at : Nat := 0x20060058
def PTP_RX_CI_IDX : RF := ⟨PTP_RX_CI_at, 0, 32, 0, true⟩

/-- PTP_TX_PI, address (R273). -/
def PTP_TX_PI_at : Nat := 0x2006005C
def PTP_TX_PI_IDX : RF := ⟨PTP_TX_PI_at, 0, 32, 0, true⟩

/-- PTP_TX_CI, address (R273). -/
def PTP_TX_CI_at : Nat := 0x20060060
def PTP_TX_CI_IDX : RF := ⟨PTP_TX_CI_at, 0, 32, 0, true⟩

/-! PTPP block, base 0x20060100 (file 13). -/

/-- PTP_P_CFG, address (R269). -/
def PTP_P_CFG_at (p : Nat) : Nat := 0x20060100 + 0x20 * p
def PTP_P_CFG_MECH (p : Nat) : RF := ⟨PTP_P_CFG_at p, 0, 1, 1, true⟩

/-- PTP_P_ASYM, address (R274). -/
def PTP_P_ASYM_at (p : Nat) : Nat := 0x20060104 + 0x20 * p
def PTP_P_ASYM_VALUE (p : Nat) : RF := ⟨PTP_P_ASYM_at p, 0, 32, 0, true⟩

/-- PTP_P_RXOFS, address (R271). -/
def PTP_P_RXOFS_at (p : Nat) : Nat := 0x20060108 + 0x20 * p
def PTP_P_RXOFS_VALUE (p : Nat) : RF := ⟨PTP_P_RXOFS_at p, 0, 32, 0, true⟩

/-- PTP_P_TXOFS, address (R271). -/
def PTP_P_TXOFS_at (p : Nat) : Nat := 0x2006010C + 0x20 * p
def PTP_P_TXOFS_VALUE (p : Nat) : RF := ⟨PTP_P_TXOFS_at p, 0, 32, 0, true⟩

/-- PTP_P_LINKDLY, address (R274). -/
def PTP_P_LINKDLY_at (p : Nat) : Nat := 0x20060110 + 0x20 * p
def PTP_P_LINKDLY_VALUE (p : Nat) : RF := ⟨PTP_P_LINKDLY_at p, 0, 32, 0, true⟩

/-- PTP_P_DROP, address (R270). -/
def PTP_P_DROP_at (p : Nat) : Nat := 0x20060114 + 0x20 * p
def PTP_P_DROP_VALUE (p : Nat) : RF := ⟨PTP_P_DROP_at p, 0, 32, 0, true⟩

/-! CAN block, base 0x20070000 (file 14). -/

/-- CAN_CTL, address (R283). -/
def CAN_CTL_at (n : Nat) : Nat := 0x20070000 + 0x1000 * n
def CAN_CTL_INIT (n : Nat) : RF := ⟨CAN_CTL_at n, 0, 1, 1, false⟩
def CAN_CTL_FD_EN (n : Nat) : RF := ⟨CAN_CTL_at n, 1, 1, 0, true⟩
def CAN_CTL_BRS_EN (n : Nat) : RF := ⟨CAN_CTL_at n, 2, 1, 0, true⟩
def CAN_CTL_LISTEN (n : Nat) : RF := ⟨CAN_CTL_at n, 3, 1, 0, true⟩
def CAN_CTL_LOOP (n : Nat) : RF := ⟨CAN_CTL_at n, 4, 1, 0, true⟩
def CAN_CTL_ONESHOT (n : Nat) : RF := ⟨CAN_CTL_at n, 5, 1, 0, true⟩
def CAN_CTL_PEX_EN (n : Nat) : RF := ⟨CAN_CTL_at n, 6, 1, 1, true⟩
def CAN_CTL_SSP_EN (n : Nat) : RF := ⟨CAN_CTL_at n, 7, 1, 0, true⟩

/-- CAN_PRESC, address (R283). -/
def CAN_PRESC_at (n : Nat) : Nat := 0x20070004 + 0x1000 * n
def CAN_PRESC_N_PRE (n : Nat) : RF := ⟨CAN_PRESC_at n, 0, 7, 1, true⟩
def CAN_PRESC_D_PRE (n : Nat) : RF := ⟨CAN_PRESC_at n, 8, 6, 1, true⟩

/-- CAN_NBT, address (R283). -/
def CAN_NBT_at (n : Nat) : Nat := 0x20070008 + 0x1000 * n
def CAN_NBT_LEN (n : Nat) : RF := ⟨CAN_NBT_at n, 0, 9, 80, true⟩
def CAN_NBT_SP (n : Nat) : RF := ⟨CAN_NBT_at n, 16, 9, 64, true⟩
def CAN_NBT_SJW (n : Nat) : RF := ⟨CAN_NBT_at n, 25, 7, 16, true⟩

/-- CAN_DBT, address (R283). -/
def CAN_DBT_at (n : Nat) : Nat := 0x2007000C + 0x1000 * n
def CAN_DBT_LEN (n : Nat) : RF := ⟨CAN_DBT_at n, 0, 7, 16, true⟩
def CAN_DBT_SP (n : Nat) : RF := ⟨CAN_DBT_at n, 8, 7, 12, true⟩
def CAN_DBT_SJW (n : Nat) : RF := ⟨CAN_DBT_at n, 16, 6, 4, true⟩

/-- CAN_SSP, address (R286). -/
def CAN_SSP_at (n : Nat) : Nat := 0x20070010 + 0x1000 * n
def CAN_SSP_OFS (n : Nat) : RF := ⟨CAN_SSP_at n, 0, 8, 12, true⟩
def CAN_SSP_DLY (n : Nat) : RF := ⟨CAN_SSP_at n, 16, 8, 0, false⟩

/-- CAN_STAT, address (R289). -/
def CAN_STAT_at (n : Nat) : Nat := 0x20070014 + 0x1000 * n
def CAN_STAT_STATE (n : Nat) : RF := ⟨CAN_STAT_at n, 0, 2, 3, false⟩
def CAN_STAT_SYNC (n : Nat) : RF := ⟨CAN_STAT_at n, 2, 1, 0, false⟩
def CAN_STAT_RECOV (n : Nat) : RF := ⟨CAN_STAT_at n, 3, 1, 0, false⟩
def CAN_STAT_ERR_N (n : Nat) : RF := ⟨CAN_STAT_at n, 8, 3, 0, false⟩
def CAN_STAT_ERR_D (n : Nat) : RF := ⟨CAN_STAT_at n, 12, 3, 0, false⟩

/-- CAN_ECNT, address (R289). -/
def CAN_ECNT_at (n : Nat) : Nat := 0x20070018 + 0x1000 * n
def CAN_ECNT_TEC (n : Nat) : RF := ⟨CAN_ECNT_at n, 0, 9, 0, false⟩
def CAN_ECNT_REC (n : Nat) : RF := ⟨CAN_ECNT_at n, 16, 8, 0, false⟩

/-- CAN_EVT, address (R295). -/
def CAN_EVT_at (n : Nat) : Nat := 0x2007001C + 0x1000 * n
def CAN_EVT_F0_NEW (n : Nat) : RF := ⟨CAN_EVT_at n, 0, 1, 0, false⟩
def CAN_EVT_F0_WM (n : Nat) : RF := ⟨CAN_EVT_at n, 1, 1, 0, false⟩
def CAN_EVT_F0_LOST (n : Nat) : RF := ⟨CAN_EVT_at n, 2, 1, 0, false⟩
def CAN_EVT_F1_NEW (n : Nat) : RF := ⟨CAN_EVT_at n, 3, 1, 0, false⟩
def CAN_EVT_F1_WM (n : Nat) : RF := ⟨CAN_EVT_at n, 4, 1, 0, false⟩
def CAN_EVT_F1_LOST (n : Nat) : RF := ⟨CAN_EVT_at n, 5, 1, 0, false⟩
def CAN_EVT_TX_SENT (n : Nat) : RF := ⟨CAN_EVT_at n, 6, 1, 0, false⟩
def CAN_EVT_TX_ABORTED (n : Nat) : RF := ⟨CAN_EVT_at n, 7, 1, 0, false⟩
def CAN_EVT_WARN (n : Nat) : RF := ⟨CAN_EVT_at n, 8, 1, 0, false⟩
def CAN_EVT_PASSIVE (n : Nat) : RF := ⟨CAN_EVT_at n, 9, 1, 0, false⟩
def CAN_EVT_BUSOFF (n : Nat) : RF := ⟨CAN_EVT_at n, 10, 1, 0, false⟩
def CAN_EVT_RECOVERED (n : Nat) : RF := ⟨CAN_EVT_at n, 11, 1, 0, false⟩
def CAN_EVT_LATCH (n : Nat) : RF := ⟨CAN_EVT_at n, 12, 1, 0, false⟩
def CAN_EVT_PEX (n : Nat) : RF := ⟨CAN_EVT_at n, 13, 1, 0, false⟩
def CAN_EVT_AREA_ERR (n : Nat) : RF := ⟨CAN_EVT_at n, 14, 1, 0, false⟩

/-- CAN_RXDEF, address (R294). -/
def CAN_RXDEF_at (n : Nat) : Nat := 0x20070020 + 0x1000 * n
def CAN_RXDEF_BASE_DEST (n : Nat) : RF := ⟨CAN_RXDEF_at n, 0, 2, 0, true⟩
def CAN_RXDEF_EXT_DEST (n : Nat) : RF := ⟨CAN_RXDEF_at n, 2, 2, 0, true⟩
def CAN_RXDEF_REMOTE (n : Nat) : RF := ⟨CAN_RXDEF_at n, 4, 2, 0, true⟩

/-- CAN_AREA_LO, address (R293). -/
def CAN_AREA_LO_at (n : Nat) : Nat := 0x20070024 + 0x1000 * n
def CAN_AREA_LO_ADDR (n : Nat) : RF := ⟨CAN_AREA_LO_at n, 0, 32, 0, true⟩

/-- CAN_AREA_HI, address (R293). -/
def CAN_AREA_HI_at (n : Nat) : Nat := 0x20070028 + 0x1000 * n
def CAN_AREA_HI_ADDR (n : Nat) : RF := ⟨CAN_AREA_HI_at n, 0, 32, 0, true⟩

/-- CAN_FIFO_PI, address (R295). -/
def CAN_FIFO_PI_at (n : Nat) (i : Nat) : Nat := 0x20070030 + 0x1000 * n + 0x10 * i
def CAN_FIFO_PI_IDX (n : Nat) (i : Nat) : RF := ⟨CAN_FIFO_PI_at n i, 0, 32, 0, false⟩

/-- CAN_FIFO_CI, address (R295). -/
def CAN_FIFO_CI_at (n : Nat) (i : Nat) : Nat := 0x20070034 + 0x1000 * n + 0x10 * i
def CAN_FIFO_CI_IDX (n : Nat) (i : Nat) : RF := ⟨CAN_FIFO_CI_at n i, 0, 32, 0, false⟩

/-- CAN_FIFO_CFG, address (R295). -/
def CAN_FIFO_CFG_at (n : Nat) (i : Nat) : Nat := 0x20070038 + 0x1000 * n + 0x10 * i
def CAN_FIFO_CFG_WM (n : Nat) (i : Nat) : RF := ⟨CAN_FIFO_CFG_at n i, 0, 6, 16, true⟩
def CAN_FIFO_CFG_MODE (n : Nat) (i : Nat) : RF := ⟨CAN_FIFO_CFG_at n i, 6, 1, 0, true⟩

/-- CAN_FIFO_LOST, address (R295). -/
def CAN_FIFO_LOST_at (n : Nat) (i : Nat) : Nat := 0x2007003C + 0x1000 * n + 0x10 * i
def CAN_FIFO_LOST_COUNT (n : Nat) (i : Nat) : RF := ⟨CAN_FIFO_LOST_at n i, 0, 32, 0, true⟩

/-- CAN_TXGO, address (R296). -/
def CAN_TXGO_at (n : Nat) : Nat := 0x20070050 + 0x1000 * n
def CAN_TXGO_BUF (n : Nat) : RF := ⟨CAN_TXGO_at n, 0, 32, 0, false⟩

/-- CAN_TXABORT, address (R297). -/
def CAN_TXABORT_at (n : Nat) : Nat := 0x20070054 + 0x1000 * n
def CAN_TXABORT_BUF (n : Nat) : RF := ⟨CAN_TXABORT_at n, 0, 32, 0, false⟩

/-- CAN_TXSENT, address (R296). -/
def CAN_TXSENT_at (n : Nat) : Nat := 0x20070058 + 0x1000 * n
def CAN_TXSENT_BUF (n : Nat) : RF := ⟨CAN_TXSENT_at n, 0, 32, 0, false⟩

/-- CAN_TXABORTED, address (R297). -/
def CAN_TXABORTED_at (n : Nat) : Nat := 0x2007005C + 0x1000 * n
def CAN_TXABORTED_BUF (n : Nat) : RF := ⟨CAN_TXABORTED_at n, 0, 32, 0, false⟩

/-- CAN_TXFAIL, address (R293). -/
def CAN_TXFAIL_at (n : Nat) : Nat := 0x20070060 + 0x1000 * n
def CAN_TXFAIL_BUF (n : Nat) : RF := ⟨CAN_TXFAIL_at n, 0, 32, 0, false⟩

/-- CAN_TXBUSY, address (R296). -/
def CAN_TXBUSY_at (n : Nat) : Nat := 0x20070064 + 0x1000 * n
def CAN_TXBUSY_BUF (n : Nat) : RF := ⟨CAN_TXBUSY_at n, 0, 32, 0, false⟩

/-- CAN_SUP_CFG, address (R290). -/
def CAN_SUP_CFG_at (n : Nat) : Nat := 0x20070080 + 0x1000 * n
def CAN_SUP_CFG_AUTO (n : Nat) : RF := ⟨CAN_SUP_CFG_at n, 0, 1, 1, true⟩
def CAN_SUP_CFG_MULT (n : Nat) : RF := ⟨CAN_SUP_CFG_at n, 8, 8, 1, true⟩
def CAN_SUP_CFG_LIMIT (n : Nat) : RF := ⟨CAN_SUP_CFG_at n, 16, 8, 0, true⟩
def CAN_SUP_CFG_WIN (n : Nat) : RF := ⟨CAN_SUP_CFG_at n, 24, 8, 60, true⟩

/-- CAN_SUP_STAT, address (R291). -/
def CAN_SUP_STAT_at (n : Nat) : Nat := 0x20070084 + 0x1000 * n
def CAN_SUP_STAT_BOCNT (n : Nat) : RF := ⟨CAN_SUP_STAT_at n, 0, 8, 0, false⟩
def CAN_SUP_STAT_LATCHED (n : Nat) : RF := ⟨CAN_SUP_STAT_at n, 8, 1, 0, false⟩
def CAN_SUP_STAT_REMAIN (n : Nat) : RF := ⟨CAN_SUP_STAT_at n, 16, 16, 0, false⟩

/-- CAN_SUP_CMD, address (R290). -/
def CAN_SUP_CMD_at (n : Nat) : Nat := 0x20070088 + 0x1000 * n
def CAN_SUP_CMD_RESTART (n : Nat) : RF := ⟨CAN_SUP_CMD_at n, 0, 1, 0, false⟩

/-- CAN_BOFF_CNT, address (R291). -/
def CAN_BOFF_CNT_at (n : Nat) : Nat := 0x2007008C + 0x1000 * n
def CAN_BOFF_CNT_COUNT (n : Nat) : RF := ⟨CAN_BOFF_CNT_at n, 0, 32, 0, true⟩

/-- CAN_FILT_MATCH, address (R294). -/
def CAN_FILT_MATCH_at (n : Nat) (f : Nat) : Nat := 0x20070100 + 0x1000 * n + 0x8 * f
def CAN_FILT_MATCH_ID (n : Nat) (f : Nat) : RF := ⟨CAN_FILT_MATCH_at n f, 0, 29, 0, true⟩
def CAN_FILT_MATCH_ACT (n : Nat) (f : Nat) : RF := ⟨CAN_FILT_MATCH_at n f, 29, 2, 0, true⟩
def CAN_FILT_MATCH_EXT (n : Nat) (f : Nat) : RF := ⟨CAN_FILT_MATCH_at n f, 31, 1, 0, true⟩

/-- CAN_FILT_MASK, address (R294). -/
def CAN_FILT_MASK_at (n : Nat) (f : Nat) : Nat := 0x20070104 + 0x1000 * n + 0x8 * f
def CAN_FILT_MASK_MASK (n : Nat) (f : Nat) : RF := ⟨CAN_FILT_MASK_at n f, 0, 29, 0, true⟩

/-! MORD block, base 0x20080000 (file 17). -/

/-- MORD_STAT, address (R349). -/
def MORD_STAT_at : Nat := 0x20080000
def MORD_STAT_LC : RF := ⟨MORD_STAT_at, 0, 3, 0, true⟩
def MORD_STAT_TESTROOT : RF := ⟨MORD_STAT_at, 3, 1, 0, true⟩
def MORD_STAT_DRBG_OK : RF := ⟨MORD_STAT_at, 4, 1, 0, true⟩
def MORD_STAT_FREE : RF := ⟨MORD_STAT_at, 8, 8, 128, true⟩

/-- MORD_CFG, address (R348). -/
def MORD_CFG_at : Nat := 0x20080004
def MORD_CFG_REMASK : RF := ⟨MORD_CFG_at, 0, 10, 10, true⟩

/-- MORD_LC_REQ, address (R350). -/
def MORD_LC_REQ_at : Nat := 0x20080008
def MORD_LC_REQ_TARGET : RF := ⟨MORD_LC_REQ_at, 0, 3, 0, false⟩
def MORD_LC_REQ_CONFIRM : RF := ⟨MORD_LC_REQ_at, 16, 16, 0, false⟩

/-- MORD_EVT, address (R346). -/
def MORD_EVT_at : Nat := 0x2008000C
def MORD_EVT_INVAL : RF := ⟨MORD_EVT_at, 0, 1, 0, false⟩
def MORD_EVT_ORPHAN_USE : RF := ⟨MORD_EVT_at, 1, 1, 0, false⟩
def MORD_EVT_DENY : RF := ⟨MORD_EVT_at, 2, 1, 0, false⟩
def MORD_EVT_LC : RF := ⟨MORD_EVT_at, 3, 1, 0, false⟩
def MORD_EVT_TESTROOT : RF := ⟨MORD_EVT_at, 4, 1, 0, false⟩
def MORD_EVT_DRBG : RF := ⟨MORD_EVT_at, 5, 1, 0, false⟩

/-- MORD_DENY, address (R343). -/
def MORD_DENY_at : Nat := 0x20080010
def MORD_DENY_COUNT : RF := ⟨MORD_DENY_at, 0, 32, 0, true⟩

/-- MORD_REMASK_CNT, address (R348). -/
def MORD_REMASK_CNT_at : Nat := 0x20080014
def MORD_REMASK_CNT_COUNT : RF := ⟨MORD_REMASK_CNT_at, 0, 32, 0, true⟩

/-- MORD_DEVID_LO, address (R334). -/
def MORD_DEVID_LO_at : Nat := 0x20080018
def MORD_DEVID_LO_ID : RF := ⟨MORD_DEVID_LO_at, 0, 32, 0, true⟩

/-- MORD_DEVID_HI, address (R334). -/
def MORD_DEVID_HI_at : Nat := 0x2008001C
def MORD_DEVID_HI_ID : RF := ⟨MORD_DEVID_HI_at, 0, 32, 0, true⟩

/-- MORD_K_ATTR, address (R335). -/
def MORD_K_ATTR_at (k : Nat) : Nat := 0x20080100 + 0x8 * k
def MORD_K_ATTR_WORD (k : Nat) : RF := ⟨MORD_K_ATTR_at k, 0, 32, 0, true⟩

/-- MORD_K_META, address (R335). -/
def MORD_K_META_at (k : Nat) : Nat := 0x20080104 + 0x8 * k
def MORD_K_META_WORD (k : Nat) : RF := ⟨MORD_K_META_at k, 0, 32, 0, true⟩

/-- MORD_DCERT, address (R334). -/
def MORD_DCERT_at (w : Nat) : Nat := 0x20082000 + 0x4 * w
def MORD_DCERT_WORD (w : Nat) : RF := ⟨MORD_DCERT_at w, 0, 32, 0, true⟩

/-! MORDCH block, base 0x20081000 (file 17). -/

/-- MORD_CH_CLAIM, address (R342). -/
def MORD_CH_CLAIM_at (c : Nat) : Nat := 0x20081000 + 0x80 * c
def MORD_CH_CLAIM_CLAIM (c : Nat) : RF := ⟨MORD_CH_CLAIM_at c, 0, 1, 0, false⟩

/-- MORD_CH_CMD, address (R342). -/
def MORD_CH_CMD_at (c : Nat) : Nat := 0x20081004 + 0x80 * c
def MORD_CH_CMD_OP (c : Nat) : RF := ⟨MORD_CH_CMD_at c, 0, 8, 0, false⟩

/-- MORD_CH_STAT, address (R344). -/
def MORD_CH_STAT_at (c : Nat) : Nat := 0x20081008 + 0x80 * c
def MORD_CH_STAT_BUSY (c : Nat) : RF := ⟨MORD_CH_STAT_at c, 0, 1, 0, false⟩
def MORD_CH_STAT_RESULT (c : Nat) : RF := ⟨MORD_CH_STAT_at c, 4, 4, 0, false⟩
def MORD_CH_STAT_ORPHANED_DURING_USE (c : Nat) : RF := ⟨MORD_CH_STAT_at c, 8, 1, 0, false⟩
def MORD_CH_STAT_SLOT (c : Nat) : RF := ⟨MORD_CH_STAT_at c, 16, 7, 0, false⟩

/-- MORD_CH_ARG, address (R342). -/
def MORD_CH_ARG_at (c : Nat) (i : Nat) : Nat := 0x20081040 + 0x80 * c + 0x4 * i
def MORD_CH_ARG_VALUE (c : Nat) (i : Nat) : RF := ⟨MORD_CH_ARG_at c i, 0, 32, 0, false⟩

/-! MORDSC block, base 0x20084000 (file 17). -/

/-- MORD_SCERT, address (R340). -/
def MORD_SCERT_at (s : Nat) (w : Nat) : Nat := 0x20084000 + 0x100 * s + 0x4 * w
def MORD_SCERT_WORD (s : Nat) (w : Nat) : RF := ⟨MORD_SCERT_at s w, 0, 32, 0, true⟩

/-! RC block, base 0x20090000 (file 15). -/

/-- RC_CTL, address (R309). -/
def RC_CTL_at (t : Nat) : Nat := 0x20090000 + 0x400 * t
def RC_CTL_EN (t : Nat) : RF := ⟨RC_CTL_at t, 0, 1, 0, false⟩
def RC_CTL_LOCK (t : Nat) : RF := ⟨RC_CTL_at t, 1, 1, 0, false⟩

/-- RC_DENY, address (R308). -/
def RC_DENY_at (t : Nat) : Nat := 0x20090004 + 0x400 * t
def RC_DENY_COUNT (t : Nat) : RF := ⟨RC_DENY_at t, 0, 32, 0, false⟩

/-- RC_LAST_ADDR, address (R308). -/
def RC_LAST_ADDR_at (t : Nat) : Nat := 0x20090008 + 0x400 * t
def RC_LAST_ADDR_PAGE (t : Nat) : RF := ⟨RC_LAST_ADDR_at t, 0, 28, 0, false⟩

/-- RC_LAST_SRC, address (R308). -/
def RC_LAST_SRC_at (t : Nat) : Nat := 0x2009000C + 0x400 * t
def RC_LAST_SRC_MASTER (t : Nat) : RF := ⟨RC_LAST_SRC_at t, 0, 4, 0, false⟩
def RC_LAST_SRC_SECURE (t : Nat) : RF := ⟨RC_LAST_SRC_at t, 4, 1, 0, false⟩
def RC_LAST_SRC_WRITE (t : Nat) : RF := ⟨RC_LAST_SRC_at t, 5, 1, 0, false⟩
def RC_LAST_SRC_EXEC (t : Nat) : RF := ⟨RC_LAST_SRC_at t, 6, 1, 0, false⟩
def RC_LAST_SRC_SLICE (t : Nat) : RF := ⟨RC_LAST_SRC_at t, 8, 6, 0, false⟩

/-- RC_R_BASE, address (R308). -/
def RC_R_BASE_at (t : Nat) (r : Nat) : Nat := 0x20090100 + 0x400 * t + 0x10 * r
def RC_R_BASE_PAGE (t : Nat) (r : Nat) : RF := ⟨RC_R_BASE_at t r, 0, 28, 0, false⟩

/-- RC_R_LIMIT, address (R308). -/
def RC_R_LIMIT_at (t : Nat) (r : Nat) : Nat := 0x20090104 + 0x400 * t + 0x10 * r
def RC_R_LIMIT_PAGE (t : Nat) (r : Nat) : RF := ⟨RC_R_LIMIT_at t r, 0, 28, 0, false⟩

/-- RC_R_PERM, address (R308). -/
def RC_R_PERM_at (t : Nat) (r : Nat) : Nat := 0x20090108 + 0x400 * t + 0x10 * r
def RC_R_PERM_MASTERS (t : Nat) (r : Nat) : RF := ⟨RC_R_PERM_at t r, 0, 16, 0, false⟩
def RC_R_PERM_SR (t : Nat) (r : Nat) : RF := ⟨RC_R_PERM_at t r, 16, 1, 0, false⟩
def RC_R_PERM_SW (t : Nat) (r : Nat) : RF := ⟨RC_R_PERM_at t r, 17, 1, 0, false⟩
def RC_R_PERM_SX (t : Nat) (r : Nat) : RF := ⟨RC_R_PERM_at t r, 18, 1, 0, false⟩
def RC_R_PERM_NR (t : Nat) (r : Nat) : RF := ⟨RC_R_PERM_at t r, 19, 1, 0, false⟩
def RC_R_PERM_NW (t : Nat) (r : Nat) : RF := ⟨RC_R_PERM_at t r, 20, 1, 0, false⟩
def RC_R_PERM_NX (t : Nat) (r : Nat) : RF := ⟨RC_R_PERM_at t r, 21, 1, 0, false⟩
def RC_R_PERM_VALID (t : Nat) (r : Nat) : RF := ⟨RC_R_PERM_at t r, 22, 1, 0, false⟩
def RC_R_PERM_SLICE_EN (t : Nat) (r : Nat) : RF := ⟨RC_R_PERM_at t r, 23, 1, 0, false⟩
def RC_R_PERM_SLICE (t : Nat) (r : Nat) : RF := ⟨RC_R_PERM_at t r, 24, 6, 0, false⟩

/-! CORE block, base 0x20098000 (file 15). -/

/-- CORE_CTX, address (R303). -/
def CORE_CTX_at (n : Nat) : Nat := 0x20098000 + 0x100 * n
def CORE_CTX_SLICE (n : Nat) : RF := ⟨CORE_CTX_at n, 0, 6, 0, false⟩
def CORE_CTX_WORLD (n : Nat) : RF := ⟨CORE_CTX_at n, 6, 1, 1, false⟩
def CORE_CTX_GATED (n : Nat) : RF := ⟨CORE_CTX_at n, 7, 1, 0, false⟩

/-- CORE_GATE_CNT, address (R302). -/
def CORE_GATE_CNT_at (n : Nat) : Nat := 0x20098004 + 0x100 * n
def CORE_GATE_CNT_CNT (n : Nat) : RF := ⟨CORE_GATE_CNT_at n, 0, 9, 0, false⟩

/-- CORE_GATE_BASE_LO, address (R302). -/
def CORE_GATE_BASE_LO_at (n : Nat) : Nat := 0x20098008 + 0x100 * n
def CORE_GATE_BASE_LO_ADDR (n : Nat) : RF := ⟨CORE_GATE_BASE_LO_at n, 0, 32, 0, false⟩

/-- CORE_GATE_BASE_HI, address (R302). -/
def CORE_GATE_BASE_HI_at (n : Nat) : Nat := 0x2009800C + 0x100 * n
def CORE_GATE_BASE_HI_ADDR (n : Nat) : RF := ⟨CORE_GATE_BASE_HI_at n, 0, 32, 0, false⟩

/-- CORE_NENTRY_LO, address (R299). -/
def CORE_NENTRY_LO_at (n : Nat) : Nat := 0x20098010 + 0x100 * n
def CORE_NENTRY_LO_ADDR (n : Nat) : RF := ⟨CORE_NENTRY_LO_at n, 0, 32, 0, false⟩

/-- CORE_NENTRY_HI, address (R299). -/
def CORE_NENTRY_HI_at (n : Nat) : Nat := 0x20098014 + 0x100 * n
def CORE_NENTRY_HI_ADDR (n : Nat) : RF := ⟨CORE_NENTRY_HI_at n, 0, 32, 0, false⟩

/-- CORE_SWDG, address (R312). -/
def CORE_SWDG_at (n : Nat) : Nat := 0x20098018 + 0x100 * n
def CORE_SWDG_TIMEOUT (n : Nat) : RF := ⟨CORE_SWDG_at n, 0, 16, 0, false⟩
def CORE_SWDG_GATE_MAX (n : Nat) : RF := ⟨CORE_SWDG_at n, 16, 16, 0, false⟩

/-- CORE_SWDG_KICK, address (R312). -/
def CORE_SWDG_KICK_at (n : Nat) : Nat := 0x2009801C + 0x100 * n
def CORE_SWDG_KICK_KICK (n : Nat) : RF := ⟨CORE_SWDG_KICK_at n, 0, 1, 0, false⟩

/-- CORE_STAT, address (R314). -/
def CORE_STAT_at (n : Nat) : Nat := 0x20098020 + 0x100 * n
def CORE_STAT_FENCED (n : Nat) : RF := ⟨CORE_STAT_at n, 0, 1, 0, false⟩
def CORE_STAT_CAUSE (n : Nat) : RF := ⟨CORE_STAT_at n, 1, 3, 0, false⟩

/-! CORET block, base 0x20098424 (file 15). -/

/-- CORE_TCM, address (R300). -/
def CORE_TCM_at (t : Nat) : Nat := 0x20098424 + 0x100 * t
def CORE_TCM_SEC (t : Nat) : RF := ⟨CORE_TCM_at t, 0, 7, 64, false⟩

/-! PERF block, base 0x2009C000 (file 15). -/

/-- PERF_CFG, address (R315). -/
def PERF_CFG_at : Nat := 0x2009C000
def PERF_CFG_SLICED : RF := ⟨PERF_CFG_at, 0, 1, 0, false⟩
def PERF_CFG_BLOCK_SEC : RF := ⟨PERF_CFG_at, 1, 1, 0, false⟩
def PERF_CFG_LOCK : RF := ⟨PERF_CFG_at, 2, 1, 0, false⟩

/-- PERF_OWN_SEL, address (R315). -/
def PERF_OWN_SEL_at : Nat := 0x2009C010
def PERF_OWN_SEL_VALUE : RF := ⟨PERF_OWN_SEL_at, 0, 32, 0, false⟩

/-- PERF_OWN_CNT_LO, address (R315). -/
def PERF_OWN_CNT_LO_at (i : Nat) : Nat := 0x2009C020 + 0x8 * i
def PERF_OWN_CNT_LO_VALUE (i : Nat) : RF := ⟨PERF_OWN_CNT_LO_at i, 0, 32, 0, false⟩

/-- PERF_OWN_CNT_HI, address (R315). -/
def PERF_OWN_CNT_HI_at (i : Nat) : Nat := 0x2009C024 + 0x8 * i
def PERF_OWN_CNT_HI_VALUE (i : Nat) : RF := ⟨PERF_OWN_CNT_HI_at i, 0, 32, 0, false⟩

/-- PERF_SEL, address (R315). -/
def PERF_SEL_at (s : Nat) : Nat := 0x2009C800 + 0x4 * s
def PERF_SEL_EV0 (s : Nat) : RF := ⟨PERF_SEL_at s, 0, 8, 0, false⟩
def PERF_SEL_EV1 (s : Nat) : RF := ⟨PERF_SEL_at s, 8, 8, 0, false⟩
def PERF_SEL_EV2 (s : Nat) : RF := ⟨PERF_SEL_at s, 16, 8, 0, false⟩
def PERF_SEL_EV3 (s : Nat) : RF := ⟨PERF_SEL_at s, 24, 8, 0, false⟩

/-- PERF_CNT_LO, address (R315). -/
def PERF_CNT_LO_at (s : Nat) (i : Nat) : Nat := 0x2009D000 + 0x20 * s + 0x8 * i
def PERF_CNT_LO_COUNT (s : Nat) (i : Nat) : RF := ⟨PERF_CNT_LO_at s i, 0, 32, 0, false⟩

/-- PERF_CNT_HI, address (R315). -/
def PERF_CNT_HI_at (s : Nat) (i : Nat) : Nat := 0x2009D004 + 0x20 * s + 0x8 * i
def PERF_CNT_HI_COUNT (s : Nat) (i : Nat) : RF := ⟨PERF_CNT_HI_at s i, 0, 32, 0, false⟩

/-! LS block, base 0x200A0000 (file 16). -/

/-- LS_CFG, address (R327). -/
def LS_CFG_at : Nat := 0x200A0000
def LS_CFG_HANDOVER : RF := ⟨LS_CFG_at, 0, 1, 0, false⟩
def LS_CFG_INJ_PERIOD : RF := ⟨LS_CFG_at, 8, 8, 10, false⟩
def LS_CFG_LAG_TO : RF := ⟨LS_CFG_at, 16, 8, 5, false⟩

/-- LS_EVT, address (R329). -/
def LS_EVT_at : Nat := 0x200A0004
def LS_EVT_FAULT : RF := ⟨LS_EVT_at, 0, 2, 0, false⟩
def LS_EVT_HANDOVER : RF := ⟨LS_EVT_at, 2, 1, 0, false⟩
def LS_EVT_DBG : RF := ⟨LS_EVT_at, 3, 2, 0, false⟩

/-! LSP block, base 0x200A0100 (file 16). -/

/-- LS_STAT, address (R329). -/
def LS_STAT_at (p : Nat) : Nat := 0x200A0100 + 0x100 * p
def LS_STAT_STATE (p : Nat) : RF := ⟨LS_STAT_at p, 0, 2, 0, false⟩
def LS_STAT_DUTIES (p : Nat) : RF := ⟨LS_STAT_at p, 2, 1, 0, false⟩
def LS_STAT_CAUSE (p : Nat) : RF := ⟨LS_STAT_at p, 8, 3, 0, true⟩
def LS_STAT_INJ_BIT (p : Nat) : RF := ⟨LS_STAT_at p, 16, 7, 0, false⟩
def LS_STAT_SEEN (p : Nat) : RF := ⟨LS_STAT_at p, 24, 8, 0, true⟩

/-- LS_TCNT_LO, address (R325). -/
def LS_TCNT_LO_at (p : Nat) : Nat := 0x200A0108 + 0x100 * p
def LS_TCNT_LO_COUNT (p : Nat) : RF := ⟨LS_TCNT_LO_at p, 0, 32, 0, false⟩

/-- LS_TCNT_HI, address (R325). -/
def LS_TCNT_HI_at (p : Nat) : Nat := 0x200A010C + 0x100 * p
def LS_TCNT_HI_COUNT (p : Nat) : RF := ⟨LS_TCNT_HI_at p, 0, 32, 0, false⟩

/-- LS_DIGEST_LO, address (R325). -/
def LS_DIGEST_LO_at (p : Nat) : Nat := 0x200A0110 + 0x100 * p
def LS_DIGEST_LO_CRC (p : Nat) : RF := ⟨LS_DIGEST_LO_at p, 0, 32, 0, false⟩

/-- LS_DIGEST_HI, address (R325). -/
def LS_DIGEST_HI_at (p : Nat) : Nat := 0x200A0114 + 0x100 * p
def LS_DIGEST_HI_CRC (p : Nat) : RF := ⟨LS_DIGEST_HI_at p, 0, 32, 0, false⟩

/-- LS_FVP, address (R329). -/
def LS_FVP_at (p : Nat) (i : Nat) : Nat := 0x200A0120 + 0x100 * p + 0x4 * i
def LS_FVP_WORD (p : Nat) (i : Nat) : RF := ⟨LS_FVP_at p i, 0, 32, 0, true⟩

/-- LS_FVS, address (R329). -/
def LS_FVS_at (p : Nat) (i : Nat) : Nat := 0x200A0130 + 0x100 * p + 0x4 * i
def LS_FVS_WORD (p : Nat) (i : Nat) : RF := ⟨LS_FVS_at p i, 0, 32, 0, true⟩

/-- LS_INJ_OK, address (R327). -/
def LS_INJ_OK_at (p : Nat) : Nat := 0x200A0140 + 0x100 * p
def LS_INJ_OK_COUNT (p : Nat) : RF := ⟨LS_INJ_OK_at p, 0, 32, 0, false⟩

/-- LS_TEST, address (R331). -/
def LS_TEST_at (p : Nat) : Nat := 0x200A0144 + 0x100 * p
def LS_TEST_FAULT (p : Nat) : RF := ⟨LS_TEST_at p, 0, 1, 0, false⟩

/-! AUX block, base 0x200B0000 (file 19). -/

/-- AUX_CFG, address (R372). -/
def AUX_CFG_at : Nat := 0x200B0000
def AUX_CFG_HOLD : RF := ⟨AUX_CFG_at, 0, 12, 500, true⟩
def AUX_CFG_GRP_WARN : RF := ⟨AUX_CFG_at, 12, 8, 140, true⟩

/-- AUX_STAT, address (R367). -/
def AUX_STAT_at : Nat := 0x200B0004
def AUX_STAT_GWARN : RF := ⟨AUX_STAT_at, 0, 6, 0, true⟩
def AUX_STAT_UV : RF := ⟨AUX_STAT_at, 6, 1, 0, true⟩
def AUX_STAT_PBUD : RF := ⟨AUX_STAT_at, 7, 1, 0, true⟩

/-- AUX_PWR, address (R368). -/
def AUX_PWR_at : Nat := 0x200B0008
def AUX_PWR_P : RF := ⟨AUX_PWR_at, 0, 16, 0, true⟩

/-- AUX_EVT, address (R367). -/
def AUX_EVT_at : Nat := 0x200B000C
def AUX_EVT_GWARN : RF := ⟨AUX_EVT_at, 0, 6, 0, true⟩
def AUX_EVT_UV : RF := ⟨AUX_EVT_at, 6, 1, 0, true⟩
def AUX_EVT_PBUD : RF := ⟨AUX_EVT_at, 7, 1, 0, true⟩

/-- AUX_FLT_EVT, address (R364). -/
def AUX_FLT_EVT_at : Nat := 0x200B0010
def AUX_FLT_EVT_SW : RF := ⟨AUX_FLT_EVT_at, 0, 24, 0, true⟩

/-- AUX_OL_EVT, address (R366). -/
def AUX_OL_EVT_at : Nat := 0x200B0014
def AUX_OL_EVT_SW : RF := ⟨AUX_OL_EVT_at, 0, 24, 0, true⟩

/-- AUX_CLR, address (R365). -/
def AUX_CLR_at : Nat := 0x200B0018
def AUX_CLR_SW : RF := ⟨AUX_CLR_at, 0, 24, 0, false⟩

/-- AUX_GTEMP, address (R367). -/
def AUX_GTEMP_at (g : Nat) : Nat := 0x200B0020 + 0x4 * g
def AUX_GTEMP_T (g : Nat) : RF := ⟨AUX_GTEMP_at g, 0, 32, 0, true⟩

/-- AUX_FCNT, address (R364). -/
def AUX_FCNT_at (n : Nat) : Nat := 0x200B0400 + 0x4 * n
def AUX_FCNT_COUNT (n : Nat) : RF := ⟨AUX_FCNT_at n, 0, 32, 0, true⟩

/-! AUXN block, base 0x200B0100 (file 19). -/

/-- AUX_CTL, address (R362). -/
def AUX_CTL_at (n : Nat) : Nat := 0x200B0100 + 0x20 * n
def AUX_CTL_ON (n : Nat) : RF := ⟨AUX_CTL_at n, 0, 1, 0, true⟩
def AUX_CTL_DEF (n : Nat) : RF := ⟨AUX_CTL_at n, 1, 1, 0, true⟩

/-- AUX_NCFG, address (R361). -/
def AUX_NCFG_at (n : Nat) : Nat := 0x200B0104 + 0x20 * n
def AUX_NCFG_ILIM (n : Nat) : RF := ⟨AUX_NCFG_at n, 0, 5, 8, true⟩
def AUX_NCFG_IRUSH (n : Nat) : RF := ⟨AUX_NCFG_at n, 5, 6, 16, true⟩
def AUX_NCFG_IRUSH_T (n : Nat) : RF := ⟨AUX_NCFG_at n, 11, 8, 20, true⟩
def AUX_NCFG_RETRY (n : Nat) : RF := ⟨AUX_NCFG_at n, 19, 2, 3, true⟩
def AUX_NCFG_SAFE (n : Nat) : RF := ⟨AUX_NCFG_at n, 21, 1, 1, true⟩

/-- AUX_DIAG, address (R366). -/
def AUX_DIAG_at (n : Nat) : Nat := 0x200B0108 + 0x20 * n
def AUX_DIAG_OL_TH (n : Nat) : RF := ⟨AUX_DIAG_at n, 0, 7, 2, true⟩
def AUX_DIAG_LIM_T (n : Nat) : RF := ⟨AUX_DIAG_at n, 8, 8, 10, true⟩
def AUX_DIAG_SC_BLANK (n : Nat) : RF := ⟨AUX_DIAG_at n, 16, 7, 10, true⟩

/-- AUX_NSTAT, address (R361). -/
def AUX_NSTAT_at (n : Nat) : Nat := 0x200B010C + 0x20 * n
def AUX_NSTAT_STATE (n : Nat) : RF := ⟨AUX_NSTAT_at n, 0, 3, 0, true⟩
def AUX_NSTAT_LIMIT (n : Nat) : RF := ⟨AUX_NSTAT_at n, 3, 1, 0, true⟩
def AUX_NSTAT_OPEN (n : Nat) : RF := ⟨AUX_NSTAT_at n, 4, 1, 0, true⟩
def AUX_NSTAT_HELD (n : Nat) : RF := ⟨AUX_NSTAT_at n, 5, 1, 0, true⟩
def AUX_NSTAT_RETRIES (n : Nat) : RF := ⟨AUX_NSTAT_at n, 6, 2, 0, true⟩
def AUX_NSTAT_LAST (n : Nat) : RF := ⟨AUX_NSTAT_at n, 8, 3, 0, true⟩
def AUX_NSTAT_HOLDING (n : Nat) : RF := ⟨AUX_NSTAT_at n, 11, 1, 0, true⟩
def AUX_NSTAT_WARNED (n : Nat) : RF := ⟨AUX_NSTAT_at n, 12, 1, 0, true⟩

/-- AUX_SENSE, address (R360). -/
def AUX_SENSE_at (n : Nat) : Nat := 0x200B0110 + 0x20 * n
def AUX_SENSE_CODE (n : Nat) : RF := ⟨AUX_SENSE_at n, 0, 12, 0, true⟩

/-- AUX_TJ, address (R363). -/
def AUX_TJ_at (n : Nat) : Nat := 0x200B0114 + 0x20 * n
def AUX_TJ_T (n : Nat) : RF := ⟨AUX_TJ_at n, 0, 32, 0, true⟩

/-- AUX_FTS_LO, address (R364). -/
def AUX_FTS_LO_at (n : Nat) : Nat := 0x200B0118 + 0x20 * n
def AUX_FTS_LO_TS (n : Nat) : RF := ⟨AUX_FTS_LO_at n, 0, 32, 0, true⟩

/-- AUX_FTS_HI, address (R364). -/
def AUX_FTS_HI_at (n : Nat) : Nat := 0x200B011C + 0x20 * n
def AUX_FTS_HI_TS (n : Nat) : RF := ⟨AUX_FTS_HI_at n, 0, 32, 0, true⟩

/-! MAD block, base 0x200C0000 (file 20). -/

/-- MAD_STAT, address (R375). -/
def MAD_STAT_at : Nat := 0x200C0000
def MAD_STAT_SF1 : RF := ⟨MAD_STAT_at, 0, 2, 0, true⟩
def MAD_STAT_OB : RF := ⟨MAD_STAT_at, 2, 8, 0, true⟩
def MAD_STAT_SAFE_STOP : RF := ⟨MAD_STAT_at, 10, 1, 1, true⟩
def MAD_STAT_HB_OK : RF := ⟨MAD_STAT_at, 11, 1, 0, true⟩
def MAD_STAT_CFG_OK : RF := ⟨MAD_STAT_at, 12, 1, 1, true⟩
def MAD_STAT_SUP_OK : RF := ⟨MAD_STAT_at, 13, 1, 1, true⟩
def MAD_STAT_FB : RF := ⟨MAD_STAT_at, 16, 4, 0, true⟩
def MAD_STAT_SOA_FLT : RF := ⟨MAD_STAT_at, 20, 4, 0, true⟩

/-- MAD_IN, address (R379). -/
def MAD_IN_at : Nat := 0x200C0004
def MAD_IN_A : RF := ⟨MAD_IN_at, 0, 8, 0, true⟩
def MAD_IN_B : RF := ⟨MAD_IN_at, 8, 8, 0, true⟩
def MAD_IN_DEMAND : RF := ⟨MAD_IN_at, 16, 8, 0, true⟩
def MAD_IN_DISC : RF := ⟨MAD_IN_at, 24, 8, 0, true⟩

/-- MAD_EVT, address (R380). -/
def MAD_EVT_at : Nat := 0x200C0008
def MAD_EVT_DEMAND : RF := ⟨MAD_EVT_at, 0, 1, 0, true⟩
def MAD_EVT_HB_LOST : RF := ⟨MAD_EVT_at, 1, 1, 0, true⟩
def MAD_EVT_TEST_FAIL : RF := ⟨MAD_EVT_at, 2, 1, 0, true⟩
def MAD_EVT_FB_FAIL : RF := ⟨MAD_EVT_at, 3, 1, 0, true⟩
def MAD_EVT_DISC : RF := ⟨MAD_EVT_at, 4, 1, 0, true⟩
def MAD_EVT_REARM_OK : RF := ⟨MAD_EVT_at, 5, 1, 0, true⟩
def MAD_EVT_REARM_REFUSED : RF := ⟨MAD_EVT_at, 6, 1, 0, true⟩
def MAD_EVT_CFG_FAIL : RF := ⟨MAD_EVT_at, 7, 1, 0, true⟩
def MAD_EVT_SUP : RF := ⟨MAD_EVT_at, 8, 1, 0, true⟩
def MAD_EVT_REQ : RF := ⟨MAD_EVT_at, 9, 1, 0, true⟩

/-- MAD_REQ, address (R386). -/
def MAD_REQ_at : Nat := 0x200C000C
def MAD_REQ_SF1 : RF := ⟨MAD_REQ_at, 0, 1, 0, false⟩
def MAD_REQ_SF2 : RF := ⟨MAD_REQ_at, 4, 4, 0, false⟩
def MAD_REQ_CONFIRM : RF := ⟨MAD_REQ_at, 16, 16, 0, false⟩

/-- MAD_HB, address (R384). -/
def MAD_HB_at : Nat := 0x200C0010
def MAD_HB_SEQ : RF := ⟨MAD_HB_at, 0, 8, 0, false⟩
def MAD_HB_NSEQ : RF := ⟨MAD_HB_at, 8, 8, 0, false⟩

/-- MAD_HB_STAT, address (R384). -/
def MAD_HB_STAT_at : Nat := 0x200C0014
def MAD_HB_STAT_PAIR : RF := ⟨MAD_HB_STAT_at, 0, 1, 0, true⟩
def MAD_HB_STAT_UNCHECKED : RF := ⟨MAD_HB_STAT_at, 1, 1, 0, true⟩
def MAD_HB_STAT_LAST : RF := ⟨MAD_HB_STAT_at, 8, 8, 0, true⟩
def MAD_HB_STAT_AGE : RF := ⟨MAD_HB_STAT_at, 16, 16, 65535, true⟩

/-- MAD_CNT_TEST_OK, address (R387). -/
def MAD_CNT_TEST_OK_at : Nat := 0x200C0018
def MAD_CNT_TEST_OK_COUNT : RF := ⟨MAD_CNT_TEST_OK_at, 0, 32, 0, true⟩

/-- MAD_CNT_TEST_FAIL, address (R388). -/
def MAD_CNT_TEST_FAIL_at : Nat := 0x200C001C
def MAD_CNT_TEST_FAIL_COUNT : RF := ⟨MAD_CNT_TEST_FAIL_at, 0, 32, 0, true⟩

/-- MAD_CNT_HB_REJ, address (R384). -/
def MAD_CNT_HB_REJ_at : Nat := 0x200C0020
def MAD_CNT_HB_REJ_COUNT : RF := ⟨MAD_CNT_HB_REJ_at, 0, 32, 0, true⟩

/-- MAD_IN_CFG, address (R379). -/
def MAD_IN_CFG_at (n : Nat) : Nat := 0x200C0100 + 0x4 * n
def MAD_IN_CFG_EN (n : Nat) : RF := ⟨MAD_IN_CFG_at n, 0, 1, 1, true⟩
def MAD_IN_CFG_TYPE (n : Nat) : RF := ⟨MAD_IN_CFG_at n, 1, 1, 0, true⟩
def MAD_IN_CFG_FILT (n : Nat) : RF := ⟨MAD_IN_CFG_at n, 3, 5, 3, true⟩
def MAD_IN_CFG_DISC (n : Nat) : RF := ⟨MAD_IN_CFG_at n, 8, 8, 5, true⟩
def MAD_IN_CFG_SF1 (n : Nat) : RF := ⟨MAD_IN_CFG_at n, 16, 1, 1, true⟩
def MAD_IN_CFG_SF2 (n : Nat) : RF := ⟨MAD_IN_CFG_at n, 17, 4, 15, true⟩

/-- MAD_TIME_CFG, address (R384). -/
def MAD_TIME_CFG_at : Nat := 0x200C0120
def MAD_TIME_CFG_HB_TO : RF := ⟨MAD_TIME_CFG_at, 0, 8, 20, true⟩
def MAD_TIME_CFG_TP_PER : RF := ⟨MAD_TIME_CFG_at, 8, 8, 10, true⟩
def MAD_TIME_CFG_TP_W : RF := ⟨MAD_TIME_CFG_at, 16, 9, 300, true⟩
def MAD_TIME_CFG_FB_T : RF := ⟨MAD_TIME_CFG_at, 25, 7, 10, true⟩

/-- MAD_OUT_CFG, address (R382). -/
def MAD_OUT_CFG_at : Nat := 0x200C0124
def MAD_OUT_CFG_HB_PAIR : RF := ⟨MAD_OUT_CFG_at, 0, 1, 0, true⟩
def MAD_OUT_CFG_SOB_EN : RF := ⟨MAD_OUT_CFG_at, 1, 4, 15, true⟩

/-- MAD_CFG_CRC, address (R393). -/
def MAD_CFG_CRC_at : Nat := 0x200C0128
def MAD_CFG_CRC_CRC : RF := ⟨MAD_CFG_CRC_at, 0, 32, 0, true⟩

/-- MAD_CFG_COMMIT, address (R393). -/
def MAD_CFG_COMMIT_at : Nat := 0x200C012C
def MAD_CFG_COMMIT_GO : RF := ⟨MAD_CFG_COMMIT_at, 0, 1, 0, false⟩

/-- MAD_CFG_ACT_CRC, address (R393). -/
def MAD_CFG_ACT_CRC_at : Nat := 0x200C0130
def MAD_CFG_ACT_CRC_CRC : RF := ⟨MAD_CFG_ACT_CRC_at, 0, 32, madResetCrc, true⟩

/-! DRAM block, base 0x200D0000 (file 18). -/

/-- DRAM_CTL, address (R356). -/
def DRAM_CTL_at : Nat := 0x200D0000
def DRAM_CTL_EN : RF := ⟨DRAM_CTL_at, 0, 1, 0, true⟩
def DRAM_CTL_RATE : RF := ⟨DRAM_CTL_at, 1, 3, 4, true⟩
def DRAM_CTL_DENS : RF := ⟨DRAM_CTL_at, 4, 2, 1, true⟩

/-- DRAM_STAT, address (R356). -/
def DRAM_STAT_at : Nat := 0x200D0004
def DRAM_STAT_READY : RF := ⟨DRAM_STAT_at, 0, 1, 0, false⟩
def DRAM_STAT_TRAINED : RF := ⟨DRAM_STAT_at, 1, 2, 0, false⟩
def DRAM_STAT_FAILED : RF := ⟨DRAM_STAT_at, 3, 2, 0, false⟩
def DRAM_STAT_WINDOW : RF := ⟨DRAM_STAT_at, 16, 16, 0, false⟩

/-- DRAM_ECC_CFG, address (R358). -/
def DRAM_ECC_CFG_at : Nat := 0x200D0008
def DRAM_ECC_CFG_UE_LIM : RF := ⟨DRAM_ECC_CFG_at, 0, 8, 4, true⟩
def DRAM_ECC_CFG_SCRUB : RF := ⟨DRAM_ECC_CFG_at, 8, 8, 24, true⟩

/-- DRAM_ARB, address (R359). -/
def DRAM_ARB_at : Nat := 0x200D000C
def DRAM_ARB_PART : RF := ⟨DRAM_ARB_at, 0, 1, 0, true⟩

/-- DRAM_CE, address (R357). -/
def DRAM_CE_at : Nat := 0x200D0010
def DRAM_CE_COUNT : RF := ⟨DRAM_CE_at, 0, 32, 0, true⟩

/-- DRAM_UE, address (R357). -/
def DRAM_UE_at : Nat := 0x200D0014
def DRAM_UE_COUNT : RF := ⟨DRAM_UE_at, 0, 32, 0, true⟩

/-- DRAM_UE_ADDR_LO, address (R357). -/
def DRAM_UE_ADDR_LO_at : Nat := 0x200D0018
def DRAM_UE_ADDR_LO_ADDR : RF := ⟨DRAM_UE_ADDR_LO_at, 0, 32, 0, false⟩

/-- DRAM_UE_ADDR_HI, address (R357). -/
def DRAM_UE_ADDR_HI_at : Nat := 0x200D001C
def DRAM_UE_ADDR_HI_ADDR : RF := ⟨DRAM_UE_ADDR_HI_at, 0, 32, 0, false⟩

/-- MEM_B_CFG, address (R351). -/
def MEM_B_CFG_at (n : Nat) : Nat := 0x200D0100 + 0x4 * n
def MEM_B_CFG_HOME (n : Nat) : RF := ⟨MEM_B_CFG_at n, 0, 4, (bankHomeReset n), true⟩

/-- MEM_B_ERR, address (R352). -/
def MEM_B_ERR_at (n : Nat) : Nat := 0x200D0140 + 0x4 * n
def MEM_B_ERR_CE (n : Nat) : RF := ⟨MEM_B_ERR_at n, 0, 16, 0, true⟩
def MEM_B_ERR_UE (n : Nat) : RF := ⟨MEM_B_ERR_at n, 16, 16, 0, true⟩

/-- MEM_VAT_ERR, address (R355). -/
def MEM_VAT_ERR_at (v : Nat) : Nat := 0x200D0180 + 0x4 * v
def MEM_VAT_ERR_CE (v : Nat) : RF := ⟨MEM_VAT_ERR_at v, 0, 16, 0, true⟩
def MEM_VAT_ERR_UE (v : Nat) : RF := ⟨MEM_VAT_ERR_at v, 16, 16, 0, true⟩

/-- MEM_EVT, address (R352). -/
def MEM_EVT_at : Nat := 0x200D01C0
def MEM_EVT_CE : RF := ⟨MEM_EVT_at, 0, 1, 0, false⟩
def MEM_EVT_UE_BANK : RF := ⟨MEM_EVT_at, 1, 1, 0, false⟩
def MEM_EVT_UE_VAT : RF := ⟨MEM_EVT_at, 2, 1, 0, false⟩
def MEM_EVT_UE_DRAM : RF := ⟨MEM_EVT_at, 3, 1, 0, false⟩
def MEM_EVT_CH_FAIL : RF := ⟨MEM_EVT_at, 4, 1, 0, false⟩

/-! DBG block, base 0x200F0000 (file 22). -/

/-- DBG_STAT, address (R425). -/
def DBG_STAT_at : Nat := 0x200F0000
def DBG_STAT_UNLOCKED : RF := ⟨DBG_STAT_at, 0, 1, 0, true⟩
def DBG_STAT_ACTIVE : RF := ⟨DBG_STAT_at, 1, 1, 0, true⟩
def DBG_STAT_SCOPE : RF := ⟨DBG_STAT_at, 8, 8, 0, true⟩
def DBG_STAT_HALTED : RF := ⟨DBG_STAT_at, 16, 6, 0, false⟩

/-- DBG_CTL, address (R424). -/
def DBG_CTL_at : Nat := 0x200F0004
def DBG_CTL_BLOCK : RF := ⟨DBG_CTL_at, 0, 1, 0, true⟩

/-- DBG_EVT, address (R425). -/
def DBG_EVT_at : Nat := 0x200F0008
def DBG_EVT_UNLOCK : RF := ⟨DBG_EVT_at, 0, 1, 0, false⟩
def DBG_EVT_FAIL : RF := ⟨DBG_EVT_at, 1, 1, 0, false⟩
def DBG_EVT_LOCK : RF := ⟨DBG_EVT_at, 2, 1, 0, false⟩

end Sys2Proof.Machine.Reg
end

