-- ==== Sys2Proof/Machine/RegTable.lean ====
section
/-!
DEFINITION. The register TABLE of the setup space: every register row of spec/25_register_index.md with the
fields its chapter gives it (type of R6, reset of R8, the values its range admits, low bits that must be
zero).  A setup-space access (R5, R6, R9) reads this table; the fields' selectors are in RegFields.lean.
-/

namespace Sys2Proof.Machine.Reg

/-- Register rows of the SYS block. -/
def rowsSYS : List RegRow := [
  ⟨0x20000000, [], false, .any,
    [⟨16, 16, .ro, .const 9583, false, [], 0⟩,
     ⟨8, 8, .ro, .const 162, false, [], 0⟩]⟩,
  ⟨0x20000004, [], false, .any,
    [⟨0, 1, .ro, .const 0, false, [], 0⟩,
     ⟨1, 1, .ro, .const 0, false, [], 0⟩,
     ⟨2, 1, .ro, .const 0, false, [], 0⟩,
     ⟨3, 1, .ro, .const 0, false, [], 0⟩,
     ⟨4, 1, .ro, .const 0, false, [], 0⟩,
     ⟨5, 1, .ro, .const 0, false, [], 0⟩,
     ⟨8, 5, .ro, .const 0, false, [], 0⟩,
     ⟨16, 9, .ro, .const 0, false, [], 0⟩]⟩,
  ⟨0x20000008, [], false, .any,
    [⟨0, 16, .ro, .const 0, true, [], 0⟩,
     ⟨16, 4, .ro, .const 0, false, [], 0⟩,
     ⟨20, 2, .ro, .const 0, false, [], 0⟩,
     ⟨22, 2, .ro, .const 0, false, [], 0⟩,
     ⟨24, 8, .ro, .const 0, true, [], 0⟩]⟩,
  ⟨0x20000010, [], false, .any,
    [⟨0, 16, .wo, .const 0, false, [], 0⟩,
     ⟨16, 16, .wo, .const 0, false, [], 0⟩]⟩,
  ⟨0x20000020, [(8, 0x4)], false, .any,
    [⟨0, 32, .ro, .const 0, true, [], 0⟩]⟩]

/-- Register rows of the PWR block. -/
def rowsPWR : List RegRow := [
  ⟨0x20001000, [], false, .any,
    [⟨0, 6, .ro, .const 0, false, [], 0⟩,
     ⟨6, 1, .ro, .const 0, false, [], 0⟩,
     ⟨7, 1, .ro, .const 0, false, [], 0⟩]⟩,
  ⟨0x20001004, [], false, .any,
    [⟨0, 16, .ro, .const 0, false, [], 0⟩,
     ⟨16, 16, .ro, .const 0, false, [], 0⟩]⟩,
  ⟨0x20001008, [], false, .any,
    [⟨0, 9, .rw, .const 300, true, [(280, 350)], 0⟩]⟩,
  ⟨0x2000100C, [], false, .any,
    [⟨0, 1, .w1c, .const 0, false, [], 0⟩,
     ⟨1, 1, .w1c, .const 0, false, [], 0⟩]⟩,
  ⟨0x20001100, [], false, .s0,
    [⟨0, 1, .rw, .const 1, true, [], 0⟩,
     ⟨1, 1, .rw, .const 0, true, [], 0⟩,
     ⟨8, 8, .rw, .const 10, true, [(1, 100)], 0⟩,
     ⟨16, 10, .rw, .const 64, true, [(8, 1023)], 0⟩,
     ⟨26, 6, .rw, .const 32, true, [], 0⟩]⟩,
  ⟨0x20001104, [], false, .s0,
    [⟨0, 6, .rw, .const 30, true, [(0, 50)], 0⟩]⟩,
  ⟨0x20001108, [], false, .s0,
    [⟨0, 6, .ro, .const 50, true, [], 0⟩,
     ⟨6, 1, .ro, .const 0, true, [], 0⟩,
     ⟨16, 16, .ro, .const 32767, true, [], 0⟩]⟩,
  ⟨0x2000110C, [], false, .s0,
    [⟨0, 8, .rw, .const 8, true, [], 0⟩]⟩,
  ⟨0x20001110, [], false, .s0,
    [⟨0, 1, .wo, .const 0, false, [], 0⟩]⟩,
  ⟨0x20001140, [(8, 0x4)], false, .s0,
    [⟨0, 16, .ro, .const 32767, true, [], 0⟩]⟩,
  ⟨0x20001180, [(8, 0x4)], false, .s0,
    [⟨0, 32, .ro, .const 0, true, [], 0⟩]⟩,
  ⟨0x200011C0, [(16, 0x4)], false, .s0,
    [⟨0, 32, .ro, .const 0, true, [], 0⟩]⟩]

/-- Register rows of the PWR block. -/
def rowsPWR_1 : List RegRow := [
  ⟨0x20001200, [(8, 0x8)], false, .any,
    [⟨0, 32, .rw, .const 4294967295, true, [], 0⟩]⟩,
  ⟨0x20001204, [(8, 0x8)], false, .any,
    [⟨0, 32, .rw, .const 4294967295, true, [], 0⟩]⟩,
  ⟨0x20001240, [], false, .any,
    [⟨0, 1, .rw, .const 1, true, [], 0⟩]⟩,
  ⟨0x20001260, [(8, 0x4)], false, .any,
    [⟨0, 32, .ro, .const 0, true, [], 0⟩]⟩,
  ⟨0x20001400, [(64, 0x8)], false, .s0,
    [⟨0, 32, .rw, .const 4294967295, true, [], 0⟩]⟩,
  ⟨0x20001404, [(64, 0x8)], false, .s0,
    [⟨0, 32, .rw, .const 4294967295, true, [], 0⟩]⟩,
  ⟨0x20001600, [], false, .any,
    [⟨0, 8, .wo, .const 0, false, [], 0⟩,
     ⟨8, 3, .wo, .const 0, false, [], 0⟩]⟩,
  ⟨0x20001604, [], false, .any,
    [⟨0, 8, .ro, .const 0, false, [], 0⟩,
     ⟨8, 1, .ro, .const 0, false, [], 0⟩,
     ⟨9, 3, .ro, .const 0, false, [], 0⟩]⟩,
  ⟨0x20001608, [], false, .any,
    [⟨0, 8, .ro, .const 0, false, [], 0⟩,
     ⟨8, 1, .ro, .const 0, false, [], 0⟩,
     ⟨9, 3, .ro, .const 0, false, [], 0⟩]⟩,
  ⟨0x2000160C, [], false, .secure,
    [⟨0, 16, .rw, .const 100, false, [(1, 65535)], 0⟩]⟩,
  ⟨0x20001610, [(64, 0x4)], false, .secure,
    [⟨0, 2, .rw, .const 0, false, [(0, 2)], 0⟩,
     ⟨2, 3, .ro, .const 0, true, [], 0⟩]⟩]

/-- Register rows of the RST block. -/
def rowsRST : List RegRow := [
  ⟨0x20002000, [], false, .any,
    [⟨0, 1, .wo, .const 0, false, [], 0⟩,
     ⟨16, 16, .wo, .const 0, false, [], 0⟩]⟩,
  ⟨0x20002004, [], false, .any,
    [⟨0, 2, .ro, .const 0, true, [], 0⟩,
     ⟨2, 3, .ro, .const 0, true, [], 0⟩,
     ⟨5, 3, .ro, .const 0, false, [], 0⟩]⟩,
  ⟨0x20002008, [], false, .any,
    [⟨0, 32, .ro, .const 0, true, [], 0⟩]⟩,
  ⟨0x2000200C, [], false, .any,
    [⟨0, 4, .ro, .const 0, false, [], 0⟩,
     ⟨4, 8, .ro, .const 0, false, [], 0⟩,
     ⟨12, 1, .ro, .const 0, false, [], 0⟩,
     ⟨16, 8, .ro, .const 0, false, [], 0⟩]⟩,
  ⟨0x20002010, [], true, .any,
    [⟨0, 32, .ro, .const 0, false, [], 0⟩]⟩,
  ⟨0x20002014, [], false, .any,
    [⟨0, 32, .ro, .const 0, false, [], 0⟩]⟩,
  ⟨0x20002018, [], false, .any,
    [⟨0, 1, .ro, .const 0, true, [], 0⟩,
     ⟨1, 1, .ro, .const 0, true, [], 0⟩]⟩,
  ⟨0x2000201C, [], false, .any,
    [⟨0, 6, .ro, .const 0, true, [], 0⟩,
     ⟨8, 6, .ro, .const 0, false, [], 0⟩]⟩,
  ⟨0x20002020, [], false, .any,
    [⟨0, 6, .wo, .const 0, false, [], 0⟩,
     ⟨16, 16, .wo, .const 0, false, [], 0⟩]⟩,
  ⟨0x20002024, [], false, .any,
    [⟨0, 32, .ro, .const 0, true, [], 0⟩]⟩,
  ⟨0x20002028, [], false, .secure,
    [⟨0, 6, .wo, .const 0, false, [], 0⟩]⟩,
  ⟨0x2000202C, [], true, .any,
    [⟨0, 32, .rw, .const 0, false, [], 0⟩]⟩]

/-- Register rows of the RST block. -/
def rowsRST_1 : List RegRow := [
  ⟨0x20002030, [], false, .any,
    [⟨0, 32, .rw, .const 0, false, [], 0⟩]⟩]

/-- Register rows of the TB block. -/
def rowsTB : List RegRow := [
  ⟨0x20003000, [], true, .any,
    [⟨0, 32, .ro, .const 0, true, [], 0⟩]⟩,
  ⟨0x20003004, [], false, .any,
    [⟨0, 32, .ro, .const 0, true, [], 0⟩]⟩,
  ⟨0x20003008, [], false, .any,
    [⟨0, 1, .ro, .const 0, true, [], 0⟩,
     ⟨1, 1, .ro, .const 0, true, [], 0⟩,
     ⟨2, 1, .ro, .const 0, true, [], 0⟩,
     ⟨3, 1, .ro, .const 0, true, [], 0⟩,
     ⟨4, 1, .ro, .const 0, true, [], 0⟩]⟩,
  ⟨0x2000300C, [], false, .any,
    [⟨0, 1, .ro, .const 0, true, [], 0⟩]⟩,
  ⟨0x20003010, [], false, .any,
    [⟨0, 32, .rw, .const 0, true, [(0, 100000), (4294867296, 4294967295)], 0⟩]⟩,
  ⟨0x20003014, [], false, .any,
    [⟨0, 32, .wo, .const 0, false, [], 0⟩]⟩,
  ⟨0x20003018, [], false, .any,
    [⟨0, 8, .rw, .const 200, true, [(1, 200)], 0⟩,
     ⟨8, 24, .ro, .const 0, true, [], 0⟩]⟩,
  ⟨0x20003020, [], true, .any,
    [⟨0, 32, .wo, .const 0, false, [], 0⟩]⟩,
  ⟨0x20003024, [], false, .any,
    [⟨0, 32, .wo, .const 0, false, [], 0⟩]⟩,
  ⟨0x20003100, [(16, 0x10)], false, .any,
    [⟨0, 3, .rw, .const 0, false, [(0, 4)], 0⟩,
     ⟨3, 3, .rw, .const 0, false, [], 0⟩,
     ⟨6, 1, .ro, .const 0, false, [], 0⟩,
     ⟨7, 1, .ro, .const 0, false, [], 0⟩,
     ⟨8, 24, .rw, .const 0, false, [], 0⟩]⟩,
  ⟨0x20003104, [(16, 0x10)], true, .any,
    [⟨0, 32, .rw, .const 0, false, [], 0⟩]⟩,
  ⟨0x20003108, [(16, 0x10)], false, .any,
    [⟨0, 32, .rw, .const 0, false, [], 0⟩]⟩]

/-- Register rows of the TB block. -/
def rowsTB_1 : List RegRow := [
  ⟨0x2000310C, [(16, 0x10)], false, .any,
    [⟨0, 32, .rw, .const 0, false, [(0, 0), (8, 4294967295)], 0⟩]⟩,
  ⟨0x20003200, [(8, 0x10)], false, .any,
    [⟨0, 2, .rw, .const 0, false, [], 0⟩]⟩,
  ⟨0x20003204, [(8, 0x10)], true, .any,
    [⟨0, 32, .ro, .const 0, false, [], 0⟩]⟩,
  ⟨0x20003208, [(8, 0x10)], false, .any,
    [⟨0, 32, .ro, .const 0, false, [], 0⟩]⟩,
  ⟨0x2000320C, [(8, 0x10)], false, .any,
    [⟨0, 3, .ro, .const 0, false, [], 0⟩,
     ⟨3, 1, .w1c, .const 0, false, [], 0⟩]⟩,
  ⟨0x20003300, [], false, .any,
    [⟨0, 16, .w1c, .const 0, false, [], 0⟩,
     ⟨16, 8, .w1c, .const 0, false, [], 0⟩]⟩]

/-- Register rows of the EVT block. -/
def rowsEVT : List RegRow := [
  ⟨0x20004000, [(3, 0x4)], false, .any,
    [⟨0, 32, .w1c, .const 0, true, [], 0⟩]⟩,
  ⟨0x20004010, [(3, 0x4)], false, .any,
    [⟨0, 32, .rw, .const 0, true, [], 0⟩]⟩,
  ⟨0x20004020, [], false, .any,
    [⟨0, 8, .wo, .const 0, false, [], 0⟩]⟩,
  ⟨0x20004030, [], false, .any,
    [⟨0, 32, .ro, .const 0, true, [], 0⟩]⟩,
  ⟨0x20004034, [], false, .secure,
    [⟨0, 32, .rw, .const 0, true, [], 0⟩]⟩,
  ⟨0x20004038, [], false, .any,
    [⟨0, 32, .ro, .const 0, true, [], 0⟩]⟩,
  ⟨0x2000403C, [], false, .any,
    [⟨0, 32, .rw, .const 0, true, [], 0⟩]⟩,
  ⟨0x20004040, [(4, 0x4)], false, .any,
    [⟨0, 32, .ro, .const 0, false, [], 0⟩]⟩,
  ⟨0x20004050, [], false, .any,
    [⟨0, 1, .ro, .const 0, false, [], 0⟩]⟩,
  ⟨0x20004054, [], false, .any,
    [⟨0, 13, .rw, .const 3072, true, [(0, 4096)], 0⟩]⟩,
  ⟨0x20004100, [(96, 0x4)], false, .any,
    [⟨0, 2, .rw, .const 0, true, [(0, 2)], 0⟩,
     ⟨2, 3, .rw, .const 0, true, [(0, 5)], 0⟩,
     ⟨5, 1, .rw, .const 0, true, [], 0⟩,
     ⟨6, 6, .rw, .const 0, true, [], 0⟩,
     ⟨12, 6, .rw, .const 0, true, [], 0⟩]⟩]

/-- Register rows of the VAT block. -/
def rowsVAT : List RegRow := [
  ⟨0x20010000, [(16, 0x1000)], false, .any,
    [⟨0, 1, .ro, .const 0, true, [], 0⟩,
     ⟨1, 1, .ro, .const 0, true, [], 0⟩,
     ⟨2, 1, .ro, .const 0, true, [], 0⟩,
     ⟨4, 3, .ro, .const 0, true, [], 0⟩,
     ⟨16, 16, .ro, .const 65535, true, [], 0⟩]⟩,
  ⟨0x20010004, [(16, 0x1000)], false, .any,
    [⟨0, 16, .rw, .const 50, true, [(1, 60000)], 0⟩,
     ⟨16, 8, .rw, .const 20, true, [(8, 255)], 0⟩,
     ⟨24, 8, .rw, .const 10, true, [], 0⟩]⟩,
  ⟨0x20010008, [(16, 0x1000)], false, .any,
    [⟨0, 16, .rw, .const 2000, true, [(100, 65535)], 0⟩]⟩,
  ⟨0x2001000C, [(16, 0x1000)], false, .any,
    [⟨0, 16, .w1c, .const 0, true, [], 0⟩,
     ⟨16, 16, .w1c, .const 0, true, [], 0⟩]⟩,
  ⟨0x20010010, [(16, 0x1000)], false, .any,
    [⟨0, 16, .ro, .const 0, true, [], 0⟩]⟩,
  ⟨0x20010040, [(16, 0x1000), (16, 0x4)], false, .any,
    [⟨0, 4, .ro, .const 0, true, [], 0⟩,
     ⟨4, 4, .ro, .const 0, true, [], 0⟩,
     ⟨8, 5, .ro, .const 0, true, [], 0⟩,
     ⟨13, 1, .ro, .const 0, true, [], 0⟩,
     ⟨14, 1, .ro, .const 0, true, [], 0⟩,
     ⟨15, 1, .ro, .const 0, true, [], 0⟩,
     ⟨16, 5, .ro, .const 0, true, [], 0⟩,
     ⟨24, 8, .ro, .const 0, true, [], 0⟩]⟩,
  ⟨0x20010080, [(16, 0x1000), (16, 0x4)], false, .any,
    [⟨0, 24, .ro, .const 0, true, [], 0⟩,
     ⟨24, 8, .ro, .const 0, true, [], 0⟩]⟩,
  ⟨0x200100C0, [(16, 0x1000), (16, 0x4)], false, .any,
    [⟨0, 32, .ro, .const 0, true, [], 0⟩]⟩,
  ⟨0x20010200, [(16, 0x1000)], false, .any,
    [⟨0, 3, .rw, .const 0, true, [], 0⟩,
     ⟨8, 8, .rw, .phOfs, true, [], 0⟩]⟩,
  ⟨0x20010204, [(16, 0x1000)], false, .any,
    [⟨0, 16, .rw, .const 0, true, [], 0⟩,
     ⟨16, 16, .rw, .const 0, true, [], 0⟩]⟩,
  ⟨0x20010208, [(16, 0x1000)], false, .any,
    [⟨0, 32, .rw, .const 4294967295, true, [], 0⟩]⟩,
  ⟨0x2001020C, [(16, 0x1000)], false, .any,
    [⟨0, 32, .rw, .const 4294967295, true, [], 0⟩]⟩]

/-- Register rows of the VAT block. -/
def rowsVAT_1 : List RegRow := [
  ⟨0x20010210, [(16, 0x1000)], false, .any,
    [⟨0, 16, .rw, .const 1000, true, [(100, 10000)], 0⟩]⟩,
  ⟨0x20010214, [(16, 0x1000)], false, .any,
    [⟨0, 16, .rw, .const 1000, true, [(1, 60000)], 0⟩]⟩,
  ⟨0x20010218, [(16, 0x1000)], false, .any,
    [⟨0, 32, .ro, .const 0, true, [], 0⟩]⟩,
  ⟨0x2001021C, [(16, 0x1000)], false, .any,
    [⟨0, 17, .ro, .const 65536, true, [], 0⟩,
     ⟨17, 1, .ro, .const 0, true, [], 0⟩,
     ⟨18, 1, .ro, .const 0, true, [], 0⟩]⟩,
  ⟨0x20010220, [(16, 0x1000)], false, .any,
    [⟨0, 16, .w1c, .const 0, true, [], 0⟩,
     ⟨16, 1, .w1c, .const 0, true, [], 0⟩,
     ⟨17, 1, .w1c, .const 0, true, [], 0⟩]⟩,
  ⟨0x20010400, [(16, 0x1000), (2, 0x4)], false, .any,
    [⟨0, 4, .rw, .const 0, true, [(0, 4)], 0⟩,
     ⟨4, 4, .rw, .const 0, true, [(0, 4)], 0⟩,
     ⟨8, 4, .rw, .const 0, true, [(0, 4)], 0⟩,
     ⟨12, 4, .rw, .const 0, true, [(0, 4)], 0⟩,
     ⟨16, 4, .rw, .const 0, true, [(0, 4)], 0⟩,
     ⟨20, 4, .rw, .const 0, true, [(0, 4)], 0⟩,
     ⟨24, 4, .rw, .const 0, true, [(0, 4)], 0⟩,
     ⟨28, 4, .rw, .const 0, true, [(0, 4)], 0⟩]⟩,
  ⟨0x20010408, [(16, 0x1000)], false, .any,
    [⟨0, 16, .rw, .const 100, true, [(1, 65535)], 0⟩,
     ⟨16, 16, .rw, .const 200, true, [], 0⟩]⟩,
  ⟨0x2001040C, [(16, 0x1000)], false, .any,
    [⟨0, 16, .wo, .const 0, false, [], 0⟩]⟩,
  ⟨0x20010410, [(16, 0x1000)], false, .any,
    [⟨0, 16, .ro, .const 0, true, [], 0⟩,
     ⟨16, 16, .ro, .const 0, true, [], 0⟩]⟩,
  ⟨0x20010414, [(16, 0x1000)], false, .any,
    [⟨0, 16, .w1c, .const 0, true, [], 0⟩,
     ⟨16, 16, .w1c, .const 0, true, [], 0⟩]⟩,
  ⟨0x20010418, [(16, 0x1000)], false, .any,
    [⟨0, 32, .ro, .const 0, true, [], 0⟩]⟩,
  ⟨0x2001041C, [(16, 0x1000)], false, .any,
    [⟨0, 32, .ro, .const 2147483648, true, [], 0⟩]⟩]

/-- Register rows of the VAT block. -/
def rowsVAT_2 : List RegRow := [
  ⟨0x20010420, [(16, 0x1000), (16, 0x4)], false, .any,
    [⟨0, 8, .rw, .const 26, true, [], 0⟩,
     ⟨8, 8, .rw, .const 230, true, [], 0⟩,
     ⟨16, 3, .rw, .const 1, true, [(1, 7)], 0⟩]⟩,
  ⟨0x20010460, [(16, 0x1000), (16, 0x4)], false, .any,
    [⟨0, 32, .rw, .const 0, true, [], 0⟩]⟩,
  ⟨0x200104A0, [(16, 0x1000), (16, 0x4)], false, .any,
    [⟨0, 32, .ro, .const 0, true, [], 0⟩]⟩,
  ⟨0x200104E0, [(16, 0x1000), (16, 0x4)], false, .any,
    [⟨0, 32, .ro, .const 0, true, [], 0⟩]⟩,
  ⟨0x20010520, [(16, 0x1000), (16, 0x4)], false, .any,
    [⟨0, 32, .ro, .const 0, true, [], 0⟩]⟩,
  ⟨0x20010600, [(16, 0x1000), (16, 0x10)], false, .any,
    [⟨0, 32, .rw, .const 1073741824, true, [], 0⟩]⟩,
  ⟨0x20010604, [(16, 0x1000), (16, 0x10)], false, .any,
    [⟨0, 32, .rw, .const 0, true, [], 0⟩]⟩,
  ⟨0x20010608, [(16, 0x1000), (16, 0x10)], false, .any,
    [⟨0, 32, .rw, .const 1073741824, true, [], 0⟩]⟩,
  ⟨0x2001060C, [(16, 0x1000), (16, 0x10)], false, .any,
    [⟨0, 32, .rw, .const 0, true, [], 0⟩]⟩,
  ⟨0x20010700, [(16, 0x1000)], false, .any,
    [⟨0, 4, .wo, .const 0, false, [], 0⟩]⟩,
  ⟨0x20010704, [(16, 0x1000)], true, .any,
    [⟨0, 32, .ro, .const 0, true, [], 0⟩]⟩,
  ⟨0x20010708, [(16, 0x1000)], false, .any,
    [⟨0, 32, .ro, .const 0, true, [], 0⟩]⟩]

/-- Register rows of the VAT block. -/
def rowsVAT_3 : List RegRow := [
  ⟨0x20010710, [(16, 0x1000), (12, 0x4)], false, .any,
    [⟨0, 32, .ro, .const 0, true, [], 0⟩]⟩,
  ⟨0x20010740, [(16, 0x1000), (2, 0x8)], true, .any,
    [⟨0, 32, .ro, .const 0, true, [], 0⟩]⟩,
  ⟨0x20010744, [(16, 0x1000), (2, 0x8)], false, .any,
    [⟨0, 32, .ro, .const 0, true, [], 0⟩]⟩,
  ⟨0x20010750, [(16, 0x1000)], false, .any,
    [⟨0, 16, .ro, .const 0, true, [], 0⟩]⟩,
  ⟨0x20010754, [(16, 0x1000)], false, .any,
    [⟨0, 1, .ro, .const 0, true, [], 0⟩]⟩,
  ⟨0x20010758, [(16, 0x1000)], false, .any,
    [⟨0, 15, .ro, .const 0, true, [], 0⟩]⟩,
  ⟨0x2001075C, [(16, 0x1000)], false, .any,
    [⟨0, 32, .ro, .const 0, true, [], 0⟩]⟩,
  ⟨0x20010800, [(16, 0x1000)], false, .any,
    [⟨0, 1, .wo, .const 0, false, [], 0⟩,
     ⟨1, 1, .wo, .const 0, false, [], 0⟩]⟩,
  ⟨0x20010804, [(16, 0x1000)], false, .any,
    [⟨0, 16, .rw, .const 0, true, [], 0⟩]⟩,
  ⟨0x20010808, [(16, 0x1000)], false, .any,
    [⟨0, 7, .rw, .const 1, true, [(1, 64)], 0⟩,
     ⟨7, 1, .rw, .const 1, true, [], 0⟩,
     ⟨8, 3, .rw, .const 0, true, [(0, 4)], 0⟩,
     ⟨11, 1, .rw, .const 0, true, [], 0⟩]⟩,
  ⟨0x2001080C, [(16, 0x1000)], false, .any,
    [⟨0, 1, .ro, .const 0, true, [], 0⟩,
     ⟨8, 6, .ro, .const 0, true, [], 0⟩,
     ⟨16, 16, .ro, .const 0, true, [], 0⟩]⟩,
  ⟨0x20010810, [(16, 0x1000)], false, .any,
    [⟨0, 1, .w1c, .const 0, true, [], 0⟩,
     ⟨1, 1, .w1c, .const 0, true, [], 0⟩]⟩,
  ⟨0x20010814, [(16, 0x1000)], false, .any,
    [⟨0, 32, .ro, .const 0, true, [], 0⟩]⟩]

/-- Register rows of the VAT block. -/
def rowsVAT_4 : List RegRow := [
  ⟨0x20010818, [(16, 0x1000)], true, .any,
    [⟨0, 32, .ro, .const 0, true, [], 0⟩]⟩,
  ⟨0x2001081C, [(16, 0x1000)], false, .any,
    [⟨0, 32, .ro, .const 0, true, [], 0⟩]⟩,
  ⟨0x20010A00, [(16, 0x1000), (64, 0x8)], false, .any,
    [⟨0, 32, .rw, .const 1000000000, true, [(10000, 4000000000)], 0⟩]⟩,
  ⟨0x20010A04, [(16, 0x1000), (64, 0x8)], false, .any,
    [⟨0, 10, .rw, .const 9, true, [], 0⟩,
     ⟨10, 6, .rw, .const 2, true, [], 0⟩,
     ⟨16, 10, .rw, .const 100, true, [(10, 1000)], 0⟩]⟩]

/-- Register rows of the LANE block. -/
def rowsLANE : List RegRow := [
  ⟨0x20020000, [(16, 0x1000)], false, .any,
    [⟨0, 1, .rw, .const 0, true, [], 0⟩,
     ⟨1, 1, .wo, .const 0, false, [], 0⟩,
     ⟨8, 8, .rw, .const 50, true, [(5, 255)], 0⟩,
     ⟨16, 4, .rw, .const 4, true, [(1, 15)], 0⟩,
     ⟨20, 2, .rw, .const 3, true, [], 0⟩]⟩,
  ⟨0x20020004, [(16, 0x1000)], false, .any,
    [⟨0, 3, .ro, .const 0, true, [], 0⟩,
     ⟨3, 1, .ro, .const 0, true, [], 0⟩,
     ⟨4, 1, .ro, .const 0, true, [], 0⟩,
     ⟨8, 4, .ro, .const 0, true, [], 0⟩,
     ⟨16, 16, .ro, .const 65535, true, [], 0⟩]⟩,
  ⟨0x20020008, [(16, 0x1000)], false, .any,
    [⟨0, 16, .ro, .const 0, true, [], 0⟩,
     ⟨16, 16, .ro, .const 0, true, [], 0⟩]⟩,
  ⟨0x2002000C, [(16, 0x1000)], false, .any,
    [⟨0, 16, .ro, .const 0, true, [], 0⟩]⟩,
  ⟨0x20020010, [(16, 0x1000)], false, .any,
    [⟨0, 32, .ro, .const 0, true, [], 0⟩]⟩,
  ⟨0x20020014, [(16, 0x1000)], false, .any,
    [⟨0, 32, .ro, .const 0, true, [], 0⟩]⟩,
  ⟨0x20020018, [(16, 0x1000)], false, .any,
    [⟨0, 32, .ro, .const 0, true, [], 0⟩]⟩,
  ⟨0x2002001C, [(16, 0x1000)], false, .any,
    [⟨0, 32, .ro, .const 0, true, [], 0⟩]⟩,
  ⟨0x20020020, [(16, 0x1000), (8, 0x4)], false, .any,
    [⟨0, 32, .ro, .const 0, true, [], 0⟩]⟩,
  ⟨0x20020040, [(16, 0x1000)], false, .any,
    [⟨0, 16, .wo, .const 0, false, [], 0⟩]⟩,
  ⟨0x20020044, [(16, 0x1000)], false, .any,
    [⟨0, 1, .w1c, .const 0, true, [], 0⟩,
     ⟨1, 1, .w1c, .const 0, true, [], 0⟩,
     ⟨2, 1, .w1c, .const 0, true, [], 0⟩,
     ⟨3, 1, .w1c, .const 0, true, [], 0⟩,
     ⟨4, 1, .w1c, .const 0, true, [], 0⟩,
     ⟨5, 1, .w1c, .const 0, true, [], 0⟩,
     ⟨6, 1, .w1c, .const 0, true, [], 0⟩]⟩,
  ⟨0x20020048, [(16, 0x1000)], false, .any,
    [⟨0, 8, .rw, .const 0, true, [], 0⟩,
     ⟨8, 1, .rw, .const 0, true, [], 0⟩,
     ⟨9, 1, .wo, .const 0, false, [], 0⟩,
     ⟨10, 1, .ro, .const 0, true, [], 0⟩,
     ⟨11, 2, .ro, .const 0, true, [], 0⟩]⟩]

/-- Register rows of the LANE block. -/
def rowsLANE_1 : List RegRow := [
  ⟨0x2002004C, [(16, 0x1000)], false, .any,
    [⟨0, 32, .rw, .const 0, true, [], 0⟩]⟩]

/-- Register rows of the SLICE block. -/
def rowsSLICE : List RegRow := [
  ⟨0x20030000, [], false, .s0,
    [⟨0, 1, .rw, .const 0, true, [], 0⟩,
     ⟨1, 1, .rw, .const 0, true, [], 0⟩]⟩,
  ⟨0x20030004, [], false, .s0,
    [⟨0, 8, .ro, .const 0, true, [], 0⟩,
     ⟨8, 1, .ro, .const 0, true, [], 0⟩]⟩,
  ⟨0x20030008, [], false, .s0,
    [⟨0, 6, .wo, .const 0, false, [], 0⟩,
     ⟨8, 3, .wo, .const 0, false, [], 0⟩,
     ⟨16, 1, .wo, .const 0, false, [], 0⟩]⟩,
  ⟨0x2003000C, [], false, .s0,
    [⟨0, 1, .ro, .const 0, true, [], 0⟩,
     ⟨4, 4, .ro, .const 0, true, [], 0⟩,
     ⟨8, 6, .ro, .const 0, true, [], 0⟩]⟩,
  ⟨0x20030010, [], false, .s0,
    [⟨0, 1, .w1c, .const 0, true, [], 0⟩,
     ⟨1, 1, .w1c, .const 0, true, [], 0⟩,
     ⟨2, 1, .w1c, .const 0, true, [], 0⟩]⟩,
  ⟨0x20030020, [], false, .s0,
    [⟨0, 11, .ro, .const 1024, true, [], 0⟩,
     ⟨16, 11, .ro, .const 1024, true, [], 0⟩]⟩,
  ⟨0x20030024, [], false, .s0,
    [⟨0, 9, .ro, .const 256, true, [], 0⟩,
     ⟨12, 12, .ro, .const 2048, true, [], 0⟩,
     ⟨24, 8, .ro, .const 128, true, [], 0⟩]⟩,
  ⟨0x20030100, [], true, .s0,
    [⟨0, 32, .rw, .const 0, true, [], 6⟩]⟩,
  ⟨0x20030104, [], false, .s0,
    [⟨0, 32, .rw, .const 0, true, [], 0⟩]⟩,
  ⟨0x20030108, [], false, .s0,
    [⟨0, 1, .rw, .const 0, true, [], 0⟩,
     ⟨1, 5, .rw, .const 14, true, [(4, 16)], 0⟩,
     ⟨6, 1, .rw, .const 0, true, [], 0⟩]⟩,
  ⟨0x2003010C, [], false, .s0,
    [⟨0, 32, .ro, .const 0, true, [], 0⟩]⟩,
  ⟨0x20030110, [], false, .s0,
    [⟨0, 32, .rw, .const 0, true, [], 0⟩]⟩]

/-- Register rows of the SLICE block. -/
def rowsSLICE_1 : List RegRow := [
  ⟨0x20030114, [], false, .s0,
    [⟨0, 1, .w1c, .const 0, true, [], 0⟩]⟩,
  ⟨0x20030118, [], true, .s0,
    [⟨0, 32, .rw, .const 0, true, [], 0⟩]⟩,
  ⟨0x2003011C, [], false, .s0,
    [⟨0, 32, .rw, .const 0, true, [], 0⟩]⟩]

/-- Register rows of the SLC block. -/
def rowsSLC : List RegRow := [
  ⟨0x20031000, [(64, 0x40)], false, .s0,
    [⟨0, 2, .ro, .slcState, true, [], 0⟩,
     ⟨2, 1, .ro, .const 0, true, [], 0⟩,
     ⟨8, 7, .ro, .const 0, true, [], 0⟩,
     ⟨16, 7, .ro, .const 0, true, [], 0⟩]⟩,
  ⟨0x20031004, [(64, 0x40)], false, .s0,
    [⟨0, 20, .rw, .const 0, true, [], 0⟩,
     ⟨20, 1, .rw, .const 0, true, [], 0⟩]⟩,
  ⟨0x20031008, [(64, 0x40)], false, .s0,
    [⟨0, 7, .rw, .const 0, true, [(0, 64)], 0⟩,
     ⟨16, 10, .ro, .const 0, true, [], 0⟩]⟩,
  ⟨0x2003100C, [(64, 0x40)], false, .s0,
    [⟨0, 9, .rw, .const 0, true, [(0, 256)], 0⟩]⟩,
  ⟨0x20031010, [(64, 0x40)], false, .s0,
    [⟨0, 12, .rw, .const 0, true, [(0, 2048)], 0⟩]⟩,
  ⟨0x20031014, [(64, 0x40)], false, .s0,
    [⟨0, 2, .rw, .const 0, true, [(0, 2)], 0⟩,
     ⟨16, 16, .rw, .const 1000, true, [(1, 60000)], 0⟩]⟩,
  ⟨0x20031018, [(64, 0x40)], false, .s0,
    [⟨0, 16, .rw, .const 0, true, [], 0⟩,
     ⟨16, 16, .rw, .const 40, true, [(1, 65535)], 0⟩]⟩,
  ⟨0x2003101C, [(64, 0x40)], false, .s0,
    [⟨0, 20, .rw, .const 0, true, [], 0⟩]⟩,
  ⟨0x20031020, [(64, 0x40), (8, 0x4)], false, .s0,
    [⟨0, 32, .rw, .const 0, true, [], 0⟩]⟩]

/-- Register rows of the LDG block. -/
def rowsLDG : List RegRow := [
  ⟨0x20038000, [(64, 0x40)], false, .s0,
    [⟨0, 1, .rw, .const 0, true, [], 0⟩,
     ⟨1, 1, .rw, .const 1, true, [], 0⟩,
     ⟨8, 4, .rw, .const 4, true, [(1, 8)], 0⟩,
     ⟨12, 2, .rw, .const 0, true, [(0, 2)], 0⟩,
     ⟨16, 16, .rw, .const 10, true, [(1, 600)], 0⟩]⟩,
  ⟨0x20038004, [(64, 0x40)], true, .s0,
    [⟨0, 32, .rw, .const 0, true, [], 12⟩]⟩,
  ⟨0x20038008, [(64, 0x40)], false, .s0,
    [⟨0, 32, .rw, .const 0, true, [], 0⟩]⟩,
  ⟨0x2003800C, [(64, 0x40)], false, .s0,
    [⟨0, 32, .ro, .const 0, true, [], 0⟩]⟩,
  ⟨0x20038010, [(64, 0x40)], false, .s0,
    [⟨0, 32, .rw, .const 0, true, [], 0⟩]⟩,
  ⟨0x20038014, [(64, 0x40)], false, .s0,
    [⟨0, 32, .ro, .const 0, true, [], 0⟩]⟩,
  ⟨0x20038018, [(64, 0x40)], true, .s0,
    [⟨0, 32, .ro, .const 0, true, [], 0⟩]⟩,
  ⟨0x2003801C, [(64, 0x40)], false, .s0,
    [⟨0, 32, .ro, .const 0, true, [], 0⟩]⟩]

/-- Register rows of the RING block. -/
def rowsRING : List RegRow := [
  ⟨0x20040000, [(64, 0x400), (8, 0x10)], true, .s0,
    [⟨0, 32, .rw, .const 0, true, [], 6⟩]⟩,
  ⟨0x20040004, [(64, 0x400), (8, 0x10)], false, .s0,
    [⟨0, 32, .rw, .const 0, true, [], 0⟩]⟩,
  ⟨0x20040008, [(64, 0x400), (8, 0x10)], false, .s0,
    [⟨0, 1, .rw, .const 0, true, [], 0⟩,
     ⟨1, 5, .rw, .const 4, true, [(4, 16)], 0⟩,
     ⟨6, 2, .rw, .const 0, true, [(0, 2)], 0⟩,
     ⟨8, 1, .rw, .const 0, true, [], 0⟩]⟩,
  ⟨0x2004000C, [(64, 0x400), (8, 0x10)], false, .s0,
    [⟨0, 32, .rw, .const 0, true, [], 0⟩]⟩,
  ⟨0x20040080, [(64, 0x400)], true, .s0,
    [⟨0, 32, .rw, .const 0, true, [], 6⟩]⟩,
  ⟨0x20040084, [(64, 0x400)], false, .s0,
    [⟨0, 32, .rw, .const 0, true, [], 0⟩]⟩,
  ⟨0x20040088, [(64, 0x400)], true, .s0,
    [⟨0, 32, .rw, .const 0, true, [], 5⟩]⟩,
  ⟨0x2004008C, [(64, 0x400)], false, .s0,
    [⟨0, 32, .rw, .const 0, true, [], 0⟩]⟩,
  ⟨0x20040090, [(64, 0x400)], false, .s0,
    [⟨0, 8, .rw, .const 10, true, [(1, 255)], 0⟩,
     ⟨8, 1, .rw, .const 0, true, [], 0⟩,
     ⟨16, 16, .rw, .const 1000, true, [(1, 65535)], 0⟩]⟩,
  ⟨0x20040094, [(64, 0x400)], false, .s0,
    [⟨0, 1, .ro, .const 0, true, [], 0⟩,
     ⟨1, 1, .ro, .const 0, true, [], 0⟩,
     ⟨2, 1, .ro, .const 0, true, [], 0⟩,
     ⟨3, 1, .ro, .const 0, true, [], 0⟩,
     ⟨4, 8, .ro, .const 0, true, [], 0⟩]⟩,
  ⟨0x20040098, [(64, 0x400)], false, .s0,
    [⟨0, 32, .ro, .const 0, true, [], 0⟩]⟩,
  ⟨0x2004009C, [(64, 0x400)], false, .s0,
    [⟨0, 32, .ro, .const 0, true, [], 0⟩]⟩]

/-- Register rows of the RING block. -/
def rowsRING_1 : List RegRow := [
  ⟨0x200400A0, [(64, 0x400)], false, .s0,
    [⟨0, 32, .ro, .const 0, true, [], 0⟩]⟩]

/-- Register rows of the SW block. -/
def rowsSW : List RegRow := [
  ⟨0x20050000, [], false, .any,
    [⟨0, 1, .rw, .const 0, true, [], 0⟩,
     ⟨8, 10, .rw, .const 20, true, [(1, 1000)], 0⟩,
     ⟨18, 14, .rw, .const 300, true, [(0, 0), (10, 16383)], 0⟩]⟩,
  ⟨0x20050004, [], false, .any,
    [⟨0, 14, .rw, .const 1522, true, [(1518, 9216)], 0⟩]⟩,
  ⟨0x20050008, [], false, .any,
    [⟨0, 1, .w1c, .const 0, true, [], 0⟩,
     ⟨1, 1, .w1c, .const 0, true, [], 0⟩,
     ⟨2, 1, .w1c, .const 0, true, [], 0⟩,
     ⟨3, 1, .w1c, .const 0, true, [], 0⟩,
     ⟨4, 1, .w1c, .const 0, true, [], 0⟩,
     ⟨5, 1, .w1c, .const 0, true, [], 0⟩]⟩,
  ⟨0x2005000C, [], false, .any,
    [⟨0, 8, .wo, .const 0, false, [], 0⟩]⟩,
  ⟨0x20050010, [], false, .any,
    [⟨0, 16, .rw, .const 100, true, [(10, 60000)], 0⟩]⟩,
  ⟨0x20050014, [], false, .any,
    [⟨0, 32, .ro, .const 0, true, [], 0⟩]⟩,
  ⟨0x20050018, [], false, .any,
    [⟨0, 15, .ro, .const 24576, true, [], 0⟩]⟩,
  ⟨0x2005001C, [], false, .any,
    [⟨0, 3, .rw, .const 0, true, [], 0⟩,
     ⟨3, 3, .rw, .const 1, true, [], 0⟩,
     ⟨6, 3, .rw, .const 2, true, [], 0⟩,
     ⟨9, 3, .rw, .const 3, true, [], 0⟩,
     ⟨12, 3, .rw, .const 4, true, [], 0⟩,
     ⟨15, 3, .rw, .const 5, true, [], 0⟩,
     ⟨18, 3, .rw, .const 6, true, [], 0⟩,
     ⟨21, 3, .rw, .const 7, true, [], 0⟩]⟩,
  ⟨0x20050020, [], false, .any,
    [⟨0, 12, .rw, .const 1, true, [(1, 4094)], 0⟩,
     ⟨12, 3, .rw, .const 5, true, [], 0⟩,
     ⟨16, 8, .rw, .const 10, true, [(1, 255)], 0⟩]⟩,
  ⟨0x20050024, [], false, .any,
    [⟨0, 16, .rw, .const 34998, true, [], 0⟩]⟩,
  ⟨0x20050028, [], true, .any,
    [⟨0, 32, .rw, .const 0, true, [], 0⟩]⟩,
  ⟨0x2005002C, [], false, .any,
    [⟨0, 16, .rw, .const 0, true, [], 0⟩]⟩]

/-- Register rows of the SW block. -/
def rowsSW_1 : List RegRow := [
  ⟨0x20050030, [], true, .any,
    [⟨0, 32, .rw, .const 0, true, [], 0⟩]⟩,
  ⟨0x20050034, [], false, .any,
    [⟨0, 16, .rw, .const 0, true, [], 0⟩]⟩,
  ⟨0x20050038, [], true, .any,
    [⟨0, 32, .rw, .const 0, true, [], 0⟩]⟩,
  ⟨0x2005003C, [], false, .any,
    [⟨0, 32, .rw, .const 0, true, [], 0⟩]⟩,
  ⟨0x20050040, [], true, .any,
    [⟨0, 32, .rw, .const 0, true, [], 4⟩]⟩,
  ⟨0x20050044, [], false, .any,
    [⟨0, 32, .rw, .const 0, true, [], 0⟩]⟩,
  ⟨0x20050048, [], true, .any,
    [⟨0, 32, .rw, .const 0, true, [], 4⟩]⟩,
  ⟨0x2005004C, [], false, .any,
    [⟨0, 32, .rw, .const 0, true, [], 0⟩]⟩,
  ⟨0x20050050, [], false, .any,
    [⟨0, 1, .rw, .const 0, true, [], 0⟩,
     ⟨1, 5, .rw, .const 8, true, [(4, 16)], 0⟩]⟩,
  ⟨0x20050054, [], false, .any,
    [⟨0, 32, .rw, .const 0, true, [], 0⟩]⟩,
  ⟨0x20050058, [], false, .any,
    [⟨0, 32, .ro, .const 0, true, [], 0⟩]⟩,
  ⟨0x2005005C, [], false, .any,
    [⟨0, 32, .ro, .const 0, true, [], 0⟩]⟩]

/-- Register rows of the SW block. -/
def rowsSW_2 : List RegRow := [
  ⟨0x20050060, [], false, .any,
    [⟨0, 32, .rw, .const 0, true, [], 0⟩]⟩,
  ⟨0x20050100, [], false, .any,
    [⟨0, 3, .wo, .const 0, false, [], 0⟩,
     ⟨8, 3, .wo, .const 0, false, [], 0⟩,
     ⟨16, 13, .rw, .const 0, true, [], 0⟩,
     ⟨30, 1, .ro, .const 0, true, [], 0⟩,
     ⟨31, 1, .ro, .const 0, true, [], 0⟩]⟩,
  ⟨0x20050104, [], false, .any,
    [⟨0, 32, .rw, .const 0, true, [], 0⟩]⟩,
  ⟨0x20050108, [], false, .any,
    [⟨0, 16, .rw, .const 0, true, [], 0⟩,
     ⟨16, 12, .rw, .const 0, true, [], 0⟩]⟩,
  ⟨0x2005010C, [], false, .any,
    [⟨0, 8, .rw, .const 0, true, [], 0⟩,
     ⟨8, 1, .rw, .const 0, true, [], 0⟩,
     ⟨9, 1, .rw, .const 0, true, [], 0⟩]⟩,
  ⟨0x20050120, [], false, .any,
    [⟨0, 12, .rw, .const 1, true, [(1, 4094)], 0⟩,
     ⟨16, 1, .rw, .const 0, true, [], 0⟩,
     ⟨17, 1, .wo, .const 0, false, [], 0⟩,
     ⟨31, 1, .ro, .const 0, true, [], 0⟩]⟩,
  ⟨0x20050124, [], false, .any,
    [⟨0, 8, .rw, .const 0, true, [], 0⟩,
     ⟨8, 8, .rw, .const 0, true, [], 0⟩,
     ⟨16, 1, .rw, .const 0, true, [], 0⟩]⟩]

/-- Register rows of the SWP block. -/
def rowsSWP : List RegRow := [
  ⟨0x20051000, [(8, 0x100)], false, .any,
    [⟨0, 2, .rw, .swMode, true, [(0, 2)], 0⟩,
     ⟨2, 1, .rw, .const 1, true, [], 0⟩,
     ⟨3, 2, .rw, .const 2, true, [(0, 2)], 0⟩,
     ⟨8, 8, .rw, .const 127, true, [], 0⟩,
     ⟨16, 12, .rw, .const 1, true, [(1, 4094)], 0⟩,
     ⟨28, 3, .rw, .const 0, true, [], 0⟩,
     ⟨31, 1, .rw, .const 1, true, [], 0⟩]⟩,
  ⟨0x20051004, [(8, 0x100)], false, .any,
    [⟨0, 1, .ro, .const 0, true, [], 0⟩,
     ⟨1, 1, .ro, .const 0, true, [], 0⟩,
     ⟨2, 1, .ro, .const 0, true, [], 0⟩,
     ⟨8, 8, .ro, .const 0, true, [], 0⟩,
     ⟨16, 8, .ro, .const 0, true, [], 0⟩]⟩,
  ⟨0x20051008, [(8, 0x100)], false, .any,
    [⟨0, 9, .rw, .const 200, true, [(1, 255)], 0⟩,
     ⟨9, 9, .rw, .const 160, true, [], 0⟩,
     ⟨18, 9, .rw, .const 128, true, [(1, 255)], 0⟩]⟩,
  ⟨0x2005100C, [(8, 0x100)], false, .any,
    [⟨0, 10, .rw, .const 64, true, [], 0⟩]⟩,
  ⟨0x20051010, [(8, 0x100)], false, .any,
    [⟨0, 4, .rw, .const 6, true, [(0, 8)], 0⟩]⟩,
  ⟨0x20051014, [(8, 0x100)], false, .any,
    [⟨0, 4, .rw, .const 1, true, [(1, 15)], 0⟩,
     ⟨4, 4, .rw, .const 1, true, [(1, 15)], 0⟩,
     ⟨8, 4, .rw, .const 1, true, [(1, 15)], 0⟩,
     ⟨12, 4, .rw, .const 1, true, [(1, 15)], 0⟩,
     ⟨16, 4, .rw, .const 1, true, [(1, 15)], 0⟩,
     ⟨20, 4, .rw, .const 1, true, [(1, 15)], 0⟩,
     ⟨24, 4, .rw, .const 1, true, [(1, 15)], 0⟩,
     ⟨28, 4, .rw, .const 1, true, [(1, 15)], 0⟩]⟩]

/-- Register rows of the SWC block. -/
def rowsSWC : List RegRow := [
  ⟨0x20054000, [(8, 0x100), (14, 0x8)], true, .any,
    [⟨0, 32, .ro, .const 0, true, [], 0⟩]⟩,
  ⟨0x20054004, [(8, 0x100), (14, 0x8)], false, .any,
    [⟨0, 32, .ro, .const 0, true, [], 0⟩]⟩]

/-- Register rows of the JASIA block. -/
def rowsJASIA : List RegRow := [
  ⟨0x20058000, [], false, .any,
    [⟨0, 2, .rw, .const 0, true, [(0, 2)], 0⟩,
     ⟨2, 3, .rw, .const 0, true, [], 0⟩,
     ⟨5, 1, .rw, .const 1, true, [], 0⟩,
     ⟨6, 1, .rw, .const 0, true, [], 0⟩,
     ⟨8, 9, .rw, .const 0, true, [], 0⟩,
     ⟨17, 3, .rw, .const 0, true, [(0, 0), (2, 5)], 0⟩,
     ⟨20, 4, .rw, .const 0, true, [], 0⟩,
     ⟨24, 2, .rw, .const 1, true, [], 0⟩]⟩,
  ⟨0x20058004, [], false, .any,
    [⟨0, 2, .ro, .const 0, true, [], 0⟩,
     ⟨2, 2, .ro, .const 0, true, [], 0⟩,
     ⟨4, 1, .ro, .const 0, true, [], 0⟩,
     ⟨5, 1, .ro, .const 0, true, [], 0⟩,
     ⟨6, 1, .ro, .const 0, true, [], 0⟩,
     ⟨7, 9, .ro, .const 0, true, [], 0⟩,
     ⟨16, 16, .ro, .const 0, true, [], 0⟩]⟩,
  ⟨0x20058008, [], false, .any,
    [⟨0, 16, .ro, .const 65535, true, [], 0⟩,
     ⟨16, 16, .ro, .const 65535, true, [], 0⟩]⟩,
  ⟨0x20058010, [], false, .any,
    [⟨0, 16, .rw, .const 34997, true, [], 0⟩]⟩,
  ⟨0x20058014, [], true, .any,
    [⟨0, 32, .rw, .const 5458435, true, [], 0⟩]⟩,
  ⟨0x20058018, [], false, .any,
    [⟨0, 16, .rw, .const 256, true, [], 0⟩]⟩,
  ⟨0x2005801C, [], false, .any,
    [⟨0, 8, .rw, .const 10, true, [(1, 100)], 0⟩,
     ⟨8, 8, .rw, .const 3, true, [(2, 255)], 0⟩,
     ⟨16, 8, .rw, .const 100, true, [(10, 255)], 0⟩]⟩,
  ⟨0x20058020, [], false, .any,
    [⟨0, 32, .rw, .const 80000, true, [(20000, 40000000)], 0⟩]⟩,
  ⟨0x20058024, [], false, .any,
    [⟨0, 9, .rw, .const 511, true, [(1, 511)], 0⟩]⟩,
  ⟨0x20058030, [], false, .any,
    [⟨0, 32, .wo, .const 0, false, [], 0⟩]⟩,
  ⟨0x20058034, [], true, .any,
    [⟨0, 32, .wo, .const 0, false, [], 0⟩]⟩,
  ⟨0x20058038, [], false, .any,
    [⟨0, 32, .wo, .const 0, false, [], 0⟩]⟩]

/-- Register rows of the JASIA block. -/
def rowsJASIA_1 : List RegRow := [
  ⟨0x2005803C, [], false, .any,
    [⟨0, 3, .ro, .const 0, true, [], 0⟩]⟩,
  ⟨0x20058040, [], false, .any,
    [⟨0, 32, .ro, .const 0, true, [], 0⟩]⟩,
  ⟨0x20058044, [], false, .any,
    [⟨0, 1, .w1c, .const 0, true, [], 0⟩,
     ⟨1, 1, .w1c, .const 0, true, [], 0⟩,
     ⟨2, 1, .w1c, .const 0, true, [], 0⟩,
     ⟨3, 1, .w1c, .const 0, true, [], 0⟩,
     ⟨4, 1, .w1c, .const 0, true, [], 0⟩,
     ⟨5, 1, .w1c, .const 0, true, [], 0⟩,
     ⟨6, 1, .w1c, .const 0, true, [], 0⟩]⟩,
  ⟨0x20058080, [(16, 0x10)], false, .any,
    [⟨0, 32, .ro, .const 0, true, [], 0⟩]⟩,
  ⟨0x20058084, [(16, 0x10)], true, .any,
    [⟨0, 32, .ro, .const 0, true, [], 0⟩]⟩,
  ⟨0x20058088, [(16, 0x10)], false, .any,
    [⟨0, 32, .ro, .const 0, true, [], 0⟩]⟩,
  ⟨0x2005808C, [(16, 0x10)], false, .any,
    [⟨0, 32, .ro, .const 0, true, [], 0⟩]⟩,
  ⟨0x20058200, [(6, 0x4)], false, .any,
    [⟨0, 32, .ro, .const 0, true, [], 0⟩]⟩]

/-- Register rows of the PTP block. -/
def rowsPTP : List RegRow := [
  ⟨0x20060000, [], false, .any,
    [⟨0, 1, .rw, .const 0, true, [], 0⟩,
     ⟨1, 1, .rw, .const 1, true, [], 0⟩]⟩,
  ⟨0x20060004, [], false, .any,
    [⟨0, 1, .ro, .const 0, true, [], 0⟩]⟩,
  ⟨0x20060008, [], false, .any,
    [⟨0, 1, .w1c, .const 0, true, [], 0⟩,
     ⟨1, 1, .w1c, .const 0, true, [], 0⟩,
     ⟨2, 1, .w1c, .const 0, true, [], 0⟩,
     ⟨3, 1, .w1c, .const 0, true, [], 0⟩]⟩,
  ⟨0x2006000C, [], false, .any,
    [⟨0, 23, .rw, .const 400, true, [(1, 4000000)], 0⟩]⟩,
  ⟨0x20060010, [], false, .any,
    [⟨0, 16, .rw, .const 100, true, [(1, 65535)], 0⟩,
     ⟨16, 16, .rw, .const 60, true, [(1, 65535)], 0⟩]⟩,
  ⟨0x20060014, [], false, .any,
    [⟨0, 1, .rw, .const 0, true, [], 0⟩,
     ⟨1, 1, .wo, .const 0, false, [], 0⟩]⟩,
  ⟨0x20060018, [], true, .any,
    [⟨0, 32, .rw, .const 0, true, [], 0⟩]⟩,
  ⟨0x2006001C, [], false, .any,
    [⟨0, 32, .rw, .const 0, true, [], 0⟩]⟩,
  ⟨0x20060020, [], false, .any,
    [⟨0, 32, .ro, .const 0, true, [], 0⟩]⟩,
  ⟨0x20060024, [], false, .any,
    [⟨0, 32, .rw, .const 0, true, [], 0⟩]⟩,
  ⟨0x20060040, [], true, .any,
    [⟨0, 32, .rw, .const 0, true, [], 5⟩]⟩,
  ⟨0x20060044, [], false, .any,
    [⟨0, 32, .rw, .const 0, true, [], 0⟩]⟩]

/-- Register rows of the PTP block. -/
def rowsPTP_1 : List RegRow := [
  ⟨0x20060048, [], true, .any,
    [⟨0, 32, .rw, .const 0, true, [], 5⟩]⟩,
  ⟨0x2006004C, [], false, .any,
    [⟨0, 32, .rw, .const 0, true, [], 0⟩]⟩,
  ⟨0x20060050, [], false, .any,
    [⟨0, 1, .rw, .const 0, true, [], 0⟩,
     ⟨1, 5, .rw, .const 6, true, [(4, 12)], 0⟩]⟩,
  ⟨0x20060054, [], false, .any,
    [⟨0, 32, .ro, .const 0, true, [], 0⟩]⟩,
  ⟨0x20060058, [], false, .any,
    [⟨0, 32, .rw, .const 0, true, [], 0⟩]⟩,
  ⟨0x2006005C, [], false, .any,
    [⟨0, 32, .rw, .const 0, true, [], 0⟩]⟩,
  ⟨0x20060060, [], false, .any,
    [⟨0, 32, .ro, .const 0, true, [], 0⟩]⟩]

/-- Register rows of the PTPP block. -/
def rowsPTPP : List RegRow := [
  ⟨0x20060100, [(6, 0x20)], false, .any,
    [⟨0, 1, .rw, .const 1, true, [], 0⟩]⟩,
  ⟨0x20060104, [(6, 0x20)], false, .any,
    [⟨0, 32, .rw, .const 0, true, [], 0⟩]⟩,
  ⟨0x20060108, [(6, 0x20)], false, .any,
    [⟨0, 32, .rw, .const 0, true, [], 0⟩]⟩,
  ⟨0x2006010C, [(6, 0x20)], false, .any,
    [⟨0, 32, .rw, .const 0, true, [], 0⟩]⟩,
  ⟨0x20060110, [(6, 0x20)], false, .any,
    [⟨0, 32, .rw, .const 0, true, [], 0⟩]⟩,
  ⟨0x20060114, [(6, 0x20)], false, .any,
    [⟨0, 32, .ro, .const 0, true, [], 0⟩]⟩]

/-- Register rows of the CAN block. -/
def rowsCAN : List RegRow := [
  ⟨0x20070000, [(8, 0x1000)], false, .any,
    [⟨0, 1, .rw, .const 1, false, [], 0⟩,
     ⟨1, 1, .rw, .const 0, true, [], 0⟩,
     ⟨2, 1, .rw, .const 0, true, [], 0⟩,
     ⟨3, 1, .rw, .const 0, true, [], 0⟩,
     ⟨4, 1, .rw, .const 0, true, [], 0⟩,
     ⟨5, 1, .rw, .const 0, true, [], 0⟩,
     ⟨6, 1, .rw, .const 1, true, [], 0⟩,
     ⟨7, 1, .rw, .const 0, true, [], 0⟩]⟩,
  ⟨0x20070004, [(8, 0x1000)], false, .any,
    [⟨0, 7, .rw, .const 1, true, [(1, 127)], 0⟩,
     ⟨8, 6, .rw, .const 1, true, [(1, 32)], 0⟩]⟩,
  ⟨0x20070008, [(8, 0x1000)], false, .any,
    [⟨0, 9, .rw, .const 80, true, [(8, 256)], 0⟩,
     ⟨16, 9, .rw, .const 64, true, [], 0⟩,
     ⟨25, 7, .rw, .const 16, true, [(1, 127)], 0⟩]⟩,
  ⟨0x2007000C, [(8, 0x1000)], false, .any,
    [⟨0, 7, .rw, .const 16, true, [(5, 64)], 0⟩,
     ⟨8, 7, .rw, .const 12, true, [], 0⟩,
     ⟨16, 6, .rw, .const 4, true, [(1, 63)], 0⟩]⟩,
  ⟨0x20070010, [(8, 0x1000)], false, .any,
    [⟨0, 8, .rw, .const 12, true, [], 0⟩,
     ⟨16, 8, .ro, .const 0, false, [], 0⟩]⟩,
  ⟨0x20070014, [(8, 0x1000)], false, .any,
    [⟨0, 2, .ro, .const 3, false, [], 0⟩,
     ⟨2, 1, .ro, .const 0, false, [], 0⟩,
     ⟨3, 1, .ro, .const 0, false, [], 0⟩,
     ⟨8, 3, .ro, .const 0, false, [], 0⟩,
     ⟨12, 3, .ro, .const 0, false, [], 0⟩]⟩,
  ⟨0x20070018, [(8, 0x1000)], false, .any,
    [⟨0, 9, .ro, .const 0, false, [], 0⟩,
     ⟨16, 8, .ro, .const 0, false, [], 0⟩]⟩,
  ⟨0x2007001C, [(8, 0x1000)], false, .any,
    [⟨0, 1, .w1c, .const 0, false, [], 0⟩,
     ⟨1, 1, .w1c, .const 0, false, [], 0⟩,
     ⟨2, 1, .w1c, .const 0, false, [], 0⟩,
     ⟨3, 1, .w1c, .const 0, false, [], 0⟩,
     ⟨4, 1, .w1c, .const 0, false, [], 0⟩,
     ⟨5, 1, .w1c, .const 0, false, [], 0⟩,
     ⟨6, 1, .w1c, .const 0, false, [], 0⟩,
     ⟨7, 1, .w1c, .const 0, false, [], 0⟩,
     ⟨8, 1, .w1c, .const 0, false, [], 0⟩,
     ⟨9, 1, .w1c, .const 0, false, [], 0⟩,
     ⟨10, 1, .w1c, .const 0, false, [], 0⟩,
     ⟨11, 1, .w1c, .const 0, false, [], 0⟩,
     ⟨12, 1, .w1c, .const 0, false, [], 0⟩,
     ⟨13, 1, .w1c, .const 0, false, [], 0⟩,
     ⟨14, 1, .w1c, .const 0, false, [], 0⟩]⟩,
  ⟨0x20070020, [(8, 0x1000)], false, .any,
    [⟨0, 2, .rw, .const 0, true, [(0, 2)], 0⟩,
     ⟨2, 2, .rw, .const 0, true, [(0, 2)], 0⟩,
     ⟨4, 2, .rw, .const 0, true, [], 0⟩]⟩,
  ⟨0x20070024, [(8, 0x1000)], true, .any,
    [⟨0, 32, .rw, .const 0, true, [], 8⟩]⟩,
  ⟨0x20070028, [(8, 0x1000)], false, .any,
    [⟨0, 32, .rw, .const 0, true, [], 0⟩]⟩,
  ⟨0x20070030, [(8, 0x1000), (2, 0x10)], false, .any,
    [⟨0, 32, .ro, .const 0, false, [], 0⟩]⟩]

/-- Register rows of the CAN block. -/
def rowsCAN_1 : List RegRow := [
  ⟨0x20070034, [(8, 0x1000), (2, 0x10)], false, .any,
    [⟨0, 32, .rw, .const 0, false, [], 0⟩]⟩,
  ⟨0x20070038, [(8, 0x1000), (2, 0x10)], false, .any,
    [⟨0, 6, .rw, .const 16, true, [(0, 32)], 0⟩,
     ⟨6, 1, .rw, .const 0, true, [], 0⟩]⟩,
  ⟨0x2007003C, [(8, 0x1000), (2, 0x10)], false, .any,
    [⟨0, 32, .ro, .const 0, true, [], 0⟩]⟩,
  ⟨0x20070050, [(8, 0x1000)], false, .any,
    [⟨0, 32, .w1s, .const 0, false, [], 0⟩]⟩,
  ⟨0x20070054, [(8, 0x1000)], false, .any,
    [⟨0, 32, .w1s, .const 0, false, [], 0⟩]⟩,
  ⟨0x20070058, [(8, 0x1000)], false, .any,
    [⟨0, 32, .w1c, .const 0, false, [], 0⟩]⟩,
  ⟨0x2007005C, [(8, 0x1000)], false, .any,
    [⟨0, 32, .w1c, .const 0, false, [], 0⟩]⟩,
  ⟨0x20070060, [(8, 0x1000)], false, .any,
    [⟨0, 32, .w1c, .const 0, false, [], 0⟩]⟩,
  ⟨0x20070064, [(8, 0x1000)], false, .any,
    [⟨0, 32, .ro, .const 0, false, [], 0⟩]⟩,
  ⟨0x20070080, [(8, 0x1000)], false, .any,
    [⟨0, 1, .rw, .const 1, true, [], 0⟩,
     ⟨8, 8, .rw, .const 1, true, [(1, 255)], 0⟩,
     ⟨16, 8, .rw, .const 0, true, [], 0⟩,
     ⟨24, 8, .rw, .const 60, true, [(1, 255)], 0⟩]⟩,
  ⟨0x20070084, [(8, 0x1000)], false, .any,
    [⟨0, 8, .ro, .const 0, false, [], 0⟩,
     ⟨8, 1, .ro, .const 0, false, [], 0⟩,
     ⟨16, 16, .ro, .const 0, false, [], 0⟩]⟩,
  ⟨0x20070088, [(8, 0x1000)], false, .any,
    [⟨0, 1, .wo, .const 0, false, [], 0⟩]⟩]

/-- Register rows of the CAN block. -/
def rowsCAN_2 : List RegRow := [
  ⟨0x2007008C, [(8, 0x1000)], false, .any,
    [⟨0, 32, .ro, .const 0, true, [], 0⟩]⟩,
  ⟨0x20070100, [(8, 0x1000), (64, 0x8)], false, .any,
    [⟨0, 29, .rw, .const 0, true, [], 0⟩,
     ⟨29, 2, .rw, .const 0, true, [], 0⟩,
     ⟨31, 1, .rw, .const 0, true, [], 0⟩]⟩,
  ⟨0x20070104, [(8, 0x1000), (64, 0x8)], false, .any,
    [⟨0, 29, .rw, .const 0, true, [], 0⟩]⟩]

/-- Register rows of the MORD block. -/
def rowsMORD : List RegRow := [
  ⟨0x20080000, [], false, .any,
    [⟨0, 3, .ro, .const 0, true, [], 0⟩,
     ⟨3, 1, .ro, .const 0, true, [], 0⟩,
     ⟨4, 1, .ro, .const 0, true, [], 0⟩,
     ⟨8, 8, .ro, .const 128, true, [], 0⟩]⟩,
  ⟨0x20080004, [], false, .secure29,
    [⟨0, 10, .rw, .const 10, true, [(1, 1000)], 0⟩]⟩,
  ⟨0x20080008, [], false, .secure29,
    [⟨0, 3, .wo, .const 0, false, [], 0⟩,
     ⟨16, 16, .wo, .const 0, false, [], 0⟩]⟩,
  ⟨0x2008000C, [], false, .any,
    [⟨0, 1, .w1c, .const 0, false, [], 0⟩,
     ⟨1, 1, .w1c, .const 0, false, [], 0⟩,
     ⟨2, 1, .w1c, .const 0, false, [], 0⟩,
     ⟨3, 1, .w1c, .const 0, false, [], 0⟩,
     ⟨4, 1, .w1c, .const 0, false, [], 0⟩,
     ⟨5, 1, .w1c, .const 0, false, [], 0⟩]⟩,
  ⟨0x20080010, [], false, .any,
    [⟨0, 32, .ro, .const 0, true, [], 0⟩]⟩,
  ⟨0x20080014, [], false, .any,
    [⟨0, 32, .ro, .const 0, true, [], 0⟩]⟩,
  ⟨0x20080018, [], true, .any,
    [⟨0, 32, .ro, .const 0, true, [], 0⟩]⟩,
  ⟨0x2008001C, [], false, .any,
    [⟨0, 32, .ro, .const 0, true, [], 0⟩]⟩,
  ⟨0x20080100, [(128, 0x8)], false, .any,
    [⟨0, 32, .ro, .const 0, true, [], 0⟩]⟩,
  ⟨0x20080104, [(128, 0x8)], false, .any,
    [⟨0, 32, .ro, .const 0, true, [], 0⟩]⟩,
  ⟨0x20082000, [(64, 0x4)], false, .any,
    [⟨0, 32, .ro, .const 0, true, [], 0⟩]⟩]

/-- Register rows of the MORDCH block. -/
def rowsMORDCH : List RegRow := [
  ⟨0x20081000, [(16, 0x80)], false, .any,
    [⟨0, 1, .rw, .const 0, false, [], 0⟩]⟩,
  ⟨0x20081004, [(16, 0x80)], false, .any,
    [⟨0, 8, .wo, .const 0, false, [], 0⟩]⟩,
  ⟨0x20081008, [(16, 0x80)], false, .any,
    [⟨0, 1, .ro, .const 0, false, [], 0⟩,
     ⟨4, 4, .ro, .const 0, false, [], 0⟩,
     ⟨8, 1, .ro, .const 0, false, [], 0⟩,
     ⟨16, 7, .ro, .const 0, false, [], 0⟩]⟩,
  ⟨0x20081040, [(16, 0x80), (16, 0x4)], false, .any,
    [⟨0, 32, .rw, .const 0, false, [], 0⟩]⟩]

/-- Register rows of the MORDSC block. -/
def rowsMORDSC : List RegRow := [
  ⟨0x20084000, [(64, 0x100), (64, 0x4)], false, .any,
    [⟨0, 32, .ro, .const 0, true, [], 0⟩]⟩]

/-- Register rows of the RC block. -/
def rowsRC : List RegRow := [
  ⟨0x20090000, [(17, 0x400)], false, .secure29,
    [⟨0, 1, .rw, .const 0, false, [], 0⟩,
     ⟨1, 1, .w1s, .const 0, false, [], 0⟩]⟩,
  ⟨0x20090004, [(17, 0x400)], false, .secure29,
    [⟨0, 32, .ro, .const 0, false, [], 0⟩]⟩,
  ⟨0x20090008, [(17, 0x400)], false, .secure29,
    [⟨0, 28, .ro, .const 0, false, [], 0⟩]⟩,
  ⟨0x2009000C, [(17, 0x400)], false, .secure29,
    [⟨0, 4, .ro, .const 0, false, [], 0⟩,
     ⟨4, 1, .ro, .const 0, false, [], 0⟩,
     ⟨5, 1, .ro, .const 0, false, [], 0⟩,
     ⟨6, 1, .ro, .const 0, false, [], 0⟩,
     ⟨8, 6, .ro, .const 0, false, [], 0⟩]⟩,
  ⟨0x20090100, [(17, 0x400), (16, 0x10)], false, .secure29,
    [⟨0, 28, .rw, .const 0, false, [], 0⟩]⟩,
  ⟨0x20090104, [(17, 0x400), (16, 0x10)], false, .secure29,
    [⟨0, 28, .rw, .const 0, false, [], 0⟩]⟩,
  ⟨0x20090108, [(17, 0x400), (16, 0x10)], false, .secure29,
    [⟨0, 16, .rw, .const 0, false, [], 0⟩,
     ⟨16, 1, .rw, .const 0, false, [], 0⟩,
     ⟨17, 1, .rw, .const 0, false, [], 0⟩,
     ⟨18, 1, .rw, .const 0, false, [], 0⟩,
     ⟨19, 1, .rw, .const 0, false, [], 0⟩,
     ⟨20, 1, .rw, .const 0, false, [], 0⟩,
     ⟨21, 1, .rw, .const 0, false, [], 0⟩,
     ⟨22, 1, .rw, .const 0, false, [], 0⟩,
     ⟨23, 1, .rw, .const 0, false, [], 0⟩,
     ⟨24, 6, .rw, .const 0, false, [], 0⟩]⟩]

/-- Register rows of the CORE block. -/
def rowsCORE : List RegRow := [
  ⟨0x20098000, [(6, 0x100)], false, .secure,
    [⟨0, 6, .rw, .const 0, false, [], 0⟩,
     ⟨6, 1, .ro, .const 1, false, [], 0⟩,
     ⟨7, 1, .ro, .const 0, false, [], 0⟩]⟩,
  ⟨0x20098004, [(6, 0x100)], false, .secure,
    [⟨0, 9, .rw, .const 0, false, [(0, 256)], 0⟩]⟩,
  ⟨0x20098008, [(6, 0x100)], true, .secure,
    [⟨0, 32, .rw, .const 0, false, [], 4⟩]⟩,
  ⟨0x2009800C, [(6, 0x100)], false, .secure,
    [⟨0, 32, .rw, .const 0, false, [], 0⟩]⟩,
  ⟨0x20098010, [(6, 0x100)], true, .secure,
    [⟨0, 32, .rw, .const 0, false, [], 0⟩]⟩,
  ⟨0x20098014, [(6, 0x100)], false, .secure,
    [⟨0, 32, .rw, .const 0, false, [], 0⟩]⟩,
  ⟨0x20098018, [(6, 0x100)], false, .secure,
    [⟨0, 16, .rw, .const 0, false, [], 0⟩,
     ⟨16, 16, .rw, .const 0, false, [], 0⟩]⟩,
  ⟨0x2009801C, [(6, 0x100)], false, .secure,
    [⟨0, 1, .wo, .const 0, false, [], 0⟩]⟩,
  ⟨0x20098020, [(6, 0x100)], false, .secure,
    [⟨0, 1, .ro, .const 0, false, [], 0⟩,
     ⟨1, 3, .ro, .const 0, false, [], 0⟩]⟩]

/-- Register rows of the CORET block. -/
def rowsCORET : List RegRow := [
  ⟨0x20098424, [(2, 0x100)], false, .secure,
    [⟨0, 7, .rw, .const 64, false, [(0, 64)], 0⟩]⟩]

/-- Register rows of the PERF block. -/
def rowsPERF : List RegRow := [
  ⟨0x2009C000, [], false, .any,
    [⟨0, 1, .rw, .const 0, false, [], 0⟩,
     ⟨1, 1, .rw, .const 0, false, [], 0⟩,
     ⟨2, 1, .w1s, .const 0, false, [], 0⟩]⟩,
  ⟨0x2009C010, [], false, .any,
    [⟨0, 32, .rw, .const 0, false, [], 0⟩]⟩,
  ⟨0x2009C020, [(4, 0x8)], true, .any,
    [⟨0, 32, .ro, .const 0, false, [], 0⟩]⟩,
  ⟨0x2009C024, [(4, 0x8)], false, .any,
    [⟨0, 32, .ro, .const 0, false, [], 0⟩]⟩,
  ⟨0x2009C800, [(64, 0x4)], false, .any,
    [⟨0, 8, .rw, .const 0, false, [], 0⟩,
     ⟨8, 8, .rw, .const 0, false, [], 0⟩,
     ⟨16, 8, .rw, .const 0, false, [], 0⟩,
     ⟨24, 8, .rw, .const 0, false, [], 0⟩]⟩,
  ⟨0x2009D000, [(64, 0x20), (4, 0x8)], true, .any,
    [⟨0, 32, .ro, .const 0, false, [], 0⟩]⟩,
  ⟨0x2009D004, [(64, 0x20), (4, 0x8)], false, .any,
    [⟨0, 32, .ro, .const 0, false, [], 0⟩]⟩]

/-- Register rows of the LS block. -/
def rowsLS : List RegRow := [
  ⟨0x200A0000, [], false, .secure29,
    [⟨0, 1, .rw, .const 0, false, [], 0⟩,
     ⟨8, 8, .rw, .const 10, false, [(1, 255)], 0⟩,
     ⟨16, 8, .rw, .const 5, false, [(1, 255)], 0⟩]⟩,
  ⟨0x200A0004, [], false, .secure29,
    [⟨0, 2, .w1c, .const 0, false, [], 0⟩,
     ⟨2, 1, .w1c, .const 0, false, [], 0⟩,
     ⟨3, 2, .w1c, .const 0, false, [], 0⟩]⟩]

/-- Register rows of the LSP block. -/
def rowsLSP : List RegRow := [
  ⟨0x200A0100, [(2, 0x100)], false, .secure29,
    [⟨0, 2, .ro, .const 0, false, [], 0⟩,
     ⟨2, 1, .ro, .const 0, false, [], 0⟩,
     ⟨8, 3, .ro, .const 0, true, [], 0⟩,
     ⟨16, 7, .ro, .const 0, false, [], 0⟩,
     ⟨24, 8, .ro, .const 0, true, [], 0⟩]⟩,
  ⟨0x200A0108, [(2, 0x100)], true, .secure29,
    [⟨0, 32, .ro, .const 0, false, [], 0⟩]⟩,
  ⟨0x200A010C, [(2, 0x100)], false, .secure29,
    [⟨0, 32, .ro, .const 0, false, [], 0⟩]⟩,
  ⟨0x200A0110, [(2, 0x100)], true, .secure29,
    [⟨0, 32, .ro, .const 0, false, [], 0⟩]⟩,
  ⟨0x200A0114, [(2, 0x100)], false, .secure29,
    [⟨0, 32, .ro, .const 0, false, [], 0⟩]⟩,
  ⟨0x200A0120, [(2, 0x100), (4, 0x4)], false, .secure29,
    [⟨0, 32, .ro, .const 0, true, [], 0⟩]⟩,
  ⟨0x200A0130, [(2, 0x100), (4, 0x4)], false, .secure29,
    [⟨0, 32, .ro, .const 0, true, [], 0⟩]⟩,
  ⟨0x200A0140, [(2, 0x100)], false, .secure29,
    [⟨0, 32, .ro, .const 0, false, [], 0⟩]⟩,
  ⟨0x200A0144, [(2, 0x100)], false, .secure29,
    [⟨0, 1, .wo, .const 0, false, [], 0⟩]⟩]

/-- Register rows of the AUX block. -/
def rowsAUX : List RegRow := [
  ⟨0x200B0000, [], false, .any,
    [⟨0, 12, .rw, .const 500, true, [], 0⟩,
     ⟨12, 8, .rw, .const 140, true, [(100, 150)], 0⟩]⟩,
  ⟨0x200B0004, [], false, .any,
    [⟨0, 6, .ro, .const 0, true, [], 0⟩,
     ⟨6, 1, .ro, .const 0, true, [], 0⟩,
     ⟨7, 1, .ro, .const 0, true, [], 0⟩]⟩,
  ⟨0x200B0008, [], false, .any,
    [⟨0, 16, .ro, .const 0, true, [], 0⟩]⟩,
  ⟨0x200B000C, [], false, .any,
    [⟨0, 6, .w1c, .const 0, true, [], 0⟩,
     ⟨6, 1, .w1c, .const 0, true, [], 0⟩,
     ⟨7, 1, .w1c, .const 0, true, [], 0⟩]⟩,
  ⟨0x200B0010, [], false, .any,
    [⟨0, 24, .w1c, .const 0, true, [], 0⟩]⟩,
  ⟨0x200B0014, [], false, .any,
    [⟨0, 24, .w1c, .const 0, true, [], 0⟩]⟩,
  ⟨0x200B0018, [], false, .any,
    [⟨0, 24, .wo, .const 0, false, [], 0⟩]⟩,
  ⟨0x200B0020, [(6, 0x4)], false, .any,
    [⟨0, 32, .ro, .const 0, true, [], 0⟩]⟩,
  ⟨0x200B0400, [(24, 0x4)], false, .any,
    [⟨0, 32, .ro, .const 0, true, [], 0⟩]⟩]

/-- Register rows of the AUXN block. -/
def rowsAUXN : List RegRow := [
  ⟨0x200B0100, [(24, 0x20)], false, .any,
    [⟨0, 1, .rw, .const 0, true, [], 0⟩,
     ⟨1, 1, .rw, .const 0, true, [], 0⟩]⟩,
  ⟨0x200B0104, [(24, 0x20)], false, .any,
    [⟨0, 5, .rw, .const 8, true, [(1, 24)], 0⟩,
     ⟨5, 6, .rw, .const 16, true, [], 0⟩,
     ⟨11, 8, .rw, .const 20, true, [(1, 200)], 0⟩,
     ⟨19, 2, .rw, .const 3, true, [], 0⟩,
     ⟨21, 1, .rw, .const 1, true, [], 0⟩]⟩,
  ⟨0x200B0108, [(24, 0x20)], false, .any,
    [⟨0, 7, .rw, .const 2, true, [(0, 100)], 0⟩,
     ⟨8, 8, .rw, .const 10, true, [(1, 255)], 0⟩,
     ⟨16, 7, .rw, .const 10, true, [(0, 100)], 0⟩]⟩,
  ⟨0x200B010C, [(24, 0x20)], false, .any,
    [⟨0, 3, .ro, .const 0, true, [], 0⟩,
     ⟨3, 1, .ro, .const 0, true, [], 0⟩,
     ⟨4, 1, .ro, .const 0, true, [], 0⟩,
     ⟨5, 1, .ro, .const 0, true, [], 0⟩,
     ⟨6, 2, .ro, .const 0, true, [], 0⟩,
     ⟨8, 3, .ro, .const 0, true, [], 0⟩,
     ⟨11, 1, .ro, .const 0, true, [], 0⟩,
     ⟨12, 1, .ro, .const 0, true, [], 0⟩]⟩,
  ⟨0x200B0110, [(24, 0x20)], false, .any,
    [⟨0, 12, .ro, .const 0, true, [], 0⟩]⟩,
  ⟨0x200B0114, [(24, 0x20)], false, .any,
    [⟨0, 32, .ro, .const 0, true, [], 0⟩]⟩,
  ⟨0x200B0118, [(24, 0x20)], true, .any,
    [⟨0, 32, .ro, .const 0, true, [], 0⟩]⟩,
  ⟨0x200B011C, [(24, 0x20)], false, .any,
    [⟨0, 32, .ro, .const 0, true, [], 0⟩]⟩]

/-- Register rows of the MAD block. -/
def rowsMAD : List RegRow := [
  ⟨0x200C0000, [], false, .pair29,
    [⟨0, 2, .ro, .const 0, true, [], 0⟩,
     ⟨2, 8, .ro, .const 0, true, [], 0⟩,
     ⟨10, 1, .ro, .const 1, true, [], 0⟩,
     ⟨11, 1, .ro, .const 0, true, [], 0⟩,
     ⟨12, 1, .ro, .const 1, true, [], 0⟩,
     ⟨13, 1, .ro, .const 1, true, [], 0⟩,
     ⟨16, 4, .ro, .const 0, true, [], 0⟩,
     ⟨20, 4, .ro, .const 0, true, [], 0⟩]⟩,
  ⟨0x200C0004, [], false, .pair29,
    [⟨0, 8, .ro, .const 0, true, [], 0⟩,
     ⟨8, 8, .ro, .const 0, true, [], 0⟩,
     ⟨16, 8, .ro, .const 0, true, [], 0⟩,
     ⟨24, 8, .ro, .const 0, true, [], 0⟩]⟩,
  ⟨0x200C0008, [], false, .pair29,
    [⟨0, 1, .w1c, .const 0, true, [], 0⟩,
     ⟨1, 1, .w1c, .const 0, true, [], 0⟩,
     ⟨2, 1, .w1c, .const 0, true, [], 0⟩,
     ⟨3, 1, .w1c, .const 0, true, [], 0⟩,
     ⟨4, 1, .w1c, .const 0, true, [], 0⟩,
     ⟨5, 1, .w1c, .const 0, true, [], 0⟩,
     ⟨6, 1, .w1c, .const 0, true, [], 0⟩,
     ⟨7, 1, .w1c, .const 0, true, [], 0⟩,
     ⟨8, 1, .w1c, .const 0, true, [], 0⟩,
     ⟨9, 1, .w1c, .const 0, true, [], 0⟩]⟩,
  ⟨0x200C000C, [], false, .pair29,
    [⟨0, 1, .wo, .const 0, false, [], 0⟩,
     ⟨4, 4, .wo, .const 0, false, [], 0⟩,
     ⟨16, 16, .wo, .const 0, false, [], 0⟩]⟩,
  ⟨0x200C0010, [], false, .pair29,
    [⟨0, 8, .wo, .const 0, false, [], 0⟩,
     ⟨8, 8, .wo, .const 0, false, [], 0⟩]⟩,
  ⟨0x200C0014, [], false, .pair29,
    [⟨0, 1, .ro, .const 0, true, [], 0⟩,
     ⟨1, 1, .ro, .const 0, true, [], 0⟩,
     ⟨8, 8, .ro, .const 0, true, [], 0⟩,
     ⟨16, 16, .ro, .const 65535, true, [], 0⟩]⟩,
  ⟨0x200C0018, [], false, .pair29,
    [⟨0, 32, .ro, .const 0, true, [], 0⟩]⟩,
  ⟨0x200C001C, [], false, .pair29,
    [⟨0, 32, .ro, .const 0, true, [], 0⟩]⟩,
  ⟨0x200C0020, [], false, .pair29,
    [⟨0, 32, .ro, .const 0, true, [], 0⟩]⟩,
  ⟨0x200C0100, [(8, 0x4)], false, .pair29,
    [⟨0, 1, .rw, .const 1, true, [], 0⟩,
     ⟨1, 1, .rw, .const 0, true, [], 0⟩,
     ⟨3, 5, .rw, .const 3, true, [(1, 20)], 0⟩,
     ⟨8, 8, .rw, .const 5, true, [(1, 255)], 0⟩,
     ⟨16, 1, .rw, .const 1, true, [], 0⟩,
     ⟨17, 4, .rw, .const 15, true, [], 0⟩]⟩,
  ⟨0x200C0120, [], false, .pair29,
    [⟨0, 8, .rw, .const 20, true, [(2, 255)], 0⟩,
     ⟨8, 8, .rw, .const 10, true, [(1, 100)], 0⟩,
     ⟨16, 9, .rw, .const 300, true, [(100, 500)], 0⟩,
     ⟨25, 7, .rw, .const 10, true, [(1, 127)], 0⟩]⟩,
  ⟨0x200C0124, [], false, .pair29,
    [⟨0, 1, .rw, .const 0, true, [], 0⟩,
     ⟨1, 4, .rw, .const 15, true, [], 0⟩]⟩]

/-- Register rows of the MAD block. -/
def rowsMAD_1 : List RegRow := [
  ⟨0x200C0128, [], false, .pair29,
    [⟨0, 32, .rw, .const 0, true, [], 0⟩]⟩,
  ⟨0x200C012C, [], false, .pair29,
    [⟨0, 1, .wo, .const 0, false, [], 0⟩]⟩,
  ⟨0x200C0130, [], false, .pair29,
    [⟨0, 32, .ro, .const madResetCrc, true, [], 0⟩]⟩]

/-- Register rows of the DRAM block. -/
def rowsDRAM : List RegRow := [
  ⟨0x200D0000, [], false, .any,
    [⟨0, 1, .rw, .const 0, true, [], 0⟩,
     ⟨1, 3, .rw, .const 4, true, [(0, 4)], 0⟩,
     ⟨4, 2, .rw, .const 1, true, [(0, 2)], 0⟩]⟩,
  ⟨0x200D0004, [], false, .any,
    [⟨0, 1, .ro, .const 0, false, [], 0⟩,
     ⟨1, 2, .ro, .const 0, false, [], 0⟩,
     ⟨3, 2, .ro, .const 0, false, [], 0⟩,
     ⟨16, 16, .ro, .const 0, false, [], 0⟩]⟩,
  ⟨0x200D0008, [], false, .any,
    [⟨0, 8, .rw, .const 4, true, [(1, 255)], 0⟩,
     ⟨8, 8, .rw, .const 24, true, [], 0⟩]⟩,
  ⟨0x200D000C, [], false, .any,
    [⟨0, 1, .rw, .const 0, true, [], 0⟩]⟩,
  ⟨0x200D0010, [], false, .any,
    [⟨0, 32, .ro, .const 0, true, [], 0⟩]⟩,
  ⟨0x200D0014, [], false, .any,
    [⟨0, 32, .ro, .const 0, true, [], 0⟩]⟩,
  ⟨0x200D0018, [], true, .any,
    [⟨0, 32, .ro, .const 0, false, [], 0⟩]⟩,
  ⟨0x200D001C, [], false, .any,
    [⟨0, 32, .ro, .const 0, false, [], 0⟩]⟩,
  ⟨0x200D0100, [(12, 0x4)], false, .any,
    [⟨0, 4, .rw, .bankHome, true, [(0, 11), (14, 14)], 0⟩]⟩,
  ⟨0x200D0140, [(12, 0x4)], false, .any,
    [⟨0, 16, .ro, .const 0, true, [], 0⟩,
     ⟨16, 16, .ro, .const 0, true, [], 0⟩]⟩,
  ⟨0x200D0180, [(16, 0x4)], false, .any,
    [⟨0, 16, .ro, .const 0, true, [], 0⟩,
     ⟨16, 16, .ro, .const 0, true, [], 0⟩]⟩,
  ⟨0x200D01C0, [], false, .any,
    [⟨0, 1, .w1c, .const 0, false, [], 0⟩,
     ⟨1, 1, .w1c, .const 0, false, [], 0⟩,
     ⟨2, 1, .w1c, .const 0, false, [], 0⟩,
     ⟨3, 1, .w1c, .const 0, false, [], 0⟩,
     ⟨4, 1, .w1c, .const 0, false, [], 0⟩]⟩]

/-- Register rows of the DBG block. -/
def rowsDBG : List RegRow := [
  ⟨0x200F0000, [], false, .any,
    [⟨0, 1, .ro, .const 0, true, [], 0⟩,
     ⟨1, 1, .ro, .const 0, true, [], 0⟩,
     ⟨8, 8, .ro, .const 0, true, [], 0⟩,
     ⟨16, 6, .ro, .const 0, false, [], 0⟩]⟩,
  ⟨0x200F0004, [], false, .pair29,
    [⟨0, 1, .w1s, .const 0, true, [], 0⟩]⟩,
  ⟨0x200F0008, [], false, .any,
    [⟨0, 1, .w1c, .const 0, false, [], 0⟩,
     ⟨1, 1, .w1c, .const 0, false, [], 0⟩,
     ⟨2, 1, .w1c, .const 0, false, [], 0⟩]⟩]

/-- All the rows: the setup space as the register index lists it (R453). -/
def allRows : List RegRow :=
  rowsSYS ++
  rowsPWR ++ rowsPWR_1 ++
  rowsRST ++ rowsRST_1 ++
  rowsTB ++ rowsTB_1 ++
  rowsEVT ++
  rowsVAT ++ rowsVAT_1 ++ rowsVAT_2 ++ rowsVAT_3 ++ rowsVAT_4 ++
  rowsLANE ++ rowsLANE_1 ++
  rowsSLICE ++ rowsSLICE_1 ++
  rowsSLC ++
  rowsLDG ++
  rowsRING ++ rowsRING_1 ++
  rowsSW ++ rowsSW_1 ++ rowsSW_2 ++
  rowsSWP ++
  rowsSWC ++
  rowsJASIA ++ rowsJASIA_1 ++
  rowsPTP ++ rowsPTP_1 ++
  rowsPTPP ++
  rowsCAN ++ rowsCAN_1 ++ rowsCAN_2 ++
  rowsMORD ++
  rowsMORDCH ++
  rowsMORDSC ++
  rowsRC ++
  rowsCORE ++
  rowsCORET ++
  rowsPERF ++
  rowsLS ++
  rowsLSP ++
  rowsAUX ++
  rowsAUXN ++
  rowsMAD ++ rowsMAD_1 ++
  rowsDRAM ++
  rowsDBG

end Sys2Proof.Machine.Reg
end

