-- ==== Sys2Proof/Machine/State.lean ====
section
/-!
DEFINITION. The state of the block as plain data: setup registers (a sparse list of fields that differ from
reset), the engines of every chapter, memories, fuses, and the queue of waiting commands.
-/

namespace Sys2Proof.Machine
open Sys2Proof

/-! ### Access, events and the log -/

/-- The answer to the latest access: data and whether it was an error response (R5, R28, R29). -/
structure Resp where
  data : Nat := 0
  err : Bool := false
  deriving DecidableEq, Repr

/-- One 16-byte entry of the device event log (R436). -/
structure LogEntry where
  code : Nat
  source : Nat
  info : Nat
  data : Nat
  ts : Nat
  deriving DecidableEq, Repr

/-- The MODE field of a CMD block (R58). -/
inductive CmdMode where
  | off | run | openOut
  deriving DecidableEq, Repr

/-- What leaves the device: messages, blocks and frames the outside world can see, newest first in `Dev.out`.
[DESIGN CHOICE, log 102, 104] -/
inductive Output where
  /-- an MSI-X message: host port and vector (R434, R435). -/
  | msix (port vec : Nat)
  /-- a KILL block on a lane: mask and its complement, cause, KSEQ (R63). -/
  | kill (v mask maskN cause kseq : Nat)
  /-- a CMD block on a lane: channel, MODE, DUTY, PHASE, SEQ (R58). -/
  | cmd (v k : Nat) (mode : CmdMode) (duty phase seq : Nat)
  /-- a CHK block on a lane: CRC, GROUP, FRAME, PWMREF (R71). -/
  | chk (v crc group frame pwmref : Nat)
  /-- a TRN block on a lane: the lane state it carries (R73). -/
  | trn (v tstate : Nat)
  /-- an IDLE block on a lane (R47). -/
  | idle (v : Nat)
  /-- a CFG block on a lane: operation, tag, address, data (R61). -/
  | cfg (v op tag addr data : Nat)
  /-- a frame sent on a switch port. -/
  | frame (port : Nat) (bytes : List Byte)
  /-- a PAUSE or PFC frame: port, PFC, queue mask, quanta (R242). -/
  | pauseFrame (port : Nat) (pfc : Bool) (mask quanta : Nat)
  /-- a CAN frame sent by controller n. -/
  | canFrame (n : Nat) (frame : CanFrame)
  /-- controller n acknowledges a frame (R288). -/
  | canAck (n : Nat)
  /-- controller n signals an error by an active or a passive error flag (R288, R289). -/
  | canErrorFlag (n : Nat) (active : Bool)
  /-- a request over the inter-die link to Madder (R15, R386). -/
  | safeStopRequest
  /-- the normal-world interrupt of an application core, for a slice without vectors (R435). -/
  | coreSignal (core : Nat)
  /-- a Gnotar response on the wire. -/
  | gnotar (status data crc : Nat)
  deriving DecidableEq, Repr

/-! ### Channels, steps and measurement (chapters Power lanes to The impedance engine) -/

/-- The states of a channel (R100), in the order of their codes. -/
inductive ChSt where
  | idle | arm | close | soft | run | passive | ramp | killed | fenced
  deriving DecidableEq, Repr

/-- The state code of R100. -/
def ChSt.code : ChSt → Nat
  | .idle => 0 | .arm => 1 | .close => 2 | .soft => 3 | .run => 4
  | .passive => 5 | .ramp => 6 | .killed => 7 | .fenced => 8

/-- SOFT, RUN and RAMP: the states in which the control law runs (R104). -/
def ChSt.drives : ChSt → Bool
  | .soft | .run | .ramp => true
  | _ => false

/-- A channel command as sent in its CMD slot (R58). -/
structure Cmd where
  mode : CmdMode := .off
  duty : Nat := 0
  phase : Nat := 0
  seq : Nat := 0
  deriving DecidableEq, Repr

/-- A step descriptor (R149), its signed fields as integers. -/
structure Desc where
  op : Nat := 0
  ch : Nat := 0
  flags : Nat := 0
  tag : Nat := 0
  stepIdx : Nat := 0
  stream : Nat := 7
  mode : Nat := 0
  tune : Nat := 0
  ecCtl : Nat := 0
  spA : Int := 0
  spB : Int := 0
  spC : Int := 0
  spD : Int := 0
  slew : Nat := 0
  limChg : Nat := 0
  limDis : Nat := 0
  start : Nat := 0
  tLim : Nat := 0
  ec : List Int := []
  deriving DecidableEq, Repr

/-- A tuning block (R102), as copied into a channel's working state. -/
structure Tuning where
  kp : Nat := 0
  ki : Nat := 0
  kpv : Nat := 0
  kiv : Nat := 0
  kx : Nat := 0
  intLim : Nat := 0
  soft : Nat := 0
  ramp : Nat := 0
  zeroBand : Nat := 0
  iMax : Nat := 0
  vMax : Int := 0
  vMin : Int := 0
  tMax : Int := 0
  track : Nat := 0
  trackT : Nat := 0
  dsatT : Nat := 0
  dmin : Nat := 0
  dmax : Nat := 0
  deriving DecidableEq, Repr

/-- A reservation interval [l, u] in µW (R126). -/
structure Resv where
  l : Int := 0
  u : Int := 0
  deriving DecidableEq, Repr

/-- One entry of a channel's step queue (R154), with what the balancer and the held re-enable rule know of it. -/
structure QEntry where
  d : Desc
  /-- TB_NOW at which it reached the head of its queue. -/
  headAt : Option Nat := none
  /-- instant of the pass at which a synchronized step became a pending start (R159, R162). -/
  pendAt : Option Nat := none
  /-- the reservation it was admitted with (R127). -/
  resv : Option Resv := none
  /-- instant the budget deferral began (R128). -/
  deferAt : Option Nat := none
  balDeferred : Bool := false
  /-- instant a hold of R116 began. -/
  heldAt : Option Nat := none
  deferred : Bool := false
  /-- start instant of a synchronized step (R159, R160), once known. -/
  startAt : Option Nat := none
  late : Bool := false
  /-- instant it was released, if it has been held (R116); tested under R103 once; instant of the pass that admitted it (R128). -/
  relAt : Option Nat := none
  checked : Bool := false
  admAt : Nat := 0
  deriving DecidableEq, Repr

/-- A calibrated fast sample pair (R80, R81, R88) with its marks. -/
structure Fast where
  i : Int := 0
  v : Int := 0
  modf : Bool := false
  sus : Bool := false
  deriving DecidableEq, Repr

/-- The PULSE bookkeeping of R107: periods left in the level, the level's number, the last samples of the last
two levels, and the resistances formed. -/
structure Pulse where
  level : Nat := 0
  count : Nat := 0
  prevV : Int := 0
  prevI : Int := 0
  prevOk : Bool := false
  prevSus : Bool := false
  /-- window sample of the latest computation. -/
  last : Fast := {}
  ohm : Nat := 0
  formed : Nat := 0
  neg : Bool := false
  sus : Bool := false
  deriving DecidableEq, Repr

/-- The CONTACT bookkeeping of R108 and R96. -/
structure Contact where
  /-- periods since phase 1 began; none before it. -/
  n : Option Nat := none
  svA : Int := 0
  siA : Int := 0
  svB : Int := 0
  siB : Int := 0
  modf : Bool := false
  sus : Bool := false
  /-- outcome once phase 3 has computed it: pass, resistance, mean ΔV, mean ΔI, NEG. -/
  res : Option (Bool × Nat × Int × Int × Bool) := none
  deriving DecidableEq, Repr

/-- One precision output as the loop engine and the records use it (R84, R87). -/
structure Prec where
  t : Nat := 0
  per : Nat := 0
  i : Int := 0
  v : Int := 0
  temp : Option Int := none
  modf : Bool := false
  sus : Bool := false
  deriving DecidableEq, Repr

/-- The running step of a channel. -/
structure Running where
  d : Desc
  /-- the name the ledger knows the step's range by. -/
  id : Nat
  /-- boundary instant (R109). -/
  t0 : Nat
  deferred : Bool := false
  balDeferred : Bool := false
  scaled : Bool := false
  late : Bool := false
  orphan : Bool := false
  delay : Nat := 0
  resv : Resv := {}
  /-- consecutive qualifying outputs met, per value condition (R158). -/
  hold : List Nat := [0, 0, 0]
  pulse : Pulse := {}
  contact : Contact := {}
  /-- next progress instant (R166). -/
  nextProg : Nat := 0
  /-- outputs of a gang's leader that wait for a member's (R140). -/
  wait : List Prec := []
  /-- tick at which a phase change was not ready (R39). -/
  lateAt : Option Nat := none
  /-- status and INFO of an end whose transition to the successor was not ready at its tick (R39). -/
  lateEnd : Option (Nat × Nat) := none
  deriving DecidableEq, Repr

/-- How an orphaned channel was taken by its slice's policy (R119). -/
structure Orphan where
  policy : Nat
  maxMs : Nat
  since : Nat
  taken : Bool := false
  /-- VAT_CHSTATk.ORPHAN shows it: a policy has been taken (R118). -/
  shown : Bool := false
  /-- instant from which HOLD_SETPOINT gives way to RAMP_TO_ZERO, once ORPHAN_MAX has expired (R119). -/
  expireAt : Option Nat := none
  /-- instant of the ATTACH that ends it at the channel's next tick (R120). -/
  endAt : Option Nat := none
  deriving DecidableEq, Repr

/-- A channel of a vat: its state, reference, integrators, command, running step and queue (R100–R120). -/
structure Chan where
  st : ChSt := .idle
  /-- instant at which the state was entered, and the state before it. -/
  stAt : Nat := 0
  was : ChSt := .idle
  /-- tick of the latest computation (R97). -/
  done : Option Nat := none
  owner : Option (Fin 64) := none
  run : Option Running := none
  queue : List QEntry := []
  /-- queue halt of R167. -/
  halt : Bool := false
  tune : Tuning := {}
  tuneIdx : Nat := 0
  r : Int := 0
  xi : Int := 0
  xv : Int := 0
  cvAct : Bool := false
  trackN : Nat := 0
  dsatN : Nat := 0
  zeroN : Nat := 0
  /-- slope of a ramp-down in progress when an orphan policy set it (R119). -/
  orphanRate : Option Nat := none
  /-- the ramp serves a transition to a passive step (R109). -/
  toPassive : Bool := false
  cmd : Cmd := {}
  phase : Option Nat := none
  /-- start of the last OPEN command (R109). -/
  lastOpen : Option Nat := none
  lastStop : Nat := 0
  orphan : Option Orphan := none
  /-- set-up of the latest step, whose limits a ramp-down keeps (R104). -/
  setup : Desc := {}
  /-- reference after perturbation and clamp, of the latest computation (R104, R114): the channel's, and of the whole gang its
  leader's (R139). -/
  rp : Int := 0
  rg : Int := 0
  /-- the first computation in SOFT is still to come (R111). -/
  softFirst : Bool := false
  /-- a slice's STOP waits for the channel's next tick (R152): TAG and flags of the operation. -/
  stopReq : List Desc := []
  /-- leader of the gang the channel is a member of (R138). -/
  gang : Option (Fin 16) := none
  /-- loop period whose CMD was displaced or late (R98). -/
  discard : Option Nat := none
  /-- predicted bus power of the latest computations, newest first: (tick, µW) (R125). -/
  power : List (Nat × Int) := []
  /-- perturbation of the latest computation, and the tick whose own was not ready in time (R39). -/
  pert : Int := 0
  pertLate : Option Nat := none
  /-- what lost under the precedence of R17, newest first: (place in its list, instant). -/
  noted : List (Nat × Nat) := []
  /-- what has stopped the channel last: its place in that list, and its instant. -/
  won : Option (Nat × Nat) := none
  win : Fast := {}
  half : Fast := {}
  /-- precision outputs the loop engine has not yet used (R158). -/
  outs : List Prec := []
  lastOut : Prec := {}
  /-- changes of CV_ACT and of being orphaned that a record may still show, newest first (R182, R210). -/
  cvHist : List (Nat × Bool) := []
  orHist : List (Nat × Bool) := []
  /-- precision voltages of the last second (kind 9). -/
  vHist : List (Nat × Int) := []
  killedSinceArm : Bool := false
  /-- stop code of a kill that ends the running step at the channel's next computation (R109, R115). -/
  killEnd : Option Nat := none
  progress : Bool := false
  deriving DecidableEq, Repr

/-- The trip comparator and board report of a channel (R79, R91–R93). -/
structure Guard where
  /-- a RUN or OPEN command is in force at the board. -/
  force : Bool := false
  /-- SEQ of the first OFF since the last RUN or OPEN. -/
  offSeq : Option Nat := none
  tripped : Bool := false
  last4 : List Int := []
  nHi : Nat := 0
  nLo : Nat := 0
  lastI : Int := 0
  lastV : Int := 0
  hwOc : Bool := false
  repModfI : Bool := false
  repModfV : Bool := false
  /-- latest instant of a -8 word or report fault (R79), per quantity. -/
  badI : Nat := 0
  badV : Nat := 0
  temp : Option Int := none
  /-- instant of the latest channel report. -/
  repAt : Nat := 0
  deriving DecidableEq, Repr

/-- A sinc2 filter of the fast path (R80, R81): integrators and the values at the last two outputs, modulo 2^32,
with the integrator latched at the newest output instant. -/
structure Sinc2 where
  u1 : Nat := 0
  u2 : Nat := 0
  w : Nat := 0
  c : Nat := 0
  /-- integrator values latched as words cross output instants, oldest first: (instant, u2). -/
  latch : List (Nat × Nat) := []
  next : Option Nat := none
  deriving DecidableEq, Repr

/-- A sinc4 filter (R83): integrators, latched decimations, comb memories, and how many words ago a SUSPECT or
MODF word entered. -/
structure Sinc4 where
  a1 : Nat := 0
  a2 : Nat := 0
  a3 : Nat := 0
  a4 : Nat := 0
  c1 : Nat := 0
  c2 : Nat := 0
  c3 : Nat := 0
  c4 : Nat := 0
  ageS : Nat := 253
  ageM : Nat := 253
  next : Option Nat := none
  /-- decimations due: (m, integrator, SUSPECT, MODF), oldest first. -/
  latch : List (Nat × Nat × Bool × Bool) := []
  deriving DecidableEq, Repr

/-- One sinc4 output z[m] with its marks. -/
structure ZOut where
  m : Nat
  z : Int
  sus : Bool
  modf : Bool
  deriving DecidableEq, Repr

/-- A step's range and totals in an integrator (R173–R175), 8 fractional bits. -/
structure StepTot where
  id : Nat
  t0 : Nat
  tEnd : Option Nat := none
  stepIdx : Nat := 0
  tag : Nat := 0
  stream : Nat := 7
  gang : Bool := false
  q : Int := 0
  e : Int := 0
  /-- output that saturated the charge or the energy total, if one did. -/
  qSat : Option Nat := none
  eSat : Option Nat := none
  closed : Bool := false
  deriving DecidableEq, Repr

/-- One ledger integrator (R170–R173): filters, lifetime totals with 8 fractional bits, remainders, step totals. -/
structure Integ where
  fi : Sinc4 := {}
  fv : Sinc4 := {}
  qIn : Nat := 0
  qOut : Nat := 0
  eIn : Nat := 0
  eOut : Nat := 0
  rq : Int := 0
  re : Int := 0
  /-- µA·2^8 and µV·2^8 outputs, by index, some of whose energy units are still to come, oldest first (R172). -/
  i8 : List (Nat × Int) := []
  v8 : List (Nat × Int) := []
  steps : List StepTot := []
  /-- after each output m a record may still count, newest first: the step it went to and its charge then: (m, id, Q_STEP). -/
  hist : List (Nat × Nat × Int) := []
  /-- a checkpoint's instant, and Q_IN, Q_OUT and E_IN, E_OUT as they stood at it, once later outputs have been
  integrated (R191). -/
  cut : Option Nat := none
  cutQ : Option (Nat × Nat) := none
  cutE : Option (Nat × Nat) := none
  deriving DecidableEq, Repr

/-- Calibration coefficients in force (R88). -/
structure Cal where
  ig : Nat := 0x40000000
  io : Int := 0
  vg : Nat := 0x40000000
  vo : Int := 0
  deriving DecidableEq, Repr

/-- The measurement path and ledger of a channel. -/
structure Meas where
  fi : Sinc2 := {}
  fv : Sinc2 := {}
  a : Integ := {}
  b : Integ := {}
  /-- coefficients in force before the changes that follow, newest first: (instant, set) (R89). -/
  cal : Cal := {}
  cals : List (Nat × Cal) := []
  /-- rate code in force before the changes that follow, newest first: (instant, code), and the pending change (R85). -/
  rate : Nat := 0
  rates : List (Nat × Nat) := []
  ratePend : Option (Nat × Nat) := none
  /-- instant of the latest write of the rate by a master. -/
  rateAt : Nat := 0
  /-- earliest instant whose precision output has not been formed. -/
  fromT : Nat := 0
  zi : List ZOut := []
  zv : List ZOut := []
  /-- channel reports' temperatures in the period: (instant, value). -/
  temps : List (Nat × Option Int) := []
  /-- record sequence (R183) and impedance sequence (R209). -/
  seq : Nat := 0
  impSeq : Nat := 0
  /-- marks since the last checkpoint: MODF, SUSPECT, GAP (R193). -/
  ckModf : Bool := false
  ckSus : Bool := false
  ckGap : Bool := false
  /-- marked words of the fast path, newest first: instant in eighths, current?, SUSPECT, MODF (R78). -/
  fastMarks : List (Nat × Bool × Bool × Bool) := []
  deriving DecidableEq, Repr

/-- A KILL waiting for its slot (R66). -/
structure KillReq where
  mask : Nat
  cause : Nat
  ready : Nat
  deriving DecidableEq, Repr

/-- A sent KILL still to be repeated (R66). -/
structure KillRep where
  mask : Nat
  cause : Nat
  kseq : Nat
  /-- group number (100 ns each) of the first send, and repeats left. -/
  group : Nat
  left : Nat
  deriving DecidableEq, Repr

/-- A board configuration request (R61, R62). -/
structure CfgReq where
  op : Nat
  addr : Nat := 0
  data : Nat := 0
  tag : Nat := 0
  tries : Nat := 0
  sentAt : Option Nat := none
  deriving DecidableEq, Repr

/-- A power lane: upstream group in progress, block lock, training, configuration and KILL traffic (R44–R77). -/
structure Lane where
  /-- upstream blocks of the group so far: payloads, oldest first. -/
  grp : List Nat := []
  grpBad : Bool := false
  /-- a KILL was triggered from the group in progress (R75). -/
  grpKill : Bool := false
  /-- words of the group waiting for its check: (instant in eighths, current?, words), oldest first. -/
  words : List (Nat × Bool × List Int) := []
  prevI : List Int := List.replicate 16 0
  prevV : List Int := List.replicate 16 0
  /-- sampling instants, in eighths of a tick, of the latest current and voltage words. -/
  lastIAt : Nat := 0
  lastVAt : Nat := 0
  failRun : Nat := 0
  /-- validity of the last 64 upstream slots, newest first. -/
  slots : List Bool := []
  lastGood : Nat := 0
  /-- training: entry into LOCK, retries used, descriptor words (index, word, times seen), CHKs seen. -/
  lockAt : Nat := 0
  /-- instant of the latest entry into ACTIVE (R178). -/
  activeAt : Nat := 0
  retries : Nat := 0
  restAt : Option Nat := none
  descSeen : List (Nat × Nat × Nat) := []
  chkOk : Nat := 0
  tstate : Nat := 0
  rtt : List Nat := []
  /-- DN_ERR of the first report 18 in CHECK. -/
  dnAtCheck : Option Nat := none
  /-- CFG traffic: waiting (oldest first) and outstanding. -/
  cfgQ : List CfgReq := []
  cfgOut : Option CfgReq := none
  tag : Nat := 0
  kills : List KillReq := []
  reps : List KillRep := []
  kseq : Nat := 0
  /-- unacknowledged kills: (channel, instant sent). -/
  ack : List (Nat × Nat) := []
  /-- last downstream KILL block: mask, cause, KSEQ. -/
  lastKill : Nat × Nat × Nat := (0, 0, 0)
  /-- last CFG block sent: op, tag, addr, data. -/
  lastCfg : Nat × Nat × Nat × Nat := (0, 0, 0, 0)
  /-- group of the latest safe-stop KILL sent and its KSEQ, the KSEQ of the fence KILL, and the group and channels of the latest
  KILLs sent (R65, R66). -/
  stopGroup : Option Nat := none
  stopKseq : Nat := 0
  heldKseq : Nat := 0
  killed : Nat × Nat := (0, 0)
  /-- payload of the block that has claimed the downstream slot starting now, and the payloads of the downstream group so far,
  oldest first (R66, R70). -/
  claim : Option Nat := none
  dn : List Nat := []
  /-- first fence KILL, and channels that have reported KLATCH = 1 since (R122). -/
  fenceKillAt : Option Nat := none
  fenceAck : Nat := 0
  latchAt : Option Nat := none
  deriving DecidableEq, Repr

/-- An entry of a vat's stream buffer (R184): what the ring will hold. -/
structure SEntry where
  slice : Fin 64
  ring : Nat
  ts : Nat
  ch : Nat
  seq : Nat
  gap : Bool := false
  sealed : Bool := false
  /-- which of the slice's chains it belongs to (R190); it has been buffered: it could not be written when it was due (R184). -/
  chain : Nat := 0
  kept : Bool := false
  bytes : List Byte
  deriving DecidableEq, Repr

/-- A point of an impedance sweep (R197–R206). -/
structure ImpPoint where
  p : Nat := 0
  sweep : Nat := 0
  npts : Nat := 0
  p0 : Nat := 0
  wStart : Nat := 0
  wEnd : Nat := 0
  inc : Nat := 0
  amp : Int := 0
  /-- masks over k: channels that get a record, taking part, aborted, and the marks of R210. -/
  mask : Nat := 0
  part : Nat := 0
  abort : Nat := 0
  sus : Nat := 0
  modf : Nat := 0
  clip : Nat := 0
  held : Nat := 0
  cvChg : Nat := 0
  /-- CV_ACT at the latest tick, and CV_ACT and ORPHAN at W_end. -/
  cvAct : Nat := 0
  orph : Nat := 0
  /-- gangs that take part: leader and member mask (R200). -/
  gang : List (Nat × Nat) := []
  /-- STEP_IDX of the step running at P0, by k. -/
  stepIdx : List Nat := []
  /-- samples in the window: (k, m, instant in eighths, value in 1/256 units), newest first. -/
  iS : List (Nat × Nat × Nat × Int) := []
  vS : List (Nat × Nat × Nat × Int) := []
  /-- temperature reports in the window: (k, value). -/
  temps : List (Nat × Option Int) := []
  deriving DecidableEq, Repr

/-- The impedance engine of a vat. -/
structure Imp where
  /-- instants of a START and a STOP that wait for the next period start (R208). -/
  startReq : Option Nat := none
  stopReq : Option Nat := none
  nextP : Nat := 0
  nextAt : Nat := 0
  point : Option ImpPoint := none
  /-- points past their W_end whose last samples are still to come, oldest first. -/
  fin : List ImpPoint := []
  buf : List SEntry := []
  deriving DecidableEq, Repr

/-- A calibration commit (R90): channels still to be judged, the write's master and world, and the loop-period start it is
evaluated at. [DEDUCED, log 37] -/
structure CalReq where
  mask : Nat
  master : Nat
  secure : Bool
  at_ : Nat
  deriving DecidableEq, Repr

/-- A vat: lane, channels, measurement, buffers, balancer state. -/
structure Vat where
  chans : Vector Chan 16 := Vector.replicate 16 {}
  guards : Vector Guard 16 := Vector.replicate 16 {}
  meas : Vector Meas 16 := Vector.replicate 16 {}
  lane : Lane := {}
  sbuf : List SEntry := []
  imp : Imp := {}
  /-- LATE faults of the last 1000 loop periods, newest first (R40). -/
  lates : List Nat := []
  /-- calibration commits waiting for their 400·n, oldest first (R90). -/
  calReq : List CalReq := []
  /-- staged sets as they stood at a commit's loop-period start, where a later write has changed them since: (start, channel, set). -/
  calSets : List (Nat × Nat × Cal) := []
  boardFlags : Nat := 0
  /-- charge-side and regeneration-side scale factors (R131). -/
  sD : Nat := 65536
  sG : Nat := 65536
  /-- divergence check in progress: its instant and the channels still to be compared (R180). -/
  div : Nat × Nat := (0, 0)
  deriving DecidableEq, Repr

/-! ### Slices, rings and ledger chains -/

/-- A completion waiting in the buffer (R156, R162). -/
structure Cmp where
  tag : Nat
  ch : Nat
  stepIdx : Nat
  status : Nat
  info : Nat := 0
  cflags : Nat := 0
  tEnd : Nat
  delay : Nat := 0
  valA : Nat := 0
  valB : Nat := 0
  valC : Nat := 0
  noIrq : Bool := false
  progress : Bool := false
  /-- the ledger range whose closed charge goes into VAL_C, with the mask of member channels (R165, R176). -/
  qOf : Option (Nat × Nat) := none
  /-- it holds its queue entry's slot (R156). -/
  slot : Bool := false
  deriving DecidableEq, Repr

/-- A formed checkpoint on its way to its slot (R191): header, and per channel its number, the bytes before and after its totals,
and the totals themselves where the channel has been given away since. -/
structure Ckpt where
  /-- a slot of the signing key was invalidated since it was formed (R346). -/
  orphan : Bool := false
  slot : Nat
  inst : Nat
  head : List Byte
  rows : List (Nat × List Byte × List Byte × Option (List Byte))
  /-- the signing key it consumed, if it was usable, and that key's slot with its GEN (R335). -/
  key : Option Nat
  hold : Option (Nat × Nat) := none
  closing : Bool
  deriving DecidableEq, Repr

/-- The step engine's and the ledger's state for one slice. -/
structure SliceEng where
  pi : Vector Nat 8 := Vector.replicate 8 0
  ci : Vector Nat 8 := Vector.replicate 8 0
  cmdPi : Nat := 0
  mirror : List Nat := []
  /-- instant of the latest mirror poll (R146). -/
  polledAt : Option Nat := none
  stallAt : Option Nat := none
  cmps : List Cmp := []
  evtLostRun : Nat := 0
  wbDirty : Bool := false
  /-- the next DMA is a write-back block (R230). -/
  wbFirst : Bool := false
  /-- causes of R435 to signal once the write-back block is written. -/
  sig : List Nat := []
  wdogAt : Nat := 0
  /-- chain state per stream: block number, entries of the open block, hash of the last block (R186–R190). -/
  blockNo : Vector Nat 5 := Vector.replicate 5 0
  blk : Vector (List (List Byte)) 5 := Vector.replicate 5 []
  head : Vector (List Byte) 5 := Vector.replicate 5 []
  chainStart : Bool := false
  /-- chains started so far. -/
  chainNo : Nat := 0
  warm : Bool := false
  skipped : Nat := 0
  prevHash : List Byte := []
  ckpt : Option Ckpt := none
  /-- teardown: instant of DESTROY, whether the closing checkpoint has been formed. -/
  tearAt : Option Nat := none
  closingDone : Bool := false
  deadline : Bool := false
  /-- migration target port, while MIGRATE runs or the slice is FROZEN, and the instant of freezing. -/
  migPort : Option Nat := none
  frozenAt : Nat := 0
  /-- the previous pages of the dirty-page log (R228). -/
  pages : List (Nat × Nat) := []
  /-- source vectors that rose while FROZEN (R434). -/
  heldVec : List Nat := []
  deriving DecidableEq, Repr


/-! ### Mordant key store -/

/-- A key as held: two shares whose XOR is the key (R348), and what a slice key was derived from, so that it can be
derived again (R347). -/
structure MSlot where
  s0 : Nat := 0
  s1 : Nat := 0
  label : List Byte := []
  ctx : List Byte := []
  /-- a re-masking turn waits for the key's release. -/
  due : Bool := false
  deriving DecidableEq, Repr

/-- A command of a channel, with its arguments as they stood at the command write, and the channel's owner. -/
structure MCmd where
  ch : Fin 16
  op : Nat
  args : List Nat
  owner : Src
  /-- the slot it names was invalidated while it waited (R346). -/
  dead : Bool := false
  deriving DecidableEq, Repr

/-- The command the engine runs: the key material it has consumed, the slot it consumed it from with that slot's GEN,
and whether that slot has been invalidated since (R346). -/
structure MRun where
  cmd : MCmd
  key : Nat := 0
  kind : Nat := 2
  slot : Option (Nat × Nat) := none
  orphan : Bool := false
  deriving DecidableEq, Repr

/-- The key store beside its registers. -/
structure Mord where
  slots : Vector MSlot 128 := Vector.replicate 128 {}
  /-- masks of the three device keys: one share of each; the other is the key XOR the mask. -/
  dmask : Vector Nat 3 := Vector.replicate 3 0
  owners : Vector (Option Src) 16 := Vector.replicate 16 none
  queue : List MCmd := []
  run : Option MRun := none
  /-- power-die instant from which the present re-masking interval counts (R348). -/
  remaskAt : Nat := 0
  /-- NONCE of each slice's latest CREATE (R339). -/
  nonce : Vector (List Byte) 64 := Vector.replicate 64 []
  deriving DecidableEq, Repr


/-! ### CAN FD controllers -/

/-- A controller's bit clock (R284): the instant its present bit began in kernel periods, sample point and length of that bit in
quanta as resynchronization has left them, the phase, whether the sample point has passed, and whether a
resynchronization has followed the latest sample point. [DEDUCED, log 127] -/
structure CanClock where
  start : Nat := 0
  sp : Nat := 0
  len : Nat := 0
  data : Bool := false
  passed : Bool := false
  synced : Bool := false
  deriving DecidableEq, Repr

/-- A CAN controller beside its registers. -/
structure Can where
  clock : CanClock := {}
  /-- filter fields written since the latest frame: the field, what it held before, the instant of the write, oldest first (R294). -/
  filtLog : List (RF × Nat × Nat) := []
  /-- latest withdrawal of buffers that were not pending, and latest restart: instant and buffers (R291, R297). -/
  abortAt : Option (Nat × Nat) := none
  restartAt : Option Nat := none
  /-- buffer whose frame is on the bus. -/
  onBus : Option (Fin 32) := none
  /-- instants of the bus-offs in the supervisor's window (R291). -/
  boff : List Nat := []
  /-- elements received while the message area's checker is waited for (R310): FIFO and bytes, oldest first. -/
  rxWait : List (Fin 2 × List Byte) := []
  /-- a buffer that was sent and whose TS waits for that checker, and its start-of-frame edge (R293, R310). -/
  tsWait : Option (Fin 32 × Nat) := none
  /-- the controller sent the latest frame that met an error (R289). -/
  errTx : Bool := false
  deriving DecidableEq, Repr

/-! ### Cores, lockstep, power requests -/

/-- A core as this device sees it: where it continues, its secure return register, its timers, and what holds it;
instants count power-die time. [DESIGN CHOICE, log 103] -/
structure Core where
  pc : Nat := 0
  ret : Nat := 0
  /-- not released since its reset (R299, R411). -/
  held : Bool := true
  /-- instant the active entry began (R304, R313). -/
  entry : Option Nat := none
  /-- instant of the watchdog's latest restart, and whether it has expired (R312). -/
  wdogAt : Nat := 0
  expired : Bool := false
  /-- halted by Gnotar, since when, by a breakpoint; and a halt request that waits (R427). -/
  halted : Option Nat := none
  byBp : Bool := false
  haltPend : Bool := false
  /-- core registers written through Gnotar. -/
  gpr : List (Nat × Nat) := []
  /-- a slice's signal to the core waits for its return to the normal world (R305, R435). -/
  irqN : Bool := false
  deriving DecidableEq, Repr

/-- A world's outstanding power or quiesce request (R318). -/
structure QReq where
  src : Src
  block : Nat
  op : Nat
  at_ : Nat
  /-- deferred; draining (neither flag: the block's transition runs). -/
  deferred : Bool := false
  draining : Bool := false
  deriving DecidableEq, Repr

/-- A stage of a pair's delay register (R320): the primary's compare vector, and the write it holds back until the comparison (R322): source,
address, data. -/
structure PairEntry where
  vec : Nat
  held : Option (Src × Nat × Word) := none
  deriving DecidableEq, Repr

/-- A lockstep pair's checker beside its registers (R320, R321, R327). -/
structure Pair where
  /-- the next injection test is of comparator Y. -/
  testY : Bool := false
  /-- a state digest is due (R325). -/
  due : Bool := false
  /-- power-die time from which the present injection period counts. -/
  injAt : Nat := 0
  /-- delay register and response register, of two stages each, oldest first. -/
  delay : List PairEntry := []
  resp : List Nat := []
  /-- since when the primary stalls. -/
  stallAt : Option Nat := none
  /-- interrupts the shadow has still to take: transactions compared before it, and the primary's retired-instruction count. -/
  irqs : List (Nat × Nat) := []
  deriving DecidableEq, Repr

/-! ### Auxiliary switches -/

/-- A switch beside its registers; instants count power-die time. -/
structure Aux where
  /-- start and end of the inrush window. -/
  winAt : Nat := 0
  winEnd : Nat := 0
  /-- state CLAMP leads to: 0 OFF, 4 RETRY, 5 LATCHED. -/
  clampTo : Nat := 0
  /-- latest turn-off for a fault, whether it was for over-temperature, and its TB_NOW. -/
  offAt : Nat := 0
  offOt : Bool := false
  /-- latest turn-off by an OFF request. -/
  reqOffAt : Option Nat := none
  /-- since when in ON without a fault, in current limit, below and at or above the open-load threshold. -/
  onAt : Option Nat := none
  limAt : Option Nat := none
  lowAt : Option Nat := none
  highAt : Option Nat := none
  /-- end of the reset hold (R372). -/
  holdTill : Option Nat := none
  deriving DecidableEq, Repr

/-! ### Madder safety island (power die; instants count power-die time) -/

/-- One filtered input channel (R379): level last seen, since when, and the filtered level. -/
structure MadIn where
  raw : Bool := false
  since : Nat := 0
  filt : Bool := false
  deriving DecidableEq, Repr

/-- A test pulse in progress (R387): output (0–3 SOA, 4–7 SOB), low side, and whether its result is discarded. -/
structure MadPulse where
  out : Fin 8
  low : Bool
  at_ : Nat
  discard : Bool := false
  deriving DecidableEq, Repr

/-- The ten configuration words at reset (R394). -/
def madCfgReset : List Nat := List.replicate 8 0x1F0519 ++ [0x152C0A14, 0x1E]

/-- Madder beside its registers. -/
structure Mad where
  /-- the two copies of the configuration in force (R393). -/
  cfgA : List Nat := madCfgReset
  cfgB : List Nat := madCfgReset
  /-- SI0_A–SI7_A, then SI0_B–SI7_B. -/
  ins : Vector MadIn 16 := Vector.replicate 16 {}
  /-- since when the two channels of an input differ, and how far a discrepancy has been cleared: 0 none, 1 both off
  still to come, 2 both on still to come. -/
  diff : Vector (Option Nat) 8 := Vector.replicate 8 none
  disc : Vector Nat 8 := Vector.replicate 8 0
  /-- instant of the latest accepted beat. -/
  beatAt : Option Nat := none
  /-- the heartbeat loss has acted. -/
  hbActed : Bool := false
  /-- the role has moved: the next beat is accepted with any SEQ (R385). -/
  moved : Bool := false
  /-- a request waits for the next cycle: mask of Class B outputs (R386). -/
  req : Option Nat := none
  /-- LOCKED until power-on reset (R377). -/
  hard : Bool := false
  pulse : Option MadPulse := none
  /-- latest test of each output, and whether its next test is of the low side. -/
  testAt : Vector Nat 8 := Vector.replicate 8 0
  testLow : Vector Bool 8 := Vector.replicate 8 false
  /-- latest change of each Class B output, or end of a test pulse: feedback is judged FB_T after it (R382). -/
  obAt : Vector Nat 4 := Vector.replicate 4 0
  /-- a re-arm waits for the feedbacks: since this instant, and the mask of Class B outputs it energized (R391). -/
  rearm : Option (Nat × Nat) := none
  /-- an accepted pulse waits for the end of a test pulse: mask of outputs that pass their tests (R389). -/
  rearmDue : Option Nat := none
  /-- the logic die has acted on the safe stop that stands. -/
  told : Bool := true
  deriving DecidableEq, Repr

/-! ### Supply, reset, boot, fuses, debug -/

/-- What is being programmed into the fuses. -/
inductive FuseJob where
  | lifeCycle (code : Nat)
  | svn (n : Nat)
  | ownerKey (k : Fin 4) (hash : List Nat)
  | revoke (mask : Nat)
  deriving DecidableEq, Repr

/-- The one-time-programmable fuses that a running device can change (R349, R413, R415, R430). [DESIGN CHOICE, log 10] -/
structure Fuses where
  lc : Nat := 2
  svnMin : Nat := 0
  /-- owner key hashes, as 12 words; all zero: not programmed. -/
  owner : Vector (List Nat) 4 := Vector.ofFn (fun k => Config.ownerHash k.1)
  /-- bit k: owner key k is revoked. -/
  revoked : Nat := 0
  deriving DecidableEq, Repr

/-- The supply supervisor, resets and boot; instants count power-die time. -/
structure Sup where
  /-- VIN is above its power-on threshold. -/
  vin : Bool := false
  /-- the logic die is held in reset. -/
  held : Bool := true
  /-- instant of a supply event. -/
  evAt : Option Nat := none
  /-- instant a warm reset in progress began. -/
  warm : Option Nat := none
  /-- source of a warm reset that waits for fuse programming (R417). -/
  warmWait : Option Nat := none
  /-- the boot ROM runs. -/
  rom : Bool := false
  /-- the logic die was released at this instant, from which step 1 of the boot counts (R411). -/
  romAt : Nat := 0
  /-- VAUX is above its undervoltage-on threshold. -/
  vaux : Bool := false
  /-- voltage of the VIO banks in mV; 0: absent. -/
  vio : Vector Nat 4 := Vector.replicate 4 0
  /-- fuse programming in progress, and since when. -/
  fuse : Option (FuseJob × Nat) := none
  /-- rail of the supply event in progress. -/
  evRail : Nat := 0
  /-- WRST_N is high again from this instant. -/
  lowTill : Nat := 0
  deriving DecidableEq, Repr

/-- A breakpoint comparator (R421). -/
structure Bp where
  core : Nat
  comp : Nat
  addr : Nat := 0
  ctl : Nat := 0
  deriving DecidableEq, Repr

/-- A memory access of the Gnotar port (R428). -/
structure DbgAcc where
  write : Bool
  secure : Bool
  addr : Nat
  data : Nat
  deriving DecidableEq, Repr

/-- The Gnotar port beside the DEBUG block's registers. -/
structure Dbg where
  cert : List Nat := []
  /-- the challenge (128 bits). -/
  chal : Nat := 0
  /-- verification in progress: instant of GO, the certificate, the challenge drawn before GO, and the result
  if one of the conditions judged first failed, else 0 (R424). -/
  verify : Option (Nat × List Nat × Nat × Nat) := none
  fails : Nat := 0
  lastFail : Option Nat := none
  result : Nat := 0
  addr : Nat := 0
  memctl : Nat := 0
  memErr : Bool := false
  crcErr : Nat := 0
  /-- outstanding memory access; the word a finished read has brought, and whether the probe has been given it. -/
  acc : Option DbgAcc := none
  got : Option Nat := none
  given : Bool := false
  bpsel : Nat := 0
  bps : List Bp := []
  cregSel : Nat := 0
  fuseSel : Nat := 0
  fuseData : List Nat := []
  catchOn : Bool := false
  deriving DecidableEq, Repr

/-- Madder's and the memory controller's times of the last second: uncorrectable DRAM errors per channel (R358). -/
structure Dram where
  ue0 : List Nat := []
  ue1 : List Nat := []
  /-- power-die instant from which the present interval of the patrol scrubber counts (R357). -/
  scrubAt : Nat := 0
  deriving DecidableEq, Repr


/-! ### Switch core (chapter Switch core) -/

/-- A frame in the switch, without FCS, with its classification (R234) and its stamps. In an output's queue it
carries how many of its cells the fabric has transferred. -/
structure SwFrame where
  /-- the model's own number of the copy. -/
  id : Nat := 0
  inp : Fin 8
  vid : Nat
  pcp : Nat
  q : Fin 8
  cells : Nat
  arrived : Nat := 0
  /-- sent by cut-through (R240). -/
  cut : Bool := false
  /-- proved errored (R241). -/
  bad : Bool := false
  barrier : Bool := false
  /-- ingress stamp in eighths of a tick (R271). -/
  stamp : Nat := 0
  /-- the slice a frame to M is charged to (R252). -/
  slice : Option Nat := none
  bytes : List Byte
  deriving DecidableEq, Repr

/-- A transfer an input asks the fabric for: copy, output, cells still to move (R237). -/
structure SwXfer where
  id : Nat
  dest : Fin 8
  left : Nat
  barrier : Bool := false
  deriving DecidableEq, Repr

/-- A port of the switch. -/
structure SwPort where
  /-- staging area (R242): frames waiting for one output, oldest first. -/
  stage : List (Fin 8 × SwFrame) := []
  /-- multicast hold (R246): output, instant of classification, copy. -/
  hold : List (Fin 8 × Nat × SwFrame) := []
  xfer : List SwXfer := []
  queues : Vector (List SwFrame) 8 := Vector.replicate 8 []
  /-- deficits and turn of the round robin (R238). -/
  deficit : Vector Nat 8 := Vector.replicate 8 0
  turn : Fin 8 := 0
  turnOpen : Bool := false
  /-- rotating pointer P_o (R237). -/
  rot : Fin 8 := 0
  /-- end of the frame being sent, and the input of a cut-through frame being sent. -/
  busyTill : Nat := 0
  curCut : Option (Fin 8) := none
  /-- end of the express frame being sent (R244). -/
  expressTill : Nat := 0
  /-- instant a received pause of each queue runs out (R243). -/
  paused : Vector Nat 8 := Vector.replicate 8 0
  /-- latest XOFF sent for each priority; a PAUSE is sent for them all (R242). -/
  xoffAt : Vector Nat 8 := Vector.replicate 8 0
  /-- negotiated line rate in Mbit/s, and the instant the link went down or up. -/
  mbps : Nat := 0
  linkAt : Nat := 0
  /-- 802.3br verification has succeeded (R244). -/
  preempt : Bool := false
  deriving DecidableEq, Repr

/-- One MAC table entry (R236): index 4·bucket + way, address (byte 0 lowest), VID, ports. -/
structure MacEntry where
  idx : Nat
  addr : Nat
  vid : Nat
  ports : Nat
  static : Bool
  /-- instant it was learned or last refreshed. -/
  since : Nat := 0
  /-- what it holds is firmware's own write, not learning. -/
  written : Bool := false
  deriving DecidableEq, Repr

/-- One VLAN table entry (R234). -/
structure Vlan where
  vid : Nat
  member : Nat
  untag : Nat
  learn : Bool
  deriving DecidableEq, Repr

/-- What the exporter has sent of one ring and not seen acknowledged (R250, R251). -/
structure ExpRing where
  slice : Fin 64
  ring : Fin 8
  next : Nat
  /-- index after the last entry and instant of each unacknowledged frame, oldest first. -/
  sent : List (Nat × Nat) := []
  deriving DecidableEq, Repr

/-- The switch. -/
structure Switch where
  ports : Vector SwPort 8 := Vector.replicate 8 {}
  mac : List MacEntry := []
  vlans : List Vlan := [⟨1, 0xFF, 0xFF, true⟩]
  nextId : Nat := 0
  exp : List ExpRing := []
  expTurn : Fin 64 := 0
  /-- cells the auditor's latest pass found allocated but on no list, and the instant of that pass (R247). -/
  unlisted : List Nat := []
  auditAt : Nat := 0
  deriving DecidableEq, Repr

/-! ### Jasia cascade -/

/-- A barrier announced or accepted (R159, R260). -/
structure Barrier where
  num : Nat
  inst : Nat
  arr : Nat
  epoch : Nat
  deriving DecidableEq, Repr

/-- The Jasia unit beside its registers. -/
structure Jasia where
  /-- barriers known, newest first, at most 16. -/
  barriers : List Barrier := []
  /-- entries ever made, so that the oldest register entry is replaced. -/
  count : Nat := 0
  /-- announcement being repeated: the frames of its ports, copies left, next instant (R258). -/
  rep : Option (List (Fin 8 × List Byte) × Nat × Nat) := none
  /-- beacons: latest of the domain, latest on J0 and J1, latest sent, and whether each J port has been
  receiving. -/
  lastBeacon : Nat := 0
  lastJ0 : Option Nat := none
  lastJ1 : Option Nat := none
  /-- latest beacon ever received on J0 and J1 (R263). -/
  seen : Vector (Option Nat) 2 := Vector.replicate 2 none
  /-- end of the last beacon interval judged on a J port that had been receiving (R262). -/
  expect : Vector (Option Nat) 2 := Vector.replicate 2 none
  /-- a master is followed (R264). -/
  follows : Bool := false
  sentAt : Nat := 0
  /-- the next barrier-class frame has missed its deadline (R39). -/
  lateFwd : Bool := false
  deriving DecidableEq, Repr

/-! ### Network time -/

/-- A received frame on its way into the PTP receive ring (R273): port, corrected stamp in eighths of a tick, bytes without FCS. -/
structure PtpFrame where
  port : Nat
  stamp : Nat
  bytes : List Byte
  udp : Bool
  err : Bool
  deriving DecidableEq, Repr

/-- The PTP unit and the triggers beside their registers. -/
structure Ptp where
  kickAt : Nat := 0
  holdAt : Nat := 0
  /-- a holdover has expired and no KICK has ended it (R278). -/
  expired : Bool := false
  /-- instant each comparator is armed for. -/
  cmpAt : Vector Nat 16 := Vector.replicate 16 0
  /-- pins TOUT0–TOUT7, the end of a pulse in progress, and the latest action: instant, comparator, and the level before that instant's
  actions (R279). -/
  tout : Nat := 0
  pulse : Vector (Option Nat) 8 := Vector.replicate 8 none
  acted : Vector (Option (Nat × Nat × Bool)) 8 := Vector.replicate 8 none
  /-- capture FIFOs, oldest first (R280). -/
  cap : Vector (List Nat) 8 := Vector.replicate 8 []
  /-- frames that wait while the checker holds accesses back (R310): port, stamp in eighths, bytes; oldest first. -/
  rxWait : List PtpFrame := []
  deriving DecidableEq, Repr


/-! ### The whole device -/

/-- What the inter-die link brings to the logic die from the power die: the rise of an event source, or an entry of the device event
log (R364, R392, R433). -/
inductive LinkEvent where
  | rise (source : Nat)
  | entry (code source info data : Nat)
  deriving DecidableEq, Repr

/-- Everything the block holds but the queue of waiting commands and the memories. -/
structure Dev where
  /-- setup registers that are plain fields, as differences from reset. -/
  regs : Regs := []
  /-- TB_NOW (R31), in ticks of 2.5 ns. -/
  now : Nat := 0
  /-- power-die time: ticks of 2.5 ns since power-on. -/
  up : Nat := 0
  /-- part of a tick of power-die time that ticks of TB_NOW have taken so far, in units of 10^-9 tick over the rate (R33). -/
  upAcc : Nat := 0
  /-- part of a tick, in the same units, slews have absorbed so far beyond what TB_SLEW.REM shows: positive forward (R34). -/
  slewAcc : Int := 0
  /-- W1C bits the device has set at power-die instant `freshAt`: (field key, mask); a write of 1 at that instant leaves
  them (R7). -/
  freshAt : Nat := 0
  fresh : List (Nat × Nat) := []
  /-- answer to the latest access. -/
  resp : Resp := {}
  /-- low words written and held, and high words captured, per master and register (R10). -/
  heldLow : List (Nat × Nat × Nat) := []
  capHigh : List (Nat × Nat × Nat) := []
  /-- the device event log, newest first, at most 4096 entries (R436). -/
  evlog : List LogEntry := []
  /-- what has left the device, newest first. -/
  out : List Output := []
  /-- memory writes the command in progress has posted: (key, bytes); empty between commands. -/
  wq : List (Nat × List Byte) := []
  /-- address ranges (first, one past the last) whose contents the command in progress destroys; empty between
  commands. -/
  lost : List (Nat × Nat) := []
  /-- how often vat SRAM and DRAM have lost their contents. -/
  vatEpoch : Nat := 0
  dramEpoch : Nat := 0
  /-- the model's own counter: which free value comes next. -/
  freeN : Nat := 0
  /-- the model's own counter of step ranges. -/
  stepN : Nat := 0
  vats : Vector Vat 16 := Vector.replicate 16 {}
  slices : Vector SliceEng 64 := Vector.replicate 64 {}
  /-- scale factors of segments and slices (R131). -/
  segD : Vector Nat 8 := Vector.replicate 8 65536
  segG : Vector Nat 8 := Vector.replicate 8 65536
  slcD : Vector Nat 64 := Vector.replicate 64 65536
  slcG : Vector Nat 64 := Vector.replicate 64 65536
  /-- loop-period start of the latest balancer pass (R128). -/
  passAt : Option Nat := none
  /-- governor: windows in a row above TARGET + HYST, and the rail as it stands, in mV above 0.65 V (R42). -/
  govRun : Nat := 0
  railNow : Nat := 250
  /-- the logic-die junction is above 120 °C (R42). -/
  hot : Bool := false
  /-- the reference has returned and the PLL relocked since it was last lost (R36). -/
  relock : Bool := false
  /-- slice command in progress: (op, slice), with the instant of its write. -/
  sliceCmd : Option (Nat × Nat × Nat) := none
  /-- region checkers that masters 8–11 still wait for since a warm reset, as a mask (R310). -/
  rcWait : Nat := 0
  sw : Switch := {}
  jasia : Jasia := {}
  ptp : Ptp := {}
  can : Vector Can 8 := Vector.replicate 8 {}
  cores : Vector Core 6 := Vector.replicate 6 {}
  /-- lines of the L2 of AC0–AC3: number of a 64-byte line, and whether the secure world filled it (R298). -/
  l2 : List (Nat × Bool) := []
  /-- bytes an application core has stored that its L1 may still hold: core, address, and what memory holds beneath (R314). -/
  l1 : List (Nat × Nat × Byte) := []
  /-- power-die instant up to which the performance counters have counted (R315). -/
  perfAt : Nat := 0
  /-- outstanding requests of the normal and the secure world (R318). -/
  qN : Option QReq := none
  qS : Option QReq := none
  pairs : Vector Pair 2 := Vector.replicate 2 {}
  mord : Mord := {}
  dram : Dram := {}
  aux : Vector Aux 24 := Vector.replicate 24 {}
  /-- sums of the dissipation estimates of the last 100 ms in mW, newest first (R368). -/
  auxSum : List Nat := []
  mad : Mad := {}
  /-- what the power die has to report when the logic die leaves reset, oldest first (R392). -/
  link : List LinkEvent := []
  sup : Sup := {}
  dbg : Dbg := {}
  fuse : Fuses := {}
  deriving DecidableEq, Repr

/-- The machine: the commands waiting (first in, first out), the memories, the device. -/
structure State where
  pending : List Instr := []
  /-- device memory and the host memory the device has written, by key, in canonical form. -/
  mem : List Host.Cell := []
  dev : Dev := {}
  deriving DecidableEq, Repr

/-- Reasons the machine stops with a fault: there are none. The spec gives every command an effect, and where it
leaves a value open the machine goes on with a free value. -/
inductive Fault where
  deriving DecidableEq, Repr

/-- Reasons a command has no meaning. -/
inductive Refusal where
  /-- raised by `exec` for a row whose meaning has not been written; safe: nothing can be proved of it. -/
  | notModelled (mnemonic : String)
  deriving DecidableEq, Repr

/-- The machine right after power-on reset: every register at the value the spec states, or the value the
assumption log names; nothing in memory; no command waiting. The logic die is still held in reset (R399, R404).
[DESIGN CHOICE, log 2, 3] -/
def State.reset : State := {}

end Sys2Proof.Machine
end

