-- ==== Sys2Proof/Machine/Ops.lean ====
section
/-!
DEFINITION. The named operations every meaning is written over: register fields, free values, the event log and
event sources (R433–R438), memories, and posting a result.
-/

namespace Sys2Proof.Machine
open Sys2Proof

/-! ### Fixed-size tables -/

/-- Replace element `i`. -/
def put {α : Type} {n : Nat} (xs : Vector α n) (i : Fin n) (x : α) : Vector α n := xs.set i.1 x i.2

/-- Apply `f` to every element, with its index. -/
def putAll {α : Type} {n : Nat} (xs : Vector α n) (f : Fin n → α → α) : Vector α n :=
  Vector.ofFn (fun i => f i xs[i])

/-- Do something for each number below `n`, in rising order. -/
def forEach {σ : Type} (n : Nat) (s : σ) (f : σ → Nat → σ) : σ := (List.range n).foldl f s

/-- The indices below 16 whose bit is set in a mask, rising. -/
def maskList (m : Nat) : List (Fin 16) := (List.finRange 16).filter (fun k => m.testBit k.1)

/-- The bytes of a number, most significant first. -/
def beBytes (n x : Nat) : List Byte := (leBytes n x).reverse

/-! ### Fields of the device -/

/-- One setter for every field of the device that a command changes as a whole. -/
def Dev.setRegs (d : Dev) (x : Regs) : Dev := { d with regs := x }
def Dev.setNow (d : Dev) (x : Nat) : Dev := { d with now := x }
def Dev.setUp (d : Dev) (x : Nat) : Dev := { d with up := x }
def Dev.setUpAcc (d : Dev) (x : Nat) : Dev := { d with upAcc := x }
def Dev.setSlewAcc (d : Dev) (x : Int) : Dev := { d with slewAcc := x }
def Dev.setResp (d : Dev) (x : Resp) : Dev := { d with resp := x }
def Dev.setHeldLow (d : Dev) (x : List (Nat × Nat × Nat)) : Dev := { d with heldLow := x }
def Dev.setCapHigh (d : Dev) (x : List (Nat × Nat × Nat)) : Dev := { d with capHigh := x }
def Dev.setEvlog (d : Dev) (x : List LogEntry) : Dev := { d with evlog := x }
def Dev.setOut (d : Dev) (x : List Output) : Dev := { d with out := x }
def Dev.setWq (d : Dev) (x : List (Nat × List Byte)) : Dev := { d with wq := x }
def Dev.setLost (d : Dev) (x : List (Nat × Nat)) : Dev := { d with lost := x }
def Dev.setDramEpoch (d : Dev) (x : Nat) : Dev := { d with dramEpoch := x }
def Dev.setFreeN (d : Dev) (x : Nat) : Dev := { d with freeN := x }
def Dev.setStepN (d : Dev) (x : Nat) : Dev := { d with stepN := x }
def Dev.setVats (d : Dev) (x : Vector Vat 16) : Dev := { d with vats := x }
def Dev.setSlices (d : Dev) (x : Vector SliceEng 64) : Dev := { d with slices := x }
def Dev.setSegD (d : Dev) (x : Vector Nat 8) : Dev := { d with segD := x }
def Dev.setSegG (d : Dev) (x : Vector Nat 8) : Dev := { d with segG := x }
def Dev.setSlcD (d : Dev) (x : Vector Nat 64) : Dev := { d with slcD := x }
def Dev.setSlcG (d : Dev) (x : Vector Nat 64) : Dev := { d with slcG := x }
def Dev.setPassAt (d : Dev) (x : Option Nat) : Dev := { d with passAt := x }
def Dev.setGovRun (d : Dev) (x : Nat) : Dev := { d with govRun := x }
def Dev.setRailNow (d : Dev) (x : Nat) : Dev := { d with railNow := x }
def Dev.setHot (d : Dev) (x : Bool) : Dev := { d with hot := x }
def Dev.setRelock (d : Dev) (x : Bool) : Dev := { d with relock := x }
def Dev.setSliceCmd (d : Dev) (x : Option (Nat × Nat × Nat)) : Dev := { d with sliceCmd := x }
def Dev.setSw (d : Dev) (x : Switch) : Dev := { d with sw := x }
def Dev.setJasia (d : Dev) (x : Jasia) : Dev := { d with jasia := x }
def Dev.setPtp (d : Dev) (x : Ptp) : Dev := { d with ptp := x }
def Dev.setCan (d : Dev) (x : Vector Can 8) : Dev := { d with can := x }
def Dev.setCores (d : Dev) (x : Vector Core 6) : Dev := { d with cores := x }
def Dev.setL2 (d : Dev) (x : List (Nat × Bool)) : Dev := { d with l2 := x }
def Dev.setL1 (d : Dev) (x : List (Nat × Nat × Byte)) : Dev := { d with l1 := x }
def Dev.setPerfAt (d : Dev) (x : Nat) : Dev := { d with perfAt := x }
def Dev.setRcWait (d : Dev) (x : Nat) : Dev := { d with rcWait := x }
def Dev.setQN (d : Dev) (x : Option QReq) : Dev := { d with qN := x }
def Dev.setQS (d : Dev) (x : Option QReq) : Dev := { d with qS := x }
def Dev.setPairs (d : Dev) (x : Vector Pair 2) : Dev := { d with pairs := x }
def Dev.setMord (d : Dev) (x : Mord) : Dev := { d with mord := x }
def Dev.setDram (d : Dev) (x : Dram) : Dev := { d with dram := x }
def Dev.setAux (d : Dev) (x : Vector Aux 24) : Dev := { d with aux := x }
def Dev.setAuxSum (d : Dev) (x : List Nat) : Dev := { d with auxSum := x }
def Dev.setLink (d : Dev) (x : List LinkEvent) : Dev := { d with link := x }
def Dev.setMad (d : Dev) (x : Mad) : Dev := { d with mad := x }
def Dev.setSup (d : Dev) (x : Sup) : Dev := { d with sup := x }
def Dev.setDbg (d : Dev) (x : Dbg) : Dev := { d with dbg := x }
def Dev.setFuse (d : Dev) (x : Fuses) : Dev := { d with fuse := x }

/-! ### Register fields -/

/-- The value of a register field. -/
def Dev.f (d : Dev) (r : RF) : Nat := d.regs.get r

/-- Give a register field a value. -/
def Dev.setF (d : Dev) (r : RF) (x : Nat) : Dev := { d with regs := d.regs.set r x }

/-- A one-bit field, read. -/
def Dev.bit (d : Dev) (r : RF) : Bool := d.f r == 1

/-- A one-bit field, written. -/
def Dev.setB (d : Dev) (r : RF) (b : Bool) : Dev := d.setF r (if b then 1 else 0)

/-- Bit `i` of a field, read. -/
def Dev.tb (d : Dev) (r : RF) (i : Nat) : Bool := (d.f r).testBit i

/-- Bit `i` of a field, written. -/
def Dev.setTb (d : Dev) (r : RF) (i : Nat) (b : Bool) : Dev := d.setF r (setBit (d.f r) i b)

/-- Add to a saturating counter. -/
def Dev.bump (d : Dev) (r : RF) (n : Nat := 1) : Dev := d.setF r (min (2 ^ r.w - 1) (d.f r + n))

/-- Add to a counter that wraps. -/
def Dev.wrap (d : Dev) (r : RF) (n : Nat := 1) : Dev := d.setF r (d.f r + n)

/-- Two words as one 64-bit quantity. -/
def Dev.f64 (d : Dev) (lo hi : RF) : Nat := d.f lo + 2 ^ 32 * d.f hi

/-- Write a 64-bit quantity into two words. -/
def Dev.setF64 (d : Dev) (lo hi : RF) (x : Nat) : Dev := (d.setF lo x).setF hi (x / 2 ^ 32)

/-- Madder's safe stop is asserted (R375). -/
def Dev.safeStop (d : Dev) : Bool := d.bit Reg.MAD_STAT_SAFE_STOP

/-- The boot ROM stops with a code (R411). A warm reset it was part of has ended without service. [DEDUCED, log 91] -/
def Dev.romStop (d : Dev) (code : Nat) : Dev :=
  ((d.setSup { d.sup with rom := false, warm := none }).setF Reg.RST_BOOT_STAGE 15).setF Reg.RST_BOOT_CODE code

/-! ### Free values -/

/-- The next free value, of `w` bits, and the device with the counter advanced. [DESIGN CHOICE, log 6, 7] -/
def Dev.free (d : Dev) (w : Nat) : Nat × Dev :=
  (Config.freeNat d.freeN % 2 ^ w, (d.setFreeN (d.freeN + 1)))

/-! ### Events (R433–R435) -/

/-- Record that something left the device. [DESIGN CHOICE, log 104] -/
def Dev.emit (d : Dev) (o : Output) : Dev := d.setOut (o :: d.out)

/-- Change one slice's engine state. -/
def Dev.modSlice (d : Dev) (s : Fin 64) (f : SliceEng → SliceEng) : Dev :=
  d.setSlices (put d.slices s (f d.slices[s]))

/-- Slice number of a natural number. -/
def sl (n : Nat) : Fin 64 := ⟨n % 64, Nat.mod_lt _ (by decide)⟩

/-- Deliver a rise of source `i` to the slice its route names (R434): MSI-X when the slice is ACTIVE and has the
vector, kept for RESUME when it is FROZEN, nothing otherwise. [DEDUCED, log 63] -/
def Dev.deliver (d : Dev) (i : Nat) : Dev :=
  let s := d.f (Reg.EVT_ROUTE_SLICE i)
  let vec := d.f (Reg.EVT_ROUTE_VEC i)
  if d.f (Reg.EVT_ROUTE_KIND i) = 2 ∧ vec < d.f (Reg.SLC_VEC_COUNT s) then
    match d.f (Reg.SLC_STATE_STATE s) with
    | 1 => d.emit (.msix (d.f (Reg.SLC_PASID_PORT s)) (d.f (Reg.SLC_VEC_BASE s) + vec))
    | 3 => d.modSlice (sl s) (fun e => { e with heldVec := e.heldVec ++ [i] })
    | _ => d
  else d

/-- The W1C bits of a field that the device has set at the present instant (R7). [DEDUCED, log 122] -/
def Dev.freshMask (d : Dev) (r : RF) : Nat :=
  if d.freshAt = d.up then d.fresh.foldl (fun m e => if e.1 = r.key then m ||| e.2 else m) 0 else 0

/-- The device sets W1C bits of a field at the present instant: a write of 1 at the same instant leaves them set (R7).
[DEDUCED, log 122] -/
def Dev.note (d : Dev) (r : RF) (mask : Nat) : Dev :=
  { d with freshAt := d.up, fresh := (r.key, mask) :: (if d.freshAt = d.up then d.fresh else []) }

/-- Where the sources of EVT_PENDw are noted that rise while they are pending already: no field of a register.
[DEDUCED, log 122] -/
def pendAgain (w : Nat) : RF := { Reg.EVT_PEND_SRC w with lo := 1 }

/-- Event source `i` rises: its pending bit is set; a rise that is enabled is delivered (R7, R433, R434). One that is pending
already is noted, for a write that clears it in the same instant. [DEDUCED, log 110, 122] -/
def Dev.pend (d : Dev) (i : Nat) : Dev :=
  let d := d.note (Reg.EVT_PEND_SRC (i / 32)) (2 ^ (i % 32))
  if d.tb (Reg.EVT_PEND_SRC (i / 32)) (i % 32) then d.note (pendAgain (i / 32)) (2 ^ (i % 32))
  else
    let d := d.setTb (Reg.EVT_PEND_SRC (i / 32)) (i % 32) true
    if d.tb (Reg.EVT_EN_SRC (i / 32)) (i % 32) then d.deliver i else d

/-- Set bits in a block's event field; a newly set bit raises the block's event source (R7, R433). [DEDUCED, log 110, 122] -/
def Dev.raise (d : Dev) (r : RF) (mask src : Nat) : Dev :=
  let d := d.note r mask
  if d.f r ||| mask = d.f r then d else (d.setF r (d.f r ||| mask)).pend src

/-- Unconsumed log entries. -/
def Dev.logFill (d : Dev) : Nat := (d.f Reg.EVT_LOG_PI_VALUE + 2 ^ 32 - d.f Reg.EVT_LOG_CI_VALUE) % 2 ^ 32

/-- List an entry as the newest of the device event log, which holds 4096 (R436). -/
def Dev.listEntry (d : Dev) (e : LogEntry) : Dev := d.setEvlog ((e :: d.evlog).take 4096)

/-- A log that was full before this entry loses its oldest one (R438). -/
def Dev.logOverrun (d : Dev) (fill : Nat) : Dev :=
  if fill ≥ 4096 then ((d.wrap Reg.EVT_LOG_CI_VALUE).bump Reg.EVT_LOG_OVW_VALUE).pend 95 else d

/-- The watermark source rises when the fill, `fill` before this entry, reaches the watermark (R438). -/
def Dev.logMark (d : Dev) (fill : Nat) : Dev :=
  if d.f Reg.EVT_LOG_CFG_WM ≠ 0 ∧ fill < d.f Reg.EVT_LOG_CFG_WM ∧ d.f Reg.EVT_LOG_CFG_WM ≤ d.logFill then d.pend 94 else d

/-- Write one entry to the device event log, overwriting the oldest when it is full, and raise the watermark and
overwrite sources (R436, R438). [DEDUCED, log 15] -/
def Dev.log (d : Dev) (code source info data : Nat) : Dev :=
  (((d.listEntry ⟨code, source, info, data % 2 ^ 32, d.now⟩).wrap Reg.EVT_LOG_PI_VALUE).logOverrun d.logFill).logMark d.logFill

/-- The power die writes an entry of the device event log: at once, or when the logic die leaves reset (R392).
[DEDUCED, log 137] -/
def Dev.linkLog (d : Dev) (code source info data : Nat) : Dev :=
  if d.sup.held then d.setLink (d.link ++ [.entry code source info data]) else d.log code source info data

/-- The power die sets bits in an event field; the source rises at once, or when the logic die leaves reset (R392, R433).
[DEDUCED, log 137] -/
def Dev.linkRaise (d : Dev) (r : RF) (mask src : Nat) : Dev :=
  if d.sup.held then
    if d.f r ||| mask = d.f r then d else (d.setF r (d.f r ||| mask)).setLink (d.link ++ [.rise src])
  else d.raise r mask src

/-- The logic die takes one report of the power die (R392). -/
def Dev.linkOne (d : Dev) : LinkEvent → Dev
  | .rise i => d.pend i
  | .entry c s i w => d.log c s i w

/-- The logic die takes what the link has kept for it, with the present TB_NOW (R392). [DEDUCED, log 137] -/
def Dev.linkTake (d : Dev) : Dev := d.link.foldl Dev.linkOne (d.setLink [])

/-- INFO of an entry that records an access: master, world, direction, and the code's own bits (R436). -/
def accInfo (src : Src) (write : Bool) (hi : Nat) : Nat :=
  src.master.1 + (if src.secure then 16 else 0) + (if write then 32 else 0) + 64 * (hi % 1024)

/-- INFO of an entry that records no access: 15 in the master place (R436). -/
def evInfo (hi : Nat) : Nat := 15 + 64 * (hi % 1024)

/-- Page [39:12] of an address. -/
def page (addr : Nat) : Nat := addr / 4096 % 2 ^ 28

/-- The setup-space offset of an address. -/
def setupOff (addr : Nat) : Nat := addr - 0x20000000

/-- An address lies in the setup space (R27). -/
def inSetup (addr : Nat) : Bool := 0x20000000 ≤ addr && addr ≤ 0x200FFFFF

/-- The access is answered with zero and an error response, and logged under R5 or R28. [DEDUCED, log 15] -/
def Dev.badAccess (d : Dev) (src : Src) (write : Bool) (addr : Nat) : Dev :=
  let d := d.setResp ⟨0, true⟩
  (d.log 0x01 79 (accInfo src write 0) (if inSetup addr then setupOff addr else page addr)).pend 79

/-- A write broke a rule its field states: it acts as R9 says and is logged; no error response (R455). [DEDUCED, log 13, 15] -/
def Dev.logR9 (d : Dev) (src : Src) (addr : Nat) : Dev :=
  (d.log 0x03 79 (accInfo src true 0) (setupOff addr)).pend 79

/-- A write was refused and logged (R455). [DEDUCED, log 13, 15] -/
def Dev.logRefused (d : Dev) (src : Src) (addr : Nat) : Dev :=
  d.log 0x04 0xFF (accInfo src true 0) (setupOff addr)

/-- The answer of an access that was performed. -/
def Dev.answer (d : Dev) (x : Nat) : Dev := d.setResp ⟨x, false⟩

/-! ### Memory (R27): one list of cells in canonical form -/

/-- The SRAM banks, whose contents are zero after power-on reset (R407). -/
def inSram (a : Nat) : Bool := 0x10000000 ≤ a && a < 0x11800000

/-- The byte at a key, if one is listed. [DESIGN CHOICE, log 4] -/
def Mem.find (m : List Host.Cell) (a : Nat) : Option Byte :=
  match m with
  | [] => none
  | (a', b) :: rest => if a' = a then some b else Mem.find rest a

/-- The tuning window of the vat SRAMs and the rest of them (R355). -/
def inVatSram (a : Nat) : Bool := 0x18000000 ≤ a && a < 0x18400000

/-- The DRAM window (R27). -/
def inDram (a : Nat) : Bool := 0x100000000 ≤ a && a < 0x300000000

/-- How often the memory an address belongs to has lost its contents, by the counts of vat SRAM and DRAM. [DESIGN CHOICE, log 4] -/
def Mem.epoch (ep : Nat × Nat) (a : Nat) : Nat := if inVatSram a then ep.1 else if inDram a then ep.2 else 0

/-- What an address reads as when nothing is listed there: zero in an SRAM bank (R354, R407), elsewhere a free
value. [DESIGN CHOICE, log 4] -/
def Mem.dflt (ep : Nat × Nat) (a : Nat) : Byte := if inSram a then 0 else Config.memByte (Mem.epoch ep a) a

/-- The byte an address reads as. -/
def Mem.read (m : List Host.Cell) (ep : Nat × Nat) (a : Nat) : Byte := (Mem.find m a).getD (Mem.dflt ep a)

/-- List a byte at its place. -/
def Mem.insert (m : List Host.Cell) (a : Nat) (b : Byte) : List Host.Cell :=
  match m with
  | [] => [(a, b)]
  | (a', b') :: rest =>
    if a < a' then (a, b) :: (a', b') :: rest
    else if a = a' then (a, b) :: rest
    else (a', b') :: Mem.insert rest a b

/-- Write one byte; what an unlisted address reads as is not listed. [DESIGN CHOICE, log 4] -/
def Mem.write (m : List Host.Cell) (ep : Nat × Nat) (a : Nat) (b : Byte) : List Host.Cell :=
  if b = Mem.dflt ep a then m.filter (fun c => c.1 ≠ a) else Mem.insert m a b

/-- Write bytes at consecutive addresses. -/
def Mem.writes (m : List Host.Cell) (ep : Nat × Nat) (a : Nat) : List Byte → List Host.Cell
  | [] => m
  | b :: bs => Mem.writes (Mem.write m ep a b) ep (a + 1) bs

/-- Perform posted writes in order. -/
def Mem.writeAll (m : List Host.Cell) (ep : Nat × Nat) (ws : List (Nat × List Byte)) : List Host.Cell :=
  ws.foldl (fun m w => Mem.writes m ep w.1 w.2) m

/-- Drop what has lost its contents: cells in a lost range, and cells of a memory whose count has moved on.
[DESIGN CHOICE, log 4] -/
def Mem.drop (m : List Host.Cell) (old new : Nat × Nat) (lost : List (Nat × Nat)) : List Host.Cell :=
  m.filter (fun c => Mem.epoch old c.1 == Mem.epoch new c.1 && !lost.any (fun r => r.1 ≤ c.1 && c.1 < r.2))

/-- Addresses strictly rising. -/
def Mem.rising : List Host.Cell → Bool
  | [] => true
  | [_] => true
  | c :: c' :: rest => decide (c.1 < c'.1) && Mem.rising (c' :: rest)

/-- The canonical form: addresses strictly rising, and nothing listed that reads the same unlisted. -/
abbrev Mem.wf (ep : Nat × Nat) (m : List Host.Cell) : Prop := Mem.rising m = true ∧ ∀ c ∈ m, c.2 ≠ Mem.dflt ep c.1

/-- Read `n` bytes at consecutive addresses. -/
def Mem.reads (m : List Host.Cell) (ep : Nat × Nat) (a : Nat) : Nat → List Byte
  | 0 => []
  | n + 1 => Mem.read m ep a :: Mem.reads m ep (a + 1) n

/-- A little-endian word of `n` bytes. -/
def Mem.word (m : List Host.Cell) (ep : Nat × Nat) (a n : Nat) : Nat := ofLeBytes (Mem.reads m ep a n)

/-- The key of an address in a host's memory: port, PASID, address (R212). [DESIGN CHOICE, log 4] -/
def hostKey (port pasid addr : Nat) : Nat := 2 ^ 64 * (1 + port * 2 ^ 20 + pasid % 2 ^ 20) + addr % 2 ^ 64

/-- Post a memory write; no core's L1 holds those bytes any more (R298). -/
def Dev.post (d : Dev) (key : Nat) (bs : List Byte) : Dev :=
  (d.setWq (d.wq ++ [(key, bs)])).setL1 (d.l1.filter (fun e => !(key ≤ e.2.1 && e.2.1 < key + bs.length)))

/-! ### The end of a meaning -/

/-- How often vat SRAM and DRAM have lost their contents. -/
def Dev.ep (d : Dev) : Nat × Nat := (d.vatEpoch, d.dramEpoch)

/-- The state after a command: the device as the command left it, what has lost its contents dropped, its posted
writes performed. [DESIGN CHOICE, log 4] -/
def State.commit (s : State) (d : Dev) : State :=
  { s with mem := Mem.writeAll (Mem.drop s.mem s.dev.ep d.ep d.lost) d.ep d.wq, dev := { d with wq := [], lost := [] } }

/-- The outcome of a command of the power die (supply, resets, Madder, auxiliary switches), which runs while the
logic die is held in reset (R13, R14). [DESIGN CHOICE, log 2] -/
def State.donePower (s : State) (d : Dev) : Host.Outcome State Fault Refusal := .next (s.commit d)

/-- The outcome of a command of the logic die: nothing while the logic die is held in reset (R14). [DESIGN CHOICE, log 2] -/
def State.done (s : State) (d : Dev) : Host.Outcome State Fault Refusal :=
  if s.dev.sup.held then .next s else s.donePower d

/-- Bytes of device memory, as the device's engines read them. -/
def State.memBytes (s : State) (key n : Nat) : List Byte := Mem.reads s.mem s.dev.ep key n

/-- A word of device memory, as the device's engines read it. -/
def State.memWord (s : State) (key n : Nat) : Nat := Mem.word s.mem s.dev.ep key n

end Sys2Proof.Machine
end

