-- ==== Sys2Proof/Machine/Access.lean ====
section
/-!
DEFINITION. Accesses to the setup space: region checker (R308, R309), who may write what, reading a register,
writing a register's fields by type (R6, R9, R10).
-/

namespace Sys2Proof.Machine
open Sys2Proof

/-- Region `r` of checker `t` matches the access (R308). -/
def Dev.rcMatch (d : Dev) (t r : Nat) (src : Src) (addr : Nat) : Bool :=
  d.bit (Reg.RC_R_PERM_VALID t r) &&
  d.f (Reg.RC_R_BASE_PAGE t r) ≤ page addr && page addr ≤ d.f (Reg.RC_R_LIMIT_PAGE t r) &&
  d.tb (Reg.RC_R_PERM_MASTERS t r) src.master.1 &&
  (src.secure || !d.bit (Reg.RC_R_PERM_SLICE_EN t r) || d.f (Reg.RC_R_PERM_SLICE t r) == src.slice.1)

/-- Region `r` grants the kind of access in the access's world. -/
def Dev.rcGrants (d : Dev) (t r : Nat) (src : Src) (kind : AccessKind) : Bool :=
  match src.secure, kind with
  | true, .read => d.bit (Reg.RC_R_PERM_SR t r)
  | true, .write => d.bit (Reg.RC_R_PERM_SW t r)
  | true, .exec => d.bit (Reg.RC_R_PERM_SX t r)
  | false, .read => d.bit (Reg.RC_R_PERM_NR t r)
  | false, .write => d.bit (Reg.RC_R_PERM_NW t r)
  | false, .exec => d.bit (Reg.RC_R_PERM_NX t r)

/-- The lowest-numbered matching region decides; none matching denies (R308). With EN = 0 only secure-world
accesses of masters 0–5 are permitted (R309). -/
def Dev.permits (d : Dev) (t : Nat) (src : Src) (kind : AccessKind) (addr : Nat) : Bool :=
  if d.bit (Reg.RC_CTL_EN t) then
    match (List.range 16).find? (fun r => d.rcMatch t r src addr) with
    | some r => d.rcGrants t r src kind
    | none => false
  else src.secure && src.master.1 ≤ 5

/-- A denied access: the R28 response, counted and recorded at the checker, logged with master and world, and
source 67 raised (R29, R308). [DEDUCED, log 15] -/
def Dev.deny (d : Dev) (t : Nat) (src : Src) (kind : AccessKind) (addr : Nat) : Dev :=
  let d := d.setResp ⟨0, true⟩
  let d := d.bump (Reg.RC_DENY_COUNT t)
  let d := d.setF (Reg.RC_LAST_ADDR_PAGE t) (page addr)
  let d := d.setF (Reg.RC_LAST_SRC_MASTER t) src.master.1
  let d := d.setB (Reg.RC_LAST_SRC_SECURE t) src.secure
  let d := d.setB (Reg.RC_LAST_SRC_WRITE t) (kind == .write)
  let d := d.setB (Reg.RC_LAST_SRC_EXEC t) (kind == .exec)
  let d := d.setF (Reg.RC_LAST_SRC_SLICE t) src.slice.1
  (d.log 0x02 67 (accInfo src (kind == .write) t) (page addr)).pend 67

/-- The access comes from the secure world of a core. -/
def secureCore (src : Src) : Bool := src.secure && src.master.1 ≤ 5

/-- The access comes through a host port's BAR0. [DEDUCED, log 16] -/
def bar0 (src : Src) : Bool := src.master.1 == 6 || src.master.1 == 7

/-- The access acts with S0's authority (R213). [DEDUCED, log 16] -/
def isS0 (src : Src) : Bool := bar0 src || src.slice.1 == 0

/-- The address lies in a fenced vat's VAT range, other than a read of VAT_STAT or VAT_LDG_CLOSED (R28). -/
def Dev.fencedRange (d : Dev) (addr : Nat) (write : Bool) : Bool :=
  0x20010000 ≤ addr && addr < 0x20020000 &&
  d.bit (Reg.VAT_STAT_FENCED ((addr - 0x20010000) / 0x1000)) &&
  (write || !(addr % 0x1000 == 0 || addr % 0x1000 == 0x754))

/-- The access comes through a host port that is not ON (R317). [DEDUCED, log 77] -/
def Dev.portOff (d : Dev) (src : Src) : Bool := bar0 src && d.f (Reg.PWR_QTAG_STATE (30 + src.master.1)) != 0

/-- The register belongs to a CAN controller or to the DRAM controller, and that block is not ON (R317). [DEDUCED, log 77] -/
def Dev.offRange (d : Dev) (addr : Nat) : Bool :=
  (0x20070000 ≤ addr && addr < 0x20078000 && d.f (Reg.PWR_QTAG_STATE (24 + (addr - 0x20070000) / 0x1000)) != 0) ||
  (0x200D0000 ≤ addr && addr < 0x200E0000 && d.f (Reg.PWR_QTAG_STATE 38) != 0)

/-- The memory at an address serves accesses (R28, R317, R354, R357): an SRAM bank that is ON, the trained DRAM inside
its usable window, the xSPI window while its controller is ON. [DEDUCED, log 23] -/
def Dev.serves (d : Dev) (addr : Nat) : Bool :=
  if inSram addr then d.f (Reg.PWR_QTAG_STATE (8 + (addr - 0x10000000) / 0x200000)) == 0
  else if inDram addr then
    d.bit Reg.DRAM_STAT_READY && d.f (Reg.PWR_QTAG_STATE 38) == 0 &&
    addr < 0x100000000 + 0x100000 * d.f Reg.DRAM_STAT_WINDOW
  else if 0x30000000 ≤ addr && addr < 0x40000000 then d.f (Reg.PWR_QTAG_STATE 39) == 0
  else true

/-- A host's access during a warm reset: Completer Abort, or discarded, and counted (R409). [DESIGN CHOICE, log 24] -/
def Dev.dropHost (d : Dev) : Dev := (d.bump Reg.RST_DROP_COUNT).setResp ⟨0, true⟩

/-- The core is fenced, or its pair has failed or its primary stalls: no transaction of it leaves (R314, R320, R329). -/
def Dev.stopped (d : Dev) (src : Src) : Bool :=
  (src.master.1 < 4 && d.tb Reg.SYS_FENCE_AC src.master.1) ||
  ((src.master.1 == 4 || src.master.1 == 5) && d.tb Reg.SYS_FENCE_SP (src.master.1 - 4)) ||
  (src.master == 4 && (d.pairs[(0 : Fin 2)]).stallAt.isSome) || (src.master == 5 && (d.pairs[(1 : Fin 2)]).stallAt.isSome)

/-- What becomes of an access of a stopped core, or while a warm reset runs (R408, R409): hosts' accesses are dropped,
the cores make none. [DESIGN CHOICE, log 24] -/
def Dev.inReset (d : Dev) (src : Src) : Option Dev :=
  if d.stopped src then some d
  else if d.sup.warm.isSome then
    if bar0 src then some d.dropHost else if src.master.1 ≤ 5 && !(src.master == 4 && d.sup.rom) then some d else none
  else none

/-- The source is one R307 lists, with the world and the slice it gives that master: a core's are CORE_CTX's, the hosts' normal and
slice 0; the engines act in the normal world. Masters 12, 13 and 15 make no access. -/
def Dev.srcOk (d : Dev) (src : Src) : Bool :=
  let m := src.master.1
  if m ≤ 5 then src.secure == d.bit (Reg.CORE_CTX_WORLD m) && src.slice.1 == d.f (Reg.CORE_CTX_SLICE m)
  else if m = 6 ∨ m = 7 then !src.secure && src.slice == 0
  else if m = 14 then src.slice == 0
  else decide (8 ≤ m ∧ m ≤ 11) && !src.secure && (decide (m ≤ 9) || src.slice == 0)

/-- The vat of an address in the VAT blocks. -/
def vatOf (addr : Nat) : Nat := (addr - 0x20010000) / 0x1000 % 16

/-- The channels of vat v that slice s holds, as a mask. -/
def Dev.holdMask (d : Dev) (v s : Nat) : Nat :=
  (List.finRange 16).foldl (fun m k =>
    match ((d.vats[(⟨v % 16, Nat.mod_lt _ (by decide)⟩ : Fin 16)]).chans[k]).owner with
    | some o => if o.1 = s then m + 2 ^ k.1 else m
    | none => m) 0

/-- Vat `v` is wholly held by slice `s` (R222, R434). -/
def Dev.whole (d : Dev) (v s : Nat) : Bool := d.holdMask v s == 0xFFFF

/-- Some slice other than S0 holds a channel of vat `v` (R214). -/
def Dev.otherHolds (d : Dev) (v : Nat) : Bool :=
  ((d.vats[(⟨v % 16, Nat.mod_lt _ (by decide)⟩ : Fin 16)]).chans.toList).any (fun c =>
    match c.owner with | some o => o.1 != 0 | none => false)

/-- The registers R214 blocks to S0: the raw outputs and the ledger snapshot of a vat another slice holds. Gnotar, master 14, may
read any data (R226). -/
def Dev.blocked (d : Dev) (src : Src) (addr : Nat) : Bool :=
  d.bit Reg.SLICE_MODE_STRICT && isS0 src && src.master != 14 && 0x20010000 ≤ addr && addr < 0x20020000 &&
  ((0x4A0 ≤ addr % 0x1000 && addr % 0x1000 < 0x520) || (0x704 ≤ addr % 0x1000 && addr % 0x1000 < 0x750)) &&
  d.otherHolds (vatOf addr)

/-- Gnotar's accesses in the secure world bypass the region checkers (R428). -/
def bypasses (src : Src) : Bool := src.secure && src.master == 14

/-- Per-slice counters are readable in the secure world only: a core's, or Gnotar's (R226, R315, R428). -/
def perfBlocked (src : Src) (addr : Nat) : Bool :=
  0x2009D000 ≤ addr && addr < 0x2009D800 && !secureCore src && !bypasses src

/-- The register row at an address, if the register index lists one (R453). -/
def Reg.row (addr : Nat) : Option RegRow := Reg.allRows.find? (fun r => r.covers addr)

/-- The access comes from the secure world of a Sienna pair. [DEDUCED, log 17] -/
def pairSecure (src : Src) : Bool := src.secure && (src.master.1 == 4 || src.master.1 == 5)

/-- A writer the register does not take is refused under R29: Gnotar always is, where only a secure world writes (R428).
[DEDUCED, log 16, 17] -/
def Auth.denies (a : Auth) (src : Src) : Bool :=
  match a with
  | .secure29 | .pair29 => true
  | .secure => src.master == 14
  | _ => false

/-- The row's authority admits the writer. [DEDUCED, log 16, 17] -/
def Auth.admits (a : Auth) (src : Src) : Bool :=
  match a with
  | .any => true
  | .s0 => isS0 src
  | .secure | .secure29 => secureCore src
  | .pair29 => pairSecure src

/-- What stops a setup-space access before any register acts, if anything does: a source that makes none, a warm reset, checker 14, a gap,
a fenced or switched-off block, a blocked read, or a writer the register does not take. [DEDUCED, log 17, 18] -/
def Dev.guard (d : Dev) (src : Src) (addr : Nat) (write : Bool) : Option Dev :=
  if !d.srcOk src then some d
  else match d.inReset src with
  | some d' => some d'
  | none =>
  if d.portOff src then some (d.badAccess src write addr)
  else if !bypasses src && !d.permits 14 src (if write then .write else .read) addr then
    some (d.deny 14 src (if write then .write else .read) addr)
  else if d.fencedRange addr write || d.offRange addr then some (d.badAccess src write addr)
  else if !write && (d.blocked src addr || perfBlocked src addr) then some (d.badAccess src write addr)
  else match Reg.row addr with
    | none => some (d.badAccess src write addr)
    | some row =>
      if write && !row.auth.admits src then
        if row.auth.denies src then some (d.deny 14 src .write addr)
        else some ((d.answer 0).logRefused src addr)
      else none

/-- A write that a row of its own performs: guarded, answered without data, then acting. -/
def Dev.onWrite (d : Dev) (src : Src) (addr : Nat) (act : Dev → Dev) : Dev :=
  match d.guard src addr true with
  | some d' => d'
  | none => act (d.answer 0)

/-- What a field's own rules say of a write beyond its range: it acts, it is left alone, it breaks a rule (R9),
or it is refused and logged. -/
inductive Verdict where
  | act | leave | bad | refuse
  deriving DecidableEq, Repr

/-- The written value lies in the field's range, and its low bits are zero where they must be. -/
def FieldRow.admits (f : FieldRow) (x : Nat) : Bool :=
  (f.ok.isEmpty || f.ok.any (fun r => r.1 ≤ x && x ≤ r.2)) && x % 2 ^ f.zlow == 0

/-- One field of a register write (R6, R7, R9): the device, and whether a rule was broken or the write refused.
[DEDUCED, log 12, 122] -/
def Dev.writeField (d : Dev) (base a : Nat) (w : Nat) (verdict : Verdict) (f : FieldRow) : Dev × Verdict :=
  let x := bits w f.lo f.w
  let sel := f.sel base a
  match f.ty with
  | .ro | .wo => (d, .act)
  | .w1c => (d.setF sel (d.f sel - (d.f sel &&& x) ||| d.f sel &&& d.freshMask sel), .act)
  | .w1s => if verdict = .act then (d.setF sel (d.f sel ||| x), .act) else (d, if x = 0 then .act else verdict)
  | .rw =>
    if verdict = .act then (if f.admits x then (d.setF sel x, .act) else (d, .bad))
    else (d, verdict)

/-- The stronger of two verdicts: refused, then a rule broken. -/
def Verdict.join : Verdict → Verdict → Verdict
  | .refuse, _ => .refuse
  | _, .refuse => .refuse
  | .bad, _ => .bad
  | _, .bad => .bad
  | _, v => v

/-- The fields of a register written, each under its verdict: the device, and the strongest of their verdicts. -/
def Dev.tryRow (d : Dev) (addr w : Nat) (pick : FieldRow → Verdict) : Dev × Verdict :=
  match Reg.row addr with
  | none => (d, .act)
  | some row => row.fields.foldl (fun (r : Dev × Verdict) f =>
      let x := r.1.writeField row.base addr w (pick f) f
      (x.1, r.2.join x.2)) (d, .act)

/-- A write of a register's fields, each under its verdict; a broken rule and a refusal are each logged once. -/
def Dev.writeRowWith (d : Dev) (src : Src) (addr w : Nat) (pick : FieldRow → Verdict) : Dev :=
  let r := d.tryRow addr w pick
  match r.2 with
  | .refuse => r.1.logRefused src addr
  | .bad => r.1.logR9 src addr
  | _ => r.1

/-- A register's RW fields other than those a command of its own performs, written by type (R6, R9). -/
def Dev.writeRest (d : Dev) (src : Src) (addr w : Nat) (own : List Nat) : Dev :=
  d.writeRowWith src addr w (fun f => if own.contains f.lo then .leave else .act)

/-- The value a register row reads as: its fields in place, WO fields and reserved bits zero (R6). -/
def Dev.rowWord (d : Dev) (row : RegRow) (a : Nat) : Nat :=
  row.fields.foldl (fun w f => if f.ty = .wo then w else w + 2 ^ f.lo * d.f (f.sel row.base a)) 0

/-- The register is the low word of a 64-bit pair (R10). [DEDUCED, log 19] -/
def isLow (a : Nat) : Bool :=
  match Reg.row a with
  | some r => r.low
  | none => false

/-- The register is the high word of a 64-bit pair (R10). [DEDUCED, log 19] -/
def isHigh (a : Nat) : Bool := 4 ≤ a && isLow (a - 4)

/-- Find an entry filed for a master and a register. [DEDUCED, log 20] -/
def pairFind (xs : List (Nat × Nat × Nat)) (m a : Nat) : Option Nat :=
  match xs with
  | [] => none
  | (m', a', x) :: rest => if m' = m ∧ a' = a then some x else pairFind rest m a

/-- Remove what is filed for a master and a register. [DEDUCED, log 20] -/
def pairDrop (xs : List (Nat × Nat × Nat)) (m a : Nat) : List (Nat × Nat × Nat) :=
  xs.filter (fun e => !(e.1 == m && e.2.1 == a))

/-- The low word a master has written and not yet completed (R10). [DEDUCED, log 19] -/
def Dev.heldFor (d : Dev) (src : Src) (a : Nat) : Option Nat := pairFind d.heldLow src.master.1 a

/-- Hold a low word for a master (R10). [DEDUCED, log 19] -/
def Dev.hold (d : Dev) (src : Src) (a x : Nat) : Dev :=
  d.setHeldLow ((src.master.1, a, x) :: pairDrop d.heldLow src.master.1 a)

/-- A held low word is used up. [DEDUCED, log 19] -/
def Dev.unhold (d : Dev) (src : Src) (a : Nat) : Dev := d.setHeldLow (pairDrop d.heldLow src.master.1 a)

end Sys2Proof.Machine
end

