-- ==== Sys2Proof/Machine/AuxOps.lean ====
section
/-!
DEFINITION. The state machine of the auxiliary switches (R361–R365, R371–R373). Instants count power-die time.
-/

namespace Sys2Proof.Machine
open Sys2Proof

/-- Ticks in a millisecond. -/
def msTicks : Nat := 400000

/-- Change one switch. -/
def Dev.modAux (d : Dev) (n : Fin 24) (f : Aux → Aux) : Dev := d.setAux (put d.aux n (f d.aux[n]))

/-- State of a switch (R361): 0 OFF, 1 INRUSH, 2 ON, 3 CLAMP, 4 RETRY, 5 LATCHED. -/
def Dev.auxSt (d : Dev) (n : Fin 24) : Nat := d.f (Reg.AUX_NSTAT_STATE n.1)

/-- The switch conducts. -/
def Dev.auxOn (d : Dev) (n : Fin 24) : Bool := d.auxSt n == 1 || d.auxSt n == 2

/-- The switch's group is warned (R367). -/
def Dev.auxWarned (d : Dev) (n : Fin 24) : Bool := d.tb Reg.AUX_STAT_GWARN (n.1 / 4)

/-- The switch is held off by Madder's safe stop (R373). -/
def Dev.auxBarred (d : Dev) (n : Fin 24) : Bool := d.bit (Reg.AUX_NCFG_SAFE n.1) && d.safeStop

/-- A turn-on: an inrush window where IRUSH ≠ 0, at the normal limit if the group is warned; ON otherwise. Nothing turns on
without VAUX (R361, R367, R371). [DEDUCED, log 85] -/
def Dev.auxStart (d : Dev) (n : Fin 24) : Dev :=
  if !d.sup.vaux then d.setF (Reg.AUX_NSTAT_STATE n.1) 0
  else if d.f (Reg.AUX_NCFG_IRUSH n.1) = 0 then
    (d.setF (Reg.AUX_NSTAT_STATE n.1) 2).modAux n (fun a => { a with onAt := some d.up, limAt := none, lowAt := none, highAt := none })
  else
    let d := (d.setF (Reg.AUX_NSTAT_STATE n.1) 1).setB (Reg.AUX_NSTAT_WARNED n.1) (d.auxWarned n)
    d.modAux n (fun a =>
      { a with winAt := d.up, winEnd := d.up + msTicks * d.f (Reg.AUX_NCFG_IRUSH_T n.1), onAt := none, limAt := none
               lowAt := none, highAt := none })

/-- A turn-off leading to a state: through CLAMP while current flows (R361). [DEDUCED, log 85] -/
def Dev.auxStop (d : Dev) (n : Fin 24) (dst : Nat) : Dev :=
  let d := (d.setF (Reg.AUX_NSTAT_LIMIT n.1) 0).setF (Reg.AUX_NSTAT_WARNED n.1) 0
  let d := d.modAux n (fun a => { a with clampTo := dst, onAt := none, lowAt := none, highAt := none })
  d.setF (Reg.AUX_NSTAT_STATE n.1) (if d.f (Reg.AUX_SENSE_CODE n.1) = 0 then dst else 3)

/-- One log entry of a fault (R364, R436). [DEDUCED, log 15] -/
def Dev.auxLog (d : Dev) (n : Fin 24) (code : Nat) : Dev := d.linkLog 0x06 60 (evInfo n.1) code

/-- What a fault leaves on record (R364). -/
def Dev.auxRecord (d : Dev) (n : Fin 24) (code : Nat) : Dev :=
  let d := (d.setF (Reg.AUX_NSTAT_LAST n.1) code).setF64 (Reg.AUX_FTS_LO_TS n.1) (Reg.AUX_FTS_HI_TS n.1) d.now
  let d := (d.bump (Reg.AUX_FCNT_COUNT n.1)).linkRaise Reg.AUX_FLT_EVT_SW (2 ^ n.1) 60
  (d.auxLog n code).modAux n (fun a => { a with offAt := d.up, offOt := code == 3 })

/-- A fault turns the switch off: recorded, counted, logged; RETRY while retries are left, LATCHED otherwise, which ends the
request (R364, R365). A second fault of the same instant is logged too, and LAST shows OT (R364); a fault in the instant of an OFF
request is recorded, and the switch ends in OFF. [DEDUCED, log 85] -/
def Dev.auxFault (d : Dev) (n : Fin 24) (code : Nat) : Dev :=
  let again := !d.auxOn n && (3 ≤ d.auxSt n || (d.aux[n]).reqOffAt == some d.up) && (d.aux[n]).offAt == d.up &&
    d.f (Reg.AUX_NSTAT_LAST n.1) != code
  if d.auxOn n then
    let d := d.auxRecord n code
    if d.f (Reg.AUX_NSTAT_RETRIES n.1) < d.f (Reg.AUX_NCFG_RETRY n.1) then d.auxStop n 4
    else (d.setF (Reg.AUX_CTL_ON n.1) 0).auxStop n 5
  else if again then
    let d := (d.bump (Reg.AUX_FCNT_COUNT n.1)).auxLog n code
    if code = 3 then (d.setF (Reg.AUX_NSTAT_LAST n.1) 3).modAux n (fun a => { a with offOt := true }) else d
  else if (d.aux[n]).reqOffAt = some d.up then d.auxRecord n code
  else d

/-- A request for ON (R362): a switch that is OFF turns on, one in CLAMP holds the request; a switch in RETRY keeps its
retry. -/
def Dev.auxWantOn (d : Dev) (n : Fin 24) : Dev :=
  if d.bit (Reg.AUX_CTL_ON n.1) then d
  else
    let d := d.setF (Reg.AUX_CTL_ON n.1) 1
    match d.auxSt n with
    | 0 => d.auxStart n
    | 3 => d.setF (Reg.AUX_NSTAT_HELD n.1) 1
    | _ => d

/-- A request for OFF (R361, R362, R365): RETRIES returns to zero, a held request is withdrawn, and the switch ends in OFF,
through CLAMP if current flows; a latch stays unless its fault is of this very instant. -/
def Dev.auxWantOff (d : Dev) (n : Fin 24) : Dev :=
  let d := ((d.setF (Reg.AUX_CTL_ON n.1) 0).setF (Reg.AUX_NSTAT_HELD n.1) 0).setF (Reg.AUX_NSTAT_RETRIES n.1) 0
  let fresh := decide ((d.aux[n]).offAt = d.up)
  match d.auxSt n with
  | 1 | 2 => (d.auxStop n 0).modAux n (fun a => { a with reqOffAt := some d.up })
  | 3 => d.modAux n (fun a => { a with clampTo := if a.clampTo = 5 && !fresh then 5 else 0 })
  | 4 => d.setF (Reg.AUX_NSTAT_STATE n.1) 0
  | 5 => if fresh then d.setF (Reg.AUX_NSTAT_STATE n.1) 0 else d
  | _ => d

/-- The safe stop takes ON from every switch with SAFE = 1 and turns it off through CLAMP (R373). -/
def Dev.auxSafeOff (d : Dev) : Dev :=
  (List.finRange 24).foldl (fun d n =>
    if d.bit (Reg.AUX_NCFG_SAFE n.1) then
      let d := (d.setF (Reg.AUX_CTL_ON n.1) 0).setF (Reg.AUX_NSTAT_HELD n.1) 0
      match d.auxSt n with
      | 1 | 2 => d.auxStop n 0
      | 3 => d.modAux n (fun a => { a with clampTo := if a.clampTo = 5 then 5 else 0 })
      | 4 => d.setF (Reg.AUX_NSTAT_STATE n.1) 0
      | _ => d
    else d) d

/-- The reset hold of a switch ends: it takes ON = DEF, or 0 while the safe stop bars it (R372, R373). -/
def Dev.auxHoldOver (d : Dev) (n : Fin 24) : Dev :=
  let d := (d.setF (Reg.AUX_NSTAT_HOLDING n.1) 0).modAux n (fun a => { a with holdTill := none })
  if d.bit (Reg.AUX_CTL_DEF n.1) && !d.auxBarred n then (if d.auxSt n = 5 then d else d.auxWantOn n)
  else if d.bit (Reg.AUX_CTL_ON n.1) then d.auxWantOff n else d

/-- A reset of the logic die starts the hold of every switch (R372). -/
def Dev.auxHold (d : Dev) : Dev :=
  (List.finRange 24).foldl (fun d n =>
    let d := d.setF (Reg.AUX_NSTAT_HOLDING n.1) 1
    d.modAux n (fun a => { a with holdTill := some (d.up + msTicks * d.f Reg.AUX_CFG_HOLD) })) d

/-- A write of AUX_n_CTL: DEF, and a request. It ends the reset hold. ON = 1 is refused and logged for a latched switch and
for one the safe stop bars (R362, R372, R373). -/
def Dev.auxCtl (d : Dev) (src : Src) (n : Fin 24) (w : Nat) : Dev :=
  let d := (d.setF (Reg.AUX_NSTAT_HOLDING n.1) 0).modAux n (fun a => { a with holdTill := none })
  let d := d.setB (Reg.AUX_CTL_DEF n.1) (w.testBit 1)
  if w.testBit 0 then
    if d.auxBarred n ∨ d.auxSt n = 5 then d.logRefused src (Reg.AUX_CTL_at n.1) else d.auxWantOn n
  else d.auxWantOff n

end Sys2Proof.Machine
end

