-- ==== Sys2Proof/Machine/AuxCmds.lean ====
section
/-!
DEFINITION. The commands of the auxiliary switches (R361–R373).
-/

namespace Sys2Proof.Machine
open Sys2Proof

/-- AUX_ON_REQUEST: a write of AUX_n_CTL. -/
def execAuxOnRequest (src : Src) (n : Fin 24) (data : Word) (s : State) : Host.Outcome State Fault Refusal :=
  s.done (s.dev.onWrite src (Reg.AUX_CTL_at n.1) (fun d => d.auxCtl src n data.toNat))

/-- AUX_OFF_REQUEST: a write of AUX_n_CTL. -/
def execAuxOffRequest (src : Src) (n : Fin 24) (data : Word) (s : State) : Host.Outcome State Fault Refusal :=
  s.done (s.dev.onWrite src (Reg.AUX_CTL_at n.1) (fun d => d.auxCtl src n data.toNat))

/-- INRUSH_END: the window fixed at turn-on ends (R361). -/
def Dev.inrushEnd (d : Dev) (n : Fin 24) : Dev :=
  if d.auxSt n = 1 ∧ (d.aux[n]).winEnd ≤ d.up then
    let d := (d.setF (Reg.AUX_NSTAT_STATE n.1) 2).setF (Reg.AUX_NSTAT_WARNED n.1) 0
    d.modAux n (fun a => { a with onAt := some d.up, lowAt := none, highAt := none })
  else d

/-- INRUSH_END. -/
def execInrushEnd (n : Fin 24) (s : State) : Host.Outcome State Fault Refusal := s.donePower (s.dev.inrushEnd n)

/-- CLAMP_END: the sensed current is below 10 mA; the switch goes where its turn-off decided, or on a held request turns on
(R361, R362). -/
def Dev.clampEnd (d : Dev) (n : Fin 24) : Dev :=
  if d.auxSt n = 3 ∧ d.f (Reg.AUX_SENSE_CODE n.1) < 5 then
    let dst := (d.aux[n]).clampTo
    let held := d.bit (Reg.AUX_NSTAT_HELD n.1)
    let d := (d.setF (Reg.AUX_NSTAT_HELD n.1) 0).setF (Reg.AUX_NSTAT_STATE n.1) dst
    if dst = 5 then d.setF (Reg.AUX_CTL_ON n.1) 0
    else if held ∧ dst = 0 then d.auxStart n else d
  else d

/-- CLAMP_END. -/
def execClampEnd (n : Fin 24) (s : State) : Host.Outcome State Fault Refusal := s.donePower (s.dev.clampEnd n)

/-- SHORT: disregarded for the first SC_BLANK of an inrush window (R363), also in the instant of an OFF request within it. -/
def Dev.auxShort (d : Dev) (n : Fin 24) : Dev :=
  if d.auxSt n ≠ 2 ∧ d.up < (d.aux[n]).winAt + 4000 * d.f (Reg.AUX_DIAG_SC_BLANK n.1) then d else d.auxFault n 1

/-- SHORT. -/
def execShort (n : Fin 24) (s : State) : Host.Outcome State Fault Refusal := s.donePower (s.dev.auxShort n)

/-- OVERLOAD: in current limit for LIM_T without interruption (R363). -/
def Dev.auxOverload (d : Dev) (n : Fin 24) : Dev :=
  match (d.aux[n]).limAt with
  | some t => if t + msTicks * d.f (Reg.AUX_DIAG_LIM_T n.1) ≤ d.up then d.auxFault n 2 else d
  | none => d

/-- OVERLOAD. -/
def execOverload (n : Fin 24) (s : State) : Host.Outcome State Fault Refusal := s.donePower (s.dev.auxOverload n)

/-- OT: the switch's own junction reaches its limit (R363). -/
def execOt (n : Fin 24) (s : State) : Host.Outcome State Fault Refusal := s.donePower (s.dev.auxFault n 3)

/-- RETRY: 10 ms after the turn-off, and for OT with the junction cooled to 145 °C, the switch turns on again (R365).
[DEDUCED, log 85] -/
def Dev.auxRetry (d : Dev) (n : Fin 24) : Dev :=
  let a := d.aux[n]
  if d.auxSt n = 4 ∧ a.offAt + 10 * msTicks ≤ d.up ∧ d.sup.vaux ∧
      (!a.offOt ∨ signed 32 (d.f (Reg.AUX_TJ_T n.1)) ≤ 145000) then
    (d.bump (Reg.AUX_NSTAT_RETRIES n.1)).auxStart n
  else d

/-- RETRY. -/
def execRetry (n : Fin 24) (s : State) : Host.Outcome State Fault Refusal := s.donePower (s.dev.auxRetry n)

/-- RETRIES_RESET: 1 s in ON without a fault (R365). -/
def Dev.retriesReset (d : Dev) (n : Fin 24) : Dev :=
  match (d.aux[n]).onAt with
  | some t => if d.auxSt n = 2 ∧ t + 1000 * msTicks ≤ d.up then d.setF (Reg.AUX_NSTAT_RETRIES n.1) 0 else d
  | none => d

/-- RETRIES_RESET. -/
def execRetriesReset (n : Fin 24) (s : State) : Host.Outcome State Fault Refusal := s.donePower (s.dev.retriesReset n)

/-- AUX_CLR: a latched switch goes to OFF; RETRIES returns to zero (R365). [DEDUCED, log 85] -/
def Dev.auxClr (d : Dev) (w : Nat) : Dev :=
  (List.finRange 24).foldl (fun d n =>
    if w.testBit n.1 then
      let d := d.setF (Reg.AUX_NSTAT_RETRIES n.1) 0
      if d.auxSt n = 5 then d.setF (Reg.AUX_NSTAT_STATE n.1) 0 else d
    else d) d

/-- AUX_CLR. -/
def execAuxClr (src : Src) (data : Word) (s : State) : Host.Outcome State Fault Refusal :=
  s.done (s.dev.onWrite src Reg.AUX_CLR_at (fun d => d.auxClr data.toNat))

/-- OPEN_LOAD: below OL_TH in ON for 10 ms (R366). -/
def Dev.openLoad (d : Dev) (n : Fin 24) : Dev :=
  match (d.aux[n]).lowAt with
  | some t =>
    if d.auxSt n = 2 ∧ d.f (Reg.AUX_DIAG_OL_TH n.1) ≠ 0 ∧ t + 10 * msTicks ≤ d.up ∧ !d.bit (Reg.AUX_NSTAT_OPEN n.1) then
      (d.setF (Reg.AUX_NSTAT_OPEN n.1) 1).linkRaise Reg.AUX_OL_EVT_SW (2 ^ n.1) 61
    else d
  | none => d

/-- OPEN_LOAD. -/
def execOpenLoad (n : Fin 24) (s : State) : Host.Outcome State Fault Refusal := s.donePower (s.dev.openLoad n)

/-- OPEN_LOAD_CLEAR: at or above OL_TH for 10 ms (R366). -/
def Dev.openLoadClear (d : Dev) (n : Fin 24) : Dev :=
  match (d.aux[n]).highAt with
  | some t => if t + 10 * msTicks ≤ d.up then d.setF (Reg.AUX_NSTAT_OPEN n.1) 0 else d
  | none => d

/-- OPEN_LOAD_CLEAR. -/
def execOpenLoadClear (n : Fin 24) (s : State) : Host.Outcome State Fault Refusal := s.donePower (s.dev.openLoadClear n)

/-- GROUP_WARNING: the group's sensor reads; a group entering its warning sets its bits, logs it, and drops its switches in
INRUSH to the normal limit (R367). The event log's code and data for this entry are not stated, so free values.
[DEDUCED, log 15; DESIGN CHOICE, log 86] -/
def Dev.groupWarning (d : Dev) (g : Fin 6) (temp : Int) : Dev :=
  let d := d.setF (Reg.AUX_GTEMP_T g.1) (pattern 32 temp)
  if 1000 * (d.f Reg.AUX_CFG_GRP_WARN : Int) ≤ temp ∧ !d.tb Reg.AUX_STAT_GWARN g.1 then
    let d := (d.setTb Reg.AUX_STAT_GWARN g.1 true).linkRaise Reg.AUX_EVT_GWARN (2 ^ g.1) 59
    let x := d.free 50
    let d := x.2.linkLog (bits x.1 0 8) 59 (evInfo (bits x.1 8 10)) (bits x.1 18 32)
    (List.finRange 24).foldl (fun d n =>
      if n.1 / 4 = g.1 ∧ d.auxSt n = 1 then d.setF (Reg.AUX_NSTAT_WARNED n.1) 1 else d) d
  else d

/-- GROUP_WARNING. -/
def execGroupWarning (g : Fin 6) (temp : Int) (s : State) : Host.Outcome State Fault Refusal :=
  s.donePower (s.dev.groupWarning g temp)

/-- GROUP_WARNING_CLEAR: 10 °C below the threshold (R367). -/
def Dev.groupClear (d : Dev) (g : Fin 6) (temp : Int) : Dev :=
  let d := d.setF (Reg.AUX_GTEMP_T g.1) (pattern 32 temp)
  if temp ≤ 1000 * (d.f Reg.AUX_CFG_GRP_WARN : Int) - 10000 then d.setTb Reg.AUX_STAT_GWARN g.1 false else d

/-- GROUP_WARNING_CLEAR. -/
def execGroupWarningClear (g : Fin 6) (temp : Int) (s : State) : Host.Outcome State Fault Refusal :=
  s.donePower (s.dev.groupClear g temp)

/-- Since when a condition has held without interruption. -/
def since (old : Option Nat) (holds : Bool) (now : Nat) : Option Nat :=
  if holds then some (old.getD now) else none

/-- One switch's sensors are read (R360, R363, R366). -/
def Dev.auxSample (d : Dev) (n : Fin 24) (x : AuxSample) : Dev :=
  let d := (d.setF (Reg.AUX_SENSE_CODE n.1) (min 4095 (x.ma / 2))).setF (Reg.AUX_TJ_T n.1) (pattern 32 x.tj)
  let lim := x.limit && d.auxOn n
  let th := 5 * d.f (Reg.AUX_DIAG_OL_TH n.1)
  let on := d.auxSt n == 2
  (d.setB (Reg.AUX_NSTAT_LIMIT n.1) lim).modAux n (fun a =>
    { a with limAt := since a.limAt lim d.up
             lowAt := since a.lowAt (on && decide (x.ma < th)) d.up
             highAt := since a.highAt (on && decide (th ≤ x.ma)) d.up })

/-- One switch's dissipation in µW (R368): I²·R_on in INRUSH and ON, clamp voltage times current in CLAMP.
[DESIGN CHOICE, log 9] -/
def Dev.auxPower (d : Dev) (n : Fin 24) (x : AuxSample) : Nat :=
  if d.auxOn n then x.ma * x.ma * Config.auxOhms x.tj / 1000
  else if d.auxSt n = 3 then Config.auxClampMv * x.ma
  else 0

/-- DISSIPATION_ESTIMATE: every 10 µs the sensors are read and the estimates summed; AUX_PWR is the average of 100 ms
(R368). -/
def Dev.estimate (d : Dev) (xs : List AuxSample) : Dev :=
  let d := (List.finRange 24).foldl (fun d n => match xs[n.1]? with | some x => d.auxSample n x | none => d) d
  let sum := ((List.finRange 24).map (fun n => match xs[n.1]? with | some x => d.auxPower n x | none => 0)).sum
  let d := d.setAuxSum ((sum :: d.auxSum).take 10000)
  let total : Nat := d.auxSum.sum
  let d := d.setF Reg.AUX_PWR_P (min 65535 (total / 10000000))
  if 40000000000 < total then (d.setF Reg.AUX_STAT_PBUD 1).linkRaise Reg.AUX_EVT_PBUD (if d.bit Reg.AUX_STAT_PBUD then 0 else 1) 59
  else d.setF Reg.AUX_STAT_PBUD 0

/-- DISSIPATION_ESTIMATE. -/
def execDissipationEstimate (samples : List AuxSample) (s : State) : Host.Outcome State Fault Refusal :=
  s.donePower (s.dev.estimate samples)

/-- VAUX_UNDERVOLTAGE: every switch that is on turns off through CLAMP to OFF; ON is kept (R371). [DEDUCED, log 85] -/
def Dev.vauxLow (d : Dev) : Dev :=
  let d := d.setSup { d.sup with vaux := false }
  let d := ((d.setF Reg.AUX_STAT_UV 1).linkRaise Reg.AUX_EVT_UV 1 59).linkRaise Reg.PWR_EVT_VAUX_UV 1 66
  (List.finRange 24).foldl (fun d n => if d.auxOn n then d.auxStop n 0 else d) d

/-- VAUX_UNDERVOLTAGE. -/
def execVauxUndervoltage (s : State) : Host.Outcome State Fault Refusal := s.donePower s.dev.vauxLow

/-- VAUX_RECOVERY: VAUX has been above its on threshold for 1 ms; every switch with ON = 1 turns on with a fresh window, one
still in CLAMP when the clamp ends (R371). -/
def Dev.vauxBack (d : Dev) : Dev :=
  let d := (d.setSup { d.sup with vaux := true }).setF Reg.AUX_STAT_UV 0
  (List.finRange 24).foldl (fun d n =>
    if d.bit (Reg.AUX_CTL_ON n.1) then
      match d.auxSt n with
      | 0 => d.auxStart n
      | 3 => if (d.aux[n]).clampTo = 0 then d.setF (Reg.AUX_NSTAT_HELD n.1) 1 else d
      | _ => d
    else d) d

/-- VAUX_RECOVERY. -/
def execVauxRecovery (s : State) : Host.Outcome State Fault Refusal := s.donePower s.dev.vauxBack

/-- AUX_HOLD_END: the reset hold runs out (R372). -/
def Dev.auxHoldEnd (d : Dev) (n : Fin 24) : Dev :=
  match (d.aux[n]).holdTill with
  | some t => if t ≤ d.up then d.auxHoldOver n else d
  | none => d

/-- AUX_HOLD_END. -/
def execAuxHoldEnd (n : Fin 24) (s : State) : Host.Outcome State Fault Refusal := s.donePower (s.dev.auxHoldEnd n)

end Sys2Proof.Machine
end

