-- ==== Sys2Proof/Machine/ImpMath.lean ====
section
/-!
DEFINITION. The arithmetic of the impedance engine (R198, R202, R203): the sine, the least-squares fit by its normal equations,
and the results derived from the fits, in exact rationals over sines of 100 fractional bits.
-/

namespace Sys2Proof.Machine
open Sys2Proof

/-! ### Sines -/

/-- π/2 with 110 fractional bits. -/
def halfPi : Nat := 2039010208253797050208435770343534

/-- The rest of the Taylor series of the sine of x, with 110 fractional bits, from its nth term on. -/
def sineTail (x : Int) : Nat → Nat → Int → Int
  | 0, _, _ => 0
  | fuel + 1, n, term => term + sineTail x fuel (n + 1) (-(term * x * x / 2 ^ 220 / ((2 * n + 2) * (2 * n + 3) : Nat)))

/-- The sine of an angle between 0 and π/2, with 110 fractional bits. -/
def sineQuarter (x : Int) : Int := sineTail x 24 0 x

/-- sin(2π·n/m) with 100 fractional bits. -/
def sinTurn (n m : Nat) : Int :=
  let x : Int := (4 * n % m * halfPi / m : Nat)
  (match 4 * n / m % 4 with
    | 0 => sineQuarter x
    | 1 => sineQuarter (halfPi - x)
    | 2 => -sineQuarter x
    | _ => -sineQuarter (halfPi - x)) / 2 ^ 10

/-- cos(2π·n/m) with 100 fractional bits. -/
def cosTurn (n m : Nat) : Int := sinTurn (4 * n + m) (4 * m)

/-- An integer with 100 fractional bits as a rational. -/
def frac100 (x : Int) : ℚ := (x : ℚ) / 2 ^ 100

/-! ### The fit (R202) -/

/-- Dot product. -/
def dot (xs ys : List ℚ) : ℚ := ((xs.zip ys).map (fun p => p.1 * p.2)).sum

/-- The solution of a square system of linear equations, each row its coefficients and its right side; none where it has not
exactly one. -/
def solve : Nat → List (List ℚ) → Option (List ℚ)
  | 0, _ => some []
  | n + 1, rows =>
    match rows.find? (fun r => r.headD 0 != 0) with
    | none => none
    | some p =>
      let rest := (rows.erase p).map (fun r =>
        let k := r.headD 0 / p.headD 1
        ((r.zip p).map (fun x => x.1 - k * x.2)).tail)
      match solve n rest with
      | none => none
      | some xs => some ((p.getLastD 0 - dot p.tail.dropLast xs) / p.headD 1 :: xs)

/-- The terms of R202 at an instant in eighths of a tick: 1, τ, and cosine and sine of the three harmonics. -/
def fitTerms (ws we inc t8 : Nat) : List ℚ :=
  let m := 3200 * 2 ^ 48
  let ph (h : Nat) := h * inc * (t8 - 8 * ws) % m
  [1, ((t8 : ℚ) / 8 - ((ws : ℚ) + we) / 2) / ((we : ℚ) - ws), frac100 (cosTurn (ph 1) m), frac100 (sinTurn (ph 1) m),
   frac100 (cosTurn (ph 2) m), frac100 (sinTurn (ph 2) m), frac100 (cosTurn (ph 3) m), frac100 (sinTurn (ph 3) m)]

/-- The coefficients a, b, c_1, d_1, c_2, d_2, c_3, d_3 of the least-squares fit to samples (instant, 1/256 units), and the mean
square residual, in whole units (R202, R203); none where the samples do not determine them. -/
def leastSquares (xs : List (Nat × Int)) (ws we inc : Nat) : Option (List ℚ × ℚ) :=
  let rows := xs.map (fun x => (fitTerms ws we inc x.1, (x.2 : ℚ) / 256))
  let normal := (List.range 8).map (fun i => (List.range 8).map (fun j => (rows.map (fun r => r.1.getD i 0 * r.1.getD j 0)).sum) ++
    [(rows.map (fun r => r.1.getD i 0 * r.2)).sum])
  (solve 8 normal).map (fun q =>
    (q, (rows.map (fun r => (r.2 - dot r.1 q) ^ 2)).sum / (rows.length : ℚ)))

/-! ### Results (R203) -/

/-- Nearest integer, ties away from zero. -/
def roundQ (x : ℚ) : Int := if 0 ≤ x then ⌊x + 1 / 2⌋ else -⌊1 / 2 - x⌋

/-- The square root of a rational, rounded down, and rounded to nearest. -/
def sqrtDown (x : ℚ) : Nat := Nat.sqrt ⌊x⌋.toNat
def sqrtNear (x : ℚ) : Nat := (Nat.sqrt ⌊4 * x⌋.toNat + 1) / 2

/-- Magnitude response of a sinc4 filter with a word period in ticks at the realized frequency (R83). -/
def sincMag (period inc : Nat) : ℚ :=
  let m := 2 * 400 * 2 ^ 48
  (frac100 (sinTurn (64 * period * inc) m) / (64 * frac100 (sinTurn (period * inc) m))) ^ 4

/-- Square of the magnitude of harmonic h of a fit. -/
def mag2 (q : List ℚ) (h : Nat) : ℚ := q.getD (2 * h) 0 ^ 2 + q.getD (2 * h + 1) 0 ^ 2

/-- Z_RE and Z_IM before saturation, from the two fits' coefficients (R203). -/
def zParts (i v : List ℚ) (inc : Nat) : List (Option Int) :=
  let scale := 1000000 * sincMag 10 inc / sincMag 40 inc / mag2 i 1
  let at_ (q : List ℚ) (n : Nat) := q.getD n 0
  if mag2 i 1 = 0 then [none, none]
  else [some (roundQ ((at_ v 2 * at_ i 2 + at_ v 3 * at_ i 3) * scale)), some (roundQ ((at_ v 2 * at_ i 3 - at_ v 3 * at_ i 2) * scale))]

/-- DC value and amplitude at the cell of one quantity, from its fit (R203). -/
def dcAmp (q : List ℚ) (mag : ℚ) : Int × Int := (roundQ (q.getD 0 0), sqrtNear (mag2 q 1 / mag ^ 2))

/-- COH and DIST, from the voltage fit (R203). -/
def cohDist (v : List ℚ) (res : ℚ) : List (Option Int) :=
  let v2 := mag2 v 1
  [if v2 / 2 + res = 0 then none else some ⌊65535 * (v2 / 2) / (v2 / 2 + res)⌋,
   if v2 = 0 then none else some (min 0xFFFF (sqrtDown (65536 ^ 2 * (mag2 v 2 + mag2 v 3) / v2)))]

/-- The results of R203: Z_RE and Z_IM before saturation, I_DC, V_DC, I_AMP, V_AMP, COH, DIST, each from the fits it is defined by and
none where its formula gives no number, and whether |I_1| is below 1 µA. -/
def impResults (is vs : List (Nat × Int)) (ws we inc : Nat) : List (Option Int) × Bool :=
  let fi := leastSquares is ws we inc
  let fv := leastSquares vs ws we inc
  let i := fi.map (fun q => dcAmp q.1 (sincMag 10 inc))
  let v := fv.map (fun q => dcAmp q.1 (sincMag 40 inc))
  ((match fi, fv with | some a, some b => zParts a.1 b.1 inc | _, _ => [none, none]) ++
    [i.map (·.1), v.map (·.1), i.map (·.2), v.map (·.2)] ++
    (match fv with | some b => cohDist b.1 b.2 | none => [none, none]),
   match fi with | some a => decide (mag2 a.1 1 < 1) | none => false)

/-- A result as binary64 arithmetic may leave it: within one unit of the formula's value; anything where the formula gives no
number (R202, R203). [DESIGN CHOICE, log 9] -/
def binary64 (x : Option Int) (free : Int) : Int :=
  match x with
  | some y => clamp (y - 1) (y + 1) free
  | none => free

/-- The range of each result's field, in their order: Z_RE and Z_IM are saturated on their own (R203, R209). -/
def impRange (n : Nat) (x : Int) : Int :=
  match n with
  | 0 | 1 => x
  | 2 | 3 => clamp (-(2 ^ 31)) (2 ^ 31 - 1) x
  | 4 | 5 => clamp 0 (2 ^ 32 - 1) x
  | _ => clamp 0 0xFFFF x

end Sys2Proof.Machine
end

