-- ==== Sys2Proof/Machine/RingOps.lean ====
section
/-!
DEFINITION. The rings of a slice (R142–R144), device writes to a slice's memory with the dirty-page log (R228),
event records (R168) and completions waiting in the buffer (R156).
-/

namespace Sys2Proof.Machine
open Sys2Proof

/-- The region checker in front of an address (R306), if a target occupies it. -/
def checkerOf (addr : Nat) : Option Nat :=
  if addr < 0x40000 then some 0
  else if 0x10000000 ≤ addr ∧ addr < 0x11800000 then some ((addr - 0x10000000) / 0x200000 + 1)
  else if 0x18000000 ≤ addr ∧ addr < 0x18400000 then some 13
  else if 0x20000000 ≤ addr ∧ addr < 0x20100000 then some 14
  else if 0x30000000 ≤ addr ∧ addr < 0x40000000 then some 15
  else if 0x100000000 ≤ addr ∧ addr < 0x300000000 then some 16
  else none

/-- A master of the device that is no core (8 the step engine, 9 the switch and exporter, 10 CAN, 11 PTP), acting
for a slice in the normal world (R307). -/
def engineSrc (m : Fin 16) (s : Nat) : Src := ⟨m, false, sl s⟩

/-- What an engine's access to local memory meets: it is performed, it waits for a checker (R310), or it fails, first at an address. -/
inductive Reach where
  | opened
  | waits
  | fails (addr : Nat)
  deriving DecidableEq, Repr

/-- What several accesses meet together: a wait for a checker comes first, then the first that fails (R310). -/
def Reach.all (rs : List Reach) : Reach :=
  if rs.contains .waits then .waits else (rs.find? (· != .opened)).getD .opened

/-- The checker of an address is one that masters 8–11 wait for (R310). -/
def Dev.rcWaits (d : Dev) (addr : Nat) : Bool :=
  match checkerOf addr with
  | some t => d.rcWait.testBit t
  | none => false

/-- The checker of an address permits an engine's access and the memory there serves it (R308, R309, R317). -/
def Dev.pageOpen (d : Dev) (m : Fin 16) (s : Nat) (kind : AccessKind) (addr : Nat) : Bool :=
  match checkerOf addr with
  | some t => d.permits t (engineSrc m s) kind addr && d.serves addr
  | none => false

/-- Addresses of an access of some bytes, one in each 4 KiB page it touches. -/
def pagesOf (addr len : Nat) : List Nat :=
  (List.range ((addr + (len - 1)) / 4096 - addr / 4096 + 1)).map (fun i => if i = 0 then addr else (addr / 4096 + i) * 4096)

/-- What an engine's access of some bytes of local memory meets. -/
def Dev.reach (d : Dev) (m : Fin 16) (s : Nat) (kind : AccessKind) (addr len : Nat) : Reach :=
  if (pagesOf addr len).any d.rcWaits then .waits
  else match (pagesOf addr len).find? (fun a => !d.pageOpen m s kind a) with
    | some a => .fails a
    | none => .opened

/-- Some bytes of local memory are open to an engine. -/
def Dev.localOpen (d : Dev) (m : Fin 16) (s : Nat) (kind : AccessKind) (addr len : Nat) : Bool :=
  d.reach m s kind addr len == .opened

/-- An engine's access that fails at an address: denied and recorded by its checker, or answered as R28 states (R28, R29, R308).
[DEDUCED, log 15] -/
def Dev.engineFail (d : Dev) (m : Fin 16) (s : Nat) (kind : AccessKind) (addr : Nat) : Dev :=
  let src := engineSrc m s
  (match checkerOf addr with
   | some t =>
     if d.permits t src kind addr then d.badAccess src (kind == AccessKind.write) addr else d.deny t src kind addr
   | none => d.badAccess src (kind == AccessKind.write) addr).setResp d.resp

/-- Host port `p`'s link is up, and the port is ON (R317). -/
def Dev.linkUp (d : Dev) (p : Nat) : Bool :=
  (if p = 0 then d.bit Reg.SYS_SVC_PATH_H0 else d.bit Reg.SYS_SVC_PATH_H1) && d.f (Reg.PWR_QTAG_STATE (36 + p)) == 0

/-- Ring r of slice s is enabled and in local memory (R142). -/
def Dev.localRing (d : Dev) (s r : Nat) : Bool := d.bit (Reg.SLC_RING_CFG_EN s r) && d.f (Reg.SLC_RING_CFG_LOC s r) == 2

/-- The slice holds channels that an orphan policy may act on: ACTIVE or FROZEN (R118, R216). -/
def Dev.live (d : Dev) (s : Nat) : Bool := d.f (Reg.SLC_STATE_STATE s) == 1 || d.f (Reg.SLC_STATE_STATE s) == 3

/-- The slice's DMA is open: it is not FROZEN, no migration is stopping it, and no warm reset runs (R184, R230). -/
def Dev.dmaOpen (d : Dev) (s : Nat) : Bool :=
  d.f (Reg.SLC_STATE_STATE s) != 3 && (d.slices[sl s]).migPort.isNone && d.sup.warm.isNone

/-- The write-back block is written while the command ring is enabled and not stopped (R144, R169). -/
def Dev.wbEnabled (d : Dev) (s : Nat) : Bool :=
  d.bit (Reg.SLC_RING_CFG_EN s 0) && !d.tb (Reg.SLC_RING_STAT_DMA_ERR s) 0

/-- The slice's DMA runs: it is open, and after a migration the write-back block has been written (R230). -/
def Dev.dmaRuns (d : Dev) (s : Nat) : Bool := d.dmaOpen s && !((d.slices[sl s]).wbFirst && d.wbEnabled s)

/-- A location is reachable for the slice's write-back block (R144). -/
def Dev.wbPath (d : Dev) (s loc addr : Nat) : Bool :=
  d.dmaOpen s && (if loc < 2 then d.linkUp loc else d.localOpen 8 s .write addr 64)

/-- A location (0 H0, 1 H1, 2 local) is reachable for a write of the slice of some bytes at an address (R144, R310). -/
def Dev.pathUp (d : Dev) (s loc addr len : Nat) : Bool :=
  d.dmaRuns s && (if loc < 2 then d.linkUp loc else d.localOpen 8 s .write addr len)

/-- File one dirty page in the slice's log (R228): suppressed when among the slice's previous eight entries;
OVF when the log is full (R229). -/
def Dev.dirtyPage (d : Dev) (s port pfn : Nat) : Dev :=
  let e := d.slices[sl s]
  if e.pages.contains (port, pfn) then d
  else
    let size : Nat := 2 ^ d.f Reg.DPL_CFG_LOG2
    let pi := d.f Reg.DPL_PI_PI
    if sdiff32 pi (d.f Reg.DPL_CI_CI) ≥ size then
      ((d.note Reg.DPL_STAT_OVF 1).setF Reg.DPL_STAT_OVF 1).raise Reg.SLICE_EVT_DPL_OVF 1 56
    else
      let d := d.modSlice (sl s) (fun e => { e with pages := ((port, pfn) :: e.pages).take 8 })
      let addr := d.f64 Reg.DPL_BASE_LO_ADDR Reg.DPL_BASE_HI_ADDR + 8 * (pi % size)
      let x := pfn % 2 ^ 52 + 2 ^ 52 * (s % 64) + (if port = 1 then 2 ^ 63 else 0)
      let d := d.post (hostKey (d.f Reg.DPL_CFG_LOC) (d.f (Reg.SLC_PASID_PASID 0)) addr) (leBytes 8 x)
      (d.wrap Reg.DPL_PI_PI).pend 92

/-- A device write for a slice, at a location. A host write of a logged slice files its pages (R228). -/
def Dev.write (d : Dev) (s loc addr : Nat) (bs : List Byte) : Dev :=
  if loc < 2 then
    let d := d.post (hostKey loc (d.f (Reg.SLC_PASID_PASID s)) addr) bs
    let logged := if s < 32 then d.tb Reg.DPL_SLC_LO_MASK s else d.tb Reg.DPL_SLC_HI_MASK (s - 32)
    if d.bit Reg.DPL_CFG_EN && logged then
      let n := (addr + (bs.length - 1)) / 4096 - addr / 4096 + 1
      forEach n d (fun d i => d.dirtyPage s loc (addr / 4096 + i))
    else d
  else d.post addr bs

/-! ### Rings -/

/-- Entry size of ring `r` of slice `s` (R142). -/
def Dev.entrySize (d : Dev) (s r : Nat) : Nat :=
  match r with
  | 0 => 64 | 1 => 32 | 2 => 16
  | _ => if d.bit (Reg.SLC_RING_CFG_ESIZE s r) then 64 else 32

/-- Number of entries, 2^L. -/
def Dev.ringSize (d : Dev) (s r : Nat) : Nat := 2 ^ d.f (Reg.SLC_RING_CFG_LOG2 s r)

/-- Producer and consumer index of a ring. -/
def Dev.ringPi (d : Dev) (s : Nat) (r : Fin 8) : Nat := (d.slices[sl s]).pi[r]
def Dev.ringCi (d : Dev) (s : Nat) (r : Fin 8) : Nat := (d.slices[sl s]).ci[r]

/-- Address of entry `i` of a ring (R143). -/
def Dev.entryAddr (d : Dev) (s r i : Nat) : Nat :=
  d.f64 (Reg.SLC_RING_BASE_LO_ADDR s r) (Reg.SLC_RING_BASE_HI_ADDR s r) + i % d.ringSize s r * d.entrySize s r

/-- The ring is stopped by a DMA error (R169). -/
def Dev.ringStopped (d : Dev) (s r : Nat) : Bool := d.tb (Reg.SLC_RING_STAT_DMA_ERR s) r

/-- The ring has room for one more entry. -/
def Dev.ringRoom (d : Dev) (s : Nat) (r : Fin 8) : Bool :=
  sdiff32 (d.ringPi s r) (d.ringCi s r) < d.ringSize s r

/-- An entry can be written to the ring now: enabled, running, reachable, with room. -/
def Dev.ringReady (d : Dev) (s : Nat) (r : Fin 8) : Bool :=
  d.bit (Reg.SLC_RING_CFG_EN s r) && !d.ringStopped s r && d.ringRoom s r &&
  d.pathUp s (d.f (Reg.SLC_RING_CFG_LOC s r)) (d.entryAddr s r (d.ringPi s r)) (d.entrySize s r)

/-- Where the write of the next entry of a ring in local memory fails, if it is made and does (R169, R308, R354). -/
def Dev.ringFails (d : Dev) (s : Nat) (r : Fin 8) : Option Nat :=
  if d.localRing s r && !d.ringStopped s r && d.ringRoom s r && d.dmaRuns s then
    match d.reach 8 s .write (d.entryAddr s r (d.ringPi s r)) (d.entrySize s r) with
    | .fails a => some a
    | _ => none
  else none

/-- A local access for a ring fails: the ring stops (R169). -/
def Dev.stopRing (d : Dev) (s : Nat) (r : Fin 8) (kind : AccessKind) (addr : Nat) : Dev :=
  (d.engineFail 8 s kind addr).setTb (Reg.SLC_RING_STAT_DMA_ERR s) r.1 true

/-- The event ring is about to be written: it stops if the write fails, with no event of it (R168, R169). -/
def Dev.evtCheck (d : Dev) (s : Nat) : Dev :=
  match d.ringFails s 2 with
  | some a => d.stopRing s 2 .write a
  | none => d

/-- A stream ring number as a ring number. -/
def streamRing (x : Nat) : Fin 8 := ⟨(x % 5) + 3, by have := Nat.mod_lt x (show 0 < 5 by decide); omega⟩

/-- Cause number of R435 that an entry of ring `r` signals. -/
def ringCause (r : Nat) : Nat := r - 1

/-- Ask for the write-back block to be written and the cause signalled after it (R144). -/
def Dev.signal (d : Dev) (s : Nat) (cause : Option Nat) : Dev :=
  d.modSlice (sl s) (fun e =>
    { e with wbDirty := true,
             sig := match cause with
               | some c => if e.sig.contains c then e.sig else e.sig ++ [c]
               | none => e.sig })

/-- Write one entry into a ring and advance its producer index (R143). -/
def Dev.ringPut (d : Dev) (s : Nat) (r : Fin 8) (bs : List Byte) (cause : Option Nat) : Dev :=
  let i := d.ringPi s r
  let d := d.write s (d.f (Reg.SLC_RING_CFG_LOC s r)) (d.entryAddr s r i) bs
  let d := d.modSlice (sl s) (fun e => { e with pi := put e.pi r ((i + 1) % 2 ^ 32) })
  d.signal s cause

/-! ### Event records (R168) -/

/-- The 16 bytes of an event record. -/
def eventBytes (ty : Nat) (ch : Option Nat) (info data ts : Nat) : List Byte :=
  leBytes 1 (ty + (if ch.isSome then 128 else 0)) ++ leBytes 1 (ch.getD 0) ++ leBytes 2 info ++ leBytes 4 data ++
  leBytes 8 ts

/-- An event that cannot be written is lost and counted. -/
def Dev.loseEvent (d : Dev) (s : Nat) : Dev :=
  (d.bump (Reg.SLC_EVT_LOST_COUNT s)).modSlice (sl s) (fun e => { e with evtLostRun := e.evtLostRun + 1 })

/-- Show in SLC_RING_STAT whether the event ring is full. -/
def Dev.evtFull (d : Dev) (s : Nat) : Dev := d.setB (Reg.SLC_RING_STAT_EVT_FULL s) (!d.ringRoom s 2)

/-- Events have been lost and the ring can be written: the EVT_LOST record goes first (R168). -/
def Dev.evtLost (d : Dev) (s : Nat) : Dev :=
  let n := (d.slices[sl s]).evtLostRun
  let d := if n ≠ 0 then d.evtCheck s else d
  if n ≠ 0 ∧ d.ringReady s 2 then
    ((d.ringPut s 2 (eventBytes 0x04 none 0 n d.now) (some 1)).modSlice (sl s) (fun e => { e with evtLostRun := 0 })).evtFull s
  else d

/-- Rings may have become writable: each slice that has lost events is told (R168). -/
def Dev.evtLostAll (d : Dev) : Dev := forEach 64 d (fun d s => d.evtLost s)

/-- Write an event record of an occurrence at instant `ts` for slice `s` (R168). -/
def Dev.eventAt (d : Dev) (s ty : Nat) (ch : Option Nat) (info data ts : Nat) : Dev :=
  let d := (d.evtLost s).evtCheck s
  (if d.ringReady s 2 then d.ringPut s 2 (eventBytes ty ch info data ts) (some 1) else d.loseEvent s).evtFull s

/-- Write an event record of an occurrence now. -/
def Dev.event (d : Dev) (s ty : Nat) (ch : Option Nat) (info data : Nat) : Dev := d.eventAt s ty ch info data d.now

/-- A ring has stopped: a DMA_ERR event names it and the entry, if the event ring still works (R169). -/
def Dev.dmaEvent (d : Dev) (s : Nat) (r : Fin 8) (index : Nat) : Dev :=
  if r = 2 then d else d.event s 0x08 none r.1 index

/-- A ring is about to be written: it stops if the write fails (R169). -/
def Dev.ringCheck (d : Dev) (s : Nat) (r : Fin 8) : Dev :=
  match d.ringFails s r with
  | some a => (d.stopRing s r .write a).dmaEvent s r (d.ringPi s r)
  | none => d

/-! ### Completions (R156, R162) -/

/-- The 32 bytes of a completion record. -/
def cmpBytes (c : Cmp) (valC : Nat) : List Byte :=
  leBytes 2 c.tag ++ leBytes 1 c.ch ++ leBytes 1 c.stepIdx ++ leBytes 1 c.status ++ leBytes 1 c.info ++
  leBytes 2 c.cflags ++ leBytes 8 c.tEnd ++ leBytes 4 (min c.delay (2 ^ 32 - 1)) ++ leBytes 4 c.valA ++
  leBytes 4 c.valB ++ leBytes 4 valC

/-- Insert a completion in order of T_END, then channel (R156). -/
def insertCmp (c : Cmp) : List Cmp → List Cmp
  | [] => [c]
  | x :: xs =>
    if c.tEnd < x.tEnd ∨ (c.tEnd = x.tEnd ∧ c.ch < x.ch) then c :: x :: xs else x :: insertCmp c xs

/-- Mark a completion as held in the buffer (CFLAGS.BUFFERED). -/
def Cmp.buffered (c : Cmp) : Cmp := if c.cflags.testBit 11 then c else { c with cflags := c.cflags + 2048 }

/-- The completion ring cannot be written: what waits carries BUFFERED, CMP_FULL shows it, and a CMP_HELD event
tells how many wait, once each time delivery becomes blocked. [DEDUCED, log 111] -/
def Dev.holdCmps (d : Dev) (s : Nat) : Dev :=
  let d := d.modSlice (sl s) (fun e => { e with cmps := e.cmps.map Cmp.buffered })
  if d.bit (Reg.SLC_RING_STAT_CMP_FULL s) then d
  else (d.setF (Reg.SLC_RING_STAT_CMP_FULL s) 1).event s 0x05 none 0 (d.slices[sl s]).cmps.length

/-- Put a completion into the completion buffer. -/
def Dev.addCmp (d : Dev) (s : Nat) (c : Cmp) : Dev :=
  let d := d.modSlice (sl s) (fun e => { e with cmps := insertCmp c e.cmps })
  if d.ringReady s 1 && !d.bit (Reg.SLC_RING_STAT_CMP_FULL s) then d else d.holdCmps s

end Sys2Proof.Machine
end

