-- ==== Sys2Proof/Machine/VatOps.lean ====
section
/-!
DEFINITION. The operations on vats and channels that several chapters share: entering a state, ending a step with
its completion, the queue halt, KILLs, vat fencing, device faults, orphaning a slice, ledger ranges.
-/

namespace Sys2Proof.Machine
open Sys2Proof

/-- Change one vat. -/
def Dev.modVat (d : Dev) (v : Fin 16) (f : Vat → Vat) : Dev := d.setVats (put d.vats v (f d.vats[v]))

/-- Change the lane of a vat. -/
def Dev.modLane (d : Dev) (v : Fin 16) (f : Lane → Lane) : Dev := d.modVat v (fun x => { x with lane := f x.lane })

/-- Channel k of vat v. -/
def Dev.chan (d : Dev) (v k : Fin 16) : Chan := (d.vats[v]).chans[k]

/-- Change one channel. -/
def Dev.modChan (d : Dev) (v k : Fin 16) (f : Chan → Chan) : Dev :=
  d.modVat v (fun x => { x with chans := put x.chans k (f x.chans[k]) })

/-- Change one channel's measurement state. -/
def Dev.modMeas (d : Dev) (v k : Fin 16) (f : Meas → Meas) : Dev :=
  d.modVat v (fun x => { x with meas := put x.meas k (f x.meas[k]) })

/-- Change one channel's trip comparator and report state. -/
def Dev.modGuard (d : Dev) (v k : Fin 16) (f : Guard → Guard) : Dev :=
  d.modVat v (fun x => { x with guards := put x.guards k (f x.guards[k]) })

/-- A number below 16 from any number. -/
def v16 (n : Nat) : Fin 16 := ⟨n % 16, Nat.mod_lt _ (by decide)⟩

/-- Do something for each of the 16 channels of a vat, in order of k. -/
def Dev.eachChan (d : Dev) (f : Dev → Fin 16 → Dev) : Dev := (List.finRange 16).foldl f d

/-- Device channel number c = 16 v + k. -/
def chanNo (v k : Fin 16) : Nat := 16 * v.1 + k.1

/-- Lane state codes (R72). -/
def laneOff : Nat := 0
def laneLock : Nat := 1
def laneDesc : Nat := 2
def laneAlign : Nat := 3
def laneCheck : Nat := 4
def laneActive : Nat := 5
def laneHeld : Nat := 6

/-- Vat v is fenced. -/
def Dev.fenced (d : Dev) (v : Fin 16) : Bool := d.bit (Reg.VAT_STAT_FENCED v.1)

/-- State of the lane of vat v. -/
def Dev.laneState (d : Dev) (v : Fin 16) : Nat := d.f (Reg.LANE_STAT_STATE v.1)

/-- Kill latch of channel k as the latest report showed it. -/
def Dev.klatch (d : Dev) (v k : Fin 16) : Bool := d.tb (Reg.LANE_STAT_KLATCH v.1) k.1

/-- VAT_MODF shows a fault on the channel, or on one of a mask (R79). -/
def Dev.modf (d : Dev) (v k : Fin 16) : Bool := d.tb (Reg.VAT_MODF_I v.1) k.1 || d.tb (Reg.VAT_MODF_V v.1) k.1
def Dev.modfAny (d : Dev) (v : Fin 16) (mask : Nat) : Bool := (maskList mask).any (fun k => d.modf v k)

/-- Word i of the accepted board descriptor. -/
def Dev.desc (d : Dev) (v : Fin 16) (i : Nat) : Nat := d.f (Reg.LANE_DESC_WORD v.1 i)

/-- Populated channels of the board (R53, R72). -/
def Dev.populated (d : Dev) (v : Fin 16) : Nat := bits (d.desc v 0) 8 5

/-- Full scales of the board's current and voltage words (R73). -/
def Dev.iFs (d : Dev) (v : Fin 16) : Nat := d.desc v 1
def Dev.vFs (d : Dev) (v : Fin 16) : Nat := d.desc v 2

/-- Instant at which the first condition of R122 came to hold on a fenced vat: the latches were all reported set, or
no valid group had come for 100 µs. -/
def Dev.latchTime (d : Dev) (v : Fin 16) : Option Nat :=
  let l := (d.vats[v]).lane
  match l.latchAt with
  | some t => some t
  | none => if l.lastGood + 40000 ≤ d.now then some (l.lastGood + 40000) else none

/-- The closing tick X_c of a fenced vat's totals (R178): the end of the credit interval of that instant. [DEDUCED, log 118] -/
def Dev.closeTick (d : Dev) (v : Fin 16) : Option Nat := (d.latchTime v).map (fun t => 640 * (t / 640 + 1))

/-- A fenced vat whose totals are still open; they were closed before its fence was done, and a re-enable opens them for the words of
the next ACTIVE (R122, R123, R178). [DEDUCED, log 118] -/
def Dev.closing (d : Dev) (v : Fin 16) : Bool :=
  d.fenced v && !d.bit (Reg.VAT_LDG_CLOSED_CLOSED v.1) && !d.bit (Reg.VAT_STAT_FENCE_DONE v.1)

/-- The ledger takes a word with this sampling instant (in eighths): of a vat that is not fenced the words sampled since its lane
became ACTIVE; of a fenced vat, while its totals are open, those before the closing tick (R178). [DEDUCED, log 118] -/
def Dev.takesWord (d : Dev) (v : Fin 16) (t8 : Nat) : Bool :=
  decide (8 * ((d.vats[v]).lane).activeAt ≤ t8) && (!d.fenced v || (d.closing v &&
    (match d.closeTick v with | some x => decide (t8 < 8 * x) | none => true)))

/-- The vat's integrators will take further outputs: its lane is ACTIVE, or it is fenced and its totals are not yet closed
(R178). -/
def Dev.integrating (d : Dev) (v : Fin 16) : Bool :=
  d.laneState v == laneActive || d.closing v

/-- Every channel of the device satisfies p. -/
def allCh (p : Fin 16 → Fin 16 → Bool) : Bool := (List.finRange 16).all (fun v => (List.finRange 16).all (fun k => p v k))

/-- Every channel of the vat is IDLE. -/
def Dev.allIdle (d : Dev) (v : Fin 16) : Bool := (List.finRange 16).all (fun k => (d.chan v k).st == .idle)

/-- Every channel of every vat is IDLE. -/
def Dev.everyIdle (d : Dev) : Bool := (List.finRange 16).all (fun v => d.allIdle v)

/-- The latest loop tick of channel k at or before now (R37). [DEDUCED, log 39] -/
def Dev.tick (d : Dev) (k : Fin 16) : Nat := (d.now - 25 * k.1) / 400 * 400 + 25 * k.1

/-- The loop period a tick of channel k belongs to. -/
def periodOf (t : Nat) (k : Fin 16) : Nat := (t - 25 * k.1) / 400

/-- The slice a channel's steps belong to. -/
def Chan.slice (c : Chan) : Nat := (c.owner.getD 0).1

/-! ### The ledger's view of steps (R174) -/

/-- The attribution instant of current output m (R174), as an integer since it may precede zero. -/
def attrib (m : Nat) : Int := 640 * (m : Int) - 1590

/-- Nothing more is added to a step's range, and no precision output of it is still to come. -/
def StepTot.spent (s : StepTot) (g : Integ) (fromT : Nat) : Bool :=
  s.closed && (match s.tEnd with
    | some e => decide (e ≤ fromT) && g.i8.all (fun x => decide ((e : Int) ≤ attrib x.1))
    | none => false)

/-- Bring step ranges up to date when a range ends at `t`. -/
def Integ.endRange (g : Integ) (t : Nat) : Integ :=
  { g with steps := g.steps.map (fun s => if s.tEnd.isNone then { s with tEnd := some t } else s) }

/-- Open the range of a new step, ending the one before (R174); spent ranges no completion waits for are forgotten. -/
def Integ.openRange (g : Integ) (s : StepTot) (fromT : Nat) (used : Nat → Bool) : Integ :=
  { g.endRange s.t0 with steps := s :: (g.endRange s.t0).steps.filter (fun x => !x.spent g fromT || used x.id) }

/-- End the step range of a channel. -/
def Dev.endRange (d : Dev) (v k : Fin 16) (t : Nat) : Dev :=
  d.modMeas v k (fun m => { m with a := m.a.endRange t, b := m.b.endRange t })

/-- Take back the range of a start that is withdrawn (R110, R116). [DEDUCED, log 119] -/
def Integ.voidRange (g : Integ) (id : Nat) : Integ := { g with steps := g.steps.filter (fun s => s.id != id) }

/-- Take back a step range of a channel. [DEDUCED, log 119] -/
def Dev.voidRange (d : Dev) (v k : Fin 16) (id : Nat) : Dev :=
  d.modMeas v k (fun m => { m with a := m.a.voidRange id, b := m.b.voidRange id })

/-- A completion still waits for the charge of a step's range (R175). -/
def Dev.rangeUsed (d : Dev) (id : Nat) : Bool :=
  d.slices.toList.any (fun e => e.cmps.any (fun c => match c.qOf with | some q => q.1 == id | none => false))

/-- Open a step range of a channel. -/
def Dev.openRange (d : Dev) (v k : Fin 16) (s : StepTot) : Dev :=
  d.modMeas v k (fun m =>
    { m with a := m.a.openRange s m.fromT d.rangeUsed, b := m.b.openRange s m.fromT d.rangeUsed })

/-! ### States and step history -/

/-- Descriptor flag bits (R150). -/
def Desc.flag (d : Desc) (i : Nat) : Bool := d.flags.testBit i

/-- GANG step (R137). -/
def Desc.isGang (d : Desc) : Bool := d.mode == 0xA

/-- Member mask of a GANG step. -/
def Desc.members (d : Desc) : Nat := (pattern 32 d.spA) % 2 ^ 16

/-- Synchronized start: BARRIER or TIMED. -/
def Desc.sync (d : Desc) : Bool := d.flag 0 || d.flag 1

/-- REST or OCV: a passive mode (R105). -/
def Desc.passive (d : Desc) : Bool := d.mode == 7 || d.mode == 8

/-- The channels a step of channel k moves: the gang's members, or the channel alone. -/
def Desc.channels (d : Desc) (k : Fin 16) : List (Fin 16) := if d.isGang then maskList d.members else [k]

/-- The channel whose run a member's step is: the gang's leader, or itself. -/
def Dev.leadOf (d : Dev) (v k : Fin 16) : Fin 16 := (d.chan v k).gang.getD k

/-- The running step a channel belongs to: its own, or its gang leader's (R138). -/
def Dev.stepOf (d : Dev) (v k : Fin 16) : Option Running := (d.chan v (d.leadOf v k)).run

/-- Enter a state, stamped (R100); during a step with HIST it is reported as a STATE event (R168). -/
def Dev.enter (d : Dev) (v k : Fin 16) (st : ChSt) (t : Nat) : Dev :=
  let run := d.stepOf v k
  let d := d.modChan v k (fun c => { c with st := st, stAt := t, was := c.st })
  match run with
  | some r => if r.d.flag 4 then
      d.eventAt (d.chan v k).slice 0x01 (some (chanNo v k)) st.code (r.d.tag + 2 ^ 16 * r.d.stepIdx) t else d
  | none => d

/-- The state a channel was in just before instant t, no more than one entry ago (R90). -/
def Chan.stBefore (c : Chan) (t : Nat) : ChSt := if c.stAt < t then c.st else c.was

/-- The channel's reference, integrators, phase word, ramp and perturbation go back to zero (R104, R111, R135). -/
def Chan.quiet (c : Chan) : Chan :=
  { c with r := 0, xi := 0, xv := 0, phase := none, zeroN := 0, trackN := 0, dsatN := 0,
           orphanRate := none, toPassive := false, rp := 0, rg := 0, softFirst := false, pert := 0, pertLate := none }

/-- Enter a state in which nothing drives (IDLE, PASSIVE, KILLED, FENCED). -/
def Dev.enterQuiet (d : Dev) (v k : Fin 16) (st : ChSt) (t : Nat) : Dev :=
  (d.enter v k st t).modChan v k (fun c => { c.quiet with gang := none })

/-- The law whose target a step follows, with its parameters: the step's own, or a gang's inner mode (R137). -/
structure Law where
  mode : Nat
  a : Int
  b : Int
  c : Int
  d : Int
  deriving DecidableEq, Repr

/-- The law of a step (R105, R137). -/
def Desc.law (x : Desc) : Law :=
  if x.isGang then
    let p := pattern 32 x.spD
    ⟨bits (pattern 32 x.spA) 16 4, x.spB, x.spC, (p % 2 ^ 16 : Nat), (p / 2 ^ 16 : Nat)⟩
  else ⟨x.mode, x.spA, x.spB, x.spC, x.spD⟩

/-- CV_ACT of a channel (R106): 1 throughout a CV step, in CCCV while the voltage loop governs. -/
def Dev.cvOf (d : Dev) (v k : Fin 16) : Bool :=
  match d.stepOf v k with
  | some r => r.d.law.mode == 2 || (r.d.law.mode == 3 && (d.chan v (d.leadOf v k)).cvAct)
  | none => false

/-- A dated change, newest first, filed where the value is a new one. -/
def logChange (xs : List (Nat × Bool)) (t : Nat) (b : Bool) : List (Nat × Bool) :=
  if (match xs.head? with | some x => x.2 | none => false) = b then xs else (t, b) :: xs

/-- The value a dated change list gives at an instant. -/
def valueAt (xs : List (Nat × Bool)) (t : Nat) : Bool :=
  match xs.find? (fun x => decide (x.1 ≤ t)) with
  | some x => x.2
  | none => false

/-- Changes that no instant from t on needs are forgotten. -/
def trimChanges (xs : List (Nat × Bool)) (t : Nat) : List (Nat × Bool) :=
  xs.takeWhile (fun x => decide (t < x.1)) ++ (xs.dropWhile (fun x => decide (t < x.1))).take 1

/-- File CV_ACT and whether the channel is orphaned as they stand from t on (R182, R210). -/
def Dev.logCv (d : Dev) (v k : Fin 16) (t : Nat) : Dev :=
  d.modChan v k (fun c => { c with cvHist := logChange c.cvHist t (d.cvOf v k) })
def Chan.logOrphan (c : Chan) (t : Nat) : Chan := { c with orHist := logChange c.orHist t c.orphan.isSome }

/-- The channels of the gang the channel belongs to, itself included; a gang lasts until its ramp-down ends (R140). -/
def Dev.gangMask (d : Dev) (v k : Fin 16) : Nat :=
  if (d.chan v k).gang.isSome then
    (List.finRange 16).foldl (fun a m => if (d.chan v m).gang = (d.chan v k).gang then a + 2 ^ m.1 else a) 0
  else 2 ^ k.1

/-! ### Completions of steps -/

/-- A status that sets the queue halt (R164, R167). -/
def failing (status : Nat) : Bool := 0x10 ≤ status && status != 0x3A && status != 0x22 && status != 0x21

/-- CFLAGS of a step that ran, with CV_ACT at its T_END and the marks of the resistance the record carries (R163). -/
def Running.cflags (r : Running) (cv : Bool) (ohm : Bool × Bool) : Nat :=
  1 + (if r.deferred then 2 else 0) + (if r.balDeferred then 4 else 0) + (if r.scaled then 8 else 0) +
  (if r.late then 16 else 0) + (if r.orphan then 32 else 0) + (if cv then 64 else 0) +
  (if ohm.1 then 128 else 0) + (if ohm.2 then 256 else 0) +
  (if r.d.isGang then 512 else 0) + (if r.d.sync then 1024 else 0)

/-- The latest precision current of a step: the channel's, or the gang's sum (R140, R165). -/
def Dev.stepCurrent (d : Dev) (v k : Fin 16) (r : Running) : Int :=
  (r.d.channels k).foldl (fun x m => x + (d.chan v m).lastOut.i) 0

/-- A completion of a running step (R162, R165): final with its status, or progress. A start that ends while its channel
is still in ARM did not start. [DEDUCED, log 57, 121; DESIGN CHOICE, log 134] -/
def Dev.stepCmp (d : Dev) (v k : Fin 16) (r : Running) (status info tEnd : Nat) (viol : Option (Int × Int)) : Cmp :=
  let c := d.chan v k
  let base (ohm : Bool × Bool) : Cmp :=
    { tag := r.d.tag, ch := chanNo v k, stepIdx := r.d.stepIdx, status, info, cflags := r.cflags (d.cvOf v k) ohm, tEnd,
      delay := if r.deferred || r.balDeferred then r.delay else 0, noIrq := r.d.flag 5, slot := true }
  let plain := base (false, false)
  let q := some (r.id, if r.d.isGang then r.d.members else 2 ^ k.1)
  if c.st == .arm && status != 0x05 then plain
  else if r.d.mode = 6 then
    { base (r.pulse.neg, r.pulse.sus) with valA := pattern 32 c.lastOut.v, valB := r.pulse.ohm, valC := r.pulse.formed }
  else match (if status = 0x03 ∨ status = 0x11 then r.contact.res else none), (if status = 0x20 then viol else none) with
    | some (_, ohm, dv, di, neg), _ =>
      { base (neg, r.contact.sus) with valA := ohm, valB := pattern 32 dv, valC := pattern 32 di }
    | none, some (x, lim) => { plain with valA := pattern 32 x, valB := pattern 32 lim, qOf := q }
    | none, none => { plain with valA := pattern 32 c.lastOut.v, valB := pattern 32 (d.stepCurrent v k r), qOf := q }

/-- Completion of a queue entry or descriptor that did not start (R165: values zero). [DEDUCED, log 107] -/
def Desc.unstarted (x : Desc) (status info t : Nat) (def_ bal late : Bool) : Cmp :=
  { tag := x.tag, ch := x.ch, stepIdx := x.stepIdx, status, info,
    cflags := 1 + (if def_ then 2 else 0) + (if bal then 4 else 0) + (if late then 16 else 0) +
      (if x.op == 1 && x.isGang then 512 else 0) + (if x.op == 1 && x.sync then 1024 else 0),
    tEnd := t, noIrq := x.flag 5 }

/-- Complete a queue entry unstarted. -/
def Dev.dropEntry (d : Dev) (v k : Fin 16) (e : QEntry) (status info t : Nat) : Dev :=
  d.addCmp (d.chan v k).slice { e.d.unstarted status info t e.deferred e.balDeferred e.late with slot := true }

/-- Complete every queued entry of a channel unstarted, in queue order, and empty the queue. -/
def Dev.dropQueue (d : Dev) (v k : Fin 16) (status t : Nat) : Dev :=
  let q := (d.chan v k).queue
  (q.foldl (fun d e => d.dropEntry v k e status 0 t) d).modChan v k (fun c => { c with queue := [] })

/-- The queue halt of R167: every queued step and mark completes with FLUSHED, and a QHALT event names the TAG. -/
def Dev.haltQueue (d : Dev) (v k : Fin 16) (tag t : Nat) : Dev :=
  let d := d.dropQueue v k 0x3A t
  let d := d.modChan v k (fun c => { c with halt := true })
  d.eventAt (d.chan v k).slice 0x09 (some (chanNo v k)) 0 tag t

/-- Set the halt where a completion with this status and these flags sets it. -/
def Dev.haltIf (d : Dev) (v k : Fin 16) (x : Desc) (status t : Nat) : Dev :=
  if failing status && !x.flag 2 then d.haltQueue v k x.tag t else d

/-- Change the head entry of a channel's queue. -/
def Dev.modHead (d : Dev) (v k : Fin 16) (f : QEntry → QEntry) : Dev :=
  d.modChan v k (fun c => { c with queue := match c.queue with | e :: rest => f e :: rest | [] => [] })

/-- Complete the marks at the head of an idle channel's queue at instant t (R152), and note when the head entry got there; an entry
behind a running step counts from the instant it came next behind it. [DEDUCED, log 49] -/
def Dev.settle (d : Dev) (v k : Fin 16) (t : Nat) : Nat → Dev
  | 0 => d
  | n + 1 =>
    let c := d.chan v k
    match c.queue with
    | [] => d
    | e :: rest =>
      if e.d.op = 5 ∧ c.run.isNone then
        ((d.modChan v k (fun c => { c with queue := rest })).dropEntry v k e 0 0 t).settle v k t n
      else if e.headAt.isNone then
        d.modChan v k (fun c => { c with queue := { e with headAt := some t } :: rest })
      else d

/-- The running step of a channel ends (R115, R156): its completion is buffered, its ledger range ends at `tRange`,
its reservation lapses, a failing status halts the queue, and the next entry moves up, its delay counting from there (R128, R162).
A gang's members end with their leader. [DEDUCED, log 31, 106] -/
def Dev.endStepAt (d : Dev) (v k : Fin 16) (status info tEnd tRange : Nat) (viol : Option (Int × Int)) : Dev :=
  let c := d.chan v k
  match c.run with
  | none => d
  | some r =>
    let d := d.addCmp c.slice (d.stepCmp v k r status info tEnd viol)
    let d := (r.d.channels k).foldl (fun d m =>
      (d.endRange v m tRange).modChan v m (fun c =>
        { c with gang := if c.st.drives then c.gang else none, progress := false })) d
    let d := d.modChan v k (fun c => { c with run := none, progress := false })
    ((d.haltIf v k r.d status tEnd).settle v k tRange 9).modHead v k (fun e => { e with headAt := some tRange })

/-- The usual end of a step: its range ends where it ended. -/
def Dev.endStep (d : Dev) (v k : Fin 16) (status info tEnd : Nat) : Dev :=
  d.endStepAt v k status info tEnd tEnd none

/-- The head entry of a channel's queue completes without starting. -/
def Dev.dropHead (d : Dev) (v k : Fin 16) (status info t : Nat) : Dev :=
  match (d.chan v k).queue with
  | [] => d
  | e :: rest =>
    let d := (d.modChan v k (fun c => { c with queue := rest })).dropEntry v k e status info t
    (d.haltIf v k e.d status t).settle v k t 9

/-! ### KILL (R63–R67) -/

/-- Queue a KILL block for the lane, while the lane is ACTIVE or HELD (R66). -/
def Dev.queueKill (d : Dev) (v : Fin 16) (mask cause : Nat) : Dev :=
  if d.laneState v = laneActive ∨ d.laneState v = laneHeld then
    d.modLane v (fun l => { l with kills := l.kills ++ [⟨mask, cause, d.now⟩] })
  else d

/-- Withdraw the KCLRs that name any channel of the mask (R62, R65, R110). -/
def Dev.withdrawKclr (d : Dev) (v : Fin 16) (mask : Nat) : Dev :=
  d.modLane v (fun l =>
    { l with cfgQ := l.cfgQ.filter (fun q => q.op != 3 || q.data % 2 ^ 16 &&& mask == 0),
             cfgOut := match l.cfgOut with
               | some q => if q.op == 3 && (q.data % 2 ^ 16 &&& mask != 0) then none else some q
               | none => none })

/-- Hold the start at the head of the queue under R116, released at instant t. [DEDUCED, log 120] -/
def Dev.holdHead (d : Dev) (v k : Fin 16) (t : Nat) : Dev :=
  match (d.chan v k).queue with
  | [] => d
  | e :: rest =>
    if e.heldAt.isSome then d
    else
      let d := d.modChan v k (fun c =>
        { c with queue := { e with heldAt := some t, relAt := some (e.relAt.getD t), deferred := true, resv := none } :: rest })
      d.raise (Reg.VAT_PROT_EVT_DEFER v.1) (2 ^ k.1) v.1

/-- The channels a queue's head step, armed ahead of its instant, holds in ARM go back to IDLE, their KCLR withdrawn (R110,
R112). -/
def Dev.unarm (d : Dev) (v k : Fin 16) (t : Nat) : Dev :=
  match (d.chan v k).queue with
  | e :: _ =>
    let ks := (e.d.channels k).filter (fun m => (d.chan v m).st == .arm && d.leadOf v m == k)
    ks.foldl (fun d m => d.enterQuiet v m .idle t) (d.withdrawKclr v (ks.foldl (fun a m => a + 2 ^ m.1) 0))
  | [] => d

/-- A step in ARM goes back to the head of the queue, held under R116 (R110): the KCLR is withdrawn, the channels
return to IDLE. [DEDUCED, log 119] -/
def Dev.disarm (d : Dev) (v k : Fin 16) (t : Nat) : Dev :=
  match (d.chan v k).run with
  | some r =>
    let ks := r.d.channels k
    let d := d.withdrawKclr v (ks.foldl (fun a m => a + 2 ^ m.1) 0)
    let d := ks.foldl (fun d m => (d.voidRange v m r.id).enterQuiet v m .idle t) d
    let d := d.modChan v k (fun c =>
      { c with run := none,
               queue := { d := r.d, headAt := some t, balDeferred := r.balDeferred, late := r.late, checked := true } :: c.queue })
    d.holdHead v k t
  | none => (d.unarm v k t).holdHead v k t

/-- The place in R17's list of what a stop code stands for; a firmware kill counts as a lane KILL. [DESIGN CHOICE, log 126] -/
def placeOf (code : Nat) : Nat :=
  if code = 14 then 1 else if code = 12 ∨ code = 16 then 2 else if code = 13 then 3 else 4

/-- Something that stops channel k acts at instant t with its stop code. Of two in one loop period the one higher in R17's list is
recorded in LAST_STOP, the other with its instant only; the sixteen latest are kept (R17, R115). [DESIGN CHOICE, log 126] -/
def Chan.stopBy (c : Chan) (k : Fin 16) (code t : Nat) : Chan :=
  match c.won with
  | some w =>
    if periodOf w.2 k = periodOf t k then
      if w.1 < placeOf code then { c with noted := ((placeOf code, t) :: c.noted).take 16 }
      else { c with lastStop := code, won := some (placeOf code, t),
                    noted := if placeOf code < w.1 then (w :: c.noted).take 16 else c.noted }
    else { c with lastStop := code, won := some (placeOf code, t) }
  | none => { c with lastStop := code, won := some (placeOf code, t) }

/-- The stop code a step ends with that a kill has ended: the first kill's, or of kills in one loop period the highest one's (R17). -/
def Chan.killCode (c : Chan) (k : Fin 16) (code t : Nat) : Nat :=
  match c.killEnd, c.won with
  | some old, some w => if periodOf w.2 k = periodOf t k ∧ placeOf code < placeOf old then code else old
  | some old, none => old
  | none, _ => code

/-- A channel is killed by the computation that decides it: the stop code is recorded, the channel is KILLED from instant t on. -/
def Dev.killEnter (d : Dev) (v k : Fin 16) (code t : Nat) : Dev :=
  if (d.chan v k).st = .fenced then d
  else (d.modChan v k (fun c => { c.stopBy k code t with killedSinceArm := true })).enterQuiet v k .killed t

/-- The channels of a mask are killed by the computation that decides it, at its tick t: all are KILLED, then a running step
completes with PROTECT, stamped `tEnd`, the leader's with the sample that violated its limit (R100, R115, R140).
[DEDUCED, log 33] -/
def Dev.killChans (d : Dev) (v lead : Fin 16) (mask code tEnd t : Nat) (viol : Option (Int × Int)) : Dev :=
  let ks := (maskList mask).filter (fun j => (d.chan v j).st != .fenced)
  ks.foldl (fun d j => d.endStepAt v j 0x20 code tEnd t (if j = lead then viol else none))
    (ks.foldl (fun d j => d.killEnter v j code t) d)

/-- A channel is killed from outside its computations, by a trip, a safe stop or firmware: KILLED at once, a running step
ends at the channel's next computation (R100, R109, R115). [DEDUCED, log 31, 33] -/
def Dev.killNow (d : Dev) (v k : Fin 16) (code : Nat) : Dev :=
  let c := d.chan v k
  if c.st = .fenced then d
  else
    let d := d.modChan v k (fun c =>
      { c.stopBy k code d.now with killedSinceArm := true, killEnd := if c.run.isSome then some (c.killCode k code d.now) else none })
    if c.st = .killed then d else d.enterQuiet v k .killed d.now

/-- Kill every channel of a mask by one block with the cause (R66), outside their computations. A gang falls with any
member (R140). A safe stop returns a channel in ARM to IDLE and holds its start (R110). [DEDUCED, log 31, 33] -/
def Dev.killMask (d : Dev) (v : Fin 16) (mask cause code : Nat) : Dev :=
  (maskList mask).foldl (fun x k =>
    let c := d.chan v k
    if code = 14 ∧ c.st = .arm then x.disarm v (c.gang.getD k) d.now else x.killNow v k code)
    ((d.queueKill v mask cause).withdrawKclr v mask)

/-- At a computation: a step whose channel was killed since the last one ends here, at the boundary instant t (R109, R115).
[DEDUCED, log 31] -/
def Dev.endKilled (d : Dev) (v k : Fin 16) (t : Nat) : Dev :=
  match (d.chan v k).killEnd with
  | some code => (d.endStep v k 0x20 code t).modChan v k (fun c => { c with killEnd := none })
  | none => d

/-! ### Device faults and fences -/

/-- The KILL broadcast of a safe stop: every ACTIVE lane, cause 0x03, stop code 14 (R15, R66, R374). -/
def Dev.broadcastKill (d : Dev) : Dev :=
  (List.finRange 16).foldl (fun d v =>
    if d.laneState v = laneActive then d.killMask v 0xFFFF 0x03 14 else d) d

/-- A device-level fault: the safe-stop request (SF1 only, R386) goes to Madder and the KILL broadcast to every vat
(R15). -/
def Dev.deviceFault (d : Dev) : Dev :=
  ((d.setMad { d.mad with req := some (d.mad.req.getD 0) }).emit .safeStopRequest).broadcastKill

/-- A unit of the minimum service set is lost after boot (R21, R25): a device fault; SYS_SVC.BASE, and with it NET and CHAN, reads 0
until a boot completes. [DEDUCED, log 128] -/
def Dev.serviceLost (d : Dev) : Dev := (d.setF Reg.SYS_SVC_BASE 0).deviceFault

/-- Channels of vat v in SYS_CHAN_AVAIL (R26). -/
def Dev.setAvail (d : Dev) (v : Fin 16) (mask : Nat) : Dev :=
  let r := Reg.SYS_CHAN_AVAIL_CH (v.1 / 2)
  let old := d.f r
  let sh := 2 ^ (16 * (v.1 % 2))
  d.setF r (old - old / sh % 2 ^ 16 * sh + mask % 2 ^ 16 * sh)

/-- Channel k of vat v is available. -/
def Dev.avail (d : Dev) (v k : Fin 16) : Bool := d.tb (Reg.SYS_CHAN_AVAIL_CH (v.1 / 2)) (16 * (v.1 % 2) + k.1)

/-- CFG traffic is abandoned with NOT_ACTIVE when the lane leaves ACTIVE (R62). -/
def Dev.abandonCfg (d : Dev) (v : Fin 16) : Dev :=
  let l := (d.vats[v]).lane
  let fw := l.cfgQ.any (fun q => q.op != 3) || (match l.cfgOut with | some q => q.op != 3 | none => false)
  let d := d.modLane v (fun l => { l with cfgQ := [], cfgOut := none })
  if fw then (d.setF (Reg.LANE_BREG_CTL_BUSY v.1) 0).setF (Reg.LANE_BREG_CTL_RESULT v.1) 3 else d

/-- Change the impedance engine of a vat. -/
def Dev.modImp (d : Dev) (v : Fin 16) (f : Imp → Imp) : Dev := d.modVat v (fun x => { x with imp := f x.imp })

/-- A point as it stands at its W_end: ORPHAN of its channels (R210). -/
def Dev.impFreeze (d : Dev) (v : Fin 16) (p : ImpPoint) : ImpPoint :=
  { p with orph := (List.finRange 16).foldl (fun m k => if valueAt (d.chan v k).orHist p.wEnd then m + 2 ^ k.1 else m) 0 }

/-- The window of a point has ended: the point waits for its last samples; after the last point of a sweep that is not repeated the
sweep is done (R197). -/
def Dev.closeWindow (d : Dev) (v : Fin 16) (p : ImpPoint) : Dev :=
  let d := d.modImp v (fun i => { i with point := none, fin := i.fin ++ [d.impFreeze v p] })
  if p.p + 1 < d.f (Reg.IMP_CFG_NPTS v.1) ∨ d.bit (Reg.IMP_CFG_REPEAT v.1) then d
  else (d.setF (Reg.IMP_STAT_BUSY v.1) 0).raise (Reg.IMP_EVT_DONE v.1) 1 v.1

/-- A window that has ended by now is closed. -/
def Dev.closeEnded (d : Dev) (v : Fin 16) : Dev :=
  match (d.vats[v]).imp.point with
  | some p => if p.wEnd ≤ d.now then d.closeWindow v p else d
  | none => d

/-- A sweep stops at a fence without records of the point in progress; a window that has ended by then is in progress no more
(R197, R208). -/
def Dev.dropSweep (d : Dev) (v : Fin 16) : Dev :=
  ((d.closeEnded v).modImp v (fun i => { i with point := none, startReq := none, stopReq := none })).setF (Reg.IMP_STAT_BUSY v.1) 0

/-- Every slice that holds a channel of vat v. -/
def Dev.holders (d : Dev) (v : Fin 16) : List Nat :=
  (List.range 64).filter (fun s => (List.finRange 16).any (fun k =>
    match (d.chan v k).owner with | some o => o.1 == s | none => false))

/-- What a fence does to the vat's place in the device and its lane: masks, configuration traffic, the KILL with MASK 0xFFFF and
cause 0x02, which merges with KILLs that fall due with it, the sweep (R39, R62, R66, R121, R208). -/
def Dev.fenceLane (d : Dev) (v : Fin 16) : Dev :=
  (((((d.setTb Reg.SYS_FENCE_VAT v.1 true).setAvail v 0).abandonCfg v).modLane v (fun l =>
    { l with kills := l.kills ++ [⟨0xFFFF, 0x02, d.now⟩], reps := [], fenceKillAt := none, fenceAck := 0,
             latchAt := if l.lastGood + 40000 ≤ d.now then some d.now else none })).dropSweep v)

/-- Every running, held and queued step of a fenced vat completes with FENCED, its channels enter FENCED, and the fence is logged,
told to the slices and raised (R121). Their computations stop, so they count for no bus power (R125). [DEDUCED, log 48] -/
def Dev.fenceReport (d : Dev) (v : Fin 16) (cause : Nat) : Dev :=
  let d := d.eachChan (fun d k =>
    let d := d.modChan v k (fun c => c.stopBy k 13 d.now)
    let q := (d.chan v k).queue
    let d := if (d.chan v k).st = .arm then d else d.enterQuiet v k .fenced d.now
    let d := ((d.modChan v k (fun c => { c with queue := [] })).endKilled v k d.now).endStep v k 0x21 0 d.now
    let d := (d.modChan v k (fun c => { c with queue := q })).dropQueue v k 0x21 d.now
    let d := (d.modChan v k (fun c => { c with power := [] })).logCv v k d.now
    if (d.chan v k).st = .fenced then d else d.enterQuiet v k .fenced d.now)
  let d := d.log 0x05 v.1 (evInfo v.1) cause
  let d := (d.holders v).foldl (fun d s => d.event s 0x07 none v.1 cause) d
  d.pend v.1

/-- A vat is fenced (R121): its lane, HELD; its status at once; its channels. -/
def Dev.fenceVat (d : Dev) (v : Fin 16) (cause : Nat) : Dev :=
  if d.fenced v then d
  else
    (((((((d.fenceLane v).setF (Reg.LANE_STAT_STATE v.1) laneHeld).setF (Reg.VAT_STAT_FENCED v.1) 1).setF
      (Reg.VAT_STAT_FENCE_DONE v.1) 0).setF (Reg.VAT_STAT_CAUSE v.1) cause).setF (Reg.VAT_STAT_IN_SERVICE v.1) 0).fenceReport v cause)

/-! ### Orphaning (R118) -/

/-- The orphan state a trigger puts a channel into, at instant t; one that shows already stays shown (R118, R119). -/
def Chan.orphanBy (c : Chan) (policy maxMs t : Nat) : Orphan :=
  { policy, maxMs, since := t, shown := match c.orphan with | some o => o.shown | none => false }

/-- Slice s is orphaned: its flags rise, an ORPHAN event begins it, and each of its channels will take the policy
of that instant at its next tick (R118, R119, R220). [DEDUCED, log 47] -/
def Dev.orphanSlice (d : Dev) (s : Nat) : Dev :=
  if d.bit (Reg.SLC_STATE_ORPHAN s) then d
  else
    let d := (d.setF (Reg.SLC_STATE_ORPHAN s) 1).setF (Reg.SLC_RING_STAT_ORPHAN s) 1
    let pol := d.f (Reg.SLC_ORPHAN_POLICY s)
    let mx := d.f (Reg.SLC_ORPHAN_MAX s)
    let d := (List.finRange 16).foldl (fun d v => d.eachChan (fun d k =>
      if (d.chan v k).owner = some (sl s) then
        d.modChan v k (fun c => { c with orphan := some (c.orphanBy pol mx d.now) }.logOrphan d.now)
      else d)) d
    d.event s 0x06 none 1 0

end Sys2Proof.Machine
end

