-- ==== Sys2Proof/Machine/TxOps.lean ====
section
/-!
DEFINITION. The lane transmitter (R45–R51, R58, R61, R63, R66, R70–R73): which slot starts now, the payload of every
downstream block kind, and the block a lane sends in a slot nothing has claimed.
-/

namespace Sys2Proof.Machine
open Sys2Proof

/-- Lane of vat v. -/
def Dev.lane (d : Dev) (v : Fin 16) : Lane := (d.vats[v]).lane

/-! ### Slots (R49, R51) -/

/-- Downstream slot number and frame at an instant, where a slot starts then (R49). -/
def Dev.slotNow (d : Dev) : Option (Nat × Nat) :=
  if d.now % 5 = 0 ∧ 270 ≤ d.now then some ((d.now - 270) / 5 % 80, (d.now - 270) / 400) else none

/-- Number of the present downstream group, ten to a frame. -/
def Dev.groupNow (d : Dev) : Nat := (d.now - 270) / 40

/-- Channel whose CMD a slot carries (R51). -/
def cmdSlot (s : Nat) : Option (Fin 16) :=
  if s = 30 then some 6 else if s = 70 then some 14
  else if s % 8 = 7 then none
  else if s % 5 = 1 then some (v16 (s / 5)) else none

/-- A CFG/IDLE slot: neither CHK nor CMD. -/
def cfgSlot (s : Nat) : Bool := s % 8 != 7 && (cmdSlot s).isNone

/-- Start of the CMD slot of channel k in the loop period whose tick is t (R51). -/
def cmdStart (t : Nat) (k : Fin 16) : Nat := if k = 6 ∨ k = 14 then t + 270 else t + 275

/-! ### Loop periods and computations (R37, R97) -/

/-- The tick of channel k's computation whose CMD slot starts now (R51). -/
def Dev.slotTick (d : Dev) (k : Fin 16) : Option Nat :=
  let t := d.now - (if k = 6 ∨ k = 14 then 270 else 275)
  if cmdStart t k = d.now ∧ t % 400 = 25 * k.1 then some t else none

/-- The computation of channel k at its tick t is still to come: its lane is ACTIVE and its CMD slot has not passed.
[DEDUCED, log 39] -/
def Dev.outstanding (d : Dev) (v k : Fin 16) (t : Nat) : Bool :=
  d.laneState v == laneActive && !d.fenced v && (d.chan v k).done != some t && decide (d.now ≤ cmdStart t k)

/-- The latest loop-period start. -/
def Dev.periodStart (d : Dev) : Nat := d.now / 400 * 400

/-- The computations of a vat's ticks before an instant are done. [DEDUCED, log 39] -/
def Dev.ticksDone (d : Dev) (v : Fin 16) (a : Nat) : Bool :=
  (List.finRange 16).all (fun k => decide (a ≤ 25 * k.1) || !d.outstanding v k ((a - 1 - 25 * k.1) / 400 * 400 + 25 * k.1))

/-- What happens at a loop-period start happens once the computations of every tick before it are done (R125, R128).
[DEDUCED, log 39] -/
def Dev.settledAt (d : Dev) (a : Nat) : Bool := (List.finRange 16).all (fun v => d.ticksDone v a)

/-! ### Payloads (R46, R47) -/

/-- A control block's payload: type in [7:0], content above. -/
def ctlPayload (type content : Nat) : Nat := type + 256 * (content % 2 ^ 56)

/-- The MODE field of a CMD block (R58). -/
def CmdMode.code : CmdMode → Nat
  | .off => 0 | .run => 1 | .openOut => 2

/-- A CMD block's content (R58). -/
def Cmd.content (c : Cmd) (k : Fin 16) : Nat :=
  k.1 + 2 ^ 4 * c.mode.code + 2 ^ 8 * (c.duty % 2 ^ 24) + 2 ^ 32 * (c.phase % 256) + 2 ^ 40 * (c.seq % 256)

/-- A KILL block's content (R63). -/
def killContent (mask cause kseq : Nat) : Nat :=
  mask % 2 ^ 16 + 2 ^ 16 * (0xFFFF - mask % 2 ^ 16) + 2 ^ 32 * (cause % 256) + 2 ^ 40 * (kseq % 256)

/-- A CFG block's content (R61). -/
def cfgContent (op tag addr data : Nat) : Nat :=
  op % 256 + 2 ^ 8 * (tag % 256) + 2 ^ 16 * (addr % 256) + 2 ^ 24 * (data % 2 ^ 32)

/-- CRC of a group: payloads of slots 8g to 8g + 6, low byte first (R70). [PRESUMED, log 100] -/
def groupCrc (ps : List Nat) : Nat := crc32 (ps.foldl (fun bs p => bs ++ leBytes 8 p) [])

/-- PWMREF of group g of frame n: bit i is set if beat 4g + i starts a carrier period, whose length in beats is the
descriptor's P (R60, R71). Without a descriptor no beat is flagged. [DEDUCED, log 124] -/
def pwmRef (n g p : Nat) : Nat :=
  (List.range 4).foldl (fun m i =>
    if p ≠ 0 ∧ (400 * n + 270 + 10 * (4 * g + i)) % (10 * p) = 0 then m + 2 ^ i else m) 0

/-- A CHK block's content (R71). -/
def chkContent (crc g frame pwm : Nat) : Nat := crc % 2 ^ 32 + 2 ^ 32 * (g % 16) + 2 ^ 36 * (frame % 65536) + 2 ^ 52 * pwm

/-! ### Sending -/

/-- The slot that starts now carries a block: its payload is covered by the group's CRC (R70), and no other block takes the
slot. [DEDUCED, log 124] -/
def Dev.takeSlot (d : Dev) (v : Fin 16) (payload : Nat) (o : Output) : Dev :=
  (d.modLane v (fun l => { l with claim := some payload })).emit o

/-- A CMD of the channel is sent: its SEQ advances, and what the trip comparator takes as in force follows (R58, R93). -/
def Dev.sendCmd (d : Dev) (v k : Fin 16) : Dev :=
  let c := (d.chan v k).cmd
  let c := { c with seq := (c.seq + 1) % 256 }
  let d := d.modChan v k (fun x =>
    { x with cmd := c, lastOpen := if c.mode = .openOut then some (d.tick k) else x.lastOpen })
  let d := d.modGuard v k (fun g =>
    match c.mode with
    | .off => if g.force && g.offSeq.isNone then { g with offSeq := some c.seq } else g
    | _ => { g with force := true, offSeq := none })
  d.takeSlot v (ctlPayload 0x33 (c.content k)) (.cmd v.1 k.1 c.mode c.duty c.phase c.seq)

/-- A KILL block is sent, new or repeated; its group is not one for a KCLR of these channels (R63, R65). -/
def Dev.sendKill (d : Dev) (v : Fin 16) (mask cause kseq : Nat) : Dev :=
  let d := d.modLane v (fun l =>
    { l with killed := (d.groupNow, if l.killed.1 = d.groupNow then l.killed.2 ||| mask else mask) })
  d.takeSlot v (ctlPayload 0xAA (killContent mask cause kseq)) (.kill v.1 mask (0xFFFF - mask % 2 ^ 16) cause kseq)

/-! ### KILLs (R63–R67) -/

/-- Rank of a cause when KILLs merge (R66). -/
def causeRank : Nat → Nat
  | 3 => 5 | 1 => 4 | 2 => 3 | 4 => 2 | 5 => 1 | _ => 0

/-- KILLs ready for a slot that starts now (R66). -/
def Dev.dueKills (d : Dev) (v : Fin 16) : List KillReq := (d.lane v).kills.filter (fun q => q.ready + 10 ≤ d.now)

/-- A KILL may be sent: the lane is ACTIVE or HELD (R66). -/
def Dev.killable (d : Dev) (v : Fin 16) : Bool := d.laneState v == 5 || d.laneState v == 6

/-- The KILLs due for the slot that starts now go out as one block, whatever the slot would have held (R66); the limit of R67
runs for each channel from the first KILL it has not acknowledged. -/
def Dev.killEmit (d : Dev) (v : Fin 16) : Dev :=
  match d.slotNow, d.dueKills v with
  | some _, q :: qs =>
    if d.killable v && (d.lane v).claim.isNone then
      let mask := (q :: qs).foldl (fun m r => m ||| r.mask) 0
      let cause := (q :: qs).foldl (fun c r => if causeRank c < causeRank r.cause then r.cause else c) 0
      let kseq := ((d.lane v).kseq + 1) % 256
      let held := d.laneState v = laneHeld
      let d := d.modLane v (fun l =>
        { l with kills := l.kills.filter (fun r => !(r.ready + 10 ≤ d.now)), kseq := kseq, lastKill := (mask, cause, kseq),
                 reps := if held then l.reps else l.reps ++ [⟨mask, cause, kseq, d.groupNow, 2⟩],
                 ack := l.ack ++ (List.finRange 16).filterMap (fun k =>
                   if k.1 < d.populated v && mask.testBit k.1 && l.ack.all (fun a => a.1 != k.1) then some (k.1, d.now) else none),
                 stopGroup := if cause = 3 then some d.groupNow else l.stopGroup,
                 stopKseq := if cause = 3 then kseq else l.stopKseq,
                 heldKseq := if (q :: qs).any (fun r => r.cause == 2) then kseq else l.heldKseq,
                 fenceKillAt := if (q :: qs).any (fun r => r.cause == 2) && l.fenceKillAt.isNone then some d.now
                                else l.fenceKillAt })
      (d.bump (Reg.LANE_KILL_CNT_COUNT v.1)).sendKill v mask cause kseq
    else d
  | _, _ => d

/-- Count down the repeats of the KILL with this KSEQ. -/
def Lane.repeated (l : Lane) (kseq : Nat) : Lane :=
  { l with reps := l.reps.filterMap (fun r =>
      if r.kseq = kseq then (if r.left ≤ 1 then none else some { r with left := r.left - 1 }) else some r) }

/-- The safe stop stands and the logic die has acted on it: a new assertion sends a new KILL first (R66). -/
def Dev.stopStands (d : Dev) : Bool := d.safeStop && d.mad.told

/-- The safe-stop KILL has not been repeated in this group yet (R66). -/
def Dev.stopDue (d : Dev) (v : Fin 16) : Bool :=
  let l := d.lane v
  d.stopStands && !l.kills.any (fun q => q.cause == 3) && (match l.stopGroup with | some g => g != d.groupNow | none => false)

/-- The repeat KILL a CFG/IDLE slot that starts now takes: of a HELD lane its fence KILL, once that has been sent (R66, R121); else the safe-stop KILL once a group,
then the oldest repeat whose group has come, each with its own KSEQ (R66, R72). -/
def Dev.dueRepeat (d : Dev) (v : Fin 16) : Option KillRep :=
  let l := d.lane v
  if d.laneState v = laneHeld then (if l.fenceKillAt.isSome then some ⟨0xFFFF, 0x02, l.heldKseq, 0, 0⟩ else none)
  else if d.laneState v ≠ laneActive then none
  else if d.stopDue v then some ⟨0xFFFF, 0x03, l.stopKseq, 0, 0⟩
  else l.reps.find? (fun r => r.group + (3 - r.left) ≤ d.groupNow && !(d.stopStands && r.kseq == l.stopKseq))

/-- In a CFG/IDLE slot nothing has claimed and no new KILL takes, the repeat KILL that is due is sent (R66). -/
def Dev.killRepeat (d : Dev) (v : Fin 16) : Dev :=
  match d.slotNow, d.dueRepeat v with
  | some (s, _), some r =>
    if cfgSlot s && (d.dueKills v).isEmpty && (d.lane v).claim.isNone then
      let d := d.modLane v (fun l => if d.stopDue v then { l.repeated r.kseq with stopGroup := some d.groupNow } else l.repeated r.kseq)
      d.sendKill v r.mask r.cause r.kseq
    else d
  | _, _ => d

/-! ### CFG requests (R61, R62, R65) -/

/-- A KCLR for channels of the mask must wait: a safe stop stands, a modulator of one of them is faulty, a KILL that names one of them waits or is still to be
repeated, or this group has carried one (R65, R66, R77, R79). -/
def Dev.kclrWaits (d : Dev) (v : Fin 16) (mask : Nat) : Bool :=
  let l := d.lane v
  d.safeStop || d.modfAny v mask || l.kills.any (fun q => q.mask &&& mask != 0) || l.reps.any (fun r => r.mask &&& mask != 0) ||
    (l.killed.1 == d.groupNow && l.killed.2 &&& mask != 0)

/-- In a CFG/IDLE slot that no KILL takes, the oldest waiting request is sent under a new TAG, while none is outstanding
(R51, R61, R62, R65, R66). -/
def Dev.cfgSend (d : Dev) (v : Fin 16) : Dev :=
  match d.slotNow, (d.lane v).cfgQ with
  | some (s, _), q :: rest =>
    let l := d.lane v
    if d.laneState v = laneActive && cfgSlot s && l.claim.isNone && l.cfgOut.isNone && (d.dueKills v).isEmpty &&
        (d.dueRepeat v).isNone && !(q.op == 3 && d.kclrWaits v (q.data % 2 ^ 16)) then
      let tag := (l.tag + 1) % 256
      let d := d.modLane v (fun l =>
        { l with cfgQ := rest, cfgOut := some { q with tag := tag, sentAt := some d.now }, tag := tag,
                 lastCfg := (q.op, tag, q.addr, q.data) })
      d.takeSlot v (ctlPayload 0x55 (cfgContent q.op tag q.addr q.data)) (.cfg v.1 q.op tag q.addr q.data)
    else d
  | _, _ => d

/-! ### The block of a slot -/

/-- The group's CHK (R70, R71). -/
def Dev.sendChk (d : Dev) (v : Fin 16) (s n : Nat) : Dev :=
  let crc := groupCrc (d.lane v).dn
  let pwm := pwmRef n (s / 8) (bits (d.desc v 3) 0 16)
  d.takeSlot v (ctlPayload 0x96 (chkContent crc (s / 8) n pwm)) (.chk v.1 crc (s / 8) (n % 65536) pwm)

/-- A CFG/IDLE slot of a normal frame: a repeat KILL, a CFG request, or IDLE. -/
def Dev.sendSpare (d : Dev) (v : Fin 16) : Dev :=
  let d := (d.killRepeat v).cfgSend v
  if (d.lane v).claim.isSome then d else d.takeSlot v (ctlPayload 0x0F 0) (.idle v.1)

/-- What the lane sends in a slot that nothing has claimed: a KILL that is due; the CHK of the group; TRN in training; in CHECK,
ACTIVE and HELD the CMD of the slot's channel, in ACTIVE the latest one repeated, else MODE OFF, or what a CFG/IDLE slot carries (R51, R66, R72, R73).
[DEDUCED, log 124] -/
def Dev.sendSlot (d : Dev) (v : Fin 16) (s n : Nat) : Dev :=
  let d := d.killEmit v
  if (d.lane v).claim.isSome then d
  else if s % 8 = 7 then d.sendChk v s n
  else if d.laneState v < laneCheck then d.takeSlot v (ctlPayload 0xC3 (d.laneState v)) (.trn v.1 (d.laneState v))
  else match cmdSlot s with
    | some k => (if d.laneState v = laneActive then d
        else d.modChan v k (fun c => { c with cmd := { c.cmd with mode := .off, duty := 0, phase := 0 } })).sendCmd v k
    | none => d.sendSpare v

/-- A slot of one lane ends: its block joins the group, which the CHK slot closes; a lane in OFF sends nothing (R72). -/
def Dev.txLane (d : Dev) (v : Fin 16) (s n : Nat) : Dev :=
  if d.laneState v = laneOff then d
  else
    let d := d.sendSlot v s n
    d.modLane v (fun l => { l with claim := none, dn := if s % 8 = 7 then [] else l.dn ++ l.claim.toList })

/-- Where a slot has started at this tick, every lane sends its block (R45, R49). [DESIGN CHOICE, log 1; DEDUCED, log 124] -/
def Dev.transmit (d : Dev) : Dev :=
  match d.slotNow with
  | some (s, n) => (List.finRange 16).foldl (fun d v => d.txLane v s n) d
  | none => d

end Sys2Proof.Machine
end

