-- ==== Sys2Proof/Machine/MeasOps.lean ====
section
/-!
DEFINITION. The filters and the arithmetic of the measurement path and the ledger: sinc2 (R80, R81), sinc4 (R83),
calibration (R88), charge and energy integration (R171–R173).  Instants are in eighths of a tick where a word's
sampling instant is meant (R56).
-/

namespace Sys2Proof.Machine
open Sys2Proof

/-- One word into a sinc2 filter whose outputs fall at ticks `off` modulo 200: an output instant the word crosses
is latched first (R80: the output uses words sampled before it). [DESIGN CHOICE, log 34] -/
def Sinc2.push (s : Sinc2) (off t8 : Nat) (x : Int) : Sinc2 :=
  let first := ((t8 / 8 + 200 - off % 200) / 200 + 1) * 200 - 200 + off % 200
  let due := s.next.getD (if 8 * first > t8 then first else first + 200)
  let s := if 8 * due ≤ t8 then { s with latch := s.latch ++ [(due, s.u2)], next := some (due + 200) }
    else { s with next := some due }
  let u1 := (s.u1 + pattern 32 x) % 2 ^ 32
  { s with u1 := u1, u2 := (s.u2 + u1) % 2 ^ 32 }

/-- The oldest latched output of a sinc2 filter: its instant and value, and the filter after it (R80). -/
def Sinc2.pop (s : Sinc2) : Option (Nat × Int × Sinc2) :=
  match s.latch with
  | [] => none
  | (t, w) :: rest =>
    let c := (w + 2 ^ 32 - s.w) % 2 ^ 32
    let y := (c + 2 ^ 32 - s.c) % 2 ^ 32
    some (t, signed 32 y, { s with w := w, c := c, latch := rest })

/-- One word into a sinc4 filter whose decimation instants are the multiples of `dec` ticks; a decimation instant the
word crosses is latched first (R83). [DESIGN CHOICE, log 34] -/
def Sinc4.push (s : Sinc4) (dec t8 : Nat) (x : Int) (sus modf : Bool) : Sinc4 :=
  let due := s.next.getD (t8 / 8 / dec + 1)
  let s := if 8 * dec * due ≤ t8 then
      { s with latch := s.latch ++ [(due, s.a4, decide (s.ageS < 253), decide (s.ageM < 253))], next := some (due + 1) }
    else { s with next := some due }
  let a1 := (s.a1 + pattern 32 x) % 2 ^ 32
  let a2 := (s.a2 + a1) % 2 ^ 32
  let a3 := (s.a3 + a2) % 2 ^ 32
  { s with a1 := a1, a2 := a2, a3 := a3, a4 := (s.a4 + a3) % 2 ^ 32,
           ageS := if sus then 0 else min 253 (s.ageS + 1), ageM := if modf then 0 else min 253 (s.ageM + 1) }

/-- The oldest due output of a sinc4 filter, through its four combs, and the filter after it (R83). -/
def Sinc4.pop (s : Sinc4) : Option (ZOut × Sinc4) :=
  match s.latch with
  | [] => none
  | (m, w, sus, modf) :: rest =>
    let y1 := (w + 2 ^ 32 - s.c1) % 2 ^ 32
    let y2 := (y1 + 2 ^ 32 - s.c2) % 2 ^ 32
    let y3 := (y2 + 2 ^ 32 - s.c3) % 2 ^ 32
    let y4 := (y3 + 2 ^ 32 - s.c4) % 2 ^ 32
    some (⟨m, signed 32 y4, sus, modf⟩, { s with c1 := w, c2 := y1, c3 := y2, c4 := y3, latch := rest })

/-- A calibrated value (R88): filter output m, full scale, divisor, gain and offset. -/
def calibrate (m : Int) (fs d g : Nat) (o : Int) : Int :=
  satS 32 (roundDiv (m * fs * g) ((d : Int) * 2 ^ 30) + o)

/-- The newest of a list of dated changes, newest first, whose instant passes the test, else what was in force before them. -/
def inForce {α : Type} (before : α) (xs : List (Nat × α)) (p : Nat → Bool) : α :=
  match xs.find? (fun x => p x.1) with
  | some x => x.2
  | none => before

/-- The coefficients in force at instant t (R89), and after every change. -/
def Meas.calAtTick (m : Meas) (t : Nat) : Cal := inForce m.cal m.cals (fun a => decide (a ≤ t))
def Meas.calNow (m : Meas) : Cal := inForce m.cal m.cals (fun _ => true)

/-- Period of a precision-rate code in ticks (R85). -/
def ratePeriod (code : Nat) : Nat := 20000 * 2 ^ code

/-- Rate code in force for the output at t, the output at a change being the last at the old rate, and after every change
(R85). [DEDUCED, log 38] -/
def Meas.rateFor (m : Meas) (t : Nat) : Nat := inForce m.rate m.rates (fun a => decide (a < t))
def Meas.rateNow (m : Meas) : Nat := inForce m.rate m.rates (fun _ => true)

/-- Changes before an instant that no output needs any more become what was in force before the others. -/
def Meas.trim (m : Meas) (t : Nat) : Meas :=
  { m with cal := inForce m.cal m.cals (fun a => decide (a < t)), cals := m.cals.filter (fun x => decide (t ≤ x.1)),
           rate := inForce m.rate m.rates (fun a => decide (a < t)), rates := m.rates.filter (fun x => decide (t ≤ x.1)) }

/-- At a load of TB_NOW with x: changes whose first output is still to come date from x, the others have long been in force; the
filters' outputs fall on the new numbering (R35, R85, R87, R89). [DEDUCED, log 27] -/
def Meas.renumber (m : Meas) (old x : Nat) : Meas :=
  let move (p : Option (Nat × Nat)) : Option (Nat × Nat) := p.map (fun q => (q.1, q.2 + x - old))
  { m with cal := inForce m.cal m.cals (fun a => decide (a < m.fromT)),
           cals := (m.cals.filter (fun c => decide (m.fromT ≤ c.1))).map (fun c => (x, c.2)),
           rate := inForce m.rate m.rates (fun a => decide (a + 1 < m.fromT)),
           rates := (m.rates.filter (fun c => decide (m.fromT ≤ c.1 + 1))).map (fun c => (x, c.2)),
           ratePend := move m.ratePend, rateAt := 0, fromT := x, temps := [], fastMarks := [],
           fi := { m.fi with latch := [], next := none }, fv := { m.fv with latch := [], next := none },
           a := { m.a with fi := { m.a.fi with latch := [], next := none }, fv := { m.a.fv with latch := [], next := none } },
           b := { m.b with fi := { m.b.fi with latch := [], next := none }, fv := { m.b.fv with latch := [], next := none } },
           zi := [], zv := [] }

/-! ### Calibration commits (R90) -/

/-- The staged coefficients of a channel. -/
def Dev.staged (d : Dev) (v k : Nat) : Cal :=
  { ig := d.f (Reg.VAT_CAL_IG_VALUE v k), io := signed 32 (d.f (Reg.VAT_CAL_IO_VALUE v k)),
    vg := d.f (Reg.VAT_CAL_VG_VALUE v k), vo := signed 32 (d.f (Reg.VAT_CAL_VO_VALUE v k)) }

/-- The staged coefficients as they stood at a commit's loop-period start (R90). [DEDUCED, log 37] -/
def Dev.stagedAt (d : Dev) (v k : Fin 16) (a : Nat) : Cal :=
  match ((d.vats[v]).calSets).find? (fun x => x.1 == a && x.2.1 == k.1) with
  | some x => x.2.2
  | none => d.staged v.1 k.1

/-- A write changes the staged coefficients of a channel: commits whose start has come keep the set as it was (R90).
[DEDUCED, log 37] -/
def Dev.keepStaged (d : Dev) (v k : Fin 16) (old : Cal) : Dev :=
  d.modVat v (fun x =>
    let due := (x.calReq.filter (fun q => decide (q.at_ ≤ d.now) && q.mask.testBit k.1 &&
      !x.calSets.any (fun y => y.1 == q.at_ && y.2.1 == k.1))).map (fun q => (q.at_, k.1, old))
    { x with calSets := x.calSets ++ due })

/-- A commit is judged for one channel at its loop-period start: in force from that instant if the channel is IDLE then, else
refused and logged (R90). [DEDUCED, log 37] -/
def Dev.calJudge (d : Dev) (v k : Fin 16) (q : CalReq) : Dev :=
  if (d.chan v k).stBefore q.at_ = .idle then
    let new := d.stagedAt v k q.at_
    (d.modMeas v k (fun m => if new = m.calNow then m else { m with cals := (q.at_, new) :: m.cals })).bump
      (Reg.VAT_CAL_GEN_GEN v.1 k.1)
  else d.logRefused ⟨v16 q.master, q.secure, 0⟩ (Reg.VAT_CAL_COMMIT_at v.1)

/-- The commits of a vat at a, their loop-period start, are judged for the channels of a mask, and those bits of them are done. -/
def Dev.calPass (d : Dev) (v : Fin 16) (a mask : Nat) : Dev :=
  let due := ((d.vats[v]).calReq).filter (fun q => q.at_ == a)
  let d := d.modVat v (fun x => { x with calReq := (x.calReq.map (fun q =>
    if q.at_ = a then { q with mask := q.mask - (q.mask &&& mask) } else q)).filter (fun q => q.mask != 0) })
  let d := due.foldl (fun d q => (maskList (q.mask &&& mask)).foldl (fun d k => d.calJudge v k q) d) d
  d.modVat v (fun x => { x with calSets := x.calSets.filter (fun y => x.calReq.any (fun q => q.at_ == y.1)) })

/-- A commit still waits for the channel, for a computation of a tick before its loop-period start (R90). [DEDUCED, log 37] -/
def Dev.calWaits (d : Dev) (v k : Fin 16) (t : Nat) : Bool :=
  ((d.vats[v]).calReq).any (fun q => q.mask.testBit k.1 && decide (q.at_ ≤ t))

/-- After the computation of tick t, the commits of the next loop-period start that waited for it are judged. [DEDUCED, log 37] -/
def Dev.calFinish (d : Dev) (v k : Fin 16) (t : Nat) : Dev :=
  let a := (t / 400 + 1) * 400
  if a ≤ d.now then d.calPass v a (2 ^ k.1) else d

/-! ### Charge and energy (R171–R173) -/

/-- The exact numerator n of R171. -/
def chargeN (z : Int) (fs g : Nat) (o : Int) : Int := z * fs * g + o * (7 * 2 ^ 54)

/-- i8 and v8 (R171, R172): 1/256 µA or µV. -/
def to8 (n : Int) : Int := roundDiv n (7 * 2 ^ 46)

/-- Add a signed amount to a lifetime pair by sign, saturating (R173). -/
def lifeAdd (pos neg : Nat) (x : Int) : Nat × Nat :=
  let top := 2 ^ 104 - 1
  if 0 ≤ x then (min top (pos + x.toNat), neg) else (pos, min top (neg + (-x).toNat))

/-- Add to a saturating s72 step total (R173); a saturated total stays. -/
def stepAdd (tot x : Int) : Int :=
  if tot = -(2 ^ 71) ∨ tot = 2 ^ 71 - 1 then tot else clamp (-(2 ^ 71)) (2 ^ 71 - 1) (tot + x)

/-- The step's range contains an instant (R174). -/
def StepTot.contains (s : StepTot) (a : Int) : Bool :=
  (s.t0 : Int) ≤ a && (match s.tEnd with | some e => a < (e : Int) | none => true)

/-- Add output m's charge to the step that holds its attribution instant (R174). -/
def stepsAddQ (ss : List StepTot) (m : Nat) (x : Int) : List StepTot :=
  ss.map (fun s =>
    let s := if s.contains (attrib m) then
        let q := stepAdd s.q x
        { s with q := q, qSat := if (q = -(2 ^ 71) ∨ q = 2 ^ 71 - 1) ∧ s.qSat.isNone then some m else s.qSat }
      else s
    match s.tEnd with
    | some e => if (e : Int) ≤ attrib (m + 1) then { s with closed := true } else s
    | none => s)

/-- Add a unit's energy to the step that holds the attribution instant of its current output. -/
def stepsAddE (ss : List StepTot) (m : Nat) (x : Int) : List StepTot :=
  ss.map (fun s =>
    if s.contains (attrib m) then
      let e := stepAdd s.e x
      { s with e := e, eSat := if (e = -(2 ^ 71) ∨ e = 2 ^ 71 - 1) ∧ s.eSat.isNone then some m else s.eSat }
    else s)

/-- The value filed under an index. -/
def findIdx (xs : List (Nat × Int)) (m : Nat) : Option Int :=
  match xs with
  | [] => none
  | (m', x) :: rest => if m' = m then some x else findIdx rest m

/-- Energy unit j of current output m, its calibrated current and voltage given (R172). -/
def Integ.unit (g : Integ) (m j : Nat) (i v : Int) : Integ :=
  let t := v * i + g.re
  let de := floorDiv t 640000000
  let life := lifeAdd g.eIn g.eOut de
  let past := match g.cut with | some c => decide (c < 160 * (j + 1)) && g.cutE.isNone | none => false
  { g with cutE := if past then some (g.eIn, g.eOut) else g.cutE,
           re := t - de * 640000000, eIn := life.1, eOut := life.2, steps := stepsAddE g.steps m de }

/-- Integrate every unit whose current and voltage outputs are both formed, in order (R172): the oldest current output holds the
units [4m − 4, 4m), the oldest voltage output [16m' − 34, 16m' − 18); the units they share are integrated, and the output whose
credit ends first is done with. -/
def Integ.units (g : Integ) : Nat → Integ
  | 0 => g
  | n + 1 =>
    match g.i8, g.v8 with
    | (m, i) :: is, (m', v) :: vs =>
      let a := Nat.max (4 * m - 4) (16 * m' - 34)
      let g := forEach (Nat.min (4 * m) (16 * m' - 18) - a) g (fun g x => g.unit m (a + x) i v)
      { g with i8 := if 4 * m ≤ 16 * m' - 18 then is else (m, i) :: is,
               v8 := if 16 * m' - 18 ≤ 4 * m then vs else (m', v) :: vs }.units n
    | _, _ => g

/-- Integrate the units that have become complete. -/
def Integ.energy (g : Integ) : Integ := g.units (g.i8.length + g.v8.length)

/-- Integrate one current output (R171–R174). -/
def Integ.current (g : Integ) (z : ZOut) (fs gain : Nat) (o : Int) : Integ :=
  let n := chargeN z.z fs gain o
  let t := n + g.rq
  let den : Int := 35 * 2 ^ 43
  let dq := floorDiv t den
  let life := lifeAdd g.qIn g.qOut dq
  let past := match g.cut with | some c => decide (c < 640 * z.m) && g.cutQ.isNone | none => false
  let steps := stepsAddQ g.steps z.m dq
  let own := match steps.find? (fun s => s.contains (attrib z.m)) with | some s => (s.id, s.q) | none => (0, 0)
  { g with rq := t - dq * den, qIn := life.1, qOut := life.2, steps := steps,
           cutQ := if past then some (g.qIn, g.qOut) else g.cutQ,
           i8 := g.i8 ++ [(z.m, to8 n)], hist := (z.m, own) :: g.hist }.energy

/-- Take one voltage output (R172). -/
def Integ.voltage (g : Integ) (z : ZOut) (fs gain : Nat) (o : Int) : Integ :=
  { g with v8 := g.v8 ++ [(z.m, to8 (chargeN z.z fs gain o))] }.energy

/-- The closed internal charge of a step range with 8 fractional bits, once it is closed (R175). -/
def Integ.closedOf (g : Integ) (id : Nat) : Option Int :=
  match g.steps.find? (fun s => s.id == id) with
  | some s => if s.closed then some s.q else none
  | none => some 0

/-- The sum of internal totals of the members of a gang, saturating, as it is reported: pC or pJ (R173, R176). -/
def reported (xs : List Int) : Int := shr (xs.foldl (fun a x => clamp (-(2 ^ 71)) (2 ^ 71 - 1) (a + x)) 0) 8

/-- The internal totals of a step as they stand, with 8 fractional bits (R173), and as they are reported: pC and pJ. -/
def Integ.stepRaw (g : Integ) (id : Nat) : Int × Int :=
  match g.steps.find? (fun s => s.id == id) with
  | some s => (s.q, s.e)
  | none => (0, 0)
def Integ.stepNow (g : Integ) (id : Nat) : Int × Int := (shr (g.stepRaw id).1 8, shr (g.stepRaw id).2 8)

/-- Q_STEP counting every output of the step with a_m before t (R181), in pC. -/
def Integ.stepUntil (g : Integ) (id t : Nat) : Int :=
  match g.hist.find? (fun h => h.2.1 == id && attrib h.1 < (t : Int)) with
  | some h => shr h.2.2 8
  | none => 0

/-- The charges before an instant that no record counts any more are forgotten. -/
def Integ.trim (g : Integ) (t : Nat) : Integ :=
  let new (h : Nat × Nat × Int) : Bool := decide ((t : Int) ≤ attrib h.1)
  { g with hist := g.hist.takeWhile new ++ (g.hist.dropWhile new).take 1 }

/-- The complete state of the two integrators is equal, the copy kept for a checkpoint, which is A's alone, set aside (R180). -/
def Integ.agrees (a b : Integ) : Bool := { a with cut := b.cut, cutQ := b.cutQ, cutE := b.cutE } == b

/-- Compare a channel's two integrators (R180). -/
def Dev.divergeChan (d : Dev) (v k : Fin 16) : Dev :=
  let m := (d.vats[v]).meas[k]
  if m.a.agrees m.b || d.tb (Reg.VAT_LDG_DIV_CH v.1) k.1 then d
  else (d.setTb (Reg.VAT_LDG_DIV_CH v.1) k.1 true).pend 91

/-- Before output at `at_` is integrated, a comparison whose instant lies before it is made (R180). -/
def Dev.diverge (d : Dev) (v k : Fin 16) (at_ : Nat) : Dev :=
  let x := (d.vats[v]).div
  if x.2.testBit k.1 && decide (x.1 < at_) then
    (d.modVat v (fun y => { y with div := (x.1, setBit x.2 k.1 false) })).divergeChan v k
  else d

/-- Make every comparison still to be made, but those of some channels. -/
def Dev.divergeBut (d : Dev) (v : Fin 16) (late : Nat) : Dev :=
  (maskList ((d.vats[v]).div.2 - ((d.vats[v]).div.2 &&& late))).foldl (fun d k => d.divergeChan v k)
    (d.modVat v (fun x => { x with div := (x.div.1, x.div.2 &&& late) }))

/-- Make every comparison still to be made. -/
def Dev.divergeAll (d : Dev) (v : Fin 16) : Dev := d.divergeBut v 0

/-- The word of a channel as the precision path takes it, for both integrators (R78, R170). -/
def Meas.word (m : Meas) (cur : Bool) (t8 : Nat) (x : Int) (sus : Bool) : Meas :=
  let modf := x == -8
  let y := if modf then 0 else x
  if cur then
    { m with a := { m.a with fi := m.a.fi.push 640 t8 y sus modf },
             b := { m.b with fi := m.b.fi.push 640 t8 y sus modf } }
  else
    { m with a := { m.a with fv := m.a.fv.push 2560 t8 y sus modf },
             b := { m.b with fv := m.b.fv.push 2560 t8 y sus modf } }

/-- Form and integrate the oldest due sinc4 output of a quantity, in both integrators; its marks stand until the next checkpoint
(R83, R170–R172, R193). -/
def Meas.sinc4 (m : Meas) (cur : Bool) (iFs vFs : Nat) : Option (ZOut × Meas) :=
  if cur then
    match m.a.fi.pop, m.b.fi.pop with
    | some (z, fa), some (zb, fb) =>
      let c := m.calAtTick (640 * z.m)
      some (z, { m with a := { m.a with fi := fa }.current z iFs c.ig c.io,
                        b := { m.b with fi := fb }.current zb iFs c.ig c.io,
                        zi := (z :: m.zi).take 700, ckModf := m.ckModf || z.modf, ckSus := m.ckSus || z.sus })
    | _, _ => none
  else
    match m.a.fv.pop, m.b.fv.pop with
    | some (z, fa), some (zb, fb) =>
      let c := m.calAtTick (2560 * z.m - 2880)
      some (z, { m with a := { m.a with fv := fa }.voltage z vFs c.vg c.vo,
                        b := { m.b with fv := fb }.voltage zb vFs c.vg c.vo,
                        zv := (z :: m.zv).take 190, ckModf := m.ckModf || z.modf, ckSus := m.ckSus || z.sus })
    | _, _ => none

end Sys2Proof.Machine
end

