-- ==== Sys2Proof/Machine/LoopOps.lean ====
section
/-!
DEFINITION. What one loop computation is made of (R97–R120, R135–R141, R157–R158): step validation, starting and
ending a step, phases, protections, end conditions, mode targets and the control law.
-/

namespace Sys2Proof.Machine
open Sys2Proof

/-! ### Step set-up -/

/-- A tuning block from its 64 bytes (R102). -/
def Tuning.ofBytes (bs : List Byte) : Tuning :=
  let u (o n : Nat) := ofLeBytes ((bs.drop o).take n)
  { kp := u 0 4, ki := u 4 4, kpv := u 8 4, kiv := u 12 4, kx := u 16 4, intLim := u 20 4, soft := u 24 4,
    ramp := u 28 4, zeroBand := u 32 4, iMax := u 36 4, vMax := signed 32 (u 40 4), vMin := signed 32 (u 44 4),
    tMax := signed 32 (u 48 4), track := u 52 4, trackT := u 56 2, dsatT := u 58 2, dmin := u 60 2, dmax := u 62 2 }

/-- Tuning block t of vat v as vat SRAM holds it (R102). -/
def State.tuning (s : State) (v : Fin 16) (t : Nat) : Tuning :=
  Tuning.ofBytes (Mem.reads s.mem s.dev.ep (0x18000000 + v.1 * 0x40000 + 64 * t) 64)

/-- Number of channels a step moves: N of R139. -/
def Desc.count (x : Desc) : Nat := if x.isGang then (maskList x.members).length else 1

/-- A GANG set-up obeys R137: 2–16 members, the lowest being the channel the step is issued to, an inner mode, zeros above
it, and level times for PULSE only. -/
def Desc.gangOk (x : Desc) (k : Fin 16) : Bool :=
  2 ≤ x.count && (maskList x.members).head? == some k && 1 ≤ x.law.mode && x.law.mode ≤ 6 &&
  bits (pattern 32 x.spA) 20 12 == 0 && (x.law.mode == 6 || x.spD == 0)

/-- Why a start is refused by the tests of R103: BAD_MODE, BAD_TUNING, or not at all. [DEDUCED, log 46] -/
def Desc.refusal (x : Desc) (t : Tuning) (k : Fin 16) : Option Nat :=
  let l := x.law
  if x.mode = 0 ∨ 0xC ≤ x.mode ∨ (x.isGang ∧ !x.gangOk k) ∨ (l.mode = 6 ∧ (l.c < 1 ∨ l.d < 1)) then some 0x44
  else if 31 < x.tune ∨ t.kp = 0 ∨ t.dmax ≤ t.dmin ∨ t.soft = 0 ∨ t.ramp = 0 ∨ t.iMax = 0 ∨ 0x7FFFFFFF < t.iMax ∨
      t.intLim = 0 ∨ 0x7FFFFFFF < t.intLim ∨ t.vMax ≤ t.vMin ∨ (l.mode = 4 ∧ t.vMin < 100000) ∨
      (l.mode = 5 ∧ l.a < 1000) then some 0x43
  else none

/-! ### Arming (R110, R116) -/

/-- The BOARD condition of R114: VBUS_OV, BRD_OVT or GATE_SUP reported, or the bus below half of VBUS_MIN. -/
def Dev.boardCond (d : Dev) (v : Fin 16) : Bool :=
  ((d.vats[v]).boardFlags / 2 % 8 != 0) || 2 * d.f (Reg.VAT_VBUS_VBUS v.1) < bits (d.desc v 6) 0 16 * 1000

/-- A safe stop, a BOARD condition or a lane that is not ACTIVE prevents arming, and holds a start (R110, R114, R116).
[DEDUCED, log 50] -/
def Dev.armBarred (d : Dev) (v : Fin 16) : Bool := d.safeStop || d.boardCond v || d.laneState v != laneActive

/-- Arming is allowed on the channel (R110). -/
def Dev.armAllowed (d : Dev) (v k : Fin 16) : Bool := !d.modf v k && !d.armBarred v

/-- Queue the one KCLR that names the channels of a mask (R61, R110). -/
def Dev.queueKclr (d : Dev) (v : Fin 16) (mask : Nat) : Dev :=
  d.modLane v (fun l => { l with cfgQ := l.cfgQ ++ [{ op := 3, data := mask + 2 ^ 16 * (2 ^ 16 - 1 - mask) }] })

/-! ### Phases (R135, R136, R141) -/

/-- Insert into a rising list. -/
def insertNat (x : Nat) : List Nat → List Nat
  | [] => [x]
  | y :: ys => if x ≤ y then x :: y :: ys else y :: insertNat x ys

/-- The occupied phases of a vat, rising: those of its channels in SOFT, RUN and RAMP (R135). -/
def Dev.occupied (d : Dev) (v : Fin 16) : List Nat :=
  (List.finRange 16).foldl (fun xs k =>
    match (d.chan v k).phase with
    | some p => if (d.chan v k).st.drives then insertNat p xs else xs
    | none => xs) []

/-- The largest circular gap of a rising list, the lowest start on ties: (length, start) (R136). -/
def bestGap (first : Nat) : List Nat → Nat × Nat → Nat × Nat
  | [], best => best
  | [a], best => if first + 256 - a > best.1 then (first + 256 - a, a) else best
  | a :: b :: rest, best => bestGap first (b :: rest) (if b - a > best.1 then (b - a, a) else best)

/-- The phase a channel entering SOFT takes (R136). -/
def Dev.newPhase (d : Dev) (v : Fin 16) : Nat :=
  match d.occupied v with
  | [] => d.f (Reg.VAT_BAL_CFG_PH_OFS v.1)
  | p :: ps =>
    let g := bestGap p (p :: ps) (0, 0)
    (g.2 + g.1 / 2) % 256

/-- Channels enter SOFT: r and the integrators zero (R111). -/
def Dev.enterSoft (d : Dev) (v : Fin 16) (ks : List (Fin 16)) (t : Nat) : Dev :=
  ks.foldl (fun d k => (d.modChan v k (fun c => { c.quiet with softFirst := true })).enter v k .soft t) d

/-- The first computation in SOFT takes the channel's phase word, and of a gang's first one all its members' (R135, R136,
R141). Computations come in order of k. [DEDUCED, log 50] -/
def Dev.takePhase (d : Dev) (v k : Fin 16) : Dev :=
  if (d.chan v k).phase.isSome then d
  else
    let phi := d.newPhase v
    let ks := maskList (d.gangMask v k)
    ks.zipIdx.foldl (fun d kj => d.modChan v kj.1 (fun c => { c with phase := some ((phi + 256 * kj.2 / ks.length) % 256) })) d

/-- A driving mode would start within CLOSE_DLY of the channel's last OPEN command (R109). -/
def Dev.closeDue (d : Dev) (v k : Fin 16) (t : Nat) : Bool :=
  match (d.chan v k).lastOpen with
  | some o => t < o + 40000 * d.f (Reg.VAT_LOOP_CFG_CLOSE_DLY v.1)
  | none => false

/-- From IDLE with KLATCH = 0, or from ARM once armed: PASSIVE, CLOSE if due, or SOFT (R109, R110). -/
def Dev.afterArm (d : Dev) (v k : Fin 16) (x : Desc) (t : Nat) : Dev :=
  let ks := x.channels k
  if x.passive then d.enterQuiet v k .passive t
  else if ks.any (fun m => d.closeDue v m t) then ks.foldl (fun d m => d.enter v m .close t) d
  else d.enterSoft v ks t

/-! ### Rate changes (R85) -/

/-- The first multiple of the longer of two rate periods after t (R85). [DEDUCED, log 38, 113] -/
def rateInstant (old new t : Nat) : Nat :=
  let p := ratePeriod (max old new)
  (t / p + 1) * p

/-- A change that has taken effect after instant t is pending at t. -/
def Meas.unchange (m : Meas) (t : Nat) : Meas :=
  match m.rates with
  | (a, code) :: rest => if t < a then { m with rates := rest, ratePend := some (code, a) } else m
  | [] => m

/-- The pending change takes effect once its instant has come (R85). -/
def Meas.change (m : Meas) (now : Nat) : Meas :=
  match m.ratePend with
  | some (code, tc) => if tc ≤ now then { m with ratePend := none, rates := (tc, code) :: m.rates } else m
  | none => m

/-- A write of a channel's precision rate at instant t (R85): a pending change is replaced; the rate in force cancels
it. [DEDUCED, log 38] -/
def Meas.writeRate (m : Meas) (code t : Nat) : Meas :=
  let m := m.unchange t
  if code = m.rateNow then { m with ratePend := none } else { m with ratePend := some (code, rateInstant m.rateNow code t) }

/-- The PRATE field of a channel. -/
def prateField (v k : Nat) : RF :=
  ⟨Reg.VAT_PRATE_at v (k / 8), 4 * (k % 8), 4, 0, true⟩

/-! ### Starting a step (R109, R110, R126) -/

/-- GANG_BUSY: a member other than the leader belongs to another slice, has a running, held or queued step, or runs or is armed in
another gang (R138). A gang whose step has ended and that still ramps down keeps the start held. -/
def Dev.gangBusy (d : Dev) (v k : Fin 16) (x : Desc) : Bool :=
  (x.channels k).any (fun m => m != k &&
    ((d.chan v m).owner != (d.chan v k).owner || (d.chan v m).run.isSome || !(d.chan v m).queue.isEmpty ||
      (match (d.chan v m).gang with
        | some l => l != k && ((d.chan v l).run.isSome || (d.chan v m).st == .arm)
        | none => false)))

/-- Make the head entry the running step, its boundary instant t: ledger ranges open, the tuning block is copied,
the STREAM rate is written (R101–R103, R109, R151, R174). -/
def Dev.begin (d : Dev) (tb : Nat → Tuning) (v k : Fin 16) (e : QEntry) (t : Nat) : Dev :=
  let x := e.d
  let prog := 400000 * d.f (Reg.SLC_RING_CTL_PROG_MS (d.chan v k).slice)
  let since := if e.deferred then e.relAt.getD t else (e.pendAt <|> e.headAt).getD t
  let r : Running :=
    { d := x, id := d.stepN + 1, t0 := t, deferred := e.deferred, balDeferred := e.balDeferred, late := e.late,
      delay := t - since, resv := e.resv.getD {}, nextProg := t + prog }
  let d := d.setStepN (d.stepN + 1)
  let d := d.modChan v k (fun c => { c with run := some r, queue := c.queue.drop 1, setup := x, cvAct := false })
  let d := (x.channels k).foldl (fun d m =>
    let d := d.openRange v m { id := r.id, t0 := t, stepIdx := x.stepIdx, tag := x.tag, stream := x.stream % 8,
                               gang := x.isGang }
    let d := d.modChan v m (fun c => { c with tune := tb x.tune, tuneIdx := x.tune, setup := x, outs := [],
                                              gang := if x.isGang then some k else none })
    let code := bits x.stream 3 4
    if code < 5 && !decide (t < ((d.vats[v]).meas[m]).rateAt) then
      (d.setF (prateField v.1 m.1) code).modMeas v m (fun y => (y.writeRate code t).change d.now)
    else d) d
  d.settle v k t 9

/-- The gang or channel ramps down from instant t (R113). -/
def Dev.startRamp (d : Dev) (v : Fin 16) (ks : List (Fin 16)) (t : Nat) (rate : Option Nat) (toPassive : Bool) : Dev :=
  ks.foldl (fun d k =>
    (d.modChan v k (fun c => { c with orphanRate := rate, toPassive := toPassive, zeroN := 0 })).enter v k .ramp t) d

/-- A successor that follows its predecessor without a ramp to IDLE (R109, R140): neither is a gang, both are the same gang,
or a gang follows a passive step. -/
def smooth (x y : Desc) : Bool := (!x.isGang && (!y.isGang || x.passive)) || (x.isGang && y.isGang && x.members == y.members)

/-- Start the head step of a channel at its tick t, from IDLE, PASSIVE, SOFT or RUN (R103, R109, R110, R116, R138): all of a gang
arm together where a latch is set; in any other state the start is held. [DEDUCED, log 50] -/
def Dev.startHead (d : Dev) (tb : Nat → Tuning) (v k : Fin 16) (t : Nat) : Dev :=
  match (d.chan v k).queue with
  | [] => d
  | e :: _ =>
    let x := e.d
    let c := d.chan v k
    let ks := x.channels k
    let rests := c.st == .idle || (c.st == .passive && x.isGang)
    match x.refusal (tb x.tune) k with
    | some status => d.dropHead v k status 0 t
    | none =>
      if !(c.st == .idle || c.st == .passive || c.st == .soft || c.st == .run) then d.holdHead v k t
      else if d.gangBusy v k x then d.dropHead v k 0x38 0 t
      else if ks.any (fun m => d.modf v m) then d.dropHead v k 0x32 0 t
      else if rests && (d.armBarred v || ks.any (fun m => (d.chan v m).st == .ramp || (d.chan v m).st == .killed)) then
        (if c.st = .idle then d else d.enterQuiet v k .idle t).holdHead v k t
      else if rests && ks.any (fun m => d.klatch v m) then
        let d := d.begin tb v k e t
        let d := ks.foldl (fun d m => d.enter v m .arm t) d
        d.queueKclr v (ks.foldl (fun a m => a + 2 ^ m.1) 0)
      else if rests && ks.any (fun m => (d.chan v m).win.v < -200000) then
        let d := ks.foldl (fun d m => d.modChan v m (fun c => c.stopBy m 15 t)) d
        (if c.st = .idle then d else d.enterQuiet v k .idle t).dropHead v k 0x31 15 t
      else
        let volts := x.law.mode == 2 || x.law.mode == 3
        let d := d.begin tb v k e t
        match c.st with
        | .soft | .run =>
          if x.passive then d.startRamp v ks t none true
          else ks.foldl (fun d m =>
            (d.modChan v m (fun c => { c with xv := if volts then c.r * 2 ^ 24 else 0, softFirst := false })).enter
              v m .run t) d
        | .passive =>
          if x.passive then d.enterQuiet v k .passive t else d.afterArm v k x t
        | _ => d.afterArm v k x t

/-- A report shows KLATCH = 0 for a channel in ARM without a modulator fault (R79, R93, R110): the channel, or its whole gang
once every member shows it, moves on; a step armed ahead of its instant rests in IDLE (R112). [DEDUCED, log 50] -/
def Dev.armed (d : Dev) (v k : Fin 16) (t : Nat) : Dev :=
  let d := d.modGuard v k (fun g => { g with tripped := false })
  let d := d.modChan v k (fun c => { c with killedSinceArm := false })
  let lead := d.leadOf v k
  match (d.chan v lead).run with
  | some r =>
    if (r.d.channels lead).all (fun m => (d.chan v m).st == .arm && !d.klatch v m && !d.modf v m) then d.afterArm v lead r.d t
    else d
  | none => d.enterQuiet v k .idle t

/-! ### Protections (R114, R115) -/

/-- What a protection does, weakest first. -/
inductive Action where
  | event | stepEnds | ramp | kill
  deriving DecidableEq, Repr

/-- Order of strength. -/
def Action.rank : Action → Nat
  | .event => 0 | .stepEnds => 1 | .ramp => 2 | .kill => 3

/-- One protection met: stop code, action, instant of the violating sample, sample and limit. -/
structure Met where
  code : Nat
  act : Action
  at_ : Nat
  x : Int := 0
  lim : Int := 0
  deriving DecidableEq, Repr

/-- A protection of the table, in the column of the channel's state. -/
def metIf (p : Bool) (code : Nat) (drv pas : Action) (drives : Bool) (at_ : Nat) (x lim : Int) : List Met :=
  if p then [⟨code, if drives then drv else pas, at_, x, lim⟩] else []

/-- A check on the half sample, then on the window sample (R114): whichever violates first. [DEDUCED, log 106] -/
def metSample (bad : Fast → Bool) (val : Fast → Int) (c : Chan) (t code : Nat) (drv pas : Action) (drives : Bool)
    (lim : Int) : List Met :=
  if bad c.half then [⟨code, if drives then drv else pas, t - 200, val c.half, lim⟩]
  else if bad c.win then [⟨code, if drives then drv else pas, t, val c.win, lim⟩] else []

/-- The protections met in a computation of a channel that drives or is passive (R114). [DEDUCED, log 44] -/
def Dev.protections (d : Dev) (v k : Fin 16) (t : Nat) : List Met :=
  let c := d.chan v k
  let g := (d.vats[v]).guards[k]
  let u := c.tune
  let dr := c.st.drives
  metSample (fun s => u.iMax < s.i.natAbs) (·.i) c t 1 .kill .event dr u.iMax ++
  metSample (fun s => u.vMax < s.v) (·.v) c t 2 .kill .stepEnds dr u.vMax ++
  metSample (fun s => s.v < u.vMin) (·.v) c t 3 .ramp .event dr u.vMin ++
  (match g.temp with
    | some x => metIf (u.tMax < x) 4 .ramp .stepEnds dr t x u.tMax
    | none => []) ++
  metIf (c.st == .run && u.trackT != 0 && u.trackT ≤ c.trackN) 5 .ramp .ramp true t 0 0 ++
  metIf (dr && u.dsatT != 0 && u.dsatT ≤ c.dsatN) 6 .ramp .ramp true t 0 0 ++
  metIf (d.modf v k) 7 .kill .stepEnds dr t 0 0 ++
  metIf g.hwOc 8 .kill .stepEnds dr t 0 0 ++
  metIf (d.boardCond v) 9 .kill .stepEnds dr t 0 0 ++
  metIf (d.klatch v k && !c.killedSinceArm) 10 .kill .stepEnds dr t 0 0

/-- The protection that acts: the strongest action, then the lowest code (R114). -/
def strongest : List Met → Option Met
  | [] => none
  | m :: ms =>
    match strongest ms with
    | none => some m
    | some n => if n.act.rank > m.act.rank then some n else some m

/-- Completion values exist for stop codes 1–4 only (R165). -/
def Met.viol (m : Met) : Option (Int × Int) := if m.code ≤ 4 then some (m.x, m.lim) else none

/-- A protection that ends a passive step: it completes with the stop code and the channel is IDLE. -/
def Dev.protectPassive (d : Dev) (v k : Fin 16) (m : Met) (t : Nat) : Dev :=
  let d := d.modChan v k (fun c => c.stopBy k m.code t)
  ((d.endStepAt v k 0x20 m.code m.at_ t m.viol).enterQuiet v k .idle t).raise (Reg.VAT_PROT_EVT_PROT v.1) (2 ^ k.1) v.1

/-- A protection that kills: one KILL for the channel, or for its whole gang (R114, R140). LATCH sends no KILL.
[DEDUCED, log 106, 136] -/
def Dev.protectKill (d : Dev) (v k : Fin 16) (m : Met) (t : Nat) : Dev :=
  let mask := d.gangMask v k
  let lead := d.leadOf v k
  let d := if m.code = 10 then d else (d.queueKill v mask 0x04).withdrawKclr v mask
  let d := d.killChans v lead mask m.code m.at_ t m.viol
  d.raise (Reg.VAT_PROT_EVT_PROT v.1) mask v.1

/-- A protection that ramps the channel, or its whole gang, down (R114, R140). [DEDUCED, log 106, 135] -/
def Dev.protectRamp (d : Dev) (v k : Fin 16) (m : Met) (t : Nat) : Dev :=
  let mask := d.gangMask v k
  let lead := d.leadOf v k
  let ks := maskList mask
  let ramping := (d.chan v lead).st == .ramp && (d.chan v lead).run.isNone
  let d := ks.foldl (fun d j => d.modChan v j (fun c => c.stopBy j m.code t)) d
  let d := if ramping then d else
    (d.endStepAt v lead 0x20 m.code m.at_ t m.viol).startRamp v ks t none false
  d.raise (Reg.VAT_PROT_EVT_PROT v.1) mask v.1

/-- The BOARD protection acts on every channel of the vat (R114). -/
def Dev.protectBoard (d : Dev) (v : Fin 16) (m : Met) (t : Nat) : Dev :=
  let drv := (List.finRange 16).foldl (fun a k => if (d.chan v k).st.drives then a + 2 ^ k.1 else a) 0
  let d := d.eachChan (fun d k => if (d.chan v k).st == .passive then d.protectPassive v k m t else d)
  let d := if drv = 0 then d else (d.queueKill v drv 0x04).withdrawKclr v drv
  let d := d.killChans v 0 drv m.code t t none
  d.raise (Reg.VAT_PROT_EVT_PROT v.1) drv v.1

/-- Step 1 of R115: the protection that acts, if one does. [DEDUCED, log 43] -/
def Dev.protect (d : Dev) (v k : Fin 16) (t : Nat) : Dev × Bool :=
  let c := d.chan v k
  if c.st.drives || c.st == .passive then
    match strongest (d.protections v k t) with
    | none => (d, false)
    | some m =>
      match m.act with
      | .event => (d.raise (Reg.VAT_PROT_EVT_PROT v.1) (2 ^ k.1) v.1, false)
      | .stepEnds => (if m.code = 9 then d.protectBoard v m t else d.protectPassive v k m t, true)
      | .ramp => (d.protectRamp v k m t, true)
      | .kill => (if m.code = 9 then d.protectBoard v m t else d.protectKill v k m t, true)
  else (d, false)

/-! ### Stops (R17, R152) -/

/-- A head step that a stop withdraws: armed, held, budget-deferred, or waiting for its instant. -/
def Chan.withdraws (c : Chan) (e : QEntry) : Bool := e.heldAt.isSome || e.deferAt.isSome || e.d.sync || c.st == .arm

/-- A slice stop acts on a channel: the running step ends with the status; a driving channel ramps down, another goes
IDLE; without a running step, an armed, held or budget-deferred head completes unstarted. -/
def Dev.stopChan (d : Dev) (v k : Fin 16) (status info t : Nat) (rate : Option Nat) : Dev :=
  let c := d.chan v k
  match c.run with
  | some r =>
    let ks := r.d.channels k
    let st := c.st
    let d := d.withdrawKclr v (ks.foldl (fun a m => a + 2 ^ m.1) 0)
    let d := d.endStep v k status info t
    if st = .ramp then ks.foldl (fun d m => d.modChan v m (fun c => { c with toPassive := false })) d
    else if st.drives then d.startRamp v ks t rate false
    else if st = .killed then d
    else ks.foldl (fun d m => d.enterQuiet v m .idle t) d
  | none =>
    match c.queue with
    | [] => d
    | e :: _ =>
      if c.withdraws e then (d.unarm v k t).dropHead v k status info t
      else d

/-- FLUSH (R152): every queued step that has not started completes with FLUSHED. [DEDUCED, log 107] -/
def Dev.flushQueue (d : Dev) (v k : Fin 16) (t : Nat) : Dev :=
  (if (d.chan v k).run.isNone then d.unarm v k t else d).dropQueue v k 0x3A t

/-- The FLUSH of an ABORT leaves the head step its STOP withdraws, which completes with STOPPED (R152, R165, R218).
[DEDUCED, log 107] -/
def Dev.flushBehind (d : Dev) (v k : Fin 16) (t : Nat) : Dev :=
  let c := d.chan v k
  match c.run, c.queue with
  | none, e :: rest =>
    if c.withdraws e then
      (rest.foldl (fun d e => d.dropEntry v k e 0x3A 0 t) d).modChan v k (fun c => { c with queue := c.queue.take 1 })
    else d.flushQueue v k t
  | _, _ => d.flushQueue v k t

/-! ### End conditions (R157, R158) -/

/-- Kind and action of condition n (R157). -/
def Desc.ecKind (x : Desc) (n : Nat) : Nat := bits x.ecCtl (5 * n) 4
def Desc.ecFail (x : Desc) (n : Nat) : Bool := x.ecCtl.testBit (5 * n + 4)

/-- The voltage one second before an output (kind 9). -/
def Chan.vBefore (c : Chan) (t : Nat) : Option Int := findIdx c.vHist (t - 400000000)

/-- Does one precision output satisfy condition n of the step? `none`: it neither counts nor resets the hold. -/
def ecMeets (c : Chan) (x : Desc) (n : Nat) (o : Prec) : Option Bool :=
  let lim := (x.ec.getD n 0)
  match x.ecKind n with
  | 1 => if o.modf then none else some (o.i.natAbs ≤ lim)
  | 2 => if o.modf then none else some (lim ≤ o.i.natAbs)
  | 3 => if o.modf then none else some (lim ≤ o.v)
  | 4 => if o.modf then none else some (o.v ≤ lim)
  | 7 => if o.modf then none else o.temp.map (fun T => lim ≤ T)
  | 8 => if o.modf then none else o.temp.map (fun T => T ≤ lim)
  | 9 => if o.modf then none else (c.vBefore o.t).map (fun u => (o.v - u).natAbs ≤ lim)
  | _ => none

/-- The output qualifies for condition n (R158): its represented period begins at or after the boundary instant, and
kinds 1 and 2 need RUN or PASSIVE. -/
def ecQualifies (c : Chan) (r : Running) (n : Nat) (o : Prec) : Bool :=
  (r.t0 : Int) ≤ (o.t : Int) - o.per - 950 &&
  (!(r.d.ecKind n == 1 || r.d.ecKind n == 2) || c.st == .run || c.st == .passive)

/-- An output of a step's leader with the current of all its members (R140, R158): none while a member's is still to come; where a
member has none of that instant, it neither counts nor resets. [DEDUCED, log 108] -/
def Dev.gangOut (d : Dev) (v lead : Fin 16) (ks : List (Fin 16)) (o : Prec) : Option Prec :=
  ks.foldl (fun (a : Option Prec) m =>
    if m = lead then a
    else match a, (d.chan v m).outs.find? (fun p => p.t == o.t) with
      | some a, some p => some { a with i := a.i + p.i, modf := a.modf || p.modf }
      | some a, none => if o.t < (d.chan v m).lastOut.t then some { a with modf := true } else none
      | none, _ => none) (some o)

/-- The outputs whose current is known, oldest first, and those that wait for a member's. -/
def Dev.gangOuts (d : Dev) (v lead : Fin 16) (ks : List (Fin 16)) (outs : List Prec) : List Prec × List Prec :=
  outs.foldl (fun (r : List Prec × List Prec) o =>
    match (if r.2.isEmpty then d.gangOut v lead ks o else none) with
    | some p => (r.1 ++ [p], r.2)
    | none => (r.1, r.2 ++ [o])) ([], [])

/-- The hold count of condition n after the outputs the loop has not used yet. [DEDUCED, log 108] -/
def ecHold (c : Chan) (r : Running) (n : Nat) (outs : List Prec) (h : Nat) : Nat :=
  outs.foldl (fun h o =>
    if ecQualifies c r n o then
      match ecMeets c r.d n o with
      | some true => h + 1
      | some false => 0
      | none => h
    else h) h

/-- Ledger step totals of a step, in pC and pJ: the channel's, or a gang's, whose members' internal totals are added before the
report's shift (R173, R176). -/
def Dev.stepTotals (d : Dev) (v k : Fin 16) (r : Running) : Int × Int :=
  let xs := (r.d.channels k).map (fun m => ((d.vats[v]).meas[m]).a.stepRaw r.id)
  (reported (xs.map (·.1)), reported (xs.map (·.2)))

/-- The conditions met in this computation (EC0, EC1, EC2, T_LIM), the hold counts brought up to date, and the outputs that wait
for a gang member's current (R158). [DEDUCED, log 108] -/
def Dev.conditions (d : Dev) (v k : Fin 16) (r : Running) (t : Nat) : List Bool × List Nat × List Prec :=
  let c := d.chan v k
  let tot := d.stepTotals v k r
  let cur := d.gangOuts v k (r.d.channels k) (r.wait ++ c.outs)
  let holds := (List.range 3).map (fun n =>
    ecHold c r n (if r.d.ecKind n = 1 ∨ r.d.ecKind n = 2 then cur.1 else c.outs) (r.hold.getD n 0))
  let need := bits r.d.flags 13 3 + 1
  let met := (List.range 3).map (fun n =>
    match r.d.ecKind n with
    | 0 => false
    | 5 => decide ((r.d.ec.getD n 0) * 1000000000 ≤ tot.1.natAbs)
    | 6 => decide ((r.d.ec.getD n 0) * 1000000000 ≤ tot.2.natAbs)
    | _ => decide (need ≤ holds.getD n 0))
  (met ++ [r.d.tLim != 0 && r.t0 + 400000 * r.d.tLim ≤ t], holds, cur.2)

/-- The outputs a computation has used are dropped, of a gang's members those whose current has been (R158). -/
def Dev.useOuts (d : Dev) (v k : Fin 16) (r : Running) (holds : List Nat) (wait : List Prec) : Dev :=
  let d := d.modChan v k (fun c => { c with outs := [], run := some { r with hold := holds, wait := wait } })
  (r.d.channels k).foldl (fun d m => if m = k then d else
    d.modChan v m (fun c => { c with outs := c.outs.filter (fun o => wait.any (fun w => decide (w.t ≤ o.t)) ||
      decide ((d.chan v k).lastOut.t < o.t)) })) d

/-- The met bits of INFO (R162). -/
def metBits (met : List Bool) : Nat :=
  (List.range 4).foldl (fun a n => if met.getD n false then a + 2 ^ (4 + n) else a) 0

/-- Status and INFO of the condition that ends a step, in the order T_LIM, EC0, EC1, EC2 (R158, R162). -/
def endStatus (x : Desc) (met : List Bool) : Option (Nat × Nat) :=
  if met.getD 3 false then some (0x01, 3 + metBits met)
  else match (List.range 3).find? (fun n => met.getD n false) with
    | some n => some (if x.ecFail n then 0x10 else 0x02, n + metBits met)
    | none => none

/-- End conditions are suspended while a HOLD_SETPOINT policy holds the channel (R119). -/
def Chan.suspended (c : Chan) : Bool :=
  match c.orphan with
  | some o => o.taken && o.policy == 2
  | none => false

/-! ### What stands for a channel's next command (R17) -/

/-- The conditions of the running step that are met now, as the bits of INFO. [DEDUCED, log 107] -/
def Dev.metNow (d : Dev) (v k : Fin 16) (t : Nat) : Nat :=
  let c := d.chan v k
  match c.run with
  | some r => if c.suspended then 0 else metBits (d.conditions v k r t).1
  | none => 0

/-- The channel's orphan policy is to be taken at its tick t: the first after the trigger, or the first once ORPHAN_MAX has passed
(R118, R119). -/
def Chan.orphanDue (c : Chan) (t : Nat) : Bool :=
  match c.orphan with
  | some o => (!o.taken && decide (o.since < t)) || (match o.expireAt with | some x => decide (x ≤ t) | none => false)
  | none => false

/-- The head step is a start that is due at the channel's tick t: admitted by a pass before it, not held or late (R39, R128). -/
def Chan.startDue (c : Chan) (t : Nat) : Bool :=
  match c.queue with
  | e :: _ => c.run.isNone && e.d.op == 1 && !e.d.sync && e.resv.isSome && e.heldAt.isNone && decide (e.admAt ≤ t) && c.orphan.isNone
  | [] => false

/-- A protection that acts is met at the channel's tick t, in its state or the one a kill since that tick has taken it from. -/
def Dev.protects (d : Dev) (v k : Fin 16) (t : Nat) : Bool :=
  let c := d.chan v k
  let st := if c.st = .killed ∧ t < c.stAt then c.was else c.st
  (st.drives || st == .passive) &&
    ((d.modChan v k (fun c => { c with st := st })).protections v k t).any (fun m => m.act != .event)

/-- What stands for the channel's next command at its tick t besides kills and fences, by its place in R17's list: a protection, a stop
or orphan policy, a step transition, a start. -/
def Dev.standing (d : Dev) (v k : Fin 16) (t : Nat) : List Nat :=
  let c := d.chan v k
  (if d.protects v k t then [4] else []) ++ (if !c.stopReq.isEmpty || c.orphanDue t then [5] else []) ++
  (if d.metNow v k t ≠ 0 then [6] else []) ++ (if c.startDue t then [7] else [])

/-- What did not act because something higher in R17's list did is recorded with its instant; the sixteen latest are kept.
[DESIGN CHOICE, log 126] -/
def Dev.recordLost (d : Dev) (v k : Fin 16) (won t : Nat) (xs : List Nat) : Dev :=
  d.modChan v k (fun c => { c with noted := (((xs.filter (won < ·)).map (fun x => (x, t))) ++ c.noted).take 16 })

/-- A vat is fenced (R121); what stood for a computation that it discards is recorded (R17). -/
def Dev.fenceNow (d : Dev) (v : Fin 16) (cause : Nat) : Dev :=
  if d.fenced v then d
  else
    (d.eachChan (fun d k => if d.outstanding v k (d.tick k) then d.recordLost v k 3 d.now (d.standing v k (d.tick k)) else d)).fenceVat v cause

/-! ### The control law (R104–R108, R131–R133, R139) -/

/-- Charge-side and regeneration-side brownout factors of a vat (R132). -/
def Dev.brown (d : Dev) (v : Fin 16) : Nat × Nat :=
  let vb := d.f (Reg.VAT_VBUS_VBUS v.1)
  let vmin := bits (d.desc v 6) 0 16 * 1000
  let vmax := bits (d.desc v 6) 16 16 * 1000
  let band := d.f (Reg.VAT_BAL_OVB_BAND v.1) * 1000
  let bD := if vmin ≤ vb then 65536 else if vb ≤ vmin / 2 then 0 else (vb - vmin / 2) * 65536 / (vmin / 2)
  let bG := if vb + band ≤ vmax then 65536 else if vmax ≤ vb then 0 else (vmax - vb) * 65536 / band
  (bD, bG)

/-- The scope factors that apply to a channel: vat, segment unless STRICT, slice (R131, R133, R134). -/
def Dev.scopeFactors (d : Dev) (v k : Fin 16) : Nat × Nat :=
  let x := d.vats[v]
  let s := sl (d.chan v k).slice
  let g : Fin 8 := ⟨d.f (Reg.VAT_BAL_CFG_SEG v.1) % 8, Nat.mod_lt _ (by decide)⟩
  let a := match (d.chan v k).owner with
    | some _ => (min x.sD d.slcD[s], min x.sG d.slcG[s])
    | none => (x.sD, x.sG)
  if d.bit Reg.SLICE_MODE_STRICT then a else (min a.1 d.segD[g], min a.2 d.segG[g])

/-- hi and lo of R104 for a step set-up, N channels together (R139), unscaled. -/
def limits (x : Desc) (t : Tuning) : Int × Int :=
  let top := x.count * t.iMax
  ((if x.limChg ≠ 0 then min x.limChg top else top : Nat), (if x.limDis ≠ 0 then min x.limDis top else top : Nat))

/-- The scaled limits of R133. -/
def Dev.effLimits (d : Dev) (v k : Fin 16) (x : Desc) (t : Tuning) : Int × Int :=
  let l := limits x t
  let b := d.brown v
  let f := d.scopeFactors v k
  (shr (l.1 * (min b.1 f.1 : Nat)) 16, shr (l.2 * (min b.2 f.2 : Nat)) 16)

/-- The voltage loop (R105): i_cv and the integrator if it governs. [DEDUCED, log 42] -/
def voltLoop (xv vref vw : Int) (t : Tuning) (lo hi : Int) : Int × Int × Int :=
  let ev := clamp (-(2 ^ 27)) (2 ^ 27) (vref - vw)
  let xvn := clamp (-(lo * 2 ^ 24)) (hi * 2 ^ 24) (xv + ev * t.kiv)
  (clamp (-lo) hi (shr (xvn + ev * t.kpv) 24), xvn, ev)

/-- Target, voltage integrator and CV_ACT of the mode in force (R105–R108), limits already scaled. -/
def target (c : Chan) (l : Law) (lvl : Nat) (t : Tuning) (lo hi : Int) : Int × Int × Bool :=
  let vw := c.win.v
  match l.mode with
  | 2 => let cv := voltLoop c.xv l.a vw t lo hi; (cv.1, cv.2.1, true)
  | 3 =>
    let cv := voltLoop c.xv l.b vw t lo hi
    let sp := clamp (-lo) hi l.a
    let pick := if 0 ≤ l.a then min sp cv.1 else max sp cv.1
    if pick = cv.1 ∧ cv.1 ≠ sp then (pick, cv.2.1, true)
    else (pick, clamp (-(lo * 2 ^ 24)) (hi * 2 ^ 24) (sp * 2 ^ 24 - cv.2.2 * t.kpv), false)
  | 4 => (roundDiv (l.a * 1000000) (max vw t.vMin), c.xv, false)
  | 5 => (-(roundDiv (max vw 0 * 1000000) l.a), c.xv, false)
  | 6 => (if lvl % 2 = 0 then l.a else l.b, c.xv, false)
  | 9 => (0, c.xv, false)
  | _ => (l.a, c.xv, false)

/-- The slewed reference (R104): toward the target by at most the rate, at once when the rate is zero. [DEDUCED, log 42] -/
def slew (r tgt : Int) (rate : Nat) : Int := if rate = 0 then tgt else r + clamp (-(rate : Int)) rate (tgt - r)

/-- The rate of R104 in a state. -/
def Chan.rate (c : Chan) : Nat :=
  match c.st with
  | .ramp => c.orphanRate.getD c.tune.ramp
  | .soft => if c.setup.slew ≠ 0 then min c.tune.soft c.setup.slew else c.tune.soft
  | _ => c.setup.slew

/-- An operation stated at width w wraps (R12). [DEDUCED, log 42] -/
def wrapS (w : Nat) (x : Int) : Int := signed w (pattern w x)

/-- The inner loop of R104 from rp on: duty, integrator, and whether the duty saturated. [DEDUCED, log 42] -/
def innerLoop (c : Chan) (rp : Int) (vb : Nat) : Nat × Int × Bool :=
  let t := c.tune
  let iFb := wrapS 32 (c.win.i + wrapS 32 (shr (wrapS 32 (c.win.i - c.half.i) * t.kx) 24))
  let e := clamp (-(2 ^ 27)) (2 ^ 27) (rp - iFb)
  let lim : Int := (t.intLim : Int) * 2 ^ 24
  let xn := clamp (-lim) lim (c.xi + e * t.ki)
  let u := c.win.v * 2 ^ 24 + e * t.kp + xn
  let dd := roundDiv u vb
  let top : Int := (t.dmax : Int) * 256
  let bot : Int := (t.dmin : Int) * 256
  if top < dd then (top.toNat, if 0 < e then c.xi else xn, true)
  else if dd < bot then (bot.toNat, if e < 0 then c.xi else xn, true)
  else (dd.toNat, xn, false)

/-- The channel is perturbed at its tick: it takes part in the point in progress, in RUN (R104, R198, R199, R205). -/
def Dev.pertOn (d : Dev) (v k : Fin 16) (t : Nat) (p : ImpPoint) : Bool :=
  p.part.testBit k.1 && !p.abort.testBit k.1 && p.p0 ≤ t && t < p.wEnd && (d.chan v k).st == .run

/-- The perturbation of the impedance engine for a channel at its tick: a sine formed to within 1 µA, or the previous value where
the engine missed its deadline (R39, R198, R199, R205). [DESIGN CHOICE, log 9] -/
def Dev.pert (d : Dev) (v k : Fin 16) (t : Nat) : Int :=
  match (d.vats[v]).imp.point with
  | some p =>
    if !d.pertOn v k t p then 0
    else if (d.chan v k).pertLate = some t then (d.chan v k).pert
    else
      let n := (t - p.p0) / 400
      let spread := d.f (Reg.IMP_CFG_SPREAD v.1)
      let ph := (n * p.inc + k.1 * p.inc / 16 + spread * (k.1 * 2 ^ 44)) % 2 ^ 48
      let x := p.amp * sinTurn ph (2 ^ 48)
      clamp (-floorDiv (2 ^ 100 - x) (2 ^ 100)) (floorDiv (x + 2 ^ 100) (2 ^ 100)) (Config.sine p.amp ph)
  | none => 0

/-- The computation's command takes the channel's slot, which starts now: in ACTIVE it is sent, on another lane nothing is
(R51, R58, R97). [DEDUCED, log 39, 120] -/
def Dev.send (d : Dev) (v k : Fin 16) (mode : CmdMode) (duty phase : Nat) : Dev :=
  let d := d.modChan v k (fun c => { c with cmd := { c.cmd with mode := mode, duty := duty, phase := phase } })
  if d.laneState v = laneActive then d.sendCmd v k else d

/-- Predicted bus power of a computation (R125), µW. -/
def Dev.predict (d : Dev) (v k : Fin 16) : Int :=
  let c := d.chan v k
  if c.st.drives then
    let pv := divT (c.win.v * c.win.i) 1000000
    let pl := divT ((d.f (Reg.VAT_BAL_LOSS_R_LOSS v.1) : Int) * c.win.i * c.win.i) 1000000000000
    pv + pl + (d.f (Reg.VAT_BAL_LOSS_P_SW v.1) : Int) * 1000
  else 0

/-! ### PULSE and CONTACT (R107, R108, R96) -/

/-- The resistance of R96 from the two windows' sums: value, ΔV, ΔI, NEG. [DEDUCED, log 42] -/
def ohms (dv di : Int) (win iFs : Nat) (bad : Bool) : Nat × Bool :=
  if bad then (0xFFFFFFFF, false)
  else if (di.natAbs : Int) * 100 < (win : Int) * iFs then (0xFFFFFFFF, false)
  else
    let x := roundDiv (dv * 1000000) di
    if x < 0 then (0, true) else ((min x 0xFFFFFFFE).toNat, false)

/-- One period of a PULSE step before its target is taken: at the end of a level, unless the change is held or late, the
resistance is formed from the last samples of the two levels, and the other level begins (R39, R107).
[DESIGN CHOICE, log 134] -/
def pulseStep (p : Pulse) (l : Law) (iFs : Nat) (held late : Bool) : Pulse :=
  let len := if p.level % 2 = 0 then l.c else l.d
  let prev := p.last
  if held then p
  else if (p.count : Int) < len then { p with count := p.count + 1 }
  else if late then p
  else
    let r := ohms (prev.v - p.prevV) (prev.i - p.prevI) 1 iFs (prev.modf || !p.prevOk)
    let p' : Pulse := { p with level := p.level + 1, count := 1, prevV := prev.v, prevI := prev.i, prevOk := !prev.modf,
                               prevSus := prev.sus }
    if p.level = 0 then p'
    else { p' with ohm := r.1, neg := r.2, sus := prev.sus || p.prevSus, formed := p.formed + 1 }

/-- CONTACT in its nth period since phase 1 began (R108): window sums, and the reference it imposes; with the result the
ramp-down begins. [DEDUCED, log 40, 41] -/
def contactStep (c : Contact) (n : Nat) (s : Fast) (a : Int) (win settle iFs : Nat) (lim : Int) : Contact × Int × Bool :=
  let mark (x : Contact) : Contact := { x with modf := x.modf || s.modf, sus := x.sus || s.sus }
  let c := { c with n := some (n + 1) }
  if n < win then (mark { c with svA := c.svA + s.v, siA := c.siA + s.i }, 0, false)
  else if n < win + settle then (c, a, false)
  else if n < 2 * win + settle then (mark { c with svB := c.svB + s.v, siB := c.siB + s.i }, a, false)
  else
    let dv := c.svB - c.svA
    let di := c.siB - c.siA
    let r := ohms dv di win iFs c.modf
    let ok := r.1 ≠ 0xFFFFFFFF ∧ r.1 ≤ pattern 32 lim
    ({ c with res := some (decide ok, r.1, divT dv win, divT di win, r.2) }, 0, true)

end Sys2Proof.Machine
end

