-- ==== Sys2Proof/Machine/BalOps.lean ====
section
/-!
DEFINITION. The bus balancer's admission of step starts (R124–R130, R134, R155): reservations, scope sums, tests, what a
pending start is, and the scale factors (R131).
-/

namespace Sys2Proof.Machine
open Sys2Proof

/-! ### Reservations (R126) -/

/-- Predicted power of N channels that carry a current together at a voltage, switching (R125, R126), µW. -/
def Dev.resPower (d : Dev) (v : Fin 16) (n : Nat) (i volts : Int) : Int :=
  divT (volts * i) 1000000 +
  divT ((d.f (Reg.VAT_BAL_LOSS_R_LOSS v.1) : Int) * i * i) (1000000000000 * n) +
  (n * d.f (Reg.VAT_BAL_LOSS_P_SW v.1) * 1000 : Nat)

/-- The reservation of one current level: at `vMax` for a charge, at the present voltage otherwise. -/
def Dev.resLevel (d : Dev) (v : Fin 16) (n : Nat) (i vw vMax : Int) : Int :=
  d.resPower v n i (if 0 < i then vMax else vw)

/-- The reservation of a start (R126), with the tuning block it names. -/
def Dev.reservation (d : Dev) (v k : Fin 16) (x : Desc) (t : Tuning) : Resv :=
  let l := x.law
  let n := x.count
  let lim := limits x t
  let vw := (d.chan v k).win.v
  let cl (i : Int) : Int := clamp (-lim.2) lim.1 i
  let one (p : Int) : Resv := ⟨p, p⟩
  match l.mode with
  | 7 | 8 => {}
  | 2 => one (d.resLevel v n (cl lim.1) vw (min l.a t.vMax))
  | 3 => one (d.resLevel v n (cl l.a) vw (min l.b t.vMax))
  | 4 => one (d.resLevel v n (cl (roundDiv (l.a * 1000000) (max vw t.vMin))) vw vw)
  | 5 => one (d.resLevel v n (cl (-(roundDiv (max vw 0 * 1000000) l.a))) vw vw)
  | 6 =>
    let a := d.resLevel v n (cl l.a) vw t.vMax
    let b := d.resLevel v n (cl l.b) vw t.vMax
    ⟨min a b, max a b⟩
  | _ => one (d.resLevel v n (cl l.a) vw t.vMax)

/-- The hull of two reservations (R155). -/
def Resv.hull (a b : Resv) : Resv := ⟨min a.l b.l, max a.u b.u⟩

/-- What a channel contributes to the sums of its scopes: its running step, its admitted head, or the hull of both; for
the channel that is being evaluated, nothing of its running step (R127, R155). -/
def Chan.contribution (c : Chan) (own : Bool) : Option Resv :=
  let run := if own then none else c.run.map (·.resv)
  let head := (c.queue.head?).bind (·.resv)
  match run, head with
  | some a, some b => some (a.hull b)
  | some a, none => some a
  | none, b => b

/-! ### Scopes (R124, R134) -/

/-- Sums of a scope: D, G, U, L of R127. -/
structure Sums where
  d : Int := 0
  g : Int := 0
  u : Int := 0
  l : Int := 0
  deriving DecidableEq, Repr

/-- Add one reservation. -/
def Sums.add (s : Sums) (r : Resv) : Sums := ⟨s.d + max r.u 0, s.g + min r.l 0, s.u + r.u, s.l + r.l⟩

/-- Fold over every channel of the device that a scope holds. -/
def foldScope {α : Type} (inScope : Fin 16 → Fin 16 → Bool) (init : α) (f : α → Fin 16 → Fin 16 → α) : α :=
  (List.finRange 16).foldl (fun a v => (List.finRange 16).foldl (fun a k => if inScope v k then f a v k else a) a) init

/-- The sums of a scope for the evaluation of a start of channel (v, k). -/
def Dev.sums (d : Dev) (v k : Fin 16) (inScope : Fin 16 → Fin 16 → Bool) : Sums :=
  foldScope inScope {} (fun s v' k' =>
    match (d.chan v' k').contribution (v' == v && k' == k) with
    | some r => s.add r
    | none => s)

/-- Segment of a vat. -/
def Dev.seg (d : Dev) (v : Fin 16) : Fin 8 := ⟨d.f (Reg.VAT_BAL_CFG_SEG v.1) % 8, Nat.mod_lt _ (by decide)⟩

/-- One test of R127 against a limit in mW: passed within the limit, or when the start leaves the sum unchanged or moves it
toward the permitted side. -/
def within (lim : Nat) (sum add : Int) : Bool := lim == 0xFFFFFFFF || decide (add ≤ 0) || decide (sum + add ≤ lim * 1000)

/-- Both tests of the setting in one scope (R127). -/
def scopeTest (pair : Bool) (s : Sums) (r : Resv) (draw regen : Nat) : Bool :=
  if pair then within draw s.u r.u && within regen (-s.l) (-r.l)
  else within draw s.d (max r.u 0) && within regen (-s.g) (-(min r.l 0))

/-- A start of channel (v, k) with a reservation is admitted (R127). -/
def Dev.admitted (d : Dev) (v k : Fin 16) (r : Resv) : Bool :=
  let pair := d.bit Reg.PWR_BAL_CFG_PAIR
  let g := d.seg v
  let o := (d.chan v k).owner
  let s := (d.chan v k).slice
  scopeTest pair (d.sums v k (fun v' _ => v' == v)) r (d.f (Reg.VAT_BAL_DRAW_LIMIT v.1)) (d.f (Reg.VAT_BAL_REGEN_LIMIT v.1)) &&
  (d.bit Reg.SLICE_MODE_STRICT ||
    scopeTest pair (d.sums v k (fun v' _ => d.seg v' == g)) r (d.f (Reg.PWR_SEG_DRAW_LIMIT g.1)) (d.f (Reg.PWR_SEG_REGEN_LIMIT g.1))) &&
  scopeTest pair (d.sums v k (fun v' k' => (d.chan v' k').owner == o)) r (d.f (Reg.PWR_SLC_DRAW_LIMIT s))
    (d.f (Reg.PWR_SLC_REGEN_LIMIT s))

/-! ### Pending starts (R128, R129, R155, R159–R161) -/

/-- ARM_TO + 5 µs, in ticks (R112). -/
def Dev.armMargin (d : Dev) (v : Fin 16) : Nat := 400 * (d.f (Reg.VAT_LOOP_CFG_ARM_TO v.1) + 5)

/-- The hold of R116 has ended: channel and members IDLE, and arming allowed where it is needed. -/
def Dev.holdOver (d : Dev) (v k : Fin 16) (x : Desc) : Bool :=
  let ks := x.channels k
  ks.all (fun m => (d.chan v m).st == .idle) && !d.armBarred v

/-- The start instant of a synchronized step that is now known: the barrier's instant, or the first period start at or
after START (R159, R160). [DEDUCED, log 56] -/
def Dev.startInstant (d : Dev) (x : Desc) : Option Nat :=
  if x.flag 1 then some ((x.start + 399) / 400 * 400)
  else (d.jasia.barriers.find? (fun b => b.num == x.start % 2 ^ 32)).map (·.inst)

/-- The barrier a waiting step names can no longer start it: a later-numbered one has been announced first, under the
adopted epoch (R161, R264). [DEDUCED, log 56] -/
def Dev.barrierPassed (d : Dev) (x : Desc) : Bool :=
  x.flag 0 && (d.jasia.barriers.find? (fun b => b.num == x.start % 2 ^ 32)).isNone &&
  d.jasia.barriers.any (fun b => b.epoch == d.f Reg.JASIA_STAT_EPOCH && decide (0 < sdiff32 b.num (x.start % 2 ^ 32)))

/-- A synchronized head step of an IDLE channel becomes a pending start once its instant is known, or fails under
R161. [DEDUCED, log 56] -/
def Dev.syncPending (d : Dev) (v k : Fin 16) : Dev :=
  let c := d.chan v k
  let a := d.periodStart
  match c.queue with
  | e :: _ =>
    if e.d.op = 1 ∧ e.d.sync ∧ c.run.isNone ∧ c.st = .idle ∧ c.stAt ≤ a ∧ e.headAt.getD 0 ≤ a ∧ e.startAt.isNone ∧
        e.heldAt.isNone ∧ c.orphan.isNone then
      match d.startInstant e.d with
      | some i =>
        if e.d.flag 0 && decide (i ≤ a) then d.dropHead v k 0x37 0 a
        else if i < a + d.armMargin v then d.dropHead v k 0x36 0 a
        else d.modHead v k (fun e => { e with startAt := some i, pendAt := some a })
      | none => if d.barrierPassed e.d then d.dropHead v k 0x37 0 a else d
    else d
  | [] => d

/-- A start released for a channel in RAMP or KILLED, or while arming is barred, is held; a reservation it had is released; a
synchronized start, released at its instant only, gives its reservation back and waits (R116, R130).
[DEDUCED, log 45, 120, 130] -/
def Dev.holdStopping (d : Dev) (v k : Fin 16) (t : Nat) : Dev :=
  let c := d.chan v k
  let stops := c.st == .ramp || c.st == .killed
  match c.queue with
  | e :: _ =>
    if e.d.op ≠ 1 ∨ c.run.isSome ∨ e.heldAt.isSome ∨ c.orphan.isSome then d
    else if e.d.sync then (if stops then d.modHead v k (fun e => { e with resv := none }) else d)
    else if e.deferAt.isNone ∧ (stops ∨ (c.st = .idle ∧ d.armBarred v ∧ decide (e.headAt.getD t < t))) then d.holdHead v k t
    else d
  | [] => d

/-- The head entry is a start the balancer evaluates at the latest loop-period start. -/
def Dev.pendingStart (d : Dev) (v k : Fin 16) (e : QEntry) : Bool :=
  let c := d.chan v k
  let a := d.periodStart
  let rests := c.run.isNone && c.st == .idle && decide (c.stAt ≤ a)
  e.d.op == 1 && e.resv.isNone && c.orphan.isNone && !valueAt c.orHist a && !d.fenced v && decide (e.headAt.getD 0 ≤ a) &&
  (if e.heldAt.isSome then rests && d.holdOver v k e.d
   else if e.d.sync then e.startAt.isSome && c.st == .idle
   else c.run.isSome || rests)

/-- Arming ahead of the start instant (R112, R138): an IDLE channel, or gang none of whose members is busy, with a latch set goes
to ARM once admitted. -/
def Dev.armAhead (d : Dev) (v k : Fin 16) (x : Desc) : Dev :=
  let ks := x.channels k
  if ks.any (fun m => d.klatch v m) && ks.all (fun m => (d.chan v m).st == .idle && d.armAllowed v m) && !d.gangBusy v k x then
    (ks.foldl (fun d m => (d.modChan v m (fun c => { c with gang := if x.isGang then some k else none })).enter v m .arm d.now) d).queueKclr
      v (ks.foldl (fun a m => a + 2 ^ m.1) 0)
  else d

/-- An admitted synchronized start that could not be armed is armed by the first pass that finds its channel fit for it, while
ARM_TO + 5 µs are left (R112). [DEDUCED, log 130] -/
def Dev.armAgain (d : Dev) (v k : Fin 16) : Dev :=
  let c := d.chan v k
  match c.queue with
  | e :: _ =>
    match e.startAt with
    | some i =>
      if e.d.sync && e.resv.isSome && e.heldAt.isNone && c.run.isNone && c.orphan.isNone &&
          decide (d.periodStart + d.armMargin v ≤ i) then d.armAhead v k e.d else d
    | none => d
  | [] => d

/-- A start that is not admitted is budget-deferred (R128); a successor is not, while its predecessor's range is
open. [DEDUCED, log 49] -/
def Dev.deferHead (d : Dev) (v k : Fin 16) (t : Nat) : Dev :=
  match (d.chan v k).queue with
  | e :: _ =>
    if e.deferAt.isSome then d
    else (d.modHead v k (fun e => { e with deferAt := some t, balDeferred := true })).raise (Reg.VAT_BAL_EVT_DEFER v.1)
      (2 ^ k.1) v.1
  | [] => d

/-- The balancer evaluates one pending start at instant a (R103, R126, R127): refused by R103 when it is evaluated first, admitted
with its reservation, or not admitted. [DEDUCED, log 49, 116] -/
def Dev.evaluate (d : Dev) (t : Tuning) (v k : Fin 16) (e : QEntry) (a : Nat) : Dev :=
  match (if e.checked then none else e.d.refusal t k) with
  | some status => d.dropHead v k status 0 a
  | none =>
    let r := d.reservation v k e.d t
    let d := d.modHead v k (fun e => { e with checked := true })
    if d.admitted v k r then
      let d := d.modHead v k (fun e => { e with resv := some r, deferAt := none, admAt := max e.admAt a })
      if e.d.sync && e.heldAt.isNone then d.armAhead v k e.d else d
    else if (d.chan v k).run.isSome then d
    else d.deferHead v k a

/-- The pending starts of the device, in the order of R128: by the instant they reached the head of their queue, then by
channel number. -/
def insertStart (x : Nat × Fin 16 × Fin 16) : List (Nat × Fin 16 × Fin 16) → List (Nat × Fin 16 × Fin 16)
  | [] => [x]
  | y :: ys =>
    if x.1 < y.1 ∨ (x.1 = y.1 ∧ chanNo x.2.1 x.2.2 < chanNo y.2.1 y.2.2) then x :: y :: ys else y :: insertStart x ys

/-- The list of them. [DEDUCED, log 49] -/
def Dev.pendingStarts (d : Dev) : List (Nat × Fin 16 × Fin 16) :=
  foldScope (fun _ _ => true) [] (fun xs v k =>
    match (d.chan v k).queue with
    | e :: _ => if d.pendingStart v k e then insertStart (e.headAt.getD 0, v, k) xs else xs
    | [] => xs)

/-! ### Sums and scale factors (R125, R131) -/

/-- The prediction of a channel that counts at the loop-period start a: of its latest computation in the period before for
k = 0–7, in the one before that for k = 8–15, or earlier (R125). -/
def Chan.predicted (c : Chan) (k : Fin 16) (a : Nat) : Int :=
  match c.power.find? (fun x => decide (x.1 + (if k.1 < 8 then 0 else 400) < a)) with
  | some x => x.2
  | none => 0

/-- D and G of a scope (R125). [DEDUCED, log 48] -/
def Dev.power (d : Dev) (inScope : Fin 16 → Fin 16 → Bool) : Int × Int :=
  foldScope inScope (0, 0) (fun s v k =>
    let p := (d.chan v k).predicted k d.periodStart
    (s.1 + max p 0, s.2 + min p 0))

/-- One update of a scale factor (R131). -/
def scaleStep (old lim : Nat) (p : Int) : Nat :=
  if lim = 0xFFFFFFFF ∨ p ≤ 0 then 65536 else min 65536 (old * lim * 1000 / p.toNat)

/-- Both factors of a scope from its D and G (R131). -/
def scalePair (pair : Bool) (old : Nat × Nat) (draw regen : Nat) (p : Int × Int) : Nat × Nat :=
  let n := p.1 + p.2
  (scaleStep old.1 draw (if pair then max n 0 else p.1), scaleStep old.2 regen (if pair then max (-n) 0 else -p.2))

/-- Form the sums and factors of every scope (R125, R131, R134). -/
def Dev.scale (d : Dev) : Dev :=
  let pair := d.bit Reg.PWR_BAL_CFG_PAIR
  let d := (List.finRange 16).foldl (fun d v =>
    let p := d.power (fun v' _ => v' == v)
    let x := d.vats[v]
    let f := scalePair pair (x.sD, x.sG) (d.f (Reg.VAT_BAL_DRAW_LIMIT v.1)) (d.f (Reg.VAT_BAL_REGEN_LIMIT v.1)) p
    (d.modVat v (fun x => { x with sD := f.1, sG := f.2 })).setF (Reg.VAT_BAL_PRED_N v.1) (pattern 32 (divT (p.1 + p.2) 1000))) d
  let strict := d.bit Reg.SLICE_MODE_STRICT
  let d := (List.finRange 8).foldl (fun d g =>
    let p := d.power (fun v' _ => d.seg v' == g)
    let f := scalePair pair (d.segD[g], d.segG[g]) (d.f (Reg.PWR_SEG_DRAW_LIMIT g.1)) (d.f (Reg.PWR_SEG_REGEN_LIMIT g.1)) p
    (if strict then d else (d.setSegD (put d.segD g f.1)).setSegG (put d.segG g f.2)).setF (Reg.PWR_SEG_PRED_N g.1)
      (pattern 32 (divT (p.1 + p.2) 1000))) d
  (List.finRange 64).foldl (fun d s =>
    if d.f (Reg.PWR_SLC_DRAW_LIMIT s.1) = 0xFFFFFFFF ∧ d.f (Reg.PWR_SLC_REGEN_LIMIT s.1) = 0xFFFFFFFF then
      (d.setSlcD (put d.slcD s 65536)).setSlcG (put d.slcG s 65536)
    else
      let p := d.power (fun v' k' => (d.chan v' k').owner == some s)
      let f := scalePair pair (d.slcD[s], d.slcG[s]) (d.f (Reg.PWR_SLC_DRAW_LIMIT s.1)) (d.f (Reg.PWR_SLC_REGEN_LIMIT s.1)) p
      ((d.setSlcD (put d.slcD s f.1)).setSlcG (put d.slcG s f.2))) d

/-- VAT_BAL_STAT of a vat, and its events when a factor first falls below 65,536 (R133). A vat whose lane is out of service
has no bus to judge. [DEDUCED, log 51] -/
def Dev.scaleStat (d : Dev) (v : Fin 16) : Dev :=
  let up := d.bit (Reg.VAT_STAT_IN_SERVICE v.1)
  let b := if up then d.brown v else (65536, 65536)
  let f := (List.finRange 16).foldl (fun (a : Nat × Nat) k =>
    let x := d.scopeFactors v k
    (min a.1 x.1, min a.2 x.2)) ((d.vats[v]).sD, (d.vats[v]).sG)
  let brown := decide (b.1 < 65536 ∨ b.2 < 65536)
  let lim := decide (f.1 < 65536 ∨ f.2 < 65536)
  let wasB := d.bit (Reg.VAT_BAL_STAT_BROWN v.1)
  let wasL := d.bit (Reg.VAT_BAL_STAT_LIMIT v.1)
  let d := d.setF (Reg.VAT_BAL_STAT_SD v.1) (min b.1 f.1)
  let d := (d.setB (Reg.VAT_BAL_STAT_BROWN v.1) brown).setB (Reg.VAT_BAL_STAT_LIMIT v.1) lim
  let d := if brown && !wasB then d.raise (Reg.VAT_BAL_EVT_BROWN v.1) 1 v.1 else d
  if lim && !wasL then d.raise (Reg.VAT_BAL_EVT_LIMIT v.1) 1 v.1 else d

end Sys2Proof.Machine
end

