-- ==== Sys2Proof/Machine/BalancerCmds.lean ====
section
/-!
DEFINITION. Commands of the chapter Bus balancer and gangs (R124–R141), and the synchronized start (R112, R159, R160).
-/

namespace Sys2Proof.Machine
open Sys2Proof

/-- BALANCER_PASS: once in a loop period, when the computations of the ticks before its start are done, the sums and factors of
the period, then every pending start in the order of R128, as of that start (R125–R131). [DEDUCED, log 39] -/
def Dev.balancerPass (d : Dev) (tb : Fin 16 → Nat → Tuning) : Dev :=
  let a := d.periodStart
  if d.passAt = some a ∨ !d.settledAt a then d
  else
    let d := (List.finRange 16).foldl Dev.scaleStat (d.setPassAt (some a)).scale
    let d := foldScope (fun _ _ => true) d (fun d v k => ((d.syncPending v k).holdStopping v k (a + 25 * k.1)).armAgain v k)
    d.pendingStarts.foldl (fun d x =>
      match (d.chan x.2.1 x.2.2).queue with
      | e :: _ => d.evaluate (tb x.2.1 e.d.tune) x.2.1 x.2.2 e a
      | [] => d) d

/-- BALANCER_PASS. -/
def execBalancerPass (s : State) : Host.Outcome State Fault Refusal := s.done (s.dev.balancerPass s.tuning)

/-- BUDGET_TIMEOUT: a start has been budget-deferred for VAT_BAL_HOLD.LIMIT (R128). [DEDUCED, log 109] -/
def Dev.budgetTimeout (d : Dev) (v k : Fin 16) : Dev :=
  match (d.chan v k).queue with
  | e :: _ =>
    match e.deferAt with
    | some t =>
      if e.resv.isNone && decide (t + 400000 * d.f (Reg.VAT_BAL_HOLD_LIMIT v.1) < d.now) then d.dropHead v k 0x34 0 d.now else d
    | none => d
  | [] => d

/-- BUDGET_TIMEOUT. -/
def execBudgetTimeout (v k : Fin 16) (s : State) : Host.Outcome State Fault Refusal := s.done (s.dev.budgetTimeout v k)

/-- BUDGET_REFUSED: no pass is left that could grant a synchronized start ARM_TO + 5 µs before its instant: neither the present
period's, if it is still to act, nor a later one (R129). -/
def Dev.budgetRefused (d : Dev) (v k : Fin 16) : Dev :=
  match (d.chan v k).queue with
  | e :: _ =>
    match e.startAt with
    | some i =>
      let next := if d.passAt = some d.periodStart then d.periodStart + 400 else d.periodStart
      if e.resv.isNone && e.heldAt.isNone && decide (i < next + d.armMargin v) then
        d.dropHead v k 0x35 0 d.now
      else d
    | none => d
  | [] => d

/-- BUDGET_REFUSED. -/
def execBudgetRefused (v k : Fin 16) (s : State) : Host.Outcome State Fault Refusal := s.done (s.dev.budgetRefused v k)

/-- SYNC_START: the channel's tick in the period of its start instant, or in the next where the action is LATE (R39,
R112, R159). A stop or orphan policy of that tick goes first (R17); a gang with a busy member is refused (R138); a channel that is
stopping holds the start; one that is not armed completes it with ARM_FAIL. -/
def Dev.syncStart (d : Dev) (tb : Nat → Tuning) (v k : Fin 16) : Dev :=
  let c := d.chan v k
  let t := d.tick k
  match c.queue with
  | e :: _ =>
    match e.startAt with
    | some i =>
      let i := if e.late then i + 400 else i
      if !(i ≤ t && t < i + 400) || e.resv.isNone || e.heldAt.isSome || c.run.isSome || c.orphan.isSome || d.fenced v ||
          !c.stopReq.isEmpty then d
      else if d.gangBusy v k e.d then (d.unarm v k t).dropHead v k 0x38 0 t
      else if (e.d.channels k).any (fun m => (d.chan v m).st == .ramp || (d.chan v m).st == .killed) then d.holdHead v k t
      else if (e.d.channels k).any (fun m => (d.chan v m).st != .idle || d.klatch v m) then
        (d.unarm v k t).dropHead v k 0x30 0 t
      else d.startHead tb v k t
    | none => d
  | [] => d

/-- SYNC_START. -/
def execSyncStart (v k : Fin 16) (s : State) : Host.Outcome State Fault Refusal := s.done (s.dev.syncStart (s.tuning v) v k)

end Sys2Proof.Machine
end

