-- ==== Sys2Proof/Machine/CoreOps.lean ====
section
/-!
DEFINITION. The cores as this device sees them: what runs, worlds, halts by Gnotar (R299–R304, R332, R427).
-/

namespace Sys2Proof.Machine
open Sys2Proof

/-- The key under which a TCM byte is held, which is its address as Gnotar sees it: the pair's own view, or Gnotar's with
the secure world; none where the range is not seen. [DESIGN CHOICE, log 4] -/
def tcmKey (src : Src) (addr : Nat) : Option (Fin 2 × Nat) :=
  if (src.master = 4 ∨ src.master = 5) ∧ 0x04000000 ≤ addr ∧ addr < 0x04040000 then
    some (if src.master = 4 then 0 else 1, if src.master = 4 then addr + 0x40000 else addr + 0x80000)
  else if src.master = 14 ∧ src.secure ∧ 0x04040000 ≤ addr ∧ addr < 0x040C0000 then
    some (if addr < 0x04080000 then 0 else 1, addr)
  else none

/-- Change one core. -/
def Dev.modCore (d : Dev) (n : Fin 6) (f : Core → Core) : Dev := d.setCores (put d.cores n (f d.cores[n]))

/-- A core executes instructions: released, neither fenced nor failed, not halted, not quiesced, no warm reset. -/
def Dev.coreRuns (d : Dev) (n : Fin 6) : Bool :=
  let c := d.cores[n]
  !c.held && c.halted.isNone && !d.bit (Reg.CORE_STAT_FENCED n.1) && d.f (Reg.PWR_QTAG_STATE n.1) == 0 &&
  d.sup.warm.isNone && (n.1 < 4 || !d.tb Reg.SYS_FENCE_SP (n.1 - 4))

/-- The core is in the secure world. -/
def Dev.coreSecure (d : Dev) (n : Fin 6) : Bool := d.bit (Reg.CORE_CTX_WORLD n.1)

/-! ### Performance counters (R315, R316) -/

/-- The core's events count for its slice: it runs, in the normal world, and the counters are sliced. [DESIGN CHOICE, log 21] -/
def Dev.counting (d : Dev) (n : Fin 6) : Bool := d.bit Reg.PERF_CFG_SLICED && d.coreRuns n && !d.coreSecure n

/-- Add a free number of events to the four counters of a set, which wrap. [DESIGN CHOICE, log 21] -/
def Dev.addEvents (d : Dev) (s : Nat) : Dev :=
  forEach 4 d (fun d i =>
    let x := d.free 64
    x.2.setF64 (Reg.PERF_CNT_LO_COUNT s i) (Reg.PERF_CNT_HI_COUNT s i)
      ((d.f64 (Reg.PERF_CNT_LO_COUNT s i) (Reg.PERF_CNT_HI_COUNT s i) + x.1) % 2 ^ 64))

/-- Bring the counters up to the present instant: each core that has been counting since they last were has counted for its slice.
Whatever changes which cores count, or for whom, comes after this. [DESIGN CHOICE, log 21] -/
def Dev.tally (d : Dev) : Dev :=
  let d' := d.setPerfAt d.up
  if d.perfAt = d.up then d'
  else (List.finRange 6).foldl (fun d n => if d.counting n then d.addEvents (d.f (Reg.CORE_CTX_SLICE n.1)) else d) d'

/-- The core takes an exception the core reference defines: where it continues is a free value. [DESIGN CHOICE, log 75, 103] -/
def Dev.coreTrap (d : Dev) (n : Fin 6) : Dev :=
  let x := d.free 40
  x.2.modCore n (fun c => { c with pc := x.1 })

/-- An entry into the secure world: slice counting stops, the address of the next instruction is saved, WORLD and GATED are set, the gate
timer starts (R303, R304). -/
def Dev.enterSecure (d : Dev) (n : Fin 6) (next : Nat) : Dev :=
  let d := d.tally
  let d := (d.setF (Reg.CORE_CTX_WORLD n.1) 1).setF (Reg.CORE_CTX_GATED n.1) 1
  d.modCore n (fun c => { c with ret := next, entry := some d.up })

/-! ### Lockstep pairs -/

/-- Change one pair's checker. -/
def Dev.modPair (d : Dev) (p : Fin 2) (f : Pair → Pair) : Dev := d.setPairs (put d.pairs p (f d.pairs[p]))

/-- The other pair. -/
def otherPair (p : Fin 2) : Fin 2 := if p = 0 then 1 else 0

/-- The core of a pair. -/
def pairCore (p : Fin 2) : Fin 6 := if p = 0 then 4 else 5

/-- The pair is released from reset and compared. -/
def Dev.checking (d : Dev) (p : Fin 2) : Bool :=
  d.f (Reg.LS_STAT_STATE p.1) == 0 && !(d.cores[pairCore p]).held && d.sup.warm.isNone

/-- Comparison has ended: what waits to be compared, and writes held back until then, are discarded (R322, R329).
[DEDUCED, log 80] -/
def Dev.dropHeld (d : Dev) (p : Fin 2) : Dev :=
  d.modPair p (fun x => { x with delay := [], resp := [], stallAt := none, irqs := [] })

/-- An asynchronous input of a pair is recorded with the primary's retired-instruction count, a number the core reference defines (R321).
[DESIGN CHOICE, log 75] -/
def Dev.recordIrq (d : Dev) (n : Fin 6) : Dev :=
  let p : Fin 2 := if n = 4 then 0 else 1
  if n.1 < 4 ∨ !d.checking p then d
  else
    let x := d.free 64
    let c := d.f64 (Reg.LS_TCNT_LO_COUNT p.1) (Reg.LS_TCNT_HI_COUNT p.1)
    x.2.modPair p (fun y => { y with irqs := y.irqs ++ [(c + y.delay.length, x.1)] })

/-! ### Halts (R427) -/

/-- Gnotar breaks lockstep on a pair until the next warm reset. -/
def Dev.breakLockstep (d : Dev) (p : Fin 2) : Dev :=
  if d.f (Reg.LS_STAT_STATE p.1) = 0 then
    ((d.setF (Reg.LS_STAT_STATE p.1) 2).dropHeld p).raise Reg.LS_EVT_DBG (2 ^ p.1) 63
  else d

/-- Bit i of the SCOPE granted to the open session (R423): 0 RUN_N, 1 RUN_S, 2 RUN_SP, 3 MEM_N, 4 MEM_S, 5 RESET,
6 RETURN, 7 PROVISION. -/
def Dev.scope (d : Dev) (i : Nat) : Bool := d.bit Reg.DBG_STAT_UNLOCKED && d.tb Reg.DBG_STAT_SCOPE i

/-- The session may halt the core in the world it is in. -/
def Dev.haltAllowed (d : Dev) (n : Fin 6) : Bool :=
  (n.1 < 4 || d.scope 2) && (if d.coreSecure n then d.scope 1 else d.scope 0)

/-- A core is halted; a pair's lockstep is broken (R332). -/
def Dev.haltCore (d : Dev) (n : Fin 6) (byBp : Bool) : Dev :=
  let d := d.tally
  let d := d.modCore n (fun c => { c with halted := some (c.halted.getD d.up), byBp := byBp, haltPend := false })
  let d := d.setTb Reg.DBG_STAT_HALTED n.1 true
  if n = 4 then d.breakLockstep 0 else if n = 5 then d.breakLockstep 1 else d

/-- A halt that waits acts as soon as the core is released and the session may halt it. -/
def Dev.haltDue (d : Dev) (n : Fin 6) : Dev :=
  if (d.cores[n]).haltPend && !(d.cores[n]).held && d.haltAllowed n then d.haltCore n false else d

/-- A halted core goes on; its timers have stood still (R313). -/
def Dev.resumeCore (d : Dev) (n : Fin 6) : Dev :=
  let d := d.tally
  match (d.cores[n]).halted with
  | some t =>
    (d.modCore n (fun c =>
      { c with halted := none, byBp := false, wdogAt := c.wdogAt + (d.up - t), entry := c.entry.map (fun e => e + (d.up - t)) })).setTb
      Reg.DBG_STAT_HALTED n.1 false
  | none => d

/-- A held core is released in the secure world at an address (R299, R411); a halt that waits acts. -/
def Dev.releaseCore (d : Dev) (n : Fin 6) (pc : Nat) : Dev :=
  (d.tally.modCore n (fun c => { c with pc := pc % 2 ^ 40, held := false, wdogAt := d.up, entry := none })).haltDue n

end Sys2Proof.Machine
end

