-- ==== Sys2Proof/Machine/DoorOps.lean ====
section
/-!
DEFINITION. Doorbell values (R147): the acceptance tests shared by doorbells, mirrors and the exporter's
acknowledgements, and the controller watchdog an accepted value restarts (R219).
-/

namespace Sys2Proof.Machine
open Sys2Proof

/-- Restart the slice's controller watchdog (R219). -/
def Dev.kickWdog (d : Dev) (s : Nat) : Dev := d.modSlice (sl s) (fun e => { e with wdogAt := d.now })

/-- A refused doorbell value: counted, with a DB_ERR event naming the doorbell's offset and the value (R147, R168).
[DEDUCED, log 55] -/
def Dev.dbErr (d : Dev) (s off x : Nat) : Dev := (d.bump (Reg.SLC_DB_ERR_COUNT s)).event s 0x03 none off x

/-- A consumer index passes the tests of R147. -/
def consumerOk (pi ci c : Nat) : Bool := decide (0 ≤ sdiff32 c ci) && decide (0 ≤ sdiff32 pi c)

/-- Take a consumer index for ring `r` of slice `s`, or refuse it (R147). -/
def Dev.takeConsumer (d : Dev) (s : Nat) (r : Fin 8) (off c : Nat) : Dev :=
  if consumerOk (d.ringPi s r) (d.ringCi s r) c then
    let d := d.modSlice (sl s) (fun e => { e with ci := put e.ci r (c % 2 ^ 32) })
    let d := if r = 2 then (d.evtFull s).evtLost s else d
    d.kickWdog s
  else d.dbErr s off c

/-- A CMD_PI value passes the tests of R147. -/
def Dev.cmdPiOk (d : Dev) (s p : Nat) : Bool :=
  decide (0 ≤ sdiff32 p (d.slices[sl s]).cmdPi) && decide (0 ≤ sdiff32 p (d.ringCi s 0)) &&
  decide (sdiff32 p (d.ringCi s 0) ≤ d.ringSize s 0)

/-- Take a CMD_PI value, or refuse it (R147). -/
def Dev.takeCmdPi (d : Dev) (s p : Nat) : Dev :=
  if d.cmdPiOk s p then
    (d.modSlice (sl s) (fun e => { e with cmdPi := p % 2 ^ 32 })).kickWdog s
  else d.dbErr s 0 p

end Sys2Proof.Machine
end

