-- ==== Sys2Proof/Machine/SwitchOps.lean ====
section
/-!
DEFINITION. The switch core's shared operations (R232–R253): tables, classification, room and staging, flow
control, the scheduler, sending a frame with the transparent-clock update (R274), flushing and removal.
-/

namespace Sys2Proof.Machine
open Sys2Proof

/-- A port number from any number. -/
def p8 (n : Nat) : Fin 8 := ⟨n % 8, Nat.mod_lt _ (by decide)⟩

/-- The number big-endian bytes spell. -/
def ofBe (bs : List Byte) : Nat := bs.foldl (fun x b => 256 * x + b.toNat) 0

/-- Big-endian value of `n` bytes at offset `o`. -/
def beAt (bs : List Byte) (o n : Nat) : Nat := ofBe ((bs.drop o).take n)

/-- Little-endian value of `n` bytes at offset `o`. -/
def leAt (bs : List Byte) (o n : Nat) : Nat := ofLeBytes ((bs.drop o).take n)

/-- Replace bytes from offset `o`. -/
def splice (bs : List Byte) (o : Nat) (new : List Byte) : List Byte :=
  bs.take o ++ new ++ bs.drop (o + new.length)

/-- Change the switch. -/
def Dev.modSw (d : Dev) (f : Switch → Switch) : Dev := d.setSw (f d.sw)

/-- Change a port. -/
def Dev.modPort (d : Dev) (p : Fin 8) (f : SwPort → SwPort) : Dev :=
  d.modSw (fun s => { s with ports := put s.ports p (f s.ports[p]) })

/-- A port of the switch. -/
def Dev.port (d : Dev) (p : Fin 8) : SwPort := d.sw.ports[p]

/-- Port p has been removed (R248). -/
def Dev.removed (d : Dev) (p : Fin 8) : Bool := d.bit (Reg.SW_P_STAT_REMOVED p.1)

/-- The SerDes of an external port E0–E3 is not ON (R317). [DEDUCED, log 77] -/
def Dev.serdesOff (d : Dev) (p : Fin 8) : Bool := 2 ≤ p.1 && p.1 < 6 && d.f (Reg.PWR_QTAG_STATE (30 + p.1)) != 0

/-- Advance 64-bit counter i of port p (R253). -/
def Dev.count (d : Dev) (p : Fin 8) (i : Nat) (n : Nat := 1) : Dev :=
  d.setF64 (Reg.SW_P_CNT_LO_COUNT p.1 i) (Reg.SW_P_CNT_HI_COUNT p.1 i)
    (d.f64 (Reg.SW_P_CNT_LO_COUNT p.1 i) (Reg.SW_P_CNT_HI_COUNT p.1 i) + n)

/-- Raise an SW_EVT bit. -/
def Dev.swEvt (d : Dev) (bit : RF) : Dev := d.raise bit 1 48

/-- Line rate of a port in Mbit/s; C and M have none (R232). -/
def Dev.lineRate (d : Dev) (p : Fin 8) : Nat :=
  if p.1 < 2 then 10000
  else if p.1 < 6 then
    match d.f (Reg.SW_P_CFG_MODE p.1) with
    | 2 => 2500
    | 1 => 1000
    | _ => (d.port p).mbps
  else 0

/-- Ticks a frame of n bytes occupies the wire at a port, preamble and gap included. -/
def Dev.wireTime (d : Dev) (p : Fin 8) (n : Nat) : Nat :=
  let r := d.lineRate p
  if r = 0 then 0 else ((n + 20) * 8 * 400 + r - 1) / r

/-- Ticks of `q` quanta of 512 bit times at a port. -/
def Dev.quantaTime (d : Dev) (p : Fin 8) (q : Nat) : Nat :=
  let r := d.lineRate p
  if r = 0 then 0 else q * 512 * 400 / r

/-- Cells of an output buffer (R232). -/
def outCells (p : Fin 8) : Nat := if p.1 < 2 then 6144 else 2048

/-- Cells a frame of n bytes (FCS included) occupies. -/
def cellsOf (n : Nat) : Nat := (n + 127) / 128

/-! ### Tables -/

/-- VLAN entry of a VID; one never written has no members (R234). -/
def Dev.vlan (d : Dev) (vid : Nat) : Vlan := (d.sw.vlans.find? (fun x => x.vid == vid)).getD ⟨vid, 0, 0, false⟩

/-- First index of the bucket of an address and VID (R236). -/
def macBucket (addr vid : Nat) : Nat := 4 * (crc32 (leBytes 6 addr ++ leBytes 2 vid) % 2048)

/-- The entry at an index. -/
def Dev.macAt (d : Dev) (i : Nat) : Option MacEntry := d.sw.mac.find? (fun e => e.idx == i)

/-- The entry of an address and VID. -/
def Dev.macFind (d : Dev) (addr vid : Nat) : Option MacEntry :=
  d.sw.mac.find? (fun e => e.addr == addr && e.vid == vid && e.idx / 4 == macBucket addr vid / 4)

/-- Store an entry at its index. -/
def Dev.macPut (d : Dev) (e : MacEntry) : Dev :=
  d.modSw (fun s => { s with mac := e :: s.mac.filter (fun x => x.idx != e.idx) })

/-- Remove the entries a test picks. -/
def Dev.macDrop (d : Dev) (f : MacEntry → Bool) : Dev := d.modSw (fun s => { s with mac := s.mac.filter (fun e => !f e) })

/-- Learn or refresh a source address (R236); firmware's write of the entry at the same instant wins. -/
def Dev.learn (d : Dev) (p : Fin 8) (addr vid : Nat) : Dev :=
  match d.macFind addr vid with
  | some e =>
    if e.static || (e.written && e.since == d.now) then d
    else d.macPut { e with ports := 2 ^ p.1, since := d.now, written := false }
  | none =>
    let b := macBucket addr vid
    match (List.range 4).find? (fun w => (d.macAt (b + w)).isNone) with
    | some w => d.macPut { idx := b + w, addr, vid, ports := 2 ^ p.1, static := false, since := d.now }
    | none => d.swEvt Reg.SW_EVT_MAC_FULL

/-! ### Frames -/

/-- The frame carries an 802.1Q tag. -/
def tagged (bs : List Byte) : Bool := beAt bs 12 2 == 0x8100

/-- EtherType behind a tag, and the offset of what follows it. -/
def etherType (bs : List Byte) : Nat := if tagged bs then beAt bs 16 2 else beAt bs 12 2
def payloadAt (bs : List Byte) : Nat := if tagged bs then 18 else 14

/-- VID and priority of a received frame (R234). -/
def Dev.classify (d : Dev) (p : Fin 8) (bs : List Byte) : Nat × Nat :=
  let pvid := d.f (Reg.SW_P_CFG_PVID p.1)
  if tagged bs then
    let tci := beAt bs 14 2
    (if tci % 4096 = 0 then pvid else tci % 4096, tci / 8192)
  else (pvid, d.f (Reg.SW_P_CFG_DEF_PCP p.1))

/-- Queue of a priority (R234). -/
def Dev.queueOf (d : Dev) (pcp : Nat) : Fin 8 := p8 (d.f ⟨Reg.SW_PCP_MAP_at, 3 * pcp, 3, pcp, true⟩)

/-- The frame as it leaves an output: untagged or tagged (R234); a Jasia frame, in no VLAN, as it is (R257). -/
def Dev.egressBytes (d : Dev) (o : Fin 8) (f : SwFrame) : List Byte :=
  let bare := if tagged f.bytes then f.bytes.take 12 ++ f.bytes.drop 16 else f.bytes
  if f.vid = 0 then f.bytes
  else if (d.vlan f.vid).untag.testBit o.1 then bare
  else bare.take 12 ++ beBytes 2 0x8100 ++ beBytes 2 (8192 * f.pcp + f.vid) ++ bare.drop 12

/-- The FCS of a frame (R70's CRC, sent low byte first). [PRESUMED, log 100] -/
def fcsOf (bs : List Byte) : List Byte := leBytes 4 (crc32 bs)

/-- Complement of the correct FCS (R241). -/
def badFcs (bs : List Byte) : List Byte := leBytes 4 (crc32 bs ^^^ 0xFFFFFFFF)

/-! ### Room in output buffers (R239, R252) -/

/-- Cells queue q of an output holds. -/
def queueCells (p : SwPort) (q : Fin 8) : Nat := (p.queues[q]).foldl (fun n f => n + f.cells) 0

/-- Cells of the shared remainder in use. -/
def sharedUsed (p : SwPort) (min : Nat) : Nat :=
  (List.finRange 8).foldl (fun n q => n + (queueCells p q - min)) 0

/-- Cells in output M that frames of a slice hold. -/
def sliceCells (p : SwPort) (s : Option Nat) : Nat :=
  (List.finRange 8).foldl (fun n q => n + ((p.queues[q]).filter (fun f => f.slice == s)).foldl (fun n f => n + f.cells) 0) 0

/-- The slices' shares of output M (R252). -/
def Dev.shareSum (d : Dev) : Nat := (List.range 64).foldl (fun n s => n + d.f (Reg.SLC_SWQ_CELLS s)) 0

/-- Cells a slice may hold of output M. -/
def Dev.share (d : Dev) (s : Option Nat) : Option Nat :=
  match s with
  | some n => if d.f (Reg.SLC_SWQ_CELLS n) = 0 then none else some (d.f (Reg.SLC_SWQ_CELLS n))
  | none => none

/-- Output o has room for a frame (R239, R252). [DEDUCED, log 64] -/
def Dev.room (d : Dev) (o : Fin 8) (f : SwFrame) : Bool :=
  let p := d.port o
  let min := d.f (Reg.SW_P_QMIN_MIN o.1)
  let own := queueCells p f.q
  let shared := outCells o - 8 * min
  let more := (own + f.cells - min) - (own - min)
  decide (sharedUsed p min + more ≤ shared) &&
  (if o = 7 && d.bit Reg.SW_CTL_PART then
    match d.share f.slice with
    | some c => decide (sliceCells p f.slice + f.cells ≤ c)
    | none =>
      let others := (List.finRange 8).foldl (fun n q => n +
        ((p.queues[q]).filter (fun g => (d.share g.slice).isNone)).foldl (fun n g => n + g.cells) 0) 0
      decide (others + f.cells + d.shareSum ≤ outCells 7)
   else true)

/-- Admit a copy to output o's queue; the fabric still has its cells to move. -/
def Dev.intoQueue (d : Dev) (o : Fin 8) (f : SwFrame) : Dev :=
  let id := d.sw.nextId + 1
  let d := d.modSw (fun s => { s with nextId := id })
  let d := d.modPort o (fun p => { p with queues := put p.queues f.q (p.queues[f.q] ++ [{ f with id := id }]) })
  d.modPort f.inp (fun p => { p with xfer := p.xfer ++ [⟨id, o, f.cells, f.barrier⟩] })

/-! ### Staging and flow control (R242) -/

/-- Staged cells of an input: all, and of one priority. -/
def stagedCells (p : SwPort) : Nat := p.stage.foldl (fun n f => n + f.2.cells) 0
def stagedOf (p : SwPort) (pcp : Nat) : Nat := (p.stage.filter (fun f => f.2.pcp == pcp)).foldl (fun n f => n + f.2.cells) 0

/-- Priorities a port may pause: the enabled ones; priority 7 never on J0 and J1 (R242, R244). -/
def Dev.pfcMask (d : Dev) (p : Fin 8) : Nat :=
  let m := d.f (Reg.SW_P_CFG_PFC_EN p.1)
  if p.1 < 2 then m % 128 else m

/-- Tell the partner of port p that the priorities of a mask are held back. -/
def Dev.sendXoff (d : Dev) (p : Fin 8) (pfc : Bool) (m : Nat) : Dev :=
  ((d.emit (.pauseFrame p.1 pfc m 0xFFFF)).count p 11).modPort p (fun x =>
    { x with xoffAt := putAll x.xoffAt (fun q t => if m.testBit q.1 then d.now else t) })

/-- Send XOFF where a threshold is reached (R242). -/
def Dev.xoffCheck (d : Dev) (p : Fin 8) : Dev :=
  let x := d.port p
  let tot := stagedCells x
  let now := d.f (Reg.SW_P_STAT_XOFF p.1)
  let top := d.f (Reg.SW_P_THR_XOFF p.1)
  match d.f (Reg.SW_P_CFG_FC p.1) with
  | 1 =>
    if top ≤ tot ∧ now = 0 then
      (d.setF (Reg.SW_P_STAT_XOFF p.1) 0xFF).sendXoff p false 0xFF
    else d
  | 2 =>
    let want := (List.range 8).foldl (fun m q =>
      if (d.pfcMask p).testBit q ∧ !now.testBit q ∧ (top ≤ tot ∨ d.f (Reg.SW_P_THR_QXOFF p.1) ≤ stagedOf x q) then m + 2 ^ q
      else m) 0
    if want = 0 then d
    else (d.setF (Reg.SW_P_STAT_XOFF p.1) (now ||| want)).sendXoff p true want
  | _ => d

/-- Send XON where the condition has cleared; with flow control off nothing is sent and no XOFF is in force (R242).
[DEDUCED, log 64] -/
def Dev.xonCheck (d : Dev) (p : Fin 8) : Dev :=
  let x := d.port p
  let tot := stagedCells x
  let now := d.f (Reg.SW_P_STAT_XOFF p.1)
  let xon := d.f (Reg.SW_P_THR_XON p.1)
  match d.f (Reg.SW_P_CFG_FC p.1) with
  | 1 =>
    if now ≠ 0 ∧ tot ≤ xon then
      ((d.setF (Reg.SW_P_STAT_XOFF p.1) 0).emit (.pauseFrame p.1 false 0xFF 0)).count p 11
    else d
  | 2 =>
    let off := (List.range 8).foldl (fun m q =>
      if now.testBit q ∧ tot < d.f (Reg.SW_P_THR_XOFF p.1) ∧ stagedOf x q < d.f (Reg.SW_P_THR_QXOFF p.1) ∧
          stagedOf x q ≤ xon then m + 2 ^ q
      else m) 0
    if off = 0 then d
    else ((d.setF (Reg.SW_P_STAT_XOFF p.1) (now - off)).emit (.pauseFrame p.1 true off 0)).count p 11
  | _ => d.setF (Reg.SW_P_STAT_XOFF p.1) 0

/-- One copy of a frame for one output: queued if there is room and no staged frame of its priority is before it; otherwise staged
(R242), or, a multicast copy, held (R246); barrier-class frames pass the staged ones (R244); C and M are held back by their handshakes before this.
[DEDUCED, log 64] -/
def Dev.copyTo (d : Dev) (o : Fin 8) (f : SwFrame) (multi : Bool) : Dev :=
  let x := d.port f.inp
  if d.removed o then d
  else if d.room o f && (multi || f.barrier || !(x.stage.any (fun g => g.2.pcp == f.pcp))) then d.intoQueue o f
  else if multi then
    if x.hold.foldl (fun n h => n + h.2.2.cells) 0 + f.cells ≤ 64 then
      d.modPort f.inp (fun p => { p with hold := p.hold ++ [(o, d.now, f)] })
    else (d.count o 9).swEvt Reg.SW_EVT_MC_DROP
  else if stagedCells x + f.cells ≤ 256 then
    (d.modPort f.inp (fun p => { p with stage := p.stage ++ [(o, f)] })).xoffCheck f.inp
  else d.count f.inp 8

/-- Instant from which a copy held since t is dropped (R246). -/
def Dev.holdEnd (d : Dev) (t : Nat) : Nat := t + 40000 * d.f Reg.SW_CTL_MCAST_HOLD

/-- Move staged frames and held copies of an input to outputs that now have room, in order (R242, R246); the expiry of a hold
wins over room at the same instant. [DEDUCED, log 64] -/
def Dev.releaseIn (d : Dev) (i : Fin 8) : Dev :=
  let d := ((d.port i).hold).foldl (fun d h =>
    if d.now < d.holdEnd h.2.1 && d.room h.1 h.2.2 then
      (d.modPort i (fun p => { p with hold := p.hold.erase h })).intoQueue h.1 h.2.2
    else d) d
  let r := ((d.port i).stage).foldl (fun (r : Dev × List Nat) g =>
    if r.2.contains g.2.pcp then r
    else if r.1.room g.1 g.2 then
      ((r.1.modPort i (fun p => { p with stage := p.stage.erase g })).intoQueue g.1 g.2, r.2)
    else (r.1, g.2.pcp :: r.2)) (d, [])
  r.1.xonCheck i

/-- Do so for every input. -/
def Dev.release (d : Dev) : Dev := (List.finRange 8).foldl Dev.releaseIn d

/-! ### Fabric (R237) -/

/-- The transfer an input asks for in a round: its first barrier-class one, else its first. -/
def request (p : SwPort) : Option SwXfer :=
  match p.xfer.find? (fun x => x.barrier) with
  | some x => some x
  | none => p.xfer.head?

/-- Inputs in port order counting on from a pointer. -/
def portsFrom (o : Fin 8) : List (Fin 8) := (List.range 8).map (fun i => p8 (o.1 + i))

/-- Move one cell of input i's transfer x: the output's copy has one more cell. -/
def Dev.moveCell (d : Dev) (i : Fin 8) (x : SwXfer) : Dev :=
  let d := d.modPort x.dest (fun p => { p with queues := putAll p.queues (fun _ q =>
    q.map (fun f => if f.id = x.id then { f with arrived := f.arrived + 1 } else f)) })
  d.modPort i (fun p => { p with xfer := p.xfer.filterMap (fun y =>
    if y.id = x.id then (if y.left ≤ 1 then none else some { y with left := y.left - 1 }) else some y) })

/-- Grants of one output in a round, from the requests made at its start. -/
def Dev.grantOut (d : Dev) (reqs : List (Fin 8 × SwXfer)) (o : Fin 8) : Dev :=
  let mine := reqs.filter (fun r => r.2.dest == o)
  let bar := mine.filter (fun r => r.2.barrier)
  let rest := (portsFrom (d.port o).rot).filterMap (fun i => mine.find? (fun r => r.1 == i && !r.2.barrier))
  let g1 := bar.take 2
  let g2 := rest.take (2 - g1.length)
  let d := (g1 ++ g2).foldl (fun d r => d.moveCell r.1 r.2) d
  match g2.getLast? with
  | some r => d.modPort o (fun p => { p with rot := p8 (r.1.1 + 1) })
  | none => d

/-! ### Scheduling and sending (R238, R240, R241) -/

/-- A queue is stopped by a received PAUSE or PFC frame (R243). -/
def Dev.queuePaused (d : Dev) (p : Fin 8) (q : Fin 8) : Bool := d.tb (Reg.SW_P_STAT_PAUSED p.1) q.1

/-- The head of a queue can be sent: all cells arrived, or a cut-through frame's first cell. -/
def headReady (p : SwPort) (q : Fin 8) : Option SwFrame :=
  match (p.queues[q]).head? with
  | some f => if f.cells ≤ f.arrived ∨ (f.cut ∧ 1 ≤ f.arrived) then some f else none
  | none => none

/-- Weight of a queue. -/
def Dev.weight (d : Dev) (p q : Fin 8) : Nat := d.f ⟨Reg.SW_P_WGT_at p.1, 4 * q.1, 4, 1, true⟩

/-- Deficit round robin over the queues below SP_FROM, in at most `n` visits (R238). -/
def Dev.drr (d : Dev) (p : Fin 8) : Nat → Dev × Option (Fin 8)
  | 0 => (d, none)
  | n + 1 =>
    let x := d.port p
    let q := x.turn
    let next (d : Dev) := d.modPort p (fun x => { x with turn := p8 (q.1 + 1), turnOpen := false })
    if d.f (Reg.SW_P_SCHED_SP_FROM p.1) ≤ q.1 ∨ d.queuePaused p q then (next d).drr p n
    else match headReady x q with
      | none => (next (if (x.queues[q]).isEmpty then d.modPort p (fun x => { x with deficit := put x.deficit q 0 }) else d)).drr p n
      | some f =>
        let def_ := if x.turnOpen then x.deficit[q] else x.deficit[q] + 128 * d.weight p q
        let len := f.bytes.length + 4
        if len ≤ def_ then
          (d.modPort p (fun x => { x with deficit := put x.deficit q (def_ - len), turnOpen := true }), some q)
        else (next (d.modPort p (fun x => { x with deficit := put x.deficit q def_ }))).drr p n

/-- The queue an output serves next (R238). -/
def Dev.pick (d : Dev) (p : Fin 8) : Dev × Option (Fin 8) :=
  let x := d.port p
  let from_ := d.f (Reg.SW_P_SCHED_SP_FROM p.1)
  match ((List.finRange 8).reverse).find? (fun q => from_ ≤ q.1 && !d.queuePaused p q && (headReady x q).isSome) with
  | some q => (d, some q)
  | none =>
    if (List.finRange 8).any (fun q => q.1 < from_ && !d.queuePaused p q && (headReady x q).isSome) then d.drr p 640
    else (d, none)

/-- Offset of the PTP header of an L2 PTP frame (R269). -/
def ptpAt (bs : List Byte) : Option Nat := if etherType bs = 0x88F7 then some (payloadAt bs) else none

/-- PTP message type of an L2 PTP frame. -/
def ptpType (bs : List Byte) : Option Nat := (ptpAt bs).map (fun o => beAt bs o 1 % 16)

/-- Raise correctionField by an amount in ns·2^16, saturating (R274). -/
def addCorrection (bs : List Byte) (o : Nat) (x : Int) : List Byte :=
  let c := signed 64 (beAt bs (o + 8) 8) + x
  splice bs (o + 8) (beBytes 8 (pattern 64 (if 0x7FFFFFFFFFFFFFFF < c then 0x7FFFFFFFFFFFFFFF else c)))

/-- Receive and transmit corrections of a port's mode in eighths of a tick of 0.3125 ns, each to the nearest (R272).
[DEDUCED, log 68] -/
def Dev.corrections (d : Dev) (p : Fin 8) : Nat × Nat :=
  match d.lineRate p with
  | 10000 => (109, 129)
  | 2500 => (197, 183)
  | 1000 => (476, 410)
  | 100 => (4636, 3866)
  | 10 => (45596, 38426)
  | _ => (0, 0)

/-- The receive stamp of port p from the instant its PCS formed: less the mode's correction and RXOFS (R271, R272). -/
def Dev.rxStamp (d : Dev) (p : Fin 8) (raw : Nat) : Nat :=
  ((raw : Int) - (d.corrections p).1 - signed 32 (d.f (Reg.PTP_P_RXOFS_VALUE p.1))).toNat

/-- The transmit stamp of port p from the instant its PCS formed: the mode's correction and TXOFS added (R271, R272). -/
def Dev.txStamp (d : Dev) (p : Fin 8) (raw : Nat) : Nat :=
  ((raw : Int) + (d.corrections p).2 + signed 32 (d.f (Reg.PTP_P_TXOFS_VALUE p.1))).toNat

/-- The transparent clock's update of a frame forwarded between two of J0, J1 and E0–E3 (R274); stamps in eighths of
a tick, 20,480 units of ns·2^16 each. -/
def Dev.residence (d : Dev) (i o : Fin 8) (stamp egress : Nat) (bs : List Byte) : List Byte × Bool :=
  match ptpAt bs, ptpType bs with
  | some h, some ty =>
    if d.bit Reg.PTP_CTL_TC && i.1 < 6 && o.1 < 6 && ty < 4 then
      let res : Int := d.txStamp o egress - stamp
      let link : Int := if ty = 0 ∧ d.f (Reg.PTP_P_CFG_MECH o.1) = 1 then d.f (Reg.PTP_P_LINKDLY_VALUE i.1) else 0
      let asym : Int := if ty < 2 then signed 32 (d.f (Reg.PTP_P_ASYM_VALUE i.1)) else 0
      (addCorrection bs h ((res + link + asym) * 20480), true)
    else (bs, false)
  | _, _ => (bs, false)

/-- Take a frame out of its queue. -/
def Dev.unqueue (d : Dev) (p q : Fin 8) : Dev := d.modPort p (fun x => { x with queues := put x.queues q ((x.queues[q]).drop 1) })

/-- Send a frame on an external port: transparent-clock update, tag, FCS or tail mark, counters (R238–R241); an errored Jasia frame
was counted in RX_ERR when it was received. -/
def Dev.sendExternal (d : Dev) (p : Fin 8) (f : SwFrame) (egress : Nat) : Dev :=
  let bs := (d.residence f.inp p f.stamp egress (d.egressBytes p f)).1
  let max := d.f Reg.SW_MAXFRM_BYTES
  let bs := if f.bad then bs.take (max - 4) else bs
  let d := d.emit (.frame p.1 (bs ++ (if f.bad then badFcs bs else fcsOf bs)))
  let d := (d.count p 2).count p 3 (bs.length + 4)
  let d := if f.bad then ((d.count p 7).count f.inp 4 (if f.vid = 0 then 0 else 1)).swEvt Reg.SW_EVT_TAILMARK else d
  let busy := d.wireTime p (bs.length + 4)
  d.modPort p (fun x => { x with busyTill := Nat.max d.now x.busyTill + busy, curCut := if f.cut then some f.inp else none,
                                 expressTill := if f.barrier && x.preempt then d.now + busy else x.expressTill })

/-! ### Port C's rings (R250) -/

/-- Address of entry i of a C ring. -/
def Dev.cEntry (d : Dev) (lo hi : RF) (i : Nat) : Nat := d.f64 lo hi + 16 * (i % 2 ^ d.f Reg.SW_C_CFG_LOG2)

/-- The receive ring of port C has room; C stops in a warm reset (R407). -/
def Dev.cRoom (d : Dev) : Bool :=
  d.bit Reg.SW_C_CFG_EN && d.sup.warm.isNone && decide (sdiff32 (d.f Reg.SW_C_RX_PI_IDX) (d.f Reg.SW_C_RX_CI_IDX) < 2 ^ d.f Reg.SW_C_CFG_LOG2)

/-- What the accesses that deliver a frame to the cores meet (R250, R307). -/
def Dev.cReach (d : Dev) (word : Nat → Nat → Nat) (f : SwFrame) : Reach :=
  let e := d.cEntry Reg.SW_C_RX_LO_ADDR Reg.SW_C_RX_HI_ADDR (d.f Reg.SW_C_RX_PI_IDX)
  Reach.all [d.reach 9 0 .read e 16, d.reach 9 0 .write (word e 8 % 2 ^ 40) (d.egressBytes 6 f).length, d.reach 9 0 .write e 16]

/-- Deliver a frame to the cores: bytes into the entry's buffer, length and status into the entry (R250). -/
def Dev.deliverC (d : Dev) (word : Nat → Nat → Nat) (f : SwFrame) : Dev :=
  let i := d.f Reg.SW_C_RX_PI_IDX
  let e := d.cEntry Reg.SW_C_RX_LO_ADDR Reg.SW_C_RX_HI_ADDR i
  let bs := d.egressBytes 6 f
  let d := d.post (word e 8 % 2 ^ 40) bs
  let d := d.post (e + 8) (leBytes 2 bs.length ++ leBytes 2 0 ++ leBytes 4 0)
  (((d.wrap Reg.SW_C_RX_PI_IDX).count 6 2).count 6 3 (bs.length + 4)).pend 76

/-! ### Export acknowledgements (R251) -/

/-- Apply an ACK: the ring's consumer index under R147, refused as a doorbell's is; what it covers is no longer outstanding. -/
def Dev.exportAck (d : Dev) (s : Nat) (r : Fin 8) (c : Nat) : Dev :=
  if consumerOk (d.ringPi s r) (d.ringCi s r) c then
    let d := d.modSlice (sl s) (fun e => { e with ci := put e.ci r (c % 2 ^ 32) })
    let d := (if r = 2 then (d.evtFull s).evtLost s else d).kickWdog s
    d.modSw (fun w => { w with exp := w.exp.map (fun e =>
      if e.slice = sl s ∧ e.ring = r then { e with sent := e.sent.filter (fun x => 0 < sdiff32 x.1 c) } else e) })
  else d.dbErr s (4 * r.1) c

/-- The frame is one of the exporter's, to its own address (R235, R250). -/
def Dev.toExporter (d : Dev) (bs : List Byte) : Bool :=
  etherType bs == d.f Reg.SW_EXP_ETYPE_ETYPE && leAt bs 0 6 == d.f Reg.SW_EXP_SA_LO_ADDR + 2 ^ 32 * d.f Reg.SW_EXP_SA_HI_ADDR

/-- A frame delivered to M: an ACK frame is applied, any other has no effect (R235, R251). -/
def Dev.deliverM (d : Dev) (f : SwFrame) : Dev :=
  let o := payloadAt f.bytes
  let d := (d.count 7 2).count 7 3 (f.bytes.length + 4)
  if d.toExporter f.bytes ∧ beAt f.bytes o 1 = 2 ∧ beAt f.bytes (o + 1) 1 < 64 ∧ 1 ≤ beAt f.bytes (o + 2) 1 ∧ beAt f.bytes (o + 2) 1 < 8 then
    d.exportAck (beAt f.bytes (o + 1) 1) (p8 (beAt f.bytes (o + 2) 1)) (leAt f.bytes (o + 4) 4)
  else d

/-! ### Classification and lookup (R233–R236, R240) -/

/-- The destination address is one of those R235 reserves. -/
def reservedDa (bs : List Byte) : Bool := 0x0180C2000000 ≤ beAt bs 0 6 && beAt bs 0 6 ≤ 0x0180C200000F

/-- The frame is removed from the normal lookup (R235). -/
def Dev.special (d : Dev) (bs : List Byte) : Bool := reservedDa bs || d.toExporter bs

/-- Destination ports of a frame as a mask, and whether it is multicast or flooded (R235, R236): addresses of the MAC and of the PTP
unit go to no port, the broadcast address is flooded whatever the table holds, and nothing goes back to its ingress port. -/
def Dev.lookup (d : Dev) (p : Fin 8) (bs : List Byte) (vid : Nat) : Nat × Bool :=
  let da := leAt bs 0 6
  let group := (beAt bs 0 1).testBit 0
  let hi := beAt bs 0 6
  let back (m : Nat) : Nat := setBit (m % 256) p.1 false
  if hi = 0x0180C2000001 ∨ hi = 0x0180C200000E then (0, false)
  else if reservedDa bs then (back (2 ^ 6), false)
  else if d.toExporter bs then (back (2 ^ 7), false)
  else
    let hit := (d.macFind da vid).filter (fun e => !group || (e.static && hi != 0xFFFFFFFFFFFF))
    let m := match hit with
      | some e => e.ports
      | none => (d.vlan vid).member
    (back m, group || hit.isNone)

/-- A received frame is errored by its length (R233). -/
def Dev.badLength (d : Dev) (bs : List Byte) : Bool :=
  bs.length + 4 < 64 || d.f Reg.SW_MAXFRM_BYTES < bs.length + 4

/-- The frame as the switch holds it, for one output. -/
def Dev.frameFor (d : Dev) (p o : Fin 8) (bs : List Byte) (stamp : Nat) : SwFrame :=
  let c := d.classify p bs
  let named := beAt bs (payloadAt bs + 1) 1
  let sl := if o = 7 ∧ d.toExporter bs ∧ named < 64 then some named else none
  { inp := p, vid := c.1, pcp := c.2, q := d.queueOf c.2, cells := cellsOf (bs.length + 4), stamp := stamp, slice := sl,
    bytes := bs }

/-- A frame from port p can be cut through to output o (R240). -/
def Dev.cutOk (d : Dev) (p o : Fin 8) (f : SwFrame) : Bool :=
  d.bit (Reg.SW_P_CFG_CT_EN p.1) && p.1 < 6 && o.1 < 6 && d.lineRate o ≤ d.lineRate p &&
  (d.port o).busyTill ≤ d.now && ((d.port o).queues[f.q]).isEmpty

/-- A UDP/IPv4 frame to a PTP port: offset of its PTP header, and its destination address (R269, R270). -/
def udpPtp (bs : List Byte) : Option (Nat × Nat) :=
  let o := payloadAt bs
  let ihl := 4 * (beAt bs o 1 % 16)
  let port := beAt bs (o + ihl + 2) 2
  if etherType bs = 0x0800 ∧ beAt bs (o + 9) 1 = 17 ∧ (port = 319 ∨ port = 320) then some (o + ihl + 8, beAt bs (o + 16) 4)
  else none

/-- PTP frames that are not forwarded (R270): messages the ingress port's delay mechanism keeps, and UDP frames to the
unit's own address. -/
def Dev.ptpKept (d : Dev) (p : Fin 8) (bs : List Byte) : Bool :=
  let kept (ty : Nat) : Bool :=
    if d.f (Reg.PTP_P_CFG_MECH p.1) = 1 then ty == 1 || ty == 9 else ty == 2 || ty == 3 || ty == 10
  d.bit Reg.PTP_CTL_EN && p.1 < 6 &&
  (match ptpType bs, udpPtp bs with
   | some ty, _ => kept ty
   | none, some (o, ip) => 2 ≤ p.1 && (ip == d.f Reg.PTP_IPV4_VALUE || (ip == 0xE0000181 && kept (beAt bs o 1 % 16)))
   | none, none => false)

/-- Forward a classified frame to its outputs (R235, R236, R240, R246). -/
def Dev.forward (d : Dev) (p : Fin 8) (bs : List Byte) (bad : Bool) (stamp : Nat) : Dev :=
  let vid := (d.classify p bs).1
  let l := d.lookup p bs vid
  let outs := (List.finRange 8).filter (fun o => l.1.testBit o.1 && !d.removed o)
  match l.2, outs with
  | false, [o] =>
    let f := d.frameFor p o bs stamp
    if d.cutOk p o f then d.copyTo o { f with cut := true, bad := bad } false
    else if bad then d.count p 4
    else d.copyTo o f false
  | _, _ =>
    if bad then d.count p 4
    else outs.foldl (fun d o => d.copyTo o (d.frameFor p o bs stamp) true) d

/-- Every output a frame from C or M would go to has room (R242). -/
def Dev.allRoom (d : Dev) (p : Fin 8) (bs : List Byte) : Bool :=
  let l := d.lookup p bs (d.classify p bs).1
  (List.finRange 8).all (fun o => !l.1.testBit o.1 || d.removed o || d.room o (d.frameFor p o bs 0))

/-- A frame from port p is filtered: its VLAN has the port as no member, and the normal lookup takes it (R234, R235).
[DEDUCED, log 64] -/
def Dev.filtered (d : Dev) (p : Fin 8) (bs : List Byte) : Bool :=
  !d.special bs && !(d.vlan (d.classify p bs).1).member.testBit p.1

/-- A good or cut-through frame enters the switch: filtered, learned, forwarded (R234–R236). -/
def Dev.ingress (d : Dev) (p : Fin 8) (bs : List Byte) (bad : Bool) (stamp : Nat) : Dev :=
  if d.filtered p bs then d.count p 5
  else
    let vid := (d.classify p bs).1
    let d := if !bad && (d.vlan vid).learn then d.learn p (leAt bs 6 6) vid else d
    if d.ptpKept p bs then d else d.forward p bs bad stamp

/-! ### Pauses (R243) -/

/-- A received PAUSE stops every queue of the output at its next frame boundary for its quanta, a PFC frame each named queue, but on
J0 and J1 not priority 7 (R243). -/
def Dev.pauseIn (d : Dev) (p : Fin 8) (pfc : Bool) (mask : Nat) (quanta : Nat → Nat) : Dev :=
  let d := d.count p 12
  (List.finRange 8).foldl (fun d q =>
    if !pfc || (mask.testBit q.1 && !(p.1 < 2 && q.1 == 7)) then
      let n := if pfc then quanta q.1 else quanta 0
      if n = 0 then
        (d.setTb (Reg.SW_P_STAT_PAUSED p.1) q.1 false).modPort p (fun x => { x with paused := put x.paused q 0 })
      else
        let start := Nat.max d.now (d.port p).busyTill
        (d.setTb (Reg.SW_P_STAT_PAUSED p.1) q.1 true).modPort p (fun x =>
          { x with paused := put x.paused q (start + d.quantaTime p n) })
    else d) d

/-! ### Flushing and removal (R247, R248) -/

/-- Discard an output's queued frames, counted in FLUSH_DROP. -/
def Dev.flushOut (d : Dev) (p : Fin 8) : Dev :=
  let n := (List.finRange 8).foldl (fun n q => n + ((d.port p).queues[q]).length) 0
  let d := d.modPort p (fun x => { x with queues := Vector.replicate 8 [] })
  let d := (List.finRange 8).foldl (fun d i =>
    d.modPort i (fun x => { x with xfer := x.xfer.filter (fun y => y.dest != p) })) d
  d.count p 10 n

/-- Remove a port (R248): what it had received and the switch still kept staged or held for other ports is discarded and counted with
the rest. [DEDUCED, log 64] -/
def Dev.removePort (d : Dev) (p : Fin 8) (cause : Nat) : Dev :=
  if d.removed p then d
  else
    let d := (d.setTb Reg.SYS_FENCE_PORT p.1 true).setF (Reg.SW_P_STAT_REMOVED p.1) 1
    let d := d.flushOut p
    let d := (List.finRange 8).foldl (fun d i =>
      let x := d.port i
      let held := x.hold.filter (fun h => h.1 == p)
      let st := x.stage.filter (fun g => g.1 == p)
      (d.modPort i (fun x => { x with hold := x.hold.filter (fun h => h.1 != p), stage := x.stage.filter (fun g => g.1 != p) })).count
        p 10 (held.length + st.length)) d
    let d := d.macDrop (fun e => e.ports.testBit p.1)
    let d := match (d.port p).curCut with
      | some i => if d.now < (d.port p).busyTill then d.count i 6 else d
      | none => d
    let d := d.count p 10 ((d.port p).stage.length + (d.port p).hold.length)
    let d := (d.setF (Reg.SW_P_STAT_XOFF p.1) 0).setF (Reg.SW_P_STAT_PAUSED p.1) 0
    let d := d.modPort p (fun x => { x with stage := [], hold := [], busyTill := 0, curCut := none,
                                            paused := Vector.replicate 8 0 })
    let d := d.log 0x05 48 (evInfo p.1) cause
    (d.swEvt Reg.SW_EVT_REMOVED).release

/-- An accepted re-enable (R249). -/
def Dev.reenablePort (d : Dev) (p : Fin 8) : Dev :=
  (d.setF (Reg.SW_P_STAT_REMOVED p.1) 0).setTb Reg.SYS_FENCE_PORT p.1 false

/-! ### The exporter (R250–R252) -/

/-- Slice s is exported. -/
def Dev.exported (d : Dev) (s : Nat) : Bool :=
  if s < 32 then d.tb Reg.SW_EXP_SLC_LO_MASK s else d.tb Reg.SW_EXP_SLC_HI_MASK (s - 32)

/-- Next index to export of a ring: where the exporter is, or the consumer index if it is behind or beyond. [DEDUCED, log 65] -/
def Dev.expNext (d : Dev) (s : Nat) (r : Fin 8) : Nat :=
  let ci := d.ringCi s r
  match d.sw.exp.find? (fun e => e.slice == sl s && e.ring == r) with
  | some e => if 0 ≤ sdiff32 e.next ci ∧ 0 ≤ sdiff32 (d.ringPi s r) e.next then e.next else ci
  | none => ci

/-- A ring has entries to export: exported slice, ring 1–7 enabled and local. -/
def Dev.expDue (d : Dev) (s : Nat) (r : Fin 8) : Bool :=
  d.exported s && r.1 != 0 && d.bit (Reg.SLC_RING_CFG_EN s r.1) && d.f (Reg.SLC_RING_CFG_LOC s r.1) == 2 &&
  decide (0 < sdiff32 (d.ringPi s r) (d.expNext s r))

/-- The ring the exporter serves next: slices in turn, rings rising (R252). [DEDUCED, log 65] -/
def Dev.expPick (d : Dev) : Option (Fin 64 × Fin 8) :=
  let slices := (List.range 64).map (fun i => sl (d.sw.expTurn.1 + i))
  (slices.find? (fun s => (List.finRange 8).any (fun r => d.expDue s.1 r))).bind (fun s =>
    ((List.finRange 8).find? (fun r => d.expDue s.1 r)).map (fun r => (s, r)))

/-- An export frame of up to as many entries as fit (R250). -/
def Dev.expBytes (d : Dev) (mem : Nat → Nat → List Byte) (s : Nat) (r : Fin 8) (i n : Nat) : List Byte :=
  let entries := (List.range n).foldl (fun bs j => bs ++ mem (d.entryAddr s r.1 (i + j)) (d.entrySize s r.1)) []
  leBytes 4 (d.f Reg.SW_EXP_DA_LO_ADDR) ++ leBytes 2 (d.f Reg.SW_EXP_DA_HI_ADDR) ++
  leBytes 4 (d.f Reg.SW_EXP_SA_LO_ADDR) ++ leBytes 2 (d.f Reg.SW_EXP_SA_HI_ADDR) ++
  beBytes 2 0x8100 ++ beBytes 2 (8192 * d.f Reg.SW_EXP_CFG_PCP + d.f Reg.SW_EXP_CFG_VID) ++
  beBytes 2 (d.f Reg.SW_EXP_ETYPE_ETYPE) ++
  leBytes 1 1 ++ leBytes 1 s ++ leBytes 1 r.1 ++ leBytes 1 n ++ leBytes 4 i ++ leBytes 8 d.now ++ entries

/-- What the exporter's reads of some entries of a ring meet, the first that is not open (R250, R310). -/
def Dev.expReach (d : Dev) (s : Fin 64) (r : Fin 8) (i n : Nat) : Reach :=
  Reach.all ((List.range n).map (fun j => d.reach 9 s.1 .read (d.entryAddr s.1 r.1 (i + j)) (d.entrySize s.1 r.1)))

/-- Send one export frame for a ring; it pauses while a checker is waited for, and an access that fails removes port M (R248, R310). -/
def Dev.exportOne (d : Dev) (mem : Nat → Nat → List Byte) (s : Fin 64) (r : Fin 8) : Dev :=
  let i := d.expNext s.1 r
  let fit := (d.f Reg.SW_MAXFRM_BYTES - 38) / d.entrySize s.1 r.1
  let n := min (min 255 fit) (sdiff32 (d.ringPi s.1 r) i).toNat
  match d.expReach s r i n with
  | .waits => d
  | .fails a => (d.engineFail 9 s.1 .read a).removePort 7 3
  | .opened =>
    let bs := d.expBytes mem s.1 r i n
    if d.allRoom 7 bs then
      let d := ((d.count 7 0).count 7 1 (bs.length + 4)).ingress 7 bs false 0
      d.modSw (fun w => { w with expTurn := sl (s.1 + 1), exp :=
        let old := w.exp.find? (fun e => e.slice == s && e.ring == r)
        let rest := w.exp.filter (fun e => !(e.slice == s && e.ring == r))
        ⟨s, r, (i + n) % 2 ^ 32, (match old with | some e => e.sent | none => []) ++ [((i + n) % 2 ^ 32, d.now)]⟩ :: rest })
    else d

end Sys2Proof.Machine
end

