-- ==== Sys2Proof/Machine/CoreCmds.lean ====
section
/-!
DEFINITION. Gates, secure watchdogs and core fences (R298–R316).
-/

namespace Sys2Proof.Machine
open Sys2Proof

/-- The GATE_DENY event, logged with the core and g; the code of its log entry is a free value, since R436 lists none (R303).
[DESIGN CHOICE, log 7] -/
def Dev.gateDeny (d : Dev) (n : Fin 6) (g : Nat) : Dev :=
  let x := d.free 8
  (x.2.log x.1 68 (evInfo n.1) g).pend 68

/-- The core reads the 16 bytes of its gate table at an address with its secure-world identity, its pair's TCM included: where they stand, or what the
checker's denial or the missing memory leaves (R302, R308, R28). [DEDUCED, log 76] -/
def Dev.readGate (d : Dev) (n : Fin 6) (base : Nat) : Dev × Option Nat :=
  let src : Src := ⟨⟨n.1, Nat.lt_trans n.2 (by decide)⟩, true, sl (d.f (Reg.CORE_CTX_SLICE n.1))⟩
  match tcmKey src base, checkerOf base with
  | some (_, key), _ => (d, some key)
  | none, some t =>
    if !d.permits t src .read base then ((d.deny t src .read base).setResp d.resp, none)
    else if d.serves base then (d, some base)
    else ((d.badAccess src false base).setResp d.resp, none)
  | none, none => ((d.badAccess src false base).setResp d.resp, none)

/-- GATE #g (R301–R303). A table the core cannot read counts as an entry that is not valid.
[DEDUCED, log 76; DESIGN CHOICE, log 103] -/
def Dev.gate (d : Dev) (word : Nat → Nat → Nat) (n : Fin 6) (g next : Nat) : Dev :=
  if !d.coreRuns n then d
  else if d.coreSecure n then d.coreTrap n
  else if d.f (Reg.CORE_GATE_CNT_CNT n.1) ≤ g then (d.coreTrap n).gateDeny n g
  else
    let r := d.readGate n (d.f64 (Reg.CORE_GATE_BASE_LO_ADDR n.1) (Reg.CORE_GATE_BASE_HI_ADDR n.1) % 2 ^ 40 + 16 * g)
    match r.2 with
    | some key =>
      let attr := word (key + 8) 4
      if attr.testBit 0 ∧ (attr.testBit 1 ∨ bits attr 8 6 = d.f (Reg.CORE_CTX_SLICE n.1)) then
        (r.1.enterSecure n next).modCore n (fun c => { c with pc := word key 8 % 2 ^ 40 })
      else (r.1.coreTrap n).gateDeny n g
    | none => (r.1.coreTrap n).gateDeny n g

/-- SECURE_INTERRUPT: in the normal world an entry; in the secure world no new one (R304). The handler's address is the
core reference's, so a free value. [DEDUCED, log 76] -/
def Dev.secureInterrupt (d : Dev) (n : Fin 6) (next : Nat) : Dev :=
  if !d.coreRuns n then d
  else
    let d := d.recordIrq n
    if d.coreSecure n then d.coreTrap n else (d.enterSecure n next).coreTrap n

/-- SECURE_INTERRUPT. -/
def execSecureInterrupt (n : Fin 6) (next : Nat) (s : State) : Host.Outcome State Fault Refusal :=
  s.done (s.dev.secureInterrupt n next)

/-! ### Fences and watchdogs (R24, R312–R314) -/

/-- Core n serves local rings of slice s: it runs the slice's software, and the slice is ACTIVE or FROZEN with a ring in local
memory enabled. [DEDUCED, log 76] -/
def Dev.servesSlice (d : Dev) (n : Fin 6) (s : Nat) : Bool :=
  d.f (Reg.CORE_CTX_SLICE n.1) == s && d.live s && (List.range 8).any (fun r => d.localRing s r)

/-- The L1 of a core is discarded without write-back: of each line it may hold stored bytes of, those bytes are lost if it does
(R314). [DESIGN CHOICE, log 103] -/
def Dev.dropL1 (d : Dev) (n : Nat) : Dev :=
  let mine := d.l1.filter (fun e => e.1 == n)
  let d := d.setL1 (d.l1.filter (fun e => e.1 != n))
  ((mine.map (fun e => e.2.1 / 64)).eraseDups).foldl (fun d line =>
    let x := d.free 1
    if x.1 = 0 then x.2
    else (mine.filter (fun e => e.2.1 / 64 == line)).foldl (fun d e => d.post e.2.1 [e.2.2]) x.2) d

/-- An application core is fenced (R24, R314): it stops, its L1 is lost, it is reported and logged, the slices it served are orphaned, and
port C goes when no core is left (R248). [DEDUCED, log 15, 47] -/
def Dev.fenceCore (d : Dev) (n : Fin 4) (cause : Nat) : Dev :=
  let c : Fin 6 := ⟨n.1, Nat.lt_trans n.2 (by decide)⟩
  if d.bit (Reg.CORE_STAT_FENCED n.1) then d
  else
    let d := d.tally.dropL1 n.1
    let d := ((d.setF (Reg.CORE_STAT_FENCED n.1) 1).setF (Reg.CORE_STAT_CAUSE n.1) cause).setTb Reg.SYS_FENCE_AC n.1 true
    let d := d.log 0x05 (if cause = 1 then 0xFF else 70 + n.1) (evInfo n.1) cause
    let d := if d.servesSlice c (d.f (Reg.CORE_CTX_SLICE n.1)) then d.orphanSlice (d.f (Reg.CORE_CTX_SLICE n.1)) else d
    if d.f Reg.SYS_FENCE_AC = 15 then d.removePort 6 2 else d

/-- CORE_FAULT: an application core fails (R24). -/
def execCoreFault (n : Fin 4) (s : State) : Host.Outcome State Fault Refusal := s.done (s.dev.fenceCore n 1)

/-- What an expiry of a core's secure watchdog or gate timer does: an application core is fenced, a Sienna pair withholds
its heartbeat; the source is raised (R312, R313). [DEDUCED, log 76] -/
def Dev.coreExpiry (d : Dev) (n : Fin 6) (cause : Nat) : Dev :=
  let d := if h : n.1 < 4 then d.fenceCore ⟨n.1, h⟩ cause else d.modCore n (fun c => { c with expired := true })
  d.pend (70 + n.1)

/-- The core's timers run: it is released, not halted by Gnotar, not yet stopped by an expiry (R312, R313). -/
def Dev.coreTimed (d : Dev) (n : Fin 6) : Bool :=
  let c := d.cores[n]
  !c.held && !c.expired && c.halted.isNone && !d.bit (Reg.CORE_STAT_FENCED n.1) && d.sup.warm.isNone

/-- SECURE_WATCHDOG_EXPIRY (R312). -/
def Dev.swdgExpiry (d : Dev) (n : Fin 6) : Dev :=
  let t := d.f (Reg.CORE_SWDG_TIMEOUT n.1)
  if d.coreTimed n ∧ t ≠ 0 ∧ (d.cores[n]).wdogAt + 400000 * t ≤ d.up then d.coreExpiry n 2 else d

/-- SECURE_WATCHDOG_EXPIRY. -/
def execSecureWatchdogExpiry (n : Fin 6) (s : State) : Host.Outcome State Fault Refusal := s.done (s.dev.swdgExpiry n)

/-- GATE_TIMER_EXPIRY (R313). -/
def Dev.gateExpiry (d : Dev) (n : Fin 6) : Dev :=
  let m := d.f (Reg.CORE_SWDG_GATE_MAX n.1)
  match (d.cores[n]).entry with
  | some t => if d.coreTimed n ∧ m ≠ 0 ∧ t + 400 * m ≤ d.up then d.coreExpiry n 3 else d
  | none => d

/-- GATE_TIMER_EXPIRY. -/
def execGateTimerExpiry (n : Fin 6) (s : State) : Host.Outcome State Fault Refusal := s.done (s.dev.gateExpiry n)

/-- GRET (R299, R304): back to the saved address, or to CORE_NENTRY when no entry is active; the normal world's interrupts are released and slice
counting resumes; undefined in the normal world. A gate timer that has reached GATE_MAX acts before it. -/
def Dev.gret (d : Dev) (n : Fin 6) : Dev :=
  let d := d.gateExpiry n
  if !d.coreRuns n then d
  else if !d.coreSecure n then d.coreTrap n
  else
    let back := if d.bit (Reg.CORE_CTX_GATED n.1) then (d.cores[n]).ret
      else d.f64 (Reg.CORE_NENTRY_LO_ADDR n.1) (Reg.CORE_NENTRY_HI_ADDR n.1) % 2 ^ 40
    let d := d.tally
    let d := (d.setF (Reg.CORE_CTX_WORLD n.1) 0).setF (Reg.CORE_CTX_GATED n.1) 0
    let d := if (d.cores[n]).irqN then d.emit (.coreSignal n.1) else d
    (d.modCore n (fun c => { c with pc := back, entry := none, irqN := false })).haltDue n

/-- GRET. -/
def execGret (n : Fin 6) (s : State) : Host.Outcome State Fault Refusal := s.done (s.dev.gret n)

/-- A core executes an instruction word: a world-switch instruction, or an undefined one (R301); another word is not the device's. -/
def Dev.gateInstr (d : Dev) (word : Nat → Nat → Nat) (n : Fin 6) (w : Word) (next : Nat) : Dev :=
  match gateWord w with
  | .gate g => d.gate word n g.1 next
  | .gret => d.gret n
  | .undefined => if d.coreRuns n then d.coreTrap n else d
  | .other => d

/-- GATE. -/
def execGate (n : Fin 6) (word : Word) (next : Nat) (s : State) : Host.Outcome State Fault Refusal :=
  s.done (s.dev.gateInstr s.memWord n word next)

/-- KICK_WATCHDOG: restarts the core's watchdog when that core's secure world writes 1, after an expiry due at that instant; any other
kick is ignored and logged (R312). -/
def Dev.kickCore (d : Dev) (src : Src) (n : Fin 6) (w : Nat) : Dev :=
  if !w.testBit 0 then d
  else if src.master.1 = n.1 then (d.swdgExpiry n).modCore n (fun c => { c with wdogAt := d.up })
  else d.logRefused src (Reg.CORE_SWDG_KICK_at n.1)

/-- KICK_WATCHDOG. -/
def execKickWatchdog (src : Src) (n : Fin 6) (data : Word) (s : State) : Host.Outcome State Fault Refusal :=
  s.done (s.dev.onWrite src (Reg.CORE_SWDG_KICK_at n.1) (fun d => d.kickCore src n data.toNat))

end Sys2Proof.Machine
end

