-- ==== Sys2Proof/Machine/EventCmds.lean ====
section
/-!
DEFINITION. The event sources' routes and enables, and the device event log as firmware reads it (R433–R438).
-/

namespace Sys2Proof.Machine
open Sys2Proof

/-- The vat a source belongs to: VAT v and LANE v (R433). -/
def sourceVat (i : Nat) : Option Nat := if i < 16 then some i else if i < 32 then some (i - 16) else none

/-- Writes of the routes and enables are accepted from the secure world of a core, and from S0 through BAR0 (R434).
[DEDUCED, log 16] -/
def routeWriter (src : Src) : Bool := secureCore src || bar0 src

/-- A route breaks a rule of R434: no such core, no such vector of a slice that exists, or, in strict partition, a source of
another slice's vat. [DEDUCED, log 78] -/
def Dev.routeBad (d : Dev) (i kind core slice vec : Nat) : Bool :=
  (kind == 1 && decide (5 < core)) ||
  (kind == 2 &&
    ((d.f (Reg.SLC_STATE_STATE slice) != 0 && decide (d.f (Reg.SLC_VEC_COUNT slice) ≤ vec)) ||
     (d.bit Reg.SLICE_MODE_STRICT && slice != 0 &&
       !(match sourceVat i with
         | some v => d.whole v slice
         | none => false))))

/-- A write of EVT_ROUTEi (R434). Through BAR0 both the present and the written KIND are none or slice. [DEDUCED, log 78] -/
def Dev.routeWrite (d : Dev) (src : Src) (i w : Nat) : Dev :=
  let a := Reg.EVT_ROUTE_at i
  let now := d.f (Reg.EVT_ROUTE_KIND i)
  let kind := if bits w 0 2 = 3 then now else bits w 0 2
  let open_ (k : Nat) : Bool := k == 0 || k == 2
  if !routeWriter src || (bar0 src && !(open_ now && open_ (bits w 0 2))) then d.logRefused src a
  else if d.routeBad i kind (bits w 2 3) (bits w 6 6) (bits w 12 6) then d.logR9 src a
  else d.writeRest src a w []

/-- ROUTE_WRITE. -/
def execRouteWrite (src : Src) (i : Fin 96) (data : Word) (s : State) : Host.Outcome State Fault Refusal :=
  s.done (s.dev.onWrite src (Reg.EVT_ROUTE_at i.1) (fun d => d.routeWrite src i.1 data.toNat))

/-- A write of EVT_ENw (R434): through BAR0 the bits of sources routed to a core keep their value, and the write is logged if
it would have changed one. A pending source newly enabled is delivered to its slice. [DEDUCED, log 78] -/
def Dev.enableWrite (d : Dev) (src : Src) (w x : Nat) : Dev :=
  let old := d.f (Reg.EVT_EN_SRC w)
  if !routeWriter src then d.logRefused src (Reg.EVT_EN_at w)
  else
    let d := forEach 32 d (fun d j =>
      if x.testBit j == old.testBit j then d
      else if bar0 src && d.f (Reg.EVT_ROUTE_KIND (32 * w + j)) == 1 then d
      else
        let d := d.setTb (Reg.EVT_EN_SRC w) j (x.testBit j)
        if x.testBit j && d.tb (Reg.EVT_PEND_SRC w) j then d.deliver (32 * w + j) else d)
    if d.f (Reg.EVT_EN_SRC w) = x % 2 ^ 32 then d else d.logRefused src (Reg.EVT_EN_at w)

/-- ENABLE_WRITE. -/
def execEnableWrite (src : Src) (w : Fin 3) (data : Word) (s : State) : Host.Outcome State Fault Refusal :=
  s.done (s.dev.onWrite src (Reg.EVT_EN_at w.1) (fun d => d.enableWrite src w.1 data.toNat))

/-- Interrupt line of core n in the world `sec` (R434): asserted while a source routed to it is pending and enabled. It follows the route,
the enable and the pending bit at once, and stands again when a core restarts after a warm reset. -/
def Dev.coreLine (d : Dev) (n : Nat) (sec : Bool) : Bool :=
  (List.range 96).any (fun i =>
    d.tb (Reg.EVT_PEND_SRC (i / 32)) (i % 32) && d.tb (Reg.EVT_EN_SRC (i / 32)) (i % 32) &&
    d.f (Reg.EVT_ROUTE_KIND i) == 1 && d.f (Reg.EVT_ROUTE_CORE i) == n && d.bit (Reg.EVT_ROUTE_SEC i) == sec)

/-- A write of EVT_SWI raises sources 82–89 (R433). -/
def Dev.softwareEvent (d : Dev) (x : Nat) : Dev := forEach 8 d (fun d j => if x.testBit j then d.pend (82 + j) else d)

/-- SOFTWARE_EVENT. -/
def execSoftwareEvent (src : Src) (data : Word) (s : State) : Host.Outcome State Fault Refusal :=
  s.done (s.dev.onWrite src Reg.EVT_SWI_at (fun d => d.softwareEvent data.toNat))

/-- The four words of a log entry (R436). -/
def LogEntry.words (e : LogEntry) : List Nat :=
  [e.code % 256 + 256 * (e.source % 256) + 65536 * (e.info % 65536), e.data % 2 ^ 32, e.ts % 2 ^ 32, e.ts / 2 ^ 32 % 2 ^ 32]

/-- A write of EVT_LOG_SEL latches the entry's words, or zeros with STALE where it is not held (R437). -/
def Dev.logSelect (d : Dev) (i : Nat) : Dev :=
  let n := sdiff32 (d.f Reg.EVT_LOG_PI_VALUE) i
  let stale := decide (n ≤ 0 ∨ 4096 < n)
  let ws := if stale then [] else ((d.evlog.drop (n.toNat - 1)).headD ⟨0, 0, 0, 0, 0⟩).words
  let d := (d.setF Reg.EVT_LOG_SEL_INDEX i).setB Reg.EVT_LOG_SSTAT_STALE stale
  forEach 4 d (fun d j => d.setF (Reg.EVT_LOG_W_WORD j) (ws.getD j 0))

/-- LOG_SELECT. -/
def execLogSelect (src : Src) (data : Word) (s : State) : Host.Outcome State Fault Refusal :=
  s.done (s.dev.onWrite src Reg.EVT_LOG_SEL_at (fun d => d.logSelect data.toNat))

/-- A write of EVT_LOG_CI, judged as a consumer index (R147, R438). [DEDUCED, log 78] -/
def Dev.logCi (d : Dev) (src : Src) (c : Nat) : Dev :=
  if consumerOk (d.f Reg.EVT_LOG_PI_VALUE) (d.f Reg.EVT_LOG_CI_VALUE) c then d.setF Reg.EVT_LOG_CI_VALUE c
  else d.logRefused src Reg.EVT_LOG_CI_at

/-- LOG_CI_WRITE. -/
def execLogCiWrite (src : Src) (data : Word) (s : State) : Host.Outcome State Fault Refusal :=
  s.done (s.dev.onWrite src Reg.EVT_LOG_CI_at (fun d => d.logCi src data.toNat))

end Sys2Proof.Machine
end

