-- ==== Sys2Proof/Machine/MordOps.lean ====
section
/-!
DEFINITION. The Mordant key store (R333–R350): derivations, slots and their metadata, the slices' keys and certificates,
invalidation, the checks of a command, the engine that runs commands.
-/

namespace Sys2Proof.Machine
open Sys2Proof

/-! ### Bytes and fields -/

/-- The ASCII bytes of a text. -/
def ascii (t : String) : List Byte := t.toList.map (fun c => BitVec.ofNat 8 c.toNat)

/-- The number bytes spell, most significant first. -/
def ofBeBytes (bs : List Byte) : Nat := ofLeBytes bs.reverse

/-- Replace the field [lo + w − 1 : lo] of a word. -/
def putBits (x lo w v : Nat) : Nat := x - bits x lo w * 2 ^ lo + v % 2 ^ w * 2 ^ lo

/-- The key derivation function in counter mode (R337): the blocks PRF(i, Label, 0x00, Context, L) for i from 1, cut to n bytes, where
`data` is Label, 0x00, Context and L counts bits. -/
def kdf (key data : List Byte) (n : Nat) : List Byte :=
  ((List.range ((n + 47) / 48)).foldl (fun out i => out ++ Config.hmac key (beBytes 4 (i + 1) ++ data ++ beBytes 4 (8 * n))) []).take n

/-- The order of the P-384 curve (R337), of which the spec gives the name. [PRESUMED, log 83] -/
def p384Order : Nat :=
  0xFFFFFFFFFFFFFFFFFFFFFFFFFFFFFFFFFFFFFFFFFFFFFFFFC7634D81F4372DDF581A0DB248B0A77AECEC196ACCC52973

/-- A key derived from a parent's key (R337): kinds 1 and 2 take 256 bits, kind 3 an ECDSA private value from 448 bits.
[PRESUMED, log 83] -/
def derived (kind : Nat) (parent label ctx : List Byte) : Nat :=
  if kind = 3 then ofBeBytes (kdf parent (label ++ 0 :: ctx) 56) % (p384Order - 1) + 1
  else ofLeBytes (kdf parent (label ++ 0 :: ctx) 32)

/-- The bytes of a key of a kind. -/
def keyBytes (kind key : Nat) : List Byte := if kind = 3 then beBytes 48 key else leBytes 32 key

/-! ### Roots and device keys (R333) -/

/-- The test root T. -/
def testRoot : List Byte := (Config.sha384 (ascii "OZ-TEST-ROOT" ++ leBytes 8 Config.deviceId)).take 32

/-- Device keys exist in DEVELOP, DEPLOY and RETURN (R349). -/
def Dev.devKeys (d : Dev) : Bool := 1 ≤ d.fuse.lc && d.fuse.lc ≤ 3

/-- The root in force: none in BLANK and SCRAP (R333, R349). -/
def Dev.root (d : Dev) : Option (List Byte) :=
  if !d.devKeys then none else if d.bit Reg.MORD_STAT_TESTROOT then some testRoot else some Config.deviceRoot

/-- Labels and kinds of the device keys 0x80–0x82. -/
def devLabel (code : Nat) : List Byte :=
  ascii (if code = 0x80 then "OZ-SLICE-ROOT" else if code = 0x81 then "OZ-FW-ROOT" else "OZ-DEVICE-ID")
def devKind (code : Nat) : Nat := if code = 0x82 then 3 else 2

/-- The device key of a code under a root. -/
def devKeyOf (root : List Byte) (code : Nat) : Nat := derived (devKind code) root (devLabel code) []

/-- A device key, by its code; without a root there is none, and nothing uses it. -/
def Dev.devKey (d : Dev) (code : Nat) : Nat :=
  match d.root with
  | some r => devKeyOf r code
  | none => 0

/-- The device certificate (R334): the layout of R340 with FORMAT 0x0101 and SLICE 0, PUBKEY that of D_ID under the device root. -/
def deviceCert : List Byte :=
  leBytes 2 0x0101 ++ leBytes 1 0 ++ leBytes 1 (Config.deviceCertLc % 8) ++ leBytes 4 0 ++ leBytes 8 Config.deviceId ++
  (Config.deviceCertNonce ++ List.replicate 16 0).take 16 ++ leBytes 8 Config.deviceCertCreated ++ List.replicate 24 0 ++
  (Config.ecdsaPublic (keyBytes 3 (devKeyOf Config.deviceRoot 0x82)) ++ List.replicate 96 0).take 96 ++
  (Config.deviceCertSig ++ List.replicate 96 0).take 96

/-! ### Slots (R335, R336) -/

/-- Fields of a slot's metadata word. -/
def Dev.meta (d : Dev) (k lo w : Nat) : Nat := bits (d.f (Reg.MORD_K_META_WORD k)) lo w
def Dev.setMeta (d : Dev) (k lo w v : Nat) : Dev :=
  d.setF (Reg.MORD_K_META_WORD k) (putBits (d.f (Reg.MORD_K_META_WORD k)) lo w v)
def Dev.slotState (d : Dev) (k : Nat) : Nat := d.meta k 8 2
def Dev.slotKind (d : Dev) (k : Nat) : Nat := d.meta k 10 2
def Dev.attr (d : Dev) (k : Nat) : Nat := d.f (Reg.MORD_K_ATTR_WORD k)

/-- Slot number. -/
def sk (k : Nat) : Fin 128 := ⟨k % 128, Nat.mod_lt _ (by decide)⟩

/-- The EMPTY slots, lowest first. -/
def Dev.emptyKeys (d : Dev) : List Nat := (List.range 128).filter (fun k => d.slotState k == 0)

/-- Random bytes of the CTR_DRBG. -/
def Dev.drbg (d : Dev) (n : Nat) : List Byte × Dev := (Config.drbg d.freeN n, (d.setFreeN (d.freeN + 1)))

/-- Fill a slot (R335, R348): metadata with GEN advanced, the key in two shares under a fresh mask. -/
def Dev.fillSlot (d : Dev) (k attr parent kind lcm state key : Nat) (label ctx : List Byte) : Dev :=
  let r := d.drbg 48
  let d := r.2
  let mask := ofLeBytes r.1
  let gen := d.meta k 16 16 + 1
  let d := d.setF (Reg.MORD_K_ATTR_WORD k) attr
  let d := d.setF (Reg.MORD_K_META_WORD k)
    (parent % 256 + 2 ^ 8 * state + 2 ^ 10 * kind + 2 ^ 12 * lcm + 2 ^ 16 * (gen % 2 ^ 16))
  let slots := put d.mord.slots (sk k) { s0 := key ^^^ mask, s1 := mask, label, ctx }
  d.setMord { d.mord with slots := slots }

/-- The key a slot holds. -/
def MSlot.key (m : MSlot) : Nat := m.s0 ^^^ m.s1
def Dev.slotKey (d : Dev) (k : Nat) : Nat := (d.mord.slots[sk k]).key

/-- A slot may be used in the present life-cycle state (R349, R350). -/
def Dev.lcAllows (d : Dev) (k : Nat) : Bool :=
  1 ≤ d.fuse.lc && d.fuse.lc ≤ 3 && (d.meta k 12 3).testBit (d.fuse.lc - 1)

/-- The engine may use a slice's key: VALID and usable in this life-cycle state (R343). -/
def Dev.usable (d : Dev) (k : Nat) : Bool := d.slotState k == 1 && d.lcAllows k

/-- A key's waiting re-masking turn is taken at its release (R348). -/
def Dev.remaskSlot (d : Dev) (k : Fin 128) : Dev :=
  let r := d.drbg 48
  let x := ofLeBytes r.1
  let m := r.2.mord.slots[k]
  let slots := put r.2.mord.slots k { m with s0 := m.s0 ^^^ x, s1 := m.s1 ^^^ x, due := false }
  r.2.setMord { r.2.mord with slots := slots }

/-- An operation holds the key of a slot: the engine's command, or a checkpoint's signature (R335). -/
def Dev.keyHeld (d : Dev) (h : Nat × Nat) : Bool :=
  (match d.mord.run with | some r => r.slot == some h | none => false) ||
  d.slices.toList.any (fun e => match e.ckpt with | some c => c.hold == some h | none => false)

/-- The engine loads a slot's key: IN_USE from now (R344). -/
def Dev.takeKey (d : Dev) (k : Nat) : Dev := d.setMeta k 15 1 1

/-- An operation that held a key has ended: if no other holds it and the slot has not been filled anew, IN_USE falls, and a re-masking turn that
waited is taken (R335, R348). -/
def Dev.releaseKey (d : Dev) (h : Option (Nat × Nat)) : Dev :=
  match h with
  | some (k, gen) =>
    if d.meta k 16 16 = gen ∧ !d.keyHeld (k, gen) then
      let d := d.setMeta k 15 1 0
      if (d.mord.slots[sk k]).due then d.remaskSlot (sk k) else d
    else d
  | none => d

/-! ### Events -/

/-- An event of Mordant (source 57). -/
def Dev.mordEvt (d : Dev) (bit : RF) : Dev := d.raise bit 1 57

/-! ### Slice keys and certificates (R339, R340) -/

/-- Attribute words of a slice's ledger and signing keys. -/
def ldgAttr (s : Nat) : Nat := 2 ^ 8 + 2 ^ 17 + 2 ^ 18 + 2 ^ 19 * (s % 64) + 2 ^ 29 + 2 ^ 31
def sigAttr (s : Nat) : Nat := 2 ^ 8 + 2 ^ 17 + 2 ^ 18 + 2 ^ 19 * (s % 64) + 2 ^ 28

/-- The Context of R338 that Mordant uses for a slice key. -/
def sliceCtx (attr kind s : Nat) (nonce : List Byte) : List Byte :=
  leBytes 4 attr ++ leBytes 1 (kind + 4 * 7) ++ leBytes 1 s ++ nonce

/-- Derive a slice's two keys into two slots. -/
def Dev.sliceKeys (d : Dev) (s kl ks : Nat) (nonce : List Byte) : Dev :=
  let parent := keyBytes 2 (d.devKey 0x80)
  let cl := sliceCtx (ldgAttr s) 2 s nonce
  let cs := sliceCtx (sigAttr s) 3 s nonce
  let d := d.fillSlot kl (ldgAttr s) 0x80 2 7 1 (derived 2 parent (ascii "OZ-SLICE-LDG") cl) (ascii "OZ-SLICE-LDG") cl
  d.fillSlot ks (sigAttr s) 0x80 3 7 1 (derived 3 parent (ascii "OZ-SLICE-SIG") cs) (ascii "OZ-SLICE-SIG") cs

/-- Write a slice's certificate words. -/
def Dev.setCert (d : Dev) (s : Nat) (bs : List Byte) : Dev :=
  forEach 64 d (fun d w => d.setF (Reg.MORD_SCERT_WORD s w) (ofLeBytes ((bs.drop (4 * w)).take 4)))

/-- Form and sign a slice's certificate (R340), while there is a D_ID (R343, R349). -/
def Dev.formCert (d : Dev) (s created : Nat) : Dev :=
  let sig := d.f (Reg.SLC_STATE_KEY_SIG s)
  let body := leBytes 2 1 ++ leBytes 1 s ++
    leBytes 1 (d.fuse.lc + (if d.bit Reg.MORD_STAT_TESTROOT then 8 else 0)) ++ leBytes 4 0 ++ leBytes 8 Config.deviceId ++
    d.mord.nonce[sl s] ++ leBytes 8 created ++ List.replicate 24 0 ++
    Config.ecdsaPublic (keyBytes 3 (d.slotKey sig))
  let n := d.drbg 48
  if !d.devKeys then d
  else n.2.setCert s (body ++ Config.ecdsaSign (keyBytes 3 (d.devKey 0x82)) (Config.sha384 body) (ofLeBytes n.1))

/-- Give slice s its keys and certificate, if two slots are EMPTY, the DRBG works, and there is a D_SLC (R339, R343, R349). -/
def Dev.makeKeys (d : Dev) (s : Nat) : Option Dev :=
  if !d.bit Reg.MORD_STAT_DRBG_OK || !d.devKeys then none
  else match d.emptyKeys with
    | kl :: ks :: _ =>
      let r := d.drbg 16
      let d := r.2.setMord { r.2.mord with nonce := put r.2.mord.nonce (sl s) r.1 }
      let d := d.sliceKeys s kl ks r.1
      let d := (d.setF (Reg.SLC_STATE_KEY_LDG s) kl).setF (Reg.SLC_STATE_KEY_SIG s) ks
      some (d.formCert s d.now)
    | _ => none

/-! ### Invalidation (R346, R347) -/

/-- Add to a set of slots every VALID slot whose parent is in it. -/
def Dev.childrenOf (d : Dev) (set : Nat) : Nat :=
  (List.range 128).foldl (fun m k =>
    if d.slotState k == 1 && d.meta k 0 8 < 128 && m.testBit (d.meta k 0 8) then setBit m k true else m) set

/-- A set of slots with every slot descended from it: passes until nothing is added. -/
def Dev.subtree (d : Dev) : Nat → Nat → Nat
  | 0, set => set
  | n + 1, set => if d.childrenOf set = set then set else d.subtree n (d.childrenOf set)

/-- Argument i of a command. -/
def MCmd.arg (c : MCmd) (i : Nat) : Nat := c.args.getD i 0

/-- The slot a command names, for its log entry and its key. -/
def Dev.mordSlot (d : Dev) (c : MCmd) : Option Nat :=
  match c.op with
  | 9 => none
  | 8 => if c.arg 0 < 64 then some (d.f (Reg.SLC_STATE_KEY_LDG (c.arg 0))) else none
  | _ => if c.arg 0 < 128 then some (c.arg 0) else none

/-- Set the VALID slots of a set, and all descended from them, to INVALID: a command that waits and names one will fail, one that has consumed
one of their keys will complete with ORPHANED_DURING_USE, and so will a checkpoint's signature (R346). [DEDUCED, log 81] -/
def Dev.invalidate (d : Dev) (set : Nat) : Dev :=
  let all := d.subtree 128 set
  let hit := (List.range 128).filter (fun k => all.testBit k && d.slotState k == 1)
  if hit.isEmpty then d
  else
    let d := hit.foldl (fun d k => d.setMeta k 8 2 2) d
    let run := d.mord.run.map (fun r =>
      match r.slot with
      | some (k, _) => if hit.contains k then { r with orphan := true } else r
      | none => r)
    let queue := d.mord.queue.map (fun c =>
      match d.mordSlot c with
      | some k => if hit.contains k then { c with dead := true } else c
      | none => c)
    let d := forEach 64 (d.setMord { d.mord with run := run, queue := queue }) (fun d s =>
      if hit.contains (d.f (Reg.SLC_STATE_KEY_SIG s)) then
        d.modSlice (sl s) (fun e => { e with ckpt := e.ckpt.map (fun c => { c with orphan := true }) })
      else d)
    d.mordEvt Reg.MORD_EVT_INVAL

/-- Every slot. -/
def allSlots : Nat := 2 ^ 128 - 1

/-- Every slot is invalidated, and a command that runs on a device key completes with ORPHANED_DURING_USE (R346, R347, R350).
[DEDUCED, log 81] -/
def Dev.invalidateAll (d : Dev) : Dev :=
  let d := d.invalidate allSlots
  d.setMord { d.mord with run := d.mord.run.map (fun r => if r.slot.isNone && r.cmd.op != 9 then { r with orphan := true } else r) }

/-- KEY_LDG and KEY_SIG of a slice name the slots of keys it was given, and no other's (R339). -/
def Dev.ownKeys (d : Dev) (s : Nat) : Bool :=
  let kl := d.f (Reg.SLC_STATE_KEY_LDG s)
  let ks := d.f (Reg.SLC_STATE_KEY_SIG s)
  d.f (Reg.SLC_STATE_STATE s) != 0 && d.attr kl == ldgAttr s && d.meta kl 0 8 == 0x80 && d.attr ks == sigAttr s && d.meta ks 0 8 == 0x80

/-- The test root stands in place of the device root (R347): every slot is invalidated, every slice's two slots are refilled
and its certificate formed again. -/
def Dev.substitute (d : Dev) : Dev :=
  forEach 64 (d.invalidateAll.setF Reg.MORD_STAT_TESTROOT 1) (fun d s =>
    if d.ownKeys s then
      (d.sliceKeys s (d.f (Reg.SLC_STATE_KEY_LDG s)) (d.f (Reg.SLC_STATE_KEY_SIG s)) d.mord.nonce[sl s]).formCert s d.now
    else d)

/-- TESTROOT becomes 1 (R347). -/
def Dev.testRootIn (d : Dev) : Dev :=
  if d.bit Reg.MORD_STAT_TESTROOT then d else d.substitute.mordEvt Reg.MORD_EVT_TESTROOT

/-- RETURN is entered: every slot is invalidated, and the test root is in force for good (R346, R350). [DEDUCED, log 81] -/
def Dev.returnRoot (d : Dev) : Dev := if d.bit Reg.MORD_STAT_TESTROOT then d.substitute else d.testRootIn

/-! ### Uses by the ledger engine (R188, R194) -/

/-- K_chain of a slice's chain (R188). -/
def Dev.chainKey (d : Dev) (s chain : Nat) : List Byte :=
  kdf (keyBytes 2 (d.slotKey (d.f (Reg.SLC_STATE_KEY_LDG s))))
    (ascii "OZ-LEDGER-MAC" ++ 0 :: (leBytes 1 s ++ leBytes 8 chain)) 32

/-! ### Commands: checks (R342, R343, R345) -/

/-- Result codes of MORD_CHc_STAT. -/
def rOk : Nat := 1
def rDenied : Nat := 2
def rInvalid : Nat := 3
def rBadArg : Nat := 4
def rNoSlot : Nat := 5
def rAuthFail : Nat := 6
def rDmaErr : Nat := 7

/-- Use bit of the attribute word an operation needs. -/
def useBit (op : Nat) : Option Nat :=
  match op with
  | 1 => some 29 | 3 => some 25 | 4 => some 26 | 5 => some 27 | 6 => some 28 | 0x0A => some 30
  | _ => none

/-- Steps 1–6 of R343 for a slot: none if all hold. -/
def Dev.slotCheck (d : Dev) (c : MCmd) (k : Nat) : Option Nat :=
  let a := d.attr k
  if 128 ≤ k ∨ d.slotState k ≠ 1 then some rInvalid
  else if !d.lcAllows k then some rDenied
  else if !(if c.owner.secure then a.testBit 16 else a.testBit 17) then some rDenied
  else if !a.testBit c.owner.master.1 then some rDenied
  else if !c.owner.secure ∧ a.testBit 18 ∧ c.owner.slice.1 ≠ bits a 19 6 then some rDenied
  else if c.op = 2 ∧ !c.owner.secure then some rDenied
  else match useBit c.op with
    | some b => if a.testBit b then none else some rDenied
    | none => none

/-- The label length of a DERIVE, 1–16 in a field of four bits: 0 stands for 16 (R342). [DEDUCED, log 81] -/
def MCmd.labelLen (c : MCmd) : Nat := if bits (c.arg 3) 8 4 = 0 then 16 else bits (c.arg 3) 8 4

/-- The rules of R338 and R342 for a DERIVE's arguments. [DEDUCED, log 81] -/
def Dev.deriveArgs (d : Dev) (c : MCmd) : Option Nat :=
  let p := c.arg 0
  let attr := c.arg 2
  let kind := bits (c.arg 3) 0 2
  let lcm := bits (c.arg 3) 2 3
  let ctx := bits (c.arg 3) 16 6
  let pa := if p < 128 then d.attr p else 2 ^ 16 + 2 ^ 17
  let pl := if p < 128 then d.meta p 12 3 else 7
  if p = 0x80 ∨ p = 0x82 ∨ kind = 0 ∨ 32 < ctx ∨ (attr.testBit 16 ∧ !pa.testBit 16) ∨
      (attr.testBit 17 ∧ !pa.testBit 17) ∨ lcm &&& pl ≠ lcm ∨ !(c.arg 1 < 128 || c.arg 1 = 0xFF) then some rBadArg
  else if c.arg 1 = 0xFF then (if d.emptyKeys.isEmpty then some rNoSlot else none)
  else if d.slotState (c.arg 1) = 0 then none else some rNoSlot

/-- Every check of a command, in order: the result of the first that fails, none if all hold. [DEDUCED, log 81] -/
def Dev.mordCheck (d : Dev) (c : MCmd) : Option Nat :=
  match c.op with
  | 1 =>
    let p := c.arg 0
    if p < 128 then (d.slotCheck c p).orElse (fun _ => d.deriveArgs c)
    else if 0x83 ≤ p ∨ !d.devKeys then some rInvalid
    else if p = 0x81 ∧ !(c.owner.secure && c.owner.master.1 ≤ 5) then some rDenied
    else d.deriveArgs c
  | 2 => d.slotCheck c (c.arg 0)
  | 3 | 4 => (d.slotCheck c (c.arg 0)).orElse (fun _ =>
      if d.slotKind (c.arg 0) ≠ 1 ∨ 65536 < c.arg 8 ∨ 4096 < c.arg 11 then some rBadArg else none)
  | 5 => (d.slotCheck c (c.arg 0)).orElse (fun _ => if d.slotKind (c.arg 0) ≠ 2 then some rBadArg else none)
  | 6 => (d.slotCheck c (c.arg 0)).orElse (fun _ => if d.slotKind (c.arg 0) ≠ 3 then some rBadArg else none)
  | 7 =>
    if c.arg 0 = 0x82 then (if d.devKeys then none else some rInvalid)
    else (d.slotCheck c (c.arg 0)).orElse (fun _ => if d.slotKind (c.arg 0) ≠ 3 then some rBadArg else none)
  | 8 =>
    let k := d.f (Reg.SLC_STATE_KEY_LDG (c.arg 0))
    if 64 ≤ c.arg 0 ∨ !d.ownKeys (c.arg 0) ∨ d.slotState k ≠ 1 then some rInvalid
    else if !d.lcAllows k ∨ !(d.attr k).testBit 31 then some rDenied
    else if !(c.owner.master.1 == 6 || c.owner.master.1 == 7 || (c.owner.secure && c.owner.master.1 ≤ 5)) then some rDenied
    else if bits (c.arg 6) 0 2 = 3 then some rBadArg else none
  | 9 => if c.arg 8 = 0 ∨ 4096 < c.arg 8 then some rBadArg else none
  | _ => d.slotCheck c (c.arg 0)

/-- A command ends with a result (source 81); a DENIED is counted and logged (R343). -/
def Dev.mordEnd (d : Dev) (c : MCmd) (result : Nat) (orphan : Bool) : Dev :=
  let d := d.setF (Reg.MORD_CH_STAT_BUSY c.ch.1) 0
  let d := d.setF (Reg.MORD_CH_STAT_RESULT c.ch.1) result
  let d := d.setB (Reg.MORD_CH_STAT_ORPHANED_DURING_USE c.ch.1) orphan
  let d := if orphan then d.mordEvt Reg.MORD_EVT_ORPHAN_USE else d
  let d := if result = rDenied then
      (((d.bump Reg.MORD_DENY_COUNT).mordEvt Reg.MORD_EVT_DENY).log 0x08 57
        (accInfo c.owner true ((d.mordSlot c).getD (c.arg 0))) c.op)
    else d
  d.pend 81

/-- SIGN and RANDOM fail while the DRBG has failed its health tests; the spec names no result code for it (R342).
[DESIGN CHOICE, log 82] -/
def Dev.drbgBars (d : Dev) (op : Nat) : Bool := (op == 6 || op == 9) && !d.bit Reg.MORD_STAT_DRBG_OK

/-- The engine takes its next command (R344): a command that fails a check ends at once, one that passes consumes its key
material. [DESIGN CHOICE, log 82] -/
def Dev.mordNext (d : Dev) : Nat → Dev
  | 0 => d
  | n + 1 =>
    match d.mord.run, d.mord.queue with
    | none, c :: rest =>
      let d := d.setMord { d.mord with queue := rest }
      match (if c.dead then some rInvalid else d.mordCheck c) with
      | some r => (d.mordEnd c r false).mordNext n
      | none =>
        if d.drbgBars c.op then
          let x := d.free 3
          (x.2.mordEnd c (2 + x.1 % 6) false).mordNext n
        else
          match d.mordSlot c with
          | some k =>
            let d := d.takeKey k
            let run : MRun := ⟨c, d.slotKey k, d.slotKind k, some (k, d.meta k 16 16), false⟩
            d.setMord { d.mord with run := some run }
          | none =>
            let run : MRun := ⟨c, if c.op = 9 then 0 else d.devKey (c.arg 0), devKind (c.arg 0), none, false⟩
            d.setMord { d.mord with run := some run }
    | _, _ => d

/-- A write of MORD_CHc_CMD (R342, R344, R346): the owner's only; refused while BUSY; INVALIDATE acts at once, every
other command queues. [DEDUCED, log 81] -/
def Dev.mordSubmit (d : Dev) (src : Src) (ch : Fin 16) (op : Nat) : Dev :=
  let addr := Reg.MORD_CH_CMD_at ch.1
  d.onWrite src addr (fun d =>
    if d.mord.owners[ch] ≠ some src then d.deny 14 src .write addr
    else if d.bit (Reg.MORD_CH_STAT_BUSY ch.1) then d.logRefused src addr
    else if op = 0 ∨ 0x0A < op then d.logR9 src addr
    else
      let c : MCmd := ⟨ch, op, (List.range 16).map (fun i => d.f (Reg.MORD_CH_ARG_VALUE ch.1 i)), src, false⟩
      let d := ((d.setF (Reg.MORD_CH_STAT_BUSY ch.1) 1).setF (Reg.MORD_CH_STAT_RESULT ch.1) 0).setF
        (Reg.MORD_CH_STAT_ORPHANED_DURING_USE ch.1) 0
      if op = 2 then
        match d.mordCheck c with
        | some r => d.mordEnd c r false
        | none => (d.invalidate (2 ^ c.arg 0)).mordEnd c rOk false
      else ((d.setMord { d.mord with queue := d.mord.queue ++ [c] })).mordNext 16)

/-! ### Commands: completion -/

/-- An address is local memory a master may read or write (R27, R342). -/
def localMemory (kind : AccessKind) (addr : Nat) : Bool :=
  match checkerOf addr with
  | some t => match kind with
    | .write => 1 ≤ t && t ≤ 12 || t == 16
    | _ => t != 13 && t != 14
  | none => false

/-- Access to `n` bytes of local memory with a master's identity, page by page: the device with any denial recorded, and
whether all of it is permitted and served. -/
def Dev.memAccess (d : Dev) (src : Src) (kind : AccessKind) (addr n : Nat) : Dev × Bool :=
  let pages := if n = 0 then 0 else (addr + n - 1) / 4096 - addr / 4096 + 1
  (List.range pages).foldl (fun r i =>
    if !r.2 then r
    else
      let a := if i = 0 then addr else (addr / 4096 + i) * 4096
      match checkerOf a with
      | some t =>
        if !localMemory kind a || !r.1.serves a then (r.1, false)
        else if r.1.permits t src kind a then r
        else (r.1.deny t src kind a, false)
      | none => (r.1, false)) (d, true)

/-- A 64-bit address argument. -/
def MCmd.addr (c : MCmd) (i : Nat) : Nat := (c.arg i + 2 ^ 32 * c.arg (i + 1)) % 2 ^ 40

/-- Write a command's output, or end it with DMA_ERR. -/
def Dev.mordOut (d : Dev) (c : MCmd) (addr : Nat) (bs : List Byte) : Dev × Nat :=
  let r := d.memAccess c.owner .write addr bs.length
  if r.2 then (r.1.post addr bs, rOk) else (r.1, rDmaErr)

/-- Bytes of arguments i to j − 1. -/
def MCmd.argBytes (c : MCmd) (i n : Nat) : List Byte := (List.range n).foldl (fun bs j => bs ++ leBytes 4 (c.arg (i + j))) []

/-- DERIVE completes (R338): the child in its slot, INVALID if the parent was invalidated meanwhile (R346). -/
def Dev.deriveDone (d : Dev) (r : MRun) : Dev × Nat :=
  let c := r.cmd
  let k := if c.arg 1 = 0xFF then d.emptyKeys.head? else if d.slotState (c.arg 1) = 0 then some (c.arg 1) else none
  match k with
  | none => (d, rNoSlot)
  | some k =>
    let kind := bits (c.arg 3) 0 2
    let lcm := bits (c.arg 3) 2 3
    let label := (c.argBytes 4 4).take c.labelLen
    let ctx := leBytes 4 (c.arg 2) ++ leBytes 1 (kind + 4 * lcm) ++ (c.argBytes 8 8).take (bits (c.arg 3) 16 6)
    let key := derived kind (keyBytes r.kind r.key) label ctx
    let d := d.fillSlot k (c.arg 2) (c.arg 0) kind lcm (if r.orphan then 2 else 1) key label ctx
    (d.setF (Reg.MORD_CH_STAT_SLOT c.ch.1) k, rOk)

/-- GCM_ENC and GCM_DEC complete (R342). -/
def State.gcmDone (s : State) (d : Dev) (r : MRun) : Dev × Nat :=
  let c := r.cmd
  let a1 := d.memAccess c.owner .read (c.addr 4) (c.arg 8)
  let a2 := a1.1.memAccess c.owner .read (c.addr 9) (c.arg 11)
  if !a1.2 ∨ !a2.2 then (a2.1, rDmaErr)
  else
    let key := keyBytes 1 r.key
    let iv := c.argBytes 1 3
    let src := s.memBytes (c.addr 4) (c.arg 8)
    let aad := s.memBytes (c.addr 9) (c.arg 11)
    if c.op = 3 then
      let o := a2.1.mordOut c (c.addr 6) (Config.gcmCipher key iv aad src)
      if o.2 = rOk then
        let tag := Config.gcmTag key iv aad src
        (forEach 4 o.1 (fun d i => d.setF (Reg.MORD_CH_ARG_VALUE c.ch.1 (12 + i)) (ofLeBytes ((tag.drop (4 * i)).take 4))), rOk)
      else o
    else
      let plain := Config.gcmPlain key iv aad src
      if Config.gcmTag key iv aad plain = c.argBytes 12 4 then a2.1.mordOut c (c.addr 6) plain else (a2.1, rAuthFail)

/-- CHAIN_KEY completes (R345): the record goes to the slice's memory with the slice's identity. -/
def Dev.chainKeyDone (d : Dev) (r : MRun) : Dev × Nat :=
  let c := r.cmd
  let s := c.arg 0
  let chain := c.arg 1 + 2 ^ 32 * c.arg 2
  let k := kdf (keyBytes 2 r.key) (ascii "OZ-LEDGER-MAC" ++ 0 :: (leBytes 1 s ++ leBytes 8 chain)) 32
  let rec_ := leBytes 8 chain ++ leBytes 1 s ++ List.replicate 23 0 ++ k
  let loc := bits (c.arg 6) 0 2
  if loc < 2 then
    let p := d.f (Reg.SLC_PASID_PORT s)
    if d.dmaRuns s && d.linkUp p then (d.write s p (c.arg 4 + 2 ^ 32 * c.arg 5) rec_, rOk) else (d, rDmaErr)
  else
    let a := d.memAccess (engineSrc 8 s) .write (c.addr 4) 64
    if a.2 then (a.1.post (c.addr 4) rec_, rOk) else (a.1, rDmaErr)

/-- What a running command writes, and its result. -/
def State.mordOutput (s : State) (d : Dev) (r : MRun) : Dev × Nat :=
  let c := r.cmd
  match c.op with
  | 1 => d.deriveDone r
  | 3 | 4 => s.gcmDone d r
  | 5 =>
    let a := d.memAccess c.owner .read (c.addr 4) (c.arg 8)
    if a.2 then a.1.mordOut c (c.addr 6) (Config.hmac (keyBytes 2 r.key) (s.memBytes (c.addr 4) (c.arg 8))) else (a.1, rDmaErr)
  | 6 =>
    let a := d.memAccess c.owner .read (c.addr 4) 48
    let n := a.1.drbg 48
    if a.2 then n.2.mordOut c (c.addr 6) (Config.ecdsaSign (keyBytes 3 r.key) (s.memBytes (c.addr 4) 48) (ofLeBytes n.1)) else (a.1, rDmaErr)
  | 7 => d.mordOut c (c.addr 6) (Config.ecdsaPublic (keyBytes 3 r.key))
  | 8 => d.chainKeyDone r
  | 9 => let x := d.drbg (c.arg 8); x.2.mordOut c (c.addr 6) x.1
  | _ => d.mordOut c (c.addr 6) (keyBytes r.kind r.key)

/-- The running command completes, and the engine takes the next. -/
def State.mordFinish (s : State) : Dev :=
  let d := s.dev
  match d.mord.run with
  | none => d
  | some r =>
    let o := s.mordOutput d r
    let d := (o.1.setMord { o.1.mord with run := none }).releaseKey r.slot
    (d.mordEnd r.cmd o.2 r.orphan).mordNext 16

end Sys2Proof.Machine
end

