-- ==== Sys2Proof/Machine/LedgerOps.lean ====
section
/-!
DEFINITION. The charge ledger's streams (R181–R190): records, the stream buffer and its gap markers, blocks, seal
entries and chains; and checkpoints (R191–R194).
-/

namespace Sys2Proof.Machine
open Sys2Proof

/-! ### The stream buffer (R183, R184) -/

/-- Order within a ring: the slice's chain (R190), then instant, then channel (R183). [DEDUCED, log 58] -/
def SEntry.before (a b : SEntry) : Bool :=
  decide (a.chain < b.chain ∨ (a.chain = b.chain ∧ (a.ts < b.ts ∨ (a.ts = b.ts ∧ a.ch < b.ch))))

/-- Take its place among buffered entries, after its equals. [DEDUCED, log 58] -/
def insertSE (e : SEntry) : List SEntry → List SEntry
  | [] => [e]
  | x :: xs => if e.before x then e :: x :: xs else x :: insertSE e xs

/-- A seal entry, by its SEAL flag (R187). -/
def SEntry.isSeal (e : SEntry) : Bool := (e.bytes.getD 7 0).toNat.testBit 5

/-- A record, not a gap marker or a seal entry. -/
def SEntry.ordinary (e : SEntry) : Bool := !e.gap && !e.isSeal

/-- Entries of the stream buffer in use (VAT_LDG_BUF): the records kept (R184). -/
def Vat.used (x : Vat) : Nat := (x.sbuf.filter (fun e => e.ordinary && e.kept)).length

/-- What waits for stream ring x of a slice, in the order it will be written, over all vats (R183). [DEDUCED, log 58] -/
def Dev.waiting (d : Dev) (s x : Nat) : List SEntry :=
  d.vats.toList.foldl (fun acc v =>
    (v.sbuf.filter (fun e => e.slice == sl s && e.ring == x)).foldl (fun acc e => insertSE e acc) acc) []

/-- Put an entry into the buffer of the vat its channel belongs to. -/
def Dev.buffer (d : Dev) (e : SEntry) : Dev :=
  d.modVat (v16 (e.ch / 16)) (fun x => { x with sbuf := insertSE e x.sbuf })

/-! ### Blocks, seals, chains (R186–R190) -/

/-- Stream ring x of a slice is sealed: SEAL = 1 and 32-byte entries (R186). -/
def Dev.sealing (d : Dev) (s x : Nat) : Bool :=
  d.bit (Reg.LDG_CFG_SEAL s) && !d.bit (Reg.SLC_RING_CFG_ESIZE s (streamRing x).1)

/-- CHAIN_ID of a slice's chain. -/
def Dev.chainId (d : Dev) (s : Nat) : Nat := d.f64 (Reg.LDG_CHAIN_LO_ID s) (Reg.LDG_CHAIN_HI_ID s)

/-- A stream number below 5. -/
def x5 (x : Nat) : Fin 5 := ⟨x % 5, Nat.mod_lt _ (by decide)⟩

/-- H of the last sealed block of a stream; H(−1) when there is none (R189). -/
def Dev.headHash (d : Dev) (s x : Nat) : List Byte :=
  let h := (d.slices[sl s]).head[x5 x]
  if h.isEmpty then Config.sha384 (leBytes 8 (d.chainId s) ++ leBytes 1 s ++ leBytes 1 x) else h

/-- Close a block over its entries (R186–R189): the seal entry, and the chain moved on. The tag is open when the
slice's ledger key cannot be used. [DEDUCED, log 58, 59] -/
def Dev.closeBlock (d : Dev) (s x : Nat) (entries : List (List Byte)) : List Byte × Dev :=
  let b := (d.slices[sl s]).blockNo[x5 x]
  let hd := leBytes 4 (d.chainId s) ++ leBytes 1 entries.length ++ leBytes 1 x ++ leBytes 2 0x2000 ++ leBytes 8 b
  let prev := d.headHash s x
  let body := entries.flatten
  let t := if d.usable (d.f (Reg.SLC_STATE_KEY_LDG s)) then
      (Config.gcmTag (d.chainKey s (d.chainId s)) (leBytes 4 x ++ leBytes 8 b) (prev ++ body ++ hd) [], d)
    else (leBytes 16 (d.free 128).1, (d.free 128).2)
  let bytes := hd ++ t.1
  (bytes, t.2.modSlice (sl s) (fun e =>
    { e with blockNo := put e.blockNo (x5 x) (b + 1), head := put e.head (x5 x) (Config.sha384 (prev ++ body ++ bytes)),
             blk := put e.blk (x5 x) [] }))

/-- A seal entry takes its place after the entry of its chain with this instant and channel. [DEDUCED, log 58] -/
def sealEntry (s x chain ts ch : Nat) (bytes : List Byte) : SEntry :=
  { slice := sl s, ring := x, chain, ts, ch, seq := 0, sealed := true, bytes }

/-- Write one entry of a stream into its ring; an entry that no closed block holds joins the open block, and the 64th
closes it: its seal follows in the ring, or as the next entry of the buffer (R183, R186). -/
def Dev.writeStream (d : Dev) (s x : Nat) (e : SEntry) : Dev :=
  let r := streamRing x
  let d := d.ringPut s r e.bytes (some (ringCause r.1))
  if d.sealing s x && !e.sealed then
    let blk := (d.slices[sl s]).blk[x5 x] ++ [e.bytes]
    if blk.length < 64 then d.modSlice (sl s) (fun g => { g with blk := put g.blk (x5 x) blk })
    else
      let c := d.closeBlock s x blk
      let d := c.2.ringCheck s r
      if d.ringReady s r then d.ringPut s r c.1 (some (ringCause r.1)) else d.buffer (sealEntry s x e.chain e.ts e.ch c.1)
  else d

/-! ### Records and their loss (R183–R185) -/

/-- The 32 bytes of a measurement record (R181). -/
def recordBytes (seq ch stepIdx flags ts : Nat) (v i t q : Int) : List Byte :=
  leBytes 4 seq ++ leBytes 1 ch ++ leBytes 1 stepIdx ++ leBytes 2 flags ++ leBytes 8 ts ++
  leBytes 4 (pattern 32 v) ++ leBytes 4 (pattern 32 i) ++ leBytes 4 (pattern 32 t) ++ leBytes 4 (pattern 32 q)

/-- The BUFFERED flag set in a measurement record's FLAGS, bit 10 (R182), and in an impedance record's, bit 11 (R210). -/
def markBuffered (bs : List Byte) : List Byte := bs.set 7 (bs.getD 7 0 ||| 4)
def markImpBuffered (bs : List Byte) : List Byte := bs.set 7 (bs.getD 7 0 ||| 8)

/-- The last four bytes of a record: Q_LO. -/
def qLoOf (bs : List Byte) : List Byte := bs.drop 28

/-- The gap marker that covers the losses from the first lost record to this one (R185). [DEDUCED, log 58] -/
def gapMarker (e : SEntry) : SEntry :=
  { e with gap := true,
           bytes := leBytes 4 e.seq ++ (e.bytes.drop 4).take 2 ++ leBytes 2 0x1000 ++ leBytes 8 e.ts ++ leBytes 4 1 ++
             leBytes 8 0 ++ qLoOf e.bytes }

/-- A waiting marker extended to the record lost last (R185). [DEDUCED, log 58] -/
def SEntry.extend (m e : SEntry) : SEntry :=
  { m with bytes := m.bytes.take 16 ++ leBytes 4 ((e.seq + 2 ^ 32 - m.seq) % 2 ^ 32 + 1) ++ leBytes 8 0 ++ qLoOf e.bytes }

/-- A record produced while the buffer is full is lost (R185): it begins a run with a marker, or extends the waiting
one, with the channel's records behind the marker. [DEDUCED, log 58] -/
def Dev.loseRecord (d : Dev) (v k : Fin 16) (e : SEntry) : Dev :=
  let d := d.modMeas v k (fun m => { m with ckGap := true })
  let buf := (d.vats[v]).sbuf
  match buf.find? (fun x => x.gap && x.ch == e.ch) with
  | none => (d.modVat v (fun x => { x with sbuf := insertSE (gapMarker e) x.sbuf })).bump (Reg.VAT_LDG_DROP_COUNT v.1)
  | some m =>
    let gone (x : SEntry) : Bool := x.ordinary && x.ch == e.ch && m.before x
    let n := (buf.filter gone).length
    (d.modVat v (fun x => { x with sbuf := (x.sbuf.filter (fun y => !gone y)).map (fun y =>
      if y.gap && y.ch == e.ch then y.extend e else y) })).bump (Reg.VAT_LDG_DROP_COUNT v.1) (n + 1)

/-- A record that cannot be written when it is due is kept, with BUFFERED, or lost (R184, R185); one that a closed block holds stays as
it was closed over. [DEDUCED, log 58] -/
def Dev.keep (d : Dev) (v k : Fin 16) (e : SEntry) : Dev :=
  if e.sealed then d.buffer { e with kept := true }
  else if (d.vats[v]).used < 4096 then d.buffer { e with kept := true, bytes := markBuffered e.bytes } else d.loseRecord v k e

/-- Take one entry out of the buffers: an entry as it waits. -/
def Dev.unbuffer (d : Dev) (e : SEntry) : Dev := d.setVats (d.vats.map (fun v => { v with sbuf := v.sbuf.erase e }))

/-- The channels a slice holds, in ascending order. -/
def Dev.held (d : Dev) (s : Nat) : List (Fin 16 × Fin 16) :=
  (List.finRange 16).flatMap (fun v => (List.finRange 16).filterMap (fun k =>
    if (d.chan v k).owner = some (sl s) then some (v, k) else none))

/-- Earliest instant at or after t of a precision output of the channel that has not been formed (R85). -/
def Meas.nextOut (m : Meas) (t : Nat) : Nat :=
  let a := max m.fromT t
  let p := ratePeriod (m.rateFor a)
  (a + p - 1) / p * p

/-- No record of the ring that goes before the entry is still to be formed: of a channel's streamed step the next output since its
lane is ACTIVE (R183). [DEDUCED, log 58] -/
def Dev.inOrder (d : Dev) (s x : Nat) (e : SEntry) : Bool :=
  e.chain != (d.slices[sl s]).chainNo || (d.held s).all (fun c =>
    let m := (d.vats[c.1]).meas[c.2]
    m.a.steps.all (fun st =>
      let t := m.nextOut (max st.t0 (d.lane c.1).activeAt)
      !(st.stream == x && st.contains t && decide (t < e.ts ∨ (t = e.ts ∧ chanNo c.1 c.2 < e.ch)))))

/-- The ring cannot be written: the records that are due for it are kept (R184). -/
def Dev.keepDue (d : Dev) (s x : Nat) : Dev :=
  ((d.waiting s x).filter (fun e => e.ordinary && !e.kept)).foldl (fun d e =>
    (d.unbuffer e).keep (v16 (e.ch / 16)) (v16 e.ch) e) d

/-- The entries of a stream leave in order while the ring takes them and none that goes before them is still to come
(R183, R184). -/
def Dev.deliverStream (d : Dev) (s x : Nat) : Nat → Dev
  | 0 => d
  | n + 1 =>
    match d.waiting s x with
    | e :: _ =>
      if !d.inOrder s x e then d
      else
        let d := d.ringCheck s (streamRing x)
        if d.ringReady s (streamRing x) then ((d.unbuffer e).writeStream s x e).deliverStream s x n
        else d.keepDue s x
    | [] => d

/-- Deliver what a stream's ring takes. -/
def Dev.deliver5 (d : Dev) (s x : Nat) : Dev := d.deliverStream s x (2 * (d.waiting s x).length + 2)

/-! ### Closing blocks; chains (R186, R190) -/

/-- The entries a closing takes: the open block, then what waits unsealed, cut into blocks of at most 64; each block's
seal entry with the instant and channel it follows. -/
def Dev.closeOver (d : Dev) (s x : Nat) (cur : List (List Byte)) (last : Nat × Nat) :
    List SEntry → Dev × List SEntry
  | [] =>
    if cur.isEmpty then (d, []) else
    let c := d.closeBlock s x cur
    (c.2, [sealEntry s x (d.slices[sl s]).chainNo last.1 last.2 c.1])
  | e :: es =>
    let cur := cur ++ [e.bytes]
    if cur.length < 64 then d.closeOver s x cur (e.ts, e.ch) es
    else
      let c := d.closeBlock s x cur
      let r := c.2.closeOver s x [] (e.ts, e.ch) es
      (r.1, sealEntry s x e.chain e.ts e.ch c.1 :: r.2)

/-- Take every waiting entry of a stream that a closed block holds as sealed. -/
def Dev.sealWaiting (d : Dev) (s x : Nat) (es : List SEntry) : Dev :=
  d.setVats (d.vats.map (fun v => { v with sbuf := v.sbuf.map (fun e =>
    if e.slice = sl s ∧ e.ring = x ∧ es.contains e then { e with sealed := true } else e) }))

/-- Close every open block of a stream that holds an entry (R186, R190, R191): buffered entries up to the first that still waits for an
earlier one are included, at a chain's end all. [DEDUCED, log 58] -/
def Dev.closeStream (d : Dev) (s x : Nat) (last : Bool) : Dev :=
  if d.sealing s x then
    let d := d.deliver5 s x
    let d := if d.ringReady s (streamRing x) then d else d.keepDue s x
    let w := (d.waiting s x).takeWhile (fun e => last || d.inOrder s x e)
    let at_ := match w.getLast? with | some e => (e.ts, e.ch) | none => (0, 0)
    let new := w.filter (fun e => !e.sealed)
    let r := (d.sealWaiting s x new).closeOver s x (d.slices[sl s]).blk[x5 x] at_ new
    r.2.foldl (fun d e =>
      let d := if w.isEmpty then d.ringCheck s (streamRing x) else d
      if w.isEmpty && d.ringReady s (streamRing x) then
        d.ringPut s (streamRing x) e.bytes (some (ringCause (streamRing x).1))
      else d.buffer e) r.1
  else d

/-- Close the open blocks of every stream of a slice. -/
def Dev.closeBlocks (d : Dev) (s : Nat) (last : Bool) : Dev := forEach 5 d (fun d x => d.closeStream s x last)

/-- A new chain starts (R190). -/
def Dev.newChain (d : Dev) (s : Nat) : Dev :=
  let r := (d.closeBlocks s true).drbg 8
  let d := r.2.setF64 (Reg.LDG_CHAIN_LO_ID s) (Reg.LDG_CHAIN_HI_ID s) (ofLeBytes r.1)
  d.modSlice (sl s) (fun e =>
    { e with blockNo := Vector.replicate 5 0, head := Vector.replicate 5 [], blk := Vector.replicate 5 [],
             chainStart := true, chainNo := e.chainNo + 1, prevHash := [] })

/-- A record takes its place before its ring, kept if the ring cannot be written or an older record is kept for it, and what can be
written is (R183–R185). -/
def Dev.putRecord (d : Dev) (v k : Fin 16) (e : SEntry) : Dev :=
  let s := e.slice.1
  (if d.ringReady s (streamRing e.ring) && !(d.waiting s e.ring).any (fun x => x.kept && x.before e) then d.buffer e
   else d.keep v k e).deliver5 s e.ring

/-! ### Checkpoints (R191–R194) -/

/-- Every channel of the slice is IDLE, or out of service with a fenced vat, and has nothing to stop (R218). [DEDUCED, log 61] -/
def Dev.stilled (d : Dev) (s : Nat) : Bool :=
  allCh (fun v k =>
    let c := d.chan v k
    c.owner != some (sl s) || ((c.st == .idle || c.st == .fenced) && c.run.isNone && c.stopReq.isEmpty))

/-- The channels of the slice are still and their step totals are closed (R175, R218). -/
def Dev.atRest (d : Dev) (s : Nat) : Bool :=
  d.stilled s && allCh (fun v k =>
    (d.chan v k).owner != some (sl s) || (((d.vats[v]).meas[k]).a.steps).all (fun x => x.closed))

/-- The bytes of a channel's entry around its totals (R193). -/
def Dev.ckRow (d : Dev) (v k : Fin 16) : Nat × List Byte × List Byte × Option (List Byte) :=
  let c := d.chan v k
  let m := (d.vats[v]).meas[k]
  let run := d.stepOf v k
  let sat := match run with
    | some r => match m.a.steps.find? (fun t => t.id == r.id) with
      | some t => t.qSat.isSome || t.eSat.isSome
      | none => false
    | none => false
  let b (p : Bool) (n : Nat) : Nat := if p then 2 ^ n else 0
  let fl := b (d.tb (Reg.VAT_LDG_DIV_CH v.1) k.1) 0 + b m.ckModf 1 + b m.ckSus 2 + b m.ckGap 3 +
    b (d.bit (Reg.VAT_LDG_CLOSED_CLOSED v.1)) 4 + b c.orphan.isSome 5 + b run.isSome 6 + b sat 7
  (chanNo v k,
   leBytes 1 (chanNo v k) ++ leBytes 1 fl ++ leBytes 1 c.st.code ++
     leBytes 1 (match run with | some r => r.d.stepIdx | none => 0) ++ leBytes 4 m.seq,
   leBytes 4 (d.f (Reg.VAT_CAL_GEN_GEN v.1 k.1)) ++
     leBytes 2 (match run with | some r => r.d.tag | none => 0) ++ leBytes 2 0, none)

/-- The header of a checkpoint at instant C (R192). -/
def Dev.ckHeader (d : Dev) (s c n : Nat) (closing : Bool) : List Byte :=
  let e := d.slices[sl s]
  let streams := (List.range 5).foldl (fun bs x =>
    bs ++ leBytes 8 e.blockNo[x5 x] ++ (if d.sealing s x then d.headHash s x else leBytes 48 0)) []
  leBytes 2 1 ++ leBytes 1 s ++
    leBytes 1 ((if e.chainStart then 1 else 0) + (if e.warm then 2 else 0) + (if closing then 4 else 0)) ++
    leBytes 4 (d.f (Reg.LDG_CK_PI_PI s)) ++ leBytes 8 c ++ leBytes 8 Config.deviceId ++ leBytes 8 (d.chainId s) ++
    leBytes 2 n ++ leBytes 2 (d.f (Reg.LDG_CFG_PERIOD s)) ++ leBytes 4 e.skipped ++
    (if e.chainStart || e.prevHash.isEmpty then leBytes 48 0 else e.prevHash) ++ streams ++ leBytes 144 0

/-- A checkpoint is not formed (R191). -/
def Dev.skipCkpt (d : Dev) (s : Nat) : Dev :=
  (d.bump (Reg.LDG_CK_SKIP_COUNT s)).modSlice (sl s) (fun e => { e with skipped := min (2 ^ 32 - 1) (e.skipped + 1) })

/-- The checkpoint area is full, a warm reset runs, or the previous checkpoint is still being written (R191). -/
def Dev.ckBarred (d : Dev) (s : Nat) : Bool :=
  decide (2 ^ d.f (Reg.LDG_CFG_CK_LOG2 s) ≤ (d.f (Reg.LDG_CK_PI_PI s) + 2 ^ 32 - d.f (Reg.LDG_CK_CI_CI s)) % 2 ^ 32) ||
  d.sup.warm.isSome || (d.slices[sl s]).ckpt.isSome

/-- Form a checkpoint at instant C (R191–R193): the open blocks close, the totals of C are kept for it, the marks start
again, and the signing key is taken if it is usable. [DEDUCED, log 59] -/
def Dev.formCkpt (d : Dev) (s c : Nat) (closing : Bool) : Dev :=
  let d := d.closeBlocks s false
  let hs := d.held s
  let ks := d.f (Reg.SLC_STATE_KEY_SIG s)
  let ck : Ckpt :=
    { slot := d.f (Reg.LDG_CK_PI_PI s) % 2 ^ d.f (Reg.LDG_CFG_CK_LOG2 s), inst := c, head := d.ckHeader s c hs.length closing,
      rows := hs.map (fun x => d.ckRow x.1 x.2), key := if d.usable ks then some (d.slotKey ks) else none
      hold := if d.usable ks then some (ks, d.meta ks 16 16) else none, closing }
  let d := if d.usable ks then d.takeKey ks else d
  let d := hs.foldl (fun d x => d.modMeas x.1 x.2 (fun m =>
    { m with a := { m.a with cut := some c, cutQ := none, cutE := none }, ckModf := false, ckSus := false, ckGap := false })) d
  d.modSlice (sl s) (fun e => { e with ckpt := some ck, chainStart := false, warm := false, skipped := 0 })

/-- The four totals of a channel as they stood at the checkpoint's instant, as reported (R173, R193). -/
def Integ.cutTotals (g : Integ) : List Byte :=
  let q := g.cutQ.getD (g.qIn, g.qOut)
  let e := g.cutE.getD (g.eIn, g.eOut)
  leBytes 12 (q.1 / 256) ++ leBytes 12 (q.2 / 256) ++ leBytes 12 (e.1 / 256) ++ leBytes 12 (e.2 / 256)

/-- The channel's totals of the checkpoint's instant are known: later outputs have been integrated, or none are to come (R191). -/
def Dev.cutReady (d : Dev) (c : Nat) : Bool :=
  let v := v16 (c / 16)
  let g := ((d.vats[v]).meas[v16 c]).a
  (g.cutQ.isSome && g.cutE.isSome) || !d.integrating v || decide (d.populated v ≤ (v16 c).1)

/-- The signed bytes of a checkpoint (R194). -/
def Dev.ckBody (d : Dev) (c : Ckpt) : List Byte :=
  c.rows.foldl (fun bs r =>
    bs ++ r.2.1 ++ (r.2.2.2.getD (((d.vats[v16 (r.1 / 16)]).meas[v16 r.1]).a).cutTotals) ++ r.2.2.1) c.head

/-- The signature of a checkpoint; open when the signing key could not be used (R194). [DEDUCED, log 59] -/
def Dev.ckSign (d : Dev) (c : Ckpt) (body : List Byte) : List Byte × Dev :=
  match c.key with
  | some k =>
    let n := d.drbg 48
    (Config.ecdsaSign (keyBytes 3 k) (Config.sha384 body) (ofLeBytes n.1), n.2)
  | none => (leBytes 96 (d.free 768).1, (d.free 768).2)

/-- Write the formed checkpoint to its slot, once its totals are known and its area is reachable, and signal it; a write that a checker
denies is recorded there, and the checkpoint waits (R191, R308, R346). [DEDUCED, log 59, 131] -/
def Dev.writeCkpt (d : Dev) (s : Nat) : Dev :=
  match (d.slices[sl s]).ckpt with
  | none => d
  | some c =>
    let loc := d.f (Reg.LDG_CFG_LOC s)
    let addr := d.f64 (Reg.LDG_CK_BASE_LO_ADDR s) (Reg.LDG_CK_BASE_HI_ADDR s) + c.slot * 0x5000
    let len := 0x260 + 64 * c.rows.length
    if !c.rows.all (fun r => r.2.2.2.isSome || d.cutReady r.1) then d
    else if d.pathUp s loc addr len then
      let body := d.ckBody c
      let sg := d.ckSign c body
      let d := sg.2.write s loc addr (body ++ sg.1)
      let d := d.wrap (Reg.LDG_CK_PI_PI s)
      let d := d.modSlice (sl s) (fun e => { e with ckpt := none, prevHash := Config.sha384 (body ++ sg.1) })
      let d := d.releaseKey c.hold
      let d := if c.orphan then d.mordEvt Reg.MORD_EVT_ORPHAN_USE else d
      d.signal s (some 7)
    else if loc = 2 && d.dmaRuns s then
      match d.reach 8 s .write addr len with
      | .fails a => d.engineFail 8 s .write a
      | _ => d
    else d

end Sys2Proof.Machine
end

