-- ==== Sys2Proof/Machine/ImpOps.lean ====
section
/-!
DEFINITION. The impedance engine (R195–R211): the timing of a point, who takes part, its samples, the record and its
way to the ring.
-/

namespace Sys2Proof.Machine
open Sys2Proof

/-- Phase increment of a frequency in µHz (R196). -/
def impInc (freq : Nat) : Nat := (2 * freq * 2 ^ 48 + 10 ^ 12) / (2 * 10 ^ 12)

/-- Ticks of a number of cycles, in units of 640 ticks: rounded up, and rounded to nearest (R196, R197). -/
def cyclesUp (n inc : Nat) : Nat := (n * 400 * 2 ^ 48 + (640 * inc - 1)) / (640 * inc)
def cyclesNear (n inc : Nat) : Nat := (2 * n * 400 * 2 ^ 48 + 640 * inc) / (2 * 640 * inc)

/-- Point p of a vat's list, started at P0 (R195–R197, R199, R200). -/
def Dev.newPoint (d : Dev) (v : Fin 16) (p p0 : Nat) : ImpPoint :=
  let inc := impInc (d.f (Reg.IMP_FREQ_FREQ v.1 p))
  let ws := p0 + 640 * cyclesUp (d.f (Reg.IMP_PCFG_SETTLE v.1 p)) inc
  let we := ws + 640 * max 1 (cyclesNear (d.f (Reg.IMP_PCFG_CYCLES v.1 p) + 1) inc)
  let amp := roundDiv ((d.iFs v : Int) * d.f (Reg.IMP_PCFG_AMP v.1 p)) 10000
  let mask := (List.finRange 16).foldl (fun m k =>
    if d.tb (Reg.IMP_MASK_MASK v.1) k.1 && ((d.chan v k).gang.getD k == k) then m + 2 ^ k.1 else m) 0
  { p, sweep := d.f (Reg.IMP_STAT_SWEEP v.1), npts := d.f (Reg.IMP_CFG_NPTS v.1), p0, wStart := ws, wEnd := we, inc, amp, mask,
    stepIdx := (List.finRange 16).map (fun k => match d.stepOf v k with | some r => r.d.stepIdx | none => 0) }

/-- A step whose channel can take part (R199). -/
def Desc.sweepable (x : Desc) : Bool :=
  if x.isGang then x.law.mode == 1 || x.law.mode == 3 else x.mode == 0xB || x.mode == 1 || x.mode == 3

/-- Change the point in progress where instant t lies in it. -/
def Dev.modPoint (d : Dev) (v : Fin 16) (t : Nat) (f : ImpPoint → ImpPoint) : Dev :=
  d.modImp v (fun i => { i with point := i.point.map (fun p => if p.p0 ≤ t ∧ t < p.wEnd then f p else p) })

/-- Channel k joins the point at its tick in the point's first period, or is skipped; of a gang only the leader counts, and its
record is the gang's either way (R199, R200). -/
def Dev.impJoin (d : Dev) (v k : Fin 16) (t : Nat) : Dev :=
  let c := d.chan v k
  let cv := d.cvOf v k
  let ok := match c.run with | some r => c.st == .run && r.d.sweepable && !d.modf v k | none => false
  d.modPoint v t (fun p =>
    if p.p0 + 400 ≤ t ∨ !p.mask.testBit k.1 then p
    else if c.gang.getD k ≠ k then { p with mask := setBit p.mask k.1 false }
    else { p with part := setBit p.part k.1 ok, cvAct := setBit p.cvAct k.1 cv,
                  gang := if c.gang.isSome then (k.1, d.gangMask v k) :: p.gang else p.gang })

/-- Channel k stops taking part at its tick t when it has left RUN, a step has begun at t, or a modulator fault shows
(R205). -/
def Dev.impAbort (d : Dev) (v k : Fin 16) (t : Nat) : Dev :=
  let c := d.chan v k
  let fresh := match c.run with | some r => r.t0 == t | none => true
  let out := c.st != .run || fresh || d.modf v k
  d.modPoint v t (fun p => if p.part.testBit k.1 && out then { p with abort := setBit p.abort k.1 true } else p)

/-- A change of CV_ACT within the point (R205, R210). -/
def Dev.impCv (d : Dev) (v k : Fin 16) (t : Nat) : Dev :=
  let a := d.cvOf v k
  d.modPoint v t (fun p => if p.mask.testBit k.1 && a != p.cvAct.testBit k.1 then
    { p with cvAct := setBit p.cvAct k.1 a, cvChg := setBit p.cvChg k.1 true } else p)

/-- Mark a channel's record: CLIP in the window, HELD in the point (R206). -/
def Dev.impMark (d : Dev) (v k : Fin 16) (t : Nat) (clip held : Bool) : Dev :=
  d.modPoint v t (fun p => if !p.mask.testBit k.1 then p else
    { p with clip := if clip && decide (p.wStart ≤ t) then setBit p.clip k.1 true else p.clip,
             held := if held then setBit p.held k.1 true else p.held })

/-! ### Samples (R201) -/

/-- The instant, in eighths of a tick, an output represents: its newest word's, less 126 word periods. -/
def sampleInstant (cur : Bool) (m phase : Nat) : Nat :=
  let dec8 := if cur then 5120 else 20480
  let step := if cur then 80 else 320
  let newest := dec8 * m - 1 - (dec8 * m - 1 + step - phase % step) % step
  newest - 126 * step

/-- The channels whose currents a point needs: those that take part, and all members of their gangs. -/
def ImpPoint.needs (p : ImpPoint) : Nat := p.gang.foldl (fun m g => if p.part.testBit g.1 then m ||| g.2 else m) p.part

/-- A point takes a sinc4 output of a channel that represents an instant in its window, a gang's voltages from its leader alone;
one with MODF is left out (R200, R201). -/
def ImpPoint.take (p : ImpPoint) (k : Nat) (cur : Bool) (z : ZOut) (t8 : Nat) (x : Int) : ImpPoint :=
  if (if cur then p.needs else p.part).testBit k && decide (8 * p.wStart ≤ t8) && decide (t8 < 8 * p.wEnd) then
    if z.modf then { p with modf := setBit p.modf k true }
    else
      let p := if z.sus then { p with sus := setBit p.sus k true } else p
      if cur then { p with iS := (k, z.m, t8, x) :: p.iS } else { p with vS := (k, z.m, t8, x) :: p.vS }
  else p

/-- Hand a sinc4 output to the points in progress. -/
def Dev.impSample (d : Dev) (v k : Fin 16) (cur : Bool) (z : ZOut) : Dev :=
  let l := (d.vats[v]).lane
  let t8 := sampleInstant cur z.m (if cur then l.lastIAt else l.lastVAt)
  let c := ((d.vats[v]).meas[k]).calAtTick (if cur then 640 * z.m else 2560 * z.m - 2880)
  let x := to8 (if cur then chargeN z.z (d.iFs v) c.ig c.io else chargeN z.z (d.vFs v) c.vg c.vo)
  d.modImp v (fun i =>
    { i with point := i.point.map (fun p => p.take k.1 cur z t8 x), fin := i.fin.map (fun p => p.take k.1 cur z t8 x) })

/-- Hand a temperature report to the points in progress (R209). -/
def Dev.impTemp (d : Dev) (v k : Fin 16) (t : Nat) (x : Option Int) : Dev :=
  let add (p : ImpPoint) : ImpPoint := if p.wStart ≤ t ∧ t < p.wEnd then { p with temps := (k.1, x) :: p.temps } else p
  d.modImp v (fun i => { i with point := i.point.map add, fin := i.fin.map add })

/-- The gang's current: the members' samples of one output added, where every member has one (R200, R201). -/
def gangSamples (xs : List (Nat × Nat × Nat × Int)) (leader members : Nat) : List (Nat × Int) :=
  let own := xs.filter (fun x => x.1 == leader)
  own.filterMap (fun x =>
    let all := xs.filter (fun y => members.testBit y.1 && y.2.1 == x.2.1)
    if all.length = (maskList members).length then some (x.2.2.1, all.foldl (fun a y => a + y.2.2.2) 0) else none)

/-! ### Records (R209–R211) -/

/-- T of a record: the mean of the reports in the window (R209). -/
def ImpPoint.temp (p : ImpPoint) (k : Nat) : Option Int :=
  let xs := (p.temps.filter (fun x => x.1 == k)).map (·.2)
  if xs.isEmpty || xs.any (·.isNone) then none
  else some (roundDiv (xs.foldl (fun a x => a + x.getD 0) 0) xs.length)

/-- A record that cannot be written or buffered is lost (R211). -/
def Dev.impLose (d : Dev) (v : Fin 16) : Dev := (d.bump (Reg.IMP_DROP_COUNT v.1)).raise (Reg.IMP_EVT_DROP v.1) 1 v.1

/-- Impedance records that wait for a ring, in order, over all vats (R211). -/
def Dev.impWaiting (d : Dev) (s x : Nat) : List SEntry :=
  d.vats.toList.foldl (fun acc v =>
    (v.imp.buf.filter (fun e => e.slice == sl s && e.ring == x)).foldl (fun acc e => insertSE e acc) acc) []

/-- The slice's ring x takes impedance records: enabled with 64-byte entries (R211). -/
def Dev.impRing (d : Dev) (s x : Nat) : Bool :=
  d.bit (Reg.SLC_RING_CFG_EN s (streamRing x).1) && d.bit (Reg.SLC_RING_CFG_ESIZE s (streamRing x).1)

/-- Write an impedance record to its ring. -/
def Dev.impWrite (d : Dev) (e : SEntry) : Dev :=
  d.ringPut e.slice.1 (streamRing e.ring) e.bytes (some (ringCause (streamRing e.ring).1))

/-- No impedance record of the ring that goes before the entry is still to be formed: of a point of any vat whose window has ended
earlier, or as early with a lower channel (R211). -/
def Dev.impInOrder (d : Dev) (e : SEntry) : Bool :=
  (List.finRange 16).all (fun v =>
    let i := (d.vats[v]).imp
    d.f (Reg.IMP_CFG_STREAM v.1) != e.ring || (i.fin ++ i.point.toList).all (fun p => !((maskList p.mask).any (fun k =>
      (d.chan v k).owner == some e.slice && decide (p.wEnd < e.ts ∨ (p.wEnd = e.ts ∧ chanNo v k < e.ch))))))

/-- The records due for a ring that cannot be written are kept in their vats' impedance buffers, with BUFFERED, or lost (R211). -/
def Dev.impKeep (d : Dev) (e : SEntry) : Dev :=
  let v := v16 (e.ch / 16)
  if ((d.vats[v]).imp.buf.filter (·.kept)).length < 256 then
    d.modImp v (fun i => { i with buf := insertSE { e with kept := true, bytes := markImpBuffered e.bytes } i.buf })
  else d.impLose v

/-- Take an impedance record out of its vat's buffer. -/
def Dev.impOut (d : Dev) (e : SEntry) : Dev := d.modImp (v16 (e.ch / 16)) (fun i => { i with buf := i.buf.erase e })

/-- The impedance records of a ring leave in order while it takes them and none that goes before them is still to come; a ring that
has been disabled or resized loses them (R211). -/
def Dev.impDeliver (d : Dev) (s x : Nat) : Nat → Dev
  | 0 => d
  | n + 1 =>
    match d.impWaiting s x with
    | e :: _ =>
      if !d.impRing s x then ((d.impOut e).impLose (v16 (e.ch / 16))).impDeliver s x n
      else if !d.impInOrder e then d
      else
        let d := d.ringCheck s (streamRing x)
        if d.ringReady s (streamRing x) then ((d.impOut e).impWrite e).impDeliver s x n
        else ((d.impWaiting s x).filter (fun e => !e.kept)).foldl (fun d e => (d.impOut e).impKeep e) d
    | [] => d

/-- A record takes its place before its ring, kept if the ring cannot be written or an older record is kept for it, and what can be
written is (R211). -/
def Dev.impPut (d : Dev) (v : Fin 16) (e : SEntry) : Dev :=
  let s := e.slice.1
  if !d.impRing s e.ring then d.impLose v
  else
    let d := if d.ringReady s (streamRing e.ring) && !(d.impWaiting s e.ring).any (fun x => x.kept && x.before e) then
        d.modImp v (fun i => { i with buf := insertSE e i.buf })
      else d.impKeep e
    d.impDeliver s e.ring ((d.impWaiting s e.ring).length + 1)

/-- The record of one channel of a point that has ended; aborted channels of a stopped sweep give ABORT (R203, R204,
R209, R210). [DESIGN CHOICE, log 9; DEDUCED, log 60] -/
def Dev.impRecord (d : Dev) (v k : Fin 16) (p : ImpPoint) : Dev :=
  let members := match p.gang.find? (fun g => g.1 == k.1) with | some g => g.2 | none => 2 ^ k.1
  let isGang := members != 2 ^ k.1
  let has (m : Nat) : Bool := m &&& members != 0
  let skip := !p.part.testBit k.1
  let abort := p.abort.testBit k.1
  let is := if isGang then gangSamples p.iS k.1 members else (p.iS.filter (fun x => x.1 == k.1)).map (fun x => (x.2.2.1, x.2.2.2))
  let vs := (p.vS.filter (fun x => x.1 == k.1)).map (fun x => (x.2.2.1, x.2.2.2))
  let fit := impResults is vs p.wStart p.wEnd p.inc
  let r (i : Nat) : Int := impRange i (binary64 (fit.1.getD i none) ((Config.impFit is vs p.wStart p.wEnd p.inc).getD i 0))
  let noZ := skip || abort || is.isEmpty || vs.isEmpty || fit.2
  let top : Int := 0x7FFFFFFF
  let sat := !noZ && decide (top < (r 0).natAbs ∨ top < (r 1).natAbs)
  let z (x : Int) : Nat := if noZ then 0x80000000 else pattern 32 (clamp (-top) top x)
  let iAmp := pattern 32 (r 4)
  let temp := p.temp k.1
  let b (q : Bool) (n : Nat) : Nat := if q then 2 ^ n else 0
  let fl := b (has p.sus) 0 + b (has p.modf) 1 + b (p.clip.testBit k.1) 2 + b (p.held.testBit k.1) 3 +
    b (decide ((2 * iAmp : Nat) < p.amp)) 4 + b (p.cvAct.testBit k.1) 5 + b (p.cvChg.testBit k.1) 6 + b abort 7 + b skip 8 +
    b isGang 9 + b (p.orph.testBit k.1) 10 + b sat 12 + b temp.isNone 13
  let m := (d.vats[v]).meas[k]
  let seq := m.impSeq
  let bytes := leBytes 4 seq ++ leBytes 1 (chanNo v k) ++ leBytes 1 (p.stepIdx.getD k.1 0) ++ leBytes 2 fl ++
    leBytes 8 p.wEnd ++ leBytes 4 (z (r 0)) ++ leBytes 4 (z (r 1)) ++
    leBytes 4 ((2 * p.inc * 10 ^ 12 + 2 ^ 48) / 2 ^ 49) ++ leBytes 2 p.sweep ++ leBytes 1 p.p ++
    leBytes 1 p.npts ++ leBytes 4 (pattern 32 (r 2)) ++ leBytes 4 (pattern 32 (r 3)) ++
    leBytes 4 iAmp ++ leBytes 4 (pattern 32 (r 5)) ++ leBytes 2 (pattern 16 (r 6)) ++ leBytes 2 (pattern 16 (r 7)) ++
    leBytes 4 (match temp with | some t => pattern 32 t | none => 0x80000000) ++ leBytes 4 (p.wEnd - p.wStart) ++ leBytes 4 0
  let d := d.modMeas v k (fun m => { m with impSeq := (m.impSeq + 1) % 2 ^ 32 })
  match (d.chan v k).owner with
  | some s => d.impPut v
      { slice := s, ring := d.f (Reg.IMP_CFG_STREAM v.1), ts := p.wEnd, ch := chanNo v k, seq, bytes }
  | none => d.impLose v

/-- The records of a set of channels, in order of k. -/
def Dev.impRecords (d : Dev) (v : Fin 16) (mask : Nat) (p : ImpPoint) : Dev :=
  (maskList mask).foldl (fun d k => d.impRecord v k p) d

/-- The window of the point in progress is closed once it has ended and the computations of its ticks are done (R197). -/
def Dev.windowEnd (d : Dev) (v : Fin 16) : Dev :=
  match (d.vats[v]).imp.point with
  | some p => if d.now < p.wEnd ∨ !d.ticksDone v p.wEnd then d else d.closeWindow v p
  | none => d

/-- Every sample of the window has been formed, or none will be any more, and every report whose instant lies in it has arrived (R94,
R178, R209). -/
def Dev.impReady (d : Dev) (v : Fin 16) (p : ImpPoint) : Bool :=
  let l := d.lane v
  let past (cur : Bool) (xs : List ZOut) (phase : Nat) : Bool :=
    match xs.head? with
    | some h => decide (8 * p.wEnd ≤ sampleInstant cur (h.m + 1) phase)
    | none => false
  decide (8 * p.wEnd + d.f (Reg.LANE_SAMPLE_OFS v.1) ≤ 8 * d.now) &&
  (!d.integrating v || (maskList p.needs).all (fun k =>
    past true ((d.vats[v]).meas[k]).zi l.lastIAt &&
    (!p.part.testBit k.1 || past false ((d.vats[v]).meas[k]).zv l.lastVAt)))

/-- A stop is asked for: it ends the sweep that runs at the next loop-period start, and takes back a START that has begun none
(R208, R218). [DEDUCED, log 60] -/
def Dev.impAskStop (d : Dev) (v : Fin 16) : Dev :=
  d.modImp v (fun i =>
    if d.bit (Reg.IMP_STAT_BUSY v.1) then { i with stopReq := some (i.stopReq.getD d.now) } else { i with startReq := none })

/-- STOP acts at a loop-period start: every channel that was taking part gets a record with ABORT (R208); points past their
W_end end as they would have. [DEDUCED, log 60] -/
def Dev.impStopNow (d : Dev) (v : Fin 16) : Dev :=
  let d := d.modImp v (fun i => { i with stopReq := none })
  match (d.vats[v]).imp.point with
  | some p =>
    let d := (d.modImp v (fun i => { i with point := none })).setF (Reg.IMP_STAT_BUSY v.1) 0
    d.impRecords v p.part { d.impFreeze v p with abort := p.part }
  | none => d.setF (Reg.IMP_STAT_BUSY v.1) 0

end Sys2Proof.Machine
end

