-- ==== Sys2Proof/Machine/ImpedanceCmds.lean ====
section
/-!
DEFINITION. The commands of the impedance engine (R195–R211).
-/

namespace Sys2Proof.Machine
open Sys2Proof

/-- A write of IMP_CTL: START asks for a sweep at the next loop-period start, refused and logged while BUSY; STOP asks
for the end of the sweep that runs, and takes back a START that has not yet begun one (R208). [DEDUCED, log 60] -/
def Dev.impCtl (d : Dev) (src : Src) (v : Fin 16) (w : Nat) : Dev :=
  let addr := Reg.IMP_CTL_at v.1
  d.onWrite src addr (fun d =>
    let d := if w.testBit 0 then
        (if d.bit (Reg.IMP_STAT_BUSY v.1) then d.logRefused src addr else d.modImp v (fun i => { i with startReq := some d.now }))
      else d
    if w.testBit 1 then d.impAskStop v else d)

/-- IMP_START: a write of IMP_CTL with START. -/
def execImpStart (src : Src) (v : Fin 16) (data : Word) (s : State) : Host.Outcome State Fault Refusal :=
  s.done (if data.toNat.testBit 0 then s.dev.impCtl src v data.toNat else s.dev)

/-- IMP_STOP: a write of IMP_CTL with STOP. -/
def execImpStop (src : Src) (v : Fin 16) (data : Word) (s : State) : Host.Outcome State Fault Refusal :=
  s.done (if data.toNat.testBit 1 then s.dev.impCtl src v data.toNat else s.dev)

/-- Start point p at the loop-period start a, in a new sweep or the sweep that runs (R196, R197). [DEDUCED, log 60] -/
def Dev.startPoint (d : Dev) (v : Fin 16) (p a : Nat) (fresh : Bool) : Dev :=
  let d := if fresh then d.wrap (Reg.IMP_STAT_SWEEP v.1) else d
  let d := (d.setF (Reg.IMP_STAT_BUSY v.1) 1).setF (Reg.IMP_STAT_POINT v.1) p
  let x := d.newPoint v p a
  let d := (d.setF (Reg.IMP_INC_LO_INC v.1) x.inc).setF (Reg.IMP_INC_HI_INC v.1) (x.inc / 2 ^ 32)
  d.modImp v (fun i => { i with point := some x, startReq := none, nextP := p + 1, nextAt := x.wEnd })

/-- POINT_START: at a loop-period start, once the computations before it are done, a window that has ended is closed; then a
requested sweep begins, or the next point of the sweep that runs; a requested stop acts instead (R197, R208).
[DEDUCED, log 39, 60] -/
def Dev.pointStart (d : Dev) (v : Fin 16) : Dev :=
  let a := d.periodStart
  if d.fenced v ∨ !d.settledAt a then d
  else
    let d := d.windowEnd v
    let i := (d.vats[v]).imp
    let due (x : Option Nat) : Bool := match x with | some t => decide (t < a) | none => false
    if due i.stopReq then d.impStopNow v
    else if d.bit (Reg.IMP_STAT_BUSY v.1) then
      if a < i.nextAt ∨ i.point.isSome then d
      else if i.nextP < d.f (Reg.IMP_CFG_NPTS v.1) then d.startPoint v i.nextP a false
      else d.startPoint v 0 a true
    else if due i.startReq then d.startPoint v 0 a true
    else d

/-- POINT_START. -/
def execPointStart (v : Fin 16) (s : State) : Host.Outcome State Fault Refusal := s.done (s.dev.pointStart v)

/-- POINT_END: a window that has ended is closed, the last one with DONE; where the samples of the oldest closed window are
formed, the fits are made and the records of its channels formed (R197, R200–R204, R209). -/
def Dev.pointEnd (d : Dev) (v : Fin 16) : Dev :=
  let d := d.windowEnd v
  match (d.vats[v]).imp.fin with
  | p :: rest => if d.impReady v p then (d.modImp v (fun i => { i with fin := rest })).impRecords v p.mask p else d
  | [] => d

/-- POINT_END. -/
def execPointEnd (v : Fin 16) (s : State) : Host.Outcome State Fault Refusal := s.done (s.dev.pointEnd v)

/-- The rings a vat's impedance records wait for: (slice, stream ring). -/
def Dev.impRings (d : Dev) (v : Fin 16) : List (Nat × Nat) := ((d.vats[v]).imp.buf.map (fun e => (e.slice.1, e.ring))).eraseDups

/-- IMP_RECORD_DELIVER: the rings a vat's records wait for take what they can (R211). -/
def execImpRecordDeliver (v : Fin 16) (s : State) : Host.Outcome State Fault Refusal :=
  s.done ((s.dev.impRings v).foldl (fun d r => d.impDeliver r.1 r.2 ((d.impWaiting r.1 r.2).length + 1)) s.dev)

end Sys2Proof.Machine
end

