-- ==== Sys2Proof/Machine/LaneOps.lean ====
section
/-!
DEFINITION. The power lane's shared operations (R44–R77): block slots, upstream words, reports, training states,
lane down, the kill traffic.
-/

namespace Sys2Proof.Machine
open Sys2Proof

/-- Raise an event of lane v (source 16 + v). -/
def Dev.laneEvt (d : Dev) (v : Fin 16) (bit : RF) : Dev := d.raise bit 1 (16 + v.1)

/-- Normal upstream frames arrive in CHECK, ACTIVE and HELD (R72). -/
def Dev.framesUp (d : Dev) (v : Fin 16) : Bool := d.laneState v == 4 || d.laneState v == 5 || d.laneState v == 6

/-- The lane trains: LOCK, DESC, ALIGN or CHECK. -/
def Dev.training (d : Dev) (v : Fin 16) : Bool := 1 ≤ d.laneState v && d.laneState v ≤ 4

/-- Bits of the populated channels. -/
def Dev.popMask (d : Dev) (v : Fin 16) : Nat := 2 ^ d.populated v - 1

/-- Clear an upstream receiver for a new training. [DEDUCED, log 32] -/
def Lane.fresh (l : Lane) : Lane :=
  { l with grp := [], grpBad := false, grpKill := false, words := [], prevI := List.replicate 16 0,
           prevV := List.replicate 16 0, failRun := 0, slots := [], descSeen := [], chkOk := 0, tstate := 0, rtt := [],
           dnAtCheck := none, kills := [], reps := [], ack := [], stopGroup := none, claim := none, dn := [] }

/-- The lane leaves service: the vat's channels are unavailable and CFG traffic is abandoned. -/
def Dev.leaveService (d : Dev) (v : Fin 16) : Dev :=
  ((d.setF (Reg.VAT_STAT_IN_SERVICE v.1) 0).setAvail v 0).abandonCfg v

/-- Entry into LOCK (R72, R74, R95): VBUS reads 0, TRN_TO counts from here. -/
def Dev.enterLock (d : Dev) (v : Fin 16) : Dev :=
  let d := d.leaveService v
  let d := d.setF (Reg.LANE_STAT_STATE v.1) laneLock
  let d := (d.setF (Reg.LANE_STAT_UP_LOCK v.1) 0).setF (Reg.LANE_STAT_BRD_LOCK v.1) 0
  let d := d.setF (Reg.VAT_VBUS_VBUS v.1) 0
  d.modLane v (fun l => { l.fresh with lockAt := d.now, restAt := none })

/-- The lane rests in OFF. -/
def Dev.enterOff (d : Dev) (v : Fin 16) : Dev :=
  let d := d.leaveService v
  let d := d.setF (Reg.LANE_STAT_STATE v.1) laneOff
  let d := (d.setF (Reg.LANE_STAT_UP_LOCK v.1) 0).setF (Reg.LANE_STAT_BRD_LOCK v.1) 0
  d.modLane v Lane.fresh

/-- Training fails with a code (R74): the lane rests in OFF, for 10 ms if a retry is left; after the last it stays there and
TRN_FAIL is reported. [DEDUCED, log 125] -/
def Dev.trainFail (d : Dev) (v : Fin 16) (code : Nat) : Dev :=
  let left := decide ((d.lane v).retries < d.f (Reg.LANE_CTL_TRN_RETRY v.1))
  let d := (d.enterOff v).setF (Reg.LANE_STAT_TRN_FAIL v.1) code
  let d := d.modLane v (fun l => { l with restAt := if left then some d.now else none })
  if left then d else d.laneEvt v (Reg.LANE_EVT_TRN_FAIL v.1)

/-- The lane goes down (R76): DOWN is reported and the vat fenced with cause 1. -/
def Dev.laneDown (d : Dev) (v : Fin 16) : Dev := (d.laneEvt v (Reg.LANE_EVT_DOWN v.1)).fenceNow v 1

/-- What a loss of upstream block or frame lock does in each state (R74, R76). -/
def Dev.lockLost (d : Dev) (v : Fin 16) : Dev :=
  match d.laneState v with
  | 2 | 3 | 4 => d.trainFail v 1
  | 5 => (d.setF (Reg.LANE_STAT_UP_LOCK v.1) 0).laneDown v
  | 6 => d.setF (Reg.LANE_STAT_UP_LOCK v.1) 0
  | _ => d

/-- Upstream block lock holds: fewer than 16 of the last 64 block slots had an invalid header (R76). [DEDUCED, log 125] -/
def Lane.blockLock (l : Lane) : Bool := (l.slots.filter (!·)).length < 16

/-- One upstream block slot passes, with or without a valid header; 16 invalid ones within 64 lose the lock (R76). -/
def Dev.slot (d : Dev) (v : Fin 16) (valid : Bool) : Dev :=
  let d := d.modLane v (fun l => { l with slots := (valid :: l.slots).take 64 })
  if !valid && !(d.lane v).blockLock && d.bit (Reg.LANE_STAT_UP_LOCK v.1) then d.lockLost v else d

/-- Header codes (R46): data blocks and control blocks. -/
def hdrData : Nat := 2
def hdrCtl : Nat := 1

/-- Block type and content of a control block (R46). -/
def blockType (payload : Nat) : Nat := payload % 256
def content (payload : Nat) : Nat := payload / 256 % 2 ^ 56

/-- An invalid block (R75): counted, its group failed. [DEDUCED, log 29] -/
def Dev.badBlock (d : Dev) (v : Fin 16) : Dev :=
  let d := d.bump (Reg.LANE_ERR_HDR_COUNT v.1)
  let d := d.modLane v (fun l => { l with grpBad := true })
  d.laneEvt v (Reg.LANE_EVT_GRP_ERR v.1)

/-- A block comes in a slot (R75, R76): an invalid one is counted, then its slot is filed, then its payload. -/
def Dev.blockIn (d : Dev) (v : Fin 16) (hdr : Nat) (ok : Bool) : Dev :=
  (if ok then d else d.badBlock v).slot v (hdr == hdrData || hdr == hdrCtl)

/-- Take a block's payload into the group. -/
def Dev.addPayload (d : Dev) (v : Fin 16) (payload : Nat) : Dev :=
  d.modLane v (fun l => { l with grp := l.grp ++ [payload % 2 ^ 64] })

/-- The arrival instant of a block, and the sampling instant of R56, in eighths of a tick. [DESIGN CHOICE, log 34] -/
def Dev.arrival (d : Dev) (frac : Nat) : Nat := 8 * d.now + frac % 8
def Dev.sampleAt (d : Dev) (v : Fin 16) (frac : Nat) : Nat := d.arrival frac - d.f (Reg.LANE_SAMPLE_OFS v.1)

/-- Word of channel k in an I or V block's payload (R52). -/
def wordOf (payload k : Nat) : Int := signed 4 (bits payload (4 * k) 4)

/-! ### Modulator faults and the trip comparator (R79, R91–R93) -/

/-- Show a modulator fault of a channel, in the loop period of its arrival (R79). [DEDUCED, log 32] -/
def Dev.setModf (d : Dev) (v k : Fin 16) (cur : Bool) : Dev :=
  let d := d.setTb (if cur then Reg.VAT_MODF_I v.1 else Reg.VAT_MODF_V v.1) k.1 true
  let d := d.modGuard v k (fun g => if cur then { g with badI := d.now } else { g with badV := d.now })
  d.raise (Reg.VAT_MEAS_EVT_MODF v.1) (2 ^ k.1) v.1

/-- The comparator is armed (R93). -/
def Dev.tripArmed (d : Dev) (v k : Fin 16) : Bool :=
  let g := (d.vats[v]).guards[k]
  g.force && !g.tripped

/-- A KILL of some channels that takes down every gang they belong to (R140): those named by one block with the
cause, the other members by a block with the second cause; each records the stop code. [DEDUCED, log 31] -/
def Dev.killGangs (d : Dev) (v : Fin 16) (mask cause rest code : Nat) : Dev :=
  let all := (maskList mask).foldl (fun m k => m ||| d.gangMask v k) mask
  let d := d.killMask v mask cause code
  let others := all - (all &&& mask)
  if others = 0 then d else d.killMask v others rest code

/-- One current word after R78 at the comparator: true if it trips the channel (R91, R92). [DESIGN CHOICE, log 132] -/
def Dev.compare (d : Dev) (v k : Fin 16) (x y : Int) : Dev × Bool :=
  let g := (d.vats[v]).guards[k]
  let last := (y :: g.last4).take 4
  let s := last.foldl (· + ·) 0
  let hi := signed 8 (d.f (Reg.VAT_TRIP_HI v.1 k.1))
  let lo := signed 8 (d.f (Reg.VAT_TRIP_LO v.1 k.1))
  let cnt := d.f (Reg.VAT_TRIP_CNT v.1 k.1)
  if d.tripArmed v k then
    let nHi := if hi < s then g.nHi + 1 else 0
    let nLo := if s < lo then g.nLo + 1 else 0
    if x = -8 ∨ cnt ≤ nHi ∨ cnt ≤ nLo then
      (d.modGuard v k (fun g => { g with last4 := last, nHi := 0, nLo := 0, tripped := true }), true)
    else (d.modGuard v k (fun g => { g with last4 := last, nHi := nHi, nLo := nLo }), false)
  else (d.modGuard v k (fun g => { g with last4 := last, nHi := 0, nLo := 0 }), false)

/-- File a word's marks for the fast path (R78). [DEDUCED, log 35] -/
def Meas.mark (m : Meas) (t8 : Nat) (cur sus modf : Bool) : List (Nat × Bool × Bool × Bool) :=
  if sus || modf then ((t8, cur, sus, modf) :: m.fastMarks).take 120 else m.fastMarks

/-- One current word of a channel: substitution, fast filter, comparator (R78, R80, R91). -/
def Dev.currentWord (d : Dev) (v k : Fin 16) (t8 : Nat) (x : Int) (replaced : Bool) : Dev × Bool :=
  let g := (d.vats[v]).guards[k]
  let y := if x = -8 then g.lastI else x
  let d := if x = -8 then d.setModf v k true else d.modGuard v k (fun g => { g with lastI := x })
  let d := d.modMeas v k (fun m => { m with fi := m.fi.push (25 * k.1) t8 y, fastMarks := m.mark t8 true replaced (x == -8) })
  d.compare v k x y

/-- One voltage word of a channel (R78, R81). -/
def Dev.voltageWord (d : Dev) (v k : Fin 16) (t8 : Nat) (x : Int) (replaced : Bool) : Dev :=
  let g := (d.vats[v]).guards[k]
  let y := if x = -8 then g.lastV else x
  let d := if x = -8 then d.setModf v k false else d.modGuard v k (fun g => { g with lastV := x })
  d.modMeas v k (fun m => { m with fv := m.fv.push (25 * k.1) t8 y, fastMarks := m.mark t8 false replaced (x == -8) })

/-- Populated channels, in order. -/
def Dev.popList (d : Dev) (v : Fin 16) : List (Fin 16) := (List.finRange 16).filter (fun k => k.1 < d.populated v)

/-- The words of an I or V block: as received, or the previous beat's for an invalid block (R75). [DEDUCED, log 29] -/
def Dev.blockWords (d : Dev) (v : Fin 16) (cur valid : Bool) (payload : Nat) : List Int :=
  if valid then (List.range 16).map (wordOf payload)
  else if cur then (d.lane v).prevI else (d.lane v).prevV

/-- Words enter the fast path and the comparator, and wait for the group's check (R75, R78). The channels that trip
are killed by one block. [DEDUCED, log 29] -/
def Dev.takeCurrent (d : Dev) (v : Fin 16) (t8 : Nat) (valid : Bool) (ws : List Int) : Dev :=
  let d := d.modLane v (fun l => { l with prevI := ws, lastIAt := t8, words := l.words ++ [(t8, true, ws)] })
  let r := (d.popList v).foldl (fun (r : Dev × Nat) k =>
    let x := r.1.currentWord v k t8 (ws.getD k.1 0) (!valid)
    (x.1, if x.2 then r.2 + 2 ^ k.1 else r.2)) (d, 0)
  if r.2 = 0 then r.1
  else
    let d := r.1.modLane v (fun l => { l with grpKill := true })
    (d.killGangs v r.2 0x01 0x04 12).raise (Reg.VAT_MEAS_EVT_TRIP v.1) r.2 v.1

/-- Voltage words share the instant of the I block before them (R56). [DEDUCED, log 29] -/
def Dev.takeVoltage (d : Dev) (v : Fin 16) (valid : Bool) (ws : List Int) : Dev :=
  let t8 := (d.lane v).lastIAt
  let d := d.modLane v (fun l => { l with prevV := ws, lastVAt := t8, words := l.words ++ [(t8, false, ws)] })
  (d.popList v).foldl (fun d k => d.voltageWord v k t8 (ws.getD k.1 0) (!valid)) d

/-! ### Reports (R55) -/

/-- The temperature of R94 from 1/64 °C, with an offset; none without a sensor. -/
def tempOf (raw : Nat) (ofs : Int) : Option Int :=
  if raw % 2 ^ 16 = 0x8000 then none else some (satS 32 (roundDiv (signed 16 raw * 125) 8 + ofs))

/-- A channel report (R55, R79, R93, R100, R110, R122). -/
def Dev.channelReport (d : Dev) (v k : Fin 16) (p frac : Nat) : Dev :=
  let latch := p.testBit 0
  let d := d.setTb (Reg.LANE_STAT_KLATCH v.1) k.1 latch
  let temp := tempOf (bits p 8 16) (signed 32 (d.f (Reg.VAT_TOFS_OFS v.1 k.1)))
  let seq := bits p 24 8
  let d := d.modGuard v k (fun g =>
    { g with hwOc := p.testBit 3, repModfI := p.testBit 4, repModfV := p.testBit 5, temp := temp, repAt := d.now,
             force := match g.offSeq with
               | some n => g.force && decide (128 ≤ (seq + 256 - n) % 256)
               | none => g.force,
             offSeq := match g.offSeq with
               | some n => if (seq + 256 - n) % 256 < 128 then none else some n
               | none => none })
  let d := d.modMeas v k (fun m => { m with temps := (m.temps ++ [(d.sampleAt v frac / 8, temp)]) })
  let d := d.impTemp v k (d.sampleAt v frac / 8) temp
  let d := if p.testBit 4 then d.setModf v k true else d
  let d := if p.testBit 5 then d.setModf v k false else d
  if latch then
    let d := d.modLane v (fun l =>
      { l with ack := l.ack.filter (fun a => a.1 != k.1),
               fenceAck := match l.fenceKillAt with
                 | some t => if t < d.now then setBit l.fenceAck k.1 true else l.fenceAck
                 | none => l.fenceAck })
    let l := d.lane v
    let d := if l.fenceAck &&& d.popMask v = d.popMask v ∧ l.latchAt.isNone ∧ l.fenceKillAt.isSome then
        d.modLane v (fun l => { l with latchAt := some d.now }) else d
    if (d.chan v k).st = .killed then d.enterQuiet v k .idle d.now else d
  else if (d.chan v k).st = .arm ∧ !d.modf v k then d.armed v k d.now
  else d

/-- The board report (R55, R75, R95). -/
def Dev.boardReport (d : Dev) (v : Fin 16) (p : Nat) : Dev :=
  let d := d.setF (Reg.VAT_VBUS_VBUS v.1) (bits p 0 16 * 1000)
  let d := d.setF (Reg.VAT_BRD_TEMP_TEMP v.1) (match tempOf (bits p 16 16) 0 with
    | some t => pattern 32 t
    | none => 0x80000000)
  let fl := bits p 32 4
  let d := d.modVat v (fun x => { x with boardFlags := fl })
  if fl = 0 then d else d.laneEvt v (Reg.LANE_EVT_BRD_FAULT v.1)

/-- An answer to the outstanding CFG request, by its TAG (R61, R62). -/
def Dev.cfgAnswer (d : Dev) (v : Fin 16) (ok : Bool) (p : Nat) : Dev :=
  match (d.lane v).cfgOut with
  | some q =>
    if q.tag = bits p 0 8 then
      let d := d.modLane v (fun l => { l with cfgOut := none })
      if q.op = 3 then d
      else
        let d := (d.setF (Reg.LANE_BREG_CTL_BUSY v.1) 0).setB (Reg.LANE_BREG_CTL_RESULT v.1) (!ok)
        if ok ∧ q.op = 2 then d.setF (Reg.LANE_BREG_DATA_DATA v.1) (bits p 16 32) else d
    else d
  | none => d

/-- Report 18: the board's count of failed downstream groups (R75); an advance in CHECK, from its first report 18 there, fails
training (R72). [DEDUCED, log 30] -/
def Dev.dnReport (d : Dev) (v : Fin 16) (p : Nat) : Dev :=
  let n := bits p 0 32
  let d := d.setF (Reg.LANE_ERR_DN_COUNT v.1) n
  if d.laneState v = laneCheck then
    match (d.lane v).dnAtCheck with
    | none => d.modLane v (fun l => { l with dnAtCheck := some n })
    | some m => if m = n then d else d.trainFail v 6
  else d

/-- A valid AUX report (R55). -/
def Dev.report (d : Dev) (v : Fin 16) (c frac : Nat) : Dev :=
  let sel := c % 256
  let p := c / 256 % 2 ^ 48
  if sel < 16 then (if sel < d.populated v then d.channelReport v (v16 sel) p frac else d)
  else if sel = 0x10 then d.boardReport v p
  else if sel = 0x11 then d.cfgAnswer v true p
  else if sel = 0x12 then d.cfgAnswer v false p
  else if sel = 0x14 then d.dnReport v p
  else d

/-! ### Group check (R70, R75, R76) -/

/-- Hand the group's words to the precision path and the ledger, marked if the group failed (R75, R78). Of a fenced
vat's words only those sampled before the closing tick are taken (R178). [DEDUCED, log 29] -/
def Dev.handWords (d : Dev) (v : Fin 16) (failed : Bool) : Dev :=
  if d.laneState v = laneActive ∨ d.laneState v = laneHeld then
    let ws := (d.lane v).words.filter (fun w => d.takesWord v w.1)
    (d.popList v).foldl (fun d k =>
      d.modMeas v k (fun m =>
        ws.foldl (fun m w =>
          let m := m.word w.2.1 w.1 (w.2.2.getD k.1 0) failed
          { m with fastMarks := m.mark w.1 w.2.1 failed false }) m)) d
  else d

/-- The end of a group, verified or failed; in DESC and ALIGN two failed ones in a row lose frame lock (R74).
[DEDUCED, log 29, 125] -/
def Dev.endGroup (d : Dev) (v : Fin 16) (good : Bool) : Dev :=
  let kill := (d.lane v).grpKill
  let d := d.handWords v (!good)
  let latch := if d.fenced v then d.latchTime v else none
  let d := d.modLane v (fun l =>
    { l with latchAt := latch, grp := [], grpBad := false, grpKill := false, words := [],
             failRun := if good then 0 else l.failRun + 1, chkOk := if good then l.chkOk + 1 else 0,
             lastGood := if good then d.now else l.lastGood })
  if good then d
  else
    let d := d.bump (Reg.LANE_ERR_GRP_COUNT v.1)
    let d := d.laneEvt v (Reg.LANE_EVT_GRP_ERR v.1)
    let d := if kill then d.laneEvt v (Reg.LANE_EVT_KILL_SUSPECT v.1) else d
    if d.laneState v = laneCheck then d.trainFail v 6
    else if (d.laneState v = laneDesc ∨ d.laneState v = laneAlign) ∧ 2 ≤ (d.lane v).failRun then d.lockLost v
    else if d.laneState v = laneActive ∧ d.f (Reg.LANE_CTL_DOWN_GRP v.1) ≤ (d.lane v).failRun then d.laneDown v
    else d

/-! ### Training (R57, R72–R74) -/

/-- File a descriptor word as received: how often in a row it came identical (R72). -/
def seeWord (xs : List (Nat × Nat × Nat)) (i w : Nat) : List (Nat × Nat × Nat) :=
  let n := match xs.find? (fun x => x.1 == i) with
    | some x => if x.2.1 = w then x.2.2 + 1 else 1
    | none => 1
  (i, w, n) :: xs.filter (fun x => x.1 != i)

/-- All eight words have been received identical twice. -/
def descFull (xs : List (Nat × Nat × Nat)) : Bool :=
  (List.range 8).all (fun i => xs.any (fun x => x.1 == i && 2 ≤ x.2.2))

/-- Word i of the descriptor as received. -/
def descWord (xs : List (Nat × Nat × Nat)) (i : Nat) : Nat :=
  match xs.find? (fun x => x.1 == i) with
  | some x => x.2.1
  | none => 0

/-- DESC_CRC is correct. -/
def descCrcOk (xs : List (Nat × Nat × Nat)) : Bool :=
  descWord xs 7 == crc32 ((List.range 7).foldl (fun bs i => bs ++ leBytes 4 (descWord xs i)) [])

/-- Every field lies in the range R72 gives it. -/
def descRangeOk (xs : List (Nat × Nat × Nat)) : Bool :=
  let w := descWord xs
  bits (w 0) 0 8 == 1 && 1 ≤ bits (w 0) 8 5 && bits (w 0) 8 5 ≤ 16 && bits (w 0) 13 3 == 0 &&
  8 ≤ bits (w 3) 0 16 && bits (w 3) 0 16 ≤ 1600 && 8 ≤ bits (w 3) 16 5 && bits (w 3) 16 5 ≤ 24 && bits (w 3) 21 11 == 0 &&
  1 ≤ bits (w 5) 0 8 && bits (w 5) 0 8 ≤ 100 && bits (w 5) 8 24 == 0 &&
  5000 ≤ bits (w 6) 0 16 && bits (w 6) 0 16 ≤ 24000 && bits (w 6) 0 16 ≤ bits (w 6) 16 16 && bits (w 6) 16 16 ≤ 24000

/-- The lane reaches ACTIVE (R72, R123): the vat is in service and unfenced, its populated channels available, its
filters at rest; of words, reports and groups begun before, nothing is kept for the measurement path. A safe stop that stands is
sent at once (R66). [DEDUCED, log 32] -/
def Dev.goActive (d : Dev) (v : Fin 16) : Dev :=
  let d := d.setF (Reg.LANE_STAT_STATE v.1) laneActive
  let d := d.setF (Reg.VAT_STAT_IN_SERVICE v.1) 1
  let d := (d.setF (Reg.VAT_STAT_FENCED v.1) 0).setF (Reg.VAT_STAT_FENCE_DONE v.1) 0
  let d := (d.setTb Reg.SYS_FENCE_VAT v.1 false).setAvail v (d.popMask v)
  let d := d.eachChan (fun d k =>
    (d.modMeas v k (fun m =>
      { m with fi := {}, fv := {}, a := { m.a with fi := {}, fv := {}, i8 := [], v8 := [] },
               b := { m.b with fi := {}, fv := {}, i8 := [], v8 := [] },
               zi := [], zv := [], temps := [], fastMarks := [] })).modGuard v k
      (fun g => { g with last4 := [], nHi := 0, nLo := 0, lastI := 0, lastV := 0 }))
  let d := d.modLane v (fun l =>
    { l with activeAt := d.now, retries := 0, failRun := 0, kills := [], reps := [], ack := [], fenceKillAt := none, fenceAck := 0,
             latchAt := none, stopGroup := none, words := [] })
  if d.safeStop then d.killMask v 0xFFFF 0x03 14 else d

/-- One exit condition of training met (R56, R57, R72): the lane moves on, or training fails. A round trip shorter than
A_S + A_T gives a one-way delay of 0. [DEDUCED, log 30, 125] -/
def Dev.advance (d : Dev) (v : Fin 16) (rtt : List Nat) : Dev :=
  let l := d.lane v
  match d.laneState v with
  | 1 =>
    if l.blockLock ∧ 2 ≤ l.chkOk ∧ d.bit (Reg.LANE_STAT_BRD_LOCK v.1) then
      let d := (d.setF (Reg.LANE_STAT_STATE v.1) laneDesc).setF (Reg.LANE_STAT_UP_LOCK v.1) 1
      d.modLane v (fun l => { l with descSeen := [], failRun := 0 })
    else d
  | 2 =>
    if descFull l.descSeen then
      let d := (List.range 8).foldl (fun d i => d.setF (Reg.LANE_DESC_WORD v.1 i) (descWord l.descSeen i)) d
      d.setF (Reg.LANE_STAT_STATE v.1) laneAlign
    else d
  | 3 =>
    if rtt.length < 64 then d
    else
      let hi := rtt.foldl max 0
      let lo := rtt.foldl min hi
      let r := rtt.getLastD 0
      let aS := bits (d.desc v 4) 0 16
      let aT := bits (d.desc v 4) 16 16
      let one := (r - aS - aT) / 2
      if 2 < hi - lo then d.trainFail v 4
      else if 160 < aS ∨ 640 < aT + one then d.trainFail v 5
      else
        let d := (d.setF (Reg.LANE_DLY_RTT v.1) r).setF (Reg.LANE_DLY_ONEWAY v.1) one
        let d := (d.setF (Reg.LANE_SAMPLE_OFS v.1) (aT + one)).setF (Reg.LANE_STAT_STATE v.1) laneCheck
        d.modLane v (fun l => { l with chkOk := 0, grp := [], grpBad := false, words := [], dnAtCheck := none })
  | 4 =>
    if 10000 ≤ l.chkOk ∧ d.f (Reg.LANE_STAT_KLATCH v.1) &&& d.popMask v = d.popMask v then d.goActive v else d
  | _ => d

end Sys2Proof.Machine
end

