-- ==== Sys2Proof/Machine/LaneCmds.lean ====
section
/-!
DEFINITION. The commands of the power lanes (R44–R77): upstream blocks, training, board registers, KILL traffic.
-/

namespace Sys2Proof.Machine
open Sys2Proof

/-! ### Upstream blocks -/

/-- I_BLOCK (R52, R56, R75, R78, R91); a control block in an I slot is an invalid block. [DEDUCED, log 29] -/
def Dev.iBlock (d : Dev) (v : Fin 16) (hdr payload frac : Nat) : Dev :=
  if d.framesUp v then
    let ok := hdr == hdrData
    let d := (d.blockIn v hdr ok).addPayload v payload
    if d.framesUp v then d.takeCurrent v (d.sampleAt v frac) ok (d.blockWords v true ok payload) else d
  else d

/-- I_BLOCK. -/
def execIBlock (v : Fin 16) (hdr payload frac : Nat) (s : State) : Host.Outcome State Fault Refusal :=
  s.done (s.dev.iBlock v hdr payload frac)

/-- V_BLOCK (R52, R56, R75, R78); a control block in a V slot is an invalid block. [DEDUCED, log 29] -/
def Dev.vBlock (d : Dev) (v : Fin 16) (hdr payload : Nat) : Dev :=
  if d.framesUp v then
    let ok := hdr == hdrData
    let d := (d.blockIn v hdr ok).addPayload v payload
    if d.framesUp v then d.takeVoltage v ok (d.blockWords v false ok payload) else d
  else d

/-- V_BLOCK. -/
def execVBlock (v : Fin 16) (hdr payload : Nat) (s : State) : Host.Outcome State Fault Refusal :=
  s.done (s.dev.vBlock v hdr payload)

/-- A modulator-fault bit clears after one complete loop period without a −8 word and with the report bit clear
(R79). -/
def Dev.modfClear (d : Dev) (v k : Fin 16) (cur : Bool) : Dev :=
  let g := (d.vats[v]).guards[k]
  let bad := if cur then g.badI else g.badV
  let rep := if cur then g.repModfI else g.repModfV
  if !rep && decide (400 * (bad / 400 + 2) ≤ d.now) then
    d.setTb (if cur then Reg.VAT_MODF_I v.1 else Reg.VAT_MODF_V v.1) k.1 false
  else d

/-- MODF_CLEAR. -/
def execModfClear (v k : Fin 16) (current : Bool) (s : State) : Host.Outcome State Fault Refusal :=
  s.done (s.dev.modfClear v k current)

/-- AUX_REPORT (R48, R55, R75); a block of another kind in an AUX slot is an invalid block. [DEDUCED, log 29] -/
def Dev.auxReport (d : Dev) (v : Fin 16) (hdr payload frac : Nat) : Dev :=
  if d.framesUp v then
    let ok := hdr == hdrCtl && blockType payload == 0x66
    let d := (d.blockIn v hdr ok).addPayload v payload
    if d.framesUp v && ok then d.report v (content payload) frac else d
  else d

/-- AUX_REPORT. -/
def execAuxReport (v : Fin 16) (hdr payload frac : Nat) (s : State) : Host.Outcome State Fault Refusal :=
  s.done (s.dev.auxReport v hdr payload frac)

/-- GROUP_CHECK (R70, R71, R75, R76): only the CRC is judged; no rule gives the upstream GROUP and FRAME an effect.
[DEDUCED, log 29] -/
def Dev.groupCheck (d : Dev) (v : Fin 16) (hdr payload : Nat) : Dev :=
  if d.laneState v = laneOff then d
  else
    let ok := hdr == hdrCtl && blockType payload == 0x96
    let d := d.blockIn v hdr ok
    let l := d.lane v
    if d.laneState v = laneOff then d
    else d.endGroup v (ok && !l.grpBad && l.grp.length == 7 && groupCrc l.grp == bits (content payload) 0 32)

/-- GROUP_CHECK. -/
def execGroupCheck (v : Fin 16) (hdr payload : Nat) (s : State) : Host.Outcome State Fault Refusal :=
  s.done (s.dev.groupCheck v hdr payload)

/-- One block slot in which no block with a valid header came, its start `ago` eighths of a tick before now (R75, R76): an
invalid block in its place of the group (R50), whose words in a normal frame are those of the previous beat; the CHK's place ends the
group.
Before block lock, in OFF and LOCK, there are no slots. [DEDUCED, log 29, 125] -/
def Dev.emptySlot (d : Dev) (v : Fin 16) (ago : Nat) : Dev :=
  if d.laneState v < laneDesc then d
  else
    let p := (d.lane v).grp.length
    let d := d.blockIn v 0 false
    if d.laneState v < laneDesc then d
    else if 7 ≤ p then d.endGroup v false
    else
      let d := d.addPayload v 0
      if !d.framesUp v then d
      else if p = 1 then d.takeVoltage v false (d.lane v).prevV
      else if p % 2 = 0 then d.takeCurrent v (d.sampleAt v 0 - ago) false (d.lane v).prevI
      else d

/-- Block slots in which no block with a valid header came, the last of them starting now (R76). -/
def Dev.emptySlots (d : Dev) (v : Fin 16) (n : Nat) : Dev :=
  forEach n d (fun d i => d.emptySlot v (40 * (n - 1 - i)))

/-- BLOCK_LOCK_LOSS. -/
def execBlockLockLoss (v : Fin 16) (empties : Nat) (s : State) : Host.Outcome State Fault Refusal :=
  s.done (s.dev.emptySlots v empties)

/-! ### Training -/

/-- TRN_BLOCK (R72–R74): its slot, TSTATE and, in DESC, a descriptor word; in CHECK a board that still trains says only whether it
has kept its lock. [DEDUCED, log 125] -/
def Dev.trnBlock (d : Dev) (v : Fin 16) (payload : Nat) : Dev :=
  let st := d.laneState v
  if d.training v then
    let d := (d.blockIn v hdrCtl (blockType payload == 0xC3)).addPayload v payload
    if blockType payload ≠ 0xC3 then d
    else
      let c := content payload
      let up := decide (bits c 0 4 = 1)
      let d := d.setB (Reg.LANE_STAT_BRD_LOCK v.1) up
      if st ≠ laneLock ∧ !up then d.trainFail v 1
      else if st = laneDesc ∧ bits c 4 4 < 8 then
        let d := d.modLane v (fun l => { l with descSeen := seeWord l.descSeen (bits c 4 4) (bits c 8 32) })
        let xs := (d.lane v).descSeen
        if descFull xs then
          if !descCrcOk xs then d.trainFail v 2 else if !descRangeOk xs then d.trainFail v 3 else d
        else d
      else d
  else d

/-- TRN_BLOCK. -/
def execTrnBlock (v : Fin 16) (payload : Nat) (s : State) : Host.Outcome State Fault Refusal :=
  s.done (s.dev.trnBlock v payload)

/-- A write of LANE_CTL, with what its EN and RETRAIN bits do (R72, R77): refused whole unless every channel is IDLE
where it clears EN or retrains. -/
def Dev.laneCtl (d : Dev) (src : Src) (v : Fin 16) (w : Nat) : Dev :=
  let addr := Reg.LANE_CTL_at v.1
  d.onWrite src addr (fun d =>
    let en := w.testBit 0
    let was := d.bit (Reg.LANE_CTL_EN v.1)
    if (!en || w.testBit 1) && !d.allIdle v then d.logRefused src addr
    else
      let d := (d.writeRest src addr w [0]).setB (Reg.LANE_CTL_EN v.1) en
      if !en then (if was then d.enterOff v else d)
      else if !was || w.testBit 1 then (d.modLane v (fun l => { l with retries := 0 })).enterLock v
      else d)

/-- LANE_ENABLE: a write of LANE_CTL with EN = 1 while the lane is off. -/
def execLaneEnable (src : Src) (v : Fin 16) (data : Word) (s : State) : Host.Outcome State Fault Refusal :=
  s.done (if data.toNat.testBit 0 && !s.dev.bit (Reg.LANE_CTL_EN v.1) then s.dev.laneCtl src v data.toNat else s.dev)

/-- LANE_DISABLE: a write of LANE_CTL with EN = 0. -/
def execLaneDisable (src : Src) (v : Fin 16) (data : Word) (s : State) : Host.Outcome State Fault Refusal :=
  s.done (if data.toNat.testBit 0 then s.dev else s.dev.laneCtl src v data.toNat)

/-- RETRAIN: a write of LANE_CTL with EN and RETRAIN = 1 while the lane is enabled. -/
def execRetrain (src : Src) (v : Fin 16) (data : Word) (s : State) : Host.Outcome State Fault Refusal :=
  s.done (if data.toNat.testBit 0 && data.toNat.testBit 1 then s.dev.laneCtl src v data.toNat else s.dev)

/-- TRAINING_ADVANCE (R72), with the round trips measured in ALIGN. [DEDUCED, log 30] -/
def execTrainingAdvance (v : Fin 16) (rtt : List Nat) (s : State) : Host.Outcome State Fault Refusal :=
  s.done (s.dev.advance v rtt)

/-- TRAINING_TIMEOUT: TRN_TO ms since the entry into LOCK (R74). -/
def execTrainingTimeout (v : Fin 16) (s : State) : Host.Outcome State Fault Refusal :=
  s.done (
    let d := s.dev
    if d.training v && (d.lane v).lockAt + 400000 * d.f (Reg.LANE_CTL_TRN_TO v.1) ≤ d.now then
      d.trainFail v (if d.laneState v = laneLock then 1 else 7)
    else d)

/-- TRAINING_RETRY: 10 ms after a failure the lane starts again (R74). -/
def execTrainingRetry (v : Fin 16) (s : State) : Host.Outcome State Fault Refusal :=
  s.done (
    let d := s.dev
    match (d.lane v).restAt with
    | some t =>
      if d.laneState v = laneOff ∧ d.bit (Reg.LANE_CTL_EN v.1) ∧ t + 4000000 ≤ d.now then
        (d.modLane v (fun l => { l with retries := l.retries + 1 })).enterLock v
      else d
    | none => d)

/-! ### Board registers (R61, R62) -/

/-- A write of LANE_BREG_CTL with GO: ignored while BUSY, answered at once with NOT_ACTIVE off the ACTIVE lane, else
a request queued. [DESIGN CHOICE, log 133] -/
def Dev.bregGo (d : Dev) (src : Src) (v : Fin 16) (w : Nat) : Dev :=
  let addr := Reg.LANE_BREG_CTL_at v.1
  d.onWrite src addr (fun d =>
    let d := d.writeRest src addr w []
    if d.bit (Reg.LANE_BREG_CTL_BUSY v.1) then d
    else if d.laneState v = laneActive then
      (d.setF (Reg.LANE_BREG_CTL_BUSY v.1) 1).modLane v (fun l =>
        { l with cfgQ := l.cfgQ ++ [{ op := if w.testBit 8 then 1 else 2, addr := bits w 0 8,
                                      data := d.f (Reg.LANE_BREG_DATA_DATA v.1) }] })
    else d.setF (Reg.LANE_BREG_CTL_RESULT v.1) 3)

/-- BREG_READ: GO with WR = 0. -/
def execBregRead (src : Src) (v : Fin 16) (data : Word) (s : State) : Host.Outcome State Fault Refusal :=
  s.done (if data.toNat.testBit 9 && !data.toNat.testBit 8 then s.dev.bregGo src v data.toNat else s.dev)

/-- BREG_WRITE: GO with WR = 1. -/
def execBregWrite (src : Src) (v : Fin 16) (data : Word) (s : State) : Host.Outcome State Fault Refusal :=
  s.done (if data.toNat.testBit 9 && data.toNat.testBit 8 then s.dev.bregGo src v data.toNat else s.dev)

/-- CFG_SEND: the slot that starts now carries the oldest waiting CFG request, if it may (R61, R62). -/
def execCfgSend (v : Fin 16) (s : State) : Host.Outcome State Fault Refusal := s.done (s.dev.cfgSend v)

/-- CFG_TIMEOUT: 4 µs without an answer; the request is sent again up to three times, then abandoned (R62). -/
def Dev.cfgTimeout (d : Dev) (v : Fin 16) : Dev :=
  match (d.lane v).cfgOut with
  | some q =>
    if d.now < (q.sentAt.getD d.now) + 1600 then d
    else if q.tries < 3 then
      d.modLane v (fun l => { l with cfgOut := none, cfgQ := { q with tries := q.tries + 1, sentAt := none } :: l.cfgQ })
    else
      let d := (d.modLane v (fun l => { l with cfgOut := none })).laneEvt v (Reg.LANE_EVT_CFG_TIMEOUT v.1)
      if q.op = 3 then d
      else (d.setF (Reg.LANE_BREG_CTL_BUSY v.1) 0).setF (Reg.LANE_BREG_CTL_RESULT v.1) 2
  | none => d

/-- CFG_TIMEOUT. -/
def execCfgTimeout (v : Fin 16) (s : State) : Host.Outcome State Fault Refusal := s.done (s.dev.cfgTimeout v)

/-! ### KILL (R63–R67) -/

/-- FIRMWARE_KILL: a write of LANE_KILL; without effect unless the lane is ACTIVE (R66). -/
def execFirmwareKill (src : Src) (v : Fin 16) (data : Word) (s : State) : Host.Outcome State Fault Refusal :=
  s.done (s.dev.onWrite src (Reg.LANE_KILL_at v.1) (fun d =>
    let m := data.toNat % 2 ^ 16
    if d.laneState v = laneActive ∧ m ≠ 0 then d.killGangs v m 0x05 0x05 16 else d))

/-- KILL_EMIT: the KILLs due for the slot that starts now go out (R66). -/
def execKillEmit (v : Fin 16) (s : State) : Host.Outcome State Fault Refusal := s.done (s.dev.killEmit v)

/-- KILL_REPEAT: the CFG/IDLE slot that starts now carries the repeat KILL that is due (R66, R72). -/
def execKillRepeat (v : Fin 16) (s : State) : Host.Outcome State Fault Refusal := s.done (s.dev.killRepeat v)

/-- KILL_NOACK: a report that started more than 2 µs after the KILL still shows KLATCH = 0: reported once for that KILL; an
ACTIVE lane goes down, a HELD one is down already (R67, R76). -/
def Dev.killNoack (d : Dev) (v k : Fin 16) : Dev :=
  match (d.lane v).ack.find? (fun a => a.1 == k.1) with
  | some a =>
    if a.2 + 800 < ((d.vats[v]).guards[k]).repAt ∧ !d.klatch v k then
      let d := (d.modLane v (fun l => { l with ack := l.ack.filter (fun a => a.1 != k.1) })).laneEvt v (Reg.LANE_EVT_KILL_NOACK v.1)
      if d.laneState v = laneActive then d.laneDown v else d
    else d
  | none => d

/-- KILL_NOACK. -/
def execKillNoack (v k : Fin 16) (s : State) : Host.Outcome State Fault Refusal := s.done (s.dev.killNoack v k)

end Sys2Proof.Machine
end

