-- ==== Sys2Proof/Machine/MeasCmds.lean ====
section
/-!
DEFINITION. The commands of the measurement path (R80–R90, R181–R183): fast samples, sinc4 outputs, precision outputs
with their records, rate changes, calibration commits.
-/

namespace Sys2Proof.Machine
open Sys2Proof

/-! ### Fast samples (R80–R82, R88, R89) -/

/-- Marks of the words of a quantity in a support [a, b), in eighths of a tick: SUSPECT, MODF. [DEDUCED, log 35] -/
def Meas.marksIn (m : Meas) (cur : Bool) (a b : Nat) : Bool × Bool :=
  let xs := m.fastMarks.filter (fun x => x.2.1 == cur && decide (a ≤ x.1) && decide (x.1 < b))
  (xs.any (fun x => x.2.2.1), xs.any (fun x => x.2.2.2))

/-- The calibrated sample pair at instant t (R88, R89) with the marks of the words it uses (R80, R81). [DEDUCED, log 35] -/
def Meas.fast (m : Meas) (t : Nat) (yi yv : Int) (iFs vFs : Nat) : Fast :=
  let c := m.calAtTick t
  let mi := m.marksIn true (8 * (t - 390)) (8 * t)
  let mv := m.marksIn false (8 * (t - 360)) (8 * t)
  { i := calibrate yi iFs 2800 c.ig c.io, v := calibrate yv vFs 175 c.vg c.vo,
    sus := mi.1 || mv.1, modf := mi.2 || mv.2 }

/-- The oldest due output of the two fast filters: a window sample at a loop tick, a half sample between two (R80). It waits while
it is not yet known which coefficients are in force at its instant (R89, R90). -/
def Dev.fastSample (d : Dev) (v k : Fin 16) : Dev :=
  let m := (d.vats[v]).meas[k]
  match m.fi.pop, m.fv.pop with
  | some (ti, yi, fi), some (tv, yv, fv) =>
    if d.calWaits v k (max ti tv) then d
    else if ti < tv then d.modMeas v k (fun m => { m with fi := fi })
    else if tv < ti then d.modMeas v k (fun m => { m with fv := fv })
    else
      let x := m.fast ti yi yv (d.iFs v) (d.vFs v)
      let d := d.modMeas v k (fun m => { m with fi := fi, fv := fv })
      if (ti - 25 * k.1) % 400 = 0 then d.modChan v k (fun c => { c with win := x })
      else d.modChan v k (fun c => { c with half := x })
  | _, _ => d

/-- FAST_SAMPLE. -/
def execFastSample (v k : Fin 16) (s : State) : Host.Outcome State Fault Refusal := s.done (s.dev.fastSample v k)

/-! ### sinc4 outputs (R83, R170–R175) -/

/-- The oldest due sinc4 output of a modulator: integrated twice, filed for the averaging FIR, offered to the
impedance engine. -/
def Dev.sinc4Output (d : Dev) (v k : Fin 16) (cur : Bool) : Dev :=
  match ((d.vats[v]).meas[k]).sinc4 cur (d.iFs v) (d.vFs v) with
  | some (z, m) =>
    if d.calWaits v k (if cur then 640 * z.m else 2560 * z.m - 2880) then d else
    let d := if cur then d.diverge v k (640 * z.m) else d
    (d.modMeas v k (fun _ => m)).impSample v k cur z
  | none => d

/-- SINC4_OUTPUT. -/
def execSinc4Output (v k : Fin 16) (current : Bool) (s : State) : Host.Outcome State Fault Refusal :=
  s.done (s.dev.sinc4Output v k current)

/-! ### Precision outputs (R84–R88) -/

/-- Ticks by which two intervals overlap. [DEDUCED, log 36] -/
def overlap (a b c e : Int) : Nat := (min b e - max a c).toNat

/-- One quantity of a precision output: the averaging FIR's q, SUSPECT, MODF (R84, R87). [DEDUCED, log 36] -/
def fir (zs : List ZOut) (dec shift t per : Nat) : Int × Bool × Bool :=
  let r := zs.foldl (fun (r : Int × Bool × Bool) z =>
    let e : Int := (dec * z.m : Nat) - (shift : Int)
    let w := overlap (e - dec) e ((t : Int) - per) t / 160
    if w = 0 then r else (r.1 + w * z.z, r.2.1 || z.sus, r.2.2 || z.modf)) (0, false, false)
  (clamp (-8388608) 8388607 (roundDiv r.1 (14 * (per / 160) : Nat)), r.2.1, r.2.2)

/-- Every sinc4 output an instant's precision output and record count has been formed, those of the energy units of the last current
output counted included (R173). [DEDUCED, log 36] -/
def Dev.precReady (d : Dev) (v k : Fin 16) (t : Nat) : Bool :=
  let m := (d.vats[v]).meas[k]
  let newest (zs : List ZOut) : Nat := match zs.head? with | some z => z.m | none => 0
  decide (t ≤ 640 * newest m.zi) && decide (t ≤ 2560 * newest m.zv - 2880) &&
  (!d.integrating v || (decide (t + 1590 ≤ 640 * (newest m.zi + 1)) && decide ((4 * ((t + 1589) / 640) + 33) / 16 ≤ newest m.zv)))

/-- The temperature of a precision output (R94): the mean of the reports in the covered period. -/
def Meas.tempMean (m : Meas) (t per : Nat) : Option Int :=
  let xs := (m.temps.filter (fun x => decide (t ≤ x.1 + per) && decide (x.1 < t))).map (·.2)
  if xs.isEmpty || xs.any (·.isNone) then none else some (roundDiv (xs.foldl (fun a x => a + x.getD 0) 0) xs.length)

/-- The record of a precision output in a streamed step (R181–R183). -/
def Dev.record (d : Dev) (v k : Fin 16) (o : Prec) (calChg rateChg : Bool) : Dev :=
  let m := (d.vats[v]).meas[k]
  let c := d.chan v k
  match m.a.steps.find? (fun s => s.contains o.t), c.owner with
  | some s, some own =>
    if s.stream < 5 then
      let b (q : Bool) (n : Nat) : Nat := if q then 2 ^ n else 0
      let counted (x : Option Nat) : Bool := match x with | some i => decide (attrib i < (o.t : Int)) | none => false
      let fl := b o.sus 0 + b o.modf 1 + b calChg 2 + b rateChg 3 + b o.temp.isNone 4 + b (valueAt c.cvHist o.t) 5 + b (counted s.qSat) 6 +
        b (counted s.eSat) 7 + b s.gang 8 + b (valueAt c.orHist o.t) 9 + b (d.tb (Reg.VAT_LDG_DIV_CH v.1) k.1) 11
      let bytes := recordBytes m.seq (chanNo v k) s.stepIdx fl o.t o.v o.i (o.temp.getD (-(2 ^ 31))) (m.a.stepUntil s.id o.t)
      let d := d.modMeas v k (fun m => { m with seq := (m.seq + 1) % 2 ^ 32 })
      d.putRecord v k
        { slice := own, ring := s.stream, ts := o.t, ch := chanNo v k, seq := m.seq, chain := (d.slices[own]).chainNo, bytes }
    else d
  | _, _ => d

/-- The precision output of channel k at t_out (R84–R88), with its record. [DEDUCED, log 36, 113] -/
def Dev.precisionOutput (d : Dev) (v k : Fin 16) (t : Nat) : Dev :=
  let m := (d.vats[v]).meas[k]
  let per := ratePeriod (m.rateFor t)
  if t % per = 0 ∧ m.fromT ≤ t ∧ (d.lane v).activeAt ≤ t ∧ !d.calWaits v k t ∧ d.precReady v k t then
    let fi := fir m.zi 640 0 t per
    let fv := fir m.zv 2560 2880 t per
    let c := m.calAtTick t
    let calChg := m.cals.any (fun x => decide (m.fromT ≤ x.1) && decide (x.1 ≤ t))
    let rateChg := m.rates.any (fun x => decide (m.fromT ≤ x.1 + 1) && decide (x.1 < t))
    let o : Prec :=
      { t, per, i := calibrate fi.1 (d.iFs v) (2 ^ 23) c.ig c.io, v := calibrate fv.1 (d.vFs v) (2 ^ 23) c.vg c.vo,
        temp := m.tempMean t per, sus := fi.2.1 || fv.2.1, modf := fi.2.2 || fv.2.2 }
    let d := (d.setF (Reg.VAT_RAWI_Q v.1 k.1) (pattern 32 fi.1)).setF (Reg.VAT_RAWV_Q v.1 k.1) (pattern 32 fv.1)
    let d := d.modMeas v k (fun m =>
      { m.trim (t - 40000) with fromT := t + 1, temps := m.temps.filter (fun x => decide (t ≤ x.1)) })
    let used := (d.stepOf v k).isSome
    let d := d.modChan v k (fun c =>
      { c with outs := if used then c.outs ++ [o] else [], lastOut := o,
               vHist := (t, o.v) :: c.vHist.filter (fun x => decide (t ≤ x.1 + 400000000)) })
    ((d.record v k o calChg rateChg).modMeas v k (fun m => { m with a := m.a.trim t, b := m.b.trim t })).modChan v k (fun c =>
      { c with cvHist := trimChanges c.cvHist (t - 4000000), orHist := trimChanges c.orHist (t - 4000000) })
  else d

/-- PRECISION_OUTPUT. -/
def execPrecisionOutput (v k : Fin 16) (tOut : Nat) (s : State) : Host.Outcome State Fault Refusal :=
  s.done (s.dev.precisionOutput v k tOut)

/-- RATE_CHANGE: the pending change takes effect at t_c (R85). [DEDUCED, log 38, 113] -/
def Dev.rateChange (d : Dev) (v k : Fin 16) : Dev := d.modMeas v k (fun m => m.change d.now)

/-- RATE_CHANGE. -/
def execRateChange (v k : Fin 16) (s : State) : Host.Outcome State Fault Refusal := s.done (s.dev.rateChange v k)

/-! ### Calibration (R90) -/

/-- CAL_COMMIT: a commit waits for the next loop-period start; one that waits for the same is joined. [DEDUCED, log 37] -/
def execCalCommit (src : Src) (v : Fin 16) (data : Word) (s : State) : Host.Outcome State Fault Refusal :=
  s.done (s.dev.onWrite src (Reg.VAT_CAL_COMMIT_at v.1) (fun d =>
    let mask := data.toNat % 2 ^ 16
    let a := (d.now / 400 + 1) * 400
    if mask = 0 then d
    else d.modVat v (fun x =>
      let same := (x.calReq.filter (fun q => q.at_ == a)).foldl (fun m q => m ||| q.mask) 0
      { x with calReq := x.calReq.filter (fun q => q.at_ != a) ++ [⟨same ||| mask, src.master.1, src.secure, a⟩] })))

/-- The commits whose loop-period start has come are judged for every channel with no computation of an earlier tick still to
come; the others follow their computation. [DEDUCED, log 37] -/
def Dev.calApply (d : Dev) (v : Fin 16) : Dev :=
  ((d.vats[v]).calReq).foldl (fun d q =>
    if q.at_ ≤ d.now then
      let ready := (List.finRange 16).foldl (fun m k =>
        if d.outstanding v k (q.at_ - 400 + 25 * k.1) then m else m + 2 ^ k.1) 0
      d.calPass v q.at_ ready
    else d) d

/-- CAL_COMMIT_APPLY. -/
def execCalCommitApply (v : Fin 16) (s : State) : Host.Outcome State Fault Refusal := s.done (s.dev.calApply v)

end Sys2Proof.Machine
end

