-- ==== Sys2Proof/Machine/LedgerCmds.lean ====
section
/-!
DEFINITION. The commands of the charge ledger (R178, R180, R183–R194, R456).
-/

namespace Sys2Proof.Machine
open Sys2Proof

/-- STREAM_DELIVER: buffered entries of a stream leave in order while its ring takes them (R183, R184). -/
def execStreamDeliver (s : Fin 64) (x : Fin 5) (st : State) : Host.Outcome State Fault Refusal :=
  st.done (st.dev.deliver5 s.1 x.1)

/-! ### Closing the totals of a fenced vat (R178) -/

/-- Words that come as zero: from the first sampling instant after the latest word, or at the closing tick if that is
earlier, up to an instant, both in eighths. [DEDUCED, log 118] -/
def Meas.zeros (m : Meas) (cur : Bool) (last step x8 to8 : Nat) : Meas :=
  let from8 := if last < x8 then last + step else last - (last - x8) / step * step
  forEach ((to8 - from8) / step + 2) m (fun m i => m.word cur (from8 + step * i) 0 false)

/-- The last words of a channel at closing tick x (R178): those that complete the last four outputs of each modulator.
[DEDUCED, log 118] -/
def Meas.close (m : Meas) (x lastI lastV : Nat) : Meas :=
  let xv := 2560 * ((x + 2559) / 2560)
  (m.zeros true lastI 80 (8 * x) (8 * (x + 1920))).zeros false lastV 320 (8 * x) (8 * (xv + 7680))

/-- Closed: outputs that wait for a partner's credit carry no energy (R172, R178). [DEDUCED, log 118] -/
def Meas.rest (m : Meas) : Meas := { m with a := { m.a with i8 := [], v8 := [] }, b := { m.b with i8 := [], v8 := [] } }

/-- A channel's last outputs are formed and integrated, each as every output is (R170–R175, R178). [DEDUCED, log 118] -/
def Dev.closeChan (d : Dev) (v k : Fin 16) (x : Nat) : Dev :=
  let l := d.lane v
  let d := d.modMeas v k (fun m => m.close x l.lastIAt l.lastVAt)
  let all (d : Dev) (cur : Bool) : Dev :=
    let g := ((d.vats[v]).meas[k]).a
    forEach (if cur then g.fi.latch.length else g.fv.latch.length) d (fun d _ => d.sinc4Output v k cur)
  (all (all d true) false).modMeas v k Meas.rest

/-- Every word sampled before the closing tick has come with its group's check, or the upstream has stopped, and the last output's
instant has come (R122, R178). [DEDUCED, log 118] -/
def Dev.closeReady (d : Dev) (v : Fin 16) (x : Nat) : Bool :=
  let l := d.lane v
  decide (2560 * ((x + 2559) / 2560) + 7680 ≤ d.now) &&
  ((decide (l.lastGood + 40000 ≤ d.now) && decide (8 * (x + 400) + d.f (Reg.LANE_SAMPLE_OFS v.1) ≤ 8 * d.now)) ||
   (decide (8 * x ≤ l.lastIAt) && decide (8 * x ≤ l.lastVAt) && l.words.all (fun w => decide (8 * x ≤ w.1))))

/-- Commits whose loop-period start has come are judged: the channels of a fenced vat compute no more (R90, R121). -/
def Dev.calDue (d : Dev) (v : Fin 16) : Dev :=
  ((d.vats[v]).calReq).foldl (fun d q => if q.at_ ≤ d.now then d.calPass v q.at_ 0xFFFF else d) d

/-- The totals of a fenced vat close at their closing tick: words that wait are used as SUSPECT, later ones are zero; a comparison
in progress covers the outputs of its second (R178, R180). -/
def Dev.ledgerClose (d : Dev) (v : Fin 16) : Dev :=
  if d.closing v then
    match d.closeTick v with
    | some x =>
      if x ≤ d.now ∧ d.closeReady v x then
        let d := ((d.calDue v).handWords v true).modLane v (fun l => { l with words := [] })
        let d := (d.popList v).foldl (fun d k => d.closeChan v k x) d
        (d.divergeAll v).setF (Reg.VAT_LDG_CLOSED_CLOSED v.1) 1
      else d
    | none => d
  else d

/-- LEDGER_CLOSE. -/
def execLedgerClose (v : Fin 16) (s : State) : Host.Outcome State Fault Refusal := s.done (s.dev.ledgerClose v)

/-! ### Divergence (R180) -/

/-- DIVERGENCE_CHECK, at a multiple of 1 s: each channel is compared once the outputs with 640·m at or before it have been
integrated, at once where none are to come. -/
def Dev.divergenceCheck (d : Dev) (v : Fin 16) : Dev :=
  if d.now % 400000000 = 0 then
    let late := if d.integrating v then d.popMask v else 0
    (d.modVat v (fun x => { x with div := (d.now, 2 ^ 16 - 1) })).divergeBut v late
  else d

/-- DIVERGENCE_CHECK. -/
def execDivergenceCheck (v : Fin 16) (s : State) : Host.Outcome State Fault Refusal := s.done (s.dev.divergenceCheck v)

/-! ### Chains and checkpoints -/

/-- A write of LDG_CFG: clearing SEAL closes the open blocks first, EN from 0 to 1 starts a chain (R186, R190); an enable whose
host location is not the slice's port is refused (R212). -/
def Dev.ledgerCfg (d : Dev) (src : Src) (s w : Nat) : Dev :=
  let addr := Reg.LDG_CFG_at s
  d.onWrite src addr (fun d =>
    let en := d.bit (Reg.LDG_CFG_EN s)
    let d := if d.bit (Reg.LDG_CFG_SEAL s) && !en && !w.testBit 1 then d.closeBlocks s false else d
    let d := d.writeRowWith src addr w (fun f => if f.lo = 0 then .leave else if f.lo = 1 ∧ en then .bad else .act)
    let loc := d.f (Reg.LDG_CFG_LOC s)
    if w.testBit 0 = en then d
    else if en then d.setF (Reg.LDG_CFG_EN s) 0
    else if loc < 2 ∧ loc ≠ d.f (Reg.SLC_PASID_PORT s) then d.logRefused src addr
    else (d.setF (Reg.LDG_CFG_EN s) 1).newChain s)

/-- CHAIN_START: a write of LDG_CFG that changes EN from 0 to 1 (R190). -/
def execChainStart (src : Src) (s : Fin 64) (data : Word) (st : State) : Host.Outcome State Fault Refusal :=
  st.done (if data.toNat.testBit 0 && !st.dev.bit (Reg.LDG_CFG_EN s.1) then st.dev.ledgerCfg src s.1 data.toNat else st.dev)

/-- SEAL_CLEAR: a write of LDG_CFG that clears SEAL (R186). -/
def execSealClear (src : Src) (s : Fin 64) (data : Word) (st : State) : Host.Outcome State Fault Refusal :=
  st.done (if !data.toNat.testBit 1 && st.dev.bit (Reg.LDG_CFG_SEAL s.1) then st.dev.ledgerCfg src s.1 data.toNat else st.dev)

/-- CHECKPOINT: at a multiple of the period, while EN = 1, a checkpoint is formed or counted as skipped (R191); at the closing
checkpoint's instant it is that one, and after it there is none (R218). -/
def Dev.checkpoint (d : Dev) (s : Nat) : Dev :=
  if d.bit (Reg.LDG_CFG_EN s) && d.f (Reg.SLC_STATE_STATE s) != 0 && d.now % (d.f (Reg.LDG_CFG_PERIOD s) * 40000000) == 0 &&
      !(d.slices[sl s]).closingDone then
    let closing := d.f (Reg.SLC_STATE_STATE s) == 2 && d.atRest s
    let d := if d.ckBarred s then d.skipCkpt s else d.formCkpt s d.now closing
    if closing then d.modSlice (sl s) (fun e => { e with closingDone := true }) else d
  else d

/-- CHECKPOINT. -/
def execCheckpoint (s : Fin 64) (st : State) : Host.Outcome State Fault Refusal := st.done (st.dev.checkpoint s.1)

/-- CHECKPOINT_WRITE. -/
def execCheckpointWrite (s : Fin 64) (st : State) : Host.Outcome State Fault Refusal := st.done (st.dev.writeCkpt s.1)

/-- LDG_CK_CI_WRITE: a consumer value is taken, or refused and counted in SLC_DB_ERR. -/
def execLdgCkCiWrite (src : Src) (s : Fin 64) (data : Word) (st : State) : Host.Outcome State Fault Refusal :=
  st.done (st.dev.onWrite src (Reg.LDG_CK_CI_at s.1) (fun d =>
    if consumerOk (d.f (Reg.LDG_CK_PI_PI s.1)) (d.f (Reg.LDG_CK_CI_CI s.1)) data.toNat then
      d.setF (Reg.LDG_CK_CI_CI s.1) data.toNat
    else d.bump (Reg.SLC_DB_ERR_COUNT s.1)))

/-! ### Snapshots (R456) -/

/-- Latch the totals of a channel after the last current output integrator A has integrated. -/
def Dev.snapshot (d : Dev) (v k : Fin 16) : Dev :=
  let g := ((d.vats[v]).meas[k]).a
  let h := g.hist.head?.getD (0, 0, 0)
  let tot := [g.qIn, g.qOut, g.eIn, g.eOut]
  let st : Int × Int := if h.2.1 = 0 then (0, 0) else g.stepNow h.2.1
  let d := d.setF64 (Reg.VAT_LDG_SNAPTS_LO_TS v.1) (Reg.VAT_LDG_SNAPTS_HI_TS v.1) (640 * h.1)
  let d := forEach 12 d (fun d w => d.setF (Reg.VAT_LDG_TOT_WORD v.1 w) (bits (tot.getD (w / 3) 0 / 256) (32 * (w % 3)) 32))
  forEach 4 d (fun d w =>
    d.setF (Reg.VAT_LDG_STEP_WORD v.1 w) (bits (pattern 64 (if w < 2 then st.1 else st.2)) (32 * (w % 2)) 32))

/-- LDG_SNAP: a write of VAT_LDG_SNAP. -/
def execLdgSnap (src : Src) (v : Fin 16) (data : Word) (s : State) : Host.Outcome State Fault Refusal :=
  s.done (s.dev.onWrite src (Reg.VAT_LDG_SNAP_at v.1) (fun d => d.snapshot v (v16 data.toNat)))

end Sys2Proof.Machine
end

