-- ==== Sys2Proof/Machine/LockstepCmds.lean ====
section
/-!
DEFINITION. Lockstep pairs: transactions, delay and response registers, comparison, injection tests, pair faults, handover (R320–R332).
-/

namespace Sys2Proof.Machine
open Sys2Proof

/-! ### Transactions and compare vectors (R323–R325) -/

/-- KIND of a transaction. -/
def kindCode : TxnKind → Nat
  | .read => 0 | .write => 1 | .fetch => 2 | .add => 3 | .swap => 4 | .digest => 5 | .heartbeat => 6

/-- The 128-bit vector of a transaction (R323): ADDR is zero for digest and heartbeat, [127:119] are zero. -/
def txnVector (t : Txn) : Nat :=
  (if t.kind == .digest || t.kind == .heartbeat then 0 else t.addr % 2 ^ 40) + 2 ^ 40 * (t.wdata % 2 ^ 64) + 2 ^ 104 * (t.be % 256) +
  2 ^ 112 * kindCode t.kind + 2 ^ 115 * t.size.1 + (if t.secure then 2 ^ 117 else 0) + (if t.tcm then 2 ^ 118 else 0)

/-- The transaction of a 32-bit write to the setup space; one to MAD_HB is a heartbeat emission. -/
def writeTxn (src : Src) (addr : Nat) (w : Word) : Txn :=
  { kind := if addr = Reg.MAD_HB_at then .heartbeat else .write, addr, size := 2
    wdata := 2 ^ (8 * (addr % 8)) * w.toNat, be := 2 ^ (addr % 8) * 15, secure := src.secure, tcm := false, resp := 0 }

/-- One byte more of the CRC-64 of ECMA-182, most significant bit first. -/
def crc64Step (c : Nat) (b : Byte) : Nat :=
  forEach 8 (c ^^^ b.toNat * 2 ^ 56) (fun c _ => if c.testBit 63 then (2 * c ^^^ 0x42F0E1EBA9EA3693) % 2 ^ 64 else 2 * c % 2 ^ 64)

/-- The CRC-64 of R325, initial value and final XOR zero, of an architectural state vector. -/
def crc64 (bs : List Byte) : Nat := bs.foldl crc64Step 0

/-- A digest transaction: the CRC in WDATA, BE 0xFF and SIZE 3, in the core's world (R325). -/
def digestTxn (secure : Bool) (bs : List Byte) : Txn :=
  { kind := .digest, addr := 0, size := 3, wdata := crc64 bs, be := 0xFF, secure, tcm := false, resp := 0 }

/-- A transaction of this kind gets a response, which the shadow gets from the response register (R321). -/
def takesResp (kind : Nat) : Bool := kind == 0 || (2 ≤ kind && kind ≤ 4)

/-- A compare vector as compared: lanes that are not written, and all data of a read or a fetch, forced to zero. -/
def maskVector (x : Nat) : Nat :=
  let x := x % 2 ^ 128
  let kind := bits x 112 3
  let be := bits x 104 8
  let keep (i : Nat) : Nat := if kind = 0 ∨ kind = 2 ∨ !be.testBit i then 0 else 2 ^ (40 + 8 * i) * bits x (40 + 8 * i) 8
  x % 2 ^ 40 + ((List.range 8).map keep).sum + 2 ^ 104 * bits x 104 24

/-! ### Pair faults (R329, R330) -/

/-- CAUSE of a mask of causes: the highest in the order PARITY, CMP, INJ, STALL, DIGEST, MISMATCH, TEST. -/
def highestCause (seen : Nat) : Nat := ([5, 3, 4, 6, 2, 1, 7].find? (fun c => seen.testBit c)).getD 0

/-- The failed pair's event sources and its heartbeat role pass to the surviving pair, which gets PAIR_HANDOVER (R330).
[DEDUCED, log 80] -/
def Dev.handover (d : Dev) (p : Fin 2) : Dev :=
  let q := otherPair p
  let d := forEach 96 d (fun d i =>
    if d.f (Reg.EVT_ROUTE_KIND i) = 1 ∧ d.f (Reg.EVT_ROUTE_CORE i) = 4 + p.1 then d.setF (Reg.EVT_ROUTE_CORE i) (4 + q.1) else d)
  let d := d.setF (Reg.LS_STAT_DUTIES q.1) 1
  let d := if d.f Reg.MAD_HB_STAT_PAIR = p.1 then
      (d.setF Reg.MAD_HB_STAT_PAIR q.1).setMad { d.mad with moved := true }
    else d
  (d.raise Reg.LS_EVT_HANDOVER 1 63).pend 64

/-- A pair fault: recorded with its causes and vectors, fenced and logged, what it holds discarded; its duties pass on if that is configured and
the other pair is CHECKING; the second pair's fault is a device fault (R25, R329, R330).
[DEDUCED, log 15, 80; DESIGN CHOICE, log 79] -/
def Dev.pairFault (d : Dev) (p : Fin 2) (seen pv sv : Nat) : Dev :=
  let cause := highestCause seen
  let d := ((d.tally.setF (Reg.LS_STAT_STATE p.1) 1).setF (Reg.LS_STAT_CAUSE p.1) cause).setF (Reg.LS_STAT_SEEN p.1) seen
  let d := forEach 4 d (fun d i =>
    (d.setF (Reg.LS_FVP_WORD p.1 i) (pv / 2 ^ (32 * i))).setF (Reg.LS_FVS_WORD p.1 i) (sv / 2 ^ (32 * i)))
  let d := (d.setTb Reg.SYS_FENCE_SP p.1 true).raise Reg.LS_EVT_FAULT (2 ^ p.1) 63
  let d := (d.log 0x05 63 (evInfo p.1) cause).dropHeld p
  if d.tb Reg.SYS_FENCE_SP (otherPair p).1 then d.serviceLost
  else if d.bit Reg.LS_CFG_HANDOVER && d.f (Reg.LS_STAT_STATE (otherPair p).1) == 0 then d.handover p
  else d

/-- A fault found without a compared transaction: the vectors recorded are free values. [DESIGN CHOICE, log 79] -/
def Dev.pairFaultBare (d : Dev) (p : Fin 2) (cause : Nat) : Dev :=
  let x := d.free 128
  let y := x.2.free 128
  y.2.pairFault p (2 ^ cause) x.1 y.1

/-! ### Comparison (R325–R328) -/

/-- A transaction matched: counted; a multiple of 65,536 makes a state digest due, and a digest that was compared is recorded (R325). -/
def Dev.matched (d : Dev) (p : Fin 2) (digest : Bool) (pv : Nat) : Dev :=
  let n := (d.f64 (Reg.LS_TCNT_LO_COUNT p.1) (Reg.LS_TCNT_HI_COUNT p.1) + 1) % 2 ^ 64
  let d := d.setF64 (Reg.LS_TCNT_LO_COUNT p.1) (Reg.LS_TCNT_HI_COUNT p.1) n
  let d := if digest then
      d.setF64 (Reg.LS_DIGEST_LO_CRC p.1) (Reg.LS_DIGEST_HI_CRC p.1) (bits pv 40 64)
    else d
  if n % 65536 = 0 then d.modPair p (fun x => { x with due := true }) else d

/-- Both comparators judge one transaction (R326, R328). `test` is the comparator under injection test, if any: 0 X, 1 Y. -/
def Dev.judge (d : Dev) (p : Fin 2) (primary shadow : Nat) (xErr yErr parity digest : Bool) (test : Option Nat) : Dev :=
  let pv := maskVector primary
  let sv := maskVector shadow
  let flip := sv ^^^ 2 ^ d.f (Reg.LS_STAT_INJ_BIT p.1)
  let xSees := (pv == (if test = some 0 then flip else sv)) != xErr
  let ySees := (pv == (if test = some 1 then flip else sv)) != yErr
  let pass := match test with
    | none => xSees && ySees
    | some 0 => !xSees && ySees
    | some _ => xSees && !ySees
  let found : Nat :=
    if pass then 0
    else if !xSees && !ySees then (if digest then 2 ^ 2 else 2 ^ 1)
    else if xSees && ySees then 2 ^ 4
    else 2 ^ 3
  let seen := found + (if parity then 2 ^ 5 else 0)
  if seen = 0 then d.matched p digest pv else d.pairFault p seen pv sv

/-- The number of set bits below n is odd. -/
def oddOnes (n x : Nat) : Bool := (List.range n).foldl (fun b i => b != x.testBit i) false

/-- A stage of `g` 16-bit groups, with its parity bits above them, has lost its even parity: `flips` are the bits that have changed since it was
written (R328). -/
def parityBad (g flips : Nat) : Bool :=
  (List.range g).any (fun i => oddOnes 16 (flips / 2 ^ (16 * i)) != flips.testBit (16 * g + i))

/-- The primary makes a transaction: it enters the delay register, and its response the response register, unless both stages are full; then
the primary stalls (R320, R321). -/
def Dev.pairPush (d : Dev) (p : Fin 2) (e : PairEntry) (resp : Nat) : Dev :=
  if 2 ≤ (d.pairs[p]).delay.length then d
  else d.modPair p (fun x =>
    { x with delay := x.delay ++ [e], resp := if takesResp (bits e.vec 112 3) then x.resp ++ [resp] else x.resp
             stallAt := if x.delay.length = 1 then some d.up else x.stallAt })

/-- The comparator an injection test is due of (R327): 0 X, 1 Y. -/
def Dev.testDue (d : Dev) (p : Fin 2) : Option Nat :=
  let x := d.pairs[p]
  if x.injAt + 400000 * d.f Reg.LS_CFG_INJ_PERIOD ≤ d.up then some (if x.testY then 1 else 0) else none

/-- A test has been made: it counts if it passed; X and Y alternate, INJ_BIT advances after each test of Y, and the next is due at the
end of the present period (R327). [DEDUCED, log 80] -/
def Dev.testMade (d : Dev) (p : Fin 2) : Dev :=
  let x := d.pairs[p]
  let per := 400000 * d.f Reg.LS_CFG_INJ_PERIOD
  let d := if d.f (Reg.LS_STAT_STATE p.1) = 0 then d.bump (Reg.LS_INJ_OK_COUNT p.1) else d
  let d := if x.testY then d.setF (Reg.LS_STAT_INJ_BIT p.1) ((d.f (Reg.LS_STAT_INJ_BIT p.1) + 1) % 128) else d
  d.modPair p (fun y => { y with testY := !x.testY, injAt := y.injAt + (d.up - y.injAt) / per * per })

/-- The shadow's next transaction is compared with the oldest stage, an injection test if one is due; while no stage holds one the
shadow waits. `flips`: bits of that stage, and above them of the oldest stage of the response register, that have changed since they were
written. Answers the write the stage held back, if the comparison matched (R320–R328). -/
def Dev.compareNext (d : Dev) (p : Fin 2) (shadow : Nat) (xErr yErr : Bool) (flips : Nat) : Dev × Option (Src × Nat × Word) :=
  match (d.pairs[p]).delay with
  | [] => (d, none)
  | e :: rest =>
    let reads := takesResp (bits e.vec 112 3)
    let bad := parityBad 8 flips || (reads && parityBad 4 (flips / 2 ^ 136))
    let pv := e.vec ^^^ flips % 2 ^ 128
    let n := d.f64 (Reg.LS_TCNT_LO_COUNT p.1) (Reg.LS_TCNT_HI_COUNT p.1)
    let test := d.testDue p
    let d := d.modPair p (fun x =>
      { x with delay := rest, resp := if reads then x.resp.drop 1 else x.resp, stallAt := none, irqs := x.irqs.filter (fun i => n + 1 < i.1) })
    let d := d.judge p pv shadow xErr yErr bad (bits pv 112 3 == 5) test
    let d := if test.isSome then d.testMade p else d
    (d, if d.f (Reg.LS_STAT_STATE p.1) = 0 then e.held else none)

/-- The primary makes transactions, and the shadow's next one, if it makes one, is compared. -/
def Dev.lockstep (d : Dev) (p : Fin 2) (primary : List Txn) (shadow : Option Txn) (xErr yErr : Bool) (flips : Nat) :
    Dev × Option (Src × Nat × Word) :=
  let d := primary.foldl (fun d t => d.pairPush p ⟨txnVector t, none⟩ t.resp) d
  match shadow with
  | some t => d.compareNext p (txnVector t) xErr yErr flips
  | none => (d, none)

/-- The primary's digest that is due enters the delay register behind what waits there; with nothing before it the shadow's is compared at
once, else it comes later (R325). -/
def Dev.digestNext (d : Dev) (p : Fin 2) (primary shadow : List Byte) (xErr yErr : Bool) (flips : Nat) : Dev × Option (Src × Nat × Word) :=
  let x := d.pairs[p]
  let sec := d.coreSecure (pairCore p)
  if !x.due || decide (2 ≤ x.delay.length) then (d, none)
  else
    let d := (d.pairPush p ⟨txnVector (digestTxn sec primary), none⟩ 0).modPair p (fun x => { x with due := false })
    if x.delay.isEmpty then d.compareNext p (txnVector (digestTxn sec shadow)) xErr yErr flips else (d, none)

/-! ### Held writes (R322) -/

/-- The source is a pair that is compared, and the write goes to the MADDER or the LOCKSTEP block: it leaves the pair once its comparison has
matched. [DEDUCED, log 80] -/
def Dev.holds (d : Dev) (src : Src) (addr : Nat) : Bool :=
  ((src.master == 4 && d.checking 0) || (src.master == 5 && d.checking 1)) &&
  ((0x200A0000 ≤ addr && addr < 0x200B0000) || (0x200C0000 ≤ addr && addr < 0x200D0000))

/-- The primary makes a write that is held back. -/
def Dev.holdWrite (d : Dev) (src : Src) (addr : Nat) (w : Word) : Dev :=
  if !d.srcOk src || (d.inReset src).isSome then d
  else d.pairPush (if src.master = 4 then 0 else 1) ⟨txnVector (writeTxn src addr w), some (src, addr, w)⟩ 0

/-- A write that a pair may have to hold back: held, or made now (R322). -/
def State.pairWrite (s : State) (src : Src) (addr : Nat) (w : Word) (now : Host.Outcome State Fault Refusal) :
    Host.Outcome State Fault Refusal :=
  if s.dev.holds src addr then s.done (s.dev.holdWrite src addr w) else now

/-- The primary has stalled for LAG_TO µs (R320). -/
def Dev.lagTimeout (d : Dev) (p : Fin 2) : Dev :=
  match (d.pairs[p]).stallAt with
  | some t => if d.checking p ∧ t + 400 * d.f Reg.LS_CFG_LAG_TO ≤ d.up then d.pairFaultBare p 6 else d
  | none => d

/-- LAG_TIMEOUT. -/
def execLagTimeout (p : Fin 2) (s : State) : Host.Outcome State Fault Refusal := s.done (s.dev.lagTimeout p)

/-- REACTION_TEST: the secure world of either pair makes a pair fault with cause TEST; refused and logged if the pair is
not CHECKING (R331). [DESIGN CHOICE, log 79] -/
def Dev.reactionTest (d : Dev) (src : Src) (p : Fin 2) (w : Nat) : Dev :=
  if !w.testBit 0 ∨ (src.master ≠ 4 ∧ src.master ≠ 5) then d
  else if d.checking p then d.pairFaultBare p 7
  else d.logRefused src (Reg.LS_TEST_at p.1)

/-- A write of LS_p_TEST arrives. -/
def reactionNow (src : Src) (p : Fin 2) (data : Word) (s : State) : Host.Outcome State Fault Refusal :=
  s.done (s.dev.onWrite src (Reg.LS_TEST_at p.1) (fun d => d.reactionTest src p data.toNat))

/-- REACTION_TEST: a pair that is compared holds the write back (R322). -/
def execReactionTest (src : Src) (p : Fin 2) (data : Word) (s : State) : Host.Outcome State Fault Refusal :=
  s.pairWrite src (Reg.LS_TEST_at p.1) data (reactionNow src p data s)

end Sys2Proof.Machine
end

