-- ==== Sys2Proof/Machine/MemOps.lean ====
section
/-!
DEFINITION. Error codes of the memories (R352, R355, R357): corrected and uncorrectable errors of SRAM banks, vat SRAM and DRAM, and
the DRAM channels in service.
-/

namespace Sys2Proof.Machine
open Sys2Proof

/-- The channels in service: trained and not failed. -/
def Dev.dramLive (d : Dev) (n : Nat) : Bool := d.tb Reg.DRAM_STAT_TRAINED n && !d.tb Reg.DRAM_STAT_FAILED n

/-- WINDOW and READY follow the channels in service: 7/8 of their raw capacity, in MiB (R357). -/
def Dev.dramSize (d : Dev) : Dev :=
  let n := (if d.dramLive 0 then 1 else 0) + (if d.dramLive 1 then 1 else 0)
  (d.setF Reg.DRAM_STAT_WINDOW (n * 2 ^ d.f Reg.DRAM_CTL_DENS * 896)).setB Reg.DRAM_STAT_READY (n != 0)

/-- The channel an address lies on: 256-byte blocks alternate while both are in service (R357, R358). -/
def Dev.dramChannel (d : Dev) (addr : Nat) : Nat :=
  if d.dramLive 0 && d.dramLive 1 then (addr - 0x100000000) / 256 % 2 else if d.dramLive 0 then 0 else 1

/-- The instants of a channel's uncorrectable errors. -/
def Dev.dramUes (d : Dev) (n : Nat) : List Nat := if n = 0 then d.dram.ue0 else d.dram.ue1

/-- An uncorrectable error in DRAM: counted, its address kept and logged (R357). [DEDUCED, log 15] -/
def Dev.dramUe (d : Dev) (addr info : Nat) : Dev :=
  let ch := d.dramChannel addr
  let ts := d.up :: (d.dramUes ch).filter (fun t => decide (d.up < t + 400000000))
  let d := d.setDram (if ch = 0 then { d.dram with ue0 := ts } else { d.dram with ue1 := ts })
  let d := (d.bump Reg.DRAM_UE_COUNT).setF64 Reg.DRAM_UE_ADDR_LO_ADDR Reg.DRAM_UE_ADDR_HI_ADDR addr
  (d.log 0x0C 58 info (page addr)).raise Reg.MEM_EVT_UE_DRAM 1 58

/-- A corrected error: counted, with MEM_EVT.CE (R352). -/
def Dev.corrected (d : Dev) (r : RF) : Dev := (d.bump r).raise Reg.MEM_EVT_CE 1 58

/-- The bank of an SRAM address. -/
def bankOf (addr : Nat) : Nat := (addr - 0x10000000) / 0x200000

/-- An uncorrectable error in an SRAM bank: counted and logged with the access's master (R352). -/
def Dev.bankUe (d : Dev) (src : Src) (write : Bool) (addr : Nat) : Dev :=
  let n := bankOf addr
  ((d.bump (Reg.MEM_B_ERR_UE n)).raise Reg.MEM_EVT_UE_BANK 1 58).log 0x0C 58 (accInfo src write (n + 1)) (page addr)

/-- An uncorrectable error in a vat's SRAM: counted and logged; the vat is to be fenced with cause 3 (R355). [DEDUCED, log 15] -/
def Dev.vatUe (d : Dev) (v : Fin 16) (info where_ : Nat) : Dev :=
  ((d.bump (Reg.MEM_VAT_ERR_UE v.1)).raise Reg.MEM_EVT_UE_VAT 1 58).log 0x0C 58 info where_

/-- An uncorrectable error met by an engine's access to an SRAM bank or DRAM (R352, R357). -/
def Dev.engineUe (d : Dev) (src : Src) (write : Bool) (addr : Nat) : Dev :=
  if inSram addr then d.bankUe src write addr
  else if inDram addr then d.dramUe addr (accInfo src write 16)
  else d

end Sys2Proof.Machine
end

