-- ==== Sys2Proof/Machine/LoopCmds.lean ====
section
/-!
DEFINITION. Commands of the chapter Channel loop (R97–R123): the loop computation, the timed transitions of a channel,
orphan policies, fencing and re-enable, the host links.
-/

namespace Sys2Proof.Machine
open Sys2Proof

/-! ### The parts of a computation in the order of R115 -/

/-- The TRACK counter at a computation: the latest rp against the new window current, in RUN (R114). [DEDUCED, log 44] -/
def Chan.trackStep (c : Chan) : Chan :=
  if c.st = .run then { c with trackN := if (c.tune.track : Int) < (c.rp - c.win.i).natAbs then c.trackN + 1 else 0 } else c

/-- Step 2: the slice's stops act, in order; each completes with OK (R17, R152). INFO records met conditions. DESTROY's
ABORT is no operation of the slice's software and has no completion (R218). [DEDUCED, log 107] -/
def Dev.doStops (d : Dev) (v k : Fin 16) (t : Nat) : Dev :=
  let c := d.chan v k
  let d := d.modChan v k (fun c => { c with stopReq := [] })
  c.stopReq.foldl (fun d x =>
    let d := if x.op % 256 = 4 then d.flushBehind v k t else d
    let d := d.stopChan v k 0x04 (d.metNow v k t) t none
    if x.op < 256 then d.addCmp c.slice (x.unstarted 0 0 t false false false) else d) d

/-- The orphan rate of R119 for a channel or gang. -/
def Chan.orphanSlope (c : Chan) : Nat := max c.tune.ramp ((c.r.natAbs + 1499) / 1500)

/-- A start in ARM, CLOSE or held, armed ahead or budget-deferred, completes with ORPHANED; the channels go to IDLE
(R119). -/
def Dev.orphanStart (d : Dev) (v k : Fin 16) (t : Nat) : Dev :=
  let c := d.chan v k
  if c.st = .arm ∨ c.st = .close then
    let mask := d.gangMask v k
    let d := d.withdrawKclr v mask
    let d := if c.run.isSome then d.endStep v k 0x22 0 t else d.dropHead v k 0x22 0 t
    (maskList mask).foldl (fun d m => d.enterQuiet v m .idle t) d
  else if c.run.isNone then
    match c.queue with
    | e :: _ => if e.heldAt.isSome || e.deferAt.isSome then d.dropHead v k 0x22 0 t else d
    | [] => d
  else d

/-- RAMP_TO_ZERO takes a channel (R119). -/
def Dev.orphanZero (d : Dev) (v k : Fin 16) (t : Nat) : Dev :=
  let c := d.chan v k
  let ks := maskList (d.gangMask v k)
  match c.st with
  | .soft | .run => (d.endStep v k 0x22 0 t).startRamp v ks t (some c.orphanSlope) false
  | .passive => (d.endStep v k 0x22 0 t).enterQuiet v k .idle t
  | .ramp => if c.toPassive then
      (d.endStep v k 0x22 0 t).modChan v k (fun c => { c with toPassive := false }) else d.orphanStart v k t
  | _ => d.orphanStart v k t

/-- CONTINUE_STEP and HOLD_SETPOINT leave a step that drives or rests alone; a CONTACT step cannot be held; under
CONTINUE_STEP a start past ARM proceeds (R119). -/
def Dev.orphanKeep (d : Dev) (v k : Fin 16) (hold : Bool) (t : Nat) : Dev :=
  let c := d.chan v k
  let contact := match c.run with | some r => r.d.mode == 9 | none => false
  match c.st with
  | .soft | .run => if hold && contact then d.orphanZero v k t else d
  | .passive => d
  | .close => if hold then d.orphanStart v k t else d
  | _ => d.orphanStart v k t

/-- The controller has attached again before tick t: the orphan state ends at it; a barrier step whose instant is then too near has
missed it (R120). [DEDUCED, log 47] -/
def Dev.orphanRest (d : Dev) (v k : Fin 16) (t : Nat) : Dev :=
  match (d.chan v k).orphan.bind (·.endAt) with
  | some x =>
    if x < t then
      let d := d.modChan v k (fun c => { c with orphan := none }.logOrphan t)
      match (d.chan v k).queue with
      | e :: _ =>
        if e.d.op == 1 && e.d.flag 0 && (d.chan v k).run.isNone then
          match d.startInstant e.d with
          | some i => if i < t + d.armMargin v then d.dropHead v k 0x37 0 t else d
          | none => d
        else d
      | [] => d
    else d
  | none => d

/-- Step 2: a channel orphaned before its tick t takes the slice's policy (R17, R118, R119); its queued steps stay, unadmitted.
Members of a gang follow their leader. [DEDUCED, log 47] -/
def Dev.takePolicy (d : Dev) (v k : Fin 16) (t : Nat) : Dev :=
  match (d.chan v k).orphan with
  | some o =>
    if (d.chan v k).orphanDue t then
      let policy := if o.taken then 0 else o.policy
      let d := d.modChan v k (fun c =>
        { c with orphan := some { o with policy := policy, taken := true, shown := true, expireAt := none },
                 run := c.run.map (fun r => { r with orphan := true }) })
      if d.leadOf v k ≠ k then d
      else
        let d := match policy with
          | 1 => d.orphanKeep v k false t
          | 2 => d.orphanKeep v k true t
          | _ => d.orphanZero v k t
        d.modHead v k (fun e => { e with resv := none })
    else d
  | none => d

/-- The channels of an ended step come to rest: driving ones ramp down, others go to IDLE (R109, R155). -/
def Dev.restAfter (d : Dev) (v : Fin 16) (ks : List (Fin 16)) (t : Nat) : Dev :=
  let d := d.withdrawKclr v (ks.foldl (fun a m => a + 2 ^ m.1) 0)
  ks.foldl (fun d m =>
    let c := d.chan v m
    if c.st = .ramp then d.modChan v m (fun c => { c with toPassive := false })
    else if c.st.drives then d.startRamp v [m] t none false
    else d.enterQuiet v m .idle t) d

/-- The admitted successor of a step that has just ended, if there is one that follows it without coming to rest
(R155, R119). -/
def Chan.next (c : Chan) : Option QEntry :=
  match c.queue with
  | e :: _ => if e.d.op == 1 && !e.d.sync && e.resv.isSome && c.orphan.isNone && !c.halt then some e else none
  | [] => none

/-- A successor that was not admitted by the end of its predecessor's range is budget-deferred from that instant
(R128). [DEDUCED, log 49] -/
def Dev.deferNext (d : Dev) (v k : Fin 16) (t : Nat) : Dev :=
  let c := d.chan v k
  match c.queue with
  | e :: _ => if e.d.op == 1 && !e.d.sync && e.resv.isNone && c.orphan.isNone && !c.halt then d.deferHead v k t else d
  | [] => d

/-- A step has ended by a kill, a protection, a stop or an orphan policy: an admitted successor is held while the channel stops,
another is budget-deferred (R116, R128, R155). -/
def Dev.afterEnd (d : Dev) (v k : Fin 16) (t : Nat) : Dev := (d.deferNext v k t).holdStopping v k t

/-- The same for every channel of a list whose running step has ended. -/
def Dev.afterEnds (d : Dev) (v : Fin 16) (ran : List (Fin 16)) (t : Nat) : Dev :=
  ran.foldl (fun d j => if (d.chan v j).run.isNone then d.afterEnd v j t else d) d

/-- Channels of a vat with a running step. -/
def Dev.running (d : Dev) (v : Fin 16) : List (Fin 16) := (List.finRange 16).filter (fun j => (d.chan v j).run.isSome)

/-- The running step of a channel ends in the state `c` at tick t with a status: its successor starts in the same computation,
starts from rest, or waits; without one the channel comes to rest (R109, R140, R155). A successor that is refused leaves a step that
has ended, so the channel comes to rest. [DEDUCED, log 129] -/
def Dev.handOver (d : Dev) (tb : Nat → Tuning) (v k : Fin 16) (c : Chan) (r : Running) (t : Nat) : Dev :=
  let ks := r.d.channels k
  match (d.chan v k).next with
  | some e =>
    if (c.st.drives || c.st = .passive) && c.st != .ramp && smooth r.d e.d then
      let d := d.startHead tb v k t
      if (d.chan v k).run.isSome then d else ((d.restAfter v ks t).deferNext v k t).holdStopping v k t
    else if c.st = .arm ∨ c.st = .close then (d.restAfter v ks t).startHead tb v k t
    else (d.restAfter v ks t).holdStopping v k t
  | none => (d.restAfter v ks t).deferNext v k t

/-- The transition from a step that has ended to its successor was not ready for tick t: the step runs on, and both happen at the
next tick, the successor LATE (R39). [DEDUCED, log 28] -/
def Dev.lateTransition (d ended : Dev) (v k : Fin 16) (c : Chan) (r : Running) (t : Nat) : Bool :=
  r.lateAt == some t && r.lateEnd.isNone && (c.st.drives || c.st == .passive) && c.st != .ramp &&
    (match (ended.chan v k).next with | some e => smooth r.d e.d | none => false) && (d.chan v k).run.isSome

/-- Step 3: the end conditions of the running step; the step that ends hands over to its successor or lets the channel
come to rest (R109, R140, R155, R158). While they are suspended the outputs are counted and end nothing (R119, R120). -/
def Dev.doEnds (d : Dev) (tb : Nat → Tuning) (v k : Fin 16) (t : Nat) : Dev :=
  let c := d.chan v k
  match c.run with
  | none => d
  | some r =>
    let m := d.conditions v k r t
    let d := d.useOuts v k r m.2.1 m.2.2
    if c.suspended then d
    else
      match r.lateEnd <|> endStatus r.d m.1 with
      | none => d
      | some (status, info) =>
        let ended := d.endStep v k status info t
        if d.lateTransition ended v k c r t then
          (d.modChan v k (fun c => { c with run := c.run.map (fun r => { r with lateEnd := some (status, info) }) })).modHead v k
            (fun e => { e with late := true })
        else ended.handOver tb v k c r t

/-- Step 4: an admitted head step starts at its tick (R128); a channel that cannot start it holds it (R116). -/
def Dev.doStart (d : Dev) (tb : Nat → Tuning) (v k : Fin 16) (t : Nat) : Dev :=
  let c := d.chan v k
  if !c.startDue t || d.leadOf v k != k then d
  else if c.st = .idle then d.startHead tb v k t
  else d.holdStopping v k t

/-! ### Step 5: the control law -/

/-- The running step of the channel, or of its gang, ran with a scaled limit (R133). -/
def Dev.markScaled (d : Dev) (v k : Fin 16) : Dev :=
  d.modChan v k (fun c => { c with run := c.run.map (fun r => { r with scaled := true }) })

/-- A phase change of the step that is due at its tick t was not ready: it waits a period, and the step's completion says so
(R39). -/
def Running.lateIf (r : Running) (t : Nat) (due : Bool) : Running :=
  if due && r.lateAt == some t then { r with late := true } else r

/-- PULSE: the level in force for this computation (R107). [DESIGN CHOICE, log 134] -/
def Dev.pulseTick (d : Dev) (v k : Fin 16) (t : Nat) : Dev :=
  d.modChan v k (fun c => { c with run := c.run.map (fun r =>
    if r.d.law.mode = 6 ∧ c.st ≠ .ramp then
      let len := if r.pulse.level % 2 = 0 then r.d.law.c else r.d.law.d
      let p := pulseStep r.pulse r.d.law (d.iFs v) c.suspended (r.lateAt == some t)
      { r.lateIf t (!c.suspended && decide (len ≤ r.pulse.count)) with pulse := { p with last := c.win } }
    else r) })

/-- CONTACT in this computation: its sequence after the present one, the reference it imposes, and whether it ends here; a phase
change that was not ready keeps the phase (R39, R96, R108). Its windows are those VAT_CONTACT gives in each period.
[DEDUCED, log 28, 41] -/
def Dev.contactTick (d : Dev) (v : Fin 16) (c : Chan) (run : Running) (r a : Int) (t : Nat) : Option (Contact × Int × Bool) :=
  let win := d.f (Reg.VAT_CONTACT_WIN v.1)
  let settle := d.f (Reg.VAT_CONTACT_SETTLE v.1)
  let go (n : Nat) := contactStep run.contact n c.win a win settle (d.iFs v) run.d.spB
  if run.d.mode ≠ 9 ∨ c.st = .ramp then none
  else match run.contact.n with
    | some n =>
      if run.lateAt = some t ∧ n = win then some (run.contact, 0, false)
      else if run.lateAt = some t ∧ n = 2 * win + settle then some (run.contact, a, false)
      else some (go n)
    | none => if r = 0 then some (go 0) else none

/-- A member's share of the gang reference (R139). -/
def gangShare (rg : Int) (n : Nat) (leader : Bool) : Int :=
  let base := divT rg n
  if leader then rg - ((n : Int) - 1) * base else base

/-- The inner loop from a reference on, and the RUN command it sends (R104, R139). [DEDUCED, log 44] -/
def Dev.drive (d : Dev) (v k : Fin 16) (rp : Int) : Dev :=
  let c := d.chan v k
  let x := innerLoop c rp (d.f (Reg.VAT_VBUS_VBUS v.1))
  let d := d.modChan v k (fun c => { c with rp := rp, xi := x.2.1, dsatN := if x.2.2 then c.dsatN + 1 else 0 })
  d.send v k .run x.1 (c.phase.getD 0)

/-- The reference of a channel or gang leader in this computation: r after the slew, rg after the perturbation and the clamp,
CONTACT's sequence, the marks of the sweep (R39, R104, R108, R133, R206). [DEDUCED, log 40, 41, 105] -/
def Dev.reference (d : Dev) (v k : Fin 16) (t : Nat) : Dev :=
  let c := d.chan v k
  let e := d.effLimits v k c.setup c.tune
  let pert := d.pert v k t
  let d := if e ≠ limits c.setup c.tune then d.markScaled v k else d
  let lvl := match c.run with | some r => r.pulse.level | none => 0
  let tg : Int × Int × Bool := if c.st = .ramp then (0, c.xv, false) else target c c.setup.law lvl c.tune e.2 e.1
  let tgt := clamp (-e.2) e.1 tg.1
  let r := if c.softFirst then c.r else slew c.r tgt c.rate
  let ct := c.run.bind (fun run => d.contactTick v c run r (clamp (-e.2) e.1 run.d.spA) t)
  let due := match c.run.bind (·.contact.n) with
    | some n => n == d.f (Reg.VAT_CONTACT_WIN v.1) || n == 2 * d.f (Reg.VAT_CONTACT_WIN v.1) + d.f (Reg.VAT_CONTACT_SETTLE v.1)
    | none => false
  let r := match ct with
    | some (_, a, ends) => if ends then slew c.r 0 c.tune.ramp else a
    | none => r
  let rg := clamp (-e.2) e.1 (r + pert)
  let d := d.modChan v k (fun c =>
    { c with r := r, rg := rg, xv := tg.2.1, cvAct := tg.2.2, softFirst := false, pert := pert, pertLate := none,
             run := c.run.map (fun run =>
               { run.lateIf t (ct.isSome && due) with contact := match ct with | some x => x.1 | none => run.contact }) })
  let d := d.impMark v k t (rg != r + pert) false
  let ks := maskList (d.gangMask v k)
  match ct with
  | some (_, _, true) => d.startRamp v ks t none false
  | _ =>
    if c.st = .soft ∧ r = tgt then ks.foldl (fun d m => d.enter v m .run t) d else d

/-- The zero criterion of a ramp-down (R113, R140): four consecutive periods after the one that began it with r = 0, before the
computation and after it, and every channel within its ZERO_BAND. [DEDUCED, log 40, 50] -/
def Dev.zeroStep (d : Dev) (v k : Fin 16) (was : Int) (t : Nat) : Dev × Bool :=
  let c := d.chan v k
  let ok := decide (c.stAt < t) && was == 0 && c.r == 0 && (maskList (d.gangMask v k)).all (fun m =>
    decide ((d.chan v m).win.i.natAbs ≤ (d.chan v m).tune.zeroBand))
  let n := if ok then c.zeroN + 1 else 0
  (d.modChan v k (fun c => { c with zeroN := n }), decide (4 ≤ n))

/-- The ramp-down is over (R113): the channels go to PASSIVE under the step the ramp served, or to IDLE; a CONTACT step
ends here, its range running to its successor's start (R108, R155). -/
def Dev.rampDone (d : Dev) (v k : Fin 16) (t : Nat) : Dev :=
  let c := d.chan v k
  let ks := maskList (d.gangMask v k)
  if c.toPassive && c.run.isSome then ks.foldl (fun d m => d.enterQuiet v m .passive t) d
  else match c.run with
    | some r =>
      let status := match r.contact.res with | some (true, _) => 0x03 | _ => 0x11
      let tRange := if c.next.isSome && !(failing status && !r.d.flag 2) then t + 400 else t
      let d := d.endStepAt v k status 0 t tRange none
      let d := ks.foldl (fun d m => d.enterQuiet v m .idle t) d
      if (d.chan v k).next.isSome then d else d.deferNext v k t
    | none => ks.foldl (fun d m => d.enterQuiet v m .idle t) d

/-- The OFF command, or OPEN in a running OCV step (R100, R109). -/
def Dev.sendQuiet (d : Dev) (v k : Fin 16) : Dev :=
  let c := d.chan v k
  let ocv := c.st == .passive && (match c.run with | some r => r.d.mode == 8 | none => false)
  d.send v k (if ocv then .openOut else .off) 0 0

/-- Step 5 for a channel that leads itself or its gang (R104–R108, R111, R113, R139); the computation that completes the zero
criterion sends MODE OFF. -/
def Dev.lawLead (d : Dev) (v k : Fin 16) (t : Nat) : Dev :=
  let c := d.chan v k
  if c.st.drives then
    let d := ((d.takePhase v k).pulseTick v k t).reference v k t
    let z := if c.st = .ramp then d.zeroStep v k c.r t else (d, false)
    if z.2 then (z.1.rampDone v k t).send v k .off 0 0
    else
      let n := (maskList (z.1.gangMask v k)).length
      z.1.drive v k (gangShare (z.1.chan v k).rg n true)
  else d.sendQuiet v k

/-- Step 5 for another member of a gang: its share of the reference its leader formed in this period (R139). -/
def Dev.lawMember (d : Dev) (v k lead : Fin 16) : Dev :=
  let d := d.takePhase v lead
  let n := (maskList (d.gangMask v lead)).length
  let rp := gangShare (d.chan v lead).rg n false
  (d.modChan v k (fun c => { c with r := rp })).drive v k rp

/-- A start in ARM is refused: the KCLR is withdrawn, the step completes with the status, its channels go to IDLE (R79, R110). -/
def Dev.refuseArm (d : Dev) (v k : Fin 16) (status info t : Nat) : Dev :=
  let lead := d.leadOf v k
  let mask := d.gangMask v k
  let d := d.withdrawKclr v mask
  let ran := (d.chan v lead).run.isSome
  let d := if ran then d.endStep v lead status info t else d.dropHead v lead status info t
  let d := (maskList mask).foldl (fun d m => d.enterQuiet v m .idle t) d
  if ran then d.afterEnd v lead t else d

/-- In ARM (R79, R110, R116): a modulator fault or a reverse voltage refuses the start, a safe stop or BOARD condition takes it
back to the queue. [DEDUCED, log 50] -/
def Dev.armTick (d : Dev) (v k : Fin 16) (t : Nat) : Dev :=
  let c := d.chan v k
  if c.st ≠ .arm then d
  else if d.modf v k then d.refuseArm v k 0x32 0 t
  else if c.win.v < -200000 then
    ((maskList (d.gangMask v k)).foldl (fun d m => d.modChan v m (fun c => c.stopBy m 15 t)) d).refuseArm v k 0x31 15 t
  else if d.armBarred v then d.disarm v (d.leadOf v k) t
  else d

/-- What the loop engine notes after a computation: the predicted power (R125), CV_ACT (R182) and its change in a sweep's point
(R205). -/
def Dev.closeTickOf (d : Dev) (v k : Fin 16) (t : Nat) : Dev :=
  let p := d.predict v k
  ((d.modChan v k (fun c => { c with power := ((t, p) :: c.power).take 3 })).logCv v k t).impCv v k t

/-- The CMD of the period whose tick is t does not leave as computed: a KILL takes the slot, or the computation is late (R39,
R66, R98). -/
def Dev.displaced (d : Dev) (v k : Fin 16) (t : Nat) : Bool :=
  (d.lane v).claim.isSome || (d.killable v && !(d.dueKills v).isEmpty) || (d.chan v k).discard == some (periodOf t k)

/-- The computation of channel k at its tick t in the order of R115. [DEDUCED, log 39, 45] -/
def Dev.computeAt (d : Dev) (tb : Nat → Tuning) (v k : Fin 16) (t : Nat) : Dev :=
  let lead := d.leadOf v k
  let ran := d.running v
  let lost := d.standing v k t
  let won := (d.chan v k).killEnd.map placeOf
  let killed := won.isSome
  let d := (d.endKilled v k t).modChan v k Chan.trackStep
  let x := d.protect v k t
  let stops := !(x.1.chan v k).stopReq.isEmpty || (x.1.chan v k).orphanDue t
  let d := (x.1.doStops v k t).takePolicy v k t
  let d := d.recordLost v k (won.getD (if x.2 then 4 else if stops then 5 else 7)) t lost
  let d := if killed || x.2 || stops then (d.afterEnds v ran t).holdStopping v lead t
    else if lead ≠ k then d
    else (d.doEnds tb v k t).doStart tb v k t
  let d := d.armTick v k t
  let d := (d.impJoin v k t).impAbort v k t
  let lead := d.leadOf v k
  let d := if lead = k ∨ !(d.chan v k).st.drives then d.lawLead v k t else d.lawMember v k lead
  d.closeTickOf v k t

/-- One computation of channel k at its tick t (R97–R99, R115), in which the vat SRAM's code may find an error (R355). A discarded one changes nothing of the loop; the sweep's point
notes it (R98, R205, R206). [DEDUCED, log 39, 45] -/
def Dev.compute (d : Dev) (tb : Nat → Tuning) (v k : Fin 16) (t : Nat) (residueOk : Bool) (sram : Ecc) : Dev :=
  if d.fenced v then d
  else if !residueOk then d.fenceNow v 2
  else if sram == .uncorrectable then (d.vatUe v (evInfo 13) (page (0x18000000 + 0x40000 * v.1))).fenceNow v 3
  else
    let d := if sram == .corrected then d.corrected (Reg.MEM_VAT_ERR_CE v.1) else d
    let d := (d.modChan v k (fun c => { c with done := some t })).orphanRest v k t
    if d.displaced v k t then
      let d := match (d.chan v k).won with
        | some w => if (d.chan v k).st == ChSt.killed && decide (t < w.2) then d.recordLost v k w.1 t (d.standing v k t) else d
        | none => d
      ((d.impJoin v k t).impAbort v k t).impMark v k t false true
    else (d.computeAt tb v k t).calFinish v k t

/-- LOOP_COMPUTATION: channel k's computation of the period whose CMD slot starts now, once in it (R51, R97). [DEDUCED, log 39] -/
def execLoopComputation (v k : Fin 16) (residueOk : Bool) (sram : Ecc) (s : State) : Host.Outcome State Fault Refusal :=
  s.done (match s.dev.slotTick k with
    | some t => if (s.dev.chan v k).done = some t then s.dev else s.dev.compute (s.tuning v) v k t residueOk sram
    | none => s.dev)

/-! ### Timed transitions -/

/-- ARM_TIMEOUT: KLATCH still 1 after ARM_TO (R110). [DEDUCED, log 109, 120] -/
def Dev.armTimeout (d : Dev) (v k : Fin 16) : Dev :=
  let c := d.chan v k
  if c.st = .arm ∧ c.stAt + 400 * d.f (Reg.VAT_LOOP_CFG_ARM_TO v.1) ≤ d.now then
    d.refuseArm v k 0x30 0 (d.tick (d.leadOf v k))
  else d

/-- ARM_TIMEOUT. -/
def execArmTimeout (v k : Fin 16) (s : State) : Host.Outcome State Fault Refusal := s.done (s.dev.armTimeout v k)

/-- CLOSE_DELAY_END: CLOSE_DLY has elapsed since the last OPEN of every channel concerned (R100, R109). [DEDUCED, log 50] -/
def Dev.closeEnd (d : Dev) (v k : Fin 16) : Dev :=
  let c := d.chan v k
  let lead := d.leadOf v k
  match (d.chan v lead).run with
  | some r =>
    let ks := r.d.channels lead
    if c.st = .close ∧ !ks.any (fun m => d.closeDue v m (d.tick k)) then d.enterSoft v ks (d.tick lead) else d
  | none => d

/-- CLOSE_DELAY_END. -/
def execCloseDelayEnd (v k : Fin 16) (s : State) : Host.Outcome State Fault Refusal := s.done (s.dev.closeEnd v k)

/-- RAMP_TIMEOUT: the zero criterion is not met within RAMP_MAX, or 2000 µs of an orphan's ramp; the channel or gang is
killed with stop code RAMP_TO (R113, R119). [DEDUCED, log 109, 120] -/
def Dev.rampTimeout (d : Dev) (v k : Fin 16) : Dev :=
  let c := d.chan v k
  let m := d.f (Reg.VAT_RAMP_CFG_RAMP_MAX v.1)
  let m := if c.orphanRate.isSome then min m 2000 else m
  if c.st = .ramp ∧ c.stAt + 400 * m ≤ d.now then
    let mask := d.gangMask v k
    let lead := d.leadOf v k
    let t := d.tick lead
    (((d.queueKill v mask 0x04).withdrawKclr v mask).killChans v lead mask 11 t t none).afterEnds v (d.running v) t
  else d

/-- RAMP_TIMEOUT. -/
def execRampTimeout (v k : Fin 16) (s : State) : Host.Outcome State Fault Refusal := s.done (s.dev.rampTimeout v k)

/-- HELD_START: the hold of R116 has ended before this tick; the start proceeds at it if the balancer admits it, else it is
budget-deferred (R130). [DEDUCED, log 116] -/
def Dev.heldStart (d : Dev) (tb : Nat → Tuning) (v k : Fin 16) : Dev :=
  let c := d.chan v k
  match c.queue with
  | e :: _ =>
    let t := d.tick k
    if e.heldAt.isSome && c.run.isNone && c.orphan.isNone && c.stopReq.isEmpty && !d.fenced v && d.holdOver v k e.d &&
        (e.d.channels k).all (fun m => decide ((d.chan v m).stAt < t)) then
      let d := d.modHead v k (fun e => { e with heldAt := none })
      let d := if e.resv.isNone && e.deferAt.isNone then d.evaluate (tb e.d.tune) v k e t else d
      match (d.chan v k).queue with
      | e' :: _ => if e'.d = e.d ∧ e'.resv.isSome ∧ e'.admAt ≤ t then d.startHead tb v k t else d
      | [] => d
    else d
  | [] => d

/-- HELD_START. -/
def execHeldStart (v k : Fin 16) (s : State) : Host.Outcome State Fault Refusal := s.done (s.dev.heldStart (s.tuning v) v k)

/-- HOLD_LIMIT_EXPIRY: the hold has outlasted ENABLE_HOLD_LIMIT (R116). [DEDUCED, log 109, 120] -/
def Dev.holdExpiry (d : Dev) (v k : Fin 16) : Dev :=
  match (d.chan v k).queue with
  | e :: _ =>
    match e.heldAt with
    | some h =>
      if h + 400000 * d.f (Reg.VAT_LOOP_CFG_ENABLE_HOLD_LIMIT v.1) < d.tick k then d.dropHead v k 0x33 0 (d.tick k) else d
    | none => d
  | [] => d

/-- HOLD_LIMIT_EXPIRY. -/
def execHoldLimitExpiry (v k : Fin 16) (s : State) : Host.Outcome State Fault Refusal := s.done (s.dev.holdExpiry v k)

/-! ### Host links and orphans (R118–R120) -/

/-- The path bit of a host port. -/
def pathBit (p : Fin 2) : RF := if p = 0 then Reg.SYS_SVC_PATH_H0 else Reg.SYS_SVC_PATH_H1

/-- The slice has a ring at a location: its command ring, or an enabled one. -/
def Dev.hasRing (d : Dev) (s loc : Nat) : Bool :=
  (List.range 8).any (fun r => (r == 0 || d.bit (Reg.SLC_RING_CFG_EN s r)) && d.f (Reg.SLC_RING_CFG_LOC s r) == loc)

/-- HOST_LINK_DOWN: the port's path is lost; the slices whose rings it served are orphaned (R21, R118). -/
def Dev.hostDown (d : Dev) (p : Fin 2) : Dev :=
  if d.bit (pathBit p) then
    (List.range 64).foldl (fun d s =>
      if d.f (Reg.SLC_STATE_STATE s) ≠ 0 ∧ d.hasRing s p.1 then d.orphanSlice s else d)
      (d.setF (pathBit p) 0)
  else d

/-- HOST_LINK_DOWN. -/
def execHostLinkDown (port : Fin 2) (s : State) : Host.Outcome State Fault Refusal := s.done (s.dev.hostDown port)

/-- HOST_LINK_UP: the port's path is there again (R21); events lost meanwhile are told (R168). -/
def execHostLinkUp (port : Fin 2) (s : State) : Host.Outcome State Fault Refusal :=
  s.done (s.dev.setF (pathBit port) 1).evtLostAll

/-- ORPHAN_POLICY: the channel takes the slice's policy at its first loop tick after the trigger (R118, R119). Where that tick's
computation is still to come, the policy is step 2 of it (R115). [DEDUCED, log 47] -/
def Dev.orphanPolicy (d : Dev) (v k : Fin 16) : Dev :=
  if d.fenced v || d.outstanding v (d.leadOf v k) (d.tick k) then d else d.takePolicy v k (d.tick k)

/-- ORPHAN_POLICY. -/
def execOrphanPolicy (v k : Fin 16) (s : State) : Host.Outcome State Fault Refusal := s.done (s.dev.orphanPolicy v k)

/-- ORPHAN_MAX_EXPIRY: HOLD_SETPOINT gives way to RAMP_TO_ZERO at the channel's first tick once ORPHAN_MAX has passed (R119).
[DEDUCED, log 109] -/
def Dev.orphanExpiry (d : Dev) (v k : Fin 16) : Dev :=
  match (d.chan v k).orphan with
  | some o =>
    let x := o.since + 400000 * o.maxMs
    if o.taken && o.policy == 2 && decide (x ≤ d.now) then
      (d.modChan v k (fun c => { c with orphan := some { o with expireAt := some x } })).orphanPolicy v k
    else d
  | none => d

/-- ORPHAN_MAX_EXPIRY. -/
def execOrphanMaxExpiry (v k : Fin 16) (s : State) : Host.Outcome State Fault Refusal := s.done (s.dev.orphanExpiry v k)

/-- ORPHAN_END: the channel's tick after the slice's ATTACH ends its orphan state (R120). Where that tick's computation is still to
come, it does so. [DEDUCED, log 47] -/
def Dev.orphanEnd (d : Dev) (v k : Fin 16) : Dev :=
  if d.outstanding v k (d.tick k) then d else d.orphanRest v k (d.tick k)

/-- ORPHAN_END. -/
def execOrphanEnd (v k : Fin 16) (s : State) : Host.Outcome State Fault Refusal := s.done (s.dev.orphanEnd v k)

/-! ### Fencing and re-enable (R121–R123) -/

/-- An accepted re-enable (R123): the lane starts at LOCK, every channel is IDLE with its latch set, and the ledger is open
again. -/
def Dev.reenable (d : Dev) (v : Fin 16) : Dev :=
  let d := d.modLane v (fun l => { l with retries := 0 })
  let d := (d.enterLock v).setF (Reg.LANE_STAT_KLATCH v.1) 0xFFFF
  let d := d.setF (Reg.VAT_LDG_CLOSED_CLOSED v.1) 0
  d.eachChan (fun d k => d.enterQuiet v k .idle d.now)

/-- A write of SYS_VAT_CTL: re-enables are judged by the state before the write, then the named vats are fenced. -/
def Dev.vatCtl (d : Dev) (src : Src) (w : Nat) : Dev :=
  let re := maskList (w % 2 ^ 16)
  let bad := re.any (fun v => !d.bit (Reg.VAT_STAT_FENCE_DONE v.1))
  let d := re.foldl (fun d v => if d.bit (Reg.VAT_STAT_FENCE_DONE v.1) then d.reenable v else d) d
  let d := (maskList (w / 2 ^ 16)).foldl (fun d v => d.fenceNow v 5) d
  if bad then d.logRefused src Reg.SYS_VAT_CTL_at else d

/-- FENCE: a write of SYS_VAT_CTL. -/
def execFence (src : Src) (data : Word) (s : State) : Host.Outcome State Fault Refusal :=
  s.done (s.dev.onWrite src Reg.SYS_VAT_CTL_at (fun d => d.vatCtl src data.toNat))

/-- REENABLE: a write of SYS_VAT_CTL. -/
def execReenable (src : Src) (data : Word) (s : State) : Host.Outcome State Fault Refusal :=
  s.done (s.dev.onWrite src Reg.SYS_VAT_CTL_at (fun d => d.vatCtl src data.toNat))

/-- FENCE_DONE: the latch condition holds, the totals are closed, and every completion has been written or buffered, as
they always have here (R122). -/
def Dev.fenceDone (d : Dev) (v : Fin 16) : Dev :=
  if d.fenced v && (d.latchTime v).isSome && d.bit (Reg.VAT_LDG_CLOSED_CLOSED v.1) then d.setF (Reg.VAT_STAT_FENCE_DONE v.1) 1
  else d

/-- FENCE_DONE. -/
def execFenceDone (v : Fin 16) (s : State) : Host.Outcome State Fault Refusal := s.done (s.dev.fenceDone v)

end Sys2Proof.Machine
end

