-- ==== Sys2Proof/Machine/MemoryCmds.lean ====
section
/-!
DEFINITION. SRAM banks, vat SRAM, DRAM and the TCMs: accesses that have passed their region checker, error codes,
channel failure (R300, R351–R359).
-/

namespace Sys2Proof.Machine
open Sys2Proof

/-! ### DRAM channels (R356–R358) -/

/-- Slice s has an enabled local ring in the DRAM window. -/
def Dev.ringsInDram (d : Dev) (s : Nat) : Bool :=
  d.live s && (List.range 8).any (fun r => d.localRing s r && inDram (d.f64 (Reg.SLC_RING_BASE_LO_ADDR s r) (Reg.SLC_RING_BASE_HI_ADDR s r)))

/-- A channel fails: reported, the window shrinks to the surviving channel, all contents are lost, and the slices with
rings in DRAM take their orphan policy (R24, R358). Causes: 0 training, 1 errors. [DEDUCED, log 15] -/
def Dev.dramFail (d : Dev) (n : Nat) (cause : Nat) : Dev :=
  if d.tb Reg.DRAM_STAT_FAILED n then d
  else
    let d := ((d.setTb Reg.DRAM_STAT_FAILED n true).setTb Reg.SYS_FENCE_DRAM n true).dramSize
    let d := d.setDramEpoch (d.dramEpoch + 1)
    let d := (d.log 0x05 58 (evInfo n) cause).raise Reg.MEM_EVT_CH_FAIL 1 58
    forEach 64 d (fun d s => if d.ringsInDram s then d.orphanSlice s else d)

/-- A write of DRAM_CTL: RATE and DENS while EN = 0 only; EN = 1 starts training, EN = 0 ends operation (R356).
[DEDUCED, log 84] -/
def Dev.dramCtl (d : Dev) (src : Src) (w : Nat) : Dev :=
  let was := d.bit Reg.DRAM_CTL_EN
  let d := d.writeRowWith src Reg.DRAM_CTL_at w (fun f => if f.lo == 0 || !was then .act else .bad)
  if was && !d.bit Reg.DRAM_CTL_EN then
    let d := ((d.setF Reg.DRAM_STAT_READY 0).setF Reg.DRAM_STAT_TRAINED 0).setF Reg.DRAM_STAT_WINDOW 0
    d.setDramEpoch (d.dramEpoch + 1)
  else d

/-- DRAM_ENABLE: a write of DRAM_CTL. -/
def execDramEnable (src : Src) (data : Word) (s : State) : Host.Outcome State Fault Refusal :=
  s.done (s.dev.onWrite src Reg.DRAM_CTL_at (fun d => d.dramCtl src data.toNat))

/-- DRAM_READY: training ends; a channel that failed it is a failed channel (R356, R358). -/
def Dev.dramReady (d : Dev) (trained : Nat) : Dev :=
  if d.bit Reg.DRAM_CTL_EN && !d.bit Reg.DRAM_STAT_READY then
    let d := ((d.setF Reg.DRAM_STAT_TRAINED trained).dramSize).setDram { d.dram with scrubAt := d.up }
    forEach 2 d (fun d n => if trained.testBit n then d else d.dramFail n 0)
  else d

/-- DRAM_READY. -/
def execDramReady (trained : Fin 4) (s : State) : Host.Outcome State Fault Refusal := s.done (s.dev.dramReady trained.1)

/-- DRAM_CHANNEL_FAIL: more than UE_LIM uncorrectable errors within 1 s (R358). -/
def Dev.dramChannelFail (d : Dev) (n : Nat) : Dev :=
  let k := ((d.dramUes n).filter (fun t => decide (d.up < t + 400000000))).length
  if d.dramLive n && decide (d.f Reg.DRAM_ECC_CFG_UE_LIM < k) then d.dramFail n 1 else d

/-- DRAM_CHANNEL_FAIL. -/
def execDramChannelFail (n : Fin 2) (s : State) : Host.Outcome State Fault Refusal := s.done (s.dev.dramChannelFail n.1)

/-- SCRUB_PASS, every SCRUB hours: the patrol scrubber has read the window; what it found is counted, and source 90 rises (R357).
[DEDUCED, log 84] -/
def Dev.scrubPass (d : Dev) (corrected : Nat) (bad : List Nat) : Dev :=
  let per := 1440000000000 * d.f Reg.DRAM_ECC_CFG_SCRUB
  if d.bit Reg.DRAM_STAT_READY && per != 0 && d.f (Reg.PWR_QTAG_STATE 38) == 0 && decide (d.dram.scrubAt + per ≤ d.up) then
    let d := d.setDram { d.dram with scrubAt := d.dram.scrubAt + (d.up - d.dram.scrubAt) / per * per }
    let d := if corrected = 0 then d else (d.bump Reg.DRAM_CE_COUNT corrected).raise Reg.MEM_EVT_CE 1 58
    let d := bad.foldl (fun d a => if inDram a && d.serves a then d.dramUe a (evInfo 16) else d) d
    d.pend 90
  else d

/-- SCRUB_PASS. -/
def execScrubPass (corrected : Nat) (uncorrectable : List Nat) (s : State) : Host.Outcome State Fault Refusal :=
  s.done (s.dev.scrubPass corrected uncorrectable)

/-! ### Accesses to memory -/

/-- What an access asks of a memory: a read, a fetch, a write, or an atomic operation (R353). -/
inductive MemOp where
  | read | exec | write | add | swap
  deriving DecidableEq, Repr

/-- The operation changes memory. -/
def MemOp.writes : MemOp → Bool
  | .read | .exec => false
  | _ => true

/-- It is an atomic operation. -/
def MemOp.atomic : MemOp → Bool
  | .add | .swap => true
  | _ => false

/-- The access is performed: the answer, and the bytes written. [DEDUCED, log 23] -/
def Dev.perform (d : Dev) (word : Nat → Nat → Nat) (op : MemOp) (key size data : Nat) : Dev :=
  let old := word key size
  match op with
  | .read | .exec => d.answer old
  | .write => (d.answer 0).post key (leBytes size data)
  | .add => (d.answer old).post key (leBytes size (old + data))
  | .swap => (d.answer old).post key (leBytes size data)

/-! ### Caches of the application cores (R298, R314) -/

/-- An address the cores cache: not setup space, vat SRAM or the xSPI window (R298). -/
def cacheable (addr : Nat) : Bool := decide (addr < 0x40000) || inSram addr || inDram addr

/-- An access of an application core finds a line in the L2: not one of the secure world from the normal world (R298). -/
def Dev.l2Hit (d : Dev) (secure : Bool) (line : Nat) : Bool := d.l2.any (fun e => e.1 == line && (secure || !e.2))

/-- An access to a line: on a miss the L2 holds it with the world of the access, and a line of a full set of 16 goes.
[DESIGN CHOICE, log 103] -/
def Dev.l2Fill (d : Dev) (secure : Bool) (line : Nat) : Dev :=
  if d.l2Hit secure line then d
  else
    let rest := d.l2.filter (fun e => e.1 != line)
    let set := rest.filter (fun e => e.1 % 1024 == line % 1024)
    if set.length < 16 then d.setL2 ((line, secure) :: rest)
    else
      let x := d.free 4
      x.2.setL2 ((line, secure) :: rest.filter (fun e => some e != set[x.1]?))

/-- Bytes an application core has stored may stay in its L1: what memory held beneath them is kept (R314). `before` is the device before the
store. [DESIGN CHOICE, log 103] -/
def Dev.l1Store (d before : Dev) (word : Nat → Nat → Nat) (n addr size : Nat) : Dev :=
  d.setL1 ((List.range size).map (fun i =>
    match before.l1.find? (fun e => e.1 == n && e.2.1 == addr + i) with
    | some e => e
    | none => (n, addr + i, BitVec.ofNat 8 (word (addr + i) 1))) ++ d.l1)

/-- What an access of an application core that was performed leaves in the caches. -/
def Dev.cached (d before : Dev) (word : Nat → Nat → Nat) (src : Src) (op : MemOp) (addr size : Nat) : Dev :=
  if d.resp.err || decide (4 ≤ src.master.1) || !cacheable addr then d
  else
    let d := (List.range ((addr + (size - 1)) / 64 - addr / 64 + 1)).foldl (fun d i => d.l2Fill src.secure (addr / 64 + i)) d
    if op.writes && !decide (addr < 0x40000) then d.l1Store before word src.master.1 addr size else d

/-- A natural width, naturally aligned. -/
def natural (addr size : Nat) : Bool := (size == 1 || size == 2 || size == 4 || size == 8) && addr % size == 0

/-- An access at an SRAM bank (R352, R353); an uncorrectable error in B0 stops a boot ROM that runs. [DEDUCED, log 91] -/
def Dev.atBank (d : Dev) (word : Nat → Nat → Nat) (src : Src) (op : MemOp) (addr size data : Nat) (ecc : Ecc) : Dev :=
  let n := bankOf addr
  if op.atomic && !((size == 4 || size == 8) && addr % size == 0) then d.badAccess src true addr
  else match ecc with
    | .ok => d.perform word op addr size data
    | .corrected => (d.corrected (Reg.MEM_B_ERR_CE n)).perform word op addr size data
    | .uncorrectable =>
      let d := (d.setResp ⟨0, true⟩).bankUe src op.writes addr
      if n == 0 && d.sup.rom then d.romStop 9 else d

/-- An access at the vat SRAM: the tuning window only, naturally aligned, of a vat that is not fenced; an uncorrectable
error fences the vat with cause 3 (R28, R355). -/
def Dev.atVatSram (d : Dev) (word : Nat → Nat → Nat) (src : Src) (op : MemOp) (addr size data : Nat) (ecc : Ecc) : Dev :=
  let v : Fin 16 := ⟨(addr - 0x18000000) / 0x40000 % 16, Nat.mod_lt _ (by decide)⟩
  if 0x800 < addr % 0x40000 + size ∨ !natural addr size ∨ op.atomic ∨ d.bit (Reg.VAT_STAT_FENCED v.1) then
    d.badAccess src op.writes addr
  else match ecc with
    | .ok => d.perform word op addr size data
    | .corrected => (d.corrected (Reg.MEM_VAT_ERR_CE v.1)).perform word op addr size data
    | .uncorrectable =>
      ((d.setResp ⟨0, true⟩).vatUe v (accInfo src op.writes 13) (page addr)).fenceNow v 3

/-- An access at the DRAM window (R357). -/
def Dev.atDram (d : Dev) (word : Nat → Nat → Nat) (src : Src) (op : MemOp) (addr size data : Nat) (ecc : Ecc) : Dev :=
  if op.atomic then d.badAccess src true addr
  else match ecc with
    | .ok => d.perform word op addr size data
    | .corrected => (d.corrected Reg.DRAM_CE_COUNT).perform word op addr size data
    | .uncorrectable => (d.setResp ⟨0, true⟩).dramUe addr (accInfo src op.writes 16)

/-- An access at a memory its checker has permitted: boot ROM and flash window are read-only. -/
def Dev.atMemory (d : Dev) (word : Nat → Nat → Nat) (src : Src) (op : MemOp) (addr size data : Nat) (ecc : Ecc) : Dev :=
  if !d.serves addr then d.badAccess src op.writes addr
  else
    let x :=
      if inSram addr then d.atBank word src op addr size data ecc
      else if inVatSram addr then d.atVatSram word src op addr size data ecc
      else if inDram addr then d.atDram word src op addr size data ecc
      else if op.atomic then d.badAccess src true addr
      else if op.writes then d.answer 0
      else d.perform word op addr size data
    x.cached d word src op addr size

/-! ### The TCMs (R300) -/

/-- An access at a TCM: no checker stands before it; its lowest SEC pages are secure-only, and an error that cannot be
corrected gets the response of R28. -/
def Dev.atTcm (d : Dev) (word : Nat → Nat → Nat) (src : Src) (op : MemOp) (p : Fin 2) (key addr size data : Nat) (ecc : Ecc) : Dev :=
  if op.atomic || (!src.secure && decide (key % 0x40000 < 0x1000 * d.f (Reg.CORE_TCM_SEC p.1))) ||
      ecc == .uncorrectable then d.badAccess src op.writes addr
  else d.perform word op key size data

end Sys2Proof.Machine
end

