-- ==== Sys2Proof/Machine/PowerCmds.lean ====
section
/-!
DEFINITION. Power and quiesce requests (R317–R319, R354, R359).
-/

namespace Sys2Proof.Machine
open Sys2Proof

/-- The request of a world. -/
def Dev.qreq (d : Dev) (sec : Bool) : Option QReq := if sec then d.qS else d.qN

/-- Set the request of a world. -/
def Dev.setQreq (d : Dev) (sec : Bool) (q : Option QReq) : Dev := if sec then (d.setQS q) else (d.setQN q)

/-- PWR_QSTAT of a world: block, pending, result. -/
def Dev.qstat (d : Dev) (sec : Bool) (block : Nat) (pend : Bool) (result : Nat) : Dev :=
  if sec then
    ((d.setF Reg.PWR_QSTAT_S_BLOCK block).setB Reg.PWR_QSTAT_S_PEND pend).setF Reg.PWR_QSTAT_S_RESULT result
  else ((d.setF Reg.PWR_QSTAT_N_BLOCK block).setB Reg.PWR_QSTAT_N_PEND pend).setF Reg.PWR_QSTAT_N_RESULT result

/-- A world's request ends with a result: 1 DONE, 2 REFUSED, 3 TIMEOUT, 4 MINSET; source 69 rises. -/
def Dev.qend (d : Dev) (sec : Bool) (block result : Nat) : Dev :=
  ((d.setQreq sec none).qstat sec block false result).pend 69

/-- Operations: 1 QUIESCE, 2 RESUME, 3 RETAIN, 4 OFF. Which ones a block accepts (R317). -/
def qAccepts (b op : Nat) : Bool :=
  if b < 6 ∨ b = 36 ∨ b = 37 then op == 1 || op == 2
  else if 8 ≤ b ∧ b < 20 then 1 ≤ op && op ≤ 4
  else if (24 ≤ b ∧ b < 36) ∨ b = 39 then op == 1 || op == 2 || op == 4
  else if b = 38 then 1 ≤ op && op ≤ 3
  else false

/-- The request would remove the minimum service set (R319): bank B0, or the only Sienna pair not failed. [DEDUCED, log 77] -/
def Dev.qMinset (d : Dev) (b op : Nat) : Bool :=
  (b == 8 && op != 2) || (b == 4 && op == 1 && d.tb Reg.SYS_FENCE_SP 1) || (b == 5 && op == 1 && d.tb Reg.SYS_FENCE_SP 0)

/-- A write of PWR_QREQ, arbitrated by world and tag (R318); Gnotar's is of the world of its access. [DEDUCED, log 77] -/
def Dev.qreqWrite (d : Dev) (src : Src) (w : Nat) : Dev :=
  let b := bits w 0 8
  let op := bits w 8 3
  let sec := src.secure
  if !qAccepts b op then d.logR9 src Reg.PWR_QREQ_at
  else if (d.qreq sec).isSome then d.logRefused src Reg.PWR_QREQ_at
  else if d.qMinset b op then d.qend sec b 4
  else
    let q : QReq := { src := src, block := b, op := op, at_ := d.up }
    let tag := d.f (Reg.PWR_QTAG_TAG b)
    if sec ∨ tag = 0 then (d.setQreq sec (some { q with draining := true })).qstat sec b true 0
    else if tag = 1 then (d.setQreq sec (some { q with deferred := true })).qstat sec b true 0
    else (d.logRefused src Reg.PWR_QREQ_at).qend sec b 2

/-- QUIESCE: a write of PWR_QREQ. -/
def execQuiesce (src : Src) (data : Word) (s : State) : Host.Outcome State Fault Refusal :=
  s.done (s.dev.onWrite src Reg.PWR_QREQ_at (fun d => d.qreqWrite src data.toNat))

/-- RESUME of a block: a write of PWR_QREQ. -/
def execQreqResume (src : Src) (data : Word) (s : State) : Host.Outcome State Fault Refusal :=
  s.done (s.dev.onWrite src Reg.PWR_QREQ_at (fun d => d.qreqWrite src data.toNat))

/-- RETAIN: a write of PWR_QREQ. -/
def execRetain (src : Src) (data : Word) (s : State) : Host.Outcome State Fault Refusal :=
  s.done (s.dev.onWrite src Reg.PWR_QREQ_at (fun d => d.qreqWrite src data.toNat))

/-- OFF: a write of PWR_QREQ. -/
def execOff (src : Src) (data : Word) (s : State) : Host.Outcome State Fault Refusal :=
  s.done (s.dev.onWrite src Reg.PWR_QREQ_at (fun d => d.qreqWrite src data.toNat))

/-- A write of a block's ownership tag (R318): NORMAL lets a deferred request act, SECURE_IN_USE refuses it. -/
def Dev.qtagWrite (d : Dev) (src : Src) (b : Nat) (w : Nat) : Dev :=
  let d := d.writeRest src (Reg.PWR_QTAG_at b) w []
  match d.qN with
  | some q =>
    if q.block = b ∧ q.deferred then
      match d.f (Reg.PWR_QTAG_TAG b) with
      | 0 => if d.qMinset b q.op then d.qend false b 4 else d.setQreq false (some { q with deferred := false, draining := true })
      | 2 => (d.logRefused q.src Reg.PWR_QREQ_at).qend false b 2
      | _ => d
    else d
  | none => d

/-- QTAG_WRITE. -/
def execQtagWrite (src : Src) (b : Fin 64) (data : Word) (s : State) : Host.Outcome State Fault Refusal :=
  s.done (s.dev.onWrite src (Reg.PWR_QTAG_at b.1) (fun d => d.qtagWrite src b.1 data.toNat))

/-- DEFER_TIMEOUT: a deferred request ends with TIMEOUT after DEFER_TO ms (R318). -/
def Dev.deferTimeout (d : Dev) : Dev :=
  match d.qN with
  | some q => if q.deferred ∧ q.at_ + 400000 * d.f Reg.PWR_QCFG_DEFER_TO ≤ d.up then d.qend false q.block 3 else d
  | none => d

/-- DEFER_TIMEOUT. -/
def execDeferTimeout (s : State) : Host.Outcome State Fault Refusal := s.done s.dev.deferTimeout

/-! ### Transitions -/

/-- The state a request leads to (R317, R354): 0 ON, 1 QUIESCED, 2 RETAINED, 3 OFF. A block that is RETAINED or OFF has no
handshakes to quiesce and keeps its state, and an OFF block has no contents to retain. -/
def qTarget (op now : Nat) : Nat :=
  match op with
  | 1 => if now = 0 then 1 else now
  | 2 => 0
  | 3 => if now = 3 then 3 else 2
  | _ => 3

/-- The registers of CAN controller n return to their reset values (OFF loses a block's contents, R317). -/
def Dev.clearCan (d : Dev) (n : Fin 8) : Dev :=
  let lo := 0x20070000 + 0x1000 * n.1
  (d.setRegs (d.regs.filter (fun e => e.1 / 64 < lo || lo + 0x1000 ≤ e.1 / 64))).setCan (put d.can n {})

/-- A block has reached its new state: what OFF loses is lost, a bank that leaves OFF is zero, and the request is done (R317, R354).
[DEDUCED, log 77] -/
def Dev.qArrive (d : Dev) (sec : Bool) (q : QReq) : Dev :=
  let old := d.f (Reg.PWR_QTAG_STATE q.block)
  let st := qTarget q.op old
  let d := ((if q.block < 6 then d.tally else d).setF (Reg.PWR_QTAG_STATE q.block) st).evtLostAll
  let d :=
    if (st = 3 ∧ old ≠ 3 ∨ old = 3 ∧ st ≠ 3) ∧ 8 ≤ q.block ∧ q.block < 20 then
      let lo := 0x10000000 + 0x200000 * (q.block - 8)
      d.setLost (d.lost ++ [(lo, lo + 0x200000)])
    else if st = 3 ∧ 24 ≤ q.block ∧ q.block < 32 then d.clearCan ⟨(q.block - 24) % 8, Nat.mod_lt _ (by decide)⟩
    else d
  d.qend sec q.block 1

/-- The change takes time after the drain: a bank's change of state other than ON to QUIESCED, and the DRAM
controller's self-refresh (R354, R359). -/
def Dev.qTakesTime (d : Dev) (q : QReq) : Bool :=
  let old := d.f (Reg.PWR_QTAG_STATE q.block)
  let st := qTarget q.op old
  st != old && ((8 ≤ q.block && q.block < 20 && st != 1) || (q.block == 38 && (st == 2 || old == 2)))

/-- REQUEST_DRAINED: the handshakes in progress have completed (R318); a pair that is the only one left by now stays (R319).
[DEDUCED, log 77] -/
def Dev.qDrained (d : Dev) (sec : Bool) : Dev :=
  match d.qreq sec with
  | some q =>
    if !q.draining then d
    else if d.qMinset q.block q.op then d.qend sec q.block 4
    else if d.qTakesTime q then d.setQreq sec (some { q with draining := false })
    else d.qArrive sec q
  | none => d

/-- REQUEST_DRAINED. -/
def execRequestDrained (secure : Bool) (s : State) : Host.Outcome State Fault Refusal := s.done (s.dev.qDrained secure)

/-- A world's transition of a block ends. -/
def Dev.qStep (d : Dev) (sec : Bool) (b : Nat) : Dev :=
  match d.qreq sec with
  | some q => if q.block = b ∧ !q.deferred ∧ !q.draining then d.qArrive sec q else d
  | none => d

/-- BANK_TRANSITION_DONE (R354). -/
def execBankTransitionDone (n : Fin 12) (s : State) : Host.Outcome State Fault Refusal :=
  s.done ((s.dev.qStep true (8 + n.1)).qStep false (8 + n.1))

/-- SELF_REFRESH_DONE (R359). -/
def execSelfRefreshDone (s : State) : Host.Outcome State Fault Refusal := s.done ((s.dev.qStep true 38).qStep false 38)

end Sys2Proof.Machine
end

