-- ==== Sys2Proof/Machine/JasiaCmds.lean ====
section
/-!
DEFINITION. Commands of the chapter Jasia cascade (R254–R267).
-/

namespace Sys2Proof.Machine
open Sys2Proof

/-- Change the Jasia unit. -/
def Dev.modJasia (d : Dev) (f : Jasia → Jasia) : Dev := d.setJasia (f d.jasia)

/-- Raise a JASIA_EVT bit. -/
def Dev.jasiaEvt (d : Dev) (bit : RF) : Dev := d.raise bit 1 49

/-- Count in JASIA_CNT. -/
def Dev.jasiaCnt (d : Dev) (j : Nat) : Dev := d.bump (Reg.JASIA_CNT_COUNT j)

/-! ### Frames (R257) -/

/-- Fields of a Jasia frame, from its payload at byte 14. -/
def jVer (bs : List Byte) : Nat := leAt bs 14 1
def jKind (bs : List Byte) : Nat := leAt bs 15 1
def jDomain (bs : List Byte) : Nat := leAt bs 16 1
def jHop (bs : List Byte) : Nat := leAt bs 18 2
def jEpoch (bs : List Byte) : Nat := leAt bs 20 2
def jMaster (bs : List Byte) : Nat := leAt bs 22 2
def jNumber (bs : List Byte) : Nat := leAt bs 26 4
def jInstant (bs : List Byte) : Nat := leAt bs 30 8

/-- The frame is a Jasia frame on a J port or on the branch uplink (R235, R265). -/
def Dev.isJasia (d : Dev) (p : Fin 6) (bs : List Byte) : Bool :=
  (p.1 < 2 || p.1 == d.f Reg.JASIA_CFG_UPLINK) && beAt bs 12 2 == d.f Reg.JASIA_ETYPE_ETYPE

/-- The frame is one the device may act on: EN, not errored, VER 1, the kind, the device's own domain (R233, R255, R257, R260). -/
def Dev.jActs (d : Dev) (p : Fin 6) (bs : List Byte) (good : Bool) (kind : Nat) : Bool :=
  d.isJasia p bs && d.bit Reg.JASIA_CFG_EN && good && !d.badLength bs && jVer bs == 1 && jKind bs == kind && jDomain bs == d.f Reg.JASIA_CFG_DOMAIN

/-- The branch ports, as switch ports (R265). -/
def Dev.branches (d : Dev) : List (Fin 8) := ((List.range 4).filter (fun i => d.tb Reg.JASIA_CFG_BRANCH i)).map (fun i => p8 (i + 2))

/-- A frame of the master for a port (R257): kind, flags, number, instant, SENT; the port's MAC address is a constant of the
implementation. [DESIGN CHOICE, log 9] -/
def Dev.jFrame (d : Dev) (p : Fin 8) (kind flags number inst sent : Nat) : List Byte :=
  leBytes 4 (d.f Reg.JASIA_DA_LO_ADDR) ++ leBytes 2 (d.f Reg.JASIA_DA_HI_ADDR) ++ leBytes 6 (Config.portMac p.1) ++
  beBytes 2 (d.f Reg.JASIA_ETYPE_ETYPE) ++ leBytes 1 1 ++ leBytes 1 kind ++ leBytes 1 (d.f Reg.JASIA_CFG_DOMAIN) ++
  leBytes 1 flags ++ leBytes 2 0 ++ leBytes 2 (d.f Reg.JASIA_STAT_EPOCH) ++ leBytes 2 (d.f Reg.JASIA_CFG_DEV) ++ leBytes 2 0 ++
  leBytes 4 number ++ leBytes 8 inst ++ leBytes 8 sent ++ List.replicate 14 0

/-- Put a frame the device itself sends into a port's queue of priority 7 (R234). -/
def Dev.originate (d : Dev) (p : Fin 8) (barrier : Bool) (bs : List Byte) : Dev :=
  if d.removed p then d
  else
    let n := cellsOf (bs.length + 4)
    let f : SwFrame := { id := d.sw.nextId + 1, inp := p, vid := 0, pcp := 7, q := d.queueOf 7, cells := n, arrived := n, cut := barrier,
                         barrier, bytes := bs }
    let d := d.modSw (fun s => { s with nextId := s.nextId + 1 })
    d.modPort p (fun x => { x with queues := put x.queues f.q (x.queues[f.q] ++ [f]) })

/-- The master's frames: on J0 with DIR 0, on J1 with DIR 1 and on every branch port with BRANCH, where DIR reads 1 (R257, R258,
R262). [DEDUCED, log 69] -/
def Dev.jFrames (d : Dev) (kind number inst sent : Nat) : List (Fin 8 × List Byte) :=
  let frame (p : Fin 8) (flags : Nat) : Fin 8 × List Byte := (p, d.jFrame p kind flags number inst sent)
  frame 0 0 :: frame 1 1 :: d.branches.map (fun p => frame p 3)

/-- Send frames of the master, each from its port. [DEDUCED, log 69] -/
def Dev.announce (d : Dev) (barrier : Bool) (fs : List (Fin 8 × List Byte)) : Dev :=
  fs.foldl (fun d f => d.originate f.1 barrier f.2) d

/-! ### Barriers (R258, R260) -/

/-- A barrier enters the table (R159, R260): it replaces the oldest entry. [DEDUCED, log 69] -/
def Dev.enterBarrier (d : Dev) (num inst : Nat) : Dev :=
  let i := d.jasia.count % 16
  let d := d.modJasia (fun j =>
    { j with barriers := (Barrier.mk num inst d.now (d.f Reg.JASIA_STAT_EPOCH) :: j.barriers).take 16, count := j.count + 1 })
  let d := d.setF (Reg.JASIA_BAR_NUM_VALUE i) num
  let d := d.setF64 (Reg.JASIA_BAR_INST_LO_VALUE i) (Reg.JASIA_BAR_INST_HI_VALUE i) inst
  let d := d.setF (Reg.JASIA_BAR_ARR_VALUE i) d.now
  if 0 < sdiff32 num (d.f Reg.JASIA_LAST_NUMBER) then d.setF Reg.JASIA_LAST_NUMBER num else d

/-- The result of a request, in the order of R258; 1 is OK. -/
def Dev.requestResult (d : Dev) (num inst : Nat) : Nat :=
  if d.f Reg.JASIA_STAT_ROLE_NOW ≠ 1 then 2
  else if d.jasia.rep.isSome then 6
  else if inst % 400 ≠ 0 then 5
  else if inst < d.now + d.f Reg.JASIA_LEAD_MIN ∨ d.now + 40000000 < inst then 3
  else if sdiff32 num (d.f Reg.JASIA_LAST_NUMBER) ≤ 0 then 4
  else 1

/-- A barrier is requested (R258). -/
def Dev.barrierRequest (d : Dev) (num inst : Nat) : Dev :=
  let r := d.requestResult num inst
  let d := d.setF Reg.JASIA_REQ_STAT_RESULT r
  if r ≠ 1 then d
  else
    let fs := d.jFrames 1 num inst d.now
    let d := (d.announce true fs).enterBarrier num inst
    let left := d.f Reg.JASIA_CFG_REPEAT
    d.modJasia (fun j => { j with rep := if left = 0 then none else some (fs, left, d.now + 2000) })

/-- BARRIER_REQUEST: the high-word write of JASIA_REQ_INST takes the held low word with it (R10). -/
def execBarrierRequest (src : Src) (data : Word) (s : State) : Host.Outcome State Fault Refusal :=
  s.done (s.dev.onWrite src Reg.JASIA_REQ_INST_HI_at (fun d =>
    let lo := (d.heldFor src Reg.JASIA_REQ_INST_LO_at).getD (d.f Reg.JASIA_REQ_INST_LO_VALUE)
    let d := ((d.unhold src Reg.JASIA_REQ_INST_LO_at).setF Reg.JASIA_REQ_INST_LO_VALUE lo).setF Reg.JASIA_REQ_INST_HI_VALUE data.toNat
    d.barrierRequest (d.f Reg.JASIA_REQ_NUM_VALUE) (lo + 2 ^ 32 * data.toNat)))

/-- BARRIER_REPEAT: the next identical copy, 5 µs after the one before (R258). -/
def Dev.barrierRepeat (d : Dev) : Dev :=
  match d.jasia.rep with
  | some (fs, left, next) =>
    if next ≤ d.now then
      (d.announce true fs).modJasia (fun j => { j with rep := if left ≤ 1 then none else some (fs, left - 1, next + 2000) })
    else d
  | none => d

/-- BARRIER_REPEAT. -/
def execBarrierRepeat (s : State) : Host.Outcome State Fault Refusal := s.done s.dev.barrierRepeat

/-- The largest ARM_TO among the vats in service (R260). -/
def Dev.maxArm (d : Dev) : Nat :=
  (List.range 16).foldl (fun m v => if d.bit (Reg.VAT_STAT_IN_SERVICE v) then max m (d.f (Reg.VAT_LOOP_CFG_ARM_TO v)) else m) 0

/-! ### Epochs (R264) -/

/-- A frame's epoch and master win over those followed: a higher epoch, at an equal epoch the lower MASTER, and any master
at the adopted epoch where none is followed. [DEDUCED, log 69] -/
def Dev.wins (d : Dev) (epoch master : Nat) : Bool :=
  let e := d.f Reg.JASIA_STAT_EPOCH
  decide (e < epoch) || (epoch == e && (decide (master < d.f Reg.JASIA_STAT_MASTER) ||
    (d.f Reg.JASIA_STAT_ROLE_NOW != 1 && !d.jasia.follows)))

/-- Adopt the epoch and master of a frame that wins; an acting master is deposed by another's and stops announcing (R264).
[DEDUCED, log 69] -/
def Dev.adopt (d : Dev) (epoch master : Nat) : Dev :=
  if d.wins epoch master then
    let deposed := d.f Reg.JASIA_STAT_ROLE_NOW = 1 ∧ master ≠ d.f Reg.JASIA_CFG_DEV
    let d := (d.setF Reg.JASIA_STAT_EPOCH epoch).setF Reg.JASIA_STAT_MASTER master
    let d := d.modJasia (fun j => { j with follows := true })
    if deposed then
      ((d.setF Reg.JASIA_STAT_ROLE_NOW 2).modJasia (fun j => { j with rep := none })).jasiaEvt Reg.JASIA_EVT_ROLE_LOST
    else d
  else d

/-- BARRIER_ACCEPT: a BARRIER frame of the device's domain and epoch enters the table once; copies, conflicts and late
entries are counted (R260). -/
def Dev.barrierAccept (d : Dev) (p : Fin 6) (bs : List Byte) (good : Bool) : Dev :=
  if !d.jActs p bs good 1 then d
  else
    let d := d.adopt (jEpoch bs) (jMaster bs)
    if jEpoch bs ≠ d.f Reg.JASIA_STAT_EPOCH then d
    else
      let d := d.jasiaCnt 0
      match d.jasia.barriers.find? (fun b => b.num == jNumber bs) with
      | some b => if b.inst = jInstant bs then d.jasiaCnt 1 else (d.jasiaCnt 2).jasiaEvt Reg.JASIA_EVT_CONFLICT
      | none =>
        let d := d.enterBarrier (jNumber bs) (jInstant bs)
        if jInstant bs < d.now + 400 * (d.maxArm + 5) then (d.jasiaCnt 3).jasiaEvt Reg.JASIA_EVT_LATE_BAR else d

/-- BARRIER_ACCEPT. -/
def execBarrierAccept (p : Fin 6) (bytes : List Byte) (good : Bool) (s : State) : Host.Outcome State Fault Refusal :=
  s.done (s.dev.barrierAccept p bytes good)

/-! ### Forwarding (R259, R265) -/

/-- The frame ends here: its own master's ring is closed, or a lower epoch meets the master. [DEDUCED, log 69] -/
def Dev.jEnds (d : Dev) (bs : List Byte) : Bool :=
  jDomain bs == d.f Reg.JASIA_CFG_DOMAIN && d.f Reg.JASIA_STAT_ROLE_NOW == 1 &&
  ((jMaster bs == d.f Reg.JASIA_CFG_DEV && jEpoch bs == d.f Reg.JASIA_STAT_EPOCH) || jEpoch bs < d.f Reg.JASIA_STAT_EPOCH)

/-- A Jasia frame is barrier-class: its DA, EtherType and KIND say so (R244, R257). -/
def Dev.barrierClass (d : Dev) (bs : List Byte) : Bool :=
  jKind bs == 1 && leAt bs 0 6 == d.f Reg.JASIA_DA_LO_ADDR + 2 ^ 32 * d.f Reg.JASIA_DA_HI_ADDR

/-- One forwarded copy: a barrier-class frame's is cut through unless it missed its deadline (R267); an errored frame sent by
store-and-forward, a beacon's or a late barrier's, is discarded (R240, R241, R257); a copy of an ordinary multicast frame is held where
its queue is full (R246). -/
def Dev.jCopy (d : Dev) (p : Fin 6) (bs : List Byte) (good : Bool) (o : Fin 8) (branch : Bool) : Dev :=
  let bs := splice bs 18 (leBytes 2 (jHop bs + 1))
  let bs := if branch then splice bs 17 (leBytes 1 (setBit (leAt bs 17 1) 1 true)) else bs
  let bar := d.barrierClass bs
  let cut := bar && !d.jasia.lateFwd
  if !cut && !good then d
  else
    d.copyTo o { inp := p8 p.1, vid := 0, pcp := 7, q := d.queueOf 7, cells := cellsOf (bs.length + 4), cut, bad := !good,
                 barrier := bar, bytes := bs } (!bar && (beAt bs 0 1).testBit 0)

/-- JASIA_FORWARD: out of the other J port and every branch port; from the uplink, out of J1; errored by its FCS or its length; a frame
at the hop limit is counted wherever it arrives (R233, R259). -/
def Dev.jasiaForward (d : Dev) (p : Fin 6) (bs : List Byte) (good : Bool) : Dev :=
  let good := good && !d.badLength bs
  if !d.isJasia p bs || d.removed (p8 p.1) then d
  else if d.f Reg.JASIA_HOPMAX_MAX ≤ jHop bs then d.jasiaCnt 5
  else if d.jEnds bs then d
  else
    let d' := if p.1 < 2 then (d.branches).foldl (fun d o => d.jCopy p bs good o true) (d.jCopy p bs good (p8 (1 - p.1)) false)
      else d.jCopy p bs good 1 false
    if d.barrierClass bs then d'.modJasia (fun j => { j with lateFwd := false }) else d'

/-- JASIA_FORWARD. -/
def execJasiaForward (p : Fin 6) (bytes : List Byte) (good : Bool) (s : State) : Host.Outcome State Fault Refusal :=
  s.done (s.dev.jasiaForward p bytes good)

/-! ### Beacons (R262–R264) -/

/-- The beacon interval in ticks. -/
def Dev.beaconTicks (d : Dev) : Nat := 400000 * d.f Reg.JASIA_TIME_BEACON

/-- Send a beacon now. -/
def Dev.sendBeacon (d : Dev) : Dev :=
  (d.announce false (d.jFrames 2 (d.f Reg.JASIA_LAST_NUMBER) 0 d.now)).modJasia (fun j => { j with sentAt := d.now })

/-- BEACON_SEND: the acting master, every BEACON ms (R262). -/
def Dev.beaconSend (d : Dev) : Dev :=
  if d.bit Reg.JASIA_CFG_EN && d.f Reg.JASIA_STAT_ROLE_NOW == 1 &&
      (d.jasia.sentAt == 0 || decide (d.jasia.sentAt + d.beaconTicks ≤ d.now)) then d.sendBeacon
  else d

/-- BEACON_SEND. -/
def execBeaconSend (s : State) : Host.Outcome State Fault Refusal := s.done s.dev.beaconSend

/-- A J port is receiving beacons: one came since its link last changed and none has been missed. [DEDUCED, log 69] -/
def Dev.beaconsOn (d : Dev) (p : Fin 2) : Bool :=
  match if p = 0 then d.jasia.lastJ0 else d.jasia.lastJ1 with
  | some t => decide ((d.port (p8 p.1)).linkAt ≤ t)
  | none => false

/-- TOPO as beacons arrive or are missed (R262); it stays while no port receives one, until the master is lost.
[DEDUCED, log 69] -/
def Dev.topo (d : Dev) : Dev :=
  if d.beaconsOn 0 && d.beaconsOn 1 then d.setF Reg.JASIA_STAT_TOPO 1
  else if d.beaconsOn 0 || d.beaconsOn 1 then d.setF Reg.JASIA_STAT_TOPO 2
  else d

/-- A J port as one of two. -/
def jPort (p : Fin 6) : Fin 2 := ⟨p.1 % 2, Nat.mod_lt _ (by decide)⟩

/-- BEACON_RECEIVE: distance, topology and the adopted epoch (R262, R264). -/
def Dev.beaconReceive (d : Dev) (p : Fin 6) (bs : List Byte) (good : Bool) : Dev :=
  if !d.jActs p bs good 2 then d
  else
    let d := d.adopt (jEpoch bs) (jMaster bs)
    let d := d.modJasia (fun j =>
      { j with lastBeacon := d.now, lastJ0 := if p = 0 then some d.now else j.lastJ0,
               lastJ1 := if p = 1 then some d.now else j.lastJ1
               seen := if p.1 < 2 then put j.seen (jPort p) (some d.now) else j.seen
               expect := if p.1 < 2 then put j.expect (jPort p) (some d.now) else j.expect })
    let d := d.setF Reg.JASIA_STAT_MASTER_LOST 0
    let d := if p = 0 then d.setF Reg.JASIA_POS_HOP_J0 (jHop bs) else if p = 1 then d.setF Reg.JASIA_POS_HOP_J1 (jHop bs) else d
    d.topo

/-- BEACON_RECEIVE. -/
def execBeaconReceive (p : Fin 6) (bytes : List Byte) (good : Bool) (s : State) : Host.Outcome State Fault Refusal :=
  s.done (s.dev.beaconReceive p bytes good)

/-- BEACON_MISS: an interval without the beacon a J port had been receiving, each such interval (R262). -/
def Dev.beaconMiss (d : Dev) (p : Fin 2) : Dev :=
  match d.jasia.expect[p] with
  | some t =>
    if t + d.beaconTicks ≤ d.now then
      ((d.jasiaCnt 4).modJasia (fun j =>
        { j with expect := put j.expect p (some (t + d.beaconTicks)), lastJ0 := if p = 0 then none else j.lastJ0,
                 lastJ1 := if p = 0 then j.lastJ1 else none })).topo
    else d
  | none => d

/-- BEACON_MISS. -/
def execBeaconMiss (p : Fin 2) (s : State) : Host.Outcome State Fault Refusal := s.done (s.dev.beaconMiss p)

/-- No beacon of the domain has come for MASTER_TO intervals (R262). -/
def Dev.beaconsGone (d : Dev) : Bool :=
  d.bit Reg.JASIA_CFG_EN && decide (d.jasia.lastBeacon + d.f Reg.JASIA_TIME_MASTER_TO * d.beaconTicks ≤ d.now)

/-- TOPO reads NONE and MASTER_LOST is set, on an acting master too (R262). [DEDUCED, log 69] -/
def Dev.loseMaster (d : Dev) : Dev :=
  if d.bit Reg.JASIA_STAT_MASTER_LOST then d
  else
    let d := ((d.setF Reg.JASIA_STAT_MASTER_LOST 1).setF Reg.JASIA_STAT_TOPO 0).jasiaEvt Reg.JASIA_EVT_MASTER_LOST
    d.modJasia (fun j => { j with lastJ0 := none, lastJ1 := none, expect := Vector.replicate 2 none,
                                  follows := d.f Reg.JASIA_STAT_ROLE_NOW == 1 })

/-- A STANDBY takes over (R264). -/
def Dev.takeOver (d : Dev) : Dev :=
  let d := d.setF Reg.JASIA_STAT_EPOCH (d.f Reg.JASIA_STAT_EPOCH + 1)
  let d := (d.setF Reg.JASIA_STAT_ROLE_NOW 1).setF Reg.JASIA_STAT_MASTER (d.f Reg.JASIA_CFG_DEV)
  let d := d.modJasia (fun j => { j with follows := true, lastBeacon := d.now })
  ((d.setF Reg.JASIA_STAT_MASTER_LOST 0).jasiaEvt Reg.JASIA_EVT_TAKEOVER).sendBeacon

/-- MASTER_LOST: no beacon for MASTER_TO intervals; a STANDBY that does not act as master takes over (R262, R264). -/
def Dev.masterLost (d : Dev) : Dev :=
  if d.beaconsGone then
    let d := d.loseMaster
    if d.f Reg.JASIA_CFG_ROLE = 2 ∧ d.f Reg.JASIA_STAT_ROLE_NOW ≠ 1 then d.takeOver else d
  else d

/-- MASTER_LOST. -/
def execMasterLost (s : State) : Host.Outcome State Fault Refusal := s.done s.dev.masterLost

/-- AUTO_REENABLE: a removed J port whose link has been up RELINK ms and has seen a beacon (R263). -/
def Dev.autoReenable (d : Dev) (p : Fin 2) : Dev :=
  let q := p8 p.1
  let up := (d.port q).linkAt
  let seen := match d.jasia.seen[p] with | some t => decide (up ≤ t) | none => false
  if d.bit Reg.JASIA_CFG_AUTO_REEN && d.removed q && d.bit (Reg.SW_P_STAT_LINK q.1) && seen &&
      decide (up + 400000 * d.f Reg.JASIA_TIME_RELINK ≤ d.now) then
    (d.reenablePort q).jasiaEvt Reg.JASIA_EVT_RELINK
  else d

/-- AUTO_REENABLE. -/
def execAutoReenable (p : Fin 2) (s : State) : Host.Outcome State Fault Refusal := s.done (s.dev.autoReenable p)

end Sys2Proof.Machine
end

