-- ==== Sys2Proof/Machine/StrictOps.lean ====
section
/-!
DEFINITION. The conditions of strict partition and the guarantee (R221–R223).
-/

namespace Sys2Proof.Machine
open Sys2Proof

/-- A slice holds a channel. -/
def Dev.holdsAny (d : Dev) (s : Nat) : Bool := (List.range 16).any (fun v => d.holdMask v s != 0)

/-- A slice holds a channel of vat v. -/
def Dev.holdsOf (d : Dev) (s v : Nat) : Bool := d.holdMask v s != 0

/-- The ACTIVE slices. -/
def Dev.active (d : Dev) : List Nat := (List.range 64).filter (fun s => d.f (Reg.SLC_STATE_STATE s) == 1)

/-- A budget limit is finite (R124). -/
def finite (x : Nat) : Bool := x != 0xFFFFFFFF

/-- Condition 3 of R222: finite budgets, and their sums within each segment's limits. -/
def Dev.budgetOk (d : Dev) : Bool :=
  d.active.all (fun s => !d.holdsAny s || (finite (d.f (Reg.PWR_SLC_DRAW_LIMIT s)) && finite (d.f (Reg.PWR_SLC_REGEN_LIMIT s)))) &&
  (List.range 8).all (fun g =>
    let hs := (List.range 64).filter (fun s => (List.range 16).any (fun v =>
      d.f (Reg.VAT_BAL_CFG_SEG v) == g && d.holdsOf s v))
    let sum (f : Nat → RF) : Nat := hs.foldl (fun n s => n + d.f (f s)) 0
    let within (lim n : Nat) : Bool := !finite lim || decide (n ≤ lim)
    within (d.f (Reg.PWR_SEG_DRAW_LIMIT g)) (sum Reg.PWR_SLC_DRAW_LIMIT) &&
    within (d.f (Reg.PWR_SEG_REGEN_LIMIT g)) (sum Reg.PWR_SLC_REGEN_LIMIT))

/-- The eight conditions of R222, as SLICE_STAT.COND. -/
def Dev.conds (d : Dev) : Nat :=
  let b (p : Bool) (n : Nat) : Nat := if p then 2 ^ n else 0
  b ((List.range 16).all (fun v => let hs := (List.range 64).filter (fun s => d.holdsOf s v)
      hs.isEmpty || (hs.length == 1 && d.whole v (hs.headD 0)))) 0 +
  b (d.bit Reg.SW_CTL_PART && d.active.all (fun s => d.f (Reg.SLC_SWQ_CELLS s) != 0)) 1 +
  b (d.bit Reg.DRAM_ARB_PART && d.active.all (fun s => d.f (Reg.SLC_DRAM_SHARE s) != 0)) 2 +
  b d.budgetOk 3 + b (d.bit Reg.GOV_STAT_PINNED) 4 + b (d.bit Reg.PERF_CFG_SLICED && d.bit Reg.PERF_CFG_BLOCK_SEC) 5 +
  b (!d.bit Reg.DBG_STAT_UNLOCKED && d.fuse.lc == 2) 6 + b (!d.bit Reg.SLICE_MODE_LEGACY) 7

/-- The guarantee holds. -/
def Dev.guaranteed (d : Dev) : Bool := d.bit Reg.SLICE_MODE_STRICT && d.conds == 255

/-- Evaluate the conditions after something that bears on them: a guarantee that falls sets SLICE_EVT.VOID and is logged
with the conditions (R222). -/
def Dev.review (d : Dev) : Dev :=
  let was := d.bit Reg.SLICE_STAT_GUARANTEE
  let c := d.conds
  let d := (d.setF Reg.SLICE_STAT_COND c).setB Reg.SLICE_STAT_GUARANTEE d.guaranteed
  if was && !d.bit Reg.SLICE_STAT_GUARANTEE then (d.raise Reg.SLICE_EVT_VOID 1 56).log 0x0B 56 (evInfo 0) c else d

end Sys2Proof.Machine
end

