-- ==== Sys2Proof/Machine/TimeCmds.lean ====
section
/-!
DEFINITION. The commands of the time base and the slack governor (R30–R43, R277).
-/

namespace Sys2Proof.Machine
open Sys2Proof

/-! ### Lock and line time -/

/-- TB_STAT.LINE: the servo declares lock, the reference is present, no holdover has expired (R278). -/
def Dev.lineUpdate (d : Dev) : Dev :=
  d.setB Reg.TB_STAT_LINE (d.bit Reg.PTP_SERVO_LOCKED && !d.bit Reg.TB_STAT_HOLD && !d.ptp.expired)

/-- A boot ROM that has waited 10 ms for the lock has stopped with code TB before it comes (R411). [DEDUCED, log 91] -/
def Dev.romWaits (d : Dev) : Dev :=
  if d.sup.rom && d.sup.warm.isNone && !d.bit Reg.TB_STAT_LOCK && decide (d.sup.romAt + 4000000 ≤ d.up) then d.romStop 11 else d

/-- TB_LOCK: the PLL locks; after a loss of reference LOCK and HOLD stay as they are until the next reset (R30, R36). -/
def Dev.tbLock (d : Dev) : Dev :=
  let d := d.romWaits
  if d.bit Reg.TB_STAT_HOLD then d.setRelock true else (d.setF Reg.TB_STAT_LOCK 1).lineUpdate

/-- A warm reset ends a loss of reference whose PLL has relocked (R36). -/
def Dev.relockDone (d : Dev) : Dev :=
  if d.relock then ((((d.setF Reg.TB_STAT_LOCK 1).setF Reg.TB_STAT_HOLD 0).setRelock false).pend 55).lineUpdate else d

/-- TB_LOCK. -/
def execTbLock (s : State) : Host.Outcome State Fault Refusal := s.done s.dev.tbLock

/-- LOSS_OF_REFERENCE (R36). -/
def Dev.refLost (d : Dev) : Dev :=
  let d := ((d.setF Reg.TB_STAT_LOCK 0).setF Reg.TB_STAT_HOLD 1).setRelock false
  (d.pend 55).lineUpdate.serviceLost

/-- LOSS_OF_REFERENCE. -/
def execLossOfReference (s : State) : Host.Outcome State Fault Refusal := s.done s.dev.refLost

/-! ### Offset corrections and the initial load -/

/-- TB_SLEW.REM as a signed number of ticks. -/
def Dev.slewRem (d : Dev) : Int := signed 24 (d.f Reg.TB_SLEW_REM)

/-- Show whether a slew is in progress; a change raises source 55 (R34, R433). -/
def Dev.slewShow (d : Dev) (on : Bool) : Dev :=
  if d.bit Reg.TB_STAT_SLEW = on then d else (d.setB Reg.TB_STAT_SLEW on).pend 55

/-- A write of TB_ADJ: added to the remaining offset, or refused beyond the jump limit or s24 (R34, R277). -/
def Dev.adjust (d : Dev) (src : Src) (w : Nat) : Dev :=
  let x := signed 32 w
  let rem := d.slewRem + x
  if d.f Reg.PTP_JUMP_LIMIT < x.natAbs ∨ rem < -(2 ^ 23) ∨ 2 ^ 23 ≤ rem then
    ((d.raise Reg.PTP_EVT_JUMP 1 50).bump Reg.PTP_JUMP_CNT_VALUE).log 0x09 50 (accInfo src true 0) w
  else (d.setF Reg.TB_SLEW_REM (pattern 24 rem)).slewShow (rem != 0)

/-- OFFSET_CORRECTION: a write of TB_ADJ. -/
def execOffsetCorrection (src : Src) (data : Word) (s : State) : Host.Outcome State Fault Refusal :=
  s.done (s.dev.onWrite src Reg.TB_ADJ_at (fun d => d.adjust src data.toNat))

/-- SLEW_END: the remaining offset is zero (R34). -/
def execSlewEnd (s : State) : Host.Outcome State Fault Refusal :=
  s.done (if s.dev.f Reg.TB_SLEW_REM = 0 then s.dev.slewShow false else s.dev)

/-- Move an instant kept in the old numbering of TB_NOW into the new one. [DEDUCED, log 27] -/
def renumber (old new t : Nat) : Nat := t + new - old

/-- The next loop-period start from an instant on. -/
def periodFrom (t : Nat) : Nat := 400 * ((t + 399) / 400)

/-- A lane's instants in the new numbering; words' instants count eighths of a tick, groups 40 ticks. [DEDUCED, log 27] -/
def Lane.renumber (l : Lane) (mv : Nat → Nat) : Lane :=
  let group (g : Nat) := mv (40 * g) / 40
  { l with lastIAt := 8 * mv (l.lastIAt / 8), lastVAt := 8 * mv (l.lastVAt / 8), lastGood := mv l.lastGood, activeAt := mv l.activeAt, lockAt := mv l.lockAt,
           restAt := l.restAt.map mv, kills := l.kills.map (fun r => { r with ready := mv r.ready }),
           reps := l.reps.map (fun r => { r with group := group r.group }), ack := l.ack.map (fun a => (a.1, mv a.2)),
           cfgOut := l.cfgOut.map (fun c => { c with sentAt := c.sentAt.map mv }), stopGroup := l.stopGroup.map group,
           killed := (group l.killed.1, l.killed.2), fenceKillAt := l.fenceKillAt.map mv, latchAt := l.latchAt.map mv }

/-- A queued step's instants in the new numbering; a start instant it names is line time and stays. [DEDUCED, log 27] -/
def QEntry.renumber (e : QEntry) (mv : Nat → Nat) : QEntry :=
  { e with headAt := e.headAt.map mv, pendAt := e.pendAt.map mv, deferAt := e.deferAt.map mv, heldAt := e.heldAt.map mv, relAt := e.relAt.map mv,
           admAt := mv e.admAt }

/-- An idle channel's instants in the new numbering (R35 loads only then). [DEDUCED, log 27] -/
def Chan.renumber (c : Chan) (mv : Nat → Nat) : Chan :=
  { c with stAt := mv c.stAt, done := none, discard := none, pertLate := none, won := none, lastOpen := c.lastOpen.map mv,
           orphan := c.orphan.map (fun o => { o with since := mv o.since, expireAt := o.expireAt.map mv, endAt := o.endAt.map mv }), queue := c.queue.map (·.renumber mv),
           power := c.power.map (fun p => (mv p.1, p.2)), noted := c.noted.map (fun p => (p.1, mv p.2)),
           vHist := c.vHist.map (fun p => (mv p.1, p.2)), outs := [] }

/-- A sweep's instants in the new numbering; its next point keeps to a loop-period start. [DEDUCED, log 27] -/
def Imp.renumber (i : Imp) (mv : Nat → Nat) : Imp :=
  let pt (p : ImpPoint) : ImpPoint := { p with p0 := mv p.p0, wStart := mv p.wStart, wEnd := mv p.wEnd }
  { i with startReq := i.startReq.map mv, stopReq := i.stopReq.map mv, nextAt := periodFrom (mv i.nextAt),
           point := i.point.map pt, fin := i.fin.map pt }

/-- A vat's instants in the new numbering. [DEDUCED, log 27] -/
def Vat.renumber (x : Vat) (old new : Nat) : Vat :=
  let mv := Sys2Proof.Machine.renumber old new
  { x with chans := x.chans.map (·.renumber mv), meas := x.meas.map (·.renumber old new), lane := x.lane.renumber mv,
           guards := x.guards.map (fun g => { g with badI := mv g.badI, badV := mv g.badV, repAt := mv g.repAt }),
           imp := x.imp.renumber mv, lates := x.lates.map (fun n => mv (400 * n) / 400),
           calReq := x.calReq.map (fun r => { r with at_ := periodFrom (mv r.at_) }),
           calSets := x.calSets.map (fun y => (periodFrom (mv y.1), y.2)) }

/-- A slice's timers in the new numbering. [DEDUCED, log 27] -/
def SliceEng.renumber (e : SliceEng) (mv : Nat → Nat) : SliceEng :=
  { e with wdogAt := mv e.wdogAt, stallAt := e.stallAt.map mv, polledAt := e.polledAt.map mv, tearAt := e.tearAt.map mv,
           frozenAt := mv e.frozenAt }

/-- The switch's timers in the new numbering. [DEDUCED, log 27] -/
def Switch.renumber (w : Switch) (mv : Nat → Nat) : Switch :=
  { w with
    ports := w.ports.map (fun p =>
      { p with hold := p.hold.map (fun h => (h.1, mv h.2.1, h.2.2)), busyTill := mv p.busyTill, paused := p.paused.map mv,
               xoffAt := p.xoffAt.map mv, linkAt := mv p.linkAt, expressTill := mv p.expressTill })
    auditAt := mv w.auditAt
    mac := w.mac.map (fun e => { e with since := mv e.since })
    exp := w.exp.map (fun e => { e with sent := e.sent.map (fun x => (x.1, mv x.2)) }) }

/-- The Jasia timers in the new numbering; instants in frames are line time and stay. [DEDUCED, log 27] -/
def Jasia.renumber (j : Jasia) (mv : Nat → Nat) : Jasia :=
  { j with rep := j.rep.map (fun r => (r.1, r.2.1, mv r.2.2)), expect := j.expect.map (·.map mv), lastBeacon := mv j.lastBeacon,
           lastJ0 := j.lastJ0.map mv, lastJ1 := j.lastJ1.map mv, seen := j.seen.map (·.map mv), sentAt := if j.sentAt = 0 then 0 else mv j.sentAt }

/-- The watchdogs and timers that run across a load keep their elapsed time. [DEDUCED, log 27] -/
def Dev.renumberTimers (d : Dev) (old new : Nat) : Dev :=
  let mv := renumber old new
  { d with
    vats := d.vats.map (·.renumber old new)
    slices := d.slices.map (·.renumber mv)
    can := d.can.map (fun c => { c with filtLog := c.filtLog.map (fun e => (e.1, e.2.1, mv e.2.2)) })
    passAt := none
    sliceCmd := d.sliceCmd.map (fun c => (c.1, c.2.1, mv c.2.2))
    sw := d.sw.renumber mv
    jasia := d.jasia.renumber mv
    ptp := { d.ptp with kickAt := mv d.ptp.kickAt, holdAt := mv d.ptp.holdAt } }

/-- Comparators disarmed, TOUT pins low, capture FIFOs empty (R281). [DEDUCED, log 27] -/
def Dev.clearTriggers (d : Dev) : Dev :=
  let d := forEach 16 d (fun d i => d.setF (Reg.TB_CMP_CTL_ARMED i) 0)
  let d := forEach 8 d (fun d n => d.setF (Reg.TB_CAP_STAT_COUNT n) 0)
  (d.setPtp { d.ptp with tout := 0, pulse := Vector.replicate 8 none, acted := Vector.replicate 8 none,
                               cap := Vector.replicate 8 [] })

/-- The load of TB_NOW (R35, R77, R281): refused and logged unless nothing was loaded before and every channel is IDLE;
the entry's DATA are the low 32 bits of the value (R436). [DEDUCED, log 19, 27] -/
def Dev.loadNow (d : Dev) (src : Src) (x : Nat) : Dev :=
  if d.bit Reg.TB_STAT_LOADED || !d.everyIdle then d.log 0x09 0xFF (accInfo src true 0) x
  else
    let old := d.now
    let d := (d.setF Reg.TB_STAT_LOADED 1).setNow x
    let d := (d.renumberTimers old x).clearTriggers
    (List.finRange 16).foldl (fun d v => if 1 ≤ d.laneState v && d.laneState v ≤ 5 then d.enterLock v else d) d

/-- TB_LOAD: a write of TB_LOAD_HI takes the held low word with it, zero where none is held (R10, R35). [DEDUCED, log 19] -/
def execTbLoad (src : Src) (hi : Word) (s : State) : Host.Outcome State Fault Refusal :=
  s.done (s.dev.onWrite src Reg.TB_LOAD_HI_at (fun d =>
    let lo := (d.heldFor src Reg.TB_LOAD_LO_at).getD 0
    (d.unhold src Reg.TB_LOAD_LO_at).loadNow src (lo + 2 ^ 32 * hi.toNat)))

/-! ### LATE faults (R39, R40) -/

/-- Count a LATE fault of a class, and of a vat. [DEDUCED, log 28] -/
def Dev.countLate (d : Dev) (u : Nat) (v : Option (Fin 16)) : Dev :=
  let d := (d.bump (Reg.GOV_LATE_COUNT u)).pend 54
  match v with
  | none => d
  | some v =>
    let n := d.now / 400
    let d := (d.bump (Reg.GOV_VLATE_COUNT v.1)).modVat v (fun x => { x with lates := n :: x.lates.filter (fun m => n < m + 1000) })
    if d.f Reg.GOV_LATE_CFG_VAT_FENCE < ((d.vats[v]).lates).length then d.fenceNow v 4 else d

/-- The computation of channel k's period is late: its CMD slot repeats the previous command (R39, R98). [DEDUCED, log 28] -/
def Dev.lateLoop (d : Dev) (v k : Fin 16) : Dev := d.modChan v k (fun c => { c with discard := some (periodOf d.now k) })

/-- A scheduled start or phase change was not ready for the channel's tick: the running step's waits a period, and so does the head
step's start; the completion says so (R39, R163). [DEDUCED, log 28] -/
def Dev.lateStart (d : Dev) (v k : Fin 16) : Dev :=
  let t := d.tick k
  d.modChan v k (fun c =>
    match c.run with
    | some r => { c with run := some { r with lateAt := some t } }
    | none => { c with queue := match c.queue with
      | e :: rest => { e with late := true, admAt := Nat.max e.admAt (t + 1) } :: rest
      | [] => [] })

/-- Barrier-class copies that have not left by the deadline of class 7 are sent store-and-forward, which no errored frame is; with
none in the switch the next one's copies are (R39, R241, R267). [DEDUCED, log 28] -/
def Dev.storeForward (d : Dev) : Dev :=
  let waits (f : SwFrame) : Bool := f.barrier && f.cut
  let inQ (o : Fin 8) : Bool := (List.finRange 8).any (fun q => ((d.port o).queues[q]).any waits)
  let fix (fs : List SwFrame) : List SwFrame :=
    (fs.filter (fun f => !(waits f && f.bad))).map (fun f => if waits f then { f with cut := false } else f)
  if (List.finRange 8).any inQ then
    (List.finRange 8).foldl (fun d o => d.modPort o (fun p => { p with queues := p.queues.map fix })) d
  else d.setJasia { d.jasia with lateFwd := true }

/-- The reaction of a unit class to a missed deadline (R39). A fast decimator's miss counts as its own class's and as a loop
engine's. [DEDUCED, log 28] -/
def Dev.lateFault (d : Dev) (u : Fin 8) (v k : Fin 16) : Dev :=
  match u.1 with
  | 0 | 3 => (d.countLate u.1 (some v)).fenceNow v 4
  | 1 => ((d.countLate 1 (some v)).bump (Reg.GOV_LATE_COUNT 2)).lateLoop v k
  | 2 => (d.countLate 2 (some v)).lateLoop v k
  | 4 => ((d.countLate 4 (some v)).modChan v k (fun c => { c with pertLate := some (d.tick k) })).impMark v k (d.tick k) false true
  | 5 => (d.countLate 5 (some v)).modLane v (fun l => { l with grpBad := true })
  | 6 => (d.countLate 6 (some v)).lateStart v k
  | _ => (d.countLate 7 none).storeForward

/-- LATE_FAULT. -/
def execLateFault (u : Fin 8) (v k : Fin 16) (s : State) : Host.Outcome State Fault Refusal := s.done (s.dev.lateFault u v k)

/-! ### The slack governor (R41–R43) -/

/-- The lowest set point: 0.65 V, or 0.75 V above 120 °C (R42). [DEDUCED, log 26] -/
def Dev.railFloor (d : Dev) : Nat := if d.hot then 20 else 0

/-- Take the window's minimum slack of each class into GOV_SLACKu. -/
def Dev.takeSlack (d : Dev) (slack : List Int) : Dev :=
  (slack.take 8).zipIdx.foldl (fun d x =>
    let r := Reg.GOV_SLACK_MIN x.2
    if x.1 < signed 16 (d.f r) then d.setF r (pattern 16 x.1) else d) d

/-- The governor's decision on a window's minimum (R42): two steps up from a negative minimum, one below TARGET, one down
after eight windows above TARGET + HYST; the count of windows restarts after a step down, and a step
down in progress is abandoned where the rail stands. [DEDUCED, log 26] -/
def Dev.govern (d : Dev) (m : Int) : Dev :=
  let target : Int := d.f Reg.GOV_CTL_TARGET
  let hyst : Int := d.f Reg.GOV_CTL_HYST
  let run := if target + hyst < m then d.govRun + 1 else 0
  let v := d.f Reg.GOV_STAT_VCORE
  let base := if m < 0 then max v ((d.railNow + 4) / 5) else v
  let next := if m < 0 then base + 2 else if m < target then base + 1 else if 8 ≤ run then base - 1 else base
  (d.setF Reg.GOV_STAT_VCORE (min 50 (max d.railFloor next))).setGovRun (if 8 ≤ run then 0 else run)

/-- GOVERNOR_WINDOW: the end of a window, with the minimum slack of each class in it. -/
def Dev.govWindow (d : Dev) (slack : List Int) : Dev :=
  match slack.take 8 with
  | [] => d
  | x :: xs =>
    let m := satS 16 (xs.foldl min x)
    let d := (d.takeSlack slack).setF Reg.GOV_STAT_MIN_SLACK (pattern 16 m)
    if d.bit Reg.GOV_CTL_EN && !d.bit Reg.GOV_CTL_PIN then d.govern m else d

/-- GOVERNOR_WINDOW. -/
def execGovernorWindow (slack : List Int) (s : State) : Host.Outcome State Fault Refusal := s.done (s.dev.govWindow slack)

/-- JUNCTION_120: the junction passes 120 °C; rising, it lifts a lower rail that is not pinned to 0.75 V (R42, R445).
[DEDUCED, log 26] -/
def Dev.junction (d : Dev) (above : Bool) : Dev :=
  let d := d.setHot above
  if above && !d.bit Reg.GOV_CTL_PIN && decide (d.f Reg.GOV_STAT_VCORE < 20) then d.setF Reg.GOV_STAT_VCORE 20 else d

/-- JUNCTION_120. -/
def execJunction120 (above : Bool) (s : State) : Host.Outcome State Fault Refusal := s.done (s.dev.junction above)

/-- The pinned value is the target; PINNED shows whether the rail is there; without the pin the floor above 120 °C holds
(R42, R43). [DEDUCED, log 26] -/
def Dev.pinRail (d : Dev) : Dev :=
  if d.bit Reg.GOV_CTL_PIN then
    let d := d.setF Reg.GOV_STAT_VCORE (d.f Reg.GOV_PIN_V)
    d.setB Reg.GOV_STAT_PINNED (d.railNow == 5 * d.f Reg.GOV_PIN_V)
  else
    let d := d.setF Reg.GOV_STAT_PINNED 0
    if d.hot && decide (d.f Reg.GOV_STAT_VCORE < 20) then d.setF Reg.GOV_STAT_VCORE 20 else d

/-- PIN_REACHED: the rail arrives at the pinned value (R43). -/
def execPinReached (s : State) : Host.Outcome State Fault Refusal := s.done s.dev.pinRail.review

/-- GOV_CTL_WRITE: PIN and EN are refused under STRICT (R223), the rest written; the pin acts at once (R43). -/
def execGovCtlWrite (src : Src) (data : Word) (s : State) : Host.Outcome State Fault Refusal :=
  s.done (s.dev.onWrite src Reg.GOV_CTL_at (fun d =>
    let strict := d.bit Reg.SLICE_MODE_STRICT
    (d.writeRowWith src Reg.GOV_CTL_at data.toNat (fun f =>
      if strict && f.lo ≤ 1 then .refuse else .act)).pinRail.review))

/-- CLR: a write of GOV_SLACK_CLR with CLR = 1 (R41). -/
def execClr (src : Src) (data : Word) (s : State) : Host.Outcome State Fault Refusal :=
  s.done (s.dev.onWrite src Reg.GOV_SLACK_CLR_at (fun d =>
    if data.toNat.testBit 0 then forEach 8 d (fun d u => d.setF (Reg.GOV_SLACK_MIN u) 0x7FFF) else d))

end Sys2Proof.Machine
end

