-- ==== Sys2Proof/Machine/CanCmds.lean ====
section
/-!
DEFINITION. The CAN FD controllers and the bus-off supervisor (R282–R297).
-/

namespace Sys2Proof.Machine
open Sys2Proof

/-- Change one controller. -/
def Dev.modCan (d : Dev) (n : Fin 8) (f : Can → Can) : Dev := d.setCan (put d.can n (f d.can[n]))

/-- Set a controller event (R433). -/
def Dev.canEvt (d : Dev) (n : Fin 8) (r : Nat → RF) : Dev := d.raise (r n.1) 1 (32 + n.1)

/-- The controller takes part on the bus (R287, R289, R317). -/
def Dev.canActive (d : Dev) (n : Fin 8) : Bool :=
  d.f (Reg.PWR_QTAG_STATE (24 + n.1)) == 0 && !d.bit (Reg.CAN_CTL_INIT n.1) && d.bit (Reg.CAN_STAT_SYNC n.1) &&
  d.f (Reg.CAN_STAT_STATE n.1) < 2

/-- The state the counters give (R289). [DEDUCED, log 72] -/
def Dev.canStateOf (d : Dev) (n : Fin 8) : Nat :=
  if d.f (Reg.CAN_ECNT_TEC n.1) > 255 then 2
  else if d.f (Reg.CAN_ECNT_TEC n.1) ≥ 128 ∨ d.f (Reg.CAN_ECNT_REC n.1) ≥ 128 then 1 else 0

/-! ### INIT (R283, R287) -/

/-- A buffer ends; its bit is set in the given register (R296). -/
def Dev.endBuf (d : Dev) (n : Fin 8) (b : Fin 32) (r : RF) : Dev :=
  let d := ((d.setTb (Reg.CAN_TXBUSY_BUF n.1) b.1 false).setTb (Reg.CAN_TXGO_BUF n.1) b.1 false).setTb (Reg.CAN_TXABORT_BUF n.1) b.1 false
  (d.note r (2 ^ b.1)).setTb r b.1 true

/-- A buffer is withdrawn (R297). [DEDUCED, log 72] -/
def Dev.withdraw (d : Dev) (n : Fin 8) (b : Fin 32) : Dev :=
  (d.endBuf n b (Reg.CAN_TXABORTED_BUF n.1)).canEvt n Reg.CAN_EVT_TX_ABORTED

/-- A frame of the controller is abandoned: its request stays pending, but if its withdrawal was asked (R297). [DEDUCED, log 72] -/
def Dev.abandon (d : Dev) (n : Fin 8) : Dev :=
  match (d.can[n]).onBus with
  | some b =>
    let d := d.modCan n (fun c => { c with onBus := none })
    if d.tb (Reg.CAN_TXABORT_BUF n.1) b.1 then d.withdraw n b else d
  | none => d

/-- The controller enters INIT; a frame of its own in progress is abandoned. [DEDUCED, log 72] -/
def Dev.canInit (d : Dev) (n : Fin 8) : Dev :=
  let d := (d.setF (Reg.CAN_CTL_INIT n.1) 1).setF (Reg.CAN_STAT_STATE n.1) 3
  (d.setF (Reg.CAN_STAT_SYNC n.1) 0).abandon n

/-- One phase's rules of R283: length range, sample point, rate limit, jump width. -/
def phaseOk (lo hi len sp sjw pre mtq : Nat) : Bool :=
  lo ≤ len && len ≤ hi && 2 ≤ sp && sp + 1 ≤ len && mtq ≤ len * pre && 1 ≤ sjw && sjw ≤ min (len - sp) (sp - 1)

/-- The bit timing passes R283; the data-phase rules count only with FD_EN. -/
def Dev.canTiming (d : Dev) (n : Fin 8) : Bool :=
  let nl := d.f (Reg.CAN_NBT_LEN n.1)
  let np := d.f (Reg.CAN_PRESC_N_PRE n.1)
  let dl := d.f (Reg.CAN_DBT_LEN n.1)
  let dp := d.f (Reg.CAN_PRESC_D_PRE n.1)
  phaseOk 8 256 nl (d.f (Reg.CAN_NBT_SP n.1)) (d.f (Reg.CAN_NBT_SJW n.1)) np 80 &&
  (!d.bit (Reg.CAN_CTL_FD_EN n.1) ||
    (phaseOk 5 64 dl (d.f (Reg.CAN_DBT_SP n.1)) (d.f (Reg.CAN_DBT_SJW n.1)) dp 10 && dl * dp ≤ nl * np))

/-- A write of CAN_CTL: its other fields act; INIT = 1 enters INIT; INIT = 0 leaves it when the bit timing is valid, and
is refused and logged otherwise (R283). Leaving INIT starts bus integration. [DEDUCED, log 72] -/
def Dev.canCtl (d : Dev) (src : Src) (n : Fin 8) (w : Nat) : Dev :=
  let d := d.writeRest src (Reg.CAN_CTL_at n.1) w [0]
  if w.testBit 0 then (if d.bit (Reg.CAN_CTL_INIT n.1) then d else d.canInit n)
  else if !d.bit (Reg.CAN_CTL_INIT n.1) then d
  else if d.canTiming n then
    let d := (d.setF (Reg.CAN_CTL_INIT n.1) 0).setF (Reg.CAN_STAT_SYNC n.1) 0
    d.setF (Reg.CAN_STAT_STATE n.1) (d.canStateOf n)
  else d.logRefused src (Reg.CAN_CTL_at n.1)

/-- INIT_CLEAR: a write of CAN_CTL. -/
def execInitClear (src : Src) (n : Fin 8) (data : Word) (s : State) : Host.Outcome State Fault Refusal :=
  s.done (s.dev.onWrite src (Reg.CAN_CTL_at n.1) (fun d => d.canCtl src n data.toNat))

/-- BUS_INTEGRATION: after 11 recessive bits the controller takes part (R287); in bus-off recovery they are one occurrence of the
count (R290). [DEDUCED, log 73] -/
def Dev.canIntegrate (d : Dev) (n : Fin 8) : Dev :=
  if d.f (Reg.PWR_QTAG_STATE (24 + n.1)) = 0 ∧ !d.bit (Reg.CAN_CTL_INIT n.1) ∧ d.f (Reg.CAN_STAT_STATE n.1) < 2 then
    d.setF (Reg.CAN_STAT_SYNC n.1) 1
  else if d.f (Reg.PWR_QTAG_STATE (24 + n.1)) = 0 ∧ d.bit (Reg.CAN_STAT_RECOV n.1) then
    d.setF (Reg.CAN_SUP_STAT_REMAIN n.1) (d.f (Reg.CAN_SUP_STAT_REMAIN n.1) - 1)
  else d

/-- BUS_INTEGRATION. -/
def execBusIntegration (n : Fin 8) (s : State) : Host.Outcome State Fault Refusal := s.done (s.dev.canIntegrate n)

/-! ### The message area (R293) -/

/-- Address of an element: 0–31 FIFO0, 32–63 FIFO1, 64–95 the transmit buffers. -/
def Dev.canElem (d : Dev) (n : Fin 8) (i : Nat) : Nat :=
  (d.f64 (Reg.CAN_AREA_LO_ADDR n.1) (Reg.CAN_AREA_HI_ADDR n.1)) % 2 ^ 40 + 80 * i

/-- An access of a controller to its area fails: denied by the checker or with no memory to serve it; AREA_ERR is set and
the controller enters INIT (R293). -/
def Dev.canAreaErr (d : Dev) (n : Fin 8) (kind : AccessKind) (addr : Nat) : Dev :=
  ((d.engineFail 10 0 kind addr).canEvt n Reg.CAN_EVT_AREA_ERR).canInit n

/-- What an access to an element of the area meets (R293, R307, R310). -/
def Dev.canReach (d : Dev) (n : Fin 8) (kind : AccessKind) (i : Nat) : Reach := d.reach 10 0 kind (d.canElem n i) 80

/-- Data length a DLC names. -/
def dlcLen (fd : Bool) (dlc : Nat) : Nat :=
  if dlc ≤ 8 then dlc else if fd then [12, 16, 20, 24, 32, 48, 64].getD (dlc - 9) 64 else 8

/-- The DLC of a data length; none for a length that is not in the list (R293). -/
def lenDlc (len : Nat) : Option Nat :=
  if len ≤ 8 then some len else
    match [12, 16, 20, 24, 32, 48, 64].findIdx? (fun x => x == len) with
    | some i => some (i + 9)
    | none => none

/-- TS of an edge: a multiple of 5 ticks (R293). [DEDUCED, log 73] -/
def canTs (sof : Nat) : Nat := 5 * (sof / 5)

/-! ### The bit clock (R284) -/

/-- Bit timing of one phase: prescaler in kernel periods, and in quanta the bit length, the sample point and the jump width. -/
structure CanRate where
  pre : Nat
  len : Nat
  sp : Nat
  sjw : Nat
  deriving DecidableEq, Repr

/-- The timing of the nominal or the data phase. -/
def Dev.canRate (d : Dev) (n : Fin 8) (data : Bool) : CanRate :=
  if data then
    ⟨d.f (Reg.CAN_PRESC_D_PRE n.1), d.f (Reg.CAN_DBT_LEN n.1), d.f (Reg.CAN_DBT_SP n.1), d.f (Reg.CAN_DBT_SJW n.1)⟩
  else ⟨d.f (Reg.CAN_PRESC_N_PRE n.1), d.f (Reg.CAN_NBT_LEN n.1), d.f (Reg.CAN_NBT_SP n.1), d.f (Reg.CAN_NBT_SJW n.1)⟩

/-- Quanta of the present bit that have passed at an instant. -/
def CanClock.quanta (c : CanClock) (r : CanRate) (t : Nat) : Nat := (t - c.start) / r.pre

/-- The clock run on to an instant: bits that have ended by then are followed by bits of the phase's own timing. -/
def CanClock.runTo (c : CanClock) (r : CanRate) (t : Nat) : CanClock :=
  let q := c.quanta r t
  if q < c.len then (if c.sp ≤ q && !c.passed then { c with passed := true, synced := false } else c)
  else
    let past := q - c.len
    let passed := decide (r.sp ≤ past % r.len)
    { start := c.start + r.pre * (c.len + past / r.len * r.len), sp := r.sp, len := r.len, data := c.data, passed,
      synced := c.synced && c.passed && !passed && past / r.len == 0 }

/-- An edge at an instant (R284): before the sample point it delays it by min(e, SJW) quanta, after it it shortens phase segment 2 by
min(|e|, SJW); once between two sample points. -/
def CanClock.resync (c : CanClock) (r : CanRate) (t : Nat) : CanClock :=
  let c := c.runTo r t
  let q := c.quanta r t
  if c.synced || q == 0 then c
  else if c.passed then { c with len := c.len - min (c.len - q) r.sjw, synced := true }
  else { c with sp := c.sp + min q r.sjw, len := c.len + min q r.sjw, synced := true }

/-- One event of the bus on a controller's bit clock; the sample point of a change of phase is that of a bit of the new phase.
[DEDUCED, log 127] -/
def Dev.canEdge (d : Dev) (n : Fin 8) (c : CanClock) (e : CanEdge) : CanClock :=
  let r := d.canRate n c.data
  match e with
  | .hard t => { start := t, sp := r.sp, len := r.len, data := c.data }
  | .fall t own => if own then c.runTo r t else c.resync r t
  | .phase t data =>
    let r := d.canRate n data
    { start := t - r.sp * r.pre, sp := r.sp, len := r.len, data, passed := true }

/-- The bit clock follows what the bus did. [DEDUCED, log 127] -/
def Dev.canEdges (d : Dev) (n : Fin 8) (es : List CanEdge) : Dev :=
  d.modCan n (fun c => { c with clock := es.foldl (d.canEdge n) c.clock })

/-- A start-of-frame edge hard-synchronizes, in the nominal phase. -/
def Dev.canSof (d : Dev) (n : Fin 8) : Dev :=
  d.modCan n (fun c => { c with clock := d.canEdge n { c.clock with data := false } (.hard 0) })

/-! ### Reception (R294, R295) -/

/-- A filter field as it stood at an instant: a write after it has not taken effect (R294). -/
def Dev.filtAt (d : Dev) (n : Fin 8) (sof : Nat) (r : RF) : Nat :=
  match (d.can[n]).filtLog.find? (fun e => e.1 == r && decide (sof < e.2.2)) with
  | some e => e.2.1
  | none => d.f r

/-- Keep what a filter's fields held before a write (R294). -/
def Dev.logFilter (d old : Dev) (n : Fin 8) (f : Nat) : Dev :=
  [Reg.CAN_FILT_MATCH_ID n.1 f, Reg.CAN_FILT_MATCH_ACT n.1 f, Reg.CAN_FILT_MATCH_EXT n.1 f, Reg.CAN_FILT_MASK_MASK n.1 f].foldl
    (fun d r => if old.f r = d.f r then d
      else d.modCan n (fun c => { c with filtLog := c.filtLog ++ [(r, old.f r, d.now)] })) d

/-- Filter f, as it stood at the frame's start, takes part for the frame and matches it. [DEDUCED, log 73] -/
def Dev.filterHits (d : Dev) (n : Fin 8) (fr : CanFrame) (sof f : Nat) : Bool :=
  let w := if fr.ext then 29 else 11
  let m := d.filtAt n sof (Reg.CAN_FILT_MASK_MASK n.1 f)
  d.filtAt n sof (Reg.CAN_FILT_MATCH_ACT n.1 f) != 0 && d.filtAt n sof (Reg.CAN_FILT_MATCH_EXT n.1 f) == (if fr.ext then 1 else 0) &&
  (fr.id &&& m) % 2 ^ w == (d.filtAt n sof (Reg.CAN_FILT_MATCH_ID n.1 f) &&& m) % 2 ^ w

/-- Where an error-free frame goes: FIFO, FILTER and NOMATCH; none: rejected (R294). -/
def Dev.canRoute (d : Dev) (n : Fin 8) (fr : CanFrame) (sof : Nat) : Option (Fin 2 × Nat × Bool) :=
  let rem := d.f (Reg.CAN_RXDEF_REMOTE n.1)
  if fr.remote ∧ (rem = 1 ∨ (rem = 2 ∧ !fr.ext) ∨ (rem = 3 ∧ fr.ext)) then none
  else match (List.range 64).find? (fun f => d.filterHits n fr sof f) with
    | some f =>
      match d.filtAt n sof (Reg.CAN_FILT_MATCH_ACT n.1 f) with
      | 2 => some (0, f, false)
      | 3 => some (1, f, false)
      | _ => none
    | none =>
      match d.f (if fr.ext then Reg.CAN_RXDEF_EXT_DEST n.1 else Reg.CAN_RXDEF_BASE_DEST n.1) with
      | 1 => some (0, 0xFF, true)
      | 2 => some (1, 0xFF, true)
      | _ => none

/-- The 80 bytes of a received element (R293); the bytes beyond LEN are a free value. [DEDUCED, log 73] -/
def canElemBytes (fr : CanFrame) (filter : Nat) (unm : Bool) (sof pad : Nat) : List Byte :=
  let b (x : Bool) (i : Nat) : Nat := if x then 2 ^ i else 0
  let len := dlcLen fr.fd (fr.dlc % 16)
  let data := fr.data.take len
  leBytes 4 (fr.id % 2 ^ (if fr.ext then 29 else 11)) ++
  leBytes 2 (b fr.ext 0 + b fr.remote 1 + b fr.fd 2 + b fr.brs 3 + b fr.esi 4 + b unm 5 + 64 * (fr.dlc % 16)) ++
  leBytes 1 len ++ leBytes 1 filter ++ leBytes 8 (canTs sof) ++ data ++ leBytes (64 - data.length) pad

/-- Entries of FIFO i. [DESIGN CHOICE, log 74] -/
def Dev.canFill (d : Dev) (n : Fin 8) (i : Fin 2) : Int :=
  sdiff32 (d.f (Reg.CAN_FIFO_PI_IDX n.1 i.1)) (d.f (Reg.CAN_FIFO_CI_IDX n.1 i.1))

/-- One of three event bits of FIFO i: 0 new, 1 watermark, 2 lost. -/
def fifoEvt (i : Fin 2) (e : Nat) : Nat → RF :=
  if i = 0 then (match e with | 0 => Reg.CAN_EVT_F0_NEW | 1 => Reg.CAN_EVT_F0_WM | _ => Reg.CAN_EVT_F0_LOST)
  else (match e with | 0 => Reg.CAN_EVT_F1_NEW | 1 => Reg.CAN_EVT_F1_WM | _ => Reg.CAN_EVT_F1_LOST)

/-- Store a complete element at PI and advance it (R295). -/
def Dev.canPut (d : Dev) (n : Fin 8) (i : Fin 2) (bs : List Byte) : Dev :=
  let fill := d.canFill n i
  let pi := d.f (Reg.CAN_FIFO_PI_IDX n.1 i.1)
  let wm : Nat := d.f (Reg.CAN_FIFO_CFG_WM n.1 i.1)
  let d := (d.post (d.canElem n (32 * i.1 + pi % 32)) bs).wrap (Reg.CAN_FIFO_PI_IDX n.1 i.1)
  let d := d.canEvt n (fifoEvt i 0)
  if wm ≠ 0 ∧ fill < wm ∧ wm ≤ d.canFill n i then d.canEvt n (fifoEvt i 1) else d

/-- Elements of FIFO i that wait to be stored. -/
def Dev.canWaiting (d : Dev) (n : Fin 8) (i : Fin 2) : Nat := ((d.can[n]).rxWait.filter (fun w => w.1 == i)).length

/-- A full FIFO loses an element: the new one, or its oldest under MODE = 1 (R295). -/
def Dev.canLost (d : Dev) (n : Fin 8) (i : Fin 2) : Dev :=
  (d.bump (Reg.CAN_FIFO_LOST_COUNT n.1 i.1)).canEvt n (fifoEvt i 2)

/-- Store an element: a full FIFO loses the new one, or its oldest under MODE = 1 (R295). An element waits while a checker is waited
for, behind those that wait for its FIFO already and counted as if they were stored (R310). -/
def Dev.canDeliver (d : Dev) (n : Fin 8) (i : Fin 2) (bs : List Byte) : Dev :=
  let at_ := 32 * i.1 + d.f (Reg.CAN_FIFO_PI_IDX n.1 i.1) % 32
  let full := decide (32 ≤ d.canFill n i + d.canWaiting n i)
  if full && !d.bit (Reg.CAN_FIFO_CFG_MODE n.1 i.1) then d.canLost n i
  else if d.canWaiting n i ≠ 0 then d.modCan n (fun c => { c with rxWait := c.rxWait ++ [(i, bs)] })
  else match d.canReach n .write at_ with
    | .opened => if full then ((d.canLost n i).wrap (Reg.CAN_FIFO_CI_IDX n.1 i.1)).canPut n i bs else d.canPut n i bs
    | .waits => d.modCan n (fun c => { c with rxWait := c.rxWait ++ [(i, bs)] })
    | .fails a => (if full then d.canLost n i else d).canAreaErr n .write a

/-- The TS of a sent buffer is written, and the buffer ends sent; while a checker is waited for it waits, and an access error leaves the
request pending, but if its withdrawal was asked (R293, R296, R310). [DEDUCED, log 72] -/
def Dev.canStamp (d : Dev) (n : Fin 8) (b : Fin 32) (sof : Nat) : Dev :=
  match d.canReach n .write (64 + b.1) with
  | .opened =>
    ((d.post (d.canElem n (64 + b.1) + 8) (leBytes 8 (canTs sof))).endBuf n b (Reg.CAN_TXSENT_BUF n.1)).canEvt n Reg.CAN_EVT_TX_SENT
  | .waits => d.modCan n (fun c => { c with tsWait := some (b, sof) })
  | .fails a =>
    let d := d.canAreaErr n .write a
    if d.tb (Reg.CAN_TXABORT_BUF n.1) b.1 then d.withdraw n b else d

/-- Deliver what waited, once the checker admits it. -/
def Dev.canFlush (d : Dev) (n : Fin 8) : Dev :=
  let ws := (d.can[n]).rxWait
  let d := ws.foldl (fun d w => d.canDeliver n w.1 w.2) (d.modCan n (fun c => { c with rxWait := [] }))
  match (d.can[n]).tsWait with
  | some (b, sof) => (d.modCan n (fun c => { c with tsWait := none })).canStamp n b sof
  | none => d

/-- An error-free frame: filtered and stored (R294); filter writes made before its start need no record any more. -/
def Dev.canAccept (d : Dev) (n : Fin 8) (fr : CanFrame) (sof : Nat) : Dev :=
  let dest := d.canRoute n fr sof
  let d := d.modCan n (fun c => { c with filtLog := c.filtLog.filter (fun e => sof < e.2.2) })
  match dest with
  | none => d
  | some (i, f, nm) =>
    let x := d.free 512
    x.2.canDeliver n i (canElemBytes fr f nm sof x.1)

/-! ### Error confinement and bus-off (R289–R292) -/

/-- The recovery count starts (R290). -/
def Dev.canRecover (d : Dev) (n : Fin 8) : Dev :=
  (d.setF (Reg.CAN_STAT_RECOV n.1) 1).setF (Reg.CAN_SUP_STAT_REMAIN n.1) (128 * d.f (Reg.CAN_SUP_CFG_MULT n.1))

/-- Instants of bus-offs still in the window of WIN seconds. -/
def Dev.boffNow (d : Dev) (n : Fin 8) : List Nat :=
  (d.can[n]).boff.filter (fun t => decide (d.up < t + 400000000 * d.f (Reg.CAN_SUP_CFG_WIN n.1)))

/-- RESTART clears the latch and the window count, and starts recovery (R291). -/
def Dev.canRestart (d : Dev) (n : Fin 8) : Dev :=
  let d := (d.setF (Reg.CAN_SUP_STAT_LATCHED n.1) 0).setF (Reg.CAN_SUP_STAT_BOCNT n.1) 0
  let d := d.modCan n (fun c => { c with boff := [] })
  if d.f (Reg.CAN_STAT_STATE n.1) = 2 ∧ !d.bit (Reg.CAN_STAT_RECOV n.1) then d.canRecover n else d

/-- Bus-off: counted, perhaps latched, and recovery started if the policy says so (R290, R291), or by a RESTART of the same instant,
which acts after it. [DEDUCED, log 73] -/
def Dev.busOff (d : Dev) (n : Fin 8) : Dev :=
  let d := (d.setF (Reg.CAN_STAT_STATE n.1) 2).setF (Reg.CAN_STAT_SYNC n.1) 0
  let d := (d.bump (Reg.CAN_BOFF_CNT_COUNT n.1)).canEvt n Reg.CAN_EVT_BUSOFF
  let lim := d.f (Reg.CAN_SUP_CFG_LIMIT n.1)
  let d := if lim = 0 then d else
    let ws := (d.up :: d.boffNow n).take 255
    let d := (d.modCan n (fun c => { c with boff := ws })).setF (Reg.CAN_SUP_STAT_BOCNT n.1) ws.length
    if ws.length ≥ lim then (d.setF (Reg.CAN_SUP_STAT_LATCHED n.1) 1).canEvt n Reg.CAN_EVT_LATCH else d
  if (d.can[n]).restartAt = some d.now then d.canRestart n
  else if d.bit (Reg.CAN_SUP_CFG_AUTO n.1) && !d.bit (Reg.CAN_SUP_STAT_LATCHED n.1) then d.canRecover n else d

/-- The counters take new values: WARN when either first reaches 96, and the state follows (R289). [DESIGN CHOICE, log 74] -/
def Dev.canCounters (d : Dev) (n : Fin 8) (tec rec : Nat) : Dev :=
  let t0 := d.f (Reg.CAN_ECNT_TEC n.1)
  let r0 := d.f (Reg.CAN_ECNT_REC n.1)
  let s0 := d.canStateOf n
  let d := (d.setF (Reg.CAN_ECNT_TEC n.1) (min tec 511)).setF (Reg.CAN_ECNT_REC n.1) (min rec 255)
  let d := if (t0 < 96 ∧ 96 ≤ tec) ∨ (r0 < 96 ∧ 96 ≤ rec) then d.canEvt n Reg.CAN_EVT_WARN else d
  let s1 := d.canStateOf n
  if s1 = 2 then d.busOff n
  else
    let d := d.setF (Reg.CAN_STAT_STATE n.1) s1
    if s0 = 0 ∧ s1 = 1 then d.canEvt n Reg.CAN_EVT_PASSIVE else d

/-- An attempt lost arbitration or met an error: the buffer is withdrawn if that was asked, fails under ONESHOT, and
stays pending otherwise (R296, R297). [DEDUCED, log 72] -/
def Dev.attemptFails (d : Dev) (n : Fin 8) (b : Fin 32) : Dev :=
  let d := d.modCan n (fun c => { c with onBus := none })
  if d.tb (Reg.CAN_TXABORT_BUF n.1) b.1 then d.withdraw n b
  else if d.bit (Reg.CAN_CTL_ONESHOT n.1) then d.endBuf n b (Reg.CAN_TXFAIL_BUF n.1)
  else d

/-- What an error adds to TEC and REC (R289): 8 to TEC for the transmitter, 1 to REC for a receiver, or 8 for a bit of its flag or a dominant bit
after it; the exceptions are a transmitter's alone. [DESIGN CHOICE, log 74] -/
def canAdds (tx passive : Bool) (err : CanErr) (count : CanCount) : Nat × Nat :=
  if tx then (if count == .exempt && (err == .stuff || err == .ack && passive) then (0, 0) else (8, 0))
  else if count == .flagBit || count == .dominant then (0, 8)
  else (0, 1)

/-- Send a flag or an acknowledgement: not under LISTEN, and under LOOP not on the ball (R288). -/
def Dev.canSignal (d : Dev) (n : Fin 8) (o : Output) : Dev :=
  if d.bit (Reg.CAN_CTL_LISTEN n.1) || d.bit (Reg.CAN_CTL_LOOP n.1) then d else d.emit o

/-- A protocol error: recorded in its phase, signalled by an error flag of the controller's state, the end of the controller's own attempt, and
counted by the controller's part in the frame, which a dominant bit after the flag keeps (R288, R289). A recessive res bit is a protocol
exception under PEX_EN and a form error otherwise. [DESIGN CHOICE, log 74] -/
def Dev.canError (d : Dev) (n : Fin 8) (err : CanErr) (dataPhase : Bool) (count : CanCount) : Dev :=
  if !d.canActive n then d
  else if err == .resBit && d.bit (Reg.CAN_CTL_PEX_EN n.1) then
    (d.setF (Reg.CAN_STAT_SYNC n.1) 0).canEvt n Reg.CAN_EVT_PEX
  else if err == .ack && d.bit (Reg.CAN_CTL_LOOP n.1) then d
  else
    let passive := d.f (Reg.CAN_STAT_STATE n.1) == 1
    let tx := if count == .dominant || count == .flagBit then (d.can[n]).errTx else ((d.can[n]).onBus).isSome
    let d := if count == .dominant then d else
      let code := match err with
        | .bitRecessive => 1 | .bitDominant => 2 | .stuff => 3 | .form => 4 | .crc => 5 | .ack => 6 | .resBit => 4
      let d := d.setF (if dataPhase then Reg.CAN_STAT_ERR_D n.1 else Reg.CAN_STAT_ERR_N n.1) code
      let d := (d.canSignal n (.canErrorFlag n.1 !passive)).modCan n (fun c => { c with errTx := tx })
      match (d.can[n]).onBus with
      | some b => d.attemptFails n b
      | none => d
    let x := canAdds tx passive err count
    d.canCounters n (d.f (Reg.CAN_ECNT_TEC n.1) + x.1) (d.f (Reg.CAN_ECNT_REC n.1) + x.2)

/-- CAN_ERROR. -/
def execCanError (n : Fin 8) (err : CanErr) (dataPhase : Bool) (count : CanCount) (s : State) :
    Host.Outcome State Fault Refusal := s.done (s.dev.canError n err dataPhase count)

/-- RECOVERED: the count is complete; the controller is error-active with both counters zero (R290). [DEDUCED, log 73] -/
def Dev.canRecovered (d : Dev) (n : Fin 8) : Dev :=
  if d.f (Reg.CAN_STAT_STATE n.1) = 2 ∧ d.bit (Reg.CAN_STAT_RECOV n.1) ∧ d.f (Reg.CAN_SUP_STAT_REMAIN n.1) = 0 then
    let d := (d.setF (Reg.CAN_ECNT_TEC n.1) 0).setF (Reg.CAN_ECNT_REC n.1) 0
    let d := (d.setF (Reg.CAN_STAT_RECOV n.1) 0).setF (Reg.CAN_SUP_STAT_REMAIN n.1) 0
    ((d.setF (Reg.CAN_STAT_STATE n.1) 0).setF (Reg.CAN_STAT_SYNC n.1) 1).canEvt n Reg.CAN_EVT_RECOVERED
  else d

/-- RECOVERED. -/
def execRecovered (n : Fin 8) (s : State) : Host.Outcome State Fault Refusal := s.done (s.dev.canRecovered n)

/-- A write of CAN_SUP_CMD (R291). -/
def Dev.supCmd (d : Dev) (n : Fin 8) (w : Nat) : Dev :=
  if w.testBit 0 then (d.canRestart n).modCan n (fun c => { c with restartAt := some d.now }) else d

/-- CAN_RESTART: a write of CAN_SUP_CMD. -/
def execCanRestart (src : Src) (n : Fin 8) (data : Word) (s : State) : Host.Outcome State Fault Refusal :=
  s.done (s.dev.onWrite src (Reg.CAN_SUP_CMD_at n.1) (fun d => d.supCmd n data.toNat))

/-- CAN_FRAME_RECEIVE: the bit clock follows the frame's edges (R284); an FD frame without FD_EN is a form error (R282); an error-free
frame is acknowledged (R288), counts REC down (R289) and is filtered. The controller's own frames are not received here (R294). -/
def Dev.canReceive (d : Dev) (n : Fin 8) (fr : CanFrame) (sof : Nat) (edges : List CanEdge) : Dev :=
  if !d.canActive n ∨ d.bit (Reg.CAN_CTL_LOOP n.1) then d
  else
  let d := (d.canSof n).canEdges n edges
  if fr.fd && !d.bit (Reg.CAN_CTL_FD_EN n.1) then d.canError n .form false .detected
  else
    let d := d.canSignal n (.canAck n.1)
    let r := d.f (Reg.CAN_ECNT_REC n.1)
    let x := d.free 8
    let d := if r = 0 then d
      else if r ≤ 127 then d.canCounters n (d.f (Reg.CAN_ECNT_TEC n.1)) (r - 1)
      else x.2.canCounters n (d.f (Reg.CAN_ECNT_TEC n.1)) (119 + x.1 % 9)
    d.canAccept n fr sof

/-- CAN_FRAME_RECEIVE. -/
def execCanFrameReceive (n : Fin 8) (frame : CanFrame) (sof : CanSof) (s : State) : Host.Outcome State Fault Refusal :=
  s.done (s.dev.canReceive n frame sof.at_ sof.edges)

/-! ### Transmission (R293, R296, R297) -/

/-- The frame a transmit buffer's element spells; none when it breaks a rule of R293. -/
def Dev.canBuffer (d : Dev) (word : Nat → Nat → Nat) (mem : Nat → Nat → List Byte) (n : Fin 8) (b : Nat) : Option CanFrame :=
  let a := d.canElem n (64 + b)
  let fl := word (a + 4) 2
  let len := word (a + 6) 1
  let fd := fl.testBit 2
  match lenDlc len with
  | none => none
  | some dlc =>
    if (8 < len ∧ (!fd ∨ fl.testBit 1)) ∨ (fd ∧ !d.bit (Reg.CAN_CTL_FD_EN n.1)) then none
    else some
      { id := word a 4 % 2 ^ (if fl.testBit 0 then 29 else 11), ext := fl.testBit 0, remote := fl.testBit 1, fd := fd
        brs := fd && fl.testBit 3 && d.bit (Reg.CAN_CTL_BRS_EN n.1), esi := fd && d.f (Reg.CAN_STAT_STATE n.1) == 1
        dlc := dlc, data := if fl.testBit 1 then [] else mem (a + 16) len }

/-- The arbitration field in the bit order of ISO 11898-1, dominant bits as zeros: the lowest wins (R296). -/
def arbKey (fr : CanFrame) : Nat :=
  let r : Nat := if fr.remote then 1 else 0
  if fr.ext then (4 * (fr.id / 2 ^ 18 % 2 ^ 11) + 3) * 2 ^ 19 + 2 * (fr.id % 2 ^ 18) + r
  else (4 * (fr.id % 2 ^ 11) + 2 * r) * 2 ^ 19

/-- Buffer b is pending. [DEDUCED, log 73] -/
def Dev.canPending (d : Dev) (n : Fin 8) (b : Fin 32) : Bool := d.tb (Reg.CAN_TXBUSY_BUF n.1) b.1

/-- What reading the elements of all pending buffers, but for the one on the bus, meets (R296, R310). -/
def Dev.canReads (d : Dev) (n : Fin 8) : Reach :=
  Reach.all (((List.finRange 32).filter (fun b => d.canPending n b && (d.can[n]).onBus != some b)).map
    (fun b => d.canReach n .read (64 + b.1)))

/-- Pending buffers that break a rule of R293 end at once in TXFAIL; an area that cannot be read is an access error; while a
checker is waited for, nothing is read. -/
def Dev.canValidate (d : Dev) (word : Nat → Nat → Nat) (mem : Nat → Nat → List Byte) (n : Fin 8) : Dev :=
  match d.canReads n with
  | .waits => d
  | .fails a => d.canAreaErr n .read a
  | .opened => (List.finRange 32).foldl (fun d b =>
    if d.canPending n b && (d.can[n]).onBus != some b && (d.canBuffer word mem n b.1).isNone then
      d.endBuf n b (Reg.CAN_TXFAIL_BUF n.1) else d) d

/-- Buffers a withdrawal of this very instant named before they were requested (R297). -/
def Dev.abortNow (d : Dev) (n : Fin 8) : Nat :=
  match (d.can[n]).abortAt with
  | some (t, m) => if t = d.now then m else 0
  | none => 0

/-- TXGO: bits written as 1 become pending (R296); a withdrawal of the same instant acts on them, so that they are not offered.
[DEDUCED, log 72] -/
def Dev.txgo (d : Dev) (word : Nat → Nat → Nat) (mem : Nat → Nat → List Byte) (n : Fin 8) (w : Nat) : Dev :=
  let d := (List.finRange 32).foldl (fun d b =>
    if w.testBit b.1 && !d.canPending n b then
      let d := (d.setTb (Reg.CAN_TXBUSY_BUF n.1) b.1 true).setTb (Reg.CAN_TXGO_BUF n.1) b.1 true
      if (d.abortNow n).testBit b.1 then d.withdraw n b else d
    else d) d
  d.canValidate word mem n

/-- TXGO. -/
def execTxgo (src : Src) (n : Fin 8) (data : Word) (s : State) : Host.Outcome State Fault Refusal :=
  s.done (s.dev.onWrite src (Reg.CAN_TXGO_at n.1) (fun d => d.txgo s.memWord s.memBytes n data.toNat))

/-- TXABORT: a pending buffer is withdrawn at once, or after its attempt if its frame is on the bus (R297). [DEDUCED, log 72] -/
def Dev.txabort (d : Dev) (n : Fin 8) (w : Nat) : Dev :=
  let m := w ||| d.abortNow n
  let d := (List.finRange 32).foldl (fun d b =>
    if w.testBit b.1 && d.canPending n b then
      if (d.can[n]).onBus = some b ∨ ((d.can[n]).tsWait).map (·.1) = some b then d.setTb (Reg.CAN_TXABORT_BUF n.1) b.1 true else d.withdraw n b
    else d) d
  d.modCan n (fun c => { c with abortAt := some (d.now, m) })

/-- TXABORT. -/
def execTxabort (src : Src) (n : Fin 8) (data : Word) (s : State) : Host.Outcome State Fault Refusal :=
  s.done (s.dev.onWrite src (Reg.CAN_TXABORT_at n.1) (fun d => d.txabort n data.toNat))

/-- The pending buffer whose frame wins arbitration against the others; the lowest b at equal fields (R296). -/
def Dev.canChoose (d : Dev) (word : Nat → Nat → Nat) (mem : Nat → Nat → List Byte) (n : Fin 8) : Option (Fin 32 × CanFrame) :=
  (List.finRange 32).foldl (fun best b =>
    if d.canPending n b then
      match d.canBuffer word mem n b.1, best with
      | some fr, none => some (b, fr)
      | some fr, some (b', fr') => if arbKey fr < arbKey fr' then some (b, fr) else some (b', fr')
      | none, _ => best
    else best) none

/-- The frame was sent: TEC counts down, and the buffer ends sent with its TS; under LOOP the controller also receives it
(R288, R289, R293, R296). [DEDUCED, log 73] -/
def Dev.canSent (d : Dev) (n : Fin 8) (b : Fin 32) (fr : CanFrame) (sof : Nat) : Dev :=
  let d := d.modCan n (fun c => { c with onBus := none })
  let t := d.f (Reg.CAN_ECNT_TEC n.1)
  let d := if t = 0 then d else d.canCounters n (t - 1) (d.f (Reg.CAN_ECNT_REC n.1))
  let d := d.canStamp n b sof
  if d.bit (Reg.CAN_CTL_LOOP n.1) then d.canAccept n fr sof else d

/-- How far the frame of an attempt has come. -/
def canPlace : CanFate → CanPlace
  | .onBus p => p
  | .sent => .tail
  | .lost => .arbitration
  | .error _ p _ => p

/-- How an attempt goes on: still on the bus, sent, lost or ended by an error (R296). The FDF-to-res edge of an FD frame gives DLY; in a data phase
with SSP_EN, a secondary sample point beyond 255 mtq ends the frame with a bit error (R286). -/
def Dev.canAttempt (d : Dev) (n : Fin 8) (b : Fin 32) (fr : CanFrame) (sof dly : Nat) (fate : CanFate) : Dev :=
  let p := canPlace fate
  let d := if fr.fd && p != .arbitration then d.setF (Reg.CAN_SSP_DLY n.1) (min dly 255) else d
  let d := d.modCan n (fun c => { c with onBus := some b })
  if fr.brs && (p == .data || p == .tail) && d.bit (Reg.CAN_CTL_SSP_EN n.1) && decide (255 < dly + d.f (Reg.CAN_SSP_OFS n.1)) then
    let x := d.free 1
    x.2.canError n (if x.1 = 0 then .bitRecessive else .bitDominant) true .detected
  else match fate with
    | .onBus _ => d
    | .sent => d.canSent n b fr sof
    | .lost => d.attemptFails n b
    | .error err place count => d.canError n err (place == .data) count

/-- CAN_TRANSMIT: the attempt in progress goes on, or the winning pending buffer's frame starts (R296), and the bit clock follows the
frame's edges (R284). LISTEN sends nothing (R288). -/
def Dev.canTransmit (d : Dev) (word : Nat → Nat → Nat) (mem : Nat → Nat → List Byte) (n : Fin 8) (sof dly : Nat) (fate : CanFate)
    (edges : List CanEdge) : Dev :=
  if !d.canActive n ∨ (d.bit (Reg.CAN_CTL_LISTEN n.1) ∧ !d.bit (Reg.CAN_CTL_LOOP n.1)) then d
  else match (d.can[n]).onBus with
    | some b =>
      match d.canBuffer word mem n b.1 with
      | some fr => (d.canEdges n edges).canAttempt n b fr sof dly fate
      | none => d.attemptFails n b
    | none =>
      let d := d.canValidate word mem n
      if !d.canActive n ∨ d.canReads n ≠ .opened ∨ ((d.can[n]).tsWait).isSome then d
      else match d.canChoose word mem n with
        | none => d
        | some (b, fr) =>
          let d := if d.bit (Reg.CAN_CTL_LOOP n.1) then d else d.emit (.canFrame n.1 fr)
          ((d.canSof n).canEdges n edges).canAttempt n b fr sof dly fate

/-- CAN_TRANSMIT. -/
def execCanTransmit (n : Fin 8) (sof : CanSof) (dly : Nat) (fate : CanFate) (s : State) : Host.Outcome State Fault Refusal :=
  s.done (s.dev.canTransmit s.memWord s.memBytes n sof.at_ dly fate sof.edges)

/-- CAN_FIFO_CI_WRITE: a consumer index that passes the test of R147; a refused write is logged (R295). -/
def Dev.canCi (d : Dev) (src : Src) (n : Fin 8) (i : Fin 2) (c : Nat) : Dev :=
  if consumerOk (d.f (Reg.CAN_FIFO_PI_IDX n.1 i.1)) (d.f (Reg.CAN_FIFO_CI_IDX n.1 i.1)) c then
    d.setF (Reg.CAN_FIFO_CI_IDX n.1 i.1) c
  else d.logRefused src (Reg.CAN_FIFO_CI_at n.1 i.1)

/-- CAN_FIFO_CI_WRITE. -/
def execCanFifoCiWrite (src : Src) (n : Fin 8) (i : Fin 2) (data : Word) (s : State) : Host.Outcome State Fault Refusal :=
  s.done (s.dev.onWrite src (Reg.CAN_FIFO_CI_at n.1 i.1) (fun d => d.canCi src n i data.toNat))

end Sys2Proof.Machine
end

