-- ==== Sys2Proof/Machine/MadderCmds.lean ====
section
/-!
DEFINITION. Madder safety island (R374–R394). Instants count power-die time.
-/

namespace Sys2Proof.Machine
open Sys2Proof

/-- Change Madder. -/
def Dev.modMad (d : Dev) (f : Mad → Mad) : Dev := d.setMad (f d.mad)

/-! ### The configuration in force (R393) -/

/-- Word i of the configuration in force: 0–7 inputs, 8 times, 9 outputs. -/
def Dev.mcfg (d : Dev) (i : Nat) : Nat := d.mad.cfgA.getD i 0

/-- HB_TO in ticks. -/
def Dev.hbTo (d : Dev) : Nat := 10 * msTicks * bits (d.mcfg 8) 0 8

/-- FB_T in ticks. -/
def Dev.fbT (d : Dev) : Nat := 10 * msTicks * bits (d.mcfg 8) 25 7

/-- Class B output n is in use. -/
def Dev.sobEn (d : Dev) (n : Nat) : Bool := (d.mcfg 9).testBit (1 + n)

/-! ### Events and states (R383, R392) -/

/-- MAD_STAT as a word. -/
def Dev.madStat (d : Dev) : Nat :=
  match Reg.row Reg.MAD_STAT_at with
  | some row => d.rowWord row Reg.MAD_STAT_at
  | none => 0

/-- A Madder event: its bit, its source, its log entry (R392, R436). -/
def Dev.madEvt (d : Dev) (r : RF) : Dev := (d.linkRaise r 1 62).linkLog 0x07 62 (evInfo r.lo) (d.linkRaise r 1 62).madStat

/-- SF1's state (R383): 0 STOPPED, 1 TESTING, 2 ENERGIZED, 3 LOCKED. -/
def Dev.sf1 (d : Dev) : Nat := d.f Reg.MAD_STAT_SF1

/-- SF1 takes a state; the safe stop is asserted outside ENERGIZED (R375). Asserting it takes ON from the SAFE auxiliary
switches at once (R373), and the logic die will act on it. -/
def Dev.setSf1 (d : Dev) (x : Nat) : Dev :=
  let was := d.sf1
  let d := (d.setF Reg.MAD_STAT_SF1 x).setB Reg.MAD_STAT_SAFE_STOP (x != 2)
  if was = 2 ∧ x ≠ 2 then (d.modMad (fun m => { m with told := false })).auxSafeOff else d

/-- A Class B output's state. -/
def Dev.ob (d : Dev) (n : Nat) : Nat := bits (d.f Reg.MAD_STAT_OB) (2 * n) 2

/-- A Class B output takes a state; a change of its driver starts its feedback time (R382). -/
def Dev.setOb (d : Dev) (n : Fin 4) (x : Nat) : Dev :=
  let old := d.ob n.1
  let d := d.setF Reg.MAD_STAT_OB (d.f Reg.MAD_STAT_OB - old * 4 ^ n.1 + x * 4 ^ n.1)
  if (old = 2) = (x = 2) then d else d.modMad (fun m => { m with obAt := put m.obAt n d.up })

/-- The output under test is de-energized: the test's result is discarded (R389). -/
def Dev.discardPulse (d : Dev) (hit : Fin 8 → Bool) : Dev :=
  match d.mad.pulse with
  | some p => if hit p.out then d.modMad (fun m => { m with pulse := some { p with discard := true } }) else d
  | none => d

/-- SF1 acts: all Class A outputs de-energize, and a re-arm sequence is abandoned with every output of it STOPPED (R374,
R391). -/
def Dev.actSf1 (d : Dev) : Dev :=
  let d := d.discardPulse (fun o => o.1 < 4)
  let d := if d.sf1 = 1 ∨ d.sf1 = 2 then d.setSf1 0 else d
  match d.mad.rearm with
  | some (_, mask) =>
    let d := (List.finRange 4).foldl (fun d n => if mask.testBit n.1 ∧ d.ob n.1 = 2 then d.setOb n 0 else d) d
    (d.modMad (fun m => { m with rearm := none })).discardPulse (fun o => 4 ≤ o.1 && mask.testBit (o.1 - 4))
  | none => d

/-- SF2 acts on the outputs of a mask, and SF1 with it (R374). -/
def Dev.actSf2 (d : Dev) (mask : Nat) : Dev :=
  let d := d.discardPulse (fun o => 4 ≤ o.1 && mask.testBit (o.1 - 4))
  ((List.finRange 4).foldl (fun d n =>
    if mask.testBit n.1 ∧ (d.ob n.1 = 1 ∨ d.ob n.1 = 2) then d.setOb n 0 else d) d).actSf1

/-- A test or readback of an output fails (R388): it is LOCKED and counted; on a Class A output SF1 acts and locks.
[DEDUCED, log 115] -/
def Dev.failOut (d : Dev) (o : Fin 8) : Dev :=
  let d := d.bump Reg.MAD_CNT_TEST_FAIL_COUNT
  let d := if h : 4 ≤ o.1 then d.setOb ⟨o.1 - 4, by have := o.2; omega⟩ 3
    else (d.setTb Reg.MAD_STAT_SOA_FLT o.1 true).actSf1.setSf1 3
  d.madEvt Reg.MAD_EVT_TEST_FAIL

/-! ### The cycle (R375–R386) -/

/-- A channel's filter (R379): the level counts once it has held for the given ticks. -/
def MadIn.sample (x : MadIn) (level : Bool) (hold now : Nat) : MadIn :=
  if level = x.raw then (if x.since + hold ≤ now then { x with filt := level } else x)
  else { x with raw := level, since := now }

/-- Evaluate one input pair (R379): filters, discrepancy, demand. -/
def Dev.madInput (d : Dev) (n : Fin 8) (a b : Bool) : Dev :=
  let w := d.mcfg n.1
  let ia : Fin 16 := ⟨n.1, by have := n.2; omega⟩
  let ib : Fin 16 := ⟨n.1 + 8, by have := n.2; omega⟩
  let hold := msTicks * bits w 3 5
  let xa := (d.mad.ins[ia]).sample a hold d.up
  let xb := (d.mad.ins[ib]).sample b hold d.up
  let d := d.modMad (fun m => { m with ins := put (put m.ins ia xa) ib xb })
  let d := (d.setTb Reg.MAD_IN_A n.1 xa.filt).setTb Reg.MAD_IN_B n.1 xb.filt
  if !w.testBit 0 then
    let d := (d.setTb Reg.MAD_IN_DEMAND n.1 false).setTb Reg.MAD_IN_DISC n.1 false
    d.modMad (fun m => { m with diff := put m.diff n none, disc := put m.disc n 0 })
  else
    let since := if xa.filt = xb.filt then none else some ((d.mad.diff[n]).getD d.up)
    let late := match since with
      | some t => decide (t + 10 * msTicks * bits w 8 8 < d.up)
      | none => false
    let old := d.mad.disc[n]
    let stage : Nat :=
      if late then 1
      else if old = 1 ∧ !xa.filt ∧ !xb.filt then 2
      else if old = 2 ∧ xa.filt ∧ xb.filt then 0
      else old
    let d := d.modMad (fun m => { m with diff := put m.diff n since, disc := put m.disc n stage })
    let demand := !xa.filt || !xb.filt || stage != 0
    let fresh := demand && !d.tb Reg.MAD_IN_DEMAND n.1 && (w.testBit 16 || bits w 17 4 != 0)
    let d := (d.setTb Reg.MAD_IN_DEMAND n.1 demand).setTb Reg.MAD_IN_DISC n.1 (stage != 0)
    let d := if old = 0 ∧ stage ≠ 0 then d.madEvt Reg.MAD_EVT_DISC else d
    if fresh then d.madEvt Reg.MAD_EVT_DEMAND else d

/-- The demands that stand act the functions their inputs name (R380). -/
def Dev.madDemands (d : Dev) : Dev :=
  (List.finRange 8).foldl (fun d n =>
    let w := d.mcfg n.1
    if d.tb Reg.MAD_IN_DEMAND n.1 then
      if bits w 17 4 ≠ 0 then d.actSf2 (bits w 17 4) else if w.testBit 16 then d.actSf1 else d
    else d) d

/-- The heartbeat timeout (R13, R384): without an accepted beat for HB_TO every output stops; it acts again on outputs that a
re-arm under a longer HB_TO has energized since. [DEDUCED, log 87] -/
def Dev.hbCheck (d : Dev) : Dev :=
  if d.mad.beatAt.getD 0 + d.hbTo ≤ d.up then
    let d := d.setF Reg.MAD_STAT_HB_OK 0
    if d.mad.hbActed then d
    else ((d.actSf2 0xF).modMad (fun m => { m with hbActed := true })).madEvt Reg.MAD_EVT_HB_LOST
  else d.modMad (fun m => { m with hbActed := false })

/-- A pending request acts (R386). -/
def Dev.madRequest (d : Dev) : Dev :=
  match d.mad.req with
  | some mask => ((d.actSf2 mask).modMad (fun m => { m with req := none })).madEvt Reg.MAD_EVT_REQ
  | none => d

/-- Contactor monitoring of one Class B output (R382): feedback on while it is de-energized and off while it is energized,
FB_T after a change; not during its test pulse. [DESIGN CHOICE, log 90] -/
def Dev.fbCheck (d : Dev) (n : Fin 4) : Dev :=
  let pulsed := match d.mad.pulse with | some p => p.out.1 == 4 + n.1 | none => false
  let fb := d.tb Reg.MAD_STAT_FB n.1
  if d.sobEn n.1 && d.ob n.1 != 3 && !pulsed && (fb == (d.ob n.1 == 2)) && decide ((d.mad.obAt[n]) + d.fbT ≤ d.up) then
    ((d.setOb n 3).actSf1).madEvt Reg.MAD_EVT_FB_FAIL
  else d

/-- One Madder cycle: inputs, demands, heartbeat, request, supply monitor, readback, feedback. `rb` names the
outputs whose readback is out of state or that have a node shorted (R388). [DEDUCED, log 88] -/
def Dev.madCycle (d : Dev) (a b fb rb : Nat) : Dev :=
  let d := (List.finRange 8).foldl (fun d n => d.madInput n (a.testBit n.1) (b.testBit n.1)) d
  let d := (d.setF Reg.MAD_STAT_FB fb).madDemands
  let d := d.hbCheck.madRequest
  let d := if d.sup.vaux then d else d.actSf2 0xF
  let d := (List.finRange 8).foldl (fun d o =>
    let on := if o.1 < 4 then d.sf1 == 2 else d.ob (o.1 - 4) == 2
    let pulsed := match d.mad.pulse with | some p => p.out == o | none => false
    let locked := if o.1 < 4 then d.tb Reg.MAD_STAT_SOA_FLT o.1 else d.ob (o.1 - 4) == 3
    if rb.testBit o.1 && (on || !locked) && !pulsed then d.failOut o else d) d
  (List.finRange 4).foldl (fun d n => d.fbCheck n) d

/-- MADDER_CYCLE. [DESIGN CHOICE, log 90] -/
def execMadderCycle (a b fb rb : Nat) (s : State) : Host.Outcome State Fault Refusal := s.donePower (s.dev.madCycle a b fb rb)

/-- SAFE_STOP_KILL: the safe stop reaches the logic die, which broadcasts KILL and turns off the SAFE switches (R15, R66,
R373, R374). -/
def Dev.safeStopKill (d : Dev) : Dev :=
  if d.safeStop && !d.mad.told then ((d.modMad (fun m => { m with told := true })).broadcastKill).auxSafeOff else d

/-- SAFE_STOP_KILL. -/
def execSafeStopKill (s : State) : Host.Outcome State Fault Refusal := s.done s.dev.safeStopKill

/-- MADDER_SUPPLY_FAULT: every output de-energizes and stays LOCKED until power-on reset (R377). -/
def Dev.madFault (d : Dev) (cause : MadFault) : Dev :=
  let d := (d.actSf2 0xF).setSf1 3
  let d := (List.finRange 4).foldl (fun d n => d.setOb n 3) d
  let d := d.modMad (fun m => { m with hard := true })
  match cause with
  | .rail | .oscillator => (d.setF Reg.MAD_STAT_SUP_OK 0).madEvt Reg.MAD_EVT_SUP
  | .copies => d.setF Reg.MAD_STAT_CFG_OK 0

/-- MADDER_SUPPLY_FAULT. -/
def execMadderSupplyFault (cause : MadFault) (s : State) : Host.Outcome State Fault Refusal := s.donePower (s.dev.madFault cause)

/-- HB_LOST: the heartbeat timeout is evaluated (R384). -/
def execHbLost (s : State) : Host.Outcome State Fault Refusal := s.donePower s.dev.hbCheck

/-- FB_FAIL: the feedback of an output is evaluated (R382). -/
def execFbFail (n : Fin 4) (s : State) : Host.Outcome State Fault Refusal := s.donePower (s.dev.fbCheck n)

/-! ### Writes to the MADDER block -/

/-- A beat (R384, R385): accepted from the role holder, checked, with the next SEQ or after a handover with any; else
rejected and counted. A pair whose watchdog has expired sends none (R312). [DEDUCED, log 87] -/
def Dev.beat (d : Dev) (p : Nat) (w : Nat) : Dev :=
  let seq := bits w 0 8
  let unchecked := d.f (Reg.LS_STAT_STATE p) == 2
  if (d.cores[(if p = 0 then 4 else 5 : Fin 6)]).expired then d
  else
    let d := d.setB Reg.MAD_HB_STAT_UNCHECKED unchecked
    if d.f Reg.MAD_HB_STAT_PAIR = p ∧ !unchecked ∧ bits w 8 8 = 255 - seq ∧
        (d.mad.moved ∨ seq = (d.f Reg.MAD_HB_STAT_LAST + 1) % 256) then
      let d := (d.setF Reg.MAD_HB_STAT_LAST seq).setF Reg.MAD_STAT_HB_OK 1
      d.modMad (fun m => { m with beatAt := some d.up, hbActed := false, moved := false })
    else d.bump Reg.MAD_CNT_HB_REJ_COUNT

/-- A write of MAD_HB arrives. -/
def heartbeatNow (src : Src) (data : Word) (s : State) : Host.Outcome State Fault Refusal :=
  s.done (s.dev.onWrite src Reg.MAD_HB_at (fun d => d.beat (src.master.1 - 4) data.toNat))

/-- HEARTBEAT: a write of MAD_HB; a pair that is compared holds it back (R322). -/
def execHeartbeat (src : Src) (data : Word) (s : State) : Host.Outcome State Fault Refusal :=
  s.pairWrite src Reg.MAD_HB_at data (heartbeatNow src data s)

/-- A safety request waits for the next cycle (R386); without CONFIRM it breaks the field's rule. [DEDUCED, log 89, 114] -/
def Dev.safetyRequest (d : Dev) (src : Src) (w : Nat) : Dev :=
  if bits w 16 16 ≠ 0x5AFE then d.logR9 src Reg.MAD_REQ_at
  else if w.testBit 0 ∨ bits w 4 4 ≠ 0 then
    d.modMad (fun m => { m with req := some (m.req.getD 0 ||| bits w 4 4) })
  else d

/-- A write of MAD_REQ arrives. -/
def safetyRequestNow (src : Src) (data : Word) (s : State) : Host.Outcome State Fault Refusal :=
  s.done (s.dev.onWrite src Reg.MAD_REQ_at (fun d => d.safetyRequest src data.toNat))

/-- SAFETY_REQUEST: a write of MAD_REQ; a pair that is compared holds it back (R322). -/
def execSafetyRequest (src : Src) (data : Word) (s : State) : Host.Outcome State Fault Refusal :=
  s.pairWrite src Reg.MAD_REQ_at data (safetyRequestNow src data s)

/-- The staged words (R393). -/
def Dev.madStaged (d : Dev) : List Nat :=
  (List.range 10).map (fun i =>
    match Reg.row (Reg.MAD_IN_CFG_at 0 + 4 * i) with
    | some row => d.rowWord row (Reg.MAD_IN_CFG_at 0 + 4 * i)
    | none => 0)

/-- Every field of a staged set is in range (R393). -/
def madRanges (ws : List Nat) : Bool :=
  (List.range 8).all (fun i =>
    let w := ws.getD i 0
    decide (1 ≤ bits w 3 5) && decide (bits w 3 5 ≤ 20) && bits w 8 8 != 0) &&
  let t := ws.getD 8 0
  decide (2 ≤ bits t 0 8) && decide (1 ≤ bits t 8 8) && decide (bits t 8 8 ≤ 100) && decide (100 ≤ bits t 16 9) &&
  decide (bits t 16 9 ≤ 500) && bits t 25 7 != 0

/-- The staged set is put in force in two copies, or refused (R393). HB_PAIR names the role holder until the first beat.
[DEDUCED, log 87] -/
def Dev.madCommit (d : Dev) : Dev :=
  let ws := d.madStaged
  let crc := crc32 (ws.flatMap (leBytes 4))
  if (d.sf1 = 0 ∨ d.sf1 = 3) ∧ (List.range 4).all (fun n => d.ob n == 0 || d.ob n == 3) ∧ crc = d.f Reg.MAD_CFG_CRC_CRC ∧
      madRanges ws then
    let d := d.setF Reg.MAD_CFG_ACT_CRC_CRC crc
    let d := if d.mad.beatAt.isNone && !d.mad.moved then d.setF Reg.MAD_HB_STAT_PAIR (ws.getD 9 0 % 2) else d
    d.modMad (fun m => { m with cfgA := ws, cfgB := ws })
  else d.madEvt Reg.MAD_EVT_CFG_FAIL

/-- A write of MAD_CFG_COMMIT arrives. -/
def cfgCommitNow (src : Src) (data : Word) (s : State) : Host.Outcome State Fault Refusal :=
  s.done (s.dev.onWrite src Reg.MAD_CFG_COMMIT_at (fun d => if data.toNat.testBit 0 then d.madCommit else d))

/-- CFG_COMMIT: a write of MAD_CFG_COMMIT; a pair that is compared holds it back (R322). -/
def execCfgCommit (src : Src) (data : Word) (s : State) : Host.Outcome State Fault Refusal :=
  s.pairWrite src Reg.MAD_CFG_COMMIT_at data (cfgCommitNow src data s)

/-! ### Test pulses and re-arm (R387–R391) -/

/-- An output is energized. -/
def Dev.outOn (d : Dev) (o : Fin 8) : Bool := if o.1 < 4 then d.sf1 == 2 else d.ob (o.1 - 4) == 2

/-- TEST_PULSE: once every TP_PER, one output at a time (R387). [DEDUCED, log 88] -/
def Dev.testPulse (d : Dev) (o : Fin 8) : Dev :=
  if d.outOn o ∧ d.mad.pulse.isNone ∧ (d.mad.testAt[o]) + 100 * msTicks * bits (d.mcfg 8) 8 8 ≤ d.up then
    d.modMad (fun m => { m with pulse := some { out := o, low := m.testLow[o], at_ := d.up }, testAt := put m.testAt o d.up })
  else d

/-- TEST_PULSE. -/
def execTestPulse (o : Fin 8) (s : State) : Host.Outcome State Fault Refusal := s.donePower (s.dev.testPulse o)

/-- A Class B output passes its re-arm test and is energized, or is LOCKED (R388, R391). [DEDUCED, log 115] -/
def Dev.armOb (d : Dev) (n : Fin 4) (pass : Nat) : Dev :=
  let o : Fin 8 := ⟨n.1 + 4, by have := n.2; omega⟩
  if pass.testBit o.1 then (d.setOb n 2).modMad (fun m => { m with testAt := put m.testAt o d.up }) else d.failOut o

/-- An accepted pulse acts (R391): if every condition holds, the Class B outputs that are off are tested and energized, and
the sequence waits for their feedbacks; otherwise nothing is re-armed. With the Class A outputs energized only a LOCKED
Class B output is re-armed. [DEDUCED, log 88, 115] -/
def Dev.rearm (d : Dev) (pass : Nat) : Dev :=
  let ok := d.f Reg.MAD_IN_DEMAND == 0 && d.f Reg.MAD_IN_DISC == 0 && d.mad.beatAt.isSome &&
    decide (d.up < d.mad.beatAt.getD 0 + d.hbTo) && d.mad.req.isNone && d.sup.vaux && !d.mad.hard &&
    (List.range 4).all (fun n => !d.sobEn n || d.tb Reg.MAD_STAT_FB n)
  if !ok then d.madEvt Reg.MAD_EVT_REARM_REFUSED
  else if d.sf1 = 1 ∨ (d.sf1 = 2 ∧ (List.range 4).all (fun n => !d.sobEn n || d.ob n == 2)) then d
  else
    let d := if d.sf1 = 2 then d else d.setSf1 1
    let before := d
    let d := (List.finRange 4).foldl (fun d n => if d.sobEn n.1 ∧ d.ob n.1 ≠ 2 then d.armOb n pass else d) d
    let mask := ((List.range 4).map (fun n => if d.ob n = 2 ∧ before.ob n ≠ 2 then 2 ^ n else 0)).sum
    d.modMad (fun m => { m with rearm := some (d.up, mask), hbActed := false })

/-- TEST_PULSE_END: TP_W after its start the result counts, unless it was discarded; a Class B output's feedback is judged from FB_T
after it; a pulse of SRST_IN that waited acts (R382, R387–R389). -/
def Dev.testPulseEnd (d : Dev) (ok : Bool) : Dev :=
  match d.mad.pulse with
  | some p =>
    if d.up < p.at_ + 400 * bits (d.mcfg 8) 16 9 then d
    else
      let d := d.modMad (fun m => { m with pulse := none })
      let d := if h : 4 ≤ p.out.1 then
          d.modMad (fun m => { m with obAt := put m.obAt ⟨p.out.1 - 4, by have := p.out.2; omega⟩ d.up })
        else d
      let d := if p.discard then d
        else
          let d := d.modMad (fun m => { m with testLow := put m.testLow p.out (!p.low) })
          if ok then d.bump Reg.MAD_CNT_TEST_OK_COUNT else d.failOut p.out
      match d.mad.rearmDue with
      | some pass => (d.modMad (fun m => { m with rearmDue := none })).rearm pass
      | none => d
  | none => d

/-- TEST_PULSE_END. -/
def execTestPulseEnd (ok : Bool) (s : State) : Host.Outcome State Fault Refusal := s.donePower (s.dev.testPulseEnd ok)

/-- SRST_PULSE: accepted with a high time of 50 ms–3 s; any other pulse is logged and has no effect (R390). During a test
pulse an accepted one waits for its end (R389). [DEDUCED, log 15] -/
def Dev.srstPulse (d : Dev) (highUs pass : Nat) : Dev :=
  if highUs < 50000 ∨ 3000000 < highUs then d.linkLog 0x0A 62 (evInfo (Config.logKind 4)) d.sf1
  else if d.mad.pulse.isSome then d.modMad (fun m => { m with rearmDue := some pass })
  else d.rearm pass

/-- SRST_PULSE. -/
def execSrstPulse (highUs pass : Nat) (s : State) : Host.Outcome State Fault Refusal := s.donePower (s.dev.srstPulse highUs pass)

/-- REARM_FEEDBACK: the feedbacks have gone off; the Class A outputs are tested and energized, and the safe stop ends
(R391). -/
def Dev.rearmFeedback (d : Dev) (fb pass : Nat) : Dev :=
  match d.mad.rearm with
  | some (_, mask) =>
    let d := d.setF Reg.MAD_STAT_FB fb
    if (fb &&& mask) % 16 ≠ 0 then d
    else if d.sf1 = 2 then (d.modMad (fun m => { m with rearm := none })).madEvt Reg.MAD_EVT_REARM_OK
    else
      let d := (d.modMad (fun m => { m with rearm := none })).setF Reg.MAD_STAT_SOA_FLT 0
      if pass % 16 = 15 then
        let d := d.modMad (fun m => { m with testAt := putAll m.testAt (fun o t => if o.1 < 4 then d.up else t) })
        (d.setSf1 2).madEvt Reg.MAD_EVT_REARM_OK
      else (List.finRange 8).foldl (fun d o => if o.1 < 4 ∧ !pass.testBit o.1 then d.failOut o else d) d
  | none => d

/-- REARM_FEEDBACK. [DEDUCED, log 88] -/
def execRearmFeedback (fb pass : Nat) (s : State) : Host.Outcome State Fault Refusal := s.donePower (s.dev.rearmFeedback fb pass)

end Sys2Proof.Machine
end

