-- ==== Sys2Proof/Machine/PtpOps.lean ====
section
/-!
DEFINITION. The PTP unit's frames and rings (R268–R273).
-/

namespace Sys2Proof.Machine
open Sys2Proof

/-- The PTP unit takes a frame from port p (R270): offset of its PTP header and whether it is UDP. -/
def Dev.ptpTakes (d : Dev) (p : Nat) (bs : List Byte) : Option (Nat × Bool) :=
  let da := beAt bs 0 6
  if !d.bit Reg.PTP_CTL_EN then none
  else if da = 0x0180C200000E then some (payloadAt bs, false)
  else if etherType bs = 0x88F7 ∧ da = 0x011B19000000 then some (payloadAt bs, false)
  else match udpPtp bs with
    | some (o, ip) => if 2 ≤ p ∧ (ip = 0xE0000181 ∨ ip = d.f Reg.PTP_IPV4_VALUE) then some (o, true) else none
    | none => none

/-- The message type of a PTP frame received on port p: an L2 one's, or one's over UDP on an E port to the PTP group or the unit (R269,
R270). -/
def Dev.ptpMessage (d : Dev) (p : Nat) (bs : List Byte) : Option Nat :=
  match ptpType bs, udpPtp bs with
  | some ty, _ => some ty
  | none, some (o, ip) => if 2 ≤ p ∧ (ip = 0xE0000181 ∨ ip = d.f Reg.PTP_IPV4_VALUE) then some (beAt bs o 1 % 16) else none
  | none, none => none

/-- A P2P port discards and counts Delay_Req and Delay_Resp frames, whatever their address (R270). -/
def Dev.ptpDropped (d : Dev) (p : Fin 6) (bs : List Byte) : Bool :=
  d.bit Reg.PTP_CTL_EN && d.f (Reg.PTP_P_CFG_MECH p.1) == 1 && (d.ptpMessage p.1 bs == some 1 || d.ptpMessage p.1 bs == some 9)

/-- An entry of a PTP ring. -/
def Dev.ptpEntry (d : Dev) (lo hi : RF) (i : Nat) : Nat := d.f64 lo hi + 32 * (i % 2 ^ d.f Reg.PTP_RING_CFG_LOG2)

/-- The receive ring has an entry for the device. -/
def Dev.ptpRoom (d : Dev) : Bool :=
  d.bit Reg.PTP_RING_CFG_EN && decide (sdiff32 (d.f Reg.PTP_RX_PI_IDX) (d.f Reg.PTP_RX_CI_IDX) < 2 ^ d.f Reg.PTP_RING_CFG_LOG2)

/-- What the accesses that put a received frame into the receive ring meet (R273, R307). -/
def Dev.ptpReach (d : Dev) (word : Nat → Nat → Nat) (f : PtpFrame) : Reach :=
  let e := d.ptpEntry Reg.PTP_RX_LO_ADDR Reg.PTP_RX_HI_ADDR (d.f Reg.PTP_RX_PI_IDX)
  Reach.all [d.reach 11 0 .read e 32, d.reach 11 0 .write e 32, d.reach 11 0 .write (word e 8 % 2 ^ 40) f.bytes.length]

/-- Write a received frame and its entry (R273): the frame to the entry's buffer, then length, port, flags and stamp. -/
def Dev.ptpDeliver (d : Dev) (word : Nat → Nat → Nat) (f : PtpFrame) : Dev :=
  let e := d.ptpEntry Reg.PTP_RX_LO_ADDR Reg.PTP_RX_HI_ADDR (d.f Reg.PTP_RX_PI_IDX)
  let d := d.post (word e 8 % 2 ^ 40) f.bytes
  let d := d.post (e + 8) (leBytes 2 f.bytes.length ++ leBytes 1 f.port ++
    leBytes 1 (2 + (if f.udp then 4 else 0) + (if f.err then 8 else 0)) ++ leBytes 1 (f.stamp % 8) ++ leBytes 3 0 ++
    leBytes 8 (f.stamp / 8) ++ leBytes 8 0)
  (d.wrap Reg.PTP_RX_PI_IDX).pend 51

/-- A frame for the receive ring is delivered, or waits while a checker is waited for (R310); a full ring loses it, and so does an access
that fails. [DEDUCED, log 70, 131] -/
def Dev.ptpReceive (d : Dev) (word : Nat → Nat → Nat) (f : PtpFrame) : Dev :=
  if !d.ptpRoom then d.raise Reg.PTP_EVT_RXFULL 1 50
  else match d.ptpReach word f with
    | .opened => d.ptpDeliver word f
    | .waits => d.setPtp { d.ptp with rxWait := d.ptp.rxWait ++ [f] }
    | .fails a => d.engineFail 11 0 .write a

/-- Deliver what waited, once the checker admits it. [DEDUCED, log 70] -/
def Dev.ptpFlush (d : Dev) (word : Nat → Nat → Nat) : Dev :=
  let ws := d.ptp.rxWait
  ws.foldl (fun d w => d.ptpReceive word w) (d.setPtp { d.ptp with rxWait := [] })

/-- PTP time of a stamp in eighths of a tick: whole ns, and the rest in ns·2^16 (R268). -/
def Dev.ptpTime (d : Dev) (t8 : Nat) : Nat × Nat :=
  (d.f64 Reg.PTP_OFS_LO_VALUE Reg.PTP_OFS_HI_VALUE + t8 * 5 / 16, t8 * 5 % 16 * 4096)

/-- A one-step message with the egress stamp worked into it (R273). -/
def Dev.oneStep (d : Dev) (bs : List Byte) (o ty egress req : Nat) : List Byte :=
  if ty = 0 then
    let t := d.ptpTime egress
    addCorrection (splice bs (o + 34) (beBytes 6 (t.1 / 10 ^ 9) ++ beBytes 4 (t.1 % 10 ^ 9))) o t.2
  else addCorrection bs o (((egress : Int) - req) * 20480)

end Sys2Proof.Machine
end

