-- ==== Sys2Proof/Machine/PtpCmds.lean ====
section
/-!
DEFINITION. The commands of network time (R268–R281): PTP frames, holdover, comparators, captures.
-/

namespace Sys2Proof.Machine
open Sys2Proof

/-! ### Frames -/

/-- A frame the PTP unit takes (R270), or on a P2P port discards; an errored frame is taken and marked ERR (R273). -/
def Dev.ptpFrame (d : Dev) (word : Nat → Nat → Nat) (p : Fin 6) (bs : List Byte) (good : Bool) (stamp : Nat) : Dev :=
  if d.ptpDropped p bs then d.bump (Reg.PTP_P_DROP_VALUE p.1)
  else match d.ptpTakes p.1 bs with
    | none => d
    | some (_, udp) => d.ptpReceive word ⟨p.1, d.rxStamp (p8 p.1) stamp, bs, udp, !good || d.badLength bs⟩

/-- PTP_FRAME_RECEIVE. [DEDUCED, log 68] -/
def execPtpFrameReceive (p : Fin 6) (frame : RxFrame) (stamp : Nat) (s : State) : Host.Outcome State Fault Refusal :=
  s.done (s.dev.ptpFrame s.memWord p frame.bytes frame.good stamp)

/-- The next entry of the transmit ring is sent on its port, and its stamp written back (R271, R273); it waits while a checker is waited
for or an access fails (R308, R310). [DEDUCED, log 70, 131] -/
def Dev.ptpTransmit (d : Dev) (word : Nat → Nat → Nat) (mem : Nat → Nat → List Byte) (egress : Nat) : Dev :=
  let ci := d.f Reg.PTP_TX_CI_IDX
  let e := d.ptpEntry Reg.PTP_TX_LO_ADDR Reg.PTP_TX_HI_ADDR ci
  let buf := word e 8 % 2 ^ 40
  let p := p8 (word (e + 10) 1)
  if !d.bit Reg.PTP_RING_CFG_EN || ci == d.f Reg.PTP_TX_PI_IDX || decide (6 ≤ word (e + 10) 1) || d.removed p || d.serdesOff p ||
      decide (d.now < (d.port p).busyTill) then d
  else match Reach.all [d.reach 11 0 .read e 32, d.reach 11 0 .write e 32, d.reach 11 0 .read buf (word (e + 8) 2)] with
  | .waits => d
  | .fails a => d.engineFail 11 0 .read a
  | .opened =>
    let bs := mem buf (word (e + 8) 2)
    let fl := word (e + 11) 1
    let want := fl.testBit 0
    let ty := (ptpType bs).getD 16
    let one := want && !fl.testBit 2 && (ty == 0 || ty == 3)
    let t8 := d.txStamp p egress
    let bs := match ptpAt bs with
      | some o => if one then d.oneStep bs o ty t8 (word (e + 24) 8) else bs
      | none => bs
    let d := if want && !one then d.raise Reg.PTP_EVT_BADTX 1 50 else d
    let d := d.emit (.frame p.1 (bs ++ fcsOf bs))
    let d := (d.count p 2).count p 3 (bs.length + 4)
    let busy := d.wireTime p (bs.length + 4)
    let d := d.modPort p (fun x => { x with busyTill := d.now + busy, curCut := none })
    let d := d.post (e + 11) (leBytes 1 (fl ||| 2) ++ leBytes 1 (t8 % 8))
    let d := d.post (e + 16) (leBytes 8 (t8 / 8))
    d.wrap Reg.PTP_TX_CI_IDX

/-- PTP_TRANSMIT. -/
def execPtpTransmit (egress : Nat) (s : State) : Host.Outcome State Fault Refusal :=
  s.done (s.dev.ptpTransmit s.memWord s.memBytes egress)

/-! ### Holdover (R278) -/

/-- A write of PTP_SERVO: LOCKED by type, its rise starting the holdover timer; KICK restarts the timer and ends
holdover. -/
def Dev.servo (d : Dev) (src : Src) (w : Nat) : Dev :=
  d.onWrite src Reg.PTP_SERVO_at (fun d =>
    let was := d.bit Reg.PTP_SERVO_LOCKED
    let d := d.writeRest src Reg.PTP_SERVO_at w []
    let d := if !was && d.bit Reg.PTP_SERVO_LOCKED then (d.setPtp { d.ptp with kickAt := d.now }) else d
    let d := if w.testBit 1 then
        (d.setF Reg.PTP_STAT_HOLDOVER 0).setPtp { d.ptp with kickAt := d.now, expired := false }
      else d
    d.lineUpdate)

/-- KICK: a write of PTP_SERVO with KICK = 1. -/
def execKick (src : Src) (data : Word) (s : State) : Host.Outcome State Fault Refusal :=
  s.done (if data.toNat.testBit 1 then s.dev.servo src data.toNat else s.dev)

/-- HOLDOVER_ENTRY: no KICK for TO ms while LOCKED. -/
def execHoldoverEntry (s : State) : Host.Outcome State Fault Refusal :=
  s.done (
    let d := s.dev
    if d.bit Reg.PTP_SERVO_LOCKED && !d.bit Reg.PTP_STAT_HOLDOVER && decide (d.ptp.kickAt + 400000 * d.f Reg.PTP_HOLD_TO ≤ d.now)
    then ((d.setF Reg.PTP_STAT_HOLDOVER 1).setPtp { d.ptp with holdAt := d.now }) else d)

/-- HOLDOVER_EXPIRY: holdover has lasted MAX s. -/
def execHoldoverExpiry (s : State) : Host.Outcome State Fault Refusal :=
  s.done (
    let d := s.dev
    if d.bit Reg.PTP_STAT_HOLDOVER && !d.ptp.expired && decide (d.ptp.holdAt + 400000000 * d.f Reg.PTP_HOLD_MAX ≤ d.now) then
      (Dev.lineUpdate (d.setPtp { d.ptp with expired := true })).raise Reg.PTP_EVT_HOLD_EXP 1 50
    else d)

/-! ### Comparators (R279) -/

/-- A write of TB_CMPi_HI arms the comparator, or is refused with PAST unless TIME − TB_NOW ≥ 8. -/
def Dev.cmpArm (d : Dev) (src : Src) (i : Fin 16) (hi : Nat) : Dev :=
  let held := d.heldFor src (Reg.TB_CMP_LO_at i.1)
  let lo := held.getD (d.f (Reg.TB_CMP_LO_VALUE i.1))
  let t := lo + 2 ^ 32 * hi
  let d := d.unhold src (Reg.TB_CMP_LO_at i.1)
  if d.now + 8 ≤ t then
    let d := d.setF64 (Reg.TB_CMP_LO_VALUE i.1) (Reg.TB_CMP_HI_VALUE i.1) t
    let d := (d.setF (Reg.TB_CMP_CTL_ARMED i.1) 1).setF (Reg.TB_CMP_CTL_PAST i.1) 0
    d.setPtp { d.ptp with cmpAt := put d.ptp.cmpAt i t }
  else d.setF (Reg.TB_CMP_CTL_PAST i.1) 1

/-- COMPARATOR_ARM. -/
def execComparatorArm (src : Src) (i : Fin 16) (data : Word) (s : State) : Host.Outcome State Fault Refusal :=
  s.done (s.dev.onWrite src (Reg.TB_CMP_HI_at i.1) (fun d => d.cmpArm src i data.toNat))

/-- The level of a pin before any comparator acted on it at this tick. -/
def Dev.toutBefore (d : Dev) (p : Fin 8) : Bool :=
  match d.ptp.acted[p] with
  | some (t, _, l) => if t = d.now then l else d.ptp.tout.testBit p.1
  | none => d.ptp.tout.testBit p.1

/-- A comparator's action on its pin; at one tick the higher comparator applies, in place of the lower, and a pulse in progress is cut
short. [DEDUCED, log 71] -/
def Dev.cmpAct (d : Dev) (i : Fin 16) : Dev :=
  let p := p8 (d.f (Reg.TB_CMP_CTL_PIN i.1))
  let a := d.f (Reg.TB_CMP_CTL_ACTION i.1)
  let later := match d.ptp.acted[p] with
    | some (t, j, _) => decide (t = d.now ∧ i.1 < j)
    | none => false
  if a == 0 || later then d
  else
    let was := d.toutBefore p
    let level := if a = 4 then !was else a != 2
    let stop := if a = 3 then some (d.now + d.f (Reg.TB_CMP_CTL_WIDTH i.1)) else none
    (d.setPtp { d.ptp with tout := setBit d.ptp.tout p.1 level, pulse := put d.ptp.pulse p stop,
                                 acted := put d.ptp.acted p (some (d.now, i.1, was)) })

/-- An armed comparator fires when TB_NOW equals TIME; with a PERIOD it arms again. -/
def Dev.cmpFire (d : Dev) (i : Fin 16) : Dev :=
  if d.bit (Reg.TB_CMP_CTL_ARMED i.1) && d.ptp.cmpAt[i] == d.now then
    let d := (d.cmpAct i).raise Reg.TB_TRIG_EVT_CMP (2 ^ i.1) 52
    let per := d.f (Reg.TB_CMP_PERIOD_VALUE i.1)
    if per = 0 then d.setF (Reg.TB_CMP_CTL_ARMED i.1) 0
    else d.setPtp { d.ptp with cmpAt := put d.ptp.cmpAt i (d.now + per) }
  else d

/-- COMPARATOR_FIRE. -/
def execComparatorFire (i : Fin 16) (s : State) : Host.Outcome State Fault Refusal := s.done (s.dev.cmpFire i)

/-- PULSE_END: WIDTH ticks of a pulse have passed and its pin goes low. -/
def execPulseEnd (p : Fin 8) (s : State) : Host.Outcome State Fault Refusal :=
  s.done (
    let d := s.dev
    match d.ptp.pulse[p] with
    | some t => if t ≤ d.now then
        (d.setPtp { d.ptp with tout := setBit d.ptp.tout p.1 false, pulse := put d.ptp.pulse p none }) else d
    | none => d)

/-! ### Captures (R280) -/

/-- An edge on TCAPn is stamped if EDGE selects it; a stamp that finds four held is lost. -/
def Dev.capture (d : Dev) (n : Fin 8) (rising : Bool) : Dev :=
  if (d.f (Reg.TB_CAP_CTL_EDGE n.1)).testBit (if rising then 0 else 1) then
    let xs := d.ptp.cap[n]
    if xs.length < 4 then
      let d := d.setPtp { d.ptp with cap := put d.ptp.cap n (xs ++ [d.now]) }
      (d.setF (Reg.TB_CAP_STAT_COUNT n.1) (xs.length + 1)).raise Reg.TB_TRIG_EVT_CAP (2 ^ n.1) 53
    else (d.note (Reg.TB_CAP_STAT_OVF n.1) 1).setF (Reg.TB_CAP_STAT_OVF n.1) 1
  else d

/-- CAPTURE. -/
def execCapture (n : Fin 8) (rising : Bool) (s : State) : Host.Outcome State Fault Refusal := s.done (s.dev.capture n rising)

/-- A read of TB_CAPn_HI: the word captured with the low word, or the oldest stamp's; the stamp is removed (R10, R280). -/
def Dev.capturePop (d : Dev) (src : Src) (n : Fin 8) : Dev :=
  match d.guard src (Reg.TB_CAP_HI_at n.1) false with
  | some d' => d'
  | none =>
    let lo := Reg.TB_CAP_LO_at n.1
    let xs := d.ptp.cap[n]
    let x := (pairFind d.capHigh src.master.1 lo).getD (xs.headD 0 / 2 ^ 32 % 2 ^ 32)
    let d := (d.answer x).setCapHigh (pairDrop d.capHigh src.master.1 lo)
    let d := d.setPtp { d.ptp with cap := put d.ptp.cap n (xs.drop 1) }
    d.setF (Reg.TB_CAP_STAT_COUNT n.1) (xs.drop 1).length

/-- CAPTURE_POP. -/
def execCapturePop (src : Src) (n : Fin 8) (s : State) : Host.Outcome State Fault Refusal := s.done (s.dev.capturePop src n)

end Sys2Proof.Machine
end

