-- ==== Sys2Proof/Machine/RingCmds.lean ====
section
/-!
DEFINITION. Commands of the chapter Steps, rings and doorbells (R142–R169): doorbells and mirrors, fetching a
descriptor, delivering completions and the write-back block, DMA errors, ring configuration.
-/

namespace Sys2Proof.Machine
open Sys2Proof

/-! ### Doorbells (R145–R147) -/

/-- A doorbell write of a defined doorbell on a host port (R145, R218, R231). [DEDUCED, log 55] -/
def Dev.doorbell (d : Dev) (port : Fin 2) (s : Fin 64) (off x : Nat) : Dev :=
  let st := d.f (Reg.SLC_STATE_STATE s.1)
  let count := d.bump (Reg.SLC_DB_ERR_COUNT s.1)
  if st = 0 ∨ st = 2 then count
  else if d.bit (Reg.SLC_RING_CTL_DBSRC s.1) then d
  else if st ≠ 3 ∧ d.f (Reg.SLC_RING_CFG_LOC s.1 0) ≠ port.1 then count
  else if off = 0 then
    if d.bit (Reg.SLC_RING_CFG_EN s.1 0) then d.takeCmdPi s.1 x else d.dbErr s.1 0 x
  else d.takeConsumer s.1 ⟨off / 4 % 8, Nat.mod_lt _ (by decide)⟩ off x

/-- The last accepted value of a doorbell (R145). -/
def Dev.doorbellValue (d : Dev) (s : Fin 64) (off : Nat) : Nat :=
  let e := d.slices[s]
  if off = 0 then e.cmdPi else e.ci[(⟨off / 4 % 8, Nat.mod_lt _ (by decide)⟩ : Fin 8)]

/-- Bytes a host's access to a doorbell page moves. -/
def doorSize : DoorOp → Nat
  | .write n _ => n
  | .read n => n

/-- A host's access to a slice's doorbell page through a port (R145, R409): in the reserved range, or not an aligned 32-bit access, it
reads zero, changes nothing and is counted; a read brings the last accepted value. A port that is not ON answers nothing.
[DEDUCED, log 55] -/
def Dev.doorAccess (d : Dev) (port : Fin 2) (s : Fin 64) (off : Nat) (op : DoorOp) : Dev :=
  if d.sup.warm.isSome then d.dropHost
  else if d.f (Reg.PWR_QTAG_STATE (36 + port.1)) ≠ 0 then d
  else if 0x20 ≤ off ∨ off % 4 ≠ 0 ∨ doorSize op ≠ 4 then (d.bump (Reg.SLC_DB_ERR_COUNT s.1)).answer 0
  else match op with
    | .write _ x => d.doorbell port s off x.toNat
    | .read _ => d.answer (d.doorbellValue s off)

/-- CMD_PI: an access to the command ring's doorbell. -/
def execCmdPi (port : Fin 2) (i : Fin 64) (op : DoorOp) (s : State) : Host.Outcome State Fault Refusal :=
  s.done (s.dev.doorAccess port i 0 op)

/-- CONSUMER_DOORBELL: an access to any other offset of the page. -/
def execConsumerDoorbell (port : Fin 2) (i : Fin 64) (offset : Nat) (op : DoorOp) (s : State) : Host.Outcome State Fault Refusal :=
  s.done (s.dev.doorAccess port i offset op)

/-- One word of a mirror read, as a doorbell write (R146): the last accepted value changes nothing. [DEDUCED, log 54] -/
def Dev.mirrorWord (d : Dev) (s : Fin 64) (r : Fin 8) (x : Nat) : Dev :=
  let e := d.slices[s]
  let wdog := e.wdogAt
  if x = (if r = 0 then e.cmdPi else e.ci[r]) then d
  else if d.f (Reg.SLC_STATE_STATE s.1) = 2 then d.bump (Reg.SLC_DB_ERR_COUNT s.1)
  else
    let d := if r = 0 then (if d.bit (Reg.SLC_RING_CFG_EN s.1 0) then d.takeCmdPi s.1 x else d.dbErr s.1 0 x)
      else d.takeConsumer s.1 r (4 * r.1) x
    d.modSlice s (fun e => { e with wdogAt := wdog })

/-- The mirror's next poll is due: POLL µs after the one before (R146). -/
def Dev.pollDue (d : Dev) (s : Fin 64) : Bool :=
  match (d.slices[s]).polledAt with
  | some t => decide (t + 400 * d.f (Reg.SLC_RING_CTL_POLL s.1) ≤ d.now)
  | none => true

/-- MIRROR_POLL: every POLL µs the step engine reads the mirror in local memory; a value that differs from the previous read
restarts the watchdog (R146, R219). A read the checker holds back waits (R310), one that fails brings no values.
[DEDUCED, log 54, 131] -/
def State.mirrorPoll (s : State) (i : Fin 64) : Dev :=
  let d := s.dev
  let addr := d.f64 (Reg.SLC_MIRROR_LO_ADDR i.1) (Reg.SLC_MIRROR_HI_ADDR i.1)
  if !d.bit (Reg.SLC_RING_CTL_DBSRC i.1) || d.f (Reg.SLC_STATE_STATE i.1) == 0 || d.sup.warm.isSome || !d.pollDue i then d
  else match d.reach 8 i.1 .read addr 32 with
  | .waits => d
  | .fails a => (d.engineFail 8 i.1 .read a).modSlice i (fun e => { e with polledAt := some d.now })
  | .opened =>
    let xs := (List.range 8).map (fun n => s.memWord (addr + 4 * n) 4)
    let old := (d.slices[i]).mirror
    let d := (List.finRange 8).foldl (fun d r => d.mirrorWord i r (xs.getD r.1 0)) d
    let d := d.modSlice i (fun e => { e with mirror := xs, polledAt := some d.now })
    if old.isEmpty || old == xs || d.f (Reg.SLC_STATE_STATE i.1) == 2 then d else d.kickWdog i.1

/-- MIRROR_POLL. -/
def execMirrorPoll (i : Fin 64) (s : State) : Host.Outcome State Fault Refusal := s.done (s.mirrorPoll i)

/-! ### Fetching (R148–R154) -/

/-- A descriptor from its sixteen words (R149). -/
def Desc.ofWords (ws : List Word) : Desc :=
  let w (n : Nat) : Nat := (ws.getD n 0).toNat
  let i (n : Nat) : Int := signed 32 (w n)
  { op := bits (w 0) 0 8, ch := bits (w 0) 8 8, flags := bits (w 0) 16 16, tag := bits (w 1) 0 16,
    stepIdx := bits (w 1) 16 8, stream := bits (w 1) 24 8, mode := bits (w 2) 0 8, tune := bits (w 2) 8 8,
    ecCtl := bits (w 2) 16 16, spA := i 3, spB := i 4, spC := i 5, spD := i 6, slew := w 7, limChg := w 8, limDis := w 9,
    start := w 10 + 2 ^ 32 * w 11, tLim := w 12, ec := [i 13, i 14, i 15] }

/-- A stream ring that can take a step's records: enabled, with 32-byte entries (R153). -/
def Dev.streamOk (d : Dev) (s x : Nat) : Bool :=
  d.bit (Reg.SLC_RING_CFG_EN s (streamRing x).1) && !d.bit (Reg.SLC_RING_CFG_ESIZE s (streamRing x).1)

/-- A condition kind whose value is a magnitude (R157). -/
def magnitude (kind : Nat) : Bool := kind == 1 || kind == 2 || kind == 5 || kind == 6 || kind == 9

/-- BAD_DESC of a STEP (R149–R151, R153, R157). [DEDUCED, log 52] -/
def Dev.badStep (d : Dev) (s : Nat) (x : Desc) : Bool :=
  let ring := bits x.stream 0 3
  let rate := bits x.stream 3 4
  bits x.flags 6 7 != 0 || (x.flag 0 && x.flag 1) || (x.flag 0 && decide (2 ^ 32 ≤ x.start)) ||
  (!x.sync && x.start != 0) || x.stream.testBit 7 || ring == 5 || ring == 6 || (5 ≤ rate && rate ≤ 14) ||
  (ring < 5 && !d.streamOk s ring) || x.ecCtl.testBit 15 ||
  (List.range 3).any (fun n =>
    let v := x.ec.getD n 0
    10 ≤ x.ecKind n || (x.ecKind n == 0 && v != 0) || (magnitude (x.ecKind n) && decide (v < 0)))

/-- BAD_DESC of any other operation: only OP, CH, FLAGS.NOIRQ and TAG may be non-zero, and CH is zero in NOP (R152).
[DEDUCED, log 52] -/
def Desc.badOther (x : Desc) : Bool :=
  { x with flags := x.flags &&& 0x20 } != { op := x.op, ch := x.ch, flags := x.flags, tag := x.tag, stream := 0, ec := [0, 0, 0] } ||
  (x.op == 0 && x.ch != 0)

/-- Vat and channel of a device channel number. -/
def chV (c : Nat) : Fin 16 := v16 (c / 16)
def chK (c : Nat) : Fin 16 := v16 c

/-- The slice holds the device channel. -/
def Dev.holdsCh (d : Dev) (s : Fin 64) (c : Nat) : Bool := (d.chan (chV c) (chK c)).owner == some s

/-- Why a descriptor completes at fetch without acting, in the order of R153. [DEDUCED, log 52] -/
def Dev.fetchStatus (d : Dev) (s : Fin 64) (x : Desc) : Option Nat :=
  let v := chV x.ch
  let k := chK x.ch
  if 7 ≤ x.op then some 0x40
  else if x.op ≠ 0 ∧ !d.holdsCh s x.ch then some 0x42
  else if (if x.op = 1 then d.badStep s.1 x else x.badOther) then some 0x41
  else if x.op = 0 then none
  else if d.fenced v then some 0x21
  else if !d.avail v k then some 0x3B
  else if x.op = 1 ∧ (d.chan v k).gang.getD k ≠ k then some 0x39
  else none

/-- Queue entries of a channel in use, with the slots of completions that still wait (R154, R156). -/
def Dev.slots (d : Dev) (s : Fin 64) (c : Nat) : Nat :=
  let ch := d.chan (chV c) (chK c)
  (if ch.run.isSome then 1 else 0) + ch.queue.length +
  ((d.slices[s]).cmps.filter (fun m => m.slot && !m.progress && m.ch == c)).length

/-- A completion made at fetch, with the halt of R167 where the slice holds the channel. [DEDUCED, log 107] -/
def Dev.atFetch (d : Dev) (s : Fin 64) (x : Desc) (status : Nat) : Dev :=
  let c := x.unstarted status 0 d.now false false false
  let d := d.addCmp s.1 { c with cflags := c.cflags &&& 0x3FF }
  if d.holdsCh s x.ch then d.haltIf (chV x.ch) (chK x.ch) x status d.now else d

/-- What a valid operation does on arrival (R152). -/
def Dev.arrive (d : Dev) (s : Fin 64) (x : Desc) : Dev :=
  let v := chV x.ch
  let k := chK x.ch
  match x.op with
  | 0 => d.atFetch s x 0
  | 1 | 5 =>
    if (d.chan v k).halt then d.atFetch s x 0x3A
    else (d.modChan v k (fun c => { c with queue := c.queue ++ [{ d := x }] })).settle v k d.now 9
  | 2 | 4 => d.modChan v k (fun c => { c with stopReq := c.stopReq ++ [x] })
  | 3 => (d.flushQueue v k d.now).atFetch s x 0
  | _ => (d.modChan v k (fun c => { c with halt := false })).atFetch s x 0

/-- Fetching runs for the slice: ACTIVE, its command, completion and event rings enabled, the command ring running, its host port's link
up, with an entry to fetch (R142, R148, R218, R231). Steps queued before a ring is disabled run on. [DEDUCED, log 53] -/
def Dev.fetchRuns (d : Dev) (s : Fin 64) : Bool :=
  let loc := d.f (Reg.SLC_RING_CFG_LOC s.1 0)
  let e := d.slices[s]
  d.f (Reg.SLC_STATE_STATE s.1) == 1 && d.dmaRuns s.1 &&
  (List.range 3).all (fun r => d.bit (Reg.SLC_RING_CFG_EN s.1 r)) && !d.ringStopped s.1 0 &&
  e.ci[(0 : Fin 8)] != e.cmdPi &&
  (loc == 2 || d.linkUp loc)

/-- What the read of the next descriptor meets (R148, R310). -/
def Dev.fetchReach (d : Dev) (s : Fin 64) : Reach :=
  if d.f (Reg.SLC_RING_CFG_LOC s.1 0) < 2 then .opened else d.reach 8 s.1 .read (d.entryAddr s.1 0 (d.ringCi s.1 0)) 64

/-- The descriptor is what the ring holds at CMD_CI: a host's memory is outside the device, local memory is not.
[DEDUCED, log 53] -/
def State.ringHolds (s : State) (i : Fin 64) (ws : List Word) : Bool :=
  ws.length == 16 &&
  (s.dev.f (Reg.SLC_RING_CFG_LOC i.1 0) < 2 ||
   (List.range 16).all (fun n => s.memWord (s.dev.entryAddr i.1 0 (s.dev.ringCi i.1 0) + 4 * n) 4 == (ws.getD n 0).toNat))

/-- A queue with no room keeps the descriptor at the head of the command ring (R154); anything else is consumed. -/
def Dev.take (d : Dev) (s : Fin 64) (x : Desc) : Dev :=
  let status := d.fetchStatus s x
  if status.isNone && (x.op == 1 || x.op == 5) && !(d.chan (chV x.ch) (chK x.ch)).halt && decide (8 ≤ d.slots s x.ch) then
    d.modSlice s (fun e => { e with stallAt := some (e.stallAt.getD d.now) })
  else
    let d := (d.modSlice s (fun e => { e with stallAt := none, ci := put e.ci 0 ((e.ci[(0 : Fin 8)] + 1) % 2 ^ 32) })).setF
      (Reg.SLC_RING_STAT_CMD_STALL s.1) 0
    let d := d.signal s.1 none
    match status with
    | some st => d.atFetch s x st
    | none => d.arrive s x

/-- One descriptor is fetched; the row's opcode must be the descriptor's (R148). A read that fails stops the command ring (R169).
[DEDUCED, log 53] -/
def State.fetch (s : State) (i : Fin 64) (ws : List Word) (isOp : Nat → Bool) : Dev :=
  let d := s.dev
  let x := Desc.ofWords ws
  if d.fetchRuns i then
    match d.fetchReach i with
    | .opened => if s.ringHolds i ws && isOp x.op then d.take i x else d
    | .fails a => (d.stopRing i.1 0 .read a).dmaEvent i.1 0 (d.ringCi i.1 0)
    | .waits => d
  else d

/-- NOP. -/
def execNop (i : Fin 64) (desc : List Word) (s : State) : Host.Outcome State Fault Refusal := s.done (s.fetch i desc (· == 0))

/-- STEP. -/
def execStep (i : Fin 64) (desc : List Word) (s : State) : Host.Outcome State Fault Refusal := s.done (s.fetch i desc (· == 1))

/-- STOP. -/
def execStop (i : Fin 64) (desc : List Word) (s : State) : Host.Outcome State Fault Refusal := s.done (s.fetch i desc (· == 2))

/-- FLUSH. -/
def execFlush (i : Fin 64) (desc : List Word) (s : State) : Host.Outcome State Fault Refusal := s.done (s.fetch i desc (· == 3))

/-- ABORT. -/
def execAbort (i : Fin 64) (desc : List Word) (s : State) : Host.Outcome State Fault Refusal := s.done (s.fetch i desc (· == 4))

/-- MARK. -/
def execMark (i : Fin 64) (desc : List Word) (s : State) : Host.Outcome State Fault Refusal := s.done (s.fetch i desc (· == 5))

/-- RESUME. -/
def execResume (i : Fin 64) (desc : List Word) (s : State) : Host.Outcome State Fault Refusal := s.done (s.fetch i desc (· == 6))

/-- BAD_OP. -/
def execBadOp (i : Fin 64) (desc : List Word) (s : State) : Host.Outcome State Fault Refusal := s.done (s.fetch i desc (7 ≤ ·))

/-- CMD_STALL: fetching has been blocked for 1 ms (R154). -/
def Dev.cmdStall (d : Dev) (s : Fin 64) : Dev :=
  match (d.slices[s]).stallAt with
  | some t =>
    if t + 400000 ≤ d.now ∧ !d.bit (Reg.SLC_RING_STAT_CMD_STALL s.1) then
      (d.setF (Reg.SLC_RING_STAT_CMD_STALL s.1) 1).event s.1 0x02 none 0 (d.ringCi s.1 0)
    else d
  | none => d

/-- CMD_STALL. -/
def execCmdStall (i : Fin 64) (s : State) : Host.Outcome State Fault Refusal := s.done (s.dev.cmdStall i)

/-! ### Delivery (R144, R156, R162, R166) -/

/-- VAL_C of a completion that carries Q_LO, once the step totals are closed (R165, R175, R176). [DEDUCED, log 57] -/
def Dev.cmpValC (d : Dev) (c : Cmp) : Option Nat :=
  match c.qOf with
  | none => some c.valC
  | some (id, mask) =>
    let qs := (maskList mask).map (fun m => ((d.vats[chV c.ch]).meas[m]).a.closedOf id)
    if qs.all (·.isSome) then some (pattern 32 (reported (qs.map (·.getD 0)))) else none

/-- Progress completions that find the completion ring full are dropped and counted (R166). -/
def Dev.dropProgress (d : Dev) (s : Fin 64) : Dev :=
  let n := ((d.slices[s]).cmps.filter (·.progress)).length
  if n ≠ 0 ∧ d.bit (Reg.SLC_RING_CFG_EN s.1 1) ∧ !d.ringRoom s.1 1 then
    (d.bump (Reg.SLC_PROG_DROP_COUNT s.1) n).modSlice s (fun e => { e with cmps := e.cmps.filter (fun c => !c.progress) })
  else d

/-- The computations of the slice's channels that may still form a completion with a T_END of at most `t` are done: a protection's
completion carries an instant up to 200 ticks before its computation's tick (R114, R115, R156). [DEDUCED, log 39] -/
def Dev.endsKnown (d : Dev) (s : Fin 64) (t : Nat) : Bool :=
  allCh (fun v k => (d.chan v k).owner != some s || decide (t + 201 ≤ 25 * k.1) ||
    !d.outstanding v k ((t + 200 - 25 * k.1) / 400 * 400 + 25 * k.1))

/-- COMPLETION_WRITE: the oldest completion goes to the ring once none that goes before it can still be formed, or what waits is held
(R156, R166). -/
def Dev.completionWrite (d : Dev) (s : Fin 64) : Dev :=
  let d := d.dropProgress s
  match (d.slices[s]).cmps with
  | [] => d
  | c :: rest =>
    let d := d.ringCheck s.1 1
    if !d.ringReady s.1 1 then d.holdCmps s.1
    else if !d.endsKnown s c.tEnd then d
    else match d.cmpValC c with
      | none => d
      | some x =>
        let d := d.modSlice s (fun e => { e with cmps := rest })
        let d := if rest.isEmpty then d.setF (Reg.SLC_RING_STAT_CMP_FULL s.1) 0 else d
        d.ringPut s.1 1 (cmpBytes c x) (if c.noIrq || c.progress then none else some 0)

/-- COMPLETION_WRITE. -/
def execCompletionWrite (i : Fin 64) (s : State) : Host.Outcome State Fault Refusal := s.done (s.dev.completionWrite i)

/-- Signal one cause of a slice (R435): its vector, or the normal-world interrupt of the application cores that serve a local command
ring, which waits while the core is in the secure world (R305). -/
def Dev.sendCause (d : Dev) (s c : Nat) : Dev :=
  let n := d.f (Reg.SLC_VEC_COUNT s)
  if 0 < n then d.emit (.msix (d.f (Reg.SLC_PASID_PORT s)) (d.f (Reg.SLC_VEC_BASE s) + min c (n - 1)))
  else if d.f (Reg.SLC_RING_CFG_LOC s 0) = 2 then
    (List.finRange 4).foldl (fun d n =>
      let c : Fin 6 := ⟨n.1, Nat.lt_trans n.2 (by decide)⟩
      if d.f (Reg.CORE_CTX_SLICE n.1) ≠ s then d
      else if d.bit (Reg.CORE_CTX_WORLD n.1) then d.setCores (put d.cores c { d.cores[c] with irqN := true })
      else d.emit (.coreSignal n.1)) d
  else d

/-- Write the write-back block, then signal what it covers, and what rose while the slice was FROZEN; the event ring may be open again
(R144, R168, R230, R434). -/
def Dev.writeBack (d : Dev) (s : Fin 64) : Dev :=
  let e := d.slices[s]
  let loc := d.f (Reg.SLC_RING_CFG_LOC s.1 0)
  let addr := d.f64 (Reg.SLC_WB_LO_ADDR s.1) (Reg.SLC_WB_HI_ADDR s.1)
  let idx := leBytes 4 e.ci[(0 : Fin 8)] ++ ((List.finRange 8).drop 1).foldl (fun (bs : List Byte) (r : Fin 8) => bs ++ leBytes 4 e.pi[r]) []
  let d := d.write s.1 loc addr (idx ++ leBytes 8 d.now ++ leBytes 8 0 ++ leBytes 8 0 ++ leBytes 8 0)
  let d := d.modSlice s (fun e => { e with wbDirty := false, wbFirst := false, sig := [], heldVec := [] })
  let d := e.sig.foldl (fun d c => d.sendCause s.1 c) d
  (e.heldVec.foldl (fun d i => if d.f (Reg.EVT_ROUTE_SLICE i) = s.1 then d.deliver i else d) d).evtLost s.1

/-- A write of the write-back block in local memory that fails stops the command ring (R144, R169). -/
def Dev.wbCheck (d : Dev) (s : Fin 64) : Dev :=
  if d.localRing s.1 0 && d.dmaOpen s.1 then
    match d.reach 8 s.1 .write (d.f64 (Reg.SLC_WB_LO_ADDR s.1) (Reg.SLC_WB_HI_ADDR s.1)) 64 with
    | .fails a => (d.stopRing s.1 0 .write a).dmaEvent s.1 0 (d.ringCi s.1 0)
    | _ => d
  else d

/-- WRITEBACK_WRITE: written while the command ring is enabled and running and the location reachable (R144). -/
def Dev.writebackWrite (d : Dev) (s : Fin 64) : Dev :=
  let addr := d.f64 (Reg.SLC_WB_LO_ADDR s.1) (Reg.SLC_WB_HI_ADDR s.1)
  if (d.slices[s]).wbDirty && d.wbEnabled s.1 then
    if d.wbPath s.1 (d.f (Reg.SLC_RING_CFG_LOC s.1 0)) addr then d.writeBack s else d.wbCheck s
  else d

/-- WRITEBACK_WRITE. -/
def execWritebackWrite (i : Fin 64) (s : State) : Host.Outcome State Fault Refusal := s.done (s.dev.writebackWrite i)

/-- PROGRESS_COMPLETION: due every PROG_MS; it takes the channel's progress slot, or is dropped when the ring is full
(R166). -/
def Dev.progress (d : Dev) (v k : Fin 16) : Dev :=
  let c := d.chan v k
  match c.run with
  | some r =>
    if r.d.flag 3 ∧ r.nextProg ≤ d.now then
      let s := c.slice
      let q := (d.stepTotals v k r).1
      let x := d.stepCmp v k r 0x05 0 r.nextProg none
      let cmp := { x with cflags := x.cflags - 1, progress := true, qOf := none,
                          valC := if x.qOf.isSome then pattern 32 q else x.valC }
      let d := d.modChan v k (fun c => { c with run := some { r with
        nextProg := r.nextProg + 400000 * d.f (Reg.SLC_RING_CTL_PROG_MS s) } })
      if d.bit (Reg.SLC_RING_CFG_EN s 1) && !d.ringRoom s 1 then d.bump (Reg.SLC_PROG_DROP_COUNT s)
      else
        (d.modSlice (sl s) (fun e => { e with cmps := e.cmps.filter (fun y => !(y.progress && y.ch == cmp.ch)) })).addCmp s cmp
    else d
  | none => d

/-- PROGRESS_COMPLETION. -/
def execProgressCompletion (v k : Fin 16) (s : State) : Host.Outcome State Fault Refusal := s.done (s.dev.progress v k)

/-! ### Errors and configuration (R142, R169) -/

/-- DMA_ERROR: an enabled ring stops; the access to a ring in local memory met an uncorrectable error (R169, R352, R357).
[DEDUCED, log 131] -/
def Dev.dmaError (d : Dev) (s : Fin 64) (r : Fin 8) (index : Nat) : Dev :=
  if d.bit (Reg.SLC_RING_CFG_EN s.1 r.1) && !d.ringStopped s.1 r.1 then
    let d := if d.localRing s.1 r.1 then d.engineUe (engineSrc 8 s.1) (r != 0) (d.entryAddr s.1 r.1 index) else d
    (d.setTb (Reg.SLC_RING_STAT_DMA_ERR s.1) r.1 true).dmaEvent s.1 r index
  else d

/-- DMA_ERROR. -/
def execDmaError (i : Fin 64) (r : Fin 8) (index : Word) (s : State) : Host.Outcome State Fault Refusal :=
  s.done (s.dev.dmaError i r index.toNat)

/-- A ring is enabled: both indices take SLC_RINGr_IDX, and a stop by a DMA error ends (R143, R169). [DEDUCED, log 55] -/
def Dev.enableRing (d : Dev) (s : Fin 64) (r : Fin 8) : Dev :=
  let x := d.f (Reg.SLC_RING_IDX_IDX s.1 r.1)
  let d := d.modSlice s (fun e => { e with pi := put e.pi r x, ci := put e.ci r x, cmdPi := if r = 0 then x else e.cmdPi })
  let d := (d.setF (Reg.SLC_RING_CFG_EN s.1 r.1) 1).setTb (Reg.SLC_RING_STAT_DMA_ERR s.1) r.1 false
  if r = 2 then (d.evtFull s.1).evtLost s.1 else d

/-- A ring is disabled; fetching that was blocked is blocked no longer. -/
def Dev.disableRing (d : Dev) (s : Fin 64) (r : Fin 8) : Dev :=
  let d := d.setF (Reg.SLC_RING_CFG_EN s.1 r.1) 0
  if r = 0 then (d.modSlice s (fun e => { e with stallAt := none })).setF (Reg.SLC_RING_STAT_CMD_STALL s.1) 0 else d

/-- A write of SLC_RINGr_CFG (R142, R212): the layout changes only while the ring is disabled; EN acts; an enable whose
host location is not the slice's port is refused. [DEDUCED, log 12] -/
def Dev.ringCfg (d : Dev) (src : Src) (s : Fin 64) (r : Fin 8) (w : Nat) : Dev :=
  let addr := Reg.SLC_RING_CFG_at s.1 r.1
  let was := d.bit (Reg.SLC_RING_CFG_EN s.1 r.1)
  let one (d : Dev) (f : RF) (ok : Nat → Bool) : Dev × Bool :=
    let x := bits w f.lo f.w
    if x = d.f f then (d, true) else if !was && ok x then (d.setF f x, true) else (d, false)
  let a := one d (Reg.SLC_RING_CFG_LOG2 s.1 r.1) (fun x => 4 ≤ x && x ≤ 16)
  let b := one a.1 (Reg.SLC_RING_CFG_LOC s.1 r.1) (· ≤ 2)
  let c := one b.1 (Reg.SLC_RING_CFG_ESIZE s.1 r.1) (fun x => 3 ≤ r.1 || x == 0)
  let d := if a.2 && b.2 && c.2 then c.1 else c.1.logR9 src addr
  let loc := d.f (Reg.SLC_RING_CFG_LOC s.1 r.1)
  if w.testBit 0 then
    if was then d
    else if loc < 2 ∧ loc ≠ d.f (Reg.SLC_PASID_PORT s.1) then d.logRefused src addr
    else d.enableRing s r
  else if was then d.disableRing s r
  else d

/-- RING_CFG_WRITE. -/
def execRingCfgWrite (src : Src) (i : Fin 64) (r : Fin 8) (data : Word) (s : State) : Host.Outcome State Fault Refusal :=
  s.done (s.dev.onWrite src (Reg.SLC_RING_CFG_at i.1 r.1) (fun d => d.ringCfg src i r data.toNat))

end Sys2Proof.Machine
end

