-- ==== Sys2Proof/Machine/SliceCmds.lean ====
section
/-!
DEFINITION. Commands of the chapter Slices and isolation (R212–R231).
-/

namespace Sys2Proof.Machine
open Sys2Proof

/-! ### Results (R217) -/

def sOk : Nat := 1
def sBusy : Nat := 2
def sNoRes : Nat := 3
def sNotIdle : Nat := 4
def sStrict : Nat := 5
def sPasid : Nat := 6
def sRefused : Nat := 7
def sPort : Nat := 8

/-- A slice command ends with a result. -/
def Dev.sliceEnd (d : Dev) (s result : Nat) : Dev :=
  let d := d.setSliceCmd none
  let d := (d.setF Reg.SLICE_CMD_STAT_BUSY 0).setF Reg.SLICE_CMD_STAT_RESULT result
  (d.setF Reg.SLICE_CMD_STAT_SLICE s).pend 93

/-- A slice command goes on running. -/
def Dev.sliceRuns (d : Dev) (op s : Nat) : Dev :=
  let d := d.setSliceCmd (some (op, s, d.now))
  ((d.setF Reg.SLICE_CMD_STAT_BUSY 1).setF Reg.SLICE_CMD_STAT_RESULT 0).setF Reg.SLICE_CMD_STAT_SLICE s

/-! ### Pools (R215) -/

/-- The vector range [base, base + count) is free on a port. -/
def Dev.vecFree (d : Dev) (port base count : Nat) : Bool :=
  (List.range 64).all (fun s =>
    d.f (Reg.SLC_STATE_STATE s) == 0 || d.f (Reg.SLC_PASID_PORT s) != port || d.f (Reg.SLC_VEC_COUNT s) == 0 ||
    base + count ≤ d.f (Reg.SLC_VEC_BASE s) || d.f (Reg.SLC_VEC_BASE s) + d.f (Reg.SLC_VEC_COUNT s) ≤ base)

/-- First free base for a number of vectors: 0, or the end of a range in use. [DEDUCED, log 61; DESIGN CHOICE, log 62] -/
def Dev.vecBase (d : Dev) (port count : Nat) : Option Nat :=
  if count = 0 then some 0
  else
    let ends := (0 :: (List.range 64).map (fun s => d.f (Reg.SLC_VEC_BASE s) + d.f (Reg.SLC_VEC_COUNT s))).filter
      (fun b => b + count ≤ 1024 && d.vecFree port b count)
    ends.foldl (fun m b => match m with | none => some b | some x => some (min x b)) none

/-- The free-vector count of a port. -/
def freeVec (port : Nat) : RF := if port = 0 then Reg.SLICE_FREE_VEC_H0 else Reg.SLICE_FREE_VEC_H1

/-- The identity is legal on a port for slice s (R212). [DEDUCED, log 14] -/
def Dev.pasidOk (d : Dev) (s port pasid : Nat) : Bool :=
  pasid != 0 && (List.range 64).all (fun t =>
    t == s || d.f (Reg.SLC_STATE_STATE t) == 0 || d.f (Reg.SLC_PASID_PORT t) != port || d.f (Reg.SLC_PASID_PASID t) != pasid)

/-- Give back or take the pool shares of slice s. [DESIGN CHOICE, log 62] -/
def Dev.shares (d : Dev) (s : Nat) (take : Bool) : Dev :=
  let upd (d : Dev) (r : RF) (n : Nat) : Dev := d.setF r (if take then d.f r - n else d.f r + n)
  let d := upd d (freeVec (d.f (Reg.SLC_PASID_PORT s))) (d.f (Reg.SLC_VEC_COUNT s))
  let d := upd d Reg.SLICE_FREE_RES_DRAM (d.f (Reg.SLC_DRAM_SHARE s))
  upd d Reg.SLICE_FREE_RES_SWC (d.f (Reg.SLC_SWQ_CELLS s))

/-! ### Channels -/

/-- SLC_CH names channel k of vat v for slice s. -/
def Dev.named (d : Dev) (s : Nat) (v k : Fin 16) : Bool := d.tb (Reg.SLC_CH_CH s (v.1 / 2)) (16 * (v.1 % 2) + k.1)

/-- A channel that can be given to a slice: unowned, IDLE, without a step, available (R217, R227). -/
def Dev.givable (d : Dev) (v k : Fin 16) : Bool :=
  let c := d.chan v k
  c.st == .idle && c.queue.isEmpty && c.run.isNone && c.owner.isNone && d.avail v k

/-- The ledger of a channel restarts at zero (R179); step ranges a completion may still wait for stay, with no more records. -/
def Integ.restart (g : Integ) : Integ := { fi := g.fi, fv := g.fv, steps := g.steps.map (fun s => { s with stream := 7 }) }

/-- A formed checkpoint keeps the totals a channel had before it was given away. [DEDUCED, log 59] -/
def Dev.keepTotals (d : Dev) (v k : Fin 16) : Dev :=
  let t := ((d.vats[v]).meas[k]).a.cutTotals
  d.setSlices (d.slices.map (fun e => { e with ckpt := e.ckpt.map (fun c => { c with rows := c.rows.map (fun r =>
    if r.1 = chanNo v k ∧ r.2.2.2.isNone then (r.1, r.2.1, r.2.2.1, some t) else r) }) }))

/-- A channel is given to a slice: its ledger restarts at zero (R179), its queue is unhalted. [DEDUCED, log 61] -/
def Dev.giveChan (d : Dev) (s : Fin 64) (v k : Fin 16) : Dev :=
  let d := (d.keepTotals v k).modChan v k (fun c =>
    { c with owner := some s, halt := false, stopReq := [], orphan := none, cvHist := [], orHist := [] })
  let d := d.modMeas v k (fun m =>
    { m with a := m.a.restart, b := m.b.restart, seq := 0, impSeq := 0, ckModf := false, ckSus := false, ckGap := false })
  d.setTb (Reg.VAT_LDG_DIV_CH v.1) k.1 false

/-- Do something for every channel slice s holds. -/
def Dev.eachHeld (d : Dev) (s : Fin 64) (f : Dev → Fin 16 → Fin 16 → Dev) : Dev :=
  foldScope (fun v k => (d.chan v k).owner == some s) d f

/-! ### CREATE (R217) -/

/-- The first condition of R217 that CREATE fails, if any. [DEDUCED, log 61] -/
def Dev.createFails (d : Dev) (s : Nat) : Option Nat :=
  let port := d.f (Reg.SLC_PASID_PORT s)
  let down (v k : Fin 16) : Bool := match (d.chan v k).owner with | some o => d.f (Reg.SLC_STATE_STATE o.1) == 2 | none => false
  if d.f (Reg.SLC_STATE_STATE s) ≠ 0 ∨ !allCh (fun v k => !d.named s v k || !down v k) then some sBusy
  else if !d.pasidOk s port (d.f (Reg.SLC_PASID_PASID s)) then some sPasid
  else if !allCh (fun v k => !d.named s v k || d.givable v k) then some sNotIdle
  else if d.bit Reg.SLICE_MODE_STRICT && !(List.finRange 16).all (fun v =>
      (List.finRange 16).all (fun k => d.named s v k) || (List.finRange 16).all (fun k => !d.named s v k)) then some sStrict
  else if allCh (fun v k => !d.named s v k) || (d.vecBase port (d.f (Reg.SLC_VEC_COUNT s))).isNone ||
      decide (d.f Reg.SLICE_FREE_RES_DRAM < d.f (Reg.SLC_DRAM_SHARE s)) ||
      decide (d.f Reg.SLICE_FREE_RES_SWC < d.f (Reg.SLC_SWQ_CELLS s)) ||
      decide (d.emptyKeys.length < 2) || !d.bit Reg.MORD_STAT_DRBG_OK then some sNoRes
  else none

/-- The slice comes to life at one instant (R217). -/
def Dev.createNow (d : Dev) (s : Fin 64) : Dev :=
  let base := (d.vecBase (d.f (Reg.SLC_PASID_PORT s.1)) (d.f (Reg.SLC_VEC_COUNT s.1))).getD 0
  let d := (d.shares s.1 true).setF (Reg.SLC_VEC_BASE s.1) base
  let d := foldScope (fun v k => d.named s.1 v k) d (fun d v k => d.giveChan s v k)
  let d := (List.finRange 8).foldl (fun d r => d.disableRing s r) d
  let d := d.setF (Reg.LDG_CFG_EN s.1) 0
  let d := ((d.setF (Reg.SLC_STATE_ORPHAN s.1) 0).setF (Reg.SLC_RING_STAT_ORPHAN s.1) 0).setF (Reg.SLC_STATE_STATE s.1) 1
  let d := d.modSlice s (fun _ => { wdogAt := d.now })
  (d.newChain s.1).review

/-- A write of SLICE_CMD with OP CREATE. -/
def Dev.create (d : Dev) (s : Fin 64) : Dev :=
  if s = 0 then d.sliceEnd s.1 sRefused
  else match d.createFails s.1 with
    | some r => d.sliceEnd s.1 r
    | none => (d.createNow s).sliceRuns 1 s.1

/-- A formed checkpoint is given up: its signature no longer holds a key (R218, R335). [DEDUCED, log 59] -/
def Dev.dropCkpt (d : Dev) (s : Fin 64) : Dev :=
  match (d.slices[s]).ckpt with
  | some c => (d.modSlice s (fun e => { e with ckpt := none })).releaseKey c.hold
  | none => d

/-- A slice is FREE again: rings disabled, shares returned, channels released, its certificate zero (R340).
[DESIGN CHOICE, log 62] -/
def Dev.freeSlice (d : Dev) (s : Fin 64) : Dev :=
  let d := (List.finRange 8).foldl (fun d r => d.disableRing s r) d
  let d := (d.shares s.1 false).setF (Reg.LDG_CFG_EN s.1) 0
  let d := d.eachHeld s (fun d v k =>
    d.modChan v k (fun c => { c with owner := none, halt := false, stopReq := [], orphan := none }))
  let d := ((d.setF (Reg.SLC_STATE_ORPHAN s.1) 0).setF (Reg.SLC_RING_STAT_ORPHAN s.1) 0).setF (Reg.SLC_STATE_STATE s.1) 0
  (((d.dropCkpt s).setCert s.1 []).modSlice s (fun _ => {})).review

/-- CREATE_COMPLETE: Mordant has derived the slice's keys; without two EMPTY slots or the DRBG, CREATE ends with NO_RES
and the slice is FREE again (R217, R339). [DEDUCED, log 61] -/
def Dev.createComplete (d : Dev) (s : Fin 64) : Dev :=
  match d.sliceCmd with
  | some (1, t, _) =>
    if t = s.1 then
      match d.makeKeys s.1 with
      | some d' => d'.sliceEnd s.1 sOk
      | none => (d.freeSlice s).sliceEnd s.1 sNoRes
    else d
  | _ => d

/-- CREATE_COMPLETE. -/
def execCreateComplete (i : Fin 64) (s : State) : Host.Outcome State Fault Refusal := s.done (s.dev.createComplete i)

/-! ### DESTROY (R218) -/

/-- The stop DESTROY puts on every channel: ABORT, with no completion of its own. -/
def teardownAbort : Desc := { op := 0x104 }

/-- A write of SLICE_CMD with OP DESTROY. [DEDUCED, log 61] -/
def Dev.destroy (d : Dev) (s : Fin 64) : Dev :=
  let st := d.f (Reg.SLC_STATE_STATE s.1)
  if s = 0 ∨ (st ≠ 1 ∧ st ≠ 3) then d.sliceEnd s.1 sRefused
  else
    let d := d.setF (Reg.SLC_STATE_STATE s.1) 2
    let d := d.modSlice s (fun e =>
      { e with tearAt := some d.now, closingDone := false, deadline := false, migPort := none, heldVec := [] })
    let d := d.eachHeld s (fun d v k => d.modChan v k (fun c => { c with stopReq := c.stopReq ++ [teardownAbort] }))
    let d := (List.finRange 16).foldl (fun d v =>
      if d.holdMask v.1 s.1 ≠ 0 then d.impAskStop v else d) d
    (d.sliceRuns 2 s.1).review

/-- CLOSING_CHECKPOINT: formed at the first multiple of 640 ticks after closure, unless the rules of R191 skip it (R218). -/
def Dev.closingCkpt (d : Dev) (s : Fin 64) : Dev :=
  if d.f (Reg.SLC_STATE_STATE s.1) = 2 ∧ !(d.slices[s]).closingDone ∧ d.bit (Reg.LDG_CFG_EN s.1) ∧ d.atRest s.1 ∧
      d.now % 640 = 0 then
    let d := if d.ckBarred s.1 then d.skipCkpt s.1 else d.formCkpt s.1 d.now true
    d.modSlice s (fun e => { e with closingDone := true })
  else d

/-- CLOSING_CHECKPOINT. -/
def execClosingCheckpoint (i : Fin 64) (s : State) : Host.Outcome State Fault Refusal := s.done (s.dev.closingCkpt i)

/-- TEARDOWN_DEADLINE: what remains one second after DESTROY is discarded and counted (R218). -/
def Dev.tearDeadline (d : Dev) (s : Fin 64) : Dev :=
  let e := d.slices[s]
  match e.tearAt with
  | some t =>
    if d.f (Reg.SLC_STATE_STATE s.1) = 2 ∧ t + 400000000 ≤ d.now ∧ !e.deadline then
      let d := (List.finRange 16).foldl (fun d v =>
        let x := d.vats[v]
        let n := (x.sbuf.filter (fun y => y.slice == s && y.ordinary)).length
        let m := (x.imp.buf.filter (fun y => y.slice == s)).length
        let d := (d.bump (Reg.VAT_LDG_DROP_COUNT v.1) n).bump (Reg.IMP_DROP_COUNT v.1) m
        d.modVat v (fun x => { x with sbuf := x.sbuf.filter (fun y => y.slice != s),
                                      imp := { x.imp with buf := x.imp.buf.filter (fun y => y.slice != s) } })) d
      (d.dropCkpt s).modSlice s (fun e => { e with cmps := [], deadline := true })
    else d
  | none => d

/-- TEARDOWN_DEADLINE. -/
def execTeardownDeadline (i : Fin 64) (s : State) : Host.Outcome State Fault Refusal := s.done (s.dev.tearDeadline i)

/-- Nothing of the slice waits for delivery. -/
def Dev.delivered (d : Dev) (s : Fin 64) : Bool :=
  let e := d.slices[s]
  e.cmps.isEmpty && e.ckpt.isNone && d.vats.toList.all (fun v =>
    !v.sbuf.any (fun y => y.slice == s) && !v.imp.buf.any (fun y => y.slice == s))

/-- TEARDOWN_DONE: everything is delivered or discarded, and from the deadline totals that are still open are waited for no more; the keys are invalidated and the slice is FREE (R218). -/
def Dev.tearDone (d : Dev) (s : Fin 64) : Dev :=
  let e := d.slices[s]
  if d.f (Reg.SLC_STATE_STATE s.1) = 2 ∧ d.delivered s ∧
      (if e.deadline then d.stilled s.1 else d.atRest s.1 && (e.closingDone || !d.bit (Reg.LDG_CFG_EN s.1))) then
    let d := d.invalidate (2 ^ d.f (Reg.SLC_STATE_KEY_LDG s.1) ||| 2 ^ d.f (Reg.SLC_STATE_KEY_SIG s.1))
    let d := (d.freeSlice s).raise Reg.SLICE_EVT_DONE 1 56
    d.sliceEnd s.1 sOk
  else d

/-- TEARDOWN_DONE. -/
def execTeardownDone (i : Fin 64) (s : State) : Host.Outcome State Fault Refusal := s.done (s.dev.tearDone i)

/-! ### Watchdog and ATTACH (R219, R220) -/

/-- An application core that is released and not fenced. -/
def Dev.coreServes (d : Dev) : Bool := (List.finRange 6).any (fun n => n.1 < 4 && !d.tb Reg.SYS_FENCE_AC n.1 && !(d.cores[n]).held)

/-- SYS_SVC.PATH_DRAM: some slice has a local ring in memory that is in service, and at least one unfenced application core serves
it (R22). [DEDUCED, log 128] -/
def Dev.pathDram (d : Dev) : Bool :=
  d.coreServes && (List.range 64).any (fun s => d.f (Reg.SLC_STATE_STATE s) != 0 && (List.range 8).any (fun r =>
    d.localRing s r && d.serves (d.f64 (Reg.SLC_RING_BASE_LO_ADDR s r) (Reg.SLC_RING_BASE_HI_ADDR s r))))

/-- The paths of the slice's rings are present: its host port's for a ring there, and the application cores' for a local one (R22,
R220). Its rings are the enabled ones and the command ring. -/
def Dev.pathsUp (d : Dev) (s : Nat) : Bool :=
  (List.range 8).all (fun r => (r != 0 && !d.bit (Reg.SLC_RING_CFG_EN s r)) ||
    (if d.f (Reg.SLC_RING_CFG_LOC s r) = 2 then d.pathDram
     else d.linkUp (d.f (Reg.SLC_PASID_PORT s))))

/-- A write of SLICE_CMD with OP ATTACH: the channels' orphan states end at their next ticks (R120, R220). [DEDUCED, log 47] -/
def Dev.attach (d : Dev) (s : Fin 64) : Dev :=
  if d.f (Reg.SLC_STATE_STATE s.1) = 1 ∧ d.bit (Reg.SLC_STATE_ORPHAN s.1) ∧ d.pathsUp s.1 ∧ d.f (Reg.SLC_RING_STAT_DMA_ERR s.1) = 0 then
    let d := ((d.setF (Reg.SLC_STATE_ORPHAN s.1) 0).setF (Reg.SLC_RING_STAT_ORPHAN s.1) 0).kickWdog s.1
    let d := (List.finRange 16).foldl (fun d v => d.eachChan (fun d k =>
      if (d.chan v k).owner = some s then
        d.modChan v k (fun c => { c with orphan := c.orphan.map (fun o => { o with endAt := some d.now }) })
      else d)) d
    (d.event s.1 0x06 none 0 0).sliceEnd s.1 sOk
  else d.sliceEnd s.1 sRefused

/-- CONTROLLER_WATCHDOG_EXPIRY (R219). [DEDUCED, log 109, 112] -/
def Dev.ctlExpiry (d : Dev) (s : Fin 64) : Dev :=
  let n := d.f (Reg.SLC_WDOG_TIMEOUT s.1)
  if d.f (Reg.SLC_STATE_STATE s.1) = 1 ∧ n ≠ 0 ∧ !d.bit (Reg.SLC_STATE_ORPHAN s.1) ∧
      (d.slices[s]).wdogAt + 400000 * n ≤ d.now then d.orphanSlice s.1 else d

/-- CONTROLLER_WATCHDOG_EXPIRY. -/
def execControllerWatchdogExpiry (i : Fin 64) (s : State) : Host.Outcome State Fault Refusal := s.done (s.dev.ctlExpiry i)

/-! ### Partition mode (R221) -/

/-- A write of SLICE_MODE: STRICT with LEGACY is reserved; a change waits for a device without other slices and S0's
channels IDLE. -/
def Dev.sliceMode (d : Dev) (src : Src) (w : Nat) : Dev :=
  let st := w.testBit 0
  let lg := w.testBit 1
  if st == d.bit Reg.SLICE_MODE_STRICT && lg == d.bit Reg.SLICE_MODE_LEGACY then d
  else if st && lg then d.logR9 src Reg.SLICE_MODE_at
  else if (List.range 64).all (fun s => s == 0 || d.f (Reg.SLC_STATE_STATE s) == 0) &&
      allCh (fun v k => (d.chan v k).owner != some 0 || (d.chan v k).st == .idle) then
    ((d.setB Reg.SLICE_MODE_STRICT st).setB Reg.SLICE_MODE_LEGACY lg).review
  else d.logRefused src Reg.SLICE_MODE_at

/-- SLICE_MODE_WRITE. -/
def execSliceModeWrite (src : Src) (data : Word) (s : State) : Host.Outcome State Fault Refusal :=
  s.done (s.dev.onWrite src Reg.SLICE_MODE_at (fun d => d.sliceMode src data.toNat))

/-! ### RESIZE (R227) -/

/-- A channel still to be moved by a RESIZE of slice s: named and not held, or held and not named. -/
def Dev.toMove (d : Dev) (s : Fin 64) (v k : Fin 16) : Bool := d.named s.1 v k != ((d.chan v k).owner == some s)

/-- A RESIZE with nothing left to move ends with OK. -/
def Dev.resizeCheck (d : Dev) (s : Fin 64) : Dev := if allCh (fun v k => !d.toMove s v k) then d.sliceEnd s.1 sOk else d

/-- A write of SLICE_CMD with OP RESIZE: only an ACTIVE slice of a LEGACY device has a staged set. [DEDUCED, log 61] -/
def Dev.resize (d : Dev) (s : Fin 64) : Dev :=
  if s = 0 ∨ d.bit Reg.SLICE_MODE_STRICT ∨ !d.bit Reg.SLICE_MODE_LEGACY ∨ d.f (Reg.SLC_STATE_STATE s.1) ≠ 1 then
    d.sliceEnd s.1 sRefused
  else (d.sliceRuns 6 s.1).resizeCheck s

/-- CHANNEL_MOVE: a channel joins when it can be given, or leaves at a tick at which it is IDLE with an empty queue
(R227); the chain restarts with a channel that joins (R190). -/
def Dev.channelMove (d : Dev) (v k : Fin 16) : Dev :=
  match d.sliceCmd with
  | some (6, t, _) =>
    let s := sl t
    let c := d.chan v k
    if !d.toMove s v k then d
    else if d.named t v k then
      if d.givable v k then (((d.giveChan s v k).newChain t).resizeCheck s).review else d
    else if c.st == .idle && c.queue.isEmpty && c.run.isNone then
      ((d.modChan v k (fun c => { c with owner := none, halt := false, stopReq := [], orphan := none })).resizeCheck s).review
    else d
  | _ => d

/-- CHANNEL_MOVE. -/
def execChannelMove (v k : Fin 16) (s : State) : Host.Outcome State Fault Refusal := s.done (s.dev.channelMove v k)

/-- RESIZE_TIMEOUT: moves not done within 10 s end the command with NOT_IDLE (R227). -/
def Dev.resizeTimeout (d : Dev) : Dev :=
  match d.sliceCmd with
  | some (6, s, t) => if t + 4000000000 ≤ d.now then d.sliceEnd s sNotIdle else d
  | _ => d

/-- RESIZE_TIMEOUT. -/
def execResizeTimeout (s : State) : Host.Outcome State Fault Refusal := s.done s.dev.resizeTimeout

/-! ### Migration (R230, R231) -/

/-- A write of SLICE_CMD with OP MIGRATE: the slice's DMA stops if the checks pass. -/
def Dev.migrate (d : Dev) (s : Fin 64) (port : Nat) : Dev :=
  if s = 0 ∨ d.f (Reg.SLC_STATE_STATE s.1) ≠ 1 ∨ d.bit Reg.DPL_STAT_OVF then d.sliceEnd s.1 sRefused
  else if !d.linkUp port ∨ (d.vecBase port (d.f (Reg.SLC_VEC_COUNT s.1))).isNone then d.sliceEnd s.1 sPort
  else if !d.pasidOk s.1 port (d.f (Reg.SLC_MIG_NEW_PASID s.1)) then d.sliceEnd s.1 sPasid
  else (d.modSlice s (fun e => { e with migPort := some port })).sliceRuns 4 s.1

/-- FREEZE: the final write-back block is written and the slice is FROZEN (R230). -/
def Dev.freeze (d : Dev) (s : Fin 64) : Dev :=
  match d.sliceCmd with
  | some (4, t, _) =>
    if t ≠ s.1 then d
    else
      let loc := d.f (Reg.SLC_RING_CFG_LOC s.1 0)
      let addr := d.f64 (Reg.SLC_WB_LO_ADDR s.1) (Reg.SLC_WB_HI_ADDR s.1)
      let d := if d.wbEnabled s.1 &&
          (if loc < 2 then d.linkUp loc else d.localOpen 8 s.1 .write addr 64) then d.writeBack s else d
      let d := (d.setF (Reg.SLC_STATE_STATE s.1) 3).modSlice s (fun e => { e with frozenAt := d.now })
      (d.sliceEnd s.1 sOk).review
  | _ => d

/-- FREEZE. -/
def execFreeze (i : Fin 64) (s : State) : Host.Outcome State Fault Refusal := s.done (s.dev.freeze i)

/-- The slice takes its new identity, port, locations and vectors (R230). -/
def Dev.moveSlice (d : Dev) (s : Fin 64) (port base : Nat) : Dev :=
  let old := d.f (Reg.SLC_PASID_PORT s.1)
  let n := d.f (Reg.SLC_VEC_COUNT s.1)
  let d := d.setF (freeVec old) (d.f (freeVec old) + n)
  let d := d.setF (freeVec port) (d.f (freeVec port) - n)
  let d := (d.setF (Reg.SLC_PASID_PASID s.1) (d.f (Reg.SLC_MIG_NEW_PASID s.1))).setF (Reg.SLC_PASID_PORT s.1) port
  let d := d.setF (Reg.SLC_VEC_BASE s.1) base
  let d := forEach 8 d (fun d r => if d.f (Reg.SLC_RING_CFG_LOC s.1 r) = old then d.setF (Reg.SLC_RING_CFG_LOC s.1 r) port else d)
  if d.f (Reg.LDG_CFG_LOC s.1) = old then d.setF (Reg.LDG_CFG_LOC s.1) port else d

/-- The slice leaves FROZEN: what waited carries BUFFERED, the first DMA is a write-back block, and the sources that rose are sent
on its vectors after it, or at once where no block is written; events lost meanwhile are told (R168, R230, R434).
[DEDUCED, log 63] -/
def Dev.thaw (d : Dev) (s : Fin 64) : Dev :=
  let held := (d.slices[s]).heldVec
  let d := forEach 5 d (fun d x => d.keepDue s.1 x)
  let wb := d.wbEnabled s.1
  let d := (d.setF (Reg.SLC_STATE_STATE s.1) 1).modSlice s (fun e =>
    { e with migPort := none, wbDirty := true, wbFirst := true, cmps := e.cmps.map Cmp.buffered,
             heldVec := if wb then held else [], wdogAt := d.now })
  if wb then d
  else (held.foldl (fun d i => if d.f (Reg.EVT_ROUTE_SLICE i) = s.1 then d.deliver i else d) d).evtLost s.1

/-- A write of SLICE_CMD with OP RESUME. -/
def Dev.sliceResume (d : Dev) (s : Fin 64) (port : Nat) : Dev :=
  if d.f (Reg.SLC_STATE_STATE s.1) ≠ 3 then d.sliceEnd s.1 sRefused
  else if port = d.f (Reg.SLC_PASID_PORT s.1) then ((d.thaw s).sliceEnd s.1 sOk).review
  else if (d.slices[s]).migPort ≠ some port ∨ !d.linkUp port then d.sliceEnd s.1 sPort
  else match d.vecBase port (d.f (Reg.SLC_VEC_COUNT s.1)) with
    | none => d.sliceEnd s.1 sPort
    | some b =>
      if !d.pasidOk s.1 port (d.f (Reg.SLC_MIG_NEW_PASID s.1)) then d.sliceEnd s.1 sPasid
      else (((d.moveSlice s port b).thaw s).sliceEnd s.1 sOk).review

/-- FREEZE_MAX_EXPIRY: a slice FROZEN too long is orphaned and stays FROZEN (R231). -/
def Dev.freezeExpiry (d : Dev) (s : Fin 64) : Dev :=
  if d.f (Reg.SLC_STATE_STATE s.1) = 3 ∧ (d.slices[s]).frozenAt + 400000 * d.f (Reg.SLC_WDOG_FREEZE_MAX s.1) ≤ d.now then
    d.orphanSlice s.1
  else d

/-- FREEZE_MAX_EXPIRY. -/
def execFreezeMaxExpiry (i : Fin 64) (s : State) : Host.Outcome State Fault Refusal := s.done (s.dev.freezeExpiry i)

/-! ### SLICE_CMD -/

/-- A write of SLICE_CMD: refused while a command runs, else the operation it names; codes 0 and 7 are reserved (R217). -/
def Dev.sliceCmdWrite (d : Dev) (src : Src) (w : Nat) : Dev :=
  let s := sl (bits w 0 6)
  let port := bits w 16 1
  if d.bit Reg.SLICE_CMD_STAT_BUSY then d.logRefused src Reg.SLICE_CMD_at
  else match bits w 8 3 with
    | 1 => d.create s
    | 2 => d.destroy s
    | 3 => d.attach s
    | 4 => d.migrate s port
    | 5 => d.sliceResume s port
    | 6 => d.resize s
    | _ => d.logR9 src Reg.SLICE_CMD_at

/-- CREATE: a write of SLICE_CMD. -/
def execCreate (src : Src) (data : Word) (s : State) : Host.Outcome State Fault Refusal :=
  s.done (s.dev.onWrite src Reg.SLICE_CMD_at (fun d => d.sliceCmdWrite src data.toNat))

/-- DESTROY: a write of SLICE_CMD. -/
def execDestroy (src : Src) (data : Word) (s : State) : Host.Outcome State Fault Refusal :=
  s.done (s.dev.onWrite src Reg.SLICE_CMD_at (fun d => d.sliceCmdWrite src data.toNat))

/-- ATTACH: a write of SLICE_CMD. -/
def execAttach (src : Src) (data : Word) (s : State) : Host.Outcome State Fault Refusal :=
  s.done (s.dev.onWrite src Reg.SLICE_CMD_at (fun d => d.sliceCmdWrite src data.toNat))

/-- MIGRATE: a write of SLICE_CMD. -/
def execMigrate (src : Src) (data : Word) (s : State) : Host.Outcome State Fault Refusal :=
  s.done (s.dev.onWrite src Reg.SLICE_CMD_at (fun d => d.sliceCmdWrite src data.toNat))

/-- RESUME of a slice: a write of SLICE_CMD. -/
def execSliceResume (src : Src) (data : Word) (s : State) : Host.Outcome State Fault Refusal :=
  s.done (s.dev.onWrite src Reg.SLICE_CMD_at (fun d => d.sliceCmdWrite src data.toNat))

/-- RESIZE: a write of SLICE_CMD. -/
def execResize (src : Src) (data : Word) (s : State) : Host.Outcome State Fault Refusal :=
  s.done (s.dev.onWrite src Reg.SLICE_CMD_at (fun d => d.sliceCmdWrite src data.toNat))

end Sys2Proof.Machine
end

