-- ==== Sys2Proof/Machine/Views.lean ====
section
/-!
DEFINITION. Reading a setup register (R5, R6, R10): registers that show what an engine holds are brought up to date, then
the fields are put in their places.
-/

namespace Sys2Proof.Machine
open Sys2Proof

/-- Which of `count` registers `stride` apart an address is, if it is one. -/
def pos (base stride count a : Nat) : Option Nat :=
  if base ≤ a ∧ (a - base) % stride = 0 ∧ (a - base) / stride < count then some ((a - base) / stride) else none

/-- How many bits below `n` are set. -/
def ones (n x : Nat) : Nat := ((List.range n).filter (fun i => x.testBit i)).length

/-- SYS_SVC (R21–R23). -/
def Dev.viewSvc (d : Dev) : Dev :=
  let vats := ((List.range 16).filter (fun v => d.bit (Reg.VAT_STAT_IN_SERVICE v))).length
  let chans := (List.range 8).foldl (fun n i => n + ones 32 (d.f (Reg.SYS_CHAN_AVAIL_CH i))) 0
  let base := d.bit Reg.SYS_SVC_BASE
  let path := d.linkUp 0 || d.linkUp 1 || d.pathDram
  let d := (d.setB Reg.SYS_SVC_PATH_H0 (d.linkUp 0)).setB Reg.SYS_SVC_PATH_H1 (d.linkUp 1)
  let d := ((d.setF Reg.SYS_SVC_VATS vats).setF Reg.SYS_SVC_CHANS chans).setB Reg.SYS_SVC_NET base
  (d.setB Reg.SYS_SVC_PATH_DRAM d.pathDram).setB Reg.SYS_SVC_CHAN (base && vats != 0 && path)

/-- A start of the channel is held (R116). -/
def Chan.held (c : Chan) : Bool :=
  match c.queue with
  | q :: _ => q.heldAt.isSome
  | [] => false

/-- VAT_CHSTAT (R100); every member of a gang reads the gang step's MODE and CV_ACT (R106, R138). -/
def Dev.viewChan (d : Dev) (v k : Fin 16) : Dev :=
  let c := (d.vats[v]).chans[k]
  let r (f : Nat → Nat → RF) : RF := f v.1 k.1
  let d := (d.setF (r Reg.VAT_CHSTAT_STATE) c.st.code).setF (r Reg.VAT_CHSTAT_MODE) (match d.stepOf v k with | some x => x.d.mode | none => 0)
  let d := (d.setF (r Reg.VAT_CHSTAT_TUNE) c.tuneIdx).setB (r Reg.VAT_CHSTAT_CV_ACT) (d.cvOf v k)
  let d := (d.setB (r Reg.VAT_CHSTAT_ORPHAN) (match c.orphan with | some o => o.shown | none => false)).setB
    (r Reg.VAT_CHSTAT_DEFERRED) c.held
  (d.setF (r Reg.VAT_CHSTAT_LAST_STOP) c.lastStop).setF (r Reg.VAT_CHSTAT_SEQ) c.cmd.seq

/-- The registers of a VAT block that show channel state. -/
def Dev.viewVat (d : Dev) (v : Fin 16) (off : Nat) : Dev :=
  let x := d.vats[v]
  let mask (p : Chan → Bool) : Nat := (List.finRange 16).foldl (fun m k => if p x.chans[k] then m + 2 ^ k.1 else m) 0
  if off = 0 then d.setF (Reg.VAT_STAT_IDLE v.1) (mask (fun c => c.st == .idle))
  else if off = 0x10 then
    d.setF (Reg.VAT_ORPHAN_CH v.1) (mask (fun c => match c.orphan with | some o => o.shown | none => false))
  else if off = 0x758 then d.setF (Reg.VAT_LDG_BUF_USED v.1) x.used
  else match pos 0x40 4 16 off with
  | some k => d.viewChan v (v16 k)
  | none => match pos 0x80 4 16 off with
  | some k => (d.setF (Reg.VAT_DUTY_DUTY v.1 k) (x.chans[v16 k]).cmd.duty).setF (Reg.VAT_DUTY_PHASE v.1 k) (x.chans[v16 k]).cmd.phase
  | none => match pos 0xC0 4 16 off with
  | some k => d.setF (Reg.VAT_IREF_R v.1 k) (pattern 32 (x.chans[v16 k]).r)
  | none => d

/-- EMPTY slots of the key store (R336). [DESIGN CHOICE, log 11] -/
def Dev.freeKeys (d : Dev) : Nat := ((List.range 128).filter (fun k => d.slotState k == 0)).length

/-- SLC_RING_IDX shows the producer index, of the command ring the consumer index, while the ring is enabled (R142). -/
def Dev.viewRing (d : Dev) (s r : Nat) : Dev :=
  if d.bit (Reg.SLC_RING_CFG_EN s r) then
    let e := d.slices[sl s]
    d.setF (Reg.SLC_RING_IDX_IDX s r) (if r = 0 then e.ci[(0 : Fin 8)] else e.pi.toList.getD r 0)
  else d

/-- Cells on the switch's free list (R247): those no queue keeps and no auditor pass has found to be on no list. -/
def Dev.freeCells (d : Dev) : Nat :=
  24576 - d.sw.unlisted.length - (List.finRange 8).foldl (fun n p => n + (List.finRange 8).foldl (fun n q => n + queueCells d.sw.ports[p] q) 0) 0

/-- A capture input's oldest stamp (R280). -/
def Dev.viewCap (d : Dev) (n : Fin 8) : Dev :=
  let xs := d.ptp.cap[n]
  (d.setF64 (Reg.TB_CAP_LO_TS n.1) (Reg.TB_CAP_HI_TS n.1) (xs.headD 0)).setF (Reg.TB_CAP_STAT_COUNT n.1) xs.length

/-- A free value in a field, and its high word if it has one. [DESIGN CHOICE, log 7, 21] -/
def Dev.viewFree (d : Dev) (r : RF) : Dev :=
  let x := d.free r.w
  x.2.setF r x.1

/-- The register at an address brought up to date: time, service level, what vats, slices, rings, switch, key store, boot and
supply hold, and what the model leaves free (measured voltages). [DESIGN CHOICE, log 11, 21] -/
def Dev.viewed (d : Dev) (src : Src) (a : Nat) : Dev :=
  if a = Reg.TB_NOW_LO_at ∨ a = Reg.TB_NOW_HI_at then d.setF64 Reg.TB_NOW_LO_NOW Reg.TB_NOW_HI_NOW d.now
  else if a = Reg.SYS_SVC_at then d.viewSvc
  else if 0x20010000 ≤ a ∧ a < 0x20020000 then d.viewVat (v16 ((a - 0x20010000) / 0x1000)) (a % 0x1000)
  else if a = Reg.SLICE_STAT_at then (d.setF Reg.SLICE_STAT_COND d.conds).setB Reg.SLICE_STAT_GUARANTEE d.guaranteed
  else if a = Reg.SLICE_FREE_RES_at then d.setF Reg.SLICE_FREE_RES_KEYS d.freeKeys
  else if a = Reg.MORD_STAT_at then (d.setF Reg.MORD_STAT_LC d.fuse.lc).setF Reg.MORD_STAT_FREE d.freeKeys
  else if a = Reg.MORD_DEVID_LO_at ∨ a = Reg.MORD_DEVID_HI_at then d.setF64 Reg.MORD_DEVID_LO_ID Reg.MORD_DEVID_HI_ID Config.deviceId
  else if a = Reg.RST_SVN_at then d.setF Reg.RST_SVN_MIN d.fuse.svnMin
  else if a = Reg.SW_FREE_CELLS_at then d.setF Reg.SW_FREE_CELLS_CELLS d.freeCells
  else if a = Reg.PWR_STAT_at then d.setB Reg.PWR_STAT_VAUX_OK d.sup.vaux
  else if a = Reg.PWR_VMEAS_at then (d.viewFree Reg.PWR_VMEAS_VIN).viewFree Reg.PWR_VMEAS_VAUX
  else if a = Reg.MAD_HB_STAT_at then
    d.setF Reg.MAD_HB_STAT_AGE (match d.mad.beatAt with | some t => min 0xFFFF ((d.up - t) / 400000) | none => 0xFFFF)
  else if a = Reg.MAD_STAT_at then
    d.setB Reg.MAD_STAT_HB_OK (match d.mad.beatAt with | some t => decide (d.up < t + d.hbTo) | none => false)
  else if 0x20040000 ≤ a ∧ a < 0x20050000 ∧ a % 0x400 < 0x80 ∧ a % 16 = 12 then
    d.viewRing ((a - 0x20040000) / 0x400) (a % 0x400 / 16)
  else if 0x20003200 ≤ a ∧ a < 0x20003280 then d.viewCap (p8 ((a - 0x20003200) / 16))
  else if 0x20070000 ≤ a ∧ a < 0x20078000 ∧ a % 0x1000 = 0x84 then
    let n := p8 ((a - 0x20070000) / 0x1000)
    d.setF (Reg.CAN_SUP_STAT_BOCNT n.1) (d.boffNow n).length
  else if 0x2009C020 ≤ a ∧ a < 0x2009C040 then
    let i := (a - 0x2009C020) / 8
    if bar0 src then d
    else
      let s := if src.master.1 ≤ 5 then d.f (Reg.CORE_CTX_SLICE src.master.1) else src.slice.1
      (d.setF (Reg.PERF_OWN_CNT_LO_VALUE i) (d.f (Reg.PERF_CNT_LO_COUNT s i))).setF (Reg.PERF_OWN_CNT_HI_VALUE i)
        (d.f (Reg.PERF_CNT_HI_COUNT s i))
  else if a = Reg.PERF_OWN_SEL_at then
    if bar0 src then d
    else
      let s := d.f (Reg.CORE_CTX_SLICE src.master.1)
      d.setF Reg.PERF_OWN_SEL_VALUE (d.f (Reg.PERF_SEL_EV0 s) + 2 ^ 8 * d.f (Reg.PERF_SEL_EV1 s) + 2 ^ 16 * d.f (Reg.PERF_SEL_EV2 s) +
        2 ^ 24 * d.f (Reg.PERF_SEL_EV3 s))
  else match pos 0x20082000 4 64 a with
  | some w => d.setF (Reg.MORD_DCERT_WORD w) (ofLeBytes ((deviceCert.drop (4 * w)).take 4))
  | none => d

/-- The word a register reads as: what an engine holds is shown, and the free values drawn count. -/
def Dev.regWord (d : Dev) (src : Src) (a : Nat) : Nat × Dev :=
  match Reg.row a with
  | some row =>
    let x := d.viewed src a
    (x.rowWord row a, (d.setFreeN x.freeN))
  | none => (0, d)

/-- A read of a register that has passed `Dev.guard` (R5, R6, R10): a low word captures the high word for the reading master,
whose next read of the high word returns what was captured. [DEDUCED, log 20] -/
def Dev.readReg (d : Dev) (src : Src) (a : Nat) : Dev :=
  let r := d.regWord src a
  if isLow a then
    let h := r.2.regWord src (a + 4)
    let d := h.2.answer r.1
    d.setCapHigh ((src.master.1, a, h.1) :: pairDrop d.capHigh src.master.1 a)
  else if isHigh a then
    match pairFind d.capHigh src.master.1 (a - 4) with
    | some x => (d.answer x).setCapHigh (pairDrop d.capHigh src.master.1 (a - 4))
    | none => r.2.answer r.1
  else r.2.answer r.1

end Sys2Proof.Machine
end

