-- ==== Sys2Proof/Machine/RegRules.lean ====
section
/-!
DEFINITION. Writing a setup register that has no row of its own (R6, R9, R10): the rules the fields state beyond their
ranges, and what follows from the write.
-/

namespace Sys2Proof.Machine
open Sys2Proof

/-- A rule the field states: kept, or broken (R9). [DEDUCED, log 13] -/
def rule (p : Bool) : Verdict := if p then .act else .bad

/-- A write that is refused and logged unless a condition holds. [DEDUCED, log 12, 13] -/
def unlessRefused (p : Bool) : Verdict := if p then .act else .refuse

/-- A consumer or producer index of a ring under R143 passes R147's tests. -/
def producerOk (pi ci size p : Nat) : Bool :=
  decide (0 ≤ sdiff32 p pi) && decide (0 ≤ sdiff32 p ci) && decide (sdiff32 p ci ≤ size)

/-- Rules of the blocks of the rings, slices, ledger and vats. `w` is the word written. [DEDUCED, log 13, 14] -/
def Dev.sliceVerdict (d : Dev) (a w : Nat) (f : FieldRow) : Verdict :=
  if 0x20010000 ≤ a ∧ a < 0x20020000 then
    if 0x420 ≤ a % 0x1000 ∧ a % 0x1000 < 0x460 ∧ f.lo < 16 then
      let hi := signed 8 (bits w 0 8)
      let lo := signed 8 (bits w 8 8)
      rule (decide (-28 ≤ lo ∧ lo < hi ∧ hi ≤ 28))
    else .act
  else if a = Reg.DPL_BASE_LO_at ∨ a = Reg.DPL_BASE_HI_at then rule (!d.bit Reg.DPL_CFG_EN)
  else if a = Reg.DPL_CI_at then unlessRefused (consumerOk (d.f Reg.DPL_PI_PI) (d.f Reg.DPL_CI_CI) w)
  else if 0x20031000 ≤ a ∧ a < 0x20032000 then
    let s := (a - 0x20031000) / 0x40
    let o := a % 0x40
    let free := d.f (Reg.SLC_STATE_STATE s) == 0
    if o = 4 then
      if s = 0 then rule (bits w 0 20 == 0 || d.pasidOk 0 (bits w 20 1) (bits w 0 20)) else rule free
    else if o = 8 ∨ o = 12 ∨ o = 16 then rule free
    else if 0x20 ≤ o then rule (free || (d.f (Reg.SLC_STATE_STATE s) == 1 && d.bit Reg.SLICE_MODE_LEGACY))
    else .act
  else if 0x20038000 ≤ a ∧ a < 0x20039000 then
    let s := (a - 0x20038000) / 0x40
    if a % 0x40 = 4 ∨ a % 0x40 = 8 then rule (!d.bit (Reg.LDG_CFG_EN s)) else .act
  else if 0x20040000 ≤ a ∧ a < 0x20050000 ∧ a % 0x400 < 0x80 then
    let on := d.bit (Reg.SLC_RING_CFG_EN ((a - 0x20040000) / 0x400) (a % 0x400 / 16))
    if a % 16 < 8 then rule (!on) else if a % 16 = 12 ∧ on then .leave else .act
  else .act

/-- Rules of the switch, the cascade, network time and CAN. [DEDUCED, log 12, 13, 66, 71] -/
def Dev.netVerdict (d : Dev) (a w : Nat) (f : FieldRow) : Verdict :=
  if 0x20050040 ≤ a ∧ a < 0x20050050 then rule (!d.bit Reg.SW_C_CFG_EN)
  else if a = Reg.SW_C_TX_PI_at then
    unlessRefused (producerOk (d.f Reg.SW_C_TX_PI_IDX) (d.f Reg.SW_C_TX_CI_IDX) (2 ^ d.f Reg.SW_C_CFG_LOG2) w)
  else if a = Reg.SW_C_RX_CI_at then unlessRefused (consumerOk (d.f Reg.SW_C_RX_PI_IDX) (d.f Reg.SW_C_RX_CI_IDX) w)
  else if 0x20051000 ≤ a ∧ a < 0x20051800 then
    let p := p8 ((a - 0x20051000) / 0x100)
    if a % 0x100 = 0 ∧ f.lo = 0 ∧ (p.1 < 2 ∨ 6 ≤ p.1) then .leave
    else if a % 0x100 = 8 ∧ f.lo < 18 then rule (decide (bits w 9 9 < bits w 0 9))
    else if a % 0x100 = 12 then rule (decide (8 * bits w 0 10 < outCells p))
    else .act
  else if a = Reg.JASIA_CFG_at ∧ f.lo = 0 then rule (!d.bit Reg.JASIA_CFG_EN || bits w 0 2 == d.f Reg.JASIA_CFG_ROLE)
  else if 0x20060040 ≤ a ∧ a < 0x20060050 then rule (!d.bit Reg.PTP_RING_CFG_EN)
  else if a = Reg.PTP_TX_PI_at then
    unlessRefused (producerOk (d.f Reg.PTP_TX_PI_IDX) (d.f Reg.PTP_TX_CI_IDX) (2 ^ d.f Reg.PTP_RING_CFG_LOG2) w)
  else if a = Reg.PTP_RX_CI_at then unlessRefused (consumerOk (d.f Reg.PTP_RX_PI_IDX) (d.f Reg.PTP_RX_CI_IDX) w)
  else if 0x20003100 ≤ a ∧ a < 0x20003200 ∧ a % 16 = 0 ∧ f.lo = 8 then
    let per := d.f (Reg.TB_CMP_PERIOD_VALUE ((a - 0x20003100) / 16))
    rule (bits w 0 3 != 3 || per == 0 || decide (1 ≤ bits w 8 24 ∧ bits w 8 24 < per))
  else if 0x20070000 ≤ a ∧ a < 0x20078000 ∧
      ((4 ≤ a % 0x1000 ∧ a % 0x1000 ≤ 0x10) ∨ (0x20 ≤ a % 0x1000 ∧ a % 0x1000 ≤ 0x28)) then
    unlessRefused (d.bit (Reg.CAN_CTL_INIT ((a - 0x20070000) / 0x1000)))
  else .act

/-- Rules of the governor, the region checkers, the counters and the auxiliary switches.
[DEDUCED, log 12, 13; DESIGN CHOICE, log 21] -/
def Dev.coreVerdict (d : Dev) (a w : Nat) (f : FieldRow) : Verdict :=
  if a = Reg.GOV_PIN_at then unlessRefused (!d.bit Reg.SLICE_MODE_STRICT)
  else if 0x20090000 ≤ a ∧ a < 0x20094400 then
    let lock := d.bit (Reg.RC_CTL_LOCK ((a - 0x20090000) / 0x400))
    if a % 0x400 = 0 ∧ f.lo = 0 ∨ 0x100 ≤ a % 0x400 then unlessRefused (!lock) else .act
  else if a = Reg.PERF_CFG_at ∧ f.lo < 2 then
    rule (!d.bit Reg.PERF_CFG_LOCK || bits w f.lo 1 == if f.lo = 0 then d.f Reg.PERF_CFG_SLICED else d.f Reg.PERF_CFG_BLOCK_SEC)
  else if 0x200B0100 ≤ a ∧ a < 0x200B0400 ∧ a % 0x20 = 4 ∧ f.lo = 5 then
    rule (bits w 5 6 == 0 || decide (bits w 0 5 ≤ bits w 5 6 ∧ bits w 5 6 ≤ 32))
  else .act

/-- What a field's own rules say of a word written to its register, its present value included (R9). [DEDUCED, log 12] -/
def Dev.verdict (d : Dev) (a w : Nat) (f : FieldRow) : Verdict :=
  (d.sliceVerdict a w f).join ((d.netVerdict a w f).join (d.coreVerdict a w f))

/-! ### The write (R6, R9, R10) -/

/-- A single register's fields, written under their rules. -/
def Dev.writeOne (d : Dev) (src : Src) (a w : Nat) : Dev := d.writeRowWith src a w (d.verdict a w)

/-- A 64-bit pair takes effect: both words, or neither where a rule is broken (R9, R10). The word of a low register nobody has
written stays. [DEDUCED, log 19, 117] -/
def Dev.writePair (d : Dev) (src : Src) (a w : Nat) : Dev :=
  let lo := a - 4
  let x := (d.heldFor src lo).getD (match Reg.row lo with | some row => d.rowWord row lo | none => 0)
  let d := d.unhold src lo
  let l := d.tryRow lo x (d.verdict lo x)
  let h := l.1.tryRow a w (d.verdict a w)
  match l.2.join h.2 with
  | .bad => d.logR9 src a
  | .refuse => d.logRefused src a
  | _ => h.1

/-! ### What follows -/

/-- The precision rates of a vat's channels are written (R85). -/
def Dev.afterRate (d : Dev) (v : Fin 16) (h : Nat) (old : Dev) : Dev :=
  (List.range 8).foldl (fun d j =>
    let k := v16 (8 * h + j)
    let code := d.f (prateField v.1 k.1)
    if code = old.f (prateField v.1 k.1) then d else d.modMeas v k (fun m => { m.writeRate code d.now with rateAt := d.now })) d

/-- A device that is enabled takes its role, and a master follows itself (R256, R264); one that is disabled acts as no master and
announces nothing more. [DEDUCED, log 69] -/
def Dev.afterJasia (d : Dev) (old : Dev) : Dev :=
  if d.bit Reg.JASIA_CFG_EN && !old.bit Reg.JASIA_CFG_EN then
    let d := d.setF Reg.JASIA_STAT_ROLE_NOW (d.f Reg.JASIA_CFG_ROLE)
    let d := if d.f Reg.JASIA_CFG_ROLE = 1 then d.setF Reg.JASIA_STAT_MASTER (d.f Reg.JASIA_CFG_DEV) else d
    d.modJasia (fun j => { j with lastBeacon := d.now, follows := d.f Reg.JASIA_CFG_ROLE == 1 })
  else if !d.bit Reg.JASIA_CFG_EN && old.bit Reg.JASIA_CFG_EN then
    (d.setF Reg.JASIA_STAT_ROLE_NOW 0).modJasia (fun j => { j with rep := none })
  else d

/-- Once EN of checker t is written 1, masters 8–11 wait for it no more, and the accesses it held back go on (R310). -/
def Dev.afterChecker (d : Dev) (word : Nat → Nat → Nat) (mem : Nat → Nat → List Byte) (a w : Nat) : Dev :=
  let t := (a - 0x20090000) / 0x400
  let d := if a % 0x400 = 0 && w.testBit 0 && d.bit (Reg.RC_CTL_EN t) then d.setRcWait (setBit d.rcWait t false) else d
  ((List.finRange 8).foldl (fun d n => (d.canFlush n).canValidate word mem n) (d.ptpFlush word)).evtLostAll

/-- A write of EVT_PENDw: a source that rose in the instant its pending bit is cleared stays pending, and its slice vector is sent
again (R7, R434). [DEDUCED, log 122] -/
def Dev.afterPend (d old : Dev) (w x : Nat) : Dev :=
  forEach 32 d (fun d j =>
    if x.testBit j && (old.freshMask (pendAgain w)).testBit j && d.tb (Reg.EVT_EN_SRC w) j then d.deliver (32 * w + j) else d)

/-- What a register write sets going. `old` is the device before it. [DEDUCED, log 85, 112] -/
def Dev.afterWrite (d old : Dev) (word : Nat → Nat → Nat) (mem : Nat → Nat → List Byte) (a w : Nat) : Dev :=
  if 0x20010000 ≤ a ∧ a < 0x20020000 ∧ (a % 0x1000 = 0x400 ∨ a % 0x1000 = 0x404) then
    d.afterRate (v16 ((a - 0x20010000) / 0x1000)) (a % 0x1000 / 4 % 2) old
  else if 0x20010000 ≤ a ∧ a < 0x20020000 ∧ 0x600 ≤ a % 0x1000 ∧ a % 0x1000 < 0x700 then
    let v := v16 ((a - 0x20010000) / 0x1000)
    let k := v16 (a % 0x100 / 0x10)
    d.keepStaged v k (old.staged v.1 k.1)
  else if a = Reg.GOV_PIN_at then d.pinRail
  else if 0x200B0100 ≤ a ∧ a < 0x200B0400 ∧ a % 0x20 = 4 then (if d.safeStop then d.auxSafeOff else d)
  else if Reg.EVT_PEND_at 0 ≤ a ∧ a < Reg.EVT_PEND_at 3 then d.afterPend old ((a - Reg.EVT_PEND_at 0) / 4) w
  else if 0x20031000 ≤ a ∧ a < 0x20032000 ∧ a % 0x40 = 0x18 then
    let s := (a - 0x20031000) / 0x40
    if old.f (Reg.SLC_WDOG_TIMEOUT s) = 0 ∧ d.f (Reg.SLC_WDOG_TIMEOUT s) ≠ 0 then
      d.modSlice (sl s) (fun e => { e with wdogAt := d.now })
    else d
  else if a = Reg.JASIA_CFG_at then d.afterJasia old
  else if 0x20070000 ≤ a ∧ a < 0x20078000 ∧ 0x100 ≤ a % 0x1000 ∧ a % 0x1000 < 0x300 then
    d.logFilter old (p8 ((a - 0x20070000) / 0x1000)) ((a % 0x1000 - 0x100) / 8)
  else if a = Reg.JASIA_REQ_NUM_at then d.setF Reg.JASIA_REQ_NUM_VALUE w
  else if 0x20090000 ≤ a ∧ a < 0x20094400 then d.afterChecker word mem a w
  else match pos 0x20098018 0x100 6 a with
  | some n =>
    let n : Fin 6 := ⟨n % 6, Nat.mod_lt _ (by decide)⟩
    if old.f (Reg.CORE_SWDG_TIMEOUT n.1) = 0 ∧ d.f (Reg.CORE_SWDG_TIMEOUT n.1) ≠ 0 then
      d.modCore n (fun c => { c with wdogAt := d.up })
    else d
  | none => d

/-- PERF_OWN_SEL is the event set of the writing core's slice (R315). [DESIGN CHOICE, log 21] -/
def Dev.perfOwn (d : Dev) (src : Src) (w : Nat) : Dev :=
  if 5 < src.master.1 then d
  else
    let d := d.tally
    let s := d.f (Reg.CORE_CTX_SLICE src.master.1)
    let d := (d.setF (Reg.PERF_SEL_EV0 s) (bits w 0 8)).setF (Reg.PERF_SEL_EV1 s) (bits w 8 8)
    (d.setF (Reg.PERF_SEL_EV2 s) (bits w 16 8)).setF (Reg.PERF_SEL_EV3 s) (bits w 24 8)

/-- A channel's CLAIM and argument registers: the owner's only (R342); CLAIM = 0 frees the channel. -/
def Dev.mordReg (d : Dev) (src : Src) (c : Fin 16) (off w : Nat) : Dev :=
  let a := 0x20081000 + 0x80 * c.1 + off
  if off = 0 then
    if d.mord.owners[c] = some src ∧ !w.testBit 0 then (d.setMord { d.mord with owners := put d.mord.owners c none }) else d
  else if d.mord.owners[c] = some src then d.writeOne src a w
  else d.deny 14 src .write a

/-- A write of a register without a row of its own, past `Dev.guard`. -/
def Dev.writeReg (d : Dev) (word : Nat → Nat → Nat) (mem : Nat → Nat → List Byte) (src : Src) (a w : Nat) : Dev :=
  if isLow a then d.hold src a w
  else if a = Reg.PERF_OWN_SEL_at then d.perfOwn src w
  else if 0x20081000 ≤ a ∧ a < 0x20081800 then d.mordReg src (v16 ((a - 0x20081000) / 0x80)) (a % 0x80) w
  else
    let d := if 0x20098000 ≤ a ∧ a < 0x2009D000 then d.tally else d
    let x := if isHigh a then d.writePair src a w else d.writeOne src a w
    (x.afterWrite d word mem a w).review

end Sys2Proof.Machine
end

