-- ==== Sys2Proof/Machine/MordCmds.lean ====
section
/-!
DEFINITION. The commands of the Mordant key store (R342–R350): claiming a channel, the ten operations, their completion,
slot release, re-masking, the health of the DRBG, a life-cycle request.
-/

namespace Sys2Proof.Machine
open Sys2Proof

/-- A read of MORD_CHc_CLAIM: 1 and ownership if the channel is free, else 0 (section Operations). -/
def Dev.claim (d : Dev) (src : Src) (c : Fin 16) : Dev :=
  match d.guard src (Reg.MORD_CH_CLAIM_at c.1) false with
  | some d' => d'
  | none =>
    match d.mord.owners[c] with
    | some _ => d.answer 0
    | none => (d.setMord { d.mord with owners := put d.mord.owners c (some src) }).answer 1

/-- CLAIM. -/
def execClaim (src : Src) (c : Fin 16) (s : State) : Host.Outcome State Fault Refusal := s.done (s.dev.claim src c)

/-- DERIVE (R338, R342). -/
def execDerive (src : Src) (c : Fin 16) (s : State) : Host.Outcome State Fault Refusal := s.done (s.dev.mordSubmit src c 1)

/-- INVALIDATE (R342, R346): acts at the command write. -/
def execInvalidate (src : Src) (c : Fin 16) (s : State) : Host.Outcome State Fault Refusal := s.done (s.dev.mordSubmit src c 2)

/-- GCM_ENC (R342). -/
def execGcmEnc (src : Src) (c : Fin 16) (s : State) : Host.Outcome State Fault Refusal := s.done (s.dev.mordSubmit src c 3)

/-- GCM_DEC (R342). -/
def execGcmDec (src : Src) (c : Fin 16) (s : State) : Host.Outcome State Fault Refusal := s.done (s.dev.mordSubmit src c 4)

/-- HMAC (R342). -/
def execHmac (src : Src) (c : Fin 16) (s : State) : Host.Outcome State Fault Refusal := s.done (s.dev.mordSubmit src c 5)

/-- SIGN (R342). -/
def execSign (src : Src) (c : Fin 16) (s : State) : Host.Outcome State Fault Refusal := s.done (s.dev.mordSubmit src c 6)

/-- PUBKEY (R342). -/
def execPubkey (src : Src) (c : Fin 16) (s : State) : Host.Outcome State Fault Refusal := s.done (s.dev.mordSubmit src c 7)

/-- CHAIN_KEY (R345). -/
def execChainKey (src : Src) (c : Fin 16) (s : State) : Host.Outcome State Fault Refusal := s.done (s.dev.mordSubmit src c 8)

/-- RANDOM (R342). -/
def execRandom (src : Src) (c : Fin 16) (s : State) : Host.Outcome State Fault Refusal := s.done (s.dev.mordSubmit src c 9)

/-- EXPORT (R342). -/
def execExportKey (src : Src) (c : Fin 16) (s : State) : Host.Outcome State Fault Refusal := s.done (s.dev.mordSubmit src c 0x0A)

/-- MORDANT_COMMAND_DONE: the running command writes its output and result and releases its key (R344, R346). -/
def execMordantCommandDone (s : State) : Host.Outcome State Fault Refusal := s.done s.mordFinish

/-- SLOT_RELEASE: an INVALID slot that no operation holds becomes EMPTY (R336); its GEN stays. -/
def Dev.slotRelease (d : Dev) (k : Fin 128) : Dev :=
  if d.slotState k.1 = 2 ∧ d.meta k.1 15 1 = 0 then
    let d := d.setF (Reg.MORD_K_META_WORD k.1) (2 ^ 16 * d.meta k.1 16 16)
    let d := d.setF (Reg.MORD_K_ATTR_WORD k.1) 0
    d.setMord ({ d.mord with slots := put d.mord.slots k {} })
  else d

/-- SLOT_RELEASE. -/
def execSlotRelease (k : Fin 128) (s : State) : Host.Outcome State Fault Refusal := s.done (s.dev.slotRelease k)

/-- REMASK_PASS (R348), once its interval has passed: a fresh random value into both shares of every key; a key in use waits for its release. A
pass missed while the DRBG has failed changes nothing and is not counted. -/
def Dev.remask (d : Dev) : Dev :=
  let per := 40000 * d.f Reg.MORD_CFG_REMASK
  let past := (d.up - d.mord.remaskAt) / per
  let ok := d.bit Reg.MORD_STAT_DRBG_OK
  let d := d.setMord { d.mord with remaskAt := d.mord.remaskAt + past * per }
  if past = 0 || !ok then d
  else
    let d := (List.finRange 128).foldl (fun d k =>
      if d.meta k.1 15 1 = 1 then
        let m := d.mord.slots[k]
        d.setMord ({ d.mord with slots := put d.mord.slots k { m with due := true } })
      else d.remaskSlot k) d
    let d := (List.finRange 3).foldl (fun d i =>
      let r := d.drbg 48
      (r.2.setMord { r.2.mord with dmask := put r.2.mord.dmask i (r.2.mord.dmask[i] ^^^ ofLeBytes r.1) })) d
    d.bump Reg.MORD_REMASK_CNT_COUNT

/-- REMASK_PASS. -/
def execRemaskPass (s : State) : Host.Outcome State Fault Refusal := s.done s.dev.remask

/-- DRBG_FAILURE (R342): DRBG_OK falls and MORD_EVT.DRBG is set. -/
def execDrbgFailure (s : State) : Host.Outcome State Fault Refusal :=
  s.done ((s.dev.setF Reg.MORD_STAT_DRBG_OK 0).mordEvt Reg.MORD_EVT_DRBG)

/-- DRBG_HEALTH_RECOVERY (R342): the tests pass again. -/
def execDrbgHealthRecovery (s : State) : Host.Outcome State Fault Refusal := s.done (s.dev.setF Reg.MORD_STAT_DRBG_OK 1)

/-- The moves of R350: DEVELOP to DEPLOY or RETURN, DEPLOY to RETURN, any state to SCRAP. -/
def lcMove (old new : Nat) : Bool :=
  (old == 1 && (new == 2 || new == 3)) || (old == 2 && new == 3) || (new == 4 && old < 4)

/-- Start programming the fuses. [DEDUCED, log 93] -/
def Dev.startFuses (d : Dev) (job : FuseJob) : Dev := d.setSup { d.sup with fuse := some (job, d.up) }

/-- LC_REQUEST: a write of MORD_LC_REQ (R350). -/
def execLcRequest (src : Src) (data : Word) (s : State) : Host.Outcome State Fault Refusal :=
  s.done (s.dev.onWrite src Reg.MORD_LC_REQ_at (fun d =>
    let target := bits data.toNat 0 3
    if pairSecure src ∧ bits data.toNat 16 16 = 0x4C43 ∧ lcMove d.fuse.lc target ∧ d.sup.fuse.isNone then
      d.startFuses (.lifeCycle target)
    else d.log 0x0A 0xFF (accInfo src true (Config.logKind 1)) target))

end Sys2Proof.Machine
end

