-- ==== Sys2Proof/Machine/ResetOps.lean ====
section
/-!
DEFINITION. The three reset kinds (R404–R409, R417). Instants count power-die time.
-/

namespace Sys2Proof.Machine
open Sys2Proof

/-- Change the supervisor. -/
def Dev.modSup (d : Dev) (f : Sup → Sup) : Dev := d.setSup (f d.sup)

/-- The device memories that lose their contents with the logic die: the TCMs and the SRAM banks, which read zero
afterwards (R407). Vat SRAM and DRAM go by their counts. -/
def volatileRanges : List (Nat × Nat) := [(0x04040000, 0x040C0000), (0x10000000, 0x11800000)]

/-- A fresh debug challenge (R422). [DEDUCED, log 92] -/
def Dev.drawChallenge (d : Dev) : Dev :=
  let r := d.drbg 16
  r.2.setDbg { r.2.dbg with chal := ofLeBytes r.1 }

/-- Power-on reset: both dies at their reset values; the fuses, the voltages on the balls and the model's own counters stay, and so does the
test root outside DEVELOP and DEPLOY (R333, R404, R407). [DESIGN CHOICE, log 10] -/
def Dev.powerOn (d : Dev) : Dev :=
  let x : Dev :=
    { vatEpoch := d.vatEpoch + 1, dramEpoch := d.dramEpoch + 1, freeN := d.freeN, stepN := d.stepN, out := d.out, fuse := d.fuse
      sup := { vio := d.sup.vio }, lost := volatileRanges, wq := d.wq }
  (if d.fuse.lc = 1 ∨ d.fuse.lc = 2 then x else x.setF Reg.MORD_STAT_TESTROOT (d.f Reg.MORD_STAT_TESTROOT)).drawChallenge

/-- A register field of the power die: the AUX and MADDER blocks. -/
def powerDieKey (k : Nat) : Bool := 0x200B0000 ≤ k / 64 && k / 64 < 0x200D0000

/-- Supply reset: the logic die as at power-on, the power die unchanged; CAUSE 1, with the supply event kept (R402, R404).
[DESIGN CHOICE, log 25] -/
def Dev.supplyReset (d : Dev) : Dev :=
  let x := d.powerOn
  let x := { x with
    regs := d.regs.filter (fun e => powerDieKey e.1), aux := d.aux, auxSum := d.auxSum, up := d.up, link := d.link
    mad := { d.mad with told := true }, sup := { vio := d.sup.vio, vaux := d.sup.vaux, vin := true } }
  let x := (x.setF Reg.RST_STAT_CAUSE 1).setF Reg.RST_STAT_SUP (d.f Reg.RST_STAT_SUP)
  if d.fuse.lc = 1 ∨ d.fuse.lc = 2 then x else x.setF Reg.MORD_STAT_TESTROOT (d.f Reg.MORD_STAT_TESTROOT)

/-! ### Warm reset -/

/-- What a warm reset does to a slice: ACTIVE or FROZEN, it is ACTIVE and orphaned (R118, R231); its next checkpoint carries
WARM. [DESIGN CHOICE, log 24] -/
def Dev.warmSlice (d : Dev) (s : Nat) : Dev :=
  let d := d.modSlice (sl s) (fun e => { e with warm := true })
  match d.f (Reg.SLC_STATE_STATE s) with
  | 1 => d.orphanSlice s
  | 3 => ((d.setF (Reg.SLC_STATE_STATE s) 1).modSlice (sl s) (fun e => { e with migPort := none, heldVec := [] })).orphanSlice s
  | _ => d

/-- A warm reset starts (R405–R409): the persistent fields stay, the blocks outside the persist domain reset, and the conditions of
strict partition are judged anew (R222). [DESIGN CHOICE, log 24] -/
def Dev.startWarm (d : Dev) (src : Nat) : Dev :=
  let d := forEach 4 d (fun d n => d.dropL1 n)
  let h0 := d.f Reg.SYS_SVC_PATH_H0
  let h1 := d.f Reg.SYS_SVC_PATH_H1
  let failed := d.f Reg.DRAM_STAT_FAILED
  let held := d.f Reg.SLICE_STAT_GUARANTEE
  let held_ := match d.mord.run with | some r => r.slot | none => none
  let d := d.setRegs d.regs.warm
  let d := ((d.setF Reg.SYS_SVC_PATH_H0 h0).setF Reg.SYS_SVC_PATH_H1 h1).setF Reg.SLICE_STAT_GUARANTEE held
  let d := ((d.setF Reg.RST_STAT_CAUSE 2).setF Reg.RST_STAT_WSRC src).bump Reg.RST_WCNT_COUNT
  let d := forEach 64 d (fun d b => if 8 ≤ b ∧ b < 20 then d else d.setF (Reg.PWR_QTAG_STATE b) 0)
  let d := { d with
    rcWait := 2 ^ 17 - 1, l2 := [], perfAt := d.up
    heldLow := [], capHigh := [], can := Vector.replicate 8 {}, cores := Vector.replicate 6 {}
    pairs := Vector.replicate 2 {}, qN := none, qS := none, dram := {}
    dramEpoch := if failed = 0 then d.dramEpoch else d.dramEpoch + 1
    mord := { d.mord with owners := Vector.replicate 16 none, queue := [], run := none } }
  let d := d.releaseKey held_
  let d := d.modSup (fun s => { s with warm := some d.up, rom := false })
  forEach 64 (d.relockDone.clearTriggers.auxHold.review) (fun d s => d.warmSlice s)

/-- A warm reset is requested: it joins one in progress, and waits while fuses are programmed (R405, R417). -/
def Dev.requestWarm (d : Dev) (src : Nat) : Dev :=
  if d.sup.warm.isSome then d
  else if d.sup.fuse.isSome then d.modSup (fun s => { s with warmWait := some (s.warmWait.getD src) })
  else d.startWarm src

end Sys2Proof.Machine
end

