-- ==== Sys2Proof/Machine/SupplyCmds.lean ====
section
/-!
DEFINITION. Supply, resets, boot and fuses (R396–R417, R350).
-/

namespace Sys2Proof.Machine
open Sys2Proof

/-! ### Supply (R397–R403) -/

/-- POWER_ON_RESET. -/
def execPowerOnReset (s : State) : Host.Outcome State Fault Refusal := s.donePower s.dev.powerOn

/-- VIN_RISE: VIN is above its power-on threshold and the rail sequence starts (R399). -/
def Dev.vinRise (d : Dev) : Dev :=
  if d.sup.held && !d.sup.vin && d.f Reg.RST_STAT_SUP == 0 then
    (d.modSup (fun s => { s with vin := true })).setTb Reg.PWR_STAT_RAIL_OK 0 true
  else d

/-- VIN_RISE. -/
def execVinRise (s : State) : Host.Outcome State Fault Refusal := s.donePower s.dev.vinRise

/-- LOGIC_DIE_RELEASE: rails and reference valid; the straps are sampled into RST_STRAP and into the fields that reset to
them, TB_CTL.REF_SEL and JASIA_CFG.ROLE, the boot ROM starts on SP0, and what the power die has reported meanwhile arrives (R8, R255,
R392, R399, R411). [DESIGN CHOICE, log 11] -/
def Dev.logicRelease (d : Dev) (refsel mstr : Bool) : Dev :=
  if d.sup.held && d.sup.vin then
    let d := d.linkTake.modSup (fun s => { s with held := false, rom := true, romAt := d.up })
    let d := (d.setB Reg.RST_STRAP_REFSEL refsel).setB Reg.RST_STRAP_MSTR mstr
    let d := (d.setB Reg.TB_CTL_REF_SEL refsel).setB Reg.JASIA_CFG_ROLE mstr
    (d.setF Reg.PWR_STAT_RAIL_OK 63).setF Reg.RST_BOOT_STAGE 1
  else d

/-- LOGIC_DIE_RELEASE. -/
def execLogicDieRelease (refsel mstr : Bool) (s : State) : Host.Outcome State Fault Refusal :=
  s.donePower (s.dev.logicRelease refsel mstr)

/-- VIN_WARNING (R401). -/
def Dev.vinWarning (d : Dev) (mv : Nat) : Dev :=
  if mv < 10 * d.f Reg.PWR_VIN_CFG_WARN then (d.setF Reg.PWR_STAT_VIN_LOW 1).raise Reg.PWR_EVT_VIN_WARN 1 66 else d

/-- VIN_WARNING. -/
def execVinWarning (mv : Nat) (s : State) : Host.Outcome State Fault Refusal := s.done (s.dev.vinWarning mv)

/-- VIN_WARNING_CLEAR: 100 mV above the threshold (R401). -/
def Dev.vinClear (d : Dev) (mv : Nat) : Dev :=
  if 10 * d.f Reg.PWR_VIN_CFG_WARN + 100 ≤ mv then d.setF Reg.PWR_STAT_VIN_LOW 0 else d

/-- VIN_WARNING_CLEAR. -/
def execVinWarningClear (mv : Nat) (s : State) : Host.Outcome State Fault Refusal := s.done (s.dev.vinClear mv)

/-- SUPPLY_EVENT: the SF1 request and the KILL broadcast (R402). While the logic die is held its rails go off at once and the event is
recorded. [DEDUCED, log 137] -/
def Dev.supplyEvent (d : Dev) (rail : Fin 6) : Dev :=
  if d.sup.held then
    if d.sup.vin then
      let d := (d.setMad { d.mad with req := some (d.mad.req.getD 0) }).modSup (fun s => { s with vin := false })
      (d.setF Reg.RST_STAT_SUP (1 + rail.1)).setF Reg.PWR_STAT_RAIL_OK 0
    else d
  else if d.sup.evAt.isSome then d.setTb Reg.PWR_STAT_RAIL_OK rail.1 false
  else
    let d := d.modSup (fun s => { s with evAt := some d.up, evRail := rail.1 })
    (d.setTb Reg.PWR_STAT_RAIL_OK rail.1 false).serviceLost

/-- SUPPLY_EVENT. -/
def execSupplyEvent (rail : Fin 6) (s : State) : Host.Outcome State Fault Refusal := s.donePower (s.dev.supplyEvent rail)

/-- SUPPLY_SHUTDOWN: 20 µs after the event the logic die is held in reset and the rails go off; the AUX holds begin; a warm
reset or fuse programming in progress is abandoned (R372, R402, R405, R417). [DEDUCED, log 93] -/
def Dev.supplyShutdown (d : Dev) : Dev :=
  match d.sup.evAt with
  | some t =>
    if t + 8000 ≤ d.up then
      let d := (d.setF Reg.RST_STAT_SUP (1 + d.sup.evRail)).setF Reg.PWR_STAT_RAIL_OK 0
      (d.modSup (fun s =>
        { s with held := true, vin := false, evAt := none, warm := none, warmWait := none, rom := false, fuse := none })).auxHold
    else d
  | none => d

/-- SUPPLY_SHUTDOWN. -/
def execSupplyShutdown (s : State) : Host.Outcome State Fault Refusal := s.donePower s.dev.supplyShutdown

/-- SUPPLY_RESET: VIN has recovered after a supply event (R402, R404). -/
def execSupplyReset (s : State) : Host.Outcome State Fault Refusal :=
  s.donePower (if s.dev.sup.held && !s.dev.sup.vin && s.dev.f Reg.RST_STAT_SUP != 0 then s.dev.supplyReset else s.dev)

/-- A bank comes up and detects 1.8 V or 3.3 V, or is removed (R400); after boot the loss of the xSPI bank is the loss of the
boot flash, a device fault (R21). [DEDUCED, log 123] -/
def Dev.vioChange (d : Dev) (bank : Fin 4) (mv : Nat) : Dev :=
  let lost := bank == 1 && d.sup.vio[bank] != 0 && decide (mv < 1000)
  let d := d.modSup (fun x => { x with vio := put x.vio bank (if mv < 1000 then 0 else if mv < 2500 then 1800 else 3300) })
  if lost && !d.sup.held && d.f Reg.RST_BOOT_STAGE == 6 then d.serviceLost else d

/-- VIO_BANK_CHANGE. [DESIGN CHOICE, log 95] -/
def execVioBankChange (bank : Fin 4) (mv : Nat) (s : State) : Host.Outcome State Fault Refusal :=
  s.donePower (s.dev.vioChange bank mv)

/-! ### Warm resets (R405) -/

/-- WRST_N: low for at least 1 µs (R405); the boot ROM waits until it is high (R408). -/
def Dev.wrst (d : Dev) (lowNs : Nat) : Dev :=
  if lowNs < 1000 then d
  else (d.modSup (fun s => { s with lowTill := max s.lowTill (d.up + lowNs * 2 / 5) })).requestWarm 1

/-- WRST_N. -/
def execWrstN (lowNs : Nat) (s : State) : Host.Outcome State Fault Refusal := s.done (s.dev.wrst lowNs)

/-- A write of RST_CTL: WARM with KEY from the secure world of a core or through BAR0; any other is refused under R29. -/
def Dev.rstCtl (d : Dev) (src : Src) (w : Nat) : Dev :=
  if w.testBit 0 ∧ bits w 16 16 = 0x5752 ∧ (secureCore src ∨ bar0 src) then d.requestWarm (if bar0 src then 3 else 2)
  else d.deny 14 src .write Reg.RST_CTL_at

/-- WARM: a write of RST_CTL. -/
def execWarm (src : Src) (data : Word) (s : State) : Host.Outcome State Fault Refusal :=
  s.done (s.dev.onWrite src Reg.RST_CTL_at (fun d => d.rstCtl src data.toNat))

/-- BOOT_ROM_START: at the later of 200 µs and WRST_N high the ROM starts at step 3 (R408). -/
def Dev.romStart (d : Dev) : Dev :=
  match d.sup.warm with
  | some t =>
    if t + 80000 ≤ d.up ∧ d.sup.lowTill ≤ d.up then (d.modSup (fun s => { s with rom := true })).setF Reg.RST_BOOT_STAGE 3 else d
  | none => d

/-- BOOT_ROM_START. -/
def execBootRomStart (s : State) : Host.Outcome State Fault Refusal := s.done s.dev.romStart

/-! ### Images (R412, R413) -/

/-- An integer of an image header. -/
def hdr (bs : List Byte) (o n : Nat) : Nat := ofLeBytes ((bs.drop o).take n)

/-- Bytes of a header. -/
def hdrBytes (bs : List Byte) (o n : Nat) : List Byte := (bs.drop o).take n

/-- The bytes of a hash held as 32-bit words. [DEDUCED, log 91] -/
def wordBytes (ws : List Nat) : List Byte := ws.flatMap (leBytes 4)

/-- Format rules: MAGIC, FORMAT, NSEG, and every reserved field zero. -/
def imageFormat (h : List Byte) : Bool :=
  let n := hdr h 7 1
  h.length == 768 && hdr h 0 4 == 0x494C5256 && hdr h 4 2 == 1 && 1 ≤ n && n ≤ 8 && hdr h 0xC 4 / 8 == 0 && hdr h 0x28 24 == 0 &&
  (List.range 8).all (fun i => i < n || hdr h (0x40 + 64 * i) 64 == 0)

/-- Key of the bytes a segment is loaded to: banks B0–B11 outside the ROM's workspace, or SP0's TCM; none elsewhere. -/
def loadKey (load len : Nat) : Option Nat :=
  if 0x10000000 ≤ load ∧ load + len ≤ 0x11800000 ∧ (load + len ≤ 0x101F0000 ∨ 0x10200000 ≤ load) then some load
  else if 0x04000000 ≤ load ∧ load + len ≤ 0x04040000 then some (load + 0x40000)
  else none

/-- Segment i of an image: load address and length. -/
def segAt (h : List Byte) (i : Nat) : Nat × Nat := (hdr h (0x48 + 64 * i) 8, hdr h (0x44 + 64 * i) 4)

/-- The segments' places are right (R412, R413). [DEDUCED, log 91] -/
def segsOk (h : List Byte) : Bool :=
  let n := hdr h 7 1
  (List.range n).all (fun i =>
    let s := segAt h i
    let o := hdr h (0x40 + 64 * i) 4
    1 ≤ s.2 && s.2 ≤ 0x1000000 && o % 64 == 0 && 0x300 ≤ o && (loadKey s.1 s.2).isSome &&
    (List.range i).all (fun j => s.1 + s.2 ≤ (segAt h j).1 || (segAt h j).1 + (segAt h j).2 ≤ s.1))

/-- The banks some bytes lie in are ON; a TCM always answers (R317, R354). -/
def Dev.banksOn (d : Dev) (key len : Nat) : Bool :=
  !inSram key || (List.range (bankOf (key + (len - 1)) - bankOf key + 1)).all (fun i => d.f (Reg.PWR_QTAG_STATE (8 + bankOf key + i)) == 0)

/-- Load the segments in order, hashing each copy; stop at the first that differs, as one does in a bank that is not ON: whether all passed, and the device.
[DEDUCED, log 91] -/
def Dev.loadSegs (d : Dev) (img : Image) : List Nat → Bool × Dev
  | [] => (true, d)
  | i :: rest =>
    let s := segAt img.header i
    let bs := (img.segs.getD i []).take s.2
    let isOn : Bool := match loadKey s.1 s.2 with | some k => d.banksOn k s.2 | none => false
    let d := match loadKey s.1 s.2 with | some k => if isOn then d.post k bs else d | none => d
    if isOn ∧ bs.length = s.2 ∧ Config.sha384 bs = hdrBytes img.header (0x50 + 64 * i) 48 then d.loadSegs img rest else (false, d)

/-- Verify and load an image: the code of R413, 0 when it passes. [DEDUCED, log 91] -/
def Dev.tryImage (d : Dev) (img : Image) : Nat × Dev :=
  let h := img.header
  let k := hdr h 6 1
  let pub := hdrBytes h 0x240 96
  if !imageFormat h then (2, d)
  else if 4 ≤ k ∨ Config.sha384 pub ≠ wordBytes (d.fuse.owner.toList.getD k []) ∨ d.fuse.revoked.testBit k then (3, d)
  else if !Config.ecdsaVerify pub (Config.sha384 (h.take 0x2A0)) (hdrBytes h 0x2A0 96) then (4, d)
  else if hdr h 8 4 < d.fuse.svnMin then (5, d)
  else if (hdr h 0xC 4).testBit 0 ∧ hdr h 0x10 8 ≠ Config.deviceId then (6, d)
  else if !segsOk h then (7, d)
  else match d.loadSegs img (List.range (hdr h 7 1)) with
    | (true, d) => (0, d)
    | (false, d) => (8, d)

/-! ### The boot ROM (R411) -/

/-- Step 2: DRBG, device keys with fresh masks, S0's keys; RETURN has its test root for good (R333, R339, R349). -/
def Dev.deriveKeys (d : Dev) : Dev :=
  let d := d.setF Reg.MORD_STAT_DRBG_OK 1
  let d := if d.fuse.lc = 3 then d.setF Reg.MORD_STAT_TESTROOT 1 else d
  let d := d.drawChallenge
  let d := (List.finRange 3).foldl (fun d i =>
    let r := d.drbg 48
    (r.2.setMord { r.2.mord with dmask := put r.2.mord.dmask i (ofLeBytes r.1) })) d
  (d.makeKeys 0).getD d

/-- A pair is released: its start-up test passes, or it faults with cause INJ (R327). -/
def Dev.releasePair (d : Dev) (p : Fin 2) (ok : Bool) (pc : Nat) : Dev :=
  let d := (d.releaseCore (pairCore p) pc).modPair p (fun x => { x with injAt := d.up })
  if ok then d else d.pairFaultBare p 4

/-- With CATCH set, a core released after a warm reset halts before its first instruction (R427). -/
def Dev.catchCore (d : Dev) (warm : Bool) (n : Fin 6) : Dev :=
  if warm && d.dbg.catchOn && d.haltAllowed n && !(d.cores[n]).held then d.haltCore n false else d

/-- Step 6: the image runs (R411). After a warm reset without the reference the minimum service set stays incomplete (R21, R36).
[DEDUCED, log 128] -/
def Dev.runImage (d : Dev) (img : Image) (slot : Nat) (warm : Bool) (sp1Ok : Bool) : Dev :=
  let h := img.header
  let fl := hdr h 0xC 4
  let sp := hdr h 0x18 8
  let ac := hdr h 0x20 8
  let d := d.modSup (fun s => { s with rom := false, warm := none })
  let d := ((d.setF Reg.RST_BOOT_STAGE 6).setF Reg.RST_BOOT_SLOT slot).setF Reg.RST_SVN_RUN (hdr h 8 4)
  let d := ((d.setF64 Reg.RST_REL_LO_TS Reg.RST_REL_HI_TS d.now).setB Reg.SYS_SVC_BASE (!d.bit Reg.TB_STAT_HOLD)).evtLostAll
  let d := (d.releasePair 0 true sp).catchCore warm 4
  let d := if fl.testBit 1 then (d.releasePair 1 sp1Ok sp).catchCore warm 5 else d
  let d := if fl.testBit 2 then
      (List.finRange 6).foldl (fun d n => if n.1 < 4 then (d.releaseCore n ac).catchCore warm n else d) d
    else d
  if warm then d.pend 80 else d

/-- Steps 4–6: the flash, the primary image, the alternative image. [DEDUCED, log 91] -/
def Dev.bootFlash (d : Dev) (flash : Option (Image × Image)) (warm sp1Ok : Bool) : Dev :=
  match flash with
  | none => d.romStop 1
  | some (pri, alt) =>
    if (d.sup.vio[(1 : Fin 4)]) = 0 then d.romStop 1
    else match d.tryImage pri with
      | (0, d) => d.runImage pri 0 warm sp1Ok
      | (c, d) =>
        let d := d.setF Reg.RST_BOOT_PRI_CODE c
        match d.tryImage alt with
        | (0, d) => d.runImage alt 1 warm sp1Ok
        | (c, d) => d.romStop c

/-- BOOT_COMPLETE: the ROM's steps to their end (R411); without lock the ROM waits 10 ms. A BLANK part seeds its DRBG before the ROM stops, since its port
answers unlocks (R422, R424, R430). `startOk` has bit p: the start-up test of pair p passes. [DEDUCED, log 91, 92, 123] -/
def Dev.boot (d : Dev) (flash : Option (Image × Image)) (drbgOk : Bool) (startOk : Nat) : Dev :=
  if !d.sup.rom then d
  else
    let warm := d.sup.warm.isSome
    if !warm && !d.bit Reg.TB_STAT_LOCK then (if d.sup.romAt + 4000000 ≤ d.up then d.romStop 11 else d)
    else if !warm && d.fuse.lc == 0 then (if drbgOk then (d.setF Reg.MORD_STAT_DRBG_OK 1).drawChallenge else d).romStop 10
    else if !warm && 4 ≤ d.fuse.lc then d.romStop 10
    else if !warm && !drbgOk then d.romStop 9
    else
      let d := if warm then d else d.deriveKeys
      if !startOk.testBit 0 then (d.pairFaultBare 0 4).romStop 9
      else if d.f (Reg.PWR_QTAG_STATE 8) ≠ 0 then d.romStop 9
      else d.bootFlash flash warm (startOk.testBit 1)

/-- BOOT_COMPLETE. -/
def execBootComplete (flash : Option (Image × Image)) (drbgOk : Bool) (startOk : Fin 4) (s : State) :
    Host.Outcome State Fault Refusal := s.done (s.dev.boot flash drbgOk startOk.1).review

/-- A write of RST_RELEASE: held cores named in it start at RST_ENTRY in the secure world; bit 4 is ignored (R411). -/
def Dev.coreRelease (d : Dev) (w : Nat) (ok : Bool) : Dev :=
  let pc := d.f64 Reg.RST_ENTRY_LO_ADDR Reg.RST_ENTRY_HI_ADDR
  (List.finRange 6).foldl (fun d n =>
    if w.testBit n.1 && (d.cores[n]).held then
      if n.1 < 4 then d.releaseCore n pc else if n = 5 then d.releasePair 1 ok pc else d
    else d) d

/-- CORE_RELEASE: `ok` is the outcome of SP1's start-up test if SP1 is released (R327). [DESIGN CHOICE, log 94] -/
def execCoreRelease (src : Src) (data : Word) (ok : Bool) (s : State) : Host.Outcome State Fault Refusal :=
  s.done (s.dev.onWrite src Reg.RST_RELEASE_at (fun d => d.coreRelease data.toNat ok))

/-! ### Fuses (R350, R415, R417, R430) -/

/-- SVN_REQUEST: accepted from the secure world of a Sienna pair, above MIN and not above the running image's SVN; any
other write is refused and logged (R415), Gnotar's under R29 (R428). -/
def Dev.svnRequest (d : Dev) (src : Src) (w : Nat) : Dev :=
  let n := bits w 0 6
  if src.master = 14 then d.deny 14 src .write Reg.RST_SVN_REQ_at
  else if pairSecure src ∧ bits w 16 16 = 0x5356 ∧ d.fuse.svnMin < n ∧ n ≤ d.f Reg.RST_SVN_RUN ∧ d.sup.fuse.isNone then
    d.startFuses (.svn n)
  else d.log 0x0A 0xFF (accInfo src true (Config.logKind 2)) n

/-- SVN_REQUEST. -/
def execSvnRequest (src : Src) (data : Word) (s : State) : Host.Outcome State Fault Refusal :=
  s.done (s.dev.onWrite src Reg.RST_SVN_REQ_at (fun d => d.svnRequest src data.toNat))

/-- A new life-cycle state (R350): RETURN brings the test root, SCRAP ends every key and with them the minimum service
set. -/
def Dev.enterLc (d : Dev) (c : Nat) : Dev :=
  let d := ((d.setFuse { d.fuse with lc := c })).mordEvt Reg.MORD_EVT_LC
  if c = 3 then d.returnRoot
  else if c = 4 then d.invalidateAll.serviceLost
  else d

/-- What is programmed takes effect. -/
def Dev.burn (d : Dev) (job : FuseJob) : Dev :=
  match job with
  | .lifeCycle c => d.enterLc c
  | .svn n => d.setFuse { d.fuse with svnMin := n }
  | .ownerKey k h => d.setFuse { d.fuse with owner := put d.fuse.owner k h }
  | .revoke m => d.setFuse { d.fuse with revoked := d.fuse.revoked ||| m % 16 }

/-- FUSE_PROGRAMMING_DONE: the fuses take effect; a warm reset that waited starts (R417). -/
def Dev.fuseDone (d : Dev) : Dev :=
  match d.sup.fuse with
  | some (job, _) =>
    let d := ((d.modSup (fun s => { s with fuse := none })).burn job).review
    match d.sup.warmWait with
    | some src => (d.modSup (fun s => { s with warmWait := none })).startWarm src
    | none => d
  | none => d

/-- FUSE_PROGRAMMING_DONE. -/
def execFuseProgrammingDone (s : State) : Host.Outcome State Fault Refusal := s.done s.dev.fuseDone

end Sys2Proof.Machine
end

