-- ==== Sys2Proof/Machine/SwitchCmds.lean ====
section
/-!
DEFINITION. The commands of the switch core (R232–R253).
-/

namespace Sys2Proof.Machine
open Sys2Proof

/-- A frame received on an external port (R233–R236, R240, R242, R246). Frames R235 hands to the MAC are taken as
pauses; those it hands to the PTP unit or the Jasia unit have commands of their own and are only counted here.
[DEDUCED, log 64] -/
def Dev.frameReceive (d : Dev) (p : Fin 8) (bs : List Byte) (good : Bool) (stamp : Nat) : Dev :=
  if d.removed p ∨ d.serdesOff p then d
  else
    let d := (d.count p 0).count p 1 (bs.length + 4)
    let bad := !good || d.badLength bs
    let da := beAt bs 0 6
    let jasia := (p.1 < 2 || p.1 == d.f Reg.JASIA_CFG_UPLINK) && etherType bs == d.f Reg.JASIA_ETYPE_ETYPE
    if da = 0x0180C2000001 then
      if bad then d.count p 4
      else if beAt bs 14 2 = 0x0001 then d.pauseIn p false 0xFF (fun _ => beAt bs 16 2)
      else if beAt bs 14 2 = 0x0101 then d.pauseIn p true (beAt bs 16 2) (fun q => beAt bs (18 + 2 * q) 2)
      else d
    else if da = 0x0180C200000E ∨ jasia then (if bad then d.count p 4 else d)
    else
      d.ingress p bs bad (d.rxStamp p stamp)

/-- FRAME_RECEIVE. [DEDUCED, log 68] -/
def execFrameReceive (p : Fin 6) (bytes : List Byte) (good : Bool) (stamp : Nat) (s : State) :
    Host.Outcome State Fault Refusal :=
  s.done (s.dev.frameReceive (p8 p.1) bytes good stamp)

/-- One fabric round (R237), at an instant with TB_NOW mod 20 = 0. -/
def Dev.fabricRound (d : Dev) : Dev :=
  if d.now % 20 = 0 then
    let reqs := (List.finRange 8).filterMap (fun i => (request (d.port i)).map (fun x => (i, x)))
    ((List.finRange 8).foldl (fun d o => d.grantOut reqs o) d).release
  else d

/-- FABRIC_ROUND. -/
def execFabricRound (s : State) : Host.Outcome State Fault Refusal := s.done s.dev.fabricRound

/-- The first express frame of a J port that can be sent: barrier-class, wherever it stands in its queue (R244). -/
def expressFrame (x : SwPort) : Option (Fin 8 × SwFrame) :=
  (List.finRange 8).reverse.findSome? (fun q =>
    ((x.queues[q]).find? (fun f => f.barrier && decide (f.cells ≤ f.arrived ∨ (f.cut ∧ 1 ≤ f.arrived)))).map (fun f => (q, f)))

/-- An express frame leaves: it preempts a preemptable frame in progress, and waits for an express one (R244). -/
def Dev.sendExpress (d : Dev) (p q : Fin 8) (f : SwFrame) (egress : Nat) : Dev :=
  let x := d.port p
  if d.now < x.expressTill ∨ d.queuePaused p q then d
  else
    let d := if d.now < x.busyTill then d.count p 13 else d
    let d := d.modPort p (fun x => { x with queues := put x.queues q ((x.queues[q]).erase f) })
    (d.sendExternal p f egress).release

/-- An output at a frame boundary sends the frame it picks; port C waits while its rings' checker is waited for or an access fails
(R238, R250, R310). [DEDUCED, log 131] -/
def Dev.sendPicked (d : Dev) (word : Nat → Nat → Nat) (p : Fin 8) (egress : Nat) : Dev :=
  match d.pick p with
  | (d', none) => d'
  | (d', some q) =>
    match headReady (d'.port p) q with
    | none => d'
    | some f =>
      if p = 6 then
        match d.cReach word f with
        | .opened => ((d'.unqueue p q).deliverC word f).release
        | .fails a => d.engineFail 9 0 .write a
        | .waits => d
      else
        let d := d'.unqueue p q
        (if p = 7 then d.deliverM f else d.sendExternal p f egress).release

/-- Output p reaches a frame boundary, or, on a J port with preemption, has an express frame waiting: a frame is picked and sent
(R238, R244). -/
def Dev.frameTransmit (d : Dev) (word : Nat → Nat → Nat) (p : Fin 8) (egress : Nat) : Dev :=
  if d.removed p ∨ d.serdesOff p then d
  else
    let x := d.port p
    match (if p.1 < 2 && x.preempt then expressFrame x else none) with
    | some (q, f) => d.sendExpress p q f egress
    | none => if d.now < x.busyTill ∨ (p = 6 ∧ !d.cRoom) then d else d.sendPicked word p egress

/-- FRAME_TRANSMIT. -/
def execFrameTransmit (p : Fin 8) (egress : Nat) (s : State) : Host.Outcome State Fault Refusal :=
  s.done (s.dev.frameTransmit s.memWord p egress)

/-- Priorities in XOFF whose latest XOFF is half a pause time old. -/
def Dev.xoffDue (d : Dev) (p : Fin 8) : Nat :=
  (List.finRange 8).foldl (fun m q =>
    if d.tb (Reg.SW_P_STAT_XOFF p.1) q.1 && decide ((d.port p).xoffAt[q] + d.quantaTime p 0xFFFF / 2 ≤ d.now) then m + 2 ^ q.1
    else m) 0

/-- XOFF is sent again half a pause time after it was last sent, while its condition persists and flow control is on (R242). -/
def Dev.xoffRefresh (d : Dev) (p : Fin 8) : Dev :=
  if d.xoffDue p = 0 ∨ d.f (Reg.SW_P_CFG_FC p.1) = 0 then d else d.sendXoff p (d.f (Reg.SW_P_CFG_FC p.1) == 2) (d.xoffDue p)

/-- XOFF_REFRESH. -/
def execXoffRefresh (p : Fin 8) (s : State) : Host.Outcome State Fault Refusal := s.done (s.dev.xoffRefresh p)

/-- PAUSE_RECEIVE (R243). -/
def execPauseReceive (p : Fin 6) (pfc : Bool) (mask : Nat) (quanta : List Nat) (s : State) :
    Host.Outcome State Fault Refusal :=
  s.done (s.dev.pauseIn (p8 p.1) pfc mask (fun q => quanta.getD q 0))

/-- Pause times that have run out: the queues resume (R243). -/
def Dev.pauseExpiry (d : Dev) (p : Fin 8) : Dev :=
  (List.finRange 8).foldl (fun d q =>
    if (d.port p).paused[q] ≤ d.now then d.setTb (Reg.SW_P_STAT_PAUSED p.1) q.1 false else d) d

/-- PAUSE_EXPIRY. -/
def execPauseExpiry (p : Fin 6) (s : State) : Host.Outcome State Fault Refusal := s.done (s.dev.pauseExpiry (p8 p.1))

/-- A dynamic entry not refreshed for at least AGE seconds is removed; AGE = 0 turns aging off (R236). -/
def Dev.ageOut (d : Dev) (i : Nat) : Dev :=
  let age := d.f Reg.SW_CTL_AGE
  match d.macAt i with
  | some e => if e.static ∨ age = 0 ∨ d.now < e.since + 400000000 * age then d else d.macDrop (fun x => x.idx == i)
  | none => d

/-- AGE_OUT. -/
def execAgeOut (idx : Nat) (s : State) : Host.Outcome State Fault Refusal := s.done (s.dev.ageOut idx)

/-- Copies held for MCAST_HOLD are dropped for their port (R246). -/
def Dev.mcastExpiry (d : Dev) (i : Fin 8) : Dev :=
  let late := (d.port i).hold.filter (fun h => d.holdEnd h.2.1 ≤ d.now)
  let d := d.modPort i (fun x => { x with hold := x.hold.filter (fun h => !(d.holdEnd h.2.1 ≤ d.now)) })
  late.foldl (fun d h => (d.count h.1 9).swEvt Reg.SW_EVT_MC_DROP) d

/-- MCAST_HOLD_EXPIRY. -/
def execMcastHoldExpiry (p : Fin 8) (s : State) : Host.Outcome State Fault Refusal := s.done (s.dev.mcastExpiry p)

/-- An auditor pass, every PERIOD ms, with what it finds: the cells allocated but on no list, and the outputs with a doubly listed cell.
A cell found so in two passes in a row returns to the free list (R247). [DEDUCED, log 64] -/
def Dev.auditPass (d : Dev) (leaks : List Nat) (duals : Nat) : Dev :=
  if d.now < d.sw.auditAt + 400000 * d.f Reg.SW_AUDIT_PERIOD then d
  else
    let found := leaks.eraseDups
    let back := found.filter (fun c => d.sw.unlisted.contains c)
    let d := d.modSw (fun w => { w with auditAt := d.now, unlisted := found.filter (fun c => !back.contains c) })
    let d := if back.isEmpty then d else (d.bump Reg.SW_AUDIT_LEAK_COUNT back.length).swEvt Reg.SW_EVT_LEAK
    ((List.finRange 8).foldl (fun d p => if duals.testBit p.1 then (d.flushOut p).swEvt Reg.SW_EVT_DUAL else d) d).release

/-- AUDIT_PASS. -/
def execAuditPass (leaks : List Nat) (duals : Nat) (s : State) : Host.Outcome State Fault Refusal :=
  s.done (s.dev.auditPass leaks duals)

/-- A port's link goes up or down (R433); a J port shows it in JASIA_STAT, and a J link lost sets BREAK and reads
CHAIN (R263). -/
def Dev.linkChange (d : Dev) (p : Fin 8) (up : Bool) (mbps : Nat) : Dev :=
  if d.bit (Reg.SW_P_STAT_LINK p.1) = up then d
  else
    let d := (d.setB (Reg.SW_P_STAT_LINK p.1) up).pend (40 + p.1)
    let d := d.modPort p (fun x => { x with linkAt := d.now, mbps := mbps, preempt := x.preempt && up })
    if p.1 < 2 then
      let d := d.setB (if p = 0 then Reg.JASIA_STAT_J0_UP else Reg.JASIA_STAT_J1_UP) up
      if up then d
      else
        let d := d.raise Reg.JASIA_EVT_BREAK 1 49
        if d.f Reg.JASIA_STAT_TOPO = 1 then d.setF Reg.JASIA_STAT_TOPO 2 else d
    else d

/-- PORT_LINK_CHANGE. -/
def execPortLinkChange (p : Fin 8) (up : Bool) (mbps : Nat) (s : State) : Host.Outcome State Fault Refusal :=
  s.done (s.dev.linkChange p up mbps)

/-- Every application core is fenced (R248). -/
def Dev.coresFenced (d : Dev) : Bool := (List.range 4).all (fun n => d.bit (Reg.CORE_STAT_FENCED n))

/-- A removal of R248, where its condition holds: cause 0 an external port without lock for 10 ms, 1 a SerDes fault,
2 port C with every application core fenced, 3 an error response to the exporter. [DEDUCED, log 15] -/
def Dev.portRemoval (d : Dev) (p : Fin 8) (cause : Nat) : Dev :=
  let ok := match cause with
    | 0 => p.1 < 6 && !d.bit (Reg.SW_P_STAT_LINK p.1) && decide ((d.port p).linkAt + 4000000 ≤ d.now)
    | 1 => decide (p.1 < 6)
    | 2 => p == 6 && d.coresFenced
    | 3 => p == 7
    | _ => false
  if ok then d.removePort p cause else d

/-- PORT_REMOVAL. -/
def execPortRemoval (p : Fin 8) (cause : Nat) (s : State) : Host.Outcome State Fault Refusal :=
  s.done (s.dev.portRemoval p cause)

/-- A write of SW_PORT_REEN (R249): each port named is re-enabled if its link is up, else refused and logged. -/
def Dev.portReenable (d : Dev) (src : Src) (w : Nat) : Dev :=
  d.onWrite src Reg.SW_PORT_REEN_at (fun d =>
    (List.finRange 8).foldl (fun d p =>
      if w.testBit p.1 then
        if d.bit (Reg.SW_P_STAT_LINK p.1) then d.reenablePort p else d.logRefused src Reg.SW_PORT_REEN_at
      else d) d)

/-- PORT_REENABLE. -/
def execPortReenable (src : Src) (data : Word) (s : State) : Host.Outcome State Fault Refusal :=
  s.done (s.dev.portReenable src data.toNat)

/-- 802.3br verification on a J port ends (R244). -/
def execPreemptVerify (p : Fin 2) (ok : Bool) (s : State) : Host.Outcome State Fault Refusal :=
  s.done ((s.dev.setB (Reg.SW_P_STAT_NOPREEMPT p.1) (!ok)).modPort (p8 p.1) (fun x => { x with preempt := ok }))

/-! ### The table registers -/

/-- A write of SW_MAC_CMD whose OP is `op`: INDEX is taken and the command acts at once. -/
def Dev.macCmd (d : Dev) (src : Src) (w op : Nat) (act : Dev → Dev) : Dev :=
  if bits w 0 3 = op then
    d.onWrite src Reg.SW_MAC_CMD_at (fun d => act (d.setF Reg.SW_MAC_CMD_INDEX (bits w 16 13)))
  else d

/-- Show an entry, or none, in SW_MAC_D0–D2. -/
def Dev.macShow (d : Dev) (e : Option MacEntry) : Dev :=
  let x := e.getD { idx := 0, addr := 0, vid := 0, ports := 0, static := false }
  let d := (d.setF Reg.SW_MAC_D0_ADDR_LO x.addr).setF Reg.SW_MAC_D1_ADDR_HI (x.addr / 2 ^ 32)
  let d := (d.setF Reg.SW_MAC_D1_VID x.vid).setF Reg.SW_MAC_D2_PORTS x.ports
  (d.setB Reg.SW_MAC_D2_VALID e.isSome).setB Reg.SW_MAC_D2_STATIC x.static

/-- Address in SW_MAC_D0 and D1. -/
def Dev.macAddr (d : Dev) : Nat := d.f Reg.SW_MAC_D0_ADDR_LO + 2 ^ 32 * d.f Reg.SW_MAC_D1_ADDR_HI

/-- MAC_READ: the entry at INDEX (R236). -/
def execMacRead (src : Src) (data : Word) (s : State) : Host.Outcome State Fault Refusal :=
  s.done (s.dev.macCmd src data.toNat 1 (fun d => d.macShow (d.macAt (d.f Reg.SW_MAC_CMD_INDEX))))

/-- MAC_WRITE: D0–D2 go to INDEX; an entry written without VALID is removed (R236). -/
def execMacWrite (src : Src) (data : Word) (s : State) : Host.Outcome State Fault Refusal :=
  s.done (s.dev.macCmd src data.toNat 2 (fun d =>
    let i := d.f Reg.SW_MAC_CMD_INDEX
    if d.bit Reg.SW_MAC_D2_VALID then
      d.macPut { idx := i, addr := d.macAddr, vid := d.f Reg.SW_MAC_D1_VID, ports := d.f Reg.SW_MAC_D2_PORTS,
                 static := d.bit Reg.SW_MAC_D2_STATIC, since := d.now, written := true }
    else d.macDrop (fun e => e.idx == i)))

/-- MAC_LOOKUP: INDEX of the address and VID in D0–D1, or MISS (R236). -/
def execMacLookup (src : Src) (data : Word) (s : State) : Host.Outcome State Fault Refusal :=
  s.done (s.dev.macCmd src data.toNat 3 (fun d =>
    match d.macFind d.macAddr (d.f Reg.SW_MAC_D1_VID) with
    | some e => (d.setF Reg.SW_MAC_CMD_INDEX e.idx).setF Reg.SW_MAC_CMD_MISS 0
    | none => d.setF Reg.SW_MAC_CMD_MISS 1))

/-- MAC_FLUSH_PORT: the dynamic entries of one port go (R236). -/
def execMacFlushPort (src : Src) (data : Word) (s : State) : Host.Outcome State Fault Refusal :=
  s.done (s.dev.macCmd src data.toNat 4 (fun d =>
    d.macDrop (fun e => !e.static && e.ports.testBit (bits data.toNat 8 3))))

/-- MAC_FLUSH_ALL: every dynamic entry goes (R236). -/
def execMacFlushAll (src : Src) (data : Word) (s : State) : Host.Outcome State Fault Refusal :=
  s.done (s.dev.macCmd src data.toNat 5 (fun d => d.macDrop (fun e => !e.static)))

/-- A write of SW_VLAN_CMD with GO: VID and WR are taken, a VID of 0 or 4095 is a rule broken (R234). -/
def Dev.vlanCmd (d : Dev) (src : Src) (w : Nat) (wr : Bool) (act : Dev → Nat → Dev) : Dev :=
  if w.testBit 17 ∧ w.testBit 16 = wr then
    d.onWrite src Reg.SW_VLAN_CMD_at (fun d =>
      let d := d.setB Reg.SW_VLAN_CMD_WR wr
      let vid := bits w 0 12
      if vid = 0 ∨ vid = 4095 then d.logR9 src Reg.SW_VLAN_CMD_at
      else act (d.setF Reg.SW_VLAN_CMD_VID vid) vid)
  else d

/-- VLAN_READ (R234). -/
def execVlanRead (src : Src) (data : Word) (s : State) : Host.Outcome State Fault Refusal :=
  s.done (s.dev.vlanCmd src data.toNat false (fun d vid =>
    let e := d.vlan vid
    ((d.setF Reg.SW_VLAN_DATA_MEMBER e.member).setF Reg.SW_VLAN_DATA_UNTAG e.untag).setB Reg.SW_VLAN_DATA_LEARN e.learn))

/-- VLAN_WRITE (R234). -/
def execVlanWrite (src : Src) (data : Word) (s : State) : Host.Outcome State Fault Refusal :=
  s.done (s.dev.vlanCmd src data.toNat true (fun d vid =>
    let e : Vlan := ⟨vid, d.f Reg.SW_VLAN_DATA_MEMBER, d.f Reg.SW_VLAN_DATA_UNTAG, d.bit Reg.SW_VLAN_DATA_LEARN⟩
    d.modSw (fun w => { w with vlans := e :: w.vlans.filter (fun x => x.vid != vid) })))

/-! ### Port C and the exporter -/

/-- The next entry of port C's transmit ring is sent into the switch once its outputs have room (R242, R250); C stops in a warm
reset (R407), and waits while a checker is waited for or an access fails (R308, R310). [DEDUCED, log 131] -/
def Dev.cTransmit (d : Dev) (word : Nat → Nat → Nat) (mem : Nat → Nat → List Byte) : Dev :=
  let i := d.f Reg.SW_C_TX_CI_IDX
  if !d.bit Reg.SW_C_CFG_EN || d.f Reg.SW_C_TX_PI_IDX == i || d.removed 6 || d.sup.warm.isSome then d
  else
    let e := d.cEntry Reg.SW_C_TX_LO_ADDR Reg.SW_C_TX_HI_ADDR i
    let buf := word e 8 % 2 ^ 40
    let n := word (e + 8) 2
    match d.reach 9 0 .read e 16, d.reach 9 0 .read buf n with
    | .opened, .opened =>
      let bs := mem buf n
      if d.allRoom 6 bs then
        let d := ((d.count 6 0).count 6 1 (bs.length + 4)).ingress 6 bs (d.badLength bs) 0
        (d.wrap Reg.SW_C_TX_CI_IDX).pend 77
      else d
    | .fails a, _ | .opened, .fails a => d.engineFail 9 0 .read a
    | _, _ => d

/-- C_TRANSMIT. -/
def execCTransmit (s : State) : Host.Outcome State Fault Refusal := s.done (s.dev.cTransmit s.memWord s.memBytes)

/-- EXPORT_FRAME: the exporter sends one frame for the slice whose turn it is (R250, R252); it pauses in a warm reset (R407). -/
def execExportFrame (s : State) : Host.Outcome State Fault Refusal :=
  s.done (if s.dev.removed 7 || s.dev.sup.warm.isSome then s.dev
    else match s.dev.expPick with
      | some (x, r) => s.dev.exportOne s.memBytes x r
      | none => s.dev)

/-- EXPORT_ACK (R251). -/
def execExportAck (x : Fin 64) (r : Fin 8) (index : Word) (s : State) : Host.Outcome State Fault Refusal :=
  s.done (s.dev.exportAck x.1 r index.toNat)

/-- What was sent RTO ms ago and is not acknowledged is sent again from the consumer index (R251, source 78). [DEDUCED, log 65] -/
def Dev.exportResend (d : Dev) (mem : Nat → Nat → List Byte) (s : Fin 64) (r : Fin 8) : Dev :=
  let due := d.sw.exp.any (fun e => e.slice == s && e.ring == r &&
    e.sent.any (fun x => x.2 + 400000 * d.f Reg.SW_EXP_CFG_RTO ≤ d.now))
  if due && !d.removed 7 && d.sup.warm.isNone then
    let d := d.modSw (fun w => { w with exp := w.exp.filter (fun e => !(e.slice == s && e.ring == r)) })
    (d.pend 78).exportOne mem s r
  else d

/-- EXPORT_RESEND. -/
def execExportResend (x : Fin 64) (r : Fin 8) (s : State) : Host.Outcome State Fault Refusal :=
  s.done (s.dev.exportResend s.memBytes x r)

end Sys2Proof.Machine
end

