-- ==== Sys2Proof/Machine/StoreOps.lean ====
section
/-!
DEFINITION. A write or a read of any setup register by its address (R5, R6, R10): a register whose write is a command of its
own does what that command does, every other is written by type.
-/

namespace Sys2Proof.Machine
open Sys2Proof

/-- What a command answers. -/
abbrev Out := Host.Outcome State Fault Refusal

/-- The write of one register. -/
def onReg (x a : Nat) (o : Out) : Option Out := if a = x then some o else none

/-- The write of register i of an array. -/
def onArr (base stride count a : Nat) (f : Fin count → Out) : Option Out :=
  match pos base stride count a with
  | some i => if h : i < count then some (f ⟨i, h⟩) else none
  | none => none

/-- The write of register j of element i of an array of arrays. -/
def onArr2 (base stride count stride' count' a : Nat) (f : Fin count → Fin count' → Out) : Option Out :=
  if base ≤ a then
    match pos 0 stride' count' ((a - base) % stride) with
    | some j => if h : (a - base) / stride < count ∧ j < count' then some (f ⟨(a - base) / stride, h.1⟩ ⟨j, h.2⟩) else none
    | none => none
  else none

/-- Own writes of the device, supply, reset, time and event blocks. [DESIGN CHOICE, log 94] -/
def State.storeDevice (s : State) (src : Src) (a : Nat) (w : Word) : Option Out :=
  onReg Reg.SYS_VAT_CTL_at a (execFence src w s) <|>
  onReg Reg.GOV_CTL_at a (execGovCtlWrite src w s) <|>
  onReg Reg.GOV_SLACK_CLR_at a (execClr src w s) <|>
  onReg Reg.PWR_QREQ_at a (execQuiesce src w s) <|>
  onArr 0x20001610 4 64 a (fun b => execQtagWrite src b w s) <|>
  onReg Reg.RST_CTL_at a (execWarm src w s) <|>
  onReg Reg.RST_SVN_REQ_at a (execSvnRequest src w s) <|>
  onReg Reg.RST_RELEASE_at a
    (let x := s.dev.free 1; execCoreRelease src w (x.1 == 1) (s.commit x.2)) <|>
  onReg Reg.TB_ADJ_at a (execOffsetCorrection src w s) <|>
  onReg Reg.TB_LOAD_HI_at a (execTbLoad src w s) <|>
  onArr 0x20003108 16 16 a (fun i => execComparatorArm src i w s) <|>
  onArr 0x20004010 4 3 a (fun i => execEnableWrite src i w s) <|>
  onReg Reg.EVT_SWI_at a (execSoftwareEvent src w s) <|>
  onReg Reg.EVT_LOG_CI_at a (execLogCiWrite src w s) <|>
  onReg Reg.EVT_LOG_SEL_at a (execLogSelect src w s) <|>
  onArr 0x20004100 4 96 a (fun i => execRouteWrite src i w s)

/-- Own writes of the vats, lanes, slices, ledger and rings. -/
def State.storeVat (s : State) (src : Src) (a : Nat) (w : Word) : Option Out :=
  onArr 0x2001040C 0x1000 16 a (fun v => execCalCommit src v w s) <|>
  onArr 0x20010700 0x1000 16 a (fun v => execLdgSnap src v w s) <|>
  onArr 0x20010800 0x1000 16 a (fun v => s.done (s.dev.impCtl src v w.toNat)) <|>
  onArr 0x20020000 0x1000 16 a (fun v => s.done (s.dev.laneCtl src v w.toNat)) <|>
  onArr 0x20020040 0x1000 16 a (fun v => execFirmwareKill src v w s) <|>
  (if w.toNat.testBit 9 then onArr 0x20020048 0x1000 16 a (fun v => s.done (s.dev.bregGo src v w.toNat)) else none) <|>
  onReg Reg.SLICE_MODE_at a (execSliceModeWrite src w s) <|>
  onReg Reg.SLICE_CMD_at a (execCreate src w s) <|>
  onArr 0x20038000 0x40 64 a (fun i => s.done (s.dev.ledgerCfg src i.1 w.toNat)) <|>
  onArr 0x20038010 0x40 64 a (fun i => execLdgCkCiWrite src i w s) <|>
  onArr2 0x20040008 0x400 64 16 8 a (fun i r => execRingCfgWrite src i r w s)

/-- A write of SW_MAC_CMD: the command OP names; the reserved codes break its rule and INDEX is taken (R9, R236).
[DEDUCED, log 67] -/
def State.storeMac (s : State) (src : Src) (w : Word) : Out :=
  match bits w.toNat 0 3 with
  | 1 => execMacRead src w s
  | 2 => execMacWrite src w s
  | 3 => execMacLookup src w s
  | 4 => execMacFlushPort src w s
  | 5 => execMacFlushAll src w s
  | _ => s.done (s.dev.onWrite src Reg.SW_MAC_CMD_at (fun d =>
      (d.setF Reg.SW_MAC_CMD_INDEX (bits w.toNat 16 13)).logR9 src Reg.SW_MAC_CMD_at))

/-- Own writes of the switch, cascade, network time and CAN. -/
def State.storeNet (s : State) (src : Src) (a : Nat) (w : Word) : Option Out :=
  onReg Reg.SW_PORT_REEN_at a (execPortReenable src w s) <|>
  onReg Reg.SW_MAC_CMD_at a (s.storeMac src w) <|>
  (if w.toNat.testBit 17 then
    onReg Reg.SW_VLAN_CMD_at a (if w.toNat.testBit 16 then execVlanWrite src w s else execVlanRead src w s) else none) <|>
  onReg Reg.JASIA_REQ_INST_HI_at a (execBarrierRequest src w s) <|>
  onReg Reg.PTP_SERVO_at a (s.done (s.dev.servo src w.toNat)) <|>
  onArr 0x20070000 0x1000 8 a (fun n => execInitClear src n w s) <|>
  onArr 0x20070088 0x1000 8 a (fun n => execCanRestart src n w s) <|>
  onArr 0x20070050 0x1000 8 a (fun n => execTxgo src n w s) <|>
  onArr 0x20070054 0x1000 8 a (fun n => execTxabort src n w s) <|>
  onArr2 0x20070034 0x1000 8 16 2 a (fun n i => execCanFifoCiWrite src n i w s)

/-- Own writes of the key store, cores, pairs, memories, auxiliary switches and Madder. -/
def State.storeCore (s : State) (src : Src) (a : Nat) (w : Word) : Option Out :=
  onReg Reg.MORD_LC_REQ_at a (execLcRequest src w s) <|>
  onArr 0x20081004 0x80 16 a (fun c => s.done (s.dev.mordSubmit src c (w.toNat % 256))) <|>
  onArr 0x2009801C 0x100 6 a (fun n => execKickWatchdog src n w s) <|>
  onArr 0x200A0144 0x100 2 a (fun p => reactionNow src p w s) <|>
  onReg Reg.DRAM_CTL_at a (execDramEnable src w s) <|>
  onReg Reg.AUX_CLR_at a (execAuxClr src w s) <|>
  onArr 0x200B0100 0x20 24 a (fun n => execAuxOnRequest src n w s) <|>
  onReg Reg.MAD_HB_at a (heartbeatNow src w s) <|>
  onReg Reg.MAD_REQ_at a (safetyRequestNow src w s) <|>
  onReg Reg.MAD_CFG_COMMIT_at a (cfgCommitNow src w s)

/-- A write to the setup space arrives; nothing while the logic die is held in reset (R14). [DESIGN CHOICE, log 2] -/
def State.storeNow (s : State) (src : Src) (a : Nat) (w : Word) : Out :=
  if s.dev.sup.held then .next s else
  ((s.storeDevice src a w) <|> (s.storeVat src a w) <|> (s.storeNet src a w) <|> (s.storeCore src a w)).getD
    (s.done (s.dev.onWrite src a (fun d => d.writeReg s.memWord s.memBytes src a w.toNat)))

/-- A write to the setup space; a pair that is compared holds back writes to the MADDER and LOCKSTEP blocks (R322).
[DESIGN CHOICE, log 2] -/
def State.store (s : State) (src : Src) (a : Nat) (w : Word) : Out := s.pairWrite src a w (s.storeNow src a w)

/-- A comparison's outcome: the write it set free is made. -/
def State.afterCompare (s : State) (r : Dev × Option (Src × Nat × Word)) : Out :=
  match r.2 with
  | some (src, a, w) => if s.dev.sup.held then .next s else (s.commit r.1).storeNow src a w
  | none => s.done r.1

/-- LOCKSTEP_COMPARE: the primary makes transactions and the shadow's next one is compared (R320–R326). -/
def execLockstepCompare (p : Fin 2) (primary : List Txn) (shadow : Option Txn) (xErr yErr : Bool) (flips : Nat) (s : State) : Out :=
  if s.dev.checking p then s.afterCompare (s.dev.lockstep p primary shadow xErr yErr flips) else s.done s.dev

/-- STATE_DIGEST: a digest that is due is emitted and compared (R325). -/
def execStateDigest (p : Fin 2) (primary shadow : List Byte) (xErr yErr : Bool) (flips : Nat) (s : State) : Out :=
  if s.dev.checking p then s.afterCompare (s.dev.digestNext p primary shadow xErr yErr flips) else s.done s.dev

/-- INJECTION_TEST: the transaction with which a test is due (R327). -/
def execInjectionTest (p : Fin 2) (primary : List Txn) (shadow : Option Txn) (xErr yErr : Bool) (flips : Nat) (s : State) : Out :=
  if s.dev.checking p && (s.dev.testDue p).isSome then s.afterCompare (s.dev.lockstep p primary shadow xErr yErr flips)
  else s.done s.dev

/-- A read of the setup space: a read of CLAIM claims the channel, a read of TB_CAPn_HI takes the stamp, the performance counters are brought up to
date (R280, R315, R342). -/
def Dev.load (d : Dev) (src : Src) (a : Nat) : Dev :=
  match pos 0x20081000 0x80 16 a, pos 0x20003208 16 8 a with
  | some c, _ => d.claim src (v16 c)
  | none, some n => d.capturePop src (p8 n)
  | none, none =>
    match d.guard src a false with
    | some d' => d'
    | none => (if 0x2009C020 ≤ a ∧ a < 0x2009D800 then d.tally else d).readReg src a

end Sys2Proof.Machine
end

