-- ==== Sys2Proof/Machine/AccessCmds.lean ====
section
/-!
DEFINITION. Accesses (R5, R10, R28, R308, R353): to the setup space, to the memories, to the TCMs.
-/

namespace Sys2Proof.Machine
open Sys2Proof

/-- The operation a kind of access asks for. -/
def opOf (k : AccessKind) : MemOp :=
  match k with
  | .read => .read
  | .write => .write
  | .exec => .exec

/-- A target's checker permits the access, an atomic operation reading and writing; or what a denial leaves (R308).
[DEDUCED, log 22] -/
def Dev.checked (d : Dev) (t : Nat) (src : Src) (op : MemOp) (addr : Nat) : Option Dev :=
  let no (k : AccessKind) : Bool := !bypasses src && !d.permits t src k addr
  match op with
  | .read => if no .read then some (d.deny t src .read addr) else none
  | .exec => if no .exec then some (d.deny t src .exec addr) else none
  | .write => if no .write then some (d.deny t src .write addr) else none
  | _ => if no .read || no .write then some (d.deny t src .write addr) else none

/-- An access by a master to a physical address: a TCM its master sees, a target behind its checker, or nothing (R28, R300,
R308). In the setup space only an aligned 32-bit read or write is performed (R5). [DEDUCED, log 22] -/
def State.access (s : State) (src : Src) (op : MemOp) (addr size data : Nat) (ecc : Ecc) : Out :=
  if !s.dev.srcOk src then s.done s.dev
  else match s.dev.inReset src with
  | some d => s.done d
  | none =>
    if s.dev.portOff src then s.done (s.dev.badAccess src op.writes addr)
    else match tcmKey src addr with
    | some (p, key) => s.done (s.dev.atTcm s.memWord src op p key addr size data ecc)
    | none =>
      match checkerOf addr with
      | none => s.done (s.dev.badAccess src op.writes addr)
      | some t =>
        match s.dev.checked t src op addr with
        | some d => s.done d
        | none =>
          if t = 14 then
            if size ≠ 4 ∨ addr % 4 ≠ 0 ∨ op.atomic then s.done (s.dev.badAccess src op.writes addr)
            else if op.writes then s.store src addr (BitVec.ofNat 32 data)
            else s.done (s.dev.load src addr)
          else s.done (s.dev.atMemory s.memWord src op addr size data ecc)

/-- CHECKED_ACCESS. -/
def execCheckedAccess (src : Src) (kind : AccessKind) (addr size data : Nat) (ecc : Ecc) (s : State) : Out :=
  s.access src (opOf kind) addr size data ecc

/-- ATOMIC_ADD (R353). -/
def execAtomicAdd (src : Src) (addr size data : Nat) (ecc : Ecc) (s : State) : Out := s.access src .add addr size data ecc

/-- ATOMIC_SWAP (R353). -/
def execAtomicSwap (src : Src) (addr size data : Nat) (ecc : Ecc) (s : State) : Out := s.access src .swap addr size data ecc

/-- An access that its target does not perform (R5, R28), unless a checker, a warm reset or a quiesced port stops it first. -/
def Dev.notPerformed (d : Dev) (src : Src) (write : Bool) (addr : Nat) : Dev :=
  if !d.srcOk src then d
  else match d.inReset src with
  | some d' => d'
  | none =>
    if d.portOff src then d.badAccess src write addr
    else match checkerOf addr with
    | none => d.badAccess src write addr
    | some t =>
      match d.checked t src (if write then .write else .read) addr with
      | some d' => d'
      | none => d.badAccess src write addr

/-- NARROW_ACCESS: to the setup space, narrower than 32 bits or unaligned (R5). -/
def execNarrowAccess (src : Src) (addr : Nat) (write : Bool) (s : State) : Out :=
  s.done (if inSetup addr then s.dev.notPerformed src write addr else s.dev)

/-- No target performs an access to the address: none occupies it, it is a gap or a block that does not answer (R28, R453). -/
def Dev.unmapped (d : Dev) (src : Src) (write : Bool) (addr : Nat) : Bool :=
  (tcmKey src addr).isNone &&
  ((checkerOf addr).isNone ||
    (if inSetup addr then d.fencedRange addr write || d.offRange addr || (Reg.row addr).isNone
     else !d.serves addr || (inVatSram addr &&
       (decide (0x800 ≤ addr % 0x40000) || d.bit (Reg.VAT_STAT_FENCED ((addr - 0x18000000) / 0x40000))))))

/-- UNMAPPED_ACCESS. -/
def execUnmappedAccess (src : Src) (addr : Nat) (write : Bool) (s : State) : Out :=
  s.done (if s.dev.unmapped src write addr then s.dev.notPerformed src write addr else s.dev)

/-- REGISTER_WRITE: a write of the setup register at an address (R6). -/
def execRegisterWrite (src : Src) (addr : Nat) (data : Word) (s : State) : Out :=
  if inSetup addr then s.store src addr data else s.done s.dev

/-- PAIR_LOW_READ: a read of the low word of a pair captures the high word (R10). [DEDUCED, log 20] -/
def execPairLowRead (src : Src) (addr : Nat) (s : State) : Out :=
  s.done (if isLow addr then s.dev.load src addr else s.dev)

/-- PAIR_HIGH_WRITE: a write of the high word of a pair takes the held low word with it (R10). -/
def execPairHighWrite (src : Src) (addr : Nat) (data : Word) (s : State) : Out :=
  if isHigh addr then s.store src addr data else s.done s.dev

end Sys2Proof.Machine
end

