-- ==== Sys2Proof/Machine/DebugOps.lean ====
section
/-!
DEFINITION. The Gnotar port (R418–R431): the wire's check, the port registers, unlock, run control, memory access,
provisioning and field return. Each register operation answers with the low half of its STATUS byte: 1 ACK, 2 BUSY, 4 ERR.
-/

namespace Sys2Proof.Machine
open Sys2Proof

/-- Change the port. -/
def Dev.modDbg (d : Dev) (f : Dbg → Dbg) : Dev := d.setDbg (f d.dbg)

/-! ### The wire (R420) -/

/-- One bit of the CRC-8 with polynomial x⁸ + x² + x + 1. -/
def crc8Bit (c : Nat) : Nat := if c.testBit 7 then (2 * c % 256) ^^^ 7 else 2 * c

/-- The CRC-8 of bytes, in the order sent. [PRESUMED, log 100] -/
def crc8 (bs : List Byte) : Nat :=
  bs.foldl (fun c b => crc8Bit (crc8Bit (crc8Bit (crc8Bit (crc8Bit (crc8Bit (crc8Bit (crc8Bit (c ^^^ b.toNat))))))))) 0

/-- The device answers: STATUS, and after an ACK of a READ the word and its CRC. -/
def Dev.reply (d : Dev) (code : Nat) (read : Bool) (x : Nat) : Dev :=
  if read ∧ code = 1 then d.emit (.gnotar 0x51 x (crc8 (beBytes 1 0x51 ++ beBytes 4 x))) else d.emit (.gnotar (0x50 + code) 0 0)

/-! ### Reach (R421, R423, R425) -/

/-- The session may reach a port register; those readable or writable while locked are open to all, and so is DP_CERT_CTL,
without which no session could begin. [DEDUCED, log 96] -/
def Dev.dpOpen (d : Dev) (a : Nat) : Bool :=
  if a ≤ 0x07 ∨ a = 0x18 then true
  else if a ≤ 0x0B then d.scope 3 || d.scope 4
  else if a = 0x0C then d.scope 0 || d.scope 1 || d.scope 2 || d.scope 5
  else if a ≤ 0x13 then d.scope 0 || d.scope 1 || d.scope 2
  else if a ≤ 0x16 then d.scope 7
  else if a = 0x17 then d.scope 6
  else false

/-- The register is one of those a standing MEMERR closes (R420). -/
def Dev.dpShut (d : Dev) (a : Nat) : Bool := d.dbg.memErr && decide (8 ≤ a ∧ a ≤ 0x0B)

/-- The session holds the scope of DP_DATA's world. -/
def Dev.memScope (d : Dev) : Bool := if d.dbg.memctl.testBit 1 then d.scope 4 else d.scope 3

/-! ### Unlock (R422–R426) -/

/-- The conditions judged before anything else is read: the result code, 0 if none holds. -/
def Dev.unlockBar (d : Dev) : Nat :=
  if d.bit Reg.DBG_CTL_BLOCK then 9
  else if decide (16 ≤ d.dbg.fails) || (match d.dbg.lastFail with | some t => decide (d.up < t + 400000000) | none => false) then 8
  else if !d.bit Reg.MORD_STAT_DRBG_OK then 10
  else 0

/-- SCOPE bits a life-cycle state permits with a KEY_IDX: none where the pair is not in the table of R424. -/
def scopeFor (lc key : Nat) : Option Nat :=
  match lc with
  | 0 => if key = 0xFF then some 0xB8 else none
  | 1 | 2 => if key < 4 then some 0xFF else none
  | 3 => if key < 4 ∨ key = 0xFF then some 0x3F else none
  | _ => none

/-- The hash KEY_IDX names, unless the key is revoked. -/
def Dev.keyHash (d : Dev) (key : Nat) : Option (List Byte) :=
  if key = 0xFF then some (wordBytes Config.debugKeyHash)
  else if d.fuse.revoked.testBit key then none
  else some (wordBytes (d.fuse.owner.toList.getD key []))

/-- Judge a certificate against the challenge drawn before GO: the result code of R424. -/
def Dev.judgeCert (d : Dev) (cert : List Nat) (chal : Nat) : Nat :=
  let b := wordBytes ((List.range 64).map (fun i => cert.getD i 0))
  let key := hdr b 6 1
  let scope := hdr b 0x10 4
  let pub := hdrBytes b 0x40 96
  if hdr b 0 4 ≠ 0x4B4C4E55 ∨ hdr b 4 2 ≠ 1 ∨ 256 ≤ scope ∨ hdr b 0x14 4 ≠ 0 ∨ hdr b 0x28 24 ≠ 0 then 2
  else if !(hdr b 7 1).testBit d.fuse.lc ||
      (match scopeFor d.fuse.lc key with | some m => scope &&& m != scope | none => true) then 7
  else if d.keyHash key ≠ some (Config.sha384 pub) then 3
  else if !Config.ecdsaVerify pub (Config.sha384 (b.take 0xA0)) (hdrBytes b 0xA0 96) then 4
  else if !(hdr b 8 8 == Config.deviceId || (hdr b 8 8 == 0 && d.fuse.lc == 1)) then 5
  else if hdr b 0x18 16 ≠ chal then 6
  else 1

/-- GO: verification starts with the words written so far. [DEDUCED, log 97] -/
def Dev.certGo (d : Dev) : Dev :=
  d.modDbg (fun x => { x with verify := some (d.up, x.cert, x.chal, d.unlockBar) })

/-- A session opens with a SCOPE: the test root comes in, the event is set and logged (R425). -/
def Dev.openSession (d : Dev) (key scope : Nat) : Dev :=
  let d := ((d.setF Reg.DBG_STAT_UNLOCKED 1).setF Reg.DBG_STAT_SCOPE scope).testRootIn
  let d := (d.raise Reg.DBG_EVT_UNLOCK 1 65).log 0x0A 65 (evInfo (Config.logKind 3)) (Config.unlockData key scope)
  (List.finRange 6).foldl (fun d n => d.haltDue n) d

/-- Verification ends: a session, or a failure counted; the challenge is drawn afresh (R422, R424, R425). [DEDUCED, log 97] -/
def Dev.unlockResult (d : Dev) : Dev :=
  match d.dbg.verify with
  | none => d
  | some (_, cert, chal, bar) =>
    let r := if bar = 0 then d.judgeCert cert chal else bar
    let d := d.modDbg (fun x => { x with verify := none, result := r })
    let d := if r = 1 then d.openSession (bits (cert.getD 1 0) 16 8) (cert.getD 4 0)
      else (d.modDbg (fun x => { x with fails := x.fails + 1, lastFail := some d.up })).raise Reg.DBG_EVT_FAIL 1 65
    d.drawChallenge.review

/-- LOCK: the session ends, breakpoints are disabled, halted cores go on, CATCH clears, a new challenge is drawn (R426).
[DEDUCED, log 97] -/
def Dev.lockPort (d : Dev) : Dev :=
  let d := if d.bit Reg.DBG_STAT_UNLOCKED then d.raise Reg.DBG_EVT_LOCK 1 65 else d
  let d := (d.setF Reg.DBG_STAT_UNLOCKED 0).setF Reg.DBG_STAT_SCOPE 0
  let d := d.modDbg (fun x => { x with bps := x.bps.map (fun b => { b with ctl := b.ctl / 2 * 2 }), catchOn := false })
  let d := (List.finRange 6).foldl (fun d n => (d.resumeCore n).modCore n (fun c => { c with haltPend := false })) d
  d.drawChallenge.review

/-- A write of DP_CERT_CTL: LOCK, then GO, then CLEAR. GO while a certificate is being verified is answered BUSY. -/
def Dev.certCtl (d : Dev) (w : Nat) : Dev × Nat :=
  if w.testBit 0 ∧ d.dbg.verify.isSome then (d, 2)
  else
    let d := if w.testBit 1 then d.lockPort else d
    let d := if w.testBit 0 then d.certGo else d
    (if w.testBit 2 then d.modDbg (fun x => { x with cert := [] }) else d, 1)

/-! ### Run control (R427, R429) -/

/-- The cores a mask names. -/
def coreMask (w : Nat) : List (Fin 6) := (List.finRange 6).filter (fun n => w.testBit n.1)

/-- A halt request is admitted: a core in the normal world needs RUN_N, a pair RUN_SP; one in the secure world without RUN_S
waits. [DEDUCED, log 98] -/
def Dev.haltAsk (d : Dev) (n : Fin 6) : Bool := (n.1 < 4 || d.scope 2) && (d.coreSecure n || d.scope 0)

/-- A core may be resumed by the session. -/
def Dev.resumeAsk (d : Dev) (n : Fin 6) : Bool := if n.1 < 4 then d.scope 0 || d.scope 1 else d.scope 2

/-- A halt request: at the next instruction boundary, or when the core leaves the ROM or the secure world. [DEDUCED, log 98] -/
def Dev.askHalt (d : Dev) (n : Fin 6) : Dev :=
  if (d.cores[n]).halted.isSome then d else (d.modCore n (fun c => { c with haltPend := true })).haltDue n

/-- STEP: a halted core executes one instruction, with interrupts held; where it continues is a free value.
[DESIGN CHOICE, log 75] -/
def Dev.stepCore (d : Dev) (n : Fin 6) : Dev :=
  if (d.cores[n]).halted.isSome then
    let d := (d.coreTrap n).modCore n (fun c => { c with gpr := [] })
    if n = 4 then d.breakLockstep 0 else if n = 5 then d.breakLockstep 1 else d
  else d

/-- A write of DP_RUNCTL: outside SCOPE it is refused whole; else HALT, RESUME, STEP, CATCH and RESET in that order.
[DEDUCED, log 98] -/
def Dev.runctl (d : Dev) (w : Nat) : Dev × Nat :=
  let ns := coreMask w
  let no := (w.testBit 8 && !ns.all (fun n => d.haltAsk n)) || (w.testBit 9 && !ns.all (fun n => d.resumeAsk n)) ||
    (w.testBit 10 && !ns.all (fun n => d.haltAllowed n)) || (w.testBit 11 && !(d.scope 0 || d.scope 1 || d.scope 2)) ||
    (w.testBit 12 && !d.scope 5)
  if no then (d, 4)
  else
    let d := if w.testBit 8 then ns.foldl (fun d n => d.askHalt n) d else d
    let d := if w.testBit 9 then ns.foldl (fun d n =>
        (d.resumeCore n).modCore n (fun c => { c with gpr := [] })) d else d
    let d := if w.testBit 10 then ns.foldl (fun d n => d.stepCore n) d else d
    let d := if w.testBit 11 then d.modDbg (fun x => { x with catchOn := true }) else d
    (if w.testBit 12 then d.requestWarm 4 else d, 1)

/-- DP_RUNSTAT. -/
def Dev.runstat (d : Dev) : Nat :=
  (List.finRange 6).foldl (fun x n =>
    let c := d.cores[n]
    x + 2 ^ n.1 * ((if c.halted.isSome then 1 else 0) + (if c.haltPend then 2 ^ 8 else 0) +
      (if c.halted.isSome && c.byBp then 2 ^ 16 else 0))) 0

/-- The core DP_BPSEL names, whose comparators and registers the port reaches. -/
def Dev.selCore (d : Dev) : Fin 6 := ⟨bits d.dbg.bpsel 0 3 % 6, Nat.mod_lt _ (by decide)⟩

/-- The selected comparator. -/
def Dev.selBp (d : Dev) : Bp :=
  let c := bits d.dbg.bpsel 0 3
  let k := bits d.dbg.bpsel 3 3
  (d.dbg.bps.find? (fun b => b.core == c && b.comp == k)).getD { core := c, comp := k }

/-- Change the selected comparator. -/
def Dev.setBp (d : Dev) (b : Bp) : Dev :=
  d.modDbg (fun x => { x with bps := b :: x.bps.filter (fun y => !(y.core == b.core && y.comp == b.comp)) })

/-- A write of DP_BPCTL: a comparator in use needs the scope of its world and, for a pair, RUN_SP. [DEDUCED, log 98] -/
def Dev.bpctl (d : Dev) (w : Nat) : Dev × Nat :=
  if w.testBit 0 && !((d.selCore.1 < 4 || d.scope 2) && (if w.testBit 3 then d.scope 1 else d.scope 0)) then (d, 4)
  else (d.setBp { d.selBp with ctl := bits w 0 4 }, 1)

/-- A core register of a halted core: what was written or read there since it halted, else a free value.
[DESIGN CHOICE, log 75; DEDUCED, log 99] -/
def Dev.cregRead (d : Dev) : Dev × Nat × Nat :=
  let n := d.selCore
  let i := d.dbg.cregSel
  if (d.cores[n]).halted.isNone || !d.haltAllowed n then (d, 4, 0)
  else
    let d := if n = 4 then d.breakLockstep 0 else if n = 5 then d.breakLockstep 1 else d
    match (d.cores[n]).gpr.find? (fun e => e.1 == i) with
    | some e => (d, 1, e.2)
    | none =>
      let x := d.free 32
      (x.2.modCore n (fun c => { c with gpr := (i, x.1) :: c.gpr }), 1, x.1)

/-- Write a core register of a halted core. [DESIGN CHOICE, log 75] -/
def Dev.cregWrite (d : Dev) (w : Nat) : Dev × Nat :=
  let n := d.selCore
  let i := d.dbg.cregSel
  if (d.cores[n]).halted.isNone || !d.haltAllowed n then (d, 4)
  else
    let d := if n = 4 then d.breakLockstep 0 else if n = 5 then d.breakLockstep 1 else d
    (d.modCore n (fun c => { c with gpr := (i, w) :: c.gpr.filter (fun e => e.1 != i) }), 1)

/-! ### Memory (R428) -/

/-- A read of DP_DATA: the word of a finished access, else BUSY, starting an access if none is outstanding. [DEDUCED, log 99] -/
def Dev.dataRead (d : Dev) : Dev × Nat × Nat :=
  if !d.memScope then (d, 4, 0)
  else match d.dbg.got, d.dbg.acc with
    | some x, _ => (d.modDbg (fun g => { g with given := true }), 1, x)
    | none, some _ => (d, 2, 0)
    | none, none => (d.modDbg (fun g => { g with acc := some ⟨false, g.memctl.testBit 1, g.addr, 0⟩ }), 2, 0)

/-- A write of DP_DATA is posted, or BUSY while an access is outstanding. -/
def Dev.dataWrite (d : Dev) (w : Nat) : Dev × Nat :=
  if !d.memScope then (d, 4)
  else if d.dbg.acc.isSome then (d, 2)
  else (d.modDbg (fun g => { g with acc := some ⟨true, g.memctl.testBit 1, g.addr, w⟩, got := none }), 1)

/-- The end of a memory access: an error sets MEMERR, a read's word is held, INC steps the address. [DEDUCED, log 99] -/
def Dev.accDone (d : Dev) (a : DbgAcc) : Dev :=
  d.modDbg (fun g =>
    let g := if g.memctl.testBit 0 then { g with addr := (g.addr + 4) % 2 ^ 40 } else g
    if d.resp.err then { g with memErr := true }
    else if a.write then g
    else { g with got := some d.resp.data, given := false })

/-! ### Provisioning and field return (R430, R431) -/

/-- A refused request: logged, and answered ERR. [DEDUCED, log 93] -/
def Dev.fuseRefused (d : Dev) : Dev × Nat :=
  let x := d.free 32
  (x.2.log 0x04 0xFF (14 + 32) x.1, 4)

/-- An owner key can be used: programmed and not revoked. -/
def usableKey (owner : List (List Nat)) (revoked k : Nat) : Bool :=
  !(owner.getD k []).all (fun w => w == 0) && !revoked.testBit k

/-- A write of DP_FUSE_CTL: GO programs the selected target, DEV moves a BLANK device to DEVELOP. [DEDUCED, log 93, 99] -/
def Dev.fuseCtl (d : Dev) (w : Nat) : Dev × Nat :=
  let sel := bits d.dbg.fuseSel 0 4
  let lc := d.fuse.lc
  let words := d.dbg.fuseData
  if !w.testBit 0 && !w.testBit 1 then (d, 1)
  else if d.sup.fuse.isSome then (d, 2)
  else if w.testBit 0 then
    if h : sel < 4 then
      let hash := words.take 12
      if (d.fuse.owner[(⟨sel, h⟩ : Fin 4)]).all (fun x => x == 0) ∧ lc ≤ 1 ∧ hash.length = 12 then
        (d.startFuses (.ownerKey ⟨sel, h⟩ hash), 1)
      else d.fuseRefused
    else if sel = 4 then
      let m := words.getLast?.getD 0 % 16
      if lc ≤ 2 ∧ (List.range 4).any (fun k => usableKey d.fuse.owner.toList (d.fuse.revoked ||| m) k) then
        (d.startFuses (.revoke m), 1)
      else d.fuseRefused
    else d.fuseRefused
  else if sel = 15 ∧ lc = 0 then (d.startFuses (.lifeCycle 1), 1)
  else d.fuseRefused

/-- A write of DP_RETURN (R431): to RETURN from DEVELOP or DEPLOY, as MORD_LC_REQ does. [DEDUCED, log 93] -/
def Dev.dpReturn (d : Dev) (w : Nat) : Dev × Nat :=
  if d.sup.fuse.isSome then (d, 2)
  else if bits w 16 16 = 0x5254 ∧ (d.fuse.lc = 1 ∨ d.fuse.lc = 2) then (d.startFuses (.lifeCycle 3), 1)
  else (d.log 0x0A 0xFF (14 + 32 + 64 * (Config.logKind 1 % 1024)) 3, 4)

/-! ### Port registers (R421) -/

/-- DP_STAT. -/
def Dev.dpStat (d : Dev) : Nat :=
  d.f Reg.DBG_STAT_UNLOCKED + (if d.dbg.verify.isSome then 2 else 0) + 4 * (d.fuse.lc % 8) + (if d.dbg.memErr then 64 else 0) +
    128 * d.f Reg.DBG_CTL_BLOCK + 256 * (d.dbg.result % 16) + 65536 * d.f Reg.DBG_STAT_SCOPE

/-- A read of a port register that the session may reach: the device, the status and the word. [DEDUCED, log 96] -/
def Dev.dpRead (d : Dev) (a : Nat) : Dev × Nat × Nat :=
  if a = 0x0A then d.dataRead
  else if a = 0x13 then d.cregRead
  else (d, 1,
    if a = 0 then 0x256FA200
    else if a = 1 then d.dpStat
    else if 2 ≤ a ∧ a ≤ 5 then (if d.bit Reg.MORD_STAT_DRBG_OK then bits d.dbg.chal (32 * (a - 2)) 32 else 0)
    else if a = 8 then bits d.dbg.addr 0 32
    else if a = 9 then bits d.dbg.addr 32 8
    else if a = 0x0B then d.dbg.memctl
    else if a = 0x0D then d.runstat
    else if a = 0x0E then d.dbg.bpsel
    else if a = 0x0F then bits d.selBp.addr 0 32
    else if a = 0x10 then bits d.selBp.addr 32 8
    else if a = 0x11 then d.selBp.ctl
    else if a = 0x12 then d.dbg.cregSel
    else if a = 0x14 then d.dbg.fuseSel
    else if a = 0x15 then d.dbg.fuseData.getLast?.getD 0
    else if a = 0x18 then d.dbg.crcErr
    else 0)

/-- Replace 32 or 8 bits of an address. -/
def spliceLo (x w : Nat) : Nat := x / 2 ^ 32 * 2 ^ 32 + w % 2 ^ 32
def spliceHi (x w : Nat) : Nat := x % 2 ^ 32 + 2 ^ 32 * (w % 256)

/-- A write of a port register that the session may reach. [DEDUCED, log 96, 99] -/
def Dev.dpWrite (d : Dev) (a w : Nat) : Dev × Nat :=
  if a = 6 then (d.modDbg (fun x => if x.cert.length < 64 then { x with cert := x.cert ++ [w] } else x), 1)
  else if a = 7 then d.certCtl w
  else if a = 8 then (d.modDbg (fun x => { x with addr := spliceLo x.addr (w / 4 * 4), got := none }), 1)
  else if a = 9 then (d.modDbg (fun x => { x with addr := spliceHi x.addr w, got := none }), 1)
  else if a = 0x0A then d.dataWrite w
  else if a = 0x0B then
    if w.testBit 1 && !d.scope 4 then (d, 4) else (d.modDbg (fun x => { x with memctl := bits w 0 2, got := none }), 1)
  else if a = 0x0C then d.runctl w
  else if a = 0x0E then
    if bits w 0 3 ≤ 5 ∧ bits w 3 3 ≤ 5 then (d.modDbg (fun x => { x with bpsel := bits w 0 6 }), 1) else (d, 4)
  else if a = 0x0F then (d.setBp { d.selBp with addr := spliceLo d.selBp.addr w }, 1)
  else if a = 0x10 then (d.setBp { d.selBp with addr := spliceHi d.selBp.addr w }, 1)
  else if a = 0x11 then d.bpctl w
  else if a = 0x12 then (d.modDbg (fun x => { x with cregSel := w }), 1)
  else if a = 0x13 then d.cregWrite w
  else if a = 0x14 then (d.modDbg (fun x => { x with fuseSel := w, fuseData := [] }), 1)
  else if a = 0x15 then (d.modDbg (fun x => { x with fuseData := x.fuseData ++ [w] }), 1)
  else if a = 0x16 then d.fuseCtl w
  else if a = 0x17 then d.dpReturn w
  else (d, 1)

/-- Another request than a repeated read of DP_DATA ends the access it answered. [DEDUCED, log 99] -/
def Dev.dropGiven (d : Dev) : Dev :=
  if d.dbg.given then d.modDbg (fun x => { x with got := none, given := false }) else d

/-- A READ whose check passed. -/
def Dev.probeRead (d : Dev) (a : Nat) : Dev :=
  let d := if a = 0x0A then d else d.dropGiven
  if d.dpShut a || !d.dpOpen a then d.reply 4 true 0
  else
    let r := d.dpRead a
    r.1.reply r.2.1 true r.2.2

/-- A WRITE whose check passed. -/
def Dev.probeWrite (d : Dev) (a w : Nat) : Dev :=
  let d := d.dropGiven
  if d.dpShut a || !d.dpOpen a then d.reply 4 false 0
  else
    let r := d.dpWrite a w
    r.1.reply r.2 false 0

/-- A CLEAR whose check passed: MEMERR clears and the outstanding access is cancelled. -/
def Dev.probeClear (d : Dev) : Dev :=
  (d.modDbg (fun x => { x with memErr := false, acc := none, got := none, given := false })).reply 1 false 0

/-- A request whose check failed: discarded, counted, answered BADCRC. -/
def Dev.badCrc (d : Dev) : Dev := (d.modDbg (fun x => { x with crcErr := min (2 ^ 32 - 1) (x.crcErr + 1) })).reply 8 false 0

/-- The port answers only once it is activated (R419). -/
def Dev.onPort (d : Dev) (act : Dev → Dev) : Dev := if d.bit Reg.DBG_STAT_ACTIVE then act d else d

end Sys2Proof.Machine
end

