-- ==== Sys2Proof/Machine/DebugCmds.lean ====
section
/-!
DEFINITION. The commands of the Gnotar port (R419–R431). A row that names one register stands for the wire's transaction on
it with a right check.
-/

namespace Sys2Proof.Machine
open Sys2Proof

/-- PORT_ACTIVATE: the wake sequence; repeated, a line reset, which clears MEMERR (R419). -/
def execPortActivate (s : State) : Out :=
  s.done ((s.dev.setF Reg.DBG_STAT_ACTIVE 1).modDbg (fun x => { x with memErr := false }))

/-- A request without WDATA, REQ and RCRC as sent: a READ, a CLEAR, or a reserved OP, which is answered ERR. After the REQ of
a WRITE the port waits for WDATA. [DEDUCED, log 96] -/
def Dev.shortRequest (d : Dev) (req rcrc : Nat) : Dev :=
  if bits req 6 2 = 2 then d
  else if rcrc ≠ crc8 (beBytes 1 req) then d.badCrc
  else match bits req 6 2 with
    | 0 => d.dropGiven.reply 4 false 0
    | 1 => d.probeRead (bits req 0 6)
    | _ => d.probeClear

/-- READ (R420). -/
def execGnotarRead (req rcrc : Nat) (s : State) : Out := s.done (s.dev.onPort (fun d => d.shortRequest req rcrc))

/-- WRITE (R420). [DEDUCED, log 96] -/
def execGnotarWrite (req : Nat) (data : Word) (rcrc : Nat) (s : State) : Out :=
  s.done (s.dev.onPort (fun d =>
    if rcrc ≠ crc8 (beBytes 1 req ++ beBytes 4 data.toNat) then d.badCrc
    else if bits req 6 2 = 2 then d.probeWrite (bits req 0 6) data.toNat else d))

/-- CLEAR (R420). -/
def execGnotarClear (req rcrc : Nat) (s : State) : Out := s.done (s.dev.onPort (fun d => d.shortRequest req rcrc))

/-- CERT_WORD: a write of DP_CERT (R423). [DEDUCED, log 97] -/
def execCertWord (data : Word) (s : State) : Out := s.done (s.dev.onPort (fun d => d.probeWrite 0x06 data.toNat))

/-- GO: a write of DP_CERT_CTL (R424). -/
def execGo (s : State) : Out := s.done (s.dev.onPort (fun d => d.probeWrite 0x07 1))

/-- LOCK: a write of DP_CERT_CTL (R426). -/
def execLock (s : State) : Out := s.done (s.dev.onPort (fun d => d.probeWrite 0x07 2))

/-- CLEAR of the certificate: a write of DP_CERT_CTL (R423). -/
def execCertClear (s : State) : Out := s.done (s.dev.onPort (fun d => d.probeWrite 0x07 4))

/-- UNLOCK_RESULT (R424, R425). -/
def execUnlockResult (s : State) : Out := s.done s.dev.unlockResult

/-- HALT: a write of DP_RUNCTL (R427). -/
def execHalt (mask : Fin 64) (s : State) : Out := s.done (s.dev.onPort (fun d => d.probeWrite 0x0C (2 ^ 8 + mask.1)))

/-- RESUME: a write of DP_RUNCTL (R427). -/
def execRunctlResume (mask : Fin 64) (s : State) : Out := s.done (s.dev.onPort (fun d => d.probeWrite 0x0C (2 ^ 9 + mask.1)))

/-- STEP: a write of DP_RUNCTL (R427). -/
def execRunctlStep (mask : Fin 64) (s : State) : Out := s.done (s.dev.onPort (fun d => d.probeWrite 0x0C (2 ^ 10 + mask.1)))

/-- RESET: a write of DP_RUNCTL (R429). -/
def execGnotarReset (s : State) : Out := s.done (s.dev.onPort (fun d => d.probeWrite 0x0C (2 ^ 12)))

/-- The comparator matches the access, in the core's world. [DEDUCED, log 98] -/
def Dev.bpMatch (d : Dev) (n : Fin 6) (b : Bp) (addr : Nat) (kind : BpKind) : Bool :=
  b.ctl.testBit 0 && b.addr == addr && b.ctl.testBit 3 == d.coreSecure n &&
  (match kind, bits b.ctl 1 2 with
   | .fetch, 0 => true
   | .read, 1 | .read, 3 => true
   | .write, 2 | .write, 3 => true
   | _, _ => false)

/-- BREAKPOINT_HIT: a comparator of a running core matches; the core halts where it continues from `pc` (R427). A HALT at the
same boundary counts as this hit. -/
def Dev.breakpointHit (d : Dev) (n comp : Fin 6) (addr : Nat) (kind : BpKind) (pc : Nat) : Dev :=
  match d.dbg.bps.find? (fun b => b.core == n.1 && b.comp == comp.1) with
  | some b =>
    if d.bpMatch n b addr kind && d.haltAllowed n && (d.coreRuns n || (d.cores[n]).halted == some d.up) then
      (d.haltCore n true).modCore n (fun c => { c with pc := pc % 2 ^ 40 })
    else d
  | none => d

/-- BREAKPOINT_HIT. -/
def execBreakpointHit (n comp : Fin 6) (addr : Nat) (kind : BpKind) (pc : Nat) (s : State) : Out :=
  s.done (s.dev.breakpointHit n comp addr kind pc)

/-- CORE_REGISTER_ACCESS: a read or write of DP_CREG_DATA (R427). -/
def execCoreRegisterAccess (write : Bool) (data : Word) (s : State) : Out :=
  s.done (s.dev.onPort (fun d => if write then d.probeWrite 0x13 data.toNat else d.probeRead 0x13))

/-- MEMORY_READ: a read of DP_DATA (R428). -/
def execMemoryRead (s : State) : Out := s.done (s.dev.onPort (fun d => d.probeRead 0x0A))

/-- MEMORY_WRITE: a write of DP_DATA (R428). -/
def execMemoryWrite (data : Word) (s : State) : Out := s.done (s.dev.onPort (fun d => d.probeWrite 0x0A data.toNat))

/-- MEMORY_ACCESS_DONE: the outstanding access is made as master 14, in the world DP_MEMCTL named (R428). -/
def execMemoryAccessDone (ecc : Ecc) (s : State) : Out :=
  match s.dev.dbg.acc with
  | some a =>
    if s.dev.sup.held then .next s
    else
      match (s.commit (s.dev.modDbg (fun x => { x with acc := none }))).access ⟨14, a.secure, 0⟩
          (if a.write then .write else .read) a.addr 4 a.data ecc with
      | .next t => .next (t.commit (t.dev.accDone a))
      | o => o
  | none => s.done s.dev

/-- FUSE_GO: a write of DP_FUSE_CTL (R430). -/
def execFuseGo (s : State) : Out := s.done (s.dev.onPort (fun d => d.probeWrite 0x16 1))

/-- DEV: a write of DP_FUSE_CTL (R430). -/
def execDev (s : State) : Out := s.done (s.dev.onPort (fun d => d.probeWrite 0x16 2))

/-- RETURN: a write of DP_RETURN (R431). -/
def execReturnLc (data : Word) (s : State) : Out := s.done (s.dev.onPort (fun d => d.probeWrite 0x17 data.toNat))

end Sys2Proof.Machine
end

