-- ==== Sys2Proof/Machine/Dispatch.lean ====
section
/-!
DEFINITION. One arm per command: each calls the one meaning the command has.
-/

namespace Sys2Proof.Machine
open Sys2Proof

/-- The command's effect on everything but the queue. -/
def exec (i : Instr) (s : State) : Host.Outcome State Fault Refusal :=
  match i with
  | .narrowAccess src addr write => Sys2Proof.Machine.execNarrowAccess src addr write s
  | .registerWrite src addr data => Sys2Proof.Machine.execRegisterWrite src addr data s
  | .pairLowRead src addr => Sys2Proof.Machine.execPairLowRead src addr s
  | .pairHighWrite src addr data => Sys2Proof.Machine.execPairHighWrite src addr data s
  | .unmappedAccess src addr write => Sys2Proof.Machine.execUnmappedAccess src addr write s
  | .checkedAccess src kind addr size data ecc => Sys2Proof.Machine.execCheckedAccess src kind addr size data ecc s
  | .atomicAdd src addr size data ecc => Sys2Proof.Machine.execAtomicAdd src addr size data ecc s
  | .atomicSwap src addr size data ecc => Sys2Proof.Machine.execAtomicSwap src addr size data ecc s
  | .offsetCorrection src data => Sys2Proof.Machine.execOffsetCorrection src data s
  | .tbLoad src hi => Sys2Proof.Machine.execTbLoad src hi s
  | .lateFault u v k => Sys2Proof.Machine.execLateFault u v k s
  | .governorWindow slack => Sys2Proof.Machine.execGovernorWindow slack s
  | .junction120 above => Sys2Proof.Machine.execJunction120 above s
  | .govCtlWrite src data => Sys2Proof.Machine.execGovCtlWrite src data s
  | .clr src data => Sys2Proof.Machine.execClr src data s
  | .iBlock v hdr payload frac => Sys2Proof.Machine.execIBlock v hdr payload frac s
  | .vBlock v hdr payload => Sys2Proof.Machine.execVBlock v hdr payload s
  | .modfClear v k current => Sys2Proof.Machine.execModfClear v k current s
  | .auxReport v hdr payload frac => Sys2Proof.Machine.execAuxReport v hdr payload frac s
  | .groupCheck v hdr payload => Sys2Proof.Machine.execGroupCheck v hdr payload s
  | .blockLockLoss v empties => Sys2Proof.Machine.execBlockLockLoss v empties s
  | .trnBlock v payload => Sys2Proof.Machine.execTrnBlock v payload s
  | .laneEnable src v data => Sys2Proof.Machine.execLaneEnable src v data s
  | .laneDisable src v data => Sys2Proof.Machine.execLaneDisable src v data s
  | .retrain src v data => Sys2Proof.Machine.execRetrain src v data s
  | .trainingAdvance v rtt => Sys2Proof.Machine.execTrainingAdvance v rtt s
  | .trainingTimeout v => Sys2Proof.Machine.execTrainingTimeout v s
  | .trainingRetry v => Sys2Proof.Machine.execTrainingRetry v s
  | .bregRead src v data => Sys2Proof.Machine.execBregRead src v data s
  | .bregWrite src v data => Sys2Proof.Machine.execBregWrite src v data s
  | .cfgSend v => Sys2Proof.Machine.execCfgSend v s
  | .cfgTimeout v => Sys2Proof.Machine.execCfgTimeout v s
  | .firmwareKill src v data => Sys2Proof.Machine.execFirmwareKill src v data s
  | .killEmit v => Sys2Proof.Machine.execKillEmit v s
  | .killRepeat v => Sys2Proof.Machine.execKillRepeat v s
  | .killNoack v k => Sys2Proof.Machine.execKillNoack v k s
  | .fastSample v k => Sys2Proof.Machine.execFastSample v k s
  | .sinc4Output v k current => Sys2Proof.Machine.execSinc4Output v k current s
  | .precisionOutput v k tOut => Sys2Proof.Machine.execPrecisionOutput v k tOut s
  | .rateChange v k => Sys2Proof.Machine.execRateChange v k s
  | .calCommit src v data => Sys2Proof.Machine.execCalCommit src v data s
  | .calCommitApply v => Sys2Proof.Machine.execCalCommitApply v s
  | .loopComputation v k residueOk sramOk => Sys2Proof.Machine.execLoopComputation v k residueOk sramOk s
  | .armTimeout v k => Sys2Proof.Machine.execArmTimeout v k s
  | .closeDelayEnd v k => Sys2Proof.Machine.execCloseDelayEnd v k s
  | .rampTimeout v k => Sys2Proof.Machine.execRampTimeout v k s
  | .heldStart v k => Sys2Proof.Machine.execHeldStart v k s
  | .holdLimitExpiry v k => Sys2Proof.Machine.execHoldLimitExpiry v k s
  | .hostLinkDown port => Sys2Proof.Machine.execHostLinkDown port s
  | .orphanPolicy v k => Sys2Proof.Machine.execOrphanPolicy v k s
  | .orphanMaxExpiry v k => Sys2Proof.Machine.execOrphanMaxExpiry v k s
  | .orphanEnd v k => Sys2Proof.Machine.execOrphanEnd v k s
  | .fence src data => Sys2Proof.Machine.execFence src data s
  | .fenceDone v => Sys2Proof.Machine.execFenceDone v s
  | .ledgerClose v => Sys2Proof.Machine.execLedgerClose v s
  | .reenable src data => Sys2Proof.Machine.execReenable src data s
  | .budgetTimeout v k => Sys2Proof.Machine.execBudgetTimeout v k s
  | .budgetRefused v k => Sys2Proof.Machine.execBudgetRefused v k s
  | .syncStart v k => Sys2Proof.Machine.execSyncStart v k s
  | .cmdPi port j op => Sys2Proof.Machine.execCmdPi port j op s
  | .consumerDoorbell port j offset op => Sys2Proof.Machine.execConsumerDoorbell port j offset op s
  | .mirrorPoll j => Sys2Proof.Machine.execMirrorPoll j s
  | .nop j desc => Sys2Proof.Machine.execNop j desc s
  | .step j desc => Sys2Proof.Machine.execStep j desc s
  | .stop j desc => Sys2Proof.Machine.execStop j desc s
  | .flush j desc => Sys2Proof.Machine.execFlush j desc s
  | .abort j desc => Sys2Proof.Machine.execAbort j desc s
  | .mark j desc => Sys2Proof.Machine.execMark j desc s
  | .resume j desc => Sys2Proof.Machine.execResume j desc s
  | .badOp j desc => Sys2Proof.Machine.execBadOp j desc s
  | .cmdStall j => Sys2Proof.Machine.execCmdStall j s
  | .completionWrite j => Sys2Proof.Machine.execCompletionWrite j s
  | .writebackWrite j => Sys2Proof.Machine.execWritebackWrite j s
  | .progressCompletion v k => Sys2Proof.Machine.execProgressCompletion v k s
  | .dmaError j r index => Sys2Proof.Machine.execDmaError j r index s
  | .ringCfgWrite src j r data => Sys2Proof.Machine.execRingCfgWrite src j r data s
  | .streamDeliver j x => Sys2Proof.Machine.execStreamDeliver j x s
  | .divergenceCheck v => Sys2Proof.Machine.execDivergenceCheck v s
  | .chainStart src j data => Sys2Proof.Machine.execChainStart src j data s
  | .sealClear src j data => Sys2Proof.Machine.execSealClear src j data s
  | .checkpoint j => Sys2Proof.Machine.execCheckpoint j s
  | .checkpointWrite j => Sys2Proof.Machine.execCheckpointWrite j s
  | .ldgCkCiWrite src j data => Sys2Proof.Machine.execLdgCkCiWrite src j data s
  | .ldgSnap src v data => Sys2Proof.Machine.execLdgSnap src v data s
  | .impStart src v data => Sys2Proof.Machine.execImpStart src v data s
  | .impStop src v data => Sys2Proof.Machine.execImpStop src v data s
  | .pointStart v => Sys2Proof.Machine.execPointStart v s
  | .pointEnd v => Sys2Proof.Machine.execPointEnd v s
  | .impRecordDeliver v => Sys2Proof.Machine.execImpRecordDeliver v s
  | .create src data => Sys2Proof.Machine.execCreate src data s
  | .createComplete j => Sys2Proof.Machine.execCreateComplete j s
  | .destroy src data => Sys2Proof.Machine.execDestroy src data s
  | .closingCheckpoint j => Sys2Proof.Machine.execClosingCheckpoint j s
  | .teardownDeadline j => Sys2Proof.Machine.execTeardownDeadline j s
  | .teardownDone j => Sys2Proof.Machine.execTeardownDone j s
  | .attach src data => Sys2Proof.Machine.execAttach src data s
  | .controllerWatchdogExpiry j => Sys2Proof.Machine.execControllerWatchdogExpiry j s
  | .sliceModeWrite src data => Sys2Proof.Machine.execSliceModeWrite src data s
  | .resize src data => Sys2Proof.Machine.execResize src data s
  | .channelMove v k => Sys2Proof.Machine.execChannelMove v k s
  | .migrate src data => Sys2Proof.Machine.execMigrate src data s
  | .freeze j => Sys2Proof.Machine.execFreeze j s
  | .sliceResume src data => Sys2Proof.Machine.execSliceResume src data s
  | .freezeMaxExpiry j => Sys2Proof.Machine.execFreezeMaxExpiry j s
  | .frameReceive p bytes good stamp => Sys2Proof.Machine.execFrameReceive p bytes good stamp s
  | .frameTransmit p egress => Sys2Proof.Machine.execFrameTransmit p egress s
  | .xoffRefresh p => Sys2Proof.Machine.execXoffRefresh p s
  | .pauseReceive p pfc mask quanta => Sys2Proof.Machine.execPauseReceive p pfc mask quanta s
  | .pauseExpiry p => Sys2Proof.Machine.execPauseExpiry p s
  | .ageOut idx => Sys2Proof.Machine.execAgeOut idx s
  | .mcastHoldExpiry p => Sys2Proof.Machine.execMcastHoldExpiry p s
  | .auditPass leaks duals => Sys2Proof.Machine.execAuditPass leaks duals s
  | .portLinkChange p up mbps => Sys2Proof.Machine.execPortLinkChange p up mbps s
  | .portRemoval p cause => Sys2Proof.Machine.execPortRemoval p cause s
  | .portReenable src data => Sys2Proof.Machine.execPortReenable src data s
  | .preemptVerify p ok => Sys2Proof.Machine.execPreemptVerify p ok s
  | .macRead src data => Sys2Proof.Machine.execMacRead src data s
  | .macWrite src data => Sys2Proof.Machine.execMacWrite src data s
  | .macLookup src data => Sys2Proof.Machine.execMacLookup src data s
  | .macFlushPort src data => Sys2Proof.Machine.execMacFlushPort src data s
  | .macFlushAll src data => Sys2Proof.Machine.execMacFlushAll src data s
  | .vlanRead src data => Sys2Proof.Machine.execVlanRead src data s
  | .vlanWrite src data => Sys2Proof.Machine.execVlanWrite src data s
  | .exportAck x r index => Sys2Proof.Machine.execExportAck x r index s
  | .exportResend x r => Sys2Proof.Machine.execExportResend x r s
  | .barrierRequest src data => Sys2Proof.Machine.execBarrierRequest src data s
  | .jasiaForward p bytes good => Sys2Proof.Machine.execJasiaForward p bytes good s
  | .barrierAccept p bytes good => Sys2Proof.Machine.execBarrierAccept p bytes good s
  | .beaconReceive p bytes good => Sys2Proof.Machine.execBeaconReceive p bytes good s
  | .beaconMiss p => Sys2Proof.Machine.execBeaconMiss p s
  | .autoReenable p => Sys2Proof.Machine.execAutoReenable p s
  | .ptpFrameReceive p frame stamp => Sys2Proof.Machine.execPtpFrameReceive p frame stamp s
  | .ptpTransmit egress => Sys2Proof.Machine.execPtpTransmit egress s
  | .kick src data => Sys2Proof.Machine.execKick src data s
  | .comparatorArm src j data => Sys2Proof.Machine.execComparatorArm src j data s
  | .comparatorFire j => Sys2Proof.Machine.execComparatorFire j s
  | .pulseEnd p => Sys2Proof.Machine.execPulseEnd p s
  | .capture n rising => Sys2Proof.Machine.execCapture n rising s
  | .capturePop src n => Sys2Proof.Machine.execCapturePop src n s
  | .initClear src n data => Sys2Proof.Machine.execInitClear src n data s
  | .busIntegration n => Sys2Proof.Machine.execBusIntegration n s
  | .canFrameReceive n frame sof => Sys2Proof.Machine.execCanFrameReceive n frame sof s
  | .canTransmit n sof dly fate => Sys2Proof.Machine.execCanTransmit n sof dly fate s
  | .canError n err dataPhase count => Sys2Proof.Machine.execCanError n err dataPhase count s
  | .recovered n => Sys2Proof.Machine.execRecovered n s
  | .canRestart src n data => Sys2Proof.Machine.execCanRestart src n data s
  | .txgo src n data => Sys2Proof.Machine.execTxgo src n data s
  | .txabort src n data => Sys2Proof.Machine.execTxabort src n data s
  | .canFifoCiWrite src n j data => Sys2Proof.Machine.execCanFifoCiWrite src n j data s
  | .gate n g next => Sys2Proof.Machine.execGate n g next s
  | .gret n => Sys2Proof.Machine.execGret n s
  | .secureInterrupt n next => Sys2Proof.Machine.execSecureInterrupt n next s
  | .coreFault n => Sys2Proof.Machine.execCoreFault n s
  | .kickWatchdog src n data => Sys2Proof.Machine.execKickWatchdog src n data s
  | .secureWatchdogExpiry n => Sys2Proof.Machine.execSecureWatchdogExpiry n s
  | .gateTimerExpiry n => Sys2Proof.Machine.execGateTimerExpiry n s
  | .quiesce src data => Sys2Proof.Machine.execQuiesce src data s
  | .qreqResume src data => Sys2Proof.Machine.execQreqResume src data s
  | .retain src data => Sys2Proof.Machine.execRetain src data s
  | .off src data => Sys2Proof.Machine.execOff src data s
  | .qtagWrite src b data => Sys2Proof.Machine.execQtagWrite src b data s
  | .requestDrained secure => Sys2Proof.Machine.execRequestDrained secure s
  | .bankTransitionDone n => Sys2Proof.Machine.execBankTransitionDone n s
  | .lockstepCompare p primary shadow xErr yErr parity => Sys2Proof.Machine.execLockstepCompare p primary shadow xErr yErr parity s
  | .stateDigest p primary shadow xErr yErr parity => Sys2Proof.Machine.execStateDigest p primary shadow xErr yErr parity s
  | .injectionTest p primary shadow xErr yErr parity => Sys2Proof.Machine.execInjectionTest p primary shadow xErr yErr parity s
  | .lagTimeout p => Sys2Proof.Machine.execLagTimeout p s
  | .reactionTest src p data => Sys2Proof.Machine.execReactionTest src p data s
  | .claim src c => Sys2Proof.Machine.execClaim src c s
  | .derive src c => Sys2Proof.Machine.execDerive src c s
  | .invalidate src c => Sys2Proof.Machine.execInvalidate src c s
  | .gcmEnc src c => Sys2Proof.Machine.execGcmEnc src c s
  | .gcmDec src c => Sys2Proof.Machine.execGcmDec src c s
  | .hmac src c => Sys2Proof.Machine.execHmac src c s
  | .sign src c => Sys2Proof.Machine.execSign src c s
  | .pubkey src c => Sys2Proof.Machine.execPubkey src c s
  | .chainKey src c => Sys2Proof.Machine.execChainKey src c s
  | .random src c => Sys2Proof.Machine.execRandom src c s
  | .exportKey src c => Sys2Proof.Machine.execExportKey src c s
  | .slotRelease k => Sys2Proof.Machine.execSlotRelease k s
  | .lcRequest src data => Sys2Proof.Machine.execLcRequest src data s
  | .dramEnable src data => Sys2Proof.Machine.execDramEnable src data s
  | .dramReady trained => Sys2Proof.Machine.execDramReady trained s
  | .dramChannelFail n => Sys2Proof.Machine.execDramChannelFail n s
  | .scrubPass corrected uncorrectable => Sys2Proof.Machine.execScrubPass corrected uncorrectable s
  | .auxOnRequest src n data => Sys2Proof.Machine.execAuxOnRequest src n data s
  | .auxOffRequest src n data => Sys2Proof.Machine.execAuxOffRequest src n data s
  | .inrushEnd n => Sys2Proof.Machine.execInrushEnd n s
  | .clampEnd n => Sys2Proof.Machine.execClampEnd n s
  | .short n => Sys2Proof.Machine.execShort n s
  | .overload n => Sys2Proof.Machine.execOverload n s
  | .ot n => Sys2Proof.Machine.execOt n s
  | .retry n => Sys2Proof.Machine.execRetry n s
  | .retriesReset n => Sys2Proof.Machine.execRetriesReset n s
  | .auxClr src data => Sys2Proof.Machine.execAuxClr src data s
  | .openLoad n => Sys2Proof.Machine.execOpenLoad n s
  | .openLoadClear n => Sys2Proof.Machine.execOpenLoadClear n s
  | .groupWarning g temp => Sys2Proof.Machine.execGroupWarning g temp s
  | .groupWarningClear g temp => Sys2Proof.Machine.execGroupWarningClear g temp s
  | .dissipationEstimate samples => Sys2Proof.Machine.execDissipationEstimate samples s
  | .auxHoldEnd n => Sys2Proof.Machine.execAuxHoldEnd n s
  | .madderCycle a b fb rb => Sys2Proof.Machine.execMadderCycle a b fb rb s
  | .madderSupplyFault cause => Sys2Proof.Machine.execMadderSupplyFault cause s
  | .heartbeat src data => Sys2Proof.Machine.execHeartbeat src data s
  | .safetyRequest src data => Sys2Proof.Machine.execSafetyRequest src data s
  | .testPulse o => Sys2Proof.Machine.execTestPulse o s
  | .testPulseEnd ok => Sys2Proof.Machine.execTestPulseEnd ok s
  | .fbFail n => Sys2Proof.Machine.execFbFail n s
  | .srstPulse highUs pass => Sys2Proof.Machine.execSrstPulse highUs pass s
  | .rearmFeedback fb pass => Sys2Proof.Machine.execRearmFeedback fb pass s
  | .cfgCommit src data => Sys2Proof.Machine.execCfgCommit src data s
  | .logicDieRelease refsel mstr => Sys2Proof.Machine.execLogicDieRelease refsel mstr s
  | .vinWarning mv => Sys2Proof.Machine.execVinWarning mv s
  | .supplyEvent rail => Sys2Proof.Machine.execSupplyEvent rail s
  | .wrstN lowNs => Sys2Proof.Machine.execWrstN lowNs s
  | .warm src data => Sys2Proof.Machine.execWarm src data s
  | .bootComplete flash drbgOk startOk => Sys2Proof.Machine.execBootComplete flash drbgOk startOk s
  | .svnRequest src data => Sys2Proof.Machine.execSvnRequest src data s
  | .coreRelease src data ok => Sys2Proof.Machine.execCoreRelease src data ok s
  | .gnotarRead req rcrc => Sys2Proof.Machine.execGnotarRead req rcrc s
  | .gnotarWrite req data rcrc => Sys2Proof.Machine.execGnotarWrite req data rcrc s
  | .gnotarClear req rcrc => Sys2Proof.Machine.execGnotarClear req rcrc s
  | .certWord data => Sys2Proof.Machine.execCertWord data s
  | .halt mask => Sys2Proof.Machine.execHalt mask s
  | .runctlResume mask => Sys2Proof.Machine.execRunctlResume mask s
  | .runctlStep mask => Sys2Proof.Machine.execRunctlStep mask s
  | .breakpointHit n comp addr kind pc => Sys2Proof.Machine.execBreakpointHit n comp addr kind pc s
  | .coreRegisterAccess write data => Sys2Proof.Machine.execCoreRegisterAccess write data s
  | .memoryWrite data => Sys2Proof.Machine.execMemoryWrite data s
  | .memoryAccessDone ecc => Sys2Proof.Machine.execMemoryAccessDone ecc s
  | .returnLc data => Sys2Proof.Machine.execReturnLc data s
  | .routeWrite src j data => Sys2Proof.Machine.execRouteWrite src j data s
  | .enableWrite src w data => Sys2Proof.Machine.execEnableWrite src w data s
  | .softwareEvent src data => Sys2Proof.Machine.execSoftwareEvent src data s
  | .logSelect src data => Sys2Proof.Machine.execLogSelect src data s
  | .logCiWrite src data => Sys2Proof.Machine.execLogCiWrite src data s
  | .hostLinkUp port => Sys2Proof.Machine.execHostLinkUp port s
  | .vinWarningClear mv => Sys2Proof.Machine.execVinWarningClear mv s
  | .vioBankChange bank mv => Sys2Proof.Machine.execVioBankChange bank mv s
  | .tbLock => Sys2Proof.Machine.execTbLock s
  | .lossOfReference => Sys2Proof.Machine.execLossOfReference s
  | .slewEnd => Sys2Proof.Machine.execSlewEnd s
  | .pinReached => Sys2Proof.Machine.execPinReached s
  | .balancerPass => Sys2Proof.Machine.execBalancerPass s
  | .resizeTimeout => Sys2Proof.Machine.execResizeTimeout s
  | .fabricRound => Sys2Proof.Machine.execFabricRound s
  | .cTransmit => Sys2Proof.Machine.execCTransmit s
  | .exportFrame => Sys2Proof.Machine.execExportFrame s
  | .barrierRepeat => Sys2Proof.Machine.execBarrierRepeat s
  | .beaconSend => Sys2Proof.Machine.execBeaconSend s
  | .masterLost => Sys2Proof.Machine.execMasterLost s
  | .holdoverEntry => Sys2Proof.Machine.execHoldoverEntry s
  | .holdoverExpiry => Sys2Proof.Machine.execHoldoverExpiry s
  | .deferTimeout => Sys2Proof.Machine.execDeferTimeout s
  | .mordantCommandDone => Sys2Proof.Machine.execMordantCommandDone s
  | .remaskPass => Sys2Proof.Machine.execRemaskPass s
  | .drbgFailure => Sys2Proof.Machine.execDrbgFailure s
  | .fuseProgrammingDone => Sys2Proof.Machine.execFuseProgrammingDone s
  | .vauxUndervoltage => Sys2Proof.Machine.execVauxUndervoltage s
  | .vauxRecovery => Sys2Proof.Machine.execVauxRecovery s
  | .safeStopKill => Sys2Proof.Machine.execSafeStopKill s
  | .hbLost => Sys2Proof.Machine.execHbLost s
  | .powerOnReset => Sys2Proof.Machine.execPowerOnReset s
  | .vinRise => Sys2Proof.Machine.execVinRise s
  | .supplyShutdown => Sys2Proof.Machine.execSupplyShutdown s
  | .supplyReset => Sys2Proof.Machine.execSupplyReset s
  | .bootRomStart => Sys2Proof.Machine.execBootRomStart s
  | .portActivate => Sys2Proof.Machine.execPortActivate s
  | .go => Sys2Proof.Machine.execGo s
  | .unlockResult => Sys2Proof.Machine.execUnlockResult s
  | .lock => Sys2Proof.Machine.execLock s
  | .certClear => Sys2Proof.Machine.execCertClear s
  | .gnotarReset => Sys2Proof.Machine.execGnotarReset s
  | .memoryRead => Sys2Proof.Machine.execMemoryRead s
  | .fuseGo => Sys2Proof.Machine.execFuseGo s
  | .dev => Sys2Proof.Machine.execDev s
  | .drbgHealthRecovery => Sys2Proof.Machine.execDrbgHealthRecovery s
  | .selfRefreshDone => Sys2Proof.Machine.execSelfRefreshDone s

end Sys2Proof.Machine
end

