-- ==== Sys2Proof/Machine/Tick.lean ====
section
/-!
DEFINITION. What the passing of one tick of the time base does by itself (R31, R33, R34, R42, R45): the counters
advance, a slew absorbs its offset, the lanes send the blocks of their slots, the core rail moves toward its target.
-/

namespace Sys2Proof.Machine
open Sys2Proof

/-- The rail moves 1 mV toward its target of 5 mV steps at each whole µs of power-die time that passed since instant
`was` (R42), with GOV_CTL.EN = 0 too. [DESIGN CHOICE, log 1; DEDUCED, log 26] -/
def Dev.moveRail (d : Dev) (was : Nat) : Dev :=
  let target := 5 * d.f Reg.GOV_STAT_VCORE
  if d.up / 400 = was / 400 then d
  else if d.railNow < target then d.setRailNow (d.railNow + 1)
  else if target < d.railNow then d.setRailNow (d.railNow - 1)
  else d

/-- The time base's rate against power-die time in units of 10^-9: 10^9 (1 + e_trim + e_slew) (R33). [DESIGN CHOICE, log 1] -/
def Dev.tbRate (d : Dev) : Nat :=
  let rem := signed 24 (d.f Reg.TB_SLEW_REM)
  (10 ^ 9 + signed 32 (d.f Reg.TB_TRIM_PPB) + (if rem = 0 then 0 else if 0 < rem then 1 else -1) * (1000 * d.f Reg.TB_SLEW_RATE : Nat)).toNat

/-- Power-die time in one tick of TB_NOW: 10^9 / rate ticks, the whole ones now, the rest kept (R33). [DESIGN CHOICE, log 1] -/
def Dev.upTick (d : Dev) : Dev :=
  let acc := d.upAcc + 10 ^ 9
  (d.setUpAcc (acc % d.tbRate)).setUp (d.up + acc / d.tbRate)

/-- A slew in one tick of TB_NOW: 10^3 RATE / rate ticks of offset are absorbed in the direction of TB_SLEW.REM, and each whole tick
takes one from it (R34). [DESIGN CHOICE, log 1] -/
def Dev.slewTick (d : Dev) : Dev :=
  let rem := signed 24 (d.f Reg.TB_SLEW_REM)
  let sign : Int := if 0 < rem then 1 else -1
  if rem = 0 then d
  else
    let acc := d.slewAcc + sign * (1000 * d.f Reg.TB_SLEW_RATE : Nat)
    if sign * acc < d.tbRate then d.setSlewAcc acc
    else (d.setSlewAcc (acc - sign * d.tbRate)).setF Reg.TB_SLEW_REM (pattern 24 (rem - sign))

/-- One tick: of power-die time while the logic die is held in reset, else of TB_NOW, which runs fast or slow against it
and in whose slots the lanes send. [DESIGN CHOICE, log 1, 25] -/
def Dev.pass (d : Dev) : Dev :=
  if d.sup.held then d.setUp (d.up + 1)
  else
    let d := d.transmit
    (((d.setNow ((d.now + 1) % 2 ^ 64)).upTick).slewTick).moveRail d.up

/-- The block idles: one tick passes. [DESIGN CHOICE, log 1] -/
def State.idle (s : State) : State := { s with dev := s.dev.pass }

end Sys2Proof.Machine
end

