-- ==== Sys2Proof/Safety.lean ====
section
/-!
DEFINITION. What counts as a safe run, in the terms the statements use: the memory keeps its canonical form, nothing is left
over between commands, and a command answers a next state.
-/

namespace Sys2Proof.Machine
open Sys2Proof

/-- The logic die is released from reset (R14). -/
abbrev Live (s : State) : Prop := s.dev.sup.held = false

/-- The invariant of every step: the memory's canonical form, and no memory write or loss left over. -/
def State.Inv (s : State) : Prop := Mem.wf s.dev.ep s.mem ∧ s.dev.wq = [] ∧ s.dev.lost = []

/-- A setup-space write of the register at `a` reaches the register: the logic die is released, and no warm reset, checker, gap,
fence or authority stops it (R5, R6, R28, R29, R213). -/
abbrev Reaches (s : State) (src : Src) (a : Nat) : Prop := Live s ∧ (s.dev.guard src a true).isNone = true

/-- No memory write and no loss of contents is left over. -/
abbrev Clean (s : State) : Prop := s.dev.wq = [] ∧ s.dev.lost = []

/-- An access reaches the target whose checker is `t`: the source is one R307 lists, no stopped core, warm reset, quiesced port or TCM takes it
first, and the checker permits it (R28, R307, R308, R314, R409). -/
abbrev Permitted (s : State) (src : Src) (op : MemOp) (addr t : Nat) : Prop :=
  Live s ∧ s.dev.srcOk src = true ∧ (s.dev.inReset src).isNone = true ∧ s.dev.portOff src = false ∧ tcmKey src addr = none ∧ checkerOf addr = some t ∧
  (s.dev.checked t src op addr).isNone = true

/-- A memory performs a read, a fetch or a write there: an SRAM bank, the tuning window of a vat that is not fenced, the usable DRAM
window, and for reads the boot ROM and the flash window (R28, R351, R355, R357). -/
abbrev Performs (s : State) (op : MemOp) (addr size : Nat) : Prop :=
  s.dev.serves addr = true ∧ op.atomic = false ∧ (inSram addr = true ∨
    (inVatSram addr = true ∧ addr % 0x40000 + size ≤ 0x800 ∧ natural addr size = true ∧
      s.dev.bit (Reg.VAT_STAT_FENCED ((addr - 0x18000000) / 0x40000 % 16)) = false) ∨
    (inVatSram addr = false ∧ (inDram addr = true ∨ op.writes = false)))

/-- The registers outside the event block keep their values. -/
abbrev SameRegs (s t : State) : Prop := ∀ r : RF, r.lo < 32 → (r.addr < 0x20004000 ∨ 0x20004800 ≤ r.addr) → t.dev.f r = s.dev.f r

/-- The command answers a next state with property `P`, the queue as it was. -/
def Answers (i : Instr) (s : State) (P : State → Prop) : Prop :=
  ∃ t : State, exec i s = .next t ∧ t.pending = s.pending ∧ P t

/-- A setup-space write does what `P` says: at once where nothing holds it back, and where a compared pair holds it back, once it is the oldest
transaction of that pair and its comparison has matched (R322). -/
def WriteDoes (s : State) (src : Src) (addr : Nat) (w : Word) (i : Instr) (P : State → Prop) : Prop :=
  (s.dev.holds src addr = false → Answers i s P) ∧
  ∀ (p : Fin 2) (vec : Nat) (shadow : Txn), s.dev.checking p = true → s.dev.testDue p = none →
    (s.dev.pairs[p]).delay = [⟨vec, some (src, addr, w)⟩] → maskVector vec = maskVector (txnVector shadow) →
    Answers (.lockstepCompare p [] (some shadow) false false 0) s P

/-- A write of a compared pair that is held back waits in the pair's delay register, and does nothing more yet (R320, R322). -/
def WaitsForMatch (s : State) (src : Src) (addr : Nat) (w : Word) (i : Instr) : Prop :=
  ∀ p : Fin 2, src.master = (if p = 0 then 4 else 5) → s.dev.holds src addr = true → (s.dev.pairs[p]).delay = [] →
    Answers i s (fun t => (t.dev.pairs[p]).delay = [⟨txnVector (writeTxn src addr w), some (src, addr, w)⟩] ∧
      t.dev.regs = s.dev.regs ∧ t.dev.mad = s.dev.mad ∧ t.dev.cores = s.dev.cores)

/-- Every memory byte reads as before. -/
def SameMem (s t : State) : Prop := ∀ a, Mem.read t.mem t.dev.ep a = Mem.read s.mem s.dev.ep a

/-- The bytes from `a` on read as `bs`, every other byte as before. -/
def Stored (s t : State) (a : Nat) (bs : List Byte) : Prop :=
  Mem.reads t.mem t.dev.ep a bs.length = bs ∧
  ∀ x, x < a ∨ a + bs.length ≤ x → Mem.read t.mem t.dev.ep x = Mem.read s.mem s.dev.ep x

/-- The address lies in no block whose registers have a write of their own or set more going, and no compared pair holds the write back (R322): the
register only takes its fields. -/
def PlainReg (s : State) (src : Src) (a : Nat) (w : Word) : Prop :=
  (s.storeDevice src a w).isNone = true ∧ (s.storeVat src a w).isNone = true ∧ (s.storeNet src a w).isNone = true ∧
  (s.storeCore src a w).isNone = true ∧ isLow a = false ∧ isHigh a = false ∧
  (a < 0x20003100 ∨ (0x20004800 ≤ a ∧ a < 0x20010000) ∨ 0x200B0000 ≤ a) ∧ a ≠ Reg.GOV_PIN_at ∧ s.dev.holds src a = false

/-- A completion of a channel with this TAG and status waits in the slice's completion buffer, ended at `tEnd` (R156, R162). -/
def Completed (t : State) (slice ch tag status tEnd : Nat) : Prop :=
  ∃ c ∈ (t.dev.slices[sl slice]).cmps, c.ch = ch ∧ c.tag = tag ∧ c.status = status ∧ c.tEnd = tEnd

/-- Every channel but channel `k` of vat `v` is as before. -/
def OtherChans (s t : State) (v k : Fin 16) : Prop := ∀ v' k' : Fin 16, (v', k') ≠ (v, k) → t.dev.chan v' k' = s.dev.chan v' k'

/-- What LAST_STOP shows after a stop with this code at instant t: the code, unless a stop higher in R17's list has acted in the same loop
period (R17, R115). -/
def Chan.stopAs (c : Chan) (k : Fin 16) (code t : Nat) : Nat :=
  if c.won.any (fun w => periodOf w.2 k == periodOf t k && decide (w.1 < placeOf code)) then c.lastStop else code

/-- The step at the head of a channel's queue may start at once: no gang, admitted before the channel's tick, past the tests of
R103, no modulator fault, the channel IDLE and armed, nothing that bars arming, no reverse voltage, no closing delay due, no stop,
no orphan, no fence (R103, R109, R110, R112, R116, R128). -/
abbrev CanStart (s : State) (v k : Fin 16) (e : QEntry) : Prop :=
  (s.dev.chan v k).queue = [e] ∧ (s.dev.chan v k).st = .idle ∧ (s.dev.chan v k).run = none ∧ (s.dev.chan v k).orphan = none ∧
  e.d.isGang = false ∧ e.resv.isSome = true ∧ e.d.refusal (s.tuning v e.d.tune) k = none ∧ s.dev.modf v k = false ∧
  s.dev.klatch v k = false ∧ -200000 ≤ (s.dev.chan v k).win.v ∧ s.dev.closeDue v k (s.dev.tick k) = false ∧ s.dev.fenced v = false ∧
  s.dev.armBarred v = false ∧ (s.dev.chan v k).stopReq = [] ∧ e.admAt ≤ s.dev.tick k

/-- The step runs, from the channel's tick on, and the channel is PASSIVE or in SOFT (R109, R111). -/
abbrev Started (s t : State) (v k : Fin 16) (e : QEntry) : Prop :=
  (∃ r, (t.dev.chan v k).run = some r ∧ r.d = e.d ∧ r.t0 = s.dev.tick k) ∧ (t.dev.chan v k).queue = [] ∧
  (t.dev.chan v k).st = (if e.d.passive then .passive else .soft)

/-- The command ring's next descriptor is the words `ws`, fetching runs and the ring's memory is open (R148). -/
abbrev Fetches (s : State) (i : Fin 64) (ws : List Word) : Prop :=
  Live s ∧ s.dev.fetchRuns i = true ∧ s.dev.fetchReach i = .opened ∧ s.ringHolds i ws = true ∧ s.dev.fetchStatus i (Desc.ofWords ws) = none

/-- The descriptor is consumed: the command ring's consumer index moves on by one (R143, R148). -/
abbrev Consumed (s t : State) (i : Fin 64) : Prop :=
  (t.dev.slices[i]).ci[(0 : Fin 8)] = ((s.dev.slices[i]).ci[(0 : Fin 8)] + 1) % 2 ^ 32

/-- Where a slice's address lies: in its host's memory by port and PASID, or in the device's own (R142, R212). -/
def Dev.memKey (d : Dev) (s loc addr : Nat) : Nat := if loc < 2 then hostKey loc (d.f (Reg.SLC_PASID_PASID s)) addr else addr

/-- A doorbell write of a host port is judged: no warm reset, the port ON, the slice ACTIVE and taking doorbells from that port
(R145, R409). -/
abbrev DoorbellReaches (s : State) (port : Fin 2) (i : Fin 64) : Prop :=
  Live s ∧ s.dev.sup.warm = none ∧ s.dev.f (Reg.PWR_QTAG_STATE (36 + port.1)) = 0 ∧ s.dev.f (Reg.SLC_STATE_STATE i.1) = 1 ∧
  s.dev.bit (Reg.SLC_RING_CTL_DBSRC i.1) = false ∧ s.dev.f (Reg.SLC_RING_CFG_LOC i.1 0) = port.1

/-! ### Where commands may write -/

/-- The commands of the power die, which act while the logic die is held in reset (R14, R361, R374, R399). -/
def powerDie : Instr → Bool
  | .inrushEnd _ | .clampEnd _ | .short _ | .overload _ | .ot _ | .retry _ | .retriesReset _ | .openLoad _ | .openLoadClear _
  | .groupWarning _ _ | .groupWarningClear _ _ | .dissipationEstimate _ | .vauxUndervoltage | .vauxRecovery | .auxHoldEnd _
  | .madderCycle _ _ _ _ | .madderSupplyFault _ | .hbLost | .fbFail _ | .testPulse _ | .testPulseEnd _ | .srstPulse _ _
  | .rearmFeedback _ _ | .powerOnReset | .vinRise | .logicDieRelease _ _ | .supplyEvent _ | .supplyShutdown | .supplyReset | .vioBankChange _ _ => true
  | _ => false

/-- The register stands outside the ranges, outside the event block (0x20004000–0x200047FF), outside the reset block
(RST_DROP counts in it, R409) and outside the checkers, which record denials (R29). -/
def Apart (bs : List (Nat × Nat)) (r : RF) : Prop :=
  r.lo < 32 ∧ ∀ b ∈ (0x20002000, 0x20003000) :: (0x20004000, 0x20004800) :: (0x20090000, 0x20098000) :: bs,
    r.addr < b.1 ∨ b.2 ≤ r.addr

/-- The register blocks of the switch core, the cascade, network time and the events, by the commands that write only there
(chapter 25): the switch's with SYS_DEAD, the cascade's, the time base's and PTP's, and the event block alone. -/
def netOwn : Instr → Option (List (Nat × Nat))
  | .frameReceive .. | .fabricRound | .xoffRefresh _ | .pauseReceive .. | .pauseExpiry _ | .ageOut _ | .mcastHoldExpiry _
  | .auditPass .. | .preemptVerify .. | .macRead .. | .macWrite .. | .macLookup .. | .macFlushPort .. | .macFlushAll ..
  | .vlanRead .. | .vlanWrite .. | .cTransmit => some [(0x20050000, 0x20058000)]
  | .portRemoval .. | .portReenable .. | .autoReenable _ => some [(0x20000000, 0x20001000), (0x20050000, 0x20060000)]
  | .portLinkChange .. | .jasiaForward .. => some [(0x20050000, 0x20060000)]
  | .barrierRequest .. | .barrierAccept .. | .barrierRepeat | .beaconReceive .. | .beaconMiss _ | .beaconSend
  | .masterLost => some [(0x20058000, 0x20060000)]
  | .kick .. | .holdoverEntry | .holdoverExpiry | .comparatorArm .. | .comparatorFire _ | .pulseEnd _ | .capture .. | .capturePop ..
  | .offsetCorrection .. | .tbLock | .slewEnd => some [(0x20003000, 0x20004000), (0x20060000, 0x20070000)]
  | .routeWrite .. | .enableWrite .. | .softwareEvent .. | .logSelect .. | .logCiWrite .. => some []
  | _ => none

/-- The register blocks of the other units, by the commands that write only there: the CAN controllers', the cores', power's,
Mordant's, the auxiliary switches' and Madder's, the DRAM controller's. A word that is no GATE but GRET is left out. -/
def unitOwn : Instr → Option (List (Nat × Nat))
  | .busIntegration _ | .canError .. | .recovered _ | .canRestart .. | .txgo .. | .txabort .. | .canFifoCiWrite .. =>
      some [(0x20070000, 0x20080000)]
  | .gate _ w _ => if gateWord w = .gret then none else some [(0x20098000, 0x200A0000)]
  | .secureInterrupt .. => some [(0x20098000, 0x200A0000)]
  | .governorWindow _ | .junction120 _ | .clr .. | .quiesce .. | .qreqResume .. | .retain .. | .off .. | .vinRise
  | .vinWarning _ | .vinWarningClear _ => some [(0x20001000, 0x20002000)]
  | .claim .. | .derive .. | .invalidate .. | .gcmEnc .. | .gcmDec .. | .hmac .. | .sign .. | .pubkey .. | .chainKey .. | .random ..
  | .exportKey .. | .slotRelease _ | .remaskPass | .drbgFailure | .drbgHealthRecovery | .lcRequest .. => some [(0x20080000, 0x20090000)]
  | .auxOnRequest .. | .auxOffRequest .. | .auxClr .. | .inrushEnd _ | .clampEnd _ | .short _ | .overload _ | .ot _ | .retry _
  | .retriesReset _ | .openLoad _ | .openLoadClear _ | .groupWarning .. | .groupWarningClear .. | .dissipationEstimate _
  | .vauxRecovery | .auxHoldEnd _ => some [(0x200B0000, 0x200C0000)]
  | .madderCycle .. | .madderSupplyFault _ | .hbLost | .fbFail _ | .testPulse _ | .testPulseEnd _ | .srstPulse .. | .rearmFeedback ..
  | .heartbeat .. | .safetyRequest .. | .cfgCommit .. => some [(0x200B0000, 0x200D0000)]
  | .vauxUndervoltage => some [(0x20001000, 0x20002000), (0x200B0000, 0x200C0000)]
  | .scrubPass .. => some [(0x200D0000, 0x200E0000)]
  | .svnRequest .. | .narrowAccess .. | .unmappedAccess .. => some []
  | _ => none

/-- The vat whose registers and engines a command of one vat's lane or measurement path writes, and no other's. -/
def vatOwn : Instr → Option (Fin 16)
  | .modfClear v _ _ | .divergenceCheck v | .fenceDone v | .ledgerClose v | .calCommit _ v _ | .calCommitApply v | .ldgSnap _ v _
  | .fastSample v _ | .sinc4Output v _ _ | .rateChange v _ | .impStart _ v _ | .impStop _ v _ | .trnBlock v _ | .laneEnable _ v _
  | .laneDisable _ v _ | .retrain _ v _ | .trainingTimeout v | .trainingRetry v | .bregRead _ v _ | .bregWrite _ v _ | .cfgSend v
  | .cfgTimeout v | .killEmit v | .killRepeat v => some v
  | _ => none

end Sys2Proof.Machine
end

