-- ==== Sys2Proof/Certificates/Slice0/Obligations.lean ====
section
/-!
DEFINITION. The statements for the provers: what the commands do, by the numbered rules of the spec, what they leave
unchanged, and what every step keeps.
-/

open Sys2Proof Sys2Proof.Machine

/-- A step is exec of the front command; on an empty queue one tick passes (the model's own form, log entry 1). -/
def Obligations.StepRunsTheFrontCommand : Prop :=
  (∀ (s : State) (c : Instr) (rest : List Instr),
    step { s with pending := c :: rest } = exec c { s with pending := rest }) ∧
  (∀ s : State, s.pending = [] → ∃ t : State, step s = .next t ∧ t.pending = [] ∧ t.mem = s.mem ∧
    (s.dev.sup.held = true → t.dev = s.dev.setUp (s.dev.up + 1)) ∧
    (Live s → t.dev.now = (s.dev.now + 1) % 2 ^ 64 ∧
      ((∀ v : Fin 16, s.dev.laneState v = laneOff) → t.dev.out = s.dev.out ∧ t.dev.vats = s.dev.vats) ∧
      (s.dev.f Reg.TB_SLEW_REM = 0 → s.dev.f Reg.TB_TRIM_PPB = 0 → s.dev.upAcc = 0 → t.dev.up = s.dev.up + 1 ∧ t.dev.upAcc = 0) ∧
      ∀ rate : Nat, s.dev.f Reg.TB_SLEW_REM = 0 → (rate : Int) = 10 ^ 9 + signed 32 (s.dev.f Reg.TB_TRIM_PPB) → 0 < rate →
        t.dev.upAcc < rate ∧ (t.dev.up - s.dev.up) * rate + t.dev.upAcc = s.dev.upAcc + 10 ^ 9 ∧ s.dev.up ≤ t.dev.up))

/-- No command stops the machine; a held logic die does nothing (R14). -/
def Obligations.EveryCommandAnswers : Prop :=
  (∀ (i : Instr) (s : State), ∃ t : State, exec i s = .next t ∧ t.pending = s.pending) ∧
  (∀ (i : Instr) (s : State), s.dev.sup.held = true → powerDie i = false → exec i s = .next s)

/-- The state right after power-on reset (R8, R399, R404, R407). -/
def Obligations.ResetStateIsTheSpecs : Prop :=
  State.reset.Inv ∧ State.reset.pending = [] ∧ State.reset.mem = [] ∧ State.reset.dev.sup.held = true ∧
  (∀ r : RF, State.reset.dev.f r = r.dflt) ∧ State.reset.dev.f (Reg.SLC_STATE_STATE 0) = 1 ∧
  (∀ i : Fin 64, i ≠ 0 → State.reset.dev.f (Reg.SLC_STATE_STATE i.1) = 0) ∧
  (∀ v : Fin 16, State.reset.dev.f (Reg.VAT_BAL_CFG_PH_OFS v.1) = 16 * v.1 ∧ State.reset.dev.laneState v = laneOff ∧
    State.reset.dev.fenced v = false ∧ State.reset.dev.allIdle v = true ∧
    ∀ k : Fin 16, (State.reset.dev.chan v k).queue = [] ∧ (State.reset.dev.chan v k).run = none ∧ (State.reset.dev.chan v k).owner = none) ∧
  State.reset.dev.now = 0 ∧ State.reset.dev.bit Reg.TB_STAT_LOADED = false ∧
  (∀ a, inSram a = true → Mem.read State.reset.mem State.reset.dev.ep a = 0)

/-- Every step keeps the invariant. -/
def Obligations.EveryStepKeepsTheInvariant : Prop :=
  ∀ s : State, s.Inv → ∃ t : State, step s = .next t ∧ t.Inv

/-- A narrow access and an access to nothing (R5, R28, R436); a denied access (R29, R308). Where it rests on choices or readings of the model: log entries 15 and 18. -/
def Obligations.AccessesThatAreNotPerformed : Prop :=
  ((∀ (s : State) (src : Src) (addr : Nat) (write : Bool), Clean s → inSetup addr = true →
    Live s → s.dev.srcOk src = true → (s.dev.inReset src).isNone = true → s.dev.portOff src = false →
    (s.dev.checked 14 src (if write then .write else .read) addr).isNone = true →
    Answers (.narrowAccess src addr write) s (fun t => t.dev.resp = ⟨0, true⟩ ∧ t.mem = s.mem ∧ SameRegs s t ∧
      t.dev.evlog.head? = some ⟨0x01, 79, accInfo src write 0, addr - 0x20000000, s.dev.now⟩)) ∧
  (∀ (s : State) (src : Src) (addr : Nat) (write : Bool), Clean s → s.dev.unmapped src write addr = true →
    Live s → s.dev.srcOk src = true → (s.dev.inReset src).isNone = true → s.dev.portOff src = false →
    (∀ t ∈ checkerOf addr, (s.dev.checked t src (if write then .write else .read) addr).isNone = true) →
    Answers (.unmappedAccess src addr write) s (fun t => t.dev.resp = ⟨0, true⟩ ∧ t.mem = s.mem ∧ SameRegs s t ∧
      t.dev.evlog.head? = some ⟨0x01, 79, accInfo src write 0, if inSetup addr then addr - 0x20000000 else page addr, s.dev.now⟩))) ∧
  (∀ (s : State) (src : Src) (kind : AccessKind) (addr size data t : Nat) (ecc : Ecc), Live s → Clean s →
    s.dev.srcOk src = true → (s.dev.inReset src).isNone = true → s.dev.portOff src = false → tcmKey src addr = none → checkerOf addr = some t →
    bypasses src = false → s.dev.permits t src kind addr = false →
    Answers (.checkedAccess src kind addr size data ecc) s (fun u => u.dev.resp = ⟨0, true⟩ ∧ u.mem = s.mem ∧
      u.dev.f (Reg.RC_DENY_COUNT t) = min (2 ^ 32 - 1) (s.dev.f (Reg.RC_DENY_COUNT t) + 1) ∧
      u.dev.f (Reg.RC_LAST_ADDR_PAGE t) = page addr ∧ u.dev.f (Reg.RC_LAST_SRC_MASTER t) = src.master.1 ∧
      u.dev.bit (Reg.RC_LAST_SRC_SECURE t) = src.secure ∧ u.dev.bit (Reg.RC_LAST_SRC_WRITE t) = (kind == .write) ∧
      u.dev.bit (Reg.RC_LAST_SRC_EXEC t) = (kind == .exec) ∧ u.dev.f (Reg.RC_LAST_SRC_SLICE t) = src.slice.1 ∧
      u.dev.evlog.head? = some ⟨0x02, 67, accInfo src (kind == .write) t, page addr, s.dev.now⟩ ∧
      (∀ r : RF, r.lo < 32 → (r.addr < 0x20004000 ∨ (0x20004800 ≤ r.addr ∧ r.addr < 0x20090000) ∨ 0x20094400 ≤ r.addr) →
        u.dev.f r = s.dev.f r)))

/-- Accesses to memory (R11, R308, R351, R353, R357). Where it rests on choices or readings of the model: log entry 4. -/
def Obligations.MemoryAccessesReadAndWrite : Prop :=
  (∀ (s : State) (src : Src) (kind : AccessKind) (addr size data t : Nat), Clean s → kind ≠ .write →
    Permitted s src (opOf kind) addr t → t ≠ 14 → Performs s (opOf kind) addr size →
    Answers (.checkedAccess src kind addr size data .ok) s (fun u => u.dev.resp = ⟨s.memWord addr size, false⟩ ∧ u.mem = s.mem ∧ SameRegs s u)) ∧
  (∀ (s : State) (src : Src) (addr size data t : Nat), Clean s → Permitted s src .write addr t → t ≠ 14 →
    Performs s .write addr size →
    Answers (.checkedAccess src .write addr size data .ok) s (fun u => u.dev.resp = ⟨0, false⟩ ∧ Stored s u addr (leBytes size data) ∧
      SameRegs s u)) ∧
  (∀ (s : State) (src : Src) (addr size data t : Nat), Clean s → Permitted s src .add addr t → s.dev.serves addr = true →
    inSram addr = true → (size = 4 ∨ size = 8) → addr % size = 0 →
    Answers (.atomicAdd src addr size data .ok) s (fun u => u.dev.resp = ⟨s.memWord addr size, false⟩ ∧
      Stored s u addr (leBytes size (s.memWord addr size + data)) ∧ SameRegs s u)) ∧
  (∀ (s : State) (src : Src) (addr size data t : Nat), Clean s → Permitted s src .swap addr t → s.dev.serves addr = true →
    inSram addr = true → (size = 4 ∨ size = 8) → addr % size = 0 →
    Answers (.atomicSwap src addr size data .ok) s (fun u => u.dev.resp = ⟨s.memWord addr size, false⟩ ∧
      Stored s u addr (leBytes size data) ∧ SameRegs s u))

/-- Writing a register by type (R6, R7, R9); 64-bit pairs (R10). Where it rests on choices or readings of the model: log entries 12, 13, 19, 20 and 21. -/
def Obligations.RegisterWritesByTypeAndInPairs : Prop :=
  ((∀ (d : Dev) (src : Src) (a w : Nat) (row : RegRow) (f : FieldRow), Reg.row a = some row → f ∈ row.fields →
    (a < 0x20004000 ∨ 0x20004800 ≤ a) →
    (d.writeRowWith src a w (fun _ => .act)).f (f.sel row.base a) =
      (match f.ty with
       | .rw => if f.admits (bits w f.lo f.w) then bits w f.lo f.w else d.f (f.sel row.base a)
       | .ro | .wo => d.f (f.sel row.base a)
       | .w1c => (d.f (f.sel row.base a) - (d.f (f.sel row.base a) &&& bits w f.lo f.w) |||
           d.f (f.sel row.base a) &&& d.freshMask (f.sel row.base a)) % 2 ^ f.w
       | .w1s => (d.f (f.sel row.base a) ||| bits w f.lo f.w) % 2 ^ f.w)) ∧
  (∀ (s : State) (src : Src) (a : Nat) (w : Word) (row : RegRow) (f : FieldRow), Reaches s src a → inSetup a = true →
    PlainReg s src a w → Reg.row a = some row → f ∈ row.fields → f.ty = .rw → f.admits (bits w.toNat f.lo f.w) = true →
    (∀ g ∈ row.fields, s.dev.verdict a w.toNat g = .act) →
    Answers (.registerWrite src a w) s (fun t => t.dev.f (f.sel row.base a) = bits w.toNat f.lo f.w ∧ t.dev.resp = ⟨0, false⟩))) ∧
  ((∀ (s : State) (src : Src) (a : Nat), Live s → (s.dev.guard src a false).isNone = true → isLow a = true →
    let d : Dev := if 0x2009C020 ≤ a ∧ a < 0x2009D800 then s.dev.tally else s.dev
    Answers (.pairLowRead src a) s (fun t => t.dev.resp = ⟨(d.regWord src a).1, false⟩ ∧
      pairFind t.dev.capHigh src.master.1 a = some ((d.regWord src a).2.regWord src (a + 4)).1)) ∧
  (∀ (s : State) (src : Src), Live s → (s.dev.guard src Reg.TB_NOW_LO_at false).isNone = true →
    Answers (.pairLowRead src Reg.TB_NOW_LO_at) s (fun t => t.dev.resp = ⟨s.dev.now % 2 ^ 32, false⟩ ∧
      pairFind t.dev.capHigh src.master.1 Reg.TB_NOW_LO_at = some (s.dev.now / 2 ^ 32 % 2 ^ 32) ∧ SameRegs s t)) ∧
  (∀ (s : State) (src : Src) (w : Word) (lo : Nat), Reaches s src Reg.DPL_BASE_HI_at → s.dev.bit Reg.DPL_CFG_EN = false →
    s.dev.heldFor src Reg.DPL_BASE_LO_at = some lo → lo < 2 ^ 32 → lo % 64 = 0 →
    Answers (.pairHighWrite src Reg.DPL_BASE_HI_at w) s (fun t => t.dev.f Reg.DPL_BASE_LO_ADDR = lo ∧
      t.dev.f Reg.DPL_BASE_HI_ADDR = w.toNat ∧ t.dev.heldFor src Reg.DPL_BASE_LO_at = none ∧ t.dev.resp = ⟨0, false⟩)))

/-- Time base (R30, R34, R35, R36): what its commands do; lATE faults and the slack governor (R39–R43, R445): what their commands do. Where it rests on choices or readings of the model: log entries 26, 27 and 28. -/
def Obligations.TimeBaseAndGovernor : Prop :=
  ((∀ s : State, Live s → s.dev.bit Reg.TB_STAT_HOLD = false →
    Answers .tbLock s (fun t => t.dev.bit Reg.TB_STAT_LOCK = true ∧ t.dev.bit Reg.TB_STAT_HOLD = false ∧
      t.dev.bit Reg.TB_STAT_LINE = (s.dev.bit Reg.PTP_SERVO_LOCKED && !s.dev.ptp.expired) ∧ t.dev.now = s.dev.now)) ∧
  (∀ s : State, Live s → s.dev.bit Reg.TB_STAT_HOLD = true →
    Answers .tbLock s (fun t => t.dev.bit Reg.TB_STAT_HOLD = true ∧ t.dev.bit Reg.TB_STAT_LOCK = s.dev.bit Reg.TB_STAT_LOCK ∧
      t.dev.relock = true)) ∧
  (∀ s : State, Live s → Answers .lossOfReference s (fun t => t.dev.bit Reg.TB_STAT_LOCK = false ∧
    t.dev.bit Reg.TB_STAT_HOLD = true ∧ t.dev.bit Reg.TB_STAT_LINE = false ∧ t.dev.mad.req.isSome = true ∧ t.dev.now = s.dev.now)) ∧
  (∀ (s : State) (src : Src) (w : Word), Reaches s src Reg.TB_ADJ_at →
    (signed 32 w.toNat).natAbs ≤ s.dev.f Reg.PTP_JUMP_LIMIT → -(2 ^ 23) ≤ s.dev.slewRem + signed 32 w.toNat →
    s.dev.slewRem + signed 32 w.toNat < 2 ^ 23 →
    Answers (.offsetCorrection src w) s (fun t => t.dev.slewRem = s.dev.slewRem + signed 32 w.toNat ∧
      t.dev.bit Reg.TB_STAT_SLEW = (s.dev.slewRem + signed 32 w.toNat != 0) ∧ t.dev.now = s.dev.now ∧ t.dev.resp = ⟨0, false⟩)) ∧
  (∀ s : State, Live s → s.dev.f Reg.TB_SLEW_REM = 0 →
    Answers .slewEnd s (fun t => t.dev.bit Reg.TB_STAT_SLEW = false ∧ t.dev.now = s.dev.now)) ∧
  (∀ (s : State) (src : Src) (w : Word), Reaches s src Reg.TB_LOAD_HI_at → s.dev.bit Reg.TB_STAT_LOADED = false →
    s.dev.everyIdle = true →
    Answers (.tbLoad src w) s (fun t => t.dev.now = (s.dev.heldFor src Reg.TB_LOAD_LO_at).getD 0 + 2 ^ 32 * w.toNat ∧
      t.dev.bit Reg.TB_STAT_LOADED = true))) ∧
  ((∀ (s : State) (u : Fin 8) (v k : Fin 16), Live s → Answers (.lateFault u v k) s (fun t =>
    t.dev.f (Reg.GOV_LATE_COUNT u.1) = min (2 ^ 32 - 1) (s.dev.f (Reg.GOV_LATE_COUNT u.1) + 1) ∧
    (u = 1 → t.dev.f (Reg.GOV_LATE_COUNT 2) = min (2 ^ 32 - 1) (s.dev.f (Reg.GOV_LATE_COUNT 2) + 1)))) ∧
  (∀ (s : State) (x : Int) (xs : List Int), Live s → s.dev.bit Reg.GOV_CTL_EN = true → s.dev.bit Reg.GOV_CTL_PIN = false →
    xs.length < 8 → xs.foldl min x < 0 →
    Answers (.governorWindow (x :: xs)) s (fun t => t.dev.f Reg.GOV_STAT_MIN_SLACK = pattern 16 (satS 16 (xs.foldl min x)) ∧
      t.dev.f Reg.GOV_STAT_VCORE = min 50 (max s.dev.railFloor (max (s.dev.f Reg.GOV_STAT_VCORE) ((s.dev.railNow + 4) / 5) + 2)))) ∧
  (∀ s : State, Live s → s.dev.bit Reg.GOV_CTL_PIN = false → s.dev.f Reg.GOV_STAT_VCORE < 20 →
    Answers (.junction120 true) s (fun t => t.dev.hot = true ∧ t.dev.f Reg.GOV_STAT_VCORE = 20)) ∧
  (∀ s : State, Live s → s.dev.bit Reg.GOV_CTL_PIN = true → Answers .pinReached s (fun t =>
    t.dev.bit Reg.GOV_STAT_PINNED = (s.dev.railNow == 5 * s.dev.f Reg.GOV_PIN_V) ∧
    t.dev.f Reg.GOV_STAT_VCORE = s.dev.f Reg.GOV_PIN_V % 64)) ∧
  (∀ (s : State) (src : Src) (w : Word), Reaches s src Reg.GOV_CTL_at → s.dev.bit Reg.SLICE_MODE_STRICT = false →
    Answers (.govCtlWrite src w) s (fun t => t.dev.f Reg.GOV_CTL_EN = bits w.toNat 0 1 ∧ t.dev.f Reg.GOV_CTL_PIN = bits w.toNat 1 1 ∧
      (1 ≤ bits w.toNat 8 8 → bits w.toNat 8 8 ≤ 100 → t.dev.f Reg.GOV_CTL_WIN = bits w.toNat 8 8))) ∧
  (∀ (s : State) (src : Src) (w : Word), Reaches s src Reg.GOV_SLACK_CLR_at → w.toNat.testBit 0 = true →
    Answers (.clr src w) s (fun t => ∀ u < 8, t.dev.f (Reg.GOV_SLACK_MIN u) = 0x7FFF)))

/-- Upstream blocks (R48, R52, R55, R56, R70, R75, R76, R79); the trip comparator (R79, R91, R92). Where it rests on choices or readings of the model: log entries 29, 33 and 124. -/
def Obligations.UpstreamBlocksAreTakenAndTrip : Prop :=
  ((∀ (s : State) (v : Fin 16) (payload frac : Nat), Live s → s.dev.framesUp v = true → (∀ k, s.dev.tripArmed v k = false) →
    Answers (.iBlock v hdrData payload frac) s (fun t =>
      (t.dev.lane v).grp = (s.dev.lane v).grp ++ [payload % 2 ^ 64] ∧
      (t.dev.lane v).prevI = (List.range 16).map (wordOf payload) ∧ (t.dev.lane v).lastIAt = s.dev.sampleAt v frac)) ∧
  (∀ (s : State) (v : Fin 16) (payload : Nat), Live s → s.dev.framesUp v = true →
    Answers (.vBlock v hdrData payload) s (fun t =>
      (t.dev.lane v).grp = (s.dev.lane v).grp ++ [payload % 2 ^ 64] ∧
      (t.dev.lane v).prevV = (List.range 16).map (wordOf payload) ∧ (t.dev.lane v).lastVAt = (s.dev.lane v).lastIAt)) ∧
  (∀ (s : State) (v : Fin 16) (payload frac : Nat), Live s → s.dev.framesUp v = true → blockType payload = 0x66 →
    content payload % 256 = 0x10 →
    Answers (.auxReport v hdrCtl payload frac) s (fun t =>
      t.dev.f (Reg.VAT_VBUS_VBUS v.1) = bits (content payload / 256) 0 16 * 1000)) ∧
  (∀ (s : State) (v k : Fin 16) (payload frac : Nat), Live s → s.dev.framesUp v = true → blockType payload = 0x66 →
    content payload % 256 = k.1 → k.1 < s.dev.populated v →
    Answers (.auxReport v hdrCtl payload frac) s (fun t => t.dev.klatch v k = (content payload / 256).testBit 0)) ∧
  (∀ (s : State) (v : Fin 16) (payload : Nat), Live s → s.dev.laneState v ≠ laneOff → blockType payload = 0x96 →
    (s.dev.lane v).grpBad = false → (s.dev.lane v).grp.length = 7 →
    groupCrc (s.dev.lane v).grp = bits (content payload) 0 32 →
    Answers (.groupCheck v hdrCtl payload) s (fun t => (t.dev.lane v).grp = [] ∧ (t.dev.lane v).words = [] ∧
      (t.dev.lane v).chkOk = (s.dev.lane v).chkOk + 1 ∧ (t.dev.lane v).failRun = 0 ∧ (t.dev.lane v).lastGood = s.dev.now)) ∧
  (∀ (s : State) (v : Fin 16) (n : Nat), Live s → s.dev.laneState v = laneActive → s.dev.bit (Reg.LANE_STAT_UP_LOCK v.1) = true →
    s.dev.fenced v = false → 16 ≤ n →
    Answers (.blockLockLoss v n) s (fun t => t.dev.bit (Reg.LANE_STAT_UP_LOCK v.1) = false ∧ t.dev.fenced v = true)) ∧
  (∀ (s : State) (v k : Fin 16) (cur : Bool), Live s →
    (if cur then ((s.dev.vats[v]).guards[k]).repModfI else ((s.dev.vats[v]).guards[k]).repModfV) = false →
    400 * ((if cur then ((s.dev.vats[v]).guards[k]).badI else ((s.dev.vats[v]).guards[k]).badV) / 400 + 2) ≤ s.dev.now →
    Answers (.modfClear v k cur) s (fun t => t.dev.tb (if cur then Reg.VAT_MODF_I v.1 else Reg.VAT_MODF_V v.1) k.1 = false ∧
      ∀ j : Fin 16, j ≠ k → t.dev.tb (if cur then Reg.VAT_MODF_I v.1 else Reg.VAT_MODF_V v.1) j.1 =
        s.dev.tb (if cur then Reg.VAT_MODF_I v.1 else Reg.VAT_MODF_V v.1) j.1))) ∧
  (∀ (s : State) (v k : Fin 16) (payload frac : Nat), Live s → s.dev.framesUp v = true → k.1 < s.dev.populated v →
    s.dev.tripArmed v k = true → wordOf payload k.1 = -8 → (s.dev.chan v k).st ≠ .fenced →
    Answers (.iBlock v hdrData payload frac) s (fun t => (t.dev.chan v k).st = .killed ∧ (t.dev.chan v k).lastStop = (s.dev.chan v k).stopAs k 12 s.dev.now ∧
      t.dev.tb (Reg.VAT_MODF_I v.1) k.1 = true))

/-- Training (R57, R72, R74, R77). Where it rests on choices or readings of the model: log entries 30 and 125. -/
def Obligations.LaneTrainingMovesOn : Prop :=
  (∀ (s : State) (src : Src) (v : Fin 16) (w : Word), Reaches s src (Reg.LANE_CTL_at v.1) → w.toNat.testBit 0 = true →
    w.toNat.testBit 1 = false → s.dev.bit (Reg.LANE_CTL_EN v.1) = false →
    Answers (.laneEnable src v w) s (fun t => t.dev.laneState v = laneLock ∧ t.dev.bit (Reg.LANE_CTL_EN v.1) = true ∧
      (t.dev.lane v).retries = 0 ∧ (t.dev.lane v).lockAt = s.dev.now ∧ t.dev.f (Reg.VAT_VBUS_VBUS v.1) = 0)) ∧
  (∀ (s : State) (src : Src) (v : Fin 16) (w : Word), Reaches s src (Reg.LANE_CTL_at v.1) → w.toNat.testBit 0 = false →
    s.dev.bit (Reg.LANE_CTL_EN v.1) = true → s.dev.allIdle v = true →
    Answers (.laneDisable src v w) s (fun t => t.dev.laneState v = laneOff ∧ t.dev.bit (Reg.LANE_CTL_EN v.1) = false ∧
      t.dev.bit (Reg.VAT_STAT_IN_SERVICE v.1) = false)) ∧
  (∀ (s : State) (src : Src) (v : Fin 16) (w : Word), Reaches s src (Reg.LANE_CTL_at v.1) → w.toNat.testBit 0 = true →
    w.toNat.testBit 1 = true → s.dev.bit (Reg.LANE_CTL_EN v.1) = true → s.dev.allIdle v = true →
    Answers (.retrain src v w) s (fun t => t.dev.laneState v = laneLock ∧ (t.dev.lane v).retries = 0)) ∧
  (∀ (s : State) (v : Fin 16) (payload : Nat), Live s → s.dev.laneState v = laneLock → blockType payload = 0xC3 →
    Answers (.trnBlock v payload) s (fun t =>
      t.dev.bit (Reg.LANE_STAT_BRD_LOCK v.1) = decide (bits (content payload) 0 4 = 1) ∧
      (t.dev.lane v).grp = (s.dev.lane v).grp ++ [payload % 2 ^ 64])) ∧
  (∀ (s : State) (v : Fin 16) (rtt : List Nat), Live s → s.dev.laneState v = laneLock → (s.dev.lane v).blockLock = true → 2 ≤ (s.dev.lane v).chkOk →
    s.dev.bit (Reg.LANE_STAT_BRD_LOCK v.1) = true →
    Answers (.trainingAdvance v rtt) s (fun t => t.dev.laneState v = laneDesc ∧ t.dev.bit (Reg.LANE_STAT_UP_LOCK v.1) = true)) ∧
  (∀ (s : State) (v : Fin 16) (rtt : List Nat), Live s → s.dev.laneState v = laneDesc → descFull (s.dev.lane v).descSeen = true →
    Answers (.trainingAdvance v rtt) s (fun t => t.dev.laneState v = laneAlign ∧
      ∀ i < 8, t.dev.desc v i = descWord (s.dev.lane v).descSeen i % 2 ^ 32)) ∧
  (∀ (s : State) (v : Fin 16) (rtt : List Nat), Live s → s.dev.laneState v = laneAlign → 64 ≤ rtt.length →
    rtt.foldl max 0 - rtt.foldl min (rtt.foldl max 0) ≤ 2 → bits (s.dev.desc v 4) 0 16 ≤ 160 →
    bits (s.dev.desc v 4) 16 16 + (rtt.getLastD 0 - bits (s.dev.desc v 4) 0 16 - bits (s.dev.desc v 4) 16 16) / 2 ≤ 640 →
    Answers (.trainingAdvance v rtt) s (fun t => t.dev.laneState v = laneCheck ∧ (t.dev.lane v).chkOk = 0 ∧
      t.dev.f (Reg.LANE_DLY_RTT v.1) = rtt.getLastD 0 % 2 ^ 16)) ∧
  (∀ (s : State) (v : Fin 16) (rtt : List Nat), Live s → s.dev.laneState v = laneCheck → 10000 ≤ (s.dev.lane v).chkOk →
    s.dev.f (Reg.LANE_STAT_KLATCH v.1) &&& s.dev.popMask v = s.dev.popMask v →
    Answers (.trainingAdvance v rtt) s (fun t => t.dev.laneState v = laneActive ∧ t.dev.fenced v = false ∧
      t.dev.bit (Reg.VAT_STAT_IN_SERVICE v.1) = true)) ∧
  (∀ (s : State) (v : Fin 16), Live s → s.dev.training v = true →
    (s.dev.lane v).lockAt + 400000 * s.dev.f (Reg.LANE_CTL_TRN_TO v.1) ≤ s.dev.now →
    Answers (.trainingTimeout v) s (fun t => t.dev.laneState v = laneOff ∧
      t.dev.f (Reg.LANE_STAT_TRN_FAIL v.1) = (if s.dev.laneState v = laneLock then 1 else 7) ∧
      (if (s.dev.lane v).retries < s.dev.f (Reg.LANE_CTL_TRN_RETRY v.1) then (t.dev.lane v).restAt = some s.dev.now
       else (t.dev.lane v).restAt = none ∧ t.dev.tb (Reg.LANE_EVT_TRN_FAIL v.1) 0 = true))) ∧
  (∀ (s : State) (v : Fin 16) (t0 : Nat), Live s → (s.dev.lane v).restAt = some t0 → s.dev.laneState v = laneOff →
    s.dev.bit (Reg.LANE_CTL_EN v.1) = true → t0 + 4000000 ≤ s.dev.now →
    Answers (.trainingRetry v) s (fun t => t.dev.laneState v = laneLock ∧ (t.dev.lane v).retries = (s.dev.lane v).retries + 1 ∧
      (t.dev.lane v).restAt = none))

/-- CFG and KILL blocks, CHK and repeated CMD (R51, R58, R60–R67, R70, R71, R76, R98). Where it rests on choices or readings of the model: log entry 124. -/
def Obligations.LaneDownstreamTraffic : Prop :=
  (∀ (s : State) (src : Src) (v : Fin 16) (w : Word), Reaches s src (Reg.LANE_BREG_CTL_at v.1) → w.toNat.testBit 9 = true →
    w.toNat.testBit 8 = false → s.dev.bit (Reg.LANE_BREG_CTL_BUSY v.1) = false → s.dev.laneState v = laneActive →
    Answers (.bregRead src v w) s (fun t => t.dev.bit (Reg.LANE_BREG_CTL_BUSY v.1) = true ∧
      (t.dev.lane v).cfgQ = (s.dev.lane v).cfgQ ++ [{ op := 2, addr := bits w.toNat 0 8, data := s.dev.f (Reg.LANE_BREG_DATA_DATA v.1) }])) ∧
  (∀ (s : State) (src : Src) (v : Fin 16) (w : Word), Reaches s src (Reg.LANE_BREG_CTL_at v.1) → w.toNat.testBit 9 = true →
    w.toNat.testBit 8 = true → s.dev.bit (Reg.LANE_BREG_CTL_BUSY v.1) = false → s.dev.laneState v = laneActive →
    Answers (.bregWrite src v w) s (fun t => t.dev.bit (Reg.LANE_BREG_CTL_BUSY v.1) = true ∧
      (t.dev.lane v).cfgQ = (s.dev.lane v).cfgQ ++ [{ op := 1, addr := bits w.toNat 0 8, data := s.dev.f (Reg.LANE_BREG_DATA_DATA v.1) }])) ∧
  (∀ (s : State) (v : Fin 16) (n m : Nat) (q : CfgReq) (rest : List CfgReq), Live s → s.dev.slotNow = some (n, m) →
    (s.dev.lane v).cfgQ = q :: rest → s.dev.laneState v = laneActive → cfgSlot n = true → (s.dev.lane v).cfgOut = none →
    (s.dev.lane v).claim = none → s.dev.dueKills v = [] → s.dev.dueRepeat v = none → q.op ≠ 3 →
    Answers (.cfgSend v) s (fun t => (t.dev.lane v).cfgQ = rest ∧
      (t.dev.lane v).cfgOut = some { q with tag := ((s.dev.lane v).tag + 1) % 256, sentAt := some s.dev.now } ∧
      t.dev.out = .cfg v.1 q.op (((s.dev.lane v).tag + 1) % 256) q.addr q.data :: s.dev.out)) ∧
  (∀ (s : State) (v : Fin 16) (q : CfgReq) (t0 : Nat), Live s → (s.dev.lane v).cfgOut = some q → q.sentAt = some t0 →
    t0 + 1600 ≤ s.dev.now → q.tries < 3 →
    Answers (.cfgTimeout v) s (fun t => (t.dev.lane v).cfgOut = none ∧
      (t.dev.lane v).cfgQ = { q with tries := q.tries + 1, sentAt := none } :: (s.dev.lane v).cfgQ)) ∧
  (∀ (s : State) (v : Fin 16) (q : CfgReq) (t0 : Nat), Live s → (s.dev.lane v).cfgOut = some q → q.sentAt = some t0 →
    t0 + 1600 ≤ s.dev.now → 3 ≤ q.tries → q.op ≠ 3 →
    Answers (.cfgTimeout v) s (fun t => (t.dev.lane v).cfgOut = none ∧ t.dev.bit (Reg.LANE_BREG_CTL_BUSY v.1) = false ∧
      t.dev.f (Reg.LANE_BREG_CTL_RESULT v.1) = 2 ∧ t.dev.tb (Reg.LANE_EVT_CFG_TIMEOUT v.1) 0 = true)) ∧
  (∀ (s : State) (src : Src) (v k : Fin 16) (w : Word), Reaches s src (Reg.LANE_KILL_at v.1) → s.dev.laneState v = laneActive →
    w.toNat.testBit k.1 = true → (s.dev.chan v k).st ≠ .fenced →
    Answers (.firmwareKill src v w) s (fun t => (t.dev.chan v k).st = .killed ∧ (t.dev.chan v k).lastStop = (s.dev.chan v k).stopAs k 16 s.dev.now)) ∧
  (∀ (s : State) (v : Fin 16) (n m : Nat), Live s → s.dev.slotNow = some (n, m) → s.dev.dueKills v ≠ [] → s.dev.killable v = true →
    (s.dev.lane v).claim = none → s.dev.f (Reg.LANE_KILL_CNT_COUNT v.1) < 2 ^ 32 - 1 →
    Answers (.killEmit v) s (fun t => t.dev.f (Reg.LANE_KILL_CNT_COUNT v.1) = s.dev.f (Reg.LANE_KILL_CNT_COUNT v.1) + 1 ∧
      (t.dev.lane v).kseq = ((s.dev.lane v).kseq + 1) % 256 ∧ t.dev.dueKills v = [] ∧
      ∃ cause, t.dev.out = .kill v.1 ((s.dev.dueKills v).foldl (fun m r => m ||| r.mask) 0)
        (0xFFFF - (s.dev.dueKills v).foldl (fun m r => m ||| r.mask) 0 % 2 ^ 16) cause (((s.dev.lane v).kseq + 1) % 256) ::
        s.dev.out)) ∧
  (∀ (s : State) (v : Fin 16) (n m : Nat), Live s → s.dev.slotNow = some (n, m) → cfgSlot n = true → s.dev.dueKills v = [] →
    (s.dev.lane v).claim = none → s.dev.laneState v = laneHeld →
    Answers (.killRepeat v) s (fun t => t.dev.out =
      if (s.dev.lane v).fenceKillAt.isSome then .kill v.1 0xFFFF 0 0x02 (s.dev.lane v).heldKseq :: s.dev.out else s.dev.out)) ∧
  (∀ (s : State) (v : Fin 16) (n m : Nat) (r : KillRep) (rest : List KillRep), Live s → s.dev.slotNow = some (n, m) → cfgSlot n = true →
    (s.dev.lane v).claim = none → s.dev.dueKills v = [] → s.dev.laneState v = laneActive → s.dev.safeStop = false →
    (s.dev.lane v).reps = r :: rest → r.group + (3 - r.left) ≤ s.dev.groupNow →
    Answers (.killRepeat v) s (fun t => t.dev.out = .kill v.1 r.mask (0xFFFF - r.mask % 2 ^ 16) r.cause r.kseq :: s.dev.out)) ∧
  (∀ (s : State) (v k : Fin 16) (a : Nat × Nat), Live s → (s.dev.lane v).ack.find? (fun a => a.1 == k.1) = some a →
    a.2 + 800 < ((s.dev.vats[v]).guards[k]).repAt → s.dev.klatch v k = false →
    Answers (.killNoack v k) s (fun t => t.dev.tb (Reg.LANE_EVT_KILL_NOACK v.1) 0 = true ∧
      (s.dev.laneState v = laneActive → t.dev.fenced v = true))) ∧
  (∀ (s : State) (v : Fin 16) (n m : Nat), Live s → s.pending = [] → s.dev.slotNow = some (n, m) → s.dev.dueKills v = [] →
    (s.dev.lane v).claim = none → s.dev.laneState v ≠ laneOff → n % 8 = 7 →
    ∃ t, step s = .next t ∧ Output.chk v.1 (groupCrc (s.dev.lane v).dn) (n / 8) (m % 65536)
      (pwmRef m (n / 8) (bits (s.dev.desc v 3) 0 16)) ∈ t.dev.out) ∧
  (∀ (s : State) (v k : Fin 16) (n m : Nat), Live s → s.pending = [] → s.dev.slotNow = some (n, m) → s.dev.dueKills v = [] →
    (s.dev.lane v).claim = none → s.dev.laneState v = laneActive → cmdSlot n = some k →
    ∃ t, step s = .next t ∧ Output.cmd v.1 k.1 (s.dev.chan v k).cmd.mode (s.dev.chan v k).cmd.duty (s.dev.chan v k).cmd.phase
      (((s.dev.chan v k).cmd.seq + 1) % 256) ∈ t.dev.out)

/-- Filter outputs (R80, R84, R85, R88, R89); calibration commits (R90). Where it rests on choices or readings of the model: log entries 35, 36, 37 and 38. -/
def Obligations.MeasurementIsCalibrated : Prop :=
  ((∀ (s : State) (v k : Fin 16) (t : Nat) (yi yv : Int) (fi fv : Sinc2), Live s → ((s.dev.vats[v]).meas[k]).fi.pop = some (t, yi, fi) →
    ((s.dev.vats[v]).meas[k]).fv.pop = some (t, yv, fv) →
    s.dev.calWaits v k t = false →
    Answers (.fastSample v k) s (fun u =>
      let c := ((s.dev.vats[v]).meas[k]).calAtTick t
      let x := if (t - 25 * k.1) % 400 = 0 then (u.dev.chan v k).win else (u.dev.chan v k).half
      x.i = satS 32 (roundDiv (yi * s.dev.desc v 1 * c.ig) (2800 * 2 ^ 30) + c.io) ∧
      x.v = satS 32 (roundDiv (yv * s.dev.desc v 2 * c.vg) (175 * 2 ^ 30) + c.vo) ∧
      ((u.dev.vats[v]).meas[k]).fi = fi ∧ ((u.dev.vats[v]).meas[k]).fv = fv ∧ OtherChans s u v k)) ∧
  (∀ (s : State) (v k : Fin 16) (t : Nat), Live s →
    t % (20000 * 2 ^ ((s.dev.vats[v]).meas[k]).rateFor t) = 0 → ((s.dev.vats[v]).meas[k]).fromT ≤ t → (s.dev.lane v).activeAt ≤ t →
    s.dev.calWaits v k t = false → s.dev.precReady v k t = true →
    Answers (.precisionOutput v k t) s (fun u =>
      let m := (s.dev.vats[v]).meas[k]
      let per := 20000 * 2 ^ m.rateFor t
      let c := m.calAtTick t
      let o := (u.dev.chan v k).lastOut
      o.t = t ∧ o.per = per ∧
      o.i = satS 32 (roundDiv ((fir m.zi 640 0 t per).1 * s.dev.desc v 1 * c.ig) (2 ^ 23 * 2 ^ 30) + c.io) ∧
      o.v = satS 32 (roundDiv ((fir m.zv 2560 2880 t per).1 * s.dev.desc v 2 * c.vg) (2 ^ 23 * 2 ^ 30) + c.vo) ∧
      (u.dev.chan v k).outs = (if (s.dev.stepOf v k).isSome then (s.dev.chan v k).outs ++ [o] else []) ∧
      ((u.dev.vats[v]).meas[k]).fromT = t + 1 ∧
      u.dev.f (Reg.VAT_RAWI_Q v.1 k.1) = pattern 32 (fir m.zi 640 0 t per).1 ∧
      u.dev.f (Reg.VAT_RAWV_Q v.1 k.1) = pattern 32 (fir m.zv 2560 2880 t per).1)) ∧
  (∀ (s : State) (v k : Fin 16) (code tc : Nat), Live s → ((s.dev.vats[v]).meas[k]).ratePend = some (code, tc) → tc ≤ s.dev.now →
    Answers (.rateChange v k) s (fun u => ((u.dev.vats[v]).meas[k]).ratePend = none ∧
      ∀ t, ((u.dev.vats[v]).meas[k]).rateFor t = if tc < t then code else ((s.dev.vats[v]).meas[k]).rateFor t))) ∧
  ((∀ (s : State) (src : Src) (v : Fin 16) (w : Word), Reaches s src (Reg.VAT_CAL_COMMIT_at v.1) → w.toNat % 2 ^ 16 ≠ 0 →
    (s.dev.vats[v]).calReq = [] →
    Answers (.calCommit src v w) s (fun t => (t.dev.vats[v]).calReq =
        [⟨w.toNat % 2 ^ 16, src.master.1, src.secure, (s.dev.now / 400 + 1) * 400⟩] ∧ t.dev.resp = ⟨0, false⟩)) ∧
  (∀ (s : State) (v : Fin 16) (q : CalReq), Live s → (s.dev.vats[v]).calReq = [q] → q.mask < 2 ^ 16 → q.at_ ≤ s.dev.now →
    (∀ k : Fin 16, s.dev.outstanding v k (q.at_ - 400 + 25 * k.1) = false) →
    Answers (.calCommitApply v) s (fun t => (t.dev.vats[v]).calReq = [] ∧
      ∀ k : Fin 16,
        let m := (s.dev.vats[v]).meas[k]
        let m' := (t.dev.vats[v]).meas[k]
        let gen := Reg.VAT_CAL_GEN_GEN v.1 k.1
        if q.mask.testBit k.1 = true ∧ (s.dev.chan v k).stBefore q.at_ = .idle then
          m'.calNow = (match ((s.dev.vats[v]).calSets).find? (fun x => x.1 == q.at_ && x.2.1 == k.1) with
            | some x => x.2.2
            | none => ⟨s.dev.f (Reg.VAT_CAL_IG_VALUE v.1 k.1), signed 32 (s.dev.f (Reg.VAT_CAL_IO_VALUE v.1 k.1)),
                s.dev.f (Reg.VAT_CAL_VG_VALUE v.1 k.1), signed 32 (s.dev.f (Reg.VAT_CAL_VO_VALUE v.1 k.1))⟩) ∧
          (m'.calNow = m.calNow ∨ ∀ i, q.at_ ≤ i → m'.calAtTick i = m'.calNow) ∧
          t.dev.f gen = min (2 ^ gen.w - 1) (s.dev.f gen + 1)
        else m'.cal = m.cal ∧ m'.cals = m.cals ∧ t.dev.f gen = s.dev.f gen)))

/-- The control law in RUN (R51, R58, R97, R104, R105). Where it rests on choices or readings of the model: log entries 28, 39, 42, 44, 105 and 124. -/
def Obligations.RunningChannelFollowsTheControlLaw : Prop :=
  ∀ (s : State) (v k : Fin 16) (r : Running) (t0 : Nat) (ecc : Ecc), Live s → ecc ≠ .uncorrectable → s.dev.fenced v = false →
    s.dev.laneState v = laneActive →
    s.dev.slotTick k = some t0 → (s.dev.chan v k).done ≠ some t0 → s.dev.displaced v k t0 = false →
    (s.dev.chan v k).st = .run → (s.dev.chan v k).run = some r → r.d.mode = 1 → (s.dev.chan v k).setup = r.d → (s.dev.chan v k).gang = none →
    (s.dev.chan v k).killEnd = none → (s.dev.chan v k).stopReq = [] → (s.dev.chan v k).orphan = none → (s.dev.chan v k).softFirst = false →
    r.lateEnd = none → (s.dev.chan v k).phase.isSome = true → (s.dev.vats[v]).imp.point = none →
    ((s.dev.modChan v k (fun c => { c with done := some t0 })).modChan v k Chan.trackStep).protections v k t0 = [] →
    endStatus r.d (s.dev.conditions v k r t0).1 = none →
    Answers (.loopComputation v k true ecc) s (fun t =>
      let c := s.dev.chan v k
      let u := c.tune
      let hi := (s.dev.effLimits v k c.setup u).1
      let lo := (s.dev.effLimits v k c.setup u).2
      let ref := if r.d.slew = 0 then clamp (-lo) hi r.d.spA else c.r + clamp (-(r.d.slew : Int)) r.d.slew (clamp (-lo) hi r.d.spA - c.r)
      let rp := clamp (-lo) hi ref
      let w32 (x : Int) : Int := signed 32 (pattern 32 x)
      let iFb := w32 (c.win.i + w32 (shr (w32 (c.win.i - c.half.i) * u.kx) 24))
      let e := clamp (-(2 ^ 27)) (2 ^ 27) (rp - iFb)
      let xn := clamp (-((u.intLim : Int) * 2 ^ 24)) ((u.intLim : Int) * 2 ^ 24) (c.xi + e * u.ki)
      let dd := roundDiv (c.win.v * 2 ^ 24 + e * u.kp + xn) (s.dev.f (Reg.VAT_VBUS_VBUS v.1))
      let top : Int := (u.dmax : Int) * 256
      let bot : Int := (u.dmin : Int) * 256
      (t.dev.chan v k).r = ref ∧ (t.dev.chan v k).rp = rp ∧
      let duty := (if top < dd then top else if dd < bot then bot else dd).toNat
      (t.dev.chan v k).cmd = ⟨.run, duty, c.phase.getD 0, (c.cmd.seq + 1) % 256⟩ ∧
      Output.cmd v.1 k.1 .run duty (c.phase.getD 0) ((c.cmd.seq + 1) % 256) ∈ t.dev.out ∧
      (t.dev.chan v k).xi = (if (top < dd ∧ 0 < e) ∨ (¬ top < dd ∧ dd < bot ∧ e < 0) then c.xi else xn) ∧
      (t.dev.chan v k).st = .run ∧ OtherChans s t v k)

/-- Computations that drive nothing (R97, R99, R100, R121); fencing and re-enable (R121, R122, R123). Where it rests on choices or readings of the model: log entry 39. -/
def Obligations.FencedAndIdleChannelsTakeNoPart : Prop :=
  ((∀ (s : State) (v k : Fin 16) (a : Bool) (b : Ecc), Live s →
    (s.dev.slotTick k).all (fun t0 => decide ((s.dev.chan v k).done = some t0)) = true →
    Answers (.loopComputation v k a b) s (fun t => ∀ v' k' : Fin 16, t.dev.chan v' k' = s.dev.chan v' k')) ∧
  (∀ (s : State) (v k : Fin 16) (t0 : Nat) (ecc : Ecc), Live s → ecc ≠ .uncorrectable → s.dev.fenced v = false → s.dev.laneState v = laneActive →
    s.dev.slotTick k = some t0 → (s.dev.chan v k).done ≠ some t0 → s.dev.displaced v k t0 = false →
    (s.dev.chan v k).st = .idle → (s.dev.chan v k).run = none →
    (s.dev.chan v k).queue = [] → (s.dev.chan v k).stopReq = [] → (s.dev.chan v k).gang = none →
    Answers (.loopComputation v k true ecc) s (fun t =>
      (t.dev.chan v k).cmd = ⟨.off, 0, 0, ((s.dev.chan v k).cmd.seq + 1) % 256⟩ ∧
      Output.cmd v.1 k.1 .off 0 0 (((s.dev.chan v k).cmd.seq + 1) % 256) ∈ t.dev.out ∧ (t.dev.chan v k).st = .idle ∧ OtherChans s t v k)) ∧
  (∀ (s : State) (v k : Fin 16) (a : Bool) (b : Ecc), Live s → s.dev.fenced v = true →
    Answers (.loopComputation v k a b) s (fun t => ∀ v' k' : Fin 16, t.dev.chan v' k' = s.dev.chan v' k')) ∧
  (∀ (s : State) (v k : Fin 16) (a : Bool) (b : Ecc) (t0 : Nat), Live s → s.dev.fenced v = false → (a = false ∨ b = .uncorrectable) →
    s.dev.slotTick k = some t0 → (s.dev.chan v k).done ≠ some t0 →
    Answers (.loopComputation v k a b) s (fun t => t.dev.fenced v = true ∧ t.dev.bit (Reg.VAT_STAT_FENCE_DONE v.1) = false ∧
      t.dev.f (Reg.VAT_STAT_CAUSE v.1) = (if a then 3 else 2) ∧ t.dev.laneState v = laneHeld ∧
      ∀ j : Fin 16, (t.dev.chan v j).st = .fenced))) ∧
  ((∀ (s : State) (src : Src) (w : Word) (v : Fin 16), Reaches s src Reg.SYS_VAT_CTL_at → w.toNat.testBit (16 + v.1) = true →
    s.dev.fenced v = false →
    Answers (.fence src w) s (fun t => t.dev.fenced v = true ∧ t.dev.f (Reg.VAT_STAT_CAUSE v.1) = 5 ∧ t.dev.tb Reg.SYS_FENCE_VAT v.1 = true ∧
      t.dev.laneState v = laneHeld ∧ ∀ k : Fin 16, (t.dev.chan v k).st = .fenced)) ∧
  (∀ (s : State) (src : Src) (w : Word) (v : Fin 16), Reaches s src Reg.SYS_VAT_CTL_at → w.toNat < 2 ^ 16 → w.toNat.testBit v.1 = true →
    s.dev.bit (Reg.VAT_STAT_FENCE_DONE v.1) = true →
    Answers (.reenable src w) s (fun t => t.dev.laneState v = laneLock ∧ t.dev.f (Reg.LANE_STAT_KLATCH v.1) = 0xFFFF ∧
      t.dev.bit (Reg.VAT_LDG_CLOSED_CLOSED v.1) = false ∧ ∀ k : Fin 16, (t.dev.chan v k).st = .idle)) ∧
  (∀ (s : State) (v : Fin 16), Live s → s.dev.fenced v = true → (s.dev.latchTime v).isSome = true →
    s.dev.bit (Reg.VAT_LDG_CLOSED_CLOSED v.1) = true →
    Answers (.fenceDone v) s (fun t => t.dev.bit (Reg.VAT_STAT_FENCE_DONE v.1) = true)))

/-- Timed transitions (R100, R110, R111, R113, R116, R119, R136, R167). Where it rests on choices or readings of the model: log entries 39, 44, 108, 109, 116 and 120. -/
def Obligations.ChannelTimersEnd : Prop :=
  (∀ (s : State) (v k : Fin 16) (r : Running), Live s → (s.dev.chan v k).st = .arm → (s.dev.chan v k).gang = none →
    (s.dev.chan v k).run = some r → r.d.isGang = false → (s.dev.chan v k).stAt + 400 * s.dev.f (Reg.VAT_LOOP_CFG_ARM_TO v.1) ≤ s.dev.now →
    Answers (.armTimeout v k) s (fun t => (t.dev.chan v k).st = .idle ∧ (t.dev.chan v k).run = none ∧
      Completed t (s.dev.chan v k).slice (chanNo v k) r.d.tag 0x30 (s.dev.tick k))) ∧
  (∀ (s : State) (v k : Fin 16) (r : Running), Live s → (s.dev.chan v k).st = .close → (s.dev.chan v k).gang = none →
    (s.dev.chan v k).run = some r → r.d.isGang = false → s.dev.closeDue v k (s.dev.tick k) = false →
    Answers (.closeDelayEnd v k) s (fun t => (t.dev.chan v k).st = .soft ∧ (t.dev.chan v k).r = 0 ∧ (t.dev.chan v k).xi = 0 ∧
      (t.dev.chan v k).xv = 0 ∧ OtherChans s t v k)) ∧
  (∀ (s : State) (v k : Fin 16) (r : Running) (t0 : Nat) (ecc : Ecc), Live s → ecc ≠ .uncorrectable → s.dev.fenced v = false →
    s.dev.laneState v = laneActive →
    s.dev.slotTick k = some t0 → (s.dev.chan v k).done ≠ some t0 → s.dev.displaced v k t0 = false →
    (s.dev.chan v k).st = .soft → (s.dev.chan v k).phase = none → (s.dev.chan v k).run = some r → r.d.isGang = false → r.lateEnd = none →
    (s.dev.chan v k).gang = none → (s.dev.chan v k).killEnd = none → (s.dev.chan v k).stopReq = [] → (s.dev.chan v k).orphan = none →
    ((s.dev.modChan v k (fun c => { c with done := some t0 })).modChan v k Chan.trackStep).protections v k t0 = [] →
    endStatus r.d (s.dev.conditions v k r t0).1 = none →
    Answers (.loopComputation v k true ecc) s (fun t =>
      (t.dev.chan v k).phase = some (s.dev.newPhase v % 256) ∧ OtherChans s t v k)) ∧
  (∀ (s : State) (v k : Fin 16), Live s → (s.dev.chan v k).st = .ramp → (s.dev.chan v k).gang = none →
    (s.dev.chan v k).stAt + 400 * (if (s.dev.chan v k).orphanRate.isSome then min (s.dev.f (Reg.VAT_RAMP_CFG_RAMP_MAX v.1)) 2000
      else s.dev.f (Reg.VAT_RAMP_CFG_RAMP_MAX v.1)) ≤ s.dev.now →
    Answers (.rampTimeout v k) s (fun t => (t.dev.chan v k).st = .killed ∧ (t.dev.chan v k).lastStop = (s.dev.chan v k).stopAs k 11 (s.dev.tick k))) ∧
  (∀ (s : State) (v k : Fin 16) (e : QEntry), Live s → CanStart s v k e → e.heldAt.isSome = true → (s.dev.chan v k).stAt < s.dev.tick k →
    Answers (.heldStart v k) s (fun t => Started s t v k e)) ∧
  (∀ (s : State) (v k : Fin 16) (e : QEntry) (rest : List QEntry) (h : Nat), Live s → (s.dev.chan v k).queue = e :: rest →
    e.heldAt = some h → h + 400000 * s.dev.f (Reg.VAT_LOOP_CFG_ENABLE_HOLD_LIMIT v.1) < s.dev.tick k →
    Answers (.holdLimitExpiry v k) s (fun t => Completed t (s.dev.chan v k).slice e.d.ch e.d.tag 0x33 (s.dev.tick k) ∧
      (e.d.flag 2 = false → (t.dev.chan v k).halt = true ∧ (t.dev.chan v k).queue = [])))

/-- Orphan policies (R21, R118, R119, R120). Where it rests on choices or readings of the model: log entries 47 and 109. -/
def Obligations.OrphanPoliciesAct : Prop :=
  (∀ (s : State) (p : Fin 2), Live s → s.dev.bit (pathBit p) = true →
    Answers (.hostLinkDown p) s (fun t => t.dev.bit (pathBit p) = false ∧
      ∀ i : Fin 64,
        (s.dev.f (Reg.SLC_STATE_STATE i.1) ≠ 0 → s.dev.hasRing i.1 p.1 = true →
          t.dev.bit (Reg.SLC_STATE_ORPHAN i.1) = true ∧
          (s.dev.bit (Reg.SLC_STATE_ORPHAN i.1) = false → ∀ v k : Fin 16, (s.dev.chan v k).owner = some i →
            (t.dev.chan v k).orphan =
              some { policy := s.dev.f (Reg.SLC_ORPHAN_POLICY i.1), maxMs := s.dev.f (Reg.SLC_ORPHAN_MAX i.1), since := s.dev.now,
                     shown := match (s.dev.chan v k).orphan with | some o => o.shown | none => false })) ∧
        (s.dev.f (Reg.SLC_STATE_STATE i.1) = 0 ∨ s.dev.hasRing i.1 p.1 = false →
          t.dev.f (Reg.SLC_STATE_ORPHAN i.1) = s.dev.f (Reg.SLC_STATE_ORPHAN i.1)))) ∧
  (∀ (s : State) (p : Fin 2), Live s → Answers (.hostLinkUp p) s (fun t => t.dev.bit (pathBit p) = true ∧
    (∀ v k : Fin 16, t.dev.chan v k = s.dev.chan v k) ∧
    ((∀ i : Fin 64, (s.dev.slices[i]).evtLostRun = 0) → Clean s →
      (∀ r : RF, Apart [(0x20000000, 0x20001000)] r → t.dev.f r = s.dev.f r) ∧ t.dev.vats = s.dev.vats ∧ SameMem s t))) ∧
  (∀ (s : State) (v k : Fin 16) (o : Orphan) (r : Running), Live s → s.dev.fenced v = false → (s.dev.chan v k).orphan = some o →
    o.taken = false → o.since < s.dev.tick k → s.dev.outstanding v k (s.dev.tick k) = false → o.policy = 0 → (s.dev.chan v k).gang = none → (s.dev.chan v k).run = some r → r.d.isGang = false →
    ((s.dev.chan v k).st = .run ∨ (s.dev.chan v k).st = .soft ∨ (s.dev.chan v k).st = .passive) →
    Answers (.orphanPolicy v k) s (fun t => (t.dev.chan v k).run = none ∧
      Completed t (s.dev.chan v k).slice (chanNo v k) r.d.tag 0x22 (s.dev.tick k) ∧
      (if (s.dev.chan v k).st = .passive then (t.dev.chan v k).st = .idle
       else (t.dev.chan v k).st = .ramp ∧
         (t.dev.chan v k).orphanRate = some (max (s.dev.chan v k).tune.ramp (((s.dev.chan v k).r.natAbs + 1499) / 1500))))) ∧
  (∀ (s : State) (v k : Fin 16) (o : Orphan) (r : Running), Live s → s.dev.fenced v = false → (s.dev.chan v k).orphan = some o →
    o.taken = false → o.since < s.dev.tick k → s.dev.outstanding v k (s.dev.tick k) = false → (o.policy = 1 ∨ o.policy = 2) → (s.dev.chan v k).gang = none → (s.dev.chan v k).run = some r →
    (o.policy = 2 → r.d.mode ≠ 9) → ((s.dev.chan v k).st = .run ∨ (s.dev.chan v k).st = .passive) →
    Answers (.orphanPolicy v k) s (fun t => (t.dev.chan v k).st = (s.dev.chan v k).st ∧ (t.dev.chan v k).r = (s.dev.chan v k).r ∧
      (∃ r', (t.dev.chan v k).run = some r' ∧ r'.d = r.d) ∧ (t.dev.chan v k).suspended = (o.policy == 2))) ∧
  (∀ (s : State) (v k : Fin 16) (o : Orphan) (r : Running), Live s → (s.dev.chan v k).orphan = some o → o.taken = true → o.policy = 2 →
    o.since + 400000 * o.maxMs ≤ s.dev.now → s.dev.fenced v = false → o.since + 400000 * o.maxMs ≤ s.dev.tick k →
    s.dev.outstanding v k (s.dev.tick k) = false → (s.dev.chan v k).gang = none → (s.dev.chan v k).run = some r → r.d.isGang = false →
    (s.dev.chan v k).st = .run →
    Answers (.orphanMaxExpiry v k) s (fun t => (t.dev.chan v k).st = .ramp ∧ (t.dev.chan v k).run = none ∧
      Completed t (s.dev.chan v k).slice (chanNo v k) r.d.tag 0x22 (s.dev.tick k))) ∧
  (∀ (s : State) (v k : Fin 16) (o : Orphan) (x : Nat), Live s → (s.dev.chan v k).orphan = some o → o.endAt = some x → x < s.dev.tick k →
    s.dev.outstanding v k (s.dev.tick k) = false →
    Answers (.orphanEnd v k) s (fun t => (t.dev.chan v k).orphan = none))

/-- An early re-enable (R117). -/
def Obligations.EarlyReenableIsRefusedAndLogged : Prop :=
  ∀ (s : State) (src : Src) (w : Word) (v : Fin 16), Reaches s src Reg.SYS_VAT_CTL_at → w.toNat < 2 ^ 16 → w.toNat.testBit v.1 = true →
    s.dev.bit (Reg.VAT_STAT_FENCE_DONE v.1) = false →
    Answers (.reenable src w) s (fun t => t.dev.laneState v = s.dev.laneState v ∧ t.dev.fenced v = s.dev.fenced v ∧
      (∀ k : Fin 16, t.dev.chan v k = s.dev.chan v k) ∧
      t.dev.evlog.head? = some ⟨0x04, 0xFF, accInfo src true 0, Reg.SYS_VAT_CTL_at - 0x20000000, s.dev.now⟩)

/-- The tests of R127. -/
def Obligations.AdmissionIsWithinTheLimits : Prop :=
  (∀ (d : Dev) (v k : Fin 16) (r : Resv), d.admitted v k r = true →
    let pair := d.bit Reg.PWR_BAL_CFG_PAIR
    let own := (d.chan v k).owner
    let ok (x : Sums) (draw regen : Nat) : Prop :=
      (0 < r.u → draw = 0xFFFFFFFF ∨ (if pair then x.u else x.d) + r.u ≤ draw * 1000) ∧
      (r.l < 0 → regen = 0xFFFFFFFF ∨ -(regen * 1000 : Int) ≤ (if pair then x.l else x.g) + r.l)
    ok (d.sums v k (fun v' _ => v' == v)) (d.f (Reg.VAT_BAL_DRAW_LIMIT v.1)) (d.f (Reg.VAT_BAL_REGEN_LIMIT v.1)) ∧
    ok (d.sums v k (fun v' k' => (d.chan v' k').owner == own)) (d.f (Reg.PWR_SLC_DRAW_LIMIT (d.chan v k).slice))
      (d.f (Reg.PWR_SLC_REGEN_LIMIT (d.chan v k).slice)) ∧
    (d.bit Reg.SLICE_MODE_STRICT = false → ok (d.sums v k (fun v' _ => d.seg v' == d.seg v))
      (d.f (Reg.PWR_SEG_DRAW_LIMIT (d.seg v).1)) (d.f (Reg.PWR_SEG_REGEN_LIMIT (d.seg v).1)))) ∧
  (∀ (d : Dev) (v k : Fin 16), d.admitted v k ⟨0, 0⟩ = true)

/-- Balancer passes and waiting starts (R112, R125, R128, R129, R131, R159). Where it rests on choices or readings of the model: log entries 39, 49, 51, 56, 109 and 130. -/
def Obligations.BalancerFormsFactorsAndStarts : Prop :=
  (∀ (s : State), Live s → s.dev.passAt ≠ some s.dev.periodStart → s.dev.settledAt s.dev.periodStart = true →
    (∀ v k : Fin 16, (s.dev.chan v k).queue = []) →
    Answers .balancerPass s (fun t =>
      (∀ v : Fin 16,
        let p := s.dev.power (fun v' _ => v' == v)
        let lim := s.dev.f (Reg.VAT_BAL_DRAW_LIMIT v.1)
        let reg := s.dev.f (Reg.VAT_BAL_REGEN_LIMIT v.1)
        let pd := if s.dev.bit Reg.PWR_BAL_CFG_PAIR then max (p.1 + p.2) 0 else p.1
        let pg := if s.dev.bit Reg.PWR_BAL_CFG_PAIR then max (-(p.1 + p.2)) 0 else -p.2
        (t.dev.vats[v]).sD = (if lim = 0xFFFFFFFF ∨ pd ≤ 0 then 65536 else min 65536 ((s.dev.vats[v]).sD * lim * 1000 / pd.toNat)) ∧
        (t.dev.vats[v]).sG = (if reg = 0xFFFFFFFF ∨ pg ≤ 0 then 65536 else min 65536 ((s.dev.vats[v]).sG * reg * 1000 / pg.toNat)) ∧
        t.dev.f (Reg.VAT_BAL_PRED_N v.1) = pattern 32 (divT (p.1 + p.2) 1000)) ∧
      ∀ v k : Fin 16, t.dev.chan v k = s.dev.chan v k)) ∧
  (∀ (s : State) (v k : Fin 16) (e : QEntry) (rest : List QEntry) (t0 : Nat), Live s → (s.dev.chan v k).queue = e :: rest →
    e.deferAt = some t0 → e.resv = none → t0 + 400000 * s.dev.f (Reg.VAT_BAL_HOLD_LIMIT v.1) < s.dev.now →
    Answers (.budgetTimeout v k) s (fun t => Completed t (s.dev.chan v k).slice e.d.ch e.d.tag 0x34 s.dev.now)) ∧
  (∀ (s : State) (v k : Fin 16) (e : QEntry) (rest : List QEntry) (i : Nat), Live s → (s.dev.chan v k).queue = e :: rest →
    e.startAt = some i → e.resv = none → e.heldAt = none →
    i < s.dev.now / 400 * 400 + (if s.dev.passAt = some (s.dev.now / 400 * 400) then 400 else 0) +
      400 * (s.dev.f (Reg.VAT_LOOP_CFG_ARM_TO v.1) + 5) →
    Answers (.budgetRefused v k) s (fun t => Completed t (s.dev.chan v k).slice e.d.ch e.d.tag 0x35 s.dev.now)) ∧
  (∀ (s : State) (v k : Fin 16) (e : QEntry) (i : Nat), Live s → CanStart s v k e → e.heldAt = none → e.startAt = some i → e.late = false →
    i ≤ s.dev.tick k → s.dev.tick k < i + 400 →
    Answers (.syncStart v k) s (fun t => Started s t v k e)) ∧
  (∀ (s : State) (v k : Fin 16) (e : QEntry) (rest : List QEntry) (i : Nat), Live s → (s.dev.chan v k).queue = e :: rest →
    e.startAt = some i → e.late = false → i ≤ s.dev.tick k → s.dev.tick k < i + 400 → e.resv.isSome = true → e.heldAt = none →
    (s.dev.chan v k).run = none → (s.dev.chan v k).orphan = none → (s.dev.chan v k).stopReq = [] → s.dev.fenced v = false →
    e.d.isGang = false → (s.dev.chan v k).st = .idle → s.dev.klatch v k = true →
    Answers (.syncStart v k) s (fun t => Completed t (s.dev.chan v k).slice e.d.ch e.d.tag 0x30 (s.dev.tick k)))

/-- Operations on arrival (R148, R152, R153, R154). Where it rests on choices or readings of the model: log entries 52 and 53. -/
def Obligations.DescriptorsActOnArrival : Prop :=
  (∀ (s : State) (i : Fin 64) (ws : List Word), Fetches s i ws → (Desc.ofWords ws).op = 0 →
    Answers (.nop i ws) s (fun t => Consumed s t i ∧ Completed t i.1 (Desc.ofWords ws).ch (Desc.ofWords ws).tag 0 s.dev.now ∧
      ∀ v k : Fin 16, t.dev.chan v k = s.dev.chan v k)) ∧
  (∀ (s : State) (i : Fin 64) (ws : List Word), Fetches s i ws → (Desc.ofWords ws).op = 1 →
    let v := chV (Desc.ofWords ws).ch
    let k := chK (Desc.ofWords ws).ch
    (s.dev.chan v k).halt = false → s.dev.slots i (Desc.ofWords ws).ch < 8 →
    Answers (.step i ws) s (fun t => Consumed s t i ∧
      ((s.dev.chan v k).queue = [] → (t.dev.chan v k).queue = [{ d := Desc.ofWords ws, headAt := some s.dev.now }]) ∧
      (∀ e rest, (s.dev.chan v k).queue = e :: rest → e.d.op ≠ 5 → e.headAt.isSome = true →
        (t.dev.chan v k).queue = (e :: rest) ++ [{ d := Desc.ofWords ws }]) ∧ OtherChans s t v k)) ∧
  (∀ (s : State) (i : Fin 64) (ws : List Word), Fetches s i ws → (Desc.ofWords ws).op = 1 →
    (s.dev.chan (chV (Desc.ofWords ws).ch) (chK (Desc.ofWords ws).ch)).halt = false → 8 ≤ s.dev.slots i (Desc.ofWords ws).ch →
    Answers (.step i ws) s (fun t => (t.dev.slices[i]).ci = (s.dev.slices[i]).ci ∧ (t.dev.slices[i]).stallAt.isSome = true ∧
      ∀ v k : Fin 16, t.dev.chan v k = s.dev.chan v k)) ∧
  (∀ (s : State) (i : Fin 64) (ws : List Word), Fetches s i ws →
    let v := chV (Desc.ofWords ws).ch
    let k := chK (Desc.ofWords ws).ch
    ((Desc.ofWords ws).op = 2 → Answers (.stop i ws) s (fun t => Consumed s t i ∧
      (t.dev.chan v k).stopReq = (s.dev.chan v k).stopReq ++ [Desc.ofWords ws] ∧ OtherChans s t v k)) ∧
    ((Desc.ofWords ws).op = 4 → Answers (.abort i ws) s (fun t => Consumed s t i ∧
      (t.dev.chan v k).stopReq = (s.dev.chan v k).stopReq ++ [Desc.ofWords ws] ∧ OtherChans s t v k))) ∧
  (∀ (s : State) (i : Fin 64) (ws : List Word), Fetches s i ws → (Desc.ofWords ws).op = 3 →
    Answers (.flush i ws) s (fun t => Consumed s t i ∧ (t.dev.chan (chV (Desc.ofWords ws).ch) (chK (Desc.ofWords ws).ch)).queue = [] ∧
      Completed t i.1 (Desc.ofWords ws).ch (Desc.ofWords ws).tag 0 s.dev.now ∧
      ∀ e ∈ (s.dev.chan (chV (Desc.ofWords ws).ch) (chK (Desc.ofWords ws).ch)).queue, Completed t i.1 e.d.ch e.d.tag 0x3A s.dev.now)) ∧
  (∀ (s : State) (i : Fin 64) (ws : List Word), Fetches s i ws → (Desc.ofWords ws).op = 5 →
    (s.dev.chan (chV (Desc.ofWords ws).ch) (chK (Desc.ofWords ws).ch)).halt = false →
    (s.dev.chan (chV (Desc.ofWords ws).ch) (chK (Desc.ofWords ws).ch)).run = none →
    (s.dev.chan (chV (Desc.ofWords ws).ch) (chK (Desc.ofWords ws).ch)).queue = [] → s.dev.slots i (Desc.ofWords ws).ch < 8 →
    Answers (.mark i ws) s (fun t => Consumed s t i ∧ (t.dev.chan (chV (Desc.ofWords ws).ch) (chK (Desc.ofWords ws).ch)).queue = [] ∧
      Completed t i.1 (Desc.ofWords ws).ch (Desc.ofWords ws).tag 0 s.dev.now)) ∧
  (∀ (s : State) (i : Fin 64) (ws : List Word), Fetches s i ws → (Desc.ofWords ws).op = 6 →
    Answers (.resume i ws) s (fun t => Consumed s t i ∧ (t.dev.chan (chV (Desc.ofWords ws).ch) (chK (Desc.ofWords ws).ch)).halt = false ∧
      Completed t i.1 (Desc.ofWords ws).ch (Desc.ofWords ws).tag 0 s.dev.now)) ∧
  (∀ (s : State) (i : Fin 64) (ws : List Word), Live s → s.dev.fetchRuns i = true → s.dev.fetchReach i = .opened → s.ringHolds i ws = true → 7 ≤ (Desc.ofWords ws).op →
    Answers (.badOp i ws) s (fun t => Consumed s t i ∧ Completed t i.1 (Desc.ofWords ws).ch (Desc.ofWords ws).tag 0x40 s.dev.now))

/-- Doorbell values (R145, R146, R147, R219). Where it rests on choices or readings of the model: log entries 54, 55 and 131. -/
def Obligations.DoorbellsMoveIndices : Prop :=
  (∀ (s : State) (port : Fin 2) (i : Fin 64) (w : Word), DoorbellReaches s port i → s.dev.bit (Reg.SLC_RING_CFG_EN i.1 0) = true →
    Answers (.cmdPi port i (.write 4 w)) s (fun t =>
      if 0 ≤ sdiff32 w.toNat (s.dev.slices[i]).cmdPi ∧ 0 ≤ sdiff32 w.toNat (s.dev.slices[i]).ci[(0 : Fin 8)] ∧
        sdiff32 w.toNat (s.dev.slices[i]).ci[(0 : Fin 8)] ≤ (2 ^ s.dev.f (Reg.SLC_RING_CFG_LOG2 i.1 0) : Nat) then
        (t.dev.slices[i]).cmdPi = w.toNat ∧ (t.dev.slices[i]).wdogAt = s.dev.now ∧
          t.dev.f (Reg.SLC_DB_ERR_COUNT i.1) = s.dev.f (Reg.SLC_DB_ERR_COUNT i.1)
      else (t.dev.slices[i]).cmdPi = (s.dev.slices[i]).cmdPi ∧ (t.dev.slices[i]).wdogAt = (s.dev.slices[i]).wdogAt ∧
        t.dev.f (Reg.SLC_DB_ERR_COUNT i.1) = min (2 ^ (Reg.SLC_DB_ERR_COUNT i.1).w - 1) (s.dev.f (Reg.SLC_DB_ERR_COUNT i.1) + 1))) ∧
  (∀ (s : State) (port : Fin 2) (i : Fin 64) (r : Fin 8) (w : Word), DoorbellReaches s port i → r ≠ 0 →
    Answers (.consumerDoorbell port i (4 * r.1) (.write 4 w)) s (fun t =>
      if 0 ≤ sdiff32 w.toNat (s.dev.slices[i]).ci[r] ∧ 0 ≤ sdiff32 (s.dev.slices[i]).pi[r] w.toNat then
        (t.dev.slices[i]).ci[r] = w.toNat ∧ (t.dev.slices[i]).wdogAt = s.dev.now
      else (t.dev.slices[i]).ci[r] = (s.dev.slices[i]).ci[r] ∧
        t.dev.f (Reg.SLC_DB_ERR_COUNT i.1) = min (2 ^ (Reg.SLC_DB_ERR_COUNT i.1).w - 1) (s.dev.f (Reg.SLC_DB_ERR_COUNT i.1) + 1))) ∧
  (∀ (s : State) (port : Fin 2) (i : Fin 64) (r : Fin 8), Live s → s.dev.sup.warm = none → s.dev.f (Reg.PWR_QTAG_STATE (36 + port.1)) = 0 →
    Answers (if r = 0 then .cmdPi port i (.read 4) else .consumerDoorbell port i (4 * r.1) (.read 4)) s (fun t =>
      t.dev.resp = ⟨if r = 0 then (s.dev.slices[i]).cmdPi else (s.dev.slices[i]).ci[r], false⟩ ∧ t.dev.slices = s.dev.slices)) ∧
  (∀ (s : State) (port : Fin 2) (i : Fin 64) (off : Nat) (op : DoorOp), Live s → s.dev.sup.warm = none →
    s.dev.f (Reg.PWR_QTAG_STATE (36 + port.1)) = 0 → (0x20 ≤ off ∨ off % 4 ≠ 0 ∨ ∀ w : Word, op ≠ .write 4 w ∧ op ≠ .read 4) →
    Answers (.consumerDoorbell port i off op) s (fun t => t.dev.resp = ⟨0, false⟩ ∧ t.dev.slices = s.dev.slices ∧
      t.dev.f (Reg.SLC_DB_ERR_COUNT i.1) = min (2 ^ (Reg.SLC_DB_ERR_COUNT i.1).w - 1) (s.dev.f (Reg.SLC_DB_ERR_COUNT i.1) + 1))) ∧
  (∀ (s : State) (i : Fin 64), Live s → s.dev.sup.warm = none → s.dev.bit (Reg.SLC_RING_CTL_DBSRC i.1) = true →
    s.dev.f (Reg.SLC_STATE_STATE i.1) = 1 → s.dev.bit (Reg.SLC_RING_CFG_EN i.1 0) = true →
    let addr := s.dev.f64 (Reg.SLC_MIRROR_LO_ADDR i.1) (Reg.SLC_MIRROR_HI_ADDR i.1)
    let xs := (List.range 8).map (fun n => s.memWord (addr + 4 * n) 4)
    s.dev.localOpen 8 i.1 .read addr 32 = true → (∀ r : Fin 8, r ≠ 0 → s.memWord (addr + 4 * r.1) 4 = (s.dev.slices[i]).ci[r]) →
    s.memWord addr 4 ≠ (s.dev.slices[i]).cmdPi → s.dev.pollDue i = true →
    s.dev.cmdPiOk i.1 (s.memWord addr 4) = true →
    Answers (.mirrorPoll i) s (fun t => (t.dev.slices[i]).cmdPi = s.memWord addr 4 ∧ (t.dev.slices[i]).mirror = xs))

/-- Delivery and configuration (R142–R144, R154, R156, R166, R169). Where it rests on choices or readings of the model: log entries 57, 109 and 131. -/
def Obligations.RingEntriesAreDelivered : Prop :=
  (∀ (s : State) (i : Fin 64) (c : Cmp) (rest : List Cmp) (x : Nat), Clean s → Live s → (s.dev.slices[i]).cmps = c :: rest →
    s.dev.ringReady i.1 1 = true → s.dev.endsKnown i c.tEnd = true → s.dev.cmpValC c = some x → s.dev.bit Reg.DPL_CFG_EN = false →
    Answers (.completionWrite i) s (fun t => (t.dev.slices[i]).cmps = rest ∧
      (t.dev.slices[i]).pi[(1 : Fin 8)] = ((s.dev.slices[i]).pi[(1 : Fin 8)] + 1) % 2 ^ 32 ∧
      Stored s t (s.dev.memKey i.1 (s.dev.f (Reg.SLC_RING_CFG_LOC i.1 1)) (s.dev.entryAddr i.1 1 (s.dev.ringPi i.1 1))) (cmpBytes c x))) ∧
  (∀ (s : State) (i : Fin 64), Clean s → Live s → (s.dev.slices[i]).wbDirty = true → s.dev.bit (Reg.SLC_RING_CFG_EN i.1 0) = true →
    s.dev.ringStopped i.1 0 = false → s.dev.bit Reg.DPL_CFG_EN = false → (s.dev.slices[i]).evtLostRun = 0 →
    let addr := s.dev.f64 (Reg.SLC_WB_LO_ADDR i.1) (Reg.SLC_WB_HI_ADDR i.1)
    let e := s.dev.slices[i]
    s.dev.wbPath i.1 (s.dev.f (Reg.SLC_RING_CFG_LOC i.1 0)) addr = true →
    Answers (.writebackWrite i) s (fun t => (t.dev.slices[i]).wbDirty = false ∧ (t.dev.slices[i]).sig = [] ∧
      Stored s t (s.dev.memKey i.1 (s.dev.f (Reg.SLC_RING_CFG_LOC i.1 0)) addr)
        (leBytes 4 e.ci[(0 : Fin 8)] ++ leBytes 4 e.pi[(1 : Fin 8)] ++ leBytes 4 e.pi[(2 : Fin 8)] ++ leBytes 4 e.pi[(3 : Fin 8)] ++
         leBytes 4 e.pi[(4 : Fin 8)] ++ leBytes 4 e.pi[(5 : Fin 8)] ++ leBytes 4 e.pi[(6 : Fin 8)] ++ leBytes 4 e.pi[(7 : Fin 8)] ++
         leBytes 8 s.dev.now ++ leBytes 8 0 ++ leBytes 8 0 ++ leBytes 8 0))) ∧
  (∀ (s : State) (i : Fin 64) (t0 : Nat), Live s → (s.dev.slices[i]).stallAt = some t0 → t0 + 400000 ≤ s.dev.now →
    s.dev.bit (Reg.SLC_RING_STAT_CMD_STALL i.1) = false →
    Answers (.cmdStall i) s (fun t => t.dev.bit (Reg.SLC_RING_STAT_CMD_STALL i.1) = true)) ∧
  (∀ (s : State) (v k : Fin 16) (r : Running), Live s → (s.dev.chan v k).run = some r → r.d.flag 3 = true → r.nextProg ≤ s.dev.now →
    s.dev.ringRoom (s.dev.chan v k).slice 1 = true →
    Answers (.progressCompletion v k) s (fun t => Completed t (s.dev.chan v k).slice (chanNo v k) r.d.tag 0x05 r.nextProg ∧
      (t.dev.chan v k).run = some { r with
        nextProg := r.nextProg + 400000 * s.dev.f (Reg.SLC_RING_CTL_PROG_MS (s.dev.chan v k).slice) } ∧ OtherChans s t v k)) ∧
  (∀ (s : State) (i : Fin 64) (r : Fin 8) (x : Word), Live s → s.dev.bit (Reg.SLC_RING_CFG_EN i.1 r.1) = true →
    s.dev.ringStopped i.1 r.1 = false →
    Answers (.dmaError i r x) s (fun t => t.dev.ringStopped i.1 r.1 = true)) ∧
  (∀ (s : State) (src : Src) (i : Fin 64) (r : Fin 8) (w : Word), Reaches s src (Reg.SLC_RING_CFG_at i.1 r.1) →
    let wr (f : RF) : Nat := bits w.toNat f.lo f.w
    w.toNat.testBit 0 = true → s.dev.bit (Reg.SLC_RING_CFG_EN i.1 r.1) = false →
    4 ≤ wr (Reg.SLC_RING_CFG_LOG2 i.1 r.1) → wr (Reg.SLC_RING_CFG_LOG2 i.1 r.1) ≤ 16 → (3 ≤ r.1 ∨ wr (Reg.SLC_RING_CFG_ESIZE i.1 r.1) = 0) →
    (wr (Reg.SLC_RING_CFG_LOC i.1 r.1) = 2 ∨ wr (Reg.SLC_RING_CFG_LOC i.1 r.1) < 2 ∧
      wr (Reg.SLC_RING_CFG_LOC i.1 r.1) = s.dev.f (Reg.SLC_PASID_PORT i.1)) →
    Answers (.ringCfgWrite src i r w) s (fun t => t.dev.bit (Reg.SLC_RING_CFG_EN i.1 r.1) = true ∧
      t.dev.f (Reg.SLC_RING_CFG_LOG2 i.1 r.1) = wr (Reg.SLC_RING_CFG_LOG2 i.1 r.1) ∧
      t.dev.f (Reg.SLC_RING_CFG_LOC i.1 r.1) = wr (Reg.SLC_RING_CFG_LOC i.1 r.1) ∧
      (r.1 ≠ 2 ∨ (s.dev.slices[i]).evtLostRun = 0 →
        (t.dev.slices[i]).pi[r] = s.dev.f (Reg.SLC_RING_IDX_IDX i.1 r.1) ∧ t.dev.ringStopped i.1 r.1 = false) ∧
      (t.dev.slices[i]).ci[r] = s.dev.f (Reg.SLC_RING_IDX_IDX i.1 r.1))) ∧
  (∀ (s : State) (src : Src) (i : Fin 64) (r : Fin 8) (w : Word), Reaches s src (Reg.SLC_RING_CFG_at i.1 r.1) →
    w.toNat.testBit 0 = false → s.dev.bit (Reg.SLC_RING_CFG_EN i.1 r.1) = true →
    Answers (.ringCfgWrite src i r w) s (fun t => t.dev.bit (Reg.SLC_RING_CFG_EN i.1 r.1) = false))

/-- Integration (R83, R171, R172, R173). -/
def Obligations.ChargeIntegratesExactly : Prop :=
  (∀ (s : State) (v k : Fin 16) (z zb : ZOut) (fa fb : Sinc4), Live s → ((s.dev.vats[v]).meas[k]).a.fi.pop = some (z, fa) →
    ((s.dev.vats[v]).meas[k]).b.fi.pop = some (zb, fb) → s.dev.calWaits v k (640 * z.m) = false →
    Answers (.sinc4Output v k true) s (fun t =>
      let m := (s.dev.vats[v]).meas[k]
      let c := m.calAtTick (640 * z.m)
      let tot : Int := z.z * s.dev.desc v 1 * c.ig + c.io * (7 * 2 ^ 54) + m.a.rq
      let dq : Int := tot.fdiv (35 * 2 ^ 43)
      let a := ((t.dev.vats[v]).meas[k]).a
      a.rq = tot - dq * (35 * 2 ^ 43) ∧
      a.qIn = (if 0 ≤ dq then min (2 ^ 104 - 1) (m.a.qIn + dq.toNat) else m.a.qIn) ∧
      a.qOut = (if 0 ≤ dq then m.a.qOut else min (2 ^ 104 - 1) (m.a.qOut + (-dq).toNat)) ∧
      (m.a.v8 = [] → a.eIn = m.a.eIn ∧ a.eOut = m.a.eOut) ∧ a.fi = fa ∧
      ((t.dev.vats[v]).meas[k]).zi = (z :: m.zi).take 700 ∧
      ∀ v' k' : Fin 16, (v', k') ≠ (v, k) → (t.dev.vats[v']).meas[k'] = (s.dev.vats[v']).meas[k'])) ∧
  (∀ (s : State) (v k : Fin 16) (z zb : ZOut) (fa fb : Sinc4), Live s → ((s.dev.vats[v]).meas[k]).a.fv.pop = some (z, fa) →
    ((s.dev.vats[v]).meas[k]).b.fv.pop = some (zb, fb) → s.dev.calWaits v k (2560 * z.m - 2880) = false →
    Answers (.sinc4Output v k false) s (fun t =>
      let m := (s.dev.vats[v]).meas[k]
      let c := m.calAtTick (2560 * z.m - 2880)
      let a := ((t.dev.vats[v]).meas[k]).a
      (m.a.i8 = [] → a.eIn = m.a.eIn ∧ a.eOut = m.a.eOut ∧
        a.v8 = m.a.v8 ++ [(z.m, roundDiv (z.z * s.dev.desc v 2 * c.vg + c.vo * (7 * 2 ^ 54)) (7 * 2 ^ 46))]) ∧
      a.qIn = m.a.qIn ∧ a.qOut = m.a.qOut ∧ a.rq = m.a.rq ∧ a.fv = fa ∧
      ((t.dev.vats[v]).meas[k]).zv = (z :: m.zv).take 190 ∧
      ∀ v' k' : Fin 16, (v', k') ≠ (v, k) → (t.dev.vats[v']).meas[k'] = (s.dev.vats[v']).meas[k']))

/-- Delivery of records and checkpoints (R183, R184, R191, R194). Where it rests on choices or readings of the model: log entries 58 and 59. -/
def Obligations.LedgerRecordsReachMemory : Prop :=
  (∀ (s : State) (i : Fin 64) (x : Fin 5) (e : SEntry), Clean s → Live s → s.dev.bit Reg.DPL_CFG_EN = false →
    s.dev.waiting i.1 x.1 = [e] → s.dev.inOrder i.1 x.1 e = true → s.dev.ringReady i.1 (streamRing x.1) = true → s.dev.sealing i.1 x.1 = false →
    Answers (.streamDeliver i x) s (fun t =>
      Stored s t (s.dev.memKey i.1 (s.dev.f (Reg.SLC_RING_CFG_LOC i.1 (streamRing x.1).1))
        (s.dev.entryAddr i.1 (streamRing x.1).1 (s.dev.ringPi i.1 (streamRing x.1)))) e.bytes ∧
      t.dev.ringPi i.1 (streamRing x.1) = (s.dev.ringPi i.1 (streamRing x.1) + 1) % 2 ^ 32 ∧ t.dev.waiting i.1 x.1 = [])) ∧
  (∀ (s : State) (i : Fin 64) (c : Ckpt), Clean s → Live s → s.dev.bit Reg.DPL_CFG_EN = false → (s.dev.slices[i]).ckpt = some c →
    let addr := s.dev.f64 (Reg.LDG_CK_BASE_LO_ADDR i.1) (Reg.LDG_CK_BASE_HI_ADDR i.1) + c.slot * 0x5000
    s.dev.pathUp i.1 (s.dev.f (Reg.LDG_CFG_LOC i.1)) addr (0x260 + 64 * c.rows.length) = true →
    c.rows.all (fun r => r.2.2.2.isSome || s.dev.cutReady r.1) = true →
    Answers (.checkpointWrite i) s (fun t =>
      (∃ sig, Stored s t (s.dev.memKey i.1 (s.dev.f (Reg.LDG_CFG_LOC i.1)) addr) (s.dev.ckBody c ++ sig)) ∧
      t.dev.f (Reg.LDG_CK_PI_PI i.1) = (s.dev.f (Reg.LDG_CK_PI_PI i.1) + 1) % 2 ^ 32 ∧ (t.dev.slices[i]).ckpt = none))

/-- Commands of the ledger (R178, R180, R183, R184, R186, R190, R191, R194, R456). Where it rests on choices or readings of the model: log entries 58, 59 and 118. -/
def Obligations.LedgerCommandsAct : Prop :=
  (∀ (s : State) (v : Fin 16) (x : Nat), Live s → s.dev.fenced v = true → s.dev.bit (Reg.VAT_LDG_CLOSED_CLOSED v.1) = false →
    s.dev.bit (Reg.VAT_STAT_FENCE_DONE v.1) = false → s.dev.closeTick v = some x → x ≤ s.dev.now → s.dev.closeReady v x = true →
    Answers (.ledgerClose v) s (fun t => t.dev.bit (Reg.VAT_LDG_CLOSED_CLOSED v.1) = true ∧ (t.dev.lane v).words = [])) ∧
  (∀ (s : State) (i : Fin 64) (x : Fin 5) (e : SEntry), Clean s → Live s → s.dev.bit Reg.DPL_CFG_EN = false →
    s.dev.waiting i.1 x.1 = [e] → s.dev.inOrder i.1 x.1 e = true → s.dev.ringReady i.1 (streamRing x.1) = true →
    (s.dev.sealing i.1 x.1 = true → e.sealed = false ∧ ((s.dev.slices[i]).blk[x]).length < 63) →
    ∃ t : State, Sys2Proof.Machine.exec (.streamDeliver i x) s = .next t ∧
      Mem.reads t.mem t.dev.ep (s.dev.memKey i.1 (s.dev.f (Reg.SLC_RING_CFG_LOC i.1 (streamRing x.1).1))
        (s.dev.entryAddr i.1 (streamRing x.1).1 (s.dev.ringPi i.1 (streamRing x.1)))) e.bytes.length = e.bytes ∧
      t.dev.ringPi i.1 (streamRing x.1) = (s.dev.ringPi i.1 (streamRing x.1) + 1) % 2 ^ 32 ∧
      (t.dev.slices[i]).blk[x] =
        if s.dev.sealing i.1 x.1 then (s.dev.slices[i]).blk[x] ++ [e.bytes] else (s.dev.slices[i]).blk[x]) ∧
  (∀ (s : State) (i : Fin 64) (c : Ckpt), Clean s → Live s → s.dev.bit Reg.DPL_CFG_EN = false → (s.dev.slices[i]).ckpt = some c →
    let addr := s.dev.f64 (Reg.LDG_CK_BASE_LO_ADDR i.1) (Reg.LDG_CK_BASE_HI_ADDR i.1) + c.slot * 0x5000
    s.dev.pathUp i.1 (s.dev.f (Reg.LDG_CFG_LOC i.1)) addr (0x260 + 64 * c.rows.length) = true →
    c.rows.all (fun r => r.2.2.2.isSome || s.dev.cutReady r.1) = true →
    ∃ (t : State) (sig : List Byte), Sys2Proof.Machine.exec (.checkpointWrite i) s = .next t ∧
      Mem.reads t.mem t.dev.ep (s.dev.memKey i.1 (s.dev.f (Reg.LDG_CFG_LOC i.1)) addr) (s.dev.ckBody c ++ sig).length =
        s.dev.ckBody c ++ sig ∧
      (t.dev.slices[i]).prevHash = Config.sha384 (s.dev.ckBody c ++ sig) ∧ (t.dev.slices[i]).ckpt = none) ∧
  (∀ (s : State) (v : Fin 16), Live s → s.dev.now % 400000000 = 0 →
    Answers (.divergenceCheck v) s (fun t =>
      (t.dev.vats[v]).div = (s.dev.now, 0xFFFF &&& (if s.dev.integrating v then s.dev.popMask v else 0)) ∧
      ∀ k : Fin 16, t.dev.tb (Reg.VAT_LDG_DIV_CH v.1) k.1 =
        if s.dev.integrating v = true ∧ k.1 < s.dev.populated v then s.dev.tb (Reg.VAT_LDG_DIV_CH v.1) k.1
        else (s.dev.tb (Reg.VAT_LDG_DIV_CH v.1) k.1 || !(((s.dev.vats[v]).meas[k]).a.agrees ((s.dev.vats[v]).meas[k]).b)))) ∧
  (∀ (s : State) (v k : Fin 16) (z : ZOut) (m : Meas), Live s →
    ((s.dev.vats[v]).meas[k]).sinc4 true (s.dev.iFs v) (s.dev.vFs v) = some (z, m) → s.dev.calWaits v k (640 * z.m) = false →
    (s.dev.vats[v]).div.2.testBit k.1 = true → (s.dev.vats[v]).div.1 < 640 * z.m →
    Answers (.sinc4Output v k true) s (fun t => t.dev.tb (Reg.VAT_LDG_DIV_CH v.1) k.1 =
      (s.dev.tb (Reg.VAT_LDG_DIV_CH v.1) k.1 || !(((s.dev.vats[v]).meas[k]).a.agrees ((s.dev.vats[v]).meas[k]).b)))) ∧
  (∀ (s : State) (src : Src) (i : Fin 64) (w : Word), Reaches s src (Reg.LDG_CFG_at i.1) → w.toNat.testBit 0 = true →
    s.dev.f (Reg.LDG_CFG_EN i.1) = 0 →
    let loc := bits w.toNat (Reg.LDG_CFG_LOC i.1).lo (Reg.LDG_CFG_LOC i.1).w
    (loc = 2 ∨ loc < 2 ∧ loc = s.dev.f (Reg.SLC_PASID_PORT i.1)) →
    Answers (.chainStart src i w) s (fun t => t.dev.bit (Reg.LDG_CFG_EN i.1) = true ∧ (t.dev.slices[i]).chainStart = true ∧
      (t.dev.slices[i]).prevHash = [] ∧ ∀ x : Fin 5, (t.dev.slices[i]).blockNo[x] = 0 ∧ (t.dev.slices[i]).head[x] = [] ∧
        (t.dev.slices[i]).blk[x] = [])) ∧
  (∀ (s : State) (src : Src) (i : Fin 64) (w : Word), Reaches s src (Reg.LDG_CFG_at i.1) → w.toNat.testBit 0 = false →
    w.toNat.testBit 1 = false → s.dev.bit (Reg.LDG_CFG_SEAL i.1) = true → s.dev.f (Reg.LDG_CFG_EN i.1) = 0 →
    Answers (.sealClear src i w) s (fun t => t.dev.bit (Reg.LDG_CFG_SEAL i.1) = false)) ∧
  (∀ (s : State) (i : Fin 64), Live s → s.dev.bit (Reg.LDG_CFG_EN i.1) = true → s.dev.f (Reg.SLC_STATE_STATE i.1) ≠ 0 →
    s.dev.now % (s.dev.f (Reg.LDG_CFG_PERIOD i.1) * 40000000) = 0 →
    (s.dev.slices[i]).closingDone = false →
    Answers (.checkpoint i) s (fun t =>
      if s.dev.ckBarred i.1 then
        t.dev.f (Reg.LDG_CK_SKIP_COUNT i.1) = min (2 ^ (Reg.LDG_CK_SKIP_COUNT i.1).w - 1) (s.dev.f (Reg.LDG_CK_SKIP_COUNT i.1) + 1) ∧
        (t.dev.slices[i]).ckpt = (s.dev.slices[i]).ckpt
      else ∃ c, (t.dev.slices[i]).ckpt = some c ∧ c.inst = s.dev.now ∧ c.closing = (s.dev.f (Reg.SLC_STATE_STATE i.1) == 2 && s.dev.atRest i.1) ∧
        c.slot = s.dev.f (Reg.LDG_CK_PI_PI i.1) % 2 ^ s.dev.f (Reg.LDG_CFG_CK_LOG2 i.1))) ∧
  (∀ (s : State) (src : Src) (i : Fin 64) (w : Word), Reaches s src (Reg.LDG_CK_CI_at i.1) →
    Answers (.ldgCkCiWrite src i w) s (fun t =>
      if 0 ≤ sdiff32 w.toNat (s.dev.f (Reg.LDG_CK_CI_CI i.1)) ∧ 0 ≤ sdiff32 (s.dev.f (Reg.LDG_CK_PI_PI i.1)) w.toNat then
        t.dev.f (Reg.LDG_CK_CI_CI i.1) = w.toNat
      else t.dev.f (Reg.LDG_CK_CI_CI i.1) = s.dev.f (Reg.LDG_CK_CI_CI i.1) ∧
        t.dev.f (Reg.SLC_DB_ERR_COUNT i.1) = min (2 ^ (Reg.SLC_DB_ERR_COUNT i.1).w - 1) (s.dev.f (Reg.SLC_DB_ERR_COUNT i.1) + 1))) ∧
  (∀ (s : State) (src : Src) (v k : Fin 16) (w : Word) (h : Nat × Nat × Int), Reaches s src (Reg.VAT_LDG_SNAP_at v.1) →
    w.toNat = k.1 → ((s.dev.vats[v]).meas[k]).a.hist.head? = some h →
    Answers (.ldgSnap src v w) s (fun t =>
      let a := ((s.dev.vats[v]).meas[k]).a
      t.dev.f64 (Reg.VAT_LDG_SNAPTS_LO_TS v.1) (Reg.VAT_LDG_SNAPTS_HI_TS v.1) = 640 * h.1 % 2 ^ 64 ∧
      (∀ n < 3, t.dev.f (Reg.VAT_LDG_TOT_WORD v.1 n) = a.qIn / 256 / 2 ^ (32 * n) % 2 ^ 32) ∧
      (∀ n < 3, t.dev.f (Reg.VAT_LDG_TOT_WORD v.1 (3 + n)) = a.qOut / 256 / 2 ^ (32 * n) % 2 ^ 32) ∧
      (∀ n < 3, t.dev.f (Reg.VAT_LDG_TOT_WORD v.1 (6 + n)) = a.eIn / 256 / 2 ^ (32 * n) % 2 ^ 32) ∧
      (∀ n < 3, t.dev.f (Reg.VAT_LDG_TOT_WORD v.1 (9 + n)) = a.eOut / 256 / 2 ^ (32 * n) % 2 ^ 32)))

/-- Sweeps (R195–R197, R208, R211). Where it rests on choices or readings of the model: log entries 39 and 60. -/
def Obligations.ImpedanceSweepsRun : Prop :=
  (∀ (s : State) (src : Src) (v : Fin 16) (w : Word), Reaches s src (Reg.IMP_CTL_at v.1) → w.toNat.testBit 0 = true →
    w.toNat.testBit 1 = false →
    Answers (.impStart src v w) s (fun t =>
      if s.dev.bit (Reg.IMP_STAT_BUSY v.1) then (t.dev.vats[v]).imp = (s.dev.vats[v]).imp ∧
        t.dev.evlog.head? = some ⟨0x04, 0xFF, accInfo src true 0, Reg.IMP_CTL_at v.1 - 0x20000000, s.dev.now⟩
      else (t.dev.vats[v]).imp = { (s.dev.vats[v]).imp with startReq := some s.dev.now })) ∧
  (∀ (s : State) (src : Src) (v : Fin 16) (w : Word), Reaches s src (Reg.IMP_CTL_at v.1) → w.toNat.testBit 0 = false →
    w.toNat.testBit 1 = true →
    Answers (.impStop src v w) s (fun t => (t.dev.vats[v]).imp =
      if s.dev.bit (Reg.IMP_STAT_BUSY v.1) then
        { (s.dev.vats[v]).imp with stopReq := some ((s.dev.vats[v]).imp.stopReq.getD s.dev.now) }
      else { (s.dev.vats[v]).imp with startReq := none })) ∧
  (∀ (s : State) (v : Fin 16) (t0 : Nat), Live s → s.dev.settledAt s.dev.periodStart = true → s.dev.fenced v = false →
    (s.dev.vats[v]).imp.stopReq = none → s.dev.bit (Reg.IMP_STAT_BUSY v.1) = false → (s.dev.vats[v]).imp.point = none →
    (s.dev.vats[v]).imp.startReq = some t0 → t0 < s.dev.periodStart →
    Answers (.pointStart v) s (fun t => t.dev.bit (Reg.IMP_STAT_BUSY v.1) = true ∧ t.dev.f (Reg.IMP_STAT_POINT v.1) = 0 ∧
      t.dev.f (Reg.IMP_STAT_SWEEP v.1) = (s.dev.f (Reg.IMP_STAT_SWEEP v.1) + 1) % 2 ^ (Reg.IMP_STAT_SWEEP v.1).w ∧
      (t.dev.vats[v]).imp.startReq = none ∧
      ∃ p, (t.dev.vats[v]).imp.point = some p ∧ p.p0 = s.dev.periodStart ∧
        p.inc = (2 * s.dev.f (Reg.IMP_FREQ_FREQ v.1 0) * 2 ^ 48 + 10 ^ 12) / (2 * 10 ^ 12) ∧
        p.wStart = p.p0 + 640 * ((s.dev.f (Reg.IMP_PCFG_SETTLE v.1 0) * 400 * 2 ^ 48 + (640 * p.inc - 1)) / (640 * p.inc)) ∧
        p.wEnd = p.wStart + 640 * max 1 ((2 * (s.dev.f (Reg.IMP_PCFG_CYCLES v.1 0) + 1) * 400 * 2 ^ 48 + 640 * p.inc) /
          (2 * 640 * p.inc)))) ∧
  (∀ (s : State) (v : Fin 16) (p : ImpPoint), Live s → (s.dev.vats[v]).imp.point = some p →
    p.wEnd ≤ s.dev.now → s.dev.ticksDone v p.wEnd = true →
    s.dev.f (Reg.IMP_CFG_NPTS v.1) ≤ p.p + 1 → s.dev.bit (Reg.IMP_CFG_REPEAT v.1) = false →
    Answers (.pointEnd v) s (fun t => (t.dev.vats[v]).imp.point = none ∧ t.dev.bit (Reg.IMP_STAT_BUSY v.1) = false ∧
      t.dev.tb (Reg.IMP_EVT_DONE v.1) 0 = true)) ∧
  (∀ (s : State) (v : Fin 16) (p : ImpPoint) (rest : List ImpPoint), Live s → (s.dev.vats[v]).imp.point = none →
    (s.dev.vats[v]).imp.fin = p :: rest →
    Answers (.pointEnd v) s (fun t => (t.dev.vats[v]).imp.fin = if s.dev.impReady v p then rest else p :: rest)) ∧
  (∀ (s : State) (v : Fin 16) (e : SEntry), Clean s → Live s → s.dev.bit Reg.DPL_CFG_EN = false → (s.dev.vats[v]).imp.buf = [e] →
    s.dev.impRing e.slice.1 e.ring = true → s.dev.ringReady e.slice.1 (streamRing e.ring) = true →
    e.ch / 16 = v.1 → s.dev.impInOrder e = true → s.dev.impWaiting e.slice.1 e.ring = [e] →
    Answers (.impRecordDeliver v) s (fun t => (t.dev.vats[v]).imp.buf = [] ∧
      Stored s t (s.dev.memKey e.slice.1 (s.dev.f (Reg.SLC_RING_CFG_LOC e.slice.1 (streamRing e.ring).1))
        (s.dev.entryAddr e.slice.1 (streamRing e.ring).1 (s.dev.ringPi e.slice.1 (streamRing e.ring)))) e.bytes))

/-- The life of a slice (R216, R217, R218, R339). Where it rests on choices or readings of the model: log entry 61. -/
def Obligations.SlicesComeAndGo : Prop :=
  (∀ (s : State) (src : Src) (w : Word) (i : Fin 64), Reaches s src Reg.SLICE_CMD_at → s.dev.bit Reg.SLICE_CMD_STAT_BUSY = false →
    bits w.toNat 8 3 = 1 → bits w.toNat 0 6 = i.1 → i ≠ 0 →
    Answers (.create src w) s (fun t =>
      match s.dev.createFails i.1 with
      | some r => t.dev.f Reg.SLICE_CMD_STAT_RESULT = r ∧ t.dev.bit Reg.SLICE_CMD_STAT_BUSY = false ∧
          t.dev.f (Reg.SLC_STATE_STATE i.1) = s.dev.f (Reg.SLC_STATE_STATE i.1) ∧ ∀ v k : Fin 16, t.dev.chan v k = s.dev.chan v k
      | none => t.dev.f (Reg.SLC_STATE_STATE i.1) = 1 ∧ t.dev.bit Reg.SLICE_CMD_STAT_BUSY = true ∧
          t.dev.sliceCmd = some (1, i.1, s.dev.now) ∧ (∀ r < 8, t.dev.bit (Reg.SLC_RING_CFG_EN i.1 r) = false) ∧
          ∀ v k : Fin 16, (t.dev.chan v k).owner = if s.dev.named i.1 v k then some i else (s.dev.chan v k).owner)) ∧
  (∀ (s : State) (i : Fin 64) (t0 kl ks : Nat) (rest : List Nat), Live s → s.dev.sliceCmd = some (1, i.1, t0) →
    s.dev.bit Reg.MORD_STAT_DRBG_OK = true → s.dev.devKeys = true → s.dev.emptyKeys = kl :: ks :: rest →
    Answers (.createComplete i) s (fun t => t.dev.f Reg.SLICE_CMD_STAT_RESULT = 1 ∧ t.dev.bit Reg.SLICE_CMD_STAT_BUSY = false ∧
      t.dev.f (Reg.SLC_STATE_KEY_LDG i.1) = kl ∧ t.dev.f (Reg.SLC_STATE_KEY_SIG i.1) = ks ∧
      t.dev.slotState kl = 1 ∧ t.dev.slotState ks = 1)) ∧
  (∀ (s : State) (src : Src) (w : Word) (i : Fin 64), Reaches s src Reg.SLICE_CMD_at → s.dev.bit Reg.SLICE_CMD_STAT_BUSY = false →
    bits w.toNat 8 3 = 2 → bits w.toNat 0 6 = i.1 → i ≠ 0 →
    (s.dev.f (Reg.SLC_STATE_STATE i.1) = 1 ∨ s.dev.f (Reg.SLC_STATE_STATE i.1) = 3) →
    Answers (.destroy src w) s (fun t => t.dev.f (Reg.SLC_STATE_STATE i.1) = 2 ∧ t.dev.sliceCmd = some (2, i.1, s.dev.now) ∧
      (t.dev.slices[i]).tearAt = some s.dev.now ∧
      ∀ v k : Fin 16, (s.dev.chan v k).owner = some i → (t.dev.chan v k).stopReq = (s.dev.chan v k).stopReq ++ [teardownAbort])) ∧
  (∀ (s : State) (i : Fin 64), Live s → s.dev.f (Reg.SLC_STATE_STATE i.1) = 2 → (s.dev.slices[i]).closingDone = false →
    s.dev.bit (Reg.LDG_CFG_EN i.1) = true → s.dev.atRest i = true → s.dev.ckBarred i.1 = false → s.dev.now % 640 = 0 →
    Answers (.closingCheckpoint i) s (fun t => (t.dev.slices[i]).closingDone = true ∧
      ∃ c, (t.dev.slices[i]).ckpt = some c ∧ c.closing = true ∧ c.inst = s.dev.now)) ∧
  (∀ (s : State) (i : Fin 64) (t0 : Nat), Live s → s.dev.f (Reg.SLC_STATE_STATE i.1) = 2 → (s.dev.slices[i]).tearAt = some t0 →
    t0 + 400000000 ≤ s.dev.now → (s.dev.slices[i]).deadline = false →
    Answers (.teardownDeadline i) s (fun t => (t.dev.slices[i]).cmps = [] ∧ (t.dev.slices[i]).ckpt = none ∧ (t.dev.slices[i]).deadline = true ∧
      ∀ v : Fin 16, (∀ e ∈ (t.dev.vats[v]).sbuf, e.slice ≠ i) ∧ ∀ e ∈ (t.dev.vats[v]).imp.buf, e.slice ≠ i)) ∧
  (∀ (s : State) (i : Fin 64), Live s → s.dev.f (Reg.SLC_STATE_STATE i.1) = 2 → s.dev.atRest i = true → s.dev.delivered i = true →
    (s.dev.slices[i]).closingDone = true →
    Answers (.teardownDone i) s (fun t => t.dev.f (Reg.SLC_STATE_STATE i.1) = 0 ∧ t.dev.f Reg.SLICE_CMD_STAT_RESULT = 1 ∧
      (∀ v k : Fin 16, (t.dev.chan v k).owner ≠ some i) ∧
      ∀ n < 128, (n = s.dev.f (Reg.SLC_STATE_KEY_LDG i.1) ∨ n = s.dev.f (Reg.SLC_STATE_KEY_SIG i.1)) → t.dev.slotState n ≠ 1))

/-- Moving and changing slices (R221, R227, R230, R231). Where it rests on choices or readings of the model: log entries 61 and 109. -/
def Obligations.SlicesMoveAndChange : Prop :=
  (∀ (s : State) (src : Src) (w : Word) (i : Fin 64), Reaches s src Reg.SLICE_CMD_at → s.dev.bit Reg.SLICE_CMD_STAT_BUSY = false →
    bits w.toNat 0 6 = i.1 →
    (bits w.toNat 8 3 = 4 → i ≠ 0 → s.dev.f (Reg.SLC_STATE_STATE i.1) = 1 → s.dev.bit Reg.DPL_STAT_OVF = false →
      s.dev.linkUp (bits w.toNat 16 1) = true → (s.dev.vecBase (bits w.toNat 16 1) (s.dev.f (Reg.SLC_VEC_COUNT i.1))).isSome = true →
      s.dev.pasidOk i.1 (bits w.toNat 16 1) (s.dev.f (Reg.SLC_MIG_NEW_PASID i.1)) = true →
      Answers (.migrate src w) s (fun t => (t.dev.slices[i]).migPort = some (bits w.toNat 16 1) ∧
        t.dev.sliceCmd = some (4, i.1, s.dev.now) ∧ t.dev.dmaRuns i.1 = false)) ∧
    (bits w.toNat 8 3 = 5 → s.dev.f (Reg.SLC_STATE_STATE i.1) = 3 → bits w.toNat 16 1 = s.dev.f (Reg.SLC_PASID_PORT i.1) →
      Answers (.sliceResume src w) s (fun t => t.dev.f (Reg.SLC_STATE_STATE i.1) = 1 ∧ (t.dev.slices[i]).migPort = none ∧
        (t.dev.slices[i]).wbDirty = true ∧ t.dev.f Reg.SLICE_CMD_STAT_RESULT = 1)) ∧
    (bits w.toNat 8 3 = 6 → i ≠ 0 → s.dev.f (Reg.SLC_STATE_STATE i.1) = 1 → s.dev.bit Reg.SLICE_MODE_STRICT = false →
      s.dev.bit Reg.SLICE_MODE_LEGACY = true → (∃ v k : Fin 16, s.dev.toMove i v k = true) →
      Answers (.resize src w) s (fun t => t.dev.sliceCmd = some (6, i.1, s.dev.now) ∧ t.dev.bit Reg.SLICE_CMD_STAT_BUSY = true))) ∧
  (∀ (s : State) (i : Fin 64) (t0 : Nat), Live s → s.dev.sliceCmd = some (4, i.1, t0) →
    Answers (.freeze i) s (fun t => t.dev.f (Reg.SLC_STATE_STATE i.1) = 3 ∧ (t.dev.slices[i]).frozenAt = s.dev.now ∧
      t.dev.f Reg.SLICE_CMD_STAT_RESULT = 1 ∧ t.dev.sliceCmd = none)) ∧
  (∀ (s : State) (i : Fin 64), Live s → s.dev.f (Reg.SLC_STATE_STATE i.1) = 3 →
    (s.dev.slices[i]).frozenAt + 400000 * s.dev.f (Reg.SLC_WDOG_FREEZE_MAX i.1) ≤ s.dev.now →
    Answers (.freezeMaxExpiry i) s (fun t => t.dev.bit (Reg.SLC_STATE_ORPHAN i.1) = true ∧ t.dev.f (Reg.SLC_STATE_STATE i.1) = 3)) ∧
  (∀ (s : State) (v k : Fin 16) (i : Fin 64) (t0 : Nat), Live s → s.dev.sliceCmd = some (6, i.1, t0) →
    (s.dev.named i.1 v k = true → s.dev.givable v k = true →
      Answers (.channelMove v k) s (fun t => (t.dev.chan v k).owner = some i ∧ OtherChans s t v k)) ∧
    (s.dev.named i.1 v k = false → (s.dev.chan v k).owner = some i → (s.dev.chan v k).st = .idle → (s.dev.chan v k).queue = [] →
      (s.dev.chan v k).run = none →
      Answers (.channelMove v k) s (fun t => (t.dev.chan v k).owner = none ∧ OtherChans s t v k))) ∧
  (∀ (s : State) (i : Fin 64) (t0 : Nat), Live s → s.dev.sliceCmd = some (6, i.1, t0) → t0 + 4000000000 ≤ s.dev.now →
    Answers .resizeTimeout s (fun t => t.dev.f Reg.SLICE_CMD_STAT_RESULT = 4 ∧ t.dev.bit Reg.SLICE_CMD_STAT_BUSY = false ∧
      t.dev.sliceCmd = none ∧ ∀ v k : Fin 16, t.dev.chan v k = s.dev.chan v k)) ∧
  (∀ (s : State) (src : Src) (w : Word), Reaches s src Reg.SLICE_MODE_at → (w.toNat.testBit 0 && w.toNat.testBit 1) = false →
    (∀ i : Fin 64, i ≠ 0 → s.dev.f (Reg.SLC_STATE_STATE i.1) = 0) →
    (∀ v k : Fin 16, (s.dev.chan v k).owner = some 0 → (s.dev.chan v k).st = .idle) →
    Answers (.sliceModeWrite src w) s (fun t => t.dev.bit Reg.SLICE_MODE_STRICT = w.toNat.testBit 0 ∧
      t.dev.bit Reg.SLICE_MODE_LEGACY = w.toNat.testBit 1))

/-- Watchdog and ATTACH (R118, R219, R220). Where it rests on choices or readings of the model: log entry 112. -/
def Obligations.AttachAndControllerWatchdog : Prop :=
  (∀ (s : State) (i : Fin 64), Live s → s.dev.f (Reg.SLC_STATE_STATE i.1) = 1 → s.dev.f (Reg.SLC_WDOG_TIMEOUT i.1) ≠ 0 →
    s.dev.bit (Reg.SLC_STATE_ORPHAN i.1) = false → (s.dev.slices[i]).wdogAt + 400000 * s.dev.f (Reg.SLC_WDOG_TIMEOUT i.1) ≤ s.dev.now →
    Answers (.controllerWatchdogExpiry i) s (fun t => t.dev.bit (Reg.SLC_STATE_ORPHAN i.1) = true ∧
      ∀ v k : Fin 16,
        ((s.dev.chan v k).owner = some i → t.dev.chan v k = { s.dev.chan v k with
          orphan := some { policy := s.dev.f (Reg.SLC_ORPHAN_POLICY i.1), maxMs := s.dev.f (Reg.SLC_ORPHAN_MAX i.1), since := s.dev.now,
                           shown := match (s.dev.chan v k).orphan with | some o => o.shown | none => false } }.logOrphan s.dev.now) ∧
        ((s.dev.chan v k).owner ≠ some i → t.dev.chan v k = s.dev.chan v k))) ∧
  (∀ (s : State) (src : Src) (w : Word) (i : Fin 64), Reaches s src Reg.SLICE_CMD_at → s.dev.bit Reg.SLICE_CMD_STAT_BUSY = false →
    bits w.toNat 8 3 = 3 → bits w.toNat 0 6 = i.1 →
    let ok := s.dev.f (Reg.SLC_STATE_STATE i.1) = 1 ∧ s.dev.bit (Reg.SLC_STATE_ORPHAN i.1) = true ∧ s.dev.pathsUp i.1 = true ∧
      s.dev.f (Reg.SLC_RING_STAT_DMA_ERR i.1) = 0
    Answers (.attach src w) s (fun t =>
      (ok → t.dev.bit (Reg.SLC_STATE_ORPHAN i.1) = false ∧ (t.dev.slices[i]).wdogAt = s.dev.now ∧ t.dev.f Reg.SLICE_CMD_STAT_RESULT = 1 ∧
        ∀ v k : Fin 16, (s.dev.chan v k).owner = some i →
          (t.dev.chan v k).orphan = (s.dev.chan v k).orphan.map (fun o => { o with endAt := some s.dev.now })) ∧
      (¬ ok → t.dev.bit (Reg.SLC_STATE_ORPHAN i.1) = s.dev.bit (Reg.SLC_STATE_ORPHAN i.1) ∧ t.dev.f Reg.SLICE_CMD_STAT_RESULT = 7)))

/-- Frames through the switch (R233–R241, R250, R251). Where it rests on choices or readings of the model: log entries 64, 65, 68 and 131. -/
def Obligations.SwitchMovesFrames : Prop :=
  (∀ (s : State) (p : Fin 6) (o : Fin 8) (bs : List Byte) (good : Bool) (stamp : Nat), Live s →
    let q := p8 p.1
    let at_ := s.dev.rxStamp q stamp
    let f := s.dev.frameFor q o bs at_
    let bad := !good || s.dev.badLength bs
    s.dev.removed q = false → s.dev.serdesOff q = false → beAt bs 0 6 ≠ 0x0180C2000001 →
    beAt bs 0 6 ≠ 0x0180C200000E → etherType bs ≠ s.dev.f Reg.JASIA_ETYPE_ETYPE → s.dev.filtered q bs = false →
    (s.dev.vlan (s.dev.classify q bs).1).learn = false → s.dev.ptpKept q bs = false →
    s.dev.lookup q bs (s.dev.classify q bs).1 = (2 ^ o.1, false) → s.dev.removed o = false →
    (bad = true → s.dev.cutOk q o f = true) → s.dev.room o f = true → (s.dev.port q).stage = [] →
    Answers (.frameReceive p bs good stamp) s (fun t => ∃ id,
      (t.dev.port o).queues[f.q] = (s.dev.port o).queues[f.q] ++ [{ f with id := id, cut := s.dev.cutOk q o f, bad := bad }])) ∧
  (∀ (s : State) (p : Fin 6) (bs : List Byte) (good : Bool) (stamp : Nat), Live s →
    let q := p8 p.1
    let at_ := s.dev.rxStamp q stamp
    s.dev.removed q = false → s.dev.serdesOff q = false → (good = true → s.dev.badLength bs = true) → s.dev.filtered q bs = false →
    s.dev.ptpKept q bs = false → (∀ o : Fin 8, s.dev.cutOk q o (s.dev.frameFor q o bs at_) = false) →
    Answers (.frameReceive p bs good stamp) s (fun t => t.dev.sw = s.dev.sw ∧
      t.dev.f64 (Reg.SW_P_CNT_LO_COUNT q.1 4) (Reg.SW_P_CNT_HI_COUNT q.1 4) =
        (s.dev.f64 (Reg.SW_P_CNT_LO_COUNT q.1 4) (Reg.SW_P_CNT_HI_COUNT q.1 4) + 1) % 2 ^ 64)) ∧
  (∀ (s : State) (i : Fin 8) (x : SwXfer), Live s → s.dev.now % 20 = 0 → (∀ j : Fin 8, (s.dev.port j).stage = [] ∧ (s.dev.port j).hold = []) →
    (s.dev.port i).xfer = [x] → (∀ j : Fin 8, j ≠ i → (s.dev.port j).xfer = []) →
    Answers .fabricRound s (fun t => (t.dev.port i).xfer = (if x.left ≤ 1 then [] else [{ x with left := x.left - 1 }]) ∧
      ∀ q : Fin 8, (t.dev.port x.dest).queues[q] = ((s.dev.port x.dest).queues[q]).map (fun f =>
        if f.id = x.id then { f with arrived := f.arrived + 1 } else f))) ∧
  (∀ (s : State) (p q : Fin 8) (f : SwFrame) (egress : Nat), Live s → p.1 < 6 → s.dev.removed p = false → s.dev.serdesOff p = false →
    (∀ j : Fin 8, (s.dev.port j).stage = [] ∧ (s.dev.port j).hold = []) → (s.dev.port p).busyTill ≤ s.dev.now →
    (p.1 < 2 → (s.dev.port p).preempt = true → expressFrame (s.dev.port p) = none) → headReady (s.dev.port p) q = some f → f.bad = false →
    s.dev.queuePaused p q = false → s.dev.f (Reg.SW_P_SCHED_SP_FROM p.1) ≤ q.1 → (∀ j : Fin 8, q.1 < j.1 → headReady (s.dev.port p) j = none) →
    Answers (.frameTransmit p egress) s (fun t =>
      let bs := (s.dev.residence f.inp p f.stamp egress (s.dev.egressBytes p f)).1
      Output.frame p.1 (bs ++ leBytes 4 (crc32 bs)) ∈ t.dev.out ∧ (t.dev.port p).queues[q] = ((s.dev.port p).queues[q]).drop 1)) ∧
  (∀ (s : State), Live s → s.dev.bit Reg.SW_C_CFG_EN = true → s.dev.f Reg.SW_C_TX_PI_IDX ≠ s.dev.f Reg.SW_C_TX_CI_IDX → s.dev.removed 6 = false → s.dev.sup.warm = none →
    let e := s.dev.cEntry Reg.SW_C_TX_LO_ADDR Reg.SW_C_TX_HI_ADDR (s.dev.f Reg.SW_C_TX_CI_IDX)
    s.dev.reach 9 0 .read e 16 = .opened → s.dev.reach 9 0 .read (s.memWord e 8 % 2 ^ 40) (s.memWord (e + 8) 2) = .opened →
    s.dev.allRoom 6 (s.memBytes (s.memWord e 8 % 2 ^ 40) (s.memWord (e + 8) 2)) = true →
    Answers .cTransmit s (fun t => t.dev.f Reg.SW_C_TX_CI_IDX = (s.dev.f Reg.SW_C_TX_CI_IDX + 1) % 2 ^ 32)) ∧
  (∀ (s : State) (x : Fin 64) (r : Fin 8), Live s → s.dev.removed 7 = false → s.dev.sup.warm = none → s.dev.expPick = some (x, r) →
    let i := s.dev.expNext x.1 r
    let n := min (min 255 ((s.dev.f Reg.SW_MAXFRM_BYTES - 38) / s.dev.entrySize x.1 r.1)) (sdiff32 (s.dev.ringPi x.1 r) i).toNat
    s.dev.expReach x r i n = .opened →
    s.dev.allRoom 7 (s.dev.expBytes s.memBytes x.1 r i n) = true →
    Answers .exportFrame s (fun t => t.dev.sw.expTurn = sl (x.1 + 1) ∧
      ∃ e, t.dev.sw.exp.head? = some e ∧ e.slice = x ∧ e.ring = r ∧ e.next = (i + n) % 2 ^ 32)) ∧
  (∀ (s : State) (x : Fin 64) (r : Fin 8) (w : Word), Live s →
    Answers (.exportAck x r w) s (fun t =>
      if 0 ≤ sdiff32 w.toNat (s.dev.slices[x]).ci[r] ∧ 0 ≤ sdiff32 (s.dev.slices[x]).pi[r] w.toNat then (t.dev.slices[x]).ci[r] = w.toNat
      else (t.dev.slices[x]).ci[r] = (s.dev.slices[x]).ci[r] ∧
        t.dev.f (Reg.SLC_DB_ERR_COUNT x.1) = min (2 ^ (Reg.SLC_DB_ERR_COUNT x.1).w - 1) (s.dev.f (Reg.SLC_DB_ERR_COUNT x.1) + 1))) ∧
  (∀ (s : State) (x : Fin 64) (r : Fin 8), Live s → s.dev.removed 7 = false → s.dev.sup.warm = none →
    (∃ e ∈ s.dev.sw.exp, e.slice = x ∧ e.ring = r ∧ ∃ y ∈ e.sent, y.2 + 400000 * s.dev.f Reg.SW_EXP_CFG_RTO ≤ s.dev.now) →
    let i := s.dev.ringCi x.1 r
    let n := min (min 255 ((s.dev.f Reg.SW_MAXFRM_BYTES - 38) / s.dev.entrySize x.1 r.1)) (sdiff32 (s.dev.ringPi x.1 r) i).toNat
    s.dev.expReach x r i n = .opened →
    s.dev.allRoom 7 (s.dev.expBytes s.memBytes x.1 r i n) = true →
    Answers (.exportResend x r) s (fun t => ∃ e, t.dev.sw.exp.head? = some e ∧ e.slice = x ∧ e.ring = r ∧ e.next = (i + n) % 2 ^ 32 ∧
      e.sent = [((i + n) % 2 ^ 32, s.dev.now)]))

/-- Ports (R242–R244, R246–R249). Where it rests on choices or readings of the model: log entry 64. -/
def Obligations.SwitchPortsAndPauses : Prop :=
  (∀ (s : State) (p q : Fin 8), Live s → s.dev.tb (Reg.SW_P_STAT_XOFF p.1) q.1 = true → s.dev.f (Reg.SW_P_CFG_FC p.1) ≠ 0 →
    (s.dev.port p).xoffAt[q] + s.dev.quantaTime p 0xFFFF / 2 ≤ s.dev.now →
    Answers (.xoffRefresh p) s (fun t => (t.dev.port p).xoffAt[q] = s.dev.now ∧
      ∃ m, m.testBit q.1 = true ∧ (∀ j : Fin 8, m.testBit j.1 = (s.dev.tb (Reg.SW_P_STAT_XOFF p.1) j.1 &&
          decide ((s.dev.port p).xoffAt[j] + s.dev.quantaTime p 0xFFFF / 2 ≤ s.dev.now))) ∧
        t.dev.out = .pauseFrame p.1 (s.dev.f (Reg.SW_P_CFG_FC p.1) == 2) m 0xFFFF :: s.dev.out)) ∧
  (∀ (s : State) (p : Fin 6) (m n : Nat) (rest : List Nat), Live s →
    Answers (.pauseReceive p false m (n :: rest)) s (fun t => ∀ q : Fin 8,
      t.dev.queuePaused (p8 p.1) q = decide (n ≠ 0) ∧
      (t.dev.port (p8 p.1)).paused[q] = if n = 0 then 0 else max s.dev.now (s.dev.port (p8 p.1)).busyTill + s.dev.quantaTime (p8 p.1) n)) ∧
  (∀ (s : State) (p : Fin 6), Live s →
    Answers (.pauseExpiry p) s (fun t => ∀ q : Fin 8, t.dev.queuePaused (p8 p.1) q =
      (s.dev.queuePaused (p8 p.1) q && decide (s.dev.now < (s.dev.port (p8 p.1)).paused[q])))) ∧
  (∀ (s : State) (p : Fin 8), Live s →
    Answers (.mcastHoldExpiry p) s (fun t => (t.dev.port p).hold =
      (s.dev.port p).hold.filter (fun h => decide (s.dev.now < h.2.1 + 40000 * s.dev.f Reg.SW_CTL_MCAST_HOLD)))) ∧
  (∀ (s : State) (leaks : List Nat), Live s → s.dev.sw.auditAt + 400000 * s.dev.f Reg.SW_AUDIT_PERIOD ≤ s.dev.now → leaks.Nodup →
    Answers (.auditPass leaks 0) s (fun t => t.dev.sw.auditAt = s.dev.now ∧
      t.dev.sw.unlisted = leaks.filter (fun c => !s.dev.sw.unlisted.contains c) ∧
      t.dev.f Reg.SW_AUDIT_LEAK_COUNT = min (2 ^ Reg.SW_AUDIT_LEAK_COUNT.w - 1)
        (s.dev.f Reg.SW_AUDIT_LEAK_COUNT + (leaks.filter (fun c => s.dev.sw.unlisted.contains c)).length))) ∧
  (∀ (s : State) (p : Fin 8) (up : Bool) (mbps : Nat), Live s → s.dev.bit (Reg.SW_P_STAT_LINK p.1) ≠ up →
    Answers (.portLinkChange p up mbps) s (fun t => t.dev.bit (Reg.SW_P_STAT_LINK p.1) = up ∧ (t.dev.port p).linkAt = s.dev.now ∧
      (t.dev.port p).mbps = mbps)) ∧
  (∀ (s : State) (p : Fin 8), Live s → s.dev.removed p = false →
    (p.1 < 6 ∨ (p = 6 ∧ ∀ n < 4, s.dev.bit (Reg.CORE_STAT_FENCED n) = true) ∨ p = 7) →
    Answers (.portRemoval p (if p.1 < 6 then 1 else if p = 6 then 2 else 3)) s (fun t => t.dev.removed p = true ∧
      t.dev.tb Reg.SYS_FENCE_PORT p.1 = true ∧ (∀ q : Fin 8, (t.dev.port p).queues[q] = []) ∧ (t.dev.port p).stage = [] ∧
      (t.dev.port p).hold = [] ∧ ∀ e ∈ t.dev.sw.mac, e.ports.testBit p.1 = false)) ∧
  (∀ (s : State) (src : Src) (w : Word), Reaches s src Reg.SW_PORT_REEN_at →
    Answers (.portReenable src w) s (fun t => ∀ p : Fin 8,
      t.dev.removed p = (s.dev.removed p && !(w.toNat.testBit p.1 && s.dev.bit (Reg.SW_P_STAT_LINK p.1))))) ∧
  (∀ (s : State) (p : Fin 2) (ok : Bool), Live s →
    Answers (.preemptVerify p ok) s (fun t => t.dev.bit (Reg.SW_P_STAT_NOPREEMPT p.1) = !ok ∧ (t.dev.port (p8 p.1)).preempt = ok))

/-- Tables (R234, R236). -/
def Obligations.SwitchTablesReadAndWrite : Prop :=
  (∀ (s : State) (src : Src) (w : Word), Reaches s src Reg.SW_MAC_CMD_at →
    let i := bits w.toNat 16 13
    (bits w.toNat 0 3 = 1 → Answers (.macRead src w) s (fun t => t.dev.sw = s.dev.sw ∧
      match s.dev.macAt i with
      | some e => t.dev.bit Reg.SW_MAC_D2_VALID = true ∧ t.dev.f Reg.SW_MAC_D0_ADDR_LO = e.addr % 2 ^ 32 ∧
          t.dev.f Reg.SW_MAC_D2_PORTS = e.ports % 2 ^ Reg.SW_MAC_D2_PORTS.w ∧ t.dev.bit Reg.SW_MAC_D2_STATIC = e.static
      | none => t.dev.bit Reg.SW_MAC_D2_VALID = false)) ∧
    (bits w.toNat 0 3 = 2 → Answers (.macWrite src w) s (fun t =>
      if s.dev.bit Reg.SW_MAC_D2_VALID then
        t.dev.macAt i = some ⟨i, s.dev.macAddr, s.dev.f Reg.SW_MAC_D1_VID, s.dev.f Reg.SW_MAC_D2_PORTS, s.dev.bit Reg.SW_MAC_D2_STATIC,
          s.dev.now, true⟩ ∧ ∀ j, j ≠ i → t.dev.macAt j = s.dev.macAt j
      else t.dev.macAt i = none ∧ ∀ j, j ≠ i → t.dev.macAt j = s.dev.macAt j)) ∧
    (bits w.toNat 0 3 = 3 → Answers (.macLookup src w) s (fun t => t.dev.sw = s.dev.sw ∧
      match s.dev.macFind s.dev.macAddr (s.dev.f Reg.SW_MAC_D1_VID) with
      | some e => t.dev.bit Reg.SW_MAC_CMD_MISS = false ∧ t.dev.f Reg.SW_MAC_CMD_INDEX = e.idx % 2 ^ Reg.SW_MAC_CMD_INDEX.w
      | none => t.dev.bit Reg.SW_MAC_CMD_MISS = true)) ∧
    (bits w.toNat 0 3 = 4 → Answers (.macFlushPort src w) s (fun t =>
      t.dev.sw.mac = s.dev.sw.mac.filter (fun e => e.static || !e.ports.testBit (bits w.toNat 8 3)))) ∧
    (bits w.toNat 0 3 = 5 → Answers (.macFlushAll src w) s (fun t => t.dev.sw.mac = s.dev.sw.mac.filter (fun e => e.static)))) ∧
  (∀ (s : State) (i : Nat) (e : MacEntry), Live s → s.dev.macAt i = some e → e.static = false → s.dev.f Reg.SW_CTL_AGE ≠ 0 →
    e.since + 400000000 * s.dev.f Reg.SW_CTL_AGE ≤ s.dev.now →
    Answers (.ageOut i) s (fun t => t.dev.macAt i = none ∧ ∀ j, j ≠ i → t.dev.macAt j = s.dev.macAt j)) ∧
  (∀ (s : State) (src : Src) (w : Word), Reaches s src Reg.SW_VLAN_CMD_at → w.toNat.testBit 17 = true →
    let vid := bits w.toNat 0 12
    vid ≠ 0 → vid ≠ 4095 →
    (w.toNat.testBit 16 = false → Answers (.vlanRead src w) s (fun t => t.dev.sw = s.dev.sw ∧
      t.dev.f Reg.SW_VLAN_DATA_MEMBER = (s.dev.vlan vid).member % 2 ^ Reg.SW_VLAN_DATA_MEMBER.w ∧
      t.dev.f Reg.SW_VLAN_DATA_UNTAG = (s.dev.vlan vid).untag % 2 ^ Reg.SW_VLAN_DATA_UNTAG.w ∧
      t.dev.bit Reg.SW_VLAN_DATA_LEARN = (s.dev.vlan vid).learn)) ∧
    (w.toNat.testBit 16 = true → Answers (.vlanWrite src w) s (fun t =>
      t.dev.vlan vid = ⟨vid, s.dev.f Reg.SW_VLAN_DATA_MEMBER, s.dev.f Reg.SW_VLAN_DATA_UNTAG, s.dev.bit Reg.SW_VLAN_DATA_LEARN⟩ ∧
      ∀ x, x ≠ vid → t.dev.vlan x = s.dev.vlan x)))

/-- Barriers (R257–R260). Where it rests on choices or readings of the model: log entries 68 and 69. -/
def Obligations.BarriersSpread : Prop :=
  (∀ (s : State) (src : Src) (w : Word), Reaches s src Reg.JASIA_REQ_INST_HI_at →
    let inst := (s.dev.heldFor src Reg.JASIA_REQ_INST_LO_at).getD (s.dev.f Reg.JASIA_REQ_INST_LO_VALUE) + 2 ^ 32 * w.toNat
    let num := s.dev.f Reg.JASIA_REQ_NUM_VALUE
    let rep := s.dev.f Reg.JASIA_CFG_REPEAT
    let res := if s.dev.f Reg.JASIA_STAT_ROLE_NOW ≠ 1 then 2 else if s.dev.jasia.rep.isSome then 6 else if inst % 400 ≠ 0 then 5
      else if inst < s.dev.now + s.dev.f Reg.JASIA_LEAD_MIN ∨ s.dev.now + 40000000 < inst then 3
      else if sdiff32 num (s.dev.f Reg.JASIA_LAST_NUMBER) ≤ 0 then 4 else 1
    Answers (.barrierRequest src w) s (fun t => t.dev.f Reg.JASIA_REQ_STAT_RESULT = res ∧ (res ≠ 1 → t.dev.jasia = s.dev.jasia) ∧
      (res = 1 → t.dev.jasia.barriers = (⟨num, inst, s.dev.now, s.dev.f Reg.JASIA_STAT_EPOCH⟩ :: s.dev.jasia.barriers).take 16 ∧
        t.dev.f Reg.JASIA_LAST_NUMBER = num % 2 ^ 32 ∧
        t.dev.jasia.rep = if rep = 0 then none else some (s.dev.jFrames 1 num inst s.dev.now, rep, s.dev.now + 2000)))) ∧
  (∀ (s : State) (fs : List (Fin 8 × List Byte)) (left next : Nat), Live s → s.dev.jasia.rep = some (fs, left, next) → next ≤ s.dev.now →
    Answers .barrierRepeat s (fun t => t.dev.jasia.barriers = s.dev.jasia.barriers ∧
      t.dev.jasia.rep = (if left ≤ 1 then none else some (fs, left - 1, next + 2000)) ∧
      ((fs.map (fun y => y.1)).Nodup → ∀ y ∈ fs, s.dev.removed y.1 = false → ∃ f,
        (t.dev.port y.1).queues[s.dev.queueOf 7] = (s.dev.port y.1).queues[s.dev.queueOf 7] ++ [f] ∧ f.bytes = y.2))) ∧
  (∀ (s : State) (p : Fin 6) (bs : List Byte), Live s → s.dev.jActs p bs true 1 = true →
    jEpoch bs = s.dev.f Reg.JASIA_STAT_EPOCH → s.dev.wins (jEpoch bs) (jMaster bs) = false →
    ((∀ b ∈ s.dev.jasia.barriers, b.num ≠ jNumber bs) →
      Answers (.barrierAccept p bs true) s (fun t =>
        t.dev.jasia.barriers = (⟨jNumber bs, jInstant bs, s.dev.now, jEpoch bs⟩ :: s.dev.jasia.barriers).take 16)) ∧
    (∀ b, s.dev.jasia.barriers.find? (fun b => b.num == jNumber bs) = some b →
      Answers (.barrierAccept p bs true) s (fun t => t.dev.jasia = s.dev.jasia ∧
        (b.inst = jInstant bs → t.dev.f (Reg.JASIA_CNT_COUNT 1) = min (2 ^ 32 - 1) (s.dev.f (Reg.JASIA_CNT_COUNT 1) + 1)) ∧
        (b.inst ≠ jInstant bs → t.dev.f (Reg.JASIA_CNT_COUNT 2) = min (2 ^ 32 - 1) (s.dev.f (Reg.JASIA_CNT_COUNT 2) + 1) ∧
          t.dev.tb Reg.JASIA_EVT_CONFLICT 0 = true)))) ∧
  (∀ (s : State) (p : Fin 2) (bs : List Byte), Live s →
    let i := p8 p.1
    let o := p8 (1 - p.1)
    let out := splice bs 18 (leBytes 2 (jHop bs + 1))
    s.dev.isJasia ⟨p.1, by omega⟩ bs = true → s.dev.removed i = false → s.dev.branches = [] →
    (s.dev.f Reg.JASIA_HOPMAX_MAX ≤ jHop bs →
      Answers (.jasiaForward ⟨p.1, by omega⟩ bs true) s (fun t => t.dev.sw = s.dev.sw ∧
        t.dev.f (Reg.JASIA_CNT_COUNT 5) = min (2 ^ 32 - 1) (s.dev.f (Reg.JASIA_CNT_COUNT 5) + 1))) ∧
    (jHop bs < s.dev.f Reg.JASIA_HOPMAX_MAX → s.dev.jEnds bs = false → s.dev.badLength bs = false → s.dev.removed o = false → (s.dev.port i).stage = [] →
      s.dev.room o { inp := i, vid := 0, pcp := 7, q := s.dev.queueOf 7, cells := cellsOf (out.length + 4),
                     cut := s.dev.barrierClass bs && !s.dev.jasia.lateFwd, bad := false, barrier := s.dev.barrierClass bs, bytes := out } = true →
      Answers (.jasiaForward ⟨p.1, by omega⟩ bs true) s (fun t =>
        ∃ f, (t.dev.port o).queues[s.dev.queueOf 7] = (s.dev.port o).queues[s.dev.queueOf 7] ++ [f] ∧ f.bytes = out ∧
          f.barrier = s.dev.barrierClass bs)))

/-- Beacons and mastership (R262–R264). Where it rests on choices or readings of the model: log entries 69 and 109. -/
def Obligations.BeaconsElectTheMaster : Prop :=
  (∀ (s : State), Live s → s.dev.bit Reg.JASIA_CFG_EN = true → s.dev.f Reg.JASIA_STAT_ROLE_NOW = 1 →
    s.dev.jasia.sentAt + 400000 * s.dev.f Reg.JASIA_TIME_BEACON ≤ s.dev.now →
    Answers .beaconSend s (fun t => t.dev.jasia.sentAt = s.dev.now ∧
      (s.dev.removed 0 = false → ∃ f, (t.dev.port 0).queues[s.dev.queueOf 7] = (s.dev.port 0).queues[s.dev.queueOf 7] ++ [f] ∧
        f.bytes = s.dev.jFrame 0 2 0 (s.dev.f Reg.JASIA_LAST_NUMBER) 0 s.dev.now))) ∧
  (∀ (s : State) (p : Fin 2) (bs : List Byte), Live s → s.dev.jActs ⟨p.1, by omega⟩ bs true 2 = true →
    Answers (.beaconReceive ⟨p.1, by omega⟩ bs true) s (fun t => t.dev.jasia.lastBeacon = s.dev.now ∧
      t.dev.bit Reg.JASIA_STAT_MASTER_LOST = false ∧
      t.dev.f (if p = 0 then Reg.JASIA_POS_HOP_J0 else Reg.JASIA_POS_HOP_J1) = jHop bs % 2 ^ 16 ∧
      (if p = 0 then t.dev.jasia.lastJ0 else t.dev.jasia.lastJ1) = some s.dev.now)) ∧
  (∀ (s : State) (p : Fin 2) (t0 : Nat), Live s → s.dev.jasia.expect[p] = some t0 →
    t0 + 400000 * s.dev.f Reg.JASIA_TIME_BEACON ≤ s.dev.now →
    Answers (.beaconMiss p) s (fun t => (if p = 0 then t.dev.jasia.lastJ0 else t.dev.jasia.lastJ1) = none ∧
      t.dev.jasia.expect[p] = some (t0 + 400000 * s.dev.f Reg.JASIA_TIME_BEACON) ∧
      t.dev.f (Reg.JASIA_CNT_COUNT 4) = min (2 ^ 32 - 1) (s.dev.f (Reg.JASIA_CNT_COUNT 4) + 1))) ∧
  (∀ (s : State), Live s → s.dev.bit Reg.JASIA_CFG_EN = true →
    s.dev.jasia.lastBeacon + s.dev.f Reg.JASIA_TIME_MASTER_TO * (400000 * s.dev.f Reg.JASIA_TIME_BEACON) ≤ s.dev.now →
    Answers .masterLost s (fun t =>
      if s.dev.f Reg.JASIA_CFG_ROLE = 2 ∧ s.dev.f Reg.JASIA_STAT_ROLE_NOW ≠ 1 then
        t.dev.f Reg.JASIA_STAT_ROLE_NOW = 1 ∧ t.dev.f Reg.JASIA_STAT_EPOCH = (s.dev.f Reg.JASIA_STAT_EPOCH + 1) % 2 ^ 16 ∧
        t.dev.f Reg.JASIA_STAT_MASTER = s.dev.f Reg.JASIA_CFG_DEV % 2 ^ 9 ∧ t.dev.tb Reg.JASIA_EVT_TAKEOVER 0 = true
      else t.dev.bit Reg.JASIA_STAT_MASTER_LOST = true ∧ t.dev.f Reg.JASIA_STAT_ROLE_NOW = s.dev.f Reg.JASIA_STAT_ROLE_NOW ∧
        (s.dev.bit Reg.JASIA_STAT_MASTER_LOST = false → t.dev.f Reg.JASIA_STAT_TOPO = 0 ∧ t.dev.tb Reg.JASIA_EVT_MASTER_LOST 0 = true))) ∧
  (∀ (s : State) (p : Fin 2) (t0 : Nat), Live s →
    let q := p8 p.1
    s.dev.bit Reg.JASIA_CFG_AUTO_REEN = true → s.dev.removed q = true → s.dev.bit (Reg.SW_P_STAT_LINK q.1) = true →
    s.dev.jasia.seen[p] = some t0 → (s.dev.port q).linkAt ≤ t0 →
    (s.dev.port q).linkAt + 400000 * s.dev.f Reg.JASIA_TIME_RELINK ≤ s.dev.now →
    Answers (.autoReenable p) s (fun t => t.dev.removed q = false ∧ t.dev.tb Reg.JASIA_EVT_RELINK 0 = true))

/-- PTP rings and holdover (R270, R271, R273, R278). Where it rests on choices or readings of the model: log entries 70 and 131. -/
def Obligations.TimeFramesAndHoldover : Prop :=
  (∀ (s : State) (p : Fin 6) (bs : List Byte) (good : Bool) (stamp : Nat), Live s → Clean s →
    (s.dev.bit Reg.PTP_CTL_EN = true → s.dev.f (Reg.PTP_P_CFG_MECH p.1) = 1 →
      (s.dev.ptpMessage p.1 bs = some 1 ∨ s.dev.ptpMessage p.1 bs = some 9) →
      Answers (.ptpFrameReceive p ⟨bs, good⟩ stamp) s (fun t => t.mem = s.mem ∧
        t.dev.f (Reg.PTP_P_DROP_VALUE p.1) = min (2 ^ 32 - 1) (s.dev.f (Reg.PTP_P_DROP_VALUE p.1) + 1))) ∧
    (∀ (o : Nat) (udp : Bool), s.dev.ptpTakes p.1 bs = some (o, udp) → s.dev.ptpDropped p bs = false → s.dev.ptpRoom = true →
      let e := s.dev.ptpEntry Reg.PTP_RX_LO_ADDR Reg.PTP_RX_HI_ADDR (s.dev.f Reg.PTP_RX_PI_IDX)
      s.dev.ptpReach s.memWord ⟨p.1, s.dev.rxStamp (p8 p.1) stamp, bs, udp, !good || s.dev.badLength bs⟩ = .opened →
      (s.memWord e 8 % 2 ^ 40 + bs.length ≤ e + 8 ∨ e + 32 ≤ s.memWord e 8 % 2 ^ 40) →
      Answers (.ptpFrameReceive p ⟨bs, good⟩ stamp) s (fun t => t.dev.f Reg.PTP_RX_PI_IDX = (s.dev.f Reg.PTP_RX_PI_IDX + 1) % 2 ^ 32 ∧
        t.dev.f (Reg.PTP_P_DROP_VALUE p.1) = s.dev.f (Reg.PTP_P_DROP_VALUE p.1) ∧
        Mem.reads t.mem t.dev.ep (s.memWord e 8 % 2 ^ 40) bs.length = bs))) ∧
  (∀ (s : State) (egress : Nat), Live s → s.dev.bit Reg.PTP_RING_CFG_EN = true → s.dev.f Reg.PTP_TX_CI_IDX ≠ s.dev.f Reg.PTP_TX_PI_IDX →
    let e := s.dev.ptpEntry Reg.PTP_TX_LO_ADDR Reg.PTP_TX_HI_ADDR (s.dev.f Reg.PTP_TX_CI_IDX)
    let buf := s.memWord e 8 % 2 ^ 40
    let p := p8 (s.memWord (e + 10) 1)
    s.dev.localOpen 11 0 .read e 32 = true → s.dev.localOpen 11 0 .write e 32 = true →
    s.dev.localOpen 11 0 .read buf (s.memWord (e + 8) 2) = true →
    s.memWord (e + 10) 1 < 6 → s.dev.removed p = false → s.dev.serdesOff p = false → (s.dev.port p).busyTill ≤ s.dev.now →
    (s.memWord (e + 11) 1).testBit 0 = false →
    Answers (.ptpTransmit egress) s (fun t => t.dev.f Reg.PTP_TX_CI_IDX = (s.dev.f Reg.PTP_TX_CI_IDX + 1) % 2 ^ 32 ∧
      t.dev.out = .frame p.1 (s.memBytes buf (s.memWord (e + 8) 2) ++ fcsOf (s.memBytes buf (s.memWord (e + 8) 2))) :: s.dev.out)) ∧
  (∀ (s : State) (src : Src) (w : Word), Reaches s src Reg.PTP_SERVO_at → w.toNat.testBit 1 = true →
    Answers (.kick src w) s (fun t => t.dev.bit Reg.PTP_STAT_HOLDOVER = false ∧ t.dev.ptp.kickAt = s.dev.now ∧ t.dev.ptp.expired = false)) ∧
  (∀ (s : State), Live s → s.dev.bit Reg.PTP_SERVO_LOCKED = true → s.dev.bit Reg.PTP_STAT_HOLDOVER = false →
    s.dev.ptp.kickAt + 400000 * s.dev.f Reg.PTP_HOLD_TO ≤ s.dev.now →
    Answers .holdoverEntry s (fun t => t.dev.bit Reg.PTP_STAT_HOLDOVER = true ∧ t.dev.ptp.holdAt = s.dev.now)) ∧
  (∀ (s : State), Live s → s.dev.bit Reg.PTP_STAT_HOLDOVER = true → s.dev.ptp.expired = false →
    s.dev.ptp.holdAt + 400000000 * s.dev.f Reg.PTP_HOLD_MAX ≤ s.dev.now →
    Answers .holdoverExpiry s (fun t => t.dev.tb Reg.PTP_EVT_HOLD_EXP 0 = true ∧ t.dev.bit Reg.TB_STAT_LINE = false))

/-- Comparators and captures (R279, R280). Where it rests on choices or readings of the model: log entries 20 and 71. -/
def Obligations.ComparatorsAndCaptures : Prop :=
  (∀ (s : State) (src : Src) (i : Fin 16) (w : Word), Reaches s src (Reg.TB_CMP_HI_at i.1) →
    let at_ := (s.dev.heldFor src (Reg.TB_CMP_LO_at i.1)).getD (s.dev.f (Reg.TB_CMP_LO_VALUE i.1)) + 2 ^ 32 * w.toNat
    (s.dev.now + 8 ≤ at_ → Answers (.comparatorArm src i w) s (fun t => t.dev.bit (Reg.TB_CMP_CTL_ARMED i.1) = true ∧
      t.dev.bit (Reg.TB_CMP_CTL_PAST i.1) = false ∧ t.dev.ptp.cmpAt[i] = at_)) ∧
    (at_ < s.dev.now + 8 → Answers (.comparatorArm src i w) s (fun t =>
      t.dev.bit (Reg.TB_CMP_CTL_ARMED i.1) = s.dev.bit (Reg.TB_CMP_CTL_ARMED i.1) ∧ t.dev.bit (Reg.TB_CMP_CTL_PAST i.1) = true ∧
      t.dev.ptp.cmpAt = s.dev.ptp.cmpAt))) ∧
  (∀ (s : State) (i : Fin 16), Live s → s.dev.bit (Reg.TB_CMP_CTL_ARMED i.1) = true → s.dev.ptp.cmpAt[i] = s.dev.now →
    let p := p8 (s.dev.f (Reg.TB_CMP_CTL_PIN i.1))
    let a := s.dev.f (Reg.TB_CMP_CTL_ACTION i.1)
    let per := s.dev.f (Reg.TB_CMP_PERIOD_VALUE i.1)
    1 ≤ a → a ≤ 4 → (∀ y ∈ s.dev.ptp.acted[p], y.1 ≠ s.dev.now ∨ y.2.1 ≤ i.1) →
    Answers (.comparatorFire i) s (fun t =>
      t.dev.ptp.tout.testBit p.1 = (if a = 4 then !s.dev.toutBefore p else a != 2) ∧
      (∀ j : Fin 8, j ≠ p → t.dev.ptp.tout.testBit j.1 = s.dev.ptp.tout.testBit j.1) ∧
      t.dev.ptp.pulse[p] = (if a = 3 then some (s.dev.now + s.dev.f (Reg.TB_CMP_CTL_WIDTH i.1)) else none) ∧
      (per = 0 → t.dev.bit (Reg.TB_CMP_CTL_ARMED i.1) = false) ∧
      (per ≠ 0 → t.dev.ptp.cmpAt[i] = s.dev.now + per ∧ t.dev.bit (Reg.TB_CMP_CTL_ARMED i.1) = true) ∧
      t.dev.tb Reg.TB_TRIG_EVT_CMP i.1 = true)) ∧
  (∀ (s : State) (p : Fin 8) (e : Nat), Live s → s.dev.ptp.pulse[p] = some e → e ≤ s.dev.now →
    Answers (.pulseEnd p) s (fun t => t.dev.ptp.tout.testBit p.1 = false ∧ t.dev.ptp.pulse[p] = none ∧
      ∀ j : Fin 8, j ≠ p → t.dev.ptp.tout.testBit j.1 = s.dev.ptp.tout.testBit j.1)) ∧
  (∀ (s : State) (n : Fin 8) (rising : Bool), Live s → (s.dev.f (Reg.TB_CAP_CTL_EDGE n.1)).testBit (if rising then 0 else 1) = true →
    ((s.dev.ptp.cap[n]).length < 4 → Answers (.capture n rising) s (fun t => t.dev.ptp.cap[n] = s.dev.ptp.cap[n] ++ [s.dev.now] ∧
      t.dev.f (Reg.TB_CAP_STAT_COUNT n.1) = (s.dev.ptp.cap[n]).length + 1 ∧ t.dev.tb Reg.TB_TRIG_EVT_CAP n.1 = true)) ∧
    (4 ≤ (s.dev.ptp.cap[n]).length → Answers (.capture n rising) s (fun t => t.dev.ptp = s.dev.ptp ∧
      t.dev.bit (Reg.TB_CAP_STAT_OVF n.1) = true))) ∧
  (∀ (s : State) (src : Src) (n : Fin 8) (x : Nat) (xs : List Nat), Live s → (s.dev.guard src (Reg.TB_CAP_HI_at n.1) false).isNone = true →
    s.dev.ptp.cap[n] = x :: xs → xs.length < 4 → pairFind s.dev.capHigh src.master.1 (Reg.TB_CAP_LO_at n.1) = none →
    Answers (.capturePop src n) s (fun t => t.dev.resp = ⟨x / 2 ^ 32 % 2 ^ 32, false⟩ ∧ t.dev.ptp.cap[n] = xs ∧
      t.dev.f (Reg.TB_CAP_STAT_COUNT n.1) = xs.length))

/-- CAN states (R283, R287–R291). Where it rests on choices or readings of the model: log entries 72, 73 and 74. -/
def Obligations.CanStatesFollowTheCounters : Prop :=
  (∀ (s : State) (src : Src) (n : Fin 8) (w : Word), Reaches s src (Reg.CAN_CTL_at n.1) →
    (w.toNat.testBit 0 = true → s.dev.bit (Reg.CAN_CTL_INIT n.1) = false →
      Answers (.initClear src n w) s (fun t => t.dev.bit (Reg.CAN_CTL_INIT n.1) = true ∧ t.dev.f (Reg.CAN_STAT_STATE n.1) = 3 ∧
        t.dev.bit (Reg.CAN_STAT_SYNC n.1) = false ∧ (t.dev.can[n]).onBus = none)) ∧
    (w.toNat.testBit 0 = false → s.dev.bit (Reg.CAN_CTL_INIT n.1) = true → s.dev.bit (Reg.CAN_CTL_FD_EN n.1) = w.toNat.testBit 1 →
      (s.dev.canTiming n = true → Answers (.initClear src n w) s (fun t => t.dev.bit (Reg.CAN_CTL_INIT n.1) = false ∧
        t.dev.f (Reg.CAN_STAT_STATE n.1) = s.dev.canStateOf n ∧ t.dev.bit (Reg.CAN_STAT_SYNC n.1) = false)) ∧
      (s.dev.canTiming n = false → Answers (.initClear src n w) s (fun t => t.dev.bit (Reg.CAN_CTL_INIT n.1) = true ∧
        t.dev.f (Reg.CAN_STAT_STATE n.1) = s.dev.f (Reg.CAN_STAT_STATE n.1))))) ∧
  (∀ (s : State) (n : Fin 8), Live s → s.dev.f (Reg.PWR_QTAG_STATE (24 + n.1)) = 0 → s.dev.bit (Reg.CAN_CTL_INIT n.1) = false →
    s.dev.f (Reg.CAN_STAT_STATE n.1) < 2 → Answers (.busIntegration n) s (fun t => t.dev.bit (Reg.CAN_STAT_SYNC n.1) = true)) ∧
  (∀ (s : State) (n : Fin 8), Live s → s.dev.f (Reg.PWR_QTAG_STATE (24 + n.1)) = 0 → s.dev.f (Reg.CAN_STAT_STATE n.1) = 2 →
    s.dev.bit (Reg.CAN_STAT_RECOV n.1) = true → Answers (.busIntegration n) s (fun t =>
      t.dev.f (Reg.CAN_SUP_STAT_REMAIN n.1) = s.dev.f (Reg.CAN_SUP_STAT_REMAIN n.1) - 1 ∧ t.dev.f (Reg.CAN_STAT_STATE n.1) = 2)) ∧
  (∀ (s : State) (n : Fin 8) (e : CanErr) (ph : Bool) (c : CanCount), Live s → s.dev.canActive n = true → e ≠ .resBit →
    (e = .ack → s.dev.bit (Reg.CAN_CTL_LOOP n.1) = false) → c ≠ .dominant →
    let tx := if c = .flagBit then (s.dev.can[n]).errTx else ((s.dev.can[n]).onBus).isSome
    let spared := c = .exempt ∧ (e = .stuff ∨ (e = .ack ∧ s.dev.f (Reg.CAN_STAT_STATE n.1) = 1))
    let tec := s.dev.f (Reg.CAN_ECNT_TEC n.1) + (if tx = true ∧ ¬ spared then 8 else 0)
    let rec' := s.dev.f (Reg.CAN_ECNT_REC n.1) + (if tx = true then 0 else if c = .flagBit then 8 else 1)
    Answers (.canError n e ph c) s (fun t => (t.dev.can[n]).onBus = none ∧
      t.dev.f (if ph then Reg.CAN_STAT_ERR_D n.1 else Reg.CAN_STAT_ERR_N n.1) =
        (match e with | .bitRecessive => 1 | .bitDominant => 2 | .stuff => 3 | .form => 4 | .crc => 5 | .ack => 6 | .resBit => 4) ∧
      t.dev.f (Reg.CAN_ECNT_TEC n.1) = min tec 511 ∧ t.dev.f (Reg.CAN_ECNT_REC n.1) = min rec' 255 ∧
      t.dev.f (Reg.CAN_STAT_STATE n.1) = (if 255 < tec then 2 else if 128 ≤ tec ∨ 128 ≤ rec' then 1 else 0) ∧
      (255 < tec → t.dev.f (Reg.CAN_BOFF_CNT_COUNT n.1) = min (2 ^ 32 - 1) (s.dev.f (Reg.CAN_BOFF_CNT_COUNT n.1) + 1)))) ∧
  (∀ (s : State) (n : Fin 8), Live s → s.dev.f (Reg.CAN_STAT_STATE n.1) = 2 → s.dev.bit (Reg.CAN_STAT_RECOV n.1) = true →
    s.dev.f (Reg.CAN_SUP_STAT_REMAIN n.1) = 0 →
    Answers (.recovered n) s (fun t => t.dev.f (Reg.CAN_STAT_STATE n.1) = 0 ∧ t.dev.f (Reg.CAN_ECNT_TEC n.1) = 0 ∧
      t.dev.f (Reg.CAN_ECNT_REC n.1) = 0 ∧ t.dev.bit (Reg.CAN_STAT_RECOV n.1) = false)) ∧
  (∀ (s : State) (src : Src) (n : Fin 8) (w : Word), Reaches s src (Reg.CAN_SUP_CMD_at n.1) → w.toNat.testBit 0 = true →
    Answers (.canRestart src n w) s (fun t => t.dev.bit (Reg.CAN_SUP_STAT_LATCHED n.1) = false ∧ (t.dev.can[n]).boff = [] ∧
      t.dev.f (Reg.CAN_SUP_STAT_BOCNT n.1) = 0 ∧
      (s.dev.f (Reg.CAN_STAT_STATE n.1) = 2 → s.dev.bit (Reg.CAN_STAT_RECOV n.1) = false →
        t.dev.bit (Reg.CAN_STAT_RECOV n.1) = true ∧
        t.dev.f (Reg.CAN_SUP_STAT_REMAIN n.1) = 128 * s.dev.f (Reg.CAN_SUP_CFG_MULT n.1) % 2 ^ 16)))

/-- CAN frames (R284, R293–R297). Where it rests on choices or readings of the model: log entries 72, 73 and 127. -/
def Obligations.CanFramesAndBuffers : Prop :=
  (∀ (s : State) (n : Fin 8) (fr : CanFrame) (sof : Nat) (es : List CanEdge), Live s → Clean s → s.dev.canActive n = true →
    s.dev.bit (Reg.CAN_CTL_LOOP n.1) = false → (fr.fd = true → s.dev.bit (Reg.CAN_CTL_FD_EN n.1) = true) →
    s.dev.f (Reg.CAN_ECNT_REC n.1) = 0 →
    (s.dev.canRoute n fr sof = none → Answers (.canFrameReceive n fr ⟨sof, es⟩) s (fun t => t.mem = s.mem ∧
      ∀ i : Fin 2, t.dev.f (Reg.CAN_FIFO_PI_IDX n.1 i.1) = s.dev.f (Reg.CAN_FIFO_PI_IDX n.1 i.1))) ∧
    (∀ (i : Fin 2) (f : Nat) (nm : Bool), s.dev.canRoute n fr sof = some (i, f, nm) → s.dev.canFill n i < 32 →
      let x := 32 * i.1 + s.dev.f (Reg.CAN_FIFO_PI_IDX n.1 i.1) % 32
      let a := s.dev.canElem n x
      s.dev.canWaiting n i = 0 → s.dev.canReach n .write x = .opened →
      Answers (.canFrameReceive n fr ⟨sof, es⟩) s (fun t =>
        t.dev.f (Reg.CAN_FIFO_PI_IDX n.1 i.1) = (s.dev.f (Reg.CAN_FIFO_PI_IDX n.1 i.1) + 1) % 2 ^ 32 ∧
        ∃ pad, Stored s t a (canElemBytes fr f nm sof pad)))) ∧
  (∀ (s : State) (n : Fin 8) (fr : CanFrame) (sof q : Nat), Live s → s.dev.canActive n = true → s.dev.bit (Reg.CAN_CTL_LOOP n.1) = false →
    (fr.fd = true → s.dev.bit (Reg.CAN_CTL_FD_EN n.1) = true) → 1 ≤ q → q < s.dev.f (Reg.CAN_NBT_SP n.1) →
    s.dev.f (Reg.CAN_NBT_SP n.1) < s.dev.f (Reg.CAN_NBT_LEN n.1) → 1 ≤ s.dev.f (Reg.CAN_PRESC_N_PRE n.1) →
    Answers (.canFrameReceive n fr ⟨sof, [.fall (q * s.dev.f (Reg.CAN_PRESC_N_PRE n.1)) false]⟩) s (fun t =>
      (t.dev.can[n]).clock.len = s.dev.f (Reg.CAN_NBT_LEN n.1) + min q (s.dev.f (Reg.CAN_NBT_SJW n.1)) ∧
      (t.dev.can[n]).clock.sp = s.dev.f (Reg.CAN_NBT_SP n.1) + min q (s.dev.f (Reg.CAN_NBT_SJW n.1)) ∧
      (t.dev.can[n]).clock.synced = true)) ∧
  (∀ (s : State) (src : Src) (n : Fin 8) (w : Word), Reaches s src (Reg.CAN_TXGO_at n.1) → s.dev.abortNow n = 0 →
    (∀ b : Fin 32, (w.toNat.testBit b.1 = true ∨ s.dev.canPending n b = true) →
      s.dev.canReach n .read (64 + b.1) = .opened ∧ (s.dev.canBuffer s.memWord s.memBytes n b.1).isSome = true) →
    Answers (.txgo src n w) s (fun t => ∀ b : Fin 32, t.dev.canPending n b = (s.dev.canPending n b || w.toNat.testBit b.1))) ∧
  (∀ (s : State) (src : Src) (n : Fin 8) (w : Word), Reaches s src (Reg.CAN_TXABORT_at n.1) → (s.dev.can[n]).onBus = none → (s.dev.can[n]).tsWait = none →
    Answers (.txabort src n w) s (fun t => ∀ b : Fin 32,
      t.dev.canPending n b = (s.dev.canPending n b && !w.toNat.testBit b.1) ∧
      t.dev.tb (Reg.CAN_TXABORTED_BUF n.1) b.1 =
        (s.dev.tb (Reg.CAN_TXABORTED_BUF n.1) b.1 || (s.dev.canPending n b && w.toNat.testBit b.1)))) ∧
  (∀ (s : State) (n : Fin 8) (b : Fin 32) (fr : CanFrame) (sof dly : Nat) (es : List CanEdge), Live s → Clean s → s.dev.canActive n = true →
    s.dev.bit (Reg.CAN_CTL_LISTEN n.1) = false → s.dev.bit (Reg.CAN_CTL_LOOP n.1) = false →
    s.dev.canBuffer s.memWord s.memBytes n b.1 = some fr →
    ((s.dev.can[n]).onBus = none → (∀ c : Fin 32, s.dev.canPending n c = decide (c = b)) →
      (s.dev.can[n]).tsWait = none → s.dev.canReach n .read (64 + b.1) = .opened →
      Answers (.canTransmit n ⟨sof, es⟩ dly (.onBus .arbitration)) s (fun t => (t.dev.can[n]).onBus = some b ∧ t.dev.out = .canFrame n.1 fr :: s.dev.out)) ∧
    ((s.dev.can[n]).onBus = some b → s.dev.tb (Reg.CAN_TXABORT_BUF n.1) b.1 = false → s.dev.bit (Reg.CAN_CTL_ONESHOT n.1) = false →
      Answers (.canTransmit n ⟨sof, es⟩ dly .lost) s (fun t => (t.dev.can[n]).onBus = none ∧
        ∀ c : Fin 32, t.dev.canPending n c = s.dev.canPending n c)) ∧
    ((s.dev.can[n]).onBus = some b → fr.fd = false → s.dev.f (Reg.CAN_ECNT_TEC n.1) = 0 →
      s.dev.canReach n .write (64 + b.1) = .opened →
      Answers (.canTransmit n ⟨sof, es⟩ dly .sent) s (fun t => (t.dev.can[n]).onBus = none ∧ t.dev.canPending n b = false ∧
        t.dev.tb (Reg.CAN_TXSENT_BUF n.1) b.1 = true ∧
        Stored s t (s.dev.canElem n (64 + b.1) + 8) (leBytes 8 (canTs sof)))) ∧
    (∀ (e : CanErr) (pl : CanPlace) (c : CanCount), (s.dev.can[n]).onBus = some b → fr.fd = true → pl ≠ .arbitration →
      Answers (.canTransmit n ⟨sof, es⟩ dly (.error e pl c)) s (fun t => t.dev.f (Reg.CAN_SSP_DLY n.1) = min dly 255))) ∧
  (∀ (s : State) (src : Src) (n : Fin 8) (i : Fin 2) (w : Word), Reaches s src (Reg.CAN_FIFO_CI_at n.1 i.1) →
    Answers (.canFifoCiWrite src n i w) s (fun t => t.dev.f (Reg.CAN_FIFO_CI_IDX n.1 i.1) =
      if consumerOk (s.dev.f (Reg.CAN_FIFO_PI_IDX n.1 i.1)) (s.dev.f (Reg.CAN_FIFO_CI_IDX n.1 i.1)) w.toNat then w.toNat
      else s.dev.f (Reg.CAN_FIFO_CI_IDX n.1 i.1)))

/-- Cores (R24, R299–R304, R312–R314). Where it rests on choices or readings of the model: log entries 23, 75, 76 and 103. -/
def Obligations.WorldsOfTheCores : Prop :=
  (∀ (s : State) (n : Fin 6) (w : Word) (g : Fin 256) (next t_ : Nat), Live s → gateWord w = .gate g → s.dev.coreRuns n = true →
    s.dev.coreSecure n = false →
    let base := s.dev.f64 (Reg.CORE_GATE_BASE_LO_ADDR n.1) (Reg.CORE_GATE_BASE_HI_ADDR n.1) % 2 ^ 40 + 16 * g.1
    let src : Src := ⟨⟨n.1, by omega⟩, true, sl (s.dev.f (Reg.CORE_CTX_SLICE n.1))⟩
    let attr := s.memWord (base + 8) 4
    (g.1 < s.dev.f (Reg.CORE_GATE_CNT_CNT n.1) → checkerOf base = some t_ → s.dev.permits t_ src .read base = true →
      s.dev.serves base = true → attr.testBit 0 = true →
      (attr.testBit 1 = true ∨ bits attr 8 6 = s.dev.f (Reg.CORE_CTX_SLICE n.1)) →
      Answers (.gate n w next) s (fun t => t.dev.coreSecure n = true ∧ t.dev.bit (Reg.CORE_CTX_GATED n.1) = true ∧
        (t.dev.cores[n]).pc = s.memWord base 8 % 2 ^ 40 ∧ (t.dev.cores[n]).ret = next ∧ (t.dev.cores[n]).entry = some s.dev.up)) ∧
    (∀ (p : Fin 2) (key : Nat), tcmKey src base = some (p, key) → g.1 < s.dev.f (Reg.CORE_GATE_CNT_CNT n.1) →
      (s.memWord (key + 8) 4).testBit 0 = true → (s.memWord (key + 8) 4).testBit 1 = true →
      Answers (.gate n w next) s (fun t => t.dev.coreSecure n = true ∧ (t.dev.cores[n]).pc = s.memWord key 8 % 2 ^ 40 ∧
        (t.dev.cores[n]).ret = next)) ∧
    (s.dev.f (Reg.CORE_GATE_CNT_CNT n.1) ≤ g.1 →
      Answers (.gate n w next) s (fun t => t.dev.coreSecure n = false ∧ (t.dev.cores[n]).ret = (s.dev.cores[n]).ret))) ∧
  (∀ (s : State) (n : Fin 6) (w : Word) (next : Nat), Live s → gateWord w = .undefined →
    Answers (.gate n w next) s (fun t => t.dev.coreSecure n = s.dev.coreSecure n ∧ (t.dev.cores[n]).ret = (s.dev.cores[n]).ret)) ∧
  (∀ (s : State) (n : Fin 6), Live s → s.dev.coreRuns n = true → s.dev.coreSecure n = true →
    (∀ t0, (s.dev.cores[n]).entry = some t0 → s.dev.f (Reg.CORE_SWDG_GATE_MAX n.1) = 0 ∨
      s.dev.up < t0 + 400 * s.dev.f (Reg.CORE_SWDG_GATE_MAX n.1)) →
    Answers (.gret n) s (fun t => t.dev.coreSecure n = false ∧ t.dev.bit (Reg.CORE_CTX_GATED n.1) = false ∧
      (t.dev.cores[n]).irqN = false ∧ ((s.dev.cores[n]).irqN = true → Output.coreSignal n.1 ∈ t.dev.out) ∧
      (t.dev.cores[n]).pc = if s.dev.bit (Reg.CORE_CTX_GATED n.1) then (s.dev.cores[n]).ret
        else s.dev.f64 (Reg.CORE_NENTRY_LO_ADDR n.1) (Reg.CORE_NENTRY_HI_ADDR n.1) % 2 ^ 40)) ∧
  (∀ (s : State) (n : Fin 4) (t0 : Nat),
    let c : Fin 6 := ⟨n.1, by omega⟩
    Live s → s.dev.coreTimed c = true → (s.dev.cores[c]).entry = some t0 → s.dev.f (Reg.CORE_SWDG_GATE_MAX n.1) ≠ 0 →
    t0 + 400 * s.dev.f (Reg.CORE_SWDG_GATE_MAX n.1) ≤ s.dev.up →
    Answers (.gret c) s (fun t => t.dev.bit (Reg.CORE_STAT_FENCED n.1) = true ∧ t.dev.f (Reg.CORE_STAT_CAUSE n.1) = 3 ∧
      t.dev.coreSecure c = s.dev.coreSecure c)) ∧
  (∀ (s : State) (n : Fin 6) (next : Nat), Live s → s.dev.coreRuns n = true →
    Answers (.secureInterrupt n next) s (fun t => t.dev.coreSecure n = true ∧
      (t.dev.cores[n]).ret = (if s.dev.coreSecure n then (s.dev.cores[n]).ret else next) ∧
      (t.dev.cores[n]).entry = (if s.dev.coreSecure n then (s.dev.cores[n]).entry else some s.dev.up))) ∧
  (∀ (s : State) (n : Fin 4), Live s → s.dev.bit (Reg.CORE_STAT_FENCED n.1) = false →
    Answers (.coreFault n) s (fun t => t.dev.bit (Reg.CORE_STAT_FENCED n.1) = true ∧ t.dev.f (Reg.CORE_STAT_CAUSE n.1) = 1 ∧
      t.dev.tb Reg.SYS_FENCE_AC n.1 = true)) ∧
  (∀ (s : State) (n : Fin 6), Live s → s.dev.coreTimed n = true →
    let expired (cause : Nat) (t : State) : Prop :=
      (n.1 < 4 → t.dev.bit (Reg.CORE_STAT_FENCED n.1) = true ∧ t.dev.f (Reg.CORE_STAT_CAUSE n.1) = cause) ∧
      (4 ≤ n.1 → (t.dev.cores[n]).expired = true)
    (s.dev.f (Reg.CORE_SWDG_TIMEOUT n.1) ≠ 0 → (s.dev.cores[n]).wdogAt + 400000 * s.dev.f (Reg.CORE_SWDG_TIMEOUT n.1) ≤ s.dev.up →
      Answers (.secureWatchdogExpiry n) s (expired 2)) ∧
    (∀ t0, (s.dev.cores[n]).entry = some t0 → s.dev.f (Reg.CORE_SWDG_GATE_MAX n.1) ≠ 0 →
      t0 + 400 * s.dev.f (Reg.CORE_SWDG_GATE_MAX n.1) ≤ s.dev.up → Answers (.gateTimerExpiry n) s (expired 3))) ∧
  (∀ (s : State) (src : Src) (n : Fin 6) (w : Word), Reaches s src (Reg.CORE_SWDG_KICK_at n.1) → w.toNat.testBit 0 = true →
    Answers (.kickWatchdog src n w) s (fun t => (t.dev.cores[n]).wdogAt = (if src.master.1 = n.1 then s.dev.up
        else (s.dev.cores[n]).wdogAt) ∧
      (src.master.1 ≠ n.1 ∨ s.dev.coreTimed n = false ∨ s.dev.f (Reg.CORE_SWDG_TIMEOUT n.1) = 0 ∨
          s.dev.up < (s.dev.cores[n]).wdogAt + 400000 * s.dev.f (Reg.CORE_SWDG_TIMEOUT n.1) → Clean s →
        (∀ r : RF, Apart [(0x20098000, 0x20099000)] r → t.dev.f r = s.dev.f r) ∧ t.dev.vats = s.dev.vats ∧ SameMem s t)))

/-- Power requests (R317–R319, R354, R359). Where it rests on choices or readings of the model: log entry 77. -/
def Obligations.PowerRequestsAreArbitrated : Prop :=
  (∀ (s : State) (src : Src) (w : Word) (i : Instr), Reaches s src Reg.PWR_QREQ_at →
    (i = .quiesce src w ∨ i = .qreqResume src w ∨ i = .retain src w ∨ i = .off src w) →
    let b := bits w.toNat 0 8
    let op := bits w.toNat 8 3
    let sec := src.secure
    let result (t : State) := t.dev.f (if sec then Reg.PWR_QSTAT_S_RESULT else Reg.PWR_QSTAT_N_RESULT)
    qAccepts b op = true →
    ((s.dev.qreq sec).isSome = true → Answers i s (fun t => t.dev.qreq sec = s.dev.qreq sec)) ∧
    (s.dev.qreq sec = none → s.dev.qMinset b op = true → Answers i s (fun t => t.dev.qreq sec = none ∧ result t = 4)) ∧
    (s.dev.qreq sec = none → s.dev.qMinset b op = false →
      ((sec = true ∨ s.dev.f (Reg.PWR_QTAG_TAG b) = 0) →
        Answers i s (fun t => t.dev.qreq sec = some ⟨src, b, op, s.dev.up, false, true⟩ ∧ result t = 0)) ∧
      (sec = false → s.dev.f (Reg.PWR_QTAG_TAG b) = 1 →
        Answers i s (fun t => t.dev.qreq sec = some ⟨src, b, op, s.dev.up, true, false⟩ ∧ result t = 0)) ∧
      (sec = false → 2 ≤ s.dev.f (Reg.PWR_QTAG_TAG b) → Answers i s (fun t => t.dev.qreq sec = none ∧ result t = 2)))) ∧
  (∀ (s : State) (src : Src) (b : Fin 64) (w : Word) (q : QReq), Reaches s src (Reg.PWR_QTAG_at b.1) → s.dev.qN = some q →
    q.block = b.1 → q.deferred = true →
    (bits w.toNat 0 2 = 0 → s.dev.qMinset q.block q.op = false → Answers (.qtagWrite src b w) s (fun t => t.dev.f (Reg.PWR_QTAG_TAG b.1) = 0 ∧
      t.dev.qN = some { q with deferred := false, draining := true })) ∧
    (bits w.toNat 0 2 = 2 → Answers (.qtagWrite src b w) s (fun t => t.dev.f (Reg.PWR_QTAG_TAG b.1) = 2 ∧ t.dev.qN = none ∧
      t.dev.f Reg.PWR_QSTAT_N_RESULT = 2))) ∧
  (∀ (s : State) (q : QReq), Live s → s.dev.qN = some q → q.deferred = true →
    q.at_ + 400000 * s.dev.f Reg.PWR_QCFG_DEFER_TO ≤ s.dev.up →
    Answers .deferTimeout s (fun t => t.dev.qN = none ∧ t.dev.f Reg.PWR_QSTAT_N_RESULT = 3)) ∧
  (∀ (s : State) (sec : Bool) (q : QReq), Live s → s.dev.qreq sec = some q → q.block < 64 → q.draining = true →
    s.dev.qMinset q.block q.op = false →
    (s.dev.qTakesTime q = false → Answers (.requestDrained sec) s (fun t => t.dev.qreq sec = none ∧
      t.dev.f (Reg.PWR_QTAG_STATE q.block) = qTarget q.op (s.dev.f (Reg.PWR_QTAG_STATE q.block)) % 8)) ∧
    (s.dev.qTakesTime q = true → Answers (.requestDrained sec) s (fun t => t.dev.qreq sec = some { q with draining := false } ∧
      t.dev.f (Reg.PWR_QTAG_STATE q.block) = s.dev.f (Reg.PWR_QTAG_STATE q.block)))) ∧
  (∀ (s : State) (q : QReq), Live s → s.dev.qS = none → s.dev.qN = some q → q.deferred = false → q.draining = false →
    (∀ n : Fin 12, q.block = 8 + n.1 → Answers (.bankTransitionDone n) s (fun t => t.dev.qN = none ∧
      t.dev.f Reg.PWR_QSTAT_N_RESULT = 1 ∧
      t.dev.f (Reg.PWR_QTAG_STATE q.block) = qTarget q.op (s.dev.f (Reg.PWR_QTAG_STATE q.block)) % 8)) ∧
    (q.block = 38 → Answers .selfRefreshDone s (fun t => t.dev.qN = none ∧ t.dev.f Reg.PWR_QSTAT_N_RESULT = 1 ∧
      t.dev.f (Reg.PWR_QTAG_STATE 38) = qTarget q.op (s.dev.f (Reg.PWR_QTAG_STATE 38)) % 8)))

/-- Lockstep (R320, R325–R331). Where it rests on choices or readings of the model: log entries 79 and 80. -/
def Obligations.LockstepPairsAreJudged : Prop :=
  ∀ (s : State) (p : Fin 2), Live s → s.dev.checking p = true → s.dev.tb Reg.SYS_FENCE_SP (otherPair p).1 = false →
    let failed (cause : Nat) (t : State) : Prop := t.dev.f (Reg.LS_STAT_STATE p.1) = 1 ∧ t.dev.f (Reg.LS_STAT_CAUSE p.1) = cause ∧
      t.dev.f (Reg.LS_STAT_SEEN p.1) = 2 ^ cause ∧ t.dev.tb Reg.SYS_FENCE_SP p.1 = true ∧ (t.dev.pairs[p]).delay = []
    let count (u : State) := u.dev.f64 (Reg.LS_TCNT_LO_COUNT p.1) (Reg.LS_TCNT_HI_COUNT p.1)
    let same (x y : Txn) : Prop := maskVector (txnVector x) = maskVector (txnVector y)
    (∀ x y : Txn, (s.dev.pairs[p]).delay = [] → s.dev.testDue p = none →
      (same x y → Answers (.lockstepCompare p [x] (some y) false false 0) s (fun t => t.dev.f (Reg.LS_STAT_STATE p.1) = 0 ∧
        count t = (count s + 1) % 2 ^ 64 ∧ (t.dev.pairs[p]).delay = [])) ∧
      (¬ same x y → x.kind ≠ .digest → Answers (.lockstepCompare p [x] (some y) false false 0) s (fun t => failed 1 t ∧
        (s.dev.bit Reg.LS_CFG_HANDOVER = true → s.dev.f (Reg.LS_STAT_STATE (otherPair p).1) = 0 →
          t.dev.f (Reg.LS_STAT_DUTIES (otherPair p).1) = 1 ∧
          ∀ i < 96, s.dev.f (Reg.EVT_ROUTE_KIND i) = 1 → s.dev.f (Reg.EVT_ROUTE_CORE i) = 4 + p.1 →
            t.dev.f (Reg.EVT_ROUTE_CORE i) = 4 + (otherPair p).1))) ∧
      Answers (.lockstepCompare p [x, y] none false false 0) s (fun t => count t = count s ∧
        (t.dev.pairs[p]).delay = [⟨txnVector x, none⟩, ⟨txnVector y, none⟩] ∧ (t.dev.pairs[p]).stallAt = some s.dev.up)) ∧
    (∀ pb sb : List Byte, (s.dev.pairs[p]).delay = [] → s.dev.testDue p = none → (s.dev.pairs[p]).due = true →
      (crc64 pb % 2 ^ 64 = crc64 sb % 2 ^ 64 →
        Answers (.stateDigest p pb sb false false 0) s (fun t => t.dev.f (Reg.LS_STAT_STATE p.1) = 0 ∧
          t.dev.f64 (Reg.LS_DIGEST_LO_CRC p.1) (Reg.LS_DIGEST_HI_CRC p.1) = crc64 pb % 2 ^ 64)) ∧
      (crc64 pb % 2 ^ 64 ≠ crc64 sb % 2 ^ 64 → Answers (.stateDigest p pb sb false false 0) s (failed 2))) ∧
    (∀ x z : Txn, (s.dev.pairs[p]).delay = [] → (s.dev.pairs[p]).injAt + 400000 * s.dev.f Reg.LS_CFG_INJ_PERIOD ≤ s.dev.up → same x z →
      let y := (s.dev.pairs[p]).testY
      let per := 400000 * s.dev.f Reg.LS_CFG_INJ_PERIOD
      Answers (.injectionTest p [x] (some z) false false 0) s (fun t => t.dev.f (Reg.LS_STAT_STATE p.1) = 0 ∧
        t.dev.f (Reg.LS_INJ_OK_COUNT p.1) = min (2 ^ 32 - 1) (s.dev.f (Reg.LS_INJ_OK_COUNT p.1) + 1) ∧
        (t.dev.pairs[p]).testY = !y ∧
        (t.dev.pairs[p]).injAt = (s.dev.pairs[p]).injAt + (s.dev.up - (s.dev.pairs[p]).injAt) / per * per ∧
        (y = true → t.dev.f (Reg.LS_STAT_INJ_BIT p.1) = (s.dev.f (Reg.LS_STAT_INJ_BIT p.1) + 1) % 128)) ∧
      Answers (.injectionTest p [x] (some z) (!y) y 0) s (failed 4)) ∧
    (∀ t0 : Nat, (s.dev.pairs[p]).stallAt = some t0 → t0 + 400 * s.dev.f Reg.LS_CFG_LAG_TO ≤ s.dev.up → Answers (.lagTimeout p) s (failed 6)) ∧
    (∀ (src : Src) (w : Word), Reaches s src (Reg.LS_TEST_at p.1) → (src.master = 4 ∨ src.master = 5) → w.toNat.testBit 0 = true →
      WriteDoes s src (Reg.LS_TEST_at p.1) w (.reactionTest src p w) (failed 7) ∧
      WaitsForMatch s src (Reg.LS_TEST_at p.1) w (.reactionTest src p w))

/-- Mordant commands (R342–R346). Where it rests on choices or readings of the model: log entries 81 and 82. -/
def Obligations.KeyCommandsAreChecked : Prop :=
  (∀ (s : State) (src : Src) (c : Fin 16), Live s → (s.dev.guard src (Reg.MORD_CH_CLAIM_at c.1) false).isNone = true →
    Answers (.claim src c) s (fun t => match s.dev.mord.owners[c] with
      | none => t.dev.resp = ⟨1, false⟩ ∧ t.dev.mord.owners[c] = some src
      | some _ => t.dev.resp = ⟨0, false⟩ ∧ t.dev.mord = s.dev.mord)) ∧
  (∀ (s : State) (src : Src) (ch : Fin 16) (i : Instr) (op : Nat), Reaches s src (Reg.MORD_CH_CMD_at ch.1) →
    (i, op) ∈ [(Instr.derive src ch, 1), (.invalidate src ch, 2), (.gcmEnc src ch, 3), (.gcmDec src ch, 4), (.hmac src ch, 5),
      (.sign src ch, 6), (.pubkey src ch, 7), (.chainKey src ch, 8), (.random src ch, 9), (.exportKey src ch, 10)] →
    let c : MCmd := ⟨ch, op, (List.range 16).map (fun i => s.dev.f (Reg.MORD_CH_ARG_VALUE ch.1 i)), src, false⟩
    (s.dev.mord.owners[ch] ≠ some src → Answers i s (fun t => t.dev.mord = s.dev.mord)) ∧
    (s.dev.mord.owners[ch] = some src → s.dev.bit (Reg.MORD_CH_STAT_BUSY ch.1) = false →
      (s.dev.mord.run = none → s.dev.mord.queue = [] →
        (∀ r, s.dev.mordCheck c = some r → Answers i s (fun t => t.dev.f (Reg.MORD_CH_STAT_RESULT ch.1) = r ∧
          t.dev.bit (Reg.MORD_CH_STAT_BUSY ch.1) = false ∧ t.dev.mord.run = none)) ∧
        (s.dev.mordCheck c = none → op ≠ 2 → ((op = 6 ∨ op = 9) → s.dev.bit Reg.MORD_STAT_DRBG_OK = true) →
          Answers i s (fun t => ∃ r, t.dev.mord.run = some r ∧ r.cmd = c ∧ r.orphan = false))) ∧
      (s.dev.mord.run.isSome = true → op ≠ 2 → Answers i s (fun t => t.dev.mord.run = s.dev.mord.run ∧
        t.dev.mord.queue = s.dev.mord.queue ++ [c])) ∧
      (op = 2 → s.dev.mordCheck c = none → Answers i s (fun t => t.dev.f (Reg.MORD_CH_STAT_RESULT ch.1) = 1 ∧
        t.dev.slotState (c.arg 0) = 2 ∧
        ∀ k < 128, t.dev.slotState k =
          if (s.dev.subtree 128 (2 ^ c.arg 0)).testBit k = true ∧ s.dev.slotState k = 1 then 2 else s.dev.slotState k))))

/-- Mordant completions and upkeep (R336, R338, R342, R344, R346, R348, R350). Where it rests on choices or readings of the model: log entries 8 and 81. -/
def Obligations.KeyStoreOutputsAndUpkeep : Prop :=
  (∀ (s : State) (r : MRun), Live s → Clean s → s.dev.mord.run = some r → s.dev.mord.queue = [] →
    (∀ out, (r.cmd.op = 5 ∧ (s.dev.memAccess r.cmd.owner .read (r.cmd.addr 4) (r.cmd.arg 8)).2 = true ∧
          out = Config.hmac (keyBytes 2 r.key) (s.memBytes (r.cmd.addr 4) (r.cmd.arg 8))) ∨
        (r.cmd.op = 7 ∧ out = Config.ecdsaPublic (keyBytes 3 r.key)) ∨ (r.cmd.op = 10 ∧ out = keyBytes r.kind r.key) →
      (s.dev.memAccess r.cmd.owner .write (r.cmd.addr 6) out.length).2 = true →
      Answers .mordantCommandDone s (fun t => t.dev.mord.run = none ∧ t.dev.f (Reg.MORD_CH_STAT_RESULT r.cmd.ch.1) = 1 ∧
        t.dev.bit (Reg.MORD_CH_STAT_BUSY r.cmd.ch.1) = false ∧ Stored s t (r.cmd.addr 6) out)) ∧
    (∀ k, r.cmd.op = 1 → k < 128 → (r.cmd.arg 1 = 0xFF ∧ s.dev.emptyKeys.head? = some k ∨ r.cmd.arg 1 = k ∧ s.dev.slotState k = 0) →
      Answers .mordantCommandDone s (fun t => t.dev.f (Reg.MORD_CH_STAT_RESULT r.cmd.ch.1) = 1 ∧
        t.dev.slotState k = (if r.orphan then 2 else 1) ∧
        t.dev.slotKey k = derived (bits (r.cmd.arg 3) 0 2) (keyBytes r.kind r.key) ((r.cmd.argBytes 4 4).take r.cmd.labelLen)
          (leBytes 4 (r.cmd.arg 2) ++ leBytes 1 (bits (r.cmd.arg 3) 0 2 + 4 * bits (r.cmd.arg 3) 2 3) ++
            (r.cmd.argBytes 8 8).take (bits (r.cmd.arg 3) 16 6)))) ∧
    (r.cmd.op = 4 → (s.dev.memAccess r.cmd.owner .read (r.cmd.addr 4) (r.cmd.arg 8)).2 = true →
      (s.dev.memAccess r.cmd.owner .read (r.cmd.addr 9) (r.cmd.arg 11)).2 = true →
      Config.gcmTag (keyBytes 1 r.key) (r.cmd.argBytes 1 3) (s.memBytes (r.cmd.addr 9) (r.cmd.arg 11))
        (Config.gcmPlain (keyBytes 1 r.key) (r.cmd.argBytes 1 3) (s.memBytes (r.cmd.addr 9) (r.cmd.arg 11))
          (s.memBytes (r.cmd.addr 4) (r.cmd.arg 8))) ≠ r.cmd.argBytes 12 4 →
      Answers .mordantCommandDone s (fun t => t.dev.f (Reg.MORD_CH_STAT_RESULT r.cmd.ch.1) = 6 ∧ t.mem = s.mem))) ∧
  (∀ (s : State) (k : Fin 128), Live s → s.dev.slotState k.1 = 2 → s.dev.meta k.1 15 1 = 0 →
    Answers (.slotRelease k) s (fun t => t.dev.slotState k.1 = 0 ∧ t.dev.slotKey k.1 = 0 ∧ t.dev.attr k.1 = 0 ∧
      t.dev.meta k.1 16 16 = s.dev.meta k.1 16 16)) ∧
  (∀ (s : State), Live s →
    let per := 40000 * s.dev.f Reg.MORD_CFG_REMASK
    let past := (s.dev.up - s.dev.mord.remaskAt) / per
    Answers .remaskPass s (fun t => t.dev.mord.remaskAt = s.dev.mord.remaskAt + past * per ∧
      (∀ k : Fin 128, t.dev.slotKey k.1 = s.dev.slotKey k.1 ∧ t.dev.slotState k.1 = s.dev.slotState k.1) ∧
      t.dev.f Reg.MORD_REMASK_CNT_COUNT = if past ≠ 0 ∧ s.dev.bit Reg.MORD_STAT_DRBG_OK = true
        then min (2 ^ 32 - 1) (s.dev.f Reg.MORD_REMASK_CNT_COUNT + 1) else s.dev.f Reg.MORD_REMASK_CNT_COUNT)) ∧
  (∀ (s : State), Live s → Answers .drbgFailure s (fun t => t.dev.bit Reg.MORD_STAT_DRBG_OK = false ∧ t.dev.tb Reg.MORD_EVT_DRBG 0 = true) ∧
    Answers .drbgHealthRecovery s (fun t => t.dev.bit Reg.MORD_STAT_DRBG_OK = true)) ∧
  (∀ (s : State) (src : Src) (w : Word), Reaches s src Reg.MORD_LC_REQ_at →
    let target := bits w.toNat 0 3
    Answers (.lcRequest src w) s (fun t => t.dev.fuse = s.dev.fuse ∧
      t.dev.sup.fuse = if pairSecure src = true ∧ bits w.toNat 16 16 = 0x4C43 ∧ lcMove s.dev.fuse.lc target = true ∧ s.dev.sup.fuse = none
        then some (.lifeCycle target, s.dev.up) else s.dev.sup.fuse)) ∧
  (∀ (s : State) (job : FuseJob) (t0 : Nat), Live s → s.dev.sup.fuse = some (job, t0) → s.dev.sup.warmWait = none →
    Answers .fuseProgrammingDone s (fun t => t.dev.sup.fuse = none ∧ t.dev.fuse =
      match job with
      | .lifeCycle c => { s.dev.fuse with lc := c }
      | .svn n => { s.dev.fuse with svnMin := n }
      | .ownerKey k h => { s.dev.fuse with owner := put s.dev.fuse.owner k h }
      | .revoke m => { s.dev.fuse with revoked := s.dev.fuse.revoked ||| m % 16 }))

/-- DRAM (R356–R358). Where it rests on choices or readings of the model: log entry 84. -/
def Obligations.DramTrainsAndFails : Prop :=
  (∀ (s : State) (src : Src) (w : Word), Reaches s src Reg.DRAM_CTL_at →
    (s.dev.bit Reg.DRAM_CTL_EN = false → w.toNat.testBit 0 = true →
      Answers (.dramEnable src w) s (fun t => t.dev.bit Reg.DRAM_CTL_EN = true ∧ t.dev.dramEpoch = s.dev.dramEpoch)) ∧
    (s.dev.bit Reg.DRAM_CTL_EN = true → w.toNat.testBit 0 = false →
      Answers (.dramEnable src w) s (fun t => t.dev.bit Reg.DRAM_CTL_EN = false ∧ t.dev.bit Reg.DRAM_STAT_READY = false ∧
        t.dev.f Reg.DRAM_STAT_TRAINED = 0 ∧ t.dev.f Reg.DRAM_STAT_WINDOW = 0 ∧ t.dev.dramEpoch = s.dev.dramEpoch + 1))) ∧
  (∀ (s : State) (m : Fin 4), Live s → s.dev.bit Reg.DRAM_CTL_EN = true → s.dev.bit Reg.DRAM_STAT_READY = false →
    s.dev.f Reg.DRAM_STAT_FAILED = 0 →
    Answers (.dramReady m) s (fun t => t.dev.f Reg.DRAM_STAT_TRAINED = m.1 ∧ t.dev.bit Reg.DRAM_STAT_READY = decide (m ≠ 0) ∧
      ∀ n < 2, t.dev.tb Reg.DRAM_STAT_FAILED n = !m.1.testBit n ∧ (m.1.testBit n = false → t.dev.tb Reg.SYS_FENCE_DRAM n = true))) ∧
  (∀ (s : State) (n : Fin 2), Live s → s.dev.dramLive n.1 = true →
    let k := ((s.dev.dramUes n.1).filter (fun t => decide (s.dev.up < t + 400000000))).length
    Answers (.dramChannelFail n) s (fun t =>
      if s.dev.f Reg.DRAM_ECC_CFG_UE_LIM < k then
        t.dev.tb Reg.DRAM_STAT_FAILED n.1 = true ∧ t.dev.tb Reg.SYS_FENCE_DRAM n.1 = true ∧ t.dev.dramEpoch = s.dev.dramEpoch + 1
      else t.dev.dramEpoch = s.dev.dramEpoch ∧ t.dev.f Reg.DRAM_STAT_FAILED = s.dev.f Reg.DRAM_STAT_FAILED)) ∧
  (∀ (s : State) (c a : Nat), Live s → s.dev.bit Reg.DRAM_STAT_READY = true → s.dev.f Reg.DRAM_ECC_CFG_SCRUB ≠ 0 →
    s.dev.f (Reg.PWR_QTAG_STATE 38) = 0 → s.dev.dram.scrubAt + 1440000000000 * s.dev.f Reg.DRAM_ECC_CFG_SCRUB ≤ s.dev.up → c ≠ 0 →
    Answers (.scrubPass c []) s (fun t => t.dev.f Reg.DRAM_CE_COUNT = min (2 ^ 32 - 1) (s.dev.f Reg.DRAM_CE_COUNT + c)) ∧
    (inDram a = true → s.dev.serves a = true → Answers (.scrubPass c [a]) s (fun t =>
      t.dev.f Reg.DRAM_UE_COUNT = min (2 ^ 32 - 1) (s.dev.f Reg.DRAM_UE_COUNT + 1) ∧
      t.dev.f64 Reg.DRAM_UE_ADDR_LO_ADDR Reg.DRAM_UE_ADDR_HI_ADDR = a % 2 ^ 64)))

/-- Auxiliary switches, requests (R361, R362, R371–R373). Where it rests on choices or readings of the model: log entry 85. -/
def Obligations.AuxSwitchesFollowRequests : Prop :=
  (∀ (s : State) (src : Src) (n : Fin 24) (w : Word) (i : Instr), Reaches s src (Reg.AUX_CTL_at n.1) →
    (i = .auxOnRequest src n w ∨ i = .auxOffRequest src n w) →
    (w.toNat.testBit 0 = true → (s.dev.auxBarred n = true ∨ s.dev.auxSt n = 5) →
      Answers i s (fun t => t.dev.auxSt n = s.dev.auxSt n ∧ t.dev.bit (Reg.AUX_CTL_ON n.1) = s.dev.bit (Reg.AUX_CTL_ON n.1) ∧
        t.dev.bit (Reg.AUX_CTL_DEF n.1) = w.toNat.testBit 1 ∧ t.dev.bit (Reg.AUX_NSTAT_HOLDING n.1) = false)) ∧
    (w.toNat.testBit 0 = true → s.dev.auxBarred n = false → s.dev.auxSt n = 0 → s.dev.bit (Reg.AUX_CTL_ON n.1) = false →
      s.dev.sup.vaux = true →
      Answers i s (fun t => t.dev.auxSt n = (if s.dev.f (Reg.AUX_NCFG_IRUSH n.1) = 0 then 2 else 1) ∧
        t.dev.bit (Reg.AUX_CTL_ON n.1) = true ∧ t.dev.bit (Reg.AUX_CTL_DEF n.1) = w.toNat.testBit 1)) ∧
    (w.toNat.testBit 0 = false → s.dev.auxOn n = true →
      Answers i s (fun t => t.dev.auxSt n = (if s.dev.f (Reg.AUX_SENSE_CODE n.1) = 0 then 0 else 3) ∧ (t.dev.aux[n]).clampTo = 0 ∧
        t.dev.bit (Reg.AUX_CTL_ON n.1) = false ∧ t.dev.f (Reg.AUX_NSTAT_RETRIES n.1) = 0))) ∧
  (∀ (s : State) (n : Fin 24), s.dev.auxSt n = 1 → (s.dev.aux[n]).winEnd ≤ s.dev.up →
    Answers (.inrushEnd n) s (fun t => t.dev.auxSt n = 2 ∧ (t.dev.aux[n]).onAt = some s.dev.up)) ∧
  (∀ (s : State) (n : Fin 24), s.dev.auxSt n = 3 → s.dev.f (Reg.AUX_SENSE_CODE n.1) < 5 →
    (s.dev.bit (Reg.AUX_NSTAT_HELD n.1) = false → Answers (.clampEnd n) s (fun t => t.dev.auxSt n = (s.dev.aux[n]).clampTo % 8)) ∧
    (s.dev.bit (Reg.AUX_NSTAT_HELD n.1) = true → (s.dev.aux[n]).clampTo = 0 → s.dev.sup.vaux = true →
      Answers (.clampEnd n) s (fun t => t.dev.auxSt n = (if s.dev.f (Reg.AUX_NCFG_IRUSH n.1) = 0 then 2 else 1) ∧
        t.dev.bit (Reg.AUX_NSTAT_HELD n.1) = false))) ∧
  (∀ (s : State) (n : Fin 24) (t0 : Nat), (s.dev.aux[n]).holdTill = some t0 → t0 ≤ s.dev.up → s.dev.auxBarred n = false →
    s.dev.auxSt n ≠ 5 →
    Answers (.auxHoldEnd n) s (fun t => t.dev.bit (Reg.AUX_NSTAT_HOLDING n.1) = false ∧ (t.dev.aux[n]).holdTill = none ∧
      t.dev.bit (Reg.AUX_CTL_ON n.1) = s.dev.bit (Reg.AUX_CTL_DEF n.1))) ∧
  (∀ (s : State), Answers .vauxUndervoltage s (fun t => t.dev.sup.vaux = false ∧ t.dev.bit Reg.AUX_STAT_UV = true ∧
    ∀ n : Fin 24, t.dev.auxOn n = false ∧ t.dev.bit (Reg.AUX_CTL_ON n.1) = s.dev.bit (Reg.AUX_CTL_ON n.1))) ∧
  (∀ (s : State), Answers .vauxRecovery s (fun t => t.dev.sup.vaux = true ∧ t.dev.bit Reg.AUX_STAT_UV = false ∧
    ∀ n : Fin 24, s.dev.bit (Reg.AUX_CTL_ON n.1) = true → s.dev.auxSt n = 0 → t.dev.auxOn n = true))

/-- Auxiliary switches, faults (R360, R363–R368). Where it rests on choices or readings of the model: log entries 9, 85 and 86. -/
def Obligations.AuxFaultsAndWarnings : Prop :=
  (∀ (s : State) (n : Fin 24), s.dev.auxOn n = true →
    let tripped (code : Nat) (t : State) : Prop :=
      let dst := if s.dev.f (Reg.AUX_NSTAT_RETRIES n.1) < s.dev.f (Reg.AUX_NCFG_RETRY n.1) then 4 else 5
      t.dev.f (Reg.AUX_NSTAT_LAST n.1) = code ∧ t.dev.auxSt n = (if s.dev.f (Reg.AUX_SENSE_CODE n.1) = 0 then dst else 3) ∧
      (t.dev.aux[n]).clampTo = dst ∧ (dst = 5 → t.dev.bit (Reg.AUX_CTL_ON n.1) = false)
    ((s.dev.auxSt n = 2 ∨ (s.dev.aux[n]).winAt + 4000 * s.dev.f (Reg.AUX_DIAG_SC_BLANK n.1) ≤ s.dev.up) →
      Answers (.short n) s (tripped 1)) ∧
    (∀ t0, (s.dev.aux[n]).limAt = some t0 → t0 + 400000 * s.dev.f (Reg.AUX_DIAG_LIM_T n.1) ≤ s.dev.up →
      Answers (.overload n) s (tripped 2)) ∧
    Answers (.ot n) s (tripped 3)) ∧
  (∀ (s : State) (n : Fin 24), s.dev.auxSt n = 4 → (s.dev.aux[n]).offAt + 4000000 ≤ s.dev.up → s.dev.sup.vaux = true →
    ((s.dev.aux[n]).offOt = false ∨ signed 32 (s.dev.f (Reg.AUX_TJ_T n.1)) ≤ 145000) →
    Answers (.retry n) s (fun t => t.dev.auxSt n = (if s.dev.f (Reg.AUX_NCFG_IRUSH n.1) = 0 then 2 else 1) ∧
      t.dev.f (Reg.AUX_NSTAT_RETRIES n.1) = min 3 (s.dev.f (Reg.AUX_NSTAT_RETRIES n.1) + 1))) ∧
  (∀ (s : State) (n : Fin 24) (t0 : Nat), s.dev.auxSt n = 2 → (s.dev.aux[n]).onAt = some t0 → t0 + 400000000 ≤ s.dev.up →
    Answers (.retriesReset n) s (fun t => t.dev.f (Reg.AUX_NSTAT_RETRIES n.1) = 0 ∧ t.dev.auxSt n = 2)) ∧
  (∀ (s : State) (src : Src) (w : Word), Reaches s src Reg.AUX_CLR_at →
    Answers (.auxClr src w) s (fun t => ∀ n : Fin 24,
      t.dev.auxSt n = (if w.toNat.testBit n.1 = true ∧ s.dev.auxSt n = 5 then 0 else s.dev.auxSt n) ∧
      t.dev.f (Reg.AUX_NSTAT_RETRIES n.1) = if w.toNat.testBit n.1 then 0 else s.dev.f (Reg.AUX_NSTAT_RETRIES n.1))) ∧
  (∀ (s : State) (n : Fin 24) (t0 : Nat), t0 + 4000000 ≤ s.dev.up →
    ((s.dev.aux[n]).lowAt = some t0 → s.dev.auxSt n = 2 → s.dev.f (Reg.AUX_DIAG_OL_TH n.1) ≠ 0 →
      s.dev.bit (Reg.AUX_NSTAT_OPEN n.1) = false →
      Answers (.openLoad n) s (fun t => t.dev.bit (Reg.AUX_NSTAT_OPEN n.1) = true ∧ t.dev.tb Reg.AUX_OL_EVT_SW n.1 = true)) ∧
    ((s.dev.aux[n]).highAt = some t0 → Answers (.openLoadClear n) s (fun t => t.dev.bit (Reg.AUX_NSTAT_OPEN n.1) = false))) ∧
  (∀ (s : State) (g : Fin 6) (temp : Int),
    (1000 * (s.dev.f Reg.AUX_CFG_GRP_WARN : Int) ≤ temp → s.dev.tb Reg.AUX_STAT_GWARN g.1 = false →
      Answers (.groupWarning g temp) s (fun t => t.dev.tb Reg.AUX_STAT_GWARN g.1 = true ∧ t.dev.tb Reg.AUX_EVT_GWARN g.1 = true ∧
        ∀ n : Fin 24, n.1 / 4 = g.1 → s.dev.auxSt n = 1 → t.dev.bit (Reg.AUX_NSTAT_WARNED n.1) = true)) ∧
    (temp ≤ 1000 * (s.dev.f Reg.AUX_CFG_GRP_WARN : Int) - 10000 →
      Answers (.groupWarningClear g temp) s (fun t => t.dev.tb Reg.AUX_STAT_GWARN g.1 = false))) ∧
  (∀ (s : State) (xs : List AuxSample),
    let sum := ((List.finRange 24).map (fun n => match xs[n.1]? with | some x => s.dev.auxPower n x | none => 0)).sum
    let total := ((sum :: s.dev.auxSum).take 10000).sum
    Answers (.dissipationEstimate xs) s (fun t => t.dev.f Reg.AUX_PWR_P = min 65535 (total / 10000000) ∧
      t.dev.bit Reg.AUX_STAT_PBUD = decide (40000000000 < total) ∧
      ∀ (n : Fin 24) (x : AuxSample), xs[n.1]? = some x → t.dev.f (Reg.AUX_SENSE_CODE n.1) = min 4095 (x.ma / 2)))

/-- Madder's cycle and faults (R373–R386). Where it rests on choices or readings of the model: log entries 87 and 90. -/
def Obligations.MadderCyclesAreSafe : Prop :=
  (∀ (s : State) (a b fb rb : Nat), Answers (.madderCycle a b fb rb) s (fun t =>
    (s.dev.sup.vaux = false → t.dev.sf1 ≠ 2 ∧ ∀ n < 4, t.dev.ob n ≠ 2) ∧
    (s.dev.mad.beatAt.getD 0 + s.dev.hbTo ≤ s.dev.up → s.dev.mad.hbActed = false → t.dev.sf1 ≠ 2 ∧ ∀ n < 4, t.dev.ob n ≠ 2) ∧
    (∀ m, s.dev.mad.req = some m → t.dev.mad.req = none ∧ t.dev.sf1 ≠ 2 ∧ ∀ n < 4, m.testBit n = true → t.dev.ob n ≠ 2) ∧
    (∀ i < 8, t.dev.tb Reg.MAD_IN_DEMAND i = true →
      ((s.dev.mcfg i).testBit 16 = true ∨ bits (s.dev.mcfg i) 17 4 ≠ 0 → t.dev.sf1 ≠ 2) ∧
      ∀ n < 4, (bits (s.dev.mcfg i) 17 4).testBit n = true → t.dev.ob n ≠ 2))) ∧
  (∀ (s : State), s.dev.mad.beatAt.getD 0 + s.dev.hbTo ≤ s.dev.up → s.dev.mad.hbActed = false →
    Answers .hbLost s (fun t => t.dev.bit Reg.MAD_STAT_HB_OK = false ∧ t.dev.mad.hbActed = true ∧ t.dev.sf1 ≠ 2 ∧
      ∀ n < 4, t.dev.ob n ≠ 2)) ∧
  (∀ (s : State) (c : MadFault), Answers (.madderSupplyFault c) s (fun t => t.dev.sf1 = 3 ∧ (∀ n < 4, t.dev.ob n = 3) ∧
    t.dev.mad.hard = true ∧ t.dev.bit (match c with | .rail | .oscillator => Reg.MAD_STAT_SUP_OK | .copies => Reg.MAD_STAT_CFG_OK) = false)) ∧
  (∀ (s : State) (n : Fin 4), s.dev.sobEn n.1 = true → s.dev.ob n.1 ≠ 3 → s.dev.mad.pulse = none →
    s.dev.tb Reg.MAD_STAT_FB n.1 = (s.dev.ob n.1 == 2) → (s.dev.mad.obAt[n]) + s.dev.fbT ≤ s.dev.up →
    Answers (.fbFail n) s (fun t => t.dev.ob n.1 = 3 ∧ t.dev.sf1 ≠ 2 ∧ t.dev.tb Reg.MAD_EVT_FB_FAIL 0 = true)) ∧
  (∀ (s : State), Live s → s.dev.safeStop = true → s.dev.mad.told = false →
    Answers .safeStopKill s (fun t => t.dev.mad.told = true ∧ ∀ n : Fin 24, s.dev.bit (Reg.AUX_NCFG_SAFE n.1) = true →
      t.dev.auxOn n = false ∧ t.dev.bit (Reg.AUX_CTL_ON n.1) = false))

/-- Madder's heartbeat, tests and re-arm (R384–R393). Where it rests on choices or readings of the model: log entries 87, 88, 89, 114 and 115. -/
def Obligations.MadderTestsAndRearms : Prop :=
  (∀ (s : State) (src : Src) (w : Word), Reaches s src Reg.MAD_HB_at →
    let p := src.master.1 - 4
    let seq := bits w.toNat 0 8
    let good := s.dev.f Reg.MAD_HB_STAT_PAIR = p ∧ s.dev.f (Reg.LS_STAT_STATE p) ≠ 2 ∧ bits w.toNat 8 8 = 255 - seq ∧
      (s.dev.mad.moved = true ∨ seq = (s.dev.f Reg.MAD_HB_STAT_LAST + 1) % 256)
    (s.dev.cores[(if p = 0 then 4 else 5 : Fin 6)]).expired = false →
    WaitsForMatch s src Reg.MAD_HB_at w (.heartbeat src w) ∧
    (good → WriteDoes s src Reg.MAD_HB_at w (.heartbeat src w) (fun t => t.dev.mad.beatAt = some s.dev.up ∧ t.dev.f Reg.MAD_HB_STAT_LAST = seq ∧
      t.dev.bit Reg.MAD_STAT_HB_OK = true ∧ t.dev.mad.hbActed = false)) ∧
    (¬ good → WriteDoes s src Reg.MAD_HB_at w (.heartbeat src w) (fun t => t.dev.mad = s.dev.mad ∧
      t.dev.f Reg.MAD_CNT_HB_REJ_COUNT = min (2 ^ 32 - 1) (s.dev.f Reg.MAD_CNT_HB_REJ_COUNT + 1)))) ∧
  (∀ (s : State) (src : Src) (w : Word), Reaches s src Reg.MAD_REQ_at →
    WaitsForMatch s src Reg.MAD_REQ_at w (.safetyRequest src w) ∧
    (bits w.toNat 16 16 = 0x5AFE → (w.toNat.testBit 0 = true ∨ bits w.toNat 4 4 ≠ 0) →
      WriteDoes s src Reg.MAD_REQ_at w (.safetyRequest src w) (fun t => t.dev.mad.req = some (s.dev.mad.req.getD 0 ||| bits w.toNat 4 4))) ∧
    (bits w.toNat 16 16 ≠ 0x5AFE → WriteDoes s src Reg.MAD_REQ_at w (.safetyRequest src w) (fun t => t.dev.mad = s.dev.mad))) ∧
  (∀ (s : State) (o : Fin 8), s.dev.outOn o = true → s.dev.mad.pulse = none →
    (s.dev.mad.testAt[o]) + 40000000 * bits (s.dev.mcfg 8) 8 8 ≤ s.dev.up →
    Answers (.testPulse o) s (fun t => t.dev.mad.pulse = some ⟨o, s.dev.mad.testLow[o], s.dev.up, false⟩ ∧
      t.dev.mad.testAt[o] = s.dev.up)) ∧
  (∀ (s : State) (p : MadPulse) (ok : Bool), s.dev.mad.pulse = some p → p.discard = false → s.dev.mad.rearmDue = none →
    p.at_ + 400 * bits (s.dev.mcfg 8) 16 9 ≤ s.dev.up →
    Answers (.testPulseEnd ok) s (fun t => t.dev.mad.pulse = none ∧ t.dev.mad.testLow[p.out] = !p.low ∧
      (ok = true → t.dev.f Reg.MAD_CNT_TEST_OK_COUNT = min (2 ^ 32 - 1) (s.dev.f Reg.MAD_CNT_TEST_OK_COUNT + 1)) ∧
      (ok = false → if p.out.1 < 4 then t.dev.sf1 = 3 else t.dev.ob (p.out.1 - 4) = 3))) ∧
  (∀ (s : State) (us pass : Nat),
    let ok := s.dev.f Reg.MAD_IN_DEMAND = 0 ∧ s.dev.f Reg.MAD_IN_DISC = 0 ∧ s.dev.mad.beatAt.isSome = true ∧
      s.dev.up < s.dev.mad.beatAt.getD 0 + s.dev.hbTo ∧ s.dev.mad.req = none ∧ s.dev.sup.vaux = true ∧ s.dev.mad.hard = false ∧
      ∀ n < 4, s.dev.sobEn n = true → s.dev.tb Reg.MAD_STAT_FB n = true
    ((us < 50000 ∨ 3000000 < us) → Answers (.srstPulse us pass) s (fun t => t.dev.mad = s.dev.mad ∧ t.dev.sf1 = s.dev.sf1)) ∧
    (50000 ≤ us → us ≤ 3000000 → s.dev.mad.pulse.isSome = true →
      Answers (.srstPulse us pass) s (fun t => t.dev.mad.rearmDue = some pass ∧ t.dev.sf1 = s.dev.sf1)) ∧
    (50000 ≤ us → us ≤ 3000000 → s.dev.mad.pulse = none → ¬ ok →
      Answers (.srstPulse us pass) s (fun t => t.dev.mad = s.dev.mad ∧ t.dev.sf1 = s.dev.sf1 ∧
        t.dev.tb Reg.MAD_EVT_REARM_REFUSED 0 = true)) ∧
    (50000 ≤ us → us ≤ 3000000 → s.dev.mad.pulse = none → ok → (s.dev.sf1 = 0 ∨ s.dev.sf1 = 3) →
      (∀ n < 4, pass.testBit (4 + n) = true) →
      Answers (.srstPulse us pass) s (fun t => t.dev.sf1 = 1 ∧ t.dev.mad.rearm.isSome = true ∧
        ∀ n < 4, s.dev.sobEn n = true → t.dev.ob n = 2)) ∧
    (50000 ≤ us → us ≤ 3000000 → s.dev.mad.pulse = none → ok → s.dev.sf1 = 2 → (∃ n < 4, s.dev.sobEn n = true ∧ s.dev.ob n = 3) →
      (∀ n < 4, pass.testBit (4 + n) = true) →
      Answers (.srstPulse us pass) s (fun t => t.dev.sf1 = 2 ∧ t.dev.mad.rearm.isSome = true ∧
        ∀ n < 4, s.dev.sobEn n = true → t.dev.ob n = 2))) ∧
  (∀ (s : State) (t0 mask fb pass : Nat), s.dev.mad.rearm = some (t0, mask) →
    ((fb &&& mask) % 16 ≠ 0 → Answers (.rearmFeedback fb pass) s (fun t => t.dev.sf1 = s.dev.sf1 ∧ t.dev.mad = s.dev.mad)) ∧
    ((fb &&& mask) % 16 = 0 → s.dev.sf1 = 2 → Answers (.rearmFeedback fb pass) s (fun t => t.dev.mad.rearm = none ∧ t.dev.sf1 = 2 ∧
      t.dev.tb Reg.MAD_EVT_REARM_OK 0 = true)) ∧
    ((fb &&& mask) % 16 = 0 → s.dev.sf1 ≠ 2 → Answers (.rearmFeedback fb pass) s (fun t => t.dev.mad.rearm = none ∧
      t.dev.sf1 = (if pass % 16 = 15 then 2 else 3) ∧ t.dev.safeStop = !decide (pass % 16 = 15)))) ∧
  (∀ (s : State) (src : Src) (w : Word), Reaches s src Reg.MAD_CFG_COMMIT_at → w.toNat.testBit 0 = true →
    let ws := s.dev.madStaged
    let ok := (s.dev.sf1 = 0 ∨ s.dev.sf1 = 3) ∧ (∀ n < 4, s.dev.ob n = 0 ∨ s.dev.ob n = 3) ∧
      crc32 (ws.flatMap (leBytes 4)) = s.dev.f Reg.MAD_CFG_CRC_CRC ∧ madRanges ws = true
    WaitsForMatch s src Reg.MAD_CFG_COMMIT_at w (.cfgCommit src w) ∧
    (ok → WriteDoes s src Reg.MAD_CFG_COMMIT_at w (.cfgCommit src w) (fun t => t.dev.mad.cfgA = ws ∧ t.dev.mad.cfgB = ws ∧
      t.dev.f Reg.MAD_CFG_ACT_CRC_CRC = crc32 (ws.flatMap (leBytes 4)) % 2 ^ 32)) ∧
    (¬ ok → WriteDoes s src Reg.MAD_CFG_COMMIT_at w (.cfgCommit src w) (fun t => t.dev.mad = s.dev.mad ∧ t.dev.tb Reg.MAD_EVT_CFG_FAIL 0 = true)))

/-- Supply and resets (R397–R409). Where it rests on choices or readings of the model: log entries 24, 25, 95 and 137. -/
def Obligations.SupplyAndResets : Prop :=
  (∀ (s : State), Answers .powerOnReset s (fun t => (∀ r : RF, r.key ≠ Reg.MORD_STAT_TESTROOT.key → t.dev.f r = r.dflt) ∧
    t.dev.bit Reg.MORD_STAT_TESTROOT = (s.dev.bit Reg.MORD_STAT_TESTROOT && !(s.dev.fuse.lc == 1 || s.dev.fuse.lc == 2)) ∧ t.dev.sup.held = true ∧ t.dev.fuse = s.dev.fuse)) ∧
  (∀ (s : State), s.dev.sup.held = true → s.dev.sup.vin = false → s.dev.f Reg.RST_STAT_SUP = 0 →
    Answers .vinRise s (fun t => t.dev.sup.vin = true ∧ t.dev.sup.held = true ∧ t.dev.tb Reg.PWR_STAT_RAIL_OK 0 = true)) ∧
  (∀ (s : State) (r m : Bool), s.dev.sup.held = true → s.dev.sup.vin = true →
    Answers (.logicDieRelease r m) s (fun t => Live t ∧ t.dev.sup.rom = true ∧ t.dev.f Reg.RST_BOOT_STAGE = 1 ∧
      t.dev.bit Reg.RST_STRAP_REFSEL = r ∧ t.dev.bit Reg.RST_STRAP_MSTR = m ∧ t.dev.bit Reg.TB_CTL_REF_SEL = r ∧
      t.dev.bit Reg.JASIA_CFG_ROLE = m ∧ t.dev.f Reg.PWR_STAT_RAIL_OK = 63 ∧ t.dev.link = [])) ∧
  (∀ (s : State) (mv : Nat), Live s →
    (mv < 10 * s.dev.f Reg.PWR_VIN_CFG_WARN →
      Answers (.vinWarning mv) s (fun t => t.dev.bit Reg.PWR_STAT_VIN_LOW = true ∧ t.dev.tb Reg.PWR_EVT_VIN_WARN 0 = true)) ∧
    (10 * s.dev.f Reg.PWR_VIN_CFG_WARN + 100 ≤ mv →
      Answers (.vinWarningClear mv) s (fun t => t.dev.bit Reg.PWR_STAT_VIN_LOW = false))) ∧
  (∀ (s : State) (rail : Fin 6), Live s → s.dev.sup.evAt = none →
    Answers (.supplyEvent rail) s (fun t => t.dev.sup.evAt = some s.dev.up ∧ t.dev.sup.evRail = rail.1 ∧
      t.dev.tb Reg.PWR_STAT_RAIL_OK rail.1 = false ∧ t.dev.mad.req.isSome = true)) ∧
  (∀ (s : State) (t0 : Nat), s.dev.sup.evAt = some t0 → t0 + 8000 ≤ s.dev.up →
    Answers .supplyShutdown s (fun t => t.dev.sup.held = true ∧ t.dev.sup.evAt = none ∧ t.dev.f Reg.PWR_STAT_RAIL_OK = 0 ∧
      t.dev.f Reg.RST_STAT_SUP = (1 + s.dev.sup.evRail) % 8 ∧
      ∀ n : Fin 24, (t.dev.aux[n]).holdTill = some (s.dev.up + 400000 * s.dev.f Reg.AUX_CFG_HOLD))) ∧
  (∀ (s : State), s.dev.sup.held = true → s.dev.sup.vin = false → s.dev.f Reg.RST_STAT_SUP ≠ 0 →
    Answers .supplyReset s (fun t => t.dev.f Reg.RST_STAT_CAUSE = 1 ∧ t.dev.sup.vin = true ∧ t.dev.sup.held = true ∧
      t.dev.aux = s.dev.aux ∧ t.dev.mad.cfgA = s.dev.mad.cfgA ∧ t.dev.up = s.dev.up ∧
      ∀ r : RF, r.lo < 32 → 0x200B0000 ≤ r.addr → r.addr < 0x200D0000 → t.dev.f r = s.dev.f r)) ∧
  (∀ (s : State) (b : Fin 4) (mv : Nat), Answers (.vioBankChange b mv) s (fun t =>
    t.dev.sup.vio[b] = (if mv < 1000 then 0 else if mv < 2500 then 1800 else 3300) ∧
    (∀ c : Fin 4, c ≠ b → t.dev.sup.vio[c] = s.dev.sup.vio[c]) ∧
    (b = 1 → s.dev.sup.vio[b] ≠ 0 → mv < 1000 → Live s → s.dev.f Reg.RST_BOOT_STAGE = 6 → t.dev.mad.req.isSome = true ∧
      t.dev.bit Reg.SYS_SVC_BASE = false))) ∧
  (∀ (s : State) (ns : Nat), Live s → s.dev.sup.warm = none → s.dev.sup.fuse = none →
    (ns < 1000 → Answers (.wrstN ns) s (fun t => t.dev.sup = s.dev.sup)) ∧
    (1000 ≤ ns → Answers (.wrstN ns) s (fun t => t.dev.sup.warm = some s.dev.up ∧ t.dev.f Reg.RST_STAT_CAUSE = 2 ∧
      t.dev.f Reg.RST_STAT_WSRC = 1))) ∧
  (∀ (s : State) (src : Src) (w : Word), Reaches s src Reg.RST_CTL_at → s.dev.sup.warm = none →
    let good := w.toNat.testBit 0 = true ∧ bits w.toNat 16 16 = 0x5752 ∧ (secureCore src = true ∨ bar0 src = true)
    (good → s.dev.sup.fuse = none → Answers (.warm src w) s (fun t => t.dev.sup.warm = some s.dev.up ∧
      t.dev.f Reg.RST_STAT_CAUSE = 2 ∧ t.dev.f Reg.RST_STAT_WSRC = if bar0 src then 3 else 2)) ∧
    (good → s.dev.sup.fuse.isSome = true → Answers (.warm src w) s (fun t => t.dev.sup.warm = none ∧
      t.dev.sup.warmWait.isSome = true)) ∧
    (¬ good → Answers (.warm src w) s (fun t => t.dev.sup = s.dev.sup))) ∧
  (∀ (s : State) (t0 : Nat), Live s → s.dev.sup.warm = some t0 → t0 + 80000 ≤ s.dev.up → s.dev.sup.lowTill ≤ s.dev.up →
    Answers .bootRomStart s (fun t => t.dev.sup.rom = true ∧ t.dev.f Reg.RST_BOOT_STAGE = 3)) ∧
  (∀ (s : State) (rail : Fin 6), s.dev.sup.held = true → s.dev.sup.vin = true →
    Answers (.supplyEvent rail) s (fun t => t.dev.sup.vin = false ∧ t.dev.sup.held = true ∧ t.dev.mad.req.isSome = true ∧
      t.dev.f Reg.RST_STAT_SUP = (1 + rail.1) % 8 ∧ t.dev.f Reg.PWR_STAT_RAIL_OK = 0))

/-- Boot (R411–R415). Where it rests on choices or readings of the model: log entries 91 and 94. -/
def Obligations.BootVerifiesAndReleases : Prop :=
  (∀ (s : State) (flash : Option (Image × Image)) (drbgOk : Bool) (ok : Fin 4), Live s → s.dev.sup.rom = true →
    let stops (code : Nat) : Prop := Answers (.bootComplete flash drbgOk ok) s (fun t => t.dev.f Reg.RST_BOOT_STAGE = 15 ∧
      t.dev.f Reg.RST_BOOT_CODE = code ∧ t.dev.sup.rom = false)
    let lock := s.dev.bit Reg.TB_STAT_LOCK
    let lc := s.dev.fuse.lc
    (s.dev.sup.warm = none → (lock = false → s.dev.sup.romAt + 4000000 ≤ s.dev.up → stops 11) ∧
      (lock = false → s.dev.up < s.dev.sup.romAt + 4000000 → Answers (.bootComplete flash drbgOk ok) s (fun t =>
        t.dev.sup.rom = true ∧ t.dev.f Reg.RST_BOOT_STAGE = s.dev.f Reg.RST_BOOT_STAGE)) ∧ (lock = true → (lc = 0 ∨ 4 ≤ lc) → stops 10) ∧
      (lock = true → 1 ≤ lc → lc ≤ 3 → drbgOk = false → stops 9)) ∧
    ((s.dev.sup.warm.isSome = true ∨ (lock = true ∧ 1 ≤ lc ∧ lc ≤ 3 ∧ drbgOk = true)) → ok.1.testBit 0 = true →
      (s.dev.f (Reg.PWR_QTAG_STATE 8) ≠ 0 → stops 9) ∧ (s.dev.f (Reg.PWR_QTAG_STATE 8) = 0 →
      (flash = none → stops 1) ∧
      ((s.dev.sup.vio[(1 : Fin 4)]) = 0 → stops 1) ∧
      ∀ pri alt, flash = some (pri, alt) → (s.dev.sup.vio[(1 : Fin 4)]) ≠ 0 →
        ((s.dev.tryImage pri).1 = 0 → Answers (.bootComplete flash drbgOk ok) s (fun t => t.dev.f Reg.RST_BOOT_STAGE = 6 ∧
          t.dev.f Reg.RST_BOOT_SLOT = 0 ∧ t.dev.f Reg.RST_SVN_RUN = hdr pri.header 8 4 % 64 ∧ t.dev.bit Reg.SYS_SVC_BASE = !s.dev.bit Reg.TB_STAT_HOLD ∧
          t.dev.sup.warm = none ∧ t.dev.sup.rom = false ∧ (t.dev.cores[(4 : Fin 6)]).held = false)) ∧
        ((s.dev.tryImage pri).1 ≠ 0 → (s.dev.tryImage alt).1 = 0 → Answers (.bootComplete flash drbgOk ok) s (fun t =>
          t.dev.f Reg.RST_BOOT_STAGE = 6 ∧ t.dev.f Reg.RST_BOOT_SLOT = 1 ∧ t.dev.f Reg.RST_SVN_RUN = hdr alt.header 8 4 % 64 ∧
          t.dev.f Reg.RST_BOOT_PRI_CODE = (s.dev.tryImage pri).1)) ∧
        ((s.dev.tryImage pri).1 ≠ 0 → (s.dev.tryImage alt).1 ≠ 0 → stops (s.dev.tryImage alt).1 ∧
          Answers (.bootComplete flash drbgOk ok) s (fun t => t.dev.f Reg.RST_BOOT_PRI_CODE = (s.dev.tryImage pri).1))))) ∧
  (∀ (s : State) (src : Src) (w : Word) (ok : Bool), Reaches s src Reg.RST_RELEASE_at →
    Answers (.coreRelease src w ok) s (fun t => ∀ n : Fin 6, n ≠ 4 → w.toNat.testBit n.1 = true → (s.dev.cores[n]).held = true →
      (t.dev.cores[n]).held = false ∧
      (t.dev.cores[n]).pc = s.dev.f64 Reg.RST_ENTRY_LO_ADDR Reg.RST_ENTRY_HI_ADDR % 2 ^ 40)) ∧
  (∀ (s : State) (src : Src) (w : Word), Reaches s src Reg.RST_SVN_REQ_at →
    let n := bits w.toNat 0 6
    Answers (.svnRequest src w) s (fun t => t.dev.fuse = s.dev.fuse ∧
      t.dev.sup.fuse = if src.master ≠ 14 ∧ pairSecure src = true ∧ bits w.toNat 16 16 = 0x5356 ∧ s.dev.fuse.svnMin < n ∧
        n ≤ s.dev.f Reg.RST_SVN_RUN ∧ s.dev.sup.fuse = none then some (.svn n, s.dev.up) else s.dev.sup.fuse)) ∧
  (∀ (s : State), Live s → s.dev.sup.rom = true → s.dev.sup.warm = none → s.dev.bit Reg.TB_STAT_LOCK = false →
    s.dev.bit Reg.TB_STAT_HOLD = false → s.dev.sup.romAt + 4000000 ≤ s.dev.up →
    Answers .tbLock s (fun t => t.dev.bit Reg.TB_STAT_LOCK = true ∧ t.dev.sup.rom = false ∧ t.dev.f Reg.RST_BOOT_STAGE = 15 ∧
      t.dev.f Reg.RST_BOOT_CODE = 11))

/-- Gnotar, the wire (R419–R421, R427, R428). Where it rests on choices or readings of the model: log entries 96, 99 and 100. -/
def Obligations.GnotarAnswersTheWire : Prop :=
  (∀ (s : State), Live s → Answers .portActivate s (fun t => t.dev.bit Reg.DBG_STAT_ACTIVE = true ∧ t.dev.dbg.memErr = false)) ∧
  (∀ (s : State) (req crc : Nat) (w : Word), Live s → s.dev.bit Reg.DBG_STAT_ACTIVE = true →
    let bad (t : State) : Prop := t.dev.out = .gnotar 0x58 0 0 :: s.dev.out ∧
      t.dev.dbg = { s.dev.dbg with crcErr := min (2 ^ 32 - 1) (s.dev.dbg.crcErr + 1) }
    (crc ≠ crc8 (beBytes 1 req) → bits req 6 2 ≠ 2 → Answers (.gnotarRead req crc) s bad ∧ Answers (.gnotarClear req crc) s bad) ∧
    (crc ≠ crc8 (beBytes 1 req ++ beBytes 4 w.toNat) → Answers (.gnotarWrite req w crc) s bad) ∧
    (crc = crc8 (beBytes 1 req) → bits req 6 2 = 1 → bits req 0 6 = 0 → Answers (.gnotarRead req crc) s (fun t =>
      t.dev.out = .gnotar 0x51 0x256FA200 (crc8 (beBytes 1 0x51 ++ beBytes 4 0x256FA200)) :: s.dev.out)) ∧
    (crc = crc8 (beBytes 1 req) → bits req 6 2 = 1 → s.dev.dpOpen (bits req 0 6) = false → Answers (.gnotarRead req crc) s (fun t =>
      t.dev.out = .gnotar 0x54 0 0 :: s.dev.out)) ∧
    (crc = crc8 (beBytes 1 req ++ beBytes 4 w.toNat) → bits req 6 2 = 2 → s.dev.dpOpen (bits req 0 6) = false →
      Answers (.gnotarWrite req w crc) s (fun t => t.dev.out = .gnotar 0x54 0 0 :: s.dev.out ∧ t.dev.fuse = s.dev.fuse ∧
        t.dev.cores = s.dev.cores)) ∧
    (crc = crc8 (beBytes 1 req ++ beBytes 4 w.toNat) → bits req 6 2 = 2 → s.dev.dpOpen (bits req 0 6) = true →
      s.dev.dpShut (bits req 0 6) = false →
      let acks (P : Dbg → Prop) : Prop := Answers (.gnotarWrite req w crc) s (fun t => t.dev.out = .gnotar 0x51 0 0 :: s.dev.out ∧ P t.dev.dbg)
      (bits req 0 6 = 0x08 → acks (fun g => g.addr % 2 ^ 32 = w.toNat / 4 * 4 ∧ g.addr / 2 ^ 32 = s.dev.dbg.addr / 2 ^ 32 ∧ g.got = none)) ∧
      (bits req 0 6 = 0x09 → acks (fun g => g.addr % 2 ^ 32 = s.dev.dbg.addr % 2 ^ 32 ∧ g.addr / 2 ^ 32 = w.toNat % 256 ∧ g.got = none)) ∧
      (bits req 0 6 = 0x0E → bits w.toNat 0 3 ≤ 5 → bits w.toNat 3 3 ≤ 5 → acks (fun g => g.bpsel = bits w.toNat 0 6)) ∧
      (bits req 0 6 = 0x12 → acks (fun g => g.cregSel = w.toNat)) ∧
      (bits req 0 6 = 0x14 → acks (fun g => g.fuseSel = w.toNat ∧ g.fuseData = [])) ∧
      (bits req 0 6 = 0x15 → acks (fun g => g.fuseData = s.dev.dbg.fuseData ++ [w.toNat]))) ∧
    (crc = crc8 (beBytes 1 req) → bits req 6 2 = 3 → Answers (.gnotarClear req crc) s (fun t => t.dev.dbg.memErr = false ∧
      t.dev.dbg.acc = none ∧ t.dev.dbg.got = none ∧ t.dev.out = .gnotar 0x51 0 0 :: s.dev.out)) ∧
    Answers (.certWord w) s (fun t => t.dev.dbg.cert = if s.dev.dbg.cert.length < 64 then s.dev.dbg.cert ++ [w.toNat]
      else s.dev.dbg.cert)) ∧
  (∀ (s : State) (w : Word), Live s → s.dev.bit Reg.DBG_STAT_ACTIVE = true → s.dev.memScope = true → s.dev.dbg.memErr = false →
    (∀ x, s.dev.dbg.got = some x → Answers .memoryRead s (fun t =>
      t.dev.out = .gnotar 0x51 x (crc8 (beBytes 1 0x51 ++ beBytes 4 x)) :: s.dev.out)) ∧
    (s.dev.dbg.got = none → s.dev.dbg.acc = none → Answers .memoryRead s (fun t => t.dev.out = .gnotar 0x52 0 0 :: s.dev.out ∧
      t.dev.dbg.acc = some ⟨false, s.dev.dbg.memctl.testBit 1, s.dev.dbg.addr, 0⟩)) ∧
    (s.dev.dbg.acc = none → Answers (.memoryWrite w) s (fun t => t.dev.out = .gnotar 0x51 0 0 :: s.dev.out ∧
      t.dev.dbg.acc = some ⟨true, s.dev.dbg.memctl.testBit 1, s.dev.dbg.addr, w.toNat⟩)) ∧
    (s.dev.dbg.acc.isSome = true → Answers (.memoryWrite w) s (fun t => t.dev.out = .gnotar 0x52 0 0 :: s.dev.out ∧
      t.dev.dbg.acc = s.dev.dbg.acc))) ∧
  (∀ (s : State) (a : DbgAcc) (t_ : Nat), Clean s → s.dev.dbg.acc = some a → inSram a.addr = true →
    Permitted s ⟨14, a.secure, 0⟩ (if a.write then .write else .read) a.addr t_ → s.dev.serves a.addr = true →
    Answers (.memoryAccessDone .ok) s (fun t => t.dev.dbg.acc = none ∧
      t.dev.dbg.addr = (if s.dev.dbg.memctl.testBit 0 then (s.dev.dbg.addr + 4) % 2 ^ 40 else s.dev.dbg.addr) ∧
      (a.write = true → Stored s t a.addr (leBytes 4 a.data)) ∧
      (a.write = false → SameMem s t ∧ t.dev.dbg.got = some (s.memWord a.addr 4)))) ∧
  (∀ (s : State) (w : Word), Live s → s.dev.bit Reg.DBG_STAT_ACTIVE = true → (s.dev.cores[s.dev.selCore]).halted.isSome = true →
    s.dev.haltAllowed s.dev.selCore = true →
    Answers (.coreRegisterAccess true w) s (fun t => ((t.dev.cores[s.dev.selCore]).gpr.find? (fun e => e.1 == s.dev.dbg.cregSel)) =
      some (s.dev.dbg.cregSel, w.toNat)) ∧
    ∀ x, (s.dev.cores[s.dev.selCore]).gpr.find? (fun e => e.1 == s.dev.dbg.cregSel) = some x →
      Answers (.coreRegisterAccess false w) s (fun t =>
        t.dev.out.head? = some (.gnotar 0x51 x.2 (crc8 (beBytes 1 0x51 ++ beBytes 4 x.2)))))

/-- Gnotar, sessions (R422–R431). Where it rests on choices or readings of the model: log entries 97 and 98. -/
def Obligations.GnotarSessionsAndControl : Prop :=
  (∀ (s : State), Live s → s.dev.bit Reg.DBG_STAT_ACTIVE = true →
    (s.dev.dbg.verify = none → Answers .go s (fun t =>
      t.dev.dbg.verify = some (s.dev.up, s.dev.dbg.cert, s.dev.dbg.chal, s.dev.unlockBar))) ∧
    (s.dev.dbg.verify.isSome = true → Answers .go s (fun t => t.dev.dbg.verify = s.dev.dbg.verify ∧
      t.dev.out = .gnotar 0x52 0 0 :: s.dev.out)) ∧
    Answers .lock s (fun t => t.dev.bit Reg.DBG_STAT_UNLOCKED = false ∧ t.dev.f Reg.DBG_STAT_SCOPE = 0 ∧ t.dev.dbg.catchOn = false ∧
      (∀ b ∈ t.dev.dbg.bps, b.ctl.testBit 0 = false) ∧
      ∀ n : Fin 6, (t.dev.cores[n]).halted = none ∧ (t.dev.cores[n]).haltPend = false) ∧
    Answers .certClear s (fun t => t.dev.dbg.cert = [])) ∧
  (∀ (s : State) (t0 chal bar : Nat) (cert : List Nat), Live s → s.dev.dbg.verify = some (t0, cert, chal, bar) →
    (bar = 0 → s.dev.judgeCert cert chal = 1 → Answers .unlockResult s (fun t => t.dev.bit Reg.DBG_STAT_UNLOCKED = true ∧
      t.dev.f Reg.DBG_STAT_SCOPE = cert.getD 4 0 % 256 ∧ t.dev.bit Reg.MORD_STAT_TESTROOT = true ∧ t.dev.dbg.verify = none)) ∧
    ((bar = 0 → s.dev.judgeCert cert chal ≠ 1) → bar ≠ 1 → Answers .unlockResult s (fun t =>
      t.dev.bit Reg.DBG_STAT_UNLOCKED = s.dev.bit Reg.DBG_STAT_UNLOCKED ∧ t.dev.f Reg.DBG_STAT_SCOPE = s.dev.f Reg.DBG_STAT_SCOPE ∧
      t.dev.dbg.fails = s.dev.dbg.fails + 1 ∧ t.dev.dbg.lastFail = some s.dev.up ∧ t.dev.dbg.verify = none))) ∧
  (∀ (s : State) (m : Fin 64), Live s → s.dev.bit Reg.DBG_STAT_ACTIVE = true →
    let named (n : Fin 6) : Prop := m.1.testBit n.1 = true
    ((∀ n, named n → s.dev.haltAsk n = true ∧ s.dev.haltAllowed n = true ∧ (s.dev.cores[n]).held = false) →
      Answers (.halt m) s (fun t => ∀ n, named n → (t.dev.cores[n]).halted.isSome = true)) ∧
    ((∀ n, named n → s.dev.resumeAsk n = true) →
      Answers (.runctlResume m) s (fun t => ∀ n, named n → (t.dev.cores[n]).halted = none)) ∧
    ((∀ n, named n → s.dev.haltAllowed n = true ∧ (s.dev.cores[n]).halted.isSome = true) →
      Answers (.runctlStep m) s (fun t => ∀ n, named n → (t.dev.cores[n]).halted = (s.dev.cores[n]).halted ∧
        (t.dev.cores[n]).gpr = []))) ∧
  (∀ (s : State), Live s → s.dev.bit Reg.DBG_STAT_ACTIVE = true → s.dev.scope 5 = true → s.dev.sup.warm = none →
    s.dev.sup.fuse = none →
    Answers .gnotarReset s (fun t => t.dev.sup.warm = some s.dev.up ∧ t.dev.f Reg.RST_STAT_WSRC = 4)) ∧
  (∀ (s : State) (n c : Fin 6) (addr : Nat) (kind : BpKind) (pc : Nat) (b : Bp), Live s →
    s.dev.dbg.bps.find? (fun b => b.core == n.1 && b.comp == c.1) = some b → s.dev.bpMatch n b addr kind = true →
    s.dev.haltAllowed n = true → s.dev.coreRuns n = true →
    Answers (.breakpointHit n c addr kind pc) s (fun t => (t.dev.cores[n]).halted.isSome = true ∧ (t.dev.cores[n]).byBp = true ∧
      (t.dev.cores[n]).pc = pc % 2 ^ 40)) ∧
  (∀ (s : State), Live s → s.dev.bit Reg.DBG_STAT_ACTIVE = true → s.dev.scope 7 = true → s.dev.sup.fuse = none →
    (∀ k : Fin 4, bits s.dev.dbg.fuseSel 0 4 = k.1 → (s.dev.fuse.owner[k]).all (fun x => x == 0) = true →
      12 ≤ s.dev.dbg.fuseData.length →
      Answers .fuseGo s (fun t => if s.dev.fuse.lc ≤ 1 then
        t.dev.sup.fuse = some (.ownerKey k (s.dev.dbg.fuseData.take 12), s.dev.up) ∧ t.dev.out.head? = some (.gnotar 0x51 0 0)
        else t.dev.sup.fuse = none ∧ t.dev.out.head? = some (.gnotar 0x54 0 0))) ∧
    (bits s.dev.dbg.fuseSel 0 4 = 15 → s.dev.fuse.lc = 0 →
      Answers .dev s (fun t => t.dev.sup.fuse = some (.lifeCycle 1, s.dev.up)))) ∧
  (∀ (s : State) (w : Word), Live s → s.dev.bit Reg.DBG_STAT_ACTIVE = true → s.dev.scope 6 = true → s.dev.sup.fuse = none →
    Answers (.returnLc w) s (fun t => if bits w.toNat 16 16 = 0x5254 ∧ (s.dev.fuse.lc = 1 ∨ s.dev.fuse.lc = 2) then
      t.dev.sup.fuse = some (.lifeCycle 3, s.dev.up)
      else t.dev.sup.fuse = none ∧ t.dev.out.head? = some (.gnotar 0x54 0 0)))

/-- Event sources (R433, R434). Where it rests on choices or readings of the model: log entry 78. -/
def Obligations.EventsAreRouted : Prop :=
  (∀ (s : State) (src : Src) (i : Fin 96) (w : Word), Reaches s src (Reg.EVT_ROUTE_at i.1) →
    (secureCore src = true → bits w.toNat 0 2 < 3 →
      s.dev.routeBad i.1 (bits w.toNat 0 2) (bits w.toNat 2 3) (bits w.toNat 6 6) (bits w.toNat 12 6) = false →
      Answers (.routeWrite src i w) s (fun t => t.dev.f (Reg.EVT_ROUTE_KIND i.1) = bits w.toNat 0 2 ∧
        t.dev.f (Reg.EVT_ROUTE_SLICE i.1) = bits w.toNat 6 6 ∧ t.dev.f (Reg.EVT_ROUTE_VEC i.1) = bits w.toNat 12 6)) ∧
    ((routeWriter src = false ∨ (bar0 src = true ∧ s.dev.f (Reg.EVT_ROUTE_KIND i.1) = 1)) →
      Answers (.routeWrite src i w) s (fun t => t.dev.f (Reg.EVT_ROUTE_KIND i.1) = s.dev.f (Reg.EVT_ROUTE_KIND i.1) ∧
        t.dev.f (Reg.EVT_ROUTE_CORE i.1) = s.dev.f (Reg.EVT_ROUTE_CORE i.1) ∧
        t.dev.f (Reg.EVT_ROUTE_SLICE i.1) = s.dev.f (Reg.EVT_ROUTE_SLICE i.1)))) ∧
  (∀ (s : State) (src : Src) (w : Fin 3) (x : Word), Reaches s src (Reg.EVT_EN_at w.1) →
    Answers (.enableWrite src w x) s (fun t => ∀ j < 32, t.dev.tb (Reg.EVT_EN_SRC w.1) j =
      if routeWriter src = false ∨ (bar0 src = true ∧ s.dev.f (Reg.EVT_ROUTE_KIND (32 * w.1 + j)) = 1) then
        s.dev.tb (Reg.EVT_EN_SRC w.1) j
      else x.toNat.testBit j)) ∧
  (∀ (s : State) (src : Src) (w : Word), Reaches s src Reg.EVT_SWI_at →
    Answers (.softwareEvent src w) s (fun t => ∀ j < 8, t.dev.tb (Reg.EVT_PEND_SRC 2) (18 + j) =
      (s.dev.tb (Reg.EVT_PEND_SRC 2) (18 + j) || w.toNat.testBit j) ∧
      (w.toNat.testBit j = true → s.dev.tb (Reg.EVT_EN_SRC 2) (18 + j) = true → s.dev.f (Reg.EVT_ROUTE_KIND (82 + j)) = 1 →
        t.dev.coreLine (s.dev.f (Reg.EVT_ROUTE_CORE (82 + j))) (s.dev.bit (Reg.EVT_ROUTE_SEC (82 + j))) = true)))

/-- Disable and retrain wait for IDLE channels (R77). -/
def Obligations.LaneWritesNeedIdleChannels : Prop :=
  ∀ (s : State) (src : Src) (v : Fin 16) (w : Word) (i : Instr), Reaches s src (Reg.LANE_CTL_at v.1) → Clean s →
    ((i = .laneDisable src v w ∧ w.toNat.testBit 0 = false) ∨
     (i = .retrain src v w ∧ w.toNat.testBit 0 = true ∧ w.toNat.testBit 1 = true) ∨
     (i = .laneEnable src v w ∧ w.toNat.testBit 0 = true ∧ w.toNat.testBit 1 = true ∧ s.dev.bit (Reg.LANE_CTL_EN v.1) = false)) →
    (s.dev.allIdle v = false → Answers i s (fun t => SameRegs s t ∧ SameMem s t ∧ t.dev.vats = s.dev.vats ∧
      t.dev.evlog.head? = some ⟨0x04, 0xFF, accInfo src true 0, Reg.LANE_CTL_at v.1 - 0x20000000, s.dev.now⟩)) ∧
    (s.dev.allIdle v = true → Answers i s (fun t => SameMem s t ∧ t.dev.bit (Reg.LANE_CTL_EN v.1) = w.toNat.testBit 0 ∧
      (w.toNat.testBit 0 = false → s.dev.bit (Reg.LANE_CTL_EN v.1) = true → t.dev.laneState v = laneOff) ∧
      (w.toNat.testBit 0 = true → t.dev.laneState v = laneLock)))

/-- A load of TB_NOW clears what rests on the old numbering (R281). -/
def Obligations.LoadsClearComparatorsAndCaptures : Prop :=
  (∀ (s : State) (src : Src) (w : Word), Reaches s src Reg.TB_LOAD_HI_at → Clean s → s.dev.bit Reg.TB_STAT_LOADED = false →
    s.dev.everyIdle = true →
    Answers (.tbLoad src w) s (fun t => (∀ i < 16, t.dev.bit (Reg.TB_CMP_CTL_ARMED i) = false) ∧ t.dev.ptp.tout = 0 ∧
      (∀ p : Fin 8, t.dev.ptp.pulse[p] = none ∧ t.dev.ptp.cap[p] = [] ∧ t.dev.f (Reg.TB_CAP_STAT_COUNT p.1) = 0) ∧
      t.dev.now = (s.dev.heldFor src Reg.TB_LOAD_LO_at).getD 0 + 2 ^ 32 * w.toNat ∧ SameMem s t)) ∧
  (∀ (s : State) (i : Fin 16), Clean s → s.dev.bit (Reg.TB_CMP_CTL_ARMED i.1) = true → s.dev.ptp.cmpAt[i] ≠ s.dev.now →
    Answers (.comparatorFire i) s (fun t => t.dev = s.dev ∧ SameMem s t))

/-- The supply warning (R401). -/
def Obligations.SupplyWarningOnlyWarns : Prop :=
  ∀ (s : State) (mv : Nat), Live s → Clean s →
    let warn := 10 * s.dev.f Reg.PWR_VIN_CFG_WARN
    let rest (t : State) : Prop := SameMem s t ∧ t.dev.vats = s.dev.vats ∧ t.dev.sup = s.dev.sup ∧ t.dev.mad = s.dev.mad ∧
      t.dev.cores = s.dev.cores ∧ t.dev.now = s.dev.now ∧
      ∀ r : RF, r.lo < 32 → (r.addr < 0x20004000 ∨ 0x20004800 ≤ r.addr) → r.key ≠ Reg.PWR_STAT_VIN_LOW.key →
        r.key ≠ Reg.PWR_EVT_VIN_WARN.key → t.dev.f r = s.dev.f r
    (mv < warn → Answers (.vinWarning mv) s (fun t => t.dev.bit Reg.PWR_STAT_VIN_LOW = true ∧
      t.dev.tb Reg.PWR_EVT_VIN_WARN 0 = true ∧ rest t)) ∧
    (warn ≤ mv → Answers (.vinWarning mv) s (fun t => t.dev = s.dev ∧ SameMem s t)) ∧
    (warn + 100 ≤ mv → Answers (.vinWarningClear mv) s (fun t => t.dev.bit Reg.PWR_STAT_VIN_LOW = false ∧
      t.dev.f Reg.PWR_EVT_VIN_WARN = s.dev.f Reg.PWR_EVT_VIN_WARN ∧ rest t)) ∧
    (mv < warn + 100 → Answers (.vinWarningClear mv) s (fun t => t.dev = s.dev ∧ SameMem s t))

/-- The device event log (R437, R438). -/
def Obligations.LogEntriesAreNeverRefused : Prop :=
  (∀ (d : Dev) (code source info data : Nat),
    let x := d.log code source info data
    x.evlog.head? = some ⟨code, source, info, data % 2 ^ 32, d.now⟩ ∧
    x.f Reg.EVT_LOG_PI_VALUE = (d.f Reg.EVT_LOG_PI_VALUE + 1) % 2 ^ 32 ∧
    (∀ j < 4, x.f (Reg.EVT_LOG_W_WORD j) = d.f (Reg.EVT_LOG_W_WORD j)) ∧ x.f Reg.EVT_LOG_SSTAT_STALE = d.f Reg.EVT_LOG_SSTAT_STALE ∧
    (d.logFill = 4096 → x.f Reg.EVT_LOG_CI_VALUE = (d.f Reg.EVT_LOG_CI_VALUE + 1) % 2 ^ 32 ∧
      x.f Reg.EVT_LOG_OVW_VALUE = min (2 ^ 32 - 1) (d.f Reg.EVT_LOG_OVW_VALUE + 1) ∧ x.tb (Reg.EVT_PEND_SRC 2) 31 = true) ∧
    (d.logFill < 4096 → x.f Reg.EVT_LOG_CI_VALUE = d.f Reg.EVT_LOG_CI_VALUE ∧ x.f Reg.EVT_LOG_OVW_VALUE = d.f Reg.EVT_LOG_OVW_VALUE)) ∧
  (∀ (s : State) (src : Src) (w : Word), Reaches s src Reg.EVT_LOG_SEL_at → Clean s →
    let n := sdiff32 (s.dev.f Reg.EVT_LOG_PI_VALUE) w.toNat
    (∀ e, 0 < n → n ≤ 4096 → s.dev.evlog[n.toNat - 1]? = some e →
      Answers (.logSelect src w) s (fun t => t.dev.bit Reg.EVT_LOG_SSTAT_STALE = false ∧ SameRegs s t ∧ SameMem s t ∧
        ∀ j < 4, t.dev.f (Reg.EVT_LOG_W_WORD j) = (e.words.getD j 0) % 2 ^ 32)) ∧
    ((n ≤ 0 ∨ 4096 < n) → Answers (.logSelect src w) s (fun t => t.dev.bit Reg.EVT_LOG_SSTAT_STALE = true ∧ SameRegs s t ∧
      SameMem s t ∧ ∀ j < 4, t.dev.f (Reg.EVT_LOG_W_WORD j) = 0))) ∧
  (∀ (s : State) (src : Src) (w : Word), Reaches s src Reg.EVT_LOG_CI_at → Clean s →
    (consumerOk (s.dev.f Reg.EVT_LOG_PI_VALUE) (s.dev.f Reg.EVT_LOG_CI_VALUE) w.toNat = true →
      Answers (.logCiWrite src w) s (fun t => t.dev.f Reg.EVT_LOG_CI_VALUE = w.toNat ∧ SameRegs s t ∧ SameMem s t)) ∧
    (consumerOk (s.dev.f Reg.EVT_LOG_PI_VALUE) (s.dev.f Reg.EVT_LOG_CI_VALUE) w.toNat = false → s.dev.logFill < 4096 →
      Answers (.logCiWrite src w) s (fun t => t.dev.f Reg.EVT_LOG_CI_VALUE = s.dev.f Reg.EVT_LOG_CI_VALUE ∧ SameRegs s t ∧ SameMem s t)))

/-- The frame of the network side's commands. -/
def Obligations.NetworkCommandsStayInTheirBlocks : Prop :=
  ∀ (i : Instr) (bs : List (Nat × Nat)) (s : State), netOwn i = some bs → Clean s →
    Answers i s (fun t => (∀ r : RF, Apart bs r → t.dev.f r = s.dev.f r) ∧ t.dev.vats = s.dev.vats ∧ t.dev.cores = s.dev.cores ∧
      SameMem s t)

/-- The frame of the other units' commands. -/
def Obligations.UnitCommandsStayInTheirBlocks : Prop :=
  ∀ (i : Instr) (bs : List (Nat × Nat)) (s : State), unitOwn i = some bs → Clean s →
    Answers i s (fun t => (∀ r : RF, Apart bs r → t.dev.f r = s.dev.f r) ∧ t.dev.vats = s.dev.vats ∧ SameMem s t)

/-- The frame of one vat's commands. -/
def Obligations.VatCommandsStayInTheirVat : Prop :=
  ∀ (i : Instr) (v : Fin 16) (s : State), vatOwn i = some v → Clean s →
    Answers i s (fun t =>
      (∀ r : RF, Apart [(0x20010000 + 0x1000 * v.1, 0x20011000 + 0x1000 * v.1), (0x20020000 + 0x1000 * v.1, 0x20021000 + 0x1000 * v.1),
          (Reg.SYS_CHAN_AVAIL_at (v.1 / 2), Reg.SYS_CHAN_AVAIL_at (v.1 / 2) + 1)] r →
        t.dev.f r = s.dev.f r) ∧
      (∀ u : Fin 16, u ≠ v → t.dev.vats[u] = s.dev.vats[u]) ∧ SameMem s t)
end

