-- ==== Sys2Proof/Laws/Regs.lean ====
section
/-!
SUPPORT. The register file: what a field reads after a field is set, and that the other fields keep their values.
-/

namespace Sys2Proof.Machine
open Sys2Proof

/-! ### The sparse list -/

theorem Regs.find_insert_self (r : Regs) (k v : Nat) : (r.insert k v).find k = some v := by
  induction r with
  | nil => simp [Regs.insert, Regs.find]
  | cons e rest ih =>
    obtain ⟨k', v'⟩ := e
    simp only [Regs.insert]
    split
    · simp [Regs.find]
    · split
      · simp [Regs.find]
      · rename_i h1 h2
        simp only [Regs.find, ih]
        rw [if_neg (fun h => h2 h.symm)]

theorem Regs.find_insert_ne (r : Regs) {k k' : Nat} (v : Nat) (h : k' ≠ k) : (r.insert k v).find k' = r.find k' := by
  induction r with
  | nil => simp [Regs.insert, Regs.find, Ne.symm h]
  | cons e rest ih =>
    obtain ⟨k1, v1⟩ := e
    simp only [Regs.insert]
    split
    · simp [Regs.find, Ne.symm h]
    · split
      · rename_i h1 h2
        subst h2
        simp [Regs.find, Ne.symm h]
      · simp only [Regs.find, ih]

theorem Regs.find_erase_self (r : Regs) (k : Nat) : (r.erase k).find k = none := by
  induction r with
  | nil => rfl
  | cons e rest ih =>
    obtain ⟨k1, v1⟩ := e
    unfold Regs.erase at ih ⊢
    by_cases h : k1 = k
    · simpa [List.filter, h] using ih
    · simpa [List.filter, h, Regs.find] using ih

theorem Regs.find_erase_ne (r : Regs) {k k' : Nat} (h : k' ≠ k) : (r.erase k).find k' = r.find k' := by
  induction r with
  | nil => rfl
  | cons e rest ih =>
    obtain ⟨k1, v1⟩ := e
    unfold Regs.erase at ih ⊢
    by_cases h1 : k1 = k
    · subst h1
      simpa [List.filter, Regs.find, Ne.symm h] using ih
    · simp [List.filter, h1, Regs.find] at ih ⊢
      rw [ih]

/-! ### Fields -/

/-- A field reads, after it is set, the low bits of what it was set to; every other field reads as before. -/
theorem Regs.get_set (r : Regs) (f g : RF) (x : Nat) :
    (r.set f x).get g = if g.key = f.key then (if x % 2 ^ f.w = f.dflt then g.dflt else x % 2 ^ f.w) else r.get g := by
  unfold Regs.set Regs.get
  by_cases hk : g.key = f.key
  · rw [hk]
    split <;> simp [Regs.find_erase_self, Regs.find_insert_self]
  · split <;> simp [Regs.find_erase_ne _ hk, Regs.find_insert_ne _ _ hk]

@[simp] theorem Dev.f_setF_same (d : Dev) (r : RF) (x : Nat) : (d.setF r x).f r = x % 2 ^ r.w := by
  unfold Dev.f Dev.setF
  rw [Regs.get_set]
  simp only [if_true]
  split
  · rename_i h; exact h.symm
  · rfl

theorem Dev.f_setF_ne (d : Dev) {r r' : RF} (x : Nat) (h : r'.key ≠ r.key) : (d.setF r x).f r' = d.f r' := by
  unfold Dev.f Dev.setF
  rw [Regs.get_set, if_neg h]

/-- Fields at different addresses are different fields. -/
theorem RF.key_ne {r r' : RF} (h : r'.addr ≠ r.addr) (h1 : r.lo < 32) (h2 : r'.lo < 32) : r'.key ≠ r.key := by
  unfold RF.key
  split <;> split <;> omega

/-- Fields at different bits of one register are different fields. -/
theorem RF.key_ne_lo {r r' : RF} (h : r'.lo ≠ r.lo) (h1 : r.lo < 32) (h2 : r'.lo < 32) : r'.key ≠ r.key := by
  unfold RF.key
  split <;> split <;> omega

@[simp] theorem Dev.bit_setB_same (d : Dev) (r : RF) (b : Bool) (h : 0 < r.w) : (d.setB r b).bit r = b := by
  have h2 : 1 < 2 ^ r.w := Nat.one_lt_two_pow (by omega)
  cases b <;> simp [Dev.setB, Dev.bit, Nat.mod_eq_of_lt h2]

theorem Dev.bit_setF_ne (d : Dev) {r r' : RF} (x : Nat) (h : r'.key ≠ r.key) : (d.setF r x).bit r' = d.bit r' := by
  simp [Dev.bit, Dev.f_setF_ne d x h]

theorem Dev.f_setB_ne (d : Dev) {r r' : RF} (b : Bool) (h : r'.key ≠ r.key) : (d.setB r b).f r' = d.f r' :=
  Dev.f_setF_ne d _ h

/-- What a set does to any field: the test on keys is decided for fields at written-out addresses. -/
theorem Dev.f_setF (d : Dev) (r r' : RF) (x : Nat) :
    (d.setF r x).f r' = if r'.key = r.key then (if x % 2 ^ r.w = r.dflt then r'.dflt else x % 2 ^ r.w) else d.f r' := by
  unfold Dev.f Dev.setF
  rw [Regs.get_set]

/-- At reset every field reads its reset value (R8). -/
theorem State.reset_f (r : RF) : State.reset.dev.f r = r.dflt := rfl

/-! ### The named updates are settings of a field -/

theorem Dev.setB_eq (d : Dev) (r : RF) (b : Bool) : d.setB r b = d.setF r (if b then 1 else 0) := rfl
theorem Dev.setTb_eq (d : Dev) (r : RF) (i : Nat) (b : Bool) : d.setTb r i b = d.setF r (setBit (d.f r) i b) := rfl
theorem Dev.bump_eq (d : Dev) (r : RF) (n : Nat) : d.bump r n = d.setF r (min (2 ^ r.w - 1) (d.f r + n)) := rfl
theorem Dev.wrap_eq (d : Dev) (r : RF) (n : Nat) : d.wrap r n = d.setF r (d.f r + n) := rfl

end Sys2Proof.Machine
end

