-- ==== Sys2Proof/Laws/State.lean ====
section
/-!
SUPPORT. What each named update of the device leaves alone: one lemma for every field of Dev it does not write.
-/

namespace Sys2Proof.Machine
open Sys2Proof

/-! ### setNow -/

@[simp] theorem Dev.setNow_regs (d : Dev) (x : Nat) : (d.setNow x).regs = d.regs := rfl
@[simp] theorem Dev.setNow_up (d : Dev) (x : Nat) : (d.setNow x).up = d.up := rfl
@[simp] theorem Dev.setNow_upAcc (d : Dev) (x : Nat) : (d.setNow x).upAcc = d.upAcc := rfl
@[simp] theorem Dev.setNow_slewAcc (d : Dev) (x : Nat) : (d.setNow x).slewAcc = d.slewAcc := rfl
@[simp] theorem Dev.setNow_freshAt (d : Dev) (x : Nat) : (d.setNow x).freshAt = d.freshAt := rfl
@[simp] theorem Dev.setNow_fresh (d : Dev) (x : Nat) : (d.setNow x).fresh = d.fresh := rfl
@[simp] theorem Dev.setNow_resp (d : Dev) (x : Nat) : (d.setNow x).resp = d.resp := rfl
@[simp] theorem Dev.setNow_heldLow (d : Dev) (x : Nat) : (d.setNow x).heldLow = d.heldLow := rfl
@[simp] theorem Dev.setNow_capHigh (d : Dev) (x : Nat) : (d.setNow x).capHigh = d.capHigh := rfl
@[simp] theorem Dev.setNow_evlog (d : Dev) (x : Nat) : (d.setNow x).evlog = d.evlog := rfl
@[simp] theorem Dev.setNow_out (d : Dev) (x : Nat) : (d.setNow x).out = d.out := rfl
@[simp] theorem Dev.setNow_wq (d : Dev) (x : Nat) : (d.setNow x).wq = d.wq := rfl
@[simp] theorem Dev.setNow_lost (d : Dev) (x : Nat) : (d.setNow x).lost = d.lost := rfl
@[simp] theorem Dev.setNow_vatEpoch (d : Dev) (x : Nat) : (d.setNow x).vatEpoch = d.vatEpoch := rfl
@[simp] theorem Dev.setNow_dramEpoch (d : Dev) (x : Nat) : (d.setNow x).dramEpoch = d.dramEpoch := rfl
@[simp] theorem Dev.setNow_freeN (d : Dev) (x : Nat) : (d.setNow x).freeN = d.freeN := rfl
@[simp] theorem Dev.setNow_stepN (d : Dev) (x : Nat) : (d.setNow x).stepN = d.stepN := rfl
@[simp] theorem Dev.setNow_vats (d : Dev) (x : Nat) : (d.setNow x).vats = d.vats := rfl
@[simp] theorem Dev.setNow_slices (d : Dev) (x : Nat) : (d.setNow x).slices = d.slices := rfl
@[simp] theorem Dev.setNow_segD (d : Dev) (x : Nat) : (d.setNow x).segD = d.segD := rfl
@[simp] theorem Dev.setNow_segG (d : Dev) (x : Nat) : (d.setNow x).segG = d.segG := rfl
@[simp] theorem Dev.setNow_slcD (d : Dev) (x : Nat) : (d.setNow x).slcD = d.slcD := rfl
@[simp] theorem Dev.setNow_slcG (d : Dev) (x : Nat) : (d.setNow x).slcG = d.slcG := rfl
@[simp] theorem Dev.setNow_passAt (d : Dev) (x : Nat) : (d.setNow x).passAt = d.passAt := rfl
@[simp] theorem Dev.setNow_govRun (d : Dev) (x : Nat) : (d.setNow x).govRun = d.govRun := rfl
@[simp] theorem Dev.setNow_railNow (d : Dev) (x : Nat) : (d.setNow x).railNow = d.railNow := rfl
@[simp] theorem Dev.setNow_hot (d : Dev) (x : Nat) : (d.setNow x).hot = d.hot := rfl
@[simp] theorem Dev.setNow_relock (d : Dev) (x : Nat) : (d.setNow x).relock = d.relock := rfl
@[simp] theorem Dev.setNow_sliceCmd (d : Dev) (x : Nat) : (d.setNow x).sliceCmd = d.sliceCmd := rfl
@[simp] theorem Dev.setNow_rcWait (d : Dev) (x : Nat) : (d.setNow x).rcWait = d.rcWait := rfl
@[simp] theorem Dev.setNow_sw (d : Dev) (x : Nat) : (d.setNow x).sw = d.sw := rfl
@[simp] theorem Dev.setNow_jasia (d : Dev) (x : Nat) : (d.setNow x).jasia = d.jasia := rfl
@[simp] theorem Dev.setNow_ptp (d : Dev) (x : Nat) : (d.setNow x).ptp = d.ptp := rfl
@[simp] theorem Dev.setNow_can (d : Dev) (x : Nat) : (d.setNow x).can = d.can := rfl
@[simp] theorem Dev.setNow_cores (d : Dev) (x : Nat) : (d.setNow x).cores = d.cores := rfl
@[simp] theorem Dev.setNow_l2 (d : Dev) (x : Nat) : (d.setNow x).l2 = d.l2 := rfl
@[simp] theorem Dev.setNow_l1 (d : Dev) (x : Nat) : (d.setNow x).l1 = d.l1 := rfl
@[simp] theorem Dev.setNow_perfAt (d : Dev) (x : Nat) : (d.setNow x).perfAt = d.perfAt := rfl
@[simp] theorem Dev.setNow_qN (d : Dev) (x : Nat) : (d.setNow x).qN = d.qN := rfl
@[simp] theorem Dev.setNow_qS (d : Dev) (x : Nat) : (d.setNow x).qS = d.qS := rfl
@[simp] theorem Dev.setNow_pairs (d : Dev) (x : Nat) : (d.setNow x).pairs = d.pairs := rfl
@[simp] theorem Dev.setNow_mord (d : Dev) (x : Nat) : (d.setNow x).mord = d.mord := rfl
@[simp] theorem Dev.setNow_dram (d : Dev) (x : Nat) : (d.setNow x).dram = d.dram := rfl
@[simp] theorem Dev.setNow_aux (d : Dev) (x : Nat) : (d.setNow x).aux = d.aux := rfl
@[simp] theorem Dev.setNow_auxSum (d : Dev) (x : Nat) : (d.setNow x).auxSum = d.auxSum := rfl
@[simp] theorem Dev.setNow_mad (d : Dev) (x : Nat) : (d.setNow x).mad = d.mad := rfl
@[simp] theorem Dev.setNow_link (d : Dev) (x : Nat) : (d.setNow x).link = d.link := rfl
@[simp] theorem Dev.setNow_sup (d : Dev) (x : Nat) : (d.setNow x).sup = d.sup := rfl
@[simp] theorem Dev.setNow_dbg (d : Dev) (x : Nat) : (d.setNow x).dbg = d.dbg := rfl
@[simp] theorem Dev.setNow_fuse (d : Dev) (x : Nat) : (d.setNow x).fuse = d.fuse := rfl
@[simp] theorem Dev.setNow_f (d : Dev) (x : Nat) (r : RF) : (d.setNow x).f r = d.f r := rfl

/-! ### setUp -/

@[simp] theorem Dev.setUp_regs (d : Dev) (x : Nat) : (d.setUp x).regs = d.regs := rfl
@[simp] theorem Dev.setUp_now (d : Dev) (x : Nat) : (d.setUp x).now = d.now := rfl
@[simp] theorem Dev.setUp_upAcc (d : Dev) (x : Nat) : (d.setUp x).upAcc = d.upAcc := rfl
@[simp] theorem Dev.setUp_slewAcc (d : Dev) (x : Nat) : (d.setUp x).slewAcc = d.slewAcc := rfl
@[simp] theorem Dev.setUp_freshAt (d : Dev) (x : Nat) : (d.setUp x).freshAt = d.freshAt := rfl
@[simp] theorem Dev.setUp_fresh (d : Dev) (x : Nat) : (d.setUp x).fresh = d.fresh := rfl
@[simp] theorem Dev.setUp_resp (d : Dev) (x : Nat) : (d.setUp x).resp = d.resp := rfl
@[simp] theorem Dev.setUp_heldLow (d : Dev) (x : Nat) : (d.setUp x).heldLow = d.heldLow := rfl
@[simp] theorem Dev.setUp_capHigh (d : Dev) (x : Nat) : (d.setUp x).capHigh = d.capHigh := rfl
@[simp] theorem Dev.setUp_evlog (d : Dev) (x : Nat) : (d.setUp x).evlog = d.evlog := rfl
@[simp] theorem Dev.setUp_out (d : Dev) (x : Nat) : (d.setUp x).out = d.out := rfl
@[simp] theorem Dev.setUp_wq (d : Dev) (x : Nat) : (d.setUp x).wq = d.wq := rfl
@[simp] theorem Dev.setUp_lost (d : Dev) (x : Nat) : (d.setUp x).lost = d.lost := rfl
@[simp] theorem Dev.setUp_vatEpoch (d : Dev) (x : Nat) : (d.setUp x).vatEpoch = d.vatEpoch := rfl
@[simp] theorem Dev.setUp_dramEpoch (d : Dev) (x : Nat) : (d.setUp x).dramEpoch = d.dramEpoch := rfl
@[simp] theorem Dev.setUp_freeN (d : Dev) (x : Nat) : (d.setUp x).freeN = d.freeN := rfl
@[simp] theorem Dev.setUp_stepN (d : Dev) (x : Nat) : (d.setUp x).stepN = d.stepN := rfl
@[simp] theorem Dev.setUp_vats (d : Dev) (x : Nat) : (d.setUp x).vats = d.vats := rfl
@[simp] theorem Dev.setUp_slices (d : Dev) (x : Nat) : (d.setUp x).slices = d.slices := rfl
@[simp] theorem Dev.setUp_segD (d : Dev) (x : Nat) : (d.setUp x).segD = d.segD := rfl
@[simp] theorem Dev.setUp_segG (d : Dev) (x : Nat) : (d.setUp x).segG = d.segG := rfl
@[simp] theorem Dev.setUp_slcD (d : Dev) (x : Nat) : (d.setUp x).slcD = d.slcD := rfl
@[simp] theorem Dev.setUp_slcG (d : Dev) (x : Nat) : (d.setUp x).slcG = d.slcG := rfl
@[simp] theorem Dev.setUp_passAt (d : Dev) (x : Nat) : (d.setUp x).passAt = d.passAt := rfl
@[simp] theorem Dev.setUp_govRun (d : Dev) (x : Nat) : (d.setUp x).govRun = d.govRun := rfl
@[simp] theorem Dev.setUp_railNow (d : Dev) (x : Nat) : (d.setUp x).railNow = d.railNow := rfl
@[simp] theorem Dev.setUp_hot (d : Dev) (x : Nat) : (d.setUp x).hot = d.hot := rfl
@[simp] theorem Dev.setUp_relock (d : Dev) (x : Nat) : (d.setUp x).relock = d.relock := rfl
@[simp] theorem Dev.setUp_sliceCmd (d : Dev) (x : Nat) : (d.setUp x).sliceCmd = d.sliceCmd := rfl
@[simp] theorem Dev.setUp_rcWait (d : Dev) (x : Nat) : (d.setUp x).rcWait = d.rcWait := rfl
@[simp] theorem Dev.setUp_sw (d : Dev) (x : Nat) : (d.setUp x).sw = d.sw := rfl
@[simp] theorem Dev.setUp_jasia (d : Dev) (x : Nat) : (d.setUp x).jasia = d.jasia := rfl
@[simp] theorem Dev.setUp_ptp (d : Dev) (x : Nat) : (d.setUp x).ptp = d.ptp := rfl
@[simp] theorem Dev.setUp_can (d : Dev) (x : Nat) : (d.setUp x).can = d.can := rfl
@[simp] theorem Dev.setUp_cores (d : Dev) (x : Nat) : (d.setUp x).cores = d.cores := rfl
@[simp] theorem Dev.setUp_l2 (d : Dev) (x : Nat) : (d.setUp x).l2 = d.l2 := rfl
@[simp] theorem Dev.setUp_l1 (d : Dev) (x : Nat) : (d.setUp x).l1 = d.l1 := rfl
@[simp] theorem Dev.setUp_perfAt (d : Dev) (x : Nat) : (d.setUp x).perfAt = d.perfAt := rfl
@[simp] theorem Dev.setUp_qN (d : Dev) (x : Nat) : (d.setUp x).qN = d.qN := rfl
@[simp] theorem Dev.setUp_qS (d : Dev) (x : Nat) : (d.setUp x).qS = d.qS := rfl
@[simp] theorem Dev.setUp_pairs (d : Dev) (x : Nat) : (d.setUp x).pairs = d.pairs := rfl
@[simp] theorem Dev.setUp_mord (d : Dev) (x : Nat) : (d.setUp x).mord = d.mord := rfl
@[simp] theorem Dev.setUp_dram (d : Dev) (x : Nat) : (d.setUp x).dram = d.dram := rfl
@[simp] theorem Dev.setUp_aux (d : Dev) (x : Nat) : (d.setUp x).aux = d.aux := rfl
@[simp] theorem Dev.setUp_auxSum (d : Dev) (x : Nat) : (d.setUp x).auxSum = d.auxSum := rfl
@[simp] theorem Dev.setUp_mad (d : Dev) (x : Nat) : (d.setUp x).mad = d.mad := rfl
@[simp] theorem Dev.setUp_link (d : Dev) (x : Nat) : (d.setUp x).link = d.link := rfl
@[simp] theorem Dev.setUp_sup (d : Dev) (x : Nat) : (d.setUp x).sup = d.sup := rfl
@[simp] theorem Dev.setUp_dbg (d : Dev) (x : Nat) : (d.setUp x).dbg = d.dbg := rfl
@[simp] theorem Dev.setUp_fuse (d : Dev) (x : Nat) : (d.setUp x).fuse = d.fuse := rfl
@[simp] theorem Dev.setUp_f (d : Dev) (x : Nat) (r : RF) : (d.setUp x).f r = d.f r := rfl

/-! ### setUpAcc -/

@[simp] theorem Dev.setUpAcc_regs (d : Dev) (x : Nat) : (d.setUpAcc x).regs = d.regs := rfl
@[simp] theorem Dev.setUpAcc_now (d : Dev) (x : Nat) : (d.setUpAcc x).now = d.now := rfl
@[simp] theorem Dev.setUpAcc_up (d : Dev) (x : Nat) : (d.setUpAcc x).up = d.up := rfl
@[simp] theorem Dev.setUpAcc_slewAcc (d : Dev) (x : Nat) : (d.setUpAcc x).slewAcc = d.slewAcc := rfl
@[simp] theorem Dev.setUpAcc_freshAt (d : Dev) (x : Nat) : (d.setUpAcc x).freshAt = d.freshAt := rfl
@[simp] theorem Dev.setUpAcc_fresh (d : Dev) (x : Nat) : (d.setUpAcc x).fresh = d.fresh := rfl
@[simp] theorem Dev.setUpAcc_resp (d : Dev) (x : Nat) : (d.setUpAcc x).resp = d.resp := rfl
@[simp] theorem Dev.setUpAcc_heldLow (d : Dev) (x : Nat) : (d.setUpAcc x).heldLow = d.heldLow := rfl
@[simp] theorem Dev.setUpAcc_capHigh (d : Dev) (x : Nat) : (d.setUpAcc x).capHigh = d.capHigh := rfl
@[simp] theorem Dev.setUpAcc_evlog (d : Dev) (x : Nat) : (d.setUpAcc x).evlog = d.evlog := rfl
@[simp] theorem Dev.setUpAcc_out (d : Dev) (x : Nat) : (d.setUpAcc x).out = d.out := rfl
@[simp] theorem Dev.setUpAcc_wq (d : Dev) (x : Nat) : (d.setUpAcc x).wq = d.wq := rfl
@[simp] theorem Dev.setUpAcc_lost (d : Dev) (x : Nat) : (d.setUpAcc x).lost = d.lost := rfl
@[simp] theorem Dev.setUpAcc_vatEpoch (d : Dev) (x : Nat) : (d.setUpAcc x).vatEpoch = d.vatEpoch := rfl
@[simp] theorem Dev.setUpAcc_dramEpoch (d : Dev) (x : Nat) : (d.setUpAcc x).dramEpoch = d.dramEpoch := rfl
@[simp] theorem Dev.setUpAcc_freeN (d : Dev) (x : Nat) : (d.setUpAcc x).freeN = d.freeN := rfl
@[simp] theorem Dev.setUpAcc_stepN (d : Dev) (x : Nat) : (d.setUpAcc x).stepN = d.stepN := rfl
@[simp] theorem Dev.setUpAcc_vats (d : Dev) (x : Nat) : (d.setUpAcc x).vats = d.vats := rfl
@[simp] theorem Dev.setUpAcc_slices (d : Dev) (x : Nat) : (d.setUpAcc x).slices = d.slices := rfl
@[simp] theorem Dev.setUpAcc_segD (d : Dev) (x : Nat) : (d.setUpAcc x).segD = d.segD := rfl
@[simp] theorem Dev.setUpAcc_segG (d : Dev) (x : Nat) : (d.setUpAcc x).segG = d.segG := rfl
@[simp] theorem Dev.setUpAcc_slcD (d : Dev) (x : Nat) : (d.setUpAcc x).slcD = d.slcD := rfl
@[simp] theorem Dev.setUpAcc_slcG (d : Dev) (x : Nat) : (d.setUpAcc x).slcG = d.slcG := rfl
@[simp] theorem Dev.setUpAcc_passAt (d : Dev) (x : Nat) : (d.setUpAcc x).passAt = d.passAt := rfl
@[simp] theorem Dev.setUpAcc_govRun (d : Dev) (x : Nat) : (d.setUpAcc x).govRun = d.govRun := rfl
@[simp] theorem Dev.setUpAcc_railNow (d : Dev) (x : Nat) : (d.setUpAcc x).railNow = d.railNow := rfl
@[simp] theorem Dev.setUpAcc_hot (d : Dev) (x : Nat) : (d.setUpAcc x).hot = d.hot := rfl
@[simp] theorem Dev.setUpAcc_relock (d : Dev) (x : Nat) : (d.setUpAcc x).relock = d.relock := rfl
@[simp] theorem Dev.setUpAcc_sliceCmd (d : Dev) (x : Nat) : (d.setUpAcc x).sliceCmd = d.sliceCmd := rfl
@[simp] theorem Dev.setUpAcc_rcWait (d : Dev) (x : Nat) : (d.setUpAcc x).rcWait = d.rcWait := rfl
@[simp] theorem Dev.setUpAcc_sw (d : Dev) (x : Nat) : (d.setUpAcc x).sw = d.sw := rfl
@[simp] theorem Dev.setUpAcc_jasia (d : Dev) (x : Nat) : (d.setUpAcc x).jasia = d.jasia := rfl
@[simp] theorem Dev.setUpAcc_ptp (d : Dev) (x : Nat) : (d.setUpAcc x).ptp = d.ptp := rfl
@[simp] theorem Dev.setUpAcc_can (d : Dev) (x : Nat) : (d.setUpAcc x).can = d.can := rfl
@[simp] theorem Dev.setUpAcc_cores (d : Dev) (x : Nat) : (d.setUpAcc x).cores = d.cores := rfl
@[simp] theorem Dev.setUpAcc_l2 (d : Dev) (x : Nat) : (d.setUpAcc x).l2 = d.l2 := rfl
@[simp] theorem Dev.setUpAcc_l1 (d : Dev) (x : Nat) : (d.setUpAcc x).l1 = d.l1 := rfl
@[simp] theorem Dev.setUpAcc_perfAt (d : Dev) (x : Nat) : (d.setUpAcc x).perfAt = d.perfAt := rfl
@[simp] theorem Dev.setUpAcc_qN (d : Dev) (x : Nat) : (d.setUpAcc x).qN = d.qN := rfl
@[simp] theorem Dev.setUpAcc_qS (d : Dev) (x : Nat) : (d.setUpAcc x).qS = d.qS := rfl
@[simp] theorem Dev.setUpAcc_pairs (d : Dev) (x : Nat) : (d.setUpAcc x).pairs = d.pairs := rfl
@[simp] theorem Dev.setUpAcc_mord (d : Dev) (x : Nat) : (d.setUpAcc x).mord = d.mord := rfl
@[simp] theorem Dev.setUpAcc_dram (d : Dev) (x : Nat) : (d.setUpAcc x).dram = d.dram := rfl
@[simp] theorem Dev.setUpAcc_aux (d : Dev) (x : Nat) : (d.setUpAcc x).aux = d.aux := rfl
@[simp] theorem Dev.setUpAcc_auxSum (d : Dev) (x : Nat) : (d.setUpAcc x).auxSum = d.auxSum := rfl
@[simp] theorem Dev.setUpAcc_mad (d : Dev) (x : Nat) : (d.setUpAcc x).mad = d.mad := rfl
@[simp] theorem Dev.setUpAcc_link (d : Dev) (x : Nat) : (d.setUpAcc x).link = d.link := rfl
@[simp] theorem Dev.setUpAcc_sup (d : Dev) (x : Nat) : (d.setUpAcc x).sup = d.sup := rfl
@[simp] theorem Dev.setUpAcc_dbg (d : Dev) (x : Nat) : (d.setUpAcc x).dbg = d.dbg := rfl
@[simp] theorem Dev.setUpAcc_fuse (d : Dev) (x : Nat) : (d.setUpAcc x).fuse = d.fuse := rfl
@[simp] theorem Dev.setUpAcc_f (d : Dev) (x : Nat) (r : RF) : (d.setUpAcc x).f r = d.f r := rfl

/-! ### setSlewAcc -/

@[simp] theorem Dev.setSlewAcc_regs (d : Dev) (x : Int) : (d.setSlewAcc x).regs = d.regs := rfl
@[simp] theorem Dev.setSlewAcc_now (d : Dev) (x : Int) : (d.setSlewAcc x).now = d.now := rfl
@[simp] theorem Dev.setSlewAcc_up (d : Dev) (x : Int) : (d.setSlewAcc x).up = d.up := rfl
@[simp] theorem Dev.setSlewAcc_upAcc (d : Dev) (x : Int) : (d.setSlewAcc x).upAcc = d.upAcc := rfl
@[simp] theorem Dev.setSlewAcc_freshAt (d : Dev) (x : Int) : (d.setSlewAcc x).freshAt = d.freshAt := rfl
@[simp] theorem Dev.setSlewAcc_fresh (d : Dev) (x : Int) : (d.setSlewAcc x).fresh = d.fresh := rfl
@[simp] theorem Dev.setSlewAcc_resp (d : Dev) (x : Int) : (d.setSlewAcc x).resp = d.resp := rfl
@[simp] theorem Dev.setSlewAcc_heldLow (d : Dev) (x : Int) : (d.setSlewAcc x).heldLow = d.heldLow := rfl
@[simp] theorem Dev.setSlewAcc_capHigh (d : Dev) (x : Int) : (d.setSlewAcc x).capHigh = d.capHigh := rfl
@[simp] theorem Dev.setSlewAcc_evlog (d : Dev) (x : Int) : (d.setSlewAcc x).evlog = d.evlog := rfl
@[simp] theorem Dev.setSlewAcc_out (d : Dev) (x : Int) : (d.setSlewAcc x).out = d.out := rfl
@[simp] theorem Dev.setSlewAcc_wq (d : Dev) (x : Int) : (d.setSlewAcc x).wq = d.wq := rfl
@[simp] theorem Dev.setSlewAcc_lost (d : Dev) (x : Int) : (d.setSlewAcc x).lost = d.lost := rfl
@[simp] theorem Dev.setSlewAcc_vatEpoch (d : Dev) (x : Int) : (d.setSlewAcc x).vatEpoch = d.vatEpoch := rfl
@[simp] theorem Dev.setSlewAcc_dramEpoch (d : Dev) (x : Int) : (d.setSlewAcc x).dramEpoch = d.dramEpoch := rfl
@[simp] theorem Dev.setSlewAcc_freeN (d : Dev) (x : Int) : (d.setSlewAcc x).freeN = d.freeN := rfl
@[simp] theorem Dev.setSlewAcc_stepN (d : Dev) (x : Int) : (d.setSlewAcc x).stepN = d.stepN := rfl
@[simp] theorem Dev.setSlewAcc_vats (d : Dev) (x : Int) : (d.setSlewAcc x).vats = d.vats := rfl
@[simp] theorem Dev.setSlewAcc_slices (d : Dev) (x : Int) : (d.setSlewAcc x).slices = d.slices := rfl
@[simp] theorem Dev.setSlewAcc_segD (d : Dev) (x : Int) : (d.setSlewAcc x).segD = d.segD := rfl
@[simp] theorem Dev.setSlewAcc_segG (d : Dev) (x : Int) : (d.setSlewAcc x).segG = d.segG := rfl
@[simp] theorem Dev.setSlewAcc_slcD (d : Dev) (x : Int) : (d.setSlewAcc x).slcD = d.slcD := rfl
@[simp] theorem Dev.setSlewAcc_slcG (d : Dev) (x : Int) : (d.setSlewAcc x).slcG = d.slcG := rfl
@[simp] theorem Dev.setSlewAcc_passAt (d : Dev) (x : Int) : (d.setSlewAcc x).passAt = d.passAt := rfl
@[simp] theorem Dev.setSlewAcc_govRun (d : Dev) (x : Int) : (d.setSlewAcc x).govRun = d.govRun := rfl
@[simp] theorem Dev.setSlewAcc_railNow (d : Dev) (x : Int) : (d.setSlewAcc x).railNow = d.railNow := rfl
@[simp] theorem Dev.setSlewAcc_hot (d : Dev) (x : Int) : (d.setSlewAcc x).hot = d.hot := rfl
@[simp] theorem Dev.setSlewAcc_relock (d : Dev) (x : Int) : (d.setSlewAcc x).relock = d.relock := rfl
@[simp] theorem Dev.setSlewAcc_sliceCmd (d : Dev) (x : Int) : (d.setSlewAcc x).sliceCmd = d.sliceCmd := rfl
@[simp] theorem Dev.setSlewAcc_rcWait (d : Dev) (x : Int) : (d.setSlewAcc x).rcWait = d.rcWait := rfl
@[simp] theorem Dev.setSlewAcc_sw (d : Dev) (x : Int) : (d.setSlewAcc x).sw = d.sw := rfl
@[simp] theorem Dev.setSlewAcc_jasia (d : Dev) (x : Int) : (d.setSlewAcc x).jasia = d.jasia := rfl
@[simp] theorem Dev.setSlewAcc_ptp (d : Dev) (x : Int) : (d.setSlewAcc x).ptp = d.ptp := rfl
@[simp] theorem Dev.setSlewAcc_can (d : Dev) (x : Int) : (d.setSlewAcc x).can = d.can := rfl
@[simp] theorem Dev.setSlewAcc_cores (d : Dev) (x : Int) : (d.setSlewAcc x).cores = d.cores := rfl
@[simp] theorem Dev.setSlewAcc_l2 (d : Dev) (x : Int) : (d.setSlewAcc x).l2 = d.l2 := rfl
@[simp] theorem Dev.setSlewAcc_l1 (d : Dev) (x : Int) : (d.setSlewAcc x).l1 = d.l1 := rfl
@[simp] theorem Dev.setSlewAcc_perfAt (d : Dev) (x : Int) : (d.setSlewAcc x).perfAt = d.perfAt := rfl
@[simp] theorem Dev.setSlewAcc_qN (d : Dev) (x : Int) : (d.setSlewAcc x).qN = d.qN := rfl
@[simp] theorem Dev.setSlewAcc_qS (d : Dev) (x : Int) : (d.setSlewAcc x).qS = d.qS := rfl
@[simp] theorem Dev.setSlewAcc_pairs (d : Dev) (x : Int) : (d.setSlewAcc x).pairs = d.pairs := rfl
@[simp] theorem Dev.setSlewAcc_mord (d : Dev) (x : Int) : (d.setSlewAcc x).mord = d.mord := rfl
@[simp] theorem Dev.setSlewAcc_dram (d : Dev) (x : Int) : (d.setSlewAcc x).dram = d.dram := rfl
@[simp] theorem Dev.setSlewAcc_aux (d : Dev) (x : Int) : (d.setSlewAcc x).aux = d.aux := rfl
@[simp] theorem Dev.setSlewAcc_auxSum (d : Dev) (x : Int) : (d.setSlewAcc x).auxSum = d.auxSum := rfl
@[simp] theorem Dev.setSlewAcc_mad (d : Dev) (x : Int) : (d.setSlewAcc x).mad = d.mad := rfl
@[simp] theorem Dev.setSlewAcc_link (d : Dev) (x : Int) : (d.setSlewAcc x).link = d.link := rfl
@[simp] theorem Dev.setSlewAcc_sup (d : Dev) (x : Int) : (d.setSlewAcc x).sup = d.sup := rfl
@[simp] theorem Dev.setSlewAcc_dbg (d : Dev) (x : Int) : (d.setSlewAcc x).dbg = d.dbg := rfl
@[simp] theorem Dev.setSlewAcc_fuse (d : Dev) (x : Int) : (d.setSlewAcc x).fuse = d.fuse := rfl
@[simp] theorem Dev.setSlewAcc_f (d : Dev) (x : Int) (r : RF) : (d.setSlewAcc x).f r = d.f r := rfl

/-! ### setResp -/

@[simp] theorem Dev.setResp_regs (d : Dev) (x : Resp) : (d.setResp x).regs = d.regs := rfl
@[simp] theorem Dev.setResp_now (d : Dev) (x : Resp) : (d.setResp x).now = d.now := rfl
@[simp] theorem Dev.setResp_up (d : Dev) (x : Resp) : (d.setResp x).up = d.up := rfl
@[simp] theorem Dev.setResp_upAcc (d : Dev) (x : Resp) : (d.setResp x).upAcc = d.upAcc := rfl
@[simp] theorem Dev.setResp_slewAcc (d : Dev) (x : Resp) : (d.setResp x).slewAcc = d.slewAcc := rfl
@[simp] theorem Dev.setResp_freshAt (d : Dev) (x : Resp) : (d.setResp x).freshAt = d.freshAt := rfl
@[simp] theorem Dev.setResp_fresh (d : Dev) (x : Resp) : (d.setResp x).fresh = d.fresh := rfl
@[simp] theorem Dev.setResp_heldLow (d : Dev) (x : Resp) : (d.setResp x).heldLow = d.heldLow := rfl
@[simp] theorem Dev.setResp_capHigh (d : Dev) (x : Resp) : (d.setResp x).capHigh = d.capHigh := rfl
@[simp] theorem Dev.setResp_evlog (d : Dev) (x : Resp) : (d.setResp x).evlog = d.evlog := rfl
@[simp] theorem Dev.setResp_out (d : Dev) (x : Resp) : (d.setResp x).out = d.out := rfl
@[simp] theorem Dev.setResp_wq (d : Dev) (x : Resp) : (d.setResp x).wq = d.wq := rfl
@[simp] theorem Dev.setResp_lost (d : Dev) (x : Resp) : (d.setResp x).lost = d.lost := rfl
@[simp] theorem Dev.setResp_vatEpoch (d : Dev) (x : Resp) : (d.setResp x).vatEpoch = d.vatEpoch := rfl
@[simp] theorem Dev.setResp_dramEpoch (d : Dev) (x : Resp) : (d.setResp x).dramEpoch = d.dramEpoch := rfl
@[simp] theorem Dev.setResp_freeN (d : Dev) (x : Resp) : (d.setResp x).freeN = d.freeN := rfl
@[simp] theorem Dev.setResp_stepN (d : Dev) (x : Resp) : (d.setResp x).stepN = d.stepN := rfl
@[simp] theorem Dev.setResp_vats (d : Dev) (x : Resp) : (d.setResp x).vats = d.vats := rfl
@[simp] theorem Dev.setResp_slices (d : Dev) (x : Resp) : (d.setResp x).slices = d.slices := rfl
@[simp] theorem Dev.setResp_segD (d : Dev) (x : Resp) : (d.setResp x).segD = d.segD := rfl
@[simp] theorem Dev.setResp_segG (d : Dev) (x : Resp) : (d.setResp x).segG = d.segG := rfl
@[simp] theorem Dev.setResp_slcD (d : Dev) (x : Resp) : (d.setResp x).slcD = d.slcD := rfl
@[simp] theorem Dev.setResp_slcG (d : Dev) (x : Resp) : (d.setResp x).slcG = d.slcG := rfl
@[simp] theorem Dev.setResp_passAt (d : Dev) (x : Resp) : (d.setResp x).passAt = d.passAt := rfl
@[simp] theorem Dev.setResp_govRun (d : Dev) (x : Resp) : (d.setResp x).govRun = d.govRun := rfl
@[simp] theorem Dev.setResp_railNow (d : Dev) (x : Resp) : (d.setResp x).railNow = d.railNow := rfl
@[simp] theorem Dev.setResp_hot (d : Dev) (x : Resp) : (d.setResp x).hot = d.hot := rfl
@[simp] theorem Dev.setResp_relock (d : Dev) (x : Resp) : (d.setResp x).relock = d.relock := rfl
@[simp] theorem Dev.setResp_sliceCmd (d : Dev) (x : Resp) : (d.setResp x).sliceCmd = d.sliceCmd := rfl
@[simp] theorem Dev.setResp_rcWait (d : Dev) (x : Resp) : (d.setResp x).rcWait = d.rcWait := rfl
@[simp] theorem Dev.setResp_sw (d : Dev) (x : Resp) : (d.setResp x).sw = d.sw := rfl
@[simp] theorem Dev.setResp_jasia (d : Dev) (x : Resp) : (d.setResp x).jasia = d.jasia := rfl
@[simp] theorem Dev.setResp_ptp (d : Dev) (x : Resp) : (d.setResp x).ptp = d.ptp := rfl
@[simp] theorem Dev.setResp_can (d : Dev) (x : Resp) : (d.setResp x).can = d.can := rfl
@[simp] theorem Dev.setResp_cores (d : Dev) (x : Resp) : (d.setResp x).cores = d.cores := rfl
@[simp] theorem Dev.setResp_l2 (d : Dev) (x : Resp) : (d.setResp x).l2 = d.l2 := rfl
@[simp] theorem Dev.setResp_l1 (d : Dev) (x : Resp) : (d.setResp x).l1 = d.l1 := rfl
@[simp] theorem Dev.setResp_perfAt (d : Dev) (x : Resp) : (d.setResp x).perfAt = d.perfAt := rfl
@[simp] theorem Dev.setResp_qN (d : Dev) (x : Resp) : (d.setResp x).qN = d.qN := rfl
@[simp] theorem Dev.setResp_qS (d : Dev) (x : Resp) : (d.setResp x).qS = d.qS := rfl
@[simp] theorem Dev.setResp_pairs (d : Dev) (x : Resp) : (d.setResp x).pairs = d.pairs := rfl
@[simp] theorem Dev.setResp_mord (d : Dev) (x : Resp) : (d.setResp x).mord = d.mord := rfl
@[simp] theorem Dev.setResp_dram (d : Dev) (x : Resp) : (d.setResp x).dram = d.dram := rfl
@[simp] theorem Dev.setResp_aux (d : Dev) (x : Resp) : (d.setResp x).aux = d.aux := rfl
@[simp] theorem Dev.setResp_auxSum (d : Dev) (x : Resp) : (d.setResp x).auxSum = d.auxSum := rfl
@[simp] theorem Dev.setResp_mad (d : Dev) (x : Resp) : (d.setResp x).mad = d.mad := rfl
@[simp] theorem Dev.setResp_link (d : Dev) (x : Resp) : (d.setResp x).link = d.link := rfl
@[simp] theorem Dev.setResp_sup (d : Dev) (x : Resp) : (d.setResp x).sup = d.sup := rfl
@[simp] theorem Dev.setResp_dbg (d : Dev) (x : Resp) : (d.setResp x).dbg = d.dbg := rfl
@[simp] theorem Dev.setResp_fuse (d : Dev) (x : Resp) : (d.setResp x).fuse = d.fuse := rfl
@[simp] theorem Dev.setResp_f (d : Dev) (x : Resp) (r : RF) : (d.setResp x).f r = d.f r := rfl

/-! ### setHeldLow -/

@[simp] theorem Dev.setHeldLow_regs (d : Dev) (x : List (Nat × Nat × Nat)) : (d.setHeldLow x).regs = d.regs := rfl
@[simp] theorem Dev.setHeldLow_now (d : Dev) (x : List (Nat × Nat × Nat)) : (d.setHeldLow x).now = d.now := rfl
@[simp] theorem Dev.setHeldLow_up (d : Dev) (x : List (Nat × Nat × Nat)) : (d.setHeldLow x).up = d.up := rfl
@[simp] theorem Dev.setHeldLow_upAcc (d : Dev) (x : List (Nat × Nat × Nat)) : (d.setHeldLow x).upAcc = d.upAcc := rfl
@[simp] theorem Dev.setHeldLow_slewAcc (d : Dev) (x : List (Nat × Nat × Nat)) : (d.setHeldLow x).slewAcc = d.slewAcc := rfl
@[simp] theorem Dev.setHeldLow_freshAt (d : Dev) (x : List (Nat × Nat × Nat)) : (d.setHeldLow x).freshAt = d.freshAt := rfl
@[simp] theorem Dev.setHeldLow_fresh (d : Dev) (x : List (Nat × Nat × Nat)) : (d.setHeldLow x).fresh = d.fresh := rfl
@[simp] theorem Dev.setHeldLow_resp (d : Dev) (x : List (Nat × Nat × Nat)) : (d.setHeldLow x).resp = d.resp := rfl
@[simp] theorem Dev.setHeldLow_capHigh (d : Dev) (x : List (Nat × Nat × Nat)) : (d.setHeldLow x).capHigh = d.capHigh := rfl
@[simp] theorem Dev.setHeldLow_evlog (d : Dev) (x : List (Nat × Nat × Nat)) : (d.setHeldLow x).evlog = d.evlog := rfl
@[simp] theorem Dev.setHeldLow_out (d : Dev) (x : List (Nat × Nat × Nat)) : (d.setHeldLow x).out = d.out := rfl
@[simp] theorem Dev.setHeldLow_wq (d : Dev) (x : List (Nat × Nat × Nat)) : (d.setHeldLow x).wq = d.wq := rfl
@[simp] theorem Dev.setHeldLow_lost (d : Dev) (x : List (Nat × Nat × Nat)) : (d.setHeldLow x).lost = d.lost := rfl
@[simp] theorem Dev.setHeldLow_vatEpoch (d : Dev) (x : List (Nat × Nat × Nat)) : (d.setHeldLow x).vatEpoch = d.vatEpoch := rfl
@[simp] theorem Dev.setHeldLow_dramEpoch (d : Dev) (x : List (Nat × Nat × Nat)) : (d.setHeldLow x).dramEpoch = d.dramEpoch := rfl
@[simp] theorem Dev.setHeldLow_freeN (d : Dev) (x : List (Nat × Nat × Nat)) : (d.setHeldLow x).freeN = d.freeN := rfl
@[simp] theorem Dev.setHeldLow_stepN (d : Dev) (x : List (Nat × Nat × Nat)) : (d.setHeldLow x).stepN = d.stepN := rfl
@[simp] theorem Dev.setHeldLow_vats (d : Dev) (x : List (Nat × Nat × Nat)) : (d.setHeldLow x).vats = d.vats := rfl
@[simp] theorem Dev.setHeldLow_slices (d : Dev) (x : List (Nat × Nat × Nat)) : (d.setHeldLow x).slices = d.slices := rfl
@[simp] theorem Dev.setHeldLow_segD (d : Dev) (x : List (Nat × Nat × Nat)) : (d.setHeldLow x).segD = d.segD := rfl
@[simp] theorem Dev.setHeldLow_segG (d : Dev) (x : List (Nat × Nat × Nat)) : (d.setHeldLow x).segG = d.segG := rfl
@[simp] theorem Dev.setHeldLow_slcD (d : Dev) (x : List (Nat × Nat × Nat)) : (d.setHeldLow x).slcD = d.slcD := rfl
@[simp] theorem Dev.setHeldLow_slcG (d : Dev) (x : List (Nat × Nat × Nat)) : (d.setHeldLow x).slcG = d.slcG := rfl
@[simp] theorem Dev.setHeldLow_passAt (d : Dev) (x : List (Nat × Nat × Nat)) : (d.setHeldLow x).passAt = d.passAt := rfl
@[simp] theorem Dev.setHeldLow_govRun (d : Dev) (x : List (Nat × Nat × Nat)) : (d.setHeldLow x).govRun = d.govRun := rfl
@[simp] theorem Dev.setHeldLow_railNow (d : Dev) (x : List (Nat × Nat × Nat)) : (d.setHeldLow x).railNow = d.railNow := rfl
@[simp] theorem Dev.setHeldLow_hot (d : Dev) (x : List (Nat × Nat × Nat)) : (d.setHeldLow x).hot = d.hot := rfl
@[simp] theorem Dev.setHeldLow_relock (d : Dev) (x : List (Nat × Nat × Nat)) : (d.setHeldLow x).relock = d.relock := rfl
@[simp] theorem Dev.setHeldLow_sliceCmd (d : Dev) (x : List (Nat × Nat × Nat)) : (d.setHeldLow x).sliceCmd = d.sliceCmd := rfl
@[simp] theorem Dev.setHeldLow_rcWait (d : Dev) (x : List (Nat × Nat × Nat)) : (d.setHeldLow x).rcWait = d.rcWait := rfl
@[simp] theorem Dev.setHeldLow_sw (d : Dev) (x : List (Nat × Nat × Nat)) : (d.setHeldLow x).sw = d.sw := rfl
@[simp] theorem Dev.setHeldLow_jasia (d : Dev) (x : List (Nat × Nat × Nat)) : (d.setHeldLow x).jasia = d.jasia := rfl
@[simp] theorem Dev.setHeldLow_ptp (d : Dev) (x : List (Nat × Nat × Nat)) : (d.setHeldLow x).ptp = d.ptp := rfl
@[simp] theorem Dev.setHeldLow_can (d : Dev) (x : List (Nat × Nat × Nat)) : (d.setHeldLow x).can = d.can := rfl
@[simp] theorem Dev.setHeldLow_cores (d : Dev) (x : List (Nat × Nat × Nat)) : (d.setHeldLow x).cores = d.cores := rfl
@[simp] theorem Dev.setHeldLow_l2 (d : Dev) (x : List (Nat × Nat × Nat)) : (d.setHeldLow x).l2 = d.l2 := rfl
@[simp] theorem Dev.setHeldLow_l1 (d : Dev) (x : List (Nat × Nat × Nat)) : (d.setHeldLow x).l1 = d.l1 := rfl
@[simp] theorem Dev.setHeldLow_perfAt (d : Dev) (x : List (Nat × Nat × Nat)) : (d.setHeldLow x).perfAt = d.perfAt := rfl
@[simp] theorem Dev.setHeldLow_qN (d : Dev) (x : List (Nat × Nat × Nat)) : (d.setHeldLow x).qN = d.qN := rfl
@[simp] theorem Dev.setHeldLow_qS (d : Dev) (x : List (Nat × Nat × Nat)) : (d.setHeldLow x).qS = d.qS := rfl
@[simp] theorem Dev.setHeldLow_pairs (d : Dev) (x : List (Nat × Nat × Nat)) : (d.setHeldLow x).pairs = d.pairs := rfl
@[simp] theorem Dev.setHeldLow_mord (d : Dev) (x : List (Nat × Nat × Nat)) : (d.setHeldLow x).mord = d.mord := rfl
@[simp] theorem Dev.setHeldLow_dram (d : Dev) (x : List (Nat × Nat × Nat)) : (d.setHeldLow x).dram = d.dram := rfl
@[simp] theorem Dev.setHeldLow_aux (d : Dev) (x : List (Nat × Nat × Nat)) : (d.setHeldLow x).aux = d.aux := rfl
@[simp] theorem Dev.setHeldLow_auxSum (d : Dev) (x : List (Nat × Nat × Nat)) : (d.setHeldLow x).auxSum = d.auxSum := rfl
@[simp] theorem Dev.setHeldLow_mad (d : Dev) (x : List (Nat × Nat × Nat)) : (d.setHeldLow x).mad = d.mad := rfl
@[simp] theorem Dev.setHeldLow_link (d : Dev) (x : List (Nat × Nat × Nat)) : (d.setHeldLow x).link = d.link := rfl
@[simp] theorem Dev.setHeldLow_sup (d : Dev) (x : List (Nat × Nat × Nat)) : (d.setHeldLow x).sup = d.sup := rfl
@[simp] theorem Dev.setHeldLow_dbg (d : Dev) (x : List (Nat × Nat × Nat)) : (d.setHeldLow x).dbg = d.dbg := rfl
@[simp] theorem Dev.setHeldLow_fuse (d : Dev) (x : List (Nat × Nat × Nat)) : (d.setHeldLow x).fuse = d.fuse := rfl
@[simp] theorem Dev.setHeldLow_f (d : Dev) (x : List (Nat × Nat × Nat)) (r : RF) : (d.setHeldLow x).f r = d.f r := rfl

/-! ### setCapHigh -/

@[simp] theorem Dev.setCapHigh_regs (d : Dev) (x : List (Nat × Nat × Nat)) : (d.setCapHigh x).regs = d.regs := rfl
@[simp] theorem Dev.setCapHigh_now (d : Dev) (x : List (Nat × Nat × Nat)) : (d.setCapHigh x).now = d.now := rfl
@[simp] theorem Dev.setCapHigh_up (d : Dev) (x : List (Nat × Nat × Nat)) : (d.setCapHigh x).up = d.up := rfl
@[simp] theorem Dev.setCapHigh_upAcc (d : Dev) (x : List (Nat × Nat × Nat)) : (d.setCapHigh x).upAcc = d.upAcc := rfl
@[simp] theorem Dev.setCapHigh_slewAcc (d : Dev) (x : List (Nat × Nat × Nat)) : (d.setCapHigh x).slewAcc = d.slewAcc := rfl
@[simp] theorem Dev.setCapHigh_freshAt (d : Dev) (x : List (Nat × Nat × Nat)) : (d.setCapHigh x).freshAt = d.freshAt := rfl
@[simp] theorem Dev.setCapHigh_fresh (d : Dev) (x : List (Nat × Nat × Nat)) : (d.setCapHigh x).fresh = d.fresh := rfl
@[simp] theorem Dev.setCapHigh_resp (d : Dev) (x : List (Nat × Nat × Nat)) : (d.setCapHigh x).resp = d.resp := rfl
@[simp] theorem Dev.setCapHigh_heldLow (d : Dev) (x : List (Nat × Nat × Nat)) : (d.setCapHigh x).heldLow = d.heldLow := rfl
@[simp] theorem Dev.setCapHigh_evlog (d : Dev) (x : List (Nat × Nat × Nat)) : (d.setCapHigh x).evlog = d.evlog := rfl
@[simp] theorem Dev.setCapHigh_out (d : Dev) (x : List (Nat × Nat × Nat)) : (d.setCapHigh x).out = d.out := rfl
@[simp] theorem Dev.setCapHigh_wq (d : Dev) (x : List (Nat × Nat × Nat)) : (d.setCapHigh x).wq = d.wq := rfl
@[simp] theorem Dev.setCapHigh_lost (d : Dev) (x : List (Nat × Nat × Nat)) : (d.setCapHigh x).lost = d.lost := rfl
@[simp] theorem Dev.setCapHigh_vatEpoch (d : Dev) (x : List (Nat × Nat × Nat)) : (d.setCapHigh x).vatEpoch = d.vatEpoch := rfl
@[simp] theorem Dev.setCapHigh_dramEpoch (d : Dev) (x : List (Nat × Nat × Nat)) : (d.setCapHigh x).dramEpoch = d.dramEpoch := rfl
@[simp] theorem Dev.setCapHigh_freeN (d : Dev) (x : List (Nat × Nat × Nat)) : (d.setCapHigh x).freeN = d.freeN := rfl
@[simp] theorem Dev.setCapHigh_stepN (d : Dev) (x : List (Nat × Nat × Nat)) : (d.setCapHigh x).stepN = d.stepN := rfl
@[simp] theorem Dev.setCapHigh_vats (d : Dev) (x : List (Nat × Nat × Nat)) : (d.setCapHigh x).vats = d.vats := rfl
@[simp] theorem Dev.setCapHigh_slices (d : Dev) (x : List (Nat × Nat × Nat)) : (d.setCapHigh x).slices = d.slices := rfl
@[simp] theorem Dev.setCapHigh_segD (d : Dev) (x : List (Nat × Nat × Nat)) : (d.setCapHigh x).segD = d.segD := rfl
@[simp] theorem Dev.setCapHigh_segG (d : Dev) (x : List (Nat × Nat × Nat)) : (d.setCapHigh x).segG = d.segG := rfl
@[simp] theorem Dev.setCapHigh_slcD (d : Dev) (x : List (Nat × Nat × Nat)) : (d.setCapHigh x).slcD = d.slcD := rfl
@[simp] theorem Dev.setCapHigh_slcG (d : Dev) (x : List (Nat × Nat × Nat)) : (d.setCapHigh x).slcG = d.slcG := rfl
@[simp] theorem Dev.setCapHigh_passAt (d : Dev) (x : List (Nat × Nat × Nat)) : (d.setCapHigh x).passAt = d.passAt := rfl
@[simp] theorem Dev.setCapHigh_govRun (d : Dev) (x : List (Nat × Nat × Nat)) : (d.setCapHigh x).govRun = d.govRun := rfl
@[simp] theorem Dev.setCapHigh_railNow (d : Dev) (x : List (Nat × Nat × Nat)) : (d.setCapHigh x).railNow = d.railNow := rfl
@[simp] theorem Dev.setCapHigh_hot (d : Dev) (x : List (Nat × Nat × Nat)) : (d.setCapHigh x).hot = d.hot := rfl
@[simp] theorem Dev.setCapHigh_relock (d : Dev) (x : List (Nat × Nat × Nat)) : (d.setCapHigh x).relock = d.relock := rfl
@[simp] theorem Dev.setCapHigh_sliceCmd (d : Dev) (x : List (Nat × Nat × Nat)) : (d.setCapHigh x).sliceCmd = d.sliceCmd := rfl
@[simp] theorem Dev.setCapHigh_rcWait (d : Dev) (x : List (Nat × Nat × Nat)) : (d.setCapHigh x).rcWait = d.rcWait := rfl
@[simp] theorem Dev.setCapHigh_sw (d : Dev) (x : List (Nat × Nat × Nat)) : (d.setCapHigh x).sw = d.sw := rfl
@[simp] theorem Dev.setCapHigh_jasia (d : Dev) (x : List (Nat × Nat × Nat)) : (d.setCapHigh x).jasia = d.jasia := rfl
@[simp] theorem Dev.setCapHigh_ptp (d : Dev) (x : List (Nat × Nat × Nat)) : (d.setCapHigh x).ptp = d.ptp := rfl
@[simp] theorem Dev.setCapHigh_can (d : Dev) (x : List (Nat × Nat × Nat)) : (d.setCapHigh x).can = d.can := rfl
@[simp] theorem Dev.setCapHigh_cores (d : Dev) (x : List (Nat × Nat × Nat)) : (d.setCapHigh x).cores = d.cores := rfl
@[simp] theorem Dev.setCapHigh_l2 (d : Dev) (x : List (Nat × Nat × Nat)) : (d.setCapHigh x).l2 = d.l2 := rfl
@[simp] theorem Dev.setCapHigh_l1 (d : Dev) (x : List (Nat × Nat × Nat)) : (d.setCapHigh x).l1 = d.l1 := rfl
@[simp] theorem Dev.setCapHigh_perfAt (d : Dev) (x : List (Nat × Nat × Nat)) : (d.setCapHigh x).perfAt = d.perfAt := rfl
@[simp] theorem Dev.setCapHigh_qN (d : Dev) (x : List (Nat × Nat × Nat)) : (d.setCapHigh x).qN = d.qN := rfl
@[simp] theorem Dev.setCapHigh_qS (d : Dev) (x : List (Nat × Nat × Nat)) : (d.setCapHigh x).qS = d.qS := rfl
@[simp] theorem Dev.setCapHigh_pairs (d : Dev) (x : List (Nat × Nat × Nat)) : (d.setCapHigh x).pairs = d.pairs := rfl
@[simp] theorem Dev.setCapHigh_mord (d : Dev) (x : List (Nat × Nat × Nat)) : (d.setCapHigh x).mord = d.mord := rfl
@[simp] theorem Dev.setCapHigh_dram (d : Dev) (x : List (Nat × Nat × Nat)) : (d.setCapHigh x).dram = d.dram := rfl
@[simp] theorem Dev.setCapHigh_aux (d : Dev) (x : List (Nat × Nat × Nat)) : (d.setCapHigh x).aux = d.aux := rfl
@[simp] theorem Dev.setCapHigh_auxSum (d : Dev) (x : List (Nat × Nat × Nat)) : (d.setCapHigh x).auxSum = d.auxSum := rfl
@[simp] theorem Dev.setCapHigh_mad (d : Dev) (x : List (Nat × Nat × Nat)) : (d.setCapHigh x).mad = d.mad := rfl
@[simp] theorem Dev.setCapHigh_link (d : Dev) (x : List (Nat × Nat × Nat)) : (d.setCapHigh x).link = d.link := rfl
@[simp] theorem Dev.setCapHigh_sup (d : Dev) (x : List (Nat × Nat × Nat)) : (d.setCapHigh x).sup = d.sup := rfl
@[simp] theorem Dev.setCapHigh_dbg (d : Dev) (x : List (Nat × Nat × Nat)) : (d.setCapHigh x).dbg = d.dbg := rfl
@[simp] theorem Dev.setCapHigh_fuse (d : Dev) (x : List (Nat × Nat × Nat)) : (d.setCapHigh x).fuse = d.fuse := rfl
@[simp] theorem Dev.setCapHigh_f (d : Dev) (x : List (Nat × Nat × Nat)) (r : RF) : (d.setCapHigh x).f r = d.f r := rfl

/-! ### setEvlog -/

@[simp] theorem Dev.setEvlog_regs (d : Dev) (x : List LogEntry) : (d.setEvlog x).regs = d.regs := rfl
@[simp] theorem Dev.setEvlog_now (d : Dev) (x : List LogEntry) : (d.setEvlog x).now = d.now := rfl
@[simp] theorem Dev.setEvlog_up (d : Dev) (x : List LogEntry) : (d.setEvlog x).up = d.up := rfl
@[simp] theorem Dev.setEvlog_upAcc (d : Dev) (x : List LogEntry) : (d.setEvlog x).upAcc = d.upAcc := rfl
@[simp] theorem Dev.setEvlog_slewAcc (d : Dev) (x : List LogEntry) : (d.setEvlog x).slewAcc = d.slewAcc := rfl
@[simp] theorem Dev.setEvlog_freshAt (d : Dev) (x : List LogEntry) : (d.setEvlog x).freshAt = d.freshAt := rfl
@[simp] theorem Dev.setEvlog_fresh (d : Dev) (x : List LogEntry) : (d.setEvlog x).fresh = d.fresh := rfl
@[simp] theorem Dev.setEvlog_resp (d : Dev) (x : List LogEntry) : (d.setEvlog x).resp = d.resp := rfl
@[simp] theorem Dev.setEvlog_heldLow (d : Dev) (x : List LogEntry) : (d.setEvlog x).heldLow = d.heldLow := rfl
@[simp] theorem Dev.setEvlog_capHigh (d : Dev) (x : List LogEntry) : (d.setEvlog x).capHigh = d.capHigh := rfl
@[simp] theorem Dev.setEvlog_out (d : Dev) (x : List LogEntry) : (d.setEvlog x).out = d.out := rfl
@[simp] theorem Dev.setEvlog_wq (d : Dev) (x : List LogEntry) : (d.setEvlog x).wq = d.wq := rfl
@[simp] theorem Dev.setEvlog_lost (d : Dev) (x : List LogEntry) : (d.setEvlog x).lost = d.lost := rfl
@[simp] theorem Dev.setEvlog_vatEpoch (d : Dev) (x : List LogEntry) : (d.setEvlog x).vatEpoch = d.vatEpoch := rfl
@[simp] theorem Dev.setEvlog_dramEpoch (d : Dev) (x : List LogEntry) : (d.setEvlog x).dramEpoch = d.dramEpoch := rfl
@[simp] theorem Dev.setEvlog_freeN (d : Dev) (x : List LogEntry) : (d.setEvlog x).freeN = d.freeN := rfl
@[simp] theorem Dev.setEvlog_stepN (d : Dev) (x : List LogEntry) : (d.setEvlog x).stepN = d.stepN := rfl
@[simp] theorem Dev.setEvlog_vats (d : Dev) (x : List LogEntry) : (d.setEvlog x).vats = d.vats := rfl
@[simp] theorem Dev.setEvlog_slices (d : Dev) (x : List LogEntry) : (d.setEvlog x).slices = d.slices := rfl
@[simp] theorem Dev.setEvlog_segD (d : Dev) (x : List LogEntry) : (d.setEvlog x).segD = d.segD := rfl
@[simp] theorem Dev.setEvlog_segG (d : Dev) (x : List LogEntry) : (d.setEvlog x).segG = d.segG := rfl
@[simp] theorem Dev.setEvlog_slcD (d : Dev) (x : List LogEntry) : (d.setEvlog x).slcD = d.slcD := rfl
@[simp] theorem Dev.setEvlog_slcG (d : Dev) (x : List LogEntry) : (d.setEvlog x).slcG = d.slcG := rfl
@[simp] theorem Dev.setEvlog_passAt (d : Dev) (x : List LogEntry) : (d.setEvlog x).passAt = d.passAt := rfl
@[simp] theorem Dev.setEvlog_govRun (d : Dev) (x : List LogEntry) : (d.setEvlog x).govRun = d.govRun := rfl
@[simp] theorem Dev.setEvlog_railNow (d : Dev) (x : List LogEntry) : (d.setEvlog x).railNow = d.railNow := rfl
@[simp] theorem Dev.setEvlog_hot (d : Dev) (x : List LogEntry) : (d.setEvlog x).hot = d.hot := rfl
@[simp] theorem Dev.setEvlog_relock (d : Dev) (x : List LogEntry) : (d.setEvlog x).relock = d.relock := rfl
@[simp] theorem Dev.setEvlog_sliceCmd (d : Dev) (x : List LogEntry) : (d.setEvlog x).sliceCmd = d.sliceCmd := rfl
@[simp] theorem Dev.setEvlog_rcWait (d : Dev) (x : List LogEntry) : (d.setEvlog x).rcWait = d.rcWait := rfl
@[simp] theorem Dev.setEvlog_sw (d : Dev) (x : List LogEntry) : (d.setEvlog x).sw = d.sw := rfl
@[simp] theorem Dev.setEvlog_jasia (d : Dev) (x : List LogEntry) : (d.setEvlog x).jasia = d.jasia := rfl
@[simp] theorem Dev.setEvlog_ptp (d : Dev) (x : List LogEntry) : (d.setEvlog x).ptp = d.ptp := rfl
@[simp] theorem Dev.setEvlog_can (d : Dev) (x : List LogEntry) : (d.setEvlog x).can = d.can := rfl
@[simp] theorem Dev.setEvlog_cores (d : Dev) (x : List LogEntry) : (d.setEvlog x).cores = d.cores := rfl
@[simp] theorem Dev.setEvlog_l2 (d : Dev) (x : List LogEntry) : (d.setEvlog x).l2 = d.l2 := rfl
@[simp] theorem Dev.setEvlog_l1 (d : Dev) (x : List LogEntry) : (d.setEvlog x).l1 = d.l1 := rfl
@[simp] theorem Dev.setEvlog_perfAt (d : Dev) (x : List LogEntry) : (d.setEvlog x).perfAt = d.perfAt := rfl
@[simp] theorem Dev.setEvlog_qN (d : Dev) (x : List LogEntry) : (d.setEvlog x).qN = d.qN := rfl
@[simp] theorem Dev.setEvlog_qS (d : Dev) (x : List LogEntry) : (d.setEvlog x).qS = d.qS := rfl
@[simp] theorem Dev.setEvlog_pairs (d : Dev) (x : List LogEntry) : (d.setEvlog x).pairs = d.pairs := rfl
@[simp] theorem Dev.setEvlog_mord (d : Dev) (x : List LogEntry) : (d.setEvlog x).mord = d.mord := rfl
@[simp] theorem Dev.setEvlog_dram (d : Dev) (x : List LogEntry) : (d.setEvlog x).dram = d.dram := rfl
@[simp] theorem Dev.setEvlog_aux (d : Dev) (x : List LogEntry) : (d.setEvlog x).aux = d.aux := rfl
@[simp] theorem Dev.setEvlog_auxSum (d : Dev) (x : List LogEntry) : (d.setEvlog x).auxSum = d.auxSum := rfl
@[simp] theorem Dev.setEvlog_mad (d : Dev) (x : List LogEntry) : (d.setEvlog x).mad = d.mad := rfl
@[simp] theorem Dev.setEvlog_link (d : Dev) (x : List LogEntry) : (d.setEvlog x).link = d.link := rfl
@[simp] theorem Dev.setEvlog_sup (d : Dev) (x : List LogEntry) : (d.setEvlog x).sup = d.sup := rfl
@[simp] theorem Dev.setEvlog_dbg (d : Dev) (x : List LogEntry) : (d.setEvlog x).dbg = d.dbg := rfl
@[simp] theorem Dev.setEvlog_fuse (d : Dev) (x : List LogEntry) : (d.setEvlog x).fuse = d.fuse := rfl
@[simp] theorem Dev.setEvlog_f (d : Dev) (x : List LogEntry) (r : RF) : (d.setEvlog x).f r = d.f r := rfl

/-! ### setOut -/

@[simp] theorem Dev.setOut_regs (d : Dev) (x : List Output) : (d.setOut x).regs = d.regs := rfl
@[simp] theorem Dev.setOut_now (d : Dev) (x : List Output) : (d.setOut x).now = d.now := rfl
@[simp] theorem Dev.setOut_up (d : Dev) (x : List Output) : (d.setOut x).up = d.up := rfl
@[simp] theorem Dev.setOut_upAcc (d : Dev) (x : List Output) : (d.setOut x).upAcc = d.upAcc := rfl
@[simp] theorem Dev.setOut_slewAcc (d : Dev) (x : List Output) : (d.setOut x).slewAcc = d.slewAcc := rfl
@[simp] theorem Dev.setOut_freshAt (d : Dev) (x : List Output) : (d.setOut x).freshAt = d.freshAt := rfl
@[simp] theorem Dev.setOut_fresh (d : Dev) (x : List Output) : (d.setOut x).fresh = d.fresh := rfl
@[simp] theorem Dev.setOut_resp (d : Dev) (x : List Output) : (d.setOut x).resp = d.resp := rfl
@[simp] theorem Dev.setOut_heldLow (d : Dev) (x : List Output) : (d.setOut x).heldLow = d.heldLow := rfl
@[simp] theorem Dev.setOut_capHigh (d : Dev) (x : List Output) : (d.setOut x).capHigh = d.capHigh := rfl
@[simp] theorem Dev.setOut_evlog (d : Dev) (x : List Output) : (d.setOut x).evlog = d.evlog := rfl
@[simp] theorem Dev.setOut_wq (d : Dev) (x : List Output) : (d.setOut x).wq = d.wq := rfl
@[simp] theorem Dev.setOut_lost (d : Dev) (x : List Output) : (d.setOut x).lost = d.lost := rfl
@[simp] theorem Dev.setOut_vatEpoch (d : Dev) (x : List Output) : (d.setOut x).vatEpoch = d.vatEpoch := rfl
@[simp] theorem Dev.setOut_dramEpoch (d : Dev) (x : List Output) : (d.setOut x).dramEpoch = d.dramEpoch := rfl
@[simp] theorem Dev.setOut_freeN (d : Dev) (x : List Output) : (d.setOut x).freeN = d.freeN := rfl
@[simp] theorem Dev.setOut_stepN (d : Dev) (x : List Output) : (d.setOut x).stepN = d.stepN := rfl
@[simp] theorem Dev.setOut_vats (d : Dev) (x : List Output) : (d.setOut x).vats = d.vats := rfl
@[simp] theorem Dev.setOut_slices (d : Dev) (x : List Output) : (d.setOut x).slices = d.slices := rfl
@[simp] theorem Dev.setOut_segD (d : Dev) (x : List Output) : (d.setOut x).segD = d.segD := rfl
@[simp] theorem Dev.setOut_segG (d : Dev) (x : List Output) : (d.setOut x).segG = d.segG := rfl
@[simp] theorem Dev.setOut_slcD (d : Dev) (x : List Output) : (d.setOut x).slcD = d.slcD := rfl
@[simp] theorem Dev.setOut_slcG (d : Dev) (x : List Output) : (d.setOut x).slcG = d.slcG := rfl
@[simp] theorem Dev.setOut_passAt (d : Dev) (x : List Output) : (d.setOut x).passAt = d.passAt := rfl
@[simp] theorem Dev.setOut_govRun (d : Dev) (x : List Output) : (d.setOut x).govRun = d.govRun := rfl
@[simp] theorem Dev.setOut_railNow (d : Dev) (x : List Output) : (d.setOut x).railNow = d.railNow := rfl
@[simp] theorem Dev.setOut_hot (d : Dev) (x : List Output) : (d.setOut x).hot = d.hot := rfl
@[simp] theorem Dev.setOut_relock (d : Dev) (x : List Output) : (d.setOut x).relock = d.relock := rfl
@[simp] theorem Dev.setOut_sliceCmd (d : Dev) (x : List Output) : (d.setOut x).sliceCmd = d.sliceCmd := rfl
@[simp] theorem Dev.setOut_rcWait (d : Dev) (x : List Output) : (d.setOut x).rcWait = d.rcWait := rfl
@[simp] theorem Dev.setOut_sw (d : Dev) (x : List Output) : (d.setOut x).sw = d.sw := rfl
@[simp] theorem Dev.setOut_jasia (d : Dev) (x : List Output) : (d.setOut x).jasia = d.jasia := rfl
@[simp] theorem Dev.setOut_ptp (d : Dev) (x : List Output) : (d.setOut x).ptp = d.ptp := rfl
@[simp] theorem Dev.setOut_can (d : Dev) (x : List Output) : (d.setOut x).can = d.can := rfl
@[simp] theorem Dev.setOut_cores (d : Dev) (x : List Output) : (d.setOut x).cores = d.cores := rfl
@[simp] theorem Dev.setOut_l2 (d : Dev) (x : List Output) : (d.setOut x).l2 = d.l2 := rfl
@[simp] theorem Dev.setOut_l1 (d : Dev) (x : List Output) : (d.setOut x).l1 = d.l1 := rfl
@[simp] theorem Dev.setOut_perfAt (d : Dev) (x : List Output) : (d.setOut x).perfAt = d.perfAt := rfl
@[simp] theorem Dev.setOut_qN (d : Dev) (x : List Output) : (d.setOut x).qN = d.qN := rfl
@[simp] theorem Dev.setOut_qS (d : Dev) (x : List Output) : (d.setOut x).qS = d.qS := rfl
@[simp] theorem Dev.setOut_pairs (d : Dev) (x : List Output) : (d.setOut x).pairs = d.pairs := rfl
@[simp] theorem Dev.setOut_mord (d : Dev) (x : List Output) : (d.setOut x).mord = d.mord := rfl
@[simp] theorem Dev.setOut_dram (d : Dev) (x : List Output) : (d.setOut x).dram = d.dram := rfl
@[simp] theorem Dev.setOut_aux (d : Dev) (x : List Output) : (d.setOut x).aux = d.aux := rfl
@[simp] theorem Dev.setOut_auxSum (d : Dev) (x : List Output) : (d.setOut x).auxSum = d.auxSum := rfl
@[simp] theorem Dev.setOut_mad (d : Dev) (x : List Output) : (d.setOut x).mad = d.mad := rfl
@[simp] theorem Dev.setOut_link (d : Dev) (x : List Output) : (d.setOut x).link = d.link := rfl
@[simp] theorem Dev.setOut_sup (d : Dev) (x : List Output) : (d.setOut x).sup = d.sup := rfl
@[simp] theorem Dev.setOut_dbg (d : Dev) (x : List Output) : (d.setOut x).dbg = d.dbg := rfl
@[simp] theorem Dev.setOut_fuse (d : Dev) (x : List Output) : (d.setOut x).fuse = d.fuse := rfl
@[simp] theorem Dev.setOut_f (d : Dev) (x : List Output) (r : RF) : (d.setOut x).f r = d.f r := rfl

/-! ### setWq -/

@[simp] theorem Dev.setWq_regs (d : Dev) (x : List (Nat × List Byte)) : (d.setWq x).regs = d.regs := rfl
@[simp] theorem Dev.setWq_now (d : Dev) (x : List (Nat × List Byte)) : (d.setWq x).now = d.now := rfl
@[simp] theorem Dev.setWq_up (d : Dev) (x : List (Nat × List Byte)) : (d.setWq x).up = d.up := rfl
@[simp] theorem Dev.setWq_upAcc (d : Dev) (x : List (Nat × List Byte)) : (d.setWq x).upAcc = d.upAcc := rfl
@[simp] theorem Dev.setWq_slewAcc (d : Dev) (x : List (Nat × List Byte)) : (d.setWq x).slewAcc = d.slewAcc := rfl
@[simp] theorem Dev.setWq_freshAt (d : Dev) (x : List (Nat × List Byte)) : (d.setWq x).freshAt = d.freshAt := rfl
@[simp] theorem Dev.setWq_fresh (d : Dev) (x : List (Nat × List Byte)) : (d.setWq x).fresh = d.fresh := rfl
@[simp] theorem Dev.setWq_resp (d : Dev) (x : List (Nat × List Byte)) : (d.setWq x).resp = d.resp := rfl
@[simp] theorem Dev.setWq_heldLow (d : Dev) (x : List (Nat × List Byte)) : (d.setWq x).heldLow = d.heldLow := rfl
@[simp] theorem Dev.setWq_capHigh (d : Dev) (x : List (Nat × List Byte)) : (d.setWq x).capHigh = d.capHigh := rfl
@[simp] theorem Dev.setWq_evlog (d : Dev) (x : List (Nat × List Byte)) : (d.setWq x).evlog = d.evlog := rfl
@[simp] theorem Dev.setWq_out (d : Dev) (x : List (Nat × List Byte)) : (d.setWq x).out = d.out := rfl
@[simp] theorem Dev.setWq_lost (d : Dev) (x : List (Nat × List Byte)) : (d.setWq x).lost = d.lost := rfl
@[simp] theorem Dev.setWq_vatEpoch (d : Dev) (x : List (Nat × List Byte)) : (d.setWq x).vatEpoch = d.vatEpoch := rfl
@[simp] theorem Dev.setWq_dramEpoch (d : Dev) (x : List (Nat × List Byte)) : (d.setWq x).dramEpoch = d.dramEpoch := rfl
@[simp] theorem Dev.setWq_freeN (d : Dev) (x : List (Nat × List Byte)) : (d.setWq x).freeN = d.freeN := rfl
@[simp] theorem Dev.setWq_stepN (d : Dev) (x : List (Nat × List Byte)) : (d.setWq x).stepN = d.stepN := rfl
@[simp] theorem Dev.setWq_vats (d : Dev) (x : List (Nat × List Byte)) : (d.setWq x).vats = d.vats := rfl
@[simp] theorem Dev.setWq_slices (d : Dev) (x : List (Nat × List Byte)) : (d.setWq x).slices = d.slices := rfl
@[simp] theorem Dev.setWq_segD (d : Dev) (x : List (Nat × List Byte)) : (d.setWq x).segD = d.segD := rfl
@[simp] theorem Dev.setWq_segG (d : Dev) (x : List (Nat × List Byte)) : (d.setWq x).segG = d.segG := rfl
@[simp] theorem Dev.setWq_slcD (d : Dev) (x : List (Nat × List Byte)) : (d.setWq x).slcD = d.slcD := rfl
@[simp] theorem Dev.setWq_slcG (d : Dev) (x : List (Nat × List Byte)) : (d.setWq x).slcG = d.slcG := rfl
@[simp] theorem Dev.setWq_passAt (d : Dev) (x : List (Nat × List Byte)) : (d.setWq x).passAt = d.passAt := rfl
@[simp] theorem Dev.setWq_govRun (d : Dev) (x : List (Nat × List Byte)) : (d.setWq x).govRun = d.govRun := rfl
@[simp] theorem Dev.setWq_railNow (d : Dev) (x : List (Nat × List Byte)) : (d.setWq x).railNow = d.railNow := rfl
@[simp] theorem Dev.setWq_hot (d : Dev) (x : List (Nat × List Byte)) : (d.setWq x).hot = d.hot := rfl
@[simp] theorem Dev.setWq_relock (d : Dev) (x : List (Nat × List Byte)) : (d.setWq x).relock = d.relock := rfl
@[simp] theorem Dev.setWq_sliceCmd (d : Dev) (x : List (Nat × List Byte)) : (d.setWq x).sliceCmd = d.sliceCmd := rfl
@[simp] theorem Dev.setWq_rcWait (d : Dev) (x : List (Nat × List Byte)) : (d.setWq x).rcWait = d.rcWait := rfl
@[simp] theorem Dev.setWq_sw (d : Dev) (x : List (Nat × List Byte)) : (d.setWq x).sw = d.sw := rfl
@[simp] theorem Dev.setWq_jasia (d : Dev) (x : List (Nat × List Byte)) : (d.setWq x).jasia = d.jasia := rfl
@[simp] theorem Dev.setWq_ptp (d : Dev) (x : List (Nat × List Byte)) : (d.setWq x).ptp = d.ptp := rfl
@[simp] theorem Dev.setWq_can (d : Dev) (x : List (Nat × List Byte)) : (d.setWq x).can = d.can := rfl
@[simp] theorem Dev.setWq_cores (d : Dev) (x : List (Nat × List Byte)) : (d.setWq x).cores = d.cores := rfl
@[simp] theorem Dev.setWq_l2 (d : Dev) (x : List (Nat × List Byte)) : (d.setWq x).l2 = d.l2 := rfl
@[simp] theorem Dev.setWq_l1 (d : Dev) (x : List (Nat × List Byte)) : (d.setWq x).l1 = d.l1 := rfl
@[simp] theorem Dev.setWq_perfAt (d : Dev) (x : List (Nat × List Byte)) : (d.setWq x).perfAt = d.perfAt := rfl
@[simp] theorem Dev.setWq_qN (d : Dev) (x : List (Nat × List Byte)) : (d.setWq x).qN = d.qN := rfl
@[simp] theorem Dev.setWq_qS (d : Dev) (x : List (Nat × List Byte)) : (d.setWq x).qS = d.qS := rfl
@[simp] theorem Dev.setWq_pairs (d : Dev) (x : List (Nat × List Byte)) : (d.setWq x).pairs = d.pairs := rfl
@[simp] theorem Dev.setWq_mord (d : Dev) (x : List (Nat × List Byte)) : (d.setWq x).mord = d.mord := rfl
@[simp] theorem Dev.setWq_dram (d : Dev) (x : List (Nat × List Byte)) : (d.setWq x).dram = d.dram := rfl
@[simp] theorem Dev.setWq_aux (d : Dev) (x : List (Nat × List Byte)) : (d.setWq x).aux = d.aux := rfl
@[simp] theorem Dev.setWq_auxSum (d : Dev) (x : List (Nat × List Byte)) : (d.setWq x).auxSum = d.auxSum := rfl
@[simp] theorem Dev.setWq_mad (d : Dev) (x : List (Nat × List Byte)) : (d.setWq x).mad = d.mad := rfl
@[simp] theorem Dev.setWq_link (d : Dev) (x : List (Nat × List Byte)) : (d.setWq x).link = d.link := rfl
@[simp] theorem Dev.setWq_sup (d : Dev) (x : List (Nat × List Byte)) : (d.setWq x).sup = d.sup := rfl
@[simp] theorem Dev.setWq_dbg (d : Dev) (x : List (Nat × List Byte)) : (d.setWq x).dbg = d.dbg := rfl
@[simp] theorem Dev.setWq_fuse (d : Dev) (x : List (Nat × List Byte)) : (d.setWq x).fuse = d.fuse := rfl
@[simp] theorem Dev.setWq_f (d : Dev) (x : List (Nat × List Byte)) (r : RF) : (d.setWq x).f r = d.f r := rfl

/-! ### setLost -/

@[simp] theorem Dev.setLost_regs (d : Dev) (x : List (Nat × Nat)) : (d.setLost x).regs = d.regs := rfl
@[simp] theorem Dev.setLost_now (d : Dev) (x : List (Nat × Nat)) : (d.setLost x).now = d.now := rfl
@[simp] theorem Dev.setLost_up (d : Dev) (x : List (Nat × Nat)) : (d.setLost x).up = d.up := rfl
@[simp] theorem Dev.setLost_upAcc (d : Dev) (x : List (Nat × Nat)) : (d.setLost x).upAcc = d.upAcc := rfl
@[simp] theorem Dev.setLost_slewAcc (d : Dev) (x : List (Nat × Nat)) : (d.setLost x).slewAcc = d.slewAcc := rfl
@[simp] theorem Dev.setLost_freshAt (d : Dev) (x : List (Nat × Nat)) : (d.setLost x).freshAt = d.freshAt := rfl
@[simp] theorem Dev.setLost_fresh (d : Dev) (x : List (Nat × Nat)) : (d.setLost x).fresh = d.fresh := rfl
@[simp] theorem Dev.setLost_resp (d : Dev) (x : List (Nat × Nat)) : (d.setLost x).resp = d.resp := rfl
@[simp] theorem Dev.setLost_heldLow (d : Dev) (x : List (Nat × Nat)) : (d.setLost x).heldLow = d.heldLow := rfl
@[simp] theorem Dev.setLost_capHigh (d : Dev) (x : List (Nat × Nat)) : (d.setLost x).capHigh = d.capHigh := rfl
@[simp] theorem Dev.setLost_evlog (d : Dev) (x : List (Nat × Nat)) : (d.setLost x).evlog = d.evlog := rfl
@[simp] theorem Dev.setLost_out (d : Dev) (x : List (Nat × Nat)) : (d.setLost x).out = d.out := rfl
@[simp] theorem Dev.setLost_wq (d : Dev) (x : List (Nat × Nat)) : (d.setLost x).wq = d.wq := rfl
@[simp] theorem Dev.setLost_vatEpoch (d : Dev) (x : List (Nat × Nat)) : (d.setLost x).vatEpoch = d.vatEpoch := rfl
@[simp] theorem Dev.setLost_dramEpoch (d : Dev) (x : List (Nat × Nat)) : (d.setLost x).dramEpoch = d.dramEpoch := rfl
@[simp] theorem Dev.setLost_freeN (d : Dev) (x : List (Nat × Nat)) : (d.setLost x).freeN = d.freeN := rfl
@[simp] theorem Dev.setLost_stepN (d : Dev) (x : List (Nat × Nat)) : (d.setLost x).stepN = d.stepN := rfl
@[simp] theorem Dev.setLost_vats (d : Dev) (x : List (Nat × Nat)) : (d.setLost x).vats = d.vats := rfl
@[simp] theorem Dev.setLost_slices (d : Dev) (x : List (Nat × Nat)) : (d.setLost x).slices = d.slices := rfl
@[simp] theorem Dev.setLost_segD (d : Dev) (x : List (Nat × Nat)) : (d.setLost x).segD = d.segD := rfl
@[simp] theorem Dev.setLost_segG (d : Dev) (x : List (Nat × Nat)) : (d.setLost x).segG = d.segG := rfl
@[simp] theorem Dev.setLost_slcD (d : Dev) (x : List (Nat × Nat)) : (d.setLost x).slcD = d.slcD := rfl
@[simp] theorem Dev.setLost_slcG (d : Dev) (x : List (Nat × Nat)) : (d.setLost x).slcG = d.slcG := rfl
@[simp] theorem Dev.setLost_passAt (d : Dev) (x : List (Nat × Nat)) : (d.setLost x).passAt = d.passAt := rfl
@[simp] theorem Dev.setLost_govRun (d : Dev) (x : List (Nat × Nat)) : (d.setLost x).govRun = d.govRun := rfl
@[simp] theorem Dev.setLost_railNow (d : Dev) (x : List (Nat × Nat)) : (d.setLost x).railNow = d.railNow := rfl
@[simp] theorem Dev.setLost_hot (d : Dev) (x : List (Nat × Nat)) : (d.setLost x).hot = d.hot := rfl
@[simp] theorem Dev.setLost_relock (d : Dev) (x : List (Nat × Nat)) : (d.setLost x).relock = d.relock := rfl
@[simp] theorem Dev.setLost_sliceCmd (d : Dev) (x : List (Nat × Nat)) : (d.setLost x).sliceCmd = d.sliceCmd := rfl
@[simp] theorem Dev.setLost_rcWait (d : Dev) (x : List (Nat × Nat)) : (d.setLost x).rcWait = d.rcWait := rfl
@[simp] theorem Dev.setLost_sw (d : Dev) (x : List (Nat × Nat)) : (d.setLost x).sw = d.sw := rfl
@[simp] theorem Dev.setLost_jasia (d : Dev) (x : List (Nat × Nat)) : (d.setLost x).jasia = d.jasia := rfl
@[simp] theorem Dev.setLost_ptp (d : Dev) (x : List (Nat × Nat)) : (d.setLost x).ptp = d.ptp := rfl
@[simp] theorem Dev.setLost_can (d : Dev) (x : List (Nat × Nat)) : (d.setLost x).can = d.can := rfl
@[simp] theorem Dev.setLost_cores (d : Dev) (x : List (Nat × Nat)) : (d.setLost x).cores = d.cores := rfl
@[simp] theorem Dev.setLost_l2 (d : Dev) (x : List (Nat × Nat)) : (d.setLost x).l2 = d.l2 := rfl
@[simp] theorem Dev.setLost_l1 (d : Dev) (x : List (Nat × Nat)) : (d.setLost x).l1 = d.l1 := rfl
@[simp] theorem Dev.setLost_perfAt (d : Dev) (x : List (Nat × Nat)) : (d.setLost x).perfAt = d.perfAt := rfl
@[simp] theorem Dev.setLost_qN (d : Dev) (x : List (Nat × Nat)) : (d.setLost x).qN = d.qN := rfl
@[simp] theorem Dev.setLost_qS (d : Dev) (x : List (Nat × Nat)) : (d.setLost x).qS = d.qS := rfl
@[simp] theorem Dev.setLost_pairs (d : Dev) (x : List (Nat × Nat)) : (d.setLost x).pairs = d.pairs := rfl
@[simp] theorem Dev.setLost_mord (d : Dev) (x : List (Nat × Nat)) : (d.setLost x).mord = d.mord := rfl
@[simp] theorem Dev.setLost_dram (d : Dev) (x : List (Nat × Nat)) : (d.setLost x).dram = d.dram := rfl
@[simp] theorem Dev.setLost_aux (d : Dev) (x : List (Nat × Nat)) : (d.setLost x).aux = d.aux := rfl
@[simp] theorem Dev.setLost_auxSum (d : Dev) (x : List (Nat × Nat)) : (d.setLost x).auxSum = d.auxSum := rfl
@[simp] theorem Dev.setLost_mad (d : Dev) (x : List (Nat × Nat)) : (d.setLost x).mad = d.mad := rfl
@[simp] theorem Dev.setLost_link (d : Dev) (x : List (Nat × Nat)) : (d.setLost x).link = d.link := rfl
@[simp] theorem Dev.setLost_sup (d : Dev) (x : List (Nat × Nat)) : (d.setLost x).sup = d.sup := rfl
@[simp] theorem Dev.setLost_dbg (d : Dev) (x : List (Nat × Nat)) : (d.setLost x).dbg = d.dbg := rfl
@[simp] theorem Dev.setLost_fuse (d : Dev) (x : List (Nat × Nat)) : (d.setLost x).fuse = d.fuse := rfl
@[simp] theorem Dev.setLost_f (d : Dev) (x : List (Nat × Nat)) (r : RF) : (d.setLost x).f r = d.f r := rfl

/-! ### setDramEpoch -/

@[simp] theorem Dev.setDramEpoch_regs (d : Dev) (x : Nat) : (d.setDramEpoch x).regs = d.regs := rfl
@[simp] theorem Dev.setDramEpoch_now (d : Dev) (x : Nat) : (d.setDramEpoch x).now = d.now := rfl
@[simp] theorem Dev.setDramEpoch_up (d : Dev) (x : Nat) : (d.setDramEpoch x).up = d.up := rfl
@[simp] theorem Dev.setDramEpoch_upAcc (d : Dev) (x : Nat) : (d.setDramEpoch x).upAcc = d.upAcc := rfl
@[simp] theorem Dev.setDramEpoch_slewAcc (d : Dev) (x : Nat) : (d.setDramEpoch x).slewAcc = d.slewAcc := rfl
@[simp] theorem Dev.setDramEpoch_freshAt (d : Dev) (x : Nat) : (d.setDramEpoch x).freshAt = d.freshAt := rfl
@[simp] theorem Dev.setDramEpoch_fresh (d : Dev) (x : Nat) : (d.setDramEpoch x).fresh = d.fresh := rfl
@[simp] theorem Dev.setDramEpoch_resp (d : Dev) (x : Nat) : (d.setDramEpoch x).resp = d.resp := rfl
@[simp] theorem Dev.setDramEpoch_heldLow (d : Dev) (x : Nat) : (d.setDramEpoch x).heldLow = d.heldLow := rfl
@[simp] theorem Dev.setDramEpoch_capHigh (d : Dev) (x : Nat) : (d.setDramEpoch x).capHigh = d.capHigh := rfl
@[simp] theorem Dev.setDramEpoch_evlog (d : Dev) (x : Nat) : (d.setDramEpoch x).evlog = d.evlog := rfl
@[simp] theorem Dev.setDramEpoch_out (d : Dev) (x : Nat) : (d.setDramEpoch x).out = d.out := rfl
@[simp] theorem Dev.setDramEpoch_wq (d : Dev) (x : Nat) : (d.setDramEpoch x).wq = d.wq := rfl
@[simp] theorem Dev.setDramEpoch_lost (d : Dev) (x : Nat) : (d.setDramEpoch x).lost = d.lost := rfl
@[simp] theorem Dev.setDramEpoch_vatEpoch (d : Dev) (x : Nat) : (d.setDramEpoch x).vatEpoch = d.vatEpoch := rfl
@[simp] theorem Dev.setDramEpoch_freeN (d : Dev) (x : Nat) : (d.setDramEpoch x).freeN = d.freeN := rfl
@[simp] theorem Dev.setDramEpoch_stepN (d : Dev) (x : Nat) : (d.setDramEpoch x).stepN = d.stepN := rfl
@[simp] theorem Dev.setDramEpoch_vats (d : Dev) (x : Nat) : (d.setDramEpoch x).vats = d.vats := rfl
@[simp] theorem Dev.setDramEpoch_slices (d : Dev) (x : Nat) : (d.setDramEpoch x).slices = d.slices := rfl
@[simp] theorem Dev.setDramEpoch_segD (d : Dev) (x : Nat) : (d.setDramEpoch x).segD = d.segD := rfl
@[simp] theorem Dev.setDramEpoch_segG (d : Dev) (x : Nat) : (d.setDramEpoch x).segG = d.segG := rfl
@[simp] theorem Dev.setDramEpoch_slcD (d : Dev) (x : Nat) : (d.setDramEpoch x).slcD = d.slcD := rfl
@[simp] theorem Dev.setDramEpoch_slcG (d : Dev) (x : Nat) : (d.setDramEpoch x).slcG = d.slcG := rfl
@[simp] theorem Dev.setDramEpoch_passAt (d : Dev) (x : Nat) : (d.setDramEpoch x).passAt = d.passAt := rfl
@[simp] theorem Dev.setDramEpoch_govRun (d : Dev) (x : Nat) : (d.setDramEpoch x).govRun = d.govRun := rfl
@[simp] theorem Dev.setDramEpoch_railNow (d : Dev) (x : Nat) : (d.setDramEpoch x).railNow = d.railNow := rfl
@[simp] theorem Dev.setDramEpoch_hot (d : Dev) (x : Nat) : (d.setDramEpoch x).hot = d.hot := rfl
@[simp] theorem Dev.setDramEpoch_relock (d : Dev) (x : Nat) : (d.setDramEpoch x).relock = d.relock := rfl
@[simp] theorem Dev.setDramEpoch_sliceCmd (d : Dev) (x : Nat) : (d.setDramEpoch x).sliceCmd = d.sliceCmd := rfl
@[simp] theorem Dev.setDramEpoch_rcWait (d : Dev) (x : Nat) : (d.setDramEpoch x).rcWait = d.rcWait := rfl
@[simp] theorem Dev.setDramEpoch_sw (d : Dev) (x : Nat) : (d.setDramEpoch x).sw = d.sw := rfl
@[simp] theorem Dev.setDramEpoch_jasia (d : Dev) (x : Nat) : (d.setDramEpoch x).jasia = d.jasia := rfl
@[simp] theorem Dev.setDramEpoch_ptp (d : Dev) (x : Nat) : (d.setDramEpoch x).ptp = d.ptp := rfl
@[simp] theorem Dev.setDramEpoch_can (d : Dev) (x : Nat) : (d.setDramEpoch x).can = d.can := rfl
@[simp] theorem Dev.setDramEpoch_cores (d : Dev) (x : Nat) : (d.setDramEpoch x).cores = d.cores := rfl
@[simp] theorem Dev.setDramEpoch_l2 (d : Dev) (x : Nat) : (d.setDramEpoch x).l2 = d.l2 := rfl
@[simp] theorem Dev.setDramEpoch_l1 (d : Dev) (x : Nat) : (d.setDramEpoch x).l1 = d.l1 := rfl
@[simp] theorem Dev.setDramEpoch_perfAt (d : Dev) (x : Nat) : (d.setDramEpoch x).perfAt = d.perfAt := rfl
@[simp] theorem Dev.setDramEpoch_qN (d : Dev) (x : Nat) : (d.setDramEpoch x).qN = d.qN := rfl
@[simp] theorem Dev.setDramEpoch_qS (d : Dev) (x : Nat) : (d.setDramEpoch x).qS = d.qS := rfl
@[simp] theorem Dev.setDramEpoch_pairs (d : Dev) (x : Nat) : (d.setDramEpoch x).pairs = d.pairs := rfl
@[simp] theorem Dev.setDramEpoch_mord (d : Dev) (x : Nat) : (d.setDramEpoch x).mord = d.mord := rfl
@[simp] theorem Dev.setDramEpoch_dram (d : Dev) (x : Nat) : (d.setDramEpoch x).dram = d.dram := rfl
@[simp] theorem Dev.setDramEpoch_aux (d : Dev) (x : Nat) : (d.setDramEpoch x).aux = d.aux := rfl
@[simp] theorem Dev.setDramEpoch_auxSum (d : Dev) (x : Nat) : (d.setDramEpoch x).auxSum = d.auxSum := rfl
@[simp] theorem Dev.setDramEpoch_mad (d : Dev) (x : Nat) : (d.setDramEpoch x).mad = d.mad := rfl
@[simp] theorem Dev.setDramEpoch_link (d : Dev) (x : Nat) : (d.setDramEpoch x).link = d.link := rfl
@[simp] theorem Dev.setDramEpoch_sup (d : Dev) (x : Nat) : (d.setDramEpoch x).sup = d.sup := rfl
@[simp] theorem Dev.setDramEpoch_dbg (d : Dev) (x : Nat) : (d.setDramEpoch x).dbg = d.dbg := rfl
@[simp] theorem Dev.setDramEpoch_fuse (d : Dev) (x : Nat) : (d.setDramEpoch x).fuse = d.fuse := rfl
@[simp] theorem Dev.setDramEpoch_f (d : Dev) (x : Nat) (r : RF) : (d.setDramEpoch x).f r = d.f r := rfl

/-! ### setFreeN -/

@[simp] theorem Dev.setFreeN_regs (d : Dev) (x : Nat) : (d.setFreeN x).regs = d.regs := rfl
@[simp] theorem Dev.setFreeN_now (d : Dev) (x : Nat) : (d.setFreeN x).now = d.now := rfl
@[simp] theorem Dev.setFreeN_up (d : Dev) (x : Nat) : (d.setFreeN x).up = d.up := rfl
@[simp] theorem Dev.setFreeN_upAcc (d : Dev) (x : Nat) : (d.setFreeN x).upAcc = d.upAcc := rfl
@[simp] theorem Dev.setFreeN_slewAcc (d : Dev) (x : Nat) : (d.setFreeN x).slewAcc = d.slewAcc := rfl
@[simp] theorem Dev.setFreeN_freshAt (d : Dev) (x : Nat) : (d.setFreeN x).freshAt = d.freshAt := rfl
@[simp] theorem Dev.setFreeN_fresh (d : Dev) (x : Nat) : (d.setFreeN x).fresh = d.fresh := rfl
@[simp] theorem Dev.setFreeN_resp (d : Dev) (x : Nat) : (d.setFreeN x).resp = d.resp := rfl
@[simp] theorem Dev.setFreeN_heldLow (d : Dev) (x : Nat) : (d.setFreeN x).heldLow = d.heldLow := rfl
@[simp] theorem Dev.setFreeN_capHigh (d : Dev) (x : Nat) : (d.setFreeN x).capHigh = d.capHigh := rfl
@[simp] theorem Dev.setFreeN_evlog (d : Dev) (x : Nat) : (d.setFreeN x).evlog = d.evlog := rfl
@[simp] theorem Dev.setFreeN_out (d : Dev) (x : Nat) : (d.setFreeN x).out = d.out := rfl
@[simp] theorem Dev.setFreeN_wq (d : Dev) (x : Nat) : (d.setFreeN x).wq = d.wq := rfl
@[simp] theorem Dev.setFreeN_lost (d : Dev) (x : Nat) : (d.setFreeN x).lost = d.lost := rfl
@[simp] theorem Dev.setFreeN_vatEpoch (d : Dev) (x : Nat) : (d.setFreeN x).vatEpoch = d.vatEpoch := rfl
@[simp] theorem Dev.setFreeN_dramEpoch (d : Dev) (x : Nat) : (d.setFreeN x).dramEpoch = d.dramEpoch := rfl
@[simp] theorem Dev.setFreeN_stepN (d : Dev) (x : Nat) : (d.setFreeN x).stepN = d.stepN := rfl
@[simp] theorem Dev.setFreeN_vats (d : Dev) (x : Nat) : (d.setFreeN x).vats = d.vats := rfl
@[simp] theorem Dev.setFreeN_slices (d : Dev) (x : Nat) : (d.setFreeN x).slices = d.slices := rfl
@[simp] theorem Dev.setFreeN_segD (d : Dev) (x : Nat) : (d.setFreeN x).segD = d.segD := rfl
@[simp] theorem Dev.setFreeN_segG (d : Dev) (x : Nat) : (d.setFreeN x).segG = d.segG := rfl
@[simp] theorem Dev.setFreeN_slcD (d : Dev) (x : Nat) : (d.setFreeN x).slcD = d.slcD := rfl
@[simp] theorem Dev.setFreeN_slcG (d : Dev) (x : Nat) : (d.setFreeN x).slcG = d.slcG := rfl
@[simp] theorem Dev.setFreeN_passAt (d : Dev) (x : Nat) : (d.setFreeN x).passAt = d.passAt := rfl
@[simp] theorem Dev.setFreeN_govRun (d : Dev) (x : Nat) : (d.setFreeN x).govRun = d.govRun := rfl
@[simp] theorem Dev.setFreeN_railNow (d : Dev) (x : Nat) : (d.setFreeN x).railNow = d.railNow := rfl
@[simp] theorem Dev.setFreeN_hot (d : Dev) (x : Nat) : (d.setFreeN x).hot = d.hot := rfl
@[simp] theorem Dev.setFreeN_relock (d : Dev) (x : Nat) : (d.setFreeN x).relock = d.relock := rfl
@[simp] theorem Dev.setFreeN_sliceCmd (d : Dev) (x : Nat) : (d.setFreeN x).sliceCmd = d.sliceCmd := rfl
@[simp] theorem Dev.setFreeN_rcWait (d : Dev) (x : Nat) : (d.setFreeN x).rcWait = d.rcWait := rfl
@[simp] theorem Dev.setFreeN_sw (d : Dev) (x : Nat) : (d.setFreeN x).sw = d.sw := rfl
@[simp] theorem Dev.setFreeN_jasia (d : Dev) (x : Nat) : (d.setFreeN x).jasia = d.jasia := rfl
@[simp] theorem Dev.setFreeN_ptp (d : Dev) (x : Nat) : (d.setFreeN x).ptp = d.ptp := rfl
@[simp] theorem Dev.setFreeN_can (d : Dev) (x : Nat) : (d.setFreeN x).can = d.can := rfl
@[simp] theorem Dev.setFreeN_cores (d : Dev) (x : Nat) : (d.setFreeN x).cores = d.cores := rfl
@[simp] theorem Dev.setFreeN_l2 (d : Dev) (x : Nat) : (d.setFreeN x).l2 = d.l2 := rfl
@[simp] theorem Dev.setFreeN_l1 (d : Dev) (x : Nat) : (d.setFreeN x).l1 = d.l1 := rfl
@[simp] theorem Dev.setFreeN_perfAt (d : Dev) (x : Nat) : (d.setFreeN x).perfAt = d.perfAt := rfl
@[simp] theorem Dev.setFreeN_qN (d : Dev) (x : Nat) : (d.setFreeN x).qN = d.qN := rfl
@[simp] theorem Dev.setFreeN_qS (d : Dev) (x : Nat) : (d.setFreeN x).qS = d.qS := rfl
@[simp] theorem Dev.setFreeN_pairs (d : Dev) (x : Nat) : (d.setFreeN x).pairs = d.pairs := rfl
@[simp] theorem Dev.setFreeN_mord (d : Dev) (x : Nat) : (d.setFreeN x).mord = d.mord := rfl
@[simp] theorem Dev.setFreeN_dram (d : Dev) (x : Nat) : (d.setFreeN x).dram = d.dram := rfl
@[simp] theorem Dev.setFreeN_aux (d : Dev) (x : Nat) : (d.setFreeN x).aux = d.aux := rfl
@[simp] theorem Dev.setFreeN_auxSum (d : Dev) (x : Nat) : (d.setFreeN x).auxSum = d.auxSum := rfl
@[simp] theorem Dev.setFreeN_mad (d : Dev) (x : Nat) : (d.setFreeN x).mad = d.mad := rfl
@[simp] theorem Dev.setFreeN_link (d : Dev) (x : Nat) : (d.setFreeN x).link = d.link := rfl
@[simp] theorem Dev.setFreeN_sup (d : Dev) (x : Nat) : (d.setFreeN x).sup = d.sup := rfl
@[simp] theorem Dev.setFreeN_dbg (d : Dev) (x : Nat) : (d.setFreeN x).dbg = d.dbg := rfl
@[simp] theorem Dev.setFreeN_fuse (d : Dev) (x : Nat) : (d.setFreeN x).fuse = d.fuse := rfl
@[simp] theorem Dev.setFreeN_f (d : Dev) (x : Nat) (r : RF) : (d.setFreeN x).f r = d.f r := rfl

/-! ### setStepN -/

@[simp] theorem Dev.setStepN_regs (d : Dev) (x : Nat) : (d.setStepN x).regs = d.regs := rfl
@[simp] theorem Dev.setStepN_now (d : Dev) (x : Nat) : (d.setStepN x).now = d.now := rfl
@[simp] theorem Dev.setStepN_up (d : Dev) (x : Nat) : (d.setStepN x).up = d.up := rfl
@[simp] theorem Dev.setStepN_upAcc (d : Dev) (x : Nat) : (d.setStepN x).upAcc = d.upAcc := rfl
@[simp] theorem Dev.setStepN_slewAcc (d : Dev) (x : Nat) : (d.setStepN x).slewAcc = d.slewAcc := rfl
@[simp] theorem Dev.setStepN_freshAt (d : Dev) (x : Nat) : (d.setStepN x).freshAt = d.freshAt := rfl
@[simp] theorem Dev.setStepN_fresh (d : Dev) (x : Nat) : (d.setStepN x).fresh = d.fresh := rfl
@[simp] theorem Dev.setStepN_resp (d : Dev) (x : Nat) : (d.setStepN x).resp = d.resp := rfl
@[simp] theorem Dev.setStepN_heldLow (d : Dev) (x : Nat) : (d.setStepN x).heldLow = d.heldLow := rfl
@[simp] theorem Dev.setStepN_capHigh (d : Dev) (x : Nat) : (d.setStepN x).capHigh = d.capHigh := rfl
@[simp] theorem Dev.setStepN_evlog (d : Dev) (x : Nat) : (d.setStepN x).evlog = d.evlog := rfl
@[simp] theorem Dev.setStepN_out (d : Dev) (x : Nat) : (d.setStepN x).out = d.out := rfl
@[simp] theorem Dev.setStepN_wq (d : Dev) (x : Nat) : (d.setStepN x).wq = d.wq := rfl
@[simp] theorem Dev.setStepN_lost (d : Dev) (x : Nat) : (d.setStepN x).lost = d.lost := rfl
@[simp] theorem Dev.setStepN_vatEpoch (d : Dev) (x : Nat) : (d.setStepN x).vatEpoch = d.vatEpoch := rfl
@[simp] theorem Dev.setStepN_dramEpoch (d : Dev) (x : Nat) : (d.setStepN x).dramEpoch = d.dramEpoch := rfl
@[simp] theorem Dev.setStepN_freeN (d : Dev) (x : Nat) : (d.setStepN x).freeN = d.freeN := rfl
@[simp] theorem Dev.setStepN_vats (d : Dev) (x : Nat) : (d.setStepN x).vats = d.vats := rfl
@[simp] theorem Dev.setStepN_slices (d : Dev) (x : Nat) : (d.setStepN x).slices = d.slices := rfl
@[simp] theorem Dev.setStepN_segD (d : Dev) (x : Nat) : (d.setStepN x).segD = d.segD := rfl
@[simp] theorem Dev.setStepN_segG (d : Dev) (x : Nat) : (d.setStepN x).segG = d.segG := rfl
@[simp] theorem Dev.setStepN_slcD (d : Dev) (x : Nat) : (d.setStepN x).slcD = d.slcD := rfl
@[simp] theorem Dev.setStepN_slcG (d : Dev) (x : Nat) : (d.setStepN x).slcG = d.slcG := rfl
@[simp] theorem Dev.setStepN_passAt (d : Dev) (x : Nat) : (d.setStepN x).passAt = d.passAt := rfl
@[simp] theorem Dev.setStepN_govRun (d : Dev) (x : Nat) : (d.setStepN x).govRun = d.govRun := rfl
@[simp] theorem Dev.setStepN_railNow (d : Dev) (x : Nat) : (d.setStepN x).railNow = d.railNow := rfl
@[simp] theorem Dev.setStepN_hot (d : Dev) (x : Nat) : (d.setStepN x).hot = d.hot := rfl
@[simp] theorem Dev.setStepN_relock (d : Dev) (x : Nat) : (d.setStepN x).relock = d.relock := rfl
@[simp] theorem Dev.setStepN_sliceCmd (d : Dev) (x : Nat) : (d.setStepN x).sliceCmd = d.sliceCmd := rfl
@[simp] theorem Dev.setStepN_rcWait (d : Dev) (x : Nat) : (d.setStepN x).rcWait = d.rcWait := rfl
@[simp] theorem Dev.setStepN_sw (d : Dev) (x : Nat) : (d.setStepN x).sw = d.sw := rfl
@[simp] theorem Dev.setStepN_jasia (d : Dev) (x : Nat) : (d.setStepN x).jasia = d.jasia := rfl
@[simp] theorem Dev.setStepN_ptp (d : Dev) (x : Nat) : (d.setStepN x).ptp = d.ptp := rfl
@[simp] theorem Dev.setStepN_can (d : Dev) (x : Nat) : (d.setStepN x).can = d.can := rfl
@[simp] theorem Dev.setStepN_cores (d : Dev) (x : Nat) : (d.setStepN x).cores = d.cores := rfl
@[simp] theorem Dev.setStepN_l2 (d : Dev) (x : Nat) : (d.setStepN x).l2 = d.l2 := rfl
@[simp] theorem Dev.setStepN_l1 (d : Dev) (x : Nat) : (d.setStepN x).l1 = d.l1 := rfl
@[simp] theorem Dev.setStepN_perfAt (d : Dev) (x : Nat) : (d.setStepN x).perfAt = d.perfAt := rfl
@[simp] theorem Dev.setStepN_qN (d : Dev) (x : Nat) : (d.setStepN x).qN = d.qN := rfl
@[simp] theorem Dev.setStepN_qS (d : Dev) (x : Nat) : (d.setStepN x).qS = d.qS := rfl
@[simp] theorem Dev.setStepN_pairs (d : Dev) (x : Nat) : (d.setStepN x).pairs = d.pairs := rfl
@[simp] theorem Dev.setStepN_mord (d : Dev) (x : Nat) : (d.setStepN x).mord = d.mord := rfl
@[simp] theorem Dev.setStepN_dram (d : Dev) (x : Nat) : (d.setStepN x).dram = d.dram := rfl
@[simp] theorem Dev.setStepN_aux (d : Dev) (x : Nat) : (d.setStepN x).aux = d.aux := rfl
@[simp] theorem Dev.setStepN_auxSum (d : Dev) (x : Nat) : (d.setStepN x).auxSum = d.auxSum := rfl
@[simp] theorem Dev.setStepN_mad (d : Dev) (x : Nat) : (d.setStepN x).mad = d.mad := rfl
@[simp] theorem Dev.setStepN_link (d : Dev) (x : Nat) : (d.setStepN x).link = d.link := rfl
@[simp] theorem Dev.setStepN_sup (d : Dev) (x : Nat) : (d.setStepN x).sup = d.sup := rfl
@[simp] theorem Dev.setStepN_dbg (d : Dev) (x : Nat) : (d.setStepN x).dbg = d.dbg := rfl
@[simp] theorem Dev.setStepN_fuse (d : Dev) (x : Nat) : (d.setStepN x).fuse = d.fuse := rfl
@[simp] theorem Dev.setStepN_f (d : Dev) (x : Nat) (r : RF) : (d.setStepN x).f r = d.f r := rfl

/-! ### setVats -/

@[simp] theorem Dev.setVats_regs (d : Dev) (x : Vector Vat 16) : (d.setVats x).regs = d.regs := rfl
@[simp] theorem Dev.setVats_now (d : Dev) (x : Vector Vat 16) : (d.setVats x).now = d.now := rfl
@[simp] theorem Dev.setVats_up (d : Dev) (x : Vector Vat 16) : (d.setVats x).up = d.up := rfl
@[simp] theorem Dev.setVats_upAcc (d : Dev) (x : Vector Vat 16) : (d.setVats x).upAcc = d.upAcc := rfl
@[simp] theorem Dev.setVats_slewAcc (d : Dev) (x : Vector Vat 16) : (d.setVats x).slewAcc = d.slewAcc := rfl
@[simp] theorem Dev.setVats_freshAt (d : Dev) (x : Vector Vat 16) : (d.setVats x).freshAt = d.freshAt := rfl
@[simp] theorem Dev.setVats_fresh (d : Dev) (x : Vector Vat 16) : (d.setVats x).fresh = d.fresh := rfl
@[simp] theorem Dev.setVats_resp (d : Dev) (x : Vector Vat 16) : (d.setVats x).resp = d.resp := rfl
@[simp] theorem Dev.setVats_heldLow (d : Dev) (x : Vector Vat 16) : (d.setVats x).heldLow = d.heldLow := rfl
@[simp] theorem Dev.setVats_capHigh (d : Dev) (x : Vector Vat 16) : (d.setVats x).capHigh = d.capHigh := rfl
@[simp] theorem Dev.setVats_evlog (d : Dev) (x : Vector Vat 16) : (d.setVats x).evlog = d.evlog := rfl
@[simp] theorem Dev.setVats_out (d : Dev) (x : Vector Vat 16) : (d.setVats x).out = d.out := rfl
@[simp] theorem Dev.setVats_wq (d : Dev) (x : Vector Vat 16) : (d.setVats x).wq = d.wq := rfl
@[simp] theorem Dev.setVats_lost (d : Dev) (x : Vector Vat 16) : (d.setVats x).lost = d.lost := rfl
@[simp] theorem Dev.setVats_vatEpoch (d : Dev) (x : Vector Vat 16) : (d.setVats x).vatEpoch = d.vatEpoch := rfl
@[simp] theorem Dev.setVats_dramEpoch (d : Dev) (x : Vector Vat 16) : (d.setVats x).dramEpoch = d.dramEpoch := rfl
@[simp] theorem Dev.setVats_freeN (d : Dev) (x : Vector Vat 16) : (d.setVats x).freeN = d.freeN := rfl
@[simp] theorem Dev.setVats_stepN (d : Dev) (x : Vector Vat 16) : (d.setVats x).stepN = d.stepN := rfl
@[simp] theorem Dev.setVats_slices (d : Dev) (x : Vector Vat 16) : (d.setVats x).slices = d.slices := rfl
@[simp] theorem Dev.setVats_segD (d : Dev) (x : Vector Vat 16) : (d.setVats x).segD = d.segD := rfl
@[simp] theorem Dev.setVats_segG (d : Dev) (x : Vector Vat 16) : (d.setVats x).segG = d.segG := rfl
@[simp] theorem Dev.setVats_slcD (d : Dev) (x : Vector Vat 16) : (d.setVats x).slcD = d.slcD := rfl
@[simp] theorem Dev.setVats_slcG (d : Dev) (x : Vector Vat 16) : (d.setVats x).slcG = d.slcG := rfl
@[simp] theorem Dev.setVats_passAt (d : Dev) (x : Vector Vat 16) : (d.setVats x).passAt = d.passAt := rfl
@[simp] theorem Dev.setVats_govRun (d : Dev) (x : Vector Vat 16) : (d.setVats x).govRun = d.govRun := rfl
@[simp] theorem Dev.setVats_railNow (d : Dev) (x : Vector Vat 16) : (d.setVats x).railNow = d.railNow := rfl
@[simp] theorem Dev.setVats_hot (d : Dev) (x : Vector Vat 16) : (d.setVats x).hot = d.hot := rfl
@[simp] theorem Dev.setVats_relock (d : Dev) (x : Vector Vat 16) : (d.setVats x).relock = d.relock := rfl
@[simp] theorem Dev.setVats_sliceCmd (d : Dev) (x : Vector Vat 16) : (d.setVats x).sliceCmd = d.sliceCmd := rfl
@[simp] theorem Dev.setVats_rcWait (d : Dev) (x : Vector Vat 16) : (d.setVats x).rcWait = d.rcWait := rfl
@[simp] theorem Dev.setVats_sw (d : Dev) (x : Vector Vat 16) : (d.setVats x).sw = d.sw := rfl
@[simp] theorem Dev.setVats_jasia (d : Dev) (x : Vector Vat 16) : (d.setVats x).jasia = d.jasia := rfl
@[simp] theorem Dev.setVats_ptp (d : Dev) (x : Vector Vat 16) : (d.setVats x).ptp = d.ptp := rfl
@[simp] theorem Dev.setVats_can (d : Dev) (x : Vector Vat 16) : (d.setVats x).can = d.can := rfl
@[simp] theorem Dev.setVats_cores (d : Dev) (x : Vector Vat 16) : (d.setVats x).cores = d.cores := rfl
@[simp] theorem Dev.setVats_l2 (d : Dev) (x : Vector Vat 16) : (d.setVats x).l2 = d.l2 := rfl
@[simp] theorem Dev.setVats_l1 (d : Dev) (x : Vector Vat 16) : (d.setVats x).l1 = d.l1 := rfl
@[simp] theorem Dev.setVats_perfAt (d : Dev) (x : Vector Vat 16) : (d.setVats x).perfAt = d.perfAt := rfl
@[simp] theorem Dev.setVats_qN (d : Dev) (x : Vector Vat 16) : (d.setVats x).qN = d.qN := rfl
@[simp] theorem Dev.setVats_qS (d : Dev) (x : Vector Vat 16) : (d.setVats x).qS = d.qS := rfl
@[simp] theorem Dev.setVats_pairs (d : Dev) (x : Vector Vat 16) : (d.setVats x).pairs = d.pairs := rfl
@[simp] theorem Dev.setVats_mord (d : Dev) (x : Vector Vat 16) : (d.setVats x).mord = d.mord := rfl
@[simp] theorem Dev.setVats_dram (d : Dev) (x : Vector Vat 16) : (d.setVats x).dram = d.dram := rfl
@[simp] theorem Dev.setVats_aux (d : Dev) (x : Vector Vat 16) : (d.setVats x).aux = d.aux := rfl
@[simp] theorem Dev.setVats_auxSum (d : Dev) (x : Vector Vat 16) : (d.setVats x).auxSum = d.auxSum := rfl
@[simp] theorem Dev.setVats_mad (d : Dev) (x : Vector Vat 16) : (d.setVats x).mad = d.mad := rfl
@[simp] theorem Dev.setVats_link (d : Dev) (x : Vector Vat 16) : (d.setVats x).link = d.link := rfl
@[simp] theorem Dev.setVats_sup (d : Dev) (x : Vector Vat 16) : (d.setVats x).sup = d.sup := rfl
@[simp] theorem Dev.setVats_dbg (d : Dev) (x : Vector Vat 16) : (d.setVats x).dbg = d.dbg := rfl
@[simp] theorem Dev.setVats_fuse (d : Dev) (x : Vector Vat 16) : (d.setVats x).fuse = d.fuse := rfl
@[simp] theorem Dev.setVats_f (d : Dev) (x : Vector Vat 16) (r : RF) : (d.setVats x).f r = d.f r := rfl

/-! ### setSlices -/

@[simp] theorem Dev.setSlices_regs (d : Dev) (x : Vector SliceEng 64) : (d.setSlices x).regs = d.regs := rfl
@[simp] theorem Dev.setSlices_now (d : Dev) (x : Vector SliceEng 64) : (d.setSlices x).now = d.now := rfl
@[simp] theorem Dev.setSlices_up (d : Dev) (x : Vector SliceEng 64) : (d.setSlices x).up = d.up := rfl
@[simp] theorem Dev.setSlices_upAcc (d : Dev) (x : Vector SliceEng 64) : (d.setSlices x).upAcc = d.upAcc := rfl
@[simp] theorem Dev.setSlices_slewAcc (d : Dev) (x : Vector SliceEng 64) : (d.setSlices x).slewAcc = d.slewAcc := rfl
@[simp] theorem Dev.setSlices_freshAt (d : Dev) (x : Vector SliceEng 64) : (d.setSlices x).freshAt = d.freshAt := rfl
@[simp] theorem Dev.setSlices_fresh (d : Dev) (x : Vector SliceEng 64) : (d.setSlices x).fresh = d.fresh := rfl
@[simp] theorem Dev.setSlices_resp (d : Dev) (x : Vector SliceEng 64) : (d.setSlices x).resp = d.resp := rfl
@[simp] theorem Dev.setSlices_heldLow (d : Dev) (x : Vector SliceEng 64) : (d.setSlices x).heldLow = d.heldLow := rfl
@[simp] theorem Dev.setSlices_capHigh (d : Dev) (x : Vector SliceEng 64) : (d.setSlices x).capHigh = d.capHigh := rfl
@[simp] theorem Dev.setSlices_evlog (d : Dev) (x : Vector SliceEng 64) : (d.setSlices x).evlog = d.evlog := rfl
@[simp] theorem Dev.setSlices_out (d : Dev) (x : Vector SliceEng 64) : (d.setSlices x).out = d.out := rfl
@[simp] theorem Dev.setSlices_wq (d : Dev) (x : Vector SliceEng 64) : (d.setSlices x).wq = d.wq := rfl
@[simp] theorem Dev.setSlices_lost (d : Dev) (x : Vector SliceEng 64) : (d.setSlices x).lost = d.lost := rfl
@[simp] theorem Dev.setSlices_vatEpoch (d : Dev) (x : Vector SliceEng 64) : (d.setSlices x).vatEpoch = d.vatEpoch := rfl
@[simp] theorem Dev.setSlices_dramEpoch (d : Dev) (x : Vector SliceEng 64) : (d.setSlices x).dramEpoch = d.dramEpoch := rfl
@[simp] theorem Dev.setSlices_freeN (d : Dev) (x : Vector SliceEng 64) : (d.setSlices x).freeN = d.freeN := rfl
@[simp] theorem Dev.setSlices_stepN (d : Dev) (x : Vector SliceEng 64) : (d.setSlices x).stepN = d.stepN := rfl
@[simp] theorem Dev.setSlices_vats (d : Dev) (x : Vector SliceEng 64) : (d.setSlices x).vats = d.vats := rfl
@[simp] theorem Dev.setSlices_segD (d : Dev) (x : Vector SliceEng 64) : (d.setSlices x).segD = d.segD := rfl
@[simp] theorem Dev.setSlices_segG (d : Dev) (x : Vector SliceEng 64) : (d.setSlices x).segG = d.segG := rfl
@[simp] theorem Dev.setSlices_slcD (d : Dev) (x : Vector SliceEng 64) : (d.setSlices x).slcD = d.slcD := rfl
@[simp] theorem Dev.setSlices_slcG (d : Dev) (x : Vector SliceEng 64) : (d.setSlices x).slcG = d.slcG := rfl
@[simp] theorem Dev.setSlices_passAt (d : Dev) (x : Vector SliceEng 64) : (d.setSlices x).passAt = d.passAt := rfl
@[simp] theorem Dev.setSlices_govRun (d : Dev) (x : Vector SliceEng 64) : (d.setSlices x).govRun = d.govRun := rfl
@[simp] theorem Dev.setSlices_railNow (d : Dev) (x : Vector SliceEng 64) : (d.setSlices x).railNow = d.railNow := rfl
@[simp] theorem Dev.setSlices_hot (d : Dev) (x : Vector SliceEng 64) : (d.setSlices x).hot = d.hot := rfl
@[simp] theorem Dev.setSlices_relock (d : Dev) (x : Vector SliceEng 64) : (d.setSlices x).relock = d.relock := rfl
@[simp] theorem Dev.setSlices_sliceCmd (d : Dev) (x : Vector SliceEng 64) : (d.setSlices x).sliceCmd = d.sliceCmd := rfl
@[simp] theorem Dev.setSlices_rcWait (d : Dev) (x : Vector SliceEng 64) : (d.setSlices x).rcWait = d.rcWait := rfl
@[simp] theorem Dev.setSlices_sw (d : Dev) (x : Vector SliceEng 64) : (d.setSlices x).sw = d.sw := rfl
@[simp] theorem Dev.setSlices_jasia (d : Dev) (x : Vector SliceEng 64) : (d.setSlices x).jasia = d.jasia := rfl
@[simp] theorem Dev.setSlices_ptp (d : Dev) (x : Vector SliceEng 64) : (d.setSlices x).ptp = d.ptp := rfl
@[simp] theorem Dev.setSlices_can (d : Dev) (x : Vector SliceEng 64) : (d.setSlices x).can = d.can := rfl
@[simp] theorem Dev.setSlices_cores (d : Dev) (x : Vector SliceEng 64) : (d.setSlices x).cores = d.cores := rfl
@[simp] theorem Dev.setSlices_l2 (d : Dev) (x : Vector SliceEng 64) : (d.setSlices x).l2 = d.l2 := rfl
@[simp] theorem Dev.setSlices_l1 (d : Dev) (x : Vector SliceEng 64) : (d.setSlices x).l1 = d.l1 := rfl
@[simp] theorem Dev.setSlices_perfAt (d : Dev) (x : Vector SliceEng 64) : (d.setSlices x).perfAt = d.perfAt := rfl
@[simp] theorem Dev.setSlices_qN (d : Dev) (x : Vector SliceEng 64) : (d.setSlices x).qN = d.qN := rfl
@[simp] theorem Dev.setSlices_qS (d : Dev) (x : Vector SliceEng 64) : (d.setSlices x).qS = d.qS := rfl
@[simp] theorem Dev.setSlices_pairs (d : Dev) (x : Vector SliceEng 64) : (d.setSlices x).pairs = d.pairs := rfl
@[simp] theorem Dev.setSlices_mord (d : Dev) (x : Vector SliceEng 64) : (d.setSlices x).mord = d.mord := rfl
@[simp] theorem Dev.setSlices_dram (d : Dev) (x : Vector SliceEng 64) : (d.setSlices x).dram = d.dram := rfl
@[simp] theorem Dev.setSlices_aux (d : Dev) (x : Vector SliceEng 64) : (d.setSlices x).aux = d.aux := rfl
@[simp] theorem Dev.setSlices_auxSum (d : Dev) (x : Vector SliceEng 64) : (d.setSlices x).auxSum = d.auxSum := rfl
@[simp] theorem Dev.setSlices_mad (d : Dev) (x : Vector SliceEng 64) : (d.setSlices x).mad = d.mad := rfl
@[simp] theorem Dev.setSlices_link (d : Dev) (x : Vector SliceEng 64) : (d.setSlices x).link = d.link := rfl
@[simp] theorem Dev.setSlices_sup (d : Dev) (x : Vector SliceEng 64) : (d.setSlices x).sup = d.sup := rfl
@[simp] theorem Dev.setSlices_dbg (d : Dev) (x : Vector SliceEng 64) : (d.setSlices x).dbg = d.dbg := rfl
@[simp] theorem Dev.setSlices_fuse (d : Dev) (x : Vector SliceEng 64) : (d.setSlices x).fuse = d.fuse := rfl
@[simp] theorem Dev.setSlices_f (d : Dev) (x : Vector SliceEng 64) (r : RF) : (d.setSlices x).f r = d.f r := rfl

/-! ### setSegD -/

@[simp] theorem Dev.setSegD_regs (d : Dev) (x : Vector Nat 8) : (d.setSegD x).regs = d.regs := rfl
@[simp] theorem Dev.setSegD_now (d : Dev) (x : Vector Nat 8) : (d.setSegD x).now = d.now := rfl
@[simp] theorem Dev.setSegD_up (d : Dev) (x : Vector Nat 8) : (d.setSegD x).up = d.up := rfl
@[simp] theorem Dev.setSegD_upAcc (d : Dev) (x : Vector Nat 8) : (d.setSegD x).upAcc = d.upAcc := rfl
@[simp] theorem Dev.setSegD_slewAcc (d : Dev) (x : Vector Nat 8) : (d.setSegD x).slewAcc = d.slewAcc := rfl
@[simp] theorem Dev.setSegD_freshAt (d : Dev) (x : Vector Nat 8) : (d.setSegD x).freshAt = d.freshAt := rfl
@[simp] theorem Dev.setSegD_fresh (d : Dev) (x : Vector Nat 8) : (d.setSegD x).fresh = d.fresh := rfl
@[simp] theorem Dev.setSegD_resp (d : Dev) (x : Vector Nat 8) : (d.setSegD x).resp = d.resp := rfl
@[simp] theorem Dev.setSegD_heldLow (d : Dev) (x : Vector Nat 8) : (d.setSegD x).heldLow = d.heldLow := rfl
@[simp] theorem Dev.setSegD_capHigh (d : Dev) (x : Vector Nat 8) : (d.setSegD x).capHigh = d.capHigh := rfl
@[simp] theorem Dev.setSegD_evlog (d : Dev) (x : Vector Nat 8) : (d.setSegD x).evlog = d.evlog := rfl
@[simp] theorem Dev.setSegD_out (d : Dev) (x : Vector Nat 8) : (d.setSegD x).out = d.out := rfl
@[simp] theorem Dev.setSegD_wq (d : Dev) (x : Vector Nat 8) : (d.setSegD x).wq = d.wq := rfl
@[simp] theorem Dev.setSegD_lost (d : Dev) (x : Vector Nat 8) : (d.setSegD x).lost = d.lost := rfl
@[simp] theorem Dev.setSegD_vatEpoch (d : Dev) (x : Vector Nat 8) : (d.setSegD x).vatEpoch = d.vatEpoch := rfl
@[simp] theorem Dev.setSegD_dramEpoch (d : Dev) (x : Vector Nat 8) : (d.setSegD x).dramEpoch = d.dramEpoch := rfl
@[simp] theorem Dev.setSegD_freeN (d : Dev) (x : Vector Nat 8) : (d.setSegD x).freeN = d.freeN := rfl
@[simp] theorem Dev.setSegD_stepN (d : Dev) (x : Vector Nat 8) : (d.setSegD x).stepN = d.stepN := rfl
@[simp] theorem Dev.setSegD_vats (d : Dev) (x : Vector Nat 8) : (d.setSegD x).vats = d.vats := rfl
@[simp] theorem Dev.setSegD_slices (d : Dev) (x : Vector Nat 8) : (d.setSegD x).slices = d.slices := rfl
@[simp] theorem Dev.setSegD_segG (d : Dev) (x : Vector Nat 8) : (d.setSegD x).segG = d.segG := rfl
@[simp] theorem Dev.setSegD_slcD (d : Dev) (x : Vector Nat 8) : (d.setSegD x).slcD = d.slcD := rfl
@[simp] theorem Dev.setSegD_slcG (d : Dev) (x : Vector Nat 8) : (d.setSegD x).slcG = d.slcG := rfl
@[simp] theorem Dev.setSegD_passAt (d : Dev) (x : Vector Nat 8) : (d.setSegD x).passAt = d.passAt := rfl
@[simp] theorem Dev.setSegD_govRun (d : Dev) (x : Vector Nat 8) : (d.setSegD x).govRun = d.govRun := rfl
@[simp] theorem Dev.setSegD_railNow (d : Dev) (x : Vector Nat 8) : (d.setSegD x).railNow = d.railNow := rfl
@[simp] theorem Dev.setSegD_hot (d : Dev) (x : Vector Nat 8) : (d.setSegD x).hot = d.hot := rfl
@[simp] theorem Dev.setSegD_relock (d : Dev) (x : Vector Nat 8) : (d.setSegD x).relock = d.relock := rfl
@[simp] theorem Dev.setSegD_sliceCmd (d : Dev) (x : Vector Nat 8) : (d.setSegD x).sliceCmd = d.sliceCmd := rfl
@[simp] theorem Dev.setSegD_rcWait (d : Dev) (x : Vector Nat 8) : (d.setSegD x).rcWait = d.rcWait := rfl
@[simp] theorem Dev.setSegD_sw (d : Dev) (x : Vector Nat 8) : (d.setSegD x).sw = d.sw := rfl
@[simp] theorem Dev.setSegD_jasia (d : Dev) (x : Vector Nat 8) : (d.setSegD x).jasia = d.jasia := rfl
@[simp] theorem Dev.setSegD_ptp (d : Dev) (x : Vector Nat 8) : (d.setSegD x).ptp = d.ptp := rfl
@[simp] theorem Dev.setSegD_can (d : Dev) (x : Vector Nat 8) : (d.setSegD x).can = d.can := rfl
@[simp] theorem Dev.setSegD_cores (d : Dev) (x : Vector Nat 8) : (d.setSegD x).cores = d.cores := rfl
@[simp] theorem Dev.setSegD_l2 (d : Dev) (x : Vector Nat 8) : (d.setSegD x).l2 = d.l2 := rfl
@[simp] theorem Dev.setSegD_l1 (d : Dev) (x : Vector Nat 8) : (d.setSegD x).l1 = d.l1 := rfl
@[simp] theorem Dev.setSegD_perfAt (d : Dev) (x : Vector Nat 8) : (d.setSegD x).perfAt = d.perfAt := rfl
@[simp] theorem Dev.setSegD_qN (d : Dev) (x : Vector Nat 8) : (d.setSegD x).qN = d.qN := rfl
@[simp] theorem Dev.setSegD_qS (d : Dev) (x : Vector Nat 8) : (d.setSegD x).qS = d.qS := rfl
@[simp] theorem Dev.setSegD_pairs (d : Dev) (x : Vector Nat 8) : (d.setSegD x).pairs = d.pairs := rfl
@[simp] theorem Dev.setSegD_mord (d : Dev) (x : Vector Nat 8) : (d.setSegD x).mord = d.mord := rfl
@[simp] theorem Dev.setSegD_dram (d : Dev) (x : Vector Nat 8) : (d.setSegD x).dram = d.dram := rfl
@[simp] theorem Dev.setSegD_aux (d : Dev) (x : Vector Nat 8) : (d.setSegD x).aux = d.aux := rfl
@[simp] theorem Dev.setSegD_auxSum (d : Dev) (x : Vector Nat 8) : (d.setSegD x).auxSum = d.auxSum := rfl
@[simp] theorem Dev.setSegD_mad (d : Dev) (x : Vector Nat 8) : (d.setSegD x).mad = d.mad := rfl
@[simp] theorem Dev.setSegD_link (d : Dev) (x : Vector Nat 8) : (d.setSegD x).link = d.link := rfl
@[simp] theorem Dev.setSegD_sup (d : Dev) (x : Vector Nat 8) : (d.setSegD x).sup = d.sup := rfl
@[simp] theorem Dev.setSegD_dbg (d : Dev) (x : Vector Nat 8) : (d.setSegD x).dbg = d.dbg := rfl
@[simp] theorem Dev.setSegD_fuse (d : Dev) (x : Vector Nat 8) : (d.setSegD x).fuse = d.fuse := rfl
@[simp] theorem Dev.setSegD_f (d : Dev) (x : Vector Nat 8) (r : RF) : (d.setSegD x).f r = d.f r := rfl

/-! ### setSegG -/

@[simp] theorem Dev.setSegG_regs (d : Dev) (x : Vector Nat 8) : (d.setSegG x).regs = d.regs := rfl
@[simp] theorem Dev.setSegG_now (d : Dev) (x : Vector Nat 8) : (d.setSegG x).now = d.now := rfl
@[simp] theorem Dev.setSegG_up (d : Dev) (x : Vector Nat 8) : (d.setSegG x).up = d.up := rfl
@[simp] theorem Dev.setSegG_upAcc (d : Dev) (x : Vector Nat 8) : (d.setSegG x).upAcc = d.upAcc := rfl
@[simp] theorem Dev.setSegG_slewAcc (d : Dev) (x : Vector Nat 8) : (d.setSegG x).slewAcc = d.slewAcc := rfl
@[simp] theorem Dev.setSegG_freshAt (d : Dev) (x : Vector Nat 8) : (d.setSegG x).freshAt = d.freshAt := rfl
@[simp] theorem Dev.setSegG_fresh (d : Dev) (x : Vector Nat 8) : (d.setSegG x).fresh = d.fresh := rfl
@[simp] theorem Dev.setSegG_resp (d : Dev) (x : Vector Nat 8) : (d.setSegG x).resp = d.resp := rfl
@[simp] theorem Dev.setSegG_heldLow (d : Dev) (x : Vector Nat 8) : (d.setSegG x).heldLow = d.heldLow := rfl
@[simp] theorem Dev.setSegG_capHigh (d : Dev) (x : Vector Nat 8) : (d.setSegG x).capHigh = d.capHigh := rfl
@[simp] theorem Dev.setSegG_evlog (d : Dev) (x : Vector Nat 8) : (d.setSegG x).evlog = d.evlog := rfl
@[simp] theorem Dev.setSegG_out (d : Dev) (x : Vector Nat 8) : (d.setSegG x).out = d.out := rfl
@[simp] theorem Dev.setSegG_wq (d : Dev) (x : Vector Nat 8) : (d.setSegG x).wq = d.wq := rfl
@[simp] theorem Dev.setSegG_lost (d : Dev) (x : Vector Nat 8) : (d.setSegG x).lost = d.lost := rfl
@[simp] theorem Dev.setSegG_vatEpoch (d : Dev) (x : Vector Nat 8) : (d.setSegG x).vatEpoch = d.vatEpoch := rfl
@[simp] theorem Dev.setSegG_dramEpoch (d : Dev) (x : Vector Nat 8) : (d.setSegG x).dramEpoch = d.dramEpoch := rfl
@[simp] theorem Dev.setSegG_freeN (d : Dev) (x : Vector Nat 8) : (d.setSegG x).freeN = d.freeN := rfl
@[simp] theorem Dev.setSegG_stepN (d : Dev) (x : Vector Nat 8) : (d.setSegG x).stepN = d.stepN := rfl
@[simp] theorem Dev.setSegG_vats (d : Dev) (x : Vector Nat 8) : (d.setSegG x).vats = d.vats := rfl
@[simp] theorem Dev.setSegG_slices (d : Dev) (x : Vector Nat 8) : (d.setSegG x).slices = d.slices := rfl
@[simp] theorem Dev.setSegG_segD (d : Dev) (x : Vector Nat 8) : (d.setSegG x).segD = d.segD := rfl
@[simp] theorem Dev.setSegG_slcD (d : Dev) (x : Vector Nat 8) : (d.setSegG x).slcD = d.slcD := rfl
@[simp] theorem Dev.setSegG_slcG (d : Dev) (x : Vector Nat 8) : (d.setSegG x).slcG = d.slcG := rfl
@[simp] theorem Dev.setSegG_passAt (d : Dev) (x : Vector Nat 8) : (d.setSegG x).passAt = d.passAt := rfl
@[simp] theorem Dev.setSegG_govRun (d : Dev) (x : Vector Nat 8) : (d.setSegG x).govRun = d.govRun := rfl
@[simp] theorem Dev.setSegG_railNow (d : Dev) (x : Vector Nat 8) : (d.setSegG x).railNow = d.railNow := rfl
@[simp] theorem Dev.setSegG_hot (d : Dev) (x : Vector Nat 8) : (d.setSegG x).hot = d.hot := rfl
@[simp] theorem Dev.setSegG_relock (d : Dev) (x : Vector Nat 8) : (d.setSegG x).relock = d.relock := rfl
@[simp] theorem Dev.setSegG_sliceCmd (d : Dev) (x : Vector Nat 8) : (d.setSegG x).sliceCmd = d.sliceCmd := rfl
@[simp] theorem Dev.setSegG_rcWait (d : Dev) (x : Vector Nat 8) : (d.setSegG x).rcWait = d.rcWait := rfl
@[simp] theorem Dev.setSegG_sw (d : Dev) (x : Vector Nat 8) : (d.setSegG x).sw = d.sw := rfl
@[simp] theorem Dev.setSegG_jasia (d : Dev) (x : Vector Nat 8) : (d.setSegG x).jasia = d.jasia := rfl
@[simp] theorem Dev.setSegG_ptp (d : Dev) (x : Vector Nat 8) : (d.setSegG x).ptp = d.ptp := rfl
@[simp] theorem Dev.setSegG_can (d : Dev) (x : Vector Nat 8) : (d.setSegG x).can = d.can := rfl
@[simp] theorem Dev.setSegG_cores (d : Dev) (x : Vector Nat 8) : (d.setSegG x).cores = d.cores := rfl
@[simp] theorem Dev.setSegG_l2 (d : Dev) (x : Vector Nat 8) : (d.setSegG x).l2 = d.l2 := rfl
@[simp] theorem Dev.setSegG_l1 (d : Dev) (x : Vector Nat 8) : (d.setSegG x).l1 = d.l1 := rfl
@[simp] theorem Dev.setSegG_perfAt (d : Dev) (x : Vector Nat 8) : (d.setSegG x).perfAt = d.perfAt := rfl
@[simp] theorem Dev.setSegG_qN (d : Dev) (x : Vector Nat 8) : (d.setSegG x).qN = d.qN := rfl
@[simp] theorem Dev.setSegG_qS (d : Dev) (x : Vector Nat 8) : (d.setSegG x).qS = d.qS := rfl
@[simp] theorem Dev.setSegG_pairs (d : Dev) (x : Vector Nat 8) : (d.setSegG x).pairs = d.pairs := rfl
@[simp] theorem Dev.setSegG_mord (d : Dev) (x : Vector Nat 8) : (d.setSegG x).mord = d.mord := rfl
@[simp] theorem Dev.setSegG_dram (d : Dev) (x : Vector Nat 8) : (d.setSegG x).dram = d.dram := rfl
@[simp] theorem Dev.setSegG_aux (d : Dev) (x : Vector Nat 8) : (d.setSegG x).aux = d.aux := rfl
@[simp] theorem Dev.setSegG_auxSum (d : Dev) (x : Vector Nat 8) : (d.setSegG x).auxSum = d.auxSum := rfl
@[simp] theorem Dev.setSegG_mad (d : Dev) (x : Vector Nat 8) : (d.setSegG x).mad = d.mad := rfl
@[simp] theorem Dev.setSegG_link (d : Dev) (x : Vector Nat 8) : (d.setSegG x).link = d.link := rfl
@[simp] theorem Dev.setSegG_sup (d : Dev) (x : Vector Nat 8) : (d.setSegG x).sup = d.sup := rfl
@[simp] theorem Dev.setSegG_dbg (d : Dev) (x : Vector Nat 8) : (d.setSegG x).dbg = d.dbg := rfl
@[simp] theorem Dev.setSegG_fuse (d : Dev) (x : Vector Nat 8) : (d.setSegG x).fuse = d.fuse := rfl
@[simp] theorem Dev.setSegG_f (d : Dev) (x : Vector Nat 8) (r : RF) : (d.setSegG x).f r = d.f r := rfl

/-! ### setSlcD -/

@[simp] theorem Dev.setSlcD_regs (d : Dev) (x : Vector Nat 64) : (d.setSlcD x).regs = d.regs := rfl
@[simp] theorem Dev.setSlcD_now (d : Dev) (x : Vector Nat 64) : (d.setSlcD x).now = d.now := rfl
@[simp] theorem Dev.setSlcD_up (d : Dev) (x : Vector Nat 64) : (d.setSlcD x).up = d.up := rfl
@[simp] theorem Dev.setSlcD_upAcc (d : Dev) (x : Vector Nat 64) : (d.setSlcD x).upAcc = d.upAcc := rfl
@[simp] theorem Dev.setSlcD_slewAcc (d : Dev) (x : Vector Nat 64) : (d.setSlcD x).slewAcc = d.slewAcc := rfl
@[simp] theorem Dev.setSlcD_freshAt (d : Dev) (x : Vector Nat 64) : (d.setSlcD x).freshAt = d.freshAt := rfl
@[simp] theorem Dev.setSlcD_fresh (d : Dev) (x : Vector Nat 64) : (d.setSlcD x).fresh = d.fresh := rfl
@[simp] theorem Dev.setSlcD_resp (d : Dev) (x : Vector Nat 64) : (d.setSlcD x).resp = d.resp := rfl
@[simp] theorem Dev.setSlcD_heldLow (d : Dev) (x : Vector Nat 64) : (d.setSlcD x).heldLow = d.heldLow := rfl
@[simp] theorem Dev.setSlcD_capHigh (d : Dev) (x : Vector Nat 64) : (d.setSlcD x).capHigh = d.capHigh := rfl
@[simp] theorem Dev.setSlcD_evlog (d : Dev) (x : Vector Nat 64) : (d.setSlcD x).evlog = d.evlog := rfl
@[simp] theorem Dev.setSlcD_out (d : Dev) (x : Vector Nat 64) : (d.setSlcD x).out = d.out := rfl
@[simp] theorem Dev.setSlcD_wq (d : Dev) (x : Vector Nat 64) : (d.setSlcD x).wq = d.wq := rfl
@[simp] theorem Dev.setSlcD_lost (d : Dev) (x : Vector Nat 64) : (d.setSlcD x).lost = d.lost := rfl
@[simp] theorem Dev.setSlcD_vatEpoch (d : Dev) (x : Vector Nat 64) : (d.setSlcD x).vatEpoch = d.vatEpoch := rfl
@[simp] theorem Dev.setSlcD_dramEpoch (d : Dev) (x : Vector Nat 64) : (d.setSlcD x).dramEpoch = d.dramEpoch := rfl
@[simp] theorem Dev.setSlcD_freeN (d : Dev) (x : Vector Nat 64) : (d.setSlcD x).freeN = d.freeN := rfl
@[simp] theorem Dev.setSlcD_stepN (d : Dev) (x : Vector Nat 64) : (d.setSlcD x).stepN = d.stepN := rfl
@[simp] theorem Dev.setSlcD_vats (d : Dev) (x : Vector Nat 64) : (d.setSlcD x).vats = d.vats := rfl
@[simp] theorem Dev.setSlcD_slices (d : Dev) (x : Vector Nat 64) : (d.setSlcD x).slices = d.slices := rfl
@[simp] theorem Dev.setSlcD_segD (d : Dev) (x : Vector Nat 64) : (d.setSlcD x).segD = d.segD := rfl
@[simp] theorem Dev.setSlcD_segG (d : Dev) (x : Vector Nat 64) : (d.setSlcD x).segG = d.segG := rfl
@[simp] theorem Dev.setSlcD_slcG (d : Dev) (x : Vector Nat 64) : (d.setSlcD x).slcG = d.slcG := rfl
@[simp] theorem Dev.setSlcD_passAt (d : Dev) (x : Vector Nat 64) : (d.setSlcD x).passAt = d.passAt := rfl
@[simp] theorem Dev.setSlcD_govRun (d : Dev) (x : Vector Nat 64) : (d.setSlcD x).govRun = d.govRun := rfl
@[simp] theorem Dev.setSlcD_railNow (d : Dev) (x : Vector Nat 64) : (d.setSlcD x).railNow = d.railNow := rfl
@[simp] theorem Dev.setSlcD_hot (d : Dev) (x : Vector Nat 64) : (d.setSlcD x).hot = d.hot := rfl
@[simp] theorem Dev.setSlcD_relock (d : Dev) (x : Vector Nat 64) : (d.setSlcD x).relock = d.relock := rfl
@[simp] theorem Dev.setSlcD_sliceCmd (d : Dev) (x : Vector Nat 64) : (d.setSlcD x).sliceCmd = d.sliceCmd := rfl
@[simp] theorem Dev.setSlcD_rcWait (d : Dev) (x : Vector Nat 64) : (d.setSlcD x).rcWait = d.rcWait := rfl
@[simp] theorem Dev.setSlcD_sw (d : Dev) (x : Vector Nat 64) : (d.setSlcD x).sw = d.sw := rfl
@[simp] theorem Dev.setSlcD_jasia (d : Dev) (x : Vector Nat 64) : (d.setSlcD x).jasia = d.jasia := rfl
@[simp] theorem Dev.setSlcD_ptp (d : Dev) (x : Vector Nat 64) : (d.setSlcD x).ptp = d.ptp := rfl
@[simp] theorem Dev.setSlcD_can (d : Dev) (x : Vector Nat 64) : (d.setSlcD x).can = d.can := rfl
@[simp] theorem Dev.setSlcD_cores (d : Dev) (x : Vector Nat 64) : (d.setSlcD x).cores = d.cores := rfl
@[simp] theorem Dev.setSlcD_l2 (d : Dev) (x : Vector Nat 64) : (d.setSlcD x).l2 = d.l2 := rfl
@[simp] theorem Dev.setSlcD_l1 (d : Dev) (x : Vector Nat 64) : (d.setSlcD x).l1 = d.l1 := rfl
@[simp] theorem Dev.setSlcD_perfAt (d : Dev) (x : Vector Nat 64) : (d.setSlcD x).perfAt = d.perfAt := rfl
@[simp] theorem Dev.setSlcD_qN (d : Dev) (x : Vector Nat 64) : (d.setSlcD x).qN = d.qN := rfl
@[simp] theorem Dev.setSlcD_qS (d : Dev) (x : Vector Nat 64) : (d.setSlcD x).qS = d.qS := rfl
@[simp] theorem Dev.setSlcD_pairs (d : Dev) (x : Vector Nat 64) : (d.setSlcD x).pairs = d.pairs := rfl
@[simp] theorem Dev.setSlcD_mord (d : Dev) (x : Vector Nat 64) : (d.setSlcD x).mord = d.mord := rfl
@[simp] theorem Dev.setSlcD_dram (d : Dev) (x : Vector Nat 64) : (d.setSlcD x).dram = d.dram := rfl
@[simp] theorem Dev.setSlcD_aux (d : Dev) (x : Vector Nat 64) : (d.setSlcD x).aux = d.aux := rfl
@[simp] theorem Dev.setSlcD_auxSum (d : Dev) (x : Vector Nat 64) : (d.setSlcD x).auxSum = d.auxSum := rfl
@[simp] theorem Dev.setSlcD_mad (d : Dev) (x : Vector Nat 64) : (d.setSlcD x).mad = d.mad := rfl
@[simp] theorem Dev.setSlcD_link (d : Dev) (x : Vector Nat 64) : (d.setSlcD x).link = d.link := rfl
@[simp] theorem Dev.setSlcD_sup (d : Dev) (x : Vector Nat 64) : (d.setSlcD x).sup = d.sup := rfl
@[simp] theorem Dev.setSlcD_dbg (d : Dev) (x : Vector Nat 64) : (d.setSlcD x).dbg = d.dbg := rfl
@[simp] theorem Dev.setSlcD_fuse (d : Dev) (x : Vector Nat 64) : (d.setSlcD x).fuse = d.fuse := rfl
@[simp] theorem Dev.setSlcD_f (d : Dev) (x : Vector Nat 64) (r : RF) : (d.setSlcD x).f r = d.f r := rfl

/-! ### setSlcG -/

@[simp] theorem Dev.setSlcG_regs (d : Dev) (x : Vector Nat 64) : (d.setSlcG x).regs = d.regs := rfl
@[simp] theorem Dev.setSlcG_now (d : Dev) (x : Vector Nat 64) : (d.setSlcG x).now = d.now := rfl
@[simp] theorem Dev.setSlcG_up (d : Dev) (x : Vector Nat 64) : (d.setSlcG x).up = d.up := rfl
@[simp] theorem Dev.setSlcG_upAcc (d : Dev) (x : Vector Nat 64) : (d.setSlcG x).upAcc = d.upAcc := rfl
@[simp] theorem Dev.setSlcG_slewAcc (d : Dev) (x : Vector Nat 64) : (d.setSlcG x).slewAcc = d.slewAcc := rfl
@[simp] theorem Dev.setSlcG_freshAt (d : Dev) (x : Vector Nat 64) : (d.setSlcG x).freshAt = d.freshAt := rfl
@[simp] theorem Dev.setSlcG_fresh (d : Dev) (x : Vector Nat 64) : (d.setSlcG x).fresh = d.fresh := rfl
@[simp] theorem Dev.setSlcG_resp (d : Dev) (x : Vector Nat 64) : (d.setSlcG x).resp = d.resp := rfl
@[simp] theorem Dev.setSlcG_heldLow (d : Dev) (x : Vector Nat 64) : (d.setSlcG x).heldLow = d.heldLow := rfl
@[simp] theorem Dev.setSlcG_capHigh (d : Dev) (x : Vector Nat 64) : (d.setSlcG x).capHigh = d.capHigh := rfl
@[simp] theorem Dev.setSlcG_evlog (d : Dev) (x : Vector Nat 64) : (d.setSlcG x).evlog = d.evlog := rfl
@[simp] theorem Dev.setSlcG_out (d : Dev) (x : Vector Nat 64) : (d.setSlcG x).out = d.out := rfl
@[simp] theorem Dev.setSlcG_wq (d : Dev) (x : Vector Nat 64) : (d.setSlcG x).wq = d.wq := rfl
@[simp] theorem Dev.setSlcG_lost (d : Dev) (x : Vector Nat 64) : (d.setSlcG x).lost = d.lost := rfl
@[simp] theorem Dev.setSlcG_vatEpoch (d : Dev) (x : Vector Nat 64) : (d.setSlcG x).vatEpoch = d.vatEpoch := rfl
@[simp] theorem Dev.setSlcG_dramEpoch (d : Dev) (x : Vector Nat 64) : (d.setSlcG x).dramEpoch = d.dramEpoch := rfl
@[simp] theorem Dev.setSlcG_freeN (d : Dev) (x : Vector Nat 64) : (d.setSlcG x).freeN = d.freeN := rfl
@[simp] theorem Dev.setSlcG_stepN (d : Dev) (x : Vector Nat 64) : (d.setSlcG x).stepN = d.stepN := rfl
@[simp] theorem Dev.setSlcG_vats (d : Dev) (x : Vector Nat 64) : (d.setSlcG x).vats = d.vats := rfl
@[simp] theorem Dev.setSlcG_slices (d : Dev) (x : Vector Nat 64) : (d.setSlcG x).slices = d.slices := rfl
@[simp] theorem Dev.setSlcG_segD (d : Dev) (x : Vector Nat 64) : (d.setSlcG x).segD = d.segD := rfl
@[simp] theorem Dev.setSlcG_segG (d : Dev) (x : Vector Nat 64) : (d.setSlcG x).segG = d.segG := rfl
@[simp] theorem Dev.setSlcG_slcD (d : Dev) (x : Vector Nat 64) : (d.setSlcG x).slcD = d.slcD := rfl
@[simp] theorem Dev.setSlcG_passAt (d : Dev) (x : Vector Nat 64) : (d.setSlcG x).passAt = d.passAt := rfl
@[simp] theorem Dev.setSlcG_govRun (d : Dev) (x : Vector Nat 64) : (d.setSlcG x).govRun = d.govRun := rfl
@[simp] theorem Dev.setSlcG_railNow (d : Dev) (x : Vector Nat 64) : (d.setSlcG x).railNow = d.railNow := rfl
@[simp] theorem Dev.setSlcG_hot (d : Dev) (x : Vector Nat 64) : (d.setSlcG x).hot = d.hot := rfl
@[simp] theorem Dev.setSlcG_relock (d : Dev) (x : Vector Nat 64) : (d.setSlcG x).relock = d.relock := rfl
@[simp] theorem Dev.setSlcG_sliceCmd (d : Dev) (x : Vector Nat 64) : (d.setSlcG x).sliceCmd = d.sliceCmd := rfl
@[simp] theorem Dev.setSlcG_rcWait (d : Dev) (x : Vector Nat 64) : (d.setSlcG x).rcWait = d.rcWait := rfl
@[simp] theorem Dev.setSlcG_sw (d : Dev) (x : Vector Nat 64) : (d.setSlcG x).sw = d.sw := rfl
@[simp] theorem Dev.setSlcG_jasia (d : Dev) (x : Vector Nat 64) : (d.setSlcG x).jasia = d.jasia := rfl
@[simp] theorem Dev.setSlcG_ptp (d : Dev) (x : Vector Nat 64) : (d.setSlcG x).ptp = d.ptp := rfl
@[simp] theorem Dev.setSlcG_can (d : Dev) (x : Vector Nat 64) : (d.setSlcG x).can = d.can := rfl
@[simp] theorem Dev.setSlcG_cores (d : Dev) (x : Vector Nat 64) : (d.setSlcG x).cores = d.cores := rfl
@[simp] theorem Dev.setSlcG_l2 (d : Dev) (x : Vector Nat 64) : (d.setSlcG x).l2 = d.l2 := rfl
@[simp] theorem Dev.setSlcG_l1 (d : Dev) (x : Vector Nat 64) : (d.setSlcG x).l1 = d.l1 := rfl
@[simp] theorem Dev.setSlcG_perfAt (d : Dev) (x : Vector Nat 64) : (d.setSlcG x).perfAt = d.perfAt := rfl
@[simp] theorem Dev.setSlcG_qN (d : Dev) (x : Vector Nat 64) : (d.setSlcG x).qN = d.qN := rfl
@[simp] theorem Dev.setSlcG_qS (d : Dev) (x : Vector Nat 64) : (d.setSlcG x).qS = d.qS := rfl
@[simp] theorem Dev.setSlcG_pairs (d : Dev) (x : Vector Nat 64) : (d.setSlcG x).pairs = d.pairs := rfl
@[simp] theorem Dev.setSlcG_mord (d : Dev) (x : Vector Nat 64) : (d.setSlcG x).mord = d.mord := rfl
@[simp] theorem Dev.setSlcG_dram (d : Dev) (x : Vector Nat 64) : (d.setSlcG x).dram = d.dram := rfl
@[simp] theorem Dev.setSlcG_aux (d : Dev) (x : Vector Nat 64) : (d.setSlcG x).aux = d.aux := rfl
@[simp] theorem Dev.setSlcG_auxSum (d : Dev) (x : Vector Nat 64) : (d.setSlcG x).auxSum = d.auxSum := rfl
@[simp] theorem Dev.setSlcG_mad (d : Dev) (x : Vector Nat 64) : (d.setSlcG x).mad = d.mad := rfl
@[simp] theorem Dev.setSlcG_link (d : Dev) (x : Vector Nat 64) : (d.setSlcG x).link = d.link := rfl
@[simp] theorem Dev.setSlcG_sup (d : Dev) (x : Vector Nat 64) : (d.setSlcG x).sup = d.sup := rfl
@[simp] theorem Dev.setSlcG_dbg (d : Dev) (x : Vector Nat 64) : (d.setSlcG x).dbg = d.dbg := rfl
@[simp] theorem Dev.setSlcG_fuse (d : Dev) (x : Vector Nat 64) : (d.setSlcG x).fuse = d.fuse := rfl
@[simp] theorem Dev.setSlcG_f (d : Dev) (x : Vector Nat 64) (r : RF) : (d.setSlcG x).f r = d.f r := rfl

/-! ### setPassAt -/

@[simp] theorem Dev.setPassAt_regs (d : Dev) (x : Option Nat) : (d.setPassAt x).regs = d.regs := rfl
@[simp] theorem Dev.setPassAt_now (d : Dev) (x : Option Nat) : (d.setPassAt x).now = d.now := rfl
@[simp] theorem Dev.setPassAt_up (d : Dev) (x : Option Nat) : (d.setPassAt x).up = d.up := rfl
@[simp] theorem Dev.setPassAt_upAcc (d : Dev) (x : Option Nat) : (d.setPassAt x).upAcc = d.upAcc := rfl
@[simp] theorem Dev.setPassAt_slewAcc (d : Dev) (x : Option Nat) : (d.setPassAt x).slewAcc = d.slewAcc := rfl
@[simp] theorem Dev.setPassAt_freshAt (d : Dev) (x : Option Nat) : (d.setPassAt x).freshAt = d.freshAt := rfl
@[simp] theorem Dev.setPassAt_fresh (d : Dev) (x : Option Nat) : (d.setPassAt x).fresh = d.fresh := rfl
@[simp] theorem Dev.setPassAt_resp (d : Dev) (x : Option Nat) : (d.setPassAt x).resp = d.resp := rfl
@[simp] theorem Dev.setPassAt_heldLow (d : Dev) (x : Option Nat) : (d.setPassAt x).heldLow = d.heldLow := rfl
@[simp] theorem Dev.setPassAt_capHigh (d : Dev) (x : Option Nat) : (d.setPassAt x).capHigh = d.capHigh := rfl
@[simp] theorem Dev.setPassAt_evlog (d : Dev) (x : Option Nat) : (d.setPassAt x).evlog = d.evlog := rfl
@[simp] theorem Dev.setPassAt_out (d : Dev) (x : Option Nat) : (d.setPassAt x).out = d.out := rfl
@[simp] theorem Dev.setPassAt_wq (d : Dev) (x : Option Nat) : (d.setPassAt x).wq = d.wq := rfl
@[simp] theorem Dev.setPassAt_lost (d : Dev) (x : Option Nat) : (d.setPassAt x).lost = d.lost := rfl
@[simp] theorem Dev.setPassAt_vatEpoch (d : Dev) (x : Option Nat) : (d.setPassAt x).vatEpoch = d.vatEpoch := rfl
@[simp] theorem Dev.setPassAt_dramEpoch (d : Dev) (x : Option Nat) : (d.setPassAt x).dramEpoch = d.dramEpoch := rfl
@[simp] theorem Dev.setPassAt_freeN (d : Dev) (x : Option Nat) : (d.setPassAt x).freeN = d.freeN := rfl
@[simp] theorem Dev.setPassAt_stepN (d : Dev) (x : Option Nat) : (d.setPassAt x).stepN = d.stepN := rfl
@[simp] theorem Dev.setPassAt_vats (d : Dev) (x : Option Nat) : (d.setPassAt x).vats = d.vats := rfl
@[simp] theorem Dev.setPassAt_slices (d : Dev) (x : Option Nat) : (d.setPassAt x).slices = d.slices := rfl
@[simp] theorem Dev.setPassAt_segD (d : Dev) (x : Option Nat) : (d.setPassAt x).segD = d.segD := rfl
@[simp] theorem Dev.setPassAt_segG (d : Dev) (x : Option Nat) : (d.setPassAt x).segG = d.segG := rfl
@[simp] theorem Dev.setPassAt_slcD (d : Dev) (x : Option Nat) : (d.setPassAt x).slcD = d.slcD := rfl
@[simp] theorem Dev.setPassAt_slcG (d : Dev) (x : Option Nat) : (d.setPassAt x).slcG = d.slcG := rfl
@[simp] theorem Dev.setPassAt_govRun (d : Dev) (x : Option Nat) : (d.setPassAt x).govRun = d.govRun := rfl
@[simp] theorem Dev.setPassAt_railNow (d : Dev) (x : Option Nat) : (d.setPassAt x).railNow = d.railNow := rfl
@[simp] theorem Dev.setPassAt_hot (d : Dev) (x : Option Nat) : (d.setPassAt x).hot = d.hot := rfl
@[simp] theorem Dev.setPassAt_relock (d : Dev) (x : Option Nat) : (d.setPassAt x).relock = d.relock := rfl
@[simp] theorem Dev.setPassAt_sliceCmd (d : Dev) (x : Option Nat) : (d.setPassAt x).sliceCmd = d.sliceCmd := rfl
@[simp] theorem Dev.setPassAt_rcWait (d : Dev) (x : Option Nat) : (d.setPassAt x).rcWait = d.rcWait := rfl
@[simp] theorem Dev.setPassAt_sw (d : Dev) (x : Option Nat) : (d.setPassAt x).sw = d.sw := rfl
@[simp] theorem Dev.setPassAt_jasia (d : Dev) (x : Option Nat) : (d.setPassAt x).jasia = d.jasia := rfl
@[simp] theorem Dev.setPassAt_ptp (d : Dev) (x : Option Nat) : (d.setPassAt x).ptp = d.ptp := rfl
@[simp] theorem Dev.setPassAt_can (d : Dev) (x : Option Nat) : (d.setPassAt x).can = d.can := rfl
@[simp] theorem Dev.setPassAt_cores (d : Dev) (x : Option Nat) : (d.setPassAt x).cores = d.cores := rfl
@[simp] theorem Dev.setPassAt_l2 (d : Dev) (x : Option Nat) : (d.setPassAt x).l2 = d.l2 := rfl
@[simp] theorem Dev.setPassAt_l1 (d : Dev) (x : Option Nat) : (d.setPassAt x).l1 = d.l1 := rfl
@[simp] theorem Dev.setPassAt_perfAt (d : Dev) (x : Option Nat) : (d.setPassAt x).perfAt = d.perfAt := rfl
@[simp] theorem Dev.setPassAt_qN (d : Dev) (x : Option Nat) : (d.setPassAt x).qN = d.qN := rfl
@[simp] theorem Dev.setPassAt_qS (d : Dev) (x : Option Nat) : (d.setPassAt x).qS = d.qS := rfl
@[simp] theorem Dev.setPassAt_pairs (d : Dev) (x : Option Nat) : (d.setPassAt x).pairs = d.pairs := rfl
@[simp] theorem Dev.setPassAt_mord (d : Dev) (x : Option Nat) : (d.setPassAt x).mord = d.mord := rfl
@[simp] theorem Dev.setPassAt_dram (d : Dev) (x : Option Nat) : (d.setPassAt x).dram = d.dram := rfl
@[simp] theorem Dev.setPassAt_aux (d : Dev) (x : Option Nat) : (d.setPassAt x).aux = d.aux := rfl
@[simp] theorem Dev.setPassAt_auxSum (d : Dev) (x : Option Nat) : (d.setPassAt x).auxSum = d.auxSum := rfl
@[simp] theorem Dev.setPassAt_mad (d : Dev) (x : Option Nat) : (d.setPassAt x).mad = d.mad := rfl
@[simp] theorem Dev.setPassAt_link (d : Dev) (x : Option Nat) : (d.setPassAt x).link = d.link := rfl
@[simp] theorem Dev.setPassAt_sup (d : Dev) (x : Option Nat) : (d.setPassAt x).sup = d.sup := rfl
@[simp] theorem Dev.setPassAt_dbg (d : Dev) (x : Option Nat) : (d.setPassAt x).dbg = d.dbg := rfl
@[simp] theorem Dev.setPassAt_fuse (d : Dev) (x : Option Nat) : (d.setPassAt x).fuse = d.fuse := rfl
@[simp] theorem Dev.setPassAt_f (d : Dev) (x : Option Nat) (r : RF) : (d.setPassAt x).f r = d.f r := rfl

/-! ### setGovRun -/

@[simp] theorem Dev.setGovRun_regs (d : Dev) (x : Nat) : (d.setGovRun x).regs = d.regs := rfl
@[simp] theorem Dev.setGovRun_now (d : Dev) (x : Nat) : (d.setGovRun x).now = d.now := rfl
@[simp] theorem Dev.setGovRun_up (d : Dev) (x : Nat) : (d.setGovRun x).up = d.up := rfl
@[simp] theorem Dev.setGovRun_upAcc (d : Dev) (x : Nat) : (d.setGovRun x).upAcc = d.upAcc := rfl
@[simp] theorem Dev.setGovRun_slewAcc (d : Dev) (x : Nat) : (d.setGovRun x).slewAcc = d.slewAcc := rfl
@[simp] theorem Dev.setGovRun_freshAt (d : Dev) (x : Nat) : (d.setGovRun x).freshAt = d.freshAt := rfl
@[simp] theorem Dev.setGovRun_fresh (d : Dev) (x : Nat) : (d.setGovRun x).fresh = d.fresh := rfl
@[simp] theorem Dev.setGovRun_resp (d : Dev) (x : Nat) : (d.setGovRun x).resp = d.resp := rfl
@[simp] theorem Dev.setGovRun_heldLow (d : Dev) (x : Nat) : (d.setGovRun x).heldLow = d.heldLow := rfl
@[simp] theorem Dev.setGovRun_capHigh (d : Dev) (x : Nat) : (d.setGovRun x).capHigh = d.capHigh := rfl
@[simp] theorem Dev.setGovRun_evlog (d : Dev) (x : Nat) : (d.setGovRun x).evlog = d.evlog := rfl
@[simp] theorem Dev.setGovRun_out (d : Dev) (x : Nat) : (d.setGovRun x).out = d.out := rfl
@[simp] theorem Dev.setGovRun_wq (d : Dev) (x : Nat) : (d.setGovRun x).wq = d.wq := rfl
@[simp] theorem Dev.setGovRun_lost (d : Dev) (x : Nat) : (d.setGovRun x).lost = d.lost := rfl
@[simp] theorem Dev.setGovRun_vatEpoch (d : Dev) (x : Nat) : (d.setGovRun x).vatEpoch = d.vatEpoch := rfl
@[simp] theorem Dev.setGovRun_dramEpoch (d : Dev) (x : Nat) : (d.setGovRun x).dramEpoch = d.dramEpoch := rfl
@[simp] theorem Dev.setGovRun_freeN (d : Dev) (x : Nat) : (d.setGovRun x).freeN = d.freeN := rfl
@[simp] theorem Dev.setGovRun_stepN (d : Dev) (x : Nat) : (d.setGovRun x).stepN = d.stepN := rfl
@[simp] theorem Dev.setGovRun_vats (d : Dev) (x : Nat) : (d.setGovRun x).vats = d.vats := rfl
@[simp] theorem Dev.setGovRun_slices (d : Dev) (x : Nat) : (d.setGovRun x).slices = d.slices := rfl
@[simp] theorem Dev.setGovRun_segD (d : Dev) (x : Nat) : (d.setGovRun x).segD = d.segD := rfl
@[simp] theorem Dev.setGovRun_segG (d : Dev) (x : Nat) : (d.setGovRun x).segG = d.segG := rfl
@[simp] theorem Dev.setGovRun_slcD (d : Dev) (x : Nat) : (d.setGovRun x).slcD = d.slcD := rfl
@[simp] theorem Dev.setGovRun_slcG (d : Dev) (x : Nat) : (d.setGovRun x).slcG = d.slcG := rfl
@[simp] theorem Dev.setGovRun_passAt (d : Dev) (x : Nat) : (d.setGovRun x).passAt = d.passAt := rfl
@[simp] theorem Dev.setGovRun_railNow (d : Dev) (x : Nat) : (d.setGovRun x).railNow = d.railNow := rfl
@[simp] theorem Dev.setGovRun_hot (d : Dev) (x : Nat) : (d.setGovRun x).hot = d.hot := rfl
@[simp] theorem Dev.setGovRun_relock (d : Dev) (x : Nat) : (d.setGovRun x).relock = d.relock := rfl
@[simp] theorem Dev.setGovRun_sliceCmd (d : Dev) (x : Nat) : (d.setGovRun x).sliceCmd = d.sliceCmd := rfl
@[simp] theorem Dev.setGovRun_rcWait (d : Dev) (x : Nat) : (d.setGovRun x).rcWait = d.rcWait := rfl
@[simp] theorem Dev.setGovRun_sw (d : Dev) (x : Nat) : (d.setGovRun x).sw = d.sw := rfl
@[simp] theorem Dev.setGovRun_jasia (d : Dev) (x : Nat) : (d.setGovRun x).jasia = d.jasia := rfl
@[simp] theorem Dev.setGovRun_ptp (d : Dev) (x : Nat) : (d.setGovRun x).ptp = d.ptp := rfl
@[simp] theorem Dev.setGovRun_can (d : Dev) (x : Nat) : (d.setGovRun x).can = d.can := rfl
@[simp] theorem Dev.setGovRun_cores (d : Dev) (x : Nat) : (d.setGovRun x).cores = d.cores := rfl
@[simp] theorem Dev.setGovRun_l2 (d : Dev) (x : Nat) : (d.setGovRun x).l2 = d.l2 := rfl
@[simp] theorem Dev.setGovRun_l1 (d : Dev) (x : Nat) : (d.setGovRun x).l1 = d.l1 := rfl
@[simp] theorem Dev.setGovRun_perfAt (d : Dev) (x : Nat) : (d.setGovRun x).perfAt = d.perfAt := rfl
@[simp] theorem Dev.setGovRun_qN (d : Dev) (x : Nat) : (d.setGovRun x).qN = d.qN := rfl
@[simp] theorem Dev.setGovRun_qS (d : Dev) (x : Nat) : (d.setGovRun x).qS = d.qS := rfl
@[simp] theorem Dev.setGovRun_pairs (d : Dev) (x : Nat) : (d.setGovRun x).pairs = d.pairs := rfl
@[simp] theorem Dev.setGovRun_mord (d : Dev) (x : Nat) : (d.setGovRun x).mord = d.mord := rfl
@[simp] theorem Dev.setGovRun_dram (d : Dev) (x : Nat) : (d.setGovRun x).dram = d.dram := rfl
@[simp] theorem Dev.setGovRun_aux (d : Dev) (x : Nat) : (d.setGovRun x).aux = d.aux := rfl
@[simp] theorem Dev.setGovRun_auxSum (d : Dev) (x : Nat) : (d.setGovRun x).auxSum = d.auxSum := rfl
@[simp] theorem Dev.setGovRun_mad (d : Dev) (x : Nat) : (d.setGovRun x).mad = d.mad := rfl
@[simp] theorem Dev.setGovRun_link (d : Dev) (x : Nat) : (d.setGovRun x).link = d.link := rfl
@[simp] theorem Dev.setGovRun_sup (d : Dev) (x : Nat) : (d.setGovRun x).sup = d.sup := rfl
@[simp] theorem Dev.setGovRun_dbg (d : Dev) (x : Nat) : (d.setGovRun x).dbg = d.dbg := rfl
@[simp] theorem Dev.setGovRun_fuse (d : Dev) (x : Nat) : (d.setGovRun x).fuse = d.fuse := rfl
@[simp] theorem Dev.setGovRun_f (d : Dev) (x : Nat) (r : RF) : (d.setGovRun x).f r = d.f r := rfl

/-! ### setRailNow -/

@[simp] theorem Dev.setRailNow_regs (d : Dev) (x : Nat) : (d.setRailNow x).regs = d.regs := rfl
@[simp] theorem Dev.setRailNow_now (d : Dev) (x : Nat) : (d.setRailNow x).now = d.now := rfl
@[simp] theorem Dev.setRailNow_up (d : Dev) (x : Nat) : (d.setRailNow x).up = d.up := rfl
@[simp] theorem Dev.setRailNow_upAcc (d : Dev) (x : Nat) : (d.setRailNow x).upAcc = d.upAcc := rfl
@[simp] theorem Dev.setRailNow_slewAcc (d : Dev) (x : Nat) : (d.setRailNow x).slewAcc = d.slewAcc := rfl
@[simp] theorem Dev.setRailNow_freshAt (d : Dev) (x : Nat) : (d.setRailNow x).freshAt = d.freshAt := rfl
@[simp] theorem Dev.setRailNow_fresh (d : Dev) (x : Nat) : (d.setRailNow x).fresh = d.fresh := rfl
@[simp] theorem Dev.setRailNow_resp (d : Dev) (x : Nat) : (d.setRailNow x).resp = d.resp := rfl
@[simp] theorem Dev.setRailNow_heldLow (d : Dev) (x : Nat) : (d.setRailNow x).heldLow = d.heldLow := rfl
@[simp] theorem Dev.setRailNow_capHigh (d : Dev) (x : Nat) : (d.setRailNow x).capHigh = d.capHigh := rfl
@[simp] theorem Dev.setRailNow_evlog (d : Dev) (x : Nat) : (d.setRailNow x).evlog = d.evlog := rfl
@[simp] theorem Dev.setRailNow_out (d : Dev) (x : Nat) : (d.setRailNow x).out = d.out := rfl
@[simp] theorem Dev.setRailNow_wq (d : Dev) (x : Nat) : (d.setRailNow x).wq = d.wq := rfl
@[simp] theorem Dev.setRailNow_lost (d : Dev) (x : Nat) : (d.setRailNow x).lost = d.lost := rfl
@[simp] theorem Dev.setRailNow_vatEpoch (d : Dev) (x : Nat) : (d.setRailNow x).vatEpoch = d.vatEpoch := rfl
@[simp] theorem Dev.setRailNow_dramEpoch (d : Dev) (x : Nat) : (d.setRailNow x).dramEpoch = d.dramEpoch := rfl
@[simp] theorem Dev.setRailNow_freeN (d : Dev) (x : Nat) : (d.setRailNow x).freeN = d.freeN := rfl
@[simp] theorem Dev.setRailNow_stepN (d : Dev) (x : Nat) : (d.setRailNow x).stepN = d.stepN := rfl
@[simp] theorem Dev.setRailNow_vats (d : Dev) (x : Nat) : (d.setRailNow x).vats = d.vats := rfl
@[simp] theorem Dev.setRailNow_slices (d : Dev) (x : Nat) : (d.setRailNow x).slices = d.slices := rfl
@[simp] theorem Dev.setRailNow_segD (d : Dev) (x : Nat) : (d.setRailNow x).segD = d.segD := rfl
@[simp] theorem Dev.setRailNow_segG (d : Dev) (x : Nat) : (d.setRailNow x).segG = d.segG := rfl
@[simp] theorem Dev.setRailNow_slcD (d : Dev) (x : Nat) : (d.setRailNow x).slcD = d.slcD := rfl
@[simp] theorem Dev.setRailNow_slcG (d : Dev) (x : Nat) : (d.setRailNow x).slcG = d.slcG := rfl
@[simp] theorem Dev.setRailNow_passAt (d : Dev) (x : Nat) : (d.setRailNow x).passAt = d.passAt := rfl
@[simp] theorem Dev.setRailNow_govRun (d : Dev) (x : Nat) : (d.setRailNow x).govRun = d.govRun := rfl
@[simp] theorem Dev.setRailNow_hot (d : Dev) (x : Nat) : (d.setRailNow x).hot = d.hot := rfl
@[simp] theorem Dev.setRailNow_relock (d : Dev) (x : Nat) : (d.setRailNow x).relock = d.relock := rfl
@[simp] theorem Dev.setRailNow_sliceCmd (d : Dev) (x : Nat) : (d.setRailNow x).sliceCmd = d.sliceCmd := rfl
@[simp] theorem Dev.setRailNow_rcWait (d : Dev) (x : Nat) : (d.setRailNow x).rcWait = d.rcWait := rfl
@[simp] theorem Dev.setRailNow_sw (d : Dev) (x : Nat) : (d.setRailNow x).sw = d.sw := rfl
@[simp] theorem Dev.setRailNow_jasia (d : Dev) (x : Nat) : (d.setRailNow x).jasia = d.jasia := rfl
@[simp] theorem Dev.setRailNow_ptp (d : Dev) (x : Nat) : (d.setRailNow x).ptp = d.ptp := rfl
@[simp] theorem Dev.setRailNow_can (d : Dev) (x : Nat) : (d.setRailNow x).can = d.can := rfl
@[simp] theorem Dev.setRailNow_cores (d : Dev) (x : Nat) : (d.setRailNow x).cores = d.cores := rfl
@[simp] theorem Dev.setRailNow_l2 (d : Dev) (x : Nat) : (d.setRailNow x).l2 = d.l2 := rfl
@[simp] theorem Dev.setRailNow_l1 (d : Dev) (x : Nat) : (d.setRailNow x).l1 = d.l1 := rfl
@[simp] theorem Dev.setRailNow_perfAt (d : Dev) (x : Nat) : (d.setRailNow x).perfAt = d.perfAt := rfl
@[simp] theorem Dev.setRailNow_qN (d : Dev) (x : Nat) : (d.setRailNow x).qN = d.qN := rfl
@[simp] theorem Dev.setRailNow_qS (d : Dev) (x : Nat) : (d.setRailNow x).qS = d.qS := rfl
@[simp] theorem Dev.setRailNow_pairs (d : Dev) (x : Nat) : (d.setRailNow x).pairs = d.pairs := rfl
@[simp] theorem Dev.setRailNow_mord (d : Dev) (x : Nat) : (d.setRailNow x).mord = d.mord := rfl
@[simp] theorem Dev.setRailNow_dram (d : Dev) (x : Nat) : (d.setRailNow x).dram = d.dram := rfl
@[simp] theorem Dev.setRailNow_aux (d : Dev) (x : Nat) : (d.setRailNow x).aux = d.aux := rfl
@[simp] theorem Dev.setRailNow_auxSum (d : Dev) (x : Nat) : (d.setRailNow x).auxSum = d.auxSum := rfl
@[simp] theorem Dev.setRailNow_mad (d : Dev) (x : Nat) : (d.setRailNow x).mad = d.mad := rfl
@[simp] theorem Dev.setRailNow_link (d : Dev) (x : Nat) : (d.setRailNow x).link = d.link := rfl
@[simp] theorem Dev.setRailNow_sup (d : Dev) (x : Nat) : (d.setRailNow x).sup = d.sup := rfl
@[simp] theorem Dev.setRailNow_dbg (d : Dev) (x : Nat) : (d.setRailNow x).dbg = d.dbg := rfl
@[simp] theorem Dev.setRailNow_fuse (d : Dev) (x : Nat) : (d.setRailNow x).fuse = d.fuse := rfl
@[simp] theorem Dev.setRailNow_f (d : Dev) (x : Nat) (r : RF) : (d.setRailNow x).f r = d.f r := rfl

/-! ### setHot -/

@[simp] theorem Dev.setHot_regs (d : Dev) (x : Bool) : (d.setHot x).regs = d.regs := rfl
@[simp] theorem Dev.setHot_now (d : Dev) (x : Bool) : (d.setHot x).now = d.now := rfl
@[simp] theorem Dev.setHot_up (d : Dev) (x : Bool) : (d.setHot x).up = d.up := rfl
@[simp] theorem Dev.setHot_upAcc (d : Dev) (x : Bool) : (d.setHot x).upAcc = d.upAcc := rfl
@[simp] theorem Dev.setHot_slewAcc (d : Dev) (x : Bool) : (d.setHot x).slewAcc = d.slewAcc := rfl
@[simp] theorem Dev.setHot_freshAt (d : Dev) (x : Bool) : (d.setHot x).freshAt = d.freshAt := rfl
@[simp] theorem Dev.setHot_fresh (d : Dev) (x : Bool) : (d.setHot x).fresh = d.fresh := rfl
@[simp] theorem Dev.setHot_resp (d : Dev) (x : Bool) : (d.setHot x).resp = d.resp := rfl
@[simp] theorem Dev.setHot_heldLow (d : Dev) (x : Bool) : (d.setHot x).heldLow = d.heldLow := rfl
@[simp] theorem Dev.setHot_capHigh (d : Dev) (x : Bool) : (d.setHot x).capHigh = d.capHigh := rfl
@[simp] theorem Dev.setHot_evlog (d : Dev) (x : Bool) : (d.setHot x).evlog = d.evlog := rfl
@[simp] theorem Dev.setHot_out (d : Dev) (x : Bool) : (d.setHot x).out = d.out := rfl
@[simp] theorem Dev.setHot_wq (d : Dev) (x : Bool) : (d.setHot x).wq = d.wq := rfl
@[simp] theorem Dev.setHot_lost (d : Dev) (x : Bool) : (d.setHot x).lost = d.lost := rfl
@[simp] theorem Dev.setHot_vatEpoch (d : Dev) (x : Bool) : (d.setHot x).vatEpoch = d.vatEpoch := rfl
@[simp] theorem Dev.setHot_dramEpoch (d : Dev) (x : Bool) : (d.setHot x).dramEpoch = d.dramEpoch := rfl
@[simp] theorem Dev.setHot_freeN (d : Dev) (x : Bool) : (d.setHot x).freeN = d.freeN := rfl
@[simp] theorem Dev.setHot_stepN (d : Dev) (x : Bool) : (d.setHot x).stepN = d.stepN := rfl
@[simp] theorem Dev.setHot_vats (d : Dev) (x : Bool) : (d.setHot x).vats = d.vats := rfl
@[simp] theorem Dev.setHot_slices (d : Dev) (x : Bool) : (d.setHot x).slices = d.slices := rfl
@[simp] theorem Dev.setHot_segD (d : Dev) (x : Bool) : (d.setHot x).segD = d.segD := rfl
@[simp] theorem Dev.setHot_segG (d : Dev) (x : Bool) : (d.setHot x).segG = d.segG := rfl
@[simp] theorem Dev.setHot_slcD (d : Dev) (x : Bool) : (d.setHot x).slcD = d.slcD := rfl
@[simp] theorem Dev.setHot_slcG (d : Dev) (x : Bool) : (d.setHot x).slcG = d.slcG := rfl
@[simp] theorem Dev.setHot_passAt (d : Dev) (x : Bool) : (d.setHot x).passAt = d.passAt := rfl
@[simp] theorem Dev.setHot_govRun (d : Dev) (x : Bool) : (d.setHot x).govRun = d.govRun := rfl
@[simp] theorem Dev.setHot_railNow (d : Dev) (x : Bool) : (d.setHot x).railNow = d.railNow := rfl
@[simp] theorem Dev.setHot_relock (d : Dev) (x : Bool) : (d.setHot x).relock = d.relock := rfl
@[simp] theorem Dev.setHot_sliceCmd (d : Dev) (x : Bool) : (d.setHot x).sliceCmd = d.sliceCmd := rfl
@[simp] theorem Dev.setHot_rcWait (d : Dev) (x : Bool) : (d.setHot x).rcWait = d.rcWait := rfl
@[simp] theorem Dev.setHot_sw (d : Dev) (x : Bool) : (d.setHot x).sw = d.sw := rfl
@[simp] theorem Dev.setHot_jasia (d : Dev) (x : Bool) : (d.setHot x).jasia = d.jasia := rfl
@[simp] theorem Dev.setHot_ptp (d : Dev) (x : Bool) : (d.setHot x).ptp = d.ptp := rfl
@[simp] theorem Dev.setHot_can (d : Dev) (x : Bool) : (d.setHot x).can = d.can := rfl
@[simp] theorem Dev.setHot_cores (d : Dev) (x : Bool) : (d.setHot x).cores = d.cores := rfl
@[simp] theorem Dev.setHot_l2 (d : Dev) (x : Bool) : (d.setHot x).l2 = d.l2 := rfl
@[simp] theorem Dev.setHot_l1 (d : Dev) (x : Bool) : (d.setHot x).l1 = d.l1 := rfl
@[simp] theorem Dev.setHot_perfAt (d : Dev) (x : Bool) : (d.setHot x).perfAt = d.perfAt := rfl
@[simp] theorem Dev.setHot_qN (d : Dev) (x : Bool) : (d.setHot x).qN = d.qN := rfl
@[simp] theorem Dev.setHot_qS (d : Dev) (x : Bool) : (d.setHot x).qS = d.qS := rfl
@[simp] theorem Dev.setHot_pairs (d : Dev) (x : Bool) : (d.setHot x).pairs = d.pairs := rfl
@[simp] theorem Dev.setHot_mord (d : Dev) (x : Bool) : (d.setHot x).mord = d.mord := rfl
@[simp] theorem Dev.setHot_dram (d : Dev) (x : Bool) : (d.setHot x).dram = d.dram := rfl
@[simp] theorem Dev.setHot_aux (d : Dev) (x : Bool) : (d.setHot x).aux = d.aux := rfl
@[simp] theorem Dev.setHot_auxSum (d : Dev) (x : Bool) : (d.setHot x).auxSum = d.auxSum := rfl
@[simp] theorem Dev.setHot_mad (d : Dev) (x : Bool) : (d.setHot x).mad = d.mad := rfl
@[simp] theorem Dev.setHot_link (d : Dev) (x : Bool) : (d.setHot x).link = d.link := rfl
@[simp] theorem Dev.setHot_sup (d : Dev) (x : Bool) : (d.setHot x).sup = d.sup := rfl
@[simp] theorem Dev.setHot_dbg (d : Dev) (x : Bool) : (d.setHot x).dbg = d.dbg := rfl
@[simp] theorem Dev.setHot_fuse (d : Dev) (x : Bool) : (d.setHot x).fuse = d.fuse := rfl
@[simp] theorem Dev.setHot_f (d : Dev) (x : Bool) (r : RF) : (d.setHot x).f r = d.f r := rfl

/-! ### setRelock -/

@[simp] theorem Dev.setRelock_regs (d : Dev) (x : Bool) : (d.setRelock x).regs = d.regs := rfl
@[simp] theorem Dev.setRelock_now (d : Dev) (x : Bool) : (d.setRelock x).now = d.now := rfl
@[simp] theorem Dev.setRelock_up (d : Dev) (x : Bool) : (d.setRelock x).up = d.up := rfl
@[simp] theorem Dev.setRelock_upAcc (d : Dev) (x : Bool) : (d.setRelock x).upAcc = d.upAcc := rfl
@[simp] theorem Dev.setRelock_slewAcc (d : Dev) (x : Bool) : (d.setRelock x).slewAcc = d.slewAcc := rfl
@[simp] theorem Dev.setRelock_freshAt (d : Dev) (x : Bool) : (d.setRelock x).freshAt = d.freshAt := rfl
@[simp] theorem Dev.setRelock_fresh (d : Dev) (x : Bool) : (d.setRelock x).fresh = d.fresh := rfl
@[simp] theorem Dev.setRelock_resp (d : Dev) (x : Bool) : (d.setRelock x).resp = d.resp := rfl
@[simp] theorem Dev.setRelock_heldLow (d : Dev) (x : Bool) : (d.setRelock x).heldLow = d.heldLow := rfl
@[simp] theorem Dev.setRelock_capHigh (d : Dev) (x : Bool) : (d.setRelock x).capHigh = d.capHigh := rfl
@[simp] theorem Dev.setRelock_evlog (d : Dev) (x : Bool) : (d.setRelock x).evlog = d.evlog := rfl
@[simp] theorem Dev.setRelock_out (d : Dev) (x : Bool) : (d.setRelock x).out = d.out := rfl
@[simp] theorem Dev.setRelock_wq (d : Dev) (x : Bool) : (d.setRelock x).wq = d.wq := rfl
@[simp] theorem Dev.setRelock_lost (d : Dev) (x : Bool) : (d.setRelock x).lost = d.lost := rfl
@[simp] theorem Dev.setRelock_vatEpoch (d : Dev) (x : Bool) : (d.setRelock x).vatEpoch = d.vatEpoch := rfl
@[simp] theorem Dev.setRelock_dramEpoch (d : Dev) (x : Bool) : (d.setRelock x).dramEpoch = d.dramEpoch := rfl
@[simp] theorem Dev.setRelock_freeN (d : Dev) (x : Bool) : (d.setRelock x).freeN = d.freeN := rfl
@[simp] theorem Dev.setRelock_stepN (d : Dev) (x : Bool) : (d.setRelock x).stepN = d.stepN := rfl
@[simp] theorem Dev.setRelock_vats (d : Dev) (x : Bool) : (d.setRelock x).vats = d.vats := rfl
@[simp] theorem Dev.setRelock_slices (d : Dev) (x : Bool) : (d.setRelock x).slices = d.slices := rfl
@[simp] theorem Dev.setRelock_segD (d : Dev) (x : Bool) : (d.setRelock x).segD = d.segD := rfl
@[simp] theorem Dev.setRelock_segG (d : Dev) (x : Bool) : (d.setRelock x).segG = d.segG := rfl
@[simp] theorem Dev.setRelock_slcD (d : Dev) (x : Bool) : (d.setRelock x).slcD = d.slcD := rfl
@[simp] theorem Dev.setRelock_slcG (d : Dev) (x : Bool) : (d.setRelock x).slcG = d.slcG := rfl
@[simp] theorem Dev.setRelock_passAt (d : Dev) (x : Bool) : (d.setRelock x).passAt = d.passAt := rfl
@[simp] theorem Dev.setRelock_govRun (d : Dev) (x : Bool) : (d.setRelock x).govRun = d.govRun := rfl
@[simp] theorem Dev.setRelock_railNow (d : Dev) (x : Bool) : (d.setRelock x).railNow = d.railNow := rfl
@[simp] theorem Dev.setRelock_hot (d : Dev) (x : Bool) : (d.setRelock x).hot = d.hot := rfl
@[simp] theorem Dev.setRelock_sliceCmd (d : Dev) (x : Bool) : (d.setRelock x).sliceCmd = d.sliceCmd := rfl
@[simp] theorem Dev.setRelock_rcWait (d : Dev) (x : Bool) : (d.setRelock x).rcWait = d.rcWait := rfl
@[simp] theorem Dev.setRelock_sw (d : Dev) (x : Bool) : (d.setRelock x).sw = d.sw := rfl
@[simp] theorem Dev.setRelock_jasia (d : Dev) (x : Bool) : (d.setRelock x).jasia = d.jasia := rfl
@[simp] theorem Dev.setRelock_ptp (d : Dev) (x : Bool) : (d.setRelock x).ptp = d.ptp := rfl
@[simp] theorem Dev.setRelock_can (d : Dev) (x : Bool) : (d.setRelock x).can = d.can := rfl
@[simp] theorem Dev.setRelock_cores (d : Dev) (x : Bool) : (d.setRelock x).cores = d.cores := rfl
@[simp] theorem Dev.setRelock_l2 (d : Dev) (x : Bool) : (d.setRelock x).l2 = d.l2 := rfl
@[simp] theorem Dev.setRelock_l1 (d : Dev) (x : Bool) : (d.setRelock x).l1 = d.l1 := rfl
@[simp] theorem Dev.setRelock_perfAt (d : Dev) (x : Bool) : (d.setRelock x).perfAt = d.perfAt := rfl
@[simp] theorem Dev.setRelock_qN (d : Dev) (x : Bool) : (d.setRelock x).qN = d.qN := rfl
@[simp] theorem Dev.setRelock_qS (d : Dev) (x : Bool) : (d.setRelock x).qS = d.qS := rfl
@[simp] theorem Dev.setRelock_pairs (d : Dev) (x : Bool) : (d.setRelock x).pairs = d.pairs := rfl
@[simp] theorem Dev.setRelock_mord (d : Dev) (x : Bool) : (d.setRelock x).mord = d.mord := rfl
@[simp] theorem Dev.setRelock_dram (d : Dev) (x : Bool) : (d.setRelock x).dram = d.dram := rfl
@[simp] theorem Dev.setRelock_aux (d : Dev) (x : Bool) : (d.setRelock x).aux = d.aux := rfl
@[simp] theorem Dev.setRelock_auxSum (d : Dev) (x : Bool) : (d.setRelock x).auxSum = d.auxSum := rfl
@[simp] theorem Dev.setRelock_mad (d : Dev) (x : Bool) : (d.setRelock x).mad = d.mad := rfl
@[simp] theorem Dev.setRelock_link (d : Dev) (x : Bool) : (d.setRelock x).link = d.link := rfl
@[simp] theorem Dev.setRelock_sup (d : Dev) (x : Bool) : (d.setRelock x).sup = d.sup := rfl
@[simp] theorem Dev.setRelock_dbg (d : Dev) (x : Bool) : (d.setRelock x).dbg = d.dbg := rfl
@[simp] theorem Dev.setRelock_fuse (d : Dev) (x : Bool) : (d.setRelock x).fuse = d.fuse := rfl
@[simp] theorem Dev.setRelock_f (d : Dev) (x : Bool) (r : RF) : (d.setRelock x).f r = d.f r := rfl

/-! ### setSliceCmd -/

@[simp] theorem Dev.setSliceCmd_regs (d : Dev) (x : Option (Nat × Nat × Nat)) : (d.setSliceCmd x).regs = d.regs := rfl
@[simp] theorem Dev.setSliceCmd_now (d : Dev) (x : Option (Nat × Nat × Nat)) : (d.setSliceCmd x).now = d.now := rfl
@[simp] theorem Dev.setSliceCmd_up (d : Dev) (x : Option (Nat × Nat × Nat)) : (d.setSliceCmd x).up = d.up := rfl
@[simp] theorem Dev.setSliceCmd_upAcc (d : Dev) (x : Option (Nat × Nat × Nat)) : (d.setSliceCmd x).upAcc = d.upAcc := rfl
@[simp] theorem Dev.setSliceCmd_slewAcc (d : Dev) (x : Option (Nat × Nat × Nat)) : (d.setSliceCmd x).slewAcc = d.slewAcc := rfl
@[simp] theorem Dev.setSliceCmd_freshAt (d : Dev) (x : Option (Nat × Nat × Nat)) : (d.setSliceCmd x).freshAt = d.freshAt := rfl
@[simp] theorem Dev.setSliceCmd_fresh (d : Dev) (x : Option (Nat × Nat × Nat)) : (d.setSliceCmd x).fresh = d.fresh := rfl
@[simp] theorem Dev.setSliceCmd_resp (d : Dev) (x : Option (Nat × Nat × Nat)) : (d.setSliceCmd x).resp = d.resp := rfl
@[simp] theorem Dev.setSliceCmd_heldLow (d : Dev) (x : Option (Nat × Nat × Nat)) : (d.setSliceCmd x).heldLow = d.heldLow := rfl
@[simp] theorem Dev.setSliceCmd_capHigh (d : Dev) (x : Option (Nat × Nat × Nat)) : (d.setSliceCmd x).capHigh = d.capHigh := rfl
@[simp] theorem Dev.setSliceCmd_evlog (d : Dev) (x : Option (Nat × Nat × Nat)) : (d.setSliceCmd x).evlog = d.evlog := rfl
@[simp] theorem Dev.setSliceCmd_out (d : Dev) (x : Option (Nat × Nat × Nat)) : (d.setSliceCmd x).out = d.out := rfl
@[simp] theorem Dev.setSliceCmd_wq (d : Dev) (x : Option (Nat × Nat × Nat)) : (d.setSliceCmd x).wq = d.wq := rfl
@[simp] theorem Dev.setSliceCmd_lost (d : Dev) (x : Option (Nat × Nat × Nat)) : (d.setSliceCmd x).lost = d.lost := rfl
@[simp] theorem Dev.setSliceCmd_vatEpoch (d : Dev) (x : Option (Nat × Nat × Nat)) : (d.setSliceCmd x).vatEpoch = d.vatEpoch := rfl
@[simp] theorem Dev.setSliceCmd_dramEpoch (d : Dev) (x : Option (Nat × Nat × Nat)) : (d.setSliceCmd x).dramEpoch = d.dramEpoch := rfl
@[simp] theorem Dev.setSliceCmd_freeN (d : Dev) (x : Option (Nat × Nat × Nat)) : (d.setSliceCmd x).freeN = d.freeN := rfl
@[simp] theorem Dev.setSliceCmd_stepN (d : Dev) (x : Option (Nat × Nat × Nat)) : (d.setSliceCmd x).stepN = d.stepN := rfl
@[simp] theorem Dev.setSliceCmd_vats (d : Dev) (x : Option (Nat × Nat × Nat)) : (d.setSliceCmd x).vats = d.vats := rfl
@[simp] theorem Dev.setSliceCmd_slices (d : Dev) (x : Option (Nat × Nat × Nat)) : (d.setSliceCmd x).slices = d.slices := rfl
@[simp] theorem Dev.setSliceCmd_segD (d : Dev) (x : Option (Nat × Nat × Nat)) : (d.setSliceCmd x).segD = d.segD := rfl
@[simp] theorem Dev.setSliceCmd_segG (d : Dev) (x : Option (Nat × Nat × Nat)) : (d.setSliceCmd x).segG = d.segG := rfl
@[simp] theorem Dev.setSliceCmd_slcD (d : Dev) (x : Option (Nat × Nat × Nat)) : (d.setSliceCmd x).slcD = d.slcD := rfl
@[simp] theorem Dev.setSliceCmd_slcG (d : Dev) (x : Option (Nat × Nat × Nat)) : (d.setSliceCmd x).slcG = d.slcG := rfl
@[simp] theorem Dev.setSliceCmd_passAt (d : Dev) (x : Option (Nat × Nat × Nat)) : (d.setSliceCmd x).passAt = d.passAt := rfl
@[simp] theorem Dev.setSliceCmd_govRun (d : Dev) (x : Option (Nat × Nat × Nat)) : (d.setSliceCmd x).govRun = d.govRun := rfl
@[simp] theorem Dev.setSliceCmd_railNow (d : Dev) (x : Option (Nat × Nat × Nat)) : (d.setSliceCmd x).railNow = d.railNow := rfl
@[simp] theorem Dev.setSliceCmd_hot (d : Dev) (x : Option (Nat × Nat × Nat)) : (d.setSliceCmd x).hot = d.hot := rfl
@[simp] theorem Dev.setSliceCmd_relock (d : Dev) (x : Option (Nat × Nat × Nat)) : (d.setSliceCmd x).relock = d.relock := rfl
@[simp] theorem Dev.setSliceCmd_rcWait (d : Dev) (x : Option (Nat × Nat × Nat)) : (d.setSliceCmd x).rcWait = d.rcWait := rfl
@[simp] theorem Dev.setSliceCmd_sw (d : Dev) (x : Option (Nat × Nat × Nat)) : (d.setSliceCmd x).sw = d.sw := rfl
@[simp] theorem Dev.setSliceCmd_jasia (d : Dev) (x : Option (Nat × Nat × Nat)) : (d.setSliceCmd x).jasia = d.jasia := rfl
@[simp] theorem Dev.setSliceCmd_ptp (d : Dev) (x : Option (Nat × Nat × Nat)) : (d.setSliceCmd x).ptp = d.ptp := rfl
@[simp] theorem Dev.setSliceCmd_can (d : Dev) (x : Option (Nat × Nat × Nat)) : (d.setSliceCmd x).can = d.can := rfl
@[simp] theorem Dev.setSliceCmd_cores (d : Dev) (x : Option (Nat × Nat × Nat)) : (d.setSliceCmd x).cores = d.cores := rfl
@[simp] theorem Dev.setSliceCmd_l2 (d : Dev) (x : Option (Nat × Nat × Nat)) : (d.setSliceCmd x).l2 = d.l2 := rfl
@[simp] theorem Dev.setSliceCmd_l1 (d : Dev) (x : Option (Nat × Nat × Nat)) : (d.setSliceCmd x).l1 = d.l1 := rfl
@[simp] theorem Dev.setSliceCmd_perfAt (d : Dev) (x : Option (Nat × Nat × Nat)) : (d.setSliceCmd x).perfAt = d.perfAt := rfl
@[simp] theorem Dev.setSliceCmd_qN (d : Dev) (x : Option (Nat × Nat × Nat)) : (d.setSliceCmd x).qN = d.qN := rfl
@[simp] theorem Dev.setSliceCmd_qS (d : Dev) (x : Option (Nat × Nat × Nat)) : (d.setSliceCmd x).qS = d.qS := rfl
@[simp] theorem Dev.setSliceCmd_pairs (d : Dev) (x : Option (Nat × Nat × Nat)) : (d.setSliceCmd x).pairs = d.pairs := rfl
@[simp] theorem Dev.setSliceCmd_mord (d : Dev) (x : Option (Nat × Nat × Nat)) : (d.setSliceCmd x).mord = d.mord := rfl
@[simp] theorem Dev.setSliceCmd_dram (d : Dev) (x : Option (Nat × Nat × Nat)) : (d.setSliceCmd x).dram = d.dram := rfl
@[simp] theorem Dev.setSliceCmd_aux (d : Dev) (x : Option (Nat × Nat × Nat)) : (d.setSliceCmd x).aux = d.aux := rfl
@[simp] theorem Dev.setSliceCmd_auxSum (d : Dev) (x : Option (Nat × Nat × Nat)) : (d.setSliceCmd x).auxSum = d.auxSum := rfl
@[simp] theorem Dev.setSliceCmd_mad (d : Dev) (x : Option (Nat × Nat × Nat)) : (d.setSliceCmd x).mad = d.mad := rfl
@[simp] theorem Dev.setSliceCmd_link (d : Dev) (x : Option (Nat × Nat × Nat)) : (d.setSliceCmd x).link = d.link := rfl
@[simp] theorem Dev.setSliceCmd_sup (d : Dev) (x : Option (Nat × Nat × Nat)) : (d.setSliceCmd x).sup = d.sup := rfl
@[simp] theorem Dev.setSliceCmd_dbg (d : Dev) (x : Option (Nat × Nat × Nat)) : (d.setSliceCmd x).dbg = d.dbg := rfl
@[simp] theorem Dev.setSliceCmd_fuse (d : Dev) (x : Option (Nat × Nat × Nat)) : (d.setSliceCmd x).fuse = d.fuse := rfl
@[simp] theorem Dev.setSliceCmd_f (d : Dev) (x : Option (Nat × Nat × Nat)) (r : RF) : (d.setSliceCmd x).f r = d.f r := rfl

/-! ### setSw -/

@[simp] theorem Dev.setSw_regs (d : Dev) (x : Switch) : (d.setSw x).regs = d.regs := rfl
@[simp] theorem Dev.setSw_now (d : Dev) (x : Switch) : (d.setSw x).now = d.now := rfl
@[simp] theorem Dev.setSw_up (d : Dev) (x : Switch) : (d.setSw x).up = d.up := rfl
@[simp] theorem Dev.setSw_upAcc (d : Dev) (x : Switch) : (d.setSw x).upAcc = d.upAcc := rfl
@[simp] theorem Dev.setSw_slewAcc (d : Dev) (x : Switch) : (d.setSw x).slewAcc = d.slewAcc := rfl
@[simp] theorem Dev.setSw_freshAt (d : Dev) (x : Switch) : (d.setSw x).freshAt = d.freshAt := rfl
@[simp] theorem Dev.setSw_fresh (d : Dev) (x : Switch) : (d.setSw x).fresh = d.fresh := rfl
@[simp] theorem Dev.setSw_resp (d : Dev) (x : Switch) : (d.setSw x).resp = d.resp := rfl
@[simp] theorem Dev.setSw_heldLow (d : Dev) (x : Switch) : (d.setSw x).heldLow = d.heldLow := rfl
@[simp] theorem Dev.setSw_capHigh (d : Dev) (x : Switch) : (d.setSw x).capHigh = d.capHigh := rfl
@[simp] theorem Dev.setSw_evlog (d : Dev) (x : Switch) : (d.setSw x).evlog = d.evlog := rfl
@[simp] theorem Dev.setSw_out (d : Dev) (x : Switch) : (d.setSw x).out = d.out := rfl
@[simp] theorem Dev.setSw_wq (d : Dev) (x : Switch) : (d.setSw x).wq = d.wq := rfl
@[simp] theorem Dev.setSw_lost (d : Dev) (x : Switch) : (d.setSw x).lost = d.lost := rfl
@[simp] theorem Dev.setSw_vatEpoch (d : Dev) (x : Switch) : (d.setSw x).vatEpoch = d.vatEpoch := rfl
@[simp] theorem Dev.setSw_dramEpoch (d : Dev) (x : Switch) : (d.setSw x).dramEpoch = d.dramEpoch := rfl
@[simp] theorem Dev.setSw_freeN (d : Dev) (x : Switch) : (d.setSw x).freeN = d.freeN := rfl
@[simp] theorem Dev.setSw_stepN (d : Dev) (x : Switch) : (d.setSw x).stepN = d.stepN := rfl
@[simp] theorem Dev.setSw_vats (d : Dev) (x : Switch) : (d.setSw x).vats = d.vats := rfl
@[simp] theorem Dev.setSw_slices (d : Dev) (x : Switch) : (d.setSw x).slices = d.slices := rfl
@[simp] theorem Dev.setSw_segD (d : Dev) (x : Switch) : (d.setSw x).segD = d.segD := rfl
@[simp] theorem Dev.setSw_segG (d : Dev) (x : Switch) : (d.setSw x).segG = d.segG := rfl
@[simp] theorem Dev.setSw_slcD (d : Dev) (x : Switch) : (d.setSw x).slcD = d.slcD := rfl
@[simp] theorem Dev.setSw_slcG (d : Dev) (x : Switch) : (d.setSw x).slcG = d.slcG := rfl
@[simp] theorem Dev.setSw_passAt (d : Dev) (x : Switch) : (d.setSw x).passAt = d.passAt := rfl
@[simp] theorem Dev.setSw_govRun (d : Dev) (x : Switch) : (d.setSw x).govRun = d.govRun := rfl
@[simp] theorem Dev.setSw_railNow (d : Dev) (x : Switch) : (d.setSw x).railNow = d.railNow := rfl
@[simp] theorem Dev.setSw_hot (d : Dev) (x : Switch) : (d.setSw x).hot = d.hot := rfl
@[simp] theorem Dev.setSw_relock (d : Dev) (x : Switch) : (d.setSw x).relock = d.relock := rfl
@[simp] theorem Dev.setSw_sliceCmd (d : Dev) (x : Switch) : (d.setSw x).sliceCmd = d.sliceCmd := rfl
@[simp] theorem Dev.setSw_rcWait (d : Dev) (x : Switch) : (d.setSw x).rcWait = d.rcWait := rfl
@[simp] theorem Dev.setSw_jasia (d : Dev) (x : Switch) : (d.setSw x).jasia = d.jasia := rfl
@[simp] theorem Dev.setSw_ptp (d : Dev) (x : Switch) : (d.setSw x).ptp = d.ptp := rfl
@[simp] theorem Dev.setSw_can (d : Dev) (x : Switch) : (d.setSw x).can = d.can := rfl
@[simp] theorem Dev.setSw_cores (d : Dev) (x : Switch) : (d.setSw x).cores = d.cores := rfl
@[simp] theorem Dev.setSw_l2 (d : Dev) (x : Switch) : (d.setSw x).l2 = d.l2 := rfl
@[simp] theorem Dev.setSw_l1 (d : Dev) (x : Switch) : (d.setSw x).l1 = d.l1 := rfl
@[simp] theorem Dev.setSw_perfAt (d : Dev) (x : Switch) : (d.setSw x).perfAt = d.perfAt := rfl
@[simp] theorem Dev.setSw_qN (d : Dev) (x : Switch) : (d.setSw x).qN = d.qN := rfl
@[simp] theorem Dev.setSw_qS (d : Dev) (x : Switch) : (d.setSw x).qS = d.qS := rfl
@[simp] theorem Dev.setSw_pairs (d : Dev) (x : Switch) : (d.setSw x).pairs = d.pairs := rfl
@[simp] theorem Dev.setSw_mord (d : Dev) (x : Switch) : (d.setSw x).mord = d.mord := rfl
@[simp] theorem Dev.setSw_dram (d : Dev) (x : Switch) : (d.setSw x).dram = d.dram := rfl
@[simp] theorem Dev.setSw_aux (d : Dev) (x : Switch) : (d.setSw x).aux = d.aux := rfl
@[simp] theorem Dev.setSw_auxSum (d : Dev) (x : Switch) : (d.setSw x).auxSum = d.auxSum := rfl
@[simp] theorem Dev.setSw_mad (d : Dev) (x : Switch) : (d.setSw x).mad = d.mad := rfl
@[simp] theorem Dev.setSw_link (d : Dev) (x : Switch) : (d.setSw x).link = d.link := rfl
@[simp] theorem Dev.setSw_sup (d : Dev) (x : Switch) : (d.setSw x).sup = d.sup := rfl
@[simp] theorem Dev.setSw_dbg (d : Dev) (x : Switch) : (d.setSw x).dbg = d.dbg := rfl
@[simp] theorem Dev.setSw_fuse (d : Dev) (x : Switch) : (d.setSw x).fuse = d.fuse := rfl
@[simp] theorem Dev.setSw_f (d : Dev) (x : Switch) (r : RF) : (d.setSw x).f r = d.f r := rfl

/-! ### setJasia -/

@[simp] theorem Dev.setJasia_regs (d : Dev) (x : Jasia) : (d.setJasia x).regs = d.regs := rfl
@[simp] theorem Dev.setJasia_now (d : Dev) (x : Jasia) : (d.setJasia x).now = d.now := rfl
@[simp] theorem Dev.setJasia_up (d : Dev) (x : Jasia) : (d.setJasia x).up = d.up := rfl
@[simp] theorem Dev.setJasia_upAcc (d : Dev) (x : Jasia) : (d.setJasia x).upAcc = d.upAcc := rfl
@[simp] theorem Dev.setJasia_slewAcc (d : Dev) (x : Jasia) : (d.setJasia x).slewAcc = d.slewAcc := rfl
@[simp] theorem Dev.setJasia_freshAt (d : Dev) (x : Jasia) : (d.setJasia x).freshAt = d.freshAt := rfl
@[simp] theorem Dev.setJasia_fresh (d : Dev) (x : Jasia) : (d.setJasia x).fresh = d.fresh := rfl
@[simp] theorem Dev.setJasia_resp (d : Dev) (x : Jasia) : (d.setJasia x).resp = d.resp := rfl
@[simp] theorem Dev.setJasia_heldLow (d : Dev) (x : Jasia) : (d.setJasia x).heldLow = d.heldLow := rfl
@[simp] theorem Dev.setJasia_capHigh (d : Dev) (x : Jasia) : (d.setJasia x).capHigh = d.capHigh := rfl
@[simp] theorem Dev.setJasia_evlog (d : Dev) (x : Jasia) : (d.setJasia x).evlog = d.evlog := rfl
@[simp] theorem Dev.setJasia_out (d : Dev) (x : Jasia) : (d.setJasia x).out = d.out := rfl
@[simp] theorem Dev.setJasia_wq (d : Dev) (x : Jasia) : (d.setJasia x).wq = d.wq := rfl
@[simp] theorem Dev.setJasia_lost (d : Dev) (x : Jasia) : (d.setJasia x).lost = d.lost := rfl
@[simp] theorem Dev.setJasia_vatEpoch (d : Dev) (x : Jasia) : (d.setJasia x).vatEpoch = d.vatEpoch := rfl
@[simp] theorem Dev.setJasia_dramEpoch (d : Dev) (x : Jasia) : (d.setJasia x).dramEpoch = d.dramEpoch := rfl
@[simp] theorem Dev.setJasia_freeN (d : Dev) (x : Jasia) : (d.setJasia x).freeN = d.freeN := rfl
@[simp] theorem Dev.setJasia_stepN (d : Dev) (x : Jasia) : (d.setJasia x).stepN = d.stepN := rfl
@[simp] theorem Dev.setJasia_vats (d : Dev) (x : Jasia) : (d.setJasia x).vats = d.vats := rfl
@[simp] theorem Dev.setJasia_slices (d : Dev) (x : Jasia) : (d.setJasia x).slices = d.slices := rfl
@[simp] theorem Dev.setJasia_segD (d : Dev) (x : Jasia) : (d.setJasia x).segD = d.segD := rfl
@[simp] theorem Dev.setJasia_segG (d : Dev) (x : Jasia) : (d.setJasia x).segG = d.segG := rfl
@[simp] theorem Dev.setJasia_slcD (d : Dev) (x : Jasia) : (d.setJasia x).slcD = d.slcD := rfl
@[simp] theorem Dev.setJasia_slcG (d : Dev) (x : Jasia) : (d.setJasia x).slcG = d.slcG := rfl
@[simp] theorem Dev.setJasia_passAt (d : Dev) (x : Jasia) : (d.setJasia x).passAt = d.passAt := rfl
@[simp] theorem Dev.setJasia_govRun (d : Dev) (x : Jasia) : (d.setJasia x).govRun = d.govRun := rfl
@[simp] theorem Dev.setJasia_railNow (d : Dev) (x : Jasia) : (d.setJasia x).railNow = d.railNow := rfl
@[simp] theorem Dev.setJasia_hot (d : Dev) (x : Jasia) : (d.setJasia x).hot = d.hot := rfl
@[simp] theorem Dev.setJasia_relock (d : Dev) (x : Jasia) : (d.setJasia x).relock = d.relock := rfl
@[simp] theorem Dev.setJasia_sliceCmd (d : Dev) (x : Jasia) : (d.setJasia x).sliceCmd = d.sliceCmd := rfl
@[simp] theorem Dev.setJasia_rcWait (d : Dev) (x : Jasia) : (d.setJasia x).rcWait = d.rcWait := rfl
@[simp] theorem Dev.setJasia_sw (d : Dev) (x : Jasia) : (d.setJasia x).sw = d.sw := rfl
@[simp] theorem Dev.setJasia_ptp (d : Dev) (x : Jasia) : (d.setJasia x).ptp = d.ptp := rfl
@[simp] theorem Dev.setJasia_can (d : Dev) (x : Jasia) : (d.setJasia x).can = d.can := rfl
@[simp] theorem Dev.setJasia_cores (d : Dev) (x : Jasia) : (d.setJasia x).cores = d.cores := rfl
@[simp] theorem Dev.setJasia_l2 (d : Dev) (x : Jasia) : (d.setJasia x).l2 = d.l2 := rfl
@[simp] theorem Dev.setJasia_l1 (d : Dev) (x : Jasia) : (d.setJasia x).l1 = d.l1 := rfl
@[simp] theorem Dev.setJasia_perfAt (d : Dev) (x : Jasia) : (d.setJasia x).perfAt = d.perfAt := rfl
@[simp] theorem Dev.setJasia_qN (d : Dev) (x : Jasia) : (d.setJasia x).qN = d.qN := rfl
@[simp] theorem Dev.setJasia_qS (d : Dev) (x : Jasia) : (d.setJasia x).qS = d.qS := rfl
@[simp] theorem Dev.setJasia_pairs (d : Dev) (x : Jasia) : (d.setJasia x).pairs = d.pairs := rfl
@[simp] theorem Dev.setJasia_mord (d : Dev) (x : Jasia) : (d.setJasia x).mord = d.mord := rfl
@[simp] theorem Dev.setJasia_dram (d : Dev) (x : Jasia) : (d.setJasia x).dram = d.dram := rfl
@[simp] theorem Dev.setJasia_aux (d : Dev) (x : Jasia) : (d.setJasia x).aux = d.aux := rfl
@[simp] theorem Dev.setJasia_auxSum (d : Dev) (x : Jasia) : (d.setJasia x).auxSum = d.auxSum := rfl
@[simp] theorem Dev.setJasia_mad (d : Dev) (x : Jasia) : (d.setJasia x).mad = d.mad := rfl
@[simp] theorem Dev.setJasia_link (d : Dev) (x : Jasia) : (d.setJasia x).link = d.link := rfl
@[simp] theorem Dev.setJasia_sup (d : Dev) (x : Jasia) : (d.setJasia x).sup = d.sup := rfl
@[simp] theorem Dev.setJasia_dbg (d : Dev) (x : Jasia) : (d.setJasia x).dbg = d.dbg := rfl
@[simp] theorem Dev.setJasia_fuse (d : Dev) (x : Jasia) : (d.setJasia x).fuse = d.fuse := rfl
@[simp] theorem Dev.setJasia_f (d : Dev) (x : Jasia) (r : RF) : (d.setJasia x).f r = d.f r := rfl

/-! ### setPtp -/

@[simp] theorem Dev.setPtp_regs (d : Dev) (x : Ptp) : (d.setPtp x).regs = d.regs := rfl
@[simp] theorem Dev.setPtp_now (d : Dev) (x : Ptp) : (d.setPtp x).now = d.now := rfl
@[simp] theorem Dev.setPtp_up (d : Dev) (x : Ptp) : (d.setPtp x).up = d.up := rfl
@[simp] theorem Dev.setPtp_upAcc (d : Dev) (x : Ptp) : (d.setPtp x).upAcc = d.upAcc := rfl
@[simp] theorem Dev.setPtp_slewAcc (d : Dev) (x : Ptp) : (d.setPtp x).slewAcc = d.slewAcc := rfl
@[simp] theorem Dev.setPtp_freshAt (d : Dev) (x : Ptp) : (d.setPtp x).freshAt = d.freshAt := rfl
@[simp] theorem Dev.setPtp_fresh (d : Dev) (x : Ptp) : (d.setPtp x).fresh = d.fresh := rfl
@[simp] theorem Dev.setPtp_resp (d : Dev) (x : Ptp) : (d.setPtp x).resp = d.resp := rfl
@[simp] theorem Dev.setPtp_heldLow (d : Dev) (x : Ptp) : (d.setPtp x).heldLow = d.heldLow := rfl
@[simp] theorem Dev.setPtp_capHigh (d : Dev) (x : Ptp) : (d.setPtp x).capHigh = d.capHigh := rfl
@[simp] theorem Dev.setPtp_evlog (d : Dev) (x : Ptp) : (d.setPtp x).evlog = d.evlog := rfl
@[simp] theorem Dev.setPtp_out (d : Dev) (x : Ptp) : (d.setPtp x).out = d.out := rfl
@[simp] theorem Dev.setPtp_wq (d : Dev) (x : Ptp) : (d.setPtp x).wq = d.wq := rfl
@[simp] theorem Dev.setPtp_lost (d : Dev) (x : Ptp) : (d.setPtp x).lost = d.lost := rfl
@[simp] theorem Dev.setPtp_vatEpoch (d : Dev) (x : Ptp) : (d.setPtp x).vatEpoch = d.vatEpoch := rfl
@[simp] theorem Dev.setPtp_dramEpoch (d : Dev) (x : Ptp) : (d.setPtp x).dramEpoch = d.dramEpoch := rfl
@[simp] theorem Dev.setPtp_freeN (d : Dev) (x : Ptp) : (d.setPtp x).freeN = d.freeN := rfl
@[simp] theorem Dev.setPtp_stepN (d : Dev) (x : Ptp) : (d.setPtp x).stepN = d.stepN := rfl
@[simp] theorem Dev.setPtp_vats (d : Dev) (x : Ptp) : (d.setPtp x).vats = d.vats := rfl
@[simp] theorem Dev.setPtp_slices (d : Dev) (x : Ptp) : (d.setPtp x).slices = d.slices := rfl
@[simp] theorem Dev.setPtp_segD (d : Dev) (x : Ptp) : (d.setPtp x).segD = d.segD := rfl
@[simp] theorem Dev.setPtp_segG (d : Dev) (x : Ptp) : (d.setPtp x).segG = d.segG := rfl
@[simp] theorem Dev.setPtp_slcD (d : Dev) (x : Ptp) : (d.setPtp x).slcD = d.slcD := rfl
@[simp] theorem Dev.setPtp_slcG (d : Dev) (x : Ptp) : (d.setPtp x).slcG = d.slcG := rfl
@[simp] theorem Dev.setPtp_passAt (d : Dev) (x : Ptp) : (d.setPtp x).passAt = d.passAt := rfl
@[simp] theorem Dev.setPtp_govRun (d : Dev) (x : Ptp) : (d.setPtp x).govRun = d.govRun := rfl
@[simp] theorem Dev.setPtp_railNow (d : Dev) (x : Ptp) : (d.setPtp x).railNow = d.railNow := rfl
@[simp] theorem Dev.setPtp_hot (d : Dev) (x : Ptp) : (d.setPtp x).hot = d.hot := rfl
@[simp] theorem Dev.setPtp_relock (d : Dev) (x : Ptp) : (d.setPtp x).relock = d.relock := rfl
@[simp] theorem Dev.setPtp_sliceCmd (d : Dev) (x : Ptp) : (d.setPtp x).sliceCmd = d.sliceCmd := rfl
@[simp] theorem Dev.setPtp_rcWait (d : Dev) (x : Ptp) : (d.setPtp x).rcWait = d.rcWait := rfl
@[simp] theorem Dev.setPtp_sw (d : Dev) (x : Ptp) : (d.setPtp x).sw = d.sw := rfl
@[simp] theorem Dev.setPtp_jasia (d : Dev) (x : Ptp) : (d.setPtp x).jasia = d.jasia := rfl
@[simp] theorem Dev.setPtp_can (d : Dev) (x : Ptp) : (d.setPtp x).can = d.can := rfl
@[simp] theorem Dev.setPtp_cores (d : Dev) (x : Ptp) : (d.setPtp x).cores = d.cores := rfl
@[simp] theorem Dev.setPtp_l2 (d : Dev) (x : Ptp) : (d.setPtp x).l2 = d.l2 := rfl
@[simp] theorem Dev.setPtp_l1 (d : Dev) (x : Ptp) : (d.setPtp x).l1 = d.l1 := rfl
@[simp] theorem Dev.setPtp_perfAt (d : Dev) (x : Ptp) : (d.setPtp x).perfAt = d.perfAt := rfl
@[simp] theorem Dev.setPtp_qN (d : Dev) (x : Ptp) : (d.setPtp x).qN = d.qN := rfl
@[simp] theorem Dev.setPtp_qS (d : Dev) (x : Ptp) : (d.setPtp x).qS = d.qS := rfl
@[simp] theorem Dev.setPtp_pairs (d : Dev) (x : Ptp) : (d.setPtp x).pairs = d.pairs := rfl
@[simp] theorem Dev.setPtp_mord (d : Dev) (x : Ptp) : (d.setPtp x).mord = d.mord := rfl
@[simp] theorem Dev.setPtp_dram (d : Dev) (x : Ptp) : (d.setPtp x).dram = d.dram := rfl
@[simp] theorem Dev.setPtp_aux (d : Dev) (x : Ptp) : (d.setPtp x).aux = d.aux := rfl
@[simp] theorem Dev.setPtp_auxSum (d : Dev) (x : Ptp) : (d.setPtp x).auxSum = d.auxSum := rfl
@[simp] theorem Dev.setPtp_mad (d : Dev) (x : Ptp) : (d.setPtp x).mad = d.mad := rfl
@[simp] theorem Dev.setPtp_link (d : Dev) (x : Ptp) : (d.setPtp x).link = d.link := rfl
@[simp] theorem Dev.setPtp_sup (d : Dev) (x : Ptp) : (d.setPtp x).sup = d.sup := rfl
@[simp] theorem Dev.setPtp_dbg (d : Dev) (x : Ptp) : (d.setPtp x).dbg = d.dbg := rfl
@[simp] theorem Dev.setPtp_fuse (d : Dev) (x : Ptp) : (d.setPtp x).fuse = d.fuse := rfl
@[simp] theorem Dev.setPtp_f (d : Dev) (x : Ptp) (r : RF) : (d.setPtp x).f r = d.f r := rfl

/-! ### setCan -/

@[simp] theorem Dev.setCan_regs (d : Dev) (x : Vector Can 8) : (d.setCan x).regs = d.regs := rfl
@[simp] theorem Dev.setCan_now (d : Dev) (x : Vector Can 8) : (d.setCan x).now = d.now := rfl
@[simp] theorem Dev.setCan_up (d : Dev) (x : Vector Can 8) : (d.setCan x).up = d.up := rfl
@[simp] theorem Dev.setCan_upAcc (d : Dev) (x : Vector Can 8) : (d.setCan x).upAcc = d.upAcc := rfl
@[simp] theorem Dev.setCan_slewAcc (d : Dev) (x : Vector Can 8) : (d.setCan x).slewAcc = d.slewAcc := rfl
@[simp] theorem Dev.setCan_freshAt (d : Dev) (x : Vector Can 8) : (d.setCan x).freshAt = d.freshAt := rfl
@[simp] theorem Dev.setCan_fresh (d : Dev) (x : Vector Can 8) : (d.setCan x).fresh = d.fresh := rfl
@[simp] theorem Dev.setCan_resp (d : Dev) (x : Vector Can 8) : (d.setCan x).resp = d.resp := rfl
@[simp] theorem Dev.setCan_heldLow (d : Dev) (x : Vector Can 8) : (d.setCan x).heldLow = d.heldLow := rfl
@[simp] theorem Dev.setCan_capHigh (d : Dev) (x : Vector Can 8) : (d.setCan x).capHigh = d.capHigh := rfl
@[simp] theorem Dev.setCan_evlog (d : Dev) (x : Vector Can 8) : (d.setCan x).evlog = d.evlog := rfl
@[simp] theorem Dev.setCan_out (d : Dev) (x : Vector Can 8) : (d.setCan x).out = d.out := rfl
@[simp] theorem Dev.setCan_wq (d : Dev) (x : Vector Can 8) : (d.setCan x).wq = d.wq := rfl
@[simp] theorem Dev.setCan_lost (d : Dev) (x : Vector Can 8) : (d.setCan x).lost = d.lost := rfl
@[simp] theorem Dev.setCan_vatEpoch (d : Dev) (x : Vector Can 8) : (d.setCan x).vatEpoch = d.vatEpoch := rfl
@[simp] theorem Dev.setCan_dramEpoch (d : Dev) (x : Vector Can 8) : (d.setCan x).dramEpoch = d.dramEpoch := rfl
@[simp] theorem Dev.setCan_freeN (d : Dev) (x : Vector Can 8) : (d.setCan x).freeN = d.freeN := rfl
@[simp] theorem Dev.setCan_stepN (d : Dev) (x : Vector Can 8) : (d.setCan x).stepN = d.stepN := rfl
@[simp] theorem Dev.setCan_vats (d : Dev) (x : Vector Can 8) : (d.setCan x).vats = d.vats := rfl
@[simp] theorem Dev.setCan_slices (d : Dev) (x : Vector Can 8) : (d.setCan x).slices = d.slices := rfl
@[simp] theorem Dev.setCan_segD (d : Dev) (x : Vector Can 8) : (d.setCan x).segD = d.segD := rfl
@[simp] theorem Dev.setCan_segG (d : Dev) (x : Vector Can 8) : (d.setCan x).segG = d.segG := rfl
@[simp] theorem Dev.setCan_slcD (d : Dev) (x : Vector Can 8) : (d.setCan x).slcD = d.slcD := rfl
@[simp] theorem Dev.setCan_slcG (d : Dev) (x : Vector Can 8) : (d.setCan x).slcG = d.slcG := rfl
@[simp] theorem Dev.setCan_passAt (d : Dev) (x : Vector Can 8) : (d.setCan x).passAt = d.passAt := rfl
@[simp] theorem Dev.setCan_govRun (d : Dev) (x : Vector Can 8) : (d.setCan x).govRun = d.govRun := rfl
@[simp] theorem Dev.setCan_railNow (d : Dev) (x : Vector Can 8) : (d.setCan x).railNow = d.railNow := rfl
@[simp] theorem Dev.setCan_hot (d : Dev) (x : Vector Can 8) : (d.setCan x).hot = d.hot := rfl
@[simp] theorem Dev.setCan_relock (d : Dev) (x : Vector Can 8) : (d.setCan x).relock = d.relock := rfl
@[simp] theorem Dev.setCan_sliceCmd (d : Dev) (x : Vector Can 8) : (d.setCan x).sliceCmd = d.sliceCmd := rfl
@[simp] theorem Dev.setCan_rcWait (d : Dev) (x : Vector Can 8) : (d.setCan x).rcWait = d.rcWait := rfl
@[simp] theorem Dev.setCan_sw (d : Dev) (x : Vector Can 8) : (d.setCan x).sw = d.sw := rfl
@[simp] theorem Dev.setCan_jasia (d : Dev) (x : Vector Can 8) : (d.setCan x).jasia = d.jasia := rfl
@[simp] theorem Dev.setCan_ptp (d : Dev) (x : Vector Can 8) : (d.setCan x).ptp = d.ptp := rfl
@[simp] theorem Dev.setCan_cores (d : Dev) (x : Vector Can 8) : (d.setCan x).cores = d.cores := rfl
@[simp] theorem Dev.setCan_l2 (d : Dev) (x : Vector Can 8) : (d.setCan x).l2 = d.l2 := rfl
@[simp] theorem Dev.setCan_l1 (d : Dev) (x : Vector Can 8) : (d.setCan x).l1 = d.l1 := rfl
@[simp] theorem Dev.setCan_perfAt (d : Dev) (x : Vector Can 8) : (d.setCan x).perfAt = d.perfAt := rfl
@[simp] theorem Dev.setCan_qN (d : Dev) (x : Vector Can 8) : (d.setCan x).qN = d.qN := rfl
@[simp] theorem Dev.setCan_qS (d : Dev) (x : Vector Can 8) : (d.setCan x).qS = d.qS := rfl
@[simp] theorem Dev.setCan_pairs (d : Dev) (x : Vector Can 8) : (d.setCan x).pairs = d.pairs := rfl
@[simp] theorem Dev.setCan_mord (d : Dev) (x : Vector Can 8) : (d.setCan x).mord = d.mord := rfl
@[simp] theorem Dev.setCan_dram (d : Dev) (x : Vector Can 8) : (d.setCan x).dram = d.dram := rfl
@[simp] theorem Dev.setCan_aux (d : Dev) (x : Vector Can 8) : (d.setCan x).aux = d.aux := rfl
@[simp] theorem Dev.setCan_auxSum (d : Dev) (x : Vector Can 8) : (d.setCan x).auxSum = d.auxSum := rfl
@[simp] theorem Dev.setCan_mad (d : Dev) (x : Vector Can 8) : (d.setCan x).mad = d.mad := rfl
@[simp] theorem Dev.setCan_link (d : Dev) (x : Vector Can 8) : (d.setCan x).link = d.link := rfl
@[simp] theorem Dev.setCan_sup (d : Dev) (x : Vector Can 8) : (d.setCan x).sup = d.sup := rfl
@[simp] theorem Dev.setCan_dbg (d : Dev) (x : Vector Can 8) : (d.setCan x).dbg = d.dbg := rfl
@[simp] theorem Dev.setCan_fuse (d : Dev) (x : Vector Can 8) : (d.setCan x).fuse = d.fuse := rfl
@[simp] theorem Dev.setCan_f (d : Dev) (x : Vector Can 8) (r : RF) : (d.setCan x).f r = d.f r := rfl

/-! ### setCores -/

@[simp] theorem Dev.setCores_regs (d : Dev) (x : Vector Core 6) : (d.setCores x).regs = d.regs := rfl
@[simp] theorem Dev.setCores_now (d : Dev) (x : Vector Core 6) : (d.setCores x).now = d.now := rfl
@[simp] theorem Dev.setCores_up (d : Dev) (x : Vector Core 6) : (d.setCores x).up = d.up := rfl
@[simp] theorem Dev.setCores_upAcc (d : Dev) (x : Vector Core 6) : (d.setCores x).upAcc = d.upAcc := rfl
@[simp] theorem Dev.setCores_slewAcc (d : Dev) (x : Vector Core 6) : (d.setCores x).slewAcc = d.slewAcc := rfl
@[simp] theorem Dev.setCores_freshAt (d : Dev) (x : Vector Core 6) : (d.setCores x).freshAt = d.freshAt := rfl
@[simp] theorem Dev.setCores_fresh (d : Dev) (x : Vector Core 6) : (d.setCores x).fresh = d.fresh := rfl
@[simp] theorem Dev.setCores_resp (d : Dev) (x : Vector Core 6) : (d.setCores x).resp = d.resp := rfl
@[simp] theorem Dev.setCores_heldLow (d : Dev) (x : Vector Core 6) : (d.setCores x).heldLow = d.heldLow := rfl
@[simp] theorem Dev.setCores_capHigh (d : Dev) (x : Vector Core 6) : (d.setCores x).capHigh = d.capHigh := rfl
@[simp] theorem Dev.setCores_evlog (d : Dev) (x : Vector Core 6) : (d.setCores x).evlog = d.evlog := rfl
@[simp] theorem Dev.setCores_out (d : Dev) (x : Vector Core 6) : (d.setCores x).out = d.out := rfl
@[simp] theorem Dev.setCores_wq (d : Dev) (x : Vector Core 6) : (d.setCores x).wq = d.wq := rfl
@[simp] theorem Dev.setCores_lost (d : Dev) (x : Vector Core 6) : (d.setCores x).lost = d.lost := rfl
@[simp] theorem Dev.setCores_vatEpoch (d : Dev) (x : Vector Core 6) : (d.setCores x).vatEpoch = d.vatEpoch := rfl
@[simp] theorem Dev.setCores_dramEpoch (d : Dev) (x : Vector Core 6) : (d.setCores x).dramEpoch = d.dramEpoch := rfl
@[simp] theorem Dev.setCores_freeN (d : Dev) (x : Vector Core 6) : (d.setCores x).freeN = d.freeN := rfl
@[simp] theorem Dev.setCores_stepN (d : Dev) (x : Vector Core 6) : (d.setCores x).stepN = d.stepN := rfl
@[simp] theorem Dev.setCores_vats (d : Dev) (x : Vector Core 6) : (d.setCores x).vats = d.vats := rfl
@[simp] theorem Dev.setCores_slices (d : Dev) (x : Vector Core 6) : (d.setCores x).slices = d.slices := rfl
@[simp] theorem Dev.setCores_segD (d : Dev) (x : Vector Core 6) : (d.setCores x).segD = d.segD := rfl
@[simp] theorem Dev.setCores_segG (d : Dev) (x : Vector Core 6) : (d.setCores x).segG = d.segG := rfl
@[simp] theorem Dev.setCores_slcD (d : Dev) (x : Vector Core 6) : (d.setCores x).slcD = d.slcD := rfl
@[simp] theorem Dev.setCores_slcG (d : Dev) (x : Vector Core 6) : (d.setCores x).slcG = d.slcG := rfl
@[simp] theorem Dev.setCores_passAt (d : Dev) (x : Vector Core 6) : (d.setCores x).passAt = d.passAt := rfl
@[simp] theorem Dev.setCores_govRun (d : Dev) (x : Vector Core 6) : (d.setCores x).govRun = d.govRun := rfl
@[simp] theorem Dev.setCores_railNow (d : Dev) (x : Vector Core 6) : (d.setCores x).railNow = d.railNow := rfl
@[simp] theorem Dev.setCores_hot (d : Dev) (x : Vector Core 6) : (d.setCores x).hot = d.hot := rfl
@[simp] theorem Dev.setCores_relock (d : Dev) (x : Vector Core 6) : (d.setCores x).relock = d.relock := rfl
@[simp] theorem Dev.setCores_sliceCmd (d : Dev) (x : Vector Core 6) : (d.setCores x).sliceCmd = d.sliceCmd := rfl
@[simp] theorem Dev.setCores_rcWait (d : Dev) (x : Vector Core 6) : (d.setCores x).rcWait = d.rcWait := rfl
@[simp] theorem Dev.setCores_sw (d : Dev) (x : Vector Core 6) : (d.setCores x).sw = d.sw := rfl
@[simp] theorem Dev.setCores_jasia (d : Dev) (x : Vector Core 6) : (d.setCores x).jasia = d.jasia := rfl
@[simp] theorem Dev.setCores_ptp (d : Dev) (x : Vector Core 6) : (d.setCores x).ptp = d.ptp := rfl
@[simp] theorem Dev.setCores_can (d : Dev) (x : Vector Core 6) : (d.setCores x).can = d.can := rfl
@[simp] theorem Dev.setCores_l2 (d : Dev) (x : Vector Core 6) : (d.setCores x).l2 = d.l2 := rfl
@[simp] theorem Dev.setCores_l1 (d : Dev) (x : Vector Core 6) : (d.setCores x).l1 = d.l1 := rfl
@[simp] theorem Dev.setCores_perfAt (d : Dev) (x : Vector Core 6) : (d.setCores x).perfAt = d.perfAt := rfl
@[simp] theorem Dev.setCores_qN (d : Dev) (x : Vector Core 6) : (d.setCores x).qN = d.qN := rfl
@[simp] theorem Dev.setCores_qS (d : Dev) (x : Vector Core 6) : (d.setCores x).qS = d.qS := rfl
@[simp] theorem Dev.setCores_pairs (d : Dev) (x : Vector Core 6) : (d.setCores x).pairs = d.pairs := rfl
@[simp] theorem Dev.setCores_mord (d : Dev) (x : Vector Core 6) : (d.setCores x).mord = d.mord := rfl
@[simp] theorem Dev.setCores_dram (d : Dev) (x : Vector Core 6) : (d.setCores x).dram = d.dram := rfl
@[simp] theorem Dev.setCores_aux (d : Dev) (x : Vector Core 6) : (d.setCores x).aux = d.aux := rfl
@[simp] theorem Dev.setCores_auxSum (d : Dev) (x : Vector Core 6) : (d.setCores x).auxSum = d.auxSum := rfl
@[simp] theorem Dev.setCores_mad (d : Dev) (x : Vector Core 6) : (d.setCores x).mad = d.mad := rfl
@[simp] theorem Dev.setCores_link (d : Dev) (x : Vector Core 6) : (d.setCores x).link = d.link := rfl
@[simp] theorem Dev.setCores_sup (d : Dev) (x : Vector Core 6) : (d.setCores x).sup = d.sup := rfl
@[simp] theorem Dev.setCores_dbg (d : Dev) (x : Vector Core 6) : (d.setCores x).dbg = d.dbg := rfl
@[simp] theorem Dev.setCores_fuse (d : Dev) (x : Vector Core 6) : (d.setCores x).fuse = d.fuse := rfl
@[simp] theorem Dev.setCores_f (d : Dev) (x : Vector Core 6) (r : RF) : (d.setCores x).f r = d.f r := rfl

/-! ### setL2 -/

@[simp] theorem Dev.setL2_regs (d : Dev) (x : List (Nat × Bool)) : (d.setL2 x).regs = d.regs := rfl
@[simp] theorem Dev.setL2_now (d : Dev) (x : List (Nat × Bool)) : (d.setL2 x).now = d.now := rfl
@[simp] theorem Dev.setL2_up (d : Dev) (x : List (Nat × Bool)) : (d.setL2 x).up = d.up := rfl
@[simp] theorem Dev.setL2_upAcc (d : Dev) (x : List (Nat × Bool)) : (d.setL2 x).upAcc = d.upAcc := rfl
@[simp] theorem Dev.setL2_slewAcc (d : Dev) (x : List (Nat × Bool)) : (d.setL2 x).slewAcc = d.slewAcc := rfl
@[simp] theorem Dev.setL2_freshAt (d : Dev) (x : List (Nat × Bool)) : (d.setL2 x).freshAt = d.freshAt := rfl
@[simp] theorem Dev.setL2_fresh (d : Dev) (x : List (Nat × Bool)) : (d.setL2 x).fresh = d.fresh := rfl
@[simp] theorem Dev.setL2_resp (d : Dev) (x : List (Nat × Bool)) : (d.setL2 x).resp = d.resp := rfl
@[simp] theorem Dev.setL2_heldLow (d : Dev) (x : List (Nat × Bool)) : (d.setL2 x).heldLow = d.heldLow := rfl
@[simp] theorem Dev.setL2_capHigh (d : Dev) (x : List (Nat × Bool)) : (d.setL2 x).capHigh = d.capHigh := rfl
@[simp] theorem Dev.setL2_evlog (d : Dev) (x : List (Nat × Bool)) : (d.setL2 x).evlog = d.evlog := rfl
@[simp] theorem Dev.setL2_out (d : Dev) (x : List (Nat × Bool)) : (d.setL2 x).out = d.out := rfl
@[simp] theorem Dev.setL2_wq (d : Dev) (x : List (Nat × Bool)) : (d.setL2 x).wq = d.wq := rfl
@[simp] theorem Dev.setL2_lost (d : Dev) (x : List (Nat × Bool)) : (d.setL2 x).lost = d.lost := rfl
@[simp] theorem Dev.setL2_vatEpoch (d : Dev) (x : List (Nat × Bool)) : (d.setL2 x).vatEpoch = d.vatEpoch := rfl
@[simp] theorem Dev.setL2_dramEpoch (d : Dev) (x : List (Nat × Bool)) : (d.setL2 x).dramEpoch = d.dramEpoch := rfl
@[simp] theorem Dev.setL2_freeN (d : Dev) (x : List (Nat × Bool)) : (d.setL2 x).freeN = d.freeN := rfl
@[simp] theorem Dev.setL2_stepN (d : Dev) (x : List (Nat × Bool)) : (d.setL2 x).stepN = d.stepN := rfl
@[simp] theorem Dev.setL2_vats (d : Dev) (x : List (Nat × Bool)) : (d.setL2 x).vats = d.vats := rfl
@[simp] theorem Dev.setL2_slices (d : Dev) (x : List (Nat × Bool)) : (d.setL2 x).slices = d.slices := rfl
@[simp] theorem Dev.setL2_segD (d : Dev) (x : List (Nat × Bool)) : (d.setL2 x).segD = d.segD := rfl
@[simp] theorem Dev.setL2_segG (d : Dev) (x : List (Nat × Bool)) : (d.setL2 x).segG = d.segG := rfl
@[simp] theorem Dev.setL2_slcD (d : Dev) (x : List (Nat × Bool)) : (d.setL2 x).slcD = d.slcD := rfl
@[simp] theorem Dev.setL2_slcG (d : Dev) (x : List (Nat × Bool)) : (d.setL2 x).slcG = d.slcG := rfl
@[simp] theorem Dev.setL2_passAt (d : Dev) (x : List (Nat × Bool)) : (d.setL2 x).passAt = d.passAt := rfl
@[simp] theorem Dev.setL2_govRun (d : Dev) (x : List (Nat × Bool)) : (d.setL2 x).govRun = d.govRun := rfl
@[simp] theorem Dev.setL2_railNow (d : Dev) (x : List (Nat × Bool)) : (d.setL2 x).railNow = d.railNow := rfl
@[simp] theorem Dev.setL2_hot (d : Dev) (x : List (Nat × Bool)) : (d.setL2 x).hot = d.hot := rfl
@[simp] theorem Dev.setL2_relock (d : Dev) (x : List (Nat × Bool)) : (d.setL2 x).relock = d.relock := rfl
@[simp] theorem Dev.setL2_sliceCmd (d : Dev) (x : List (Nat × Bool)) : (d.setL2 x).sliceCmd = d.sliceCmd := rfl
@[simp] theorem Dev.setL2_rcWait (d : Dev) (x : List (Nat × Bool)) : (d.setL2 x).rcWait = d.rcWait := rfl
@[simp] theorem Dev.setL2_sw (d : Dev) (x : List (Nat × Bool)) : (d.setL2 x).sw = d.sw := rfl
@[simp] theorem Dev.setL2_jasia (d : Dev) (x : List (Nat × Bool)) : (d.setL2 x).jasia = d.jasia := rfl
@[simp] theorem Dev.setL2_ptp (d : Dev) (x : List (Nat × Bool)) : (d.setL2 x).ptp = d.ptp := rfl
@[simp] theorem Dev.setL2_can (d : Dev) (x : List (Nat × Bool)) : (d.setL2 x).can = d.can := rfl
@[simp] theorem Dev.setL2_cores (d : Dev) (x : List (Nat × Bool)) : (d.setL2 x).cores = d.cores := rfl
@[simp] theorem Dev.setL2_l1 (d : Dev) (x : List (Nat × Bool)) : (d.setL2 x).l1 = d.l1 := rfl
@[simp] theorem Dev.setL2_perfAt (d : Dev) (x : List (Nat × Bool)) : (d.setL2 x).perfAt = d.perfAt := rfl
@[simp] theorem Dev.setL2_qN (d : Dev) (x : List (Nat × Bool)) : (d.setL2 x).qN = d.qN := rfl
@[simp] theorem Dev.setL2_qS (d : Dev) (x : List (Nat × Bool)) : (d.setL2 x).qS = d.qS := rfl
@[simp] theorem Dev.setL2_pairs (d : Dev) (x : List (Nat × Bool)) : (d.setL2 x).pairs = d.pairs := rfl
@[simp] theorem Dev.setL2_mord (d : Dev) (x : List (Nat × Bool)) : (d.setL2 x).mord = d.mord := rfl
@[simp] theorem Dev.setL2_dram (d : Dev) (x : List (Nat × Bool)) : (d.setL2 x).dram = d.dram := rfl
@[simp] theorem Dev.setL2_aux (d : Dev) (x : List (Nat × Bool)) : (d.setL2 x).aux = d.aux := rfl
@[simp] theorem Dev.setL2_auxSum (d : Dev) (x : List (Nat × Bool)) : (d.setL2 x).auxSum = d.auxSum := rfl
@[simp] theorem Dev.setL2_mad (d : Dev) (x : List (Nat × Bool)) : (d.setL2 x).mad = d.mad := rfl
@[simp] theorem Dev.setL2_link (d : Dev) (x : List (Nat × Bool)) : (d.setL2 x).link = d.link := rfl
@[simp] theorem Dev.setL2_sup (d : Dev) (x : List (Nat × Bool)) : (d.setL2 x).sup = d.sup := rfl
@[simp] theorem Dev.setL2_dbg (d : Dev) (x : List (Nat × Bool)) : (d.setL2 x).dbg = d.dbg := rfl
@[simp] theorem Dev.setL2_fuse (d : Dev) (x : List (Nat × Bool)) : (d.setL2 x).fuse = d.fuse := rfl
@[simp] theorem Dev.setL2_f (d : Dev) (x : List (Nat × Bool)) (r : RF) : (d.setL2 x).f r = d.f r := rfl

/-! ### setL1 -/

@[simp] theorem Dev.setL1_regs (d : Dev) (x : List (Nat × Nat × Byte)) : (d.setL1 x).regs = d.regs := rfl
@[simp] theorem Dev.setL1_now (d : Dev) (x : List (Nat × Nat × Byte)) : (d.setL1 x).now = d.now := rfl
@[simp] theorem Dev.setL1_up (d : Dev) (x : List (Nat × Nat × Byte)) : (d.setL1 x).up = d.up := rfl
@[simp] theorem Dev.setL1_upAcc (d : Dev) (x : List (Nat × Nat × Byte)) : (d.setL1 x).upAcc = d.upAcc := rfl
@[simp] theorem Dev.setL1_slewAcc (d : Dev) (x : List (Nat × Nat × Byte)) : (d.setL1 x).slewAcc = d.slewAcc := rfl
@[simp] theorem Dev.setL1_freshAt (d : Dev) (x : List (Nat × Nat × Byte)) : (d.setL1 x).freshAt = d.freshAt := rfl
@[simp] theorem Dev.setL1_fresh (d : Dev) (x : List (Nat × Nat × Byte)) : (d.setL1 x).fresh = d.fresh := rfl
@[simp] theorem Dev.setL1_resp (d : Dev) (x : List (Nat × Nat × Byte)) : (d.setL1 x).resp = d.resp := rfl
@[simp] theorem Dev.setL1_heldLow (d : Dev) (x : List (Nat × Nat × Byte)) : (d.setL1 x).heldLow = d.heldLow := rfl
@[simp] theorem Dev.setL1_capHigh (d : Dev) (x : List (Nat × Nat × Byte)) : (d.setL1 x).capHigh = d.capHigh := rfl
@[simp] theorem Dev.setL1_evlog (d : Dev) (x : List (Nat × Nat × Byte)) : (d.setL1 x).evlog = d.evlog := rfl
@[simp] theorem Dev.setL1_out (d : Dev) (x : List (Nat × Nat × Byte)) : (d.setL1 x).out = d.out := rfl
@[simp] theorem Dev.setL1_wq (d : Dev) (x : List (Nat × Nat × Byte)) : (d.setL1 x).wq = d.wq := rfl
@[simp] theorem Dev.setL1_lost (d : Dev) (x : List (Nat × Nat × Byte)) : (d.setL1 x).lost = d.lost := rfl
@[simp] theorem Dev.setL1_vatEpoch (d : Dev) (x : List (Nat × Nat × Byte)) : (d.setL1 x).vatEpoch = d.vatEpoch := rfl
@[simp] theorem Dev.setL1_dramEpoch (d : Dev) (x : List (Nat × Nat × Byte)) : (d.setL1 x).dramEpoch = d.dramEpoch := rfl
@[simp] theorem Dev.setL1_freeN (d : Dev) (x : List (Nat × Nat × Byte)) : (d.setL1 x).freeN = d.freeN := rfl
@[simp] theorem Dev.setL1_stepN (d : Dev) (x : List (Nat × Nat × Byte)) : (d.setL1 x).stepN = d.stepN := rfl
@[simp] theorem Dev.setL1_vats (d : Dev) (x : List (Nat × Nat × Byte)) : (d.setL1 x).vats = d.vats := rfl
@[simp] theorem Dev.setL1_slices (d : Dev) (x : List (Nat × Nat × Byte)) : (d.setL1 x).slices = d.slices := rfl
@[simp] theorem Dev.setL1_segD (d : Dev) (x : List (Nat × Nat × Byte)) : (d.setL1 x).segD = d.segD := rfl
@[simp] theorem Dev.setL1_segG (d : Dev) (x : List (Nat × Nat × Byte)) : (d.setL1 x).segG = d.segG := rfl
@[simp] theorem Dev.setL1_slcD (d : Dev) (x : List (Nat × Nat × Byte)) : (d.setL1 x).slcD = d.slcD := rfl
@[simp] theorem Dev.setL1_slcG (d : Dev) (x : List (Nat × Nat × Byte)) : (d.setL1 x).slcG = d.slcG := rfl
@[simp] theorem Dev.setL1_passAt (d : Dev) (x : List (Nat × Nat × Byte)) : (d.setL1 x).passAt = d.passAt := rfl
@[simp] theorem Dev.setL1_govRun (d : Dev) (x : List (Nat × Nat × Byte)) : (d.setL1 x).govRun = d.govRun := rfl
@[simp] theorem Dev.setL1_railNow (d : Dev) (x : List (Nat × Nat × Byte)) : (d.setL1 x).railNow = d.railNow := rfl
@[simp] theorem Dev.setL1_hot (d : Dev) (x : List (Nat × Nat × Byte)) : (d.setL1 x).hot = d.hot := rfl
@[simp] theorem Dev.setL1_relock (d : Dev) (x : List (Nat × Nat × Byte)) : (d.setL1 x).relock = d.relock := rfl
@[simp] theorem Dev.setL1_sliceCmd (d : Dev) (x : List (Nat × Nat × Byte)) : (d.setL1 x).sliceCmd = d.sliceCmd := rfl
@[simp] theorem Dev.setL1_rcWait (d : Dev) (x : List (Nat × Nat × Byte)) : (d.setL1 x).rcWait = d.rcWait := rfl
@[simp] theorem Dev.setL1_sw (d : Dev) (x : List (Nat × Nat × Byte)) : (d.setL1 x).sw = d.sw := rfl
@[simp] theorem Dev.setL1_jasia (d : Dev) (x : List (Nat × Nat × Byte)) : (d.setL1 x).jasia = d.jasia := rfl
@[simp] theorem Dev.setL1_ptp (d : Dev) (x : List (Nat × Nat × Byte)) : (d.setL1 x).ptp = d.ptp := rfl
@[simp] theorem Dev.setL1_can (d : Dev) (x : List (Nat × Nat × Byte)) : (d.setL1 x).can = d.can := rfl
@[simp] theorem Dev.setL1_cores (d : Dev) (x : List (Nat × Nat × Byte)) : (d.setL1 x).cores = d.cores := rfl
@[simp] theorem Dev.setL1_l2 (d : Dev) (x : List (Nat × Nat × Byte)) : (d.setL1 x).l2 = d.l2 := rfl
@[simp] theorem Dev.setL1_perfAt (d : Dev) (x : List (Nat × Nat × Byte)) : (d.setL1 x).perfAt = d.perfAt := rfl
@[simp] theorem Dev.setL1_qN (d : Dev) (x : List (Nat × Nat × Byte)) : (d.setL1 x).qN = d.qN := rfl
@[simp] theorem Dev.setL1_qS (d : Dev) (x : List (Nat × Nat × Byte)) : (d.setL1 x).qS = d.qS := rfl
@[simp] theorem Dev.setL1_pairs (d : Dev) (x : List (Nat × Nat × Byte)) : (d.setL1 x).pairs = d.pairs := rfl
@[simp] theorem Dev.setL1_mord (d : Dev) (x : List (Nat × Nat × Byte)) : (d.setL1 x).mord = d.mord := rfl
@[simp] theorem Dev.setL1_dram (d : Dev) (x : List (Nat × Nat × Byte)) : (d.setL1 x).dram = d.dram := rfl
@[simp] theorem Dev.setL1_aux (d : Dev) (x : List (Nat × Nat × Byte)) : (d.setL1 x).aux = d.aux := rfl
@[simp] theorem Dev.setL1_auxSum (d : Dev) (x : List (Nat × Nat × Byte)) : (d.setL1 x).auxSum = d.auxSum := rfl
@[simp] theorem Dev.setL1_mad (d : Dev) (x : List (Nat × Nat × Byte)) : (d.setL1 x).mad = d.mad := rfl
@[simp] theorem Dev.setL1_link (d : Dev) (x : List (Nat × Nat × Byte)) : (d.setL1 x).link = d.link := rfl
@[simp] theorem Dev.setL1_sup (d : Dev) (x : List (Nat × Nat × Byte)) : (d.setL1 x).sup = d.sup := rfl
@[simp] theorem Dev.setL1_dbg (d : Dev) (x : List (Nat × Nat × Byte)) : (d.setL1 x).dbg = d.dbg := rfl
@[simp] theorem Dev.setL1_fuse (d : Dev) (x : List (Nat × Nat × Byte)) : (d.setL1 x).fuse = d.fuse := rfl
@[simp] theorem Dev.setL1_f (d : Dev) (x : List (Nat × Nat × Byte)) (r : RF) : (d.setL1 x).f r = d.f r := rfl

/-! ### setPerfAt -/

@[simp] theorem Dev.setPerfAt_regs (d : Dev) (x : Nat) : (d.setPerfAt x).regs = d.regs := rfl
@[simp] theorem Dev.setPerfAt_now (d : Dev) (x : Nat) : (d.setPerfAt x).now = d.now := rfl
@[simp] theorem Dev.setPerfAt_up (d : Dev) (x : Nat) : (d.setPerfAt x).up = d.up := rfl
@[simp] theorem Dev.setPerfAt_upAcc (d : Dev) (x : Nat) : (d.setPerfAt x).upAcc = d.upAcc := rfl
@[simp] theorem Dev.setPerfAt_slewAcc (d : Dev) (x : Nat) : (d.setPerfAt x).slewAcc = d.slewAcc := rfl
@[simp] theorem Dev.setPerfAt_freshAt (d : Dev) (x : Nat) : (d.setPerfAt x).freshAt = d.freshAt := rfl
@[simp] theorem Dev.setPerfAt_fresh (d : Dev) (x : Nat) : (d.setPerfAt x).fresh = d.fresh := rfl
@[simp] theorem Dev.setPerfAt_resp (d : Dev) (x : Nat) : (d.setPerfAt x).resp = d.resp := rfl
@[simp] theorem Dev.setPerfAt_heldLow (d : Dev) (x : Nat) : (d.setPerfAt x).heldLow = d.heldLow := rfl
@[simp] theorem Dev.setPerfAt_capHigh (d : Dev) (x : Nat) : (d.setPerfAt x).capHigh = d.capHigh := rfl
@[simp] theorem Dev.setPerfAt_evlog (d : Dev) (x : Nat) : (d.setPerfAt x).evlog = d.evlog := rfl
@[simp] theorem Dev.setPerfAt_out (d : Dev) (x : Nat) : (d.setPerfAt x).out = d.out := rfl
@[simp] theorem Dev.setPerfAt_wq (d : Dev) (x : Nat) : (d.setPerfAt x).wq = d.wq := rfl
@[simp] theorem Dev.setPerfAt_lost (d : Dev) (x : Nat) : (d.setPerfAt x).lost = d.lost := rfl
@[simp] theorem Dev.setPerfAt_vatEpoch (d : Dev) (x : Nat) : (d.setPerfAt x).vatEpoch = d.vatEpoch := rfl
@[simp] theorem Dev.setPerfAt_dramEpoch (d : Dev) (x : Nat) : (d.setPerfAt x).dramEpoch = d.dramEpoch := rfl
@[simp] theorem Dev.setPerfAt_freeN (d : Dev) (x : Nat) : (d.setPerfAt x).freeN = d.freeN := rfl
@[simp] theorem Dev.setPerfAt_stepN (d : Dev) (x : Nat) : (d.setPerfAt x).stepN = d.stepN := rfl
@[simp] theorem Dev.setPerfAt_vats (d : Dev) (x : Nat) : (d.setPerfAt x).vats = d.vats := rfl
@[simp] theorem Dev.setPerfAt_slices (d : Dev) (x : Nat) : (d.setPerfAt x).slices = d.slices := rfl
@[simp] theorem Dev.setPerfAt_segD (d : Dev) (x : Nat) : (d.setPerfAt x).segD = d.segD := rfl
@[simp] theorem Dev.setPerfAt_segG (d : Dev) (x : Nat) : (d.setPerfAt x).segG = d.segG := rfl
@[simp] theorem Dev.setPerfAt_slcD (d : Dev) (x : Nat) : (d.setPerfAt x).slcD = d.slcD := rfl
@[simp] theorem Dev.setPerfAt_slcG (d : Dev) (x : Nat) : (d.setPerfAt x).slcG = d.slcG := rfl
@[simp] theorem Dev.setPerfAt_passAt (d : Dev) (x : Nat) : (d.setPerfAt x).passAt = d.passAt := rfl
@[simp] theorem Dev.setPerfAt_govRun (d : Dev) (x : Nat) : (d.setPerfAt x).govRun = d.govRun := rfl
@[simp] theorem Dev.setPerfAt_railNow (d : Dev) (x : Nat) : (d.setPerfAt x).railNow = d.railNow := rfl
@[simp] theorem Dev.setPerfAt_hot (d : Dev) (x : Nat) : (d.setPerfAt x).hot = d.hot := rfl
@[simp] theorem Dev.setPerfAt_relock (d : Dev) (x : Nat) : (d.setPerfAt x).relock = d.relock := rfl
@[simp] theorem Dev.setPerfAt_sliceCmd (d : Dev) (x : Nat) : (d.setPerfAt x).sliceCmd = d.sliceCmd := rfl
@[simp] theorem Dev.setPerfAt_rcWait (d : Dev) (x : Nat) : (d.setPerfAt x).rcWait = d.rcWait := rfl
@[simp] theorem Dev.setPerfAt_sw (d : Dev) (x : Nat) : (d.setPerfAt x).sw = d.sw := rfl
@[simp] theorem Dev.setPerfAt_jasia (d : Dev) (x : Nat) : (d.setPerfAt x).jasia = d.jasia := rfl
@[simp] theorem Dev.setPerfAt_ptp (d : Dev) (x : Nat) : (d.setPerfAt x).ptp = d.ptp := rfl
@[simp] theorem Dev.setPerfAt_can (d : Dev) (x : Nat) : (d.setPerfAt x).can = d.can := rfl
@[simp] theorem Dev.setPerfAt_cores (d : Dev) (x : Nat) : (d.setPerfAt x).cores = d.cores := rfl
@[simp] theorem Dev.setPerfAt_l2 (d : Dev) (x : Nat) : (d.setPerfAt x).l2 = d.l2 := rfl
@[simp] theorem Dev.setPerfAt_l1 (d : Dev) (x : Nat) : (d.setPerfAt x).l1 = d.l1 := rfl
@[simp] theorem Dev.setPerfAt_qN (d : Dev) (x : Nat) : (d.setPerfAt x).qN = d.qN := rfl
@[simp] theorem Dev.setPerfAt_qS (d : Dev) (x : Nat) : (d.setPerfAt x).qS = d.qS := rfl
@[simp] theorem Dev.setPerfAt_pairs (d : Dev) (x : Nat) : (d.setPerfAt x).pairs = d.pairs := rfl
@[simp] theorem Dev.setPerfAt_mord (d : Dev) (x : Nat) : (d.setPerfAt x).mord = d.mord := rfl
@[simp] theorem Dev.setPerfAt_dram (d : Dev) (x : Nat) : (d.setPerfAt x).dram = d.dram := rfl
@[simp] theorem Dev.setPerfAt_aux (d : Dev) (x : Nat) : (d.setPerfAt x).aux = d.aux := rfl
@[simp] theorem Dev.setPerfAt_auxSum (d : Dev) (x : Nat) : (d.setPerfAt x).auxSum = d.auxSum := rfl
@[simp] theorem Dev.setPerfAt_mad (d : Dev) (x : Nat) : (d.setPerfAt x).mad = d.mad := rfl
@[simp] theorem Dev.setPerfAt_link (d : Dev) (x : Nat) : (d.setPerfAt x).link = d.link := rfl
@[simp] theorem Dev.setPerfAt_sup (d : Dev) (x : Nat) : (d.setPerfAt x).sup = d.sup := rfl
@[simp] theorem Dev.setPerfAt_dbg (d : Dev) (x : Nat) : (d.setPerfAt x).dbg = d.dbg := rfl
@[simp] theorem Dev.setPerfAt_fuse (d : Dev) (x : Nat) : (d.setPerfAt x).fuse = d.fuse := rfl
@[simp] theorem Dev.setPerfAt_f (d : Dev) (x : Nat) (r : RF) : (d.setPerfAt x).f r = d.f r := rfl

/-! ### setRcWait -/

@[simp] theorem Dev.setRcWait_regs (d : Dev) (x : Nat) : (d.setRcWait x).regs = d.regs := rfl
@[simp] theorem Dev.setRcWait_now (d : Dev) (x : Nat) : (d.setRcWait x).now = d.now := rfl
@[simp] theorem Dev.setRcWait_up (d : Dev) (x : Nat) : (d.setRcWait x).up = d.up := rfl
@[simp] theorem Dev.setRcWait_upAcc (d : Dev) (x : Nat) : (d.setRcWait x).upAcc = d.upAcc := rfl
@[simp] theorem Dev.setRcWait_slewAcc (d : Dev) (x : Nat) : (d.setRcWait x).slewAcc = d.slewAcc := rfl
@[simp] theorem Dev.setRcWait_freshAt (d : Dev) (x : Nat) : (d.setRcWait x).freshAt = d.freshAt := rfl
@[simp] theorem Dev.setRcWait_fresh (d : Dev) (x : Nat) : (d.setRcWait x).fresh = d.fresh := rfl
@[simp] theorem Dev.setRcWait_resp (d : Dev) (x : Nat) : (d.setRcWait x).resp = d.resp := rfl
@[simp] theorem Dev.setRcWait_heldLow (d : Dev) (x : Nat) : (d.setRcWait x).heldLow = d.heldLow := rfl
@[simp] theorem Dev.setRcWait_capHigh (d : Dev) (x : Nat) : (d.setRcWait x).capHigh = d.capHigh := rfl
@[simp] theorem Dev.setRcWait_evlog (d : Dev) (x : Nat) : (d.setRcWait x).evlog = d.evlog := rfl
@[simp] theorem Dev.setRcWait_out (d : Dev) (x : Nat) : (d.setRcWait x).out = d.out := rfl
@[simp] theorem Dev.setRcWait_wq (d : Dev) (x : Nat) : (d.setRcWait x).wq = d.wq := rfl
@[simp] theorem Dev.setRcWait_lost (d : Dev) (x : Nat) : (d.setRcWait x).lost = d.lost := rfl
@[simp] theorem Dev.setRcWait_vatEpoch (d : Dev) (x : Nat) : (d.setRcWait x).vatEpoch = d.vatEpoch := rfl
@[simp] theorem Dev.setRcWait_dramEpoch (d : Dev) (x : Nat) : (d.setRcWait x).dramEpoch = d.dramEpoch := rfl
@[simp] theorem Dev.setRcWait_freeN (d : Dev) (x : Nat) : (d.setRcWait x).freeN = d.freeN := rfl
@[simp] theorem Dev.setRcWait_stepN (d : Dev) (x : Nat) : (d.setRcWait x).stepN = d.stepN := rfl
@[simp] theorem Dev.setRcWait_vats (d : Dev) (x : Nat) : (d.setRcWait x).vats = d.vats := rfl
@[simp] theorem Dev.setRcWait_slices (d : Dev) (x : Nat) : (d.setRcWait x).slices = d.slices := rfl
@[simp] theorem Dev.setRcWait_segD (d : Dev) (x : Nat) : (d.setRcWait x).segD = d.segD := rfl
@[simp] theorem Dev.setRcWait_segG (d : Dev) (x : Nat) : (d.setRcWait x).segG = d.segG := rfl
@[simp] theorem Dev.setRcWait_slcD (d : Dev) (x : Nat) : (d.setRcWait x).slcD = d.slcD := rfl
@[simp] theorem Dev.setRcWait_slcG (d : Dev) (x : Nat) : (d.setRcWait x).slcG = d.slcG := rfl
@[simp] theorem Dev.setRcWait_passAt (d : Dev) (x : Nat) : (d.setRcWait x).passAt = d.passAt := rfl
@[simp] theorem Dev.setRcWait_govRun (d : Dev) (x : Nat) : (d.setRcWait x).govRun = d.govRun := rfl
@[simp] theorem Dev.setRcWait_railNow (d : Dev) (x : Nat) : (d.setRcWait x).railNow = d.railNow := rfl
@[simp] theorem Dev.setRcWait_hot (d : Dev) (x : Nat) : (d.setRcWait x).hot = d.hot := rfl
@[simp] theorem Dev.setRcWait_relock (d : Dev) (x : Nat) : (d.setRcWait x).relock = d.relock := rfl
@[simp] theorem Dev.setRcWait_sliceCmd (d : Dev) (x : Nat) : (d.setRcWait x).sliceCmd = d.sliceCmd := rfl
@[simp] theorem Dev.setRcWait_sw (d : Dev) (x : Nat) : (d.setRcWait x).sw = d.sw := rfl
@[simp] theorem Dev.setRcWait_jasia (d : Dev) (x : Nat) : (d.setRcWait x).jasia = d.jasia := rfl
@[simp] theorem Dev.setRcWait_ptp (d : Dev) (x : Nat) : (d.setRcWait x).ptp = d.ptp := rfl
@[simp] theorem Dev.setRcWait_can (d : Dev) (x : Nat) : (d.setRcWait x).can = d.can := rfl
@[simp] theorem Dev.setRcWait_cores (d : Dev) (x : Nat) : (d.setRcWait x).cores = d.cores := rfl
@[simp] theorem Dev.setRcWait_l2 (d : Dev) (x : Nat) : (d.setRcWait x).l2 = d.l2 := rfl
@[simp] theorem Dev.setRcWait_l1 (d : Dev) (x : Nat) : (d.setRcWait x).l1 = d.l1 := rfl
@[simp] theorem Dev.setRcWait_perfAt (d : Dev) (x : Nat) : (d.setRcWait x).perfAt = d.perfAt := rfl
@[simp] theorem Dev.setRcWait_qN (d : Dev) (x : Nat) : (d.setRcWait x).qN = d.qN := rfl
@[simp] theorem Dev.setRcWait_qS (d : Dev) (x : Nat) : (d.setRcWait x).qS = d.qS := rfl
@[simp] theorem Dev.setRcWait_pairs (d : Dev) (x : Nat) : (d.setRcWait x).pairs = d.pairs := rfl
@[simp] theorem Dev.setRcWait_mord (d : Dev) (x : Nat) : (d.setRcWait x).mord = d.mord := rfl
@[simp] theorem Dev.setRcWait_dram (d : Dev) (x : Nat) : (d.setRcWait x).dram = d.dram := rfl
@[simp] theorem Dev.setRcWait_aux (d : Dev) (x : Nat) : (d.setRcWait x).aux = d.aux := rfl
@[simp] theorem Dev.setRcWait_auxSum (d : Dev) (x : Nat) : (d.setRcWait x).auxSum = d.auxSum := rfl
@[simp] theorem Dev.setRcWait_mad (d : Dev) (x : Nat) : (d.setRcWait x).mad = d.mad := rfl
@[simp] theorem Dev.setRcWait_link (d : Dev) (x : Nat) : (d.setRcWait x).link = d.link := rfl
@[simp] theorem Dev.setRcWait_sup (d : Dev) (x : Nat) : (d.setRcWait x).sup = d.sup := rfl
@[simp] theorem Dev.setRcWait_dbg (d : Dev) (x : Nat) : (d.setRcWait x).dbg = d.dbg := rfl
@[simp] theorem Dev.setRcWait_fuse (d : Dev) (x : Nat) : (d.setRcWait x).fuse = d.fuse := rfl
@[simp] theorem Dev.setRcWait_f (d : Dev) (x : Nat) (r : RF) : (d.setRcWait x).f r = d.f r := rfl

/-! ### setQN -/

@[simp] theorem Dev.setQN_regs (d : Dev) (x : Option QReq) : (d.setQN x).regs = d.regs := rfl
@[simp] theorem Dev.setQN_now (d : Dev) (x : Option QReq) : (d.setQN x).now = d.now := rfl
@[simp] theorem Dev.setQN_up (d : Dev) (x : Option QReq) : (d.setQN x).up = d.up := rfl
@[simp] theorem Dev.setQN_upAcc (d : Dev) (x : Option QReq) : (d.setQN x).upAcc = d.upAcc := rfl
@[simp] theorem Dev.setQN_slewAcc (d : Dev) (x : Option QReq) : (d.setQN x).slewAcc = d.slewAcc := rfl
@[simp] theorem Dev.setQN_freshAt (d : Dev) (x : Option QReq) : (d.setQN x).freshAt = d.freshAt := rfl
@[simp] theorem Dev.setQN_fresh (d : Dev) (x : Option QReq) : (d.setQN x).fresh = d.fresh := rfl
@[simp] theorem Dev.setQN_resp (d : Dev) (x : Option QReq) : (d.setQN x).resp = d.resp := rfl
@[simp] theorem Dev.setQN_heldLow (d : Dev) (x : Option QReq) : (d.setQN x).heldLow = d.heldLow := rfl
@[simp] theorem Dev.setQN_capHigh (d : Dev) (x : Option QReq) : (d.setQN x).capHigh = d.capHigh := rfl
@[simp] theorem Dev.setQN_evlog (d : Dev) (x : Option QReq) : (d.setQN x).evlog = d.evlog := rfl
@[simp] theorem Dev.setQN_out (d : Dev) (x : Option QReq) : (d.setQN x).out = d.out := rfl
@[simp] theorem Dev.setQN_wq (d : Dev) (x : Option QReq) : (d.setQN x).wq = d.wq := rfl
@[simp] theorem Dev.setQN_lost (d : Dev) (x : Option QReq) : (d.setQN x).lost = d.lost := rfl
@[simp] theorem Dev.setQN_vatEpoch (d : Dev) (x : Option QReq) : (d.setQN x).vatEpoch = d.vatEpoch := rfl
@[simp] theorem Dev.setQN_dramEpoch (d : Dev) (x : Option QReq) : (d.setQN x).dramEpoch = d.dramEpoch := rfl
@[simp] theorem Dev.setQN_freeN (d : Dev) (x : Option QReq) : (d.setQN x).freeN = d.freeN := rfl
@[simp] theorem Dev.setQN_stepN (d : Dev) (x : Option QReq) : (d.setQN x).stepN = d.stepN := rfl
@[simp] theorem Dev.setQN_vats (d : Dev) (x : Option QReq) : (d.setQN x).vats = d.vats := rfl
@[simp] theorem Dev.setQN_slices (d : Dev) (x : Option QReq) : (d.setQN x).slices = d.slices := rfl
@[simp] theorem Dev.setQN_segD (d : Dev) (x : Option QReq) : (d.setQN x).segD = d.segD := rfl
@[simp] theorem Dev.setQN_segG (d : Dev) (x : Option QReq) : (d.setQN x).segG = d.segG := rfl
@[simp] theorem Dev.setQN_slcD (d : Dev) (x : Option QReq) : (d.setQN x).slcD = d.slcD := rfl
@[simp] theorem Dev.setQN_slcG (d : Dev) (x : Option QReq) : (d.setQN x).slcG = d.slcG := rfl
@[simp] theorem Dev.setQN_passAt (d : Dev) (x : Option QReq) : (d.setQN x).passAt = d.passAt := rfl
@[simp] theorem Dev.setQN_govRun (d : Dev) (x : Option QReq) : (d.setQN x).govRun = d.govRun := rfl
@[simp] theorem Dev.setQN_railNow (d : Dev) (x : Option QReq) : (d.setQN x).railNow = d.railNow := rfl
@[simp] theorem Dev.setQN_hot (d : Dev) (x : Option QReq) : (d.setQN x).hot = d.hot := rfl
@[simp] theorem Dev.setQN_relock (d : Dev) (x : Option QReq) : (d.setQN x).relock = d.relock := rfl
@[simp] theorem Dev.setQN_sliceCmd (d : Dev) (x : Option QReq) : (d.setQN x).sliceCmd = d.sliceCmd := rfl
@[simp] theorem Dev.setQN_rcWait (d : Dev) (x : Option QReq) : (d.setQN x).rcWait = d.rcWait := rfl
@[simp] theorem Dev.setQN_sw (d : Dev) (x : Option QReq) : (d.setQN x).sw = d.sw := rfl
@[simp] theorem Dev.setQN_jasia (d : Dev) (x : Option QReq) : (d.setQN x).jasia = d.jasia := rfl
@[simp] theorem Dev.setQN_ptp (d : Dev) (x : Option QReq) : (d.setQN x).ptp = d.ptp := rfl
@[simp] theorem Dev.setQN_can (d : Dev) (x : Option QReq) : (d.setQN x).can = d.can := rfl
@[simp] theorem Dev.setQN_cores (d : Dev) (x : Option QReq) : (d.setQN x).cores = d.cores := rfl
@[simp] theorem Dev.setQN_l2 (d : Dev) (x : Option QReq) : (d.setQN x).l2 = d.l2 := rfl
@[simp] theorem Dev.setQN_l1 (d : Dev) (x : Option QReq) : (d.setQN x).l1 = d.l1 := rfl
@[simp] theorem Dev.setQN_perfAt (d : Dev) (x : Option QReq) : (d.setQN x).perfAt = d.perfAt := rfl
@[simp] theorem Dev.setQN_qS (d : Dev) (x : Option QReq) : (d.setQN x).qS = d.qS := rfl
@[simp] theorem Dev.setQN_pairs (d : Dev) (x : Option QReq) : (d.setQN x).pairs = d.pairs := rfl
@[simp] theorem Dev.setQN_mord (d : Dev) (x : Option QReq) : (d.setQN x).mord = d.mord := rfl
@[simp] theorem Dev.setQN_dram (d : Dev) (x : Option QReq) : (d.setQN x).dram = d.dram := rfl
@[simp] theorem Dev.setQN_aux (d : Dev) (x : Option QReq) : (d.setQN x).aux = d.aux := rfl
@[simp] theorem Dev.setQN_auxSum (d : Dev) (x : Option QReq) : (d.setQN x).auxSum = d.auxSum := rfl
@[simp] theorem Dev.setQN_mad (d : Dev) (x : Option QReq) : (d.setQN x).mad = d.mad := rfl
@[simp] theorem Dev.setQN_link (d : Dev) (x : Option QReq) : (d.setQN x).link = d.link := rfl
@[simp] theorem Dev.setQN_sup (d : Dev) (x : Option QReq) : (d.setQN x).sup = d.sup := rfl
@[simp] theorem Dev.setQN_dbg (d : Dev) (x : Option QReq) : (d.setQN x).dbg = d.dbg := rfl
@[simp] theorem Dev.setQN_fuse (d : Dev) (x : Option QReq) : (d.setQN x).fuse = d.fuse := rfl
@[simp] theorem Dev.setQN_f (d : Dev) (x : Option QReq) (r : RF) : (d.setQN x).f r = d.f r := rfl

/-! ### setQS -/

@[simp] theorem Dev.setQS_regs (d : Dev) (x : Option QReq) : (d.setQS x).regs = d.regs := rfl
@[simp] theorem Dev.setQS_now (d : Dev) (x : Option QReq) : (d.setQS x).now = d.now := rfl
@[simp] theorem Dev.setQS_up (d : Dev) (x : Option QReq) : (d.setQS x).up = d.up := rfl
@[simp] theorem Dev.setQS_upAcc (d : Dev) (x : Option QReq) : (d.setQS x).upAcc = d.upAcc := rfl
@[simp] theorem Dev.setQS_slewAcc (d : Dev) (x : Option QReq) : (d.setQS x).slewAcc = d.slewAcc := rfl
@[simp] theorem Dev.setQS_freshAt (d : Dev) (x : Option QReq) : (d.setQS x).freshAt = d.freshAt := rfl
@[simp] theorem Dev.setQS_fresh (d : Dev) (x : Option QReq) : (d.setQS x).fresh = d.fresh := rfl
@[simp] theorem Dev.setQS_resp (d : Dev) (x : Option QReq) : (d.setQS x).resp = d.resp := rfl
@[simp] theorem Dev.setQS_heldLow (d : Dev) (x : Option QReq) : (d.setQS x).heldLow = d.heldLow := rfl
@[simp] theorem Dev.setQS_capHigh (d : Dev) (x : Option QReq) : (d.setQS x).capHigh = d.capHigh := rfl
@[simp] theorem Dev.setQS_evlog (d : Dev) (x : Option QReq) : (d.setQS x).evlog = d.evlog := rfl
@[simp] theorem Dev.setQS_out (d : Dev) (x : Option QReq) : (d.setQS x).out = d.out := rfl
@[simp] theorem Dev.setQS_wq (d : Dev) (x : Option QReq) : (d.setQS x).wq = d.wq := rfl
@[simp] theorem Dev.setQS_lost (d : Dev) (x : Option QReq) : (d.setQS x).lost = d.lost := rfl
@[simp] theorem Dev.setQS_vatEpoch (d : Dev) (x : Option QReq) : (d.setQS x).vatEpoch = d.vatEpoch := rfl
@[simp] theorem Dev.setQS_dramEpoch (d : Dev) (x : Option QReq) : (d.setQS x).dramEpoch = d.dramEpoch := rfl
@[simp] theorem Dev.setQS_freeN (d : Dev) (x : Option QReq) : (d.setQS x).freeN = d.freeN := rfl
@[simp] theorem Dev.setQS_stepN (d : Dev) (x : Option QReq) : (d.setQS x).stepN = d.stepN := rfl
@[simp] theorem Dev.setQS_vats (d : Dev) (x : Option QReq) : (d.setQS x).vats = d.vats := rfl
@[simp] theorem Dev.setQS_slices (d : Dev) (x : Option QReq) : (d.setQS x).slices = d.slices := rfl
@[simp] theorem Dev.setQS_segD (d : Dev) (x : Option QReq) : (d.setQS x).segD = d.segD := rfl
@[simp] theorem Dev.setQS_segG (d : Dev) (x : Option QReq) : (d.setQS x).segG = d.segG := rfl
@[simp] theorem Dev.setQS_slcD (d : Dev) (x : Option QReq) : (d.setQS x).slcD = d.slcD := rfl
@[simp] theorem Dev.setQS_slcG (d : Dev) (x : Option QReq) : (d.setQS x).slcG = d.slcG := rfl
@[simp] theorem Dev.setQS_passAt (d : Dev) (x : Option QReq) : (d.setQS x).passAt = d.passAt := rfl
@[simp] theorem Dev.setQS_govRun (d : Dev) (x : Option QReq) : (d.setQS x).govRun = d.govRun := rfl
@[simp] theorem Dev.setQS_railNow (d : Dev) (x : Option QReq) : (d.setQS x).railNow = d.railNow := rfl
@[simp] theorem Dev.setQS_hot (d : Dev) (x : Option QReq) : (d.setQS x).hot = d.hot := rfl
@[simp] theorem Dev.setQS_relock (d : Dev) (x : Option QReq) : (d.setQS x).relock = d.relock := rfl
@[simp] theorem Dev.setQS_sliceCmd (d : Dev) (x : Option QReq) : (d.setQS x).sliceCmd = d.sliceCmd := rfl
@[simp] theorem Dev.setQS_rcWait (d : Dev) (x : Option QReq) : (d.setQS x).rcWait = d.rcWait := rfl
@[simp] theorem Dev.setQS_sw (d : Dev) (x : Option QReq) : (d.setQS x).sw = d.sw := rfl
@[simp] theorem Dev.setQS_jasia (d : Dev) (x : Option QReq) : (d.setQS x).jasia = d.jasia := rfl
@[simp] theorem Dev.setQS_ptp (d : Dev) (x : Option QReq) : (d.setQS x).ptp = d.ptp := rfl
@[simp] theorem Dev.setQS_can (d : Dev) (x : Option QReq) : (d.setQS x).can = d.can := rfl
@[simp] theorem Dev.setQS_cores (d : Dev) (x : Option QReq) : (d.setQS x).cores = d.cores := rfl
@[simp] theorem Dev.setQS_l2 (d : Dev) (x : Option QReq) : (d.setQS x).l2 = d.l2 := rfl
@[simp] theorem Dev.setQS_l1 (d : Dev) (x : Option QReq) : (d.setQS x).l1 = d.l1 := rfl
@[simp] theorem Dev.setQS_perfAt (d : Dev) (x : Option QReq) : (d.setQS x).perfAt = d.perfAt := rfl
@[simp] theorem Dev.setQS_qN (d : Dev) (x : Option QReq) : (d.setQS x).qN = d.qN := rfl
@[simp] theorem Dev.setQS_pairs (d : Dev) (x : Option QReq) : (d.setQS x).pairs = d.pairs := rfl
@[simp] theorem Dev.setQS_mord (d : Dev) (x : Option QReq) : (d.setQS x).mord = d.mord := rfl
@[simp] theorem Dev.setQS_dram (d : Dev) (x : Option QReq) : (d.setQS x).dram = d.dram := rfl
@[simp] theorem Dev.setQS_aux (d : Dev) (x : Option QReq) : (d.setQS x).aux = d.aux := rfl
@[simp] theorem Dev.setQS_auxSum (d : Dev) (x : Option QReq) : (d.setQS x).auxSum = d.auxSum := rfl
@[simp] theorem Dev.setQS_mad (d : Dev) (x : Option QReq) : (d.setQS x).mad = d.mad := rfl
@[simp] theorem Dev.setQS_link (d : Dev) (x : Option QReq) : (d.setQS x).link = d.link := rfl
@[simp] theorem Dev.setQS_sup (d : Dev) (x : Option QReq) : (d.setQS x).sup = d.sup := rfl
@[simp] theorem Dev.setQS_dbg (d : Dev) (x : Option QReq) : (d.setQS x).dbg = d.dbg := rfl
@[simp] theorem Dev.setQS_fuse (d : Dev) (x : Option QReq) : (d.setQS x).fuse = d.fuse := rfl
@[simp] theorem Dev.setQS_f (d : Dev) (x : Option QReq) (r : RF) : (d.setQS x).f r = d.f r := rfl

/-! ### setPairs -/

@[simp] theorem Dev.setPairs_regs (d : Dev) (x : Vector Pair 2) : (d.setPairs x).regs = d.regs := rfl
@[simp] theorem Dev.setPairs_now (d : Dev) (x : Vector Pair 2) : (d.setPairs x).now = d.now := rfl
@[simp] theorem Dev.setPairs_up (d : Dev) (x : Vector Pair 2) : (d.setPairs x).up = d.up := rfl
@[simp] theorem Dev.setPairs_upAcc (d : Dev) (x : Vector Pair 2) : (d.setPairs x).upAcc = d.upAcc := rfl
@[simp] theorem Dev.setPairs_slewAcc (d : Dev) (x : Vector Pair 2) : (d.setPairs x).slewAcc = d.slewAcc := rfl
@[simp] theorem Dev.setPairs_freshAt (d : Dev) (x : Vector Pair 2) : (d.setPairs x).freshAt = d.freshAt := rfl
@[simp] theorem Dev.setPairs_fresh (d : Dev) (x : Vector Pair 2) : (d.setPairs x).fresh = d.fresh := rfl
@[simp] theorem Dev.setPairs_resp (d : Dev) (x : Vector Pair 2) : (d.setPairs x).resp = d.resp := rfl
@[simp] theorem Dev.setPairs_heldLow (d : Dev) (x : Vector Pair 2) : (d.setPairs x).heldLow = d.heldLow := rfl
@[simp] theorem Dev.setPairs_capHigh (d : Dev) (x : Vector Pair 2) : (d.setPairs x).capHigh = d.capHigh := rfl
@[simp] theorem Dev.setPairs_evlog (d : Dev) (x : Vector Pair 2) : (d.setPairs x).evlog = d.evlog := rfl
@[simp] theorem Dev.setPairs_out (d : Dev) (x : Vector Pair 2) : (d.setPairs x).out = d.out := rfl
@[simp] theorem Dev.setPairs_wq (d : Dev) (x : Vector Pair 2) : (d.setPairs x).wq = d.wq := rfl
@[simp] theorem Dev.setPairs_lost (d : Dev) (x : Vector Pair 2) : (d.setPairs x).lost = d.lost := rfl
@[simp] theorem Dev.setPairs_vatEpoch (d : Dev) (x : Vector Pair 2) : (d.setPairs x).vatEpoch = d.vatEpoch := rfl
@[simp] theorem Dev.setPairs_dramEpoch (d : Dev) (x : Vector Pair 2) : (d.setPairs x).dramEpoch = d.dramEpoch := rfl
@[simp] theorem Dev.setPairs_freeN (d : Dev) (x : Vector Pair 2) : (d.setPairs x).freeN = d.freeN := rfl
@[simp] theorem Dev.setPairs_stepN (d : Dev) (x : Vector Pair 2) : (d.setPairs x).stepN = d.stepN := rfl
@[simp] theorem Dev.setPairs_vats (d : Dev) (x : Vector Pair 2) : (d.setPairs x).vats = d.vats := rfl
@[simp] theorem Dev.setPairs_slices (d : Dev) (x : Vector Pair 2) : (d.setPairs x).slices = d.slices := rfl
@[simp] theorem Dev.setPairs_segD (d : Dev) (x : Vector Pair 2) : (d.setPairs x).segD = d.segD := rfl
@[simp] theorem Dev.setPairs_segG (d : Dev) (x : Vector Pair 2) : (d.setPairs x).segG = d.segG := rfl
@[simp] theorem Dev.setPairs_slcD (d : Dev) (x : Vector Pair 2) : (d.setPairs x).slcD = d.slcD := rfl
@[simp] theorem Dev.setPairs_slcG (d : Dev) (x : Vector Pair 2) : (d.setPairs x).slcG = d.slcG := rfl
@[simp] theorem Dev.setPairs_passAt (d : Dev) (x : Vector Pair 2) : (d.setPairs x).passAt = d.passAt := rfl
@[simp] theorem Dev.setPairs_govRun (d : Dev) (x : Vector Pair 2) : (d.setPairs x).govRun = d.govRun := rfl
@[simp] theorem Dev.setPairs_railNow (d : Dev) (x : Vector Pair 2) : (d.setPairs x).railNow = d.railNow := rfl
@[simp] theorem Dev.setPairs_hot (d : Dev) (x : Vector Pair 2) : (d.setPairs x).hot = d.hot := rfl
@[simp] theorem Dev.setPairs_relock (d : Dev) (x : Vector Pair 2) : (d.setPairs x).relock = d.relock := rfl
@[simp] theorem Dev.setPairs_sliceCmd (d : Dev) (x : Vector Pair 2) : (d.setPairs x).sliceCmd = d.sliceCmd := rfl
@[simp] theorem Dev.setPairs_rcWait (d : Dev) (x : Vector Pair 2) : (d.setPairs x).rcWait = d.rcWait := rfl
@[simp] theorem Dev.setPairs_sw (d : Dev) (x : Vector Pair 2) : (d.setPairs x).sw = d.sw := rfl
@[simp] theorem Dev.setPairs_jasia (d : Dev) (x : Vector Pair 2) : (d.setPairs x).jasia = d.jasia := rfl
@[simp] theorem Dev.setPairs_ptp (d : Dev) (x : Vector Pair 2) : (d.setPairs x).ptp = d.ptp := rfl
@[simp] theorem Dev.setPairs_can (d : Dev) (x : Vector Pair 2) : (d.setPairs x).can = d.can := rfl
@[simp] theorem Dev.setPairs_cores (d : Dev) (x : Vector Pair 2) : (d.setPairs x).cores = d.cores := rfl
@[simp] theorem Dev.setPairs_l2 (d : Dev) (x : Vector Pair 2) : (d.setPairs x).l2 = d.l2 := rfl
@[simp] theorem Dev.setPairs_l1 (d : Dev) (x : Vector Pair 2) : (d.setPairs x).l1 = d.l1 := rfl
@[simp] theorem Dev.setPairs_perfAt (d : Dev) (x : Vector Pair 2) : (d.setPairs x).perfAt = d.perfAt := rfl
@[simp] theorem Dev.setPairs_qN (d : Dev) (x : Vector Pair 2) : (d.setPairs x).qN = d.qN := rfl
@[simp] theorem Dev.setPairs_qS (d : Dev) (x : Vector Pair 2) : (d.setPairs x).qS = d.qS := rfl
@[simp] theorem Dev.setPairs_mord (d : Dev) (x : Vector Pair 2) : (d.setPairs x).mord = d.mord := rfl
@[simp] theorem Dev.setPairs_dram (d : Dev) (x : Vector Pair 2) : (d.setPairs x).dram = d.dram := rfl
@[simp] theorem Dev.setPairs_aux (d : Dev) (x : Vector Pair 2) : (d.setPairs x).aux = d.aux := rfl
@[simp] theorem Dev.setPairs_auxSum (d : Dev) (x : Vector Pair 2) : (d.setPairs x).auxSum = d.auxSum := rfl
@[simp] theorem Dev.setPairs_mad (d : Dev) (x : Vector Pair 2) : (d.setPairs x).mad = d.mad := rfl
@[simp] theorem Dev.setPairs_link (d : Dev) (x : Vector Pair 2) : (d.setPairs x).link = d.link := rfl
@[simp] theorem Dev.setPairs_sup (d : Dev) (x : Vector Pair 2) : (d.setPairs x).sup = d.sup := rfl
@[simp] theorem Dev.setPairs_dbg (d : Dev) (x : Vector Pair 2) : (d.setPairs x).dbg = d.dbg := rfl
@[simp] theorem Dev.setPairs_fuse (d : Dev) (x : Vector Pair 2) : (d.setPairs x).fuse = d.fuse := rfl
@[simp] theorem Dev.setPairs_f (d : Dev) (x : Vector Pair 2) (r : RF) : (d.setPairs x).f r = d.f r := rfl

/-! ### setMord -/

@[simp] theorem Dev.setMord_regs (d : Dev) (x : Mord) : (d.setMord x).regs = d.regs := rfl
@[simp] theorem Dev.setMord_now (d : Dev) (x : Mord) : (d.setMord x).now = d.now := rfl
@[simp] theorem Dev.setMord_up (d : Dev) (x : Mord) : (d.setMord x).up = d.up := rfl
@[simp] theorem Dev.setMord_upAcc (d : Dev) (x : Mord) : (d.setMord x).upAcc = d.upAcc := rfl
@[simp] theorem Dev.setMord_slewAcc (d : Dev) (x : Mord) : (d.setMord x).slewAcc = d.slewAcc := rfl
@[simp] theorem Dev.setMord_freshAt (d : Dev) (x : Mord) : (d.setMord x).freshAt = d.freshAt := rfl
@[simp] theorem Dev.setMord_fresh (d : Dev) (x : Mord) : (d.setMord x).fresh = d.fresh := rfl
@[simp] theorem Dev.setMord_resp (d : Dev) (x : Mord) : (d.setMord x).resp = d.resp := rfl
@[simp] theorem Dev.setMord_heldLow (d : Dev) (x : Mord) : (d.setMord x).heldLow = d.heldLow := rfl
@[simp] theorem Dev.setMord_capHigh (d : Dev) (x : Mord) : (d.setMord x).capHigh = d.capHigh := rfl
@[simp] theorem Dev.setMord_evlog (d : Dev) (x : Mord) : (d.setMord x).evlog = d.evlog := rfl
@[simp] theorem Dev.setMord_out (d : Dev) (x : Mord) : (d.setMord x).out = d.out := rfl
@[simp] theorem Dev.setMord_wq (d : Dev) (x : Mord) : (d.setMord x).wq = d.wq := rfl
@[simp] theorem Dev.setMord_lost (d : Dev) (x : Mord) : (d.setMord x).lost = d.lost := rfl
@[simp] theorem Dev.setMord_vatEpoch (d : Dev) (x : Mord) : (d.setMord x).vatEpoch = d.vatEpoch := rfl
@[simp] theorem Dev.setMord_dramEpoch (d : Dev) (x : Mord) : (d.setMord x).dramEpoch = d.dramEpoch := rfl
@[simp] theorem Dev.setMord_freeN (d : Dev) (x : Mord) : (d.setMord x).freeN = d.freeN := rfl
@[simp] theorem Dev.setMord_stepN (d : Dev) (x : Mord) : (d.setMord x).stepN = d.stepN := rfl
@[simp] theorem Dev.setMord_vats (d : Dev) (x : Mord) : (d.setMord x).vats = d.vats := rfl
@[simp] theorem Dev.setMord_slices (d : Dev) (x : Mord) : (d.setMord x).slices = d.slices := rfl
@[simp] theorem Dev.setMord_segD (d : Dev) (x : Mord) : (d.setMord x).segD = d.segD := rfl
@[simp] theorem Dev.setMord_segG (d : Dev) (x : Mord) : (d.setMord x).segG = d.segG := rfl
@[simp] theorem Dev.setMord_slcD (d : Dev) (x : Mord) : (d.setMord x).slcD = d.slcD := rfl
@[simp] theorem Dev.setMord_slcG (d : Dev) (x : Mord) : (d.setMord x).slcG = d.slcG := rfl
@[simp] theorem Dev.setMord_passAt (d : Dev) (x : Mord) : (d.setMord x).passAt = d.passAt := rfl
@[simp] theorem Dev.setMord_govRun (d : Dev) (x : Mord) : (d.setMord x).govRun = d.govRun := rfl
@[simp] theorem Dev.setMord_railNow (d : Dev) (x : Mord) : (d.setMord x).railNow = d.railNow := rfl
@[simp] theorem Dev.setMord_hot (d : Dev) (x : Mord) : (d.setMord x).hot = d.hot := rfl
@[simp] theorem Dev.setMord_relock (d : Dev) (x : Mord) : (d.setMord x).relock = d.relock := rfl
@[simp] theorem Dev.setMord_sliceCmd (d : Dev) (x : Mord) : (d.setMord x).sliceCmd = d.sliceCmd := rfl
@[simp] theorem Dev.setMord_rcWait (d : Dev) (x : Mord) : (d.setMord x).rcWait = d.rcWait := rfl
@[simp] theorem Dev.setMord_sw (d : Dev) (x : Mord) : (d.setMord x).sw = d.sw := rfl
@[simp] theorem Dev.setMord_jasia (d : Dev) (x : Mord) : (d.setMord x).jasia = d.jasia := rfl
@[simp] theorem Dev.setMord_ptp (d : Dev) (x : Mord) : (d.setMord x).ptp = d.ptp := rfl
@[simp] theorem Dev.setMord_can (d : Dev) (x : Mord) : (d.setMord x).can = d.can := rfl
@[simp] theorem Dev.setMord_cores (d : Dev) (x : Mord) : (d.setMord x).cores = d.cores := rfl
@[simp] theorem Dev.setMord_l2 (d : Dev) (x : Mord) : (d.setMord x).l2 = d.l2 := rfl
@[simp] theorem Dev.setMord_l1 (d : Dev) (x : Mord) : (d.setMord x).l1 = d.l1 := rfl
@[simp] theorem Dev.setMord_perfAt (d : Dev) (x : Mord) : (d.setMord x).perfAt = d.perfAt := rfl
@[simp] theorem Dev.setMord_qN (d : Dev) (x : Mord) : (d.setMord x).qN = d.qN := rfl
@[simp] theorem Dev.setMord_qS (d : Dev) (x : Mord) : (d.setMord x).qS = d.qS := rfl
@[simp] theorem Dev.setMord_pairs (d : Dev) (x : Mord) : (d.setMord x).pairs = d.pairs := rfl
@[simp] theorem Dev.setMord_dram (d : Dev) (x : Mord) : (d.setMord x).dram = d.dram := rfl
@[simp] theorem Dev.setMord_aux (d : Dev) (x : Mord) : (d.setMord x).aux = d.aux := rfl
@[simp] theorem Dev.setMord_auxSum (d : Dev) (x : Mord) : (d.setMord x).auxSum = d.auxSum := rfl
@[simp] theorem Dev.setMord_mad (d : Dev) (x : Mord) : (d.setMord x).mad = d.mad := rfl
@[simp] theorem Dev.setMord_link (d : Dev) (x : Mord) : (d.setMord x).link = d.link := rfl
@[simp] theorem Dev.setMord_sup (d : Dev) (x : Mord) : (d.setMord x).sup = d.sup := rfl
@[simp] theorem Dev.setMord_dbg (d : Dev) (x : Mord) : (d.setMord x).dbg = d.dbg := rfl
@[simp] theorem Dev.setMord_fuse (d : Dev) (x : Mord) : (d.setMord x).fuse = d.fuse := rfl
@[simp] theorem Dev.setMord_f (d : Dev) (x : Mord) (r : RF) : (d.setMord x).f r = d.f r := rfl

/-! ### setDram -/

@[simp] theorem Dev.setDram_regs (d : Dev) (x : Dram) : (d.setDram x).regs = d.regs := rfl
@[simp] theorem Dev.setDram_now (d : Dev) (x : Dram) : (d.setDram x).now = d.now := rfl
@[simp] theorem Dev.setDram_up (d : Dev) (x : Dram) : (d.setDram x).up = d.up := rfl
@[simp] theorem Dev.setDram_upAcc (d : Dev) (x : Dram) : (d.setDram x).upAcc = d.upAcc := rfl
@[simp] theorem Dev.setDram_slewAcc (d : Dev) (x : Dram) : (d.setDram x).slewAcc = d.slewAcc := rfl
@[simp] theorem Dev.setDram_freshAt (d : Dev) (x : Dram) : (d.setDram x).freshAt = d.freshAt := rfl
@[simp] theorem Dev.setDram_fresh (d : Dev) (x : Dram) : (d.setDram x).fresh = d.fresh := rfl
@[simp] theorem Dev.setDram_resp (d : Dev) (x : Dram) : (d.setDram x).resp = d.resp := rfl
@[simp] theorem Dev.setDram_heldLow (d : Dev) (x : Dram) : (d.setDram x).heldLow = d.heldLow := rfl
@[simp] theorem Dev.setDram_capHigh (d : Dev) (x : Dram) : (d.setDram x).capHigh = d.capHigh := rfl
@[simp] theorem Dev.setDram_evlog (d : Dev) (x : Dram) : (d.setDram x).evlog = d.evlog := rfl
@[simp] theorem Dev.setDram_out (d : Dev) (x : Dram) : (d.setDram x).out = d.out := rfl
@[simp] theorem Dev.setDram_wq (d : Dev) (x : Dram) : (d.setDram x).wq = d.wq := rfl
@[simp] theorem Dev.setDram_lost (d : Dev) (x : Dram) : (d.setDram x).lost = d.lost := rfl
@[simp] theorem Dev.setDram_vatEpoch (d : Dev) (x : Dram) : (d.setDram x).vatEpoch = d.vatEpoch := rfl
@[simp] theorem Dev.setDram_dramEpoch (d : Dev) (x : Dram) : (d.setDram x).dramEpoch = d.dramEpoch := rfl
@[simp] theorem Dev.setDram_freeN (d : Dev) (x : Dram) : (d.setDram x).freeN = d.freeN := rfl
@[simp] theorem Dev.setDram_stepN (d : Dev) (x : Dram) : (d.setDram x).stepN = d.stepN := rfl
@[simp] theorem Dev.setDram_vats (d : Dev) (x : Dram) : (d.setDram x).vats = d.vats := rfl
@[simp] theorem Dev.setDram_slices (d : Dev) (x : Dram) : (d.setDram x).slices = d.slices := rfl
@[simp] theorem Dev.setDram_segD (d : Dev) (x : Dram) : (d.setDram x).segD = d.segD := rfl
@[simp] theorem Dev.setDram_segG (d : Dev) (x : Dram) : (d.setDram x).segG = d.segG := rfl
@[simp] theorem Dev.setDram_slcD (d : Dev) (x : Dram) : (d.setDram x).slcD = d.slcD := rfl
@[simp] theorem Dev.setDram_slcG (d : Dev) (x : Dram) : (d.setDram x).slcG = d.slcG := rfl
@[simp] theorem Dev.setDram_passAt (d : Dev) (x : Dram) : (d.setDram x).passAt = d.passAt := rfl
@[simp] theorem Dev.setDram_govRun (d : Dev) (x : Dram) : (d.setDram x).govRun = d.govRun := rfl
@[simp] theorem Dev.setDram_railNow (d : Dev) (x : Dram) : (d.setDram x).railNow = d.railNow := rfl
@[simp] theorem Dev.setDram_hot (d : Dev) (x : Dram) : (d.setDram x).hot = d.hot := rfl
@[simp] theorem Dev.setDram_relock (d : Dev) (x : Dram) : (d.setDram x).relock = d.relock := rfl
@[simp] theorem Dev.setDram_sliceCmd (d : Dev) (x : Dram) : (d.setDram x).sliceCmd = d.sliceCmd := rfl
@[simp] theorem Dev.setDram_rcWait (d : Dev) (x : Dram) : (d.setDram x).rcWait = d.rcWait := rfl
@[simp] theorem Dev.setDram_sw (d : Dev) (x : Dram) : (d.setDram x).sw = d.sw := rfl
@[simp] theorem Dev.setDram_jasia (d : Dev) (x : Dram) : (d.setDram x).jasia = d.jasia := rfl
@[simp] theorem Dev.setDram_ptp (d : Dev) (x : Dram) : (d.setDram x).ptp = d.ptp := rfl
@[simp] theorem Dev.setDram_can (d : Dev) (x : Dram) : (d.setDram x).can = d.can := rfl
@[simp] theorem Dev.setDram_cores (d : Dev) (x : Dram) : (d.setDram x).cores = d.cores := rfl
@[simp] theorem Dev.setDram_l2 (d : Dev) (x : Dram) : (d.setDram x).l2 = d.l2 := rfl
@[simp] theorem Dev.setDram_l1 (d : Dev) (x : Dram) : (d.setDram x).l1 = d.l1 := rfl
@[simp] theorem Dev.setDram_perfAt (d : Dev) (x : Dram) : (d.setDram x).perfAt = d.perfAt := rfl
@[simp] theorem Dev.setDram_qN (d : Dev) (x : Dram) : (d.setDram x).qN = d.qN := rfl
@[simp] theorem Dev.setDram_qS (d : Dev) (x : Dram) : (d.setDram x).qS = d.qS := rfl
@[simp] theorem Dev.setDram_pairs (d : Dev) (x : Dram) : (d.setDram x).pairs = d.pairs := rfl
@[simp] theorem Dev.setDram_mord (d : Dev) (x : Dram) : (d.setDram x).mord = d.mord := rfl
@[simp] theorem Dev.setDram_aux (d : Dev) (x : Dram) : (d.setDram x).aux = d.aux := rfl
@[simp] theorem Dev.setDram_auxSum (d : Dev) (x : Dram) : (d.setDram x).auxSum = d.auxSum := rfl
@[simp] theorem Dev.setDram_mad (d : Dev) (x : Dram) : (d.setDram x).mad = d.mad := rfl
@[simp] theorem Dev.setDram_link (d : Dev) (x : Dram) : (d.setDram x).link = d.link := rfl
@[simp] theorem Dev.setDram_sup (d : Dev) (x : Dram) : (d.setDram x).sup = d.sup := rfl
@[simp] theorem Dev.setDram_dbg (d : Dev) (x : Dram) : (d.setDram x).dbg = d.dbg := rfl
@[simp] theorem Dev.setDram_fuse (d : Dev) (x : Dram) : (d.setDram x).fuse = d.fuse := rfl
@[simp] theorem Dev.setDram_f (d : Dev) (x : Dram) (r : RF) : (d.setDram x).f r = d.f r := rfl

/-! ### setAux -/

@[simp] theorem Dev.setAux_regs (d : Dev) (x : Vector Aux 24) : (d.setAux x).regs = d.regs := rfl
@[simp] theorem Dev.setAux_now (d : Dev) (x : Vector Aux 24) : (d.setAux x).now = d.now := rfl
@[simp] theorem Dev.setAux_up (d : Dev) (x : Vector Aux 24) : (d.setAux x).up = d.up := rfl
@[simp] theorem Dev.setAux_upAcc (d : Dev) (x : Vector Aux 24) : (d.setAux x).upAcc = d.upAcc := rfl
@[simp] theorem Dev.setAux_slewAcc (d : Dev) (x : Vector Aux 24) : (d.setAux x).slewAcc = d.slewAcc := rfl
@[simp] theorem Dev.setAux_freshAt (d : Dev) (x : Vector Aux 24) : (d.setAux x).freshAt = d.freshAt := rfl
@[simp] theorem Dev.setAux_fresh (d : Dev) (x : Vector Aux 24) : (d.setAux x).fresh = d.fresh := rfl
@[simp] theorem Dev.setAux_resp (d : Dev) (x : Vector Aux 24) : (d.setAux x).resp = d.resp := rfl
@[simp] theorem Dev.setAux_heldLow (d : Dev) (x : Vector Aux 24) : (d.setAux x).heldLow = d.heldLow := rfl
@[simp] theorem Dev.setAux_capHigh (d : Dev) (x : Vector Aux 24) : (d.setAux x).capHigh = d.capHigh := rfl
@[simp] theorem Dev.setAux_evlog (d : Dev) (x : Vector Aux 24) : (d.setAux x).evlog = d.evlog := rfl
@[simp] theorem Dev.setAux_out (d : Dev) (x : Vector Aux 24) : (d.setAux x).out = d.out := rfl
@[simp] theorem Dev.setAux_wq (d : Dev) (x : Vector Aux 24) : (d.setAux x).wq = d.wq := rfl
@[simp] theorem Dev.setAux_lost (d : Dev) (x : Vector Aux 24) : (d.setAux x).lost = d.lost := rfl
@[simp] theorem Dev.setAux_vatEpoch (d : Dev) (x : Vector Aux 24) : (d.setAux x).vatEpoch = d.vatEpoch := rfl
@[simp] theorem Dev.setAux_dramEpoch (d : Dev) (x : Vector Aux 24) : (d.setAux x).dramEpoch = d.dramEpoch := rfl
@[simp] theorem Dev.setAux_freeN (d : Dev) (x : Vector Aux 24) : (d.setAux x).freeN = d.freeN := rfl
@[simp] theorem Dev.setAux_stepN (d : Dev) (x : Vector Aux 24) : (d.setAux x).stepN = d.stepN := rfl
@[simp] theorem Dev.setAux_vats (d : Dev) (x : Vector Aux 24) : (d.setAux x).vats = d.vats := rfl
@[simp] theorem Dev.setAux_slices (d : Dev) (x : Vector Aux 24) : (d.setAux x).slices = d.slices := rfl
@[simp] theorem Dev.setAux_segD (d : Dev) (x : Vector Aux 24) : (d.setAux x).segD = d.segD := rfl
@[simp] theorem Dev.setAux_segG (d : Dev) (x : Vector Aux 24) : (d.setAux x).segG = d.segG := rfl
@[simp] theorem Dev.setAux_slcD (d : Dev) (x : Vector Aux 24) : (d.setAux x).slcD = d.slcD := rfl
@[simp] theorem Dev.setAux_slcG (d : Dev) (x : Vector Aux 24) : (d.setAux x).slcG = d.slcG := rfl
@[simp] theorem Dev.setAux_passAt (d : Dev) (x : Vector Aux 24) : (d.setAux x).passAt = d.passAt := rfl
@[simp] theorem Dev.setAux_govRun (d : Dev) (x : Vector Aux 24) : (d.setAux x).govRun = d.govRun := rfl
@[simp] theorem Dev.setAux_railNow (d : Dev) (x : Vector Aux 24) : (d.setAux x).railNow = d.railNow := rfl
@[simp] theorem Dev.setAux_hot (d : Dev) (x : Vector Aux 24) : (d.setAux x).hot = d.hot := rfl
@[simp] theorem Dev.setAux_relock (d : Dev) (x : Vector Aux 24) : (d.setAux x).relock = d.relock := rfl
@[simp] theorem Dev.setAux_sliceCmd (d : Dev) (x : Vector Aux 24) : (d.setAux x).sliceCmd = d.sliceCmd := rfl
@[simp] theorem Dev.setAux_rcWait (d : Dev) (x : Vector Aux 24) : (d.setAux x).rcWait = d.rcWait := rfl
@[simp] theorem Dev.setAux_sw (d : Dev) (x : Vector Aux 24) : (d.setAux x).sw = d.sw := rfl
@[simp] theorem Dev.setAux_jasia (d : Dev) (x : Vector Aux 24) : (d.setAux x).jasia = d.jasia := rfl
@[simp] theorem Dev.setAux_ptp (d : Dev) (x : Vector Aux 24) : (d.setAux x).ptp = d.ptp := rfl
@[simp] theorem Dev.setAux_can (d : Dev) (x : Vector Aux 24) : (d.setAux x).can = d.can := rfl
@[simp] theorem Dev.setAux_cores (d : Dev) (x : Vector Aux 24) : (d.setAux x).cores = d.cores := rfl
@[simp] theorem Dev.setAux_l2 (d : Dev) (x : Vector Aux 24) : (d.setAux x).l2 = d.l2 := rfl
@[simp] theorem Dev.setAux_l1 (d : Dev) (x : Vector Aux 24) : (d.setAux x).l1 = d.l1 := rfl
@[simp] theorem Dev.setAux_perfAt (d : Dev) (x : Vector Aux 24) : (d.setAux x).perfAt = d.perfAt := rfl
@[simp] theorem Dev.setAux_qN (d : Dev) (x : Vector Aux 24) : (d.setAux x).qN = d.qN := rfl
@[simp] theorem Dev.setAux_qS (d : Dev) (x : Vector Aux 24) : (d.setAux x).qS = d.qS := rfl
@[simp] theorem Dev.setAux_pairs (d : Dev) (x : Vector Aux 24) : (d.setAux x).pairs = d.pairs := rfl
@[simp] theorem Dev.setAux_mord (d : Dev) (x : Vector Aux 24) : (d.setAux x).mord = d.mord := rfl
@[simp] theorem Dev.setAux_dram (d : Dev) (x : Vector Aux 24) : (d.setAux x).dram = d.dram := rfl
@[simp] theorem Dev.setAux_auxSum (d : Dev) (x : Vector Aux 24) : (d.setAux x).auxSum = d.auxSum := rfl
@[simp] theorem Dev.setAux_mad (d : Dev) (x : Vector Aux 24) : (d.setAux x).mad = d.mad := rfl
@[simp] theorem Dev.setAux_link (d : Dev) (x : Vector Aux 24) : (d.setAux x).link = d.link := rfl
@[simp] theorem Dev.setAux_sup (d : Dev) (x : Vector Aux 24) : (d.setAux x).sup = d.sup := rfl
@[simp] theorem Dev.setAux_dbg (d : Dev) (x : Vector Aux 24) : (d.setAux x).dbg = d.dbg := rfl
@[simp] theorem Dev.setAux_fuse (d : Dev) (x : Vector Aux 24) : (d.setAux x).fuse = d.fuse := rfl
@[simp] theorem Dev.setAux_f (d : Dev) (x : Vector Aux 24) (r : RF) : (d.setAux x).f r = d.f r := rfl

/-! ### setAuxSum -/

@[simp] theorem Dev.setAuxSum_regs (d : Dev) (x : List Nat) : (d.setAuxSum x).regs = d.regs := rfl
@[simp] theorem Dev.setAuxSum_now (d : Dev) (x : List Nat) : (d.setAuxSum x).now = d.now := rfl
@[simp] theorem Dev.setAuxSum_up (d : Dev) (x : List Nat) : (d.setAuxSum x).up = d.up := rfl
@[simp] theorem Dev.setAuxSum_upAcc (d : Dev) (x : List Nat) : (d.setAuxSum x).upAcc = d.upAcc := rfl
@[simp] theorem Dev.setAuxSum_slewAcc (d : Dev) (x : List Nat) : (d.setAuxSum x).slewAcc = d.slewAcc := rfl
@[simp] theorem Dev.setAuxSum_freshAt (d : Dev) (x : List Nat) : (d.setAuxSum x).freshAt = d.freshAt := rfl
@[simp] theorem Dev.setAuxSum_fresh (d : Dev) (x : List Nat) : (d.setAuxSum x).fresh = d.fresh := rfl
@[simp] theorem Dev.setAuxSum_resp (d : Dev) (x : List Nat) : (d.setAuxSum x).resp = d.resp := rfl
@[simp] theorem Dev.setAuxSum_heldLow (d : Dev) (x : List Nat) : (d.setAuxSum x).heldLow = d.heldLow := rfl
@[simp] theorem Dev.setAuxSum_capHigh (d : Dev) (x : List Nat) : (d.setAuxSum x).capHigh = d.capHigh := rfl
@[simp] theorem Dev.setAuxSum_evlog (d : Dev) (x : List Nat) : (d.setAuxSum x).evlog = d.evlog := rfl
@[simp] theorem Dev.setAuxSum_out (d : Dev) (x : List Nat) : (d.setAuxSum x).out = d.out := rfl
@[simp] theorem Dev.setAuxSum_wq (d : Dev) (x : List Nat) : (d.setAuxSum x).wq = d.wq := rfl
@[simp] theorem Dev.setAuxSum_lost (d : Dev) (x : List Nat) : (d.setAuxSum x).lost = d.lost := rfl
@[simp] theorem Dev.setAuxSum_vatEpoch (d : Dev) (x : List Nat) : (d.setAuxSum x).vatEpoch = d.vatEpoch := rfl
@[simp] theorem Dev.setAuxSum_dramEpoch (d : Dev) (x : List Nat) : (d.setAuxSum x).dramEpoch = d.dramEpoch := rfl
@[simp] theorem Dev.setAuxSum_freeN (d : Dev) (x : List Nat) : (d.setAuxSum x).freeN = d.freeN := rfl
@[simp] theorem Dev.setAuxSum_stepN (d : Dev) (x : List Nat) : (d.setAuxSum x).stepN = d.stepN := rfl
@[simp] theorem Dev.setAuxSum_vats (d : Dev) (x : List Nat) : (d.setAuxSum x).vats = d.vats := rfl
@[simp] theorem Dev.setAuxSum_slices (d : Dev) (x : List Nat) : (d.setAuxSum x).slices = d.slices := rfl
@[simp] theorem Dev.setAuxSum_segD (d : Dev) (x : List Nat) : (d.setAuxSum x).segD = d.segD := rfl
@[simp] theorem Dev.setAuxSum_segG (d : Dev) (x : List Nat) : (d.setAuxSum x).segG = d.segG := rfl
@[simp] theorem Dev.setAuxSum_slcD (d : Dev) (x : List Nat) : (d.setAuxSum x).slcD = d.slcD := rfl
@[simp] theorem Dev.setAuxSum_slcG (d : Dev) (x : List Nat) : (d.setAuxSum x).slcG = d.slcG := rfl
@[simp] theorem Dev.setAuxSum_passAt (d : Dev) (x : List Nat) : (d.setAuxSum x).passAt = d.passAt := rfl
@[simp] theorem Dev.setAuxSum_govRun (d : Dev) (x : List Nat) : (d.setAuxSum x).govRun = d.govRun := rfl
@[simp] theorem Dev.setAuxSum_railNow (d : Dev) (x : List Nat) : (d.setAuxSum x).railNow = d.railNow := rfl
@[simp] theorem Dev.setAuxSum_hot (d : Dev) (x : List Nat) : (d.setAuxSum x).hot = d.hot := rfl
@[simp] theorem Dev.setAuxSum_relock (d : Dev) (x : List Nat) : (d.setAuxSum x).relock = d.relock := rfl
@[simp] theorem Dev.setAuxSum_sliceCmd (d : Dev) (x : List Nat) : (d.setAuxSum x).sliceCmd = d.sliceCmd := rfl
@[simp] theorem Dev.setAuxSum_rcWait (d : Dev) (x : List Nat) : (d.setAuxSum x).rcWait = d.rcWait := rfl
@[simp] theorem Dev.setAuxSum_sw (d : Dev) (x : List Nat) : (d.setAuxSum x).sw = d.sw := rfl
@[simp] theorem Dev.setAuxSum_jasia (d : Dev) (x : List Nat) : (d.setAuxSum x).jasia = d.jasia := rfl
@[simp] theorem Dev.setAuxSum_ptp (d : Dev) (x : List Nat) : (d.setAuxSum x).ptp = d.ptp := rfl
@[simp] theorem Dev.setAuxSum_can (d : Dev) (x : List Nat) : (d.setAuxSum x).can = d.can := rfl
@[simp] theorem Dev.setAuxSum_cores (d : Dev) (x : List Nat) : (d.setAuxSum x).cores = d.cores := rfl
@[simp] theorem Dev.setAuxSum_l2 (d : Dev) (x : List Nat) : (d.setAuxSum x).l2 = d.l2 := rfl
@[simp] theorem Dev.setAuxSum_l1 (d : Dev) (x : List Nat) : (d.setAuxSum x).l1 = d.l1 := rfl
@[simp] theorem Dev.setAuxSum_perfAt (d : Dev) (x : List Nat) : (d.setAuxSum x).perfAt = d.perfAt := rfl
@[simp] theorem Dev.setAuxSum_qN (d : Dev) (x : List Nat) : (d.setAuxSum x).qN = d.qN := rfl
@[simp] theorem Dev.setAuxSum_qS (d : Dev) (x : List Nat) : (d.setAuxSum x).qS = d.qS := rfl
@[simp] theorem Dev.setAuxSum_pairs (d : Dev) (x : List Nat) : (d.setAuxSum x).pairs = d.pairs := rfl
@[simp] theorem Dev.setAuxSum_mord (d : Dev) (x : List Nat) : (d.setAuxSum x).mord = d.mord := rfl
@[simp] theorem Dev.setAuxSum_dram (d : Dev) (x : List Nat) : (d.setAuxSum x).dram = d.dram := rfl
@[simp] theorem Dev.setAuxSum_aux (d : Dev) (x : List Nat) : (d.setAuxSum x).aux = d.aux := rfl
@[simp] theorem Dev.setAuxSum_mad (d : Dev) (x : List Nat) : (d.setAuxSum x).mad = d.mad := rfl
@[simp] theorem Dev.setAuxSum_link (d : Dev) (x : List Nat) : (d.setAuxSum x).link = d.link := rfl
@[simp] theorem Dev.setAuxSum_sup (d : Dev) (x : List Nat) : (d.setAuxSum x).sup = d.sup := rfl
@[simp] theorem Dev.setAuxSum_dbg (d : Dev) (x : List Nat) : (d.setAuxSum x).dbg = d.dbg := rfl
@[simp] theorem Dev.setAuxSum_fuse (d : Dev) (x : List Nat) : (d.setAuxSum x).fuse = d.fuse := rfl
@[simp] theorem Dev.setAuxSum_f (d : Dev) (x : List Nat) (r : RF) : (d.setAuxSum x).f r = d.f r := rfl

/-! ### setLink -/

@[simp] theorem Dev.setLink_regs (d : Dev) (x : List LinkEvent) : (d.setLink x).regs = d.regs := rfl
@[simp] theorem Dev.setLink_now (d : Dev) (x : List LinkEvent) : (d.setLink x).now = d.now := rfl
@[simp] theorem Dev.setLink_up (d : Dev) (x : List LinkEvent) : (d.setLink x).up = d.up := rfl
@[simp] theorem Dev.setLink_upAcc (d : Dev) (x : List LinkEvent) : (d.setLink x).upAcc = d.upAcc := rfl
@[simp] theorem Dev.setLink_slewAcc (d : Dev) (x : List LinkEvent) : (d.setLink x).slewAcc = d.slewAcc := rfl
@[simp] theorem Dev.setLink_freshAt (d : Dev) (x : List LinkEvent) : (d.setLink x).freshAt = d.freshAt := rfl
@[simp] theorem Dev.setLink_fresh (d : Dev) (x : List LinkEvent) : (d.setLink x).fresh = d.fresh := rfl
@[simp] theorem Dev.setLink_resp (d : Dev) (x : List LinkEvent) : (d.setLink x).resp = d.resp := rfl
@[simp] theorem Dev.setLink_heldLow (d : Dev) (x : List LinkEvent) : (d.setLink x).heldLow = d.heldLow := rfl
@[simp] theorem Dev.setLink_capHigh (d : Dev) (x : List LinkEvent) : (d.setLink x).capHigh = d.capHigh := rfl
@[simp] theorem Dev.setLink_evlog (d : Dev) (x : List LinkEvent) : (d.setLink x).evlog = d.evlog := rfl
@[simp] theorem Dev.setLink_out (d : Dev) (x : List LinkEvent) : (d.setLink x).out = d.out := rfl
@[simp] theorem Dev.setLink_wq (d : Dev) (x : List LinkEvent) : (d.setLink x).wq = d.wq := rfl
@[simp] theorem Dev.setLink_lost (d : Dev) (x : List LinkEvent) : (d.setLink x).lost = d.lost := rfl
@[simp] theorem Dev.setLink_vatEpoch (d : Dev) (x : List LinkEvent) : (d.setLink x).vatEpoch = d.vatEpoch := rfl
@[simp] theorem Dev.setLink_dramEpoch (d : Dev) (x : List LinkEvent) : (d.setLink x).dramEpoch = d.dramEpoch := rfl
@[simp] theorem Dev.setLink_freeN (d : Dev) (x : List LinkEvent) : (d.setLink x).freeN = d.freeN := rfl
@[simp] theorem Dev.setLink_stepN (d : Dev) (x : List LinkEvent) : (d.setLink x).stepN = d.stepN := rfl
@[simp] theorem Dev.setLink_vats (d : Dev) (x : List LinkEvent) : (d.setLink x).vats = d.vats := rfl
@[simp] theorem Dev.setLink_slices (d : Dev) (x : List LinkEvent) : (d.setLink x).slices = d.slices := rfl
@[simp] theorem Dev.setLink_segD (d : Dev) (x : List LinkEvent) : (d.setLink x).segD = d.segD := rfl
@[simp] theorem Dev.setLink_segG (d : Dev) (x : List LinkEvent) : (d.setLink x).segG = d.segG := rfl
@[simp] theorem Dev.setLink_slcD (d : Dev) (x : List LinkEvent) : (d.setLink x).slcD = d.slcD := rfl
@[simp] theorem Dev.setLink_slcG (d : Dev) (x : List LinkEvent) : (d.setLink x).slcG = d.slcG := rfl
@[simp] theorem Dev.setLink_passAt (d : Dev) (x : List LinkEvent) : (d.setLink x).passAt = d.passAt := rfl
@[simp] theorem Dev.setLink_govRun (d : Dev) (x : List LinkEvent) : (d.setLink x).govRun = d.govRun := rfl
@[simp] theorem Dev.setLink_railNow (d : Dev) (x : List LinkEvent) : (d.setLink x).railNow = d.railNow := rfl
@[simp] theorem Dev.setLink_hot (d : Dev) (x : List LinkEvent) : (d.setLink x).hot = d.hot := rfl
@[simp] theorem Dev.setLink_relock (d : Dev) (x : List LinkEvent) : (d.setLink x).relock = d.relock := rfl
@[simp] theorem Dev.setLink_sliceCmd (d : Dev) (x : List LinkEvent) : (d.setLink x).sliceCmd = d.sliceCmd := rfl
@[simp] theorem Dev.setLink_rcWait (d : Dev) (x : List LinkEvent) : (d.setLink x).rcWait = d.rcWait := rfl
@[simp] theorem Dev.setLink_sw (d : Dev) (x : List LinkEvent) : (d.setLink x).sw = d.sw := rfl
@[simp] theorem Dev.setLink_jasia (d : Dev) (x : List LinkEvent) : (d.setLink x).jasia = d.jasia := rfl
@[simp] theorem Dev.setLink_ptp (d : Dev) (x : List LinkEvent) : (d.setLink x).ptp = d.ptp := rfl
@[simp] theorem Dev.setLink_can (d : Dev) (x : List LinkEvent) : (d.setLink x).can = d.can := rfl
@[simp] theorem Dev.setLink_cores (d : Dev) (x : List LinkEvent) : (d.setLink x).cores = d.cores := rfl
@[simp] theorem Dev.setLink_l2 (d : Dev) (x : List LinkEvent) : (d.setLink x).l2 = d.l2 := rfl
@[simp] theorem Dev.setLink_l1 (d : Dev) (x : List LinkEvent) : (d.setLink x).l1 = d.l1 := rfl
@[simp] theorem Dev.setLink_perfAt (d : Dev) (x : List LinkEvent) : (d.setLink x).perfAt = d.perfAt := rfl
@[simp] theorem Dev.setLink_qN (d : Dev) (x : List LinkEvent) : (d.setLink x).qN = d.qN := rfl
@[simp] theorem Dev.setLink_qS (d : Dev) (x : List LinkEvent) : (d.setLink x).qS = d.qS := rfl
@[simp] theorem Dev.setLink_pairs (d : Dev) (x : List LinkEvent) : (d.setLink x).pairs = d.pairs := rfl
@[simp] theorem Dev.setLink_mord (d : Dev) (x : List LinkEvent) : (d.setLink x).mord = d.mord := rfl
@[simp] theorem Dev.setLink_dram (d : Dev) (x : List LinkEvent) : (d.setLink x).dram = d.dram := rfl
@[simp] theorem Dev.setLink_aux (d : Dev) (x : List LinkEvent) : (d.setLink x).aux = d.aux := rfl
@[simp] theorem Dev.setLink_auxSum (d : Dev) (x : List LinkEvent) : (d.setLink x).auxSum = d.auxSum := rfl
@[simp] theorem Dev.setLink_mad (d : Dev) (x : List LinkEvent) : (d.setLink x).mad = d.mad := rfl
@[simp] theorem Dev.setLink_sup (d : Dev) (x : List LinkEvent) : (d.setLink x).sup = d.sup := rfl
@[simp] theorem Dev.setLink_dbg (d : Dev) (x : List LinkEvent) : (d.setLink x).dbg = d.dbg := rfl
@[simp] theorem Dev.setLink_fuse (d : Dev) (x : List LinkEvent) : (d.setLink x).fuse = d.fuse := rfl
@[simp] theorem Dev.setLink_f (d : Dev) (x : List LinkEvent) (r : RF) : (d.setLink x).f r = d.f r := rfl

/-! ### setMad -/

@[simp] theorem Dev.setMad_regs (d : Dev) (x : Mad) : (d.setMad x).regs = d.regs := rfl
@[simp] theorem Dev.setMad_now (d : Dev) (x : Mad) : (d.setMad x).now = d.now := rfl
@[simp] theorem Dev.setMad_up (d : Dev) (x : Mad) : (d.setMad x).up = d.up := rfl
@[simp] theorem Dev.setMad_upAcc (d : Dev) (x : Mad) : (d.setMad x).upAcc = d.upAcc := rfl
@[simp] theorem Dev.setMad_slewAcc (d : Dev) (x : Mad) : (d.setMad x).slewAcc = d.slewAcc := rfl
@[simp] theorem Dev.setMad_freshAt (d : Dev) (x : Mad) : (d.setMad x).freshAt = d.freshAt := rfl
@[simp] theorem Dev.setMad_fresh (d : Dev) (x : Mad) : (d.setMad x).fresh = d.fresh := rfl
@[simp] theorem Dev.setMad_resp (d : Dev) (x : Mad) : (d.setMad x).resp = d.resp := rfl
@[simp] theorem Dev.setMad_heldLow (d : Dev) (x : Mad) : (d.setMad x).heldLow = d.heldLow := rfl
@[simp] theorem Dev.setMad_capHigh (d : Dev) (x : Mad) : (d.setMad x).capHigh = d.capHigh := rfl
@[simp] theorem Dev.setMad_evlog (d : Dev) (x : Mad) : (d.setMad x).evlog = d.evlog := rfl
@[simp] theorem Dev.setMad_out (d : Dev) (x : Mad) : (d.setMad x).out = d.out := rfl
@[simp] theorem Dev.setMad_wq (d : Dev) (x : Mad) : (d.setMad x).wq = d.wq := rfl
@[simp] theorem Dev.setMad_lost (d : Dev) (x : Mad) : (d.setMad x).lost = d.lost := rfl
@[simp] theorem Dev.setMad_vatEpoch (d : Dev) (x : Mad) : (d.setMad x).vatEpoch = d.vatEpoch := rfl
@[simp] theorem Dev.setMad_dramEpoch (d : Dev) (x : Mad) : (d.setMad x).dramEpoch = d.dramEpoch := rfl
@[simp] theorem Dev.setMad_freeN (d : Dev) (x : Mad) : (d.setMad x).freeN = d.freeN := rfl
@[simp] theorem Dev.setMad_stepN (d : Dev) (x : Mad) : (d.setMad x).stepN = d.stepN := rfl
@[simp] theorem Dev.setMad_vats (d : Dev) (x : Mad) : (d.setMad x).vats = d.vats := rfl
@[simp] theorem Dev.setMad_slices (d : Dev) (x : Mad) : (d.setMad x).slices = d.slices := rfl
@[simp] theorem Dev.setMad_segD (d : Dev) (x : Mad) : (d.setMad x).segD = d.segD := rfl
@[simp] theorem Dev.setMad_segG (d : Dev) (x : Mad) : (d.setMad x).segG = d.segG := rfl
@[simp] theorem Dev.setMad_slcD (d : Dev) (x : Mad) : (d.setMad x).slcD = d.slcD := rfl
@[simp] theorem Dev.setMad_slcG (d : Dev) (x : Mad) : (d.setMad x).slcG = d.slcG := rfl
@[simp] theorem Dev.setMad_passAt (d : Dev) (x : Mad) : (d.setMad x).passAt = d.passAt := rfl
@[simp] theorem Dev.setMad_govRun (d : Dev) (x : Mad) : (d.setMad x).govRun = d.govRun := rfl
@[simp] theorem Dev.setMad_railNow (d : Dev) (x : Mad) : (d.setMad x).railNow = d.railNow := rfl
@[simp] theorem Dev.setMad_hot (d : Dev) (x : Mad) : (d.setMad x).hot = d.hot := rfl
@[simp] theorem Dev.setMad_relock (d : Dev) (x : Mad) : (d.setMad x).relock = d.relock := rfl
@[simp] theorem Dev.setMad_sliceCmd (d : Dev) (x : Mad) : (d.setMad x).sliceCmd = d.sliceCmd := rfl
@[simp] theorem Dev.setMad_rcWait (d : Dev) (x : Mad) : (d.setMad x).rcWait = d.rcWait := rfl
@[simp] theorem Dev.setMad_sw (d : Dev) (x : Mad) : (d.setMad x).sw = d.sw := rfl
@[simp] theorem Dev.setMad_jasia (d : Dev) (x : Mad) : (d.setMad x).jasia = d.jasia := rfl
@[simp] theorem Dev.setMad_ptp (d : Dev) (x : Mad) : (d.setMad x).ptp = d.ptp := rfl
@[simp] theorem Dev.setMad_can (d : Dev) (x : Mad) : (d.setMad x).can = d.can := rfl
@[simp] theorem Dev.setMad_cores (d : Dev) (x : Mad) : (d.setMad x).cores = d.cores := rfl
@[simp] theorem Dev.setMad_l2 (d : Dev) (x : Mad) : (d.setMad x).l2 = d.l2 := rfl
@[simp] theorem Dev.setMad_l1 (d : Dev) (x : Mad) : (d.setMad x).l1 = d.l1 := rfl
@[simp] theorem Dev.setMad_perfAt (d : Dev) (x : Mad) : (d.setMad x).perfAt = d.perfAt := rfl
@[simp] theorem Dev.setMad_qN (d : Dev) (x : Mad) : (d.setMad x).qN = d.qN := rfl
@[simp] theorem Dev.setMad_qS (d : Dev) (x : Mad) : (d.setMad x).qS = d.qS := rfl
@[simp] theorem Dev.setMad_pairs (d : Dev) (x : Mad) : (d.setMad x).pairs = d.pairs := rfl
@[simp] theorem Dev.setMad_mord (d : Dev) (x : Mad) : (d.setMad x).mord = d.mord := rfl
@[simp] theorem Dev.setMad_dram (d : Dev) (x : Mad) : (d.setMad x).dram = d.dram := rfl
@[simp] theorem Dev.setMad_aux (d : Dev) (x : Mad) : (d.setMad x).aux = d.aux := rfl
@[simp] theorem Dev.setMad_auxSum (d : Dev) (x : Mad) : (d.setMad x).auxSum = d.auxSum := rfl
@[simp] theorem Dev.setMad_link (d : Dev) (x : Mad) : (d.setMad x).link = d.link := rfl
@[simp] theorem Dev.setMad_sup (d : Dev) (x : Mad) : (d.setMad x).sup = d.sup := rfl
@[simp] theorem Dev.setMad_dbg (d : Dev) (x : Mad) : (d.setMad x).dbg = d.dbg := rfl
@[simp] theorem Dev.setMad_fuse (d : Dev) (x : Mad) : (d.setMad x).fuse = d.fuse := rfl
@[simp] theorem Dev.setMad_f (d : Dev) (x : Mad) (r : RF) : (d.setMad x).f r = d.f r := rfl

/-! ### setSup -/

@[simp] theorem Dev.setSup_regs (d : Dev) (x : Sup) : (d.setSup x).regs = d.regs := rfl
@[simp] theorem Dev.setSup_now (d : Dev) (x : Sup) : (d.setSup x).now = d.now := rfl
@[simp] theorem Dev.setSup_up (d : Dev) (x : Sup) : (d.setSup x).up = d.up := rfl
@[simp] theorem Dev.setSup_upAcc (d : Dev) (x : Sup) : (d.setSup x).upAcc = d.upAcc := rfl
@[simp] theorem Dev.setSup_slewAcc (d : Dev) (x : Sup) : (d.setSup x).slewAcc = d.slewAcc := rfl
@[simp] theorem Dev.setSup_freshAt (d : Dev) (x : Sup) : (d.setSup x).freshAt = d.freshAt := rfl
@[simp] theorem Dev.setSup_fresh (d : Dev) (x : Sup) : (d.setSup x).fresh = d.fresh := rfl
@[simp] theorem Dev.setSup_resp (d : Dev) (x : Sup) : (d.setSup x).resp = d.resp := rfl
@[simp] theorem Dev.setSup_heldLow (d : Dev) (x : Sup) : (d.setSup x).heldLow = d.heldLow := rfl
@[simp] theorem Dev.setSup_capHigh (d : Dev) (x : Sup) : (d.setSup x).capHigh = d.capHigh := rfl
@[simp] theorem Dev.setSup_evlog (d : Dev) (x : Sup) : (d.setSup x).evlog = d.evlog := rfl
@[simp] theorem Dev.setSup_out (d : Dev) (x : Sup) : (d.setSup x).out = d.out := rfl
@[simp] theorem Dev.setSup_wq (d : Dev) (x : Sup) : (d.setSup x).wq = d.wq := rfl
@[simp] theorem Dev.setSup_lost (d : Dev) (x : Sup) : (d.setSup x).lost = d.lost := rfl
@[simp] theorem Dev.setSup_vatEpoch (d : Dev) (x : Sup) : (d.setSup x).vatEpoch = d.vatEpoch := rfl
@[simp] theorem Dev.setSup_dramEpoch (d : Dev) (x : Sup) : (d.setSup x).dramEpoch = d.dramEpoch := rfl
@[simp] theorem Dev.setSup_freeN (d : Dev) (x : Sup) : (d.setSup x).freeN = d.freeN := rfl
@[simp] theorem Dev.setSup_stepN (d : Dev) (x : Sup) : (d.setSup x).stepN = d.stepN := rfl
@[simp] theorem Dev.setSup_vats (d : Dev) (x : Sup) : (d.setSup x).vats = d.vats := rfl
@[simp] theorem Dev.setSup_slices (d : Dev) (x : Sup) : (d.setSup x).slices = d.slices := rfl
@[simp] theorem Dev.setSup_segD (d : Dev) (x : Sup) : (d.setSup x).segD = d.segD := rfl
@[simp] theorem Dev.setSup_segG (d : Dev) (x : Sup) : (d.setSup x).segG = d.segG := rfl
@[simp] theorem Dev.setSup_slcD (d : Dev) (x : Sup) : (d.setSup x).slcD = d.slcD := rfl
@[simp] theorem Dev.setSup_slcG (d : Dev) (x : Sup) : (d.setSup x).slcG = d.slcG := rfl
@[simp] theorem Dev.setSup_passAt (d : Dev) (x : Sup) : (d.setSup x).passAt = d.passAt := rfl
@[simp] theorem Dev.setSup_govRun (d : Dev) (x : Sup) : (d.setSup x).govRun = d.govRun := rfl
@[simp] theorem Dev.setSup_railNow (d : Dev) (x : Sup) : (d.setSup x).railNow = d.railNow := rfl
@[simp] theorem Dev.setSup_hot (d : Dev) (x : Sup) : (d.setSup x).hot = d.hot := rfl
@[simp] theorem Dev.setSup_relock (d : Dev) (x : Sup) : (d.setSup x).relock = d.relock := rfl
@[simp] theorem Dev.setSup_sliceCmd (d : Dev) (x : Sup) : (d.setSup x).sliceCmd = d.sliceCmd := rfl
@[simp] theorem Dev.setSup_rcWait (d : Dev) (x : Sup) : (d.setSup x).rcWait = d.rcWait := rfl
@[simp] theorem Dev.setSup_sw (d : Dev) (x : Sup) : (d.setSup x).sw = d.sw := rfl
@[simp] theorem Dev.setSup_jasia (d : Dev) (x : Sup) : (d.setSup x).jasia = d.jasia := rfl
@[simp] theorem Dev.setSup_ptp (d : Dev) (x : Sup) : (d.setSup x).ptp = d.ptp := rfl
@[simp] theorem Dev.setSup_can (d : Dev) (x : Sup) : (d.setSup x).can = d.can := rfl
@[simp] theorem Dev.setSup_cores (d : Dev) (x : Sup) : (d.setSup x).cores = d.cores := rfl
@[simp] theorem Dev.setSup_l2 (d : Dev) (x : Sup) : (d.setSup x).l2 = d.l2 := rfl
@[simp] theorem Dev.setSup_l1 (d : Dev) (x : Sup) : (d.setSup x).l1 = d.l1 := rfl
@[simp] theorem Dev.setSup_perfAt (d : Dev) (x : Sup) : (d.setSup x).perfAt = d.perfAt := rfl
@[simp] theorem Dev.setSup_qN (d : Dev) (x : Sup) : (d.setSup x).qN = d.qN := rfl
@[simp] theorem Dev.setSup_qS (d : Dev) (x : Sup) : (d.setSup x).qS = d.qS := rfl
@[simp] theorem Dev.setSup_pairs (d : Dev) (x : Sup) : (d.setSup x).pairs = d.pairs := rfl
@[simp] theorem Dev.setSup_mord (d : Dev) (x : Sup) : (d.setSup x).mord = d.mord := rfl
@[simp] theorem Dev.setSup_dram (d : Dev) (x : Sup) : (d.setSup x).dram = d.dram := rfl
@[simp] theorem Dev.setSup_aux (d : Dev) (x : Sup) : (d.setSup x).aux = d.aux := rfl
@[simp] theorem Dev.setSup_auxSum (d : Dev) (x : Sup) : (d.setSup x).auxSum = d.auxSum := rfl
@[simp] theorem Dev.setSup_mad (d : Dev) (x : Sup) : (d.setSup x).mad = d.mad := rfl
@[simp] theorem Dev.setSup_link (d : Dev) (x : Sup) : (d.setSup x).link = d.link := rfl
@[simp] theorem Dev.setSup_dbg (d : Dev) (x : Sup) : (d.setSup x).dbg = d.dbg := rfl
@[simp] theorem Dev.setSup_fuse (d : Dev) (x : Sup) : (d.setSup x).fuse = d.fuse := rfl
@[simp] theorem Dev.setSup_f (d : Dev) (x : Sup) (r : RF) : (d.setSup x).f r = d.f r := rfl

/-! ### setDbg -/

@[simp] theorem Dev.setDbg_regs (d : Dev) (x : Dbg) : (d.setDbg x).regs = d.regs := rfl
@[simp] theorem Dev.setDbg_now (d : Dev) (x : Dbg) : (d.setDbg x).now = d.now := rfl
@[simp] theorem Dev.setDbg_up (d : Dev) (x : Dbg) : (d.setDbg x).up = d.up := rfl
@[simp] theorem Dev.setDbg_upAcc (d : Dev) (x : Dbg) : (d.setDbg x).upAcc = d.upAcc := rfl
@[simp] theorem Dev.setDbg_slewAcc (d : Dev) (x : Dbg) : (d.setDbg x).slewAcc = d.slewAcc := rfl
@[simp] theorem Dev.setDbg_freshAt (d : Dev) (x : Dbg) : (d.setDbg x).freshAt = d.freshAt := rfl
@[simp] theorem Dev.setDbg_fresh (d : Dev) (x : Dbg) : (d.setDbg x).fresh = d.fresh := rfl
@[simp] theorem Dev.setDbg_resp (d : Dev) (x : Dbg) : (d.setDbg x).resp = d.resp := rfl
@[simp] theorem Dev.setDbg_heldLow (d : Dev) (x : Dbg) : (d.setDbg x).heldLow = d.heldLow := rfl
@[simp] theorem Dev.setDbg_capHigh (d : Dev) (x : Dbg) : (d.setDbg x).capHigh = d.capHigh := rfl
@[simp] theorem Dev.setDbg_evlog (d : Dev) (x : Dbg) : (d.setDbg x).evlog = d.evlog := rfl
@[simp] theorem Dev.setDbg_out (d : Dev) (x : Dbg) : (d.setDbg x).out = d.out := rfl
@[simp] theorem Dev.setDbg_wq (d : Dev) (x : Dbg) : (d.setDbg x).wq = d.wq := rfl
@[simp] theorem Dev.setDbg_lost (d : Dev) (x : Dbg) : (d.setDbg x).lost = d.lost := rfl
@[simp] theorem Dev.setDbg_vatEpoch (d : Dev) (x : Dbg) : (d.setDbg x).vatEpoch = d.vatEpoch := rfl
@[simp] theorem Dev.setDbg_dramEpoch (d : Dev) (x : Dbg) : (d.setDbg x).dramEpoch = d.dramEpoch := rfl
@[simp] theorem Dev.setDbg_freeN (d : Dev) (x : Dbg) : (d.setDbg x).freeN = d.freeN := rfl
@[simp] theorem Dev.setDbg_stepN (d : Dev) (x : Dbg) : (d.setDbg x).stepN = d.stepN := rfl
@[simp] theorem Dev.setDbg_vats (d : Dev) (x : Dbg) : (d.setDbg x).vats = d.vats := rfl
@[simp] theorem Dev.setDbg_slices (d : Dev) (x : Dbg) : (d.setDbg x).slices = d.slices := rfl
@[simp] theorem Dev.setDbg_segD (d : Dev) (x : Dbg) : (d.setDbg x).segD = d.segD := rfl
@[simp] theorem Dev.setDbg_segG (d : Dev) (x : Dbg) : (d.setDbg x).segG = d.segG := rfl
@[simp] theorem Dev.setDbg_slcD (d : Dev) (x : Dbg) : (d.setDbg x).slcD = d.slcD := rfl
@[simp] theorem Dev.setDbg_slcG (d : Dev) (x : Dbg) : (d.setDbg x).slcG = d.slcG := rfl
@[simp] theorem Dev.setDbg_passAt (d : Dev) (x : Dbg) : (d.setDbg x).passAt = d.passAt := rfl
@[simp] theorem Dev.setDbg_govRun (d : Dev) (x : Dbg) : (d.setDbg x).govRun = d.govRun := rfl
@[simp] theorem Dev.setDbg_railNow (d : Dev) (x : Dbg) : (d.setDbg x).railNow = d.railNow := rfl
@[simp] theorem Dev.setDbg_hot (d : Dev) (x : Dbg) : (d.setDbg x).hot = d.hot := rfl
@[simp] theorem Dev.setDbg_relock (d : Dev) (x : Dbg) : (d.setDbg x).relock = d.relock := rfl
@[simp] theorem Dev.setDbg_sliceCmd (d : Dev) (x : Dbg) : (d.setDbg x).sliceCmd = d.sliceCmd := rfl
@[simp] theorem Dev.setDbg_rcWait (d : Dev) (x : Dbg) : (d.setDbg x).rcWait = d.rcWait := rfl
@[simp] theorem Dev.setDbg_sw (d : Dev) (x : Dbg) : (d.setDbg x).sw = d.sw := rfl
@[simp] theorem Dev.setDbg_jasia (d : Dev) (x : Dbg) : (d.setDbg x).jasia = d.jasia := rfl
@[simp] theorem Dev.setDbg_ptp (d : Dev) (x : Dbg) : (d.setDbg x).ptp = d.ptp := rfl
@[simp] theorem Dev.setDbg_can (d : Dev) (x : Dbg) : (d.setDbg x).can = d.can := rfl
@[simp] theorem Dev.setDbg_cores (d : Dev) (x : Dbg) : (d.setDbg x).cores = d.cores := rfl
@[simp] theorem Dev.setDbg_l2 (d : Dev) (x : Dbg) : (d.setDbg x).l2 = d.l2 := rfl
@[simp] theorem Dev.setDbg_l1 (d : Dev) (x : Dbg) : (d.setDbg x).l1 = d.l1 := rfl
@[simp] theorem Dev.setDbg_perfAt (d : Dev) (x : Dbg) : (d.setDbg x).perfAt = d.perfAt := rfl
@[simp] theorem Dev.setDbg_qN (d : Dev) (x : Dbg) : (d.setDbg x).qN = d.qN := rfl
@[simp] theorem Dev.setDbg_qS (d : Dev) (x : Dbg) : (d.setDbg x).qS = d.qS := rfl
@[simp] theorem Dev.setDbg_pairs (d : Dev) (x : Dbg) : (d.setDbg x).pairs = d.pairs := rfl
@[simp] theorem Dev.setDbg_mord (d : Dev) (x : Dbg) : (d.setDbg x).mord = d.mord := rfl
@[simp] theorem Dev.setDbg_dram (d : Dev) (x : Dbg) : (d.setDbg x).dram = d.dram := rfl
@[simp] theorem Dev.setDbg_aux (d : Dev) (x : Dbg) : (d.setDbg x).aux = d.aux := rfl
@[simp] theorem Dev.setDbg_auxSum (d : Dev) (x : Dbg) : (d.setDbg x).auxSum = d.auxSum := rfl
@[simp] theorem Dev.setDbg_mad (d : Dev) (x : Dbg) : (d.setDbg x).mad = d.mad := rfl
@[simp] theorem Dev.setDbg_link (d : Dev) (x : Dbg) : (d.setDbg x).link = d.link := rfl
@[simp] theorem Dev.setDbg_sup (d : Dev) (x : Dbg) : (d.setDbg x).sup = d.sup := rfl
@[simp] theorem Dev.setDbg_fuse (d : Dev) (x : Dbg) : (d.setDbg x).fuse = d.fuse := rfl
@[simp] theorem Dev.setDbg_f (d : Dev) (x : Dbg) (r : RF) : (d.setDbg x).f r = d.f r := rfl

/-! ### setFuse -/

@[simp] theorem Dev.setFuse_regs (d : Dev) (x : Fuses) : (d.setFuse x).regs = d.regs := rfl
@[simp] theorem Dev.setFuse_now (d : Dev) (x : Fuses) : (d.setFuse x).now = d.now := rfl
@[simp] theorem Dev.setFuse_up (d : Dev) (x : Fuses) : (d.setFuse x).up = d.up := rfl
@[simp] theorem Dev.setFuse_upAcc (d : Dev) (x : Fuses) : (d.setFuse x).upAcc = d.upAcc := rfl
@[simp] theorem Dev.setFuse_slewAcc (d : Dev) (x : Fuses) : (d.setFuse x).slewAcc = d.slewAcc := rfl
@[simp] theorem Dev.setFuse_freshAt (d : Dev) (x : Fuses) : (d.setFuse x).freshAt = d.freshAt := rfl
@[simp] theorem Dev.setFuse_fresh (d : Dev) (x : Fuses) : (d.setFuse x).fresh = d.fresh := rfl
@[simp] theorem Dev.setFuse_resp (d : Dev) (x : Fuses) : (d.setFuse x).resp = d.resp := rfl
@[simp] theorem Dev.setFuse_heldLow (d : Dev) (x : Fuses) : (d.setFuse x).heldLow = d.heldLow := rfl
@[simp] theorem Dev.setFuse_capHigh (d : Dev) (x : Fuses) : (d.setFuse x).capHigh = d.capHigh := rfl
@[simp] theorem Dev.setFuse_evlog (d : Dev) (x : Fuses) : (d.setFuse x).evlog = d.evlog := rfl
@[simp] theorem Dev.setFuse_out (d : Dev) (x : Fuses) : (d.setFuse x).out = d.out := rfl
@[simp] theorem Dev.setFuse_wq (d : Dev) (x : Fuses) : (d.setFuse x).wq = d.wq := rfl
@[simp] theorem Dev.setFuse_lost (d : Dev) (x : Fuses) : (d.setFuse x).lost = d.lost := rfl
@[simp] theorem Dev.setFuse_vatEpoch (d : Dev) (x : Fuses) : (d.setFuse x).vatEpoch = d.vatEpoch := rfl
@[simp] theorem Dev.setFuse_dramEpoch (d : Dev) (x : Fuses) : (d.setFuse x).dramEpoch = d.dramEpoch := rfl
@[simp] theorem Dev.setFuse_freeN (d : Dev) (x : Fuses) : (d.setFuse x).freeN = d.freeN := rfl
@[simp] theorem Dev.setFuse_stepN (d : Dev) (x : Fuses) : (d.setFuse x).stepN = d.stepN := rfl
@[simp] theorem Dev.setFuse_vats (d : Dev) (x : Fuses) : (d.setFuse x).vats = d.vats := rfl
@[simp] theorem Dev.setFuse_slices (d : Dev) (x : Fuses) : (d.setFuse x).slices = d.slices := rfl
@[simp] theorem Dev.setFuse_segD (d : Dev) (x : Fuses) : (d.setFuse x).segD = d.segD := rfl
@[simp] theorem Dev.setFuse_segG (d : Dev) (x : Fuses) : (d.setFuse x).segG = d.segG := rfl
@[simp] theorem Dev.setFuse_slcD (d : Dev) (x : Fuses) : (d.setFuse x).slcD = d.slcD := rfl
@[simp] theorem Dev.setFuse_slcG (d : Dev) (x : Fuses) : (d.setFuse x).slcG = d.slcG := rfl
@[simp] theorem Dev.setFuse_passAt (d : Dev) (x : Fuses) : (d.setFuse x).passAt = d.passAt := rfl
@[simp] theorem Dev.setFuse_govRun (d : Dev) (x : Fuses) : (d.setFuse x).govRun = d.govRun := rfl
@[simp] theorem Dev.setFuse_railNow (d : Dev) (x : Fuses) : (d.setFuse x).railNow = d.railNow := rfl
@[simp] theorem Dev.setFuse_hot (d : Dev) (x : Fuses) : (d.setFuse x).hot = d.hot := rfl
@[simp] theorem Dev.setFuse_relock (d : Dev) (x : Fuses) : (d.setFuse x).relock = d.relock := rfl
@[simp] theorem Dev.setFuse_sliceCmd (d : Dev) (x : Fuses) : (d.setFuse x).sliceCmd = d.sliceCmd := rfl
@[simp] theorem Dev.setFuse_rcWait (d : Dev) (x : Fuses) : (d.setFuse x).rcWait = d.rcWait := rfl
@[simp] theorem Dev.setFuse_sw (d : Dev) (x : Fuses) : (d.setFuse x).sw = d.sw := rfl
@[simp] theorem Dev.setFuse_jasia (d : Dev) (x : Fuses) : (d.setFuse x).jasia = d.jasia := rfl
@[simp] theorem Dev.setFuse_ptp (d : Dev) (x : Fuses) : (d.setFuse x).ptp = d.ptp := rfl
@[simp] theorem Dev.setFuse_can (d : Dev) (x : Fuses) : (d.setFuse x).can = d.can := rfl
@[simp] theorem Dev.setFuse_cores (d : Dev) (x : Fuses) : (d.setFuse x).cores = d.cores := rfl
@[simp] theorem Dev.setFuse_l2 (d : Dev) (x : Fuses) : (d.setFuse x).l2 = d.l2 := rfl
@[simp] theorem Dev.setFuse_l1 (d : Dev) (x : Fuses) : (d.setFuse x).l1 = d.l1 := rfl
@[simp] theorem Dev.setFuse_perfAt (d : Dev) (x : Fuses) : (d.setFuse x).perfAt = d.perfAt := rfl
@[simp] theorem Dev.setFuse_qN (d : Dev) (x : Fuses) : (d.setFuse x).qN = d.qN := rfl
@[simp] theorem Dev.setFuse_qS (d : Dev) (x : Fuses) : (d.setFuse x).qS = d.qS := rfl
@[simp] theorem Dev.setFuse_pairs (d : Dev) (x : Fuses) : (d.setFuse x).pairs = d.pairs := rfl
@[simp] theorem Dev.setFuse_mord (d : Dev) (x : Fuses) : (d.setFuse x).mord = d.mord := rfl
@[simp] theorem Dev.setFuse_dram (d : Dev) (x : Fuses) : (d.setFuse x).dram = d.dram := rfl
@[simp] theorem Dev.setFuse_aux (d : Dev) (x : Fuses) : (d.setFuse x).aux = d.aux := rfl
@[simp] theorem Dev.setFuse_auxSum (d : Dev) (x : Fuses) : (d.setFuse x).auxSum = d.auxSum := rfl
@[simp] theorem Dev.setFuse_mad (d : Dev) (x : Fuses) : (d.setFuse x).mad = d.mad := rfl
@[simp] theorem Dev.setFuse_link (d : Dev) (x : Fuses) : (d.setFuse x).link = d.link := rfl
@[simp] theorem Dev.setFuse_sup (d : Dev) (x : Fuses) : (d.setFuse x).sup = d.sup := rfl
@[simp] theorem Dev.setFuse_dbg (d : Dev) (x : Fuses) : (d.setFuse x).dbg = d.dbg := rfl
@[simp] theorem Dev.setFuse_f (d : Dev) (x : Fuses) (r : RF) : (d.setFuse x).f r = d.f r := rfl

/-! ### setF -/

@[simp] theorem Dev.setF_now (d : Dev) (r : RF) (x : Nat) : (d.setF r x).now = d.now := rfl
@[simp] theorem Dev.setF_up (d : Dev) (r : RF) (x : Nat) : (d.setF r x).up = d.up := rfl
@[simp] theorem Dev.setF_upAcc (d : Dev) (r : RF) (x : Nat) : (d.setF r x).upAcc = d.upAcc := rfl
@[simp] theorem Dev.setF_slewAcc (d : Dev) (r : RF) (x : Nat) : (d.setF r x).slewAcc = d.slewAcc := rfl
@[simp] theorem Dev.setF_freshAt (d : Dev) (r : RF) (x : Nat) : (d.setF r x).freshAt = d.freshAt := rfl
@[simp] theorem Dev.setF_fresh (d : Dev) (r : RF) (x : Nat) : (d.setF r x).fresh = d.fresh := rfl
@[simp] theorem Dev.setF_resp (d : Dev) (r : RF) (x : Nat) : (d.setF r x).resp = d.resp := rfl
@[simp] theorem Dev.setF_heldLow (d : Dev) (r : RF) (x : Nat) : (d.setF r x).heldLow = d.heldLow := rfl
@[simp] theorem Dev.setF_capHigh (d : Dev) (r : RF) (x : Nat) : (d.setF r x).capHigh = d.capHigh := rfl
@[simp] theorem Dev.setF_evlog (d : Dev) (r : RF) (x : Nat) : (d.setF r x).evlog = d.evlog := rfl
@[simp] theorem Dev.setF_out (d : Dev) (r : RF) (x : Nat) : (d.setF r x).out = d.out := rfl
@[simp] theorem Dev.setF_wq (d : Dev) (r : RF) (x : Nat) : (d.setF r x).wq = d.wq := rfl
@[simp] theorem Dev.setF_lost (d : Dev) (r : RF) (x : Nat) : (d.setF r x).lost = d.lost := rfl
@[simp] theorem Dev.setF_vatEpoch (d : Dev) (r : RF) (x : Nat) : (d.setF r x).vatEpoch = d.vatEpoch := rfl
@[simp] theorem Dev.setF_dramEpoch (d : Dev) (r : RF) (x : Nat) : (d.setF r x).dramEpoch = d.dramEpoch := rfl
@[simp] theorem Dev.setF_freeN (d : Dev) (r : RF) (x : Nat) : (d.setF r x).freeN = d.freeN := rfl
@[simp] theorem Dev.setF_stepN (d : Dev) (r : RF) (x : Nat) : (d.setF r x).stepN = d.stepN := rfl
@[simp] theorem Dev.setF_vats (d : Dev) (r : RF) (x : Nat) : (d.setF r x).vats = d.vats := rfl
@[simp] theorem Dev.setF_slices (d : Dev) (r : RF) (x : Nat) : (d.setF r x).slices = d.slices := rfl
@[simp] theorem Dev.setF_segD (d : Dev) (r : RF) (x : Nat) : (d.setF r x).segD = d.segD := rfl
@[simp] theorem Dev.setF_segG (d : Dev) (r : RF) (x : Nat) : (d.setF r x).segG = d.segG := rfl
@[simp] theorem Dev.setF_slcD (d : Dev) (r : RF) (x : Nat) : (d.setF r x).slcD = d.slcD := rfl
@[simp] theorem Dev.setF_slcG (d : Dev) (r : RF) (x : Nat) : (d.setF r x).slcG = d.slcG := rfl
@[simp] theorem Dev.setF_passAt (d : Dev) (r : RF) (x : Nat) : (d.setF r x).passAt = d.passAt := rfl
@[simp] theorem Dev.setF_govRun (d : Dev) (r : RF) (x : Nat) : (d.setF r x).govRun = d.govRun := rfl
@[simp] theorem Dev.setF_railNow (d : Dev) (r : RF) (x : Nat) : (d.setF r x).railNow = d.railNow := rfl
@[simp] theorem Dev.setF_hot (d : Dev) (r : RF) (x : Nat) : (d.setF r x).hot = d.hot := rfl
@[simp] theorem Dev.setF_relock (d : Dev) (r : RF) (x : Nat) : (d.setF r x).relock = d.relock := rfl
@[simp] theorem Dev.setF_sliceCmd (d : Dev) (r : RF) (x : Nat) : (d.setF r x).sliceCmd = d.sliceCmd := rfl
@[simp] theorem Dev.setF_rcWait (d : Dev) (r : RF) (x : Nat) : (d.setF r x).rcWait = d.rcWait := rfl
@[simp] theorem Dev.setF_sw (d : Dev) (r : RF) (x : Nat) : (d.setF r x).sw = d.sw := rfl
@[simp] theorem Dev.setF_jasia (d : Dev) (r : RF) (x : Nat) : (d.setF r x).jasia = d.jasia := rfl
@[simp] theorem Dev.setF_ptp (d : Dev) (r : RF) (x : Nat) : (d.setF r x).ptp = d.ptp := rfl
@[simp] theorem Dev.setF_can (d : Dev) (r : RF) (x : Nat) : (d.setF r x).can = d.can := rfl
@[simp] theorem Dev.setF_cores (d : Dev) (r : RF) (x : Nat) : (d.setF r x).cores = d.cores := rfl
@[simp] theorem Dev.setF_l2 (d : Dev) (r : RF) (x : Nat) : (d.setF r x).l2 = d.l2 := rfl
@[simp] theorem Dev.setF_l1 (d : Dev) (r : RF) (x : Nat) : (d.setF r x).l1 = d.l1 := rfl
@[simp] theorem Dev.setF_perfAt (d : Dev) (r : RF) (x : Nat) : (d.setF r x).perfAt = d.perfAt := rfl
@[simp] theorem Dev.setF_qN (d : Dev) (r : RF) (x : Nat) : (d.setF r x).qN = d.qN := rfl
@[simp] theorem Dev.setF_qS (d : Dev) (r : RF) (x : Nat) : (d.setF r x).qS = d.qS := rfl
@[simp] theorem Dev.setF_pairs (d : Dev) (r : RF) (x : Nat) : (d.setF r x).pairs = d.pairs := rfl
@[simp] theorem Dev.setF_mord (d : Dev) (r : RF) (x : Nat) : (d.setF r x).mord = d.mord := rfl
@[simp] theorem Dev.setF_dram (d : Dev) (r : RF) (x : Nat) : (d.setF r x).dram = d.dram := rfl
@[simp] theorem Dev.setF_aux (d : Dev) (r : RF) (x : Nat) : (d.setF r x).aux = d.aux := rfl
@[simp] theorem Dev.setF_auxSum (d : Dev) (r : RF) (x : Nat) : (d.setF r x).auxSum = d.auxSum := rfl
@[simp] theorem Dev.setF_mad (d : Dev) (r : RF) (x : Nat) : (d.setF r x).mad = d.mad := rfl
@[simp] theorem Dev.setF_link (d : Dev) (r : RF) (x : Nat) : (d.setF r x).link = d.link := rfl
@[simp] theorem Dev.setF_sup (d : Dev) (r : RF) (x : Nat) : (d.setF r x).sup = d.sup := rfl
@[simp] theorem Dev.setF_dbg (d : Dev) (r : RF) (x : Nat) : (d.setF r x).dbg = d.dbg := rfl
@[simp] theorem Dev.setF_fuse (d : Dev) (r : RF) (x : Nat) : (d.setF r x).fuse = d.fuse := rfl

/-! ### emit -/

@[simp] theorem Dev.emit_regs (d : Dev) (o : Output) : (d.emit o).regs = d.regs := rfl
@[simp] theorem Dev.emit_now (d : Dev) (o : Output) : (d.emit o).now = d.now := rfl
@[simp] theorem Dev.emit_up (d : Dev) (o : Output) : (d.emit o).up = d.up := rfl
@[simp] theorem Dev.emit_upAcc (d : Dev) (o : Output) : (d.emit o).upAcc = d.upAcc := rfl
@[simp] theorem Dev.emit_slewAcc (d : Dev) (o : Output) : (d.emit o).slewAcc = d.slewAcc := rfl
@[simp] theorem Dev.emit_freshAt (d : Dev) (o : Output) : (d.emit o).freshAt = d.freshAt := rfl
@[simp] theorem Dev.emit_fresh (d : Dev) (o : Output) : (d.emit o).fresh = d.fresh := rfl
@[simp] theorem Dev.emit_resp (d : Dev) (o : Output) : (d.emit o).resp = d.resp := rfl
@[simp] theorem Dev.emit_heldLow (d : Dev) (o : Output) : (d.emit o).heldLow = d.heldLow := rfl
@[simp] theorem Dev.emit_capHigh (d : Dev) (o : Output) : (d.emit o).capHigh = d.capHigh := rfl
@[simp] theorem Dev.emit_evlog (d : Dev) (o : Output) : (d.emit o).evlog = d.evlog := rfl
@[simp] theorem Dev.emit_wq (d : Dev) (o : Output) : (d.emit o).wq = d.wq := rfl
@[simp] theorem Dev.emit_lost (d : Dev) (o : Output) : (d.emit o).lost = d.lost := rfl
@[simp] theorem Dev.emit_vatEpoch (d : Dev) (o : Output) : (d.emit o).vatEpoch = d.vatEpoch := rfl
@[simp] theorem Dev.emit_dramEpoch (d : Dev) (o : Output) : (d.emit o).dramEpoch = d.dramEpoch := rfl
@[simp] theorem Dev.emit_freeN (d : Dev) (o : Output) : (d.emit o).freeN = d.freeN := rfl
@[simp] theorem Dev.emit_stepN (d : Dev) (o : Output) : (d.emit o).stepN = d.stepN := rfl
@[simp] theorem Dev.emit_vats (d : Dev) (o : Output) : (d.emit o).vats = d.vats := rfl
@[simp] theorem Dev.emit_slices (d : Dev) (o : Output) : (d.emit o).slices = d.slices := rfl
@[simp] theorem Dev.emit_segD (d : Dev) (o : Output) : (d.emit o).segD = d.segD := rfl
@[simp] theorem Dev.emit_segG (d : Dev) (o : Output) : (d.emit o).segG = d.segG := rfl
@[simp] theorem Dev.emit_slcD (d : Dev) (o : Output) : (d.emit o).slcD = d.slcD := rfl
@[simp] theorem Dev.emit_slcG (d : Dev) (o : Output) : (d.emit o).slcG = d.slcG := rfl
@[simp] theorem Dev.emit_passAt (d : Dev) (o : Output) : (d.emit o).passAt = d.passAt := rfl
@[simp] theorem Dev.emit_govRun (d : Dev) (o : Output) : (d.emit o).govRun = d.govRun := rfl
@[simp] theorem Dev.emit_railNow (d : Dev) (o : Output) : (d.emit o).railNow = d.railNow := rfl
@[simp] theorem Dev.emit_hot (d : Dev) (o : Output) : (d.emit o).hot = d.hot := rfl
@[simp] theorem Dev.emit_relock (d : Dev) (o : Output) : (d.emit o).relock = d.relock := rfl
@[simp] theorem Dev.emit_sliceCmd (d : Dev) (o : Output) : (d.emit o).sliceCmd = d.sliceCmd := rfl
@[simp] theorem Dev.emit_rcWait (d : Dev) (o : Output) : (d.emit o).rcWait = d.rcWait := rfl
@[simp] theorem Dev.emit_sw (d : Dev) (o : Output) : (d.emit o).sw = d.sw := rfl
@[simp] theorem Dev.emit_jasia (d : Dev) (o : Output) : (d.emit o).jasia = d.jasia := rfl
@[simp] theorem Dev.emit_ptp (d : Dev) (o : Output) : (d.emit o).ptp = d.ptp := rfl
@[simp] theorem Dev.emit_can (d : Dev) (o : Output) : (d.emit o).can = d.can := rfl
@[simp] theorem Dev.emit_cores (d : Dev) (o : Output) : (d.emit o).cores = d.cores := rfl
@[simp] theorem Dev.emit_l2 (d : Dev) (o : Output) : (d.emit o).l2 = d.l2 := rfl
@[simp] theorem Dev.emit_l1 (d : Dev) (o : Output) : (d.emit o).l1 = d.l1 := rfl
@[simp] theorem Dev.emit_perfAt (d : Dev) (o : Output) : (d.emit o).perfAt = d.perfAt := rfl
@[simp] theorem Dev.emit_qN (d : Dev) (o : Output) : (d.emit o).qN = d.qN := rfl
@[simp] theorem Dev.emit_qS (d : Dev) (o : Output) : (d.emit o).qS = d.qS := rfl
@[simp] theorem Dev.emit_pairs (d : Dev) (o : Output) : (d.emit o).pairs = d.pairs := rfl
@[simp] theorem Dev.emit_mord (d : Dev) (o : Output) : (d.emit o).mord = d.mord := rfl
@[simp] theorem Dev.emit_dram (d : Dev) (o : Output) : (d.emit o).dram = d.dram := rfl
@[simp] theorem Dev.emit_aux (d : Dev) (o : Output) : (d.emit o).aux = d.aux := rfl
@[simp] theorem Dev.emit_auxSum (d : Dev) (o : Output) : (d.emit o).auxSum = d.auxSum := rfl
@[simp] theorem Dev.emit_mad (d : Dev) (o : Output) : (d.emit o).mad = d.mad := rfl
@[simp] theorem Dev.emit_link (d : Dev) (o : Output) : (d.emit o).link = d.link := rfl
@[simp] theorem Dev.emit_sup (d : Dev) (o : Output) : (d.emit o).sup = d.sup := rfl
@[simp] theorem Dev.emit_dbg (d : Dev) (o : Output) : (d.emit o).dbg = d.dbg := rfl
@[simp] theorem Dev.emit_fuse (d : Dev) (o : Output) : (d.emit o).fuse = d.fuse := rfl
@[simp] theorem Dev.emit_f (d : Dev) (o : Output) (r : RF) : (d.emit o).f r = d.f r := rfl

/-! ### post -/

@[simp] theorem Dev.post_regs (d : Dev) (k : Nat) (bs : List Byte) : (d.post k bs).regs = d.regs := rfl
@[simp] theorem Dev.post_now (d : Dev) (k : Nat) (bs : List Byte) : (d.post k bs).now = d.now := rfl
@[simp] theorem Dev.post_up (d : Dev) (k : Nat) (bs : List Byte) : (d.post k bs).up = d.up := rfl
@[simp] theorem Dev.post_upAcc (d : Dev) (k : Nat) (bs : List Byte) : (d.post k bs).upAcc = d.upAcc := rfl
@[simp] theorem Dev.post_slewAcc (d : Dev) (k : Nat) (bs : List Byte) : (d.post k bs).slewAcc = d.slewAcc := rfl
@[simp] theorem Dev.post_freshAt (d : Dev) (k : Nat) (bs : List Byte) : (d.post k bs).freshAt = d.freshAt := rfl
@[simp] theorem Dev.post_fresh (d : Dev) (k : Nat) (bs : List Byte) : (d.post k bs).fresh = d.fresh := rfl
@[simp] theorem Dev.post_resp (d : Dev) (k : Nat) (bs : List Byte) : (d.post k bs).resp = d.resp := rfl
@[simp] theorem Dev.post_heldLow (d : Dev) (k : Nat) (bs : List Byte) : (d.post k bs).heldLow = d.heldLow := rfl
@[simp] theorem Dev.post_capHigh (d : Dev) (k : Nat) (bs : List Byte) : (d.post k bs).capHigh = d.capHigh := rfl
@[simp] theorem Dev.post_evlog (d : Dev) (k : Nat) (bs : List Byte) : (d.post k bs).evlog = d.evlog := rfl
@[simp] theorem Dev.post_out (d : Dev) (k : Nat) (bs : List Byte) : (d.post k bs).out = d.out := rfl
@[simp] theorem Dev.post_lost (d : Dev) (k : Nat) (bs : List Byte) : (d.post k bs).lost = d.lost := rfl
@[simp] theorem Dev.post_vatEpoch (d : Dev) (k : Nat) (bs : List Byte) : (d.post k bs).vatEpoch = d.vatEpoch := rfl
@[simp] theorem Dev.post_dramEpoch (d : Dev) (k : Nat) (bs : List Byte) : (d.post k bs).dramEpoch = d.dramEpoch := rfl
@[simp] theorem Dev.post_freeN (d : Dev) (k : Nat) (bs : List Byte) : (d.post k bs).freeN = d.freeN := rfl
@[simp] theorem Dev.post_stepN (d : Dev) (k : Nat) (bs : List Byte) : (d.post k bs).stepN = d.stepN := rfl
@[simp] theorem Dev.post_vats (d : Dev) (k : Nat) (bs : List Byte) : (d.post k bs).vats = d.vats := rfl
@[simp] theorem Dev.post_slices (d : Dev) (k : Nat) (bs : List Byte) : (d.post k bs).slices = d.slices := rfl
@[simp] theorem Dev.post_segD (d : Dev) (k : Nat) (bs : List Byte) : (d.post k bs).segD = d.segD := rfl
@[simp] theorem Dev.post_segG (d : Dev) (k : Nat) (bs : List Byte) : (d.post k bs).segG = d.segG := rfl
@[simp] theorem Dev.post_slcD (d : Dev) (k : Nat) (bs : List Byte) : (d.post k bs).slcD = d.slcD := rfl
@[simp] theorem Dev.post_slcG (d : Dev) (k : Nat) (bs : List Byte) : (d.post k bs).slcG = d.slcG := rfl
@[simp] theorem Dev.post_passAt (d : Dev) (k : Nat) (bs : List Byte) : (d.post k bs).passAt = d.passAt := rfl
@[simp] theorem Dev.post_govRun (d : Dev) (k : Nat) (bs : List Byte) : (d.post k bs).govRun = d.govRun := rfl
@[simp] theorem Dev.post_railNow (d : Dev) (k : Nat) (bs : List Byte) : (d.post k bs).railNow = d.railNow := rfl
@[simp] theorem Dev.post_hot (d : Dev) (k : Nat) (bs : List Byte) : (d.post k bs).hot = d.hot := rfl
@[simp] theorem Dev.post_relock (d : Dev) (k : Nat) (bs : List Byte) : (d.post k bs).relock = d.relock := rfl
@[simp] theorem Dev.post_sliceCmd (d : Dev) (k : Nat) (bs : List Byte) : (d.post k bs).sliceCmd = d.sliceCmd := rfl
@[simp] theorem Dev.post_rcWait (d : Dev) (k : Nat) (bs : List Byte) : (d.post k bs).rcWait = d.rcWait := rfl
@[simp] theorem Dev.post_sw (d : Dev) (k : Nat) (bs : List Byte) : (d.post k bs).sw = d.sw := rfl
@[simp] theorem Dev.post_jasia (d : Dev) (k : Nat) (bs : List Byte) : (d.post k bs).jasia = d.jasia := rfl
@[simp] theorem Dev.post_ptp (d : Dev) (k : Nat) (bs : List Byte) : (d.post k bs).ptp = d.ptp := rfl
@[simp] theorem Dev.post_can (d : Dev) (k : Nat) (bs : List Byte) : (d.post k bs).can = d.can := rfl
@[simp] theorem Dev.post_cores (d : Dev) (k : Nat) (bs : List Byte) : (d.post k bs).cores = d.cores := rfl
@[simp] theorem Dev.post_l2 (d : Dev) (k : Nat) (bs : List Byte) : (d.post k bs).l2 = d.l2 := rfl
@[simp] theorem Dev.post_perfAt (d : Dev) (k : Nat) (bs : List Byte) : (d.post k bs).perfAt = d.perfAt := rfl
@[simp] theorem Dev.post_qN (d : Dev) (k : Nat) (bs : List Byte) : (d.post k bs).qN = d.qN := rfl
@[simp] theorem Dev.post_qS (d : Dev) (k : Nat) (bs : List Byte) : (d.post k bs).qS = d.qS := rfl
@[simp] theorem Dev.post_pairs (d : Dev) (k : Nat) (bs : List Byte) : (d.post k bs).pairs = d.pairs := rfl
@[simp] theorem Dev.post_mord (d : Dev) (k : Nat) (bs : List Byte) : (d.post k bs).mord = d.mord := rfl
@[simp] theorem Dev.post_dram (d : Dev) (k : Nat) (bs : List Byte) : (d.post k bs).dram = d.dram := rfl
@[simp] theorem Dev.post_aux (d : Dev) (k : Nat) (bs : List Byte) : (d.post k bs).aux = d.aux := rfl
@[simp] theorem Dev.post_auxSum (d : Dev) (k : Nat) (bs : List Byte) : (d.post k bs).auxSum = d.auxSum := rfl
@[simp] theorem Dev.post_mad (d : Dev) (k : Nat) (bs : List Byte) : (d.post k bs).mad = d.mad := rfl
@[simp] theorem Dev.post_link (d : Dev) (k : Nat) (bs : List Byte) : (d.post k bs).link = d.link := rfl
@[simp] theorem Dev.post_sup (d : Dev) (k : Nat) (bs : List Byte) : (d.post k bs).sup = d.sup := rfl
@[simp] theorem Dev.post_dbg (d : Dev) (k : Nat) (bs : List Byte) : (d.post k bs).dbg = d.dbg := rfl
@[simp] theorem Dev.post_fuse (d : Dev) (k : Nat) (bs : List Byte) : (d.post k bs).fuse = d.fuse := rfl
@[simp] theorem Dev.post_f (d : Dev) (k : Nat) (bs : List Byte) (r : RF) : (d.post k bs).f r = d.f r := rfl

/-! ### answer -/

@[simp] theorem Dev.answer_regs (d : Dev) (x : Nat) : (d.answer x).regs = d.regs := rfl
@[simp] theorem Dev.answer_now (d : Dev) (x : Nat) : (d.answer x).now = d.now := rfl
@[simp] theorem Dev.answer_up (d : Dev) (x : Nat) : (d.answer x).up = d.up := rfl
@[simp] theorem Dev.answer_upAcc (d : Dev) (x : Nat) : (d.answer x).upAcc = d.upAcc := rfl
@[simp] theorem Dev.answer_slewAcc (d : Dev) (x : Nat) : (d.answer x).slewAcc = d.slewAcc := rfl
@[simp] theorem Dev.answer_freshAt (d : Dev) (x : Nat) : (d.answer x).freshAt = d.freshAt := rfl
@[simp] theorem Dev.answer_fresh (d : Dev) (x : Nat) : (d.answer x).fresh = d.fresh := rfl
@[simp] theorem Dev.answer_heldLow (d : Dev) (x : Nat) : (d.answer x).heldLow = d.heldLow := rfl
@[simp] theorem Dev.answer_capHigh (d : Dev) (x : Nat) : (d.answer x).capHigh = d.capHigh := rfl
@[simp] theorem Dev.answer_evlog (d : Dev) (x : Nat) : (d.answer x).evlog = d.evlog := rfl
@[simp] theorem Dev.answer_out (d : Dev) (x : Nat) : (d.answer x).out = d.out := rfl
@[simp] theorem Dev.answer_wq (d : Dev) (x : Nat) : (d.answer x).wq = d.wq := rfl
@[simp] theorem Dev.answer_lost (d : Dev) (x : Nat) : (d.answer x).lost = d.lost := rfl
@[simp] theorem Dev.answer_vatEpoch (d : Dev) (x : Nat) : (d.answer x).vatEpoch = d.vatEpoch := rfl
@[simp] theorem Dev.answer_dramEpoch (d : Dev) (x : Nat) : (d.answer x).dramEpoch = d.dramEpoch := rfl
@[simp] theorem Dev.answer_freeN (d : Dev) (x : Nat) : (d.answer x).freeN = d.freeN := rfl
@[simp] theorem Dev.answer_stepN (d : Dev) (x : Nat) : (d.answer x).stepN = d.stepN := rfl
@[simp] theorem Dev.answer_vats (d : Dev) (x : Nat) : (d.answer x).vats = d.vats := rfl
@[simp] theorem Dev.answer_slices (d : Dev) (x : Nat) : (d.answer x).slices = d.slices := rfl
@[simp] theorem Dev.answer_segD (d : Dev) (x : Nat) : (d.answer x).segD = d.segD := rfl
@[simp] theorem Dev.answer_segG (d : Dev) (x : Nat) : (d.answer x).segG = d.segG := rfl
@[simp] theorem Dev.answer_slcD (d : Dev) (x : Nat) : (d.answer x).slcD = d.slcD := rfl
@[simp] theorem Dev.answer_slcG (d : Dev) (x : Nat) : (d.answer x).slcG = d.slcG := rfl
@[simp] theorem Dev.answer_passAt (d : Dev) (x : Nat) : (d.answer x).passAt = d.passAt := rfl
@[simp] theorem Dev.answer_govRun (d : Dev) (x : Nat) : (d.answer x).govRun = d.govRun := rfl
@[simp] theorem Dev.answer_railNow (d : Dev) (x : Nat) : (d.answer x).railNow = d.railNow := rfl
@[simp] theorem Dev.answer_hot (d : Dev) (x : Nat) : (d.answer x).hot = d.hot := rfl
@[simp] theorem Dev.answer_relock (d : Dev) (x : Nat) : (d.answer x).relock = d.relock := rfl
@[simp] theorem Dev.answer_sliceCmd (d : Dev) (x : Nat) : (d.answer x).sliceCmd = d.sliceCmd := rfl
@[simp] theorem Dev.answer_rcWait (d : Dev) (x : Nat) : (d.answer x).rcWait = d.rcWait := rfl
@[simp] theorem Dev.answer_sw (d : Dev) (x : Nat) : (d.answer x).sw = d.sw := rfl
@[simp] theorem Dev.answer_jasia (d : Dev) (x : Nat) : (d.answer x).jasia = d.jasia := rfl
@[simp] theorem Dev.answer_ptp (d : Dev) (x : Nat) : (d.answer x).ptp = d.ptp := rfl
@[simp] theorem Dev.answer_can (d : Dev) (x : Nat) : (d.answer x).can = d.can := rfl
@[simp] theorem Dev.answer_cores (d : Dev) (x : Nat) : (d.answer x).cores = d.cores := rfl
@[simp] theorem Dev.answer_l2 (d : Dev) (x : Nat) : (d.answer x).l2 = d.l2 := rfl
@[simp] theorem Dev.answer_l1 (d : Dev) (x : Nat) : (d.answer x).l1 = d.l1 := rfl
@[simp] theorem Dev.answer_perfAt (d : Dev) (x : Nat) : (d.answer x).perfAt = d.perfAt := rfl
@[simp] theorem Dev.answer_qN (d : Dev) (x : Nat) : (d.answer x).qN = d.qN := rfl
@[simp] theorem Dev.answer_qS (d : Dev) (x : Nat) : (d.answer x).qS = d.qS := rfl
@[simp] theorem Dev.answer_pairs (d : Dev) (x : Nat) : (d.answer x).pairs = d.pairs := rfl
@[simp] theorem Dev.answer_mord (d : Dev) (x : Nat) : (d.answer x).mord = d.mord := rfl
@[simp] theorem Dev.answer_dram (d : Dev) (x : Nat) : (d.answer x).dram = d.dram := rfl
@[simp] theorem Dev.answer_aux (d : Dev) (x : Nat) : (d.answer x).aux = d.aux := rfl
@[simp] theorem Dev.answer_auxSum (d : Dev) (x : Nat) : (d.answer x).auxSum = d.auxSum := rfl
@[simp] theorem Dev.answer_mad (d : Dev) (x : Nat) : (d.answer x).mad = d.mad := rfl
@[simp] theorem Dev.answer_link (d : Dev) (x : Nat) : (d.answer x).link = d.link := rfl
@[simp] theorem Dev.answer_sup (d : Dev) (x : Nat) : (d.answer x).sup = d.sup := rfl
@[simp] theorem Dev.answer_dbg (d : Dev) (x : Nat) : (d.answer x).dbg = d.dbg := rfl
@[simp] theorem Dev.answer_fuse (d : Dev) (x : Nat) : (d.answer x).fuse = d.fuse := rfl
@[simp] theorem Dev.answer_f (d : Dev) (x : Nat) (r : RF) : (d.answer x).f r = d.f r := rfl

/-! ### modSlice -/

@[simp] theorem Dev.modSlice_regs (d : Dev) (i : Fin 64) (g : SliceEng → SliceEng) : (d.modSlice i g).regs = d.regs := rfl
@[simp] theorem Dev.modSlice_now (d : Dev) (i : Fin 64) (g : SliceEng → SliceEng) : (d.modSlice i g).now = d.now := rfl
@[simp] theorem Dev.modSlice_up (d : Dev) (i : Fin 64) (g : SliceEng → SliceEng) : (d.modSlice i g).up = d.up := rfl
@[simp] theorem Dev.modSlice_upAcc (d : Dev) (i : Fin 64) (g : SliceEng → SliceEng) : (d.modSlice i g).upAcc = d.upAcc := rfl
@[simp] theorem Dev.modSlice_slewAcc (d : Dev) (i : Fin 64) (g : SliceEng → SliceEng) : (d.modSlice i g).slewAcc = d.slewAcc := rfl
@[simp] theorem Dev.modSlice_freshAt (d : Dev) (i : Fin 64) (g : SliceEng → SliceEng) : (d.modSlice i g).freshAt = d.freshAt := rfl
@[simp] theorem Dev.modSlice_fresh (d : Dev) (i : Fin 64) (g : SliceEng → SliceEng) : (d.modSlice i g).fresh = d.fresh := rfl
@[simp] theorem Dev.modSlice_resp (d : Dev) (i : Fin 64) (g : SliceEng → SliceEng) : (d.modSlice i g).resp = d.resp := rfl
@[simp] theorem Dev.modSlice_heldLow (d : Dev) (i : Fin 64) (g : SliceEng → SliceEng) : (d.modSlice i g).heldLow = d.heldLow := rfl
@[simp] theorem Dev.modSlice_capHigh (d : Dev) (i : Fin 64) (g : SliceEng → SliceEng) : (d.modSlice i g).capHigh = d.capHigh := rfl
@[simp] theorem Dev.modSlice_evlog (d : Dev) (i : Fin 64) (g : SliceEng → SliceEng) : (d.modSlice i g).evlog = d.evlog := rfl
@[simp] theorem Dev.modSlice_out (d : Dev) (i : Fin 64) (g : SliceEng → SliceEng) : (d.modSlice i g).out = d.out := rfl
@[simp] theorem Dev.modSlice_wq (d : Dev) (i : Fin 64) (g : SliceEng → SliceEng) : (d.modSlice i g).wq = d.wq := rfl
@[simp] theorem Dev.modSlice_lost (d : Dev) (i : Fin 64) (g : SliceEng → SliceEng) : (d.modSlice i g).lost = d.lost := rfl
@[simp] theorem Dev.modSlice_vatEpoch (d : Dev) (i : Fin 64) (g : SliceEng → SliceEng) : (d.modSlice i g).vatEpoch = d.vatEpoch := rfl
@[simp] theorem Dev.modSlice_dramEpoch (d : Dev) (i : Fin 64) (g : SliceEng → SliceEng) : (d.modSlice i g).dramEpoch = d.dramEpoch := rfl
@[simp] theorem Dev.modSlice_freeN (d : Dev) (i : Fin 64) (g : SliceEng → SliceEng) : (d.modSlice i g).freeN = d.freeN := rfl
@[simp] theorem Dev.modSlice_stepN (d : Dev) (i : Fin 64) (g : SliceEng → SliceEng) : (d.modSlice i g).stepN = d.stepN := rfl
@[simp] theorem Dev.modSlice_vats (d : Dev) (i : Fin 64) (g : SliceEng → SliceEng) : (d.modSlice i g).vats = d.vats := rfl
@[simp] theorem Dev.modSlice_segD (d : Dev) (i : Fin 64) (g : SliceEng → SliceEng) : (d.modSlice i g).segD = d.segD := rfl
@[simp] theorem Dev.modSlice_segG (d : Dev) (i : Fin 64) (g : SliceEng → SliceEng) : (d.modSlice i g).segG = d.segG := rfl
@[simp] theorem Dev.modSlice_slcD (d : Dev) (i : Fin 64) (g : SliceEng → SliceEng) : (d.modSlice i g).slcD = d.slcD := rfl
@[simp] theorem Dev.modSlice_slcG (d : Dev) (i : Fin 64) (g : SliceEng → SliceEng) : (d.modSlice i g).slcG = d.slcG := rfl
@[simp] theorem Dev.modSlice_passAt (d : Dev) (i : Fin 64) (g : SliceEng → SliceEng) : (d.modSlice i g).passAt = d.passAt := rfl
@[simp] theorem Dev.modSlice_govRun (d : Dev) (i : Fin 64) (g : SliceEng → SliceEng) : (d.modSlice i g).govRun = d.govRun := rfl
@[simp] theorem Dev.modSlice_railNow (d : Dev) (i : Fin 64) (g : SliceEng → SliceEng) : (d.modSlice i g).railNow = d.railNow := rfl
@[simp] theorem Dev.modSlice_hot (d : Dev) (i : Fin 64) (g : SliceEng → SliceEng) : (d.modSlice i g).hot = d.hot := rfl
@[simp] theorem Dev.modSlice_relock (d : Dev) (i : Fin 64) (g : SliceEng → SliceEng) : (d.modSlice i g).relock = d.relock := rfl
@[simp] theorem Dev.modSlice_sliceCmd (d : Dev) (i : Fin 64) (g : SliceEng → SliceEng) : (d.modSlice i g).sliceCmd = d.sliceCmd := rfl
@[simp] theorem Dev.modSlice_rcWait (d : Dev) (i : Fin 64) (g : SliceEng → SliceEng) : (d.modSlice i g).rcWait = d.rcWait := rfl
@[simp] theorem Dev.modSlice_sw (d : Dev) (i : Fin 64) (g : SliceEng → SliceEng) : (d.modSlice i g).sw = d.sw := rfl
@[simp] theorem Dev.modSlice_jasia (d : Dev) (i : Fin 64) (g : SliceEng → SliceEng) : (d.modSlice i g).jasia = d.jasia := rfl
@[simp] theorem Dev.modSlice_ptp (d : Dev) (i : Fin 64) (g : SliceEng → SliceEng) : (d.modSlice i g).ptp = d.ptp := rfl
@[simp] theorem Dev.modSlice_can (d : Dev) (i : Fin 64) (g : SliceEng → SliceEng) : (d.modSlice i g).can = d.can := rfl
@[simp] theorem Dev.modSlice_cores (d : Dev) (i : Fin 64) (g : SliceEng → SliceEng) : (d.modSlice i g).cores = d.cores := rfl
@[simp] theorem Dev.modSlice_l2 (d : Dev) (i : Fin 64) (g : SliceEng → SliceEng) : (d.modSlice i g).l2 = d.l2 := rfl
@[simp] theorem Dev.modSlice_l1 (d : Dev) (i : Fin 64) (g : SliceEng → SliceEng) : (d.modSlice i g).l1 = d.l1 := rfl
@[simp] theorem Dev.modSlice_perfAt (d : Dev) (i : Fin 64) (g : SliceEng → SliceEng) : (d.modSlice i g).perfAt = d.perfAt := rfl
@[simp] theorem Dev.modSlice_qN (d : Dev) (i : Fin 64) (g : SliceEng → SliceEng) : (d.modSlice i g).qN = d.qN := rfl
@[simp] theorem Dev.modSlice_qS (d : Dev) (i : Fin 64) (g : SliceEng → SliceEng) : (d.modSlice i g).qS = d.qS := rfl
@[simp] theorem Dev.modSlice_pairs (d : Dev) (i : Fin 64) (g : SliceEng → SliceEng) : (d.modSlice i g).pairs = d.pairs := rfl
@[simp] theorem Dev.modSlice_mord (d : Dev) (i : Fin 64) (g : SliceEng → SliceEng) : (d.modSlice i g).mord = d.mord := rfl
@[simp] theorem Dev.modSlice_dram (d : Dev) (i : Fin 64) (g : SliceEng → SliceEng) : (d.modSlice i g).dram = d.dram := rfl
@[simp] theorem Dev.modSlice_aux (d : Dev) (i : Fin 64) (g : SliceEng → SliceEng) : (d.modSlice i g).aux = d.aux := rfl
@[simp] theorem Dev.modSlice_auxSum (d : Dev) (i : Fin 64) (g : SliceEng → SliceEng) : (d.modSlice i g).auxSum = d.auxSum := rfl
@[simp] theorem Dev.modSlice_mad (d : Dev) (i : Fin 64) (g : SliceEng → SliceEng) : (d.modSlice i g).mad = d.mad := rfl
@[simp] theorem Dev.modSlice_link (d : Dev) (i : Fin 64) (g : SliceEng → SliceEng) : (d.modSlice i g).link = d.link := rfl
@[simp] theorem Dev.modSlice_sup (d : Dev) (i : Fin 64) (g : SliceEng → SliceEng) : (d.modSlice i g).sup = d.sup := rfl
@[simp] theorem Dev.modSlice_dbg (d : Dev) (i : Fin 64) (g : SliceEng → SliceEng) : (d.modSlice i g).dbg = d.dbg := rfl
@[simp] theorem Dev.modSlice_fuse (d : Dev) (i : Fin 64) (g : SliceEng → SliceEng) : (d.modSlice i g).fuse = d.fuse := rfl
@[simp] theorem Dev.modSlice_f (d : Dev) (i : Fin 64) (g : SliceEng → SliceEng) (r : RF) : (d.modSlice i g).f r = d.f r := rfl

/-! ### listEntry -/

@[simp] theorem Dev.listEntry_regs (d : Dev) (e : LogEntry) : (d.listEntry e).regs = d.regs := rfl
@[simp] theorem Dev.listEntry_now (d : Dev) (e : LogEntry) : (d.listEntry e).now = d.now := rfl
@[simp] theorem Dev.listEntry_up (d : Dev) (e : LogEntry) : (d.listEntry e).up = d.up := rfl
@[simp] theorem Dev.listEntry_upAcc (d : Dev) (e : LogEntry) : (d.listEntry e).upAcc = d.upAcc := rfl
@[simp] theorem Dev.listEntry_slewAcc (d : Dev) (e : LogEntry) : (d.listEntry e).slewAcc = d.slewAcc := rfl
@[simp] theorem Dev.listEntry_freshAt (d : Dev) (e : LogEntry) : (d.listEntry e).freshAt = d.freshAt := rfl
@[simp] theorem Dev.listEntry_fresh (d : Dev) (e : LogEntry) : (d.listEntry e).fresh = d.fresh := rfl
@[simp] theorem Dev.listEntry_resp (d : Dev) (e : LogEntry) : (d.listEntry e).resp = d.resp := rfl
@[simp] theorem Dev.listEntry_heldLow (d : Dev) (e : LogEntry) : (d.listEntry e).heldLow = d.heldLow := rfl
@[simp] theorem Dev.listEntry_capHigh (d : Dev) (e : LogEntry) : (d.listEntry e).capHigh = d.capHigh := rfl
@[simp] theorem Dev.listEntry_out (d : Dev) (e : LogEntry) : (d.listEntry e).out = d.out := rfl
@[simp] theorem Dev.listEntry_wq (d : Dev) (e : LogEntry) : (d.listEntry e).wq = d.wq := rfl
@[simp] theorem Dev.listEntry_lost (d : Dev) (e : LogEntry) : (d.listEntry e).lost = d.lost := rfl
@[simp] theorem Dev.listEntry_vatEpoch (d : Dev) (e : LogEntry) : (d.listEntry e).vatEpoch = d.vatEpoch := rfl
@[simp] theorem Dev.listEntry_dramEpoch (d : Dev) (e : LogEntry) : (d.listEntry e).dramEpoch = d.dramEpoch := rfl
@[simp] theorem Dev.listEntry_freeN (d : Dev) (e : LogEntry) : (d.listEntry e).freeN = d.freeN := rfl
@[simp] theorem Dev.listEntry_stepN (d : Dev) (e : LogEntry) : (d.listEntry e).stepN = d.stepN := rfl
@[simp] theorem Dev.listEntry_vats (d : Dev) (e : LogEntry) : (d.listEntry e).vats = d.vats := rfl
@[simp] theorem Dev.listEntry_slices (d : Dev) (e : LogEntry) : (d.listEntry e).slices = d.slices := rfl
@[simp] theorem Dev.listEntry_segD (d : Dev) (e : LogEntry) : (d.listEntry e).segD = d.segD := rfl
@[simp] theorem Dev.listEntry_segG (d : Dev) (e : LogEntry) : (d.listEntry e).segG = d.segG := rfl
@[simp] theorem Dev.listEntry_slcD (d : Dev) (e : LogEntry) : (d.listEntry e).slcD = d.slcD := rfl
@[simp] theorem Dev.listEntry_slcG (d : Dev) (e : LogEntry) : (d.listEntry e).slcG = d.slcG := rfl
@[simp] theorem Dev.listEntry_passAt (d : Dev) (e : LogEntry) : (d.listEntry e).passAt = d.passAt := rfl
@[simp] theorem Dev.listEntry_govRun (d : Dev) (e : LogEntry) : (d.listEntry e).govRun = d.govRun := rfl
@[simp] theorem Dev.listEntry_railNow (d : Dev) (e : LogEntry) : (d.listEntry e).railNow = d.railNow := rfl
@[simp] theorem Dev.listEntry_hot (d : Dev) (e : LogEntry) : (d.listEntry e).hot = d.hot := rfl
@[simp] theorem Dev.listEntry_relock (d : Dev) (e : LogEntry) : (d.listEntry e).relock = d.relock := rfl
@[simp] theorem Dev.listEntry_sliceCmd (d : Dev) (e : LogEntry) : (d.listEntry e).sliceCmd = d.sliceCmd := rfl
@[simp] theorem Dev.listEntry_rcWait (d : Dev) (e : LogEntry) : (d.listEntry e).rcWait = d.rcWait := rfl
@[simp] theorem Dev.listEntry_sw (d : Dev) (e : LogEntry) : (d.listEntry e).sw = d.sw := rfl
@[simp] theorem Dev.listEntry_jasia (d : Dev) (e : LogEntry) : (d.listEntry e).jasia = d.jasia := rfl
@[simp] theorem Dev.listEntry_ptp (d : Dev) (e : LogEntry) : (d.listEntry e).ptp = d.ptp := rfl
@[simp] theorem Dev.listEntry_can (d : Dev) (e : LogEntry) : (d.listEntry e).can = d.can := rfl
@[simp] theorem Dev.listEntry_cores (d : Dev) (e : LogEntry) : (d.listEntry e).cores = d.cores := rfl
@[simp] theorem Dev.listEntry_l2 (d : Dev) (e : LogEntry) : (d.listEntry e).l2 = d.l2 := rfl
@[simp] theorem Dev.listEntry_l1 (d : Dev) (e : LogEntry) : (d.listEntry e).l1 = d.l1 := rfl
@[simp] theorem Dev.listEntry_perfAt (d : Dev) (e : LogEntry) : (d.listEntry e).perfAt = d.perfAt := rfl
@[simp] theorem Dev.listEntry_qN (d : Dev) (e : LogEntry) : (d.listEntry e).qN = d.qN := rfl
@[simp] theorem Dev.listEntry_qS (d : Dev) (e : LogEntry) : (d.listEntry e).qS = d.qS := rfl
@[simp] theorem Dev.listEntry_pairs (d : Dev) (e : LogEntry) : (d.listEntry e).pairs = d.pairs := rfl
@[simp] theorem Dev.listEntry_mord (d : Dev) (e : LogEntry) : (d.listEntry e).mord = d.mord := rfl
@[simp] theorem Dev.listEntry_dram (d : Dev) (e : LogEntry) : (d.listEntry e).dram = d.dram := rfl
@[simp] theorem Dev.listEntry_aux (d : Dev) (e : LogEntry) : (d.listEntry e).aux = d.aux := rfl
@[simp] theorem Dev.listEntry_auxSum (d : Dev) (e : LogEntry) : (d.listEntry e).auxSum = d.auxSum := rfl
@[simp] theorem Dev.listEntry_mad (d : Dev) (e : LogEntry) : (d.listEntry e).mad = d.mad := rfl
@[simp] theorem Dev.listEntry_link (d : Dev) (e : LogEntry) : (d.listEntry e).link = d.link := rfl
@[simp] theorem Dev.listEntry_sup (d : Dev) (e : LogEntry) : (d.listEntry e).sup = d.sup := rfl
@[simp] theorem Dev.listEntry_dbg (d : Dev) (e : LogEntry) : (d.listEntry e).dbg = d.dbg := rfl
@[simp] theorem Dev.listEntry_fuse (d : Dev) (e : LogEntry) : (d.listEntry e).fuse = d.fuse := rfl
@[simp] theorem Dev.listEntry_f (d : Dev) (e : LogEntry) (r : RF) : (d.listEntry e).f r = d.f r := rfl

/-! ### note -/

@[simp] theorem Dev.note_regs (d : Dev) (e : RF) (m : Nat) : (d.note e m).regs = d.regs := rfl
@[simp] theorem Dev.note_now (d : Dev) (e : RF) (m : Nat) : (d.note e m).now = d.now := rfl
@[simp] theorem Dev.note_up (d : Dev) (e : RF) (m : Nat) : (d.note e m).up = d.up := rfl
@[simp] theorem Dev.note_upAcc (d : Dev) (e : RF) (m : Nat) : (d.note e m).upAcc = d.upAcc := rfl
@[simp] theorem Dev.note_slewAcc (d : Dev) (e : RF) (m : Nat) : (d.note e m).slewAcc = d.slewAcc := rfl
@[simp] theorem Dev.note_resp (d : Dev) (e : RF) (m : Nat) : (d.note e m).resp = d.resp := rfl
@[simp] theorem Dev.note_heldLow (d : Dev) (e : RF) (m : Nat) : (d.note e m).heldLow = d.heldLow := rfl
@[simp] theorem Dev.note_capHigh (d : Dev) (e : RF) (m : Nat) : (d.note e m).capHigh = d.capHigh := rfl
@[simp] theorem Dev.note_evlog (d : Dev) (e : RF) (m : Nat) : (d.note e m).evlog = d.evlog := rfl
@[simp] theorem Dev.note_out (d : Dev) (e : RF) (m : Nat) : (d.note e m).out = d.out := rfl
@[simp] theorem Dev.note_wq (d : Dev) (e : RF) (m : Nat) : (d.note e m).wq = d.wq := rfl
@[simp] theorem Dev.note_lost (d : Dev) (e : RF) (m : Nat) : (d.note e m).lost = d.lost := rfl
@[simp] theorem Dev.note_vatEpoch (d : Dev) (e : RF) (m : Nat) : (d.note e m).vatEpoch = d.vatEpoch := rfl
@[simp] theorem Dev.note_dramEpoch (d : Dev) (e : RF) (m : Nat) : (d.note e m).dramEpoch = d.dramEpoch := rfl
@[simp] theorem Dev.note_freeN (d : Dev) (e : RF) (m : Nat) : (d.note e m).freeN = d.freeN := rfl
@[simp] theorem Dev.note_stepN (d : Dev) (e : RF) (m : Nat) : (d.note e m).stepN = d.stepN := rfl
@[simp] theorem Dev.note_vats (d : Dev) (e : RF) (m : Nat) : (d.note e m).vats = d.vats := rfl
@[simp] theorem Dev.note_slices (d : Dev) (e : RF) (m : Nat) : (d.note e m).slices = d.slices := rfl
@[simp] theorem Dev.note_segD (d : Dev) (e : RF) (m : Nat) : (d.note e m).segD = d.segD := rfl
@[simp] theorem Dev.note_segG (d : Dev) (e : RF) (m : Nat) : (d.note e m).segG = d.segG := rfl
@[simp] theorem Dev.note_slcD (d : Dev) (e : RF) (m : Nat) : (d.note e m).slcD = d.slcD := rfl
@[simp] theorem Dev.note_slcG (d : Dev) (e : RF) (m : Nat) : (d.note e m).slcG = d.slcG := rfl
@[simp] theorem Dev.note_passAt (d : Dev) (e : RF) (m : Nat) : (d.note e m).passAt = d.passAt := rfl
@[simp] theorem Dev.note_govRun (d : Dev) (e : RF) (m : Nat) : (d.note e m).govRun = d.govRun := rfl
@[simp] theorem Dev.note_railNow (d : Dev) (e : RF) (m : Nat) : (d.note e m).railNow = d.railNow := rfl
@[simp] theorem Dev.note_hot (d : Dev) (e : RF) (m : Nat) : (d.note e m).hot = d.hot := rfl
@[simp] theorem Dev.note_relock (d : Dev) (e : RF) (m : Nat) : (d.note e m).relock = d.relock := rfl
@[simp] theorem Dev.note_sliceCmd (d : Dev) (e : RF) (m : Nat) : (d.note e m).sliceCmd = d.sliceCmd := rfl
@[simp] theorem Dev.note_rcWait (d : Dev) (e : RF) (m : Nat) : (d.note e m).rcWait = d.rcWait := rfl
@[simp] theorem Dev.note_sw (d : Dev) (e : RF) (m : Nat) : (d.note e m).sw = d.sw := rfl
@[simp] theorem Dev.note_jasia (d : Dev) (e : RF) (m : Nat) : (d.note e m).jasia = d.jasia := rfl
@[simp] theorem Dev.note_ptp (d : Dev) (e : RF) (m : Nat) : (d.note e m).ptp = d.ptp := rfl
@[simp] theorem Dev.note_can (d : Dev) (e : RF) (m : Nat) : (d.note e m).can = d.can := rfl
@[simp] theorem Dev.note_cores (d : Dev) (e : RF) (m : Nat) : (d.note e m).cores = d.cores := rfl
@[simp] theorem Dev.note_l2 (d : Dev) (e : RF) (m : Nat) : (d.note e m).l2 = d.l2 := rfl
@[simp] theorem Dev.note_l1 (d : Dev) (e : RF) (m : Nat) : (d.note e m).l1 = d.l1 := rfl
@[simp] theorem Dev.note_perfAt (d : Dev) (e : RF) (m : Nat) : (d.note e m).perfAt = d.perfAt := rfl
@[simp] theorem Dev.note_qN (d : Dev) (e : RF) (m : Nat) : (d.note e m).qN = d.qN := rfl
@[simp] theorem Dev.note_qS (d : Dev) (e : RF) (m : Nat) : (d.note e m).qS = d.qS := rfl
@[simp] theorem Dev.note_pairs (d : Dev) (e : RF) (m : Nat) : (d.note e m).pairs = d.pairs := rfl
@[simp] theorem Dev.note_mord (d : Dev) (e : RF) (m : Nat) : (d.note e m).mord = d.mord := rfl
@[simp] theorem Dev.note_dram (d : Dev) (e : RF) (m : Nat) : (d.note e m).dram = d.dram := rfl
@[simp] theorem Dev.note_aux (d : Dev) (e : RF) (m : Nat) : (d.note e m).aux = d.aux := rfl
@[simp] theorem Dev.note_auxSum (d : Dev) (e : RF) (m : Nat) : (d.note e m).auxSum = d.auxSum := rfl
@[simp] theorem Dev.note_mad (d : Dev) (e : RF) (m : Nat) : (d.note e m).mad = d.mad := rfl
@[simp] theorem Dev.note_link (d : Dev) (e : RF) (m : Nat) : (d.note e m).link = d.link := rfl
@[simp] theorem Dev.note_sup (d : Dev) (e : RF) (m : Nat) : (d.note e m).sup = d.sup := rfl
@[simp] theorem Dev.note_dbg (d : Dev) (e : RF) (m : Nat) : (d.note e m).dbg = d.dbg := rfl
@[simp] theorem Dev.note_fuse (d : Dev) (e : RF) (m : Nat) : (d.note e m).fuse = d.fuse := rfl
@[simp] theorem Dev.note_f (d : Dev) (e : RF) (m : Nat) (r : RF) : (d.note e m).f r = d.f r := rfl

@[simp] theorem Dev.setRegs_regs (d : Dev) (x : Regs) : (d.setRegs x).regs = x := rfl
@[simp] theorem Dev.setNow_now (d : Dev) (x : Nat) : (d.setNow x).now = x := rfl
@[simp] theorem Dev.setUp_up (d : Dev) (x : Nat) : (d.setUp x).up = x := rfl
@[simp] theorem Dev.setUpAcc_upAcc (d : Dev) (x : Nat) : (d.setUpAcc x).upAcc = x := rfl
@[simp] theorem Dev.setSlewAcc_slewAcc (d : Dev) (x : Int) : (d.setSlewAcc x).slewAcc = x := rfl
@[simp] theorem Dev.setResp_resp (d : Dev) (x : Resp) : (d.setResp x).resp = x := rfl
@[simp] theorem Dev.setHeldLow_heldLow (d : Dev) (x : List (Nat × Nat × Nat)) : (d.setHeldLow x).heldLow = x := rfl
@[simp] theorem Dev.setCapHigh_capHigh (d : Dev) (x : List (Nat × Nat × Nat)) : (d.setCapHigh x).capHigh = x := rfl
@[simp] theorem Dev.setEvlog_evlog (d : Dev) (x : List LogEntry) : (d.setEvlog x).evlog = x := rfl
@[simp] theorem Dev.setOut_out (d : Dev) (x : List Output) : (d.setOut x).out = x := rfl
@[simp] theorem Dev.setWq_wq (d : Dev) (x : List (Nat × List Byte)) : (d.setWq x).wq = x := rfl
@[simp] theorem Dev.setLost_lost (d : Dev) (x : List (Nat × Nat)) : (d.setLost x).lost = x := rfl
@[simp] theorem Dev.setDramEpoch_dramEpoch (d : Dev) (x : Nat) : (d.setDramEpoch x).dramEpoch = x := rfl
@[simp] theorem Dev.setFreeN_freeN (d : Dev) (x : Nat) : (d.setFreeN x).freeN = x := rfl
@[simp] theorem Dev.setStepN_stepN (d : Dev) (x : Nat) : (d.setStepN x).stepN = x := rfl
@[simp] theorem Dev.setVats_vats (d : Dev) (x : Vector Vat 16) : (d.setVats x).vats = x := rfl
@[simp] theorem Dev.setSlices_slices (d : Dev) (x : Vector SliceEng 64) : (d.setSlices x).slices = x := rfl
@[simp] theorem Dev.setSegD_segD (d : Dev) (x : Vector Nat 8) : (d.setSegD x).segD = x := rfl
@[simp] theorem Dev.setSegG_segG (d : Dev) (x : Vector Nat 8) : (d.setSegG x).segG = x := rfl
@[simp] theorem Dev.setSlcD_slcD (d : Dev) (x : Vector Nat 64) : (d.setSlcD x).slcD = x := rfl
@[simp] theorem Dev.setSlcG_slcG (d : Dev) (x : Vector Nat 64) : (d.setSlcG x).slcG = x := rfl
@[simp] theorem Dev.setPassAt_passAt (d : Dev) (x : Option Nat) : (d.setPassAt x).passAt = x := rfl
@[simp] theorem Dev.setGovRun_govRun (d : Dev) (x : Nat) : (d.setGovRun x).govRun = x := rfl
@[simp] theorem Dev.setRailNow_railNow (d : Dev) (x : Nat) : (d.setRailNow x).railNow = x := rfl
@[simp] theorem Dev.setHot_hot (d : Dev) (x : Bool) : (d.setHot x).hot = x := rfl
@[simp] theorem Dev.setRelock_relock (d : Dev) (x : Bool) : (d.setRelock x).relock = x := rfl
@[simp] theorem Dev.setSliceCmd_sliceCmd (d : Dev) (x : Option (Nat × Nat × Nat)) : (d.setSliceCmd x).sliceCmd = x := rfl
@[simp] theorem Dev.setSw_sw (d : Dev) (x : Switch) : (d.setSw x).sw = x := rfl
@[simp] theorem Dev.setJasia_jasia (d : Dev) (x : Jasia) : (d.setJasia x).jasia = x := rfl
@[simp] theorem Dev.setPtp_ptp (d : Dev) (x : Ptp) : (d.setPtp x).ptp = x := rfl
@[simp] theorem Dev.setCan_can (d : Dev) (x : Vector Can 8) : (d.setCan x).can = x := rfl
@[simp] theorem Dev.setCores_cores (d : Dev) (x : Vector Core 6) : (d.setCores x).cores = x := rfl
@[simp] theorem Dev.setL2_l2 (d : Dev) (x : List (Nat × Bool)) : (d.setL2 x).l2 = x := rfl
@[simp] theorem Dev.setL1_l1 (d : Dev) (x : List (Nat × Nat × Byte)) : (d.setL1 x).l1 = x := rfl
@[simp] theorem Dev.setPerfAt_perfAt (d : Dev) (x : Nat) : (d.setPerfAt x).perfAt = x := rfl
@[simp] theorem Dev.setRcWait_rcWait (d : Dev) (x : Nat) : (d.setRcWait x).rcWait = x := rfl
@[simp] theorem Dev.setQN_qN (d : Dev) (x : Option QReq) : (d.setQN x).qN = x := rfl
@[simp] theorem Dev.setQS_qS (d : Dev) (x : Option QReq) : (d.setQS x).qS = x := rfl
@[simp] theorem Dev.setPairs_pairs (d : Dev) (x : Vector Pair 2) : (d.setPairs x).pairs = x := rfl
@[simp] theorem Dev.setMord_mord (d : Dev) (x : Mord) : (d.setMord x).mord = x := rfl
@[simp] theorem Dev.setDram_dram (d : Dev) (x : Dram) : (d.setDram x).dram = x := rfl
@[simp] theorem Dev.setAux_aux (d : Dev) (x : Vector Aux 24) : (d.setAux x).aux = x := rfl
@[simp] theorem Dev.setAuxSum_auxSum (d : Dev) (x : List Nat) : (d.setAuxSum x).auxSum = x := rfl
@[simp] theorem Dev.setLink_link (d : Dev) (x : List LinkEvent) : (d.setLink x).link = x := rfl
@[simp] theorem Dev.setMad_mad (d : Dev) (x : Mad) : (d.setMad x).mad = x := rfl
@[simp] theorem Dev.setSup_sup (d : Dev) (x : Sup) : (d.setSup x).sup = x := rfl
@[simp] theorem Dev.setDbg_dbg (d : Dev) (x : Dbg) : (d.setDbg x).dbg = x := rfl
@[simp] theorem Dev.setFuse_fuse (d : Dev) (x : Fuses) : (d.setFuse x).fuse = x := rfl
@[simp] theorem Dev.free_fst (d : Dev) (w : Nat) : (d.free w).1 = Config.freeNat d.freeN % 2 ^ w := rfl
@[simp] theorem Dev.free_snd (d : Dev) (w : Nat) : (d.free w).2 = d.setFreeN (d.freeN + 1) := rfl

end Sys2Proof.Machine
end

