-- ==== Sys2Proof/Laws/Events.lean ====
section
/-!
SUPPORT. What raising an event source and writing a log entry can change (R433–R438): the event block's own registers, the log,
what leaves the device, which event bits are fresh, and the sources a frozen slice keeps.
-/

namespace Sys2Proof.Machine
open Sys2Proof

/-- `e` differs from `d` at most in what a report can change: registers, the log, what has left the device, the slices' engines,
and which event bits are fresh. -/
structure Dev.Reports (d e : Dev) : Prop where
  now : e.now = d.now
  up : e.up = d.up
  upAcc : e.upAcc = d.upAcc
  slewAcc : e.slewAcc = d.slewAcc
  resp : e.resp = d.resp
  heldLow : e.heldLow = d.heldLow
  capHigh : e.capHigh = d.capHigh
  wq : e.wq = d.wq
  lost : e.lost = d.lost
  vatEpoch : e.vatEpoch = d.vatEpoch
  dramEpoch : e.dramEpoch = d.dramEpoch
  freeN : e.freeN = d.freeN
  stepN : e.stepN = d.stepN
  vats : e.vats = d.vats
  segD : e.segD = d.segD
  segG : e.segG = d.segG
  slcD : e.slcD = d.slcD
  slcG : e.slcG = d.slcG
  passAt : e.passAt = d.passAt
  govRun : e.govRun = d.govRun
  railNow : e.railNow = d.railNow
  hot : e.hot = d.hot
  relock : e.relock = d.relock
  sliceCmd : e.sliceCmd = d.sliceCmd
  rcWait : e.rcWait = d.rcWait
  sw : e.sw = d.sw
  jasia : e.jasia = d.jasia
  ptp : e.ptp = d.ptp
  can : e.can = d.can
  cores : e.cores = d.cores
  l2 : e.l2 = d.l2
  l1 : e.l1 = d.l1
  perfAt : e.perfAt = d.perfAt
  qN : e.qN = d.qN
  qS : e.qS = d.qS
  pairs : e.pairs = d.pairs
  mord : e.mord = d.mord
  dram : e.dram = d.dram
  aux : e.aux = d.aux
  auxSum : e.auxSum = d.auxSum
  mad : e.mad = d.mad
  link : e.link = d.link
  sup : e.sup = d.sup
  dbg : e.dbg = d.dbg
  fuse : e.fuse = d.fuse

theorem Dev.Reports.rfl (d : Dev) : Dev.Reports d d := by constructor <;> exact Eq.refl _

theorem Dev.Reports.trans {d e g : Dev} (h : Dev.Reports d e) (h' : Dev.Reports e g) : Dev.Reports d g := by
  constructor
  · exact h'.now.trans h.now
  · exact h'.up.trans h.up
  · exact h'.upAcc.trans h.upAcc
  · exact h'.slewAcc.trans h.slewAcc
  · exact h'.resp.trans h.resp
  · exact h'.heldLow.trans h.heldLow
  · exact h'.capHigh.trans h.capHigh
  · exact h'.wq.trans h.wq
  · exact h'.lost.trans h.lost
  · exact h'.vatEpoch.trans h.vatEpoch
  · exact h'.dramEpoch.trans h.dramEpoch
  · exact h'.freeN.trans h.freeN
  · exact h'.stepN.trans h.stepN
  · exact h'.vats.trans h.vats
  · exact h'.segD.trans h.segD
  · exact h'.segG.trans h.segG
  · exact h'.slcD.trans h.slcD
  · exact h'.slcG.trans h.slcG
  · exact h'.passAt.trans h.passAt
  · exact h'.govRun.trans h.govRun
  · exact h'.railNow.trans h.railNow
  · exact h'.hot.trans h.hot
  · exact h'.relock.trans h.relock
  · exact h'.sliceCmd.trans h.sliceCmd
  · exact h'.rcWait.trans h.rcWait
  · exact h'.sw.trans h.sw
  · exact h'.jasia.trans h.jasia
  · exact h'.ptp.trans h.ptp
  · exact h'.can.trans h.can
  · exact h'.cores.trans h.cores
  · exact h'.l2.trans h.l2
  · exact h'.l1.trans h.l1
  · exact h'.perfAt.trans h.perfAt
  · exact h'.qN.trans h.qN
  · exact h'.qS.trans h.qS
  · exact h'.pairs.trans h.pairs
  · exact h'.mord.trans h.mord
  · exact h'.dram.trans h.dram
  · exact h'.aux.trans h.aux
  · exact h'.auxSum.trans h.auxSum
  · exact h'.mad.trans h.mad
  · exact h'.link.trans h.link
  · exact h'.sup.trans h.sup
  · exact h'.dbg.trans h.dbg
  · exact h'.fuse.trans h.fuse

theorem Dev.setF_same (d : Dev) (r : RF) (x : Nat) : Dev.Reports d (d.setF r x) := by constructor <;> rfl

theorem Dev.deliver_same (d : Dev) (i : Nat) : Dev.Reports d (d.deliver i) := by
  unfold Dev.deliver
  dsimp only
  split
  · split
    · constructor <;> rfl
    · constructor <;> rfl
    · exact Dev.Reports.rfl d
  · exact Dev.Reports.rfl d

theorem Dev.deliver_regs_aux (d : Dev) (i : Nat) : (d.deliver i).regs = d.regs := by
  unfold Dev.deliver
  dsimp only
  split
  · split <;> rfl
  · rfl

theorem Dev.deliver_freshAt_aux (d : Dev) (i : Nat) : (d.deliver i).freshAt = d.freshAt := by
  unfold Dev.deliver
  dsimp only
  split
  · split <;> rfl
  · rfl

theorem Dev.deliver_fresh_aux (d : Dev) (i : Nat) : (d.deliver i).fresh = d.fresh := by
  unfold Dev.deliver
  dsimp only
  split
  · split <;> rfl
  · rfl

theorem Dev.note_same (d : Dev) (r : RF) (m : Nat) : Dev.Reports d (d.note r m) := by constructor <;> rfl

theorem Dev.deliver_evlog_aux (d : Dev) (i : Nat) : (d.deliver i).evlog = d.evlog := by
  unfold Dev.deliver
  dsimp only
  split
  · split <;> rfl
  · rfl

theorem Dev.pend_same (d : Dev) (i : Nat) : Dev.Reports d (d.pend i) := by
  unfold Dev.pend
  dsimp only
  split
  · exact (Dev.note_same d _ _).trans (Dev.note_same _ _ _)
  · split
    · exact ((Dev.note_same d _ _).trans (Dev.setF_same _ _ _)).trans (Dev.deliver_same _ i)
    · exact (Dev.note_same d _ _).trans (Dev.setF_same _ _ _)

theorem Dev.pend_evlog_aux (d : Dev) (i : Nat) : (d.pend i).evlog = d.evlog := by
  unfold Dev.pend
  dsimp only
  split
  · rfl
  · split
    · exact Dev.deliver_evlog_aux _ i
    · rfl

theorem Dev.f_of_regs {d e : Dev} (h : e.regs = d.regs) (r : RF) : e.f r = d.f r := by
  unfold Dev.f
  rw [h]

/-- A rise changes no register field outside the event block. -/
theorem Dev.f_pend (d : Dev) {i : Nat} (r : RF) (hi : i < 4096) (h : r.addr < 0x20004000 ∨ 0x20004800 ≤ r.addr) (hl : r.lo < 32) :
    (d.pend i).f r = d.f r := by
  have key : ((d.note (Reg.EVT_PEND_SRC (i / 32)) (2 ^ (i % 32))).setTb (Reg.EVT_PEND_SRC (i / 32)) (i % 32) true).f r = d.f r := by
    rw [Dev.setTb_eq, Dev.f_setF_ne, Dev.note_f]
    refine RF.key_ne ?_ (show (0:Nat) < 32 by decide) hl
    simp only [Reg.EVT_PEND_SRC, Reg.EVT_PEND_at]
    omega
  unfold Dev.pend
  dsimp only
  split
  · rfl
  · split
    · rw [Dev.f_of_regs (Dev.deliver_regs_aux _ i)]
      exact key
    · exact key

theorem setBit_self (x i : Nat) : (setBit x i true).testBit i = true := by
  unfold setBit
  by_cases h : x.testBit i = true
  · simp [h]
  · have h' : x.testBit i = false := by simpa using h
    rw [if_neg h, if_pos rfl, Nat.add_comm]
    rw [Nat.testBit_two_pow_add_eq, h']
    rfl

/-- After a rise the source is pending (R433). -/
theorem Dev.pend_pends (d : Dev) (i : Nat) : (d.pend i).tb (Reg.EVT_PEND_SRC (i / 32)) (i % 32) = true := by
  have key : ((d.note (Reg.EVT_PEND_SRC (i / 32)) (2 ^ (i % 32))).setTb (Reg.EVT_PEND_SRC (i / 32)) (i % 32) true).tb (Reg.EVT_PEND_SRC (i / 32)) (i % 32) = true := by
    have h32 : i % 32 < 32 := Nat.mod_lt _ (by decide)
    simp only [Dev.tb, Dev.setTb_eq, Dev.f_setF_same]
    rw [show (Reg.EVT_PEND_SRC (i / 32)).w = 32 from rfl, Nat.testBit_mod_two_pow, setBit_self]
    simp [h32]
  unfold Dev.pend
  dsimp only
  split
  · assumption
  · split
    · have h := Dev.f_of_regs (Dev.deliver_regs_aux ((d.note (Reg.EVT_PEND_SRC (i / 32)) (2 ^ (i % 32))).setTb (Reg.EVT_PEND_SRC (i / 32)) (i % 32) true) i)
      simpa only [Dev.tb, h] using key
    · exact key

/-- Setting event bits changes no field but the event field itself and the event block's. -/
theorem Dev.f_raise (d : Dev) (e r : RF) (m : Nat) {i : Nat} (hi : i < 4096) (he : r.key ≠ e.key)
    (h : r.addr < 0x20004000 ∨ 0x20004800 ≤ r.addr) (hl : r.lo < 32) : (d.raise e m i).f r = d.f r := by
  unfold Dev.raise
  dsimp only
  split
  · rfl
  · rw [Dev.f_pend _ r hi h hl, Dev.f_setF_ne _ _ he]
    rfl

/-- After bits of an event field are set the field reads as before with those bits set. -/
theorem Dev.raise_same (d : Dev) (e : RF) (m : Nat) {i : Nat} (hi : i < 4096) (h : e.addr < 0x20004000 ∨ 0x20004800 ≤ e.addr)
    (hl : e.lo < 32) (hw : d.f e ||| m < 2 ^ e.w) : (d.raise e m i).f e = d.f e ||| m := by
  unfold Dev.raise
  dsimp only
  split
  · rename_i he; exact he.symm
  · rw [Dev.f_pend _ e hi h hl, Dev.f_setF_same, Dev.note_f, Nat.mod_eq_of_lt hw]

theorem Dev.raise_reports (d : Dev) (r : RF) (m i : Nat) : Dev.Reports d (d.raise r m i) := by
  unfold Dev.raise
  dsimp only
  split
  · exact Dev.note_same d _ _
  · exact ((Dev.note_same d _ _).trans (Dev.setF_same _ _ _)).trans (Dev.pend_same _ i)

theorem Dev.raise_evlog_aux (d : Dev) (r : RF) (m i : Nat) : (d.raise r m i).evlog = d.evlog := by
  unfold Dev.raise
  dsimp only
  split
  · rfl
  · exact Dev.pend_evlog_aux _ i

theorem Dev.logOverrun_same (d : Dev) (n : Nat) : Dev.Reports d (d.logOverrun n) := by
  unfold Dev.logOverrun
  split
  · exact ((Dev.setF_same d _ _).trans (Dev.setF_same _ _ _)).trans (Dev.pend_same _ _)
  · exact Dev.Reports.rfl d

theorem Dev.logMark_same (d : Dev) (n : Nat) : Dev.Reports d (d.logMark n) := by
  unfold Dev.logMark
  split
  · exact Dev.pend_same _ _
  · exact Dev.Reports.rfl d

theorem Dev.listEntry_reports (d : Dev) (e : LogEntry) : Dev.Reports d (d.listEntry e) := by constructor <;> rfl

theorem Dev.log_same (d : Dev) (c s i x : Nat) : Dev.Reports d (d.log c s i x) :=
  (((Dev.listEntry_reports d _).trans (Dev.setF_same _ _ _)).trans (Dev.logOverrun_same _ _)).trans (Dev.logMark_same _ _)

/-- A log entry changes no register field outside the event block. -/
theorem Dev.f_log (d : Dev) (c s i x : Nat) (r : RF) (h : r.addr < 0x20004000 ∨ 0x20004800 ≤ r.addr) (hl : r.lo < 32) :
    (d.log c s i x).f r = d.f r := by
  have e1 : r.key ≠ Reg.EVT_LOG_PI_VALUE.key := RF.key_ne (by simp only [Reg.EVT_LOG_PI_VALUE, Reg.EVT_LOG_PI_at]; omega) (by decide) hl
  have e2 : r.key ≠ Reg.EVT_LOG_CI_VALUE.key := RF.key_ne (by simp only [Reg.EVT_LOG_CI_VALUE, Reg.EVT_LOG_CI_at]; omega) (by decide) hl
  have e3 : r.key ≠ Reg.EVT_LOG_OVW_VALUE.key := RF.key_ne (by simp only [Reg.EVT_LOG_OVW_VALUE, Reg.EVT_LOG_OVW_at]; omega) (by decide) hl
  have spill : ∀ (g : Dev) (n : Nat), (g.logOverrun n).f r = g.f r := by
    intro g n
    unfold Dev.logOverrun
    split
    · rw [Dev.f_pend _ r (by decide) h hl, Dev.bump_eq, Dev.f_setF_ne _ _ e3, Dev.wrap_eq, Dev.f_setF_ne _ _ e2]
    · rfl
  have mark : ∀ (g : Dev) (n : Nat), (g.logMark n).f r = g.f r := by
    intro g n
    unfold Dev.logMark
    split
    · rw [Dev.f_pend _ r (by decide) h hl]
    · rfl
  unfold Dev.log
  rw [mark, spill, Dev.wrap_eq, Dev.f_setF_ne _ _ e1]
  rfl

/-- The newest entry of the log after an entry is written (R436). -/
theorem Dev.log_newest (d : Dev) (c s i x : Nat) : (d.log c s i x).evlog.head? = some ⟨c, s, i, x % 2 ^ 32, d.now⟩ := by
  have spill : ∀ (g : Dev) (n : Nat), (g.logOverrun n).evlog = g.evlog := by
    intro g n
    unfold Dev.logOverrun
    split
    · rw [Dev.pend_evlog_aux]; rfl
    · rfl
  have mark : ∀ (g : Dev) (n : Nat), (g.logMark n).evlog = g.evlog := by
    intro g n
    unfold Dev.logMark
    split
    · exact Dev.pend_evlog_aux _ _
    · rfl
  unfold Dev.log
  rw [mark, spill, Dev.wrap_eq]
  show ((_ :: d.evlog).take 4096).head? = _
  rw [List.take_succ_cons]
  rfl

/-! ### What stays, field by field -/

@[simp] theorem Dev.deliver_regs (d : Dev) (i : Nat) : (d.deliver i).regs = d.regs := Dev.deliver_regs_aux d i
@[simp] theorem Dev.deliver_now (d : Dev) (i : Nat) : (d.deliver i).now = d.now := (Dev.deliver_same d i).now
@[simp] theorem Dev.deliver_up (d : Dev) (i : Nat) : (d.deliver i).up = d.up := (Dev.deliver_same d i).up
@[simp] theorem Dev.deliver_upAcc (d : Dev) (i : Nat) : (d.deliver i).upAcc = d.upAcc := (Dev.deliver_same d i).upAcc
@[simp] theorem Dev.deliver_slewAcc (d : Dev) (i : Nat) : (d.deliver i).slewAcc = d.slewAcc := (Dev.deliver_same d i).slewAcc
@[simp] theorem Dev.deliver_freshAt (d : Dev) (i : Nat) : (d.deliver i).freshAt = d.freshAt := Dev.deliver_freshAt_aux d i
@[simp] theorem Dev.deliver_fresh (d : Dev) (i : Nat) : (d.deliver i).fresh = d.fresh := Dev.deliver_fresh_aux d i
@[simp] theorem Dev.deliver_resp (d : Dev) (i : Nat) : (d.deliver i).resp = d.resp := (Dev.deliver_same d i).resp
@[simp] theorem Dev.deliver_heldLow (d : Dev) (i : Nat) : (d.deliver i).heldLow = d.heldLow := (Dev.deliver_same d i).heldLow
@[simp] theorem Dev.deliver_capHigh (d : Dev) (i : Nat) : (d.deliver i).capHigh = d.capHigh := (Dev.deliver_same d i).capHigh
@[simp] theorem Dev.deliver_evlog (d : Dev) (i : Nat) : (d.deliver i).evlog = d.evlog := Dev.deliver_evlog_aux d i
@[simp] theorem Dev.deliver_wq (d : Dev) (i : Nat) : (d.deliver i).wq = d.wq := (Dev.deliver_same d i).wq
@[simp] theorem Dev.deliver_lost (d : Dev) (i : Nat) : (d.deliver i).lost = d.lost := (Dev.deliver_same d i).lost
@[simp] theorem Dev.deliver_vatEpoch (d : Dev) (i : Nat) : (d.deliver i).vatEpoch = d.vatEpoch := (Dev.deliver_same d i).vatEpoch
@[simp] theorem Dev.deliver_dramEpoch (d : Dev) (i : Nat) : (d.deliver i).dramEpoch = d.dramEpoch := (Dev.deliver_same d i).dramEpoch
@[simp] theorem Dev.deliver_freeN (d : Dev) (i : Nat) : (d.deliver i).freeN = d.freeN := (Dev.deliver_same d i).freeN
@[simp] theorem Dev.deliver_stepN (d : Dev) (i : Nat) : (d.deliver i).stepN = d.stepN := (Dev.deliver_same d i).stepN
@[simp] theorem Dev.deliver_vats (d : Dev) (i : Nat) : (d.deliver i).vats = d.vats := (Dev.deliver_same d i).vats
@[simp] theorem Dev.deliver_segD (d : Dev) (i : Nat) : (d.deliver i).segD = d.segD := (Dev.deliver_same d i).segD
@[simp] theorem Dev.deliver_segG (d : Dev) (i : Nat) : (d.deliver i).segG = d.segG := (Dev.deliver_same d i).segG
@[simp] theorem Dev.deliver_slcD (d : Dev) (i : Nat) : (d.deliver i).slcD = d.slcD := (Dev.deliver_same d i).slcD
@[simp] theorem Dev.deliver_slcG (d : Dev) (i : Nat) : (d.deliver i).slcG = d.slcG := (Dev.deliver_same d i).slcG
@[simp] theorem Dev.deliver_passAt (d : Dev) (i : Nat) : (d.deliver i).passAt = d.passAt := (Dev.deliver_same d i).passAt
@[simp] theorem Dev.deliver_govRun (d : Dev) (i : Nat) : (d.deliver i).govRun = d.govRun := (Dev.deliver_same d i).govRun
@[simp] theorem Dev.deliver_railNow (d : Dev) (i : Nat) : (d.deliver i).railNow = d.railNow := (Dev.deliver_same d i).railNow
@[simp] theorem Dev.deliver_hot (d : Dev) (i : Nat) : (d.deliver i).hot = d.hot := (Dev.deliver_same d i).hot
@[simp] theorem Dev.deliver_relock (d : Dev) (i : Nat) : (d.deliver i).relock = d.relock := (Dev.deliver_same d i).relock
@[simp] theorem Dev.deliver_sliceCmd (d : Dev) (i : Nat) : (d.deliver i).sliceCmd = d.sliceCmd := (Dev.deliver_same d i).sliceCmd
@[simp] theorem Dev.deliver_rcWait (d : Dev) (i : Nat) : (d.deliver i).rcWait = d.rcWait := (Dev.deliver_same d i).rcWait
@[simp] theorem Dev.deliver_sw (d : Dev) (i : Nat) : (d.deliver i).sw = d.sw := (Dev.deliver_same d i).sw
@[simp] theorem Dev.deliver_jasia (d : Dev) (i : Nat) : (d.deliver i).jasia = d.jasia := (Dev.deliver_same d i).jasia
@[simp] theorem Dev.deliver_ptp (d : Dev) (i : Nat) : (d.deliver i).ptp = d.ptp := (Dev.deliver_same d i).ptp
@[simp] theorem Dev.deliver_can (d : Dev) (i : Nat) : (d.deliver i).can = d.can := (Dev.deliver_same d i).can
@[simp] theorem Dev.deliver_cores (d : Dev) (i : Nat) : (d.deliver i).cores = d.cores := (Dev.deliver_same d i).cores
@[simp] theorem Dev.deliver_l2 (d : Dev) (i : Nat) : (d.deliver i).l2 = d.l2 := (Dev.deliver_same d i).l2
@[simp] theorem Dev.deliver_l1 (d : Dev) (i : Nat) : (d.deliver i).l1 = d.l1 := (Dev.deliver_same d i).l1
@[simp] theorem Dev.deliver_perfAt (d : Dev) (i : Nat) : (d.deliver i).perfAt = d.perfAt := (Dev.deliver_same d i).perfAt
@[simp] theorem Dev.deliver_qN (d : Dev) (i : Nat) : (d.deliver i).qN = d.qN := (Dev.deliver_same d i).qN
@[simp] theorem Dev.deliver_qS (d : Dev) (i : Nat) : (d.deliver i).qS = d.qS := (Dev.deliver_same d i).qS
@[simp] theorem Dev.deliver_pairs (d : Dev) (i : Nat) : (d.deliver i).pairs = d.pairs := (Dev.deliver_same d i).pairs
@[simp] theorem Dev.deliver_mord (d : Dev) (i : Nat) : (d.deliver i).mord = d.mord := (Dev.deliver_same d i).mord
@[simp] theorem Dev.deliver_dram (d : Dev) (i : Nat) : (d.deliver i).dram = d.dram := (Dev.deliver_same d i).dram
@[simp] theorem Dev.deliver_aux (d : Dev) (i : Nat) : (d.deliver i).aux = d.aux := (Dev.deliver_same d i).aux
@[simp] theorem Dev.deliver_auxSum (d : Dev) (i : Nat) : (d.deliver i).auxSum = d.auxSum := (Dev.deliver_same d i).auxSum
@[simp] theorem Dev.deliver_mad (d : Dev) (i : Nat) : (d.deliver i).mad = d.mad := (Dev.deliver_same d i).mad
@[simp] theorem Dev.deliver_link (d : Dev) (i : Nat) : (d.deliver i).link = d.link := (Dev.deliver_same d i).link
@[simp] theorem Dev.deliver_sup (d : Dev) (i : Nat) : (d.deliver i).sup = d.sup := (Dev.deliver_same d i).sup
@[simp] theorem Dev.deliver_dbg (d : Dev) (i : Nat) : (d.deliver i).dbg = d.dbg := (Dev.deliver_same d i).dbg
@[simp] theorem Dev.deliver_fuse (d : Dev) (i : Nat) : (d.deliver i).fuse = d.fuse := (Dev.deliver_same d i).fuse

@[simp] theorem Dev.pend_now (d : Dev) (i : Nat) : (d.pend i).now = d.now := (Dev.pend_same d i).now
@[simp] theorem Dev.pend_up (d : Dev) (i : Nat) : (d.pend i).up = d.up := (Dev.pend_same d i).up
@[simp] theorem Dev.pend_upAcc (d : Dev) (i : Nat) : (d.pend i).upAcc = d.upAcc := (Dev.pend_same d i).upAcc
@[simp] theorem Dev.pend_slewAcc (d : Dev) (i : Nat) : (d.pend i).slewAcc = d.slewAcc := (Dev.pend_same d i).slewAcc
@[simp] theorem Dev.pend_resp (d : Dev) (i : Nat) : (d.pend i).resp = d.resp := (Dev.pend_same d i).resp
@[simp] theorem Dev.pend_heldLow (d : Dev) (i : Nat) : (d.pend i).heldLow = d.heldLow := (Dev.pend_same d i).heldLow
@[simp] theorem Dev.pend_capHigh (d : Dev) (i : Nat) : (d.pend i).capHigh = d.capHigh := (Dev.pend_same d i).capHigh
@[simp] theorem Dev.pend_evlog (d : Dev) (i : Nat) : (d.pend i).evlog = d.evlog := Dev.pend_evlog_aux d i
@[simp] theorem Dev.pend_wq (d : Dev) (i : Nat) : (d.pend i).wq = d.wq := (Dev.pend_same d i).wq
@[simp] theorem Dev.pend_lost (d : Dev) (i : Nat) : (d.pend i).lost = d.lost := (Dev.pend_same d i).lost
@[simp] theorem Dev.pend_vatEpoch (d : Dev) (i : Nat) : (d.pend i).vatEpoch = d.vatEpoch := (Dev.pend_same d i).vatEpoch
@[simp] theorem Dev.pend_dramEpoch (d : Dev) (i : Nat) : (d.pend i).dramEpoch = d.dramEpoch := (Dev.pend_same d i).dramEpoch
@[simp] theorem Dev.pend_freeN (d : Dev) (i : Nat) : (d.pend i).freeN = d.freeN := (Dev.pend_same d i).freeN
@[simp] theorem Dev.pend_stepN (d : Dev) (i : Nat) : (d.pend i).stepN = d.stepN := (Dev.pend_same d i).stepN
@[simp] theorem Dev.pend_vats (d : Dev) (i : Nat) : (d.pend i).vats = d.vats := (Dev.pend_same d i).vats
@[simp] theorem Dev.pend_segD (d : Dev) (i : Nat) : (d.pend i).segD = d.segD := (Dev.pend_same d i).segD
@[simp] theorem Dev.pend_segG (d : Dev) (i : Nat) : (d.pend i).segG = d.segG := (Dev.pend_same d i).segG
@[simp] theorem Dev.pend_slcD (d : Dev) (i : Nat) : (d.pend i).slcD = d.slcD := (Dev.pend_same d i).slcD
@[simp] theorem Dev.pend_slcG (d : Dev) (i : Nat) : (d.pend i).slcG = d.slcG := (Dev.pend_same d i).slcG
@[simp] theorem Dev.pend_passAt (d : Dev) (i : Nat) : (d.pend i).passAt = d.passAt := (Dev.pend_same d i).passAt
@[simp] theorem Dev.pend_govRun (d : Dev) (i : Nat) : (d.pend i).govRun = d.govRun := (Dev.pend_same d i).govRun
@[simp] theorem Dev.pend_railNow (d : Dev) (i : Nat) : (d.pend i).railNow = d.railNow := (Dev.pend_same d i).railNow
@[simp] theorem Dev.pend_hot (d : Dev) (i : Nat) : (d.pend i).hot = d.hot := (Dev.pend_same d i).hot
@[simp] theorem Dev.pend_relock (d : Dev) (i : Nat) : (d.pend i).relock = d.relock := (Dev.pend_same d i).relock
@[simp] theorem Dev.pend_sliceCmd (d : Dev) (i : Nat) : (d.pend i).sliceCmd = d.sliceCmd := (Dev.pend_same d i).sliceCmd
@[simp] theorem Dev.pend_rcWait (d : Dev) (i : Nat) : (d.pend i).rcWait = d.rcWait := (Dev.pend_same d i).rcWait
@[simp] theorem Dev.pend_sw (d : Dev) (i : Nat) : (d.pend i).sw = d.sw := (Dev.pend_same d i).sw
@[simp] theorem Dev.pend_jasia (d : Dev) (i : Nat) : (d.pend i).jasia = d.jasia := (Dev.pend_same d i).jasia
@[simp] theorem Dev.pend_ptp (d : Dev) (i : Nat) : (d.pend i).ptp = d.ptp := (Dev.pend_same d i).ptp
@[simp] theorem Dev.pend_can (d : Dev) (i : Nat) : (d.pend i).can = d.can := (Dev.pend_same d i).can
@[simp] theorem Dev.pend_cores (d : Dev) (i : Nat) : (d.pend i).cores = d.cores := (Dev.pend_same d i).cores
@[simp] theorem Dev.pend_l2 (d : Dev) (i : Nat) : (d.pend i).l2 = d.l2 := (Dev.pend_same d i).l2
@[simp] theorem Dev.pend_l1 (d : Dev) (i : Nat) : (d.pend i).l1 = d.l1 := (Dev.pend_same d i).l1
@[simp] theorem Dev.pend_perfAt (d : Dev) (i : Nat) : (d.pend i).perfAt = d.perfAt := (Dev.pend_same d i).perfAt
@[simp] theorem Dev.pend_qN (d : Dev) (i : Nat) : (d.pend i).qN = d.qN := (Dev.pend_same d i).qN
@[simp] theorem Dev.pend_qS (d : Dev) (i : Nat) : (d.pend i).qS = d.qS := (Dev.pend_same d i).qS
@[simp] theorem Dev.pend_pairs (d : Dev) (i : Nat) : (d.pend i).pairs = d.pairs := (Dev.pend_same d i).pairs
@[simp] theorem Dev.pend_mord (d : Dev) (i : Nat) : (d.pend i).mord = d.mord := (Dev.pend_same d i).mord
@[simp] theorem Dev.pend_dram (d : Dev) (i : Nat) : (d.pend i).dram = d.dram := (Dev.pend_same d i).dram
@[simp] theorem Dev.pend_aux (d : Dev) (i : Nat) : (d.pend i).aux = d.aux := (Dev.pend_same d i).aux
@[simp] theorem Dev.pend_auxSum (d : Dev) (i : Nat) : (d.pend i).auxSum = d.auxSum := (Dev.pend_same d i).auxSum
@[simp] theorem Dev.pend_mad (d : Dev) (i : Nat) : (d.pend i).mad = d.mad := (Dev.pend_same d i).mad
@[simp] theorem Dev.pend_link (d : Dev) (i : Nat) : (d.pend i).link = d.link := (Dev.pend_same d i).link
@[simp] theorem Dev.pend_sup (d : Dev) (i : Nat) : (d.pend i).sup = d.sup := (Dev.pend_same d i).sup
@[simp] theorem Dev.pend_dbg (d : Dev) (i : Nat) : (d.pend i).dbg = d.dbg := (Dev.pend_same d i).dbg
@[simp] theorem Dev.pend_fuse (d : Dev) (i : Nat) : (d.pend i).fuse = d.fuse := (Dev.pend_same d i).fuse

@[simp] theorem Dev.raise_now (d : Dev) (r : RF) (m i : Nat) : (d.raise r m i).now = d.now := (Dev.raise_reports d r m i).now
@[simp] theorem Dev.raise_up (d : Dev) (r : RF) (m i : Nat) : (d.raise r m i).up = d.up := (Dev.raise_reports d r m i).up
@[simp] theorem Dev.raise_upAcc (d : Dev) (r : RF) (m i : Nat) : (d.raise r m i).upAcc = d.upAcc := (Dev.raise_reports d r m i).upAcc
@[simp] theorem Dev.raise_slewAcc (d : Dev) (r : RF) (m i : Nat) : (d.raise r m i).slewAcc = d.slewAcc := (Dev.raise_reports d r m i).slewAcc
@[simp] theorem Dev.raise_resp (d : Dev) (r : RF) (m i : Nat) : (d.raise r m i).resp = d.resp := (Dev.raise_reports d r m i).resp
@[simp] theorem Dev.raise_heldLow (d : Dev) (r : RF) (m i : Nat) : (d.raise r m i).heldLow = d.heldLow := (Dev.raise_reports d r m i).heldLow
@[simp] theorem Dev.raise_capHigh (d : Dev) (r : RF) (m i : Nat) : (d.raise r m i).capHigh = d.capHigh := (Dev.raise_reports d r m i).capHigh
@[simp] theorem Dev.raise_evlog (d : Dev) (r : RF) (m i : Nat) : (d.raise r m i).evlog = d.evlog := Dev.raise_evlog_aux d r m i
@[simp] theorem Dev.raise_wq (d : Dev) (r : RF) (m i : Nat) : (d.raise r m i).wq = d.wq := (Dev.raise_reports d r m i).wq
@[simp] theorem Dev.raise_lost (d : Dev) (r : RF) (m i : Nat) : (d.raise r m i).lost = d.lost := (Dev.raise_reports d r m i).lost
@[simp] theorem Dev.raise_vatEpoch (d : Dev) (r : RF) (m i : Nat) : (d.raise r m i).vatEpoch = d.vatEpoch := (Dev.raise_reports d r m i).vatEpoch
@[simp] theorem Dev.raise_dramEpoch (d : Dev) (r : RF) (m i : Nat) : (d.raise r m i).dramEpoch = d.dramEpoch := (Dev.raise_reports d r m i).dramEpoch
@[simp] theorem Dev.raise_freeN (d : Dev) (r : RF) (m i : Nat) : (d.raise r m i).freeN = d.freeN := (Dev.raise_reports d r m i).freeN
@[simp] theorem Dev.raise_stepN (d : Dev) (r : RF) (m i : Nat) : (d.raise r m i).stepN = d.stepN := (Dev.raise_reports d r m i).stepN
@[simp] theorem Dev.raise_vats (d : Dev) (r : RF) (m i : Nat) : (d.raise r m i).vats = d.vats := (Dev.raise_reports d r m i).vats
@[simp] theorem Dev.raise_segD (d : Dev) (r : RF) (m i : Nat) : (d.raise r m i).segD = d.segD := (Dev.raise_reports d r m i).segD
@[simp] theorem Dev.raise_segG (d : Dev) (r : RF) (m i : Nat) : (d.raise r m i).segG = d.segG := (Dev.raise_reports d r m i).segG
@[simp] theorem Dev.raise_slcD (d : Dev) (r : RF) (m i : Nat) : (d.raise r m i).slcD = d.slcD := (Dev.raise_reports d r m i).slcD
@[simp] theorem Dev.raise_slcG (d : Dev) (r : RF) (m i : Nat) : (d.raise r m i).slcG = d.slcG := (Dev.raise_reports d r m i).slcG
@[simp] theorem Dev.raise_passAt (d : Dev) (r : RF) (m i : Nat) : (d.raise r m i).passAt = d.passAt := (Dev.raise_reports d r m i).passAt
@[simp] theorem Dev.raise_govRun (d : Dev) (r : RF) (m i : Nat) : (d.raise r m i).govRun = d.govRun := (Dev.raise_reports d r m i).govRun
@[simp] theorem Dev.raise_railNow (d : Dev) (r : RF) (m i : Nat) : (d.raise r m i).railNow = d.railNow := (Dev.raise_reports d r m i).railNow
@[simp] theorem Dev.raise_hot (d : Dev) (r : RF) (m i : Nat) : (d.raise r m i).hot = d.hot := (Dev.raise_reports d r m i).hot
@[simp] theorem Dev.raise_relock (d : Dev) (r : RF) (m i : Nat) : (d.raise r m i).relock = d.relock := (Dev.raise_reports d r m i).relock
@[simp] theorem Dev.raise_sliceCmd (d : Dev) (r : RF) (m i : Nat) : (d.raise r m i).sliceCmd = d.sliceCmd := (Dev.raise_reports d r m i).sliceCmd
@[simp] theorem Dev.raise_rcWait (d : Dev) (r : RF) (m i : Nat) : (d.raise r m i).rcWait = d.rcWait := (Dev.raise_reports d r m i).rcWait
@[simp] theorem Dev.raise_sw (d : Dev) (r : RF) (m i : Nat) : (d.raise r m i).sw = d.sw := (Dev.raise_reports d r m i).sw
@[simp] theorem Dev.raise_jasia (d : Dev) (r : RF) (m i : Nat) : (d.raise r m i).jasia = d.jasia := (Dev.raise_reports d r m i).jasia
@[simp] theorem Dev.raise_ptp (d : Dev) (r : RF) (m i : Nat) : (d.raise r m i).ptp = d.ptp := (Dev.raise_reports d r m i).ptp
@[simp] theorem Dev.raise_can (d : Dev) (r : RF) (m i : Nat) : (d.raise r m i).can = d.can := (Dev.raise_reports d r m i).can
@[simp] theorem Dev.raise_cores (d : Dev) (r : RF) (m i : Nat) : (d.raise r m i).cores = d.cores := (Dev.raise_reports d r m i).cores
@[simp] theorem Dev.raise_l2 (d : Dev) (r : RF) (m i : Nat) : (d.raise r m i).l2 = d.l2 := (Dev.raise_reports d r m i).l2
@[simp] theorem Dev.raise_l1 (d : Dev) (r : RF) (m i : Nat) : (d.raise r m i).l1 = d.l1 := (Dev.raise_reports d r m i).l1
@[simp] theorem Dev.raise_perfAt (d : Dev) (r : RF) (m i : Nat) : (d.raise r m i).perfAt = d.perfAt := (Dev.raise_reports d r m i).perfAt
@[simp] theorem Dev.raise_qN (d : Dev) (r : RF) (m i : Nat) : (d.raise r m i).qN = d.qN := (Dev.raise_reports d r m i).qN
@[simp] theorem Dev.raise_qS (d : Dev) (r : RF) (m i : Nat) : (d.raise r m i).qS = d.qS := (Dev.raise_reports d r m i).qS
@[simp] theorem Dev.raise_pairs (d : Dev) (r : RF) (m i : Nat) : (d.raise r m i).pairs = d.pairs := (Dev.raise_reports d r m i).pairs
@[simp] theorem Dev.raise_mord (d : Dev) (r : RF) (m i : Nat) : (d.raise r m i).mord = d.mord := (Dev.raise_reports d r m i).mord
@[simp] theorem Dev.raise_dram (d : Dev) (r : RF) (m i : Nat) : (d.raise r m i).dram = d.dram := (Dev.raise_reports d r m i).dram
@[simp] theorem Dev.raise_aux (d : Dev) (r : RF) (m i : Nat) : (d.raise r m i).aux = d.aux := (Dev.raise_reports d r m i).aux
@[simp] theorem Dev.raise_auxSum (d : Dev) (r : RF) (m i : Nat) : (d.raise r m i).auxSum = d.auxSum := (Dev.raise_reports d r m i).auxSum
@[simp] theorem Dev.raise_mad (d : Dev) (r : RF) (m i : Nat) : (d.raise r m i).mad = d.mad := (Dev.raise_reports d r m i).mad
@[simp] theorem Dev.raise_link (d : Dev) (r : RF) (m i : Nat) : (d.raise r m i).link = d.link := (Dev.raise_reports d r m i).link
@[simp] theorem Dev.raise_sup (d : Dev) (r : RF) (m i : Nat) : (d.raise r m i).sup = d.sup := (Dev.raise_reports d r m i).sup
@[simp] theorem Dev.raise_dbg (d : Dev) (r : RF) (m i : Nat) : (d.raise r m i).dbg = d.dbg := (Dev.raise_reports d r m i).dbg
@[simp] theorem Dev.raise_fuse (d : Dev) (r : RF) (m i : Nat) : (d.raise r m i).fuse = d.fuse := (Dev.raise_reports d r m i).fuse

@[simp] theorem Dev.log_now (d : Dev) (c s i x : Nat) : (d.log c s i x).now = d.now := (Dev.log_same d c s i x).now
@[simp] theorem Dev.log_up (d : Dev) (c s i x : Nat) : (d.log c s i x).up = d.up := (Dev.log_same d c s i x).up
@[simp] theorem Dev.log_upAcc (d : Dev) (c s i x : Nat) : (d.log c s i x).upAcc = d.upAcc := (Dev.log_same d c s i x).upAcc
@[simp] theorem Dev.log_slewAcc (d : Dev) (c s i x : Nat) : (d.log c s i x).slewAcc = d.slewAcc := (Dev.log_same d c s i x).slewAcc
@[simp] theorem Dev.log_resp (d : Dev) (c s i x : Nat) : (d.log c s i x).resp = d.resp := (Dev.log_same d c s i x).resp
@[simp] theorem Dev.log_heldLow (d : Dev) (c s i x : Nat) : (d.log c s i x).heldLow = d.heldLow := (Dev.log_same d c s i x).heldLow
@[simp] theorem Dev.log_capHigh (d : Dev) (c s i x : Nat) : (d.log c s i x).capHigh = d.capHigh := (Dev.log_same d c s i x).capHigh
@[simp] theorem Dev.log_wq (d : Dev) (c s i x : Nat) : (d.log c s i x).wq = d.wq := (Dev.log_same d c s i x).wq
@[simp] theorem Dev.log_lost (d : Dev) (c s i x : Nat) : (d.log c s i x).lost = d.lost := (Dev.log_same d c s i x).lost
@[simp] theorem Dev.log_vatEpoch (d : Dev) (c s i x : Nat) : (d.log c s i x).vatEpoch = d.vatEpoch := (Dev.log_same d c s i x).vatEpoch
@[simp] theorem Dev.log_dramEpoch (d : Dev) (c s i x : Nat) : (d.log c s i x).dramEpoch = d.dramEpoch := (Dev.log_same d c s i x).dramEpoch
@[simp] theorem Dev.log_freeN (d : Dev) (c s i x : Nat) : (d.log c s i x).freeN = d.freeN := (Dev.log_same d c s i x).freeN
@[simp] theorem Dev.log_stepN (d : Dev) (c s i x : Nat) : (d.log c s i x).stepN = d.stepN := (Dev.log_same d c s i x).stepN
@[simp] theorem Dev.log_vats (d : Dev) (c s i x : Nat) : (d.log c s i x).vats = d.vats := (Dev.log_same d c s i x).vats
@[simp] theorem Dev.log_segD (d : Dev) (c s i x : Nat) : (d.log c s i x).segD = d.segD := (Dev.log_same d c s i x).segD
@[simp] theorem Dev.log_segG (d : Dev) (c s i x : Nat) : (d.log c s i x).segG = d.segG := (Dev.log_same d c s i x).segG
@[simp] theorem Dev.log_slcD (d : Dev) (c s i x : Nat) : (d.log c s i x).slcD = d.slcD := (Dev.log_same d c s i x).slcD
@[simp] theorem Dev.log_slcG (d : Dev) (c s i x : Nat) : (d.log c s i x).slcG = d.slcG := (Dev.log_same d c s i x).slcG
@[simp] theorem Dev.log_passAt (d : Dev) (c s i x : Nat) : (d.log c s i x).passAt = d.passAt := (Dev.log_same d c s i x).passAt
@[simp] theorem Dev.log_govRun (d : Dev) (c s i x : Nat) : (d.log c s i x).govRun = d.govRun := (Dev.log_same d c s i x).govRun
@[simp] theorem Dev.log_railNow (d : Dev) (c s i x : Nat) : (d.log c s i x).railNow = d.railNow := (Dev.log_same d c s i x).railNow
@[simp] theorem Dev.log_hot (d : Dev) (c s i x : Nat) : (d.log c s i x).hot = d.hot := (Dev.log_same d c s i x).hot
@[simp] theorem Dev.log_relock (d : Dev) (c s i x : Nat) : (d.log c s i x).relock = d.relock := (Dev.log_same d c s i x).relock
@[simp] theorem Dev.log_sliceCmd (d : Dev) (c s i x : Nat) : (d.log c s i x).sliceCmd = d.sliceCmd := (Dev.log_same d c s i x).sliceCmd
@[simp] theorem Dev.log_rcWait (d : Dev) (c s i x : Nat) : (d.log c s i x).rcWait = d.rcWait := (Dev.log_same d c s i x).rcWait
@[simp] theorem Dev.log_sw (d : Dev) (c s i x : Nat) : (d.log c s i x).sw = d.sw := (Dev.log_same d c s i x).sw
@[simp] theorem Dev.log_jasia (d : Dev) (c s i x : Nat) : (d.log c s i x).jasia = d.jasia := (Dev.log_same d c s i x).jasia
@[simp] theorem Dev.log_ptp (d : Dev) (c s i x : Nat) : (d.log c s i x).ptp = d.ptp := (Dev.log_same d c s i x).ptp
@[simp] theorem Dev.log_can (d : Dev) (c s i x : Nat) : (d.log c s i x).can = d.can := (Dev.log_same d c s i x).can
@[simp] theorem Dev.log_cores (d : Dev) (c s i x : Nat) : (d.log c s i x).cores = d.cores := (Dev.log_same d c s i x).cores
@[simp] theorem Dev.log_l2 (d : Dev) (c s i x : Nat) : (d.log c s i x).l2 = d.l2 := (Dev.log_same d c s i x).l2
@[simp] theorem Dev.log_l1 (d : Dev) (c s i x : Nat) : (d.log c s i x).l1 = d.l1 := (Dev.log_same d c s i x).l1
@[simp] theorem Dev.log_perfAt (d : Dev) (c s i x : Nat) : (d.log c s i x).perfAt = d.perfAt := (Dev.log_same d c s i x).perfAt
@[simp] theorem Dev.log_qN (d : Dev) (c s i x : Nat) : (d.log c s i x).qN = d.qN := (Dev.log_same d c s i x).qN
@[simp] theorem Dev.log_qS (d : Dev) (c s i x : Nat) : (d.log c s i x).qS = d.qS := (Dev.log_same d c s i x).qS
@[simp] theorem Dev.log_pairs (d : Dev) (c s i x : Nat) : (d.log c s i x).pairs = d.pairs := (Dev.log_same d c s i x).pairs
@[simp] theorem Dev.log_mord (d : Dev) (c s i x : Nat) : (d.log c s i x).mord = d.mord := (Dev.log_same d c s i x).mord
@[simp] theorem Dev.log_dram (d : Dev) (c s i x : Nat) : (d.log c s i x).dram = d.dram := (Dev.log_same d c s i x).dram
@[simp] theorem Dev.log_aux (d : Dev) (c s i x : Nat) : (d.log c s i x).aux = d.aux := (Dev.log_same d c s i x).aux
@[simp] theorem Dev.log_auxSum (d : Dev) (c s i x : Nat) : (d.log c s i x).auxSum = d.auxSum := (Dev.log_same d c s i x).auxSum
@[simp] theorem Dev.log_mad (d : Dev) (c s i x : Nat) : (d.log c s i x).mad = d.mad := (Dev.log_same d c s i x).mad
@[simp] theorem Dev.log_link (d : Dev) (c s i x : Nat) : (d.log c s i x).link = d.link := (Dev.log_same d c s i x).link
@[simp] theorem Dev.log_sup (d : Dev) (c s i x : Nat) : (d.log c s i x).sup = d.sup := (Dev.log_same d c s i x).sup
@[simp] theorem Dev.log_dbg (d : Dev) (c s i x : Nat) : (d.log c s i x).dbg = d.dbg := (Dev.log_same d c s i x).dbg
@[simp] theorem Dev.log_fuse (d : Dev) (c s i x : Nat) : (d.log c s i x).fuse = d.fuse := (Dev.log_same d c s i x).fuse

/-! ### Reports of the power die -/

/-- While the logic die runs, the power die logs like any unit. -/
theorem Dev.linkLog_live {d : Dev} (h : d.sup.held = false) (c s i x : Nat) : d.linkLog c s i x = d.log c s i x := by
  simp [Dev.linkLog, h]

/-- While the logic die is held, the entry waits on the link. -/
theorem Dev.linkLog_held {d : Dev} (h : d.sup.held = true) (c s i x : Nat) :
    d.linkLog c s i x = d.setLink (d.link ++ [.entry c s i x]) := by
  simp [Dev.linkLog, h]

/-- While the logic die runs, the power die raises its sources like any unit. -/
theorem Dev.linkRaise_live {d : Dev} (h : d.sup.held = false) (r : RF) (m i : Nat) : d.linkRaise r m i = d.raise r m i := by
  simp [Dev.linkRaise, h]

/-- What the power die reports never changes the supervisor. -/
@[simp] theorem Dev.linkLog_sup (d : Dev) (c s i x : Nat) : (d.linkLog c s i x).sup = d.sup := by
  unfold Dev.linkLog; split <;> simp
@[simp] theorem Dev.linkRaise_sup (d : Dev) (r : RF) (m i : Nat) : (d.linkRaise r m i).sup = d.sup := by
  unfold Dev.linkRaise; repeat (split <;> try simp)

/-- What the power die reports never changes Madder or the switches. -/
@[simp] theorem Dev.linkLog_mad (d : Dev) (c s i x : Nat) : (d.linkLog c s i x).mad = d.mad := by
  unfold Dev.linkLog; split <;> simp
@[simp] theorem Dev.linkRaise_mad (d : Dev) (r : RF) (m i : Nat) : (d.linkRaise r m i).mad = d.mad := by
  unfold Dev.linkRaise; repeat (split <;> try simp)
@[simp] theorem Dev.linkLog_aux (d : Dev) (c s i x : Nat) : (d.linkLog c s i x).aux = d.aux := by
  unfold Dev.linkLog; split <;> simp
@[simp] theorem Dev.linkRaise_aux (d : Dev) (r : RF) (m i : Nat) : (d.linkRaise r m i).aux = d.aux := by
  unfold Dev.linkRaise; repeat (split <;> try simp)

/-- Taking one report changes no more than a report does. -/
theorem Dev.linkOne_link (d : Dev) (x : LinkEvent) : (d.linkOne x).link = d.link := by
  cases x
  · exact Dev.pend_link d _
  · exact Dev.log_link d _ _ _ _

/-- Once the logic die has taken them, nothing waits on the link. -/
@[simp] theorem Dev.linkTake_link (d : Dev) : d.linkTake.link = [] := by
  have h : ∀ (xs : List LinkEvent) (e : Dev), (xs.foldl Dev.linkOne e).link = e.link := by
    intro xs
    induction xs with
    | nil => exact fun _ => rfl
    | cons x xs ih => exact fun e => (ih _).trans (e.linkOne_link x)
  exact h d.link (d.setLink [])

end Sys2Proof.Machine
end

