-- ==== Sys2Proof/Laws/Memory.lean ====
section
/-!
SUPPORT. The memory: reads after writes, and the canonical form that every memory operation keeps.
-/

namespace Sys2Proof.Machine
open Sys2Proof

/-! ### Reads -/

theorem Mem.find_insert_self (m : List Host.Cell) (a : Nat) (b : Byte) : Mem.find (Mem.insert m a b) a = some b := by
  induction m with
  | nil => simp [Mem.insert, Mem.find]
  | cons c rest ih =>
    obtain ⟨a', b'⟩ := c
    simp only [Mem.insert]
    split
    · simp [Mem.find]
    · split
      · simp [Mem.find]
      · rename_i h1 h2
        simp only [Mem.find, ih]
        rw [if_neg (fun h => h2 h.symm)]

theorem Mem.find_insert_ne (m : List Host.Cell) {a x : Nat} (b : Byte) (h : x ≠ a) : Mem.find (Mem.insert m a b) x = Mem.find m x := by
  induction m with
  | nil => simp [Mem.insert, Mem.find, Ne.symm h]
  | cons c rest ih =>
    obtain ⟨a', b'⟩ := c
    simp only [Mem.insert]
    split
    · simp [Mem.find, Ne.symm h]
    · split
      · rename_i h1 h2
        subst h2
        simp [Mem.find, Ne.symm h]
      · simp only [Mem.find, ih]

theorem Mem.find_filter (m : List Host.Cell) (p : Nat → Bool) (x : Nat) :
    Mem.find (m.filter (fun c => p c.1)) x = if p x then Mem.find m x else none := by
  induction m with
  | nil => simp [Mem.find]
  | cons c rest ih =>
    obtain ⟨a, b⟩ := c
    by_cases hp : p a = true
    · simp only [List.filter, hp, Mem.find]
      by_cases hx : a = x
      · subst hx; simp [hp]
      · simp only [if_neg hx]; exact ih
    · have hp' : p a = false := by simpa using hp
      simp only [List.filter, hp']
      rw [ih]
      by_cases hx : a = x
      · subst hx; simp [hp']
      · simp [Mem.find, hx]

/-- A byte reads as written. -/
theorem Mem.read_write_self (m : List Host.Cell) (ep : Nat × Nat) (a : Nat) (b : Byte) : Mem.read (Mem.write m ep a b) ep a = b := by
  unfold Mem.read Mem.write
  split
  · rename_i h
    have := Mem.find_filter m (fun x => decide (x ≠ a)) a
    simp at this
    simp [this, h]
  · rw [Mem.find_insert_self]; rfl

/-- A write leaves every other byte alone. -/
theorem Mem.read_write_ne (m : List Host.Cell) (ep : Nat × Nat) {a x : Nat} (b : Byte) (h : x ≠ a) :
    Mem.read (Mem.write m ep a b) ep x = Mem.read m ep x := by
  unfold Mem.read Mem.write
  split
  · have := Mem.find_filter m (fun x => decide (x ≠ a)) x
    simp [h] at this
    simp [this]
  · rw [Mem.find_insert_ne _ _ h]

/-- Bytes outside the written ones read as before. -/
theorem Mem.read_writes_out (ep : Nat × Nat) (bs : List Byte) : ∀ (m : List Host.Cell) (a x : Nat), x < a ∨ a + bs.length ≤ x →
    Mem.read (Mem.writes m ep a bs) ep x = Mem.read m ep x := by
  induction bs with
  | nil => intro m a x _; rfl
  | cons b bs ih =>
    intro m a x h
    simp only [Mem.writes]
    rw [ih _ _ _ (by simp only [List.length_cons] at h; omega), Mem.read_write_ne _ _ _ (by simp only [List.length_cons] at h; omega)]

/-- The written bytes read as written. -/
theorem Mem.reads_writes (ep : Nat × Nat) (bs : List Byte) : ∀ (m : List Host.Cell) (a : Nat),
    Mem.reads (Mem.writes m ep a bs) ep a bs.length = bs := by
  have key : ∀ (bs : List Byte) (m : List Host.Cell) (a k : Nat), k ≤ a → Mem.read (Mem.writes m ep (a + 1) bs) ep k = Mem.read m ep k := by
    intro bs m a k h
    exact Mem.read_writes_out ep bs m (a + 1) k (by omega)
  induction bs with
  | nil => intro m a; rfl
  | cons b bs ih =>
    intro m a
    simp only [List.length_cons, Mem.reads, Mem.writes]
    rw [key _ _ _ _ (Nat.le_refl a), Mem.read_write_self, ih]

/-! ### The canonical form -/

theorem Mem.rising_tail {c : Host.Cell} {m : List Host.Cell} (h : Mem.rising (c :: m) = true) : Mem.rising m = true := by
  cases m with
  | nil => rfl
  | cons c' rest => simp only [Mem.rising, Bool.and_eq_true] at h; exact h.2

theorem Mem.rising_lt {c : Host.Cell} {m : List Host.Cell} (h : Mem.rising (c :: m) = true) : ∀ x ∈ m, c.1 < x.1 := by
  induction m generalizing c with
  | nil => intro x hx; cases hx
  | cons c' rest ih =>
    simp only [Mem.rising, Bool.and_eq_true, decide_eq_true_eq] at h
    intro x hx
    cases hx with
    | head => exact h.1
    | tail _ hx => exact Nat.lt_trans h.1 (ih h.2 x hx)

theorem Mem.rising_cons {c : Host.Cell} {m : List Host.Cell} (h : Mem.rising m = true) (hl : ∀ x ∈ m, c.1 < x.1) :
    Mem.rising (c :: m) = true := by
  cases m with
  | nil => rfl
  | cons c' rest => simp only [Mem.rising, Bool.and_eq_true, decide_eq_true_eq]; exact ⟨hl c' (by simp), h⟩

theorem Mem.rising_filter (p : Host.Cell → Bool) {m : List Host.Cell} (h : Mem.rising m = true) : Mem.rising (m.filter p) = true := by
  induction m with
  | nil => rfl
  | cons c rest ih =>
    have ht := ih (Mem.rising_tail h)
    by_cases hp : p c = true
    · rw [List.filter_cons_of_pos hp]
      exact Mem.rising_cons ht (fun x hx => Mem.rising_lt h x ((List.mem_filter.mp hx).1))
    · rw [List.filter_cons_of_neg hp]
      exact ht

theorem Mem.mem_insert {m : List Host.Cell} {a : Nat} {b : Byte} {c : Host.Cell} (h : c ∈ Mem.insert m a b) : c = (a, b) ∨ c ∈ m := by
  induction m with
  | nil => simpa [Mem.insert] using h
  | cons e rest ih =>
    obtain ⟨a', b'⟩ := e
    simp only [Mem.insert] at h
    split at h
    · simpa using h
    · split at h
      · rcases List.mem_cons.mp h with h | h
        · exact .inl h
        · exact .inr (List.mem_cons_of_mem _ h)
      · rcases List.mem_cons.mp h with h | h
        · exact .inr (by rw [h]; simp)
        · rcases ih h with h | h
          · exact .inl h
          · exact .inr (List.mem_cons_of_mem _ h)

theorem Mem.rising_insert {m : List Host.Cell} (a : Nat) (b : Byte) (h : Mem.rising m = true) : Mem.rising (Mem.insert m a b) = true := by
  induction m with
  | nil => rfl
  | cons e rest ih =>
    obtain ⟨a', b'⟩ := e
    simp only [Mem.insert]
    split
    · rename_i hlt
      refine Mem.rising_cons h (fun x hx => ?_)
      rcases List.mem_cons.mp hx with hx | hx
      · rw [hx]; exact hlt
      · exact Nat.lt_trans hlt (Mem.rising_lt h x hx)
    · split
      · rename_i h1 h2
        subst h2
        exact Mem.rising_cons (Mem.rising_tail h) (fun x hx => Mem.rising_lt h x hx)
      · rename_i h1 h2
        refine Mem.rising_cons (ih (Mem.rising_tail h)) (fun x hx => ?_)
        rcases Mem.mem_insert hx with hx | hx
        · rw [hx]; show a' < a; omega
        · exact Mem.rising_lt h x hx

/-- A write keeps the canonical form. -/
theorem Mem.wf_write {ep : Nat × Nat} {m : List Host.Cell} (a : Nat) (b : Byte) (h : Mem.wf ep m) : Mem.wf ep (Mem.write m ep a b) := by
  unfold Mem.write
  split
  · exact ⟨Mem.rising_filter _ h.1, fun c hc => h.2 c (List.mem_filter.mp hc).1⟩
  · rename_i hb
    refine ⟨Mem.rising_insert a b h.1, fun c hc => ?_⟩
    rcases Mem.mem_insert hc with hc | hc
    · rw [hc]; exact hb
    · exact h.2 c hc

theorem Mem.wf_writes {ep : Nat × Nat} (bs : List Byte) : ∀ {m : List Host.Cell} (a : Nat), Mem.wf ep m → Mem.wf ep (Mem.writes m ep a bs) := by
  induction bs with
  | nil => intro m a h; exact h
  | cons b bs ih => intro m a h; exact ih _ (Mem.wf_write a b h)

/-- Posted writes keep the canonical form. -/
theorem Mem.wf_writeAll {ep : Nat × Nat} (ws : List (Nat × List Byte)) : ∀ {m : List Host.Cell}, Mem.wf ep m → Mem.wf ep (Mem.writeAll m ep ws) := by
  induction ws with
  | nil => intro m h; exact h
  | cons w ws ih => intro m h; exact ih (Mem.wf_writes w.2 w.1 h)

theorem Mem.dflt_epoch {ep ep' : Nat × Nat} {a : Nat} (h : Mem.epoch ep a = Mem.epoch ep' a) : Mem.dflt ep a = Mem.dflt ep' a := by
  unfold Mem.dflt
  rw [h]

/-- What has lost its contents is dropped, and the rest is in the canonical form of the new counts. -/
theorem Mem.wf_drop {old new : Nat × Nat} {m : List Host.Cell} (lost : List (Nat × Nat)) (h : Mem.wf old m) : Mem.wf new (Mem.drop m old new lost) := by
  refine ⟨Mem.rising_filter _ h.1, fun c hc => ?_⟩
  obtain ⟨hm, hp⟩ := List.mem_filter.mp hc
  rw [Bool.and_eq_true, beq_iff_eq] at hp
  rw [← Mem.dflt_epoch hp.1]
  exact h.2 c hm

/-- Nothing is dropped where nothing has lost its contents. -/
theorem Mem.drop_nil (m : List Host.Cell) (ep : Nat × Nat) : Mem.drop m ep ep [] = m := by
  unfold Mem.drop
  rw [List.filter_eq_self]
  intro c _
  simp

/-! ### The end of a meaning -/

@[simp] theorem State.commit_regs (s : State) (d : Dev) : (s.commit d).dev.regs = d.regs := rfl
@[simp] theorem State.commit_now (s : State) (d : Dev) : (s.commit d).dev.now = d.now := rfl
@[simp] theorem State.commit_up (s : State) (d : Dev) : (s.commit d).dev.up = d.up := rfl
@[simp] theorem State.commit_slewAcc (s : State) (d : Dev) : (s.commit d).dev.slewAcc = d.slewAcc := rfl
@[simp] theorem State.commit_resp (s : State) (d : Dev) : (s.commit d).dev.resp = d.resp := rfl
@[simp] theorem State.commit_heldLow (s : State) (d : Dev) : (s.commit d).dev.heldLow = d.heldLow := rfl
@[simp] theorem State.commit_capHigh (s : State) (d : Dev) : (s.commit d).dev.capHigh = d.capHigh := rfl
@[simp] theorem State.commit_evlog (s : State) (d : Dev) : (s.commit d).dev.evlog = d.evlog := rfl
@[simp] theorem State.commit_out (s : State) (d : Dev) : (s.commit d).dev.out = d.out := rfl
@[simp] theorem State.commit_vatEpoch (s : State) (d : Dev) : (s.commit d).dev.vatEpoch = d.vatEpoch := rfl
@[simp] theorem State.commit_dramEpoch (s : State) (d : Dev) : (s.commit d).dev.dramEpoch = d.dramEpoch := rfl
@[simp] theorem State.commit_freeN (s : State) (d : Dev) : (s.commit d).dev.freeN = d.freeN := rfl
@[simp] theorem State.commit_stepN (s : State) (d : Dev) : (s.commit d).dev.stepN = d.stepN := rfl
@[simp] theorem State.commit_vats (s : State) (d : Dev) : (s.commit d).dev.vats = d.vats := rfl
@[simp] theorem State.commit_slices (s : State) (d : Dev) : (s.commit d).dev.slices = d.slices := rfl
@[simp] theorem State.commit_segD (s : State) (d : Dev) : (s.commit d).dev.segD = d.segD := rfl
@[simp] theorem State.commit_segG (s : State) (d : Dev) : (s.commit d).dev.segG = d.segG := rfl
@[simp] theorem State.commit_slcD (s : State) (d : Dev) : (s.commit d).dev.slcD = d.slcD := rfl
@[simp] theorem State.commit_slcG (s : State) (d : Dev) : (s.commit d).dev.slcG = d.slcG := rfl
@[simp] theorem State.commit_govRun (s : State) (d : Dev) : (s.commit d).dev.govRun = d.govRun := rfl
@[simp] theorem State.commit_railNow (s : State) (d : Dev) : (s.commit d).dev.railNow = d.railNow := rfl
@[simp] theorem State.commit_hot (s : State) (d : Dev) : (s.commit d).dev.hot = d.hot := rfl
@[simp] theorem State.commit_relock (s : State) (d : Dev) : (s.commit d).dev.relock = d.relock := rfl
@[simp] theorem State.commit_sliceCmd (s : State) (d : Dev) : (s.commit d).dev.sliceCmd = d.sliceCmd := rfl
@[simp] theorem State.commit_sw (s : State) (d : Dev) : (s.commit d).dev.sw = d.sw := rfl
@[simp] theorem State.commit_jasia (s : State) (d : Dev) : (s.commit d).dev.jasia = d.jasia := rfl
@[simp] theorem State.commit_ptp (s : State) (d : Dev) : (s.commit d).dev.ptp = d.ptp := rfl
@[simp] theorem State.commit_can (s : State) (d : Dev) : (s.commit d).dev.can = d.can := rfl
@[simp] theorem State.commit_cores (s : State) (d : Dev) : (s.commit d).dev.cores = d.cores := rfl
@[simp] theorem State.commit_qN (s : State) (d : Dev) : (s.commit d).dev.qN = d.qN := rfl
@[simp] theorem State.commit_qS (s : State) (d : Dev) : (s.commit d).dev.qS = d.qS := rfl
@[simp] theorem State.commit_pairs (s : State) (d : Dev) : (s.commit d).dev.pairs = d.pairs := rfl
@[simp] theorem State.commit_mord (s : State) (d : Dev) : (s.commit d).dev.mord = d.mord := rfl
@[simp] theorem State.commit_dram (s : State) (d : Dev) : (s.commit d).dev.dram = d.dram := rfl
@[simp] theorem State.commit_aux (s : State) (d : Dev) : (s.commit d).dev.aux = d.aux := rfl
@[simp] theorem State.commit_auxSum (s : State) (d : Dev) : (s.commit d).dev.auxSum = d.auxSum := rfl
@[simp] theorem State.commit_link (s : State) (d : Dev) : (s.commit d).dev.link = d.link := rfl
@[simp] theorem State.commit_mad (s : State) (d : Dev) : (s.commit d).dev.mad = d.mad := rfl
@[simp] theorem State.commit_sup (s : State) (d : Dev) : (s.commit d).dev.sup = d.sup := rfl
@[simp] theorem State.commit_dbg (s : State) (d : Dev) : (s.commit d).dev.dbg = d.dbg := rfl
@[simp] theorem State.commit_fuse (s : State) (d : Dev) : (s.commit d).dev.fuse = d.fuse := rfl
@[simp] theorem State.commit_pending (s : State) (d : Dev) : (s.commit d).pending = s.pending := rfl
@[simp] theorem State.commit_wq (s : State) (d : Dev) : (s.commit d).dev.wq = [] := rfl
@[simp] theorem State.commit_lost (s : State) (d : Dev) : (s.commit d).dev.lost = [] := rfl
@[simp] theorem State.commit_f (s : State) (d : Dev) (r : RF) : (s.commit d).dev.f r = d.f r := rfl
@[simp] theorem State.commit_bit (s : State) (d : Dev) (r : RF) : (s.commit d).dev.bit r = d.bit r := rfl

theorem State.commit_wf (s : State) (d : Dev) (h : Mem.wf s.dev.ep s.mem) : Mem.wf (s.commit d).dev.ep (s.commit d).mem :=
  Mem.wf_writeAll _ (Mem.wf_drop _ h)

/-- A command that posts no write and destroys nothing leaves the memory as it was. -/
theorem State.commit_mem (s : State) (d : Dev) (hw : d.wq = []) (hl : d.lost = []) (he : d.ep = s.dev.ep) : (s.commit d).mem = s.mem := by
  unfold State.commit
  simp only [hw, hl, he, Mem.drop_nil]
  rfl

theorem State.done_held (s : State) (d : Dev) (h : s.dev.sup.held = true) : s.done d = .next s := by
  unfold State.done; rw [if_pos h]

theorem State.done_live (s : State) (d : Dev) (h : s.dev.sup.held = false) : s.done d = .next (s.commit d) := by
  unfold State.done; rw [if_neg (by simp [h])]; rfl

end Sys2Proof.Machine
end

