-- ==== Sys2Proof/Laws/Exec.lean ====
section
/-!
SUPPORT. The form every command's outcome has: a next state reached by commits, so the queue stays, and the memory keeps its
canonical form.
-/

namespace Sys2Proof.Machine
open Sys2Proof

/-- `t` is `s`, or comes from it by commits. -/
inductive Evolves : State → State → Prop where
  | refl (s : State) : Evolves s s
  | commit {s t : State} (d : Dev) (h : Evolves s t) : Evolves s (t.commit d)

theorem Evolves.trans {s t u : State} (h : Evolves s t) (h' : Evolves t u) : Evolves s u := by
  induction h' with
  | refl => exact h
  | commit d _ ih => exact .commit d ih

/-- The outcome is a next state that evolves from `s`. -/
def Form (s : State) (o : Host.Outcome State Fault Refusal) : Prop := ∃ t, o = .next t ∧ Evolves s t

theorem Form.power (s : State) (d : Dev) : Form s (s.donePower d) := ⟨_, rfl, .commit d (.refl s)⟩

theorem Form.done (s : State) (d : Dev) : Form s (s.done d) := by
  unfold State.done
  split
  · exact ⟨s, rfl, .refl s⟩
  · exact Form.power s d

theorem Form.of {s t : State} {o : Host.Outcome State Fault Refusal} (h : Evolves s t) (h' : Form t o) : Form s o := by
  obtain ⟨u, he, hu⟩ := h'
  exact ⟨u, he, h.trans hu⟩

/-- What an alternative of writes answers, if it answers. -/
def FormO (s : State) (o : Option Out) : Prop := ∀ x, o = some x → Form s x

theorem FormO.orElse {s : State} {a b : Option Out} (ha : FormO s a) (hb : FormO s b) : FormO s (a <|> b) := by
  intro x h
  cases a with
  | none => exact hb x (by simpa using h)
  | some y => exact ha x (by simpa using h)

theorem FormO.none (s : State) : FormO s none := by intro x h; cases h

theorem FormO.onReg {s : State} (x a : Nat) {o : Out} (h : Form s o) : FormO s (onReg x a o) := by
  intro y hy
  unfold Sys2Proof.Machine.onReg at hy
  split at hy
  · cases hy; exact h
  · cases hy

theorem FormO.onArr {s : State} (base stride count a : Nat) {f : Fin count → Out} (h : ∀ i, Form s (f i)) :
    FormO s (onArr base stride count a f) := by
  intro y hy
  unfold Sys2Proof.Machine.onArr at hy
  split at hy
  · split at hy
    · cases hy; exact h _
    · cases hy
  · cases hy

theorem FormO.onArr2 {s : State} (base stride count stride' count' a : Nat) {f : Fin count → Fin count' → Out} (h : ∀ i j, Form s (f i j)) :
    FormO s (onArr2 base stride count stride' count' a f) := by
  intro y hy
  unfold Sys2Proof.Machine.onArr2 at hy
  split at hy
  · split at hy
    · split at hy
      · cases hy; exact h _ _
      · cases hy
    · cases hy
  · cases hy

theorem State.storeDevice_form (s : State) (src : Src) (a : Nat) (w : Word) : FormO s (s.storeDevice src a w) := by
  unfold State.storeDevice
  repeat' apply FormO.orElse
  all_goals first
    | exact FormO.onReg _ _ (Form.done s _)
    | exact FormO.onReg _ _ (Form.power s _)
    | exact FormO.onReg _ _ (Form.of (.commit _ (.refl s)) (Form.done (s.commit _) _))
    | exact FormO.onReg _ _ (Form.of (.commit _ (.refl s)) (Form.power (s.commit _) _))
    | exact FormO.onArr _ _ _ _ (fun i => Form.done s _)

theorem State.storeVat_form (s : State) (src : Src) (a : Nat) (w : Word) : FormO s (s.storeVat src a w) := by
  unfold State.storeVat
  repeat' apply FormO.orElse
  all_goals first
    | exact FormO.onReg _ _ (Form.done s _)
    | exact FormO.onArr _ _ _ _ (fun i => Form.done s _)
    | exact FormO.onArr2 _ _ _ _ _ _ (fun i j => Form.done s _)
    | (split
       · exact FormO.onArr _ _ _ _ (fun i => Form.done s _)
       · exact FormO.none s)

theorem State.storeMac_form (s : State) (src : Src) (w : Word) : Form s (s.storeMac src w) := by
  unfold State.storeMac
  split <;> exact Form.done s _

theorem State.storeNet_form (s : State) (src : Src) (a : Nat) (w : Word) : FormO s (s.storeNet src a w) := by
  unfold State.storeNet
  repeat' apply FormO.orElse
  all_goals first
    | exact FormO.onReg _ _ (Form.done s _)
    | exact FormO.onReg _ _ (State.storeMac_form s src w)
    | exact FormO.onArr _ _ _ _ (fun i => Form.done s _)
    | exact FormO.onArr2 _ _ _ _ _ _ (fun i j => Form.done s _)
    | (split
       · refine FormO.onReg _ _ ?_
         split <;> exact Form.done s _
       · exact FormO.none s)

theorem State.storeCore_form (s : State) (src : Src) (a : Nat) (w : Word) : FormO s (s.storeCore src a w) := by
  unfold State.storeCore
  repeat' apply FormO.orElse
  all_goals first
    | exact FormO.onReg _ _ (Form.done s _)
    | exact FormO.onReg _ _ (Form.power s _)
    | exact FormO.onArr _ _ _ _ (fun i => Form.done s _)

theorem State.storeNow_form (s : State) (src : Src) (a : Nat) (w : Word) : Form s (s.storeNow src a w) := by
  unfold State.storeNow
  split
  · exact ⟨s, rfl, .refl s⟩
  · have h := ((s.storeDevice_form src a w).orElse ((s.storeVat_form src a w).orElse ((s.storeNet_form src a w).orElse (s.storeCore_form src a w))))
    revert h
    generalize (s.storeDevice src a w <|> (s.storeVat src a w <|> (s.storeNet src a w <|> s.storeCore src a w))) = o
    intro h
    cases o with
    | none => exact Form.done s _
    | some x => exact h x rfl

/-- A write a pair may have to hold back (R322). -/
theorem State.pairWrite_form (s : State) (src : Src) (a : Nat) (w : Word) {now : Out} (h : Form s now) : Form s (s.pairWrite src a w now) := by
  unfold State.pairWrite
  split
  · exact Form.done s _
  · exact h

theorem State.store_form (s : State) (src : Src) (a : Nat) (w : Word) : Form s (s.store src a w) :=
  s.pairWrite_form src a w (s.storeNow_form src a w)

/-- A comparison's outcome, with the write it set free. -/
theorem State.afterCompare_form (s : State) (r : Dev × Option (Src × Nat × Word)) : Form s (s.afterCompare r) := by
  unfold State.afterCompare
  split
  · split
    · exact ⟨s, rfl, .refl s⟩
    · exact Form.of (.commit _ (.refl s)) ((s.commit _).storeNow_form _ _ _)
  · exact Form.done s _

theorem State.access_form (s : State) (src : Src) (op : MemOp) (addr size data : Nat) (ecc : Ecc) :
    Form s (s.access src op addr size data ecc) := by
  unfold State.access
  repeat' split
  all_goals first
    | exact Form.done s _
    | exact s.store_form src _ _

/-- Every command answers a next state that evolves from the state it meets. -/
theorem exec_form (i : Instr) (s : State) : Form s (exec i s) := by
  cases i
  case registerWrite src addr data =>
    show Form s (execRegisterWrite src addr data s)
    unfold execRegisterWrite
    split
    · exact s.store_form _ _ _
    · exact Form.done s _
  case pairHighWrite src addr data =>
    show Form s (execPairHighWrite src addr data s)
    unfold execPairHighWrite
    split
    · exact s.store_form _ _ _
    · exact Form.done s _
  case memoryAccessDone ecc =>
    show Form s (execMemoryAccessDone ecc s)
    unfold execMemoryAccessDone
    split
    · split
      · exact ⟨s, rfl, .refl s⟩
      · rename_i a _ _
        obtain ⟨t, ht, he⟩ := (s.commit (s.dev.modDbg (fun x => { x with acc := none }))).access_form
          ⟨14, a.secure, 0⟩ (if a.write then .write else .read) a.addr 4 a.data ecc
        rw [ht]
        exact ⟨_, rfl, .commit _ (Evolves.trans (.commit _ (.refl s)) he)⟩
    · exact Form.done s _
  case lockstepCompare p primary shadow xErr yErr flips =>
    show Form s (execLockstepCompare p primary shadow xErr yErr flips s)
    unfold execLockstepCompare
    split
    · exact s.afterCompare_form _
    · exact Form.done s _
  case stateDigest p primary shadow xErr yErr flips =>
    show Form s (execStateDigest p primary shadow xErr yErr flips s)
    unfold execStateDigest
    split
    · exact s.afterCompare_form _
    · exact Form.done s _
  case injectionTest p primary shadow xErr yErr flips =>
    show Form s (execInjectionTest p primary shadow xErr yErr flips s)
    unfold execInjectionTest
    split
    · exact s.afterCompare_form _
    · exact Form.done s _
  all_goals first
    | exact Form.done s _
    | exact Form.power s _
    | exact s.access_form _ _ _ _ _ _
    | exact s.pairWrite_form _ _ _ (Form.done s _)

/-! ### What evolving keeps -/

theorem Evolves.pending {s t : State} (h : Evolves s t) : t.pending = s.pending := by
  induction h with
  | refl => rfl
  | commit d _ ih => exact ih

theorem Evolves.wf {s t : State} (h : Evolves s t) (hw : Mem.wf s.dev.ep s.mem) : Mem.wf t.dev.ep t.mem := by
  induction h with
  | refl => exact hw
  | commit d _ ih => exact State.commit_wf _ d ih

theorem Evolves.clean {s t : State} (h : Evolves s t) (hw : s.dev.wq = [] ∧ s.dev.lost = []) : t.dev.wq = [] ∧ t.dev.lost = [] := by
  induction h with
  | refl => exact hw
  | commit d _ _ => exact ⟨rfl, rfl⟩

end Sys2Proof.Machine
end

