-- ==== Sys2Proof/Laws/Vats.lean ====
section
/-!
SUPPORT. Everything the shared operations of vats, channels, slices and rings can change, one lemma for each operation.
-/

namespace Sys2Proof.Machine
open Sys2Proof

/-- A field the operations of channels, slices and rings never write: outside the event block, the region checkers and the blocks of slices
and rings. -/
def RF.Apart (r : RF) : Prop :=
  r.lo < 32 ∧ (r.addr < 0x20004000 ∨ (0x20004800 ≤ r.addr ∧ r.addr < 0x20030000) ∨ (0x20050000 ≤ r.addr ∧ r.addr < 0x20090000) ∨
    0x20098000 ≤ r.addr)

/-- A field a vat fence never writes: outside the SYS and event blocks, the region checkers and the blocks of vats, lanes, slices and rings. -/
def RF.Far (r : RF) : Prop :=
  r.lo < 32 ∧ (r.addr < 0x20000000 ∨ (0x20000100 ≤ r.addr ∧ r.addr < 0x20004000) ∨ (0x20004800 ≤ r.addr ∧ r.addr < 0x20010000) ∨
    (0x20050000 ≤ r.addr ∧ r.addr < 0x20090000) ∨ 0x20098000 ≤ r.addr)

theorem RF.Far.apart {r : RF} (h : r.Far) : r.Apart := ⟨h.1, by have := h.2; omega⟩

/-- What the shared operations of vats, channels, slices and rings can change: registers outside the class `A`, the vats, the
slices' engines, memory writes and what the cores' L1 may hold, and what a report can change. -/
structure Dev.Work (A : RF → Prop) (d e : Dev) : Prop where
  f : ∀ r : RF, A r → e.f r = d.f r
  now : e.now = d.now
  up : e.up = d.up
  upAcc : e.upAcc = d.upAcc
  slewAcc : e.slewAcc = d.slewAcc
  resp : e.resp = d.resp
  heldLow : e.heldLow = d.heldLow
  capHigh : e.capHigh = d.capHigh
  lost : e.lost = d.lost
  vatEpoch : e.vatEpoch = d.vatEpoch
  dramEpoch : e.dramEpoch = d.dramEpoch
  freeN : e.freeN = d.freeN
  stepN : e.stepN = d.stepN
  segD : e.segD = d.segD
  segG : e.segG = d.segG
  slcD : e.slcD = d.slcD
  slcG : e.slcG = d.slcG
  passAt : e.passAt = d.passAt
  govRun : e.govRun = d.govRun
  railNow : e.railNow = d.railNow
  hot : e.hot = d.hot
  relock : e.relock = d.relock
  sliceCmd : e.sliceCmd = d.sliceCmd
  rcWait : e.rcWait = d.rcWait
  sw : e.sw = d.sw
  jasia : e.jasia = d.jasia
  ptp : e.ptp = d.ptp
  can : e.can = d.can
  cores : e.cores = d.cores
  l2 : e.l2 = d.l2
  perfAt : e.perfAt = d.perfAt
  qN : e.qN = d.qN
  qS : e.qS = d.qS
  pairs : e.pairs = d.pairs
  mord : e.mord = d.mord
  dram : e.dram = d.dram
  aux : e.aux = d.aux
  auxSum : e.auxSum = d.auxSum
  mad : e.mad = d.mad
  link : e.link = d.link
  sup : e.sup = d.sup
  dbg : e.dbg = d.dbg
  fuse : e.fuse = d.fuse

theorem Dev.Work.refl {A : RF → Prop} (d : Dev) : Dev.Work A d d := by constructor <;> intros <;> exact Eq.refl _

theorem Dev.Work.mono {A B : RF → Prop} {d e : Dev} (hAB : ∀ r, B r → A r) (h : Dev.Work A d e) : Dev.Work B d e := by
  constructor
  · exact fun r hr => h.f r (hAB r hr)
  · exact h.now
  · exact h.up
  · exact h.upAcc
  · exact h.slewAcc
  · exact h.resp
  · exact h.heldLow
  · exact h.capHigh
  · exact h.lost
  · exact h.vatEpoch
  · exact h.dramEpoch
  · exact h.freeN
  · exact h.stepN
  · exact h.segD
  · exact h.segG
  · exact h.slcD
  · exact h.slcG
  · exact h.passAt
  · exact h.govRun
  · exact h.railNow
  · exact h.hot
  · exact h.relock
  · exact h.sliceCmd
  · exact h.rcWait
  · exact h.sw
  · exact h.jasia
  · exact h.ptp
  · exact h.can
  · exact h.cores
  · exact h.l2
  · exact h.perfAt
  · exact h.qN
  · exact h.qS
  · exact h.pairs
  · exact h.mord
  · exact h.dram
  · exact h.aux
  · exact h.auxSum
  · exact h.mad
  · exact h.link
  · exact h.sup
  · exact h.dbg
  · exact h.fuse

theorem Dev.Work.trans {A : RF → Prop} {d e g : Dev} (h : Dev.Work A d e) (h' : Dev.Work A e g) : Dev.Work A d g := by
  constructor
  · exact fun r hr => (h'.f r hr).trans (h.f r hr)
  · exact h'.now.trans h.now
  · exact h'.up.trans h.up
  · exact h'.upAcc.trans h.upAcc
  · exact h'.slewAcc.trans h.slewAcc
  · exact h'.resp.trans h.resp
  · exact h'.heldLow.trans h.heldLow
  · exact h'.capHigh.trans h.capHigh
  · exact h'.lost.trans h.lost
  · exact h'.vatEpoch.trans h.vatEpoch
  · exact h'.dramEpoch.trans h.dramEpoch
  · exact h'.freeN.trans h.freeN
  · exact h'.stepN.trans h.stepN
  · exact h'.segD.trans h.segD
  · exact h'.segG.trans h.segG
  · exact h'.slcD.trans h.slcD
  · exact h'.slcG.trans h.slcG
  · exact h'.passAt.trans h.passAt
  · exact h'.govRun.trans h.govRun
  · exact h'.railNow.trans h.railNow
  · exact h'.hot.trans h.hot
  · exact h'.relock.trans h.relock
  · exact h'.sliceCmd.trans h.sliceCmd
  · exact h'.rcWait.trans h.rcWait
  · exact h'.sw.trans h.sw
  · exact h'.jasia.trans h.jasia
  · exact h'.ptp.trans h.ptp
  · exact h'.can.trans h.can
  · exact h'.cores.trans h.cores
  · exact h'.l2.trans h.l2
  · exact h'.perfAt.trans h.perfAt
  · exact h'.qN.trans h.qN
  · exact h'.qS.trans h.qS
  · exact h'.pairs.trans h.pairs
  · exact h'.mord.trans h.mord
  · exact h'.dram.trans h.dram
  · exact h'.aux.trans h.aux
  · exact h'.auxSum.trans h.auxSum
  · exact h'.mad.trans h.mad
  · exact h'.link.trans h.link
  · exact h'.sup.trans h.sup
  · exact h'.dbg.trans h.dbg
  · exact h'.fuse.trans h.fuse

/-- Work that leaves another answer is work once the answer is put back. -/
theorem Dev.Work.restore {A : RF → Prop} {d e : Dev} (x : Resp) (h : Dev.Work A (d.setResp x) e) : Dev.Work A d (e.setResp d.resp) := by
  constructor
  · exact h.f
  · exact h.now
  · exact h.up
  · exact h.upAcc
  · exact h.slewAcc
  · rfl
  · exact h.heldLow
  · exact h.capHigh
  · exact h.lost
  · exact h.vatEpoch
  · exact h.dramEpoch
  · exact h.freeN
  · exact h.stepN
  · exact h.segD
  · exact h.segG
  · exact h.slcD
  · exact h.slcG
  · exact h.passAt
  · exact h.govRun
  · exact h.railNow
  · exact h.hot
  · exact h.relock
  · exact h.sliceCmd
  · exact h.rcWait
  · exact h.sw
  · exact h.jasia
  · exact h.ptp
  · exact h.can
  · exact h.cores
  · exact h.l2
  · exact h.perfAt
  · exact h.qN
  · exact h.qS
  · exact h.pairs
  · exact h.mord
  · exact h.dram
  · exact h.aux
  · exact h.auxSum
  · exact h.mad
  · exact h.link
  · exact h.sup
  · exact h.dbg
  · exact h.fuse

/-- Work that spares the registers outside the blocks of slices and rings. -/
abbrev Dev.VatWork (d e : Dev) : Prop := Dev.Work RF.Apart d e

theorem Dev.VatWork.far {d e : Dev} (h : Dev.VatWork d e) : Dev.Work RF.Far d e := h.mono (fun _ hr => hr.apart)

theorem Dev.Work.of_reports {A : RF → Prop} {d e : Dev} (h : Dev.Reports d e) (hf : ∀ r : RF, A r → e.f r = d.f r) : Dev.Work A d e := by
  constructor
  · exact hf
  all_goals first
    | exact h.now | exact h.up | exact h.slewAcc | exact h.resp | exact h.heldLow | exact h.capHigh | exact h.lost | exact h.vatEpoch
    | exact h.dramEpoch | exact h.freeN | exact h.stepN | exact h.segD | exact h.segG | exact h.slcD | exact h.slcG | exact h.passAt | exact h.upAcc | exact h.govRun
    | exact h.railNow | exact h.hot | exact h.relock | exact h.sliceCmd | exact h.sw | exact h.jasia | exact h.ptp | exact h.can
    | exact h.cores | exact h.qN | exact h.qS | exact h.pairs | exact h.mord | exact h.dram | exact h.aux | exact h.auxSum | exact h.mad
    | exact h.sup | exact h.dbg | exact h.fuse | exact h.rcWait | exact h.l2 | exact h.perfAt | exact h.link

theorem Dev.Work.foldl {A : RF → Prop} {α : Type} (g : Dev → α → Dev) (h : ∀ d x, Dev.Work A d (g d x)) (xs : List α) :
    ∀ d, Dev.Work A d (xs.foldl g d) := by
  induction xs with
  | nil => exact fun d => .refl d
  | cons x xs ih => exact fun d => (h d x).trans (ih (g d x))

theorem Dev.Work.foldl_mem {A : RF → Prop} {α : Type} (g : Dev → α → Dev) (xs : List α) (h : ∀ x ∈ xs, ∀ d, Dev.Work A d (g d x)) :
    ∀ d, Dev.Work A d (xs.foldl g d) := by
  induction xs with
  | nil => exact fun d => .refl d
  | cons x xs ih =>
    intro d
    exact (h x (List.mem_cons_self ..) d).trans (ih (fun y hy => h y (List.mem_cons_of_mem _ hy)) (g d x))

theorem Dev.Work.ite {A : RF → Prop} {d a b : Dev} (c : Prop) [Decidable c] (ha : Dev.Work A d a) (hb : Dev.Work A d b) :
    Dev.Work A d (if c then a else b) := by
  split <;> assumption

/-- A setting of a field of the event block, the region checkers or the blocks of slices and rings. -/
theorem Dev.setF_work (d : Dev) (r : RF) (x : Nat) (hl : r.lo < 32) (h : (0x20004000 ≤ r.addr ∧ r.addr < 0x20004800) ∨
    (0x20030000 ≤ r.addr ∧ r.addr < 0x20050000) ∨ (0x20090000 ≤ r.addr ∧ r.addr < 0x20098000)) : Dev.VatWork d (d.setF r x) :=
  .of_reports (Dev.setF_same d r x) (fun r' hr => Dev.f_setF_ne _ _ (RF.key_ne (by have := hr.2; omega) hl hr.1))

/-- A setting of a field of the SYS block or the blocks of vats, lanes, slices and rings. -/
theorem Dev.setF_far (d : Dev) (r : RF) (x : Nat) (hl : r.lo < 32) (h : (0x20000000 ≤ r.addr ∧ r.addr < 0x20000100) ∨
    (0x20010000 ≤ r.addr ∧ r.addr < 0x20050000)) : Dev.Work RF.Far d (d.setF r x) :=
  .of_reports (Dev.setF_same d r x) (fun r' hr => Dev.f_setF_ne _ _ (RF.key_ne (by have := hr.2; omega) hl hr.1))

theorem Dev.pend_work (d : Dev) {i : Nat} (hi : i < 4096) : Dev.VatWork d (d.pend i) :=
  .of_reports (Dev.pend_same d i) (fun r hr => Dev.f_pend d r hi (by have := hr.2; omega) hr.1)

theorem Dev.log_work (d : Dev) (c s i x : Nat) : Dev.VatWork d (d.log c s i x) :=
  .of_reports (Dev.log_same d c s i x) (fun r hr => Dev.f_log d c s i x r (by have := hr.2; omega) hr.1)

theorem Dev.note_work (d : Dev) (r : RF) (m : Nat) : Dev.VatWork d (d.note r m) := by constructor <;> intros <;> rfl

theorem Dev.raise_work (d : Dev) (r : RF) (m : Nat) {i : Nat} (hi : i < 4096) (hl : r.lo < 32) (h : 0x20030000 ≤ r.addr ∧ r.addr < 0x20050000) :
    Dev.VatWork d (d.raise r m i) := by
  unfold Dev.raise
  dsimp only
  split
  · exact Dev.note_work d _ _
  · exact ((Dev.note_work d _ _).trans (Dev.setF_work _ r _ hl (.inr (.inl h)))).trans (Dev.pend_work _ hi)

/-- Bits set in an event field of the blocks of vats and lanes. -/
theorem Dev.raise_far (d : Dev) (r : RF) (m : Nat) {i : Nat} (hi : i < 4096) (hl : r.lo < 32) (h : 0x20010000 ≤ r.addr ∧ r.addr < 0x20030000) :
    Dev.Work RF.Far d (d.raise r m i) := by
  unfold Dev.raise
  dsimp only
  split
  · exact (Dev.note_work d _ _).far
  · exact ((Dev.note_work d _ _).far.trans (Dev.setF_far _ r _ hl (by omega))).trans (Dev.pend_work _ hi).far

/-! ### An engine's access that fails (R28, R308) -/

theorem Dev.deny_work (d : Dev) {t : Nat} (ht : t < 17) (src : Src) (kind : AccessKind) (addr : Nat) :
    Dev.VatWork (d.setResp ⟨0, true⟩) (d.deny t src kind addr) := by
  have rc : ∀ (e : Dev) (r : RF) (x : Nat), 0x20090000 ≤ r.addr → r.addr < 0x20098000 → r.lo < 32 → Dev.VatWork e (e.setF r x) :=
    fun e r x h1 h2 hl => Dev.setF_work e r x hl (.inr (.inr ⟨h1, h2⟩))
  refine Dev.Work.trans ?_ (Dev.pend_work _ (by decide))
  refine Dev.Work.trans ?_ (Dev.log_work _ _ _ _ _)
  refine Dev.Work.trans ?_ (rc _ (Reg.RC_LAST_SRC_SLICE t) _ (by simp only [Reg.RC_LAST_SRC_SLICE, Reg.RC_LAST_SRC_at]; omega)
    (by simp only [Reg.RC_LAST_SRC_SLICE, Reg.RC_LAST_SRC_at]; omega) (show (8:Nat) < 32 by decide))
  refine Dev.Work.trans ?_ (rc _ (Reg.RC_LAST_SRC_EXEC t) _ (by simp only [Reg.RC_LAST_SRC_EXEC, Reg.RC_LAST_SRC_at]; omega)
    (by simp only [Reg.RC_LAST_SRC_EXEC, Reg.RC_LAST_SRC_at]; omega) (show (6:Nat) < 32 by decide))
  refine Dev.Work.trans ?_ (rc _ (Reg.RC_LAST_SRC_WRITE t) _ (by simp only [Reg.RC_LAST_SRC_WRITE, Reg.RC_LAST_SRC_at]; omega)
    (by simp only [Reg.RC_LAST_SRC_WRITE, Reg.RC_LAST_SRC_at]; omega) (show (5:Nat) < 32 by decide))
  refine Dev.Work.trans ?_ (rc _ (Reg.RC_LAST_SRC_SECURE t) _ (by simp only [Reg.RC_LAST_SRC_SECURE, Reg.RC_LAST_SRC_at]; omega)
    (by simp only [Reg.RC_LAST_SRC_SECURE, Reg.RC_LAST_SRC_at]; omega) (show (4:Nat) < 32 by decide))
  refine Dev.Work.trans ?_ (rc _ (Reg.RC_LAST_SRC_MASTER t) _ (by simp only [Reg.RC_LAST_SRC_MASTER, Reg.RC_LAST_SRC_at]; omega)
    (by simp only [Reg.RC_LAST_SRC_MASTER, Reg.RC_LAST_SRC_at]; omega) (show (0:Nat) < 32 by decide))
  refine Dev.Work.trans ?_ (rc _ (Reg.RC_LAST_ADDR_PAGE t) _ (by simp only [Reg.RC_LAST_ADDR_PAGE, Reg.RC_LAST_ADDR_at]; omega)
    (by simp only [Reg.RC_LAST_ADDR_PAGE, Reg.RC_LAST_ADDR_at]; omega) (show (0:Nat) < 32 by decide))
  exact rc _ (Reg.RC_DENY_COUNT t) _ (by simp only [Reg.RC_DENY_COUNT, Reg.RC_DENY_at]; omega)
    (by simp only [Reg.RC_DENY_COUNT, Reg.RC_DENY_at]; omega) (show (0:Nat) < 32 by decide)

theorem Dev.badAccess_work (d : Dev) (src : Src) (write : Bool) (addr : Nat) :
    Dev.VatWork (d.setResp ⟨0, true⟩) (d.badAccess src write addr) :=
  (Dev.log_work _ _ _ _ _).trans (Dev.pend_work _ (by decide))

theorem checkerOf_lt {addr t : Nat} (h : checkerOf addr = some t) : t < 17 := by
  unfold checkerOf at h
  repeat' split at h
  all_goals first | (cases h; omega) | cases h

/-- An engine's failing access is recorded; the answer to the latest access of a master stays. -/
theorem Dev.engineFail_work (d : Dev) (m : Fin 16) (s : Nat) (kind : AccessKind) (addr : Nat) :
    Dev.VatWork d (d.engineFail m s kind addr) := by
  unfold Dev.engineFail
  dsimp only
  refine Dev.Work.restore ⟨0, true⟩ ?_
  split
  · rename_i t ht
    split
    · exact Dev.badAccess_work d _ _ _
    · exact Dev.deny_work d (checkerOf_lt ht) _ _ _
  · exact Dev.badAccess_work d _ _ _

theorem Dev.post_work (d : Dev) (k : Nat) (bs : List Byte) : Dev.VatWork d (d.post k bs) := by constructor <;> intros <;> rfl
theorem Dev.modSlice_work (d : Dev) (s : Fin 64) (g : SliceEng → SliceEng) : Dev.VatWork d (d.modSlice s g) := by constructor <;> intros <;> rfl
theorem Dev.modVat_work (d : Dev) (v : Fin 16) (g : Vat → Vat) : Dev.VatWork d (d.modVat v g) := by constructor <;> intros <;> rfl
theorem Dev.modLane_work (d : Dev) (v : Fin 16) (g : Lane → Lane) : Dev.VatWork d (d.modLane v g) := Dev.modVat_work d v _
theorem Dev.modChan_work (d : Dev) (v k : Fin 16) (g : Chan → Chan) : Dev.VatWork d (d.modChan v k g) := Dev.modVat_work d v _
theorem Dev.modMeas_work (d : Dev) (v k : Fin 16) (g : Meas → Meas) : Dev.VatWork d (d.modMeas v k g) := Dev.modVat_work d v _
theorem Dev.modGuard_work (d : Dev) (v k : Fin 16) (g : Guard → Guard) : Dev.VatWork d (d.modGuard v k g) := Dev.modVat_work d v _

/-! ### Rings and completions -/

theorem Dev.dirtyPage_work (d : Dev) (s port pfn : Nat) : Dev.VatWork d (d.dirtyPage s port pfn) := by
  unfold Dev.dirtyPage
  dsimp only
  split
  · exact .refl d
  · split
    · exact ((Dev.note_work d _ _).trans (Dev.setF_work _ _ _ (by decide) (by simp only [Reg.DPL_STAT_OVF, Reg.DPL_STAT_at]; omega))).trans
        (Dev.raise_work _ _ _ (by decide) (by decide) (by simp only [Reg.SLICE_EVT_DPL_OVF, Reg.SLICE_EVT_at]; omega))
    · exact (((Dev.modSlice_work d _ _).trans (Dev.post_work _ _ _)).trans
        (Dev.setF_work _ Reg.DPL_PI_PI _ (by decide) (by simp only [Reg.DPL_PI_PI, Reg.DPL_PI_at]; omega))).trans (Dev.pend_work _ (by decide))

theorem Dev.write_work (d : Dev) (s loc addr : Nat) (bs : List Byte) : Dev.VatWork d (d.write s loc addr bs) := by
  unfold Dev.write
  dsimp only
  refine Dev.Work.ite _ (Dev.Work.ite _ ?_ (Dev.post_work d _ _)) (Dev.post_work d _ _)
  exact (Dev.post_work d _ _).trans (Dev.Work.foldl _ (fun d i => Dev.dirtyPage_work d s loc (addr / 4096 + i)) _ _)

theorem Dev.signal_work (d : Dev) (s : Nat) (c : Option Nat) : Dev.VatWork d (d.signal s c) := Dev.modSlice_work d _ _

theorem Dev.ringPut_work (d : Dev) (s : Nat) (r : Fin 8) (bs : List Byte) (c : Option Nat) : Dev.VatWork d (d.ringPut s r bs c) :=
  ((Dev.write_work d _ _ _ _).trans (Dev.modSlice_work _ _ _)).trans (Dev.signal_work _ _ _)

theorem Dev.loseEvent_work (d : Dev) {s : Nat} (hs : s < 64) : Dev.VatWork d (d.loseEvent s) :=
  (Dev.setF_work d (Reg.SLC_EVT_LOST_COUNT s) _ (show (0:Nat) < 32 by decide)
    (by simp only [Reg.SLC_EVT_LOST_COUNT, Reg.SLC_EVT_LOST_at]; omega)).trans (Dev.modSlice_work _ _ _)

theorem Dev.evtFull_work (d : Dev) {s : Nat} (hs : s < 64) : Dev.VatWork d (d.evtFull s) :=
  Dev.setF_work d (Reg.SLC_RING_STAT_EVT_FULL s) _ (by simp only [Reg.SLC_RING_STAT_EVT_FULL]; omega)
    (by simp only [Reg.SLC_RING_STAT_EVT_FULL, Reg.SLC_RING_STAT_at]; omega)

/-- A ring that cannot be written stops (R169). -/
theorem Dev.stopRing_work (d : Dev) {s : Nat} (hs : s < 64) (r : Fin 8) (kind : AccessKind) (addr : Nat) :
    Dev.VatWork d (d.stopRing s r kind addr) :=
  (Dev.engineFail_work d _ _ _ _).trans (Dev.setF_work _ (Reg.SLC_RING_STAT_DMA_ERR s) _ (show (4:Nat) < 32 by decide)
    (by simp only [Reg.SLC_RING_STAT_DMA_ERR, Reg.SLC_RING_STAT_at]; omega))

theorem Dev.evtCheck_work (d : Dev) {s : Nat} (hs : s < 64) : Dev.VatWork d (d.evtCheck s) := by
  unfold Dev.evtCheck
  split
  · exact Dev.stopRing_work d hs _ _ _
  · exact .refl d

theorem Dev.evtLost_work (d : Dev) {s : Nat} (hs : s < 64) : Dev.VatWork d (d.evtLost s) := by
  unfold Dev.evtLost
  dsimp only
  have h : Dev.VatWork d (if (d.slices[sl s]).evtLostRun ≠ 0 then d.evtCheck s else d) := Dev.Work.ite _ (Dev.evtCheck_work d hs) (.refl d)
  exact Dev.Work.ite _ (h.trans (((Dev.ringPut_work _ _ _ _ _).trans (Dev.modSlice_work _ _ _)).trans (Dev.evtFull_work _ hs))) h

theorem Dev.eventAt_work (d : Dev) {s : Nat} (hs : s < 64) (ty : Nat) (ch : Option Nat) (info data ts : Nat) :
    Dev.VatWork d (d.eventAt s ty ch info data ts) := by
  unfold Dev.eventAt
  exact (((Dev.evtLost_work d hs).trans (Dev.evtCheck_work _ hs)).trans
    (Dev.Work.ite _ (Dev.ringPut_work _ _ _ _ _) (Dev.loseEvent_work _ hs))).trans (Dev.evtFull_work _ hs)

theorem Dev.event_work (d : Dev) {s : Nat} (hs : s < 64) (ty : Nat) (ch : Option Nat) (info data : Nat) :
    Dev.VatWork d (d.event s ty ch info data) := Dev.eventAt_work d hs _ _ _ _ _

theorem Dev.holdCmps_work (d : Dev) {s : Nat} (hs : s < 64) : Dev.VatWork d (d.holdCmps s) := by
  unfold Dev.holdCmps
  dsimp only
  split
  · exact Dev.modSlice_work d _ _
  · exact ((Dev.modSlice_work d _ _).trans (Dev.setF_work _ (Reg.SLC_RING_STAT_CMP_FULL s) _ (by simp only [Reg.SLC_RING_STAT_CMP_FULL]; omega)
      (by simp only [Reg.SLC_RING_STAT_CMP_FULL, Reg.SLC_RING_STAT_at]; omega))).trans (Dev.event_work _ hs _ _ _ _)

theorem Dev.addCmp_work (d : Dev) {s : Nat} (hs : s < 64) (c : Cmp) : Dev.VatWork d (d.addCmp s c) := by
  unfold Dev.addCmp
  dsimp only
  split
  · exact Dev.modSlice_work d _ _
  · exact (Dev.modSlice_work d _ _).trans (Dev.holdCmps_work _ hs)

/-! ### Channels -/

theorem Chan.slice_lt (c : Chan) : c.slice < 64 := (c.owner.getD 0).2

theorem Dev.endRange_work (d : Dev) (v k : Fin 16) (t : Nat) : Dev.VatWork d (d.endRange v k t) := Dev.modMeas_work d v k _
theorem Dev.openRange_work (d : Dev) (v k : Fin 16) (s : StepTot) : Dev.VatWork d (d.openRange v k s) := Dev.modMeas_work d v k _

theorem Dev.enter_work (d : Dev) (v k : Fin 16) (st : ChSt) (t : Nat) : Dev.VatWork d (d.enter v k st t) := by
  unfold Dev.enter
  dsimp only
  split
  · exact Dev.Work.ite _ ((Dev.modChan_work d v k _).trans (Dev.eventAt_work _ (Chan.slice_lt _) _ _ _ _ _))
      (Dev.modChan_work d v k _)
  · exact Dev.modChan_work d v k _

theorem Dev.enterQuiet_work (d : Dev) (v k : Fin 16) (st : ChSt) (t : Nat) : Dev.VatWork d (d.enterQuiet v k st t) :=
  (Dev.enter_work d v k st t).trans (Dev.modChan_work _ v k _)

theorem Dev.logCv_work (d : Dev) (v k : Fin 16) (t : Nat) : Dev.VatWork d (d.logCv v k t) := Dev.modChan_work d v k _

theorem Dev.modHead_work (d : Dev) (v k : Fin 16) (g : QEntry → QEntry) : Dev.VatWork d (d.modHead v k g) := Dev.modChan_work d v k _

theorem Dev.dropEntry_work (d : Dev) (v k : Fin 16) (e : QEntry) (st info t : Nat) : Dev.VatWork d (d.dropEntry v k e st info t) :=
  Dev.addCmp_work d (Chan.slice_lt _) _

theorem Dev.dropQueue_work (d : Dev) (v k : Fin 16) (st t : Nat) : Dev.VatWork d (d.dropQueue v k st t) := by
  unfold Dev.dropQueue
  exact (Dev.Work.foldl _ (fun d e => Dev.dropEntry_work d v k e st 0 t) _ d).trans (Dev.modChan_work _ v k _)

theorem Dev.haltQueue_work (d : Dev) (v k : Fin 16) (tag t : Nat) : Dev.VatWork d (d.haltQueue v k tag t) :=
  ((Dev.dropQueue_work d v k _ _).trans (Dev.modChan_work _ v k _)).trans (Dev.eventAt_work _ (Chan.slice_lt _) _ _ _ _ _)

theorem Dev.haltIf_work (d : Dev) (v k : Fin 16) (x : Desc) (st t : Nat) : Dev.VatWork d (d.haltIf v k x st t) := by
  unfold Dev.haltIf
  split
  · exact Dev.haltQueue_work d v k _ _
  · exact .refl d

theorem Dev.settle_work (v k : Fin 16) (t n : Nat) : ∀ d : Dev, Dev.VatWork d (d.settle v k t n) := by
  induction n with
  | zero => exact fun d => .refl d
  | succ n ih =>
    intro d
    unfold Dev.settle
    dsimp only
    split
    · exact .refl d
    · split
      · exact ((Dev.modChan_work d v k _).trans (Dev.dropEntry_work _ v k _ _ _ _)).trans (ih _)
      · split
        · exact Dev.modChan_work d v k _
        · exact .refl d

theorem Dev.endStepAt_work (d : Dev) (v k : Fin 16) (st info tEnd tRange : Nat) (viol : Option (Int × Int)) :
    Dev.VatWork d (d.endStepAt v k st info tEnd tRange viol) := by
  unfold Dev.endStepAt
  dsimp only
  split
  · exact .refl d
  · refine Dev.Work.trans ?_ (Dev.modHead_work _ v k _)
    refine Dev.Work.trans ?_ (Dev.settle_work v k _ 9 _)
    refine Dev.Work.trans ?_ (Dev.haltIf_work _ v k _ _ _)
    refine Dev.Work.trans ?_ (Dev.modChan_work _ v k _)
    exact (Dev.addCmp_work d (Chan.slice_lt _) _).trans
      (Dev.Work.foldl _ (fun d m => (Dev.endRange_work d v m _).trans (Dev.modChan_work _ v m _)) _ _)

theorem Dev.endStep_work (d : Dev) (v k : Fin 16) (st info tEnd : Nat) : Dev.VatWork d (d.endStep v k st info tEnd) :=
  Dev.endStepAt_work d v k st info tEnd tEnd none

theorem Dev.dropHead_work (d : Dev) (v k : Fin 16) (st info t : Nat) : Dev.VatWork d (d.dropHead v k st info t) := by
  unfold Dev.dropHead
  split
  · exact .refl d
  · exact (((Dev.modChan_work d v k _).trans (Dev.dropEntry_work _ v k _ _ _ _)).trans (Dev.haltIf_work _ v k _ _ _)).trans
      (Dev.settle_work v k t 9 _)

/-! ### Kills, device faults, fences -/

theorem Dev.queueKill_work (d : Dev) (v : Fin 16) (mask cause : Nat) : Dev.VatWork d (d.queueKill v mask cause) := by
  unfold Dev.queueKill
  split
  · exact Dev.modLane_work d v _
  · exact .refl d

theorem Dev.withdrawKclr_work (d : Dev) (v : Fin 16) (mask : Nat) : Dev.VatWork d (d.withdrawKclr v mask) := Dev.modLane_work d v _

theorem Dev.killEnter_work (d : Dev) (v k : Fin 16) (code t : Nat) : Dev.VatWork d (d.killEnter v k code t) := by
  unfold Dev.killEnter
  exact Dev.Work.ite _ (.refl d) ((Dev.modChan_work d v k _).trans (Dev.enterQuiet_work _ v k _ _))

theorem Dev.killChans_work (d : Dev) (v lead : Fin 16) (mask code tEnd t : Nat) (viol : Option (Int × Int)) :
    Dev.VatWork d (d.killChans v lead mask code tEnd t viol) :=
  (Dev.Work.foldl _ (fun d j => Dev.killEnter_work d v j _ _) _ d).trans
    (Dev.Work.foldl _ (fun d j => Dev.endStepAt_work d v j _ _ _ _ _) _ _)

theorem Dev.voidRange_work (d : Dev) (v k : Fin 16) (id : Nat) : Dev.VatWork d (d.voidRange v k id) := Dev.modMeas_work d v k _

/-- A hold of R116 raises VAT_PROT_EVT.DEFER, so it spares only the fields a fence spares. -/
theorem Dev.holdHead_work (d : Dev) (v k : Fin 16) (t : Nat) : Dev.Work RF.Far d (d.holdHead v k t) := by
  have up : ∀ e : Dev, Dev.Work RF.Far e (e.raise (Reg.VAT_PROT_EVT_DEFER v.1) (2 ^ k.1) v.1) :=
    fun e => Dev.raise_far e _ _ (by omega) (show (16:Nat) < 32 by decide)
      (by simp only [Reg.VAT_PROT_EVT_DEFER, Reg.VAT_PROT_EVT_at]; omega)
  unfold Dev.holdHead
  split
  · exact .refl d
  · split
    · exact .refl d
    · exact (Dev.modChan_work d v k _).far.trans (up _)

theorem Dev.unarm_work (d : Dev) (v k : Fin 16) (t : Nat) : Dev.VatWork d (d.unarm v k t) := by
  unfold Dev.unarm
  split
  · exact (Dev.withdrawKclr_work d v _).trans (Dev.Work.foldl _ (fun d m => Dev.enterQuiet_work d v m _ _) _ _)
  · exact .refl d

theorem Dev.disarm_work (d : Dev) (v k : Fin 16) (t : Nat) : Dev.Work RF.Far d (d.disarm v k t) := by
  unfold Dev.disarm
  split
  · dsimp only
    refine Dev.Work.trans ?_ (Dev.holdHead_work _ v k t)
    refine Dev.Work.trans ?_ (Dev.modChan_work _ v k _).far
    exact (Dev.withdrawKclr_work d v _).far.trans (Dev.Work.foldl _ (fun d m => Dev.VatWork.far
      ((Dev.voidRange_work d v m _).trans (Dev.enterQuiet_work _ v m _ _))) _ _)
  · exact (Dev.unarm_work d v k t).far.trans (Dev.holdHead_work _ v k t)

theorem Dev.killNow_work (d : Dev) (v k : Fin 16) (code : Nat) : Dev.VatWork d (d.killNow v k code) := by
  unfold Dev.killNow
  dsimp only
  split
  · exact .refl d
  · split
    · exact Dev.modChan_work d v k _
    · exact (Dev.modChan_work d v k _).trans (Dev.enterQuiet_work _ v k _ _)

theorem Dev.endKilled_work (d : Dev) (v k : Fin 16) (t : Nat) : Dev.VatWork d (d.endKilled v k t) := by
  unfold Dev.endKilled
  split
  · exact (Dev.endStep_work d v k _ _ _).trans (Dev.modChan_work _ v k _)
  · exact .refl d

theorem Dev.killMask_work (d : Dev) (v : Fin 16) (mask cause code : Nat) : Dev.Work RF.Far d (d.killMask v mask cause code) := by
  unfold Dev.killMask
  exact (Dev.VatWork.far ((Dev.queueKill_work d v _ _).trans (Dev.withdrawKclr_work _ v _))).trans
    (Dev.Work.foldl _ (fun x k => Dev.Work.ite _ (Dev.disarm_work x v _ _) (Dev.killNow_work x v k _).far) _ _)

theorem Dev.broadcastKill_work (d : Dev) : Dev.Work RF.Far d d.broadcastKill := by
  refine Dev.Work.foldl _ (fun d v => ?_) _ d
  split
  · exact Dev.killMask_work d v _ _ _
  · exact .refl d

/-- A device fault is a safe-stop request and the KILL broadcast. -/
theorem Dev.deviceFault_work (d : Dev) :
    Dev.Work RF.Far { d with mad := { d.mad with req := some (d.mad.req.getD 0) } } d.deviceFault :=
  Dev.Work.trans (by constructor <;> intros <;> rfl) (Dev.broadcastKill_work _)

/-- The loss of the minimum service set is a device fault, and SYS_SVC.BASE reads 0. -/
theorem Dev.serviceLost_work (d : Dev) :
    Dev.Work RF.Far { d with mad := { d.mad with req := some (d.mad.req.getD 0) } } d.serviceLost :=
  Dev.Work.trans (Dev.setF_far _ Reg.SYS_SVC_BASE 0 (by decide) (by simp only [Reg.SYS_SVC_BASE, Reg.SYS_SVC_at]; omega))
    (Dev.deviceFault_work (d.setF Reg.SYS_SVC_BASE 0))

theorem Dev.setAvail_work (d : Dev) (v : Fin 16) (mask : Nat) : Dev.Work RF.Far d (d.setAvail v mask) :=
  Dev.setF_far d (Reg.SYS_CHAN_AVAIL_CH (v.1 / 2)) _ (show (0:Nat) < 32 by decide)
    (by simp only [Reg.SYS_CHAN_AVAIL_CH, Reg.SYS_CHAN_AVAIL_at]; omega)

theorem Dev.abandonCfg_work (d : Dev) (v : Fin 16) : Dev.Work RF.Far d (d.abandonCfg v) := by
  unfold Dev.abandonCfg
  dsimp only
  refine Dev.Work.ite _ ?_ (Dev.modLane_work d v _).far
  exact ((Dev.modLane_work d v _).far.trans (Dev.setF_far _ (Reg.LANE_BREG_CTL_BUSY v.1) _ (show (10:Nat) < 32 by decide)
      (by simp only [Reg.LANE_BREG_CTL_BUSY, Reg.LANE_BREG_CTL_at]; omega))).trans
      (Dev.setF_far _ (Reg.LANE_BREG_CTL_RESULT v.1) _ (show (11:Nat) < 32 by decide)
      (by simp only [Reg.LANE_BREG_CTL_RESULT, Reg.LANE_BREG_CTL_at]; omega))

theorem Dev.closeWindow_work (d : Dev) (v : Fin 16) (p : ImpPoint) : Dev.Work RF.Far d (d.closeWindow v p) := by
  unfold Dev.closeWindow
  dsimp only
  refine Dev.Work.ite _ (Dev.modVat_work d v _).far ?_
  exact ((Dev.modVat_work d v _).far.trans (Dev.setF_far _ (Reg.IMP_STAT_BUSY v.1) _ (show (0:Nat) < 32 by decide)
    (by simp only [Reg.IMP_STAT_BUSY, Reg.IMP_STAT_at]; omega))).trans
    (Dev.raise_far _ (Reg.IMP_EVT_DONE v.1) _ (by omega) (show (0:Nat) < 32 by decide)
    (by simp only [Reg.IMP_EVT_DONE, Reg.IMP_EVT_at]; omega))

theorem Dev.dropSweep_work (d : Dev) (v : Fin 16) : Dev.Work RF.Far d (d.dropSweep v) := by
  have close : Dev.Work RF.Far d (d.closeEnded v) := by
    unfold Dev.closeEnded
    split
    · exact Dev.Work.ite _ (Dev.closeWindow_work d v _) (.refl d)
    · exact .refl d
  exact (close.trans (Dev.modVat_work _ v _).far).trans (Dev.setF_far _ (Reg.IMP_STAT_BUSY v.1) _ (show (0:Nat) < 32 by decide)
      (by simp only [Reg.IMP_STAT_BUSY, Reg.IMP_STAT_at]; omega))

theorem Dev.eachChan_work (d : Dev) (g : Dev → Fin 16 → Dev) (h : ∀ d k, Dev.VatWork d (g d k)) : Dev.VatWork d (d.eachChan g) :=
  Dev.Work.foldl g h _ d

/-- The channels of a fenced vat end their steps and enter FENCED; then the fence is reported. -/
theorem Dev.fenceReport_work (d : Dev) (v : Fin 16) (cause : Nat) : Dev.VatWork d (d.fenceReport v cause) := by
  unfold Dev.fenceReport
  dsimp only
  refine Dev.Work.trans ?_ (Dev.pend_work _ (by omega))
  refine Dev.Work.trans ?_ (Dev.Work.foldl_mem _ _ (fun s hs d => Dev.event_work d (by
    have := (List.mem_filter.mp hs).1; exact List.mem_range.mp this) _ _ _ _) _)
  refine Dev.Work.trans ?_ (Dev.log_work _ _ _ _ _)
  refine Dev.eachChan_work _ _ (fun d k => ?_)
  refine Dev.Work.trans ?_ (Dev.Work.ite _ (.refl _) (Dev.enterQuiet_work _ v k _ _))
  refine Dev.Work.trans ?_ ((Dev.modChan_work _ v k _).trans (Dev.logCv_work _ v k _))
  refine Dev.Work.trans ?_ ((Dev.modChan_work _ v k _).trans (Dev.dropQueue_work _ v k _ _))
  refine Dev.Work.trans ?_ ((Dev.endKilled_work _ v k _).trans (Dev.endStep_work _ v k _ _ _))
  refine Dev.Work.trans ?_ (Dev.modChan_work _ v k _)
  exact (Dev.modChan_work d v k _).trans (Dev.Work.ite _ (.refl _) (Dev.enterQuiet_work _ v k _ _))

theorem Dev.fenceVat_work (d : Dev) (v : Fin 16) (cause : Nat) : Dev.Work RF.Far d (d.fenceVat v cause) := by
  have stat : ∀ (d : Dev) (r : RF) (x : Nat), r.addr = Reg.VAT_STAT_at v.1 → r.lo < 32 → Dev.Work RF.Far d (d.setF r x) := by
    intro d r x ha hl
    exact Dev.setF_far d r x hl (by rw [ha]; simp only [Reg.VAT_STAT_at]; omega)
  unfold Dev.fenceVat
  split
  · exact .refl d
  · refine Dev.Work.trans ?_ (Dev.fenceReport_work _ v cause).far
    refine Dev.Work.trans ?_ (stat _ (Reg.VAT_STAT_IN_SERVICE v.1) _ rfl (show (0:Nat) < 32 by decide))
    refine Dev.Work.trans ?_ (stat _ (Reg.VAT_STAT_CAUSE v.1) _ rfl (show (4:Nat) < 32 by decide))
    refine Dev.Work.trans ?_ (stat _ (Reg.VAT_STAT_FENCE_DONE v.1) _ rfl (show (2:Nat) < 32 by decide))
    refine Dev.Work.trans ?_ (stat _ (Reg.VAT_STAT_FENCED v.1) _ rfl (show (1:Nat) < 32 by decide))
    refine Dev.Work.trans ?_ (Dev.setF_far _ (Reg.LANE_STAT_STATE v.1) _ (show (0:Nat) < 32 by decide)
      (by simp only [Reg.LANE_STAT_STATE, Reg.LANE_STAT_at]; omega))
    unfold Dev.fenceLane
    refine Dev.Work.trans ?_ (Dev.dropSweep_work _ v)
    refine Dev.Work.trans ?_ (Dev.modLane_work _ v _).far
    refine Dev.Work.trans ?_ (Dev.abandonCfg_work _ v)
    refine Dev.Work.trans ?_ (Dev.setAvail_work _ v 0)
    exact Dev.setF_far d Reg.SYS_FENCE_VAT _ (by decide) (by simp only [Reg.SYS_FENCE_VAT, Reg.SYS_FENCE_at]; omega)

/-- The registers of a vat that a fence leaves (R121). -/
theorem Dev.fenceVat_status (d : Dev) (v : Fin 16) (cause : Nat) (h : d.fenced v = false) :
    (d.fenceVat v cause).fenced v = true ∧ (d.fenceVat v cause).f (Reg.VAT_STAT_FENCE_DONE v.1) = 0 ∧
    (d.fenceVat v cause).f (Reg.VAT_STAT_CAUSE v.1) = cause % 8 ∧ (d.fenceVat v cause).f (Reg.VAT_STAT_IN_SERVICE v.1) = 0 ∧
    (d.fenceVat v cause).laneState v = laneHeld := by
  have hv := v.2
  have ap : ∀ r : RF, (r.addr = Reg.VAT_STAT_at v.1 ∨ r.addr = Reg.LANE_STAT_at v.1) → r.lo < 32 → r.Apart := by
    intro r hr hl
    refine ⟨hl, ?_⟩
    rcases hr with hr | hr <;> rw [hr] <;> simp only [Reg.VAT_STAT_at, Reg.LANE_STAT_at] <;> omega
  have lo : ∀ (e : Dev) (r r' : RF) (x : Nat), r'.lo ≠ r.lo → r.lo < 32 → r'.lo < 32 → (e.setF r x).f r' = e.f r' :=
    fun e r r' x h1 h2 h3 => Dev.f_setF_ne e x (RF.key_ne_lo h1 h2 h3)
  have e0 : d.fenceVat v cause = ((((((d.fenceLane v).setF (Reg.LANE_STAT_STATE v.1) laneHeld).setF (Reg.VAT_STAT_FENCED v.1) 1).setF
      (Reg.VAT_STAT_FENCE_DONE v.1) 0).setF (Reg.VAT_STAT_CAUSE v.1) cause).setF (Reg.VAT_STAT_IN_SERVICE v.1) 0).fenceReport v cause := by
    unfold Dev.fenceVat
    rw [if_neg (by simp [h])]
  rw [e0]
  have w := Dev.fenceReport_work ((((((d.fenceLane v).setF (Reg.LANE_STAT_STATE v.1) laneHeld).setF (Reg.VAT_STAT_FENCED v.1) 1).setF
      (Reg.VAT_STAT_FENCE_DONE v.1) 0).setF (Reg.VAT_STAT_CAUSE v.1) cause).setF (Reg.VAT_STAT_IN_SERVICE v.1) 0) v cause
  refine ⟨?_, ?_, ?_, ?_, ?_⟩
  · show ((_ : Dev).f (Reg.VAT_STAT_FENCED v.1) == 1) = true
    rw [w.f _ (ap _ (.inl rfl) (show (1:Nat) < 32 by decide)), lo, lo, lo, Dev.f_setF_same] <;> simp [Reg.VAT_STAT_FENCED, Reg.VAT_STAT_FENCE_DONE, Reg.VAT_STAT_CAUSE, Reg.VAT_STAT_IN_SERVICE]
  · rw [w.f _ (ap _ (.inl rfl) (show (2:Nat) < 32 by decide)), lo, lo, Dev.f_setF_same] <;> simp [Reg.VAT_STAT_FENCE_DONE, Reg.VAT_STAT_CAUSE, Reg.VAT_STAT_IN_SERVICE]
  · rw [w.f _ (ap _ (.inl rfl) (show (4:Nat) < 32 by decide)), lo, Dev.f_setF_same] <;> simp [Reg.VAT_STAT_CAUSE, Reg.VAT_STAT_IN_SERVICE]
  · rw [w.f _ (ap _ (.inl rfl) (show (0:Nat) < 32 by decide)), Dev.f_setF_same]; rfl
  · show (_ : Dev).f (Reg.LANE_STAT_STATE v.1) = 6
    have ne : ∀ (e : Dev) (r : RF) (x : Nat), r.addr = Reg.VAT_STAT_at v.1 → r.lo < 32 → (e.setF r x).f (Reg.LANE_STAT_STATE v.1) = e.f (Reg.LANE_STAT_STATE v.1) := by
      intro e r x ha hl
      refine Dev.f_setF_ne e x (RF.key_ne ?_ hl (show (0:Nat) < 32 by decide))
      rw [ha]; simp only [Reg.LANE_STAT_STATE, Reg.LANE_STAT_at, Reg.VAT_STAT_at]; omega
    rw [w.f _ (ap _ (.inr rfl) (show (0:Nat) < 32 by decide)), ne _ _ _ rfl (show (0:Nat) < 32 by decide),
      ne _ _ _ rfl (show (4:Nat) < 32 by decide), ne _ _ _ rfl (show (2:Nat) < 32 by decide), ne _ _ _ rfl (show (1:Nat) < 32 by decide),
      Dev.f_setF_same]
    rfl

theorem Dev.orphanSlice_work (d : Dev) {s : Nat} (hs : s < 64) : Dev.VatWork d (d.orphanSlice s) := by
  unfold Dev.orphanSlice
  dsimp only
  split
  · exact .refl d
  · refine Dev.Work.trans ?_ (Dev.event_work _ hs _ _ _ _)
    refine Dev.Work.trans ?_ (Dev.Work.foldl _ (fun d v => Dev.eachChan_work d _ (fun d k => by
      split
      · exact Dev.modChan_work d v k _
      · exact .refl d)) _ _)
    exact (Dev.setF_work d (Reg.SLC_STATE_ORPHAN s) _ (by simp only [Reg.SLC_STATE_ORPHAN]; omega)
      (by simp only [Reg.SLC_STATE_ORPHAN, Reg.SLC_STATE_at]; omega)).trans
      (Dev.setF_work _ (Reg.SLC_RING_STAT_ORPHAN s) _ (by simp only [Reg.SLC_RING_STAT_ORPHAN]; omega)
      (by simp only [Reg.SLC_RING_STAT_ORPHAN, Reg.SLC_RING_STAT_at]; omega))


end Sys2Proof.Machine
end

