-- ==== Sys2Proof/WellFormed.lean ====
section
/-!
DEFINITION. Which commands are well formed: operands that the wire, the bus or a register could carry. The meanings are
total and do not ask for it; statements that need a bound on an operand take it from here.
-/

namespace Sys2Proof

/-- A physical address has 40 bits (R27). -/
def addrOk (a : Nat) : Bool := decide (a < 2 ^ 40)

/-- An access carries 1 to 64 bytes. -/
def sizeOk (n : Nat) : Bool := decide (1 ≤ n ∧ n ≤ 64)

/-- The data fit in the bytes. -/
def dataOk (n x : Nat) : Bool := decide (x < 256 ^ n)

/-- A lane block: a 2-bit sync header and 64 bits (R46). -/
def blockOk (hdr payload : Nat) : Bool := decide (hdr < 4 ∧ payload < 2 ^ 64)

/-- A CAN frame: an identifier of its format, a 4-bit DLC, at most 64 data bytes (R293). -/
def CanFrame.ok (f : CanFrame) : Bool :=
  decide (f.id < (if f.ext then 2 ^ 29 else 2 ^ 11) ∧ f.dlc < 16 ∧ f.data.length ≤ 64)

/-- A transaction of a lockstep core: an address of 40 bits, eight byte lanes (R323). -/
def Txn.ok (t : Txn) : Bool := decide (t.addr < 2 ^ 40 ∧ t.wdata < 2 ^ 64 ∧ t.be < 256 ∧ t.resp < 2 ^ 64)

/-- The command's operands are within their ranges. -/
def Instr.wf (i : Instr) : Bool :=
  match i with
  | .narrowAccess _ addr _ => addrOk addr
  | .registerWrite _ addr _ => addrOk addr
  | .pairLowRead _ addr => addrOk addr
  | .pairHighWrite _ addr _ => addrOk addr
  | .unmappedAccess _ addr _ => addrOk addr
  | .checkedAccess _ _ addr size data _ => addrOk addr && sizeOk size && dataOk size data
  | .atomicAdd _ addr size data _ => addrOk addr && sizeOk size && dataOk size data
  | .atomicSwap _ addr size data _ => addrOk addr && sizeOk size && dataOk size data
  | .tbLock => true
  | .lossOfReference => true
  | .offsetCorrection _ _ => true
  | .slewEnd => true
  | .tbLoad _ _ => true
  | .lateFault _ _ _ => true
  | .governorWindow slack => slack.length == 8
  | .junction120 _ => true
  | .pinReached => true
  | .govCtlWrite _ _ => true
  | .clr _ _ => true
  | .iBlock _ hdr payload frac => blockOk hdr payload && decide (frac < 8)
  | .vBlock _ hdr payload => blockOk hdr payload
  | .modfClear _ _ _ => true
  | .auxReport _ hdr payload frac => blockOk hdr payload && decide (frac < 8)
  | .groupCheck _ hdr payload => blockOk hdr payload
  | .blockLockLoss _ _ => true
  | .trnBlock _ payload => blockOk 0 payload
  | .laneEnable _ _ _ => true
  | .laneDisable _ _ _ => true
  | .retrain _ _ _ => true
  | .trainingAdvance _ _ => true
  | .trainingTimeout _ => true
  | .trainingRetry _ => true
  | .bregRead _ _ _ => true
  | .bregWrite _ _ _ => true
  | .cfgSend _ => true
  | .cfgTimeout _ => true
  | .firmwareKill _ _ _ => true
  | .killEmit _ => true
  | .killRepeat _ => true
  | .killNoack _ _ => true
  | .fastSample _ _ => true
  | .sinc4Output _ _ _ => true
  | .precisionOutput _ _ _ => true
  | .rateChange _ _ => true
  | .calCommit _ _ _ => true
  | .calCommitApply _ => true
  | .loopComputation _ _ _ _ => true
  | .armTimeout _ _ => true
  | .closeDelayEnd _ _ => true
  | .rampTimeout _ _ => true
  | .heldStart _ _ => true
  | .holdLimitExpiry _ _ => true
  | .hostLinkDown _ => true
  | .orphanPolicy _ _ => true
  | .orphanMaxExpiry _ _ => true
  | .orphanEnd _ _ => true
  | .fence _ _ => true
  | .fenceDone _ => true
  | .ledgerClose _ => true
  | .reenable _ _ => true
  | .balancerPass => true
  | .budgetTimeout _ _ => true
  | .budgetRefused _ _ => true
  | .syncStart _ _ => true
  | .cmdPi _ _ _ => true
  | .consumerDoorbell _ _ offset _ => decide (offset < 0x1000)
  | .mirrorPoll _ => true
  | .nop _ desc => desc.length == 16
  | .step _ desc => desc.length == 16
  | .stop _ desc => desc.length == 16
  | .flush _ desc => desc.length == 16
  | .abort _ desc => desc.length == 16
  | .mark _ desc => desc.length == 16
  | .resume _ desc => desc.length == 16
  | .badOp _ desc => desc.length == 16
  | .cmdStall _ => true
  | .completionWrite _ => true
  | .writebackWrite _ => true
  | .progressCompletion _ _ => true
  | .dmaError _ _ _ => true
  | .ringCfgWrite _ _ _ _ => true
  | .streamDeliver _ _ => true
  | .divergenceCheck _ => true
  | .chainStart _ _ _ => true
  | .sealClear _ _ _ => true
  | .checkpoint _ => true
  | .checkpointWrite _ => true
  | .ldgCkCiWrite _ _ _ => true
  | .ldgSnap _ _ _ => true
  | .impStart _ _ _ => true
  | .impStop _ _ _ => true
  | .pointStart _ => true
  | .pointEnd _ => true
  | .impRecordDeliver _ => true
  | .create _ _ => true
  | .createComplete _ => true
  | .destroy _ _ => true
  | .closingCheckpoint _ => true
  | .teardownDeadline _ => true
  | .teardownDone _ => true
  | .attach _ _ => true
  | .controllerWatchdogExpiry _ => true
  | .sliceModeWrite _ _ => true
  | .resize _ _ => true
  | .channelMove _ _ => true
  | .resizeTimeout => true
  | .migrate _ _ => true
  | .freeze _ => true
  | .sliceResume _ _ => true
  | .freezeMaxExpiry _ => true
  | .frameReceive _ _ _ _ => true
  | .fabricRound => true
  | .frameTransmit _ _ => true
  | .xoffRefresh _ => true
  | .pauseReceive _ _ mask quanta => decide (mask < 256) && quanta.length == 8 && quanta.all (fun q => decide (q < 65536))
  | .pauseExpiry _ => true
  | .ageOut idx => decide (idx < 8192)
  | .mcastHoldExpiry _ => true
  | .auditPass leaks duals => leaks.all (· < 24576) && decide (duals < 256)
  | .portLinkChange _ _ _ => true
  | .portRemoval _ _ => true
  | .portReenable _ _ => true
  | .preemptVerify _ _ => true
  | .macRead _ _ => true
  | .macWrite _ _ => true
  | .macLookup _ _ => true
  | .macFlushPort _ _ => true
  | .macFlushAll _ _ => true
  | .vlanRead _ _ => true
  | .vlanWrite _ _ => true
  | .cTransmit => true
  | .exportFrame => true
  | .exportAck _ _ _ => true
  | .exportResend _ _ => true
  | .barrierRequest _ _ => true
  | .barrierRepeat => true
  | .jasiaForward _ _ _ => true
  | .barrierAccept _ _ _ => true
  | .beaconSend => true
  | .beaconReceive _ _ _ => true
  | .beaconMiss _ => true
  | .masterLost => true
  | .autoReenable _ => true
  | .ptpFrameReceive _ _ _ => true
  | .ptpTransmit _ => true
  | .kick _ _ => true
  | .holdoverEntry => true
  | .holdoverExpiry => true
  | .comparatorArm _ _ _ => true
  | .comparatorFire _ => true
  | .pulseEnd _ => true
  | .capture _ _ => true
  | .capturePop _ _ => true
  | .initClear _ _ _ => true
  | .busIntegration _ => true
  | .canFrameReceive _ frame _ => frame.ok
  | .canTransmit _ _ _ _ => true
  | .canError _ _ _ _ => true
  | .recovered _ => true
  | .canRestart _ _ _ => true
  | .txgo _ _ _ => true
  | .txabort _ _ _ => true
  | .canFifoCiWrite _ _ _ _ => true
  | .gate _ _ next => addrOk next
  | .gret _ => true
  | .secureInterrupt _ next => addrOk next
  | .coreFault _ => true
  | .kickWatchdog _ _ _ => true
  | .secureWatchdogExpiry _ => true
  | .gateTimerExpiry _ => true
  | .quiesce _ _ => true
  | .qreqResume _ _ => true
  | .retain _ _ => true
  | .off _ _ => true
  | .qtagWrite _ _ _ => true
  | .deferTimeout => true
  | .requestDrained _ => true
  | .bankTransitionDone _ => true
  | .lockstepCompare _ primary shadow _ _ flips => primary.all Txn.ok && shadow.all Txn.ok && decide (flips < 2 ^ 204)
  | .stateDigest _ _ _ _ _ flips => decide (flips < 2 ^ 204)
  | .injectionTest _ primary shadow _ _ flips => primary.all Txn.ok && shadow.all Txn.ok && decide (flips < 2 ^ 204)
  | .lagTimeout _ => true
  | .reactionTest _ _ _ => true
  | .claim _ _ => true
  | .derive _ _ => true
  | .invalidate _ _ => true
  | .gcmEnc _ _ => true
  | .gcmDec _ _ => true
  | .hmac _ _ => true
  | .sign _ _ => true
  | .pubkey _ _ => true
  | .chainKey _ _ => true
  | .random _ _ => true
  | .exportKey _ _ => true
  | .mordantCommandDone => true
  | .slotRelease _ => true
  | .remaskPass => true
  | .drbgFailure => true
  | .lcRequest _ _ => true
  | .fuseProgrammingDone => true
  | .dramEnable _ _ => true
  | .dramReady _ => true
  | .dramChannelFail _ => true
  | .scrubPass _ uncorrectable => uncorrectable.all addrOk
  | .auxOnRequest _ _ _ => true
  | .auxOffRequest _ _ _ => true
  | .inrushEnd _ => true
  | .clampEnd _ => true
  | .short _ => true
  | .overload _ => true
  | .ot _ => true
  | .retry _ => true
  | .retriesReset _ => true
  | .auxClr _ _ => true
  | .openLoad _ => true
  | .openLoadClear _ => true
  | .groupWarning _ _ => true
  | .groupWarningClear _ _ => true
  | .dissipationEstimate samples => samples.length == 24
  | .vauxUndervoltage => true
  | .vauxRecovery => true
  | .auxHoldEnd _ => true
  | .madderCycle a b fb rb => decide (a < 256 ∧ b < 256 ∧ fb < 16 ∧ rb < 16)
  | .safeStopKill => true
  | .madderSupplyFault _ => true
  | .heartbeat _ _ => true
  | .hbLost => true
  | .safetyRequest _ _ => true
  | .testPulse _ => true
  | .testPulseEnd _ => true
  | .fbFail _ => true
  | .srstPulse _ pass => decide (pass < 256)
  | .rearmFeedback fb pass => decide (fb < 16 ∧ pass < 256)
  | .cfgCommit _ _ => true
  | .powerOnReset => true
  | .vinRise => true
  | .logicDieRelease _ _ => true
  | .vinWarning mv => decide (mv < 65536)
  | .supplyEvent _ => true
  | .supplyShutdown => true
  | .supplyReset => true
  | .wrstN _ => true
  | .warm _ _ => true
  | .bootRomStart => true
  | .bootComplete _ _ _ => true
  | .svnRequest _ _ => true
  | .coreRelease _ _ _ => true
  | .portActivate => true
  | .gnotarRead req rcrc => decide (req < 256 ∧ rcrc < 256)
  | .gnotarWrite req _ rcrc => decide (req < 256 ∧ rcrc < 256)
  | .gnotarClear req rcrc => decide (req < 256 ∧ rcrc < 256)
  | .certWord _ => true
  | .go => true
  | .unlockResult => true
  | .lock => true
  | .certClear => true
  | .halt _ => true
  | .runctlResume _ => true
  | .runctlStep _ => true
  | .gnotarReset => true
  | .breakpointHit _ _ addr _ pc => addrOk addr && addrOk pc
  | .coreRegisterAccess _ _ => true
  | .memoryRead => true
  | .memoryWrite _ => true
  | .memoryAccessDone _ => true
  | .fuseGo => true
  | .dev => true
  | .returnLc _ => true
  | .routeWrite _ _ _ => true
  | .enableWrite _ _ _ => true
  | .softwareEvent _ _ => true
  | .logSelect _ _ => true
  | .logCiWrite _ _ => true
  | .hostLinkUp _ => true
  | .drbgHealthRecovery => true
  | .vinWarningClear mv => decide (mv < 65536)
  | .vioBankChange _ mv => decide (mv < 65536)
  | .selfRefreshDone => true

end Sys2Proof
end

