-- ==== Sys2Proof/Tests/Slice0.lean ====
section
/-!
SUPPORT. Small tests. For every statement of Certificates/Slice0/Obligations.lean that has hypotheses, one theorem shows, clause by
clause and at a boundary of the clause's range, a state and operands that meet all of them together. Every state is the state after
reset with the logic die released and a few fields set. The last section has an ill-formed command for each check of Instr.wf.
-/

namespace Sys2Proof.Tests
set_option Elab.async false
open Sys2Proof Sys2Proof.Machine

/-- The logic die is released, every register as after reset. -/
def base : State := { State.reset with dev := { State.reset.dev with sup := { State.reset.dev.sup with held := false } } }

/-- Core 0 in its secure world. -/
def core0 : Src := ⟨0, true, 0⟩

/-- A state with registers set. -/
def puts (rs : List (RF × Nat)) (s : State) : State := { s with dev := rs.foldl (fun d r => d.setF r.1 r.2) s.dev }

/-- A state with its device changed. -/
def dv (f : Dev → Dev) (s : State) : State := { s with dev := f s.dev }

/-- A state with one lane, channel, vat, guard or converter pair changed. -/
def inLane (v : Fin 16) (f : Lane → Lane) : State → State := dv (fun d => d.modLane v f)
def inChan (v k : Fin 16) (f : Chan → Chan) : State → State := dv (fun d => d.modChan v k f)

/-- The lane of vat v is ACTIVE with both ends locked; its board shows 16 channels. -/
def lane5 (v : Fin 16) : State :=
  puts [(Reg.LANE_CTL_EN v.1, 1), (Reg.LANE_STAT_STATE v.1, 5), (Reg.LANE_STAT_UP_LOCK v.1, 1), (Reg.LANE_STAT_BRD_LOCK v.1, 1),
    (Reg.LANE_STAT_KLATCH v.1, 0), (Reg.MAD_STAT_SAFE_STOP, 0)] base
def pop (v : Fin 16) : State → State := puts [(Reg.LANE_DESC_WORD v.1 0, 0x1000)]
def inGuard (v k : Fin 16) (f : Guard → Guard) : State → State := dv (fun d => d.modGuard v k f)
def inMeas (v k : Fin 16) (f : Meas → Meas) : State → State := dv (fun d => d.modMeas v k f)
def inVat (v : Fin 16) (f : Vat → Vat) : State → State := dv (fun d => d.modVat v f)
def inSlice (i : Fin 64) (f : SliceEng → SliceEng) : State → State := dv (fun d => d.modSlice i f)

/-- The same state at another instant. -/
def at_ (n : Nat) : State → State := dv (fun d => d.setNow n)

/-- Bytes placed in memory. -/
def inMem (a : Nat) (bs : List Byte) (s : State) : State :=
  { s with mem := (List.range bs.length).map (fun i => ⟨a + i, bs.getD i 0⟩) ++ s.mem }

/-- The channel has state `st` and a running constant-current step. -/
def step1 : Running := { d := { op := 1, mode := 1, spA := 1000, tag := 7 }, id := 1, t0 := 0 }
def running (st : ChSt) (v k : Fin 16) : State → State :=
  inChan v k (fun c => { c with st := st, run := some step1, setup := step1.d, tune := { kp := 1, soft := 1, ramp := 1, iMax := 5000000, vMax := 5000000, vMin := -1, intLim := 1, dmax := 60000, tMax := 100000 } })

/-- A tuning block that passes R103, in block 0 of vat v. -/
def tuned (v : Fin 16) : State → State :=
  inMem (0x18000000 + 0x40000 * v.1) ((List.range 16).flatMap (fun i => leBytes 4 (if i = 15 then 0x7FFF0001 else if i = 11 ∨ i = 12 then 0 else i + 1)))

/-- An admitted step at the head of the channel's queue. -/
def entry1 : QEntry := { d := step1.d, resv := some {} }
def queued (v k : Fin 16) (e : QEntry) : State → State := inChan v k (fun c => { c with queue := [e] })

/-- An orphan policy that has not acted yet. -/
def orph (v k : Fin 16) (policy : Nat) (taken : Bool) : State → State :=
  inChan v k (fun c => { c with orphan := some { policy := policy, maxMs := 0, since := 0, taken := taken, shown := taken } })

/-- Checker t grants everything to every master. -/
def grants (t : Nat) : State → State :=
  puts [(Reg.RC_CTL_EN t, 1), (Reg.RC_R_PERM_VALID t 0, 1), (Reg.RC_R_LIMIT_PAGE t 0, 0xFFFFFFF), (Reg.RC_R_PERM_MASTERS t 0, 0xFFFF),
    (Reg.RC_R_PERM_SR t 0, 1), (Reg.RC_R_PERM_SW t 0, 1), (Reg.RC_R_PERM_SX t 0, 1), (Reg.RC_R_PERM_NR t 0, 1), (Reg.RC_R_PERM_NW t 0, 1),
    (Reg.RC_R_PERM_NX t 0, 1)]

/-- Slice 63 is ACTIVE with all rings of 16 entries on host port 0, which is up; it holds channel 15 of vat 1. -/
def slice63 : State :=
  inChan 1 15 (fun c => { c with owner := some 63 }) (dv (fun d => d.setAvail 1 0xFFFF)
    (puts ([(Reg.SLC_STATE_STATE 63, 1), (Reg.SYS_SVC_PATH_H0, 1)] ++
      (List.range 8).flatMap (fun r => [(Reg.SLC_RING_CFG_EN 63 r, 1), (Reg.SLC_RING_CFG_LOG2 63 r, 4), (Reg.SLC_RING_CFG_LOC 63 r, 0)]))
      (lane5 1)))

/-- The same with one descriptor to fetch, of operation `op` on channel 31. -/
def fetching : State := inSlice 63 (fun e => { e with cmdPi := 1 }) slice63
def words (op : Nat) : List Word := [BitVec.ofNat 32 (op + 31 * 256), 7] ++ List.replicate 14 0
def stepWords : List Word := [BitVec.ofNat 32 (1 + 31 * 256), 0x07000007, 1, 1000] ++ List.replicate 12 0

/-- A slice command in progress. -/
def cmd (op : Nat) (s : State) : State := dv (fun d => { d with sliceCmd := some (op, 63, 0) }) s
def inPort (p : Fin 8) (f : SwPort → SwPort) : State → State := dv (fun d => d.modPort p f)

/-- A 60-byte unicast frame, VLAN 1 with every port a member, and the destination's entry. -/
def frame60 : List Byte := [2, 0, 0, 0, 0, 2, 2, 0, 0, 0, 0, 1, 8, 0] ++ List.replicate 46 0
def switching : State :=
  puts [(Reg.SW_P_CFG_PVID 0, 1)] (dv (fun d => d.modSw (fun s =>
    { s with vlans := [⟨1, 0xFF, 0, false⟩], mac := [⟨macBucket (leAt frame60 0 6) 1, leAt frame60 0 6, 1, 2, true, 0, true⟩] })) base)
def frameA : SwFrame := { id := 1, inp := 0, vid := 0, pcp := 7, q := 7, cells := 1, arrived := 1, bytes := frame60 }

/-- Slice 63's ring 7 is local, holds one entry and is exported. -/
def exporting : State :=
  inSlice 63 (fun e => { e with pi := Vector.replicate 8 1 }) (grants 1 (puts [(Reg.SLC_RING_CFG_LOC 63 7, 2),
    (Reg.SLC_RING_BASE_LO_ADDR 63 7, 0x10000000), (Reg.SW_EXP_SLC_HI_MASK, 0x80000000)] slice63))

/-- A Jasia frame. -/
def jf (kind hop epoch master num inst : Nat) : List Byte :=
  leBytes 12 1 ++ beBytes 2 0x88B5 ++ leBytes 1 1 ++ leBytes 1 kind ++ leBytes 2 0 ++ leBytes 2 hop ++ leBytes 2 epoch ++ leBytes 2 master ++
  leBytes 2 0 ++ leBytes 4 num ++ leBytes 8 inst ++ leBytes 22 0
def jasia (f : Jasia → Jasia) : State → State := dv (fun d => d.modJasia f)
def joined : State := jasia (fun j => { j with follows := true }) <| puts [(Reg.JASIA_CFG_EN, 1), (Reg.JASIA_STAT_MASTER, 1), (Reg.JASIA_STAT_TOPO, 2), (Reg.JASIA_CFG_DEV, 2)] base

/-- A PTP frame of a type to the link-local address, and the unit with its rings in memory. -/
def ptpFrame (ty : Nat) : List Byte := leBytes 6 0x0E0000C28001 ++ leBytes 6 0 ++ beBytes 2 0x88F7 ++ leBytes 1 ty ++ List.replicate 45 0
def timing : State :=
  inMem 0x10000000 (leBytes 8 0x10001000 ++ leBytes 2 60 ++ leBytes 2 5) (grants 1 (puts [(Reg.PTP_CTL_EN, 1), (Reg.PTP_RING_CFG_EN, 1), (Reg.PTP_RING_CFG_LOG2, 4),
    (Reg.PTP_RX_LO_ADDR, 0x10000000), (Reg.PTP_TX_LO_ADDR, 0x10000000)] base))
def tbPtp (f : Ptp → Ptp) : State → State := dv (fun d => { d with ptp := f d.ptp })

/-- CAN controller 7 runs with its area in SRAM; buffer 31 holds an empty classic frame. -/
def canBus : State :=
  inMem (0x10000000 + 80 * 95) (leBytes 8 0) (grants 1 (puts [(Reg.CAN_CTL_INIT 7, 0), (Reg.CAN_STAT_SYNC 7, 1), (Reg.CAN_STAT_STATE 7, 0),
    (Reg.CAN_AREA_LO_ADDR 7, 0x10000000)] base))
def canFr : CanFrame := ⟨0, false, false, false, false, false, 0, []⟩
def onBus31 : State := puts [(Reg.CAN_TXBUSY_BUF 7, 0x80000000)] (dv (fun d => d.modCan 7 (fun c => { c with onBus := some 31 })) canBus)
/-- The same with an empty FD frame in the buffer. -/
def onBusFd : State :=
  puts [(Reg.CAN_CTL_FD_EN 7, 1)] (inMem (0x10000000 + 80 * 95) (leBytes 4 0 ++ leBytes 2 4 ++ leBytes 2 0) { onBus31 with mem := [] })

/-- A core out of reset, in a world; core 0 in the normal world. -/
def inCore (n : Fin 6) (f : Core → Core) : State → State := dv (fun d => d.modCore n f)
def coreOn (n : Fin 6) (world : Nat) : State :=
  inCore n (fun c => { c with held := false }) (puts [(Reg.CORE_CTX_WORLD n.1, world)] base)
def normal0 : Src := ⟨0, false, 0⟩
def plain0 : State := puts [(Reg.CORE_CTX_WORLD 0, 0)] (grants 14 base)

/-- A word a lockstep core writes; a pair that holds a write back until its match. -/
def txn (a : Nat) : Txn := ⟨.write, a, 2, 5, 0xF, true, false, 0⟩
def src4 : Src := ⟨4, true, 0⟩
def holding (a : Nat) (w : Word) : State :=
  dv (fun d => d.modPair 0 (fun x => { x with delay := [⟨txnVector (writeTxn src4 a w), some (src4, a, w)⟩] })) (coreOn 4 1)
def qn (q : QReq) (s : State) : State := dv (fun d => d.setQN (some q)) s

/-- Mordant channel 15 belongs to secure core 0; slot 127 holds a usable key of kind 2; the command engine runs `r`. -/
def keyed : State :=
  dv (fun d => d.setMord { d.mord with owners := Vector.replicate 16 (some core0) })
    (puts [(Reg.MORD_K_META_WORD 127, 0x7900), (Reg.MORD_K_ATTR_WORD 127, 0xFFFFFFFF), (Reg.MORD_CH_ARG_VALUE 15 0, 127)] base)
def mrun (r : MRun) (s : State) : State := dv (fun d => d.setMord { d.mord with run := some r }) s

/-- Switch 23 in a state, with VAUX good and no safe stop. -/
def auxIn (st : Nat) (f : Aux → Aux) : State :=
  dv (fun d => (d.setSup { d.sup with vaux := true }).modAux 23 f) (puts [(Reg.MAD_STAT_SAFE_STOP, 0), (Reg.AUX_NSTAT_STATE 23, st)] base)
def upTo (n : Nat) : State → State := dv (fun d => d.setUp n)
def inMad (f : Mad → Mad) : State → State := dv (fun d => { d with mad := f d.mad })

def sup (f : Sup → Sup) : State → State := dv (fun d => d.setSup (f d.sup))
def rom (locked : Nat) : State := sup (fun x => { x with rom := true }) (puts [(Reg.TB_STAT_LOCK, locked)] base)

/-- An unlocked port of the given scope; the debug unit changed. -/
def debug (f : Dbg → Dbg) : State := dv (fun d => d.modDbg f) (puts [(Reg.DBG_STAT_ACTIVE, 1), (Reg.DBG_STAT_UNLOCKED, 1), (Reg.DBG_STAT_SCOPE, 0xFF)] base)
def closed : State := puts [(Reg.DBG_STAT_ACTIVE, 1)] base
def halted (n : Fin 6) : State :=
  inCore n (fun c => { c with held := false, halted := some 0, gpr := [(5, 9)] }) (debug (fun x => { x with bpsel := n.1, cregSel := 5 }))
def fuses (f : Fuses → Fuses) : State → State := dv (fun d => d.setFuse (f d.fuse))

/-- Both copies of vat 1's channel 15 hold one word of a current output, and a divergence check waits for it. -/
def diverging : State :=
  inVat 1 (fun x => { x with div := (0, 0x8000) }) (inMeas 1 15 (fun m =>
    { m with a := { m.a with fi := { latch := [(3, 5, false, false)] } }, b := { m.b with fi := { latch := [(3, 5, false, false)] } } }) base)
def divNext : Meas :=
  match ((diverging.dev.vats[(1 : Fin 16)]).meas[(15 : Fin 16)]).sinc4 true (diverging.dev.iFs 1) (diverging.dev.vFs 1) with
  | some x => x.2
  | none => {}

/-! ### The hypotheses of the statements -/

theorem test_step_runs_the_front_command_hypotheses :
    ((fun (s : State) => (s.pending = [])) base) := by
  decide +kernel

theorem test_every_command_answers_hypotheses :
    ((fun (i : Instr) (s : State) => (s.dev.sup.held = true) ∧ (powerDie i = false)) .tbLock State.reset) := by
  decide +kernel

theorem test_reset_state_is_the_specs_hypotheses :
    ((fun (i : Fin 64) => (i ≠ 0)) 63) := by
  decide +kernel

theorem test_accesses_that_are_not_performed_hypotheses :
    ((fun (s : State) (src : Src) (addr : Nat) (write : Bool) => (Clean s) ∧ (inSetup addr = true) ∧ (Live s) ∧ (s.dev.srcOk src = true) ∧
      ((s.dev.inReset src).isNone = true) ∧ (s.dev.portOff src = false) ∧
      ((s.dev.checked 14 src (if write then .write else .read) addr).isNone = true)) base core0 0x200B0001 true) ∧
    ((fun (s : State) (src : Src) (addr : Nat) (write : Bool) => (Clean s) ∧ (s.dev.unmapped src write addr = true) ∧ (Live s) ∧
      (s.dev.srcOk src = true) ∧ ((s.dev.inReset src).isNone = true) ∧ (s.dev.portOff src = false) ∧
      ((∀ t ∈ checkerOf addr, (s.dev.checked t src (if write then .write else .read) addr).isNone = true))) base core0 0x40000000 true) ∧
    ((fun (s : State) (src : Src) (kind : AccessKind) (addr : Nat) (_size : Nat) (_data : Nat) (t : Nat) (_ecc : Ecc) => (Live s) ∧ (Clean s) ∧
      (s.dev.srcOk src = true) ∧ ((s.dev.inReset src).isNone = true) ∧ (s.dev.portOff src = false) ∧ (tcmKey src addr = none) ∧
      (checkerOf addr = some t) ∧ (bypasses src = false) ∧
      (s.dev.permits t src kind addr = false)) base (⟨6, false, 0⟩) .read 0x10000000 4 0 1 .ok) := by
  refine ⟨?_, ?_, ?_⟩ <;> decide +kernel

theorem test_memory_accesses_read_and_write_hypotheses :
    ((fun (s : State) (src : Src) (kind : AccessKind) (addr : Nat) (size : Nat) (_data : Nat) (t : Nat) => (Clean s) ∧ (kind ≠ .write) ∧
      (Permitted s src (opOf kind) addr t) ∧ (t ≠ 14) ∧ (Performs s (opOf kind) addr size)) base core0 .read 0x117FFFFC 4 0 12) ∧
    ((fun (s : State) (src : Src) (addr : Nat) (size : Nat) (_data : Nat) (t : Nat) => (Clean s) ∧ (Permitted s src .write addr t) ∧ (t ≠ 14) ∧
      (Performs s .write addr size)) base core0 0x10000000 8 0x1122334455667788 1) ∧
    ((fun (s : State) (src : Src) (addr : Nat) (size : Nat) (_data : Nat) (t : Nat) => (Clean s) ∧ (Permitted s src .add addr t) ∧
      (s.dev.serves addr = true) ∧ (inSram addr = true) ∧ ((size = 4 ∨ size = 8)) ∧ (addr % size = 0)) base core0 0x10000008 8 5 1) ∧
    ((fun (s : State) (src : Src) (addr : Nat) (size : Nat) (_data : Nat) (t : Nat) => (Clean s) ∧ (Permitted s src .swap addr t) ∧
      (s.dev.serves addr = true) ∧ (inSram addr = true) ∧ ((size = 4 ∨ size = 8)) ∧ (addr % size = 0)) base core0 0x10000004 4 5 1) := by
  refine ⟨?_, ?_, ?_, ?_⟩ <;> decide +kernel

theorem test_register_writes_by_type_and_in_pairs_hypotheses :
    ((fun (s : State) (src : Src) (a : Nat) => (Live s) ∧ ((s.dev.guard src a false).isNone = true) ∧
      (isLow a = true)) base core0 Reg.TB_NOW_LO_at) ∧
    ((fun (s : State) (src : Src) => (Live s) ∧ ((s.dev.guard src Reg.TB_NOW_LO_at false).isNone = true)) base core0) ∧
    ((fun (s : State) (src : Src) (_w : Word) (lo : Nat) => (Reaches s src Reg.DPL_BASE_HI_at) ∧ (s.dev.bit Reg.DPL_CFG_EN = false) ∧
      (s.dev.heldFor src Reg.DPL_BASE_LO_at = some lo) ∧ (lo < 2 ^ 32) ∧
      (lo % 64 = 0)) (dv (fun d => d.setHeldLow [(0, Reg.DPL_BASE_LO_at, 64)]) base) core0 1 64) := by
  refine ⟨?_, ?_, ?_⟩ <;> decide +kernel

theorem test_time_base_and_governor_hypotheses :
    ((fun (s : State) => (Live s) ∧ (s.dev.bit Reg.TB_STAT_HOLD = false)) base) ∧
    ((fun (s : State) => (Live s) ∧ (s.dev.bit Reg.TB_STAT_HOLD = true)) (puts [(Reg.TB_STAT_HOLD, 1)] base)) ∧
    ((fun (s : State) => (Live s)) base) ∧
    ((fun (s : State) (src : Src) (w : Word) => (Reaches s src Reg.TB_ADJ_at) ∧ ((signed 32 w.toNat).natAbs ≤ s.dev.f Reg.PTP_JUMP_LIMIT) ∧
      (-(2 ^ 23) ≤ s.dev.slewRem + signed 32 w.toNat) ∧ (s.dev.slewRem + signed 32 w.toNat < 2 ^ 23)) base core0 0xFFFFFFFF) ∧
    ((fun (s : State) => (Live s) ∧ (s.dev.f Reg.TB_SLEW_REM = 0)) base) ∧
    ((fun (s : State) (src : Src) (_w : Word) => (Reaches s src Reg.TB_LOAD_HI_at) ∧ (s.dev.bit Reg.TB_STAT_LOADED = false) ∧
      (s.dev.everyIdle = true)) base core0 1) ∧
    ((fun (s : State) (_u : Fin 8) (_v : Fin 16) (_k : Fin 16) => (Live s)) base 1 15 15) ∧
    ((fun (s : State) (x : Int) (xs : List Int) => (Live s) ∧ (s.dev.bit Reg.GOV_CTL_EN = true) ∧ (s.dev.bit Reg.GOV_CTL_PIN = false) ∧
      (xs.length < 8) ∧ (xs.foldl min x < 0)) (puts [(Reg.GOV_CTL_EN, 1)] base) (-1) ([5, 6, 7, 8, 9, 10, 11])) ∧
    ((fun (s : State) => (Live s) ∧ (s.dev.bit Reg.GOV_CTL_PIN = false) ∧
      (s.dev.f Reg.GOV_STAT_VCORE < 20)) (puts [(Reg.GOV_STAT_VCORE, 19)] base)) ∧
    ((fun (s : State) => (Live s) ∧ (s.dev.bit Reg.GOV_CTL_PIN = true)) (puts [(Reg.GOV_CTL_PIN, 1)] base)) ∧
    ((fun (s : State) (src : Src) (_w : Word) => (Reaches s src Reg.GOV_CTL_at) ∧ (s.dev.bit Reg.SLICE_MODE_STRICT = false)) base core0 0x6403) ∧
    ((fun (s : State) (src : Src) (w : Word) => (Reaches s src Reg.GOV_SLACK_CLR_at) ∧ (w.toNat.testBit 0 = true)) base core0 1) := by
  refine ⟨?_, ?_, ?_, ?_, ?_, ?_, ?_, ?_, ?_, ?_, ?_, ?_⟩ <;> decide +kernel

theorem test_upstream_blocks_are_taken_and_trip_hypotheses :
    ((fun (s : State) (v : Fin 16) (_payload : Nat) (_frac : Nat) => (Live s) ∧ (s.dev.framesUp v = true) ∧
      ((∀ k, s.dev.tripArmed v k = false))) (lane5 1) 1 0xFFFF 3) ∧
    ((fun (s : State) (v : Fin 16) (_payload : Nat) => (Live s) ∧ (s.dev.framesUp v = true)) (lane5 1) 1 0xFFFF) ∧
    ((fun (s : State) (v : Fin 16) (payload : Nat) (_frac : Nat) => (Live s) ∧ (s.dev.framesUp v = true) ∧ (blockType payload = 0x66) ∧
      (content payload % 256 = 0x10)) (lane5 1) 1 (0x66 + 256 * (0x10 + 256 * 48)) 0) ∧
    ((fun (s : State) (v : Fin 16) (k : Fin 16) (payload : Nat) (_frac : Nat) => (Live s) ∧ (s.dev.framesUp v = true) ∧
      (blockType payload = 0x66) ∧ (content payload % 256 = k.1) ∧
      (k.1 < s.dev.populated v)) (pop 1 (lane5 1)) 1 15 (0x66 + 256 * (15 + 256)) 0) ∧
    ((fun (s : State) (v : Fin 16) (payload : Nat) => (Live s) ∧ (s.dev.laneState v ≠ laneOff) ∧ (blockType payload = 0x96) ∧
      ((s.dev.lane v).grpBad = false) ∧ ((s.dev.lane v).grp.length = 7) ∧
      (groupCrc (s.dev.lane v).grp = bits (content payload) 0 32)) (inLane 1 (fun l => { l with grp := List.replicate 7 5 }) (lane5 1)) 1
      (0x96 + 256 * groupCrc (List.replicate 7 5))) ∧
    ((fun (s : State) (v : Fin 16) (n : Nat) => (Live s) ∧ (s.dev.laneState v = laneActive) ∧ (s.dev.bit (Reg.LANE_STAT_UP_LOCK v.1) = true) ∧
      (s.dev.fenced v = false) ∧ (16 ≤ n)) (lane5 1) 1 16) ∧
    ((fun (s : State) (v : Fin 16) (k : Fin 16) (cur : Bool) => (Live s) ∧
      ((if cur then ((s.dev.vats[v]).guards[k]).repModfI else ((s.dev.vats[v]).guards[k]).repModfV) = false) ∧
      (400 * ((if cur then ((s.dev.vats[v]).guards[k]).badI else ((s.dev.vats[v]).guards[k]).badV) / 400 + 2) ≤ s.dev.now)) (dv (fun d =>
      d.setNow 800) base) 1 15 true) ∧
    ((fun (s : State) (v : Fin 16) (k : Fin 16) (payload : Nat) (_frac : Nat) => (Live s) ∧ (s.dev.framesUp v = true) ∧
      (k.1 < s.dev.populated v) ∧ (s.dev.tripArmed v k = true) ∧ (wordOf payload k.1 = -8) ∧
      ((s.dev.chan v k).st ≠ .fenced)) (inGuard 1 15 (fun g => { g with force := true }) (inChan 1 15 (fun c => { c with st := .run })
      (pop 1 (lane5 1)))) 1 15 0x8000000000000000 0) := by
  refine ⟨?_, ?_, ?_, ?_, ?_, ?_, ?_, ?_⟩ <;> decide +kernel

theorem test_lane_training_moves_on_hypotheses :
    ((fun (s : State) (src : Src) (v : Fin 16) (w : Word) => (Reaches s src (Reg.LANE_CTL_at v.1)) ∧ (w.toNat.testBit 0 = true) ∧
      (w.toNat.testBit 1 = false) ∧ (s.dev.bit (Reg.LANE_CTL_EN v.1) = false)) base core0 15 1) ∧
    ((fun (s : State) (src : Src) (v : Fin 16) (w : Word) => (Reaches s src (Reg.LANE_CTL_at v.1)) ∧ (w.toNat.testBit 0 = false) ∧
      (s.dev.bit (Reg.LANE_CTL_EN v.1) = true) ∧ (s.dev.allIdle v = true)) (lane5 15) core0 15 0) ∧
    ((fun (s : State) (src : Src) (v : Fin 16) (w : Word) => (Reaches s src (Reg.LANE_CTL_at v.1)) ∧ (w.toNat.testBit 0 = true) ∧
      (w.toNat.testBit 1 = true) ∧ (s.dev.bit (Reg.LANE_CTL_EN v.1) = true) ∧ (s.dev.allIdle v = true)) (lane5 15) core0 15 3) ∧
    ((fun (s : State) (v : Fin 16) (payload : Nat) => (Live s) ∧ (s.dev.laneState v = laneLock) ∧
      (blockType payload = 0xC3)) (puts [(Reg.LANE_STAT_STATE 1, 1)] base) 1 (0xC3 + 256)) ∧
    ((fun (s : State) (v : Fin 16) (_rtt : List Nat) => (Live s) ∧ (s.dev.laneState v = laneLock) ∧ ((s.dev.lane v).blockLock = true) ∧
      (2 ≤ (s.dev.lane v).chkOk) ∧ (s.dev.bit (Reg.LANE_STAT_BRD_LOCK v.1) = true)) (inLane 1 (fun l => { l with chkOk := 2 }) (puts
      [(Reg.LANE_STAT_STATE 1, 1), (Reg.LANE_STAT_BRD_LOCK 1, 1)] base)) 1 ([])) ∧
    ((fun (s : State) (v : Fin 16) (_rtt : List Nat) => (Live s) ∧ (s.dev.laneState v = laneDesc) ∧
      (descFull (s.dev.lane v).descSeen = true)) (inLane 1 (fun l => { l with descSeen := (List.range 8).map (fun i => (i, i + 7, 2)) })
      (puts [(Reg.LANE_STAT_STATE 1, 2)] base)) 1 ([])) ∧
    ((fun (s : State) (v : Fin 16) (rtt : List Nat) => (Live s) ∧ (s.dev.laneState v = laneAlign) ∧ (64 ≤ rtt.length) ∧
      (rtt.foldl max 0 - rtt.foldl min (rtt.foldl max 0) ≤ 2) ∧ (bits (s.dev.desc v 4) 0 16 ≤ 160) ∧
      (bits (s.dev.desc v 4) 16 16 + (rtt.getLastD 0 - bits (s.dev.desc v 4) 0 16 - bits (s.dev.desc v 4) 16 16) / 2 ≤ 640)) (puts
      [(Reg.LANE_STAT_STATE 1, 3)] base) 1 (List.replicate 64 100)) ∧
    ((fun (s : State) (v : Fin 16) (_rtt : List Nat) => (Live s) ∧ (s.dev.laneState v = laneCheck) ∧ (10000 ≤ (s.dev.lane v).chkOk) ∧
      (s.dev.f (Reg.LANE_STAT_KLATCH v.1) &&& s.dev.popMask v = s.dev.popMask v)) (inLane 1 (fun l => { l with chkOk := 10000 }) (puts
      [(Reg.LANE_STAT_STATE 1, 4)] base)) 1 ([])) ∧
    ((fun (s : State) (v : Fin 16) => (Live s) ∧ (s.dev.training v = true) ∧
      ((s.dev.lane v).lockAt + 400000 * s.dev.f (Reg.LANE_CTL_TRN_TO v.1) ≤ s.dev.now)) (dv (fun d => d.setNow 1000000000) (puts
      [(Reg.LANE_STAT_STATE 1, 1)] base)) 1) ∧
    ((fun (s : State) (v : Fin 16) (t0 : Nat) => (Live s) ∧ ((s.dev.lane v).restAt = some t0) ∧ (s.dev.laneState v = laneOff) ∧
      (s.dev.bit (Reg.LANE_CTL_EN v.1) = true) ∧
      (t0 + 4000000 ≤ s.dev.now)) (inLane 1 (fun l => { l with restAt := some 0 }) (dv (fun d => d.setNow 4000000) (puts [(Reg.LANE_CTL_EN
      1, 1)] base))) 1 0) := by
  refine ⟨?_, ?_, ?_, ?_, ?_, ?_, ?_, ?_, ?_, ?_⟩ <;> decide +kernel

theorem test_lane_downstream_traffic_hypotheses :
    ((fun (s : State) (src : Src) (v : Fin 16) (w : Word) => (Reaches s src (Reg.LANE_BREG_CTL_at v.1)) ∧ (w.toNat.testBit 9 = true) ∧
      (w.toNat.testBit 8 = false) ∧ (s.dev.bit (Reg.LANE_BREG_CTL_BUSY v.1) = false) ∧
      (s.dev.laneState v = laneActive)) (lane5 1) core0 1 0x2FF) ∧
    ((fun (s : State) (src : Src) (v : Fin 16) (w : Word) => (Reaches s src (Reg.LANE_BREG_CTL_at v.1)) ∧ (w.toNat.testBit 9 = true) ∧
      (w.toNat.testBit 8 = true) ∧ (s.dev.bit (Reg.LANE_BREG_CTL_BUSY v.1) = false) ∧
      (s.dev.laneState v = laneActive)) (lane5 1) core0 1 0x3FF) ∧
    ((fun (s : State) (v : Fin 16) (n : Nat) (m : Nat) (q : CfgReq) (rest : List CfgReq) => (Live s) ∧ (s.dev.slotNow = some (n, m)) ∧
      ((s.dev.lane v).cfgQ = q :: rest) ∧ (s.dev.laneState v = laneActive) ∧ (cfgSlot n = true) ∧ ((s.dev.lane v).cfgOut = none) ∧
      ((s.dev.lane v).claim = none) ∧ (s.dev.dueKills v = []) ∧ (s.dev.dueRepeat v = none) ∧
      (q.op ≠ 3)) (inLane 1 (fun l => { l with cfgQ := [{ op := 1, addr := 3, data := 4 }] }) (at_ 270 (lane5 1))) 1 0 0
      ({ op := 1, addr := 3, data := 4 }) ([])) ∧
    ((fun (s : State) (v : Fin 16) (q : CfgReq) (t0 : Nat) => (Live s) ∧ ((s.dev.lane v).cfgOut = some q) ∧ (q.sentAt = some t0) ∧
      (t0 + 1600 ≤ s.dev.now) ∧ (q.tries < 3)) (inLane 1 (fun l =>
      { l with cfgOut := some { op := 1, addr := 0, data := 0, tries := 2, sentAt := some 0 } }) (dv (fun d => d.setNow 1600) (lane5 1)))
      1 ({ op := 1, addr := 0, data := 0, tries := 2, sentAt := some 0 }) 0) ∧
    ((fun (s : State) (v : Fin 16) (q : CfgReq) (t0 : Nat) => (Live s) ∧ ((s.dev.lane v).cfgOut = some q) ∧ (q.sentAt = some t0) ∧
      (t0 + 1600 ≤ s.dev.now) ∧ (3 ≤ q.tries) ∧
      (q.op ≠ 3)) (inLane 1 (fun l => { l with cfgOut := some { op := 1, addr := 0, data := 0, tries := 3, sentAt := some 0 } }) (dv (fun
      d => d.setNow 1600) (lane5 1))) 1 ({ op := 1, addr := 0, data := 0, tries := 3, sentAt := some 0 }) 0) ∧
    ((fun (s : State) (src : Src) (v : Fin 16) (k : Fin 16) (w : Word) => (Reaches s src (Reg.LANE_KILL_at v.1)) ∧
      (s.dev.laneState v = laneActive) ∧ (w.toNat.testBit k.1 = true) ∧ ((s.dev.chan v k).st ≠ .fenced)) (lane5 1) core0 1 15 0x8000) ∧
    ((fun (s : State) (v : Fin 16) (n : Nat) (m : Nat) => (Live s) ∧ (s.dev.slotNow = some (n, m)) ∧ (s.dev.dueKills v ≠ []) ∧
      (s.dev.killable v = true) ∧ ((s.dev.lane v).claim = none) ∧
      (s.dev.f (Reg.LANE_KILL_CNT_COUNT v.1) < 2 ^ 32 - 1)) (inLane 1 (fun l => { l with kills := [⟨0x8000, 1, 260⟩] }) (at_ 270 (lane5
      1))) 1 0 0) ∧
    ((fun (s : State) (v : Fin 16) (n : Nat) (m : Nat) => (Live s) ∧ (s.dev.slotNow = some (n, m)) ∧ (cfgSlot n = true) ∧
      (s.dev.dueKills v = []) ∧ ((s.dev.lane v).claim = none) ∧
      (s.dev.laneState v = laneHeld)) (at_ 270 (puts [(Reg.LANE_STAT_STATE 1, 6)] base)) 1 0 0) ∧
    ((fun (s : State) (v : Fin 16) (n : Nat) (m : Nat) (r : KillRep) (rest : List KillRep) => (Live s) ∧ (s.dev.slotNow = some (n, m)) ∧
      (cfgSlot n = true) ∧ ((s.dev.lane v).claim = none) ∧ (s.dev.dueKills v = []) ∧ (s.dev.laneState v = laneActive) ∧
      (s.dev.safeStop = false) ∧ ((s.dev.lane v).reps = r :: rest) ∧
      (r.group + (3 - r.left) ≤ s.dev.groupNow)) (inLane 1 (fun l => { l with reps := [⟨1, 2, 3, 0, 3⟩] }) (at_ 270 (lane5 1))) 1 0 0 (⟨1,
      2, 3, 0, 3⟩) ([])) ∧
    ((fun (s : State) (v : Fin 16) (k : Fin 16) (a : Nat × Nat) => (Live s) ∧ ((s.dev.lane v).ack.find? (fun a => a.1 == k.1) = some a) ∧
      (a.2 + 800 < ((s.dev.vats[v]).guards[k]).repAt) ∧
      (s.dev.klatch v k = false)) (inGuard 1 15 (fun g => { g with repAt := 801 }) (inLane 1 (fun l => { l with ack := [(15, 0)] }) (lane5
      1))) 1 15 ((15, 0))) ∧
    ((fun (s : State) (v : Fin 16) (n : Nat) (m : Nat) => (Live s) ∧ (s.pending = []) ∧ (s.dev.slotNow = some (n, m)) ∧
      (s.dev.dueKills v = []) ∧ ((s.dev.lane v).claim = none) ∧ (s.dev.laneState v ≠ laneOff) ∧ (n % 8 = 7)) (at_ 305 (lane5 1)) 1 7 0) ∧
    ((fun (s : State) (v : Fin 16) (k : Fin 16) (n : Nat) (m : Nat) => (Live s) ∧ (s.pending = []) ∧ (s.dev.slotNow = some (n, m)) ∧
      (s.dev.dueKills v = []) ∧ ((s.dev.lane v).claim = none) ∧ (s.dev.laneState v = laneActive) ∧
      (cmdSlot n = some k)) (at_ 650 (lane5 1)) 1 15 76 0) := by
  refine ⟨?_, ?_, ?_, ?_, ?_, ?_, ?_, ?_, ?_, ?_, ?_, ?_⟩ <;> decide +kernel

theorem test_measurement_is_calibrated_hypotheses :
    ((fun (s : State) (v : Fin 16) (k : Fin 16) (t : Nat) (yi : Int) (yv : Int) (fi : Sinc2) (fv : Sinc2) => (Live s) ∧
      (((s.dev.vats[v]).meas[k]).fi.pop = some (t, yi, fi)) ∧ (((s.dev.vats[v]).meas[k]).fv.pop = some (t, yv, fv)) ∧
      (s.dev.calWaits v k t = false)) (inMeas 1 15 (fun m => { m with fi := { latch := [(775, 9)] }, fv := { latch := [(775, 8)] } })
      base) 1 15 775 9 8 ({ w := 9, c := 9 }) ({ w := 8, c := 8 })) ∧
    ((fun (s : State) (v : Fin 16) (k : Fin 16) (t : Nat) => (Live s) ∧ (t % (20000 * 2 ^ ((s.dev.vats[v]).meas[k]).rateFor t) = 0) ∧
      (((s.dev.vats[v]).meas[k]).fromT ≤ t) ∧ ((s.dev.lane v).activeAt ≤ t) ∧ (s.dev.calWaits v k t = false) ∧
      (s.dev.precReady v k t = true)) (inMeas 1 15 (fun m => { m with zi := [⟨33, 5, false, false⟩], zv := [⟨10, 6, false, false⟩], fromT := 0 }) base) 1 15 20000) ∧
    ((fun (s : State) (v : Fin 16) (k : Fin 16) (code : Nat) (tc : Nat) => (Live s) ∧ (((s.dev.vats[v]).meas[k]).ratePend = some (code, tc)) ∧
      (tc ≤ s.dev.now)) (inMeas 15 15 (fun m => { m with ratePend := some (3, 0) }) base) 15 15 3 0) ∧
    ((fun (s : State) (src : Src) (v : Fin 16) (w : Word) => (Reaches s src (Reg.VAT_CAL_COMMIT_at v.1)) ∧ (w.toNat % 2 ^ 16 ≠ 0) ∧
      ((s.dev.vats[v]).calReq = [])) base core0 15 0x8001) ∧
    ((fun (s : State) (v : Fin 16) (q : CalReq) => (Live s) ∧ ((s.dev.vats[v]).calReq = [q]) ∧ (q.mask < 2 ^ 16) ∧ (q.at_ ≤ s.dev.now) ∧
      ((∀ k : Fin 16, s.dev.outstanding v k (q.at_ - 400 + 25 * k.1) = false))) (inVat 15 (fun x =>
      { x with calReq := [⟨0x8001, 0, true, 400⟩] }) (at_ 100000 base)) 15 (⟨0x8001, 0, true, 400⟩)) := by
  refine ⟨?_, ?_, ?_, ?_, ?_⟩ <;> decide +kernel

theorem test_running_channel_follows_the_control_law_hypotheses :
    ((fun (s : State) (v : Fin 16) (k : Fin 16) (r : Running) (t0 : Nat) (ecc : Ecc) => (Live s) ∧ (ecc ≠ .uncorrectable) ∧
      (s.dev.fenced v = false) ∧ (s.dev.laneState v = laneActive) ∧ (s.dev.slotTick k = some t0) ∧ ((s.dev.chan v k).done ≠ some t0) ∧
      (s.dev.displaced v k t0 = false) ∧ ((s.dev.chan v k).st = .run) ∧ ((s.dev.chan v k).run = some r) ∧ (r.d.mode = 1) ∧
      ((s.dev.chan v k).setup = r.d) ∧ ((s.dev.chan v k).gang = none) ∧ ((s.dev.chan v k).killEnd = none) ∧
      ((s.dev.chan v k).stopReq = []) ∧ ((s.dev.chan v k).orphan = none) ∧ ((s.dev.chan v k).softFirst = false) ∧ (r.lateEnd = none) ∧
      ((s.dev.chan v k).phase.isSome = true) ∧ ((s.dev.vats[v]).imp.point = none) ∧
      (((s.dev.modChan v k (fun c => { c with done := some t0 })).modChan v k Chan.trackStep).protections v k t0 = []) ∧
      (endStatus r.d (s.dev.conditions v k r t0).1 = none)) (inChan 1 15 (fun c => { c with phase := some 3 }) (running .run 1 15 (at_ 650
      (lane5 1)))) 1 15 step1 375 .ok) := by
  decide +kernel

theorem test_fenced_and_idle_channels_take_no_part_hypotheses :
    ((fun (s : State) (v : Fin 16) (k : Fin 16) (_a : Bool) (_b : Ecc) => (Live s) ∧
      ((s.dev.slotTick k).all (fun t0 => decide ((s.dev.chan v k).done = some t0)) = true)) base 15 15 true .ok) ∧
    ((fun (s : State) (v : Fin 16) (k : Fin 16) (t0 : Nat) (ecc : Ecc) => (Live s) ∧ (ecc ≠ .uncorrectable) ∧ (s.dev.fenced v = false) ∧
      (s.dev.laneState v = laneActive) ∧ (s.dev.slotTick k = some t0) ∧ ((s.dev.chan v k).done ≠ some t0) ∧
      (s.dev.displaced v k t0 = false) ∧ ((s.dev.chan v k).st = .idle) ∧ ((s.dev.chan v k).run = none) ∧ ((s.dev.chan v k).queue = []) ∧
      ((s.dev.chan v k).stopReq = []) ∧ ((s.dev.chan v k).gang = none)) (at_ 650 (lane5 1)) 1 15 375 .ok) ∧
    ((fun (s : State) (v : Fin 16) (_k : Fin 16) (_a : Bool) (_b : Ecc) => (Live s) ∧
      (s.dev.fenced v = true)) (puts [(Reg.VAT_STAT_FENCED 15, 1)] base) 15 0 true .uncorrectable) ∧
    ((fun (s : State) (v : Fin 16) (k : Fin 16) (a : Bool) (b : Ecc) (t0 : Nat) => (Live s) ∧ (s.dev.fenced v = false) ∧
      ((a = false ∨ b = .uncorrectable)) ∧ (s.dev.slotTick k = some t0) ∧
      ((s.dev.chan v k).done ≠ some t0)) (at_ 650 (lane5 1)) 1 15 true .uncorrectable 375) ∧
    ((fun (s : State) (src : Src) (w : Word) (v : Fin 16) => (Reaches s src Reg.SYS_VAT_CTL_at) ∧ (w.toNat.testBit (16 + v.1) = true) ∧
      (s.dev.fenced v = false)) base core0 0x80000000 15) ∧
    ((fun (s : State) (src : Src) (w : Word) (v : Fin 16) => (Reaches s src Reg.SYS_VAT_CTL_at) ∧ (w.toNat < 2 ^ 16) ∧
      (w.toNat.testBit v.1 = true) ∧ (s.dev.bit (Reg.VAT_STAT_FENCE_DONE v.1) = true)) (puts [(Reg.VAT_STAT_FENCED 15, 1),
      (Reg.VAT_STAT_FENCE_DONE 15, 1)] base) core0 0x8000 15) ∧
    ((fun (s : State) (v : Fin 16) => (Live s) ∧ (s.dev.fenced v = true) ∧ ((s.dev.latchTime v).isSome = true) ∧
      (s.dev.bit (Reg.VAT_LDG_CLOSED_CLOSED v.1) = true)) (at_ 40000 (puts [(Reg.VAT_STAT_FENCED 15, 1), (Reg.VAT_LDG_CLOSED_CLOSED 15,
      1)] base)) 15) := by
  refine ⟨?_, ?_, ?_, ?_, ?_, ?_, ?_⟩ <;> decide +kernel

theorem test_channel_timers_end_hypotheses :
    ((fun (s : State) (v : Fin 16) (k : Fin 16) (r : Running) => (Live s) ∧ ((s.dev.chan v k).st = .arm) ∧ ((s.dev.chan v k).gang = none) ∧
      ((s.dev.chan v k).run = some r) ∧ (r.d.isGang = false) ∧
      ((s.dev.chan v k).stAt + 400 * s.dev.f (Reg.VAT_LOOP_CFG_ARM_TO v.1) ≤ s.dev.now)) (running .arm 1 15 (at_ 1000000 base)) 1 15 step1) ∧
    ((fun (s : State) (v : Fin 16) (k : Fin 16) (r : Running) => (Live s) ∧ ((s.dev.chan v k).st = .close) ∧ ((s.dev.chan v k).gang = none) ∧
      ((s.dev.chan v k).run = some r) ∧ (r.d.isGang = false) ∧
      (s.dev.closeDue v k (s.dev.tick k) = false)) (running .close 1 15 base) 1 15 step1) ∧
    ((fun (s : State) (v : Fin 16) (k : Fin 16) (r : Running) (t0 : Nat) (ecc : Ecc) => (Live s) ∧ (ecc ≠ .uncorrectable) ∧
      (s.dev.fenced v = false) ∧ (s.dev.laneState v = laneActive) ∧ (s.dev.slotTick k = some t0) ∧ ((s.dev.chan v k).done ≠ some t0) ∧
      (s.dev.displaced v k t0 = false) ∧ ((s.dev.chan v k).st = .soft) ∧ ((s.dev.chan v k).phase = none) ∧ ((s.dev.chan v k).run = some r) ∧
      (r.d.isGang = false) ∧ (r.lateEnd = none) ∧ ((s.dev.chan v k).gang = none) ∧ ((s.dev.chan v k).killEnd = none) ∧
      ((s.dev.chan v k).stopReq = []) ∧ ((s.dev.chan v k).orphan = none) ∧
      (((s.dev.modChan v k (fun c => { c with done := some t0 })).modChan v k Chan.trackStep).protections v k t0 = []) ∧
      (endStatus r.d (s.dev.conditions v k r t0).1 = none)) (running .soft 1 15 (at_ 650 (lane5 1))) 1 15 step1 375 .ok) ∧
    ((fun (s : State) (v : Fin 16) (k : Fin 16) => (Live s) ∧ ((s.dev.chan v k).st = .ramp) ∧ ((s.dev.chan v k).gang = none) ∧
      ((s.dev.chan v k).stAt + 400 * (if (s.dev.chan v k).orphanRate.isSome then min (s.dev.f (Reg.VAT_RAMP_CFG_RAMP_MAX v.1)) 2000 else
      s.dev.f (Reg.VAT_RAMP_CFG_RAMP_MAX v.1)) ≤ s.dev.now)) (running .ramp 1 15 (at_ 100000000 base)) 1 15) ∧
    ((fun (s : State) (v : Fin 16) (k : Fin 16) (e : QEntry) => (Live s) ∧ (CanStart s v k e) ∧ (e.heldAt.isSome = true) ∧
      ((s.dev.chan v k).stAt < s.dev.tick k)) (queued 1 15 { entry1 with heldAt := some 0 } (tuned 1 (at_ 800 (lane5 1)))) 1 15
      ({ entry1 with heldAt := some 0 })) ∧
    ((fun (s : State) (v : Fin 16) (k : Fin 16) (e : QEntry) (rest : List QEntry) (h : Nat) => (Live s) ∧ ((s.dev.chan v k).queue = e :: rest) ∧
      (e.heldAt = some h) ∧ (h + 400000 * s.dev.f (Reg.VAT_LOOP_CFG_ENABLE_HOLD_LIMIT v.1) < s.dev.tick k)) (queued 1 15
      { entry1 with heldAt := some 0 } (at_ 40000000000 base)) 1 15 ({ entry1 with heldAt := some 0 }) ([]) 0) := by
  refine ⟨?_, ?_, ?_, ?_, ?_, ?_⟩ <;> decide +kernel

theorem test_orphan_policies_act_hypotheses :
    ((fun (s : State) (p : Fin 2) => (Live s) ∧ (s.dev.bit (pathBit p) = true)) (puts [(pathBit 1, 1)] base) 1) ∧
    ((fun (s : State) (_p : Fin 2) => (Live s)) base 1) ∧
    ((fun (s : State) (v : Fin 16) (k : Fin 16) (o : Orphan) (r : Running) => (Live s) ∧ (s.dev.fenced v = false) ∧
      ((s.dev.chan v k).orphan = some o) ∧ (o.taken = false) ∧ (o.since < s.dev.tick k) ∧ (s.dev.outstanding v k (s.dev.tick k) = false) ∧
      (o.policy = 0) ∧ ((s.dev.chan v k).gang = none) ∧ ((s.dev.chan v k).run = some r) ∧ (r.d.isGang = false) ∧
      (((s.dev.chan v k).st = .run ∨ (s.dev.chan v k).st = .soft ∨ (s.dev.chan v k).st = .passive))) (orph 1 15 0 false (running .run 1 15
      (at_ 800 base))) 1 15 (⟨0, 0, 0, false, false, none, none⟩) step1) ∧
    ((fun (s : State) (v : Fin 16) (k : Fin 16) (o : Orphan) (r : Running) => (Live s) ∧ (s.dev.fenced v = false) ∧
      ((s.dev.chan v k).orphan = some o) ∧ (o.taken = false) ∧ (o.since < s.dev.tick k) ∧ (s.dev.outstanding v k (s.dev.tick k) = false) ∧
      ((o.policy = 1 ∨ o.policy = 2)) ∧ ((s.dev.chan v k).gang = none) ∧ ((s.dev.chan v k).run = some r) ∧ ((o.policy = 2 → r.d.mode ≠ 9)) ∧
      (((s.dev.chan v k).st = .run ∨ (s.dev.chan v k).st = .passive))) (orph 1 15 2 false (running .run 1 15 (at_ 800 base))) 1 15 (⟨2, 0,
      0, false, false, none, none⟩) step1) ∧
    ((fun (s : State) (v : Fin 16) (k : Fin 16) (o : Orphan) (r : Running) => (Live s) ∧ ((s.dev.chan v k).orphan = some o) ∧ (o.taken = true) ∧
      (o.policy = 2) ∧ (o.since + 400000 * o.maxMs ≤ s.dev.now) ∧ (s.dev.fenced v = false) ∧ (o.since + 400000 * o.maxMs ≤ s.dev.tick k) ∧
      (s.dev.outstanding v k (s.dev.tick k) = false) ∧ ((s.dev.chan v k).gang = none) ∧ ((s.dev.chan v k).run = some r) ∧
      (r.d.isGang = false) ∧ ((s.dev.chan v k).st = .run)) (orph 1 15 2 true (running .run 1 15 (at_ 800 base))) 1 15 (⟨2, 0, 0, true,
      true, none, none⟩) step1) ∧
    ((fun (s : State) (v : Fin 16) (k : Fin 16) (o : Orphan) (x : Nat) => (Live s) ∧ ((s.dev.chan v k).orphan = some o) ∧ (o.endAt = some x) ∧
      (x < s.dev.tick k) ∧ (s.dev.outstanding v k (s.dev.tick k) = false)) (inChan 1 15 (fun c =>
      { c with orphan := some ⟨0, 0, 0, true, true, none, some 0⟩ }) (at_ 800 base)) 1 15 (⟨0, 0, 0, true, true, none, some 0⟩) 0) := by
  refine ⟨?_, ?_, ?_, ?_, ?_, ?_⟩ <;> decide +kernel

theorem test_early_reenable_is_refused_and_logged_hypotheses :
    ((fun (s : State) (src : Src) (w : Word) (v : Fin 16) => (Reaches s src Reg.SYS_VAT_CTL_at) ∧ (w.toNat < 2 ^ 16) ∧
      (w.toNat.testBit v.1 = true) ∧ (s.dev.bit (Reg.VAT_STAT_FENCE_DONE v.1) = false)) base core0 0x8000 15) := by
  decide +kernel

theorem test_admission_is_within_the_limits_hypotheses :
    ((fun (d : Dev) (v : Fin 16) (k : Fin 16) (r : Resv) => (d.admitted v k r = true)) ((puts [(Reg.VAT_BAL_DRAW_LIMIT 1, 1)] base).dev) 1 15
      (⟨0, 1000⟩)) ∧
    ((fun (d : Dev) (v : Fin 16) (k : Fin 16) (r : Resv) => (d.admitted v k r = true)) ((puts [(Reg.VAT_BAL_DRAW_LIMIT 1, 1)] base).dev) 1 15
      (⟨0, 1000⟩)) ∧
    ((fun (d : Dev) (v : Fin 16) (k : Fin 16) (r : Resv) => (d.admitted v k r = true) ∧
      (d.bit Reg.SLICE_MODE_STRICT = false)) ((puts [(Reg.PWR_BAL_CFG_PAIR, 0), (Reg.VAT_BAL_REGEN_LIMIT 1, 1)] base).dev) 1 15 (⟨-1000,
      0⟩)) := by
  refine ⟨?_, ?_, ?_⟩ <;> decide +kernel

theorem test_balancer_forms_factors_and_starts_hypotheses :
    ((fun (s : State) => (Live s) ∧ (s.dev.passAt ≠ some s.dev.periodStart) ∧ (s.dev.settledAt s.dev.periodStart = true) ∧
      ((∀ v k : Fin 16, (s.dev.chan v k).queue = []))) base) ∧
    ((fun (s : State) (v : Fin 16) (k : Fin 16) (e : QEntry) (rest : List QEntry) (t0 : Nat) => (Live s) ∧
      ((s.dev.chan v k).queue = e :: rest) ∧ (e.deferAt = some t0) ∧ (e.resv = none) ∧
      (t0 + 400000 * s.dev.f (Reg.VAT_BAL_HOLD_LIMIT v.1) < s.dev.now)) (queued 1 15 { entry1 with resv := none, deferAt := some 0 } (at_
      40000000000 base)) 1 15 ({ entry1 with resv := none, deferAt := some 0 }) ([]) 0) ∧
    ((fun (s : State) (v : Fin 16) (k : Fin 16) (e : QEntry) (rest : List QEntry) (i : Nat) => (Live s) ∧ ((s.dev.chan v k).queue = e :: rest) ∧
      (e.startAt = some i) ∧ (e.resv = none) ∧ (e.heldAt = none) ∧
      (i < s.dev.now / 400 * 400 + (if s.dev.passAt = some (s.dev.now / 400 * 400) then 400 else 0) + 400 * (s.dev.f
      (Reg.VAT_LOOP_CFG_ARM_TO v.1) + 5))) (queued 1 15 { entry1 with resv := none, startAt := some 800 } base) 1 15
      ({ entry1 with resv := none, startAt := some 800 }) ([]) 800) ∧
    ((fun (s : State) (v : Fin 16) (k : Fin 16) (e : QEntry) (i : Nat) => (Live s) ∧ (CanStart s v k e) ∧ (e.heldAt = none) ∧
      (e.startAt = some i) ∧ (e.late = false) ∧ (i ≤ s.dev.tick k) ∧
      (s.dev.tick k < i + 400)) (queued 1 15 { entry1 with startAt := some 800 } (tuned 1 (at_ 1200 (lane5 1)))) 1 15
      ({ entry1 with startAt := some 800 }) 800) ∧
    ((fun (s : State) (v : Fin 16) (k : Fin 16) (e : QEntry) (rest : List QEntry) (i : Nat) => (Live s) ∧ ((s.dev.chan v k).queue = e :: rest) ∧
      (e.startAt = some i) ∧ (e.late = false) ∧ (i ≤ s.dev.tick k) ∧ (s.dev.tick k < i + 400) ∧ (e.resv.isSome = true) ∧ (e.heldAt = none) ∧
      ((s.dev.chan v k).run = none) ∧ ((s.dev.chan v k).orphan = none) ∧ ((s.dev.chan v k).stopReq = []) ∧ (s.dev.fenced v = false) ∧
      (e.d.isGang = false) ∧ ((s.dev.chan v k).st = .idle) ∧
      (s.dev.klatch v k = true)) (queued 1 15 { entry1 with startAt := some 400 } (tuned 1 (at_ 800 (puts [(Reg.LANE_STAT_KLATCH 1,
      0x8000)] (lane5 1))))) 1 15 ({ entry1 with startAt := some 400 }) ([]) 400) := by
  refine ⟨?_, ?_, ?_, ?_, ?_⟩ <;> decide +kernel

theorem test_descriptors_act_on_arrival_hypotheses :
    ((fun (s : State) (i : Fin 64) (ws : List Word) => (Fetches s i ws) ∧
      ((Desc.ofWords ws).op = 0)) fetching 63 ([0, 7] ++ List.replicate 14 0)) ∧
    ((fun (s : State) (i : Fin 64) (ws : List Word) => (Fetches s i ws) ∧ ((Desc.ofWords ws).op = 1) ∧ (
  let v := chV (Desc.ofWords ws).ch;
  let k := chK (Desc.ofWords ws).ch;
  ((s.dev.chan v k).halt = false) ∧ (s.dev.slots i (Desc.ofWords ws).ch < 8))) fetching 63 stepWords) ∧
    ((fun (s : State) (i : Fin 64) (ws : List Word) => (Fetches s i ws) ∧ ((Desc.ofWords ws).op = 1) ∧
      ((s.dev.chan (chV (Desc.ofWords ws).ch) (chK (Desc.ofWords ws).ch)).halt = false) ∧
      (8 ≤ s.dev.slots i (Desc.ofWords ws).ch)) (inSlice 63 (fun e =>
      { e with cmps := (List.range 8).map (fun i => { tag := i, ch := 31, stepIdx := 0, status := 0, tEnd := 0, slot := true }) })
      fetching) 63 stepWords) ∧
    ((fun (s : State) (i : Fin 64) (ws : List Word) => (Fetches s i ws) ∧ ((Desc.ofWords ws).op = 2)) fetching 63 (words 2)) ∧
    ((fun (s : State) (i : Fin 64) (ws : List Word) => (Fetches s i ws) ∧ ((Desc.ofWords ws).op = 4)) fetching 63 (words 4)) ∧
    ((fun (s : State) (i : Fin 64) (ws : List Word) => (Fetches s i ws) ∧
      ((Desc.ofWords ws).op = 3)) (queued 1 15 entry1 fetching) 63 (words 3)) ∧
    ((fun (s : State) (i : Fin 64) (ws : List Word) => (Fetches s i ws) ∧ ((Desc.ofWords ws).op = 5) ∧
      ((s.dev.chan (chV (Desc.ofWords ws).ch) (chK (Desc.ofWords ws).ch)).halt = false) ∧
      ((s.dev.chan (chV (Desc.ofWords ws).ch) (chK (Desc.ofWords ws).ch)).run = none) ∧
      ((s.dev.chan (chV (Desc.ofWords ws).ch) (chK (Desc.ofWords ws).ch)).queue = []) ∧
      (s.dev.slots i (Desc.ofWords ws).ch < 8)) fetching 63 (words 5)) ∧
    ((fun (s : State) (i : Fin 64) (ws : List Word) => (Fetches s i ws) ∧
      ((Desc.ofWords ws).op = 6)) (inChan 1 15 (fun c => { c with halt := true }) fetching) 63 (words 6)) ∧
    ((fun (s : State) (i : Fin 64) (ws : List Word) => (Live s) ∧ (s.dev.fetchRuns i = true) ∧ (s.dev.fetchReach i = .opened) ∧
      (s.ringHolds i ws = true) ∧ (7 ≤ (Desc.ofWords ws).op)) fetching 63 (words 7)) := by
  refine ⟨?_, ?_, ?_, ?_, ?_, ?_, ?_, ?_, ?_⟩ <;> decide +kernel

theorem test_doorbells_move_indices_hypotheses :
    ((fun (s : State) (port : Fin 2) (i : Fin 64) (_w : Word) => (DoorbellReaches s port i) ∧
      (s.dev.bit (Reg.SLC_RING_CFG_EN i.1 0) = true)) slice63 0 63 16) ∧
    ((fun (s : State) (port : Fin 2) (i : Fin 64) (r : Fin 8) (_w : Word) => (DoorbellReaches s port i) ∧
      (r ≠ 0)) (inSlice 63 (fun e => { e with pi := Vector.replicate 8 1 }) slice63) 0 63 7 1) ∧
    ((fun (s : State) (port : Fin 2) (_i : Fin 64) (_r : Fin 8) => (Live s) ∧ (s.dev.sup.warm = none) ∧
      (s.dev.f (Reg.PWR_QTAG_STATE (36 + port.1)) = 0)) fetching 1 63 7) ∧
    ((fun (s : State) (port : Fin 2) (_i : Fin 64) (off : Nat) (op : DoorOp) => (Live s) ∧ (s.dev.sup.warm = none) ∧
      (s.dev.f (Reg.PWR_QTAG_STATE (36 + port.1)) = 0) ∧ ((0x20 ≤ off ∨ off % 4 ≠ 0 ∨ ∀ w : Word, op ≠ .write 4 w ∧
      op ≠ .read 4))) fetching 1 63 0x20 (.read 4)) ∧
    ((fun (s : State) (i : Fin 64) => (Live s) ∧ (s.dev.sup.warm = none) ∧ (s.dev.bit (Reg.SLC_RING_CTL_DBSRC i.1) = true) ∧
      (s.dev.f (Reg.SLC_STATE_STATE i.1) = 1) ∧ (s.dev.bit (Reg.SLC_RING_CFG_EN i.1 0) = true) ∧ (
  let addr := s.dev.f64 (Reg.SLC_MIRROR_LO_ADDR i.1) (Reg.SLC_MIRROR_HI_ADDR i.1);
  (s.dev.localOpen 8 i.1 .read addr 32 = true) ∧ ((∀ r : Fin 8, r ≠ 0 → s.memWord (addr + 4 * r.1) 4 = (s.dev.slices[i]).ci[r])) ∧
      (s.memWord addr 4 ≠ (s.dev.slices[i]).cmdPi) ∧ (s.dev.pollDue i = true) ∧
      (s.dev.cmdPiOk i.1 (s.memWord addr 4) = true))) (inMem 0x10000000 (leBytes 32 3) (grants 1 (puts [(Reg.SLC_RING_CTL_DBSRC 63, 1),
      (Reg.SLC_MIRROR_LO_ADDR 63, 0x10000000)] slice63))) 63) := by
  refine ⟨?_, ?_, ?_, ?_, ?_⟩ <;> decide +kernel

theorem test_ring_entries_are_delivered_hypotheses :
    ((fun (s : State) (i : Fin 64) (c : Cmp) (rest : List Cmp) (x : Nat) => (Clean s) ∧ (Live s) ∧ ((s.dev.slices[i]).cmps = c :: rest) ∧
      (s.dev.ringReady i.1 1 = true) ∧ (s.dev.endsKnown i c.tEnd = true) ∧ (s.dev.cmpValC c = some x) ∧
      (s.dev.bit Reg.DPL_CFG_EN = false)) (inSlice 63 (fun e =>
      { e with cmps := [{ tag := 1, ch := 31, stepIdx := 0, status := 0, tEnd := 0, valC := 9 }] }) slice63) 63
      ({ tag := 1, ch := 31, stepIdx := 0, status := 0, tEnd := 0, valC := 9 }) ([]) 9) ∧
    ((fun (s : State) (i : Fin 64) => (Clean s) ∧ (Live s) ∧ ((s.dev.slices[i]).wbDirty = true) ∧
      (s.dev.bit (Reg.SLC_RING_CFG_EN i.1 0) = true) ∧ (s.dev.ringStopped i.1 0 = false) ∧ (s.dev.bit Reg.DPL_CFG_EN = false) ∧
      ((s.dev.slices[i]).evtLostRun = 0) ∧ (
  let addr := s.dev.f64 (Reg.SLC_WB_LO_ADDR i.1) (Reg.SLC_WB_HI_ADDR i.1);
  (s.dev.wbPath i.1 (s.dev.f (Reg.SLC_RING_CFG_LOC i.1 0)) addr = true))) (inSlice 63 (fun e => { e with wbDirty := true, sig := [2] })
      slice63) 63) ∧
    ((fun (s : State) (i : Fin 64) (t0 : Nat) => (Live s) ∧ ((s.dev.slices[i]).stallAt = some t0) ∧ (t0 + 400000 ≤ s.dev.now) ∧
      (s.dev.bit (Reg.SLC_RING_STAT_CMD_STALL i.1) = false)) (inSlice 63 (fun e => { e with stallAt := some 0 }) (at_ 400000 slice63)) 63 0) ∧
    ((fun (s : State) (v : Fin 16) (k : Fin 16) (r : Running) => (Live s) ∧ ((s.dev.chan v k).run = some r) ∧ (r.d.flag 3 = true) ∧
      (r.nextProg ≤ s.dev.now) ∧ (s.dev.ringRoom (s.dev.chan v k).slice 1 = true)) (inChan 1 15 (fun c =>
      { c with run := some { step1 with d := { step1.d with flags := 8 } } }) slice63) 1 15
      ({ step1 with d := { step1.d with flags := 8 } })) ∧
    ((fun (s : State) (i : Fin 64) (r : Fin 8) (_x : Word) => (Live s) ∧ (s.dev.bit (Reg.SLC_RING_CFG_EN i.1 r.1) = true) ∧
      (s.dev.ringStopped i.1 r.1 = false)) slice63 63 7 3) ∧
    ((fun (s : State) (src : Src) (i : Fin 64) (r : Fin 8) (w : Word) => (Reaches s src (Reg.SLC_RING_CFG_at i.1 r.1)) ∧ (
  let wr (f : RF) : Nat := bits w.toNat f.lo f.w;
  (w.toNat.testBit 0 = true) ∧ (s.dev.bit (Reg.SLC_RING_CFG_EN i.1 r.1) = false) ∧ (4 ≤ wr (Reg.SLC_RING_CFG_LOG2 i.1 r.1)) ∧
      (wr (Reg.SLC_RING_CFG_LOG2 i.1 r.1) ≤ 16) ∧ ((3 ≤ r.1 ∨ wr (Reg.SLC_RING_CFG_ESIZE i.1 r.1) = 0)) ∧
      ((wr (Reg.SLC_RING_CFG_LOC i.1 r.1) = 2 ∨ wr (Reg.SLC_RING_CFG_LOC i.1 r.1) < 2 ∧
      wr (Reg.SLC_RING_CFG_LOC i.1 r.1) = s.dev.f (Reg.SLC_PASID_PORT i.1))))) (puts [(Reg.SLC_RING_CFG_EN 63 7, 0)] slice63) core0 63 7
      0x121) ∧
    ((fun (s : State) (src : Src) (i : Fin 64) (r : Fin 8) (w : Word) => (Reaches s src (Reg.SLC_RING_CFG_at i.1 r.1)) ∧
      (w.toNat.testBit 0 = false) ∧ (s.dev.bit (Reg.SLC_RING_CFG_EN i.1 r.1) = true)) slice63 core0 63 7 0) := by
  refine ⟨?_, ?_, ?_, ?_, ?_, ?_, ?_⟩ <;> decide +kernel

theorem test_charge_integrates_exactly_hypotheses :
    ((fun (s : State) (v : Fin 16) (k : Fin 16) (z : ZOut) (zb : ZOut) (fa : Sinc4) (fb : Sinc4) => (Live s) ∧
      (((s.dev.vats[v]).meas[k]).a.fi.pop = some (z, fa)) ∧ (((s.dev.vats[v]).meas[k]).b.fi.pop = some (zb, fb)) ∧
      (s.dev.calWaits v k (640 * z.m) = false)) (inMeas 1 15 (fun m =>
      { m with a := { m.a with fi := { latch := [(3, 5, false, false)] } }, b := { m.b with fi := { latch := [(3, 5, false, false)] } } })
      base) 1 15 (⟨3, 5, false, false⟩) (⟨3, 5, false, false⟩) ({ c1 := 5, c2 := 5, c3 := 5, c4 := 5 })
      ({ c1 := 5, c2 := 5, c3 := 5, c4 := 5 })) ∧
    ((fun (s : State) (v : Fin 16) (k : Fin 16) (z : ZOut) (zb : ZOut) (fa : Sinc4) (fb : Sinc4) => (Live s) ∧
      (((s.dev.vats[v]).meas[k]).a.fv.pop = some (z, fa)) ∧ (((s.dev.vats[v]).meas[k]).b.fv.pop = some (zb, fb)) ∧
      (s.dev.calWaits v k (2560 * z.m - 2880) = false)) (inMeas 1 15 (fun m =>
      { m with a := { m.a with fv := { latch := [(3, 5, false, false)] } }, b := { m.b with fv := { latch := [(3, 5, false, false)] } } })
      base) 1 15 (⟨3, 5, false, false⟩) (⟨3, 5, false, false⟩) ({ c1 := 5, c2 := 5, c3 := 5, c4 := 5 })
      ({ c1 := 5, c2 := 5, c3 := 5, c4 := 5 })) := by
  refine ⟨?_, ?_⟩ <;> decide +kernel

theorem test_ledger_records_reach_memory_hypotheses :
    ((fun (s : State) (i : Fin 64) (x : Fin 5) (e : SEntry) => (Clean s) ∧ (Live s) ∧ (s.dev.bit Reg.DPL_CFG_EN = false) ∧
      (s.dev.waiting i.1 x.1 = [e]) ∧ (s.dev.inOrder i.1 x.1 e = true) ∧ (s.dev.ringReady i.1 (streamRing x.1) = true) ∧
      (s.dev.sealing i.1 x.1 = false)) (puts [(Reg.LDG_CFG_SEAL 63, 0)] (inVat 1 (fun x =>
      { x with sbuf := [⟨63, 4, 0, 31, 0, false, false, 0, false, leBytes 32 5⟩] }) slice63)) 63 4 (⟨63, 4, 0, 31, 0, false, false, 0,
      false, leBytes 32 5⟩)) ∧
    ((fun (s : State) (i : Fin 64) (c : Ckpt) => (Clean s) ∧ (Live s) ∧ (s.dev.bit Reg.DPL_CFG_EN = false) ∧ ((s.dev.slices[i]).ckpt = some c) ∧
      (
  let addr := s.dev.f64 (Reg.LDG_CK_BASE_LO_ADDR i.1) (Reg.LDG_CK_BASE_HI_ADDR i.1) + c.slot * 0x5000;
  (s.dev.pathUp i.1 (s.dev.f (Reg.LDG_CFG_LOC i.1)) addr (0x260 + 64 * c.rows.length) = true) ∧
      (c.rows.all (fun r => r.2.2.2.isSome || s.dev.cutReady r.1) = true))) (inSlice 63 (fun e =>
      { e with ckpt := some ⟨false, 0, 0, [], [], none, none, false⟩ }) slice63) 63 (⟨false, 0, 0, [], [], none, none, false⟩)) := by
  refine ⟨?_, ?_⟩ <;> decide +kernel

theorem test_ledger_commands_act_hypotheses :
    ((fun (s : State) (v : Fin 16) (x : Nat) => (Live s) ∧ (s.dev.fenced v = true) ∧ (s.dev.bit (Reg.VAT_LDG_CLOSED_CLOSED v.1) = false) ∧
      (s.dev.bit (Reg.VAT_STAT_FENCE_DONE v.1) = false) ∧ (s.dev.closeTick v = some x) ∧ (x ≤ s.dev.now) ∧
      (s.dev.closeReady v x = true)) (at_ 50560 (puts [(Reg.VAT_STAT_FENCED 1, 1), (Reg.VAT_STAT_FENCE_DONE 1, 0)] base)) 1 40320) ∧
    ((fun (s : State) (i : Fin 64) (x : Fin 5) (e : SEntry) => (Clean s) ∧ (Live s) ∧ (s.dev.bit Reg.DPL_CFG_EN = false) ∧
      (s.dev.waiting i.1 x.1 = [e]) ∧ (s.dev.inOrder i.1 x.1 e = true) ∧ (s.dev.ringReady i.1 (streamRing x.1) = true) ∧
      ((s.dev.sealing i.1 x.1 = true → e.sealed = false ∧
      ((s.dev.slices[i]).blk[x]).length < 63))) (puts [(Reg.LDG_CFG_SEAL 63, 1)] (inVat 1 (fun x =>
      { x with sbuf := [⟨63, 4, 0, 31, 0, false, false, 0, false, leBytes 32 5⟩] }) slice63)) 63 4 (⟨63, 4, 0, 31, 0, false, false, 0,
      false, leBytes 32 5⟩)) ∧
    ((fun (s : State) (i : Fin 64) (c : Ckpt) => (Clean s) ∧ (Live s) ∧ (s.dev.bit Reg.DPL_CFG_EN = false) ∧ ((s.dev.slices[i]).ckpt = some c) ∧
      (
  let addr := s.dev.f64 (Reg.LDG_CK_BASE_LO_ADDR i.1) (Reg.LDG_CK_BASE_HI_ADDR i.1) + c.slot * 0x5000;
  (s.dev.pathUp i.1 (s.dev.f (Reg.LDG_CFG_LOC i.1)) addr (0x260 + 64 * c.rows.length) = true) ∧
      (c.rows.all (fun r => r.2.2.2.isSome || s.dev.cutReady r.1) = true))) (inSlice 63 (fun e =>
      { e with ckpt := some ⟨false, 0, 0, [], [], none, none, false⟩ }) slice63) 63 (⟨false, 0, 0, [], [], none, none, false⟩)) ∧
    ((fun (s : State) (_v : Fin 16) => (Live s) ∧ (s.dev.now % 400000000 = 0)) base 1) ∧
    ((fun (s : State) (v : Fin 16) (k : Fin 16) (z : ZOut) (m : Meas) => (Live s) ∧
      (((s.dev.vats[v]).meas[k]).sinc4 true (s.dev.iFs v) (s.dev.vFs v) = some (z, m)) ∧ (s.dev.calWaits v k (640 * z.m) = false) ∧
      ((s.dev.vats[v]).div.2.testBit k.1 = true) ∧ ((s.dev.vats[v]).div.1 < 640 * z.m)) diverging 1 15 (⟨3, 5, false, false⟩) divNext) ∧
    ((fun (s : State) (src : Src) (i : Fin 64) (w : Word) => (Reaches s src (Reg.LDG_CFG_at i.1)) ∧ (w.toNat.testBit 0 = true) ∧
      (s.dev.f (Reg.LDG_CFG_EN i.1) = 0) ∧ (
  let loc := bits w.toNat (Reg.LDG_CFG_LOC i.1).lo (Reg.LDG_CFG_LOC i.1).w;
  ((loc = 2 ∨ loc < 2 ∧ loc = s.dev.f (Reg.SLC_PASID_PORT i.1))))) slice63 core0 63 1) ∧
    ((fun (s : State) (src : Src) (i : Fin 64) (w : Word) => (Reaches s src (Reg.LDG_CFG_at i.1)) ∧ (w.toNat.testBit 0 = false) ∧
      (w.toNat.testBit 1 = false) ∧ (s.dev.bit (Reg.LDG_CFG_SEAL i.1) = true) ∧
      (s.dev.f (Reg.LDG_CFG_EN i.1) = 0)) (puts [(Reg.LDG_CFG_SEAL 63, 1)] slice63) core0 63 0) ∧
    ((fun (s : State) (i : Fin 64) => (Live s) ∧ (s.dev.bit (Reg.LDG_CFG_EN i.1) = true) ∧ (s.dev.f (Reg.SLC_STATE_STATE i.1) ≠ 0) ∧
      (s.dev.now % (s.dev.f (Reg.LDG_CFG_PERIOD i.1) * 40000000) = 0) ∧
      ((s.dev.slices[i]).closingDone = false)) (puts [(Reg.LDG_CFG_EN 63, 1)] slice63) 63) ∧
    ((fun (s : State) (src : Src) (i : Fin 64) (_w : Word) => (Reaches s src (Reg.LDG_CK_CI_at i.1))) (puts [(Reg.LDG_CK_PI_PI 63, 1)]
      slice63) core0 63 1) ∧
    ((fun (s : State) (src : Src) (v : Fin 16) (k : Fin 16) (w : Word) (h : Nat × Nat × Int) => (Reaches s src (Reg.VAT_LDG_SNAP_at v.1)) ∧
      (w.toNat = k.1) ∧ (((s.dev.vats[v]).meas[k]).a.hist.head? = some h)) (inMeas 1 15 (fun m =>
      { m with a := { m.a with hist := [(3, 4, 5)] } }) base) core0 1 15 15 ((3, 4, 5))) := by
  refine ⟨?_, ?_, ?_, ?_, ?_, ?_, ?_, ?_, ?_, ?_⟩ <;> decide +kernel

theorem test_impedance_sweeps_run_hypotheses :
    ((fun (s : State) (src : Src) (v : Fin 16) (w : Word) => (Reaches s src (Reg.IMP_CTL_at v.1)) ∧ (w.toNat.testBit 0 = true) ∧
      (w.toNat.testBit 1 = false)) base core0 1 1) ∧
    ((fun (s : State) (src : Src) (v : Fin 16) (w : Word) => (Reaches s src (Reg.IMP_CTL_at v.1)) ∧ (w.toNat.testBit 0 = false) ∧
      (w.toNat.testBit 1 = true)) base core0 1 2) ∧
    ((fun (s : State) (v : Fin 16) (t0 : Nat) => (Live s) ∧ (s.dev.settledAt s.dev.periodStart = true) ∧ (s.dev.fenced v = false) ∧
      ((s.dev.vats[v]).imp.stopReq = none) ∧ (s.dev.bit (Reg.IMP_STAT_BUSY v.1) = false) ∧ ((s.dev.vats[v]).imp.point = none) ∧
      ((s.dev.vats[v]).imp.startReq = some t0) ∧
      (t0 < s.dev.periodStart)) (at_ 400 (inVat 1 (fun x => { x with imp := { x.imp with startReq := some 0 } }) base)) 1 0) ∧
    ((fun (s : State) (v : Fin 16) (p : ImpPoint) => (Live s) ∧ ((s.dev.vats[v]).imp.point = some p) ∧ (p.wEnd ≤ s.dev.now) ∧
      (s.dev.ticksDone v p.wEnd = true) ∧ (s.dev.f (Reg.IMP_CFG_NPTS v.1) ≤ p.p + 1) ∧
      (s.dev.bit (Reg.IMP_CFG_REPEAT v.1) = false)) (puts [(Reg.IMP_CFG_NPTS 1, 1)] (inVat 1 (fun x =>
      { x with imp := { x.imp with point := some {} } }) base)) 1 ({})) ∧
    ((fun (s : State) (v : Fin 16) (p : ImpPoint) (rest : List ImpPoint) => (Live s) ∧ ((s.dev.vats[v]).imp.point = none) ∧
      ((s.dev.vats[v]).imp.fin = p :: rest)) (inVat 1 (fun x => { x with imp := { x.imp with fin := [{}] } }) base) 1 ({}) ([])) ∧
    ((fun (s : State) (v : Fin 16) (e : SEntry) => (Clean s) ∧ (Live s) ∧ (s.dev.bit Reg.DPL_CFG_EN = false) ∧ ((s.dev.vats[v]).imp.buf = [e]) ∧
      (s.dev.impRing e.slice.1 e.ring = true) ∧ (s.dev.ringReady e.slice.1 (streamRing e.ring) = true) ∧ (e.ch / 16 = v.1) ∧
      (s.dev.impInOrder e = true) ∧ (s.dev.impWaiting e.slice.1 e.ring = [e])) (inVat 1 (fun x =>
      { x with imp := { x.imp with buf := [⟨63, 4, 0, 31, 0, false, false, 0, false, leBytes 64 5⟩] } }) (puts [(Reg.SLC_RING_CFG_ESIZE 63
      7, 1)] slice63)) 1 (⟨63, 4, 0, 31, 0, false, false, 0, false, leBytes 64 5⟩)) := by
  refine ⟨?_, ?_, ?_, ?_, ?_, ?_⟩ <;> decide +kernel

theorem test_slices_come_and_go_hypotheses :
    ((fun (s : State) (src : Src) (w : Word) (i : Fin 64) => (Reaches s src Reg.SLICE_CMD_at) ∧ (s.dev.bit Reg.SLICE_CMD_STAT_BUSY = false) ∧
      (bits w.toNat 8 3 = 1) ∧ (bits w.toNat 0 6 = i.1) ∧ (i ≠ 0)) base core0 0x13F 63) ∧
    ((fun (s : State) (i : Fin 64) (t0 : Nat) (kl : Nat) (ks : Nat) (rest : List Nat) => (Live s) ∧ (s.dev.sliceCmd = some (1, i.1, t0)) ∧
      (s.dev.bit Reg.MORD_STAT_DRBG_OK = true) ∧ (s.dev.devKeys = true) ∧
      (s.dev.emptyKeys = kl :: ks :: rest)) (cmd 1 (puts [(Reg.MORD_STAT_DRBG_OK, 1)] base)) 63 0 0 1 ((List.range 128).drop 2)) ∧
    ((fun (s : State) (src : Src) (w : Word) (i : Fin 64) => (Reaches s src Reg.SLICE_CMD_at) ∧ (s.dev.bit Reg.SLICE_CMD_STAT_BUSY = false) ∧
      (bits w.toNat 8 3 = 2) ∧ (bits w.toNat 0 6 = i.1) ∧ (i ≠ 0) ∧
      ((s.dev.f (Reg.SLC_STATE_STATE i.1) = 1 ∨ s.dev.f (Reg.SLC_STATE_STATE i.1) = 3))) slice63 core0 0x23F 63) ∧
    ((fun (s : State) (i : Fin 64) => (Live s) ∧ (s.dev.f (Reg.SLC_STATE_STATE i.1) = 2) ∧ ((s.dev.slices[i]).closingDone = false) ∧
      (s.dev.bit (Reg.LDG_CFG_EN i.1) = true) ∧ (s.dev.atRest i = true) ∧ (s.dev.ckBarred i.1 = false) ∧
      (s.dev.now % 640 = 0)) (puts [(Reg.SLC_STATE_STATE 63, 2), (Reg.LDG_CFG_EN 63, 1)] slice63) 63) ∧
    ((fun (s : State) (i : Fin 64) (t0 : Nat) => (Live s) ∧ (s.dev.f (Reg.SLC_STATE_STATE i.1) = 2) ∧ ((s.dev.slices[i]).tearAt = some t0) ∧
      (t0 + 400000000 ≤ s.dev.now) ∧ ((s.dev.slices[i]).deadline = false)) (inSlice 63 (fun e => { e with tearAt := some 0 }) (at_
      400000000 (puts [(Reg.SLC_STATE_STATE 63, 2)] slice63))) 63 0) ∧
    ((fun (s : State) (i : Fin 64) => (Live s) ∧ (s.dev.f (Reg.SLC_STATE_STATE i.1) = 2) ∧ (s.dev.atRest i = true) ∧
      (s.dev.delivered i = true) ∧ ((s.dev.slices[i]).closingDone = true)) (inSlice 63 (fun e => { e with closingDone := true }) (puts
      [(Reg.SLC_STATE_STATE 63, 2)] slice63)) 63) := by
  refine ⟨?_, ?_, ?_, ?_, ?_, ?_⟩ <;> decide +kernel

theorem test_slices_move_and_change_hypotheses :
    ((fun (s : State) (src : Src) (w : Word) (i : Fin 64) => (Reaches s src Reg.SLICE_CMD_at) ∧ (s.dev.bit Reg.SLICE_CMD_STAT_BUSY = false) ∧
      (bits w.toNat 0 6 = i.1) ∧ (bits w.toNat 8 3 = 4) ∧ (i ≠ 0) ∧ (s.dev.f (Reg.SLC_STATE_STATE i.1) = 1) ∧
      (s.dev.bit Reg.DPL_STAT_OVF = false) ∧ (s.dev.linkUp (bits w.toNat 16 1) = true) ∧
      ((s.dev.vecBase (bits w.toNat 16 1) (s.dev.f (Reg.SLC_VEC_COUNT i.1))).isSome = true) ∧
      (s.dev.pasidOk i.1 (bits w.toNat 16 1) (s.dev.f (Reg.SLC_MIG_NEW_PASID i.1)) = true)) (puts [(Reg.SLC_MIG_NEW_PASID 63, 7)] slice63)
      core0 0x43F 63) ∧
    ((fun (s : State) (src : Src) (w : Word) (i : Fin 64) => (Reaches s src Reg.SLICE_CMD_at) ∧ (s.dev.bit Reg.SLICE_CMD_STAT_BUSY = false) ∧
      (bits w.toNat 0 6 = i.1) ∧ (bits w.toNat 8 3 = 5) ∧ (s.dev.f (Reg.SLC_STATE_STATE i.1) = 3) ∧
      (bits w.toNat 16 1 = s.dev.f (Reg.SLC_PASID_PORT i.1))) (puts [(Reg.SLC_STATE_STATE 63, 3)] slice63) core0 0x53F 63) ∧
    ((fun (s : State) (src : Src) (w : Word) (i : Fin 64) => (Reaches s src Reg.SLICE_CMD_at) ∧ (s.dev.bit Reg.SLICE_CMD_STAT_BUSY = false) ∧
      (bits w.toNat 0 6 = i.1) ∧ (bits w.toNat 8 3 = 6) ∧ (i ≠ 0) ∧ (s.dev.f (Reg.SLC_STATE_STATE i.1) = 1) ∧
      (s.dev.bit Reg.SLICE_MODE_STRICT = false) ∧ (s.dev.bit Reg.SLICE_MODE_LEGACY = true) ∧
      ((∃ v k : Fin 16, s.dev.toMove i v k = true))) (puts [(Reg.SLICE_MODE_LEGACY, 1)] slice63) core0 0x63F 63) ∧
    ((fun (s : State) (i : Fin 64) (t0 : Nat) => (Live s) ∧ (s.dev.sliceCmd = some (4, i.1, t0))) (cmd 4 slice63) 63 0) ∧
    ((fun (s : State) (i : Fin 64) => (Live s) ∧ (s.dev.f (Reg.SLC_STATE_STATE i.1) = 3) ∧
      ((s.dev.slices[i]).frozenAt + 400000 * s.dev.f (Reg.SLC_WDOG_FREEZE_MAX i.1) ≤ s.dev.now)) (at_ 40000000000 (puts
      [(Reg.SLC_STATE_STATE 63, 3)] slice63)) 63) ∧
    ((fun (s : State) (v : Fin 16) (k : Fin 16) (i : Fin 64) (t0 : Nat) => (Live s) ∧ (s.dev.sliceCmd = some (6, i.1, t0)) ∧
      (s.dev.named i.1 v k = true) ∧ (s.dev.givable v k = true)) (cmd 6 (puts [(Reg.SLC_CH_CH 63 0, 0x40000000)] slice63)) 1 14 63 0) ∧
    ((fun (s : State) (v : Fin 16) (k : Fin 16) (i : Fin 64) (t0 : Nat) => (Live s) ∧ (s.dev.sliceCmd = some (6, i.1, t0)) ∧
      (s.dev.named i.1 v k = false) ∧ ((s.dev.chan v k).owner = some i) ∧ ((s.dev.chan v k).st = .idle) ∧ ((s.dev.chan v k).queue = []) ∧
      ((s.dev.chan v k).run = none)) (cmd 6 slice63) 1 15 63 0) ∧
    ((fun (s : State) (i : Fin 64) (t0 : Nat) => (Live s) ∧ (s.dev.sliceCmd = some (6, i.1, t0)) ∧
      (t0 + 4000000000 ≤ s.dev.now)) (at_ 4000000000 (cmd 6 slice63)) 63 0) ∧
    ((fun (s : State) (src : Src) (w : Word) => (Reaches s src Reg.SLICE_MODE_at) ∧ ((w.toNat.testBit 0 && w.toNat.testBit 1) = false) ∧
      ((∀ i : Fin 64, i ≠ 0 → s.dev.f (Reg.SLC_STATE_STATE i.1) = 0)) ∧
      ((∀ v k : Fin 16, (s.dev.chan v k).owner = some 0 → (s.dev.chan v k).st = .idle))) base core0 1) := by
  refine ⟨?_, ?_, ?_, ?_, ?_, ?_, ?_, ?_, ?_⟩ <;> decide +kernel

theorem test_attach_and_controller_watchdog_hypotheses :
    ((fun (s : State) (i : Fin 64) => (Live s) ∧ (s.dev.f (Reg.SLC_STATE_STATE i.1) = 1) ∧ (s.dev.f (Reg.SLC_WDOG_TIMEOUT i.1) ≠ 0) ∧
      (s.dev.bit (Reg.SLC_STATE_ORPHAN i.1) = false) ∧
      ((s.dev.slices[i]).wdogAt + 400000 * s.dev.f (Reg.SLC_WDOG_TIMEOUT i.1) ≤ s.dev.now)) (at_ 400000 (puts [(Reg.SLC_WDOG_TIMEOUT 63,
      1)] slice63)) 63) ∧
    ((fun (s : State) (src : Src) (w : Word) (i : Fin 64) => (Reaches s src Reg.SLICE_CMD_at) ∧ (s.dev.bit Reg.SLICE_CMD_STAT_BUSY = false) ∧
      (bits w.toNat 8 3 = 3) ∧ (bits w.toNat 0 6 = i.1)) (puts [(Reg.SLC_STATE_ORPHAN 63, 1)] slice63) core0 0x33F 63) := by
  refine ⟨?_, ?_⟩ <;> decide +kernel

theorem test_switch_moves_frames_hypotheses :
    ((fun (s : State) (p : Fin 6) (o : Fin 8) (bs : List Byte) (good : Bool) (stamp : Nat) => (Live s) ∧ (
  let q := p8 p.1;
  let at_ := s.dev.rxStamp q stamp;
  let f := s.dev.frameFor q o bs at_;
  let bad := !good || s.dev.badLength bs;
  (s.dev.removed q = false) ∧ (s.dev.serdesOff q = false) ∧ (beAt bs 0 6 ≠ 0x0180C2000001) ∧ (beAt bs 0 6 ≠ 0x0180C200000E) ∧
      (etherType bs ≠ s.dev.f Reg.JASIA_ETYPE_ETYPE) ∧ (s.dev.filtered q bs = false) ∧
      ((s.dev.vlan (s.dev.classify q bs).1).learn = false) ∧ (s.dev.ptpKept q bs = false) ∧
      (s.dev.lookup q bs (s.dev.classify q bs).1 = (2 ^ o.1, false)) ∧ (s.dev.removed o = false) ∧
      ((bad = true → s.dev.cutOk q o f = true)) ∧ (s.dev.room o f = true) ∧ ((s.dev.port q).stage = []))) switching 0 1 frame60 false 0) ∧
    ((fun (s : State) (p : Fin 6) (bs : List Byte) (good : Bool) (stamp : Nat) => (Live s) ∧ (
  let q := p8 p.1;
  let at_ := s.dev.rxStamp q stamp;
  (s.dev.removed q = false) ∧ (s.dev.serdesOff q = false) ∧ ((good = true → s.dev.badLength bs = true)) ∧ (s.dev.filtered q bs = false) ∧
      (s.dev.ptpKept q bs = false) ∧ ((∀ o : Fin 8, s.dev.cutOk q o (s.dev.frameFor q o bs at_) = false)))) (puts [(Reg.SW_P_CFG_CT_EN 0,
      0)] switching) 0 frame60 false 0) ∧
    ((fun (s : State) (i : Fin 8) (x : SwXfer) => (Live s) ∧ (s.dev.now % 20 = 0) ∧ ((∀ j : Fin 8, (s.dev.port j).stage = [] ∧
      (s.dev.port j).hold = [])) ∧ ((s.dev.port i).xfer = [x]) ∧
      ((∀ j : Fin 8, j ≠ i → (s.dev.port j).xfer = []))) (inPort 1 (fun p => { p with xfer := [⟨1, 2, 1, false⟩] }) (inPort 2 (fun p =>
      { p with queues := Vector.replicate 8 [{ frameA with arrived := 0 }] }) base)) 1 (⟨1, 2, 1, false⟩)) ∧
    ((fun (s : State) (p : Fin 8) (q : Fin 8) (f : SwFrame) (_egress : Nat) => (Live s) ∧ (p.1 < 6) ∧ (s.dev.removed p = false) ∧
      (s.dev.serdesOff p = false) ∧ ((∀ j : Fin 8, (s.dev.port j).stage = [] ∧ (s.dev.port j).hold = [])) ∧
      ((s.dev.port p).busyTill ≤ s.dev.now) ∧ ((p.1 < 2 → (s.dev.port p).preempt = true → expressFrame (s.dev.port p) = none)) ∧
      (headReady (s.dev.port p) q = some f) ∧ (f.bad = false) ∧ (s.dev.queuePaused p q = false) ∧
      (s.dev.f (Reg.SW_P_SCHED_SP_FROM p.1) ≤ q.1) ∧
      ((∀ j : Fin 8, q.1 < j.1 → headReady (s.dev.port p) j = none))) (inPort 1 (fun p =>
      { p with queues := Vector.replicate 8 [frameA] }) (puts [(Reg.SW_P_SCHED_SP_FROM 1, 7)] base)) 1 7 frameA 0) ∧
    ((fun (s : State) => (Live s) ∧ (s.dev.bit Reg.SW_C_CFG_EN = true) ∧ (s.dev.f Reg.SW_C_TX_PI_IDX ≠ s.dev.f Reg.SW_C_TX_CI_IDX) ∧
      (s.dev.removed 6 = false) ∧ (s.dev.sup.warm = none) ∧ (
  let e := s.dev.cEntry Reg.SW_C_TX_LO_ADDR Reg.SW_C_TX_HI_ADDR (s.dev.f Reg.SW_C_TX_CI_IDX);
  (s.dev.reach 9 0 .read e 16 = .opened) ∧ (s.dev.reach 9 0 .read (s.memWord e 8 % 2 ^ 40) (s.memWord (e + 8) 2) = .opened) ∧
      (s.dev.allRoom 6 (s.memBytes (s.memWord e 8 % 2 ^ 40) (s.memWord (e + 8) 2)) = true))) (inMem 0x10000000 (leBytes 8 0x10001000)
      (grants 1 (puts [(Reg.SW_C_CFG_EN, 1), (Reg.SW_C_TX_PI_IDX, 1), (Reg.SW_C_TX_LO_ADDR, 0x10000000)] base)))) ∧
    ((fun (s : State) (x : Fin 64) (r : Fin 8) => (Live s) ∧ (s.dev.removed 7 = false) ∧ (s.dev.sup.warm = none) ∧
      (s.dev.expPick = some (x, r)) ∧ (
  let i := s.dev.expNext x.1 r;
  let n := min (min 255 ((s.dev.f Reg.SW_MAXFRM_BYTES - 38) / s.dev.entrySize x.1 r.1)) (sdiff32 (s.dev.ringPi x.1 r) i).toNat;
  (s.dev.expReach x r i n = .opened) ∧ (s.dev.allRoom 7 (s.dev.expBytes s.memBytes x.1 r i n) = true))) exporting 63 7) ∧
    ((fun (s : State) (_x : Fin 64) (_r : Fin 8) (_w : Word) => (Live s)) (inSlice 63 (fun e => { e with pi := Vector.replicate 8 1 })
      slice63) 63 7 1) ∧
    ((fun (s : State) (x : Fin 64) (r : Fin 8) => (Live s) ∧ (s.dev.removed 7 = false) ∧ (s.dev.sup.warm = none) ∧
      ((∃ e ∈ s.dev.sw.exp, e.slice = x ∧ e.ring = r ∧ ∃ y ∈ e.sent, y.2 + 400000 * s.dev.f Reg.SW_EXP_CFG_RTO ≤ s.dev.now)) ∧ (
  let i := s.dev.ringCi x.1 r;
  let n := min (min 255 ((s.dev.f Reg.SW_MAXFRM_BYTES - 38) / s.dev.entrySize x.1 r.1)) (sdiff32 (s.dev.ringPi x.1 r) i).toNat;
  (s.dev.expReach x r i n = .opened) ∧ (s.dev.allRoom 7 (s.dev.expBytes s.memBytes x.1 r i n) = true))) (dv (fun d => d.modSw (fun s =>
      { s with exp := [⟨63, 7, 1, [(1, 0)]⟩] })) (at_ 400000000 exporting)) 63 7) := by
  refine ⟨?_, ?_, ?_, ?_, ?_, ?_, ?_, ?_⟩ <;> decide +kernel

theorem test_switch_ports_and_pauses_hypotheses :
    ((fun (s : State) (p : Fin 8) (q : Fin 8) => (Live s) ∧ (s.dev.tb (Reg.SW_P_STAT_XOFF p.1) q.1 = true) ∧
      (s.dev.f (Reg.SW_P_CFG_FC p.1) ≠ 0) ∧
      ((s.dev.port p).xoffAt[q] + s.dev.quantaTime p 0xFFFF / 2 ≤ s.dev.now)) (at_ 1000000000 (puts [(Reg.SW_P_STAT_XOFF 7, 1)] base)) 7 0) ∧
    ((fun (s : State) (_p : Fin 6) (_m : Nat) (_n : Nat) (_rest : List Nat) => (Live s)) base 5 0 0xFFFF ([])) ∧
    ((fun (s : State) (_p : Fin 6) => (Live s)) base 5) ∧
    ((fun (s : State) (_p : Fin 8) => (Live s)) base 7) ∧
    ((fun (s : State) (leaks : List Nat) => (Live s) ∧ (s.dev.sw.auditAt + 400000 * s.dev.f Reg.SW_AUDIT_PERIOD ≤ s.dev.now) ∧
      (leaks.Nodup)) (at_ 400000000000 (dv (fun d => d.modSw (fun s => { s with unlisted := [1] })) base)) ([1, 8191])) ∧
    ((fun (s : State) (p : Fin 8) (up : Bool) (_mbps : Nat) => (Live s) ∧ (s.dev.bit (Reg.SW_P_STAT_LINK p.1) ≠ up)) base 7 true 1000) ∧
    ((fun (s : State) (p : Fin 8) => (Live s) ∧ (s.dev.removed p = false) ∧ ((p.1 < 6 ∨ (p = 6 ∧
      ∀ n < 4, s.dev.bit (Reg.CORE_STAT_FENCED n) = true) ∨ p = 7))) base 7) ∧
    ((fun (s : State) (src : Src) (_w : Word) => (Reaches s src Reg.SW_PORT_REEN_at)) base core0 0xFF) ∧
    ((fun (s : State) (_p : Fin 2) (_ok : Bool) => (Live s)) base 1 false) := by
  refine ⟨?_, ?_, ?_, ?_, ?_, ?_, ?_, ?_, ?_⟩ <;> decide +kernel

theorem test_switch_tables_read_and_write_hypotheses :
    ((fun (s : State) (src : Src) (w : Word) => (Reaches s src Reg.SW_MAC_CMD_at) ∧ (bits w.toNat 0 3 = 1)) base core0 0x1FFF0001) ∧
    ((fun (s : State) (src : Src) (w : Word) => (Reaches s src Reg.SW_MAC_CMD_at) ∧
      (bits w.toNat 0 3 = 2)) (puts [(Reg.SW_MAC_D2_VALID, 1)] base) core0 0x1FFF0002) ∧
    ((fun (s : State) (src : Src) (w : Word) => (Reaches s src Reg.SW_MAC_CMD_at) ∧ (bits w.toNat 0 3 = 3)) base core0 3) ∧
    ((fun (s : State) (src : Src) (w : Word) => (Reaches s src Reg.SW_MAC_CMD_at) ∧ (bits w.toNat 0 3 = 4)) base core0 0x704) ∧
    ((fun (s : State) (src : Src) (w : Word) => (Reaches s src Reg.SW_MAC_CMD_at) ∧ (bits w.toNat 0 3 = 5)) base core0 5) ∧
    ((fun (s : State) (i : Nat) (e : MacEntry) => (Live s) ∧ (s.dev.macAt i = some e) ∧ (e.static = false) ∧ (s.dev.f Reg.SW_CTL_AGE ≠ 0) ∧
      (e.since + 400000000 * s.dev.f Reg.SW_CTL_AGE ≤ s.dev.now)) (dv (fun d => d.modSw (fun s =>
      { s with mac := [⟨8191, 2, 1, 2, false, 0, false⟩] })) (at_ 200000000000 base)) 8191 (⟨8191, 2, 1, 2, false, 0, false⟩)) ∧
    ((fun (s : State) (src : Src) (w : Word) => (Reaches s src Reg.SW_VLAN_CMD_at) ∧ (w.toNat.testBit 17 = true) ∧ (
  let vid := bits w.toNat 0 12;
  (vid ≠ 0) ∧ (vid ≠ 4095) ∧ (w.toNat.testBit 16 = false))) base core0 0x20FFE) ∧
    ((fun (s : State) (src : Src) (w : Word) => (Reaches s src Reg.SW_VLAN_CMD_at) ∧ (w.toNat.testBit 17 = true) ∧ (
  let vid := bits w.toNat 0 12;
  (vid ≠ 0) ∧ (vid ≠ 4095) ∧ (w.toNat.testBit 16 = true))) base core0 0x30FFE) := by
  refine ⟨?_, ?_, ?_, ?_, ?_, ?_, ?_, ?_⟩ <;> decide +kernel

theorem test_barriers_spread_hypotheses :
    ((fun (s : State) (src : Src) (_w : Word) => (Reaches s src Reg.JASIA_REQ_INST_HI_at)) (puts [(Reg.JASIA_REQ_INST_LO_VALUE, 400000),
      (Reg.JASIA_REQ_NUM_VALUE, 1), (Reg.JASIA_STAT_ROLE_NOW, 1)] joined) core0 0) ∧
    ((fun (s : State) (fs : List (Fin 8 × List Byte)) (left : Nat) (next : Nat) => (Live s) ∧ (s.dev.jasia.rep = some (fs, left, next)) ∧
      (next ≤ s.dev.now)) (jasia (fun j => { j with rep := some ([(1, jf 0 0 0 1 0 0)], 1, 0) }) joined) ([(1, jf 0 0 0 1 0 0)]) 1 0) ∧
    ((fun (s : State) (p : Fin 6) (bs : List Byte) => (Live s) ∧ (s.dev.jActs p bs true 1 = true) ∧ (jEpoch bs = s.dev.f Reg.JASIA_STAT_EPOCH) ∧
      (s.dev.wins (jEpoch bs) (jMaster bs) = false) ∧ ((∀ b ∈ s.dev.jasia.barriers, b.num ≠ jNumber bs))) joined 1 (jf 1 511 0 1 7 400000)) ∧
    ((fun (s : State) (p : Fin 6) (bs : List Byte) (b : _) => (Live s) ∧ (s.dev.jActs p bs true 1 = true) ∧
      (jEpoch bs = s.dev.f Reg.JASIA_STAT_EPOCH) ∧ (s.dev.wins (jEpoch bs) (jMaster bs) = false) ∧
      (s.dev.jasia.barriers.find? (fun b => b.num == jNumber bs) = some b)) (jasia (fun j => { j with barriers := [⟨7, 400, 0, 0⟩] })
      joined) 1 (jf 1 511 0 1 7 400000) (⟨7, 400, 0, 0⟩)) ∧
    ((fun (s : State) (p : Fin 2) (bs : List Byte) => (Live s) ∧ (
  let i := p8 p.1;
  (s.dev.isJasia ⟨p.1, by omega⟩ bs = true) ∧ (s.dev.removed i = false) ∧ (s.dev.branches = []) ∧
      (s.dev.f Reg.JASIA_HOPMAX_MAX ≤ jHop bs))) joined 1 (jf 1 511 0 1 7 400000)) ∧
    ((fun (s : State) (p : Fin 2) (bs : List Byte) => (Live s) ∧ (
  let i := p8 p.1;
  let o := p8 (1 - p.1);
  let out := splice bs 18 (leBytes 2 (jHop bs + 1));
  (s.dev.isJasia ⟨p.1, by omega⟩ bs = true) ∧ (s.dev.removed i = false) ∧ (s.dev.branches = []) ∧ (jHop bs < s.dev.f Reg.JASIA_HOPMAX_MAX) ∧
      (s.dev.jEnds bs = false) ∧ (s.dev.badLength bs = false) ∧ (s.dev.removed o = false) ∧ ((s.dev.port i).stage = []) ∧
      (s.dev.room o { inp := i, vid := 0, pcp := 7, q := s.dev.queueOf 7, cells := cellsOf (out.length + 4), cut := s.dev.barrierClass bs && !s.dev.jasia.lateFwd, bad := false, barrier := s.dev.barrierClass bs, bytes := out } = true))) joined 1 (jf 1 510 0 1 7 400000)) := by
  refine ⟨?_, ?_, ?_, ?_, ?_, ?_⟩ <;> decide +kernel

theorem test_beacons_elect_the_master_hypotheses :
    ((fun (s : State) => (Live s) ∧ (s.dev.bit Reg.JASIA_CFG_EN = true) ∧ (s.dev.f Reg.JASIA_STAT_ROLE_NOW = 1) ∧
      (s.dev.jasia.sentAt + 400000 * s.dev.f Reg.JASIA_TIME_BEACON ≤ s.dev.now)) (at_ 4000000 (puts [(Reg.JASIA_STAT_ROLE_NOW, 1)] joined))) ∧
    ((fun (s : State) (p : Fin 2) (bs : List Byte) => (Live s) ∧ (s.dev.jActs ⟨p.1, by omega⟩ bs true 2 = true)) joined 1 (jf 2 0xFFFF 0 1 7 0)) ∧
    ((fun (s : State) (p : Fin 2) (t0 : Nat) => (Live s) ∧ (s.dev.jasia.expect[p] = some t0) ∧
      (t0 + 400000 * s.dev.f Reg.JASIA_TIME_BEACON ≤ s.dev.now)) (at_ 40000000 (jasia (fun j => { j with expect := #v[none, some 0] })
      joined)) 1 0) ∧
    ((fun (s : State) => (Live s) ∧ (s.dev.bit Reg.JASIA_CFG_EN = true) ∧
      (s.dev.jasia.lastBeacon + s.dev.f Reg.JASIA_TIME_MASTER_TO * (400000 * s.dev.f Reg.JASIA_TIME_BEACON) ≤ s.dev.now)) (at_ 12000000
      (puts [(Reg.JASIA_CFG_ROLE, 2)] joined))) ∧
    ((fun (s : State) (p : Fin 2) (t0 : Nat) => (Live s) ∧ (
  let q := p8 p.1;
  (s.dev.bit Reg.JASIA_CFG_AUTO_REEN = true) ∧ (s.dev.removed q = true) ∧ (s.dev.bit (Reg.SW_P_STAT_LINK q.1) = true) ∧
      (s.dev.jasia.seen[p] = some t0) ∧ ((s.dev.port q).linkAt ≤ t0) ∧
      ((s.dev.port q).linkAt + 400000 * s.dev.f Reg.JASIA_TIME_RELINK ≤ s.dev.now))) (at_ 40000000 (jasia (fun j =>
      { j with seen := Vector.replicate 2 (some 0) }) (puts [(Reg.JASIA_CFG_AUTO_REEN, 1), (Reg.SW_P_STAT_REMOVED 1, 1),
      (Reg.SW_P_STAT_LINK 1, 1)] joined))) 1 0) := by
  refine ⟨?_, ?_, ?_, ?_, ?_⟩ <;> decide +kernel

theorem test_time_frames_and_holdover_hypotheses :
    ((fun (s : State) (p : Fin 6) (bs : List Byte) (_good : Bool) (_stamp : Nat) => (Live s) ∧ (Clean s) ∧ (s.dev.bit Reg.PTP_CTL_EN = true) ∧
      (s.dev.f (Reg.PTP_P_CFG_MECH p.1) = 1) ∧
      ((s.dev.ptpMessage p.1 bs = some 1 ∨ s.dev.ptpMessage p.1 bs = some 9))) (puts [(Reg.PTP_P_CFG_MECH 5, 1)] timing) 5 (ptpFrame 1)
      true 0) ∧
    ((fun (s : State) (p : Fin 6) (bs : List Byte) (good : Bool) (stamp : Nat) (o : Nat) (udp : Bool) => (Live s) ∧ (Clean s) ∧
      (s.dev.ptpTakes p.1 bs = some (o, udp)) ∧ (s.dev.ptpDropped p bs = false) ∧ (s.dev.ptpRoom = true) ∧ (
  let e := s.dev.ptpEntry Reg.PTP_RX_LO_ADDR Reg.PTP_RX_HI_ADDR (s.dev.f Reg.PTP_RX_PI_IDX);
  (s.dev.ptpReach s.memWord ⟨p.1, s.dev.rxStamp (p8 p.1) stamp, bs, udp, !good || s.dev.badLength bs⟩ = .opened) ∧
      ((s.memWord e 8 % 2 ^ 40 + bs.length ≤ e + 8 ∨ e + 32 ≤ s.memWord e 8 % 2 ^ 40)))) (puts [(Reg.PTP_P_CFG_MECH 5, 0)] timing) 5
      (ptpFrame 0) false 0 14 false) ∧
    ((fun (s : State) (_egress : Nat) => (Live s) ∧ (s.dev.bit Reg.PTP_RING_CFG_EN = true) ∧
      (s.dev.f Reg.PTP_TX_CI_IDX ≠ s.dev.f Reg.PTP_TX_PI_IDX) ∧ (
  let e := s.dev.ptpEntry Reg.PTP_TX_LO_ADDR Reg.PTP_TX_HI_ADDR (s.dev.f Reg.PTP_TX_CI_IDX);
  let buf := s.memWord e 8 % 2 ^ 40;
  let p := p8 (s.memWord (e + 10) 1);
  (s.dev.localOpen 11 0 .read e 32 = true) ∧ (s.dev.localOpen 11 0 .write e 32 = true) ∧
      (s.dev.localOpen 11 0 .read buf (s.memWord (e + 8) 2) = true) ∧ (s.memWord (e + 10) 1 < 6) ∧ (s.dev.removed p = false) ∧
      (s.dev.serdesOff p = false) ∧ ((s.dev.port p).busyTill ≤ s.dev.now) ∧
      ((s.memWord (e + 11) 1).testBit 0 = false))) (puts [(Reg.PTP_TX_PI_IDX, 1)] timing) 0) ∧
    ((fun (s : State) (src : Src) (w : Word) => (Reaches s src Reg.PTP_SERVO_at) ∧ (w.toNat.testBit 1 = true)) base core0 2) ∧
    ((fun (s : State) => (Live s) ∧ (s.dev.bit Reg.PTP_SERVO_LOCKED = true) ∧ (s.dev.bit Reg.PTP_STAT_HOLDOVER = false) ∧
      (s.dev.ptp.kickAt + 400000 * s.dev.f Reg.PTP_HOLD_TO ≤ s.dev.now)) (at_ 400000000 (puts [(Reg.PTP_SERVO_LOCKED, 1)] base))) ∧
    ((fun (s : State) => (Live s) ∧ (s.dev.bit Reg.PTP_STAT_HOLDOVER = true) ∧ (s.dev.ptp.expired = false) ∧
      (s.dev.ptp.holdAt + 400000000 * s.dev.f Reg.PTP_HOLD_MAX ≤ s.dev.now)) (at_ 40000000000000 (puts [(Reg.PTP_STAT_HOLDOVER, 1)] base))) := by
  refine ⟨?_, ?_, ?_, ?_, ?_, ?_⟩ <;> decide +kernel

theorem test_comparators_and_captures_hypotheses :
    ((fun (s : State) (src : Src) (i : Fin 16) (w : Word) => (Reaches s src (Reg.TB_CMP_HI_at i.1)) ∧ (
  let at_ := (s.dev.heldFor src (Reg.TB_CMP_LO_at i.1)).getD (s.dev.f (Reg.TB_CMP_LO_VALUE i.1)) + 2 ^ 32 * w.toNat;
  (s.dev.now + 8 ≤ at_))) base core0 15 1) ∧
    ((fun (s : State) (src : Src) (i : Fin 16) (w : Word) => (Reaches s src (Reg.TB_CMP_HI_at i.1)) ∧ (
  let at_ := (s.dev.heldFor src (Reg.TB_CMP_LO_at i.1)).getD (s.dev.f (Reg.TB_CMP_LO_VALUE i.1)) + 2 ^ 32 * w.toNat;
  (at_ < s.dev.now + 8))) (at_ 0x100000000 base) core0 15 1) ∧
    ((fun (s : State) (i : Fin 16) => (Live s) ∧ (s.dev.bit (Reg.TB_CMP_CTL_ARMED i.1) = true) ∧ (s.dev.ptp.cmpAt[i] = s.dev.now) ∧ (
  let p := p8 (s.dev.f (Reg.TB_CMP_CTL_PIN i.1));
  let a := s.dev.f (Reg.TB_CMP_CTL_ACTION i.1);
  (1 ≤ a) ∧ (a ≤ 4) ∧ ((∀ y ∈ s.dev.ptp.acted[p], y.1 ≠ s.dev.now ∨ y.2.1 ≤ i.1)))) (puts [(Reg.TB_CMP_CTL_ARMED 15, 1),
      (Reg.TB_CMP_CTL_ACTION 15, 4), (Reg.TB_CMP_CTL_PIN 15, 7)] base) 15) ∧
    ((fun (s : State) (p : Fin 8) (e : Nat) => (Live s) ∧ (s.dev.ptp.pulse[p] = some e) ∧
      (e ≤ s.dev.now)) (tbPtp (fun p => { p with tout := 0x80, pulse := Vector.replicate 8 (some 0) }) base) 7 0) ∧
    ((fun (s : State) (n : Fin 8) (rising : Bool) => (Live s) ∧ ((s.dev.f (Reg.TB_CAP_CTL_EDGE n.1)).testBit (if rising then 0 else 1) = true) ∧
      ((s.dev.ptp.cap[n]).length < 4)) (puts [(Reg.TB_CAP_CTL_EDGE 7, 1)] base) 7 true) ∧
    ((fun (s : State) (n : Fin 8) (rising : Bool) => (Live s) ∧ ((s.dev.f (Reg.TB_CAP_CTL_EDGE n.1)).testBit (if rising then 0 else 1) = true) ∧
      (4 ≤ (s.dev.ptp.cap[n]).length)) (tbPtp (fun p => { p with cap := Vector.replicate 8 [1, 2, 3, 4] }) (puts [(Reg.TB_CAP_CTL_EDGE 7,
      1)] base)) 7 true) ∧
    ((fun (s : State) (src : Src) (n : Fin 8) (x : Nat) (xs : List Nat) => (Live s) ∧
      ((s.dev.guard src (Reg.TB_CAP_HI_at n.1) false).isNone = true) ∧ (s.dev.ptp.cap[n] = x :: xs) ∧ (xs.length < 4) ∧
      (pairFind s.dev.capHigh src.master.1 (Reg.TB_CAP_LO_at n.1) = none)) (tbPtp (fun p =>
      { p with cap := Vector.replicate 8 [0x100000000, 2, 3, 4] }) base) core0 7 0x100000000 ([2, 3, 4])) := by
  refine ⟨?_, ?_, ?_, ?_, ?_, ?_, ?_⟩ <;> decide +kernel

theorem test_can_states_follow_the_counters_hypotheses :
    ((fun (s : State) (src : Src) (n : Fin 8) (w : Word) => (Reaches s src (Reg.CAN_CTL_at n.1)) ∧ (w.toNat.testBit 0 = true) ∧
      (s.dev.bit (Reg.CAN_CTL_INIT n.1) = false)) canBus core0 7 1) ∧
    ((fun (s : State) (src : Src) (n : Fin 8) (w : Word) => (Reaches s src (Reg.CAN_CTL_at n.1)) ∧ (w.toNat.testBit 0 = false) ∧
      (s.dev.bit (Reg.CAN_CTL_INIT n.1) = true) ∧ (s.dev.bit (Reg.CAN_CTL_FD_EN n.1) = w.toNat.testBit 1) ∧
      (s.dev.canTiming n = true)) (puts [(Reg.CAN_NBT_LEN 7, 80), (Reg.CAN_NBT_SP 7, 60), (Reg.CAN_NBT_SJW 7, 4), (Reg.CAN_PRESC_N_PRE 7,
      1)] base) core0 7 0) ∧
    ((fun (s : State) (src : Src) (n : Fin 8) (w : Word) => (Reaches s src (Reg.CAN_CTL_at n.1)) ∧ (w.toNat.testBit 0 = false) ∧
      (s.dev.bit (Reg.CAN_CTL_INIT n.1) = true) ∧ (s.dev.bit (Reg.CAN_CTL_FD_EN n.1) = w.toNat.testBit 1) ∧
      (s.dev.canTiming n = false)) (puts [(Reg.CAN_PRESC_N_PRE 7, 0)] base) core0 7 0) ∧
    ((fun (s : State) (n : Fin 8) => (Live s) ∧ (s.dev.f (Reg.PWR_QTAG_STATE (24 + n.1)) = 0) ∧ (s.dev.bit (Reg.CAN_CTL_INIT n.1) = false) ∧
      (s.dev.f (Reg.CAN_STAT_STATE n.1) < 2)) (puts [(Reg.CAN_STAT_SYNC 7, 0)] canBus) 7) ∧
    ((fun (s : State) (n : Fin 8) => (Live s) ∧ (s.dev.f (Reg.PWR_QTAG_STATE (24 + n.1)) = 0) ∧ (s.dev.f (Reg.CAN_STAT_STATE n.1) = 2) ∧
      (s.dev.bit (Reg.CAN_STAT_RECOV n.1) = true)) (puts [(Reg.CAN_STAT_STATE 7, 2), (Reg.CAN_STAT_RECOV 7, 1), (Reg.CAN_SUP_STAT_REMAIN
      7, 128)] canBus) 7) ∧
    ((fun (s : State) (n : Fin 8) (e : CanErr) (_ph : Bool) (c : CanCount) => (Live s) ∧ (s.dev.canActive n = true) ∧ (e ≠ .resBit) ∧
      ((e = .ack → s.dev.bit (Reg.CAN_CTL_LOOP n.1) = false)) ∧
      (c ≠ .dominant)) (puts [(Reg.CAN_ECNT_TEC 7, 248)] onBus31) 7 .stuff true .detected) ∧
    ((fun (s : State) (n : Fin 8) => (Live s) ∧ (s.dev.f (Reg.CAN_STAT_STATE n.1) = 2) ∧ (s.dev.bit (Reg.CAN_STAT_RECOV n.1) = true) ∧
      (s.dev.f (Reg.CAN_SUP_STAT_REMAIN n.1) = 0)) (puts [(Reg.CAN_STAT_STATE 7, 2), (Reg.CAN_STAT_RECOV 7, 1), (Reg.CAN_ECNT_TEC 7, 256)]
      canBus) 7) ∧
    ((fun (s : State) (src : Src) (n : Fin 8) (w : Word) => (Reaches s src (Reg.CAN_SUP_CMD_at n.1)) ∧
      (w.toNat.testBit 0 = true)) (puts [(Reg.CAN_STAT_STATE 7, 2), (Reg.CAN_ECNT_TEC 7, 256), (Reg.CAN_SUP_STAT_LATCHED 7, 1)] canBus)
      core0 7 1) := by
  refine ⟨?_, ?_, ?_, ?_, ?_, ?_, ?_, ?_⟩ <;> decide +kernel

theorem test_can_frames_and_buffers_hypotheses :
    ((fun (s : State) (n : Fin 8) (fr : CanFrame) (sof : Nat) (_es : List CanEdge) => (Live s) ∧ (Clean s) ∧ (s.dev.canActive n = true) ∧
      (s.dev.bit (Reg.CAN_CTL_LOOP n.1) = false) ∧ ((fr.fd = true → s.dev.bit (Reg.CAN_CTL_FD_EN n.1) = true)) ∧
      (s.dev.f (Reg.CAN_ECNT_REC n.1) = 0) ∧
      (s.dev.canRoute n fr sof = none)) (puts [(Reg.CAN_RXDEF_REMOTE 7, 1)] canBus) 7 ({ canFr with remote := true }) 0 ([])) ∧
    ((fun (s : State) (n : Fin 8) (fr : CanFrame) (sof : Nat) (_es : List CanEdge) (i : Fin 2) (f : Nat) (nm : Bool) => (Live s) ∧ (Clean s) ∧
      (s.dev.canActive n = true) ∧ (s.dev.bit (Reg.CAN_CTL_LOOP n.1) = false) ∧
      ((fr.fd = true → s.dev.bit (Reg.CAN_CTL_FD_EN n.1) = true)) ∧ (s.dev.f (Reg.CAN_ECNT_REC n.1) = 0) ∧
      (s.dev.canRoute n fr sof = some (i, f, nm)) ∧ (s.dev.canFill n i < 32) ∧ (
  let x := 32 * i.1 + s.dev.f (Reg.CAN_FIFO_PI_IDX n.1 i.1) % 32;
  (s.dev.canWaiting n i = 0) ∧ (s.dev.canReach n .write x = .opened))) (puts [(Reg.CAN_RXDEF_BASE_DEST 7, 2)] canBus) 7 canFr 0 ([]) 1 255
      true) ∧
    ((fun (s : State) (n : Fin 8) (fr : CanFrame) (_sof : Nat) (q : Nat) => (Live s) ∧ (s.dev.canActive n = true) ∧
      (s.dev.bit (Reg.CAN_CTL_LOOP n.1) = false) ∧ ((fr.fd = true → s.dev.bit (Reg.CAN_CTL_FD_EN n.1) = true)) ∧ (1 ≤ q) ∧
      (q < s.dev.f (Reg.CAN_NBT_SP n.1)) ∧ (s.dev.f (Reg.CAN_NBT_SP n.1) < s.dev.f (Reg.CAN_NBT_LEN n.1)) ∧
      (1 ≤ s.dev.f (Reg.CAN_PRESC_N_PRE n.1))) (puts [(Reg.CAN_NBT_LEN 7, 80), (Reg.CAN_NBT_SP 7, 60), (Reg.CAN_NBT_SJW 7, 4),
      (Reg.CAN_PRESC_N_PRE 7, 2)] canBus) 7 canFr 0 59) ∧
    ((fun (s : State) (src : Src) (n : Fin 8) (w : Word) => (Reaches s src (Reg.CAN_TXGO_at n.1)) ∧ (s.dev.abortNow n = 0) ∧
      ((∀ b : Fin 32, (w.toNat.testBit b.1 = true ∨ s.dev.canPending n b = true) → s.dev.canReach n .read (64 + b.1) = .opened ∧
      (s.dev.canBuffer s.memWord s.memBytes n b.1).isSome = true))) canBus core0 7 0x80000000) ∧
    ((fun (s : State) (src : Src) (n : Fin 8) (_w : Word) => (Reaches s src (Reg.CAN_TXABORT_at n.1)) ∧ ((s.dev.can[n]).onBus = none) ∧
      ((s.dev.can[n]).tsWait = none)) (puts [(Reg.CAN_TXBUSY_BUF 7, 0x80000000)] canBus) core0 7 0x80000000) ∧
    ((fun (s : State) (n : Fin 8) (b : Fin 32) (fr : CanFrame) (_sof : Nat) (_dly : Nat) (_es : List CanEdge) => (Live s) ∧ (Clean s) ∧
      (s.dev.canActive n = true) ∧ (s.dev.bit (Reg.CAN_CTL_LISTEN n.1) = false) ∧ (s.dev.bit (Reg.CAN_CTL_LOOP n.1) = false) ∧
      (s.dev.canBuffer s.memWord s.memBytes n b.1 = some fr) ∧ ((s.dev.can[n]).onBus = none) ∧
      ((∀ c : Fin 32, s.dev.canPending n c = decide (c = b))) ∧ ((s.dev.can[n]).tsWait = none) ∧
      (s.dev.canReach n .read (64 + b.1) = .opened)) (puts [(Reg.CAN_TXBUSY_BUF 7, 0x80000000)] canBus) 7 31 canFr 0 0 ([])) ∧
    ((fun (s : State) (n : Fin 8) (b : Fin 32) (fr : CanFrame) (_sof : Nat) (_dly : Nat) (_es : List CanEdge) => (Live s) ∧ (Clean s) ∧
      (s.dev.canActive n = true) ∧ (s.dev.bit (Reg.CAN_CTL_LISTEN n.1) = false) ∧ (s.dev.bit (Reg.CAN_CTL_LOOP n.1) = false) ∧
      (s.dev.canBuffer s.memWord s.memBytes n b.1 = some fr) ∧ ((s.dev.can[n]).onBus = some b) ∧
      (s.dev.tb (Reg.CAN_TXABORT_BUF n.1) b.1 = false) ∧ (s.dev.bit (Reg.CAN_CTL_ONESHOT n.1) = false)) onBus31 7 31 canFr 0 0 ([])) ∧
    ((fun (s : State) (n : Fin 8) (b : Fin 32) (fr : CanFrame) (_sof : Nat) (_dly : Nat) (_es : List CanEdge) => (Live s) ∧ (Clean s) ∧
      (s.dev.canActive n = true) ∧ (s.dev.bit (Reg.CAN_CTL_LISTEN n.1) = false) ∧ (s.dev.bit (Reg.CAN_CTL_LOOP n.1) = false) ∧
      (s.dev.canBuffer s.memWord s.memBytes n b.1 = some fr) ∧ ((s.dev.can[n]).onBus = some b) ∧ (fr.fd = false) ∧
      (s.dev.f (Reg.CAN_ECNT_TEC n.1) = 0) ∧ (s.dev.canReach n .write (64 + b.1) = .opened)) onBus31 7 31 canFr 0 0 ([])) ∧
    ((fun (s : State) (n : Fin 8) (b : Fin 32) (fr : CanFrame) (_sof : Nat) (_dly : Nat) (_es : List CanEdge) (_e : CanErr) (pl : CanPlace)
      (_c : CanCount) => (Live s) ∧ (Clean s) ∧ (s.dev.canActive n = true) ∧ (s.dev.bit (Reg.CAN_CTL_LISTEN n.1) = false) ∧
      (s.dev.bit (Reg.CAN_CTL_LOOP n.1) = false) ∧ (s.dev.canBuffer s.memWord s.memBytes n b.1 = some fr) ∧
      ((s.dev.can[n]).onBus = some b) ∧ (fr.fd = true) ∧
      (pl ≠ .arbitration)) onBusFd 7 31 (⟨0, false, false, true, false, false, 0, []⟩) 0 300 ([]) .crc .tail .detected) ∧
    ((fun (s : State) (src : Src) (n : Fin 8) (i : Fin 2) (_w : Word) => (Reaches s src (Reg.CAN_FIFO_CI_at n.1 i.1))) (puts
      [(Reg.CAN_FIFO_PI_IDX 7 1, 5)] base) core0 7 1 5) := by
  refine ⟨?_, ?_, ?_, ?_, ?_, ?_, ?_, ?_, ?_, ?_⟩ <;> decide +kernel

theorem test_worlds_of_the_cores_hypotheses :
    ((fun (s : State) (n : Fin 6) (w : Word) (g : Fin 256) (_next : Nat) (t_ : Nat) => (Live s) ∧ (gateWord w = .gate g) ∧
      (s.dev.coreRuns n = true) ∧ (s.dev.coreSecure n = false) ∧ (
  let base := s.dev.f64 (Reg.CORE_GATE_BASE_LO_ADDR n.1) (Reg.CORE_GATE_BASE_HI_ADDR n.1) % 2 ^ 40 + 16 * g.1;
  let src : Src := ⟨⟨n.1, by omega⟩, true, sl (s.dev.f (Reg.CORE_CTX_SLICE n.1))⟩;
  let attr := s.memWord (base + 8) 4;
  (g.1 < s.dev.f (Reg.CORE_GATE_CNT_CNT n.1)) ∧ (checkerOf base = some t_) ∧ (s.dev.permits t_ src .read base = true) ∧
      (s.dev.serves base = true) ∧ (attr.testBit 0 = true) ∧
      ((attr.testBit 1 = true ∨ bits attr 8 6 = s.dev.f (Reg.CORE_CTX_SLICE n.1))))) (inMem 0x10000FF0 (leBytes 8 0x1234 ++ leBytes 4 3)
      (grants 1 (puts [(Reg.CORE_GATE_BASE_LO_ADDR 5, 0x10000000), (Reg.CORE_GATE_CNT_CNT 5, 256)] (coreOn 5 0)))) 5 0xE71000FF 255 0x77 1) ∧
    ((fun (s : State) (n : Fin 6) (w : Word) (g : Fin 256) (_next : Nat) (_t_ : Nat) (p : Fin 2) (key : Nat) => (Live s) ∧
      (gateWord w = .gate g) ∧ (s.dev.coreRuns n = true) ∧ (s.dev.coreSecure n = false) ∧ (
  let base := s.dev.f64 (Reg.CORE_GATE_BASE_LO_ADDR n.1) (Reg.CORE_GATE_BASE_HI_ADDR n.1) % 2 ^ 40 + 16 * g.1;
  let src : Src := ⟨⟨n.1, by omega⟩, true, sl (s.dev.f (Reg.CORE_CTX_SLICE n.1))⟩;
  (tcmKey src base = some (p, key)) ∧ (g.1 < s.dev.f (Reg.CORE_GATE_CNT_CNT n.1)) ∧ ((s.memWord (key + 8) 4).testBit 0 = true) ∧
      ((s.memWord (key + 8) 4).testBit 1 = true))) (inMem 0x04080FF0 (leBytes 8 0x1234 ++ leBytes 4 3) (puts [(Reg.CORE_GATE_BASE_LO_ADDR
      5, 0x04000000), (Reg.CORE_GATE_CNT_CNT 5, 256)] (coreOn 5 0))) 5 0xE71000FF 255 0x77 0 1 0x04080FF0) ∧
    ((fun (s : State) (n : Fin 6) (w : Word) (g : Fin 256) (_next : Nat) (_t_ : Nat) => (Live s) ∧ (gateWord w = .gate g) ∧
      (s.dev.coreRuns n = true) ∧ (s.dev.coreSecure n = false) ∧
      (s.dev.f (Reg.CORE_GATE_CNT_CNT n.1) ≤ g.1)) (coreOn 5 0) 5 0xE71000FF 255 0x77 1) ∧
    ((fun (s : State) (_n : Fin 6) (w : Word) (_next : Nat) => (Live s) ∧ (gateWord w = .undefined)) (coreOn 5 0) 5 0xE71001FF 0x77) ∧
    ((fun (s : State) (n : Fin 6) => (Live s) ∧ (s.dev.coreRuns n = true) ∧ (s.dev.coreSecure n = true) ∧
      ((∀ t0, (s.dev.cores[n]).entry = some t0 → s.dev.f (Reg.CORE_SWDG_GATE_MAX n.1) = 0 ∨ s.dev.up < t0 + 400 * s.dev.f
      (Reg.CORE_SWDG_GATE_MAX n.1)))) (coreOn 5 1) 5) ∧
    ((fun (s : State) (n : Fin 4) (t0 : Nat) =>
  let c : Fin 6 := ⟨n.1, by omega⟩;
  (Live s) ∧ (s.dev.coreTimed c = true) ∧ ((s.dev.cores[c]).entry = some t0) ∧ (s.dev.f (Reg.CORE_SWDG_GATE_MAX n.1) ≠ 0) ∧
      (t0 + 400 * s.dev.f (Reg.CORE_SWDG_GATE_MAX n.1) ≤ s.dev.up)) (dv (fun d => d.setUp 400000000000) (puts [(Reg.CORE_SWDG_GATE_MAX 3,
      1)] (inCore 3 (fun c => { c with entry := some 0 }) (coreOn 3 1)))) 3 0) ∧
    ((fun (s : State) (n : Fin 6) (_next : Nat) => (Live s) ∧ (s.dev.coreRuns n = true)) (coreOn 5 0) 5 0x77) ∧
    ((fun (s : State) (n : Fin 4) => (Live s) ∧ (s.dev.bit (Reg.CORE_STAT_FENCED n.1) = false)) (coreOn 3 1) 3) ∧
    ((fun (s : State) (n : Fin 6) => (Live s) ∧ (s.dev.coreTimed n = true) ∧ (s.dev.f (Reg.CORE_SWDG_TIMEOUT n.1) ≠ 0) ∧
      ((s.dev.cores[n]).wdogAt + 400000 * s.dev.f (Reg.CORE_SWDG_TIMEOUT n.1) ≤ s.dev.up)) (dv (fun d => d.setUp 400000000000) (puts
      [(Reg.CORE_SWDG_TIMEOUT 5, 1)] (coreOn 5 0))) 5) ∧
    ((fun (s : State) (n : Fin 6) (t0 : _) => (Live s) ∧ (s.dev.coreTimed n = true) ∧ ((s.dev.cores[n]).entry = some t0) ∧
      (s.dev.f (Reg.CORE_SWDG_GATE_MAX n.1) ≠ 0) ∧
      (t0 + 400 * s.dev.f (Reg.CORE_SWDG_GATE_MAX n.1) ≤ s.dev.up)) (dv (fun d => d.setUp 400000000000) (puts [(Reg.CORE_SWDG_GATE_MAX 3,
      1)] (inCore 3 (fun c => { c with entry := some 0 }) (coreOn 3 1)))) 3 0) ∧
    ((fun (s : State) (src : Src) (n : Fin 6) (w : Word) => (Reaches s src (Reg.CORE_SWDG_KICK_at n.1)) ∧
      (w.toNat.testBit 0 = true)) base core0 0 1) := by
  refine ⟨?_, ?_, ?_, ?_, ?_, ?_, ?_, ?_, ?_, ?_, ?_⟩ <;> decide +kernel

theorem test_power_requests_are_arbitrated_hypotheses :
    ((fun (s : State) (src : Src) (w : Word) (i : Instr) => (Reaches s src Reg.PWR_QREQ_at) ∧
      ((i = .quiesce src w ∨ i = .qreqResume src w ∨ i = .retain src w ∨ i = .off src w)) ∧ (
  let b := bits w.toNat 0 8;
  let op := bits w.toNat 8 3;
  let sec := src.secure;
  (qAccepts b op = true) ∧ ((s.dev.qreq sec).isSome = true))) (dv (fun d => d.setQS (some ⟨core0, 39, 1, 0, false, true⟩)) base) core0
      0x127 (.quiesce core0 0x127)) ∧
    ((fun (s : State) (src : Src) (w : Word) (i : Instr) => (Reaches s src Reg.PWR_QREQ_at) ∧
      ((i = .quiesce src w ∨ i = .qreqResume src w ∨ i = .retain src w ∨ i = .off src w)) ∧ (
  let b := bits w.toNat 0 8;
  let op := bits w.toNat 8 3;
  let sec := src.secure;
  (qAccepts b op = true) ∧ (s.dev.qreq sec = none) ∧ (s.dev.qMinset b op = true))) base core0 0x408 (.off core0 0x408)) ∧
    ((fun (s : State) (src : Src) (w : Word) (i : Instr) => (Reaches s src Reg.PWR_QREQ_at) ∧
      ((i = .quiesce src w ∨ i = .qreqResume src w ∨ i = .retain src w ∨ i = .off src w)) ∧ (
  let b := bits w.toNat 0 8;
  let op := bits w.toNat 8 3;
  let sec := src.secure;
  (qAccepts b op = true) ∧ (s.dev.qreq sec = none) ∧ (s.dev.qMinset b op = false) ∧
      ((sec = true ∨ s.dev.f (Reg.PWR_QTAG_TAG b) = 0)))) base core0 0x326 (.retain core0 0x326)) ∧
    ((fun (s : State) (src : Src) (w : Word) (i : Instr) => (Reaches s src Reg.PWR_QREQ_at) ∧
      ((i = .quiesce src w ∨ i = .qreqResume src w ∨ i = .retain src w ∨ i = .off src w)) ∧ (
  let b := bits w.toNat 0 8;
  let op := bits w.toNat 8 3;
  let sec := src.secure;
  (qAccepts b op = true) ∧ (s.dev.qreq sec = none) ∧ (s.dev.qMinset b op = false) ∧ (sec = false) ∧
      (s.dev.f (Reg.PWR_QTAG_TAG b) = 1))) (puts [(Reg.PWR_QTAG_TAG 39, 1)] plain0) normal0 0x127 (.quiesce normal0 0x127)) ∧
    ((fun (s : State) (src : Src) (w : Word) (i : Instr) => (Reaches s src Reg.PWR_QREQ_at) ∧
      ((i = .quiesce src w ∨ i = .qreqResume src w ∨ i = .retain src w ∨ i = .off src w)) ∧ (
  let b := bits w.toNat 0 8;
  let op := bits w.toNat 8 3;
  let sec := src.secure;
  (qAccepts b op = true) ∧ (s.dev.qreq sec = none) ∧ (s.dev.qMinset b op = false) ∧ (sec = false) ∧
      (2 ≤ s.dev.f (Reg.PWR_QTAG_TAG b)))) (puts [(Reg.PWR_QTAG_TAG 39, 2)] plain0) normal0 0x227 (.qreqResume normal0 0x227)) ∧
    ((fun (s : State) (src : Src) (b : Fin 64) (w : Word) (q : QReq) => (Reaches s src (Reg.PWR_QTAG_at b.1)) ∧ (s.dev.qN = some q) ∧
      (q.block = b.1) ∧ (q.deferred = true) ∧ (bits w.toNat 0 2 = 0) ∧
      (s.dev.qMinset q.block q.op = false)) (qn ⟨normal0, 39, 1, 0, true, false⟩ base) core0 39 0 (⟨normal0, 39, 1, 0, true, false⟩)) ∧
    ((fun (s : State) (src : Src) (b : Fin 64) (w : Word) (q : QReq) => (Reaches s src (Reg.PWR_QTAG_at b.1)) ∧ (s.dev.qN = some q) ∧
      (q.block = b.1) ∧ (q.deferred = true) ∧
      (bits w.toNat 0 2 = 2)) (qn ⟨normal0, 39, 1, 0, true, false⟩ base) core0 39 2 (⟨normal0, 39, 1, 0, true, false⟩)) ∧
    ((fun (s : State) (q : QReq) => (Live s) ∧ (s.dev.qN = some q) ∧ (q.deferred = true) ∧
      (q.at_ + 400000 * s.dev.f Reg.PWR_QCFG_DEFER_TO ≤ s.dev.up)) (dv (fun d => d.setUp 400000000000) (qn ⟨normal0, 39, 1, 0, true,
      false⟩ base)) (⟨normal0, 39, 1, 0, true, false⟩)) ∧
    ((fun (s : State) (sec : Bool) (q : QReq) => (Live s) ∧ (s.dev.qreq sec = some q) ∧ (q.block < 64) ∧ (q.draining = true) ∧
      (s.dev.qMinset q.block q.op = false) ∧
      (s.dev.qTakesTime q = false)) (qn ⟨normal0, 39, 1, 0, false, true⟩ base) false (⟨normal0, 39, 1, 0, false, true⟩)) ∧
    ((fun (s : State) (sec : Bool) (q : QReq) => (Live s) ∧ (s.dev.qreq sec = some q) ∧ (q.block < 64) ∧ (q.draining = true) ∧
      (s.dev.qMinset q.block q.op = false) ∧
      (s.dev.qTakesTime q = true)) (qn ⟨normal0, 38, 3, 0, false, true⟩ base) false (⟨normal0, 38, 3, 0, false, true⟩)) ∧
    ((fun (s : State) (q : QReq) (n : Fin 12) => (Live s) ∧ (s.dev.qS = none) ∧ (s.dev.qN = some q) ∧ (q.deferred = false) ∧
      (q.draining = false) ∧ (q.block = 8 + n.1)) (qn ⟨normal0, 19, 3, 0, false, false⟩ base) (⟨normal0, 19, 3, 0, false, false⟩) 11) ∧
    ((fun (s : State) (q : QReq) => (Live s) ∧ (s.dev.qS = none) ∧ (s.dev.qN = some q) ∧ (q.deferred = false) ∧ (q.draining = false) ∧
      (q.block = 38)) (qn ⟨normal0, 38, 3, 0, false, false⟩ base) (⟨normal0, 38, 3, 0, false, false⟩)) := by
  refine ⟨?_, ?_, ?_, ?_, ?_, ?_, ?_, ?_, ?_, ?_, ?_, ?_⟩ <;> decide +kernel

theorem test_lockstep_pairs_are_judged_hypotheses :
    ((fun (s : State) (p : Fin 2) (x : Txn) (y : Txn) => (Live s) ∧ (s.dev.checking p = true) ∧
      (s.dev.tb Reg.SYS_FENCE_SP (otherPair p).1 = false) ∧ (
  let same (x y : Txn) : Prop := maskVector (txnVector x) = maskVector (txnVector y);
  ((s.dev.pairs[p]).delay = []) ∧ (s.dev.testDue p = none) ∧ (same x y))) (coreOn 5 1) 1 (txn 0x10000000) (txn 0x10000000)) ∧
    ((fun (s : State) (p : Fin 2) (x : Txn) (y : Txn) => (Live s) ∧ (s.dev.checking p = true) ∧
      (s.dev.tb Reg.SYS_FENCE_SP (otherPair p).1 = false) ∧ (
  let same (x y : Txn) : Prop := maskVector (txnVector x) = maskVector (txnVector y);
  ((s.dev.pairs[p]).delay = []) ∧ (s.dev.testDue p = none) ∧ (¬ same x y) ∧
      (x.kind ≠ .digest))) (coreOn 5 1) 1 (txn 0x10000000) (txn 0x10000004)) ∧
    ((fun (s : State) (p : Fin 2) (_x : Txn) (_y : Txn) => (Live s) ∧ (s.dev.checking p = true) ∧
      (s.dev.tb Reg.SYS_FENCE_SP (otherPair p).1 = false) ∧ ((s.dev.pairs[p]).delay = []) ∧
      (s.dev.testDue p = none)) (coreOn 5 1) 1 (txn 0x10000000) (txn 0x10000004)) ∧
    ((fun (s : State) (p : Fin 2) (pb : List Byte) (sb : List Byte) => (Live s) ∧ (s.dev.checking p = true) ∧
      (s.dev.tb Reg.SYS_FENCE_SP (otherPair p).1 = false) ∧ ((s.dev.pairs[p]).delay = []) ∧ (s.dev.testDue p = none) ∧
      ((s.dev.pairs[p]).due = true) ∧ (crc64 pb % 2 ^ 64 = crc64 sb % 2 ^ 64)) (dv (fun d => d.modPair 1 (fun x =>
      { x with due := true })) (coreOn 5 1)) 1 ([1]) ([1])) ∧
    ((fun (s : State) (p : Fin 2) (pb : List Byte) (sb : List Byte) => (Live s) ∧ (s.dev.checking p = true) ∧
      (s.dev.tb Reg.SYS_FENCE_SP (otherPair p).1 = false) ∧ ((s.dev.pairs[p]).delay = []) ∧ (s.dev.testDue p = none) ∧
      ((s.dev.pairs[p]).due = true) ∧ (crc64 pb % 2 ^ 64 ≠ crc64 sb % 2 ^ 64)) (dv (fun d => d.modPair 1 (fun x =>
      { x with due := true })) (coreOn 5 1)) 1 ([1]) ([2])) ∧
    ((fun (s : State) (p : Fin 2) (x : Txn) (z : Txn) => (Live s) ∧ (s.dev.checking p = true) ∧
      (s.dev.tb Reg.SYS_FENCE_SP (otherPair p).1 = false) ∧ (
  let same (x y : Txn) : Prop := maskVector (txnVector x) = maskVector (txnVector y);
  ((s.dev.pairs[p]).delay = []) ∧ ((s.dev.pairs[p]).injAt + 400000 * s.dev.f Reg.LS_CFG_INJ_PERIOD ≤ s.dev.up) ∧
      (same x z))) (dv (fun d => d.setUp 400000000000) (coreOn 5 1)) 1 (txn 0x10000000) (txn 0x10000000)) ∧
    ((fun (s : State) (p : Fin 2) (t0 : Nat) => (Live s) ∧ (s.dev.checking p = true) ∧ (s.dev.tb Reg.SYS_FENCE_SP (otherPair p).1 = false) ∧
      ((s.dev.pairs[p]).stallAt = some t0) ∧
      (t0 + 400 * s.dev.f Reg.LS_CFG_LAG_TO ≤ s.dev.up)) (dv (fun d => (d.setUp 400000000000).modPair 1 (fun x =>
      { x with stallAt := some 0 })) (coreOn 5 1)) 1 0) ∧
    ((fun (s : State) (p : Fin 2) (src : Src) (w : Word) => (Live s) ∧ (s.dev.checking p = true) ∧
      (s.dev.tb Reg.SYS_FENCE_SP (otherPair p).1 = false) ∧ (Reaches s src (Reg.LS_TEST_at p.1)) ∧ ((src.master = 4 ∨ src.master = 5)) ∧
      (w.toNat.testBit 0 = true)) (coreOn 4 1) 0 src4 1) := by
  refine ⟨?_, ?_, ?_, ?_, ?_, ?_, ?_, ?_⟩ <;> decide +kernel

theorem test_key_commands_are_checked_hypotheses :
    ((fun (s : State) (src : Src) (c : Fin 16) => (Live s) ∧ ((s.dev.guard src (Reg.MORD_CH_CLAIM_at c.1) false).isNone = true)) base core0 15) ∧
    ((fun (s : State) (src : Src) (ch : Fin 16) (i : Instr) (op : Nat) => (Reaches s src (Reg.MORD_CH_CMD_at ch.1)) ∧
      ((i, op) ∈ [(Instr.derive src ch, 1), (.invalidate src ch, 2), (.gcmEnc src ch, 3), (.gcmDec src ch, 4), (.hmac src ch, 5), (.sign
      src ch, 6), (.pubkey src ch, 7), (.chainKey src ch, 8), (.random src ch, 9), (.exportKey src ch, 10)]) ∧
      (s.dev.mord.owners[ch] ≠ some src)) base core0 15 (.exportKey core0 15) 10) ∧
    ((fun (s : State) (src : Src) (ch : Fin 16) (i : Instr) (op : Nat) (r : _) => (Reaches s src (Reg.MORD_CH_CMD_at ch.1)) ∧
      ((i, op) ∈ [(Instr.derive src ch, 1), (.invalidate src ch, 2), (.gcmEnc src ch, 3), (.gcmDec src ch, 4), (.hmac src ch, 5), (.sign
      src ch, 6), (.pubkey src ch, 7), (.chainKey src ch, 8), (.random src ch, 9), (.exportKey src ch, 10)]) ∧ (
  let c : MCmd := ⟨ch, op, (List.range 16).map (fun i => s.dev.f (Reg.MORD_CH_ARG_VALUE ch.1 i)), src, false⟩;
  (s.dev.mord.owners[ch] = some src) ∧ (s.dev.bit (Reg.MORD_CH_STAT_BUSY ch.1) = false) ∧ (s.dev.mord.run = none) ∧
      (s.dev.mord.queue = []) ∧ (s.dev.mordCheck c = some r))) (puts [(Reg.MORD_K_META_WORD 127, 0)] keyed) core0 15 (.derive core0 15) 1 3) ∧
    ((fun (s : State) (src : Src) (ch : Fin 16) (i : Instr) (op : Nat) => (Reaches s src (Reg.MORD_CH_CMD_at ch.1)) ∧
      ((i, op) ∈ [(Instr.derive src ch, 1), (.invalidate src ch, 2), (.gcmEnc src ch, 3), (.gcmDec src ch, 4), (.hmac src ch, 5), (.sign
      src ch, 6), (.pubkey src ch, 7), (.chainKey src ch, 8), (.random src ch, 9), (.exportKey src ch, 10)]) ∧ (
  let c : MCmd := ⟨ch, op, (List.range 16).map (fun i => s.dev.f (Reg.MORD_CH_ARG_VALUE ch.1 i)), src, false⟩;
  (s.dev.mord.owners[ch] = some src) ∧ (s.dev.bit (Reg.MORD_CH_STAT_BUSY ch.1) = false) ∧ (s.dev.mord.run = none) ∧
      (s.dev.mord.queue = []) ∧ (s.dev.mordCheck c = none) ∧ (op ≠ 2) ∧
      (((op = 6 ∨ op = 9) → s.dev.bit Reg.MORD_STAT_DRBG_OK = true)))) keyed core0 15 (.hmac core0 15) 5) ∧
    ((fun (s : State) (src : Src) (ch : Fin 16) (i : Instr) (op : Nat) => (Reaches s src (Reg.MORD_CH_CMD_at ch.1)) ∧
      ((i, op) ∈ [(Instr.derive src ch, 1), (.invalidate src ch, 2), (.gcmEnc src ch, 3), (.gcmDec src ch, 4), (.hmac src ch, 5), (.sign
      src ch, 6), (.pubkey src ch, 7), (.chainKey src ch, 8), (.random src ch, 9), (.exportKey src ch, 10)]) ∧
      (s.dev.mord.owners[ch] = some src) ∧ (s.dev.bit (Reg.MORD_CH_STAT_BUSY ch.1) = false) ∧ (s.dev.mord.run.isSome = true) ∧
      (op ≠ 2)) (mrun ⟨⟨14, 9, [], core0, false⟩, 0, 2, none, false⟩ keyed) core0 15 (.random core0 15) 9) ∧
    ((fun (s : State) (src : Src) (ch : Fin 16) (i : Instr) (op : Nat) => (Reaches s src (Reg.MORD_CH_CMD_at ch.1)) ∧
      ((i, op) ∈ [(Instr.derive src ch, 1), (.invalidate src ch, 2), (.gcmEnc src ch, 3), (.gcmDec src ch, 4), (.hmac src ch, 5), (.sign
      src ch, 6), (.pubkey src ch, 7), (.chainKey src ch, 8), (.random src ch, 9), (.exportKey src ch, 10)]) ∧ (
  let c : MCmd := ⟨ch, op, (List.range 16).map (fun i => s.dev.f (Reg.MORD_CH_ARG_VALUE ch.1 i)), src, false⟩;
  (s.dev.mord.owners[ch] = some src) ∧ (s.dev.bit (Reg.MORD_CH_STAT_BUSY ch.1) = false) ∧ (op = 2) ∧
      (s.dev.mordCheck c = none))) keyed core0 15 (.invalidate core0 15) 2) := by
  refine ⟨?_, ?_, ?_, ?_, ?_, ?_⟩ <;> decide +kernel

theorem test_key_store_outputs_and_upkeep_hypotheses :
    ((fun (s : State) (r : MRun) (out : _) => (Live s) ∧ (Clean s) ∧ (s.dev.mord.run = some r) ∧ (s.dev.mord.queue = []) ∧ ((r.cmd.op = 5 ∧
      (s.dev.memAccess r.cmd.owner .read (r.cmd.addr 4) (r.cmd.arg 8)).2 = true ∧
      out = Config.hmac (keyBytes 2 r.key) (s.memBytes (r.cmd.addr 4) (r.cmd.arg 8))) ∨ (r.cmd.op = 7 ∧
      out = Config.ecdsaPublic (keyBytes 3 r.key)) ∨ (r.cmd.op = 10 ∧ out = keyBytes r.kind r.key)) ∧
      ((s.dev.memAccess r.cmd.owner .write (r.cmd.addr 6) out.length).2 = true)) (grants 1 (mrun ⟨⟨15, 10, [127, 0, 0, 0, 0, 0,
      0x10000000], core0, false⟩, 5, 2, some (127, 0), false⟩ keyed)) (⟨⟨15, 10, [127, 0, 0, 0, 0, 0, 0x10000000], core0, false⟩, 5, 2,
      some (127, 0), false⟩) (keyBytes 2 5)) ∧
    ((fun (s : State) (r : MRun) (k : _) => (Live s) ∧ (Clean s) ∧ (s.dev.mord.run = some r) ∧ (s.dev.mord.queue = []) ∧ (r.cmd.op = 1) ∧
      (k < 128) ∧ ((r.cmd.arg 1 = 0xFF ∧ s.dev.emptyKeys.head? = some k ∨ r.cmd.arg 1 = k ∧
      s.dev.slotState k = 0))) (mrun ⟨⟨15, 1, [127, 126, 0, 0x102], core0, false⟩, 5, 2, some (127, 0), true⟩ keyed) (⟨⟨15, 1, [127, 126,
      0, 0x102], core0, false⟩, 5, 2, some (127, 0), true⟩) 126) ∧
    ((fun (s : State) (k : Fin 128) => (Live s) ∧ (s.dev.slotState k.1 = 2) ∧
      (s.dev.meta k.1 15 1 = 0)) (puts [(Reg.MORD_K_META_WORD 127, 0x56200)] keyed) 127) ∧
    ((fun (s : State) => (Live s)) base) ∧
    ((fun (s : State) => (Live s)) base) ∧
    ((fun (s : State) (src : Src) (_w : Word) => (Reaches s src Reg.MORD_LC_REQ_at)) base core0 0x4C430003) ∧
    ((fun (s : State) (job : FuseJob) (t0 : Nat) => (Live s) ∧ (s.dev.sup.fuse = some (job, t0)) ∧
      (s.dev.sup.warmWait = none)) (dv (fun d => d.setSup { d.sup with fuse := some (.lifeCycle 3, 0) }) base) (.lifeCycle 3) 0) := by
  refine ⟨?_, ?_, ?_, ?_, ?_, ?_, ?_⟩ <;> decide +kernel

theorem test_dram_trains_and_fails_hypotheses :
    ((fun (s : State) (src : Src) (w : Word) => (Reaches s src Reg.DRAM_CTL_at) ∧ (s.dev.bit Reg.DRAM_CTL_EN = false) ∧
      (w.toNat.testBit 0 = true)) base core0 1) ∧
    ((fun (s : State) (src : Src) (w : Word) => (Reaches s src Reg.DRAM_CTL_at) ∧ (s.dev.bit Reg.DRAM_CTL_EN = true) ∧
      (w.toNat.testBit 0 = false)) (puts [(Reg.DRAM_CTL_EN, 1)] base) core0 0) ∧
    ((fun (s : State) (_m : Fin 4) => (Live s) ∧ (s.dev.bit Reg.DRAM_CTL_EN = true) ∧ (s.dev.bit Reg.DRAM_STAT_READY = false) ∧
      (s.dev.f Reg.DRAM_STAT_FAILED = 0)) (puts [(Reg.DRAM_CTL_EN, 1)] base) 2) ∧
    ((fun (s : State) (n : Fin 2) => (Live s) ∧ (s.dev.dramLive n.1 = true)) (puts [(Reg.DRAM_STAT_TRAINED, 3)] base) 1) ∧
    ((fun (s : State) (c : Nat) (_a : Nat) => (Live s) ∧ (s.dev.bit Reg.DRAM_STAT_READY = true) ∧ (s.dev.f Reg.DRAM_ECC_CFG_SCRUB ≠ 0) ∧
      (s.dev.f (Reg.PWR_QTAG_STATE 38) = 0) ∧ (s.dev.dram.scrubAt + 1440000000000 * s.dev.f Reg.DRAM_ECC_CFG_SCRUB ≤ s.dev.up) ∧
      (c ≠ 0)) (upTo 400000000000000 (puts [(Reg.DRAM_STAT_READY, 1), (Reg.DRAM_STAT_WINDOW, 7168)] base)) 5 0x100000000) := by
  refine ⟨?_, ?_, ?_, ?_, ?_⟩ <;> decide +kernel

theorem test_aux_switches_follow_requests_hypotheses :
    ((fun (s : State) (src : Src) (n : Fin 24) (w : Word) (i : Instr) => (Reaches s src (Reg.AUX_CTL_at n.1)) ∧
      ((i = .auxOnRequest src n w ∨ i = .auxOffRequest src n w)) ∧ (w.toNat.testBit 0 = true) ∧
      ((s.dev.auxBarred n = true ∨ s.dev.auxSt n = 5))) (auxIn 5 id) core0 23 3 (.auxOnRequest core0 23 3)) ∧
    ((fun (s : State) (src : Src) (n : Fin 24) (w : Word) (i : Instr) => (Reaches s src (Reg.AUX_CTL_at n.1)) ∧
      ((i = .auxOnRequest src n w ∨ i = .auxOffRequest src n w)) ∧ (w.toNat.testBit 0 = true) ∧ (s.dev.auxBarred n = false) ∧
      (s.dev.auxSt n = 0) ∧ (s.dev.bit (Reg.AUX_CTL_ON n.1) = false) ∧
      (s.dev.sup.vaux = true)) (auxIn 0 id) core0 23 3 (.auxOnRequest core0 23 3)) ∧
    ((fun (s : State) (src : Src) (n : Fin 24) (w : Word) (i : Instr) => (Reaches s src (Reg.AUX_CTL_at n.1)) ∧
      ((i = .auxOnRequest src n w ∨ i = .auxOffRequest src n w)) ∧ (w.toNat.testBit 0 = false) ∧
      (s.dev.auxOn n = true)) (auxIn 2 id) core0 23 0 (.auxOffRequest core0 23 0)) ∧
    ((fun (s : State) (n : Fin 24) => (s.dev.auxSt n = 1) ∧ ((s.dev.aux[n]).winEnd ≤ s.dev.up)) (auxIn 1 id) 23) ∧
    ((fun (s : State) (n : Fin 24) => (s.dev.auxSt n = 3) ∧ (s.dev.f (Reg.AUX_SENSE_CODE n.1) < 5) ∧
      (s.dev.bit (Reg.AUX_NSTAT_HELD n.1) = false)) (auxIn 3 (fun a => { a with clampTo := 5 })) 23) ∧
    ((fun (s : State) (n : Fin 24) => (s.dev.auxSt n = 3) ∧ (s.dev.f (Reg.AUX_SENSE_CODE n.1) < 5) ∧
      (s.dev.bit (Reg.AUX_NSTAT_HELD n.1) = true) ∧ ((s.dev.aux[n]).clampTo = 0) ∧
      (s.dev.sup.vaux = true)) (puts [(Reg.AUX_NSTAT_HELD 23, 1)] (auxIn 3 id)) 23) ∧
    ((fun (s : State) (n : Fin 24) (t0 : Nat) => ((s.dev.aux[n]).holdTill = some t0) ∧ (t0 ≤ s.dev.up) ∧ (s.dev.auxBarred n = false) ∧
      (s.dev.auxSt n ≠ 5)) (puts [(Reg.AUX_CTL_DEF 23, 1)] (auxIn 0 (fun a => { a with holdTill := some 0 }))) 23 0) := by
  refine ⟨?_, ?_, ?_, ?_, ?_, ?_, ?_⟩ <;> decide +kernel

theorem test_aux_faults_and_warnings_hypotheses :
    ((fun (s : State) (n : Fin 24) (t0 : _) => (s.dev.auxOn n = true) ∧ ((s.dev.aux[n]).limAt = some t0) ∧
      (t0 + 400000 * s.dev.f (Reg.AUX_DIAG_LIM_T n.1) ≤ s.dev.up)) (upTo 400000000 (auxIn 2 (fun a => { a with limAt := some 0 }))) 23 0) ∧
    ((fun (s : State) (n : Fin 24) => (s.dev.auxOn n = true)) (auxIn 1 id) 23) ∧
    ((fun (s : State) (n : Fin 24) => (s.dev.auxSt n = 4) ∧ ((s.dev.aux[n]).offAt + 4000000 ≤ s.dev.up) ∧ (s.dev.sup.vaux = true) ∧
      (((s.dev.aux[n]).offOt = false ∨ signed 32 (s.dev.f (Reg.AUX_TJ_T n.1)) ≤ 145000))) (upTo 4000000 (auxIn 4 id)) 23) ∧
    ((fun (s : State) (n : Fin 24) (t0 : Nat) => (s.dev.auxSt n = 2) ∧ ((s.dev.aux[n]).onAt = some t0) ∧
      (t0 + 400000000 ≤ s.dev.up)) (upTo 400000000 (auxIn 2 (fun a => { a with onAt := some 0 }))) 23 0) ∧
    ((fun (s : State) (src : Src) (_w : Word) => (Reaches s src Reg.AUX_CLR_at)) (auxIn 5 id) core0 0x800000) ∧
    ((fun (s : State) (n : Fin 24) (t0 : Nat) => (t0 + 4000000 ≤ s.dev.up) ∧ ((s.dev.aux[n]).lowAt = some t0) ∧ (s.dev.auxSt n = 2) ∧
      (s.dev.f (Reg.AUX_DIAG_OL_TH n.1) ≠ 0) ∧
      (s.dev.bit (Reg.AUX_NSTAT_OPEN n.1) = false)) (upTo 4000000 (auxIn 2 (fun a => { a with lowAt := some 0 }))) 23 0) ∧
    ((fun (s : State) (n : Fin 24) (t0 : Nat) => (t0 + 4000000 ≤ s.dev.up) ∧
      ((s.dev.aux[n]).highAt = some t0)) (upTo 4000000 (auxIn 2 (fun a => { a with highAt := some 0 }))) 23 0) ∧
    ((fun (s : State) (g : Fin 6) (temp : Int) => (1000 * (s.dev.f Reg.AUX_CFG_GRP_WARN : Int) ≤ temp) ∧
      (s.dev.tb Reg.AUX_STAT_GWARN g.1 = false)) (auxIn 1 id) 5 140000) ∧
    ((fun (s : State) (_g : Fin 6) (temp : Int) => (temp ≤ 1000 * (s.dev.f Reg.AUX_CFG_GRP_WARN : Int) - 10000)) (auxIn 1 id) 5 130000) := by
  refine ⟨?_, ?_, ?_, ?_, ?_, ?_, ?_, ?_, ?_⟩ <;> decide +kernel

theorem test_madder_cycles_are_safe_hypotheses :
    ((fun (s : State) => (s.dev.mad.beatAt.getD 0 + s.dev.hbTo ≤ s.dev.up) ∧ (s.dev.mad.hbActed = false)) (upTo 400000000000 base)) ∧
    ((fun (s : State) (n : Fin 4) => (s.dev.sobEn n.1 = true) ∧ (s.dev.ob n.1 ≠ 3) ∧ (s.dev.mad.pulse = none) ∧
      (s.dev.tb Reg.MAD_STAT_FB n.1 = (s.dev.ob n.1 == 2)) ∧
      ((s.dev.mad.obAt[n]) + s.dev.fbT ≤ s.dev.up)) (upTo 400000000 (puts [(Reg.MAD_STAT_OB, 0x80), (Reg.MAD_STAT_FB, 8)] base)) 3) ∧
    ((fun (s : State) => (Live s) ∧ (s.dev.safeStop = true) ∧ (s.dev.mad.told = false)) (inMad (fun m => { m with told := false }) base)) := by
  refine ⟨?_, ?_, ?_⟩ <;> decide +kernel

theorem test_madder_tests_and_rearms_hypotheses :
    ((fun (s : State) (src : Src) (_w : Word) => (Reaches s src Reg.MAD_HB_at) ∧ (
  let p := src.master.1 - 4;
  ((s.dev.cores[(if p = 0 then 4 else 5 : Fin 6)]).expired = false))) (coreOn 4 1) src4 0xFE01) ∧
    ((fun (s : State) (src : Src) (w : Word) => (Reaches s src Reg.MAD_HB_at) ∧ (
  let p := src.master.1 - 4;
  let seq := bits w.toNat 0 8;
  let good := s.dev.f Reg.MAD_HB_STAT_PAIR = p ∧ s.dev.f (Reg.LS_STAT_STATE p) ≠ 2 ∧ bits w.toNat 8 8 = 255 - seq ∧
      (s.dev.mad.moved = true ∨ seq = (s.dev.f Reg.MAD_HB_STAT_LAST + 1) % 256);
  ((s.dev.cores[(if p = 0 then 4 else 5 : Fin 6)]).expired = false) ∧ (good))) (coreOn 4 1) (⟨4, true, 0⟩) 0xFE01) ∧
    ((fun (s : State) (src : Src) (w : Word) => (Reaches s src Reg.MAD_HB_at) ∧ (
  let p := src.master.1 - 4;
  let seq := bits w.toNat 0 8;
  let good := s.dev.f Reg.MAD_HB_STAT_PAIR = p ∧ s.dev.f (Reg.LS_STAT_STATE p) ≠ 2 ∧ bits w.toNat 8 8 = 255 - seq ∧
      (s.dev.mad.moved = true ∨ seq = (s.dev.f Reg.MAD_HB_STAT_LAST + 1) % 256);
  ((s.dev.cores[(if p = 0 then 4 else 5 : Fin 6)]).expired = false) ∧ (¬ good))) (coreOn 5 1) (⟨5, true, 0⟩) 0xFE01) ∧
    ((fun (s : State) (src : Src) (_w : Word) => (Reaches s src Reg.MAD_REQ_at)) (coreOn 4 1) src4 0x5AFE0081) ∧
    ((fun (s : State) (src : Src) (w : Word) => (Reaches s src Reg.MAD_REQ_at) ∧ (bits w.toNat 16 16 = 0x5AFE) ∧
      ((w.toNat.testBit 0 = true ∨ bits w.toNat 4 4 ≠ 0))) (coreOn 4 1) (⟨4, true, 0⟩) 0x5AFE0081) ∧
    ((fun (s : State) (src : Src) (w : Word) => (Reaches s src Reg.MAD_REQ_at) ∧ (bits w.toNat 16 16 ≠ 0x5AFE)) (coreOn 4 1) (⟨4, true, 0⟩) 0) ∧
    ((fun (s : State) (o : Fin 8) => (s.dev.outOn o = true) ∧ (s.dev.mad.pulse = none) ∧
      ((s.dev.mad.testAt[o]) + 40000000 * bits (s.dev.mcfg 8) 8 8 ≤ s.dev.up)) (upTo 40000000000 (puts [(Reg.MAD_STAT_SF1, 2)] base)) 3) ∧
    ((fun (s : State) (p : MadPulse) (_ok : Bool) => (s.dev.mad.pulse = some p) ∧ (p.discard = false) ∧ (s.dev.mad.rearmDue = none) ∧
      (p.at_ + 400 * bits (s.dev.mcfg 8) 16 9 ≤ s.dev.up)) (upTo 40000000 (inMad (fun m => { m with pulse := some ⟨7, true, 0, false⟩ })
      base)) (⟨7, true, 0, false⟩) false) ∧
    ((fun (_s : State) (us : Nat) (_pass : Nat) => ((us < 50000 ∨ 3000000 < us))) base 49999 0) ∧
    ((fun (s : State) (us : Nat) (_pass : Nat) => (50000 ≤ us) ∧ (us ≤ 3000000) ∧
      (s.dev.mad.pulse.isSome = true)) (inMad (fun m => { m with pulse := some ⟨7, true, 0, false⟩ }) base) 3000000 0) ∧
    ((fun (s : State) (us : Nat) (_pass : Nat) =>
  let ok := s.dev.f Reg.MAD_IN_DEMAND = 0 ∧ s.dev.f Reg.MAD_IN_DISC = 0 ∧ s.dev.mad.beatAt.isSome = true ∧
      s.dev.up < s.dev.mad.beatAt.getD 0 + s.dev.hbTo ∧ s.dev.mad.req = none ∧ s.dev.sup.vaux = true ∧ s.dev.mad.hard = false ∧
      ∀ n < 4, s.dev.sobEn n = true → s.dev.tb Reg.MAD_STAT_FB n = true;
  (50000 ≤ us) ∧ (us ≤ 3000000) ∧ (s.dev.mad.pulse = none) ∧ (¬ ok)) base 3000000 0) ∧
    ((fun (s : State) (us : Nat) (pass : Nat) =>
  let ok := s.dev.f Reg.MAD_IN_DEMAND = 0 ∧ s.dev.f Reg.MAD_IN_DISC = 0 ∧ s.dev.mad.beatAt.isSome = true ∧
      s.dev.up < s.dev.mad.beatAt.getD 0 + s.dev.hbTo ∧ s.dev.mad.req = none ∧ s.dev.sup.vaux = true ∧ s.dev.mad.hard = false ∧
      ∀ n < 4, s.dev.sobEn n = true → s.dev.tb Reg.MAD_STAT_FB n = true;
  (50000 ≤ us) ∧ (us ≤ 3000000) ∧ (s.dev.mad.pulse = none) ∧ (ok) ∧ ((s.dev.sf1 = 0 ∨ s.dev.sf1 = 3)) ∧
      ((∀ n < 4, pass.testBit (4 + n) = true))) (puts [(Reg.MAD_STAT_FB, 15)] (inMad (fun m => { m with beatAt := some 0 }) (auxIn 0 id)))
      50000 0xFF) ∧
    ((fun (s : State) (us : Nat) (pass : Nat) =>
  let ok := s.dev.f Reg.MAD_IN_DEMAND = 0 ∧ s.dev.f Reg.MAD_IN_DISC = 0 ∧ s.dev.mad.beatAt.isSome = true ∧
      s.dev.up < s.dev.mad.beatAt.getD 0 + s.dev.hbTo ∧ s.dev.mad.req = none ∧ s.dev.sup.vaux = true ∧ s.dev.mad.hard = false ∧
      ∀ n < 4, s.dev.sobEn n = true → s.dev.tb Reg.MAD_STAT_FB n = true;
  (50000 ≤ us) ∧ (us ≤ 3000000) ∧ (s.dev.mad.pulse = none) ∧ (ok) ∧ (s.dev.sf1 = 2) ∧ ((∃ n < 4, s.dev.sobEn n = true ∧ s.dev.ob n = 3)) ∧
      ((∀ n < 4, pass.testBit (4 + n) = true))) (puts [(Reg.MAD_STAT_FB, 15), (Reg.MAD_STAT_SF1, 2), (Reg.MAD_STAT_OB, 0xC0)] (inMad (fun
      m => { m with beatAt := some 0, cfgA := m.cfgA.set 9 0x10 }) (auxIn 0 id))) 50000 0xFF) ∧
    ((fun (s : State) (t0 : Nat) (mask : Nat) (fb : Nat) (_pass : Nat) => (s.dev.mad.rearm = some (t0, mask)) ∧
      ((fb &&& mask) % 16 ≠ 0)) (inMad (fun m => { m with rearm := some (0, 8) }) base) 0 8 8 0) ∧
    ((fun (s : State) (t0 : Nat) (mask : Nat) (fb : Nat) (_pass : Nat) => (s.dev.mad.rearm = some (t0, mask)) ∧ ((fb &&& mask) % 16 = 0) ∧
      (s.dev.sf1 = 2)) (puts [(Reg.MAD_STAT_SF1, 2)] (inMad (fun m => { m with rearm := some (0, 8) }) base)) 0 8 7 15) ∧
    ((fun (s : State) (t0 : Nat) (mask : Nat) (fb : Nat) (_pass : Nat) => (s.dev.mad.rearm = some (t0, mask)) ∧ ((fb &&& mask) % 16 = 0) ∧
      (s.dev.sf1 ≠ 2)) (inMad (fun m => { m with rearm := some (0, 8) }) base) 0 8 7 15) ∧
    ((fun (s : State) (src : Src) (w : Word) => (Reaches s src Reg.MAD_CFG_COMMIT_at) ∧ (w.toNat.testBit 0 = true)) (coreOn 4 1) src4 1) ∧
    ((fun (s : State) (src : Src) (w : Word) => (Reaches s src Reg.MAD_CFG_COMMIT_at) ∧ (w.toNat.testBit 0 = true) ∧ (
  let ws := s.dev.madStaged;
  let ok := (s.dev.sf1 = 0 ∨ s.dev.sf1 = 3) ∧ (∀ n < 4, s.dev.ob n = 0 ∨ s.dev.ob n = 3) ∧
      crc32 (ws.flatMap (leBytes 4)) = s.dev.f Reg.MAD_CFG_CRC_CRC ∧ madRanges ws = true;
  (ok))) (puts [(Reg.MAD_CFG_CRC_CRC, 3950610469)] (coreOn 4 1)) (⟨4, true, 0⟩) 1) ∧
    ((fun (s : State) (src : Src) (w : Word) => (Reaches s src Reg.MAD_CFG_COMMIT_at) ∧ (w.toNat.testBit 0 = true) ∧ (
  let ws := s.dev.madStaged;
  let ok := (s.dev.sf1 = 0 ∨ s.dev.sf1 = 3) ∧ (∀ n < 4, s.dev.ob n = 0 ∨ s.dev.ob n = 3) ∧
      crc32 (ws.flatMap (leBytes 4)) = s.dev.f Reg.MAD_CFG_CRC_CRC ∧ madRanges ws = true;
  (¬ ok))) (coreOn 4 1) (⟨4, true, 0⟩) 1) := by
  refine ⟨?_, ?_, ?_, ?_, ?_, ?_, ?_, ?_, ?_, ?_, ?_, ?_, ?_, ?_, ?_, ?_, ?_, ?_, ?_⟩ <;> decide +kernel

theorem test_supply_and_resets_hypotheses :
    ((fun (s : State) => (s.dev.sup.held = true) ∧ (s.dev.sup.vin = false) ∧ (s.dev.f Reg.RST_STAT_SUP = 0)) State.reset) ∧
    ((fun (s : State) (_r : Bool) (_m : Bool) => (s.dev.sup.held = true) ∧
      (s.dev.sup.vin = true)) (sup (fun x => { x with vin := true }) State.reset) true true) ∧
    ((fun (s : State) (mv : Nat) => (Live s) ∧ (mv < 10 * s.dev.f Reg.PWR_VIN_CFG_WARN)) base 2999) ∧
    ((fun (s : State) (mv : Nat) => (Live s) ∧ (10 * s.dev.f Reg.PWR_VIN_CFG_WARN + 100 ≤ mv)) base 3100) ∧
    ((fun (s : State) (_rail : Fin 6) => (Live s) ∧ (s.dev.sup.evAt = none)) base 5) ∧
    ((fun (s : State) (t0 : Nat) => (s.dev.sup.evAt = some t0) ∧
      (t0 + 8000 ≤ s.dev.up)) (upTo 8000 (sup (fun x => { x with evAt := some 0, evRail := 5 }) base)) 0) ∧
    ((fun (s : State) => (s.dev.sup.held = true) ∧ (s.dev.sup.vin = false) ∧
      (s.dev.f Reg.RST_STAT_SUP ≠ 0)) (puts [(Reg.RST_STAT_SUP, 6)] State.reset)) ∧
    ((fun (s : State) (ns : Nat) => (Live s) ∧ (s.dev.sup.warm = none) ∧ (s.dev.sup.fuse = none) ∧ (ns < 1000)) base 999) ∧
    ((fun (s : State) (ns : Nat) => (Live s) ∧ (s.dev.sup.warm = none) ∧ (s.dev.sup.fuse = none) ∧ (1000 ≤ ns)) base 1000) ∧
    ((fun (s : State) (src : Src) (w : Word) => (Reaches s src Reg.RST_CTL_at) ∧ (s.dev.sup.warm = none) ∧ (
  let good := w.toNat.testBit 0 = true ∧ bits w.toNat 16 16 = 0x5752 ∧ (secureCore src = true ∨ bar0 src = true);
  (good) ∧ (s.dev.sup.fuse = none))) base core0 0x57520001) ∧
    ((fun (s : State) (src : Src) (w : Word) => (Reaches s src Reg.RST_CTL_at) ∧ (s.dev.sup.warm = none) ∧ (
  let good := w.toNat.testBit 0 = true ∧ bits w.toNat 16 16 = 0x5752 ∧ (secureCore src = true ∨ bar0 src = true);
  (good) ∧ (s.dev.sup.fuse.isSome = true))) (sup (fun x => { x with fuse := some (.svn 1, 0) }) base) core0 0x57520001) ∧
    ((fun (s : State) (src : Src) (w : Word) => (Reaches s src Reg.RST_CTL_at) ∧ (s.dev.sup.warm = none) ∧ (
  let good := w.toNat.testBit 0 = true ∧ bits w.toNat 16 16 = 0x5752 ∧ (secureCore src = true ∨ bar0 src = true);
  (¬ good))) base core0 0x57520000) ∧
    ((fun (s : State) (t0 : Nat) => (Live s) ∧ (s.dev.sup.warm = some t0) ∧ (t0 + 80000 ≤ s.dev.up) ∧
      (s.dev.sup.lowTill ≤ s.dev.up)) (upTo 80000 (sup (fun x => { x with warm := some 0 }) base)) 0) ∧
    ((fun (s : State) (_rail : Fin 6) => (s.dev.sup.held = true) ∧
      (s.dev.sup.vin = true)) (sup (fun x => { x with vin := true }) State.reset) 2) := by
  refine ⟨?_, ?_, ?_, ?_, ?_, ?_, ?_, ?_, ?_, ?_, ?_, ?_, ?_, ?_⟩ <;> decide +kernel

theorem test_boot_verifies_and_releases_hypotheses :
    ((fun (s : State) (_flash : Option (Image × Image)) (_drbgOk : Bool) (_ok : Fin 4) => (Live s) ∧ (s.dev.sup.rom = true) ∧ (
  let lock := s.dev.bit Reg.TB_STAT_LOCK;
  (s.dev.sup.warm = none) ∧ (lock = false) ∧ (s.dev.sup.romAt + 4000000 ≤ s.dev.up))) (upTo 4000000 (rom 0)) none true 0) ∧
    ((fun (s : State) (_flash : Option (Image × Image)) (_drbgOk : Bool) (_ok : Fin 4) => (Live s) ∧ (s.dev.sup.rom = true) ∧ (
  let lock := s.dev.bit Reg.TB_STAT_LOCK;
  (s.dev.sup.warm = none) ∧ (lock = false) ∧ (s.dev.up < s.dev.sup.romAt + 4000000))) (upTo 3999999 (rom 0)) none true 0) ∧
    ((fun (s : State) (_flash : Option (Image × Image)) (_drbgOk : Bool) (_ok : Fin 4) => (Live s) ∧ (s.dev.sup.rom = true) ∧ (
  let lock := s.dev.bit Reg.TB_STAT_LOCK;
  let lc := s.dev.fuse.lc;
  (s.dev.sup.warm = none) ∧ (lock = true) ∧ ((lc = 0 ∨ 4 ≤ lc)))) (fuses (fun x => { x with lc := 4 }) (rom 1)) none true 0) ∧
    ((fun (s : State) (_flash : Option (Image × Image)) (drbgOk : Bool) (_ok : Fin 4) => (Live s) ∧ (s.dev.sup.rom = true) ∧ (
  let lock := s.dev.bit Reg.TB_STAT_LOCK;
  let lc := s.dev.fuse.lc;
  (s.dev.sup.warm = none) ∧ (lock = true) ∧ (1 ≤ lc) ∧ (lc ≤ 3) ∧ (drbgOk = false))) (rom 1) none false 0) ∧
    ((fun (s : State) (_flash : Option (Image × Image)) (drbgOk : Bool) (ok : Fin 4) => (Live s) ∧ (s.dev.sup.rom = true) ∧ (
  let lock := s.dev.bit Reg.TB_STAT_LOCK;
  let lc := s.dev.fuse.lc;
  ((s.dev.sup.warm.isSome = true ∨ (lock = true ∧ 1 ≤ lc ∧ lc ≤ 3 ∧ drbgOk = true))) ∧ (ok.1.testBit 0 = true) ∧
      (s.dev.f (Reg.PWR_QTAG_STATE 8) ≠ 0))) (puts [(Reg.PWR_QTAG_STATE 8, 1)] (fuses (fun x => { x with lc := 3 }) (rom 1))) none true 1) ∧
    ((fun (s : State) (src : Src) (_w : Word) (_ok : Bool) => (Reaches s src Reg.RST_RELEASE_at)) base core0 0x20 true) ∧
    ((fun (s : State) (src : Src) (_w : Word) => (Reaches s src Reg.RST_SVN_REQ_at)) base core0 0x53560003) ∧
    ((fun (s : State) => (Live s) ∧ (s.dev.sup.rom = true) ∧ (s.dev.sup.warm = none) ∧ (s.dev.bit Reg.TB_STAT_LOCK = false) ∧
      (s.dev.bit Reg.TB_STAT_HOLD = false) ∧ (s.dev.sup.romAt + 4000000 ≤ s.dev.up)) (upTo 4000000 (rom 0))) := by
  refine ⟨?_, ?_, ?_, ?_, ?_, ?_, ?_, ?_⟩ <;> decide +kernel

theorem test_gnotar_answers_the_wire_hypotheses :
    ((fun (s : State) => (Live s)) base) ∧
    ((fun (s : State) (req : Nat) (crc : Nat) (_w : Word) => (Live s) ∧ (s.dev.bit Reg.DBG_STAT_ACTIVE = true) ∧ (crc ≠ crc8 (beBytes 1 req)) ∧
      (bits req 6 2 ≠ 2)) closed 0 1 0) ∧
    ((fun (s : State) (req : Nat) (crc : Nat) (w : Word) => (Live s) ∧ (s.dev.bit Reg.DBG_STAT_ACTIVE = true) ∧
      (crc ≠ crc8 (beBytes 1 req ++ beBytes 4 w.toNat))) closed 0 1 0) ∧
    ((fun (s : State) (req : Nat) (crc : Nat) (_w : Word) => (Live s) ∧ (s.dev.bit Reg.DBG_STAT_ACTIVE = true) ∧ (crc = crc8 (beBytes 1 req)) ∧
      (bits req 6 2 = 1) ∧ (bits req 0 6 = 0)) closed 0x40 (crc8 [0x40]) 0) ∧
    ((fun (s : State) (req : Nat) (crc : Nat) (_w : Word) => (Live s) ∧ (s.dev.bit Reg.DBG_STAT_ACTIVE = true) ∧ (crc = crc8 (beBytes 1 req)) ∧
      (bits req 6 2 = 1) ∧ (s.dev.dpOpen (bits req 0 6) = false)) closed 0x48 (crc8 [0x48]) 0) ∧
    ((fun (s : State) (req : Nat) (crc : Nat) (w : Word) => (Live s) ∧ (s.dev.bit Reg.DBG_STAT_ACTIVE = true) ∧
      (crc = crc8 (beBytes 1 req ++ beBytes 4 w.toNat)) ∧ (bits req 6 2 = 2) ∧
      (s.dev.dpOpen (bits req 0 6) = false)) closed 0x88 (crc8 (0x88 :: leBytes 4 0)) 0) ∧
    ((fun (s : State) (req : Nat) (crc : Nat) (w : Word) => (Live s) ∧ (s.dev.bit Reg.DBG_STAT_ACTIVE = true) ∧
      (crc = crc8 (beBytes 1 req ++ beBytes 4 w.toNat)) ∧ (bits req 6 2 = 2) ∧ (s.dev.dpOpen (bits req 0 6) = true) ∧
      (s.dev.dpShut (bits req 0 6) = false) ∧
      (bits req 0 6 = 0x08)) (debug (fun x => { x with addr := 0xFF00000000 })) 0x88 (crc8 (0x88 :: beBytes 4 0x10000101)) 0x10000101) ∧
    ((fun (s : State) (req : Nat) (crc : Nat) (w : Word) => (Live s) ∧ (s.dev.bit Reg.DBG_STAT_ACTIVE = true) ∧
      (crc = crc8 (beBytes 1 req ++ beBytes 4 w.toNat)) ∧ (bits req 6 2 = 2) ∧ (s.dev.dpOpen (bits req 0 6) = true) ∧
      (s.dev.dpShut (bits req 0 6) = false) ∧
      (bits req 0 6 = 0x09)) (debug (fun x => { x with addr := 4 })) 0x89 (crc8 (0x89 :: beBytes 4 0xFFFFFFFF)) 0xFFFFFFFF) ∧
    ((fun (s : State) (req : Nat) (crc : Nat) (w : Word) => (Live s) ∧ (s.dev.bit Reg.DBG_STAT_ACTIVE = true) ∧
      (crc = crc8 (beBytes 1 req ++ beBytes 4 w.toNat)) ∧ (bits req 6 2 = 2) ∧ (s.dev.dpOpen (bits req 0 6) = true) ∧
      (s.dev.dpShut (bits req 0 6) = false) ∧ (bits req 0 6 = 0x0E) ∧ (bits w.toNat 0 3 ≤ 5) ∧
      (bits w.toNat 3 3 ≤ 5)) (debug id) 0x8E (crc8 (0x8E :: beBytes 4 45)) 45) ∧
    ((fun (s : State) (req : Nat) (crc : Nat) (w : Word) => (Live s) ∧ (s.dev.bit Reg.DBG_STAT_ACTIVE = true) ∧
      (crc = crc8 (beBytes 1 req ++ beBytes 4 w.toNat)) ∧ (bits req 6 2 = 2) ∧ (s.dev.dpOpen (bits req 0 6) = true) ∧
      (s.dev.dpShut (bits req 0 6) = false) ∧ (bits req 0 6 = 0x12)) (debug id) 0x92 (crc8 (0x92 :: beBytes 4 7)) 7) ∧
    ((fun (s : State) (req : Nat) (crc : Nat) (w : Word) => (Live s) ∧ (s.dev.bit Reg.DBG_STAT_ACTIVE = true) ∧
      (crc = crc8 (beBytes 1 req ++ beBytes 4 w.toNat)) ∧ (bits req 6 2 = 2) ∧ (s.dev.dpOpen (bits req 0 6) = true) ∧
      (s.dev.dpShut (bits req 0 6) = false) ∧
      (bits req 0 6 = 0x14)) (debug (fun x => { x with fuseData := [1] })) 0x94 (crc8 (0x94 :: beBytes 4 3)) 3) ∧
    ((fun (s : State) (req : Nat) (crc : Nat) (w : Word) => (Live s) ∧ (s.dev.bit Reg.DBG_STAT_ACTIVE = true) ∧
      (crc = crc8 (beBytes 1 req ++ beBytes 4 w.toNat)) ∧ (bits req 6 2 = 2) ∧ (s.dev.dpOpen (bits req 0 6) = true) ∧
      (s.dev.dpShut (bits req 0 6) = false) ∧
      (bits req 0 6 = 0x15)) (debug (fun x => { x with fuseData := [1] })) 0x95 (crc8 (0x95 :: beBytes 4 0xFFFFFFFF)) 0xFFFFFFFF) ∧
    ((fun (s : State) (req : Nat) (crc : Nat) (_w : Word) => (Live s) ∧ (s.dev.bit Reg.DBG_STAT_ACTIVE = true) ∧ (crc = crc8 (beBytes 1 req)) ∧
      (bits req 6 2 = 3)) closed 0xC0 (crc8 [0xC0]) 0) ∧
    ((fun (s : State) (_req : Nat) (_crc : Nat) (_w : Word) => (Live s) ∧ (s.dev.bit Reg.DBG_STAT_ACTIVE = true)) closed 0 0 0) ∧
    ((fun (s : State) (_w : Word) (x : _) => (Live s) ∧ (s.dev.bit Reg.DBG_STAT_ACTIVE = true) ∧ (s.dev.memScope = true) ∧
      (s.dev.dbg.memErr = false) ∧ (s.dev.dbg.got = some x)) (debug (fun x => { x with got := some 7 })) 0 7) ∧
    ((fun (s : State) (_w : Word) => (Live s) ∧ (s.dev.bit Reg.DBG_STAT_ACTIVE = true) ∧ (s.dev.memScope = true) ∧ (s.dev.dbg.memErr = false) ∧
      (s.dev.dbg.got = none) ∧ (s.dev.dbg.acc = none)) (debug id) 0) ∧
    ((fun (s : State) (_w : Word) => (Live s) ∧ (s.dev.bit Reg.DBG_STAT_ACTIVE = true) ∧ (s.dev.memScope = true) ∧ (s.dev.dbg.memErr = false) ∧
      (s.dev.dbg.acc = none)) (debug id) 0) ∧
    ((fun (s : State) (_w : Word) => (Live s) ∧ (s.dev.bit Reg.DBG_STAT_ACTIVE = true) ∧ (s.dev.memScope = true) ∧ (s.dev.dbg.memErr = false) ∧
      (s.dev.dbg.acc.isSome = true)) (debug (fun x => { x with acc := some ⟨false, false, 0, 0⟩ })) 0) ∧
    ((fun (s : State) (a : DbgAcc) (t_ : Nat) => (Clean s) ∧ (s.dev.dbg.acc = some a) ∧ (inSram a.addr = true) ∧
      (Permitted s ⟨14, a.secure, 0⟩ (if a.write then .write else .read) a.addr t_) ∧
      (s.dev.serves a.addr = true)) (grants 1 (debug (fun x => { x with acc := some ⟨true, true, 0x10000000, 7⟩ }))) (⟨true, true,
      0x10000000, 7⟩) 1) := by
  refine ⟨?_, ?_, ?_, ?_, ?_, ?_, ?_, ?_, ?_, ?_, ?_, ?_, ?_, ?_, ?_, ?_, ?_, ?_, ?_⟩ <;> decide +kernel

theorem test_gnotar_sessions_and_control_hypotheses :
    ((fun (s : State) => (Live s) ∧ (s.dev.bit Reg.DBG_STAT_ACTIVE = true) ∧ (s.dev.dbg.verify = none)) closed) ∧
    ((fun (s : State) => (Live s) ∧ (s.dev.bit Reg.DBG_STAT_ACTIVE = true) ∧
      (s.dev.dbg.verify.isSome = true)) (debug (fun x => { x with verify := some (0, [], 0, 0) }))) ∧
    ((fun (s : State) => (Live s) ∧ (s.dev.bit Reg.DBG_STAT_ACTIVE = true)) (debug id)) ∧
    ((fun (s : State) => (Live s) ∧ (s.dev.bit Reg.DBG_STAT_ACTIVE = true)) closed) ∧
    ((fun (s : State) (t0 : Nat) (chal : Nat) (bar : Nat) (cert : List Nat) => (Live s) ∧ (s.dev.dbg.verify = some (t0, cert, chal, bar)) ∧
      ((bar = 0 → s.dev.judgeCert cert chal ≠ 1)) ∧ (bar ≠ 1)) (debug (fun x => { x with verify := some (0, [], 0, 0) })) 0 0 0 ([])) ∧
    ((fun (s : State) (m : Fin 64) => (Live s) ∧ (s.dev.bit Reg.DBG_STAT_ACTIVE = true) ∧ (
  let named (n : Fin 6) : Prop := m.1.testBit n.1 = true;
  ((∀ n, named n → s.dev.haltAsk n = true ∧ s.dev.haltAllowed n = true ∧
      (s.dev.cores[n]).held = false)))) (inCore 5 (fun c => { c with held := false }) (debug id)) 0x20) ∧
    ((fun (s : State) (m : Fin 64) => (Live s) ∧ (s.dev.bit Reg.DBG_STAT_ACTIVE = true) ∧ (
  let named (n : Fin 6) : Prop := m.1.testBit n.1 = true;
  ((∀ n, named n → s.dev.resumeAsk n = true)))) (halted 5) 0x20) ∧
    ((fun (s : State) (m : Fin 64) => (Live s) ∧ (s.dev.bit Reg.DBG_STAT_ACTIVE = true) ∧ (
  let named (n : Fin 6) : Prop := m.1.testBit n.1 = true;
  ((∀ n, named n → s.dev.haltAllowed n = true ∧ (s.dev.cores[n]).halted.isSome = true)))) (halted 5) 0x20) ∧
    ((fun (s : State) => (Live s) ∧ (s.dev.bit Reg.DBG_STAT_ACTIVE = true) ∧ (s.dev.scope 5 = true) ∧ (s.dev.sup.warm = none) ∧
      (s.dev.sup.fuse = none)) (debug id)) ∧
    ((fun (s : State) (n : Fin 6) (c : Fin 6) (addr : Nat) (kind : BpKind) (_pc : Nat) (b : Bp) => (Live s) ∧
      (s.dev.dbg.bps.find? (fun b => b.core == n.1 && b.comp == c.1) = some b) ∧ (s.dev.bpMatch n b addr kind = true) ∧
      (s.dev.haltAllowed n = true) ∧ (s.dev.coreRuns n = true)) (puts [(Reg.CORE_CTX_WORLD 3, 0)] (inCore 3 (fun c =>
      { c with held := false }) (debug (fun x => { x with bps := [⟨3, 5, 0x100, 3⟩] })))) 3 5 0x100 .read 0x77 (⟨3, 5, 0x100, 3⟩)) ∧
    ((fun (s : State) (k : Fin 4) => (Live s) ∧ (s.dev.bit Reg.DBG_STAT_ACTIVE = true) ∧ (s.dev.scope 7 = true) ∧ (s.dev.sup.fuse = none) ∧
      (bits s.dev.dbg.fuseSel 0 4 = k.1) ∧ ((s.dev.fuse.owner[k]).all (fun x => x == 0) = true) ∧
      (12 ≤ s.dev.dbg.fuseData.length)) (fuses (fun x => { x with owner := Vector.replicate 4 [0], lc := 1 }) (debug (fun x =>
      { x with fuseSel := 3, fuseData := List.range 12 }))) 3) ∧
    ((fun (s : State) => (Live s) ∧ (s.dev.bit Reg.DBG_STAT_ACTIVE = true) ∧ (s.dev.scope 7 = true) ∧ (s.dev.sup.fuse = none) ∧
      (bits s.dev.dbg.fuseSel 0 4 = 15) ∧ (s.dev.fuse.lc = 0)) (fuses (fun x => { x with lc := 0 }) (debug (fun x =>
      { x with fuseSel := 15 })))) ∧
    ((fun (s : State) (_w : Word) => (Live s) ∧ (s.dev.bit Reg.DBG_STAT_ACTIVE = true) ∧ (s.dev.scope 6 = true) ∧
      (s.dev.sup.fuse = none)) (debug id) 0x52540000) := by
  refine ⟨?_, ?_, ?_, ?_, ?_, ?_, ?_, ?_, ?_, ?_, ?_, ?_, ?_⟩ <;> decide +kernel

theorem test_events_are_routed_hypotheses :
    ((fun (s : State) (src : Src) (i : Fin 96) (w : Word) => (Reaches s src (Reg.EVT_ROUTE_at i.1)) ∧ (secureCore src = true) ∧
      (bits w.toNat 0 2 < 3) ∧ (s.dev.routeBad i.1 (bits w.toNat 0 2) (bits w.toNat 2 3) (bits w.toNat 6 6) (bits w.toNat 12 6) = false))
      base core0 95 0x3F080) ∧
    ((fun (s : State) (src : Src) (i : Fin 96) (_w : Word) => (Reaches s src (Reg.EVT_ROUTE_at i.1)) ∧
      ((routeWriter src = false ∨ (bar0 src = true ∧ s.dev.f (Reg.EVT_ROUTE_KIND i.1) = 1)))) plain0 normal0 95 0) ∧
    ((fun (s : State) (src : Src) (w : Fin 3) (_x : Word) => (Reaches s src (Reg.EVT_EN_at w.1))) base core0 2 0x7FFFFFFF) ∧
    ((fun (s : State) (src : Src) (_w : Word) => (Reaches s src Reg.EVT_SWI_at)) base core0 0xFF) := by
  refine ⟨?_, ?_, ?_, ?_⟩ <;> decide +kernel

theorem test_lane_writes_need_idle_channels_hypotheses :
    ((fun (s : State) (src : Src) (v : Fin 16) (w : Word) (i : Instr) => (Reaches s src (Reg.LANE_CTL_at v.1)) ∧ (Clean s) ∧
      (((i = .laneDisable src v w ∧ w.toNat.testBit 0 = false) ∨ (i = .retrain src v w ∧ w.toNat.testBit 0 = true ∧
      w.toNat.testBit 1 = true) ∨ (i = .laneEnable src v w ∧ w.toNat.testBit 0 = true ∧ w.toNat.testBit 1 = true ∧
      s.dev.bit (Reg.LANE_CTL_EN v.1) = false))) ∧
      (s.dev.allIdle v = false)) (running .run 1 15 (lane5 1)) core0 1 0 (.laneDisable core0 1 0)) ∧
    ((fun (s : State) (src : Src) (v : Fin 16) (w : Word) (i : Instr) => (Reaches s src (Reg.LANE_CTL_at v.1)) ∧ (Clean s) ∧
      (((i = .laneDisable src v w ∧ w.toNat.testBit 0 = false) ∨ (i = .retrain src v w ∧ w.toNat.testBit 0 = true ∧
      w.toNat.testBit 1 = true) ∨ (i = .laneEnable src v w ∧ w.toNat.testBit 0 = true ∧ w.toNat.testBit 1 = true ∧
      s.dev.bit (Reg.LANE_CTL_EN v.1) = false))) ∧ (s.dev.allIdle v = true)) (lane5 15) core0 15 3 (.retrain core0 15 3)) := by
  refine ⟨?_, ?_⟩ <;> decide +kernel

theorem test_loads_clear_comparators_and_captures_hypotheses :
    ((fun (s : State) (src : Src) (_w : Word) => (Reaches s src Reg.TB_LOAD_HI_at) ∧ (Clean s) ∧ (s.dev.bit Reg.TB_STAT_LOADED = false) ∧
      (s.dev.everyIdle = true)) (puts [(Reg.LANE_STAT_KLATCH 0, 0)] base) core0 1) ∧
    ((fun (s : State) (i : Fin 16) => (Clean s) ∧ (s.dev.bit (Reg.TB_CMP_CTL_ARMED i.1) = true) ∧
      (s.dev.ptp.cmpAt[i] ≠ s.dev.now)) (puts [(Reg.TB_CMP_CTL_ARMED 15, 1)] (at_ 5 base)) 15) := by
  refine ⟨?_, ?_⟩ <;> decide +kernel

theorem test_log_entries_are_never_refused_hypotheses :
    ((fun (s : State) (src : Src) (w : Word) (e : _) => (Reaches s src Reg.EVT_LOG_SEL_at) ∧ (Clean s) ∧ (
  let n := sdiff32 (s.dev.f Reg.EVT_LOG_PI_VALUE) w.toNat;
  (0 < n) ∧ (n ≤ 4096) ∧ (s.dev.evlog[n.toNat - 1]? = some e))) (dv (fun d => d.log 1 79 2 3) base) core0 0 (⟨1, 79, 2, 3, 0⟩)) ∧
    ((fun (s : State) (src : Src) (w : Word) => (Reaches s src Reg.EVT_LOG_SEL_at) ∧ (Clean s) ∧ (
  let n := sdiff32 (s.dev.f Reg.EVT_LOG_PI_VALUE) w.toNat;
  ((n ≤ 0 ∨ 4096 < n)))) base core0 0) ∧
    ((fun (s : State) (src : Src) (w : Word) => (Reaches s src Reg.EVT_LOG_CI_at) ∧ (Clean s) ∧
      (consumerOk (s.dev.f Reg.EVT_LOG_PI_VALUE) (s.dev.f Reg.EVT_LOG_CI_VALUE) w.toNat = true)) (dv (fun d => d.log 1 79 2 3) base) core0
      1) ∧
    ((fun (s : State) (src : Src) (w : Word) => (Reaches s src Reg.EVT_LOG_CI_at) ∧ (Clean s) ∧
      (consumerOk (s.dev.f Reg.EVT_LOG_PI_VALUE) (s.dev.f Reg.EVT_LOG_CI_VALUE) w.toNat = false) ∧ (s.dev.logFill < 4096)) base core0 1) := by
  refine ⟨?_, ?_, ?_, ?_⟩ <;> decide +kernel

/-- RegisterWritesByTypeAndInPairs, written fields: the last word of the slices' window has RW fields. -/
theorem test_register_writes_fields :
    (Reg.row (Reg.SLC_STATE_at 63)).any (fun row => row.fields.any (fun f =>
      decide (Reg.SLC_STATE_at 63 < 0x20004000 ∨ 0x20004800 ≤ Reg.SLC_STATE_at 63) && (f.ty == .rw || f.ty == .ro))) = true := by
  decide +kernel

/-- RegisterWritesByTypeAndInPairs, REGISTER_WRITE: a whole RW register of the auxiliary switches. -/
theorem test_register_write_hypotheses :
    (Reaches base core0 (Reg.AUX_NCFG_at 23)) ∧ inSetup (Reg.AUX_NCFG_at 23) = true ∧ PlainReg base core0 (Reg.AUX_NCFG_at 23) 0 ∧
    (Reg.row (Reg.AUX_NCFG_at 23)).any (fun row => row.fields.any (fun f => f.ty == .rw && f.admits (bits 0 f.lo f.w)) &&
      row.fields.all (fun g => decide (base.dev.verdict (Reg.AUX_NCFG_at 23) 0 g = .act))) = true := by
  refine ⟨by decide +kernel, by decide +kernel, by unfold PlainReg; decide +kernel, by decide +kernel⟩

/-- AuxFaultsAndWarnings, SHORT: an ON switch. -/
theorem test_aux_faults_short : (auxIn 2 id).dev.auxOn 23 = true ∧ (auxIn 2 id).dev.auxSt 23 = 2 := by
  decide +kernel

/-- GnotarAnswersTheWire, COREREG: a halted core whose register 5 is known. -/
theorem test_gnotar_core_registers :
    Live (halted 5) ∧ (halted 5).dev.bit Reg.DBG_STAT_ACTIVE = true ∧ ((halted 5).dev.cores[(halted 5).dev.selCore]).halted.isSome = true ∧
    (halted 5).dev.haltAllowed (halted 5).dev.selCore = true ∧
    ((halted 5).dev.cores[(halted 5).dev.selCore]).gpr.find? (fun e => e.1 == (halted 5).dev.dbg.cregSel) = some (5, 9) := by
  refine ⟨?_, ?_, ?_, ?_, ?_⟩ <;> decide +kernel

/-- SupplyWarningOnlyWarns at the ends of its ranges: WARN is 3000 mV. -/
theorem test_supply_warning_only_warns :
    Live base ∧ Clean base ∧ 2999 < 10 * base.dev.f Reg.PWR_VIN_CFG_WARN ∧ 10 * base.dev.f Reg.PWR_VIN_CFG_WARN ≤ 3000 ∧
    10 * base.dev.f Reg.PWR_VIN_CFG_WARN + 100 ≤ 3100 ∧ 3099 < 10 * base.dev.f Reg.PWR_VIN_CFG_WARN + 100 := by
  decide +kernel

/-- LogEntriesAreNeverRefused: a full log, and one with room for one entry. -/
theorem test_log_full_or_not :
    (puts [(Reg.EVT_LOG_PI_VALUE, 4096)] base).dev.logFill = 4096 ∧ (puts [(Reg.EVT_LOG_PI_VALUE, 4095)] base).dev.logFill < 4096 := by
  decide +kernel

/-- EveryStepKeepsTheInvariant. -/
theorem test_every_step_keeps_the_invariant : State.reset.Inv := ⟨by decide, by decide, by decide⟩

/-- EventsAreRouted, SOFTWARE_EVENT: source 89 enabled and routed to core 5's secure world. -/
theorem test_software_event_to_a_core :
    let s := puts [(Reg.EVT_EN_SRC 2, 2 ^ 25), (Reg.EVT_ROUTE_KIND 89, 1), (Reg.EVT_ROUTE_CORE 89, 5), (Reg.EVT_ROUTE_SEC 89, 1)] base
    Reaches s core0 Reg.EVT_SWI_at ∧ s.dev.tb (Reg.EVT_EN_SRC 2) (18 + 7) = true ∧ s.dev.f (Reg.EVT_ROUTE_KIND (82 + 7)) = 1 ∧
    (128 : Word).toNat.testBit 7 = true ∧ s.dev.coreLine 5 true = false := by
  decide +kernel

/-- Instruction words as R301 writes them out. -/
theorem test_gate_words :
    gateWord 0xE7100012 = .gate 0x12 ∧ gateWord 0xE7200000 = .gret ∧ gateWord 0xE7100100 = .undefined ∧ gateWord 0xE7200001 = .undefined ∧
    gateWord 0xE7300000 = .other := by
  decide

/-- Writes that a compared pair holds back (WriteDoes, WaitsForMatch): none held, one held alone with its match, one to be held. -/
theorem test_held_writes :
    (∀ a ∈ [Reg.MAD_HB_at, Reg.MAD_REQ_at, Reg.MAD_CFG_COMMIT_at, Reg.LS_TEST_at 0],
      base.dev.holds src4 a = false ∧ (coreOn 4 1).dev.holds src4 a = true ∧ (holding a 1).dev.checking 0 = true ∧
      (holding a 1).dev.testDue 0 = none ∧ Reaches (holding a 1) src4 a ∧
      ((holding a 1).dev.pairs[(0 : Fin 2)]).delay = [⟨txnVector (writeTxn src4 a 1), some (src4, a, 1)⟩] ∧
      maskVector (txnVector (writeTxn src4 a 1)) = maskVector (txnVector { writeTxn src4 a 1 with resp := 3 })) ∧
    src4.master = 4 ∧ ((coreOn 4 1).dev.pairs[(0 : Fin 2)]).delay = [] := by
  decide +kernel

/-- The frames: one command of each group in a clean state. -/
theorem test_frames :
    (netOwn .fabricRound).isSome = true ∧ (unitOwn (.vauxUndervoltage)).isSome = true ∧ (unitOwn (.gate 5 0xE71000FF 0)).isSome = true ∧
    (unitOwn (.gate 5 0xE7100100 0)).isSome = true ∧ vatOwn (.killEmit 15) = some 15 ∧ Clean base := by
  decide +kernel

/-- KeyStoreOutputsAndUpkeep, a wrong tag: whatever tag the message has, one of two commands carries another. -/
def tagRun (x : Nat) : MRun := ⟨⟨15, 4, List.replicate 12 0 ++ [x, 0, 0, 0], core0, false⟩, 5, 1, some (127, 0), false⟩
theorem test_key_store_wrong_tag : ∃ x,
    Live (mrun (tagRun x) keyed) ∧ Clean (mrun (tagRun x) keyed) ∧ (mrun (tagRun x) keyed).dev.mord.run = some (tagRun x) ∧
    (mrun (tagRun x) keyed).dev.mord.queue = [] ∧ (tagRun x).cmd.op = 4 ∧
    ((mrun (tagRun x) keyed).dev.memAccess core0 .read 0 0).2 = true ∧
    Config.gcmTag (keyBytes 1 5) (List.replicate 12 0) [] (Config.gcmPlain (keyBytes 1 5) (List.replicate 12 0) [] []) ≠
      (tagRun x).cmd.argBytes 12 4 := by
  by_cases h : Config.gcmTag (keyBytes 1 5) (List.replicate 12 0) [] (Config.gcmPlain (keyBytes 1 5) (List.replicate 12 0) [] []) =
      (tagRun 0).cmd.argBytes 12 4
  · refine ⟨1, by decide +kernel, by decide +kernel, rfl, by decide +kernel, rfl, by decide +kernel, ?_⟩
    rw [h]
    decide
  · exact ⟨0, by decide +kernel, by decide +kernel, rfl, by decide +kernel, rfl, by decide +kernel, h⟩
theorem test_key_store_wrong_tag_arguments :
    (tagRun 0).cmd.addr 4 = 0 ∧ (tagRun 0).cmd.arg 8 = 0 ∧ (tagRun 0).cmd.addr 9 = 0 ∧ (tagRun 0).cmd.arg 11 = 0 ∧
    (tagRun 0).cmd.argBytes 1 3 = List.replicate 12 0 := by
  decide

/-- A run of zero bytes. -/
def zeros (n : Nat) : List Byte := List.replicate n 0

/-- An image of one segment of one byte, all of whose checks but those of the free cryptographic functions pass. -/
def goodHeader : List Byte :=
  leBytes 4 0x494C5256 ++ leBytes 2 1 ++ leBytes 1 0 ++ leBytes 1 1 ++ leBytes 56 0 ++ leBytes 4 0x300 ++ leBytes 4 1 ++ leBytes 8 0x10000000 ++
  List.replicate 688 0
def goodImage : Image := ⟨goodHeader, [[7#8]]⟩
def badImage : Image := ⟨[], []⟩
def booting : State := sup (fun x => { x with vio := Vector.replicate 4 1800 }) (fuses (fun x => { x with owner := Vector.replicate 4 [], svnMin := 0, revoked := 0 }) (rom 1))

/-- BootVerifiesAndReleases: wherever the free hash and signature functions accept the image, it passes every check. -/
theorem test_boot_image_passes (h1 : Config.sha384 (zeros 96) = []) (h2 : Config.ecdsaVerify (zeros 96)
    (Config.sha384 (goodHeader.take 0x2A0)) (zeros 96) = true) (h3 : Config.sha384 [7#8] = zeros 48) :
    (booting.dev.tryImage goodImage).1 = 0 := by
  have e1 : imageFormat goodHeader = true := by decide +kernel
  have e2 : hdrBytes goodHeader 0x240 96 = zeros 96 := by decide +kernel
  have e3 : hdrBytes goodHeader 0x2A0 96 = zeros 96 := by decide +kernel
  have e4 : hdr goodHeader 6 1 = 0 ∧ hdr goodHeader 7 1 = 1 ∧ hdr goodHeader 8 4 = 0 ∧ hdr goodHeader 0xC 4 = 0 := by decide +kernel
  have e5 : segsOk goodHeader = true := by decide +kernel
  have e6 : segAt goodHeader 0 = (0x10000000, 1) ∧ hdrBytes goodHeader 0x50 48 = zeros 48 := by decide +kernel
  have e7 : booting.dev.fuse.revoked = 0 ∧ booting.dev.fuse.svnMin = 0 ∧ booting.dev.fuse.owner.toList.getD 0 [] = [] := by
    decide +kernel
  have e8 : wordBytes [] = [] := rfl
  have e9 : loadKey 268435456 1 = some 268435456 ∧ booting.dev.banksOn 268435456 1 = true := by decide +kernel
  simp only [Dev.tryImage, goodImage, e4, e7]
  simp [e8, e1, e2, e3, e5, e6, h1, h2, h3, e9, Dev.loadSegs, List.range_succ]
theorem test_boot_hypotheses :
    Live booting ∧ booting.dev.sup.rom = true ∧ booting.dev.sup.warm = none ∧ booting.dev.bit Reg.TB_STAT_LOCK = true ∧
    1 ≤ booting.dev.fuse.lc ∧ booting.dev.fuse.lc ≤ 3 ∧ (booting.dev.sup.vio[(1 : Fin 4)]) ≠ 0 ∧ (booting.dev.tryImage badImage).1 = 2 ∧
    booting.dev.f (Reg.PWR_QTAG_STATE 8) = 0 := by
  refine ⟨?_, ?_, ?_, ?_, ?_, ?_, ?_, ?_, ?_⟩ <;> decide +kernel

/-- GnotarSessionsAndControl, UNLOCK_RESULT: wherever the free functions accept the certificate, its session opens (a DEV part). -/
def goodCert : List Nat := [0x4B4C4E55, 0x02000001, 0, 0, 0xFF] ++ List.replicate 59 0
def judging : State :=
  dv (fun d => d.modDbg (fun x => { x with verify := some (0, goodCert, 0, 0) }))
    (fuses (fun x => { x with owner := Vector.replicate 4 [], revoked := 0, lc := 1 }) closed)
theorem test_gnotar_certificate_passes (h1 : Config.sha384 (zeros 96) = []) (h2 : Config.ecdsaVerify (zeros 96)
    (Config.sha384 ((wordBytes goodCert).take 0xA0)) (zeros 96) = true) :
    Live judging ∧ judging.dev.dbg.verify = some (0, goodCert, 0, 0) ∧ judging.dev.judgeCert goodCert 0 = 1 := by
  refine ⟨by decide +kernel, by decide +kernel, ?_⟩
  have e0 : wordBytes ((List.range 64).map (fun i => goodCert.getD i 0)) = wordBytes goodCert := by decide +kernel
  have e1 : hdr (wordBytes goodCert) 0 4 = 0x4B4C4E55 ∧ hdr (wordBytes goodCert) 4 2 = 1 ∧ hdr (wordBytes goodCert) 6 1 = 0 ∧
      hdr (wordBytes goodCert) 7 1 = 2 ∧ hdr (wordBytes goodCert) 8 8 = 0 ∧ hdr (wordBytes goodCert) 0x10 4 = 0xFF ∧
      hdr (wordBytes goodCert) 0x14 4 = 0 ∧ hdr (wordBytes goodCert) 0x18 16 = 0 ∧ hdr (wordBytes goodCert) 0x28 24 = 0 := by decide +kernel
  have e2 : hdrBytes (wordBytes goodCert) 0x40 96 = zeros 96 := by decide +kernel
  have e3 : hdrBytes (wordBytes goodCert) 0xA0 96 = zeros 96 := by decide +kernel
  have e4 : judging.dev.fuse.lc = 1 ∧ judging.dev.keyHash 0 = some [] := by decide +kernel
  simp only [Dev.judgeCert, e0]
  simp [e1, e2, e3, e4, h1, h2, scopeFor, (by decide : Nat.testBit 2 1 = true)]

/-- A rejected pulse of SRST_IN while the logic die is held is logged at its release (R390, R392). -/
theorem test_power_die_log_waits :
    (let x : Dev := { ({} : Dev).srstPulse 10 0 with now := 7 }
     (x.evlog.length, x.link.length, x.linkTake.evlog.map (fun e => (e.code, e.source, e.ts)), x.linkTake.link.length)) =
      (0, 1, [(0x0A, 62, 7)], 0) := by decide +kernel

/-- OT and then OVERLOAD of one instant: both counted, LAST shows OT (R364). -/
theorem test_aux_two_faults :
    (let d := (({} : Dev).setF (Reg.AUX_NSTAT_STATE 3) 2).setUp 4000000
     let x := (d.modAux 3 (fun a => { a with limAt := some 0 })).auxFault 3 3
     let y := x.auxOverload 3
     (y.f (Reg.AUX_FCNT_COUNT 3), y.f (Reg.AUX_NSTAT_LAST 3))) = (2, 3) := by decide +kernel

/-! ### Ill-formed commands are refused, one for each check -/

theorem test_wf_addresses :
    (Instr.narrowAccess core0 (2 ^ 40) true).wf = false ∧ (Instr.registerWrite core0 (2 ^ 40) 0).wf = false ∧
    (Instr.pairLowRead core0 (2 ^ 40)).wf = false ∧ (Instr.pairHighWrite core0 (2 ^ 40) 0).wf = false ∧
    (Instr.unmappedAccess core0 (2 ^ 40) true).wf = false ∧ (Instr.gate 0 0 (2 ^ 40)).wf = false ∧
    (Instr.secureInterrupt 0 (2 ^ 40)).wf = false ∧ (Instr.scrubPass 0 [0, 2 ^ 40]).wf = false ∧
    (Instr.breakpointHit 0 0 (2 ^ 40) .fetch 0).wf = false ∧ (Instr.breakpointHit 0 0 0 .fetch (2 ^ 40)).wf = false := by
  decide
theorem test_wf_sizes_and_data :
    (Instr.checkedAccess core0 .read (2 ^ 40) 4 0 .ok).wf = false ∧ (Instr.checkedAccess core0 .read 0 0 0 .ok).wf = false ∧
    (Instr.atomicAdd core0 0 65 0 .ok).wf = false ∧ (Instr.atomicSwap core0 0 4 (2 ^ 32) .ok).wf = false ∧
    (Instr.atomicSwap core0 0 4 (2 ^ 32 - 1) .ok).wf = true := by
  decide
theorem test_wf_lists :
    (Instr.governorWindow (List.replicate 9 0)).wf = false ∧ (Instr.nop 0 (List.replicate 15 0)).wf = false ∧
    (Instr.step 0 []).wf = false ∧ (Instr.stop 0 []).wf = false ∧ (Instr.flush 0 []).wf = false ∧ (Instr.abort 0 []).wf = false ∧
    (Instr.mark 0 []).wf = false ∧ (Instr.resume 0 []).wf = false ∧ (Instr.badOp 0 []).wf = false ∧
    (Instr.pauseReceive 0 true 255 [1]).wf = false ∧ (Instr.pauseReceive 0 true 256 (List.replicate 8 0)).wf = false ∧
    (Instr.pauseReceive 0 true 255 (List.replicate 8 65536)).wf = false ∧ (Instr.dissipationEstimate []).wf = false := by
  decide
theorem test_wf_wires :
    (Instr.iBlock 0 4 0 0).wf = false ∧ (Instr.iBlock 0 3 (2 ^ 64) 0).wf = false ∧ (Instr.iBlock 0 3 0 8).wf = false ∧
    (Instr.vBlock 0 4 0).wf = false ∧ (Instr.auxReport 0 0 0 8).wf = false ∧ (Instr.groupCheck 0 0 (2 ^ 64)).wf = false ∧
    (Instr.trnBlock 0 (2 ^ 64)).wf = false ∧ (Instr.canFrameReceive 0 ⟨0x800, false, false, false, false, false, 0, []⟩ ⟨0, []⟩).wf = false ∧
    (Instr.canFrameReceive 0 ⟨0, false, false, false, false, false, 16, []⟩ ⟨0, []⟩).wf = false ∧
    (Instr.canFrameReceive 0 ⟨0, false, false, true, false, false, 15, List.replicate 65 0⟩ ⟨0, []⟩).wf = false ∧
    (Instr.canFrameReceive 0 ⟨0x800, true, false, false, false, false, 0, []⟩ ⟨0, []⟩).wf = true := by
  decide
theorem test_wf_numbers :
    (Instr.consumerDoorbell 0 0 0x1000 (.read 4)).wf = false ∧ (Instr.ageOut 8192).wf = false ∧
    (Instr.lockstepCompare 0 [txn (2 ^ 40)] none false false 0).wf = false ∧
    (Instr.lockstepCompare 0 [] (some (txn (2 ^ 40))) false false 0).wf = false ∧
    (Instr.lockstepCompare 0 [{ txn 0 with wdata := 2 ^ 64 }] none false false 0).wf = false ∧
    (Instr.injectionTest 0 [{ txn 0 with be := 256 }] none false false 0).wf = false ∧
    (Instr.injectionTest 0 [] (some { txn 0 with resp := 2 ^ 64 }) false false 0).wf = false ∧ (Instr.auditPass [24576] 0).wf = false ∧
    (Instr.stateDigest 0 [] [] false false (2 ^ 204)).wf = false ∧
    (Instr.auditPass [] 256).wf = false ∧ (Instr.madderCycle 256 0 0 0).wf = false ∧
    (Instr.madderCycle 0 256 0 0).wf = false ∧ (Instr.madderCycle 0 0 16 0).wf = false ∧ (Instr.madderCycle 0 0 0 16).wf = false ∧
    (Instr.srstPulse 0 256).wf = false ∧ (Instr.rearmFeedback 16 0).wf = false ∧ (Instr.rearmFeedback 0 256).wf = false ∧
    (Instr.vinWarning 65536).wf = false ∧ (Instr.vinWarningClear 65536).wf = false ∧ (Instr.vioBankChange 0 65536).wf = false ∧
    (Instr.gnotarRead 256 0).wf = false ∧ (Instr.gnotarWrite 0 0 256).wf = false ∧ (Instr.gnotarClear 0 256).wf = false := by
  decide

end Sys2Proof.Tests
end

section
/-!
PROOF. A write of LANE_CTL that disables or retrains the lane waits for IDLE channels (R77): what the write does while some
channel is busy, and what it does once all are IDLE.
-/

namespace Sys2Proof.Machine
open Sys2Proof

/-! ### Memory that a meaning does not touch -/

/-- `e` posts no further memory write, loses no further contents, and counts no further loss. -/
structure Dev.SparesMem (d e : Dev) : Prop where
  wq : e.wq = d.wq
  lost : e.lost = d.lost
  ep : e.ep = d.ep

theorem Dev.SparesMem.trans {d e g : Dev} (h : Dev.SparesMem d e) (h' : Dev.SparesMem e g) : Dev.SparesMem d g :=
  ⟨h'.wq.trans h.wq, h'.lost.trans h.lost, h'.ep.trans h.ep⟩

theorem Dev.Reports.sparesMem {d e : Dev} (h : Dev.Reports d e) : Dev.SparesMem d e :=
  ⟨h.wq, h.lost, congrArg₂ Prod.mk h.vatEpoch h.dramEpoch⟩

theorem Dev.setF_sparesMem (d : Dev) (r : RF) (x : Nat) : Dev.SparesMem d (d.setF r x) := ⟨rfl, rfl, rfl⟩
theorem Dev.answer_sparesMem (d : Dev) (x : Nat) : Dev.SparesMem d (d.answer x) := ⟨rfl, rfl, rfl⟩
theorem Dev.modLane_sparesMem (d : Dev) (v : Fin 16) (g : Lane → Lane) : Dev.SparesMem d (d.modLane v g) := ⟨rfl, rfl, rfl⟩

/-- A meaning that spares the memory leaves every byte as it was (log entry 4). -/
theorem State.commit_sameMem {s : State} {d : Dev} (hs : Clean s) (h : Dev.SparesMem s.dev d) : SameMem s (s.commit d) := by
  have hmem : (s.commit d).mem = s.mem := s.commit_mem d (h.wq.trans hs.1) (h.lost.trans hs.2) h.ep
  have hep : (s.commit d).dev.ep = s.dev.ep := h.ep
  intro a
  rw [hmem, hep]

/-- A command of the released logic die answers with what it commits. -/
theorem Answers.of_done {i : Instr} {s : State} {d : Dev} {P : State → Prop} (hl : Live s) (he : exec i s = s.done d)
    (hP : P (s.commit d)) : Answers i s P :=
  ⟨s.commit d, he.trans (s.done_live d hl), rfl, hP⟩

/-! ### Register writes -/

/-- A write the guard lets through is answered and acts. -/
theorem Dev.onWrite_unguarded {d : Dev} {src : Src} {a : Nat} (h : (d.guard src a true).isNone = true) (act : Dev → Dev) :
    d.onWrite src a act = act (d.answer 0) := by
  unfold Dev.onWrite
  rw [Option.isNone_iff_eq_none.mp h]

theorem Dev.logRefused_reports (d : Dev) (src : Src) (a : Nat) : Dev.Reports d (d.logRefused src a) := Dev.log_same d _ _ _ _

theorem Dev.logR9_reports (d : Dev) (src : Src) (a : Nat) : Dev.Reports d (d.logR9 src a) :=
  (Dev.log_same d _ _ _ _).trans (Dev.pend_same _ _)

theorem Dev.writeField_reports (d : Dev) (base a w : Nat) (verdict : Verdict) (f : FieldRow) :
    Dev.Reports d (d.writeField base a w verdict f).1 := by
  unfold Dev.writeField
  dsimp only
  split
  · exact .rfl d
  · exact .rfl d
  · exact Dev.setF_same d _ _
  · split
    · exact Dev.setF_same d _ _
    · exact .rfl d
  · split
    · split
      · exact Dev.setF_same d _ _
      · exact .rfl d
    · exact .rfl d

theorem Dev.tryRow_reports (d : Dev) (a w : Nat) (pick : FieldRow → Verdict) : Dev.Reports d (d.tryRow a w pick).1 := by
  unfold Dev.tryRow
  split
  · exact .rfl d
  · rename_i row _
    exact List.foldlRecOn row.fields _ (motive := fun r : Dev × Verdict => Dev.Reports d r.1) (.rfl d)
      (fun r hr f _ => hr.trans (r.1.writeField_reports row.base a w (pick f) f))

/-- Writing a register's fields by type changes registers and reports, nothing else (R6, R9). -/
theorem Dev.writeRowWith_reports (d : Dev) (src : Src) (a w : Nat) (pick : FieldRow → Verdict) :
    Dev.Reports d (d.writeRowWith src a w pick) := by
  have htry := d.tryRow_reports a w pick
  unfold Dev.writeRowWith
  dsimp only
  split
  · exact htry.trans (Dev.logRefused_reports _ src a)
  · exact htry.trans (Dev.logR9_reports _ src a)
  · exact htry

theorem Dev.writeRest_reports (d : Dev) (src : Src) (a w : Nat) (own : List Nat) : Dev.Reports d (d.writeRest src a w own) :=
  d.writeRowWith_reports src a w _

/-- A field at another address keeps its value. -/
theorem Dev.f_setF_addr_ne (d : Dev) {r r' : RF} (x : Nat) (h : r'.addr ≠ r.addr) (hl : r.lo < 32) (hl' : r'.lo < 32) :
    (d.setF r x).f r' = d.f r' := Dev.f_setF_ne d x (RF.key_ne h hl hl')

/-- A field at another bit keeps its value. -/
theorem Dev.f_setF_lo_ne (d : Dev) {r r' : RF} (x : Nat) (h : r'.lo ≠ r.lo) (hl : r.lo < 32) (hl' : r'.lo < 32) :
    (d.setF r x).f r' = d.f r' := Dev.f_setF_ne d x (RF.key_ne_lo h hl hl')

@[simp] theorem Dev.modLane_f (d : Dev) (v : Fin 16) (g : Lane → Lane) (r : RF) : (d.modLane v g).f r = d.f r := rfl

/-! ### The lane's entry into OFF and LOCK (R72) -/

/-- Abandoning CFG traffic changes the lane, and ends firmware's own request if there was one (R62). -/
theorem Dev.abandonCfg_cases (d : Dev) (v : Fin 16) : ∃ g : Lane → Lane, d.abandonCfg v = d.modLane v g ∨
    d.abandonCfg v = ((d.modLane v g).setF (Reg.LANE_BREG_CTL_BUSY v.1) 0).setF (Reg.LANE_BREG_CTL_RESULT v.1) 3 :=
  ⟨_, (ite_eq_or_eq _ _ _).symm⟩

theorem Dev.abandonCfg_sparesMem (d : Dev) (v : Fin 16) : Dev.SparesMem d (d.abandonCfg v) := by
  obtain ⟨g, h | h⟩ := d.abandonCfg_cases v
  · rw [h]; exact Dev.modLane_sparesMem d v g
  · rw [h]; exact ((Dev.modLane_sparesMem d v g).trans (Dev.setF_sparesMem _ _ _)).trans (Dev.setF_sparesMem _ _ _)

theorem Dev.leaveService_sparesMem (d : Dev) (v : Fin 16) : Dev.SparesMem d (d.leaveService v) :=
  ((Dev.setF_sparesMem d _ _).trans (Dev.setF_sparesMem _ _ _)).trans (Dev.abandonCfg_sparesMem _ v)

theorem Dev.enterOff_sparesMem (d : Dev) (v : Fin 16) : Dev.SparesMem d (d.enterOff v) :=
  (d.leaveService_sparesMem v).trans ⟨rfl, rfl, rfl⟩

theorem Dev.enterLock_sparesMem (d : Dev) (v : Fin 16) : Dev.SparesMem d (d.enterLock v) :=
  (d.leaveService_sparesMem v).trans ⟨rfl, rfl, rfl⟩

/-- Abandoned CFG traffic shows in LANE_BREG_CTL alone (R62). -/
theorem Dev.f_abandonCfg (d : Dev) (v : Fin 16) {r : RF} (hl : r.lo < 32) (h : r.addr ≠ Reg.LANE_BREG_CTL_at v.1) :
    (d.abandonCfg v).f r = d.f r := by
  obtain ⟨g, he | he⟩ := d.abandonCfg_cases v
  · rw [he, Dev.modLane_f]
  · rw [he, Dev.f_setF_addr_ne (r := Reg.LANE_BREG_CTL_RESULT v.1) _ _ h (show 11 < 32 by decide) hl,
      Dev.f_setF_addr_ne (r := Reg.LANE_BREG_CTL_BUSY v.1) _ _ h (show 10 < 32 by decide) hl, Dev.modLane_f]

/-- Leaving service does not write LANE_CTL. -/
theorem Dev.leaveService_en (d : Dev) (v : Fin 16) :
    (d.leaveService v).f (Reg.LANE_CTL_EN v.1) = d.f (Reg.LANE_CTL_EN v.1) := by
  have hlo : (Reg.LANE_CTL_EN v.1).lo < 32 := show 0 < 32 by decide
  have hcfg : Reg.LANE_CTL_at v.1 ≠ Reg.LANE_BREG_CTL_at v.1 := by simp only [Reg.LANE_CTL_at, Reg.LANE_BREG_CTL_at]; omega
  have havail : Reg.LANE_CTL_at v.1 ≠ Reg.SYS_CHAN_AVAIL_at (v.1 / 2) := by simp only [Reg.LANE_CTL_at, Reg.SYS_CHAN_AVAIL_at]; omega
  have hstat : Reg.LANE_CTL_at v.1 ≠ Reg.VAT_STAT_at v.1 := by simp only [Reg.LANE_CTL_at, Reg.VAT_STAT_at]; omega
  unfold Dev.leaveService Dev.setAvail
  rw [Dev.f_abandonCfg _ v hlo hcfg,
    Dev.f_setF_addr_ne (r := Reg.SYS_CHAN_AVAIL_CH (v.1 / 2)) _ _ havail (show 0 < 32 by decide) hlo,
    Dev.f_setF_addr_ne (r := Reg.VAT_STAT_IN_SERVICE v.1) _ _ hstat (show 0 < 32 by decide) hlo]

/-- The lane's entry into a state with both locks lost. -/
def Dev.unlocked (d : Dev) (v : Fin 16) (st : Nat) : Dev :=
  (((d.leaveService v).setF (Reg.LANE_STAT_STATE v.1) st).setF (Reg.LANE_STAT_UP_LOCK v.1) 0).setF (Reg.LANE_STAT_BRD_LOCK v.1) 0

theorem Dev.enterOff_eq (d : Dev) (v : Fin 16) : d.enterOff v = (d.unlocked v laneOff).modLane v Lane.fresh := rfl

theorem Dev.enterLock_f (d : Dev) (v : Fin 16) (r : RF) :
    (d.enterLock v).f r = ((d.unlocked v laneLock).setF (Reg.VAT_VBUS_VBUS v.1) 0).f r := rfl

theorem Dev.unlocked_laneState (d : Dev) (v : Fin 16) {st : Nat} (h : st < 8) : (d.unlocked v st).laneState v = st := by
  have hlo : (Reg.LANE_STAT_STATE v.1).lo < 32 := show 0 < 32 by decide
  unfold Dev.laneState Dev.unlocked
  rw [Dev.f_setF_lo_ne (r := Reg.LANE_STAT_BRD_LOCK v.1) _ _ (show 0 ≠ 4 by decide) (show 4 < 32 by decide) hlo,
    Dev.f_setF_lo_ne (r := Reg.LANE_STAT_UP_LOCK v.1) _ _ (show 0 ≠ 3 by decide) (show 3 < 32 by decide) hlo, Dev.f_setF_same]
  exact Nat.mod_eq_of_lt h

theorem Dev.unlocked_en (d : Dev) (v : Fin 16) (st : Nat) :
    (d.unlocked v st).f (Reg.LANE_CTL_EN v.1) = d.f (Reg.LANE_CTL_EN v.1) := by
  have hlo : (Reg.LANE_CTL_EN v.1).lo < 32 := show 0 < 32 by decide
  have hstat : Reg.LANE_CTL_at v.1 ≠ Reg.LANE_STAT_at v.1 := by simp only [Reg.LANE_CTL_at, Reg.LANE_STAT_at]; omega
  unfold Dev.unlocked
  rw [Dev.f_setF_addr_ne (r := Reg.LANE_STAT_BRD_LOCK v.1) _ _ hstat (show 4 < 32 by decide) hlo,
    Dev.f_setF_addr_ne (r := Reg.LANE_STAT_UP_LOCK v.1) _ _ hstat (show 3 < 32 by decide) hlo,
    Dev.f_setF_addr_ne (r := Reg.LANE_STAT_STATE v.1) _ _ hstat (show 0 < 32 by decide) hlo, Dev.leaveService_en]

theorem Dev.enterOff_laneState (d : Dev) (v : Fin 16) : (d.enterOff v).laneState v = laneOff := by
  rw [Dev.enterOff_eq]
  exact d.unlocked_laneState v (by decide)

theorem Dev.enterOff_en (d : Dev) (v : Fin 16) : (d.enterOff v).bit (Reg.LANE_CTL_EN v.1) = d.bit (Reg.LANE_CTL_EN v.1) := by
  unfold Dev.bit
  rw [Dev.enterOff_eq, Dev.modLane_f, Dev.unlocked_en]

theorem Dev.enterLock_laneState (d : Dev) (v : Fin 16) : (d.enterLock v).laneState v = laneLock := by
  have haddr : Reg.LANE_STAT_at v.1 ≠ Reg.VAT_VBUS_at v.1 := by simp only [Reg.LANE_STAT_at, Reg.VAT_VBUS_at]; omega
  unfold Dev.laneState
  rw [Dev.enterLock_f, Dev.f_setF_addr_ne (r := Reg.VAT_VBUS_VBUS v.1) (r' := Reg.LANE_STAT_STATE v.1) _ _ haddr
    (show 0 < 32 by decide) (show 0 < 32 by decide)]
  exact d.unlocked_laneState v (by decide)

theorem Dev.enterLock_en (d : Dev) (v : Fin 16) : (d.enterLock v).bit (Reg.LANE_CTL_EN v.1) = d.bit (Reg.LANE_CTL_EN v.1) := by
  have haddr : Reg.LANE_CTL_at v.1 ≠ Reg.VAT_VBUS_at v.1 := by simp only [Reg.LANE_CTL_at, Reg.VAT_VBUS_at]; omega
  unfold Dev.bit
  rw [Dev.enterLock_f, Dev.f_setF_addr_ne (r := Reg.VAT_VBUS_VBUS v.1) (r' := Reg.LANE_CTL_EN v.1) _ _ haddr
    (show 0 < 32 by decide) (show 0 < 32 by decide), Dev.unlocked_en]

/-! ### LANE_CTL (R77) -/

/-- The registers after a write of LANE_CTL that is taken, before the lane acts on EN and RETRAIN. -/
def Dev.laneCtlTaken (d : Dev) (src : Src) (v : Fin 16) (w : Nat) : Dev :=
  ((d.answer 0).writeRest src (Reg.LANE_CTL_at v.1) w [0]).setB (Reg.LANE_CTL_EN v.1) (w.testBit 0)

theorem Dev.laneCtlTaken_en (d : Dev) (src : Src) (v : Fin 16) (w : Nat) :
    (d.laneCtlTaken src v w).bit (Reg.LANE_CTL_EN v.1) = w.testBit 0 :=
  Dev.bit_setB_same _ _ _ (show 0 < 1 by decide)

theorem Dev.laneCtlTaken_sparesMem (d : Dev) (src : Src) (v : Fin 16) (w : Nat) : Dev.SparesMem d (d.laneCtlTaken src v w) :=
  ((d.answer_sparesMem 0).trans (Dev.writeRest_reports _ src _ w _).sparesMem).trans (Dev.setF_sparesMem _ _ _)

section
variable {d : Dev} {src : Src} {v : Fin 16} {w : Nat} (hg : (d.guard src (Reg.LANE_CTL_at v.1) true).isNone = true)
include hg

theorem Dev.laneCtl_of_busy (hw : w.testBit 0 = false ∨ w.testBit 1 = true) (hb : d.allIdle v = false) :
    d.laneCtl src v w = (d.answer 0).logRefused src (Reg.LANE_CTL_at v.1) := by
  have hc : ((!w.testBit 0 || w.testBit 1) && !(d.answer 0).allIdle v) = true := by
    rw [show (d.answer 0).allIdle v = false from hb]
    rcases hw with hw | hw <;> simp [hw]
  unfold Dev.laneCtl
  rw [Dev.onWrite_unguarded hg]
  exact if_pos hc

theorem Dev.laneCtl_of_idle (hi : d.allIdle v = true) :
    d.laneCtl src v w =
      if (!w.testBit 0) = true then
        (if d.bit (Reg.LANE_CTL_EN v.1) = true then (d.laneCtlTaken src v w).enterOff v else d.laneCtlTaken src v w)
      else if (!d.bit (Reg.LANE_CTL_EN v.1) || w.testBit 1) = true then
        ((d.laneCtlTaken src v w).modLane v (fun l => { l with retries := 0 })).enterLock v
      else d.laneCtlTaken src v w := by
  have hc : ¬ ((!w.testBit 0 || w.testBit 1) && !(d.answer 0).allIdle v) = true := by
    rw [show (d.answer 0).allIdle v = true from hi]
    simp
  unfold Dev.laneCtl
  rw [Dev.onWrite_unguarded hg]
  exact if_neg hc

/-- EN = 0 with every channel IDLE: the lane reads disabled, and an enabled one is OFF. -/
theorem Dev.laneCtl_disables (hi : d.allIdle v = true) (hw : w.testBit 0 = false) :
    Dev.SparesMem d (d.laneCtl src v w) ∧ (d.laneCtl src v w).bit (Reg.LANE_CTL_EN v.1) = false ∧
    (d.bit (Reg.LANE_CTL_EN v.1) = true → (d.laneCtl src v w).laneState v = laneOff) := by
  have hmem := d.laneCtlTaken_sparesMem src v w
  have hen : (d.laneCtlTaken src v w).bit (Reg.LANE_CTL_EN v.1) = false := (d.laneCtlTaken_en src v w).trans hw
  rw [Dev.laneCtl_of_idle hg hi, if_pos (by simp [hw])]
  split
  · exact ⟨hmem.trans (Dev.enterOff_sparesMem _ v), (Dev.enterOff_en _ v).trans hen, fun _ => Dev.enterOff_laneState _ v⟩
  · rename_i hoff
    exact ⟨hmem, hen, fun h => absurd h hoff⟩

/-- EN = 1 and RETRAIN = 1 with every channel IDLE: the lane is enabled and in LOCK. -/
theorem Dev.laneCtl_retrains (hi : d.allIdle v = true) (hw : w.testBit 0 = true) (hr : w.testBit 1 = true) :
    Dev.SparesMem d (d.laneCtl src v w) ∧ (d.laneCtl src v w).bit (Reg.LANE_CTL_EN v.1) = true ∧
    (d.laneCtl src v w).laneState v = laneLock := by
  rw [Dev.laneCtl_of_idle hg hi, if_neg (by simp [hw]), if_pos (by simp [hr])]
  exact ⟨((d.laneCtlTaken_sparesMem src v w).trans (Dev.modLane_sparesMem _ v _)).trans (Dev.enterLock_sparesMem _ v),
    (Dev.enterLock_en _ v).trans ((d.laneCtlTaken_en src v w).trans hw), Dev.enterLock_laneState _ v⟩

end

/-- A LANE_CTL write that R77 refuses while a channel is busy: EN = 0, or EN and RETRAIN = 1. -/
def IdleLaneWrite (d : Dev) (src : Src) (v : Fin 16) (w : Word) (i : Instr) : Prop :=
  (i = .laneDisable src v w ∧ w.toNat.testBit 0 = false) ∨
  (i = .retrain src v w ∧ w.toNat.testBit 0 = true ∧ w.toNat.testBit 1 = true) ∨
  (i = .laneEnable src v w ∧ w.toNat.testBit 0 = true ∧ w.toNat.testBit 1 = true ∧ d.bit (Reg.LANE_CTL_EN v.1) = false)

theorem IdleLaneWrite.bits {d : Dev} {src : Src} {v : Fin 16} {w : Word} {i : Instr} (h : IdleLaneWrite d src v w i) :
    w.toNat.testBit 0 = false ∨ (w.toNat.testBit 0 = true ∧ w.toNat.testBit 1 = true) := by
  obtain ⟨_, h0⟩ | ⟨_, h0, h1⟩ | ⟨_, h0, h1, _⟩ := h
  · exact .inl h0
  · exact .inr ⟨h0, h1⟩
  · exact .inr ⟨h0, h1⟩

theorem IdleLaneWrite.exec_eq {s : State} {src : Src} {v : Fin 16} {w : Word} {i : Instr} (h : IdleLaneWrite s.dev src v w i) :
    exec i s = s.done (s.dev.laneCtl src v w.toNat) := by
  obtain ⟨rfl, h0⟩ | ⟨rfl, h0, h1⟩ | ⟨rfl, h0, _, hen⟩ := h
  · show execLaneDisable src v w s = _
    simp [execLaneDisable, h0]
  · show execRetrain src v w s = _
    simp [execRetrain, h0, h1]
  · show execLaneEnable src v w s = _
    simp [execLaneEnable, h0, hen]

/-- The entry of a refused write is the newest of the log: the access and the register's offset (R436, log entry 15). -/
theorem Dev.logRefused_newest (d : Dev) (src : Src) {a : Nat} (ha : setupOff a < 2 ^ 32) :
    (d.logRefused src a).evlog.head? = some ⟨0x04, 0xFF, accInfo src true 0, setupOff a, d.now⟩ := by
  rw [Dev.logRefused, Dev.log_newest, Nat.mod_eq_of_lt ha]

/-- A command that refuses its write changes the event block alone, and the refusal is the newest entry of the log (R436, R455). -/
theorem Answers.of_logRefused {i : Instr} {s : State} {src : Src} {a : Nat} (hl : Live s) (hs : Clean s) (ha : setupOff a < 2 ^ 32)
    (he : exec i s = s.done ((s.dev.answer 0).logRefused src a)) :
    Answers i s (fun t => SameRegs s t ∧ SameMem s t ∧ t.dev.vats = s.dev.vats ∧
      t.dev.evlog.head? = some ⟨0x04, 0xFF, accInfo src true 0, setupOff a, s.dev.now⟩) := by
  have hrep := (s.dev.answer 0).logRefused_reports src a
  have hmem := State.commit_sameMem hs ((s.dev.answer_sparesMem 0).trans hrep.sparesMem)
  refine Answers.of_done hl he ⟨fun r hr hout => ?_, hmem, ?_, ?_⟩
  · rw [State.commit_f, Dev.logRefused, Dev.f_log _ _ _ _ _ r hout hr, Dev.answer_f]
  · rw [State.commit_vats, hrep.vats, Dev.answer_vats]
  · rw [State.commit_evlog, Dev.logRefused_newest _ src ha, Dev.answer_now]

/-- Settles O54: the write is refused whole while a channel is busy, and taken once every channel is IDLE. -/
theorem laneWritesNeedIdleChannels : Obligations.LaneWritesNeedIdleChannels := by
  intro s src v w i ⟨hlive, hguard⟩ hclean hi
  have hwrite : IdleLaneWrite s.dev src v w i := hi
  have hexec := hwrite.exec_eq
  refine ⟨fun hbusy => ?busy, fun hidle => Answers.of_done hlive hexec ?idle⟩
  case busy =>
    rw [Dev.laneCtl_of_busy hguard (hwrite.bits.imp_right And.right) hbusy] at hexec
    have hoff : setupOff (Reg.LANE_CTL_at v.1) < 2 ^ 32 := by unfold setupOff Reg.LANE_CTL_at; omega
    exact Answers.of_logRefused hlive hclean hoff hexec
  case idle =>
    obtain h0 | ⟨h0, h1⟩ := hwrite.bits
    · obtain ⟨hmem, hen, hstate⟩ := Dev.laneCtl_disables hguard hidle h0
      exact ⟨State.commit_sameMem hclean hmem, hen.trans h0.symm, fun _ => hstate, fun h => by simp [h0] at h⟩
    · obtain ⟨hmem, hen, hstate⟩ := Dev.laneCtl_retrains hguard hidle h0 h1
      exact ⟨State.commit_sameMem hclean hmem, hen.trans h0.symm, fun h => by simp [h0] at h, fun _ => hstate⟩

end Sys2Proof.Machine
end

section
/-!
PROOF. A re-enable written before FENCE_DONE (R117): whatever the write does to other vats, it leaves the named vat's status and
channels alone, and the refusal is the newest entry of the log.
-/

namespace Sys2Proof.Machine
open Sys2Proof

/-! ### What a slice's event record leaves unchanged (R168, R169) -/

theorem Dev.dirtyPage_vats (d : Dev) (s port pfn : Nat) : (d.dirtyPage s port pfn).vats = d.vats := by
  unfold Dev.dirtyPage
  dsimp only
  split
  · rfl
  · split
    · rw [Dev.raise_vats]; rfl
    · rw [Dev.pend_vats]; rfl

theorem Dev.ite_vats {c : Prop} [Decidable c] {d a b : Dev} (ha : a.vats = d.vats) (hb : b.vats = d.vats) :
    (if c then a else b).vats = d.vats := by
  split <;> assumption

theorem Dev.write_vats (d : Dev) (s loc addr : Nat) (bs : List Byte) : (d.write s loc addr bs).vats = d.vats := by
  have filed : ∀ e : Dev, e.vats = d.vats → ∀ n p, (forEach n e (fun d i => d.dirtyPage s loc (p + i))).vats = d.vats := by
    intro e he n p
    exact List.foldlRecOn _ _ (motive := fun g : Dev => g.vats = d.vats) he (fun g hg i _ => (g.dirtyPage_vats s _ _).trans hg)
  unfold Dev.write
  dsimp only
  exact Dev.ite_vats (Dev.ite_vats (filed _ (d.post_vats _ bs) _ _) (d.post_vats _ bs)) (d.post_vats _ bs)

theorem Dev.ringPut_vats (d : Dev) (s : Nat) (r : Fin 8) (bs : List Byte) (c : Option Nat) : (d.ringPut s r bs c).vats = d.vats :=
  d.write_vats s _ _ bs

theorem Dev.badAccess_vats (d : Dev) (src : Src) (write : Bool) (addr : Nat) : (d.badAccess src write addr).vats = d.vats :=
  (Dev.pend_vats _ _).trans (Dev.log_vats _ _ _ _ _)

theorem Dev.deny_vats (d : Dev) (t : Nat) (src : Src) (kind : AccessKind) (addr : Nat) : (d.deny t src kind addr).vats = d.vats :=
  (Dev.pend_vats _ _).trans (Dev.log_vats _ _ _ _ _)

theorem Dev.engineFail_vats (d : Dev) (m : Fin 16) (s : Nat) (kind : AccessKind) (addr : Nat) :
    (d.engineFail m s kind addr).vats = d.vats := by
  unfold Dev.engineFail
  dsimp only
  rw [Dev.setResp_vats]
  split
  · split
    · exact d.badAccess_vats _ _ _
    · exact d.deny_vats _ _ _ _
  · exact d.badAccess_vats _ _ _

theorem Dev.evtCheck_vats (d : Dev) (s : Nat) : (d.evtCheck s).vats = d.vats := by
  unfold Dev.evtCheck
  split
  · exact d.engineFail_vats _ s _ _
  · rfl

theorem Dev.evtFull_vats (d : Dev) (s : Nat) : (d.evtFull s).vats = d.vats := rfl

theorem Dev.evtLost_vats (d : Dev) (s : Nat) : (d.evtLost s).vats = d.vats := by
  have checked : (if (d.slices[sl s]).evtLostRun ≠ 0 then d.evtCheck s else d).vats = d.vats := Dev.ite_vats (d.evtCheck_vats s) rfl
  unfold Dev.evtLost
  dsimp only
  refine Dev.ite_vats ?_ checked
  rw [Dev.evtFull_vats, Dev.modSlice_vats, Dev.ringPut_vats]
  exact checked

/-- An event record goes to the slice's ring and counts; no vat changes. -/
theorem Dev.eventAt_vats (d : Dev) (s ty : Nat) (ch : Option Nat) (info data ts : Nat) :
    (d.eventAt s ty ch info data ts).vats = d.vats := by
  have checked : ((d.evtLost s).evtCheck s).vats = d.vats := (Dev.evtCheck_vats _ s).trans (d.evtLost_vats s)
  unfold Dev.eventAt
  rw [Dev.evtFull_vats]
  exact Dev.ite_vats ((Dev.ringPut_vats _ s _ _ _).trans checked) checked

/-! ### Changes that spare a vat -/

/-- The fields of VAT_STAT and LANE_STAT of vat v. -/
def RF.StatusOf (v : Fin 16) (r : RF) : Prop := r.lo < 32 ∧ (r.addr = Reg.VAT_STAT_at v.1 ∨ r.addr = Reg.LANE_STAT_at v.1)

theorem RF.StatusOf.apart {v : Fin 16} {r : RF} (h : r.StatusOf v) : r.Apart := by
  obtain ⟨hl, ha⟩ := h
  simp only [Reg.VAT_STAT_at, Reg.LANE_STAT_at] at ha
  exact ⟨hl, by omega⟩

/-- From `d` to `e` only shared work was done, and none of it on the status or the state of vat v. -/
structure Dev.SparesVat (v : Fin 16) (d e : Dev) : Prop where
  work : Dev.Work (RF.StatusOf v) d e
  vat : e.vats[v] = d.vats[v]

section
variable {v : Fin 16} {d e g : Dev}

theorem Dev.SparesVat.refl (d : Dev) : Dev.SparesVat v d d := ⟨.refl d, rfl⟩

theorem Dev.SparesVat.trans (h : Dev.SparesVat v d e) (h' : Dev.SparesVat v e g) : Dev.SparesVat v d g :=
  ⟨h.work.trans h'.work, h'.vat.trans h.vat⟩

theorem Dev.SparesVat.fenced (h : Dev.SparesVat v d e) : e.fenced v = d.fenced v :=
  congrArg (· == 1) (h.work.f (Reg.VAT_STAT_FENCED v.1) ⟨show 1 < 32 by decide, .inl rfl⟩)

theorem Dev.SparesVat.fenceDone (h : Dev.SparesVat v d e) :
    e.bit (Reg.VAT_STAT_FENCE_DONE v.1) = d.bit (Reg.VAT_STAT_FENCE_DONE v.1) :=
  congrArg (· == 1) (h.work.f (Reg.VAT_STAT_FENCE_DONE v.1) ⟨show 2 < 32 by decide, .inl rfl⟩)

theorem Dev.SparesVat.laneState (h : Dev.SparesVat v d e) : e.laneState v = d.laneState v :=
  h.work.f (Reg.LANE_STAT_STATE v.1) ⟨show 0 < 32 by decide, .inr rfl⟩

theorem Dev.SparesVat.chan (h : Dev.SparesVat v d e) (k : Fin 16) : e.chan v k = d.chan v k :=
  congrArg (fun x : Vat => x.chans[k]) h.vat

theorem Dev.SparesVat.foldl {α : Type} {f : Dev → α → Dev} {xs : List α} (h : ∀ d, ∀ x ∈ xs, Dev.SparesVat v d (f d x)) (d : Dev) :
    Dev.SparesVat v d (xs.foldl f d) :=
  List.foldlRecOn xs f (motive := Dev.SparesVat v d) (.refl d) (fun e he x hx => he.trans (h e x hx))

/-- Shared work that changes no vat spares every vat. -/
theorem Dev.VatWork.sparesVat (h : Dev.VatWork d e) (hv : e.vats = d.vats) : Dev.SparesVat v d e :=
  ⟨h.mono (fun _ hr => hr.apart), by rw [hv]⟩

theorem Dev.logRefused_sparesVat (d : Dev) (src : Src) (a : Nat) : Dev.SparesVat v d (d.logRefused src a) :=
  Dev.VatWork.sparesVat (d.log_work _ _ _ _) (d.log_vats _ _ _ _)

/-- A field of another register than VAT_STAT and LANE_STAT of the vat may be set. -/
theorem Dev.setF_sparesVat (d : Dev) {r : RF} (x : Nat) (hl : r.lo < 32) (hs : r.addr ≠ Reg.VAT_STAT_at v.1 ∧ r.addr ≠ Reg.LANE_STAT_at v.1) :
    Dev.SparesVat v d (d.setF r x) := by
  refine ⟨.of_reports (Dev.setF_same d r x) (fun r' hr => ?_), rfl⟩
  obtain ⟨hl', ha⟩ := hr
  have hne : r'.addr ≠ r.addr := ha.elim (fun h h' => hs.1 (h'.symm.trans h)) (fun h h' => hs.2 (h'.symm.trans h))
  exact Dev.f_setF_addr_ne d x hne hl hl'

end

/-! ### A re-enable of one vat spares the others (R123) -/

/-- The fields that a re-enable of vat u sets (R72, R123). -/
def reenableFields (u : Fin 16) : List RF :=
  [Reg.VAT_STAT_IN_SERVICE u.1, Reg.SYS_CHAN_AVAIL_CH (u.1 / 2), Reg.LANE_BREG_CTL_BUSY u.1, Reg.LANE_BREG_CTL_RESULT u.1,
   Reg.LANE_STAT_STATE u.1, Reg.LANE_STAT_UP_LOCK u.1, Reg.LANE_STAT_BRD_LOCK u.1, Reg.LANE_STAT_KLATCH u.1, Reg.VAT_VBUS_VBUS u.1,
   Reg.VAT_LDG_CLOSED_CLOSED u.1]

section
variable {v u : Fin 16} (h : u ≠ v)
include h

theorem Dev.modVat_sparesVat (d : Dev) (g : Vat → Vat) : Dev.SparesVat v d (d.modVat u g) :=
  ⟨(Dev.modVat_work d u g).mono (fun _ hr => hr.apart), Vector.getElem_set_ne u.2 v.2 (Fin.val_ne_of_ne h)⟩

theorem Dev.modChan_sparesVat (d : Dev) (k : Fin 16) (g : Chan → Chan) : Dev.SparesVat v d (d.modChan u k g) :=
  Dev.modVat_sparesVat h d _

theorem Dev.enter_sparesVat (d : Dev) (k : Fin 16) (st : ChSt) (t : Nat) : Dev.SparesVat v d (d.enter u k st t) := by
  have moved := Dev.modChan_sparesVat h d k
  unfold Dev.enter
  dsimp only
  split
  · split
    · exact (moved _).trans (Dev.VatWork.sparesVat (Dev.eventAt_work _ (Chan.slice_lt _) _ _ _ _ _) (Dev.eventAt_vats _ _ _ _ _ _ _))
    · exact moved _
  · exact moved _

theorem Dev.enterQuiet_sparesVat (d : Dev) (k : Fin 16) (st : ChSt) (t : Nat) : Dev.SparesVat v d (d.enterQuiet u k st t) :=
  (Dev.enter_sparesVat h d k st t).trans (Dev.modChan_sparesVat h _ k _)

theorem reenableFields_apart {r : RF} (hr : r ∈ reenableFields u) :
    r.lo < 32 ∧ r.addr ≠ Reg.VAT_STAT_at v.1 ∧ r.addr ≠ Reg.LANE_STAT_at v.1 := by
  have hne : u.1 ≠ v.1 := Fin.val_ne_of_ne h
  revert r
  simp only [reenableFields, List.forall_mem_cons, List.not_mem_nil, false_imp_iff, implies_true, and_true,
    Reg.VAT_STAT_IN_SERVICE, Reg.SYS_CHAN_AVAIL_CH, Reg.LANE_BREG_CTL_BUSY,
    Reg.LANE_BREG_CTL_RESULT, Reg.LANE_STAT_STATE, Reg.LANE_STAT_UP_LOCK, Reg.LANE_STAT_BRD_LOCK, Reg.LANE_STAT_KLATCH,
    Reg.VAT_VBUS_VBUS, Reg.VAT_LDG_CLOSED_CLOSED, Reg.VAT_STAT_at, Reg.SYS_CHAN_AVAIL_at, Reg.LANE_BREG_CTL_at, Reg.LANE_STAT_at,
    Reg.VAT_VBUS_at, Reg.VAT_LDG_CLOSED_at]
  omega

theorem Dev.setF_reenable_sparesVat (d : Dev) {r : RF} (x : Nat) (hr : r ∈ reenableFields u) : Dev.SparesVat v d (d.setF r x) :=
  have ⟨hl, hs⟩ := reenableFields_apart h hr
  d.setF_sparesVat x hl hs

theorem Dev.modLane_sparesVat (d : Dev) (g : Lane → Lane) : Dev.SparesVat v d (d.modLane u g) := Dev.modVat_sparesVat h d _

theorem Dev.abandonCfg_sparesVat (d : Dev) : Dev.SparesVat v d (d.abandonCfg u) := by
  obtain ⟨g, he | he⟩ := d.abandonCfg_cases u
  · rw [he]
    exact Dev.modLane_sparesVat h d g
  · rw [he]
    exact ((Dev.modLane_sparesVat h d g).trans (Dev.setF_reenable_sparesVat h _ _ (by simp [reenableFields]))).trans
      (Dev.setF_reenable_sparesVat h _ _ (by simp [reenableFields]))

theorem Dev.setAvail_sparesVat (d : Dev) (mask : Nat) : Dev.SparesVat v d (d.setAvail u mask) :=
  Dev.setF_reenable_sparesVat h d (r := Reg.SYS_CHAN_AVAIL_CH (u.1 / 2)) _ (by simp [reenableFields])

theorem Dev.leaveService_sparesVat (d : Dev) : Dev.SparesVat v d (d.leaveService u) :=
  ((Dev.setF_reenable_sparesVat h d _ (by simp [reenableFields])).trans (Dev.setAvail_sparesVat h _ 0)).trans
    (Dev.abandonCfg_sparesVat h _)

theorem Dev.enterLock_sparesVat (d : Dev) : Dev.SparesVat v d (d.enterLock u) := by
  unfold Dev.enterLock
  refine Dev.SparesVat.trans ?_ (Dev.modLane_sparesVat h _ _)
  refine Dev.SparesVat.trans ?_ (Dev.setF_reenable_sparesVat h _ _ (by simp [reenableFields]))
  refine Dev.SparesVat.trans ?_ (Dev.setF_reenable_sparesVat h _ _ (by simp [reenableFields]))
  refine Dev.SparesVat.trans ?_ (Dev.setF_reenable_sparesVat h _ _ (by simp [reenableFields]))
  refine Dev.SparesVat.trans ?_ (Dev.setF_reenable_sparesVat h _ _ (by simp [reenableFields]))
  exact Dev.leaveService_sparesVat h d

theorem Dev.reenable_sparesVat (d : Dev) : Dev.SparesVat v d (d.reenable u) := by
  unfold Dev.reenable Dev.eachChan
  refine Dev.SparesVat.trans ?_ (Dev.SparesVat.foldl (fun e k _ => Dev.enterQuiet_sparesVat h e k _ _) _)
  refine Dev.SparesVat.trans ?_ (Dev.setF_reenable_sparesVat h _ _ (by simp [reenableFields]))
  refine Dev.SparesVat.trans ?_ (Dev.setF_reenable_sparesVat h _ _ (by simp [reenableFields]))
  exact (Dev.modLane_sparesVat h d _).trans (Dev.enterLock_sparesVat h _)

end

/-! ### SYS_VAT_CTL (R117, R123) -/

/-- What a write of SYS_VAT_CTL re-enables: of the vats named, those whose FENCE_DONE is 1. -/
def Dev.reenableNamed (d : Dev) (w : Nat) : Dev :=
  (maskList (w % 2 ^ 16)).foldl (fun d u => if d.bit (Reg.VAT_STAT_FENCE_DONE u.1) then d.reenable u else d) d

/-- A vat whose FENCE_DONE is 0 is spared, named or not. -/
theorem Dev.reenableNamed_sparesVat {d : Dev} {v : Fin 16} (w : Nat) (hv : d.bit (Reg.VAT_STAT_FENCE_DONE v.1) = false) :
    Dev.SparesVat v d (d.reenableNamed w) := by
  refine List.foldlRecOn _ _ (motive := Dev.SparesVat v d) (.refl d) (fun e he u _ => ?_)
  split
  next hu =>
    have hne : u ≠ v := by
      rintro rfl
      exact absurd (he.fenceDone.symm.trans hu) (by simp [hv])
    exact he.trans (Dev.reenable_sparesVat hne e)
  next => exact he

/-- A write that fences no vat and names one whose FENCE_DONE is 0 re-enables the others, and is refused and logged. -/
theorem Dev.vatCtl_of_early {d : Dev} {v : Fin 16} {w : Nat} (src : Src) (hw : w < 2 ^ 16) (hb : w.testBit v.1 = true)
    (hv : d.bit (Reg.VAT_STAT_FENCE_DONE v.1) = false) :
    d.vatCtl src w = (d.reenableNamed w).logRefused src Reg.SYS_VAT_CTL_at := by
  have hlow : w % 2 ^ 16 = w := Nat.mod_eq_of_lt hw
  have hnamed : v ∈ maskList (w % 2 ^ 16) := by
    rw [hlow]
    exact List.mem_filter.mpr ⟨List.mem_finRange v, hb⟩
  have hbad : (maskList (w % 2 ^ 16)).any (fun u => !d.bit (Reg.VAT_STAT_FENCE_DONE u.1)) = true :=
    List.any_eq_true.mpr ⟨v, hnamed, by simp [hv]⟩
  have hnone : maskList (w / 2 ^ 16) = [] := by
    rw [Nat.div_eq_of_lt hw]
    rfl
  unfold Dev.vatCtl
  rw [hnone]
  exact if_pos hbad

/-- A write whose meaning spares a vat leaves its lane state, FENCED bit and channels as they were. -/
theorem Dev.SparesVat.commit {v : Fin 16} {s : State} {e : Dev} (h : Dev.SparesVat v (s.dev.answer 0) e) :
    (s.commit e).dev.laneState v = s.dev.laneState v ∧ (s.commit e).dev.fenced v = s.dev.fenced v ∧
    ∀ k : Fin 16, (s.commit e).dev.chan v k = s.dev.chan v k :=
  ⟨h.laneState, h.fenced, h.chan⟩

/-- After work that spares a vat, a refused write is the newest entry of the log, dated with the present instant. -/
theorem Dev.SparesVat.refused_newest {v : Fin 16} {s : State} {e : Dev} (h : Dev.SparesVat v (s.dev.answer 0) e) (src : Src) {a : Nat}
    (ha : setupOff a < 2 ^ 32) :
    (s.commit (e.logRefused src a)).dev.evlog.head? = some ⟨0x04, 0xFF, accInfo src true 0, a - 0x20000000, s.dev.now⟩ := by
  rw [State.commit_evlog, Dev.logRefused_newest e src ha, h.work.now, Dev.answer_now]
  rfl

/-- Settles O17: the write re-enables other vats at most, which spares the named one, and its refusal is logged last. -/
theorem earlyReenableIsRefusedAndLogged : Obligations.EarlyReenableIsRefusedAndLogged := by
  intro s src w v ⟨hlive, hguard⟩ hw hb hdone
  have hv : (s.dev.answer 0).bit (Reg.VAT_STAT_FENCE_DONE v.1) = false := hdone
  have hexec : exec (.reenable src w) s = s.done (((s.dev.answer 0).reenableNamed w.toNat).logRefused src Reg.SYS_VAT_CTL_at) := by
    show s.done (s.dev.onWrite src Reg.SYS_VAT_CTL_at (fun d => d.vatCtl src w.toNat)) = _
    rw [Dev.onWrite_unguarded hguard, Dev.vatCtl_of_early src hw hb hv]
  have others := Dev.reenableNamed_sparesVat w.toNat hv
  obtain ⟨hlane, hfenced, hchan⟩ := (others.trans (Dev.logRefused_sparesVat _ src Reg.SYS_VAT_CTL_at)).commit
  exact Answers.of_done hlive hexec ⟨hlane, hfenced, hchan, others.refused_newest src (by decide)⟩

end Sys2Proof.Machine
end

section
/-!
PROOF. A load of TB_NOW clears what rests on the old numbering (R281): comparators, TOUT pulses and captures are cleared, and the
retraining of the lanes that follows leaves them so; a comparator whose instant is not the present count does nothing.
-/

namespace Sys2Proof.Machine
open Sys2Proof

/-! ### A row of fields set to zero -/

/-- A field whose reset value is 0 and which reads 0 still does after any field is set to 0. -/
theorem Dev.f_setF_zero {d : Dev} (r : RF) {r' : RF} (hd : r'.dflt = 0) (h : d.f r' = 0) : (d.setF r 0).f r' = 0 := by
  rw [Dev.f_setF, Nat.zero_mod, hd, h, ite_self, ite_self]

theorem forEach_succ {σ : Type} (n : Nat) (x : σ) (g : σ → Nat → σ) : forEach (n + 1) x g = g (forEach n x g) n := by
  unfold forEach
  rw [List.range_succ, List.foldl_concat]

theorem Dev.forEach_setF_reports (d : Dev) (n : Nat) (r : Nat → RF) (x : Nat) :
    Dev.Reports d (forEach n d (fun d i => d.setF (r i) x)) :=
  List.foldlRecOn _ _ (motive := Dev.Reports d) (.rfl d) (fun e he i _ => he.trans (Dev.setF_same e (r i) x))

theorem Dev.f_forEach_setF_zero_of_zero {d : Dev} (n : Nat) (r : Nat → RF) {r' : RF} (hd : r'.dflt = 0) (h : d.f r' = 0) :
    (forEach n d (fun d i => d.setF (r i) 0)).f r' = 0 :=
  List.foldlRecOn _ _ (motive := fun e : Dev => e.f r' = 0) h (fun _ he i _ => Dev.f_setF_zero (r i) hd he)

/-- Each field of a row that is set to 0 reads 0. -/
theorem Dev.f_forEach_setF_zero (d : Dev) {n j : Nat} {r : Nat → RF} (hd : (r j).dflt = 0) (hj : j < n) :
    (forEach n d (fun d i => d.setF (r i) 0)).f (r j) = 0 := by
  induction n with
  | zero => omega
  | succ n ih =>
    rw [forEach_succ]
    obtain hlt | rfl := Nat.lt_succ_iff_lt_or_eq.mp hj
    · exact Dev.f_setF_zero (r n) hd (ih hlt)
    · rw [Dev.f_setF_same, Nat.zero_mod]

/-! ### Comparators, TOUT pins and captures at rest (R281) -/

/-- No comparator is armed, every TOUT pin is low with no pulse running, every capture FIFO is empty. -/
structure Dev.TriggersClear (d : Dev) : Prop where
  armed : ∀ i < 16, d.f (Reg.TB_CMP_CTL_ARMED i) = 0
  tout : d.ptp.tout = 0
  pulse : ∀ p : Fin 8, d.ptp.pulse[p] = none
  cap : ∀ p : Fin 8, d.ptp.cap[p] = []
  count : ∀ p < 8, d.f (Reg.TB_CAP_STAT_COUNT p) = 0

/-- The rows of registers that a load of TB_NOW clears: the comparators' ARMED and the capture FIFOs' COUNT. -/
def Dev.clearRows (d : Dev) : Dev :=
  forEach 8 (forEach 16 d (fun d i => d.setF (Reg.TB_CMP_CTL_ARMED i) 0)) (fun d n => d.setF (Reg.TB_CAP_STAT_COUNT n) 0)

theorem Dev.clearTriggers_eq (d : Dev) : d.clearTriggers = d.clearRows.setPtp { d.clearRows.ptp with
    tout := 0, pulse := Vector.replicate 8 none, acted := Vector.replicate 8 none, cap := Vector.replicate 8 [] } := by
  unfold Dev.clearTriggers Dev.clearRows
  rfl

theorem Dev.clearRows_reports (d : Dev) : Dev.Reports d d.clearRows :=
  (d.forEach_setF_reports 16 Reg.TB_CMP_CTL_ARMED 0).trans (Dev.forEach_setF_reports _ 8 Reg.TB_CAP_STAT_COUNT 0)

theorem Dev.clearRows_armed (d : Dev) {i : Nat} (hi : i < 16) : d.clearRows.f (Reg.TB_CMP_CTL_ARMED i) = 0 :=
  Dev.f_forEach_setF_zero_of_zero 8 Reg.TB_CAP_STAT_COUNT rfl (Dev.f_forEach_setF_zero d (r := Reg.TB_CMP_CTL_ARMED) rfl hi)

theorem Dev.clearRows_count (d : Dev) {p : Nat} (hp : p < 8) : d.clearRows.f (Reg.TB_CAP_STAT_COUNT p) = 0 :=
  Dev.f_forEach_setF_zero _ (r := Reg.TB_CAP_STAT_COUNT) rfl hp

theorem Dev.clearTriggers_clear (d : Dev) : d.clearTriggers.TriggersClear := by
  rw [Dev.clearTriggers_eq]
  exact {
    armed := fun _ hi => (Dev.f_of_regs (Dev.setPtp_regs _ _) _).trans (d.clearRows_armed hi)
    tout := rfl
    pulse := fun p => Vector.getElem_replicate p.2
    cap := fun p => Vector.getElem_replicate p.2
    count := fun _ hp => (Dev.f_of_regs (Dev.setPtp_regs _ _) _).trans (d.clearRows_count hp) }

theorem Dev.clearTriggers_now (d : Dev) : d.clearTriggers.now = d.now := by
  rw [Dev.clearTriggers_eq, Dev.setPtp_now, d.clearRows_reports.now]

theorem Dev.setPtp_sparesMem (d : Dev) (x : Ptp) : Dev.SparesMem d (d.setPtp x) := ⟨rfl, rfl, rfl⟩

theorem Dev.clearTriggers_sparesMem (d : Dev) : Dev.SparesMem d d.clearTriggers := by
  rw [Dev.clearTriggers_eq]
  exact d.clearRows_reports.sparesMem.trans (Dev.setPtp_sparesMem _ _)

/-- Work on vats and lanes leaves cleared comparators and captures clear. -/
theorem Dev.TriggersClear.of_work {d e : Dev} (h : d.TriggersClear) (hw : Dev.Work RF.Far d e) : e.TriggersClear where
  armed i hi := by
    have hfar : RF.Far (Reg.TB_CMP_CTL_ARMED i) :=
      ⟨show 6 < 32 by decide, by simp only [Reg.TB_CMP_CTL_ARMED, Reg.TB_CMP_CTL_at]; omega⟩
    exact (hw.f _ hfar).trans (h.armed i hi)
  tout := hw.ptp ▸ h.tout
  pulse := hw.ptp ▸ h.pulse
  cap := hw.ptp ▸ h.cap
  count p hp := by
    have hfar : RF.Far (Reg.TB_CAP_STAT_COUNT p) :=
      ⟨show 0 < 32 by decide, by simp only [Reg.TB_CAP_STAT_COUNT, Reg.TB_CAP_STAT_at]; omega⟩
    exact (hw.f _ hfar).trans (h.count p hp)

/-! ### Lanes train anew after a load (R35) -/

theorem Dev.leaveService_work (d : Dev) (v : Fin 16) : Dev.Work RF.Far d (d.leaveService v) :=
  ((Dev.setF_far d (Reg.VAT_STAT_IN_SERVICE v.1) 0 (show 0 < 32 by decide)
    (by simp only [Reg.VAT_STAT_IN_SERVICE, Reg.VAT_STAT_at]; omega)).trans (Dev.setAvail_work _ v 0)).trans (Dev.abandonCfg_work _ v)

theorem Dev.enterLock_work (d : Dev) (v : Fin 16) : Dev.Work RF.Far d (d.enterLock v) := by
  have stat : ∀ (e : Dev) (r : RF) (x : Nat), r.addr = Reg.LANE_STAT_at v.1 → r.lo < 32 → Dev.Work RF.Far e (e.setF r x) := by
    intro e r x ha hl
    exact e.setF_far r x hl (by rw [ha, Reg.LANE_STAT_at]; omega)
  have vbus : ∀ e : Dev, Dev.Work RF.Far e (e.setF (Reg.VAT_VBUS_VBUS v.1) 0) := fun e =>
    e.setF_far _ 0 (show 0 < 32 by decide) (by simp only [Reg.VAT_VBUS_VBUS, Reg.VAT_VBUS_at]; omega)
  unfold Dev.enterLock
  refine Dev.Work.trans ?_ (Dev.modLane_work _ v _).far
  refine Dev.Work.trans ?_ (vbus _)
  refine Dev.Work.trans ?_ (stat _ (Reg.LANE_STAT_BRD_LOCK v.1) _ rfl (show 4 < 32 by decide))
  refine Dev.Work.trans ?_ (stat _ (Reg.LANE_STAT_UP_LOCK v.1) _ rfl (show 3 < 32 by decide))
  refine Dev.Work.trans ?_ (stat _ (Reg.LANE_STAT_STATE v.1) _ rfl (show 0 < 32 by decide))
  exact d.leaveService_work v

/-- Every lane that trains or is ACTIVE enters LOCK (R35, R77). -/
def Dev.retrainLanes (d : Dev) : Dev :=
  (List.finRange 16).foldl (fun d v => if 1 ≤ d.laneState v && d.laneState v ≤ 5 then d.enterLock v else d) d

theorem Dev.retrainLanes_work (d : Dev) : Dev.Work RF.Far d d.retrainLanes :=
  Dev.Work.foldl _ (fun d v => Dev.Work.ite _ (d.enterLock_work v) (.refl d)) _ d

theorem Dev.retrainLanes_sparesMem (d : Dev) : Dev.SparesMem d d.retrainLanes := by
  refine List.foldlRecOn _ _ (motive := Dev.SparesMem d) ⟨rfl, rfl, rfl⟩ (fun e he v _ => ?_)
  split
  · exact he.trans (e.enterLock_sparesMem v)
  · exact he

/-! ### The load of TB_NOW (R35, R281) -/

/-- The device that counts from `x` on, its running timers moved to the new numbering (R35). -/
def Dev.countFrom (d : Dev) (x : Nat) : Dev := ((d.setF Reg.TB_STAT_LOADED 1).setNow x).renumberTimers d.now x

theorem Dev.countFrom_now (d : Dev) (x : Nat) : (d.countFrom x).now = x := rfl

theorem Dev.countFrom_sparesMem (d : Dev) (x : Nat) : Dev.SparesMem d (d.countFrom x) := ⟨rfl, rfl, rfl⟩

section
variable {d : Dev} (hl : d.bit Reg.TB_STAT_LOADED = false) (hi : d.everyIdle = true) (src : Src) (x : Nat)
include hl hi

theorem Dev.loadNow_accepted : d.loadNow src x = (d.countFrom x).clearTriggers.retrainLanes := by
  have hc : ¬ (d.bit Reg.TB_STAT_LOADED || !d.everyIdle) = true := by simp [hl, hi]
  exact if_neg hc

theorem Dev.loadNow_triggersClear : (d.loadNow src x).TriggersClear := by
  rw [Dev.loadNow_accepted hl hi]
  exact (Dev.clearTriggers_clear _).of_work (Dev.retrainLanes_work _)

theorem Dev.loadNow_now : (d.loadNow src x).now = x := by
  rw [Dev.loadNow_accepted hl hi, (Dev.retrainLanes_work _).now, Dev.clearTriggers_now, Dev.countFrom_now]

theorem Dev.loadNow_sparesMem : Dev.SparesMem d (d.loadNow src x) := by
  rw [Dev.loadNow_accepted hl hi]
  exact ((d.countFrom_sparesMem x).trans (Dev.clearTriggers_sparesMem _)).trans (Dev.retrainLanes_sparesMem _)

end

/-- The device once a write of TB_LOAD_HI is answered and the low word its master held is taken (R10). -/
def Dev.tbLoadTaken (d : Dev) (src : Src) : Dev := (d.answer 0).unhold src Reg.TB_LOAD_LO_at

theorem Dev.tbLoadTaken_bit (d : Dev) (src : Src) (r : RF) : (d.tbLoadTaken src).bit r = d.bit r := rfl
theorem Dev.tbLoadTaken_everyIdle (d : Dev) (src : Src) : (d.tbLoadTaken src).everyIdle = d.everyIdle := rfl
theorem Dev.tbLoadTaken_sparesMem (d : Dev) (src : Src) : Dev.SparesMem d (d.tbLoadTaken src) := ⟨rfl, rfl, rfl⟩

/-- A TB_LOAD that reaches the register loads the low word held, zero where none is, under the high word (R10, R35, log entry 19). -/
theorem exec_tbLoad {s : State} {src : Src} (w : Word) (hg : (s.dev.guard src Reg.TB_LOAD_HI_at true).isNone = true) :
    exec (.tbLoad src w) s = s.done ((s.dev.tbLoadTaken src).loadNow src
      ((s.dev.heldFor src Reg.TB_LOAD_LO_at).getD 0 + 2 ^ 32 * w.toNat)) :=
  congrArg s.done (Dev.onWrite_unguarded hg _)

/-! ### A comparator whose instant is not the present count (R279) -/

theorem Dev.cmpFire_of_ne {d : Dev} {i : Fin 16} (h : d.ptp.cmpAt[i] ≠ d.now) : d.cmpFire i = d := by
  have hc : ¬ (d.bit (Reg.TB_CMP_CTL_ARMED i.1) && d.ptp.cmpAt[i] == d.now) = true :=
    fun hdue => h (beq_iff_eq.mp (Bool.and_eq_true_iff.mp hdue).2)
  exact if_neg hc

/-- A meaning that changes nothing commits nothing. -/
theorem State.commit_self {s : State} (hs : Clean s) : s.commit s.dev = s := by
  obtain ⟨hwq, hlost⟩ := hs
  have hmem : (s.commit s.dev).mem = s.mem := s.commit_mem s.dev hwq hlost rfl
  have hdev : (s.commit s.dev).dev = s.dev := by
    show { s.dev with wq := [], lost := [] } = s.dev
    rw [← hwq, ← hlost]
  show { s with mem := (s.commit s.dev).mem, dev := (s.commit s.dev).dev } = s
  rw [hmem, hdev]

theorem State.done_self {s : State} (hs : Clean s) : s.done s.dev = .next s := by
  unfold State.done State.donePower
  rw [State.commit_self hs, ite_self]

/-- Settles O55: the load clears the comparators and captures before the lanes retrain, which never writes them; a comparator whose
instant is another count changes nothing. -/
theorem loadsClearComparatorsAndCaptures : Obligations.LoadsClearComparatorsAndCaptures := by
  refine ⟨fun s src w ⟨hlive, hguard⟩ hclean hloaded hidle => Answers.of_done hlive (exec_tbLoad w hguard) ?load,
    fun s i hclean _ hne => ?fire⟩
  case load =>
    have hl := (s.dev.tbLoadTaken_bit src Reg.TB_STAT_LOADED).trans hloaded
    have hi := (s.dev.tbLoadTaken_everyIdle src).trans hidle
    obtain ⟨harmed, htout, hpulse, hcap, hcount⟩ := Dev.loadNow_triggersClear hl hi src
      ((s.dev.heldFor src Reg.TB_LOAD_LO_at).getD 0 + 2 ^ 32 * w.toNat)
    exact ⟨fun i h => congrArg (· == 1) (harmed i h), htout, fun p => ⟨hpulse p, hcap p, hcount p.1 p.2⟩,
      Dev.loadNow_now hl hi src _,
      State.commit_sameMem hclean ((s.dev.tbLoadTaken_sparesMem src).trans (Dev.loadNow_sparesMem hl hi src _))⟩
  case fire =>
    have hexec : exec (.comparatorFire i) s = s.done s.dev := congrArg s.done (Dev.cmpFire_of_ne hne)
    exact ⟨s, hexec.trans (State.done_self hclean), rfl, rfl, fun _ => rfl⟩

end Sys2Proof.Machine
end

section
/-!
PROOF. The VIN warning (R401): the meaning of both commands changes PWR_STAT.VIN_LOW, PWR_EVT.VIN_WARN and what a report can change,
and nothing else.
-/

namespace Sys2Proof.Machine
open Sys2Proof

/-- Every bit of the mask that the field has room for is set after a raise, whatever the field held (R7). -/
theorem Dev.tb_raise (d : Dev) (e : RF) {m j : Nat} {i : Nat} (hi : i < 4096) (h : e.addr < 0x20004000 ∨ 0x20004800 ≤ e.addr)
    (hl : e.lo < 32) (hj : j < e.w) (hm : m.testBit j = true) : (d.raise e m i).tb e j = true := by
  have hset : (d.f e ||| m).testBit j = true := by rw [Nat.testBit_or, hm, Bool.or_true]
  unfold Dev.raise Dev.tb
  dsimp only
  split
  next hall => exact (congrArg (·.testBit j) hall).symm.trans hset
  next =>
    rw [Dev.f_pend _ e hi h hl, Dev.f_setF_same, Nat.testBit_mod_two_pow, Dev.note_f, hset]
    simp [hj]

/-! ### What the warning leaves unchanged -/

/-- From `d` to `e` no more has changed than VIN_LOW, VIN_WARN, the event block and what a report can change. -/
structure Dev.OnlyWarns (d e : Dev) : Prop where
  reports : Dev.Reports d e
  f : ∀ r : RF, r.lo < 32 → (r.addr < 0x20004000 ∨ 0x20004800 ≤ r.addr) → r.key ≠ Reg.PWR_STAT_VIN_LOW.key →
    r.key ≠ Reg.PWR_EVT_VIN_WARN.key → e.f r = d.f r

theorem Dev.OnlyWarns.trans {d e g : Dev} (h : d.OnlyWarns e) (h' : e.OnlyWarns g) : d.OnlyWarns g :=
  ⟨h.reports.trans h'.reports, fun r hlo hout hlow hwarn => (h'.f r hlo hout hlow hwarn).trans (h.f r hlo hout hlow hwarn)⟩

theorem Dev.setVinLow_onlyWarns (d : Dev) (x : Nat) : d.OnlyWarns (d.setF Reg.PWR_STAT_VIN_LOW x) :=
  ⟨d.setF_same _ x, fun _ _ _ hlow _ => d.f_setF_ne x hlow⟩

theorem Dev.raiseVinWarn_onlyWarns (d : Dev) : d.OnlyWarns (d.raise Reg.PWR_EVT_VIN_WARN 1 66) :=
  ⟨d.raise_reports _ _ _, fun r hlo hout _ hwarn => d.f_raise _ r 1 (by decide) hwarn hout hlo⟩

/-! ### VIN_WARNING and VIN_WARNING_CLEAR, case by case (R401) -/

section
variable {d : Dev} {mv : Nat}

theorem Dev.vinWarning_below (h : mv < 10 * d.f Reg.PWR_VIN_CFG_WARN) :
    d.vinWarning mv = (d.setF Reg.PWR_STAT_VIN_LOW 1).raise Reg.PWR_EVT_VIN_WARN 1 66 := if_pos h

theorem Dev.vinWarning_of_le (h : 10 * d.f Reg.PWR_VIN_CFG_WARN ≤ mv) : d.vinWarning mv = d := if_neg (Nat.not_lt.mpr h)

theorem Dev.vinClear_of_le (h : 10 * d.f Reg.PWR_VIN_CFG_WARN + 100 ≤ mv) : d.vinClear mv = d.setF Reg.PWR_STAT_VIN_LOW 0 := if_pos h

theorem Dev.vinClear_below (h : mv < 10 * d.f Reg.PWR_VIN_CFG_WARN + 100) : d.vinClear mv = d := if_neg (Nat.not_le.mpr h)

theorem Dev.vinWarning_onlyWarns (h : mv < 10 * d.f Reg.PWR_VIN_CFG_WARN) : d.OnlyWarns (d.vinWarning mv) := by
  rw [Dev.vinWarning_below h]
  exact (d.setVinLow_onlyWarns 1).trans (Dev.raiseVinWarn_onlyWarns _)

theorem Dev.vinWarning_low (h : mv < 10 * d.f Reg.PWR_VIN_CFG_WARN) : (d.vinWarning mv).bit Reg.PWR_STAT_VIN_LOW = true := by
  unfold Dev.bit
  rw [Dev.vinWarning_below h, Dev.f_raise _ _ _ _ (by decide) (by decide) (by decide) (by decide), Dev.f_setF_same]
  rfl

theorem Dev.vinWarning_warns (h : mv < 10 * d.f Reg.PWR_VIN_CFG_WARN) : (d.vinWarning mv).tb Reg.PWR_EVT_VIN_WARN 0 = true := by
  rw [Dev.vinWarning_below h]
  exact Dev.tb_raise _ _ (by decide) (by decide) (by decide) (by decide) (by decide)

theorem Dev.vinClear_onlyWarns (h : 10 * d.f Reg.PWR_VIN_CFG_WARN + 100 ≤ mv) : d.OnlyWarns (d.vinClear mv) := by
  rw [Dev.vinClear_of_le h]
  exact d.setVinLow_onlyWarns 0

theorem Dev.vinClear_low (h : 10 * d.f Reg.PWR_VIN_CFG_WARN + 100 ≤ mv) : (d.vinClear mv).bit Reg.PWR_STAT_VIN_LOW = false := by
  unfold Dev.bit
  rw [Dev.vinClear_of_le h, Dev.f_setF_same]
  rfl

theorem Dev.vinClear_event (h : 10 * d.f Reg.PWR_VIN_CFG_WARN + 100 ≤ mv) :
    (d.vinClear mv).f Reg.PWR_EVT_VIN_WARN = d.f Reg.PWR_EVT_VIN_WARN := by
  rw [Dev.vinClear_of_le h]
  exact d.f_setF_ne 0 (by decide)

end

/-- A command whose meaning is the device as it was answers, and changes nothing. -/
theorem Answers.of_done_self {i : Instr} {s : State} {d : Dev} (hs : Clean s) (he : exec i s = s.done d) (hd : d = s.dev) :
    Answers i s (fun t => t.dev = s.dev ∧ SameMem s t) := by
  subst hd
  exact ⟨s, he.trans (State.done_self hs), rfl, rfl, fun _ => rfl⟩

/-- Settles O56: below the threshold, and 100 mV above it, the meaning only warns; between them it leaves the device as it was. -/
theorem supplyWarningOnlyWarns : Obligations.SupplyWarningOnlyWarns := by
  intro s mv hlive hclean warn rest
  have hrest : ∀ e, s.dev.OnlyWarns e → rest (s.commit e) := fun e ⟨hrep, hf⟩ =>
    ⟨State.commit_sameMem hclean hrep.sparesMem, hrep.vats, hrep.sup, hrep.mad, hrep.cores, hrep.now, hf⟩
  have hwarning : exec (.vinWarning mv) s = s.done (s.dev.vinWarning mv) := rfl
  have hclear : exec (.vinWarningClear mv) s = s.done (s.dev.vinClear mv) := rfl
  refine ⟨fun h => Answers.of_done hlive hwarning ?warns, fun h => Answers.of_done_self hclean hwarning (Dev.vinWarning_of_le h),
    fun h => Answers.of_done hlive hclear ?clears, fun h => Answers.of_done_self hclean hclear (Dev.vinClear_below h)⟩
  case warns => exact ⟨Dev.vinWarning_low h, Dev.vinWarning_warns h, hrest _ (Dev.vinWarning_onlyWarns h)⟩
  case clears => exact ⟨Dev.vinClear_low h, Dev.vinClear_event h, hrest _ (Dev.vinClear_onlyWarns h)⟩

end Sys2Proof.Machine
end

section
/-!
PROOF. The device event log (R437, R438): writing an entry moves EVT_LOG_PI, and EVT_LOG_CI and EVT_LOG_OVW where the log was full;
EVT_LOG_SEL latches the four words of an entry still held; EVT_LOG_CI takes an index that passes the consumer tests.
-/

namespace Sys2Proof.Machine
open Sys2Proof

/-! ### A bit set leaves the others -/

/-- Adding `2 ^ i` where bit `i` is clear carries nothing into the bits above. -/
theorem testBit_add_two_pow_of_gt {x i j : Nat} (h : x.testBit i = false) (hj : i < j) : (x + 2 ^ i).testBit j = x.testBit j := by
  obtain ⟨k, rfl⟩ := Nat.exists_eq_add_of_lt hj
  have heven : x / 2 ^ i % 2 ≠ 1 := by simpa [Nat.testBit_eq_decide_div_mod_eq] using h
  have hhalf : (x / 2 ^ i + 1) / 2 = x / 2 ^ i / 2 := by omega
  rw [show i + k + 1 = k + 1 + i by omega, Nat.testBit_add, Nat.testBit_add x, Nat.add_div_right x (Nat.two_pow_pos i),
    Nat.testBit_add_one, Nat.testBit_add_one, hhalf]

theorem testBit_setBit_ne (x : Nat) {i j : Nat} (h : j ≠ i) : (setBit x i true).testBit j = x.testBit j := by
  by_cases hi : x.testBit i = true
  · rw [setBit, if_pos hi]
  · rw [setBit, if_neg hi, if_pos rfl]
    obtain hlt | hgt := Nat.lt_or_gt_of_ne h
    · rw [Nat.add_comm, Nat.testBit_two_pow_add_gt hlt]
    · exact testBit_add_two_pow_of_gt (Bool.not_eq_true _ ▸ hi) hgt

/-! ### What a rise does to the event block's own registers (R433) -/

/-- A rise leaves the registers as they were, or sets the source's pending bit. -/
theorem Dev.pend_regs_cases (d : Dev) (i : Nat) :
    (d.pend i).regs = d.regs ∨ (d.pend i).regs = (d.setTb (Reg.EVT_PEND_SRC (i / 32)) (i % 32) true).regs := by
  unfold Dev.pend
  dsimp only
  split
  · exact .inl rfl
  · split
    · exact .inr (Dev.deliver_regs _ i)
    · exact .inr rfl

/-- A rise writes no field but the word of its pending bit. -/
theorem Dev.f_pend_ne (d : Dev) (i : Nat) {r : RF} (h : r.key ≠ (Reg.EVT_PEND_SRC (i / 32)).key) : (d.pend i).f r = d.f r := by
  obtain he | he := d.pend_regs_cases i
  · exact Dev.f_of_regs he r
  · rw [Dev.f_of_regs he r, Dev.setTb_eq, Dev.f_setF_ne d _ h]

/-- A rise clears no pending bit. -/
theorem Dev.pend_keeps_pending (d : Dev) (i : Nat) {j : Nat} (hj : j < 32) (hne : j ≠ i % 32)
    (h : d.tb (Reg.EVT_PEND_SRC (i / 32)) j = true) : (d.pend i).tb (Reg.EVT_PEND_SRC (i / 32)) j = true := by
  unfold Dev.tb at h ⊢
  obtain he | he := d.pend_regs_cases i
  · rw [Dev.f_of_regs he, h]
  · rw [Dev.f_of_regs he, Dev.setTb_eq, Dev.f_setF_same, show (Reg.EVT_PEND_SRC (i / 32)).w = 32 from rfl, Nat.testBit_mod_two_pow,
      testBit_setBit_ne _ hne, h, decide_eq_true hj, Bool.and_self]

/-! ### Overrun and watermark (R438) -/

theorem Dev.logOverrun_of_full (d : Dev) {n : Nat} (h : 4096 ≤ n) :
    d.logOverrun n = ((d.wrap Reg.EVT_LOG_CI_VALUE).bump Reg.EVT_LOG_OVW_VALUE).pend 95 := if_pos h

theorem Dev.logOverrun_of_room (d : Dev) {n : Nat} (h : n < 4096) : d.logOverrun n = d := if_neg (Nat.not_le.mpr h)

/-- An overrun writes EVT_LOG_CI, EVT_LOG_OVW and the word of source 95. -/
theorem Dev.f_logOverrun_ne (d : Dev) (n : Nat) {r : RF} (hci : r.key ≠ Reg.EVT_LOG_CI_VALUE.key)
    (hovw : r.key ≠ Reg.EVT_LOG_OVW_VALUE.key) (hpend : r.key ≠ (Reg.EVT_PEND_SRC 2).key) : (d.logOverrun n).f r = d.f r := by
  obtain hroom | hfull := Nat.lt_or_ge n 4096
  · rw [Dev.logOverrun_of_room d hroom]
  · rw [Dev.logOverrun_of_full d hfull, Dev.f_pend_ne _ 95 hpend, Dev.bump_eq, Dev.f_setF_ne _ _ hovw, Dev.wrap_eq,
      Dev.f_setF_ne _ _ hci]

/-- The watermark either changes nothing or raises source 94. -/
theorem Dev.logMark_cases (d : Dev) (n : Nat) : d.logMark n = d.pend 94 ∨ d.logMark n = d := ite_eq_or_eq _ _ _

theorem Dev.f_logMark_ne (d : Dev) (n : Nat) {r : RF} (h : r.key ≠ (Reg.EVT_PEND_SRC 2).key) : (d.logMark n).f r = d.f r := by
  obtain he | he := d.logMark_cases n
  · rw [he, Dev.f_pend_ne d 94 h]
  · rw [he]

theorem Dev.logMark_keeps_overwrite (d : Dev) (n : Nat) (h : d.tb (Reg.EVT_PEND_SRC 2) 31 = true) :
    (d.logMark n).tb (Reg.EVT_PEND_SRC 2) 31 = true := by
  obtain he | he := d.logMark_cases n
  · rw [he]
    exact d.pend_keeps_pending 94 (by decide) (by decide) h
  · rwa [he]

/-! ### One entry written (R436, R438) -/

/-- The entry is listed and EVT_LOG_PI has moved; the overrun and the watermark come next. -/
def Dev.logListed (d : Dev) (code source info data : Nat) : Dev :=
  (d.listEntry ⟨code, source, info, data % 2 ^ 32, d.now⟩).wrap Reg.EVT_LOG_PI_VALUE

section
variable (d : Dev) (code source info data : Nat)

theorem Dev.log_eq : d.log code source info data = ((d.logListed code source info data).logOverrun d.logFill).logMark d.logFill := rfl

theorem Dev.f_logListed_ne {r : RF} (h : r.key ≠ Reg.EVT_LOG_PI_VALUE.key) : (d.logListed code source info data).f r = d.f r :=
  Dev.f_setF_ne _ _ h

theorem Dev.logListed_pi : (d.logListed code source info data).f Reg.EVT_LOG_PI_VALUE = (d.f Reg.EVT_LOG_PI_VALUE + 1) % 2 ^ 32 :=
  Dev.f_setF_same _ _ _

/-- Past the listing, an entry writes EVT_LOG_CI, EVT_LOG_OVW and the word of sources 94 and 95 alone. -/
theorem Dev.f_log_eq_listed {r : RF} (hci : r.key ≠ Reg.EVT_LOG_CI_VALUE.key) (hovw : r.key ≠ Reg.EVT_LOG_OVW_VALUE.key)
    (hpend : r.key ≠ (Reg.EVT_PEND_SRC 2).key) :
    (d.log code source info data).f r = (d.logListed code source info data).f r := by
  rw [Dev.log_eq, Dev.f_logMark_ne _ _ hpend, Dev.f_logOverrun_ne _ _ hci hovw hpend]

theorem Dev.log_pi : (d.log code source info data).f Reg.EVT_LOG_PI_VALUE = (d.f Reg.EVT_LOG_PI_VALUE + 1) % 2 ^ 32 := by
  rw [Dev.f_log_eq_listed d _ _ _ _ (by decide) (by decide) (by decide), Dev.logListed_pi]

/-- An entry leaves the words latched before it (R437). -/
theorem Dev.log_latchedWord {j : Nat} (hj : j < 4) :
    (d.log code source info data).f (Reg.EVT_LOG_W_WORD j) = d.f (Reg.EVT_LOG_W_WORD j) := by
  have hkey : ∀ r : RF, r.lo = 0 → r.addr < 0x20004040 → (Reg.EVT_LOG_W_WORD j).key ≠ r.key := fun r hlo ha =>
    RF.key_ne (by simp only [Reg.EVT_LOG_W_WORD, Reg.EVT_LOG_W_at]; omega) (hlo ▸ by decide) (show 0 < 32 by decide)
  rw [Dev.f_log_eq_listed d _ _ _ _ (hkey _ rfl (by decide)) (hkey _ rfl (by decide)) (hkey _ rfl (by decide)),
    Dev.f_logListed_ne d _ _ _ _ (hkey _ rfl (by decide))]

theorem Dev.log_stale : (d.log code source info data).f Reg.EVT_LOG_SSTAT_STALE = d.f Reg.EVT_LOG_SSTAT_STALE := by
  rw [Dev.f_log_eq_listed d _ _ _ _ (by decide) (by decide) (by decide), Dev.f_logListed_ne d _ _ _ _ (by decide)]

/-- Below 4096 unconsumed entries the consumer index and the overwrite count stay, as every field but the producer index and
source 94's word does. -/
theorem Dev.f_log_of_room (h : d.logFill < 4096) {r : RF} (hpi : r.key ≠ Reg.EVT_LOG_PI_VALUE.key)
    (hpend : r.key ≠ (Reg.EVT_PEND_SRC 2).key) : (d.log code source info data).f r = d.f r := by
  rw [Dev.log_eq, Dev.logOverrun_of_room _ h, Dev.f_logMark_ne _ _ hpend, Dev.f_logListed_ne d _ _ _ _ hpi]

/-- A full log gives up its oldest entry: the consumer index moves, and the overwrite is counted and raised (R438). -/
theorem Dev.log_of_full (h : 4096 ≤ d.logFill) :
    (d.log code source info data).f Reg.EVT_LOG_CI_VALUE = (d.f Reg.EVT_LOG_CI_VALUE + 1) % 2 ^ 32 ∧
    (d.log code source info data).f Reg.EVT_LOG_OVW_VALUE = min (2 ^ 32 - 1) (d.f Reg.EVT_LOG_OVW_VALUE + 1) ∧
    (d.log code source info data).tb (Reg.EVT_PEND_SRC 2) 31 = true := by
  have hlog := d.log_eq code source info data
  rw [Dev.logOverrun_of_full _ h] at hlog
  rw [hlog]
  refine ⟨?ci, ?ovw, Dev.logMark_keeps_overwrite _ _ (Dev.pend_pends _ 95)⟩
  case ci =>
    rw [Dev.f_logMark_ne _ _ (by decide), Dev.f_pend_ne _ 95 (by decide), Dev.bump_eq, Dev.f_setF_ne _ _ (by decide), Dev.wrap_eq,
      Dev.f_setF_same, Dev.f_logListed_ne d _ _ _ _ (by decide)]
    rfl
  case ovw =>
    rw [Dev.f_logMark_ne _ _ (by decide), Dev.f_pend_ne _ 95 (by decide), Dev.bump_eq, Dev.f_setF_same, Dev.wrap_eq,
      Dev.f_setF_ne _ _ (by decide), Dev.f_logListed_ne d _ _ _ _ (by decide)]
    exact Nat.mod_eq_of_lt (Nat.lt_of_le_of_lt (Nat.min_le_left _ _) (by decide))

end

/-! ### The window (R437) -/

/-- A row of fields set leaves a field that is none of them. -/
theorem Dev.f_forEach_setF_ne (d : Dev) {n : Nat} {r : Nat → RF} (x : Nat → Nat) {r' : RF} (h : ∀ i < n, r'.key ≠ (r i).key) :
    (forEach n d (fun d i => d.setF (r i) (x i))).f r' = d.f r' := by
  induction n with
  | zero => rfl
  | succ n ih => rw [forEach_succ, Dev.f_setF_ne _ _ (h n n.lt_succ_self), ih (fun i hi => h i (Nat.lt_succ_of_lt hi))]

/-- Each field of a row of different fields reads what it was set to. -/
theorem Dev.f_forEach_setF (d : Dev) {n j : Nat} {r : Nat → RF} (x : Nat → Nat) (hr : ∀ i, i ≠ j → (r j).key ≠ (r i).key)
    (hj : j < n) : (forEach n d (fun d i => d.setF (r i) (x i))).f (r j) = x j % 2 ^ (r j).w := by
  induction n with
  | zero => omega
  | succ n ih =>
    rw [forEach_succ]
    obtain hlt | rfl := Nat.lt_succ_iff_lt_or_eq.mp hj
    · rw [Dev.f_setF_ne _ _ (hr n (by omega)), ih hlt]
    · exact Dev.f_setF_same _ _ _

/-- The window after EVT_LOG_SEL is written: the index, STALE and the four words. -/
def Dev.latchWindow (d : Dev) (i : Nat) (stale : Bool) (ws : List Nat) : Dev :=
  forEach 4 ((d.setF Reg.EVT_LOG_SEL_INDEX i).setB Reg.EVT_LOG_SSTAT_STALE stale)
    (fun d j => d.setF (Reg.EVT_LOG_W_WORD j) (ws.getD j 0))

/-- The `n`-th newest entry, still held, is latched. -/
theorem Dev.logSelect_of_held {d : Dev} {i : Nat} {n : Int} {e : LogEntry} (hn : sdiff32 (d.f Reg.EVT_LOG_PI_VALUE) i = n)
    (hpos : 0 < n) (hle : n ≤ 4096) (he : d.evlog[n.toNat - 1]? = some e) : d.logSelect i = d.latchWindow i false e.words := by
  have hstale : decide (n ≤ 0 ∨ 4096 < n) = false := decide_eq_false (by omega)
  have hentry : (d.evlog.drop (n.toNat - 1)).headD ⟨0, 0, 0, 0, 0⟩ = e := by
    rw [List.headD_eq_head?_getD, List.head?_drop, he, Option.getD_some]
  unfold Dev.logSelect
  dsimp only
  rw [hn, hstale, hentry]
  rfl

theorem Dev.logSelect_of_stale {d : Dev} {i : Nat} {n : Int} (hn : sdiff32 (d.f Reg.EVT_LOG_PI_VALUE) i = n) (h : n ≤ 0 ∨ 4096 < n) :
    d.logSelect i = d.latchWindow i true [] := by
  unfold Dev.logSelect
  dsimp only
  rw [hn, decide_eq_true h]
  rfl

section
variable (d : Dev) (i : Nat) (stale : Bool) (ws : List Nat)

theorem Dev.latchWindow_word {j : Nat} (hj : j < 4) : (d.latchWindow i stale ws).f (Reg.EVT_LOG_W_WORD j) = ws.getD j 0 % 2 ^ 32 := by
  refine Dev.f_forEach_setF _ (fun j => ws.getD j 0) (fun k hk => RF.key_ne ?_ (show 0 < 32 by decide) (show 0 < 32 by decide)) hj
  simp only [Reg.EVT_LOG_W_WORD, Reg.EVT_LOG_W_at]
  omega

/-- A field outside the four words is as the index and STALE leave it. -/
theorem Dev.f_latchWindow_ne {r : RF} (hlo : r.lo < 32) (h : r.addr < 0x20004040 ∨ 0x20004050 ≤ r.addr) :
    (d.latchWindow i stale ws).f r = ((d.setF Reg.EVT_LOG_SEL_INDEX i).setB Reg.EVT_LOG_SSTAT_STALE stale).f r :=
  Dev.f_forEach_setF_ne _ _ (fun _ hj => RF.key_ne (by simp only [Reg.EVT_LOG_W_WORD, Reg.EVT_LOG_W_at]; omega)
    (show 0 < 32 by decide) hlo)

theorem Dev.latchWindow_stale : (d.latchWindow i stale ws).bit Reg.EVT_LOG_SSTAT_STALE = stale := by
  unfold Dev.bit
  rw [Dev.f_latchWindow_ne d i stale ws (by decide) (by decide)]
  exact Dev.bit_setB_same _ _ stale (by decide)

theorem Dev.f_latchWindow_outside {r : RF} (hlo : r.lo < 32) (h : r.addr < 0x20004000 ∨ 0x20004800 ≤ r.addr) :
    (d.latchWindow i stale ws).f r = d.f r := by
  have hkey : ∀ r' : RF, r'.lo = 0 → 0x20004000 ≤ r'.addr → r'.addr < 0x20004800 → r.key ≠ r'.key := fun r' hlo' hge hlt =>
    RF.key_ne (by omega) (hlo' ▸ by decide) hlo
  rw [Dev.f_latchWindow_ne d i stale ws hlo (by omega), Dev.f_setB_ne _ _ (hkey _ rfl (by decide) (by decide)),
    Dev.f_setF_ne _ _ (hkey _ rfl (by decide) (by decide))]

theorem Dev.latchWindow_sparesMem : Dev.SparesMem d (d.latchWindow i stale ws) :=
  List.foldlRecOn _ _ (motive := Dev.SparesMem d) ⟨rfl, rfl, rfl⟩ (fun e he _ _ => he.trans (e.setF_sparesMem _ _))

end

theorem exec_logSelect {s : State} {src : Src} (w : Word) (hg : (s.dev.guard src Reg.EVT_LOG_SEL_at true).isNone = true) :
    exec (.logSelect src w) s = s.done ((s.dev.answer 0).logSelect w.toNat) :=
  congrArg s.done (Dev.onWrite_unguarded hg _)

/-- A write of EVT_LOG_SEL that latches the window shows STALE and the words, and changes no register outside the event block and no
memory. -/
theorem Answers.of_logSelect {s : State} {src : Src} {w : Word} {stale : Bool} {ws : List Nat} (hr : Reaches s src Reg.EVT_LOG_SEL_at)
    (hs : Clean s) (h : (s.dev.answer 0).logSelect w.toNat = (s.dev.answer 0).latchWindow w.toNat stale ws) :
    Answers (.logSelect src w) s (fun t => t.dev.bit Reg.EVT_LOG_SSTAT_STALE = stale ∧ SameRegs s t ∧ SameMem s t ∧
      ∀ j < 4, t.dev.f (Reg.EVT_LOG_W_WORD j) = ws.getD j 0 % 2 ^ 32) :=
  Answers.of_done hr.1 ((exec_logSelect w hr.2).trans (congrArg s.done h)) ⟨Dev.latchWindow_stale _ _ _ _,
    fun _ hlo hout => Dev.f_latchWindow_outside _ _ _ _ hlo hout,
    State.commit_sameMem hs ((s.dev.answer_sparesMem 0).trans (Dev.latchWindow_sparesMem _ _ _ _)),
    fun _ hj => Dev.latchWindow_word _ _ _ _ hj⟩

/-! ### The consumer index (R147, R438) -/

theorem exec_logCiWrite {s : State} {src : Src} (w : Word) (hg : (s.dev.guard src Reg.EVT_LOG_CI_at true).isNone = true) :
    exec (.logCiWrite src w) s = s.done ((s.dev.answer 0).logCi src w.toNat) :=
  congrArg s.done (Dev.onWrite_unguarded hg _)

theorem Dev.logCi_taken {d : Dev} {c : Nat} (src : Src)
    (h : consumerOk (d.f Reg.EVT_LOG_PI_VALUE) (d.f Reg.EVT_LOG_CI_VALUE) c = true) :
    d.logCi src c = d.setF Reg.EVT_LOG_CI_VALUE c := if_pos h

theorem Dev.logCi_refused {d : Dev} {c : Nat} (src : Src)
    (h : consumerOk (d.f Reg.EVT_LOG_PI_VALUE) (d.f Reg.EVT_LOG_CI_VALUE) c = false) :
    d.logCi src c = d.logRefused src Reg.EVT_LOG_CI_at := if_neg (Bool.not_eq_true _ ▸ h)

/-- Whether the index is taken or refused, EVT_LOG_CI's write changes registers and reports alone. -/
theorem Dev.logCi_sparesMem (d : Dev) (src : Src) (c : Nat) : Dev.SparesMem d (d.logCi src c) := by
  unfold Dev.logCi
  split
  · exact d.setF_sparesMem _ _
  · exact (d.logRefused_reports src _).sparesMem

theorem Dev.f_logCi_outside (d : Dev) (src : Src) (c : Nat) {r : RF} (hlo : r.lo < 32) (h : r.addr < 0x20004000 ∨ 0x20004800 ≤ r.addr) :
    (d.logCi src c).f r = d.f r := by
  unfold Dev.logCi
  split
  · exact d.f_setF_addr_ne c (by simp only [Reg.EVT_LOG_CI_VALUE, Reg.EVT_LOG_CI_at]; omega) (by decide) hlo
  · exact Dev.f_log d _ _ _ _ r h hlo

/-- EVT_LOG_CI's write answers; what the index reads then is all that is left to say. -/
theorem Answers.of_logCi {s : State} {src : Src} {w : Word} {c : Nat} (hr : Reaches s src Reg.EVT_LOG_CI_at) (hs : Clean s)
    (hc : ((s.dev.answer 0).logCi src w.toNat).f Reg.EVT_LOG_CI_VALUE = c) :
    Answers (.logCiWrite src w) s (fun t => t.dev.f Reg.EVT_LOG_CI_VALUE = c ∧ SameRegs s t ∧ SameMem s t) :=
  Answers.of_done hr.1 (exec_logCiWrite w hr.2) ⟨hc, fun _ hlo hout => Dev.f_logCi_outside _ _ _ hlo hout,
    State.commit_sameMem hs ((s.dev.answer_sparesMem 0).trans (Dev.logCi_sparesMem _ _ _))⟩

/-- Settles O57: an entry written, by whether the log was full; EVT_LOG_SEL, by whether the entry is held; EVT_LOG_CI, by whether the
index passes the consumer tests. -/
theorem logEntriesAreNeverRefused : Obligations.LogEntriesAreNeverRefused := by
  refine ⟨fun d code source info data => ?entry, fun s src w hreach hclean => ?select,
    fun s src w hreach hclean => ?consume⟩
  case entry =>
    exact ⟨d.log_newest _ _ _ _, d.log_pi _ _ _ _, fun j hj => d.log_latchedWord _ _ _ _ hj, d.log_stale _ _ _ _,
      fun hfull => d.log_of_full _ _ _ _ hfull.ge,
      fun hroom => ⟨d.f_log_of_room _ _ _ _ hroom (by decide) (by decide), d.f_log_of_room _ _ _ _ hroom (by decide) (by decide)⟩⟩
  case select =>
    exact ⟨fun _ hpos hle he => Answers.of_logSelect hreach hclean (Dev.logSelect_of_held rfl hpos hle he),
      fun hstale => Answers.of_logSelect (ws := []) hreach hclean (Dev.logSelect_of_stale rfl hstale)⟩
  case consume =>
    refine ⟨fun hok => Answers.of_logCi hreach hclean ?taken, fun hbad hroom => Answers.of_logCi hreach hclean ?refused⟩
    case taken =>
      rw [Dev.logCi_taken (d := s.dev.answer 0) src hok, Dev.f_setF_same]
      exact Nat.mod_eq_of_lt w.isLt
    case refused =>
      rw [Dev.logCi_refused (d := s.dev.answer 0) src hbad, Dev.logRefused]
      exact (s.dev.answer 0).f_log_of_room _ _ _ _ hroom (by decide) (by decide)

end Sys2Proof.Machine
end

section
/-!
PROOF. What every step keeps and every command answers: one tick of the idle block, and the front command's outcome, which comes from the
state it meets by commits.
-/

namespace Sys2Proof.Machine
open Sys2Proof

/-! ### What the lanes' sending leaves unchanged (R45-R73) -/

/-- From `d` to `e` only lanes, channels and the KILL counters changed and blocks were sent. -/
structure Dev.OnlySends (d e : Dev) : Prop where
  work : Dev.Work RF.Far d e
  wq : e.wq = d.wq

theorem Dev.OnlySends.refl (d : Dev) : Dev.OnlySends d d := ⟨.refl d, rfl⟩

theorem Dev.OnlySends.trans {d e g : Dev} (h : Dev.OnlySends d e) (h' : Dev.OnlySends e g) : Dev.OnlySends d g :=
  ⟨h.work.trans h'.work, h'.wq.trans h.wq⟩

theorem Dev.OnlySends.sparesMem {d e : Dev} (h : Dev.OnlySends d e) : Dev.SparesMem d e :=
  ⟨h.wq, h.work.lost, congrArg₂ Prod.mk h.work.vatEpoch h.work.dramEpoch⟩

theorem Dev.OnlySends.ite {d a b : Dev} {c : Prop} [Decidable c] (ha : Dev.OnlySends d a) (hb : Dev.OnlySends d b) :
    Dev.OnlySends d (if c then a else b) := by
  split <;> assumption

theorem Dev.modLane_sends (d : Dev) (v : Fin 16) (g : Lane → Lane) : Dev.OnlySends d (d.modLane v g) :=
  ⟨(d.modLane_work v g).far, rfl⟩

theorem Dev.modChan_sends (d : Dev) (v k : Fin 16) (g : Chan → Chan) : Dev.OnlySends d (d.modChan v k g) :=
  ⟨(d.modChan_work v k g).far, rfl⟩

theorem Dev.modGuard_sends (d : Dev) (v k : Fin 16) (g : Guard → Guard) : Dev.OnlySends d (d.modGuard v k g) :=
  ⟨(d.modGuard_work v k g).far, rfl⟩

theorem Dev.emit_sends (d : Dev) (o : Output) : Dev.OnlySends d (d.emit o) := ⟨by constructor <;> intros <;> rfl, rfl⟩

theorem Dev.bumpKills_sends (d : Dev) (v : Fin 16) : Dev.OnlySends d (d.bump (Reg.LANE_KILL_CNT_COUNT v.1)) :=
  ⟨d.setF_far _ _ (show 0 < 32 by decide) (.inr (by simp only [Reg.LANE_KILL_CNT_COUNT, Reg.LANE_KILL_CNT_at]; omega)), rfl⟩

theorem Dev.takeSlot_sends (d : Dev) (v : Fin 16) (payload : Nat) (o : Output) : Dev.OnlySends d (d.takeSlot v payload o) :=
  (d.modLane_sends v _).trans (Dev.emit_sends _ o)

theorem Dev.sendCmd_sends (d : Dev) (v k : Fin 16) : Dev.OnlySends d (d.sendCmd v k) :=
  ((d.modChan_sends v k _).trans (Dev.modGuard_sends _ v k _)).trans (Dev.takeSlot_sends _ v _ _)

theorem Dev.sendKill_sends (d : Dev) (v : Fin 16) (mask cause kseq : Nat) : Dev.OnlySends d (d.sendKill v mask cause kseq) :=
  (d.modLane_sends v _).trans (Dev.takeSlot_sends _ v _ _)

theorem Dev.killEmit_sends (d : Dev) (v : Fin 16) : Dev.OnlySends d (d.killEmit v) := by
  unfold Dev.killEmit
  split
  · exact .ite (((d.modLane_sends v _).trans (Dev.bumpKills_sends _ v)).trans (Dev.sendKill_sends _ v _ _ _)) (.refl d)
  · exact .refl d

theorem Dev.killRepeat_sends (d : Dev) (v : Fin 16) : Dev.OnlySends d (d.killRepeat v) := by
  unfold Dev.killRepeat
  split
  · exact .ite ((d.modLane_sends v _).trans (Dev.sendKill_sends _ v _ _ _)) (.refl d)
  · exact .refl d

theorem Dev.cfgSend_sends (d : Dev) (v : Fin 16) : Dev.OnlySends d (d.cfgSend v) := by
  unfold Dev.cfgSend
  split
  · exact .ite ((d.modLane_sends v _).trans (Dev.takeSlot_sends _ v _ _)) (.refl d)
  · exact .refl d

theorem Dev.sendSpare_sends (d : Dev) (v : Fin 16) : Dev.OnlySends d (d.sendSpare v) :=
  have spare : Dev.OnlySends d ((d.killRepeat v).cfgSend v) := (d.killRepeat_sends v).trans (Dev.cfgSend_sends _ v)
  .ite spare (spare.trans (Dev.takeSlot_sends _ v _ _))

theorem Dev.sendSlot_sends (d : Dev) (v : Fin 16) (s n : Nat) : Dev.OnlySends d (d.sendSlot v s n) := by
  refine (d.killEmit_sends v).trans ?_
  unfold Dev.sendSlot
  dsimp only
  refine .ite (.refl _) (.ite (Dev.takeSlot_sends _ v _ _) (.ite (Dev.takeSlot_sends _ v _ _) ?_))
  split
  · exact (Dev.OnlySends.ite (.refl _) (Dev.modChan_sends _ v _ _)).trans (Dev.sendCmd_sends _ v _)
  · exact Dev.sendSpare_sends _ v

theorem Dev.txLane_sends (d : Dev) (v : Fin 16) (s n : Nat) : Dev.OnlySends d (d.txLane v s n) :=
  .ite (.refl d) ((d.sendSlot_sends v s n).trans (Dev.modLane_sends _ v _))

theorem Dev.transmit_sends (d : Dev) : Dev.OnlySends d d.transmit := by
  unfold Dev.transmit
  split
  · exact List.foldlRecOn _ _ (motive := Dev.OnlySends d) (.refl d) (fun e he v _ => he.trans (e.txLane_sends v _ _))
  · exact .refl d

/-- With every lane OFF nothing is sent (R72). -/
theorem Dev.transmit_of_off {d : Dev} (h : ∀ v : Fin 16, d.laneState v = laneOff) : d.transmit = d := by
  unfold Dev.transmit
  split
  · exact List.foldlRecOn _ _ (motive := fun e => e = d) rfl (fun e he v _ => by rw [he]; exact if_pos (h v))
  · rfl

/-! ### One tick (R31, R33, R34, R42; log entry 1) -/

/-- The rail's move changes the rail's voltage alone. -/
theorem Dev.moveRail_eq (d : Dev) (was : Nat) : ∃ x, d.moveRail was = d.setRailNow x := by
  unfold Dev.moveRail
  dsimp only
  split_ifs
  case pos | neg => exact ⟨d.railNow, rfl⟩
  all_goals exact ⟨_, rfl⟩

/-- A slew's tick changes what it has absorbed and TB_SLEW.REM alone. -/
theorem Dev.slewTick_eq (d : Dev) : ∃ a, d.slewTick = d.setSlewAcc a ∨ ∃ x, d.slewTick = (d.setSlewAcc a).setF Reg.TB_SLEW_REM x := by
  unfold Dev.slewTick
  dsimp only
  split_ifs
  · exact ⟨d.slewAcc, .inl rfl⟩
  · exact ⟨_, .inl rfl⟩
  · exact ⟨_, .inr ⟨_, rfl⟩⟩
  · exact ⟨_, .inl rfl⟩
  · exact ⟨_, .inr ⟨_, rfl⟩⟩

/-- What a tick does to the device past the lanes' sending: TB_NOW and power-die time. -/
def Dev.counted (d : Dev) : Dev := (d.setNow ((d.now + 1) % 2 ^ 64)).upTick

theorem Dev.pass_held {d : Dev} (h : d.sup.held = true) : d.pass = d.setUp (d.up + 1) := if_pos h

/-- A tick of the released logic die: the lanes send, the counters move, a slew absorbs, the rail moves. -/
theorem Dev.pass_live {d : Dev} (h : d.sup.held = false) : ∃ a x, d.pass = ((d.transmit.counted).setSlewAcc a).setRailNow x ∨
    ∃ r, d.pass = (((d.transmit.counted).setSlewAcc a).setF Reg.TB_SLEW_REM r).setRailNow x := by
  obtain ⟨x, hx⟩ := d.transmit.counted.slewTick.moveRail_eq d.transmit.up
  have hp : d.pass = d.transmit.counted.slewTick.setRailNow x := (if_neg (by rw [h]; decide)).trans hx
  obtain ⟨a, ha | ⟨r, ha⟩⟩ := d.transmit.counted.slewTick_eq
  · exact ⟨a, x, .inl (by rw [hp, ha])⟩
  · exact ⟨a, x, .inr ⟨r, by rw [hp, ha]⟩⟩

theorem Dev.pass_sparesMem (d : Dev) : Dev.SparesMem d d.pass := by
  obtain hheld | hlive := Bool.eq_false_or_eq_true d.sup.held
  · rw [Dev.pass_held hheld]
    exact ⟨rfl, rfl, rfl⟩
  · refine d.transmit_sends.sparesMem.trans ?_
    obtain ⟨a, x, he | ⟨r, he⟩⟩ := Dev.pass_live hlive <;> rw [he] <;> exact ⟨rfl, rfl, rfl⟩

theorem Dev.transmit_tbRate (d : Dev) : d.transmit.tbRate = d.tbRate := by
  have hf : ∀ r : RF, r.lo < 32 → r.addr = Reg.TB_SLEW_at ∨ r.addr = Reg.TB_TRIM_at ∨ r.addr = Reg.TB_SLEW_RATE.addr →
      d.transmit.f r = d.f r := fun r hl ha => d.transmit_sends.work.f r ⟨hl, by
        simp only [Reg.TB_SLEW_at, Reg.TB_TRIM_at, Reg.TB_SLEW_RATE] at ha; omega⟩
  unfold Dev.tbRate
  rw [hf Reg.TB_SLEW_REM (by decide) (.inl rfl), hf Reg.TB_TRIM_PPB (by decide) (.inr (.inl rfl)),
    hf Reg.TB_SLEW_RATE (by decide) (.inr (.inr rfl))]

section
variable {d : Dev} (h : d.sup.held = false)
include h

theorem Dev.pass_now : d.pass.now = (d.now + 1) % 2 ^ 64 := by
  have hnow : d.transmit.now = d.now := d.transmit_sends.work.now
  obtain ⟨a, x, he | ⟨r, he⟩⟩ := Dev.pass_live h <;> rw [he, ← hnow] <;> rfl

theorem Dev.pass_of_off (hoff : ∀ v : Fin 16, d.laneState v = laneOff) : d.pass.out = d.out ∧ d.pass.vats = d.vats := by
  have hlive := Dev.pass_live h
  rw [Dev.transmit_of_off hoff] at hlive
  obtain ⟨a, x, he | ⟨r, he⟩⟩ := hlive <;> rw [he] <;> exact ⟨rfl, rfl⟩

/-- Power-die time in one tick of TB_NOW (R33). -/
theorem Dev.pass_up : d.pass.up = d.up + (d.upAcc + 10 ^ 9) / d.tbRate ∧ d.pass.upAcc = (d.upAcc + 10 ^ 9) % d.tbRate := by
  have hup : d.transmit.up = d.up := d.transmit_sends.work.up
  have hacc : d.transmit.upAcc = d.upAcc := d.transmit_sends.work.upAcc
  obtain ⟨a, x, he | ⟨r, he⟩⟩ := Dev.pass_live h <;> rw [he, ← hup, ← hacc, ← d.transmit_tbRate] <;> exact ⟨rfl, rfl⟩

end

/-- Without a slew the rate is the trim's alone (R33). -/
theorem Dev.tbRate_of_no_slew {d : Dev} {rate : Nat} (hs : d.f Reg.TB_SLEW_REM = 0) (hr : (rate : Int) = 10 ^ 9 + signed 32 (d.f Reg.TB_TRIM_PPB)) :
    d.tbRate = rate := by
  have h0 : signed 24 0 = 0 := by decide
  unfold Dev.tbRate
  simp only [hs, h0, if_true, Int.zero_mul, Int.add_zero, ← hr, Int.toNat_natCast]

/-- Settles O1. -/
theorem stepRunsTheFrontCommand : Obligations.StepRunsTheFrontCommand := by
  refine ⟨fun s c rest => rfl, fun s hempty => ?_⟩
  have hstep : step s = .next s.idle := by
    unfold step
    rw [hempty]
  refine ⟨s.idle, hstep, hempty, rfl, fun hheld => Dev.pass_held hheld, fun hlive => ⟨Dev.pass_now hlive, fun hoff => Dev.pass_of_off hlive hoff, ?plain, ?rate⟩⟩
  all_goals obtain ⟨hup, hacc⟩ := Dev.pass_up hlive
  case plain =>
    intro hs ht h0
    have hrate : s.dev.tbRate = 10 ^ 9 := Dev.tbRate_of_no_slew hs (by rw [ht]; decide)
    rw [hrate, h0] at hup hacc
    exact ⟨hup, hacc⟩
  case rate =>
    intro rate hs hr hpos
    rw [Dev.tbRate_of_no_slew hs hr] at hup hacc
    have hdiv := Nat.div_add_mod (s.dev.upAcc + 10 ^ 9) rate
    refine ⟨hacc ▸ Nat.mod_lt _ hpos, ?_, hup ▸ Nat.le_add_right _ _⟩
    show (s.dev.pass.up - s.dev.up) * rate + s.dev.pass.upAcc = _
    rw [hup, hacc, Nat.add_sub_cancel_left, Nat.mul_comm, hdiv]

/-! ### Every command answers (R14) -/

section
variable {s : State} (h : s.dev.sup.held = true)
include h

theorem State.pairWrite_held (src : Src) (a : Nat) (w : Word) {now : Out} (hnow : now = .next s) : s.pairWrite src a w now = .next s := by
  unfold State.pairWrite
  split
  · exact s.done_held _ h
  · exact hnow

theorem State.store_held (src : Src) (a : Nat) (w : Word) : s.store src a w = .next s :=
  State.pairWrite_held h src a w (if_pos h)

theorem State.afterCompare_held (r : Dev × Option (Src × Nat × Word)) : s.afterCompare r = .next s := by
  unfold State.afterCompare
  split
  · exact if_pos h
  · exact s.done_held _ h

theorem State.access_held (src : Src) (op : MemOp) (addr size data : Nat) (ecc : Ecc) : s.access src op addr size data ecc = .next s := by
  unfold State.access
  repeat' split
  all_goals first
    | exact s.done_held _ h
    | exact State.store_held h _ _ _

/-- While the logic die is held, a command of its own does nothing (R14, log entry 2). -/
theorem exec_held (i : Instr) (hi : powerDie i = false) : exec i s = .next s := by
  have ite_store : ∀ (c : Prop) [Decidable c] (src : Src) (a : Nat) (w : Word), (if c then s.store src a w else s.done s.dev) = .next s :=
    fun c _ src a w => by split <;> [exact State.store_held h src a w; exact s.done_held _ h]
  have ite_compare : ∀ (c : Prop) [Decidable c] (r : Dev × Option (Src × Nat × Word)),
      (if c then s.afterCompare r else s.done s.dev) = .next s :=
    fun c _ r => by split <;> [exact State.afterCompare_held h r; exact s.done_held _ h]
  cases i
  case registerWrite src addr data => exact ite_store _ src addr data
  case pairHighWrite src addr data => exact ite_store _ src addr data
  case lockstepCompare => exact ite_compare _ _
  case stateDigest => exact ite_compare _ _
  case injectionTest => exact ite_compare _ _
  case memoryAccessDone ecc =>
    show execMemoryAccessDone ecc s = _
    unfold execMemoryAccessDone
    split
    · exact if_pos h
    · exact s.done_held _ h
  all_goals first
    | exact s.done_held _ h
    | exact Bool.noConfusion hi
    | exact State.access_held h _ _ _ _ _ _
    | exact State.pairWrite_held h _ _ _ (s.done_held _ h)

end

/-- Settles O2. -/
theorem everyCommandAnswers : Obligations.EveryCommandAnswers := by
  refine ⟨fun i s => ?_, fun i s h hi => exec_held h i hi⟩
  obtain ⟨t, ht, hev⟩ := exec_form i s
  exact ⟨t, ht, hev.pending⟩

/-- Settles O4: an idle tick leaves the memory; the front command's outcome evolves by commits, each of which keeps the canonical form. -/
theorem everyStepKeepsTheInvariant : Obligations.EveryStepKeepsTheInvariant := by
  intro s hinv
  obtain ⟨hwf, hclean⟩ := hinv
  unfold step
  split
  case h_1 =>
    have hmem := s.dev.pass_sparesMem
    have hidle : s.idle.dev.ep = s.dev.ep := hmem.ep
    refine ⟨s.idle, rfl, ?_, hmem.wq.trans hclean.1, hmem.lost.trans hclean.2⟩
    rw [hidle]
    exact hwf
  case h_2 c rest _ =>
    obtain ⟨t, ht, hev⟩ := exec_form c { s with pending := rest }
    exact ⟨t, ht, hev.wf hwf, hev.clean hclean⟩

/-! ### The state after reset (R8, R399) -/

/-- At reset every channel is the initial one (log entry 3). -/
theorem State.reset_chan (v k : Fin 16) : State.reset.dev.chan v k = ({} : Chan) := by
  have hvat : (Vector.replicate 16 ({} : Vat))[v.1] = {} := Vector.getElem_replicate v.2
  show ((Vector.replicate 16 ({} : Vat))[v.1]).chans[k.1] = _
  rw [hvat]
  exact Vector.getElem_replicate k.2

/-- Settles O3. -/
theorem resetStateIsTheSpecs : Obligations.ResetStateIsTheSpecs := by
  refine ⟨⟨⟨rfl, fun c hc => (List.not_mem_nil hc).elim⟩, rfl, rfl⟩, rfl, rfl, rfl, State.reset_f, rfl, fun i hi => ?slices,
    fun v => ⟨rfl, rfl, rfl, ?idle, fun k => ?chan⟩, rfl, rfl, fun a ha => ?sram⟩
  case slices => exact if_neg (fun h0 => hi (Fin.ext h0))
  case idle => exact List.all_eq_true.mpr (fun k _ => by rw [State.reset_chan]; rfl)
  case chan => rw [State.reset_chan]; exact ⟨rfl, rfl, rfl⟩
  case sram => exact if_pos ha

end Sys2Proof.Machine
end

section
/-!
PROOF. A start the balancer admits keeps every scope within its limits (R127): what the two tests of one scope say, by PAIR.
-/

namespace Sys2Proof.Machine
open Sys2Proof

/-- What R127 asks of one scope: a draw stays within the draw limit, a regeneration within the regeneration limit. -/
def ScopeWithin (pair : Bool) (r : Resv) (x : Sums) (draw regen : Nat) : Prop :=
  (0 < r.u → draw = 0xFFFFFFFF ∨ (if pair then x.u else x.d) + r.u ≤ draw * 1000) ∧
  (r.l < 0 → regen = 0xFFFFFFFF ∨ -(regen * 1000 : Int) ≤ (if pair then x.l else x.g) + r.l)

theorem within_iff (lim : Nat) (sum add : Int) : within lim sum add = true ↔ lim = 0xFFFFFFFF ∨ add ≤ 0 ∨ sum + add ≤ lim * 1000 := by
  simp only [within, Bool.or_eq_true, beq_iff_eq, decide_eq_true_eq, or_assoc]

theorem within_zero (lim : Nat) (sum : Int) : within lim sum 0 = true := (within_iff _ _ _).mpr (.inr (.inl le_rfl))

theorem scopeTest_zero (pair : Bool) (s : Sums) (draw regen : Nat) : scopeTest pair s ⟨0, 0⟩ draw regen = true := by
  cases pair <;> exact Bool.and_eq_true_iff.mpr ⟨within_zero _ _, within_zero _ _⟩

/-- A scope that passes its tests stays within its limits. -/
theorem scopeWithin_of_scopeTest {pair : Bool} {s : Sums} {r : Resv} {draw regen : Nat} (h : scopeTest pair s r draw regen = true) :
    ScopeWithin pair r s draw regen := by
  cases pair
  all_goals
    obtain ⟨hdraw, hregen⟩ := Bool.and_eq_true_iff.mp h
    rw [within_iff] at hdraw hregen
    refine ⟨fun hu => hdraw.imp_right (fun hd => ?_), fun hl => hregen.imp_right (fun hr => ?_)⟩
  case false.refine_1 | false.refine_2 => simp only [Bool.false_eq_true, if_false]; omega
  case true.refine_1 | true.refine_2 => simp only [if_true]; omega

/-- Settles O18: each scope by its own test. -/
theorem admissionIsWithinTheLimits : Obligations.AdmissionIsWithinTheLimits := by
  refine ⟨fun d v k r hadm => ?_, fun d v k => ?_⟩
  · obtain ⟨hvatSeg, hslice⟩ := Bool.and_eq_true_iff.mp hadm
    obtain ⟨hvat, hseg⟩ := Bool.and_eq_true_iff.mp hvatSeg
    exact ⟨scopeWithin_of_scopeTest hvat, scopeWithin_of_scopeTest hslice,
      fun hstrict => scopeWithin_of_scopeTest ((Bool.or_eq_true_iff.mp hseg).resolve_left (by rw [hstrict]; decide))⟩
  · simp only [Dev.admitted, scopeTest_zero, Bool.or_true, Bool.and_true]

end Sys2Proof.Machine
end

section
/-!
PROOF. Reading a register field past the settings of other fields, and what stays when a meaning is committed: the rules the later
proofs share.
-/

namespace Sys2Proof.Machine
open Sys2Proof

/-- A field at another address or another bit reads as before; the test on written-out fields is arithmetic. -/
@[simp] theorem Dev.f_setF_off (d : Dev) {r r' : RF} (x : Nat) (hl : r.lo < 32) (hl' : r'.lo < 32) (h : ¬(r'.addr = r.addr ∧ r'.lo = r.lo)) :
    (d.setF r x).f r' = d.f r' := by
  refine Dev.f_setF_ne d x ?_
  by_cases ha : r'.addr = r.addr
  · exact RF.key_ne_lo (fun hlo => h ⟨ha, hlo⟩) hl hl'
  · exact RF.key_ne ha hl hl'

@[simp] theorem Dev.f_setB_off (d : Dev) {r r' : RF} (b : Bool) (hl : r.lo < 32) (hl' : r'.lo < 32) (h : ¬(r'.addr = r.addr ∧ r'.lo = r.lo)) :
    (d.setB r b).f r' = d.f r' := d.f_setF_off _ hl hl' h

@[simp] theorem Dev.f_setTb_off (d : Dev) {r r' : RF} (i : Nat) (b : Bool) (hl : r.lo < 32) (hl' : r'.lo < 32)
    (h : ¬(r'.addr = r.addr ∧ r'.lo = r.lo)) : (d.setTb r i b).f r' = d.f r' := d.f_setF_off _ hl hl' h

@[simp] theorem Dev.f_bump_off (d : Dev) {r r' : RF} (n : Nat) (hl : r.lo < 32) (hl' : r'.lo < 32)
    (h : ¬(r'.addr = r.addr ∧ r'.lo = r.lo)) : (d.bump r n).f r' = d.f r' := d.f_setF_off _ hl hl' h

@[simp] theorem Dev.f_wrap_off (d : Dev) {r r' : RF} (n : Nat) (hl : r.lo < 32) (hl' : r'.lo < 32)
    (h : ¬(r'.addr = r.addr ∧ r'.lo = r.lo)) : (d.wrap r n).f r' = d.f r' := d.f_setF_off _ hl hl' h

/-- A saturating counter one further. -/
@[simp] theorem Dev.f_bump_same (d : Dev) (r : RF) (n : Nat) : (d.bump r n).f r = min (2 ^ r.w - 1) (d.f r + n) := by
  rw [Dev.bump_eq, Dev.f_setF_same]
  have := Nat.two_pow_pos r.w
  exact Nat.mod_eq_of_lt (by omega)

@[simp] theorem Dev.f_setB_same (d : Dev) (r : RF) (b : Bool) (h : 0 < r.w) : (d.setB r b).f r = if b then 1 else 0 := by
  have h1 : 1 < 2 ^ r.w := Nat.one_lt_two_pow (by omega)
  rw [Dev.setB_eq, Dev.f_setF_same]
  cases b
  · exact Nat.zero_mod _
  · exact Nat.mod_eq_of_lt h1

/-- A report leaves the fields outside the event block as they were. -/
@[simp] theorem Dev.f_pend_off (d : Dev) {i : Nat} {r : RF} (hi : i < 4096) (hl : r.lo < 32) (h : r.addr < 0x20004000 ∨ 0x20004800 ≤ r.addr) :
    (d.pend i).f r = d.f r := d.f_pend r hi h hl

@[simp] theorem Dev.f_log_off (d : Dev) (c s i x : Nat) {r : RF} (hl : r.lo < 32) (h : r.addr < 0x20004000 ∨ 0x20004800 ≤ r.addr) :
    (d.log c s i x).f r = d.f r := d.f_log c s i x r h hl

@[simp] theorem Dev.f_raise_off (d : Dev) {e r : RF} (m : Nat) {i : Nat} (hi : i < 4096) (hl : r.lo < 32) (he : e.lo < 32)
    (h : r.addr < 0x20004000 ∨ 0x20004800 ≤ r.addr) (hne : ¬(r.addr = e.addr ∧ r.lo = e.lo)) : (d.raise e m i).f r = d.f r := by
  refine d.f_raise e r m hi ?_ h hl
  by_cases ha : r.addr = e.addr
  · exact RF.key_ne_lo (fun hlo => hne ⟨ha, hlo⟩) he hl
  · exact RF.key_ne ha he hl

@[simp] theorem ite_one_zero_beq_one (b : Bool) : ((if b then 1 else 0 : Nat) == 1) = b := by cases b <;> rfl

theorem Dev.setResp_sparesMem (d : Dev) (x : Resp) : Dev.SparesMem d (d.setResp x) := ⟨rfl, rfl, rfl⟩

/-- A meaning that spares the memory leaves the memory's list as it was. -/
theorem State.commit_mem_of_spares {s : State} {d : Dev} (hs : Clean s) (h : Dev.SparesMem s.dev d) : (s.commit d).mem = s.mem :=
  s.commit_mem d (h.wq.trans hs.1) (h.lost.trans hs.2) h.ep

/-! ### Fields kept -/

/-- From `d` to `e` the fields of `P` keep their values. -/
def Dev.Keeps (P : RF → Prop) (d e : Dev) : Prop := ∀ r : RF, P r → e.f r = d.f r

section
variable {P : RF → Prop} {d e g : Dev}

theorem Dev.Keeps.refl (d : Dev) : Dev.Keeps P d d := fun _ _ => rfl

theorem Dev.Keeps.of_regs (h : e.regs = d.regs) : Dev.Keeps P d e := fun r _ => Dev.f_of_regs h r

theorem Dev.Keeps.trans (h : Dev.Keeps P d e) (h' : Dev.Keeps P e g) : Dev.Keeps P d g := fun r hr => (h' r hr).trans (h r hr)

theorem Dev.Keeps.mono {Q : RF → Prop} (hPQ : ∀ r, Q r → P r) (h : Dev.Keeps P d e) : Dev.Keeps Q d e := fun r hr => h r (hPQ r hr)

theorem Dev.Keeps.ite {c : Prop} [Decidable c] {a b : Dev} (ha : Dev.Keeps P d a) (hb : Dev.Keeps P d b) :
    Dev.Keeps P d (if c then a else b) := by
  split <;> assumption

theorem Dev.Keeps.foldl {α : Type} {k : Dev → α → Dev} (xs : List α) (h : ∀ d, ∀ x ∈ xs, Dev.Keeps P d (k d x)) (d : Dev) :
    Dev.Keeps P d (xs.foldl k d) :=
  List.foldlRecOn xs k (motive := Dev.Keeps P d) (.refl d) (fun e he x hx => he.trans (h e x hx))

/-- A field outside `P` may be set. -/
theorem Dev.Keeps.setF (h : ∀ r, P r → r.lo < 32) (d : Dev) {r : RF} (x : Nat) (hl : r.lo < 32) (ha : ∀ r', P r' → r'.addr ≠ r.addr) :
    Dev.Keeps P d (d.setF r x) := fun r' hr' => d.f_setF_addr_ne x (ha r' hr') hl (h r' hr')

end

end Sys2Proof.Machine
end

section
/-!
PROOF. Accesses that no target performs, and denied accesses (R5, R28, R29, R308): the error answer, the log entry, and for a denial
what the checker records.
-/

namespace Sys2Proof.Machine
open Sys2Proof

/-! ### A bad access (R5, R28) -/

theorem Dev.badAccess_eq (d : Dev) (src : Src) (write : Bool) (addr : Nat) : d.badAccess src write addr =
    ((d.setResp ⟨0, true⟩).log 0x01 79 (accInfo src write 0) (if inSetup addr then setupOff addr else page addr)).pend 79 := rfl

theorem Dev.badAccess_reports (d : Dev) (src : Src) (write : Bool) (addr : Nat) :
    Dev.Reports (d.setResp ⟨0, true⟩) (d.badAccess src write addr) := by
  rw [Dev.badAccess_eq]
  exact (Dev.log_same _ _ _ _ _).trans (Dev.pend_same _ _)

theorem Dev.f_badAccess (d : Dev) (src : Src) (write : Bool) (addr : Nat) {r : RF} (hl : r.lo < 32)
    (h : r.addr < 0x20004000 ∨ 0x20004800 ≤ r.addr) : (d.badAccess src write addr).f r = d.f r := by
  rw [Dev.badAccess_eq, Dev.f_pend _ r (by decide) h hl, Dev.f_log _ _ _ _ _ r h hl, Dev.setResp_f]

theorem Dev.badAccess_sparesMem (d : Dev) (src : Src) (write : Bool) (addr : Nat) : Dev.SparesMem d (d.badAccess src write addr) :=
  (d.setResp_sparesMem _).trans (d.badAccess_reports src write addr).sparesMem

theorem Dev.badAccess_resp (d : Dev) (src : Src) (write : Bool) (addr : Nat) : (d.badAccess src write addr).resp = ⟨0, true⟩ :=
  (d.badAccess_reports src write addr).resp

theorem page_lt (addr : Nat) : page addr < 2 ^ 32 := Nat.lt_of_lt_of_le (Nat.mod_lt _ (by decide)) (by decide)

/-- The word an entry of a bad access records fits its place. -/
theorem badAccess_data_lt (addr : Nat) : (if inSetup addr then setupOff addr else page addr) < 2 ^ 32 := by
  split
  · rename_i h
    simp only [inSetup, Bool.and_eq_true, decide_eq_true_eq] at h
    unfold setupOff
    omega
  · exact page_lt addr

theorem Dev.badAccess_newest (d : Dev) (src : Src) (write : Bool) (addr : Nat) : (d.badAccess src write addr).evlog.head? =
    some ⟨0x01, 79, accInfo src write 0, if inSetup addr then setupOff addr else page addr, d.now⟩ := by
  rw [Dev.badAccess_eq, Dev.pend_evlog, Dev.log_newest, Nat.mod_eq_of_lt (badAccess_data_lt addr), Dev.setResp_now]

/-- An access no checker, reset or port stops is answered as one its target does not perform. -/
theorem Dev.notPerformed_eq {d : Dev} {src : Src} {write : Bool} {addr : Nat} (hsrc : d.srcOk src = true)
    (hreset : (d.inReset src).isNone = true) (hport : d.portOff src = false)
    (hcheck : ∀ t ∈ checkerOf addr, (d.checked t src (if write then .write else .read) addr).isNone = true) :
    d.notPerformed src write addr = d.badAccess src write addr := by
  unfold Dev.notPerformed
  simp only [hsrc, Option.isNone_iff_eq_none.mp hreset, hport, Bool.not_true, Bool.false_eq_true, if_false]
  split
  · rfl
  · rename_i t hc
    rw [Option.isNone_iff_eq_none.mp (hcheck t hc)]

theorem Answers.of_badAccess {i : Instr} {s : State} {src : Src} {write : Bool} {addr : Nat} (hl : Live s) (hs : Clean s)
    (he : exec i s = s.done (s.dev.badAccess src write addr)) :
    Answers i s (fun t => t.dev.resp = ⟨0, true⟩ ∧ t.mem = s.mem ∧ SameRegs s t ∧
      t.dev.evlog.head? = some ⟨0x01, 79, accInfo src write 0, if inSetup addr then setupOff addr else page addr, s.dev.now⟩) := by
  refine .of_done hl he ?_
  rw [State.commit_resp, State.commit_evlog, Dev.badAccess_resp, Dev.badAccess_newest]
  refine ⟨rfl, State.commit_mem_of_spares hs (Dev.badAccess_sparesMem _ _ _ _), fun r hlo h => ?_, rfl⟩
  rw [State.commit_f, Dev.f_badAccess _ _ _ _ hlo h]

/-! ### A denied access (R29, R308) -/

/-- The checker's record of a denied access, before the log entry. -/
def Dev.denialNoted (d : Dev) (t : Nat) (src : Src) (kind : AccessKind) (addr : Nat) : Dev :=
  ((((((((d.setResp ⟨0, true⟩).bump (Reg.RC_DENY_COUNT t)).setF (Reg.RC_LAST_ADDR_PAGE t) (page addr)).setF (Reg.RC_LAST_SRC_MASTER t)
    src.master.1).setB (Reg.RC_LAST_SRC_SECURE t) src.secure).setB (Reg.RC_LAST_SRC_WRITE t) (kind == .write)).setB
    (Reg.RC_LAST_SRC_EXEC t) (kind == .exec)).setF (Reg.RC_LAST_SRC_SLICE t) src.slice.1)

section
variable (d : Dev) (t : Nat) (src : Src) (kind : AccessKind) (addr : Nat)

theorem Dev.deny_eq : d.deny t src kind addr =
    ((d.denialNoted t src kind addr).log 0x02 67 (accInfo src (kind == .write) t) (page addr)).pend 67 := rfl

theorem Dev.deny_reports : Dev.Reports (d.denialNoted t src kind addr) (d.deny t src kind addr) := by
  rw [Dev.deny_eq]
  exact (Dev.log_same _ _ _ _ _).trans (Dev.pend_same _ _)

/-- Past the record, a denial writes the event block alone. -/
theorem Dev.f_deny {r : RF} (hl : r.lo < 32) (h : r.addr < 0x20004000 ∨ 0x20004800 ≤ r.addr) :
    (d.deny t src kind addr).f r = (d.denialNoted t src kind addr).f r := by
  rw [Dev.deny_eq, Dev.f_pend _ r (by decide) h hl, Dev.f_log _ _ _ _ _ r h hl]

theorem Dev.denialNoted_sparesMem : Dev.SparesMem d (d.denialNoted t src kind addr) := ⟨rfl, rfl, rfl⟩

theorem Dev.denialNoted_now : (d.denialNoted t src kind addr).now = d.now := rfl
theorem Dev.denialNoted_resp : (d.denialNoted t src kind addr).resp = ⟨0, true⟩ := rfl

theorem Dev.deny_sparesMem : Dev.SparesMem d (d.deny t src kind addr) :=
  (d.denialNoted_sparesMem t src kind addr).trans (d.deny_reports t src kind addr).sparesMem

theorem Dev.deny_newest : (d.deny t src kind addr).evlog.head? =
    some ⟨0x02, 67, accInfo src (kind == .write) t, page addr, d.now⟩ := by
  rw [Dev.deny_eq, Dev.pend_evlog, Dev.log_newest, Nat.mod_eq_of_lt (page_lt addr), Dev.denialNoted_now]

/-- A field outside the checkers is as before. -/
theorem Dev.f_denialNoted_outside (ht : t < 17) {r : RF} (hl : r.lo < 32) (h : r.addr < 0x20090000 ∨ 0x20094400 ≤ r.addr) :
    (d.denialNoted t src kind addr).f r = d.f r := by
  have hne : ∀ (e : Dev) (r' : RF) (x : Nat), r'.lo < 32 → 0x20090000 ≤ r'.addr → r'.addr < 0x20094400 → (e.setF r' x).f r = e.f r :=
    fun e r' x hl' hge hlt => Dev.f_setF_ne e x (RF.key_ne (by omega) hl' hl)
  unfold Dev.denialNoted
  simp only [Dev.setB_eq, Dev.bump_eq]
  iterate 7 rw [hne _ _ _ (Nat.le_of_ble_eq_true rfl)
    (by simp only [Reg.RC_LAST_SRC_SLICE, Reg.RC_LAST_SRC_EXEC, Reg.RC_LAST_SRC_WRITE, Reg.RC_LAST_SRC_SECURE, Reg.RC_LAST_SRC_MASTER, Reg.RC_LAST_ADDR_PAGE, Reg.RC_DENY_COUNT, Reg.RC_LAST_SRC_at, Reg.RC_LAST_ADDR_at, Reg.RC_DENY_at]; omega)
    (by simp only [Reg.RC_LAST_SRC_SLICE, Reg.RC_LAST_SRC_EXEC, Reg.RC_LAST_SRC_WRITE, Reg.RC_LAST_SRC_SECURE, Reg.RC_LAST_SRC_MASTER, Reg.RC_LAST_ADDR_PAGE, Reg.RC_DENY_COUNT, Reg.RC_LAST_SRC_at, Reg.RC_LAST_ADDR_at, Reg.RC_DENY_at]; omega)]
  rfl

/-- What the checker shows of the access it denied. -/
theorem Dev.denialNoted_record :
    (d.denialNoted t src kind addr).f (Reg.RC_DENY_COUNT t) = min (2 ^ 32 - 1) (d.f (Reg.RC_DENY_COUNT t) + 1) ∧
    (d.denialNoted t src kind addr).f (Reg.RC_LAST_ADDR_PAGE t) = page addr ∧
    (d.denialNoted t src kind addr).f (Reg.RC_LAST_SRC_MASTER t) = src.master.1 ∧
    (d.denialNoted t src kind addr).bit (Reg.RC_LAST_SRC_SECURE t) = src.secure ∧
    (d.denialNoted t src kind addr).bit (Reg.RC_LAST_SRC_WRITE t) = (kind == .write) ∧
    (d.denialNoted t src kind addr).bit (Reg.RC_LAST_SRC_EXEC t) = (kind == .exec) ∧
    (d.denialNoted t src kind addr).f (Reg.RC_LAST_SRC_SLICE t) = src.slice.1 := by
  have hpage : page addr < 268435456 := Nat.mod_lt _ (by decide)
  unfold Dev.denialNoted Dev.bit
  simp [Dev.f_setF_off, Dev.f_setB_off, Dev.f_setB_same, Dev.f_bump_same, hpage, Reg.RC_LAST_SRC_SECURE, Reg.RC_LAST_SRC_SLICE,
    Reg.RC_LAST_SRC_EXEC, Reg.RC_LAST_SRC_WRITE, Reg.RC_LAST_SRC_MASTER, Reg.RC_DENY_COUNT, Reg.RC_LAST_ADDR_PAGE, Reg.RC_LAST_SRC_at,
    Reg.RC_DENY_at, Reg.RC_LAST_ADDR_at]

end

/-- What a denied access leaves (R29, R308). -/
theorem Answers.of_deny {i : Instr} {s : State} {t : Nat} {src : Src} {kind : AccessKind} {addr : Nat} (hl : Live s) (hs : Clean s)
    (ht : t < 17) (he : exec i s = s.done (s.dev.deny t src kind addr)) :
    Answers i s (fun u => u.dev.resp = ⟨0, true⟩ ∧ u.mem = s.mem ∧
      u.dev.f (Reg.RC_DENY_COUNT t) = min (2 ^ 32 - 1) (s.dev.f (Reg.RC_DENY_COUNT t) + 1) ∧
      u.dev.f (Reg.RC_LAST_ADDR_PAGE t) = page addr ∧ u.dev.f (Reg.RC_LAST_SRC_MASTER t) = src.master.1 ∧
      u.dev.bit (Reg.RC_LAST_SRC_SECURE t) = src.secure ∧ u.dev.bit (Reg.RC_LAST_SRC_WRITE t) = (kind == .write) ∧
      u.dev.bit (Reg.RC_LAST_SRC_EXEC t) = (kind == .exec) ∧ u.dev.f (Reg.RC_LAST_SRC_SLICE t) = src.slice.1 ∧
      u.dev.evlog.head? = some ⟨0x02, 67, accInfo src (kind == .write) t, page addr, s.dev.now⟩ ∧
      (∀ r : RF, r.lo < 32 → (r.addr < 0x20004000 ∨ (0x20004800 ≤ r.addr ∧ r.addr < 0x20090000) ∨ 0x20094400 ≤ r.addr) →
        u.dev.f r = s.dev.f r)) := by
  obtain ⟨hcount, hpage, hmaster, hsecure, hwrite, hexec, hslice⟩ := s.dev.denialNoted_record t src kind addr
  have hf : ∀ r : RF, r.lo < 32 → r.addr < 0x20004000 ∨ 0x20004800 ≤ r.addr →
      (s.commit (s.dev.deny t src kind addr)).dev.f r = (s.dev.denialNoted t src kind addr).f r := fun r hlo h => by
    rw [State.commit_f, Dev.f_deny _ _ _ _ _ hlo h]
  have hrc : ∀ r : RF, r.lo < 32 → r.addr = Reg.RC_DENY_at t ∨ r.addr = Reg.RC_LAST_ADDR_at t ∨ r.addr = Reg.RC_LAST_SRC_at t →
      (s.commit (s.dev.deny t src kind addr)).dev.f r = (s.dev.denialNoted t src kind addr).f r := fun r hlo h => hf r hlo (by
    simp only [Reg.RC_DENY_at, Reg.RC_LAST_ADDR_at, Reg.RC_LAST_SRC_at] at h
    omega)
  have hlast : ∀ lo w, lo < 32 → (s.commit (s.dev.deny t src kind addr)).dev.f ⟨Reg.RC_LAST_SRC_at t, lo, w, 0, false⟩ =
      (s.dev.denialNoted t src kind addr).f ⟨Reg.RC_LAST_SRC_at t, lo, w, 0, false⟩ := fun lo w hlo => hrc _ hlo (.inr (.inr rfl))
  have hbit : ∀ lo w, lo < 32 → (s.commit (s.dev.deny t src kind addr)).dev.bit ⟨Reg.RC_LAST_SRC_at t, lo, w, 0, false⟩ =
      (s.dev.denialNoted t src kind addr).bit ⟨Reg.RC_LAST_SRC_at t, lo, w, 0, false⟩ := fun lo w hlo => congrArg (· == 1) (hlast lo w hlo)
  refine .of_done hl he ⟨?_, State.commit_mem_of_spares hs (Dev.deny_sparesMem _ _ _ _ _), (hrc _ (show 0 < 32 by decide) (.inl rfl)).trans hcount,
    (hrc _ (show 0 < 32 by decide) (.inr (.inl rfl))).trans hpage, (hlast _ _ (by decide)).trans hmaster, (hbit _ _ (by decide)).trans hsecure,
    (hbit _ _ (by decide)).trans hwrite, (hbit _ _ (by decide)).trans hexec, (hlast _ _ (by decide)).trans hslice, ?_, fun r hlo h => ?_⟩
  · rw [State.commit_resp, (s.dev.deny_reports t src kind addr).resp, Dev.denialNoted_resp]
  · rw [State.commit_evlog, Dev.deny_newest]
  · rw [hf r hlo (by omega), Dev.f_denialNoted_outside _ _ _ _ _ ht hlo (by omega)]

/-! ### Which accesses come to that -/

/-- A single access the checker does not permit is denied. -/
theorem Dev.checked_of_not_permits {d : Dev} {t : Nat} {src : Src} {kind : AccessKind} {addr : Nat} (hb : bypasses src = false)
    (hp : d.permits t src kind addr = false) : d.checked t src (opOf kind) addr = some (d.deny t src kind addr) := by
  cases kind <;> simp [Dev.checked, opOf, hb, hp]

theorem State.access_of_denied {s : State} {src : Src} {op : MemOp} {addr t : Nat} {e : Dev} (size data : Nat) (ecc : Ecc)
    (hsrc : s.dev.srcOk src = true) (hreset : (s.dev.inReset src).isNone = true) (hport : s.dev.portOff src = false)
    (htcm : tcmKey src addr = none) (ht : checkerOf addr = some t) (he : s.dev.checked t src op addr = some e) :
    s.access src op addr size data ecc = s.done e := by
  unfold State.access
  simp only [hsrc, Option.isNone_iff_eq_none.mp hreset, hport, htcm, ht, he, Bool.not_true, Bool.false_eq_true, if_false]

theorem checkerOf_setup {addr : Nat} (h : inSetup addr = true) : checkerOf addr = some 14 := by
  simp only [inSetup, Bool.and_eq_true, decide_eq_true_eq] at h
  unfold checkerOf
  rw [if_neg (by omega), if_neg (by omega), if_neg (by omega), if_pos (by omega)]

/-- Settles O5: two accesses no target performs, and a denied one. -/
theorem accessesThatAreNotPerformed : Obligations.AccessesThatAreNotPerformed := by
  refine ⟨⟨fun s src addr write hclean hsetup hlive hsrc hreset hport hcheck => ?narrow,
    fun s src addr write hclean hun hlive hsrc hreset hport hcheck => ?unmapped⟩,
    fun s src kind addr size data t ecc hlive hclean hsrc hreset hport htcm ht hb hp => ?denied⟩
  case narrow =>
    have hbad : s.dev.notPerformed src write addr = s.dev.badAccess src write addr :=
      Dev.notPerformed_eq hsrc hreset hport (fun t ht => by
        obtain rfl : 14 = t := Option.some.inj ((checkerOf_setup hsetup).symm.trans ht)
        exact hcheck)
    have hexec : exec (.narrowAccess src addr write) s = s.done (s.dev.badAccess src write addr) := by
      rw [← hbad]
      exact congrArg s.done (if_pos hsetup)
    have h := Answers.of_badAccess hlive hclean hexec
    rw [if_pos hsetup] at h
    exact h
  case unmapped =>
    have hbad := Dev.notPerformed_eq hsrc hreset hport hcheck
    have hexec : exec (.unmappedAccess src addr write) s = s.done (s.dev.badAccess src write addr) := by
      rw [← hbad]
      exact congrArg s.done (if_pos hun)
    exact Answers.of_badAccess hlive hclean hexec
  case denied =>
    exact Answers.of_deny hlive hclean (checkerOf_lt ht)
      (State.access_of_denied size data ecc hsrc hreset hport htcm ht (Dev.checked_of_not_permits hb hp))

end Sys2Proof.Machine
end

section
/-!
PROOF. Permitted accesses to memory (R11, R308, R351, R353, R357): the target performs the access, the caches of the cores only follow it,
and what is committed is the bytes the access stores.
-/

namespace Sys2Proof.Machine
open Sys2Proof

/-! ### The caches follow an access (R298, R314) -/

/-- From `d` to `e` only the cores' caches and the free values have moved. -/
structure Dev.OnlyCaches (d e : Dev) : Prop where
  regs : e.regs = d.regs
  resp : e.resp = d.resp
  wq : e.wq = d.wq
  lost : e.lost = d.lost
  ep : e.ep = d.ep

theorem Dev.OnlyCaches.refl (d : Dev) : Dev.OnlyCaches d d := ⟨rfl, rfl, rfl, rfl, rfl⟩

theorem Dev.OnlyCaches.trans {d e g : Dev} (h : Dev.OnlyCaches d e) (h' : Dev.OnlyCaches e g) : Dev.OnlyCaches d g :=
  ⟨h'.regs.trans h.regs, h'.resp.trans h.resp, h'.wq.trans h.wq, h'.lost.trans h.lost, h'.ep.trans h.ep⟩

theorem Dev.l2Fill_caches (d : Dev) (secure : Bool) (line : Nat) : Dev.OnlyCaches d (d.l2Fill secure line) := by
  unfold Dev.l2Fill
  dsimp only
  split_ifs <;> exact ⟨rfl, rfl, rfl, rfl, rfl⟩

theorem Dev.l1Store_caches (d before : Dev) (word : Nat → Nat → Nat) (n addr size : Nat) :
    Dev.OnlyCaches d (d.l1Store before word n addr size) := ⟨rfl, rfl, rfl, rfl, rfl⟩

theorem Dev.cached_caches (d before : Dev) (word : Nat → Nat → Nat) (src : Src) (op : MemOp) (addr size : Nat) :
    Dev.OnlyCaches d (d.cached before word src op addr size) := by
  have filled : ∀ xs : List Nat, Dev.OnlyCaches d (xs.foldl (fun d i => d.l2Fill src.secure (addr / 64 + i)) d) := fun xs =>
    List.foldlRecOn _ _ (motive := Dev.OnlyCaches d) (.refl d) (fun e he i _ => he.trans (e.l2Fill_caches _ _))
  unfold Dev.cached
  dsimp only
  split_ifs
  · exact .refl d
  · exact (filled _).trans (Dev.l1Store_caches _ _ _ _ _ _)
  · exact filled _

/-! ### Which accesses a memory performs -/

theorem Dev.atMemory_of_performs {s : State} {op : MemOp} {addr size : Nat} (h : Performs s op addr size) (word : Nat → Nat → Nat)
    (src : Src) (data : Nat) : s.dev.atMemory word src op addr size data .ok =
      (s.dev.perform word op addr size data).cached s.dev word src op addr size := by
  obtain ⟨hserves, hatomic, hwhere⟩ := h
  unfold Dev.atMemory
  rw [hserves, Bool.not_true, if_neg Bool.false_ne_true]
  dsimp only
  congr 1
  by_cases hsram : inSram addr = true
  · rw [if_pos hsram]
    simp only [Dev.atBank, hatomic, Bool.false_and, Bool.false_eq_true, if_false]
  · rw [if_neg hsram]
    obtain hs | ⟨hvat, hfit, hnat, hfence⟩ | ⟨hvat, hdram | hread⟩ := hwhere
    · exact absurd hs hsram
    · rw [if_pos hvat]
      have hfit' : ¬(0x800 < addr % 0x40000 + size) := by omega
      simp only [Dev.atVatSram, hfit', hnat, hatomic, hfence, Bool.not_true, Bool.false_eq_true, or_self, if_false]
    · rw [hvat, if_neg Bool.false_ne_true, if_pos hdram]
      simp only [Dev.atDram, hatomic, Bool.false_eq_true, if_false]
    · rw [hvat, if_neg Bool.false_ne_true, hatomic, hread, if_neg Bool.false_ne_true, if_neg Bool.false_ne_true]
      split
      · simp only [Dev.atDram, hatomic, Bool.false_eq_true, if_false]
      · rfl

/-- An SRAM bank performs an atomic operation of 4 or 8 aligned bytes (R353). -/
theorem Dev.atMemory_of_atomic {d : Dev} {op : MemOp} {addr size : Nat} (hserves : d.serves addr = true) (hsram : inSram addr = true)
    (hsize : size = 4 ∨ size = 8) (halign : addr % size = 0) (word : Nat → Nat → Nat) (src : Src) (data : Nat) :
    d.atMemory word src op addr size data .ok = (d.perform word op addr size data).cached d word src op addr size := by
  have hok : ((size == 4 || size == 8) && addr % size == 0) = true := by
    rw [halign]
    obtain rfl | rfl := hsize <;> rfl
  unfold Dev.atMemory
  rw [hserves, Bool.not_true, if_neg Bool.false_ne_true, if_pos hsram]
  simp only [Dev.atBank, hok, Bool.not_true, Bool.and_false, Bool.false_eq_true, if_false]

/-- A permitted access beyond the setup space comes to its memory. -/
theorem State.access_of_permitted {s : State} {src : Src} {op : MemOp} {addr t : Nat} (h : Permitted s src op addr t) (ht : t ≠ 14)
    (size data : Nat) (ecc : Ecc) : s.access src op addr size data ecc = s.done (s.dev.atMemory s.memWord src op addr size data ecc) := by
  obtain ⟨-, hsrc, hreset, hport, htcm, hchk, hperm⟩ := h
  unfold State.access
  simp only [hsrc, Option.isNone_iff_eq_none.mp hreset, hport, htcm, hchk, Option.isNone_iff_eq_none.mp hperm, ht, Bool.not_true,
    Bool.false_eq_true, if_false]

/-! ### What is committed -/

/-- One posted write of a clean state is what the memory holds after it. -/
theorem State.commit_stored {s : State} {d : Dev} {a : Nat} {bs : List Byte} (hwq : d.wq = [(a, bs)]) (hlost : d.lost = [])
    (hep : d.ep = s.dev.ep) : Stored s (s.commit d) a bs := by
  have hmem : (s.commit d).mem = Mem.writes s.mem s.dev.ep a bs := by
    unfold State.commit
    rw [hwq, hlost, hep, Mem.drop_nil]
    rfl
  have hep' : (s.commit d).dev.ep = s.dev.ep := hep
  unfold Stored
  rw [hmem, hep']
  exact ⟨Mem.reads_writes _ _ _ _, fun x hx => Mem.read_writes_out _ _ _ _ x hx⟩

/-- An access performed without a write answers and leaves the memory and the registers (R11). -/
theorem Answers.of_read {i : Instr} {s : State} {d : Dev} {x : Nat} (hl : Live s) (hs : Clean s) (he : exec i s = s.done d)
    (hd : Dev.OnlyCaches (s.dev.answer x) d) : Answers i s (fun u => u.dev.resp = ⟨x, false⟩ ∧ u.mem = s.mem ∧ SameRegs s u) := by
  refine .of_done hl he ⟨hd.resp, State.commit_mem_of_spares hs ⟨hd.wq, hd.lost, hd.ep⟩, fun r _ _ => ?_⟩
  rw [State.commit_f, Dev.f_of_regs hd.regs]
  rfl

/-- An access performed with a write answers, stores its bytes and leaves the registers (R11, R353). -/
theorem Answers.of_stored {i : Instr} {s : State} {d : Dev} {x a : Nat} {bs : List Byte} (hl : Live s) (hs : Clean s)
    (he : exec i s = s.done d) (hd : Dev.OnlyCaches ((s.dev.answer x).post a bs) d) :
    Answers i s (fun u => u.dev.resp = ⟨x, false⟩ ∧ Stored s u a bs ∧ SameRegs s u) := by
  have hwq : d.wq = [(a, bs)] := hd.wq.trans (congrArg (· ++ [(a, bs)]) hs.1)
  refine .of_done hl he ⟨hd.resp, State.commit_stored hwq (hd.lost.trans hs.2) hd.ep, fun r _ _ => ?_⟩
  rw [State.commit_f, Dev.f_of_regs hd.regs]
  rfl

/-- Settles O6: what the memory performs, by the operation. -/
theorem memoryAccessesReadAndWrite : Obligations.MemoryAccessesReadAndWrite := by
  refine ⟨fun s src kind addr size data t hs hkind hperm ht hdoes => ?read, fun s src addr size data t hs hperm ht hdoes => ?write,
    fun s src addr size data t hs hperm hserves hsram hsize halign => ?add,
    fun s src addr size data t hs hperm hserves hsram hsize halign => ?swap⟩
  case read =>
    have hexec : exec (.checkedAccess src kind addr size data .ok) s = _ := State.access_of_permitted hperm ht size data .ok
    rw [Dev.atMemory_of_performs hdoes] at hexec
    refine .of_read hperm.1 hs hexec ?_
    cases kind with
    | write => exact absurd rfl hkind
    | read | exec => exact Dev.cached_caches _ _ _ _ _ _ _
  case write =>
    have hexec : exec (.checkedAccess src .write addr size data .ok) s = _ := State.access_of_permitted hperm ht size data .ok
    rw [Dev.atMemory_of_performs hdoes] at hexec
    exact .of_stored hperm.1 hs hexec (Dev.cached_caches _ _ _ _ _ _ _)
  all_goals
    have ht : t ≠ 14 := by
      obtain ⟨-, -, -, -, -, hchk, -⟩ := hperm
      rintro rfl
      simp only [inSram, Bool.and_eq_true, decide_eq_true_eq] at hsram
      unfold checkerOf at hchk
      split_ifs at hchk <;> (have := Option.some.inj hchk; omega)
  case add =>
    have hexec : exec (.atomicAdd src addr size data .ok) s = _ := State.access_of_permitted hperm ht size data .ok
    rw [Dev.atMemory_of_atomic hserves hsram hsize halign] at hexec
    exact .of_stored hperm.1 hs hexec (Dev.cached_caches _ _ _ _ _ _ _)
  case swap =>
    have hexec : exec (.atomicSwap src addr size data .ok) s = _ := State.access_of_permitted hperm ht size data .ok
    rw [Dev.atMemory_of_atomic hserves hsram hsize halign] at hexec
    exact .of_stored hperm.1 hs hexec (Dev.cached_caches _ _ _ _ _ _ _)

end Sys2Proof.Machine
end

section
/-!
PROOF. Register writes by field type (R6, R7, R9) and 64-bit pairs (R10): one field of one register after the register's fields were
written in turn, then what a whole write and a pair's two accesses do.
-/

namespace Sys2Proof.Machine
open Sys2Proof

/-! ### The register table: the fields of a row are apart -/

/-- The fields of a row start at different bits of the word. -/
def RegRow.fieldsApart (r : RegRow) : Bool := (r.fields.map (·.lo)).Nodup && r.fields.all (fun f => f.lo < 32)

theorem allRows_fieldsApart : Reg.allRows.all RegRow.fieldsApart = true := by decide +kernel

theorem Reg.row_fieldsApart {a : Nat} {row : RegRow} (h : Reg.row a = some row) :
    (row.fields.map (·.lo)).Nodup ∧ ∀ f ∈ row.fields, f.lo < 32 := by
  have hrow := List.all_eq_true.mp allRows_fieldsApart row (List.mem_of_find?_eq_some h)
  simpa only [RegRow.fieldsApart, Bool.and_eq_true, decide_eq_true_eq, List.all_eq_true] using hrow

/-! ### One field written (R6, R7) -/

/-- What a field reads after a write its own rules let act. -/
def FieldRow.written (d : Dev) (base a w : Nat) (f : FieldRow) : Nat :=
  match f.ty with
  | .rw => if f.admits (bits w f.lo f.w) then bits w f.lo f.w else d.f (f.sel base a)
  | .ro | .wo => d.f (f.sel base a)
  | .w1c => (d.f (f.sel base a) - (d.f (f.sel base a) &&& bits w f.lo f.w) |||
      d.f (f.sel base a) &&& d.freshMask (f.sel base a)) % 2 ^ f.w
  | .w1s => (d.f (f.sel base a) ||| bits w f.lo f.w) % 2 ^ f.w

theorem bits_mod (x lo w : Nat) : bits x lo w % 2 ^ w = bits x lo w := Nat.mod_mod _ _

theorem Dev.f_writeField_same (d : Dev) (base a w : Nat) (f : FieldRow) :
    (d.writeField base a w .act f).1.f (f.sel base a) = f.written d base a w := by
  have hw : (f.sel base a).w = f.w := rfl
  unfold Dev.writeField FieldRow.written
  dsimp only
  cases f.ty with
  | ro | wo => rfl
  | w1c => exact Dev.f_setF_same d _ _
  | w1s => exact Dev.f_setF_same d _ _
  | rw =>
    simp only [if_true]
    split
    · rw [Dev.f_setF_same, hw, bits_mod]
    · rfl

/-- A field's write sets that field, or nothing. -/
theorem Dev.writeField_cases (d : Dev) (base a w : Nat) (v : Verdict) (f : FieldRow) :
    (d.writeField base a w v f).1 = d ∨ ∃ x, (d.writeField base a w v f).1 = d.setF (f.sel base a) x := by
  unfold Dev.writeField
  dsimp only
  cases f.ty with
  | ro | wo => exact .inl rfl
  | w1c => exact .inr ⟨_, rfl⟩
  | w1s => dsimp only; split <;> [exact .inr ⟨_, rfl⟩; exact .inl rfl]
  | rw =>
    dsimp only
    split_ifs
    · exact .inr ⟨_, rfl⟩
    · exact .inl rfl
    · exact .inl rfl

section
variable {base a w : Nat} {f g : FieldRow} (hne : g.lo ≠ f.lo) (hf : f.lo < 32) (hg : g.lo < 32)
include hne hf hg

theorem Dev.f_writeField_off (d : Dev) (v : Verdict) : (d.writeField base a w v g).1.f (f.sel base a) = d.f (f.sel base a) := by
  obtain h | ⟨x, h⟩ := d.writeField_cases base a w v g
  · rw [h]
  · rw [h, Dev.f_setF_lo_ne d x (r' := f.sel base a) (Ne.symm hne) hg hf]

/-- The write of one field does not change what the write of another leaves. -/
theorem FieldRow.written_writeField (d : Dev) (v : Verdict) : f.written (d.writeField base a w v g).1 base a w = f.written d base a w := by
  have hfresh : (d.writeField base a w v g).1.freshMask (f.sel base a) = d.freshMask (f.sel base a) := by
    obtain h | ⟨x, h⟩ := d.writeField_cases base a w v g <;> rw [h]
    rfl
  unfold FieldRow.written
  rw [Dev.f_writeField_off hne hf hg, hfresh]

end

/-! ### A register's fields written in turn -/

section
variable {base a w : Nat} {pick : FieldRow → Verdict} {f : FieldRow} (hf : f.lo < 32)
include hf

/-- One more field of the register, as `Dev.tryRow` writes it. -/
abbrev tryField (base a w : Nat) (pick : FieldRow → Verdict) (r : Dev × Verdict) (g : FieldRow) : Dev × Verdict :=
  ((r.1.writeField base a w (pick g) g).1, r.2.join (r.1.writeField base a w (pick g) g).2)

theorem Dev.f_tryFields_off (fs : List FieldRow) (hfs : ∀ g ∈ fs, g.lo ≠ f.lo ∧ g.lo < 32) (r : Dev × Verdict) :
    (fs.foldl (tryField base a w pick) r).1.f (f.sel base a) = r.1.f (f.sel base a) := by
  induction fs generalizing r with
  | nil => rfl
  | cons g fs ih =>
    obtain ⟨hne, hg⟩ := hfs g (.head _)
    exact (ih (fun x hx => hfs x (.tail _ hx)) _).trans (Dev.f_writeField_off hne hf hg _ _)

/-- A field whose rules let the write act reads what its type makes of the word, whatever became of the others. -/
theorem Dev.f_tryFields (fs : List FieldRow) (hnd : (fs.map (·.lo)).Nodup) (hlo : ∀ g ∈ fs, g.lo < 32) (hmem : f ∈ fs)
    (hact : pick f = .act) (r : Dev × Verdict) :
    (fs.foldl (tryField base a w pick) r).1.f (f.sel base a) = f.written r.1 base a w := by
  induction fs generalizing r with
  | nil => cases hmem
  | cons g fs ih =>
    obtain ⟨hg, hnd'⟩ := List.nodup_cons.mp hnd
    have hlater : ∀ x ∈ fs, x.lo ≠ g.lo := fun x hx h => hg (List.mem_map.mpr ⟨x, hx, h⟩)
    rw [List.foldl_cons]
    obtain rfl | hmem' := List.mem_cons.mp hmem
    · rw [Dev.f_tryFields_off hf fs (fun x hx => ⟨hlater x hx, hlo x (.tail _ hx)⟩)]
      dsimp only [tryField]
      rw [hact, Dev.f_writeField_same]
    · rw [ih hnd' (fun x hx => hlo x (.tail _ hx)) hmem']
      exact FieldRow.written_writeField (Ne.symm (hlater f hmem')) hf (hlo g (.head _)) _ _

end

theorem Dev.f_tryRow {d : Dev} {a w : Nat} {pick : FieldRow → Verdict} {row : RegRow} {f : FieldRow} (hrow : Reg.row a = some row)
    (hf : f ∈ row.fields) (hact : pick f = .act) : (d.tryRow a w pick).1.f (f.sel row.base a) = f.written d row.base a w := by
  obtain ⟨hnd, hlo⟩ := Reg.row_fieldsApart hrow
  unfold Dev.tryRow
  rw [hrow]
  exact Dev.f_tryFields (hlo f hf) row.fields hnd hlo hf hact (d, .act)

/-- The log entry of a broken rule or a refusal leaves the fields. -/
theorem Dev.f_writeRowWith_tryRow (d : Dev) (src : Src) (a w : Nat) (pick : FieldRow → Verdict) {r : RF} (hl : r.lo < 32)
    (h : r.addr < 0x20004000 ∨ 0x20004800 ≤ r.addr) : (d.writeRowWith src a w pick).f r = (d.tryRow a w pick).1.f r := by
  unfold Dev.writeRowWith
  dsimp only
  split
  · exact Dev.f_log _ _ _ _ _ r h hl
  · exact (Dev.f_pend _ r (by decide) h hl).trans (Dev.f_log _ _ _ _ _ r h hl)
  · rfl

theorem Dev.f_writeRowWith {d : Dev} {a w : Nat} {pick : FieldRow → Verdict} {row : RegRow} {f : FieldRow} (src : Src)
    (hrow : Reg.row a = some row) (hf : f ∈ row.fields) (hact : pick f = .act) (h : a < 0x20004000 ∨ 0x20004800 ≤ a) :
    (d.writeRowWith src a w pick).f (f.sel row.base a) = f.written d row.base a w :=
  (d.f_writeRowWith_tryRow src a w pick (r := f.sel row.base a) ((Reg.row_fieldsApart hrow).2 f hf) h).trans (Dev.f_tryRow hrow hf hact)

/-! ### What follows a write (R9, R221, R375) -/

theorem Dev.review_reports (d : Dev) : Dev.Reports d d.review := by
  have set : Dev.Reports d ((d.setF Reg.SLICE_STAT_COND d.conds).setB Reg.SLICE_STAT_GUARANTEE d.guaranteed) :=
    (d.setF_same _ _).trans (Dev.setF_same _ _ _)
  unfold Dev.review
  dsimp only
  split
  · exact set.trans ((Dev.raise_reports _ _ _ _).trans (Dev.log_same _ _ _ _ _))
  · exact set

/-- The review of the slices' guarantees writes SLICE_STAT, SLICE_EVT and the event block. -/
theorem Dev.f_review (d : Dev) {r : RF} (hl : r.lo < 32) (h : r.addr < 0x20004000 ∨ 0x20004800 ≤ r.addr)
    (hstat : r.addr ≠ Reg.SLICE_STAT_at) (hevt : r.addr ≠ Reg.SLICE_EVT_at) : d.review.f r = d.f r := by
  have set : ((d.setF Reg.SLICE_STAT_COND d.conds).setB Reg.SLICE_STAT_GUARANTEE d.guaranteed).f r = d.f r := by
    rw [Dev.f_setB_off _ _ (by decide) hl (fun hc => hstat hc.1), Dev.f_setF_off _ _ (by decide) hl (fun hc => hstat hc.1)]
  unfold Dev.review
  dsimp only
  split
  · rw [Dev.f_log _ _ _ _ _ r h hl, Dev.f_raise _ _ r _ (by decide) (RF.key_ne hevt (by decide) hl) h hl, set]
  · exact set

/-- The registers at offset 4 of the auxiliary switches' blocks: AUX_nCFG. -/
def RF.AtAuxCfg (r : RF) : Prop := r.lo < 32 ∧ r.addr % 0x20 = 4

theorem Dev.setF_keepsAuxCfg (d : Dev) {r : RF} (x : Nat) (hl : r.lo < 32) (n : Nat) (h : r.addr = Reg.AUX_CTL_at n ∨ r.addr = Reg.AUX_NSTAT_at n) :
    Dev.Keeps RF.AtAuxCfg d (d.setF r x) := by
  refine .setF (fun _ h => h.1) d x hl (fun r' hr' => ?_)
  obtain ⟨-, ha⟩ := hr'
  unfold Reg.AUX_CTL_at Reg.AUX_NSTAT_at at h
  omega

theorem Dev.modAux_keeps {P : RF → Prop} (d : Dev) (n : Fin 24) (g : Aux → Aux) : Dev.Keeps P d (d.modAux n g) := .of_regs rfl

theorem Dev.auxStop_keepsAuxCfg (d : Dev) (n : Fin 24) (dst : Nat) : Dev.Keeps RF.AtAuxCfg d (d.auxStop n dst) := by
  have stat : ∀ (e : Dev) {r : RF} (x : Nat), r.lo < 32 → r.addr = Reg.AUX_NSTAT_at n → Dev.Keeps RF.AtAuxCfg e (e.setF r x) :=
    fun e r x hl ha => Dev.setF_keepsAuxCfg e x hl n.1 (.inr ha)
  exact (((stat d (r := Reg.AUX_NSTAT_LIMIT n.1) 0 (Nat.le_of_ble_eq_true rfl) rfl).trans
    (stat _ (r := Reg.AUX_NSTAT_WARNED n.1) 0 (Nat.le_of_ble_eq_true rfl) rfl)).trans (Dev.modAux_keeps _ n _)).trans
    (stat _ (r := Reg.AUX_NSTAT_STATE n.1) _ (Nat.le_of_ble_eq_true rfl) rfl)

/-- The safe stop's hold on the auxiliary switches writes their CTL and STAT registers (R375). -/
theorem Dev.auxSafeOff_keepsAuxCfg (d : Dev) : Dev.Keeps RF.AtAuxCfg d d.auxSafeOff := by
  refine .foldl _ (fun e n _ => ?_) d
  have ctl : Dev.Keeps RF.AtAuxCfg e ((e.setF (Reg.AUX_CTL_ON n.1) 0).setF (Reg.AUX_NSTAT_HELD n.1) 0) :=
    (Dev.setF_keepsAuxCfg _ _ (Nat.le_of_ble_eq_true rfl) n.1 (.inl rfl)).trans
      (Dev.setF_keepsAuxCfg _ _ (Nat.le_of_ble_eq_true rfl) n.1 (.inr rfl))
  dsimp only
  split
  · refine ctl.trans ?_
    split
    · exact Dev.auxStop_keepsAuxCfg _ n 0
    · exact Dev.auxStop_keepsAuxCfg _ n 0
    · exact .of_regs rfl
    · exact Dev.setF_keepsAuxCfg _ _ (Nat.le_of_ble_eq_true rfl) n.1 (.inr rfl)
    · exact .refl _
  · exact .refl e

theorem Dev.auxSafeOff_resp (d : Dev) : d.auxSafeOff.resp = d.resp := by
  refine List.foldlRecOn _ _ (motive := fun e : Dev => e.resp = d.resp) rfl (fun e he n _ => ?_)
  dsimp only
  split
  · split <;> exact he
  · exact he

/-- Where no register's write sets more going, past the rail's pin, only the safe stop follows. -/
theorem Dev.afterWrite_plain (d old : Dev) (word : Nat → Nat → Nat) (mem : Nat → Nat → List Byte) {a : Nat} (w : Nat)
    (ha : a < 0x20003100 ∨ (0x20004800 ≤ a ∧ a < 0x20010000) ∨ 0x200B0000 ≤ a) (hpin : a ≠ Reg.GOV_PIN_at) :
    d.afterWrite old word mem a w = d ∨ a % 0x20 = 4 ∧ d.afterWrite old word mem a w = d.auxSafeOff := by
  have hpos : pos 0x20098018 0x100 6 a = none := if_neg (by omega)
  have hpend0 : Reg.EVT_PEND_at 0 = 0x20004000 := rfl
  have hpend3 : Reg.EVT_PEND_at 3 = 0x2000400C := rfl
  have hjas : Reg.JASIA_CFG_at = 0x20058000 := rfl
  have hreq : 0x20058000 ≤ Reg.JASIA_REQ_NUM_at ∧ Reg.JASIA_REQ_NUM_at < 0x20060000 := by decide
  unfold Dev.afterWrite
  rw [if_neg (by omega), if_neg (by omega), if_neg hpin]
  split
  · rename_i h
    split
    · exact .inr ⟨h.2.2, rfl⟩
    · exact .inl rfl
  · rw [if_neg (by omega), if_neg (by omega), if_neg (by omega), if_neg (by omega), if_neg (by omega), if_neg (by omega), hpos]
    exact .inl rfl

/-- What a write of a plain register does to a field at its address, past the fields' own write. -/
theorem Dev.f_afterWrite_plain {d : Dev} (old : Dev) (word : Nat → Nat → Nat) (mem : Nat → Nat → List Byte) (w : Nat) {r : RF}
    (hl : r.lo < 32) (ha : r.addr < 0x20003100 ∨ (0x20004800 ≤ r.addr ∧ r.addr < 0x20010000) ∨ 0x200B0000 ≤ r.addr)
    (hpin : r.addr ≠ Reg.GOV_PIN_at) : ((d.afterWrite old word mem r.addr w).review).f r = d.f r ∧
      ((d.afterWrite old word mem r.addr w).review).resp = d.resp := by
  have hstat : Reg.SLICE_STAT_at = 0x20030004 := rfl
  have hevt : Reg.SLICE_EVT_at = 0x20030010 := rfl
  rw [Dev.f_review _ hl (by omega) (by omega) (by omega), (Dev.review_reports _).resp]
  obtain he | ⟨hcfg, he⟩ := d.afterWrite_plain old word mem w ha hpin
  · rw [he]
    exact ⟨rfl, rfl⟩
  · rw [he]
    exact ⟨Dev.auxSafeOff_keepsAuxCfg d r ⟨hl, hcfg⟩, d.auxSafeOff_resp⟩

theorem Dev.writeReg_plain (d : Dev) (word : Nat → Nat → Nat) (mem : Nat → Nat → List Byte) (src : Src) {a : Nat} (w : Nat)
    (hlow : isLow a = false) (hhigh : isHigh a = false)
    (ha : a < 0x20003100 ∨ (0x20004800 ≤ a ∧ a < 0x20010000) ∨ 0x200B0000 ≤ a) :
    d.writeReg word mem src a w = ((d.writeOne src a w).afterWrite d word mem a w).review := by
  have hperf : 0x20098000 ≤ Reg.PERF_OWN_SEL_at ∧ Reg.PERF_OWN_SEL_at < 0x200A0000 := by decide
  unfold Dev.writeReg
  rw [hlow, hhigh, if_neg Bool.false_ne_true, if_neg (by omega), if_neg (by omega)]
  simp only [Bool.false_eq_true, if_false]
  rw [if_neg (by omega)]

/-- A setup-space write that no row of its own takes and no pair holds back is written by type. -/
theorem State.store_plain {s : State} {src : Src} {a : Nat} {w : Word} (hr : Reaches s src a) (hp : PlainReg s src a w) :
    s.store src a w = s.done (((((s.dev.answer 0).writeOne src a w.toNat).afterWrite (s.dev.answer 0) s.memWord s.memBytes a w.toNat)).review) := by
  obtain ⟨hlive, hguard⟩ := hr
  obtain ⟨hdev, hvat, hnet, hcore, hlow, hhigh, ha, hpin, hhold⟩ := hp
  rw [Option.isNone_iff_eq_none] at hdev hvat hnet hcore
  unfold State.store State.pairWrite State.storeNow
  rw [hhold, if_neg Bool.false_ne_true, hlive, if_neg Bool.false_ne_true, hdev, hvat, hnet, hcore, Dev.onWrite_unguarded hguard,
    Dev.writeReg_plain _ _ _ _ _ hlow hhigh ha]
  rfl

/-- A field's rules read registers alone. -/
theorem Dev.verdict_answer (d : Dev) (x a w : Nat) (f : FieldRow) : (d.answer x).verdict a w f = d.verdict a w f := rfl

theorem Answers.of_plainWrite {s : State} {src : Src} {a : Nat} {w : Word} {row : RegRow} {f : FieldRow} (hr : Reaches s src a)
    (hset : inSetup a = true) (hp : PlainReg s src a w) (hrow : Reg.row a = some row) (hf : f ∈ row.fields) (hty : f.ty = .rw)
    (hadm : f.admits (bits w.toNat f.lo f.w) = true) (hact : ∀ g ∈ row.fields, s.dev.verdict a w.toNat g = .act) :
    Answers (.registerWrite src a w) s (fun t => t.dev.f (f.sel row.base a) = bits w.toNat f.lo f.w ∧ t.dev.resp = ⟨0, false⟩) := by
  have hexec : exec (.registerWrite src a w) s = _ := (if_pos hset).trans (State.store_plain hr hp)
  obtain ⟨-, -, -, -, -, -, ha, hpin, -⟩ := hp
  have hlo : (f.sel row.base a).lo < 32 := (Reg.row_fieldsApart hrow).2 f hf
  have hafter := Dev.f_afterWrite_plain (d := (s.dev.answer 0).writeOne src a w.toNat) (s.dev.answer 0) s.memWord s.memBytes w.toNat
    (r := f.sel row.base a) hlo ha hpin
  obtain ⟨hval, hresp⟩ := hafter
  have hwritten : ((s.dev.answer 0).writeOne src a w.toNat).f (f.sel row.base a) = bits w.toNat f.lo f.w := by
    refine (Dev.f_writeRowWith src hrow hf ((s.dev.verdict_answer 0 a _ f).trans (hact f hf)) (by omega)).trans ?_
    unfold FieldRow.written
    rw [hty]
    exact if_pos hadm
  refine .of_done hr.1 hexec ⟨?_, ?_⟩
  · rw [State.commit_f]
    exact hval.trans hwritten
  · rw [State.commit_resp]
    exact hresp.trans (Dev.writeRowWith_reports _ src a _ _).resp

/-! ### The low word read (R10) -/

/-- No claim register is the low word of a pair, nor is a capture's high word. -/
theorem not_isLow_of_ownRead : (∀ c : Fin 16, isLow (0x20081000 + 0x80 * c.1) = false) ∧ ∀ n : Fin 8, isLow (0x20003208 + 16 * n.1) = false := by
  decide +kernel

theorem pos_eq_of_some {base stride count a i : Nat} (h : pos base stride count a = some i) : i < count ∧ a = base + stride * i := by
  unfold pos at h
  split at h
  · rename_i hc
    obtain ⟨hle, hmod, hlt⟩ := hc
    obtain rfl := Option.some.inj h
    refine ⟨hlt, ?_⟩
    have := Nat.div_add_mod (a - base) stride
    omega
  · cases h

theorem Dev.load_low {d : Dev} {src : Src} {a : Nat} (hlow : isLow a = true) (hg : (d.guard src a false).isNone = true) :
    d.load src a = (if 0x2009C020 ≤ a ∧ a < 0x2009D800 then d.tally else d).readReg src a := by
  obtain ⟨hclaim, hcap⟩ := not_isLow_of_ownRead
  have h1 : pos 0x20081000 0x80 16 a = none := Option.eq_none_iff_forall_ne_some.mpr (fun c hc => by
    obtain ⟨hlt, rfl⟩ := pos_eq_of_some hc
    rw [hclaim ⟨c, hlt⟩] at hlow
    cases hlow)
  have h2 : pos 0x20003208 16 8 a = none := Option.eq_none_iff_forall_ne_some.mpr (fun n hn => by
    obtain ⟨hlt, rfl⟩ := pos_eq_of_some hn
    rw [hcap ⟨n, hlt⟩] at hlow
    cases hlow)
  unfold Dev.load
  rw [h1, h2, Option.isNone_iff_eq_none.mp hg]

/-- The read of a low word answers it and files the high word of the same moment. -/
theorem Dev.readReg_low (d : Dev) (src : Src) {a : Nat} (hlow : isLow a = true) :
    (d.readReg src a).resp = ⟨(d.regWord src a).1, false⟩ ∧
    pairFind (d.readReg src a).capHigh src.master.1 a = some ((d.regWord src a).2.regWord src (a + 4)).1 := by
  unfold Dev.readReg
  simp only [hlow, if_true]
  refine ⟨rfl, ?_⟩
  rw [Dev.setCapHigh_capHigh]
  exact if_pos ⟨rfl, rfl⟩

theorem exec_pairLowRead {s : State} {src : Src} {a : Nat} (hlow : isLow a = true) (hg : (s.dev.guard src a false).isNone = true) :
    exec (.pairLowRead src a) s = s.done ((if 0x2009C020 ≤ a ∧ a < 0x2009D800 then s.dev.tally else s.dev).readReg src a) := by
  rw [← Dev.load_low hlow hg]
  exact congrArg s.done (if_pos hlow)

theorem Answers.of_pairLowRead {s : State} {src : Src} {a : Nat} (hl : Live s) (hg : (s.dev.guard src a false).isNone = true)
    (hlow : isLow a = true) :
    let d : Dev := if 0x2009C020 ≤ a ∧ a < 0x2009D800 then s.dev.tally else s.dev
    Answers (.pairLowRead src a) s (fun t => t.dev.resp = ⟨(d.regWord src a).1, false⟩ ∧
      pairFind t.dev.capHigh src.master.1 a = some ((d.regWord src a).2.regWord src (a + 4)).1) := by
  refine .of_done hl (exec_pairLowRead hlow hg) ?_
  rw [State.commit_resp, State.commit_capHigh]
  exact Dev.readReg_low _ src hlow

/-! ### TB_NOW (R31) -/

/-- The words of TB_NOW are the two halves of the count, read at one moment. -/
theorem Dev.regWord_tbNow (d : Dev) (src : Src) :
    (d.regWord src Reg.TB_NOW_LO_at).1 = d.now % 2 ^ 32 ∧ (d.regWord src Reg.TB_NOW_LO_at).2 = d.setFreeN d.freeN ∧
    (d.regWord src (Reg.TB_NOW_LO_at + 4)).1 = d.now / 2 ^ 32 % 2 ^ 32 ∧ (d.regWord src (Reg.TB_NOW_LO_at + 4)).2 = d.setFreeN d.freeN := by
  have hlo : Reg.row Reg.TB_NOW_LO_at = some ⟨0x20003000, [], true, .any, [⟨0, 32, .ro, .const 0, true, [], 0⟩]⟩ := by decide +kernel
  have hhi : Reg.row (Reg.TB_NOW_LO_at + 4) = some ⟨0x20003004, [], false, .any, [⟨0, 32, .ro, .const 0, true, [], 0⟩]⟩ := by
    decide +kernel
  have hviewlo : d.viewed src Reg.TB_NOW_LO_at = d.setF64 Reg.TB_NOW_LO_NOW Reg.TB_NOW_HI_NOW d.now := if_pos (.inl rfl)
  have hviewhi : d.viewed src (Reg.TB_NOW_LO_at + 4) = d.setF64 Reg.TB_NOW_LO_NOW Reg.TB_NOW_HI_NOW d.now := if_pos (.inr rfl)
  have hreadlo : (d.setF64 Reg.TB_NOW_LO_NOW Reg.TB_NOW_HI_NOW d.now).f Reg.TB_NOW_LO_NOW = d.now % 2 ^ 32 := by
    rw [Dev.setF64, Dev.f_setF_ne _ _ (by decide), Dev.f_setF_same]
    rfl
  have hreadhi : (d.setF64 Reg.TB_NOW_LO_NOW Reg.TB_NOW_HI_NOW d.now).f Reg.TB_NOW_HI_NOW = d.now / 2 ^ 32 % 2 ^ 32 := Dev.f_setF_same _ _ _
  have hword : ∀ (e : Dev) (a : Nat) (r : RegRow), r.fields = [⟨0, 32, .ro, .const 0, true, [], 0⟩] →
      e.rowWord r a = e.f ⟨a, 0, 32, 0, true⟩ := fun e a r hr => by
    unfold Dev.rowWord
    rw [hr]
    simp [FieldRow.sel, Rst.value]
  unfold Dev.regWord
  rw [hlo, hhi, hviewlo, hviewhi]
  exact ⟨(hword _ _ _ rfl).trans hreadlo, rfl, (hword _ _ _ rfl).trans hreadhi, rfl⟩

theorem isLow_tbNow : isLow Reg.TB_NOW_LO_at = true := by decide +kernel

/-- A read of TB_NOW_LO changes the answer and what is filed, no register. -/
theorem Dev.readReg_tbNow (d : Dev) (src : Src) (r : RF) : (d.readReg src Reg.TB_NOW_LO_at).f r = d.f r := by
  obtain ⟨-, hlo, -, -⟩ := d.regWord_tbNow src
  obtain ⟨-, -, -, hhi⟩ := (d.setFreeN d.freeN).regWord_tbNow src
  unfold Dev.readReg
  simp only [isLow_tbNow, if_true, hlo, hhi]
  rfl

theorem Answers.of_tbNowRead {s : State} {src : Src} (hl : Live s) (hg : (s.dev.guard src Reg.TB_NOW_LO_at false).isNone = true) :
    Answers (.pairLowRead src Reg.TB_NOW_LO_at) s (fun t => t.dev.resp = ⟨s.dev.now % 2 ^ 32, false⟩ ∧
      pairFind t.dev.capHigh src.master.1 Reg.TB_NOW_LO_at = some (s.dev.now / 2 ^ 32 % 2 ^ 32) ∧ SameRegs s t) := by
  have hexec := exec_pairLowRead isLow_tbNow hg
  rw [if_neg (by decide)] at hexec
  obtain ⟨hresp, hcap⟩ := s.dev.readReg_low src isLow_tbNow
  obtain ⟨hlo, hdev, -, -⟩ := s.dev.regWord_tbNow src
  obtain ⟨-, -, hhi, -⟩ := (s.dev.setFreeN s.dev.freeN).regWord_tbNow src
  rw [hlo] at hresp
  rw [hdev, hhi] at hcap
  refine .of_done hl hexec ⟨?_, ?_, fun r _ _ => ?_⟩
  · rw [State.commit_resp, hresp]
  · rw [State.commit_capHigh, hcap]
    rfl
  · rw [State.commit_f, Dev.readReg_tbNow]

/-! ### The high word written: DPL_BASE (R10, R228) -/

theorem Dev.verdict_dplBase {d : Dev} (h : d.bit Reg.DPL_CFG_EN = false) (w : Nat) (f : FieldRow) :
    d.verdict Reg.DPL_BASE_LO_at w f = .act ∧ d.verdict Reg.DPL_BASE_HI_at w f = .act := by
  constructor <;>
  simp [Dev.verdict, Dev.sliceVerdict, Dev.netVerdict, Dev.coreVerdict, Reg.DPL_BASE_LO_at, Reg.DPL_BASE_HI_at, h, rule, Verdict.join, Reg.SW_C_TX_PI_at,
    Reg.SW_C_RX_CI_at, Reg.JASIA_CFG_at, Reg.PTP_TX_PI_at, Reg.PTP_RX_CI_at, Reg.GOV_PIN_at, Reg.PERF_CFG_at]

/-- Both words of DPL_BASE are taken while the log is disabled. -/
theorem Dev.tryRow_dplBase {d : Dev} {lo : Nat} (hlo : lo < 2 ^ 32) (hal : lo % 64 = 0) {w : Nat} (hw : w < 2 ^ 32)
    (pick : FieldRow → Verdict) (hpick : ∀ f, pick f = .act) :
    d.tryRow Reg.DPL_BASE_LO_at lo pick = (d.setF Reg.DPL_BASE_LO_ADDR lo, .act) ∧
    d.tryRow Reg.DPL_BASE_HI_at w pick = (d.setF Reg.DPL_BASE_HI_ADDR w, .act) := by
  have hrowlo : Reg.row Reg.DPL_BASE_LO_at = some ⟨0x20030100, [], true, .s0, [⟨0, 32, .rw, .const 0, true, [], 6⟩]⟩ := by decide +kernel
  have hrowhi : Reg.row Reg.DPL_BASE_HI_at = some ⟨0x20030104, [], false, .s0, [⟨0, 32, .rw, .const 0, true, [], 0⟩]⟩ := by decide +kernel
  have hbits : ∀ x : Nat, x < 2 ^ 32 → bits x 0 32 = x := fun x hx => by
    unfold bits
    rw [Nat.pow_zero, Nat.div_one, Nat.mod_eq_of_lt hx]
  unfold Dev.tryRow
  rw [hrowlo, hrowhi]
  simp [Dev.writeField, FieldRow.admits, FieldRow.sel, Rst.value, hpick, hbits lo hlo, hbits w hw, hal, Nat.mod_one, Verdict.join,
    Reg.DPL_BASE_LO_ADDR, Reg.DPL_BASE_HI_ADDR]

theorem pairFind_pairDrop (xs : List (Nat × Nat × Nat)) (m a : Nat) : pairFind (pairDrop xs m a) m a = none := by
  induction xs with
  | nil => rfl
  | cons x xs ih =>
    obtain ⟨m', a', v⟩ := x
    by_cases h : m' = m ∧ a' = a
    · simpa [pairDrop, h] using ih
    · have hkeep : pairDrop ((m', a', v) :: xs) m a = (m', a', v) :: pairDrop xs m a :=
        List.filter_cons_of_pos (by simpa only [Bool.not_eq_true', Bool.and_eq_false_iff, beq_eq_false_iff_ne] using not_and_or.mp h)
      rw [hkeep, pairFind, if_neg h, ih]

/-- The pair written with the log disabled: both words, and the held one is used up. -/
theorem Dev.writePair_dplBase {d : Dev} {src : Src} {lo w : Nat} (hen : d.bit Reg.DPL_CFG_EN = false)
    (hheld : d.heldFor src Reg.DPL_BASE_LO_at = some lo) (hlo : lo < 2 ^ 32) (hal : lo % 64 = 0) (hw : w < 2 ^ 32) :
    d.writePair src Reg.DPL_BASE_HI_at w =
      ((d.unhold src Reg.DPL_BASE_LO_at).setF Reg.DPL_BASE_LO_ADDR lo).setF Reg.DPL_BASE_HI_ADDR w := by
  have hsub : Reg.DPL_BASE_HI_at - 4 = Reg.DPL_BASE_LO_at := rfl
  have hen0 : (d.unhold src Reg.DPL_BASE_LO_at).bit Reg.DPL_CFG_EN = false := hen
  unfold Dev.writePair
  simp only [hsub, hheld, Option.getD_some]
  rw [(Dev.tryRow_dplBase hlo hal hw _ (fun f => (Dev.verdict_dplBase hen0 lo f).1)).1,
    (Dev.tryRow_dplBase hlo hal hw _ (fun f => (Dev.verdict_dplBase hen0 w f).2)).2]
  rfl

theorem State.store_dplBase {s : State} {src : Src} {w : Word} (hr : Reaches s src Reg.DPL_BASE_HI_at) :
    s.store src Reg.DPL_BASE_HI_at w = s.done (((s.dev.answer 0).writePair src Reg.DPL_BASE_HI_at w.toNat).review) := by
  obtain ⟨hlive, hguard⟩ := hr
  have hhold : s.dev.holds src Reg.DPL_BASE_HI_at = false := Bool.and_false _
  have hdev : s.storeDevice src Reg.DPL_BASE_HI_at w = none := rfl
  have hvat : s.storeVat src Reg.DPL_BASE_HI_at w = none := by
    unfold State.storeVat
    cases w.toNat.testBit 9 <;> rfl
  have hnet : s.storeNet src Reg.DPL_BASE_HI_at w = none := by
    unfold State.storeNet
    cases w.toNat.testBit 17 <;> rfl
  have hcore : s.storeCore src Reg.DPL_BASE_HI_at w = none := rfl
  have hlow : isLow Reg.DPL_BASE_HI_at = false := by decide +kernel
  have hhigh : isHigh Reg.DPL_BASE_HI_at = true := by decide +kernel
  have hreg : (s.dev.answer 0).writeReg s.memWord s.memBytes src Reg.DPL_BASE_HI_at w.toNat =
      ((s.dev.answer 0).writePair src Reg.DPL_BASE_HI_at w.toNat).review := by
    unfold Dev.writeReg
    rw [hlow, hhigh]
    rfl
  unfold State.store State.pairWrite State.storeNow
  rw [hhold, if_neg Bool.false_ne_true, hlive, if_neg Bool.false_ne_true, hdev, hvat, hnet, hcore, Dev.onWrite_unguarded hguard, hreg]
  rfl

theorem exec_pairHighWrite (s : State) (src : Src) {a : Nat} (w : Word) (h : isHigh a = true) :
    exec (.pairHighWrite src a w) s = s.store src a w := if_pos h

theorem Answers.of_dplBaseWrite {s : State} {src : Src} {w : Word} {lo : Nat} (hr : Reaches s src Reg.DPL_BASE_HI_at)
    (hen : s.dev.bit Reg.DPL_CFG_EN = false) (hheld : s.dev.heldFor src Reg.DPL_BASE_LO_at = some lo) (hlo : lo < 2 ^ 32) (hal : lo % 64 = 0) :
    Answers (.pairHighWrite src Reg.DPL_BASE_HI_at w) s (fun t => t.dev.f Reg.DPL_BASE_LO_ADDR = lo ∧
      t.dev.f Reg.DPL_BASE_HI_ADDR = w.toNat ∧ t.dev.heldFor src Reg.DPL_BASE_LO_at = none ∧ t.dev.resp = ⟨0, false⟩) := by
  have hhigh : isHigh Reg.DPL_BASE_HI_at = true := by decide +kernel
  have hexec := (exec_pairHighWrite s src w hhigh).trans (State.store_dplBase hr)
  rw [Dev.writePair_dplBase (d := s.dev.answer 0) hen hheld hlo hal w.isLt] at hexec
  refine .of_done hr.1 hexec ⟨?_, ?_, ?_, ?_⟩
  · rw [State.commit_f, Dev.f_review _ (by decide) (by decide) (by decide) (by decide), Dev.f_setF_ne _ _ (by decide), Dev.f_setF_same]
    exact Nat.mod_eq_of_lt hlo
  · rw [State.commit_f, Dev.f_review _ (by decide) (by decide) (by decide) (by decide), Dev.f_setF_same]
    exact Nat.mod_eq_of_lt w.isLt
  · rw [Dev.heldFor, State.commit_heldLow, (Dev.review_reports _).heldLow]
    exact pairFind_pairDrop _ _ _
  · rw [State.commit_resp, (Dev.review_reports _).resp]
    rfl

/-- Settles O7: writes by field type, then the two accesses of a pair. -/
theorem registerWritesByTypeAndInPairs : Obligations.RegisterWritesByTypeAndInPairs := by
  refine ⟨⟨fun d src a w row f hrow hf ha => ?_, fun s src a w row f hr hset hp hrow hf hty hadm hact =>
    .of_plainWrite hr hset hp hrow hf hty hadm hact⟩, fun s src a hl hg hlow => .of_pairLowRead hl hg hlow,
    fun s src hl hg => .of_tbNowRead hl hg, fun s src w lo hr hen hheld hlo hal => .of_dplBaseWrite hr hen hheld hlo hal⟩
  rw [Dev.f_writeRowWith src hrow hf rfl ha]
  unfold FieldRow.written
  cases f.ty <;> rfl

end Sys2Proof.Machine
end

section
/-!
PROOF. Fencing a vat now (R17, R121): what it leaves unchanged, and the status it shows.
-/

namespace Sys2Proof.Machine
open Sys2Proof

theorem Dev.recordLost_work (d : Dev) (v k : Fin 16) (won t : Nat) (xs : List Nat) : Dev.VatWork d (d.recordLost v k won t xs) :=
  d.modChan_work v k _

/-- What stood for a computation the fence discards is recorded first. -/
def Dev.fenceRecorded (d : Dev) (v : Fin 16) : Dev :=
  d.eachChan (fun d k => if d.outstanding v k (d.tick k) then d.recordLost v k 3 d.now (d.standing v k (d.tick k)) else d)

theorem Dev.fenceNow_of_fenced {d : Dev} {v : Fin 16} (h : d.fenced v = true) (cause : Nat) : d.fenceNow v cause = d := if_pos h

theorem Dev.fenceNow_of_unfenced {d : Dev} {v : Fin 16} (h : d.fenced v = false) (cause : Nat) :
    d.fenceNow v cause = (d.fenceRecorded v).fenceVat v cause := if_neg (by rw [h]; decide)

theorem Dev.fenceRecorded_work (d : Dev) (v : Fin 16) : Dev.VatWork d (d.fenceRecorded v) :=
  d.eachChan_work _ (fun d k => .ite _ (d.recordLost_work v k _ _ _) (.refl d))

theorem Dev.fenceNow_work (d : Dev) (v : Fin 16) (cause : Nat) : Dev.Work RF.Far d (d.fenceNow v cause) :=
  .ite _ (.refl d) ((d.fenceRecorded_work v).far.trans (Dev.fenceVat_work _ v cause))

theorem Dev.fenceRecorded_regs (d : Dev) (v : Fin 16) : (d.fenceRecorded v).regs = d.regs := by
  refine List.foldlRecOn _ _ (motive := fun e : Dev => e.regs = d.regs) rfl (fun e he k _ => ?_)
  split
  · exact he
  · exact he

theorem Dev.fenceRecorded_fenced (d : Dev) (v : Fin 16) : (d.fenceRecorded v).fenced v = d.fenced v :=
  congrArg (· == 1) (Dev.f_of_regs (d.fenceRecorded_regs v) _)

/-- A fence shows FENCED and its cause, takes the vat out of service and holds its lane (R121). -/
theorem Dev.fenceNow_status {d : Dev} {v : Fin 16} (h : d.fenced v = false) (cause : Nat) :
    (d.fenceNow v cause).fenced v = true ∧ (d.fenceNow v cause).f (Reg.VAT_STAT_FENCE_DONE v.1) = 0 ∧
    (d.fenceNow v cause).f (Reg.VAT_STAT_CAUSE v.1) = cause % 8 ∧ (d.fenceNow v cause).f (Reg.VAT_STAT_IN_SERVICE v.1) = 0 ∧
    (d.fenceNow v cause).laneState v = laneHeld := by
  rw [Dev.fenceNow_of_unfenced h]
  exact Dev.fenceVat_status _ v cause ((d.fenceRecorded_fenced v).trans h)

end Sys2Proof.Machine
end

section
/-!
PROOF. What one channel's, lane's or measurement state reads after another was changed, and that what has left the device stays sent.
-/

namespace Sys2Proof.Machine
open Sys2Proof

/-! ### One vat, one channel -/

theorem getElem_put {α : Type} {n : Nat} (xs : Vector α n) (i j : Fin n) (x : α) : (put xs i x)[j] = if i = j then x else xs[j] := by
  have h := xs.getElem_set i.2 (x := x) j.2
  simp only [Fin.ext_iff]
  exact h

theorem getElem_put_same {α : Type} {n : Nat} (xs : Vector α n) (i : Fin n) (x : α) : (put xs i x)[i] = x := by
  rw [getElem_put, if_pos rfl]

@[simp] theorem getElem_put_val {α : Type} {n : Nat} (xs : Vector α n) (i : Fin n) (x : α) : (put xs i x)[i.1] = x := getElem_put_same xs i x

theorem getElem_put_ne {α : Type} {n : Nat} (xs : Vector α n) {i j : Fin n} (h : i ≠ j) (x : α) : (put xs i x)[j] = xs[j] := by
  rw [getElem_put, if_neg h]

theorem Dev.vats_modVat (d : Dev) (v v' : Fin 16) (g : Vat → Vat) :
    (d.modVat v g).vats[v'] = if v = v' then g d.vats[v] else d.vats[v'] := getElem_put _ _ _ _

theorem Dev.vats_modVat_same (d : Dev) (v : Fin 16) (g : Vat → Vat) : (d.modVat v g).vats[v] = g d.vats[v] := getElem_put_same _ _ _

/-- The same with the index as `simp` writes it. -/
@[simp] theorem Dev.vats_modVat_val (d : Dev) (v : Fin 16) (g : Vat → Vat) : (d.modVat v g).vats[v.1] = g d.vats[v.1] := d.vats_modVat_same v g

theorem Dev.vats_modVat_ne (d : Dev) {v v' : Fin 16} (h : v ≠ v') (g : Vat → Vat) : (d.modVat v g).vats[v'] = d.vats[v'] := getElem_put_ne _ h _

/-- A change of a vat that leaves its channels alone leaves every channel alone. -/
theorem Dev.chan_modVat (d : Dev) (v v' k' : Fin 16) {g : Vat → Vat} (h : ∀ x, (g x).chans = x.chans) :
    (d.modVat v g).chan v' k' = d.chan v' k' := by
  unfold Dev.chan
  rw [Dev.vats_modVat]
  split
  next hv =>
    subst hv
    simp only [h]
  next => rfl

@[simp] theorem Dev.chan_modLane (d : Dev) (v v' k' : Fin 16) (g : Lane → Lane) : (d.modLane v g).chan v' k' = d.chan v' k' :=
  d.chan_modVat v v' k' (fun _ => rfl)

@[simp] theorem Dev.chan_modMeas (d : Dev) (v k v' k' : Fin 16) (g : Meas → Meas) : (d.modMeas v k g).chan v' k' = d.chan v' k' :=
  d.chan_modVat v v' k' (fun _ => rfl)

@[simp] theorem Dev.chan_modGuard (d : Dev) (v k v' k' : Fin 16) (g : Guard → Guard) : (d.modGuard v k g).chan v' k' = d.chan v' k' :=
  d.chan_modVat v v' k' (fun _ => rfl)

@[simp] theorem Dev.chan_modImp (d : Dev) (v v' k' : Fin 16) (g : Imp → Imp) : (d.modImp v g).chan v' k' = d.chan v' k' :=
  d.chan_modVat v v' k' (fun _ => rfl)

@[simp] theorem Dev.chan_modPoint (d : Dev) (v v' k' : Fin 16) (t : Nat) (g : ImpPoint → ImpPoint) : (d.modPoint v t g).chan v' k' = d.chan v' k' :=
  d.chan_modImp v v' k' _

@[simp] theorem Dev.chan_modChan_same (d : Dev) (v k : Fin 16) (g : Chan → Chan) : (d.modChan v k g).chan v k = g (d.chan v k) := by
  unfold Dev.chan Dev.modChan
  rw [Dev.vats_modVat_same]
  exact getElem_put_same _ _ _

@[simp] theorem Dev.chan_modChan_ne (d : Dev) {v k v' k' : Fin 16} (h : (v', k') ≠ (v, k)) (g : Chan → Chan) :
    (d.modChan v k g).chan v' k' = d.chan v' k' := by
  unfold Dev.chan Dev.modChan
  rw [Dev.vats_modVat]
  split
  next hv =>
    subst hv
    exact getElem_put_ne _ (fun hk => h (by rw [hk])) _
  next => rfl

theorem Dev.chan_of_vats {d e : Dev} (h : e.vats = d.vats) (v k : Fin 16) : e.chan v k = d.chan v k := by
  unfold Dev.chan
  rw [h]

@[simp] theorem Dev.chan_setF (d : Dev) (r : RF) (x : Nat) (v k : Fin 16) : (d.setF r x).chan v k = d.chan v k := rfl
@[simp] theorem Dev.chan_setB (d : Dev) (r : RF) (b : Bool) (v k : Fin 16) : (d.setB r b).chan v k = d.chan v k := rfl
@[simp] theorem Dev.chan_bump (d : Dev) (r : RF) (n : Nat) (v k : Fin 16) : (d.bump r n).chan v k = d.chan v k := rfl
@[simp] theorem Dev.chan_emit (d : Dev) (o : Output) (v k : Fin 16) : (d.emit o).chan v k = d.chan v k := rfl
@[simp] theorem Dev.chan_pend (d : Dev) (i : Nat) (v k : Fin 16) : (d.pend i).chan v k = d.chan v k := Dev.chan_of_vats (d.pend_vats i) v k
@[simp] theorem Dev.chan_raise (d : Dev) (r : RF) (m i : Nat) (v k : Fin 16) : (d.raise r m i).chan v k = d.chan v k :=
  Dev.chan_of_vats (d.raise_vats r m i) v k
@[simp] theorem Dev.chan_log (d : Dev) (c s i x : Nat) (v k : Fin 16) : (d.log c s i x).chan v k = d.chan v k :=
  Dev.chan_of_vats (d.log_vats c s i x) v k

@[simp] theorem Dev.modVat_f (d : Dev) (v : Fin 16) (g : Vat → Vat) (r : RF) : (d.modVat v g).f r = d.f r := rfl
@[simp] theorem Dev.modChan_f (d : Dev) (v k : Fin 16) (g : Chan → Chan) (r : RF) : (d.modChan v k g).f r = d.f r := rfl
@[simp] theorem Dev.modMeas_f (d : Dev) (v k : Fin 16) (g : Meas → Meas) (r : RF) : (d.modMeas v k g).f r = d.f r := rfl
@[simp] theorem Dev.modGuard_f (d : Dev) (v k : Fin 16) (g : Guard → Guard) (r : RF) : (d.modGuard v k g).f r = d.f r := rfl
@[simp] theorem Dev.modImp_f (d : Dev) (v : Fin 16) (g : Imp → Imp) (r : RF) : (d.modImp v g).f r = d.f r := rfl
@[simp] theorem Dev.modPoint_f (d : Dev) (v : Fin 16) (t : Nat) (g : ImpPoint → ImpPoint) (r : RF) : (d.modPoint v t g).f r = d.f r := rfl

/-! ### What has left the device stays sent -/

/-- What `d` has sent, `e` has sent, and perhaps more after it. -/
def Dev.SendsOn (d e : Dev) : Prop := d.out <:+ e.out

theorem Dev.SendsOn.refl (d : Dev) : Dev.SendsOn d d := List.suffix_refl _
theorem Dev.SendsOn.trans {d e g : Dev} (h : Dev.SendsOn d e) (h' : Dev.SendsOn e g) : Dev.SendsOn d g := List.IsSuffix.trans h h'
theorem Dev.SendsOn.of_out {d e : Dev} (h : e.out = d.out) : Dev.SendsOn d e := by
  unfold Dev.SendsOn
  rw [h]
theorem Dev.SendsOn.after {d e g : Dev} (h : Dev.SendsOn e g) (he : e.out = d.out) : Dev.SendsOn d g := (Dev.SendsOn.of_out he).trans h
theorem Dev.SendsOn.mem {d e : Dev} (h : Dev.SendsOn d e) {o : Output} (ho : o ∈ d.out) : o ∈ e.out := List.IsSuffix.subset h ho

theorem Dev.SendsOn.ite {c : Prop} [Decidable c] {d a b : Dev} (ha : Dev.SendsOn d a) (hb : Dev.SendsOn d b) : Dev.SendsOn d (if c then a else b) := by
  split <;> assumption

theorem Dev.SendsOn.foldl {α : Type} {k : Dev → α → Dev} (h : ∀ d x, Dev.SendsOn d (k d x)) (xs : List α) (d : Dev) :
    Dev.SendsOn d (xs.foldl k d) :=
  List.foldlRecOn xs k (motive := Dev.SendsOn d) (.refl d) (fun e he x _ => he.trans (h e x))

theorem Dev.emit_sendsOn (d : Dev) (o : Output) : Dev.SendsOn d (d.emit o) := List.suffix_cons _ _

theorem Dev.deliver_sendsOn (d : Dev) (i : Nat) : Dev.SendsOn d (d.deliver i) := by
  unfold Dev.deliver
  dsimp only
  split
  · split
    · exact d.emit_sendsOn _
    · exact .of_out rfl
    · exact .refl d
  · exact .refl d

theorem Dev.pend_sendsOn (d : Dev) (i : Nat) : Dev.SendsOn d (d.pend i) := by
  unfold Dev.pend
  dsimp only
  split
  · exact .of_out rfl
  · split
    · exact (Dev.deliver_sendsOn _ i).after rfl
    · exact .of_out rfl

theorem Dev.raise_sendsOn (d : Dev) (r : RF) (m i : Nat) : Dev.SendsOn d (d.raise r m i) := by
  unfold Dev.raise
  dsimp only
  split
  · exact .of_out rfl
  · exact (Dev.pend_sendsOn _ i).after rfl

theorem Dev.logOverrun_sendsOn (d : Dev) (n : Nat) : Dev.SendsOn d (d.logOverrun n) := .ite ((Dev.pend_sendsOn _ 95).after rfl) (.refl d)

theorem Dev.logMark_sendsOn (d : Dev) (n : Nat) : Dev.SendsOn d (d.logMark n) := .ite (Dev.pend_sendsOn d 94) (.refl d)

theorem Dev.log_sendsOn (d : Dev) (c s i x : Nat) : Dev.SendsOn d (d.log c s i x) :=
  ((Dev.logOverrun_sendsOn _ _).trans (Dev.logMark_sendsOn _ _)).after rfl

end Sys2Proof.Machine
end

section
/-!
PROOF. The time base's commands (R30, R34-R36), LATE faults and the slack governor (R39-R43, R445), command by command.
-/

namespace Sys2Proof.Machine
open Sys2Proof

/-! ### TB_LOCK and LOSS_OF_REFERENCE (R30, R36) -/

/-- A boot ROM that stops leaves the time base and the servo alone. -/
theorem Dev.romWaits_cases (d : Dev) : d.romWaits = d ∨ d.romWaits = d.romStop 11 := ite_eq_or_eq _ _ _ |>.symm

theorem Dev.romStop_spares (d : Dev) (code : Nat) : (d.romStop code).now = d.now ∧ (d.romStop code).ptp = d.ptp ∧
    ∀ r : RF, r.lo < 32 → r.addr < 0x20002000 ∨ 0x20003000 ≤ r.addr → (d.romStop code).f r = d.f r := by
  refine ⟨rfl, rfl, fun r hl h => ?_⟩
  have hboot : Reg.RST_BOOT_at < 0x20003000 ∧ 0x20002000 ≤ Reg.RST_BOOT_at := by decide
  unfold Dev.romStop
  rw [Dev.f_setF_addr_ne _ _ (by simp only [Reg.RST_BOOT_CODE]; omega) (by decide) hl,
    Dev.f_setF_addr_ne _ _ (by simp only [Reg.RST_BOOT_STAGE]; omega) (by decide) hl]
  rfl

theorem Dev.romWaits_spares (d : Dev) : d.romWaits.now = d.now ∧ d.romWaits.ptp = d.ptp ∧
    ∀ r : RF, r.lo < 32 → r.addr < 0x20002000 ∨ 0x20003000 ≤ r.addr → d.romWaits.f r = d.f r := by
  obtain h | h := d.romWaits_cases <;> rw [h]
  · exact ⟨rfl, rfl, fun _ _ _ => rfl⟩
  · exact d.romStop_spares 11

theorem Dev.romWaits_bit (d : Dev) {r : RF} (hl : r.lo < 32) (h : r.addr < 0x20002000 ∨ 0x20003000 ≤ r.addr) :
    d.romWaits.bit r = d.bit r := congrArg (· == 1) (d.romWaits_spares.2.2 r hl h)

theorem Answers.of_tbLock {s : State} (hl : Live s) (hh : s.dev.bit Reg.TB_STAT_HOLD = false) :
    Answers .tbLock s (fun t => t.dev.bit Reg.TB_STAT_LOCK = true ∧ t.dev.bit Reg.TB_STAT_HOLD = false ∧
      t.dev.bit Reg.TB_STAT_LINE = (s.dev.bit Reg.PTP_SERVO_LOCKED && !s.dev.ptp.expired) ∧ t.dev.now = s.dev.now) := by
  obtain ⟨hnow, hptp, -⟩ := s.dev.romWaits_spares
  have hhold : s.dev.romWaits.bit Reg.TB_STAT_HOLD = false := (s.dev.romWaits_bit (by decide) (by decide)).trans hh
  have hserv : s.dev.romWaits.bit Reg.PTP_SERVO_LOCKED = s.dev.bit Reg.PTP_SERVO_LOCKED := s.dev.romWaits_bit (by decide) (by decide)
  have hlock : s.dev.tbLock = (s.dev.romWaits.setF Reg.TB_STAT_LOCK 1).lineUpdate := if_neg (by rw [hhold]; decide)
  refine .of_done hl rfl ?_
  rw [State.commit_bit, State.commit_bit, State.commit_bit, State.commit_now, hlock, ← hserv, ← hptp, ← hnow]
  unfold Dev.lineUpdate
  refine ⟨?_, ?_, ?_, rfl⟩
  · rw [Dev.setB_eq, Dev.bit_setF_ne _ _ (by decide)]
    exact beq_iff_eq.mpr (Dev.f_setF_same _ _ _)
  · rw [Dev.setB_eq, Dev.bit_setF_ne _ _ (by decide), Dev.bit_setF_ne _ _ (by decide), hhold]
  · rw [Dev.bit_setB_same _ _ _ (by decide), Dev.bit_setF_ne _ _ (by decide), Dev.bit_setF_ne _ _ (by decide), hhold, Bool.not_false,
      Bool.and_true]
    rfl

theorem Answers.of_tbLock_held {s : State} (hl : Live s) (hh : s.dev.bit Reg.TB_STAT_HOLD = true) :
    Answers .tbLock s (fun t => t.dev.bit Reg.TB_STAT_HOLD = true ∧ t.dev.bit Reg.TB_STAT_LOCK = s.dev.bit Reg.TB_STAT_LOCK ∧
      t.dev.relock = true) := by
  have hhold : s.dev.romWaits.bit Reg.TB_STAT_HOLD = true := (s.dev.romWaits_bit (by decide) (by decide)).trans hh
  have hlock : s.dev.tbLock = s.dev.romWaits.setRelock true := if_pos hhold
  refine .of_done hl rfl ?_
  rw [State.commit_bit, State.commit_bit, State.commit_relock, hlock]
  exact ⟨hhold, s.dev.romWaits_bit (by decide) (by decide), rfl⟩

/-- The status fields once the reference is lost, before Madder is asked for a safe stop. -/
theorem Dev.refLost_work (d : Dev) : ∃ e : Dev, e.bit Reg.TB_STAT_LOCK = false ∧ e.bit Reg.TB_STAT_HOLD = true ∧ e.bit Reg.TB_STAT_LINE = false ∧
    e.now = d.now ∧ Dev.Work RF.Far { e with mad := { e.mad with req := some (e.mad.req.getD 0) } } d.refLost := by
  refine ⟨_, ?_, ?_, ?_, ?_, Dev.serviceLost_work _⟩
  · simp [Dev.lineUpdate, Dev.bit, Reg.TB_STAT_LOCK, Reg.TB_STAT_HOLD, Reg.TB_STAT_LINE, Reg.TB_STAT_at]
  · simp [Dev.lineUpdate, Dev.bit, Reg.TB_STAT_LOCK, Reg.TB_STAT_HOLD, Reg.TB_STAT_LINE, Reg.TB_STAT_at]
  · simp [Dev.lineUpdate, Dev.bit, Reg.TB_STAT_LOCK, Reg.TB_STAT_HOLD, Reg.TB_STAT_LINE, Reg.TB_STAT_at]
  · exact (Dev.setF_now _ _ _).trans (Dev.pend_same _ 55).now

theorem Answers.of_lossOfReference {s : State} (hl : Live s) : Answers .lossOfReference s (fun t => t.dev.bit Reg.TB_STAT_LOCK = false ∧
    t.dev.bit Reg.TB_STAT_HOLD = true ∧ t.dev.bit Reg.TB_STAT_LINE = false ∧ t.dev.mad.req.isSome = true ∧ t.dev.now = s.dev.now) := by
  obtain ⟨e, hlock, hhold, hline, hnow, hw⟩ := s.dev.refLost_work
  have hbit : ∀ r : RF, r.lo < 32 → r.addr = Reg.TB_STAT_at → s.dev.refLost.bit r = e.bit r := fun r hlo ha =>
    congrArg (· == 1) (hw.f r ⟨hlo, by rw [ha]; decide⟩)
  refine .of_done hl rfl ?_
  rw [State.commit_bit, State.commit_bit, State.commit_bit, State.commit_mad, State.commit_now, hbit _ (by decide) rfl,
    hbit _ (by decide) rfl, hbit _ (by decide) rfl, hw.mad, hw.now]
  exact ⟨hlock, hhold, hline, rfl, hnow⟩

/-! ### Offset corrections and the initial load (R34, R35) -/

/-- A number within the field's range survives its two's complement pattern. -/
theorem signed_pattern_24 {x : Int} (h1 : -(2 ^ 23) ≤ x) (h2 : x < 2 ^ 23) : signed 24 (pattern 24 x % 2 ^ 24) = x := by
  unfold signed pattern
  split <;> omega

theorem Dev.slewShow_spares (d : Dev) (on : Bool) : (d.slewShow on).now = d.now ∧ (d.slewShow on).resp = d.resp ∧
    (d.slewShow on).slewRem = d.slewRem := by
  have h := (d.setB Reg.TB_STAT_SLEW on).pend_same 55
  unfold Dev.slewShow
  split
  · exact ⟨rfl, rfl, rfl⟩
  · refine ⟨h.now, h.resp, congrArg (signed 24) ?_⟩
    simp [Reg.TB_STAT_SLEW, Reg.TB_SLEW_REM, Reg.TB_STAT_at, Reg.TB_SLEW_at]

theorem Dev.slewShow_bit (d : Dev) (on : Bool) : (d.slewShow on).bit Reg.TB_STAT_SLEW = on := by
  unfold Dev.slewShow
  split
  next h => exact h
  next => simp [Dev.bit, Reg.TB_STAT_SLEW, Reg.TB_STAT_at]

theorem Dev.adjust_eq {d : Dev} (src : Src) {w : Nat} (h : (signed 32 w).natAbs ≤ d.f Reg.PTP_JUMP_LIMIT)
    (h1 : -(2 ^ 23) ≤ d.slewRem + signed 32 w) (h2 : d.slewRem + signed 32 w < 2 ^ 23) :
    d.adjust src w = (d.setF Reg.TB_SLEW_REM (pattern 24 (d.slewRem + signed 32 w))).slewShow (d.slewRem + signed 32 w != 0) :=
  if_neg (fun hbad => hbad.elim (absurd · (Nat.not_lt.mpr h)) (fun hb => hb.elim (absurd · (Int.not_lt.mpr h1)) (absurd · (Int.not_le.mpr h2))))

theorem Answers.of_offsetCorrection {s : State} {src : Src} {w : Word} (hr : Reaches s src Reg.TB_ADJ_at)
    (h : (signed 32 w.toNat).natAbs ≤ s.dev.f Reg.PTP_JUMP_LIMIT) (h1 : -(2 ^ 23) ≤ s.dev.slewRem + signed 32 w.toNat)
    (h2 : s.dev.slewRem + signed 32 w.toNat < 2 ^ 23) :
    Answers (.offsetCorrection src w) s (fun t => t.dev.slewRem = s.dev.slewRem + signed 32 w.toNat ∧
      t.dev.bit Reg.TB_STAT_SLEW = (s.dev.slewRem + signed 32 w.toNat != 0) ∧ t.dev.now = s.dev.now ∧ t.dev.resp = ⟨0, false⟩) := by
  have hexec : exec (.offsetCorrection src w) s = s.done ((s.dev.answer 0).adjust src w.toNat) :=
    congrArg s.done (Dev.onWrite_unguarded hr.2 _)
  have hrem : (s.dev.answer 0).slewRem = s.dev.slewRem := rfl
  refine .of_done hr.1 hexec ?_
  rw [Dev.adjust_eq (d := s.dev.answer 0) src h h1 h2, hrem, State.commit_bit, State.commit_now, State.commit_resp, Dev.slewShow_bit]
  obtain ⟨hnow, hresp, hslew⟩ := Dev.slewShow_spares ((s.dev.answer 0).setF Reg.TB_SLEW_REM (pattern 24 (s.dev.slewRem + signed 32 w.toNat)))
    (s.dev.slewRem + signed 32 w.toNat != 0)
  refine ⟨?_, rfl, hnow, hresp⟩
  refine hslew.trans ((congrArg (signed 24) (Dev.f_setF_same _ _ _)).trans (signed_pattern_24 h1 h2))

theorem Answers.of_slewEnd {s : State} (hl : Live s) (h : s.dev.f Reg.TB_SLEW_REM = 0) :
    Answers .slewEnd s (fun t => t.dev.bit Reg.TB_STAT_SLEW = false ∧ t.dev.now = s.dev.now) := by
  refine .of_done hl (congrArg s.done (if_pos h)) ?_
  rw [State.commit_bit, State.commit_now, Dev.slewShow_bit]
  exact ⟨rfl, (s.dev.slewShow_spares false).1⟩

theorem Answers.of_tbLoad {s : State} {src : Src} (w : Word) (hr : Reaches s src Reg.TB_LOAD_HI_at) (hl : s.dev.bit Reg.TB_STAT_LOADED = false)
    (hi : s.dev.everyIdle = true) :
    Answers (.tbLoad src w) s (fun t => t.dev.now = (s.dev.heldFor src Reg.TB_LOAD_LO_at).getD 0 + 2 ^ 32 * w.toNat ∧
      t.dev.bit Reg.TB_STAT_LOADED = true) := by
  have hl' := (s.dev.tbLoadTaken_bit src Reg.TB_STAT_LOADED).trans hl
  have hi' := (s.dev.tbLoadTaken_everyIdle src).trans hi
  refine .of_done hr.1 (exec_tbLoad w hr.2) ?_
  rw [State.commit_now, State.commit_bit]
  refine ⟨Dev.loadNow_now hl' hi' src _, ?_⟩
  rw [Dev.loadNow_accepted hl' hi']
  refine congrArg (· == 1) (((Dev.retrainLanes_work _).f _ ⟨by decide, by decide⟩).trans ?_ : _ = 1)
  rw [Dev.clearTriggers_eq, Dev.setPtp_f]
  unfold Dev.clearRows
  rw [Dev.f_forEach_setF_ne _ _ (fun i _ => RF.key_ne_lo (Nat.ne_of_beq_eq_false rfl) (Nat.le_of_ble_eq_true rfl) (by decide)),
    Dev.f_forEach_setF_ne _ _ (fun i _ => RF.key_ne_lo (Nat.ne_of_beq_eq_false rfl) (Nat.le_of_ble_eq_true rfl) (by decide))]
  exact Dev.f_setF_same (s.dev.tbLoadTaken src) Reg.TB_STAT_LOADED 1

/-! ### LATE faults (R39, R40) -/

theorem RF.far_lateCount {x : Nat} (hx : x < 8) : RF.Far (Reg.GOV_LATE_COUNT x) :=
  ⟨Nat.le_of_ble_eq_true rfl, by simp only [Reg.GOV_LATE_COUNT, Reg.GOV_LATE_at]; omega⟩

/-- Counting a LATE fault counts it in its class; a fence that follows leaves the count. -/
theorem Dev.f_countLate (d : Dev) (u : Nat) (v : Option (Fin 16)) {x : Nat} (hx : x < 8) :
    (d.countLate u v).f (Reg.GOV_LATE_COUNT x) = (d.bump (Reg.GOV_LATE_COUNT u) 1).f (Reg.GOV_LATE_COUNT x) := by
  have hpend : ((d.bump (Reg.GOV_LATE_COUNT u)).pend 54).f (Reg.GOV_LATE_COUNT x) = (d.bump (Reg.GOV_LATE_COUNT u)).f (Reg.GOV_LATE_COUNT x) :=
    Dev.f_pend_off _ (by decide) (Nat.le_of_ble_eq_true rfl) (by simp only [Reg.GOV_LATE_COUNT, Reg.GOV_LATE_at]; omega)
  cases v with
  | none => exact hpend
  | some v =>
    have hbump : (((d.bump (Reg.GOV_LATE_COUNT u)).pend 54).bump (Reg.GOV_VLATE_COUNT v.1)).f (Reg.GOV_LATE_COUNT x) =
        ((d.bump (Reg.GOV_LATE_COUNT u)).pend 54).f (Reg.GOV_LATE_COUNT x) :=
      Dev.f_bump_off _ _ (Nat.le_of_ble_eq_true rfl) (Nat.le_of_ble_eq_true rfl)
        (by simp only [Reg.GOV_LATE_COUNT, Reg.GOV_VLATE_COUNT, Reg.GOV_LATE_at, Reg.GOV_VLATE_at]; omega)
    refine Eq.trans ?_ (hbump.trans hpend)
    unfold Dev.countLate
    dsimp only
    split
    · exact (Dev.fenceNow_work _ v 4).f _ (RF.far_lateCount hx)
    · rfl

theorem Dev.storeForward_regs (d : Dev) : d.storeForward.regs = d.regs := by
  unfold Dev.storeForward
  dsimp only
  split
  · exact List.foldlRecOn _ _ (motive := fun e : Dev => e.regs = d.regs) rfl (fun e he o _ => he)
  · rfl

theorem Dev.lateFault_fence (d : Dev) (v k : Fin 16) {u : Fin 8} (h : u = 0 ∨ u = 3) :
    d.lateFault u v k = (d.countLate u.1 (some v)).fenceNow v 4 := by
  obtain rfl | rfl := h <;> rfl

theorem Dev.lateFault_one (d : Dev) (v k : Fin 16) :
    d.lateFault 1 v k = ((d.countLate 1 (some v)).bump (Reg.GOV_LATE_COUNT 2)).lateLoop v k := rfl

theorem Dev.lateFault_forward (d : Dev) (v k : Fin 16) : d.lateFault 7 v k = (d.countLate 7 none).storeForward := rfl

theorem Dev.lateFault_loop (d : Dev) (v k : Fin 16) : d.lateFault 2 v k = (d.countLate 2 (some v)).lateLoop v k := rfl

theorem Dev.lateFault_pert (d : Dev) (v k : Fin 16) : d.lateFault 4 v k =
    ((d.countLate 4 (some v)).modChan v k (fun c => { c with pertLate := some (d.tick k) })).impMark v k (d.tick k) false true := rfl

theorem Dev.lateFault_group (d : Dev) (v k : Fin 16) :
    d.lateFault 5 v k = (d.countLate 5 (some v)).modLane v (fun l => { l with grpBad := true }) := rfl

theorem Dev.lateFault_start (d : Dev) (v k : Fin 16) : d.lateFault 6 v k = (d.countLate 6 (some v)).lateStart v k := rfl

/-- The other classes only mark the vat's engines. -/
theorem Dev.lateFault_marks (d : Dev) (v k : Fin 16) {u : Fin 8} (h : u = 2 ∨ u = 4 ∨ u = 5 ∨ u = 6) (r : RF) :
    (d.lateFault u v k).f r = (d.countLate u.1 (some v)).f r := by
  obtain rfl | rfl | rfl | rfl := h
  · rw [d.lateFault_loop v k]
    exact Dev.modVat_f _ v _ r
  · rw [d.lateFault_pert v k]
    exact Dev.modVat_f _ v _ r
  · rw [d.lateFault_group v k]
    exact Dev.modVat_f _ v _ r
  · rw [d.lateFault_start v k]
    exact Dev.modVat_f _ v _ r

/-- The reaction to a LATE fault counts it in its own class, and a fast decimator's as a loop engine's too. -/
theorem Dev.f_lateFault (d : Dev) (u : Fin 8) (v k : Fin 16) {x : Nat} (hx : x < 8) (h : u = 1 → x ≠ 2) :
    (d.lateFault u v k).f (Reg.GOV_LATE_COUNT x) = (d.bump (Reg.GOV_LATE_COUNT u.1)).f (Reg.GOV_LATE_COUNT x) := by
  have hclass : (u = 0 ∨ u = 3) ∨ u = 1 ∨ u = 7 ∨ u = 2 ∨ u = 4 ∨ u = 5 ∨ u = 6 := by omega
  obtain hu | rfl | rfl | hu := hclass
  · rw [d.lateFault_fence v k hu, (Dev.fenceNow_work _ v 4).f _ (RF.far_lateCount hx), d.f_countLate _ _ hx]
  · have hx2 := h rfl
    rw [d.lateFault_one v k]
    refine (Dev.f_bump_off _ _ (Nat.le_of_ble_eq_true rfl) (Nat.le_of_ble_eq_true rfl) ?_).trans (d.f_countLate 1 (some v) hx)
    simp only [Reg.GOV_LATE_COUNT, Reg.GOV_LATE_at]
    omega
  · rw [d.lateFault_forward v k, Dev.f_of_regs (Dev.storeForward_regs _) _]
    exact d.f_countLate 7 none hx
  · rw [d.lateFault_marks v k hu, d.f_countLate _ _ hx]

theorem Answers.of_lateFault {s : State} (u : Fin 8) (v k : Fin 16) (hl : Live s) : Answers (.lateFault u v k) s (fun t =>
    t.dev.f (Reg.GOV_LATE_COUNT u.1) = min (2 ^ 32 - 1) (s.dev.f (Reg.GOV_LATE_COUNT u.1) + 1) ∧
    (u = 1 → t.dev.f (Reg.GOV_LATE_COUNT 2) = min (2 ^ 32 - 1) (s.dev.f (Reg.GOV_LATE_COUNT 2) + 1))) := by
  refine .of_done hl rfl ?_
  rw [State.commit_f, State.commit_f, s.dev.f_lateFault u v k u.2 (fun h => by rw [h]; decide)]
  refine ⟨Dev.f_bump_same _ _ _, fun h => ?_⟩
  subst h
  have hcount : (s.dev.countLate 1 (some v)).f (Reg.GOV_LATE_COUNT 2) = s.dev.f (Reg.GOV_LATE_COUNT 2) :=
    (s.dev.f_countLate 1 _ (by decide)).trans (Dev.f_bump_off _ _ (by decide) (by decide) (by decide))
  exact (Dev.f_bump_same _ _ _).trans (congrArg (fun n => min (2 ^ 32 - 1) (n + 1)) hcount)

/-! ### The slack governor (R41-R43) -/

/-- Taking the window's slacks only sets the classes' minima. -/
theorem Dev.takeSlack_keeps (d : Dev) (slack : List Int) : Dev.Reports d (d.takeSlack slack) ∧
    ∀ r : RF, r.lo < 32 → r.addr < Reg.GOV_SLACK_at 0 → (d.takeSlack slack).f r = d.f r := by
  refine List.foldlRecOn _ _ (motive := fun e : Dev => Dev.Reports d e ∧ ∀ r : RF, r.lo < 32 → r.addr < Reg.GOV_SLACK_at 0 → e.f r = d.f r)
    ⟨.rfl d, fun _ _ _ => rfl⟩ (fun e he x _ => ?_)
  dsimp only
  split
  · refine ⟨he.1.trans (e.setF_same _ _), fun r hl ha => (e.f_setF_off _ (Nat.le_of_ble_eq_true rfl) hl ?_).trans (he.2 r hl ha)⟩
    simp only [Reg.GOV_SLACK_at, Reg.GOV_SLACK_MIN] at ha ⊢
    omega
  · exact he

theorem satS_16_neg {m : Int} (h : m < 0) : satS 16 m < 0 := by
  unfold satS clamp
  split_ifs <;> omega

theorem pattern_16_mod (m : Int) : pattern 16 m % 2 ^ 16 = pattern 16 m := by
  unfold pattern
  omega

/-- The governor's step after a window whose minimum is negative (R42). -/
theorem Dev.govern_of_neg (d : Dev) {m : Int} (h : m < 0) (r : RF) : (d.govern m).f r =
    (d.setF Reg.GOV_STAT_VCORE (min 50 (max d.railFloor (max (d.f Reg.GOV_STAT_VCORE) ((d.railNow + 4) / 5) + 2)))).f r := by
  unfold Dev.govern
  dsimp only
  rw [if_pos h, if_pos h]
  rfl

theorem Dev.govWindow_eq (d : Dev) {x : Int} {xs : List Int} (hn : xs.length < 8) (hen : d.bit Reg.GOV_CTL_EN = true)
    (hpin : d.bit Reg.GOV_CTL_PIN = false) : d.govWindow (x :: xs) =
      ((d.takeSlack (x :: xs)).setF Reg.GOV_STAT_MIN_SLACK (pattern 16 (satS 16 (xs.foldl min x)))).govern (satS 16 (xs.foldl min x)) := by
  obtain ⟨-, hkeep⟩ := d.takeSlack_keeps (x :: xs)
  have htake : (x :: xs).take 8 = x :: xs := List.take_of_length_le (by rw [List.length_cons]; omega)
  have hbit : ∀ r : RF, r.lo < 32 → r.addr = Reg.GOV_CTL_at →
      ((d.takeSlack (x :: xs)).setF Reg.GOV_STAT_MIN_SLACK (pattern 16 (satS 16 (xs.foldl min x)))).bit r = d.bit r := fun r hl ha => by
    refine congrArg (· == 1) ((Dev.f_setF_addr_ne _ _ ?_ (by decide) hl).trans (hkeep r hl ?_))
    · rw [ha]; decide
    · rw [ha]; decide
  unfold Dev.govWindow
  rw [htake]
  dsimp only
  rw [hbit _ (by decide) rfl, hbit _ (by decide) rfl, hen, hpin]
  rfl

theorem Answers.of_governorWindow {s : State} {x : Int} {xs : List Int} (hl : Live s) (hen : s.dev.bit Reg.GOV_CTL_EN = true)
    (hpin : s.dev.bit Reg.GOV_CTL_PIN = false) (hn : xs.length < 8) (hneg : xs.foldl min x < 0) :
    Answers (.governorWindow (x :: xs)) s (fun t => t.dev.f Reg.GOV_STAT_MIN_SLACK = pattern 16 (satS 16 (xs.foldl min x)) ∧
      t.dev.f Reg.GOV_STAT_VCORE = min 50 (max s.dev.railFloor (max (s.dev.f Reg.GOV_STAT_VCORE) ((s.dev.railNow + 4) / 5) + 2))) := by
  obtain ⟨hrep, hkeep⟩ := s.dev.takeSlack_keeps (x :: xs)
  have hv : (s.dev.takeSlack (x :: xs)).f Reg.GOV_STAT_VCORE = s.dev.f Reg.GOV_STAT_VCORE := hkeep _ (by decide) (by decide)
  have hfloor : (s.dev.takeSlack (x :: xs)).railFloor = s.dev.railFloor := congrArg (fun b => if b = true then 20 else 0) hrep.hot
  refine .of_done hl (congrArg s.done (s.dev.govWindow_eq hn hen hpin)) ?_
  rw [State.commit_f, State.commit_f, Dev.govern_of_neg _ (satS_16_neg hneg), Dev.govern_of_neg _ (satS_16_neg hneg)]
  refine ⟨?_, ?_⟩
  · rw [Dev.f_setF_lo_ne _ _ (by decide) (by decide) (by decide), Dev.f_setF_same]
    exact pattern_16_mod _
  · rw [Dev.f_setF_same, Dev.f_setF_lo_ne _ _ (by decide) (by decide) (by decide), hv, Dev.setF_railNow, hrep.railNow]
    refine (Nat.mod_eq_of_lt (lt_of_le_of_lt (Nat.min_le_left _ _) (by decide))).trans ?_
    exact congrArg (fun n => min 50 (max n _)) hfloor

theorem Answers.of_junction120 {s : State} (hl : Live s) (hpin : s.dev.bit Reg.GOV_CTL_PIN = false) (hv : s.dev.f Reg.GOV_STAT_VCORE < 20) :
    Answers (.junction120 true) s (fun t => t.dev.hot = true ∧ t.dev.f Reg.GOV_STAT_VCORE = 20) := by
  have hjunction : s.dev.junction true = (s.dev.setHot true).setF Reg.GOV_STAT_VCORE 20 := by
    have hpin' : (s.dev.setHot true).bit Reg.GOV_CTL_PIN = false := hpin
    have hv' : (s.dev.setHot true).f Reg.GOV_STAT_VCORE < 20 := hv
    exact if_pos (by rw [hpin', decide_eq_true hv']; rfl)
  refine .of_done hl (congrArg s.done hjunction) ?_
  rw [State.commit_hot, State.commit_f, Dev.f_setF_same]
  exact ⟨rfl, rfl⟩

theorem Dev.pinRail_of_pin {d : Dev} (h : d.bit Reg.GOV_CTL_PIN = true) : d.pinRail =
    (d.setF Reg.GOV_STAT_VCORE (d.f Reg.GOV_PIN_V)).setB Reg.GOV_STAT_PINNED (d.railNow == 5 * d.f Reg.GOV_PIN_V) := by
  refine (if_pos h).trans ?_
  dsimp only
  rw [Dev.f_setF_addr_ne _ _ (by decide) (by decide) (by decide)]
  rfl

/-- The pin writes GOV_STAT alone. -/
theorem Dev.f_pinRail_off (d : Dev) {r : RF} (hl : r.lo < 32) (h : r.addr ≠ Reg.GOV_STAT_at) : d.pinRail.f r = d.f r := by
  have set : ∀ (e : Dev) (g : RF) (x : Nat), g.addr = Reg.GOV_STAT_at → g.lo < 32 → (e.setF g x).f r = e.f r := fun e g x ha hg =>
    e.f_setF_addr_ne x (by rw [ha]; exact h) hg hl
  unfold Dev.pinRail
  split
  · exact (set _ Reg.GOV_STAT_PINNED _ rfl (by decide)).trans (set _ Reg.GOV_STAT_VCORE _ rfl (by decide))
  · dsimp only
    split
    · exact (set _ Reg.GOV_STAT_VCORE _ rfl (by decide)).trans (set _ Reg.GOV_STAT_PINNED _ rfl (by decide))
    · exact set _ Reg.GOV_STAT_PINNED _ rfl (by decide)

theorem Answers.of_pinReached {s : State} (hl : Live s) (hpin : s.dev.bit Reg.GOV_CTL_PIN = true) : Answers .pinReached s (fun t =>
    t.dev.bit Reg.GOV_STAT_PINNED = (s.dev.railNow == 5 * s.dev.f Reg.GOV_PIN_V) ∧
    t.dev.f Reg.GOV_STAT_VCORE = s.dev.f Reg.GOV_PIN_V % 64) := by
  have hstat : ∀ r : RF, r.lo < 32 → r.addr = Reg.GOV_STAT_at → s.dev.pinRail.review.f r = s.dev.pinRail.f r := fun r hlo ha =>
    s.dev.pinRail.f_review hlo (by rw [ha]; decide) (by rw [ha]; decide) (by rw [ha]; decide)
  refine .of_done hl rfl ?_
  rw [State.commit_bit, State.commit_f, hstat _ (by decide) rfl, Dev.bit, hstat _ (by decide) rfl, Dev.pinRail_of_pin hpin]
  refine ⟨?_, ?_⟩
  · rw [Dev.f_setB_same _ _ _ (by decide), ite_one_zero_beq_one]
  · rw [Dev.f_setB_off _ _ (by decide) (by decide) (by decide)]
    exact Dev.f_setF_same _ _ _

/-- A write acts on a field the register table lists at the address. -/
theorem Dev.f_writeRowWith_listed (d : Dev) (src : Src) {a : Nat} (w : Nat) {pick : FieldRow → Verdict} (base : Nat) (f : FieldRow)
    (hf : (Reg.row a).any (fun row => row.base == base && row.fields.contains f) = true) (hact : pick f = .act)
    (h : a < 0x20004000 ∨ 0x20004800 ≤ a) : (d.writeRowWith src a w pick).f (f.sel base a) = f.written d base a w := by
  obtain ⟨row, hrow, hlist⟩ := (Option.any_eq_true _ _).mp hf
  obtain ⟨hbase, hmem⟩ := Bool.and_eq_true_iff.mp hlist
  obtain rfl := beq_iff_eq.mp hbase
  exact Dev.f_writeRowWith src hrow (List.contains_iff_mem.mp hmem) hact h

theorem Answers.of_govCtlWrite {s : State} {src : Src} (w : Word) (hr : Reaches s src Reg.GOV_CTL_at) (hstrict : s.dev.bit Reg.SLICE_MODE_STRICT = false) :
    Answers (.govCtlWrite src w) s (fun t => t.dev.f Reg.GOV_CTL_EN = bits w.toNat 0 1 ∧ t.dev.f Reg.GOV_CTL_PIN = bits w.toNat 1 1 ∧
      (1 ≤ bits w.toNat 8 8 → bits w.toNat 8 8 ≤ 100 → t.dev.f Reg.GOV_CTL_WIN = bits w.toNat 8 8)) := by
  have hrow : ∀ f : FieldRow, (Reg.row Reg.GOV_CTL_at).any (fun row => row.base == Reg.GOV_CTL_at && row.fields.contains f) = true →
      f.lo < 32 → (((s.dev.answer 0).writeRowWith src Reg.GOV_CTL_at w.toNat (fun f =>
        if (s.dev.answer 0).bit Reg.SLICE_MODE_STRICT && f.lo ≤ 1 then .refuse else .act)).pinRail.review).f (f.sel Reg.GOV_CTL_at Reg.GOV_CTL_at) =
      f.written (s.dev.answer 0) Reg.GOV_CTL_at Reg.GOV_CTL_at w.toNat := fun f hf hlo => by
    have hstrict' : (s.dev.answer 0).bit Reg.SLICE_MODE_STRICT = false := hstrict
    have haddr : (f.sel Reg.GOV_CTL_at Reg.GOV_CTL_at).addr = Reg.GOV_CTL_at := rfl
    rw [Dev.f_review _ hlo (by rw [haddr]; decide) (by rw [haddr]; decide) (by rw [haddr]; decide),
      Dev.f_pinRail_off _ hlo (by rw [haddr]; decide)]
    exact (s.dev.answer 0).f_writeRowWith_listed src w.toNat _ f hf (by rw [hstrict']; rfl) (by decide)
  have hbit : ∀ lo, bits w.toNat lo 1 ≤ 1 := fun lo => Nat.lt_succ_iff.mp (Nat.mod_lt _ (by decide))
  refine .of_done hr.1 (congrArg s.done (Dev.onWrite_unguarded hr.2 _)) ?_
  simp only [State.commit_f]
  refine ⟨?_, ?_, fun h1 h2 => ?_⟩
  · refine (hrow ⟨0, 1, .rw, .const 1, true, [], 0⟩ (by decide +kernel) (by decide)).trans (if_pos ?_)
    simp [FieldRow.admits, Nat.mod_one]
  · refine (hrow ⟨1, 1, .rw, .const 0, true, [], 0⟩ (by decide +kernel) (by decide)).trans (if_pos ?_)
    simp [FieldRow.admits, Nat.mod_one]
  · refine (hrow ⟨8, 8, .rw, .const 10, true, [(1, 100)], 0⟩ (by decide +kernel) (by decide)).trans (if_pos ?_)
    simp [FieldRow.admits, Nat.mod_one, h1, h2]

theorem Answers.of_clr {s : State} {src : Src} {w : Word} (hr : Reaches s src Reg.GOV_SLACK_CLR_at) (hw : w.toNat.testBit 0 = true) :
    Answers (.clr src w) s (fun t => ∀ u < 8, t.dev.f (Reg.GOV_SLACK_MIN u) = 0x7FFF) := by
  refine .of_done hr.1 (congrArg s.done ((Dev.onWrite_unguarded hr.2 _).trans (if_pos hw))) (fun u hu => ?_)
  rw [State.commit_f]
  refine (Dev.f_forEach_setF (s.dev.answer 0) (r := Reg.GOV_SLACK_MIN) (fun _ => 0x7FFF) (fun i hi => ?_) hu).trans rfl
  exact RF.key_ne (by simp only [Reg.GOV_SLACK_MIN, Reg.GOV_SLACK_at]; omega) (Nat.le_of_ble_eq_true rfl) (Nat.le_of_ble_eq_true rfl)

/-- Settles O8: each command of the time base and the governor sets the fields it names and no later step of it writes them. -/
theorem timeBaseAndGovernor : Obligations.TimeBaseAndGovernor :=
  ⟨⟨fun _ => .of_tbLock, fun _ => .of_tbLock_held, fun _ => .of_lossOfReference, fun _ _ _ => .of_offsetCorrection, fun _ => .of_slewEnd,
      fun _ _ w => .of_tbLoad w⟩,
    fun _ u v k => .of_lateFault u v k, fun _ _ _ => .of_governorWindow, fun _ => .of_junction120, fun _ => .of_pinReached,
    fun _ _ w => .of_govCtlWrite w, fun _ _ _ => .of_clr⟩

end Sys2Proof.Machine
end

section
/-!
PROOF. The control law of a constant-current channel in RUN (R97-R105, R115, R133): a loop computation step by step, each of which
leaves what the law reads, and the RUN command it sends.
-/

namespace Sys2Proof.Machine
open Sys2Proof

/-! ### What the law reads of the device -/

/-- A field of the vats, the lanes or SLICE_MODE. -/
def RF.VatSide (r : RF) : Prop := r.lo < 32 ∧ 0x20010000 ≤ r.addr ∧ r.addr ≤ 0x20030000

/-- From `d` to `e` the fields and scale factors vat `v`'s law reads and the channels but (v, k) are as before; no sweep begins, and what
was sent stays sent. -/
structure Dev.LawView (v k : Fin 16) (d e : Dev) : Prop where
  f : ∀ r : RF, r.VatSide → e.f r = d.f r
  slcD : e.slcD = d.slcD
  slcG : e.slcG = d.slcG
  segD : e.segD = d.segD
  segG : e.segG = d.segG
  sD : (e.vats[v]).sD = (d.vats[v]).sD
  sG : (e.vats[v]).sG = (d.vats[v]).sG
  meas : (e.vats[v]).meas = (d.vats[v]).meas
  point : (d.vats[v]).imp.point = none → (e.vats[v]).imp.point = none
  others : ∀ v' k' : Fin 16, (v', k') ≠ (v, k) → e.chan v' k' = d.chan v' k'
  sends : Dev.SendsOn d e

section
variable {v k : Fin 16} {d e g : Dev}

theorem Dev.LawView.refl (d : Dev) : Dev.LawView v k d d :=
  ⟨fun _ _ => rfl, rfl, rfl, rfl, rfl, rfl, rfl, rfl, id, fun _ _ _ => rfl, .refl d⟩

theorem Dev.LawView.trans (h : Dev.LawView v k d e) (h' : Dev.LawView v k e g) : Dev.LawView v k d g where
  f r hr := (h'.f r hr).trans (h.f r hr)
  slcD := h'.slcD.trans h.slcD
  slcG := h'.slcG.trans h.slcG
  segD := h'.segD.trans h.segD
  segG := h'.segG.trans h.segG
  sD := h'.sD.trans h.sD
  sG := h'.sG.trans h.sG
  meas := h'.meas.trans h.meas
  point hp := h'.point (h.point hp)
  others v' k' hne := (h'.others v' k' hne).trans (h.others v' k' hne)
  sends := h.sends.trans h'.sends

/-- The channel's own state may change freely. -/
theorem Dev.modChan_lawView (d : Dev) (x : Chan → Chan) : Dev.LawView v k d (d.modChan v k x) where
  f _ _ := rfl
  slcD := rfl
  slcG := rfl
  segD := rfl
  segG := rfl
  sD := by simp [Dev.modChan]
  sG := by simp [Dev.modChan]
  meas := by simp [Dev.modChan]
  point hp := (congrArg (fun y : Vat => y.imp.point) (d.vats_modVat_same v _)).trans hp
  others _ _ hne := Dev.chan_modChan_ne d hne x
  sends := .refl d

/-- A sweep's point that is not there stays away. -/
theorem Dev.modPoint_lawView (d : Dev) (t : Nat) (x : ImpPoint → ImpPoint) : Dev.LawView v k d (d.modPoint v t x) where
  f _ _ := rfl
  slcD := rfl
  slcG := rfl
  segD := rfl
  segG := rfl
  sD := by simp [Dev.modPoint, Dev.modImp]
  sG := by simp [Dev.modPoint, Dev.modImp]
  meas := by simp [Dev.modPoint, Dev.modImp]
  point hp := by
    refine (congrArg (fun y : Vat => y.imp.point) (d.vats_modVat_same v _)).trans ?_
    dsimp only
    rw [hp]
    rfl
  others v' k' _ := Dev.chan_modPoint d v v' k' t x
  sends := .refl d

/-- A corrected error of the vat's SRAM is counted and reported beside what the law reads. -/
theorem Dev.corrected_lawView (d : Dev) (n : Nat) : Dev.LawView v k d (d.corrected (Reg.MEM_VAT_ERR_CE n)) := by
  have hbump : ∀ r : RF, r.VatSide → (d.bump (Reg.MEM_VAT_ERR_CE n)).f r = d.f r := fun r ⟨hl, hlo, hhi⟩ =>
    Dev.f_bump_off d 1 (Nat.le_of_ble_eq_true rfl) hl (by simp only [Reg.MEM_VAT_ERR_CE, Reg.MEM_VAT_ERR_at]; omega)
  unfold Dev.corrected
  exact {
    f := fun r hr => (Dev.f_raise_off _ 1 (by decide) hr.1 (by decide) (by have := hr.2; omega)
      (by have := hr.2; simp only [Reg.MEM_EVT_CE, Reg.MEM_EVT_at]; omega)).trans (hbump r hr)
    slcD := Dev.raise_slcD _ _ _ _
    slcG := Dev.raise_slcG _ _ _ _
    segD := Dev.raise_segD _ _ _ _
    segG := Dev.raise_segG _ _ _ _
    sD := by rw [Dev.raise_vats]; rfl
    sG := by rw [Dev.raise_vats]; rfl
    meas := by rw [Dev.raise_vats]; rfl
    point := fun hp => by rw [Dev.raise_vats]; exact hp
    others := fun _ _ _ => Dev.chan_raise _ _ _ _ _ _
    sends := (Dev.raise_sendsOn _ _ _ _).after rfl }

end

theorem RF.VatSide.of {r : RF} (hl : r.lo < 32) (h : 0x20010000 ≤ r.addr ∧ r.addr ≤ 0x20030000) : r.VatSide := ⟨hl, h⟩

/-- The scaled limits are read off the fields and factors of the view (R133). -/
theorem Dev.LawView.effLimits {v k : Fin 16} {d e : Dev} (h : Dev.LawView v k d e) (hown : (e.chan v k).owner = (d.chan v k).owner) (x : Desc)
    (t : Tuning) : e.effLimits v k x t = d.effLimits v k x t := by
  have fvbus : e.f (Reg.VAT_VBUS_VBUS v.1) = d.f (Reg.VAT_VBUS_VBUS v.1) :=
    h.f _ (.of (Nat.le_of_ble_eq_true rfl) (by simp only [Reg.VAT_VBUS_VBUS, Reg.VAT_VBUS_at]; omega))
  have fdesc : e.f (Reg.LANE_DESC_WORD v.1 6) = d.f (Reg.LANE_DESC_WORD v.1 6) :=
    h.f _ (.of (Nat.le_of_ble_eq_true rfl) (by simp only [Reg.LANE_DESC_WORD, Reg.LANE_DESC_at]; omega))
  have fband : e.f (Reg.VAT_BAL_OVB_BAND v.1) = d.f (Reg.VAT_BAL_OVB_BAND v.1) :=
    h.f _ (.of (Nat.le_of_ble_eq_true rfl) (by simp only [Reg.VAT_BAL_OVB_BAND, Reg.VAT_BAL_OVB_at]; omega))
  have fseg : e.f (Reg.VAT_BAL_CFG_SEG v.1) = d.f (Reg.VAT_BAL_CFG_SEG v.1) :=
    h.f _ (.of (Nat.le_of_ble_eq_true rfl) (by simp only [Reg.VAT_BAL_CFG_SEG, Reg.VAT_BAL_CFG_at]; omega))
  have fstrict : e.f Reg.SLICE_MODE_STRICT = d.f Reg.SLICE_MODE_STRICT := h.f _ (.of (by decide) (by decide))
  have hbrown : e.brown v = d.brown v := by
    unfold Dev.brown Dev.desc
    rw [fvbus, fdesc, fband]
  have hscope : e.scopeFactors v k = d.scopeFactors v k := by
    simp only [Dev.scopeFactors, Chan.slice, Dev.bit, hown, h.sD, h.sG, h.slcD, h.slcG, h.segD, h.segG, fseg, fstrict]
    rfl
  unfold Dev.effLimits
  rw [hbrown, hscope]

/-! ### What the law reads of the channel -/

/-- What the control law reads of a channel is the same in `c'` as in `c`. -/
structure Chan.Kept (c c' : Chan) : Prop where
  st : c'.st = c.st
  gang : c'.gang = c.gang
  phase : c'.phase = c.phase
  setup : c'.setup = c.setup
  softFirst : c'.softFirst = c.softFirst
  owner : c'.owner = c.owner
  tune : c'.tune = c.tune
  r : c'.r = c.r
  xi : c'.xi = c.xi
  xv : c'.xv = c.xv
  win : c'.win = c.win
  half : c'.half = c.half
  cmd : c'.cmd = c.cmd
  step : c'.run.map (·.d) = c.run.map (·.d)

theorem Chan.Kept.trans {c c' c'' : Chan} (h : Chan.Kept c c') (h' : Chan.Kept c' c'') : Chan.Kept c c'' :=
  ⟨h'.st.trans h.st, h'.gang.trans h.gang, h'.phase.trans h.phase, h'.setup.trans h.setup, h'.softFirst.trans h.softFirst,
    h'.owner.trans h.owner, h'.tune.trans h.tune, h'.r.trans h.r, h'.xi.trans h.xi, h'.xv.trans h.xv, h'.win.trans h.win,
    h'.half.trans h.half, h'.cmd.trans h.cmd, h'.step.trans h.step⟩

/-- A channel in RUN under the constant-current step `x`, led by itself, with a phase and nothing that waits for it. -/
structure Chan.RunsCc (c : Chan) (x : Desc) : Prop where
  st : c.st = .run
  gang : c.gang = none
  phase : c.phase.isSome = true
  setup : c.setup = x
  softFirst : c.softFirst = false
  step : c.run.map (·.d) = some x
  mode : x.mode = 1

theorem Chan.RunsCc.of_kept {c c' : Chan} {x : Desc} (h : c.RunsCc x) (hk : Chan.Kept c c') : c'.RunsCc x :=
  ⟨hk.st.trans h.st, hk.gang.trans h.gang, hk.phase ▸ h.phase, hk.setup.trans h.setup, hk.softFirst.trans h.softFirst,
    hk.step.trans h.step, h.mode⟩

theorem Chan.RunsCc.run {c : Chan} {x : Desc} (h : c.RunsCc x) : ∃ r, c.run = some r ∧ r.d = x := Option.map_eq_some_iff.mp h.step

theorem Desc.not_isGang {x : Desc} (h : x.mode = 1) : x.isGang = false := by
  unfold Desc.isGang
  rw [h]
  rfl

theorem Desc.law_of_not_gang {x : Desc} (h : x.isGang = false) : x.law = ⟨x.mode, x.spA, x.spB, x.spC, x.spD⟩ := if_neg (by rw [h]; decide)

theorem Desc.channels_of_not_gang {x : Desc} (h : x.isGang = false) (k : Fin 16) : x.channels k = [k] := if_neg (by rw [h]; decide)

/-! ### The steps of a computation with nothing to end (R115) -/

section
variable {d : Dev} {v k : Fin 16} (t : Nat)

theorem Dev.orphanRest_of_none (h : (d.chan v k).orphan = none) : d.orphanRest v k t = d := by
  unfold Dev.orphanRest
  rw [h]
  rfl

theorem Dev.endKilled_of_none (h : (d.chan v k).killEnd = none) : d.endKilled v k t = d := by
  unfold Dev.endKilled
  rw [h]

theorem Dev.protect_of_none (h : d.protections v k t = []) : d.protect v k t = (d, false) := by
  unfold Dev.protect
  dsimp only
  rw [h]
  exact ite_self _

theorem Dev.doStops_of_none (h : (d.chan v k).stopReq = []) : d.doStops v k t = d.modChan v k (fun c => { c with stopReq := [] }) := by
  unfold Dev.doStops
  dsimp only
  rw [h]
  rfl

theorem Dev.takePolicy_of_none (h : (d.chan v k).orphan = none) : d.takePolicy v k t = d := by
  unfold Dev.takePolicy
  rw [h]

theorem Dev.doStart_of_running (tb : Nat → Tuning) (h : (d.chan v k).run.isSome = true) : d.doStart tb v k t = d := by
  have hdue : (d.chan v k).startDue t = false := by
    unfold Chan.startDue
    rw [Option.isNone_eq_false_iff.mpr h]
    split <;> rfl
  unfold Dev.doStart
  dsimp only
  rw [hdue]
  rfl

theorem Dev.armTick_of_ne (h : (d.chan v k).st ≠ .arm) : d.armTick v k t = d := if_pos h

theorem Dev.useOuts_self (d : Dev) (v k : Fin 16) {r : Running} (hch : r.d.channels k = [k]) (holds : List Nat) (wait : List Prec) :
    d.useOuts v k r holds wait = d.modChan v k (fun c => { c with outs := [], run := some { r with hold := holds, wait := wait } }) := by
  unfold Dev.useOuts
  rw [hch, List.foldl_cons, List.foldl_nil]
  exact if_pos rfl

/-- A running step no condition ends only takes the outputs it counts. -/
theorem Dev.doEnds_of_none (tb : Nat → Tuning) {r : Running} (hrun : (d.chan v k).run = some r) (horph : (d.chan v k).orphan = none)
    (hlate : r.lateEnd = none) (hch : r.d.channels k = [k]) (hend : endStatus r.d (d.conditions v k r t).1 = none) :
    d.doEnds tb v k t = d.modChan v k (fun c =>
      { c with outs := [], run := some { r with hold := (d.conditions v k r t).2.1, wait := (d.conditions v k r t).2.2 } }) := by
  have hsus : (d.chan v k).suspended = false := by unfold Chan.suspended; rw [horph]
  rw [← d.useOuts_self v k hch]
  unfold Dev.doEnds
  dsimp only
  rw [hrun]
  dsimp only
  rw [hsus, hlate, hend]
  rfl

end

/-! ### End conditions and protections are read off the vat (R114, R115, R158) -/

theorem ecHold_congr {c c' : Chan} (hst : c'.st = c.st) (hv : c'.vHist = c.vHist) (r : Running) (n : Nat) (outs : List Prec) (h : Nat) :
    ecHold c' r n outs h = ecHold c r n outs h := by
  unfold ecHold ecQualifies ecMeets Chan.vBefore
  rw [hst, hv]

theorem Dev.gangOut_self (d : Dev) (v k : Fin 16) (o : Prec) : d.gangOut v k [k] o = some o := by
  unfold Dev.gangOut
  simp

theorem Dev.conditions_congr {d e : Dev} {v k : Fin 16} {r : Running} (t : Nat) (hch : r.d.channels k = [k]) (hm : (e.vats[v]).meas = (d.vats[v]).meas)
    (hst : (e.chan v k).st = (d.chan v k).st) (ho : (e.chan v k).outs = (d.chan v k).outs) (hv : (e.chan v k).vHist = (d.chan v k).vHist) :
    e.conditions v k r t = d.conditions v k r t := by
  have hg : ∀ outs, e.gangOuts v k [k] outs = d.gangOuts v k [k] outs := fun outs => by
    unfold Dev.gangOuts
    simp only [Dev.gangOut_self]
  unfold Dev.conditions Dev.stepTotals
  simp only [hch, hg, ho, hm, ecHold_congr hst hv]

theorem Dev.protections_congr {d e : Dev} (hv : e.vats = d.vats) (hf : ∀ r : RF, r.VatSide → e.f r = d.f r) (v k : Fin 16) (t : Nat) :
    e.protections v k t = d.protections v k t := by
  have fvbus : e.f (Reg.VAT_VBUS_VBUS v.1) = d.f (Reg.VAT_VBUS_VBUS v.1) :=
    hf _ (.of (Nat.le_of_ble_eq_true rfl) (by simp only [Reg.VAT_VBUS_VBUS, Reg.VAT_VBUS_at]; omega))
  have fdesc : e.f (Reg.LANE_DESC_WORD v.1 6) = d.f (Reg.LANE_DESC_WORD v.1 6) :=
    hf _ (.of (Nat.le_of_ble_eq_true rfl) (by simp only [Reg.LANE_DESC_WORD, Reg.LANE_DESC_at]; omega))
  have fmi : e.f (Reg.VAT_MODF_I v.1) = d.f (Reg.VAT_MODF_I v.1) :=
    hf _ (.of (Nat.le_of_ble_eq_true rfl) (by simp only [Reg.VAT_MODF_I, Reg.VAT_MODF_at]; omega))
  have fmv : e.f (Reg.VAT_MODF_V v.1) = d.f (Reg.VAT_MODF_V v.1) :=
    hf _ (.of (Nat.le_of_ble_eq_true rfl) (by simp only [Reg.VAT_MODF_V, Reg.VAT_MODF_at]; omega))
  have fkl : e.f (Reg.LANE_STAT_KLATCH v.1) = d.f (Reg.LANE_STAT_KLATCH v.1) :=
    hf _ (.of (Nat.le_of_ble_eq_true rfl) (by simp only [Reg.LANE_STAT_KLATCH, Reg.LANE_STAT_at]; omega))
  unfold Dev.protections Dev.modf Dev.klatch Dev.boardCond Dev.desc Dev.tb Dev.chan
  rw [hv, fvbus, fdesc, fmi, fmv, fkl]

theorem Dev.modChan_vats_congr {d e : Dev} (h : e.vats = d.vats) (v k : Fin 16) (g : Chan → Chan) :
    (e.modChan v k g).vats = (d.modChan v k g).vats := by
  unfold Dev.modChan Dev.modVat Dev.setVats
  simp only [h]

/-! ### The computation up to the law (R115) -/

theorem Chan.trackStep_kept (c : Chan) : Chan.Kept c c.trackStep := by
  unfold Chan.trackStep
  split <;> constructor <;> rfl

/-- The counter of R114 moves, and nothing else the computation reads. -/
theorem Chan.trackStep_spares (c : Chan) : c.trackStep.run = c.run ∧ c.trackStep.orphan = c.orphan ∧ c.trackStep.killEnd = c.killEnd ∧
    c.trackStep.stopReq = c.stopReq ∧ c.trackStep.outs = c.outs ∧ c.trackStep.vHist = c.vHist := by
  unfold Chan.trackStep
  split <;> exact ⟨rfl, rfl, rfl, rfl, rfl, rfl⟩

/-- Nothing stops, ends or starts the channel's step in the computation of tick `t`. -/
structure Dev.Undisturbed (d : Dev) (v k : Fin 16) (r : Running) (t : Nat) : Prop where
  run : (d.chan v k).run = some r
  single : r.d.isGang = false
  gang : (d.chan v k).gang = none
  armed : (d.chan v k).st ≠ .arm
  killEnd : (d.chan v k).killEnd = none
  stopReq : (d.chan v k).stopReq = []
  orphan : (d.chan v k).orphan = none
  lateEnd : r.lateEnd = none
  protections : (d.modChan v k Chan.trackStep).protections v k t = []
  ends : endStatus r.d (d.conditions v k r t).1 = none

theorem Dev.leadOf_of_none {d : Dev} {v k : Fin 16} (h : (d.chan v k).gang = none) : d.leadOf v k = k := by
  unfold Dev.leadOf
  rw [h]
  rfl

/-- The computation of an undisturbed channel is its law and what is noted after it. -/
theorem Dev.computeAt_undisturbed {d : Dev} {v k : Fin 16} {r : Running} {t : Nat} (h : d.Undisturbed v k r t) (tb : Nat → Tuning) :
    ∃ e, Dev.LawView v k d e ∧ Chan.Kept (d.chan v k) (e.chan v k) ∧ d.computeAt tb v k t = (e.lawLead v k t).closeTickOf v k t := by
  obtain ⟨hrun, hsingle, hgang, harmed, hkill, hstop, horph, hlate, hprot, hend⟩ := h
  obtain ⟨trun, torph, tkill, tstop, touts, tvhist⟩ := (d.chan v k).trackStep_spares
  have hch := Desc.channels_of_not_gang hsingle k
  obtain ⟨d1, hd1⟩ : ∃ d1, d1 = d.modChan v k Chan.trackStep := ⟨_, rfl⟩
  have c1 : d1.chan v k = (d.chan v k).trackStep := by rw [hd1, Dev.chan_modChan_same]
  obtain ⟨d2, hd2⟩ : ∃ d2, d2 = d1.modChan v k (fun c => { c with stopReq := [] }) := ⟨_, rfl⟩
  have c2 : d2.chan v k = { (d.chan v k).trackStep with stopReq := [] } := by rw [hd2, Dev.chan_modChan_same, c1]
  obtain ⟨d3, hd3⟩ : ∃ d3, d3 = d2.recordLost v k 7 t (d.standing v k t) := ⟨_, rfl⟩
  have c3 : ∃ n, d3.chan v k = { (d.chan v k).trackStep with stopReq := [], noted := n } := ⟨_, by rw [hd3, Dev.recordLost, Dev.chan_modChan_same, c2]⟩
  obtain ⟨n, c3⟩ := c3
  have v3 : Dev.LawView v k d d3 := by
    rw [hd3, hd2, hd1]
    exact ((d.modChan_lawView _).trans (Dev.modChan_lawView _ _)).trans (Dev.modChan_lawView _ _)
  have hcond : d3.conditions v k r t = d.conditions v k r t :=
    Dev.conditions_congr t hch v3.meas (by rw [c3]; exact (d.chan v k).trackStep_kept.st) (by rw [c3]; exact touts) (by rw [c3]; exact tvhist)
  have hends := Dev.doEnds_of_none (d := d3) t tb (by rw [c3]; exact trun.trans hrun) (by rw [c3]; exact torph.trans horph) hlate hch
    (by rw [hcond]; exact hend)
  obtain ⟨d4, hd4⟩ : ∃ d4, d4 = d3.doEnds tb v k t := ⟨_, rfl⟩
  have c4 : ∃ r', r'.d = r.d ∧ d4.chan v k = { (d.chan v k).trackStep with stopReq := [], noted := n, outs := [], run := some r' } :=
    ⟨_, ?_, by rw [hd4, hends, Dev.chan_modChan_same, c3]⟩
  · obtain ⟨r', hr', c4⟩ := c4
    have v4 : Dev.LawView v k d d4 := by
      rw [hd4, hends]
      exact v3.trans (Dev.modChan_lawView _ _)
    have kept4 : Chan.Kept (d.chan v k) (d4.chan v k) := by
      refine (d.chan v k).trackStep_kept.trans ?_
      rw [c4]
      exact ⟨rfl, rfl, rfl, rfl, rfl, rfl, rfl, rfl, rfl, rfl, rfl, rfl, rfl, (congrArg some hr').trans (by rw [trun, hrun]; rfl)⟩
    have st4 : (d4.chan v k).st ≠ .arm := kept4.st ▸ harmed
    have gang4 : (d4.chan v k).gang = none := kept4.gang.trans hgang
    refine ⟨(d4.impJoin v k t).impAbort v k t, ?_, ?_, ?_⟩
    · exact (v4.trans (Dev.modPoint_lawView _ _ _)).trans (Dev.modPoint_lawView _ _ _)
    · unfold Dev.impAbort Dev.impJoin
      rw [Dev.chan_modPoint, Dev.chan_modPoint]
      exact kept4
    · have hkilled : d.endKilled v k t = d := Dev.endKilled_of_none t hkill
      have hlead : d.leadOf v k = k := Dev.leadOf_of_none hgang
      have hprotect : d1.protect v k t = (d1, false) :=
        Dev.protect_of_none t (by rw [hd1]; exact hprot)
      have hstops : d1.doStops v k t = d2 := (Dev.doStops_of_none t (by rw [c1]; exact tstop.trans hstop)).trans hd2.symm
      have hpolicy : d2.takePolicy v k t = d2 := Dev.takePolicy_of_none t (by rw [c2]; exact torph.trans horph)
      have hdue : (d1.chan v k).orphanDue t = false := by
        unfold Chan.orphanDue
        rw [c1, torph, horph]
      have hnone : (d1.chan v k).stopReq.isEmpty = true := by rw [c1, tstop, hstop]; rfl
      have hstart : d4.doStart tb v k t = d4 := Dev.doStart_of_running t tb (by rw [c4]; rfl)
      have harm : d4.armTick v k t = d4 := Dev.armTick_of_ne t st4
      have hlead' : ((d4.impJoin v k t).impAbort v k t).leadOf v k = k := Dev.leadOf_of_none (by
        unfold Dev.impAbort Dev.impJoin
        rw [Dev.chan_modPoint, Dev.chan_modPoint]
        exact gang4)
      unfold Dev.computeAt
      simp only [hkilled, hlead, hkill, Option.map_none, Option.isSome_none, Option.getD_none, ← hd1, hprotect, hstops, hpolicy, hdue, hnone,
        Bool.not_true, Bool.or_false, Bool.false_eq_true, if_false, ← hd3, ne_eq, not_true_eq_false, ← hd4, hstart, harm, hlead', true_or,
        if_true]
  · exact rfl

/-! ### The reference (R104, R133) -/

theorem Dev.takePhase_of_some {d : Dev} {v k : Fin 16} (h : (d.chan v k).phase.isSome = true) : d.takePhase v k = d := if_pos h

theorem Dev.pulseTick_kept (d : Dev) (v k : Fin 16) (t : Nat) : Chan.Kept (d.chan v k) ((d.pulseTick v k t).chan v k) := by
  unfold Dev.pulseTick
  rw [Dev.chan_modChan_same]
  refine ⟨rfl, rfl, rfl, rfl, rfl, rfl, rfl, rfl, rfl, rfl, rfl, rfl, rfl, ?_⟩
  dsimp only
  rw [Option.map_map]
  refine congrArg (fun f => Option.map f (d.chan v k).run) (funext fun r => ?_)
  simp only [Function.comp_apply, Running.lateIf]
  split_ifs <;> rfl

theorem Dev.pert_of_none {d : Dev} {v : Fin 16} (h : (d.vats[v]).imp.point = none) (k : Fin 16) (t : Nat) : d.pert v k t = 0 := by
  unfold Dev.pert
  rw [h]

theorem target_of_cc (c : Chan) {l : Law} (hl : l.mode = 1) (lvl : Nat) (u : Tuning) (lo hi : Int) :
    target c l lvl u lo hi = (l.a, c.xv, false) := by
  unfold target
  rw [hl]
  rfl

theorem Dev.contactTick_of_cc (d : Dev) (v : Fin 16) (c : Chan) {run : Running} (h : run.d.mode = 1) (r a : Int) (t : Nat) :
    d.contactTick v c run r a t = none := if_pos (.inl (by rw [h]; decide))

theorem Chan.rate_of_run {c : Chan} (h : c.st = .run) : c.rate = c.setup.slew := by
  unfold Chan.rate
  rw [h]

/-- The reference a constant-current channel in RUN takes: the set-point within the scaled limits, approached by the step's slew. -/
def Dev.ccReference (d : Dev) (v k : Fin 16) (x : Desc) : Int :=
  let c := d.chan v k
  let e := d.effLimits v k x c.tune
  slew c.r (clamp (-e.2) e.1 x.spA) x.slew

theorem Dev.markScaled_kept (d : Dev) (v k : Fin 16) : Chan.Kept (d.chan v k) ((d.markScaled v k).chan v k) := by
  unfold Dev.markScaled
  rw [Dev.chan_modChan_same]
  refine ⟨rfl, rfl, rfl, rfl, rfl, rfl, rfl, rfl, rfl, rfl, rfl, rfl, rfl, ?_⟩
  dsimp only
  rw [Option.map_map]
  rfl

theorem Dev.reference_of_cc {d : Dev} {v k : Fin 16} {x : Desc} (h : (d.chan v k).RunsCc x) (hp : (d.vats[v]).imp.point = none) (t : Nat) :
    Dev.LawView v k d (d.reference v k t) ∧ (∃ c, Chan.Kept { d.chan v k with r := d.ccReference v k x } c ∧ (d.reference v k t).chan v k = c ∧
      c.rg = clamp (-(d.effLimits v k x (d.chan v k).tune).2) (d.effLimits v k x (d.chan v k).tune).1 (d.ccReference v k x)) := by
  obtain ⟨r, hrun, hr⟩ := h.run
  have hlaw : x.law = ⟨1, x.spA, x.spB, x.spC, x.spD⟩ := (Desc.law_of_not_gang (Desc.not_isGang h.mode)).trans (by rw [h.mode])
  have hst : (d.chan v k).st = .run := h.st
  have htarget : ∀ (c : Chan) (lvl : Nat) (u : Tuning) (lo hi : Int), target c ⟨1, x.spA, x.spB, x.spC, x.spD⟩ lvl u lo hi = (x.spA, c.xv, false) :=
    fun c lvl u lo hi => target_of_cc c rfl lvl u lo hi
  have hcontact : ∀ (e : Dev) (n a : Int), e.contactTick v (d.chan v k) r n a t = none := fun e n a =>
    e.contactTick_of_cc v (d.chan v k) (hr ▸ h.mode) n a t
  obtain ⟨m, hm⟩ : ∃ m, m = if d.effLimits v k x (d.chan v k).tune ≠ limits x (d.chan v k).tune then d.markScaled v k else d := ⟨_, rfl⟩
  have hview : Dev.LawView v k d m := by
    rw [hm]
    split
    · exact Dev.modChan_lawView d _
    · exact .refl d
  have hkept : Chan.Kept (d.chan v k) (m.chan v k) := by
    rw [hm]
    split
    · exact d.markScaled_kept v k
    · exact ⟨rfl, rfl, rfl, rfl, rfl, rfl, rfl, rfl, rfl, rfl, rfl, rfl, rfl, rfl⟩
  obtain ⟨e, he⟩ : ∃ e, e = d.reference v k t := ⟨_, rfl⟩
  rw [← he]
  unfold Dev.reference at he
  simp only [hst, h.setup, hlaw, htarget, h.softFirst, hrun, Chan.rate_of_run hst, Dev.pert_of_none hp, Option.bind_some, hcontact, ← hm,
    reduceCtorEq, false_and, if_false, Bool.false_eq_true, Option.isSome_none, Bool.false_and, Running.lateIf, Int.add_zero] at he
  rw [he]
  refine ⟨(hview.trans (Dev.modChan_lawView _ _)).trans (Dev.modPoint_lawView _ _ _), _, ?_, Dev.chan_modPoint _ _ _ _ _ _, ?_⟩
  · rw [Dev.chan_modChan_same]
    refine ⟨hkept.st, hkept.gang, hkept.phase, hkept.setup, h.softFirst.symm, hkept.owner, hkept.tune, rfl, hkept.xi, rfl, hkept.win, hkept.half,
      hkept.cmd, ?_⟩
    refine Eq.trans ?_ hkept.step
    exact Option.map_map _ _ _
  · rw [Dev.chan_modChan_same]
    rfl

/-! ### The command the law sends (R58, R104) -/

section
variable {d : Dev} {v k : Fin 16} (hl : d.laneState v = laneActive) (mode : CmdMode) (duty phase : Nat)
include hl

theorem Dev.send_eq : d.send v k mode duty phase =
    (d.modChan v k (fun c => { c with cmd := { c.cmd with mode := mode, duty := duty, phase := phase } })).sendCmd v k := if_pos hl

theorem Dev.chan_send_same : (d.send v k mode duty phase).chan v k = { d.chan v k with
    cmd := ⟨mode, duty, phase, ((d.chan v k).cmd.seq + 1) % 256⟩
    lastOpen := if mode = .openOut then some (d.tick k) else (d.chan v k).lastOpen } := by
  rw [Dev.send_eq hl]
  unfold Dev.sendCmd Dev.takeSlot
  dsimp only
  rw [Dev.chan_emit, Dev.chan_modLane, Dev.chan_modGuard, Dev.chan_modChan_same, Dev.chan_modChan_same]
  rfl

theorem Dev.chan_send_ne {v' k' : Fin 16} (h : (v', k') ≠ (v, k)) : (d.send v k mode duty phase).chan v' k' = d.chan v' k' := by
  rw [Dev.send_eq hl]
  unfold Dev.sendCmd Dev.takeSlot
  dsimp only
  rw [Dev.chan_emit, Dev.chan_modLane, Dev.chan_modGuard, Dev.chan_modChan_ne _ h, Dev.chan_modChan_ne _ h]

theorem Dev.send_sends : Output.cmd v.1 k.1 mode duty phase (((d.chan v k).cmd.seq + 1) % 256) ∈ (d.send v k mode duty phase).out := by
  rw [Dev.send_eq hl]
  unfold Dev.sendCmd Dev.takeSlot
  dsimp only
  rw [Dev.chan_modChan_same]
  exact List.mem_cons_self

end

/-- What is noted after a computation leaves every channel's loop state and what was sent (R125, R182, R205). -/
theorem Dev.closeTickOf_spares (d : Dev) (v k : Fin 16) (t : Nat) :
    (∃ p h, (d.closeTickOf v k t).chan v k = { d.chan v k with power := p, cvHist := h }) ∧
    (∀ v' k' : Fin 16, (v', k') ≠ (v, k) → (d.closeTickOf v k t).chan v' k' = d.chan v' k') ∧ (d.closeTickOf v k t).out = d.out := by
  unfold Dev.closeTickOf Dev.impCv Dev.logCv
  dsimp only
  refine ⟨?_, fun v' k' hne => ?_, rfl⟩
  · rw [Dev.chan_modPoint, Dev.chan_modChan_same, Dev.chan_modChan_same]
    exact ⟨_, _, rfl⟩
  · rw [Dev.chan_modPoint, Dev.chan_modChan_ne _ hne, Dev.chan_modChan_ne _ hne]

/-- Judging a calibration commit changes measurement states and registers, and no channel (R90). -/
theorem Dev.calPass_spares (d : Dev) (v : Fin 16) (a mask : Nat) (v' k' : Fin 16) :
    (d.calPass v a mask).chan v' k' = d.chan v' k' ∧ Dev.SendsOn d (d.calPass v a mask) := by
  have judge : ∀ (e : Dev) (k : Fin 16) (q : CalReq), (e.calJudge v k q).chan v' k' = e.chan v' k' ∧ Dev.SendsOn e (e.calJudge v k q) := fun e k q => by
    unfold Dev.calJudge
    split
    · exact ⟨(Dev.chan_bump _ _ _ _ _).trans (Dev.chan_modMeas _ _ _ _ _ _), .of_out rfl⟩
    · exact ⟨Dev.chan_log _ _ _ _ _ _ _, Dev.log_sendsOn _ _ _ _ _⟩
  have fold : ∀ (qs : List CalReq) (e : Dev), let g := qs.foldl (fun d q => (maskList (q.mask &&& mask)).foldl (fun d k => d.calJudge v k q) d) e
      g.chan v' k' = e.chan v' k' ∧ Dev.SendsOn e g := fun qs e => by
    refine List.foldlRecOn qs _ (motive := fun g : Dev => g.chan v' k' = e.chan v' k' ∧ Dev.SendsOn e g) ⟨rfl, .refl e⟩ (fun g hg q _ => ?_)
    refine List.foldlRecOn _ _ (motive := fun g : Dev => g.chan v' k' = e.chan v' k' ∧ Dev.SendsOn e g) hg (fun g hg k _ => ?_)
    exact ⟨(judge g k q).1.trans hg.1, hg.2.trans (judge g k q).2⟩
  unfold Dev.calPass
  dsimp only
  have sends : ∀ (e : Dev) (g : Vat → Vat), Dev.SendsOn e (e.modVat v g) := fun _ _ => .of_out rfl
  constructor
  · refine (Dev.chan_modVat _ _ _ _ ?_).trans ((fold _ _).1.trans (Dev.chan_modVat _ _ _ _ ?_))
    · exact fun _ => rfl
    · exact fun _ => rfl
  · exact (sends _ _).trans ((fold _ _).2.trans (sends _ _))

theorem maskList_two_pow_length : ∀ k : Fin 16, (maskList (2 ^ k.1)).length = 1 := by decide

theorem gangShare_one (rg : Int) : gangShare rg 1 true = rg := by
  unfold gangShare
  simp

/-- The law of a constant-current channel in RUN drives toward its reference within the scaled limits (R104). -/
theorem Dev.lawLead_of_cc {d : Dev} {v k : Fin 16} {x : Desc} (h : (d.chan v k).RunsCc x) (hp : (d.vats[v]).imp.point = none) (t : Nat) :
    ∃ e, Dev.LawView v k d e ∧ Chan.Kept { d.chan v k with r := d.ccReference v k x } (e.chan v k) ∧ d.lawLead v k t = e.drive v k
      (clamp (-(d.effLimits v k x (d.chan v k).tune).2) (d.effLimits v k x (d.chan v k).tune).1 (d.ccReference v k x)) := by
  have hpulse : Dev.LawView v k d (d.pulseTick v k t) := Dev.modChan_lawView d _
  have hkept := d.pulseTick_kept v k t
  have hruns := h.of_kept hkept
  have hlim : (d.pulseTick v k t).effLimits v k x ((d.pulseTick v k t).chan v k).tune = d.effLimits v k x (d.chan v k).tune :=
    (hpulse.effLimits hkept.owner x _).trans (by rw [hkept.tune])
  have href : (d.pulseTick v k t).ccReference v k x = d.ccReference v k x := by
    unfold Dev.ccReference
    dsimp only
    rw [hlim, hkept.r]
  obtain ⟨hview, c, hc, hchan, hrg⟩ := Dev.reference_of_cc hruns (hpulse.point hp) t
  rw [href] at hc hrg
  rw [hlim] at hrg
  have hkept' : Chan.Kept { d.chan v k with r := d.ccReference v k x } ((d.pulseTick v k t).reference v k t |>.chan v k) := by
    rw [hchan]
    refine Chan.Kept.trans ?_ hc
    exact ⟨hkept.st, hkept.gang, hkept.phase, hkept.setup, hkept.softFirst, hkept.owner, hkept.tune, rfl, hkept.xi, hkept.xv, hkept.win, hkept.half,
      hkept.cmd, hkept.step⟩
  have hdrives : (d.chan v k).st.drives = true := by rw [h.st]; rfl
  have hramp : ¬(d.chan v k).st = .ramp := by rw [h.st]; decide
  have hmask : ((d.pulseTick v k t).reference v k t).gangMask v k = 2 ^ k.1 := if_neg (by rw [hkept'.gang, h.gang]; decide)
  refine ⟨(d.pulseTick v k t).reference v k t, hpulse.trans hview, hkept', ?_⟩
  unfold Dev.lawLead
  simp only [hdrives, if_true, Dev.takePhase_of_some h.phase, if_neg hramp, Bool.false_eq_true, if_false, hmask, maskList_two_pow_length,
    gangShare_one, hchan, hrg]

/-! ### The whole computation -/

/-- Vat SRAM's corrected error noted, and the tick's computation counted as made (R97, R355). -/
def Dev.computing (d : Dev) (v k : Fin 16) (t : Nat) (ecc : Ecc) : Dev :=
  (if ecc == .corrected then d.corrected (Reg.MEM_VAT_ERR_CE v.1) else d).modChan v k (fun c => { c with done := some t })

theorem Dev.noted_lawView (d : Dev) (v k : Fin 16) (ecc : Ecc) :
    Dev.LawView v k d (if ecc == .corrected then d.corrected (Reg.MEM_VAT_ERR_CE v.1) else d) ∧
    (if ecc == .corrected then d.corrected (Reg.MEM_VAT_ERR_CE v.1) else d).vats = d.vats ∧
    (if ecc == .corrected then d.corrected (Reg.MEM_VAT_ERR_CE v.1) else d).now = d.now := by
  split
  · exact ⟨d.corrected_lawView v.1, Dev.raise_vats _ _ _ _, Dev.raise_now _ _ _ _⟩
  · exact ⟨.refl d, rfl, rfl⟩

theorem Dev.displaced_congr {d e : Dev} {v k : Fin 16} (hlane : (e.vats[v]).lane = (d.vats[v]).lane) (hst : e.laneState v = d.laneState v)
    (hnow : e.now = d.now) (hdis : (e.chan v k).discard = (d.chan v k).discard) (t : Nat) : e.displaced v k t = d.displaced v k t := by
  unfold Dev.displaced Dev.killable Dev.dueKills Dev.lane
  rw [hlane, hst, hnow, hdis]

theorem Dev.compute_of_clear {d : Dev} {v k : Fin 16} {t : Nat} {ecc : Ecc} (tb : Nat → Tuning) (hecc : ecc ≠ .uncorrectable) (hf : d.fenced v = false)
    (horph : (d.chan v k).orphan = none) (hdis : d.displaced v k t = false) :
    d.compute tb v k t true ecc = ((d.computing v k t ecc).computeAt tb v k t).calFinish v k t := by
  obtain ⟨hview, hvats, hnow⟩ := d.noted_lawView v k ecc
  have hchan : (d.computing v k t ecc).chan v k = { d.chan v k with done := some t } := by
    unfold Dev.computing
    rw [Dev.chan_modChan_same, Dev.chan_of_vats hvats]
  have hrest : (d.computing v k t ecc).orphanRest v k t = d.computing v k t ecc := Dev.orphanRest_of_none t (by rw [hchan]; exact horph)
  have hlane : ((d.computing v k t ecc).vats[v]).lane = (d.vats[v]).lane := by
    unfold Dev.computing Dev.modChan
    rw [Dev.vats_modVat_same, hvats]
  have hdis' : (d.computing v k t ecc).displaced v k t = false :=
    (Dev.displaced_congr hlane (hview.f _ (.of (Nat.le_of_ble_eq_true rfl) (by simp only [Reg.LANE_STAT_STATE, Reg.LANE_STAT_at]; omega)))
      hnow (by rw [hchan]) t).trans hdis
  have hunc : (ecc == Ecc.uncorrectable) = false := beq_eq_false_iff_ne.mpr hecc
  unfold Dev.compute
  simp only [hf, hunc, Bool.false_eq_true, if_false, Bool.not_true]
  have hcomp : (if ecc == .corrected then d.corrected (Reg.MEM_VAT_ERR_CE v.1) else d).modChan v k (fun c => { c with done := some t }) =
    d.computing v k t ecc := rfl
  rw [hcomp, hrest, hdis']
  exact if_neg Bool.false_ne_true

/-- What the inner loop forms from a reference (R104), with the arithmetic of the statement. -/
theorem Dev.chan_drive {d : Dev} {v k : Fin 16} (hl : d.laneState v = laneActive) (rp : Int) :
    ((d.drive v k rp).chan v k).r = (d.chan v k).r ∧ ((d.drive v k rp).chan v k).rp = rp ∧ ((d.drive v k rp).chan v k).st = (d.chan v k).st ∧
    ((d.drive v k rp).chan v k).cmd = ⟨.run, (innerLoop (d.chan v k) rp (d.f (Reg.VAT_VBUS_VBUS v.1))).1, (d.chan v k).phase.getD 0,
      ((d.chan v k).cmd.seq + 1) % 256⟩ ∧
    ((d.drive v k rp).chan v k).xi = (innerLoop (d.chan v k) rp (d.f (Reg.VAT_VBUS_VBUS v.1))).2.1 ∧
    Output.cmd v.1 k.1 .run (innerLoop (d.chan v k) rp (d.f (Reg.VAT_VBUS_VBUS v.1))).1 ((d.chan v k).phase.getD 0)
      (((d.chan v k).cmd.seq + 1) % 256) ∈ (d.drive v k rp).out ∧
    ∀ v' k' : Fin 16, (v', k') ≠ (v, k) → (d.drive v k rp).chan v' k' = d.chan v' k' := by
  obtain ⟨g, hg⟩ : ∃ g, d.drive v k rp = (d.modChan v k g).send v k .run (innerLoop (d.chan v k) rp (d.f (Reg.VAT_VBUS_VBUS v.1))).1
      ((d.chan v k).phase.getD 0) ∧ (g (d.chan v k)).r = (d.chan v k).r ∧ (g (d.chan v k)).rp = rp ∧ (g (d.chan v k)).st = (d.chan v k).st ∧
      (g (d.chan v k)).xi = (innerLoop (d.chan v k) rp (d.f (Reg.VAT_VBUS_VBUS v.1))).2.1 ∧ (g (d.chan v k)).cmd = (d.chan v k).cmd :=
    ⟨_, rfl, rfl, rfl, rfl, rfl, rfl⟩
  obtain ⟨hdrive, hr, hrp, hst, hxi, hcmd⟩ := hg
  have hl' : (d.modChan v k g).laneState v = laneActive := hl
  have hsend := Dev.chan_send_same (k := k) hl' .run (innerLoop (d.chan v k) rp (d.f (Reg.VAT_VBUS_VBUS v.1))).1 ((d.chan v k).phase.getD 0)
  have hout := Dev.send_sends (k := k) hl' .run (innerLoop (d.chan v k) rp (d.f (Reg.VAT_VBUS_VBUS v.1))).1 ((d.chan v k).phase.getD 0)
  rw [Dev.chan_modChan_same, hcmd] at hsend hout
  rw [hdrive, hsend]
  exact ⟨hr, hrp, hst, rfl, hxi, hout, fun v' k' hne => (Dev.chan_send_ne hl' _ _ _ hne).trans (Dev.chan_modChan_ne d hne g)⟩

theorem Dev.calFinish_spares (d : Dev) (v k : Fin 16) (t : Nat) (v' k' : Fin 16) :
    (d.calFinish v k t).chan v' k' = d.chan v' k' ∧ Dev.SendsOn d (d.calFinish v k t) := by
  unfold Dev.calFinish
  dsimp only
  split
  · exact d.calPass_spares v _ _ v' k'
  · exact ⟨rfl, .refl d⟩

theorem State.commit_chan (s : State) (d : Dev) (v k : Fin 16) : (s.commit d).dev.chan v k = d.chan v k := Dev.chan_of_vats (s.commit_vats d) v k

/-- The set-up of a computation that finds its channel undisturbed. -/
theorem Dev.computing_undisturbed {d : Dev} {v k : Fin 16} {r : Running} {t : Nat} (ecc : Ecc) (hsingle : r.d.isGang = false)
    (hgang : (d.chan v k).gang = none) (harm : (d.chan v k).st ≠ .arm) (hrun : (d.chan v k).run = some r) (hkill : (d.chan v k).killEnd = none) (hstop : (d.chan v k).stopReq = []) (horph : (d.chan v k).orphan = none)
    (hlate : r.lateEnd = none)
    (hprot : ((d.modChan v k (fun c => { c with done := some t })).modChan v k Chan.trackStep).protections v k t = [])
    (hend : endStatus r.d (d.conditions v k r t).1 = none) :
    (d.computing v k t ecc).Undisturbed v k r t ∧ Dev.LawView v k d (d.computing v k t ecc) ∧
    Chan.Kept (d.chan v k) ((d.computing v k t ecc).chan v k) := by
  obtain ⟨hview, hvats, hnow⟩ := d.noted_lawView v k ecc
  have hchan : (d.computing v k t ecc).chan v k = { d.chan v k with done := some t } := by
    unfold Dev.computing
    rw [Dev.chan_modChan_same, Dev.chan_of_vats hvats]
  have hv : Dev.LawView v k d (d.computing v k t ecc) := hview.trans (Dev.modChan_lawView _ _)
  have hkept : Chan.Kept (d.chan v k) ((d.computing v k t ecc).chan v k) := by
    rw [hchan]
    exact ⟨rfl, rfl, rfl, rfl, rfl, rfl, rfl, rfl, rfl, rfl, rfl, rfl, rfl, rfl⟩
  refine ⟨⟨by rw [hchan]; exact hrun, hsingle, hkept.gang.trans hgang, hkept.st ▸ harm, by rw [hchan]; exact hkill, by rw [hchan]; exact hstop, by rw [hchan]; exact horph,
    hlate, ?_, ?_⟩, hv, hkept⟩
  · refine (Dev.protections_congr (Dev.modChan_vats_congr (Dev.modChan_vats_congr hvats v k _) v k _) (fun r hr => ?_) v k t).trans hprot
    exact hview.f r hr
  · rw [Dev.conditions_congr (d := d) t (Desc.channels_of_not_gang hsingle k) hv.meas (by rw [hchan]) (by rw [hchan])
      (by rw [hchan])]
    exact hend

/-- The inner loop's duty is its quotient within the least and the greatest duty; its integrator stays where the duty is held back on the
error's side (R104). -/
theorem innerLoop_eq (c : Chan) (rp : Int) (vb : Nat) :
    let e := clamp (-(2 ^ 27)) (2 ^ 27) (rp - wrapS 32 (c.win.i + wrapS 32 (shr (wrapS 32 (c.win.i - c.half.i) * c.tune.kx) 24)))
    let xn := clamp (-((c.tune.intLim : Int) * 2 ^ 24)) ((c.tune.intLim : Int) * 2 ^ 24) (c.xi + e * c.tune.ki)
    let dd := roundDiv (c.win.v * 2 ^ 24 + e * c.tune.kp + xn) vb
    let top : Int := (c.tune.dmax : Int) * 256
    let bot : Int := (c.tune.dmin : Int) * 256
    (innerLoop c rp vb).1 = (if top < dd then top else if dd < bot then bot else dd).toNat ∧
    (innerLoop c rp vb).2.1 = if (top < dd ∧ 0 < e) ∨ (¬ top < dd ∧ dd < bot ∧ e < 0) then c.xi else xn := by
  intro e xn dd top bot
  have hunf : innerLoop c rp vb = if top < dd then (top.toNat, if 0 < e then c.xi else xn, true)
    else if dd < bot then (bot.toNat, if e < 0 then c.xi else xn, true) else (dd.toNat, xn, false) := rfl
  rw [hunf]
  by_cases htop : top < dd
  · simp [htop]
  · by_cases hbot : dd < bot <;> simp [htop, hbot]

theorem innerLoop_congr {c c' : Chan} (ht : c'.tune = c.tune) (hw : c'.win = c.win) (hh : c'.half = c.half) (hx : c'.xi = c.xi) (rp : Int) (vb : Nat) :
    innerLoop c' rp vb = innerLoop c rp vb := by
  unfold innerLoop
  rw [ht, hw, hh, hx]

/-- Settles O13: with nothing to stop, end or displace it, the computation is the law's, its reference the slewed and clamped set-point, and
the command its inner loop's. -/
theorem runningChannelFollowsTheControlLaw : Obligations.RunningChannelFollowsTheControlLaw := by
  intro s v k r t0 ecc hlive hecc hf hl hslot hdone hdis hst hrun hmode hsetup hgang hkill hstop horph hsoft hlate hphase hp hprot hend
  have hruns : (s.dev.chan v k).RunsCc r.d := ⟨hst, hgang, hphase, hsetup, hsoft, by rw [hrun]; rfl, hmode⟩
  obtain ⟨hund, hview1, hkept1⟩ := Dev.computing_undisturbed ecc (Desc.not_isGang hmode) hgang (by rw [hst]; decide) hrun hkill hstop horph hlate hprot hend
  obtain ⟨e, hview2, hkept2, hat⟩ := Dev.computeAt_undisturbed hund (s.tuning v)
  have hview := hview1.trans hview2
  have hkept := hkept1.trans hkept2
  obtain ⟨g, hview3, hkept3, hlaw⟩ := Dev.lawLead_of_cc (hruns.of_kept hkept) (hview.point hp) t0
  have hlim : e.effLimits v k r.d (e.chan v k).tune = s.dev.effLimits v k r.d (s.dev.chan v k).tune := by
    rw [hkept.tune]
    exact hview.effLimits hkept.owner _ _
  have href : e.ccReference v k r.d = s.dev.ccReference v k r.d := by
    unfold Dev.ccReference
    dsimp only
    rw [hlim, hkept.r]
  rw [href, hlim] at hlaw
  rw [href] at hkept3
  have hviewg := hview.trans hview3
  have hlg : g.laneState v = laneActive :=
    (hviewg.f _ (.of (Nat.le_of_ble_eq_true rfl) (by simp only [Reg.LANE_STAT_STATE, Reg.LANE_STAT_at]; omega))).trans hl
  have hvb : g.f (Reg.VAT_VBUS_VBUS v.1) = s.dev.f (Reg.VAT_VBUS_VBUS v.1) :=
    hviewg.f _ (.of (Nat.le_of_ble_eq_true rfl) (by simp only [Reg.VAT_VBUS_VBUS, Reg.VAT_VBUS_at]; omega))
  obtain ⟨rp, hrp⟩ : ∃ rp, rp = clamp (-(s.dev.effLimits v k r.d (s.dev.chan v k).tune).2) (s.dev.effLimits v k r.d (s.dev.chan v k).tune).1
    (s.dev.ccReference v k r.d) := ⟨_, rfl⟩
  rw [← hrp] at hlaw
  obtain ⟨hr', hrp', hst', hcmd', hxi', hout', hothers'⟩ := Dev.chan_drive (k := k) hlg rp
  obtain ⟨f, hdrive⟩ : ∃ f, f = g.drive v k rp := ⟨_, rfl⟩
  rw [← hdrive] at hlaw hr' hrp' hst' hcmd' hxi' hout' hothers'
  have hinner : innerLoop (g.chan v k) rp (g.f (Reg.VAT_VBUS_VBUS v.1)) = innerLoop (s.dev.chan v k) rp (s.dev.f (Reg.VAT_VBUS_VBUS v.1)) := by
    rw [hvb]
    exact innerLoop_congr (hkept3.tune.trans hkept.tune) (hkept3.win.trans hkept.win) (hkept3.half.trans hkept.half) (hkept3.xi.trans hkept.xi) _ _
  have hphase' : (g.chan v k).phase = (s.dev.chan v k).phase := hkept3.phase.trans hkept.phase
  have hseq' : (g.chan v k).cmd = (s.dev.chan v k).cmd := hkept3.cmd.trans hkept.cmd
  rw [hinner, hphase', hseq'] at hcmd' hout'
  rw [hinner] at hxi'
  obtain ⟨⟨p, h, hclose⟩, hothersc, houtc⟩ := f.closeTickOf_spares v k t0
  have hexec : exec (.loopComputation v k true ecc) s = s.done ((f.closeTickOf v k t0).calFinish v k t0) := by
    refine congrArg s.done ?_
    rw [hslot]
    dsimp only
    rw [if_neg hdone, Dev.compute_of_clear (s.tuning v) hecc hf horph hdis, hat, hlaw]
  have hchan : ∀ v' k', (s.commit ((f.closeTickOf v k t0).calFinish v k t0)).dev.chan v' k' =
      (f.closeTickOf v k t0).chan v' k' := fun v' k' =>
    (State.commit_chan _ _ _ _).trans (Dev.calFinish_spares _ v k t0 v' k').1
  obtain ⟨hduty, hint⟩ := innerLoop_eq (s.dev.chan v k) rp (s.dev.f (Reg.VAT_VBUS_VBUS v.1))
  rw [hduty] at hcmd' hout'
  rw [hint] at hxi'
  refine .of_done hlive hexec ?_
  dsimp only
  rw [hchan, hclose, hsetup, State.commit_out]
  have href3 := hr'.trans hkept3.r
  rw [hrp] at hcmd' hout' hxi' hrp'
  refine ⟨href3, hrp', hcmd', ?_, hxi', ?_, fun v' k' hne => ?_⟩
  · exact (Dev.calFinish_spares _ v k t0 v k).2.mem (houtc ▸ hout')
  · exact (hst'.trans hkept3.st).trans (hkept.st.trans hst)
  · rw [hchan, hothersc v' k' hne, hothers' v' k' hne, hviewg.others v' k' hne]

end Sys2Proof.Machine
end

section
/-!
PROOF. Rings of a slice (R142-R144): one slice's engine after another changed, the memory write of a DMA engine, and an entry put into a ring.
-/

namespace Sys2Proof.Machine
open Sys2Proof

@[simp] theorem sl_val (i : Fin 64) : sl i.1 = i := Fin.ext (Nat.mod_eq_of_lt i.2)

/-! ### One slice -/

theorem Dev.slices_modSlice (d : Dev) (i j : Fin 64) (g : SliceEng → SliceEng) :
    (d.modSlice i g).slices[j] = if i = j then g d.slices[i] else d.slices[j] := getElem_put _ _ _ _

theorem Dev.slices_modSlice_same (d : Dev) (i : Fin 64) (g : SliceEng → SliceEng) : (d.modSlice i g).slices[i] = g d.slices[i] :=
  getElem_put_same _ _ _

/-- The same with the index as `simp` writes it. -/
@[simp] theorem Dev.slices_modSlice_val (d : Dev) (i : Fin 64) (g : SliceEng → SliceEng) : (d.modSlice i g).slices[i.1] = g d.slices[i.1] :=
  d.slices_modSlice_same i g

theorem Dev.slices_modSlice_ne (d : Dev) {i j : Fin 64} (h : i ≠ j) (g : SliceEng → SliceEng) : (d.modSlice i g).slices[j] = d.slices[j] :=
  getElem_put_ne _ h _

theorem Dev.slices_sl (d : Dev) (i : Fin 64) : d.slices[sl i.1] = d.slices[i] := by simp only [sl_val]

theorem Dev.ringPi_eq (d : Dev) (i : Fin 64) (r : Fin 8) : d.ringPi i.1 r = (d.slices[i]).pi[r] := congrArg (fun e : SliceEng => e.pi[r]) (d.slices_sl i)

/-! ### DMA writes (R142, R212) -/

/-- Without the dirty-page log a DMA engine's write is one posted write at the slice's address. -/
theorem Dev.write_eq {d : Dev} (h : d.bit Reg.DPL_CFG_EN = false) (s loc addr : Nat) (bs : List Byte) :
    d.write s loc addr bs = d.post (d.memKey s loc addr) bs := by
  unfold Dev.write Dev.memKey
  split
  · have hen : (d.post (hostKey loc (d.f (Reg.SLC_PASID_PASID s)) addr) bs).bit Reg.DPL_CFG_EN = false := h
    simp only [hen, Bool.false_and, Bool.false_eq_true, if_false]
  · rfl

/-- A ring that is ready to take an entry has no DMA error to report (R143, R168). -/
theorem Dev.ringCheck_of_ready {d : Dev} {s : Nat} {r : Fin 8} (h : d.ringReady s r = true) : d.ringCheck s r = d := by
  have hpath : d.pathUp s (d.f (Reg.SLC_RING_CFG_LOC s r)) (d.entryAddr s r (d.ringPi s r)) (d.entrySize s r) = true :=
    (Bool.and_eq_true_iff.mp h).2
  have hfails : d.ringFails s r = none := by
    unfold Dev.ringFails
    split
    next hc =>
      obtain ⟨hlocal, -⟩ : d.localRing s r = true ∧ True := by
        simp only [Bool.and_eq_true] at hc
        exact ⟨hc.1.1.1, trivial⟩
      have hloc : d.f (Reg.SLC_RING_CFG_LOC s r) = 2 := beq_iff_eq.mp (Bool.and_eq_true_iff.mp hlocal).2
      have hopen : d.reach 8 s .write (d.entryAddr s r (d.ringPi s r)) (d.entrySize s r) = .opened := by
        unfold Dev.pathUp at hpath
        rw [hloc, if_neg (by decide)] at hpath
        exact beq_iff_eq.mp (Bool.and_eq_true_iff.mp hpath).2
      rw [hopen]
    next => rfl
  unfold Dev.ringCheck
  rw [hfails]

/-- An entry put into a ring (R143): one posted write at the producer index, which moves on by one. -/
structure Dev.PutsEntry (d e : Dev) (i : Fin 64) (r : Fin 8) (bs : List Byte) : Prop where
  regs : e.regs = d.regs
  vats : e.vats = d.vats
  wq : e.wq = d.wq ++ [(d.memKey i.1 (d.f (Reg.SLC_RING_CFG_LOC i.1 r.1)) (d.entryAddr i.1 r.1 (d.ringPi i.1 r)), bs)]
  lost : e.lost = d.lost
  ep : e.ep = d.ep
  pi : e.ringPi i.1 r = (d.ringPi i.1 r + 1) % 2 ^ 32
  slice : ∃ b c, e.slices[i] = { d.slices[i] with pi := put (d.slices[i]).pi r ((d.ringPi i.1 r + 1) % 2 ^ 32), wbDirty := b, sig := c }
  others : ∀ j : Fin 64, j ≠ i → e.slices[j] = d.slices[j]

theorem Dev.ringPut_puts {d : Dev} (h : d.bit Reg.DPL_CFG_EN = false) (i : Fin 64) (r : Fin 8) (bs : List Byte) (c : Option Nat) :
    Dev.PutsEntry d (d.ringPut i.1 r bs c) i r bs := by
  have hput : d.ringPut i.1 r bs c = ((d.post (d.memKey i.1 (d.f (Reg.SLC_RING_CFG_LOC i.1 r.1)) (d.entryAddr i.1 r.1 (d.ringPi i.1 r))) bs).modSlice i
      (fun e => { e with pi := put e.pi r ((d.ringPi i.1 r + 1) % 2 ^ 32) })).signal i.1 c := by
    unfold Dev.ringPut
    dsimp only
    rw [Dev.write_eq h, sl_val]
  have hslice : ∃ b g, (d.ringPut i.1 r bs c).slices[i] =
      { d.slices[i] with pi := put (d.slices[i]).pi r ((d.ringPi i.1 r + 1) % 2 ^ 32), wbDirty := b, sig := g } := by
    rw [hput, Dev.signal, sl_val, Dev.slices_modSlice_same, Dev.slices_modSlice_same]
    exact ⟨_, _, rfl⟩
  refine ⟨by rw [hput]; rfl, by rw [hput]; rfl, by rw [hput]; rfl, by rw [hput]; rfl, by rw [hput]; rfl, ?_, hslice, fun j hj => ?_⟩
  · obtain ⟨b, g, hslice⟩ := hslice
    rw [Dev.ringPi_eq, hslice]
    exact getElem_put_same _ _ _
  · rw [hput, Dev.signal, sl_val, Dev.slices_modSlice_ne _ (Ne.symm hj), Dev.slices_modSlice_ne _ (Ne.symm hj)]
    rfl

/-! ### What a report changes of a slice (R215, R433) -/

/-- From `d` to `e` a slice's engine changes at most in the event sources a frozen slice keeps. -/
def Dev.KeepsSlices (d e : Dev) : Prop := ∀ i : Fin 64, ∃ h, e.slices[i] = { d.slices[i] with heldVec := h }

theorem Dev.KeepsSlices.of_slices {d e : Dev} (h : e.slices = d.slices) : Dev.KeepsSlices d e := fun i => ⟨(d.slices[i]).heldVec, by rw [h]⟩

theorem Dev.KeepsSlices.refl (d : Dev) : Dev.KeepsSlices d d := .of_slices rfl

theorem Dev.KeepsSlices.trans {d e g : Dev} (h : Dev.KeepsSlices d e) (h' : Dev.KeepsSlices e g) : Dev.KeepsSlices d g := fun i => by
  obtain ⟨x, hx⟩ := h i
  obtain ⟨y, hy⟩ := h' i
  exact ⟨y, by rw [hy, hx]⟩

theorem Dev.KeepsSlices.after {d e g : Dev} (h : Dev.KeepsSlices e g) (he : e.slices = d.slices) : Dev.KeepsSlices d g :=
  (Dev.KeepsSlices.of_slices he).trans h

theorem Dev.deliver_keepsSlices (d : Dev) (n : Nat) : Dev.KeepsSlices d (d.deliver n) := by
  unfold Dev.deliver
  dsimp only
  split
  · split
    · exact .of_slices rfl
    · intro i
      rw [Dev.slices_modSlice]
      split
      next h =>
        subst h
        exact ⟨_, rfl⟩
      next => exact ⟨_, rfl⟩
    · exact .refl d
  · exact .refl d

theorem Dev.pend_keepsSlices (d : Dev) (n : Nat) : Dev.KeepsSlices d (d.pend n) := by
  unfold Dev.pend
  dsimp only
  split
  · exact .of_slices rfl
  · split
    · exact (Dev.deliver_keepsSlices _ n).after rfl
    · exact .of_slices rfl

theorem Dev.raise_keepsSlices (d : Dev) (r : RF) (m n : Nat) : Dev.KeepsSlices d (d.raise r m n) := by
  unfold Dev.raise
  dsimp only
  split
  · exact .of_slices rfl
  · exact (Dev.pend_keepsSlices _ n).after rfl

theorem Dev.KeepsSlices.ite {c : Prop} [Decidable c] {d a b : Dev} (ha : Dev.KeepsSlices d a) (hb : Dev.KeepsSlices d b) :
    Dev.KeepsSlices d (if c then a else b) := by
  split <;> assumption

theorem Dev.logOverrun_keepsSlices (d : Dev) (n : Nat) : Dev.KeepsSlices d (d.logOverrun n) :=
  .ite ((Dev.pend_keepsSlices _ 95).after rfl) (.refl d)

theorem Dev.logMark_keepsSlices (d : Dev) (n : Nat) : Dev.KeepsSlices d (d.logMark n) := .ite (Dev.pend_keepsSlices d 94) (.refl d)

theorem Dev.log_keepsSlices (d : Dev) (c s n x : Nat) : Dev.KeepsSlices d (d.log c s n x) :=
  ((Dev.logOverrun_keepsSlices _ _).trans (Dev.logMark_keepsSlices _ _)).after rfl

end Sys2Proof.Machine
end

section
/-!
PROOF. A ledger record and a checkpoint reach memory (R183, R184, R191): the stream's one waiting entry and the checkpoint's slot.
-/

namespace Sys2Proof.Machine
open Sys2Proof

/-! ### The entries that wait for a stream -/

theorem insertSE_perm (e : SEntry) (xs : List SEntry) : (insertSE e xs).Perm (e :: xs) := by
  induction xs with
  | nil => exact .refl _
  | cons x xs ih =>
    unfold insertSE
    split
    · exact .refl _
    · exact (ih.cons x).trans (.swap e x xs)

theorem foldl_insertSE_perm (xs acc : List SEntry) : (xs.foldl (fun acc e => insertSE e acc) acc).Perm (xs ++ acc) := by
  induction xs generalizing acc with
  | nil => exact .refl _
  | cons x xs ih => exact (ih _).trans (((insertSE_perm x acc).append_left xs).trans List.perm_middle)

/-- Whether a buffered entry belongs to stream `x` of slice `s`. -/
def SEntry.inStream (s : Fin 64) (x : Nat) (e : SEntry) : Bool := e.slice == s && e.ring == x

theorem Dev.waiting_perm (d : Dev) (s x : Nat) :
    (d.waiting s x).Perm (d.vats.toList.flatMap (fun v => v.sbuf.filter (SEntry.inStream (sl s) x))) := by
  have fold : ∀ (vs : List Vat) (acc : List SEntry), (vs.foldl (fun acc v =>
      (v.sbuf.filter (SEntry.inStream (sl s) x)).foldl (fun acc e => insertSE e acc) acc) acc).Perm
      (vs.flatMap (fun v => v.sbuf.filter (SEntry.inStream (sl s) x)) ++ acc) := fun vs => by
    induction vs with
    | nil => exact fun acc => .refl _
    | cons v vs ih =>
      intro acc
      refine (ih _).trans ?_
      rw [List.flatMap_cons]
      refine ((foldl_insertSE_perm _ acc).append_left _).trans ?_
      rw [← List.append_assoc]
      exact List.perm_append_comm.append_right acc
  exact (fold d.vats.toList []).trans (by rw [List.append_nil])

/-- The one entry that waits, taken out of the buffers, leaves none waiting. -/
theorem Dev.waiting_unbuffer {d : Dev} {s x : Nat} {e : SEntry} (h : d.waiting s x = [e]) : (d.unbuffer e).waiting s x = [] := by
  have hall : d.vats.toList.flatMap (fun v => v.sbuf.filter (SEntry.inStream (sl s) x)) = [e] :=
    List.perm_singleton.mp ((d.waiting_perm s x).symm.trans (by rw [h]))
  refine List.perm_nil.mp (((d.unbuffer e).waiting_perm s x).trans (.of_eq ?_))
  have hvats : (d.unbuffer e).vats.toList = d.vats.toList.map (fun v => { v with sbuf := v.sbuf.erase e }) := Vector.toList_map
  rw [hvats, List.flatMap_map, List.flatMap_eq_nil_iff]
  intro v hv
  have hsub : (v.sbuf.filter (SEntry.inStream (sl s) x)).Sublist [e] := by
    rw [← hall]
    simpa using (List.singleton_sublist.mpr hv).flatMap (fun v => v.sbuf.filter (SEntry.inStream (sl s) x))
  refine List.filter_eq_nil_iff.mpr (fun y hy hp => ?_)
  obtain rfl : y = e := List.mem_singleton.mp (hsub.subset (List.mem_filter.mpr ⟨List.mem_of_mem_erase hy, hp⟩))
  have hcount : (v.sbuf.filter (SEntry.inStream (sl s) x)).count y ≤ 1 := by
    simpa using hsub.count_le y
  rw [List.count_filter hp] at hcount
  have herase := List.count_pos_iff.mpr hy
  rw [List.count_erase_self] at herase
  omega

theorem Dev.waiting_of_vats {d e : Dev} (h : e.vats = d.vats) (s x : Nat) : e.waiting s x = d.waiting s x := by
  unfold Dev.waiting
  rw [h]

/-! ### The entry is delivered (R183) -/

section
variable {d : Dev} {i : Fin 64} {x : Fin 5} {e : SEntry} (hw : d.waiting i.1 x.1 = [e]) (ho : d.inOrder i.1 x.1 e = true)
  (hr : d.ringReady i.1 (streamRing x.1) = true) (hdpl : d.bit Reg.DPL_CFG_EN = false) (hseal : d.sealing i.1 x.1 = false)
include hw ho hr hdpl hseal

/-- The one entry that waits is put into its ring, and nothing waits after it. -/
theorem Dev.deliver5_puts : Dev.PutsEntry (d.unbuffer e) (d.deliver5 i.1 x.1) i (streamRing x.1) e.bytes ∧ (d.deliver5 i.1 x.1).waiting i.1 x.1 = [] := by
  have hputs := Dev.ringPut_puts (d := d.unbuffer e) hdpl i (streamRing x.1) e.bytes (some (ringCause (streamRing x.1).1))
  obtain ⟨g, hg⟩ : ∃ g, g = (d.unbuffer e).ringPut i.1 (streamRing x.1) e.bytes (some (ringCause (streamRing x.1).1)) := ⟨_, rfl⟩
  rw [← hg] at hputs
  have hseal' : g.sealing i.1 x.1 = false := by
    have hf : ∀ r, g.f r = d.f r := fun r => Dev.f_of_regs hputs.regs r
    unfold Dev.sealing Dev.bit at hseal ⊢
    rw [hf, hf]
    exact hseal
  have hwrite : (d.unbuffer e).writeStream i.1 x.1 e = g := by
    unfold Dev.writeStream
    dsimp only
    rw [← hg, hseal']
    rfl
  have hempty : g.waiting i.1 x.1 = [] := (Dev.waiting_of_vats hputs.vats i.1 x.1).trans (Dev.waiting_unbuffer hw)
  have hlast : ∀ n, g.deliverStream i.1 x.1 n = g := fun n => by
    cases n with
    | zero => rfl
    | succ n =>
      unfold Dev.deliverStream
      rw [hempty]
  have hdeliver : d.deliver5 i.1 x.1 = g := by
    unfold Dev.deliver5
    rw [hw]
    unfold Dev.deliverStream
    rw [hw]
    dsimp only
    rw [ho, Dev.ringCheck_of_ready hr, hr, hwrite, hlast]
    rfl
  rw [hdeliver]
  exact ⟨hputs, hempty⟩

end

theorem Answers.of_streamDeliver {s : State} {i : Fin 64} {x : Fin 5} {e : SEntry} (hs : Clean s) (hl : Live s) (hdpl : s.dev.bit Reg.DPL_CFG_EN = false)
    (hw : s.dev.waiting i.1 x.1 = [e]) (ho : s.dev.inOrder i.1 x.1 e = true) (hr : s.dev.ringReady i.1 (streamRing x.1) = true)
    (hseal : s.dev.sealing i.1 x.1 = false) : Answers (.streamDeliver i x) s (fun t =>
      Stored s t (s.dev.memKey i.1 (s.dev.f (Reg.SLC_RING_CFG_LOC i.1 (streamRing x.1).1))
        (s.dev.entryAddr i.1 (streamRing x.1).1 (s.dev.ringPi i.1 (streamRing x.1)))) e.bytes ∧
      t.dev.ringPi i.1 (streamRing x.1) = (s.dev.ringPi i.1 (streamRing x.1) + 1) % 2 ^ 32 ∧ t.dev.waiting i.1 x.1 = []) := by
  obtain ⟨hputs, hempty⟩ := Dev.deliver5_puts hw ho hr hdpl hseal
  refine .of_done hl rfl ⟨?_, hputs.pi, (Dev.waiting_of_vats (State.commit_vats _ _) _ _).trans hempty⟩
  exact State.commit_stored (hputs.wq.trans (congrArg (· ++ _) hs.1)) (hputs.lost.trans hs.2) hputs.ep

/-! ### A checkpoint is written (R191) -/

/-- A key held no longer may be re-masked: key store and META only (R335, R341). -/
theorem Dev.releaseKey_spares (d : Dev) (h : Option (Nat × Nat)) : Dev.SparesMem d (d.releaseKey h) ∧ (d.releaseKey h).slices = d.slices ∧
    ∀ r : RF, r.lo < 32 → r.addr < 0x20080000 → (d.releaseKey h).f r = d.f r := by
  unfold Dev.releaseKey
  split
  next k gen =>
    have hset : ∀ r : RF, r.lo < 32 → r.addr < 0x20080000 → (d.setMeta k 15 1 0).f r = d.f r := fun r hl ha =>
      d.f_setF_off _ (Nat.le_of_ble_eq_true rfl) hl (by simp only [Reg.MORD_K_META_WORD, Reg.MORD_K_META_at]; omega)
    split
    · dsimp only
      split
      · exact ⟨⟨rfl, rfl, rfl⟩, rfl, hset⟩
      · exact ⟨⟨rfl, rfl, rfl⟩, rfl, hset⟩
    · exact ⟨⟨rfl, rfl, rfl⟩, rfl, fun _ _ _ => rfl⟩
  next => exact ⟨⟨rfl, rfl, rfl⟩, rfl, fun _ _ _ => rfl⟩

/-- What follows a checkpoint's write: the key it consumed is released, an orphan's use reported, the write-back asked for. -/
def Dev.ckptDone (d : Dev) (i : Fin 64) (c : Ckpt) : Dev :=
  (if c.orphan then (d.releaseKey c.hold).mordEvt Reg.MORD_EVT_ORPHAN_USE else d.releaseKey c.hold).signal i.1 (some 7)

theorem Dev.ckptDone_spares (d : Dev) (i : Fin 64) (c : Ckpt) : Dev.SparesMem d (d.ckptDone i c) ∧
    ((d.ckptDone i c).slices[i]).ckpt = (d.slices[i]).ckpt ∧ ∀ r : RF, r.lo < 32 → r.addr < 0x20040000 ∧ 0x20030000 ≤ r.addr → (d.ckptDone i c).f r = d.f r := by
  obtain ⟨hmem, hslices, hf⟩ := d.releaseKey_spares c.hold
  obtain ⟨g, hg⟩ : ∃ g, g = if c.orphan then (d.releaseKey c.hold).mordEvt Reg.MORD_EVT_ORPHAN_USE else d.releaseKey c.hold := ⟨_, rfl⟩
  have hspares : Dev.SparesMem d g ∧ (g.slices[i]).ckpt = (d.slices[i]).ckpt ∧
      ∀ r : RF, r.lo < 32 → r.addr < 0x20040000 ∧ 0x20030000 ≤ r.addr → g.f r = d.f r := by
    have hck : ((d.releaseKey c.hold).slices[i]).ckpt = (d.slices[i]).ckpt := by rw [hslices]
    rw [hg]
    split
    · obtain ⟨h, hh⟩ := (d.releaseKey c.hold).raise_keepsSlices Reg.MORD_EVT_ORPHAN_USE 1 57 i
      refine ⟨hmem.trans (Dev.raise_reports _ _ _ _).sparesMem, ?_, fun r hl ha => ?_⟩
      · rw [Dev.mordEvt, hh]
        exact hck
      · exact (Dev.f_raise_off _ 1 (by decide) hl (by decide) (by omega)
          (by simp only [Reg.MORD_EVT_ORPHAN_USE, Reg.MORD_EVT_at]; omega)).trans (hf r hl (by omega))
    · exact ⟨hmem, hck, fun r hl ha => hf r hl (by omega)⟩
  obtain ⟨hmem', hck', hf'⟩ := hspares
  unfold Dev.ckptDone
  rw [← hg, Dev.signal, sl_val]
  refine ⟨⟨hmem'.wq, hmem'.lost, hmem'.ep⟩, ?_, hf'⟩
  rw [Dev.slices_modSlice_same]
  exact hck'

theorem Dev.ckSign_spares (d : Dev) (c : Ckpt) (body : List Byte) : ∃ n, (d.ckSign c body).2 = d.setFreeN n := by
  unfold Dev.ckSign
  split <;> exact ⟨_, rfl⟩

/-- The signed checkpoint is one posted write at its slot. -/
theorem Dev.writeCkpt_eq {d : Dev} {i : Fin 64} {c : Ckpt} (hdpl : d.bit Reg.DPL_CFG_EN = false) (hc : (d.slices[i]).ckpt = some c)
    (hpath : d.pathUp i.1 (d.f (Reg.LDG_CFG_LOC i.1)) (d.f64 (Reg.LDG_CK_BASE_LO_ADDR i.1) (Reg.LDG_CK_BASE_HI_ADDR i.1) + c.slot * 0x5000)
      (0x260 + 64 * c.rows.length) = true) (hrows : c.rows.all (fun r => r.2.2.2.isSome || d.cutReady r.1) = true) :
    ∃ n sig h, d.writeCkpt i.1 = ((((d.setFreeN n).post (d.memKey i.1 (d.f (Reg.LDG_CFG_LOC i.1))
      (d.f64 (Reg.LDG_CK_BASE_LO_ADDR i.1) (Reg.LDG_CK_BASE_HI_ADDR i.1) + c.slot * 0x5000)) (d.ckBody c ++ sig)).wrap (Reg.LDG_CK_PI_PI i.1)).modSlice i
        (fun e => { e with ckpt := none, prevHash := h })).ckptDone i c := by
  obtain ⟨n, hn⟩ := d.ckSign_spares c (d.ckBody c)
  refine ⟨n, (d.ckSign c (d.ckBody c)).1, Config.sha384 (d.ckBody c ++ (d.ckSign c (d.ckBody c)).1), ?_⟩
  unfold Dev.writeCkpt
  rw [Dev.slices_sl, hc]
  dsimp only
  rw [hrows, hpath, hn, Dev.write_eq (d := d.setFreeN n) hdpl, sl_val]
  rfl

theorem Answers.of_checkpointWrite {s : State} {i : Fin 64} {c : Ckpt} (hs : Clean s) (hl : Live s) (hdpl : s.dev.bit Reg.DPL_CFG_EN = false)
    (hc : (s.dev.slices[i]).ckpt = some c)
    (hpath : s.dev.pathUp i.1 (s.dev.f (Reg.LDG_CFG_LOC i.1)) (s.dev.f64 (Reg.LDG_CK_BASE_LO_ADDR i.1) (Reg.LDG_CK_BASE_HI_ADDR i.1) + c.slot * 0x5000)
      (0x260 + 64 * c.rows.length) = true) (hrows : c.rows.all (fun r => r.2.2.2.isSome || s.dev.cutReady r.1) = true) :
    Answers (.checkpointWrite i) s (fun t =>
      (∃ sig, Stored s t (s.dev.memKey i.1 (s.dev.f (Reg.LDG_CFG_LOC i.1))
        (s.dev.f64 (Reg.LDG_CK_BASE_LO_ADDR i.1) (Reg.LDG_CK_BASE_HI_ADDR i.1) + c.slot * 0x5000)) (s.dev.ckBody c ++ sig)) ∧
      t.dev.f (Reg.LDG_CK_PI_PI i.1) = (s.dev.f (Reg.LDG_CK_PI_PI i.1) + 1) % 2 ^ 32 ∧ (t.dev.slices[i]).ckpt = none) := by
  obtain ⟨n, sig, h, heq⟩ := Dev.writeCkpt_eq hdpl hc hpath hrows
  refine .of_done hl (congrArg s.done heq) ?_
  obtain ⟨hmem, hck, hf⟩ := Dev.ckptDone_spares ((((s.dev.setFreeN n).post (s.dev.memKey i.1 (s.dev.f (Reg.LDG_CFG_LOC i.1))
      (s.dev.f64 (Reg.LDG_CK_BASE_LO_ADDR i.1) (Reg.LDG_CK_BASE_HI_ADDR i.1) + c.slot * 0x5000)) (s.dev.ckBody c ++ sig)).wrap (Reg.LDG_CK_PI_PI i.1)).modSlice i
        (fun e => { e with ckpt := none, prevHash := h })) i c
  refine ⟨⟨sig, State.commit_stored (hmem.wq.trans (congrArg (· ++ _) hs.1)) (hmem.lost.trans hs.2) hmem.ep⟩, ?_, ?_⟩
  · rw [State.commit_f, hf _ (Nat.le_of_ble_eq_true rfl) (by simp only [Reg.LDG_CK_PI_PI, Reg.LDG_CK_PI_at]; omega)]
    exact Dev.f_setF_same _ _ _
  · rw [State.commit_slices, hck, Dev.slices_modSlice_same]

/-- Settles O24: each is one posted write at the ring's entry or the checkpoint's slot, and the index beside it moves on. -/
theorem ledgerRecordsReachMemory : Obligations.LedgerRecordsReachMemory :=
  ⟨fun _ _ _ _ hs hl => .of_streamDeliver hs hl, fun _ _ _ hs hl hdpl hc hpath hrows => .of_checkpointWrite hs hl hdpl hc hpath hrows⟩

end Sys2Proof.Machine
end

section
/-!
PROOF. Event records (R168): what they leave of the registers and of the slices, and a change made to every channel in turn.
-/

namespace Sys2Proof.Machine
open Sys2Proof

/-! ### A change of one cell after another -/

/-- Steps that each change their own cell of what `rd` reads, by `G`, change every cell of the list once. -/
theorem foldl_cell {σ α β : Type} [DecidableEq α] {I : σ → Prop} {F : σ → α → σ} {rd : σ → α → β} {G : α → β → β}
    (hI : ∀ d a, I d → I (F d a)) (hsame : ∀ d a, I d → rd (F d a) a = G a (rd d a)) (hne : ∀ d a b, I d → b ≠ a → rd (F d a) b = rd d b)
    (a : α) : ∀ l : List α, l.Nodup → ∀ d, I d → rd (l.foldl F d) a = if a ∈ l then G a (rd d a) else rd d a
  | [], _, d, _ => by rw [List.foldl_nil, if_neg (List.not_mem_nil)]
  | x :: l, hn, d, hd => by
    obtain ⟨hx, hn⟩ := List.nodup_cons.mp hn
    rw [List.foldl_cons, foldl_cell hI hsame hne a l hn _ (hI d x hd)]
    by_cases hax : a = x
    · subst hax
      rw [if_neg hx, if_pos (List.mem_cons_self), hsame d a hd]
    · simp only [hne d x a hd hax, List.mem_cons, hax, false_or]

/-- The same change made to every channel of the device. -/
theorem Dev.chan_eachVat {I : Dev → Prop} {F : Dev → Fin 16 → Fin 16 → Dev} {G : Fin 16 → Fin 16 → Chan → Chan} (hI : ∀ d v k, I d → I (F d v k))
    (hsame : ∀ d v k, I d → (F d v k).chan v k = G v k (d.chan v k))
    (hne : ∀ d v k v' k', I d → (v', k') ≠ (v, k) → (F d v k).chan v' k' = d.chan v' k') {d : Dev} (hd : I d) (v k : Fin 16) :
    ((List.finRange 16).foldl (fun d v => d.eachChan (fun d k => F d v k)) d).chan v k = G v k (d.chan v k) := by
  have hrowI : ∀ (d : Dev) (v : Fin 16), I d → I (d.eachChan (fun d k => F d v k)) := fun d v hd =>
    List.foldlRecOn (List.finRange 16) (fun d k => F d v k) (motive := I) hd (fun e he k _ => hI e v k he)
  have hrow : ∀ (d : Dev) (v v' k' : Fin 16), I d →
      (d.eachChan (fun d k => F d v k)).chan v' k' = if v' = v then G v k' (d.chan v k') else d.chan v' k' := by
    intro d v v' k' hd
    split
    next h =>
      subst h
      have hcell := foldl_cell (rd := fun (d : Dev) k => d.chan v' k) (G := G v') (fun d k => hI d v' k) (fun d k h => hsame d v' k h)
        (fun d k k' h hk => hne d v' k v' k' h (fun he => hk (congrArg Prod.snd he))) k' (List.finRange 16) (List.nodup_finRange 16) d hd
      exact hcell.trans (if_pos (List.mem_finRange k'))
    next h =>
      refine (List.foldlRecOn (List.finRange 16) (fun d k => F d v k) (motive := fun e => I e ∧ e.chan v' k' = d.chan v' k') ⟨hd, rfl⟩ ?_).2
      exact fun e he k _ => ⟨hI e v k he.1, (hne e v k v' k' he.1 (fun hc => h (congrArg Prod.fst hc))).trans he.2⟩
  have hcell := foldl_cell (rd := fun (d : Dev) v k => d.chan v k) (G := fun v row k => G v k (row k)) hrowI
    (fun d v hd => funext fun k => (hrow d v v k hd).trans (if_pos rfl))
    (fun d v v' hd hv => funext fun k => (hrow d v v' k hd).trans (if_neg hv)) v (List.finRange 16) (List.nodup_finRange 16) d hd
  exact congrFun (hcell.trans (if_pos (List.mem_finRange v))) k

/-! ### Registers an event record leaves alone -/

/-- A field no event record of slice `s` writes: outside the event block, the region checkers, the dirty-page log's registers, EVT_FULL
and DMA_ERR of the slice's rings and their loss count. -/
def RF.OffEvents (s : Nat) (r : RF) : Prop :=
  r.lo < 32 ∧ (r.addr < 0x20004000 ∨ (0x20004800 ≤ r.addr ∧ r.addr < 0x20090000) ∨ 0x20098000 ≤ r.addr) ∧ r.addr ≠ Reg.SLICE_EVT_at ∧
    r.addr ≠ Reg.DPL_PI_at ∧ r.addr ≠ Reg.DPL_STAT_at ∧ ¬(r.addr = Reg.SLC_RING_STAT_at s ∧ (r.lo = 2 ∨ r.lo = 4)) ∧ r.addr ≠ Reg.SLC_EVT_LOST_at s

theorem RF.OffEvents.outside {s : Nat} {r : RF} (h : r.OffEvents s) : r.addr < 0x20004000 ∨ 0x20004800 ≤ r.addr := by
  obtain ⟨-, ha, -⟩ := h
  omega

section
variable {s : Nat}

theorem Dev.keeps_setF_event (d : Dev) {r : RF} (x : Nat) (hl : r.lo < 32) (h : r.addr = Reg.SLICE_EVT_at ∨ r.addr = Reg.DPL_PI_at ∨
    r.addr = Reg.DPL_STAT_at ∨ (r.addr = Reg.SLC_RING_STAT_at s ∧ (r.lo = 2 ∨ r.lo = 4)) ∨ r.addr = Reg.SLC_EVT_LOST_at s ∨
    (0x20090000 ≤ r.addr ∧ r.addr < 0x20098000)) : Dev.Keeps (RF.OffEvents s) d (d.setF r x) := by
  intro r' ⟨hl', ha, h1, h2, h3, h4, h5⟩
  refine d.f_setF_off x hl hl' fun ⟨he, hlo⟩ => ?_
  rw [he] at ha h1 h2 h3 h4 h5
  rw [hlo] at h4
  obtain h | h | h | h | h | h := h
  · exact h1 h
  · exact h2 h
  · exact h3 h
  · exact h4 h
  · exact h5 h
  · omega

theorem Dev.keeps_pend (d : Dev) {i : Nat} (hi : i < 4096) : Dev.Keeps (RF.OffEvents s) d (d.pend i) :=
  fun _ h => d.f_pend_off hi h.1 h.outside

theorem Dev.keeps_log (d : Dev) (c so i x : Nat) : Dev.Keeps (RF.OffEvents s) d (d.log c so i x) :=
  fun _ h => d.f_log_off c so i x h.1 h.outside

theorem Dev.keeps_badAccess (d : Dev) (src : Src) (w : Bool) (a : Nat) : Dev.Keeps (RF.OffEvents s) d (d.badAccess src w a) :=
  (Dev.keeps_log (d.setResp ⟨0, true⟩) _ _ _ _).trans (Dev.keeps_pend _ (by decide))

theorem Dev.keeps_deny (d : Dev) {t : Nat} (ht : t < 17) (src : Src) (kind : AccessKind) (a : Nat) :
    Dev.Keeps (RF.OffEvents s) d (d.deny t src kind a) := by
  have rc : ∀ (e : Dev) (r : RF) (x : Nat), r.lo < 32 → 0x20090000 ≤ r.addr ∧ r.addr < 0x20098000 → Dev.Keeps (RF.OffEvents s) e (e.setF r x) :=
    fun e r x hl h => Dev.keeps_setF_event e x hl (.inr (.inr (.inr (.inr (.inr h)))))
  have hcnt : 0x20090000 ≤ (Reg.RC_DENY_COUNT t).addr ∧ (Reg.RC_DENY_COUNT t).addr < 0x20098000 := by
    simp only [Reg.RC_DENY_COUNT, Reg.RC_DENY_at]; omega
  have hadr : 0x20090000 ≤ (Reg.RC_LAST_ADDR_PAGE t).addr ∧ (Reg.RC_LAST_ADDR_PAGE t).addr < 0x20098000 := by
    simp only [Reg.RC_LAST_ADDR_PAGE, Reg.RC_LAST_ADDR_at]; omega
  have hsrc : ∀ r : RF, r.addr = Reg.RC_LAST_SRC_at t → 0x20090000 ≤ r.addr ∧ r.addr < 0x20098000 := fun r hr => by
    rw [hr]; simp only [Reg.RC_LAST_SRC_at]; omega
  have answered : Dev.Keeps (RF.OffEvents s) d (d.setResp ⟨0, true⟩) := .of_regs rfl
  unfold Dev.deny
  dsimp only
  simp only [Dev.setB_eq, Dev.bump_eq]
  refine Dev.Keeps.trans (Dev.Keeps.trans ?_ (Dev.keeps_log _ _ _ _ _)) (Dev.keeps_pend _ (by decide))
  refine Dev.Keeps.trans ?_ (rc _ (Reg.RC_LAST_SRC_SLICE t) _ (Nat.le_of_ble_eq_true rfl) (hsrc _ rfl))
  refine Dev.Keeps.trans ?_ (rc _ (Reg.RC_LAST_SRC_EXEC t) _ (Nat.le_of_ble_eq_true rfl) (hsrc _ rfl))
  refine Dev.Keeps.trans ?_ (rc _ (Reg.RC_LAST_SRC_WRITE t) _ (Nat.le_of_ble_eq_true rfl) (hsrc _ rfl))
  refine Dev.Keeps.trans ?_ (rc _ (Reg.RC_LAST_SRC_SECURE t) _ (Nat.le_of_ble_eq_true rfl) (hsrc _ rfl))
  refine Dev.Keeps.trans ?_ (rc _ (Reg.RC_LAST_SRC_MASTER t) _ (Nat.le_of_ble_eq_true rfl) (hsrc _ rfl))
  refine Dev.Keeps.trans ?_ (rc _ (Reg.RC_LAST_ADDR_PAGE t) _ (Nat.le_of_ble_eq_true rfl) hadr)
  exact answered.trans (rc _ (Reg.RC_DENY_COUNT t) _ (Nat.le_of_ble_eq_true rfl) hcnt)

theorem Dev.Keeps.setResp {P : RF → Prop} {d e : Dev} (h : Dev.Keeps P d e) (x : Resp) : Dev.Keeps P d (e.setResp x) := h

theorem Dev.keeps_engineFail (d : Dev) (m : Fin 16) (kind : AccessKind) (a n : Nat) : Dev.Keeps (RF.OffEvents s) d (d.engineFail m n kind a) := by
  unfold Dev.engineFail
  dsimp only
  refine Dev.Keeps.setResp ?_ _
  split
  next t ht => exact .ite (Dev.keeps_badAccess d _ _ _) (Dev.keeps_deny d (checkerOf_lt ht) _ _ _)
  next => exact Dev.keeps_badAccess d _ _ _

theorem Dev.keeps_dirtyPage (d : Dev) (n port pfn : Nat) : Dev.Keeps (RF.OffEvents s) d (d.dirtyPage n port pfn) := by
  unfold Dev.dirtyPage
  dsimp only
  refine .ite (.refl d) (.ite ?_ ?_)
  · have hset : Dev.Keeps (RF.OffEvents s) d ((d.note Reg.DPL_STAT_OVF 1).setF Reg.DPL_STAT_OVF 1) :=
      Dev.keeps_setF_event (d.note Reg.DPL_STAT_OVF 1) 1 (by decide) (.inr (.inr (.inl rfl)))
    refine hset.trans ?_
    unfold Dev.raise
    dsimp only
    refine .ite (.of_regs rfl) ?_
    exact (Dev.keeps_setF_event (Dev.note _ _ _) _ (by decide) (.inl rfl)).trans (Dev.keeps_pend _ (by decide))
  · exact (Dev.keeps_setF_event (Dev.post (d.modSlice _ _) _ _) _ (by decide) (.inr (.inl rfl))).trans (Dev.keeps_pend _ (by decide))

theorem Dev.keeps_write (d : Dev) (n loc a : Nat) (bs : List Byte) : Dev.Keeps (RF.OffEvents s) d (d.write n loc a bs) := by
  unfold Dev.write
  dsimp only
  have hpost : ∀ k, Dev.Keeps (RF.OffEvents s) d (d.post k bs) := fun k => .of_regs rfl
  exact .ite (.ite ((hpost _).trans (Dev.Keeps.foldl _ (fun d i _ => Dev.keeps_dirtyPage d n loc _) _)) (hpost _)) (hpost _)

theorem Dev.keeps_ringPut (d : Dev) (n : Nat) (r : Fin 8) (bs : List Byte) (c : Option Nat) : Dev.Keeps (RF.OffEvents s) d (d.ringPut n r bs c) :=
  (Dev.keeps_write d n _ _ bs).trans (.of_regs rfl)

theorem Dev.keeps_stopRing (d : Dev) (r : Fin 8) (kind : AccessKind) (a : Nat) : Dev.Keeps (RF.OffEvents s) d (d.stopRing s r kind a) :=
  (Dev.keeps_engineFail d 8 kind a s).trans
    (Dev.keeps_setF_event (r := Reg.SLC_RING_STAT_DMA_ERR s) _ _ (Nat.le_of_ble_eq_true rfl) (.inr (.inr (.inr (.inl ⟨rfl, .inr rfl⟩)))))

theorem Dev.keeps_evtCheck (d : Dev) : Dev.Keeps (RF.OffEvents s) d (d.evtCheck s) := by
  unfold Dev.evtCheck
  split
  · exact Dev.keeps_stopRing d 2 _ _
  · exact .refl d

theorem Dev.keeps_evtFull (d : Dev) : Dev.Keeps (RF.OffEvents s) d (d.evtFull s) :=
  Dev.keeps_setF_event (r := Reg.SLC_RING_STAT_EVT_FULL s) d _ (Nat.le_of_ble_eq_true rfl)
    (.inr (.inr (.inr (.inl ⟨rfl, .inl rfl⟩))))

theorem Dev.keeps_evtLost (d : Dev) : Dev.Keeps (RF.OffEvents s) d (d.evtLost s) := by
  have checked : Dev.Keeps (RF.OffEvents s) d (if (d.slices[sl s]).evtLostRun ≠ 0 then d.evtCheck s else d) :=
    .ite (Dev.keeps_evtCheck d) (.refl d)
  have unrun : ∀ e : Dev, Dev.Keeps (RF.OffEvents s) e (e.modSlice (sl s) (fun e => { e with evtLostRun := 0 })) := fun e => .of_regs rfl
  unfold Dev.evtLost
  dsimp only
  refine .ite (Dev.Keeps.trans (Dev.Keeps.trans (Dev.Keeps.trans checked (Dev.keeps_ringPut _ s 2 _ _)) (unrun _)) (Dev.keeps_evtFull _)) checked

theorem Dev.keeps_loseEvent (d : Dev) : Dev.Keeps (RF.OffEvents s) d (d.loseEvent s) :=
  (Dev.keeps_setF_event (r := Reg.SLC_EVT_LOST_COUNT s) d _ (Nat.le_of_ble_eq_true rfl) (.inr (.inr (.inr (.inr (.inl rfl)))))).trans
    (.of_regs rfl)

/-- An event record of slice `s` writes the event block, the checkers' records, the dirty-page log and the slice's ring status only. -/
theorem Dev.keeps_eventAt (d : Dev) (ty : Nat) (ch : Option Nat) (info data ts : Nat) :
    Dev.Keeps (RF.OffEvents s) d (d.eventAt s ty ch info data ts) := by
  have checked : Dev.Keeps (RF.OffEvents s) d ((d.evtLost s).evtCheck s) := (Dev.keeps_evtLost d).trans (Dev.keeps_evtCheck _)
  exact (checked.trans (.ite (Dev.keeps_ringPut _ s 2 _ _) (Dev.keeps_loseEvent _))).trans (Dev.keeps_evtFull _)

end

/-! ### What an event record leaves of the slices -/

/-- A slice's engine without what reports and event records change: the event ring's producer index, the write-back's and the log's notes. -/
def SliceEng.still (e : SliceEng) : SliceEng :=
  { e with pi := put e.pi 2 0, wbDirty := false, sig := [], evtLostRun := 0, pages := [], heldVec := [] }

theorem put_put {α : Type} {n : Nat} (xs : Vector α n) (i : Fin n) (x y : α) : put (put xs i x) i y = put xs i y := Vector.set_set ..

/-- From `d` to `e` the slices' engines change at most in what event records change. -/
def Dev.StillSlices (d e : Dev) : Prop := ∀ i : Fin 64, (e.slices[i]).still = (d.slices[i]).still

theorem Dev.StillSlices.refl (d : Dev) : Dev.StillSlices d d := fun _ => rfl

theorem Dev.StillSlices.of_slices {d e : Dev} (h : e.slices = d.slices) : Dev.StillSlices d e := fun i => by rw [h]

theorem Dev.StillSlices.trans {d e g : Dev} (h : Dev.StillSlices d e) (h' : Dev.StillSlices e g) : Dev.StillSlices d g :=
  fun i => (h' i).trans (h i)

theorem Dev.StillSlices.ite {c : Prop} [Decidable c] {d a b : Dev} (ha : Dev.StillSlices d a) (hb : Dev.StillSlices d b) :
    Dev.StillSlices d (if c then a else b) := by
  split <;> assumption

theorem Dev.StillSlices.of_keeps {d e : Dev} (h : Dev.KeepsSlices d e) : Dev.StillSlices d e := fun i => by
  obtain ⟨x, hx⟩ := h i
  rw [hx]
  rfl

theorem Dev.StillSlices.setResp {d e : Dev} (h : Dev.StillSlices d e) (x : Resp) : Dev.StillSlices d (e.setResp x) := h

theorem Dev.StillSlices.setF {d e : Dev} (h : Dev.StillSlices d e) (r : RF) (x : Nat) : Dev.StillSlices d (e.setF r x) := h

/-- A change of a slice's engine in what event records change. -/
theorem Dev.still_modSlice (d : Dev) (i : Fin 64) {g : SliceEng → SliceEng} (h : ∀ x, (g x).still = x.still) :
    Dev.StillSlices d (d.modSlice i g) := fun j => by
  rw [Dev.slices_modSlice]
  split
  next hij =>
    subst hij
    exact h _
  next => rfl

theorem Dev.still_pend (d : Dev) (n : Nat) : Dev.StillSlices d (d.pend n) := .of_keeps (d.pend_keepsSlices n)

theorem Dev.still_log (d : Dev) (c s n x : Nat) : Dev.StillSlices d (d.log c s n x) := .of_keeps (d.log_keepsSlices c s n x)

theorem Dev.still_badAccess (d : Dev) (src : Src) (w : Bool) (a : Nat) : Dev.StillSlices d (d.badAccess src w a) :=
  (Dev.still_log (d.setResp ⟨0, true⟩) _ _ _ _).trans (Dev.still_pend _ _)

theorem Dev.still_deny (d : Dev) (t : Nat) (src : Src) (kind : AccessKind) (a : Nat) : Dev.StillSlices d (d.deny t src kind a) := by
  unfold Dev.deny
  simp only [Dev.setB_eq, Dev.bump_eq]
  refine Dev.StillSlices.trans (Dev.StillSlices.trans ?_ (Dev.still_log _ _ _ _ _)) (Dev.still_pend _ _)
  exact ((((((Dev.StillSlices.of_slices (d := d) (e := d.setResp ⟨0, true⟩) rfl).setF _ _).setF _ _).setF _ _).setF _ _).setF _ _).setF _ _ |>.setF _ _

theorem Dev.still_engineFail (d : Dev) (m : Fin 16) (s : Nat) (kind : AccessKind) (a : Nat) : Dev.StillSlices d (d.engineFail m s kind a) := by
  unfold Dev.engineFail
  dsimp only
  refine Dev.StillSlices.setResp ?_ _
  split
  · exact .ite (Dev.still_badAccess d _ _ _) (Dev.still_deny d _ _ _ _)
  · exact Dev.still_badAccess d _ _ _

theorem Dev.still_raise (d : Dev) (r : RF) (m n : Nat) : Dev.StillSlices d (d.raise r m n) := .of_keeps (d.raise_keepsSlices r m n)

theorem Dev.still_dirtyPage (d : Dev) (s port pfn : Nat) : Dev.StillSlices d (d.dirtyPage s port pfn) := by
  unfold Dev.dirtyPage
  dsimp only
  refine .ite (.refl d) (.ite ((Dev.StillSlices.of_slices rfl).trans (Dev.still_raise _ _ _ _)) ?_)
  refine Dev.StillSlices.trans (Dev.StillSlices.trans (Dev.still_modSlice d (sl s) (g := fun e => { e with pages := ((port, pfn) :: e.pages).take 8 })
    fun _ => rfl) (.of_slices rfl)) (Dev.still_pend _ _)

theorem Dev.still_write (d : Dev) (s loc a : Nat) (bs : List Byte) : Dev.StillSlices d (d.write s loc a bs) := by
  unfold Dev.write
  dsimp only
  have hpost : ∀ k, Dev.StillSlices d (d.post k bs) := fun k => .of_slices rfl
  refine .ite (.ite ?_ (hpost _)) (hpost _)
  exact List.foldlRecOn _ _ (motive := Dev.StillSlices d) (hpost _) (fun e he i _ => he.trans (Dev.still_dirtyPage e s loc _))

/-- An entry put into the event ring. -/
theorem Dev.still_ringPut (d : Dev) (s : Nat) (bs : List Byte) (c : Option Nat) : Dev.StillSlices d (d.ringPut s 2 bs c) := by
  have hpi : ∀ (e : Dev) (x : Nat), Dev.StillSlices e (e.modSlice (sl s) (fun e => { e with pi := put e.pi 2 x })) := fun e x =>
    Dev.still_modSlice e (sl s) fun y => by
      unfold SliceEng.still
      exact congrArg (fun p => { y with pi := p, wbDirty := false, sig := [], evtLostRun := 0, pages := [], heldVec := [] }) (put_put y.pi 2 x 0)
  exact ((Dev.still_write d s _ _ bs).trans (hpi _ _)).trans (Dev.still_modSlice _ _ fun _ => rfl)

theorem Dev.still_evtCheck (d : Dev) (s : Nat) : Dev.StillSlices d (d.evtCheck s) := by
  unfold Dev.evtCheck
  split
  · exact (Dev.still_engineFail d 8 s _ _).setF _ _
  · exact .refl d

theorem Dev.still_evtLost (d : Dev) (s : Nat) : Dev.StillSlices d (d.evtLost s) := by
  have checked : Dev.StillSlices d (if (d.slices[sl s]).evtLostRun ≠ 0 then d.evtCheck s else d) := .ite (Dev.still_evtCheck d s) (.refl d)
  have unrun : ∀ e : Dev, Dev.StillSlices e (e.modSlice (sl s) (fun e => { e with evtLostRun := 0 })) := fun e =>
    Dev.still_modSlice e _ fun _ => rfl
  unfold Dev.evtLost
  dsimp only
  exact .ite (((checked.trans (Dev.still_ringPut _ s _ _)).trans (unrun _)).setF _ _) checked

theorem Dev.still_loseEvent (d : Dev) (s : Nat) : Dev.StillSlices d (d.loseEvent s) :=
  Dev.still_modSlice (d.bump (Reg.SLC_EVT_LOST_COUNT s)) (sl s) (fun _ => rfl)

theorem Dev.still_eventAt (d : Dev) (s ty : Nat) (ch : Option Nat) (info data ts : Nat) :
    Dev.StillSlices d (d.eventAt s ty ch info data ts) := by
  have checked : Dev.StillSlices d ((d.evtLost s).evtCheck s) := (Dev.still_evtLost d s).trans (Dev.still_evtCheck _ s)
  exact (checked.trans (.ite (Dev.still_ringPut _ s _ _) (Dev.still_loseEvent _ s))).setF _ _

end Sys2Proof.Machine
end

section
/-!
PROOF. The controller watchdog and ATTACH (R139-R141, R219): a slice orphaned, and taken back.
-/

namespace Sys2Proof.Machine
open Sys2Proof

/-! ### A slice orphaned (R139) -/

/-- A slice's ORPHAN flag as its two registers show it. -/
def Dev.setOrphan (d : Dev) (s x : Nat) : Dev := (d.setF (Reg.SLC_STATE_ORPHAN s) x).setF (Reg.SLC_RING_STAT_ORPHAN s) x

/-- A channel that takes note of an orphan policy. -/
def Chan.orphaned (c : Chan) (policy maxMs t : Nat) : Chan := { c with orphan := some (c.orphanBy policy maxMs t) }.logOrphan t

/-- A channel whose orphan state is to end. -/
def Chan.unorphan (c : Chan) (t : Nat) : Chan := { c with orphan := c.orphan.map (fun o => { o with endAt := some t }) }

/-- Every channel of a slice changed in the same way. -/
def Dev.eachOwned (d : Dev) (i : Fin 64) (g : Nat → Chan → Chan) : Dev :=
  (List.finRange 16).foldl (fun d v => d.eachChan (fun d k => if (d.chan v k).owner = some i then d.modChan v k (g d.now) else d)) d

theorem Dev.eachOwned_keeps (d : Dev) (i : Fin 64) (g : Nat → Chan → Chan) {I : Dev → Prop} (hI : ∀ d v k, I d → I (d.modChan v k (g d.now)))
    (h : I d) : I (d.eachOwned i g) := by
  have hstep : ∀ e v k, I e → I (if (e.chan v k).owner = some i then e.modChan v k (g e.now) else e) := fun e v k he => by
    split
    · exact hI e v k he
    · exact he
  exact List.foldlRecOn _ _ (motive := I) h fun e he v _ => List.foldlRecOn _ _ (motive := I) he fun e he k _ => hstep e v k he

theorem Dev.eachOwned_regs (d : Dev) (i : Fin 64) (g : Nat → Chan → Chan) : (d.eachOwned i g).regs = d.regs :=
  d.eachOwned_keeps i g (I := fun e => e.regs = d.regs) (fun _ _ _ h => h) rfl

theorem Dev.eachOwned_slices (d : Dev) (i : Fin 64) (g : Nat → Chan → Chan) : (d.eachOwned i g).slices = d.slices :=
  d.eachOwned_keeps i g (I := fun e => e.slices = d.slices) (fun _ _ _ h => h) rfl

/-- Each channel the slice holds is changed once, by a change that looks only at the instant; every other channel stays. -/
theorem Dev.chan_eachOwned (d : Dev) (i : Fin 64) (g : Nat → Chan → Chan) (v k : Fin 16) :
    (d.eachOwned i g).chan v k = if (d.chan v k).owner = some i then g d.now (d.chan v k) else d.chan v k := by
  refine Dev.chan_eachVat (I := fun e => e.now = d.now) (G := fun _ _ c => if c.owner = some i then g d.now c else c) (fun e v k he => ?_)
    (fun e v k he => ?_) (fun e v k v' k' he hne => ?_) rfl v k
  · split <;> exact he
  · split
    · rw [Dev.chan_modChan_same, he]
    · rfl
  · split
    · exact Dev.chan_modChan_ne e hne _
    · rfl

/-- A setting of the ORPHAN flag shows in no other field. -/
theorem Dev.f_setOrphan_off (d : Dev) {s : Nat} (x : Nat) {r : RF} (hl : r.lo < 32) (h : ¬(r.addr = Reg.SLC_STATE_at s ∧ r.lo = 2))
    (h' : ¬(r.addr = Reg.SLC_RING_STAT_at s ∧ r.lo = 3)) : (d.setOrphan s x).f r = d.f r := by
  unfold Dev.setOrphan
  rw [Dev.f_setF_off _ _ (Nat.le_of_ble_eq_true rfl) hl h', Dev.f_setF_off _ _ (Nat.le_of_ble_eq_true rfl) hl h]

theorem Dev.orphanSlice_eq {d : Dev} (i : Fin 64) (h : d.bit (Reg.SLC_STATE_ORPHAN i.1) = false) :
    d.orphanSlice i.1 = ((d.setOrphan i.1 1).eachOwned i (fun now c =>
      c.orphaned (d.f (Reg.SLC_ORPHAN_POLICY i.1)) (d.f (Reg.SLC_ORPHAN_MAX i.1)) now)).event i.1 0x06 none 1 0 := by
  have hoff : ∀ r : RF, r.lo < 32 → r.addr = Reg.SLC_ORPHAN_at i.1 → (d.setOrphan i.1 1).f r = d.f r := fun r hl ha =>
    d.f_setOrphan_off 1 hl (by rw [ha]; simp only [Reg.SLC_ORPHAN_at, Reg.SLC_STATE_at]; omega)
      (by rw [ha]; simp only [Reg.SLC_ORPHAN_at, Reg.SLC_RING_STAT_at]; omega)
  have hpol : ((d.setF (Reg.SLC_STATE_ORPHAN i.1) 1).setF (Reg.SLC_RING_STAT_ORPHAN i.1) 1).f (Reg.SLC_ORPHAN_POLICY i.1) =
      d.f (Reg.SLC_ORPHAN_POLICY i.1) := hoff _ (Nat.le_of_ble_eq_true rfl) rfl
  have hmax : ((d.setF (Reg.SLC_STATE_ORPHAN i.1) 1).setF (Reg.SLC_RING_STAT_ORPHAN i.1) 1).f (Reg.SLC_ORPHAN_MAX i.1) =
      d.f (Reg.SLC_ORPHAN_MAX i.1) := hoff _ (Nat.le_of_ble_eq_true rfl) rfl
  unfold Dev.orphanSlice Dev.eachOwned Dev.setOrphan Chan.orphaned
  simp only [h, Bool.false_eq_true, if_false, sl_val, hpol, hmax]

/-- The flag at its new value, once set. -/
theorem Dev.f_setOrphan (d : Dev) (s x : Nat) : (d.setOrphan s x).f (Reg.SLC_STATE_ORPHAN s) = x % 2 := by
  unfold Dev.setOrphan
  rw [Dev.f_setF_off _ _ (Nat.le_of_ble_eq_true rfl) (Nat.le_of_ble_eq_true rfl)
    (by simp only [Reg.SLC_STATE_ORPHAN, Reg.SLC_RING_STAT_ORPHAN]; omega), Dev.f_setF_same]
  rfl

theorem Reg.slcState_offEvents {s : Nat} (hs : s < 64) {r : RF} (hl : r.lo < 32) (ha : r.addr = Reg.SLC_STATE_at s) : r.OffEvents s := by
  unfold RF.OffEvents
  simp only [ha, Reg.SLC_STATE_at, Reg.SLICE_EVT_at, Reg.DPL_PI_at, Reg.DPL_STAT_at, Reg.SLC_RING_STAT_at, Reg.SLC_EVT_LOST_at]
  omega

theorem Dev.orphanSlice_flag {d : Dev} {i : Fin 64} (h : d.bit (Reg.SLC_STATE_ORPHAN i.1) = false) :
    (d.orphanSlice i.1).f (Reg.SLC_STATE_ORPHAN i.1) = 1 := by
  rw [Dev.orphanSlice_eq i h, Dev.event, Dev.keeps_eventAt _ _ _ _ _ _ _ (Reg.slcState_offEvents i.2 (Nat.le_of_ble_eq_true rfl) rfl),
    Dev.f_of_regs (Dev.eachOwned_regs _ _ _), Dev.f_setOrphan]

theorem Dev.chan_orphanSlice {d : Dev} {i : Fin 64} (h : d.bit (Reg.SLC_STATE_ORPHAN i.1) = false) (v k : Fin 16) :
    (d.orphanSlice i.1).chan v k = if (d.chan v k).owner = some i then (d.chan v k).orphaned (d.f (Reg.SLC_ORPHAN_POLICY i.1)) (d.f (Reg.SLC_ORPHAN_MAX i.1)) d.now
      else d.chan v k := by
  rw [Dev.orphanSlice_eq i h, Dev.event, Dev.chan_of_vats (Dev.eventAt_vats _ _ _ _ _ _ _)]
  exact Dev.chan_eachOwned (d.setOrphan i.1 1) i _ v k

theorem Answers.of_watchdogExpiry {s : State} {i : Fin 64} (hl : Live s) (hst : s.dev.f (Reg.SLC_STATE_STATE i.1) = 1)
    (hto : s.dev.f (Reg.SLC_WDOG_TIMEOUT i.1) ≠ 0) (hor : s.dev.bit (Reg.SLC_STATE_ORPHAN i.1) = false)
    (hdue : (s.dev.slices[i]).wdogAt + 400000 * s.dev.f (Reg.SLC_WDOG_TIMEOUT i.1) ≤ s.dev.now) :
    Answers (.controllerWatchdogExpiry i) s (fun t => t.dev.bit (Reg.SLC_STATE_ORPHAN i.1) = true ∧
      ∀ v k : Fin 16,
        ((s.dev.chan v k).owner = some i → t.dev.chan v k = (s.dev.chan v k).orphaned (s.dev.f (Reg.SLC_ORPHAN_POLICY i.1))
          (s.dev.f (Reg.SLC_ORPHAN_MAX i.1)) s.dev.now) ∧
        ((s.dev.chan v k).owner ≠ some i → t.dev.chan v k = s.dev.chan v k)) := by
  have hexp : s.dev.ctlExpiry i = s.dev.orphanSlice i.1 :=
    if_pos ⟨hst, hto, by rw [hor]; rfl, hdue⟩
  refine .of_done hl rfl ?_
  rw [hexp, State.commit_bit]
  refine ⟨beq_iff_eq.mpr (Dev.orphanSlice_flag hor), fun v k => ?_⟩
  rw [State.commit_chan, Dev.chan_orphanSlice hor]
  exact ⟨fun h => if_pos h, fun h => if_neg h⟩

/-! ### ATTACH (R141, R216) -/

theorem Dev.attach_ok {d : Dev} {i : Fin 64} (h : d.f (Reg.SLC_STATE_STATE i.1) = 1 ∧ d.bit (Reg.SLC_STATE_ORPHAN i.1) = true ∧
    d.pathsUp i.1 = true ∧ d.f (Reg.SLC_RING_STAT_DMA_ERR i.1) = 0) :
    d.attach i = ((((d.setOrphan i.1 0).kickWdog i.1).eachOwned i (fun now c => c.unorphan now)).event i.1 0x06 none 0 0).sliceEnd i.1 sOk := by
  unfold Dev.attach
  rw [if_pos h]
  rfl

theorem Dev.attach_refused {d : Dev} {i : Fin 64} (h : ¬(d.f (Reg.SLC_STATE_STATE i.1) = 1 ∧ d.bit (Reg.SLC_STATE_ORPHAN i.1) = true ∧
    d.pathsUp i.1 = true ∧ d.f (Reg.SLC_RING_STAT_DMA_ERR i.1) = 0)) : d.attach i = d.sliceEnd i.1 sRefused := if_neg h

theorem Dev.sliceEnd_result (d : Dev) (s result : Nat) : (d.sliceEnd s result).f Reg.SLICE_CMD_STAT_RESULT = result % 16 := by
  unfold Dev.sliceEnd
  simp [Reg.SLICE_CMD_STAT_RESULT, Reg.SLICE_CMD_STAT_SLICE, Reg.SLICE_CMD_STAT_at]

/-- The end of a slice command writes SLICE_CMD_STAT and the event block only. -/
theorem Dev.f_sliceEnd_off (d : Dev) (s result : Nat) {r : RF} (hl : r.lo < 32) (h : r.addr ≠ Reg.SLICE_CMD_STAT_at)
    (h' : r.addr < 0x20004000 ∨ 0x20004800 ≤ r.addr) : (d.sliceEnd s result).f r = d.f r := by
  unfold Dev.sliceEnd
  rw [Dev.f_pend_off _ (by decide) hl h', Dev.f_setF_addr_ne _ _ h (by decide) hl, Dev.f_setF_addr_ne _ _ h (by decide) hl,
    Dev.f_setF_addr_ne _ _ h (by decide) hl]
  rfl

theorem Dev.sliceEnd_vats (d : Dev) (s result : Nat) : (d.sliceEnd s result).vats = d.vats := Dev.pend_vats _ 93

theorem Dev.sliceEnd_still (d : Dev) (s result : Nat) : Dev.StillSlices d (d.sliceEnd s result) :=
  (Dev.StillSlices.of_slices rfl).trans (Dev.still_pend _ 93)

/-- What ATTACH leaves in a device of the slice it takes back. -/
structure Dev.Attached (d e : Dev) (i : Fin 64) : Prop where
  flag : e.f (Reg.SLC_STATE_ORPHAN i.1) = 0
  kicked : (e.slices[i]).wdogAt = d.now
  result : e.f Reg.SLICE_CMD_STAT_RESULT = sOk
  chans : ∀ v k : Fin 16, (d.chan v k).owner = some i → (e.chan v k).orphan = (d.chan v k).orphan.map (fun o => { o with endAt := some d.now })

theorem Dev.attach_attached {d : Dev} {i : Fin 64} (h : d.f (Reg.SLC_STATE_STATE i.1) = 1 ∧ d.bit (Reg.SLC_STATE_ORPHAN i.1) = true ∧
    d.pathsUp i.1 = true ∧ d.f (Reg.SLC_RING_STAT_DMA_ERR i.1) = 0) : Dev.Attached d (d.attach i) i := by
  have hstate : (Reg.SLC_STATE_ORPHAN i.1).addr ≠ Reg.SLICE_CMD_STAT_at := by
    simp only [Reg.SLC_STATE_ORPHAN, Reg.SLC_STATE_at, Reg.SLICE_CMD_STAT_at]
    omega
  have hblock : (Reg.SLC_STATE_ORPHAN i.1).addr < 0x20004000 ∨ 0x20004800 ≤ (Reg.SLC_STATE_ORPHAN i.1).addr := by
    simp only [Reg.SLC_STATE_ORPHAN, Reg.SLC_STATE_at]
    omega
  have hlo : (Reg.SLC_STATE_ORPHAN i.1).lo < 32 := Nat.le_of_ble_eq_true rfl
  rw [Dev.attach_ok h]
  refine ⟨?_, ?_, Dev.sliceEnd_result _ _ _, fun v k hown => ?_⟩
  · rw [Dev.f_sliceEnd_off _ _ _ hlo hstate hblock, Dev.event, Dev.keeps_eventAt _ _ _ _ _ _ _ (Reg.slcState_offEvents i.2 hlo rfl),
      Dev.f_of_regs (Dev.eachOwned_regs _ _ _)]
    exact Dev.f_setOrphan d i.1 0
  · have hstill := (((Dev.still_eventAt (((d.setOrphan i.1 0).kickWdog i.1).eachOwned i (fun now c => c.unorphan now)) i.1 0x06 none 0 0
      (((d.setOrphan i.1 0).kickWdog i.1).eachOwned i (fun now c => c.unorphan now)).now)).trans (Dev.sliceEnd_still _ i.1 sOk)) i
    refine (congrArg SliceEng.wdogAt hstill).trans ?_
    rw [Dev.eachOwned_slices]
    unfold Dev.kickWdog
    rw [sl_val, Dev.slices_modSlice_same]
    rfl
  · rw [Dev.chan_of_vats (Dev.sliceEnd_vats _ _ _), Dev.event, Dev.chan_of_vats (Dev.eventAt_vats _ _ _ _ _ _ _), Dev.chan_eachOwned]
    exact congrArg Chan.orphan (if_pos hown)

theorem Dev.sliceCmdWrite_attach {d : Dev} {src : Src} {w : Nat} {i : Fin 64} (hb : d.bit Reg.SLICE_CMD_STAT_BUSY = false) (hop : bits w 8 3 = 3)
    (hi : bits w 0 6 = i.1) : d.sliceCmdWrite src w = d.attach i := by
  unfold Dev.sliceCmdWrite
  simp only [hb, Bool.false_eq_true, if_false, hop, hi, sl_val]

theorem Answers.of_attach {s : State} {src : Src} {w : Word} {i : Fin 64} (hr : Reaches s src Reg.SLICE_CMD_at)
    (hb : s.dev.bit Reg.SLICE_CMD_STAT_BUSY = false) (hop : bits w.toNat 8 3 = 3) (hi : bits w.toNat 0 6 = i.1) {P : State → Prop}
    (hP : P (s.commit ((s.dev.answer 0).attach i))) : Answers (.attach src w) s P := by
  obtain ⟨hl, hg⟩ := hr
  have hexec : exec (.attach src w) s = s.done ((s.dev.answer 0).attach i) :=
    congrArg s.done ((Dev.onWrite_unguarded hg _).trans (Dev.sliceCmdWrite_attach (d := s.dev.answer 0) hb hop hi))
  exact .of_done hl hexec hP

/-- Settles O29: a slice is orphaned and taken back channel by channel; the event record that follows writes none of what is read. -/
theorem attachAndControllerWatchdog : Obligations.AttachAndControllerWatchdog := by
  unfold Obligations.AttachAndControllerWatchdog
  refine ⟨fun s i hl hst hto hor hdue => Answers.of_watchdogExpiry hl hst hto hor hdue, fun s src w i hr hb hop hi => ?_⟩
  refine Answers.of_attach hr hb hop hi ⟨fun h => ?_, fun h => ?_⟩
  · obtain ⟨hflag, hkick, hres, hch⟩ := Dev.attach_attached (d := s.dev.answer 0) h
    rw [State.commit_bit, State.commit_f, State.commit_slices]
    refine ⟨beq_eq_false_iff_ne.mpr (by rw [hflag]; decide), hkick, hres, fun v k hown => ?_⟩
    rw [State.commit_chan]
    exact hch v k hown
  · rw [State.commit_bit, State.commit_f, Dev.attach_refused (d := s.dev.answer 0) h]
    refine ⟨congrArg (· == 1) (Dev.f_sliceEnd_off _ _ _ (Nat.le_of_ble_eq_true rfl) ?_ ?_), Dev.sliceEnd_result _ _ _⟩
    · simp only [Reg.SLC_STATE_ORPHAN, Reg.SLC_STATE_at, Reg.SLICE_CMD_STAT_at]
      omega
    · simp only [Reg.SLC_STATE_ORPHAN, Reg.SLC_STATE_at]
      omega

end Sys2Proof.Machine
end

section
/-!
PROOF. Single bits of a register, and what reports leave inside the event block: the routes, the enables and the log's window.
-/

namespace Sys2Proof.Machine
open Sys2Proof

/-! ### Bits -/

theorem testBit_setBit_true (x i j : Nat) : (setBit x i true).testBit j = if j = i then true else x.testBit j := by
  split
  next h => rw [h, setBit_self]
  next h => exact testBit_setBit_ne x h

/-- A bit cleared is a bit flipped that was set. -/
theorem setBit_false_eq_xor {x i : Nat} (h : x.testBit i = true) : setBit x i false = x ^^^ 2 ^ i := by
  have hy : (x ^^^ 2 ^ i).testBit i = false := by rw [Nat.testBit_xor, h, Nat.testBit_two_pow_self]; rfl
  have hback : setBit (x ^^^ 2 ^ i) i true = x := by
    refine Nat.eq_of_testBit_eq fun j => ?_
    rw [testBit_setBit_true]
    split
    next hj => rw [hj, h]
    next hj => rw [Nat.testBit_xor, Nat.testBit_two_pow_of_ne (Ne.symm hj), Bool.xor_false]
  have hadd : (x ^^^ 2 ^ i) + 2 ^ i = x := by
    unfold setBit at hback
    rwa [hy, if_neg Bool.false_ne_true, if_pos rfl] at hback
  unfold setBit
  rw [h, if_neg (by decide), if_neg Bool.false_ne_true]
  exact Nat.sub_eq_of_eq_add hadd.symm

theorem testBit_setBit (x i j : Nat) (b : Bool) : (setBit x i b).testBit j = if j = i then b else x.testBit j := by
  cases b with
  | true => exact testBit_setBit_true x i j
  | false =>
    cases h : x.testBit i with
    | false =>
      unfold setBit
      rw [if_pos h]
      split
      next hj => rw [hj, h]
      next => rfl
    | true =>
      rw [setBit_false_eq_xor h, Nat.testBit_xor]
      split
      next hj => rw [hj, h, Nat.testBit_two_pow_self]; rfl
      next hj => rw [Nat.testBit_two_pow_of_ne (Ne.symm hj), Bool.xor_false]

/-- Bit j of a field after one bit of it was set. -/
theorem Dev.tb_setTb (d : Dev) (r : RF) (i : Nat) (b : Bool) {j : Nat} (hj : j < r.w) :
    (d.setTb r i b).tb r j = if j = i then b else d.tb r j := by
  unfold Dev.tb
  rw [Dev.setTb_eq, Dev.f_setF_same, Nat.testBit_mod_two_pow, decide_eq_true hj, Bool.true_and, testBit_setBit]

theorem Dev.tb_of_f {d e : Dev} {r : RF} (h : e.f r = d.f r) (j : Nat) : e.tb r j = d.tb r j := congrArg (·.testBit j) h

theorem Dev.bit_of_f {d e : Dev} {r : RF} (h : e.f r = d.f r) : e.bit r = d.bit r := congrArg (· == 1) h

/-- The same for a loop over the numbers below `n`. -/
theorem forEach_cell {σ β : Type} {n : Nat} {I : σ → Prop} {F : σ → Nat → σ} {rd : σ → Nat → β} {G : Nat → β → β}
    (hI : ∀ d, ∀ a < n, I d → I (F d a)) (hsame : ∀ d, ∀ a < n, I d → rd (F d a) a = G a (rd d a))
    (hne : ∀ d, ∀ a < n, ∀ b < n, I d → b ≠ a → rd (F d a) b = rd d b) {d : σ} (hd : I d) {j : Nat} (hj : j < n) :
    rd (forEach n d F) j = G j (rd d j) := by
  unfold forEach
  rw [← List.map_coe_finRange_eq_range, List.foldl_map]
  have hcell := foldl_cell (F := fun d (a : Fin n) => F d a.1) (rd := fun d (a : Fin n) => rd d a.1) (G := fun a => G a.1)
    (fun d a h => hI d a.1 a.2 h) (fun d a h => hsame d a.1 a.2 h) (fun d a b h hab => hne d a.1 a.2 b.1 b.2 h (fun he => hab (Fin.ext he)))
    ⟨j, hj⟩ (List.finRange n) (List.nodup_finRange n) d hd
  exact hcell.trans (if_pos (List.mem_finRange _))

/-- A read-write field takes a value its range admits. -/
theorem FieldRow.written_rw {f : FieldRow} (hty : f.ty = .rw) (d : Dev) (base a : Nat) {w : Nat} (h : f.admits (bits w f.lo f.w) = true) :
    f.written d base a w = bits w f.lo f.w := by
  unfold FieldRow.written
  rw [hty]
  exact if_pos h

theorem Dev.bit_setF_zero (d : Dev) (r : RF) : (d.setF r 0).bit r = false := by
  unfold Dev.bit
  rw [Dev.f_setF_same, Nat.zero_mod]
  rfl

/-! ### What reports write of the event block (R434, R437, R438) -/

/-- A field that no rise and no log entry writes: not a pending bit and not an index or count of the event log. -/
def RF.OffReports (r : RF) : Prop := r.lo < 32 ∧ (r.addr < 0x20004000 ∨ (0x20004010 ≤ r.addr ∧ r.addr < 0x20004030) ∨ 0x2000403C ≤ r.addr)

theorem RF.OffReports.ne_pend {r : RF} (h : r.OffReports) {i : Nat} (hi : i < 128) : r.key ≠ (Reg.EVT_PEND_SRC (i / 32)).key := by
  obtain ⟨hl, ha⟩ := h
  exact RF.key_ne (by simp only [Reg.EVT_PEND_SRC, Reg.EVT_PEND_at]; omega) (Nat.le_of_ble_eq_true rfl) hl

theorem Dev.f_pend_offReports (d : Dev) {i : Nat} (hi : i < 128) {r : RF} (h : r.OffReports) : (d.pend i).f r = d.f r :=
  d.f_pend_ne i (h.ne_pend hi)

theorem Dev.f_log_offReports (d : Dev) (c s i x : Nat) {r : RF} (h : r.OffReports) : (d.log c s i x).f r = d.f r := by
  have hpend : r.key ≠ (Reg.EVT_PEND_SRC 2).key := h.ne_pend (i := 64) (by decide)
  obtain ⟨hl, ha⟩ := h
  rw [Dev.f_log_eq_listed _ _ _ _ _ (RF.key_ne (by simp only [Reg.EVT_LOG_CI_VALUE, Reg.EVT_LOG_CI_at]; omega) (by decide) hl)
      (RF.key_ne (by simp only [Reg.EVT_LOG_OVW_VALUE, Reg.EVT_LOG_OVW_at]; omega) (by decide) hl) hpend,
    Dev.f_logListed_ne _ _ _ _ _ (RF.key_ne (by simp only [Reg.EVT_LOG_PI_VALUE, Reg.EVT_LOG_PI_at]; omega) (by decide) hl)]

theorem Dev.f_writeRowWith_offReports (d : Dev) (src : Src) {a : Nat} (w : Nat) {pick : FieldRow → Verdict} (base : Nat) (f : FieldRow)
    (hf : (Reg.row a).any (fun row => row.base == base && row.fields.contains f) = true) (hact : pick f = .act)
    (h : (f.sel base a).OffReports) : (d.writeRowWith src a w pick).f (f.sel base a) = f.written d base a w := by
  obtain ⟨row, hrow, hlist⟩ := (Option.any_eq_true _ _).mp hf
  obtain ⟨hbase, hmem⟩ := Bool.and_eq_true_iff.mp hlist
  obtain rfl := beq_iff_eq.mp hbase
  have hkept : (d.writeRowWith src a w pick).f (f.sel row.base a) = (d.tryRow a w pick).1.f (f.sel row.base a) := by
    unfold Dev.writeRowWith
    dsimp only
    split
    · exact Dev.f_log_offReports _ _ _ _ _ h
    · exact (Dev.f_pend_offReports _ (by decide) h).trans (Dev.f_log_offReports _ _ _ _ _ h)
    · rfl
  exact hkept.trans (Dev.f_tryRow hrow (List.contains_iff_mem.mp hmem) hact)

end Sys2Proof.Machine
end

section
/-!
PROOF. Event routes, event enables and software events (R434).
-/

namespace Sys2Proof.Machine
open Sys2Proof

/-! ### Routes -/

theorem Reg.route_offReports {i : Nat} {r : RF} (hl : r.lo < 32) (ha : r.addr = Reg.EVT_ROUTE_at i) : r.OffReports :=
  ⟨hl, by rw [ha]; simp only [Reg.EVT_ROUTE_at]; omega⟩

theorem secureCore_routeWriter {src : Src} (h : secureCore src = true) : routeWriter src = true ∧ bar0 src = false := by
  refine ⟨by unfold routeWriter; rw [h]; rfl, ?_⟩
  obtain ⟨-, hm⟩ := Bool.and_eq_true_iff.mp h
  have hm := of_decide_eq_true hm
  have h6 : src.master.1 ≠ 6 := by omega
  have h7 : src.master.1 ≠ 7 := by omega
  unfold bar0
  rw [beq_eq_false_iff_ne.mpr h6, beq_eq_false_iff_ne.mpr h7]
  rfl

/-- KIND, SLICE and VEC of every route as the register table lists them. -/
theorem Reg.route_rows : ∀ i : Fin 96, ∀ f ∈ [(⟨0, 2, .rw, .const 0, true, [(0, 2)], 0⟩ : FieldRow), ⟨6, 6, .rw, .const 0, true, [], 0⟩,
    ⟨12, 6, .rw, .const 0, true, [], 0⟩], (Reg.row (Reg.EVT_ROUTE_at i.1)).any (fun row => row.base == 0x20004100 && row.fields.contains f) = true := by
  decide +kernel

theorem Dev.routeWrite_taken {d : Dev} {src : Src} {i w : Nat} (hsrc : secureCore src = true) (hk : bits w 0 2 < 3)
    (hok : d.routeBad i (bits w 0 2) (bits w 2 3) (bits w 6 6) (bits w 12 6) = false) :
    d.routeWrite src i w = d.writeRest src (Reg.EVT_ROUTE_at i) w [] := by
  obtain ⟨hw, hb⟩ := secureCore_routeWriter hsrc
  unfold Dev.routeWrite
  simp only [hw, hb, if_neg (Nat.ne_of_lt hk), hok, Bool.not_true, Bool.false_and, Bool.or_self, Bool.false_eq_true, if_false]

theorem Dev.routeWrite_refused {d : Dev} {src : Src} {i : Nat} (w : Nat)
    (h : routeWriter src = false ∨ (bar0 src = true ∧ d.f (Reg.EVT_ROUTE_KIND i) = 1)) :
    d.routeWrite src i w = d.logRefused src (Reg.EVT_ROUTE_at i) := by
  unfold Dev.routeWrite
  refine if_pos ?_
  obtain h | ⟨hb, hk⟩ := h
  · rw [h]
    rfl
  · rw [hb, hk]
    exact Bool.or_true _

theorem Dev.f_routeWrite {d : Dev} {src : Src} (i : Fin 96) {w : Nat} (hsrc : secureCore src = true) (hk : bits w 0 2 < 3)
    (hok : d.routeBad i.1 (bits w 0 2) (bits w 2 3) (bits w 6 6) (bits w 12 6) = false) :
    (d.routeWrite src i.1 w).f (Reg.EVT_ROUTE_KIND i.1) = bits w 0 2 ∧ (d.routeWrite src i.1 w).f (Reg.EVT_ROUTE_SLICE i.1) = bits w 6 6 ∧
      (d.routeWrite src i.1 w).f (Reg.EVT_ROUTE_VEC i.1) = bits w 12 6 := by
  rw [Dev.routeWrite_taken hsrc hk hok]
  have hrow := Reg.route_rows i
  have hoff : ∀ f : FieldRow, f.lo < 32 → (f.sel 0x20004100 (Reg.EVT_ROUTE_at i.1)).OffReports := fun f hl => Reg.route_offReports hl rfl
  refine ⟨?_, ?_, ?_⟩
  · refine (d.f_writeRowWith_offReports src w 0x20004100 _ (hrow _ (.head _)) rfl (hoff _ (by decide))).trans (FieldRow.written_rw rfl _ _ _ ?_)
    simp [FieldRow.admits, Nat.mod_one]
    omega
  · refine (d.f_writeRowWith_offReports src w 0x20004100 _ (hrow _ (.tail _ (.head _))) rfl (hoff _ (by decide))).trans
      (FieldRow.written_rw rfl _ _ _ ?_)
    simp [FieldRow.admits, Nat.mod_one]
  · refine (d.f_writeRowWith_offReports src w 0x20004100 _ (hrow _ (.tail _ (.tail _ (.head _)))) rfl (hoff _ (by decide))).trans
      (FieldRow.written_rw rfl _ _ _ ?_)
    simp [FieldRow.admits, Nat.mod_one]

/-! ### Enables -/

/-- One bit of an enable word as ENABLE_WRITE takes it. -/
def Dev.enableBit (src : Src) (w x old : Nat) (d : Dev) (j : Nat) : Dev :=
  if x.testBit j == old.testBit j then d
  else if bar0 src && d.f (Reg.EVT_ROUTE_KIND (32 * w + j)) == 1 then d
  else if x.testBit j && (d.setTb (Reg.EVT_EN_SRC w) j (x.testBit j)).tb (Reg.EVT_PEND_SRC w) j then
    (d.setTb (Reg.EVT_EN_SRC w) j (x.testBit j)).deliver (32 * w + j)
  else d.setTb (Reg.EVT_EN_SRC w) j (x.testBit j)

/-- ENABLE_WRITE leaves a bit as it is where the word does not change it, and where BAR0 may not. -/
theorem Dev.enableBit_kept {src : Src} {w x old : Nat} {d : Dev} {j : Nat}
    (h : x.testBit j = old.testBit j ∨ (bar0 src = true ∧ d.f (Reg.EVT_ROUTE_KIND (32 * w + j)) = 1)) : Dev.enableBit src w x old d j = d := by
  unfold Dev.enableBit
  obtain h | ⟨hb, hk⟩ := h
  · exact if_pos (beq_iff_eq.mpr h)
  · rw [hb, hk]
    exact ite_id d

theorem Dev.enableBit_set {src : Src} {w x old : Nat} {d : Dev} {j : Nat} (h : x.testBit j ≠ old.testBit j)
    (hb : ¬(bar0 src = true ∧ d.f (Reg.EVT_ROUTE_KIND (32 * w + j)) = 1)) :
    (Dev.enableBit src w x old d j).regs = (d.setTb (Reg.EVT_EN_SRC w) j (x.testBit j)).regs := by
  unfold Dev.enableBit
  rw [if_neg (fun hc => h (beq_iff_eq.mp hc)),
    if_neg (fun hc => hb ⟨(Bool.and_eq_true_iff.mp hc).1, beq_iff_eq.mp (Bool.and_eq_true_iff.mp hc).2⟩)]
  split
  · exact Dev.deliver_regs _ _
  · rfl

theorem Dev.enableBit_cases (src : Src) (w x old : Nat) (d : Dev) (j : Nat) : Dev.enableBit src w x old d j = d ∨
    (Dev.enableBit src w x old d j).regs = (d.setTb (Reg.EVT_EN_SRC w) j (x.testBit j)).regs := by
  by_cases h : x.testBit j = old.testBit j ∨ (bar0 src = true ∧ d.f (Reg.EVT_ROUTE_KIND (32 * w + j)) = 1)
  · exact .inl (Dev.enableBit_kept h)
  · obtain ⟨h, hb⟩ := not_or.mp h
    exact .inr (Dev.enableBit_set h hb)

theorem Dev.enableWrite_eq {d : Dev} {src : Src} (w x : Nat) (h : routeWriter src = true) : d.enableWrite src w x =
    if (forEach 32 d (Dev.enableBit src w x (d.f (Reg.EVT_EN_SRC w)))).f (Reg.EVT_EN_SRC w) = x % 2 ^ 32 then
      forEach 32 d (Dev.enableBit src w x (d.f (Reg.EVT_EN_SRC w)))
    else (forEach 32 d (Dev.enableBit src w x (d.f (Reg.EVT_EN_SRC w)))).logRefused src (Reg.EVT_EN_at w) := by
  unfold Dev.enableWrite
  rw [h, if_neg (by decide)]
  rfl

/-- The enable bits one by one. -/
theorem Dev.tb_enableBits (src : Src) {w : Nat} (hw : w < 3) (x : Nat) (d : Dev) {j : Nat} (hj : j < 32) :
    (forEach 32 d (Dev.enableBit src w x (d.f (Reg.EVT_EN_SRC w)))).tb (Reg.EVT_EN_SRC w) j =
      if bar0 src = true ∧ d.f (Reg.EVT_ROUTE_KIND (32 * w + j)) = 1 then d.tb (Reg.EVT_EN_SRC w) j else x.testBit j := by
  have hkind : ∀ e : Dev, ∀ i n, (Dev.enableBit src w x (d.f (Reg.EVT_EN_SRC w)) e i).f (Reg.EVT_ROUTE_KIND n) = e.f (Reg.EVT_ROUTE_KIND n) := by
    intro e i n
    obtain h | h := Dev.enableBit_cases src w x (d.f (Reg.EVT_EN_SRC w)) e i
    · rw [h]
    · rw [Dev.f_of_regs h, Dev.f_setTb_off _ _ _ (Nat.le_of_ble_eq_true rfl) (Nat.le_of_ble_eq_true rfl)
        (by simp only [Reg.EVT_ROUTE_KIND, Reg.EVT_EN_SRC, Reg.EVT_ROUTE_at, Reg.EVT_EN_at]; omega)]
  have hcell := forEach_cell (n := 32) (F := Dev.enableBit src w x (d.f (Reg.EVT_EN_SRC w)))
    (I := fun e => ∀ n, e.f (Reg.EVT_ROUTE_KIND n) = d.f (Reg.EVT_ROUTE_KIND n)) (rd := fun e j => e.tb (Reg.EVT_EN_SRC w) j)
    (G := fun j b => if x.testBit j = d.tb (Reg.EVT_EN_SRC w) j ∨ (bar0 src = true ∧ d.f (Reg.EVT_ROUTE_KIND (32 * w + j)) = 1) then b
      else x.testBit j) (fun e i _ he n => (hkind e i n).trans (he n)) (fun e i hi he => ?_) (fun e i hi n hn he hne => ?_) (d := d) (fun _ => rfl) hj
  · refine hcell.trans ?_
    by_cases hb : bar0 src = true ∧ d.f (Reg.EVT_ROUTE_KIND (32 * w + j)) = 1
    · rw [if_pos (.inr hb), if_pos hb]
    · rw [if_neg hb]
      by_cases hx : x.testBit j = d.tb (Reg.EVT_EN_SRC w) j
      · rw [if_pos (.inl hx), hx]
      · rw [if_neg (not_or.mpr ⟨hx, hb⟩)]
  · rw [← he (32 * w + i)]
    split
    next h => rw [Dev.enableBit_kept h]
    next h =>
      obtain ⟨h, hb⟩ := not_or.mp h
      rw [Dev.tb_of_f (Dev.f_of_regs (Dev.enableBit_set h hb) _), Dev.tb_setTb _ _ _ _ hi, if_pos rfl]
  · obtain h | h := Dev.enableBit_cases src w x (d.f (Reg.EVT_EN_SRC w)) e i
    · rw [h]
    · rw [Dev.tb_of_f (Dev.f_of_regs h _), Dev.tb_setTb _ _ _ _ hn, if_neg hne]

theorem Dev.tb_enableWrite (d : Dev) (src : Src) {w : Nat} (hw : w < 3) (x : Nat) {j : Nat} (hj : j < 32) :
    (d.enableWrite src w x).tb (Reg.EVT_EN_SRC w) j =
      if routeWriter src = false ∨ (bar0 src = true ∧ d.f (Reg.EVT_ROUTE_KIND (32 * w + j)) = 1) then d.tb (Reg.EVT_EN_SRC w) j
      else x.testBit j := by
  have hoff : (Reg.EVT_EN_SRC w).OffReports := ⟨Nat.le_of_ble_eq_true rfl, by simp only [Reg.EVT_EN_SRC, Reg.EVT_EN_at]; omega⟩
  cases h : routeWriter src with
  | false =>
    have hrefused : d.enableWrite src w x = d.logRefused src (Reg.EVT_EN_at w) := if_pos (by rw [h]; rfl)
    rw [hrefused, if_pos (.inl rfl)]
    exact Dev.tb_of_f (Dev.f_log_offReports _ _ _ _ _ hoff) j
  | true =>
    have hbits := Dev.tb_enableBits src hw x d hj
    rw [Dev.enableWrite_eq w x h, if_congr (or_iff_right (by decide : ¬(true = false))) rfl rfl, ← hbits]
    split
    · rfl
    · exact Dev.tb_of_f (Dev.f_log_offReports _ _ _ _ _ hoff) j

/-! ### Software events -/

/-- A rise changes no other pending bit. -/
theorem Dev.tb_pend_ne (d : Dev) (i : Nat) {j : Nat} (hj : j < 32) (hne : j ≠ i % 32) :
    (d.pend i).tb (Reg.EVT_PEND_SRC (i / 32)) j = d.tb (Reg.EVT_PEND_SRC (i / 32)) j := by
  obtain h | h := d.pend_regs_cases i
  · exact Dev.tb_of_f (Dev.f_of_regs h _) j
  · rw [Dev.tb_of_f (Dev.f_of_regs h _), Dev.tb_setTb _ _ _ _ hj, if_neg hne]

/-- Sources 82 to 89 that a word names become pending, one bit of the third word each. -/
theorem Dev.tb_softwareEvent (d : Dev) (x : Nat) {j : Nat} (hj : j < 8) :
    (d.softwareEvent x).tb (Reg.EVT_PEND_SRC 2) (18 + j) = (d.tb (Reg.EVT_PEND_SRC 2) (18 + j) || x.testBit j) := by
  have hword : ∀ i < 8, (82 + i) / 32 = 2 ∧ (82 + i) % 32 = 18 + i := fun i hi => by omega
  refine forEach_cell (n := 8) (I := fun _ => True) (rd := fun (e : Dev) j => e.tb (Reg.EVT_PEND_SRC 2) (18 + j)) (G := fun j b => b || x.testBit j)
    (fun _ _ _ _ => trivial) (fun e i hi _ => ?_) (fun e i hi n hn _ hne => ?_) trivial hj
  · obtain ⟨hdiv, hmod⟩ := hword i hi
    have hpend := e.pend_pends (82 + i)
    rw [hdiv, hmod] at hpend
    cases hx : x.testBit i with
    | false => rw [if_neg Bool.false_ne_true, Bool.or_false]
    | true => rw [if_pos rfl, hpend, Bool.or_true]
  · obtain ⟨hdiv, hmod⟩ := hword i hi
    have hpend := e.tb_pend_ne (82 + i) (j := 18 + n) (by omega) (by omega)
    rw [hdiv] at hpend
    split
    · exact hpend
    · rfl

theorem Dev.f_softwareEvent (d : Dev) (x : Nat) {r : RF} (h : r.OffReports) : (d.softwareEvent x).f r = d.f r := by
  unfold Dev.softwareEvent forEach
  refine List.foldlRecOn (List.range 8) _ (motive := fun e : Dev => e.f r = d.f r) rfl fun e he j hj => ?_
  have hj := List.mem_range.mp hj
  split
  · rw [Dev.f_pend_offReports _ (by omega) h, he]
  · exact he

/-- A pending, enabled source routed to a core asserts the core's line. -/
theorem Dev.coreLine_of {d : Dev} {i n : Nat} {sec : Bool} (hi : i < 96) (hp : d.tb (Reg.EVT_PEND_SRC (i / 32)) (i % 32) = true)
    (he : d.tb (Reg.EVT_EN_SRC (i / 32)) (i % 32) = true) (hk : d.f (Reg.EVT_ROUTE_KIND i) = 1) (hc : d.f (Reg.EVT_ROUTE_CORE i) = n)
    (hs : d.bit (Reg.EVT_ROUTE_SEC i) = sec) : d.coreLine n sec = true := by
  refine List.any_eq_true.mpr ⟨i, List.mem_range.mpr hi, ?_⟩
  rw [hp, he, hk, hc, hs, beq_self_eq_true, beq_self_eq_true, beq_self_eq_true]
  rfl

theorem Dev.softwareEvent_line {d : Dev} {x j : Nat} (hj : j < 8) (hx : x.testBit j = true) (he : d.tb (Reg.EVT_EN_SRC 2) (18 + j) = true)
    (hk : d.f (Reg.EVT_ROUTE_KIND (82 + j)) = 1) :
    (d.softwareEvent x).coreLine (d.f (Reg.EVT_ROUTE_CORE (82 + j))) (d.bit (Reg.EVT_ROUTE_SEC (82 + j))) = true := by
  have hword : (82 + j) / 32 = 2 ∧ (82 + j) % 32 = 18 + j := by omega
  obtain ⟨hdiv, hmod⟩ := hword
  have hroute : ∀ r : RF, r.lo < 32 → r.addr = Reg.EVT_ROUTE_at (82 + j) → (d.softwareEvent x).f r = d.f r := fun r hl ha =>
    d.f_softwareEvent x (Reg.route_offReports hl ha)
  refine Dev.coreLine_of (i := 82 + j) (by omega) ?_ ?_ ?_ ?_ ?_
  · rw [hdiv, hmod, Dev.tb_softwareEvent d x hj, hx, Bool.or_true]
  · rw [hdiv, hmod, Dev.tb_of_f (d.f_softwareEvent x ⟨by decide, by decide⟩), he]
  · rw [hroute _ (Nat.le_of_ble_eq_true rfl) rfl, hk]
  · exact hroute _ (Nat.le_of_ble_eq_true rfl) rfl
  · exact Dev.bit_of_f (hroute _ (Nat.le_of_ble_eq_true rfl) rfl)

/-! ### The obligation -/

theorem Answers.of_routeWrite {s : State} {src : Src} {i : Fin 96} {w : Word} (hr : Reaches s src (Reg.EVT_ROUTE_at i.1)) {P : State → Prop}
    (hP : P (s.commit ((s.dev.answer 0).routeWrite src i.1 w.toNat))) : Answers (.routeWrite src i w) s P :=
  .of_done hr.1 (congrArg s.done (Dev.onWrite_unguarded hr.2 _)) hP

/-- Settles O53: routes and enables through the table's fields, one enable and one pending bit after another. -/
theorem eventsAreRouted : Obligations.EventsAreRouted := by
  unfold Obligations.EventsAreRouted
  refine ⟨fun s src i w hr => ⟨fun hsrc hk hok => ?_, fun h => ?_⟩, fun s src w x hr => ?_, fun s src w hr => ?_⟩
  · exact Answers.of_routeWrite hr (Dev.f_routeWrite (d := s.dev.answer 0) i hsrc hk hok)
  · have hkept : ∀ r : RF, r.lo < 32 → r.addr = Reg.EVT_ROUTE_at i.1 → ((s.dev.answer 0).routeWrite src i.1 w.toNat).f r = s.dev.f r :=
      fun r hl ha => by
        rw [Dev.routeWrite_refused (d := s.dev.answer 0) _ h]
        exact Dev.f_log_offReports _ _ _ _ _ (Reg.route_offReports hl ha)
    refine Answers.of_routeWrite hr ⟨?_, ?_, ?_⟩
    · exact hkept _ (Nat.le_of_ble_eq_true rfl) rfl
    · exact hkept _ (Nat.le_of_ble_eq_true rfl) rfl
    · exact hkept _ (Nat.le_of_ble_eq_true rfl) rfl
  · exact .of_done hr.1 (congrArg s.done (Dev.onWrite_unguarded hr.2 _)) fun j hj => (s.dev.answer 0).tb_enableWrite src w.2 x.toNat hj
  · refine .of_done hr.1 (congrArg s.done (Dev.onWrite_unguarded hr.2 _)) fun j hj => ⟨?_, fun hx he hk => ?_⟩
    · exact (s.dev.answer 0).tb_softwareEvent w.toNat hj
    · exact Dev.softwareEvent_line (d := s.dev.answer 0) hj hx he hk

end Sys2Proof.Machine
end

section
/-!
PROOF. Madder (R374-R386): what its functions de-energize stays so, and a cycle ends with nothing energized that a cause of stopping names.
-/

namespace Sys2Proof.Machine
open Sys2Proof

/-- What the step at one element establishes and every step keeps holds after a loop over a list with that element. -/
theorem foldl_establishes {σ α : Type} {I P : σ → Prop} {F : σ → α → σ} {a : α} (hI : ∀ d b, I d → I (F d b)) (hest : ∀ d, I d → P (F d a))
    (hkeep : ∀ d b, I d → P d → P (F d b)) : ∀ l : List α, a ∈ l → ∀ d, I d → P (l.foldl F d)
  | x :: l, ha, d, hd => by
    rw [List.foldl_cons]
    by_cases hx : a = x
    · subst hx
      have hrest := List.foldlRecOn l F (motive := fun e => I e ∧ P e) ⟨hI d a hd, hest d hd⟩ (fun e he b _ => ⟨hI e b he.1, hkeep e b he.1 he.2⟩)
      exact hrest.2
    · exact foldl_establishes hI hest hkeep l ((List.mem_cons.mp ha).resolve_left hx) _ (hI d x hd)

/-! ### Class B states in their field -/

/-- Two bits of an eight-bit field replaced. -/
theorem bits_replace_pair (f x : Nat) (hx : x < 4) (n m : Fin 4) :
    bits ((f - bits f (2 * n.1) 2 * 4 ^ n.1 + x * 4 ^ n.1) % 2 ^ 8) (2 * m.1) 2 = if m = n then x else bits f (2 * m.1) 2 := by
  unfold bits
  fin_cases n <;> fin_cases m <;> simp <;> omega

theorem Dev.setOb_regs (d : Dev) (n : Fin 4) (x : Nat) :
    (d.setOb n x).regs = (d.setF Reg.MAD_STAT_OB (d.f Reg.MAD_STAT_OB - d.ob n.1 * 4 ^ n.1 + x * 4 ^ n.1)).regs := by
  unfold Dev.setOb
  dsimp only
  split <;> rfl

theorem Dev.ob_setOb (d : Dev) (n m : Fin 4) {x : Nat} (hx : x < 4) : (d.setOb n x).ob m.1 = if m = n then x else d.ob m.1 := by
  unfold Dev.ob
  rw [Dev.f_of_regs (d.setOb_regs n x), Dev.f_setF_same]
  exact bits_replace_pair _ x hx n m

theorem Dev.f_setOb_off (d : Dev) (n : Fin 4) (x : Nat) {r : RF} (hl : r.lo < 32) (h : ¬(r.addr = Reg.MAD_STAT_at ∧ r.lo = 2)) :
    (d.setOb n x).f r = d.f r := by
  rw [Dev.f_of_regs (d.setOb_regs n x), Dev.f_setF_off _ _ (by decide) hl h]

/-! ### The SAFE auxiliary switches (R373) -/

/-- A field of the MADDER block. -/
def RF.AtMadder (r : RF) : Prop := r.lo < 32 ∧ 0x200C0000 ≤ r.addr

theorem Dev.setF_keepsMadder (d : Dev) {r : RF} (x : Nat) (hl : r.lo < 32) (n : Fin 24) (h : r.addr = Reg.AUX_CTL_at n.1 ∨ r.addr = Reg.AUX_NSTAT_at n.1) :
    Dev.Keeps RF.AtMadder d (d.setF r x) := by
  refine .setF (fun _ h => h.1) d x hl (fun r' hr' => ?_)
  obtain ⟨-, ha⟩ := hr'
  unfold Reg.AUX_CTL_at Reg.AUX_NSTAT_at at h
  omega

theorem Dev.auxStop_keepsMadder (d : Dev) (n : Fin 24) (dst : Nat) : Dev.Keeps RF.AtMadder d (d.auxStop n dst) := by
  have stat : ∀ (e : Dev) {r : RF} (x : Nat), r.lo < 32 → r.addr = Reg.AUX_NSTAT_at n → Dev.Keeps RF.AtMadder e (e.setF r x) :=
    fun e r x hl ha => Dev.setF_keepsMadder e x hl n (.inr ha)
  exact (((stat d (r := Reg.AUX_NSTAT_LIMIT n.1) 0 (Nat.le_of_ble_eq_true rfl) rfl).trans
    (stat _ (r := Reg.AUX_NSTAT_WARNED n.1) 0 (Nat.le_of_ble_eq_true rfl) rfl)).trans (Dev.modAux_keeps _ n _)).trans
    (stat _ (r := Reg.AUX_NSTAT_STATE n.1) _ (Nat.le_of_ble_eq_true rfl) rfl)

/-- One SAFE switch turned off. -/
def Dev.auxSafeStep (d : Dev) (n : Fin 24) : Dev :=
  match ((d.setF (Reg.AUX_CTL_ON n.1) 0).setF (Reg.AUX_NSTAT_HELD n.1) 0).auxSt n with
  | 1 | 2 => ((d.setF (Reg.AUX_CTL_ON n.1) 0).setF (Reg.AUX_NSTAT_HELD n.1) 0).auxStop n 0
  | 3 => ((d.setF (Reg.AUX_CTL_ON n.1) 0).setF (Reg.AUX_NSTAT_HELD n.1) 0).modAux n (fun a => { a with clampTo := if a.clampTo = 5 then 5 else 0 })
  | 4 => ((d.setF (Reg.AUX_CTL_ON n.1) 0).setF (Reg.AUX_NSTAT_HELD n.1) 0).setF (Reg.AUX_NSTAT_STATE n.1) 0
  | _ => (d.setF (Reg.AUX_CTL_ON n.1) 0).setF (Reg.AUX_NSTAT_HELD n.1) 0

theorem Dev.auxSafeOff_eq (d : Dev) : d.auxSafeOff =
    (List.finRange 24).foldl (fun d n => if d.bit (Reg.AUX_NCFG_SAFE n.1) then d.auxSafeStep n else d) d := rfl

theorem Dev.auxSafeStep_keepsMadder (d : Dev) (n : Fin 24) : Dev.Keeps RF.AtMadder d (d.auxSafeStep n) := by
  have ctl : Dev.Keeps RF.AtMadder d ((d.setF (Reg.AUX_CTL_ON n.1) 0).setF (Reg.AUX_NSTAT_HELD n.1) 0) :=
    (Dev.setF_keepsMadder _ _ (Nat.le_of_ble_eq_true rfl) n (.inl rfl)).trans (Dev.setF_keepsMadder _ _ (Nat.le_of_ble_eq_true rfl) n (.inr rfl))
  refine ctl.trans ?_
  unfold Dev.auxSafeStep
  split
  · exact Dev.auxStop_keepsMadder _ n 0
  · exact Dev.auxStop_keepsMadder _ n 0
  · exact .of_regs rfl
  · exact Dev.setF_keepsMadder _ _ (Nat.le_of_ble_eq_true rfl) n (.inr rfl)
  · exact .refl _

theorem Dev.auxSafeStep_same (d : Dev) (n : Fin 24) :
    (d.auxSafeStep n).mad = d.mad ∧ (d.auxSafeStep n).up = d.up ∧ (d.auxSafeStep n).sup = d.sup := by
  unfold Dev.auxSafeStep
  split <;> exact ⟨rfl, rfl, rfl⟩

theorem Dev.auxSafeOff_keepsMadder (d : Dev) : Dev.Keeps RF.AtMadder d d.auxSafeOff := by
  rw [Dev.auxSafeOff_eq]
  exact .foldl _ (fun e n _ => .ite (e.auxSafeStep_keepsMadder n) (.refl e)) d

theorem Dev.auxSafeOff_same (d : Dev) : d.auxSafeOff.mad = d.mad ∧ d.auxSafeOff.up = d.up ∧ d.auxSafeOff.sup = d.sup := by
  rw [Dev.auxSafeOff_eq]
  refine List.foldlRecOn _ _ (motive := fun e : Dev => e.mad = d.mad ∧ e.up = d.up ∧ e.sup = d.sup) ⟨rfl, rfl, rfl⟩ fun e ⟨hm, hu, hs⟩ n _ => ?_
  split
  · obtain ⟨hm', hu', hs'⟩ := e.auxSafeStep_same n
    exact ⟨hm'.trans hm, hu'.trans hu, hs'.trans hs⟩
  · exact ⟨hm, hu, hs⟩

/-! ### What Madder keeps from step to step -/

/-- From `d` to `e` the configuration in force, the clock, the supplies, the latest beat and what is still to be acted on are the same. -/
structure Dev.SameTasks (d e : Dev) : Prop where
  cfg : e.mad.cfgA = d.mad.cfgA
  beat : e.mad.beatAt = d.mad.beatAt
  acted : e.mad.hbActed = d.mad.hbActed
  req : e.mad.req = d.mad.req
  up : e.up = d.up
  sup : e.sup = d.sup

theorem Dev.SameTasks.refl (d : Dev) : Dev.SameTasks d d := ⟨rfl, rfl, rfl, rfl, rfl, rfl⟩

theorem Dev.SameTasks.trans {d e g : Dev} (h : Dev.SameTasks d e) (h' : Dev.SameTasks e g) : Dev.SameTasks d g :=
  ⟨h'.cfg.trans h.cfg, h'.beat.trans h.beat, h'.acted.trans h.acted, h'.req.trans h.req, h'.up.trans h.up, h'.sup.trans h.sup⟩

theorem Dev.SameTasks.of_mad {d e : Dev} (hm : e.mad = d.mad) (hu : e.up = d.up) (hs : e.sup = d.sup) : Dev.SameTasks d e :=
  ⟨by rw [hm], by rw [hm], by rw [hm], by rw [hm], hu, hs⟩

theorem Dev.SameTasks.ite {c : Prop} [Decidable c] {d a b : Dev} (ha : Dev.SameTasks d a) (hb : Dev.SameTasks d b) :
    Dev.SameTasks d (if c then a else b) := by
  split <;> assumption

theorem Dev.linkRaise_up (d : Dev) (r : RF) (m i : Nat) : (d.linkRaise r m i).up = d.up := by
  unfold Dev.linkRaise
  split
  · split <;> rfl
  · exact (Dev.raise_reports d r m i).up

theorem Dev.linkLog_up (d : Dev) (c s i x : Nat) : (d.linkLog c s i x).up = d.up := by
  unfold Dev.linkLog
  split
  · rfl
  · exact (Dev.log_same d c s i x).up

theorem Dev.madEvt_sameTasks (d : Dev) (r : RF) : Dev.SameTasks d (d.madEvt r) :=
  .of_mad ((Dev.linkLog_mad _ _ _ _ _).trans (Dev.linkRaise_mad _ _ _ _)) ((Dev.linkLog_up _ _ _ _ _).trans (Dev.linkRaise_up _ _ _ _))
    ((Dev.linkLog_sup _ _ _ _ _).trans (Dev.linkRaise_sup _ _ _ _))

/-- A report of the power die writes the event field it raises and the event block. -/
theorem Dev.f_linkRaise_off (d : Dev) {e r : RF} (m : Nat) {i : Nat} (hi : i < 4096) (hl : r.lo < 32) (he : e.lo < 32)
    (h : r.addr < 0x20004000 ∨ 0x20004800 ≤ r.addr) (hne : ¬(r.addr = e.addr ∧ r.lo = e.lo)) : (d.linkRaise e m i).f r = d.f r := by
  unfold Dev.linkRaise
  split
  · split
    · rfl
    · exact d.f_setF_off _ he hl hne
  · exact d.f_raise_off m hi hl he h hne

theorem Dev.f_linkLog_off (d : Dev) (c s i x : Nat) {r : RF} (hl : r.lo < 32) (h : r.addr < 0x20004000 ∨ 0x20004800 ≤ r.addr) :
    (d.linkLog c s i x).f r = d.f r := by
  unfold Dev.linkLog
  split
  · rfl
  · exact d.f_log_off c s i x hl h

/-- A Madder event writes its bit of MAD_EVT and the event block. -/
theorem Dev.f_madEvt_off (d : Dev) {e r : RF} (he : e.lo < 32) (hl : r.lo < 32) (h : r.addr < 0x20004000 ∨ 0x20004800 ≤ r.addr)
    (hne : ¬(r.addr = e.addr ∧ r.lo = e.lo)) : (d.madEvt e).f r = d.f r :=
  (Dev.f_linkLog_off _ _ _ _ _ hl h).trans (d.f_linkRaise_off 1 (by decide) hl he h hne)

/-- From `d` to `e` nothing has been energized or unlocked, and the demands stand as they did. -/
structure Dev.Calms (d e : Dev) : Prop where
  sf1 : e.sf1 = 2 → d.sf1 = 2
  ob : ∀ n : Fin 4, e.ob n.1 = 2 → d.ob n.1 = 2
  locked : ∀ n : Fin 4, d.ob n.1 = 3 → e.ob n.1 = 3
  demand : e.f Reg.MAD_IN_DEMAND = d.f Reg.MAD_IN_DEMAND

theorem Dev.Calms.refl (d : Dev) : Dev.Calms d d := ⟨id, fun _ => id, fun _ => id, rfl⟩

theorem Dev.Calms.trans {d e g : Dev} (h : Dev.Calms d e) (h' : Dev.Calms e g) : Dev.Calms d g :=
  ⟨fun hg => h.sf1 (h'.sf1 hg), fun n hg => h.ob n (h'.ob n hg), fun n hd => h'.locked n (h.locked n hd), h'.demand.trans h.demand⟩

theorem Dev.Calms.ite {c : Prop} [Decidable c] {d a b : Dev} (ha : Dev.Calms d a) (hb : Dev.Calms d b) : Dev.Calms d (if c then a else b) := by
  split <;> assumption

theorem Dev.Calms.of_f {d e : Dev} (h : ∀ r : RF, r = Reg.MAD_STAT_SF1 ∨ r = Reg.MAD_STAT_OB ∨ r = Reg.MAD_IN_DEMAND → e.f r = d.f r) :
    Dev.Calms d e := by
  have hs : e.sf1 = d.sf1 := h _ (.inl rfl)
  have ho : ∀ n, e.ob n = d.ob n := fun n => congrArg (fun x => bits x (2 * n) 2) (h _ (.inr (.inl rfl)))
  exact ⟨fun he => hs ▸ he, fun n he => ho n.1 ▸ he, fun n he => (ho n.1).trans he, h _ (.inr (.inr rfl))⟩

theorem Dev.Calms.of_regs {d e : Dev} (h : e.regs = d.regs) : Dev.Calms d e := .of_f fun r _ => Dev.f_of_regs h r

/-- A function that acts keeps what is still to be done and energizes nothing. -/
structure Dev.Rests (d e : Dev) : Prop where
  calms : Dev.Calms d e
  tasks : Dev.SameTasks d e

theorem Dev.Rests.refl (d : Dev) : Dev.Rests d d := ⟨.refl d, .refl d⟩
theorem Dev.Rests.trans {d e g : Dev} (h : Dev.Rests d e) (h' : Dev.Rests e g) : Dev.Rests d g := ⟨h.calms.trans h'.calms, h.tasks.trans h'.tasks⟩
theorem Dev.Rests.ite {c : Prop} [Decidable c] {d a b : Dev} (ha : Dev.Rests d a) (hb : Dev.Rests d b) : Dev.Rests d (if c then a else b) := by
  split <;> assumption
theorem Dev.Rests.foldl {α : Type} {F : Dev → α → Dev} (h : ∀ d x, Dev.Rests d (F d x)) (l : List α) (d : Dev) : Dev.Rests d (l.foldl F d) :=
  List.foldlRecOn l F (motive := Dev.Rests d) (.refl d) (fun e he x _ => he.trans (h e x))

theorem Dev.Rests.sf1_ne {d e : Dev} (h : Dev.Rests d e) (hd : d.sf1 ≠ 2) : e.sf1 ≠ 2 := fun he => hd (h.calms.sf1 he)
theorem Dev.Rests.ob_ne {d e : Dev} (h : Dev.Rests d e) {n : Fin 4} (hd : d.ob n.1 ≠ 2) : e.ob n.1 ≠ 2 := fun he => hd (h.calms.ob n he)

/-- The fields a function's state is read from. -/
theorem Reg.calmField {r : RF} (h : r = Reg.MAD_STAT_SF1 ∨ r = Reg.MAD_STAT_OB ∨ r = Reg.MAD_IN_DEMAND) : r.lo < 32 ∧
    (r.addr = Reg.MAD_STAT_at ∨ r.addr = Reg.MAD_IN_at) := by
  obtain rfl | rfl | rfl := h <;> decide

theorem Dev.madEvt_rests (d : Dev) {e : RF} (he : e.lo < 32) (ha : e.addr = Reg.MAD_EVT_at) : Dev.Rests d (d.madEvt e) := by
  refine ⟨.of_f fun r hr => ?_, d.madEvt_sameTasks e⟩
  obtain ⟨hl, hr⟩ := Reg.calmField hr
  have hE : Reg.MAD_EVT_at = 0x200C0008 := rfl
  have hS : Reg.MAD_STAT_at = 0x200C0000 := rfl
  have hI : Reg.MAD_IN_at = 0x200C0004 := rfl
  exact d.f_madEvt_off he hl (by omega) (fun hc => by omega)

theorem Dev.modMad_rests (d : Dev) {g : Mad → Mad} (h : ∀ m, (g m).cfgA = m.cfgA ∧ (g m).beatAt = m.beatAt ∧ (g m).hbActed = m.hbActed ∧
    (g m).req = m.req) : Dev.Rests d (d.modMad g) := by
  obtain ⟨h1, h2, h3, h4⟩ := h d.mad
  exact ⟨.of_regs rfl, h1, h2, h3, h4, rfl, rfl⟩

theorem Dev.discardPulse_rests (d : Dev) (hit : Fin 8 → Bool) : Dev.Rests d (d.discardPulse hit) := by
  unfold Dev.discardPulse
  split
  · exact .ite (d.modMad_rests fun _ => ⟨rfl, rfl, rfl, rfl⟩) (.refl d)
  · exact .refl d

theorem Dev.setOb_rests (d : Dev) (n : Fin 4) {x : Nat} (hx : x = 0 ∧ d.ob n.1 ≠ 3 ∨ x = 3) : Dev.Rests d (d.setOb n x) := by
  have hx4 : x < 4 := by omega
  have htasks : Dev.SameTasks d (d.setOb n x) := by
    unfold Dev.setOb
    exact .ite (.of_mad rfl rfl rfl) ⟨rfl, rfl, rfl, rfl, rfl, rfl⟩
  refine ⟨⟨fun h => ?_, fun m h => ?_, fun m h => ?_, ?_⟩, htasks⟩
  · exact (d.f_setOb_off n x (by decide) (by decide)).symm.trans h
  · rw [Dev.ob_setOb d n m hx4] at h
    split at h
    · omega
    · exact h
  · rw [Dev.ob_setOb d n m hx4]
    split
    next hm =>
      subst hm
      omega
    next => exact h
  · exact d.f_setOb_off n x (by decide) (by decide)

/-! ### SF1 (R374, R375) -/

/-- SF1's state and the safe stop as they show. -/
def Dev.showSf1 (d : Dev) (x : Nat) : Dev := (d.setF Reg.MAD_STAT_SF1 x).setB Reg.MAD_STAT_SAFE_STOP (x != 2)

theorem Dev.setSf1_eq (d : Dev) (x : Nat) : d.setSf1 x =
    if d.sf1 = 2 ∧ x ≠ 2 then ((d.showSf1 x).modMad (fun m => { m with told := false })).auxSafeOff else d.showSf1 x := rfl

theorem Dev.setSf1_cases (d : Dev) (x : Nat) : ∃ e, Dev.Keeps RF.AtMadder (d.showSf1 x) e ∧ d.setSf1 x = e ∧ Dev.SameTasks d e := by
  refine ⟨_, ?_, rfl, ?_⟩
  · rw [Dev.setSf1_eq]
    refine .ite (Dev.Keeps.trans ?_ (Dev.auxSafeOff_keepsMadder _)) (.refl _)
    exact .of_regs rfl
  · rw [Dev.setSf1_eq]
    refine .ite ?_ (.of_mad rfl rfl rfl)
    obtain ⟨hm, hu, hs⟩ := Dev.auxSafeOff_same ((d.showSf1 x).modMad (fun m => { m with told := false }))
    have htold : Dev.SameTasks d ((d.showSf1 x).modMad (fun m => { m with told := false })) := ⟨rfl, rfl, rfl, rfl, rfl, rfl⟩
    exact htold.trans (.of_mad hm hu hs)

theorem Dev.setSf1_sameTasks (d : Dev) (x : Nat) : Dev.SameTasks d (d.setSf1 x) := by
  obtain ⟨e, -, he, h⟩ := d.setSf1_cases x
  rw [he]
  exact h

theorem Dev.f_setSf1_off (d : Dev) (x : Nat) {r : RF} (hr : r.AtMadder) (h : ¬(r.addr = Reg.MAD_STAT_at ∧ (r.lo = 0 ∨ r.lo = 10))) :
    (d.setSf1 x).f r = d.f r := by
  obtain ⟨e, he, heq, -⟩ := d.setSf1_cases x
  unfold Dev.showSf1 at he
  rw [heq, he r hr, Dev.f_setB_off _ _ (by decide) hr.1 (fun hc => h ⟨hc.1, .inr hc.2⟩),
    Dev.f_setF_off _ _ (by decide) hr.1 (fun hc => h ⟨hc.1, .inl hc.2⟩)]

theorem Dev.sf1_setSf1 (d : Dev) (x : Nat) : (d.setSf1 x).sf1 = x % 4 := by
  obtain ⟨e, he, heq, -⟩ := d.setSf1_cases x
  unfold Dev.showSf1 at he
  unfold Dev.sf1
  rw [heq, he _ ⟨by decide, by decide⟩, Dev.f_setB_off _ _ (by decide) (by decide) (by decide), Dev.f_setF_same]
  rfl

theorem Dev.ob_setSf1 (d : Dev) (x n : Nat) : (d.setSf1 x).ob n = d.ob n :=
  congrArg (fun y => bits y (2 * n) 2) (d.f_setSf1_off x ⟨by decide, by decide⟩ (by decide))

theorem Dev.setSf1_rests (d : Dev) {x : Nat} (hx : x % 4 ≠ 2) : Dev.Rests d (d.setSf1 x) :=
  ⟨⟨fun h => absurd ((d.sf1_setSf1 x).symm.trans h) hx, fun n h => (d.ob_setSf1 x n.1).symm.trans h, fun n h => (d.ob_setSf1 x n.1).trans h,
    d.f_setSf1_off x ⟨by decide, by decide⟩ (by decide)⟩, d.setSf1_sameTasks x⟩

/-- The outputs of a mask that `c` singles out, none of them locked, stop. -/
theorem Dev.stopObs_rests (mask : Nat) {c : Dev → Fin 4 → Prop} [∀ d n, Decidable (c d n)] (hc : ∀ d n, c d n → d.ob n.1 ≠ 3) (d : Dev) :
    Dev.Rests d ((List.finRange 4).foldl (fun d n => if mask.testBit n.1 ∧ c d n then d.setOb n 0 else d) d) := by
  refine .foldl (fun e n => ?_) _ d
  split
  next h => exact e.setOb_rests n (.inl ⟨rfl, hc e n h.2⟩)
  next => exact .refl e

/-- SF1 stops where it tests or is energized. -/
def Dev.stopSf1 (d : Dev) : Dev := if d.sf1 = 1 ∨ d.sf1 = 2 then d.setSf1 0 else d

/-- A re-arm sequence is abandoned, its outputs stopped. -/
def Dev.abandonRearm (d : Dev) : Dev :=
  match d.mad.rearm with
  | some (_, mask) =>
    let d := (List.finRange 4).foldl (fun d n => if mask.testBit n.1 ∧ d.ob n.1 = 2 then d.setOb n 0 else d) d
    (d.modMad (fun m => { m with rearm := none })).discardPulse (fun o => 4 ≤ o.1 && mask.testBit (o.1 - 4))
  | none => d

theorem Dev.actSf1_eq (d : Dev) : d.actSf1 = ((d.discardPulse (fun o => o.1 < 4)).stopSf1).abandonRearm := rfl

theorem Dev.stopSf1_rests (d : Dev) : Dev.Rests d d.stopSf1 := .ite (d.setSf1_rests (by decide)) (.refl d)

theorem Dev.stopSf1_stops (d : Dev) : d.stopSf1.sf1 ≠ 2 := by
  unfold Dev.stopSf1
  split
  next => rw [Dev.sf1_setSf1]; decide
  next h => exact fun hc => h (.inr hc)

theorem Dev.abandonRearm_rests (d : Dev) : Dev.Rests d d.abandonRearm := by
  unfold Dev.abandonRearm
  split
  next mask _ =>
    have hstop := Dev.stopObs_rests mask (c := fun d n => d.ob n.1 = 2) (fun d n h => by omega) d
    have hmad : ∀ e : Dev, Dev.Rests e (e.modMad (fun m => { m with rearm := none })) := fun e => e.modMad_rests fun _ => ⟨rfl, rfl, rfl, rfl⟩
    exact (hstop.trans (hmad _)).trans (Dev.discardPulse_rests _ _)
  next => exact .refl _

theorem Dev.actSf1_rests (d : Dev) : Dev.Rests d d.actSf1 :=
  ((d.discardPulse_rests _).trans (Dev.stopSf1_rests _)).trans (Dev.abandonRearm_rests _)

/-- Once SF1 has acted, it is not energized. -/
theorem Dev.actSf1_stops (d : Dev) : d.actSf1.sf1 ≠ 2 := (Dev.abandonRearm_rests _).sf1_ne (Dev.stopSf1_stops _)

/-! ### SF2 (R374) -/

theorem Dev.actSf2_rests (d : Dev) (mask : Nat) : Dev.Rests d (d.actSf2 mask) :=
  ((d.discardPulse_rests _).trans (Dev.stopObs_rests mask (c := fun d n => d.ob n.1 = 1 ∨ d.ob n.1 = 2) (fun d n h => by omega) _)).trans
    (Dev.actSf1_rests _)

theorem Dev.actSf2_sf1 (d : Dev) (mask : Nat) : (d.actSf2 mask).sf1 ≠ 2 := Dev.actSf1_stops _

/-- The outputs SF2 names are not energized once it has acted. -/
theorem Dev.actSf2_ob (d : Dev) {mask : Nat} {n : Fin 4} (h : mask.testBit n.1 = true) : (d.actSf2 mask).ob n.1 ≠ 2 := by
  refine (Dev.actSf1_rests _).ob_ne ?_
  refine foldl_establishes (I := fun _ => True) (P := fun e : Dev => e.ob n.1 ≠ 2) (fun _ _ _ => trivial) (fun e _ => ?_) (fun e m _ he => ?_)
    (List.finRange 4) (List.mem_finRange n) _ trivial
  · split
    next => rw [Dev.ob_setOb e n n (by decide), if_pos rfl]; decide
    next hc => exact fun h2 => hc ⟨h, .inr h2⟩
  · split
    next hc => exact (e.setOb_rests m (.inl ⟨rfl, by omega⟩)).ob_ne he
    next => exact he

/-! ### The parts of a cycle (R375-R388) -/

theorem Dev.failOut_rests (d : Dev) (o : Fin 8) : Dev.Rests d (d.failOut o) := by
  have hcount : Dev.Rests d (d.bump Reg.MAD_CNT_TEST_FAIL_COUNT) := by
    refine ⟨.of_f fun r hr => ?_, .of_mad rfl rfl rfl⟩
    obtain ⟨hl, hr⟩ := Reg.calmField hr
    refine Dev.f_bump_off _ _ (by decide) hl (fun hc => ?_)
    obtain h | h := hr <;> exact absurd (h.symm.trans hc.1) (by decide)
  have hflt : ∀ e : Dev, Dev.Rests e (e.setTb Reg.MAD_STAT_SOA_FLT o.1 true) := fun e => by
    refine ⟨.of_f fun r hr => ?_, .of_mad rfl rfl rfl⟩
    obtain rfl | rfl | rfl := hr <;> exact Dev.f_setTb_off _ _ _ (by decide) (by decide) (by decide)
  have hset : ∀ e : Dev, Dev.Rests e (e.setSf1 3) := fun e => e.setSf1_rests (by decide)
  unfold Dev.failOut
  refine Dev.Rests.trans (hcount.trans ?_) (Dev.madEvt_rests _ (by decide) rfl)
  split
  · exact Dev.setOb_rests _ _ (.inr rfl)
  · exact ((hflt _).trans (Dev.actSf1_rests _)).trans (hset _)

theorem Dev.fbCheck_rests (d : Dev) (n : Fin 4) : Dev.Rests d (d.fbCheck n) := by
  unfold Dev.fbCheck
  exact .ite (((d.setOb_rests n (.inr rfl)).trans (Dev.actSf1_rests _)).trans (Dev.madEvt_rests _ (by decide) rfl)) (.refl d)

theorem Dev.madDemand_rests (d : Dev) (n : Fin 8) : Dev.Rests d (if d.tb Reg.MAD_IN_DEMAND n.1 then
    if bits (d.mcfg n.1) 17 4 ≠ 0 then d.actSf2 (bits (d.mcfg n.1) 17 4) else if (d.mcfg n.1).testBit 16 then d.actSf1 else d
    else d) :=
  .ite (.ite (d.actSf2_rests _) (.ite d.actSf1_rests (.refl d))) (.refl d)

theorem Dev.madDemands_rests (d : Dev) : Dev.Rests d d.madDemands := .foldl (fun e n => e.madDemand_rests n) _ d

theorem Dev.Rests.mcfg {d e : Dev} (h : Dev.Rests d e) (i : Nat) : e.mcfg i = d.mcfg i := congrArg (fun l => l.getD i 0) h.tasks.cfg

theorem Dev.Rests.demanded {d e : Dev} (h : Dev.Rests d e) (i : Nat) : e.tb Reg.MAD_IN_DEMAND i = d.tb Reg.MAD_IN_DEMAND i :=
  Dev.tb_of_f h.calms.demand i

/-- A standing demand has what its input names stopped. -/
theorem Dev.madDemands_stop {d : Dev} {i : Fin 8} (hd : d.tb Reg.MAD_IN_DEMAND i.1 = true) :
    ((d.mcfg i.1).testBit 16 = true ∨ bits (d.mcfg i.1) 17 4 ≠ 0 → d.madDemands.sf1 ≠ 2) ∧
      ∀ n : Fin 4, (bits (d.mcfg i.1) 17 4).testBit n.1 = true → d.madDemands.ob n.1 ≠ 2 := by
  refine foldl_establishes (I := Dev.Rests d)
    (P := fun e : Dev => ((d.mcfg i.1).testBit 16 = true ∨ bits (d.mcfg i.1) 17 4 ≠ 0 → e.sf1 ≠ 2) ∧
      ∀ n : Fin 4, (bits (d.mcfg i.1) 17 4).testBit n.1 = true → e.ob n.1 ≠ 2)
    (fun e m he => he.trans (e.madDemand_rests m)) (fun e he => ?_) (fun e m _ hP => ?_) (List.finRange 8) (List.mem_finRange i) d (.refl d)
  · rw [if_pos ((he.demanded i.1).trans hd), he.mcfg i.1]
    by_cases hb : bits (d.mcfg i.1) 17 4 = 0
    · rw [if_neg (fun h => h hb), hb]
      refine ⟨fun h => ?_, fun n hn => absurd hn (by rw [Nat.zero_testBit]; decide)⟩
      rw [if_pos (h.resolve_right (fun h => h rfl))]
      exact e.actSf1_stops
    · rw [if_pos hb]
      exact ⟨fun _ => e.actSf2_sf1 _, fun n hn => e.actSf2_ob hn⟩
  · exact ⟨fun h => (e.madDemand_rests m).sf1_ne (hP.1 h), fun n hn => (e.madDemand_rests m).ob_ne (hP.2 n hn)⟩

/-- The filtered levels of an input pair as they show. -/
def Dev.madFiltered (d : Dev) (n : Fin 8) (ins : Vector MadIn 16) (a b : Bool) : Dev :=
  ((d.modMad (fun m => { m with ins := ins })).setTb Reg.MAD_IN_A n.1 a).setTb Reg.MAD_IN_B n.1 b

/-- How an input pair is judged: its discrepancy, its demand and how long its channels have differed. -/
def Dev.madJudged (d : Dev) (n : Fin 8) (diff : Vector (Option Nat) 8) (disc : Vector Nat 8) (demand apart : Bool) : Dev :=
  ((d.modMad (fun m => { m with diff := diff, disc := disc })).setTb Reg.MAD_IN_DEMAND n.1 demand).setTb Reg.MAD_IN_DISC n.1 apart

theorem Dev.madFiltered_sameTasks (d : Dev) (n : Fin 8) (ins : Vector MadIn 16) (a b : Bool) : Dev.SameTasks d (d.madFiltered n ins a b) :=
  ⟨rfl, rfl, rfl, rfl, rfl, rfl⟩

theorem Dev.madJudged_sameTasks (d : Dev) (n : Fin 8) (diff : Vector (Option Nat) 8) (disc : Vector Nat 8) (demand apart : Bool) :
    Dev.SameTasks d (d.madJudged n diff disc demand apart) := ⟨rfl, rfl, rfl, rfl, rfl, rfl⟩

theorem Dev.madInput_cases (d : Dev) (n : Fin 8) (a b : Bool) : ∃ ins fa fb diff disc demand apart,
    d.madInput n a b = ((d.madFiltered n ins fa fb).madJudged n diff disc demand apart) ∨ ∃ (p q : Prop) (_ : Decidable p) (_ : Decidable q),
      d.madInput n a b = (fun e : Dev => if p then e.madEvt Reg.MAD_EVT_DEMAND else e)
        ((fun e : Dev => if q then e.madEvt Reg.MAD_EVT_DISC else e) ((d.madFiltered n ins fa fb).madJudged n diff disc demand apart)) := by
  unfold Dev.madInput
  extract_lets w ia ib hold xa xb d1 d2 d3 since late old stage d4 demand fresh d5 d6
  split
  · exact ⟨put (put d.mad.ins ia xa) ib xb, xa.filt, xb.filt, put d.mad.diff n none, put d.mad.disc n 0, false, false, .inl rfl⟩
  · exact ⟨_, xa.filt, xb.filt, _, _, demand, stage != 0, .inr ⟨_, _, _, _, rfl⟩⟩

theorem Dev.madInput_sameTasks (d : Dev) (n : Fin 8) (a b : Bool) : Dev.SameTasks d (d.madInput n a b) := by
  have hevt : ∀ (c : Prop) [Decidable c] (e : Dev) r, Dev.SameTasks e (if c then e.madEvt r else e) := fun _ _ e r =>
    .ite (e.madEvt_sameTasks r) (.refl e)
  obtain ⟨ins, fa, fb, diff, disc, demand, apart, h | ⟨p, q, _, _, h⟩⟩ := d.madInput_cases n a b
  · rw [h]
    exact (d.madFiltered_sameTasks _ _ _ _).trans (Dev.madJudged_sameTasks _ _ _ _ _ _)
  · rw [h]
    exact (((d.madFiltered_sameTasks _ _ _ _).trans (Dev.madJudged_sameTasks _ _ _ _ _ _)).trans (hevt q _ _)).trans (hevt p _ _)

/-! ### Heartbeat, request, supply (R377, R384, R386) -/

theorem Dev.setF_hbOk_rests (d : Dev) : Dev.Rests d (d.setF Reg.MAD_STAT_HB_OK 0) := by
  refine ⟨.of_f fun r hr => ?_, .of_mad rfl rfl rfl⟩
  obtain rfl | rfl | rfl := hr <;> exact Dev.f_setF_off _ _ (by decide) (by decide) (by decide)

theorem Dev.setActed_calms (d : Dev) (b : Bool) : Dev.Calms d (d.modMad (fun m => { m with hbActed := b })) := .of_regs rfl

theorem Dev.hbCheck_due {d : Dev} (h : d.mad.beatAt.getD 0 + d.hbTo ≤ d.up) (ha : d.mad.hbActed = false) : d.hbCheck =
    (((d.setF Reg.MAD_STAT_HB_OK 0).actSf2 0xF).modMad (fun m => { m with hbActed := true })).madEvt Reg.MAD_EVT_HB_LOST := by
  unfold Dev.hbCheck
  rw [if_pos h]
  exact if_neg (by rw [show (d.setF Reg.MAD_STAT_HB_OK 0).mad.hbActed = d.mad.hbActed from rfl, ha]; decide)

theorem Dev.hbCheck_calms (d : Dev) : Dev.Calms d d.hbCheck := by
  unfold Dev.hbCheck
  refine .ite ?_ (d.setActed_calms false)
  refine .ite d.setF_hbOk_rests.calms ?_
  exact ((d.setF_hbOk_rests.calms.trans (Dev.actSf2_rests _ _).calms).trans (Dev.setActed_calms _ true)).trans
    (Dev.madEvt_rests _ (by decide) rfl).calms

/-- The heartbeat timeout leaves a pending request, the supplies and the configuration as they are. -/
theorem Dev.hbCheck_keeps (d : Dev) : d.hbCheck.mad.req = d.mad.req ∧ d.hbCheck.sup = d.sup ∧ d.hbCheck.mad.cfgA = d.mad.cfgA := by
  unfold Dev.hbCheck
  split
  · dsimp only
    split
    · exact ⟨rfl, rfl, rfl⟩
    · have hact : Dev.Rests d ((d.setF Reg.MAD_STAT_HB_OK 0).actSf2 0xF) := d.setF_hbOk_rests.trans (Dev.actSf2_rests _ _)
      have hevt := Dev.madEvt_sameTasks (((d.setF Reg.MAD_STAT_HB_OK 0).actSf2 0xF).modMad (fun m => { m with hbActed := true })) Reg.MAD_EVT_HB_LOST
      exact ⟨hevt.req.trans hact.tasks.req, hevt.sup.trans hact.tasks.sup, hevt.cfg.trans hact.tasks.cfg⟩
  · exact ⟨rfl, rfl, rfl⟩

/-- All outputs are down. -/
def Dev.AllDown (d : Dev) : Prop := d.sf1 ≠ 2 ∧ ∀ n : Fin 4, d.ob n.1 ≠ 2

theorem Dev.Calms.allDown {d e : Dev} (h : Dev.Calms d e) (hd : d.AllDown) : e.AllDown :=
  ⟨fun he => hd.1 (h.sf1 he), fun n he => hd.2 n (h.ob n he)⟩

theorem Dev.actSf2_allDown (d : Dev) : (d.actSf2 0xF).AllDown :=
  ⟨d.actSf2_sf1 _, fun n => d.actSf2_ob (by revert n; decide)⟩

theorem Dev.hbCheck_allDown {d : Dev} (h : d.mad.beatAt.getD 0 + d.hbTo ≤ d.up) (ha : d.mad.hbActed = false) : d.hbCheck.AllDown := by
  rw [Dev.hbCheck_due h ha]
  exact ((Dev.setActed_calms _ true).trans (Dev.madEvt_rests _ (by decide) rfl).calms).allDown (Dev.actSf2_allDown _)

theorem Dev.madRequest_none {d : Dev} (h : d.mad.req = none) : d.madRequest = d := by
  unfold Dev.madRequest
  rw [h]

theorem Dev.madRequest_some {d : Dev} {m : Nat} (h : d.mad.req = some m) :
    d.madRequest = ((d.actSf2 m).modMad (fun x => { x with req := none })).madEvt Reg.MAD_EVT_REQ := by
  unfold Dev.madRequest
  rw [h]

/-- A request is spent, and what it names is down. -/
theorem Dev.madRequest_acts (d : Dev) : Dev.Calms d d.madRequest ∧ d.madRequest.mad.req = none ∧ d.madRequest.sup = d.sup ∧
    ∀ m, d.mad.req = some m → d.madRequest.sf1 ≠ 2 ∧ ∀ n : Fin 4, m.testBit n.1 = true → d.madRequest.ob n.1 ≠ 2 := by
  cases h : d.mad.req with
  | none =>
    rw [Dev.madRequest_none h]
    exact ⟨.refl d, h, rfl, fun m hm => by cases hm⟩
  | some m =>
    have hevt := Dev.madEvt_rests ((d.actSf2 m).modMad (fun x => { x with req := none })) (e := Reg.MAD_EVT_REQ) (by decide) rfl
    have hspent : Dev.Calms (d.actSf2 m) ((d.actSf2 m).modMad (fun x => { x with req := none })) := .of_regs rfl
    have hact := d.actSf2_rests m
    rw [Dev.madRequest_some h]
    refine ⟨(hact.calms.trans hspent).trans hevt.calms, hevt.tasks.req, hevt.tasks.sup.trans hact.tasks.sup, fun m' hm' => ?_⟩
    obtain rfl := Option.some.inj hm'
    exact ⟨fun he => d.actSf2_sf1 m ((hspent.trans hevt.calms).sf1 he), fun n hn he => d.actSf2_ob hn ((hspent.trans hevt.calms).ob n he)⟩

/-! ### A whole cycle -/

/-- The inputs of a cycle filtered and judged, and the feedbacks taken. -/
def Dev.madInputs (d : Dev) (a b fb : Nat) : Dev :=
  ((List.finRange 8).foldl (fun d n => d.madInput n (a.testBit n.1) (b.testBit n.1)) d).setF Reg.MAD_STAT_FB fb

/-- The supply monitor of a cycle. -/
def Dev.madSupply (d : Dev) : Dev := if d.sup.vaux then d else d.actSf2 0xF

/-- The readbacks and the feedbacks of a cycle. -/
def Dev.madReadback (d : Dev) (rb : Nat) : Dev :=
  (List.finRange 4).foldl (fun d n => d.fbCheck n) ((List.finRange 8).foldl (fun d o =>
    let on := if o.1 < 4 then d.sf1 == 2 else d.ob (o.1 - 4) == 2
    let pulsed := match d.mad.pulse with | some p => p.out == o | none => false
    let locked := if o.1 < 4 then d.tb Reg.MAD_STAT_SOA_FLT o.1 else d.ob (o.1 - 4) == 3
    if rb.testBit o.1 && (on || !locked) && !pulsed then d.failOut o else d) d)

theorem Dev.madCycle_eq (d : Dev) (a b fb rb : Nat) :
    d.madCycle a b fb rb = ((d.madInputs a b fb).madDemands.hbCheck.madRequest.madSupply).madReadback rb := rfl

theorem Dev.madInputs_sameTasks (d : Dev) (a b fb : Nat) : Dev.SameTasks d (d.madInputs a b fb) := by
  have hins : Dev.SameTasks d ((List.finRange 8).foldl (fun d n => d.madInput n (a.testBit n.1) (b.testBit n.1)) d) :=
    List.foldlRecOn _ _ (motive := Dev.SameTasks d) (.refl d) (fun e he n _ => he.trans (e.madInput_sameTasks n _ _))
  exact hins.trans (.of_mad rfl rfl rfl)

theorem Dev.madSupply_rests (d : Dev) : Dev.Rests d d.madSupply := .ite (.refl d) (d.actSf2_rests _)

theorem Dev.madReadback_rests (d : Dev) (rb : Nat) : Dev.Rests d (d.madReadback rb) :=
  (Dev.Rests.foldl (fun e o => .ite (e.failOut_rests o) (.refl e)) (List.finRange 8) d).trans
    (.foldl (fun e n => e.fbCheck_rests n) (List.finRange 4) _)

theorem Dev.madCycle_safe (d : Dev) (a b fb rb : Nat) :
    (d.sup.vaux = false → (d.madCycle a b fb rb).AllDown) ∧
    (d.mad.beatAt.getD 0 + d.hbTo ≤ d.up → d.mad.hbActed = false → (d.madCycle a b fb rb).AllDown) ∧
    (∀ m, d.mad.req = some m → (d.madCycle a b fb rb).mad.req = none ∧ (d.madCycle a b fb rb).sf1 ≠ 2 ∧
      ∀ n : Fin 4, m.testBit n.1 = true → (d.madCycle a b fb rb).ob n.1 ≠ 2) ∧
    (∀ i : Fin 8, (d.madCycle a b fb rb).tb Reg.MAD_IN_DEMAND i.1 = true →
      ((d.mcfg i.1).testBit 16 = true ∨ bits (d.mcfg i.1) 17 4 ≠ 0 → (d.madCycle a b fb rb).sf1 ≠ 2) ∧
      ∀ n : Fin 4, (bits (d.mcfg i.1) 17 4).testBit n.1 = true → (d.madCycle a b fb rb).ob n.1 ≠ 2) := by
  have hin := d.madInputs_sameTasks a b fb
  have hdem := (d.madInputs a b fb).madDemands_rests
  have htasks := hin.trans hdem.tasks
  have hhb := (d.madInputs a b fb).madDemands.hbCheck_calms
  obtain ⟨hreq, hsup, -⟩ := (d.madInputs a b fb).madDemands.hbCheck_keeps
  obtain ⟨hrqCalms, hrqNone, hrqSup, hrqDown⟩ := (d.madInputs a b fb).madDemands.hbCheck.madRequest_acts
  have hsupply := (d.madInputs a b fb).madDemands.hbCheck.madRequest.madSupply_rests
  have hback := (d.madInputs a b fb).madDemands.hbCheck.madRequest.madSupply.madReadback_rests rb
  have hlast := hsupply.trans hback
  rw [Dev.madCycle_eq]
  refine ⟨fun hv => ?_, fun ht ha => ?_, fun m hm => ?_, fun i hi => ?_⟩
  · have hvaux : (d.madInputs a b fb).madDemands.hbCheck.madRequest.sup.vaux = false := by rw [hrqSup, hsup, htasks.sup, hv]
    have hoff : (d.madInputs a b fb).madDemands.hbCheck.madRequest.madSupply =
        (d.madInputs a b fb).madDemands.hbCheck.madRequest.actSf2 0xF := if_neg (by rw [hvaux]; decide)
    refine hback.calms.allDown ?_
    rw [hoff]
    exact Dev.actSf2_allDown _
  · have hto : (d.madInputs a b fb).madDemands.hbTo = d.hbTo := by
      unfold Dev.hbTo Dev.mcfg
      rw [htasks.cfg]
    refine (hrqCalms.trans hlast.calms).allDown (Dev.hbCheck_allDown ?_ (htasks.acted.trans ha))
    rw [htasks.beat, htasks.up, hto]
    exact ht
  · obtain ⟨hs, ho⟩ := hrqDown m (hreq.trans (htasks.req.trans hm))
    exact ⟨hlast.tasks.req.trans hrqNone, hlast.sf1_ne hs, fun n hn => hlast.ob_ne (ho n hn)⟩
  · have hafter : Dev.Calms (d.madInputs a b fb).madDemands
        ((d.madInputs a b fb).madDemands.hbCheck.madRequest.madSupply.madReadback rb) := (hhb.trans hrqCalms).trans hlast.calms
    have hstand : (d.madInputs a b fb).tb Reg.MAD_IN_DEMAND i.1 = true :=
      ((hdem.demanded i.1).symm.trans (Dev.tb_of_f hafter.demand i.1).symm).trans hi
    obtain ⟨hs, ho⟩ := Dev.madDemands_stop hstand
    have hcfg : (d.madInputs a b fb).mcfg i.1 = d.mcfg i.1 := congrArg (fun l => l.getD i.1 0) hin.cfg
    rw [hcfg] at hs ho
    exact ⟨fun h he => hs h (hafter.sf1 he), fun n hn he => ho n hn (hafter.ob n he)⟩

/-! ### HB_LOST, supply faults, feedback faults -/

/-- A field of the MADDER block that no function's action writes. -/
def RF.OffFunctions (r : RF) : Prop := r.AtMadder ∧ ¬(r.addr = Reg.MAD_STAT_at ∧ (r.lo = 0 ∨ r.lo = 2 ∨ r.lo = 10))

theorem Dev.setOb_keeps (d : Dev) (n : Fin 4) (x : Nat) : Dev.Keeps RF.OffFunctions d (d.setOb n x) := fun _ hr =>
  d.f_setOb_off n x hr.1.1 (fun hc => hr.2 ⟨hc.1, .inr (.inl hc.2)⟩)

theorem Dev.setSf1_keeps (d : Dev) (x : Nat) : Dev.Keeps RF.OffFunctions d (d.setSf1 x) := fun _ hr =>
  d.f_setSf1_off x hr.1 (fun hc => hr.2 ⟨hc.1, hc.2.elim .inl (fun h => .inr (.inr h))⟩)

theorem Dev.discardPulse_keeps (d : Dev) (hit : Fin 8 → Bool) : Dev.Keeps RF.OffFunctions d (d.discardPulse hit) := by
  unfold Dev.discardPulse
  split
  · exact .ite (.of_regs rfl) (.refl d)
  · exact .refl d

theorem Dev.stopObs_keeps (mask : Nat) (c : Dev → Fin 4 → Prop) [∀ d n, Decidable (c d n)] (d : Dev) :
    Dev.Keeps RF.OffFunctions d ((List.finRange 4).foldl (fun d n => if mask.testBit n.1 ∧ c d n then d.setOb n 0 else d) d) :=
  .foldl _ (fun e n _ => .ite (e.setOb_keeps n 0) (.refl e)) d

theorem Dev.abandonRearm_keeps (d : Dev) : Dev.Keeps RF.OffFunctions d d.abandonRearm := by
  unfold Dev.abandonRearm
  split
  next mask _ =>
    have hmad : ∀ e : Dev, Dev.Keeps RF.OffFunctions e (e.modMad (fun m => { m with rearm := none })) := fun e => .of_regs rfl
    exact ((Dev.stopObs_keeps mask (fun d n => d.ob n.1 = 2) d).trans (hmad _)).trans (Dev.discardPulse_keeps _ _)
  next => exact .refl _

theorem Dev.actSf1_keeps (d : Dev) : Dev.Keeps RF.OffFunctions d d.actSf1 :=
  ((d.discardPulse_keeps _).trans (.ite (Dev.setSf1_keeps _ 0) (.refl _))).trans (Dev.abandonRearm_keeps _)

theorem Dev.actSf2_keeps (d : Dev) (mask : Nat) : Dev.Keeps RF.OffFunctions d (d.actSf2 mask) :=
  ((d.discardPulse_keeps _).trans (Dev.stopObs_keeps mask (fun d n => d.ob n.1 = 1 ∨ d.ob n.1 = 2) _)).trans (Dev.actSf1_keeps _)

theorem Dev.madEvt_mad (d : Dev) (r : RF) : (d.madEvt r).mad = d.mad := (Dev.linkLog_mad _ _ _ _ _).trans (Dev.linkRaise_mad _ _ _ _)

theorem Dev.hbCheck_lost {d : Dev} (h : d.mad.beatAt.getD 0 + d.hbTo ≤ d.up) (ha : d.mad.hbActed = false) :
    d.hbCheck.bit Reg.MAD_STAT_HB_OK = false ∧ d.hbCheck.mad.hbActed = true ∧ d.hbCheck.AllDown := by
  refine ⟨?_, ?_, Dev.hbCheck_allDown h ha⟩
  · rw [Dev.hbCheck_due h ha, Dev.bit_of_f (Dev.f_madEvt_off _ (by decide) (by decide) (by decide) (by decide))]
    exact (Dev.bit_of_f (Dev.actSf2_keeps _ _ _ ⟨⟨by decide, by decide⟩, by decide⟩)).trans (Dev.bit_setF_zero _ _)
  · rw [Dev.hbCheck_due h ha, Dev.madEvt_mad]
    rfl

/-- Every output locked. -/
def Dev.lockAll (d : Dev) : Dev := (List.finRange 4).foldl (fun d n => d.setOb n 3) ((d.actSf2 0xF).setSf1 3)

theorem Dev.lockAll_sf1 (d : Dev) : d.lockAll.sf1 = 3 :=
  (List.foldlRecOn _ _ (motive := fun e : Dev => e.sf1 = ((d.actSf2 0xF).setSf1 3).sf1) rfl
    (fun e he n _ => (e.f_setOb_off n 3 (by decide) (by decide)).trans he)).trans (Dev.sf1_setSf1 _ 3)

theorem Dev.lockAll_ob (d : Dev) (n : Fin 4) : d.lockAll.ob n.1 = 3 :=
  foldl_establishes (I := fun _ => True) (P := fun e : Dev => e.ob n.1 = 3) (fun _ _ _ => trivial)
    (fun e _ => by rw [Dev.ob_setOb e n n (by decide), if_pos rfl]) (fun e m _ he => (e.setOb_rests m (.inr rfl)).calms.locked n he)
    (List.finRange 4) (List.mem_finRange n) _ trivial

theorem Dev.madFault_eq (d : Dev) (c : MadFault) : d.madFault c = match c with
    | .rail | .oscillator => ((d.lockAll.modMad (fun m => { m with hard := true })).setF Reg.MAD_STAT_SUP_OK 0).madEvt Reg.MAD_EVT_SUP
    | .copies => (d.lockAll.modMad (fun m => { m with hard := true })).setF Reg.MAD_STAT_CFG_OK 0 := by
  cases c <;> rfl

theorem Dev.supFault_locks (e : Dev) (hs : e.sf1 = 3) (ho : ∀ n : Fin 4, e.ob n.1 = 3) (hh : e.mad.hard = true) :
    ((e.setF Reg.MAD_STAT_SUP_OK 0).madEvt Reg.MAD_EVT_SUP).sf1 = 3 ∧
    (∀ n : Fin 4, ((e.setF Reg.MAD_STAT_SUP_OK 0).madEvt Reg.MAD_EVT_SUP).ob n.1 = 3) ∧
    ((e.setF Reg.MAD_STAT_SUP_OK 0).madEvt Reg.MAD_EVT_SUP).mad.hard = true ∧
    ((e.setF Reg.MAD_STAT_SUP_OK 0).madEvt Reg.MAD_EVT_SUP).bit Reg.MAD_STAT_SUP_OK = false := by
  have hoff : ∀ r : RF, r.lo < 32 → r.addr = Reg.MAD_STAT_at →
      ((e.setF Reg.MAD_STAT_SUP_OK 0).madEvt Reg.MAD_EVT_SUP).f r = (e.setF Reg.MAD_STAT_SUP_OK 0).f r := fun r hl ha =>
    Dev.f_madEvt_off _ (by decide) hl (by rw [ha]; decide) (by rw [ha]; exact fun hc => absurd hc.1 (by decide))
  refine ⟨?_, fun n => ?_, ?_, ?_⟩
  · unfold Dev.sf1
    rw [hoff _ (by decide) rfl, Dev.f_setF_off _ _ (by decide) (by decide) (by decide)]
    exact hs
  · unfold Dev.ob
    rw [hoff _ (by decide) rfl, Dev.f_setF_off _ _ (by decide) (by decide) (by decide)]
    exact ho n
  · rw [Dev.madEvt_mad]
    exact hh
  · rw [Dev.bit_of_f (hoff _ (by decide) rfl)]
    exact Dev.bit_setF_zero _ _

theorem Dev.cfgFault_locks (e : Dev) (hs : e.sf1 = 3) (ho : ∀ n : Fin 4, e.ob n.1 = 3) (hh : e.mad.hard = true) :
    (e.setF Reg.MAD_STAT_CFG_OK 0).sf1 = 3 ∧ (∀ n : Fin 4, (e.setF Reg.MAD_STAT_CFG_OK 0).ob n.1 = 3) ∧
    (e.setF Reg.MAD_STAT_CFG_OK 0).mad.hard = true ∧ (e.setF Reg.MAD_STAT_CFG_OK 0).bit Reg.MAD_STAT_CFG_OK = false := by
  refine ⟨?_, fun n => ?_, hh, Dev.bit_setF_zero _ _⟩
  · exact (Dev.f_setF_off _ _ (by decide) (by decide) (by decide)).trans hs
  · unfold Dev.ob
    rw [Dev.f_setF_off _ _ (by decide) (by decide) (by decide)]
    exact ho n

theorem Dev.madFault_locks (d : Dev) (c : MadFault) : (d.madFault c).sf1 = 3 ∧ (∀ n : Fin 4, (d.madFault c).ob n.1 = 3) ∧
    (d.madFault c).mad.hard = true ∧
    (d.madFault c).bit (match c with | .rail | .oscillator => Reg.MAD_STAT_SUP_OK | .copies => Reg.MAD_STAT_CFG_OK) = false := by
  have hs : (d.lockAll.modMad (fun m => { m with hard := true })).sf1 = 3 := d.lockAll_sf1
  have ho : ∀ n : Fin 4, (d.lockAll.modMad (fun m => { m with hard := true })).ob n.1 = 3 := d.lockAll_ob
  rw [Dev.madFault_eq]
  cases c with
  | rail => exact Dev.supFault_locks _ hs ho rfl
  | oscillator => exact Dev.supFault_locks _ hs ho rfl
  | copies => exact Dev.cfgFault_locks _ hs ho rfl

/-- A contradicting feedback locks the output and stops SF1. -/
theorem Dev.fbCheck_fails {d : Dev} {n : Fin 4} (hen : d.sobEn n.1 = true) (hob : d.ob n.1 ≠ 3) (hp : d.mad.pulse = none)
    (hfb : d.tb Reg.MAD_STAT_FB n.1 = (d.ob n.1 == 2)) (ht : (d.mad.obAt[n]) + d.fbT ≤ d.up) :
    d.fbCheck n = ((d.setOb n 3).actSf1).madEvt Reg.MAD_EVT_FB_FAIL := by
  unfold Dev.fbCheck
  rw [hp, hen, hfb]
  exact if_pos (by rw [bne_iff_ne.mpr hob, beq_self_eq_true, decide_eq_true ht]; rfl)

theorem Dev.tb_linkRaise (d : Dev) (e : RF) {m j : Nat} {i : Nat} (hi : i < 4096) (h : e.addr < 0x20004000 ∨ 0x20004800 ≤ e.addr)
    (hl : e.lo < 32) (hj : j < e.w) (hm : m.testBit j = true) : (d.linkRaise e m i).tb e j = true := by
  have hset : (d.f e ||| m).testBit j = true := by rw [Nat.testBit_or, hm, Bool.or_true]
  unfold Dev.linkRaise
  split
  · split
    next hall => exact (congrArg (·.testBit j) hall).symm.trans hset
    next =>
      have hf := Dev.f_setF_same d e (d.f e ||| m)
      exact (congrArg (·.testBit j) hf).trans (by rw [Nat.testBit_mod_two_pow, hset, decide_eq_true hj, Bool.true_and])
  · exact d.tb_raise e hi h hl hj hm

theorem Dev.fbCheck_locks {d : Dev} {n : Fin 4} (hen : d.sobEn n.1 = true) (hob : d.ob n.1 ≠ 3) (hp : d.mad.pulse = none)
    (hfb : d.tb Reg.MAD_STAT_FB n.1 = (d.ob n.1 == 2)) (ht : (d.mad.obAt[n]) + d.fbT ≤ d.up) :
    (d.fbCheck n).ob n.1 = 3 ∧ (d.fbCheck n).sf1 ≠ 2 ∧ (d.fbCheck n).tb Reg.MAD_EVT_FB_FAIL 0 = true := by
  have hevt := Dev.madEvt_rests (d.setOb n 3).actSf1 (e := Reg.MAD_EVT_FB_FAIL) (by decide) rfl
  have hob3 : (d.setOb n 3).ob n.1 = 3 := by rw [Dev.ob_setOb d n n (by decide), if_pos rfl]
  rw [Dev.fbCheck_fails hen hob hp hfb ht]
  refine ⟨hevt.calms.locked n ((Dev.actSf1_rests _).calms.locked n hob3), hevt.sf1_ne (Dev.actSf1_stops _), ?_⟩
  exact (Dev.tb_of_f (Dev.f_linkLog_off _ _ _ _ _ (by decide) (by decide)) 0).trans
    (Dev.tb_linkRaise _ _ (by decide) (by decide) (by decide) (by decide) (by decide))

/-! ### SAFE_STOP_KILL (R373) -/

theorem Answers.of_donePower {i : Instr} {s : State} {d : Dev} {P : State → Prop} (he : exec i s = s.donePower d) (hP : P (s.commit d)) :
    Answers i s P := ⟨s.commit d, he, rfl, hP⟩

/-- Two switches' STAT and CTL fields are apart. -/
theorem Dev.auxStop_keepsAux (d : Dev) (m : Fin 24) (dst : Nat) {P : RF → Prop} (hP : ∀ r, P r → r.lo < 32 ∧ r.addr ≠ Reg.AUX_NSTAT_at m.1) :
    Dev.Keeps P d (d.auxStop m dst) := by
  have stat : ∀ (e : Dev) {r : RF} (x : Nat), r.lo < 32 → r.addr = Reg.AUX_NSTAT_at m.1 → Dev.Keeps P e (e.setF r x) := fun e r x hl ha =>
    .setF (fun r' h => (hP r' h).1) e x hl fun r' h => by rw [ha]; exact (hP r' h).2
  exact (((stat d (r := Reg.AUX_NSTAT_LIMIT m.1) 0 (Nat.le_of_ble_eq_true rfl) rfl).trans
    (stat _ (r := Reg.AUX_NSTAT_WARNED m.1) 0 (Nat.le_of_ble_eq_true rfl) rfl)).trans (Dev.modAux_keeps _ m _)).trans
    (stat _ (r := Reg.AUX_NSTAT_STATE m.1) _ (Nat.le_of_ble_eq_true rfl) rfl)

/-- Turning off one SAFE switch writes its CTL and STAT registers. -/
theorem Dev.auxSafeStep_keeps (d : Dev) (m : Fin 24) {P : RF → Prop}
    (hP : ∀ r, P r → r.lo < 32 ∧ r.addr ≠ Reg.AUX_CTL_at m.1 ∧ r.addr ≠ Reg.AUX_NSTAT_at m.1) : Dev.Keeps P d (d.auxSafeStep m) := by
  have hset : ∀ (e : Dev) {r : RF} (x : Nat), r.lo < 32 → r.addr = Reg.AUX_CTL_at m.1 ∨ r.addr = Reg.AUX_NSTAT_at m.1 → Dev.Keeps P e (e.setF r x) :=
    fun e r x hl ha => .setF (fun r' h => (hP r' h).1) e x hl fun r' h => by
      obtain ⟨-, h1, h2⟩ := hP r' h
      obtain ha | ha := ha <;> rw [ha] <;> assumption
  have ctl : Dev.Keeps P d ((d.setF (Reg.AUX_CTL_ON m.1) 0).setF (Reg.AUX_NSTAT_HELD m.1) 0) :=
    (hset d 0 (Nat.le_of_ble_eq_true rfl) (.inl rfl)).trans (hset _ 0 (Nat.le_of_ble_eq_true rfl) (.inr rfl))
  refine ctl.trans ?_
  unfold Dev.auxSafeStep
  split
  · exact Dev.auxStop_keepsAux _ m 0 fun r h => ⟨(hP r h).1, (hP r h).2.2⟩
  · exact Dev.auxStop_keepsAux _ m 0 fun r h => ⟨(hP r h).1, (hP r h).2.2⟩
  · exact .of_regs rfl
  · exact hset _ 0 (Nat.le_of_ble_eq_true rfl) (.inr rfl)
  · exact .refl _

/-- A switch that is off and not requested. -/
def Dev.AuxOff (d : Dev) (n : Fin 24) : Prop := d.auxOn n = false ∧ d.bit (Reg.AUX_CTL_ON n.1) = false

theorem Dev.auxOn_of_ne {d : Dev} {n : Fin 24} (h1 : d.auxSt n ≠ 1) (h2 : d.auxSt n ≠ 2) : d.auxOn n = false := by
  unfold Dev.auxOn
  rw [beq_eq_false_iff_ne.mpr h1, beq_eq_false_iff_ne.mpr h2]
  rfl

theorem Dev.auxSt_auxStop (d : Dev) (n : Fin 24) : (d.auxStop n 0).auxSt n = 0 ∨ (d.auxStop n 0).auxSt n = 3 := by
  unfold Dev.auxSt Dev.auxStop
  rw [Dev.f_setF_same]
  split
  · exact .inl rfl
  · exact .inr rfl

theorem Dev.auxSafeStep_off (d : Dev) (n : Fin 24) : (d.auxSafeStep n).AuxOff n := by
  have hreq : ∀ e : Dev, Dev.Keeps (fun r => r = Reg.AUX_CTL_ON n.1) ((d.setF (Reg.AUX_CTL_ON n.1) 0).setF (Reg.AUX_NSTAT_HELD n.1) 0) e →
      e.bit (Reg.AUX_CTL_ON n.1) = false := fun e he => by
    rw [Dev.bit_of_f (he _ rfl), Dev.bit_of_f (Dev.f_setF_off _ _ (Nat.le_of_ble_eq_true rfl) (Nat.le_of_ble_eq_true rfl)
      (by simp only [Reg.AUX_CTL_ON, Reg.AUX_NSTAT_HELD, Reg.AUX_CTL_at, Reg.AUX_NSTAT_at]; omega))]
    exact Dev.bit_setF_zero _ _
  have hne : ∀ r : RF, r = Reg.AUX_CTL_ON n.1 → r.lo < 32 ∧ r.addr ≠ Reg.AUX_NSTAT_at n.1 := by
    rintro r rfl
    exact ⟨Nat.le_of_ble_eq_true rfl, by simp only [Reg.AUX_CTL_ON, Reg.AUX_CTL_at, Reg.AUX_NSTAT_at]; omega⟩
  have hstopped : Dev.AuxOff (((d.setF (Reg.AUX_CTL_ON n.1) 0).setF (Reg.AUX_NSTAT_HELD n.1) 0).auxStop n 0) n := by
    refine ⟨?_, hreq _ (Dev.auxStop_keepsAux _ n 0 hne)⟩
    obtain h | h := Dev.auxSt_auxStop ((d.setF (Reg.AUX_CTL_ON n.1) 0).setF (Reg.AUX_NSTAT_HELD n.1) 0) n <;>
      exact Dev.auxOn_of_ne (by rw [h]; decide) (by rw [h]; decide)
  unfold Dev.auxSafeStep
  split
  next => exact hstopped
  next => exact hstopped
  next h =>
    exact ⟨Dev.auxOn_of_ne (fun hc => absurd (h.symm.trans hc) (by decide)) (fun hc => absurd (h.symm.trans hc) (by decide)), hreq _ (.of_regs rfl)⟩
  next =>
    have h0 : (((d.setF (Reg.AUX_CTL_ON n.1) 0).setF (Reg.AUX_NSTAT_HELD n.1) 0).setF (Reg.AUX_NSTAT_STATE n.1) 0).auxSt n = 0 := Dev.f_setF_same _ _ 0
    refine ⟨Dev.auxOn_of_ne (by rw [h0]; decide) (by rw [h0]; decide), hreq _ ?_⟩
    exact .setF (fun r h => (hne r h).1) _ 0 (Nat.le_of_ble_eq_true rfl) fun r h => (hne r h).2
  next h1 h2 h3 h4 => exact ⟨Dev.auxOn_of_ne h1 h2, hreq _ (.refl _)⟩

theorem Dev.auxSafeOff_off {d : Dev} {n : Fin 24} (h : d.bit (Reg.AUX_NCFG_SAFE n.1) = true) : d.auxSafeOff.AuxOff n := by
  rw [Dev.auxSafeOff_eq]
  refine foldl_establishes (I := fun e : Dev => e.bit (Reg.AUX_NCFG_SAFE n.1) = true) (P := fun e : Dev => e.AuxOff n) (fun e m he => ?_)
    (fun e he => ?_) (fun e m hsafe he => ?_) (List.finRange 24) (List.mem_finRange n) d h
  · have hkept : (e.auxSafeStep m).f (Reg.AUX_NCFG_SAFE n.1) = e.f (Reg.AUX_NCFG_SAFE n.1) :=
      e.auxSafeStep_keeps m (P := fun r => r = Reg.AUX_NCFG_SAFE n.1) (by
        rintro r rfl
        refine ⟨Nat.le_of_ble_eq_true rfl, ?_, ?_⟩ <;>
          simp only [Reg.AUX_NCFG_SAFE, Reg.AUX_NCFG_at, Reg.AUX_CTL_at, Reg.AUX_NSTAT_at] <;> omega) _ rfl
    split
    · exact (Dev.bit_of_f hkept).trans he
    · exact he
  · rw [he, if_pos rfl]
    exact e.auxSafeStep_off n
  · by_cases hmn : m = n
    · subst hmn
      rw [hsafe, if_pos rfl]
      exact e.auxSafeStep_off m
    · have hkeep : Dev.Keeps (fun r => r = Reg.AUX_NSTAT_STATE n.1 ∨ r = Reg.AUX_CTL_ON n.1) e (e.auxSafeStep m) :=
        e.auxSafeStep_keeps m (by
          have hv : m.1 ≠ n.1 := fun hc => hmn (Fin.ext hc)
          rintro r (rfl | rfl) <;> refine ⟨Nat.le_of_ble_eq_true rfl, ?_, ?_⟩ <;>
            simp only [Reg.AUX_NSTAT_STATE, Reg.AUX_CTL_ON, Reg.AUX_CTL_at, Reg.AUX_NSTAT_at] <;> omega)
      split
      · refine ⟨?_, (Dev.bit_of_f (hkeep _ (.inr rfl))).trans he.2⟩
        have hst : (e.auxSafeStep m).auxSt n = e.auxSt n := hkeep _ (.inl rfl)
        unfold Dev.auxOn
        rw [hst]
        exact he.1
      · exact he

theorem Dev.safeStopKill_acts {d : Dev} (hs : d.safeStop = true) (ht : d.mad.told = false) : d.safeStopKill.mad.told = true ∧
    ∀ n : Fin 24, d.bit (Reg.AUX_NCFG_SAFE n.1) = true → d.safeStopKill.AuxOff n := by
  have heq : d.safeStopKill = ((d.modMad (fun m => { m with told := true })).broadcastKill).auxSafeOff := if_pos (by rw [hs, ht]; rfl)
  have hwork := (d.modMad (fun m => { m with told := true })).broadcastKill_work
  rw [heq]
  refine ⟨?_, fun n hn => Dev.auxSafeOff_off ?_⟩
  · rw [(Dev.auxSafeOff_same _).1, hwork.mad]
    rfl
  · have hfar : (Reg.AUX_NCFG_SAFE n.1).Far := ⟨Nat.le_of_ble_eq_true rfl, by simp only [Reg.AUX_NCFG_SAFE, Reg.AUX_NCFG_at]; omega⟩
    exact (Dev.bit_of_f (hwork.f _ hfar)).trans hn

/-! ### The obligation -/

theorem State.commit_sf1 (s : State) (d : Dev) : (s.commit d).dev.sf1 = d.sf1 := rfl
theorem State.commit_ob (s : State) (d : Dev) (n : Nat) : (s.commit d).dev.ob n = d.ob n := rfl
theorem State.commit_auxOn (s : State) (d : Dev) (n : Fin 24) : (s.commit d).dev.auxOn n = d.auxOn n := rfl

/-- Settles O47: each function's action only stops outputs, and the rest of a cycle energizes nothing again. -/
theorem madderCyclesAreSafe : Obligations.MadderCyclesAreSafe := by
  unfold Obligations.MadderCyclesAreSafe
  refine ⟨fun s a b fb rb => ?_, fun s h ha => ?_, fun s c => ?_, fun s n hen hob hp hfb ht => ?_, fun s hl hs ht => ?_⟩
  · refine .of_donePower (d := s.dev.madCycle a b fb rb) rfl ?_
    obtain ⟨hv, hb, hr, hd⟩ := s.dev.madCycle_safe a b fb rb
    simp only [State.commit_sf1, State.commit_ob, State.commit_mad]
    refine ⟨fun h => ?_, fun h ha => ?_, fun m hm => ?_, fun i hi h => ?_⟩
    · exact ⟨(hv h).1, fun n hn => (hv h).2 ⟨n, hn⟩⟩
    · exact ⟨(hb h ha).1, fun n hn => (hb h ha).2 ⟨n, hn⟩⟩
    · obtain ⟨hnone, hsf, hobs⟩ := hr m hm
      exact ⟨hnone, hsf, fun n hn hbit => hobs ⟨n, hn⟩ hbit⟩
    · obtain ⟨hsf, hobs⟩ := hd ⟨i, hi⟩ h
      exact ⟨hsf, fun n hn hbit => hobs ⟨n, hn⟩ hbit⟩
  · refine .of_donePower (d := s.dev.hbCheck) rfl ?_
    obtain ⟨hok, hact, hsf, hobs⟩ := Dev.hbCheck_lost h ha
    simp only [State.commit_sf1, State.commit_ob, State.commit_mad, State.commit_bit]
    exact ⟨hok, hact, hsf, fun n hn => hobs ⟨n, hn⟩⟩
  · refine .of_donePower (d := s.dev.madFault c) rfl ?_
    obtain ⟨hsf, hobs, hhard, hbit⟩ := s.dev.madFault_locks c
    simp only [State.commit_sf1, State.commit_ob, State.commit_mad]
    exact ⟨hsf, fun n hn => hobs ⟨n, hn⟩, hhard, hbit⟩
  · exact .of_donePower (d := s.dev.fbCheck n) rfl (Dev.fbCheck_locks hen hob hp hfb ht)
  · exact .of_done (d := s.dev.safeStopKill) hl rfl (Dev.safeStopKill_acts hs ht)

end Sys2Proof.Machine
end

section
/-!
PROOF. The charge ledger's integrators (R171-R173): the exact quotient and remainder of a current output, and what energy units leave.
-/

namespace Sys2Proof.Machine
open Sys2Proof

/-! ### Energy units (R172) -/

/-- From `g` to `h` the charge, its remainder and the filters are the same. -/
structure Integ.SameCharge (g h : Integ) : Prop where
  fi : h.fi = g.fi
  fv : h.fv = g.fv
  qIn : h.qIn = g.qIn
  qOut : h.qOut = g.qOut
  rq : h.rq = g.rq

theorem Integ.SameCharge.refl (g : Integ) : Integ.SameCharge g g := ⟨rfl, rfl, rfl, rfl, rfl⟩

theorem Integ.SameCharge.trans {g h j : Integ} (a : Integ.SameCharge g h) (b : Integ.SameCharge h j) : Integ.SameCharge g j :=
  ⟨b.fi.trans a.fi, b.fv.trans a.fv, b.qIn.trans a.qIn, b.qOut.trans a.qOut, b.rq.trans a.rq⟩

theorem Integ.unit_sameCharge (g : Integ) (m j : Nat) (i v : Int) : Integ.SameCharge g (g.unit m j i v) := ⟨rfl, rfl, rfl, rfl, rfl⟩

theorem Integ.units_sameCharge (n : Nat) : ∀ g : Integ, Integ.SameCharge g (g.units n) := by
  induction n with
  | zero => exact fun g => .refl g
  | succ n ih =>
    intro g
    unfold Integ.units
    split
    next m i is m' v vs _ _ =>
      have hloop : ∀ a c, Integ.SameCharge g (forEach c g (fun g x => g.unit m (a + x) i v)) := fun a c =>
        List.foldlRecOn _ _ (motive := Integ.SameCharge g) (.refl g) (fun h hh x _ => hh.trans (h.unit_sameCharge m _ i v))
      dsimp only
      refine Integ.SameCharge.trans ?_ (ih _)
      obtain ⟨h1, h2, h3, h4, h5⟩ := hloop (Nat.max (4 * m - 4) (16 * m' - 34)) (Nat.min (4 * m) (16 * m' - 18) - Nat.max (4 * m - 4) (16 * m' - 34))
      exact ⟨h1, h2, h3, h4, h5⟩
    next => exact .refl g

theorem Integ.energy_sameCharge (g : Integ) : Integ.SameCharge g g.energy := g.units_sameCharge _

/-- Without an output of the other quantity no unit is complete. -/
theorem Integ.units_of_no_voltage {g : Integ} (h : g.v8 = []) (n : Nat) : g.units n = g := by
  cases n with
  | zero => rfl
  | succ n =>
    unfold Integ.units
    rw [h]
    cases g.i8 <;> rfl

theorem Integ.units_of_no_current {g : Integ} (h : g.i8 = []) (n : Nat) : g.units n = g := by
  cases n with
  | zero => rfl
  | succ n =>
    unfold Integ.units
    rw [h]

/-! ### One output (R171, R173) -/

theorem lifeAdd_eq (pos neg : Nat) (x : Int) : lifeAdd pos neg x =
    (if 0 ≤ x then min (2 ^ 104 - 1) (pos + x.toNat) else pos, if 0 ≤ x then neg else min (2 ^ 104 - 1) (neg + (-x).toNat)) := by
  unfold lifeAdd
  dsimp only
  split <;> rfl

/-- What a current output adds to an integrator. -/
structure Integ.Charged (g h : Integ) (n : Int) : Prop where
  rq : h.rq = n + g.rq - (n + g.rq).fdiv (35 * 2 ^ 43) * (35 * 2 ^ 43)
  qIn : h.qIn = if 0 ≤ (n + g.rq).fdiv (35 * 2 ^ 43) then min (2 ^ 104 - 1) (g.qIn + ((n + g.rq).fdiv (35 * 2 ^ 43)).toNat) else g.qIn
  qOut : h.qOut = if 0 ≤ (n + g.rq).fdiv (35 * 2 ^ 43) then g.qOut else min (2 ^ 104 - 1) (g.qOut + (-((n + g.rq).fdiv (35 * 2 ^ 43))).toNat)
  noEnergy : g.v8 = [] → h.eIn = g.eIn ∧ h.eOut = g.eOut
  fi : h.fi = g.fi

/-- A current output is counted, then the units it completes are integrated. -/
theorem Integ.current_counts (g : Integ) (z : ZOut) (fs gain : Nat) (o : Int) : ∃ h : Integ, g.current z fs gain o = h.energy ∧
    h.rq = chargeN z.z fs gain o + g.rq - (chargeN z.z fs gain o + g.rq).fdiv (35 * 2 ^ 43) * (35 * 2 ^ 43) ∧
    (h.qIn, h.qOut) = lifeAdd g.qIn g.qOut ((chargeN z.z fs gain o + g.rq).fdiv (35 * 2 ^ 43)) ∧
    h.v8 = g.v8 ∧ h.eIn = g.eIn ∧ h.eOut = g.eOut ∧ h.fi = g.fi := ⟨_, rfl, rfl, rfl, rfl, rfl, rfl, rfl⟩

theorem Integ.current_charged (g : Integ) (z : ZOut) (fs gain : Nat) (o : Int) : Integ.Charged g (g.current z fs gain o) (chargeN z.z fs gain o) := by
  obtain ⟨h, heq, hrq, hlife, hv8, hin, hout, hfi⟩ := g.current_counts z fs gain o
  obtain ⟨ei, -, eIn, eOut, eq⟩ := h.energy_sameCharge
  rw [lifeAdd_eq] at hlife
  obtain ⟨hqi, hqo⟩ := Prod.mk.inj hlife
  rw [heq]
  refine ⟨eq.trans hrq, eIn.trans hqi, eOut.trans hqo, fun hv => ?_, ei.trans hfi⟩
  have hsame : h.energy = h := Integ.units_of_no_voltage (hv8.trans hv) _
  rw [hsame]
  exact ⟨hin, hout⟩

/-- A voltage output joins those that wait for a current. -/
theorem Integ.voltage_waits {g : Integ} (h : g.i8 = []) (z : ZOut) (fs gain : Nat) (o : Int) :
    g.voltage z fs gain o = { g with v8 := g.v8 ++ [(z.m, to8 (chargeN z.z fs gain o))] } :=
  Integ.units_of_no_current (g := { g with v8 := g.v8 ++ [(z.m, to8 (chargeN z.z fs gain o))] }) h _

theorem Integ.voltage_sameCharge (g : Integ) (z : ZOut) (fs gain : Nat) (o : Int) : Integ.SameCharge g (g.voltage z fs gain o) :=
  Integ.SameCharge.trans (h := { g with v8 := g.v8 ++ [(z.m, to8 (chargeN z.z fs gain o))] }) ⟨rfl, rfl, rfl, rfl, rfl⟩ (Integ.energy_sameCharge _)

/-! ### A modulator's output of the device -/

/-- The measurement state of a channel. -/
abbrev Dev.measOf (d : Dev) (v k : Fin 16) : Meas := (d.vats[v]).meas[k]

theorem Dev.measOf_modMeas_same (d : Dev) (v k : Fin 16) (g : Meas → Meas) : (d.modMeas v k g).measOf v k = g (d.measOf v k) := by
  unfold Dev.measOf Dev.modMeas
  rw [Dev.vats_modVat_same]
  exact getElem_put_same _ _ _

theorem Dev.measOf_modMeas_ne (d : Dev) {v k v' k' : Fin 16} (h : (v', k') ≠ (v, k)) (g : Meas → Meas) :
    (d.modMeas v k g).measOf v' k' = d.measOf v' k' := by
  unfold Dev.measOf Dev.modMeas
  rw [Dev.vats_modVat]
  split
  next hv =>
    subst hv
    exact getElem_put_ne _ (fun hk => h (by rw [hk])) _
  next => rfl

/-- A change of a vat that leaves its measurement states alone. -/
theorem Dev.measOf_modVat (d : Dev) (v v' k' : Fin 16) {g : Vat → Vat} (h : ∀ x, (g x).meas = x.meas) :
    (d.modVat v g).measOf v' k' = d.measOf v' k' := by
  unfold Dev.measOf
  rw [Dev.vats_modVat]
  split
  next hv =>
    subst hv
    simp only [h]
  next => rfl

theorem Dev.measOf_of_vats {d e : Dev} (h : e.vats = d.vats) (v k : Fin 16) : e.measOf v k = d.measOf v k := by
  unfold Dev.measOf
  rw [h]

theorem Dev.divergeChan_vats (d : Dev) (v k : Fin 16) : (d.divergeChan v k).vats = d.vats := by
  unfold Dev.divergeChan
  dsimp only
  split
  · rfl
  · exact Dev.pend_vats _ _

theorem Dev.measOf_diverge (d : Dev) (v k : Fin 16) (t : Nat) (v' k' : Fin 16) : (d.diverge v k t).measOf v' k' = d.measOf v' k' := by
  unfold Dev.diverge
  dsimp only
  split
  · rw [Dev.measOf_of_vats (Dev.divergeChan_vats _ _ _)]
    exact d.measOf_modVat v v' k' fun _ => rfl
  · rfl

theorem Dev.measOf_impSample (d : Dev) (v k : Fin 16) (cur : Bool) (z : ZOut) (v' k' : Fin 16) :
    (d.impSample v k cur z).measOf v' k' = d.measOf v' k' := d.measOf_modVat v v' k' fun _ => rfl

/-- An output whose coefficients are known is filed; the other channels' measurement states stay. -/
theorem Dev.measOf_sinc4Output {d : Dev} {v k : Fin 16} {cur : Bool} {z : ZOut} {m : Meas}
    (h : (d.measOf v k).sinc4 cur (d.iFs v) (d.vFs v) = some (z, m)) (hw : d.calWaits v k (if cur then 640 * z.m else 2560 * z.m - 2880) = false) :
    (d.sinc4Output v k cur).measOf v k = m ∧ ∀ v' k' : Fin 16, (v', k') ≠ (v, k) → (d.sinc4Output v k cur).measOf v' k' = d.measOf v' k' := by
  have heq : d.sinc4Output v k cur = (((if cur then d.diverge v k (640 * z.m) else d).modMeas v k (fun _ => m)).impSample v k cur z) := by
    unfold Dev.sinc4Output
    rw [h]
    exact if_neg (by rw [hw]; exact Bool.false_ne_true)
  have hdiv : ∀ v' k' : Fin 16, (if cur then d.diverge v k (640 * z.m) else d).measOf v' k' = d.measOf v' k' := fun v' k' => by
    cases cur
    · rfl
    · exact d.measOf_diverge v k _ v' k'
  refine ⟨?_, fun v' k' hne => ?_⟩
  · rw [heq, Dev.measOf_impSample, Dev.measOf_modMeas_same]
  · rw [heq, Dev.measOf_impSample, Dev.measOf_modMeas_ne _ hne, hdiv]

theorem Meas.sinc4_current {m : Meas} {z zb : ZOut} {fa fb : Sinc4} (ha : m.a.fi.pop = some (z, fa)) (hb : m.b.fi.pop = some (zb, fb))
    (iFs vFs : Nat) : ∃ m', m.sinc4 true iFs vFs = some (z, m') ∧
      m'.a = { m.a with fi := fa }.current z iFs (m.calAtTick (640 * z.m)).ig (m.calAtTick (640 * z.m)).io ∧ m'.zi = (z :: m.zi).take 700 := by
  unfold Meas.sinc4
  rw [if_pos rfl, ha, hb]
  exact ⟨_, rfl, rfl, rfl⟩

theorem Meas.sinc4_voltage {m : Meas} {z zb : ZOut} {fa fb : Sinc4} (ha : m.a.fv.pop = some (z, fa)) (hb : m.b.fv.pop = some (zb, fb))
    (iFs vFs : Nat) : ∃ m', m.sinc4 false iFs vFs = some (z, m') ∧
      m'.a = { m.a with fv := fa }.voltage z vFs (m.calAtTick (2560 * z.m - 2880)).vg (m.calAtTick (2560 * z.m - 2880)).vo ∧
      m'.zv = (z :: m.zv).take 190 := by
  unfold Meas.sinc4
  rw [if_neg Bool.false_ne_true, ha, hb]
  exact ⟨_, rfl, rfl, rfl⟩

/-- Settles O23: an output's charge is its exact numerator over 35 * 2^43, and energy units leave the charge alone. -/
theorem chargeIntegratesExactly : Obligations.ChargeIntegratesExactly := by
  unfold Obligations.ChargeIntegratesExactly
  refine ⟨fun s v k z zb fa fb hl ha hb hw => ?_, fun s v k z zb fa fb hl ha hb hw => ?_⟩
  · obtain ⟨m', hs, hma, hzi⟩ := Meas.sinc4_current (m := s.dev.measOf v k) ha hb (s.dev.iFs v) (s.dev.vFs v)
    obtain ⟨hself, hothers⟩ := Dev.measOf_sinc4Output hs hw
    obtain ⟨hrq, hqi, hqo, hen, hfi⟩ := Integ.current_charged { (s.dev.measOf v k).a with fi := fa } z (s.dev.iFs v)
      ((s.dev.measOf v k).calAtTick (640 * z.m)).ig ((s.dev.measOf v k).calAtTick (640 * z.m)).io
    rw [← hma, ← hself] at hrq hqi hqo hen hfi
    exact .of_done (d := s.dev.sinc4Output v k true) hl rfl ⟨hrq, hqi, hqo, hen, hfi, (congrArg Meas.zi hself).trans hzi, hothers⟩
  · obtain ⟨m', hs, hma, hzv⟩ := Meas.sinc4_voltage (m := s.dev.measOf v k) ha hb (s.dev.iFs v) (s.dev.vFs v)
    obtain ⟨hself, hothers⟩ := Dev.measOf_sinc4Output hs hw
    have hsame := Integ.voltage_sameCharge { (s.dev.measOf v k).a with fv := fa } z (s.dev.vFs v)
      ((s.dev.measOf v k).calAtTick (2560 * z.m - 2880)).vg ((s.dev.measOf v k).calAtTick (2560 * z.m - 2880)).vo
    have hwait := fun h => Integ.voltage_waits (g := { (s.dev.measOf v k).a with fv := fa }) h z (s.dev.vFs v)
      ((s.dev.measOf v k).calAtTick (2560 * z.m - 2880)).vg ((s.dev.measOf v k).calAtTick (2560 * z.m - 2880)).vo
    rw [← hma, ← hself] at hsame hwait
    obtain ⟨-, hfv, hqi, hqo, hrq⟩ := hsame
    refine .of_done (d := s.dev.sinc4Output v k false) hl rfl ⟨fun h => ?_, hqi, hqo, hrq, hfv, (congrArg Meas.zv hself).trans hzv, hothers⟩
    have hin := congrArg Integ.eIn (hwait h)
    have hout := congrArg Integ.eOut (hwait h)
    have hv8 := congrArg Integ.v8 (hwait h)
    exact ⟨hin, hout, hv8⟩

end Sys2Proof.Machine
end

section
/-!
PROOF. Mordant's commands (R342-R346): the checks look at the keys alone, a submitted command ends, runs or waits, and an invalidation
reaches every slot descended from the one it names.
-/

namespace Sys2Proof.Machine
open Sys2Proof

/-! ### What the checks look at (R343) -/

/-- The fuses and every field a warm reset keeps are the same; the channels' arguments and results are not among them. -/
structure Dev.SameKept (d e : Dev) : Prop where
  fuse : e.fuse = d.fuse
  f : ∀ r : RF, r.keep = true → e.f r = d.f r

theorem Dev.SameKept.setF {d e : Dev} (h : Dev.SameKept d e) {r : RF} (x : Nat) (hr : r.keep = false) : Dev.SameKept d (e.setF r x) := by
  refine ⟨h.fuse, fun r' hr' => (e.f_setF_ne x ?_).trans (h.f r' hr')⟩
  unfold RF.key
  rw [hr, hr']
  simp only [if_true, Bool.false_eq_true, if_false]
  omega

section
variable {d e : Dev} (h : Dev.SameKept d e)
include h

theorem Dev.SameKept.slotWord (k lo w : Nat) : e.meta k lo w = d.meta k lo w := congrArg (fun x => bits x lo w) (h.f _ rfl)
theorem Dev.SameKept.slotState (k : Nat) : e.slotState k = d.slotState k := h.slotWord k 8 2
theorem Dev.SameKept.slotKind (k : Nat) : e.slotKind k = d.slotKind k := h.slotWord k 10 2
theorem Dev.SameKept.attr (k : Nat) : e.attr k = d.attr k := h.f _ rfl

theorem Dev.SameKept.devKeys : e.devKeys = d.devKeys := by
  unfold Dev.devKeys
  rw [h.fuse]

theorem Dev.SameKept.lcAllows (k : Nat) : e.lcAllows k = d.lcAllows k := by
  unfold Dev.lcAllows
  rw [h.fuse, h.slotWord]

theorem Dev.SameKept.emptyKeys : e.emptyKeys = d.emptyKeys := by
  unfold Dev.emptyKeys
  simp only [h.slotState]

theorem Dev.SameKept.slotCheck (c : MCmd) (k : Nat) : e.slotCheck c k = d.slotCheck c k := by
  unfold Dev.slotCheck
  rw [h.slotState, h.lcAllows, h.attr]

theorem Dev.SameKept.deriveArgs (c : MCmd) : e.deriveArgs c = d.deriveArgs c := by
  unfold Dev.deriveArgs
  dsimp only
  rw [h.attr, h.slotWord, h.emptyKeys, h.slotState]

theorem Dev.SameKept.ownKeys (s : Nat) : e.ownKeys s = d.ownKeys s := by
  unfold Dev.ownKeys
  dsimp only
  rw [h.f (Reg.SLC_STATE_KEY_LDG s) rfl, h.f (Reg.SLC_STATE_KEY_SIG s) rfl, h.f (Reg.SLC_STATE_STATE s) rfl, h.attr, h.attr, h.slotWord,
    h.slotWord]

theorem Dev.SameKept.mordCheck (c : MCmd) : e.mordCheck c = d.mordCheck c := by
  unfold Dev.mordCheck
  dsimp only
  rw [h.slotCheck, h.deriveArgs, h.devKeys, h.slotKind, h.ownKeys, h.f (Reg.SLC_STATE_KEY_LDG (c.arg 0)) rfl, h.slotState, h.lcAllows, h.attr]

theorem Dev.SameKept.childrenOf (set : Nat) : e.childrenOf set = d.childrenOf set := by
  unfold Dev.childrenOf
  simp only [h.slotState, h.slotWord]

theorem Dev.SameKept.subtree (n : Nat) : ∀ set, e.subtree n set = d.subtree n set := by
  induction n with
  | zero => exact fun _ => rfl
  | succ n ih =>
    intro set
    unfold Dev.subtree
    rw [h.childrenOf, ih]

end

theorem Dev.slotCheck_lt {d : Dev} {c : MCmd} {k r : Nat} (h : d.slotCheck c k = some r) : r < 16 := by
  unfold Dev.slotCheck at h
  dsimp only at h
  repeat' split at h
  all_goals cases h <;> decide

theorem Dev.deriveArgs_lt {d : Dev} {c : MCmd} {r : Nat} (h : d.deriveArgs c = some r) : r < 16 := by
  unfold Dev.deriveArgs at h
  dsimp only at h
  repeat' split at h
  all_goals cases h <;> decide

/-- A check after the slot's. -/
theorem orElse_lt {o : Option Nat} {p : Unit → Option Nat} {r : Nat} (h : o.orElse p = some r) (ho : ∀ x, o = some x → x < 16)
    (hp : ∀ x, p () = some x → x < 16) : r < 16 := by
  cases o with
  | none => exact hp r h
  | some x => exact ho r h

/-- A result code fits RESULT's four bits. -/
theorem Dev.mordCheck_lt {d : Dev} {c : MCmd} {r : Nat} (h : d.mordCheck c = some r) : r < 16 := by
  have hcode : ∀ {p : Prop} [Decidable p] {x : Nat}, x < 16 → ∀ y, (if p then some x else none) = some y → y < 16 := fun {p} _ {x} hx y hy => by
    split at hy
    · exact Option.some.inj hy ▸ hx
    · cases hy
  have hslot : ∀ k y, d.slotCheck c k = some y → y < 16 := fun k y => Dev.slotCheck_lt
  unfold Dev.mordCheck at h
  dsimp only at h
  split at h
  · split at h
    · exact orElse_lt h (hslot _) fun _ => Dev.deriveArgs_lt
    · split at h
      · cases h; decide
      · split at h
        · cases h; decide
        · exact Dev.deriveArgs_lt h
  · exact hslot _ _ h
  · exact orElse_lt h (hslot _) (hcode (by decide))
  · exact orElse_lt h (hslot _) (hcode (by decide))
  · exact orElse_lt h (hslot _) (hcode (by decide))
  · exact orElse_lt h (hslot _) (hcode (by decide))
  · split at h
    · split at h
      · cases h
      · cases h; decide
    · exact orElse_lt h (hslot _) (hcode (by decide))
  · repeat' split at h
    all_goals cases h <;> decide
  · exact hcode (by decide) _ h
  · exact hslot _ _ h

/-! ### The end of a command (R343) -/

theorem Dev.mordEvt_mord (d : Dev) (r : RF) : (d.mordEvt r).mord = d.mord := (Dev.raise_reports d r 1 57).mord

/-- The results of a command in its channel's registers, before it is reported. -/
def Dev.mordResult (d : Dev) (ch : Fin 16) (result : Nat) (orphan : Bool) : Dev :=
  ((d.setF (Reg.MORD_CH_STAT_BUSY ch.1) 0).setF (Reg.MORD_CH_STAT_RESULT ch.1) result).setB (Reg.MORD_CH_STAT_ORPHANED_DURING_USE ch.1) orphan

/-- The fields a command's report leaves alone: outside the event block, MORD_EVT and MORD_DENY. -/
def RF.OffMordReports (r : RF) : Prop :=
  r.lo < 32 ∧ (r.addr < 0x20004000 ∨ 0x20004800 ≤ r.addr) ∧ r.addr ≠ Reg.MORD_EVT_at ∧ r.addr ≠ Reg.MORD_DENY_at

theorem Dev.mordEvt_keeps (d : Dev) {e : RF} (he : e.lo < 32) (ha : e.addr = Reg.MORD_EVT_at) : Dev.Keeps RF.OffMordReports d (d.mordEvt e) := by
  rintro r ⟨hl, hblock, hne, -⟩
  exact d.f_raise_off 1 (by decide) hl he hblock (fun hc => hne (hc.1.trans ha))

/-- What a command's end reports. -/
theorem Dev.mordEnd_reports (d : Dev) (c : MCmd) (result : Nat) (orphan : Bool) :
    Dev.Keeps RF.OffMordReports (d.mordResult c.ch result orphan) (d.mordEnd c result orphan) ∧ (d.mordEnd c result orphan).mord = d.mord := by
  have hpend : ∀ e : Dev, Dev.Keeps RF.OffMordReports e (e.pend 81) := fun e r hr => e.f_pend_off (by decide) hr.1 hr.2.1
  have hlog : ∀ (e : Dev) a b x y, Dev.Keeps RF.OffMordReports e (e.log a b x y) := fun e a b x y r hr => e.f_log_off a b x y hr.1 hr.2.1
  have hbump : ∀ e : Dev, Dev.Keeps RF.OffMordReports e (e.bump Reg.MORD_DENY_COUNT) := fun e r hr =>
    e.f_bump_off 1 (by decide) hr.1 (fun hc => hr.2.2.2 hc.1)
  unfold Dev.mordEnd
  dsimp only
  constructor
  · refine Dev.Keeps.trans (Dev.Keeps.trans ?_ (.ite ?_ (.refl _))) (hpend _)
    · exact .ite (Dev.mordEvt_keeps _ (by decide) rfl) (.refl _)
    · exact ((hbump _).trans (Dev.mordEvt_keeps _ (by decide) rfl)).trans (hlog _ _ _ _ _)
  · rw [Dev.pend_mord]
    have horph : ∀ e : Dev, (if orphan then e.mordEvt Reg.MORD_EVT_ORPHAN_USE else e).mord = e.mord := fun e => by
      split
      · exact e.mordEvt_mord _
      · rfl
    split
    · rw [Dev.log_mord, Dev.mordEvt_mord, Dev.bump_eq, Dev.setF_mord, horph]
      rfl
    · rw [horph]
      rfl

theorem Reg.mordChStat_offReports {ch : Fin 16} {r : RF} (hl : r.lo < 32) (ha : r.addr = Reg.MORD_CH_STAT_at ch.1) : r.OffMordReports := by
  refine ⟨hl, ?_, ?_, ?_⟩ <;> rw [ha] <;> simp only [Reg.MORD_CH_STAT_at, Reg.MORD_EVT_at, Reg.MORD_DENY_at] <;> omega

theorem Dev.mordEnd_result (d : Dev) (c : MCmd) {result : Nat} (h : result < 16) (orphan : Bool) :
    (d.mordEnd c result orphan).f (Reg.MORD_CH_STAT_RESULT c.ch.1) = result := by
  rw [(d.mordEnd_reports c result orphan).1 _ (Reg.mordChStat_offReports (Nat.le_of_ble_eq_true rfl) rfl)]
  unfold Dev.mordResult
  rw [Dev.f_setB_off _ _ (Nat.le_of_ble_eq_true rfl) (Nat.le_of_ble_eq_true rfl) (fun hc => absurd hc.2 (Nat.ne_of_beq_eq_false rfl)), Dev.f_setF_same]
  exact Nat.mod_eq_of_lt h

theorem Dev.mordEnd_idle (d : Dev) (c : MCmd) (result : Nat) (orphan : Bool) :
    (d.mordEnd c result orphan).bit (Reg.MORD_CH_STAT_BUSY c.ch.1) = false := by
  rw [Dev.bit_of_f ((d.mordEnd_reports c result orphan).1 _ (Reg.mordChStat_offReports (Nat.le_of_ble_eq_true rfl) rfl))]
  unfold Dev.mordResult
  rw [Dev.bit_of_f (Dev.f_setB_off _ _ (Nat.le_of_ble_eq_true rfl) (Nat.le_of_ble_eq_true rfl) (fun hc => absurd hc.2 (Nat.ne_of_beq_eq_false rfl))),
    Dev.bit_of_f (Dev.f_setF_off _ _ (Nat.le_of_ble_eq_true rfl) (Nat.le_of_ble_eq_true rfl) (fun hc => absurd hc.2 (Nat.ne_of_beq_eq_false rfl)))]
  exact Dev.bit_setF_zero _ _

/-- A command's end changes no slot. -/
theorem Dev.mordEnd_slotState (d : Dev) (c : MCmd) (result : Nat) (orphan : Bool) {k : Nat} (hk : k < 128) :
    (d.mordEnd c result orphan).slotState k = d.slotState k := by
  have hmeta : (Reg.MORD_K_META_WORD k).OffMordReports := by
    refine ⟨Nat.le_of_ble_eq_true rfl, ?_, ?_, ?_⟩ <;>
      simp only [Reg.MORD_K_META_WORD, Reg.MORD_K_META_at, Reg.MORD_EVT_at, Reg.MORD_DENY_at] <;> omega
  have hstat : ∀ (e : Dev) {r : RF} (x : Nat), r.lo < 32 → r.addr = Reg.MORD_CH_STAT_at c.ch.1 →
      (e.setF r x).f (Reg.MORD_K_META_WORD k) = e.f (Reg.MORD_K_META_WORD k) := fun e r x hl ha =>
    e.f_setF_addr_ne x (by rw [ha]; simp only [Reg.MORD_K_META_WORD, Reg.MORD_K_META_at, Reg.MORD_CH_STAT_at]; omega) hl (Nat.le_of_ble_eq_true rfl)
  refine congrArg (fun x => bits x 8 2) (((d.mordEnd_reports c result orphan).1 _ hmeta).trans ?_)
  unfold Dev.mordResult
  rw [Dev.setB_eq, hstat _ _ (Nat.le_of_ble_eq_true rfl) rfl, hstat _ _ (Nat.le_of_ble_eq_true rfl) rfl, hstat _ _ (Nat.le_of_ble_eq_true rfl) rfl]

/-! ### Submission (R342, R344) -/

/-- A submitted command as its channel shows it. -/
def Dev.mordTaken (d : Dev) (ch : Fin 16) : Dev :=
  ((d.setF (Reg.MORD_CH_STAT_BUSY ch.1) 1).setF (Reg.MORD_CH_STAT_RESULT ch.1) 0).setF (Reg.MORD_CH_STAT_ORPHANED_DURING_USE ch.1) 0

theorem Dev.mordTaken_sameKept (d : Dev) (ch : Fin 16) : Dev.SameKept d (d.mordTaken ch) :=
  (((Dev.SameKept.mk rfl (fun _ _ => rfl) : Dev.SameKept d d).setF 1 rfl).setF 0 rfl).setF 0 rfl

/-- The command a channel's arguments spell. -/
def Dev.mordCmd (d : Dev) (src : Src) (ch : Fin 16) (op : Nat) : MCmd :=
  ⟨ch, op, (List.range 16).map (fun i => d.f (Reg.MORD_CH_ARG_VALUE ch.1 i)), src, false⟩

/-- A command at the end of the queue. -/
def Dev.mordQueued (d : Dev) (c : MCmd) : Dev := d.setMord { d.mord with queue := d.mord.queue ++ [c] }

section
variable {d : Dev} {src : Src} {ch : Fin 16} (hg : (d.guard src (Reg.MORD_CH_CMD_at ch.1) true).isNone = true)
include hg

theorem Dev.mordSubmit_stranger {op : Nat} (ho : d.mord.owners[ch] ≠ some src) :
    d.mordSubmit src ch op = (d.answer 0).deny 14 src .write (Reg.MORD_CH_CMD_at ch.1) := by
  unfold Dev.mordSubmit
  exact (Dev.onWrite_unguarded hg _).trans (if_pos ho)

theorem Dev.mordSubmit_owner {op : Nat} (ho : d.mord.owners[ch] = some src) (hb : d.bit (Reg.MORD_CH_STAT_BUSY ch.1) = false)
    (hop : 1 ≤ op ∧ op ≤ 10) : d.mordSubmit src ch op =
    if op = 2 then
      match ((d.answer 0).mordTaken ch).mordCheck (d.mordCmd src ch op) with
      | some r => ((d.answer 0).mordTaken ch).mordEnd (d.mordCmd src ch op) r false
      | none => (((d.answer 0).mordTaken ch).invalidate (2 ^ (d.mordCmd src ch op).arg 0)).mordEnd (d.mordCmd src ch op) rOk false
    else (((d.answer 0).mordTaken ch).mordQueued (d.mordCmd src ch op)).mordNext 16 := by
  unfold Dev.mordSubmit
  refine (Dev.onWrite_unguarded hg _).trans ?_
  have hb' : (d.answer 0).bit (Reg.MORD_CH_STAT_BUSY ch.1) = false := hb
  refine (if_neg (fun h => h ho)).trans ?_
  rw [hb', if_neg Bool.false_ne_true, if_neg (by omega)]
  rfl

end

theorem Dev.mordNext_running {d : Dev} (n : Nat) (h : d.mord.run.isSome = true) : d.mordNext n = d := by
  cases n with
  | zero => rfl
  | succ n =>
    obtain ⟨r, hr⟩ := Option.isSome_iff_exists.mp h
    unfold Dev.mordNext
    rw [hr]

theorem Dev.mordNext_empty {d : Dev} (n : Nat) (h : d.mord.queue = []) : d.mordNext n = d := by
  cases n with
  | zero => rfl
  | succ n =>
    unfold Dev.mordNext
    rw [h]
    cases d.mord.run <;> rfl

/-- The queue emptied. -/
def Dev.mordUnqueued (d : Dev) : Dev := d.setMord { d.mord with queue := [] }

/-- The engine takes the only command that waits. -/
theorem Dev.mordNext_one {d : Dev} {c : MCmd} (n : Nat) (hrun : d.mord.run = none) (hq : d.mord.queue = [c]) (hdead : c.dead = false) :
    d.mordNext (n + 1) = match d.mordUnqueued.mordCheck c with
      | some r => (d.mordUnqueued.mordEnd c r false).mordNext n
      | none => if d.mordUnqueued.drbgBars c.op then (d.mordUnqueued.free 3).2.mordEnd c (2 + (d.mordUnqueued.free 3).1 % 6) false |>.mordNext n
        else match d.mordUnqueued.mordSlot c with
          | some k => (d.mordUnqueued.takeKey k).setMord { (d.mordUnqueued.takeKey k).mord with run := some ⟨c, (d.mordUnqueued.takeKey k).slotKey k,
              (d.mordUnqueued.takeKey k).slotKind k, some (k, (d.mordUnqueued.takeKey k).meta k 16 16), false⟩ }
          | none => d.mordUnqueued.setMord { d.mordUnqueued.mord with
              run := some ⟨c, if c.op = 9 then 0 else d.mordUnqueued.devKey (c.arg 0), devKind (c.arg 0), none, false⟩ } := by
  rw [Dev.mordNext]
  split
  next c' rest _ hq' =>
    obtain ⟨rfl, rfl⟩ := List.cons.inj (hq'.symm.trans hq)
    simp only [hdead, Bool.false_eq_true, if_false]
    rfl
  next hno => exact absurd hq (hno c [] hrun)

/-- The only command that waits, against a check: it ends with that check's result and the engine stays idle. -/
theorem Dev.mordNext_fails {d : Dev} {c : MCmd} {r : Nat} (n : Nat) (hrun : d.mord.run = none) (hq : d.mord.queue = [c]) (hdead : c.dead = false)
    (hc : d.mordUnqueued.mordCheck c = some r) : d.mordNext (n + 1) = d.mordUnqueued.mordEnd c r false := by
  rw [Dev.mordNext_one n hrun hq hdead, hc]
  exact Dev.mordNext_empty n (congrArg Mord.queue (Dev.mordEnd_reports _ _ _ _).2)

/-- The only command that waits, past its checks: it starts. -/
theorem Dev.mordNext_starts {d : Dev} {c : MCmd} (n : Nat) (hrun : d.mord.run = none) (hq : d.mord.queue = [c]) (hdead : c.dead = false)
    (hc : d.mordUnqueued.mordCheck c = none) (hbar : d.mordUnqueued.drbgBars c.op = false) :
    ∃ r, (d.mordNext (n + 1)).mord.run = some r ∧ r.cmd = c ∧ r.orphan = false := by
  rw [Dev.mordNext_one n hrun hq hdead, hc, hbar]
  cases d.mordUnqueued.mordSlot c <;> exact ⟨_, rfl, rfl, rfl⟩

/-! ### Invalidation (R346) -/

theorem testBit_childrenOf (d : Dev) {set k : Nat} (h : set.testBit k = true) : (d.childrenOf set).testBit k = true := by
  unfold Dev.childrenOf
  refine List.foldlRecOn _ _ (motive := fun m : Nat => m.testBit k = true) h fun m hm j _ => ?_
  split
  · rw [testBit_setBit]
    split
    · rfl
    · exact hm
  · exact hm

/-- A set's slots are among those descended from it. -/
theorem testBit_subtree (d : Dev) {k : Nat} (n : Nat) : ∀ set, set.testBit k = true → (d.subtree n set).testBit k = true := by
  induction n with
  | zero => exact fun _ h => h
  | succ n ih =>
    intro set h
    unfold Dev.subtree
    split
    · exact h
    · exact ih _ (testBit_childrenOf d h)

/-- The slots an invalidation reaches. -/
def Dev.hitSlots (d : Dev) (set : Nat) : List Nat := (List.range 128).filter (fun k => (d.subtree 128 set).testBit k && d.slotState k == 1)

theorem Dev.mem_hitSlots {d : Dev} {set k : Nat} : k ∈ d.hitSlots set ↔ k < 128 ∧ (d.subtree 128 set).testBit k = true ∧ d.slotState k = 1 := by
  unfold Dev.hitSlots
  rw [List.mem_filter, List.mem_range, Bool.and_eq_true_iff, beq_iff_eq]

theorem Dev.slotState_setMeta_same (d : Dev) (k : Nat) : (d.setMeta k 8 2 2).slotState k = 2 := by
  unfold Dev.slotState Dev.meta Dev.setMeta
  rw [Dev.f_setF_same, show (Reg.MORD_K_META_WORD k).w = 32 from rfl]
  unfold putBits bits
  omega

theorem Dev.slotState_setMeta_ne (d : Dev) {k j : Nat} (h : j ≠ k) (lo w v : Nat) : (d.setMeta k lo w v).slotState j = d.slotState j :=
  congrArg (fun x => bits x 8 2) (d.f_setF_addr_ne _ (by simp only [Reg.MORD_K_META_WORD, Reg.MORD_K_META_at]; omega)
    (Nat.le_of_ble_eq_true rfl) (Nat.le_of_ble_eq_true rfl))

theorem Dev.slotState_setMetas (d : Dev) {l : List Nat} (hl : l.Nodup) (k : Nat) :
    (l.foldl (fun d k => d.setMeta k 8 2 2) d).slotState k = if k ∈ l then 2 else d.slotState k :=
  foldl_cell (I := fun _ => True) (rd := fun (e : Dev) j => e.slotState j) (G := fun _ _ => 2) (fun _ _ _ => trivial)
    (fun e j _ => e.slotState_setMeta_same j) (fun e j i _ hij => e.slotState_setMeta_ne hij 8 2 2) k l hl d trivial

theorem forEach_regs {F : Dev → Nat → Dev} (h : ∀ e n, (F e n).regs = e.regs) (n : Nat) (d : Dev) : (forEach n d F).regs = d.regs :=
  List.foldlRecOn _ _ (motive := fun e : Dev => e.regs = d.regs) rfl fun e he m _ => (h e m).trans he

/-- What an invalidation does beside the slots' words: the engine's command, the waiting commands and the checkpoints. -/
theorem Dev.invalidate_slots (d : Dev) (set k : Nat) (hk : k < 128) : (d.invalidate set).slotState k =
    ((d.hitSlots set).foldl (fun d k => d.setMeta k 8 2 2) d).slotState k := by
  have hmeta : (Reg.MORD_K_META_WORD k).OffMordReports := by
    refine ⟨Nat.le_of_ble_eq_true rfl, ?_, ?_, ?_⟩ <;>
      simp only [Reg.MORD_K_META_WORD, Reg.MORD_K_META_at, Reg.MORD_EVT_at, Reg.MORD_DENY_at] <;> omega
  have hreg : ∀ {e g : Dev}, Dev.Keeps RF.OffMordReports e g → g.slotState k = e.slotState k := fun h => congrArg (fun x => bits x 8 2) (h _ hmeta)
  refine hreg ?_
  unfold Dev.invalidate Dev.hitSlots
  dsimp only
  split
  next hh =>
    rw [List.isEmpty_iff.mp hh]
    exact .refl d
  next =>
    have hmarks : ∀ (e : Dev) (m : Mord) (P : Dev → Nat → Bool) (i : Nat → Fin 64) (g : SliceEng → SliceEng),
        Dev.Keeps RF.OffMordReports e (forEach 64 (e.setMord m) (fun d s => if P d s then d.modSlice (i s) g else d)) := fun e m P i g =>
      .of_regs (forEach_regs (fun e n => by split <;> rfl) 64 (e.setMord m))
    exact Dev.Keeps.trans (hmarks _ _ _ _ _) (Dev.mordEvt_keeps _ (by decide) rfl)

/-- A VALID slot that an invalidation reaches becomes INVALID, and no other slot changes. -/
theorem Dev.invalidate_slotState (d : Dev) (set : Nat) {k : Nat} (hk : k < 128) : (d.invalidate set).slotState k =
    if (d.subtree 128 set).testBit k = true ∧ d.slotState k = 1 then 2 else d.slotState k := by
  have hnodup : (d.hitSlots set).Nodup := List.Nodup.filter _ List.nodup_range
  rw [Dev.invalidate_slots d set k hk, Dev.slotState_setMetas d hnodup]
  exact if_congr (Dev.mem_hitSlots.trans (and_iff_right hk)) rfl rfl

/-- A check of the slot that nothing fails. -/
theorem Dev.slotCheck_none {d : Dev} {c : MCmd} {k : Nat} (h : d.slotCheck c k = none) : k < 128 ∧ d.slotState k = 1 := by
  unfold Dev.slotCheck at h
  dsimp only at h
  split at h
  · cases h
  next hk =>
    obtain ⟨hlt, hst⟩ := not_or.mp hk
    exact ⟨Nat.lt_of_not_le hlt, not_not.mp hst⟩

/-! ### The obligation -/

theorem exec_mordSubmit {src : Src} {ch : Fin 16} {i : Instr} {op : Nat} (h : (i, op) ∈ [(Instr.derive src ch, 1), (.invalidate src ch, 2),
    (.gcmEnc src ch, 3), (.gcmDec src ch, 4), (.hmac src ch, 5), (.sign src ch, 6), (.pubkey src ch, 7), (.chainKey src ch, 8),
    (.random src ch, 9), (.exportKey src ch, 10)]) (s : State) :
    exec i s = s.done (s.dev.mordSubmit src ch op) ∧ 1 ≤ op ∧ op ≤ 10 := by
  simp only [List.mem_cons, Prod.mk.injEq, List.not_mem_nil, or_false] at h
  obtain ⟨rfl, rfl⟩ | ⟨rfl, rfl⟩ | ⟨rfl, rfl⟩ | ⟨rfl, rfl⟩ | ⟨rfl, rfl⟩ | ⟨rfl, rfl⟩ | ⟨rfl, rfl⟩ | ⟨rfl, rfl⟩ | ⟨rfl, rfl⟩ | ⟨rfl, rfl⟩ := h <;>
    exact ⟨rfl, by decide, by decide⟩

theorem Dev.claim_free {d : Dev} {src : Src} {c : Fin 16} (hg : (d.guard src (Reg.MORD_CH_CLAIM_at c.1) false).isNone = true)
    (ho : d.mord.owners[c] = none) :
    d.claim src c = (d.setMord { d.mord with owners := put d.mord.owners c (some src) }).answer 1 := by
  unfold Dev.claim
  simp only [Option.isNone_iff_eq_none.mp hg, ho]

theorem Dev.claim_owned {d : Dev} {src x : Src} {c : Fin 16} (hg : (d.guard src (Reg.MORD_CH_CLAIM_at c.1) false).isNone = true)
    (ho : d.mord.owners[c] = some x) : d.claim src c = d.answer 0 := by
  unfold Dev.claim
  simp only [Option.isNone_iff_eq_none.mp hg, ho]

theorem Answers.of_claim {s : State} {src : Src} {c : Fin 16} (hl : Live s) (hg : (s.dev.guard src (Reg.MORD_CH_CLAIM_at c.1) false).isNone = true) :
    Answers (.claim src c) s (fun t => match s.dev.mord.owners[c] with
      | none => t.dev.resp = ⟨1, false⟩ ∧ t.dev.mord.owners[c] = some src
      | some _ => t.dev.resp = ⟨0, false⟩ ∧ t.dev.mord = s.dev.mord) := by
  refine .of_done (d := s.dev.claim src c) hl rfl ?_
  cases ho : s.dev.mord.owners[c] with
  | some x =>
    rw [Dev.claim_owned hg ho]
    exact ⟨rfl, rfl⟩
  | none =>
    rw [Dev.claim_free hg ho]
    exact ⟨rfl, getElem_put_same _ _ _⟩

section
variable {s : State} {src : Src} {ch : Fin 16} {i : Instr} {op : Nat} (hr : Reaches s src (Reg.MORD_CH_CMD_at ch.1))
  (he : exec i s = s.done (s.dev.mordSubmit src ch op)) (hop : 1 ≤ op ∧ op ≤ 10)
  (ho : s.dev.mord.owners[ch] = some src) (hb : s.dev.bit (Reg.MORD_CH_STAT_BUSY ch.1) = false)
include hr he

theorem Answers.of_mordStranger (hno : s.dev.mord.owners[ch] ≠ some src) : Answers i s (fun t => t.dev.mord = s.dev.mord) := by
  refine .of_done hr.1 he ?_
  rw [State.commit_mord, Dev.mordSubmit_stranger hr.2 hno, (Dev.deny_work (s.dev.answer 0) (by decide) src .write _).mord]
  rfl

include hop ho hb

theorem Answers.of_mordFails (hrun : s.dev.mord.run = none) (hq : s.dev.mord.queue = []) {r : Nat}
    (hc : s.dev.mordCheck (s.dev.mordCmd src ch op) = some r) : Answers i s (fun t => t.dev.f (Reg.MORD_CH_STAT_RESULT ch.1) = r ∧
      t.dev.bit (Reg.MORD_CH_STAT_BUSY ch.1) = false ∧ t.dev.mord.run = none) := by
  have hend : ∃ e : Dev, e.mord.run = none ∧ s.dev.mordSubmit src ch op = e.mordEnd (s.dev.mordCmd src ch op) r false := by
    rw [Dev.mordSubmit_owner hr.2 ho hb hop]
    by_cases h2 : op = 2
    · rw [if_pos h2, ((s.dev.answer 0).mordTaken_sameKept ch).mordCheck]
      refine ⟨(s.dev.answer 0).mordTaken ch, hrun, ?_⟩
      rw [show (s.dev.answer 0).mordCheck (s.dev.mordCmd src ch op) = some r from hc]
    · rw [if_neg h2]
      refine ⟨_, ?_, Dev.mordNext_fails 15 hrun ?_ rfl ?_⟩
      · exact hrun
      · exact congrArg (· ++ [s.dev.mordCmd src ch op]) hq
      · exact ((s.dev.answer 0).mordTaken_sameKept ch).mordCheck _ |>.trans hc
  obtain ⟨e, hrun', hend⟩ := hend
  refine .of_done hr.1 he ?_
  rw [hend]
  exact ⟨Dev.mordEnd_result e (s.dev.mordCmd src ch op) (Dev.mordCheck_lt hc) false, e.mordEnd_idle (s.dev.mordCmd src ch op) r false,
    (congrArg Mord.run (e.mordEnd_reports _ r false).2).trans hrun'⟩

theorem Answers.of_mordStarts (hrun : s.dev.mord.run = none) (hq : s.dev.mord.queue = []) (h2 : op ≠ 2)
    (hc : s.dev.mordCheck (s.dev.mordCmd src ch op) = none) (hd : (op = 6 ∨ op = 9) → s.dev.bit Reg.MORD_STAT_DRBG_OK = true) :
    Answers i s (fun t => ∃ r, t.dev.mord.run = some r ∧ r.cmd = s.dev.mordCmd src ch op ∧ r.orphan = false) := by
  have hkept := (s.dev.answer 0).mordTaken_sameKept ch
  have hbar : ((s.dev.answer 0).mordTaken ch).drbgBars op = false := by
    unfold Dev.drbgBars
    rw [Dev.bit_of_f (hkept.f Reg.MORD_STAT_DRBG_OK rfl)]
    by_cases h : op = 6 ∨ op = 9
    · rw [show (s.dev.answer 0).bit Reg.MORD_STAT_DRBG_OK = true from hd h, Bool.not_true, Bool.and_false]
    · obtain ⟨h6, h9⟩ := not_or.mp h
      rw [beq_eq_false_iff_ne.mpr h6, beq_eq_false_iff_ne.mpr h9]
      rfl
  refine .of_done hr.1 he ?_
  rw [Dev.mordSubmit_owner hr.2 ho hb hop, if_neg h2]
  refine Dev.mordNext_starts 15 hrun ?_ rfl ?_ hbar
  · exact congrArg (· ++ [s.dev.mordCmd src ch op]) hq
  · exact (hkept.mordCheck _).trans hc

theorem Answers.of_mordQueues (hrun : s.dev.mord.run.isSome = true) (h2 : op ≠ 2) : Answers i s (fun t => t.dev.mord.run = s.dev.mord.run ∧
    t.dev.mord.queue = s.dev.mord.queue ++ [s.dev.mordCmd src ch op]) := by
  refine .of_done hr.1 he ?_
  rw [Dev.mordSubmit_owner hr.2 ho hb hop, if_neg h2,
    Dev.mordNext_running (d := ((s.dev.answer 0).mordTaken ch).mordQueued _) 16 hrun]
  exact ⟨rfl, rfl⟩

theorem Answers.of_mordInvalidates (h2 : op = 2) (hc : s.dev.mordCheck (s.dev.mordCmd src ch op) = none) :
    Answers i s (fun t => t.dev.f (Reg.MORD_CH_STAT_RESULT ch.1) = 1 ∧ t.dev.slotState ((s.dev.mordCmd src ch op).arg 0) = 2 ∧
      ∀ k < 128, t.dev.slotState k = if (s.dev.subtree 128 (2 ^ (s.dev.mordCmd src ch op).arg 0)).testBit k = true ∧ s.dev.slotState k = 1 then 2
        else s.dev.slotState k) := by
  have hkept := (s.dev.answer 0).mordTaken_sameKept ch
  have hslots : ∀ k < 128, ((((s.dev.answer 0).mordTaken ch).invalidate (2 ^ (s.dev.mordCmd src ch op).arg 0)).mordEnd (s.dev.mordCmd src ch op) rOk
      false).slotState k = if (s.dev.subtree 128 (2 ^ (s.dev.mordCmd src ch op).arg 0)).testBit k = true ∧ s.dev.slotState k = 1 then 2
        else s.dev.slotState k := fun k hk => by
    rw [Dev.mordEnd_slotState _ _ _ _ hk, Dev.invalidate_slotState _ _ hk, hkept.subtree, hkept.slotState]
    rfl
  have hcheck : s.dev.slotCheck (s.dev.mordCmd src ch op) ((s.dev.mordCmd src ch op).arg 0) = none := by
    subst h2
    exact hc
  obtain ⟨hlt, hst⟩ := Dev.slotCheck_none hcheck
  refine .of_done hr.1 he ?_
  rw [Dev.mordSubmit_owner hr.2 ho hb hop, if_pos h2, hkept.mordCheck, show (s.dev.answer 0).mordCheck (s.dev.mordCmd src ch op) = none from hc]
  refine ⟨Dev.mordEnd_result _ (s.dev.mordCmd src ch op) (by decide) false, ?_, hslots⟩
  exact (hslots _ hlt).trans (if_pos ⟨testBit_subtree _ _ _ (Nat.testBit_two_pow_self ..), hst⟩)

end

/-- Settles O42: the checks read only fields that a submission does not write, and an invalidation changes one slot's word after another. -/
theorem keyCommandsAreChecked : Obligations.KeyCommandsAreChecked := by
  unfold Obligations.KeyCommandsAreChecked
  refine ⟨fun s src c hl hg => Answers.of_claim hl hg, fun s src ch i op hr hi => ?_⟩
  obtain ⟨he, hop⟩ := exec_mordSubmit hi s
  exact ⟨Answers.of_mordStranger hr he, fun ho hb => ⟨fun hrun hq => ⟨fun r hc => Answers.of_mordFails hr he hop ho hb hrun hq hc,
    fun hc h2 hd => Answers.of_mordStarts hr he hop ho hb hrun hq h2 hc hd⟩, fun hrun h2 => Answers.of_mordQueues hr he hop ho hb hrun h2,
    fun h2 hc => Answers.of_mordInvalidates hr he hop ho hb h2 hc⟩⟩

end Sys2Proof.Machine
end

section
/-!
PROOF. Writes of fields that take every word (R6), and the two words of a 64-bit pair.
-/

namespace Sys2Proof.Machine
open Sys2Proof

/-- A field without a range of its own and without fixed low bits. -/
theorem FieldRow.admits_free {f : FieldRow} (hok : f.ok = []) (hz : f.zlow = 0) (x : Nat) : f.admits x = true := by
  unfold FieldRow.admits
  rw [hok, hz, pow_zero, Nat.mod_one]
  rfl

/-- Such a field takes what a write that acts spells. -/
theorem Dev.f_writeRowWith_free (d : Dev) (src : Src) {a : Nat} (w : Nat) {pick : FieldRow → Verdict} (f : FieldRow)
    (hf : (Reg.row a).any (fun row => row.base == a && row.fields.contains f) = true) (hty : f.ty = .rw) (hok : f.ok = []) (hz : f.zlow = 0)
    (hact : pick f = .act) (h : a < 0x20004000 ∨ 0x20004800 ≤ a) : (d.writeRowWith src a w pick).f (f.sel a a) = bits w f.lo f.w :=
  (d.f_writeRowWith_listed src w a f hf hact h).trans (FieldRow.written_rw hty _ _ _ (FieldRow.admits_free hok hz _))

/-- A field of one bit holds the bit written. -/
theorem bits_one_beq (w lo : Nat) : (bits w lo 1 == 1) = w.testBit lo := by
  rw [Nat.testBit_eq_decide_div_mod_eq]
  rfl

/-- The two words of a pair hold the value's 64 bits. -/
theorem Dev.f64_setF64 (d : Dev) {lo hi : RF} (x : Nat) (hlo : lo.w = 32) (hhi : hi.w = 32) (h : lo.key ≠ hi.key) :
    (d.setF64 lo hi x).f64 lo hi = x % 2 ^ 64 := by
  unfold Dev.f64 Dev.setF64
  rw [Dev.f_setF_ne _ _ h, Dev.f_setF_same, Dev.f_setF_same, hlo, hhi]
  omega

end Sys2Proof.Machine
end

section
/-!
PROOF. DRAM channels (R356-R358): enabling, training, failing, scrubbing.
-/

namespace Sys2Proof.Machine
open Sys2Proof

/-! ### A failing channel (R358) -/

/-- A channel marked FAILED and fenced, the window sized anew, the contents lost, the failure reported. -/
def Dev.dramDown (d : Dev) (n cause : Nat) : Dev :=
  let e := ((d.setTb Reg.DRAM_STAT_FAILED n true).setTb Reg.SYS_FENCE_DRAM n true).dramSize
  ((e.setDramEpoch (e.dramEpoch + 1)).log 0x05 58 (evInfo n) cause).raise Reg.MEM_EVT_CH_FAIL 1 58

theorem Dev.dramFail_failed {d : Dev} {n : Nat} (cause : Nat) (h : d.tb Reg.DRAM_STAT_FAILED n = true) : d.dramFail n cause = d := if_pos h

/-- After the failure the slices with rings in DRAM take their orphan policies. -/
theorem Dev.dramFail_work {d : Dev} {n : Nat} (cause : Nat) (h : d.tb Reg.DRAM_STAT_FAILED n = false) :
    Dev.VatWork (d.dramDown n cause) (d.dramFail n cause) := by
  have heq : d.dramFail n cause = forEach 64 (d.dramDown n cause) (fun d s => if d.ringsInDram s then d.orphanSlice s else d) :=
    if_neg (by rw [h]; exact Bool.false_ne_true)
  rw [heq]
  unfold forEach
  refine Dev.Work.foldl_mem _ _ (fun s hs e => ?_) _
  exact Dev.Work.ite _ (e.orphanSlice_work (List.mem_range.mp hs)) (.refl e)

/-- A field the log and the events of the memories leave alone. -/
theorem Dev.f_dramDown (d : Dev) (n cause : Nat) {r : RF} (hl : r.lo < 32) (h : r.addr < 0x20004000 ∨ 0x20004800 ≤ r.addr)
    (hne : ¬(r.addr = Reg.MEM_EVT_at ∧ r.lo = 4)) :
    (d.dramDown n cause).f r = ((d.setTb Reg.DRAM_STAT_FAILED n true).setTb Reg.SYS_FENCE_DRAM n true).dramSize.f r := by
  unfold Dev.dramDown
  dsimp only
  rw [Dev.f_raise_off _ _ (by decide) hl (by decide) h hne, Dev.f_log_off _ _ _ _ _ hl h]
  rfl

/-- The fields of DRAM_STAT and the DRAM bits of SYS_FENCE. -/
theorem Reg.dramField_apart {r : RF} (hl : r.lo < 32) (h : r.addr = Reg.DRAM_STAT_at ∨ r.addr = Reg.SYS_FENCE_at) :
    r.Apart ∧ (r.addr < 0x20004000 ∨ 0x20004800 ≤ r.addr) ∧ ¬(r.addr = Reg.MEM_EVT_at ∧ r.lo = 4) := by
  obtain h | h := h <;> rw [RF.Apart, h] <;> refine ⟨⟨hl, by decide⟩, by decide, fun hc => absurd hc.1 (by decide)⟩

/-- A field of DRAM_STAT or SYS_FENCE after a failure. -/
theorem Dev.f_dramFail {d : Dev} {n : Nat} (cause : Nat) (hf : d.tb Reg.DRAM_STAT_FAILED n = false) {r : RF} (hl : r.lo < 32)
    (h : r.addr = Reg.DRAM_STAT_at ∨ r.addr = Reg.SYS_FENCE_at) :
    (d.dramFail n cause).f r = ((d.setTb Reg.DRAM_STAT_FAILED n true).setTb Reg.SYS_FENCE_DRAM n true).dramSize.f r := by
  obtain ⟨hapart, hblock, hevt⟩ := Reg.dramField_apart hl h
  exact ((Dev.dramFail_work cause hf).f r hapart).trans (d.f_dramDown n cause hl hblock hevt)

/-- The size of the window is written in WINDOW and READY. -/
theorem Dev.f_dramSize_off (d : Dev) {r : RF} (hl : r.lo < 32) (h : ¬(r.addr = Reg.DRAM_STAT_at ∧ (r.lo = 0 ∨ r.lo = 16))) :
    d.dramSize.f r = d.f r := by
  unfold Dev.dramSize
  dsimp only
  rw [Dev.f_setB_off _ _ (by decide) hl (fun hc => h ⟨hc.1, .inl hc.2⟩), Dev.f_setF_off _ _ (by decide) hl (fun hc => h ⟨hc.1, .inr hc.2⟩)]

theorem Dev.dramSize_ready (d : Dev) : d.dramSize.bit Reg.DRAM_STAT_READY = (d.dramLive 0 || d.dramLive 1) := by
  unfold Dev.dramSize Dev.bit
  dsimp only
  rw [Dev.f_setB_same _ _ _ (by decide), ite_one_zero_beq_one]
  cases d.dramLive 0 <;> cases d.dramLive 1 <;> rfl

/-- What a failure of channel `n` leaves in DRAM_STAT and SYS_FENCE. -/
structure Dev.DramDown (d e : Dev) (n : Nat) : Prop where
  failed : ∀ j < 2, e.tb Reg.DRAM_STAT_FAILED j = if j = n then true else d.tb Reg.DRAM_STAT_FAILED j
  fenced : ∀ j < 2, e.tb Reg.SYS_FENCE_DRAM j = if j = n then true else d.tb Reg.SYS_FENCE_DRAM j
  trained : e.f Reg.DRAM_STAT_TRAINED = d.f Reg.DRAM_STAT_TRAINED
  ready : e.bit Reg.DRAM_STAT_READY = ((d.dramLive 0 && n != 0) || (d.dramLive 1 && n != 1))
  epoch : e.dramEpoch = d.dramEpoch + 1

theorem Dev.dramSize_dramEpoch (d : Dev) : d.dramSize.dramEpoch = d.dramEpoch := rfl

theorem Dev.raise_log_dramEpoch (d : Dev) (x code source info data : Nat) (r : RF) (m i : Nat) :
    (((d.setDramEpoch x).log code source info data).raise r m i).dramEpoch = x :=
  ((Dev.raise_reports _ _ _ _).dramEpoch).trans (Dev.log_dramEpoch _ _ _ _ _)

theorem Dev.dramDown_dramEpoch (d : Dev) (n cause : Nat) : (d.dramDown n cause).dramEpoch = d.dramEpoch + 1 :=
  Dev.raise_log_dramEpoch _ _ _ _ _ _ _ _ _

theorem Dev.dramFail_down {d : Dev} {n : Nat} (hn : n < 2) (cause : Nat) (hf : d.tb Reg.DRAM_STAT_FAILED n = false) :
    Dev.DramDown d (d.dramFail n cause) n := by
  have hlive : ∀ j < 2, ((d.setTb Reg.DRAM_STAT_FAILED n true).setTb Reg.SYS_FENCE_DRAM n true).dramLive j = (d.dramLive j && n != j) := by
    intro j hj
    unfold Dev.dramLive
    rw [Dev.tb_of_f (Dev.f_setTb_off _ _ _ (by decide) (by decide) (by decide)), Dev.tb_of_f (Dev.f_setTb_off _ _ _ (by decide) (by decide) (by decide)),
      Dev.tb_of_f (Dev.f_setTb_off _ _ _ (by decide) (by decide) (by decide)), Dev.tb_setTb _ _ _ _ hj]
    by_cases h : j = n
    · subst h
      rw [if_pos rfl, bne_self_eq_false, Bool.not_true, Bool.and_false, Bool.and_false]
    · rw [if_neg h, bne_iff_ne.mpr (Ne.symm h), Bool.and_true]
  refine ⟨fun j hj => ?_, fun j hj => ?_, ?_, ?_, ?_⟩
  · rw [Dev.tb_of_f (Dev.f_dramFail cause hf (by decide) (.inl rfl)), Dev.tb_of_f (Dev.f_dramSize_off _ (by decide) (by decide)),
      Dev.tb_of_f (Dev.f_setTb_off _ _ _ (by decide) (by decide) (by decide)), Dev.tb_setTb _ _ _ _ hj]
  · rw [Dev.tb_of_f (Dev.f_dramFail cause hf (by decide) (.inr rfl)), Dev.tb_of_f (Dev.f_dramSize_off _ (by decide) (by decide)),
      Dev.tb_setTb _ _ _ _ hj, Dev.tb_of_f (Dev.f_setTb_off _ _ _ (by decide) (by decide) (by decide))]
  · rw [Dev.f_dramFail cause hf (by decide) (.inl rfl), Dev.f_dramSize_off _ (by decide) (by decide),
      Dev.f_setTb_off _ _ _ (by decide) (by decide) (by decide), Dev.f_setTb_off _ _ _ (by decide) (by decide) (by decide)]
  · rw [Dev.bit_of_f (Dev.f_dramFail cause hf (by decide) (.inl rfl)), Dev.dramSize_ready, hlive 0 (by decide), hlive 1 (by decide)]
  · exact (Dev.dramFail_work cause hf).dramEpoch.trans (d.dramDown_dramEpoch n cause)

/-! ### Training (R356) -/

theorem trained_any : ∀ m : Fin 4, (m.1.testBit 0 || m.1.testBit 1) = decide (m ≠ 0) := by decide
theorem trained_without_zero : ∀ m : Fin 4, m.1.testBit 0 = false → ((m.1.testBit 0 && 0 != 0) || (m.1.testBit 1 && 0 != 1)) = decide (m ≠ 0) := by
  decide
theorem trained_without_one : ∀ m : Fin 4, m.1.testBit 1 = false → ((m.1.testBit 0 && 1 != 0) || (m.1.testBit 1 && 1 != 1)) = decide (m ≠ 0) := by
  decide

/-- Channels below `k` are judged: the untrained ones are FAILED and fenced. -/
structure Dev.DramJudged (d : Dev) (m : Fin 4) (k : Nat) : Prop where
  trained : d.f Reg.DRAM_STAT_TRAINED = m.1
  ready : d.bit Reg.DRAM_STAT_READY = decide (m ≠ 0)
  failed : ∀ j < 2, d.tb Reg.DRAM_STAT_FAILED j = (decide (j < k) && !m.1.testBit j)
  fenced : ∀ j < 2, j < k → m.1.testBit j = false → d.tb Reg.SYS_FENCE_DRAM j = true

theorem Dev.DramJudged.live {d : Dev} {m : Fin 4} {k : Nat} (h : d.DramJudged m k) {j : Nat} (hj : j < 2) : d.dramLive j = m.1.testBit j := by
  unfold Dev.dramLive Dev.tb
  rw [h.trained, show (d.f Reg.DRAM_STAT_FAILED).testBit j = _ from h.failed j hj]
  cases m.1.testBit j <;> cases decide (j < k) <;> rfl

theorem Dev.DramJudged.next {d : Dev} {m : Fin 4} {k : Nat} (hk : k < 2) (h : d.DramJudged m k) :
    Dev.DramJudged (if m.1.testBit k then d else d.dramFail k 0) m (k + 1) := by
  have hlt : ∀ j, j ≠ k → (j < k + 1 ↔ j < k) := fun j hj => by omega
  split
  next hb =>
    refine ⟨h.trained, h.ready, fun j hj => ?_, fun j hj hjk hm => ?_⟩
    · rw [h.failed j hj]
      by_cases hj' : j = k
      · rw [hj', hb, Bool.not_true, Bool.and_false, Bool.and_false]
      · rw [decide_eq_decide.mpr (hlt j hj')]
    · by_cases hj' : j = k
      · rw [hj', hb] at hm
        cases hm
      · exact h.fenced j hj ((hlt j hj').mp hjk) hm
  next hb =>
    have hb := Bool.eq_false_iff.mpr hb
    have hf : d.tb Reg.DRAM_STAT_FAILED k = false := by
      rw [h.failed k hk, decide_eq_false (Nat.lt_irrefl k)]
      rfl
    obtain ⟨hfailed, hfenced, htrained, hready, -⟩ := Dev.dramFail_down hk 0 hf
    refine ⟨htrained.trans h.trained, ?_, fun j hj => ?_, fun j hj hjk hm => ?_⟩
    · rw [hready, h.live (by decide), h.live (by decide)]
      have hk01 : k = 0 ∨ k = 1 := by omega
      obtain rfl | rfl := hk01
      · exact trained_without_zero m hb
      · exact trained_without_one m hb
    · rw [hfailed j hj, h.failed j hj]
      by_cases hj' : j = k
      · rw [if_pos hj', hj', hb, decide_eq_true (Nat.lt_succ_self k)]
        rfl
      · rw [if_neg hj', decide_eq_decide.mpr (hlt j hj')]
    · rw [hfenced j hj]
      split
      · rfl
      next hj' => exact h.fenced j hj ((hlt j hj').mp hjk) hm

theorem Dev.dramReady_judged {d : Dev} (m : Fin 4) (hen : d.bit Reg.DRAM_CTL_EN = true) (hr : d.bit Reg.DRAM_STAT_READY = false)
    (hf : d.f Reg.DRAM_STAT_FAILED = 0) : (d.dramReady m.1).DramJudged m 2 := by
  have heq : d.dramReady m.1 = forEach 2 (((d.setF Reg.DRAM_STAT_TRAINED m.1).dramSize).setDram { d.dram with scrubAt := d.up })
      (fun d n => if m.1.testBit n then d else d.dramFail n 0) := if_pos (by rw [hen, hr]; rfl)
  have htr : (d.setF Reg.DRAM_STAT_TRAINED m.1).f Reg.DRAM_STAT_TRAINED = m.1 := (Dev.f_setF_same _ _ _).trans (Nat.mod_eq_of_lt m.2)
  have hf0 : (d.setF Reg.DRAM_STAT_TRAINED m.1).f Reg.DRAM_STAT_FAILED = 0 := (Dev.f_setF_off _ _ (by decide) (by decide) (by decide)).trans hf
  have hlive : ∀ j, (d.setF Reg.DRAM_STAT_TRAINED m.1).dramLive j = m.1.testBit j := fun j => by
    unfold Dev.dramLive Dev.tb
    rw [htr, hf0, Nat.zero_testBit, Bool.not_false, Bool.and_true]
  have hstart : Dev.DramJudged (((d.setF Reg.DRAM_STAT_TRAINED m.1).dramSize).setDram { d.dram with scrubAt := d.up }) m 0 := by
    refine ⟨?_, ?_, fun j hj => ?_, fun j hj h => absurd h (Nat.not_lt_zero j)⟩
    · exact (Dev.f_dramSize_off _ (by decide) (by decide)).trans htr
    · refine (Dev.dramSize_ready _).trans ?_
      rw [hlive, hlive]
      exact trained_any m
    · have h0 : ((d.setF Reg.DRAM_STAT_TRAINED m.1).dramSize).f Reg.DRAM_STAT_FAILED = 0 := (Dev.f_dramSize_off _ (by decide) (by decide)).trans hf0
      exact (congrArg (·.testBit j) h0).trans (Nat.zero_testBit j)
  rw [heq]
  exact (hstart.next (by decide)).next (by decide)

theorem Answers.of_dramReady {s : State} {m : Fin 4} (hl : Live s) (hen : s.dev.bit Reg.DRAM_CTL_EN = true)
    (hr : s.dev.bit Reg.DRAM_STAT_READY = false) (hf : s.dev.f Reg.DRAM_STAT_FAILED = 0) :
    Answers (.dramReady m) s (fun t => t.dev.f Reg.DRAM_STAT_TRAINED = m.1 ∧ t.dev.bit Reg.DRAM_STAT_READY = decide (m ≠ 0) ∧
      ∀ n < 2, t.dev.tb Reg.DRAM_STAT_FAILED n = !m.1.testBit n ∧ (m.1.testBit n = false → t.dev.tb Reg.SYS_FENCE_DRAM n = true)) := by
  obtain ⟨htrained, hready, hfailed, hfenced⟩ := Dev.dramReady_judged m hen hr hf
  refine .of_done hl rfl ?_
  rw [State.commit_f, State.commit_bit]
  refine ⟨htrained, hready, fun n hn => ⟨(hfailed n hn).trans ?_, hfenced n hn hn⟩⟩
  rw [decide_eq_true hn, Bool.true_and]

theorem Answers.of_dramChannelFail {s : State} {n : Fin 2} (hl : Live s) (hlive : s.dev.dramLive n.1 = true) :
    Answers (.dramChannelFail n) s (fun t =>
      if s.dev.f Reg.DRAM_ECC_CFG_UE_LIM < ((s.dev.dramUes n.1).filter (fun t => decide (s.dev.up < t + 400000000))).length then
        t.dev.tb Reg.DRAM_STAT_FAILED n.1 = true ∧ t.dev.tb Reg.SYS_FENCE_DRAM n.1 = true ∧ t.dev.dramEpoch = s.dev.dramEpoch + 1
      else t.dev.dramEpoch = s.dev.dramEpoch ∧ t.dev.f Reg.DRAM_STAT_FAILED = s.dev.f Reg.DRAM_STAT_FAILED) := by
  have hf : s.dev.tb Reg.DRAM_STAT_FAILED n.1 = false := Bool.not_eq_true' _ |>.mp (Bool.and_eq_true_iff.mp hlive).2
  by_cases hk : s.dev.f Reg.DRAM_ECC_CFG_UE_LIM < ((s.dev.dramUes n.1).filter (fun t => decide (s.dev.up < t + 400000000))).length
  · obtain ⟨hfailed, hfenced, -, -, hepoch⟩ := Dev.dramFail_down n.2 1 hf
    refine .of_done hl (congrArg s.done (if_pos (by rw [hlive, decide_eq_true hk]; rfl))) ?_
    rw [if_pos hk]
    exact ⟨(hfailed n.1 n.2).trans (if_pos rfl), (hfenced n.1 n.2).trans (if_pos rfl), hepoch⟩
  · refine .of_done hl (congrArg s.done (if_neg (by rw [decide_eq_false hk, Bool.and_false]; exact Bool.false_ne_true))) ?_
    rw [if_neg hk]
    exact ⟨rfl, rfl⟩

/-! ### A write of DRAM_CTL (R356) -/

/-- A write of DRAM_CTL to its fields, before EN ends the operation. -/
def Dev.dramCtlWritten (d : Dev) (src : Src) (w : Nat) : Dev :=
  d.writeRowWith src Reg.DRAM_CTL_at w (fun f => if f.lo == 0 || !d.bit Reg.DRAM_CTL_EN then .act else .bad)

/-- The contents are lost with the channels. -/
def Dev.dramEnd (d : Dev) : Dev :=
  let e := ((d.setF Reg.DRAM_STAT_READY 0).setF Reg.DRAM_STAT_TRAINED 0).setF Reg.DRAM_STAT_WINDOW 0
  e.setDramEpoch (e.dramEpoch + 1)

theorem Dev.dramEnd_f (d : Dev) (r : RF) :
    d.dramEnd.f r = (((d.setF Reg.DRAM_STAT_READY 0).setF Reg.DRAM_STAT_TRAINED 0).setF Reg.DRAM_STAT_WINDOW 0).f r := rfl

theorem Dev.dramCtl_eq (d : Dev) (src : Src) (w : Nat) : d.dramCtl src w =
    if (d.bit Reg.DRAM_CTL_EN && !(d.dramCtlWritten src w).bit Reg.DRAM_CTL_EN) = true then (d.dramCtlWritten src w).dramEnd
    else d.dramCtlWritten src w := rfl

theorem Dev.dramCtlWritten_en (d : Dev) (src : Src) (w : Nat) : (d.dramCtlWritten src w).bit Reg.DRAM_CTL_EN = w.testBit 0 := by
  have hf := d.f_writeRowWith_free src (a := Reg.DRAM_CTL_at) w (pick := fun f => if f.lo == 0 || !d.bit Reg.DRAM_CTL_EN then .act else .bad)
    ⟨0, 1, .rw, .const 0, true, [], 0⟩ (by decide +kernel) rfl rfl rfl rfl (by decide)
  exact (congrArg (· == 1) hf).trans (bits_one_beq w 0)

theorem Dev.dramCtlWritten_dramEpoch (d : Dev) (src : Src) (w : Nat) : (d.dramCtlWritten src w).dramEpoch = d.dramEpoch :=
  (Dev.writeRowWith_reports _ _ _ _ _).dramEpoch

theorem exec_dramEnable {s : State} {src : Src} {w : Word} (hr : Reaches s src Reg.DRAM_CTL_at) :
    exec (.dramEnable src w) s = s.done ((s.dev.answer 0).dramCtl src w.toNat) := congrArg s.done (Dev.onWrite_unguarded hr.2 _)

theorem Answers.of_dramEnable {s : State} {src : Src} {w : Word} (hr : Reaches s src Reg.DRAM_CTL_at)
    (hen : s.dev.bit Reg.DRAM_CTL_EN = false) (hw : w.toNat.testBit 0 = true) :
    Answers (.dramEnable src w) s (fun t => t.dev.bit Reg.DRAM_CTL_EN = true ∧ t.dev.dramEpoch = s.dev.dramEpoch) := by
  refine .of_done hr.1 (exec_dramEnable hr) ?_
  have hen' : (s.dev.answer 0).bit Reg.DRAM_CTL_EN = false := hen
  rw [Dev.dramCtl_eq, if_neg (by rw [hen', Bool.false_and]; exact Bool.false_ne_true), State.commit_bit, Dev.dramCtlWritten_en]
  exact ⟨hw, Dev.dramCtlWritten_dramEpoch _ _ _⟩

theorem Answers.of_dramDisable {s : State} {src : Src} {w : Word} (hr : Reaches s src Reg.DRAM_CTL_at)
    (hen : s.dev.bit Reg.DRAM_CTL_EN = true) (hw : w.toNat.testBit 0 = false) :
    Answers (.dramEnable src w) s (fun t => t.dev.bit Reg.DRAM_CTL_EN = false ∧ t.dev.bit Reg.DRAM_STAT_READY = false ∧
      t.dev.f Reg.DRAM_STAT_TRAINED = 0 ∧ t.dev.f Reg.DRAM_STAT_WINDOW = 0 ∧ t.dev.dramEpoch = s.dev.dramEpoch + 1) := by
  refine .of_done hr.1 (exec_dramEnable hr) ?_
  have hen' : (s.dev.answer 0).bit Reg.DRAM_CTL_EN = true := hen
  rw [Dev.dramCtl_eq, if_pos (by rw [hen', Dev.dramCtlWritten_en, hw]; rfl), State.commit_bit, State.commit_bit, State.commit_f, State.commit_f]
  have hoff : ∀ (d : Dev) {x r : RF}, r.lo < 32 → x.lo < 32 → ¬(r.addr = x.addr ∧ r.lo = x.lo) → (d.setF x 0).f r = d.f r := fun d x r hr hx h =>
    Dev.f_setF_off _ _ hx hr h
  refine ⟨?_, ?_, ?_, ?_, ?_⟩
  · refine (Dev.bit_of_f ?_).trans (((s.dev.answer 0).dramCtlWritten_en src w.toNat).trans hw)
    rw [Dev.dramEnd_f, hoff _ (by decide) (by decide) (by decide), hoff _ (by decide) (by decide) (by decide),
      hoff _ (by decide) (by decide) (by decide)]
  · refine (Dev.bit_of_f ?_).trans (Dev.bit_setF_zero (Dev.dramCtlWritten (s.dev.answer 0) src w.toNat) Reg.DRAM_STAT_READY)
    rw [Dev.dramEnd_f, hoff _ (by decide) (by decide) (by decide), hoff _ (by decide) (by decide) (by decide)]
  · rw [Dev.dramEnd_f, hoff _ (by decide) (by decide) (by decide)]
    exact Dev.f_setF_same _ _ _
  · rw [Dev.dramEnd_f]
    exact Dev.f_setF_same _ _ _
  · exact congrArg (· + 1) ((s.dev.answer 0).dramCtlWritten_dramEpoch src w.toNat)

/-! ### The scrubber (R357) -/

/-- A field of DRAM's registers or of its tag, which reports leave alone. -/
def RF.OffScrub (r : RF) : Prop := r.lo < 32 ∧ (r.addr < 0x20004000 ∨ 0x20004800 ≤ r.addr) ∧ ¬(r.addr = Reg.MEM_EVT_at)

theorem Dev.f_raise_offScrub (d : Dev) {e r : RF} (he : e.addr = Reg.MEM_EVT_at) (hel : e.lo < 32) (m : Nat) (hr : r.OffScrub) :
    (d.raise e m 58).f r = d.f r := by
  obtain ⟨hl, ha, hne⟩ := hr
  exact Dev.f_raise_off _ _ (by decide) hl hel ha (fun hc => hne (hc.1.trans he))

/-- The device once the corrected errors are counted. -/
def Dev.scrubCorrected (d : Dev) (corrected : Nat) : Dev :=
  let per := 1440000000000 * d.f Reg.DRAM_ECC_CFG_SCRUB
  let d := d.setDram { d.dram with scrubAt := d.dram.scrubAt + (d.up - d.dram.scrubAt) / per * per }
  if corrected = 0 then d else (d.bump Reg.DRAM_CE_COUNT corrected).raise Reg.MEM_EVT_CE 1 58

theorem Dev.f_scrubCorrected_off (d : Dev) {c : Nat} {r : RF} (hr : r.OffScrub) (h : ¬(r.addr = Reg.DRAM_CE_at ∧ r.lo = 0)) :
    (d.scrubCorrected c).f r = d.f r := by
  unfold Dev.scrubCorrected
  dsimp only
  split
  · rfl
  · rw [Dev.f_raise_offScrub _ rfl (by decide) _ hr, Dev.f_bump_off _ _ (by decide) hr.1 h]
    rfl

theorem Dev.scrubCorrected_count (d : Dev) {c : Nat} (hc : c ≠ 0) :
    (d.scrubCorrected c).f Reg.DRAM_CE_COUNT = min (2 ^ 32 - 1) (d.f Reg.DRAM_CE_COUNT + c) := by
  unfold Dev.scrubCorrected
  dsimp only
  rw [if_neg hc, Dev.f_raise_offScrub _ rfl (by decide) _ ⟨by decide, by decide, by decide⟩, Dev.f_bump_same]
  rfl

theorem Dev.serves_scrubCorrected (d : Dev) (c a : Nat) (ha : inDram a = true) : (d.scrubCorrected c).serves a = d.serves a := by
  have hs : inSram a = false := by
    unfold inDram at ha
    unfold inSram
    simp only [Bool.and_eq_true, decide_eq_true_eq] at ha
    simp only [Bool.and_eq_false_iff, decide_eq_false_iff_not]
    omega
  have hserves : ∀ e : Dev, e.serves a = (e.bit Reg.DRAM_STAT_READY && e.f (Reg.PWR_QTAG_STATE 38) == 0 &&
      a < 0x100000000 + 0x100000 * e.f Reg.DRAM_STAT_WINDOW) := fun e =>
    (if_neg (by rw [hs]; exact Bool.false_ne_true)).trans (if_pos ha)
  rw [hserves, hserves, Dev.bit_of_f (Dev.f_scrubCorrected_off d ⟨by decide, by decide, by decide⟩ (by decide)),
    Dev.f_scrubCorrected_off d ⟨by decide, by decide, by decide⟩ (by decide),
    Dev.f_scrubCorrected_off d ⟨by decide, by decide, by decide⟩ (by decide)]

/-- An uncorrectable error is counted with its address. -/
theorem Dev.dramUe_shows (d : Dev) (a info : Nat) : (d.dramUe a info).f Reg.DRAM_UE_COUNT = min (2 ^ 32 - 1) (d.f Reg.DRAM_UE_COUNT + 1) ∧
    (d.dramUe a info).f64 Reg.DRAM_UE_ADDR_LO_ADDR Reg.DRAM_UE_ADDR_HI_ADDR = a % 2 ^ 64 := by
  have hoff : ∀ (e : Dev) (r : RF), r.OffScrub → ((e.log 0x0C 58 info (page a)).raise Reg.MEM_EVT_UE_DRAM 1 58).f r = e.f r := fun e r hr => by
    rw [Dev.f_raise_offScrub _ rfl (by decide) _ hr, Dev.f_log_off _ _ _ _ _ hr.1 hr.2.1]
  unfold Dev.dramUe
  dsimp only
  refine ⟨?_, ?_⟩
  · rw [hoff _ _ ⟨by decide, by decide, by decide⟩]
    unfold Dev.setF64
    rw [Dev.f_setF_off _ _ (by decide) (by decide) (by decide), Dev.f_setF_off _ _ (by decide) (by decide) (by decide), Dev.f_bump_same]
    rfl
  · unfold Dev.f64
    rw [hoff _ _ ⟨by decide, by decide, by decide⟩, hoff _ _ ⟨by decide, by decide, by decide⟩]
    exact Dev.f64_setF64 _ _ rfl rfl (by decide)

theorem Dev.scrubPass_eq {d : Dev} (c : Nat) (bad : List Nat) (hr : d.bit Reg.DRAM_STAT_READY = true) (hs : d.f Reg.DRAM_ECC_CFG_SCRUB ≠ 0)
    (hp : d.f (Reg.PWR_QTAG_STATE 38) = 0) (ht : d.dram.scrubAt + 1440000000000 * d.f Reg.DRAM_ECC_CFG_SCRUB ≤ d.up) :
    d.scrubPass c bad = (bad.foldl (fun d a => if inDram a && d.serves a then d.dramUe a (evInfo 16) else d) (d.scrubCorrected c)).pend 90 := by
  have hper : 1440000000000 * d.f Reg.DRAM_ECC_CFG_SCRUB ≠ 0 := Nat.mul_ne_zero (by decide) hs
  exact if_pos (by rw [hr, hp, bne_iff_ne.mpr hper, decide_eq_true ht]; rfl)

theorem Answers.of_scrubPass {s : State} {c : Nat} (hl : Live s) (hr : s.dev.bit Reg.DRAM_STAT_READY = true)
    (hs : s.dev.f Reg.DRAM_ECC_CFG_SCRUB ≠ 0) (hp : s.dev.f (Reg.PWR_QTAG_STATE 38) = 0)
    (ht : s.dev.dram.scrubAt + 1440000000000 * s.dev.f Reg.DRAM_ECC_CFG_SCRUB ≤ s.dev.up) (hc : c ≠ 0) :
    Answers (.scrubPass c []) s (fun t => t.dev.f Reg.DRAM_CE_COUNT = min (2 ^ 32 - 1) (s.dev.f Reg.DRAM_CE_COUNT + c)) := by
  refine .of_done hl (congrArg s.done (Dev.scrubPass_eq c [] hr hs hp ht)) ?_
  rw [State.commit_f, Dev.f_pend_off _ (by decide) (by decide) (by decide)]
  exact s.dev.scrubCorrected_count hc

theorem Answers.of_scrubPass_uncorrectable {s : State} {c a : Nat} (hl : Live s) (hr : s.dev.bit Reg.DRAM_STAT_READY = true)
    (hs : s.dev.f Reg.DRAM_ECC_CFG_SCRUB ≠ 0) (hp : s.dev.f (Reg.PWR_QTAG_STATE 38) = 0)
    (ht : s.dev.dram.scrubAt + 1440000000000 * s.dev.f Reg.DRAM_ECC_CFG_SCRUB ≤ s.dev.up) (ha : inDram a = true) (hserv : s.dev.serves a = true) :
    Answers (.scrubPass c [a]) s (fun t => t.dev.f Reg.DRAM_UE_COUNT = min (2 ^ 32 - 1) (s.dev.f Reg.DRAM_UE_COUNT + 1) ∧
      t.dev.f64 Reg.DRAM_UE_ADDR_LO_ADDR Reg.DRAM_UE_ADDR_HI_ADDR = a % 2 ^ 64) := by
  have hue : s.dev.scrubPass c [a] = ((s.dev.scrubCorrected c).dramUe a (evInfo 16)).pend 90 :=
    (Dev.scrubPass_eq c [a] hr hs hp ht).trans (congrArg (Dev.pend · 90)
      (if_pos (by rw [Dev.serves_scrubCorrected _ _ _ ha, ha, hserv]; rfl)))
  obtain ⟨hcount, haddr⟩ := (s.dev.scrubCorrected c).dramUe_shows a (evInfo 16)
  refine .of_done hl (congrArg s.done hue) ?_
  unfold Dev.f64 at haddr ⊢
  rw [State.commit_f, State.commit_f, State.commit_f, Dev.f_pend_off _ (by decide) (by decide) (by decide),
    Dev.f_pend_off _ (by decide) (by decide) (by decide), Dev.f_pend_off _ (by decide) (by decide) (by decide)]
  refine ⟨hcount.trans ?_, haddr⟩
  rw [Dev.f_scrubCorrected_off s.dev ⟨by decide, by decide, by decide⟩ (by decide)]

/-- Settles O44, command by command; a failing channel goes through `Dev.dramFail_down`. -/
theorem dramTrainsAndFails : Obligations.DramTrainsAndFails := by
  unfold Obligations.DramTrainsAndFails
  refine ⟨fun s src w hr => ⟨.of_dramEnable hr, .of_dramDisable hr⟩, fun s m hl hen hr hf => .of_dramReady hl hen hr hf,
    fun s n hl hlive => .of_dramChannelFail hl hlive,
    fun s c a hl hr hs hp ht hc => ⟨.of_scrubPass hl hr hs hp ht hc, fun ha hserv => .of_scrubPass_uncorrectable hl hr hs hp ht ha hserv⟩⟩

end Sys2Proof.Machine
end

section
/-!
PROOF. The state machine of the auxiliary switches (R361-R365, R371-R373): what each of its moves leaves in a switch's registers, and the
requests, clamps, holds and supplies that cause the moves.
-/

namespace Sys2Proof.Machine
open Sys2Proof

/-- The registers of a switch, written out: addresses of one switch differ by their numerals. -/
theorem Reg.auxFields (n : Nat) :
    Reg.AUX_CTL_ON n = ⟨0x200B0100 + 0x20 * n, 0, 1, 0, true⟩ ∧ Reg.AUX_CTL_DEF n = ⟨0x200B0100 + 0x20 * n, 1, 1, 0, true⟩ ∧
    Reg.AUX_NCFG_IRUSH n = ⟨0x200B0104 + 0x20 * n, 5, 6, 16, true⟩ ∧ Reg.AUX_NCFG_IRUSH_T n = ⟨0x200B0104 + 0x20 * n, 11, 8, 20, true⟩ ∧
    Reg.AUX_NCFG_RETRY n = ⟨0x200B0104 + 0x20 * n, 19, 2, 3, true⟩ ∧ Reg.AUX_NCFG_SAFE n = ⟨0x200B0104 + 0x20 * n, 21, 1, 1, true⟩ ∧
    Reg.AUX_NSTAT_STATE n = ⟨0x200B010C + 0x20 * n, 0, 3, 0, true⟩ ∧ Reg.AUX_NSTAT_LIMIT n = ⟨0x200B010C + 0x20 * n, 3, 1, 0, true⟩ ∧
    Reg.AUX_NSTAT_OPEN n = ⟨0x200B010C + 0x20 * n, 4, 1, 0, true⟩ ∧ Reg.AUX_NSTAT_HELD n = ⟨0x200B010C + 0x20 * n, 5, 1, 0, true⟩ ∧
    Reg.AUX_NSTAT_RETRIES n = ⟨0x200B010C + 0x20 * n, 6, 2, 0, true⟩ ∧ Reg.AUX_NSTAT_LAST n = ⟨0x200B010C + 0x20 * n, 8, 3, 0, true⟩ ∧
    Reg.AUX_NSTAT_HOLDING n = ⟨0x200B010C + 0x20 * n, 11, 1, 0, true⟩ ∧ Reg.AUX_NSTAT_WARNED n = ⟨0x200B010C + 0x20 * n, 12, 1, 0, true⟩ ∧
    Reg.AUX_SENSE_CODE n = ⟨0x200B0110 + 0x20 * n, 0, 12, 0, true⟩ := by
  repeat' constructor

@[simp] theorem Dev.f_modAux (d : Dev) (n : Fin 24) (g : Aux → Aux) (r : RF) : (d.modAux n g).f r = d.f r := rfl

@[simp] theorem Dev.bit_modAux (d : Dev) (n : Fin 24) (g : Aux → Aux) (r : RF) : (d.modAux n g).bit r = d.bit r := rfl

@[simp] theorem Dev.auxSt_modAux (d : Dev) (n m : Fin 24) (g : Aux → Aux) : (d.modAux n g).auxSt m = d.auxSt m := rfl

theorem Dev.aux_modAux_same (d : Dev) (n : Fin 24) (g : Aux → Aux) : (d.modAux n g).aux[n] = g d.aux[n] := getElem_put_same _ _ _

@[simp] theorem Dev.aux_setF (d : Dev) (r : RF) (x : Nat) : (d.setF r x).aux = d.aux := rfl

/-! ### A turn-on and a turn-off (R361) -/

/-- A turn-on writes STATE and WARNED. -/
theorem Dev.f_auxStart_off (d : Dev) (n : Fin 24) {r : RF} (hl : r.lo < 32) (h : ¬(r.addr = Reg.AUX_NSTAT_at n.1 ∧ (r.lo = 0 ∨ r.lo = 12))) :
    (d.auxStart n).f r = d.f r := by
  have h0 : ¬(r.addr = (Reg.AUX_NSTAT_STATE n.1).addr ∧ r.lo = 0) := fun hc => h ⟨hc.1, .inl hc.2⟩
  have h12 : ¬(r.addr = (Reg.AUX_NSTAT_WARNED n.1).addr ∧ r.lo = 12) := fun hc => h ⟨hc.1, .inr hc.2⟩
  unfold Dev.auxStart
  split
  · exact Dev.f_setF_off _ _ (Nat.le_of_ble_eq_true rfl) hl h0
  split
  · exact (Dev.f_modAux _ _ _ _).trans (Dev.f_setF_off _ _ (Nat.le_of_ble_eq_true rfl) hl h0)
  · exact (Dev.f_modAux _ _ _ _).trans ((Dev.f_setB_off _ _ (Nat.le_of_ble_eq_true rfl) hl h12).trans (Dev.f_setF_off _ _ (Nat.le_of_ble_eq_true rfl) hl h0))

/-- With VAUX a switch turns on at once, or into its inrush window. -/
theorem Dev.auxSt_auxStart {d : Dev} (hv : d.sup.vaux = true) (n : Fin 24) :
    (d.auxStart n).auxSt n = if d.f (Reg.AUX_NCFG_IRUSH n.1) = 0 then 2 else 1 := by
  unfold Dev.auxStart
  rw [if_neg (by rw [hv]; decide)]
  split
  · exact (Dev.f_modAux _ _ _ _).trans (Dev.f_setF_same _ _ _)
  · refine (Dev.f_modAux _ _ _ _).trans ((Dev.f_setB_off _ _ (Nat.le_of_ble_eq_true rfl) (Nat.le_of_ble_eq_true rfl) ?_).trans (Dev.f_setF_same _ _ _))
    simp [Reg.auxFields]

theorem Dev.holdTill_auxStart (d : Dev) (n : Fin 24) : ((d.auxStart n).aux[n]).holdTill = (d.aux[n]).holdTill := by
  unfold Dev.auxStart
  split
  · rfl
  split <;> simp only [Dev.setB_eq, Dev.aux_modAux_same, Dev.aux_setF]

/-- A turn-off writes STATE, LIMIT and WARNED. -/
theorem Dev.f_auxStop_off (d : Dev) (n : Fin 24) (dst : Nat) {r : RF} (hl : r.lo < 32)
    (h : ¬(r.addr = Reg.AUX_NSTAT_at n.1 ∧ (r.lo = 0 ∨ r.lo = 3 ∨ r.lo = 12))) : (d.auxStop n dst).f r = d.f r := by
  have hoff : ∀ (e : Dev) {x : RF} (y : Nat), x.addr = Reg.AUX_NSTAT_at n.1 → (x.lo = 0 ∨ x.lo = 3 ∨ x.lo = 12) → (e.setF x y).f r = e.f r :=
    fun e x y ha hx => Dev.f_setF_off _ _ (by omega) hl fun hc => h ⟨hc.1.trans ha, by omega⟩
  unfold Dev.auxStop
  dsimp only
  rw [hoff _ (x := Reg.AUX_NSTAT_STATE n.1) _ rfl (.inl rfl)]
  rw [Dev.f_modAux, hoff _ (x := Reg.AUX_NSTAT_WARNED n.1) _ rfl (.inr (.inr rfl)), hoff _ (x := Reg.AUX_NSTAT_LIMIT n.1) _ rfl (.inr (.inl rfl))]

/-- A switch turned off goes where the turn-off decides, through CLAMP while current is sensed. -/
theorem Dev.auxSt_auxStop_to (d : Dev) (n : Fin 24) {dst : Nat} (hdst : dst < 8) :
    (d.auxStop n dst).auxSt n = if d.f (Reg.AUX_SENSE_CODE n.1) = 0 then dst else 3 := by
  have hsense : (((d.setF (Reg.AUX_NSTAT_LIMIT n.1) 0).setF (Reg.AUX_NSTAT_WARNED n.1) 0).modAux n
      (fun a => { a with clampTo := dst, onAt := none, lowAt := none, highAt := none })).f (Reg.AUX_SENSE_CODE n.1) =
      d.f (Reg.AUX_SENSE_CODE n.1) := by
    simp [Reg.auxFields]
  unfold Dev.auxStop Dev.auxSt
  dsimp only
  rw [Dev.f_setF_same, hsense]
  split
  · exact Nat.mod_eq_of_lt hdst
  · rfl

theorem Dev.clampTo_auxStop (d : Dev) (n : Fin 24) (dst : Nat) : ((d.auxStop n dst).aux[n]).clampTo = dst := by
  simp only [Dev.auxStop, Dev.aux_modAux_same, Dev.aux_setF]

theorem Dev.holdTill_auxStop (d : Dev) (n : Fin 24) (dst : Nat) : ((d.auxStop n dst).aux[n]).holdTill = (d.aux[n]).holdTill := by
  simp only [Dev.auxStop, Dev.aux_modAux_same, Dev.aux_setF]

/-! ### Requests (R361, R362, R365) -/

/-- A request of a switch that is already requested changes nothing. -/
theorem Dev.auxWantOn_requested {d : Dev} {n : Fin 24} (h : d.bit (Reg.AUX_CTL_ON n.1) = true) : d.auxWantOn n = d := if_pos h

/-- What a new request does after its bit is set. -/
theorem Dev.auxWantOn_cases {d : Dev} {n : Fin 24} (h : d.bit (Reg.AUX_CTL_ON n.1) = false) :
    d.auxWantOn n = (if d.auxSt n = 0 then (d.setF (Reg.AUX_CTL_ON n.1) 1).auxStart n
      else if d.auxSt n = 3 then (d.setF (Reg.AUX_CTL_ON n.1) 1).setF (Reg.AUX_NSTAT_HELD n.1) 1
      else d.setF (Reg.AUX_CTL_ON n.1) 1) := by
  have hst : (d.setF (Reg.AUX_CTL_ON n.1) 1).auxSt n = d.auxSt n := by simp [Dev.auxSt, Reg.auxFields]
  unfold Dev.auxWantOn
  rw [if_neg (by rw [h]; exact Bool.false_ne_true)]
  dsimp only
  rw [hst]
  split
  next h0 => rw [if_pos h0]
  next h3 => rw [if_neg (by rw [h3]; decide), if_pos h3]
  next h0 h3 => rw [if_neg h0, if_neg h3]

theorem Dev.f_auxWantOn_off (d : Dev) (n : Fin 24) {r : RF} (hl : r.lo < 32) (hctl : ¬(r.addr = Reg.AUX_CTL_at n.1 ∧ r.lo = 0))
    (h : ¬(r.addr = Reg.AUX_NSTAT_at n.1 ∧ (r.lo = 0 ∨ r.lo = 5 ∨ r.lo = 12))) : (d.auxWantOn n).f r = d.f r := by
  have hon : (d.setF (Reg.AUX_CTL_ON n.1) 1).f r = d.f r := Dev.f_setF_off _ _ (Nat.le_of_ble_eq_true rfl) hl hctl
  cases hreq : d.bit (Reg.AUX_CTL_ON n.1) with
  | true => rw [Dev.auxWantOn_requested hreq]
  | false =>
    rw [Dev.auxWantOn_cases hreq]
    split
    · exact (Dev.f_auxStart_off _ n hl (fun hc => h ⟨hc.1, by omega⟩)).trans hon
    split
    · exact (Dev.f_setF_off _ _ (Nat.le_of_ble_eq_true rfl) hl (fun hc => h ⟨hc.1, .inr (.inl hc.2)⟩)).trans hon
    · exact hon

theorem Dev.auxWantOn_on (d : Dev) (n : Fin 24) : (d.auxWantOn n).bit (Reg.AUX_CTL_ON n.1) = true := by
  have hon : (d.setF (Reg.AUX_CTL_ON n.1) 1).bit (Reg.AUX_CTL_ON n.1) = true := congrArg (· == 1) (Dev.f_setF_same _ _ _)
  cases hreq : d.bit (Reg.AUX_CTL_ON n.1) with
  | true => rw [Dev.auxWantOn_requested hreq, hreq]
  | false =>
    rw [Dev.auxWantOn_cases hreq]
    split
    · exact (Dev.bit_of_f (Dev.f_auxStart_off _ n (Nat.le_of_ble_eq_true rfl) (by simp [Reg.auxFields, Reg.AUX_NSTAT_at]))).trans hon
    split
    · exact (Dev.bit_of_f (Dev.f_setF_off _ _ (Nat.le_of_ble_eq_true rfl) (Nat.le_of_ble_eq_true rfl) (by simp [Reg.auxFields]))).trans hon
    · exact hon

theorem Dev.holdTill_auxWantOn (d : Dev) (n : Fin 24) : ((d.auxWantOn n).aux[n]).holdTill = (d.aux[n]).holdTill := by
  cases hreq : d.bit (Reg.AUX_CTL_ON n.1) with
  | true => rw [Dev.auxWantOn_requested hreq]
  | false =>
    rw [Dev.auxWantOn_cases hreq]
    split
    · exact Dev.holdTill_auxStart _ n
    split <;> rfl

/-- The request is withdrawn and the retries are over. -/
def Dev.auxUnrequest (d : Dev) (n : Fin 24) : Dev :=
  ((d.setF (Reg.AUX_CTL_ON n.1) 0).setF (Reg.AUX_NSTAT_HELD n.1) 0).setF (Reg.AUX_NSTAT_RETRIES n.1) 0

theorem Dev.f_auxUnrequest_off (d : Dev) (n : Fin 24) {r : RF} (hl : r.lo < 32) (hctl : ¬(r.addr = Reg.AUX_CTL_at n.1 ∧ r.lo = 0))
    (h : ¬(r.addr = Reg.AUX_NSTAT_at n.1 ∧ (r.lo = 5 ∨ r.lo = 6))) : (d.auxUnrequest n).f r = d.f r := by
  unfold Dev.auxUnrequest
  rw [Dev.f_setF_off _ _ (Nat.le_of_ble_eq_true rfl) hl (fun hc => h ⟨hc.1, .inr hc.2⟩),
    Dev.f_setF_off _ _ (Nat.le_of_ble_eq_true rfl) hl (fun hc => h ⟨hc.1, .inl hc.2⟩), Dev.f_setF_off _ _ (Nat.le_of_ble_eq_true rfl) hl hctl]

theorem Dev.auxUnrequest_on (d : Dev) (n : Fin 24) : (d.auxUnrequest n).bit (Reg.AUX_CTL_ON n.1) = false := by
  simp [Dev.auxUnrequest, Dev.bit, Reg.auxFields]

theorem Dev.auxUnrequest_auxSt (d : Dev) (n : Fin 24) : (d.auxUnrequest n).auxSt n = d.auxSt n := by
  simp [Dev.auxUnrequest, Dev.auxSt, Reg.auxFields]

/-- Withdrawing a request: a conducting switch turns off, and at most STATE and where a clamp leads change otherwise. -/
theorem Dev.auxWantOff_cases (d : Dev) (n : Fin 24) :
    (d.auxOn n = true ∧ d.auxWantOff n = ((d.auxUnrequest n).auxStop n 0).modAux n (fun a => { a with reqOffAt := some (d.auxUnrequest n).up })) ∨
    (d.auxOn n = false ∧ ∃ e : Dev, (∀ r : RF, r.lo < 32 → ¬(r.addr = Reg.AUX_NSTAT_at n.1 ∧ r.lo = 0) → e.f r = (d.auxUnrequest n).f r) ∧
      (e.aux[n]).holdTill = (d.aux[n]).holdTill ∧ d.auxWantOff n = e) := by
  have hst : (d.auxUnrequest n).auxSt n = d.auxSt n := d.auxUnrequest_auxSt n
  have hoff : d.auxSt n ≠ 1 → d.auxSt n ≠ 2 → d.auxOn n = false := Dev.auxOn_of_ne
  have hset : ∀ r : RF, r.lo < 32 → ¬(r.addr = Reg.AUX_NSTAT_at n.1 ∧ r.lo = 0) →
      ((d.auxUnrequest n).setF (Reg.AUX_NSTAT_STATE n.1) 0).f r = (d.auxUnrequest n).f r := fun r hl h =>
    Dev.f_setF_off _ _ (Nat.le_of_ble_eq_true rfl) hl h
  have heq : d.auxWantOff n = match (d.auxUnrequest n).auxSt n with
      | 1 | 2 => ((d.auxUnrequest n).auxStop n 0).modAux n (fun a => { a with reqOffAt := some (d.auxUnrequest n).up })
      | 3 => (d.auxUnrequest n).modAux n (fun a =>
          { a with clampTo := if a.clampTo = 5 && !decide (((d.auxUnrequest n).aux[n]).offAt = (d.auxUnrequest n).up) then 5 else 0 })
      | 4 => (d.auxUnrequest n).setF (Reg.AUX_NSTAT_STATE n.1) 0
      | 5 => if decide (((d.auxUnrequest n).aux[n]).offAt = (d.auxUnrequest n).up) then (d.auxUnrequest n).setF (Reg.AUX_NSTAT_STATE n.1) 0
          else d.auxUnrequest n
      | _ => d.auxUnrequest n := rfl
  rw [heq, hst]
  split
  next h => exact .inl ⟨by rw [Dev.auxOn, h]; rfl, rfl⟩
  next h => exact .inl ⟨by rw [Dev.auxOn, h]; rfl, rfl⟩
  next h =>
    refine .inr ⟨hoff (by rw [h]; decide) (by rw [h]; decide), _, fun _ _ _ => Dev.f_modAux _ _ _ _, ?_, rfl⟩
    rw [Dev.aux_modAux_same]
    rfl
  next h => exact .inr ⟨hoff (by rw [h]; decide) (by rw [h]; decide), _, hset, rfl, rfl⟩
  next h =>
    refine .inr ⟨hoff (by rw [h]; decide) (by rw [h]; decide), _, fun r hl hr => ?_, ?_, rfl⟩
    · split
      · exact hset r hl hr
      · rfl
    · split <;> rfl
  next h1 h2 _ _ _ => exact .inr ⟨hoff h1 h2, _, fun _ _ _ => rfl, rfl, rfl⟩

theorem Dev.f_auxWantOff_off (d : Dev) (n : Fin 24) {r : RF} (hl : r.lo < 32)
    (h : ¬(r.addr = Reg.AUX_NSTAT_at n.1 ∧ (r.lo = 0 ∨ r.lo = 3 ∨ r.lo = 12))) : (d.auxWantOff n).f r = (d.auxUnrequest n).f r := by
  obtain ⟨-, heq⟩ | ⟨-, e, hf, -, heq⟩ := d.auxWantOff_cases n <;> rw [heq]
  · exact (Dev.f_modAux _ _ _ _).trans (Dev.f_auxStop_off _ n 0 hl h)
  · exact hf r hl (fun hc => h ⟨hc.1, .inl hc.2⟩)

theorem Dev.holdTill_auxWantOff (d : Dev) (n : Fin 24) : ((d.auxWantOff n).aux[n]).holdTill = (d.aux[n]).holdTill := by
  obtain ⟨-, heq⟩ | ⟨-, e, -, hhold, heq⟩ := d.auxWantOff_cases n <;> rw [heq]
  · rw [Dev.aux_modAux_same]
    exact Dev.holdTill_auxStop _ n 0
  · exact hhold

theorem Dev.auxWantOff_on (d : Dev) (n : Fin 24) : (d.auxWantOff n).bit (Reg.AUX_CTL_ON n.1) = false :=
  (Dev.bit_of_f (d.f_auxWantOff_off n (Nat.le_of_ble_eq_true rfl) (by simp [Reg.auxFields, Reg.AUX_NSTAT_at]))).trans (d.auxUnrequest_on n)

/-- A conducting switch whose request is withdrawn. -/
theorem Dev.auxWantOff_of_on {d : Dev} {n : Fin 24} (h : d.auxOn n = true) :
    (d.auxWantOff n).auxSt n = (if d.f (Reg.AUX_SENSE_CODE n.1) = 0 then 0 else 3) ∧ ((d.auxWantOff n).aux[n]).clampTo = 0 ∧
      (d.auxWantOff n).f (Reg.AUX_NSTAT_RETRIES n.1) = 0 := by
  have hretries : (d.auxWantOff n).f (Reg.AUX_NSTAT_RETRIES n.1) = 0 :=
    (d.f_auxWantOff_off n (Nat.le_of_ble_eq_true rfl) (by simp [Reg.auxFields])).trans (Dev.f_setF_same _ _ 0)
  have hsense : (d.auxUnrequest n).f (Reg.AUX_SENSE_CODE n.1) = d.f (Reg.AUX_SENSE_CODE n.1) := by simp [Dev.auxUnrequest, Reg.auxFields]
  obtain ⟨-, heq⟩ | ⟨hoff, -⟩ := d.auxWantOff_cases n
  · refine ⟨?_, ?_, hretries⟩
    · rw [heq, Dev.auxSt_modAux, Dev.auxSt_auxStop_to _ n (by decide), hsense]
    · rw [heq, Dev.aux_modAux_same]
      exact Dev.clampTo_auxStop _ n 0
  · rw [h] at hoff
    cases hoff

/-! ### Writes of AUX_n_CTL (R362, R372) -/

/-- The hold ends and DEF takes its bit, before the request acts. -/
def Dev.auxCtlTaken (d : Dev) (n : Fin 24) (w : Nat) : Dev :=
  ((d.setF (Reg.AUX_NSTAT_HOLDING n.1) 0).modAux n (fun a => { a with holdTill := none })).setB (Reg.AUX_CTL_DEF n.1) (w.testBit 1)

theorem Dev.f_auxCtlTaken_off (d : Dev) (n : Fin 24) (w : Nat) {r : RF} (hl : r.lo < 32) (hctl : ¬(r.addr = Reg.AUX_CTL_at n.1 ∧ r.lo = 1))
    (h : ¬(r.addr = Reg.AUX_NSTAT_at n.1 ∧ r.lo = 11)) : (d.auxCtlTaken n w).f r = d.f r := by
  unfold Dev.auxCtlTaken
  rw [Dev.f_setB_off _ _ (Nat.le_of_ble_eq_true rfl) hl hctl, Dev.f_modAux, Dev.f_setF_off _ _ (Nat.le_of_ble_eq_true rfl) hl h]

theorem Dev.auxCtl_eq (d : Dev) (src : Src) (n : Fin 24) (w : Nat) : d.auxCtl src n w =
    if w.testBit 0 then
      if (d.auxCtlTaken n w).auxBarred n ∨ (d.auxCtlTaken n w).auxSt n = 5 then (d.auxCtlTaken n w).logRefused src (Reg.AUX_CTL_at n.1)
      else (d.auxCtlTaken n w).auxWantOn n
    else (d.auxCtlTaken n w).auxWantOff n := rfl

/-- What the taken write shows. -/
structure Dev.CtlTaken (d e : Dev) (n : Fin 24) (w : Nat) : Prop where
  state : e.auxSt n = d.auxSt n
  on : e.bit (Reg.AUX_CTL_ON n.1) = d.bit (Reg.AUX_CTL_ON n.1)
  dflt : e.bit (Reg.AUX_CTL_DEF n.1) = w.testBit 1
  holding : e.bit (Reg.AUX_NSTAT_HOLDING n.1) = false
  barred : e.auxBarred n = d.auxBarred n
  inrush : e.f (Reg.AUX_NCFG_IRUSH n.1) = d.f (Reg.AUX_NCFG_IRUSH n.1)
  sense : e.f (Reg.AUX_SENSE_CODE n.1) = d.f (Reg.AUX_SENSE_CODE n.1)

theorem Dev.auxCtlTaken_shows (d : Dev) (n : Fin 24) (w : Nat) : Dev.CtlTaken d (d.auxCtlTaken n w) n w := by
  have hoff : ∀ r : RF, r.lo < 32 → ¬(r.addr = Reg.AUX_CTL_at n.1 ∧ r.lo = 1) → ¬(r.addr = Reg.AUX_NSTAT_at n.1 ∧ r.lo = 11) →
      (d.auxCtlTaken n w).f r = d.f r := fun r hl h1 h2 => d.f_auxCtlTaken_off n w hl h1 h2
  refine ⟨?_, ?_, ?_, ?_, ?_, ?_, ?_⟩
  · exact hoff _ (Nat.le_of_ble_eq_true rfl) (by simp [Reg.auxFields]) (by simp [Reg.auxFields])
  · exact Dev.bit_of_f (hoff _ (Nat.le_of_ble_eq_true rfl) (by simp [Reg.auxFields]) (by simp [Reg.auxFields, Reg.AUX_NSTAT_at]))
  · exact (congrArg (· == 1) (Dev.f_setB_same _ _ _ (Nat.le_of_ble_eq_true rfl))).trans (ite_one_zero_beq_one _)
  · simp [Dev.auxCtlTaken, Dev.bit, Reg.auxFields]
  · unfold Dev.auxBarred Dev.safeStop
    rw [Dev.bit_of_f (hoff _ (Nat.le_of_ble_eq_true rfl) (by simp [Reg.auxFields, Reg.AUX_CTL_at]) (by simp [Reg.auxFields, Reg.AUX_NSTAT_at])),
      Dev.bit_of_f (hoff _ (by decide) (by simp [Reg.MAD_STAT_SAFE_STOP]) (by simp [Reg.MAD_STAT_SAFE_STOP]))]
  · exact hoff _ (Nat.le_of_ble_eq_true rfl) (by simp [Reg.auxFields]) (by simp [Reg.auxFields, Reg.AUX_NSTAT_at])
  · exact hoff _ (Nat.le_of_ble_eq_true rfl) (by simp [Reg.auxFields]) (by simp [Reg.auxFields, Reg.AUX_NSTAT_at])

theorem State.commit_auxSt (s : State) (d : Dev) (n : Fin 24) : (s.commit d).dev.auxSt n = d.auxSt n := rfl

section
variable {s : State} {src : Src} {n : Fin 24} {w : Word} {i : Instr} (hr : Reaches s src (Reg.AUX_CTL_at n.1))
  (hi : i = .auxOnRequest src n w ∨ i = .auxOffRequest src n w)
include hr hi

theorem exec_auxRequest : exec i s = s.done ((s.dev.answer 0).auxCtl src n w.toNat) := by
  obtain rfl | rfl := hi <;> exact congrArg s.done (Dev.onWrite_unguarded hr.2 _)

theorem Answers.of_auxRefused (hw : w.toNat.testBit 0 = true) (h : s.dev.auxBarred n = true ∨ s.dev.auxSt n = 5) :
    Answers i s (fun t => t.dev.auxSt n = s.dev.auxSt n ∧ t.dev.bit (Reg.AUX_CTL_ON n.1) = s.dev.bit (Reg.AUX_CTL_ON n.1) ∧
      t.dev.bit (Reg.AUX_CTL_DEF n.1) = w.toNat.testBit 1 ∧ t.dev.bit (Reg.AUX_NSTAT_HOLDING n.1) = false) := by
  have ht := (s.dev.answer 0).auxCtlTaken_shows n w.toNat
  have hno : ((s.dev.answer 0).auxCtlTaken n w.toNat).auxBarred n = true ∨ ((s.dev.answer 0).auxCtlTaken n w.toNat).auxSt n = 5 := by
    rw [ht.barred, ht.state]
    exact h
  have hlog : ∀ (e : Dev) (r : RF), r.lo < 32 → 0x20004800 ≤ r.addr → (e.logRefused src (Reg.AUX_CTL_at n.1)).f r = e.f r := fun e r hl ha =>
    Dev.f_log_off e _ _ _ _ hl (.inr ha)
  have hctl : 0x20004800 ≤ Reg.AUX_CTL_at n.1 := by unfold Reg.AUX_CTL_at; omega
  have hstat : 0x20004800 ≤ Reg.AUX_NSTAT_at n.1 := by unfold Reg.AUX_NSTAT_at; omega
  refine .of_done hr.1 (exec_auxRequest hr hi) ?_
  rw [Dev.auxCtl_eq, if_pos hw, if_pos hno, State.commit_auxSt, State.commit_bit, State.commit_bit, State.commit_bit]
  refine ⟨(hlog _ _ (Nat.le_of_ble_eq_true rfl) hstat).trans ht.state, (Dev.bit_of_f (hlog _ _ (Nat.le_of_ble_eq_true rfl) hctl)).trans ht.on,
    (Dev.bit_of_f (hlog _ _ (Nat.le_of_ble_eq_true rfl) hctl)).trans ht.dflt,
    (Dev.bit_of_f (hlog _ _ (Nat.le_of_ble_eq_true rfl) hstat)).trans ht.holding⟩

theorem Answers.of_auxTurnOn (hw : w.toNat.testBit 0 = true) (hb : s.dev.auxBarred n = false) (hst : s.dev.auxSt n = 0)
    (hon : s.dev.bit (Reg.AUX_CTL_ON n.1) = false) (hv : s.dev.sup.vaux = true) :
    Answers i s (fun t => t.dev.auxSt n = (if s.dev.f (Reg.AUX_NCFG_IRUSH n.1) = 0 then 2 else 1) ∧
      t.dev.bit (Reg.AUX_CTL_ON n.1) = true ∧ t.dev.bit (Reg.AUX_CTL_DEF n.1) = w.toNat.testBit 1) := by
  have ht := (s.dev.answer 0).auxCtlTaken_shows n w.toNat
  have hyes : ¬(((s.dev.answer 0).auxCtlTaken n w.toNat).auxBarred n = true ∨ ((s.dev.answer 0).auxCtlTaken n w.toNat).auxSt n = 5) := by
    rw [ht.barred, ht.state]
    exact fun hc => hc.elim (fun hb' => Bool.false_ne_true (hb.symm.trans hb')) (fun hs => absurd (hst.symm.trans hs) (by decide))
  have hwant : ((s.dev.answer 0).auxCtlTaken n w.toNat).auxWantOn n =
      (((s.dev.answer 0).auxCtlTaken n w.toNat).setF (Reg.AUX_CTL_ON n.1) 1).auxStart n :=
    (Dev.auxWantOn_cases (ht.on.trans hon)).trans (if_pos (ht.state.trans hst))
  refine .of_done hr.1 (exec_auxRequest hr hi) ?_
  rw [Dev.auxCtl_eq, if_pos hw, if_neg hyes, State.commit_bit, State.commit_bit]
  refine ⟨?_, Dev.auxWantOn_on _ n, (Dev.bit_of_f (Dev.f_auxWantOn_off _ n (Nat.le_of_ble_eq_true rfl) (by simp [Reg.auxFields])
    (by simp [Reg.auxFields, Reg.AUX_NSTAT_at]))).trans ht.dflt⟩
  rw [hwant, State.commit_auxSt, Dev.auxSt_auxStart (d := (Dev.auxCtlTaken (s.dev.answer 0) n w.toNat).setF (Reg.AUX_CTL_ON n.1) 1) hv n,
    Dev.f_setF_off _ _ (Nat.le_of_ble_eq_true rfl) (Nat.le_of_ble_eq_true rfl) (by simp [Reg.auxFields]), ht.inrush]
  rfl

theorem Answers.of_auxTurnOff (hw : w.toNat.testBit 0 = false) (hon : s.dev.auxOn n = true) :
    Answers i s (fun t => t.dev.auxSt n = (if s.dev.f (Reg.AUX_SENSE_CODE n.1) = 0 then 0 else 3) ∧ (t.dev.aux[n]).clampTo = 0 ∧
      t.dev.bit (Reg.AUX_CTL_ON n.1) = false ∧ t.dev.f (Reg.AUX_NSTAT_RETRIES n.1) = 0) := by
  have ht := (s.dev.answer 0).auxCtlTaken_shows n w.toNat
  have hon' : ((s.dev.answer 0).auxCtlTaken n w.toNat).auxOn n = true := by
    unfold Dev.auxOn
    rw [ht.state]
    exact hon
  obtain ⟨hst, hclamp, hretries⟩ := Dev.auxWantOff_of_on hon'
  rw [ht.sense] at hst
  refine .of_done hr.1 (exec_auxRequest hr hi) ?_
  rw [Dev.auxCtl_eq, if_neg (by rw [hw]; exact Bool.false_ne_true), State.commit_bit, State.commit_f]
  exact ⟨hst, hclamp, Dev.auxWantOff_on _ n, hretries⟩

end

/-! ### The end of an inrush window, a clamp, a hold (R361, R362, R372) -/

theorem Answers.of_inrushEnd {s : State} {n : Fin 24} (hst : s.dev.auxSt n = 1) (ht : (s.dev.aux[n]).winEnd ≤ s.dev.up) :
    Answers (.inrushEnd n) s (fun t => t.dev.auxSt n = 2 ∧ (t.dev.aux[n]).onAt = some s.dev.up) := by
  refine .of_donePower (congrArg s.donePower (if_pos ⟨hst, ht⟩)) ⟨?_, ?_⟩
  · rw [State.commit_auxSt]
    simp [Dev.auxSt, Reg.auxFields]
  · exact congrArg Aux.onAt (getElem_put_same _ _ _)

/-- The clamp has ended. -/
def Dev.clampOver (d : Dev) (n : Fin 24) : Dev :=
  (d.setF (Reg.AUX_NSTAT_HELD n.1) 0).setF (Reg.AUX_NSTAT_STATE n.1) (d.aux[n]).clampTo

theorem Dev.clampEnd_eq {d : Dev} {n : Fin 24} (hst : d.auxSt n = 3) (hs : d.f (Reg.AUX_SENSE_CODE n.1) < 5) :
    d.clampEnd n = if (d.aux[n]).clampTo = 5 then (d.clampOver n).setF (Reg.AUX_CTL_ON n.1) 0
      else if d.bit (Reg.AUX_NSTAT_HELD n.1) = true ∧ (d.aux[n]).clampTo = 0 then (d.clampOver n).auxStart n else d.clampOver n :=
  if_pos ⟨hst, hs⟩

theorem Answers.of_clampEnd {s : State} {n : Fin 24} (hst : s.dev.auxSt n = 3) (hs : s.dev.f (Reg.AUX_SENSE_CODE n.1) < 5)
    (hheld : s.dev.bit (Reg.AUX_NSTAT_HELD n.1) = false) :
    Answers (.clampEnd n) s (fun t => t.dev.auxSt n = (s.dev.aux[n]).clampTo % 8) := by
  have hover : (s.dev.clampOver n).auxSt n = (s.dev.aux[n]).clampTo % 8 := Dev.f_setF_same _ _ _
  refine .of_donePower (congrArg s.donePower (Dev.clampEnd_eq hst hs)) ?_
  rw [hheld, if_neg (c := false = true ∧ _) (fun hc => Bool.false_ne_true hc.1)]
  split
  · rw [State.commit_auxSt, ← hover]
    simp [Dev.auxSt, Reg.auxFields, Reg.AUX_CTL_at]
  · exact hover

theorem Answers.of_clampEnd_held {s : State} {n : Fin 24} (hst : s.dev.auxSt n = 3) (hs : s.dev.f (Reg.AUX_SENSE_CODE n.1) < 5)
    (hheld : s.dev.bit (Reg.AUX_NSTAT_HELD n.1) = true) (hto : (s.dev.aux[n]).clampTo = 0) (hv : s.dev.sup.vaux = true) :
    Answers (.clampEnd n) s (fun t => t.dev.auxSt n = (if s.dev.f (Reg.AUX_NCFG_IRUSH n.1) = 0 then 2 else 1) ∧
      t.dev.bit (Reg.AUX_NSTAT_HELD n.1) = false) := by
  refine .of_donePower (congrArg s.donePower (Dev.clampEnd_eq hst hs)) ?_
  rw [hto, if_neg (by decide), if_pos ⟨hheld, rfl⟩, State.commit_bit]
  have hinrush : (s.dev.clampOver n).f (Reg.AUX_NCFG_IRUSH n.1) = s.dev.f (Reg.AUX_NCFG_IRUSH n.1) := by simp [Dev.clampOver, Reg.auxFields]
  refine ⟨?_, ?_⟩
  · rw [← hinrush]
    exact Dev.auxSt_auxStart (d := s.dev.clampOver n) hv n
  · rw [Dev.bit_of_f (Dev.f_auxStart_off _ n (Nat.le_of_ble_eq_true rfl) (by simp [Reg.auxFields]))]
    simp [Dev.clampOver, Dev.bit, Reg.auxFields]

/-- The hold is over, before DEF acts. -/
def Dev.auxUnheld (d : Dev) (n : Fin 24) : Dev := (d.setF (Reg.AUX_NSTAT_HOLDING n.1) 0).modAux n (fun a => { a with holdTill := none })

theorem Dev.auxHoldOver_eq (d : Dev) (n : Fin 24) : d.auxHoldOver n =
    if (d.auxUnheld n).bit (Reg.AUX_CTL_DEF n.1) && !(d.auxUnheld n).auxBarred n then
      (if (d.auxUnheld n).auxSt n = 5 then d.auxUnheld n else (d.auxUnheld n).auxWantOn n)
    else if (d.auxUnheld n).bit (Reg.AUX_CTL_ON n.1) then (d.auxUnheld n).auxWantOff n else d.auxUnheld n := rfl

theorem Answers.of_auxHoldEnd {s : State} {n : Fin 24} {t0 : Nat} (hh : (s.dev.aux[n]).holdTill = some t0) (ht : t0 ≤ s.dev.up)
    (hb : s.dev.auxBarred n = false) (hst : s.dev.auxSt n ≠ 5) :
    Answers (.auxHoldEnd n) s (fun t => t.dev.bit (Reg.AUX_NSTAT_HOLDING n.1) = false ∧ (t.dev.aux[n]).holdTill = none ∧
      t.dev.bit (Reg.AUX_CTL_ON n.1) = s.dev.bit (Reg.AUX_CTL_DEF n.1)) := by
  have heq : s.dev.auxHoldEnd n = s.dev.auxHoldOver n := by
    unfold Dev.auxHoldEnd
    rw [hh]
    exact if_pos ht
  have hoff : ∀ r : RF, r.lo < 32 → ¬(r.addr = Reg.AUX_NSTAT_at n.1 ∧ r.lo = 11) → (s.dev.auxUnheld n).f r = s.dev.f r := fun r hl h =>
    (Dev.f_modAux _ _ _ _).trans (Dev.f_setF_off s.dev (r := Reg.AUX_NSTAT_HOLDING n.1) _ (Nat.le_of_ble_eq_true rfl) hl h)
  have hdef : (s.dev.auxUnheld n).bit (Reg.AUX_CTL_DEF n.1) = s.dev.bit (Reg.AUX_CTL_DEF n.1) :=
    Dev.bit_of_f (hoff _ (Nat.le_of_ble_eq_true rfl) (by simp [Reg.auxFields, Reg.AUX_NSTAT_at]))
  have hbar : (s.dev.auxUnheld n).auxBarred n = false := by
    unfold Dev.auxBarred Dev.safeStop
    rw [Dev.bit_of_f (hoff _ (Nat.le_of_ble_eq_true rfl) (by simp [Reg.auxFields, Reg.AUX_NSTAT_at])),
      Dev.bit_of_f (hoff _ (by decide) (by simp [Reg.MAD_STAT_SAFE_STOP]))]
    exact hb
  have hst' : (s.dev.auxUnheld n).auxSt n ≠ 5 := by
    unfold Dev.auxSt
    rw [hoff _ (Nat.le_of_ble_eq_true rfl) (by simp [Reg.auxFields])]
    exact hst
  have hhold : (s.dev.auxUnheld n).bit (Reg.AUX_NSTAT_HOLDING n.1) = false :=
    (Dev.bit_modAux _ _ _ _).trans (Dev.bit_setF_zero _ _)
  have htill : ((s.dev.auxUnheld n).aux[n]).holdTill = none := congrArg Aux.holdTill (getElem_put_same _ _ _)
  refine .of_donePower (congrArg s.donePower (heq.trans (s.dev.auxHoldOver_eq n))) ?_
  rw [State.commit_bit, State.commit_bit, hdef, hbar, Bool.not_false, Bool.and_true, if_neg hst']
  cases s.dev.bit (Reg.AUX_CTL_DEF n.1) with
  | true =>
    rw [if_pos rfl]
    exact ⟨(Dev.bit_of_f (Dev.f_auxWantOn_off _ n (Nat.le_of_ble_eq_true rfl) (by simp [Reg.auxFields, Reg.AUX_CTL_at]) (by simp [Reg.auxFields]))).trans hhold,
      (Dev.holdTill_auxWantOn _ n).trans htill, Dev.auxWantOn_on _ n⟩
  | false =>
    rw [if_neg Bool.false_ne_true]
    split
    · refine ⟨?_, (Dev.holdTill_auxWantOff _ n).trans htill, Dev.auxWantOff_on _ n⟩
      rw [Dev.bit_of_f (Dev.f_auxWantOff_off _ n (Nat.le_of_ble_eq_true rfl) (by simp [Reg.auxFields])), 
        Dev.bit_of_f (Dev.f_auxUnrequest_off _ n (Nat.le_of_ble_eq_true rfl) (by simp [Reg.auxFields, Reg.AUX_CTL_at]) (by simp [Reg.auxFields]))]
      exact hhold
    next hon => exact ⟨hhold, htill, Bool.eq_false_iff.mpr hon⟩

/-! ### The supply of the switches (R371) -/

/-- VAUX is marked lost. -/
def Dev.vauxLost (d : Dev) : Dev :=
  let d := d.setSup { d.sup with vaux := false }
  ((d.setF Reg.AUX_STAT_UV 1).linkRaise Reg.AUX_EVT_UV 1 59).linkRaise Reg.PWR_EVT_VAUX_UV 1 66

theorem Dev.vauxLow_eq (d : Dev) : d.vauxLow = (List.finRange 24).foldl (fun d n => if d.auxOn n then d.auxStop n 0 else d) d.vauxLost := rfl

theorem Dev.auxStop_sup (d : Dev) (n : Fin 24) (dst : Nat) : (d.auxStop n dst).sup = d.sup := rfl

/-- The event bits of a lost supply leave the fields of the switches alone. -/
theorem Dev.f_vauxLost (d : Dev) {r : RF} (hl : r.lo < 32) (h : 0x200B0100 ≤ r.addr) (h' : r.addr < 0x200B1000) : d.vauxLost.f r = d.f r := by
  unfold Dev.vauxLost
  dsimp only
  rw [Dev.f_linkRaise_off _ _ (by decide) hl (by decide) (by omega) (by simp [Reg.PWR_EVT_VAUX_UV, Reg.PWR_EVT_at]; omega),
    Dev.f_linkRaise_off _ _ (by decide) hl (by decide) (by omega) (by simp [Reg.AUX_EVT_UV, Reg.AUX_EVT_at]; omega),
    Dev.f_setF_off _ _ (by decide) hl (by simp [Reg.AUX_STAT_UV, Reg.AUX_STAT_at]; omega)]
  rfl

theorem Dev.vauxLost_uv (d : Dev) : d.vauxLost.bit Reg.AUX_STAT_UV = true := by
  unfold Dev.vauxLost Dev.bit
  dsimp only
  rw [Dev.f_linkRaise_off _ _ (by decide) (by decide) (by decide) (by decide) (by decide),
    Dev.f_linkRaise_off _ _ (by decide) (by decide) (by decide) (by decide) (by decide), Dev.f_setF_same]
  rfl

theorem Dev.vauxLost_vaux (d : Dev) : d.vauxLost.sup.vaux = false := by
  unfold Dev.vauxLost
  dsimp only
  rw [Dev.linkRaise_sup, Dev.linkRaise_sup]
  rfl

/-- Turning a conducting switch off leaves it not conducting. -/
theorem Dev.auxStop_off (d : Dev) (n : Fin 24) : (d.auxStop n 0).auxOn n = false := by
  obtain h | h := d.auxSt_auxStop n <;> exact Dev.auxOn_of_ne (by rw [h]; decide) (by rw [h]; decide)

/-- The switches are turned off one by one. -/
theorem Dev.vauxLow_off (d : Dev) (n : Fin 24) : d.vauxLow.auxOn n = false := by
  rw [Dev.vauxLow_eq]
  refine foldl_establishes (I := fun _ => True) (P := fun e : Dev => e.auxOn n = false) (fun _ _ _ => trivial) (fun e _ => ?_)
    (fun e m _ he => ?_) (List.finRange 24) (List.mem_finRange n) _ trivial
  · split
    · exact e.auxStop_off n
    next h => exact Bool.eq_false_iff.mpr h
  · split
    · by_cases hmn : m = n
      · subst hmn
        exact e.auxStop_off m
      · have hst : (e.auxStop m 0).auxSt n = e.auxSt n :=
          e.f_auxStop_off m 0 (Nat.le_of_ble_eq_true rfl) (fun hc => hmn (Fin.ext (by
            have := hc.1
            simp only [Reg.AUX_NSTAT_STATE, Reg.AUX_NSTAT_at] at this
            omega)))
        unfold Dev.auxOn
        rw [hst]
        exact he
    · exact he

/-- The loop over the switches writes their STAT registers only. -/
theorem Dev.vauxLow_keeps (d : Dev) {r : RF} (hl : r.lo < 32) (h : ∀ n : Fin 24, r.addr ≠ Reg.AUX_NSTAT_at n.1) : d.vauxLow.f r = d.vauxLost.f r := by
  rw [Dev.vauxLow_eq]
  exact Dev.Keeps.foldl (P := fun r => r.lo < 32 ∧ ∀ n : Fin 24, r.addr ≠ Reg.AUX_NSTAT_at n.1) _
    (fun e n _ => .ite (e.auxStop_keepsAux n 0 fun r hr => ⟨hr.1, hr.2 n⟩) (.refl e)) _ r ⟨hl, h⟩

theorem Dev.vauxLow_vaux (d : Dev) : d.vauxLow.sup.vaux = false := by
  rw [Dev.vauxLow_eq]
  refine List.foldlRecOn _ _ (motive := fun e : Dev => e.sup.vaux = false) d.vauxLost_vaux fun e he n _ => ?_
  split
  · exact he
  · exact he

theorem Answers.of_vauxUndervoltage (s : State) : Answers .vauxUndervoltage s (fun t => t.dev.sup.vaux = false ∧ t.dev.bit Reg.AUX_STAT_UV = true ∧
    ∀ n : Fin 24, t.dev.auxOn n = false ∧ t.dev.bit (Reg.AUX_CTL_ON n.1) = s.dev.bit (Reg.AUX_CTL_ON n.1)) := by
  refine .of_donePower rfl ?_
  rw [State.commit_bit, State.commit_sup]
  refine ⟨s.dev.vauxLow_vaux, ?_, fun n => ⟨(s.commit_auxOn _ n).trans (s.dev.vauxLow_off n), ?_⟩⟩
  · refine (Dev.bit_of_f (s.dev.vauxLow_keeps (by decide) fun n => ?_)).trans s.dev.vauxLost_uv
    simp only [Reg.AUX_STAT_UV, Reg.AUX_STAT_at, Reg.AUX_NSTAT_at]
    omega
  · rw [State.commit_bit]
    refine Dev.bit_of_f ((s.dev.vauxLow_keeps (Nat.le_of_ble_eq_true rfl) fun m => ?_).trans (s.dev.f_vauxLost (Nat.le_of_ble_eq_true rfl) ?_ ?_)) <;>
      simp only [Reg.AUX_CTL_ON, Reg.AUX_CTL_at, Reg.AUX_NSTAT_at] <;> omega

/-- One switch when VAUX is back. -/
def Dev.vauxStep (d : Dev) (n : Fin 24) : Dev :=
  if d.bit (Reg.AUX_CTL_ON n.1) then
    match d.auxSt n with
    | 0 => d.auxStart n
    | 3 => if (d.aux[n]).clampTo = 0 then d.setF (Reg.AUX_NSTAT_HELD n.1) 1 else d
    | _ => d
  else d

theorem Dev.vauxBack_eq (d : Dev) : d.vauxBack =
    (List.finRange 24).foldl (fun d n => d.vauxStep n) ((d.setSup { d.sup with vaux := true }).setF Reg.AUX_STAT_UV 0) := rfl

/-- A switch turns on, is held in its clamp, or stays as it was. -/
theorem Dev.vauxStep_cases (d : Dev) (n : Fin 24) :
    (d.bit (Reg.AUX_CTL_ON n.1) = true ∧ d.auxSt n = 0 ∧ d.vauxStep n = d.auxStart n) ∨
    (d.auxSt n = 3 ∧ d.vauxStep n = d.setF (Reg.AUX_NSTAT_HELD n.1) 1) ∨
    (¬(d.bit (Reg.AUX_CTL_ON n.1) = true ∧ d.auxSt n = 0) ∧ d.vauxStep n = d) := by
  unfold Dev.vauxStep
  split
  next hon =>
    split
    next h => exact .inl ⟨hon, h, rfl⟩
    next h =>
      split
      · exact .inr (.inl ⟨h, rfl⟩)
      · exact .inr (.inr ⟨fun hc => absurd (hc.2.symm.trans h) (by decide), rfl⟩)
    next h _ => exact .inr (.inr ⟨fun hc => h hc.2, rfl⟩)
  next hon => exact .inr (.inr ⟨fun hc => hon hc.1, rfl⟩)

theorem Dev.auxStart_sup (d : Dev) (n : Fin 24) : (d.auxStart n).sup = d.sup := by
  unfold Dev.auxStart
  split
  · rfl
  split <;> rfl

/-- The steps write STATE, HELD and WARNED of their own switch. -/
theorem Dev.f_vauxStep_off (d : Dev) (n : Fin 24) {r : RF} (hl : r.lo < 32)
    (h : ¬(r.addr = Reg.AUX_NSTAT_at n.1 ∧ (r.lo = 0 ∨ r.lo = 5 ∨ r.lo = 12))) : (d.vauxStep n).f r = d.f r := by
  obtain ⟨-, -, heq⟩ | ⟨-, heq⟩ | ⟨-, heq⟩ := d.vauxStep_cases n <;> rw [heq]
  · exact Dev.f_auxStart_off d n hl fun hc => h ⟨hc.1, by omega⟩
  · exact Dev.f_setF_off _ _ (Nat.le_of_ble_eq_true rfl) hl fun hc => h ⟨hc.1, .inr (.inl hc.2)⟩

theorem Dev.vauxStep_sup (d : Dev) (n : Fin 24) : (d.vauxStep n).sup = d.sup := by
  obtain ⟨-, -, heq⟩ | ⟨-, heq⟩ | ⟨-, heq⟩ := d.vauxStep_cases n <;> rw [heq]
  · exact d.auxStart_sup n
  · rfl

/-- A requested switch that is OFF or conducts, with its supply. -/
structure Dev.Awaits (d : Dev) (n : Fin 24) : Prop where
  vaux : d.sup.vaux = true
  on : d.bit (Reg.AUX_CTL_ON n.1) = true
  state : d.auxSt n = 0 ∨ d.auxOn n = true

theorem Dev.vauxStep_on {d : Dev} {n : Fin 24} (h : d.Awaits n) : (d.vauxStep n).auxOn n = true := by
  obtain ⟨hv, hon, hst⟩ := h
  obtain ⟨-, -, heq⟩ | ⟨h3, -⟩ | ⟨hno, heq⟩ := d.vauxStep_cases n
  · rw [heq]
    unfold Dev.auxOn
    rw [Dev.auxSt_auxStart hv n]
    split <;> rfl
  · refine absurd hst (not_or.mpr ⟨by rw [h3]; decide, ?_⟩)
    rw [Dev.auxOn_of_ne (by rw [h3]; decide) (by rw [h3]; decide)]
    exact Bool.false_ne_true
  · rw [heq]
    exact hst.resolve_left fun h0 => hno ⟨hon, h0⟩

theorem Dev.auxOn_vauxStep_ne (d : Dev) {n m : Fin 24} (h : m ≠ n) : (d.vauxStep m).auxSt n = d.auxSt n := by
  refine d.f_vauxStep_off m (Nat.le_of_ble_eq_true rfl) (fun hc => h (Fin.ext ?_))
  have := hc.1
  simp only [Reg.AUX_NSTAT_STATE, Reg.AUX_NSTAT_at] at this
  omega

theorem Dev.Awaits.step {d : Dev} {n : Fin 24} (h : d.Awaits n) (m : Fin 24) : (d.vauxStep m).Awaits n := by
  refine ⟨by rw [d.vauxStep_sup m, h.vaux], (Dev.bit_of_f (d.f_vauxStep_off m (Nat.le_of_ble_eq_true rfl) ?_)).trans h.on, ?_⟩
  · simp only [Reg.AUX_CTL_ON, Reg.AUX_CTL_at, Reg.AUX_NSTAT_at]
    omega
  · by_cases hmn : m = n
    · subst hmn
      exact .inr (Dev.vauxStep_on h)
    · unfold Dev.auxOn
      rw [d.auxOn_vauxStep_ne hmn]
      exact h.state

theorem Dev.vauxBack_on {d : Dev} {n : Fin 24} (hon : d.bit (Reg.AUX_CTL_ON n.1) = true) (hst : d.auxSt n = 0) : d.vauxBack.auxOn n = true := by
  rw [Dev.vauxBack_eq]
  refine foldl_establishes (I := fun e : Dev => e.Awaits n) (P := fun e : Dev => e.auxOn n = true) (fun e m he => he.step m)
    (fun e he => Dev.vauxStep_on he) (fun e m he hp => ?_) (List.finRange 24) (List.mem_finRange n) _ ⟨rfl, ?_, .inl ?_⟩
  · by_cases hmn : m = n
    · subst hmn
      exact Dev.vauxStep_on he
    · unfold Dev.auxOn
      rw [e.auxOn_vauxStep_ne hmn]
      exact hp
  · refine (Dev.bit_of_f (Dev.f_setF_off _ _ (by decide) (Nat.le_of_ble_eq_true rfl) ?_)).trans hon
    simp only [Reg.AUX_CTL_ON, Reg.AUX_CTL_at, Reg.AUX_STAT_UV, Reg.AUX_STAT_at]
    omega
  · refine (Dev.f_setF_off _ _ (by decide) (Nat.le_of_ble_eq_true rfl) ?_).trans hst
    simp only [Reg.AUX_NSTAT_STATE, Reg.AUX_NSTAT_at, Reg.AUX_STAT_UV, Reg.AUX_STAT_at]
    omega

theorem Answers.of_vauxRecovery (s : State) : Answers .vauxRecovery s (fun t => t.dev.sup.vaux = true ∧ t.dev.bit Reg.AUX_STAT_UV = false ∧
    ∀ n : Fin 24, s.dev.bit (Reg.AUX_CTL_ON n.1) = true → s.dev.auxSt n = 0 → t.dev.auxOn n = true) := by
  refine .of_donePower rfl ?_
  rw [State.commit_bit, State.commit_sup]
  have hall : s.dev.vauxBack.sup.vaux = true ∧ s.dev.vauxBack.bit Reg.AUX_STAT_UV = false := by
    rw [Dev.vauxBack_eq]
    refine List.foldlRecOn _ _ (motive := fun e : Dev => e.sup.vaux = true ∧ e.bit Reg.AUX_STAT_UV = false)
      ⟨rfl, Dev.bit_setF_zero _ _⟩ fun e he n _ => ⟨by rw [e.vauxStep_sup n, he.1], (Dev.bit_of_f (e.f_vauxStep_off n (by decide) ?_)).trans he.2⟩
    simp only [Reg.AUX_STAT_UV, Reg.AUX_STAT_at, Reg.AUX_NSTAT_at]
    omega
  exact ⟨hall.1, hall.2, fun n hon hst => (s.commit_auxOn _ n).trans (Dev.vauxBack_on hon hst)⟩

/-- Settles O45, command by command. -/
theorem auxSwitchesFollowRequests : Obligations.AuxSwitchesFollowRequests := by
  unfold Obligations.AuxSwitchesFollowRequests
  refine ⟨fun s src n w i hr hi => ⟨.of_auxRefused hr hi, .of_auxTurnOn hr hi, .of_auxTurnOff hr hi⟩, fun s n => .of_inrushEnd,
    fun s n hst hs => ⟨.of_clampEnd hst hs, .of_clampEnd_held hst hs⟩, fun s n t0 => .of_auxHoldEnd, .of_vauxUndervoltage, .of_vauxRecovery⟩

end Sys2Proof.Machine
end

section
/-!
PROOF. Faults, retries and warnings of the auxiliary switches (R363-R368).
-/

namespace Sys2Proof.Machine
open Sys2Proof

/-! ### Faults (R363-R365) -/

/-- A switch's own registers other than those a fault leaves on record. -/
def RF.OffFault (n : Nat) (r : RF) : Prop :=
  r.lo < 32 ∧ (r.addr = 0x200B0100 + 0x20 * n ∨ r.addr = 0x200B0104 + 0x20 * n ∨ r.addr = 0x200B010C + 0x20 * n ∨ r.addr = 0x200B0110 + 0x20 * n) ∧
    ¬(r.addr = 0x200B010C + 0x20 * n ∧ r.lo = 8)

theorem Dev.f_auxRecord_off (d : Dev) (n : Fin 24) (code : Nat) {r : RF} (h : r.OffFault n.1) : (d.auxRecord n code).f r = d.f r := by
  obtain ⟨hl, ha, hlast⟩ := h
  unfold Dev.auxRecord Dev.auxLog Dev.setF64
  dsimp only
  rw [Dev.f_modAux, Dev.f_linkLog_off _ _ _ _ _ hl (by omega),
    Dev.f_linkRaise_off _ _ (by decide) hl (by decide) (by omega) (by simp only [Reg.AUX_FLT_EVT_SW, Reg.AUX_FLT_EVT_at]; omega),
    Dev.f_bump_off _ _ (Nat.le_of_ble_eq_true rfl) hl (by simp only [Reg.AUX_FCNT_COUNT, Reg.AUX_FCNT_at]; omega),
    Dev.f_setF_off _ _ (Nat.le_of_ble_eq_true rfl) hl (by simp only [Reg.AUX_FTS_HI_TS, Reg.AUX_FTS_HI_at]; omega),
    Dev.f_setF_off _ _ (Nat.le_of_ble_eq_true rfl) hl (by simp only [Reg.AUX_FTS_LO_TS, Reg.AUX_FTS_LO_at]; omega),
    Dev.f_setF_off _ _ (Nat.le_of_ble_eq_true rfl) hl (by simpa only [Reg.auxFields] using hlast)]

theorem Dev.auxRecord_last (d : Dev) (n : Fin 24) {code : Nat} (hc : code < 8) : (d.auxRecord n code).f (Reg.AUX_NSTAT_LAST n.1) = code := by
  unfold Dev.auxRecord Dev.auxLog Dev.setF64
  dsimp only
  have hlast : (Reg.AUX_NSTAT_LAST n.1).addr = 0x200B010C + 0x20 * n.1 := rfl
  have hl : (Reg.AUX_NSTAT_LAST n.1).lo < 32 := Nat.le_of_ble_eq_true rfl
  rw [Dev.f_modAux, Dev.f_linkLog_off _ _ _ _ _ hl (by omega),
    Dev.f_linkRaise_off _ _ (by decide) hl (by decide) (by omega) (by rw [hlast]; simp only [Reg.AUX_FLT_EVT_SW, Reg.AUX_FLT_EVT_at]; omega),
    Dev.f_bump_off _ _ (Nat.le_of_ble_eq_true rfl) hl (by rw [hlast]; simp only [Reg.AUX_FCNT_COUNT, Reg.AUX_FCNT_at]; omega),
    Dev.f_setF_off _ _ (Nat.le_of_ble_eq_true rfl) hl (by rw [hlast]; simp only [Reg.AUX_FTS_HI_TS, Reg.AUX_FTS_HI_at]; omega),
    Dev.f_setF_off _ _ (Nat.le_of_ble_eq_true rfl) hl (by rw [hlast]; simp only [Reg.AUX_FTS_LO_TS, Reg.AUX_FTS_LO_at]; omega),
    Dev.f_setF_same]
  exact Nat.mod_eq_of_lt hc

theorem Reg.offFault (n : Nat) : (Reg.AUX_NSTAT_RETRIES n).OffFault n ∧ (Reg.AUX_NCFG_RETRY n).OffFault n ∧ (Reg.AUX_SENSE_CODE n).OffFault n := by
  refine ⟨⟨Nat.le_of_ble_eq_true rfl, ?_, ?_⟩, ⟨Nat.le_of_ble_eq_true rfl, ?_, ?_⟩, ⟨Nat.le_of_ble_eq_true rfl, ?_, ?_⟩⟩ <;>
    simp [Reg.auxFields]

/-- Where a fault sends a conducting switch: to RETRY while retries are left. -/
def Dev.faultTo (d : Dev) (n : Fin 24) : Nat := if d.f (Reg.AUX_NSTAT_RETRIES n.1) < d.f (Reg.AUX_NCFG_RETRY n.1) then 4 else 5

/-- What a fault of a conducting switch shows. -/
structure Dev.Tripped (d e : Dev) (n : Fin 24) (code : Nat) : Prop where
  last : e.f (Reg.AUX_NSTAT_LAST n.1) = code
  state : e.auxSt n = if d.f (Reg.AUX_SENSE_CODE n.1) = 0 then d.faultTo n else 3
  clampTo : (e.aux[n]).clampTo = d.faultTo n
  off : d.faultTo n = 5 → e.bit (Reg.AUX_CTL_ON n.1) = false

theorem Dev.auxFault_trips {d : Dev} {n : Fin 24} (hon : d.auxOn n = true) {code : Nat} (hc : code < 8) : Dev.Tripped d (d.auxFault n code) n code := by
  obtain ⟨hretries, hretry, hsense⟩ := Reg.offFault n.1
  have heq : d.auxFault n code = if d.f (Reg.AUX_NSTAT_RETRIES n.1) < d.f (Reg.AUX_NCFG_RETRY n.1) then (d.auxRecord n code).auxStop n 4
      else ((d.auxRecord n code).setF (Reg.AUX_CTL_ON n.1) 0).auxStop n 5 := by
    rw [← d.f_auxRecord_off n code hretries, ← d.f_auxRecord_off n code hretry]
    exact if_pos hon
  have hlast : ∀ (e : Dev) (dst : Nat), (e.auxStop n dst).f (Reg.AUX_NSTAT_LAST n.1) = e.f (Reg.AUX_NSTAT_LAST n.1) := fun e dst =>
    e.f_auxStop_off n dst (Nat.le_of_ble_eq_true rfl) (by simp [Reg.auxFields])
  rw [heq]
  split
  next hmore =>
    refine ⟨(hlast _ _).trans (d.auxRecord_last n hc), ?_, ?_, fun h => ?_⟩
    · rw [Dev.auxSt_auxStop_to _ n (by decide), d.f_auxRecord_off n code hsense, Dev.faultTo, if_pos hmore]
    · rw [Dev.clampTo_auxStop, Dev.faultTo, if_pos hmore]
    · rw [Dev.faultTo, if_pos hmore] at h
      cases h
  next hmore =>
    refine ⟨?_, ?_, ?_, fun _ => ?_⟩
    · rw [hlast, Dev.f_setF_off _ _ (Nat.le_of_ble_eq_true rfl) (Nat.le_of_ble_eq_true rfl) (by simp [Reg.auxFields])]
      exact d.auxRecord_last n hc
    · rw [Dev.auxSt_auxStop_to _ n (by decide), Dev.f_setF_off _ _ (Nat.le_of_ble_eq_true rfl) (Nat.le_of_ble_eq_true rfl) (by simp [Reg.auxFields]),
        d.f_auxRecord_off n code hsense, Dev.faultTo, if_neg hmore]
    · rw [Dev.clampTo_auxStop, Dev.faultTo, if_neg hmore]
    · refine (Dev.bit_of_f (Dev.f_auxStop_off _ n 5 (Nat.le_of_ble_eq_true rfl) ?_)).trans (Dev.bit_setF_zero _ _)
      simp [Reg.auxFields, Reg.AUX_NSTAT_at]

theorem Answers.of_fault {s : State} {i : Instr} {n : Fin 24} {code : Nat} (he : exec i s = s.donePower (s.dev.auxFault n code))
    (hon : s.dev.auxOn n = true) (hc : code < 8) :
    Answers i s (fun t => t.dev.f (Reg.AUX_NSTAT_LAST n.1) = code ∧
      t.dev.auxSt n = (if s.dev.f (Reg.AUX_SENSE_CODE n.1) = 0 then s.dev.faultTo n else 3) ∧ (t.dev.aux[n]).clampTo = s.dev.faultTo n ∧
      (s.dev.faultTo n = 5 → t.dev.bit (Reg.AUX_CTL_ON n.1) = false)) := by
  obtain ⟨hlast, hst, hclamp, hoff⟩ := Dev.auxFault_trips hon hc
  refine .of_donePower he ?_
  rw [State.commit_f, State.commit_auxSt, State.commit_aux, State.commit_bit]
  exact ⟨hlast, hst, hclamp, hoff⟩

theorem exec_short {s : State} {n : Fin 24}
    (h : s.dev.auxSt n = 2 ∨ (s.dev.aux[n]).winAt + 4000 * s.dev.f (Reg.AUX_DIAG_SC_BLANK n.1) ≤ s.dev.up) :
    exec (.short n) s = s.donePower (s.dev.auxFault n 1) :=
  congrArg s.donePower (if_neg fun hc => h.elim hc.1 (fun hle => absurd hc.2 (Nat.not_lt.mpr hle)))

theorem exec_overload {s : State} {n : Fin 24} {t0 : Nat} (h : (s.dev.aux[n]).limAt = some t0)
    (ht : t0 + 400000 * s.dev.f (Reg.AUX_DIAG_LIM_T n.1) ≤ s.dev.up) : exec (.overload n) s = s.donePower (s.dev.auxFault n 2) := by
  have heq : s.dev.auxOverload n = s.dev.auxFault n 2 := by
    unfold Dev.auxOverload
    rw [h]
    exact if_pos ht
  exact congrArg s.donePower heq

/-! ### Retries (R365) -/

theorem Answers.of_retry {s : State} {n : Fin 24} (hst : s.dev.auxSt n = 4) (ht : (s.dev.aux[n]).offAt + 4000000 ≤ s.dev.up)
    (hv : s.dev.sup.vaux = true) (hcool : (s.dev.aux[n]).offOt = false ∨ signed 32 (s.dev.f (Reg.AUX_TJ_T n.1)) ≤ 145000) :
    Answers (.retry n) s (fun t => t.dev.auxSt n = (if s.dev.f (Reg.AUX_NCFG_IRUSH n.1) = 0 then 2 else 1) ∧
      t.dev.f (Reg.AUX_NSTAT_RETRIES n.1) = min 3 (s.dev.f (Reg.AUX_NSTAT_RETRIES n.1) + 1)) := by
  have heq : s.dev.auxRetry n = (s.dev.bump (Reg.AUX_NSTAT_RETRIES n.1)).auxStart n :=
    if_pos ⟨hst, ht, hv, hcool.imp (fun h => by rw [h]; rfl) id⟩
  refine .of_donePower (congrArg s.donePower heq) ?_
  rw [State.commit_auxSt, State.commit_f, Dev.auxSt_auxStart (d := s.dev.bump (Reg.AUX_NSTAT_RETRIES n.1)) hv n,
    Dev.f_bump_off _ _ (Nat.le_of_ble_eq_true rfl) (Nat.le_of_ble_eq_true rfl) (by simp [Reg.auxFields]),
    Dev.f_auxStart_off _ n (Nat.le_of_ble_eq_true rfl) (by simp [Reg.auxFields]), Dev.f_bump_same]
  exact ⟨rfl, rfl⟩

theorem Answers.of_retriesReset {s : State} {n : Fin 24} {t0 : Nat} (hst : s.dev.auxSt n = 2) (hon : (s.dev.aux[n]).onAt = some t0)
    (ht : t0 + 400000000 ≤ s.dev.up) :
    Answers (.retriesReset n) s (fun t => t.dev.f (Reg.AUX_NSTAT_RETRIES n.1) = 0 ∧ t.dev.auxSt n = 2) := by
  have heq : s.dev.retriesReset n = s.dev.setF (Reg.AUX_NSTAT_RETRIES n.1) 0 := by
    unfold Dev.retriesReset
    rw [hon]
    exact if_pos ⟨hst, ht⟩
  refine .of_donePower (congrArg s.donePower heq) ?_
  rw [State.commit_f, State.commit_auxSt]
  refine ⟨Dev.f_setF_same _ _ _, (Dev.f_setF_off s.dev _ (Nat.le_of_ble_eq_true rfl) (Nat.le_of_ble_eq_true rfl) ?_).trans hst⟩
  simp [Reg.auxFields]

/-- One switch of AUX_CLR. -/
def Dev.auxClrStep (w : Nat) (d : Dev) (n : Fin 24) : Dev :=
  if w.testBit n.1 then
    if (d.setF (Reg.AUX_NSTAT_RETRIES n.1) 0).auxSt n = 5 then (d.setF (Reg.AUX_NSTAT_RETRIES n.1) 0).setF (Reg.AUX_NSTAT_STATE n.1) 0
    else d.setF (Reg.AUX_NSTAT_RETRIES n.1) 0
  else d

/-- STATE and RETRIES of a switch. -/
def Dev.auxCell (d : Dev) (n : Fin 24) : Nat × Nat := (d.auxSt n, d.f (Reg.AUX_NSTAT_RETRIES n.1))

theorem Dev.auxCell_setF (d : Dev) (n : Fin 24) (x : Nat) : (d.setF (Reg.AUX_NSTAT_RETRIES n.1) x).auxCell n = (d.auxSt n, x % 4) ∧
    (d.setF (Reg.AUX_NSTAT_STATE n.1) x).auxCell n = (x % 8, d.f (Reg.AUX_NSTAT_RETRIES n.1)) := by
  constructor <;> simp [Dev.auxCell, Dev.auxSt, Reg.auxFields]

theorem Dev.auxCell_setF_ne (d : Dev) {n m : Fin 24} (h : m ≠ n) {r : RF} (x : Nat) (hl : r.lo < 32) (ha : r.addr = Reg.AUX_NSTAT_at n.1) :
    (d.setF r x).auxCell m = d.auxCell m := by
  have hne : Reg.AUX_NSTAT_at m.1 ≠ r.addr := fun hc => h (Fin.ext (by
    rw [ha] at hc
    simp only [Reg.AUX_NSTAT_at] at hc
    omega))
  exact congrArg₂ Prod.mk (Dev.f_setF_off _ _ hl (Nat.le_of_ble_eq_true rfl) fun hc => hne hc.1)
    (Dev.f_setF_off _ _ hl (Nat.le_of_ble_eq_true rfl) fun hc => hne hc.1)

theorem Dev.auxClrStep_same (w : Nat) (d : Dev) (n : Fin 24) : (d.auxClrStep w n).auxCell n =
    if w.testBit n.1 then ((if (d.auxCell n).1 = 5 then 0 else (d.auxCell n).1), 0) else d.auxCell n := by
  obtain ⟨hret, -⟩ := d.auxCell_setF n 0
  have hst : (d.setF (Reg.AUX_NSTAT_RETRIES n.1) 0).auxSt n = d.auxSt n := congrArg Prod.fst hret
  unfold Dev.auxClrStep
  rw [hst, show (d.auxCell n).1 = d.auxSt n from rfl]
  split
  · split
    · rw [((d.setF (Reg.AUX_NSTAT_RETRIES n.1) 0).auxCell_setF n 0).2, Dev.f_setF_same]
      rfl
    · exact hret
  · rfl

theorem Dev.auxClrStep_ne (w : Nat) (d : Dev) {n m : Fin 24} (h : m ≠ n) : (d.auxClrStep w n).auxCell m = d.auxCell m := by
  have hret : (d.setF (Reg.AUX_NSTAT_RETRIES n.1) 0).auxCell m = d.auxCell m := d.auxCell_setF_ne h 0 (Nat.le_of_ble_eq_true rfl) rfl
  unfold Dev.auxClrStep
  split
  · split
    · exact (Dev.auxCell_setF_ne _ h 0 (Nat.le_of_ble_eq_true rfl) rfl).trans hret
    · exact hret
  · rfl

theorem Dev.auxClr_cell (d : Dev) (w : Nat) (n : Fin 24) : (d.auxClr w).auxCell n =
    if w.testBit n.1 then ((if (d.auxCell n).1 = 5 then 0 else (d.auxCell n).1), 0) else d.auxCell n :=
  (foldl_cell (I := fun _ => True) (F := Dev.auxClrStep w) (rd := Dev.auxCell)
    (G := fun n c => if w.testBit n.1 then ((if c.1 = 5 then 0 else c.1), 0) else c) (fun _ _ _ => trivial) (fun d n _ => d.auxClrStep_same w n)
    (fun d n m _ h => d.auxClrStep_ne w h) n (List.finRange 24) (List.nodup_finRange 24) d trivial).trans (if_pos (List.mem_finRange n))

theorem Answers.of_auxClr {s : State} {src : Src} {w : Word} (hr : Reaches s src Reg.AUX_CLR_at) :
    Answers (.auxClr src w) s (fun t => ∀ n : Fin 24,
      t.dev.auxSt n = (if w.toNat.testBit n.1 = true ∧ s.dev.auxSt n = 5 then 0 else s.dev.auxSt n) ∧
      t.dev.f (Reg.AUX_NSTAT_RETRIES n.1) = if w.toNat.testBit n.1 then 0 else s.dev.f (Reg.AUX_NSTAT_RETRIES n.1)) := by
  refine .of_done hr.1 (congrArg s.done (Dev.onWrite_unguarded hr.2 _)) fun n => ?_
  have hcell := (s.dev.answer 0).auxClr_cell w.toNat n
  have hst : ((s.dev.answer 0).auxClr w.toNat).auxSt n = _ := congrArg Prod.fst hcell
  have hret : ((s.dev.answer 0).auxClr w.toNat).f (Reg.AUX_NSTAT_RETRIES n.1) = _ := congrArg Prod.snd hcell
  rw [State.commit_auxSt, State.commit_f, hst, hret]
  cases w.toNat.testBit n.1 with
  | true => simp only [if_pos, true_and]; exact ⟨rfl, trivial⟩
  | false => exact ⟨rfl, rfl⟩

/-! ### Open loads (R366) -/

theorem Answers.of_openLoad {s : State} {n : Fin 24} {t0 : Nat} (ht : t0 + 4000000 ≤ s.dev.up) (hlow : (s.dev.aux[n]).lowAt = some t0)
    (hst : s.dev.auxSt n = 2) (hth : s.dev.f (Reg.AUX_DIAG_OL_TH n.1) ≠ 0) (hopen : s.dev.bit (Reg.AUX_NSTAT_OPEN n.1) = false) :
    Answers (.openLoad n) s (fun t => t.dev.bit (Reg.AUX_NSTAT_OPEN n.1) = true ∧ t.dev.tb Reg.AUX_OL_EVT_SW n.1 = true) := by
  have heq : s.dev.openLoad n = (s.dev.setF (Reg.AUX_NSTAT_OPEN n.1) 1).linkRaise Reg.AUX_OL_EVT_SW (2 ^ n.1) 61 := by
    unfold Dev.openLoad
    rw [hlow]
    exact if_pos ⟨hst, hth, ht, by rw [hopen]; rfl⟩
  refine .of_donePower (congrArg s.donePower heq) ?_
  rw [State.commit_bit]
  refine ⟨(Dev.bit_of_f (Dev.f_linkRaise_off _ _ (by decide) (Nat.le_of_ble_eq_true rfl) (by decide) ?_ ?_)).trans
    (congrArg (· == 1) (Dev.f_setF_same _ _ _)), Dev.tb_linkRaise _ _ (by decide) (by decide) (by decide) n.2 (Nat.testBit_two_pow_self)⟩ <;>
    simp only [Reg.auxFields, Reg.AUX_OL_EVT_SW, Reg.AUX_OL_EVT_at] <;> omega

theorem Answers.of_openLoadClear {s : State} {n : Fin 24} {t0 : Nat} (ht : t0 + 4000000 ≤ s.dev.up) (hhigh : (s.dev.aux[n]).highAt = some t0) :
    Answers (.openLoadClear n) s (fun t => t.dev.bit (Reg.AUX_NSTAT_OPEN n.1) = false) := by
  have heq : s.dev.openLoadClear n = s.dev.setF (Reg.AUX_NSTAT_OPEN n.1) 0 := by
    unfold Dev.openLoadClear
    rw [hhigh]
    exact if_pos ht
  exact .of_donePower (congrArg s.donePower heq) ((State.commit_bit _ _ _).trans (Dev.bit_setF_zero _ _))

/-! ### Group warnings (R367) -/

/-- The warned group before its inrushing switches take the normal limit. -/
def Dev.groupWarned (d : Dev) (g : Fin 6) : Dev :=
  let d := (d.setTb Reg.AUX_STAT_GWARN g.1 true).linkRaise Reg.AUX_EVT_GWARN (2 ^ g.1) 59
  let x := d.free 50
  x.2.linkLog (bits x.1 0 8) 59 (evInfo (bits x.1 8 10)) (bits x.1 18 32)

/-- The switches of a warned group in INRUSH. -/
def Dev.warnStep (g : Fin 6) (d : Dev) (n : Fin 24) : Dev := if n.1 / 4 = g.1 ∧ d.auxSt n = 1 then d.setF (Reg.AUX_NSTAT_WARNED n.1) 1 else d

theorem Dev.groupWarning_eq {d : Dev} {g : Fin 6} {temp : Int} (h : 1000 * (d.f Reg.AUX_CFG_GRP_WARN : Int) ≤ temp)
    (hw : d.tb Reg.AUX_STAT_GWARN g.1 = false) :
    d.groupWarning g temp = (List.finRange 24).foldl (Dev.warnStep g) ((d.setF (Reg.AUX_GTEMP_T g.1) (pattern 32 temp)).groupWarned g) := by
  have hcfg : (d.setF (Reg.AUX_GTEMP_T g.1) (pattern 32 temp)).f Reg.AUX_CFG_GRP_WARN = d.f Reg.AUX_CFG_GRP_WARN :=
    Dev.f_setF_off _ _ (Nat.le_of_ble_eq_true rfl) (by decide) (by simp only [Reg.AUX_CFG_GRP_WARN, Reg.AUX_CFG_at, Reg.AUX_GTEMP_T, Reg.AUX_GTEMP_at]; omega)
  have hstat : (d.setF (Reg.AUX_GTEMP_T g.1) (pattern 32 temp)).tb Reg.AUX_STAT_GWARN g.1 = false :=
    (Dev.tb_of_f (Dev.f_setF_off _ _ (Nat.le_of_ble_eq_true rfl) (by decide)
      (by simp only [Reg.AUX_STAT_GWARN, Reg.AUX_STAT_at, Reg.AUX_GTEMP_T, Reg.AUX_GTEMP_at]; omega)) _).trans hw
  exact if_pos ⟨by rw [hcfg]; exact h, by rw [hstat]; rfl⟩

theorem Dev.warnStep_off (g : Fin 6) (d : Dev) (n : Fin 24) {r : RF} (hl : r.lo < 32) (h : ¬(r.addr = Reg.AUX_NSTAT_at n.1 ∧ r.lo = 12)) :
    (d.warnStep g n).f r = d.f r := by
  unfold Dev.warnStep
  split
  · exact Dev.f_setF_off _ _ (Nat.le_of_ble_eq_true rfl) hl h
  · rfl

/-- The loop writes WARNED bits only. -/
theorem Dev.warnSteps_off (g : Fin 6) (d : Dev) {r : RF} (hl : r.lo < 32) (h : r.lo ≠ 12) :
    ((List.finRange 24).foldl (Dev.warnStep g) d).f r = d.f r :=
  Dev.Keeps.foldl (P := fun r => r.lo < 32 ∧ r.lo ≠ 12) _ (fun e n _ r hr => e.warnStep_off g n hr.1 (fun hc => hr.2 hc.2)) _ r ⟨hl, h⟩

theorem Dev.warnSteps_warned (g : Fin 6) {d : Dev} {n : Fin 24} (hg : n.1 / 4 = g.1) (hst : d.auxSt n = 1) :
    ((List.finRange 24).foldl (Dev.warnStep g) d).bit (Reg.AUX_NSTAT_WARNED n.1) = true := by
  have hset : ∀ e : Dev, e.auxSt n = 1 → (e.warnStep g n).bit (Reg.AUX_NSTAT_WARNED n.1) = true := fun e he => by
    unfold Dev.warnStep
    rw [if_pos ⟨hg, he⟩]
    exact congrArg (· == 1) (Dev.f_setF_same _ _ _)
  refine foldl_establishes (I := fun e : Dev => e.auxSt n = 1) (P := fun e : Dev => e.bit (Reg.AUX_NSTAT_WARNED n.1) = true) (fun e m he => ?_)
    hset (fun e m he hp => ?_) (List.finRange 24) (List.mem_finRange n) d hst
  · refine (e.warnStep_off g m (Nat.le_of_ble_eq_true rfl) ?_).trans he
    simp [Reg.auxFields]
  · by_cases hmn : m = n
    · subst hmn
      exact hset e he
    · refine (Dev.bit_of_f (e.warnStep_off g m (Nat.le_of_ble_eq_true rfl) (fun hc => hmn (Fin.ext ?_)))).trans hp
      have := hc.1
      simp only [Reg.auxFields, Reg.AUX_NSTAT_at] at this
      omega

/-- The bit of the group, the events and the log entry leave the switches' STATE alone. -/
theorem Dev.groupWarned_shows (d : Dev) (g : Fin 6) : (d.groupWarned g).tb Reg.AUX_STAT_GWARN g.1 = true ∧
    (d.groupWarned g).tb Reg.AUX_EVT_GWARN g.1 = true ∧ ∀ n : Fin 24, (d.groupWarned g).auxSt n = d.auxSt n := by
  have hlog : ∀ (e : Dev) (c i x : Nat) (r : RF), r.lo < 32 → 0x20004800 ≤ r.addr → (e.linkLog c 59 i x).f r = e.f r := fun e c i x r hl ha =>
    e.f_linkLog_off _ _ _ _ hl (.inr ha)
  have hfree : ∀ (e : Dev) (w : Nat) (r : RF), (e.free w).2.f r = e.f r := fun _ _ _ => rfl
  have hraise : ∀ r : RF, r.lo < 32 → 0x20004800 ≤ r.addr → ¬(r.addr = Reg.AUX_EVT_at ∧ r.lo = 0) →
      (d.groupWarned g).f r = (d.setTb Reg.AUX_STAT_GWARN g.1 true).f r := fun r hl ha h => by
    unfold Dev.groupWarned
    dsimp only
    rw [hlog _ _ _ _ r hl ha, hfree, Dev.f_linkRaise_off _ _ (by decide) hl (by decide) (.inr ha) h]
  refine ⟨?_, ?_, fun n => ?_⟩
  · rw [Dev.tb_of_f (hraise _ (by decide) (by decide) (by decide)), Dev.tb_setTb _ _ _ _ g.2, if_pos rfl]
  · unfold Dev.groupWarned
    dsimp only
    rw [Dev.tb_of_f (hlog _ _ _ _ _ (by decide) (by decide)), Dev.tb_of_f (hfree _ _ _)]
    exact Dev.tb_linkRaise _ _ (by decide) (by decide) (by decide) g.2 Nat.testBit_two_pow_self
  · refine (hraise _ (Nat.le_of_ble_eq_true rfl) ?_ ?_).trans (Dev.f_setTb_off _ _ _ (by decide) (Nat.le_of_ble_eq_true rfl) ?_) <;>
      simp only [Reg.auxFields, Reg.AUX_EVT_at, Reg.AUX_STAT_GWARN, Reg.AUX_STAT_at] <;> omega

theorem Answers.of_groupWarning {s : State} {g : Fin 6} {temp : Int} (h : 1000 * (s.dev.f Reg.AUX_CFG_GRP_WARN : Int) ≤ temp)
    (hw : s.dev.tb Reg.AUX_STAT_GWARN g.1 = false) :
    Answers (.groupWarning g temp) s (fun t => t.dev.tb Reg.AUX_STAT_GWARN g.1 = true ∧ t.dev.tb Reg.AUX_EVT_GWARN g.1 = true ∧
      ∀ n : Fin 24, n.1 / 4 = g.1 → s.dev.auxSt n = 1 → t.dev.bit (Reg.AUX_NSTAT_WARNED n.1) = true) := by
  obtain ⟨hstat, hevt, hst⟩ := (s.dev.setF (Reg.AUX_GTEMP_T g.1) (pattern 32 temp)).groupWarned_shows g
  refine .of_donePower (congrArg s.donePower (Dev.groupWarning_eq h hw)) ⟨?_, ?_, fun n hn h1 => ?_⟩
  · exact (Dev.tb_of_f ((State.commit_f _ _ _).trans (Dev.warnSteps_off g _ (by decide) (by decide))) _).trans hstat
  · exact (Dev.tb_of_f ((State.commit_f _ _ _).trans (Dev.warnSteps_off g _ (by decide) (by decide))) _).trans hevt
  · rw [State.commit_bit]
    refine Dev.warnSteps_warned g hn ((hst n).trans ((Dev.f_setF_off s.dev _ (Nat.le_of_ble_eq_true rfl) (Nat.le_of_ble_eq_true rfl) ?_).trans h1))
    simp only [Reg.auxFields, Reg.AUX_GTEMP_T, Reg.AUX_GTEMP_at]
    omega

theorem Answers.of_groupWarningClear {s : State} {g : Fin 6} {temp : Int} (h : temp ≤ 1000 * (s.dev.f Reg.AUX_CFG_GRP_WARN : Int) - 10000) :
    Answers (.groupWarningClear g temp) s (fun t => t.dev.tb Reg.AUX_STAT_GWARN g.1 = false) := by
  have hcfg : (s.dev.setF (Reg.AUX_GTEMP_T g.1) (pattern 32 temp)).f Reg.AUX_CFG_GRP_WARN = s.dev.f Reg.AUX_CFG_GRP_WARN :=
    Dev.f_setF_off _ _ (Nat.le_of_ble_eq_true rfl) (by decide) (by simp only [Reg.AUX_CFG_GRP_WARN, Reg.AUX_CFG_at, Reg.AUX_GTEMP_T, Reg.AUX_GTEMP_at]; omega)
  have heq : s.dev.groupClear g temp = (s.dev.setF (Reg.AUX_GTEMP_T g.1) (pattern 32 temp)).setTb Reg.AUX_STAT_GWARN g.1 false :=
    if_pos (by rw [hcfg]; exact h)
  refine .of_donePower (congrArg s.donePower heq) ?_
  exact (Dev.tb_of_f (State.commit_f _ _ _) _).trans ((Dev.tb_setTb _ _ _ _ g.2).trans (if_pos rfl))

/-! ### Dissipation (R368) -/

/-- One switch's sample, if it has one. -/
def Dev.sampleStep (xs : List AuxSample) (d : Dev) (n : Fin 24) : Dev := match xs[n.1]? with | some x => d.auxSample n x | none => d

theorem Dev.sampleStep_some {xs : List AuxSample} (d : Dev) {n : Fin 24} {x : AuxSample} (h : xs[n.1]? = some x) :
    d.sampleStep xs n = d.auxSample n x := by
  unfold Dev.sampleStep
  rw [h]

/-- A sample writes CODE, the temperature and LIMIT of its switch. -/
theorem Dev.f_auxSample_off (d : Dev) (n : Fin 24) (x : AuxSample) {r : RF} (hl : r.lo < 32)
    (h : ¬(r.addr = Reg.AUX_SENSE_at n.1 ∨ r.addr = Reg.AUX_TJ_at n.1 ∨ (r.addr = Reg.AUX_NSTAT_at n.1 ∧ r.lo = 3))) :
    (d.auxSample n x).f r = d.f r := by
  unfold Dev.auxSample
  dsimp only
  rw [Dev.f_modAux, Dev.f_setB_off _ _ (Nat.le_of_ble_eq_true rfl) hl (fun hc => h (.inr (.inr hc))),
    Dev.f_setF_off _ _ (Nat.le_of_ble_eq_true rfl) hl (fun hc => h (.inr (.inl hc.1))),
    Dev.f_setF_off _ _ (Nat.le_of_ble_eq_true rfl) hl (fun hc => h (.inl hc.1))]

theorem Dev.auxSample_code (d : Dev) (n : Fin 24) (x : AuxSample) : (d.auxSample n x).f (Reg.AUX_SENSE_CODE n.1) = min 4095 (x.ma / 2) := by
  have hl : (Reg.AUX_SENSE_CODE n.1).lo < 32 := Nat.le_of_ble_eq_true rfl
  unfold Dev.auxSample
  dsimp only
  rw [Dev.f_modAux, Dev.f_setB_off _ _ (Nat.le_of_ble_eq_true rfl) hl (by simp [Reg.auxFields]),
    Dev.f_setF_off _ _ (Nat.le_of_ble_eq_true rfl) hl (by simp [Reg.auxFields, Reg.AUX_TJ_T, Reg.AUX_TJ_at]), Dev.f_setF_same]
  exact Nat.mod_eq_of_lt (lt_of_le_of_lt (Nat.min_le_left _ _) (Nat.le_of_ble_eq_true rfl))

theorem Dev.f_sampleStep_off (xs : List AuxSample) (d : Dev) (n : Fin 24) {r : RF} (hl : r.lo < 32)
    (h : ¬(r.addr = Reg.AUX_SENSE_at n.1 ∨ r.addr = Reg.AUX_TJ_at n.1 ∨ (r.addr = Reg.AUX_NSTAT_at n.1 ∧ r.lo = 3))) :
    (d.sampleStep xs n).f r = d.f r := by
  cases hx : xs[n.1]? with
  | none =>
    unfold Dev.sampleStep
    rw [hx]
  | some x =>
    rw [d.sampleStep_some hx]
    exact d.f_auxSample_off n x hl h

theorem Dev.sampleStep_auxSum (xs : List AuxSample) (d : Dev) (n : Fin 24) : (d.sampleStep xs n).auxSum = d.auxSum := by
  unfold Dev.sampleStep
  split <;> rfl

/-- All samples are taken. -/
def Dev.sampled (d : Dev) (xs : List AuxSample) : Dev := (List.finRange 24).foldl (Dev.sampleStep xs) d

theorem Dev.sampled_auxSum (d : Dev) (xs : List AuxSample) : (d.sampled xs).auxSum = d.auxSum :=
  List.foldlRecOn _ _ (motive := fun e : Dev => e.auxSum = d.auxSum) rfl fun e he n _ => (e.sampleStep_auxSum xs n).trans he

theorem Dev.sampled_auxSt (d : Dev) (xs : List AuxSample) (n : Fin 24) : (d.sampled xs).auxSt n = d.auxSt n :=
  List.foldlRecOn _ _ (motive := fun e : Dev => e.auxSt n = d.auxSt n) rfl fun e he m _ => by
    refine (e.f_sampleStep_off xs m (Nat.le_of_ble_eq_true rfl) ?_).trans he
    simp only [Reg.auxFields, Reg.AUX_SENSE_at, Reg.AUX_TJ_at, Reg.AUX_NSTAT_at]
    omega

theorem Dev.sampled_code (d : Dev) {xs : List AuxSample} {n : Fin 24} {x : AuxSample} (h : xs[n.1]? = some x) :
    (d.sampled xs).f (Reg.AUX_SENSE_CODE n.1) = min 4095 (x.ma / 2) := by
  have hset : ∀ e : Dev, (e.sampleStep xs n).f (Reg.AUX_SENSE_CODE n.1) = min 4095 (x.ma / 2) := fun e => by
    rw [e.sampleStep_some h, e.auxSample_code n x]
  refine foldl_establishes (I := fun _ => True) (P := fun e : Dev => e.f (Reg.AUX_SENSE_CODE n.1) = min 4095 (x.ma / 2)) (fun _ _ _ => trivial)
    (fun e _ => hset e) (fun e m _ hp => ?_) (List.finRange 24) (List.mem_finRange n) d trivial
  by_cases hmn : m = n
  · subst hmn
    exact hset e
  · have hv : m.1 ≠ n.1 := fun hc => hmn (Fin.ext hc)
    refine (e.f_sampleStep_off xs m (Nat.le_of_ble_eq_true rfl) ?_).trans hp
    simp only [Reg.auxFields, Reg.AUX_SENSE_at, Reg.AUX_TJ_at, Reg.AUX_NSTAT_at]
    omega

/-- The power of every switch sampled. -/
def Dev.samplePower (d : Dev) (xs : List AuxSample) : Nat :=
  ((List.finRange 24).map (fun n => match xs[n.1]? with | some x => d.auxPower n x | none => 0)).sum

/-- The power depends on the states, which the samples leave alone. -/
theorem Dev.sampled_power (d : Dev) (xs : List AuxSample) : (d.sampled xs).samplePower xs = d.samplePower xs := by
  have hone : ∀ (n : Fin 24) (x : AuxSample), (d.sampled xs).auxPower n x = d.auxPower n x := fun n x => by
    unfold Dev.auxPower Dev.auxOn
    rw [d.sampled_auxSt xs n]
  unfold Dev.samplePower
  refine congrArg List.sum (List.map_congr_left fun n _ => ?_)
  split
  · exact hone n _
  · rfl

/-- What the last 100 ms sum to with the present samples. -/
def Dev.powerTotal (d : Dev) (xs : List AuxSample) : Nat := ((d.samplePower xs :: d.auxSum).take 10000).sum

/-- The device with the estimate filed, before PBUD. -/
def Dev.estimated (d : Dev) (xs : List AuxSample) : Dev :=
  ((d.sampled xs).setAuxSum (((d.sampled xs).samplePower xs :: (d.sampled xs).auxSum).take 10000)).setF Reg.AUX_PWR_P
    (min 65535 ((((d.sampled xs).samplePower xs :: (d.sampled xs).auxSum).take 10000).sum / 10000000))

theorem Dev.estimate_eq (d : Dev) (xs : List AuxSample) : d.estimate xs =
    if 40000000000 < d.powerTotal xs then ((d.estimated xs).setF Reg.AUX_STAT_PBUD 1).linkRaise Reg.AUX_EVT_PBUD
      (if (d.estimated xs).bit Reg.AUX_STAT_PBUD then 0 else 1) 59
    else (d.estimated xs).setF Reg.AUX_STAT_PBUD 0 := by
  unfold Dev.powerTotal
  rw [← d.sampled_power xs, ← d.sampled_auxSum xs]
  rfl

theorem Dev.estimated_power (d : Dev) (xs : List AuxSample) : (d.estimated xs).f Reg.AUX_PWR_P = min 65535 (d.powerTotal xs / 10000000) := by
  unfold Dev.estimated Dev.powerTotal
  rw [Dev.f_setF_same, d.sampled_power xs, d.sampled_auxSum xs]
  exact Nat.mod_eq_of_lt (lt_of_le_of_lt (Nat.min_le_left _ _) (by decide))

theorem Dev.estimated_code (d : Dev) {xs : List AuxSample} {n : Fin 24} {x : AuxSample} (h : xs[n.1]? = some x) :
    (d.estimated xs).f (Reg.AUX_SENSE_CODE n.1) = min 4095 (x.ma / 2) := by
  refine (Dev.f_setF_off _ _ (by decide) (Nat.le_of_ble_eq_true rfl) ?_).trans (d.sampled_code h)
  simp only [Reg.auxFields, Reg.AUX_PWR_P, Reg.AUX_PWR_at]
  omega

/-- The estimate writes PBUD and its event besides. -/
theorem Dev.f_estimate_off (d : Dev) (xs : List AuxSample) {r : RF} (hl : r.lo < 32) (ha : 0x20004800 ≤ r.addr)
    (h : r.addr ≠ Reg.AUX_STAT_at) (h' : r.addr ≠ Reg.AUX_EVT_at) : (d.estimate xs).f r = (d.estimated xs).f r := by
  rw [Dev.estimate_eq]
  split
  · rw [Dev.f_linkRaise_off _ _ (by decide) hl (by decide) (.inr ha) (fun hc => h' hc.1), Dev.f_setF_off _ _ (by decide) hl (fun hc => h hc.1)]
  · exact Dev.f_setF_off _ _ (by decide) hl (fun hc => h hc.1)

theorem Answers.of_dissipationEstimate (s : State) (xs : List AuxSample) :
    Answers (.dissipationEstimate xs) s (fun t => t.dev.f Reg.AUX_PWR_P = min 65535 (s.dev.powerTotal xs / 10000000) ∧
      t.dev.bit Reg.AUX_STAT_PBUD = decide (40000000000 < s.dev.powerTotal xs) ∧
      ∀ (n : Fin 24) (x : AuxSample), xs[n.1]? = some x → t.dev.f (Reg.AUX_SENSE_CODE n.1) = min 4095 (x.ma / 2)) := by
  refine .of_donePower rfl ?_
  rw [State.commit_f, State.commit_bit]
  refine ⟨(s.dev.f_estimate_off xs (by decide) (by decide) (by decide) (by decide)).trans (s.dev.estimated_power xs), ?_, fun n x hx => ?_⟩
  · rw [Dev.estimate_eq]
    split
    next h =>
      rw [decide_eq_true h, Dev.bit_of_f (Dev.f_linkRaise_off _ _ (by decide) (by decide) (by decide) (by decide) (by decide))]
      exact congrArg (· == 1) (Dev.f_setF_same _ _ _)
    next h =>
      rw [decide_eq_false h]
      exact Dev.bit_setF_zero _ _
  · rw [State.commit_f]
    refine (s.dev.f_estimate_off xs (Nat.le_of_ble_eq_true rfl) ?_ ?_ ?_).trans (s.dev.estimated_code hx) <;>
      simp only [Reg.auxFields, Reg.AUX_STAT_at, Reg.AUX_EVT_at] <;> omega

/-- Settles O46, command by command; the three faults share `Dev.auxFault_trips`. -/
theorem auxFaultsAndWarnings : Obligations.AuxFaultsAndWarnings := by
  unfold Obligations.AuxFaultsAndWarnings
  refine ⟨fun s n hon => ⟨fun h => .of_fault (exec_short h) hon (by decide), fun t0 h ht => .of_fault (exec_overload h ht) hon (by decide),
      .of_fault rfl hon (by decide)⟩, fun s n => .of_retry, fun s n t0 => .of_retriesReset, fun s src w => .of_auxClr,
    fun s n t0 ht => ⟨.of_openLoad ht, .of_openLoadClear ht⟩, fun s g temp => ⟨.of_groupWarning, .of_groupWarningClear⟩, .of_dissipationEstimate⟩

end Sys2Proof.Machine
end

section
/-!
PROOF. The switch's ports as the commands change them (R234-R246): reading a port past changes of others, and frames the device puts into
queues itself.
-/

namespace Sys2Proof.Machine
open Sys2Proof

@[simp] theorem Dev.port_modPort_same (d : Dev) (p : Fin 8) (g : SwPort → SwPort) : (d.modPort p g).port p = g (d.port p) := getElem_put_same _ _ _

theorem Dev.port_modPort_ne (d : Dev) {p q : Fin 8} (h : q ≠ p) (g : SwPort → SwPort) : (d.modPort p g).port q = d.port q := getElem_put_ne _ (Ne.symm h) _

@[simp] theorem Dev.f_modPort (d : Dev) (p : Fin 8) (g : SwPort → SwPort) (r : RF) : (d.modPort p g).f r = d.f r := rfl

@[simp] theorem Dev.bit_modPort (d : Dev) (p : Fin 8) (g : SwPort → SwPort) (r : RF) : (d.modPort p g).bit r = d.bit r := rfl

@[simp] theorem Dev.f_modSw (d : Dev) (g : Switch → Switch) (r : RF) : (d.modSw g).f r = d.f r := rfl

@[simp] theorem Dev.port_setF (d : Dev) (r : RF) (x : Nat) (p : Fin 8) : (d.setF r x).port p = d.port p := rfl

theorem Dev.port_of_sw {d e : Dev} (h : e.sw = d.sw) (p : Fin 8) : e.port p = d.port p := congrArg (fun s : Switch => s.ports[p]) h

theorem State.commit_port (s : State) (d : Dev) (p : Fin 8) : (s.commit d).dev.port p = d.port p := rfl

theorem State.commit_removed (s : State) (d : Dev) (p : Fin 8) : (s.commit d).dev.removed p = d.removed p := rfl

theorem State.commit_tb (s : State) (d : Dev) (r : RF) (i : Nat) : (s.commit d).dev.tb r i = d.tb r i := rfl

/-- From `d` to `e` port `p` has one more frame of these bytes at the end of queue `q`. -/
def Dev.Queued (d e : Dev) (p q : Fin 8) (bs : List Byte) : Prop := ∃ f, (e.port p).queues[q] = (d.port p).queues[q] ++ [f] ∧ f.bytes = bs

/-! ### Frames the device sends itself (R234) -/

theorem Dev.originate_removed {d : Dev} {p : Fin 8} (h : d.removed p = true) (barrier : Bool) (bs : List Byte) : d.originate p barrier bs = d :=
  if_pos h

/-- The frame of `Dev.originate`. -/
def Dev.originFrame (d : Dev) (p : Fin 8) (barrier : Bool) (bs : List Byte) : SwFrame :=
  { id := d.sw.nextId + 1, inp := p, vid := 0, pcp := 7, q := d.queueOf 7, cells := cellsOf (bs.length + 4), arrived := cellsOf (bs.length + 4),
    cut := barrier, barrier, bytes := bs }

theorem Dev.originate_eq {d : Dev} {p : Fin 8} (h : d.removed p = false) (barrier : Bool) (bs : List Byte) : d.originate p barrier bs =
    (d.modSw (fun s => { s with nextId := s.nextId + 1 })).modPort p (fun x =>
      { x with queues := put x.queues (d.queueOf 7) (x.queues[d.queueOf 7] ++ [d.originFrame p barrier bs]) }) :=
  if_neg (by rw [h]; exact Bool.false_ne_true)

theorem Dev.originate_f (d : Dev) (p : Fin 8) (barrier : Bool) (bs : List Byte) (r : RF) : (d.originate p barrier bs).f r = d.f r := by
  unfold Dev.originate
  split <;> rfl

theorem Dev.originate_same (d : Dev) (p : Fin 8) (barrier : Bool) (bs : List Byte) :
    (d.originate p barrier bs).jasia = d.jasia ∧ (d.originate p barrier bs).now = d.now := by
  unfold Dev.originate
  split <;> exact ⟨rfl, rfl⟩

theorem Dev.originate_port_ne (d : Dev) {p q : Fin 8} (h : q ≠ p) (barrier : Bool) (bs : List Byte) :
    (d.originate p barrier bs).port q = d.port q := by
  cases hr : d.removed p with
  | true => rw [Dev.originate_removed hr]
  | false =>
    rw [Dev.originate_eq hr]
    exact Dev.port_modPort_ne _ h _

theorem Dev.originate_queued {d : Dev} {p : Fin 8} (h : d.removed p = false) (barrier : Bool) (bs : List Byte) :
    Dev.Queued d (d.originate p barrier bs) p (d.queueOf 7) bs := by
  refine ⟨d.originFrame p barrier bs, ?_, rfl⟩
  rw [Dev.originate_eq h, Dev.port_modPort_same]
  exact getElem_put_same _ _ _

/-! ### The master's frames (R257, R258) -/

theorem Dev.announce_f (b : Bool) (r : RF) : ∀ (fs : List (Fin 8 × List Byte)) (d : Dev), (d.announce b fs).f r = d.f r
  | [], _ => rfl
  | x :: fs, d => (Dev.announce_f b r fs (d.originate x.1 b x.2)).trans (d.originate_f x.1 b x.2 r)

theorem Dev.announce_same (b : Bool) : ∀ (fs : List (Fin 8 × List Byte)) (d : Dev), (d.announce b fs).jasia = d.jasia ∧ (d.announce b fs).now = d.now
  | [], _ => ⟨rfl, rfl⟩
  | x :: fs, d => by
    obtain ⟨hj, hn⟩ := Dev.announce_same b fs (d.originate x.1 b x.2)
    obtain ⟨hj', hn'⟩ := d.originate_same x.1 b x.2
    exact ⟨hj.trans hj', hn.trans hn'⟩

/-- Ports no frame is for keep their queues. -/
theorem Dev.announce_port_ne (b : Bool) {q : Fin 8} : ∀ (fs : List (Fin 8 × List Byte)), q ∉ fs.map (·.1) → ∀ d : Dev, (d.announce b fs).port q = d.port q
  | [], _, _ => rfl
  | x :: fs, h, d => by
    obtain ⟨hx, hfs⟩ := not_or.mp (fun hc => h (List.mem_cons.mpr hc))
    exact (Dev.announce_port_ne b fs hfs (d.originate x.1 b x.2)).trans (d.originate_port_ne hx b x.2)

/-- A port one frame is for has it in its queue. -/
theorem Dev.announce_queued (b : Bool) {p : Fin 8} {bs : List Byte} : ∀ (fs : List (Fin 8 × List Byte)), (fs.map (·.1)).Nodup → (p, bs) ∈ fs →
    ∀ d : Dev, d.removed p = false → Dev.Queued d (d.announce b fs) p (d.queueOf 7) bs
  | x :: fs, hn, hm, d, hr => by
    obtain ⟨hx, hn⟩ := List.nodup_cons.mp hn
    by_cases hp : (p, bs) = x
    · subst hp
      obtain ⟨f, hq, hb⟩ := Dev.originate_queued hr b bs
      refine ⟨f, ?_, hb⟩
      rw [← hq]
      exact congrArg (fun y : SwPort => y.queues[d.queueOf 7]) (Dev.announce_port_ne b fs hx (d.originate p b bs))
    · have hm := (List.mem_cons.mp hm).resolve_left hp
      have hne : p ≠ x.1 := fun hc => hx (List.mem_map.mpr ⟨_, hm, hc⟩)
      have hr' : (d.originate x.1 b x.2).removed p = false := (congrArg (· == 1) (d.originate_f x.1 b x.2 _)).trans hr
      have hq : (d.originate x.1 b x.2).queueOf 7 = d.queueOf 7 := congrArg p8 (d.originate_f x.1 b x.2 _)
      obtain ⟨f, hf, hb⟩ := Dev.announce_queued b fs hn hm (d.originate x.1 b x.2) hr'
      rw [hq, d.originate_port_ne hne] at hf
      exact ⟨f, hf, hb⟩

/-! ### Counters and what leaves the device -/

/-- A port's counter is written in its two words. -/
theorem Dev.f_count_off (d : Dev) (p : Fin 8) {i : Nat} (hi : i < 32) (n : Nat) {r : RF} (hl : r.lo < 32)
    (h : r.addr < 0x20054000 ∨ 0x20054800 ≤ r.addr) : (d.count p i n).f r = d.f r := by
  unfold Dev.count Dev.setF64
  rw [Dev.f_setF_off _ _ (Nat.le_of_ble_eq_true rfl) hl, Dev.f_setF_off _ _ (Nat.le_of_ble_eq_true rfl) hl]
  · simp only [Reg.SW_P_CNT_LO_COUNT, Reg.SW_P_CNT_LO_at]; omega
  · simp only [Reg.SW_P_CNT_HI_COUNT, Reg.SW_P_CNT_HI_at]; omega

@[simp] theorem Dev.f_emit (d : Dev) (o : Output) (r : RF) : (d.emit o).f r = d.f r := rfl

@[simp] theorem Dev.f_post (d : Dev) (k : Nat) (bs : List Byte) (r : RF) : (d.post k bs).f r = d.f r := rfl

/-! ### Bytes stored and read back -/

/-- Bytes a store does not touch read as before. -/
theorem Mem.reads_writes_out (ep : Nat × Nat) (bs : List Byte) (m : List Host.Cell) (a : Nat) :
    ∀ n x : Nat, x + n ≤ a ∨ a + bs.length ≤ x → Mem.reads (Mem.writes m ep a bs) ep x n = Mem.reads m ep x n
  | 0, _, _ => rfl
  | n + 1, x, h => congrArg₂ List.cons (Mem.read_writes_out ep bs m a x (by omega)) (Mem.reads_writes_out ep bs m a n (x + 1) (by omega))

theorem length_leBytes : ∀ n x : Nat, (leBytes n x).length = n
  | 0, _ => rfl
  | n + 1, x => congrArg (· + 1) (length_leBytes n (x / 256))

end Sys2Proof.Machine
end

section
/-!
PROOF. The cascade's master and its beacons (R262-R264).
-/

namespace Sys2Proof.Machine
open Sys2Proof

@[simp] theorem Dev.f_modJasia (d : Dev) (g : Jasia → Jasia) (r : RF) : (d.modJasia g).f r = d.f r := rfl

@[simp] theorem Dev.bit_modJasia (d : Dev) (g : Jasia → Jasia) (r : RF) : (d.modJasia g).bit r = d.bit r := rfl

theorem Dev.jasiaEvt_reports (d : Dev) (bit : RF) : Dev.Reports d (d.jasiaEvt bit) := d.raise_reports bit 1 49

/-- A field of the cascade's registers that an event of the cascade leaves alone. -/
theorem Dev.f_jasiaEvt_off (d : Dev) {e r : RF} (he : e.addr = Reg.JASIA_EVT_at) (hel : e.lo < 32) (hl : r.lo < 32)
    (h : r.addr < 0x20004000 ∨ 0x20004800 ≤ r.addr) (hne : r.addr ≠ Reg.JASIA_EVT_at) : (d.jasiaEvt e).f r = d.f r :=
  Dev.f_raise_off d 1 (by decide) hl hel h (fun hc => hne (hc.1.trans he))

theorem Dev.tb_jasiaEvt (d : Dev) {e : RF} (he : e.addr = Reg.JASIA_EVT_at) (hel : e.lo < 32) (hw : 0 < e.w) : (d.jasiaEvt e).tb e 0 = true :=
  Dev.tb_raise d e (by decide) (by rw [he]; decide) hel hw rfl

/-! ### Beacons are sent (R262) -/

theorem Dev.sendBeacon_f (d : Dev) (r : RF) : d.sendBeacon.f r = d.f r := Dev.announce_f _ r _ d

/-- J1 and the branch ports are not J0. -/
theorem Dev.jFrames_j0 (d : Dev) (kind number inst sent : Nat) : ∃ fs, d.jFrames kind number inst sent = (0, d.jFrame 0 kind 0 number inst sent) :: fs ∧
    (0 : Fin 8) ∉ fs.map (·.1) := by
  refine ⟨_, rfl, fun hc => ?_⟩
  obtain ⟨x, hx, h0⟩ := List.mem_map.mp hc
  obtain rfl | hx := List.mem_cons.mp hx
  · cases h0
  · obtain ⟨o, ho, rfl⟩ := List.mem_map.mp hx
    obtain ⟨i, hi, rfl⟩ := List.mem_map.mp ho
    have hi4 : i < 4 := List.mem_range.mp (List.mem_of_mem_filter hi)
    have hval : (i + 2) % 8 = 0 := congrArg Fin.val h0
    omega

theorem Answers.of_beaconSend {s : State} (hl : Live s) (hen : s.dev.bit Reg.JASIA_CFG_EN = true) (hrole : s.dev.f Reg.JASIA_STAT_ROLE_NOW = 1)
    (ht : s.dev.jasia.sentAt + 400000 * s.dev.f Reg.JASIA_TIME_BEACON ≤ s.dev.now) :
    Answers .beaconSend s (fun t => t.dev.jasia.sentAt = s.dev.now ∧ (s.dev.removed 0 = false →
      Dev.Queued s.dev t.dev 0 (s.dev.queueOf 7) (s.dev.jFrame 0 2 0 (s.dev.f Reg.JASIA_LAST_NUMBER) 0 s.dev.now))) := by
  have heq : s.dev.beaconSend = s.dev.sendBeacon := if_pos (by
    have hdue : decide (s.dev.jasia.sentAt + s.dev.beaconTicks ≤ s.dev.now) = true := decide_eq_true ht
    rw [hen, hrole, hdue, Bool.or_true]
    rfl)
  obtain ⟨fs, hfs, h0⟩ := s.dev.jFrames_j0 2 (s.dev.f Reg.JASIA_LAST_NUMBER) 0 s.dev.now
  refine .of_done hl (congrArg s.done heq) ⟨rfl, fun hr => ?_⟩
  obtain ⟨f, hq, hb⟩ := Dev.originate_queued hr false (s.dev.jFrame 0 2 0 (s.dev.f Reg.JASIA_LAST_NUMBER) 0 s.dev.now)
  refine ⟨f, ?_, hb⟩
  have hport : s.dev.sendBeacon.port 0 =
      (s.dev.originate 0 false (s.dev.jFrame 0 2 0 (s.dev.f Reg.JASIA_LAST_NUMBER) 0 s.dev.now)).port 0 := by
    unfold Dev.sendBeacon
    rw [hfs]
    exact Dev.announce_port_ne false fs h0 _
  rw [State.commit_port, hport, hq]

/-! ### Beacons arrive or are missed (R262) -/

theorem Dev.adopt_now (d : Dev) (epoch master : Nat) : (d.adopt epoch master).now = d.now := by
  unfold Dev.adopt
  split
  · dsimp only
    split
    · exact (Dev.jasiaEvt_reports _ _).now
    · rfl
  · rfl

theorem Dev.topo_jasia (d : Dev) : d.topo.jasia = d.jasia := by
  unfold Dev.topo
  split
  · rfl
  split <;> rfl

theorem Dev.f_topo_off (d : Dev) {r : RF} (hl : r.lo < 32) (h : ¬(r.addr = Reg.JASIA_STAT_at ∧ r.lo = Reg.JASIA_STAT_TOPO.lo)) : d.topo.f r = d.f r := by
  unfold Dev.topo
  split
  · exact Dev.f_setF_off _ _ (by decide) hl h
  split
  · exact Dev.f_setF_off _ _ (by decide) hl h
  · rfl

/-- What a beacon leaves in the unit. -/
def Jasia.heard (p : Fin 6) (now : Nat) (j : Jasia) : Jasia :=
  { j with lastBeacon := now, lastJ0 := if p = 0 then some now else j.lastJ0, lastJ1 := if p = 1 then some now else j.lastJ1
           seen := if p.1 < 2 then put j.seen (jPort p) (some now) else j.seen
           expect := if p.1 < 2 then put j.expect (jPort p) (some now) else j.expect }

theorem Dev.beaconReceive_eq {d : Dev} {p : Fin 6} {bs : List Byte} (h : d.jActs p bs true 2 = true) : d.beaconReceive p bs true =
    (let e := ((d.adopt (jEpoch bs) (jMaster bs)).modJasia (Jasia.heard p (d.adopt (jEpoch bs) (jMaster bs)).now)).setF Reg.JASIA_STAT_MASTER_LOST 0
     if p = 0 then e.setF Reg.JASIA_POS_HOP_J0 (jHop bs) else if p = 1 then e.setF Reg.JASIA_POS_HOP_J1 (jHop bs) else e).topo :=
  if_neg (by rw [h]; decide)

theorem Answers.of_beaconReceive {s : State} {p : Fin 2} {bs : List Byte} (hl : Live s) (h : s.dev.jActs ⟨p.1, by omega⟩ bs true 2 = true) :
    Answers (.beaconReceive ⟨p.1, by omega⟩ bs true) s (fun t => t.dev.jasia.lastBeacon = s.dev.now ∧
      t.dev.bit Reg.JASIA_STAT_MASTER_LOST = false ∧
      t.dev.f (if p = 0 then Reg.JASIA_POS_HOP_J0 else Reg.JASIA_POS_HOP_J1) = jHop bs % 2 ^ 16 ∧
      (if p = 0 then t.dev.jasia.lastJ0 else t.dev.jasia.lastJ1) = some s.dev.now) := by
  refine .of_done hl (congrArg s.done (Dev.beaconReceive_eq h)) ?_
  rw [State.commit_jasia, State.commit_bit, State.commit_f, Dev.topo_jasia, Dev.bit_of_f (Dev.f_topo_off _ (by decide) (by decide)), s.dev.adopt_now]
  have hp : p = 0 ∨ p = 1 := by omega
  obtain rfl | rfl := hp
  · rw [Dev.f_topo_off _ (by decide) (by decide)]
    refine ⟨rfl, ?_, Dev.f_setF_same _ _ _, rfl⟩
    exact (Dev.bit_of_f (Dev.f_setF_off _ _ (by decide) (by decide) (by decide))).trans (Dev.bit_setF_zero _ _)
  · rw [Dev.f_topo_off _ (by decide) (by decide)]
    refine ⟨rfl, ?_, Dev.f_setF_same _ _ _, rfl⟩
    exact (Dev.bit_of_f (Dev.f_setF_off _ _ (by decide) (by decide) (by decide))).trans (Dev.bit_setF_zero _ _)

theorem Answers.of_beaconMiss {s : State} {p : Fin 2} {t0 : Nat} (hl : Live s) (he : s.dev.jasia.expect[p] = some t0)
    (ht : t0 + 400000 * s.dev.f Reg.JASIA_TIME_BEACON ≤ s.dev.now) :
    Answers (.beaconMiss p) s (fun t => (if p = 0 then t.dev.jasia.lastJ0 else t.dev.jasia.lastJ1) = none ∧
      t.dev.jasia.expect[p] = some (t0 + 400000 * s.dev.f Reg.JASIA_TIME_BEACON) ∧
      t.dev.f (Reg.JASIA_CNT_COUNT 4) = min (2 ^ 32 - 1) (s.dev.f (Reg.JASIA_CNT_COUNT 4) + 1)) := by
  have heq : s.dev.beaconMiss p = ((s.dev.jasiaCnt 4).modJasia (fun j =>
        { j with expect := put j.expect p (some (t0 + s.dev.beaconTicks)), lastJ0 := if p = 0 then none else j.lastJ0,
                 lastJ1 := if p = 0 then j.lastJ1 else none })).topo := by
    unfold Dev.beaconMiss
    rw [he]
    exact if_pos ht
  refine .of_done hl (congrArg s.done heq) ?_
  rw [State.commit_jasia, State.commit_f, Dev.topo_jasia, Dev.f_topo_off _ (by decide) (by decide)]
  refine ⟨?_, getElem_put_same _ _ _, Dev.f_bump_same _ _ _⟩
  by_cases hp : p = 0
  · subst hp
    rfl
  · rw [if_neg hp]
    exact if_neg hp

/-! ### A lost master (R262, R264) -/

theorem Dev.loseMaster_lost {d : Dev} (h : d.bit Reg.JASIA_STAT_MASTER_LOST = true) : d.loseMaster = d := if_pos h

theorem Dev.loseMaster_eq {d : Dev} (h : d.bit Reg.JASIA_STAT_MASTER_LOST = false) : d.loseMaster =
    (((d.setF Reg.JASIA_STAT_MASTER_LOST 1).setF Reg.JASIA_STAT_TOPO 0).jasiaEvt Reg.JASIA_EVT_MASTER_LOST).modJasia (fun j =>
      { j with lastJ0 := none, lastJ1 := none, expect := Vector.replicate 2 none,
               follows := (((d.setF Reg.JASIA_STAT_MASTER_LOST 1).setF Reg.JASIA_STAT_TOPO 0).jasiaEvt Reg.JASIA_EVT_MASTER_LOST).f
                 Reg.JASIA_STAT_ROLE_NOW == 1 }) := if_neg (by rw [h]; exact Bool.false_ne_true)

/-- The loss writes MASTER_LOST, TOPO and the event. -/
theorem Dev.f_loseMaster_off (d : Dev) {r : RF} (hl : r.lo < 32) (h : r.addr < 0x20004000 ∨ 0x20004800 ≤ r.addr) (hne : r.addr ≠ Reg.JASIA_EVT_at)
    (hst : ¬(r.addr = Reg.JASIA_STAT_at ∧ (r.lo = Reg.JASIA_STAT_MASTER_LOST.lo ∨ r.lo = Reg.JASIA_STAT_TOPO.lo))) :
    d.loseMaster.f r = d.f r := by
  cases hm : d.bit Reg.JASIA_STAT_MASTER_LOST with
  | true => rw [Dev.loseMaster_lost hm]
  | false =>
    rw [Dev.loseMaster_eq hm, Dev.f_modJasia, Dev.f_jasiaEvt_off _ rfl (by decide) hl h hne,
      Dev.f_setF_off _ _ (by decide) hl (fun hc => hst ⟨hc.1, .inr hc.2⟩), Dev.f_setF_off _ _ (by decide) hl (fun hc => hst ⟨hc.1, .inl hc.2⟩)]

theorem Dev.loseMaster_shows (d : Dev) : d.loseMaster.bit Reg.JASIA_STAT_MASTER_LOST = true ∧
    (d.bit Reg.JASIA_STAT_MASTER_LOST = false → d.loseMaster.f Reg.JASIA_STAT_TOPO = 0 ∧ d.loseMaster.tb Reg.JASIA_EVT_MASTER_LOST 0 = true) := by
  cases hm : d.bit Reg.JASIA_STAT_MASTER_LOST with
  | true =>
    rw [Dev.loseMaster_lost hm]
    exact ⟨hm, fun h => absurd h (by decide)⟩
  | false =>
    rw [Dev.loseMaster_eq hm, Dev.bit_modJasia, Dev.f_modJasia, Dev.bit_of_f (Dev.f_jasiaEvt_off _ rfl (by decide) (by decide) (by decide) (by decide)),
      Dev.f_jasiaEvt_off _ rfl (by decide) (by decide) (by decide) (by decide)]
    refine ⟨?_, fun _ => ⟨Dev.f_setF_same _ _ _, (Dev.tb_of_f (Dev.f_modJasia _ _ _) 0).trans (Dev.tb_jasiaEvt _ rfl (by decide) (by decide))⟩⟩
    exact (Dev.bit_of_f (Dev.f_setF_off _ _ (by decide) (by decide) (by decide))).trans (congrArg (· == 1) (Dev.f_setF_same _ _ _))

/-- The device that takes over before its event and its first beacon. -/
def Dev.takingOver (d : Dev) : Dev :=
  let d := d.setF Reg.JASIA_STAT_EPOCH (d.f Reg.JASIA_STAT_EPOCH + 1)
  let d := (d.setF Reg.JASIA_STAT_ROLE_NOW 1).setF Reg.JASIA_STAT_MASTER (d.f Reg.JASIA_CFG_DEV)
  let d := d.modJasia (fun j => { j with follows := true, lastBeacon := d.now })
  d.setF Reg.JASIA_STAT_MASTER_LOST 0

theorem Dev.takeOver_eq (d : Dev) : d.takeOver = (d.takingOver.jasiaEvt Reg.JASIA_EVT_TAKEOVER).sendBeacon := rfl

theorem Dev.takeOver_shows (d : Dev) : d.takeOver.f Reg.JASIA_STAT_ROLE_NOW = 1 ∧
    d.takeOver.f Reg.JASIA_STAT_EPOCH = (d.f Reg.JASIA_STAT_EPOCH + 1) % 2 ^ 16 ∧
    d.takeOver.f Reg.JASIA_STAT_MASTER = d.f Reg.JASIA_CFG_DEV % 2 ^ 9 ∧ d.takeOver.tb Reg.JASIA_EVT_TAKEOVER 0 = true := by
  have hout : ∀ r : RF, r.lo < 32 → r.addr = Reg.JASIA_STAT_at → d.takeOver.f r = d.takingOver.f r := fun r hl ha => by
    rw [Dev.takeOver_eq, Dev.sendBeacon_f]
    exact Dev.f_jasiaEvt_off _ rfl (by decide) hl (by rw [ha]; decide) (by rw [ha]; decide)
  rw [hout _ (by decide) rfl, hout _ (by decide) rfl, hout _ (by decide) rfl]
  refine ⟨?_, ?_, ?_, ?_⟩
  · simp (disch := decide) only [Dev.takingOver, Dev.f_setF_off, Dev.f_setF_same, Dev.f_modJasia]
    rfl
  · simp (disch := decide) only [Dev.takingOver, Dev.f_setF_off, Dev.f_setF_same, Dev.f_modJasia]
    rfl
  · simp (disch := decide) only [Dev.takingOver, Dev.f_setF_off, Dev.f_setF_same, Dev.f_modJasia]
    rfl
  · rw [Dev.takeOver_eq, Dev.tb_of_f (Dev.sendBeacon_f _ _)]
    exact Dev.tb_jasiaEvt _ rfl (by decide) (by decide)

theorem Dev.masterLost_eq {d : Dev} (hen : d.bit Reg.JASIA_CFG_EN = true)
    (ht : d.jasia.lastBeacon + d.f Reg.JASIA_TIME_MASTER_TO * (400000 * d.f Reg.JASIA_TIME_BEACON) ≤ d.now) :
    d.masterLost = if d.f Reg.JASIA_CFG_ROLE = 2 ∧ d.f Reg.JASIA_STAT_ROLE_NOW ≠ 1 then d.loseMaster.takeOver else d.loseMaster := by
  have hgone : d.beaconsGone = true := by
    have hdue : decide (d.jasia.lastBeacon + d.f Reg.JASIA_TIME_MASTER_TO * d.beaconTicks ≤ d.now) = true := decide_eq_true ht
    unfold Dev.beaconsGone
    rw [hen, hdue]
    rfl
  rw [← d.f_loseMaster_off (r := Reg.JASIA_CFG_ROLE) (by decide) (by decide) (by decide) (by decide),
    ← d.f_loseMaster_off (r := Reg.JASIA_STAT_ROLE_NOW) (by decide) (by decide) (by decide) (by decide)]
  exact if_pos hgone

theorem Answers.of_masterLost {s : State} (hl : Live s) (hen : s.dev.bit Reg.JASIA_CFG_EN = true)
    (ht : s.dev.jasia.lastBeacon + s.dev.f Reg.JASIA_TIME_MASTER_TO * (400000 * s.dev.f Reg.JASIA_TIME_BEACON) ≤ s.dev.now) :
    Answers .masterLost s (fun t =>
      if s.dev.f Reg.JASIA_CFG_ROLE = 2 ∧ s.dev.f Reg.JASIA_STAT_ROLE_NOW ≠ 1 then
        t.dev.f Reg.JASIA_STAT_ROLE_NOW = 1 ∧ t.dev.f Reg.JASIA_STAT_EPOCH = (s.dev.f Reg.JASIA_STAT_EPOCH + 1) % 2 ^ 16 ∧
        t.dev.f Reg.JASIA_STAT_MASTER = s.dev.f Reg.JASIA_CFG_DEV % 2 ^ 9 ∧ t.dev.tb Reg.JASIA_EVT_TAKEOVER 0 = true
      else t.dev.bit Reg.JASIA_STAT_MASTER_LOST = true ∧ t.dev.f Reg.JASIA_STAT_ROLE_NOW = s.dev.f Reg.JASIA_STAT_ROLE_NOW ∧
        (s.dev.bit Reg.JASIA_STAT_MASTER_LOST = false → t.dev.f Reg.JASIA_STAT_TOPO = 0 ∧ t.dev.tb Reg.JASIA_EVT_MASTER_LOST 0 = true)) := by
  refine .of_done hl (congrArg s.done (Dev.masterLost_eq hen ht)) ?_
  split
  · obtain ⟨hrole, hepoch, hmaster, hevt⟩ := s.dev.loseMaster.takeOver_shows
    rw [s.dev.f_loseMaster_off (by decide) (by decide) (by decide) (by decide)] at hepoch hmaster
    rw [State.commit_f, State.commit_f, State.commit_f, State.commit_tb]
    exact ⟨hrole, hepoch, hmaster, hevt⟩
  · obtain ⟨hlost, hnew⟩ := s.dev.loseMaster_shows
    rw [State.commit_bit, State.commit_f, State.commit_f, State.commit_tb]
    exact ⟨hlost, s.dev.f_loseMaster_off (by decide) (by decide) (by decide) (by decide), hnew⟩

/-! ### A relinked port (R263) -/

theorem Answers.of_autoReenable {s : State} {p : Fin 2} {t0 : Nat} (hl : Live s) (hre : s.dev.bit Reg.JASIA_CFG_AUTO_REEN = true)
    (hr : s.dev.removed (p8 p.1) = true) (hlink : s.dev.bit (Reg.SW_P_STAT_LINK (p8 p.1).1) = true) (hseen : s.dev.jasia.seen[p] = some t0)
    (hafter : (s.dev.port (p8 p.1)).linkAt ≤ t0)
    (ht : (s.dev.port (p8 p.1)).linkAt + 400000 * s.dev.f Reg.JASIA_TIME_RELINK ≤ s.dev.now) :
    Answers (.autoReenable p) s (fun t => t.dev.removed (p8 p.1) = false ∧ t.dev.tb Reg.JASIA_EVT_RELINK 0 = true) := by
  have heq : s.dev.autoReenable p = (s.dev.reenablePort (p8 p.1)).jasiaEvt Reg.JASIA_EVT_RELINK := by
    unfold Dev.autoReenable
    rw [hseen]
    exact if_pos (by simp only [hre, hr, hlink, decide_eq_true ht, decide_eq_true hafter, Bool.and_true])
  refine .of_done hl (congrArg s.done heq) ?_
  rw [State.commit_removed, State.commit_tb]
  refine ⟨?_, Dev.tb_jasiaEvt _ rfl (by decide) (by decide)⟩
  refine (Dev.bit_of_f ?_).trans (Dev.bit_setF_zero s.dev (Reg.SW_P_STAT_REMOVED (p8 p.1).1))
  have haddr : (Reg.SW_P_STAT_REMOVED (p8 p.1).1).addr = 0x20051004 + 0x100 * (p8 p.1).1 := rfl
  rw [Dev.f_jasiaEvt_off _ rfl (by decide) (Nat.le_of_ble_eq_true rfl) (by omega) (by rw [haddr]; simp only [Reg.JASIA_EVT_at]; omega)]
  exact Dev.f_setTb_off _ _ _ (by decide) (Nat.le_of_ble_eq_true rfl) (by rw [haddr]; simp only [Reg.SYS_FENCE_PORT, Reg.SYS_FENCE_at]; omega)

/-- Settles O34, command by command. -/
theorem beaconsElectTheMaster : Obligations.BeaconsElectTheMaster := by
  unfold Obligations.BeaconsElectTheMaster
  exact ⟨fun s => .of_beaconSend, fun s p bs => .of_beaconReceive, fun s p t0 => .of_beaconMiss, fun s => .of_masterLost,
    fun s p t0 hl => .of_autoReenable hl⟩

end Sys2Proof.Machine
end

section
/-!
PROOF. Barriers and forwarding of the cascade (R258-R260, R265).
-/

namespace Sys2Proof.Machine
open Sys2Proof

/-! ### Frames and the table of barriers -/

/-- The fields a frame of the master spells. -/
def Reg.jFrameFields : List RF :=
  [Reg.JASIA_DA_LO_ADDR, Reg.JASIA_DA_HI_ADDR, Reg.JASIA_ETYPE_ETYPE, Reg.JASIA_CFG_DOMAIN, Reg.JASIA_STAT_EPOCH, Reg.JASIA_CFG_DEV,
    Reg.JASIA_CFG_BRANCH]

theorem Dev.jFrames_of_fields {d e : Dev} (h : ∀ r ∈ Reg.jFrameFields, e.f r = d.f r) (kind number inst sent : Nat) :
    e.jFrames kind number inst sent = d.jFrames kind number inst sent := by
  unfold Dev.jFrames Dev.jFrame Dev.branches Dev.tb
  rw [h Reg.JASIA_DA_LO_ADDR (by decide), h Reg.JASIA_DA_HI_ADDR (by decide), h Reg.JASIA_ETYPE_ETYPE (by decide),
    h Reg.JASIA_CFG_DOMAIN (by decide), h Reg.JASIA_STAT_EPOCH (by decide), h Reg.JASIA_CFG_DEV (by decide), h Reg.JASIA_CFG_BRANCH (by decide)]

/-- The registers of entry `i` of the table. -/
def Dev.barrierRow (d : Dev) (i num inst : Nat) : Dev :=
  ((d.setF (Reg.JASIA_BAR_NUM_VALUE i) num).setF64 (Reg.JASIA_BAR_INST_LO_VALUE i) (Reg.JASIA_BAR_INST_HI_VALUE i) inst).setF
    (Reg.JASIA_BAR_ARR_VALUE i) d.now

/-- The unit with a barrier more. -/
def Jasia.entered (num inst now epoch : Nat) (j : Jasia) : Jasia :=
  { j with barriers := (Barrier.mk num inst now epoch :: j.barriers).take 16, count := j.count + 1 }

theorem Dev.enterBarrier_eq (d : Dev) (num inst : Nat) : d.enterBarrier num inst =
    (let e := (d.modJasia (Jasia.entered num inst d.now (d.f Reg.JASIA_STAT_EPOCH))).barrierRow (d.jasia.count % 16) num inst
     if 0 < sdiff32 num (e.f Reg.JASIA_LAST_NUMBER) then e.setF Reg.JASIA_LAST_NUMBER num else e) := rfl

theorem Dev.f_barrierRow_off (d : Dev) {i : Nat} (hi : i < 16) (num inst : Nat) {r : RF} (hl : r.lo < 32)
    (h : r.addr < 0x20058080 ∨ 0x20058180 ≤ r.addr) : (d.barrierRow i num inst).f r = d.f r := by
  unfold Dev.barrierRow Dev.setF64
  rw [Dev.f_setF_off _ _ (Nat.le_of_ble_eq_true rfl) hl, Dev.f_setF_off _ _ (Nat.le_of_ble_eq_true rfl) hl,
    Dev.f_setF_off _ _ (Nat.le_of_ble_eq_true rfl) hl, Dev.f_setF_off _ _ (Nat.le_of_ble_eq_true rfl) hl]
  · simp only [Reg.JASIA_BAR_NUM_VALUE, Reg.JASIA_BAR_NUM_at]; omega
  · simp only [Reg.JASIA_BAR_INST_LO_VALUE, Reg.JASIA_BAR_INST_LO_at]; omega
  · simp only [Reg.JASIA_BAR_INST_HI_VALUE, Reg.JASIA_BAR_INST_HI_at]; omega
  · simp only [Reg.JASIA_BAR_ARR_VALUE, Reg.JASIA_BAR_ARR_at]; omega

theorem Dev.enterBarrier_jasia (d : Dev) (num inst : Nat) :
    (d.enterBarrier num inst).jasia = Jasia.entered num inst d.now (d.f Reg.JASIA_STAT_EPOCH) d.jasia := by
  rw [Dev.enterBarrier_eq]
  dsimp only
  split <;> rfl

theorem Dev.enterBarrier_now (d : Dev) (num inst : Nat) : (d.enterBarrier num inst).now = d.now := by
  rw [Dev.enterBarrier_eq]
  dsimp only
  split <;> rfl

/-- A barrier writes its row of the table, and LAST. -/
theorem Dev.f_enterBarrier_off (d : Dev) (num inst : Nat) {r : RF} (hl : r.lo < 32) (h : r.addr < 0x20058080 ∨ 0x20058180 ≤ r.addr)
    (hne : r.addr ≠ Reg.JASIA_LAST_at) : (d.enterBarrier num inst).f r = d.f r := by
  rw [Dev.enterBarrier_eq]
  dsimp only
  split
  · exact (Dev.f_setF_off _ _ (by decide) hl (fun hc => hne hc.1)).trans (Dev.f_barrierRow_off _ (Nat.mod_lt _ (by decide)) _ _ hl h)
  · exact Dev.f_barrierRow_off _ (Nat.mod_lt _ (by decide)) _ _ hl h

theorem Dev.enterBarrier_last (d : Dev) {num : Nat} (inst : Nat) (h : 0 < sdiff32 num (d.f Reg.JASIA_LAST_NUMBER)) :
    (d.enterBarrier num inst).f Reg.JASIA_LAST_NUMBER = num % 2 ^ 32 := by
  rw [Dev.enterBarrier_eq]
  dsimp only
  rw [Dev.f_barrierRow_off _ (Nat.mod_lt _ (by decide)) _ _ (by decide) (by decide), Dev.f_modJasia, if_pos h]
  exact Dev.f_setF_same _ _ _

/-! ### Requests (R258) -/

/-- The joined instant is written, before the request is judged. -/
def Dev.requestTaken (d : Dev) (src : Src) (w : Nat) : Dev :=
  let lo := (d.heldFor src Reg.JASIA_REQ_INST_LO_at).getD (d.f Reg.JASIA_REQ_INST_LO_VALUE)
  ((d.unhold src Reg.JASIA_REQ_INST_LO_at).setF Reg.JASIA_REQ_INST_LO_VALUE lo).setF Reg.JASIA_REQ_INST_HI_VALUE w

theorem Dev.f_requestTaken_off (d : Dev) (src : Src) (w : Nat) {r : RF} (hl : r.lo < 32) (h : r.addr ≠ Reg.JASIA_REQ_INST_LO_at)
    (h' : r.addr ≠ Reg.JASIA_REQ_INST_HI_at) : (d.requestTaken src w).f r = d.f r := by
  unfold Dev.requestTaken
  dsimp only
  rw [Dev.f_setF_off _ _ (by decide) hl (fun hc => h' hc.1), Dev.f_setF_off _ _ (by decide) hl (fun hc => h hc.1)]
  rfl

/-- A refused request shows its result only. -/
theorem Dev.barrierRequest_refused {d : Dev} {num inst : Nat} (h : d.requestResult num inst ≠ 1) :
    d.barrierRequest num inst = d.setF Reg.JASIA_REQ_STAT_RESULT (d.requestResult num inst) := if_pos h

/-- The device whose announcement is under way. -/
def Dev.announced (d : Dev) (num inst : Nat) : Dev :=
  let d := d.setF Reg.JASIA_REQ_STAT_RESULT (d.requestResult num inst)
  (d.announce true (d.jFrames 1 num inst d.now)).enterBarrier num inst

/-- The unit with its repeats. -/
def Jasia.repeating (x : Option (List (Fin 8 × List Byte) × Nat × Nat)) (j : Jasia) : Jasia := { j with rep := x }

theorem Dev.barrierRequest_taken {d : Dev} {num inst : Nat} (h : d.requestResult num inst = 1) : d.barrierRequest num inst =
    (d.announced num inst).modJasia (Jasia.repeating (if (d.announced num inst).f Reg.JASIA_CFG_REPEAT = 0 then none
      else some ((d.setF Reg.JASIA_REQ_STAT_RESULT (d.requestResult num inst)).jFrames 1 num inst d.now,
        (d.announced num inst).f Reg.JASIA_CFG_REPEAT, (d.announced num inst).now + 2000))) := if_neg (fun hc => hc h)

theorem Dev.announced_jasia (d : Dev) (num inst : Nat) :
    (d.announced num inst).jasia = Jasia.entered num inst d.now (d.f Reg.JASIA_STAT_EPOCH) d.jasia := by
  unfold Dev.announced
  dsimp only
  rw [Dev.enterBarrier_jasia, Dev.announce_f, (Dev.announce_same _ _ _).1, (Dev.announce_same _ _ _).2,
    Dev.f_setF_off _ _ (by decide) (by decide) (by decide)]
  rfl

theorem Dev.announced_now (d : Dev) (num inst : Nat) : (d.announced num inst).now = d.now := by
  unfold Dev.announced
  dsimp only
  rw [Dev.enterBarrier_now, (Dev.announce_same _ _ _).2]
  rfl

theorem Dev.f_announced_off (d : Dev) (num inst : Nat) {r : RF} (hl : r.lo < 32) (h : r.addr < 0x20058080 ∨ 0x20058180 ≤ r.addr)
    (hne : r.addr ≠ Reg.JASIA_LAST_at) :
    (d.announced num inst).f r = (d.setF Reg.JASIA_REQ_STAT_RESULT (d.requestResult num inst)).f r := by
  unfold Dev.announced
  dsimp only
  rw [Dev.f_enterBarrier_off _ _ _ hl h hne, Dev.announce_f]

/-- An accepted request is later than the last barrier. -/
theorem Dev.later_of_requestResult {d : Dev} {num inst : Nat} (h : d.requestResult num inst = 1) : 0 < sdiff32 num (d.f Reg.JASIA_LAST_NUMBER) := by
  refine Int.not_le.mp (fun hle => ?_)
  unfold Dev.requestResult at h
  rw [if_pos hle] at h
  split at h
  · cases h
  split at h
  · cases h
  split at h
  · cases h
  split at h <;> cases h

theorem Dev.announced_last {d : Dev} {num inst : Nat} (h : d.requestResult num inst = 1) :
    (d.announced num inst).f Reg.JASIA_LAST_NUMBER = num % 2 ^ 32 := by
  unfold Dev.announced
  dsimp only
  refine Dev.enterBarrier_last _ _ ?_
  rw [Dev.announce_f, Dev.f_setF_off _ _ (by decide) (by decide) (by decide)]
  exact Dev.later_of_requestResult h

theorem Dev.requestResult_lt (d : Dev) (num inst : Nat) : d.requestResult num inst < 8 := by
  unfold Dev.requestResult
  split
  · decide
  split
  · decide
  split
  · decide
  split
  · decide
  split <;> decide

theorem Dev.requestResult_taken (d : Dev) (src : Src) (w num inst : Nat) :
    (d.requestTaken src w).requestResult num inst = d.requestResult num inst := by
  unfold Dev.requestResult
  rw [d.f_requestTaken_off src w (by decide) (by decide) (by decide), d.f_requestTaken_off src w (by decide) (by decide) (by decide),
    d.f_requestTaken_off src w (by decide) (by decide) (by decide)]
  rfl

/-- What a request leaves behind. -/
structure Dev.Requested (d e : Dev) (num inst : Nat) : Prop where
  result : e.f Reg.JASIA_REQ_STAT_RESULT = d.requestResult num inst
  refused : d.requestResult num inst ≠ 1 → e.jasia = d.jasia
  entered : d.requestResult num inst = 1 →
    e.jasia.barriers = (⟨num, inst, d.now, d.f Reg.JASIA_STAT_EPOCH⟩ :: d.jasia.barriers).take 16 ∧
    e.f Reg.JASIA_LAST_NUMBER = num % 2 ^ 32 ∧
    e.jasia.rep = if d.f Reg.JASIA_CFG_REPEAT = 0 then none
      else some (d.jFrames 1 num inst d.now, d.f Reg.JASIA_CFG_REPEAT, d.now + 2000)

theorem Dev.barrierRequest_requested (d : Dev) (num inst : Nat) : Dev.Requested d (d.barrierRequest num inst) num inst := by
  have hres : (d.setF Reg.JASIA_REQ_STAT_RESULT (d.requestResult num inst)).f Reg.JASIA_REQ_STAT_RESULT = d.requestResult num inst :=
    (Dev.f_setF_same _ _ _).trans (Nat.mod_eq_of_lt (d.requestResult_lt num inst))
  by_cases h : d.requestResult num inst = 1
  · have hframes : (d.setF Reg.JASIA_REQ_STAT_RESULT (d.requestResult num inst)).jFrames 1 num inst d.now = d.jFrames 1 num inst d.now :=
      Dev.jFrames_of_fields (fun r hr => by
        have hoff : r.lo < 32 ∧ r.addr ≠ Reg.JASIA_REQ_STAT_at := by
          revert r
          decide
        exact Dev.f_setF_off _ _ (by decide) hoff.1 (fun hc => hoff.2 hc.1)) 1 num inst d.now
    have hrep : (d.announced num inst).f Reg.JASIA_CFG_REPEAT = d.f Reg.JASIA_CFG_REPEAT := by
      rw [d.f_announced_off _ _ (by decide) (by decide) (by decide), Dev.f_setF_off _ _ (by decide) (by decide) (by decide)]
    refine ⟨?_, fun hc => absurd h hc, fun _ => ?_⟩
    · rw [Dev.barrierRequest_taken h, Dev.f_modJasia, d.f_announced_off _ _ (by decide) (by decide) (by decide)]
      exact hres
    · rw [Dev.barrierRequest_taken h, hframes, hrep, d.announced_now, Dev.f_modJasia]
      exact ⟨congrArg Jasia.barriers (d.announced_jasia num inst), Dev.announced_last h, rfl⟩
  · rw [Dev.barrierRequest_refused h]
    exact ⟨hres, fun _ => rfl, fun hc => absurd hc h⟩

theorem Answers.of_barrierRequest {s : State} {src : Src} {w : Word} (hr : Reaches s src Reg.JASIA_REQ_INST_HI_at) {num inst : Nat}
    (hn : num = s.dev.f Reg.JASIA_REQ_NUM_VALUE)
    (hi : inst = (s.dev.heldFor src Reg.JASIA_REQ_INST_LO_at).getD (s.dev.f Reg.JASIA_REQ_INST_LO_VALUE) + 2 ^ 32 * w.toNat) :
    Answers (.barrierRequest src w) s (fun t => Dev.Requested s.dev t.dev num inst) := by
  subst hi hn
  have hexec : exec (.barrierRequest src w) s = s.done (((s.dev.answer 0).requestTaken src w.toNat).barrierRequest
      (((s.dev.answer 0).requestTaken src w.toNat).f Reg.JASIA_REQ_NUM_VALUE)
      ((s.dev.heldFor src Reg.JASIA_REQ_INST_LO_at).getD (s.dev.f Reg.JASIA_REQ_INST_LO_VALUE) + 2 ^ 32 * w.toNat)) :=
    congrArg s.done (Dev.onWrite_unguarded hr.2 _)
  have hoff : ∀ {r : RF}, r.lo < 32 → r.addr ≠ Reg.JASIA_REQ_INST_LO_at → r.addr ≠ Reg.JASIA_REQ_INST_HI_at →
      ((s.dev.answer 0).requestTaken src w.toNat).f r = s.dev.f r := fun hl h h' => (s.dev.answer 0).f_requestTaken_off src w.toNat hl h h'
  obtain ⟨hres, href, hent⟩ := ((s.dev.answer 0).requestTaken src w.toNat).barrierRequest_requested (s.dev.f Reg.JASIA_REQ_NUM_VALUE)
    ((s.dev.heldFor src Reg.JASIA_REQ_INST_LO_at).getD (s.dev.f Reg.JASIA_REQ_INST_LO_VALUE) + 2 ^ 32 * w.toNat)
  have hframes := Dev.jFrames_of_fields (d := s.dev) (e := (s.dev.answer 0).requestTaken src w.toNat) (fun r hr => by
    have hoff' : r.lo < 32 ∧ r.addr ≠ Reg.JASIA_REQ_INST_LO_at ∧ r.addr ≠ Reg.JASIA_REQ_INST_HI_at := by
      revert r
      decide
    exact hoff hoff'.1 hoff'.2.1 hoff'.2.2)
  rw [(s.dev.answer 0).requestResult_taken] at hres href hent
  rw [hoff (by decide) (by decide) (by decide), hoff (by decide) (by decide) (by decide), hframes] at hent
  rw [hoff (by decide) (by decide) (by decide)] at hexec
  refine .of_done hr.1 hexec ⟨?_, ?_, ?_⟩
  · exact hres
  · exact href
  · exact hent

/-! ### Repeats (R258) -/

theorem Answers.of_barrierRepeat {s : State} {fs : List (Fin 8 × List Byte)} {left next : Nat} (hl : Live s)
    (hrep : s.dev.jasia.rep = some (fs, left, next)) (ht : next ≤ s.dev.now) :
    Answers .barrierRepeat s (fun t => t.dev.jasia.barriers = s.dev.jasia.barriers ∧
      t.dev.jasia.rep = (if left ≤ 1 then none else some (fs, left - 1, next + 2000)) ∧
      ((fs.map (fun y => y.1)).Nodup → ∀ y ∈ fs, s.dev.removed y.1 = false →
        Dev.Queued s.dev t.dev y.1 (s.dev.queueOf 7) y.2)) := by
  have heq : s.dev.barrierRepeat = (s.dev.announce true fs).modJasia (Jasia.repeating (if left ≤ 1 then none else some (fs, left - 1, next + 2000))) := by
    unfold Dev.barrierRepeat
    rw [hrep]
    exact if_pos ht
  refine .of_done hl (congrArg s.done heq) ⟨?_, rfl, fun hn y hy hr => ?_⟩
  · exact (congrArg (fun j : Jasia => j.barriers) (Dev.announce_same true fs s.dev).1 : (s.dev.announce true fs).jasia.barriers = _)
  · exact Dev.announce_queued true fs hn hy s.dev hr

/-! ### Acceptance (R260) -/

section
variable {d : Dev} {p : Fin 6} {bs : List Byte} (ha : d.jActs p bs true 1 = true) (he : jEpoch bs = d.f Reg.JASIA_STAT_EPOCH)
  (hw : d.wins (jEpoch bs) (jMaster bs) = false)
include ha he hw

theorem Dev.barrierAccept_known {b : Barrier} (hb : d.jasia.barriers.find? (fun b => b.num == jNumber bs) = some b) :
    d.barrierAccept p bs true = if b.inst = jInstant bs then (d.jasiaCnt 0).jasiaCnt 1 else ((d.jasiaCnt 0).jasiaCnt 2).jasiaEvt Reg.JASIA_EVT_CONFLICT := by
  have hadopt : d.adopt (jEpoch bs) (jMaster bs) = d := if_neg (by rw [hw]; exact Bool.false_ne_true)
  have hfind : (d.jasiaCnt 0).jasia.barriers.find? (fun b => b.num == jNumber bs) = some b := hb
  unfold Dev.barrierAccept
  rw [if_neg (by rw [ha]; decide)]
  dsimp only
  rw [hadopt, if_neg (fun hc => hc he), hfind]

theorem Dev.barrierAccept_new (hb : d.jasia.barriers.find? (fun b => b.num == jNumber bs) = none) :
    d.barrierAccept p bs true = (((d.jasiaCnt 0).enterBarrier (jNumber bs) (jInstant bs)).jasiaCnt 3).jasiaEvt Reg.JASIA_EVT_LATE_BAR ∨
      d.barrierAccept p bs true = (d.jasiaCnt 0).enterBarrier (jNumber bs) (jInstant bs) := by
  have hadopt : d.adopt (jEpoch bs) (jMaster bs) = d := if_neg (by rw [hw]; exact Bool.false_ne_true)
  have hfind : (d.jasiaCnt 0).jasia.barriers.find? (fun b => b.num == jNumber bs) = none := hb
  unfold Dev.barrierAccept
  rw [if_neg (by rw [ha]; decide)]
  dsimp only
  rw [hadopt, if_neg (fun hc => hc he), hfind]
  exact ite_eq_or_eq _ _ _

end

theorem Dev.jasiaCnt_jasia (d : Dev) (j : Nat) : (d.jasiaCnt j).jasia = d.jasia := rfl

theorem Dev.jasiaEvt_jasia (d : Dev) (e : RF) : (d.jasiaEvt e).jasia = d.jasia := (d.jasiaEvt_reports e).jasia

/-- A counter one further; the other counters and the events keep it. -/
theorem Dev.jasiaCnt_count (d : Dev) (j : Nat) : (d.jasiaCnt j).f (Reg.JASIA_CNT_COUNT j) = min (2 ^ 32 - 1) (d.f (Reg.JASIA_CNT_COUNT j) + 1) :=
  Dev.f_bump_same _ _ _

theorem Dev.jasiaCnt_count_ne (d : Dev) {i j : Nat} (h : i ≠ j) : (d.jasiaCnt j).f (Reg.JASIA_CNT_COUNT i) = d.f (Reg.JASIA_CNT_COUNT i) :=
  Dev.f_bump_off _ _ (Nat.le_of_ble_eq_true rfl) (Nat.le_of_ble_eq_true rfl) (by simp only [Reg.JASIA_CNT_COUNT, Reg.JASIA_CNT_at]; omega)

theorem Answers.of_barrierNew {s : State} {p : Fin 6} {bs : List Byte} (hl : Live s) (ha : s.dev.jActs p bs true 1 = true)
    (he : jEpoch bs = s.dev.f Reg.JASIA_STAT_EPOCH) (hw : s.dev.wins (jEpoch bs) (jMaster bs) = false)
    (hb : ∀ b ∈ s.dev.jasia.barriers, b.num ≠ jNumber bs) :
    Answers (.barrierAccept p bs true) s (fun t =>
      t.dev.jasia.barriers = (⟨jNumber bs, jInstant bs, s.dev.now, jEpoch bs⟩ :: s.dev.jasia.barriers).take 16) := by
  have hfind : s.dev.jasia.barriers.find? (fun b => b.num == jNumber bs) = none :=
    List.find?_eq_none.mpr fun b hm => by rw [beq_iff_eq]; exact hb b hm
  have hentered : ((s.dev.jasiaCnt 0).enterBarrier (jNumber bs) (jInstant bs)).jasia.barriers =
      (⟨jNumber bs, jInstant bs, s.dev.now, jEpoch bs⟩ :: s.dev.jasia.barriers).take 16 := by
    have hepoch : (s.dev.jasiaCnt 0).f Reg.JASIA_STAT_EPOCH = jEpoch bs := (Dev.f_bump_off _ _ (by decide) (by decide) (by decide)).trans he.symm
    rw [Dev.enterBarrier_jasia, hepoch]
    rfl
  obtain heq | heq := Dev.barrierAccept_new ha he hw hfind
  · refine .of_done hl (congrArg s.done heq) ?_
    rw [State.commit_jasia, Dev.jasiaEvt_jasia, Dev.jasiaCnt_jasia]
    exact hentered
  · exact .of_done hl (congrArg s.done heq) hentered

theorem Answers.of_barrierCopy {s : State} {p : Fin 6} {bs : List Byte} (hl : Live s) (ha : s.dev.jActs p bs true 1 = true)
    (he : jEpoch bs = s.dev.f Reg.JASIA_STAT_EPOCH) (hw : s.dev.wins (jEpoch bs) (jMaster bs) = false) {b : Barrier}
    (hb : s.dev.jasia.barriers.find? (fun b => b.num == jNumber bs) = some b) :
    Answers (.barrierAccept p bs true) s (fun t => t.dev.jasia = s.dev.jasia ∧
      (b.inst = jInstant bs → t.dev.f (Reg.JASIA_CNT_COUNT 1) = min (2 ^ 32 - 1) (s.dev.f (Reg.JASIA_CNT_COUNT 1) + 1)) ∧
      (b.inst ≠ jInstant bs → t.dev.f (Reg.JASIA_CNT_COUNT 2) = min (2 ^ 32 - 1) (s.dev.f (Reg.JASIA_CNT_COUNT 2) + 1) ∧
        t.dev.tb Reg.JASIA_EVT_CONFLICT 0 = true)) := by
  refine .of_done hl (congrArg s.done (Dev.barrierAccept_known ha he hw hb)) ?_
  rw [State.commit_jasia, State.commit_f, State.commit_f, State.commit_tb]
  by_cases hi : b.inst = jInstant bs
  · rw [if_pos hi]
    refine ⟨rfl, fun _ => ?_, fun hc => absurd hi hc⟩
    rw [Dev.jasiaCnt_count, Dev.jasiaCnt_count_ne _ (by decide)]
  · rw [if_neg hi]
    refine ⟨Dev.jasiaEvt_jasia _ _, fun hc => absurd hc hi, fun _ => ⟨?_, Dev.tb_jasiaEvt _ rfl (by decide) (by decide)⟩⟩
    rw [Dev.f_jasiaEvt_off _ rfl (by decide) (by decide) (by decide) (by decide), Dev.jasiaCnt_count, Dev.jasiaCnt_count_ne _ (by decide)]

/-! ### Forwarding (R259) -/

/-- A frame that finds room and may go leaves a copy in the output's queue. -/
theorem Dev.copyTo_queued {d : Dev} {o : Fin 8} {f : SwFrame} {multi : Bool} (hr : d.removed o = false) (hroom : d.room o f = true)
    (hgo : (multi || f.barrier || !((d.port f.inp).stage.any (fun g => g.2.pcp == f.pcp))) = true) :
    ((d.copyTo o f multi).port o).queues[f.q] = (d.port o).queues[f.q] ++ [{ f with id := d.sw.nextId + 1 }] := by
  have heq : d.copyTo o f multi = d.intoQueue o f := by
    unfold Dev.copyTo
    dsimp only
    rw [if_neg (by rw [hr]; exact Bool.false_ne_true), if_pos (by rw [hroom, hgo]; rfl)]
  rw [heq]
  have hone : ((d.modSw (fun s => { s with nextId := d.sw.nextId + 1 })).modPort o (fun p =>
      { p with queues := put p.queues f.q (p.queues[f.q] ++ [{ f with id := d.sw.nextId + 1 }]) })).port o =
      { d.port o with queues := put (d.port o).queues f.q ((d.port o).queues[f.q] ++ [{ f with id := d.sw.nextId + 1 }]) } :=
    Dev.port_modPort_same _ _ _
  have hxfer : ∀ (e : Dev) (x : SwXfer), ((e.modPort f.inp (fun p => { p with xfer := p.xfer ++ [x] })).port o).queues = (e.port o).queues := fun e x => by
    by_cases h : o = f.inp
    · rw [h, Dev.port_modPort_same]
    · rw [Dev.port_modPort_ne _ h]
  unfold Dev.intoQueue
  dsimp only
  rw [hxfer, hone]
  exact getElem_put_same _ _ _

section
variable {s : State} {p : Fin 2} {bs : List Byte} (hl : Live s) (hj : s.dev.isJasia ⟨p.1, by omega⟩ bs = true)
  (hr : s.dev.removed (p8 p.1) = false)
include hl hj hr

/-- A frame at the hop limit is counted and not sent. -/
theorem Answers.of_hopLimit (hmax : s.dev.f Reg.JASIA_HOPMAX_MAX ≤ jHop bs) :
    Answers (.jasiaForward ⟨p.1, by omega⟩ bs true) s (fun t => t.dev.sw = s.dev.sw ∧
      t.dev.f (Reg.JASIA_CNT_COUNT 5) = min (2 ^ 32 - 1) (s.dev.f (Reg.JASIA_CNT_COUNT 5) + 1)) := by
  have heq : s.dev.jasiaForward ⟨p.1, by omega⟩ bs true = s.dev.jasiaCnt 5 := by
    unfold Dev.jasiaForward
    dsimp only
    rw [hj, hr, if_neg (by decide), if_pos hmax]
  refine .of_done hl (congrArg s.done heq) ⟨rfl, ?_⟩
  rw [State.commit_f]
  exact s.dev.jasiaCnt_count 5

end

/-- The copy of a good frame for the other port. -/
def Dev.forwardFrame (d : Dev) (p : Fin 2) (bs : List Byte) : SwFrame :=
  let out := splice bs 18 (leBytes 2 (jHop bs + 1))
  { inp := p8 p.1, vid := 0, pcp := 7, q := d.queueOf 7, cells := cellsOf (out.length + 4),
    cut := d.barrierClass bs && !d.jasia.lateFwd, bad := false, barrier := d.barrierClass bs, bytes := out }

/-- A splice that starts beyond a byte leaves it. -/
theorem splice_take {bs : List Byte} {o n : Nat} (new : List Byte) (h : n ≤ o) (ho : o ≤ bs.length) : (splice bs o new).take n = bs.take n := by
  unfold splice
  rw [List.append_assoc, List.take_append_of_le_length (by rw [List.length_take]; omega), List.take_take, Nat.min_eq_left h]

theorem leAt_splice {bs : List Byte} {o i n : Nat} (new : List Byte) (h : i + n ≤ o) (ho : o ≤ bs.length) :
    leAt (splice bs o new) i n = leAt bs i n := by
  unfold leAt
  rw [List.take_drop, List.take_drop, splice_take new h ho]

/-- The hop count of a frame is outside what makes it barrier-class. -/
theorem Dev.barrierClass_hop (d : Dev) {bs : List Byte} (new : List Byte) (h : 18 ≤ bs.length) :
    d.barrierClass (splice bs 18 new) = d.barrierClass bs := by
  unfold Dev.barrierClass jKind
  rw [leAt_splice new (by decide) h, leAt_splice new (by decide) h]

theorem Dev.jCopy_eq (d : Dev) (p : Fin 2) {bs : List Byte} (h : 18 ≤ bs.length) (o : Fin 8) :
    d.jCopy ⟨p.1, by omega⟩ bs true o false = d.copyTo o (d.forwardFrame p bs)
      (!d.barrierClass bs && (beAt (splice bs 18 (leBytes 2 (jHop bs + 1))) 0 1).testBit 0) := by
  unfold Dev.jCopy
  dsimp only
  rw [Bool.not_true, Bool.and_false, if_neg Bool.false_ne_true, if_neg Bool.false_ne_true, d.barrierClass_hop _ h]
  rfl

theorem Answers.of_jasiaForward {s : State} {p : Fin 2} {bs : List Byte} (hl : Live s) (hj : s.dev.isJasia ⟨p.1, by omega⟩ bs = true)
    (hr : s.dev.removed (p8 p.1) = false) (hbr : s.dev.branches = []) (hmax : jHop bs < s.dev.f Reg.JASIA_HOPMAX_MAX)
    (hend : s.dev.jEnds bs = false) (hlen : s.dev.badLength bs = false) (hro : s.dev.removed (p8 (1 - p.1)) = false)
    (hstage : (s.dev.port (p8 p.1)).stage = []) (hroom : s.dev.room (p8 (1 - p.1)) (s.dev.forwardFrame p bs) = true) :
    Answers (.jasiaForward ⟨p.1, by omega⟩ bs true) s (fun t =>
      ∃ f, (t.dev.port (p8 (1 - p.1))).queues[s.dev.queueOf 7] = (s.dev.port (p8 (1 - p.1))).queues[s.dev.queueOf 7] ++ [f] ∧
        f.bytes = splice bs 18 (leBytes 2 (jHop bs + 1)) ∧ f.barrier = s.dev.barrierClass bs) := by
  have hlong : 18 ≤ bs.length := by
    unfold Dev.badLength at hlen
    simp only [Bool.or_eq_false_iff, decide_eq_false_iff_not] at hlen
    omega
  have hcopy := Dev.copyTo_queued (f := s.dev.forwardFrame p bs)
    (multi := !s.dev.barrierClass bs && (beAt (splice bs 18 (leBytes 2 (jHop bs + 1))) 0 1).testBit 0) hro hroom
    (by rw [show (s.dev.port (s.dev.forwardFrame p bs).inp).stage = [] from hstage]; exact Bool.or_true _)
  rw [← s.dev.jCopy_eq p hlong] at hcopy
  have heq : s.dev.jasiaForward ⟨p.1, by omega⟩ bs true = if s.dev.barrierClass bs then
      (s.dev.jCopy ⟨p.1, by omega⟩ bs true (p8 (1 - p.1)) false).modJasia (fun j => { j with lateFwd := false })
      else s.dev.jCopy ⟨p.1, by omega⟩ bs true (p8 (1 - p.1)) false := by
    unfold Dev.jasiaForward
    dsimp only
    rw [hj, hr, if_neg (by decide), if_neg (Nat.not_le.mpr hmax), hend, if_neg Bool.false_ne_true, if_pos p.2, hbr, hlen]
    rfl
  refine .of_done hl (congrArg s.done heq) 
    ⟨{ s.dev.forwardFrame p bs with id := s.dev.sw.nextId + 1 }, ?_, rfl, rfl⟩
  rw [State.commit_port]
  split <;> exact hcopy

/-- Settles O33, command by command. -/
theorem barriersSpread : Obligations.BarriersSpread := by
  unfold Obligations.BarriersSpread
  refine ⟨fun s src w hr => ?_, fun s fs left next => .of_barrierRepeat,
    fun s p bs hl ha he hw => ⟨.of_barrierNew hl ha he hw, fun b => .of_barrierCopy hl ha he hw⟩,
    fun s p bs hl => fun hj hr hbr => ⟨.of_hopLimit hl hj hr, .of_jasiaForward hl hj hr hbr⟩⟩
  obtain ⟨t, hstep, hpend, hres, href, hent⟩ := Answers.of_barrierRequest hr rfl rfl
  exact ⟨t, hstep, hpend, hres, href, hent⟩

end Sys2Proof.Machine
end

section
/-!
PROOF. The switch's MAC and VLAN tables and the registers that read and write them (R234, R236).
-/

namespace Sys2Proof.Machine
open Sys2Proof

/-! ### The tables -/

/-- Entries removed by a test that the entry at `i` fails are not the entry at `i`. -/
theorem Dev.macAt_macDrop_ne (d : Dev) {i j : Nat} (h : j ≠ i) : (d.macDrop (fun e => e.idx == i)).macAt j = d.macAt j := by
  refine (List.find?_filter ..).trans (congrArg (fun p => d.sw.mac.find? p) (funext fun e => ?_))
  by_cases he : e.idx = j
  · simp [he, h]
  · simp [he]

theorem Dev.macAt_macDrop_same (d : Dev) (i : Nat) : (d.macDrop (fun e => e.idx == i)).macAt i = none := by
  refine List.find?_eq_none.mpr fun e he => ?_
  have h := (List.mem_filter.mp he).2
  exact fun hc => absurd hc (by simpa using h)

theorem Dev.macAt_macPut_same (d : Dev) (e : MacEntry) : (d.macPut e).macAt e.idx = some e := by
  refine List.find?_cons_of_pos ?_
  exact beq_self_eq_true _

theorem Dev.macAt_macPut_ne (d : Dev) (e : MacEntry) {j : Nat} (h : j ≠ e.idx) : (d.macPut e).macAt j = d.macAt j := by
  refine (List.find?_cons_of_neg (by rw [beq_iff_eq]; exact Ne.symm h)).trans ((List.find?_filter ..).trans
    (congrArg (fun p => d.sw.mac.find? p) (funext fun x => ?_)))
  by_cases hx : x.idx = j
  · simp [hx, h]
  · simp [hx]

theorem Dev.macAt_of_sw {d e : Dev} (h : e.sw = d.sw) (i : Nat) : e.macAt i = d.macAt i := 
  congrArg (fun s : Switch => s.mac.find? (fun x : MacEntry => x.idx == i)) h

theorem State.commit_macAt (s : State) (d : Dev) (i : Nat) : (s.commit d).dev.macAt i = d.macAt i := rfl

theorem State.commit_vlan (s : State) (d : Dev) (i : Nat) : (s.commit d).dev.vlan i = d.vlan i := rfl

/-- An entry takes its VID's place in the VLAN table. -/
def Dev.vlanPut (d : Dev) (e : Vlan) : Dev := d.modSw (fun w => { w with vlans := e :: w.vlans.filter (fun x => x.vid != e.vid) })

theorem Dev.vlan_vlanPut_same (d : Dev) (e : Vlan) : (d.vlanPut e).vlan e.vid = e := by
  have h : (d.vlanPut e).sw.vlans.find? (fun x => x.vid == e.vid) = some e := List.find?_cons_of_pos (beq_self_eq_true _)
  unfold Dev.vlan
  rw [h]
  rfl

theorem Dev.vlan_vlanPut_ne (d : Dev) (e : Vlan) {x : Nat} (hx : x ≠ e.vid) : (d.vlanPut e).vlan x = d.vlan x := by
  have h : (d.vlanPut e).sw.vlans.find? (fun y => y.vid == x) = d.sw.vlans.find? (fun y => y.vid == x) := by
    refine (List.find?_cons_of_neg (by rw [beq_iff_eq]; exact Ne.symm hx)).trans ((List.find?_filter ..).trans
      (congrArg (fun p => d.sw.vlans.find? p) (funext fun y => ?_)))
    by_cases hy : y.vid = x
    · simp [hy, hx]
    · simp [hy]
  unfold Dev.vlan
  rw [h]

/-! ### Commands on the MAC table (R236) -/

/-- A write of SW_MAC_CMD takes INDEX and acts. -/
theorem Dev.macCmd_acts {d : Dev} {src : Src} {w op : Nat} (hop : bits w 0 3 = op) (hg : (d.guard src Reg.SW_MAC_CMD_at true).isNone = true)
    (act : Dev → Dev) : d.macCmd src w op act = act ((d.answer 0).setF Reg.SW_MAC_CMD_INDEX (bits w 16 13)) :=
  (if_pos hop).trans (Dev.onWrite_unguarded hg _)

/-- INDEX is taken, the data registers and the switch stay. -/
theorem Dev.macTaken_shows (d : Dev) (i w : Nat) :
    let e := (d.answer 0).setF Reg.SW_MAC_CMD_INDEX (bits w 16 13)
    e.f Reg.SW_MAC_CMD_INDEX = bits w 16 13 ∧ e.sw = d.sw ∧ e.now = d.now ∧ e.macAddr = d.macAddr ∧ e.f Reg.SW_MAC_D1_VID = d.f Reg.SW_MAC_D1_VID ∧
    e.f Reg.SW_MAC_D2_PORTS = d.f Reg.SW_MAC_D2_PORTS ∧ e.bit Reg.SW_MAC_D2_VALID = d.bit Reg.SW_MAC_D2_VALID ∧
    e.bit Reg.SW_MAC_D2_STATIC = d.bit Reg.SW_MAC_D2_STATIC := by
  have hoff : ∀ {r : RF}, r.lo < 32 → r.addr ≠ Reg.SW_MAC_CMD_at → ((d.answer 0).setF Reg.SW_MAC_CMD_INDEX (bits w 16 13)).f r = d.f r :=
    fun hl h => Dev.f_setF_off _ _ (by decide) hl (fun hc => h hc.1)
  refine ⟨?_, rfl, rfl, ?_, hoff (by decide) (by decide), hoff (by decide) (by decide), Dev.bit_of_f (hoff (by decide) (by decide)),
    Dev.bit_of_f (hoff (by decide) (by decide))⟩
  · exact (Dev.f_setF_same _ _ _).trans (bits_mod w 16 13)
  · unfold Dev.macAddr
    rw [hoff (by decide) (by decide), hoff (by decide) (by decide)]

/-- What the data registers show of an entry. -/
theorem Dev.macShow_shows (d : Dev) (e : Option MacEntry) : (d.macShow e).sw = d.sw ∧ (d.macShow e).bit Reg.SW_MAC_D2_VALID = e.isSome ∧
    ∀ x, e = some x → (d.macShow e).f Reg.SW_MAC_D0_ADDR_LO = x.addr % 2 ^ 32 ∧
      (d.macShow e).f Reg.SW_MAC_D2_PORTS = x.ports % 2 ^ Reg.SW_MAC_D2_PORTS.w ∧ (d.macShow e).bit Reg.SW_MAC_D2_STATIC = x.static := by
  refine ⟨rfl, ?_, ?_⟩
  · simp (disch := decide) only [Dev.macShow, Dev.bit, Dev.f_setB_off, Dev.f_setB_same, ite_one_zero_beq_one]
  · rintro x rfl
    simp (disch := decide) only [Dev.macShow, Dev.bit, Dev.f_setB_off, Dev.f_setB_same, Dev.f_setF_off, Dev.f_setF_same, ite_one_zero_beq_one,
      Option.getD_some]
    exact ⟨rfl, trivial, trivial⟩

section
variable {s : State} {src : Src} {w : Word} (hr : Reaches s src Reg.SW_MAC_CMD_at)
include hr

theorem Answers.of_macRead (hop : bits w.toNat 0 3 = 1) : Answers (.macRead src w) s (fun t => t.dev.sw = s.dev.sw ∧
    match s.dev.macAt (bits w.toNat 16 13) with
    | some e => t.dev.bit Reg.SW_MAC_D2_VALID = true ∧ t.dev.f Reg.SW_MAC_D0_ADDR_LO = e.addr % 2 ^ 32 ∧
        t.dev.f Reg.SW_MAC_D2_PORTS = e.ports % 2 ^ Reg.SW_MAC_D2_PORTS.w ∧ t.dev.bit Reg.SW_MAC_D2_STATIC = e.static
    | none => t.dev.bit Reg.SW_MAC_D2_VALID = false) := by
  obtain ⟨hidx, hsw, -⟩ := s.dev.macTaken_shows 0 w.toNat
  refine .of_done hr.1 (congrArg s.done (Dev.macCmd_acts hop hr.2 _)) ?_
  rw [hidx, Dev.macAt_of_sw hsw]
  obtain ⟨hsw', hvalid, hdata⟩ := ((s.dev.answer 0).setF Reg.SW_MAC_CMD_INDEX (bits w.toNat 16 13)).macShow_shows (s.dev.macAt (bits w.toNat 16 13))
  refine ⟨hsw'.trans hsw, ?_⟩
  cases he : s.dev.macAt (bits w.toNat 16 13) with
  | some e =>
    rw [he] at hvalid hdata
    exact ⟨hvalid, hdata e rfl⟩
  | none =>
    rw [he] at hvalid
    exact hvalid

theorem Answers.of_macWrite (hop : bits w.toNat 0 3 = 2) : Answers (.macWrite src w) s (fun t =>
    if s.dev.bit Reg.SW_MAC_D2_VALID then
      t.dev.macAt (bits w.toNat 16 13) = some ⟨bits w.toNat 16 13, s.dev.macAddr, s.dev.f Reg.SW_MAC_D1_VID, s.dev.f Reg.SW_MAC_D2_PORTS,
        s.dev.bit Reg.SW_MAC_D2_STATIC, s.dev.now, true⟩ ∧ ∀ j, j ≠ bits w.toNat 16 13 → t.dev.macAt j = s.dev.macAt j
    else t.dev.macAt (bits w.toNat 16 13) = none ∧ ∀ j, j ≠ bits w.toNat 16 13 → t.dev.macAt j = s.dev.macAt j) := by
  obtain ⟨hidx, hsw, hnow, haddr, hvid, hports, hvalid, hstatic⟩ := s.dev.macTaken_shows 0 w.toNat
  refine .of_done hr.1 (congrArg s.done (Dev.macCmd_acts hop hr.2 _)) ?_
  dsimp only
  rw [hidx, hnow, haddr, hvid, hports, hvalid, hstatic]
  split
  · refine ⟨?_, fun j hj => ?_⟩ <;> rw [State.commit_macAt]
    · exact Dev.macAt_macPut_same _ _
    · exact (Dev.macAt_macPut_ne _ _ hj).trans (Dev.macAt_of_sw hsw j)
  · refine ⟨?_, fun j hj => ?_⟩ <;> rw [State.commit_macAt]
    · exact Dev.macAt_macDrop_same _ _
    · exact (Dev.macAt_macDrop_ne _ hj).trans (Dev.macAt_of_sw hsw j)

theorem Answers.of_macLookup (hop : bits w.toNat 0 3 = 3) : Answers (.macLookup src w) s (fun t => t.dev.sw = s.dev.sw ∧
    match s.dev.macFind s.dev.macAddr (s.dev.f Reg.SW_MAC_D1_VID) with
    | some e => t.dev.bit Reg.SW_MAC_CMD_MISS = false ∧ t.dev.f Reg.SW_MAC_CMD_INDEX = e.idx % 2 ^ Reg.SW_MAC_CMD_INDEX.w
    | none => t.dev.bit Reg.SW_MAC_CMD_MISS = true) := by
  obtain ⟨-, -, -, haddr, hvid, -⟩ := s.dev.macTaken_shows 0 w.toNat
  have hfind : ((s.dev.answer 0).setF Reg.SW_MAC_CMD_INDEX (bits w.toNat 16 13)).macFind s.dev.macAddr (s.dev.f Reg.SW_MAC_D1_VID) =
      s.dev.macFind s.dev.macAddr (s.dev.f Reg.SW_MAC_D1_VID) := rfl
  refine .of_done hr.1 (congrArg s.done (Dev.macCmd_acts hop hr.2 _)) ?_
  rw [haddr, hvid, hfind]
  cases s.dev.macFind s.dev.macAddr (s.dev.f Reg.SW_MAC_D1_VID) with
  | some e =>
    refine ⟨rfl, ?_⟩
    rw [State.commit_bit, State.commit_f, Dev.f_setF_off _ _ (by decide) (by decide) (by decide)]
    exact ⟨Dev.bit_setF_zero _ _, Dev.f_setF_same _ _ _⟩
  | none =>
    refine ⟨rfl, ?_⟩
    rw [State.commit_bit]
    exact congrArg (· == 1) (Dev.f_setF_same _ _ _)

theorem Answers.of_macFlushPort (hop : bits w.toNat 0 3 = 4) : Answers (.macFlushPort src w) s (fun t =>
    t.dev.sw.mac = s.dev.sw.mac.filter (fun e => e.static || !e.ports.testBit (bits w.toNat 8 3))) := by
  refine .of_done hr.1 (congrArg s.done (Dev.macCmd_acts hop hr.2 _)) ?_
  rw [State.commit_sw]
  refine congrArg (fun p => s.dev.sw.mac.filter p) (funext fun e => ?_)
  rw [Bool.not_and, Bool.not_not]

theorem Answers.of_macFlushAll (hop : bits w.toNat 0 3 = 5) : Answers (.macFlushAll src w) s (fun t =>
    t.dev.sw.mac = s.dev.sw.mac.filter (fun e => e.static)) := by
  refine .of_done hr.1 (congrArg s.done (Dev.macCmd_acts hop hr.2 _)) ?_
  rw [State.commit_sw]
  exact congrArg (fun p => s.dev.sw.mac.filter p) (funext fun e => Bool.not_not _)

end

theorem Answers.of_ageOut {s : State} {i : Nat} {e : MacEntry} (hl : Live s) (he : s.dev.macAt i = some e) (hst : e.static = false)
    (hage : s.dev.f Reg.SW_CTL_AGE ≠ 0) (ht : e.since + 400000000 * s.dev.f Reg.SW_CTL_AGE ≤ s.dev.now) :
    Answers (.ageOut i) s (fun t => t.dev.macAt i = none ∧ ∀ j, j ≠ i → t.dev.macAt j = s.dev.macAt j) := by
  have heq : s.dev.ageOut i = s.dev.macDrop (fun x => x.idx == i) := by
    unfold Dev.ageOut
    rw [he]
    refine if_neg (fun hc => ?_)
    rw [hst] at hc
    exact hc.elim (fun h => absurd h (by decide)) (fun h => h.elim hage (fun hlt => absurd hlt (Nat.not_lt.mpr ht)))
  refine .of_done hl (congrArg s.done heq) ⟨?_, fun j hj => ?_⟩ <;> rw [State.commit_macAt]
  · exact Dev.macAt_macDrop_same _ _
  · exact Dev.macAt_macDrop_ne _ hj

/-! ### Commands on the VLAN table (R234) -/

/-- A write of SW_VLAN_CMD with GO takes WR and VID and acts. -/
theorem Dev.vlanCmd_acts {d : Dev} {src : Src} {w : Nat} {wr : Bool} (hgo : w.testBit 17 = true) (hwr : w.testBit 16 = wr)
    (h0 : bits w 0 12 ≠ 0) (h1 : bits w 0 12 ≠ 4095) (hg : (d.guard src Reg.SW_VLAN_CMD_at true).isNone = true) (act : Dev → Nat → Dev) :
    d.vlanCmd src w wr act = act (((d.answer 0).setB Reg.SW_VLAN_CMD_WR wr).setF Reg.SW_VLAN_CMD_VID (bits w 0 12)) (bits w 0 12) :=
  (if_pos ⟨hgo, hwr⟩).trans ((Dev.onWrite_unguarded hg _).trans (if_neg (not_or.mpr ⟨h0, h1⟩)))

section
variable {s : State} {src : Src} {w : Word} (hr : Reaches s src Reg.SW_VLAN_CMD_at) (hgo : w.toNat.testBit 17 = true)
  (h0 : bits w.toNat 0 12 ≠ 0) (h1 : bits w.toNat 0 12 ≠ 4095)
include hr hgo h0 h1

theorem Answers.of_vlanRead (hwr : w.toNat.testBit 16 = false) : Answers (.vlanRead src w) s (fun t => t.dev.sw = s.dev.sw ∧
    t.dev.f Reg.SW_VLAN_DATA_MEMBER = (s.dev.vlan (bits w.toNat 0 12)).member % 2 ^ Reg.SW_VLAN_DATA_MEMBER.w ∧
    t.dev.f Reg.SW_VLAN_DATA_UNTAG = (s.dev.vlan (bits w.toNat 0 12)).untag % 2 ^ Reg.SW_VLAN_DATA_UNTAG.w ∧
    t.dev.bit Reg.SW_VLAN_DATA_LEARN = (s.dev.vlan (bits w.toNat 0 12)).learn) := by
  refine .of_done hr.1 (congrArg s.done (Dev.vlanCmd_acts hgo hwr h0 h1 hr.2 _)) ⟨rfl, ?_⟩
  rw [State.commit_f, State.commit_f, State.commit_bit]
  simp (disch := decide) only [Dev.bit, Dev.f_setB_off, Dev.f_setB_same, Dev.f_setF_off, Dev.f_setF_same, ite_one_zero_beq_one]
  exact ⟨rfl, rfl, rfl⟩

theorem Answers.of_vlanWrite (hwr : w.toNat.testBit 16 = true) : Answers (.vlanWrite src w) s (fun t =>
    t.dev.vlan (bits w.toNat 0 12) = ⟨bits w.toNat 0 12, s.dev.f Reg.SW_VLAN_DATA_MEMBER, s.dev.f Reg.SW_VLAN_DATA_UNTAG,
      s.dev.bit Reg.SW_VLAN_DATA_LEARN⟩ ∧ ∀ x, x ≠ bits w.toNat 0 12 → t.dev.vlan x = s.dev.vlan x) := by
  have hoff : ∀ {r : RF}, r.lo < 32 → r.addr ≠ Reg.SW_VLAN_CMD_at →
      (((s.dev.answer 0).setB Reg.SW_VLAN_CMD_WR true).setF Reg.SW_VLAN_CMD_VID (bits w.toNat 0 12)).f r = s.dev.f r := fun hl h =>
    (Dev.f_setF_off _ _ (by decide) hl (fun hc => h hc.1)).trans (Dev.f_setB_off _ _ (by decide) hl (fun hc => h hc.1))
  refine .of_done hr.1 (congrArg s.done (Dev.vlanCmd_acts hgo hwr h0 h1 hr.2 _)) ?_
  dsimp only
  rw [State.commit_vlan, hoff (by decide) (by decide), hoff (by decide) (by decide), Dev.bit_of_f (hoff (by decide) (by decide))]
  refine ⟨Dev.vlan_vlanPut_same _ _, fun x hx => ?_⟩
  rw [State.commit_vlan]
  exact Dev.vlan_vlanPut_ne _ _ hx

end

/-- Settles O32, command by command. -/
theorem switchTablesReadAndWrite : Obligations.SwitchTablesReadAndWrite := by
  unfold Obligations.SwitchTablesReadAndWrite
  exact ⟨fun s src w hr => ⟨.of_macRead hr, .of_macWrite hr, .of_macLookup hr, .of_macFlushPort hr, .of_macFlushAll hr⟩,
    fun s i e => .of_ageOut, fun s src w hr hgo h0 h1 => ⟨.of_vlanRead hr hgo h0 h1, .of_vlanWrite hr hgo h0 h1⟩⟩

end Sys2Proof.Machine
end

section
/-!
PROOF. Comparators and captures of the time base (R279-R281).
-/

namespace Sys2Proof.Machine
open Sys2Proof

/-- The registers of comparator `i`, written out. -/
theorem Reg.cmpFields (i : Nat) :
    Reg.TB_CMP_CTL_PIN i = ⟨0x20003100 + 0x10 * i, 3, 3, 0, false⟩ ∧ Reg.TB_CMP_CTL_ACTION i = ⟨0x20003100 + 0x10 * i, 0, 3, 0, false⟩ ∧
    Reg.TB_CMP_CTL_ARMED i = ⟨0x20003100 + 0x10 * i, 6, 1, 0, false⟩ ∧ Reg.TB_CMP_CTL_PAST i = ⟨0x20003100 + 0x10 * i, 7, 1, 0, false⟩ ∧
    Reg.TB_CMP_LO_VALUE i = ⟨0x20003104 + 0x10 * i, 0, 32, 0, false⟩ ∧ Reg.TB_CMP_HI_VALUE i = ⟨0x20003108 + 0x10 * i, 0, 32, 0, false⟩ ∧
    Reg.TB_CMP_PERIOD_VALUE i = ⟨0x2000310C + 0x10 * i, 0, 32, 0, false⟩ := by
  repeat' constructor

/-! ### Arming (R279) -/

/-- The device with comparator `i` armed for `t`. -/
def Dev.cmpArmed (d : Dev) (src : Src) (i : Fin 16) (t : Nat) : Dev :=
  let d := ((d.unhold src (Reg.TB_CMP_LO_at i.1)).setF64 (Reg.TB_CMP_LO_VALUE i.1) (Reg.TB_CMP_HI_VALUE i.1) t)
  let d := (d.setF (Reg.TB_CMP_CTL_ARMED i.1) 1).setF (Reg.TB_CMP_CTL_PAST i.1) 0
  d.setPtp { d.ptp with cmpAt := put d.ptp.cmpAt i t }

section
variable {s : State} {src : Src} {i : Fin 16} {w : Word} (hr : Reaches s src (Reg.TB_CMP_HI_at i.1)) {at_ : Nat}
  (hat : at_ = (s.dev.heldFor src (Reg.TB_CMP_LO_at i.1)).getD (s.dev.f (Reg.TB_CMP_LO_VALUE i.1)) + 2 ^ 32 * w.toNat)
include hr hat

theorem exec_comparatorArm : exec (.comparatorArm src i w) s = s.done (if s.dev.now + 8 ≤ at_ then (s.dev.answer 0).cmpArmed src i at_
    else ((s.dev.answer 0).unhold src (Reg.TB_CMP_LO_at i.1)).setF (Reg.TB_CMP_CTL_PAST i.1) 1) := by
  subst hat
  exact congrArg s.done (Dev.onWrite_unguarded hr.2 _)

theorem Answers.of_comparatorArm (ht : s.dev.now + 8 ≤ at_) : Answers (.comparatorArm src i w) s (fun t =>
    t.dev.bit (Reg.TB_CMP_CTL_ARMED i.1) = true ∧ t.dev.bit (Reg.TB_CMP_CTL_PAST i.1) = false ∧ t.dev.ptp.cmpAt[i] = at_) := by
  refine .of_done hr.1 ((exec_comparatorArm hr hat).trans (congrArg s.done (if_pos ht))) ?_
  rw [State.commit_bit, State.commit_bit]
  refine ⟨?_, ?_, getElem_put_same _ _ _⟩ <;> simp [Dev.cmpArmed, Dev.bit, Reg.cmpFields]

theorem Answers.of_comparatorArm_past (ht : at_ < s.dev.now + 8) : Answers (.comparatorArm src i w) s (fun t =>
    t.dev.bit (Reg.TB_CMP_CTL_ARMED i.1) = s.dev.bit (Reg.TB_CMP_CTL_ARMED i.1) ∧ t.dev.bit (Reg.TB_CMP_CTL_PAST i.1) = true ∧
      t.dev.ptp.cmpAt = s.dev.ptp.cmpAt) := by
  refine .of_done hr.1 ((exec_comparatorArm hr hat).trans (congrArg s.done (if_neg (Nat.not_le.mpr ht)))) ?_
  rw [State.commit_bit, State.commit_bit]
  refine ⟨?_, congrArg (· == 1) (Dev.f_setF_same _ _ _), rfl⟩
  exact Dev.bit_of_f (Dev.f_setF_off _ _ (Nat.le_of_ble_eq_true rfl) (Nat.le_of_ble_eq_true rfl) (by simp [Reg.cmpFields]))

end

/-! ### Firing (R279) -/

/-- The level a comparator's action gives its pin. -/
def Dev.cmpLevel (d : Dev) (i : Fin 16) (p : Fin 8) : Bool :=
  if d.f (Reg.TB_CMP_CTL_ACTION i.1) = 4 then !d.toutBefore p else d.f (Reg.TB_CMP_CTL_ACTION i.1) != 2

/-- The end of the pulse an action starts. -/
def Dev.cmpStop (d : Dev) (i : Fin 16) : Option Nat :=
  if d.f (Reg.TB_CMP_CTL_ACTION i.1) = 3 then some (d.now + d.f (Reg.TB_CMP_CTL_WIDTH i.1)) else none

/-- The device after the action of a comparator. -/
def Dev.cmpActed (d : Dev) (i : Fin 16) (p : Fin 8) : Dev :=
  d.setPtp { d.ptp with tout := setBit d.ptp.tout p.1 (d.cmpLevel i p), pulse := put d.ptp.pulse p (d.cmpStop i),
                        acted := put d.ptp.acted p (some (d.now, i.1, d.toutBefore p)) }

/-- An action applies unless a higher comparator has acted on the pin at this tick. -/
theorem Dev.cmpAct_eq {d : Dev} {i : Fin 16} (ha : 1 ≤ d.f (Reg.TB_CMP_CTL_ACTION i.1))
    (hfirst : ∀ y ∈ d.ptp.acted[p8 (d.f (Reg.TB_CMP_CTL_PIN i.1))], y.1 ≠ d.now ∨ y.2.1 ≤ i.1) :
    d.cmpAct i = d.cmpActed i (p8 (d.f (Reg.TB_CMP_CTL_PIN i.1))) := by
  have h0 : (d.f (Reg.TB_CMP_CTL_ACTION i.1) == 0) = false := beq_eq_false_iff_ne.mpr (Nat.one_le_iff_ne_zero.mp ha)
  unfold Dev.cmpAct
  dsimp only
  refine if_neg ?_
  rw [h0, Bool.false_or]
  split
  next t j l h =>
    rw [decide_eq_true_eq]
    exact fun hc => (hfirst _ (Option.mem_def.mpr h)).elim (fun hne => hne hc.1) (fun hle => absurd hc.2 (Nat.not_lt.mpr hle))
  next => exact Bool.false_ne_true

theorem Dev.f_cmpActed (d : Dev) (i : Fin 16) (p : Fin 8) (r : RF) : (d.cmpActed i p).f r = d.f r := rfl

/-- The comparator's action and its event. -/
def Dev.cmpFired (d : Dev) (i : Fin 16) : Dev := (d.cmpActed i (p8 (d.f (Reg.TB_CMP_CTL_PIN i.1)))).raise Reg.TB_TRIG_EVT_CMP (2 ^ i.1) 52

theorem Dev.f_cmpFired (d : Dev) (i : Fin 16) {r : RF} (hl : r.lo < 32) (h : r.addr < 0x20003300) : (d.cmpFired i).f r = d.f r := by
  unfold Dev.cmpFired
  rw [Dev.f_raise_off _ _ (by decide) hl (by decide) (by omega) (by simp only [Reg.TB_TRIG_EVT_CMP, Reg.TB_TRIG_EVT_at]; omega), Dev.f_cmpActed]

theorem Dev.cmpFired_ptp (d : Dev) (i : Fin 16) : (d.cmpFired i).ptp = (d.cmpActed i (p8 (d.f (Reg.TB_CMP_CTL_PIN i.1)))).ptp :=
  (Dev.raise_reports _ _ _ _).ptp

theorem Dev.cmpFired_now (d : Dev) (i : Fin 16) : (d.cmpFired i).now = d.now := (Dev.raise_reports _ _ _ _).now

theorem Dev.tb_cmpFired (d : Dev) (i : Fin 16) : (d.cmpFired i).tb Reg.TB_TRIG_EVT_CMP i.1 = true :=
  Dev.tb_raise _ _ (by decide) (by decide) (by decide) i.2 Nat.testBit_two_pow_self

theorem Dev.cmpFire_eq {d : Dev} {i : Fin 16} (harmed : d.bit (Reg.TB_CMP_CTL_ARMED i.1) = true) (ht : d.ptp.cmpAt[i] = d.now)
    (ha : 1 ≤ d.f (Reg.TB_CMP_CTL_ACTION i.1))
    (hfirst : ∀ y ∈ d.ptp.acted[p8 (d.f (Reg.TB_CMP_CTL_PIN i.1))], y.1 ≠ d.now ∨ y.2.1 ≤ i.1) :
    d.cmpFire i = if d.f (Reg.TB_CMP_PERIOD_VALUE i.1) = 0 then (d.cmpFired i).setF (Reg.TB_CMP_CTL_ARMED i.1) 0
      else (d.cmpFired i).setPtp { (d.cmpFired i).ptp with cmpAt := put (d.cmpFired i).ptp.cmpAt i (d.now + d.f (Reg.TB_CMP_PERIOD_VALUE i.1)) } := by
  unfold Dev.cmpFire
  rw [harmed, ht, beq_self_eq_true, Bool.and_true, if_pos rfl, Dev.cmpAct_eq ha hfirst]
  have hper : (d.cmpFired i).f (Reg.TB_CMP_PERIOD_VALUE i.1) = d.f (Reg.TB_CMP_PERIOD_VALUE i.1) :=
    d.f_cmpFired i (Nat.le_of_ble_eq_true rfl) (by simp only [Reg.cmpFields]; omega)
  rw [← hper, ← d.cmpFired_now i]
  rfl

theorem Answers.of_comparatorFire {s : State} {i : Fin 16} (hl : Live s) (harmed : s.dev.bit (Reg.TB_CMP_CTL_ARMED i.1) = true)
    (ht : s.dev.ptp.cmpAt[i] = s.dev.now) (ha : 1 ≤ s.dev.f (Reg.TB_CMP_CTL_ACTION i.1))
    (hfirst : ∀ y ∈ s.dev.ptp.acted[p8 (s.dev.f (Reg.TB_CMP_CTL_PIN i.1))], y.1 ≠ s.dev.now ∨ y.2.1 ≤ i.1) :
    Answers (.comparatorFire i) s (fun t =>
      t.dev.ptp.tout.testBit (p8 (s.dev.f (Reg.TB_CMP_CTL_PIN i.1))).1 = s.dev.cmpLevel i (p8 (s.dev.f (Reg.TB_CMP_CTL_PIN i.1))) ∧
      (∀ j : Fin 8, j ≠ p8 (s.dev.f (Reg.TB_CMP_CTL_PIN i.1)) → t.dev.ptp.tout.testBit j.1 = s.dev.ptp.tout.testBit j.1) ∧
      t.dev.ptp.pulse[p8 (s.dev.f (Reg.TB_CMP_CTL_PIN i.1))] = s.dev.cmpStop i ∧
      (s.dev.f (Reg.TB_CMP_PERIOD_VALUE i.1) = 0 → t.dev.bit (Reg.TB_CMP_CTL_ARMED i.1) = false) ∧
      (s.dev.f (Reg.TB_CMP_PERIOD_VALUE i.1) ≠ 0 → t.dev.ptp.cmpAt[i] = s.dev.now + s.dev.f (Reg.TB_CMP_PERIOD_VALUE i.1) ∧
        t.dev.bit (Reg.TB_CMP_CTL_ARMED i.1) = true) ∧
      t.dev.tb Reg.TB_TRIG_EVT_CMP i.1 = true) := by
  have hptp := s.dev.cmpFired_ptp i
  have htout : (s.dev.cmpFired i).ptp.tout.testBit (p8 (s.dev.f (Reg.TB_CMP_CTL_PIN i.1))).1 =
      s.dev.cmpLevel i (p8 (s.dev.f (Reg.TB_CMP_CTL_PIN i.1))) := by
    rw [hptp]
    exact (testBit_setBit _ _ _ _).trans (if_pos rfl)
  have hother : ∀ j : Fin 8, j ≠ p8 (s.dev.f (Reg.TB_CMP_CTL_PIN i.1)) →
      (s.dev.cmpFired i).ptp.tout.testBit j.1 = s.dev.ptp.tout.testBit j.1 := fun j hj => by
    rw [hptp]
    exact (testBit_setBit _ _ _ _).trans (if_neg (fun hc => hj (Fin.ext hc)))
  have hpulse : (s.dev.cmpFired i).ptp.pulse[p8 (s.dev.f (Reg.TB_CMP_CTL_PIN i.1))] = s.dev.cmpStop i := by
    rw [hptp]
    exact getElem_put_same _ _ _
  refine .of_done hl (congrArg s.done (Dev.cmpFire_eq harmed ht ha hfirst)) ?_
  rw [State.commit_ptp, State.commit_bit]
  split
  next hper =>
    refine ⟨htout, hother, hpulse, fun _ => Dev.bit_setF_zero _ _, fun hc => absurd hper hc, ?_⟩
    refine (Dev.tb_of_f ((State.commit_f _ _ _).trans (Dev.f_setF_off _ _ (Nat.le_of_ble_eq_true rfl) (by decide) ?_)) _).trans (s.dev.tb_cmpFired i)
    simp only [Reg.cmpFields, Reg.TB_TRIG_EVT_CMP, Reg.TB_TRIG_EVT_at]
    omega
  next hper =>
    refine ⟨htout, hother, hpulse, fun hc => absurd hc hper, fun _ => ⟨getElem_put_same _ _ _, ?_⟩, (Dev.tb_of_f (State.commit_f _ _ _) _).trans (s.dev.tb_cmpFired i)⟩
    exact (Dev.bit_of_f (s.dev.f_cmpFired i (Nat.le_of_ble_eq_true rfl) (by simp only [Reg.cmpFields]; omega))).trans harmed

theorem Answers.of_pulseEnd {s : State} {p : Fin 8} {e : Nat} (hl : Live s) (hp : s.dev.ptp.pulse[p] = some e) (ht : e ≤ s.dev.now) :
    Answers (.pulseEnd p) s (fun t => t.dev.ptp.tout.testBit p.1 = false ∧ t.dev.ptp.pulse[p] = none ∧
      ∀ j : Fin 8, j ≠ p → t.dev.ptp.tout.testBit j.1 = s.dev.ptp.tout.testBit j.1) := by
  have hexec : exec (.pulseEnd p) s = s.done (s.dev.setPtp { s.dev.ptp with
      tout := setBit s.dev.ptp.tout p.1 false, pulse := put s.dev.ptp.pulse p none }) := by
    refine congrArg s.done ?_
    dsimp only
    rw [hp]
    exact if_pos ht
  refine .of_done hl hexec ⟨?_, getElem_put_same _ _ _, fun j hj => ?_⟩
  · exact (testBit_setBit _ _ _ _).trans (if_pos rfl)
  · exact (testBit_setBit _ _ _ _).trans (if_neg (fun hc => hj (Fin.ext hc)))

/-! ### Captures (R280) -/

section
variable {s : State} {n : Fin 8} {rising : Bool} (hl : Live s)
  (he : (s.dev.f (Reg.TB_CAP_CTL_EDGE n.1)).testBit (if rising then 0 else 1) = true)
include hl he

theorem Answers.of_capture (hroom : (s.dev.ptp.cap[n]).length < 4) : Answers (.capture n rising) s (fun t =>
    t.dev.ptp.cap[n] = s.dev.ptp.cap[n] ++ [s.dev.now] ∧ t.dev.f (Reg.TB_CAP_STAT_COUNT n.1) = (s.dev.ptp.cap[n]).length + 1 ∧
      t.dev.tb Reg.TB_TRIG_EVT_CAP n.1 = true) := by
  have heq : s.dev.capture n rising = ((s.dev.setPtp { s.dev.ptp with cap := put s.dev.ptp.cap n (s.dev.ptp.cap[n] ++ [s.dev.now]) }).setF
      (Reg.TB_CAP_STAT_COUNT n.1) ((s.dev.ptp.cap[n]).length + 1)).raise Reg.TB_TRIG_EVT_CAP (2 ^ n.1) 53 := by
    unfold Dev.capture
    rw [if_pos he]
    exact if_pos hroom
  refine .of_done hl (congrArg s.done heq) ?_
  rw [State.commit_ptp, (Dev.raise_reports _ _ _ _).ptp, State.commit_f,
    Dev.f_raise_off _ _ (by decide) (Nat.le_of_ble_eq_true rfl) (by decide) (by simp only [Reg.TB_CAP_STAT_COUNT, Reg.TB_CAP_STAT_at]; omega)
      (by simp only [Reg.TB_CAP_STAT_COUNT, Reg.TB_CAP_STAT_at, Reg.TB_TRIG_EVT_CAP, Reg.TB_TRIG_EVT_at]; omega), Dev.f_setF_same]
  refine ⟨getElem_put_same _ _ _, Nat.mod_eq_of_lt ?_, ?_⟩
  · exact Nat.lt_of_lt_of_le (Nat.succ_lt_succ hroom) (Nat.le_of_ble_eq_true rfl)
  · exact Dev.tb_raise _ _ (by decide) (by decide) (by decide) n.2 Nat.testBit_two_pow_self

theorem Answers.of_capture_lost (hfull : 4 ≤ (s.dev.ptp.cap[n]).length) : Answers (.capture n rising) s (fun t => t.dev.ptp = s.dev.ptp ∧
    t.dev.bit (Reg.TB_CAP_STAT_OVF n.1) = true) := by
  have heq : s.dev.capture n rising = (s.dev.note (Reg.TB_CAP_STAT_OVF n.1) 1).setF (Reg.TB_CAP_STAT_OVF n.1) 1 := by
    unfold Dev.capture
    rw [if_pos he]
    exact if_neg (Nat.not_lt.mpr hfull)
  refine .of_done hl (congrArg s.done heq) ?_
  rw [State.commit_ptp, State.commit_bit, Dev.setF_ptp]
  exact ⟨(Dev.note_same _ _ _).ptp, congrArg (· == 1) (Dev.f_setF_same _ _ _)⟩

end

theorem Answers.of_capturePop {s : State} {src : Src} {n : Fin 8} {x : Nat} {xs : List Nat} (hl : Live s)
    (hg : (s.dev.guard src (Reg.TB_CAP_HI_at n.1) false).isNone = true) (hc : s.dev.ptp.cap[n] = x :: xs) (hlen : xs.length < 4)
    (hhigh : pairFind s.dev.capHigh src.master.1 (Reg.TB_CAP_LO_at n.1) = none) :
    Answers (.capturePop src n) s (fun t => t.dev.resp = ⟨x / 2 ^ 32 % 2 ^ 32, false⟩ ∧ t.dev.ptp.cap[n] = xs ∧
      t.dev.f (Reg.TB_CAP_STAT_COUNT n.1) = xs.length) := by
  have heq : s.dev.capturePop src n = (((s.dev.answer (x / 2 ^ 32 % 2 ^ 32)).setCapHigh
      (pairDrop s.dev.capHigh src.master.1 (Reg.TB_CAP_LO_at n.1))).setPtp { s.dev.ptp with cap := put s.dev.ptp.cap n xs }).setF
        (Reg.TB_CAP_STAT_COUNT n.1) xs.length := by
    unfold Dev.capturePop
    rw [Option.isNone_iff_eq_none.mp hg]
    dsimp only
    rw [hc, hhigh]
    rfl
  refine .of_done hl (congrArg s.done heq) ⟨rfl, getElem_put_same _ _ _, ?_⟩
  rw [State.commit_f, Dev.f_setF_same]
  exact Nat.mod_eq_of_lt (Nat.lt_of_lt_of_le hlen (Nat.le_of_ble_eq_true rfl))

/-- Settles O36, command by command. -/
theorem comparatorsAndCaptures : Obligations.ComparatorsAndCaptures := by
  unfold Obligations.ComparatorsAndCaptures
  exact ⟨fun s src i w hr => ⟨.of_comparatorArm hr rfl, .of_comparatorArm_past hr rfl⟩,
    fun s i hl harmed ht h1 _ hfirst => .of_comparatorFire hl harmed ht h1 hfirst, fun s p e => .of_pulseEnd,
    fun s n rising hl he => ⟨.of_capture hl he, .of_capture_lost hl he⟩, fun s src n x xs => .of_capturePop⟩

end Sys2Proof.Machine
end

section
/-!
PROOF. PTP frames and holdover (R270, R273, R278).
-/

namespace Sys2Proof.Machine
open Sys2Proof

/-! ### Received frames (R270, R273) -/

theorem Answers.of_ptpDropped {s : State} {p : Fin 6} {bs : List Byte} {good : Bool} {stamp : Nat} (hl : Live s) (hc : Clean s)
    (hen : s.dev.bit Reg.PTP_CTL_EN = true) (hmech : s.dev.f (Reg.PTP_P_CFG_MECH p.1) = 1)
    (hmsg : s.dev.ptpMessage p.1 bs = some 1 ∨ s.dev.ptpMessage p.1 bs = some 9) :
    Answers (.ptpFrameReceive p ⟨bs, good⟩ stamp) s (fun t => t.mem = s.mem ∧
      t.dev.f (Reg.PTP_P_DROP_VALUE p.1) = min (2 ^ 32 - 1) (s.dev.f (Reg.PTP_P_DROP_VALUE p.1) + 1)) := by
  have hdrop : s.dev.ptpDropped p bs = true := by
    unfold Dev.ptpDropped
    rw [hen, hmech]
    obtain h | h := hmsg <;> rw [h] <;> rfl
  refine .of_done hl (congrArg s.done (if_pos hdrop)) ⟨State.commit_mem_of_spares hc (Dev.setF_sparesMem _ _ _), ?_⟩
  rw [State.commit_f]
  exact Dev.f_bump_same _ _ _

/-- The description of a received frame behind its buffer's address. -/
def PtpFrame.entry (f : PtpFrame) : List Byte :=
  leBytes 2 f.bytes.length ++ leBytes 1 f.port ++ leBytes 1 (2 + (if f.udp then 4 else 0) + (if f.err then 8 else 0)) ++
    leBytes 1 (f.stamp % 8) ++ leBytes 3 0 ++ leBytes 8 (f.stamp / 8) ++ leBytes 8 0

theorem PtpFrame.entry_length (f : PtpFrame) : f.entry.length = 24 := by
  unfold PtpFrame.entry
  simp only [List.length_append, length_leBytes]

theorem Dev.ptpDeliver_eq (d : Dev) (word : Nat → Nat → Nat) (f : PtpFrame) :
    d.ptpDeliver word f = (((d.post (word (d.ptpEntry Reg.PTP_RX_LO_ADDR Reg.PTP_RX_HI_ADDR (d.f Reg.PTP_RX_PI_IDX)) 8 % 2 ^ 40) f.bytes).post
      (d.ptpEntry Reg.PTP_RX_LO_ADDR Reg.PTP_RX_HI_ADDR (d.f Reg.PTP_RX_PI_IDX) + 8) f.entry).wrap Reg.PTP_RX_PI_IDX).pend 51 := rfl

theorem Dev.ptpDeliver_posts (d : Dev) (word : Nat → Nat → Nat) (f : PtpFrame) :
    (d.ptpDeliver word f).wq = d.wq ++ [(word (d.ptpEntry Reg.PTP_RX_LO_ADDR Reg.PTP_RX_HI_ADDR (d.f Reg.PTP_RX_PI_IDX)) 8 % 2 ^ 40, f.bytes)] ++
      [(d.ptpEntry Reg.PTP_RX_LO_ADDR Reg.PTP_RX_HI_ADDR (d.f Reg.PTP_RX_PI_IDX) + 8, f.entry)] ∧
    (d.ptpDeliver word f).lost = d.lost ∧ (d.ptpDeliver word f).ep = d.ep := by
  rw [Dev.ptpDeliver_eq]
  exact ⟨Dev.pend_wq _ _, Dev.pend_lost _ _, congrArg₂ Prod.mk (Dev.pend_vatEpoch _ _) (Dev.pend_dramEpoch _ _)⟩

/-- Two posts, the second beside the first's bytes: the first's bytes can be read back. -/
theorem State.commit_reads_posts {s : State} (hc : Clean s) {d : Dev} {a b : Nat} {xs ys : List Byte}
    (hwq : d.wq = s.dev.wq ++ [(a, xs)] ++ [(b, ys)]) (hlost : d.lost = s.dev.lost) (hep : d.ep = s.dev.ep) (h : a + xs.length ≤ b ∨ b + ys.length ≤ a) :
    Mem.reads (s.commit d).mem (s.commit d).dev.ep a xs.length = xs := by
  obtain ⟨hwq0, hlost0⟩ := hc
  have hmem : (s.commit d).mem = Mem.writes (Mem.writes s.mem d.ep a xs) d.ep b ys := by
    have hdrop : Mem.drop s.mem s.dev.ep d.ep d.lost = s.mem := by
      rw [hlost, hlost0, hep]
      exact Mem.drop_nil _ _
    have hcommit : (s.commit d).mem = Mem.writeAll (Mem.drop s.mem s.dev.ep d.ep d.lost) d.ep d.wq := rfl
    rw [hcommit, hdrop, hwq, hwq0]
    rfl
  rw [hmem, show (s.commit d).dev.ep = d.ep from rfl, Mem.reads_writes_out _ _ _ _ _ _ h]
  exact Mem.reads_writes _ _ _ _

theorem Dev.ptpReceive_opened {d : Dev} {word : Nat → Nat → Nat} {f : PtpFrame} (hroom : d.ptpRoom = true) (hreach : d.ptpReach word f = .opened) :
    d.ptpReceive word f = d.ptpDeliver word f := by
  unfold Dev.ptpReceive
  rw [if_neg (by rw [hroom]; decide), hreach]

theorem Answers.of_ptpDelivered {s : State} {p : Fin 6} {bs : List Byte} {good : Bool} {stamp : Nat} (hl : Live s) (hc : Clean s) {o : Nat} {udp : Bool}
    (ht : s.dev.ptpTakes p.1 bs = some (o, udp)) (hd : s.dev.ptpDropped p bs = false) (hroom : s.dev.ptpRoom = true)
    (hreach : s.dev.ptpReach s.memWord ⟨p.1, s.dev.rxStamp (p8 p.1) stamp, bs, udp, !good || s.dev.badLength bs⟩ = .opened) {e : Nat}
    (he : e = s.dev.ptpEntry Reg.PTP_RX_LO_ADDR Reg.PTP_RX_HI_ADDR (s.dev.f Reg.PTP_RX_PI_IDX))
    (happart : s.memWord e 8 % 2 ^ 40 + bs.length ≤ e + 8 ∨ e + 32 ≤ s.memWord e 8 % 2 ^ 40) :
    Answers (.ptpFrameReceive p ⟨bs, good⟩ stamp) s (fun t => t.dev.f Reg.PTP_RX_PI_IDX = (s.dev.f Reg.PTP_RX_PI_IDX + 1) % 2 ^ 32 ∧
      t.dev.f (Reg.PTP_P_DROP_VALUE p.1) = s.dev.f (Reg.PTP_P_DROP_VALUE p.1) ∧
      Mem.reads t.mem t.dev.ep (s.memWord e 8 % 2 ^ 40) bs.length = bs) := by
  subst he
  have heq : s.dev.ptpFrame s.memWord p bs good stamp =
      s.dev.ptpDeliver s.memWord ⟨p.1, s.dev.rxStamp (p8 p.1) stamp, bs, udp, !good || s.dev.badLength bs⟩ := by
    unfold Dev.ptpFrame
    rw [if_neg (by rw [hd]; exact Bool.false_ne_true), ht]
    exact Dev.ptpReceive_opened hroom hreach
  refine .of_done hl (congrArg s.done (heq.trans (Dev.ptpDeliver_eq _ _ _))) ?_
  rw [State.commit_f, State.commit_f, Dev.f_pend_off _ (by decide) (by decide) (by decide),
    Dev.f_pend_off _ (by decide) (Nat.le_of_ble_eq_true rfl) (by simp only [Reg.PTP_P_DROP_VALUE, Reg.PTP_P_DROP_at]; omega)]
  refine ⟨Dev.f_setF_same _ _ _, ?_, ?_⟩
  · exact Dev.f_wrap_off _ _ (by decide) (Nat.le_of_ble_eq_true rfl)
      (by simp only [Reg.PTP_P_DROP_VALUE, Reg.PTP_P_DROP_at, Reg.PTP_RX_PI_IDX, Reg.PTP_RX_PI_at]; omega)
  · rw [← Dev.ptpDeliver_eq]
    obtain ⟨hwq, hlost, hep⟩ := s.dev.ptpDeliver_posts s.memWord ⟨p.1, s.dev.rxStamp (p8 p.1) stamp, bs, udp, !good || s.dev.badLength bs⟩
    refine State.commit_reads_posts hc hwq hlost hep ?_
    rw [PtpFrame.entry_length]
    omega

/-! ### Transmitted frames (R271) -/

theorem Reach.all_opened {a b c : Reach} (ha : (a == .opened) = true) (hb : (b == .opened) = true) (hc : (c == .opened) = true) :
    Reach.all [a, b, c] = .opened := by
  rw [beq_iff_eq.mp ha, beq_iff_eq.mp hb, beq_iff_eq.mp hc]
  rfl

/-- A frame without a stamp on its way: out, counted, its port busy, its entry marked. -/
def Dev.ptpSent (d : Dev) (p : Fin 8) (e fl t8 : Nat) (bs : List Byte) : Dev :=
  let d := d.emit (.frame p.1 (bs ++ fcsOf bs))
  let d := (d.count p 2).count p 3 (bs.length + 4)
  let busy := d.wireTime p (bs.length + 4)
  let d := d.modPort p (fun x => { x with busyTill := d.now + busy, curCut := none })
  let d := d.post (e + 11) (leBytes 1 (fl ||| 2) ++ leBytes 1 (t8 % 8))
  let d := d.post (e + 16) (leBytes 8 (t8 / 8))
  d.wrap Reg.PTP_TX_CI_IDX

theorem Dev.ptpTransmit_plain {d : Dev} {word : Nat → Nat → Nat} (mem : Nat → Nat → List Byte) (egress : Nat) {e buf : Nat} {p : Fin 8}
    (hen : d.bit Reg.PTP_RING_CFG_EN = true) (hne : d.f Reg.PTP_TX_CI_IDX ≠ d.f Reg.PTP_TX_PI_IDX)
    (he : e = d.ptpEntry Reg.PTP_TX_LO_ADDR Reg.PTP_TX_HI_ADDR (d.f Reg.PTP_TX_CI_IDX)) (hbuf : buf = word e 8 % 2 ^ 40) (hp : p = p8 (word (e + 10) 1))
    (h1 : d.localOpen 11 0 .read e 32 = true) (h2 : d.localOpen 11 0 .write e 32 = true) (h3 : d.localOpen 11 0 .read buf (word (e + 8) 2) = true)
    (hport : word (e + 10) 1 < 6) (hr : d.removed p = false) (hser : d.serdesOff p = false) (hbusy : (d.port p).busyTill ≤ d.now)
    (hwant : (word (e + 11) 1).testBit 0 = false) :
    d.ptpTransmit word mem egress = d.ptpSent p e (word (e + 11) 1) (d.txStamp p egress) (mem buf (word (e + 8) 2)) := by
  have hne' : (d.f Reg.PTP_TX_CI_IDX == d.f Reg.PTP_TX_PI_IDX) = false := beq_eq_false_iff_ne.mpr hne
  unfold Dev.ptpTransmit
  dsimp only
  rw [← he, ← hbuf, ← hp, hen, hne', hr, hser, decide_eq_false (Nat.not_le.mpr hport), decide_eq_false (Nat.not_lt.mpr hbusy), if_neg (by decide),
    Reach.all_opened h1 h2 h3, hwant]
  simp only [Bool.false_and, Bool.false_eq_true, if_false]
  cases ptpAt (mem buf (word (e + 8) 2)) <;> rfl

/-- A sent frame leaves with its FCS and the ring's consumer index moves on. -/
theorem Dev.ptpSent_shows (d : Dev) (p : Fin 8) (e fl t8 : Nat) (bs : List Byte) :
    (d.ptpSent p e fl t8 bs).f Reg.PTP_TX_CI_IDX = (d.f Reg.PTP_TX_CI_IDX + 1) % 2 ^ 32 ∧
    (d.ptpSent p e fl t8 bs).out = .frame p.1 (bs ++ fcsOf bs) :: d.out := by
  refine ⟨?_, rfl⟩
  unfold Dev.ptpSent
  dsimp only
  rw [Dev.wrap_eq, Dev.f_setF_same, Dev.f_post, Dev.f_post, Dev.f_modPort, Dev.f_count_off _ _ (by decide) _ (by decide) (by decide),
    Dev.f_count_off _ _ (by decide) _ (by decide) (by decide), Dev.f_emit]
  rfl

theorem Answers.of_ptpTransmit {s : State} {egress : Nat} (hl : Live s) (hen : s.dev.bit Reg.PTP_RING_CFG_EN = true)
    (hne : s.dev.f Reg.PTP_TX_CI_IDX ≠ s.dev.f Reg.PTP_TX_PI_IDX) {e buf : Nat} {p : Fin 8}
    (he : e = s.dev.ptpEntry Reg.PTP_TX_LO_ADDR Reg.PTP_TX_HI_ADDR (s.dev.f Reg.PTP_TX_CI_IDX)) (hbuf : buf = s.memWord e 8 % 2 ^ 40)
    (hp : p = p8 (s.memWord (e + 10) 1)) (h1 : s.dev.localOpen 11 0 .read e 32 = true) (h2 : s.dev.localOpen 11 0 .write e 32 = true)
    (h3 : s.dev.localOpen 11 0 .read buf (s.memWord (e + 8) 2) = true) (hport : s.memWord (e + 10) 1 < 6) (hr : s.dev.removed p = false)
    (hser : s.dev.serdesOff p = false) (hbusy : (s.dev.port p).busyTill ≤ s.dev.now) (hwant : (s.memWord (e + 11) 1).testBit 0 = false) :
    Answers (.ptpTransmit egress) s (fun t => t.dev.f Reg.PTP_TX_CI_IDX = (s.dev.f Reg.PTP_TX_CI_IDX + 1) % 2 ^ 32 ∧
      t.dev.out = .frame p.1 (s.memBytes buf (s.memWord (e + 8) 2) ++ fcsOf (s.memBytes buf (s.memWord (e + 8) 2))) :: s.dev.out) := by
  refine .of_done hl (congrArg s.done (Dev.ptpTransmit_plain s.memBytes egress hen hne he hbuf hp h1 h2 h3 hport hr hser hbusy hwant)) ?_
  rw [State.commit_f, State.commit_out]
  exact Dev.ptpSent_shows _ _ _ _ _ _

/-! ### Holdover (R278) -/

theorem Dev.lineUpdate_f_off (d : Dev) {r : RF} (hl : r.lo < 32) (h : r.addr ≠ Reg.TB_STAT_at) : d.lineUpdate.f r = d.f r :=
  Dev.f_setB_off _ _ (by decide) hl (fun hc => h hc.1)

/-- The device once a KICK has acted. -/
def Dev.kicked (d : Dev) : Dev := (d.setF Reg.PTP_STAT_HOLDOVER 0).setPtp { d.ptp with kickAt := d.now, expired := false }

theorem Dev.servo_kick {d : Dev} {src : Src} {w : Nat} (hg : (d.guard src Reg.PTP_SERVO_at true).isNone = true) (hw : w.testBit 1 = true) :
    ∃ e : Dev, e.now = d.now ∧ d.servo src w = e.kicked.lineUpdate := by
  have hnow : ((d.answer 0).writeRest src Reg.PTP_SERVO_at w []).now = d.now := (Dev.writeRest_reports (d.answer 0) src _ w []).now
  refine ⟨_, ?_, (Dev.onWrite_unguarded hg _).trans (congrArg Dev.lineUpdate (if_pos hw))⟩
  split
  · exact hnow
  · exact hnow

theorem Answers.of_kick {s : State} {src : Src} {w : Word} (hr : Reaches s src Reg.PTP_SERVO_at) (hw : w.toNat.testBit 1 = true) :
    Answers (.kick src w) s (fun t => t.dev.bit Reg.PTP_STAT_HOLDOVER = false ∧ t.dev.ptp.kickAt = s.dev.now ∧ t.dev.ptp.expired = false) := by
  obtain ⟨e, hnow, heq⟩ := Dev.servo_kick hr.2 hw
  refine .of_done hr.1 (congrArg s.done ((if_pos hw).trans heq)) ?_
  rw [State.commit_bit, State.commit_ptp]
  refine ⟨?_, hnow, rfl⟩
  exact (Dev.bit_of_f (Dev.lineUpdate_f_off _ (by decide) (by decide))).trans (Dev.bit_setF_zero e Reg.PTP_STAT_HOLDOVER)

theorem Answers.of_holdoverEntry {s : State} (hl : Live s) (hlock : s.dev.bit Reg.PTP_SERVO_LOCKED = true)
    (hh : s.dev.bit Reg.PTP_STAT_HOLDOVER = false) (ht : s.dev.ptp.kickAt + 400000 * s.dev.f Reg.PTP_HOLD_TO ≤ s.dev.now) :
    Answers .holdoverEntry s (fun t => t.dev.bit Reg.PTP_STAT_HOLDOVER = true ∧ t.dev.ptp.holdAt = s.dev.now) := by
  have hexec : exec .holdoverEntry s = s.done ((s.dev.setF Reg.PTP_STAT_HOLDOVER 1).setPtp { s.dev.ptp with holdAt := s.dev.now }) :=
    congrArg s.done (if_pos (by rw [hlock, hh, decide_eq_true ht]; rfl))
  refine .of_done hl hexec ⟨?_, rfl⟩
  rw [State.commit_bit]
  exact congrArg (· == 1) (Dev.f_setF_same s.dev Reg.PTP_STAT_HOLDOVER 1)

theorem Answers.of_holdoverExpiry {s : State} (hl : Live s) (hh : s.dev.bit Reg.PTP_STAT_HOLDOVER = true) (hx : s.dev.ptp.expired = false)
    (ht : s.dev.ptp.holdAt + 400000000 * s.dev.f Reg.PTP_HOLD_MAX ≤ s.dev.now) :
    Answers .holdoverExpiry s (fun t => t.dev.tb Reg.PTP_EVT_HOLD_EXP 0 = true ∧ t.dev.bit Reg.TB_STAT_LINE = false) := by
  have hexec : exec .holdoverExpiry s = s.done ((Dev.lineUpdate (s.dev.setPtp { s.dev.ptp with expired := true })).raise Reg.PTP_EVT_HOLD_EXP 1 50) :=
    congrArg s.done (if_pos (by rw [hh, hx, decide_eq_true ht]; rfl))
  refine .of_done hl hexec ⟨?_, ?_⟩
  · exact Dev.tb_raise _ _ (by decide) (by decide) (by decide) (by decide) rfl
  · rw [State.commit_bit, Dev.bit_of_f (Dev.f_raise_off _ _ (by decide) (by decide) (by decide) (by decide) (by decide))]
    unfold Dev.lineUpdate
    rw [Dev.setPtp_ptp, Bool.not_true, Bool.and_false]
    exact Dev.bit_setF_zero _ _

/-- Settles O35, command by command. -/
theorem timeFramesAndHoldover : Obligations.TimeFramesAndHoldover := by
  unfold Obligations.TimeFramesAndHoldover
  refine ⟨fun s p bs good stamp hl hc => ⟨.of_ptpDropped hl hc, fun o udp ht hd hroom hreach => .of_ptpDelivered hl hc ht hd hroom hreach rfl⟩,
    fun s egress hl hen hne h1 h2 h3 => .of_ptpTransmit hl hen hne rfl rfl rfl h1 h2 h3, fun s src w => .of_kick, fun s => .of_holdoverEntry,
    fun s => .of_holdoverExpiry⟩

end Sys2Proof.Machine
end

section
/-!
PROOF. The audit's count (R247) in a state whose register file holds more than the field is wide.
-/

namespace Sys2Proof.Machine
open Sys2Proof

/-- The released device after reset, with 2^32 filed in LEAK_COUNT, one more than its 32 bits can hold, and an audit due. -/
def State.wideLeakCount : State :=
  { State.reset with dev := { State.reset.dev with
      sup := { State.reset.dev.sup with held := false }
      regs := [(Reg.SW_AUDIT_PERIOD.key, 0), (Reg.SW_AUDIT_LEAK_COUNT.key, 2 ^ 32)] } }

/-- An audit that finds nothing leaves LEAK_COUNT as it is, here above the bound the statement gives. -/
theorem auditPass_wideLeakCount : (State.wideLeakCount.dev.auditPass [] 0).f Reg.SW_AUDIT_LEAK_COUNT = 2 ^ 32 := by decide +kernel

/-- Refutes O31, in the clause of AUDIT_PASS: the clause bounds LEAK_COUNT by what its 32 bits hold, and of a state it asks only that the
logic die is released. Where the register file holds more than that (no command files such a value) and the audit finds no leak, the count
stays above the bound. -/
theorem not_switchPortsAndPauses : ¬ Obligations.SwitchPortsAndPauses := by
  unfold Obligations.SwitchPortsAndPauses
  intro ⟨_, _, _, _, haudit, _⟩
  obtain ⟨t, hexec, -, -, -, hcount⟩ := haudit State.wideLeakCount [] rfl (by decide +kernel) List.nodup_nil
  have ht : exec (.auditPass [] 0) State.wideLeakCount = .next (State.wideLeakCount.commit (State.wideLeakCount.dev.auditPass [] 0)) := rfl
  obtain rfl := Host.Outcome.next.inj (hexec.symm.trans ht)
  rw [State.commit_f, auditPass_wideLeakCount] at hcount
  exact absurd hcount (by decide +kernel)

end Sys2Proof.Machine
end

section
/-!
PROOF. Completions (R156, R162): once one waits in a slice's buffer it stays there through whatever ends a step, and the end of a step, a
dropped entry and the rest of the queue change one channel only.
-/

namespace Sys2Proof.Machine
open Sys2Proof

/-! ### A completion waits -/

/-- A completion of slice `s` with this channel, TAG, status and instant waits in its buffer. -/
def Dev.Done (d : Dev) (s ch tag status tEnd : Nat) : Prop :=
  ∃ c ∈ (d.slices[sl s]).cmps, c.ch = ch ∧ c.tag = tag ∧ c.status = status ∧ c.tEnd = tEnd

theorem State.completed_commit {s : State} {d : Dev} {n ch tag status tEnd : Nat} (h : d.Done n ch tag status tEnd) :
    Completed (s.commit d) n ch tag status tEnd := h

/-- What waits in `d` waits in `e`. -/
def Dev.KeepsDone (d e : Dev) : Prop := ∀ s ch tag status tEnd : Nat, d.Done s ch tag status tEnd → e.Done s ch tag status tEnd

theorem Dev.KeepsDone.refl (d : Dev) : Dev.KeepsDone d d := fun _ _ _ _ _ h => h

theorem Dev.KeepsDone.trans {d e g : Dev} (h : Dev.KeepsDone d e) (h' : Dev.KeepsDone e g) : Dev.KeepsDone d g :=
  fun s ch tag status tEnd hd => h' s ch tag status tEnd (h s ch tag status tEnd hd)

theorem Dev.KeepsDone.ite {c : Prop} [Decidable c] {d a b : Dev} (ha : Dev.KeepsDone d a) (hb : Dev.KeepsDone d b) :
    Dev.KeepsDone d (if c then a else b) := by
  split <;> assumption

theorem Dev.KeepsDone.foldl {α : Type} {F : Dev → α → Dev} (l : List α) (h : ∀ d, ∀ x ∈ l, Dev.KeepsDone d (F d x)) (d : Dev) :
    Dev.KeepsDone d (l.foldl F d) :=
  List.foldlRecOn l F (motive := Dev.KeepsDone d) (.refl d) (fun e he x hx => he.trans (h e x hx))

/-- A change of the buffers that keeps a completion with the same values for each. -/
theorem Dev.KeepsDone.of_cmps {d e : Dev} (h : ∀ i : Fin 64, ∀ c ∈ (d.slices[i]).cmps, ∃ x ∈ (e.slices[i]).cmps,
    x.ch = c.ch ∧ x.tag = c.tag ∧ x.status = c.status ∧ x.tEnd = c.tEnd) : Dev.KeepsDone d e := by
  intro s ch tag status tEnd ⟨c, hc, hch, htag, hst, ht⟩
  obtain ⟨x, hx, hch', htag', hst', ht'⟩ := h (sl s) c hc
  exact ⟨x, hx, hch'.trans hch, htag'.trans htag, hst'.trans hst, ht'.trans ht⟩

theorem Dev.KeepsDone.of_still {d e : Dev} (h : Dev.StillSlices d e) : Dev.KeepsDone d e := by
  refine .of_cmps fun i c hc => ⟨c, ?_, rfl, rfl, rfl, rfl⟩
  have hcmps : (e.slices[i]).still.cmps = (d.slices[i]).still.cmps := congrArg SliceEng.cmps (h i)
  exact hcmps.symm ▸ hc

theorem Dev.KeepsDone.of_slices {d e : Dev} (h : e.slices = d.slices) : Dev.KeepsDone d e := .of_still (.of_slices h)

theorem Dev.eventAt_keepsDone (d : Dev) (s ty : Nat) (ch : Option Nat) (info data ts : Nat) : Dev.KeepsDone d (d.eventAt s ty ch info data ts) :=
  .of_still (Dev.still_eventAt d s ty ch info data ts)

theorem Dev.raise_keepsDone (d : Dev) (r : RF) (m i : Nat) : Dev.KeepsDone d (d.raise r m i) := .of_still (Dev.still_raise d r m i)

theorem Dev.modChan_keepsDone (d : Dev) (v k : Fin 16) (g : Chan → Chan) : Dev.KeepsDone d (d.modChan v k g) := .of_slices rfl

theorem Cmp.buffered_values (c : Cmp) : c.buffered.ch = c.ch ∧ c.buffered.tag = c.tag ∧ c.buffered.status = c.status ∧ c.buffered.tEnd = c.tEnd := by
  unfold Cmp.buffered
  split <;> exact ⟨rfl, rfl, rfl, rfl⟩

theorem Dev.holdCmps_keepsDone (d : Dev) (s : Nat) : Dev.KeepsDone d (d.holdCmps s) := by
  have hmap : Dev.KeepsDone d (d.modSlice (sl s) (fun e => { e with cmps := e.cmps.map Cmp.buffered })) := by
    refine .of_cmps fun i c hc => ?_
    rw [Dev.slices_modSlice]
    split
    next h => subst h; exact ⟨c.buffered, List.mem_map_of_mem hc, c.buffered_values⟩
    next => exact ⟨c, hc, rfl, rfl, rfl, rfl⟩
  have hevent : ∀ (e : Dev) (n : Nat), Dev.KeepsDone e ((e.setF (Reg.SLC_RING_STAT_CMP_FULL s) 1).event s 0x05 none 0 n) := fun e n =>
    (Dev.KeepsDone.of_slices (d := e) (e := e.setF (Reg.SLC_RING_STAT_CMP_FULL s) 1) rfl).trans (Dev.eventAt_keepsDone _ _ _ _ _ _ _)
  unfold Dev.holdCmps
  dsimp only
  exact .ite hmap (hmap.trans (hevent _ _))

theorem mem_insertCmp (c x : Cmp) : ∀ l : List Cmp, x ∈ insertCmp c l ↔ x = c ∨ x ∈ l
  | [] => List.mem_singleton.trans (or_iff_left (List.not_mem_nil)).symm
  | y :: l => by
    unfold insertCmp
    split
    · exact List.mem_cons
    · rw [List.mem_cons, mem_insertCmp c x l, List.mem_cons]
      exact or_left_comm

section
variable (d : Dev) (s : Nat) (c : Cmp)

theorem Dev.addCmp_eq : d.addCmp s c = if (d.modSlice (sl s) (fun e => { e with cmps := insertCmp c e.cmps })).ringReady s 1 &&
      !(d.modSlice (sl s) (fun e => { e with cmps := insertCmp c e.cmps })).bit (Reg.SLC_RING_STAT_CMP_FULL s)
    then d.modSlice (sl s) (fun e => { e with cmps := insertCmp c e.cmps })
    else (d.modSlice (sl s) (fun e => { e with cmps := insertCmp c e.cmps })).holdCmps s := rfl

theorem Dev.addCmp_keepsDone : Dev.KeepsDone d (d.addCmp s c) := by
  have hins : Dev.KeepsDone d (d.modSlice (sl s) (fun e => { e with cmps := insertCmp c e.cmps })) := by
    refine .of_cmps fun i x hx => ⟨x, ?_, rfl, rfl, rfl, rfl⟩
    rw [Dev.slices_modSlice]
    split
    next h => subst h; exact (mem_insertCmp c x _).mpr (.inr hx)
    next => exact hx
  rw [Dev.addCmp_eq]
  exact .ite hins (hins.trans (Dev.holdCmps_keepsDone _ s))

theorem Dev.addCmp_done : (d.addCmp s c).Done s c.ch c.tag c.status c.tEnd := by
  have hins : (d.modSlice (sl s) (fun e => { e with cmps := insertCmp c e.cmps })).Done s c.ch c.tag c.status c.tEnd := by
    refine ⟨c, ?_, rfl, rfl, rfl, rfl⟩
    rw [Dev.slices_modSlice_same]
    exact (mem_insertCmp c c _).mpr (.inl rfl)
  rw [Dev.addCmp_eq]
  split
  · exact hins
  · exact Dev.holdCmps_keepsDone _ s _ _ _ _ _ hins

theorem Dev.holdCmps_vats : (d.holdCmps s).vats = d.vats := by
  unfold Dev.holdCmps
  dsimp only
  split
  · rfl
  · exact Dev.eventAt_vats _ _ _ _ _ _ _

theorem Dev.addCmp_vats : (d.addCmp s c).vats = d.vats := by
  rw [Dev.addCmp_eq]
  split
  · rfl
  · exact Dev.holdCmps_vats _ s

end

/-! ### Work on one channel's queue -/

/-- From `d` to `e` channel (v, k) changes at most in its queue and its halt, no other channel changes, and completions stay. -/
structure Dev.QueueWork (v k : Fin 16) (d e : Dev) : Prop where
  own : ∃ q h, e.chan v k = { d.chan v k with queue := q, halt := h }
  others : ∀ v' k' : Fin 16, (v', k') ≠ (v, k) → e.chan v' k' = d.chan v' k'
  done : Dev.KeepsDone d e

section
variable {v k : Fin 16} {d e g : Dev}

theorem Dev.QueueWork.of_vats (h : e.vats = d.vats) (hd : Dev.KeepsDone d e) : Dev.QueueWork v k d e :=
  ⟨⟨(d.chan v k).queue, (d.chan v k).halt, Dev.chan_of_vats h v k⟩, fun v' k' _ => Dev.chan_of_vats h v' k', hd⟩

theorem Dev.QueueWork.refl (d : Dev) : Dev.QueueWork v k d d := .of_vats rfl (.refl d)

theorem Dev.QueueWork.trans (h : Dev.QueueWork v k d e) (h' : Dev.QueueWork v k e g) : Dev.QueueWork v k d g := by
  obtain ⟨q, b, ho⟩ := h.own
  obtain ⟨q', b', ho'⟩ := h'.own
  exact ⟨⟨q', b', by rw [ho', ho]⟩, fun v' k' hne => (h'.others v' k' hne).trans (h.others v' k' hne), h.done.trans h'.done⟩

theorem Dev.QueueWork.ite {c : Prop} [Decidable c] {a b : Dev} (ha : Dev.QueueWork v k d a) (hb : Dev.QueueWork v k d b) :
    Dev.QueueWork v k d (if c then a else b) := by
  split <;> assumption

/-- A change of the channel's queue and halt alone. -/
theorem Dev.modChan_queueWork (d : Dev) {f : Chan → Chan} (hf : ∀ c, ∃ q h, f c = { c with queue := q, halt := h }) :
    Dev.QueueWork v k d (d.modChan v k f) := by
  obtain ⟨q, h, hc⟩ := hf (d.chan v k)
  exact ⟨⟨q, h, (d.chan_modChan_same v k f).trans hc⟩, fun v' k' hne => d.chan_modChan_ne hne f, d.modChan_keepsDone v k f⟩

theorem Dev.setQueue_queueWork (d : Dev) (q : List QEntry) : Dev.QueueWork v k d (d.modChan v k (fun c => { c with queue := q })) :=
  d.modChan_queueWork fun c => ⟨q, c.halt, rfl⟩

theorem Dev.modHead_queueWork (d : Dev) (f : QEntry → QEntry) : Dev.QueueWork v k d (d.modHead v k f) :=
  d.modChan_queueWork fun c => ⟨_, c.halt, rfl⟩

theorem Dev.dropEntry_queueWork (d : Dev) (e : QEntry) (status info t : Nat) : Dev.QueueWork v k d (d.dropEntry v k e status info t) :=
  .of_vats (d.addCmp_vats _ _) (d.addCmp_keepsDone _ _)

/-- A dropped entry's completion waits. -/
theorem Dev.dropEntry_done (d : Dev) (e : QEntry) (status info t : Nat) :
    (d.dropEntry v k e status info t).Done (d.chan v k).slice e.d.ch e.d.tag status t := d.addCmp_done _ _

theorem Dev.dropEntries_queueWork (status t : Nat) (l : List QEntry) (d : Dev) :
    Dev.QueueWork v k d (l.foldl (fun d e => d.dropEntry v k e status 0 t) d) :=
  List.foldlRecOn l _ (motive := Dev.QueueWork v k d) (.refl d) (fun e he x _ => he.trans (e.dropEntry_queueWork x status 0 t))

theorem Dev.dropQueue_queueWork (d : Dev) (status t : Nat) : Dev.QueueWork v k d (d.dropQueue v k status t) :=
  (Dev.dropEntries_queueWork status t _ d).trans (Dev.setQueue_queueWork _ [])

theorem Dev.haltQueue_queueWork (d : Dev) (tag t : Nat) : Dev.QueueWork v k d (d.haltQueue v k tag t) :=
  ((d.dropQueue_queueWork 0x3A t).trans (Dev.modChan_queueWork _ fun c => ⟨c.queue, true, rfl⟩)).trans
    (.of_vats (Dev.eventAt_vats _ _ _ _ _ _ _) (Dev.eventAt_keepsDone _ _ _ _ _ _ _))

theorem Dev.haltIf_queueWork (d : Dev) (x : Desc) (status t : Nat) : Dev.QueueWork v k d (d.haltIf v k x status t) :=
  .ite (d.haltQueue_queueWork x.tag t) (.refl d)

theorem Dev.settle_queueWork (t : Nat) : ∀ (n : Nat) (d : Dev), Dev.QueueWork v k d (d.settle v k t n)
  | 0, d => .refl d
  | n + 1, d => by
    unfold Dev.settle
    dsimp only
    split
    · exact .refl d
    next e rest _ =>
      exact .ite (((d.setQueue_queueWork rest).trans (Dev.dropEntry_queueWork _ e 0 0 t)).trans (Dev.settle_queueWork t n _))
        (.ite (d.setQueue_queueWork _) (.refl d))

theorem Dev.dropHead_queueWork (d : Dev) (status info t : Nat) : Dev.QueueWork v k d (d.dropHead v k status info t) := by
  unfold Dev.dropHead
  split
  · exact .refl d
  next e rest _ =>
    exact (((d.setQueue_queueWork rest).trans (Dev.dropEntry_queueWork _ e status info t)).trans (Dev.haltIf_queueWork _ e.d status t)).trans
      (Dev.settle_queueWork t 9 _)

theorem Dev.raise_queueWork (d : Dev) (r : RF) (m i : Nat) : Dev.QueueWork v k d (d.raise r m i) :=
  .of_vats (d.raise_vats r m i) (d.raise_keepsDone r m i)

theorem Dev.deferHead_queueWork (d : Dev) (t : Nat) : Dev.QueueWork v k d (d.deferHead v k t) := by
  unfold Dev.deferHead
  split
  · exact .ite (.refl d) ((d.modHead_queueWork _).trans (Dev.raise_queueWork _ _ _ _))
  · exact .refl d

theorem Dev.deferNext_queueWork (d : Dev) (t : Nat) : Dev.QueueWork v k d (d.deferNext v k t) := by
  unfold Dev.deferNext
  dsimp only
  split
  · exact .ite (d.deferHead_queueWork t) (.refl d)
  · exact .refl d

theorem Dev.holdHead_queueWork (d : Dev) (t : Nat) : Dev.QueueWork v k d (d.holdHead v k t) := by
  unfold Dev.holdHead
  split
  · exact .refl d
  next e rest _ => exact .ite (.refl d) ((d.setQueue_queueWork _).trans (Dev.raise_queueWork _ _ _ _))

theorem Dev.holdStopping_queueWork (d : Dev) (t : Nat) : Dev.QueueWork v k d (d.holdStopping v k t) := by
  unfold Dev.holdStopping
  dsimp only
  split
  · exact .ite (.refl d) (.ite (.ite (d.modHead_queueWork _) (.refl d)) (.ite (d.holdHead_queueWork t) (.refl d)))
  · exact .refl d

theorem Dev.afterEnd_queueWork (d : Dev) (t : Nat) : Dev.QueueWork v k d (d.afterEnd v k t) :=
  (d.deferNext_queueWork t).trans (Dev.holdStopping_queueWork _ t)

/-- The head of a queue that is dropped leaves its completion. -/
theorem Dev.dropHead_done {e : QEntry} {rest : List QEntry} (h : (d.chan v k).queue = e :: rest) (status info t : Nat) :
    (d.dropHead v k status info t).Done (d.chan v k).slice e.d.ch e.d.tag status t := by
  have hentry := Dev.dropEntry_done (v := v) (k := k) (d.modChan v k (fun c => { c with queue := rest })) e status info t
  rw [Dev.chan_modChan_same] at hentry
  unfold Dev.dropHead
  rw [h]
  exact ((Dev.haltIf_queueWork _ e.d status t).trans (Dev.settle_queueWork t 9 _)).done _ _ _ _ _ hentry

/-! ### The end of a step (R155, R162) -/

theorem Dev.stepCmp_values (d : Dev) (v k : Fin 16) (r : Running) (status info tEnd : Nat) (viol : Option (Int × Int)) :
    (d.stepCmp v k r status info tEnd viol).ch = chanNo v k ∧ (d.stepCmp v k r status info tEnd viol).tag = r.d.tag ∧
    (d.stepCmp v k r status info tEnd viol).status = status ∧ (d.stepCmp v k r status info tEnd viol).tEnd = tEnd := by
  unfold Dev.stepCmp
  dsimp only
  split
  · exact ⟨rfl, rfl, rfl, rfl⟩
  · split
    · exact ⟨rfl, rfl, rfl, rfl⟩
    · split <;> exact ⟨rfl, rfl, rfl, rfl⟩

/-- What the end of a step leaves of its channel: no step, no gang unless it drives, and its queue as it then stands. -/
def Chan.ended (c : Chan) : Chan := { c with run := none, gang := if c.st.drives then c.gang else none, progress := false }

theorem Dev.endStepAt_eq {r : Running} (hr : (d.chan v k).run = some r) (hg : r.d.isGang = false) (status info tEnd tRange : Nat)
    (viol : Option (Int × Int)) : d.endStepAt v k status info tEnd tRange viol =
      ((((((d.addCmp (d.chan v k).slice (d.stepCmp v k r status info tEnd viol)).endRange v k tRange).modChan v k (fun c =>
        { c with gang := if c.st.drives then c.gang else none, progress := false })).modChan v k (fun c =>
        { c with run := none, progress := false })).haltIf v k r.d status tEnd).settle v k tRange 9).modHead v k
        (fun e => { e with headAt := some tRange }) := by
  unfold Dev.endStepAt
  dsimp only
  rw [hr]
  dsimp only
  rw [Desc.channels_of_not_gang hg]
  rfl

/-- The end of a step that is no gang's. -/
theorem Dev.endStepAt_spec {r : Running} (hr : (d.chan v k).run = some r) (hg : r.d.isGang = false) (status info tEnd tRange : Nat)
    (viol : Option (Int × Int)) :
    (∃ q h, (d.endStepAt v k status info tEnd tRange viol).chan v k = { (d.chan v k).ended with queue := q, halt := h }) ∧
    (∀ v' k' : Fin 16, (v', k') ≠ (v, k) → (d.endStepAt v k status info tEnd tRange viol).chan v' k' = d.chan v' k') ∧
    Dev.KeepsDone d (d.endStepAt v k status info tEnd tRange viol) ∧
    (d.endStepAt v k status info tEnd tRange viol).Done (d.chan v k).slice (chanNo v k) r.d.tag status tEnd := by
  obtain ⟨e, he⟩ : ∃ e, e = (((d.addCmp (d.chan v k).slice (d.stepCmp v k r status info tEnd viol)).endRange v k tRange).modChan v k (fun c =>
    { c with gang := if c.st.drives then c.gang else none, progress := false })).modChan v k (fun c => { c with run := none, progress := false }) :=
    ⟨_, rfl⟩
  have hown : e.chan v k = (d.chan v k).ended := by
    rw [he, Dev.chan_modChan_same, Dev.chan_modChan_same]
    unfold Dev.endRange
    rw [Dev.chan_modMeas, Dev.chan_of_vats (Dev.addCmp_vats _ _ _)]
    rfl
  have hothers : ∀ v' k' : Fin 16, (v', k') ≠ (v, k) → e.chan v' k' = d.chan v' k' := fun v' k' hne => by
    rw [he, Dev.chan_modChan_ne _ hne, Dev.chan_modChan_ne _ hne]
    unfold Dev.endRange
    rw [Dev.chan_modMeas, Dev.chan_of_vats (Dev.addCmp_vats _ _ _)]
  have hadd : Dev.KeepsDone (d.addCmp (d.chan v k).slice (d.stepCmp v k r status info tEnd viol)) e := by
    have hkeep : ∀ a : Dev, Dev.KeepsDone a (((a.endRange v k tRange).modChan v k (fun c =>
      { c with gang := if c.st.drives then c.gang else none, progress := false })).modChan v k (fun c => { c with run := none, progress := false })) :=
      fun a => .of_slices rfl
    exact he ▸ hkeep _
  have hdone : e.Done (d.chan v k).slice (chanNo v k) r.d.tag status tEnd := by
    obtain ⟨hch, htag, hst, ht⟩ := d.stepCmp_values v k r status info tEnd viol
    have h := d.addCmp_done (d.chan v k).slice (d.stepCmp v k r status info tEnd viol)
    rw [hch, htag, hst, ht] at h
    exact hadd _ _ _ _ _ h
  have hwork : Dev.QueueWork v k e (d.endStepAt v k status info tEnd tRange viol) := by
    rw [Dev.endStepAt_eq hr hg, ← he]
    exact ((e.haltIf_queueWork r.d status tEnd).trans (Dev.settle_queueWork tRange 9 _)).trans (Dev.modHead_queueWork _ _)
  obtain ⟨q, h, hq⟩ := hwork.own
  exact ⟨⟨q, h, by rw [hq, hown]⟩, fun v' k' hne => (hwork.others v' k' hne).trans (hothers v' k' hne),
    ((d.addCmp_keepsDone _ _).trans hadd).trans hwork.done, hwork.done _ _ _ _ _ hdone⟩

theorem Dev.endStepAt_of_none (h : (d.chan v k).run = none) (status info tEnd tRange : Nat) (viol : Option (Int × Int)) :
    d.endStepAt v k status info tEnd tRange viol = d := by
  unfold Dev.endStepAt
  dsimp only
  rw [h]

/-! ### A channel enters a state (R109) -/

theorem Dev.enter_chan (d : Dev) (v k : Fin 16) (st : ChSt) (t : Nat) (v' k' : Fin 16) :
    (d.enter v k st t).chan v' k' = (d.modChan v k (fun c => { c with st := st, stAt := t, was := c.st })).chan v' k' ∧
    Dev.KeepsDone d (d.enter v k st t) := by
  unfold Dev.enter
  dsimp only
  split
  · split
    · exact ⟨Dev.chan_of_vats (Dev.eventAt_vats _ _ _ _ _ _ _) v' k', (d.modChan_keepsDone v k _).trans (Dev.eventAt_keepsDone _ _ _ _ _ _ _)⟩
    · exact ⟨rfl, d.modChan_keepsDone v k _⟩
  · exact ⟨rfl, d.modChan_keepsDone v k _⟩

theorem Dev.enter_chan_same (d : Dev) (v k : Fin 16) (st : ChSt) (t : Nat) :
    (d.enter v k st t).chan v k = { d.chan v k with st := st, stAt := t, was := (d.chan v k).st } :=
  (d.enter_chan v k st t v k).1.trans (d.chan_modChan_same v k _)

theorem Dev.enter_chan_ne (d : Dev) (v k : Fin 16) (st : ChSt) (t : Nat) {v' k' : Fin 16} (h : (v', k') ≠ (v, k)) :
    (d.enter v k st t).chan v' k' = d.chan v' k' := (d.enter_chan v k st t v' k').1.trans (d.chan_modChan_ne h _)

theorem Dev.enter_keepsDone (d : Dev) (v k : Fin 16) (st : ChSt) (t : Nat) : Dev.KeepsDone d (d.enter v k st t) := (d.enter_chan v k st t v k).2

theorem Dev.enterQuiet_chan_same (d : Dev) (v k : Fin 16) (st : ChSt) (t : Nat) : (d.enterQuiet v k st t).chan v k =
    { Chan.quiet { d.chan v k with st := st, stAt := t, was := (d.chan v k).st } with gang := none } := by
  unfold Dev.enterQuiet
  rw [Dev.chan_modChan_same, Dev.enter_chan_same]

theorem Dev.enterQuiet_chan_ne (d : Dev) (v k : Fin 16) (st : ChSt) (t : Nat) {v' k' : Fin 16} (h : (v', k') ≠ (v, k)) :
    (d.enterQuiet v k st t).chan v' k' = d.chan v' k' := (Dev.chan_modChan_ne _ h _).trans (d.enter_chan_ne v k st t h)

theorem Dev.enterQuiet_keepsDone (d : Dev) (v k : Fin 16) (st : ChSt) (t : Nat) : Dev.KeepsDone d (d.enterQuiet v k st t) :=
  (d.enter_keepsDone v k st t).trans (Dev.modChan_keepsDone _ v k _)

end

/-- The list of a mask of one bit. -/
theorem maskList_two_pow : ∀ k : Fin 16, maskList (2 ^ k.1) = [k] := by decide

theorem Dev.gangMask_of_none {d : Dev} {v k : Fin 16} (h : (d.chan v k).gang = none) : d.gangMask v k = 2 ^ k.1 := by
  unfold Dev.gangMask
  rw [h]
  rfl

end Sys2Proof.Machine
end

section
/-!
PROOF. The start of a step that nothing holds back (R109-R112, R128), and the timed transitions of a channel (R109, R110, R113, R116).
-/

namespace Sys2Proof.Machine
open Sys2Proof

/-! ### A start -/

section
variable {d : Dev} {v k : Fin 16}

theorem Dev.gangBusy_of_single {x : Desc} (h : x.isGang = false) : d.gangBusy v k x = false := by
  unfold Dev.gangBusy
  rw [Desc.channels_of_not_gang h]
  simp

theorem Dev.settle_of_empty (h : (d.chan v k).queue = []) (t n : Nat) : d.settle v k t n = d := by
  cases n with
  | zero => rfl
  | succ n =>
    unfold Dev.settle
    dsimp only
    rw [h]

/-- A channel that takes the set-up and the tuning of a step of its own. -/
def Chan.opened (c : Chan) (x : Desc) (u : Tuning) : Chan := { c with tune := u, tuneIdx := x.tune, setup := x, outs := [], gang := none }

/-- A step's precision rate, set from its start on. -/
def Dev.takeRate (d : Dev) (v k : Fin 16) (code t : Nat) : Dev :=
  if code < 5 && !decide (t < ((d.vats[v]).meas[k]).rateAt) then
    (d.setF (prateField v.1 k.1) code).modMeas v k (fun y => (y.writeRate code t).change d.now)
  else d

theorem Dev.takeRate_chan (code t : Nat) (v' k' : Fin 16) : (d.takeRate v k code t).chan v' k' = d.chan v' k' := by
  unfold Dev.takeRate
  split
  · exact Dev.chan_modMeas _ _ _ _ _ _
  · rfl

theorem Dev.takeRate_f (code t : Nat) {r : RF} (hl : r.lo < 32) (h : r.addr ≠ (prateField v.1 k.1).addr) : (d.takeRate v k code t).f r = d.f r := by
  unfold Dev.takeRate
  split
  · exact d.f_setF_off code (by simp only [prateField]; omega) hl (fun hc => h hc.1)
  · rfl

/-- The step as it begins to run. -/
def Dev.newRun (d : Dev) (v k : Fin 16) (e : QEntry) (t : Nat) : Running :=
  { d := e.d, id := d.stepN + 1, t0 := t, deferred := e.deferred, balDeferred := e.balDeferred, late := e.late,
    delay := t - (if e.deferred then e.relAt.getD t else (e.pendAt <|> e.headAt).getD t), resv := e.resv.getD {},
    nextProg := t + 400000 * d.f (Reg.SLC_RING_CTL_PROG_MS (d.chan v k).slice) }

/-- The device with the head of the queue running. -/
def Dev.running1 (d : Dev) (v k : Fin 16) (e : QEntry) (t : Nat) : Dev :=
  (d.setStepN (d.stepN + 1)).modChan v k (fun c =>
    { c with run := some (d.newRun v k e t), queue := c.queue.drop 1, setup := e.d, cvAct := false })

/-- The running step's range open and its set-up taken. -/
def Dev.opened1 (d : Dev) (tb : Nat → Tuning) (v k : Fin 16) (e : QEntry) (t : Nat) : Dev :=
  ((d.running1 v k e t).openRange v k { id := (d.newRun v k e t).id, t0 := t, stepIdx := e.d.stepIdx, tag := e.d.tag, stream := e.d.stream % 8,
                                        gang := e.d.isGang }).modChan v k (fun c => c.opened e.d (tb e.d.tune))

theorem Dev.begin_eq (tb : Nat → Tuning) {e : QEntry} (hg : e.d.isGang = false) (t : Nat) :
    d.begin tb v k e t = ((d.opened1 tb v k e t).takeRate v k (bits e.d.stream 3 4) t).settle v k t 9 := by
  unfold Dev.begin
  dsimp only
  rw [Desc.channels_of_not_gang hg]
  unfold Dev.opened1 Chan.opened
  rw [List.foldl_cons, List.foldl_nil, hg]
  rfl

/-- The channel once its step `r` runs alone. -/
def Chan.begun (c : Chan) (r : Running) (u : Tuning) : Chan := { c with run := some r, queue := [], cvAct := false }.opened r.d u

/-- A step that begins to run alone in its channel's queue. -/
theorem Dev.begin_spec (tb : Nat → Tuning) {e : QEntry} (hg : e.d.isGang = false) (hq : (d.chan v k).queue = [e]) (t : Nat) :
    (d.begin tb v k e t).chan v k = (d.chan v k).begun (d.newRun v k e t) (tb e.d.tune) ∧
    ∀ r : RF, r.lo < 32 → r.addr ≠ (prateField v.1 k.1).addr → (d.begin tb v k e t).f r = d.f r := by
  have hchan : ((d.opened1 tb v k e t).takeRate v k (bits e.d.stream 3 4) t).chan v k = (d.chan v k).begun (d.newRun v k e t) (tb e.d.tune) := by
    have hsame : (d.setStepN (d.stepN + 1)).chan v k = d.chan v k := rfl
    rw [Dev.takeRate_chan]
    unfold Dev.opened1 Dev.openRange Dev.running1
    rw [Dev.chan_modChan_same, Dev.chan_modMeas, Dev.chan_modChan_same, hsame, hq]
    rfl
  rw [Dev.begin_eq tb hg, Dev.settle_of_empty (by rw [hchan]; rfl)]
  exact ⟨hchan, fun r hl h => Dev.takeRate_f _ t hl h⟩

/-- What holds of a device whose head step may start at once at tick `t` (`CanStart`). -/
structure Dev.MayStart (d : Dev) (tb : Nat → Tuning) (v k : Fin 16) (e : QEntry) (t : Nat) : Prop where
  queue : (d.chan v k).queue = [e]
  st : (d.chan v k).st = .idle
  single : e.d.isGang = false
  refusal : e.d.refusal (tb e.d.tune) k = none
  modf : d.modf v k = false
  klatch : d.klatch v k = false
  volts : -200000 ≤ (d.chan v k).win.v
  close : d.closeDue v k t = false
  barred : d.armBarred v = false

/-- The start of such a step is its beginning and the entry after arming. -/
theorem Dev.startHead_eq {tb : Nat → Tuning} {e : QEntry} {t : Nat} (h : d.MayStart tb v k e t) :
    d.startHead tb v k t = (d.begin tb v k e t).afterArm v k e.d t := by
  obtain ⟨hq, hst, hg, href, hm, hk, hv, -, hb⟩ := h
  have hv' : ¬ (d.chan v k).win.v < -200000 := Int.not_lt.mpr hv
  unfold Dev.startHead
  simp only [hq, href, hst, Dev.gangBusy_of_single hg, Desc.channels_of_not_gang hg, hm, hk, hb, hv', List.any_cons, List.any_nil, beq_self_eq_true,
    Bool.true_or, Bool.or_true, Bool.not_true, Bool.false_eq_true, if_false, Bool.or_false, Bool.and_false, Bool.or_self, reduceBEq, decide_false]
  simp

end

/-- The entry after arming of a step without a gang whose closing delay is over: PASSIVE or SOFT. -/
theorem Dev.afterArm_st {d : Dev} {v k : Fin 16} {x : Desc} {t : Nat} (hg : x.isGang = false) (hc : d.closeDue v k t = false) :
    ((d.afterArm v k x t).chan v k).st = (if x.passive then .passive else .soft) ∧ ((d.afterArm v k x t).chan v k).run = (d.chan v k).run ∧
    ((d.afterArm v k x t).chan v k).queue = (d.chan v k).queue := by
  unfold Dev.afterArm
  dsimp only
  rw [Desc.channels_of_not_gang hg]
  split
  · rw [Dev.enterQuiet_chan_same]
    exact ⟨rfl, rfl, rfl⟩
  · have hnone : ([k].any fun m => d.closeDue v m t) = false := by rw [List.any_cons, hc]; rfl
    rw [hnone, if_neg Bool.false_ne_true]
    unfold Dev.enterSoft
    rw [List.foldl_cons, List.foldl_nil, Dev.enter_chan_same, Dev.chan_modChan_same]
    exact ⟨rfl, rfl, rfl⟩

/-- A step that may start runs from the tick on, and its channel is PASSIVE or in SOFT. -/
theorem Dev.startHead_started {d : Dev} {tb : Nat → Tuning} {v k : Fin 16} {e : QEntry} {t : Nat} (h : d.MayStart tb v k e t) :
    (∃ r, ((d.startHead tb v k t).chan v k).run = some r ∧ r.d = e.d ∧ r.t0 = t) ∧ ((d.startHead tb v k t).chan v k).queue = [] ∧
    ((d.startHead tb v k t).chan v k).st = (if e.d.passive then .passive else .soft) := by
  obtain ⟨hchan, hf⟩ := Dev.begin_spec tb h.single h.queue t
  have hclose : (d.begin tb v k e t).closeDue v k t = false := by
    have hdly : (d.begin tb v k e t).f (Reg.VAT_LOOP_CFG_CLOSE_DLY v.1) = d.f (Reg.VAT_LOOP_CFG_CLOSE_DLY v.1) :=
      hf _ (Nat.le_of_ble_eq_true rfl) (by simp only [Reg.VAT_LOOP_CFG_CLOSE_DLY, Reg.VAT_LOOP_CFG_at, prateField, Reg.VAT_PRATE_at]; omega)
    have h := h.close
    unfold Dev.closeDue at h ⊢
    rw [hchan, hdly]
    exact h
  obtain ⟨hst, hrun, hqueue⟩ := Dev.afterArm_st h.single hclose
  rw [Dev.startHead_eq h]
  rw [hchan] at hrun hqueue
  exact ⟨⟨_, hrun, rfl, rfl⟩, hqueue, hst⟩

theorem Dev.mayStart_of_canStart {s : State} {v k : Fin 16} {e : QEntry} (h : CanStart s v k e) :
    s.dev.MayStart (s.tuning v) v k e (s.dev.tick k) := by
  obtain ⟨hq, hst, -, -, hg, -, href, hm, hk, hv, hc, -, hb, -, -⟩ := h
  exact ⟨hq, hst, hg, href, hm, hk, hv, hc, hb⟩

theorem State.started_commit {s : State} {d : Dev} {v k : Fin 16} {e : QEntry}
    (h : (∃ r, (d.chan v k).run = some r ∧ r.d = e.d ∧ r.t0 = s.dev.tick k) ∧ (d.chan v k).queue = [] ∧
      (d.chan v k).st = (if e.d.passive then .passive else .soft)) : Started s (s.commit d) v k e := by
  unfold Started
  rw [State.commit_chan]
  exact h

end Sys2Proof.Machine
end

section
/-!
PROOF. The timed transitions of a channel (R109-R113, R116) and its first computation in SOFT (R104, R136).
-/

namespace Sys2Proof.Machine
open Sys2Proof

/-! ### Arming ends (R110) -/

/-- The lane's queued re-arming requests are withdrawn, no more. -/
theorem Dev.withdrawKclr_chan (d : Dev) (v : Fin 16) (mask : Nat) (v' k' : Fin 16) : (d.withdrawKclr v mask).chan v' k' = d.chan v' k' :=
  Dev.chan_modLane _ _ _ _ _

theorem Dev.withdrawKclr_keepsDone (d : Dev) (v : Fin 16) (mask : Nat) : Dev.KeepsDone d (d.withdrawKclr v mask) := .of_slices rfl

theorem Dev.refuseArm_eq {d : Dev} {v k : Fin 16} {r : Running} (hg : (d.chan v k).gang = none) (hr : (d.chan v k).run = some r)
    (status info t : Nat) : d.refuseArm v k status info t =
      (((d.withdrawKclr v (2 ^ k.1)).endStep v k status info t).enterQuiet v k .idle t).afterEnd v k t := by
  have hrun : ((d.withdrawKclr v (2 ^ k.1)).chan v k).run.isSome = true := by rw [Dev.withdrawKclr_chan, hr]; rfl
  unfold Dev.refuseArm
  rw [Dev.leadOf_of_none hg, Dev.gangMask_of_none hg]
  dsimp only
  rw [hrun, if_pos rfl, if_pos rfl, maskList_two_pow]
  rfl

theorem Answers.of_armTimeout {s : State} {v k : Fin 16} {r : Running} (hl : Live s) (hst : (s.dev.chan v k).st = .arm)
    (hg : (s.dev.chan v k).gang = none) (hr : (s.dev.chan v k).run = some r) (hsingle : r.d.isGang = false)
    (ht : (s.dev.chan v k).stAt + 400 * s.dev.f (Reg.VAT_LOOP_CFG_ARM_TO v.1) ≤ s.dev.now) :
    Answers (.armTimeout v k) s (fun t => (t.dev.chan v k).st = .idle ∧ (t.dev.chan v k).run = none ∧
      Completed t (s.dev.chan v k).slice (chanNo v k) r.d.tag 0x30 (s.dev.tick k)) := by
  have hexec : exec (.armTimeout v k) s = s.done (s.dev.refuseArm v k 0x30 0 (s.dev.tick k)) := by
    refine (congrArg s.done (if_pos ⟨hst, ht⟩)).trans ?_
    rw [Dev.leadOf_of_none hg]
  obtain ⟨⟨q, h, hown⟩, -, -, hdone⟩ := Dev.endStepAt_spec (d := s.dev.withdrawKclr v (2 ^ k.1)) (v := v) (k := k) (r := r)
    (by rw [Dev.withdrawKclr_chan]; exact hr) hsingle 0x30 0 (s.dev.tick k) (s.dev.tick k) none
  rw [Dev.withdrawKclr_chan] at hown hdone
  have hwork := Dev.afterEnd_queueWork (v := v) (k := k) (((s.dev.withdrawKclr v (2 ^ k.1)).endStep v k 0x30 0 (s.dev.tick k)).enterQuiet v k .idle
    (s.dev.tick k)) (s.dev.tick k)
  obtain ⟨q', h', hlast⟩ := hwork.own
  rw [Dev.enterQuiet_chan_same, Dev.endStep, hown] at hlast
  refine .of_done hl hexec ?_
  rw [State.commit_chan, Dev.refuseArm_eq hg hr]
  refine ⟨by rw [Dev.endStep, hlast]; rfl, by rw [Dev.endStep, hlast]; rfl, State.completed_commit ?_⟩
  exact hwork.done _ _ _ _ _ (Dev.enterQuiet_keepsDone _ v k .idle _ _ _ _ _ _ hdone)

/-! ### The closing delay ends (R109) -/

theorem Answers.of_closeDelayEnd {s : State} {v k : Fin 16} {r : Running} (hl : Live s) (hst : (s.dev.chan v k).st = .close)
    (hg : (s.dev.chan v k).gang = none) (hr : (s.dev.chan v k).run = some r) (hsingle : r.d.isGang = false)
    (hc : s.dev.closeDue v k (s.dev.tick k) = false) :
    Answers (.closeDelayEnd v k) s (fun t => (t.dev.chan v k).st = .soft ∧ (t.dev.chan v k).r = 0 ∧ (t.dev.chan v k).xi = 0 ∧
      (t.dev.chan v k).xv = 0 ∧ OtherChans s t v k) := by
  have hend : s.dev.closeEnd v k = (s.dev.modChan v k (fun c => { c.quiet with softFirst := true })).enter v k .soft (s.dev.tick k) := by
    unfold Dev.closeEnd
    dsimp only
    rw [Dev.leadOf_of_none hg, hr]
    dsimp only
    rw [Desc.channels_of_not_gang hsingle, List.any_cons, hc]
    exact if_pos ⟨hst, rfl⟩
  refine .of_done hl rfl ?_
  rw [hend, State.commit_chan, Dev.enter_chan_same, Dev.chan_modChan_same]
  refine ⟨rfl, rfl, rfl, rfl, fun v' k' hne => ?_⟩
  rw [State.commit_chan, Dev.enter_chan_ne _ _ _ _ _ hne, Dev.chan_modChan_ne _ hne]

/-! ### A ramp takes too long (R113) -/

theorem Chan.stopBy_lastStop (c : Chan) (k : Fin 16) (code t : Nat) : (c.stopBy k code t).lastStop = c.stopAs k code t := by
  unfold Chan.stopBy Chan.stopAs
  split
  next w hw =>
    rw [hw, Option.any_some]
    split
    next hp =>
      rw [hp, beq_self_eq_true, Bool.true_and, apply_ite Chan.lastStop]
      by_cases hlt : w.1 < placeOf code <;> simp [hlt]
    next hp => rw [beq_eq_false_iff_ne.mpr hp]; rfl
  next hw => rw [hw]; rfl

theorem Dev.afterEnds_keeps (d : Dev) (v : Fin 16) (ran : List (Fin 16)) (t : Nat) (k : Fin 16) :
    ((d.afterEnds v ran t).chan v k).st = (d.chan v k).st ∧ ((d.afterEnds v ran t).chan v k).lastStop = (d.chan v k).lastStop := by
  refine List.foldlRecOn ran _ (motive := fun e : Dev => (e.chan v k).st = (d.chan v k).st ∧ (e.chan v k).lastStop = (d.chan v k).lastStop)
    ⟨rfl, rfl⟩ fun e he j _ => ?_
  split
  · have hwork := Dev.afterEnd_queueWork (v := v) (k := j) e t
    by_cases hj : k = j
    · subst hj
      obtain ⟨q, h, hown⟩ := hwork.own
      rw [hown]
      exact he
    · rw [hwork.others v k (fun hc => hj (congrArg Prod.snd hc))]
      exact he
  · exact he

/-- A step's end leaves its channel's state and stop code. -/
theorem Dev.endStepAt_rest (d : Dev) (v k : Fin 16) (status info tEnd tRange : Nat) (viol : Option (Int × Int)) :
    ((d.endStepAt v k status info tEnd tRange viol).chan v k).st = (d.chan v k).st ∧
    ((d.endStepAt v k status info tEnd tRange viol).chan v k).lastStop = (d.chan v k).lastStop := by
  cases hr : (d.chan v k).run with
  | none =>
    rw [Dev.endStepAt_of_none hr]
    exact ⟨rfl, rfl⟩
  | some r =>
    unfold Dev.endStepAt
    dsimp only
    rw [hr]
    dsimp only
    obtain ⟨e, he⟩ : ∃ e, e = d.addCmp (d.chan v k).slice (d.stepCmp v k r status info tEnd viol) := ⟨_, rfl⟩
    have hadd : e.chan v k = d.chan v k := by rw [he]; exact Dev.chan_of_vats (Dev.addCmp_vats _ _ _) v k
    rw [← he]
    obtain ⟨g, hg⟩ : ∃ g, g = (r.d.channels k).foldl (fun d m => (d.endRange v m tRange).modChan v m (fun c =>
      { c with gang := if c.st.drives then c.gang else none, progress := false })) e := ⟨_, rfl⟩
    have hfold : (g.chan v k).st = (d.chan v k).st ∧ (g.chan v k).lastStop = (d.chan v k).lastStop := by
      rw [hg]
      refine List.foldlRecOn _ _ (motive := fun e : Dev => (e.chan v k).st = (d.chan v k).st ∧ (e.chan v k).lastStop = (d.chan v k).lastStop)
        (by rw [hadd]; exact ⟨rfl, rfl⟩) fun e he m _ => ?_
      have hrange : (e.endRange v m tRange).chan v k = e.chan v k := Dev.chan_modMeas _ _ _ _ _ _
      by_cases hm : k = m
      · subst hm
        rw [Dev.chan_modChan_same, hrange]
        exact he
      · rw [Dev.chan_modChan_ne _ (fun hc => hm (congrArg Prod.snd hc)), hrange]
        exact he
    rw [← hg]
    obtain ⟨q, h, hown⟩ := (((Dev.haltIf_queueWork (v := v) (k := k) (g.modChan v k (fun c => { c with run := none, progress := false })) r.d status
      tEnd).trans (Dev.settle_queueWork tRange 9 _)).trans (Dev.modHead_queueWork _ (fun e => { e with headAt := some tRange }))).own
    rw [hown, Dev.chan_modChan_same]
    exact hfold

/-- The channel's state and stop code after a kill of it alone. -/
theorem Dev.killChans_single {d : Dev} {v k : Fin 16} (hst : (d.chan v k).st ≠ .fenced) (code t : Nat) :
    ((d.killChans v k (2 ^ k.1) code t t none).chan v k).st = .killed ∧
      ((d.killChans v k (2 ^ k.1) code t t none).chan v k).lastStop = (d.chan v k).stopAs k code t := by
  have hks : (maskList (2 ^ k.1)).filter (fun j => (d.chan v j).st != .fenced) = [k] := by
    rw [maskList_two_pow, List.filter_singleton, bne_iff_ne.mpr hst]
    rfl
  have hkill : d.killChans v k (2 ^ k.1) code t t none = ((d.modChan v k (fun c =>
      { c.stopBy k code t with killedSinceArm := true })).enterQuiet v k .killed t).endStepAt v k 0x20 code t t none := by
    unfold Dev.killChans
    dsimp only
    rw [hks]
    unfold Dev.killEnter
    rw [List.foldl_cons, List.foldl_nil, List.foldl_cons, List.foldl_nil, if_neg hst, if_pos rfl]
  obtain ⟨hs, hl⟩ := Dev.endStepAt_rest ((d.modChan v k (fun c => { c.stopBy k code t with killedSinceArm := true })).enterQuiet v k .killed t) v k
    0x20 code t t none
  rw [hkill, hs, hl, Dev.enterQuiet_chan_same, Dev.chan_modChan_same]
  exact ⟨rfl, Chan.stopBy_lastStop _ _ _ _⟩

theorem Dev.queueKill_chan (d : Dev) (v : Fin 16) (mask cause : Nat) (v' k' : Fin 16) : (d.queueKill v mask cause).chan v' k' = d.chan v' k' := by
  unfold Dev.queueKill
  split
  · exact Dev.chan_modLane _ _ _ _ _
  · rfl

theorem Answers.of_rampTimeout {s : State} {v k : Fin 16} (hl : Live s) (hst : (s.dev.chan v k).st = .ramp) (hg : (s.dev.chan v k).gang = none)
    (ht : (s.dev.chan v k).stAt + 400 * (if (s.dev.chan v k).orphanRate.isSome then min (s.dev.f (Reg.VAT_RAMP_CFG_RAMP_MAX v.1)) 2000
      else s.dev.f (Reg.VAT_RAMP_CFG_RAMP_MAX v.1)) ≤ s.dev.now) :
    Answers (.rampTimeout v k) s (fun t => (t.dev.chan v k).st = .killed ∧
      (t.dev.chan v k).lastStop = (s.dev.chan v k).stopAs k 11 (s.dev.tick k)) := by
  have hexec : exec (.rampTimeout v k) s = s.done ((((s.dev.queueKill v (2 ^ k.1) 0x04).withdrawKclr v (2 ^ k.1)).killChans v k (2 ^ k.1) 11
      (s.dev.tick k) (s.dev.tick k) none).afterEnds v (s.dev.running v) (s.dev.tick k)) := by
    refine (congrArg s.done (if_pos ⟨hst, ht⟩)).trans ?_
    rw [Dev.leadOf_of_none hg, Dev.gangMask_of_none hg]
  have hchan : ((s.dev.queueKill v (2 ^ k.1) 0x04).withdrawKclr v (2 ^ k.1)).chan v k = s.dev.chan v k :=
    (Dev.withdrawKclr_chan _ _ _ _ _).trans (Dev.queueKill_chan _ _ _ _ _ _)
  obtain ⟨hs, hc⟩ := Dev.killChans_single (d := (s.dev.queueKill v (2 ^ k.1) 0x04).withdrawKclr v (2 ^ k.1)) (v := v) (k := k)
    (by rw [hchan, hst]; decide) 11 (s.dev.tick k)
  obtain ⟨hs', hc'⟩ := Dev.afterEnds_keeps (((s.dev.queueKill v (2 ^ k.1) 0x04).withdrawKclr v (2 ^ k.1)).killChans v k (2 ^ k.1) 11
    (s.dev.tick k) (s.dev.tick k) none) v (s.dev.running v) (s.dev.tick k) k
  refine .of_done hl hexec ?_
  rw [State.commit_chan]
  exact ⟨hs'.trans hs, hc'.trans (hc.trans (by rw [hchan]))⟩

/-! ### A hold ends (R116) -/

theorem Answers.of_heldStart {s : State} {v k : Fin 16} {e : QEntry} (hl : Live s) (hs : CanStart s v k e) (hheld : e.heldAt.isSome = true)
    (hat : (s.dev.chan v k).stAt < s.dev.tick k) : Answers (.heldStart v k) s (fun t => Started s t v k e) := by
  obtain ⟨hq, hst, hrun, horph, hg, hresv, href, hm, hk, hv, hc, hf, hb, hstop, hadm⟩ := hs
  obtain ⟨d1, hd1⟩ : ∃ d1, d1 = s.dev.modHead v k (fun e => { e with heldAt := none }) := ⟨_, rfl⟩
  have hchan : d1.chan v k = { s.dev.chan v k with queue := [{ e with heldAt := none }] } := by
    rw [hd1]
    unfold Dev.modHead
    rw [Dev.chan_modChan_same, hq]
  have hvolts : -200000 ≤ (d1.chan v k).win.v := by rw [hchan]; exact hv
  have hlane : (d1.vats[v]).boardFlags = (s.dev.vats[v]).boardFlags := by
    rw [hd1]
    unfold Dev.modHead Dev.modChan
    rw [Dev.vats_modVat_same]
  have hmay : d1.MayStart (s.tuning v) v k { e with heldAt := none } (s.dev.tick k) := by
    refine ⟨by rw [hchan], by rw [hchan]; exact hst, hg, href, ?_, ?_, hvolts, ?_, ?_⟩
    · rw [hd1]; exact hm
    · rw [hd1]; exact hk
    · unfold Dev.closeDue at hc ⊢
      rw [hchan, hd1]
      exact hc
    · unfold Dev.armBarred Dev.boardCond at hb ⊢
      rw [hlane, hd1]
      exact hb
  have hhold : s.dev.holdOver v k e.d = true := by
    unfold Dev.holdOver
    dsimp only
    rw [Desc.channels_of_not_gang hg, List.all_cons, List.all_nil, hst, hb]
    rfl
  have hrested : ([k].all fun m => decide ((s.dev.chan v m).stAt < s.dev.tick k)) = true := by rw [List.all_cons, decide_eq_true hat]; rfl
  have hresv' : e.resv.isNone = false := Option.isNone_eq_false_iff.mpr hresv
  have hstart : s.dev.heldStart (s.tuning v) v k = d1.startHead (s.tuning v) v k (s.dev.tick k) := by
    have hq1 : (d1.chan v k).queue = [{ e with heldAt := none }] := by rw [hchan]
    unfold Dev.heldStart
    dsimp only
    simp only [hq, hheld, hrun, horph, hstop, hf, hhold, Desc.channels_of_not_gang hg, hrested, hresv', Option.isNone_none, List.isEmpty_nil,
      Bool.not_false, Bool.and_self, if_true, Bool.false_and, Bool.false_eq_true, if_false, ← hd1, hq1, hresv, hadm, and_self]
  refine .of_done hl rfl ?_
  rw [hstart]
  have hstarted := Dev.startHead_started hmay
  exact State.started_commit hstarted

/-- A failing status halts the queue of a step that allows it. -/
theorem Dev.haltIf_halts {d : Dev} {v k : Fin 16} {x : Desc} {status : Nat} (hf : failing status = true) (hx : x.flag 2 = false) (t : Nat) :
    ((d.haltIf v k x status t).chan v k).halt = true ∧ ((d.haltIf v k x status t).chan v k).queue = [] := by
  have hhalt : d.haltIf v k x status t = d.haltQueue v k x.tag t := if_pos (by rw [hf, hx]; rfl)
  have hlast : (d.haltQueue v k x.tag t).chan v k = ((d.dropQueue v k 0x3A t).modChan v k (fun c => { c with halt := true })).chan v k :=
    Dev.chan_of_vats (Dev.eventAt_vats _ _ _ _ _ _ _) v k
  rw [hhalt, hlast, Dev.chan_modChan_same]
  unfold Dev.dropQueue
  rw [Dev.chan_modChan_same]
  exact ⟨rfl, rfl⟩

theorem Answers.of_holdLimitExpiry {s : State} {v k : Fin 16} {e : QEntry} {rest : List QEntry} {h : Nat} (hl : Live s)
    (hq : (s.dev.chan v k).queue = e :: rest) (hh : e.heldAt = some h)
    (ht : h + 400000 * s.dev.f (Reg.VAT_LOOP_CFG_ENABLE_HOLD_LIMIT v.1) < s.dev.tick k) :
    Answers (.holdLimitExpiry v k) s (fun t => Completed t (s.dev.chan v k).slice e.d.ch e.d.tag 0x33 (s.dev.tick k) ∧
      (e.d.flag 2 = false → (t.dev.chan v k).halt = true ∧ (t.dev.chan v k).queue = [])) := by
  have hdrop : s.dev.holdExpiry v k = s.dev.dropHead v k 0x33 0 (s.dev.tick k) := by
    unfold Dev.holdExpiry
    rw [hq]
    dsimp only
    rw [hh]
    exact if_pos ht
  refine .of_done hl rfl ?_
  rw [hdrop]
  refine ⟨State.completed_commit (Dev.dropHead_done hq 0x33 0 _), fun hflag => ?_⟩
  rw [State.commit_chan]
  unfold Dev.dropHead
  rw [hq]
  dsimp only
  obtain ⟨hhalt, hempty⟩ := Dev.haltIf_halts (d := (s.dev.modChan v k (fun c => { c with queue := rest })).dropEntry v k e 0x33 0 (s.dev.tick k))
    (v := v) (k := k) (x := e.d) (status := 0x33) rfl hflag (s.dev.tick k)
  rw [Dev.settle_of_empty hempty]
  exact ⟨hhalt, hempty⟩

/-! ### The first computation in SOFT (R104, R136) -/

/-- From `d` to `e` channel (v, k) keeps its phase and its gang, and no other channel changes. -/
structure Dev.PhaseWork (v k : Fin 16) (d e : Dev) : Prop where
  phase : (e.chan v k).phase = (d.chan v k).phase
  gang : (e.chan v k).gang = (d.chan v k).gang
  others : ∀ v' k' : Fin 16, (v', k') ≠ (v, k) → e.chan v' k' = d.chan v' k'

section
variable {v k : Fin 16} {d e g : Dev}

theorem Dev.PhaseWork.of_chan (h : ∀ v' k' : Fin 16, e.chan v' k' = d.chan v' k') : Dev.PhaseWork v k d e :=
  ⟨by rw [h], by rw [h], fun v' k' _ => h v' k'⟩

theorem Dev.PhaseWork.refl (d : Dev) : Dev.PhaseWork v k d d := .of_chan fun _ _ => rfl

theorem Dev.PhaseWork.trans (h : Dev.PhaseWork v k d e) (h' : Dev.PhaseWork v k e g) : Dev.PhaseWork v k d g :=
  ⟨h'.phase.trans h.phase, h'.gang.trans h.gang, fun v' k' hne => (h'.others v' k' hne).trans (h.others v' k' hne)⟩

theorem Dev.PhaseWork.ite {c : Prop} [Decidable c] {a b : Dev} (ha : Dev.PhaseWork v k d a) (hb : Dev.PhaseWork v k d b) :
    Dev.PhaseWork v k d (if c then a else b) := by
  split <;> assumption

theorem Dev.PhaseWork.modChan (h : Dev.PhaseWork v k d e) {f : Chan → Chan}
    (hf : ∀ c, (f c).phase = c.phase ∧ (f c).gang = c.gang := by exact fun _ => ⟨rfl, rfl⟩) : Dev.PhaseWork v k d (e.modChan v k f) := by
  refine h.trans ⟨?_, ?_, fun v' k' hne => e.chan_modChan_ne hne f⟩
  · rw [Dev.chan_modChan_same]; exact (hf _).1
  · rw [Dev.chan_modChan_same]; exact (hf _).2

theorem Dev.PhaseWork.modPoint (h : Dev.PhaseWork v k d e) (t : Nat) (f : ImpPoint → ImpPoint) : Dev.PhaseWork v k d (e.modPoint v t f) :=
  h.trans (.of_chan fun _ _ => Dev.chan_modPoint _ _ _ _ _ _)

theorem Dev.PhaseWork.modGuard (h : Dev.PhaseWork v k d e) (j : Fin 16) (f : Guard → Guard) : Dev.PhaseWork v k d (e.modGuard v j f) :=
  h.trans (.of_chan fun _ _ => Dev.chan_modGuard _ _ _ _ _ _)

theorem Dev.PhaseWork.modLane (h : Dev.PhaseWork v k d e) (f : Lane → Lane) : Dev.PhaseWork v k d (e.modLane v f) :=
  h.trans (.of_chan fun _ _ => Dev.chan_modLane _ _ _ _ _)

theorem Dev.PhaseWork.emit (h : Dev.PhaseWork v k d e) (o : Output) : Dev.PhaseWork v k d (e.emit o) := h.trans (.of_chan fun _ _ => rfl)

theorem Dev.PhaseWork.enter (h : Dev.PhaseWork v k d e) (st : ChSt) (t : Nat) : Dev.PhaseWork v k d (e.enter v k st t) :=
  (h.modChan (f := fun c => { c with st := st, stAt := t, was := c.st })).trans
    (.of_chan fun v' k' => (e.enter_chan v k st t v' k').1)

theorem Dev.PhaseWork.sendCmd (h : Dev.PhaseWork v k d e) : Dev.PhaseWork v k d (e.sendCmd v k) := by
  unfold Dev.sendCmd Dev.takeSlot
  exact ((h.modChan.modGuard _ _).modLane _).emit _

theorem Dev.PhaseWork.send (h : Dev.PhaseWork v k d e) (mode : CmdMode) (duty phase : Nat) : Dev.PhaseWork v k d (e.send v k mode duty phase) := by
  unfold Dev.send
  exact .ite h.modChan.sendCmd h.modChan

theorem Dev.PhaseWork.drive (h : Dev.PhaseWork v k d e) (rp : Int) : Dev.PhaseWork v k d (e.drive v k rp) := by
  unfold Dev.drive
  exact h.modChan.send _ _ _

theorem Dev.PhaseWork.markScaled (h : Dev.PhaseWork v k d e) : Dev.PhaseWork v k d (e.markScaled v k) := by
  unfold Dev.markScaled
  exact h.modChan

theorem Dev.PhaseWork.pulseTick (h : Dev.PhaseWork v k d e) (t : Nat) : Dev.PhaseWork v k d (e.pulseTick v k t) := by
  unfold Dev.pulseTick
  exact h.modChan

theorem Dev.PhaseWork.reference (h : Dev.PhaseWork v k d e) (hg : (e.chan v k).gang = none) (t : Nat) : Dev.PhaseWork v k d (e.reference v k t) := by
  have hmark : Dev.PhaseWork v k e (if e.effLimits v k (e.chan v k).setup (e.chan v k).tune ≠ limits (e.chan v k).setup (e.chan v k).tune then
    e.markScaled v k else e) := .ite (Dev.PhaseWork.refl e).markScaled (.refl e)
  refine h.trans ?_
  unfold Dev.reference
  dsimp only
  generalize hd3 : Dev.impMark _ v k t _ false = d3
  have h3 : Dev.PhaseWork v k e d3 := by
    rw [← hd3]
    exact hmark.modChan.modPoint _ _
  have hks : maskList (d3.gangMask v k) = [k] := by rw [Dev.gangMask_of_none (h3.gang.trans hg), maskList_two_pow]
  rw [hks]
  unfold Dev.startRamp
  simp only [List.foldl_cons, List.foldl_nil]
  split
  · exact h3.modChan.enter _ _
  · exact .ite (h3.enter _ _) h3

end

/-- The phases in use in a vat are read off its channels. -/
theorem Dev.newPhase_congr {d e : Dev} {v k : Fin 16} (hf : e.f (Reg.VAT_BAL_CFG_PH_OFS v.1) = d.f (Reg.VAT_BAL_CFG_PH_OFS v.1))
    (hown : (e.chan v k).phase = (d.chan v k).phase) (hnone : (d.chan v k).phase = none)
    (hothers : ∀ k', k' ≠ k → e.chan v k' = d.chan v k') : e.newPhase v = d.newPhase v := by
  have hocc : e.occupied v = d.occupied v := by
    unfold Dev.occupied
    refine congrArg (fun F => List.foldl F [] (List.finRange 16)) (funext fun xs => funext fun j => ?_)
    by_cases hj : j = k
    · subst hj
      rw [hown, hnone]
    · rw [hothers j hj]
  unfold Dev.newPhase
  rw [hocc, hf]

theorem Dev.takePhase_of_none {d : Dev} {v k : Fin 16} (hg : (d.chan v k).gang = none) (hp : (d.chan v k).phase = none) :
    d.takePhase v k = d.modChan v k (fun c => { c with phase := some (d.newPhase v % 256) }) := by
  unfold Dev.takePhase
  rw [hp, Dev.gangMask_of_none hg, maskList_two_pow]
  dsimp only
  rw [Option.isSome_none, if_neg Bool.false_ne_true, List.zipIdx_cons, List.zipIdx_nil, List.foldl_cons, List.foldl_nil]
  simp only [Nat.mul_zero, List.length_singleton, Nat.zero_div, Nat.add_zero]

/-- The law of a channel in SOFT without a phase takes one, and works on that channel alone. -/
theorem Dev.lawLead_soft {d : Dev} {v k : Fin 16} (hst : (d.chan v k).st = .soft) (hg : (d.chan v k).gang = none) (hp : (d.chan v k).phase = none)
    (t : Nat) : ((d.lawLead v k t).chan v k).phase = some (d.newPhase v % 256) ∧
      ∀ v' k' : Fin 16, (v', k') ≠ (v, k) → (d.lawLead v k t).chan v' k' = d.chan v' k' := by
  obtain ⟨e, he⟩ : ∃ e, e = d.takePhase v k := ⟨_, rfl⟩
  have hphase : (e.chan v k).phase = some (d.newPhase v % 256) := by
    rw [he, Dev.takePhase_of_none hg hp, Dev.chan_modChan_same]
  have hgang : (e.chan v k).gang = none := by
    rw [he, Dev.takePhase_of_none hg hp, Dev.chan_modChan_same]
    exact hg
  have hothers : ∀ v' k' : Fin 16, (v', k') ≠ (v, k) → e.chan v' k' = d.chan v' k' := fun v' k' hne => by
    rw [he, Dev.takePhase_of_none hg hp, Dev.chan_modChan_ne _ hne]
  have hpulse : Dev.PhaseWork v k e (e.pulseTick v k t) := (Dev.PhaseWork.refl e).pulseTick t
  have hwork : Dev.PhaseWork v k e (d.lawLead v k t) := by
    unfold Dev.lawLead
    dsimp only
    rw [hst, ← he]
    exact (hpulse.reference (hpulse.gang.trans hgang) t).drive _
  exact ⟨hwork.phase.trans hphase, fun v' k' hne => (hwork.others v' k' hne).trans (hothers v' k' hne)⟩

theorem Answers.of_firstSoft {s : State} {v k : Fin 16} {r : Running} {t0 : Nat} {ecc : Ecc} (hlive : Live s) (hecc : ecc ≠ .uncorrectable)
    (hf : s.dev.fenced v = false) (hslot : s.dev.slotTick k = some t0) (hdone : (s.dev.chan v k).done ≠ some t0)
    (hdis : s.dev.displaced v k t0 = false) (hst : (s.dev.chan v k).st = .soft) (hp : (s.dev.chan v k).phase = none)
    (hrun : (s.dev.chan v k).run = some r) (hsingle : r.d.isGang = false) (hlate : r.lateEnd = none) (hgang : (s.dev.chan v k).gang = none)
    (hkill : (s.dev.chan v k).killEnd = none) (hstop : (s.dev.chan v k).stopReq = []) (horph : (s.dev.chan v k).orphan = none)
    (hprot : ((s.dev.modChan v k (fun c => { c with done := some t0 })).modChan v k Chan.trackStep).protections v k t0 = [])
    (hend : endStatus r.d (s.dev.conditions v k r t0).1 = none) :
    Answers (.loopComputation v k true ecc) s (fun t => (t.dev.chan v k).phase = some (s.dev.newPhase v % 256) ∧ OtherChans s t v k) := by
  obtain ⟨hund, hview1, hkept1⟩ := Dev.computing_undisturbed ecc hsingle hgang (by rw [hst]; decide) hrun hkill hstop horph hlate hprot hend
  obtain ⟨e, hview2, hkept2, hat⟩ := Dev.computeAt_undisturbed hund (s.tuning v)
  have hview := hview1.trans hview2
  have hkept := hkept1.trans hkept2
  obtain ⟨hphase, hothers⟩ := Dev.lawLead_soft (hkept.st.trans hst) (hkept.gang.trans hgang) (hkept.phase.trans hp) t0
  have hnew : e.newPhase v = s.dev.newPhase v := Dev.newPhase_congr
    (hview.f _ (.of (Nat.le_of_ble_eq_true rfl) (by simp only [Reg.VAT_BAL_CFG_PH_OFS, Reg.VAT_BAL_CFG_at]; omega))) hkept.phase hp
    (fun k' hk => hview.others v k' (fun hc => hk (congrArg Prod.snd hc)))
  obtain ⟨⟨p, h, hclose⟩, hothersc, -⟩ := (e.lawLead v k t0).closeTickOf_spares v k t0
  have hexec : exec (.loopComputation v k true ecc) s = s.done (((e.lawLead v k t0).closeTickOf v k t0).calFinish v k t0) := by
    refine congrArg s.done ?_
    rw [hslot]
    dsimp only
    rw [if_neg hdone, Dev.compute_of_clear (s.tuning v) hecc hf horph hdis, hat]
  have hchan : ∀ v' k', (s.commit (((e.lawLead v k t0).closeTickOf v k t0).calFinish v k t0)).dev.chan v' k' =
      ((e.lawLead v k t0).closeTickOf v k t0).chan v' k' := fun v' k' =>
    (State.commit_chan _ _ _ _).trans (Dev.calFinish_spares _ v k t0 v' k').1
  refine .of_done hlive hexec ⟨?_, fun v' k' hne => ?_⟩
  · rw [hchan, hclose, ← hnew]
    exact hphase
  · rw [hchan, hothersc v' k' hne, hothers v' k' hne, hview.others v' k' hne]

/-- Settles O15: each timed transition drops an entry, ends a step or enters a state, and what follows it works on the queue alone. -/
theorem channelTimersEnd : Obligations.ChannelTimersEnd := by
  unfold Obligations.ChannelTimersEnd
  refine ⟨fun s v k r hl hst hg hr hs ht => .of_armTimeout hl hst hg hr hs ht, fun s v k r hl hst hg hr hs hc => .of_closeDelayEnd hl hst hg hr hs hc,
    fun s v k r t0 ecc hl hecc hf _ hslot hdone hdis hst hp hrun hsingle hlate hgang hkill hstop horph hprot hend =>
      .of_firstSoft hl hecc hf hslot hdone hdis hst hp hrun hsingle hlate hgang hkill hstop horph hprot hend,
    fun s v k hl hst hg ht => .of_rampTimeout hl hst hg ht, fun s v k e hl hs hheld hat => .of_heldStart hl hs hheld hat,
    fun s v k e rest h hl hq hh ht => .of_holdLimitExpiry hl hq hh ht⟩

end Sys2Proof.Machine
end

section
/-!
PROOF. Host links and orphan policies (R118-R120): which slices a lost link orphans, and how a channel takes its slice's policy.
-/

namespace Sys2Proof.Machine
open Sys2Proof

/-! ### A host link goes down (R118) -/

/-- A field that no orphaning of a slice writes, but perhaps its flag. -/
def RF.OffOrphan (r : RF) : Prop := ∀ s < 64, r.OffEvents s ∧ r.addr ≠ Reg.SLC_RING_STAT_at s

theorem Dev.f_orphanSlice_off (d : Dev) (i : Fin 64) {r : RF} (h : r.OffOrphan) (hs : ¬(r.addr = Reg.SLC_STATE_at i.1 ∧ r.lo = 2)) :
    (d.orphanSlice i.1).f r = d.f r := by
  obtain ⟨hoff, hstat⟩ := h i.1 i.2
  cases hb : d.bit (Reg.SLC_STATE_ORPHAN i.1) with
  | true => exact congrArg (fun e : Dev => e.f r) (if_pos hb)
  | false =>
    rw [Dev.orphanSlice_eq i hb, Dev.event, Dev.keeps_eventAt _ _ _ _ _ _ _ hoff, Dev.f_of_regs (Dev.eachOwned_regs _ _ _),
      Dev.f_setOrphan_off _ _ hoff.1 hs (fun hc => ?_)]
    exact hstat hc.1

theorem Reg.slice_offOrphan {r : RF} (hl : r.lo < 32) (h : (0x20031000 ≤ r.addr ∧ r.addr < 0x20032020) ∨
    ∃ s n : Nat, s < 64 ∧ n < 8 ∧ r.addr = Reg.SLC_RING_CFG_at s n) : r.OffOrphan := by
  intro s hs
  unfold RF.OffEvents
  simp only [Reg.SLC_RING_CFG_at, Reg.SLICE_EVT_at, Reg.DPL_PI_at, Reg.DPL_STAT_at, Reg.SLC_RING_STAT_at, Reg.SLC_EVT_LOST_at] at h ⊢
  obtain h | ⟨s', n, hs', hn, h⟩ := h <;> omega

/-- What a lost link reads of a device to find the slices it orphans, and their policies. -/
structure Dev.SameLinks (d e : Dev) : Prop where
  now : e.now = d.now
  f : ∀ r : RF, r.OffOrphan → (∀ i : Fin 64, ¬(r.addr = Reg.SLC_STATE_at i.1 ∧ r.lo = 2)) → e.f r = d.f r

theorem Dev.SameLinks.trans {d e g : Dev} (h : Dev.SameLinks d e) (h' : Dev.SameLinks e g) : Dev.SameLinks d g :=
  ⟨h'.now.trans h.now, fun r hr hs => (h'.f r hr hs).trans (h.f r hr hs)⟩

theorem Dev.SameLinks.state {d e : Dev} (h : Dev.SameLinks d e) (i : Fin 64) : e.f (Reg.SLC_STATE_STATE i.1) = d.f (Reg.SLC_STATE_STATE i.1) :=
  h.f _ (Reg.slice_offOrphan (Nat.le_of_ble_eq_true rfl) (.inl (by simp only [Reg.SLC_STATE_STATE, Reg.SLC_STATE_at]; omega)))
    fun _ hc => absurd hc.2 (by simp only [Reg.SLC_STATE_STATE]; decide)

theorem Dev.SameLinks.policy {d e : Dev} (h : Dev.SameLinks d e) (i : Fin 64) :
    e.f (Reg.SLC_ORPHAN_POLICY i.1) = d.f (Reg.SLC_ORPHAN_POLICY i.1) ∧ e.f (Reg.SLC_ORPHAN_MAX i.1) = d.f (Reg.SLC_ORPHAN_MAX i.1) := by
  have hside : ∀ r : RF, r.lo < 32 → r.addr = Reg.SLC_ORPHAN_at i.1 → e.f r = d.f r := fun r hl ha =>
    h.f r (Reg.slice_offOrphan hl (.inl (by rw [ha]; simp only [Reg.SLC_ORPHAN_at]; omega)))
      fun j hc => by rw [ha] at hc; simp only [Reg.SLC_ORPHAN_at, Reg.SLC_STATE_at] at hc; omega
  exact ⟨hside _ (Nat.le_of_ble_eq_true rfl) rfl, hside _ (Nat.le_of_ble_eq_true rfl) rfl⟩

theorem Dev.SameLinks.hasRing {d e : Dev} (h : Dev.SameLinks d e) (i : Fin 64) (loc : Nat) : e.hasRing i.1 loc = d.hasRing i.1 loc := by
  have hside : ∀ n < 8, ∀ r : RF, r.lo < 32 → r.addr = Reg.SLC_RING_CFG_at i.1 n → e.f r = d.f r := fun n hn r hl ha =>
    h.f r (Reg.slice_offOrphan hl (.inr ⟨i.1, n, i.2, hn, ha⟩))
      fun j hc => by rw [ha] at hc; simp only [Reg.SLC_RING_CFG_at, Reg.SLC_STATE_at] at hc; omega
  unfold Dev.hasRing
  rw [Bool.eq_iff_iff, List.any_eq_true, List.any_eq_true]
  refine exists_congr fun n => and_congr_right fun hn => ?_
  have hn := List.mem_range.mp hn
  rw [Dev.bit_of_f (hside n hn _ (Nat.le_of_ble_eq_true rfl) rfl), hside n hn _ (Nat.le_of_ble_eq_true rfl) rfl]

/-- One slice's part of a lost link. -/
def Dev.linkOrphan (p : Nat) (d : Dev) (s : Nat) : Dev := if d.f (Reg.SLC_STATE_STATE s) ≠ 0 ∧ d.hasRing s p then d.orphanSlice s else d

theorem Dev.orphanSlice_now (d : Dev) (i : Fin 64) : (d.orphanSlice i.1).now = d.now := by
  cases hb : d.bit (Reg.SLC_STATE_ORPHAN i.1) with
  | true => exact congrArg Dev.now (if_pos hb)
  | false =>
    rw [Dev.orphanSlice_eq i hb, Dev.event]
    exact (Dev.eventAt_work _ i.2 _ _ _ _ _).now.trans (Dev.eachOwned_keeps _ i _ (I := fun e => e.now = d.now) (fun _ _ _ h => h) rfl)

theorem Dev.linkOrphan_same (p : Nat) (d : Dev) (i : Fin 64) : Dev.SameLinks d (Dev.linkOrphan p d i.1) := by
  unfold Dev.linkOrphan
  split
  · exact ⟨d.orphanSlice_now i, fun r hr hs => d.f_orphanSlice_off i hr (hs i)⟩
  · exact ⟨rfl, fun _ _ _ => rfl⟩

/-- A slice's ORPHAN flag, and its channels. -/
def Dev.orphanView (d : Dev) (i : Fin 64) : Nat × (Fin 16 → Fin 16 → Option Chan) :=
  (d.f (Reg.SLC_STATE_ORPHAN i.1), fun v k => if (d.chan v k).owner = some i then some (d.chan v k) else none)

/-- What a lost link makes of them, in a device that reads as `d`. -/
def Dev.orphanTurn (d : Dev) (p : Nat) (i : Fin 64) (x : Nat × (Fin 16 → Fin 16 → Option Chan)) : Nat × (Fin 16 → Fin 16 → Option Chan) :=
  if (d.f (Reg.SLC_STATE_STATE i.1) ≠ 0 ∧ d.hasRing i.1 p) ∧ x.1 ≠ 1 then
    (1, fun v k => (x.2 v k).map (fun c => c.orphaned (d.f (Reg.SLC_ORPHAN_POLICY i.1)) (d.f (Reg.SLC_ORPHAN_MAX i.1)) d.now))
  else x

theorem Dev.linkOrphan_view {d e : Dev} (p : Nat) (h : Dev.SameLinks d e) (i : Fin 64) :
    (Dev.linkOrphan p e i.1).orphanView i = d.orphanTurn p i (e.orphanView i) := by
  unfold Dev.linkOrphan Dev.orphanTurn
  rw [h.state i, h.hasRing i p]
  by_cases hc : d.f (Reg.SLC_STATE_STATE i.1) ≠ 0 ∧ d.hasRing i.1 p
  · rw [if_pos hc]
    cases hb : e.bit (Reg.SLC_STATE_ORPHAN i.1) with
    | true =>
      have h1 : (e.orphanView i).1 = 1 := beq_iff_eq.mp hb
      rw [if_neg (fun hcc => hcc.2 h1)]
      exact congrArg (fun g : Dev => g.orphanView i) (if_pos hb)
    | false =>
      have h1 : (e.orphanView i).1 ≠ 1 := beq_eq_false_iff_ne.mp hb
      rw [if_pos ⟨hc, h1⟩]
      refine congrArg₂ Prod.mk (Dev.orphanSlice_flag hb) (funext fun v => funext fun k => ?_)
      rw [Dev.chan_orphanSlice hb, (h.policy i).1, (h.policy i).2, h.now]
      unfold Dev.orphanView
      dsimp only
      by_cases ho : (e.chan v k).owner = some i
      · rw [if_pos ho, if_pos ho]
        exact if_pos ho
      · simp only [if_neg ho, Option.map_none]
  · rw [if_neg hc, if_neg (fun hcc => hc hcc.1)]

theorem Dev.linkOrphan_view_ne (p : Nat) (e : Dev) {i j : Fin 64} (h : j ≠ i) : (Dev.linkOrphan p e i.1).orphanView j = e.orphanView j := by
  unfold Dev.linkOrphan
  split
  · have hval : j.1 ≠ i.1 := fun hc => h (Fin.ext hc)
    have hflag : (e.orphanSlice i.1).f (Reg.SLC_STATE_ORPHAN j.1) = e.f (Reg.SLC_STATE_ORPHAN j.1) :=
      e.f_orphanSlice_off i (Reg.slice_offOrphan (Nat.le_of_ble_eq_true rfl) (.inl (by simp only [Reg.SLC_STATE_ORPHAN, Reg.SLC_STATE_at]; omega)))
        (fun hc => by simp only [Reg.SLC_STATE_ORPHAN, Reg.SLC_STATE_at] at hc; omega)
    cases hb : e.bit (Reg.SLC_STATE_ORPHAN i.1) with
    | true => exact congrArg (fun g : Dev => g.orphanView j) (if_pos hb)
    | false =>
      refine congrArg₂ Prod.mk hflag (funext fun v => funext fun k => ?_)
      rw [Dev.chan_orphanSlice hb]
      by_cases ho : (e.chan v k).owner = some i
      · have hne : (e.chan v k).owner ≠ some j := by rw [ho]; exact fun hc => h (Option.some.inj hc).symm
        rw [if_pos ho, if_neg hne]
        exact if_neg hne
      · rw [if_neg ho]
  · rfl

theorem Dev.hostDown_eq {d : Dev} {p : Fin 2} (h : d.bit (pathBit p) = true) : d.hostDown p = forEach 64 (d.setF (pathBit p) 0) (Dev.linkOrphan p.1) :=
  if_pos h

theorem Dev.hostDown_same {d : Dev} {p : Fin 2} (h : d.bit (pathBit p) = true) : Dev.SameLinks (d.setF (pathBit p) 0) (d.hostDown p) := by
  rw [Dev.hostDown_eq h]
  exact List.foldlRecOn _ _ (motive := Dev.SameLinks (d.setF (pathBit p) 0)) ⟨rfl, fun _ _ _ => rfl⟩
    fun e he s hs => he.trans (Dev.linkOrphan_same p.1 e ⟨s, List.mem_range.mp hs⟩)

theorem Dev.hostDown_view {d : Dev} {p : Fin 2} (h : d.bit (pathBit p) = true) (i : Fin 64) :
    (d.hostDown p).orphanView i = (d.setF (pathBit p) 0).orphanTurn p.1 i ((d.setF (pathBit p) 0).orphanView i) := by
  have hcell := forEach_cell (n := 64) (I := Dev.SameLinks (d.setF (pathBit p) 0)) (F := Dev.linkOrphan p.1)
    (rd := fun e a => e.orphanView (sl a)) (G := fun a x => (d.setF (pathBit p) 0).orphanTurn p.1 (sl a) x)
    (fun e a ha he => he.trans (Dev.linkOrphan_same p.1 e ⟨a, ha⟩))
    (fun e a ha he => by
      have hsl : sl a = ⟨a, ha⟩ := sl_val ⟨a, ha⟩
      rw [hsl]
      exact Dev.linkOrphan_view p.1 he ⟨a, ha⟩)
    (fun e a ha b hb _ hne => by
      have hsl : sl b = ⟨b, hb⟩ := sl_val ⟨b, hb⟩
      rw [hsl]
      exact Dev.linkOrphan_view_ne p.1 e (i := ⟨a, ha⟩) (fun hc => hne (congrArg Fin.val hc)))
    (d := d.setF (pathBit p) 0) ⟨rfl, fun _ _ _ => rfl⟩ i.2
  rw [sl_val] at hcell
  rw [Dev.hostDown_eq h]
  exact hcell

theorem pathBit_fields (p : Fin 2) : (pathBit p).addr = Reg.SYS_SVC_at ∧ (pathBit p).lo < 32 ∧ (pathBit p).w = 1 := by
  unfold pathBit
  split <;> exact ⟨rfl, by decide, rfl⟩

/-- A field of the slices does not change with a path's bit. -/
theorem Dev.f_setPath (d : Dev) (p : Fin 2) (x : Nat) {r : RF} (hl : r.lo < 32) (h : r.addr ≠ Reg.SYS_SVC_at) : (d.setF (pathBit p) x).f r = d.f r := by
  obtain ⟨ha, hlo, -⟩ := pathBit_fields p
  exact d.f_setF_off x hlo hl fun hc => h (hc.1.trans ha)

theorem Dev.sameLinks_setPath (d : Dev) (p : Fin 2) (x : Nat) (i : Fin 64) :
    (d.setF (pathBit p) x).f (Reg.SLC_STATE_STATE i.1) = d.f (Reg.SLC_STATE_STATE i.1) ∧
    (d.setF (pathBit p) x).f (Reg.SLC_STATE_ORPHAN i.1) = d.f (Reg.SLC_STATE_ORPHAN i.1) ∧
    (d.setF (pathBit p) x).f (Reg.SLC_ORPHAN_POLICY i.1) = d.f (Reg.SLC_ORPHAN_POLICY i.1) ∧
    (d.setF (pathBit p) x).f (Reg.SLC_ORPHAN_MAX i.1) = d.f (Reg.SLC_ORPHAN_MAX i.1) ∧
    ∀ loc, (d.setF (pathBit p) x).hasRing i.1 loc = d.hasRing i.1 loc := by
  refine ⟨d.f_setPath p x (Nat.le_of_ble_eq_true rfl) ?_, d.f_setPath p x (Nat.le_of_ble_eq_true rfl) ?_,
    d.f_setPath p x (Nat.le_of_ble_eq_true rfl) ?_, d.f_setPath p x (Nat.le_of_ble_eq_true rfl) ?_, fun loc => ?_⟩
  · simp only [Reg.SLC_STATE_STATE, Reg.SLC_STATE_at, Reg.SYS_SVC_at]; omega
  · simp only [Reg.SLC_STATE_ORPHAN, Reg.SLC_STATE_at, Reg.SYS_SVC_at]; omega
  · simp only [Reg.SLC_ORPHAN_POLICY, Reg.SLC_ORPHAN_at, Reg.SYS_SVC_at]; omega
  · simp only [Reg.SLC_ORPHAN_MAX, Reg.SLC_ORPHAN_at, Reg.SYS_SVC_at]; omega
  · unfold Dev.hasRing
    refine congrArg (fun F => List.any (List.range 8) F) (funext fun n => ?_)
    have hen : (d.setF (pathBit p) x).bit (Reg.SLC_RING_CFG_EN i.1 n) = d.bit (Reg.SLC_RING_CFG_EN i.1 n) :=
      Dev.bit_of_f (d.f_setPath p x (Nat.le_of_ble_eq_true rfl) (by simp only [Reg.SLC_RING_CFG_EN, Reg.SLC_RING_CFG_at, Reg.SYS_SVC_at]; omega))
    rw [hen, d.f_setPath p x (r := Reg.SLC_RING_CFG_LOC i.1 n) (Nat.le_of_ble_eq_true rfl)
      (by simp only [Reg.SLC_RING_CFG_LOC, Reg.SLC_RING_CFG_at, Reg.SYS_SVC_at]; omega)]

theorem pathBit_offOrphan (p : Fin 2) : (pathBit p).OffOrphan := by
  obtain ⟨ha, hl, -⟩ := pathBit_fields p
  intro s hs
  unfold RF.OffEvents
  rw [ha]
  simp only [Reg.SYS_SVC_at, Reg.SLICE_EVT_at, Reg.DPL_PI_at, Reg.DPL_STAT_at, Reg.SLC_RING_STAT_at, Reg.SLC_EVT_LOST_at]
  omega

theorem Answers.of_hostLinkDown {s : State} {p : Fin 2} (hl : Live s) (h : s.dev.bit (pathBit p) = true) :
    Answers (.hostLinkDown p) s (fun t => t.dev.bit (pathBit p) = false ∧
      ∀ i : Fin 64,
        (s.dev.f (Reg.SLC_STATE_STATE i.1) ≠ 0 → s.dev.hasRing i.1 p.1 = true →
          t.dev.bit (Reg.SLC_STATE_ORPHAN i.1) = true ∧
          (s.dev.bit (Reg.SLC_STATE_ORPHAN i.1) = false → ∀ v k : Fin 16, (s.dev.chan v k).owner = some i →
            (t.dev.chan v k).orphan =
              some { policy := s.dev.f (Reg.SLC_ORPHAN_POLICY i.1), maxMs := s.dev.f (Reg.SLC_ORPHAN_MAX i.1), since := s.dev.now,
                     shown := match (s.dev.chan v k).orphan with | some o => o.shown | none => false })) ∧
        (s.dev.f (Reg.SLC_STATE_STATE i.1) = 0 ∨ s.dev.hasRing i.1 p.1 = false →
          t.dev.f (Reg.SLC_STATE_ORPHAN i.1) = s.dev.f (Reg.SLC_STATE_ORPHAN i.1))) := by
  refine .of_done hl rfl ?_
  rw [State.commit_bit]
  refine ⟨?_, fun i => ?_⟩
  · have hpath := (Dev.hostDown_same h).f (pathBit p) (pathBit_offOrphan p) (fun i hc => by
      rw [(pathBit_fields p).1] at hc
      simp only [Reg.SYS_SVC_at, Reg.SLC_STATE_at] at hc
      omega)
    rw [Dev.bit_of_f hpath]
    exact Dev.bit_setF_zero _ _
  · obtain ⟨hst, hor, hpol, hmax, hring⟩ := s.dev.sameLinks_setPath p 0 i
    have hview := Dev.hostDown_view h i
    have hturn : (s.dev.setF (pathBit p) 0).orphanTurn p.1 i ((s.dev.setF (pathBit p) 0).orphanView i) =
        s.dev.orphanTurn p.1 i (s.dev.orphanView i) := by
      have hsame : (s.dev.setF (pathBit p) 0).orphanView i = s.dev.orphanView i := congrArg₂ Prod.mk hor rfl
      rw [hsame]
      unfold Dev.orphanTurn
      rw [hst, hpol, hmax, hring]
      rfl
    rw [hturn] at hview
    have hflag : (s.dev.hostDown p).f (Reg.SLC_STATE_ORPHAN i.1) = (s.dev.orphanTurn p.1 i (s.dev.orphanView i)).1 := congrArg Prod.fst hview
    rw [State.commit_bit, State.commit_f]
    unfold Dev.bit
    rw [hflag]
    unfold Dev.orphanTurn at hview ⊢
    refine ⟨fun hs hr => ?_, fun hno => ?_⟩
    · by_cases h1 : (s.dev.orphanView i).1 = 1
      · rw [if_neg (fun hc => hc.2 h1), h1]
        refine ⟨rfl, fun hb => absurd h1 (beq_eq_false_iff_ne.mp hb)⟩
      · rw [if_pos ⟨⟨hs, hr⟩, h1⟩] at hview ⊢
        refine ⟨rfl, fun _ v k ho => ?_⟩
        have hsome : (s.dev.orphanView i).2 v k = some (s.dev.chan v k) := if_pos ho
        have hchan := (congrFun (congrFun (congrArg Prod.snd hview) v) k).trans (congrArg (Option.map _) hsome)
        have heq : (s.dev.hostDown p).chan v k =
            (s.dev.chan v k).orphaned (s.dev.f (Reg.SLC_ORPHAN_POLICY i.1)) (s.dev.f (Reg.SLC_ORPHAN_MAX i.1)) s.dev.now :=
          Option.some.inj ((Option.ite_none_right_eq_some.mp hchan).2)
        rw [State.commit_chan, heq]
        rfl
    · rw [if_neg (fun hc => hno.elim hc.1.1 (fun hr => absurd hc.1.2 (by rw [hr]; decide)))]
      rfl

/-! ### A host link comes up (R21) -/

theorem Dev.evtLostAll_keeps (d : Dev) : (d.evtLostAll).vats = d.vats ∧ ∀ r : RF, r.OffOrphan → d.evtLostAll.f r = d.f r := by
  unfold Dev.evtLostAll forEach
  refine List.foldlRecOn (List.range 64) _ (motive := fun e : Dev => e.vats = d.vats ∧ ∀ r : RF, r.OffOrphan → e.f r = d.f r) ⟨rfl, fun _ _ => rfl⟩
    fun e he s hs => ?_
  have hs := List.mem_range.mp hs
  exact ⟨(Dev.evtLost_vats e s).trans he.1, fun r hr => ((Dev.keeps_evtLost e) r (hr s hs).1).trans (he.2 r hr)⟩

theorem Dev.evtLostAll_of_none {d : Dev} (h : ∀ i : Fin 64, (d.slices[i]).evtLostRun = 0) : d.evtLostAll = d := by
  unfold Dev.evtLostAll forEach
  refine List.foldlRecOn (List.range 64) _ (motive := fun e : Dev => e = d) rfl fun e he s _ => ?_
  rw [he]
  unfold Dev.evtLost
  dsimp only
  rw [h (sl s)]
  rfl

theorem Answers.of_hostLinkUp {s : State} (hl : Live s) (p : Fin 2) :
    Answers (.hostLinkUp p) s (fun t => t.dev.bit (pathBit p) = true ∧ (∀ v k : Fin 16, t.dev.chan v k = s.dev.chan v k) ∧
      ((∀ i : Fin 64, (s.dev.slices[i]).evtLostRun = 0) → Clean s →
        (∀ r : RF, Apart [(0x20000000, 0x20001000)] r → t.dev.f r = s.dev.f r) ∧ t.dev.vats = s.dev.vats ∧ SameMem s t)) := by
  obtain ⟨hv, hf⟩ := (s.dev.setF (pathBit p) 1).evtLostAll_keeps
  obtain ⟨ha, hlo, hw⟩ := pathBit_fields p
  refine .of_done hl rfl ⟨?_, fun v k => ?_, fun hnone hs => ?_⟩
  · rw [State.commit_bit, Dev.bit_of_f (hf _ (pathBit_offOrphan p))]
    unfold Dev.bit
    rw [Dev.f_setF_same, hw]
    rfl
  · rw [State.commit_chan]
    exact Dev.chan_of_vats hv v k
  · have hsame : (s.dev.setF (pathBit p) 1).evtLostAll = s.dev.setF (pathBit p) 1 := Dev.evtLostAll_of_none hnone
    rw [hsame]
    refine ⟨fun r hr => ?_, State.commit_vats _ _, State.commit_sameMem hs ⟨rfl, rfl, rfl⟩⟩
    obtain ⟨hl, hr⟩ := hr
    rw [State.commit_f]
    refine s.dev.f_setF_off 1 hlo hl fun hc => ?_
    have hout := hr _ (.tail _ (.tail _ (.tail _ (.head _))))
    rw [hc.1, ha] at hout
    exact absurd hout (by decide)

/-! ### A channel takes its slice's policy (R119) -/

section
variable {d : Dev} {v k : Fin 16} {o : Orphan}

/-- The channel once it has taken a policy. -/
def Chan.takes (c : Chan) (o : Orphan) (policy : Nat) : Chan :=
  { c with orphan := some { o with policy := policy, taken := true, shown := true, expireAt := none }
           run := c.run.map (fun r => { r with orphan := true }) }

/-- What a policy does to the channel that leads itself. -/
def Dev.policyActs (d : Dev) (v k : Fin 16) (policy t : Nat) : Dev :=
  match policy with
  | 1 => d.orphanKeep v k false t
  | 2 => d.orphanKeep v k true t
  | _ => d.orphanZero v k t

theorem Dev.takePolicy_due (ho : (d.chan v k).orphan = some o) (hg : (d.chan v k).gang = none) {t : Nat} (hdue : (d.chan v k).orphanDue t = true) :
    d.takePolicy v k t = ((d.modChan v k (fun c => c.takes o (if o.taken then 0 else o.policy))).policyActs v k (if o.taken then 0 else o.policy) t).modHead
      v k (fun e => { e with resv := none }) := by
  have hlead : (d.modChan v k (fun c => c.takes o (if o.taken then 0 else o.policy))).leadOf v k = k :=
    Dev.leadOf_of_none (by rw [Dev.chan_modChan_same]; exact hg)
  unfold Dev.takePolicy
  rw [ho]
  dsimp only
  rw [if_pos hdue]
  refine (if_neg (fun hc => hc hlead)).trans ?_
  generalize (if o.taken then 0 else o.policy) = policy
  match policy with
  | 0 => rfl
  | 1 => rfl
  | 2 => rfl
  | n + 3 => rfl

end

/-- The channel's state, step and completion after RAMP_TO_ZERO. -/
theorem Dev.orphanZero_spec {d : Dev} {v k : Fin 16} {r : Running} (hg : (d.chan v k).gang = none) (hr : (d.chan v k).run = some r)
    (hsingle : r.d.isGang = false) (hst : (d.chan v k).st = .run ∨ (d.chan v k).st = .soft ∨ (d.chan v k).st = .passive) (t : Nat) :
    ((d.orphanZero v k t).chan v k).run = none ∧ (d.orphanZero v k t).Done (d.chan v k).slice (chanNo v k) r.d.tag 0x22 t ∧
    (if (d.chan v k).st = .passive then ((d.orphanZero v k t).chan v k).st = .idle
     else ((d.orphanZero v k t).chan v k).st = .ramp ∧ ((d.orphanZero v k t).chan v k).orphanRate = some (d.chan v k).orphanSlope) := by
  obtain ⟨⟨q, h, hown⟩, -, -, hdone⟩ := Dev.endStepAt_spec hr hsingle 0x22 0 t t none
  have hramp : (d.chan v k).st = .run ∨ (d.chan v k).st = .soft → d.orphanZero v k t = ((d.endStep v k 0x22 0 t).modChan v k (fun c =>
      { c with orphanRate := some (d.chan v k).orphanSlope, toPassive := false, zeroN := 0 })).enter v k .ramp t := by
    intro hs
    unfold Dev.orphanZero Dev.startRamp
    rw [Dev.gangMask_of_none hg, maskList_two_pow]
    dsimp only
    obtain hs | hs := hs <;> rw [hs] <;> rfl
  have hpassive : (d.chan v k).st = .passive → d.orphanZero v k t = (d.endStep v k 0x22 0 t).enterQuiet v k .idle t := by
    intro hs
    unfold Dev.orphanZero
    dsimp only
    rw [hs]
  by_cases hp : (d.chan v k).st = .passive
  · rw [hpassive hp, if_pos hp, Dev.enterQuiet_chan_same, Dev.endStep, hown]
    exact ⟨rfl, Dev.enterQuiet_keepsDone _ v k .idle t _ _ _ _ _ hdone, rfl⟩
  · have hs : (d.chan v k).st = .run ∨ (d.chan v k).st = .soft := hst.imp_right (fun h => h.resolve_right hp)
    rw [hramp hs, if_neg hp, Dev.enter_chan_same, Dev.chan_modChan_same, Dev.endStep, hown]
    exact ⟨rfl, Dev.enter_keepsDone _ v k .ramp t _ _ _ _ _ (Dev.modChan_keepsDone _ v k _ _ _ _ _ _ hdone), rfl, rfl⟩

section
variable {d : Dev} {v k : Fin 16} {o : Orphan} {r : Running}

theorem Dev.orphanPolicy_due (hf : d.fenced v = false) (ho : (d.chan v k).orphan = some o) (hdue : (d.chan v k).orphanDue (d.tick k) = true)
    (hout : d.outstanding v k (d.tick k) = false) (hg : (d.chan v k).gang = none) :
    d.orphanPolicy v k = ((d.modChan v k (fun c => c.takes o (if o.taken then 0 else o.policy))).policyActs v k
      (if o.taken then 0 else o.policy) (d.tick k)).modHead v k (fun e => { e with resv := none }) := by
  unfold Dev.orphanPolicy
  rw [Dev.leadOf_of_none hg, hf, hout]
  exact Dev.takePolicy_due ho hg hdue

/-- The policy that ramps the channel down, at its tick. -/
theorem Dev.orphanPolicy_zero (hf : d.fenced v = false) (ho : (d.chan v k).orphan = some o) (hpol : (if o.taken then 0 else o.policy) = 0)
    (hdue : (d.chan v k).orphanDue (d.tick k) = true) (hout : d.outstanding v k (d.tick k) = false) (hg : (d.chan v k).gang = none)
    (hr : (d.chan v k).run = some r) (hsingle : r.d.isGang = false)
    (hst : (d.chan v k).st = .run ∨ (d.chan v k).st = .soft ∨ (d.chan v k).st = .passive) :
    ((d.orphanPolicy v k).chan v k).run = none ∧ (d.orphanPolicy v k).Done (d.chan v k).slice (chanNo v k) r.d.tag 0x22 (d.tick k) ∧
    (if (d.chan v k).st = .passive then ((d.orphanPolicy v k).chan v k).st = .idle
     else ((d.orphanPolicy v k).chan v k).st = .ramp ∧ ((d.orphanPolicy v k).chan v k).orphanRate = some (d.chan v k).orphanSlope) := by
  rw [Dev.orphanPolicy_due hf ho hdue hout hg, hpol]
  have htakes := Dev.chan_modChan_same d v k (fun c => c.takes o 0)
  have hrun : ((d.modChan v k (fun c => c.takes o 0)).chan v k).run = some { r with orphan := true } := by
    rw [htakes, Chan.takes, hr]
    rfl
  obtain ⟨hend, hdone, hafter⟩ := Dev.orphanZero_spec (d := d.modChan v k (fun c => c.takes o 0)) (by rw [htakes]; exact hg) hrun hsingle
    (by rw [htakes]; exact hst) (d.tick k)
  rw [htakes] at hdone hafter
  rw [Dev.modHead, Dev.chan_modChan_same]
  exact ⟨hend, Dev.modChan_keepsDone _ v k _ _ _ _ _ _ hdone, hafter⟩

theorem Chan.orphanDue_of_new {c : Chan} {t : Nat} (ho : c.orphan = some o) (htaken : o.taken = false) (hsince : o.since < t) :
    c.orphanDue t = true := by
  unfold Chan.orphanDue
  rw [ho]
  dsimp only
  rw [htaken, decide_eq_true hsince]
  rfl

/-- The policies that let the channel go on. -/
theorem Dev.orphanKeep_stays {hold : Bool} (hr : (d.chan v k).run = some r) (hmode : hold = true → r.d.mode ≠ 9)
    (hst : (d.chan v k).st = .run ∨ (d.chan v k).st = .passive) (t : Nat) : d.orphanKeep v k hold t = d := by
  unfold Dev.orphanKeep
  dsimp only
  obtain hst | hst := hst <;> rw [hst]
  rw [hr]
  exact if_neg fun hc => hmode (Bool.and_eq_true_iff.mp hc).1 (beq_iff_eq.mp (Bool.and_eq_true_iff.mp hc).2)

theorem Dev.policyActs_stays (hr : (d.chan v k).run = some r) {policy : Nat} (hpol : policy = 1 ∨ policy = 2) (hmode : policy = 2 → r.d.mode ≠ 9)
    (hst : (d.chan v k).st = .run ∨ (d.chan v k).st = .passive) (t : Nat) : d.policyActs v k policy t = d := by
  obtain rfl | rfl := hpol
  · exact Dev.orphanKeep_stays (hold := false) hr (fun hc => absurd hc (by decide)) hst t
  · exact Dev.orphanKeep_stays hr (fun _ => hmode rfl) hst t

theorem Dev.orphanPolicy_stays (hf : d.fenced v = false) (ho : (d.chan v k).orphan = some o) (htaken : o.taken = false)
    (hpol : o.policy = 1 ∨ o.policy = 2) (hdue : (d.chan v k).orphanDue (d.tick k) = true)
    (hout : d.outstanding v k (d.tick k) = false) (hg : (d.chan v k).gang = none)
    (hr : (d.chan v k).run = some r) (hmode : o.policy = 2 → r.d.mode ≠ 9)
    (hst : (d.chan v k).st = .run ∨ (d.chan v k).st = .passive) :
    d.orphanPolicy v k = (d.modChan v k (fun c => c.takes o o.policy)).modHead v k (fun e => { e with resv := none }) := by
  have hsame : (if o.taken then 0 else o.policy) = o.policy := by rw [htaken]; rfl
  have htakes := Dev.chan_modChan_same d v k (fun c => c.takes o o.policy)
  have hrun : ((d.modChan v k (fun c => c.takes o o.policy)).chan v k).run = some { r with orphan := true } := by
    rw [htakes, Chan.takes, hr]
    rfl
  rw [Dev.orphanPolicy_due hf ho hdue hout hg, hsame, Dev.policyActs_stays hrun hpol hmode (by rw [htakes]; exact hst)]

/-- An orphan of a held set-point that its ORPHAN_MAX has passed takes the ramp at its next tick. -/
def Orphan.expires (o : Orphan) : Orphan := { o with expireAt := some (o.since + 400000 * o.maxMs) }

/-- The channel whose held set-point expires. -/
def Chan.expires (c : Chan) (o : Orphan) : Chan := { c with orphan := some o.expires }

theorem Dev.orphanExpiry_eq (ho : (d.chan v k).orphan = some o) (htaken : o.taken = true) (hpol : o.policy = 2)
    (hnow : o.since + 400000 * o.maxMs ≤ d.now) : d.orphanExpiry v k = (d.modChan v k (fun c => c.expires o)).orphanPolicy v k := by
  unfold Dev.orphanExpiry
  rw [ho]
  dsimp only
  exact if_pos (by rw [htaken, hpol, decide_eq_true hnow]; rfl)

/-- The channel whose orphan state ends. -/
def Chan.freed (c : Chan) (t : Nat) : Chan := { c with orphan := none }.logOrphan t

theorem Dev.orphanRest_none {x t : Nat} (ho : (d.chan v k).orphan = some o) (hend : o.endAt = some x) (hx : x < t) :
    ((d.orphanRest v k t).chan v k).orphan = none := by
  have hfreed : ((d.modChan v k (fun c => c.freed t)).chan v k).orphan = none := by rw [Dev.chan_modChan_same]; rfl
  have hdrop : ((((d.modChan v k (fun c => c.freed t))).dropHead v k 0x37 0 t).chan v k).orphan = none := by
    obtain ⟨q, h, hown⟩ := (Dev.dropHead_queueWork (v := v) (k := k) (d.modChan v k (fun c => c.freed t)) 0x37 0 t).own
    rw [hown]
    exact hfreed
  unfold Dev.orphanRest
  rw [ho]
  dsimp only [Option.bind_some]
  rw [hend]
  dsimp only
  rw [if_pos hx]
  split
  · split
    · split
      · split
        · exact hdrop
        · exact hfreed
      · exact hfreed
    · exact hfreed
  · exact hfreed

end

/-- Settles O16, a link's two edges by what they make of each slice, the policies by what a channel takes at its tick. -/
theorem orphanPoliciesAct : Obligations.OrphanPoliciesAct := by
  refine ⟨fun s p hl h => .of_hostLinkDown hl h, fun s p hl => .of_hostLinkUp hl p, fun s v k o r hl hf ho htaken hsince hout hpol hg hr hsingle hst => ?_,
    fun s v k o r hl hf ho htaken hsince hout hpol hg hr hmode hst => ?_, fun s v k o r hl ho htaken hpol hnow hf htick hout hg hr hsingle hst => ?_,
    fun s v k o x hl ho hend hx hout => ?_⟩
  · have hdue := Chan.orphanDue_of_new ho htaken hsince
    obtain ⟨hrun, hdone, hafter⟩ := Dev.orphanPolicy_zero hf ho (by rw [htaken]; exact hpol) hdue hout hg hr hsingle hst
    refine .of_done hl rfl ?_
    rw [State.commit_chan]
    exact ⟨hrun, State.completed_commit hdone, hafter⟩
  · have hdue := Chan.orphanDue_of_new ho htaken hsince
    refine .of_done hl rfl ?_
    rw [State.commit_chan, Dev.orphanPolicy_stays hf ho htaken hpol hdue hout hg hr hmode hst, Dev.modHead, Dev.chan_modChan_same,
      Dev.chan_modChan_same]
    exact ⟨rfl, rfl, ⟨{ r with orphan := true }, congrArg (Option.map _) hr, rfl⟩, rfl⟩
  · have hchan := Dev.chan_modChan_same s.dev v k (fun c => c.expires o)
    have hdue : ((s.dev.modChan v k (fun c => c.expires o)).chan v k).orphanDue (s.dev.tick k) = true := by
      rw [hchan]
      exact Bool.or_eq_true_iff.mpr (.inr (decide_eq_true htick))
    have hout' : (s.dev.modChan v k (fun c => c.expires o)).outstanding v k (s.dev.tick k) = false := by
      have hsame : (s.dev.modChan v k (fun c => c.expires o)).outstanding v k (s.dev.tick k) = s.dev.outstanding v k (s.dev.tick k) := by
        unfold Dev.outstanding
        rw [hchan]
        rfl
      exact hsame.trans hout
    obtain ⟨hrun, hdone, hafter⟩ := Dev.orphanPolicy_zero (d := s.dev.modChan v k (fun c => c.expires o)) (v := v) (k := k) hf
      (congrArg Chan.orphan hchan) (by rw [Orphan.expires, htaken]; rfl) hdue hout' (by rw [hchan]; exact hg) (by rw [hchan]; exact hr)
      hsingle (.inl (by rw [hchan]; exact hst))
    rw [if_neg (by rw [hchan, Chan.expires, hst]; decide)] at hafter
    rw [hchan] at hdone
    refine .of_done hl rfl ?_
    rw [State.commit_chan]
    have heq := Dev.orphanExpiry_eq ho htaken hpol hnow
    rw [heq]
    exact ⟨hafter.1, hrun, State.completed_commit hdone⟩
  · refine .of_done hl rfl ?_
    rw [State.commit_chan]
    have heq : s.dev.orphanEnd v k = s.dev.orphanRest v k (s.dev.tick k) := if_neg (by rw [hout]; decide)
    rw [heq]
    exact Dev.orphanRest_none ho hend hx

end Sys2Proof.Machine
end

section
/-!
PROOF. The balancer (R125, R128-R131): what a pass over idle queues forms, and how a waiting start ends or is released.
-/

namespace Sys2Proof.Machine
open Sys2Proof

/-! ### A pass (R125, R131) -/

/-- A vat's factors and its net prediction as shown. -/
def Dev.factors (d : Dev) (v : Fin 16) : Nat × Nat × Nat := ((d.vats[v]).sD, (d.vats[v]).sG, d.f (Reg.VAT_BAL_PRED_N v.1))

/-- The factors a pass forms for a vat, and the prediction it shows. -/
def Dev.formed (d : Dev) (pair : Bool) (v : Fin 16) : Nat × Nat × Nat :=
  let p := d.power (fun v' _ => v' == v)
  let f := scalePair pair ((d.vats[v]).sD, (d.vats[v]).sG) (d.f (Reg.VAT_BAL_DRAW_LIMIT v.1)) (d.f (Reg.VAT_BAL_REGEN_LIMIT v.1)) p
  (f.1, f.2, pattern 32 (divT (p.1 + p.2) 1000))

/-- A vat with new factors. -/
def Vat.rescaled (x : Vat) (f : Nat × Nat × Nat) : Vat := { x with sD := f.1, sG := f.2.1 }

/-- One vat's part of the sums. -/
def Dev.scaleVat (pair : Bool) (d : Dev) (v : Fin 16) : Dev :=
  (d.modVat v (fun x => x.rescaled (d.formed pair v))).setF (Reg.VAT_BAL_PRED_N v.1) (d.formed pair v).2.2

/-- One segment's part. -/
def Dev.scaleSeg (pair strict : Bool) (d : Dev) (g : Fin 8) : Dev :=
  let p := d.power (fun v' _ => d.seg v' == g)
  let f := scalePair pair (d.segD[g], d.segG[g]) (d.f (Reg.PWR_SEG_DRAW_LIMIT g.1)) (d.f (Reg.PWR_SEG_REGEN_LIMIT g.1)) p
  (if strict then d else (d.setSegD (put d.segD g f.1)).setSegG (put d.segG g f.2)).setF (Reg.PWR_SEG_PRED_N g.1)
    (pattern 32 (divT (p.1 + p.2) 1000))

/-- One slice's part. -/
def Dev.scaleSlice (pair : Bool) (d : Dev) (s : Fin 64) : Dev :=
  if d.f (Reg.PWR_SLC_DRAW_LIMIT s.1) = 0xFFFFFFFF ∧ d.f (Reg.PWR_SLC_REGEN_LIMIT s.1) = 0xFFFFFFFF then
    (d.setSlcD (put d.slcD s 65536)).setSlcG (put d.slcG s 65536)
  else
    let p := d.power (fun v' k' => (d.chan v' k').owner == some s)
    let f := scalePair pair (d.slcD[s], d.slcG[s]) (d.f (Reg.PWR_SLC_DRAW_LIMIT s.1)) (d.f (Reg.PWR_SLC_REGEN_LIMIT s.1)) p
    ((d.setSlcD (put d.slcD s f.1)).setSlcG (put d.slcG s f.2))

/-- The vats' sums of a pass. -/
def Dev.scaleVats (d : Dev) : Dev := (List.finRange 16).foldl (Dev.scaleVat (d.bit Reg.PWR_BAL_CFG_PAIR)) d

/-- The vats' and the segments' sums. -/
def Dev.scaleSegs (d : Dev) : Dev :=
  (List.finRange 8).foldl (Dev.scaleSeg (d.bit Reg.PWR_BAL_CFG_PAIR) (d.scaleVats.bit Reg.SLICE_MODE_STRICT)) d.scaleVats

theorem Dev.scale_eq (d : Dev) : d.scale = (List.finRange 64).foldl (Dev.scaleSlice (d.bit Reg.PWR_BAL_CFG_PAIR)) d.scaleSegs := rfl

/-- What the sums of a vat read. -/
structure Dev.SameLoads (d e : Dev) : Prop where
  now : e.now = d.now
  chan : ∀ v k : Fin 16, e.chan v k = d.chan v k
  limits : ∀ v : Fin 16, e.f (Reg.VAT_BAL_DRAW_LIMIT v.1) = d.f (Reg.VAT_BAL_DRAW_LIMIT v.1) ∧
    e.f (Reg.VAT_BAL_REGEN_LIMIT v.1) = d.f (Reg.VAT_BAL_REGEN_LIMIT v.1)

theorem Dev.SameLoads.power {d e : Dev} (h : Dev.SameLoads d e) (F : Fin 16 → Fin 16 → Bool) : e.power F = d.power F := by
  unfold Dev.power Dev.periodStart
  simp only [h.now, h.chan]

theorem Dev.chan_scaleVat (pair : Bool) (d : Dev) (v v' k' : Fin 16) : (Dev.scaleVat pair d v).chan v' k' = d.chan v' k' :=
  Dev.chan_modVat d v v' k' (g := fun x => x.rescaled (d.formed pair v)) (fun _ => rfl)

theorem Dev.SameLoads.scaleVat {d e : Dev} (h : Dev.SameLoads d e) (pair : Bool) (v : Fin 16) : Dev.SameLoads d (Dev.scaleVat pair e v) := by
  refine ⟨h.now, fun v' k' => (Dev.chan_scaleVat pair e v v' k').trans (h.chan v' k'), fun v' => ⟨?_, ?_⟩⟩
  · refine (Dev.f_setF_off _ _ (Nat.le_of_ble_eq_true rfl) (Nat.le_of_ble_eq_true rfl) ?_).trans (h.limits v').1
    simp only [Reg.VAT_BAL_DRAW_LIMIT, Reg.VAT_BAL_DRAW_at, Reg.VAT_BAL_PRED_N, Reg.VAT_BAL_PRED_at]
    omega
  · refine (Dev.f_setF_off _ _ (Nat.le_of_ble_eq_true rfl) (Nat.le_of_ble_eq_true rfl) ?_).trans (h.limits v').2
    simp only [Reg.VAT_BAL_REGEN_LIMIT, Reg.VAT_BAL_REGEN_at, Reg.VAT_BAL_PRED_N, Reg.VAT_BAL_PRED_at]
    omega

theorem pattern_mod (w : Nat) (x : Int) : pattern w x % 2 ^ w = pattern w x := by
  have hpos : (0 : Int) < 2 ^ w := by positivity
  refine Nat.mod_eq_of_lt ?_
  unfold pattern
  zify
  rw [Int.toNat_of_nonneg (Int.emod_nonneg _ hpos.ne')]
  exact Int.emod_lt_of_pos _ hpos

theorem Dev.factors_scaleVat (pair : Bool) (e : Dev) (v : Fin 16) : (Dev.scaleVat pair e v).factors v = e.formed pair v := by
  refine congrArg₂ Prod.mk ?_ (congrArg₂ Prod.mk ?_ ?_)
  · exact congrArg Vat.sD (Dev.vats_modVat_same e v (fun x => x.rescaled (e.formed pair v)))
  · exact congrArg Vat.sG (Dev.vats_modVat_same e v (fun x => x.rescaled (e.formed pair v)))
  · exact (Dev.f_setF_same _ _ _).trans (pattern_mod 32 _)

theorem Dev.factors_scaleVat_ne (pair : Bool) (e : Dev) {v v' : Fin 16} (h : v' ≠ v) : (Dev.scaleVat pair e v).factors v' = e.factors v' := by
  refine congrArg₂ Prod.mk ?_ (congrArg₂ Prod.mk ?_ ?_)
  · exact congrArg Vat.sD (Dev.vats_modVat_ne e (Ne.symm h) (fun x => x.rescaled (e.formed pair v)))
  · exact congrArg Vat.sG (Dev.vats_modVat_ne e (Ne.symm h) (fun x => x.rescaled (e.formed pair v)))
  · refine Dev.f_setF_off _ _ (Nat.le_of_ble_eq_true rfl) (Nat.le_of_ble_eq_true rfl) ?_
    simp only [Reg.VAT_BAL_PRED_N, Reg.VAT_BAL_PRED_at]
    omega

/-- The vats' sums, each vat's by itself. -/
theorem Dev.factors_scaleVats (d : Dev) (v : Fin 16) : d.scaleVats.factors v = d.formed (d.bit Reg.PWR_BAL_CFG_PAIR) v := by
  have hcell := foldl_cell (I := Dev.SameLoads d) (F := Dev.scaleVat (d.bit Reg.PWR_BAL_CFG_PAIR)) (rd := Dev.factors)
    (G := fun v x => ((scalePair (d.bit Reg.PWR_BAL_CFG_PAIR) (x.1, x.2.1) (d.f (Reg.VAT_BAL_DRAW_LIMIT v.1)) (d.f (Reg.VAT_BAL_REGEN_LIMIT v.1))
        (d.power (fun v' _ => v' == v))).1, (scalePair (d.bit Reg.PWR_BAL_CFG_PAIR) (x.1, x.2.1) (d.f (Reg.VAT_BAL_DRAW_LIMIT v.1))
        (d.f (Reg.VAT_BAL_REGEN_LIMIT v.1)) (d.power (fun v' _ => v' == v))).2,
      pattern 32 (divT ((d.power (fun v' _ => v' == v)).1 + (d.power (fun v' _ => v' == v)).2) 1000)))
    (fun e a he => he.scaleVat _ a)
    (fun e a he => by
      rw [Dev.factors_scaleVat, Dev.formed, he.power, (he.limits a).1, (he.limits a).2]
      rfl)
    (fun e a b _ hne => Dev.factors_scaleVat_ne _ e hne)
    v (List.finRange 16) (List.nodup_finRange 16) d ⟨rfl, fun _ _ => rfl, fun _ => ⟨rfl, rfl⟩⟩
  exact hcell.trans (if_pos (List.mem_finRange v))

/-- From `d` to `e` the vats and their predictions stay. -/
structure Dev.KeepsFactors (d e : Dev) : Prop where
  vats : e.vats = d.vats
  pred : ∀ v : Fin 16, e.f (Reg.VAT_BAL_PRED_N v.1) = d.f (Reg.VAT_BAL_PRED_N v.1)

theorem Dev.KeepsFactors.refl (d : Dev) : Dev.KeepsFactors d d := ⟨rfl, fun _ => rfl⟩

section
variable {d e : Dev} (h : Dev.KeepsFactors d e)
include h

theorem Dev.KeepsFactors.factors (v : Fin 16) : e.factors v = d.factors v :=
  congrArg₂ Prod.mk (congrArg (fun x => Vat.sD x[v]) h.vats) (congrArg₂ Prod.mk (congrArg (fun x => Vat.sG x[v]) h.vats) (h.pred v))

theorem Dev.KeepsFactors.setF {r : RF} (hl : r.lo < 32) (hne : ∀ v : Nat, r.addr ≠ Reg.VAT_BAL_PRED_at v) (x : Nat) : Dev.KeepsFactors d (e.setF r x) :=
  ⟨h.vats, fun v => (e.f_setF_off x hl (Nat.le_of_ble_eq_true rfl) (fun hc => hne v.1 hc.1.symm)).trans (h.pred v)⟩

theorem Dev.KeepsFactors.raise {r : RF} (hl : r.lo < 32) (hne : ∀ v : Nat, r.addr ≠ Reg.VAT_BAL_PRED_at v) (m : Nat) {i : Nat} (hi : i < 4096) :
    Dev.KeepsFactors d (e.raise r m i) :=
  ⟨(e.raise_vats r m i).trans h.vats, fun v => (e.f_raise_off m hi (Nat.le_of_ble_eq_true rfl) hl
    (.inr (by simp only [Reg.VAT_BAL_PRED_N, Reg.VAT_BAL_PRED_at]; omega)) (fun hc => hne v.1 hc.1.symm)).trans (h.pred v)⟩

theorem Dev.KeepsFactors.scaleSeg (pair strict : Bool) (g : Fin 8) : Dev.KeepsFactors d (Dev.scaleSeg pair strict e g) := by
  refine Dev.KeepsFactors.setF ?_ (Nat.le_of_ble_eq_true rfl) (fun v => ?_) _
  · split
    · exact h
    · exact ⟨h.vats, h.pred⟩
  · simp only [Reg.PWR_SEG_PRED_N, Reg.PWR_SEG_PRED_at, Reg.VAT_BAL_PRED_at]
    omega

theorem Dev.KeepsFactors.scaleSlice (pair : Bool) (n : Fin 64) : Dev.KeepsFactors d (Dev.scaleSlice pair e n) := by
  unfold Dev.scaleSlice
  split <;> exact ⟨h.vats, h.pred⟩

theorem Dev.KeepsFactors.scaleStat (v : Fin 16) : Dev.KeepsFactors d (Dev.scaleStat e v) := by
  have hstat : ∀ u : Nat, Reg.VAT_BAL_STAT_at v.1 ≠ Reg.VAT_BAL_PRED_at u := fun u => by
    simp only [Reg.VAT_BAL_STAT_at, Reg.VAT_BAL_PRED_at]
    omega
  have hevt : ∀ u : Nat, Reg.VAT_BAL_EVT_at v.1 ≠ Reg.VAT_BAL_PRED_at u := fun u => by
    simp only [Reg.VAT_BAL_EVT_at, Reg.VAT_BAL_PRED_at]
    omega
  have hsrc : v.1 < 4096 := v.2.trans (by decide)
  have hset : ∀ x b c, Dev.KeepsFactors d (((e.setF (Reg.VAT_BAL_STAT_SD v.1) x).setB (Reg.VAT_BAL_STAT_BROWN v.1) b).setB (Reg.VAT_BAL_STAT_LIMIT v.1) c) :=
    fun x b c => ((h.setF (Nat.le_of_ble_eq_true rfl) hstat x).setF (Nat.le_of_ble_eq_true rfl) hstat _).setF (Nat.le_of_ble_eq_true rfl) hstat _
  have hraise : ∀ {g : Dev} (c : Prop) [Decidable c] (r : RF), r.addr = Reg.VAT_BAL_EVT_at v.1 → r.lo < 32 → Dev.KeepsFactors d g →
      Dev.KeepsFactors d (if c then g.raise r 1 v.1 else g) := by
    intro g c _ r ha hl hg
    split
    · exact hg.raise hl (fun u => ha ▸ hevt u) 1 hsrc
    · exact hg
  unfold Dev.scaleStat
  extract_lets up b f brown lim wasB wasL d1 d2 d3
  exact hraise _ _ rfl (Nat.le_of_ble_eq_true rfl) (hraise _ _ rfl (Nat.le_of_ble_eq_true rfl) (hset _ _ _))

end

/-- The scale factors of a pass and what it shows of them. -/
def Dev.scaled (d : Dev) : Dev := (List.finRange 16).foldl Dev.scaleStat d.scale

theorem Dev.scaled_keeps (d : Dev) : Dev.KeepsFactors d.scaleVats d.scaled := by
  have hsegs : Dev.KeepsFactors d.scaleVats d.scaleSegs :=
    List.foldlRecOn _ _ (motive := Dev.KeepsFactors d.scaleVats) (.refl _) fun _ he g _ => he.scaleSeg _ _ g
  have hscale : Dev.KeepsFactors d.scaleVats d.scale := by
    rw [Dev.scale_eq]
    exact List.foldlRecOn _ _ (motive := Dev.KeepsFactors d.scaleVats) hsegs fun _ he n _ => he.scaleSlice _ n
  exact List.foldlRecOn _ _ (motive := Dev.KeepsFactors d.scaleVats) hscale fun _ he v _ => he.scaleStat v

theorem Dev.chan_scaled (d : Dev) (v k : Fin 16) : d.scaled.chan v k = d.chan v k :=
  (Dev.chan_of_vats d.scaled_keeps.vats v k).trans
    (List.foldlRecOn (List.finRange 16) _ (motive := fun e : Dev => e.chan v k = d.chan v k) rfl
      fun e he u _ => (Dev.chan_scaleVat _ e u v k).trans he)

/-- A pass of a device that queues nothing forms the factors and does no more. -/
theorem Dev.balancerPass_of_empty {d : Dev} (hp : d.passAt ≠ some d.periodStart) (hs : d.settledAt d.periodStart = true)
    (hq : ∀ v k : Fin 16, (d.chan v k).queue = []) (tb : Fin 16 → Nat → Tuning) : d.balancerPass tb = (d.setPassAt (some d.periodStart)).scaled := by
  have hnone : ∀ v k : Fin 16, ((d.setPassAt (some d.periodStart)).scaled.chan v k).queue = [] := fun v k => by
    rw [Dev.chan_scaled]
    exact hq v k
  have hfold : ∀ e : Dev, (∀ v k : Fin 16, (e.chan v k).queue = []) → foldScope (fun _ _ => true) e
      (fun e v k => ((e.syncPending v k).holdStopping v k (d.periodStart + 25 * k.1)).armAgain v k) = e := by
    intro e he
    refine List.foldlRecOn _ _ (motive := fun g : Dev => g = e) rfl fun g hg v _ => ?_
    refine List.foldlRecOn _ _ (motive := fun g : Dev => g = e) hg fun g hg k _ => ?_
    have h1 : e.syncPending v k = e := by unfold Dev.syncPending; dsimp only; rw [he v k]
    have h2 : e.holdStopping v k (d.periodStart + 25 * k.1) = e := by unfold Dev.holdStopping; dsimp only; rw [he v k]
    have h3 : e.armAgain v k = e := by unfold Dev.armAgain; dsimp only; rw [he v k]
    rw [hg, if_pos rfl]
    dsimp only
    rw [h1, h2, h3]
  have hpending : (d.setPassAt (some d.periodStart)).scaled.pendingStarts = [] := by
    unfold Dev.pendingStarts
    refine List.foldlRecOn _ _ (motive := fun x => x = []) rfl fun x hx v _ => ?_
    refine List.foldlRecOn _ _ (motive := fun x => x = []) hx fun x hx k _ => ?_
    rw [if_pos rfl]
    dsimp only
    rw [hnone v k]
    exact hx
  have hpass : ¬(d.passAt = some d.periodStart ∨ (!d.settledAt d.periodStart) = true) := by
    rw [hs]
    exact fun hc => hc.elim hp (by decide)
  unfold Dev.balancerPass
  dsimp only
  rw [if_neg hpass]
  have hsame := hfold _ hnone
  unfold Dev.scaled at hsame hpending
  rw [hsame, hpending, List.foldl_nil]
  rfl

/-! ### Starts that wait (R110, R128-R130) -/

section
variable {d : Dev} {v k : Fin 16} {e : QEntry} {rest : List QEntry}

theorem Dev.budgetTimeout_eq {t0 : Nat} (hq : (d.chan v k).queue = e :: rest) (hd : e.deferAt = some t0) (hr : e.resv = none)
    (ht : t0 + 400000 * d.f (Reg.VAT_BAL_HOLD_LIMIT v.1) < d.now) : d.budgetTimeout v k = d.dropHead v k 0x34 0 d.now := by
  unfold Dev.budgetTimeout
  rw [hq]
  dsimp only
  rw [hd]
  exact if_pos (by rw [hr, decide_eq_true ht]; rfl)

theorem Dev.budgetRefused_eq {i : Nat} (hq : (d.chan v k).queue = e :: rest) (hs : e.startAt = some i) (hr : e.resv = none) (hh : e.heldAt = none)
    (hi : i < d.now / 400 * 400 + (if d.passAt = some (d.now / 400 * 400) then 400 else 0) + 400 * (d.f (Reg.VAT_LOOP_CFG_ARM_TO v.1) + 5)) :
    d.budgetRefused v k = d.dropHead v k 0x35 0 d.now := by
  unfold Dev.budgetRefused Dev.periodStart Dev.armMargin
  rw [hq]
  dsimp only
  rw [hs]
  refine if_pos ?_
  rw [hr, hh]
  refine Bool.and_eq_true_iff.mpr ⟨rfl, decide_eq_true ?_⟩
  by_cases hp : d.passAt = some (d.now / 400 * 400)
  · rwa [if_pos hp] at hi ⊢
  · rw [if_neg hp, Nat.add_zero] at hi
    rw [if_neg hp]
    exact hi

/-- The tests a waiting start passes at its instant, before its own. -/
theorem Dev.syncStart_due {tb : Nat → Tuning} {i : Nat} (hq : (d.chan v k).queue = e :: rest) (hs : e.startAt = some i) (hl : e.late = false)
    (h1 : i ≤ d.tick k) (h2 : d.tick k < i + 400) (hr : e.resv.isSome = true) (hh : e.heldAt = none) (hrun : (d.chan v k).run = none)
    (ho : (d.chan v k).orphan = none) (hstop : (d.chan v k).stopReq = []) (hf : d.fenced v = false) (hg : e.d.isGang = false)
    (hst : (d.chan v k).st = .idle) :
    d.syncStart tb v k = if d.klatch v k then (d.unarm v k (d.tick k)).dropHead v k 0x30 0 (d.tick k) else d.startHead tb v k (d.tick k) := by
  have hresv : e.resv.isNone = false := by cases h : e.resv with
    | none => rw [h] at hr; exact absurd hr (by decide)
    | some x => rfl
  unfold Dev.syncStart
  dsimp only
  rw [hq]
  dsimp only
  rw [hs]
  dsimp only
  rw [hl, if_neg Bool.false_ne_true, hresv, hh, hrun, ho, hf, hstop, decide_eq_true h1, decide_eq_true h2, Dev.gangBusy_of_single hg,
    Desc.channels_of_not_gang hg, List.any_cons, List.any_cons, hst]
  cases d.klatch v k <;> rfl

theorem Dev.unarm_of_idle (hq : (d.chan v k).queue = e :: rest) (hg : e.d.isGang = false) (hst : (d.chan v k).st = .idle) (t : Nat) :
    d.unarm v k t = d.withdrawKclr v 0 := by
  unfold Dev.unarm
  rw [hq]
  dsimp only
  rw [Desc.channels_of_not_gang hg, List.filter_singleton, hst]
  rfl

end

/-- Settles O19, a pass over idle queues by its sums alone, the ends of a waiting start by what they drop or run. -/
theorem balancerFormsFactorsAndStarts : Obligations.BalancerFormsFactorsAndStarts := by
  refine ⟨fun s hl hp hset hq => ?_, fun s v k e rest t0 hl hq hd hr ht => ?_, fun s v k e rest i hl hq hs hr hh hi => ?_,
    fun s v k e i hl hc hh hs hlate h1 h2 => ?_, fun s v k e rest i hl hq hs hlate h1 h2 hr hh hrun ho hstop hf hg hst hk => ?_⟩
  · refine .of_done hl rfl ?_
    have heq := Dev.balancerPass_of_empty hp hset hq s.tuning
    refine ⟨fun v => ?_, fun v k => ?_⟩
    · rw [State.commit_f, State.commit_vats, heq]
      have hfac : (s.dev.setPassAt (some s.dev.periodStart)).scaled.factors v = s.dev.formed (s.dev.bit Reg.PWR_BAL_CFG_PAIR) v :=
        ((s.dev.setPassAt (some s.dev.periodStart)).scaled_keeps.factors v).trans (Dev.factors_scaleVats _ v)
      obtain ⟨hD, hG, hN⟩ := Prod.mk.inj (hfac.trans (Dev.formed.eq_1 _ _ v)) |>.imp_right Prod.mk.inj
      exact ⟨hD, hG, hN⟩
    · rw [State.commit_chan, heq]
      exact Dev.chan_scaled (s.dev.setPassAt (some s.dev.periodStart)) v k
  · refine .of_done hl rfl ?_
    rw [Dev.budgetTimeout_eq hq hd hr ht]
    exact State.completed_commit (Dev.dropHead_done hq 0x34 0 _)
  · refine .of_done hl rfl ?_
    rw [Dev.budgetRefused_eq hq hs hr hh hi]
    exact State.completed_commit (Dev.dropHead_done hq 0x35 0 _)
  · have hstart := Dev.startHead_started (Dev.mayStart_of_canStart hc)
    obtain ⟨hq, hst, hrun, ho, hg, hr, -, -, hk, -, -, hf, -, hstop, -⟩ := hc
    refine .of_done hl rfl (State.started_commit ?_)
    rw [Dev.syncStart_due hq hs hlate h1 h2 hr hh hrun ho hstop hf hg hst, hk]
    exact hstart
  · refine .of_done hl rfl ?_
    rw [Dev.syncStart_due hq hs hlate h1 h2 hr hh hrun ho hstop hf hg hst, if_pos hk, Dev.unarm_of_idle hq hg hst]
    have hsame : (s.dev.withdrawKclr v 0).chan v k = s.dev.chan v k := Dev.chan_modLane _ _ _ _ _
    have hdone := Dev.dropHead_done (d := s.dev.withdrawKclr v 0) (v := v) (k := k) (by rw [hsame]; exact hq) 0x30 0 (s.dev.tick k)
    rw [hsame] at hdone
    exact State.completed_commit hdone

end Sys2Proof.Machine
end

section
/-!
PROOF. Doorbells and the mirror (R145-R147): what a value that passes its test moves, and what another one counts.
-/

namespace Sys2Proof.Machine
open Sys2Proof

section
variable {d e : Dev} {i : Fin 64}

theorem Dev.StillSlices.cmdPi (h : Dev.StillSlices d e) (i : Fin 64) : (e.slices[i]).cmdPi = (d.slices[i]).cmdPi := by
  have hstill : (e.slices[i]).still.cmdPi = (d.slices[i]).still.cmdPi := congrArg SliceEng.cmdPi (h i)
  exact hstill

theorem Dev.StillSlices.ci (h : Dev.StillSlices d e) (i : Fin 64) : (e.slices[i]).ci = (d.slices[i]).ci := by
  have hstill : (e.slices[i]).still.ci = (d.slices[i]).still.ci := congrArg SliceEng.ci (h i)
  exact hstill

theorem Dev.StillSlices.wdogAt (h : Dev.StillSlices d e) (i : Fin 64) : (e.slices[i]).wdogAt = (d.slices[i]).wdogAt := by
  have hstill : (e.slices[i]).still.wdogAt = (d.slices[i]).still.wdogAt := congrArg SliceEng.wdogAt (h i)
  exact hstill

theorem Dev.ringCi_eq (d : Dev) (i : Fin 64) (r : Fin 8) : d.ringCi i.1 r = (d.slices[i]).ci[r] :=
  congrArg (fun x : SliceEng => x.ci[r]) (d.slices_sl i)

theorem Reg.db_err_offEvents (i : Fin 64) : (Reg.SLC_DB_ERR_COUNT i.1).OffEvents i.1 := by
  unfold RF.OffEvents
  simp only [Reg.SLC_DB_ERR_COUNT, Reg.SLC_DB_ERR_at, Reg.SLICE_EVT_at, Reg.DPL_PI_at, Reg.DPL_STAT_at, Reg.SLC_RING_STAT_at, Reg.SLC_EVT_LOST_at]
  omega

/-- A value that fails its test is counted and reported; the slice's indices and watchdog stay. -/
theorem Dev.dbErr_spec (d : Dev) (i : Fin 64) (off x : Nat) : Dev.StillSlices d (d.dbErr i.1 off x) ∧
    (d.dbErr i.1 off x).f (Reg.SLC_DB_ERR_COUNT i.1) =
      min (2 ^ (Reg.SLC_DB_ERR_COUNT i.1).w - 1) (d.f (Reg.SLC_DB_ERR_COUNT i.1) + 1) := by
  refine ⟨(Dev.StillSlices.of_slices (e := d.bump (Reg.SLC_DB_ERR_COUNT i.1)) rfl).trans (Dev.still_eventAt _ i.1 _ _ _ _ _), ?_⟩
  exact (Dev.keeps_eventAt _ _ _ _ _ _ _ (Reg.db_err_offEvents i)).trans (Dev.f_bump_same _ _ 1)

/-! ### A judged value -/

theorem Dev.cmdPiOk_iff (d : Dev) (i : Fin 64) (p : Nat) : d.cmdPiOk i.1 p = true ↔
    0 ≤ sdiff32 p (d.slices[i]).cmdPi ∧ 0 ≤ sdiff32 p (d.slices[i]).ci[(0 : Fin 8)] ∧
      sdiff32 p (d.slices[i]).ci[(0 : Fin 8)] ≤ (2 ^ d.f (Reg.SLC_RING_CFG_LOG2 i.1 0) : Nat) := by
  have hpi : (d.slices[sl i.1]).cmdPi = (d.slices[i]).cmdPi := congrArg SliceEng.cmdPi (d.slices_sl i)
  unfold Dev.cmdPiOk
  rw [hpi, Dev.ringCi_eq, Bool.and_eq_true_iff, Bool.and_eq_true_iff, decide_eq_true_iff, decide_eq_true_iff, decide_eq_true_iff, and_assoc]
  exact Iff.rfl

/-- A slice's engine with a new producer index of its command ring, or consumer index of another one, and its watchdog restarted. -/
def SliceEng.rung (e : SliceEng) (p now : Nat) : SliceEng := { { e with cmdPi := p % 2 ^ 32 } with wdogAt := now }

theorem Dev.slices_kickWdog (d : Dev) (i : Fin 64) : (d.kickWdog i.1).slices[i] = { d.slices[i] with wdogAt := d.now } := by
  unfold Dev.kickWdog
  rw [sl_val, Dev.slices_modSlice_same]

theorem Dev.takeCmdPi_ok (h : d.cmdPiOk i.1 p = true) : (d.takeCmdPi i.1 p).slices[i] = (d.slices[i]).rung p d.now ∧
    ∀ r : RF, (d.takeCmdPi i.1 p).f r = d.f r := by
  have heq : d.takeCmdPi i.1 p = (d.modSlice (sl i.1) (fun e => { e with cmdPi := p % 2 ^ 32 })).kickWdog i.1 := if_pos h
  rw [heq]
  refine ⟨?_, fun _ => rfl⟩
  rw [Dev.slices_kickWdog, sl_val, Dev.slices_modSlice_same]
  rfl

theorem Dev.takeCmdPi_refused (h : d.cmdPiOk i.1 p ≠ true) : d.takeCmdPi i.1 p = d.dbErr i.1 0 p := if_neg h

theorem Dev.consumerOk_iff (d : Dev) (i : Fin 64) (r : Fin 8) (c : Nat) : consumerOk (d.ringPi i.1 r) (d.ringCi i.1 r) c = true ↔
    0 ≤ sdiff32 c (d.slices[i]).ci[r] ∧ 0 ≤ sdiff32 (d.slices[i]).pi[r] c := by
  unfold consumerOk
  rw [Dev.ringPi_eq, Dev.ringCi_eq, Bool.and_eq_true_iff, decide_eq_true_iff, decide_eq_true_iff]

theorem Dev.takeConsumer_ok {r : Fin 8} {off c : Nat} (h : consumerOk (d.ringPi i.1 r) (d.ringCi i.1 r) c = true) :
    ((d.takeConsumer i.1 r off c).slices[i]).ci[r] = c % 2 ^ 32 ∧ ((d.takeConsumer i.1 r off c).slices[i]).wdogAt = d.now := by
  obtain ⟨m, hm⟩ : ∃ m, m = d.modSlice (sl i.1) (fun e => { e with ci := put e.ci r (c % 2 ^ 32) }) := ⟨_, rfl⟩
  have hci : (m.slices[i]).ci[r] = c % 2 ^ 32 := by
    rw [hm, sl_val, Dev.slices_modSlice_same]
    exact getElem_put_same _ _ _
  have heq : d.takeConsumer i.1 r off c = (if r = 2 then (m.evtFull i.1).evtLost i.1 else m).kickWdog i.1 := by
    rw [hm]
    exact if_pos h
  have hstill : Dev.StillSlices m (if r = 2 then (m.evtFull i.1).evtLost i.1 else m) :=
    .ite ((Dev.StillSlices.of_slices (e := m.evtFull i.1) rfl).trans (Dev.still_evtLost _ i.1)) (.refl m)
  have hnow : (if r = 2 then (m.evtFull i.1).evtLost i.1 else m).now = d.now := by
    have hm' : m.now = d.now := by rw [hm]; rfl
    split
    · exact (Dev.evtLost_work _ i.2).now.trans hm'
    · exact hm'
  rw [heq, Dev.slices_kickWdog, hnow]
  refine ⟨?_, rfl⟩
  have hsame := congrArg (fun x => x[r]) (hstill.ci i)
  exact hsame.trans hci

theorem Dev.takeConsumer_refused {r : Fin 8} {off c : Nat} (h : consumerOk (d.ringPi i.1 r) (d.ringCi i.1 r) c ≠ true) :
    d.takeConsumer i.1 r off c = d.dbErr i.1 off c := if_neg h

end

/-! ### Accesses to a doorbell page -/

section
variable {d : Dev} {port : Fin 2} {i : Fin 64} (hw : d.sup.warm = none) (hp : d.f (Reg.PWR_QTAG_STATE (36 + port.1)) = 0)
include hw hp

theorem Dev.doorAccess_eq (off : Nat) (op : DoorOp) : d.doorAccess port i off op =
    if 0x20 ≤ off ∨ off % 4 ≠ 0 ∨ doorSize op ≠ 4 then (d.bump (Reg.SLC_DB_ERR_COUNT i.1)).answer 0
    else match op with
      | .write _ x => d.doorbell port i off x.toNat
      | .read _ => d.answer (d.doorbellValue i off) := by
  unfold Dev.doorAccess
  rw [hw, hp]
  rfl

theorem Dev.doorAccess_write (r : Fin 8) (w : Word) : d.doorAccess port i (4 * r.1) (.write 4 w) = d.doorbell port i (4 * r.1) w.toNat := by
  rw [Dev.doorAccess_eq hw hp]
  refine if_neg ?_
  simp only [doorSize]
  omega

theorem Dev.doorAccess_read (r : Fin 8) : d.doorAccess port i (4 * r.1) (.read 4) = d.answer (d.doorbellValue i (4 * r.1)) := by
  rw [Dev.doorAccess_eq hw hp]
  refine if_neg ?_
  simp only [doorSize]
  omega

theorem Dev.doorAccess_bad {off : Nat} {op : DoorOp} (h : 0x20 ≤ off ∨ off % 4 ≠ 0 ∨ doorSize op ≠ 4) :
    d.doorAccess port i off op = (d.bump (Reg.SLC_DB_ERR_COUNT i.1)).answer 0 := by
  rw [Dev.doorAccess_eq hw hp]
  exact if_pos h

end

/-- The ring that a doorbell's offset names. -/
theorem ringOf_mul (r : Fin 8) : (⟨4 * r.1 / 4 % 8, Nat.mod_lt _ (by decide)⟩ : Fin 8) = r := Fin.ext (by dsimp only; omega)

theorem Dev.doorbellValue_eq (d : Dev) (i : Fin 64) (r : Fin 8) :
    d.doorbellValue i (4 * r.1) = if r = 0 then (d.slices[i]).cmdPi else (d.slices[i]).ci[r] := by
  unfold Dev.doorbellValue
  dsimp only
  by_cases h : r = 0
  · subst h
    rfl
  · have hne : 4 * r.1 ≠ 0 := fun hc => h (Fin.ext (by simpa using hc))
    rw [if_neg hne, if_neg h]
    exact congrArg (fun j : Fin 8 => (d.slices[i]).ci[j]) (ringOf_mul r)

/-- A doorbell write that reaches its slice: the command ring's, and another ring's. -/
theorem DoorbellReaches.doorbell {s : State} {port : Fin 2} {i : Fin 64} (h : DoorbellReaches s port i) (r : Fin 8) (x : Nat) :
    s.dev.doorbell port i (4 * r.1) x = if r = 0 then (if s.dev.bit (Reg.SLC_RING_CFG_EN i.1 0) then s.dev.takeCmdPi i.1 x else s.dev.dbErr i.1 0 x)
      else s.dev.takeConsumer i.1 r (4 * r.1) x := by
  obtain ⟨-, -, -, hst, hsrc, hloc⟩ := h
  unfold Dev.doorbell
  dsimp only
  rw [hst, if_neg (by decide), hsrc, if_neg Bool.false_ne_true, if_neg (fun hc => hc.2 hloc)]
  by_cases hr : r = 0
  · subst hr
    rfl
  · have hne : 4 * r.1 ≠ 0 := fun hc => hr (Fin.ext (by simpa using hc))
    rw [if_neg hne, if_neg hr]
    exact congrArg (fun j : Fin 8 => s.dev.takeConsumer i.1 j (4 * r.1) x) (ringOf_mul r)

theorem doorSize_bad {op : DoorOp} (h : ∀ w : Word, op ≠ .write 4 w ∧ op ≠ .read 4) : doorSize op ≠ 4 := by
  intro hc
  match op with
  | .write n w => exact (h w).1 (congrArg (DoorOp.write · w) hc)
  | .read n => exact (h 0).2 (congrArg DoorOp.read hc)

/-! ### The mirror (R146) -/

/-- A mirror's word that a slice already holds changes nothing. -/
theorem Dev.mirrorWord_same {d : Dev} {i : Fin 64} {r : Fin 8} {x : Nat} (h : x = if r = 0 then (d.slices[i]).cmdPi else (d.slices[i]).ci[r]) :
    d.mirrorWord i r x = d := if_pos h

/-- A new word of an enabled command ring is judged as a doorbell's value. -/
theorem Dev.mirrorWord_cmdPi {d : Dev} {i : Fin 64} {x : Nat} (hx : x ≠ (d.slices[i]).cmdPi) (hst : d.f (Reg.SLC_STATE_STATE i.1) = 1)
    (hen : d.bit (Reg.SLC_RING_CFG_EN i.1 0) = true) (hok : d.cmdPiOk i.1 x = true) :
    ((d.mirrorWord i 0 x).slices[i]).cmdPi = x % 2 ^ 32 ∧ ((d.mirrorWord i 0 x).slices[i]).ci = (d.slices[i]).ci := by
  obtain ⟨hslice, -⟩ := Dev.takeCmdPi_ok hok
  have heq : d.mirrorWord i 0 x = (d.takeCmdPi i.1 x).modSlice i (fun e => { e with wdogAt := (d.slices[i]).wdogAt }) := by
    unfold Dev.mirrorWord
    dsimp only
    rw [if_pos rfl, if_neg hx, hst, if_neg (by decide), if_pos rfl, if_pos hen]
  rw [heq, Dev.slices_modSlice_same, hslice]
  exact ⟨rfl, rfl⟩

theorem Dev.mirrorFold {d : Dev} {i : Fin 64} {xs : List Nat} (hx : xs.getD 0 0 ≠ (d.slices[i]).cmdPi) (hst : d.f (Reg.SLC_STATE_STATE i.1) = 1)
    (hen : d.bit (Reg.SLC_RING_CFG_EN i.1 0) = true) (hok : d.cmdPiOk i.1 (xs.getD 0 0) = true)
    (hrest : ∀ r : Fin 8, r ≠ 0 → xs.getD r.1 0 = (d.slices[i]).ci[r]) :
    (List.finRange 8).foldl (fun d r => d.mirrorWord i r (xs.getD r.1 0)) d = d.mirrorWord i 0 (xs.getD 0 0) := by
  have hci := (Dev.mirrorWord_cmdPi hx hst hen hok).2
  rw [List.finRange_succ, List.foldl_cons]
  refine List.foldlRecOn _ _ (motive := fun e : Dev => e = d.mirrorWord i 0 (xs.getD 0 0)) rfl fun e he r hr => ?_
  obtain ⟨q, -, rfl⟩ := List.mem_map.mp hr
  have hne : q.succ ≠ 0 := Fin.succ_ne_zero q
  rw [he]
  refine Dev.mirrorWord_same ?_
  rw [if_neg hne, hci]
  exact hrest _ hne

theorem Dev.takeCmdPi_spec (d : Dev) (i : Fin 64) (w : Word) :
    if 0 ≤ sdiff32 w.toNat (d.slices[i]).cmdPi ∧ 0 ≤ sdiff32 w.toNat (d.slices[i]).ci[(0 : Fin 8)] ∧
        sdiff32 w.toNat (d.slices[i]).ci[(0 : Fin 8)] ≤ (2 ^ d.f (Reg.SLC_RING_CFG_LOG2 i.1 0) : Nat) then
      ((d.takeCmdPi i.1 w.toNat).slices[i]).cmdPi = w.toNat ∧ ((d.takeCmdPi i.1 w.toNat).slices[i]).wdogAt = d.now ∧
        (d.takeCmdPi i.1 w.toNat).f (Reg.SLC_DB_ERR_COUNT i.1) = d.f (Reg.SLC_DB_ERR_COUNT i.1)
    else ((d.takeCmdPi i.1 w.toNat).slices[i]).cmdPi = (d.slices[i]).cmdPi ∧ ((d.takeCmdPi i.1 w.toNat).slices[i]).wdogAt = (d.slices[i]).wdogAt ∧
      (d.takeCmdPi i.1 w.toNat).f (Reg.SLC_DB_ERR_COUNT i.1) = min (2 ^ (Reg.SLC_DB_ERR_COUNT i.1).w - 1) (d.f (Reg.SLC_DB_ERR_COUNT i.1) + 1) := by
  by_cases hok : d.cmdPiOk i.1 w.toNat = true
  · obtain ⟨hslice, hf⟩ := Dev.takeCmdPi_ok hok
    have hmod : w.toNat % 2 ^ 32 = w.toNat := Nat.mod_eq_of_lt w.isLt
    rw [if_pos ((d.cmdPiOk_iff i _).mp hok), hslice, hf]
    exact ⟨hmod, rfl, rfl⟩
  · rw [if_neg (fun hc => hok ((d.cmdPiOk_iff i _).mpr hc)), Dev.takeCmdPi_refused hok]
    obtain ⟨hstill, hcount⟩ := d.dbErr_spec i 0 w.toNat
    exact ⟨hstill.cmdPi i, hstill.wdogAt i, hcount⟩

theorem Dev.takeConsumer_spec (d : Dev) (i : Fin 64) (r : Fin 8) (off : Nat) (w : Word) :
    if 0 ≤ sdiff32 w.toNat (d.slices[i]).ci[r] ∧ 0 ≤ sdiff32 (d.slices[i]).pi[r] w.toNat then
      ((d.takeConsumer i.1 r off w.toNat).slices[i]).ci[r] = w.toNat ∧ ((d.takeConsumer i.1 r off w.toNat).slices[i]).wdogAt = d.now
    else ((d.takeConsumer i.1 r off w.toNat).slices[i]).ci[r] = (d.slices[i]).ci[r] ∧
      (d.takeConsumer i.1 r off w.toNat).f (Reg.SLC_DB_ERR_COUNT i.1) =
        min (2 ^ (Reg.SLC_DB_ERR_COUNT i.1).w - 1) (d.f (Reg.SLC_DB_ERR_COUNT i.1) + 1) := by
  by_cases hok : consumerOk (d.ringPi i.1 r) (d.ringCi i.1 r) w.toNat = true
  · obtain ⟨hci, hwdog⟩ := Dev.takeConsumer_ok (off := off) hok
    have hmod : w.toNat % 2 ^ 32 = w.toNat := Nat.mod_eq_of_lt w.isLt
    rw [if_pos ((d.consumerOk_iff i r _).mp hok), hci]
    exact ⟨hmod, hwdog⟩
  · rw [if_neg (fun hc => hok ((d.consumerOk_iff i r _).mpr hc)), Dev.takeConsumer_refused hok]
    obtain ⟨hstill, hcount⟩ := d.dbErr_spec i off w.toNat
    exact ⟨congrArg (fun x => x[r]) (hstill.ci i), hcount⟩

/-- A poll that finds one new word, of the command ring, judges it and remembers the words read. -/
theorem State.mirrorPoll_cmdPi {s : State} {i : Fin 64} (hw : s.dev.sup.warm = none) (hsrc : s.dev.bit (Reg.SLC_RING_CTL_DBSRC i.1) = true)
    (hst : s.dev.f (Reg.SLC_STATE_STATE i.1) = 1) (hdue : s.dev.pollDue i = true) {addr : Nat}
    (ha : addr = s.dev.f64 (Reg.SLC_MIRROR_LO_ADDR i.1) (Reg.SLC_MIRROR_HI_ADDR i.1))
    (hopen : s.dev.localOpen 8 i.1 .read addr 32 = true) {xs : List Nat} (hxs : xs = (List.range 8).map (fun n => s.memWord (addr + 4 * n) 4))
    (hfold : (List.finRange 8).foldl (fun d r => d.mirrorWord i r (xs.getD r.1 0)) s.dev = s.dev.mirrorWord i 0 (xs.getD 0 0)) :
    ((s.mirrorPoll i).slices[i]).cmdPi = ((s.dev.mirrorWord i 0 (xs.getD 0 0)).slices[i]).cmdPi ∧ ((s.mirrorPoll i).slices[i]).mirror = xs := by
  subst hxs ha
  have hreach : s.dev.reach 8 i.1 .read (s.dev.f64 (Reg.SLC_MIRROR_LO_ADDR i.1) (Reg.SLC_MIRROR_HI_ADDR i.1)) 32 = .opened := beq_iff_eq.mp hopen
  unfold State.mirrorPoll
  dsimp only
  rw [hsrc, hst, hw, hdue, if_neg (by decide), hreach]
  dsimp only
  rw [hfold]
  split
  · rw [Dev.slices_modSlice_same]
    exact ⟨rfl, rfl⟩
  · rw [Dev.slices_kickWdog, Dev.slices_modSlice_same]
    exact ⟨rfl, rfl⟩

theorem ofLeBytes_lt : ∀ bs : List Byte, ofLeBytes bs < 256 ^ bs.length
  | [] => by decide
  | b :: bs => by
    have hb : b.toNat < 256 := b.isLt
    have hbs := ofLeBytes_lt bs
    rw [ofLeBytes, List.length_cons, Nat.pow_succ]
    omega

theorem State.memWord_lt (s : State) (key : Nat) : s.memWord key 4 < 2 ^ 32 := by
  have hlt := ofLeBytes_lt (Mem.reads s.mem s.dev.ep key 4)
  have hlen : (Mem.reads s.mem s.dev.ep key 4).length = 4 := rfl
  rw [hlen] at hlt
  exact hlt.trans_le (by norm_num)

/-- Settles O21, each doorbell by the test of its value, the mirror by its one new word. -/
theorem doorbellsMoveIndices : Obligations.DoorbellsMoveIndices := by
  refine ⟨fun s port i w h hen => ?_, fun s port i r w h hr => ?_, fun s port i r hl hw hp => ?_, fun s port i off op hl hw hp hbad => ?_,
    fun s i hl hw hsrc hst hen => ?_⟩
  · have hdoor : s.dev.doorAccess port i 0 (.write 4 w) = s.dev.takeCmdPi i.1 w.toNat := by
      refine (Dev.doorAccess_write h.2.1 h.2.2.1 0 w).trans ((h.doorbell 0 w.toNat).trans ?_)
      rw [if_pos rfl, if_pos hen]
    refine .of_done h.1 (congrArg s.done hdoor) ?_
    rw [State.commit_f]
    exact s.dev.takeCmdPi_spec i w
  · have hdoor : s.dev.doorAccess port i (4 * r.1) (.write 4 w) = s.dev.takeConsumer i.1 r (4 * r.1) w.toNat := by
      refine (Dev.doorAccess_write h.2.1 h.2.2.1 r w).trans ((h.doorbell r w.toNat).trans ?_)
      rw [if_neg hr]
    refine .of_done h.1 (congrArg s.done hdoor) ?_
    rw [State.commit_f]
    exact s.dev.takeConsumer_spec i r _ w
  · have hread := Dev.doorAccess_read (i := i) hw hp r
    rw [Dev.doorbellValue_eq] at hread
    by_cases hr : r = 0
    · subst hr
      exact .of_done hl (congrArg s.done hread) ⟨rfl, rfl⟩
    · rw [if_neg hr] at hread ⊢
      refine .of_done hl (congrArg s.done hread) ⟨?_, rfl⟩
      rw [if_neg hr]
      rfl
  · have hsize : 0x20 ≤ off ∨ off % 4 ≠ 0 ∨ doorSize op ≠ 4 := hbad.imp_right (fun h => h.imp_right doorSize_bad)
    exact .of_done hl (congrArg s.done (Dev.doorAccess_bad hw hp hsize)) ⟨rfl, rfl, Dev.f_bump_same _ _ 1⟩
  · intro addr xs hopen hrest hnew hdue hok
    have hr : ∀ r : Fin 8, r ≠ 0 → xs.getD r.1 0 = (s.dev.slices[i]).ci[r] := fun r hne => by
      rw [← hrest r hne]
      have hlt : r.1 < ((List.range 8).map (fun n => s.memWord (addr + 4 * n) 4)).length := by
        rw [List.length_map, List.length_range]
        exact r.2
      refine (List.getD_eq_getElem _ _ hlt).trans ?_
      rw [List.getElem_map, List.getElem_range]
    have hword := s.memWord_lt addr
    obtain ⟨hpoll, hmirror⟩ := State.mirrorPoll_cmdPi hw hsrc hst hdue rfl hopen (xs := xs) rfl (Dev.mirrorFold hnew hst hen hok hr)
    refine .of_done hl rfl ⟨?_, hmirror⟩
    exact hpoll.trans ((Dev.mirrorWord_cmdPi (d := s.dev) (i := i) hnew hst hen hok).1.trans (Nat.mod_eq_of_lt hword))

end Sys2Proof.Machine
end

section
/-!
PROOF. Descriptors on arrival (R148-R154): the tests of fetching, and what each operation does to its channel's queue and completions.
-/

namespace Sys2Proof.Machine
open Sys2Proof

/-! ### Consumer indices stay -/

/-- From `d` to `e` every ring's consumer index stays. -/
def Dev.KeepsCi (d e : Dev) : Prop := ∀ i : Fin 64, (e.slices[i]).ci = (d.slices[i]).ci

section
variable {d e g : Dev}

theorem Dev.KeepsCi.of_still (h : Dev.StillSlices d e) : Dev.KeepsCi d e := h.ci

theorem Dev.KeepsCi.of_slices (h : e.slices = d.slices) : Dev.KeepsCi d e := .of_still (.of_slices h)

theorem Dev.KeepsCi.refl (d : Dev) : Dev.KeepsCi d d := fun _ => rfl

theorem Dev.KeepsCi.trans (h : Dev.KeepsCi d e) (h' : Dev.KeepsCi e g) : Dev.KeepsCi d g := fun i => (h' i).trans (h i)

theorem Dev.KeepsCi.ite {c : Prop} [Decidable c] {a b : Dev} (ha : Dev.KeepsCi d a) (hb : Dev.KeepsCi d b) : Dev.KeepsCi d (if c then a else b) := by
  split <;> assumption

theorem Dev.KeepsCi.modSlice (h : Dev.KeepsCi d e) (i : Fin 64) {f : SliceEng → SliceEng} (hf : ∀ x, (f x).ci = x.ci) : Dev.KeepsCi d (e.modSlice i f) := by
  refine h.trans fun j => ?_
  rw [Dev.slices_modSlice]
  split
  next hij => subst hij; exact hf _
  next => rfl

theorem Dev.KeepsCi.eventAt (h : Dev.KeepsCi d e) (s ty : Nat) (ch : Option Nat) (info data ts : Nat) :
    Dev.KeepsCi d (e.eventAt s ty ch info data ts) := h.trans (.of_still (Dev.still_eventAt e s ty ch info data ts))

theorem Dev.KeepsCi.setF (h : Dev.KeepsCi d e) (r : RF) (x : Nat) : Dev.KeepsCi d (e.setF r x) := h

theorem Dev.KeepsCi.modChan (h : Dev.KeepsCi d e) (v k : Fin 16) (f : Chan → Chan) : Dev.KeepsCi d (e.modChan v k f) := h

theorem Dev.KeepsCi.holdCmps (h : Dev.KeepsCi d e) (s : Nat) : Dev.KeepsCi d (e.holdCmps s) := by
  have hmap : Dev.KeepsCi d (e.modSlice (sl s) (fun x => { x with cmps := x.cmps.map Cmp.buffered })) := h.modSlice _ fun _ => rfl
  unfold Dev.holdCmps
  dsimp only
  exact .ite hmap ((hmap.setF _ _).eventAt s 0x05 none 0 _ _)

theorem Dev.KeepsCi.addCmp (h : Dev.KeepsCi d e) (s : Nat) (c : Cmp) : Dev.KeepsCi d (e.addCmp s c) := by
  have hins : Dev.KeepsCi d (e.modSlice (sl s) (fun x => { x with cmps := insertCmp c x.cmps })) := h.modSlice _ fun _ => rfl
  rw [Dev.addCmp_eq]
  exact .ite hins (hins.holdCmps s)

theorem Dev.KeepsCi.dropEntry (h : Dev.KeepsCi d e) (v k : Fin 16) (x : QEntry) (status info t : Nat) :
    Dev.KeepsCi d (e.dropEntry v k x status info t) := h.addCmp _ _

theorem Dev.KeepsCi.dropQueue (h : Dev.KeepsCi d e) (v k : Fin 16) (status t : Nat) : Dev.KeepsCi d (e.dropQueue v k status t) :=
  (List.foldlRecOn (e.chan v k).queue (fun d e => d.dropEntry v k e status 0 t) (motive := Dev.KeepsCi d) h
    fun _ hg x _ => hg.dropEntry v k x status 0 t).modChan v k _

theorem Dev.KeepsCi.haltIf (h : Dev.KeepsCi d e) (v k : Fin 16) (x : Desc) (status t : Nat) : Dev.KeepsCi d (e.haltIf v k x status t) :=
  .ite (((h.dropQueue v k 0x3A t).modChan v k (fun c => { c with halt := true })).eventAt _ 0x09 _ 0 x.tag t) h

theorem Dev.KeepsCi.settle {v k : Fin 16} {t : Nat} : ∀ {n : Nat} {e : Dev}, Dev.KeepsCi d e → Dev.KeepsCi d (e.settle v k t n)
  | 0, _, h => h
  | n + 1, e, h => by
    unfold Dev.settle
    dsimp only
    split
    · exact h
    next x rest _ =>
      have hdrop : Dev.KeepsCi d ((e.modChan v k (fun c => { c with queue := rest })).dropEntry v k x 0 0 t) :=
        (h.modChan v k _).dropEntry v k x 0 0 t
      exact .ite hdrop.settle (.ite (h.modChan v k _) h)

theorem Dev.KeepsCi.enterQuiet (h : Dev.KeepsCi d e) (v k : Fin 16) (st : ChSt) (t : Nat) : Dev.KeepsCi d (e.enterQuiet v k st t) := by
  have hset : Dev.KeepsCi d (e.modChan v k (fun c => { c with st := st, stAt := t, was := c.st })) := h.modChan v k _
  unfold Dev.enterQuiet Dev.enter
  dsimp only
  refine Dev.KeepsCi.modChan ?_ v k _
  split
  · exact .ite (hset.eventAt _ 0x01 _ _ _ t) hset
  · exact hset

theorem Dev.KeepsCi.unarm (h : Dev.KeepsCi d e) (v k : Fin 16) (t : Nat) : Dev.KeepsCi d (e.unarm v k t) := by
  unfold Dev.unarm
  split
  · exact List.foldlRecOn _ _ (motive := Dev.KeepsCi d) h fun e hg m _ => hg.enterQuiet v m .idle t
  · exact h

end

/-! ### A completion made at fetch (R153, R156) -/

/-- The completion of a descriptor that ends at fetch. -/
def Desc.atOnce (x : Desc) (status t : Nat) : Cmp :=
  { x.unstarted status 0 t false false false with cflags := (x.unstarted status 0 t false false false).cflags &&& 0x3FF }

section
variable {d e : Dev} {i : Fin 64} {x : Desc}

theorem Dev.atFetch_eq (d : Dev) (i : Fin 64) (x : Desc) (status : Nat) : d.atFetch i x status =
    if (d.addCmp i.1 (x.atOnce status d.now)).holdsCh i x.ch then
      (d.addCmp i.1 (x.atOnce status d.now)).haltIf (chV x.ch) (chK x.ch) x status (d.addCmp i.1 (x.atOnce status d.now)).now
    else d.addCmp i.1 (x.atOnce status d.now) := rfl

theorem Dev.KeepsCi.atFetch (h : Dev.KeepsCi d e) (i : Fin 64) (x : Desc) (status : Nat) : Dev.KeepsCi d (e.atFetch i x status) := by
  have hadd := h.addCmp i.1 (x.atOnce status e.now)
  rw [Dev.atFetch_eq]
  exact .ite (hadd.haltIf _ _ x status _) hadd

theorem Dev.atFetch_done (d : Dev) (i : Fin 64) (x : Desc) (status : Nat) : (d.atFetch i x status).Done i.1 x.ch x.tag status d.now := by
  have hadd : (d.addCmp i.1 (x.atOnce status d.now)).Done i.1 x.ch x.tag status d.now := d.addCmp_done i.1 (x.atOnce status d.now)
  rw [Dev.atFetch_eq]
  split
  · exact (Dev.haltIf_queueWork (v := chV x.ch) (k := chK x.ch) _ x status _).done _ _ _ _ _ hadd
  · exact hadd

/-- A completion without a failure changes no channel. -/
theorem Dev.atFetch_vats {status : Nat} (h : failing status = false) : (d.atFetch i x status).vats = d.vats := by
  have hnone : ∀ (e : Dev) (v k : Fin 16) (t : Nat), e.haltIf v k x status t = e := fun e v k t => if_neg (by rw [h]; exact Bool.false_ne_true)
  rw [Dev.atFetch_eq, hnone, ite_self]
  exact d.addCmp_vats _ _

theorem Dev.atFetch_keepsDone (d : Dev) (i : Fin 64) (x : Desc) (status : Nat) : Dev.KeepsDone d (d.atFetch i x status) := by
  have hadd := d.addCmp_keepsDone i.1 (x.atOnce status d.now)
  rw [Dev.atFetch_eq]
  exact .ite (hadd.trans (Dev.haltIf_queueWork (v := chV x.ch) (k := chK x.ch) _ x status _).done) hadd

end

/-! ### A queue flushed (R152) -/

section
variable {v k : Fin 16}

/-- Every entry of a queue that is dropped leaves its completion. -/
theorem Dev.dropEntries_done (status t n : Nat) : ∀ (l : List QEntry) (d : Dev), (d.chan v k).slice = n → ∀ e ∈ l,
    (l.foldl (fun d e => d.dropEntry v k e status 0 t) d).Done n e.d.ch e.d.tag status t
  | [], _, _, _, he => absurd he List.not_mem_nil
  | x :: l, d, hs, e, he => by
    have hvats : (d.dropEntry v k x status 0 t).vats = d.vats := d.addCmp_vats _ _
    have hslice : ((d.dropEntry v k x status 0 t).chan v k).slice = n := by
      rw [Dev.chan_of_vats hvats]
      exact hs
    rw [List.foldl_cons]
    obtain rfl | he := List.mem_cons.mp he
    · have hdone := d.dropEntry_done (v := v) (k := k) e status 0 t
      rw [hs] at hdone
      exact (Dev.dropEntries_queueWork (v := v) (k := k) status t l _).done _ _ _ _ _ hdone
    · exact Dev.dropEntries_done status t n l _ hslice e he

/-- Withdrawing an arming leaves every queue and owner. -/
theorem Dev.unarm_keeps (d : Dev) (v k : Fin 16) (t : Nat) (v' k' : Fin 16) :
    ((d.unarm v k t).chan v' k').queue = (d.chan v' k').queue ∧ ((d.unarm v k t).chan v' k').owner = (d.chan v' k').owner := by
  unfold Dev.unarm
  split
  · refine List.foldlRecOn _ _ (motive := fun e : Dev => (e.chan v' k').queue = (d.chan v' k').queue ∧ (e.chan v' k').owner = (d.chan v' k').owner)
      ?_ fun e he m _ => ?_
    · have hsame : ∀ n : Nat, (d.withdrawKclr v n).chan v' k' = d.chan v' k' := fun n => Dev.chan_modLane _ _ _ _ _
      rw [hsame]
      exact ⟨rfl, rfl⟩
    · by_cases hc : (v', k') = (v, m)
      · obtain ⟨rfl, rfl⟩ := Prod.mk.inj hc
        rw [Dev.enterQuiet_chan_same]
        exact he
      · rw [Dev.enterQuiet_chan_ne _ _ _ _ _ hc]
        exact he
  · exact ⟨rfl, rfl⟩

theorem Dev.flushQueue_spec (d : Dev) (v k : Fin 16) (t : Nat) : ((d.flushQueue v k t).chan v k).queue = [] ∧
    (∀ e ∈ (d.chan v k).queue, (d.flushQueue v k t).Done (d.chan v k).slice e.d.ch e.d.tag 0x3A t) ∧ Dev.KeepsCi d (d.flushQueue v k t) ∧
    (d.flushQueue v k t).now = d.now := by
  obtain ⟨m, hm⟩ : ∃ m, m = if (d.chan v k).run.isNone then d.unarm v k t else d := ⟨_, rfl⟩
  have hkeeps : (m.chan v k).queue = (d.chan v k).queue ∧ (m.chan v k).owner = (d.chan v k).owner := by
    rw [hm]
    split
    · exact d.unarm_keeps v k t v k
    · exact ⟨rfl, rfl⟩
  have hci : Dev.KeepsCi d m := by
    rw [hm]
    exact .ite ((Dev.KeepsCi.refl d).unarm v k t) (.refl d)
  have hnow : m.now = d.now := by
    rw [hm]
    split
    · exact (d.unarm_work v k t).now
    · rfl
  have hslice : (m.chan v k).slice = (d.chan v k).slice := by
    unfold Chan.slice
    rw [hkeeps.2]
  have heq : d.flushQueue v k t = m.dropQueue v k 0x3A t := by
    rw [hm]
    rfl
  rw [heq]
  refine ⟨?_, fun e he => ?_, hci.dropQueue v k 0x3A t, ?_⟩
  · unfold Dev.dropQueue
    rw [Dev.chan_modChan_same]
  · exact Dev.modChan_keepsDone _ v k _ _ _ _ _ _ (Dev.dropEntries_done 0x3A t _ _ m hslice e (hkeeps.1 ▸ he))
  · exact (m.dropQueue_work v k 0x3A t).now.trans hnow

end

/-! ### Fetching (R148, R153, R154) -/

section
variable {s : State} {i : Fin 64} {ws : List Word}

/-- A slice's engine once its next descriptor is taken. -/
def SliceEng.consumed (e : SliceEng) : SliceEng := { e with stallAt := none, ci := put e.ci 0 ((e.ci[(0 : Fin 8)] + 1) % 2 ^ 32) }

/-- The descriptor is taken off its ring: the consumer index moves on and the stall is over. -/
def Dev.consume (d : Dev) (i : Fin 64) : Dev :=
  ((d.modSlice i SliceEng.consumed).setF (Reg.SLC_RING_STAT_CMD_STALL i.1) 0).signal i.1 none

theorem Dev.consume_vats (d : Dev) (i : Fin 64) : (d.consume i).vats = d.vats := rfl

theorem Dev.consume_ci (d : Dev) (i : Fin 64) : ((d.consume i).slices[i]).ci[(0 : Fin 8)] = ((d.slices[i]).ci[(0 : Fin 8)] + 1) % 2 ^ 32 := by
  have hsignal : Dev.KeepsCi ((d.modSlice i SliceEng.consumed).setF (Reg.SLC_RING_STAT_CMD_STALL i.1) 0) (d.consume i) :=
    (Dev.KeepsCi.refl _).modSlice _ fun _ => rfl
  have hslice : ((d.modSlice i SliceEng.consumed).slices[i]).ci = (d.slices[i]).consumed.ci := by rw [Dev.slices_modSlice_same]
  rw [hsignal i]
  exact (congrArg (fun x => x[(0 : Fin 8)]) hslice).trans (getElem_put_same _ _ _)

/-- A slice's engine whose next descriptor finds no room. -/
def SliceEng.stalled (e : SliceEng) (now : Nat) : SliceEng := { e with stallAt := some (e.stallAt.getD now) }

/-- The descriptor stays at the head of the ring, and the stall is noted. -/
def Dev.stall (d : Dev) (i : Fin 64) : Dev := d.modSlice i (fun e => e.stalled d.now)

theorem Dev.take_consumes {d : Dev} {x : Desc} (h : (d.fetchStatus i x).isSome = true ∨ ¬(x.op = 1 ∨ x.op = 5) ∨
    (d.chan (chV x.ch) (chK x.ch)).halt = true ∨ d.slots i x.ch < 8) :
    d.take i x = match d.fetchStatus i x with
      | some st => (d.consume i).atFetch i x st
      | none => (d.consume i).arrive i x := by
  refine if_neg fun hc => ?_
  rw [Bool.and_eq_true_iff, Bool.and_eq_true_iff, Bool.and_eq_true_iff, Bool.or_eq_true_iff, beq_iff_eq, beq_iff_eq] at hc
  obtain ⟨⟨⟨h1, h2⟩, h3⟩, h4⟩ := hc
  obtain h | h | h | h := h
  · cases hst : d.fetchStatus i x with
    | none => rw [hst] at h; exact absurd h (by decide)
    | some st => rw [hst] at h1; exact absurd h1 Bool.false_ne_true
  · exact h h2
  · rw [h] at h3; exact absurd h3 (by decide)
  · exact absurd (of_decide_eq_true h4) (by omega)

theorem State.fetch_eq {isOp : Nat → Bool} (hr : s.dev.fetchRuns i = true) (ho : s.dev.fetchReach i = .opened) (hh : s.ringHolds i ws = true)
    (hop : isOp (Desc.ofWords ws).op = true) : s.fetch i ws isOp = s.dev.take i (Desc.ofWords ws) := by
  unfold State.fetch
  dsimp only
  rw [if_pos hr, ho]
  exact if_pos (by rw [hh, hop]; rfl)

/-- A fetched descriptor that nothing keeps back arrives. -/
theorem Fetches.arrives {isOp : Nat → Bool} (h : Fetches s i ws) (hop : isOp (Desc.ofWords ws).op = true)
    (hroom : ¬((Desc.ofWords ws).op = 1 ∨ (Desc.ofWords ws).op = 5) ∨ s.dev.slots i (Desc.ofWords ws).ch < 8) :
    s.fetch i ws isOp = (s.dev.consume i).arrive i (Desc.ofWords ws) := by
  obtain ⟨-, hr, ho, hh, hst⟩ := h
  rw [State.fetch_eq hr ho hh hop, Dev.take_consumes (.inr (hroom.imp_right .inr)), hst]

/-- An operation on a channel passes the tests of fetching only if the slice holds the channel. -/
theorem Fetches.slice (h : Fetches s i ws) (hop : (Desc.ofWords ws).op ≠ 0) :
    (s.dev.chan (chV (Desc.ofWords ws).ch) (chK (Desc.ofWords ws).ch)).slice = i.1 := by
  obtain ⟨-, -, -, -, hst⟩ := h
  have howns : s.dev.holdsCh i (Desc.ofWords ws).ch = true := by
    by_contra hc
    unfold Dev.fetchStatus at hst
    dsimp only at hst
    split at hst
    · exact absurd hst (by decide)
    · rw [if_pos ⟨hop, by rw [Bool.not_eq_true] at hc; rw [hc]; rfl⟩] at hst
      exact absurd hst (by decide)
  unfold Chan.slice
  rw [beq_iff_eq.mp howns]
  rfl

theorem State.consumed_commit {d : Dev} (h : Dev.KeepsCi (s.dev.consume i) d) : Consumed s (s.commit d) i :=
  (congrArg (fun x => x[(0 : Fin 8)]) (h i)).trans (s.dev.consume_ci i)

theorem State.otherChans_commit {d : Dev} {v k : Fin 16} (h : ∀ v' k' : Fin 16, (v', k') ≠ (v, k) → d.chan v' k' = s.dev.chan v' k') :
    OtherChans s (s.commit d) v k := fun v' k' hne => (s.commit_chan d v' k').trans (h v' k' hne)

end

/-! ### What each operation does (R152) -/

section
variable {d : Dev} {i : Fin 64} {x : Desc}

/-- A step or a mark that may queue joins its channel's queue. -/
theorem Dev.arrive_queues (hop : x.op = 1 ∨ x.op = 5) (hh : (d.chan (chV x.ch) (chK x.ch)).halt = false) : d.arrive i x =
    (d.modChan (chV x.ch) (chK x.ch) (fun c => { c with queue := c.queue ++ [{ d := x }] })).settle (chV x.ch) (chK x.ch) d.now 9 := by
  unfold Dev.arrive
  dsimp only
  obtain hop | hop := hop
  · rw [hop]
    exact if_neg (by rw [hh]; exact Bool.false_ne_true)
  · rw [hop]
    exact if_neg (by rw [hh]; exact Bool.false_ne_true)

theorem Dev.arrive_stops (hop : x.op = 2 ∨ x.op = 4) : d.arrive i x =
    d.modChan (chV x.ch) (chK x.ch) (fun c => { c with stopReq := c.stopReq ++ [x] }) := by
  unfold Dev.arrive
  dsimp only
  obtain hop | hop := hop <;> rw [hop] <;> rfl

end

section
variable {v k : Fin 16}

/-- The entry at the head of a queue, a step's, is noted as such and stays. -/
theorem Dev.settle_step {d : Dev} {e : QEntry} {rest : List QEntry} (hq : (d.chan v k).queue = e :: rest) (hop : e.d.op ≠ 5) (t n : Nat) :
    d.settle v k t (n + 1) = if e.headAt.isNone then d.modChan v k (fun c => { c with queue := { e with headAt := some t } :: rest }) else d := by
  unfold Dev.settle
  dsimp only
  rw [hq]
  dsimp only
  rw [if_neg (fun hc => hop hc.1)]

/-- A mark alone in the queue of a channel at rest completes at once. -/
theorem Dev.settle_mark {d : Dev} {e : QEntry} (hq : (d.chan v k).queue = [e]) (hop : e.d.op = 5) (hr : (d.chan v k).run = none) (t n : Nat) :
    d.settle v k t (n + 1) = (d.modChan v k (fun c => { c with queue := [] })).dropEntry v k e 0 0 t := by
  have hdrop : (((d.modChan v k (fun c => { c with queue := [] })).dropEntry v k e 0 0 t).chan v k).queue = [] := by
    have hvats : ((d.modChan v k (fun c => { c with queue := [] })).dropEntry v k e 0 0 t).vats = (d.modChan v k (fun c => { c with queue := [] })).vats :=
      Dev.addCmp_vats _ _ _
    rw [Dev.chan_of_vats hvats, Dev.chan_modChan_same]
  unfold Dev.settle
  dsimp only
  rw [hq]
  dsimp only
  rw [if_pos ⟨hop, by rw [hr]; rfl⟩, Dev.settle_of_empty hdrop]

end

section
variable {s : State} {i : Fin 64} {ws : List Word}

theorem Answers.of_nop (h : Fetches s i ws) (hop : (Desc.ofWords ws).op = 0) :
    Answers (.nop i ws) s (fun t => Consumed s t i ∧ Completed t i.1 (Desc.ofWords ws).ch (Desc.ofWords ws).tag 0 s.dev.now ∧
      ∀ v k : Fin 16, t.dev.chan v k = s.dev.chan v k) := by
  have heq : s.fetch i ws (· == 0) = (s.dev.consume i).atFetch i (Desc.ofWords ws) 0 := by
    rw [h.arrives (isOp := (· == 0)) (beq_iff_eq.mpr hop) (.inl (by omega)), Dev.arrive, hop]
    rfl
  refine .of_done h.1 (congrArg s.done heq) ⟨State.consumed_commit ((Dev.KeepsCi.refl _).atFetch i _ 0),
    State.completed_commit (Dev.atFetch_done _ i _ 0), fun v k => ?_⟩
  rw [State.commit_chan]
  exact Dev.chan_of_vats (Dev.atFetch_vats rfl) v k

theorem Answers.of_step (h : Fetches s i ws) (hop : (Desc.ofWords ws).op = 1) {v k : Fin 16} (hv : v = chV (Desc.ofWords ws).ch)
    (hk : k = chK (Desc.ofWords ws).ch) (hh : (s.dev.chan v k).halt = false) (hroom : s.dev.slots i (Desc.ofWords ws).ch < 8) :
    Answers (.step i ws) s (fun t => Consumed s t i ∧
      ((s.dev.chan v k).queue = [] → (t.dev.chan v k).queue = [{ d := Desc.ofWords ws, headAt := some s.dev.now }]) ∧
      (∀ e rest, (s.dev.chan v k).queue = e :: rest → e.d.op ≠ 5 → e.headAt.isSome = true →
        (t.dev.chan v k).queue = (e :: rest) ++ [{ d := Desc.ofWords ws }]) ∧ OtherChans s t v k) := by
  subst hv hk
  obtain ⟨m, hm⟩ : ∃ m, m = (s.dev.consume i).modChan (chV (Desc.ofWords ws).ch) (chK (Desc.ofWords ws).ch)
    (fun c => { c with queue := c.queue ++ [{ d := Desc.ofWords ws }] }) := ⟨_, rfl⟩
  have heq : s.fetch i ws (· == 1) = m.settle (chV (Desc.ofWords ws).ch) (chK (Desc.ofWords ws).ch) s.dev.now 9 := by
    rw [h.arrives (isOp := (· == 1)) (beq_iff_eq.mpr hop) (.inr hroom), Dev.arrive_queues (d := s.dev.consume i) (.inl hop) hh, hm]
    rfl
  have hqueue : (m.chan (chV (Desc.ofWords ws).ch) (chK (Desc.ofWords ws).ch)).queue =
      (s.dev.chan (chV (Desc.ofWords ws).ch) (chK (Desc.ofWords ws).ch)).queue ++ [{ d := Desc.ofWords ws }] := by
    rw [hm, Dev.chan_modChan_same]
    rfl
  have hother : ∀ v' k' : Fin 16, (v', k') ≠ (chV (Desc.ofWords ws).ch, chK (Desc.ofWords ws).ch) → m.chan v' k' = s.dev.chan v' k' := by
    intro v' k' hne
    rw [hm]
    exact Dev.chan_modChan_ne _ hne _
  have hci : Dev.KeepsCi (s.dev.consume i) m := by
    rw [hm]
    exact (Dev.KeepsCi.refl _).modChan _ _ _
  refine .of_done h.1 (congrArg s.done heq) ⟨State.consumed_commit hci.settle, fun hq => ?_, fun e rest hq hne hhead => ?_,
    State.otherChans_commit fun v' k' hne => ?_⟩
  · rw [hq, List.nil_append] at hqueue
    rw [State.commit_chan, Dev.settle_step hqueue (by rw [hop]; decide)]
    refine (congrArg (fun e : Dev => (e.chan (chV (Desc.ofWords ws).ch) (chK (Desc.ofWords ws).ch)).queue) (if_pos rfl)).trans ?_
    rw [Dev.chan_modChan_same]
  · rw [hq, List.cons_append] at hqueue
    rw [State.commit_chan, Dev.settle_step hqueue hne, if_neg (by rw [Option.isNone_iff_eq_none]; exact fun hc => by rw [hc] at hhead; exact absurd hhead (by decide))]
    exact hqueue
  · exact ((Dev.settle_queueWork _ 9 m).others v' k' hne).trans (hother v' k' hne)

theorem Answers.of_step_full (h : Fetches s i ws) (hop : (Desc.ofWords ws).op = 1)
    (hh : (s.dev.chan (chV (Desc.ofWords ws).ch) (chK (Desc.ofWords ws).ch)).halt = false) (hroom : 8 ≤ s.dev.slots i (Desc.ofWords ws).ch) :
    Answers (.step i ws) s (fun t => (t.dev.slices[i]).ci = (s.dev.slices[i]).ci ∧ (t.dev.slices[i]).stallAt.isSome = true ∧
      ∀ v k : Fin 16, t.dev.chan v k = s.dev.chan v k) := by
  obtain ⟨hl, hr, ho, hholds, hst⟩ := h
  have heq : s.fetch i ws (· == 1) = s.dev.stall i := by
    rw [State.fetch_eq (isOp := (· == 1)) hr ho hholds (beq_iff_eq.mpr hop)]
    exact if_pos (by rw [hst, hop, hh, decide_eq_true hroom]; rfl)
  have hslice : (s.dev.stall i).slices[i] = (s.dev.slices[i]).stalled s.dev.now := Dev.slices_modSlice_same _ _ _
  have hci : ((s.dev.stall i).slices[i]).ci = (s.dev.slices[i]).ci := by rw [hslice]; rfl
  have hstall : ((s.dev.stall i).slices[i]).stallAt.isSome = true := by rw [hslice]; rfl
  refine .of_done hl (congrArg s.done heq) ⟨hci, hstall, fun v k => ?_⟩
  rw [State.commit_chan]
  rfl

/-- A stop or an abort waits for its channel's tick. -/
theorem Fetches.stops {isOp : Nat → Bool} (h : Fetches s i ws) (hop : (Desc.ofWords ws).op = 2 ∨ (Desc.ofWords ws).op = 4)
    (his : isOp (Desc.ofWords ws).op = true) :
    Consumed s (s.commit (s.fetch i ws isOp)) i ∧
    ((s.commit (s.fetch i ws isOp)).dev.chan (chV (Desc.ofWords ws).ch) (chK (Desc.ofWords ws).ch)).stopReq =
      (s.dev.chan (chV (Desc.ofWords ws).ch) (chK (Desc.ofWords ws).ch)).stopReq ++ [Desc.ofWords ws] ∧
    OtherChans s (s.commit (s.fetch i ws isOp)) (chV (Desc.ofWords ws).ch) (chK (Desc.ofWords ws).ch) := by
  rw [h.arrives his (.inl (by omega)), Dev.arrive_stops hop]
  refine ⟨State.consumed_commit ((Dev.KeepsCi.refl _).modChan _ _ _), ?_, State.otherChans_commit fun v' k' hne => Dev.chan_modChan_ne _ hne _⟩
  rw [State.commit_chan, Dev.chan_modChan_same]
  rfl

theorem Answers.of_flush (h : Fetches s i ws) (hop : (Desc.ofWords ws).op = 3) :
    Answers (.flush i ws) s (fun t => Consumed s t i ∧ (t.dev.chan (chV (Desc.ofWords ws).ch) (chK (Desc.ofWords ws).ch)).queue = [] ∧
      Completed t i.1 (Desc.ofWords ws).ch (Desc.ofWords ws).tag 0 s.dev.now ∧
      ∀ e ∈ (s.dev.chan (chV (Desc.ofWords ws).ch) (chK (Desc.ofWords ws).ch)).queue, Completed t i.1 e.d.ch e.d.tag 0x3A s.dev.now) := by
  obtain ⟨hq, hdone, hci, hnow⟩ := (s.dev.consume i).flushQueue_spec (chV (Desc.ofWords ws).ch) (chK (Desc.ofWords ws).ch) s.dev.now
  have hslice : ((s.dev.consume i).chan (chV (Desc.ofWords ws).ch) (chK (Desc.ofWords ws).ch)).slice = i.1 := h.slice (by omega)
  rw [hslice] at hdone
  have heq : s.fetch i ws (· == 3) =
      ((s.dev.consume i).flushQueue (chV (Desc.ofWords ws).ch) (chK (Desc.ofWords ws).ch) s.dev.now).atFetch i (Desc.ofWords ws) 0 := by
    rw [h.arrives (isOp := (· == 3)) (beq_iff_eq.mpr hop) (.inl (by omega)), Dev.arrive, hop]
    rfl
  have hend := Dev.atFetch_done ((s.dev.consume i).flushQueue (chV (Desc.ofWords ws).ch) (chK (Desc.ofWords ws).ch) s.dev.now) i (Desc.ofWords ws) 0
  rw [hnow] at hend
  refine .of_done h.1 (congrArg s.done heq) ⟨State.consumed_commit (hci.atFetch i _ 0), ?_, State.completed_commit hend,
    fun e he => State.completed_commit (Dev.atFetch_keepsDone _ i _ 0 _ _ _ _ _ (hdone e he))⟩
  rw [State.commit_chan, Dev.chan_of_vats (Dev.atFetch_vats rfl)]
  exact hq

theorem Answers.of_mark (h : Fetches s i ws) (hop : (Desc.ofWords ws).op = 5)
    (hh : (s.dev.chan (chV (Desc.ofWords ws).ch) (chK (Desc.ofWords ws).ch)).halt = false)
    (hr : (s.dev.chan (chV (Desc.ofWords ws).ch) (chK (Desc.ofWords ws).ch)).run = none)
    (hq : (s.dev.chan (chV (Desc.ofWords ws).ch) (chK (Desc.ofWords ws).ch)).queue = []) (hroom : s.dev.slots i (Desc.ofWords ws).ch < 8) :
    Answers (.mark i ws) s (fun t => Consumed s t i ∧ (t.dev.chan (chV (Desc.ofWords ws).ch) (chK (Desc.ofWords ws).ch)).queue = [] ∧
      Completed t i.1 (Desc.ofWords ws).ch (Desc.ofWords ws).tag 0 s.dev.now) := by
  have hslice := h.slice (by omega)
  obtain ⟨v, hv⟩ : ∃ v, v = chV (Desc.ofWords ws).ch := ⟨_, rfl⟩
  obtain ⟨k, hk⟩ : ∃ k, k = chK (Desc.ofWords ws).ch := ⟨_, rfl⟩
  obtain ⟨m, hm⟩ : ∃ m, m = (s.dev.consume i).modChan v k (fun c => { c with queue := c.queue ++ [{ d := Desc.ofWords ws }] }) := ⟨_, rfl⟩
  have hchan : m.chan v k = { s.dev.chan v k with queue := (s.dev.chan v k).queue ++ [{ d := Desc.ofWords ws }] } := by
    rw [hm, Dev.chan_modChan_same]
    rfl
  rw [← hv, ← hk] at hq hr hh hslice ⊢
  have heq : s.fetch i ws (· == 5) = (m.modChan v k (fun c => { c with queue := [] })).dropEntry v k { d := Desc.ofWords ws } 0 0 s.dev.now := by
    have harrive := Dev.arrive_queues (d := s.dev.consume i) (i := i) (x := Desc.ofWords ws) (.inr hop) (by rw [← hv, ← hk]; exact hh)
    rw [← hv, ← hk, ← hm] at harrive
    rw [h.arrives (isOp := (· == 5)) (beq_iff_eq.mpr hop) (.inr hroom), harrive]
    exact Dev.settle_mark (by rw [hchan, hq]; rfl) hop (by rw [hchan]; exact hr) s.dev.now 8
  have hci : Dev.KeepsCi (s.dev.consume i) (m.modChan v k (fun c => { c with queue := [] })) := by
    rw [hm]
    exact ((Dev.KeepsCi.refl _).modChan _ _ _).modChan _ _ _
  have hempty := Dev.chan_modChan_same m v k (fun c => { c with queue := [] })
  have hdone := Dev.dropEntry_done (v := v) (k := k) (m.modChan v k (fun c => { c with queue := [] })) { d := Desc.ofWords ws } 0 0 s.dev.now
  have hsl : ((m.modChan v k (fun c => { c with queue := [] })).chan v k).slice = i.1 := by
    rw [hempty, hchan]
    exact hslice
  rw [hsl] at hdone
  refine .of_done h.1 (congrArg s.done heq) ⟨State.consumed_commit (hci.dropEntry v k _ 0 0 _), ?_, State.completed_commit hdone⟩
  have hvats : ((m.modChan v k (fun c => { c with queue := [] })).dropEntry v k { d := Desc.ofWords ws } 0 0 s.dev.now).vats =
      (m.modChan v k (fun c => { c with queue := [] })).vats := Dev.addCmp_vats _ _ _
  rw [State.commit_chan, Dev.chan_of_vats hvats, hempty]

theorem Answers.of_resume (h : Fetches s i ws) (hop : (Desc.ofWords ws).op = 6) :
    Answers (.resume i ws) s (fun t => Consumed s t i ∧ (t.dev.chan (chV (Desc.ofWords ws).ch) (chK (Desc.ofWords ws).ch)).halt = false ∧
      Completed t i.1 (Desc.ofWords ws).ch (Desc.ofWords ws).tag 0 s.dev.now) := by
  have heq : s.fetch i ws (· == 6) = ((s.dev.consume i).modChan (chV (Desc.ofWords ws).ch) (chK (Desc.ofWords ws).ch)
      (fun c => { c with halt := false })).atFetch i (Desc.ofWords ws) 0 := by
    rw [h.arrives (isOp := (· == 6)) (beq_iff_eq.mpr hop) (.inl (by omega)), Dev.arrive, hop]
    rfl
  refine .of_done h.1 (congrArg s.done heq) ⟨State.consumed_commit (((Dev.KeepsCi.refl _).modChan _ _ _).atFetch i _ 0), ?_,
    State.completed_commit (Dev.atFetch_done _ i _ 0)⟩
  rw [State.commit_chan, Dev.chan_of_vats (Dev.atFetch_vats rfl), Dev.chan_modChan_same]

theorem Answers.of_badOp (hl : Live s) (hr : s.dev.fetchRuns i = true) (ho : s.dev.fetchReach i = .opened) (hh : s.ringHolds i ws = true)
    (hop : 7 ≤ (Desc.ofWords ws).op) : Answers (.badOp i ws) s (fun t => Consumed s t i ∧
      Completed t i.1 (Desc.ofWords ws).ch (Desc.ofWords ws).tag 0x40 s.dev.now) := by
  have hst : s.dev.fetchStatus i (Desc.ofWords ws) = some 0x40 := if_pos hop
  have heq : s.fetch i ws (7 ≤ ·) = (s.dev.consume i).atFetch i (Desc.ofWords ws) 0x40 := by
    rw [State.fetch_eq (isOp := (7 ≤ ·)) hr ho hh (decide_eq_true hop), Dev.take_consumes (.inr (.inl (by omega))), hst]
  exact .of_done hl (congrArg s.done heq) ⟨State.consumed_commit ((Dev.KeepsCi.refl _).atFetch i _ 0x40),
    State.completed_commit (Dev.atFetch_done _ i _ 0x40)⟩

end

/-- Settles O20, one lemma per operation. -/
theorem descriptorsActOnArrival : Obligations.DescriptorsActOnArrival :=
  ⟨fun _ _ _ h hop => .of_nop h hop, fun _ _ _ h hop hh hroom => .of_step h hop rfl rfl hh hroom, fun _ _ _ h hop hh hroom => .of_step_full h hop hh hroom,
    fun _ _ _ h => ⟨fun hop => .of_done h.1 rfl (h.stops (isOp := (· == 2)) (.inl hop) (beq_iff_eq.mpr hop)),
      fun hop => .of_done h.1 rfl (h.stops (isOp := (· == 4)) (.inr hop) (beq_iff_eq.mpr hop))⟩,
    fun _ _ _ h hop => .of_flush h hop, fun _ _ _ h hop hh hr hq hroom => .of_mark h hop hh hr hq hroom,
    fun _ _ _ h hop => .of_resume h hop, fun _ _ _ hl hr ho hh hop => .of_badOp hl hr ho hh hop⟩

end Sys2Proof.Machine
end

section
/-!
PROOF. What reaches memory from the rings (R144, R156, R166), a stalled fetch, a DMA error, and a ring's configuration (R142, R154, R169).
-/

namespace Sys2Proof.Machine
open Sys2Proof

/-! ### Completions -/

section
variable {d e : Dev} {i : Fin 64}

/-- The place of a ring's entry is a matter of its slice's registers but the status of its rings. -/
theorem Dev.entryPlace_of_f (h : ∀ r : RF, r.lo < 32 → r.addr ≠ Reg.SLC_RING_STAT_at i.1 → e.f r = d.f r) (n : Fin 8) (idx : Nat) :
    e.memKey i.1 (e.f (Reg.SLC_RING_CFG_LOC i.1 n.1)) (e.entryAddr i.1 n.1 idx) = d.memKey i.1 (d.f (Reg.SLC_RING_CFG_LOC i.1 n.1)) (d.entryAddr i.1 n.1 idx) := by
  have hring : ∀ r : RF, r.lo < 32 → (∃ o : Nat, o < 12 ∧ r.addr = 0x20040000 + 0x400 * i.1 + 0x10 * n.1 + o) → e.f r = d.f r := by
    intro r hl ⟨o, ho, ha⟩
    refine h r hl ?_
    rw [ha]
    simp only [Reg.SLC_RING_STAT_at]
    omega
  have hcfg : ∀ r : RF, r.lo < 32 → r.addr = Reg.SLC_RING_CFG_at i.1 n.1 → e.f r = d.f r := fun r hl ha =>
    hring r hl ⟨8, by omega, by rw [ha]; simp only [Reg.SLC_RING_CFG_at]; omega⟩
  have hlo := hring (Reg.SLC_RING_BASE_LO_ADDR i.1 n.1) (Nat.le_of_ble_eq_true rfl) ⟨0, by omega, by simp only [Reg.SLC_RING_BASE_LO_ADDR, Reg.SLC_RING_BASE_LO_at]; omega⟩
  have hhi := hring (Reg.SLC_RING_BASE_HI_ADDR i.1 n.1) (Nat.le_of_ble_eq_true rfl) ⟨4, by omega, by simp only [Reg.SLC_RING_BASE_HI_ADDR, Reg.SLC_RING_BASE_HI_at]; omega⟩
  have hpasid : e.f (Reg.SLC_PASID_PASID i.1) = d.f (Reg.SLC_PASID_PASID i.1) := h _ (Nat.le_of_ble_eq_true rfl) (by
    simp only [Reg.SLC_PASID_PASID, Reg.SLC_PASID_at, Reg.SLC_RING_STAT_at]; omega)
  unfold Dev.memKey Dev.entryAddr Dev.f64 Dev.ringSize Dev.entrySize
  rw [hlo, hhi, hpasid, hcfg (Reg.SLC_RING_CFG_LOC i.1 n.1) (Nat.le_of_ble_eq_true rfl) rfl,
    hcfg (Reg.SLC_RING_CFG_LOG2 i.1 n.1) (Nat.le_of_ble_eq_true rfl) rfl, Dev.bit_of_f (hcfg (Reg.SLC_RING_CFG_ESIZE i.1 n.1) (Nat.le_of_ble_eq_true rfl) rfl)]

/-- The oldest completion leaves the slice's buffer. -/
def Dev.cmpTaken (d : Dev) (i : Fin 64) (rest : List Cmp) : Dev :=
  if rest.isEmpty then (d.modSlice i (fun e => { e with cmps := rest })).setF (Reg.SLC_RING_STAT_CMP_FULL i.1) 0
  else d.modSlice i (fun e => { e with cmps := rest })

theorem Dev.cmpTaken_spec (d : Dev) (i : Fin 64) (rest : List Cmp) : Dev.SparesMem d (d.cmpTaken i rest) ∧
    (d.cmpTaken i rest).slices[i] = { d.slices[i] with cmps := rest } ∧
    ∀ r : RF, r.lo < 32 → r.addr ≠ Reg.SLC_RING_STAT_at i.1 → (d.cmpTaken i rest).f r = d.f r := by
  have hslice := Dev.slices_modSlice_same d i (fun e => { e with cmps := rest })
  unfold Dev.cmpTaken
  split
  · exact ⟨⟨rfl, rfl, rfl⟩, hslice, fun r hl ha => Dev.f_setF_off _ _ (Nat.le_of_ble_eq_true rfl) hl (fun hc => ha hc.1)⟩
  · exact ⟨⟨rfl, rfl, rfl⟩, hslice, fun _ _ _ => rfl⟩

theorem Dev.dropProgress_of_ready (h : d.ringReady i.1 1 = true) : d.dropProgress i = d := by
  have hroom : d.ringRoom i.1 1 = true := by
    unfold Dev.ringReady at h
    exact (Bool.and_eq_true_iff.mp (Bool.and_eq_true_iff.mp h).1).2
  refine if_neg fun hc => ?_
  have hfull := hc.2.2
  rw [hroom] at hfull
  exact absurd hfull (by decide)

theorem Dev.completionWrite_eq {c : Cmp} {rest : List Cmp} {x : Nat} (hc : (d.slices[i]).cmps = c :: rest) (hr : d.ringReady i.1 1 = true)
    (hk : d.endsKnown i c.tEnd = true) (hx : d.cmpValC c = some x) : d.completionWrite i =
      (d.cmpTaken i rest).ringPut i.1 1 (cmpBytes c x) (if c.noIrq || c.progress then none else some 0) := by
  unfold Dev.completionWrite
  dsimp only
  rw [Dev.dropProgress_of_ready hr, hc]
  dsimp only
  rw [Dev.ringCheck_of_ready hr, hr, hk, hx]
  rfl

end

theorem Answers.of_completionWrite {s : State} {i : Fin 64} {c : Cmp} {rest : List Cmp} {x : Nat} (hs : Clean s) (hl : Live s)
    (hc : (s.dev.slices[i]).cmps = c :: rest) (hr : s.dev.ringReady i.1 1 = true) (hk : s.dev.endsKnown i c.tEnd = true)
    (hx : s.dev.cmpValC c = some x) (hdpl : s.dev.bit Reg.DPL_CFG_EN = false) :
    Answers (.completionWrite i) s (fun t => (t.dev.slices[i]).cmps = rest ∧
      (t.dev.slices[i]).pi[(1 : Fin 8)] = ((s.dev.slices[i]).pi[(1 : Fin 8)] + 1) % 2 ^ 32 ∧
      Stored s t (s.dev.memKey i.1 (s.dev.f (Reg.SLC_RING_CFG_LOC i.1 1)) (s.dev.entryAddr i.1 1 (s.dev.ringPi i.1 1))) (cmpBytes c x)) := by
  obtain ⟨hmem, hslice, hf⟩ := s.dev.cmpTaken_spec i rest
  have hdpl' : (s.dev.cmpTaken i rest).bit Reg.DPL_CFG_EN = false := (Dev.bit_of_f (hf _ (by decide) (by
    simp only [Reg.DPL_CFG_EN, Reg.DPL_CFG_at, Reg.SLC_RING_STAT_at]; omega))).trans hdpl
  have hpi : (s.dev.cmpTaken i rest).ringPi i.1 1 = s.dev.ringPi i.1 1 := by rw [Dev.ringPi_eq, Dev.ringPi_eq, hslice]
  have hputs := Dev.ringPut_puts hdpl' i 1 (cmpBytes c x) (if c.noIrq || c.progress then none else some 0)
  have hplace := Dev.entryPlace_of_f hf 1 (s.dev.ringPi i.1 1)
  have hwq := hputs.wq
  rw [hpi] at hwq
  obtain ⟨b, g, hend⟩ := hputs.slice
  refine .of_done hl (congrArg s.done (Dev.completionWrite_eq hc hr hk hx)) ⟨?_, ?_, ?_⟩
  · have hcmps : (((s.dev.cmpTaken i rest).ringPut i.1 1 (cmpBytes c x) (if c.noIrq || c.progress then none else some 0)).slices[i]).cmps = rest := by
      rw [hend, hslice]
    exact hcmps
  · have hnew := hputs.pi
    rw [hpi, Dev.ringPi_eq, Dev.ringPi_eq] at hnew
    exact hnew
  · refine State.commit_stored ?_ ((hputs.lost.trans hmem.lost).trans hs.2) (hputs.ep.trans hmem.ep)
    rw [hwq, hmem.wq, hs.1, List.nil_append]
    exact congrArg (fun a => [(a, cmpBytes c x)]) hplace

/-! ### The write-back block (R144) -/

/-- The write-back block's bytes: the indices, the time, and zeros. -/
def SliceEng.writeBackBytes (e : SliceEng) (now : Nat) : List Byte :=
  leBytes 4 e.ci[(0 : Fin 8)] ++ leBytes 4 e.pi[(1 : Fin 8)] ++ leBytes 4 e.pi[(2 : Fin 8)] ++ leBytes 4 e.pi[(3 : Fin 8)] ++
    leBytes 4 e.pi[(4 : Fin 8)] ++ leBytes 4 e.pi[(5 : Fin 8)] ++ leBytes 4 e.pi[(6 : Fin 8)] ++ leBytes 4 e.pi[(7 : Fin 8)] ++
    leBytes 8 now ++ leBytes 8 0 ++ leBytes 8 0 ++ leBytes 8 0

theorem SliceEng.writeBackBytes_eq (e : SliceEng) (now : Nat) : leBytes 4 e.ci[(0 : Fin 8)] ++
    ((List.finRange 8).drop 1).foldl (fun (bs : List Byte) (r : Fin 8) => bs ++ leBytes 4 e.pi[r]) [] ++ leBytes 8 now ++ leBytes 8 0 ++
      leBytes 8 0 ++ leBytes 8 0 = e.writeBackBytes now := by
  have hfold : ((List.finRange 8).drop 1).foldl (fun (bs : List Byte) (r : Fin 8) => bs ++ leBytes 4 e.pi[r]) [] =
      leBytes 4 e.pi[(1 : Fin 8)] ++ leBytes 4 e.pi[(2 : Fin 8)] ++ leBytes 4 e.pi[(3 : Fin 8)] ++
      leBytes 4 e.pi[(4 : Fin 8)] ++ leBytes 4 e.pi[(5 : Fin 8)] ++ leBytes 4 e.pi[(6 : Fin 8)] ++ leBytes 4 e.pi[(7 : Fin 8)] := by
    have hlist : (List.finRange 8).drop 1 = [1, 2, 3, 4, 5, 6, 7] := by decide
    rw [hlist]
    rfl
  rw [hfold]
  unfold SliceEng.writeBackBytes
  simp only [List.append_assoc]

/-- From `d` to `e` memory stays, and the slices but for the sources a frozen slice holds. -/
structure Dev.Signals (d e : Dev) : Prop where
  mem : Dev.SparesMem d e
  slices : Dev.KeepsSlices d e

section
variable {d e g : Dev}

theorem Dev.Signals.refl (d : Dev) : Dev.Signals d d := ⟨⟨rfl, rfl, rfl⟩, .refl d⟩

theorem Dev.Signals.trans (h : Dev.Signals d e) (h' : Dev.Signals e g) : Dev.Signals d g := ⟨h.mem.trans h'.mem, h.slices.trans h'.slices⟩

theorem Dev.sendCause_signals (d : Dev) (s c : Nat) : Dev.Signals d (d.sendCause s c) := by
  have hcore : Dev.Signals d ((List.finRange 4).foldl (fun d n =>
      let c : Fin 6 := ⟨n.1, Nat.lt_trans n.2 (by decide)⟩
      if d.f (Reg.CORE_CTX_SLICE n.1) ≠ s then d
      else if d.bit (Reg.CORE_CTX_WORLD n.1) then d.setCores (put d.cores c { d.cores[c] with irqN := true })
      else d.emit (.coreSignal n.1)) d) :=
    List.foldlRecOn _ _ (motive := Dev.Signals d) (.refl d) fun e he n _ => by
      dsimp only
      split
      · exact he
      · split
        · exact he.trans ⟨⟨rfl, rfl, rfl⟩, .of_slices rfl⟩
        · exact he.trans ⟨⟨rfl, rfl, rfl⟩, .of_slices rfl⟩
  unfold Dev.sendCause
  dsimp only
  split
  · exact ⟨⟨rfl, rfl, rfl⟩, .of_slices rfl⟩
  · split
    · exact hcore
    · exact .refl d

theorem Dev.deliver_signals (d : Dev) (n : Nat) : Dev.Signals d (d.deliver n) := ⟨(d.deliver_same n).sparesMem, d.deliver_keepsSlices n⟩

end

/-- A slice's engine once its write-back block is written. -/
def SliceEng.writtenBack (e : SliceEng) : SliceEng := { e with wbDirty := false, wbFirst := false, sig := [], heldVec := [] }

/-- What the write-back block's write covers is signalled. -/
def Dev.signalAll (d : Dev) (i : Fin 64) (e : SliceEng) : Dev :=
  e.heldVec.foldl (fun d n => if d.f (Reg.EVT_ROUTE_SLICE n) = i.1 then d.deliver n else d) (e.sig.foldl (fun d c => d.sendCause i.1 c) d)

theorem Dev.signalAll_signals (d : Dev) (i : Fin 64) (e : SliceEng) : Dev.Signals d (d.signalAll i e) := by
  have hsig : Dev.Signals d (e.sig.foldl (fun d c => d.sendCause i.1 c) d) :=
    List.foldlRecOn _ _ (motive := Dev.Signals d) (.refl d) fun g hg c _ => hg.trans (g.sendCause_signals i.1 c)
  refine List.foldlRecOn _ _ (motive := Dev.Signals d) hsig fun g hg n _ => ?_
  split
  · exact hg.trans (g.deliver_signals n)
  · exact hg

theorem Dev.evtLost_of_none {d : Dev} {i : Fin 64} (h : (d.slices[i]).evtLostRun = 0) : d.evtLost i.1 = d := by
  have hrun : (d.slices[sl i.1]).evtLostRun = 0 := (congrArg SliceEng.evtLostRun (d.slices_sl i)).trans h
  unfold Dev.evtLost
  dsimp only
  rw [hrun]
  rfl

theorem Dev.writeBack_eq {d : Dev} {i : Fin 64} (hdpl : d.bit Reg.DPL_CFG_EN = false) (hlost : (d.slices[i]).evtLostRun = 0) :
    d.writeBack i = (((d.post (d.memKey i.1 (d.f (Reg.SLC_RING_CFG_LOC i.1 0)) (d.f64 (Reg.SLC_WB_LO_ADDR i.1) (Reg.SLC_WB_HI_ADDR i.1)))
      ((d.slices[i]).writeBackBytes d.now)).modSlice i SliceEng.writtenBack).signalAll i (d.slices[i])) := by
  have hwrite := Dev.write_eq hdpl i.1 (d.f (Reg.SLC_RING_CFG_LOC i.1 0)) (d.f64 (Reg.SLC_WB_LO_ADDR i.1) (Reg.SLC_WB_HI_ADDR i.1))
    ((d.slices[i]).writeBackBytes d.now)
  obtain ⟨h, hslices⟩ := (Dev.signalAll_signals ((d.post (d.memKey i.1 (d.f (Reg.SLC_RING_CFG_LOC i.1 0)) (d.f64 (Reg.SLC_WB_LO_ADDR i.1)
    (Reg.SLC_WB_HI_ADDR i.1))) ((d.slices[i]).writeBackBytes d.now)).modSlice i SliceEng.writtenBack) i (d.slices[i])).slices i
  rw [Dev.slices_modSlice_same] at hslices
  have hrun := congrArg SliceEng.evtLostRun hslices
  unfold Dev.writeBack
  dsimp only
  rw [SliceEng.writeBackBytes_eq, hwrite]
  exact Dev.evtLost_of_none (hrun.trans hlost)

theorem Answers.of_writebackWrite {s : State} {i : Fin 64} (hs : Clean s) (hl : Live s) (hd : (s.dev.slices[i]).wbDirty = true)
    (hen : s.dev.bit (Reg.SLC_RING_CFG_EN i.1 0) = true) (hstop : s.dev.ringStopped i.1 0 = false) (hdpl : s.dev.bit Reg.DPL_CFG_EN = false)
    (hlost : (s.dev.slices[i]).evtLostRun = 0) {addr : Nat} (ha : addr = s.dev.f64 (Reg.SLC_WB_LO_ADDR i.1) (Reg.SLC_WB_HI_ADDR i.1))
    (hpath : s.dev.wbPath i.1 (s.dev.f (Reg.SLC_RING_CFG_LOC i.1 0)) addr = true) :
    Answers (.writebackWrite i) s (fun t => (t.dev.slices[i]).wbDirty = false ∧ (t.dev.slices[i]).sig = [] ∧
      Stored s t (s.dev.memKey i.1 (s.dev.f (Reg.SLC_RING_CFG_LOC i.1 0)) addr) ((s.dev.slices[i]).writeBackBytes s.dev.now)) := by
  subst ha
  have heq : s.dev.writebackWrite i = s.dev.writeBack i := by
    have hwb : s.dev.wbEnabled i.1 = true := by
      unfold Dev.wbEnabled
      rw [hen]
      exact Bool.not_eq_true' _ ▸ hstop
    unfold Dev.writebackWrite
    dsimp only
    rw [hd, hwb, hpath]
    rfl
  obtain ⟨hmem, hslices⟩ := Dev.signalAll_signals ((s.dev.post (s.dev.memKey i.1 (s.dev.f (Reg.SLC_RING_CFG_LOC i.1 0))
      (s.dev.f64 (Reg.SLC_WB_LO_ADDR i.1) (Reg.SLC_WB_HI_ADDR i.1))) ((s.dev.slices[i]).writeBackBytes s.dev.now)).modSlice i SliceEng.writtenBack)
    i (s.dev.slices[i])
  obtain ⟨h, hslice⟩ := hslices i
  rw [Dev.slices_modSlice_same] at hslice
  refine .of_done hl (congrArg s.done (heq.trans (Dev.writeBack_eq hdpl hlost))) ⟨?_, ?_, ?_⟩
  · exact congrArg SliceEng.wbDirty hslice
  · exact congrArg SliceEng.sig hslice
  · exact State.commit_stored (hmem.wq.trans (congrArg (· ++ _) hs.1)) (hmem.lost.trans hs.2) hmem.ep

/-! ### A stalled fetch (R154) -/

theorem Answers.of_cmdStall {s : State} {i : Fin 64} {t0 : Nat} (hl : Live s) (hst : (s.dev.slices[i]).stallAt = some t0)
    (ht : t0 + 400000 ≤ s.dev.now) (hb : s.dev.bit (Reg.SLC_RING_STAT_CMD_STALL i.1) = false) :
    Answers (.cmdStall i) s (fun t => t.dev.bit (Reg.SLC_RING_STAT_CMD_STALL i.1) = true) := by
  have heq : s.dev.cmdStall i = (s.dev.setF (Reg.SLC_RING_STAT_CMD_STALL i.1) 1).event i.1 0x02 none 0
      ((s.dev.setF (Reg.SLC_RING_STAT_CMD_STALL i.1) 1).ringCi i.1 0) := by
    unfold Dev.cmdStall
    rw [hst]
    exact if_pos ⟨ht, by rw [hb]; rfl⟩
  have hoff : (Reg.SLC_RING_STAT_CMD_STALL i.1).OffEvents i.1 := by
    unfold RF.OffEvents
    simp only [Reg.SLC_RING_STAT_CMD_STALL, Reg.SLC_RING_STAT_at, Reg.SLICE_EVT_at, Reg.DPL_PI_at, Reg.DPL_STAT_at, Reg.SLC_EVT_LOST_at]
    omega
  refine .of_done hl (congrArg s.done heq) ?_
  rw [State.commit_bit, Dev.event, Dev.bit_of_f (Dev.keeps_eventAt _ _ _ _ _ _ _ hoff)]
  unfold Dev.bit
  rw [Dev.f_setF_same]
  rfl

/-! ### Progress completions (R166) -/

/-- A progress completion of a running step, with what the step has delivered so far. -/
def Dev.progressCmp (d : Dev) (v k : Fin 16) (r : Running) : Cmp :=
  { d.stepCmp v k r 0x05 0 r.nextProg none with
    cflags := (d.stepCmp v k r 0x05 0 r.nextProg none).cflags - 1, progress := true, qOf := none,
    valC := if (d.stepCmp v k r 0x05 0 r.nextProg none).qOf.isSome then pattern 32 (d.stepTotals v k r).1 else (d.stepCmp v k r 0x05 0 r.nextProg none).valC }

/-- The step whose next progress completion is due a period later. -/
def Running.nextDue (r : Running) (ms : Nat) : Running := { r with nextProg := r.nextProg + 400000 * ms }

theorem Dev.progress_eq {d : Dev} {v k : Fin 16} {r : Running} (hr : (d.chan v k).run = some r) (hf : r.d.flag 3 = true) (ht : r.nextProg ≤ d.now)
    (hroom : d.ringRoom (d.chan v k).slice 1 = true) : d.progress v k =
      ((d.modChan v k (fun c => { c with run := some (r.nextDue (d.f (Reg.SLC_RING_CTL_PROG_MS (d.chan v k).slice))) })).modSlice (sl (d.chan v k).slice)
        (fun e => { e with cmps := e.cmps.filter (fun y => !(y.progress && y.ch == (d.progressCmp v k r).ch)) })).addCmp (d.chan v k).slice (d.progressCmp v k r) := by
  unfold Dev.progress
  dsimp only
  rw [hr]
  dsimp only
  rw [if_pos ⟨hf, ht⟩]
  refine if_neg fun hc => ?_
  have hroom' : (d.modChan v k (fun c => { c with run := some (r.nextDue (d.f (Reg.SLC_RING_CTL_PROG_MS (d.chan v k).slice))) })).ringRoom
      (d.chan v k).slice 1 = true := hroom
  have hfull := (Bool.and_eq_true_iff.mp hc).2
  unfold Running.nextDue at hroom'
  rw [hroom'] at hfull
  exact absurd hfull (by decide)

theorem Answers.of_progressCompletion {s : State} {v k : Fin 16} {r : Running} (hl : Live s) (hr : (s.dev.chan v k).run = some r)
    (hf : r.d.flag 3 = true) (ht : r.nextProg ≤ s.dev.now) (hroom : s.dev.ringRoom (s.dev.chan v k).slice 1 = true) :
    Answers (.progressCompletion v k) s (fun t => Completed t (s.dev.chan v k).slice (chanNo v k) r.d.tag 0x05 r.nextProg ∧
      (t.dev.chan v k).run = some { r with
        nextProg := r.nextProg + 400000 * s.dev.f (Reg.SLC_RING_CTL_PROG_MS (s.dev.chan v k).slice) } ∧ OtherChans s t v k) := by
  obtain ⟨m, hm⟩ : ∃ m, m = (s.dev.modChan v k (fun c => { c with run := some (r.nextDue (s.dev.f (Reg.SLC_RING_CTL_PROG_MS (s.dev.chan v k).slice))) })).modSlice
      (sl (s.dev.chan v k).slice) (fun e => { e with cmps := e.cmps.filter (fun y => !(y.progress && y.ch == (s.dev.progressCmp v k r).ch)) }) := ⟨_, rfl⟩
  have heq : s.dev.progress v k = m.addCmp (s.dev.chan v k).slice (s.dev.progressCmp v k r) := by
    rw [hm]
    exact Dev.progress_eq hr hf ht hroom
  have hchan : ∀ v' k' : Fin 16, m.chan v' k' =
      (s.dev.modChan v k (fun c => { c with run := some (r.nextDue (s.dev.f (Reg.SLC_RING_CTL_PROG_MS (s.dev.chan v k).slice))) })).chan v' k' := by
    intro v' k'
    rw [hm]
    rfl
  have hdone := m.addCmp_done (s.dev.chan v k).slice (s.dev.progressCmp v k r)
  obtain ⟨hch, htag, hstatus, hend⟩ := s.dev.stepCmp_values v k r 0x05 0 r.nextProg none
  have hvals : (s.dev.progressCmp v k r).ch = chanNo v k ∧ (s.dev.progressCmp v k r).tag = r.d.tag ∧ (s.dev.progressCmp v k r).status = 0x05 ∧
      (s.dev.progressCmp v k r).tEnd = r.nextProg := ⟨hch, htag, hstatus, hend⟩
  rw [hvals.1, hvals.2.1, hvals.2.2.1, hvals.2.2.2] at hdone
  refine .of_done hl (congrArg s.done heq) ⟨State.completed_commit hdone, ?_, State.otherChans_commit fun v' k' hne => ?_⟩
  · rw [State.commit_chan, Dev.chan_of_vats (m.addCmp_vats _ _), hchan, Dev.chan_modChan_same]
    rfl
  · rw [Dev.chan_of_vats (m.addCmp_vats _ _), hchan]
    exact Dev.chan_modChan_ne _ hne _

/-! ### DMA errors (R169) -/

/-- From `d` to `e` a ring of slice `i` that a DMA error has stopped stays stopped. -/
def Dev.KeepsStops (i : Fin 64) (d e : Dev) : Prop := ∀ n < 8, d.ringStopped i.1 n = true → e.ringStopped i.1 n = true

section
variable {i : Fin 64} {d e g : Dev}

theorem Dev.KeepsStops.refl (d : Dev) : Dev.KeepsStops i d d := fun _ _ h => h

theorem Dev.KeepsStops.trans (h : Dev.KeepsStops i d e) (h' : Dev.KeepsStops i e g) : Dev.KeepsStops i d g := fun n hn hd => h' n hn (h n hn hd)

theorem Dev.KeepsStops.ite {c : Prop} [Decidable c] {a b : Dev} (ha : Dev.KeepsStops i d a) (hb : Dev.KeepsStops i d b) :
    Dev.KeepsStops i d (if c then a else b) := by
  split <;> assumption

theorem Dev.KeepsStops.of_f (h : e.f (Reg.SLC_RING_STAT_DMA_ERR i.1) = d.f (Reg.SLC_RING_STAT_DMA_ERR i.1)) : Dev.KeepsStops i d e :=
  fun n _ hd => (Dev.tb_of_f h n).trans hd

/-- Seen from the events of a slice that does not exist, slice i's DMA_ERR is a field like any other. -/
theorem Reg.dmaErr_offEvents (i : Fin 64) : (Reg.SLC_RING_STAT_DMA_ERR i.1).OffEvents 64 := by
  unfold RF.OffEvents
  simp only [Reg.SLC_RING_STAT_DMA_ERR, Reg.SLC_RING_STAT_at, Reg.SLICE_EVT_at, Reg.DPL_PI_at, Reg.DPL_STAT_at, Reg.SLC_EVT_LOST_at]
  omega

theorem Dev.ringStopped_setTb (d : Dev) (i : Fin 64) {n : Nat} (hn : n < 8) (m : Nat) (b : Bool) :
    (d.setTb (Reg.SLC_RING_STAT_DMA_ERR i.1) m b).ringStopped i.1 n = if n = m then b else d.ringStopped i.1 n :=
  Dev.tb_setTb d _ m b hn

theorem Dev.KeepsStops.evtCheck (h : Dev.KeepsStops i d e) : Dev.KeepsStops i d (e.evtCheck i.1) := by
  refine h.trans ?_
  unfold Dev.evtCheck
  split
  next a _ =>
    intro n hn hd
    have hfail := Dev.KeepsStops.of_f (Dev.keeps_engineFail e 8 .write a i.1 _ (Reg.dmaErr_offEvents i)) n hn hd
    unfold Dev.stopRing
    rw [Dev.ringStopped_setTb _ i hn, hfail, ite_self]
  next => exact .refl e

theorem Dev.KeepsStops.ringPut (h : Dev.KeepsStops i d e) (r : Fin 8) (bs : List Byte) (c : Option Nat) : Dev.KeepsStops i d (e.ringPut i.1 r bs c) :=
  h.trans (.of_f (Dev.keeps_ringPut e i.1 r bs c _ (Reg.dmaErr_offEvents i)))

theorem Dev.KeepsStops.evtFull (h : Dev.KeepsStops i d e) : Dev.KeepsStops i d (e.evtFull i.1) :=
  h.trans (.of_f (Dev.f_setF_off e _ (Nat.le_of_ble_eq_true rfl) (Nat.le_of_ble_eq_true rfl) (by
    simp only [Reg.SLC_RING_STAT_DMA_ERR, Reg.SLC_RING_STAT_EVT_FULL]
    omega)))

theorem Dev.KeepsStops.modSlice (h : Dev.KeepsStops i d e) (j : Fin 64) (f : SliceEng → SliceEng) : Dev.KeepsStops i d (e.modSlice j f) := h

theorem Dev.KeepsStops.evtLost (h : Dev.KeepsStops i d e) : Dev.KeepsStops i d (e.evtLost i.1) := by
  have hchecked : Dev.KeepsStops i d (if (e.slices[sl i.1]).evtLostRun ≠ 0 then e.evtCheck i.1 else e) := .ite h.evtCheck h
  unfold Dev.evtLost
  dsimp only
  exact .ite (((hchecked.ringPut 2 _ _).modSlice _ _).evtFull) hchecked

theorem Dev.KeepsStops.eventAt (h : Dev.KeepsStops i d e) (ty : Nat) (ch : Option Nat) (info data ts : Nat) :
    Dev.KeepsStops i d (e.eventAt i.1 ty ch info data ts) := by
  have hlose : ∀ g : Dev, Dev.KeepsStops i d g → Dev.KeepsStops i d (g.loseEvent i.1) := fun g hg =>
    hg.trans (.of_f (Dev.f_setF_off g _ (Nat.le_of_ble_eq_true rfl) (Nat.le_of_ble_eq_true rfl) (by
      simp only [Reg.SLC_RING_STAT_DMA_ERR, Reg.SLC_RING_STAT_at, Reg.SLC_EVT_LOST_COUNT, Reg.SLC_EVT_LOST_at]
      omega)))
  exact (Dev.KeepsStops.ite (h.evtLost.evtCheck.ringPut 2 _ _) (hlose _ h.evtLost.evtCheck)).evtFull

end

theorem Answers.of_dmaError {s : State} {i : Fin 64} {r : Fin 8} (hl : Live s) (hen : s.dev.bit (Reg.SLC_RING_CFG_EN i.1 r.1) = true)
    (hst : s.dev.ringStopped i.1 r.1 = false) (x : Word) : Answers (.dmaError i r x) s (fun t => t.dev.ringStopped i.1 r.1 = true) := by
  have hset : ∀ g : Dev, (g.setTb (Reg.SLC_RING_STAT_DMA_ERR i.1) r.1 true).ringStopped i.1 r.1 = true := fun g => by
    rw [Dev.ringStopped_setTb g i r.2, if_pos rfl]
  have hevent : ∀ g : Dev, g.ringStopped i.1 r.1 = true → (g.dmaEvent i.1 r x.toNat).ringStopped i.1 r.1 = true := fun g hg => by
    unfold Dev.dmaEvent
    split
    · exact hg
    · exact (Dev.KeepsStops.refl g).eventAt 0x08 none r.1 x.toNat g.now r.1 r.2 hg
  have heq : s.dev.dmaError i r x.toNat = ((if s.dev.localRing i.1 r.1 then s.dev.engineUe (engineSrc 8 i.1) (r != 0) (s.dev.entryAddr i.1 r.1 x.toNat)
      else s.dev).setTb (Reg.SLC_RING_STAT_DMA_ERR i.1) r.1 true).dmaEvent i.1 r x.toNat := if_pos (by rw [hen, hst]; rfl)
  refine .of_done hl (congrArg s.done heq) ?_
  exact (Dev.tb_of_f (State.commit_f s _ _) r.1).trans (hevent _ (hset _))

/-! ### A ring's configuration (R142, R143) -/

/-- One layout field of a ring's configuration, written with a word: it changes only while the ring is disabled and to a value it may take. -/
def Dev.ringField (was : Bool) (w : Nat) (d : Dev) (f : RF) (ok : Nat → Bool) : Dev × Bool :=
  if bits w f.lo f.w = d.f f then (d, true) else if !was && ok (bits w f.lo f.w) then (d.setF f (bits w f.lo f.w), true) else (d, false)

section
variable {d : Dev} {w : Nat} {f : RF} {ok : Nat → Bool}

theorem Dev.ringField_takes (hl : f.lo < 32) (hok : ok (bits w f.lo f.w) = true) : (Dev.ringField false w d f ok).2 = true ∧
    (Dev.ringField false w d f ok).1.f f = bits w f.lo f.w ∧ (Dev.ringField false w d f ok).1.slices = d.slices ∧
    ∀ r : RF, r.lo < 32 → ¬(r.addr = f.addr ∧ r.lo = f.lo) → (Dev.ringField false w d f ok).1.f r = d.f r := by
  unfold Dev.ringField
  by_cases hx : bits w f.lo f.w = d.f f
  · rw [if_pos hx]
    exact ⟨rfl, hx.symm, rfl, fun _ _ _ => rfl⟩
  · rw [if_neg hx, if_pos (by rw [hok]; rfl)]
    exact ⟨rfl, (Dev.f_setF_same _ _ _).trans (bits_mod _ _ _), rfl, fun r hr hne => Dev.f_setF_off _ _ hl hr hne⟩

theorem Dev.ringField_enabled (d : Dev) (w : Nat) (f : RF) (ok : Nat → Bool) : (Dev.ringField true w d f ok).1 = d := by
  unfold Dev.ringField
  split
  · rfl
  · rfl

end

/-- The three layout fields of a ring, written with a word. -/
def Dev.ringLayout (was : Bool) (w : Nat) (d : Dev) (i : Fin 64) (r : Fin 8) : Dev × Bool :=
  let a := Dev.ringField was w d (Reg.SLC_RING_CFG_LOG2 i.1 r.1) (fun x => 4 ≤ x && x ≤ 16)
  let b := Dev.ringField was w a.1 (Reg.SLC_RING_CFG_LOC i.1 r.1) (· ≤ 2)
  let c := Dev.ringField was w b.1 (Reg.SLC_RING_CFG_ESIZE i.1 r.1) (fun x => 3 ≤ r.1 || x == 0)
  (c.1, a.2 && b.2 && c.2)

/-- A ring's EN bit, as a write of its configuration acts on it once the layout is written. -/
def Dev.ringSwitch (was : Bool) (src : Src) (i : Fin 64) (r : Fin 8) (w : Nat) (d : Dev) : Dev :=
  if w.testBit 0 then
    if was then d
    else if d.f (Reg.SLC_RING_CFG_LOC i.1 r.1) < 2 ∧ d.f (Reg.SLC_RING_CFG_LOC i.1 r.1) ≠ d.f (Reg.SLC_PASID_PORT i.1) then
      d.logRefused src (Reg.SLC_RING_CFG_at i.1 r.1)
    else d.enableRing i r
  else if was then d.disableRing i r
  else d

theorem Dev.ringCfg_eq (d : Dev) (src : Src) (i : Fin 64) (r : Fin 8) (w : Nat) : d.ringCfg src i r w =
    Dev.ringSwitch (d.bit (Reg.SLC_RING_CFG_EN i.1 r.1)) src i r w
      (if (Dev.ringLayout (d.bit (Reg.SLC_RING_CFG_EN i.1 r.1)) w d i r).2 then (Dev.ringLayout (d.bit (Reg.SLC_RING_CFG_EN i.1 r.1)) w d i r).1
       else (Dev.ringLayout (d.bit (Reg.SLC_RING_CFG_EN i.1 r.1)) w d i r).1.logR9 src (Reg.SLC_RING_CFG_at i.1 r.1)) := rfl

section
variable {d : Dev} {i : Fin 64} {r : Fin 8} {w : Nat}

theorem Dev.ringLayout_takes (h4 : 4 ≤ bits w (Reg.SLC_RING_CFG_LOG2 i.1 r.1).lo (Reg.SLC_RING_CFG_LOG2 i.1 r.1).w)
    (h16 : bits w (Reg.SLC_RING_CFG_LOG2 i.1 r.1).lo (Reg.SLC_RING_CFG_LOG2 i.1 r.1).w ≤ 16)
    (hloc : bits w (Reg.SLC_RING_CFG_LOC i.1 r.1).lo (Reg.SLC_RING_CFG_LOC i.1 r.1).w ≤ 2)
    (hes : 3 ≤ r.1 ∨ bits w (Reg.SLC_RING_CFG_ESIZE i.1 r.1).lo (Reg.SLC_RING_CFG_ESIZE i.1 r.1).w = 0) :
    (Dev.ringLayout false w d i r).2 = true ∧ (Dev.ringLayout false w d i r).1.slices = d.slices ∧
    (Dev.ringLayout false w d i r).1.f (Reg.SLC_RING_CFG_LOG2 i.1 r.1) = bits w (Reg.SLC_RING_CFG_LOG2 i.1 r.1).lo (Reg.SLC_RING_CFG_LOG2 i.1 r.1).w ∧
    (Dev.ringLayout false w d i r).1.f (Reg.SLC_RING_CFG_LOC i.1 r.1) = bits w (Reg.SLC_RING_CFG_LOC i.1 r.1).lo (Reg.SLC_RING_CFG_LOC i.1 r.1).w ∧
    ∀ x : RF, x.lo < 32 → x.addr ≠ Reg.SLC_RING_CFG_at i.1 r.1 → (Dev.ringLayout false w d i r).1.f x = d.f x := by
  obtain ⟨a, hadef⟩ : ∃ a, a = Dev.ringField false w d (Reg.SLC_RING_CFG_LOG2 i.1 r.1) (fun x => 4 ≤ x && x ≤ 16) := ⟨_, rfl⟩
  obtain ⟨b, hbdef⟩ : ∃ b, b = Dev.ringField false w a.1 (Reg.SLC_RING_CFG_LOC i.1 r.1) (· ≤ 2) := ⟨_, rfl⟩
  obtain ⟨c, hcdef⟩ : ∃ c, c = Dev.ringField false w b.1 (Reg.SLC_RING_CFG_ESIZE i.1 r.1) (fun x => 3 ≤ r.1 || x == 0) := ⟨_, rfl⟩
  have heq : Dev.ringLayout false w d i r = (c.1, a.2 && b.2 && c.2) := by rw [hcdef, hbdef, hadef]; rfl
  obtain ⟨ha2, haf, hasl, ha⟩ := Dev.ringField_takes (d := d) (w := w) (f := Reg.SLC_RING_CFG_LOG2 i.1 r.1) (ok := fun x => 4 ≤ x && x ≤ 16)
    (Nat.le_of_ble_eq_true rfl) (Bool.and_eq_true_iff.mpr ⟨decide_eq_true h4, decide_eq_true h16⟩)
  rw [← hadef] at ha2 haf hasl ha
  obtain ⟨hb2, hbf, hbsl, hb⟩ := Dev.ringField_takes (d := a.1) (w := w) (f := Reg.SLC_RING_CFG_LOC i.1 r.1) (ok := (· ≤ 2))
    (Nat.le_of_ble_eq_true rfl) (decide_eq_true hloc)
  rw [← hbdef] at hb2 hbf hbsl hb
  obtain ⟨hc2, -, hcsl, hc⟩ := Dev.ringField_takes (d := b.1) (w := w) (f := Reg.SLC_RING_CFG_ESIZE i.1 r.1) (ok := fun x => 3 ≤ r.1 || x == 0)
    (Nat.le_of_ble_eq_true rfl) (Bool.or_eq_true_iff.mpr (hes.imp decide_eq_true beq_iff_eq.mpr))
  rw [← hcdef] at hc2 hcsl hc
  rw [heq]
  refine ⟨by rw [ha2, hb2, hc2]; rfl, hcsl.trans (hbsl.trans hasl), ?_, ?_, fun x hx hne => ?_⟩
  · exact (hc _ (Nat.le_of_ble_eq_true rfl) (fun hcc => Nat.ne_of_beq_eq_false rfl hcc.2)).trans
      ((hb _ (Nat.le_of_ble_eq_true rfl) (fun hcc => Nat.ne_of_beq_eq_false rfl hcc.2)).trans haf)
  · exact (hc _ (Nat.le_of_ble_eq_true rfl) (fun hcc => Nat.ne_of_beq_eq_false rfl hcc.2)).trans hbf
  · exact (hc x hx (fun hcc => hne hcc.1)).trans ((hb x hx (fun hcc => hne hcc.1)).trans (ha x hx (fun hcc => hne hcc.1)))

end

/-! ### A ring is enabled and disabled (R142, R143) -/

section
variable {d : Dev} {i : Fin 64} {r : Fin 8}

/-- A slice's engine with both indices of a ring set. -/
def SliceEng.indexed (e : SliceEng) (r : Fin 8) (x : Nat) : SliceEng :=
  { e with pi := put e.pi r x, ci := put e.ci r x, cmdPi := if r = 0 then x else e.cmdPi }

/-- The ring as it is enabled, before events that waited for it are written. -/
def Dev.ringOn (d : Dev) (i : Fin 64) (r : Fin 8) : Dev :=
  ((d.modSlice i (fun e => e.indexed r (d.f (Reg.SLC_RING_IDX_IDX i.1 r.1)))).setF (Reg.SLC_RING_CFG_EN i.1 r.1) 1).setTb (Reg.SLC_RING_STAT_DMA_ERR i.1) r.1 false

theorem Dev.enableRing_eq (d : Dev) (i : Fin 64) (r : Fin 8) : d.enableRing i r =
    if r = 2 then ((d.ringOn i r).evtFull i.1).evtLost i.1 else d.ringOn i r := rfl

theorem Dev.ringOn_slice (d : Dev) (i : Fin 64) (r : Fin 8) :
    (d.ringOn i r).slices[i] = (d.slices[i]).indexed r (d.f (Reg.SLC_RING_IDX_IDX i.1 r.1)) :=
  Dev.slices_modSlice_same d i (fun e => e.indexed r (d.f (Reg.SLC_RING_IDX_IDX i.1 r.1)))

theorem Dev.ringOn_f (d : Dev) (i : Fin 64) (r : Fin 8) : (d.ringOn i r).bit (Reg.SLC_RING_CFG_EN i.1 r.1) = true ∧
    (d.ringOn i r).ringStopped i.1 r.1 = false ∧
    ∀ x : RF, x.lo < 32 → x.addr = Reg.SLC_RING_CFG_at i.1 r.1 → x.lo ≠ 0 → (d.ringOn i r).f x = d.f x := by
  have hoff : ∀ (e : Dev) (x : RF), x.lo < 32 → x.addr = Reg.SLC_RING_CFG_at i.1 r.1 →
      (e.setTb (Reg.SLC_RING_STAT_DMA_ERR i.1) r.1 false).f x = e.f x := fun e x hl ha =>
    e.f_setTb_off _ _ (Nat.le_of_ble_eq_true rfl) hl fun hc => by
      rw [ha] at hc
      simp only [Reg.SLC_RING_STAT_DMA_ERR, Reg.SLC_RING_CFG_at, Reg.SLC_RING_STAT_at] at hc
      omega
  unfold Dev.ringOn
  refine ⟨?_, (Dev.ringStopped_setTb _ i r.2 _ _).trans (if_pos rfl), fun x hl ha hlo => ?_⟩
  · rw [Dev.bit_of_f (hoff _ _ (Nat.le_of_ble_eq_true rfl) rfl)]
    unfold Dev.bit
    rw [Dev.f_setF_same]
    rfl
  · rw [hoff _ x hl ha]
    exact Dev.f_setF_off _ _ (Nat.le_of_ble_eq_true rfl) hl (fun hc => hlo hc.2)

theorem Reg.ringCfg_offEvents {x : RF} (hl : x.lo < 32) (ha : x.addr = Reg.SLC_RING_CFG_at i.1 r.1) : x.OffEvents i.1 := by
  unfold RF.OffEvents
  rw [ha]
  simp only [Reg.SLC_RING_CFG_at, Reg.SLC_RING_STAT_at, Reg.SLICE_EVT_at, Reg.DPL_PI_at, Reg.DPL_STAT_at, Reg.SLC_EVT_LOST_at]
  omega

/-- A ring once enabled: its layout stands, its indices are those of its IDX register, and no DMA error stands. -/
theorem Dev.enableRing_spec (d : Dev) (i : Fin 64) (r : Fin 8) : (d.enableRing i r).bit (Reg.SLC_RING_CFG_EN i.1 r.1) = true ∧
    (∀ x : RF, x.lo < 32 → x.addr = Reg.SLC_RING_CFG_at i.1 r.1 → x.lo ≠ 0 → (d.enableRing i r).f x = d.f x) ∧
    (r.1 ≠ 2 ∨ (d.slices[i]).evtLostRun = 0 → ((d.enableRing i r).slices[i]).pi[r] = d.f (Reg.SLC_RING_IDX_IDX i.1 r.1) ∧
      (d.enableRing i r).ringStopped i.1 r.1 = false) ∧
    ((d.enableRing i r).slices[i]).ci[r] = d.f (Reg.SLC_RING_IDX_IDX i.1 r.1) := by
  obtain ⟨hen, hstop, hf⟩ := d.ringOn_f i r
  have hslice := d.ringOn_slice i r
  have hpi : ((d.ringOn i r).slices[i]).pi[r] = d.f (Reg.SLC_RING_IDX_IDX i.1 r.1) := by
    rw [hslice]
    exact getElem_put_same _ _ _
  have hci : ((d.ringOn i r).slices[i]).ci[r] = d.f (Reg.SLC_RING_IDX_IDX i.1 r.1) := by
    rw [hslice]
    exact getElem_put_same _ _ _
  rw [Dev.enableRing_eq]
  split
  next h2 =>
    have hkeeps : Dev.Keeps (RF.OffEvents i.1) (d.ringOn i r) (((d.ringOn i r).evtFull i.1).evtLost i.1) :=
      (Dev.keeps_evtFull _).trans (Dev.keeps_evtLost _)
    have hstill : Dev.StillSlices (d.ringOn i r) (((d.ringOn i r).evtFull i.1).evtLost i.1) :=
      (Dev.StillSlices.of_slices (e := (d.ringOn i r).evtFull i.1) rfl).trans (Dev.still_evtLost _ i.1)
    refine ⟨(Dev.bit_of_f (hkeeps _ (Reg.ringCfg_offEvents (Nat.le_of_ble_eq_true rfl) rfl))).trans hen,
      fun x hl ha hlo => (hkeeps x (Reg.ringCfg_offEvents hl ha)).trans (hf x hl ha hlo), fun hlost => ?_,
      (congrArg (fun xs : Vector Nat 8 => xs[r]) (hstill.ci i)).trans hci⟩
    have hrun : (((d.ringOn i r).evtFull i.1).slices[i]).evtLostRun = 0 :=
      (congrArg SliceEng.evtLostRun hslice).trans (hlost.resolve_left (fun hc => hc (congrArg Fin.val h2)))
    rw [Dev.evtLost_of_none hrun]
    refine ⟨hpi, (Dev.tb_of_f (Dev.f_setF_off (d.ringOn i r) _ (Nat.le_of_ble_eq_true rfl) (Nat.le_of_ble_eq_true rfl) ?_) r.1).trans hstop⟩
    exact fun hc => Nat.ne_of_beq_eq_false rfl hc.2
  next => exact ⟨hen, hf, fun _ => ⟨hpi, hstop⟩, hci⟩

theorem Dev.disableRing_en (d : Dev) (i : Fin 64) (r : Fin 8) : (d.disableRing i r).bit (Reg.SLC_RING_CFG_EN i.1 r.1) = false := by
  have hoff : (d.setF (Reg.SLC_RING_CFG_EN i.1 r.1) 0).bit (Reg.SLC_RING_CFG_EN i.1 r.1) = false := Dev.bit_setF_zero _ _
  unfold Dev.disableRing
  dsimp only
  split
  · refine (Dev.bit_of_f (Dev.f_setF_off _ _ (Nat.le_of_ble_eq_true rfl) (Nat.le_of_ble_eq_true rfl) fun hc => ?_)).trans hoff
    simp only [Reg.SLC_RING_CFG_EN, Reg.SLC_RING_CFG_at, Reg.SLC_RING_STAT_CMD_STALL, Reg.SLC_RING_STAT_at] at hc
    omega
  · exact hoff

end

theorem Answers.of_ringCfgWrite_enable {s : State} {src : Src} {i : Fin 64} {r : Fin 8} {w : Word} (h : Reaches s src (Reg.SLC_RING_CFG_at i.1 r.1))
    (hw : w.toNat.testBit 0 = true) (hen : s.dev.bit (Reg.SLC_RING_CFG_EN i.1 r.1) = false)
    (h4 : 4 ≤ bits w.toNat (Reg.SLC_RING_CFG_LOG2 i.1 r.1).lo (Reg.SLC_RING_CFG_LOG2 i.1 r.1).w)
    (h16 : bits w.toNat (Reg.SLC_RING_CFG_LOG2 i.1 r.1).lo (Reg.SLC_RING_CFG_LOG2 i.1 r.1).w ≤ 16)
    (hes : 3 ≤ r.1 ∨ bits w.toNat (Reg.SLC_RING_CFG_ESIZE i.1 r.1).lo (Reg.SLC_RING_CFG_ESIZE i.1 r.1).w = 0)
    (hloc : bits w.toNat (Reg.SLC_RING_CFG_LOC i.1 r.1).lo (Reg.SLC_RING_CFG_LOC i.1 r.1).w = 2 ∨
      bits w.toNat (Reg.SLC_RING_CFG_LOC i.1 r.1).lo (Reg.SLC_RING_CFG_LOC i.1 r.1).w < 2 ∧
      bits w.toNat (Reg.SLC_RING_CFG_LOC i.1 r.1).lo (Reg.SLC_RING_CFG_LOC i.1 r.1).w = s.dev.f (Reg.SLC_PASID_PORT i.1)) :
    Answers (.ringCfgWrite src i r w) s (fun t => t.dev.bit (Reg.SLC_RING_CFG_EN i.1 r.1) = true ∧
      t.dev.f (Reg.SLC_RING_CFG_LOG2 i.1 r.1) = bits w.toNat (Reg.SLC_RING_CFG_LOG2 i.1 r.1).lo (Reg.SLC_RING_CFG_LOG2 i.1 r.1).w ∧
      t.dev.f (Reg.SLC_RING_CFG_LOC i.1 r.1) = bits w.toNat (Reg.SLC_RING_CFG_LOC i.1 r.1).lo (Reg.SLC_RING_CFG_LOC i.1 r.1).w ∧
      (r.1 ≠ 2 ∨ (s.dev.slices[i]).evtLostRun = 0 →
        (t.dev.slices[i]).pi[r] = s.dev.f (Reg.SLC_RING_IDX_IDX i.1 r.1) ∧ t.dev.ringStopped i.1 r.1 = false) ∧
      (t.dev.slices[i]).ci[r] = s.dev.f (Reg.SLC_RING_IDX_IDX i.1 r.1)) := by
  obtain ⟨hok, hsl, hlog2, hlocf, hf⟩ := Dev.ringLayout_takes (d := s.dev.answer 0) h4 h16 (hloc.elim (fun h => h.le) (fun h => h.1.le)) hes
  obtain ⟨m, hm⟩ : ∃ m, m = (Dev.ringLayout false w.toNat (s.dev.answer 0) i r).1 := ⟨_, rfl⟩
  rw [← hm] at hsl hlog2 hlocf hf
  have hport : m.f (Reg.SLC_PASID_PORT i.1) = s.dev.f (Reg.SLC_PASID_PORT i.1) := hf _ (Nat.le_of_ble_eq_true rfl) (by
    simp only [Reg.SLC_PASID_PORT, Reg.SLC_PASID_at, Reg.SLC_RING_CFG_at]; omega)
  have hidx : m.f (Reg.SLC_RING_IDX_IDX i.1 r.1) = s.dev.f (Reg.SLC_RING_IDX_IDX i.1 r.1) := hf _ (Nat.le_of_ble_eq_true rfl) (by
    simp only [Reg.SLC_RING_IDX_IDX, Reg.SLC_RING_IDX_at, Reg.SLC_RING_CFG_at]; omega)
  have hcfg : (s.dev.answer 0).ringCfg src i r w.toNat = m.enableRing i r := by
    have hen' : (s.dev.answer 0).bit (Reg.SLC_RING_CFG_EN i.1 r.1) = false := hen
    rw [Dev.ringCfg_eq, hen', if_pos hok, ← hm]
    unfold Dev.ringSwitch
    rw [if_pos hw, if_neg Bool.false_ne_true, hlocf, hport, if_neg (fun hc => hloc.elim (fun h => by omega) (fun h => hc.2 h.2))]
  obtain ⟨hon, hlayout, hindex, hci⟩ := m.enableRing_spec i r
  have hlost : (m.slices[i]).evtLostRun = (s.dev.slices[i]).evtLostRun := congrArg (fun x => (x[i]).evtLostRun) hsl
  rw [hidx, hlost] at hindex
  rw [hidx] at hci
  refine .of_done h.1 (congrArg s.done ((Dev.onWrite_unguarded h.2 _).trans hcfg)) ?_
  rw [State.commit_bit, State.commit_f, State.commit_f]
  refine ⟨hon, (hlayout _ (Nat.le_of_ble_eq_true rfl) rfl (Nat.ne_of_beq_eq_false rfl)).trans hlog2,
    (hlayout _ (Nat.le_of_ble_eq_true rfl) rfl (Nat.ne_of_beq_eq_false rfl)).trans hlocf, fun hc => ?_, hci⟩
  exact ⟨(hindex hc).1, (Dev.tb_of_f (State.commit_f s _ _) r.1).trans (hindex hc).2⟩

theorem Answers.of_ringCfgWrite_disable {s : State} {src : Src} {i : Fin 64} {r : Fin 8} {w : Word} (h : Reaches s src (Reg.SLC_RING_CFG_at i.1 r.1))
    (hw : w.toNat.testBit 0 = false) (hen : s.dev.bit (Reg.SLC_RING_CFG_EN i.1 r.1) = true) :
    Answers (.ringCfgWrite src i r w) s (fun t => t.dev.bit (Reg.SLC_RING_CFG_EN i.1 r.1) = false) := by
  have hen' : (s.dev.answer 0).bit (Reg.SLC_RING_CFG_EN i.1 r.1) = true := hen
  refine .of_done h.1 (congrArg s.done (Dev.onWrite_unguarded h.2 _)) ?_
  rw [State.commit_bit, Dev.ringCfg_eq, hen']
  unfold Dev.ringSwitch
  rw [if_neg (by rw [hw]; exact Bool.false_ne_true), if_pos rfl]
  exact Dev.disableRing_en _ i r

/-- Settles O22, one lemma per command. -/
theorem ringEntriesAreDelivered : Obligations.RingEntriesAreDelivered :=
  ⟨fun _ _ _ _ _ hs hl hc hr hk hx hd => .of_completionWrite hs hl hc hr hk hx hd,
    fun _ _ hs hl hd hen hst hdpl hlost hpath => .of_writebackWrite hs hl hd hen hst hdpl hlost rfl hpath,
    fun _ _ _ hl hst ht hb => .of_cmdStall hl hst ht hb, fun _ _ _ _ hl hr hf ht hroom => .of_progressCompletion hl hr hf ht hroom,
    fun _ _ _ x hl hen hst => .of_dmaError hl hen hst x,
    fun _ _ _ _ _ h hw hen h4 h16 hes hloc => .of_ringCfgWrite_enable h hw hen h4 h16 hes hloc,
    fun _ _ _ _ _ h hw hen => .of_ringCfgWrite_disable h hw hen⟩

end Sys2Proof.Machine
end

section
/-!
PROOF. The recovery count (R290) in a state whose register file holds more than the field is wide.
-/

namespace Sys2Proof.Machine
open Sys2Proof

/-- The released device after reset, with controller 0 recovering from bus-off and 2^17 filed in REMAIN, which has 16 bits. -/
def State.wideRemain : State :=
  { State.reset with dev := { State.reset.dev with
      sup := { State.reset.dev.sup with held := false }
      regs := [((Reg.PWR_QTAG_STATE 24).key, 0), ((Reg.CAN_STAT_STATE 0).key, 2), ((Reg.CAN_STAT_RECOV 0).key, 1), ((Reg.CAN_SUP_STAT_REMAIN 0).key, 2 ^ 17)] } }

/-- One occurrence counts the low 16 bits down. -/
theorem canIntegrate_wideRemain : (State.wideRemain.dev.canIntegrate 0).f (Reg.CAN_SUP_STAT_REMAIN 0) = 2 ^ 16 - 1 := by decide +kernel

/-- Refutes O37, in the clause of BUS_INTEGRATION during recovery: the clause takes 1 from REMAIN whatever the register file holds, and of a
state it asks only that the logic die is released and the controller recovers from bus-off. Where the register file holds more than REMAIN's 16
bits (no command files such a value) the field takes the low 16 bits of the difference. -/
theorem not_canStatesFollowTheCounters : ¬ Obligations.CanStatesFollowTheCounters := by
  unfold Obligations.CanStatesFollowTheCounters
  intro ⟨_, _, hcount, _⟩
  obtain ⟨t, hexec, -, hremain, -⟩ := hcount State.wideRemain 0 rfl (by decide +kernel) (by decide +kernel) (by decide +kernel)
  have ht : exec (.busIntegration 0) State.wideRemain = .next (State.wideRemain.commit (State.wideRemain.dev.canIntegrate 0)) := rfl
  obtain rfl := Host.Outcome.next.inj (hexec.symm.trans ht)
  rw [State.commit_f] at hremain
  exact absurd (canIntegrate_wideRemain.symm.trans hremain) (by decide +kernel)

end Sys2Proof.Machine
end

section
/-!
PROOF. What a command leaves alone: a relation for the register blocks a meaning may write, and its rules, one per operation of the model.
-/

namespace Sys2Proof.Machine
open Sys2Proof

/-- The address lies in one of the ranges, or in the reset block, the event block or the checkers' records. -/
def InBlocks (bs : List (Nat × Nat)) (a : Nat) : Prop :=
  ∃ b ∈ (0x20002000, 0x20003000) :: (0x20004000, 0x20004800) :: (0x20090000, 0x20098000) :: bs, b.1 ≤ a ∧ a < b.2

theorem InBlocks.mono {bs cs : List (Nat × Nat)} (h : ∀ b ∈ bs, ∃ c ∈ cs, c.1 ≤ b.1 ∧ b.2 ≤ c.2) {a : Nat} (ha : InBlocks bs a) : InBlocks cs a := by
  obtain ⟨b, hb, hlo, hhi⟩ := ha
  have fixed : ∀ {x : Nat × Nat}, x ∈ [((0x20002000, 0x20003000) : Nat × Nat), (0x20004000, 0x20004800), (0x20090000, 0x20098000)] →
      x.1 ≤ a → a < x.2 → InBlocks cs a := fun hx h1 h2 => ⟨_, List.mem_append_left cs hx, h1, h2⟩
  obtain rfl | hb := List.mem_cons.mp hb
  · exact fixed (.head _) hlo hhi
  obtain rfl | hb := List.mem_cons.mp hb
  · exact fixed (.tail _ (.head _)) hlo hhi
  obtain rfl | hb := List.mem_cons.mp hb
  · exact fixed (.tail _ (.tail _ (.head _))) hlo hhi
  · obtain ⟨c, hc, h1, h2⟩ := h b hb
    exact ⟨c, .tail _ (.tail _ (.tail _ hc)), h1.trans hlo, hhi.trans_le h2⟩

theorem InBlocks.ne_of_apart {bs : List (Nat × Nat)} {a : Nat} (h : InBlocks bs a) {r : RF} (hr : Apart bs r) : r.addr ≠ a := by
  obtain ⟨b, hb, hlo, hhi⟩ := h
  intro e
  have := hr.2 b hb
  omega

theorem InBlocks.of_reset {bs : List (Nat × Nat)} {a : Nat} (h : 0x20002000 ≤ a ∧ a < 0x20003000) : InBlocks bs a := ⟨_, .head _, h⟩

theorem InBlocks.of_event {bs : List (Nat × Nat)} {a : Nat} (h : 0x20004000 ≤ a ∧ a < 0x20004800) : InBlocks bs a := ⟨_, .tail _ (.head _), h⟩

theorem InBlocks.of_checker {bs : List (Nat × Nat)} {a : Nat} (h : 0x20090000 ≤ a ∧ a < 0x20098000) : InBlocks bs a :=
  ⟨_, .tail _ (.tail _ (.head _)), h⟩

/-- The address lies in the first of the ranges. -/
theorem InBlocks.of_first {b : Nat × Nat} {bs : List (Nat × Nat)} {a : Nat} (h : b.1 ≤ a ∧ a < b.2) : InBlocks (b :: bs) a :=
  ⟨b, .tail _ (.tail _ (.tail _ (.head _))), h⟩

/-- The address lies in the second of the ranges. -/
theorem InBlocks.of_second {b c : Nat × Nat} {bs : List (Nat × Nat)} {a : Nat} (h : c.1 ≤ a ∧ a < c.2) : InBlocks (b :: c :: bs) a :=
  ⟨c, .tail _ (.tail _ (.tail _ (.tail _ (.head _)))), h⟩

/-- From `d` to `e` only registers of the blocks change, and neither the vats' engines nor the memory; where `K` holds, no core either. -/
structure Dev.Within (bs : List (Nat × Nat)) (K : Prop) (d e : Dev) : Prop where
  f : ∀ r : RF, Apart bs r → e.f r = d.f r
  vats : e.vats = d.vats
  cores : K → e.cores = d.cores
  spares : Dev.SparesMem d e

theorem State.within_commit {bs : List (Nat × Nat)} {K : Prop} {s : State} {d : Dev} (hs : Clean s) (h : Dev.Within bs K s.dev d) :
    (∀ r : RF, Apart bs r → (s.commit d).dev.f r = s.dev.f r) ∧ (s.commit d).dev.vats = s.dev.vats ∧ (K → (s.commit d).dev.cores = s.dev.cores) ∧
      SameMem s (s.commit d) :=
  ⟨fun r hr => (State.commit_f s d r).trans (h.f r hr), h.vats, h.cores, s.commit_sameMem hs h.spares⟩

section
variable {bs : List (Nat × Nat)} {K : Prop} {d e g : Dev}

theorem Dev.Within.refl (d : Dev) : Dev.Within bs K d d := ⟨fun _ _ => rfl, rfl, fun _ => rfl, ⟨rfl, rfl, rfl⟩⟩

theorem Dev.Within.trans (h : Dev.Within bs K d e) (h' : Dev.Within bs K e g) : Dev.Within bs K d g :=
  ⟨fun r hr => (h'.f r hr).trans (h.f r hr), h'.vats.trans h.vats, fun k => (h'.cores k).trans (h.cores k), h.spares.trans h'.spares⟩

/-- More ranges allow more. -/
theorem Dev.Within.mono {cs : List (Nat × Nat)} (hcs : ∀ b ∈ bs, ∃ c ∈ cs, c.1 ≤ b.1 ∧ b.2 ≤ c.2) (h : Dev.Within bs K d e) :
    Dev.Within cs K d e := by
  refine ⟨fun r hr => h.f r ⟨hr.1, fun b hb => ?_⟩, h.vats, h.cores, h.spares⟩
  have fixed : ∀ {x : Nat × Nat}, x ∈ [((0x20002000, 0x20003000) : Nat × Nat), (0x20004000, 0x20004800), (0x20090000, 0x20098000)] →
      r.addr < x.1 ∨ x.2 ≤ r.addr := fun hx => hr.2 _ (List.mem_append_left cs hx)
  obtain rfl | hb := List.mem_cons.mp hb
  · exact fixed (.head _)
  obtain rfl | hb := List.mem_cons.mp hb
  · exact fixed (.tail _ (.head _))
  obtain rfl | hb := List.mem_cons.mp hb
  · exact fixed (.tail _ (.tail _ (.head _)))
  · obtain ⟨c, hc, h1, h2⟩ := hcs b hb
    have := hr.2 c (.tail _ (.tail _ (.tail _ hc)))
    omega

/-- What is within no block of its own is within any. -/
theorem Dev.Within.widen (h : Dev.Within [] K d e) : Dev.Within bs K d e := h.mono (fun _ hb => absurd hb (List.not_mem_nil))

theorem Dev.Within.of_reports (h : Dev.Reports d e) (hf : ∀ r : RF, Apart bs r → e.f r = d.f r) : Dev.Within bs K d e :=
  ⟨hf, h.vats, fun _ => h.cores, h.sparesMem⟩

/-- A change of state that is neither a register's nor an engine's. -/
theorem Dev.Within.of_eq (hregs : e.regs = d.regs) (hvats : e.vats = d.vats) (hcores : e.cores = d.cores) (h : Dev.SparesMem d e) :
    Dev.Within bs K d e :=
  ⟨fun r _ => Dev.f_of_regs hregs r, hvats, fun _ => hcores, h⟩

theorem Apart.outside {r : RF} (h : Apart bs r) : r.addr < 0x20004000 ∨ 0x20004800 ≤ r.addr := h.2 (0x20004000, 0x20004800) (.tail _ (.head _))

theorem Dev.within_setF (d : Dev) {r : RF} (x : Nat) (hl : r.lo < 32) (ha : InBlocks bs r.addr) : Dev.Within bs K d (d.setF r x) :=
  .of_reports (Dev.setF_same d r x) (fun _ hr => Dev.f_setF_ne d x (RF.key_ne (ha.ne_of_apart hr) hl hr.1))

theorem Dev.within_log (d : Dev) (c so i x : Nat) : Dev.Within bs K d (d.log c so i x) :=
  .of_reports (Dev.log_same d c so i x) (fun _ hr => d.f_log_off c so i x hr.1 hr.outside)

theorem Dev.within_pend (d : Dev) {i : Nat} (hi : i < 4096) : Dev.Within bs K d (d.pend i) :=
  .of_reports (Dev.pend_same d i) (fun _ hr => d.f_pend_off hi hr.1 hr.outside)

theorem Dev.within_raise (d : Dev) {r : RF} (m : Nat) {i : Nat} (hi : i < 4096) (hl : r.lo < 32) (ha : InBlocks bs r.addr) :
    Dev.Within bs K d (d.raise r m i) :=
  .of_reports (Dev.raise_reports d r m i) (fun _ hr => d.f_raise_off m hi hr.1 hl hr.outside (fun hc => ha.ne_of_apart hr hc.1))

/-- The answer to an access is neither a register's nor an engine's. -/
theorem Dev.Within.setResp (h : Dev.Within bs K d e) (x : Resp) : Dev.Within bs K d (e.setResp x) := h.trans (.of_eq rfl rfl rfl ⟨rfl, rfl, rfl⟩)

theorem Dev.within_badAccess (d : Dev) (src : Src) (w : Bool) (a : Nat) : Dev.Within bs K d (d.badAccess src w a) :=
  (((Dev.Within.refl d).setResp _).trans (Dev.within_log _ _ _ _ _)).trans (Dev.within_pend _ (by decide))

/-- A denial is recorded in the checker's block and the event block. -/
theorem Dev.within_deny (d : Dev) {t : Nat} (ht : t < 17) (src : Src) (kind : AccessKind) (a : Nat) : Dev.Within bs K d (d.deny t src kind a) := by
  have rc : ∀ (e : Dev) (r : RF) (x : Nat), r.lo < 32 → 0x20090000 ≤ r.addr ∧ r.addr < 0x20098000 → Dev.Within bs K e (e.setF r x) :=
    fun e r x hl ha => e.within_setF x hl (.of_checker ha)
  refine Dev.Within.trans ?_ (Dev.within_pend _ (by decide))
  refine Dev.Within.trans ?_ (Dev.within_log _ _ _ _ _)
  refine Dev.Within.trans ?_ (rc _ (Reg.RC_LAST_SRC_SLICE t) _ (Nat.le_of_ble_eq_true rfl) (by simp only [Reg.RC_LAST_SRC_SLICE, Reg.RC_LAST_SRC_at]; omega))
  refine Dev.Within.trans ?_ (rc _ (Reg.RC_LAST_SRC_EXEC t) _ (Nat.le_of_ble_eq_true rfl) (by simp only [Reg.RC_LAST_SRC_EXEC, Reg.RC_LAST_SRC_at]; omega))
  refine Dev.Within.trans ?_ (rc _ (Reg.RC_LAST_SRC_WRITE t) _ (Nat.le_of_ble_eq_true rfl) (by simp only [Reg.RC_LAST_SRC_WRITE, Reg.RC_LAST_SRC_at]; omega))
  refine Dev.Within.trans ?_ (rc _ (Reg.RC_LAST_SRC_SECURE t) _ (Nat.le_of_ble_eq_true rfl) (by simp only [Reg.RC_LAST_SRC_SECURE, Reg.RC_LAST_SRC_at]; omega))
  refine Dev.Within.trans ?_ (rc _ (Reg.RC_LAST_SRC_MASTER t) _ (Nat.le_of_ble_eq_true rfl) (by simp only [Reg.RC_LAST_SRC_MASTER, Reg.RC_LAST_SRC_at]; omega))
  refine Dev.Within.trans ?_ (rc _ (Reg.RC_LAST_ADDR_PAGE t) _ (Nat.le_of_ble_eq_true rfl) (by simp only [Reg.RC_LAST_ADDR_PAGE, Reg.RC_LAST_ADDR_at]; omega))
  exact ((Dev.Within.refl d).setResp _).trans
    (rc _ (Reg.RC_DENY_COUNT t) _ (Nat.le_of_ble_eq_true rfl) (by simp only [Reg.RC_DENY_COUNT, Reg.RC_DENY_at]; omega))

theorem Dev.within_engineFail (d : Dev) (m : Fin 16) (n : Nat) (kind : AccessKind) (a : Nat) : Dev.Within bs K d (d.engineFail m n kind a) := by
  unfold Dev.engineFail
  dsimp only
  refine Dev.Within.setResp ?_ _
  split
  next t ht =>
    split
    · exact d.within_badAccess _ _ _
    · exact d.within_deny (checkerOf_lt ht) _ _ _
  next => exact d.within_badAccess _ _ _

/-! ### The same rules, after what went before -/

section
variable (h : Dev.Within bs K d e)
include h

theorem Dev.Within.setF {r : RF} (x : Nat) (hl : r.lo < 32) (ha : InBlocks bs r.addr) : Dev.Within bs K d (e.setF r x) := h.trans (e.within_setF x hl ha)

theorem Dev.Within.setB {r : RF} (b : Bool) (hl : r.lo < 32) (ha : InBlocks bs r.addr) : Dev.Within bs K d (e.setB r b) := h.setF _ hl ha

theorem Dev.Within.setTb {r : RF} (i : Nat) (b : Bool) (hl : r.lo < 32) (ha : InBlocks bs r.addr) : Dev.Within bs K d (e.setTb r i b) := h.setF _ hl ha

theorem Dev.Within.bump {r : RF} (n : Nat) (hl : r.lo < 32) (ha : InBlocks bs r.addr) : Dev.Within bs K d (e.bump r n) := h.setF _ hl ha

theorem Dev.Within.wrap {r : RF} (n : Nat) (hl : r.lo < 32) (ha : InBlocks bs r.addr) : Dev.Within bs K d (e.wrap r n) := h.setF _ hl ha

theorem Dev.Within.setF64 {lo hi : RF} (x : Nat) (hlo : lo.lo < 32) (hhi : hi.lo < 32) (halo : InBlocks bs lo.addr) (hahi : InBlocks bs hi.addr) :
    Dev.Within bs K d (e.setF64 lo hi x) := (h.setF x hlo halo).setF _ hhi hahi

theorem Dev.Within.log (c so i x : Nat) : Dev.Within bs K d (e.log c so i x) := h.trans (e.within_log c so i x)

theorem Dev.Within.logRefused (src : Src) (a : Nat) : Dev.Within bs K d (e.logRefused src a) := h.log _ _ _ _

theorem Dev.Within.pend {i : Nat} (hi : i < 4096) : Dev.Within bs K d (e.pend i) := h.trans (e.within_pend hi)

theorem Dev.Within.logR9 (src : Src) (a : Nat) : Dev.Within bs K d (e.logR9 src a) := (h.log _ _ _ _).pend (by decide)

theorem Dev.Within.raise {r : RF} (m : Nat) {i : Nat} (hi : i < 4096) (hl : r.lo < 32) (ha : InBlocks bs r.addr) : Dev.Within bs K d (e.raise r m i) :=
  h.trans (e.within_raise m hi hl ha)

theorem Dev.Within.note (r : RF) (m : Nat) : Dev.Within bs K d (e.note r m) := h.trans (.of_eq rfl rfl rfl ⟨rfl, rfl, rfl⟩)

theorem Dev.Within.engineFail (m : Fin 16) (n : Nat) (kind : AccessKind) (a : Nat) : Dev.Within bs K d (e.engineFail m n kind a) :=
  h.trans (e.within_engineFail m n kind a)

theorem Dev.Within.emit (o : Output) : Dev.Within bs K d (e.emit o) := h.trans (.of_eq rfl rfl rfl ⟨rfl, rfl, rfl⟩)

theorem Dev.Within.free (w : Nat) : Dev.Within bs K d (e.free w).2 := h.trans (.of_eq rfl rfl rfl ⟨rfl, rfl, rfl⟩)

theorem Dev.Within.answer (x : Nat) : Dev.Within bs K d (e.answer x) := h.trans (.of_eq rfl rfl rfl ⟨rfl, rfl, rfl⟩)

theorem Dev.Within.unhold (src : Src) (a : Nat) : Dev.Within bs K d (e.unhold src a) := h.trans (.of_eq rfl rfl rfl ⟨rfl, rfl, rfl⟩)

theorem Dev.Within.foldl {α : Type} {k : Dev → α → Dev} (xs : List α) (hk : ∀ d, ∀ x ∈ xs, Dev.Within bs K d (k d x)) :
    Dev.Within bs K d (xs.foldl k e) :=
  List.foldlRecOn xs k (motive := Dev.Within bs K d) h (fun g hg x hx => hg.trans (hk g x hx))

end

/-! ### Writes of registers -/

theorem Dev.within_tryRow (d : Dev) {a : Nat} (w : Nat) (pick : FieldRow → Verdict) (ha : InBlocks bs a) :
    Dev.Within bs K d (d.tryRow a w pick).1 := by
  unfold Dev.tryRow
  split
  next => exact .refl d
  next row hrow =>
    refine List.foldlRecOn row.fields _ (motive := fun r : Dev × Verdict => Dev.Within bs K d r.1) (.refl d) (fun r hr f hf => ?_)
    obtain h | ⟨x, h⟩ := r.1.writeField_cases row.base a w (pick f) f
    · dsimp only
      rw [h]
      exact hr
    · dsimp only
      rw [h]
      exact hr.setF _ ((Reg.row_fieldsApart hrow).2 f hf) ha

theorem Dev.Within.writeRowWith (h : Dev.Within bs K d e) (src : Src) {a : Nat} (w : Nat) (pick : FieldRow → Verdict) (ha : InBlocks bs a) :
    Dev.Within bs K d (e.writeRowWith src a w pick) := by
  have htry := h.trans (e.within_tryRow w pick ha)
  unfold Dev.writeRowWith
  dsimp only
  split
  · exact htry.logRefused src a
  · exact htry.logR9 src a
  · exact htry

theorem Dev.Within.writeRest (h : Dev.Within bs K d e) (src : Src) {a : Nat} (w : Nat) (own : List Nat) (ha : InBlocks bs a) :
    Dev.Within bs K d (e.writeRest src a w own) := h.writeRowWith src w _ ha

/-- A host's access in a warm reset is counted; a stopped core's leaves nothing. -/
theorem Dev.within_inReset {src : Src} (h : d.inReset src = some e) : Dev.Within bs K d e := by
  have dropped : Dev.Within bs K d d.dropHost :=
    ((Dev.Within.refl d).bump (r := Reg.RST_DROP_COUNT) 1 (by decide) (.of_reset (by decide))).setResp _
  unfold Dev.inReset at h
  split_ifs at h
  · exact Option.some.inj h ▸ .refl d
  · exact Option.some.inj h ▸ dropped
  · exact Option.some.inj h ▸ .refl d

/-- What stops an access to the setup space records it. -/
theorem Dev.within_guard {src : Src} {a : Nat} {w : Bool} (h : d.guard src a w = some e) : Dev.Within bs K d e := by
  have bad : Dev.Within bs K d (d.badAccess src w a) := d.within_badAccess src w a
  have deny : ∀ kind, Dev.Within bs K d (d.deny 14 src kind a) := fun kind => d.within_deny (by decide) src kind a
  have refused : Dev.Within bs K d ((d.answer 0).logRefused src a) := ((Dev.Within.refl d).answer 0).logRefused src a
  unfold Dev.guard at h
  generalize (if w then AccessKind.write else .read) = kind at h
  split at h
  next => exact Option.some.inj h ▸ .refl d
  next =>
    split at h
    next hreset => exact Option.some.inj h ▸ Dev.within_inReset hreset
    next =>
      split at h
      next => exact Option.some.inj h ▸ bad
      next =>
        split at h
        next => exact Option.some.inj h ▸ deny _
        next =>
          split at h
          next => exact Option.some.inj h ▸ bad
          next =>
            split at h
            next => exact Option.some.inj h ▸ bad
            next =>
              split at h
              next => exact Option.some.inj h ▸ bad
              next =>
                split_ifs at h
                · exact Option.some.inj h ▸ deny _
                · exact Option.some.inj h ▸ refused

/-- A write whose meaning stays within the blocks does so whether the guard lets it through or not. -/
theorem Dev.within_onWrite (d : Dev) (src : Src) (a : Nat) {act : Dev → Dev} (h : ∀ d, Dev.Within bs K d (act d)) :
    Dev.Within bs K d (d.onWrite src a act) := by
  unfold Dev.onWrite
  split
  next d' hg => exact Dev.within_guard hg
  next => exact ((Dev.Within.refl d).answer 0).trans (h _)

end

/-! ### Commands -/

section
variable {bs : List (Nat × Nat)} {K : Prop} {i : Instr} {s : State} {d : Dev}

/-- What a command within its blocks answers. -/
def Framed (bs : List (Nat × Nat)) (K : Prop) (i : Instr) (s : State) : Prop :=
  Answers i s (fun t => (∀ r : RF, Apart bs r → t.dev.f r = s.dev.f r) ∧ t.dev.vats = s.dev.vats ∧ (K → t.dev.cores = s.dev.cores) ∧ SameMem s t)

theorem Dev.Within.framed_power (hs : Clean s) (he : exec i s = s.donePower d) (h : Dev.Within bs K s.dev d) : Framed bs K i s :=
  Answers.of_donePower he (s.within_commit hs h)

/-- A command of a held logic die changes nothing. -/
theorem Dev.Within.framed (hs : Clean s) (he : exec i s = s.done d) (h : Dev.Within bs K s.dev d) : Framed bs K i s := by
  obtain hheld | hlive := Bool.eq_false_or_eq_true s.dev.sup.held
  · exact ⟨s, he.trans (if_pos hheld), rfl, fun _ _ => rfl, rfl, fun _ => rfl, fun _ => rfl⟩
  · exact Answers.of_done hlive he (s.within_commit hs h)

end

end Sys2Proof.Machine
end

section
/-!
PROOF. What an engine's access to the device's memory meets rests on the checkers, the banks' power states and the DRAM's state alone (R307, R310).
-/

namespace Sys2Proof.Machine
open Sys2Proof

/-- A field an access of an engine to memory rests on: the checkers', the power states of the blocks, DRAM_STAT. -/
def RF.Guards (r : RF) : Prop :=
  r.lo < 32 ∧ ((0x20090000 ≤ r.addr ∧ r.addr < 0x20098000) ∨ (0x20001610 ≤ r.addr ∧ r.addr < 0x20001710) ∨ r.addr = Reg.DRAM_STAT_at)

section
variable {d e : Dev} (h : Dev.Keeps RF.Guards d e)
include h

theorem Dev.Keeps.checkerField {r : RF} (hl : r.lo < 32) (ha : 0x20090000 ≤ r.addr ∧ r.addr < 0x20098000) : e.f r = d.f r := h r ⟨hl, .inl ha⟩

section
variable {t : Nat} (ht : t < 17) (src : Src) (addr : Nat)
include ht

theorem Dev.Keeps.rcMatch {r : Nat} (hr : r < 16) : e.rcMatch t r src addr = d.rcMatch t r src addr := by
  have perm : ∀ {q : RF}, q.lo < 32 → q.addr = Reg.RC_R_PERM_at t r → e.f q = d.f q := fun hl ha =>
    h.checkerField hl (by rw [ha]; simp only [Reg.RC_R_PERM_at]; omega)
  have hbase : e.f (Reg.RC_R_BASE_PAGE t r) = d.f (Reg.RC_R_BASE_PAGE t r) :=
    h.checkerField (Nat.le_of_ble_eq_true rfl) (by simp only [Reg.RC_R_BASE_PAGE, Reg.RC_R_BASE_at]; omega)
  have hlimit : e.f (Reg.RC_R_LIMIT_PAGE t r) = d.f (Reg.RC_R_LIMIT_PAGE t r) :=
    h.checkerField (Nat.le_of_ble_eq_true rfl) (by simp only [Reg.RC_R_LIMIT_PAGE, Reg.RC_R_LIMIT_at]; omega)
  unfold Dev.rcMatch
  rw [hbase, hlimit, Dev.bit_of_f (perm (q := Reg.RC_R_PERM_VALID t r) (Nat.le_of_ble_eq_true rfl) rfl),
    Dev.tb_of_f (perm (q := Reg.RC_R_PERM_MASTERS t r) (Nat.le_of_ble_eq_true rfl) rfl),
    Dev.bit_of_f (perm (q := Reg.RC_R_PERM_SLICE_EN t r) (Nat.le_of_ble_eq_true rfl) rfl),
    perm (q := Reg.RC_R_PERM_SLICE t r) (Nat.le_of_ble_eq_true rfl) rfl]

theorem Dev.Keeps.rcGrants {r : Nat} (hr : r < 16) (kind : AccessKind) : e.rcGrants t r src kind = d.rcGrants t r src kind := by
  have perm : ∀ {q : RF}, q.lo < 32 → q.addr = Reg.RC_R_PERM_at t r → e.f q = d.f q := fun hl ha =>
    h.checkerField hl (by rw [ha]; simp only [Reg.RC_R_PERM_at]; omega)
  unfold Dev.rcGrants
  split
  · exact Dev.bit_of_f (perm (Nat.le_of_ble_eq_true rfl) rfl)
  · exact Dev.bit_of_f (perm (Nat.le_of_ble_eq_true rfl) rfl)
  · exact Dev.bit_of_f (perm (Nat.le_of_ble_eq_true rfl) rfl)
  · exact Dev.bit_of_f (perm (Nat.le_of_ble_eq_true rfl) rfl)
  · exact Dev.bit_of_f (perm (Nat.le_of_ble_eq_true rfl) rfl)
  · exact Dev.bit_of_f (perm (Nat.le_of_ble_eq_true rfl) rfl)

theorem Dev.Keeps.permits (kind : AccessKind) : e.permits t src kind addr = d.permits t src kind addr := by
  have hen : e.bit (Reg.RC_CTL_EN t) = d.bit (Reg.RC_CTL_EN t) :=
    Dev.bit_of_f (h.checkerField (Nat.le_of_ble_eq_true rfl) (by simp only [Reg.RC_CTL_EN, Reg.RC_CTL_at]; omega))
  have hmatch : (List.range 16).find? (fun r => e.rcMatch t r src addr) = (List.range 16).find? (fun r => d.rcMatch t r src addr) :=
    List.find?_congr (fun r hr => h.rcMatch ht src addr (List.mem_range.mp hr))
  unfold Dev.permits
  rw [hen, hmatch]
  split
  · split
    next r hr => exact h.rcGrants ht src (List.mem_range.mp (List.mem_of_find?_eq_some hr)) kind
    next => rfl
  · rfl

end

theorem Dev.Keeps.serves (addr : Nat) : e.serves addr = d.serves addr := by
  have power : ∀ b, b < 64 → e.f (Reg.PWR_QTAG_STATE b) = d.f (Reg.PWR_QTAG_STATE b) := fun b hb =>
    h _ ⟨Nat.le_of_ble_eq_true rfl, .inr (.inl (by simp only [Reg.PWR_QTAG_STATE, Reg.PWR_QTAG_at]; omega))⟩
  have dram : ∀ lo w, lo < 32 → e.f ⟨Reg.DRAM_STAT_at, lo, w, 0, false⟩ = d.f ⟨Reg.DRAM_STAT_at, lo, w, 0, false⟩ := fun lo w hl =>
    h _ ⟨hl, .inr (.inr rfl)⟩
  unfold Dev.serves
  split
  next ha =>
    have hlt : 8 + (addr - 0x10000000) / 0x200000 < 64 := by
      simp only [inSram, Bool.and_eq_true, decide_eq_true_eq] at ha
      omega
    rw [power _ hlt]
  next =>
    split
    · rw [power 38 (by decide), Dev.bit_of_f (show e.f Reg.DRAM_STAT_READY = d.f Reg.DRAM_STAT_READY from dram _ _ (by decide)),
        show e.f Reg.DRAM_STAT_WINDOW = d.f Reg.DRAM_STAT_WINDOW from dram _ _ (by decide)]
    · rw [power 39 (by decide)]

theorem Dev.Keeps.pageOpen (m : Fin 16) (n : Nat) (kind : AccessKind) (addr : Nat) : e.pageOpen m n kind addr = d.pageOpen m n kind addr := by
  unfold Dev.pageOpen
  split
  next t ht => rw [h.permits (checkerOf_lt ht), h.serves]
  next => rfl

theorem Dev.Keeps.reach (hw : e.rcWait = d.rcWait) (m : Fin 16) (n : Nat) (kind : AccessKind) (addr len : Nat) :
    e.reach m n kind addr len = d.reach m n kind addr len := by
  have hwaits : e.rcWaits = d.rcWaits := by
    funext a
    unfold Dev.rcWaits
    rw [hw]
  have hopen : ∀ a, e.pageOpen m n kind a = d.pageOpen m n kind a := h.pageOpen m n kind
  unfold Dev.reach
  simp only [hwaits, hopen]

end

end Sys2Proof.Machine
end

section
/-!
PROOF. What the operations of a CAN controller may write (R282-R297).
-/

namespace Sys2Proof.Machine
open Sys2Proof

/-- The registers of controller `n` that its operations write: CAN_CTL, and those from CAN_STAT on. -/
def canBlocks (n : Fin 8) : List (Nat × Nat) :=
  [(0x20070000 + 0x1000 * n.1, 0x20070004 + 0x1000 * n.1), (0x20070014 + 0x1000 * n.1, 0x20071000 + 0x1000 * n.1)]

theorem canBlocks_within (n : Fin 8) : ∀ b ∈ canBlocks n, ∃ c ∈ [(0x20070000, 0x20080000)], c.1 ≤ b.1 ∧ b.2 ≤ c.2 := by
  intro b hb
  refine ⟨_, .head _, ?_⟩
  obtain rfl | hb := List.mem_cons.mp hb
  · dsimp only
    omega
  · obtain rfl := List.mem_singleton.mp hb
    dsimp only
    omega

section
variable (n : Fin 8)

theorem inCan_ctl : InBlocks (canBlocks n) (Reg.CAN_CTL_at n.1) := .of_first (by simp only [Reg.CAN_CTL_at]; omega)
theorem inCan_stat : InBlocks (canBlocks n) (Reg.CAN_STAT_at n.1) := .of_second (by simp only [Reg.CAN_STAT_at]; omega)
theorem inCan_ecnt : InBlocks (canBlocks n) (Reg.CAN_ECNT_at n.1) := .of_second (by simp only [Reg.CAN_ECNT_at]; omega)
theorem inCan_evt : InBlocks (canBlocks n) (Reg.CAN_EVT_at n.1) := .of_second (by simp only [Reg.CAN_EVT_at]; omega)
theorem inCan_fifoCi (i : Fin 2) : InBlocks (canBlocks n) (Reg.CAN_FIFO_CI_at n.1 i.1) := .of_second (by simp only [Reg.CAN_FIFO_CI_at]; omega)
theorem inCan_txgo : InBlocks (canBlocks n) (Reg.CAN_TXGO_at n.1) := .of_second (by simp only [Reg.CAN_TXGO_at]; omega)
theorem inCan_txabort : InBlocks (canBlocks n) (Reg.CAN_TXABORT_at n.1) := .of_second (by simp only [Reg.CAN_TXABORT_at]; omega)
theorem inCan_txaborted : InBlocks (canBlocks n) (Reg.CAN_TXABORTED_at n.1) := .of_second (by simp only [Reg.CAN_TXABORTED_at]; omega)
theorem inCan_txfail : InBlocks (canBlocks n) (Reg.CAN_TXFAIL_at n.1) := .of_second (by simp only [Reg.CAN_TXFAIL_at]; omega)
theorem inCan_txbusy : InBlocks (canBlocks n) (Reg.CAN_TXBUSY_at n.1) := .of_second (by simp only [Reg.CAN_TXBUSY_at]; omega)
theorem inCan_supStat : InBlocks (canBlocks n) (Reg.CAN_SUP_STAT_at n.1) := .of_second (by simp only [Reg.CAN_SUP_STAT_at]; omega)
theorem inCan_boffCnt : InBlocks (canBlocks n) (Reg.CAN_BOFF_CNT_at n.1) := .of_second (by simp only [Reg.CAN_BOFF_CNT_at]; omega)

end

/-- From `d` to `e` there are only settings of the controller's registers, reports, failed accesses, changes of its state that keep its bit clock,
and outputs. -/
inductive Dev.CanSteps (n : Fin 8) : Dev → Dev → Prop
  | refl (d : Dev) : Dev.CanSteps n d d
  | setF {d e : Dev} (h : Dev.CanSteps n d e) {r : RF} (x : Nat) (hl : r.lo < 32) (ha : InBlocks (canBlocks n) r.addr) : Dev.CanSteps n d (e.setF r x)
  | note {d e : Dev} (h : Dev.CanSteps n d e) (r : RF) (m : Nat) : Dev.CanSteps n d (e.note r m)
  | raise {d e : Dev} (h : Dev.CanSteps n d e) {r : RF} (m : Nat) {i : Nat} (hi : i < 4096) (hl : r.lo < 32) (ha : InBlocks (canBlocks n) r.addr) :
      Dev.CanSteps n d (e.raise r m i)
  | log {d e : Dev} (h : Dev.CanSteps n d e) (c so i x : Nat) : Dev.CanSteps n d (e.log c so i x)
  | engineFail {d e : Dev} (h : Dev.CanSteps n d e) (m : Fin 16) (k : Nat) (kind : AccessKind) (a : Nat) : Dev.CanSteps n d (e.engineFail m k kind a)
  | modCan {d e : Dev} (h : Dev.CanSteps n d e) {g : Can → Can} (hg : ∀ c, (g c).clock = c.clock) : Dev.CanSteps n d (e.modCan n g)
  | emit {d e : Dev} (h : Dev.CanSteps n d e) (o : Output) : Dev.CanSteps n d (e.emit o)

/-- Such steps stay within the controller's blocks. -/
theorem Dev.CanSteps.within {n : Fin 8} {K : Prop} {d e : Dev} (h : Dev.CanSteps n d e) : Dev.Within (canBlocks n) K d e := by
  induction h with
  | refl => exact .refl d
  | setF _ x hl ha ih => exact ih.setF x hl ha
  | note _ r m ih => exact ih.note r m
  | raise _ m hi hl ha ih => exact ih.raise m hi hl ha
  | log _ c so i x ih => exact ih.log c so i x
  | engineFail _ m k kind a ih => exact ih.engineFail m k kind a
  | modCan _ _ ih => exact ih.trans (.of_eq rfl rfl rfl ⟨rfl, rfl, rfl⟩)
  | emit _ o ih => exact ih.emit o

/-- Such steps keep the controller's bit clock. -/
theorem Dev.CanSteps.clock {n : Fin 8} {d e : Dev} (h : Dev.CanSteps n d e) : (e.can[n]).clock = (d.can[n]).clock := by
  induction h with
  | refl => rfl
  | setF _ x hl ha ih => exact ih
  | note _ r m ih => exact ih
  | raise _ m hi hl ha ih => rw [Dev.raise_can, ih]
  | log _ c so i x ih => rw [Dev.log_can, ih]
  | engineFail _ m k kind a ih => rw [(Dev.engineFail_work _ m k kind a).can, ih]
  | modCan _ hg ih => exact (congrArg Can.clock (getElem_put_same _ _ _)).trans ((hg _).trans ih)
  | emit _ o ih => exact ih

section
variable {n : Fin 8} {d e : Dev} (h : Dev.CanSteps n d e)
include h

theorem Dev.CanSteps.setTb {r : RF} (i : Nat) (b : Bool) (hl : r.lo < 32) (ha : InBlocks (canBlocks n) r.addr) : Dev.CanSteps n d (e.setTb r i b) :=
  h.setF _ hl ha

theorem Dev.CanSteps.bump {r : RF} (k : Nat) (hl : r.lo < 32) (ha : InBlocks (canBlocks n) r.addr) : Dev.CanSteps n d (e.bump r k) := h.setF _ hl ha

theorem Dev.CanSteps.logRefused (src : Src) (a : Nat) : Dev.CanSteps n d (e.logRefused src a) := h.log _ _ _ _

theorem Dev.CanSteps.trans {g : Dev} (h' : Dev.CanSteps n e g) : Dev.CanSteps n d g := by
  induction h' with
  | refl => exact h
  | setF _ x hl ha ih => exact ih.setF x hl ha
  | note _ r m ih => exact ih.note r m
  | raise _ m hi hl ha ih => exact ih.raise m hi hl ha
  | log _ c so i x ih => exact ih.log c so i x
  | engineFail _ m k kind a ih => exact ih.engineFail m k kind a
  | modCan _ hg ih => exact ih.modCan hg
  | emit _ o ih => exact ih.emit o

theorem Dev.CanSteps.foldl {α : Type} {k : Dev → α → Dev} (xs : List α) (hk : ∀ d, ∀ x ∈ xs, Dev.CanSteps n d (k d x)) :
    Dev.CanSteps n d (xs.foldl k e) :=
  List.foldlRecOn xs k (motive := Dev.CanSteps n d) h (fun g hg x hx => hg.trans (hk g x hx))

/-- No frame of the controller is on the bus any more. -/
theorem Dev.CanSteps.offBus : Dev.CanSteps n d (e.modCan n (fun c => { c with onBus := none })) :=
  h.modCan (g := fun c => { c with onBus := none }) (fun _ => rfl)

/-- An event of the controller; its field stands in CAN_EVT. -/
theorem Dev.CanSteps.canEvt {r : Nat → RF} (hl : (r n.1).lo < 32) (ha : (r n.1).addr = Reg.CAN_EVT_at n.1) : Dev.CanSteps n d (e.canEvt n r) :=
  h.raise 1 (by omega) hl (ha ▸ inCan_evt n)

theorem Dev.CanSteps.endBuf (b : Fin 32) {r : RF} (hl : r.lo < 32) (ha : InBlocks (canBlocks n) r.addr) : Dev.CanSteps n d (e.endBuf n b r) :=
  ((((h.setTb _ _ (Nat.le_of_ble_eq_true rfl) (inCan_txbusy n)).setTb _ _ (Nat.le_of_ble_eq_true rfl) (inCan_txgo n)).setTb _ _
    (Nat.le_of_ble_eq_true rfl) (inCan_txabort n)).note r _).setTb _ _ hl ha

theorem Dev.CanSteps.withdraw (b : Fin 32) : Dev.CanSteps n d (e.withdraw n b) :=
  (h.endBuf b (Nat.le_of_ble_eq_true rfl) (inCan_txaborted n)).canEvt (Nat.le_of_ble_eq_true rfl) rfl

theorem Dev.CanSteps.abandon : Dev.CanSteps n d (e.abandon n) := by
  unfold Dev.abandon
  split
  next b _ =>
    dsimp only
    split
    · exact h.offBus.withdraw b
    · exact h.offBus
  next => exact h

theorem Dev.CanSteps.canInit : Dev.CanSteps n d (e.canInit n) :=
  (((h.setF _ (Nat.le_of_ble_eq_true rfl) (inCan_ctl n)).setF _ (Nat.le_of_ble_eq_true rfl) (inCan_stat n)).setF _
    (Nat.le_of_ble_eq_true rfl) (inCan_stat n)).abandon

theorem Dev.CanSteps.canAreaErr (kind : AccessKind) (a : Nat) : Dev.CanSteps n d (e.canAreaErr n kind a) :=
  ((h.engineFail 10 0 kind a).canEvt (Nat.le_of_ble_eq_true rfl) rfl).canInit

theorem Dev.CanSteps.canIntegrate : Dev.CanSteps n d (e.canIntegrate n) := by
  unfold Dev.canIntegrate
  split
  · exact h.setF _ (Nat.le_of_ble_eq_true rfl) (inCan_stat n)
  · split
    · exact h.setF _ (Nat.le_of_ble_eq_true rfl) (inCan_supStat n)
    · exact h

theorem Dev.CanSteps.canRecover : Dev.CanSteps n d (e.canRecover n) :=
  (h.setF _ (Nat.le_of_ble_eq_true rfl) (inCan_stat n)).setF _ (Nat.le_of_ble_eq_true rfl) (inCan_supStat n)

theorem Dev.CanSteps.canRestart : Dev.CanSteps n d (e.canRestart n) := by
  have hcleared := ((h.setF (r := Reg.CAN_SUP_STAT_LATCHED n.1) 0 (Nat.le_of_ble_eq_true rfl) (inCan_supStat n)).setF
    (r := Reg.CAN_SUP_STAT_BOCNT n.1) 0 (Nat.le_of_ble_eq_true rfl) (inCan_supStat n)).modCan (g := fun c => { c with boff := [] }) (fun _ => rfl)
  unfold Dev.canRestart
  dsimp only
  split
  · exact hcleared.canRecover
  · exact hcleared

end

/-! ### Going bus-off, in its steps (R290, R291) -/

/-- Bus-off counted and shown. -/
def Dev.boffCounted (d : Dev) (n : Fin 8) : Dev :=
  (((d.setF (Reg.CAN_STAT_STATE n.1) 2).setF (Reg.CAN_STAT_SYNC n.1) 0).bump (Reg.CAN_BOFF_CNT_COUNT n.1)).canEvt n Reg.CAN_EVT_BUSOFF

/-- The supervisor's window with one bus-off more, and its count. -/
def Dev.boffFiled (d : Dev) (n : Fin 8) : Dev :=
  (d.modCan n (fun c => { c with boff := (d.up :: d.boffNow n).take 255 })).setF (Reg.CAN_SUP_STAT_BOCNT n.1) ((d.up :: d.boffNow n).take 255).length

/-- The supervisor's latch, where the window holds as many as its limit. -/
def Dev.boffJudged (d : Dev) (n : Fin 8) : Dev :=
  if d.f (Reg.CAN_SUP_CFG_LIMIT n.1) = 0 then d
  else if ((d.up :: d.boffNow n).take 255).length ≥ d.f (Reg.CAN_SUP_CFG_LIMIT n.1) then
    ((d.boffFiled n).setF (Reg.CAN_SUP_STAT_LATCHED n.1) 1).canEvt n Reg.CAN_EVT_LATCH
  else d.boffFiled n

/-- What follows a bus-off: a restart of the same instant, or recovery by the policy. -/
def Dev.boffFollowed (d : Dev) (n : Fin 8) : Dev :=
  if (d.can[n]).restartAt = some d.now then d.canRestart n
  else if d.bit (Reg.CAN_SUP_CFG_AUTO n.1) && !d.bit (Reg.CAN_SUP_STAT_LATCHED n.1) then d.canRecover n else d

theorem Dev.busOff_eq (d : Dev) (n : Fin 8) : d.busOff n = ((d.boffCounted n).boffJudged n).boffFollowed n := rfl

/-! ### The counters and an error (R289) -/

/-- Both counters set, and WARN where either first reaches 96. -/
def Dev.canCounted (d : Dev) (n : Fin 8) (tec rec : Nat) : Dev :=
  let e := (d.setF (Reg.CAN_ECNT_TEC n.1) (min tec 511)).setF (Reg.CAN_ECNT_REC n.1) (min rec 255)
  if (d.f (Reg.CAN_ECNT_TEC n.1) < 96 ∧ 96 ≤ tec) ∨ (d.f (Reg.CAN_ECNT_REC n.1) < 96 ∧ 96 ≤ rec) then e.canEvt n Reg.CAN_EVT_WARN else e

/-- The state the new counters give, `old` being the state before. -/
def Dev.canStated (d : Dev) (n : Fin 8) (old : Nat) : Dev :=
  if d.canStateOf n = 2 then d.busOff n
  else if old = 0 ∧ d.canStateOf n = 1 then (d.setF (Reg.CAN_STAT_STATE n.1) (d.canStateOf n)).canEvt n Reg.CAN_EVT_PASSIVE
  else d.setF (Reg.CAN_STAT_STATE n.1) (d.canStateOf n)

theorem Dev.canCounters_eq (d : Dev) (n : Fin 8) (tec rec : Nat) :
    d.canCounters n tec rec = (d.canCounted n tec rec).canStated n (d.canStateOf n) := rfl

/-- The code an error is recorded under. -/
def canErrCode : CanErr → Nat
  | .bitRecessive => 1
  | .bitDominant => 2
  | .stuff => 3
  | .form => 4
  | .crc => 5
  | .ack => 6
  | .resBit => 4

/-- The error recorded and signalled, `tx` saying whose frame it ends. -/
def Dev.canErrShown (d : Dev) (n : Fin 8) (code : Nat) (dataPhase tx : Bool) : Dev :=
  ((d.setF (if dataPhase then Reg.CAN_STAT_ERR_D n.1 else Reg.CAN_STAT_ERR_N n.1) code).canSignal n
    (.canErrorFlag n.1 !(d.f (Reg.CAN_STAT_STATE n.1) == 1))).modCan n (fun c => { c with errTx := tx })

/-- The controller's own attempt fails, if one is under way. -/
def Dev.canAttemptEnds (d : Dev) (n : Fin 8) : Dev :=
  match (d.can[n]).onBus with
  | some b => d.attemptFails n b
  | none => d

/-- Whose frame an error concerns. -/
def Dev.canErrTx (d : Dev) (n : Fin 8) (count : CanCount) : Bool :=
  if count == .dominant || count == .flagBit then (d.can[n]).errTx else ((d.can[n]).onBus).isSome

/-- An error that is counted: all but a dominant bit after the flag is recorded and ends the attempt. -/
def Dev.canErrMet (d : Dev) (n : Fin 8) (err : CanErr) (dataPhase : Bool) (count : CanCount) : Dev :=
  if count == .dominant then d else (d.canErrShown n (canErrCode err) dataPhase (d.canErrTx n count)).canAttemptEnds n

/-- The counters one error further. -/
def Dev.canErrCounted (d : Dev) (n : Fin 8) (x : Nat × Nat) : Dev :=
  d.canCounters n (d.f (Reg.CAN_ECNT_TEC n.1) + x.1) (d.f (Reg.CAN_ECNT_REC n.1) + x.2)

theorem Dev.canError_eq (d : Dev) (n : Fin 8) (err : CanErr) (dataPhase : Bool) (count : CanCount) :
    d.canError n err dataPhase count =
      if !d.canActive n then d
      else if err == .resBit && d.bit (Reg.CAN_CTL_PEX_EN n.1) then (d.setF (Reg.CAN_STAT_SYNC n.1) 0).canEvt n Reg.CAN_EVT_PEX
      else if err == .ack && d.bit (Reg.CAN_CTL_LOOP n.1) then d
      else (d.canErrMet n err dataPhase count).canErrCounted n (canAdds (d.canErrTx n count) (d.f (Reg.CAN_STAT_STATE n.1) == 1) err count) := by
  cases err <;> rfl

section
variable {n : Fin 8} {d e : Dev} (h : Dev.CanSteps n d e)
include h

theorem Dev.CanSteps.boffCounted : Dev.CanSteps n d (e.boffCounted n) :=
  (((h.setF _ (Nat.le_of_ble_eq_true rfl) (inCan_stat n)).setF _ (Nat.le_of_ble_eq_true rfl) (inCan_stat n)).bump _
    (Nat.le_of_ble_eq_true rfl) (inCan_boffCnt n)).canEvt (Nat.le_of_ble_eq_true rfl) rfl

theorem Dev.CanSteps.boffFiled : Dev.CanSteps n d (e.boffFiled n) :=
  (h.modCan (g := fun c => { c with boff := (e.up :: e.boffNow n).take 255 }) (fun _ => rfl)).setF _ (Nat.le_of_ble_eq_true rfl) (inCan_supStat n)

theorem Dev.CanSteps.boffJudged : Dev.CanSteps n d (e.boffJudged n) := by
  unfold Dev.boffJudged
  split
  · exact h
  · split
    · exact (h.boffFiled.setF _ (Nat.le_of_ble_eq_true rfl) (inCan_supStat n)).canEvt (Nat.le_of_ble_eq_true rfl) rfl
    · exact h.boffFiled

theorem Dev.CanSteps.boffFollowed : Dev.CanSteps n d (e.boffFollowed n) := by
  unfold Dev.boffFollowed
  split
  · exact h.canRestart
  · split
    · exact h.canRecover
    · exact h

theorem Dev.CanSteps.busOff : Dev.CanSteps n d (e.busOff n) := e.busOff_eq n ▸ h.boffCounted.boffJudged.boffFollowed

theorem Dev.CanSteps.canCounted (tec rec : Nat) : Dev.CanSteps n d (e.canCounted n tec rec) := by
  have hset := (h.setF (r := Reg.CAN_ECNT_TEC n.1) (min tec 511) (Nat.le_of_ble_eq_true rfl) (inCan_ecnt n)).setF
    (r := Reg.CAN_ECNT_REC n.1) (min rec 255) (Nat.le_of_ble_eq_true rfl) (inCan_ecnt n)
  unfold Dev.canCounted
  dsimp only
  split
  · exact hset.canEvt (Nat.le_of_ble_eq_true rfl) rfl
  · exact hset

theorem Dev.CanSteps.canStated (old : Nat) : Dev.CanSteps n d (e.canStated n old) := by
  have hset := h.setF (r := Reg.CAN_STAT_STATE n.1) (e.canStateOf n) (Nat.le_of_ble_eq_true rfl) (inCan_stat n)
  unfold Dev.canStated
  split
  · exact h.busOff
  · split
    · exact hset.canEvt (Nat.le_of_ble_eq_true rfl) rfl
    · exact hset

theorem Dev.CanSteps.canCounters (tec rec : Nat) : Dev.CanSteps n d (e.canCounters n tec rec) :=
  e.canCounters_eq n tec rec ▸ (h.canCounted tec rec).canStated _

theorem Dev.CanSteps.attemptFails (b : Fin 32) : Dev.CanSteps n d (e.attemptFails n b) := by
  unfold Dev.attemptFails
  dsimp only
  split
  · exact h.offBus.withdraw b
  · split
    · exact h.offBus.endBuf b (Nat.le_of_ble_eq_true rfl) (inCan_txfail n)
    · exact h.offBus

theorem Dev.CanSteps.canSignal (o : Output) : Dev.CanSteps n d (e.canSignal n o) := by
  unfold Dev.canSignal
  split
  · exact h
  · exact h.emit o

theorem Dev.CanSteps.canAttemptEnds : Dev.CanSteps n d (e.canAttemptEnds n) := by
  unfold Dev.canAttemptEnds
  split
  next b _ => exact h.attemptFails b
  next => exact h

theorem Dev.CanSteps.canErrMet (err : CanErr) (ph : Bool) (c : CanCount) : Dev.CanSteps n d (e.canErrMet n err ph c) := by
  unfold Dev.canErrMet
  split
  · exact h
  · refine Dev.CanSteps.canAttemptEnds (((h.setF (canErrCode err) ?_ ?_).canSignal _).modCan
      (g := fun x => { x with errTx := e.canErrTx n c }) (fun _ => rfl))
    · cases ph <;> exact Nat.le_of_ble_eq_true rfl
    · cases ph <;> exact inCan_stat n

theorem Dev.CanSteps.canError (err : CanErr) (ph : Bool) (c : CanCount) : Dev.CanSteps n d (e.canError n err ph c) := by
  rw [Dev.canError_eq]
  split
  · exact h
  · split
    · exact (h.setF _ (Nat.le_of_ble_eq_true rfl) (inCan_stat n)).canEvt (Nat.le_of_ble_eq_true rfl) rfl
    · split
      · exact h
      · exact (h.canErrMet err ph c).canCounters _ _

theorem Dev.CanSteps.canRecovered : Dev.CanSteps n d (e.canRecovered n) := by
  unfold Dev.canRecovered
  split
  · exact ((((((h.setF _ (Nat.le_of_ble_eq_true rfl) (inCan_ecnt n)).setF _ (Nat.le_of_ble_eq_true rfl) (inCan_ecnt n)).setF _
      (Nat.le_of_ble_eq_true rfl) (inCan_stat n)).setF _ (Nat.le_of_ble_eq_true rfl) (inCan_supStat n)).setF _
      (Nat.le_of_ble_eq_true rfl) (inCan_stat n)).setF _ (Nat.le_of_ble_eq_true rfl) (inCan_stat n)).canEvt (Nat.le_of_ble_eq_true rfl) rfl
  · exact h

theorem Dev.CanSteps.supCmd (w : Nat) : Dev.CanSteps n d (e.supCmd n w) := by
  unfold Dev.supCmd
  split
  · exact h.canRestart.modCan (fun _ => rfl)
  · exact h

theorem Dev.CanSteps.canValidate (word : Nat → Nat → Nat) (mem : Nat → Nat → List Byte) : Dev.CanSteps n d (e.canValidate word mem n) := by
  unfold Dev.canValidate
  split
  · exact h
  · exact h.canAreaErr _ _
  · refine h.foldl _ (fun g b _ => ?_)
    split
    · exact (Dev.CanSteps.refl g).endBuf b (Nat.le_of_ble_eq_true rfl) (inCan_txfail n)
    · exact .refl g

end

/-- One buffer requested, and withdrawn where a withdrawal of this instant names it. -/
def Dev.txgoStep (n : Fin 8) (w : Nat) (d : Dev) (b : Fin 32) : Dev :=
  if w.testBit b.1 && !d.canPending n b then
    let d := (d.setTb (Reg.CAN_TXBUSY_BUF n.1) b.1 true).setTb (Reg.CAN_TXGO_BUF n.1) b.1 true
    if (d.abortNow n).testBit b.1 then d.withdraw n b else d
  else d

theorem Dev.txgo_eq (d : Dev) (word : Nat → Nat → Nat) (mem : Nat → Nat → List Byte) (n : Fin 8) (w : Nat) :
    d.txgo word mem n w = ((List.finRange 32).foldl (Dev.txgoStep n w) d).canValidate word mem n := rfl

/-- One buffer's withdrawal: at once, or after its attempt. -/
def Dev.txabortStep (n : Fin 8) (w : Nat) (d : Dev) (b : Fin 32) : Dev :=
  if w.testBit b.1 && d.canPending n b then
    if (d.can[n]).onBus = some b ∨ ((d.can[n]).tsWait).map (·.1) = some b then d.setTb (Reg.CAN_TXABORT_BUF n.1) b.1 true else d.withdraw n b
  else d

theorem Dev.txabort_eq (d : Dev) (n : Fin 8) (w : Nat) :
    d.txabort n w = ((List.finRange 32).foldl (Dev.txabortStep n w) d).modCan n (fun c =>
      { c with abortAt := some (((List.finRange 32).foldl (Dev.txabortStep n w) d).now, w ||| d.abortNow n) }) := rfl

section
variable {n : Fin 8} {d e : Dev} (h : Dev.CanSteps n d e)
include h

theorem Dev.CanSteps.txgoStep (w : Nat) (b : Fin 32) : Dev.CanSteps n d (Dev.txgoStep n w e b) := by
  have hset := (h.setTb (r := Reg.CAN_TXBUSY_BUF n.1) b.1 true (Nat.le_of_ble_eq_true rfl) (inCan_txbusy n)).setTb
    (r := Reg.CAN_TXGO_BUF n.1) b.1 true (Nat.le_of_ble_eq_true rfl) (inCan_txgo n)
  unfold Dev.txgoStep
  split
  · dsimp only
    split
    · exact hset.withdraw b
    · exact hset
  · exact h

theorem Dev.CanSteps.txgo (word : Nat → Nat → Nat) (mem : Nat → Nat → List Byte) (w : Nat) : Dev.CanSteps n d (e.txgo word mem n w) :=
  (h.foldl _ (fun g b _ => (Dev.CanSteps.refl g).txgoStep w b)).canValidate word mem

theorem Dev.CanSteps.txabortStep (w : Nat) (b : Fin 32) : Dev.CanSteps n d (Dev.txabortStep n w e b) := by
  unfold Dev.txabortStep
  split
  · split
    · exact h.setTb _ _ (Nat.le_of_ble_eq_true rfl) (inCan_txabort n)
    · exact h.withdraw b
  · exact h

theorem Dev.CanSteps.txabort (w : Nat) : Dev.CanSteps n d (e.txabort n w) :=
  e.txabort_eq n w ▸ (h.foldl _ (fun g b _ => (Dev.CanSteps.refl g).txabortStep w b)).modCan (fun _ => rfl)

theorem Dev.CanSteps.canCi (src : Src) (i : Fin 2) (c : Nat) : Dev.CanSteps n d (e.canCi src n i c) := by
  unfold Dev.canCi
  split
  · exact h.setF _ (Nat.le_of_ble_eq_true rfl) (inCan_fifoCi n i)
  · exact h.logRefused src _

end

end Sys2Proof.Machine
end

section
/-!
PROOF. CAN frames received and sent, and their buffers (R284, R293-R297).
-/

namespace Sys2Proof.Machine
open Sys2Proof

theorem Dev.f_canEvt (d : Dev) (n : Fin 8) {g : Nat → RF} {r : RF} (hg : (g n.1).lo < 32) (ha : (g n.1).addr = Reg.CAN_EVT_at n.1) (hl : r.lo < 32)
    (h : r.addr < 0x20004000 ∨ 0x20004800 ≤ r.addr) (hne : r.addr ≠ Reg.CAN_EVT_at n.1) : (d.canEvt n g).f r = d.f r :=
  Dev.f_raise_off _ _ (by omega) hl hg h (fun hc => hne (hc.1.trans ha))

theorem Dev.canEvt_reports (d : Dev) (n : Fin 8) (g : Nat → RF) : Dev.Reports d (d.canEvt n g) := Dev.raise_reports _ _ _ _

/-! ### A frame heard (R284, R288) -/

/-- The bit clock after a frame's edges. -/
def Dev.canClockAfter (d : Dev) (n : Fin 8) (es : List CanEdge) : CanClock :=
  es.foldl (d.canEdge n) (d.canEdge n { (d.can[n]).clock with data := false } (.hard 0))

/-- The frame's edges followed, and the frame acknowledged. -/
def Dev.canHeard (d : Dev) (n : Fin 8) (es : List CanEdge) : Dev := ((d.canSof n).canEdges n es).canSignal n (.canAck n.1)

/-- REC counted down for a frame without an error (R289). -/
def Dev.canRecCounted (d : Dev) (n : Fin 8) : Dev :=
  if d.f (Reg.CAN_ECNT_REC n.1) = 0 then d
  else if d.f (Reg.CAN_ECNT_REC n.1) ≤ 127 then d.canCounters n (d.f (Reg.CAN_ECNT_TEC n.1)) (d.f (Reg.CAN_ECNT_REC n.1) - 1)
  else (d.free 8).2.canCounters n (d.f (Reg.CAN_ECNT_TEC n.1)) (119 + (d.free 8).1 % 9)

theorem Dev.canReceive_eq {d : Dev} {n : Fin 8} {fr : CanFrame} (hact : d.canActive n = true) (hloop : d.bit (Reg.CAN_CTL_LOOP n.1) = false)
    (hfd : fr.fd = true → d.bit (Reg.CAN_CTL_FD_EN n.1) = true) (sof : Nat) (es : List CanEdge) :
    d.canReceive n fr sof es = ((d.canHeard n es).canRecCounted n).canAccept n fr sof := by
  have hc1 : ¬((!d.canActive n) = true ∨ d.bit (Reg.CAN_CTL_LOOP n.1) = true) := by rw [hact, hloop]; decide
  have hc2 : ¬((fr.fd && !((d.canSof n).canEdges n es).bit (Reg.CAN_CTL_FD_EN n.1)) = true) := by
    rw [Bool.and_eq_true, not_and]
    exact fun h hc => absurd (show (!d.bit (Reg.CAN_CTL_FD_EN n.1)) = true from hc) (by rw [hfd h]; decide)
  unfold Dev.canReceive
  rw [if_neg hc1]
  dsimp only
  rw [if_neg hc2]
  rfl

section
variable (d : Dev) (n : Fin 8) (es : List CanEdge)

theorem Dev.canSignal_can (o : Output) : (d.canSignal n o).can = d.can := by
  unfold Dev.canSignal
  split <;> rfl

theorem Dev.canSignal_regs (o : Output) : (d.canSignal n o).regs = d.regs := by
  unfold Dev.canSignal
  split <;> rfl

theorem Dev.canSignal_rcWait (o : Output) : (d.canSignal n o).rcWait = d.rcWait := by
  unfold Dev.canSignal
  split <;> rfl

theorem Dev.canSignal_spares (o : Output) : Dev.SparesMem d (d.canSignal n o) := by
  unfold Dev.canSignal
  split <;> exact ⟨rfl, rfl, rfl⟩

/-- The controller with the bit clock `k`. -/
def Dev.canClocked (c : Can) (k : CanClock) : Can := { c with clock := k }

theorem Dev.canHeard_can : (d.canHeard n es).can[n] = Dev.canClocked d.can[n] (d.canClockAfter n es) := by
  refine (congrArg (fun cs : Vector Can 8 => cs[n]) (Dev.canSignal_can _ n _)).trans ?_
  refine (getElem_put_same _ _ _).trans ?_
  rw [show (d.canSof n).can[n] = _ from getElem_put_same _ _ _]
  rfl

theorem Dev.canHeard_clock : ((d.canHeard n es).can[n]).clock = d.canClockAfter n es := by rw [Dev.canHeard_can, Dev.canClocked]
theorem Dev.canHeard_filtLog : ((d.canHeard n es).can[n]).filtLog = (d.can[n]).filtLog := by rw [Dev.canHeard_can, Dev.canClocked]
theorem Dev.canHeard_rxWait : ((d.canHeard n es).can[n]).rxWait = (d.can[n]).rxWait := by rw [Dev.canHeard_can, Dev.canClocked]
theorem Dev.canHeard_regs : (d.canHeard n es).regs = d.regs := Dev.canSignal_regs _ n _
theorem Dev.canHeard_rcWait : (d.canHeard n es).rcWait = d.rcWait := Dev.canSignal_rcWait _ n _
theorem Dev.canHeard_spares : Dev.SparesMem d (d.canHeard n es) := 
  Dev.SparesMem.trans (e := (d.canSof n).canEdges n es) ⟨rfl, rfl, rfl⟩ (Dev.canSignal_spares _ n _)

theorem Dev.canHeard_counted (hrec : d.f (Reg.CAN_ECNT_REC n.1) = 0) : (d.canHeard n es).canRecCounted n = d.canHeard n es :=
  if_pos ((Dev.f_of_regs (d.canHeard_regs n es) _).trans hrec)

end

/-! ### Where a frame goes (R294, R295) -/

section
variable {d e : Dev} {n : Fin 8} (hregs : e.regs = d.regs)
include hregs

theorem Dev.canRoute_congr (hlog : (e.can[n]).filtLog = (d.can[n]).filtLog) (fr : CanFrame) (sof : Nat) : e.canRoute n fr sof = d.canRoute n fr sof := by
  have hf : ∀ r, e.f r = d.f r := Dev.f_of_regs hregs
  have hat : ∀ r, e.filtAt n sof r = d.filtAt n sof r := fun r => by
    unfold Dev.filtAt
    rw [hlog, hf]
  have hhits : ∀ f, e.filterHits n fr sof f = d.filterHits n fr sof f := fun f => by
    unfold Dev.filterHits
    simp only [hat]
  unfold Dev.canRoute
  simp only [hf, hhits, hat]

theorem Dev.canElem_congr (i : Nat) : e.canElem n i = d.canElem n i := by
  unfold Dev.canElem Dev.f64
  rw [Dev.f_of_regs hregs, Dev.f_of_regs hregs]

theorem Dev.canReach_congr (hw : e.rcWait = d.rcWait) (kind : AccessKind) (i : Nat) : e.canReach n kind i = d.canReach n kind i := by
  unfold Dev.canReach
  rw [Dev.canElem_congr hregs]
  exact (Dev.Keeps.of_regs hregs).reach hw _ _ _ _ _

end

/-! ### Elements stored (R295) -/

theorem fifoEvt_field (i : Fin 2) (k n : Nat) : (fifoEvt i k n).lo < 32 ∧ (fifoEvt i k n).addr = Reg.CAN_EVT_at n := by
  unfold fifoEvt
  split <;> split <;> exact ⟨Nat.le_of_ble_eq_true rfl, rfl⟩

section
variable (d : Dev) (n : Fin 8) (i : Fin 2) (bs : List Byte)

/-- Where the next element of FIFO `i` goes. -/
def Dev.canNext : Nat := d.canElem n (32 * i.1 + d.f (Reg.CAN_FIFO_PI_IDX n.1 i.1) % 32)

/-- The element stored and the producer index moved on. -/
def Dev.canStored : Dev := (d.post (d.canNext n i) bs).wrap (Reg.CAN_FIFO_PI_IDX n.1 i.1)

theorem Dev.canPut_reports : Dev.Reports (d.canStored n i bs) (d.canPut n i bs) := by
  have hnew := (d.canStored n i bs).canEvt_reports n (fifoEvt i 0)
  unfold Dev.canPut
  dsimp only
  split
  · exact hnew.trans (Dev.canEvt_reports _ n _)
  · exact hnew

theorem Dev.f_canPut : (d.canPut n i bs).f (Reg.CAN_FIFO_PI_IDX n.1 i.1) = (d.f (Reg.CAN_FIFO_PI_IDX n.1 i.1) + 1) % 2 ^ 32 := by
  have hstored : (d.canStored n i bs).f (Reg.CAN_FIFO_PI_IDX n.1 i.1) = (d.f (Reg.CAN_FIFO_PI_IDX n.1 i.1) + 1) % 2 ^ 32 := Dev.f_setF_same _ _ _
  have hevt : ∀ (e : Dev) k, (e.canEvt n (fifoEvt i k)).f (Reg.CAN_FIFO_PI_IDX n.1 i.1) = e.f (Reg.CAN_FIFO_PI_IDX n.1 i.1) := fun e k =>
    e.f_canEvt n (fifoEvt_field i k n.1).1 (fifoEvt_field i k n.1).2 (Nat.le_of_ble_eq_true rfl)
      (by simp only [Reg.CAN_FIFO_PI_IDX, Reg.CAN_FIFO_PI_at]; omega)
      (by simp only [Reg.CAN_FIFO_PI_IDX, Reg.CAN_FIFO_PI_at, Reg.CAN_EVT_at]; omega)
  unfold Dev.canPut
  dsimp only
  split
  · exact (hevt _ 1).trans ((hevt _ 0).trans hstored)
  · exact (hevt _ 0).trans hstored

variable {d n i}

/-- An element its FIFO has room for is stored at once, where none waits and the area is open. -/
theorem Dev.canDeliver_opened (hfill : d.canFill n i < 32) (hwait : d.canWaiting n i = 0)
    (hreach : d.canReach n .write (32 * i.1 + d.f (Reg.CAN_FIFO_PI_IDX n.1 i.1) % 32) = .opened) : d.canDeliver n i bs = d.canPut n i bs := by
  have hfull : decide (32 ≤ d.canFill n i + ((0 : Nat) : Int)) = false := by
    rw [decide_eq_false_iff_not]
    omega
  unfold Dev.canDeliver
  simp only [hwait, hfull, hreach, Bool.false_and, Bool.false_eq_true, if_false, ne_eq, not_true_eq_false]

end

/-- A delivery keeps the bit clock. -/
theorem Dev.canDeliver_clock (d : Dev) (n : Fin 8) (i : Fin 2) (bs : List Byte) : ((d.canDeliver n i bs).can[n]).clock = (d.can[n]).clock := by
  have hput : ∀ e : Dev, ((e.canPut n i bs).can[n]).clock = (e.can[n]).clock := fun e =>
    congrArg (fun cs : Vector Can 8 => (cs[n]).clock) (e.canPut_reports n i bs).can
  have hlost : ((d.canLost n i).can[n]).clock = (d.can[n]).clock :=
    congrArg (fun cs : Vector Can 8 => (cs[n]).clock) (Dev.canEvt_reports _ _ _).can
  have hwaits : ∀ g : Can → Can, (∀ c, (g c).clock = c.clock) → ((d.modCan n g).can[n]).clock = (d.can[n]).clock := fun g hg =>
    (congrArg Can.clock (getElem_put_same _ _ _)).trans (hg _)
  unfold Dev.canDeliver
  dsimp only
  split
  · exact hlost
  · split
    · exact hwaits (fun c => { c with rxWait := c.rxWait ++ [(i, bs)] }) (fun _ => rfl)
    · split
      · split
        · exact (hput _).trans hlost
        · exact hput d
      · exact hwaits (fun c => { c with rxWait := c.rxWait ++ [(i, bs)] }) (fun _ => rfl)
      next a _ =>
        refine (((Dev.CanSteps.refl _).canAreaErr .write a).clock).trans ?_
        split
        · exact hlost
        · rfl

/-- The record of filter writes no frame needs any more dropped. -/
def Dev.canFiltered (d : Dev) (n : Fin 8) (sof : Nat) : Dev := d.modCan n (fun c => { c with filtLog := c.filtLog.filter (fun e => sof < e.2.2) })

theorem Dev.canFiltered_rxWait (d : Dev) (n : Fin 8) (sof : Nat) : ((d.canFiltered n sof).can[n]).rxWait = (d.can[n]).rxWait :=
  (congrArg Can.rxWait (getElem_put_same _ _ _)).trans rfl

theorem Dev.canFiltered_clock (d : Dev) (n : Fin 8) (sof : Nat) : ((d.canFiltered n sof).can[n]).clock = (d.can[n]).clock :=
  (congrArg Can.clock (getElem_put_same _ _ _)).trans rfl

/-- A received frame's element takes the bytes beyond its length as they come. -/
def Dev.canPadded (d : Dev) (n : Fin 8) (sof : Nat) : Dev := ((d.canFiltered n sof).free 512).2

theorem Dev.canPadded_regs (d : Dev) (n : Fin 8) (sof : Nat) : (d.canPadded n sof).regs = d.regs := rfl
theorem Dev.canPadded_rcWait (d : Dev) (n : Fin 8) (sof : Nat) : (d.canPadded n sof).rcWait = d.rcWait := rfl
theorem Dev.canPadded_spares (d : Dev) (n : Fin 8) (sof : Nat) : Dev.SparesMem d (d.canPadded n sof) := ⟨rfl, rfl, rfl⟩

theorem Dev.canAccept_eq (d : Dev) (n : Fin 8) (fr : CanFrame) (sof : Nat) :
    d.canAccept n fr sof = match d.canRoute n fr sof with
      | none => d.canFiltered n sof
      | some (i, f, nm) => (d.canPadded n sof).canDeliver n i (canElemBytes fr f nm sof ((d.canFiltered n sof).free 512).1) := rfl

theorem Dev.canAccept_clock (d : Dev) (n : Fin 8) (fr : CanFrame) (sof : Nat) : ((d.canAccept n fr sof).can[n]).clock = (d.can[n]).clock := by
  have hlog := d.canFiltered_clock n sof
  rw [Dev.canAccept_eq]
  split
  · exact hlog
  · exact (Dev.canDeliver_clock _ _ _ _).trans hlog

theorem Dev.canRecCounted_clock (d : Dev) (n : Fin 8) : ((d.canRecCounted n).can[n]).clock = (d.can[n]).clock := by
  unfold Dev.canRecCounted
  split
  · rfl
  · split
    · exact ((Dev.CanSteps.refl d).canCounters _ _).clock
    · exact ((Dev.CanSteps.refl (d.free 8).2).canCounters _ _).clock

/-- An edge before the sample point delays it by at most the jump width (R284). -/
theorem Dev.canClockAfter_late (d : Dev) (n : Fin 8) {q : Nat} (hq : 1 ≤ q) (hsp : q < d.f (Reg.CAN_NBT_SP n.1))
    (hlen : d.f (Reg.CAN_NBT_SP n.1) < d.f (Reg.CAN_NBT_LEN n.1)) (hpre : 1 ≤ d.f (Reg.CAN_PRESC_N_PRE n.1)) :
    d.canClockAfter n [.fall (q * d.f (Reg.CAN_PRESC_N_PRE n.1)) false] =
      { start := 0, sp := d.f (Reg.CAN_NBT_SP n.1) + min q (d.f (Reg.CAN_NBT_SJW n.1)), len := d.f (Reg.CAN_NBT_LEN n.1) + min q (d.f (Reg.CAN_NBT_SJW n.1)),
        data := false, synced := true } := by
  have hquanta : (q * d.f (Reg.CAN_PRESC_N_PRE n.1) - 0) / d.f (Reg.CAN_PRESC_N_PRE n.1) = q := Nat.mul_div_cancel _ hpre
  simp only [Dev.canClockAfter, List.foldl_cons, List.foldl_nil, Dev.canEdge, Dev.canRate, CanClock.resync, CanClock.runTo, CanClock.quanta, hquanta,
    Bool.false_eq_true, if_false, if_pos (hsp.trans hlen), decide_eq_false (Nat.not_le.mpr hsp), Bool.false_and, Bool.false_or,
    beq_eq_false_iff_ne.mpr (Nat.one_le_iff_ne_zero.mp hq)]

/-! ### Frames received -/

section
variable {s : State} {n : Fin 8} {fr : CanFrame} (hl : Live s) (hact : s.dev.canActive n = true) (hloop : s.dev.bit (Reg.CAN_CTL_LOOP n.1) = false)
  (hfd : fr.fd = true → s.dev.bit (Reg.CAN_CTL_FD_EN n.1) = true)
include hl hact hloop hfd

theorem Answers.of_canRejected (hc : Clean s) (hrec : s.dev.f (Reg.CAN_ECNT_REC n.1) = 0) {sof : Nat} (es : List CanEdge)
    (hroute : s.dev.canRoute n fr sof = none) : Answers (.canFrameReceive n fr ⟨sof, es⟩) s (fun t => t.mem = s.mem ∧
      ∀ i : Fin 2, t.dev.f (Reg.CAN_FIFO_PI_IDX n.1 i.1) = s.dev.f (Reg.CAN_FIFO_PI_IDX n.1 i.1)) := by
  have hroute' : (s.dev.canHeard n es).canRoute n fr sof = none :=
    (Dev.canRoute_congr (s.dev.canHeard_regs n es) (s.dev.canHeard_filtLog n es) fr sof).trans hroute
  have heq : s.dev.canReceive n fr sof es =
      (s.dev.canHeard n es).canFiltered n sof := by
    rw [Dev.canReceive_eq hact hloop hfd, Dev.canHeard_counted _ _ _ hrec]
    rw [Dev.canAccept_eq, hroute']
  refine .of_done hl (congrArg s.done heq) ⟨State.commit_mem_of_spares hc ((s.dev.canHeard_spares n es).trans ⟨rfl, rfl, rfl⟩), fun i => ?_⟩
  exact (State.commit_f _ _ _).trans (Dev.f_of_regs (s.dev.canHeard_regs n es) _)

theorem Answers.of_canStored (hc : Clean s) (hrec : s.dev.f (Reg.CAN_ECNT_REC n.1) = 0) {sof : Nat} (es : List CanEdge) {i : Fin 2} {f : Nat} {nm : Bool}
    (hroute : s.dev.canRoute n fr sof = some (i, f, nm)) (hfill : s.dev.canFill n i < 32) (hwait : s.dev.canWaiting n i = 0)
    (hreach : s.dev.canReach n .write (32 * i.1 + s.dev.f (Reg.CAN_FIFO_PI_IDX n.1 i.1) % 32) = .opened) :
    Answers (.canFrameReceive n fr ⟨sof, es⟩) s (fun t =>
      t.dev.f (Reg.CAN_FIFO_PI_IDX n.1 i.1) = (s.dev.f (Reg.CAN_FIFO_PI_IDX n.1 i.1) + 1) % 2 ^ 32 ∧
      ∃ pad, Stored s t (s.dev.canNext n i) (canElemBytes fr f nm sof pad)) := by
  have hroute' : (s.dev.canHeard n es).canRoute n fr sof = some (i, f, nm) :=
    (Dev.canRoute_congr (s.dev.canHeard_regs n es) (s.dev.canHeard_filtLog n es) fr sof).trans hroute
  obtain ⟨e, he⟩ : ∃ e, e = (s.dev.canHeard n es).canPadded n sof := ⟨_, rfl⟩
  obtain ⟨pad, hpad⟩ : ∃ p, p = (((s.dev.canHeard n es).canFiltered n sof).free 512).1 := ⟨_, rfl⟩
  have hregs : e.regs = s.dev.regs := by rw [he, Dev.canPadded_regs, Dev.canHeard_regs]
  have hrc : e.rcWait = s.dev.rcWait := by rw [he, Dev.canPadded_rcWait, Dev.canHeard_rcWait]
  have hsp : Dev.SparesMem s.dev e := by rw [he]; exact (s.dev.canHeard_spares n es).trans (Dev.canPadded_spares _ n sof)
  have hrx : (e.can[n]).rxWait = (s.dev.can[n]).rxWait := by
    rw [he]
    exact (Dev.canFiltered_rxWait _ n sof).trans (s.dev.canHeard_rxWait n es)
  have hf : ∀ r, e.f r = s.dev.f r := Dev.f_of_regs hregs
  have hdel : e.canDeliver n i (canElemBytes fr f nm sof pad) = e.canPut n i (canElemBytes fr f nm sof pad) := by
    refine Dev.canDeliver_opened _ ?_ ?_ ?_
    · unfold Dev.canFill
      rw [hf, hf]
      exact hfill
    · unfold Dev.canWaiting
      rw [hrx]
      exact hwait
    · rw [hf, Dev.canReach_congr hregs hrc]
      exact hreach
  have heq : s.dev.canReceive n fr sof es = e.canPut n i (canElemBytes fr f nm sof pad) := by
    rw [← hdel, he, hpad, Dev.canReceive_eq hact hloop hfd, Dev.canHeard_counted _ _ _ hrec]
    rw [Dev.canAccept_eq, hroute']
  have hnext : e.canNext n i = s.dev.canNext n i := by
    unfold Dev.canNext
    rw [hf, Dev.canElem_congr hregs]
  have hrep := e.canPut_reports n i (canElemBytes fr f nm sof pad)
  refine .of_done hl (congrArg s.done heq) ⟨?_, pad, ?_⟩
  · rw [State.commit_f, Dev.f_canPut, hf]
  · refine State.commit_stored ?_ ?_ ?_
    · rw [← hnext]
      refine hrep.wq.trans ?_
      rw [show (e.canStored n i (canElemBytes fr f nm sof pad)).wq = e.wq ++ [(e.canNext n i, canElemBytes fr f nm sof pad)] from rfl, hsp.wq, hc.1]
      rfl
    · exact hrep.lost.trans (hsp.lost.trans hc.2)
    · exact (congrArg₂ Prod.mk hrep.vatEpoch hrep.dramEpoch).trans hsp.ep

theorem Answers.of_canEdge {sof q : Nat} (hq : 1 ≤ q) (hsp : q < s.dev.f (Reg.CAN_NBT_SP n.1))
    (hlen : s.dev.f (Reg.CAN_NBT_SP n.1) < s.dev.f (Reg.CAN_NBT_LEN n.1)) (hpre : 1 ≤ s.dev.f (Reg.CAN_PRESC_N_PRE n.1)) :
    Answers (.canFrameReceive n fr ⟨sof, [.fall (q * s.dev.f (Reg.CAN_PRESC_N_PRE n.1)) false]⟩) s (fun t =>
      (t.dev.can[n]).clock.len = s.dev.f (Reg.CAN_NBT_LEN n.1) + min q (s.dev.f (Reg.CAN_NBT_SJW n.1)) ∧
      (t.dev.can[n]).clock.sp = s.dev.f (Reg.CAN_NBT_SP n.1) + min q (s.dev.f (Reg.CAN_NBT_SJW n.1)) ∧
      (t.dev.can[n]).clock.synced = true) := by
  refine .of_done hl (congrArg s.done (Dev.canReceive_eq hact hloop hfd sof [.fall (q * s.dev.f (Reg.CAN_PRESC_N_PRE n.1)) false])) ?_
  have hclock := ((Dev.canAccept_clock _ n fr sof).trans (Dev.canRecCounted_clock _ n)).trans
    ((s.dev.canHeard_clock n _).trans (s.dev.canClockAfter_late n hq hsp hlen hpre))
  exact ⟨congrArg CanClock.len hclock, congrArg CanClock.sp hclock, congrArg CanClock.synced hclock⟩

end

end Sys2Proof.Machine
end

section
/-!
PROOF. CAN transmit buffers: requested, withdrawn, sent; consumer indices of the receive FIFOs (R295-R297).
-/

namespace Sys2Proof.Machine
open Sys2Proof

/-! ### What a buffer's frame rests on -/

/-- A field the requests of a controller's buffers may change. -/
def RF.OffTx (n : Fin 8) (r : RF) : Prop :=
  r.lo < 32 ∧ r.addr ≠ Reg.CAN_TXBUSY_at n.1 ∧ r.addr ≠ Reg.CAN_TXGO_at n.1

section
variable {d e : Dev} {n : Fin 8} (h : Dev.Keeps (RF.OffTx n) d e)
include h

theorem Dev.Keeps.canElem (i : Nat) : e.canElem n i = d.canElem n i := by
  unfold Dev.canElem Dev.f64
  rw [h (Reg.CAN_AREA_LO_ADDR n.1) ⟨Nat.le_of_ble_eq_true rfl, by simp only [Reg.CAN_AREA_LO_ADDR, Reg.CAN_AREA_LO_at, Reg.CAN_TXBUSY_at, Reg.CAN_TXGO_at]; omega⟩,
    h (Reg.CAN_AREA_HI_ADDR n.1) ⟨Nat.le_of_ble_eq_true rfl, by simp only [Reg.CAN_AREA_HI_ADDR, Reg.CAN_AREA_HI_at, Reg.CAN_TXBUSY_at, Reg.CAN_TXGO_at]; omega⟩]

theorem Dev.Keeps.canBuffer (word : Nat → Nat → Nat) (mem : Nat → Nat → List Byte) (b : Nat) : e.canBuffer word mem n b = d.canBuffer word mem n b := by
  have ctl : ∀ {q : RF}, q.lo < 32 → q.addr = Reg.CAN_CTL_at n.1 → e.f q = d.f q := fun hl ha =>
    h _ ⟨hl, by simp only [ha, Reg.CAN_CTL_at, Reg.CAN_TXBUSY_at, Reg.CAN_TXGO_at]; omega⟩
  have hstate : e.f (Reg.CAN_STAT_STATE n.1) = d.f (Reg.CAN_STAT_STATE n.1) :=
    h _ ⟨Nat.le_of_ble_eq_true rfl, by simp only [Reg.CAN_STAT_STATE, Reg.CAN_STAT_at, Reg.CAN_TXBUSY_at, Reg.CAN_TXGO_at]; omega⟩
  unfold Dev.canBuffer
  rw [h.canElem, Dev.bit_of_f (ctl (q := Reg.CAN_CTL_FD_EN n.1) (Nat.le_of_ble_eq_true rfl) rfl),
    Dev.bit_of_f (ctl (q := Reg.CAN_CTL_BRS_EN n.1) (Nat.le_of_ble_eq_true rfl) rfl), hstate]

theorem Dev.Keeps.canReach (hw : e.rcWait = d.rcWait) (kind : AccessKind) (i : Nat) : e.canReach n kind i = d.canReach n kind i := by
  unfold Dev.canReach
  rw [h.canElem]
  refine Dev.Keeps.reach (fun r hr => h r ⟨hr.1, ?_⟩) hw _ _ _ _ _
  obtain ⟨-, ha⟩ := hr
  simp only [Reg.CAN_TXBUSY_at, Reg.CAN_TXGO_at, Reg.DRAM_STAT_at] at ha ⊢
  omega

end

/-! ### Reading the pending buffers (R296, R310) -/

theorem Reach.all_eq_opened {rs : List Reach} (h : ∀ x ∈ rs, x = .opened) : Reach.all rs = .opened := by
  have hw : rs.contains .waits = false := by
    rw [List.contains_eq_mem, decide_eq_false_iff_not]
    exact fun hmem => absurd (h _ hmem) (by decide)
  have hf : rs.find? (· != .opened) = none := List.find?_eq_none.mpr (fun x hx => by rw [h x hx]; decide)
  unfold Reach.all
  rw [hw, hf]
  rfl

section
variable {d : Dev} {n : Fin 8} {word : Nat → Nat → Nat} {mem : Nat → Nat → List Byte}

theorem Dev.canReads_opened (h : ∀ b : Fin 32, d.canPending n b = true → d.canReach n .read (64 + b.1) = .opened) : d.canReads n = .opened := by
  refine Reach.all_eq_opened (fun x hx => ?_)
  obtain ⟨b, hb, rfl⟩ := List.mem_map.mp hx
  exact h b (Bool.and_eq_true _ _ ▸ (List.mem_filter.mp hb).2).1

/-- Where every pending buffer can be read and is valid, none ends. -/
theorem Dev.canValidate_valid (h : ∀ b : Fin 32, d.canPending n b = true → d.canReach n .read (64 + b.1) = .opened ∧ (d.canBuffer word mem n b.1).isSome = true) :
    d.canValidate word mem n = d := by
  unfold Dev.canValidate
  rw [Dev.canReads_opened (fun b hb => (h b hb).1)]
  refine List.foldl_fixed' (fun b => if_neg ?_) _
  rw [Bool.and_eq_true, Bool.and_eq_true]
  intro ⟨⟨hpend, _⟩, hnone⟩
  rw [Option.isNone_iff_eq_none] at hnone
  exact absurd ((h b hpend).2) (by rw [hnone]; decide)

end

/-! ### Requests (R296) -/

theorem Dev.canPending_setTb (d : Dev) (n : Fin 8) (b c : Fin 32) (x : Bool) :
    (d.setTb (Reg.CAN_TXBUSY_BUF n.1) b.1 x).canPending n c = if c = b then x else d.canPending n c := by
  refine (Dev.tb_setTb d _ b.1 x c.2).trans ?_
  simp only [Fin.ext_iff]
  rfl

/-- The buffer's request noted. -/
def Dev.canRequested (d : Dev) (n : Fin 8) (b : Fin 32) : Dev :=
  (d.setTb (Reg.CAN_TXBUSY_BUF n.1) b.1 true).setTb (Reg.CAN_TXGO_BUF n.1) b.1 true

theorem Dev.canPending_requested (d : Dev) (n : Fin 8) (b c : Fin 32) : (d.canRequested n b).canPending n c = if c = b then true else d.canPending n c :=
  (Dev.tb_of_f (Dev.f_setTb_off _ _ _ (Nat.le_of_ble_eq_true rfl) (Nat.le_of_ble_eq_true rfl)
    (by simp only [Reg.CAN_TXBUSY_BUF, Reg.CAN_TXBUSY_at, Reg.CAN_TXGO_BUF, Reg.CAN_TXGO_at]; omega)) _).trans (Dev.canPending_setTb d n b c true)

/-- What the requests of buffers keep. -/
structure Dev.KeepsTx (n : Fin 8) (d e : Dev) : Prop where
  f : Dev.Keeps (RF.OffTx n) d e
  can : e.can = d.can
  now : e.now = d.now
  rcWait : e.rcWait = d.rcWait

theorem Dev.KeepsTx.requested {n : Fin 8} {d e : Dev} (h : Dev.KeepsTx n d e) (b : Fin 32) : Dev.KeepsTx n d (e.canRequested n b) := by
  refine ⟨fun r hr => Eq.trans ?_ (h.f r hr), h.can, h.now, h.rcWait⟩
  obtain ⟨hl, hbusy, hgo⟩ := hr
  exact (Dev.f_setTb_off _ _ _ (Nat.le_of_ble_eq_true rfl) hl (fun hc => hgo hc.1)).trans
    (Dev.f_setTb_off _ _ _ (Nat.le_of_ble_eq_true rfl) hl (fun hc => hbusy hc.1))

/-- Without a withdrawal at this instant a buffer named becomes pending. -/
theorem Dev.txgoStep_eq {d : Dev} {n : Fin 8} (h : d.abortNow n = 0) (w : Nat) (b : Fin 32) :
    Dev.txgoStep n w d b = if w.testBit b.1 && !d.canPending n b then d.canRequested n b else d := by
  have hnow : ((d.canRequested n b).abortNow n).testBit b.1 = false := by
    rw [show (d.canRequested n b).abortNow n = d.abortNow n from rfl, h]
    exact Nat.zero_testBit _
  unfold Dev.txgoStep
  split
  · exact if_neg (by rw [show ((d.setTb (Reg.CAN_TXBUSY_BUF n.1) b.1 true).setTb (Reg.CAN_TXGO_BUF n.1) b.1 true).abortNow n =
      (d.canRequested n b).abortNow n from rfl, hnow]; decide)
  · rfl

section
variable {d : Dev} {n : Fin 8} (h0 : d.abortNow n = 0) (w : Nat)
include h0

theorem Dev.KeepsTx.abortNow {e : Dev} (h : Dev.KeepsTx n d e) : e.abortNow n = 0 := by
  refine Eq.trans ?_ h0
  unfold Dev.abortNow
  rw [h.can, h.now]

theorem Dev.KeepsTx.txgoStep {e : Dev} (h : Dev.KeepsTx n d e) (b : Fin 32) : Dev.KeepsTx n d (Dev.txgoStep n w e b) := by
  rw [Dev.txgoStep_eq (h.abortNow h0)]
  split
  · exact h.requested b
  · exact h

theorem Dev.keepsTx_txgo : Dev.KeepsTx n d ((List.finRange 32).foldl (Dev.txgoStep n w) d) :=
  List.foldlRecOn _ _ (motive := Dev.KeepsTx n d) ⟨.refl d, rfl, rfl, rfl⟩ (fun _ he b _ => he.txgoStep h0 w b)

/-- The buffers named are pending beside those that were. -/
theorem Dev.canPending_txgo (b : Fin 32) :
    ((List.finRange 32).foldl (Dev.txgoStep n w) d).canPending n b = (d.canPending n b || w.testBit b.1) := by
  have hstep : ∀ (e : Dev) (a c : Fin 32), Dev.KeepsTx n d e →
      (Dev.txgoStep n w e a).canPending n c = if c = a then e.canPending n a || w.testBit a.1 else e.canPending n c := fun e a c he => by
    rw [Dev.txgoStep_eq (he.abortNow h0)]
    by_cases hca : c = a
    · subst hca
      rw [if_pos rfl]
      cases hw : w.testBit c.1 <;> cases hp : e.canPending n c <;> simp [hp, Dev.canPending_requested]
    · rw [if_neg hca]
      split
      · rw [Dev.canPending_requested, if_neg hca]
      · rfl
  have hfold := foldl_cell (I := Dev.KeepsTx n d) (rd := fun e a => e.canPending n a) (G := fun a x => x || w.testBit a.1)
    (fun e a he => he.txgoStep h0 w a) (fun e a he => (hstep e a a he).trans (if_pos rfl))
    (fun e a c he hca => (hstep e a c he).trans (if_neg hca)) b (List.finRange 32) (List.nodup_finRange 32) d ⟨.refl d, rfl, rfl, rfl⟩
  exact hfold.trans (if_pos (List.mem_finRange b))

end

theorem Answers.of_txgo {s : State} {src : Src} {n : Fin 8} {w : Word} (hr : Reaches s src (Reg.CAN_TXGO_at n.1)) (h0 : s.dev.abortNow n = 0)
    (hvalid : ∀ b : Fin 32, (w.toNat.testBit b.1 = true ∨ s.dev.canPending n b = true) →
      s.dev.canReach n .read (64 + b.1) = .opened ∧ (s.dev.canBuffer s.memWord s.memBytes n b.1).isSome = true) :
    Answers (.txgo src n w) s (fun t => ∀ b : Fin 32, t.dev.canPending n b = (s.dev.canPending n b || w.toNat.testBit b.1)) := by
  have h0' : (s.dev.answer 0).abortNow n = 0 := h0
  have hkeep := Dev.keepsTx_txgo h0' w.toNat
  have hpend := Dev.canPending_txgo h0' w.toNat
  have heq : (s.dev.answer 0).txgo s.memWord s.memBytes n w.toNat = (List.finRange 32).foldl (Dev.txgoStep n w.toNat) (s.dev.answer 0) := by
    rw [Dev.txgo_eq]
    refine Dev.canValidate_valid (fun b hb => ?_)
    rw [hpend, Bool.or_eq_true] at hb
    rw [hkeep.f.canReach hkeep.rcWait, hkeep.f.canBuffer]
    exact hvalid b hb.symm
  refine .of_done hr.1 (congrArg s.done ((Dev.onWrite_unguarded hr.2 _).trans heq)) (fun b => ?_)
  exact (Dev.tb_of_f (State.commit_f _ _ _) _).trans (hpend b)

/-! ### Withdrawals (R297) -/

theorem Dev.f_note (d : Dev) (q : RF) (m : Nat) (r : RF) : (d.note q m).f r = d.f r := rfl

/-- A buffer's pending and withdrawn bits. -/
def Dev.txBits (n : Fin 8) (d : Dev) (b : Fin 32) : Bool × Bool := (d.canPending n b, d.tb (Reg.CAN_TXABORTED_BUF n.1) b.1)

theorem Dev.withdraw_can (d : Dev) (n : Fin 8) (b : Fin 32) : (d.withdraw n b).can = d.can := (Dev.canEvt_reports _ n _).can

theorem Dev.txBits_withdraw (d : Dev) (n : Fin 8) (b c : Fin 32) : Dev.txBits n (d.withdraw n b) c = if c = b then (false, true) else Dev.txBits n d c := by
  have evt : ∀ (e : Dev) {q : RF}, q.lo < 32 → (q.addr < 0x20004000 ∨ 0x20004800 ≤ q.addr) → q.addr ≠ Reg.CAN_EVT_at n.1 →
      (e.canEvt n Reg.CAN_EVT_TX_ABORTED).f q = e.f q := fun e _ hl ho hne =>
    e.f_canEvt n (Nat.le_of_ble_eq_true rfl) rfl hl ho hne
  have hpend : (d.withdraw n b).canPending n c = if c = b then false else d.canPending n c := by
    refine (Dev.tb_of_f (evt _ (Nat.le_of_ble_eq_true rfl) (by simp only [Reg.CAN_TXBUSY_BUF, Reg.CAN_TXBUSY_at]; omega)
      (by simp only [Reg.CAN_TXBUSY_BUF, Reg.CAN_TXBUSY_at, Reg.CAN_EVT_at]; omega)) _).trans ?_
    refine (Dev.tb_of_f ?_ _).trans (Dev.canPending_setTb d n b c false)
    unfold Dev.endBuf
    dsimp only
    rw [Dev.f_setTb_off _ _ _ (Nat.le_of_ble_eq_true rfl) (Nat.le_of_ble_eq_true rfl)
      (by simp only [Reg.CAN_TXBUSY_BUF, Reg.CAN_TXBUSY_at, Reg.CAN_TXABORTED_BUF, Reg.CAN_TXABORTED_at]; omega), Dev.f_note,
      Dev.f_setTb_off _ _ _ (Nat.le_of_ble_eq_true rfl) (Nat.le_of_ble_eq_true rfl)
      (by simp only [Reg.CAN_TXBUSY_BUF, Reg.CAN_TXBUSY_at, Reg.CAN_TXABORT_BUF, Reg.CAN_TXABORT_at]; omega),
      Dev.f_setTb_off _ _ _ (Nat.le_of_ble_eq_true rfl) (Nat.le_of_ble_eq_true rfl)
      (by simp only [Reg.CAN_TXBUSY_BUF, Reg.CAN_TXBUSY_at, Reg.CAN_TXGO_BUF, Reg.CAN_TXGO_at]; omega)]
  have habort : (d.withdraw n b).tb (Reg.CAN_TXABORTED_BUF n.1) c.1 = if c = b then true else d.tb (Reg.CAN_TXABORTED_BUF n.1) c.1 := by
    refine (Dev.tb_of_f (evt _ (Nat.le_of_ble_eq_true rfl) (by simp only [Reg.CAN_TXABORTED_BUF, Reg.CAN_TXABORTED_at]; omega)
      (by simp only [Reg.CAN_TXABORTED_BUF, Reg.CAN_TXABORTED_at, Reg.CAN_EVT_at]; omega)) _).trans ?_
    refine (Dev.tb_setTb _ _ _ _ c.2).trans ?_
    simp only [← Fin.ext_iff]
    refine congrArg (ite (c = b) true) (Dev.tb_of_f ?_ _)
    rw [Dev.f_note, Dev.f_setTb_off _ _ _ (Nat.le_of_ble_eq_true rfl) (Nat.le_of_ble_eq_true rfl)
      (by simp only [Reg.CAN_TXABORTED_BUF, Reg.CAN_TXABORTED_at, Reg.CAN_TXABORT_BUF, Reg.CAN_TXABORT_at]; omega),
      Dev.f_setTb_off _ _ _ (Nat.le_of_ble_eq_true rfl) (Nat.le_of_ble_eq_true rfl)
      (by simp only [Reg.CAN_TXABORTED_BUF, Reg.CAN_TXABORTED_at, Reg.CAN_TXGO_BUF, Reg.CAN_TXGO_at]; omega),
      Dev.f_setTb_off _ _ _ (Nat.le_of_ble_eq_true rfl) (Nat.le_of_ble_eq_true rfl)
      (by simp only [Reg.CAN_TXABORTED_BUF, Reg.CAN_TXABORTED_at, Reg.CAN_TXBUSY_BUF, Reg.CAN_TXBUSY_at]; omega)]
  unfold Dev.txBits
  rw [hpend, habort]
  split <;> rfl

/-- No frame of the controller is on the bus, and none that was sent waits for its time stamp. -/
def Dev.canQuiet (n : Fin 8) (d : Dev) : Prop := (d.can[n]).onBus = none ∧ (d.can[n]).tsWait = none

section
variable {d : Dev} {n : Fin 8} (hq : Dev.canQuiet n d) (w : Nat)
include hq

theorem Dev.txabortStep_eq (b : Fin 32) : Dev.txabortStep n w d b = if w.testBit b.1 && d.canPending n b then d.withdraw n b else d := by
  obtain ⟨hbus, hts⟩ := hq
  unfold Dev.txabortStep
  rw [hbus, hts, if_neg (show ¬((none : Option (Fin 32)) = some b ∨ Option.map (·.1) (none : Option (Fin 32 × Nat)) = some b) by simp)]

theorem Dev.canQuiet_txabortStep (b : Fin 32) : Dev.canQuiet n (Dev.txabortStep n w d b) := by
  rw [Dev.txabortStep_eq hq]
  split
  · unfold Dev.canQuiet
    rw [Dev.withdraw_can]
    exact hq
  · exact hq

/-- The pending buffers named are withdrawn, and no others. -/
theorem Dev.txBits_txabort (b : Fin 32) : Dev.txBits n ((List.finRange 32).foldl (Dev.txabortStep n w) d) b =
    (d.canPending n b && !w.testBit b.1, d.tb (Reg.CAN_TXABORTED_BUF n.1) b.1 || (d.canPending n b && w.testBit b.1)) := by
  have hsame : ∀ (e : Dev) (a : Fin 32), Dev.canQuiet n e → Dev.txBits n (Dev.txabortStep n w e a) a =
      ((Dev.txBits n e a).1 && !w.testBit a.1, (Dev.txBits n e a).2 || ((Dev.txBits n e a).1 && w.testBit a.1)) := fun e a he => by
    rw [Dev.txabortStep_eq he]
    split
    next hc =>
      obtain ⟨hw, hp⟩ := Bool.and_eq_true _ _ ▸ hc
      rw [Dev.txBits_withdraw, if_pos rfl]
      simp [Dev.txBits, hw, hp]
    next hc =>
      rw [Bool.and_eq_true, not_and, Bool.not_eq_true] at hc
      cases hw : w.testBit a.1
      · simp [Dev.txBits]
      · simp [Dev.txBits, hc hw]
  have hne : ∀ (e : Dev) (a c : Fin 32), Dev.canQuiet n e → c ≠ a → Dev.txBits n (Dev.txabortStep n w e a) c = Dev.txBits n e c := fun e a c he hca => by
    rw [Dev.txabortStep_eq he]
    split
    · rw [Dev.txBits_withdraw, if_neg hca]
    · rfl
  have hfold := foldl_cell (I := Dev.canQuiet n) (rd := Dev.txBits n) (G := fun a x => (x.1 && !w.testBit a.1, x.2 || (x.1 && w.testBit a.1)))
    (fun e a he => Dev.canQuiet_txabortStep he w a) hsame hne b (List.finRange 32) (List.nodup_finRange 32) d hq
  exact hfold.trans (if_pos (List.mem_finRange b))

end

theorem Answers.of_txabort {s : State} {src : Src} {n : Fin 8} {w : Word} (hr : Reaches s src (Reg.CAN_TXABORT_at n.1)) (hbus : (s.dev.can[n]).onBus = none)
    (hts : (s.dev.can[n]).tsWait = none) : Answers (.txabort src n w) s (fun t => ∀ b : Fin 32,
      t.dev.canPending n b = (s.dev.canPending n b && !w.toNat.testBit b.1) ∧
      t.dev.tb (Reg.CAN_TXABORTED_BUF n.1) b.1 =
        (s.dev.tb (Reg.CAN_TXABORTED_BUF n.1) b.1 || (s.dev.canPending n b && w.toNat.testBit b.1))) := by
  have hbits := Dev.txBits_txabort (d := s.dev.answer 0) (n := n) ⟨hbus, hts⟩ w.toNat
  refine .of_done hr.1 (congrArg s.done ((Dev.onWrite_unguarded hr.2 _).trans (Dev.txabort_eq _ n w.toNat))) (fun b => ⟨?_, ?_⟩)
  · exact (Dev.tb_of_f (State.commit_f _ _ _) _).trans (congrArg Prod.fst (hbits b))
  · exact (Dev.tb_of_f (State.commit_f _ _ _) _).trans (congrArg Prod.snd (hbits b))

/-! ### Transmission (R288, R296) -/

/-- A fold whose steps act for one element alone. -/
theorem foldl_single {σ α : Type} {F : σ → α → σ} {b : α} (hne : ∀ d a, a ≠ b → F d a = d) (d : σ) :
    ∀ l : List α, l.Nodup → b ∈ l → l.foldl F d = F d b := by
  intro l
  induction l with
  | nil => exact fun _ hb => absurd hb (List.not_mem_nil)
  | cons a l ih =>
    intro hnd hb
    obtain ⟨ha, hnd'⟩ := List.nodup_cons.mp hnd
    obtain rfl | hb' := List.mem_cons.mp hb
    · exact List.foldlRecOn l F (motive := fun e => e = F d b) rfl (fun e he x hx => (hne e x (fun hxb => ha (hxb ▸ hx))).trans he)
    · rw [List.foldl_cons, hne d a (fun hab => ha (hab ▸ hb'))]
      exact ih hnd' hb'

section
variable {d : Dev} {n : Fin 8} {b : Fin 32} {word : Nat → Nat → Nat} {mem : Nat → Nat → List Byte} {fr : CanFrame}

theorem Dev.canChoose_single (hbuf : d.canBuffer word mem n b.1 = some fr) (hpend : ∀ c : Fin 32, d.canPending n c = decide (c = b)) :
    d.canChoose word mem n = some (b, fr) := by
  refine (foldl_single (b := b) ?_ none _ (List.nodup_finRange 32) (List.mem_finRange b)).trans ?_
  · intro best c hc
    exact if_neg (by rw [hpend, decide_eq_false hc]; decide)
  · refine (if_pos (by rw [hpend, decide_eq_true rfl])).trans ?_
    rw [hbuf]

/-- A classical frame has no data phase of its own rate. -/
theorem Dev.canBuffer_classical (hbuf : d.canBuffer word mem n b.1 = some fr) (hfd : fr.fd = false) : fr.brs = false := by
  unfold Dev.canBuffer at hbuf
  dsimp only at hbuf
  split at hbuf
  · cases hbuf
  · split at hbuf
    · cases hbuf
    · obtain rfl := Option.some.inj hbuf
      dsimp only at hfd ⊢
      rw [hfd]
      rfl

/-- The frame's edges followed, its buffer on the bus. -/
def Dev.canTrying (d : Dev) (n : Fin 8) (b : Fin 32) (es : List CanEdge) : Dev := (d.canEdges n es).modCan n (fun c => { c with onBus := some b })

section
variable (hact : d.canActive n = true) (hlisten : d.bit (Reg.CAN_CTL_LISTEN n.1) = false) (dly : Nat) (es : List CanEdge) (sof : Nat)
include hact hlisten

theorem Dev.canTransmit_onBus (hbuf : d.canBuffer word mem n b.1 = some fr) (hbus : (d.can[n]).onBus = some b) (fate : CanFate) :
    d.canTransmit word mem n sof dly fate es = (d.canEdges n es).canAttempt n b fr sof dly fate := by
  have hc : ¬((!d.canActive n) = true ∨ d.bit (Reg.CAN_CTL_LISTEN n.1) = true ∧ (!d.bit (Reg.CAN_CTL_LOOP n.1)) = true) := by
    rw [hact, hlisten]
    simp
  unfold Dev.canTransmit
  rw [if_neg hc, hbus]
  dsimp only
  rw [hbuf]

/-- The frame of the buffer that wins is started. -/
theorem Dev.canTransmit_start (hloop : d.bit (Reg.CAN_CTL_LOOP n.1) = false) (hbuf : d.canBuffer word mem n b.1 = some fr) (hbus : (d.can[n]).onBus = none)
    (hpend : ∀ c : Fin 32, d.canPending n c = decide (c = b)) (hts : (d.can[n]).tsWait = none) (hreach : d.canReach n .read (64 + b.1) = .opened) :
    d.canTransmit word mem n sof dly (.onBus .arbitration) es = ((d.emit (.canFrame n.1 fr)).canSof n).canTrying n b es := by
  have hc : ¬((!d.canActive n) = true ∨ d.bit (Reg.CAN_CTL_LISTEN n.1) = true ∧ (!d.bit (Reg.CAN_CTL_LOOP n.1)) = true) := by
    rw [hact, hlisten]
    simp
  have honly : ∀ c : Fin 32, d.canPending n c = true → c = b := fun c h => of_decide_eq_true ((hpend c).symm.trans h)
  have hreads : d.canReads n = .opened := Dev.canReads_opened (fun c h => honly c h ▸ hreach)
  have hvalid : d.canValidate word mem n = d := Dev.canValidate_valid (fun c h => by
    obtain rfl := honly c h
    exact ⟨hreach, by rw [hbuf]; rfl⟩)
  have hgo : ¬((!d.canActive n) = true ∨ d.canReads n ≠ .opened ∨ ((d.can[n]).tsWait).isSome = true) := by
    rw [hact, hreads, hts]
    simp
  unfold Dev.canTransmit
  rw [if_neg hc, hbus]
  dsimp only
  rw [hvalid, if_neg hgo, Dev.canChoose_single hbuf hpend]
  dsimp only
  rw [hloop]
  unfold Dev.canAttempt
  cases hfd : fr.fd <;> cases hbrs : fr.brs <;> rfl

end

theorem Dev.canAttempt_lost (d : Dev) (n : Fin 8) (b : Fin 32) (fr : CanFrame) (sof dly : Nat) (es : List CanEdge) :
    (d.canEdges n es).canAttempt n b fr sof dly .lost = (d.canTrying n b es).attemptFails n b := by
  unfold Dev.canAttempt
  cases hfd : fr.fd <;> cases hbrs : fr.brs <;> rfl

theorem Dev.canAttempt_sent (d : Dev) (n : Fin 8) (b : Fin 32) {fr : CanFrame} (sof dly : Nat) (es : List CanEdge) (hfd : fr.fd = false)
    (hbrs : fr.brs = false) : (d.canEdges n es).canAttempt n b fr sof dly .sent = (d.canTrying n b es).canSent n b fr sof := by
  unfold Dev.canAttempt
  rw [hfd, hbrs]
  rfl

/-- The delay of an FD frame's res edge is measured, whatever ends the frame. -/
theorem Dev.f_canAttempt_dly (d : Dev) (n : Fin 8) (b : Fin 32) {fr : CanFrame} (sof dly : Nat) (hfd : fr.fd = true) {e : CanErr} {pl : CanPlace} (c : CanCount)
    (hpl : pl ≠ .arbitration) : (d.canAttempt n b fr sof dly (.error e pl c)).f (Reg.CAN_SSP_DLY n.1) = min dly 255 := by
  have hdly : ∀ g : Dev, Dev.Within (canBlocks n) True ((d.setF (Reg.CAN_SSP_DLY n.1) (min dly 255)).modCan n (fun c => { c with onBus := some b })) g →
      g.f (Reg.CAN_SSP_DLY n.1) = min dly 255 := fun g hg => by
    refine (hg.f _ ⟨Nat.le_of_ble_eq_true rfl, fun x hx => ?_⟩).trans ((Dev.f_setF_same d _ _).trans (Nat.mod_eq_of_lt ?_))
    · simp only [canBlocks, List.mem_cons, List.not_mem_nil, or_false] at hx
      obtain rfl | rfl | rfl | rfl | rfl := hx <;> simp only [Reg.CAN_SSP_DLY, Reg.CAN_SSP_at] <;> omega
    · exact lt_of_le_of_lt (Nat.min_le_right dly 255) (show 255 < 2 ^ 8 by decide)
  have hset : (fr.fd && canPlace (.error e pl c) != .arbitration) = true := by
    rw [hfd, Bool.true_and]
    exact bne_iff_ne.mpr hpl
  unfold Dev.canAttempt
  dsimp only
  rw [if_pos hset]
  split
  · exact hdly _ (((Dev.Within.refl _).free 1).trans ((Dev.CanSteps.refl _).canError _ _ _).within)
  · exact hdly _ ((Dev.CanSteps.refl _).canError _ _ _).within

end

section
variable (d : Dev) (n : Fin 8) (b : Fin 32) (es : List CanEdge)

/-- The attempt over, whatever its outcome. -/
def Dev.canTried : Dev := (d.canTrying n b es).modCan n (fun c => { c with onBus := none })

theorem Dev.canTried_onBus : ((d.canTried n b es).can[n]).onBus = none := congrArg Can.onBus (getElem_put_same _ _ _)
theorem Dev.canTried_regs : (d.canTried n b es).regs = d.regs := rfl
theorem Dev.canTried_rcWait : (d.canTried n b es).rcWait = d.rcWait := rfl
theorem Dev.canTried_spares : Dev.SparesMem d (d.canTried n b es) := ⟨rfl, rfl, rfl⟩

theorem Dev.canTrying_lost (habort : d.tb (Reg.CAN_TXABORT_BUF n.1) b.1 = false) (hone : d.bit (Reg.CAN_CTL_ONESHOT n.1) = false) :
    (d.canTrying n b es).attemptFails n b = d.canTried n b es := by
  have h1 : ¬((d.canTried n b es).tb (Reg.CAN_TXABORT_BUF n.1) b.1 = true) := fun hc => absurd (habort.symm.trans hc) (by decide)
  have h2 : ¬((d.canTried n b es).bit (Reg.CAN_CTL_ONESHOT n.1) = true) := fun hc => absurd (hone.symm.trans hc) (by decide)
  exact (if_neg h1).trans (if_neg h2)

/-- The time stamp stored and the buffer ended as sent. -/
def Dev.canSentMarked (d : Dev) (n : Fin 8) (b : Fin 32) (sof : Nat) : Dev :=
  ((d.post (d.canElem n (64 + b.1) + 8) (leBytes 8 (canTs sof))).endBuf n b (Reg.CAN_TXSENT_BUF n.1)).canEvt n Reg.CAN_EVT_TX_SENT

theorem Dev.f_canSentMarked_loop (d : Dev) (n : Fin 8) (b : Fin 32) (sof : Nat) :
    (d.canSentMarked n b sof).f (Reg.CAN_CTL_LOOP n.1) = d.f (Reg.CAN_CTL_LOOP n.1) := by
  have hctl : ∀ {q : RF}, q.addr ≠ Reg.CAN_CTL_at n.1 → ¬((Reg.CAN_CTL_LOOP n.1).addr = q.addr ∧ (Reg.CAN_CTL_LOOP n.1).lo = q.lo) :=
    fun hne hc => hne hc.1.symm
  refine (Dev.f_canEvt _ n (Nat.le_of_ble_eq_true rfl) rfl (Nat.le_of_ble_eq_true rfl) (by simp only [Reg.CAN_CTL_LOOP, Reg.CAN_CTL_at]; omega)
    (by simp only [Reg.CAN_CTL_LOOP, Reg.CAN_CTL_at, Reg.CAN_EVT_at]; omega)).trans ?_
  unfold Dev.endBuf
  dsimp only
  rw [Dev.f_setTb_off _ _ _ (Nat.le_of_ble_eq_true rfl) (Nat.le_of_ble_eq_true rfl)
    (hctl (by simp only [Reg.CAN_TXSENT_BUF, Reg.CAN_TXSENT_at, Reg.CAN_CTL_at]; omega)), Dev.f_note,
    Dev.f_setTb_off _ _ _ (Nat.le_of_ble_eq_true rfl) (Nat.le_of_ble_eq_true rfl)
    (hctl (by simp only [Reg.CAN_TXABORT_BUF, Reg.CAN_TXABORT_at, Reg.CAN_CTL_at]; omega)),
    Dev.f_setTb_off _ _ _ (Nat.le_of_ble_eq_true rfl) (Nat.le_of_ble_eq_true rfl)
    (hctl (by simp only [Reg.CAN_TXGO_BUF, Reg.CAN_TXGO_at, Reg.CAN_CTL_at]; omega)),
    Dev.f_setTb_off _ _ _ (Nat.le_of_ble_eq_true rfl) (Nat.le_of_ble_eq_true rfl)
    (hctl (by simp only [Reg.CAN_TXBUSY_BUF, Reg.CAN_TXBUSY_at, Reg.CAN_CTL_at]; omega))]
  exact Dev.f_post _ _ _ _

/-- TEC counted down for a frame sent (R289). -/
def Dev.canTecCounted (d : Dev) (n : Fin 8) : Dev :=
  if d.f (Reg.CAN_ECNT_TEC n.1) = 0 then d else d.canCounters n (d.f (Reg.CAN_ECNT_TEC n.1) - 1) (d.f (Reg.CAN_ECNT_REC n.1))

/-- Under LOOP the controller also receives what it sends. -/
def Dev.canLooped (d : Dev) (n : Fin 8) (fr : CanFrame) (sof : Nat) : Dev :=
  if d.bit (Reg.CAN_CTL_LOOP n.1) then d.canAccept n fr sof else d

theorem Dev.canSent_tried (d : Dev) (n : Fin 8) (b : Fin 32) (es : List CanEdge) (fr : CanFrame) (sof : Nat) :
    (d.canTrying n b es).canSent n b fr sof = (((d.canTried n b es).canTecCounted n).canStamp n b sof).canLooped n fr sof := rfl

theorem Dev.canSent_eq {d : Dev} {n : Fin 8} {b : Fin 32} {es : List CanEdge} (fr : CanFrame) (sof : Nat) (htec : d.f (Reg.CAN_ECNT_TEC n.1) = 0)
    (hloop : d.bit (Reg.CAN_CTL_LOOP n.1) = false) (hreach : d.canReach n .write (64 + b.1) = .opened) :
    (d.canTrying n b es).canSent n b fr sof = (d.canTried n b es).canSentMarked n b sof := by
  have hstamp : (d.canTried n b es).canStamp n b sof = (d.canTried n b es).canSentMarked n b sof := by
    unfold Dev.canStamp
    rw [Dev.canReach_congr (d.canTried_regs n b es) (d.canTried_rcWait n b es), hreach]
    rfl
  have hloop' : ((d.canTried n b es).canSentMarked n b sof).bit (Reg.CAN_CTL_LOOP n.1) = false :=
    (Dev.bit_of_f (Dev.f_canSentMarked_loop _ n b sof)).trans hloop
  have hcounted : (d.canTried n b es).canTecCounted n = d.canTried n b es := if_pos htec
  rw [Dev.canSent_tried, hcounted, hstamp]
  exact if_neg (by rw [hloop']; decide)

theorem Dev.canSentMarked_reports (sof : Nat) :
    Dev.Reports (d.post (d.canElem n (64 + b.1) + 8) (leBytes 8 (canTs sof))) (d.canSentMarked n b sof) := by
  refine Dev.Reports.trans ?_ (Dev.canEvt_reports _ n _)
  exact ((((Dev.setF_same _ _ _).trans (Dev.setF_same _ _ _)).trans (Dev.setF_same _ _ _)).trans (Dev.note_same _ _ _)).trans (Dev.setF_same _ _ _)

/-- A sent buffer is no more pending and shown as sent. -/
theorem Dev.canSentMarked_bits (sof : Nat) : (d.canSentMarked n b sof).canPending n b = false ∧
    (d.canSentMarked n b sof).tb (Reg.CAN_TXSENT_BUF n.1) b.1 = true := by
  have hpost : ∀ q, (d.post (d.canElem n (64 + b.1) + 8) (leBytes 8 (canTs sof))).f q = d.f q := fun _ => rfl
  constructor
  · refine (Dev.tb_of_f (Dev.f_canEvt _ n (Nat.le_of_ble_eq_true rfl) rfl (Nat.le_of_ble_eq_true rfl)
      (by simp only [Reg.CAN_TXBUSY_BUF, Reg.CAN_TXBUSY_at]; omega) (by simp only [Reg.CAN_TXBUSY_BUF, Reg.CAN_TXBUSY_at, Reg.CAN_EVT_at]; omega)) _).trans ?_
    refine (Dev.tb_of_f ?_ _).trans ((Dev.canPending_setTb (d.post (d.canElem n (64 + b.1) + 8) (leBytes 8 (canTs sof))) n b b false).trans (if_pos rfl))
    unfold Dev.endBuf
    dsimp only
    rw [Dev.f_setTb_off _ _ _ (Nat.le_of_ble_eq_true rfl) (Nat.le_of_ble_eq_true rfl)
      (by simp only [Reg.CAN_TXBUSY_BUF, Reg.CAN_TXBUSY_at, Reg.CAN_TXSENT_BUF, Reg.CAN_TXSENT_at]; omega), Dev.f_note,
      Dev.f_setTb_off _ _ _ (Nat.le_of_ble_eq_true rfl) (Nat.le_of_ble_eq_true rfl)
      (by simp only [Reg.CAN_TXBUSY_BUF, Reg.CAN_TXBUSY_at, Reg.CAN_TXABORT_BUF, Reg.CAN_TXABORT_at]; omega),
      Dev.f_setTb_off _ _ _ (Nat.le_of_ble_eq_true rfl) (Nat.le_of_ble_eq_true rfl)
      (by simp only [Reg.CAN_TXBUSY_BUF, Reg.CAN_TXBUSY_at, Reg.CAN_TXGO_BUF, Reg.CAN_TXGO_at]; omega)]
  · refine (Dev.tb_of_f (Dev.f_canEvt _ n (Nat.le_of_ble_eq_true rfl) rfl (Nat.le_of_ble_eq_true rfl)
      (by simp only [Reg.CAN_TXSENT_BUF, Reg.CAN_TXSENT_at]; omega) (by simp only [Reg.CAN_TXSENT_BUF, Reg.CAN_TXSENT_at, Reg.CAN_EVT_at]; omega)) _).trans ?_
    exact (Dev.tb_setTb _ _ b.1 true b.2).trans (if_pos rfl)

end

section
variable {s : State} {n : Fin 8} {b : Fin 32} {fr : CanFrame} (hl : Live s) (hact : s.dev.canActive n = true)
  (hlisten : s.dev.bit (Reg.CAN_CTL_LISTEN n.1) = false) (hbuf : s.dev.canBuffer s.memWord s.memBytes n b.1 = some fr) (dly : Nat) (es : List CanEdge) (sof : Nat)
include hl hact hlisten hbuf

theorem Answers.of_canStart (hloop : s.dev.bit (Reg.CAN_CTL_LOOP n.1) = false) (hbus : (s.dev.can[n]).onBus = none)
    (hpend : ∀ c : Fin 32, s.dev.canPending n c = decide (c = b)) (hts : (s.dev.can[n]).tsWait = none)
    (hreach : s.dev.canReach n .read (64 + b.1) = .opened) :
    Answers (.canTransmit n ⟨sof, es⟩ dly (.onBus .arbitration)) s (fun t => (t.dev.can[n]).onBus = some b ∧ t.dev.out = .canFrame n.1 fr :: s.dev.out) :=
  .of_done hl (congrArg s.done (Dev.canTransmit_start hact hlisten dly es sof hloop hbuf hbus hpend hts hreach))
    ⟨congrArg Can.onBus (getElem_put_same _ _ _), rfl⟩

theorem Answers.of_canLost (hbus : (s.dev.can[n]).onBus = some b) (habort : s.dev.tb (Reg.CAN_TXABORT_BUF n.1) b.1 = false)
    (hone : s.dev.bit (Reg.CAN_CTL_ONESHOT n.1) = false) : Answers (.canTransmit n ⟨sof, es⟩ dly .lost) s (fun t => (t.dev.can[n]).onBus = none ∧
      ∀ c : Fin 32, t.dev.canPending n c = s.dev.canPending n c) := by
  have heq := (Dev.canTransmit_onBus hact hlisten dly es sof hbuf hbus .lost).trans
    ((s.dev.canAttempt_lost n b fr sof dly es).trans (s.dev.canTrying_lost n b es habort hone))
  exact .of_done hl (congrArg s.done heq) ⟨s.dev.canTried_onBus n b es, fun c =>
    Dev.tb_of_f ((State.commit_f _ _ _).trans (Dev.f_of_regs (s.dev.canTried_regs n b es) _)) _⟩

theorem Answers.of_canSent (hc : Clean s) (hloop : s.dev.bit (Reg.CAN_CTL_LOOP n.1) = false) (hbus : (s.dev.can[n]).onBus = some b) (hfd : fr.fd = false)
    (htec : s.dev.f (Reg.CAN_ECNT_TEC n.1) = 0) (hreach : s.dev.canReach n .write (64 + b.1) = .opened) :
    Answers (.canTransmit n ⟨sof, es⟩ dly .sent) s (fun t => (t.dev.can[n]).onBus = none ∧ t.dev.canPending n b = false ∧
      t.dev.tb (Reg.CAN_TXSENT_BUF n.1) b.1 = true ∧ Stored s t (s.dev.canElem n (64 + b.1) + 8) (leBytes 8 (canTs sof))) := by
  have heq := (Dev.canTransmit_onBus hact hlisten dly es sof hbuf hbus .sent).trans
    ((s.dev.canAttempt_sent n b sof dly es hfd (Dev.canBuffer_classical hbuf hfd)).trans (Dev.canSent_eq fr sof htec hloop hreach))
  have hrep := (s.dev.canTried n b es).canSentMarked_reports n b sof
  have hbits := (s.dev.canTried n b es).canSentMarked_bits n b sof
  have hsp := s.dev.canTried_spares n b es
  refine .of_done hl (congrArg s.done heq) ⟨?_, ?_, ?_, ?_⟩
  · exact (congrArg (fun cs : Vector Can 8 => (cs[n]).onBus) hrep.can).trans (s.dev.canTried_onBus n b es)
  · exact (Dev.tb_of_f (State.commit_f _ _ _) _).trans hbits.1
  · exact (Dev.tb_of_f (State.commit_f _ _ _) _).trans hbits.2
  · refine State.commit_stored ?_ (hrep.lost.trans (hsp.lost.trans hc.2)) ((congrArg₂ Prod.mk hrep.vatEpoch hrep.dramEpoch).trans hsp.ep)
    have hwq : ((s.dev.canTried n b es).post ((s.dev.canTried n b es).canElem n (64 + b.1) + 8) (leBytes 8 (canTs sof))).wq =
        (s.dev.canTried n b es).wq ++ [((s.dev.canTried n b es).canElem n (64 + b.1) + 8, leBytes 8 (canTs sof))] := rfl
    rw [hrep.wq, hwq, hsp.wq, hc.1, Dev.canElem_congr (s.dev.canTried_regs n b es)]
    rfl

theorem Answers.of_canDly (hbus : (s.dev.can[n]).onBus = some b) (hfd : fr.fd = true) (e : CanErr) {pl : CanPlace} (hpl : pl ≠ .arbitration) (c : CanCount) :
    Answers (.canTransmit n ⟨sof, es⟩ dly (.error e pl c)) s (fun t => t.dev.f (Reg.CAN_SSP_DLY n.1) = min dly 255) :=
  .of_done hl (congrArg s.done (Dev.canTransmit_onBus hact hlisten dly es sof hbuf hbus _))
    ((State.commit_f _ _ _).trans (Dev.f_canAttempt_dly _ n b sof dly hfd c hpl))

end

/-! ### Consumer indices (R147, R295) -/

theorem Answers.of_canFifoCi {s : State} {src : Src} {n : Fin 8} {i : Fin 2} {w : Word} (hr : Reaches s src (Reg.CAN_FIFO_CI_at n.1 i.1)) :
    Answers (.canFifoCiWrite src n i w) s (fun t => t.dev.f (Reg.CAN_FIFO_CI_IDX n.1 i.1) =
      if consumerOk (s.dev.f (Reg.CAN_FIFO_PI_IDX n.1 i.1)) (s.dev.f (Reg.CAN_FIFO_CI_IDX n.1 i.1)) w.toNat then w.toNat
      else s.dev.f (Reg.CAN_FIFO_CI_IDX n.1 i.1)) := by
  refine .of_done hr.1 (congrArg s.done (Dev.onWrite_unguarded hr.2 _)) ?_
  rw [State.commit_f]
  unfold Dev.canCi
  split
  next hok => exact ((Dev.f_setF_same _ _ _).trans (Nat.mod_eq_of_lt w.isLt)).trans (if_pos hok).symm
  next hok => exact (Dev.f_log_off _ _ _ _ _ (Nat.le_of_ble_eq_true rfl) (by simp only [Reg.CAN_FIFO_CI_IDX, Reg.CAN_FIFO_CI_at]; omega)).trans (if_neg hok).symm

/-- Settles O38: a frame received is routed by the filters as they stood at its start, and its element is stored where its FIFO has room; of
the transmit buffers, requests and withdrawals are folds over the buffers in which each step touches its own buffer's bits alone. -/
theorem canFramesAndBuffers : Obligations.CanFramesAndBuffers := by
  unfold Obligations.CanFramesAndBuffers
  refine ⟨fun s n fr sof es hl hc hact hloop hfd hrec => ⟨?_, ?_⟩, ?_, ?_, ?_, ?_, ?_⟩
  · exact fun hroute => .of_canRejected hl hact hloop hfd hc hrec es hroute
  · intro i f nm hroute hfill x a hwait hreach
    exact .of_canStored hl hact hloop hfd hc hrec es hroute hfill hwait hreach
  · exact fun s n fr sof q hl hact hloop hfd hq hsp hlen hpre => .of_canEdge hl hact hloop hfd hq hsp hlen hpre
  · exact fun s src n w hr h0 hvalid => .of_txgo hr h0 hvalid
  · exact fun s src n w hr hbus hts => .of_txabort hr hbus hts
  · intro s n b fr sof dly es hl hc hact hlisten hloop hbuf
    refine ⟨fun hbus hpend hts hreach => ?_, fun hbus habort hone => ?_, fun hbus hfd htec hreach => ?_, fun e pl c hbus hfd hpl => ?_⟩
    · exact .of_canStart hl hact hlisten hbuf dly es sof hloop hbus hpend hts hreach
    · exact .of_canLost hl hact hlisten hbuf dly es sof hbus habort hone
    · exact .of_canSent hl hact hlisten hbuf dly es sof hc hloop hbus hfd htec hreach
    · exact .of_canDly hl hact hlisten hbuf dly es sof hbus hfd e hpl c
  · exact fun s src n i w hr => .of_canFifoCi hr

end Sys2Proof.Machine
end

section
/-!
PROOF. The power-on reset (R404, R407) in a state whose register file holds more than the field is wide.
-/

namespace Sys2Proof.Machine
open Sys2Proof

/-- The device of life-cycle state RETURN after reset, with 3 filed in TESTROOT, which has one bit. -/
def State.wideTestRoot : State :=
  { State.reset with dev := { State.reset.dev with regs := [(Reg.MORD_STAT_TESTROOT.key, 3)], fuse := { State.reset.dev.fuse with lc := 3 } } }

theorem wideTestRoot_not_set : State.wideTestRoot.dev.bit Reg.MORD_STAT_TESTROOT = false := by decide +kernel

/-- The reset keeps the low bit of what is filed. -/
theorem powerOn_wideTestRoot : State.wideTestRoot.dev.powerOn.bit Reg.MORD_STAT_TESTROOT = true := by decide +kernel

/-- Refutes O49, in the clause of POWER_ON_RESET: the clause says that outside DEVELOP and DEPLOY TESTROOT is set after the reset exactly where it
read 1 before. Where the register file holds 3 for this field of one bit (no command files such a value) it does not read 1, and the reset, which
files the value anew, leaves its low bit. -/
theorem not_supplyAndResets : ¬ Obligations.SupplyAndResets := by
  unfold Obligations.SupplyAndResets
  intro ⟨hreset, _⟩
  obtain ⟨t, hexec, -, -, hroot, -⟩ := hreset State.wideTestRoot
  have ht : exec .powerOnReset State.wideTestRoot = .next (State.wideTestRoot.commit State.wideTestRoot.dev.powerOn) := rfl
  obtain rfl := Host.Outcome.next.inj (hexec.symm.trans ht)
  rw [State.commit_bit, powerOn_wideTestRoot, wideTestRoot_not_set, Bool.false_and] at hroot
  exact absurd hroot (by decide)

end Sys2Proof.Machine
end

section
/-!
PROOF. The performance counters (R315) of a core whose context names a slice past the counters' block.
-/

namespace Sys2Proof.Machine
open Sys2Proof

/-- A field of at most 32 bits keeps below 2^32 what lies below it. -/
theorem Dev.f_setF_lt {d : Dev} {r r' : RF} (x : Nat) (hw : r.w ≤ 32) (hd : r'.dflt = 0) (h : d.f r' < 2 ^ 32) : (d.setF r x).f r' < 2 ^ 32 := by
  have hx : x % 2 ^ r.w < 2 ^ 32 := (Nat.mod_lt _ (Nat.two_pow_pos _)).trans_le (Nat.pow_le_pow_right (by decide) hw)
  rw [Dev.f_setF]
  split
  · split
    · rw [hd]; decide
    · exact hx
  · exact h

/-- One counter of a set, as `Dev.addEvents` counts it. -/
def Dev.addEvent (d : Dev) (s i : Nat) : Dev :=
  (d.free 64).2.setF64 (Reg.PERF_CNT_LO_COUNT s i) (Reg.PERF_CNT_HI_COUNT s i)
    ((d.f64 (Reg.PERF_CNT_LO_COUNT s i) (Reg.PERF_CNT_HI_COUNT s i) + (d.free 64).1) % 2 ^ 64)

theorem Dev.addEvents_eq (d : Dev) (s : Nat) : d.addEvents s = [1, 2, 3].foldl (fun d i => d.addEvent s i) (d.addEvent s 0) := rfl

theorem Dev.addEvent_lt {d : Dev} {r : RF} (s i : Nat) (hd : r.dflt = 0) (h : d.f r < 2 ^ 32) : (d.addEvent s i).f r < 2 ^ 32 :=
  Dev.f_setF_lt _ (Nat.le_refl 32) hd (Dev.f_setF_lt _ (Nat.le_refl 32) hd h)

theorem Dev.addEvent_self_lt (d : Dev) (s i : Nat) : (d.addEvent s i).f (Reg.PERF_CNT_LO_COUNT s i) < 2 ^ 32 :=
  Dev.f_setF_lt _ (Nat.le_refl 32) rfl ((Dev.f_setF_same _ _ _).trans_lt (Nat.mod_lt _ (Nat.two_pow_pos 32)))

theorem Dev.addEvents_lt {d : Dev} {r : RF} (s : Nat) (hd : r.dflt = 0) (h : d.f r < 2 ^ 32) : (d.addEvents s).f r < 2 ^ 32 := by
  rw [Dev.addEvents_eq]
  exact List.foldlRecOn (motive := fun e : Dev => e.f r < 2 ^ 32) [1, 2, 3] _ (Dev.addEvent_lt s 0 hd h) fun _ he i _ => Dev.addEvent_lt s i hd he

theorem Dev.addEvents_self_lt (d : Dev) (s : Nat) : (d.addEvents s).f (Reg.PERF_CNT_LO_COUNT s 0) < 2 ^ 32 := by
  rw [Dev.addEvents_eq]
  exact List.foldlRecOn (motive := fun e : Dev => e.f (Reg.PERF_CNT_LO_COUNT s 0) < 2 ^ 32) [1, 2, 3] _ (Dev.addEvent_self_lt d s 0)
    fun _ he i _ => Dev.addEvent_lt s i rfl he

/-- The counters of the first core that has been counting hold no more than their width afterwards. -/
theorem Dev.tally_lt {d : Dev} {s : Nat} (hat : d.perfAt ≠ d.up) (hcount : (d.setPerfAt d.up).counting 0 = true)
    (hs : (d.setPerfAt d.up).f (Reg.CORE_CTX_SLICE (0 : Fin 6).1) = s) : d.tally.f (Reg.PERF_CNT_LO_COUNT s 0) < 2 ^ 32 := by
  unfold Dev.tally
  dsimp only
  have hcores : List.finRange 6 = 0 :: [1, 2, 3, 4, 5] := by decide
  rw [if_neg hat, hcores, List.foldl_cons, if_pos hcount]
  refine List.foldlRecOn (motive := fun e : Dev => e.f (Reg.PERF_CNT_LO_COUNT s 0) < 2 ^ 32) _ _ ?_ fun e he n _ => ?_
  · rw [hs]
    exact Dev.addEvents_self_lt _ s
  · split
    · exact Dev.addEvents_lt _ rfl he
    · exact he

/-- An entry into the secure world by an interrupt leaves no more than their width in the counters of the slice. -/
theorem Dev.secureInterrupt_lt {d : Dev} {s : Nat} (hat : d.perfAt ≠ d.up) (hcount : (d.setPerfAt d.up).counting 0 = true)
    (hs : (d.setPerfAt d.up).f (Reg.CORE_CTX_SLICE (0 : Fin 6).1) = s) (hruns : d.coreRuns 0 = true) (hworld : d.coreSecure 0 = false) :
    (d.secureInterrupt 0 0).f (Reg.PERF_CNT_LO_COUNT s 0) < 2 ^ 32 := by
  have heq : d.secureInterrupt 0 0 = (d.enterSecure 0 0).coreTrap 0 := by
    show (if !d.coreRuns 0 then d else if d.coreSecure 0 then d.coreTrap 0 else (d.enterSecure 0 0).coreTrap 0) = _
    rw [hruns, hworld]
    rfl
  rw [heq]
  exact Dev.f_setF_lt (r := Reg.CORE_CTX_GATED 0) 1 (by decide) rfl
    (Dev.f_setF_lt (r := Reg.CORE_CTX_WORLD 0) 1 (by decide) rfl (Dev.tally_lt hat hcount hs))

/-- The low word of the counter that slice 0x2980 would have: its address is 0x200F0000, past the block of the cores. -/
def Reg.strayCount : RF := Reg.PERF_CNT_LO_COUNT 0x2980 0

/-- The released device after reset, sliced counting on, core 0 in the normal world with the context 0x2980 (which has 6 bits), and 2^32 filed
for the counter of that slice (32 bits). -/
def State.strayCounter : State :=
  { State.reset with dev := { State.reset.dev with
      sup := { State.reset.dev.sup with held := false }
      cores := put State.reset.dev.cores (0 : Fin 6) { State.reset.dev.cores[(0 : Fin 6)] with held := false }
      perfAt := 1
      regs := [(Reg.strayCount.key, 2 ^ 32), ((Reg.CORE_CTX_SLICE 0).key, 0x2980), ((Reg.CORE_CTX_WORLD 0).key, 0),
        (Reg.PERF_CFG_SLICED.key, 1), ((Reg.PWR_QTAG_STATE 0).key, 0)] } }

/-- Refutes O59, in SECURE_INTERRUPT: the entry brings the performance counters up to date, those of the slice the core's context names, and the
register file of a state may name there a slice past the 40 of the device (no command files such a value): the counter's word then lies outside
the cores' block. Where more than its 32 bits stand there the command changes it. -/
theorem not_unitCommandsStayInTheirBlocks : ¬ Obligations.UnitCommandsStayInTheirBlocks := by
  unfold Obligations.UnitCommandsStayInTheirBlocks
  intro hframe
  obtain ⟨t, hexec, -, hkept, -⟩ := hframe (.secureInterrupt 0 0) _ State.strayCounter rfl (by decide +kernel)
  have ht : exec (.secureInterrupt 0 0) State.strayCounter = .next (State.strayCounter.commit (State.strayCounter.dev.secureInterrupt 0 0)) := rfl
  obtain rfl := Host.Outcome.next.inj (hexec.symm.trans ht)
  have hsame := hkept Reg.strayCount ⟨by decide, by decide⟩
  rw [State.commit_f] at hsame
  have hbefore : State.strayCounter.dev.f Reg.strayCount = 2 ^ 32 := by decide +kernel
  have hafter : (State.strayCounter.dev.secureInterrupt 0 0).f Reg.strayCount < 2 ^ 32 :=
    Dev.secureInterrupt_lt (by decide +kernel) (by decide +kernel) (by decide +kernel) (by decide +kernel) (by decide +kernel)
  exact absurd (hsame.trans hbefore) hafter.ne

end Sys2Proof.Machine
end

section
/-!
PROOF. The Gnotar port (R419–R423, R427, R428): the wire's check, the port registers, memory accesses, core registers.
-/

namespace Sys2Proof.Machine
open Sys2Proof

/-! ### A transaction of the wire (R419, R420) -/

/-- A command of the active port does its transaction. -/
theorem Answers.of_port {i : Instr} {s : State} {act : Dev → Dev} {d : Dev} {P : State → Prop} (hl : Live s)
    (hact : s.dev.bit Reg.DBG_STAT_ACTIVE = true) (he : exec i s = s.done (s.dev.onPort act)) (hd : act s.dev = d) (hP : P (s.commit d)) :
    Answers i s P :=
  .of_done hl (he.trans (congrArg s.done ((if_pos hact).trans hd))) hP

/-- A request without data, its check passed, is carried out by its OP. -/
theorem Dev.shortRequest_read (d : Dev) {req : Nat} (h : bits req 6 2 = 1) : d.shortRequest req (crc8 (beBytes 1 req)) = d.probeRead (bits req 0 6) := by
  unfold Dev.shortRequest
  rw [h, if_neg (by decide), if_neg (not_not.mpr rfl)]
  rfl

theorem Dev.shortRequest_clear (d : Dev) {req : Nat} (h : bits req 6 2 = 3) : d.shortRequest req (crc8 (beBytes 1 req)) = d.probeClear := by
  unfold Dev.shortRequest
  rw [h, if_neg (by decide), if_neg (not_not.mpr rfl)]
  rfl

theorem Dev.shortRequest_bad (d : Dev) {req crc : Nat} (hop : bits req 6 2 ≠ 2) (h : crc ≠ crc8 (beBytes 1 req)) :
    d.shortRequest req crc = d.badCrc := by
  unfold Dev.shortRequest
  rw [if_neg hop, if_pos h]

/-! ### Port registers (R421, R428) -/

/-- The port after a request that ends the access it answered. -/
def Dbg.dropGiven (g : Dbg) : Dbg := if g.given then { g with got := none, given := false } else g

theorem Dev.dropGiven_eq (d : Dev) : d.dropGiven = d.setDbg d.dbg.dropGiven := by
  unfold Dev.dropGiven Dbg.dropGiven
  split <;> rfl

@[simp] theorem Dbg.memErr_dropGiven (g : Dbg) : g.dropGiven.memErr = g.memErr := by unfold Dbg.dropGiven; split <;> rfl
@[simp] theorem Dbg.addr_dropGiven (g : Dbg) : g.dropGiven.addr = g.addr := by unfold Dbg.dropGiven; split <;> rfl
@[simp] theorem Dbg.memctl_dropGiven (g : Dbg) : g.dropGiven.memctl = g.memctl := by unfold Dbg.dropGiven; split <;> rfl
@[simp] theorem Dbg.acc_dropGiven (g : Dbg) : g.dropGiven.acc = g.acc := by unfold Dbg.dropGiven; split <;> rfl
@[simp] theorem Dbg.cert_dropGiven (g : Dbg) : g.dropGiven.cert = g.cert := by unfold Dbg.dropGiven; split <;> rfl
@[simp] theorem Dbg.fuseData_dropGiven (g : Dbg) : g.dropGiven.fuseData = g.fuseData := by unfold Dbg.dropGiven; split <;> rfl
@[simp] theorem Dbg.bpsel_dropGiven (g : Dbg) : g.dropGiven.bpsel = g.bpsel := by unfold Dbg.dropGiven; split <;> rfl
@[simp] theorem Dbg.cregSel_dropGiven (g : Dbg) : g.dropGiven.cregSel = g.cregSel := by unfold Dbg.dropGiven; split <;> rfl

theorem Dev.dpOpen_setDbg (d : Dev) (g : Dbg) (a : Nat) : (d.setDbg g).dpOpen a = d.dpOpen a := rfl

theorem Dev.dpShut_dropGiven (d : Dev) (a : Nat) : (d.setDbg d.dbg.dropGiven).dpShut a = d.dpShut a :=
  congrArg (· && decide (8 ≤ a ∧ a ≤ 0x0B)) d.dbg.memErr_dropGiven

theorem Dev.dpShut_of_memErr {d : Dev} (h : d.dbg.memErr = false) (a : Nat) : d.dpShut a = false := by
  unfold Dev.dpShut
  rw [h, Bool.false_and]

/-- A READ of a register the session may reach answers what stands there. -/
theorem Dev.probeRead_open {d : Dev} {a : Nat} (ha : a ≠ 0x0A) (hs : d.dpShut a = false) (ho : d.dpOpen a = true) : d.probeRead a =
    ((d.setDbg d.dbg.dropGiven).dpRead a).1.reply ((d.setDbg d.dbg.dropGiven).dpRead a).2.1 true ((d.setDbg d.dbg.dropGiven).dpRead a).2.2 := by
  unfold Dev.probeRead
  rw [if_neg ha, Dev.dropGiven_eq]
  dsimp only
  rw [Dev.dpShut_dropGiven, Dev.dpOpen_setDbg, hs, ho]
  exact if_neg (by decide)

/-- A WRITE of a register the session may reach acts and is answered. -/
theorem Dev.probeWrite_open {d : Dev} {a : Nat} (w : Nat) (hs : d.dpShut a = false) (ho : d.dpOpen a = true) : d.probeWrite a w =
    ((d.setDbg d.dbg.dropGiven).dpWrite a w).1.reply ((d.setDbg d.dbg.dropGiven).dpWrite a w).2 false 0 := by
  unfold Dev.probeWrite
  rw [Dev.dropGiven_eq]
  dsimp only
  rw [Dev.dpShut_dropGiven, Dev.dpOpen_setDbg, hs, ho]
  exact if_neg (by decide)

/-- A register the session may not reach is answered ERR. -/
theorem Dev.probeRead_closed {d : Dev} {a : Nat} (ho : d.dpOpen a = false) : (d.probeRead a).out = .gnotar 0x54 0 0 :: d.out := by
  unfold Dev.probeRead
  split <;> (dsimp only; rw [if_pos])
  · rfl
  · rw [ho]; exact Bool.or_true _
  · rw [Dev.dropGiven_eq]; rfl
  · rw [Dev.dropGiven_eq, Dev.dpOpen_setDbg, ho]; exact Bool.or_true _

theorem Dev.probeWrite_closed {d : Dev} {a : Nat} (w : Nat) (ho : d.dpOpen a = false) :
    d.probeWrite a w = (d.setDbg d.dbg.dropGiven).reply 4 false 0 := by
  unfold Dev.probeWrite
  rw [Dev.dropGiven_eq]
  dsimp only
  rw [Dev.dpOpen_setDbg, ho]
  exact if_pos (Bool.or_true _)

/-- A WRITE that only changes the port is acknowledged. -/
theorem Answers.of_ack {s : State} {req : Nat} {w : Word} {P : Dbg → Prop} {a : Nat} (hl : Live s) (hact : s.dev.bit Reg.DBG_STAT_ACTIVE = true)
    (hreq : bits req 6 2 = 2) (ha : bits req 0 6 = a) (hs : s.dev.dpShut a = false) (ho : s.dev.dpOpen a = true) {g : Dbg}
    (hw : (s.dev.setDbg s.dev.dbg.dropGiven).dpWrite a w.toNat = (s.dev.setDbg g, 1)) (hP : P g) :
    Answers (.gnotarWrite req w (crc8 (beBytes 1 req ++ beBytes 4 w.toNat))) s
      (fun t => t.dev.out = .gnotar 0x51 0 0 :: s.dev.out ∧ P t.dev.dbg) := by
  refine .of_port (d := (s.dev.setDbg g).reply 1 false 0) hl hact rfl ?_ ⟨rfl, hP⟩
  rw [if_neg (not_not.mpr rfl), if_pos hreq, ha, Dev.probeWrite_open _ hs ho, hw]

theorem spliceLo_parts (x : Nat) {w : Nat} (h : w < 2 ^ 32) : spliceLo x w % 2 ^ 32 = w ∧ spliceLo x w / 2 ^ 32 = x / 2 ^ 32 := by
  unfold spliceLo
  omega

theorem spliceHi_parts (x w : Nat) : spliceHi x w % 2 ^ 32 = x % 2 ^ 32 ∧ spliceHi x w / 2 ^ 32 = w % 256 := by
  unfold spliceHi
  omega

/-! ### Memory accesses (R428) -/

theorem Dev.dpOpen_data {d : Dev} (h : d.memScope = true) : d.dpOpen 0x0A = true := by
  unfold Dev.memScope at h
  show (d.scope 3 || d.scope 4) = true
  split at h
  · rw [h, Bool.or_true]
  · rw [h, Bool.true_or]

theorem Dev.memScope_dropGiven {d : Dev} (h : d.memScope = true) : (d.setDbg d.dbg.dropGiven).memScope = true := by
  unfold Dev.memScope at h ⊢
  rwa [show (d.setDbg d.dbg.dropGiven).dbg.memctl = d.dbg.memctl from d.dbg.memctl_dropGiven]

theorem Dev.probeRead_data {d : Dev} (hm : d.memScope = true) (he : d.dbg.memErr = false) :
    d.probeRead 0x0A = d.dataRead.1.reply d.dataRead.2.1 true d.dataRead.2.2 := by
  unfold Dev.probeRead
  rw [if_pos rfl]
  dsimp only
  rw [Dev.dpShut_of_memErr he, Dev.dpOpen_data hm]
  exact if_neg (by decide)

theorem Dev.dataRead_got {d : Dev} (hm : d.memScope = true) {x : Nat} (h : d.dbg.got = some x) :
    d.dataRead = (d.setDbg { d.dbg with given := true }, 1, x) := by
  unfold Dev.dataRead
  rw [hm, if_neg (by decide), h]
  rfl

theorem Dev.dataRead_start {d : Dev} (hm : d.memScope = true) (hg : d.dbg.got = none) (ha : d.dbg.acc = none) :
    d.dataRead = (d.setDbg { d.dbg with acc := some ⟨false, d.dbg.memctl.testBit 1, d.dbg.addr, 0⟩ }, 2, 0) := by
  unfold Dev.dataRead
  rw [hm, if_neg (by decide), hg, ha]
  rfl

theorem Dev.dataWrite_posted {d : Dev} (hm : d.memScope = true) (ha : d.dbg.acc = none) (w : Nat) :
    d.dataWrite w = (d.setDbg { d.dbg with acc := some ⟨true, d.dbg.memctl.testBit 1, d.dbg.addr, w⟩, got := none }, 1) := by
  unfold Dev.dataWrite
  rw [hm, if_neg (by decide), ha]
  rfl

theorem Dev.dataWrite_busy {d : Dev} (hm : d.memScope = true) (ha : d.dbg.acc.isSome = true) (w : Nat) : d.dataWrite w = (d, 2) := by
  unfold Dev.dataWrite
  rw [hm, if_neg (by decide), ha]
  rfl

theorem Dev.probeWrite_data {d : Dev} (hm : d.memScope = true) (he : d.dbg.memErr = false) (w : Nat) : d.probeWrite 0x0A w =
    ((d.setDbg d.dbg.dropGiven).dataWrite w).1.reply ((d.setDbg d.dbg.dropGiven).dataWrite w).2 false 0 :=
  Dev.probeWrite_open w (Dev.dpShut_of_memErr he _) (Dev.dpOpen_data hm)

theorem Dev.l2Fill_dbg (d : Dev) (secure : Bool) (line : Nat) : (d.l2Fill secure line).dbg = d.dbg := by
  unfold Dev.l2Fill
  dsimp only
  split_ifs <;> rfl

theorem Dev.cached_dbg (d before : Dev) (word : Nat → Nat → Nat) (src : Src) (op : MemOp) (addr size : Nat) :
    (d.cached before word src op addr size).dbg = d.dbg := by
  have filled : ∀ xs : List Nat, (xs.foldl (fun d i => d.l2Fill src.secure (addr / 64 + i)) d).dbg = d.dbg := fun xs =>
    List.foldlRecOn _ _ (motive := fun e : Dev => e.dbg = d.dbg) rfl (fun e he i _ => (e.l2Fill_dbg _ _).trans he)
  unfold Dev.cached
  dsimp only
  split_ifs
  · rfl
  · exact filled _
  · exact filled _

/-- The port after the outstanding access has been made without an error. -/
def Dbg.afterAccess (g : Dbg) (a : DbgAcc) (x : Nat) : Dbg :=
  let g := if g.memctl.testBit 0 then { g with addr := (g.addr + 4) % 2 ^ 40 } else g
  if a.write then g else { g with got := some x, given := false }

theorem Dbg.acc_afterAccess (g : Dbg) (a : DbgAcc) (x : Nat) : (g.afterAccess a x).acc = g.acc := by
  unfold Dbg.afterAccess
  dsimp only
  split <;> split <;> rfl

theorem Dbg.addr_afterAccess (g : Dbg) (a : DbgAcc) (x : Nat) :
    (g.afterAccess a x).addr = if g.memctl.testBit 0 then (g.addr + 4) % 2 ^ 40 else g.addr := by
  unfold Dbg.afterAccess
  dsimp only
  split <;> split <;> rfl

theorem Dbg.got_afterAccess (g : Dbg) {a : DbgAcc} (x : Nat) (h : a.write = false) : (g.afterAccess a x).got = some x := by
  unfold Dbg.afterAccess
  dsimp only
  rw [h]
  rfl

theorem Dev.accDone_of_ok {d : Dev} (h : d.resp.err = false) (a : DbgAcc) :
    d.accDone a = d.setDbg (d.dbg.afterAccess a d.resp.data) := by
  unfold Dev.accDone Dbg.afterAccess
  rw [h]
  rfl

/-- The state with another port. -/
def State.withDbg (s : State) (g : Dbg) : State := { s with dev := s.dev.setDbg g }

/-- The state in which the outstanding access is made. -/
def State.takeAcc (s : State) : State := s.withDbg { s.dev.dbg with acc := none }

theorem State.commit_withDbg {s : State} (hs : Clean s) (g : Dbg) : s.commit (s.dev.setDbg g) = s.withDbg g :=
  State.commit_self (s := s.withDbg g) hs

theorem isNone_ite_some {α : Type} (c : Bool) (x : α) : (if c then some x else none).isNone = !c := by cases c <;> rfl

theorem Dev.checked_setDbg (d : Dev) (g : Dbg) (t : Nat) (src : Src) (op : MemOp) (addr : Nat) :
    ((d.setDbg g).checked t src op addr).isNone = (d.checked t src op addr).isNone := by
  have hpermits (k : AccessKind) : (d.setDbg g).permits t src k addr = d.permits t src k addr := rfl
  unfold Dev.checked
  cases op <;> simp only [hpermits, isNone_ite_some]

theorem Dev.inReset_setDbg (d : Dev) (g : Dbg) (src : Src) : ((d.setDbg g).inReset src).isNone = (d.inReset src).isNone := by
  have hstopped : (d.setDbg g).stopped src = d.stopped src := rfl
  have hsup : (d.setDbg g).sup = d.sup := rfl
  unfold Dev.inReset
  rw [hstopped, hsup]
  split_ifs <;> rfl

theorem Permitted.withDbg {s : State} {src : Src} {op : MemOp} {addr t : Nat} (h : Permitted s src op addr t) (g : Dbg) :
    Permitted (s.withDbg g) src op addr t := by
  obtain ⟨hlive, hsrc, hreset, hport, htcm, hchk, hperm⟩ := h
  exact ⟨hlive, hsrc, (s.dev.inReset_setDbg g src).trans hreset, hport, htcm, hchk, (s.dev.checked_setDbg g t src op addr).trans hperm⟩

theorem execMemoryAccessDone_of_some {s t : State} {a : DbgAcc} {ecc : Ecc} (hl : Live s) (hs : Clean s) (ha : s.dev.dbg.acc = some a)
    (h : s.takeAcc.access ⟨14, a.secure, 0⟩ (if a.write then .write else .read) a.addr 4 a.data ecc = .next t) :
    execMemoryAccessDone ecc s = .next (t.commit (t.dev.accDone a)) := by
  unfold execMemoryAccessDone
  rw [ha]
  dsimp only
  have htake : s.commit (s.dev.modDbg fun x => { x with acc := none }) = s.takeAcc := State.commit_withDbg hs _
  rw [if_neg (Bool.eq_false_iff.mp hl), htake, h]

/-- What a bank does for the outstanding access. -/
def State.accDev (s : State) (a : DbgAcc) (op : MemOp) : Dev :=
  (s.takeAcc.dev.perform s.memWord op a.addr 4 a.data).cached s.takeAcc.dev s.memWord ⟨14, a.secure, 0⟩ op a.addr 4

theorem State.takeAcc_access {s : State} {a : DbgAcc} {op : MemOp} {u : Nat} (hsram : inSram a.addr = true) (hop : op.atomic = false)
    (hperm : Permitted s ⟨14, a.secure, 0⟩ op a.addr u) (hserves : s.dev.serves a.addr = true) :
    s.takeAcc.access ⟨14, a.secure, 0⟩ op a.addr 4 a.data .ok = .next (s.takeAcc.commit (s.accDev a op)) := by
  have hu : u ≠ 14 := by
    obtain ⟨-, -, -, -, -, hchk, -⟩ := hperm
    rintro rfl
    simp only [inSram, Bool.and_eq_true, decide_eq_true_eq] at hsram
    unfold checkerOf at hchk
    split_ifs at hchk <;> (have := Option.some.inj hchk; omega)
  have hdoes : Performs s.takeAcc op a.addr 4 := ⟨hserves, hop, .inl hsram⟩
  have hperm' : Permitted s.takeAcc ⟨14, a.secure, 0⟩ op a.addr u := hperm.withDbg _
  rw [State.access_of_permitted hperm' hu 4 a.data .ok, Dev.atMemory_of_performs hdoes]
  exact State.done_live _ _ hperm.1

theorem State.accDev_dbg (s : State) (a : DbgAcc) {op : MemOp} (hop : op = .read ∨ op = .write) : (s.accDev a op).dbg = { s.dev.dbg with acc := none } := by
  obtain rfl | rfl := hop <;> exact Dev.cached_dbg _ _ _ _ _ _ _

/-- A read brings the word there. -/
theorem State.accDev_read (s : State) (a : DbgAcc) : Dev.OnlyCaches (s.takeAcc.dev.answer (s.memWord a.addr 4)) (s.accDev a .read) :=
  Dev.cached_caches _ _ _ _ _ _ _

/-- A write posts its bytes. -/
theorem State.accDev_write (s : State) (a : DbgAcc) :
    Dev.OnlyCaches ((s.takeAcc.dev.answer 0).post a.addr (leBytes 4 a.data)) (s.accDev a .write) :=
  Dev.cached_caches _ _ _ _ _ _ _

/-- The state in which the access ends. -/
def State.accEnd (s : State) (a : DbgAcc) (op : MemOp) (x : Nat) : State :=
  (s.takeAcc.commit (s.accDev a op)).withDbg (Dbg.afterAccess { s.dev.dbg with acc := none } a x)

/-- The outstanding access to an SRAM bank is made and ends. -/
theorem Answers.of_memoryAccessDone {s : State} {a : DbgAcc} {op : MemOp} {u : Nat} {x : Nat} {P : State → Prop} (hs : Clean s)
    (ha : s.dev.dbg.acc = some a) (hsram : inSram a.addr = true) (ho : op = if a.write then .write else .read)
    (hperm : Permitted s ⟨14, a.secure, 0⟩ op a.addr u) (hserves : s.dev.serves a.addr = true) (hresp : (s.accDev a op).resp = ⟨x, false⟩)
    (hP : P (s.accEnd a op x)) : Answers (.memoryAccessDone .ok) s P := by
  have hop : op = .read ∨ op = .write := by
    rw [ho]
    split
    · exact .inr rfl
    · exact .inl rfl
  have hatomic : op.atomic = false := by obtain rfl | rfl := hop <;> rfl
  have hacc := State.takeAcc_access hsram hatomic hperm hserves
  rw [ho] at hacc
  have hexec := execMemoryAccessDone_of_some hperm.1 hs ha hacc
  rw [← ho] at hexec
  have hdone : (s.takeAcc.commit (s.accDev a op)).dev.accDone a =
      (s.takeAcc.commit (s.accDev a op)).dev.setDbg (Dbg.afterAccess { s.dev.dbg with acc := none } a x) := by
    have hresp' : (s.takeAcc.commit (s.accDev a op)).dev.resp = ⟨x, false⟩ := hresp
    have hdbg' : (s.takeAcc.commit (s.accDev a op)).dev.dbg = { s.dev.dbg with acc := none } := State.accDev_dbg s a hop
    rw [Dev.accDone_of_ok (congrArg Resp.err hresp'), hresp', hdbg']
  rw [hdone, State.commit_withDbg ⟨rfl, rfl⟩] at hexec
  exact ⟨_, hexec, rfl, hP⟩

/-- A memory access of the port to an SRAM bank ends: its bytes are stored, or the word there is held; the address steps under INC. -/
theorem memoryAccessDone_answers {s : State} {a : DbgAcc} {u : Nat} (hs : Clean s) (ha : s.dev.dbg.acc = some a) (hsram : inSram a.addr = true)
    (hperm : Permitted s ⟨14, a.secure, 0⟩ (if a.write then .write else .read) a.addr u) (hserves : s.dev.serves a.addr = true) :
    Answers (.memoryAccessDone .ok) s (fun t => t.dev.dbg.acc = none ∧
      t.dev.dbg.addr = (if s.dev.dbg.memctl.testBit 0 then (s.dev.dbg.addr + 4) % 2 ^ 40 else s.dev.dbg.addr) ∧
      (a.write = true → Stored s t a.addr (leBytes 4 a.data)) ∧
      (a.write = false → SameMem s t ∧ t.dev.dbg.got = some (s.memWord a.addr 4))) := by
  cases hw : a.write with
  | true =>
    rw [hw, if_pos rfl] at hperm
    have hd := State.accDev_write s a
    have hwq : (s.accDev a .write).wq = [(a.addr, leBytes 4 a.data)] := hd.wq.trans (congrArg (· ++ _) hs.1)
    have hstored : Stored s.takeAcc (s.takeAcc.commit (s.accDev a .write)) a.addr (leBytes 4 a.data) :=
      State.commit_stored hwq (hd.lost.trans hs.2) hd.ep
    refine .of_memoryAccessDone hs ha hsram (by rw [hw]; rfl) hperm hserves hd.resp
      ⟨Dbg.acc_afterAccess _ _ _, Dbg.addr_afterAccess _ _ _, fun _ => hstored, nofun⟩
  | false =>
    rw [hw, if_neg Bool.false_ne_true] at hperm
    have hd := State.accDev_read s a
    have hmem : (s.takeAcc.commit (s.accDev a .read)).mem = s.mem :=
      State.commit_mem_of_spares (s := s.takeAcc) hs ⟨hd.wq, hd.lost, hd.ep⟩
    have hep : (s.takeAcc.commit (s.accDev a .read)).dev.ep = s.dev.ep := hd.ep
    refine .of_memoryAccessDone hs ha hsram (by rw [hw]; rfl) hperm hserves hd.resp
      ⟨Dbg.acc_afterAccess _ _ _, Dbg.addr_afterAccess _ _ _, nofun, fun _ => ⟨fun k => ?_, Dbg.got_afterAccess _ _ hw⟩⟩
    show Mem.read (s.takeAcc.commit (s.accDev a .read)).mem (s.takeAcc.commit (s.accDev a .read)).dev.ep k = _
    rw [hmem, hep]

/-! ### Core registers (R427, R332) -/

theorem Dev.breakLockstep_cores (d : Dev) (p : Fin 2) : (d.breakLockstep p).cores = d.cores := by
  unfold Dev.breakLockstep
  split
  · exact (Dev.raise_reports _ _ _ _).cores
  · rfl

@[simp] theorem Dev.cores_modCore_same (d : Dev) (n : Fin 6) (g : Core → Core) : (d.modCore n g).cores[n] = g d.cores[n] := getElem_put_same _ _ _

theorem Dev.cores_modCore_ne (d : Dev) {n m : Fin 6} (h : n ≠ m) (g : Core → Core) : (d.modCore n g).cores[m] = d.cores[m] :=
  getElem_put_ne _ h _

/-- The session touches a core: a pair's lockstep is broken. -/
def Dev.touchCore (d : Dev) (n : Fin 6) : Dev := if n = 4 then d.breakLockstep 0 else if n = 5 then d.breakLockstep 1 else d

theorem Dev.touchCore_cores (d : Dev) (n : Fin 6) : (d.touchCore n).cores = d.cores := by
  unfold Dev.touchCore
  split
  · exact d.breakLockstep_cores 0
  · split
    · exact d.breakLockstep_cores 1
    · rfl

theorem Dev.cregWrite_halted {d : Dev} {n : Fin 6} {i : Nat} (hn : d.selCore = n) (hi : d.dbg.cregSel = i)
    (hh : (d.cores[n]).halted.isSome = true) (ha : d.haltAllowed n = true) (w : Nat) : d.cregWrite w =
      ((d.touchCore n).modCore n (fun c => { c with gpr := (i, w) :: c.gpr.filter (fun e => e.1 != i) }), 1) := by
  subst hn hi
  unfold Dev.cregWrite
  dsimp only
  rw [Option.isNone_eq_false_iff.mpr hh, ha]
  rfl

theorem Dev.cregRead_known {d : Dev} {n : Fin 6} {i : Nat} (hn : d.selCore = n) (hi : d.dbg.cregSel = i)
    (hh : (d.cores[n]).halted.isSome = true) (ha : d.haltAllowed n = true) {x : Nat × Nat}
    (hx : (d.cores[n]).gpr.find? (fun e => e.1 == i) = some x) : d.cregRead = (d.touchCore n, 1, x.2) := by
  subst hn hi
  have hx' : ((d.touchCore d.selCore).cores[d.selCore]).gpr.find? (fun e => e.1 == d.dbg.cregSel) = some x := by
    rwa [Dev.touchCore_cores]
  unfold Dev.cregRead
  dsimp only
  rw [Option.isNone_eq_false_iff.mpr hh, ha]
  refine (if_neg (by decide)).trans ?_
  show (match ((d.touchCore d.selCore).cores[d.selCore]).gpr.find? (fun e => e.1 == d.dbg.cregSel) with
    | some e => (d.touchCore d.selCore, 1, e.2)
    | none => _) = _
  rw [hx']

theorem Dev.dpOpen_core {d : Dev} {n : Fin 6} (h : d.haltAllowed n = true) : d.dpOpen 0x13 = true := by
  unfold Dev.haltAllowed at h
  show (d.scope 0 || d.scope 1 || d.scope 2) = true
  rw [Bool.and_eq_true] at h
  obtain ⟨-, h⟩ := h
  split at h
  · rw [h, Bool.or_true, Bool.true_or]
  · rw [h, Bool.true_or, Bool.true_or]

theorem Dev.dpShut_core (d : Dev) : d.dpShut 0x13 = false := Bool.and_false _

theorem Dev.selCore_dropGiven (d : Dev) : (d.setDbg d.dbg.dropGiven).selCore = d.selCore := by
  have hsel : (d.setDbg d.dbg.dropGiven).dbg.bpsel = d.dbg.bpsel := d.dbg.bpsel_dropGiven
  unfold Dev.selCore
  simp only [hsel]

/-- A write of DP_CREG_DATA for a halted core in scope writes the selected register. -/
theorem Dev.probeWrite_creg {d : Dev} (hh : (d.cores[d.selCore]).halted.isSome = true) (ha : d.haltAllowed d.selCore = true) (w : Nat) :
    d.probeWrite 0x13 w = (((d.setDbg d.dbg.dropGiven).touchCore d.selCore).modCore d.selCore
      (fun c => { c with gpr := (d.dbg.cregSel, w) :: c.gpr.filter (fun e => e.1 != d.dbg.cregSel) })).reply 1 false 0 := by
  have hw := Dev.cregWrite_halted d.selCore_dropGiven d.dbg.cregSel_dropGiven hh ha w
  rw [Dev.probeWrite_open w d.dpShut_core (Dev.dpOpen_core ha), show (d.setDbg d.dbg.dropGiven).dpWrite 0x13 w = _ from hw]

/-- A read of DP_CREG_DATA for a halted core in scope answers what is known of the selected register. -/
theorem Dev.probeRead_creg {d : Dev} (hh : (d.cores[d.selCore]).halted.isSome = true) (ha : d.haltAllowed d.selCore = true) {x : Nat × Nat}
    (hx : (d.cores[d.selCore]).gpr.find? (fun e => e.1 == d.dbg.cregSel) = some x) :
    d.probeRead 0x13 = ((d.setDbg d.dbg.dropGiven).touchCore d.selCore).reply 1 true x.2 := by
  have hr := Dev.cregRead_known d.selCore_dropGiven d.dbg.cregSel_dropGiven hh ha hx
  rw [Dev.probeRead_open (by decide) d.dpShut_core (Dev.dpOpen_core ha), show (d.setDbg d.dbg.dropGiven).dpRead 0x13 = _ from hr]

/-! ### The statement -/

/-- Settles O51: the activation, the transactions of the active port by their OP and register, the memory accesses and the core registers. -/
theorem gnotarAnswersTheWire : Obligations.GnotarAnswersTheWire := by
  refine ⟨fun s hl => ?activate, fun s req crc w hl hact => ⟨fun hcrc hop => ⟨?badRead, ?badClear⟩, fun hcrc => ?badWrite, fun hcrc hop ha => ?id,
    fun hcrc hop ho => ?closedRead, fun hcrc hop ho => ?closedWrite, fun hcrc hop ho hs => ?acks, fun hcrc hop => ?clear, ?cert⟩,
    fun s w hl hact hm he => ⟨fun x hx => ?got, fun hg ha => ?start, fun ha => ?posted, fun ha => ?busy⟩,
    fun s a u hs ha hsram hperm hserves => memoryAccessDone_answers hs ha hsram hperm hserves, fun s w hl hact hh ha => ⟨?write, fun x hx => ?read⟩⟩
  case activate => exact .of_done hl rfl ⟨beq_iff_eq.mpr (Dev.f_setF_same s.dev Reg.DBG_STAT_ACTIVE 1), rfl⟩
  case badRead => exact .of_port hl hact rfl (Dev.shortRequest_bad _ hop hcrc) ⟨rfl, rfl⟩
  case badClear => exact .of_port hl hact rfl (Dev.shortRequest_bad _ hop hcrc) ⟨rfl, rfl⟩
  case badWrite => exact .of_port hl hact rfl (if_pos hcrc) ⟨rfl, rfl⟩
  case id =>
    have hopen : s.dev.dpOpen (bits req 0 6) = true := by rw [ha]; rfl
    have hshut : s.dev.dpShut (bits req 0 6) = false := by rw [ha]; exact Bool.and_false _
    refine .of_port hl hact (congrArg s.done (by rw [hcrc])) ((Dev.shortRequest_read _ hop).trans (Dev.probeRead_open (by rw [ha]; decide) hshut hopen)) ?_
    rw [ha]
    rfl
  case closedRead => exact .of_port hl hact rfl (hcrc ▸ Dev.shortRequest_read _ hop) (Dev.probeRead_closed ho)
  case closedWrite =>
    exact .of_port hl hact rfl ((if_neg (not_not.mpr hcrc)).trans ((if_pos hop).trans (Dev.probeWrite_closed _ ho))) ⟨rfl, rfl, rfl⟩
  case acks =>
    subst hcrc
    refine ⟨fun ha => ?_, fun ha => ?_, fun ha hc hk => ?_, fun ha => ?_, fun ha => ?_, fun ha => ?_⟩ <;> rw [ha] at ho hs
    · have hw : w.toNat / 4 * 4 < 2 ^ 32 := (Nat.div_mul_le_self _ _).trans_lt w.isLt
      obtain ⟨hlo, hhi⟩ := spliceLo_parts s.dev.dbg.dropGiven.addr hw
      exact .of_ack (P := fun g => g.addr % 2 ^ 32 = w.toNat / 4 * 4 ∧ g.addr / 2 ^ 32 = s.dev.dbg.addr / 2 ^ 32 ∧ g.got = none)
        hl hact hop ha hs ho rfl ⟨hlo, hhi.trans (congrArg (· / 2 ^ 32) (Dbg.addr_dropGiven _)), rfl⟩
    · obtain ⟨hlo, hhi⟩ := spliceHi_parts s.dev.dbg.dropGiven.addr w.toNat
      exact .of_ack (P := fun g => g.addr % 2 ^ 32 = s.dev.dbg.addr % 2 ^ 32 ∧ g.addr / 2 ^ 32 = w.toNat % 256 ∧ g.got = none)
        hl hact hop ha hs ho rfl ⟨hlo.trans (congrArg (· % 2 ^ 32) (Dbg.addr_dropGiven _)), hhi, rfl⟩
    · exact .of_ack (P := fun g => g.bpsel = bits w.toNat 0 6) hl hact hop ha hs ho
        (g := { s.dev.dbg.dropGiven with bpsel := bits w.toNat 0 6 }) (if_pos (And.intro hc hk)) rfl
    · exact .of_ack (P := fun g => g.cregSel = w.toNat) hl hact hop ha hs ho rfl rfl
    · exact .of_ack (P := fun g => g.fuseSel = w.toNat ∧ g.fuseData = []) hl hact hop ha hs ho rfl ⟨rfl, rfl⟩
    · exact .of_ack (P := fun g => g.fuseData = s.dev.dbg.fuseData ++ [w.toNat]) hl hact hop ha hs ho rfl
        (congrArg (· ++ [w.toNat]) (Dbg.fuseData_dropGiven _))
  case clear => exact .of_port hl hact rfl (hcrc ▸ Dev.shortRequest_clear _ hop) ⟨rfl, rfl, rfl, rfl⟩
  case cert =>
    refine .of_port hl hact rfl (Dev.probeWrite_open _ (Bool.and_false _) rfl) ?_
    show (if s.dev.dbg.dropGiven.cert.length < 64 then { s.dev.dbg.dropGiven with cert := s.dev.dbg.dropGiven.cert ++ [w.toNat] } else
      s.dev.dbg.dropGiven).cert = _
    rw [apply_ite Dbg.cert, Dbg.cert_dropGiven]
  case got => exact .of_port hl hact rfl ((Dev.probeRead_data hm he).trans (by rw [Dev.dataRead_got hm hx])) rfl
  case start => exact .of_port hl hact rfl ((Dev.probeRead_data hm he).trans (by rw [Dev.dataRead_start hm hg ha])) ⟨rfl, rfl⟩
  case posted =>
    have ha' : (s.dev.setDbg s.dev.dbg.dropGiven).dbg.acc = none := (Dbg.acc_dropGiven _).trans ha
    refine .of_port hl hact rfl ((Dev.probeWrite_data hm he _).trans (by rw [Dev.dataWrite_posted (Dev.memScope_dropGiven hm) ha'])) ⟨rfl, ?_⟩
    show some (DbgAcc.mk true (s.dev.dbg.dropGiven.memctl.testBit 1) s.dev.dbg.dropGiven.addr w.toNat) = _
    rw [Dbg.memctl_dropGiven, Dbg.addr_dropGiven]
  case busy =>
    have ha' : (s.dev.setDbg s.dev.dbg.dropGiven).dbg.acc.isSome = true := (congrArg Option.isSome (Dbg.acc_dropGiven _)).trans ha
    exact .of_port hl hact rfl ((Dev.probeWrite_data hm he _).trans (by rw [Dev.dataWrite_busy (Dev.memScope_dropGiven hm) ha']))
      (d := (s.dev.setDbg s.dev.dbg.dropGiven).reply 2 false 0) ⟨rfl, s.dev.dbg.acc_dropGiven⟩
  case write =>
    refine .of_port hl hact rfl (Dev.probeWrite_creg hh ha w.toNat) ?_
    have hcore := ((s.dev.setDbg s.dev.dbg.dropGiven).touchCore s.dev.selCore).cores_modCore_same s.dev.selCore
      (fun c => { c with gpr := (s.dev.dbg.cregSel, w.toNat) :: c.gpr.filter (fun e => e.1 != s.dev.dbg.cregSel) })
    exact (congrArg (fun c : Core => c.gpr.find? (fun e => e.1 == s.dev.dbg.cregSel)) hcore).trans
      (List.find?_cons_of_pos (beq_self_eq_true _))
  case read => exact .of_port hl hact rfl (Dev.probeRead_creg hh ha hx) rfl

end Sys2Proof.Machine
end

section
/-!
PROOF. Cores (R299–R316, R332, R427): what bringing the performance counters up to date changes, and what a halt and a resume do to a core.
-/

namespace Sys2Proof.Machine
open Sys2Proof

/-! ### The performance counters (R315) -/

/-- A field in which no counter stands, whatever slice a core's context names. -/
def RF.OffCounters (r : RF) : Prop := r.lo < 32 ∧ (r.keep = true ∨ r.lo ≠ 0 ∨ r.addr < 0x2009D000)

/-- From `d` to `e` only counters, the instant they were brought up to and the free values have moved. -/
structure Dev.Counts (d e : Dev) : Prop where
  same : ∃ rs k a, e = { d with regs := rs, freeN := k, perfAt := a }
  keeps : Dev.Keeps RF.OffCounters d e

theorem Dev.Counts.refl (d : Dev) : Dev.Counts d d := ⟨⟨_, _, _, rfl⟩, .refl d⟩

theorem Dev.Counts.trans {d e g : Dev} (h : Dev.Counts d e) (h' : Dev.Counts e g) : Dev.Counts d g := by
  obtain ⟨_, _, _, rfl⟩ := h.same
  obtain ⟨_, _, _, rfl⟩ := h'.same
  exact ⟨⟨_, _, _, rfl⟩, h.keeps.trans h'.keeps⟩

theorem RF.OffCounters.key_ne {r r' : RF} (h : r'.OffCounters) (hlo : r.lo = 0) (hk : r.keep = false) (ha : 0x2009D000 ≤ r.addr) : r'.key ≠ r.key := by
  obtain ⟨hl, h⟩ := h
  unfold RF.key
  rw [hlo, hk]
  obtain h | h | h := h
  · rw [h]
    simp only [if_true, Bool.false_eq_true, if_false]
    omega
  · split <;> simp only [Bool.false_eq_true, if_false] <;> omega
  · split <;> simp only [Bool.false_eq_true, if_false] <;> omega

theorem Dev.addEvent_counts (d : Dev) (s i : Nat) : Dev.Counts d (d.addEvent s i) := by
  refine ⟨⟨_, _, _, rfl⟩, fun r hr => (Dev.f_setF_ne _ _ ?_).trans (Dev.f_setF_ne _ _ ?_)⟩ <;> refine hr.key_ne rfl rfl ?_
  · simp only [Reg.PERF_CNT_HI_COUNT, Reg.PERF_CNT_HI_at]; omega
  · simp only [Reg.PERF_CNT_LO_COUNT, Reg.PERF_CNT_LO_at]; omega

theorem Dev.addEvents_counts (d : Dev) (s : Nat) : Dev.Counts d (d.addEvents s) := by
  rw [Dev.addEvents_eq]
  exact List.foldlRecOn (motive := Dev.Counts d) [1, 2, 3] _ (d.addEvent_counts s 0) fun e he i _ => he.trans (e.addEvent_counts s i)

theorem Dev.tally_counts (d : Dev) : Dev.Counts d d.tally := by
  have hat : Dev.Counts d (d.setPerfAt d.up) := ⟨⟨_, _, _, rfl⟩, .refl d⟩
  unfold Dev.tally
  dsimp only
  split
  · exact hat
  · refine List.foldlRecOn (motive := Dev.Counts d) _ _ hat fun e he n _ => ?_
    split
    · exact he.trans (e.addEvents_counts _)
    · exact he

theorem Dev.tally_cores (d : Dev) : d.tally.cores = d.cores := by obtain ⟨_, _, _, h⟩ := d.tally_counts.same; rw [h]
theorem Dev.tally_up (d : Dev) : d.tally.up = d.up := by obtain ⟨_, _, _, h⟩ := d.tally_counts.same; rw [h]
theorem Dev.tally_dbg (d : Dev) : d.tally.dbg = d.dbg := by obtain ⟨_, _, _, h⟩ := d.tally_counts.same; rw [h]
theorem Dev.tally_sup (d : Dev) : d.tally.sup = d.sup := by obtain ⟨_, _, _, h⟩ := d.tally_counts.same; rw [h]
theorem Dev.tally_out (d : Dev) : d.tally.out = d.out := by obtain ⟨_, _, _, h⟩ := d.tally_counts.same; rw [h]

/-! ### Halts (R427) -/

/-- A field that no halt and no resume writes, and no counter, LOCKSTEP or event block. -/
def RF.OffHalt (r : RF) : Prop :=
  r.OffCounters ∧ (r.addr < 0x20004000 ∨ 0x20004800 ≤ r.addr) ∧ (r.addr < 0x200A0000 ∨ 0x200B0000 ≤ r.addr) ∧
    ¬(r.addr = Reg.DBG_STAT_at ∧ r.lo = 16)

theorem Dev.tally_keeps (d : Dev) : Dev.Keeps RF.OffHalt d d.tally := fun r hr => d.tally_counts.keeps r hr.1

theorem Dev.breakLockstep_keeps (d : Dev) (p : Fin 2) : Dev.Keeps RF.OffHalt d (d.breakLockstep p) := by
  rintro r ⟨⟨hl, -⟩, hblock, hpair, -⟩
  unfold Dev.breakLockstep
  split
  · have hstat : (d.setF (Reg.LS_STAT_STATE p.1) 2).f r = d.f r :=
      d.f_setF_off 2 (Nat.le_of_ble_eq_true rfl) hl (fun hc => by simp only [Reg.LS_STAT_STATE, Reg.LS_STAT_at] at hc; omega)
    exact (Dev.f_raise_off _ _ (by decide) hl (by decide) hblock (fun hc => by simp only [Reg.LS_EVT_DBG, Reg.LS_EVT_at] at hc; omega)).trans hstat
  · rfl

theorem Dev.touchCore_keeps (d : Dev) (n : Fin 6) : Dev.Keeps RF.OffHalt d (d.touchCore n) :=
  .ite (d.breakLockstep_keeps 0) (.ite (d.breakLockstep_keeps 1) (.refl d))

theorem Dev.haltedBit_keeps (d : Dev) (n : Fin 6) (b : Bool) : Dev.Keeps RF.OffHalt d (d.setTb Reg.DBG_STAT_HALTED n.1 b) := by
  rintro r ⟨⟨hl, -⟩, -, -, hne⟩
  exact d.f_setTb_off _ b (by decide) hl hne

/-- A core halted at an instant. -/
def Core.halt (c : Core) (up : Nat) (byBp : Bool) : Core := { c with halted := some (c.halted.getD up), byBp := byBp, haltPend := false }

theorem Dev.haltCore_eq (d : Dev) (n : Fin 6) (byBp : Bool) : d.haltCore n byBp =
    ((d.tally.modCore n (fun c => c.halt d.tally.up byBp)).setTb Reg.DBG_STAT_HALTED n.1 true).touchCore n := by
  unfold Dev.haltCore
  generalize d.tally = e
  rfl

theorem Dev.cores_modCore (d : Dev) (n : Fin 6) (g : Core → Core) : (d.modCore n g).cores = put d.cores n (g d.cores[n]) := rfl

theorem Dev.cores_setTb (d : Dev) (r : RF) (i : Nat) (b : Bool) : (d.setTb r i b).cores = d.cores := rfl

theorem Dev.haltCore_cores (d : Dev) (n : Fin 6) (byBp : Bool) : (d.haltCore n byBp).cores = (d.modCore n (fun c => c.halt d.up byBp)).cores := by
  rw [Dev.haltCore_eq, Dev.touchCore_cores, Dev.cores_setTb, Dev.cores_modCore, Dev.cores_modCore]
  have hcores := d.tally_cores
  have hup := d.tally_up
  generalize d.tally = e at hcores hup ⊢
  rw [hcores, hup]

theorem Dev.modCore_keeps (d : Dev) (n : Fin 6) (g : Core → Core) : Dev.Keeps RF.OffHalt d (d.modCore n g) := .of_regs rfl

theorem Dev.haltCore_keeps (d : Dev) (n : Fin 6) (byBp : Bool) : Dev.Keeps RF.OffHalt d (d.haltCore n byBp) := by
  rw [Dev.haltCore_eq]
  exact ((d.tally_keeps.trans (Dev.modCore_keeps _ _ _)).trans (Dev.haltedBit_keeps _ n true)).trans (Dev.touchCore_keeps _ n)

theorem Dev.haltDue_keeps (d : Dev) (n : Fin 6) : Dev.Keeps RF.OffHalt d (d.haltDue n) := .ite (d.haltCore_keeps n false) (.refl d)

/-- A halt that waits changes the other cores not at all, and its own only in what a halt sets. -/
theorem Dev.haltDue_core (d : Dev) (n m : Fin 6) : ((d.haltDue n).cores[m]) = d.cores[m] ∨
    (m = n ∧ ((d.haltDue n).cores[m]) = (d.cores[m]).halt d.up false) := by
  unfold Dev.haltDue
  split
  · have hcore : ((d.haltCore n false).cores[m]) = ((d.modCore n (fun c => c.halt d.up false)).cores[m]) := by rw [Dev.haltCore_cores]
    rw [hcore]
    by_cases hm : n = m
    · subst hm
      exact .inr ⟨rfl, Dev.cores_modCore_same _ _ _⟩
    · exact .inl (Dev.cores_modCore_ne _ hm _)
  · exact .inl rfl

theorem Dev.haltDue_of_due {d : Dev} {n : Fin 6} (hp : (d.cores[n]).haltPend = true) (hh : (d.cores[n]).held = false)
    (ha : d.haltAllowed n = true) : d.haltDue n = d.haltCore n false := by
  unfold Dev.haltDue
  rw [hp, hh, ha]
  rfl

theorem Dev.Keeps.scope {d e : Dev} (h : Dev.Keeps RF.OffHalt d e) (i : Nat) : e.scope i = d.scope i := by
  have hopen : e.bit Reg.DBG_STAT_UNLOCKED = d.bit Reg.DBG_STAT_UNLOCKED :=
    Dev.bit_of_f (h _ ⟨⟨by decide, .inl rfl⟩, by decide, by decide, by decide⟩)
  have hscope : e.tb Reg.DBG_STAT_SCOPE i = d.tb Reg.DBG_STAT_SCOPE i :=
    Dev.tb_of_f (h _ ⟨⟨by decide, .inl rfl⟩, by decide, by decide, by decide⟩) i
  unfold Dev.scope
  rw [hopen, hscope]

theorem Reg.coreCtx_offHalt {r : RF} {n : Fin 6} (hl : r.lo < 32) (ha : r.addr = Reg.CORE_CTX_at n.1) : r.OffHalt := by
  unfold RF.OffHalt RF.OffCounters
  rw [ha]
  simp only [Reg.CORE_CTX_at, Reg.DBG_STAT_at]
  omega

theorem Dev.Keeps.coreSecure {d e : Dev} (h : Dev.Keeps RF.OffHalt d e) (n : Fin 6) : e.coreSecure n = d.coreSecure n :=
  Dev.bit_of_f (h _ (Reg.coreCtx_offHalt (Nat.le_of_ble_eq_true rfl) rfl))

theorem Dev.Keeps.haltAllowed {d e : Dev} (h : Dev.Keeps RF.OffHalt d e) (n : Fin 6) : e.haltAllowed n = d.haltAllowed n := by
  unfold Dev.haltAllowed
  rw [h.scope, h.scope, h.scope, h.coreSecure]

/-! ### Resumes (R427, R313) -/

/-- A core that goes on. -/
def Core.resume (c : Core) (up : Nat) : Core :=
  match c.halted with
  | some t => { c with halted := none, byBp := false, wdogAt := c.wdogAt + (up - t), entry := c.entry.map (fun e => e + (up - t)) }
  | none => c

theorem Core.halted_resume (c : Core) (up : Nat) : (c.resume up).halted = none := by
  unfold Core.resume
  split
  · rfl
  · assumption

theorem Core.haltPend_resume (c : Core) (up : Nat) : (c.resume up).haltPend = c.haltPend := by
  unfold Core.resume
  split <;> rfl

theorem Dev.resumeCore_cores (d : Dev) (n m : Fin 6) : ((d.resumeCore n).cores[m]) = if m = n then (d.cores[m]).resume d.up else d.cores[m] := by
  unfold Dev.resumeCore
  dsimp only
  have hcores := d.tally_cores
  have hup := d.tally_up
  generalize d.tally = e at hcores hup ⊢
  rw [← hcores, ← hup]
  clear hcores hup
  split
  next t ht =>
    split
    next hm =>
      subst hm
      refine (getElem_put_same e.cores m _).trans ?_
      unfold Core.resume
      rw [ht]
    next hm => exact getElem_put_ne e.cores (Ne.symm hm) _
  next ht =>
    split
    next hm =>
      subst hm
      unfold Core.resume
      rw [ht]
    next => rfl

theorem Dev.resumeCore_keeps (d : Dev) (n : Fin 6) : Dev.Keeps RF.OffHalt d (d.resumeCore n) := by
  unfold Dev.resumeCore
  dsimp only
  split
  · exact (d.tally_keeps.trans (Dev.modCore_keeps _ _ _)).trans (Dev.haltedBit_keeps _ n false)
  · exact d.tally_keeps

theorem Dev.resumeCore_dbg (d : Dev) (n : Fin 6) : (d.resumeCore n).dbg = d.dbg := by
  unfold Dev.resumeCore
  dsimp only
  split
  · exact d.tally_dbg
  · exact d.tally_dbg

end Sys2Proof.Machine
end

section
/-!
PROOF. Gnotar's sessions and run control (R422–R431): what opens and ends a session, and what a session does to the cores and the fuses.
-/

namespace Sys2Proof.Machine
open Sys2Proof

/-! ### The certificate (R423, R424) -/

@[simp] theorem Dbg.verify_dropGiven (g : Dbg) : g.dropGiven.verify = g.verify := by unfold Dbg.dropGiven; split <;> rfl
@[simp] theorem Dbg.chal_dropGiven (g : Dbg) : g.dropGiven.chal = g.chal := by unfold Dbg.dropGiven; split <;> rfl
@[simp] theorem Dbg.fails_dropGiven (g : Dbg) : g.dropGiven.fails = g.fails := by unfold Dbg.dropGiven; split <;> rfl
@[simp] theorem Dbg.lastFail_dropGiven (g : Dbg) : g.dropGiven.lastFail = g.lastFail := by unfold Dbg.dropGiven; split <;> rfl
@[simp] theorem Dbg.fuseSel_dropGiven (g : Dbg) : g.dropGiven.fuseSel = g.fuseSel := by unfold Dbg.dropGiven; split <;> rfl

theorem Dev.unlockBar_dropGiven (d : Dev) : (d.setDbg d.dbg.dropGiven).unlockBar = d.unlockBar := by
  have hblock : (d.setDbg d.dbg.dropGiven).bit Reg.DBG_CTL_BLOCK = d.bit Reg.DBG_CTL_BLOCK := rfl
  have hdrbg : (d.setDbg d.dbg.dropGiven).bit Reg.MORD_STAT_DRBG_OK = d.bit Reg.MORD_STAT_DRBG_OK := rfl
  have hdbg : (d.setDbg d.dbg.dropGiven).dbg = d.dbg.dropGiven := rfl
  have hup : (d.setDbg d.dbg.dropGiven).up = d.up := rfl
  unfold Dev.unlockBar
  rw [hblock, hdrbg, hdbg, hup, Dbg.fails_dropGiven, Dbg.lastFail_dropGiven]

/-- A write of DP_CERT_CTL is open to all. -/
theorem Dev.probeWrite_cert (d : Dev) (w : Nat) : d.probeWrite 0x07 w =
    ((d.setDbg d.dbg.dropGiven).certCtl w).1.reply ((d.setDbg d.dbg.dropGiven).certCtl w).2 false 0 :=
  Dev.probeWrite_open w (Bool.and_false _) rfl

theorem Dev.certCtl_go {d : Dev} (h : d.dbg.verify = none) : d.certCtl 1 = (d.certGo, 1) := by
  unfold Dev.certCtl
  rw [h]
  rfl

theorem Dev.certCtl_busy {d : Dev} (h : d.dbg.verify.isSome = true) : d.certCtl 1 = (d, 2) := if_pos ⟨by decide, h⟩

theorem Dev.certCtl_lock (d : Dev) : d.certCtl 2 = (d.lockPort, 1) := by
  unfold Dev.certCtl
  rw [if_neg fun hc => absurd hc.1 (by decide)]
  generalize d.lockPort = e
  rfl

theorem Dev.certCtl_clear (d : Dev) : d.certCtl 4 = (d.setDbg { d.dbg with cert := [] }, 1) := by
  unfold Dev.certCtl
  rw [if_neg fun hc => absurd hc.1 (by decide)]
  generalize d.lockPort = e
  rfl

/-! ### The end of a session (R426) -/

/-- The session is over; the cores it halted have not gone on yet. -/
def Dev.lockClosed (d : Dev) : Dev :=
  (((if d.bit Reg.DBG_STAT_UNLOCKED then d.raise Reg.DBG_EVT_LOCK 1 65 else d).setF Reg.DBG_STAT_UNLOCKED 0).setF Reg.DBG_STAT_SCOPE 0).modDbg
    (fun x => { x with bps := x.bps.map (fun b => { b with ctl := b.ctl / 2 * 2 }), catchOn := false })

/-- A core goes on, and no halt of it waits. -/
def Dev.letGo (d : Dev) (n : Fin 6) : Dev := (d.resumeCore n).modCore n (fun c => { c with haltPend := false })

theorem Dev.lockPort_eq (d : Dev) : d.lockPort = ((List.finRange 6).foldl Dev.letGo d.lockClosed).drawChallenge.review := rfl

/-- The core runs on and is not to halt. -/
def Dev.Free (d : Dev) (n : Fin 6) : Prop := (d.cores[n]).halted = none ∧ (d.cores[n]).haltPend = false

theorem Dev.letGo_free (d : Dev) (n : Fin 6) : (d.letGo n).Free n := by
  have hcore : ((d.letGo n).cores[n]) = { (d.resumeCore n).cores[n] with haltPend := false } := getElem_put_same _ _ _
  have hhalt : ((d.resumeCore n).cores[n]).halted = none := by
    rw [Dev.resumeCore_cores, if_pos rfl]
    exact Core.halted_resume _ _
  exact ⟨by rw [hcore]; exact hhalt, by rw [hcore]⟩

theorem Dev.letGo_keepsFree (d : Dev) (n m : Fin 6) (h : d.Free n) : (d.letGo m).Free n := by
  by_cases hm : m = n
  · subst hm
    exact d.letGo_free m
  · have hcore : ((d.letGo m).cores[n]) = d.cores[n] := by
      refine (getElem_put_ne _ hm _).trans ?_
      rw [Dev.resumeCore_cores, if_neg (Ne.symm hm)]
    unfold Dev.Free
    rwa [hcore]

theorem Dev.letGo_keeps (d : Dev) (n : Fin 6) : Dev.Keeps RF.OffHalt d (d.letGo n) := (d.resumeCore_keeps n).trans (Dev.modCore_keeps _ _ _)

theorem Dev.letGo_all (d : Dev) (xs : List (Fin 6)) : Dev.Keeps RF.OffHalt d (xs.foldl Dev.letGo d) ∧ (xs.foldl Dev.letGo d).dbg = d.dbg :=
  List.foldlRecOn xs Dev.letGo (motive := fun e : Dev => Dev.Keeps RF.OffHalt d e ∧ e.dbg = d.dbg) ⟨.refl d, rfl⟩
    fun e he n _ => ⟨he.1.trans (e.letGo_keeps n), (e.resumeCore_dbg n).trans he.2⟩

/-- A review of the slices after a challenge has been drawn touches neither the cores nor the session. -/
theorem Dev.drawn_f (d : Dev) {r : RF} (hl : r.lo < 32) (ha : 0x200F0000 ≤ r.addr) : d.drawChallenge.review.f r = d.f r :=
  Dev.f_review _ hl (.inr (by omega)) (by simp only [Reg.SLICE_STAT_at]; omega) (by simp only [Reg.SLICE_EVT_at]; omega)

theorem Dev.drawn_cores (d : Dev) : d.drawChallenge.review.cores = d.cores := (Dev.review_reports _).cores
theorem Dev.drawn_dbg (d : Dev) : ∃ x, d.drawChallenge.review.dbg = { d.dbg with chal := x } := ⟨_, (Dev.review_reports _).dbg⟩

theorem RF.offHalt_session {r : RF} (hl : r.lo < 32) (ha : r.addr = Reg.DBG_STAT_at) (hk : r.keep = true) (hne : r.lo ≠ 16) : r.OffHalt := by
  refine ⟨⟨hl, .inl hk⟩, ?_, ?_, fun hc => hne hc.2⟩ <;> rw [ha] <;> decide

theorem Dev.lockPort_session (d : Dev) {r : RF} (hl : r.lo < 32) (ha : r.addr = Reg.DBG_STAT_at) (hk : r.keep = true) (hne : r.lo ≠ 16) :
    d.lockPort.f r = d.lockClosed.f r := by
  rw [Dev.lockPort_eq, Dev.drawn_f _ hl (by rw [ha]; decide)]
  exact (Dev.letGo_all _ _).1 r (RF.offHalt_session hl ha hk hne)

theorem Dev.lockPort_dbg (d : Dev) : ∃ x, d.lockPort.dbg = { d.lockClosed.dbg with chal := x } := by
  rw [Dev.lockPort_eq]
  obtain ⟨x, hx⟩ := Dev.drawn_dbg ((List.finRange 6).foldl Dev.letGo d.lockClosed)
  exact ⟨x, by rw [hx, (Dev.letGo_all _ _).2]⟩

theorem Dev.lockPort_free (d : Dev) (n : Fin 6) : d.lockPort.Free n := by
  unfold Dev.Free
  rw [Dev.lockPort_eq, Dev.drawn_cores]
  exact foldl_establishes (I := fun _ => True) (P := fun e : Dev => e.Free n) (fun _ _ _ => trivial) (fun e _ => e.letGo_free n)
    (fun e m _ h => e.letGo_keepsFree n m h) _ (List.mem_finRange n) _ trivial

theorem Dev.lockClosed_bps (d : Dev) : ∀ b ∈ d.lockClosed.dbg.bps, b.ctl.testBit 0 = false := by
  intro b hb
  obtain ⟨b', -, rfl⟩ := List.mem_map.mp hb
  show (b'.ctl / 2 * 2).testBit 0 = false
  rw [Nat.testBit_zero, Nat.mul_mod_left]
  rfl

theorem Dev.closed_session (e : Dev) : ((e.setF Reg.DBG_STAT_UNLOCKED 0).setF Reg.DBG_STAT_SCOPE 0).f Reg.DBG_STAT_UNLOCKED = 0 ∧
    ((e.setF Reg.DBG_STAT_UNLOCKED 0).setF Reg.DBG_STAT_SCOPE 0).f Reg.DBG_STAT_SCOPE = 0 := by
  refine ⟨?_, Dev.f_setF_same _ _ _⟩
  rw [Dev.f_setF_off _ _ (by decide) (by decide) (by decide), Dev.f_setF_same]
  rfl

/-- LOCK ends the session, disables the breakpoints and lets every core go. -/
theorem Dev.lockPort_ends (d : Dev) : d.lockPort.bit Reg.DBG_STAT_UNLOCKED = false ∧ d.lockPort.f Reg.DBG_STAT_SCOPE = 0 ∧
    d.lockPort.dbg.catchOn = false ∧ (∀ b ∈ d.lockPort.dbg.bps, b.ctl.testBit 0 = false) ∧ ∀ n : Fin 6, d.lockPort.Free n := by
  obtain ⟨x, hx⟩ := d.lockPort_dbg
  refine ⟨?_, ?_, by rw [hx]; rfl, by rw [hx]; exact d.lockClosed_bps, d.lockPort_free⟩
  · rw [Dev.bit_of_f (d.lockPort_session (by decide) rfl rfl (by decide))]
    exact beq_false_of_ne ((Dev.closed_session _).1.trans_ne (by decide))
  · exact (d.lockPort_session (by decide) rfl rfl (by decide)).trans (Dev.closed_session _).2

/-! ### A session opens (R347, R424, R425) -/

/-- Fields under one key with one default read the same. -/
theorem Dev.f_of_key (d : Dev) {r r' : RF} (hk : r.key = r'.key) (hd : r.dflt = r'.dflt) : d.f r = d.f r' := by
  unfold Dev.f Regs.get
  rw [hk, hd]

/-- A field an invalidation leaves alone: no slot's metadata word, and none of what Mordant reports in. -/
def RF.OffSlots (r : RF) : Prop := r.OffMordReports ∧ (r.lo ≠ 0 ∨ ∀ k, r.addr ≠ Reg.MORD_K_META_at k)

theorem Dev.setMeta_keeps (d : Dev) (k lo w v : Nat) : Dev.Keeps RF.OffSlots d (d.setMeta k lo w v) := by
  rintro r ⟨⟨hl, -⟩, h⟩
  refine d.f_setF_off _ (Nat.le_of_ble_eq_true rfl) hl fun hc => ?_
  obtain h | h := h
  · exact h hc.2
  · exact h k hc.1

theorem Dev.invalidate_keeps (d : Dev) (set : Nat) : Dev.Keeps RF.OffSlots d (d.invalidate set) := by
  have hmarks : ∀ (e : Dev) (m : Mord) (P : Dev → Nat → Bool) (i : Nat → Fin 64) (g : SliceEng → SliceEng),
      Dev.Keeps RF.OffSlots e (forEach 64 (e.setMord m) (fun d s => if P d s then d.modSlice (i s) g else d)) := fun e m P i g =>
    .of_regs (forEach_regs (fun e n => by split <;> rfl) 64 (e.setMord m))
  have hslots : ∀ xs : List Nat, Dev.Keeps RF.OffSlots d (xs.foldl (fun d k => d.setMeta k 8 2 2) d) := fun xs =>
    .foldl xs (fun e k _ => e.setMeta_keeps k 8 2 2) d
  unfold Dev.invalidate
  dsimp only
  split
  · exact .refl d
  · exact ((hslots _).trans (hmarks _ _ _ _ _)).trans ((Dev.mordEvt_keeps _ (by decide) rfl).mono fun _ h => h.1)

theorem Dev.invalidateAll_keeps (d : Dev) : Dev.Keeps RF.OffSlots d d.invalidateAll := d.invalidate_keeps allSlots

theorem Dev.fillSlot_f (d : Dev) (k attr parent kind lcm state key : Nat) (label ctx : List Byte) {r : RF} (hl : r.lo < 32)
    (ha : r.lo ≠ 0 ∨ r.addr ≠ Reg.MORD_K_ATTR_at k) (hm : r.lo ≠ 0 ∨ r.addr ≠ Reg.MORD_K_META_at k) :
    (d.fillSlot k attr parent kind lcm state key label ctx).f r = d.f r := by
  refine (Dev.f_setF_off _ _ (r := Reg.MORD_K_META_WORD k) (Nat.le_of_ble_eq_true rfl) hl fun hc => ?_).trans
    (Dev.f_setF_off _ attr (r := Reg.MORD_K_ATTR_WORD k) (Nat.le_of_ble_eq_true rfl) hl fun hc => ?_)
  · obtain hm | hm := hm
    · exact hm hc.2
    · exact hm hc.1
  · obtain ha | ha := ha
    · exact ha hc.2
    · exact ha hc.1

theorem Dev.setCert_f (d : Dev) (s : Nat) (bs : List Byte) {r : RF} (hl : r.lo < 32) (h : r.lo ≠ 0 ∨ ∀ w < 64, r.addr ≠ Reg.MORD_SCERT_at s w) :
    (d.setCert s bs).f r = d.f r := by
  refine List.foldlRecOn (motive := fun e : Dev => e.f r = d.f r) _ _ rfl fun e he w hw => (e.f_setF_off _ (Nat.le_of_ble_eq_true rfl) hl fun hc => ?_).trans he
  obtain h | h := h
  · exact h hc.2
  · exact h w (List.mem_range.mp hw) hc.1

theorem Dev.formCert_f (d : Dev) (s created : Nat) {r : RF} (hl : r.lo < 32) (h : r.lo ≠ 0 ∨ ∀ w < 64, r.addr ≠ Reg.MORD_SCERT_at s w) :
    (d.formCert s created).f r = d.f r := by
  unfold Dev.formCert
  dsimp only
  split
  · rfl
  · exact Dev.setCert_f _ s _ hl h

/-- A slice's keys are made anew and its certificate formed. -/
def Dev.refill (d : Dev) (s : Nat) : Dev :=
  (d.sliceKeys s (d.f (Reg.SLC_STATE_KEY_LDG s)) (d.f (Reg.SLC_STATE_KEY_SIG s)) d.mord.nonce[sl s]).formCert s d.now

theorem Dev.substitute_eq (d : Dev) :
    d.substitute = forEach 64 (d.invalidateAll.setF Reg.MORD_STAT_TESTROOT 1) (fun d s => if d.ownKeys s then d.refill s else d) := rfl

/-- A field in which a slice's two slots do not stand keeps its value when they are refilled. -/
theorem Dev.refill_f (d : Dev) {s : Nat} (hs : s < 64) {r : RF} (hl : r.lo < 32)
    (h : r.lo ≠ 0 ∨ (0x20088000 ≤ r.addr ∧ ∀ k, k = d.f (Reg.SLC_STATE_KEY_LDG s) ∨ k = d.f (Reg.SLC_STATE_KEY_SIG s) →
      r.addr ≠ Reg.MORD_K_ATTR_at k ∧ r.addr ≠ Reg.MORD_K_META_at k)) : (d.refill s).f r = d.f r := by
  unfold Dev.refill Dev.sliceKeys
  refine (Dev.formCert_f _ s _ hl (h.imp_right fun h w hw hc => ?_)).trans
    ((Dev.fillSlot_f _ _ _ _ _ _ _ _ _ _ hl (h.imp_right fun h => (h.2 _ (.inr rfl)).1) (h.imp_right fun h => (h.2 _ (.inr rfl)).2)).trans
      (Dev.fillSlot_f _ _ _ _ _ _ _ _ _ _ hl (h.imp_right fun h => (h.2 _ (.inl rfl)).1) (h.imp_right fun h => (h.2 _ (.inl rfl)).2)))
  simp only [Reg.MORD_SCERT_at] at hc
  omega

theorem attr_ne_one (s : Nat) : ldgAttr s ≠ 1 ∧ sigAttr s ≠ 1 := by
  unfold ldgAttr sigAttr
  omega

/-- The two slots of a slice's own keys do not stand where the open session's bit does: their ATTR words do not read 1. -/
theorem Dev.refill_unlocked {d : Dev} {s : Nat} (hs : s < 64) (hown : d.ownKeys s = true) (h : d.f Reg.DBG_STAT_UNLOCKED = 1) :
    (d.refill s).f Reg.DBG_STAT_UNLOCKED = 1 := by
  unfold Dev.ownKeys at hown
  simp only [Bool.and_eq_true, beq_iff_eq] at hown
  obtain ⟨⟨⟨⟨-, hldg⟩, -⟩, hsig⟩, -⟩ := hown
  have hattr : ∀ k, Reg.DBG_STAT_at = Reg.MORD_K_ATTR_at k → d.attr k = 1 := fun k hk =>
    (d.f_of_key (r := Reg.MORD_K_ATTR_WORD k) (r' := Reg.DBG_STAT_UNLOCKED) (by unfold RF.key; exact congrArg (fun a => (a * 32 + 0) * 2 + 1) hk.symm) rfl).trans h
  refine (d.refill_f hs (by decide) (.inr ⟨by decide, fun k hk => ⟨fun hc => ?_, fun hc => ?_⟩⟩)).trans h
  · have hone := hattr k hc
    obtain rfl | rfl := hk
    · exact (attr_ne_one s).1 (hldg.symm.trans hone)
    · exact (attr_ne_one s).2 (hsig.symm.trans hone)
  · simp only [Reg.DBG_STAT_UNLOCKED, Reg.DBG_STAT_at, Reg.MORD_K_META_at] at hc
    omega

/-- The session is open with a scope, and the test root stands in. -/
def Dev.Opened (d : Dev) (scope : Nat) : Prop :=
  d.f Reg.DBG_STAT_UNLOCKED = 1 ∧ d.f Reg.DBG_STAT_SCOPE = scope ∧ d.f Reg.MORD_STAT_TESTROOT = 1

theorem Dev.substitute_opened {d : Dev} {scope : Nat} (hu : d.f Reg.DBG_STAT_UNLOCKED = 1) (hc : d.f Reg.DBG_STAT_SCOPE = scope) :
    d.substitute.Opened scope := by
  rw [Dev.substitute_eq]
  refine List.foldlRecOn (motive := fun e : Dev => e.Opened scope) _ _ ⟨?_, ?_, Dev.f_setF_same _ _ _⟩ fun e he s hs => ?_
  · rw [Dev.f_setF_off _ _ (by decide) (by decide) (by decide), d.invalidateAll_keeps, hu]
    exact ⟨⟨by decide, by decide, by decide, by decide⟩, .inr fun k => by simp only [Reg.DBG_STAT_UNLOCKED, Reg.DBG_STAT_at, Reg.MORD_K_META_at]; omega⟩
  · rw [Dev.f_setF_off _ _ (by decide) (by decide) (by decide), d.invalidateAll_keeps, hc]
    exact ⟨⟨by decide, by decide, by decide, by decide⟩, .inl (by decide)⟩
  · obtain ⟨hu, hc, ht⟩ := he
    split
    next hown =>
      have hs := List.mem_range.mp hs
      exact ⟨Dev.refill_unlocked hs hown hu, (e.refill_f hs (by decide) (.inl (by decide))).trans hc, (e.refill_f hs (by decide) (.inl (by decide))).trans ht⟩
    next => exact ⟨hu, hc, ht⟩

/-- The device as a session opens, before the test root comes in. -/
def Dev.sessionOn (d : Dev) (scope : Nat) : Dev := (d.setF Reg.DBG_STAT_UNLOCKED 1).setF Reg.DBG_STAT_SCOPE scope

theorem Dev.openSession_eq (d : Dev) (key scope : Nat) : d.openSession key scope = (List.finRange 6).foldl (fun d n => d.haltDue n)
    (((d.sessionOn scope).testRootIn.raise Reg.DBG_EVT_UNLOCK 1 65).log 0x0A 65 (evInfo (Config.logKind 3)) (Config.unlockData key scope)) := rfl

theorem Dev.testRootIn_opened (d : Dev) (scope : Nat) : (d.sessionOn scope).testRootIn.Opened (scope % 256) := by
  have hu : (d.sessionOn scope).f Reg.DBG_STAT_UNLOCKED = 1 :=
    (Dev.f_setF_off _ _ (by decide) (by decide) (by decide)).trans (Dev.f_setF_same _ _ _)
  have hc : (d.sessionOn scope).f Reg.DBG_STAT_SCOPE = scope % 256 := Dev.f_setF_same _ _ _
  unfold Dev.testRootIn
  split
  next hroot => exact ⟨hu, hc, beq_iff_eq.mp hroot⟩
  next =>
    obtain ⟨hu, hc, ht⟩ := Dev.substitute_opened hu hc
    exact ⟨(Dev.mordEvt_keeps _ (by decide) rfl _ ⟨by decide, by decide, by decide, by decide⟩).trans hu,
      (Dev.mordEvt_keeps _ (by decide) rfl _ ⟨by decide, by decide, by decide, by decide⟩).trans hc,
      (Dev.mordEvt_keeps _ (by decide) rfl _ ⟨by decide, by decide, by decide, by decide⟩).trans ht⟩

theorem Dev.Opened.of_keeps {d e : Dev} {scope : Nat} (h : Dev.Keeps RF.OffHalt d e) (hd : d.Opened scope) : e.Opened scope := by
  obtain ⟨hu, hc, ht⟩ := hd
  exact ⟨(h _ (RF.offHalt_session (by decide) rfl rfl (by decide))).trans hu, (h _ (RF.offHalt_session (by decide) rfl rfl (by decide))).trans hc,
    (h _ ⟨⟨by decide, .inl rfl⟩, by decide, by decide, by decide⟩).trans ht⟩

theorem Dev.Opened.raise {d : Dev} {scope : Nat} (h : d.Opened scope) (m : Nat) {i : Nat} (hi : i < 4096) : (d.raise Reg.DBG_EVT_UNLOCK m i).Opened scope := by
  obtain ⟨hu, hc, ht⟩ := h
  exact ⟨(Dev.f_raise_off _ _ hi (by decide) (by decide) (by decide) (by decide)).trans hu,
    (Dev.f_raise_off _ _ hi (by decide) (by decide) (by decide) (by decide)).trans hc,
    (Dev.f_raise_off _ _ hi (by decide) (by decide) (by decide) (by decide)).trans ht⟩

theorem Dev.Opened.log {d : Dev} {scope : Nat} (h : d.Opened scope) (c s i x : Nat) : (d.log c s i x).Opened scope := by
  obtain ⟨hu, hc, ht⟩ := h
  exact ⟨(Dev.f_log_off _ _ _ _ _ (by decide) (by decide)).trans hu, (Dev.f_log_off _ _ _ _ _ (by decide) (by decide)).trans hc,
    (Dev.f_log_off _ _ _ _ _ (by decide) (by decide)).trans ht⟩

theorem Dev.openSession_opened (d : Dev) (key scope : Nat) : (d.openSession key scope).Opened (scope % 256) := by
  rw [Dev.openSession_eq]
  exact List.foldlRecOn (motive := fun e : Dev => e.Opened (scope % 256)) _ _ (((d.testRootIn_opened scope).raise 1 (by decide)).log _ _ _ _)
    fun e he n _ => he.of_keeps (e.haltDue_keeps n)

theorem Dev.Opened.drawn {d : Dev} {scope : Nat} (h : d.Opened scope) : d.drawChallenge.review.Opened scope := by
  obtain ⟨hu, hc, ht⟩ := h
  exact ⟨(d.drawn_f (by decide) (by decide)).trans hu, (d.drawn_f (by decide) (by decide)).trans hc,
    (Dev.f_review _ (by decide) (by decide) (by decide) (by decide)).trans ht⟩

/-- The verification has ended with a result. -/
def Dev.verified (d : Dev) (r : Nat) : Dev := d.modDbg (fun x => { x with verify := none, result := r })

theorem Dev.unlockResult_right {d : Dev} {t0 chal : Nat} {cert : List Nat} (hv : d.dbg.verify = some (t0, cert, chal, 0))
    (hj : d.judgeCert cert chal = 1) :
    d.unlockResult = ((d.verified 1).openSession (bits (cert.getD 1 0) 16 8) (cert.getD 4 0)).drawChallenge.review := by
  unfold Dev.unlockResult
  rw [hv]
  dsimp only
  rw [if_pos rfl, hj]
  rfl

theorem Dev.unlockResult_wrong {d : Dev} {t0 chal bar : Nat} {cert : List Nat} (hv : d.dbg.verify = some (t0, cert, chal, bar))
    (hj : (if bar = 0 then d.judgeCert cert chal else bar) ≠ 1) :
    d.unlockResult = (((d.verified (if bar = 0 then d.judgeCert cert chal else bar)).modDbg
      (fun x => { x with fails := x.fails + 1, lastFail := some d.up })).raise Reg.DBG_EVT_FAIL 1 65).drawChallenge.review := by
  unfold Dev.unlockResult
  rw [hv]
  dsimp only
  rw [if_neg hj]
  rfl

/-- What of the port no halt and no report touches. -/
theorem Dev.haltDue_dbg (d : Dev) (n : Fin 6) : (d.haltDue n).dbg = d.dbg := by
  have hbreak : ∀ (e : Dev) (p : Fin 2), (e.breakLockstep p).dbg = e.dbg := fun e p => by
    unfold Dev.breakLockstep
    split
    · exact (Dev.raise_reports _ _ _ _).dbg
    · rfl
  have htouch : ∀ e : Dev, (e.touchCore n).dbg = e.dbg := fun e => by
    unfold Dev.touchCore
    split
    · exact hbreak e 0
    · split
      · exact hbreak e 1
      · rfl
  unfold Dev.haltDue
  split
  · rw [Dev.haltCore_eq, htouch]
    exact d.tally_dbg
  · rfl

theorem Dev.setMeta_dbg (d : Dev) (k lo w v : Nat) : (d.setMeta k lo w v).dbg = d.dbg := rfl

theorem Dev.fillSlot_dbg (d : Dev) (k attr parent kind lcm state key : Nat) (label ctx : List Byte) :
    (d.fillSlot k attr parent kind lcm state key label ctx).dbg = d.dbg := rfl

theorem Dev.sliceKeys_dbg (d : Dev) (s kl ks : Nat) (nonce : List Byte) : (d.sliceKeys s kl ks nonce).dbg = d.dbg := by
  unfold Dev.sliceKeys
  rw [Dev.fillSlot_dbg, Dev.fillSlot_dbg]

theorem Dev.invalidate_dbg (d : Dev) (set : Nat) : (d.invalidate set).dbg = d.dbg := by
  have hmarks : ∀ (e : Dev) (P : Dev → Nat → Bool) (i : Nat → Fin 64) (g : SliceEng → SliceEng),
      (forEach 64 e (fun d s => if P d s then d.modSlice (i s) g else d)).dbg = e.dbg := fun e P i g =>
    List.foldlRecOn (motive := fun b : Dev => b.dbg = e.dbg) _ _ rfl fun b hb s _ => by
      split
      · exact hb
      · exact hb
  have hslots : ∀ xs : List Nat, (xs.foldl (fun d k => d.setMeta k 8 2 2) d).dbg = d.dbg := fun xs =>
    List.foldlRecOn (motive := fun b : Dev => b.dbg = d.dbg) xs _ rfl fun b hb k _ => (b.setMeta_dbg k 8 2 2).trans hb
  unfold Dev.invalidate
  dsimp only
  split
  · rfl
  · exact ((Dev.raise_reports _ _ _ _).dbg.trans (hmarks _ _ _ _)).trans (hslots _)

theorem Dev.formCert_dbg (d : Dev) (s created : Nat) : (d.formCert s created).dbg = d.dbg := by
  have hcert : ∀ (e : Dev) (bs : List Byte), (e.setCert s bs).dbg = e.dbg := fun e bs =>
    List.foldlRecOn (motive := fun b : Dev => b.dbg = e.dbg) _ _ rfl fun b hb w _ => hb
  unfold Dev.formCert
  dsimp only
  split
  · rfl
  · exact hcert _ _

theorem Dev.openSession_dbg (d : Dev) (key scope : Nat) : (d.openSession key scope).dbg = d.dbg := by
  have hsub : (d.sessionOn scope).substitute.dbg = d.dbg := by
    rw [Dev.substitute_eq]
    refine List.foldlRecOn (motive := fun e : Dev => e.dbg = d.dbg) _ _ (Dev.invalidate_dbg (d.sessionOn scope) allSlots) fun e he s _ => ?_
    split
    · exact ((Dev.formCert_dbg _ s _).trans (Dev.sliceKeys_dbg _ s _ _ _)).trans he
    · exact he
  have hroot : (d.sessionOn scope).testRootIn.dbg = d.dbg := by
    unfold Dev.testRootIn
    split
    · rfl
    · exact (Dev.raise_reports _ _ _ _).dbg.trans hsub
  rw [Dev.openSession_eq]
  exact List.foldlRecOn (motive := fun e : Dev => e.dbg = d.dbg) _ _
    ((Dev.log_same _ _ _ _ _).dbg.trans ((Dev.raise_reports _ _ _ _).dbg.trans hroot)) fun e he n _ => (e.haltDue_dbg n).trans he

/-! ### Run control (R427) -/

/-- A write of DP_RUNCTL that the session may make. -/
theorem Dev.probeWrite_runctl {d : Dev} (ho : d.dpOpen 0x0C = true) (w : Nat) : d.probeWrite 0x0C w =
    ((d.setDbg d.dbg.dropGiven).runctl w).1.reply ((d.setDbg d.dbg.dropGiven).runctl w).2 false 0 :=
  Dev.probeWrite_open w (Bool.and_false _) ho

theorem coreMask_add (m : Nat) {i : Nat} (hi : 6 ≤ i) : coreMask (2 ^ i + m) = coreMask m :=
  List.filter_congr fun n _ => Nat.testBit_two_pow_add_gt (n.2.trans_le hi) m

theorem runBits_halt : ∀ m : Fin 64, (2 ^ 8 + m.1).testBit 8 = true ∧ (2 ^ 8 + m.1).testBit 9 = false ∧ (2 ^ 8 + m.1).testBit 10 = false ∧
    (2 ^ 8 + m.1).testBit 11 = false ∧ (2 ^ 8 + m.1).testBit 12 = false := by decide

theorem runBits_resume : ∀ m : Fin 64, (2 ^ 9 + m.1).testBit 8 = false ∧ (2 ^ 9 + m.1).testBit 9 = true ∧ (2 ^ 9 + m.1).testBit 10 = false ∧
    (2 ^ 9 + m.1).testBit 11 = false ∧ (2 ^ 9 + m.1).testBit 12 = false := by decide

theorem runBits_step : ∀ m : Fin 64, (2 ^ 10 + m.1).testBit 8 = false ∧ (2 ^ 10 + m.1).testBit 9 = false ∧ (2 ^ 10 + m.1).testBit 10 = true ∧
    (2 ^ 10 + m.1).testBit 11 = false ∧ (2 ^ 10 + m.1).testBit 12 = false := by decide

theorem coreMask_all {m : Nat} {P : Fin 6 → Bool} (h : ∀ n : Fin 6, m.testBit n.1 = true → P n = true) : (coreMask m).all P = true :=
  List.all_eq_true.mpr fun n hn => h n (List.mem_filter.mp hn).2

theorem mem_coreMask {m : Nat} {n : Fin 6} : n ∈ coreMask m ↔ m.testBit n.1 = true := by
  unfold coreMask
  rw [List.mem_filter, and_iff_right (List.mem_finRange n)]

theorem Dev.runctl_halt {d : Dev} (m : Fin 64) (h : ∀ n : Fin 6, m.1.testBit n.1 = true → d.haltAsk n = true) :
    d.runctl (2 ^ 8 + m.1) = ((coreMask m.1).foldl Dev.askHalt d, 1) := by
  obtain ⟨h8, h9, h10, h11, h12⟩ := runBits_halt m
  unfold Dev.runctl
  simp only [h8, h9, h10, h11, h12, coreMask_add m.1 (by decide : 6 ≤ 8), coreMask_all h, Bool.not_true, Bool.and_false, Bool.false_and, Bool.or_self,
    Bool.false_eq_true, if_false, if_true]

/-- A core goes on and what is known of its registers is forgotten. -/
def Dev.runOn (d : Dev) (n : Fin 6) : Dev := (d.resumeCore n).modCore n (fun c => { c with gpr := [] })

theorem Dev.runctl_resume {d : Dev} (m : Fin 64) (h : ∀ n : Fin 6, m.1.testBit n.1 = true → d.resumeAsk n = true) :
    d.runctl (2 ^ 9 + m.1) = ((coreMask m.1).foldl Dev.runOn d, 1) := by
  obtain ⟨h8, h9, h10, h11, h12⟩ := runBits_resume m
  unfold Dev.runctl
  simp only [h8, h9, h10, h11, h12, coreMask_add m.1 (by decide : 6 ≤ 9), coreMask_all h, Bool.not_true, Bool.and_false, Bool.false_and, Bool.or_self,
    Bool.false_eq_true, if_false, if_true]
  rfl

theorem Dev.runctl_step {d : Dev} (m : Fin 64) (h : ∀ n : Fin 6, m.1.testBit n.1 = true → d.haltAllowed n = true) :
    d.runctl (2 ^ 10 + m.1) = ((coreMask m.1).foldl Dev.stepCore d, 1) := by
  obtain ⟨h8, h9, h10, h11, h12⟩ := runBits_step m
  unfold Dev.runctl
  simp only [h8, h9, h10, h11, h12, coreMask_add m.1 (by decide : 6 ≤ 10), coreMask_all h, Bool.not_true, Bool.and_false, Bool.false_and, Bool.or_self,
    Bool.false_eq_true, if_false, if_true]

/-! #### Halts -/

theorem Dev.askHalt_keeps (d : Dev) (m : Fin 6) : Dev.Keeps RF.OffHalt d (d.askHalt m) :=
  .ite (.refl d) ((Dev.modCore_keeps d m _).trans (Dev.haltDue_keeps _ m))

/-- A core with a halt requested. -/
def Core.asked (c : Core) : Core := { c with haltPend := true }

/-- A halt request releases no core's halt and holds none in reset. -/
theorem Dev.askHalt_core (d : Dev) (m n : Fin 6) : ((d.askHalt m).cores[n]).held = (d.cores[n]).held ∧
    ((d.cores[n]).halted.isSome = true → ((d.askHalt m).cores[n]).halted.isSome = true) := by
  unfold Dev.askHalt
  split
  · exact ⟨rfl, id⟩
  · have hmod : (((d.modCore m Core.asked).cores[n]).held = (d.cores[n]).held ∧ ((d.modCore m Core.asked).cores[n]).halted = (d.cores[n]).halted) := by
      by_cases hm : m = n
      · subst hm
        rw [Dev.cores_modCore_same]
        exact ⟨rfl, rfl⟩
      · rw [Dev.cores_modCore_ne _ hm]
        exact ⟨rfl, rfl⟩
    show (((d.modCore m Core.asked).haltDue m).cores[n]).held = _ ∧ (_ → (((d.modCore m Core.asked).haltDue m).cores[n]).halted.isSome = true)
    obtain hc | ⟨-, hc⟩ := (d.modCore m Core.asked).haltDue_core m n
    · rw [hc, hmod.1, hmod.2]
      exact ⟨rfl, id⟩
    · rw [hc]
      exact ⟨hmod.1, fun _ => rfl⟩

/-- A released core that the session may halt is halted at its request. -/
theorem Dev.askHalt_halts {d : Dev} {n : Fin 6} (ha : d.haltAllowed n = true) (hh : (d.cores[n]).held = false) :
    ((d.askHalt n).cores[n]).halted.isSome = true := by
  unfold Dev.askHalt
  split
  · assumption
  · have hcore := Dev.cores_modCore_same d n Core.asked
    have hdue : (d.modCore n Core.asked).haltDue n = (d.modCore n Core.asked).haltCore n false :=
      Dev.haltDue_of_due (by rw [hcore]; rfl) (by rw [hcore]; exact hh) (((d.modCore_keeps n _).haltAllowed n).trans ha)
    show (((d.modCore n Core.asked).haltDue n).cores[n]).halted.isSome = true
    rw [hdue, Dev.haltCore_cores, Dev.cores_modCore_same]
    rfl

theorem Dev.askHalt_all {d : Dev} {n : Fin 6} {xs : List (Fin 6)} (hn : n ∈ xs) (ha : d.haltAllowed n = true) (hh : (d.cores[n]).held = false) :
    ((xs.foldl Dev.askHalt d).cores[n]).halted.isSome = true :=
  foldl_establishes (I := fun e : Dev => e.haltAllowed n = true ∧ (e.cores[n]).held = false) (P := fun e : Dev => (e.cores[n]).halted.isSome = true)
    (fun e m h => ⟨((e.askHalt_keeps m).haltAllowed n).trans h.1, (e.askHalt_core m n).1.trans h.2⟩) (fun _ h => Dev.askHalt_halts h.1 h.2)
    (fun e m _ h => (e.askHalt_core m n).2 h) xs hn d ⟨ha, hh⟩

/-! #### Resumes and steps -/

theorem Dev.runOn_core (d : Dev) (m n : Fin 6) : ((d.runOn m).cores[n]).halted = if n = m then none else (d.cores[n]).halted := by
  by_cases hm : m = n
  · subst hm
    rw [if_pos rfl]
    have hcore : ((d.runOn m).cores[m]) = { (d.resumeCore m).cores[m] with gpr := [] } := getElem_put_same _ _ _
    rw [hcore]
    show ((d.resumeCore m).cores[m]).halted = none
    rw [Dev.resumeCore_cores, if_pos rfl]
    exact Core.halted_resume _ _
  · rw [if_neg (Ne.symm hm)]
    have hcore : ((d.runOn m).cores[n]) = (d.resumeCore m).cores[n] := getElem_put_ne _ hm _
    rw [hcore, Dev.resumeCore_cores, if_neg (Ne.symm hm)]

theorem Dev.runOn_all (d : Dev) {n : Fin 6} {xs : List (Fin 6)} (hn : n ∈ xs) : ((xs.foldl Dev.runOn d).cores[n]).halted = none :=
  foldl_establishes (I := fun _ => True) (P := fun e : Dev => (e.cores[n]).halted = none) (fun _ _ _ => trivial)
    (fun e _ => (e.runOn_core n n).trans (if_pos rfl)) (fun e m _ h => by rw [e.runOn_core m n, h, ite_self]) xs hn d trivial

/-- A halted core after one instruction. -/
def Core.stepped (c : Core) (pc : Nat) : Core := { c with pc, gpr := [] }

theorem Dev.stepCore_core (d : Dev) (m n : Fin 6) : ((d.stepCore m).cores[n]) =
    if n = m ∧ (d.cores[m]).halted.isSome = true then (d.cores[n]).stepped (d.free 40).1 else d.cores[n] := by
  unfold Dev.stepCore
  split
  next hh =>
    have hcores : (((d.coreTrap m).modCore m (fun c => { c with gpr := [] })).touchCore m).cores = put d.cores m ((d.cores[m]).stepped (d.free 40).1) := by
      rw [Dev.touchCore_cores, Dev.cores_modCore]
      show put (put d.cores m _) m _ = _
      rw [put_put]
      congr 1
      have := getElem_put_same d.cores m { d.cores[m] with pc := (d.free 40).1 }
      exact congrArg (fun c : Core => { c with gpr := [] }) this
    show ((((d.coreTrap m).modCore m (fun c => { c with gpr := [] })).touchCore m).cores)[n] = _
    rw [hcores, getElem_put]
    by_cases hm : m = n
    · subst hm
      rw [if_pos rfl, if_pos ⟨rfl, hh⟩]
    · rw [if_neg hm, if_neg fun hc => hm hc.1.symm]
  next hh => exact (if_neg fun hc => hh hc.2).symm

theorem Dev.stepCore_halted (d : Dev) (m n : Fin 6) : ((d.stepCore m).cores[n]).halted = (d.cores[n]).halted := by
  rw [Dev.stepCore_core]
  split <;> rfl

theorem Dev.stepCore_all {d : Dev} {n : Fin 6} {xs : List (Fin 6)} (hn : n ∈ xs) (hh : (d.cores[n]).halted.isSome = true) :
    ((xs.foldl Dev.stepCore d).cores[n]).halted = (d.cores[n]).halted ∧ ((xs.foldl Dev.stepCore d).cores[n]).gpr = [] := by
  refine ⟨List.foldlRecOn (motive := fun e : Dev => (e.cores[n]).halted = (d.cores[n]).halted) xs _ rfl fun e he m _ => (e.stepCore_halted m n).trans he, ?_⟩
  refine foldl_establishes (I := fun e : Dev => (e.cores[n]).halted.isSome = true) (P := fun e : Dev => (e.cores[n]).gpr = [])
    (fun e m h => (congrArg Option.isSome (e.stepCore_halted m n)).trans h) (fun e h => ?_) (fun e m _ h => ?_) xs hn d hh
  · rw [Dev.stepCore_core, if_pos ⟨rfl, h⟩]
    rfl
  · rw [Dev.stepCore_core]
    split
    · rfl
    · exact h

/-! ### A warm reset (R405, R429) -/

/-- A warm reset began at an instant, and its source shows. -/
def Dev.Warmed (up src : Nat) (d : Dev) : Prop := d.f Reg.RST_STAT_WSRC = src ∧ d.sup.warm = some up

section
variable {up src : Nat} {d : Dev}

theorem Dev.Warmed.setF (h : d.Warmed up src) {r : RF} (x : Nat) (hl : r.lo < 32) (hr : r.addr ≠ Reg.RST_STAT_at) : (d.setF r x).Warmed up src :=
  ⟨(d.f_setF_off x hl (by decide) fun hc => hr hc.1.symm).trans h.1, h.2⟩

theorem Dev.Warmed.of_reports {e : Dev} (h : d.Warmed up src) (he : Dev.Reports d e) (hf : e.f Reg.RST_STAT_WSRC = d.f Reg.RST_STAT_WSRC) :
    e.Warmed up src := ⟨hf.trans h.1, (congrArg Sup.warm he.sup).trans h.2⟩

theorem Dev.Warmed.relockDone (h : d.Warmed up src) : d.relockDone.Warmed up src := by
  unfold Dev.relockDone
  split
  · have hset := (h.setF 1 (r := Reg.TB_STAT_LOCK) (by decide) (by decide)).setF 0 (r := Reg.TB_STAT_HOLD) (by decide) (by decide)
    generalize (d.setF Reg.TB_STAT_LOCK 1).setF Reg.TB_STAT_HOLD 0 = e at hset ⊢
    have hpend : ((e.setRelock false).pend 55).Warmed up src :=
      Dev.Warmed.of_reports (d := e.setRelock false) hset (Dev.pend_same _ _) (Dev.f_pend_off _ (by decide) (by decide) (by decide))
    exact hpend.setF _ (by decide) (by decide)
  · exact h

theorem Dev.Warmed.clearTriggers (h : d.Warmed up src) : d.clearTriggers.Warmed up src := by
  have hrows : d.clearRows.Warmed up src := by
    refine h.of_reports d.clearRows_reports ?_
    refine (Dev.f_forEach_setF_ne _ (fun _ => 0) fun n _ => RF.key_ne ?_ (Nat.le_of_ble_eq_true rfl) (by decide)).trans
      (Dev.f_forEach_setF_ne d (fun _ => 0) fun i _ => RF.key_ne ?_ (Nat.le_of_ble_eq_true rfl) (by decide))
    · simp only [Reg.TB_CAP_STAT_COUNT, Reg.TB_CAP_STAT_at, Reg.RST_STAT_WSRC, Reg.RST_STAT_at]; omega
    · simp only [Reg.TB_CMP_CTL_ARMED, Reg.TB_CMP_CTL_at, Reg.RST_STAT_WSRC, Reg.RST_STAT_at]; omega
  rw [Dev.clearTriggers_eq]
  generalize d.clearRows = e at hrows ⊢
  exact hrows

theorem Dev.Warmed.auxHold (h : d.Warmed up src) : d.auxHold.Warmed up src :=
  List.foldlRecOn (motive := Dev.Warmed up src) _ _ h fun _ he n _ =>
    he.setF (r := Reg.AUX_NSTAT_HOLDING n.1) 1 (Nat.le_of_ble_eq_true rfl)
      (by simp only [Reg.AUX_NSTAT_HOLDING, Reg.AUX_NSTAT_at, Reg.RST_STAT_at]; omega)

theorem Dev.Warmed.review (h : d.Warmed up src) : d.review.Warmed up src :=
  h.of_reports d.review_reports (d.f_review (by decide) (by decide) (by decide) (by decide))

theorem Dev.Warmed.orphanSlice (h : d.Warmed up src) {s : Nat} (hs : s < 64) : (d.orphanSlice s).Warmed up src :=
  ⟨((d.orphanSlice_work hs).f _ ⟨by decide, .inl (by decide)⟩).trans h.1, (congrArg Sup.warm (d.orphanSlice_work hs).sup).trans h.2⟩

theorem Dev.Warmed.warmSlice (h : d.Warmed up src) {s : Nat} (hs : s < 64) : (d.warmSlice s).Warmed up src := by
  unfold Dev.warmSlice
  dsimp only
  split
  · exact Dev.Warmed.orphanSlice (d := d.modSlice (sl s) _) h hs
  · refine Dev.Warmed.orphanSlice ?_ hs
    exact Dev.Warmed.setF (d := d.modSlice (sl s) _) h 1 (Nat.le_of_ble_eq_true rfl)
      (by simp only [Reg.SLC_STATE_STATE, Reg.SLC_STATE_at, Reg.RST_STAT_at]; omega)
  · exact h

end

/-- The registers as a warm reset leaves them, before what goes with it. -/
def Dev.warmRegs (d : Dev) (src : Nat) : Dev :=
  (((((d.setRegs d.regs.warm).setF Reg.SYS_SVC_PATH_H0 (d.f Reg.SYS_SVC_PATH_H0)).setF Reg.SYS_SVC_PATH_H1 (d.f Reg.SYS_SVC_PATH_H1)).setF
    Reg.SLICE_STAT_GUARANTEE (d.f Reg.SLICE_STAT_GUARANTEE)).setF Reg.RST_STAT_CAUSE 2).setF Reg.RST_STAT_WSRC src

theorem Dev.warmRegs_wsrc (d : Dev) {src : Nat} (h : src < 8) : (d.warmRegs src).f Reg.RST_STAT_WSRC = src :=
  (Dev.f_setF_same _ Reg.RST_STAT_WSRC src).trans (Nat.mod_eq_of_lt h)

/-- The units' own state, reset. -/
def Dev.warmUnits (d : Dev) (failed : Nat) : Dev :=
  { d with
    rcWait := 2 ^ 17 - 1, l2 := [], perfAt := d.up
    heldLow := [], capHigh := [], can := Vector.replicate 8 {}, cores := Vector.replicate 6 {}
    pairs := Vector.replicate 2 {}, qN := none, qS := none, dram := {}
    dramEpoch := if failed = 0 then d.dramEpoch else d.dramEpoch + 1
    mord := { d.mord with owners := Vector.replicate 16 none, queue := [], run := none } }

/-- The caches written back, then the registers and the power states reset. -/
def Dev.warmStart (d : Dev) (src : Nat) : Dev :=
  forEach 64 (((forEach 4 d (fun d n => d.dropL1 n)).warmRegs src).bump Reg.RST_WCNT_COUNT)
    (fun d b => if 8 ≤ b ∧ b < 20 then d else d.setF (Reg.PWR_QTAG_STATE b) 0)

/-- The slot whose key the engine's command holds. -/
def Dev.runSlot (d : Dev) : Option (Nat × Nat) := match d.mord.run with | some r => r.slot | none => none

theorem Dev.startWarm_eq (d : Dev) (src : Nat) : d.startWarm src = forEach 64
    ((((((d.warmStart src).warmUnits ((forEach 4 d (fun d n => d.dropL1 n)).f Reg.DRAM_STAT_FAILED)).releaseKey
      (forEach 4 d (fun d n => d.dropL1 n)).runSlot).modSup (fun s =>
        { s with warm := some (((d.warmStart src).warmUnits ((forEach 4 d (fun d n => d.dropL1 n)).f Reg.DRAM_STAT_FAILED)).releaseKey
          (forEach 4 d (fun d n => d.dropL1 n)).runSlot).up, rom := false })).relockDone.clearTriggers.auxHold.review))
    (fun d s => d.warmSlice s) := by
  unfold Dev.startWarm Dev.warmStart
  generalize forEach 4 d (fun d n => d.dropL1 n) = e
  rfl

theorem Dev.warmStart_wsrc (d : Dev) {src : Nat} (h : src < 8) : (d.warmStart src).f Reg.RST_STAT_WSRC = src := by
  refine List.foldlRecOn (motive := fun e : Dev => e.f Reg.RST_STAT_WSRC = src) _ _ ?_ fun e he b hb => ?_
  · exact (Dev.f_bump_off _ 1 (by decide) (by decide) (by decide)).trans (Dev.warmRegs_wsrc _ h)
  · have hb := List.mem_range.mp hb
    split
    · exact he
    · exact (e.f_setF_off 0 (Nat.le_of_ble_eq_true rfl) (by decide)
        (by simp only [Reg.PWR_QTAG_STATE, Reg.PWR_QTAG_at, Reg.RST_STAT_WSRC, Reg.RST_STAT_at]; omega)).trans he

theorem Dev.setMeta_wsrc (d : Dev) (k lo w v : Nat) : (d.setMeta k lo w v).f Reg.RST_STAT_WSRC = d.f Reg.RST_STAT_WSRC :=
  d.f_setF_off _ (Nat.le_of_ble_eq_true rfl) (by decide)
    (by simp only [Reg.MORD_K_META_WORD, Reg.MORD_K_META_at, Reg.RST_STAT_WSRC, Reg.RST_STAT_at]; omega)

theorem Dev.setMeta_up (d : Dev) (k lo w v : Nat) : (d.setMeta k lo w v).up = d.up := rfl

theorem Dev.releaseKey_wsrc (d : Dev) (h : Option (Nat × Nat)) : (d.releaseKey h).f Reg.RST_STAT_WSRC = d.f Reg.RST_STAT_WSRC := by
  unfold Dev.releaseKey
  split
  · split
    · dsimp only
      split
      · exact d.setMeta_wsrc _ 15 1 0
      · exact d.setMeta_wsrc _ 15 1 0
    · rfl
  · rfl

theorem Dev.remaskSlot_up (d : Dev) (k : Fin 128) : (d.remaskSlot k).up = d.up := rfl

theorem Dev.releaseKey_up (d : Dev) (h : Option (Nat × Nat)) : (d.releaseKey h).up = d.up := by
  unfold Dev.releaseKey
  split
  next k gen =>
    split
    · dsimp only
      split
      · rw [Dev.remaskSlot_up, d.setMeta_up k 15 1 0]
      · exact d.setMeta_up k 15 1 0
    · rfl
  next => rfl

theorem Dev.dropL1_up (d : Dev) (n : Nat) : (d.dropL1 n).up = d.up := by
  unfold Dev.dropL1
  refine List.foldlRecOn (motive := fun e : Dev => e.up = d.up) _ _ rfl fun e he line _ => ?_
  dsimp only
  split
  · exact he
  · exact List.foldlRecOn (motive := fun e : Dev => e.up = d.up) _ _ he fun _ hb _ _ => hb

theorem Dev.warmRegs_up (d : Dev) (src : Nat) : ((d.warmRegs src).bump Reg.RST_WCNT_COUNT).up = d.up := rfl

theorem Dev.warmStart_up (d : Dev) (src : Nat) : (d.warmStart src).up = d.up := by
  have hdrop : (forEach 4 d (fun d n => d.dropL1 n)).up = d.up :=
    List.foldlRecOn (motive := fun e : Dev => e.up = d.up) _ _ rfl fun e he n _ => (e.dropL1_up n).trans he
  refine List.foldlRecOn (motive := fun e : Dev => e.up = d.up) _ _ ((Dev.warmRegs_up _ src).trans hdrop) fun e he b _ => ?_
  split
  · exact he
  · exact he

/-- A warm reset shows its source and counts from the present instant. -/
theorem Dev.startWarm_warmed (d : Dev) {src : Nat} (h : src < 8) : (d.startWarm src).Warmed d.up src := by
  rw [Dev.startWarm_eq]
  have hw := d.warmStart_wsrc h
  have hu := d.warmStart_up src
  generalize d.warmStart src = e at hw hu ⊢
  generalize (forEach 4 d (fun d n => d.dropL1 n)).runSlot = held
  generalize (forEach 4 d (fun d n => d.dropL1 n)).f Reg.DRAM_STAT_FAILED = failed
  have hunits : (e.warmUnits failed).f Reg.RST_STAT_WSRC = src := hw
  have hunitsUp : (e.warmUnits failed).up = d.up := hu
  generalize e.warmUnits failed = g at hunits hunitsUp ⊢
  have hkey := (g.releaseKey_wsrc held).trans hunits
  have hkeyUp := (g.releaseKey_up held).trans hunitsUp
  generalize g.releaseKey held = b at hkey hkeyUp ⊢
  have hstart : (b.modSup (fun s => { s with warm := some b.up, rom := false })).Warmed d.up src := ⟨hkey, congrArg some hkeyUp⟩
  exact List.foldlRecOn (motive := Dev.Warmed d.up src) _ _ hstart.relockDone.clearTriggers.auxHold.review
    fun _ he s hs => he.warmSlice (List.mem_range.mp hs)

theorem Dev.runctl_reset {d : Dev} (h : d.scope 5 = true) : d.runctl (2 ^ 12) = (d.requestWarm 4, 1) := by
  have hmask : coreMask (2 ^ 12) = [] := by decide
  have hbits : (2 ^ 12 : Nat).testBit 8 = false ∧ (2 ^ 12 : Nat).testBit 9 = false ∧ (2 ^ 12 : Nat).testBit 10 = false ∧
    (2 ^ 12 : Nat).testBit 11 = false ∧ (2 ^ 12 : Nat).testBit 12 = true := by decide
  obtain ⟨h8, h9, h10, h11, h12⟩ := hbits
  unfold Dev.runctl
  rw [hmask, h8, h9, h10, h11, h12, h]
  rfl

theorem Dev.requestWarm_starts {d : Dev} (hw : d.sup.warm = none) (hf : d.sup.fuse = none) (src : Nat) : d.requestWarm src = d.startWarm src := by
  unfold Dev.requestWarm
  rw [hw, hf]
  rfl

/-! ### Breakpoints (R427) -/

theorem Dev.breakpointHit_halts {d : Dev} {n c : Fin 6} {addr pc : Nat} {kind : BpKind} {b : Bp}
    (hb : d.dbg.bps.find? (fun b => b.core == n.1 && b.comp == c.1) = some b) (hm : d.bpMatch n b addr kind = true)
    (ha : d.haltAllowed n = true) (hr : d.coreRuns n = true) :
    ((d.breakpointHit n c addr kind pc).cores[n]) = { (d.cores[n]).halt d.up true with pc := pc % 2 ^ 40 } := by
  have heq : d.breakpointHit n c addr kind pc = (d.haltCore n true).modCore n (fun c => { c with pc := pc % 2 ^ 40 }) := by
    unfold Dev.breakpointHit
    rw [hb]
    dsimp only
    rw [hm, ha, hr]
    rfl
  have hcore : ((d.haltCore n true).cores[n]) = (d.cores[n]).halt d.up true := by
    rw [Dev.haltCore_cores, Dev.cores_modCore_same]
  rw [heq, Dev.cores_modCore_same, hcore]

/-! ### Fuses (R430, R431) -/

theorem Dev.dpOpen_fuse (d : Dev) : d.dpOpen 0x16 = d.scope 7 := by
  unfold Dev.dpOpen
  rw [if_neg (by decide), if_neg (by decide), if_neg (by decide), if_neg (by decide), if_pos (by decide)]

theorem Dev.dpOpen_return (d : Dev) : d.dpOpen 0x17 = d.scope 6 := by
  unfold Dev.dpOpen
  rw [if_neg (by decide), if_neg (by decide), if_neg (by decide), if_neg (by decide), if_neg (by decide), if_pos rfl]

theorem Dev.dpShut_of_gt (d : Dev) {a : Nat} (h : 0x0B < a) : d.dpShut a = false := by
  unfold Dev.dpShut
  rw [decide_eq_false (by omega), Bool.and_false]

theorem Dev.dpWrite_fuse (d : Dev) (w : Nat) : d.dpWrite 0x16 w = d.fuseCtl w := by
  unfold Dev.dpWrite
  simp only [Nat.reduceEqDiff, reduceIte]

theorem Dev.dpWrite_return (d : Dev) (w : Nat) : d.dpWrite 0x17 w = d.dpReturn w := by
  unfold Dev.dpWrite
  simp only [Nat.reduceEqDiff, reduceIte]

/-- A write of DP_FUSE_CTL that the session may make. -/
theorem Dev.probeWrite_fuse {d : Dev} (h : d.scope 7 = true) (w : Nat) : d.probeWrite 0x16 w =
    ((d.setDbg d.dbg.dropGiven).fuseCtl w).1.reply ((d.setDbg d.dbg.dropGiven).fuseCtl w).2 false 0 := by
  rw [Dev.probeWrite_open w (d.dpShut_of_gt (by decide)) (d.dpOpen_fuse.trans h), Dev.dpWrite_fuse]

theorem Dev.probeWrite_return {d : Dev} (h : d.scope 6 = true) (w : Nat) : d.probeWrite 0x17 w =
    ((d.setDbg d.dbg.dropGiven).dpReturn w).1.reply ((d.setDbg d.dbg.dropGiven).dpReturn w).2 false 0 := by
  rw [Dev.probeWrite_open w (d.dpShut_of_gt (by decide)) (d.dpOpen_return.trans h), Dev.dpWrite_return]

/-- GO for an owner key that is not programmed yet, with its 12 words written. -/
theorem Dev.fuseCtl_owner {d : Dev} {k : Fin 4} (hsel : bits d.dbg.fuseSel 0 4 = k.1) (hf : d.sup.fuse = none)
    (hfree : (d.fuse.owner[k]).all (fun x => x == 0) = true) (hlen : 12 ≤ d.dbg.fuseData.length) :
    d.fuseCtl 1 = if d.fuse.lc ≤ 1 then (d.startFuses (.ownerKey k (d.dbg.fuseData.take 12)), 1) else d.fuseRefused := by
  have htake : (d.dbg.fuseData.take 12).length = 12 := by rw [List.length_take]; omega
  obtain ⟨k, hk⟩ := k
  obtain rfl : bits d.dbg.fuseSel 0 4 = k := hsel
  unfold Dev.fuseCtl
  dsimp only
  rw [if_neg (by decide), hf, if_neg (by decide), if_pos (by decide), dif_pos hk]
  by_cases hlc : d.fuse.lc ≤ 1
  · rw [if_pos ⟨hfree, hlc, htake⟩, if_pos hlc]
  · rw [if_neg fun hc => hlc hc.2.1, if_neg hlc]

theorem Dev.fuseCtl_develop {d : Dev} (hsel : bits d.dbg.fuseSel 0 4 = 15) (hf : d.sup.fuse = none) (hlc : d.fuse.lc = 0) :
    d.fuseCtl 2 = (d.startFuses (.lifeCycle 1), 1) := by
  unfold Dev.fuseCtl
  dsimp only
  rw [if_neg (by decide), hf, if_neg (by decide), if_neg (by decide)]
  exact if_pos ⟨hsel, hlc⟩

theorem Dev.dpReturn_eq {d : Dev} (hf : d.sup.fuse = none) (w : Nat) : d.dpReturn w =
    if bits w 16 16 = 0x5254 ∧ (d.fuse.lc = 1 ∨ d.fuse.lc = 2) then (d.startFuses (.lifeCycle 3), 1)
    else (d.log 0x0A 0xFF (14 + 32 + 64 * (Config.logKind 1 % 1024)) 3, 4) := by
  unfold Dev.dpReturn
  rw [hf]
  exact if_neg (by decide)

/-! ### The statement -/

theorem Dev.dpOpen_runctl {d : Dev} {i : Nat} (hi : i = 0 ∨ i = 1 ∨ i = 2 ∨ i = 5) (h : d.scope i = true) : d.dpOpen 0x0C = true := by
  show (d.scope 0 || d.scope 1 || d.scope 2 || d.scope 5) = true
  obtain rfl | rfl | rfl | rfl := hi <;> rw [h] <;> simp only [Bool.true_or, Bool.or_true]

theorem Dev.dpOpen_of_haltAllowed {d : Dev} {n : Fin 6} (h : d.haltAllowed n = true) : d.dpOpen 0x0C = true := by
  unfold Dev.haltAllowed at h
  rw [Bool.and_eq_true] at h
  obtain ⟨-, h⟩ := h
  split at h
  · exact Dev.dpOpen_runctl (by decide) h
  · exact Dev.dpOpen_runctl (by decide) h

theorem Dev.dpOpen_of_resumeAsk {d : Dev} {n : Fin 6} (h : d.resumeAsk n = true) : d.dpOpen 0x0C = true := by
  unfold Dev.resumeAsk at h
  split at h
  · rw [Bool.or_eq_true] at h
    obtain h | h := h
    · exact Dev.dpOpen_runctl (by decide) h
    · exact Dev.dpOpen_runctl (by decide) h
  · exact Dev.dpOpen_runctl (by decide) h

/-- A command of run control: where a core is named the session reaches DP_RUNCTL; a mask that names none asks nothing. -/
theorem Answers.of_runctl {i : Instr} {s : State} {w : Nat} {e : Dev} {named : Fin 6 → Prop} {Q : Core → Core → Prop} (hl : Live s)
    (hact : s.dev.bit Reg.DBG_STAT_ACTIVE = true) (he : exec i s = s.done (s.dev.onPort (fun d => d.probeWrite 0x0C w)))
    (hopen : ∀ n, named n → s.dev.dpOpen 0x0C = true) (hrun : (s.dev.setDbg s.dev.dbg.dropGiven).runctl w = (e, 1))
    (hQ : ∀ n, named n → Q s.dev.cores[n] e.cores[n]) : Answers i s (fun t => ∀ n, named n → Q s.dev.cores[n] t.dev.cores[n]) := by
  by_cases ho : s.dev.dpOpen 0x0C = true
  · exact .of_port hl hact he ((Dev.probeWrite_runctl ho w).trans (by rw [hrun])) (d := e.reply 1 false 0) hQ
  · exact .of_port hl hact he rfl fun n hn => absurd (hopen n hn) ho

theorem Dev.verified_verify (d : Dev) (r : Nat) : (d.verified r).dbg.verify = none := rfl

theorem Dev.Opened.shown {d : Dev} {scope : Nat} (h : d.Opened scope) : d.bit Reg.DBG_STAT_UNLOCKED = true ∧ d.f Reg.DBG_STAT_SCOPE = scope ∧
    d.bit Reg.MORD_STAT_TESTROOT = true := ⟨beq_iff_eq.mpr h.1, h.2.1, beq_iff_eq.mpr h.2.2⟩

theorem Dev.drawn_portKept (d : Dev) : d.drawChallenge.review.dbg.verify = d.dbg.verify ∧ d.drawChallenge.review.dbg.fails = d.dbg.fails ∧
    d.drawChallenge.review.dbg.lastFail = d.dbg.lastFail := by
  rw [(Dev.review_reports d.drawChallenge).dbg]
  exact ⟨rfl, rfl, rfl⟩

theorem Dev.unlockResult_opens {d : Dev} {t0 chal : Nat} {cert : List Nat} (hv : d.dbg.verify = some (t0, cert, chal, 0))
    (hj : d.judgeCert cert chal = 1) : d.unlockResult.bit Reg.DBG_STAT_UNLOCKED = true ∧ d.unlockResult.f Reg.DBG_STAT_SCOPE = cert.getD 4 0 % 256 ∧
      d.unlockResult.bit Reg.MORD_STAT_TESTROOT = true ∧ d.unlockResult.dbg.verify = none := by
  rw [Dev.unlockResult_right hv hj]
  have hopen := Dev.openSession_opened (d.verified 1) (bits (cert.getD 1 0) 16 8) (cert.getD 4 0)
  have hdbg : ((d.verified 1).openSession (bits (cert.getD 1 0) 16 8) (cert.getD 4 0)).dbg.verify = none := by
    rw [Dev.openSession_dbg, Dev.verified_verify]
  generalize (d.verified 1).openSession (bits (cert.getD 1 0) 16 8) (cert.getD 4 0) = e at hopen hdbg ⊢
  obtain ⟨hu, hc, ht⟩ := hopen.drawn.shown
  exact ⟨hu, hc, ht, e.drawn_portKept.1.trans hdbg⟩

theorem Dev.unlockResult_fails {d : Dev} {t0 chal bar : Nat} {cert : List Nat} (hv : d.dbg.verify = some (t0, cert, chal, bar))
    (hj : (if bar = 0 then d.judgeCert cert chal else bar) ≠ 1) :
    d.unlockResult.bit Reg.DBG_STAT_UNLOCKED = d.bit Reg.DBG_STAT_UNLOCKED ∧ d.unlockResult.f Reg.DBG_STAT_SCOPE = d.f Reg.DBG_STAT_SCOPE ∧
      d.unlockResult.dbg.fails = d.dbg.fails + 1 ∧ d.unlockResult.dbg.lastFail = some d.up ∧ d.unlockResult.dbg.verify = none := by
  rw [Dev.unlockResult_wrong hv hj]
  generalize (if bar = 0 then d.judgeCert cert chal else bar) = r
  have hport : ∃ e : Dev, e = (d.verified r).modDbg (fun x => { x with fails := x.fails + 1, lastFail := some d.up }) ∧ (∀ r', e.f r' = d.f r') ∧
      e.dbg.fails = d.dbg.fails + 1 ∧ e.dbg.lastFail = some d.up ∧ e.dbg.verify = none := ⟨_, rfl, fun _ => rfl, rfl, rfl, rfl⟩
  obtain ⟨e, he, hf, hfails, hlast, hverify⟩ := hport
  rw [← he]
  have hdbg : (e.raise Reg.DBG_EVT_FAIL 1 65).dbg = e.dbg := (Dev.raise_reports _ _ _ _).dbg
  have hsession : ∀ r' : RF, r'.lo < 32 → r'.addr = Reg.DBG_STAT_at → (e.raise Reg.DBG_EVT_FAIL 1 65).f r' = d.f r' := fun r' hl ha =>
    (Dev.f_raise_off e 1 (by decide) hl (by decide) (.inr (by rw [ha]; decide)) (fun hc => absurd (ha.symm.trans hc.1) (by decide))).trans (hf r')
  generalize e.raise Reg.DBG_EVT_FAIL 1 65 = g at hdbg hsession ⊢
  obtain ⟨hv', hf', hl'⟩ := g.drawn_portKept
  rw [hdbg] at hv' hf' hl'
  refine ⟨Dev.bit_of_f ((g.drawn_f (by decide) (by decide)).trans (hsession _ (by decide) rfl)),
    (g.drawn_f (by decide) (by decide)).trans (hsession _ (by decide) rfl), hf'.trans hfails, hl'.trans hlast, hv'.trans hverify⟩


theorem Dev.reply_sup (d : Dev) (code : Nat) (read : Bool) (x : Nat) : (d.reply code read x).sup = d.sup := by
  unfold Dev.reply
  split <;> rfl

theorem Dev.reply_head (d : Dev) (code x : Nat) : (d.reply code false x).out.head? = some (.gnotar (0x50 + code) 0 0) := by
  unfold Dev.reply
  rw [if_neg fun hc => Bool.false_ne_true hc.1]
  rfl

theorem Dev.fuseRefused_sup (d : Dev) : d.fuseRefused.1.sup = d.sup := (Dev.log_same _ _ _ _ _).sup

/-- GO for an owner key, answered. -/
theorem Dev.probeWrite_ownerKey {d : Dev} {k : Fin 4} (hscope : d.scope 7 = true) (hsel : bits d.dbg.fuseSel 0 4 = k.1) (hf : d.sup.fuse = none)
    (hfree : (d.fuse.owner[k]).all (fun x => x == 0) = true) (hlen : 12 ≤ d.dbg.fuseData.length) :
    if d.fuse.lc ≤ 1 then
      (d.probeWrite 0x16 1).sup.fuse = some (.ownerKey k (d.dbg.fuseData.take 12), d.up) ∧ (d.probeWrite 0x16 1).out.head? = some (.gnotar 0x51 0 0)
    else (d.probeWrite 0x16 1).sup.fuse = none ∧ (d.probeWrite 0x16 1).out.head? = some (.gnotar 0x54 0 0) := by
  have hport : ∃ e : Dev, e = d.setDbg d.dbg.dropGiven ∧ e.sup = d.sup ∧ e.fuse = d.fuse ∧ e.up = d.up ∧ e.dbg = d.dbg.dropGiven := ⟨_, rfl, rfl, rfl, rfl, rfl⟩
  obtain ⟨e, he, hsup, hfuse, hup, hdbg⟩ := hport
  have hdata : e.dbg.fuseData = d.dbg.fuseData := by rw [hdbg, Dbg.fuseData_dropGiven]
  have hctl := Dev.fuseCtl_owner (d := e) (k := k) (by rw [hdbg, Dbg.fuseSel_dropGiven, hsel]) (by rw [hsup, hf]) (by rw [hfuse]; exact hfree)
    (by rw [hdata]; exact hlen)
  rw [Dev.probeWrite_fuse hscope, ← he, hctl, hdata, hfuse, Dev.reply_sup, Dev.reply_head]
  split
  · exact ⟨congrArg (fun t => some (FuseJob.ownerKey k (d.dbg.fuseData.take 12), t)) hup, rfl⟩
  · exact ⟨by rw [Dev.fuseRefused_sup, hsup, hf], rfl⟩

/-- A write of DP_RETURN, answered. -/
theorem Dev.probeWrite_dpReturn {d : Dev} (hscope : d.scope 6 = true) (hf : d.sup.fuse = none) (w : Nat) :
    if bits w 16 16 = 0x5254 ∧ (d.fuse.lc = 1 ∨ d.fuse.lc = 2) then (d.probeWrite 0x17 w).sup.fuse = some (.lifeCycle 3, d.up)
    else (d.probeWrite 0x17 w).sup.fuse = none ∧ (d.probeWrite 0x17 w).out.head? = some (.gnotar 0x54 0 0) := by
  have hport : ∃ e : Dev, e = d.setDbg d.dbg.dropGiven ∧ e.sup = d.sup ∧ e.fuse = d.fuse ∧ e.up = d.up := ⟨_, rfl, rfl, rfl, rfl⟩
  obtain ⟨e, he, hsup, hfuse, hup⟩ := hport
  rw [Dev.probeWrite_return hscope, ← he, Dev.dpReturn_eq (by rw [hsup, hf]), hfuse, Dev.reply_sup, Dev.reply_head]
  split
  · exact congrArg (fun t => some (FuseJob.lifeCycle 3, t)) hup
  · exact ⟨by rw [Dev.log_sup, hsup, hf], rfl⟩

/-- Settles O52: the certificate's commands, the end of a verification, run control, breakpoints and fuses. -/
theorem gnotarSessionsAndControl : Obligations.GnotarSessionsAndControl := by
  refine ⟨fun s hl hact => ⟨fun hv => ?go, fun hv => ?busy, ?lock, ?clear⟩, fun s t0 chal bar cert hl hv => ⟨fun hbar hj => ?right, fun hj hbar => ?wrong⟩,
    fun s m hl hact => ⟨fun h => ?halt, fun h => ?resume, fun h => ?step⟩, fun s hl hact hscope hw hf => ?reset,
    fun s n c addr kind pc b hl hb hm ha hr => ?breakpoint, fun s hl hact hscope hf => ⟨fun k hsel hfree hlen => ?fuse, fun hsel hlc => ?develop⟩,
    fun s w hl hact hscope hf => ?return_⟩
  case go =>
    have hv' : (s.dev.setDbg s.dev.dbg.dropGiven).dbg.verify = none := (Dbg.verify_dropGiven _).trans hv
    refine .of_port hl hact rfl ((Dev.probeWrite_cert _ _).trans (by rw [Dev.certCtl_go hv'])) ?_
    show some (s.dev.up, s.dev.dbg.dropGiven.cert, s.dev.dbg.dropGiven.chal, (s.dev.setDbg s.dev.dbg.dropGiven).unlockBar) = _
    rw [Dbg.cert_dropGiven, Dbg.chal_dropGiven, Dev.unlockBar_dropGiven]
  case busy =>
    have hv' : (s.dev.setDbg s.dev.dbg.dropGiven).dbg.verify.isSome = true := (congrArg Option.isSome (Dbg.verify_dropGiven _)).trans hv
    exact .of_port hl hact rfl ((Dev.probeWrite_cert _ _).trans (by rw [Dev.certCtl_busy hv']))
      (d := (s.dev.setDbg s.dev.dbg.dropGiven).reply 2 false 0) ⟨s.dev.dbg.verify_dropGiven, rfl⟩
  case lock =>
    have hends := (s.dev.setDbg s.dev.dbg.dropGiven).lockPort_ends
    refine .of_port hl hact rfl ((Dev.probeWrite_cert _ _).trans (by rw [Dev.certCtl_lock])) ?_
      (d := (s.dev.setDbg s.dev.dbg.dropGiven).lockPort.reply 1 false 0)
    generalize (s.dev.setDbg s.dev.dbg.dropGiven).lockPort = e at hends ⊢
    exact hends
  case clear => exact .of_port hl hact rfl ((Dev.probeWrite_cert _ _).trans (by rw [Dev.certCtl_clear])) rfl
  case right =>
    subst hbar
    exact .of_done hl rfl (Dev.unlockResult_opens hv hj)
  case wrong =>
    refine .of_done hl rfl (Dev.unlockResult_fails hv ?_)
    split
    next h0 => exact hj h0
    next => exact hbar
  case halt =>
    have hrun := Dev.runctl_halt (d := s.dev.setDbg s.dev.dbg.dropGiven) m (fun n hn => (h n hn).1)
    exact .of_runctl (Q := fun _ c => c.halted.isSome = true) hl hact rfl (fun n hn => Dev.dpOpen_of_haltAllowed (h n hn).2.1) hrun
      fun n hn => Dev.askHalt_all (mem_coreMask.mpr hn) (h n hn).2.1 (h n hn).2.2
  case resume =>
    have hrun := Dev.runctl_resume (d := s.dev.setDbg s.dev.dbg.dropGiven) m h
    exact .of_runctl (Q := fun _ c => c.halted = none) hl hact rfl (fun n hn => Dev.dpOpen_of_resumeAsk (h n hn)) hrun
      fun n hn => Dev.runOn_all _ (mem_coreMask.mpr hn)
  case step =>
    have hrun := Dev.runctl_step (d := s.dev.setDbg s.dev.dbg.dropGiven) m (fun n hn => (h n hn).1)
    exact .of_runctl (Q := fun c c' => c'.halted = c.halted ∧ c'.gpr = []) hl hact rfl (fun n hn => Dev.dpOpen_of_haltAllowed (h n hn).1) hrun
      fun n hn => Dev.stepCore_all (mem_coreMask.mpr hn) (h n hn).2
  case reset =>
    have hrun := Dev.runctl_reset (d := s.dev.setDbg s.dev.dbg.dropGiven) hscope
    have hwarm := Dev.startWarm_warmed (s.dev.setDbg s.dev.dbg.dropGiven) (src := 4) (by decide)
    have hreq := Dev.requestWarm_starts (d := s.dev.setDbg s.dev.dbg.dropGiven) hw hf 4
    rw [hreq] at hrun
    generalize (s.dev.setDbg s.dev.dbg.dropGiven).startWarm 4 = e at hrun hwarm
    exact .of_port hl hact rfl ((Dev.probeWrite_runctl (Dev.dpOpen_runctl (by decide) hscope) _).trans (by rw [hrun])) (d := e.reply 1 false 0)
      ⟨hwarm.2, hwarm.1⟩
  case breakpoint =>
    have hcore := Dev.breakpointHit_halts (pc := pc) hb hm ha hr
    refine .of_done hl rfl ?_
    show ((s.dev.breakpointHit n c addr kind pc).cores[n]).halted.isSome = true ∧ ((s.dev.breakpointHit n c addr kind pc).cores[n]).byBp = true ∧
      ((s.dev.breakpointHit n c addr kind pc).cores[n]).pc = pc % 2 ^ 40
    rw [hcore]
    exact ⟨rfl, rfl, rfl⟩
  case fuse =>
    have hgo := Dev.probeWrite_ownerKey hscope hsel hf hfree hlen
    generalize hd : s.dev.probeWrite 0x16 1 = e at hgo
    exact .of_port hl hact (act := fun d => d.probeWrite 0x16 1) rfl hd hgo
  case develop =>
    have hctl := Dev.fuseCtl_develop (d := s.dev.setDbg s.dev.dbg.dropGiven) ((congrArg (bits · 0 4) s.dev.dbg.fuseSel_dropGiven).trans hsel) hf hlc
    exact .of_port hl hact rfl ((Dev.probeWrite_fuse hscope _).trans (by rw [hctl]))
      (d := ((s.dev.setDbg s.dev.dbg.dropGiven).startFuses (.lifeCycle 1)).reply 1 false 0) rfl
  case return_ =>
    have hret := Dev.probeWrite_dpReturn hscope hf w.toNat
    generalize hd : s.dev.probeWrite 0x17 w.toNat = e at hret
    exact .of_port hl hact (act := fun d => d.probeWrite 0x17 w.toNat) rfl hd hret

end Sys2Proof.Machine
end

section
/-!
PROOF. Power requests (R317–R319, R354, R359): how the arbiter answers, and the end of a transition.
-/

namespace Sys2Proof.Machine
open Sys2Proof

/-! ### The waiting requests and what shows of them -/

theorem Dev.qreq_setQreq_same (d : Dev) (sec : Bool) (q : Option QReq) : (d.setQreq sec q).qreq sec = q := by cases sec <;> rfl

theorem Dev.qreq_of_same {d e : Dev} (hN : e.qN = d.qN) (hS : e.qS = d.qS) (sec : Bool) : e.qreq sec = d.qreq sec := by
  unfold Dev.qreq
  rw [hN, hS]

theorem Dev.qreq_of_reports {d e : Dev} (h : Dev.Reports d e) (sec : Bool) : e.qreq sec = d.qreq sec := Dev.qreq_of_same h.qN h.qS sec

theorem Dev.qreq_qstat (d : Dev) (sec s : Bool) (b : Nat) (pend : Bool) (r : Nat) : (d.qstat s b pend r).qreq sec = d.qreq sec := by
  cases s <;> rfl

/-- RESULT of a world. -/
def Reg.qResult (sec : Bool) : RF := if sec then Reg.PWR_QSTAT_S_RESULT else Reg.PWR_QSTAT_N_RESULT

theorem Dev.f_qstat_result (d : Dev) (sec : Bool) (b : Nat) (pend : Bool) {r : Nat} (h : r < 8) : (d.qstat sec b pend r).f (Reg.qResult sec) = r := by
  cases sec
  · exact (Dev.f_setF_same _ Reg.PWR_QSTAT_N_RESULT r).trans (Nat.mod_eq_of_lt h)
  · exact (Dev.f_setF_same _ Reg.PWR_QSTAT_S_RESULT r).trans (Nat.mod_eq_of_lt h)

/-- What shows of a request shows in PWR_QSTAT alone. -/
theorem Dev.f_qstat_off (d : Dev) (sec : Bool) (b : Nat) (pend : Bool) (r : Nat) {f : RF} (hl : f.lo < 32) (hn : f.addr ≠ Reg.PWR_QSTAT_N_at)
    (hs : f.addr ≠ Reg.PWR_QSTAT_S_at) : (d.qstat sec b pend r).f f = d.f f := by
  cases sec
  · refine (Dev.f_setF_off _ _ (r := Reg.PWR_QSTAT_N_RESULT) (by decide) hl fun hc => hn hc.1).trans
      ((Dev.f_setF_off _ _ (r := Reg.PWR_QSTAT_N_PEND) (by decide) hl fun hc => hn hc.1).trans
        (Dev.f_setF_off _ _ (r := Reg.PWR_QSTAT_N_BLOCK) (by decide) hl fun hc => hn hc.1))
  · refine (Dev.f_setF_off _ _ (r := Reg.PWR_QSTAT_S_RESULT) (by decide) hl fun hc => hs hc.1).trans
      ((Dev.f_setF_off _ _ (r := Reg.PWR_QSTAT_S_PEND) (by decide) hl fun hc => hs hc.1).trans
        (Dev.f_setF_off _ _ (r := Reg.PWR_QSTAT_S_BLOCK) (by decide) hl fun hc => hs hc.1))

theorem Dev.qend_qreq (d : Dev) (sec : Bool) (b r : Nat) : (d.qend sec b r).qreq sec = none := by
  unfold Dev.qend
  rw [Dev.qreq_of_reports (Dev.pend_same _ 69), Dev.qreq_qstat, Dev.qreq_setQreq_same]

theorem Dev.qend_result (d : Dev) (sec : Bool) (b : Nat) {r : Nat} (h : r < 8) : (d.qend sec b r).f (Reg.qResult sec) = r := by
  have hoff : (Reg.qResult sec).lo < 32 ∧ (Reg.qResult sec).addr < 0x20004000 := by cases sec <;> decide
  unfold Dev.qend
  rw [Dev.f_pend_off _ (by decide) hoff.1 (.inl hoff.2)]
  exact Dev.f_qstat_result _ sec b false h

/-- The end of a request shows in PWR_QSTAT and the event block alone. -/
theorem Dev.f_qend_off (d : Dev) (sec : Bool) (b r : Nat) {f : RF} (hl : f.lo < 32) (hn : f.addr ≠ Reg.PWR_QSTAT_N_at)
    (hs : f.addr ≠ Reg.PWR_QSTAT_S_at) (he : f.addr < 0x20004000) : (d.qend sec b r).f f = d.f f := by
  have hset : (d.setQreq sec none).f f = d.f f := by cases sec <;> rfl
  unfold Dev.qend
  rw [Dev.f_pend_off _ (by decide) hl (.inl he), Dev.f_qstat_off _ sec b false r hl hn hs, hset]

/-! ### Requests (R317–R319) -/

/-- A request as it enters the arbiter. -/
def QReq.entered (src : Src) (b op up : Nat) : QReq := { src := src, block := b, op := op, at_ := up }

section
variable {d : Dev} {src : Src} {w : Nat} (hop : qAccepts (bits w 0 8) (bits w 8 3) = true)
include hop

theorem Dev.qreqWrite_waiting (h : (d.qreq src.secure).isSome = true) : d.qreqWrite src w = d.logRefused src Reg.PWR_QREQ_at := by
  unfold Dev.qreqWrite
  dsimp only
  rw [hop, if_neg (by decide), if_pos h]

theorem Dev.qreqWrite_free (h : d.qreq src.secure = none) : d.qreqWrite src w =
    if d.qMinset (bits w 0 8) (bits w 8 3) then d.qend src.secure (bits w 0 8) 4
    else if src.secure = true ∨ d.f (Reg.PWR_QTAG_TAG (bits w 0 8)) = 0 then
      (d.setQreq src.secure (some { QReq.entered src (bits w 0 8) (bits w 8 3) d.up with draining := true })).qstat src.secure (bits w 0 8) true 0
    else if d.f (Reg.PWR_QTAG_TAG (bits w 0 8)) = 1 then
      (d.setQreq src.secure (some { QReq.entered src (bits w 0 8) (bits w 8 3) d.up with deferred := true })).qstat src.secure (bits w 0 8) true 0
    else (d.logRefused src Reg.PWR_QREQ_at).qend src.secure (bits w 0 8) 2 := by
  unfold Dev.qreqWrite
  dsimp only
  rw [hop, if_neg (by decide), h, if_neg (by decide)]
  rfl

theorem Dev.qreqWrite_minset (h : d.qreq src.secure = none) (hm : d.qMinset (bits w 0 8) (bits w 8 3) = true) :
    d.qreqWrite src w = d.qend src.secure (bits w 0 8) 4 := (Dev.qreqWrite_free hop h).trans (if_pos hm)

theorem Dev.qreqWrite_drains (h : d.qreq src.secure = none) (hm : d.qMinset (bits w 0 8) (bits w 8 3) = false)
    (ht : src.secure = true ∨ d.f (Reg.PWR_QTAG_TAG (bits w 0 8)) = 0) : d.qreqWrite src w =
      (d.setQreq src.secure (some { QReq.entered src (bits w 0 8) (bits w 8 3) d.up with draining := true })).qstat src.secure (bits w 0 8) true 0 :=
  (Dev.qreqWrite_free hop h).trans ((if_neg (by rw [hm]; decide)).trans (if_pos ht))

theorem Dev.qreqWrite_defers (h : d.qreq src.secure = none) (hm : d.qMinset (bits w 0 8) (bits w 8 3) = false) (hs : src.secure = false)
    (ht : d.f (Reg.PWR_QTAG_TAG (bits w 0 8)) = 1) : d.qreqWrite src w =
      (d.setQreq src.secure (some { QReq.entered src (bits w 0 8) (bits w 8 3) d.up with deferred := true })).qstat src.secure (bits w 0 8) true 0 :=
  (Dev.qreqWrite_free hop h).trans ((if_neg (by rw [hm]; decide)).trans ((if_neg (by rw [hs, ht]; decide)).trans (if_pos ht)))

theorem Dev.qreqWrite_inUse (h : d.qreq src.secure = none) (hm : d.qMinset (bits w 0 8) (bits w 8 3) = false) (hs : src.secure = false)
    (ht : 2 ≤ d.f (Reg.PWR_QTAG_TAG (bits w 0 8))) : d.qreqWrite src w = (d.logRefused src Reg.PWR_QREQ_at).qend src.secure (bits w 0 8) 2 :=
  (Dev.qreqWrite_free hop h).trans ((if_neg (by rw [hm]; decide)).trans ((if_neg (by rw [hs]; simp; omega)).trans (if_neg (by omega))))

end

/-- A request that enters the arbiter waits, and RESULT is 0. -/
theorem Dev.entered_shown (d : Dev) (sec : Bool) (q : QReq) (b : Nat) : ((d.setQreq sec (some q)).qstat sec b true 0).qreq sec = some q ∧
    ((d.setQreq sec (some q)).qstat sec b true 0).f (Reg.qResult sec) = 0 :=
  ⟨(Dev.qreq_qstat _ _ _ _ _ _).trans (Dev.qreq_setQreq_same _ _ _), Dev.f_qstat_result _ _ _ _ (by decide)⟩

/-- The four commands are one write. -/
theorem exec_qreq {i : Instr} {src : Src} {w : Word} (h : i = .quiesce src w ∨ i = .qreqResume src w ∨ i = .retain src w ∨ i = .off src w)
    (s : State) : exec i s = s.done (s.dev.onWrite src Reg.PWR_QREQ_at (fun d => d.qreqWrite src w.toNat)) := by
  obtain rfl | rfl | rfl | rfl := h <;> rfl

/-! ### Tags and deferred requests (R318) -/

theorem Reg.qtag_row (b : Fin 64) : (Reg.row (Reg.PWR_QTAG_at b.1)).any (fun row => row.base == 0x20001610 &&
    row.fields.contains ⟨0, 2, .rw, .const 0, false, [(0, 2)], 0⟩) = true := by
  have h : ∀ b : Fin 64, (Reg.row (Reg.PWR_QTAG_at b.1)).any (fun row => row.base == 0x20001610 &&
    row.fields.contains ⟨0, 2, .rw, .const 0, false, [(0, 2)], 0⟩) = true := by decide +kernel
  exact h b

/-- A write of a block's tag takes the value. -/
theorem Dev.f_qtag_written (d : Dev) (src : Src) (b : Fin 64) {w : Nat} (h : bits w 0 2 ≤ 2) :
    (d.writeRest src (Reg.PWR_QTAG_at b.1) w []).f (Reg.PWR_QTAG_TAG b.1) = bits w 0 2 := by
  refine (d.f_writeRowWith_offReports src w 0x20001610 ⟨0, 2, .rw, .const 0, false, [(0, 2)], 0⟩ (Reg.qtag_row b) rfl
    ⟨Nat.le_of_ble_eq_true rfl, .inl (by show Reg.PWR_QTAG_at b.1 < _; simp only [Reg.PWR_QTAG_at]; omega)⟩).trans (FieldRow.written_rw rfl _ _ _ ?_)
  simp [FieldRow.admits, Nat.mod_one]
  exact h

theorem Dev.qtagWrite_deferred {d : Dev} (src : Src) {b : Fin 64} {w : Nat} {q : QReq} (hq : d.qN = some q) (hb : q.block = b.1) (hd : q.deferred = true)
    (hw : bits w 0 2 ≤ 2) : d.qtagWrite src b.1 w =
      match bits w 0 2 with
      | 0 => if (d.writeRest src (Reg.PWR_QTAG_at b.1) w []).qMinset b.1 q.op then (d.writeRest src (Reg.PWR_QTAG_at b.1) w []).qend false b.1 4
        else (d.writeRest src (Reg.PWR_QTAG_at b.1) w []).setQreq false (some { q with deferred := false, draining := true })
      | 2 => ((d.writeRest src (Reg.PWR_QTAG_at b.1) w []).logRefused q.src Reg.PWR_QREQ_at).qend false b.1 2
      | _ => d.writeRest src (Reg.PWR_QTAG_at b.1) w [] := by
  have hqN : (d.writeRest src (Reg.PWR_QTAG_at b.1) w []).qN = some q := (d.writeRest_reports _ _ _ _).qN.trans hq
  have htag := d.f_qtag_written src b hw
  unfold Dev.qtagWrite
  generalize d.writeRest src (Reg.PWR_QTAG_at b.1) w [] = e at hqN htag ⊢
  dsimp only
  rw [hqN]
  dsimp only
  rw [if_pos ⟨hb, hd⟩, htag] <;> rfl

theorem Dev.qMinset_writeRest (d : Dev) (src : Src) (b : Fin 64) (w blk op : Nat) :
    (d.writeRest src (Reg.PWR_QTAG_at b.1) w []).qMinset blk op = d.qMinset blk op := by
  have hfence : (d.writeRest src (Reg.PWR_QTAG_at b.1) w []).f Reg.SYS_FENCE_SP = d.f Reg.SYS_FENCE_SP :=
    ((Dev.Within.refl (bs := [(0x20001000, 0x20002000)]) (K := True) d).writeRest src w []
      (.of_first (by simp only [Reg.PWR_QTAG_at]; omega))).f _ ⟨by decide, by decide⟩
  unfold Dev.qMinset
  rw [Dev.tb_of_f hfence, Dev.tb_of_f hfence]

/-! ### Transitions (R317, R354, R359) -/

theorem RF.offOrphan_low {r : RF} (hl : r.lo < 32) (ha : r.addr < 0x20004000) : r.OffOrphan := by
  intro s hs
  unfold RF.OffEvents
  simp only [Reg.SLICE_EVT_at, Reg.DPL_PI_at, Reg.DPL_STAT_at, Reg.SLC_RING_STAT_at, Reg.SLC_EVT_LOST_at]
  omega

/-- What `filter` keeps is found as before. -/
theorem Regs.find_filter {p : Nat × Nat → Bool} {k : Nat} (h : ∀ v, p (k, v) = true) (rs : Regs) : Regs.find (rs.filter p) k = Regs.find rs k := by
  induction rs with
  | nil => rfl
  | cons e rs ih =>
    obtain ⟨k', v⟩ := e
    rw [List.filter_cons]
    by_cases hk : k' = k
    · subst hk
      rw [h v, if_pos rfl]
      simp only [Regs.find, reduceIte]
    · split <;> simp only [Regs.find, if_neg hk, ih]

theorem Dev.f_clearCan_off (d : Dev) (n : Fin 8) {r : RF} (hl : r.lo < 32) (ha : r.addr < 0x20004000) : (d.clearCan n).f r = d.f r := by
  have hk : r.key / 64 = r.addr := by unfold RF.key; split <;> omega
  refine congrArg (·.getD r.dflt) (Regs.find_filter (fun v => ?_) d.regs)
  show (decide (r.key / 64 < _) || _) = true
  rw [hk, decide_eq_true (by omega), Bool.true_or]

/-- What a block that was in state `old` loses on its way to state `st`. -/
def Dev.qLose (d : Dev) (b old st : Nat) : Dev :=
  if (st = 3 ∧ old ≠ 3 ∨ old = 3 ∧ st ≠ 3) ∧ 8 ≤ b ∧ b < 20 then
    d.setLost (d.lost ++ [(0x10000000 + 0x200000 * (b - 8), 0x10000000 + 0x200000 * (b - 8) + 0x200000)])
  else if st = 3 ∧ 24 ≤ b ∧ b < 32 then d.clearCan ⟨(b - 24) % 8, Nat.mod_lt _ (by decide)⟩
  else d

theorem Dev.f_qLose_off (d : Dev) (b old st : Nat) {r : RF} (hl : r.lo < 32) (ha : r.addr < 0x20004000) : (d.qLose b old st).f r = d.f r := by
  unfold Dev.qLose
  split
  · rfl
  · split
    · exact Dev.f_clearCan_off _ _ hl ha
    · rfl

theorem Dev.qArrive_eq (d : Dev) (sec : Bool) (q : QReq) : d.qArrive sec q = Dev.qend (Dev.qLose
    (((if q.block < 6 then d.tally else d).setF (Reg.PWR_QTAG_STATE q.block) (qTarget q.op (d.f (Reg.PWR_QTAG_STATE q.block)))).evtLostAll)
    q.block (d.f (Reg.PWR_QTAG_STATE q.block)) (qTarget q.op (d.f (Reg.PWR_QTAG_STATE q.block)))) sec q.block 1 := rfl

theorem Dev.qArrive_shown (d : Dev) (sec : Bool) (q : QReq) (hb : q.block < 64) : (d.qArrive sec q).qreq sec = none ∧ (d.qArrive sec q).f (Reg.qResult sec) = 1 ∧
    (d.qArrive sec q).f (Reg.PWR_QTAG_STATE q.block) = qTarget q.op (d.f (Reg.PWR_QTAG_STATE q.block)) % 8 := by
  rw [Dev.qArrive_eq]
  refine ⟨Dev.qend_qreq _ _ _ _, Dev.qend_result _ _ _ (by decide), ?_⟩
  have ha : (Reg.PWR_QTAG_STATE q.block).addr < 0x20004000 := by simp only [Reg.PWR_QTAG_STATE, Reg.PWR_QTAG_at]; omega
  have hn : (Reg.PWR_QTAG_STATE q.block).addr ≠ Reg.PWR_QSTAT_N_at ∧ (Reg.PWR_QTAG_STATE q.block).addr ≠ Reg.PWR_QSTAT_S_at := by
    simp only [Reg.PWR_QTAG_STATE, Reg.PWR_QTAG_at, Reg.PWR_QSTAT_N_at, Reg.PWR_QSTAT_S_at]; omega
  have hl : (Reg.PWR_QTAG_STATE q.block).lo < 32 := Nat.le_of_ble_eq_true rfl
  exact (Dev.f_qend_off _ _ _ _ hl hn.1 hn.2 ha).trans ((Dev.f_qLose_off _ _ _ _ hl ha).trans
    (((Dev.evtLostAll_keeps _).2 _ (RF.offOrphan_low hl ha)).trans (Dev.f_setF_same _ _ _)))

theorem Dev.qStep_idle {d : Dev} {sec : Bool} {b : Nat} (h : d.qreq sec = none) : d.qStep sec b = d := by
  unfold Dev.qStep
  rw [h]

theorem Dev.qStep_ends {d : Dev} {sec : Bool} {q : QReq} {b : Nat} (hq : d.qreq sec = some q) (hb : q.block = b) (hdef : q.deferred = false)
    (hdr : q.draining = false) : d.qStep sec b = d.qArrive sec q := by
  unfold Dev.qStep
  rw [hq]
  exact if_pos ⟨hb, by rw [hdef]; rfl, by rw [hdr]; rfl⟩

/-- A transition of the normal world's request ends, with none of the secure world. -/
theorem Dev.qSteps_eq {d : Dev} {q : QReq} {b : Nat} (hS : d.qS = none) (hq : d.qN = some q) (hb : q.block = b) (hdef : q.deferred = false)
    (hdr : q.draining = false) : (d.qStep true b).qStep false b = d.qArrive false q := by
  rw [Dev.qStep_idle (sec := true) hS, Dev.qStep_ends (sec := false) hq hb hdef hdr]

theorem Dev.qDrained_eq {d : Dev} {sec : Bool} {q : QReq} (hq : d.qreq sec = some q) (hdr : q.draining = true) (hmin : d.qMinset q.block q.op = false) :
    d.qDrained sec = if d.qTakesTime q then d.setQreq sec (some { q with draining := false }) else d.qArrive sec q := by
  unfold Dev.qDrained
  rw [hq]
  simp only [hdr, hmin, Bool.not_true, Bool.false_eq_true, reduceIte]

theorem Dev.deferTimeout_due {d : Dev} {q : QReq} (hq : d.qN = some q) (hdef : q.deferred = true)
    (hat : q.at_ + 400000 * d.f Reg.PWR_QCFG_DEFER_TO ≤ d.up) : d.deferTimeout = d.qend false q.block 3 := by
  unfold Dev.deferTimeout
  rw [hq]
  dsimp only
  rw [if_pos ⟨hdef, hat⟩]

/-! ### The obligation -/

/-- A request the block accepts is refused, or enters the arbiter. -/
theorem answers_qreqWrite {i : Instr} {s : State} {src : Src} {w : Word} (hr : Reaches s src Reg.PWR_QREQ_at)
    (hi : i = .quiesce src w ∨ i = .qreqResume src w ∨ i = .retain src w ∨ i = .off src w) {P : State → Prop}
    (h : P (s.commit ((s.dev.answer 0).qreqWrite src w.toNat))) : Answers i s P :=
  .of_done hr.1 ((exec_qreq hi s).trans (congrArg s.done (Dev.onWrite_unguarded hr.2 _))) h

section
variable {i : Instr} {s : State} {src : Src} {w : Word} (hr : Reaches s src Reg.PWR_QREQ_at)
  (hi : i = .quiesce src w ∨ i = .qreqResume src w ∨ i = .retain src w ∨ i = .off src w) (hop : qAccepts (bits w.toNat 0 8) (bits w.toNat 8 3) = true)
include hr hi hop

theorem answers_request_waiting (h : (s.dev.qreq src.secure).isSome = true) :
    Answers i s (fun t => t.dev.qreq src.secure = s.dev.qreq src.secure) := by
  have hq : ((s.dev.answer 0).qreqWrite src w.toNat).qreq src.secure = s.dev.qreq src.secure := by
    rw [Dev.qreqWrite_waiting (d := s.dev.answer 0) hop h]
    exact Dev.qreq_of_reports (Dev.logRefused_reports (s.dev.answer 0) src Reg.PWR_QREQ_at) src.secure
  exact answers_qreqWrite hr hi hq

theorem answers_request_minset (h : s.dev.qreq src.secure = none) (hmin : s.dev.qMinset (bits w.toNat 0 8) (bits w.toNat 8 3) = true) :
    Answers i s (fun t => t.dev.qreq src.secure = none ∧ t.dev.f (Reg.qResult src.secure) = 4) := by
  refine answers_qreqWrite hr hi ?_
  rw [Dev.qreqWrite_minset (d := s.dev.answer 0) hop h hmin]
  exact ⟨Dev.qend_qreq _ _ _ _, Dev.qend_result _ _ _ (by decide)⟩

variable (h : s.dev.qreq src.secure = none) (hmin : s.dev.qMinset (bits w.toNat 0 8) (bits w.toNat 8 3) = false)
include h hmin

theorem answers_request_drains (ht : src.secure = true ∨ s.dev.f (Reg.PWR_QTAG_TAG (bits w.toNat 0 8)) = 0) : Answers i s (fun t =>
    t.dev.qreq src.secure = some ⟨src, bits w.toNat 0 8, bits w.toNat 8 3, s.dev.up, false, true⟩ ∧ t.dev.f (Reg.qResult src.secure) = 0) := by
  refine answers_qreqWrite hr hi ?_
  rw [Dev.qreqWrite_drains (d := s.dev.answer 0) hop h hmin ht]
  exact Dev.entered_shown _ _ _ _

theorem answers_request_defers (hs : src.secure = false) (ht : s.dev.f (Reg.PWR_QTAG_TAG (bits w.toNat 0 8)) = 1) : Answers i s (fun t =>
    t.dev.qreq src.secure = some ⟨src, bits w.toNat 0 8, bits w.toNat 8 3, s.dev.up, true, false⟩ ∧ t.dev.f (Reg.qResult src.secure) = 0) := by
  refine answers_qreqWrite hr hi ?_
  rw [Dev.qreqWrite_defers (d := s.dev.answer 0) hop h hmin hs ht]
  exact Dev.entered_shown _ _ _ _

theorem answers_request_inUse (hs : src.secure = false) (ht : 2 ≤ s.dev.f (Reg.PWR_QTAG_TAG (bits w.toNat 0 8))) : Answers i s (fun t =>
    t.dev.qreq src.secure = none ∧ t.dev.f (Reg.qResult src.secure) = 2) := by
  refine answers_qreqWrite hr hi ?_
  rw [Dev.qreqWrite_inUse (d := s.dev.answer 0) hop h hmin hs ht]
  exact ⟨Dev.qend_qreq _ _ _ _, Dev.qend_result _ _ _ (by decide)⟩

end

section
variable {s : State} {src : Src} {b : Fin 64} {w : Word} {q : QReq} (hr : Reaches s src (Reg.PWR_QTAG_at b.1)) (hq : s.dev.qN = some q) (hb : q.block = b.1)
  (hdef : q.deferred = true)
include hr hq hb hdef

/-- NORMAL lets the deferred request drain. -/
theorem answers_qtag_normal (hw : bits w.toNat 0 2 = 0) (hmin : s.dev.qMinset q.block q.op = false) : Answers (.qtagWrite src b w) s (fun t =>
    t.dev.f (Reg.PWR_QTAG_TAG b.1) = 0 ∧ t.dev.qN = some { q with deferred := false, draining := true }) := by
  refine .of_done hr.1 (congrArg s.done (Dev.onWrite_unguarded hr.2 _)) ?_
  rw [Dev.qtagWrite_deferred (d := s.dev.answer 0) src hq hb hdef (by omega), hw]
  have hm : ((s.dev.answer 0).writeRest src (Reg.PWR_QTAG_at b.1) w.toNat []).qMinset b.1 q.op = false :=
    (Dev.qMinset_writeRest _ src b _ _ _).trans (hb ▸ hmin)
  rw [hm, if_neg (by decide)]
  exact ⟨((s.dev.answer 0).f_qtag_written src b (by omega)).trans hw, rfl⟩

/-- SECURE_IN_USE ends it. -/
theorem answers_qtag_inUse (hw : bits w.toNat 0 2 = 2) : Answers (.qtagWrite src b w) s (fun t =>
    t.dev.f (Reg.PWR_QTAG_TAG b.1) = 2 ∧ t.dev.qN = none ∧ t.dev.f Reg.PWR_QSTAT_N_RESULT = 2) := by
  refine .of_done hr.1 (congrArg s.done (Dev.onWrite_unguarded hr.2 _)) ?_
  rw [Dev.qtagWrite_deferred (d := s.dev.answer 0) src hq hb hdef (by omega), hw]
  refine ⟨?_, Dev.qend_qreq _ false _ _, Dev.qend_result _ false _ (by decide)⟩
  have ha : (Reg.PWR_QTAG_TAG b.1).addr < 0x20001710 ∧ 0x20001610 ≤ (Reg.PWR_QTAG_TAG b.1).addr := by
    simp only [Reg.PWR_QTAG_TAG, Reg.PWR_QTAG_at]; omega
  have hl : (Reg.PWR_QTAG_TAG b.1).lo < 32 := Nat.le_of_ble_eq_true rfl
  refine (Dev.f_qend_off _ _ _ _ hl (by simp only [Reg.PWR_QSTAT_N_at]; omega) (by simp only [Reg.PWR_QSTAT_S_at]; omega) (by omega)).trans
    ((Dev.f_log_offReports _ _ _ _ _ ⟨hl, .inl (by omega)⟩).trans (((s.dev.answer 0).f_qtag_written src b (by omega)).trans hw))

end

section
variable {s : State} {q : QReq} (hlive : Live s) (hS : s.dev.qS = none) (hq : s.dev.qN = some q) (hdef : q.deferred = false) (hdr : q.draining = false)
include hlive hS hq hdef hdr

/-- The normal world's request ends in the state it leads to. -/
theorem answers_transition {i : Instr} {b : Nat} (hi : exec i s = s.done ((s.dev.qStep true b).qStep false b)) (hb : q.block = b) (h : b < 64) :
    Answers i s (fun t => t.dev.qN = none ∧ t.dev.f Reg.PWR_QSTAT_N_RESULT = 1 ∧
      t.dev.f (Reg.PWR_QTAG_STATE q.block) = qTarget q.op (s.dev.f (Reg.PWR_QTAG_STATE q.block)) % 8) := by
  obtain ⟨hnone, hres, hst⟩ := s.dev.qArrive_shown false q (hb ▸ h)
  exact .of_done hlive (hi.trans (congrArg s.done (Dev.qSteps_eq hS hq hb hdef hdr))) ⟨hnone, hres, hst⟩

end

section
variable {s : State} {sec : Bool} {q : QReq} (hlive : Live s) (hq : s.dev.qreq sec = some q) (hdr : q.draining = true)
  (hmin : s.dev.qMinset q.block q.op = false)
include hlive hq hdr hmin

theorem answers_drained (hb : q.block < 64) (ht : s.dev.qTakesTime q = false) : Answers (.requestDrained sec) s (fun t => t.dev.qreq sec = none ∧
    t.dev.f (Reg.PWR_QTAG_STATE q.block) = qTarget q.op (s.dev.f (Reg.PWR_QTAG_STATE q.block)) % 8) := by
  obtain ⟨hnone, -, hst⟩ := s.dev.qArrive_shown sec q hb
  exact .of_done hlive (congrArg s.done ((Dev.qDrained_eq hq hdr hmin).trans (if_neg (by rw [ht]; decide)))) ⟨hnone, hst⟩

theorem answers_drained_waits (ht : s.dev.qTakesTime q = true) : Answers (.requestDrained sec) s (fun t =>
    t.dev.qreq sec = some { q with draining := false } ∧
    t.dev.f (Reg.PWR_QTAG_STATE q.block) = s.dev.f (Reg.PWR_QTAG_STATE q.block)) := by
  refine .of_done hlive (congrArg s.done ((Dev.qDrained_eq hq hdr hmin).trans (if_pos ht))) ⟨?_, ?_⟩
  · exact Dev.qreq_setQreq_same _ _ _
  · cases sec <;> rfl

end

/-- Settles O40: what the arbiter makes of a request, a tag, a timeout and the end of a transition, case by case. -/
theorem powerRequestsAreArbitrated : Obligations.PowerRequestsAreArbitrated := by
  unfold Obligations.PowerRequestsAreArbitrated
  refine ⟨?_, fun s src b w q hr hq hb hdef => ⟨fun hw hmin => ?_, fun hw => ?_⟩,
    fun s q hlive hq hdef hat => ?_, fun s sec q hlive hq hb hdr hmin => ?_, fun s q hlive hS hq hdef hdr => ⟨fun n hb => ?_, fun hb => ?_⟩⟩
  · intro s src w i hr hi b op sec result hop
    exact ⟨answers_request_waiting hr hi hop, answers_request_minset hr hi hop, fun h hmin => ⟨answers_request_drains hr hi hop h hmin,
      answers_request_defers hr hi hop h hmin, answers_request_inUse hr hi hop h hmin⟩⟩
  · exact answers_qtag_normal hr hq hb hdef hw hmin
  · exact answers_qtag_inUse hr hq hb hdef hw
  · refine .of_done hlive (congrArg s.done (Dev.deferTimeout_due hq hdef hat)) ⟨Dev.qend_qreq _ false _ _, Dev.qend_result _ false _ (by decide)⟩
  · exact ⟨answers_drained hlive hq hdr hmin hb, answers_drained_waits hlive hq hdr hmin⟩
  · exact answers_transition hlive hS hq hdef hdr rfl hb (by omega)
  · have h := answers_transition hlive hS hq hdef hdr (i := .selfRefreshDone) rfl hb (by omega)
    rw [hb] at h
    exact h

end Sys2Proof.Machine
end

section
/-!
PROOF. What the switch core's operations may write (R232–R253): the registers of its block, the event block, and its own tables and queues.
-/

namespace Sys2Proof.Machine
open Sys2Proof

/-- The blocks hold every address from `lo` on below `hi`. -/
def Covers (bs : List (Nat × Nat)) (lo hi : Nat) : Prop := ∀ a, lo ≤ a → a < hi → InBlocks bs a

theorem Covers.of_first {b : Nat × Nat} {bs : List (Nat × Nat)} {lo hi : Nat} (hlo : b.1 ≤ lo) (hhi : hi ≤ b.2) : Covers (b :: bs) lo hi :=
  fun _ h1 h2 => .of_first ⟨hlo.trans h1, h2.trans_le hhi⟩

theorem Covers.of_second {b c : Nat × Nat} {bs : List (Nat × Nat)} {lo hi : Nat} (hlo : c.1 ≤ lo) (hhi : hi ≤ c.2) : Covers (b :: c :: bs) lo hi :=
  fun _ h1 h2 => .of_second ⟨hlo.trans h1, h2.trans_le hhi⟩

section
variable {bs : List (Nat × Nat)} {K : Prop} {d e : Dev}

/-! ### State that is no register's -/

section
variable (h : Dev.Within bs K d e)
include h

theorem Dev.Within.setSw (x : Switch) : Dev.Within bs K d (e.setSw x) := h.trans (.of_eq rfl rfl rfl ⟨rfl, rfl, rfl⟩)
theorem Dev.Within.modSw (g : Switch → Switch) : Dev.Within bs K d (e.modSw g) := h.setSw _
theorem Dev.Within.modPort (p : Fin 8) (g : SwPort → SwPort) : Dev.Within bs K d (e.modPort p g) := h.setSw _
theorem Dev.Within.macPut (x : MacEntry) : Dev.Within bs K d (e.macPut x) := h.setSw _
theorem Dev.Within.macDrop (g : MacEntry → Bool) : Dev.Within bs K d (e.macDrop g) := h.setSw _
theorem Dev.Within.intoQueue (o : Fin 8) (f : SwFrame) : Dev.Within bs K d (e.intoQueue o f) := h.trans (.of_eq rfl rfl rfl ⟨rfl, rfl, rfl⟩)
theorem Dev.Within.moveCell (i : Fin 8) (x : SwXfer) : Dev.Within bs K d (e.moveCell i x) := h.trans (.of_eq rfl rfl rfl ⟨rfl, rfl, rfl⟩)

theorem Dev.Within.grantOut (reqs : List (Fin 8 × SwXfer)) (o : Fin 8) : Dev.Within bs K d (e.grantOut reqs o) := by
  unfold Dev.grantOut
  dsimp only
  split
  · exact (h.foldl _ fun g x _ => (Dev.Within.refl g).moveCell x.1 x.2).modPort _ _
  · exact h.foldl _ fun g x _ => (Dev.Within.refl g).moveCell x.1 x.2

end

/-! ### Counters, flow control and queues (R237–R246, R253) -/

section
variable (hsw : Covers bs 0x20050000 0x20058000) (h : Dev.Within bs K d e)
include hsw h

theorem Dev.Within.count (p : Fin 8) {i : Nat} (n : Nat) (hi : i < 32) : Dev.Within bs K d (e.count p i n) :=
  h.setF64 _ (Nat.le_of_ble_eq_true rfl) (Nat.le_of_ble_eq_true rfl)
    (hsw _ (by simp only [Reg.SW_P_CNT_LO_COUNT, Reg.SW_P_CNT_LO_at]; omega) (by simp only [Reg.SW_P_CNT_LO_COUNT, Reg.SW_P_CNT_LO_at]; omega))
    (hsw _ (by simp only [Reg.SW_P_CNT_HI_COUNT, Reg.SW_P_CNT_HI_at]; omega) (by simp only [Reg.SW_P_CNT_HI_COUNT, Reg.SW_P_CNT_HI_at]; omega))

theorem Dev.Within.swEvt {r : RF} (hl : r.lo < 32) (ha : r.addr = Reg.SW_EVT_at) : Dev.Within bs K d (e.swEvt r) :=
  h.raise 1 (by decide) hl (hsw _ (by rw [ha]; decide) (by rw [ha]; decide))

theorem Dev.Within.setXoff (p : Fin 8) (x : Nat) : Dev.Within bs K d (e.setF (Reg.SW_P_STAT_XOFF p.1) x) :=
  h.setF x (Nat.le_of_ble_eq_true rfl)
    (hsw _ (by simp only [Reg.SW_P_STAT_XOFF, Reg.SW_P_STAT_at]; omega) (by simp only [Reg.SW_P_STAT_XOFF, Reg.SW_P_STAT_at]; omega))

theorem Dev.Within.setPaused (p : Fin 8) (x : Nat) : Dev.Within bs K d (e.setF (Reg.SW_P_STAT_PAUSED p.1) x) :=
  h.setF x (Nat.le_of_ble_eq_true rfl)
    (hsw _ (by simp only [Reg.SW_P_STAT_PAUSED, Reg.SW_P_STAT_at]; omega) (by simp only [Reg.SW_P_STAT_PAUSED, Reg.SW_P_STAT_at]; omega))

theorem Dev.Within.learn (p : Fin 8) (addr vid : Nat) : Dev.Within bs K d (e.learn p addr vid) := by
  unfold Dev.learn
  split
  · split
    · exact h
    · exact h.macPut _
  · dsimp only
    split
    · exact h.macPut _
    · exact h.swEvt hsw (by decide) rfl

theorem Dev.Within.sendXoff (p : Fin 8) (pfc : Bool) (m : Nat) : Dev.Within bs K d (e.sendXoff p pfc m) :=
  ((h.emit _).count hsw p 1 (by decide)).modPort p _

theorem Dev.Within.xoffCheck (p : Fin 8) : Dev.Within bs K d (e.xoffCheck p) := by
  unfold Dev.xoffCheck
  dsimp only
  split
  · split
    · exact (h.setXoff hsw p _).sendXoff hsw p _ _
    · exact h
  · split
    · exact h
    · exact (h.setXoff hsw p _).sendXoff hsw p _ _
  · exact h

theorem Dev.Within.xonCheck (p : Fin 8) : Dev.Within bs K d (e.xonCheck p) := by
  unfold Dev.xonCheck
  dsimp only
  split
  · split
    · exact ((h.setXoff hsw p _).emit _).count hsw p 1 (by decide)
    · exact h
  · split
    · exact h
    · exact ((h.setXoff hsw p _).emit _).count hsw p 1 (by decide)
  · exact h.setXoff hsw p _

theorem Dev.Within.copyTo (o : Fin 8) (f : SwFrame) (multi : Bool) : Dev.Within bs K d (e.copyTo o f multi) := by
  unfold Dev.copyTo
  dsimp only
  split
  · exact h
  · split
    · exact h.intoQueue o f
    · split
      · split
        · exact h.modPort _ _
        · exact (h.count hsw o 1 (by decide)).swEvt hsw (by decide) rfl
      · split
        · exact (h.modPort _ _).xoffCheck hsw _
        · exact h.count hsw _ 1 (by decide)

theorem Dev.Within.releaseIn (i : Fin 8) : Dev.Within bs K d (e.releaseIn i) := by
  unfold Dev.releaseIn
  dsimp only
  refine Dev.Within.xonCheck hsw (List.foldlRecOn _ _ (motive := fun r : Dev × List Nat => Dev.Within bs K d r.1) ?_ fun r hr g _ => ?_) i
  · refine h.foldl _ fun g x _ => ?_
    split
    · exact ((Dev.Within.refl g).modPort i _).intoQueue x.1 x.2.2
    · exact .refl g
  · split
    · exact hr
    · split
      · exact (hr.modPort i _).intoQueue g.1 g.2
      · exact hr

theorem Dev.Within.release : Dev.Within bs K d e.release := h.foldl _ fun g i _ => (Dev.Within.refl g).releaseIn hsw i

theorem Dev.Within.forward (p : Fin 8) (xs : List Byte) (bad : Bool) (stamp : Nat) : Dev.Within bs K d (e.forward p xs bad stamp) := by
  unfold Dev.forward
  dsimp only
  split
  · split
    · exact h.copyTo hsw _ _ _
    · split
      · exact h.count hsw p 1 (by decide)
      · exact h.copyTo hsw _ _ _
  · split
    · exact h.count hsw p 1 (by decide)
    · exact h.foldl _ fun g o _ => (Dev.Within.refl g).copyTo hsw o _ _

theorem Dev.Within.ingress (p : Fin 8) (xs : List Byte) (bad : Bool) (stamp : Nat) : Dev.Within bs K d (e.ingress p xs bad stamp) := by
  unfold Dev.ingress
  split
  · exact h.count hsw p 1 (by decide)
  · have hlearn : Dev.Within bs K d
        (if (!bad && (e.vlan (e.classify p xs).1).learn) = true then e.learn p (leAt xs 6 6) (e.classify p xs).1 else e) := by
      split
      · exact h.learn hsw p _ _
      · exact h
    dsimp only
    generalize (if (!bad && (e.vlan (e.classify p xs).1).learn) = true then e.learn p (leAt xs 6 6) (e.classify p xs).1 else e) = g at hlearn ⊢
    split
    · exact hlearn
    · exact hlearn.forward hsw p xs bad stamp

theorem Dev.Within.pauseIn (p : Fin 8) (pfc : Bool) (mask : Nat) (quanta : Nat → Nat) : Dev.Within bs K d (e.pauseIn p pfc mask quanta) := by
  unfold Dev.pauseIn
  refine (h.count hsw p 1 (by decide)).foldl _ fun g q _ => ?_
  dsimp only
  generalize (if pfc then quanta q.1 else quanta 0) = n
  split
  · split
    · exact ((Dev.Within.refl g).setPaused hsw p _).modPort p _
    · exact ((Dev.Within.refl g).setPaused hsw p _).modPort p _
  · exact .refl g

theorem Dev.Within.flushOut (p : Fin 8) : Dev.Within bs K d (e.flushOut p) :=
  ((h.modPort p _).foldl _ fun g i _ => (Dev.Within.refl g).modPort i _).count hsw p _ (by decide)

end

end

end Sys2Proof.Machine
end

section
/-!
PROOF. What the commands of the switch core, the cascade, network time and the events leave alone (chapters 11, 12, 13, 23).
-/

namespace Sys2Proof.Machine
open Sys2Proof

section
variable {bs : List (Nat × Nat)} {K : Prop} {d e : Dev}

/-! ### Commands of the switch core -/

theorem Dev.Within.ageOut (h : Dev.Within bs K d e) (i : Nat) : Dev.Within bs K d (e.ageOut i) := by
  unfold Dev.ageOut
  dsimp only
  split
  · split
    · exact h
    · exact h.macDrop _
  · exact h

section
variable (hsw : Covers bs 0x20050000 0x20058000) (h : Dev.Within bs K d e)
include hsw h

/-- A setting of a register of the switch core. -/
theorem Dev.Within.setSwitch {r : RF} (x : Nat) (hl : r.lo < 32) (hlo : 0x20050000 ≤ r.addr) (hhi : r.addr < 0x20058000) :
    Dev.Within bs K d (e.setF r x) := h.setF x hl (hsw _ hlo hhi)

theorem Dev.Within.frameReceive (p : Fin 8) (xs : List Byte) (good : Bool) (stamp : Nat) : Dev.Within bs K d (e.frameReceive p xs good stamp) := by
  have hcount : Dev.Within bs K d ((e.count p 0).count p 1 (xs.length + 4)) := (h.count hsw p 1 (by decide)).count hsw p _ (by decide)
  unfold Dev.frameReceive
  split
  · exact h
  · dsimp only
    generalize (e.count p 0).count p 1 (xs.length + 4) = g at hcount ⊢
    have hbad : ∀ b : Bool, Dev.Within bs K d (if b then g.count p 4 else g) := fun b => by
      split
      · exact hcount.count hsw p 1 (by decide)
      · exact hcount
    split
    · split
      · exact hcount.count hsw p 1 (by decide)
      · split
        · exact hcount.pauseIn hsw p _ _ _
        · split
          · exact hcount.pauseIn hsw p _ _ _
          · exact hcount
    · split
      · exact hbad _
      · exact hcount.ingress hsw p xs _ _

theorem Dev.Within.fabricRound : Dev.Within bs K d e.fabricRound := by
  unfold Dev.fabricRound
  split
  · exact (h.foldl _ fun g o _ => (Dev.Within.refl g).grantOut _ o).release hsw
  · exact h

theorem Dev.Within.xoffRefresh (p : Fin 8) : Dev.Within bs K d (e.xoffRefresh p) := by
  unfold Dev.xoffRefresh
  split
  · exact h
  · exact h.sendXoff hsw p _ _

theorem Dev.Within.pauseExpiry (p : Fin 8) : Dev.Within bs K d (e.pauseExpiry p) := by
  unfold Dev.pauseExpiry
  refine h.foldl _ fun g q _ => ?_
  split
  · exact (Dev.Within.refl g).setPaused hsw p _
  · exact .refl g

theorem Dev.Within.mcastExpiry (i : Fin 8) : Dev.Within bs K d (e.mcastExpiry i) :=
  (h.modPort i _).foldl _ fun g x _ => ((Dev.Within.refl g).count hsw x.1 1 (by decide)).swEvt hsw (by decide) rfl

theorem Dev.Within.auditPass (leaks : List Nat) (duals : Nat) : Dev.Within bs K d (e.auditPass leaks duals) := by
  unfold Dev.auditPass
  split
  · exact h
  · dsimp only
    refine Dev.Within.release hsw (Dev.Within.foldl ?_ _ fun g p _ => ?_)
    · split
      · exact h.modSw _
      · exact ((h.modSw _).setSwitch hsw _ (by decide) (by decide) (by decide)).swEvt hsw (by decide) rfl
    · split
      · exact ((Dev.Within.refl g).flushOut hsw p).swEvt hsw (by decide) rfl
      · exact .refl g

theorem Dev.Within.preemptVerify (p : Fin 2) (ok : Bool) :
    Dev.Within bs K d ((e.setB (Reg.SW_P_STAT_NOPREEMPT p.1) (!ok)).modPort (p8 p.1) (fun x => { x with preempt := ok })) :=
  (h.setSwitch hsw _ (Nat.le_of_ble_eq_true rfl) (by simp only [Reg.SW_P_STAT_NOPREEMPT, Reg.SW_P_STAT_at]; omega)
    (by simp only [Reg.SW_P_STAT_NOPREEMPT, Reg.SW_P_STAT_at]; omega)).modPort _ _

theorem Dev.Within.macCmd (src : Src) (w op : Nat) {act : Dev → Dev} (hact : ∀ g, Dev.Within bs K g (act g)) :
    Dev.Within bs K d (e.macCmd src w op act) := by
  unfold Dev.macCmd
  split
  · exact h.trans (e.within_onWrite src _ fun g => ((Dev.Within.refl g).setSwitch hsw _ (by decide) (by decide) (by decide)).trans (hact _))
  · exact h

theorem Dev.Within.macShow (x : Option MacEntry) : Dev.Within bs K d (e.macShow x) :=
  (((((h.setSwitch hsw _ (by decide) (by decide) (by decide)).setSwitch hsw _ (by decide) (by decide) (by decide)).setSwitch hsw _
    (by decide) (by decide) (by decide)).setSwitch hsw _ (by decide) (by decide) (by decide)).setSwitch hsw _
    (by decide) (by decide) (by decide)).setSwitch hsw _ (by decide) (by decide) (by decide)

theorem Dev.Within.vlanCmd (src : Src) (w : Nat) (wr : Bool) {act : Dev → Nat → Dev} (hact : ∀ g v, Dev.Within bs K g (act g v)) :
    Dev.Within bs K d (e.vlanCmd src w wr act) := by
  unfold Dev.vlanCmd
  split
  · refine h.trans (e.within_onWrite src _ fun g => ?_)
    have hwr : Dev.Within bs K g (g.setB Reg.SW_VLAN_CMD_WR wr) := (Dev.Within.refl g).setSwitch hsw _ (by decide) (by decide) (by decide)
    dsimp only
    split
    · exact hwr.logR9 src _
    · exact (hwr.setSwitch hsw _ (by decide) (by decide) (by decide)).trans (hact _ _)
  · exact h

theorem Dev.Within.cTransmit (word : Nat → Nat → Nat) (mem : Nat → Nat → List Byte) : Dev.Within bs K d (e.cTransmit word mem) := by
  unfold Dev.cTransmit
  dsimp only
  split
  · exact h
  · split
    · split
      · exact ((((h.count hsw 6 1 (by decide)).count hsw 6 _ (by decide)).ingress hsw 6 _ _ _).setSwitch hsw _
          (by decide) (by decide) (by decide)).pend (by decide)
      · exact h
    · exact h.engineFail _ _ _ _
    · exact h.engineFail _ _ _ _
    · exact h

/-! ### Removal of a port (R248, R249, R263) -/

omit h in
/-- Once the port is marked removed, its removal writes the switch core's registers alone. -/
theorem Dev.removePort_within {d : Dev} {p : Fin 8} (hp : d.removed p = false) (cause : Nat) :
    Dev.Within bs K ((d.setTb Reg.SYS_FENCE_PORT p.1 true).setF (Reg.SW_P_STAT_REMOVED p.1) 1) (d.removePort p cause) := by
  unfold Dev.removePort
  rw [if_neg (Bool.eq_false_iff.mp hp)]
  dsimp only
  generalize (d.setTb Reg.SYS_FENCE_PORT p.1 true).setF (Reg.SW_P_STAT_REMOVED p.1) 1 = e
  refine Dev.Within.release hsw (Dev.Within.swEvt hsw (Dev.Within.log ?_ _ _ _ _) (by decide) rfl)
  refine Dev.Within.modPort (Dev.Within.setPaused hsw (Dev.Within.setXoff hsw (Dev.Within.count hsw ?_ p _ (by decide)) p _) p _) p _
  have hdrop := (((Dev.Within.refl (K := K) e).flushOut hsw p).foldl (List.finRange 8) (k := fun d i =>
    (d.modPort i (fun x => { x with hold := x.hold.filter (fun h => h.1 != p), stage := x.stage.filter (fun g => g.1 != p) })).count p 10
      (((d.port i).hold.filter (fun h => h.1 == p)).length + ((d.port i).stage.filter (fun g => g.1 == p)).length))
    fun g i _ => ((Dev.Within.refl g).modPort i _).count hsw p _ (by decide)).macDrop (fun e => e.ports.testBit p.1)
  split
  · split
    · exact hdrop.count hsw _ 1 (by decide)
    · exact hdrop
  · exact hdrop

variable (hsys : Covers bs 0x20000000 0x20001000)
include hsys

theorem Dev.Within.removePort (p : Fin 8) (cause : Nat) : Dev.Within bs K d (e.removePort p cause) := by
  cases hp : e.removed p with
  | true => rwa [show e.removePort p cause = e from if_pos hp]
  | false =>
    have hmarked := (h.setTb (r := Reg.SYS_FENCE_PORT) p.1 true (by decide) (hsys _ (by decide) (by decide))).setSwitch hsw
      (r := Reg.SW_P_STAT_REMOVED p.1) 1 (Nat.le_of_ble_eq_true rfl)
      (by simp only [Reg.SW_P_STAT_REMOVED, Reg.SW_P_STAT_at]; omega) (by simp only [Reg.SW_P_STAT_REMOVED, Reg.SW_P_STAT_at]; omega)
    exact hmarked.trans (Dev.removePort_within hsw hp cause)

theorem Dev.Within.portRemoval (p : Fin 8) (cause : Nat) : Dev.Within bs K d (e.portRemoval p cause) := by
  have hif : ∀ (b : Bool) (c : Nat), Dev.Within bs K d (if b then e.removePort p c else e) := fun b c => by
    split
    · exact h.removePort hsw hsys p c
    · exact h
  unfold Dev.portRemoval
  split <;> exact hif _ _

theorem Dev.Within.reenablePort (p : Fin 8) : Dev.Within bs K d (e.reenablePort p) :=
  (h.setSwitch hsw _ (Nat.le_of_ble_eq_true rfl) (by simp only [Reg.SW_P_STAT_REMOVED, Reg.SW_P_STAT_at]; omega)
    (by simp only [Reg.SW_P_STAT_REMOVED, Reg.SW_P_STAT_at]; omega)).setTb _ _ (by decide) (hsys _ (by decide) (by decide))

theorem Dev.Within.portReenable (src : Src) (w : Nat) : Dev.Within bs K d (e.portReenable src w) := by
  refine h.trans (e.within_onWrite src _ fun g => (Dev.Within.refl g).foldl _ fun g p _ => ?_)
  split
  · split
    · exact (Dev.Within.refl g).reenablePort hsw hsys p
    · exact (Dev.Within.refl g).logRefused src _
  · exact .refl g

end

end

end Sys2Proof.Machine
end

section
/-!
PROOF. What the commands of the cascade, of network time and of the events may write (R254–R267, R30–R37, R278–R280, R433–R438).
-/

namespace Sys2Proof.Machine
open Sys2Proof

section
variable {bs : List (Nat × Nat)} {K : Prop} {d e : Dev}

/-! ### The cascade -/

section
variable (h : Dev.Within bs K d e)
include h

theorem Dev.Within.modJasia (g : Jasia → Jasia) : Dev.Within bs K d (e.modJasia g) := h.trans (.of_eq rfl rfl rfl ⟨rfl, rfl, rfl⟩)

theorem Dev.Within.originate (p : Fin 8) (barrier : Bool) (xs : List Byte) : Dev.Within bs K d (e.originate p barrier xs) := by
  unfold Dev.originate
  split
  · exact h
  · exact (h.modSw _).modPort p _

theorem Dev.Within.announce (barrier : Bool) (fs : List (Fin 8 × List Byte)) : Dev.Within bs K d (e.announce barrier fs) :=
  h.foldl _ fun g x _ => (Dev.Within.refl g).originate x.1 barrier x.2

theorem Dev.Within.sendBeacon : Dev.Within bs K d e.sendBeacon := (h.announce _ _).modJasia _

theorem Dev.Within.beaconSend : Dev.Within bs K d e.beaconSend := by
  unfold Dev.beaconSend
  split
  · exact h.sendBeacon
  · exact h

theorem Dev.Within.barrierRepeat : Dev.Within bs K d e.barrierRepeat := by
  unfold Dev.barrierRepeat
  split
  · split
    · exact (h.announce _ _).modJasia _
    · exact h
  · exact h

end

section
variable (hj : Covers bs 0x20058000 0x20060000) (h : Dev.Within bs K d e)
include hj h

/-- A setting of a register of the cascade. -/
theorem Dev.Within.setCascade {r : RF} (x : Nat) (hl : r.lo < 32) (hlo : 0x20058000 ≤ r.addr) (hhi : r.addr < 0x20060000) :
    Dev.Within bs K d (e.setF r x) := h.setF x hl (hj _ hlo hhi)

theorem Dev.Within.jasiaEvt {r : RF} (hl : r.lo < 32) (hlo : 0x20058000 ≤ r.addr) (hhi : r.addr < 0x20060000) : Dev.Within bs K d (e.jasiaEvt r) :=
  h.raise 1 (by decide) hl (hj _ hlo hhi)

theorem Dev.Within.jasiaCnt {j : Nat} (hlt : j < 16) : Dev.Within bs K d (e.jasiaCnt j) :=
  h.setCascade hj _ (Nat.le_of_ble_eq_true rfl) (by simp only [Reg.JASIA_CNT_COUNT, Reg.JASIA_CNT_at]; omega)
    (by simp only [Reg.JASIA_CNT_COUNT, Reg.JASIA_CNT_at]; omega)

theorem Dev.Within.enterBarrier (num inst : Nat) : Dev.Within bs K d (e.enterBarrier num inst) := by
  have hi : e.jasia.count % 16 < 16 := Nat.mod_lt _ (by decide)
  have hset : ∀ {g : Dev} (y : Nat), Dev.Within bs K d g → Dev.Within bs K d
      (((g.setF (Reg.JASIA_BAR_NUM_VALUE (e.jasia.count % 16)) num).setF64 (Reg.JASIA_BAR_INST_LO_VALUE (e.jasia.count % 16))
        (Reg.JASIA_BAR_INST_HI_VALUE (e.jasia.count % 16)) inst).setF (Reg.JASIA_BAR_ARR_VALUE (e.jasia.count % 16)) y) := fun y hg => by
    generalize e.jasia.count % 16 = i at hi ⊢
    refine ((hg.setCascade hj _ (Nat.le_of_ble_eq_true rfl) ?_ ?_).setF64 _ (Nat.le_of_ble_eq_true rfl) (Nat.le_of_ble_eq_true rfl) (hj _ ?_ ?_)
      (hj _ ?_ ?_)).setCascade hj _ (Nat.le_of_ble_eq_true rfl) ?_ ?_ <;>
    · simp only [Reg.JASIA_BAR_NUM_VALUE, Reg.JASIA_BAR_NUM_at, Reg.JASIA_BAR_INST_LO_VALUE, Reg.JASIA_BAR_INST_LO_at, Reg.JASIA_BAR_INST_HI_VALUE,
        Reg.JASIA_BAR_INST_HI_at, Reg.JASIA_BAR_ARR_VALUE, Reg.JASIA_BAR_ARR_at]
      omega
  unfold Dev.enterBarrier
  dsimp only
  split
  · exact (hset _ (h.modJasia _)).setCascade hj _ (by decide) (by decide) (by decide)
  · exact hset _ (h.modJasia _)

theorem Dev.Within.barrierRequest (num inst : Nat) : Dev.Within bs K d (e.barrierRequest num inst) := by
  have hres := fun x => h.setCascade hj (r := Reg.JASIA_REQ_STAT_RESULT) x (by decide) (by decide) (by decide)
  unfold Dev.barrierRequest
  dsimp only
  split
  · exact hres _
  · exact (((hres _).announce _ _).enterBarrier hj num inst).modJasia _

theorem Dev.Within.adopt (epoch master : Nat) : Dev.Within bs K d (e.adopt epoch master) := by
  have hset := ((h.setCascade hj (r := Reg.JASIA_STAT_EPOCH) epoch (by decide) (by decide) (by decide)).setCascade hj (r := Reg.JASIA_STAT_MASTER) master
    (by decide) (by decide) (by decide)).modJasia (fun j => { j with follows := true })
  unfold Dev.adopt
  split
  · dsimp only
    split
    · exact ((hset.setCascade hj _ (by decide) (by decide) (by decide)).modJasia _).jasiaEvt hj (by decide) (by decide) (by decide)
    · exact hset
  · exact h

theorem Dev.Within.barrierAccept (p : Fin 6) (xs : List Byte) (good : Bool) : Dev.Within bs K d (e.barrierAccept p xs good) := by
  have hadopt := h.adopt hj (jEpoch xs) (jMaster xs)
  unfold Dev.barrierAccept
  split
  · exact h
  · dsimp only
    generalize e.adopt (jEpoch xs) (jMaster xs) = g at hadopt ⊢
    have hcnt := hadopt.jasiaCnt hj (j := 0) (by decide)
    split
    · exact hadopt
    · split
      · split
        · exact hcnt.jasiaCnt hj (by decide)
        · exact (hcnt.jasiaCnt hj (by decide)).jasiaEvt hj (by decide) (by decide) (by decide)
      · have henter := hcnt.enterBarrier hj (jNumber xs) (jInstant xs)
        split
        · exact (henter.jasiaCnt hj (by decide)).jasiaEvt hj (by decide) (by decide) (by decide)
        · exact henter

theorem Dev.Within.topo : Dev.Within bs K d e.topo := by
  unfold Dev.topo
  split
  · exact h.setCascade hj _ (by decide) (by decide) (by decide)
  · split
    · exact h.setCascade hj _ (by decide) (by decide) (by decide)
    · exact h

theorem Dev.Within.beaconReceive (p : Fin 6) (xs : List Byte) (good : Bool) : Dev.Within bs K d (e.beaconReceive p xs good) := by
  have hhop : ∀ {g : Dev}, Dev.Within bs K d g → Dev.Within bs K d
      (if p = 0 then g.setF Reg.JASIA_POS_HOP_J0 (jHop xs) else if p = 1 then g.setF Reg.JASIA_POS_HOP_J1 (jHop xs) else g) := fun hg => by
    split
    · exact hg.setCascade hj _ (by decide) (by decide) (by decide)
    · split
      · exact hg.setCascade hj _ (by decide) (by decide) (by decide)
      · exact hg
  unfold Dev.beaconReceive
  split
  · exact h
  · exact (hhop (((h.adopt hj _ _).modJasia _).setCascade hj _ (by decide) (by decide) (by decide))).topo hj

theorem Dev.Within.beaconMiss (p : Fin 2) : Dev.Within bs K d (e.beaconMiss p) := by
  unfold Dev.beaconMiss
  split
  · split
    · exact ((h.jasiaCnt hj (by decide)).modJasia _).topo hj
    · exact h
  · exact h

theorem Dev.Within.loseMaster : Dev.Within bs K d e.loseMaster := by
  unfold Dev.loseMaster
  split
  · exact h
  · exact (((h.setCascade hj _ (by decide) (by decide) (by decide)).setCascade hj _ (by decide) (by decide) (by decide)).jasiaEvt hj
      (by decide) (by decide) (by decide)).modJasia _

theorem Dev.Within.takeOver : Dev.Within bs K d e.takeOver :=
  ((((((h.setCascade hj _ (by decide) (by decide) (by decide)).setCascade hj _ (by decide) (by decide) (by decide)).setCascade hj _
    (by decide) (by decide) (by decide)).modJasia _).setCascade hj _ (by decide) (by decide) (by decide)).jasiaEvt hj
    (by decide) (by decide) (by decide)).sendBeacon

theorem Dev.Within.masterLost : Dev.Within bs K d e.masterLost := by
  unfold Dev.masterLost
  split
  · dsimp only
    split
    · exact (h.loseMaster hj).takeOver hj
    · exact h.loseMaster hj
  · exact h

end

section
variable (hsw : Covers bs 0x20050000 0x20058000) (h : Dev.Within bs K d e)
include hsw h

theorem Dev.Within.jCopy (p : Fin 6) (xs : List Byte) (good : Bool) (o : Fin 8) (branch : Bool) : Dev.Within bs K d (e.jCopy p xs good o branch) := by
  unfold Dev.jCopy
  dsimp only
  generalize (if branch = true then splice (splice xs 18 (leBytes 2 (jHop xs + 1))) 17
    (leBytes 1 (setBit (leAt (splice xs 18 (leBytes 2 (jHop xs + 1))) 17 1) 1 true)) else splice xs 18 (leBytes 2 (jHop xs + 1))) = ys
  split
  · exact h
  · exact h.copyTo hsw _ _ _

variable (hj : Covers bs 0x20058000 0x20060000)
include hj

theorem Dev.Within.jasiaForward (p : Fin 6) (xs : List Byte) (good : Bool) : Dev.Within bs K d (e.jasiaForward p xs good) := by
  have hsent : ∀ good, Dev.Within bs K d (if p.1 < 2 then (e.branches).foldl (fun d o => d.jCopy p xs good o true) (e.jCopy p xs good (p8 (1 - p.1)) false)
      else e.jCopy p xs good 1 false) := fun good => by
    split
    · exact (h.jCopy hsw p xs good _ _).foldl _ fun g o _ => (Dev.Within.refl g).jCopy hsw p xs good o true
    · exact h.jCopy hsw p xs good _ _
  unfold Dev.jasiaForward
  dsimp only
  split
  · exact h
  · split
    · exact h.jasiaCnt hj (by decide)
    · split
      · exact h
      · split
        · exact (hsent _).modJasia _
        · exact hsent _

theorem Dev.Within.linkChange (p : Fin 8) (up : Bool) (mbps : Nat) : Dev.Within bs K d (e.linkChange p up mbps) := by
  have hlink : ∀ g : SwPort → SwPort, Dev.Within bs K d (((e.setB (Reg.SW_P_STAT_LINK p.1) up).pend (40 + p.1)).modPort p g) := fun g =>
    ((h.setSwitch hsw _ (Nat.le_of_ble_eq_true rfl) (by simp only [Reg.SW_P_STAT_LINK, Reg.SW_P_STAT_at]; omega)
      (by simp only [Reg.SW_P_STAT_LINK, Reg.SW_P_STAT_at]; omega)).pend (by omega)).modPort p g
  unfold Dev.linkChange
  split
  · exact h
  · dsimp only
    split
    · have hr : (if p = 0 then Reg.JASIA_STAT_J0_UP else Reg.JASIA_STAT_J1_UP).lo < 32 ∧
          0x20058000 ≤ (if p = 0 then Reg.JASIA_STAT_J0_UP else Reg.JASIA_STAT_J1_UP).addr ∧
          (if p = 0 then Reg.JASIA_STAT_J0_UP else Reg.JASIA_STAT_J1_UP).addr < 0x20060000 := by split <;> decide
      generalize (if p = 0 then Reg.JASIA_STAT_J0_UP else Reg.JASIA_STAT_J1_UP) = r at hr ⊢
      obtain ⟨hl, hlo, hhi⟩ := hr
      have hup := fun g => (hlink g).setB up hl (hj _ hlo hhi)
      split
      · exact hup _
      · have hbreak := fun g => (hup g).raise (r := Reg.JASIA_EVT_BREAK) 1 (i := 49) (by decide) (by decide) (hj _ (by decide) (by decide))
        split
        · exact (hbreak _).setCascade hj (r := Reg.JASIA_STAT_TOPO) _ (by decide) (by decide) (by decide)
        · exact hbreak _
    · exact hlink _

end

section
variable (hj : Covers bs 0x20058000 0x20060000) (hsw : Covers bs 0x20050000 0x20058000) (hsys : Covers bs 0x20000000 0x20001000) (h : Dev.Within bs K d e)
include hj hsw hsys h

theorem Dev.Within.autoReenable (p : Fin 2) : Dev.Within bs K d (e.autoReenable p) := by
  have hif : ∀ b : Bool, Dev.Within bs K d (if b then (e.reenablePort (p8 p.1)).jasiaEvt Reg.JASIA_EVT_RELINK else e) := fun b => by
    split
    · exact (h.reenablePort hsw hsys _).jasiaEvt hj (by decide) (by decide) (by decide)
    · exact h
  exact hif _

end

end

end Sys2Proof.Machine
end

section
/-!
PROOF. What the commands of network time and of the events may write, and the frame of every network command.
-/

namespace Sys2Proof.Machine
open Sys2Proof

section
variable {bs : List (Nat × Nat)} {K : Prop} {d e : Dev}

/-! ### The time base and network time (R30–R37, R278–R280) -/

section
variable (h : Dev.Within bs K d e)
include h

theorem Dev.Within.setPtp (x : Ptp) : Dev.Within bs K d (e.setPtp x) := h.trans (.of_eq rfl rfl rfl ⟨rfl, rfl, rfl⟩)
theorem Dev.Within.setRelock (x : Bool) : Dev.Within bs K d (e.setRelock x) := h.trans (.of_eq rfl rfl rfl ⟨rfl, rfl, rfl⟩)
theorem Dev.Within.setSup (x : Sup) : Dev.Within bs K d (e.setSup x) := h.trans (.of_eq rfl rfl rfl ⟨rfl, rfl, rfl⟩)
theorem Dev.Within.setCapHigh (x : List (Nat × Nat × Nat)) : Dev.Within bs K d (e.setCapHigh x) := h.trans (.of_eq rfl rfl rfl ⟨rfl, rfl, rfl⟩)

theorem Dev.Within.romStop (code : Nat) : Dev.Within bs K d (e.romStop code) :=
  ((h.setSup _).setF _ (by decide) (.of_reset (by decide))).setF _ (by decide) (.of_reset (by decide))

theorem Dev.Within.romWaits : Dev.Within bs K d e.romWaits := by
  unfold Dev.romWaits
  split
  · exact h.romStop 11
  · exact h

theorem Dev.Within.pulseEnd (p : Fin 8) : Dev.Within bs K d (match e.ptp.pulse[p] with
    | some t => if t ≤ e.now then (e.setPtp { e.ptp with tout := setBit e.ptp.tout p.1 false, pulse := put e.ptp.pulse p none }) else e
    | none => e) := by
  split
  · split
    · exact h.setPtp _
    · exact h
  · exact h

theorem Dev.Within.cmpAct (i : Fin 16) : Dev.Within bs K d (e.cmpAct i) := by
  have hif : ∀ (b : Bool) (x : Ptp), Dev.Within bs K d (if b then e else e.setPtp x) := fun b x => by
    split
    · exact h
    · exact h.setPtp x
  exact hif _ _

end

section
variable (htb : Covers bs 0x20003000 0x20004000) (h : Dev.Within bs K d e)
include htb h

/-- A setting of a register of the time base. -/
theorem Dev.Within.setTime {r : RF} (x : Nat) (hl : r.lo < 32) (hlo : 0x20003000 ≤ r.addr) (hhi : r.addr < 0x20004000) :
    Dev.Within bs K d (e.setF r x) := h.setF x hl (htb _ hlo hhi)

theorem Dev.Within.lineUpdate : Dev.Within bs K d e.lineUpdate := h.setB _ (by decide) (htb _ (by decide) (by decide))

theorem Dev.Within.tbLock : Dev.Within bs K d e.tbLock := by
  unfold Dev.tbLock
  dsimp only
  split
  · exact h.romWaits.setRelock true
  · exact (h.romWaits.setTime htb _ (by decide) (by decide) (by decide)).lineUpdate htb

theorem Dev.Within.slewShow (on : Bool) : Dev.Within bs K d (e.slewShow on) := by
  unfold Dev.slewShow
  split
  · exact h
  · exact (h.setB _ (by decide) (htb _ (by decide) (by decide))).pend (by decide)

theorem Dev.Within.cmpArm (src : Src) (i : Fin 16) (hi : Nat) : Dev.Within bs K d (e.cmpArm src i hi) := by
  have hctl : ∀ {g : Dev} {r : RF} (x : Nat), Dev.Within bs K d g → r.lo < 32 → r.addr = Reg.TB_CMP_CTL_at i.1 → Dev.Within bs K d (g.setF r x) :=
    fun x hg hl ha => hg.setTime htb x hl (by rw [ha]; simp only [Reg.TB_CMP_CTL_at]; omega) (by rw [ha]; simp only [Reg.TB_CMP_CTL_at]; omega)
  unfold Dev.cmpArm
  dsimp only
  split
  · refine Dev.Within.setPtp (hctl _ (hctl _ ((h.unhold src _).setF64 _ (Nat.le_of_ble_eq_true rfl) (Nat.le_of_ble_eq_true rfl) (htb _ ?_ ?_)
      (htb _ ?_ ?_)) (Nat.le_of_ble_eq_true rfl) rfl) (Nat.le_of_ble_eq_true rfl) rfl) _ <;>
    · simp only [Reg.TB_CMP_LO_VALUE, Reg.TB_CMP_LO_at, Reg.TB_CMP_HI_VALUE, Reg.TB_CMP_HI_at]
      omega
  · exact hctl _ (h.unhold src _) (Nat.le_of_ble_eq_true rfl) rfl

theorem Dev.Within.cmpFire (i : Fin 16) : Dev.Within bs K d (e.cmpFire i) := by
  have hraise := (h.cmpAct i).raise (r := Reg.TB_TRIG_EVT_CMP) (2 ^ i.1) (i := 52) (by decide) (by decide) (htb _ (by decide) (by decide))
  unfold Dev.cmpFire
  split
  · dsimp only
    split
    · exact hraise.setTime htb _ (Nat.le_of_ble_eq_true rfl) (by simp only [Reg.TB_CMP_CTL_ARMED, Reg.TB_CMP_CTL_at]; omega)
        (by simp only [Reg.TB_CMP_CTL_ARMED, Reg.TB_CMP_CTL_at]; omega)
    · exact hraise.setPtp _
  · exact h

theorem Dev.Within.setCapStat {r : RF} {n : Fin 8} (x : Nat) (hl : r.lo < 32) (ha : r.addr = Reg.TB_CAP_STAT_at n.1) : Dev.Within bs K d (e.setF r x) :=
  h.setTime htb x hl (by rw [ha]; simp only [Reg.TB_CAP_STAT_at]; omega) (by rw [ha]; simp only [Reg.TB_CAP_STAT_at]; omega)

theorem Dev.Within.capture (n : Fin 8) (rising : Bool) : Dev.Within bs K d (e.capture n rising) := by
  unfold Dev.capture
  generalize (e.f (Reg.TB_CAP_CTL_EDGE n.1)).testBit (if rising = true then 0 else 1) = selected
  dsimp only
  split
  · split
    · exact ((h.setPtp _).setCapStat htb (r := Reg.TB_CAP_STAT_COUNT n.1) _ (Nat.le_of_ble_eq_true rfl) rfl).raise (r := Reg.TB_TRIG_EVT_CAP) _ (i := 53)
        (by decide) (by decide) (htb _ (by decide) (by decide))
    · exact (h.note _ _).setCapStat htb (r := Reg.TB_CAP_STAT_OVF n.1) _ (Nat.le_of_ble_eq_true rfl) rfl
  · exact h

theorem Dev.Within.capturePop (src : Src) (n : Fin 8) : Dev.Within bs K d (e.capturePop src n) := by
  unfold Dev.capturePop
  split
  next g hg => exact h.trans (Dev.within_guard hg)
  next => exact (((h.answer _).setCapHigh _).setPtp _).setCapStat htb (n := n) _ (Nat.le_of_ble_eq_true rfl) rfl

variable (hptp : Covers bs 0x20060000 0x20070000)
include hptp

theorem Dev.Within.adjust (src : Src) (w : Nat) : Dev.Within bs K d (e.adjust src w) := by
  unfold Dev.adjust
  dsimp only
  split
  · exact ((h.raise _ (by decide) (by decide) (hptp _ (by decide) (by decide))).bump _ (by decide) (hptp _ (by decide) (by decide))).log _ _ _ _
  · exact (h.setTime htb _ (by decide) (by decide) (by decide)).slewShow htb _

theorem Dev.Within.servo (src : Src) (w : Nat) : Dev.Within bs K d (e.servo src w) := by
  refine h.trans (e.within_onWrite src _ fun g => ?_)
  have hrest : Dev.Within bs K g (g.writeRest src Reg.PTP_SERVO_at w []) := (Dev.Within.refl g).writeRest src w [] (hptp _ (by decide) (by decide))
  have hif : ∀ {d e : Dev} (b : Bool) (x : Ptp), Dev.Within bs K d e → Dev.Within bs K d (if b then e.setPtp x else e) := fun b x he => by
    split
    · exact he.setPtp x
    · exact he
  have hkick : ∀ {e : Dev} (b : Bool) (x : Ptp), Dev.Within bs K g e → Dev.Within bs K g (if b then (e.setF Reg.PTP_STAT_HOLDOVER 0).setPtp x else e) :=
    fun b x he => by
      split
      · exact (he.setF _ (by decide) (hptp _ (by decide) (by decide))).setPtp x
      · exact he
  exact (hkick _ _ (hif _ _ hrest)).lineUpdate htb

theorem Dev.Within.holdoverExpiry : Dev.Within bs K d
    (if e.bit Reg.PTP_STAT_HOLDOVER && !e.ptp.expired && decide (e.ptp.holdAt + 400000000 * e.f Reg.PTP_HOLD_MAX ≤ e.now) then
      (Dev.lineUpdate (e.setPtp { e.ptp with expired := true })).raise Reg.PTP_EVT_HOLD_EXP 1 50 else e) := by
  split
  · exact ((h.setPtp _).lineUpdate htb).raise _ (by decide) (by decide) (hptp _ (by decide) (by decide))
  · exact h

end

theorem Dev.Within.holdoverEntry (hptp : Covers bs 0x20060000 0x20070000) (h : Dev.Within bs K d e) : Dev.Within bs K d
    (if e.bit Reg.PTP_SERVO_LOCKED && !e.bit Reg.PTP_STAT_HOLDOVER && decide (e.ptp.kickAt + 400000 * e.f Reg.PTP_HOLD_TO ≤ e.now)
      then ((e.setF Reg.PTP_STAT_HOLDOVER 1).setPtp { e.ptp with holdAt := e.now }) else e) := by
  split
  · exact (h.setF _ (by decide) (hptp _ (by decide) (by decide))).setPtp _
  · exact h

/-! ### Events (R433–R438) -/

section
variable (h : Dev.Within bs K d e)
include h

theorem Dev.Within.routeWrite (src : Src) (i : Fin 96) (w : Nat) : Dev.Within bs K d (e.routeWrite src i.1 w) := by
  unfold Dev.routeWrite
  dsimp only
  generalize (if bits w 0 2 = 3 then e.f (Reg.EVT_ROUTE_KIND i.1) else bits w 0 2) = kind
  split
  · exact h.logRefused src _
  · split
    · exact h.logR9 src _
    · exact h.writeRest src w [] (.of_event (by simp only [Reg.EVT_ROUTE_at]; omega))

theorem Dev.Within.enableWrite (src : Src) (w : Fin 3) (x : Nat) : Dev.Within bs K d (e.enableWrite src w.1 x) := by
  have hevt : InBlocks bs (Reg.EVT_EN_SRC w.1).addr := .of_event (by simp only [Reg.EVT_EN_SRC, Reg.EVT_EN_at]; omega)
  have hall : Dev.Within bs K d (forEach 32 e (fun d j =>
      if x.testBit j == (e.f (Reg.EVT_EN_SRC w.1)).testBit j then d
      else if bar0 src && d.f (Reg.EVT_ROUTE_KIND (32 * w.1 + j)) == 1 then d
      else
        if x.testBit j && (d.setTb (Reg.EVT_EN_SRC w.1) j (x.testBit j)).tb (Reg.EVT_PEND_SRC w.1) j then
          (d.setTb (Reg.EVT_EN_SRC w.1) j (x.testBit j)).deliver (32 * w.1 + j) else d.setTb (Reg.EVT_EN_SRC w.1) j (x.testBit j))) := by
    refine h.foldl _ fun g j _ => ?_
    have hset : Dev.Within bs K g (g.setTb (Reg.EVT_EN_SRC w.1) j (x.testBit j)) := (Dev.Within.refl g).setTb j _ (Nat.le_of_ble_eq_true rfl) hevt
    split
    · exact .refl g
    · split
      · exact .refl g
      · split
        · exact hset.trans (.of_reports (Dev.deliver_same _ _) fun r _ => Dev.f_of_regs (Dev.deliver_regs _ _) r)
        · exact hset
  unfold Dev.enableWrite
  dsimp only
  split
  · exact h.logRefused src _
  · split
    · exact hall
    · exact hall.logRefused src _

theorem Dev.Within.softwareEvent (x : Nat) : Dev.Within bs K d (e.softwareEvent x) := by
  refine h.foldl _ fun g j hj => ?_
  have := List.mem_range.mp hj
  split
  · exact (Dev.Within.refl g).pend (by omega)
  · exact .refl g

theorem Dev.Within.logSelect (i : Nat) : Dev.Within bs K d (e.logSelect i) := by
  refine ((h.setF _ (by decide) (.of_event (by decide))).setB _ (by decide) (.of_event (by decide))).foldl _ fun g j hj => ?_
  have := List.mem_range.mp hj
  exact (Dev.Within.refl g).setF _ (Nat.le_of_ble_eq_true rfl) (.of_event (by simp only [Reg.EVT_LOG_W_WORD, Reg.EVT_LOG_W_at]; omega))

theorem Dev.Within.logCi (src : Src) (c : Nat) : Dev.Within bs K d (e.logCi src c) := by
  unfold Dev.logCi
  split
  · exact h.setF _ (by decide) (.of_event (by decide))
  · exact h.logRefused src _

end

end

/-! ### The obligation -/

section
variable {bs : List (Nat × Nat)} {i : Instr} {s : State} {d : Dev}

/-- A command that stays within its blocks is framed, its cores included. -/
theorem Dev.Within.answers (hs : Clean s) (he : exec i s = s.done d) (h : Dev.Within bs True s.dev d) :
    Answers i s (fun t => (∀ r : RF, Apart bs r → t.dev.f r = s.dev.f r) ∧ t.dev.vats = s.dev.vats ∧ t.dev.cores = s.dev.cores ∧ SameMem s t) := by
  obtain ⟨t, ht, hpend, hf, hv, hc, hm⟩ := h.framed hs he
  exact ⟨t, ht, hpend, hf, hv, hc trivial, hm⟩

end

/-- Settles O58: every meaning is a chain of settings in its blocks, reports and changes of the unit's own state. -/
theorem networkCommandsStayInTheirBlocks : Obligations.NetworkCommandsStayInTheirBlocks := by
  unfold Obligations.NetworkCommandsStayInTheirBlocks
  intro i bs s hi hs
  have r : ∀ {bs : List (Nat × Nat)} (d : Dev), Dev.Within bs True d d := .refl
  have hsw : Covers [(0x20050000, 0x20058000)] 0x20050000 0x20058000 := .of_first le_rfl le_rfl
  have hnet : ∀ lo hi, 0x20050000 ≤ lo → hi ≤ 0x20060000 → Covers [(0x20050000, 0x20060000)] lo hi := fun _ _ h1 h2 => .of_first h1 h2
  have hrem : ∀ lo hi, 0x20050000 ≤ lo → hi ≤ 0x20060000 → Covers [(0x20000000, 0x20001000), (0x20050000, 0x20060000)] lo hi := fun _ _ h1 h2 => .of_second h1 h2
  have hsys : Covers [(0x20000000, 0x20001000), (0x20050000, 0x20060000)] 0x20000000 0x20001000 := .of_first le_rfl le_rfl
  have hj : Covers [(0x20058000, 0x20060000)] 0x20058000 0x20060000 := .of_first le_rfl le_rfl
  have htb : Covers [(0x20003000, 0x20004000), (0x20060000, 0x20070000)] 0x20003000 0x20004000 := .of_first le_rfl le_rfl
  have hptp : Covers [(0x20003000, 0x20004000), (0x20060000, 0x20070000)] 0x20060000 0x20070000 := .of_second le_rfl le_rfl
  unfold netOwn at hi
  split at hi
  all_goals cases hi
  · exact ((r s.dev).frameReceive hsw _ _ _ _).answers hs rfl
  · exact ((r s.dev).fabricRound hsw).answers hs rfl
  · exact ((r s.dev).xoffRefresh hsw _).answers hs rfl
  · exact ((r s.dev).pauseIn hsw _ _ _ _).answers hs rfl
  · exact ((r s.dev).pauseExpiry hsw _).answers hs rfl
  · exact ((r s.dev).ageOut _).answers hs rfl
  · exact ((r s.dev).mcastExpiry hsw _).answers hs rfl
  · exact ((r s.dev).auditPass hsw _ _).answers hs rfl
  · exact ((r s.dev).preemptVerify hsw _ _).answers hs rfl
  · exact ((r s.dev).macCmd hsw _ _ _ fun g => (r g).macShow hsw _).answers hs rfl
  · refine ((r s.dev).macCmd hsw _ _ _ fun g => ?_).answers hs rfl
    dsimp only
    split
    · exact (r g).macPut _
    · exact (r g).macDrop _
  · refine ((r s.dev).macCmd hsw _ _ _ fun g => ?_).answers hs rfl
    split
    · exact ((r g).setSwitch hsw _ (by decide) (by decide) (by decide)).setSwitch hsw _ (by decide) (by decide) (by decide)
    · exact (r g).setSwitch hsw _ (by decide) (by decide) (by decide)
  · exact ((r s.dev).macCmd hsw _ _ _ fun g => (r g).macDrop _).answers hs rfl
  · exact ((r s.dev).macCmd hsw _ _ _ fun g => (r g).macDrop _).answers hs rfl
  · exact ((r s.dev).vlanCmd hsw _ _ _ fun g _ => ((((r g).setSwitch hsw _ (by decide) (by decide) (by decide)).setSwitch hsw _
      (by decide) (by decide) (by decide)).setB _ (by decide) (hsw _ (by decide) (by decide)))).answers hs rfl
  · exact ((r s.dev).vlanCmd hsw _ _ _ fun g _ => (r g).modSw _).answers hs rfl
  · exact ((r s.dev).cTransmit hsw _ _).answers hs rfl
  · exact ((r s.dev).portRemoval (hrem _ _ le_rfl (by decide)) hsys _ _).answers hs rfl
  · exact ((r s.dev).portReenable (hrem _ _ le_rfl (by decide)) hsys _ _).answers hs rfl
  · exact ((r s.dev).autoReenable (hrem _ _ (by decide) le_rfl) (hrem _ _ le_rfl (by decide)) hsys _).answers hs rfl
  · exact ((r s.dev).linkChange (hnet _ _ le_rfl (by decide)) (hnet _ _ (by decide) le_rfl) _ _ _).answers hs rfl
  · exact ((r s.dev).jasiaForward (hnet _ _ le_rfl (by decide)) (hnet _ _ (by decide) le_rfl) _ _ _).answers hs rfl
  · exact (s.dev.within_onWrite _ _ fun g => ((((r g).unhold _ _).setCascade hj _ (by decide) (by decide) (by decide)).setCascade hj _
      (by decide) (by decide) (by decide)).barrierRequest hj _ _).answers hs rfl
  · exact ((r s.dev).barrierAccept hj _ _ _).answers hs rfl
  · exact ((r s.dev).barrierRepeat).answers hs rfl
  · exact ((r s.dev).beaconReceive hj _ _ _).answers hs rfl
  · exact ((r s.dev).beaconMiss hj _).answers hs rfl
  · exact ((r s.dev).beaconSend).answers hs rfl
  · exact ((r s.dev).masterLost hj).answers hs rfl
  · refine Dev.Within.answers hs rfl ?_
    split
    · exact (r s.dev).servo htb hptp _ _
    · exact r s.dev
  · exact ((r s.dev).holdoverEntry hptp).answers hs rfl
  · exact ((r s.dev).holdoverExpiry htb hptp).answers hs rfl
  · exact (s.dev.within_onWrite _ _ fun g => (r g).cmpArm htb _ _ _).answers hs rfl
  · exact ((r s.dev).cmpFire htb _).answers hs rfl
  · exact ((r s.dev).pulseEnd _).answers hs rfl
  · exact ((r s.dev).capture htb _ _).answers hs rfl
  · exact ((r s.dev).capturePop htb _ _).answers hs rfl
  · exact (s.dev.within_onWrite _ _ fun g => (r g).adjust htb hptp _ _).answers hs rfl
  · exact ((r s.dev).tbLock htb).answers hs rfl
  · refine Dev.Within.answers hs rfl ?_
    split
    · exact (r s.dev).slewShow htb _
    · exact r s.dev
  · exact (s.dev.within_onWrite _ _ fun g => (r g).routeWrite _ _ _).answers hs rfl
  · exact (s.dev.within_onWrite _ _ fun g => (r g).enableWrite _ _ _).answers hs rfl
  · exact (s.dev.within_onWrite _ _ fun g => (r g).softwareEvent _).answers hs rfl
  · exact (s.dev.within_onWrite _ _ fun g => (r g).logSelect _).answers hs rfl
  · exact (s.dev.within_onWrite _ _ fun g => (r g).logCi _ _).answers hs rfl

end Sys2Proof.Machine
end

section
/-!
PROOF. What a command of one vat's lane, measurement path or sweep may write.
-/

namespace Sys2Proof.Machine
open Sys2Proof

/-- The VAT and LANE blocks of vat `v`, and its word of SYS_CHAN_AVAIL. -/
def vatBlocks (v : Fin 16) : List (Nat × Nat) :=
  [(0x20010000 + 0x1000 * v.1, 0x20011000 + 0x1000 * v.1), (0x20020000 + 0x1000 * v.1, 0x20021000 + 0x1000 * v.1),
    (Reg.SYS_CHAN_AVAIL_at (v.1 / 2), Reg.SYS_CHAN_AVAIL_at (v.1 / 2) + 1)]

/-- From `d` to `e` only registers of vat `v` change, its engines and no other vat's, and no memory. -/
structure Dev.InVat (v : Fin 16) (d e : Dev) : Prop where
  f : ∀ r : RF, Apart (vatBlocks v) r → e.f r = d.f r
  others : ∀ u : Fin 16, u ≠ v → e.vats[u] = d.vats[u]
  spares : Dev.SparesMem d e

/-- A field of the VAT block of vat `v`. -/
def RF.InVatBlock (v : Fin 16) (r : RF) : Prop := r.lo < 32 ∧ 0x20010000 + 0x1000 * v.1 ≤ r.addr ∧ r.addr < 0x20011000 + 0x1000 * v.1

/-- A field of the LANE block of vat `v`. -/
def RF.InLaneBlock (v : Fin 16) (r : RF) : Prop := r.lo < 32 ∧ 0x20020000 + 0x1000 * v.1 ≤ r.addr ∧ r.addr < 0x20021000 + 0x1000 * v.1

section
variable {v : Fin 16} {d e g : Dev}

theorem Dev.InVat.refl (d : Dev) : Dev.InVat v d d := ⟨fun _ _ => rfl, fun _ _ => rfl, ⟨rfl, rfl, rfl⟩⟩

theorem Dev.InVat.trans (h : Dev.InVat v d e) (h' : Dev.InVat v e g) : Dev.InVat v d g :=
  ⟨fun r hr => (h'.f r hr).trans (h.f r hr), fun u hu => (h'.others u hu).trans (h.others u hu), h.spares.trans h'.spares⟩

theorem Dev.Within.inVat (h : Dev.Within (vatBlocks v) True d e) : Dev.InVat v d e :=
  ⟨h.f, fun u _ => congrArg (fun x : Vector Vat 16 => x[u]) h.vats, h.spares⟩

theorem Dev.inVat_onWrite (d : Dev) (src : Src) (a : Nat) {act : Dev → Dev} (h : ∀ d, Dev.InVat v d (act d)) : Dev.InVat v d (d.onWrite src a act) := by
  unfold Dev.onWrite
  split
  next d' hg => exact (Dev.within_guard hg).inVat
  next => exact (((Dev.Within.refl d).answer 0).inVat).trans (h _)

section
variable (h : Dev.InVat v d e)
include h

theorem Dev.InVat.within (h' : ∀ {bs : List (Nat × Nat)}, Dev.Within bs True e g) : Dev.InVat v d g := h.trans h'.inVat

theorem Dev.InVat.modVat (x : Vat → Vat) : Dev.InVat v d (e.modVat v x) :=
  h.trans ⟨fun _ _ => rfl, fun u hu => (Dev.vats_modVat e v u x).trans (if_neg (Ne.symm hu)), ⟨rfl, rfl, rfl⟩⟩

theorem Dev.InVat.modLane (x : Lane → Lane) : Dev.InVat v d (e.modLane v x) := h.modVat _
theorem Dev.InVat.modChan (k : Fin 16) (x : Chan → Chan) : Dev.InVat v d (e.modChan v k x) := h.modVat _
theorem Dev.InVat.modMeas (k : Fin 16) (x : Meas → Meas) : Dev.InVat v d (e.modMeas v k x) := h.modVat _
theorem Dev.InVat.modImp (x : Imp → Imp) : Dev.InVat v d (e.modImp v x) := h.modVat _

theorem Dev.InVat.emit (o : Output) : Dev.InVat v d (e.emit o) := h.within ((Dev.Within.refl e).emit o)

theorem Dev.InVat.logRefused (src : Src) (a : Nat) : Dev.InVat v d (e.logRefused src a) := h.within ((Dev.Within.refl e).logRefused src a)

theorem Dev.InVat.pend {i : Nat} (hi : i < 4096) : Dev.InVat v d (e.pend i) := h.within ((Dev.Within.refl e).pend hi)

theorem Dev.InVat.foldl {α : Type} {k : Dev → α → Dev} (xs : List α) (hk : ∀ d, ∀ x ∈ xs, Dev.InVat v d (k d x)) : Dev.InVat v d (xs.foldl k e) :=
  List.foldlRecOn xs k (motive := Dev.InVat v d) h (fun g hg x hx => hg.trans (hk g x hx))

/-- A setting of a register of the vat's own. -/
theorem Dev.InVat.setOwn {r : RF} (x : Nat) (hl : r.lo < 32) (ha : InBlocks (vatBlocks v) r.addr) : Dev.InVat v d (e.setF r x) :=
  h.trans (e.within_setF x hl ha).inVat

theorem Dev.InVat.setV {r : RF} (x : Nat) (hr : r.InVatBlock v) : Dev.InVat v d (e.setF r x) := h.setOwn x hr.1 (.of_first hr.2)

theorem Dev.InVat.setL {r : RF} (x : Nat) (hr : r.InLaneBlock v) : Dev.InVat v d (e.setF r x) := h.setOwn x hr.1 (.of_second hr.2)

theorem Dev.InVat.setAvail (mask : Nat) : Dev.InVat v d (e.setAvail v mask) :=
  h.setOwn _ (Nat.le_of_ble_eq_true rfl) ⟨_, .tail _ (.tail _ (.tail _ (.tail _ (.tail _ (.head _))))), Nat.le_refl _, Nat.lt_succ_self _⟩

theorem Dev.InVat.writeRest (src : Src) {a : Nat} (w : Nat) (own : List Nat) (ha : InBlocks (vatBlocks v) a) :
    Dev.InVat v d (e.writeRest src a w own) := h.trans ((Dev.Within.refl e).writeRest src w own ha).inVat

theorem Dev.InVat.laneEvt {r : RF} (hr : r.InLaneBlock v) : Dev.InVat v d (e.laneEvt v r) :=
  h.trans ((Dev.Within.refl e).raise 1 (by omega) hr.1 (.of_second hr.2)).inVat

end

end

/-! ### The fields of a vat and its lane -/

section
variable (v : Fin 16)

theorem inVat_stat {r : RF} (hl : r.lo < 32) (ha : r.addr = Reg.VAT_STAT_at v.1) : r.InVatBlock v :=
  ⟨hl, by rw [ha]; simp only [Reg.VAT_STAT_at]; omega⟩

theorem inVat_laneStat {r : RF} (hl : r.lo < 32) (ha : r.addr = Reg.LANE_STAT_at v.1) : r.InLaneBlock v :=
  ⟨hl, by rw [ha]; simp only [Reg.LANE_STAT_at]; omega⟩

theorem inVat_laneEvt {r : RF} (hl : r.lo < 32) (ha : r.addr = Reg.LANE_EVT_at v.1) : r.InLaneBlock v :=
  ⟨hl, by rw [ha]; simp only [Reg.LANE_EVT_at]; omega⟩

theorem inVat_bregCtl {r : RF} (hl : r.lo < 32) (ha : r.addr = Reg.LANE_BREG_CTL_at v.1) : r.InLaneBlock v :=
  ⟨hl, by rw [ha]; simp only [Reg.LANE_BREG_CTL_at]; omega⟩

theorem inVat_laneCtl {r : RF} (hl : r.lo < 32) (ha : r.addr = Reg.LANE_CTL_at v.1) : r.InLaneBlock v :=
  ⟨hl, by rw [ha]; simp only [Reg.LANE_CTL_at]; omega⟩

end

section
variable {v : Fin 16} {d e : Dev} (h : Dev.InVat v d e)
include h

/-! ### Training (R72–R77) -/

theorem Dev.InVat.setLaneStat {r : RF} (x : Nat) (hl : r.lo < 32) (ha : r.addr = Reg.LANE_STAT_at v.1) : Dev.InVat v d (e.setF r x) :=
  h.setL x (inVat_laneStat v hl ha)

theorem Dev.InVat.setBregCtl {r : RF} (x : Nat) (hl : r.lo < 32) (ha : r.addr = Reg.LANE_BREG_CTL_at v.1) : Dev.InVat v d (e.setF r x) :=
  h.setL x (inVat_bregCtl v hl ha)

theorem Dev.InVat.abandonCfg : Dev.InVat v d (e.abandonCfg v) := by
  have hif : ∀ b : Bool, Dev.InVat v d (if b then ((e.modLane v (fun l => { l with cfgQ := [], cfgOut := none })).setF (Reg.LANE_BREG_CTL_BUSY v.1) 0).setF
      (Reg.LANE_BREG_CTL_RESULT v.1) 3 else e.modLane v (fun l => { l with cfgQ := [], cfgOut := none })) := fun b => by
    have hcleared := h.modLane (fun l => { l with cfgQ := [], cfgOut := none })
    split
    · exact (hcleared.setBregCtl _ (Nat.le_of_ble_eq_true rfl) rfl).setBregCtl _ (Nat.le_of_ble_eq_true rfl) rfl
    · exact hcleared
  exact hif _

theorem Dev.InVat.leaveService : Dev.InVat v d (e.leaveService v) :=
  ((h.setV _ (inVat_stat v (Nat.le_of_ble_eq_true rfl) rfl)).setAvail 0).abandonCfg

theorem Dev.InVat.enterLock : Dev.InVat v d (e.enterLock v) := by
  unfold Dev.enterLock
  refine Dev.InVat.modLane (Dev.InVat.setV (Dev.InVat.setLaneStat (Dev.InVat.setLaneStat (Dev.InVat.setLaneStat h.leaveService _
    (Nat.le_of_ble_eq_true rfl) rfl) _ (Nat.le_of_ble_eq_true rfl) rfl) _ (Nat.le_of_ble_eq_true rfl) rfl) _ ⟨Nat.le_of_ble_eq_true rfl, ?_⟩) _
  simp only [Reg.VAT_VBUS_VBUS, Reg.VAT_VBUS_at]
  omega

theorem Dev.InVat.enterOff : Dev.InVat v d (e.enterOff v) :=
  (((h.leaveService.setLaneStat _ (Nat.le_of_ble_eq_true rfl) rfl).setLaneStat _ (Nat.le_of_ble_eq_true rfl) rfl).setLaneStat _
    (Nat.le_of_ble_eq_true rfl) rfl).modLane _

theorem Dev.InVat.trainFail (code : Nat) : Dev.InVat v d (e.trainFail v code) := by
  have hoff := (h.enterOff.setL code (inVat_laneStat v (r := Reg.LANE_STAT_TRN_FAIL v.1) (Nat.le_of_ble_eq_true rfl) rfl))
  unfold Dev.trainFail
  dsimp only
  split
  · exact hoff.modLane _
  · exact (hoff.modLane _).laneEvt (inVat_laneEvt v (Nat.le_of_ble_eq_true rfl) rfl)

theorem Dev.InVat.badBlock : Dev.InVat v d (e.badBlock v) :=
  ((h.setL _ ⟨Nat.le_of_ble_eq_true rfl, by simp only [Reg.LANE_ERR_HDR_COUNT, Reg.LANE_ERR_HDR_at]; omega⟩).modLane _).laneEvt
    (inVat_laneEvt v (Nat.le_of_ble_eq_true rfl) rfl)

/-- A block with a valid header is filed in its slot. -/
theorem Dev.InVat.slot_valid : Dev.InVat v d (e.slot v true) := by
  unfold Dev.slot
  simp only [Bool.not_true, Bool.false_and, Bool.false_eq_true, reduceIte]
  exact h.modLane _

theorem Dev.InVat.trnBlock (payload : Nat) : Dev.InVat v d (e.trnBlock v payload) := by
  have hblock : ∀ ok : Bool, Dev.InVat v d ((e.blockIn v hdrCtl ok).addPayload v payload) := fun ok => by
    refine Dev.InVat.modLane (Dev.InVat.slot_valid ?_) _
    split
    · exact h
    · exact h.badBlock
  unfold Dev.trnBlock
  dsimp only
  split
  · split
    · exact hblock _
    · have hup := (hblock (blockType payload == 0xC3)).setLaneStat (r := Reg.LANE_STAT_BRD_LOCK v.1)
        (if decide (bits (content payload) 0 4 = 1) then 1 else 0) (Nat.le_of_ble_eq_true rfl) rfl
      split
      · exact hup.trainFail 1
      · split
        · split
          · split
            · exact (hup.modLane _).trainFail 2
            · split
              · exact (hup.modLane _).trainFail 3
              · exact hup.modLane _
          · exact hup.modLane _
        · exact hup
  · exact h

theorem Dev.InVat.laneCtl (src : Src) (w : Nat) : Dev.InVat v d (e.laneCtl src v w) := by
  unfold Dev.laneCtl
  refine h.trans (e.inVat_onWrite src _ fun g => ?_)
  have hctl : RF.InLaneBlock v (Reg.LANE_CTL_EN v.1) := inVat_laneCtl v (Nat.le_of_ble_eq_true rfl) rfl
  have hrest : Dev.InVat v g ((g.writeRest src (Reg.LANE_CTL_at v.1) w [0]).setB (Reg.LANE_CTL_EN v.1) (w.testBit 0)) :=
    ((Dev.InVat.refl g).writeRest src w [0] (.of_second hctl.2)).setL _ hctl
  dsimp only
  split
  · exact (Dev.InVat.refl g).logRefused src _
  · split
    · split
      · exact hrest.enterOff
      · exact hrest
    · split
      · exact (hrest.modLane _).enterLock
      · exact hrest

theorem Dev.InVat.trainingTimeout : Dev.InVat v d
    (if e.training v && (e.lane v).lockAt + 400000 * e.f (Reg.LANE_CTL_TRN_TO v.1) ≤ e.now then e.trainFail v (if e.laneState v = laneLock then 1 else 7)
      else e) := by
  split
  · exact h.trainFail _
  · exact h

theorem Dev.InVat.trainingRetry : Dev.InVat v d (match (e.lane v).restAt with
    | some t =>
      if e.laneState v = laneOff ∧ e.bit (Reg.LANE_CTL_EN v.1) ∧ t + 4000000 ≤ e.now then
        (e.modLane v (fun l => { l with retries := l.retries + 1 })).enterLock v
      else e
    | none => e) := by
  split
  · split
    · exact (h.modLane _).enterLock
    · exact h
  · exact h

/-! ### Board registers and KILLs (R61–R66) -/

theorem Dev.InVat.bregGo (src : Src) (w : Nat) : Dev.InVat v d (e.bregGo src v w) := by
  unfold Dev.bregGo
  refine h.trans (e.inVat_onWrite src _ fun g => ?_)
  have hctl : RF.InLaneBlock v (Reg.LANE_BREG_CTL_BUSY v.1) := inVat_bregCtl v (Nat.le_of_ble_eq_true rfl) rfl
  have hrest : Dev.InVat v g (g.writeRest src (Reg.LANE_BREG_CTL_at v.1) w []) := (Dev.InVat.refl g).writeRest src w [] (.of_second hctl.2)
  dsimp only
  split
  · exact hrest
  · split
    · exact (hrest.setL _ hctl).modLane _
    · exact hrest.setBregCtl _ (Nat.le_of_ble_eq_true rfl) rfl

theorem Dev.InVat.takeSlot (payload : Nat) (o : Output) : Dev.InVat v d (e.takeSlot v payload o) := (h.modLane _).emit o

theorem Dev.InVat.cfgSend : Dev.InVat v d (e.cfgSend v) := by
  unfold Dev.cfgSend
  split
  · dsimp only
    split
    · exact (h.modLane _).takeSlot _ _
    · exact h
  · exact h

theorem Dev.InVat.cfgTimeout : Dev.InVat v d (e.cfgTimeout v) := by
  unfold Dev.cfgTimeout
  split
  · split
    · exact h
    · split
      · exact h.modLane _
      · have hevt := (h.modLane (fun l => { l with cfgOut := none })).laneEvt (r := Reg.LANE_EVT_CFG_TIMEOUT v.1)
          (inVat_laneEvt v (Nat.le_of_ble_eq_true rfl) rfl)
        dsimp only
        split
        · exact hevt
        · exact (hevt.setBregCtl _ (Nat.le_of_ble_eq_true rfl) rfl).setBregCtl _ (Nat.le_of_ble_eq_true rfl) rfl
  · exact h

theorem Dev.InVat.sendKill (mask cause kseq : Nat) : Dev.InVat v d (e.sendKill v mask cause kseq) := (h.modLane _).takeSlot _ _

theorem Dev.InVat.killEmit : Dev.InVat v d (e.killEmit v) := by
  unfold Dev.killEmit
  split
  · dsimp only
    split
    · refine Dev.InVat.sendKill (Dev.InVat.setL (h.modLane _) _ ⟨Nat.le_of_ble_eq_true rfl, ?_⟩) _ _ _
      simp only [Reg.LANE_KILL_CNT_COUNT, Reg.LANE_KILL_CNT_at]
      omega
    · exact h
  · exact h

theorem Dev.InVat.killRepeat : Dev.InVat v d (e.killRepeat v) := by
  unfold Dev.killRepeat
  split
  · dsimp only
    split
    · exact (h.modLane _).sendKill _ _ _
    · exact h
  · exact h

/-! ### The measurement path and the ledger (R78–R90, R170–R180) -/

theorem Dev.InVat.modfClear (k : Fin 16) (cur : Bool) : Dev.InVat v d (e.modfClear v k cur) := by
  have hif : ∀ b : Bool, Dev.InVat v d (if b then e.setTb (if cur then Reg.VAT_MODF_I v.1 else Reg.VAT_MODF_V v.1) k.1 false else e) := fun b => by
    split
    · refine h.setV _ ?_
      split
      · exact ⟨Nat.le_of_ble_eq_true rfl, by simp only [Reg.VAT_MODF_I, Reg.VAT_MODF_at]; omega⟩
      · exact ⟨Nat.le_of_ble_eq_true rfl, by simp only [Reg.VAT_MODF_V, Reg.VAT_MODF_at]; omega⟩
    · exact h
  exact hif _

theorem Dev.InVat.fastSample (k : Fin 16) : Dev.InVat v d (e.fastSample v k) := by
  unfold Dev.fastSample
  dsimp only
  split
  · split
    · exact h
    · split
      · exact h.modMeas k _
      · split
        · exact h.modMeas k _
        · split
          · exact (h.modMeas k _).modChan k _
          · exact (h.modMeas k _).modChan k _
  · exact h

theorem Dev.InVat.divergeChan (k : Fin 16) : Dev.InVat v d (e.divergeChan v k) := by
  unfold Dev.divergeChan
  dsimp only
  split
  · exact h
  · exact (h.setV _ ⟨Nat.le_of_ble_eq_true rfl, by simp only [Reg.VAT_LDG_DIV_CH, Reg.VAT_LDG_DIV_at]; omega⟩).pend (by decide)

theorem Dev.InVat.diverge (k : Fin 16) (t : Nat) : Dev.InVat v d (e.diverge v k t) := by
  unfold Dev.diverge
  dsimp only
  split
  · exact (h.modVat _).divergeChan k
  · exact h

theorem Dev.InVat.divergeBut (late : Nat) : Dev.InVat v d (e.divergeBut v late) :=
  (h.modVat _).foldl _ fun g k _ => (Dev.InVat.refl g).divergeChan k

theorem Dev.InVat.divergenceCheck : Dev.InVat v d (e.divergenceCheck v) := by
  unfold Dev.divergenceCheck
  split
  · exact (h.modVat _).divergeBut _
  · exact h

theorem Dev.InVat.impSample (k : Fin 16) (cur : Bool) (z : ZOut) : Dev.InVat v d (e.impSample v k cur z) := by
  unfold Dev.impSample
  exact h.modImp _

theorem Dev.InVat.sinc4Output (k : Fin 16) (cur : Bool) : Dev.InVat v d (e.sinc4Output v k cur) := by
  unfold Dev.sinc4Output
  split
  next z m _ =>
    have hdiv : Dev.InVat v d (if cur then e.diverge v k (640 * z.m) else e) := by
      split
      · exact h.diverge k _
      · exact h
    dsimp only
    generalize (if cur = true then 640 * z.m else 2560 * z.m - 2880) = t
    generalize (if cur = true then e.diverge v k (640 * z.m) else e) = g at hdiv ⊢
    split
    · exact h
    · exact (hdiv.modMeas k _).impSample k cur z
  next => exact h

theorem Dev.InVat.calJudge (k : Fin 16) (q : CalReq) : Dev.InVat v d (e.calJudge v k q) := by
  unfold Dev.calJudge
  split
  · exact (h.modMeas k _).setV _ ⟨Nat.le_of_ble_eq_true rfl, by simp only [Reg.VAT_CAL_GEN_GEN, Reg.VAT_CAL_GEN_at]; omega⟩
  · exact h.logRefused _ _

theorem Dev.InVat.calPass (a mask : Nat) : Dev.InVat v d (e.calPass v a mask) := by
  unfold Dev.calPass
  exact Dev.InVat.modVat (Dev.InVat.foldl (h.modVat _) _ fun g q _ => Dev.InVat.foldl (.refl g) _ fun g k _ => (Dev.InVat.refl g).calJudge k q) _

theorem Dev.InVat.calApply : Dev.InVat v d (e.calApply v) := by
  refine h.foldl _ fun g q _ => ?_
  split
  · exact (Dev.InVat.refl g).calPass _ _
  · exact .refl g

theorem Dev.InVat.calDue : Dev.InVat v d (e.calDue v) := by
  refine h.foldl _ fun g q _ => ?_
  split
  · exact (Dev.InVat.refl g).calPass _ _
  · exact .refl g

theorem Dev.InVat.handWords (failed : Bool) : Dev.InVat v d (e.handWords v failed) := by
  unfold Dev.handWords
  split
  · exact h.foldl _ fun g k _ => (Dev.InVat.refl g).modMeas k _
  · exact h

theorem Dev.InVat.closeChan (k : Fin 16) (x : Nat) : Dev.InVat v d (e.closeChan v k x) := by
  have hall : ∀ {g : Dev} (n : Nat) (cur : Bool), Dev.InVat v d g → Dev.InVat v d (forEach n g (fun d _ => d.sinc4Output v k cur)) := fun n cur hg =>
    hg.foldl _ fun g _ _ => (Dev.InVat.refl g).sinc4Output k cur
  exact (hall _ false (hall _ true (h.modMeas k _))).modMeas k _

theorem Dev.InVat.ledgerClose : Dev.InVat v d (e.ledgerClose v) := by
  unfold Dev.ledgerClose
  split
  · split
    · split
      · refine Dev.InVat.setV (Dev.InVat.divergeBut (Dev.InVat.foldl ((h.calDue.handWords true).modLane _) _ fun g k _ =>
          (Dev.InVat.refl g).closeChan k _) 0) _ ⟨Nat.le_of_ble_eq_true rfl, ?_⟩
        simp only [Reg.VAT_LDG_CLOSED_CLOSED, Reg.VAT_LDG_CLOSED_at]
        omega
      · exact h
    · exact h
  · exact h

theorem Dev.InVat.fenceDone : Dev.InVat v d (e.fenceDone v) := by
  unfold Dev.fenceDone
  split
  · exact h.setV _ (inVat_stat v (Nat.le_of_ble_eq_true rfl) rfl)
  · exact h

theorem Dev.InVat.snapshot (k : Fin 16) : Dev.InVat v d (e.snapshot v k) := by
  have hts : InBlocks (vatBlocks v) (Reg.VAT_LDG_SNAPTS_LO_at v.1) ∧ InBlocks (vatBlocks v) (Reg.VAT_LDG_SNAPTS_HI_at v.1) :=
    ⟨.of_first (by simp only [Reg.VAT_LDG_SNAPTS_LO_at]; omega), .of_first (by simp only [Reg.VAT_LDG_SNAPTS_HI_at]; omega)⟩
  unfold Dev.snapshot
  refine Dev.InVat.foldl (Dev.InVat.foldl (h.trans ((Dev.Within.refl e).setF64 _ (Nat.le_of_ble_eq_true rfl) (Nat.le_of_ble_eq_true rfl) hts.1 hts.2).inVat) _
    fun g w hw => ?_) _ fun g w hw => ?_
  · have := List.mem_range.mp hw
    exact (Dev.InVat.refl g).setV _ ⟨Nat.le_of_ble_eq_true rfl, by simp only [Reg.VAT_LDG_TOT_WORD, Reg.VAT_LDG_TOT_at]; omega⟩
  · have := List.mem_range.mp hw
    exact (Dev.InVat.refl g).setV _ ⟨Nat.le_of_ble_eq_true rfl, by simp only [Reg.VAT_LDG_STEP_WORD, Reg.VAT_LDG_STEP_at]; omega⟩

theorem Dev.InVat.impCtl (src : Src) (w : Nat) : Dev.InVat v d (e.impCtl src v w) := by
  unfold Dev.impCtl
  dsimp only
  refine h.trans (e.inVat_onWrite src _ fun g => ?_)
  have hstart : Dev.InVat v g (if w.testBit 0 then
      (if g.bit (Reg.IMP_STAT_BUSY v.1) then g.logRefused src (Reg.IMP_CTL_at v.1) else g.modImp v (fun i => { i with startReq := some g.now }))
      else g) := by
    split
    · split
      · exact (Dev.InVat.refl g).logRefused src _
      · exact (Dev.InVat.refl g).modImp _
    · exact .refl g
  have hif : ∀ {e : Dev} (b : Bool), Dev.InVat v g e → Dev.InVat v g (if b then e.impAskStop v else e) := fun b he => by
    split
    · exact he.modImp _
    · exact he
  exact hif _ hstart

end

/-! ### The obligation -/

/-- What a command within its vat answers. -/
def VatFramed (v : Fin 16) (i : Instr) (s : State) : Prop :=
  Answers i s (fun t => (∀ r : RF, Apart (vatBlocks v) r → t.dev.f r = s.dev.f r) ∧ (∀ u : Fin 16, u ≠ v → t.dev.vats[u] = s.dev.vats[u]) ∧ SameMem s t)

theorem Dev.InVat.answers {v : Fin 16} {i : Instr} {s : State} {d : Dev} (hs : Clean s) (he : exec i s = s.done d) (h : Dev.InVat v s.dev d) :
    VatFramed v i s := by
  obtain hheld | hlive := Bool.eq_false_or_eq_true s.dev.sup.held
  · exact ⟨s, he.trans (if_pos hheld), rfl, fun _ _ => rfl, fun _ _ => rfl, fun _ => rfl⟩
  · exact Answers.of_done hlive he ⟨fun r hr => (State.commit_f s d r).trans (h.f r hr), h.others, s.commit_sameMem hs h.spares⟩

/-- A command that acts only on a condition. -/
theorem Dev.InVat.ite {v : Fin 16} {d e : Dev} (c : Prop) [Decidable c] (h : Dev.InVat v d e) : Dev.InVat v d (if c then e else d) := by
  split
  · exact h
  · exact .refl d

/-- Settles O60: every meaning is a chain of settings in the vat's blocks, reports and changes of the vat's own engines. -/
theorem vatCommandsStayInTheirVat : Obligations.VatCommandsStayInTheirVat := by
  unfold Obligations.VatCommandsStayInTheirVat
  intro i v s hi hs
  have r : ∀ d : Dev, Dev.InVat v d d := .refl
  unfold vatOwn at hi
  split at hi
  all_goals cases hi
  · exact ((r s.dev).modfClear _ _).answers hs rfl
  · exact ((r s.dev).divergenceCheck).answers hs rfl
  · exact ((r s.dev).fenceDone).answers hs rfl
  · exact ((r s.dev).ledgerClose).answers hs rfl
  · refine (s.dev.inVat_onWrite _ _ fun g => ?_).answers hs rfl
    dsimp only
    split
    · exact r g
    · exact (r g).modVat _
  · exact ((r s.dev).calApply).answers hs rfl
  · exact (s.dev.inVat_onWrite _ _ fun g => (r g).snapshot _).answers hs rfl
  · exact ((r s.dev).fastSample _).answers hs rfl
  · exact ((r s.dev).sinc4Output _ _).answers hs rfl
  · exact ((r s.dev).modMeas _ _).answers hs rfl
  · exact (((r s.dev).impCtl _ _).ite _).answers hs rfl
  · exact (((r s.dev).impCtl _ _).ite _).answers hs rfl
  · exact ((r s.dev).trnBlock _).answers hs rfl
  · exact (((r s.dev).laneCtl _ _).ite _).answers hs rfl
  · refine Dev.InVat.answers hs rfl ?_
    split
    · exact r s.dev
    · exact (r s.dev).laneCtl _ _
  · exact (((r s.dev).laneCtl _ _).ite _).answers hs rfl
  · exact ((r s.dev).trainingTimeout).answers hs rfl
  · exact ((r s.dev).trainingRetry).answers hs rfl
  · exact (((r s.dev).bregGo _ _).ite _).answers hs rfl
  · exact (((r s.dev).bregGo _ _).ite _).answers hs rfl
  · exact ((r s.dev).cfgSend).answers hs rfl
  · exact ((r s.dev).cfgTimeout).answers hs rfl
  · exact ((r s.dev).killEmit).answers hs rfl
  · exact ((r s.dev).killRepeat).answers hs rfl

end Sys2Proof.Machine
end

section
/-!
PROOF. What the delivery of records leaves of a vat (R181–R190): its channels, and the instants of their precision outputs.
-/

namespace Sys2Proof.Machine
open Sys2Proof

/-- A field of a VAT block, or of the slices' states and ledgers or their rings' set-up, that no loss of a record counts in. -/
def RF.OffStream (r : RF) : Prop :=
  r.lo < 32 ∧ (0x20010000 ≤ r.addr ∧ r.addr < 0x20020000 ∨ 0x20031000 ≤ r.addr ∧ r.addr < 0x20040000 ∨
      0x20040000 ≤ r.addr ∧ r.addr < 0x20050000 ∧ r.addr % 0x400 < 0x80) ∧
    ∀ v : Fin 16, r.addr ≠ Reg.VAT_LDG_DROP_at v.1

theorem RF.OffStream.offEvents {r : RF} (h : r.OffStream) {s : Nat} (hs : s < 64) : r.OffEvents s := by
  obtain ⟨hl, ha, -⟩ := h
  unfold RF.OffEvents
  simp only [Reg.SLICE_EVT_at, Reg.DPL_PI_at, Reg.DPL_STAT_at, Reg.SLC_RING_STAT_at, Reg.SLC_EVT_LOST_at]
  omega

/-- Between two states of a vat its channels stay, and what precision output each is to form next. -/
def Vat.Streamed (x y : Vat) : Prop := y.chans = x.chans ∧ ∀ k : Fin 16, (y.meas[k]).fromT = (x.meas[k]).fromT

/-- From `d` to `e` records have moved: no channel, no instant of a precision output and no field but of their own changes. -/
structure Dev.Streams (d e : Dev) : Prop where
  now : e.now = d.now
  f : ∀ r : RF, r.OffStream → e.f r = d.f r
  vats : ∀ v : Fin 16, Vat.Streamed d.vats[v] e.vats[v]

section
variable {d e g : Dev}

theorem Dev.Streams.refl (d : Dev) : Dev.Streams d d := ⟨rfl, fun _ _ => rfl, fun _ => ⟨rfl, fun _ => rfl⟩⟩

theorem Dev.Streams.trans (h : Dev.Streams d e) (h' : Dev.Streams e g) : Dev.Streams d g :=
  ⟨h'.now.trans h.now, fun r hr => (h'.f r hr).trans (h.f r hr), fun v => ⟨(h'.vats v).1.trans (h.vats v).1, fun k => ((h'.vats v).2 k).trans ((h.vats v).2 k)⟩⟩

theorem Dev.Streams.of_vats (hf : ∀ r : RF, r.OffStream → e.f r = d.f r) (hv : e.vats = d.vats)
    (hn : e.now = d.now) : Dev.Streams d e :=
  ⟨hn, hf, fun v => by rw [hv]; exact ⟨rfl, fun _ => rfl⟩⟩

theorem Dev.Streams.chan (h : Dev.Streams d e) (v k : Fin 16) : e.chan v k = d.chan v k :=
  congrArg (fun x : Vector Chan 16 => x[k]) (h.vats v).1

theorem Dev.Streams.fromT (h : Dev.Streams d e) (v k : Fin 16) : (e.measOf v k).fromT = (d.measOf v k).fromT := (h.vats v).2 k

theorem Dev.streams_modVat (d : Dev) (v : Fin 16) {x : Vat → Vat} (hx : ∀ y, Vat.Streamed y (x y)) : Dev.Streams d (d.modVat v x) := by
  refine ⟨rfl, fun _ _ => rfl, fun u => ?_⟩
  rw [Dev.vats_modVat]
  split
  next hu => exact hu ▸ hx _
  next => exact ⟨rfl, fun _ => rfl⟩

/-- A change of the measurement state of one channel that keeps its next precision output. -/
theorem Dev.streams_modMeas (d : Dev) (v k : Fin 16) {x : Meas → Meas} (hx : ∀ m, (x m).fromT = m.fromT) : Dev.Streams d (d.modMeas v k x) :=
  d.streams_modVat v fun y => ⟨rfl, fun j => by
    show ((put y.meas k (x y.meas[k]))[j]).fromT = _
    rw [getElem_put]
    split
    next hj => exact hj ▸ hx _
    next => rfl⟩

theorem Dev.streams_buffer (d : Dev) (x : SEntry) : Dev.Streams d (d.buffer x) := d.streams_modVat _ fun _ => ⟨rfl, fun _ => rfl⟩

theorem Dev.streams_unbuffer (d : Dev) (x : SEntry) : Dev.Streams d (d.unbuffer x) := by
  refine ⟨rfl, fun _ _ => rfl, fun v => ?_⟩
  show Vat.Streamed d.vats[v] (d.vats.map (fun y => { y with sbuf := y.sbuf.erase x }))[v]
  have hmap : (d.vats.map (fun y => { y with sbuf := y.sbuf.erase x }))[v] = { d.vats[v] with sbuf := d.vats[v].sbuf.erase x } :=
    Vector.getElem_map _ v.2
  rw [hmap]
  exact ⟨rfl, fun _ => rfl⟩

theorem Dev.streams_ringPut (d : Dev) (s : Nat) (r : Fin 8) (bs : List Byte) (c : Option Nat) : Dev.Streams d (d.ringPut s r bs c) :=
  .of_vats (fun x hx => Dev.keeps_ringPut (s := 0) d s r bs c x (hx.offEvents (by decide))) (d.ringPut_vats s r bs c) (d.ringPut_work s r bs c).now

theorem Dev.streams_ringCheck (d : Dev) {s : Nat} (hs : s < 64) (r : Fin 8) : Dev.Streams d (d.ringCheck s r) := by
  unfold Dev.ringCheck
  split
  next a _ =>
    have hstop : Dev.Streams d (d.stopRing s r .write a) :=
      .of_vats (fun x hx => Dev.keeps_stopRing d r .write a x (hx.offEvents hs)) (d.engineFail_vats 8 s .write a)
        (d.engineFail_work 8 s .write a).now
    refine hstop.trans ?_
    unfold Dev.dmaEvent
    split
    · exact .refl _
    · exact .of_vats (fun x hx => Dev.keeps_eventAt _ 8 none r.1 _ _ x (hx.offEvents hs)) (Dev.eventAt_vats _ s 8 none r.1 _ _)
        (Dev.eventAt_work _ hs 8 none r.1 _ _).now
  next => exact .refl d

theorem Dev.streams_closeBlock (d : Dev) (s x : Nat) (es : List (List Byte)) : Dev.Streams d (d.closeBlock s x es).2 := by
  unfold Dev.closeBlock
  dsimp only
  split
  · exact .of_vats (fun _ _ => rfl) rfl rfl
  · exact .of_vats (fun _ _ => rfl) rfl rfl

theorem Dev.streams_writeStream (d : Dev) {s : Nat} (hs : s < 64) (x : Nat) (en : SEntry) : Dev.Streams d (d.writeStream s x en) := by
  have hput := d.streams_ringPut s (streamRing x) en.bytes (some (ringCause (streamRing x).1))
  unfold Dev.writeStream
  dsimp only
  generalize d.ringPut s (streamRing x) en.bytes (some (ringCause (streamRing x).1)) = e at hput ⊢
  split
  · split
    · exact hput.trans (.of_vats (fun _ _ => rfl) rfl rfl)
    · have hclose := (hput.trans (e.streams_closeBlock s x ((e.slices[sl s]).blk[x5 x] ++ [en.bytes]))).trans (Dev.streams_ringCheck _ hs (streamRing x))
      split
      · exact hclose.trans (Dev.streams_ringPut _ _ _ _ _)
      · exact hclose.trans (Dev.streams_buffer _ _)
  · exact hput

theorem Dev.streams_bumpDrop (d : Dev) (v : Fin 16) (n : Nat) : Dev.Streams d (d.bump (Reg.VAT_LDG_DROP_COUNT v.1) n) :=
  .of_vats (fun _ hr => Dev.f_setF_off d _ (Nat.le_of_ble_eq_true rfl) hr.1 fun hc => hr.2.2 v hc.1) rfl rfl

theorem Dev.streams_loseRecord (d : Dev) (v k : Fin 16) (en : SEntry) : Dev.Streams d (d.loseRecord v k en) := by
  have hgap : Dev.Streams d (d.modMeas v k (fun m => { m with ckGap := true })) := d.streams_modMeas v k fun _ => rfl
  unfold Dev.loseRecord
  dsimp only
  split
  · refine (hgap.trans (Dev.streams_modVat _ v ?_)).trans (Dev.streams_bumpDrop _ v 1)
    exact fun _ => ⟨rfl, fun _ => rfl⟩
  · refine (hgap.trans (Dev.streams_modVat _ v ?_)).trans (Dev.streams_bumpDrop _ v _)
    exact fun _ => ⟨rfl, fun _ => rfl⟩

theorem Dev.streams_keep (d : Dev) (v k : Fin 16) (en : SEntry) : Dev.Streams d (d.keep v k en) := by
  unfold Dev.keep
  split
  · exact d.streams_buffer _
  · split
    · exact d.streams_buffer _
    · exact d.streams_loseRecord v k en

theorem Dev.streams_keepDue (d : Dev) (s x : Nat) : Dev.Streams d (d.keepDue s x) :=
  List.foldlRecOn _ _ (motive := Dev.Streams d) (.refl d) fun g hg en _ => hg.trans ((g.streams_unbuffer en).trans (Dev.streams_keep _ _ _ en))

theorem Dev.streams_deliverStream {s : Nat} (hs : s < 64) (x n : Nat) : ∀ d : Dev, Dev.Streams d (d.deliverStream s x n) := by
  induction n with
  | zero => exact .refl
  | succ n ih =>
    intro d
    unfold Dev.deliverStream
    split
    next en _ _ =>
      split
      · exact .refl d
      · have hcheck := d.streams_ringCheck hs (streamRing x)
        dsimp only
        split
        · exact ((hcheck.trans (Dev.streams_unbuffer _ en)).trans (Dev.streams_writeStream _ hs x en)).trans (ih _)
        · exact hcheck.trans (Dev.streams_keepDue _ s x)
    next => exact .refl d

theorem Dev.streams_putRecord (d : Dev) (v k : Fin 16) (en : SEntry) : Dev.Streams d (d.putRecord v k en) := by
  unfold Dev.putRecord
  refine Dev.Streams.trans ?_ (Dev.streams_deliverStream en.slice.isLt en.ring _ _)
  split
  · exact d.streams_buffer _
  · exact d.streams_keep v k en

theorem Dev.streams_record (d : Dev) (v k : Fin 16) (o : Prec) (a b : Bool) : Dev.Streams d (d.record v k o a b) := by
  unfold Dev.record
  dsimp only
  split
  · split
    · exact (d.streams_modMeas v k (x := fun m => { m with seq := (m.seq + 1) % 2 ^ 32 }) fun _ => rfl).trans (Dev.streams_putRecord _ v k _)
    · exact .refl d
  · exact .refl d

theorem Dev.streams_sealWaiting (d : Dev) (s x : Nat) (es : List SEntry) : Dev.Streams d (d.sealWaiting s x es) := by
  refine ⟨rfl, fun _ _ => rfl, fun v => ?_⟩
  have hmap : (d.sealWaiting s x es).vats[v] = { d.vats[v] with sbuf := d.vats[v].sbuf.map (fun e =>
      if e.slice = sl s ∧ e.ring = x ∧ es.contains e then { e with sealed := true } else e) } := Vector.getElem_map _ v.2
  rw [hmap]
  exact ⟨rfl, fun _ => rfl⟩

theorem Dev.streams_closeOver (s x : Nat) (es : List SEntry) : ∀ (d : Dev) (cur : List (List Byte)) (at_ : Nat × Nat),
    Dev.Streams d (d.closeOver s x cur at_ es).1 := by
  induction es with
  | nil =>
    intro d cur at_
    unfold Dev.closeOver
    split
    · exact .refl d
    · exact d.streams_closeBlock s x cur
  | cons e es ih =>
    intro d cur at_
    unfold Dev.closeOver
    dsimp only
    split
    · exact ih d _ _
    · exact (d.streams_closeBlock s x _).trans (ih _ _ _)

theorem Dev.streams_closeStream (d : Dev) {s : Nat} (hs : s < 64) (x : Nat) (last : Bool) : Dev.Streams d (d.closeStream s x last) := by
  unfold Dev.closeStream
  split
  · have hdeliver := Dev.streams_deliverStream hs x (2 * (d.waiting s x).length + 2) d
    dsimp only
    have hkeep : Dev.Streams d (if (d.deliver5 s x).ringReady s (streamRing x) then d.deliver5 s x else (d.deliver5 s x).keepDue s x) := by
      split
      · exact hdeliver
      · exact hdeliver.trans (Dev.streams_keepDue _ s x)
    generalize (if (d.deliver5 s x).ringReady s (streamRing x) then d.deliver5 s x else (d.deliver5 s x).keepDue s x) = g at hkeep ⊢
    refine List.foldlRecOn _ _ (motive := Dev.Streams d)
      (hkeep.trans ((g.streams_sealWaiting s x _).trans (Dev.streams_closeOver s x _ _ _ _))) fun y hy en _ => ?_
    have hcheck : ∀ b : Bool, Dev.Streams y (if b then y.ringCheck s (streamRing x) else y) := fun b => by
      cases b
      · exact .refl y
      · exact y.streams_ringCheck hs _
    have hput : ∀ (z : Dev) (b : Bool), Dev.Streams z
        (if b then z.ringPut s (streamRing x) en.bytes (some (ringCause (streamRing x).1)) else z.buffer en) := fun z b => by
      split
      · exact z.streams_ringPut s (streamRing x) en.bytes _
      · exact z.streams_buffer en
    exact hy.trans ((hcheck _).trans (hput _ _))
  · exact .refl d

theorem Dev.streams_closeBlocks (d : Dev) {s : Nat} (hs : s < 64) (last : Bool) : Dev.Streams d (d.closeBlocks s last) := by
  unfold Dev.closeBlocks forEach
  exact List.foldlRecOn _ _ (motive := Dev.Streams d) (.refl d) fun g hg x _ => hg.trans (g.streams_closeStream hs x last)

end

end Sys2Proof.Machine
end

section
/-!
PROOF. The measurement path (R80–R90): fast samples, precision outputs, rate changes, and calibration commits.
-/

namespace Sys2Proof.Machine
open Sys2Proof

theorem Dev.measOf_modChan (d : Dev) (v k v' k' : Fin 16) (g : Chan → Chan) : (d.modChan v k g).measOf v' k' = d.measOf v' k' :=
  d.measOf_modVat v v' k' fun _ => rfl

/-! ### Fast samples (R80, R88) -/

section
variable {s : State} {v k : Fin 16} {t : Nat} {yi yv : Int} {fi fv : Sinc2}

/-- The device once an output of both fast filters, due at one instant, is taken. -/
def Dev.fastTaken (d : Dev) (v k : Fin 16) (t : Nat) (yi yv : Int) (fi fv : Sinc2) : Dev :=
  let x := (d.measOf v k).fast t yi yv (d.iFs v) (d.vFs v)
  let e := d.modMeas v k (fun m => { m with fi := fi, fv := fv })
  if (t - 25 * k.1) % 400 = 0 then e.modChan v k (fun c => { c with win := x }) else e.modChan v k (fun c => { c with half := x })

theorem Dev.fastSample_taken {d : Dev} (hi : (d.measOf v k).fi.pop = some (t, yi, fi)) (hv : (d.measOf v k).fv.pop = some (t, yv, fv))
    (hw : d.calWaits v k t = false) : d.fastSample v k = d.fastTaken v k t yi yv fi fv := by
  unfold Dev.fastSample
  dsimp only
  rw [hi, hv]
  dsimp only
  rw [if_neg (by rw [Nat.max_self, hw]; exact Bool.false_ne_true), if_neg (Nat.lt_irrefl t), if_neg (Nat.lt_irrefl t)]
  rfl

theorem Dev.fastTaken_meas (d : Dev) :
    ((d.fastTaken v k t yi yv fi fv).measOf v k).fi = fi ∧ ((d.fastTaken v k t yi yv fi fv).measOf v k).fv = fv := by
  have hmeas : (d.fastTaken v k t yi yv fi fv).measOf v k = { d.measOf v k with fi := fi, fv := fv } := by
    unfold Dev.fastTaken
    dsimp only
    split
    · rw [Dev.measOf_modChan, Dev.measOf_modMeas_same]
    · rw [Dev.measOf_modChan, Dev.measOf_modMeas_same]
  rw [hmeas]
  exact ⟨rfl, rfl⟩

theorem Dev.fastTaken_sample (d : Dev) :
    (if (t - 25 * k.1) % 400 = 0 then ((d.fastTaken v k t yi yv fi fv).chan v k).win else ((d.fastTaken v k t yi yv fi fv).chan v k).half) =
      (d.measOf v k).fast t yi yv (d.iFs v) (d.vFs v) := by
  unfold Dev.fastTaken
  dsimp only
  split
  · rw [Dev.chan_modChan_same]
  · rw [Dev.chan_modChan_same]

theorem Dev.fastTaken_chan_ne (d : Dev) {v' k' : Fin 16} (h : (v', k') ≠ (v, k)) :
    (d.fastTaken v k t yi yv fi fv).chan v' k' = d.chan v' k' := by
  unfold Dev.fastTaken
  dsimp only
  split
  · rw [Dev.chan_modChan_ne _ h, Dev.chan_modMeas]
  · rw [Dev.chan_modChan_ne _ h, Dev.chan_modMeas]

theorem fastSample_calibrated (hl : Live s) (hi : (s.dev.measOf v k).fi.pop = some (t, yi, fi))
    (hv : (s.dev.measOf v k).fv.pop = some (t, yv, fv)) (hw : s.dev.calWaits v k t = false) :
    Answers (.fastSample v k) s (fun u =>
      let c := (s.dev.measOf v k).calAtTick t
      let x := if (t - 25 * k.1) % 400 = 0 then (u.dev.chan v k).win else (u.dev.chan v k).half
      x.i = satS 32 (roundDiv (yi * s.dev.desc v 1 * c.ig) (2800 * 2 ^ 30) + c.io) ∧
      x.v = satS 32 (roundDiv (yv * s.dev.desc v 2 * c.vg) (175 * 2 ^ 30) + c.vo) ∧
      (u.dev.measOf v k).fi = fi ∧ (u.dev.measOf v k).fv = fv ∧ OtherChans s u v k) := by
  have hsample := s.dev.fastTaken_sample (v := v) (k := k) (t := t) (yi := yi) (yv := yv) (fi := fi) (fv := fv)
  have hmeas := s.dev.fastTaken_meas (v := v) (k := k) (t := t) (yi := yi) (yv := yv) (fi := fi) (fv := fv)
  refine .of_done hl (congrArg s.done (Dev.fastSample_taken hi hv hw)) ⟨?_, ?_, hmeas.1, hmeas.2, fun v' k' hne => s.dev.fastTaken_chan_ne hne⟩
  · exact congrArg Fast.i hsample
  · exact congrArg Fast.v hsample

end

/-! ### Precision outputs (R84–R88) -/

section
variable {d : Dev} {v k : Fin 16} {t : Nat}

/-- The precision output of a channel at an instant. -/
def Dev.precOf (d : Dev) (v k : Fin 16) (t : Nat) : Prec :=
  let m := d.measOf v k
  let per := ratePeriod (m.rateFor t)
  let fi := fir m.zi 640 0 t per
  let fv := fir m.zv 2560 2880 t per
  let c := m.calAtTick t
  { t, per, i := calibrate fi.1 (d.iFs v) (2 ^ 23) c.ig c.io, v := calibrate fv.1 (d.vFs v) (2 ^ 23) c.vg c.vo,
    temp := m.tempMean t per, sus := fi.2.1 || fv.2.1, modf := fi.2.2 || fv.2.2 }

/-- The uncalibrated values of a precision output are shown. -/
def Dev.rawShown (d : Dev) (v k : Fin 16) (t : Nat) : Dev :=
  let m := d.measOf v k
  let per := ratePeriod (m.rateFor t)
  (d.setF (Reg.VAT_RAWI_Q v.1 k.1) (pattern 32 (fir m.zi 640 0 t per).1)).setF (Reg.VAT_RAWV_Q v.1 k.1) (pattern 32 (fir m.zv 2560 2880 t per).1)

/-- The device once a precision output is formed, before its record. -/
def Dev.precFormed (d : Dev) (v k : Fin 16) (t : Nat) : Dev :=
  let m := d.measOf v k
  let o := d.precOf v k t
  let d := (d.rawShown v k t).modMeas v k (fun x =>
    { x.trim (t - 40000) with fromT := t + 1, temps := x.temps.filter (fun x => decide (t ≤ x.1)) })
  let used := (d.stepOf v k).isSome
  d.modChan v k (fun c =>
    { c with outs := if used then c.outs ++ [o] else [], lastOut := o,
             vHist := (t, o.v) :: c.vHist.filter (fun x => decide (t ≤ x.1 + 400000000)) })

/-- The device once a precision output has been formed and its record filed. -/
def Dev.precFiled (d : Dev) (v k : Fin 16) (t : Nat) : Dev :=
  let m := d.measOf v k
  let calChg := m.cals.any (fun x => decide (m.fromT ≤ x.1) && decide (x.1 ≤ t))
  let rateChg := m.rates.any (fun x => decide (m.fromT ≤ x.1 + 1) && decide (x.1 < t))
  (((d.precFormed v k t).record v k (d.precOf v k t) calChg rateChg).modMeas v k (fun m => { m with a := m.a.trim t, b := m.b.trim t })).modChan v k
    (fun c => { c with cvHist := trimChanges c.cvHist (t - 4000000), orHist := trimChanges c.orHist (t - 4000000) })

theorem Dev.precisionOutput_filed (hper : t % (20000 * 2 ^ (d.measOf v k).rateFor t) = 0) (hfrom : (d.measOf v k).fromT ≤ t)
    (hact : (d.lane v).activeAt ≤ t) (hw : d.calWaits v k t = false) (hr : d.precReady v k t = true) :
    d.precisionOutput v k t = d.precFiled v k t := by
  unfold Dev.precisionOutput
  dsimp only
  rw [if_pos ⟨hper, hfrom, hact, by rw [hw]; rfl, hr⟩]
  rfl

theorem Dev.rawShown_f (d : Dev) (v k : Fin 16) (t : Nat) :
    (d.rawShown v k t).f (Reg.VAT_RAWI_Q v.1 k.1) = pattern 32 (fir (d.measOf v k).zi 640 0 t (ratePeriod ((d.measOf v k).rateFor t))).1 ∧
    (d.rawShown v k t).f (Reg.VAT_RAWV_Q v.1 k.1) = pattern 32 (fir (d.measOf v k).zv 2560 2880 t (ratePeriod ((d.measOf v k).rateFor t))).1 := by
  unfold Dev.rawShown
  dsimp only
  refine ⟨?_, (Dev.f_setF_same _ _ _).trans (pattern_mod 32 _)⟩
  refine (Dev.f_setF_off _ _ (Nat.le_of_ble_eq_true rfl) (Nat.le_of_ble_eq_true rfl) ?_).trans
    ((Dev.f_setF_same _ _ _).trans (pattern_mod 32 _))
  simp only [Reg.VAT_RAWI_Q, Reg.VAT_RAWV_Q, Reg.VAT_RAWI_at, Reg.VAT_RAWV_at]
  omega

theorem Dev.stepOf_rawShown (d : Dev) (v k : Fin 16) (t : Nat) (x : Meas → Meas) :
    ((d.rawShown v k t).modMeas v k x).stepOf v k = d.stepOf v k := by
  unfold Dev.stepOf Dev.leadOf
  simp only [Dev.chan_modMeas, Dev.rawShown, Dev.chan_setF]

theorem Dev.chan_precFormed (d : Dev) (v k : Fin 16) (t : Nat) :
    ((d.precFormed v k t).chan v k).lastOut = d.precOf v k t ∧
    ((d.precFormed v k t).chan v k).outs = if (d.stepOf v k).isSome then (d.chan v k).outs ++ [d.precOf v k t] else [] := by
  unfold Dev.precFormed
  dsimp only
  rw [Dev.chan_modChan_same, Dev.stepOf_rawShown]
  refine ⟨rfl, ?_⟩
  simp only [Dev.chan_modMeas, Dev.rawShown, Dev.chan_setF]

theorem Dev.fromT_precFormed (d : Dev) (v k : Fin 16) (t : Nat) : ((d.precFormed v k t).measOf v k).fromT = t + 1 := by
  unfold Dev.precFormed
  dsimp only
  rw [Dev.measOf_modChan, Dev.measOf_modMeas_same]

/-- The filing of a record leaves the output, its instant and the values shown. -/
theorem Dev.precFiled_streams (d : Dev) (v k : Fin 16) (t : Nat) :
    ((d.precFiled v k t).chan v k).lastOut = ((d.precFormed v k t).chan v k).lastOut ∧
    ((d.precFiled v k t).chan v k).outs = ((d.precFormed v k t).chan v k).outs ∧
    ((d.precFiled v k t).measOf v k).fromT = ((d.precFormed v k t).measOf v k).fromT ∧
    ∀ r : RF, r.OffStream → (d.precFiled v k t).f r = (d.precFormed v k t).f r := by
  unfold Dev.precFiled
  dsimp only
  have hs := (d.precFormed v k t).streams_record v k (d.precOf v k t)
    ((d.measOf v k).cals.any (fun x => decide ((d.measOf v k).fromT ≤ x.1) && decide (x.1 ≤ t)))
    ((d.measOf v k).rates.any (fun x => decide ((d.measOf v k).fromT ≤ x.1 + 1) && decide (x.1 < t)))
  generalize (d.precFormed v k t).record v k (d.precOf v k t) _ _ = e at hs ⊢
  refine ⟨?_, ?_, ?_, hs.f⟩
  · rw [Dev.chan_modChan_same, Dev.chan_modMeas, hs.chan]
  · rw [Dev.chan_modChan_same, Dev.chan_modMeas, hs.chan]
  · rw [Dev.measOf_modChan, Dev.measOf_modMeas_same]
    exact hs.fromT v k

theorem Reg.rawI_offStream (v k : Fin 16) : (Reg.VAT_RAWI_Q v.1 k.1).OffStream := by
  refine ⟨Nat.le_of_ble_eq_true rfl, .inl ⟨?_, ?_⟩, fun u => ?_⟩ <;> simp only [Reg.VAT_RAWI_Q, Reg.VAT_RAWI_at, Reg.VAT_LDG_DROP_at] <;> omega

theorem Reg.rawV_offStream (v k : Fin 16) : (Reg.VAT_RAWV_Q v.1 k.1).OffStream := by
  refine ⟨Nat.le_of_ble_eq_true rfl, .inl ⟨?_, ?_⟩, fun u => ?_⟩ <;> simp only [Reg.VAT_RAWV_Q, Reg.VAT_RAWV_at, Reg.VAT_LDG_DROP_at] <;> omega

theorem calibrate_precision (m : Int) (fs g : Nat) (o : Int) :
    calibrate m fs (2 ^ 23) g o = satS 32 (roundDiv (m * fs * g) (2 ^ 23 * 2 ^ 30) + o) := by
  unfold calibrate
  rw [Nat.cast_pow, Nat.cast_ofNat]

theorem precisionOutput_calibrated {s : State} (hl : Live s) (hper : t % (20000 * 2 ^ (s.dev.measOf v k).rateFor t) = 0)
    (hfrom : (s.dev.measOf v k).fromT ≤ t) (hact : (s.dev.lane v).activeAt ≤ t) (hw : s.dev.calWaits v k t = false)
    (hr : s.dev.precReady v k t = true) :
    Answers (.precisionOutput v k t) s (fun u =>
      let m := s.dev.measOf v k
      let per := 20000 * 2 ^ m.rateFor t
      let c := m.calAtTick t
      let o := (u.dev.chan v k).lastOut
      o.t = t ∧ o.per = per ∧
      o.i = satS 32 (roundDiv ((fir m.zi 640 0 t per).1 * s.dev.desc v 1 * c.ig) (2 ^ 23 * 2 ^ 30) + c.io) ∧
      o.v = satS 32 (roundDiv ((fir m.zv 2560 2880 t per).1 * s.dev.desc v 2 * c.vg) (2 ^ 23 * 2 ^ 30) + c.vo) ∧
      (u.dev.chan v k).outs = (if (s.dev.stepOf v k).isSome then (s.dev.chan v k).outs ++ [o] else []) ∧
      (u.dev.measOf v k).fromT = t + 1 ∧
      u.dev.f (Reg.VAT_RAWI_Q v.1 k.1) = pattern 32 (fir m.zi 640 0 t per).1 ∧
      u.dev.f (Reg.VAT_RAWV_Q v.1 k.1) = pattern 32 (fir m.zv 2560 2880 t per).1) := by
  obtain ⟨hlast, houts, hnext, hf⟩ := s.dev.precFiled_streams v k t
  obtain ⟨hlast', houts'⟩ := s.dev.chan_precFormed v k t
  obtain ⟨hi, hv⟩ := s.dev.rawShown_f v k t
  have heq := Dev.precisionOutput_filed hper hfrom hact hw hr
  have hnext' := s.dev.fromT_precFormed v k t
  have hri := Reg.rawI_offStream v k
  have hrv := Reg.rawV_offStream v k
  generalize s.dev.precFiled v k t = e at heq hlast houts hnext hf
  have ho : (e.chan v k).lastOut = s.dev.precOf v k t := hlast.trans hlast'
  refine .of_done hl (congrArg s.done heq) ⟨congrArg Prec.t ho, congrArg Prec.per ho, (congrArg Prec.i ho).trans (calibrate_precision _ _ _ _),
    (congrArg Prec.v ho).trans (calibrate_precision _ _ _ _), ?_, hnext.trans hnext', (hf _ hri).trans hi, (hf _ hrv).trans hv⟩
  show (e.chan v k).outs = if _ then _ ++ [(e.chan v k).lastOut] else []
  rw [ho]
  exact houts.trans houts'

end

/-! ### Rate changes (R85) -/

theorem Meas.rateFor_change {m : Meas} {code tc now : Nat} (hp : m.ratePend = some (code, tc)) (h : tc ≤ now) :
    (m.change now).ratePend = none ∧ ∀ t, (m.change now).rateFor t = if tc < t then code else m.rateFor t := by
  have heq : m.change now = { m with ratePend := none, rates := (tc, code) :: m.rates } := by
    unfold Meas.change
    rw [hp]
    exact if_pos h
  rw [heq]
  refine ⟨rfl, fun t => ?_⟩
  unfold Meas.rateFor inForce
  rw [List.find?_cons]
  by_cases ht : tc < t
  · rw [if_pos ht]
    simp only [decide_eq_true ht]
  · rw [if_neg ht]
    simp only [decide_eq_false ht]

theorem rateChange_inForce {s : State} {v k : Fin 16} {code tc : Nat} (hl : Live s) (hp : (s.dev.measOf v k).ratePend = some (code, tc))
    (h : tc ≤ s.dev.now) :
    Answers (.rateChange v k) s (fun u => (u.dev.measOf v k).ratePend = none ∧
      ∀ t, (u.dev.measOf v k).rateFor t = if tc < t then code else (s.dev.measOf v k).rateFor t) := by
  refine .of_done (d := s.dev.rateChange v k) hl rfl ?_
  have hm : (s.dev.rateChange v k).measOf v k = (s.dev.measOf v k).change s.dev.now := s.dev.measOf_modMeas_same v k _
  show ((s.dev.rateChange v k).measOf v k).ratePend = none ∧ ∀ t, ((s.dev.rateChange v k).measOf v k).rateFor t = _
  rw [hm]
  exact Meas.rateFor_change hp h

/-! ### Calibration commits (R90) -/

theorem calCommit_waits {s : State} {src : Src} {v : Fin 16} {w : Word} (hr : Reaches s src (Reg.VAT_CAL_COMMIT_at v.1))
    (hw : w.toNat % 2 ^ 16 ≠ 0) (hn : (s.dev.vats[v]).calReq = []) :
    Answers (.calCommit src v w) s (fun t => (t.dev.vats[v]).calReq =
        [⟨w.toNat % 2 ^ 16, src.master.1, src.secure, (s.dev.now / 400 + 1) * 400⟩] ∧ t.dev.resp = ⟨0, false⟩) := by
  refine .of_done hr.1 (congrArg s.done (Dev.onWrite_unguarded hr.2 _)) ⟨?_, ?_⟩
  · rw [State.commit_vats]
    dsimp only
    rw [if_neg hw, Dev.vats_modVat_same]
    show (List.filter _ (s.dev.vats[v]).calReq) ++ [CalReq.mk (List.foldl _ 0 (List.filter _ (s.dev.vats[v]).calReq) ||| _) _ _ _] = _
    rw [hn]
    simp only [List.filter_nil, List.foldl_nil, List.nil_append, Nat.zero_or]
    rfl
  · rw [State.commit_resp]
    dsimp only
    rw [if_neg hw]
    rfl


/-- The measurement state a granted commit leaves. -/
def Meas.committed (m : Meas) (a : Nat) (new : Cal) : Meas := if new = m.calNow then m else { m with cals := (a, new) :: m.cals }

theorem Meas.committed_calNow (m : Meas) (a : Nat) (new : Cal) : (m.committed a new).calNow = new ∧
    (new = m.calNow ∨ ∀ i, a ≤ i → (m.committed a new).calAtTick i = new) := by
  unfold Meas.committed
  split
  next h => exact ⟨h.symm, .inl h⟩
  next =>
    refine ⟨rfl, .inr fun i hi => ?_⟩
    unfold Meas.calAtTick inForce
    rw [List.find?_cons]
    simp only [decide_eq_true hi]

/-- A field of a VAT block that no judged commit counts in. -/
def RF.OffGen (r : RF) : Prop :=
  r.lo < 32 ∧ 0x20010000 ≤ r.addr ∧ ∀ v k : Fin 16, r.addr ≠ Reg.VAT_CAL_GEN_at v.1 k.1

/-- What the judging of a commit leaves of its vat: the channels, the commits that wait, the staged coefficients. -/
structure Dev.CalStays (v : Fin 16) (d e : Dev) : Prop where
  chan : ∀ k : Fin 16, e.chan v k = d.chan v k
  calSets : (e.vats[v]).calSets = (d.vats[v]).calSets
  calReq : (e.vats[v]).calReq = (d.vats[v]).calReq
  f : ∀ r : RF, r.OffGen → e.f r = d.f r

section
variable {v : Fin 16} {d e g : Dev}

theorem Dev.CalStays.refl (v : Fin 16) (d : Dev) : Dev.CalStays v d d := ⟨fun _ => rfl, rfl, rfl, fun _ _ => rfl⟩

theorem Dev.CalStays.trans (h : Dev.CalStays v d e) (h' : Dev.CalStays v e g) : Dev.CalStays v d g :=
  ⟨fun k => (h'.chan k).trans (h.chan k), h'.calSets.trans h.calSets, h'.calReq.trans h.calReq, fun r hr => (h'.f r hr).trans (h.f r hr)⟩

/-- No staged coefficient stands where a commit is counted. -/
theorem RF.offGen_staged (v k : Fin 16) {a : Nat} (i : Fin 4) (w dflt : Nat) (keep : Bool) (ha : a = 0x20010600 + 0x1000 * v.1 + 0x10 * k.1 + 4 * i.1) :
    (RF.mk a 0 w dflt keep).OffGen := by
  refine ⟨Nat.le_of_ble_eq_true rfl, ?_, fun u j => ?_⟩
  · show 0x20010000 ≤ a
    omega
  · show a ≠ _
    simp only [Reg.VAT_CAL_GEN_at]
    omega

theorem Dev.CalStays.staged (h : Dev.CalStays v d e) (k : Fin 16) : e.staged v.1 k.1 = d.staged v.1 k.1 := by
  have hio : Reg.VAT_CAL_IO_at v.1 k.1 = 0x20010600 + 0x1000 * v.1 + 0x10 * k.1 + 4 * 1 := by simp only [Reg.VAT_CAL_IO_at]; omega
  have hvg : Reg.VAT_CAL_VG_at v.1 k.1 = 0x20010600 + 0x1000 * v.1 + 0x10 * k.1 + 4 * 2 := by simp only [Reg.VAT_CAL_VG_at]; omega
  have hvo : Reg.VAT_CAL_VO_at v.1 k.1 = 0x20010600 + 0x1000 * v.1 + 0x10 * k.1 + 4 * 3 := by simp only [Reg.VAT_CAL_VO_at]; omega
  unfold Dev.staged
  rw [h.f (Reg.VAT_CAL_IG_VALUE v.1 k.1) (RF.offGen_staged v k 0 _ _ _ rfl), h.f (Reg.VAT_CAL_IO_VALUE v.1 k.1) (RF.offGen_staged v k 1 _ _ _ hio),
    h.f (Reg.VAT_CAL_VG_VALUE v.1 k.1) (RF.offGen_staged v k 2 _ _ _ hvg), h.f (Reg.VAT_CAL_VO_VALUE v.1 k.1) (RF.offGen_staged v k 3 _ _ _ hvo)]

theorem Dev.CalStays.stagedAt (h : Dev.CalStays v d e) (k : Fin 16) (a : Nat) : e.stagedAt v k a = d.stagedAt v k a := by
  unfold Dev.stagedAt
  rw [h.calSets, h.staged]

theorem Dev.calStays_modVat (d : Dev) {x : Vat → Vat} (hc : ∀ y, (x y).chans = y.chans) (hs : ∀ y, (x y).calSets = y.calSets)
    (hr : ∀ y, (x y).calReq = y.calReq) : Dev.CalStays v d (d.modVat v x) := by
  refine ⟨fun k => d.chan_modVat v v k hc, ?_, ?_, fun _ _ => rfl⟩
  · rw [Dev.vats_modVat_same, hs]
  · rw [Dev.vats_modVat_same, hr]

/-- A granted channel: its coefficients and its count. -/
def Dev.calGranted (d : Dev) (v k : Fin 16) (a : Nat) : Dev :=
  (d.modMeas v k (fun m => m.committed a (d.stagedAt v k a))).bump (Reg.VAT_CAL_GEN_GEN v.1 k.1)

theorem Dev.calJudge_idle {k : Fin 16} {q : CalReq} (h : (d.chan v k).stBefore q.at_ = .idle) : d.calJudge v k q = d.calGranted v k q.at_ :=
  if_pos h

theorem Dev.calJudge_busy {k : Fin 16} {q : CalReq} (h : (d.chan v k).stBefore q.at_ ≠ .idle) :
    d.calJudge v k q = d.logRefused ⟨v16 q.master, q.secure, 0⟩ (Reg.VAT_CAL_COMMIT_at v.1) := if_neg h

theorem Dev.calStays_granted (d : Dev) (v k : Fin 16) (a : Nat) : Dev.CalStays v d (d.calGranted v k a) := by
  have hm : Dev.CalStays v d (d.modMeas v k (fun m => m.committed a (d.stagedAt v k a))) :=
    d.calStays_modVat (fun _ => rfl) (fun _ => rfl) (fun _ => rfl)
  exact hm.trans ⟨fun _ => rfl, rfl, rfl, fun r hr => Dev.f_bump_off _ _ (Nat.le_of_ble_eq_true rfl) hr.1 fun hc => hr.2.2 v k hc.1⟩

theorem Dev.logRefused_vats (d : Dev) (src : Src) (a : Nat) : (d.logRefused src a).vats = d.vats := d.log_vats _ _ _ _

theorem Dev.f_logRefused_off (d : Dev) (src : Src) (a : Nat) {r : RF} (hl : r.lo < 32) (h : 0x20010000 ≤ r.addr) :
    (d.logRefused src a).f r = d.f r := d.f_log_off _ _ _ _ hl (.inr (by omega))

theorem Dev.calStays_logRefused (d : Dev) (src : Src) (a : Nat) : Dev.CalStays v d (d.logRefused src a) := by
  have hv := d.logRefused_vats src a
  exact ⟨Dev.chan_of_vats hv v, by rw [hv], by rw [hv], fun r hr => d.f_logRefused_off src a hr.1 hr.2.1⟩

theorem Dev.calStays_judge (d : Dev) (v k : Fin 16) (q : CalReq) : Dev.CalStays v d (d.calJudge v k q) := by
  by_cases h : (d.chan v k).stBefore q.at_ = .idle
  · rw [Dev.calJudge_idle h]
    exact d.calStays_granted v k q.at_
  · rw [Dev.calJudge_busy h]
    exact d.calStays_logRefused _ _

/-- What a channel's own judging leaves of its coefficients and of its count. -/
def Dev.Judged (d e : Dev) (v k : Fin 16) (a : Nat) (granted : Prop) [Decidable granted] : Prop :=
  e.measOf v k = (if granted then (d.measOf v k).committed a (d.stagedAt v k a) else d.measOf v k) ∧
  e.f (Reg.VAT_CAL_GEN_GEN v.1 k.1) =
    if granted then min (2 ^ 32 - 1) (d.f (Reg.VAT_CAL_GEN_GEN v.1 k.1) + 1) else d.f (Reg.VAT_CAL_GEN_GEN v.1 k.1)

theorem Dev.f_bump_gen_ne (d : Dev) (v : Fin 16) {j k : Fin 16} (h : j ≠ k) :
    (d.bump (Reg.VAT_CAL_GEN_GEN v.1 k.1)).f (Reg.VAT_CAL_GEN_GEN v.1 j.1) = d.f (Reg.VAT_CAL_GEN_GEN v.1 j.1) := by
  refine Dev.f_bump_off _ _ (Nat.le_of_ble_eq_true rfl) (Nat.le_of_ble_eq_true rfl) fun hc => h (Fin.ext ?_)
  have := hc.1
  simp only [Reg.VAT_CAL_GEN_GEN, Reg.VAT_CAL_GEN_at] at this
  omega

theorem Dev.gen_low (v j : Fin 16) : 0x20010000 ≤ (Reg.VAT_CAL_GEN_GEN v.1 j.1).addr := by
  simp only [Reg.VAT_CAL_GEN_GEN, Reg.VAT_CAL_GEN_at]
  omega

theorem Dev.measOf_bump (d : Dev) (r : RF) (n : Nat) (v k : Fin 16) : (d.bump r n).measOf v k = d.measOf v k := rfl

theorem Dev.f_bump_gen (d : Dev) (v k : Fin 16) :
    (d.bump (Reg.VAT_CAL_GEN_GEN v.1 k.1)).f (Reg.VAT_CAL_GEN_GEN v.1 k.1) = min (2 ^ 32 - 1) (d.f (Reg.VAT_CAL_GEN_GEN v.1 k.1) + 1) :=
  Dev.f_bump_same d _ 1

/-- The judging of one channel: its own coefficients where it was IDLE, and no other's. -/
theorem Dev.calJudge_judged (d : Dev) (v k : Fin 16) (q : CalReq) (j : Fin 16) :
    Dev.Judged d (d.calJudge v k q) v j q.at_ (j = k ∧ (d.chan v j).stBefore q.at_ = .idle) := by
  by_cases h : (d.chan v k).stBefore q.at_ = .idle
  · rw [Dev.calJudge_idle h]
    unfold Dev.Judged Dev.calGranted
    by_cases hj : j = k
    · subst hj
      rw [if_pos ⟨rfl, h⟩, if_pos ⟨rfl, h⟩]
      rw [Dev.measOf_bump, Dev.measOf_modMeas_same, Dev.f_bump_gen, Dev.modMeas_f]
      exact ⟨rfl, rfl⟩
    · rw [if_neg (fun hc => hj hc.1), if_neg (fun hc => hj hc.1)]
      rw [Dev.measOf_bump, Dev.f_bump_gen_ne _ v hj, Dev.modMeas_f]
      exact ⟨d.measOf_modMeas_ne (fun hc => hj (congrArg Prod.snd hc)) _, rfl⟩
  · rw [Dev.calJudge_busy h]
    have hn : ¬(j = k ∧ (d.chan v j).stBefore q.at_ = .idle) := fun hc => h (hc.1 ▸ hc.2)
    unfold Dev.Judged
    rw [if_neg hn, if_neg hn]
    exact ⟨Dev.measOf_of_vats (d.logRefused_vats _ _) v j, d.f_logRefused_off _ _ (Nat.le_of_ble_eq_true rfl) (Dev.gen_low v j)⟩

/-- The judging of channels one after the other: those that were IDLE get their coefficients, no other does. -/
theorem Dev.calJudges_judged (v : Fin 16) (q : CalReq) (j : Fin 16) : ∀ (l : List (Fin 16)) (d : Dev), l.Nodup →
    Dev.CalStays v d (l.foldl (fun d k => d.calJudge v k q) d) ∧
    Dev.Judged d (l.foldl (fun d k => d.calJudge v k q) d) v j q.at_ (j ∈ l ∧ (d.chan v j).stBefore q.at_ = .idle) := by
  intro l
  induction l with
  | nil =>
    intro d _
    refine ⟨.refl v d, ?_⟩
    unfold Dev.Judged
    rw [if_neg (fun hc => List.not_mem_nil hc.1), if_neg (fun hc => List.not_mem_nil hc.1)]
    exact ⟨rfl, rfl⟩
  | cons k l ih =>
    intro d hnd
    obtain ⟨hk, hl⟩ := List.nodup_cons.mp hnd
    have hstay := d.calStays_judge v k q
    obtain ⟨hm, hg⟩ := d.calJudge_judged v k q j
    obtain ⟨hrest, hm', hg'⟩ := ih (d.calJudge v k q) hl
    refine ⟨hstay.trans hrest, ?_⟩
    rw [hstay.chan j, hm, hstay.stagedAt] at hm'
    rw [hstay.chan j, hg] at hg'
    unfold Dev.Judged
    rw [List.foldl_cons, hm', hg']
    by_cases hj : j = k
    · subst hj
      simp only [hk, false_and, if_false, List.mem_cons, true_or, true_and]
    · simp only [hj, false_and, if_false, List.mem_cons, false_or, and_self]

end

/-! ### The commits whose start has come (R90) -/

/-- Every channel is ready where no computation is outstanding. -/
theorem ready_all {p : Fin 16 → Bool} (h : ∀ k, p k = false) :
    (List.finRange 16).foldl (fun (m : Nat) (k : Fin 16) => if p k then m else m + 2 ^ k.1) 0 = 65535 := by
  simp only [h, Bool.false_eq_true, if_false]
  decide

theorem mem_maskList {m : Nat} {k : Fin 16} : k ∈ maskList m ↔ m.testBit k.1 = true := by
  simp [maskList]

theorem maskList_nodup (m : Nat) : (maskList m).Nodup := (List.nodup_finRange 16).filter _

section
variable {d : Dev} {v : Fin 16} {q : CalReq}

/-- The one commit of a vat leaves the list as it is judged. -/
def Dev.calTaken (d : Dev) (v : Fin 16) (a mask : Nat) : Dev :=
  d.modVat v (fun x => { x with calReq := (x.calReq.map (fun q =>
    if q.at_ = a then { q with mask := q.mask - (q.mask &&& mask) } else q)).filter (fun q => q.mask != 0) })

/-- Kept sets of staged coefficients go with the last commit that may want them. -/
def Dev.calCleared (d : Dev) (v : Fin 16) : Dev :=
  d.modVat v (fun x => { x with calSets := x.calSets.filter (fun y => x.calReq.any (fun q => q.at_ == y.1)) })

theorem Dev.calPass_one (h : (d.vats[v]).calReq = [q]) (mask : Nat) :
    d.calPass v q.at_ mask = ((maskList (q.mask &&& mask)).foldl (fun d k => d.calJudge v k q) (d.calTaken v q.at_ mask)).calCleared v := by
  have hdue : ((d.vats[v]).calReq).filter (fun x => x.at_ == q.at_) = [q] := by
    rw [h, List.filter_cons, if_pos (beq_self_eq_true q.at_), List.filter_nil]
  unfold Dev.calPass
  dsimp only
  rw [hdue]
  rfl

theorem Dev.calApply_one (h : (d.vats[v]).calReq = [q]) (ha : q.at_ ≤ d.now) (ho : ∀ k : Fin 16, d.outstanding v k (q.at_ - 400 + 25 * k.1) = false) :
    d.calApply v = d.calPass v q.at_ 65535 := by
  unfold Dev.calApply
  rw [h, List.foldl_cons, List.foldl_nil, if_pos ha]
  dsimp only
  rw [ready_all ho]

theorem mask_all {m : Nat} (h : m < 2 ^ 16) : m &&& 65535 = m := by
  rw [show (65535 : Nat) = 2 ^ 16 - 1 from rfl, Nat.and_two_pow_sub_one_eq_mod, Nat.mod_eq_of_lt h]

theorem Dev.calTaken_calReq (h : (d.vats[v]).calReq = [q]) (hm : q.mask < 2 ^ 16) : ((d.calTaken v q.at_ 65535).vats[v]).calReq = [] := by
  unfold Dev.calTaken
  rw [Dev.vats_modVat_same]
  dsimp only
  rw [h, List.map_cons, if_pos rfl, mask_all hm, Nat.sub_self]
  rfl

theorem Dev.calTaken_stagedAt (d : Dev) (v : Fin 16) (a mask : Nat) (k : Fin 16) (b : Nat) :
    (d.calTaken v a mask).stagedAt v k b = d.stagedAt v k b := by
  unfold Dev.stagedAt Dev.calTaken
  rw [Dev.vats_modVat_same]
  rfl

/-- The one commit of a vat, judged for every channel. -/
theorem Dev.calApply_judged (h : (d.vats[v]).calReq = [q]) (hm : q.mask < 2 ^ 16) (ha : q.at_ ≤ d.now)
    (ho : ∀ k : Fin 16, d.outstanding v k (q.at_ - 400 + 25 * k.1) = false) :
    ((d.calApply v).vats[v]).calReq = [] ∧
    ∀ k : Fin 16, Dev.Judged d (d.calApply v) v k q.at_ (q.mask.testBit k.1 = true ∧ (d.chan v k).stBefore q.at_ = .idle) := by
  rw [Dev.calApply_one h ha ho, Dev.calPass_one h, mask_all hm]
  have hjudged := fun k => Dev.calJudges_judged v q k (maskList q.mask) (d.calTaken v q.at_ 65535) (maskList_nodup _)
  have hreq := Dev.calTaken_calReq h hm
  have hchan : ∀ k, (d.calTaken v q.at_ 65535).chan v k = d.chan v k := fun k => d.chan_modVat v v k fun _ => rfl
  have hmeas : ∀ k, (d.calTaken v q.at_ 65535).measOf v k = d.measOf v k := fun k => d.measOf_modVat v v k fun _ => rfl
  have hset := fun k => d.calTaken_stagedAt v q.at_ 65535 k q.at_
  have hf : ∀ r, (d.calTaken v q.at_ 65535).f r = d.f r := fun _ => rfl
  generalize (maskList q.mask).foldl (fun d k => d.calJudge v k q) (d.calTaken v q.at_ 65535) = e at hjudged ⊢
  refine ⟨?_, fun k => ?_⟩
  · unfold Dev.calCleared
    rw [Dev.vats_modVat_same]
    exact (hjudged 0).1.calReq.trans hreq
  · obtain ⟨-, hj, hg⟩ := hjudged k
    simp only [hchan, hmeas, hset, hf, mem_maskList] at hj hg
    have hclear : (e.calCleared v).measOf v k = e.measOf v k := e.measOf_modVat v v k fun _ => rfl
    exact ⟨hclear.trans hj, hg⟩

end

theorem calCommitApply_judged {s : State} {v : Fin 16} {q : CalReq} (hl : Live s) (h : (s.dev.vats[v]).calReq = [q]) (hm : q.mask < 2 ^ 16)
    (ha : q.at_ ≤ s.dev.now) (ho : ∀ k : Fin 16, s.dev.outstanding v k (q.at_ - 400 + 25 * k.1) = false) :
    Answers (.calCommitApply v) s (fun t => (t.dev.vats[v]).calReq = [] ∧
      ∀ k : Fin 16,
        let m := s.dev.measOf v k
        let m' := t.dev.measOf v k
        let gen := Reg.VAT_CAL_GEN_GEN v.1 k.1
        if q.mask.testBit k.1 = true ∧ (s.dev.chan v k).stBefore q.at_ = .idle then
          m'.calNow = s.dev.stagedAt v k q.at_ ∧
          (m'.calNow = m.calNow ∨ ∀ i, q.at_ ≤ i → m'.calAtTick i = m'.calNow) ∧
          t.dev.f gen = min (2 ^ gen.w - 1) (s.dev.f gen + 1)
        else m'.cal = m.cal ∧ m'.cals = m.cals ∧ t.dev.f gen = s.dev.f gen) := by
  obtain ⟨hreq, hjudged⟩ := Dev.calApply_judged h hm ha ho
  have hexec : exec (.calCommitApply v) s = s.done (s.dev.calApply v) := rfl
  generalize s.dev.calApply v = e at hreq hjudged hexec
  refine .of_done hl hexec ⟨hreq, fun k => ?_⟩
  obtain ⟨hj, hg⟩ := hjudged k
  by_cases hk : q.mask.testBit k.1 = true ∧ (s.dev.chan v k).stBefore q.at_ = .idle
  · rw [if_pos hk] at hj hg
    dsimp only
    rw [if_pos hk]
    show (e.measOf v k).calNow = _ ∧ ((e.measOf v k).calNow = _ ∨ ∀ i, _ → (e.measOf v k).calAtTick i = (e.measOf v k).calNow) ∧ _
    obtain ⟨hnow, hthen⟩ := (s.dev.measOf v k).committed_calNow q.at_ (s.dev.stagedAt v k q.at_)
    rw [hj, hnow]
    exact ⟨rfl, hthen, hg⟩
  · rw [if_neg hk] at hj hg
    dsimp only
    rw [if_neg hk]
    exact ⟨congrArg Meas.cal hj, congrArg Meas.cals hj, hg⟩

/-- Settles O12: every output is taken with the coefficients in force at its instant, and a commit gives them to the channels IDLE at its start. -/
theorem measurementIsCalibrated : Obligations.MeasurementIsCalibrated := by
  unfold Obligations.MeasurementIsCalibrated
  refine ⟨⟨?_, ?_, ?_⟩, ?_, ?_⟩
  · intro s v k t yi yv fi fv hl hi hv hw
    exact fastSample_calibrated hl hi hv hw
  · intro s v k t hl hper hfrom hact hw hr
    exact precisionOutput_calibrated hl hper hfrom hact hw hr
  · intro s v k code tc hl hp h
    exact rateChange_inForce hl hp h
  · intro s src v w hr hw hn
    exact calCommit_waits hr hw hn
  · intro s v q hl h hm ha ho
    exact calCommitApply_judged hl h hm ha ho

end Sys2Proof.Machine
end

section
/-!
PROOF. The commands of the ledger (R178–R194, R456): closing, delivery on a sealed ring, checkpoints, divergence, chains, snapshots.
-/

namespace Sys2Proof.Machine
open Sys2Proof

/-! ### The totals of a fenced vat close (R178) -/

section
variable {d : Dev} {v k : Fin 16}

theorem Dev.lane_modVat (d : Dev) (v u : Fin 16) {g : Vat → Vat} (h : ∀ x, (g x).lane = x.lane) : (d.modVat v g).lane u = d.lane u := by
  unfold Dev.lane
  rw [Dev.vats_modVat]
  split
  next hv =>
    subst hv
    exact h _
  next => rfl

theorem Dev.lane_modMeas (d : Dev) (v k u : Fin 16) (g : Meas → Meas) : (d.modMeas v k g).lane u = d.lane u := d.lane_modVat v u fun _ => rfl

theorem Dev.lane_impSample (d : Dev) (v k : Fin 16) (cur : Bool) (z : ZOut) (u : Fin 16) : (d.impSample v k cur z).lane u = d.lane u :=
  d.lane_modVat v u fun _ => rfl

theorem Dev.lane_of_vats {d e : Dev} (h : e.vats = d.vats) (u : Fin 16) : e.lane u = d.lane u := by
  unfold Dev.lane
  rw [h]

theorem Dev.lane_diverge (d : Dev) (v k : Fin 16) (t : Nat) (u : Fin 16) : (d.diverge v k t).lane u = d.lane u := by
  unfold Dev.diverge
  dsimp only
  split
  · exact (Dev.lane_of_vats (Dev.divergeChan_vats _ _ _) u).trans (d.lane_modVat v u fun _ => rfl)
  · rfl

theorem Dev.lane_sinc4Output (d : Dev) (v k : Fin 16) (cur : Bool) (u : Fin 16) : (d.sinc4Output v k cur).lane u = d.lane u := by
  have hfiled : ∀ (e : Dev) (z : ZOut) (m : Meas), e.lane u = d.lane u → ((e.modMeas v k (fun _ => m)).impSample v k cur z).lane u = d.lane u :=
    fun e z m he => by rw [Dev.lane_impSample, Dev.lane_modMeas, he]
  unfold Dev.sinc4Output
  split
  next z m _ =>
    refine (apply_ite (Dev.lane · u) _ _ _).trans ?_
    have hdiv : (if cur then d.diverge v k (640 * z.m) else d).lane u = d.lane u := by
      split
      · exact d.lane_diverge v k _ u
      · rfl
    rw [hfiled _ z m hdiv, ite_self]
  next => rfl

theorem Dev.lane_sinc4Outputs (v k : Fin 16) (cur : Bool) (n : Nat) (d : Dev) (u : Fin 16) :
    (forEach n d (fun d _ => d.sinc4Output v k cur)).lane u = d.lane u := by
  unfold forEach
  exact List.foldlRecOn _ _ (motive := fun e : Dev => e.lane u = d.lane u) rfl fun e he _ _ => (e.lane_sinc4Output v k cur u).trans he

theorem Dev.lane_closeChan (d : Dev) (v k : Fin 16) (x : Nat) (u : Fin 16) : (d.closeChan v k x).lane u = d.lane u := by
  unfold Dev.closeChan
  dsimp only
  have hrest : ∀ e : Dev, (e.modMeas v k Meas.rest).lane u = e.lane u := fun e => e.lane_modVat v u fun _ => rfl
  have hclose : ∀ f : Meas → Meas, (d.modMeas v k f).lane u = d.lane u := fun f => d.lane_modVat v u fun _ => rfl
  rw [hrest, Dev.lane_sinc4Outputs, Dev.lane_sinc4Outputs, hclose]

theorem Dev.lane_divergeAll (d : Dev) (v u : Fin 16) : (d.divergeAll v).lane u = d.lane u := by
  unfold Dev.divergeAll Dev.divergeBut
  refine List.foldlRecOn _ _ (motive := fun e : Dev => e.lane u = d.lane u) (d.lane_modVat v u fun _ => rfl) fun e he k _ => ?_
  exact (Dev.lane_of_vats (e.divergeChan_vats v k) u).trans he

/-- The words that wait are used and gone. -/
def Dev.wordsUsed (d : Dev) (v : Fin 16) : Dev := ((d.calDue v).handWords v true).modLane v (fun l => { l with words := [] })

theorem Dev.wordsUsed_words (d : Dev) (v : Fin 16) : ((d.wordsUsed v).lane v).words = [] := by
  unfold Dev.wordsUsed Dev.lane Dev.modLane
  rw [Dev.vats_modVat_same]

/-- Every channel's last outputs are integrated and compared. -/
def Dev.lastUsed (d : Dev) (v : Fin 16) (x : Nat) : Dev := ((d.popList v).foldl (fun d k => d.closeChan v k x) d).divergeAll v

theorem Dev.lane_lastUsed (d : Dev) (v : Fin 16) (x : Nat) : (d.lastUsed v x).lane v = d.lane v := by
  unfold Dev.lastUsed
  rw [Dev.lane_divergeAll]
  exact List.foldlRecOn _ _ (motive := fun e : Dev => e.lane v = d.lane v) rfl fun e he k _ => (e.lane_closeChan v k x v).trans he

theorem Dev.ledgerClose_closes {x : Nat} (hf : d.fenced v = true) (hc : d.bit (Reg.VAT_LDG_CLOSED_CLOSED v.1) = false)
    (hd : d.bit (Reg.VAT_STAT_FENCE_DONE v.1) = false) (ht : d.closeTick v = some x) (hx : x ≤ d.now) (hr : d.closeReady v x = true) :
    d.ledgerClose v = ((d.wordsUsed v).lastUsed v x).setF (Reg.VAT_LDG_CLOSED_CLOSED v.1) 1 := by
  have hclosing : d.closing v = true := by
    unfold Dev.closing
    rw [hf, hc, hd]
    rfl
  unfold Dev.ledgerClose
  rw [if_pos hclosing, ht]
  exact if_pos ⟨hx, hr⟩

theorem ledgerClose_closed {s : State} {x : Nat} (hl : Live s) (hf : s.dev.fenced v = true) (hc : s.dev.bit (Reg.VAT_LDG_CLOSED_CLOSED v.1) = false)
    (hd : s.dev.bit (Reg.VAT_STAT_FENCE_DONE v.1) = false) (ht : s.dev.closeTick v = some x) (hx : x ≤ s.dev.now)
    (hr : s.dev.closeReady v x = true) :
    Answers (.ledgerClose v) s (fun t => t.dev.bit (Reg.VAT_LDG_CLOSED_CLOSED v.1) = true ∧ (t.dev.lane v).words = []) := by
  have hwords : (((s.dev.wordsUsed v).lastUsed v x).lane v).words = [] := by rw [Dev.lane_lastUsed, Dev.wordsUsed_words]
  have heq := Dev.ledgerClose_closes hf hc hd ht hx hr
  generalize (s.dev.wordsUsed v).lastUsed v x = e at hwords heq
  exact .of_done hl (congrArg s.done heq) ⟨congrArg (· == 1) (Dev.f_setF_same e (Reg.VAT_LDG_CLOSED_CLOSED v.1) 1), hwords⟩

end

/-! ### Delivery into a sealed ring (R184, R186) -/

section
variable {d : Dev} {i : Fin 64} {x : Fin 5} {e : SEntry}

/-- An entry written into its sealed ring joins the open block. -/
def Dev.joinBlock (d : Dev) (i : Fin 64) (x : Fin 5) (bs : List Byte) : Dev :=
  d.modSlice i (fun g => { g with blk := put g.blk x (g.blk[x] ++ [bs]) })

theorem Dev.ringPut_sealing (d : Dev) (hdpl : d.bit Reg.DPL_CFG_EN = false) (i : Fin 64) (x : Fin 5) (bs : List Byte) (c : Option Nat) :
    (d.ringPut i.1 (streamRing x.1) bs c).sealing i.1 x.1 = d.sealing i.1 x.1 := by
  have hf : ∀ r, (d.ringPut i.1 (streamRing x.1) bs c).f r = d.f r := fun r =>
    Dev.f_of_regs (Dev.ringPut_puts hdpl i (streamRing x.1) bs c).regs r
  unfold Dev.sealing Dev.bit
  rw [hf, hf]

theorem x5_val (x : Fin 5) : x5 x.1 = x := Fin.ext (Nat.mod_eq_of_lt x.2)

theorem Dev.writeStream_joins (hdpl : d.bit Reg.DPL_CFG_EN = false) (hseal : d.sealing i.1 x.1 = true) (he : e.sealed = false)
    (hblk : ((d.slices[i]).blk[x]).length < 63) :
    d.writeStream i.1 x.1 e = (d.ringPut i.1 (streamRing x.1) e.bytes (some (ringCause (streamRing x.1).1))).joinBlock i x e.bytes := by
  have hputs := Dev.ringPut_puts hdpl i (streamRing x.1) e.bytes (some (ringCause (streamRing x.1).1))
  have hseal' := d.ringPut_sealing hdpl i x e.bytes (some (ringCause (streamRing x.1).1))
  unfold Dev.writeStream
  dsimp only
  generalize d.ringPut i.1 (streamRing x.1) e.bytes (some (ringCause (streamRing x.1).1)) = g at hputs hseal' ⊢
  obtain ⟨b, c, hslice⟩ := hputs.slice
  have hlen : ((g.slices[i]).blk[x] ++ [e.bytes]).length < 64 := by
    rw [hslice, List.length_append, List.length_singleton]
    exact Nat.succ_lt_succ hblk
  simp only [sl_val, x5_val]
  rw [hseal', hseal, he, if_pos (by decide), if_pos hlen]
  rfl

/-- The one entry that waits is the last that is delivered. -/
theorem Dev.deliver5_writes {g : Dev} (hw : d.waiting i.1 x.1 = [e]) (ho : d.inOrder i.1 x.1 e = true)
    (hr : d.ringReady i.1 (streamRing x.1) = true) (hwrite : (d.unbuffer e).writeStream i.1 x.1 e = g) (hempty : g.waiting i.1 x.1 = []) :
    d.deliver5 i.1 x.1 = g := by
  have hlast : ∀ n, g.deliverStream i.1 x.1 n = g := fun n => by
    cases n with
    | zero => rfl
    | succ n =>
      unfold Dev.deliverStream
      rw [hempty]
  unfold Dev.deliver5
  rw [hw]
  unfold Dev.deliverStream
  rw [hw]
  dsimp only
  rw [ho, Dev.ringCheck_of_ready hr, hr, hwrite, hlast]
  rfl

/-- The one entry that waits is put into its sealed ring and joins the open block. -/
theorem Dev.deliver5_joins (hw : d.waiting i.1 x.1 = [e]) (ho : d.inOrder i.1 x.1 e = true) (hr : d.ringReady i.1 (streamRing x.1) = true)
    (hdpl : d.bit Reg.DPL_CFG_EN = false) (hseal : d.sealing i.1 x.1 = true) (he : e.sealed = false)
    (hblk : ((d.slices[i]).blk[x]).length < 63) :
    ∃ g, Dev.PutsEntry (d.unbuffer e) g i (streamRing x.1) e.bytes ∧ d.deliver5 i.1 x.1 = g.joinBlock i x e.bytes := by
  have hputs := Dev.ringPut_puts (d := d.unbuffer e) hdpl i (streamRing x.1) e.bytes (some (ringCause (streamRing x.1).1))
  refine ⟨_, hputs, Dev.deliver5_writes hw ho hr (Dev.writeStream_joins (d := d.unbuffer e) hdpl hseal he hblk) ?_⟩
  exact (Dev.waiting_of_vats hputs.vats i.1 x.1).trans (Dev.waiting_unbuffer hw)

theorem streamDeliver_sealed {s : State} (hs : Clean s) (hl : Live s) (hdpl : s.dev.bit Reg.DPL_CFG_EN = false)
    (hw : s.dev.waiting i.1 x.1 = [e]) (ho : s.dev.inOrder i.1 x.1 e = true) (hr : s.dev.ringReady i.1 (streamRing x.1) = true)
    (hseal : s.dev.sealing i.1 x.1 = true → e.sealed = false ∧ ((s.dev.slices[i]).blk[x]).length < 63) :
    Answers (.streamDeliver i x) s (fun t =>
      Mem.reads t.mem t.dev.ep (s.dev.memKey i.1 (s.dev.f (Reg.SLC_RING_CFG_LOC i.1 (streamRing x.1).1))
        (s.dev.entryAddr i.1 (streamRing x.1).1 (s.dev.ringPi i.1 (streamRing x.1)))) e.bytes.length = e.bytes ∧
      t.dev.ringPi i.1 (streamRing x.1) = (s.dev.ringPi i.1 (streamRing x.1) + 1) % 2 ^ 32 ∧
      (t.dev.slices[i]).blk[x] = if s.dev.sealing i.1 x.1 then (s.dev.slices[i]).blk[x] ++ [e.bytes] else (s.dev.slices[i]).blk[x]) := by
  by_cases hon : s.dev.sealing i.1 x.1 = true
  · obtain ⟨g, hputs, heq⟩ := Dev.deliver5_joins hw ho hr hdpl hon (hseal hon).1 (hseal hon).2
    obtain ⟨b, c, hslice⟩ := hputs.slice
    refine .of_done hl (congrArg s.done heq) ⟨(State.commit_stored (hputs.wq.trans (congrArg (· ++ _) hs.1)) (hputs.lost.trans hs.2) hputs.ep).1, ?_, ?_⟩
    · refine Eq.trans ?_ hputs.pi
      show (g.joinBlock i x e.bytes).ringPi i.1 _ = _
      rw [Dev.ringPi_eq, Dev.ringPi_eq, Dev.joinBlock, Dev.slices_modSlice_same]
    · rw [if_pos hon, State.commit_slices, Dev.joinBlock, Dev.slices_modSlice_same]
      dsimp only
      rw [getElem_put_same, hslice]
      rfl
  · have hoff := Bool.eq_false_iff.mpr hon
    obtain ⟨hputs, -⟩ := Dev.deliver5_puts hw ho hr hdpl hoff
    obtain ⟨b, c, hslice⟩ := hputs.slice
    refine .of_done hl rfl ⟨(State.commit_stored (hputs.wq.trans (congrArg (· ++ _) hs.1)) (hputs.lost.trans hs.2) hputs.ep).1, hputs.pi, ?_⟩
    rw [if_neg hon, State.commit_slices, hslice]
    rfl

end

/-! ### A checkpoint is written and chained (R191) -/

/-- The signed checkpoint is one posted write at its slot, and the next one's chain hash covers it. -/
theorem Dev.writeCkpt_chained {d : Dev} {i : Fin 64} {c : Ckpt} (hdpl : d.bit Reg.DPL_CFG_EN = false) (hc : (d.slices[i]).ckpt = some c)
    (hpath : d.pathUp i.1 (d.f (Reg.LDG_CFG_LOC i.1)) (d.f64 (Reg.LDG_CK_BASE_LO_ADDR i.1) (Reg.LDG_CK_BASE_HI_ADDR i.1) + c.slot * 0x5000)
      (0x260 + 64 * c.rows.length) = true) (hrows : c.rows.all (fun r => r.2.2.2.isSome || d.cutReady r.1) = true) :
    ∃ n sig, d.writeCkpt i.1 = ((((d.setFreeN n).post (d.memKey i.1 (d.f (Reg.LDG_CFG_LOC i.1))
      (d.f64 (Reg.LDG_CK_BASE_LO_ADDR i.1) (Reg.LDG_CK_BASE_HI_ADDR i.1) + c.slot * 0x5000)) (d.ckBody c ++ sig)).wrap (Reg.LDG_CK_PI_PI i.1)).modSlice i
        (fun e => { e with ckpt := none, prevHash := Config.sha384 (d.ckBody c ++ sig) })).ckptDone i c := by
  obtain ⟨n, hn⟩ := d.ckSign_spares c (d.ckBody c)
  refine ⟨n, (d.ckSign c (d.ckBody c)).1, ?_⟩
  unfold Dev.writeCkpt
  rw [Dev.slices_sl, hc]
  dsimp only
  rw [hrows, hpath, hn, Dev.write_eq (d := d.setFreeN n) hdpl, sl_val]
  rfl

theorem Dev.ckptDone_prevHash (d : Dev) (i : Fin 64) (c : Ckpt) : ((d.ckptDone i c).slices[i]).prevHash = (d.slices[i]).prevHash := by
  obtain ⟨-, hslices, -⟩ := d.releaseKey_spares c.hold
  have hraised : ∀ b : Bool, ((if b then (d.releaseKey c.hold).mordEvt Reg.MORD_EVT_ORPHAN_USE else d.releaseKey c.hold).slices[i]).prevHash =
      (d.slices[i]).prevHash := fun b => by
    obtain ⟨h, hh⟩ := (d.releaseKey c.hold).raise_keepsSlices Reg.MORD_EVT_ORPHAN_USE 1 57 i
    have hkept : ((d.releaseKey c.hold).slices[i]).prevHash = (d.slices[i]).prevHash := by rw [hslices]
    cases b
    · exact hkept
    · exact (congrArg SliceEng.prevHash hh).trans hkept
  unfold Dev.ckptDone
  rw [Dev.signal, sl_val, Dev.slices_modSlice_same]
  exact hraised c.orphan

theorem checkpointWrite_chained {s : State} {i : Fin 64} {c : Ckpt} (hs : Clean s) (hl : Live s) (hdpl : s.dev.bit Reg.DPL_CFG_EN = false)
    (hc : (s.dev.slices[i]).ckpt = some c)
    (hpath : s.dev.pathUp i.1 (s.dev.f (Reg.LDG_CFG_LOC i.1)) (s.dev.f64 (Reg.LDG_CK_BASE_LO_ADDR i.1) (Reg.LDG_CK_BASE_HI_ADDR i.1) + c.slot * 0x5000)
      (0x260 + 64 * c.rows.length) = true) (hrows : c.rows.all (fun r => r.2.2.2.isSome || s.dev.cutReady r.1) = true) :
    ∃ sig, Answers (.checkpointWrite i) s (fun t =>
      Mem.reads t.mem t.dev.ep (s.dev.memKey i.1 (s.dev.f (Reg.LDG_CFG_LOC i.1))
        (s.dev.f64 (Reg.LDG_CK_BASE_LO_ADDR i.1) (Reg.LDG_CK_BASE_HI_ADDR i.1) + c.slot * 0x5000)) (s.dev.ckBody c ++ sig).length = s.dev.ckBody c ++ sig ∧
      (t.dev.slices[i]).prevHash = Config.sha384 (s.dev.ckBody c ++ sig) ∧ (t.dev.slices[i]).ckpt = none) := by
  obtain ⟨n, sig, heq⟩ := Dev.writeCkpt_chained hdpl hc hpath hrows
  obtain ⟨g, hg⟩ : ∃ g, g = (((s.dev.setFreeN n).post (s.dev.memKey i.1 (s.dev.f (Reg.LDG_CFG_LOC i.1))
      (s.dev.f64 (Reg.LDG_CK_BASE_LO_ADDR i.1) (Reg.LDG_CK_BASE_HI_ADDR i.1) + c.slot * 0x5000)) (s.dev.ckBody c ++ sig)).wrap (Reg.LDG_CK_PI_PI i.1)).modSlice i
        (fun e => { e with ckpt := none, prevHash := Config.sha384 (s.dev.ckBody c ++ sig) }) := ⟨_, rfl⟩
  rw [← hg] at heq
  have hwq : g.wq = s.dev.wq ++ [(s.dev.memKey i.1 (s.dev.f (Reg.LDG_CFG_LOC i.1))
      (s.dev.f64 (Reg.LDG_CK_BASE_LO_ADDR i.1) (Reg.LDG_CK_BASE_HI_ADDR i.1) + c.slot * 0x5000), s.dev.ckBody c ++ sig)] ∧ g.lost = s.dev.lost ∧ g.ep = s.dev.ep := by
    rw [hg]
    exact ⟨rfl, rfl, rfl⟩
  have hslice : (g.slices[i]).ckpt = none ∧ (g.slices[i]).prevHash = Config.sha384 (s.dev.ckBody c ++ sig) := by
    rw [hg, Dev.slices_modSlice_same]
    exact ⟨rfl, rfl⟩
  obtain ⟨hmem, hck, -⟩ := Dev.ckptDone_spares g i c
  have hprev := g.ckptDone_prevHash i c
  refine ⟨sig, .of_done hl (congrArg s.done heq) ⟨(State.commit_stored ((hmem.wq.trans hwq.1).trans (congrArg (· ++ _) hs.1))
    ((hmem.lost.trans hwq.2.1).trans hs.2) (hmem.ep.trans hwq.2.2)).1, ?_, ?_⟩⟩
  · rw [State.commit_slices, hprev, hslice.2]
  · rw [State.commit_slices, hck, hslice.1]

end Sys2Proof.Machine
end

section
/-!
PROOF. Divergence, chains, checkpoints and snapshots of the ledger (R180, R186–R191, R456).
-/

namespace Sys2Proof.Machine
open Sys2Proof

/-! ### Divergence (R180) -/

section
variable {d : Dev} {v k : Fin 16}

theorem Dev.tb_divergeChan_same (d : Dev) (v k : Fin 16) : (d.divergeChan v k).tb (Reg.VAT_LDG_DIV_CH v.1) k.1 =
    (d.tb (Reg.VAT_LDG_DIV_CH v.1) k.1 || !(d.measOf v k).a.agrees (d.measOf v k).b) := by
  unfold Dev.divergeChan
  dsimp only
  split
  next h =>
    rcases Bool.or_eq_true_iff.mp h with ha | ht
    · rw [ha, Bool.not_true, Bool.or_false]
    · rw [ht, Bool.true_or]
  next h =>
    obtain ⟨ha, -⟩ := Bool.or_eq_false_iff.mp (Bool.eq_false_iff.mpr h)
    rw [Dev.tb_of_f (Dev.f_pend_off _ (by decide) (Nat.le_of_ble_eq_true rfl) (.inr ?_)), Dev.tb_setTb _ _ _ _ k.2, if_pos rfl, ha,
      Bool.not_false, Bool.or_true]
    simp only [Reg.VAT_LDG_DIV_CH, Reg.VAT_LDG_DIV_at]
    omega

theorem Dev.tb_divergeChan_ne (d : Dev) (v : Fin 16) {j k : Fin 16} (h : j ≠ k) :
    (d.divergeChan v k).tb (Reg.VAT_LDG_DIV_CH v.1) j.1 = d.tb (Reg.VAT_LDG_DIV_CH v.1) j.1 := by
  unfold Dev.divergeChan
  dsimp only
  split
  · rfl
  · rw [Dev.tb_of_f (Dev.f_pend_off _ (by decide) (Nat.le_of_ble_eq_true rfl) (.inr ?_)), Dev.tb_setTb _ _ _ _ j.2,
      if_neg (fun he => h (Fin.ext he))]
    simp only [Reg.VAT_LDG_DIV_CH, Reg.VAT_LDG_DIV_at]
    omega

theorem Dev.measOf_divergeChan (d : Dev) (v k u j : Fin 16) : (d.divergeChan v k).measOf u j = d.measOf u j :=
  Dev.measOf_of_vats (d.divergeChan_vats v k) u j

/-- The channels of a list are compared, each once, and no other. -/
theorem Dev.tb_divergeChans (d : Dev) (v j : Fin 16) {l : List (Fin 16)} (hl : l.Nodup) :
    (l.foldl (fun d k => d.divergeChan v k) d).tb (Reg.VAT_LDG_DIV_CH v.1) j.1 =
      if j ∈ l then (d.tb (Reg.VAT_LDG_DIV_CH v.1) j.1 || !(d.measOf v j).a.agrees (d.measOf v j).b)
      else d.tb (Reg.VAT_LDG_DIV_CH v.1) j.1 := by
  refine foldl_cell (I := fun e : Dev => e.vats = d.vats) (F := fun d k => Dev.divergeChan d v k)
    (rd := fun e (k : Fin 16) => e.tb (Reg.VAT_LDG_DIV_CH v.1) k.1) (G := fun k b => b || !(d.measOf v k).a.agrees (d.measOf v k).b)
    (fun e k he => (e.divergeChan_vats v k).trans he) (fun e k he => ?_) (fun e k j he hne => e.tb_divergeChan_ne v hne) j l hl d rfl
  rw [e.tb_divergeChan_same, Dev.measOf_of_vats he]

theorem Dev.divergeChans_vats (d : Dev) (v : Fin 16) (l : List (Fin 16)) : (l.foldl (fun d k => d.divergeChan v k) d).vats = d.vats :=
  List.foldlRecOn _ _ (motive := fun e : Dev => e.vats = d.vats) rfl fun e he k _ => (e.divergeChan_vats v k).trans he

/-- The channels compared at once are those whose outputs are not awaited. -/
theorem mem_atOnce {l : Nat} (k : Fin 16) : k ∈ maskList (2 ^ 16 - 1 - ((2 ^ 16 - 1) &&& l)) ↔ l.testBit k.1 = false := by
  have hlt : (2 ^ 16 - 1) &&& l < 2 ^ 16 := Nat.lt_of_le_of_lt Nat.and_le_left (by decide)
  rw [mem_maskList, Nat.sub_sub, Nat.add_comm 1, Nat.testBit_two_pow_sub_succ hlt, decide_eq_true k.2, Bool.true_and, Bool.not_eq_true',
    Nat.testBit_and, Nat.testBit_two_pow_sub_one, decide_eq_true k.2, Bool.true_and]

/-- The channels a check of divergence waits for. -/
def Dev.awaited (d : Dev) (v : Fin 16) : Nat := if d.integrating v then d.popMask v else 0

theorem Dev.awaited_testBit (d : Dev) (v k : Fin 16) : (d.awaited v).testBit k.1 = (d.integrating v && decide (k.1 < d.populated v)) := by
  unfold Dev.awaited
  cases d.integrating v
  · exact Nat.zero_testBit _
  · exact Nat.testBit_two_pow_sub_one _ _

theorem divergenceCheck_compares {s : State} (hl : Live s) (h : s.dev.now % 400000000 = 0) :
    Answers (.divergenceCheck v) s (fun t =>
      (t.dev.vats[v]).div = (s.dev.now, 0xFFFF &&& (if s.dev.integrating v then s.dev.popMask v else 0)) ∧
      ∀ k : Fin 16, t.dev.tb (Reg.VAT_LDG_DIV_CH v.1) k.1 =
        if s.dev.integrating v = true ∧ k.1 < s.dev.populated v then s.dev.tb (Reg.VAT_LDG_DIV_CH v.1) k.1
        else (s.dev.tb (Reg.VAT_LDG_DIV_CH v.1) k.1 || !((s.dev.measOf v k).a.agrees (s.dev.measOf v k).b))) := by
  obtain ⟨e, he⟩ : ∃ e, e = (s.dev.modVat v (fun x => { x with div := (s.dev.now, 2 ^ 16 - 1) })) := ⟨_, rfl⟩
  obtain ⟨g, hg⟩ : ∃ g, g = e.modVat v (fun x => { x with div := (x.div.1, x.div.2 &&& s.dev.awaited v) }) := ⟨_, rfl⟩
  have hdiv : (e.vats[v]).div = (s.dev.now, 2 ^ 16 - 1) := by rw [he, Dev.vats_modVat_same]
  have hcheck : s.dev.divergenceCheck v = (maskList (2 ^ 16 - 1 - ((2 ^ 16 - 1) &&& s.dev.awaited v))).foldl (fun d k => d.divergeChan v k) g := by
    unfold Dev.divergenceCheck
    rw [if_pos h]
    dsimp only
    rw [← he]
    unfold Dev.divergeBut
    rw [hdiv, hg]
    rfl
  refine .of_done hl (congrArg s.done hcheck) ⟨?_, fun k => ?_⟩
  · rw [State.commit_vats, Dev.divergeChans_vats, hg, Dev.vats_modVat_same, hdiv]
    rfl
  · have hf : ∀ r, g.f r = s.dev.f r := fun r => by rw [hg, he]; rfl
    have hm : g.measOf v k = e.measOf v k := by
      rw [hg]
      exact e.measOf_modVat v v k fun _ => rfl
    have hm' : e.measOf v k = s.dev.measOf v k := by
      rw [he]
      exact s.dev.measOf_modVat v v k fun _ => rfl
    have htb := g.tb_divergeChans v k (maskList_nodup (2 ^ 16 - 1 - ((2 ^ 16 - 1) &&& s.dev.awaited v)))
    have hmem : k ∈ maskList (2 ^ 16 - 1 - ((2 ^ 16 - 1) &&& s.dev.awaited v)) ↔ ¬(s.dev.integrating v = true ∧ k.1 < s.dev.populated v) := by
      rw [mem_atOnce, Dev.awaited_testBit, ← Bool.not_eq_true, Bool.and_eq_true, decide_eq_true_eq]
    rw [Dev.tb_of_f (hf _), hm, hm'] at htb
    refine Eq.trans htb ?_
    by_cases hk : s.dev.integrating v = true ∧ k.1 < s.dev.populated v
    · rw [if_pos hk, if_neg (fun hc => hmem.mp hc hk)]
    · rw [if_neg hk, if_pos (hmem.mpr hk)]

theorem sinc4Output_compares {s : State} {z : ZOut} {m : Meas} (hl : Live s)
    (hz : (s.dev.measOf v k).sinc4 true (s.dev.iFs v) (s.dev.vFs v) = some (z, m)) (hw : s.dev.calWaits v k (640 * z.m) = false)
    (hk : (s.dev.vats[v]).div.2.testBit k.1 = true) (ht : (s.dev.vats[v]).div.1 < 640 * z.m) :
    Answers (.sinc4Output v k true) s (fun t => t.dev.tb (Reg.VAT_LDG_DIV_CH v.1) k.1 =
      (s.dev.tb (Reg.VAT_LDG_DIV_CH v.1) k.1 || !((s.dev.measOf v k).a.agrees (s.dev.measOf v k).b))) := by
  have heq : s.dev.sinc4Output v k true = ((s.dev.diverge v k (640 * z.m)).modMeas v k (fun _ => m)).impSample v k true z := by
    unfold Dev.sinc4Output
    rw [hz]
    exact if_neg (by rw [if_pos rfl, hw]; exact Bool.false_ne_true)
  have hdiv : s.dev.diverge v k (640 * z.m) =
      (s.dev.modVat v (fun y => { y with div := ((s.dev.vats[v]).div.1, setBit (s.dev.vats[v]).div.2 k.1 false) })).divergeChan v k :=
    if_pos (by rw [hk, decide_eq_true ht]; rfl)
  have hmeas : (s.dev.modVat v (fun y => { y with div := ((s.dev.vats[v]).div.1, setBit (s.dev.vats[v]).div.2 k.1 false) })).measOf v k =
      s.dev.measOf v k := s.dev.measOf_modVat v v k fun _ => rfl
  have htb := Dev.tb_divergeChan_same (s.dev.modVat v (fun y => { y with div := ((s.dev.vats[v]).div.1, setBit (s.dev.vats[v]).div.2 k.1 false) })) v k
  rw [← hdiv, hmeas] at htb
  exact .of_done hl (congrArg s.done heq) htb

end

/-! ### Chains (R190) -/

section
variable {s : State} {src : Src} {i : Fin 64} {w : Word}

/-- The open blocks of a chain that has ended are closed as SEAL is cleared. -/
def Dev.unsealed (d : Dev) (i w : Nat) : Dev := if d.bit (Reg.LDG_CFG_SEAL i) && !d.bit (Reg.LDG_CFG_EN i) && !w.testBit 1 then d.closeBlocks i false else d

theorem Dev.streams_unsealed (d : Dev) (i : Fin 64) (w : Nat) : Dev.Streams d (d.unsealed i.1 w) := by
  unfold Dev.unsealed
  split
  · exact d.streams_closeBlocks i.2 false
  · exact .refl d

theorem Reg.ledger_offStream (i : Fin 64) {r : RF} (hl : r.lo < 32) (ha : 0x20038000 ≤ r.addr ∧ r.addr < 0x20039000) : r.OffStream := by
  refine ⟨hl, .inr (.inl ⟨by omega, by omega⟩), fun v => ?_⟩
  simp only [Reg.VAT_LDG_DROP_at]
  omega

/-- What a write of LDG_CFG does to its fields while EN is 0. -/
def ledgerPick (f : FieldRow) : Verdict := if f.lo = 0 then .leave else .act

/-- The fields of LDG_CFG but EN have been written while EN is 0. -/
def Dev.ledgerSet (d : Dev) (src : Src) (i w : Nat) : Dev := (d.unsealed i w).writeRowWith src (Reg.LDG_CFG_at i) w ledgerPick

theorem Dev.ledgerCfg_disabled {d : Dev} (hen : d.f (Reg.LDG_CFG_EN i.1) = 0) (hr : (d.guard src (Reg.LDG_CFG_at i.1) true).isNone = true) (w : Nat) :
    d.ledgerCfg src i.1 w =
      (let e := (d.answer 0).ledgerSet src i.1 w
       if w.testBit 0 = false then e
       else if e.f (Reg.LDG_CFG_LOC i.1) < 2 ∧ e.f (Reg.LDG_CFG_LOC i.1) ≠ e.f (Reg.SLC_PASID_PORT i.1) then e.logRefused src (Reg.LDG_CFG_at i.1)
       else (e.setF (Reg.LDG_CFG_EN i.1) 1).newChain i.1) := by
  have hbit : (d.answer 0).bit (Reg.LDG_CFG_EN i.1) = false := beq_eq_false_iff_ne.mpr (by
    show d.f (Reg.LDG_CFG_EN i.1) ≠ 1
    rw [hen]
    decide)
  unfold Dev.ledgerCfg
  dsimp only
  rw [Dev.onWrite_unguarded hr]
  unfold Dev.ledgerSet Dev.unsealed ledgerPick
  simp only [hbit, Bool.false_eq_true, and_false, if_false]

theorem Reg.ledgerCfg_row (i : Fin 64) : (Reg.row (Reg.LDG_CFG_at i.1)).any (fun row => row.base == 0x20038000 &&
    row.fields.contains ⟨1, 1, .rw, .const 1, true, [], 0⟩) = true ∧ (Reg.row (Reg.LDG_CFG_at i.1)).any (fun row => row.base == 0x20038000 &&
    row.fields.contains ⟨12, 2, .rw, .const 0, true, [(0, 2)], 0⟩) = true := by
  have h : ∀ i : Fin 64, (Reg.row (Reg.LDG_CFG_at i.1)).any (fun row => row.base == 0x20038000 &&
    row.fields.contains ⟨1, 1, .rw, .const 1, true, [], 0⟩) = true ∧ (Reg.row (Reg.LDG_CFG_at i.1)).any (fun row => row.base == 0x20038000 &&
    row.fields.contains ⟨12, 2, .rw, .const 0, true, [(0, 2)], 0⟩) = true := by decide +kernel
  exact h i

theorem Dev.ledgerSet_seal (d : Dev) (src : Src) (i : Fin 64) (w : Nat) :
    (d.ledgerSet src i.1 w).f (Reg.LDG_CFG_SEAL i.1) = bits w 1 1 :=
  ((d.unsealed i.1 w).f_writeRowWith_listed src w 0x20038000 ⟨1, 1, .rw, .const 1, true, [], 0⟩ (Reg.ledgerCfg_row i).1 rfl
    (.inr (by simp only [Reg.LDG_CFG_at]; omega))).trans (FieldRow.written_rw rfl _ _ _ (FieldRow.admits_free rfl rfl _))

theorem Dev.ledgerSet_loc (d : Dev) (src : Src) (i : Fin 64) {w : Nat} (h : bits w 12 2 ≤ 2) :
    (d.ledgerSet src i.1 w).f (Reg.LDG_CFG_LOC i.1) = bits w 12 2 := by
  refine ((d.unsealed i.1 w).f_writeRowWith_listed src w 0x20038000 ⟨12, 2, .rw, .const 0, true, [(0, 2)], 0⟩ (Reg.ledgerCfg_row i).2 rfl
    (.inr (by simp only [Reg.LDG_CFG_at]; omega))).trans (FieldRow.written_rw rfl _ _ _ ?_)
  simp [FieldRow.admits, Nat.mod_one]
  exact h

theorem Dev.ledgerSet_port (d : Dev) (src : Src) (i : Fin 64) (w : Nat) :
    (d.ledgerSet src i.1 w).f (Reg.SLC_PASID_PORT i.1) = d.f (Reg.SLC_PASID_PORT i.1) := by
  have hrow := (Dev.Within.refl (bs := [(0x20038000, 0x20039000)]) (K := True) (d.unsealed i.1 w)).writeRowWith src w ledgerPick
    (InBlocks.of_first (by simp only [Reg.LDG_CFG_at]; omega) : InBlocks _ (Reg.LDG_CFG_at i.1))
  refine (hrow.f _ ⟨Nat.le_of_ble_eq_true rfl, fun b hb => ?_⟩).trans ((d.streams_unsealed i w).f _ ⟨Nat.le_of_ble_eq_true rfl, .inr (.inl ⟨?_, ?_⟩), fun v => ?_⟩)
  · simp only [List.mem_cons, List.mem_nil_iff, or_false] at hb
    simp only [Reg.SLC_PASID_PORT, Reg.SLC_PASID_at]
    rcases hb with rfl | rfl | rfl | rfl <;> omega
  all_goals simp only [Reg.SLC_PASID_PORT, Reg.SLC_PASID_at, Reg.VAT_LDG_DROP_at]; omega

theorem Dev.newChain_started (d : Dev) (i : Fin 64) : (d.newChain i.1).f (Reg.LDG_CFG_EN i.1) = d.f (Reg.LDG_CFG_EN i.1) ∧
    ((d.newChain i.1).slices[i]).chainStart = true ∧ ((d.newChain i.1).slices[i]).prevHash = [] ∧
    ∀ x : Fin 5, ((d.newChain i.1).slices[i]).blockNo[x] = 0 ∧ ((d.newChain i.1).slices[i]).head[x] = [] ∧
      ((d.newChain i.1).slices[i]).blk[x] = [] := by
  have hen := (d.streams_closeBlocks i.2 true).f _ (Reg.ledger_offStream i (r := Reg.LDG_CFG_EN i.1) (by show 0 < 32; decide)
    (by simp only [Reg.LDG_CFG_EN, Reg.LDG_CFG_at]; omega))
  unfold Dev.newChain
  dsimp only
  generalize d.closeBlocks i.1 true = e at hen ⊢
  rw [sl_val, Dev.slices_modSlice_same]
  refine ⟨?_, rfl, rfl, fun x => ⟨Vector.getElem_replicate _, Vector.getElem_replicate _, Vector.getElem_replicate _⟩⟩
  refine Eq.trans ?_ hen
  refine (Dev.f_setF_off _ _ (Nat.le_of_ble_eq_true rfl) (Nat.le_of_ble_eq_true rfl) ?_).trans
    (Dev.f_setF_off _ _ (Nat.le_of_ble_eq_true rfl) (Nat.le_of_ble_eq_true rfl) ?_)
  · simp only [Reg.LDG_CFG_EN, Reg.LDG_CFG_at, Reg.LDG_CHAIN_HI_ID, Reg.LDG_CHAIN_HI_at]
    omega
  · simp only [Reg.LDG_CFG_EN, Reg.LDG_CFG_at, Reg.LDG_CHAIN_LO_ID, Reg.LDG_CHAIN_LO_at]
    omega

theorem chainStart_starts (hr : Reaches s src (Reg.LDG_CFG_at i.1)) (hw : w.toNat.testBit 0 = true) (hen : s.dev.f (Reg.LDG_CFG_EN i.1) = 0)
    (hloc : bits w.toNat 12 2 = 2 ∨ bits w.toNat 12 2 < 2 ∧ bits w.toNat 12 2 = s.dev.f (Reg.SLC_PASID_PORT i.1)) :
    Answers (.chainStart src i w) s (fun t => t.dev.bit (Reg.LDG_CFG_EN i.1) = true ∧ (t.dev.slices[i]).chainStart = true ∧
      (t.dev.slices[i]).prevHash = [] ∧ ∀ x : Fin 5, (t.dev.slices[i]).blockNo[x] = 0 ∧ (t.dev.slices[i]).head[x] = [] ∧
        (t.dev.slices[i]).blk[x] = []) := by
  have hbit : s.dev.bit (Reg.LDG_CFG_EN i.1) = false := by
    unfold Dev.bit
    rw [hen]
    rfl
  have hcfg := Dev.ledgerCfg_disabled hen hr.2 w.toNat
  have hset := (s.dev.answer 0).ledgerSet_loc src i (w := w.toNat) (by omega)
  have hport : ((s.dev.answer 0).ledgerSet src i.1 w.toNat).f (Reg.SLC_PASID_PORT i.1) = s.dev.f (Reg.SLC_PASID_PORT i.1) :=
    (s.dev.answer 0).ledgerSet_port src i w.toNat
  dsimp only at hcfg
  generalize (s.dev.answer 0).ledgerSet src i.1 w.toNat = e at hcfg hset hport
  rw [hw, hset, hport, if_neg (by decide), if_neg (by omega)] at hcfg
  obtain ⟨hon, hstart, hprev, hblocks⟩ := (e.setF (Reg.LDG_CFG_EN i.1) 1).newChain_started i
  have hexec : exec (.chainStart src i w) s = s.done ((e.setF (Reg.LDG_CFG_EN i.1) 1).newChain i.1) := by
    refine congrArg s.done (Eq.trans (if_pos ?_) hcfg)
    rw [hw, hbit]
    rfl
  generalize (e.setF (Reg.LDG_CFG_EN i.1) 1).newChain i.1 = g at hon hstart hprev hblocks hexec
  exact .of_done hr.1 hexec ⟨congrArg (· == 1) (hon.trans (Dev.f_setF_same e (Reg.LDG_CFG_EN i.1) 1)), hstart, hprev, hblocks⟩

theorem sealClear_clears (hr : Reaches s src (Reg.LDG_CFG_at i.1)) (hw : w.toNat.testBit 0 = false) (hw1 : w.toNat.testBit 1 = false)
    (hseal : s.dev.bit (Reg.LDG_CFG_SEAL i.1) = true) (hen : s.dev.f (Reg.LDG_CFG_EN i.1) = 0) :
    Answers (.sealClear src i w) s (fun t => t.dev.bit (Reg.LDG_CFG_SEAL i.1) = false) := by
  have hcfg := Dev.ledgerCfg_disabled hen hr.2 w.toNat
  dsimp only at hcfg
  rw [if_pos hw] at hcfg
  have hset := (s.dev.answer 0).ledgerSet_seal src i w.toNat
  have hexec : exec (.sealClear src i w) s = s.done ((s.dev.answer 0).ledgerSet src i.1 w.toNat) := by
    refine congrArg s.done (Eq.trans (if_pos ?_) hcfg)
    rw [hw1, hseal]
    rfl
  refine .of_done hr.1 hexec ((congrArg (· == 1) hset).trans ?_)
  rw [bits_one_beq, hw1]

/-! ### Checkpoints (R191) -/

/-- A checkpoint of this instant is formed or counted as skipped. -/
def Dev.ckptDue (d : Dev) (i : Nat) (closing : Bool) : Dev := if d.ckBarred i then d.skipCkpt i else d.formCkpt i d.now closing

/-- A checkpoint's closing is noted. -/
def Dev.ckptClosed (d : Dev) (i : Nat) (closing : Bool) : Dev :=
  if closing then d.modSlice (sl i) (fun e => { e with closingDone := true }) else d

theorem Dev.checkpoint_due {d : Dev} (hen : d.bit (Reg.LDG_CFG_EN i.1) = true) (hst : d.f (Reg.SLC_STATE_STATE i.1) ≠ 0)
    (hnow : d.now % (d.f (Reg.LDG_CFG_PERIOD i.1) * 40000000) = 0) (hdone : (d.slices[i]).closingDone = false) :
    d.checkpoint i.1 = (d.ckptDue i.1 (d.f (Reg.SLC_STATE_STATE i.1) == 2 && d.atRest i.1)).ckptClosed i.1
      (d.f (Reg.SLC_STATE_STATE i.1) == 2 && d.atRest i.1) := by
  have hdone' : (d.slices[sl i.1]).closingDone = false := (congrArg SliceEng.closingDone (d.slices_sl i)).trans hdone
  unfold Dev.checkpoint
  rw [hen, bne_iff_ne.mpr hst, hnow, hdone']
  rfl

theorem Dev.ckptClosed_ckpt (d : Dev) (i : Fin 64) (closing : Bool) :
    ((d.ckptClosed i.1 closing).slices[i]).ckpt = (d.slices[i]).ckpt ∧ ∀ r : RF, (d.ckptClosed i.1 closing).f r = d.f r := by
  unfold Dev.ckptClosed
  cases closing
  · exact ⟨rfl, fun _ => rfl⟩
  · rw [if_pos rfl, sl_val, Dev.slices_modSlice_same]
    exact ⟨rfl, fun _ => rfl⟩

theorem Dev.formCkpt_formed (d : Dev) (i : Fin 64) (t : Nat) (closing : Bool) :
    ∃ c, ((d.formCkpt i.1 t closing).slices[i]).ckpt = some c ∧ c.inst = t ∧ c.closing = closing ∧
      c.slot = d.f (Reg.LDG_CK_PI_PI i.1) % 2 ^ d.f (Reg.LDG_CFG_CK_LOG2 i.1) := by
  have hs := (d.streams_closeBlocks i.2 false).f
  have hpi := hs _ (Reg.ledger_offStream i (r := Reg.LDG_CK_PI_PI i.1) (Nat.le_of_ble_eq_true rfl)
    (by simp only [Reg.LDG_CK_PI_PI, Reg.LDG_CK_PI_at]; omega))
  have hlog := hs _ (Reg.ledger_offStream i (r := Reg.LDG_CFG_CK_LOG2 i.1) (Nat.le_of_ble_eq_true rfl)
    (by simp only [Reg.LDG_CFG_CK_LOG2, Reg.LDG_CFG_at]; omega))
  unfold Dev.formCkpt
  dsimp only
  generalize d.closeBlocks i.1 false = e at hpi hlog ⊢
  rw [sl_val, Dev.slices_modSlice_same, ← hpi, ← hlog]
  exact ⟨_, rfl, rfl, rfl, rfl⟩

theorem checkpoint_forms (hl : Live s) (hen : s.dev.bit (Reg.LDG_CFG_EN i.1) = true) (hst : s.dev.f (Reg.SLC_STATE_STATE i.1) ≠ 0)
    (hnow : s.dev.now % (s.dev.f (Reg.LDG_CFG_PERIOD i.1) * 40000000) = 0) (hdone : (s.dev.slices[i]).closingDone = false) :
    Answers (.checkpoint i) s (fun t =>
      if s.dev.ckBarred i.1 then
        t.dev.f (Reg.LDG_CK_SKIP_COUNT i.1) = min (2 ^ (Reg.LDG_CK_SKIP_COUNT i.1).w - 1) (s.dev.f (Reg.LDG_CK_SKIP_COUNT i.1) + 1) ∧
        (t.dev.slices[i]).ckpt = (s.dev.slices[i]).ckpt
      else ∃ c, (t.dev.slices[i]).ckpt = some c ∧ c.inst = s.dev.now ∧ c.closing = (s.dev.f (Reg.SLC_STATE_STATE i.1) == 2 && s.dev.atRest i.1) ∧
        c.slot = s.dev.f (Reg.LDG_CK_PI_PI i.1) % 2 ^ s.dev.f (Reg.LDG_CFG_CK_LOG2 i.1)) := by
  have heq := Dev.checkpoint_due hen hst hnow hdone
  generalize (s.dev.f (Reg.SLC_STATE_STATE i.1) == 2 && s.dev.atRest i.1) = closing at heq ⊢
  obtain ⟨hck, hf⟩ := (s.dev.ckptDue i.1 closing).ckptClosed_ckpt i closing
  by_cases hb : s.dev.ckBarred i.1 = true
  · have hdue : s.dev.ckptDue i.1 closing = s.dev.skipCkpt i.1 := if_pos hb
    have hskip : ((s.dev.skipCkpt i.1).slices[i]).ckpt = (s.dev.slices[i]).ckpt := by
      unfold Dev.skipCkpt
      rw [sl_val, Dev.slices_modSlice_same]
      rfl
    rw [hdue] at hck hf heq
    refine .of_done hl (congrArg s.done heq) ?_
    rw [if_pos hb]
    exact ⟨(hf _).trans (Dev.f_bump_same s.dev (Reg.LDG_CK_SKIP_COUNT i.1) 1), hck.trans hskip⟩
  · have hdue : s.dev.ckptDue i.1 closing = s.dev.formCkpt i.1 s.dev.now closing := if_neg hb
    obtain ⟨c, hc, hinst⟩ := s.dev.formCkpt_formed i s.dev.now closing
    rw [hdue] at hck hf heq
    refine .of_done hl (congrArg s.done heq) ?_
    rw [if_neg hb]
    exact ⟨c, hck.trans hc, hinst⟩

theorem ldgCkCi_judged (hr : Reaches s src (Reg.LDG_CK_CI_at i.1)) :
    Answers (.ldgCkCiWrite src i w) s (fun t =>
      if 0 ≤ sdiff32 w.toNat (s.dev.f (Reg.LDG_CK_CI_CI i.1)) ∧ 0 ≤ sdiff32 (s.dev.f (Reg.LDG_CK_PI_PI i.1)) w.toNat then
        t.dev.f (Reg.LDG_CK_CI_CI i.1) = w.toNat
      else t.dev.f (Reg.LDG_CK_CI_CI i.1) = s.dev.f (Reg.LDG_CK_CI_CI i.1) ∧
        t.dev.f (Reg.SLC_DB_ERR_COUNT i.1) = min (2 ^ (Reg.SLC_DB_ERR_COUNT i.1).w - 1) (s.dev.f (Reg.SLC_DB_ERR_COUNT i.1) + 1)) := by
  have hok : consumerOk (s.dev.f (Reg.LDG_CK_PI_PI i.1)) (s.dev.f (Reg.LDG_CK_CI_CI i.1)) w.toNat = true ↔
      0 ≤ sdiff32 w.toNat (s.dev.f (Reg.LDG_CK_CI_CI i.1)) ∧ 0 ≤ sdiff32 (s.dev.f (Reg.LDG_CK_PI_PI i.1)) w.toNat := by
    unfold consumerOk
    rw [Bool.and_eq_true, decide_eq_true_eq, decide_eq_true_eq]
  have hexec : exec (.ldgCkCiWrite src i w) s = s.done (
      if consumerOk (s.dev.f (Reg.LDG_CK_PI_PI i.1)) (s.dev.f (Reg.LDG_CK_CI_CI i.1)) w.toNat then
        (s.dev.answer 0).setF (Reg.LDG_CK_CI_CI i.1) w.toNat
      else (s.dev.answer 0).bump (Reg.SLC_DB_ERR_COUNT i.1)) := congrArg s.done (Dev.onWrite_unguarded hr.2 _)
  refine .of_done hr.1 hexec ?_
  by_cases h : 0 ≤ sdiff32 w.toNat (s.dev.f (Reg.LDG_CK_CI_CI i.1)) ∧ 0 ≤ sdiff32 (s.dev.f (Reg.LDG_CK_PI_PI i.1)) w.toNat
  · rw [if_pos h, if_pos (hok.mpr h), State.commit_f]
    exact (Dev.f_setF_same _ _ _).trans (Nat.mod_eq_of_lt w.isLt)
  · rw [if_neg h, if_neg (fun hc => h (hok.mp hc)), State.commit_f, State.commit_f]
    refine ⟨Dev.f_bump_off _ _ (Nat.le_of_ble_eq_true rfl) (Nat.le_of_ble_eq_true rfl) ?_, Dev.f_bump_same (s.dev.answer 0) _ 1⟩
    simp only [Reg.LDG_CK_CI_CI, Reg.LDG_CK_CI_at, Reg.SLC_DB_ERR_COUNT, Reg.SLC_DB_ERR_at]
    omega

end

/-! ### Snapshots (R456) -/

section
variable {d : Dev} {v k : Fin 16}

/-- The words of a snapshot's totals. -/
def totalWord (tot : List Nat) (w : Nat) : Nat := bits (tot.getD (w / 3) 0 / 256) (32 * (w % 3)) 32

/-- The words of the totals and of the running step are latched. -/
def Dev.latchWords (d : Dev) (v : Fin 16) (tot : List Nat) (st : Int × Int) : Dev :=
  forEach 4 (forEach 12 d (fun d w => d.setF (Reg.VAT_LDG_TOT_WORD v.1 w) (totalWord tot w))) (fun d w =>
    d.setF (Reg.VAT_LDG_STEP_WORD v.1 w) (bits (pattern 64 (if w < 2 then st.1 else st.2)) (32 * (w % 2)) 32))

theorem Dev.latchWords_off (d : Dev) (v : Fin 16) (tot : List Nat) (st : Int × Int) {r : RF} (hl : r.lo < 32)
    (h : r.addr < 0x20010710 + 0x1000 * v.1 ∨ 0x20010750 + 0x1000 * v.1 ≤ r.addr) : (d.latchWords v tot st).f r = d.f r := by
  unfold Dev.latchWords
  have htot : (forEach 12 d (fun d w => d.setF (Reg.VAT_LDG_TOT_WORD v.1 w) (totalWord tot w))).f r = d.f r := by
    unfold forEach
    refine List.foldlRecOn _ _ (motive := fun e : Dev => e.f r = d.f r) rfl fun e he w hw => ?_
    have hw := List.mem_range.mp hw
    refine (Dev.f_setF_off _ _ (Nat.le_of_ble_eq_true rfl) hl ?_).trans he
    simp only [Reg.VAT_LDG_TOT_WORD, Reg.VAT_LDG_TOT_at]
    omega
  generalize forEach 12 d _ = g at htot ⊢
  unfold forEach
  refine List.foldlRecOn _ _ (motive := fun e : Dev => e.f r = d.f r) htot fun e he w hw => ?_
  have hw := List.mem_range.mp hw
  refine (Dev.f_setF_off _ _ (Nat.le_of_ble_eq_true rfl) hl ?_).trans he
  simp only [Reg.VAT_LDG_STEP_WORD, Reg.VAT_LDG_STEP_at]
  omega

theorem Dev.latchWords_total (d : Dev) (v : Fin 16) (tot : List Nat) (st : Int × Int) {n : Nat} (hn : n < 12) :
    (d.latchWords v tot st).f (Reg.VAT_LDG_TOT_WORD v.1 n) = totalWord tot n := by
  have htot : (forEach 12 d (fun d w => d.setF (Reg.VAT_LDG_TOT_WORD v.1 w) (totalWord tot w))).f (Reg.VAT_LDG_TOT_WORD v.1 n) = totalWord tot n := by
    refine forEach_cell (I := fun _ => True) (rd := fun (e : Dev) a => e.f (Reg.VAT_LDG_TOT_WORD v.1 a)) (G := fun a _ => totalWord tot a)
      (fun _ _ _ _ => trivial) (fun e a _ _ => (Dev.f_setF_same _ _ _).trans (bits_mod _ _ _)) (fun e a _ b _ _ hne => ?_) trivial hn
    refine Dev.f_setF_off _ _ (Nat.le_of_ble_eq_true rfl) (Nat.le_of_ble_eq_true rfl) ?_
    simp only [Reg.VAT_LDG_TOT_WORD, Reg.VAT_LDG_TOT_at]
    omega
  unfold Dev.latchWords
  generalize forEach 12 d _ = g at htot ⊢
  unfold forEach
  refine List.foldlRecOn _ _ (motive := fun e : Dev => e.f (Reg.VAT_LDG_TOT_WORD v.1 n) = totalWord tot n) htot fun e he w hw => ?_
  refine (Dev.f_setF_off _ _ (Nat.le_of_ble_eq_true rfl) (Nat.le_of_ble_eq_true rfl) ?_).trans he
  simp only [Reg.VAT_LDG_STEP_WORD, Reg.VAT_LDG_STEP_at, Reg.VAT_LDG_TOT_WORD, Reg.VAT_LDG_TOT_at]
  omega

/-- The words of the snapshot's q-th total. -/
theorem totalWord_eq (tot : List Nat) (q : Nat) {n : Nat} (h : n < 3) : totalWord tot (3 * q + n) = tot.getD q 0 / 256 / 2 ^ (32 * n) % 2 ^ 32 := by
  unfold totalWord bits
  rw [show (3 * q + n) / 3 = q by omega, show (3 * q + n) % 3 = n by omega]

theorem ldgSnap_latches {s : State} {src : Src} {w : Word} {h : Nat × Nat × Int} (hr : Reaches s src (Reg.VAT_LDG_SNAP_at v.1))
    (hw : w.toNat = k.1) (hh : (s.dev.measOf v k).a.hist.head? = some h) :
    Answers (.ldgSnap src v w) s (fun t =>
      let a := (s.dev.measOf v k).a
      t.dev.f64 (Reg.VAT_LDG_SNAPTS_LO_TS v.1) (Reg.VAT_LDG_SNAPTS_HI_TS v.1) = 640 * h.1 % 2 ^ 64 ∧
      (∀ n < 3, t.dev.f (Reg.VAT_LDG_TOT_WORD v.1 n) = a.qIn / 256 / 2 ^ (32 * n) % 2 ^ 32) ∧
      (∀ n < 3, t.dev.f (Reg.VAT_LDG_TOT_WORD v.1 (3 + n)) = a.qOut / 256 / 2 ^ (32 * n) % 2 ^ 32) ∧
      (∀ n < 3, t.dev.f (Reg.VAT_LDG_TOT_WORD v.1 (6 + n)) = a.eIn / 256 / 2 ^ (32 * n) % 2 ^ 32) ∧
      (∀ n < 3, t.dev.f (Reg.VAT_LDG_TOT_WORD v.1 (9 + n)) = a.eOut / 256 / 2 ^ (32 * n) % 2 ^ 32)) := by
  have hk : v16 w.toNat = k := Fin.ext ((congrArg (· % 16) hw).trans (Nat.mod_eq_of_lt k.2))
  obtain ⟨a, ha⟩ : ∃ a, a = (s.dev.measOf v k).a := ⟨_, rfl⟩
  have hsnap : ∃ st, (s.dev.answer 0).snapshot v (v16 w.toNat) =
      ((s.dev.answer 0).setF64 (Reg.VAT_LDG_SNAPTS_LO_TS v.1) (Reg.VAT_LDG_SNAPTS_HI_TS v.1) (640 * h.1)).latchWords v
        [a.qIn, a.qOut, a.eIn, a.eOut] st := by
    rw [hk, ha]
    unfold Dev.snapshot
    dsimp only
    rw [show (((s.dev.answer 0).vats[v]).meas[k]).a.hist.head? = some h from hh]
    exact ⟨_, rfl⟩
  obtain ⟨st, hsnap⟩ := hsnap
  obtain ⟨g, hg⟩ : ∃ g, g = (s.dev.answer 0).setF64 (Reg.VAT_LDG_SNAPTS_LO_TS v.1) (Reg.VAT_LDG_SNAPTS_HI_TS v.1) (640 * h.1) := ⟨_, rfl⟩
  have hts : g.f64 (Reg.VAT_LDG_SNAPTS_LO_TS v.1) (Reg.VAT_LDG_SNAPTS_HI_TS v.1) = 640 * h.1 % 2 ^ 64 := by
    rw [hg]
    refine Dev.f64_setF64 _ _ rfl rfl (RF.key_ne ?_ (Nat.le_of_ble_eq_true rfl) (Nat.le_of_ble_eq_true rfl))
    simp only [Reg.VAT_LDG_SNAPTS_LO_TS, Reg.VAT_LDG_SNAPTS_HI_TS, Reg.VAT_LDG_SNAPTS_LO_at, Reg.VAT_LDG_SNAPTS_HI_at]
    omega
  rw [← hg] at hsnap
  have hlo := g.latchWords_off v [a.qIn, a.qOut, a.eIn, a.eOut] st (r := Reg.VAT_LDG_SNAPTS_LO_TS v.1) (Nat.le_of_ble_eq_true rfl)
    (.inl (by simp only [Reg.VAT_LDG_SNAPTS_LO_TS, Reg.VAT_LDG_SNAPTS_LO_at]; omega))
  have hhi := g.latchWords_off v [a.qIn, a.qOut, a.eIn, a.eOut] st (r := Reg.VAT_LDG_SNAPTS_HI_TS v.1) (Nat.le_of_ble_eq_true rfl)
    (.inl (by simp only [Reg.VAT_LDG_SNAPTS_HI_TS, Reg.VAT_LDG_SNAPTS_HI_at]; omega))
  have htot : ∀ q < 4, ∀ n < 3, (g.latchWords v [a.qIn, a.qOut, a.eIn, a.eOut] st).f (Reg.VAT_LDG_TOT_WORD v.1 (3 * q + n)) =
      [a.qIn, a.qOut, a.eIn, a.eOut].getD q 0 / 256 / 2 ^ (32 * n) % 2 ^ 32 := fun q hq n hn =>
    (g.latchWords_total v _ st (by omega)).trans (totalWord_eq _ q hn)
  refine .of_done hr.1 (congrArg s.done ((Dev.onWrite_unguarded hr.2 _).trans hsnap)) ?_
  dsimp only
  rw [← ha]
  simp only [State.commit_f, Dev.f64] at hts ⊢
  rw [hlo, hhi]
  refine ⟨hts, fun n hn => ?_, htot 1 (by decide), htot 2 (by decide), htot 3 (by decide)⟩
  have h0 := htot 0 (by decide) n hn
  rwa [Nat.mul_zero, Nat.zero_add] at h0

end

/-- Settles O25: clause by clause. -/
theorem ledgerCommandsAct : Obligations.LedgerCommandsAct := by
  unfold Obligations.LedgerCommandsAct
  refine ⟨?_, ?_, ?_, ?_, ?_, ?_, ?_, ?_, ?_, ?_⟩
  · intro s v x hl hf hc hd ht hx hr
    exact ledgerClose_closed hl hf hc hd ht hx hr
  · intro s i x e hs hl hdpl hw ho hr hseal
    obtain ⟨t, ht, -, hmem, hpi, hblk⟩ := streamDeliver_sealed hs hl hdpl hw ho hr hseal
    exact ⟨t, ht, hmem, hpi, hblk⟩
  · intro s i c hs hl hdpl hc addr hpath hrows
    obtain ⟨sig, t, ht, -, hmem, hprev, hck⟩ := checkpointWrite_chained hs hl hdpl hc hpath hrows
    exact ⟨t, sig, ht, hmem, hprev, hck⟩
  · intro s v hl h
    exact divergenceCheck_compares hl h
  · intro s v k z m hl hz hw hk ht
    exact sinc4Output_compares hl hz hw hk ht
  · intro s src i w hr hw hen loc hloc
    exact chainStart_starts hr hw hen hloc
  · intro s src i w hr hw hw1 hseal hen
    exact sealClear_clears hr hw hw1 hseal hen
  · intro s i hl hen hst hnow hdone
    exact checkpoint_forms hl hen hst hnow hdone
  · intro s src i w hr
    exact ldgCkCi_judged hr
  · intro s src v k w h hr hw hh
    exact ldgSnap_latches hr hw hh

end Sys2Proof.Machine
end

section
/-!
PROOF. Fencing a vat and its re-enable (R117, R121–R123): the states of its channels, and what it leaves of the other vats.
-/

namespace Sys2Proof.Machine
open Sys2Proof

/-! ### What keeps every channel's state -/

/-- From `d` to `e` no channel's state changes. -/
def Dev.KeepsSt (d e : Dev) : Prop := ∀ v k : Fin 16, (e.chan v k).st = (d.chan v k).st

section
variable {d e g : Dev}

theorem Dev.KeepsSt.refl (d : Dev) : Dev.KeepsSt d d := fun _ _ => rfl

theorem Dev.KeepsSt.trans (h : Dev.KeepsSt d e) (h' : Dev.KeepsSt e g) : Dev.KeepsSt d g := fun v k => (h' v k).trans (h v k)

theorem Dev.KeepsSt.of_vats (h : e.vats = d.vats) : Dev.KeepsSt d e := fun v k => by rw [Dev.chan_of_vats h]

theorem Dev.KeepsSt.of_queueWork {v k : Fin 16} (h : Dev.QueueWork v k d e) : Dev.KeepsSt d e := fun u j => by
  by_cases hu : (u, j) = (v, k)
  · obtain ⟨rfl, rfl⟩ := Prod.mk.inj hu
    obtain ⟨q, b, hown⟩ := h.own
    rw [hown]
  · rw [h.others u j hu]

theorem Dev.keepsSt_setTb (d : Dev) (r : RF) (i : Nat) (b : Bool) : Dev.KeepsSt d (d.setTb r i b) := .of_vats rfl

theorem Dev.keepsSt_modVat (d : Dev) (v : Fin 16) {x : Vat → Vat} (hx : ∀ y, (x y).chans = y.chans) : Dev.KeepsSt d (d.modVat v x) :=
  fun u j => congrArg Chan.st (d.chan_modVat v u j hx)

theorem Dev.keepsSt_modChan (d : Dev) (v k : Fin 16) {x : Chan → Chan} (hx : ∀ c, (x c).st = c.st) : Dev.KeepsSt d (d.modChan v k x) := fun u j => by
  by_cases hu : (u, j) = (v, k)
  · obtain ⟨rfl, rfl⟩ := Prod.mk.inj hu
    rw [Dev.chan_modChan_same, hx]
  · rw [Dev.chan_modChan_ne d hu]

theorem Dev.KeepsSt.foldl {α : Type} {f : Dev → α → Dev} (h : ∀ d x, Dev.KeepsSt d (f d x)) (l : List α) (d : Dev) : Dev.KeepsSt d (l.foldl f d) :=
  List.foldlRecOn l f (motive := Dev.KeepsSt d) (.refl d) fun e he x _ => he.trans (h e x)

theorem Dev.keepsSt_endStepAt (d : Dev) (v k : Fin 16) (status info tEnd tRange : Nat) (viol : Option (Int × Int)) :
    Dev.KeepsSt d (d.endStepAt v k status info tEnd tRange viol) := by
  unfold Dev.endStepAt
  dsimp only
  split
  · exact .refl d
  next r _ =>
    have hranges : ∀ e : Dev, Dev.KeepsSt e ((r.d.channels k).foldl (fun d m =>
        (d.endRange v m tRange).modChan v m (fun c => { c with gang := if c.st.drives then c.gang else none, progress := false })) e) := by
      refine .foldl (fun e m => ?_) _
      have hrange : Dev.KeepsSt e (e.endRange v m tRange) := e.keepsSt_modVat v fun _ => rfl
      refine hrange.trans (Dev.keepsSt_modChan _ v m ?_)
      exact fun _ => rfl
    have hadd : Dev.KeepsSt d (d.addCmp (d.chan v k).slice (d.stepCmp v k r status info tEnd viol)) := .of_vats (Dev.addCmp_vats _ _ _)
    have hranged := hadd.trans (hranges _)
    generalize (r.d.channels k).foldl _ (d.addCmp (d.chan v k).slice (d.stepCmp v k r status info tEnd viol)) = g at hranged ⊢
    have hend : Dev.KeepsSt g (g.modChan v k (fun c => { c with run := none, progress := false })) := g.keepsSt_modChan v k fun _ => rfl
    exact (hranged.trans hend).trans (.of_queueWork (((Dev.haltIf_queueWork (v := v) (k := k) _ r.d status tEnd).trans
      (Dev.settle_queueWork tRange 9 _)).trans (Dev.modHead_queueWork _ _)))

theorem Dev.keepsSt_endKilled (d : Dev) (v k : Fin 16) (t : Nat) : Dev.KeepsSt d (d.endKilled v k t) := by
  unfold Dev.endKilled
  split
  · exact (d.keepsSt_endStepAt v k _ _ _ _ _).trans (Dev.keepsSt_modChan _ v k fun _ => rfl)
  · exact .refl d

theorem Chan.stopBy_st (c : Chan) (k : Fin 16) (code t : Nat) : (c.stopBy k code t).st = c.st := by
  unfold Chan.stopBy
  split
  · split
    · split <;> rfl
    · rfl
  · rfl

end

/-! ### The channels of a fenced vat (R121) -/

/-- A channel of a fenced vat ends its steps and enters FENCED. -/
def Dev.fenceChan (d : Dev) (v k : Fin 16) : Dev :=
  let d := d.modChan v k (fun c => c.stopBy k 13 d.now)
  let q := (d.chan v k).queue
  let d := if (d.chan v k).st = .arm then d else d.enterQuiet v k .fenced d.now
  let d := ((d.modChan v k (fun c => { c with queue := [] })).endKilled v k d.now).endStep v k 0x21 0 d.now
  let d := (d.modChan v k (fun c => { c with queue := q })).dropQueue v k 0x21 d.now
  let d := (d.modChan v k (fun c => { c with power := [] })).logCv v k d.now
  if (d.chan v k).st = .fenced then d else d.enterQuiet v k .fenced d.now

/-- What follows the channels: the log, the slices' events, the report. -/
def Dev.fenceTold (d : Dev) (v : Fin 16) (cause : Nat) : Dev :=
  ((((d.log 0x05 v.1 (evInfo v.1) cause).holders v).foldl (fun d s => d.event s 0x07 none v.1 cause)
    (d.log 0x05 v.1 (evInfo v.1) cause))).pend v.1

theorem Dev.fenceReport_eq (d : Dev) (v : Fin 16) (cause : Nat) :
    d.fenceReport v cause = (d.eachChan (fun d k => d.fenceChan v k)).fenceTold v cause := rfl

theorem Dev.fenceTold_vats (d : Dev) (v : Fin 16) (cause : Nat) : (d.fenceTold v cause).vats = d.vats := by
  unfold Dev.fenceTold
  rw [Dev.pend_vats]
  refine List.foldlRecOn _ _ (motive := fun e : Dev => e.vats = d.vats) (d.log_vats _ _ _ _) fun e he s _ => ?_
  exact (Dev.eventAt_vats _ _ _ _ _ _ _).trans he

section
variable (d : Dev) (v k : Fin 16)

/-- Entering FENCED changes this channel's state alone. -/
theorem Dev.enterQuiet_st (st : ChSt) (t : Nat) : ((d.enterQuiet v k st t).chan v k).st = st ∧
    ∀ u j : Fin 16, (u, j) ≠ (v, k) → ((d.enterQuiet v k st t).chan u j).st = (d.chan u j).st :=
  ⟨by rw [Dev.enterQuiet_chan_same]; rfl, fun u j h => by rw [Dev.enterQuiet_chan_ne d v k st t h]⟩

theorem Dev.fenceChan_st : ((d.fenceChan v k).chan v k).st = .fenced ∧
    ∀ u j : Fin 16, (u, j) ≠ (v, k) → ((d.fenceChan v k).chan u j).st = (d.chan u j).st := by
  unfold Dev.fenceChan
  dsimp only
  have hstop : Dev.KeepsSt d (d.modChan v k (fun c => c.stopBy k 13 d.now)) := d.keepsSt_modChan v k fun c => c.stopBy_st k 13 _
  generalize d.modChan v k (fun c => c.stopBy k 13 d.now) = a at hstop ⊢
  have henter : ∀ u j : Fin 16, (u, j) ≠ (v, k) →
      ((if (a.chan v k).st = .arm then a else a.enterQuiet v k .fenced a.now).chan u j).st = (d.chan u j).st := fun u j h => by
    split
    · exact hstop u j
    · exact ((a.enterQuiet_st v k .fenced a.now).2 u j h).trans (hstop u j)
  generalize (if (a.chan v k).st = .arm then a else a.enterQuiet v k .fenced a.now) = b at henter ⊢
  have hdrop : Dev.KeepsSt b (((((b.modChan v k (fun c => { c with queue := [] })).endKilled v k b.now).endStep v k 0x21 0 b.now).modChan v k
      (fun c => { c with queue := (a.chan v k).queue })).dropQueue v k 0x21
      (((b.modChan v k (fun c => { c with queue := [] })).endKilled v k b.now).endStep v k 0x21 0 b.now).now) := by
    refine (b.keepsSt_modChan v k ?_).trans ((Dev.keepsSt_endKilled _ v k _).trans ((Dev.keepsSt_endStepAt _ v k _ _ _ _ _).trans
      ((Dev.keepsSt_modChan _ v k ?_).trans (.of_queueWork (Dev.dropQueue_queueWork _ _ _)))))
    · exact fun _ => rfl
    · exact fun _ => rfl
  generalize ((((b.modChan v k (fun c => { c with queue := [] })).endKilled v k b.now).endStep v k 0x21 0 b.now).modChan v k
      (fun c => { c with queue := (a.chan v k).queue })).dropQueue v k 0x21
      (((b.modChan v k (fun c => { c with queue := [] })).endKilled v k b.now).endStep v k 0x21 0 b.now).now = c at hdrop ⊢
  have hlog : Dev.KeepsSt c ((c.modChan v k (fun c => { c with power := [] })).logCv v k c.now) := by
    refine (c.keepsSt_modChan v k ?_).trans (Dev.keepsSt_modChan _ v k ?_)
    · exact fun _ => rfl
    · exact fun _ => rfl
  generalize (c.modChan v k (fun c => { c with power := [] })).logCv v k c.now = e at hlog ⊢
  have hothers : ∀ u j : Fin 16, (u, j) ≠ (v, k) → (e.chan u j).st = (d.chan u j).st := fun u j h =>
    ((hlog u j).trans (hdrop u j)).trans (henter u j h)
  split
  next h => exact ⟨h, hothers⟩
  next =>
    obtain ⟨hown, hne⟩ := e.enterQuiet_st v k .fenced e.now
    exact ⟨hown, fun u j h => (hne u j h).trans (hothers u j h)⟩

/-- The channels of a list become FENCED, and no other channel changes its state. -/
theorem Dev.fenceChans_st (l : List (Fin 16)) : (∀ u : Fin 16, u ≠ v → ∀ j : Fin 16, ((l.foldl (fun d j => d.fenceChan v j) d).chan u j).st = (d.chan u j).st) ∧
    ((k ∈ l ∨ (d.chan v k).st = .fenced) → ((l.foldl (fun d j => d.fenceChan v j) d).chan v k).st = .fenced) := by
  induction l generalizing d with
  | nil => exact ⟨fun _ _ _ => rfl, fun h => h.resolve_left List.not_mem_nil⟩
  | cons j l ih =>
    obtain ⟨hown, hne⟩ := d.fenceChan_st v j
    obtain ⟨hothers, hfenced⟩ := ih (d.fenceChan v j)
    rw [List.foldl_cons]
    refine ⟨fun u hu i => ?_, fun hk => hfenced ?_⟩
    · rw [hothers u hu i, hne u i fun hc => hu (congrArg Prod.fst hc)]
    · by_cases hkj : k = j
      · subst hkj
        exact .inr hown
      · rw [hne v k fun hc => hkj (congrArg Prod.snd hc)]
        exact hk.imp_left fun h => (List.mem_cons.mp h).resolve_left hkj

/-- The report of a fence: every channel of the vat FENCED, the others' states as before. -/
theorem Dev.fenceReport_st (cause : Nat) : ((d.fenceReport v cause).chan v k).st = .fenced ∧
    ∀ u : Fin 16, u ≠ v → ∀ j : Fin 16, ((d.fenceReport v cause).chan u j).st = (d.chan u j).st := by
  have htold : Dev.KeepsSt (d.eachChan (fun d k => d.fenceChan v k)) (d.fenceReport v cause) := .of_vats (Dev.fenceTold_vats _ v cause)
  obtain ⟨hothers, hfenced⟩ := d.fenceChans_st v k (List.finRange 16)
  exact ⟨(htold v k).trans (hfenced (.inl (List.mem_finRange k))), fun u hu j => (htold u j).trans (hothers u hu j)⟩

end

/-! ### A fence as a whole (R121) -/

section
variable {u v k : Fin 16} {d : Dev} {r : RF}

/-- A field a fence of vat `u` sets in no place but SYS_FENCE: SYS_FENCE itself, the events and locks of its lane, and the status of the other
vats and their lanes. -/
def RF.OffFence (u : Fin 16) (r : RF) : Prop :=
  r.lo < 32 ∧ ((r.addr = Reg.SYS_FENCE_at ∨ r.addr = Reg.LANE_EVT_at u.1 ∨ r.addr = Reg.LANE_STAT_at u.1 ∧ r.lo ≠ 0) ∨
    ∃ v : Fin 16, v ≠ u ∧ (r.addr = Reg.VAT_STAT_at v.1 ∨ r.addr = Reg.LANE_STAT_at v.1))

theorem RF.OffFence.addr (h : r.OffFence u) : r.addr ≠ Reg.VAT_STAT_at u.1 ∧ ¬(r.addr = Reg.LANE_STAT_at u.1 ∧ r.lo = 0) ∧
    r.addr ≠ Reg.SYS_CHAN_AVAIL_at (u.1 / 2) ∧ r.addr ≠ Reg.LANE_BREG_CTL_at u.1 ∧ r.addr ≠ Reg.IMP_STAT_at u.1 ∧ r.addr ≠ Reg.IMP_EVT_at u.1 ∧
    (r.addr < 0x20004000 ∨ (0x20004800 ≤ r.addr ∧ r.addr < 0x20030000)) := by
  obtain ⟨-, (h | h | ⟨h, hlo⟩) | ⟨v, hv, h⟩⟩ := h
  · rw [h]
    simp only [Reg.SYS_FENCE_at, Reg.VAT_STAT_at, Reg.LANE_STAT_at, Reg.SYS_CHAN_AVAIL_at, Reg.LANE_BREG_CTL_at, Reg.IMP_STAT_at, Reg.IMP_EVT_at]
    omega
  · rw [h]
    simp only [Reg.LANE_EVT_at, Reg.VAT_STAT_at, Reg.LANE_STAT_at, Reg.SYS_CHAN_AVAIL_at, Reg.LANE_BREG_CTL_at, Reg.IMP_STAT_at, Reg.IMP_EVT_at]
    omega
  · rw [h]
    simp only [Reg.VAT_STAT_at, Reg.LANE_STAT_at, Reg.SYS_CHAN_AVAIL_at, Reg.LANE_BREG_CTL_at, Reg.IMP_STAT_at, Reg.IMP_EVT_at]
    omega
  · have hne : v.1 ≠ u.1 := Fin.val_ne_of_ne hv
    simp only [Reg.VAT_STAT_at, Reg.LANE_STAT_at, Reg.SYS_CHAN_AVAIL_at, Reg.LANE_BREG_CTL_at, Reg.IMP_STAT_at, Reg.IMP_EVT_at] at h ⊢
    omega

/-- From `d` to `e` no channel's state and no field off a fence of vat `u` changes. -/
structure Dev.Fences (u : Fin 16) (d e : Dev) : Prop where
  st : Dev.KeepsSt d e
  f : ∀ r : RF, r.OffFence u → e.f r = d.f r

theorem Dev.Fences.refl (d : Dev) : Dev.Fences u d d := ⟨.refl d, fun _ _ => rfl⟩

theorem Dev.Fences.trans {e g : Dev} (h : Dev.Fences u d e) (h' : Dev.Fences u e g) : Dev.Fences u d g :=
  ⟨h.st.trans h'.st, fun r hr => (h'.f r hr).trans (h.f r hr)⟩

theorem Dev.fences_setF (d : Dev) {r : RF} (x : Nat) (hl : r.lo < 32) (h : ∀ r' : RF, r'.OffFence u → ¬(r'.addr = r.addr ∧ r'.lo = r.lo)) :
    Dev.Fences u d (d.setF r x) :=
  ⟨.of_vats rfl, fun r' hr => Dev.f_setF_off d x hl hr.1 (h r' hr)⟩

theorem Dev.fences_modVat (d : Dev) (v : Fin 16) {x : Vat → Vat} (hx : ∀ y, (x y).chans = y.chans) : Dev.Fences u d (d.modVat v x) :=
  ⟨d.keepsSt_modVat v hx, fun _ _ => rfl⟩

theorem Dev.fences_closeWindow (d : Dev) (u : Fin 16) (p : ImpPoint) : Dev.Fences u d (d.closeWindow u p) := by
  have hpoint : Dev.Fences u d (d.modImp u (fun i => { i with point := none, fin := i.fin ++ [d.impFreeze u p] })) := d.fences_modVat u fun _ => rfl
  unfold Dev.closeWindow
  dsimp only
  split
  · exact hpoint
  · refine (hpoint.trans (Dev.fences_setF _ 0 (Nat.le_of_ble_eq_true rfl) fun r' hr hc => hr.addr.2.2.2.2.1 hc.1)).trans
      ⟨.of_vats (Dev.raise_vats _ _ _ _), fun r hr => ?_⟩
    obtain ⟨-, -, -, -, -, hevt, hr2⟩ := hr.addr
    exact Dev.f_raise_off _ 1 (by omega) hr.1 (Nat.le_of_ble_eq_true rfl) (by omega) fun hc => hevt hc.1

theorem Dev.fences_dropSweep (d : Dev) (u : Fin 16) : Dev.Fences u d (d.dropSweep u) := by
  have hclose : Dev.Fences u d (d.closeEnded u) := by
    unfold Dev.closeEnded
    split
    · split
      · exact d.fences_closeWindow u _
      · exact .refl d
    · exact .refl d
  unfold Dev.dropSweep
  generalize d.closeEnded u = e at hclose ⊢
  have hclear : Dev.Fences u e (e.modImp u (fun i => { i with point := none, startReq := none, stopReq := none })) := e.fences_modVat u fun _ => rfl
  exact (hclose.trans hclear).trans (Dev.fences_setF _ 0 (Nat.le_of_ble_eq_true rfl) fun r' hr hc => hr.addr.2.2.2.2.1 hc.1)

theorem Dev.fences_abandonCfg (d : Dev) (u : Fin 16) : Dev.Fences u d (d.abandonCfg u) := by
  obtain ⟨g, he | he⟩ := d.abandonCfg_cases u
  · rw [he]
    exact d.fences_modVat u fun _ => rfl
  · rw [he]
    have hlane : Dev.Fences u d (d.modLane u g) := d.fences_modVat u fun _ => rfl
    exact (hlane.trans (Dev.fences_setF _ 0 (Nat.le_of_ble_eq_true rfl) fun r' hr hc => hr.addr.2.2.2.1 hc.1)).trans
      (Dev.fences_setF _ 3 (Nat.le_of_ble_eq_true rfl) fun r' hr hc => hr.addr.2.2.2.1 hc.1)

/-- The lane of a fenced vat, once SYS_FENCE shows it. -/
theorem Dev.fences_fenceLane (d : Dev) (u : Fin 16) : Dev.Fences u (d.setTb Reg.SYS_FENCE_VAT u.1 true) (d.fenceLane u) := by
  unfold Dev.fenceLane
  generalize d.setTb Reg.SYS_FENCE_VAT u.1 true = e
  have havail : Dev.Fences u e (e.setAvail u 0) := Dev.fences_setF _ _ (Nat.le_of_ble_eq_true rfl) fun r' hr hc => hr.addr.2.2.1 hc.1
  have hcfg := havail.trans (Dev.fences_abandonCfg _ u)
  generalize (e.setAvail u 0).abandonCfg u = g at hcfg ⊢
  have hlane : Dev.Fences u g (g.modLane u (fun l =>
      { l with kills := l.kills ++ [⟨0xFFFF, 0x02, d.now⟩], reps := [], fenceKillAt := none, fenceAck := 0,
               latchAt := if l.lastGood + 40000 ≤ d.now then some d.now else none })) := g.fences_modVat u fun _ => rfl
  exact (hcfg.trans hlane).trans (Dev.fences_dropSweep _ u)

/-- The status of a fenced vat, before its channels are told. -/
def Dev.fenceShown (d : Dev) (u : Fin 16) (cause : Nat) : Dev :=
  (((((d.fenceLane u).setF (Reg.LANE_STAT_STATE u.1) laneHeld).setF (Reg.VAT_STAT_FENCED u.1) 1).setF
      (Reg.VAT_STAT_FENCE_DONE u.1) 0).setF (Reg.VAT_STAT_CAUSE u.1) cause).setF (Reg.VAT_STAT_IN_SERVICE u.1) 0

theorem Dev.fences_fenceShown (d : Dev) (u : Fin 16) (cause : Nat) : Dev.Fences u (d.setTb Reg.SYS_FENCE_VAT u.1 true) (d.fenceShown u cause) := by
  have hstat : ∀ (e : Dev) (r : RF) (x : Nat), r.lo < 32 → r.addr = Reg.VAT_STAT_at u.1 → Dev.Fences u e (e.setF r x) := fun e r x hl ha =>
    e.fences_setF x hl fun r' hr hc => hr.addr.1 (hc.1.trans ha)
  exact ((((d.fences_fenceLane u).trans (Dev.fences_setF _ _ (Nat.le_of_ble_eq_true rfl) fun r' hr => hr.addr.2.1)).trans
    (hstat _ _ _ (Nat.le_of_ble_eq_true rfl) rfl)).trans (hstat _ _ _ (Nat.le_of_ble_eq_true rfl) rfl)).trans
    ((hstat _ _ _ (Nat.le_of_ble_eq_true rfl) rfl).trans (hstat _ _ _ (Nat.le_of_ble_eq_true rfl) rfl))

theorem Dev.fenceVat_eq (h : d.fenced u = false) (cause : Nat) : d.fenceVat u cause = (d.fenceShown u cause).fenceReport u cause :=
  if_neg (by rw [h]; exact Bool.false_ne_true)

theorem RF.OffFence.apart (h : r.OffFence u) : r.Apart := ⟨h.1, by have := h.addr.2.2.2.2.2.2; omega⟩

/-- A fence now: every channel of the vat FENCED, every other vat's channels and status as before, and its bit in SYS_FENCE set. -/
theorem Dev.fenceNow_fences (h : d.fenced u = false) (cause : Nat) : (∀ k : Fin 16, ((d.fenceNow u cause).chan u k).st = .fenced) ∧
    (∀ v : Fin 16, v ≠ u → ∀ k : Fin 16, ((d.fenceNow u cause).chan v k).st = (d.chan v k).st) ∧
    ∀ r : RF, r.OffFence u → (d.fenceNow u cause).f r = (d.setTb Reg.SYS_FENCE_VAT u.1 true).f r := by
  have hrec : Dev.KeepsSt d (d.fenceRecorded u) := .foldl (fun e k => by
    split
    · exact e.keepsSt_modChan u k fun _ => rfl
    · exact .refl e) _ d
  have hregs : ∀ r : RF, ((d.fenceRecorded u).setTb Reg.SYS_FENCE_VAT u.1 true).f r = (d.setTb Reg.SYS_FENCE_VAT u.1 true).f r := fun r => by
    rw [Dev.setTb_eq, Dev.setTb_eq, Dev.f_setF, Dev.f_setF, Dev.f_of_regs (d.fenceRecorded_regs u), Dev.f_of_regs (d.fenceRecorded_regs u)]
  have hshown := (d.fenceRecorded u).fences_fenceShown u cause
  have hset : Dev.KeepsSt (d.fenceRecorded u) ((d.fenceRecorded u).setTb Reg.SYS_FENCE_VAT u.1 true) := Dev.keepsSt_setTb _ _ _ _
  have hbefore := (hrec.trans hset).trans hshown.st
  rw [Dev.fenceNow_of_unfenced h, Dev.fenceVat_eq ((d.fenceRecorded_fenced u).trans h)]
  generalize (d.fenceRecorded u).fenceShown u cause = e at hshown hbefore ⊢
  have hwork := e.fenceReport_work u cause
  refine ⟨fun k => (e.fenceReport_st u k cause).1, fun v hv k => ((e.fenceReport_st u 0 cause).2 v hv k).trans (hbefore v k), fun r hr => ?_⟩
  rw [hwork.f r hr.apart, hshown.f r hr, hregs]

end

end Sys2Proof.Machine
end

section
/-!
PROOF. Writes of SYS_VAT_CTL, FENCE_DONE, and the computations that fence a vat (R99, R121–R123).
-/

namespace Sys2Proof.Machine
open Sys2Proof

/-! ### A re-enable (R123) -/

section
variable {u v k : Fin 16} {d : Dev} {r : RF}

theorem Dev.f_leaveService_off (d : Dev) (hl : r.lo < 32) (h : ∀ r' ∈ reenableFields u, ¬(r.addr = r'.addr ∧ r.lo = r'.lo)) :
    (d.leaveService u).f r = d.f r := by
  have hservice := h (Reg.VAT_STAT_IN_SERVICE u.1) (by simp [reenableFields])
  have havail := h (Reg.SYS_CHAN_AVAIL_CH (u.1 / 2)) (by simp [reenableFields])
  have hbusy := h (Reg.LANE_BREG_CTL_BUSY u.1) (by simp [reenableFields])
  have hresult := h (Reg.LANE_BREG_CTL_RESULT u.1) (by simp [reenableFields])
  have hleft : ∀ e : Dev, ((e.setF (Reg.VAT_STAT_IN_SERVICE u.1) 0).setAvail u 0).f r = e.f r := fun e =>
    (Dev.f_setF_off _ _ (Nat.le_of_ble_eq_true rfl) hl havail).trans (Dev.f_setF_off _ _ (Nat.le_of_ble_eq_true rfl) hl hservice)
  unfold Dev.leaveService
  obtain ⟨g, he | he⟩ := ((d.setF (Reg.VAT_STAT_IN_SERVICE u.1) 0).setAvail u 0).abandonCfg_cases u
  · rw [he, Dev.modLane_f, hleft]
  · rw [he, Dev.f_setF_off _ _ (Nat.le_of_ble_eq_true rfl) hl hresult, Dev.f_setF_off _ _ (Nat.le_of_ble_eq_true rfl) hl hbusy, Dev.modLane_f, hleft]

/-- A re-enable sets its fields and no other outside the blocks of slices and events. -/
theorem Dev.f_reenable_off (d : Dev) (hr : r.Apart) (h : ∀ r' ∈ reenableFields u, ¬(r.addr = r'.addr ∧ r.lo = r'.lo)) :
    (d.reenable u).f r = d.f r := by
  have hset : ∀ (e : Dev) (r' : RF) (x : Nat), r' ∈ reenableFields u → r'.lo < 32 → (e.setF r' x).f r = e.f r := fun e r' x hm hl =>
    Dev.f_setF_off e x hl hr.1 (h r' hm)
  unfold Dev.reenable
  rw [(Dev.eachChan_work _ _ fun e k => Dev.enterQuiet_work e u k .idle e.now).f r hr]
  unfold Dev.enterLock
  dsimp only
  rw [hset _ _ _ (by simp [reenableFields]) (Nat.le_of_ble_eq_true rfl), hset _ _ _ (by simp [reenableFields]) (Nat.le_of_ble_eq_true rfl), Dev.modLane_f,
    hset _ _ _ (by simp [reenableFields]) (Nat.le_of_ble_eq_true rfl), hset _ _ _ (by simp [reenableFields]) (Nat.le_of_ble_eq_true rfl),
    hset _ _ _ (by simp [reenableFields]) (Nat.le_of_ble_eq_true rfl), hset _ _ _ (by simp [reenableFields]) (Nat.le_of_ble_eq_true rfl),
    Dev.f_leaveService_off _ hr.1 h, Dev.modLane_f]

end

/-! ### Which vats a write fences (R117, R121) -/

section
variable {u v k : Fin 16} {d e : Dev} {cause : Nat}

/-- The vat is fenced by SYS_VAT_CTL, its lane held, every channel FENCED. -/
structure Dev.FencedByCtl (d : Dev) (v : Fin 16) : Prop where
  fenced : d.fenced v = true
  cause : d.f (Reg.VAT_STAT_CAUSE v.1) = 5
  shown : d.tb Reg.SYS_FENCE_VAT v.1 = true
  lane : d.laneState v = laneHeld
  chans : ∀ k : Fin 16, (d.chan v k).st = .fenced

theorem RF.OffFence.of_status (h : v ≠ u) {r : RF} (hr : r.StatusOf v) : r.OffFence u := ⟨hr.1, .inr ⟨v, h, hr.2⟩⟩

theorem RF.offFence_sysFence (u : Fin 16) : RF.OffFence u Reg.SYS_FENCE_VAT := ⟨by decide, .inl (.inl rfl)⟩

/-- A fence of another vat keeps the status of this one. -/
theorem Dev.f_fenceNow_ne (h : v ≠ u) (cause : Nat) {r : RF} (hr : r.StatusOf v) : (d.fenceNow u cause).f r = d.f r := by
  by_cases hf : d.fenced u = true
  · rw [Dev.fenceNow_of_fenced hf]
  · obtain ⟨-, -, hoff⟩ := Dev.fenceNow_fences (Bool.eq_false_iff.mpr hf) cause
    rw [hoff r (.of_status h hr)]
    refine Dev.f_setTb_off d _ _ (by decide) hr.1 fun hc => ?_
    have ha := hr.2
    rw [hc.1] at ha
    simp only [Reg.SYS_FENCE_VAT, Reg.SYS_FENCE_at, Reg.VAT_STAT_at, Reg.LANE_STAT_at] at ha
    omega

theorem Dev.FencedByCtl.fenceNow_ne (hd : d.FencedByCtl v) (h : v ≠ u) : (d.fenceNow u cause).FencedByCtl v := by
  by_cases hf : d.fenced u = true
  · rw [Dev.fenceNow_of_fenced hf]
    exact hd
  · obtain ⟨-, hst, hoff⟩ := Dev.fenceNow_fences (Bool.eq_false_iff.mpr hf) cause
    refine ⟨(congrArg (· == 1) (Dev.f_fenceNow_ne h cause ⟨Nat.le_of_ble_eq_true rfl, .inl rfl⟩)).trans hd.fenced,
      (Dev.f_fenceNow_ne h cause ⟨Nat.le_of_ble_eq_true rfl, .inl rfl⟩).trans hd.cause, ?_,
      (Dev.f_fenceNow_ne h cause ⟨Nat.le_of_ble_eq_true rfl, .inr rfl⟩).trans hd.lane, fun k => (hst v h k).trans (hd.chans k)⟩
    rw [Dev.tb_of_f (hoff _ (RF.offFence_sysFence u)), Dev.tb_setTb d _ _ _ v.2]
    split
    · rfl
    · exact hd.shown

theorem Dev.fenceNow_fencedByCtl (h : d.fenced v = false) : (d.fenceNow v 5).FencedByCtl v := by
  obtain ⟨hst, -, hoff⟩ := Dev.fenceNow_fences h 5
  obtain ⟨hfenced, -, hcause, -, hlane⟩ := Dev.fenceNow_status h 5
  refine ⟨hfenced, hcause, ?_, hlane, hst⟩
  rw [Dev.tb_of_f (hoff _ (RF.offFence_sysFence v)), Dev.tb_setTb d _ _ _ v.2, if_pos rfl]

/-- The fences of a write: a named vat that was not fenced is. -/
theorem Dev.fenceNows_fencedByCtl (l : List (Fin 16)) : (d.FencedByCtl v → (l.foldl (fun d u => d.fenceNow u 5) d).FencedByCtl v) ∧
    (d.fenced v = false → v ∈ l → (l.foldl (fun d u => d.fenceNow u 5) d).FencedByCtl v) := by
  induction l generalizing d with
  | nil => exact ⟨id, fun _ h => absurd h List.not_mem_nil⟩
  | cons u l ih =>
    rw [List.foldl_cons]
    by_cases hu : v = u
    · subst hu
      refine ⟨fun h => ih.1 ?_, fun h _ => ih.1 (Dev.fenceNow_fencedByCtl h)⟩
      rw [Dev.fenceNow_of_fenced h.fenced]
      exact h
    · refine ⟨fun h => ih.1 (h.fenceNow_ne hu), fun h hm => ih.2 ?_ ((List.mem_cons.mp hm).resolve_left hu)⟩
      exact (congrArg (· == 1) (Dev.f_fenceNow_ne hu 5 (r := Reg.VAT_STAT_FENCED v.1) ⟨Nat.le_of_ble_eq_true rfl, .inl rfl⟩)).trans h

/-- No re-enable of a write fences or releases a vat. -/
theorem Dev.fenced_reenable (d : Dev) (u v : Fin 16) : (d.reenable u).fenced v = d.fenced v := by
  refine congrArg (· == 1) (d.f_reenable_off (r := Reg.VAT_STAT_FENCED v.1) (RF.StatusOf.apart (v := v) ⟨Nat.le_of_ble_eq_true rfl, .inl rfl⟩) ?_)
  simp only [reenableFields, List.forall_mem_cons, List.not_mem_nil, false_imp_iff, implies_true, and_true,
    Reg.VAT_STAT_IN_SERVICE, Reg.SYS_CHAN_AVAIL_CH, Reg.LANE_BREG_CTL_BUSY,
    Reg.LANE_BREG_CTL_RESULT, Reg.LANE_STAT_STATE, Reg.LANE_STAT_UP_LOCK, Reg.LANE_STAT_BRD_LOCK, Reg.LANE_STAT_KLATCH,
    Reg.VAT_VBUS_VBUS, Reg.VAT_LDG_CLOSED_CLOSED, Reg.VAT_STAT_at, Reg.SYS_CHAN_AVAIL_at, Reg.LANE_BREG_CTL_at, Reg.LANE_STAT_at,
    Reg.VAT_VBUS_at, Reg.VAT_LDG_CLOSED_at, Reg.VAT_STAT_FENCED]
  omega

theorem Dev.fenced_reenableNamed (d : Dev) (w : Nat) (v : Fin 16) : (d.reenableNamed w).fenced v = d.fenced v :=
  List.foldlRecOn _ _ (motive := fun e : Dev => e.fenced v = d.fenced v) rfl fun e he u _ => by
    split
    · exact (e.fenced_reenable u v).trans he
    · exact he

theorem Dev.FencedByCtl.logRefused (h : d.FencedByCtl v) (src : Src) (a : Nat) : (d.logRefused src a).FencedByCtl v := by
  have hs := d.logRefused_sparesVat (v := v) src a
  refine ⟨hs.fenced.trans h.fenced, ?_, ?_, hs.laneState.trans h.lane, fun k => (congrArg Chan.st (hs.chan k)).trans (h.chans k)⟩
  · exact (hs.work.f _ ⟨Nat.le_of_ble_eq_true rfl, .inl rfl⟩).trans h.cause
  · exact (Dev.tb_of_f (d.f_log_off _ _ _ _ (by decide) (by decide)) _).trans h.shown

/-- What a write of SYS_VAT_CTL does: re-enables, then fences, then a refusal of what was too early. -/
theorem Dev.vatCtl_eq (d : Dev) (src : Src) (w : Nat) : ∃ b : Bool, d.vatCtl src w =
    if b then ((maskList (w / 2 ^ 16)).foldl (fun d v => d.fenceNow v 5) (d.reenableNamed w)).logRefused src Reg.SYS_VAT_CTL_at
    else (maskList (w / 2 ^ 16)).foldl (fun d v => d.fenceNow v 5) (d.reenableNamed w) := ⟨_, rfl⟩

theorem Dev.vatCtl_fences (d : Dev) (src : Src) {w : Nat} (hb : w.testBit (16 + v.1) = true) (hf : d.fenced v = false) :
    (d.vatCtl src w).FencedByCtl v := by
  have hm : v ∈ maskList (w / 2 ^ 16) := by
    rw [mem_maskList, Nat.testBit_div_two_pow, Nat.add_comm]
    exact hb
  have hfenced := (Dev.fenceNows_fencedByCtl (d := d.reenableNamed w) (v := v) (maskList (w / 2 ^ 16))).2 ((d.fenced_reenableNamed w v).trans hf) hm
  obtain ⟨b, hctl⟩ := d.vatCtl_eq src w
  rw [hctl]
  split
  · exact hfenced.logRefused src _
  · exact hfenced

end

theorem fence_fences {s : State} {src : Src} {w : Word} {v : Fin 16} (hr : Reaches s src Reg.SYS_VAT_CTL_at) (hb : w.toNat.testBit (16 + v.1) = true)
    (hf : s.dev.fenced v = false) :
    Answers (.fence src w) s (fun t => t.dev.fenced v = true ∧ t.dev.f (Reg.VAT_STAT_CAUSE v.1) = 5 ∧ t.dev.tb Reg.SYS_FENCE_VAT v.1 = true ∧
      t.dev.laneState v = laneHeld ∧ ∀ k : Fin 16, (t.dev.chan v k).st = .fenced) := by
  have h := (s.dev.answer 0).vatCtl_fences src hb hf
  have hexec : exec (.fence src w) s = s.done ((s.dev.answer 0).vatCtl src w.toNat) := congrArg s.done (Dev.onWrite_unguarded hr.2 _)
  generalize (s.dev.answer 0).vatCtl src w.toNat = e at h hexec
  exact .of_done hr.1 hexec ⟨h.fenced, h.cause, h.shown, h.lane, h.chans⟩

/-! ### A re-enabled vat (R123) -/

section
variable {u v k : Fin 16} {d e : Dev}

/-- The vat has been re-enabled: its lane at LOCK, every latch set, the ledger open, the channels IDLE. -/
structure Dev.Reenabled (d : Dev) (v : Fin 16) : Prop where
  lane : d.laneState v = laneLock
  klatch : d.f (Reg.LANE_STAT_KLATCH v.1) = 0xFFFF
  closed : d.f (Reg.VAT_LDG_CLOSED_CLOSED v.1) = 0
  chans : ∀ k : Fin 16, (d.chan v k).st = .idle

/-- The channels of a list become IDLE. -/
theorem Dev.idleChans_st (l : List (Fin 16)) (d : Dev) (h : k ∈ l ∨ (d.chan v k).st = .idle) :
    ((l.foldl (fun d j => d.enterQuiet v j .idle d.now) d).chan v k).st = .idle := by
  induction l generalizing d with
  | nil => exact h.resolve_left List.not_mem_nil
  | cons j l ih =>
    obtain ⟨hown, hne⟩ := d.enterQuiet_st v j .idle d.now
    rw [List.foldl_cons]
    refine ih _ ?_
    by_cases hkj : k = j
    · subst hkj
      exact .inr hown
    · rw [hne v k fun hc => hkj (congrArg Prod.snd hc)]
      exact h.imp_left fun h => (List.mem_cons.mp h).resolve_left hkj

theorem Dev.reenable_reenabled (d : Dev) (v : Fin 16) : (d.reenable v).Reenabled v := by
  have hidle : ∀ e : Dev, ∀ k : Fin 16, ((e.eachChan (fun d k => d.enterQuiet v k .idle d.now)).chan v k).st = .idle := fun e k =>
    Dev.idleChans_st (List.finRange 16) e (.inl (List.mem_finRange k))
  have hkept : ∀ (e : Dev) (r : RF), r.Apart → (e.eachChan (fun d k => d.enterQuiet v k .idle d.now)).f r = e.f r := fun e r hr =>
    (Dev.eachChan_work _ _ fun e k => Dev.enterQuiet_work e v k .idle e.now).f r hr
  have hstat : ∀ r : RF, r.StatusOf v → r.Apart := fun r hr => hr.apart
  have hoff : ∀ (e : Dev) (r r' : RF) {x : Nat}, r.lo < 32 → r'.lo < 32 → r'.addr ≠ r.addr ∨ r'.lo ≠ r.lo → (e.setF r x).f r' = e.f r' :=
    fun e r r' x hl hl' hne => Dev.f_setF_off e x hl hl' fun hc => hne.elim (· hc.1) (· hc.2)
  have hclosed : Reg.LANE_STAT_at v.1 ≠ Reg.VAT_LDG_CLOSED_at v.1 := by simp only [Reg.LANE_STAT_at, Reg.VAT_LDG_CLOSED_at]; omega
  have hvbus : Reg.LANE_STAT_at v.1 ≠ Reg.VAT_VBUS_at v.1 := by simp only [Reg.LANE_STAT_at, Reg.VAT_VBUS_at]; omega
  unfold Dev.reenable
  dsimp only
  refine ⟨?_, ?_, ?_, hidle _⟩
  · show Dev.f _ (Reg.LANE_STAT_STATE v.1) = laneLock
    rw [hkept _ _ (hstat _ ⟨Nat.le_of_ble_eq_true rfl, .inr rfl⟩), hoff _ _ _ (Nat.le_of_ble_eq_true rfl) (Nat.le_of_ble_eq_true rfl) (.inl hclosed),
      hoff _ _ _ (Nat.le_of_ble_eq_true rfl) (Nat.le_of_ble_eq_true rfl) (.inr (by simp [Reg.LANE_STAT_STATE, Reg.LANE_STAT_KLATCH]))]
    unfold Dev.enterLock
    dsimp only
    rw [Dev.modLane_f, hoff _ _ _ (Nat.le_of_ble_eq_true rfl) (Nat.le_of_ble_eq_true rfl) (.inl hvbus),
      hoff _ _ _ (Nat.le_of_ble_eq_true rfl) (Nat.le_of_ble_eq_true rfl) (.inr (by simp [Reg.LANE_STAT_STATE, Reg.LANE_STAT_BRD_LOCK])),
      hoff _ _ _ (Nat.le_of_ble_eq_true rfl) (Nat.le_of_ble_eq_true rfl) (.inr (by simp [Reg.LANE_STAT_STATE, Reg.LANE_STAT_UP_LOCK])), Dev.f_setF_same]
    rfl
  · rw [hkept _ _ (hstat _ ⟨Nat.le_of_ble_eq_true rfl, .inr rfl⟩), hoff _ _ _ (Nat.le_of_ble_eq_true rfl) (Nat.le_of_ble_eq_true rfl) (.inl hclosed),
      Dev.f_setF_same]
    rfl
  · rw [hkept _ _ ⟨Nat.le_of_ble_eq_true rfl, by simp only [Reg.VAT_LDG_CLOSED_CLOSED, Reg.VAT_LDG_CLOSED_at]; omega⟩, Dev.f_setF_same]
    rfl

/-- A field of the vat that a re-enable of another vat leaves. -/
theorem Dev.Reenabled.reenable_ne (h : d.Reenabled v) (hne : u ≠ v) : (d.reenable u).Reenabled v := by
  have hs := Dev.reenable_sparesVat hne d
  refine ⟨hs.laneState.trans h.lane, (hs.work.f _ ⟨Nat.le_of_ble_eq_true rfl, .inr rfl⟩).trans h.klatch, ?_,
    fun k => (congrArg Chan.st (hs.chan k)).trans (h.chans k)⟩
  refine (d.f_reenable_off ⟨Nat.le_of_ble_eq_true rfl, ?_⟩ ?_).trans h.closed
  · simp only [Reg.VAT_LDG_CLOSED_CLOSED, Reg.VAT_LDG_CLOSED_at]
    omega
  · have hval : u.1 ≠ v.1 := Fin.val_ne_of_ne hne
    simp only [reenableFields, List.forall_mem_cons, List.not_mem_nil, false_imp_iff, implies_true, and_true,
      Reg.VAT_STAT_IN_SERVICE, Reg.SYS_CHAN_AVAIL_CH, Reg.LANE_BREG_CTL_BUSY,
      Reg.LANE_BREG_CTL_RESULT, Reg.LANE_STAT_STATE, Reg.LANE_STAT_UP_LOCK, Reg.LANE_STAT_BRD_LOCK, Reg.LANE_STAT_KLATCH,
      Reg.VAT_VBUS_VBUS, Reg.VAT_LDG_CLOSED_CLOSED, Reg.VAT_STAT_at, Reg.SYS_CHAN_AVAIL_at, Reg.LANE_BREG_CTL_at, Reg.LANE_STAT_at,
      Reg.VAT_VBUS_at, Reg.VAT_LDG_CLOSED_at]
    omega

/-- The re-enables of a write: a named vat whose FENCE_DONE is 1 is re-enabled. -/
theorem Dev.reenables_reenabled (l : List (Fin 16)) :
    (d.Reenabled v → (l.foldl (fun d u => if d.bit (Reg.VAT_STAT_FENCE_DONE u.1) then d.reenable u else d) d).Reenabled v) ∧
    (d.bit (Reg.VAT_STAT_FENCE_DONE v.1) = true → v ∈ l →
      (l.foldl (fun d u => if d.bit (Reg.VAT_STAT_FENCE_DONE u.1) then d.reenable u else d) d).Reenabled v) := by
  induction l generalizing d with
  | nil => exact ⟨id, fun _ h => absurd h List.not_mem_nil⟩
  | cons u l ih =>
    rw [List.foldl_cons]
    have hstep : d.Reenabled v → (if d.bit (Reg.VAT_STAT_FENCE_DONE u.1) then d.reenable u else d).Reenabled v := fun h => by
      split
      · by_cases hu : u = v
        · subst hu
          exact d.reenable_reenabled u
        · exact h.reenable_ne hu
      · exact h
    refine ⟨fun h => ih.1 (hstep h), fun h hm => ?_⟩
    by_cases hu : v = u
    · subst hu
      rw [if_pos h]
      exact ih.1 (d.reenable_reenabled v)
    · refine ih.2 ?_ ((List.mem_cons.mp hm).resolve_left hu)
      split
      · exact (Dev.reenable_sparesVat (Ne.symm hu) d).fenceDone.trans h
      · exact h

theorem Dev.vatCtl_reenables (d : Dev) (src : Src) {w : Nat} (hw : w < 2 ^ 16) (hb : w.testBit v.1 = true)
    (hf : d.bit (Reg.VAT_STAT_FENCE_DONE v.1) = true) : (d.vatCtl src w).Reenabled v := by
  have hm : v ∈ maskList (w % 2 ^ 16) := by
    rw [Nat.mod_eq_of_lt hw]
    exact mem_maskList.mpr hb
  have hdone : (d.reenableNamed w).Reenabled v := (Dev.reenables_reenabled (maskList (w % 2 ^ 16))).2 hf hm
  have hnone : maskList (w / 2 ^ 16) = [] := by
    rw [Nat.div_eq_of_lt hw]
    rfl
  obtain ⟨b, hctl⟩ := d.vatCtl_eq src w
  rw [hctl, hnone, List.foldl_nil]
  split
  · have hs := (d.reenableNamed w).logRefused_sparesVat (v := v) src Reg.SYS_VAT_CTL_at
    refine ⟨hs.laneState.trans hdone.lane, (hs.work.f _ ⟨Nat.le_of_ble_eq_true rfl, .inr rfl⟩).trans hdone.klatch, ?_,
      fun k => (congrArg Chan.st (hs.chan k)).trans (hdone.chans k)⟩
    refine (Dev.f_logRefused_off _ src _ (Nat.le_of_ble_eq_true rfl) ?_).trans hdone.closed
    simp only [Reg.VAT_LDG_CLOSED_CLOSED, Reg.VAT_LDG_CLOSED_at]
    omega
  · exact hdone

end

theorem reenable_reenables {s : State} {src : Src} {w : Word} {v : Fin 16} (hr : Reaches s src Reg.SYS_VAT_CTL_at) (hw : w.toNat < 2 ^ 16)
    (hb : w.toNat.testBit v.1 = true) (hf : s.dev.bit (Reg.VAT_STAT_FENCE_DONE v.1) = true) :
    Answers (.reenable src w) s (fun t => t.dev.laneState v = laneLock ∧ t.dev.f (Reg.LANE_STAT_KLATCH v.1) = 0xFFFF ∧
      t.dev.bit (Reg.VAT_LDG_CLOSED_CLOSED v.1) = false ∧ ∀ k : Fin 16, (t.dev.chan v k).st = .idle) := by
  have h := (s.dev.answer 0).vatCtl_reenables src hw hb hf
  have hexec : exec (.reenable src w) s = s.done ((s.dev.answer 0).vatCtl src w.toNat) := congrArg s.done (Dev.onWrite_unguarded hr.2 _)
  generalize (s.dev.answer 0).vatCtl src w.toNat = e at h hexec
  refine .of_done hr.1 hexec ⟨h.lane, h.klatch, ?_, h.chans⟩
  exact congrArg (· == 1) h.closed

theorem fenceDone_shown {s : State} {v : Fin 16} (hl : Live s) (hf : s.dev.fenced v = true) (ht : (s.dev.latchTime v).isSome = true)
    (hc : s.dev.bit (Reg.VAT_LDG_CLOSED_CLOSED v.1) = true) :
    Answers (.fenceDone v) s (fun t => t.dev.bit (Reg.VAT_STAT_FENCE_DONE v.1) = true) := by
  have hexec : exec (.fenceDone v) s = s.done (s.dev.setF (Reg.VAT_STAT_FENCE_DONE v.1) 1) := congrArg s.done (if_pos (by rw [hf, ht, hc]; rfl))
  exact .of_done hl hexec (congrArg (· == 1) (Dev.f_setF_same s.dev (Reg.VAT_STAT_FENCE_DONE v.1) 1))

end Sys2Proof.Machine
end

section
/-!
PROOF. The loop computation of an IDLE channel (R97-R99, R115): with nothing that runs, waits or is to stop, it only notes what it has
seen and sends OFF; of a fenced vat, or outside the slot, nothing; and the errors that fence the vat.
-/

namespace Sys2Proof.Machine
open Sys2Proof

/-! ### A channel at rest -/

/-- The channel is IDLE by itself, with nothing that runs, waits or is to stop. -/
structure Chan.Rests (c : Chan) : Prop where
  st : c.st = .idle
  run : c.run = none
  queue : c.queue = []
  stopReq : c.stopReq = []
  gang : c.gang = none

/-- From `d` to `e` the channel (v, k) comes to rest with the command and the period it had; its lane, the time and what the law reads of
the rest of the device are as before. -/
structure Dev.RestsOn (v k : Fin 16) (d e : Dev) : Prop where
  view : Dev.LawView v k d e
  lane : (e.vats[v]).lane = (d.vats[v]).lane
  now : e.now = d.now
  rests : (e.chan v k).Rests
  cmd : (e.chan v k).cmd = (d.chan v k).cmd
  discard : (e.chan v k).discard = (d.chan v k).discard

section
variable {v k : Fin 16} {d e g : Dev}

theorem Dev.RestsOn.refl (h : (d.chan v k).Rests) : Dev.RestsOn v k d d := ⟨.refl d, rfl, rfl, h, rfl, rfl⟩

theorem Dev.RestsOn.trans (h : Dev.RestsOn v k d e) (h' : Dev.RestsOn v k e g) : Dev.RestsOn v k d g :=
  ⟨h.view.trans h'.view, h'.lane.trans h.lane, h'.now.trans h.now, h'.rests, h'.cmd.trans h.cmd, h'.discard.trans h.discard⟩

/-- A change of the channel that leaves it at rest. -/
theorem Dev.restsOn_modChan (d : Dev) (x : Chan → Chan) (h : (x (d.chan v k)).Rests) (hcmd : (x (d.chan v k)).cmd = (d.chan v k).cmd)
    (hdis : (x (d.chan v k)).discard = (d.chan v k).discard) : Dev.RestsOn v k d (d.modChan v k x) where
  view := d.modChan_lawView x
  lane := by unfold Dev.modChan; rw [Dev.vats_modVat_same]
  now := rfl
  rests := by rw [Dev.chan_modChan_same]; exact h
  cmd := by rw [Dev.chan_modChan_same]; exact hcmd
  discard := by rw [Dev.chan_modChan_same]; exact hdis

theorem Dev.restsOn_modPoint (h : (d.chan v k).Rests) (t : Nat) (x : ImpPoint → ImpPoint) : Dev.RestsOn v k d (d.modPoint v t x) where
  view := d.modPoint_lawView t x
  lane := by unfold Dev.modPoint Dev.modImp; rw [Dev.vats_modVat_same]
  now := rfl
  rests := by rw [Dev.chan_modPoint]; exact h
  cmd := by rw [Dev.chan_modPoint]
  discard := by rw [Dev.chan_modPoint]

theorem Dev.RestsOn.displaced (h : Dev.RestsOn v k d e) (t : Nat) : e.displaced v k t = d.displaced v k t :=
  Dev.displaced_congr h.lane
    (h.view.f _ (.of (Nat.le_of_ble_eq_true rfl) (by simp only [Reg.LANE_STAT_STATE, Reg.LANE_STAT_at]; omega))) h.now h.discard t

/-! ### What a computation does of a channel at rest (R115) -/

variable (t : Nat)

theorem Dev.restsOn_orphanRest (h : (d.chan v k).Rests) : Dev.RestsOn v k d (d.orphanRest v k t) := by
  unfold Dev.orphanRest
  split
  next x _ =>
    split
    · have hrest : Dev.RestsOn v k d (d.modChan v k (fun c => { c with orphan := none }.logOrphan t)) :=
        d.restsOn_modChan _ ⟨h.st, h.run, h.queue, h.stopReq, h.gang⟩ rfl rfl
      dsimp only
      rw [hrest.rests.queue]
      exact hrest
    · exact .refl h
  next => exact .refl h

theorem Dev.restsOn_endKilled (h : (d.chan v k).Rests) : Dev.RestsOn v k d (d.endKilled v k t) := by
  unfold Dev.endKilled Dev.endStep
  split
  · rw [Dev.endStepAt_of_none h.run]
    exact d.restsOn_modChan _ ⟨h.st, h.run, h.queue, h.stopReq, h.gang⟩ rfl rfl
  · exact .refl h

theorem Chan.Rests.trackStep {c : Chan} (h : c.Rests) : c.trackStep = c := if_neg (by rw [h.st]; decide)

theorem Dev.protect_of_rests (h : (d.chan v k).Rests) : d.protect v k t = (d, false) := by
  unfold Dev.protect
  dsimp only
  rw [h.st]
  rfl

theorem Dev.restsOn_doStops (h : (d.chan v k).Rests) : Dev.RestsOn v k d (d.doStops v k t) := by
  rw [Dev.doStops_of_none t h.stopReq]
  exact d.restsOn_modChan _ ⟨h.st, h.run, h.queue, rfl, h.gang⟩ rfl rfl

theorem Dev.orphanStart_of_rests (h : (d.chan v k).Rests) : d.orphanStart v k t = d := by
  unfold Dev.orphanStart
  dsimp only
  rw [h.st, h.run, h.queue]
  rfl

theorem Dev.orphanZero_of_rests (h : (d.chan v k).Rests) : d.orphanZero v k t = d := by
  unfold Dev.orphanZero
  dsimp only
  rw [h.st]
  exact Dev.orphanStart_of_rests t h

theorem Dev.orphanKeep_of_rests (h : (d.chan v k).Rests) (hold : Bool) : d.orphanKeep v k hold t = d := by
  unfold Dev.orphanKeep
  dsimp only
  rw [h.st]
  exact Dev.orphanStart_of_rests t h

theorem Dev.restsOn_modHead (h : (d.chan v k).Rests) (x : QEntry → QEntry) : Dev.RestsOn v k d (d.modHead v k x) :=
  d.restsOn_modChan _ ⟨h.st, h.run, by dsimp only; rw [h.queue], h.stopReq, h.gang⟩ rfl rfl

theorem Dev.restsOn_takePolicy (h : (d.chan v k).Rests) : Dev.RestsOn v k d (d.takePolicy v k t) := by
  unfold Dev.takePolicy
  split
  next o _ =>
    split
    · obtain ⟨e, he⟩ : ∃ e, e = d.modChan v k (fun c =>
          { c with orphan := some { o with policy := if o.taken then 0 else o.policy, taken := true, shown := true, expireAt := none },
                   run := c.run.map (fun r => { r with orphan := true }) }) := ⟨_, rfl⟩
      have hrest : Dev.RestsOn v k d e := by
        rw [he]
        exact d.restsOn_modChan _ ⟨h.st, by dsimp only; rw [h.run]; rfl, h.queue, h.stopReq, h.gang⟩ rfl rfl
      dsimp only
      rw [← he, Dev.orphanKeep_of_rests t hrest.rests, Dev.orphanKeep_of_rests t hrest.rests, Dev.orphanZero_of_rests t hrest.rests]
      split
      · exact hrest
      · split <;> exact hrest.trans (Dev.restsOn_modHead hrest.rests _)
    · exact .refl h
  next => exact .refl h

theorem Dev.restsOn_recordLost (h : (d.chan v k).Rests) (won : Nat) (xs : List Nat) : Dev.RestsOn v k d (d.recordLost v k won t xs) :=
  d.restsOn_modChan _ ⟨h.st, h.run, h.queue, h.stopReq, h.gang⟩ rfl rfl

theorem Dev.holdStopping_of_rests (h : (d.chan v k).Rests) : d.holdStopping v k t = d := by
  unfold Dev.holdStopping
  dsimp only
  rw [h.queue]

theorem Dev.doEnds_of_rests (h : (d.chan v k).Rests) (tb : Nat → Tuning) : d.doEnds tb v k t = d := by
  unfold Dev.doEnds
  dsimp only
  rw [h.run]

theorem Dev.doStart_of_rests (h : (d.chan v k).Rests) (tb : Nat → Tuning) : d.doStart tb v k t = d := by
  have hdue : (d.chan v k).startDue t = false := by
    unfold Chan.startDue
    rw [h.queue]
  unfold Dev.doStart
  dsimp only
  rw [hdue]
  rfl

theorem Dev.lawLead_of_rests (h : (d.chan v k).Rests) : d.lawLead v k t = d.send v k .off 0 0 := by
  have hdrives : ¬(d.chan v k).st.drives = true := by rw [h.st]; decide
  unfold Dev.lawLead
  refine (if_neg hdrives).trans ?_
  unfold Dev.sendQuiet
  dsimp only
  rw [h.st]
  rfl

/-- Where every channel that ran still runs, no step has ended. -/
theorem Dev.afterEnds_of_running {ran : List (Fin 16)} (h : ∀ j ∈ ran, (d.chan v j).run.isSome = true) : d.afterEnds v ran t = d := by
  unfold Dev.afterEnds
  refine List.foldlRecOn ran _ (motive := fun e => e = d) rfl fun e he j hj => ?_
  rw [he]
  exact if_neg (by rw [Option.isNone_iff_eq_none, ← Option.not_isSome_iff_eq_none, h j hj]; decide)

/-- A channel's coming to rest ends no step of another. -/
theorem Dev.RestsOn.running (h : Dev.RestsOn v k d e) (hd : (d.chan v k).Rests) : ∀ j ∈ d.running v, (e.chan v j).run.isSome = true := by
  intro j hj
  have hrun : (d.chan v j).run.isSome = true := (List.mem_filter.mp hj).2
  have hne : (v, j) ≠ (v, k) := fun hc => by
    rw [(Prod.mk.inj hc).2, hd.run] at hrun
    exact absurd hrun (by decide)
  rw [h.view.others v j hne]
  exact hrun

/-- What a computation does to a channel at rest before the law (R115). -/
def Dev.restTick (d : Dev) (v k : Fin 16) (t won : Nat) : Dev :=
  ((((d.endKilled v k t).modChan v k Chan.trackStep).doStops v k t).takePolicy v k t).recordLost v k won t (d.standing v k t)

theorem Dev.restsOn_restTick (h : (d.chan v k).Rests) (won : Nat) : Dev.RestsOn v k d (d.restTick v k t won) := by
  have hend := Dev.restsOn_endKilled t h
  have htrack : Dev.RestsOn v k (d.endKilled v k t) ((d.endKilled v k t).modChan v k Chan.trackStep) := by
    have hsame := hend.rests.trackStep
    refine Dev.restsOn_modChan _ _ ?_ ?_ ?_ <;> rw [hsame]
    exact hend.rests
  have hpre := hend.trans htrack
  have hstop := hpre.trans (Dev.restsOn_doStops t hpre.rests)
  have hpol := hstop.trans (Dev.restsOn_takePolicy t hstop.rests)
  exact hpol.trans (Dev.restsOn_recordLost t hpol.rests _ _)

/-- The computation of a channel at rest sends OFF. -/
theorem Dev.computeAt_of_rests (h : (d.chan v k).Rests) (tb : Nat → Tuning) :
    ∃ e, Dev.RestsOn v k d e ∧ d.computeAt tb v k t = (e.send v k .off 0 0).closeTickOf v k t := by
  have hend := Dev.restsOn_endKilled t h
  have hpre : ((d.endKilled v k t).modChan v k Chan.trackStep).chan v k = (d.endKilled v k t).chan v k := by
    rw [Dev.chan_modChan_same, hend.rests.trackStep]
  have hprot : ((d.endKilled v k t).modChan v k Chan.trackStep).protect v k t = ((d.endKilled v k t).modChan v k Chan.trackStep, false) :=
    Dev.protect_of_rests t (by rw [hpre]; exact hend.rests)
  have hlead : d.leadOf v k = k := Dev.leadOf_of_none h.gang
  obtain ⟨won, hwon⟩ : ∃ won, won = ((d.chan v k).killEnd.map placeOf).getD
      (if !(((d.endKilled v k t).modChan v k Chan.trackStep).chan v k).stopReq.isEmpty ||
        (((d.endKilled v k t).modChan v k Chan.trackStep).chan v k).orphanDue t then 5 else 7) := ⟨_, rfl⟩
  obtain ⟨e, he⟩ : ∃ e, e = d.restTick v k t won := ⟨_, rfl⟩
  have hrest : Dev.RestsOn v k d e := he ▸ Dev.restsOn_restTick t h won
  have hafter : e.afterEnds v (d.running v) t = e := Dev.afterEnds_of_running t (hrest.running h)
  have hhold : e.holdStopping v k t = e := Dev.holdStopping_of_rests t hrest.rests
  have hends : e.doEnds tb v k t = e := Dev.doEnds_of_rests t hrest.rests tb
  have hstart : e.doStart tb v k t = e := Dev.doStart_of_rests t hrest.rests tb
  have harm : e.armTick v k t = e := Dev.armTick_of_ne t (by rw [hrest.rests.st]; decide)
  have hjoin : Dev.RestsOn v k e (e.impJoin v k t) := Dev.restsOn_modPoint hrest.rests t _
  have habort : Dev.RestsOn v k e ((e.impJoin v k t).impAbort v k t) := hjoin.trans (Dev.restsOn_modPoint hjoin.rests t _)
  have hlead' : ((e.impJoin v k t).impAbort v k t).leadOf v k = k := Dev.leadOf_of_none habort.rests.gang
  refine ⟨_, hrest.trans habort, ?_⟩
  rw [← Dev.lawLead_of_rests t habort.rests]
  unfold Dev.computeAt
  unfold Dev.restTick at he
  simp only [hprot, Bool.or_false, Bool.false_eq_true, if_false, ← hwon, ← he, hlead, hafter, hhold, ne_eq, not_true_eq_false, hends, hstart,
    ite_self, harm, hlead', true_or, if_true]

end

theorem Dev.restsOn_computing {d : Dev} {v k : Fin 16} (t : Nat) (ecc : Ecc) (h : (d.chan v k).Rests) :
    Dev.RestsOn v k d (d.computing v k t ecc) := by
  obtain ⟨hview, hvats, hnow⟩ := d.noted_lawView v k ecc
  have hch := Dev.chan_of_vats hvats v k
  have hnoted : Dev.RestsOn v k d (if ecc == .corrected then d.corrected (Reg.MEM_VAT_ERR_CE v.1) else d) :=
    ⟨hview, by rw [hvats], hnow, hch ▸ h, by rw [hch], by rw [hch]⟩
  refine hnoted.trans (Dev.restsOn_modChan _ _ ?_ rfl rfl)
  rw [hch]
  exact ⟨h.st, h.run, h.queue, h.stopReq, h.gang⟩

/-- The whole computation of a channel at rest that no KILL displaces. -/
theorem Dev.compute_of_rests {d : Dev} {v k : Fin 16} {t : Nat} {ecc : Ecc} (tb : Nat → Tuning) (hecc : ecc ≠ .uncorrectable)
    (hf : d.fenced v = false) (h : (d.chan v k).Rests) (hdis : d.displaced v k t = false) :
    ∃ e, Dev.RestsOn v k d e ∧ d.compute tb v k t true ecc = ((e.send v k .off 0 0).closeTickOf v k t).calFinish v k t := by
  have hcomp := Dev.restsOn_computing t ecc h
  have hrest := hcomp.trans (Dev.restsOn_orphanRest t hcomp.rests)
  have hdis' := (hrest.displaced t).trans hdis
  obtain ⟨e, he, hat⟩ := Dev.computeAt_of_rests t hrest.rests tb
  refine ⟨e, hrest.trans he, ?_⟩
  have hunc : (ecc == Ecc.uncorrectable) = false := beq_eq_false_iff_ne.mpr hecc
  have hdef : (if ecc == .corrected then d.corrected (Reg.MEM_VAT_ERR_CE v.1) else d).modChan v k (fun c => { c with done := some t }) =
    d.computing v k t ecc := rfl
  unfold Dev.compute
  simp only [hf, hunc, Bool.false_eq_true, if_false, Bool.not_true]
  rw [hdef, hdis', hat]
  exact if_neg Bool.false_ne_true

/-! ### Loop computations that change nothing, and those that fence (R97, R99, R121) -/

theorem loopComputation_outside {s : State} {v k : Fin 16} {a : Bool} {b : Ecc} (hl : Live s)
    (h : (s.dev.slotTick k).all (fun t0 => decide ((s.dev.chan v k).done = some t0)) = true) :
    Answers (.loopComputation v k a b) s (fun t => ∀ v' k' : Fin 16, t.dev.chan v' k' = s.dev.chan v' k') := by
  refine .of_done (d := s.dev) hl (congrArg s.done ?_) (State.commit_chan s s.dev)
  cases hslot : s.dev.slotTick k with
  | none => rfl
  | some t0 =>
    rw [hslot] at h
    exact if_pos (of_decide_eq_true h)

theorem loopComputation_fenced {s : State} {v k : Fin 16} {a : Bool} {b : Ecc} (hl : Live s) (hf : s.dev.fenced v = true) :
    Answers (.loopComputation v k a b) s (fun t => ∀ v' k' : Fin 16, t.dev.chan v' k' = s.dev.chan v' k') := by
  refine .of_done (d := s.dev) hl (congrArg s.done ?_) (State.commit_chan s s.dev)
  split
  · split
    · rfl
    · exact if_pos hf
  · rfl

theorem Dev.vatUe_fenced (d : Dev) (v : Fin 16) (info x : Nat) : (d.vatUe v info x).fenced v = d.fenced v := by
  refine Dev.bit_of_f ?_
  unfold Dev.vatUe
  rw [Dev.f_log_off _ _ _ _ _ (Nat.le_of_ble_eq_true rfl) (by simp only [Reg.VAT_STAT_FENCED, Reg.VAT_STAT_at]; omega),
    Dev.f_raise_off _ 1 (by decide) (Nat.le_of_ble_eq_true rfl) (by decide) (by simp only [Reg.VAT_STAT_FENCED, Reg.VAT_STAT_at]; omega)
      (by simp only [Reg.VAT_STAT_FENCED, Reg.VAT_STAT_at, Reg.MEM_EVT_UE_VAT, Reg.MEM_EVT_at]; omega),
    Dev.f_bump_off _ 1 (Nat.le_of_ble_eq_true rfl) (Nat.le_of_ble_eq_true rfl)
      (by simp only [Reg.VAT_STAT_FENCED, Reg.VAT_STAT_at, Reg.MEM_VAT_ERR_UE, Reg.MEM_VAT_ERR_at]; omega)]

/-- A residue fault fences with cause 2, an uncorrectable error of the vat's SRAM with cause 3. -/
theorem Dev.compute_fences {d : Dev} {v : Fin 16} {a : Bool} {b : Ecc} (tb : Nat → Tuning) (k : Fin 16) (t : Nat) (hf : d.fenced v = false)
    (h : a = false ∨ b = .uncorrectable) : ∃ e : Dev, e.fenced v = false ∧ d.compute tb v k t a b = e.fenceNow v (if a then 3 else 2) := by
  unfold Dev.compute
  cases a with
  | false =>
    refine ⟨d, hf, ?_⟩
    simp only [hf, Bool.false_eq_true, if_false, Bool.not_false, if_true]
  | true =>
    obtain rfl := h.resolve_left (by decide)
    refine ⟨d.vatUe v (evInfo 13) (page (0x18000000 + 0x40000 * v.1)), (d.vatUe_fenced v _ _).trans hf, ?_⟩
    have hunc : (Ecc.uncorrectable == Ecc.uncorrectable) = true := rfl
    simp only [hf, hunc, Bool.false_eq_true, if_false, Bool.not_true, if_true]

theorem loopComputation_fences {s : State} {v k : Fin 16} {a : Bool} {b : Ecc} {t0 : Nat} (hl : Live s) (hf : s.dev.fenced v = false)
    (h : a = false ∨ b = .uncorrectable) (hslot : s.dev.slotTick k = some t0) (hdone : (s.dev.chan v k).done ≠ some t0) :
    Answers (.loopComputation v k a b) s (fun t => t.dev.fenced v = true ∧ t.dev.bit (Reg.VAT_STAT_FENCE_DONE v.1) = false ∧
      t.dev.f (Reg.VAT_STAT_CAUSE v.1) = (if a then 3 else 2) ∧ t.dev.laneState v = laneHeld ∧
      ∀ j : Fin 16, (t.dev.chan v j).st = .fenced) := by
  obtain ⟨e, he, hcomp⟩ := Dev.compute_fences (s.tuning v) k t0 hf h
  obtain ⟨hfen, hundone, hcause, -, hlane⟩ := Dev.fenceNow_status he (if a then 3 else 2)
  obtain ⟨hchans, -, -⟩ := Dev.fenceNow_fences he (if a then 3 else 2)
  have hexec : exec (.loopComputation v k a b) s = s.done (e.fenceNow v (if a then 3 else 2)) := by
    refine congrArg s.done ?_
    rw [hslot]
    exact (if_neg hdone).trans hcomp
  generalize e.fenceNow v (if a then 3 else 2) = g at hfen hundone hcause hlane hchans hexec
  refine .of_done hl hexec ⟨hfen, congrArg (· == 1) hundone, ?_, hlane, hchans⟩
  refine (State.commit_f s g _).trans (hcause.trans ?_)
  cases a <;> rfl

theorem loopComputation_rests {s : State} {v k : Fin 16} {t0 : Nat} {ecc : Ecc} (hl : Live s) (hecc : ecc ≠ .uncorrectable)
    (hf : s.dev.fenced v = false) (hlane : s.dev.laneState v = laneActive) (hslot : s.dev.slotTick k = some t0)
    (hdone : (s.dev.chan v k).done ≠ some t0) (hdis : s.dev.displaced v k t0 = false) (h : (s.dev.chan v k).Rests) :
    Answers (.loopComputation v k true ecc) s (fun t =>
      (t.dev.chan v k).cmd = ⟨.off, 0, 0, ((s.dev.chan v k).cmd.seq + 1) % 256⟩ ∧
      Output.cmd v.1 k.1 .off 0 0 (((s.dev.chan v k).cmd.seq + 1) % 256) ∈ t.dev.out ∧ (t.dev.chan v k).st = .idle ∧ OtherChans s t v k) := by
  obtain ⟨e, he, hcomp⟩ := Dev.compute_of_rests (s.tuning v) hecc hf h hdis
  have hactive : e.laneState v = laneActive :=
    (he.view.f _ (.of (Nat.le_of_ble_eq_true rfl) (by simp only [Reg.LANE_STAT_STATE, Reg.LANE_STAT_at]; omega))).trans hlane
  have hsame := Dev.chan_send_same (k := k) hactive .off 0 0
  have hne := fun v' k' hc => Dev.chan_send_ne (k := k) (v' := v') (k' := k') hactive .off 0 0 hc
  have hout := Dev.send_sends (k := k) hactive .off 0 0
  have hexec : exec (.loopComputation v k true ecc) s = s.done (((e.send v k .off 0 0).closeTickOf v k t0).calFinish v k t0) := by
    refine congrArg s.done ?_
    rw [hslot]
    exact (if_neg hdone).trans hcomp
  generalize e.send v k .off 0 0 = g at hsame hne hout hexec
  obtain ⟨⟨p, x, hclose⟩, hothers, hcout⟩ := g.closeTickOf_spares v k t0
  have hfin := Dev.calFinish_spares (g.closeTickOf v k t0) v k t0
  generalize g.closeTickOf v k t0 = c at hclose hothers hcout hfin hexec
  have hchan : ∀ v' k', (s.commit (c.calFinish v k t0)).dev.chan v' k' = c.chan v' k' := fun v' k' =>
    (State.commit_chan _ _ _ _).trans (hfin v' k').1
  refine .of_done hl hexec ?_
  rw [hchan, hclose, hsame, he.cmd, State.commit_out]
  refine ⟨rfl, (hfin v k).2.mem (hcout ▸ he.cmd ▸ hout), he.rests.st, fun v' k' hc => ?_⟩
  rw [hchan, hothers v' k' hc, hne v' k' hc, he.view.others v' k' hc]

/-- Settles O14: a computation outside the slot or in a fenced vat does nothing, one of a channel at rest sends OFF, and one with a fault
fences; SYS_VAT_CTL fences and re-enables exactly what it names. -/
theorem fencedAndIdleChannelsTakeNoPart : Obligations.FencedAndIdleChannelsTakeNoPart :=
  ⟨⟨fun _ _ _ _ _ hl h => loopComputation_outside hl h,
    fun _ _ _ _ _ hl hecc hf hlane hslot hdone hdis hst hrun hq hstop hgang =>
      loopComputation_rests hl hecc hf hlane hslot hdone hdis ⟨hst, hrun, hq, hstop, hgang⟩,
    fun _ _ _ _ _ hl hf => loopComputation_fenced hl hf,
    fun _ _ _ _ _ _ hl hf h hslot hdone => loopComputation_fences hl hf h hslot hdone⟩,
   ⟨fun _ _ _ _ hr hb hf => fence_fences hr hb hf, fun _ _ _ _ hr hw hb hf => reenable_reenables hr hw hb hf,
    fun _ _ hl hf ht hc => fenceDone_shown hl hf ht hc⟩⟩

end Sys2Proof.Machine
end

section
/-!
PROOF. The impedance engine (R195–R211): requests, the first point of a sweep, the end of the last, and the record in its ring.
-/

namespace Sys2Proof.Machine
open Sys2Proof

/-! ### Requests (R208) -/

theorem Dev.imp_modImp (d : Dev) (v : Fin 16) (x : Imp → Imp) : ((d.modImp v x).vats[v]).imp = x (d.vats[v]).imp :=
  congrArg Vat.imp (d.vats_modVat_same v (fun y => { y with imp := x y.imp }))

theorem Dev.imp_modImp_ne (d : Dev) {u v : Fin 16} (h : u ≠ v) (x : Imp → Imp) : ((d.modImp v x).vats[u]).imp = (d.vats[u]).imp := by
  unfold Dev.modImp
  rw [Dev.vats_modVat, if_neg (fun hc => h hc.symm)]

/-- What a write of IMP_CTL that reaches the register does. -/
def Dev.impAsked (d : Dev) (src : Src) (v : Fin 16) (w : Nat) : Dev :=
  let d := if w.testBit 0 then
      (if d.bit (Reg.IMP_STAT_BUSY v.1) then d.logRefused src (Reg.IMP_CTL_at v.1) else d.modImp v (fun i => { i with startReq := some d.now }))
    else d
  if w.testBit 1 then d.impAskStop v else d

theorem Dev.impCtl_unguarded {d : Dev} {src : Src} {v : Fin 16} (h : (d.guard src (Reg.IMP_CTL_at v.1) true).isNone = true) (w : Nat) :
    d.impCtl src v w = (d.answer 0).impAsked src v w :=
  Dev.onWrite_unguarded h fun d => d.impAsked src v w

theorem Dev.impAsked_start {d : Dev} {src : Src} {v : Fin 16} {w : Nat} (h0 : w.testBit 0 = true) (h1 : w.testBit 1 = false) :
    d.impAsked src v w = if d.bit (Reg.IMP_STAT_BUSY v.1) then d.logRefused src (Reg.IMP_CTL_at v.1)
      else d.modImp v (fun i => { i with startReq := some d.now }) := by
  unfold Dev.impAsked
  simp only [h0, h1, if_true, Bool.false_eq_true, if_false]

theorem Dev.impAsked_stop {d : Dev} {src : Src} {v : Fin 16} {w : Nat} (h0 : w.testBit 0 = false) (h1 : w.testBit 1 = true) :
    d.impAsked src v w = d.impAskStop v := by
  unfold Dev.impAsked
  simp only [h0, h1, if_true, Bool.false_eq_true, if_false]

theorem impStart_asks {s : State} {src : Src} {v : Fin 16} {w : Word} (hr : Reaches s src (Reg.IMP_CTL_at v.1)) (h0 : w.toNat.testBit 0 = true)
    (h1 : w.toNat.testBit 1 = false) :
    Answers (.impStart src v w) s (fun t =>
      if s.dev.bit (Reg.IMP_STAT_BUSY v.1) then (t.dev.vats[v]).imp = (s.dev.vats[v]).imp ∧
        t.dev.evlog.head? = some ⟨0x04, 0xFF, accInfo src true 0, Reg.IMP_CTL_at v.1 - 0x20000000, s.dev.now⟩
      else (t.dev.vats[v]).imp = { (s.dev.vats[v]).imp with startReq := some s.dev.now }) := by
  have hexec : exec (.impStart src v w) s = s.done ((s.dev.answer 0).impAsked src v w.toNat) :=
    congrArg s.done ((if_pos h0).trans (Dev.impCtl_unguarded hr.2 _))
  rw [Dev.impAsked_start h0 h1] at hexec
  have hbusy : (s.dev.answer 0).bit (Reg.IMP_STAT_BUSY v.1) = s.dev.bit (Reg.IMP_STAT_BUSY v.1) := rfl
  rw [hbusy] at hexec
  split
  next hb =>
    rw [if_pos hb] at hexec
    refine .of_done hr.1 hexec ⟨?_, ?_⟩
    · rw [State.commit_vats, (Dev.logRefused_reports _ _ _).vats]
      rfl
    · rw [State.commit_evlog, Dev.logRefused_newest _ src (by unfold setupOff Reg.IMP_CTL_at; have := v.2; omega)]
      rfl
  next hb =>
    rw [if_neg hb] at hexec
    refine .of_done hr.1 hexec ?_
    rw [State.commit_vats, Dev.imp_modImp]
    rfl

theorem impStop_asks {s : State} {src : Src} {v : Fin 16} {w : Word} (hr : Reaches s src (Reg.IMP_CTL_at v.1)) (h0 : w.toNat.testBit 0 = false)
    (h1 : w.toNat.testBit 1 = true) :
    Answers (.impStop src v w) s (fun t => (t.dev.vats[v]).imp =
      if s.dev.bit (Reg.IMP_STAT_BUSY v.1) then
        { (s.dev.vats[v]).imp with stopReq := some ((s.dev.vats[v]).imp.stopReq.getD s.dev.now) }
      else { (s.dev.vats[v]).imp with startReq := none }) := by
  have hexec : exec (.impStop src v w) s = s.done ((s.dev.answer 0).impAskStop v) :=
    congrArg s.done ((if_pos h1).trans ((Dev.impCtl_unguarded hr.2 _).trans (Dev.impAsked_stop h0 h1)))
  refine .of_done hr.1 hexec ?_
  rw [State.commit_vats, Dev.impAskStop, Dev.imp_modImp]
  rfl

/-! ### The first point of a sweep (R196, R197) -/

/-- A new sweep shown, at its first point. -/
def Dev.sweepShown (d : Dev) (v : Fin 16) : Dev :=
  ((d.wrap (Reg.IMP_STAT_SWEEP v.1)).setF (Reg.IMP_STAT_BUSY v.1) 1).setF (Reg.IMP_STAT_POINT v.1) 0

/-- Its phase increment shown too. -/
def Dev.sweepBegun (d : Dev) (v : Fin 16) (inc : Nat) : Dev :=
  ((d.sweepShown v).setF (Reg.IMP_INC_LO_INC v.1) inc).setF (Reg.IMP_INC_HI_INC v.1) (inc / 2 ^ 32)

theorem Dev.startPoint_fresh (d : Dev) (v : Fin 16) (a : Nat) : d.startPoint v 0 a true =
    (d.sweepBegun v ((d.sweepShown v).newPoint v 0 a).inc).modImp v (fun i => { i with
      point := some ((d.sweepShown v).newPoint v 0 a), startReq := none, nextP := 1, nextAt := ((d.sweepShown v).newPoint v 0 a).wEnd }) := rfl

theorem Dev.f_sweepShown_off (d : Dev) (v : Fin 16) {r : RF} (hl : r.lo < 32) (h : r.addr ≠ Reg.IMP_STAT_at v.1) : (d.sweepShown v).f r = d.f r := by
  unfold Dev.sweepShown Dev.wrap
  rw [Dev.f_setF_off _ _ (Nat.le_of_ble_eq_true rfl) hl fun hc => h hc.1, Dev.f_setF_off _ _ (Nat.le_of_ble_eq_true rfl) hl fun hc => h hc.1,
    Dev.f_setF_off _ _ (Nat.le_of_ble_eq_true rfl) hl fun hc => h hc.1]

theorem Dev.f_sweepBegun (d : Dev) (v : Fin 16) (inc : Nat) {r : RF} (hl : r.lo < 32) (h : r.addr = Reg.IMP_STAT_at v.1) :
    (d.sweepBegun v inc).f r = (d.sweepShown v).f r := by
  unfold Dev.sweepBegun
  rw [Dev.f_setF_off _ _ (Nat.le_of_ble_eq_true rfl) hl (by rw [h]; simp only [Reg.IMP_STAT_at, Reg.IMP_INC_HI_INC, Reg.IMP_INC_HI_at]; omega),
    Dev.f_setF_off _ _ (Nat.le_of_ble_eq_true rfl) hl (by rw [h]; simp only [Reg.IMP_STAT_at, Reg.IMP_INC_LO_INC, Reg.IMP_INC_LO_at]; omega)]

theorem Dev.sweepShown_status (d : Dev) (v : Fin 16) : (d.sweepShown v).f (Reg.IMP_STAT_BUSY v.1) = 1 ∧
    (d.sweepShown v).f (Reg.IMP_STAT_POINT v.1) = 0 ∧
    (d.sweepShown v).f (Reg.IMP_STAT_SWEEP v.1) = (d.f (Reg.IMP_STAT_SWEEP v.1) + 1) % 2 ^ (Reg.IMP_STAT_SWEEP v.1).w := by
  have off : ∀ (e : Dev) (r r' : RF) (x : Nat), r.lo < 32 → r'.lo < 32 → r'.lo ≠ r.lo → (e.setF r x).f r' = e.f r' := fun e r r' x hl hl' hne =>
    e.f_setF_off x hl hl' fun hc => hne hc.2
  unfold Dev.sweepShown Dev.wrap
  refine ⟨?_, Dev.f_setF_same _ _ _, ?_⟩
  · rw [off _ _ _ _ (Nat.le_of_ble_eq_true rfl) (Nat.le_of_ble_eq_true rfl) (by simp only [Reg.IMP_STAT_POINT, Reg.IMP_STAT_BUSY]; decide),
      Dev.f_setF_same]
    rfl
  · rw [off _ _ _ _ (Nat.le_of_ble_eq_true rfl) (Nat.le_of_ble_eq_true rfl) (by simp only [Reg.IMP_STAT_POINT, Reg.IMP_STAT_SWEEP]; decide),
      off _ _ _ _ (Nat.le_of_ble_eq_true rfl) (Nat.le_of_ble_eq_true rfl) (by simp only [Reg.IMP_STAT_BUSY, Reg.IMP_STAT_SWEEP]; decide),
      Dev.f_setF_same]

/-- The first point is read off the lists (R196). -/
theorem Dev.newPoint_shown (d : Dev) (v : Fin 16) (a : Nat) :
    let p := (d.sweepShown v).newPoint v 0 a
    p.p0 = a ∧ p.inc = impInc (d.f (Reg.IMP_FREQ_FREQ v.1 0)) ∧
    p.wStart = a + 640 * cyclesUp (d.f (Reg.IMP_PCFG_SETTLE v.1 0)) p.inc ∧
    p.wEnd = p.wStart + 640 * max 1 (cyclesNear (d.f (Reg.IMP_PCFG_CYCLES v.1 0) + 1) p.inc) := by
  have hfreq : (d.sweepShown v).f (Reg.IMP_FREQ_FREQ v.1 0) = d.f (Reg.IMP_FREQ_FREQ v.1 0) :=
    d.f_sweepShown_off v (Nat.le_of_ble_eq_true rfl) (by simp only [Reg.IMP_FREQ_FREQ, Reg.IMP_FREQ_at, Reg.IMP_STAT_at]; omega)
  have hpcfg : ∀ r : RF, r.lo < 32 → r.addr = Reg.IMP_PCFG_at v.1 0 → (d.sweepShown v).f r = d.f r := fun r hl ha =>
    d.f_sweepShown_off v hl (by rw [ha]; simp only [Reg.IMP_PCFG_at, Reg.IMP_STAT_at]; omega)
  have hsettle := hpcfg (Reg.IMP_PCFG_SETTLE v.1 0) (Nat.le_of_ble_eq_true rfl) rfl
  have hcycles := hpcfg (Reg.IMP_PCFG_CYCLES v.1 0) (Nat.le_of_ble_eq_true rfl) rfl
  refine ⟨rfl, congrArg impInc hfreq, ?_, ?_⟩
  · rw [← hsettle]
    rfl
  · rw [← hcycles]
    rfl

theorem Dev.pointStart_fresh {d : Dev} {v : Fin 16} {t0 : Nat} (hset : d.settledAt d.periodStart = true) (hf : d.fenced v = false)
    (hstop : (d.vats[v]).imp.stopReq = none) (hb : d.bit (Reg.IMP_STAT_BUSY v.1) = false) (hp : (d.vats[v]).imp.point = none)
    (hreq : (d.vats[v]).imp.startReq = some t0) (ht : t0 < d.periodStart) : d.pointStart v = d.startPoint v 0 d.periodStart true := by
  have hwin : d.windowEnd v = d := by
    unfold Dev.windowEnd
    rw [hp]
  unfold Dev.pointStart
  simp only [hf, hset, hwin, hstop, hb, hreq, decide_eq_true ht, Bool.false_eq_true, Bool.not_true, or_self, if_false, if_true]

theorem pointStart_begins {s : State} {v : Fin 16} {t0 : Nat} (hl : Live s) (hset : s.dev.settledAt s.dev.periodStart = true)
    (hf : s.dev.fenced v = false) (hstop : (s.dev.vats[v]).imp.stopReq = none) (hb : s.dev.bit (Reg.IMP_STAT_BUSY v.1) = false)
    (hp : (s.dev.vats[v]).imp.point = none) (hreq : (s.dev.vats[v]).imp.startReq = some t0) (ht : t0 < s.dev.periodStart) :
    Answers (.pointStart v) s (fun t => t.dev.bit (Reg.IMP_STAT_BUSY v.1) = true ∧ t.dev.f (Reg.IMP_STAT_POINT v.1) = 0 ∧
      t.dev.f (Reg.IMP_STAT_SWEEP v.1) = (s.dev.f (Reg.IMP_STAT_SWEEP v.1) + 1) % 2 ^ (Reg.IMP_STAT_SWEEP v.1).w ∧
      (t.dev.vats[v]).imp.startReq = none ∧
      ∃ p, (t.dev.vats[v]).imp.point = some p ∧ p.p0 = s.dev.periodStart ∧
        p.inc = (2 * s.dev.f (Reg.IMP_FREQ_FREQ v.1 0) * 2 ^ 48 + 10 ^ 12) / (2 * 10 ^ 12) ∧
        p.wStart = p.p0 + 640 * ((s.dev.f (Reg.IMP_PCFG_SETTLE v.1 0) * 400 * 2 ^ 48 + (640 * p.inc - 1)) / (640 * p.inc)) ∧
        p.wEnd = p.wStart + 640 * max 1 ((2 * (s.dev.f (Reg.IMP_PCFG_CYCLES v.1 0) + 1) * 400 * 2 ^ 48 + 640 * p.inc) /
          (2 * 640 * p.inc))) := by
  have hexec : exec (.pointStart v) s = s.done (s.dev.startPoint v 0 s.dev.periodStart true) :=
    congrArg s.done (Dev.pointStart_fresh hset hf hstop hb hp hreq ht)
  rw [Dev.startPoint_fresh] at hexec
  obtain ⟨hp0, hinc, hstart, hend⟩ := s.dev.newPoint_shown v s.dev.periodStart
  unfold impInc at hinc
  unfold cyclesUp at hstart
  unfold cyclesNear at hend
  generalize (s.dev.sweepShown v).newPoint v 0 s.dev.periodStart = p at hexec hp0 hinc hstart hend
  obtain ⟨hbusy, hpoint, hsweep⟩ := s.dev.sweepShown_status v
  have hstat : ∀ r : RF, r.lo < 32 → r.addr = Reg.IMP_STAT_at v.1 → (s.dev.sweepBegun v p.inc).f r = (s.dev.sweepShown v).f r := fun r hl ha =>
    s.dev.f_sweepBegun v p.inc hl ha
  have hbusy' := congrArg (· == 1) ((hstat _ (Nat.le_of_ble_eq_true rfl) rfl).trans hbusy)
  have hpoint' := (hstat _ (Nat.le_of_ble_eq_true rfl) rfl).trans hpoint
  have hsweep' := (hstat _ (Nat.le_of_ble_eq_true rfl) rfl).trans hsweep
  generalize s.dev.sweepBegun v p.inc = e at hexec hbusy' hpoint' hsweep'
  have himp := e.imp_modImp v (fun i => { i with point := some p, startReq := none, nextP := 1, nextAt := p.wEnd })
  generalize ho : e.modImp v (fun i => { i with point := some p, startReq := none, nextP := 1, nextAt := p.wEnd }) = o at hexec himp
  have hregs : o.regs = e.regs := ho ▸ rfl
  refine .of_done hl hexec ?_
  rw [State.commit_bit, State.commit_f, State.commit_f, State.commit_vats]
  refine ⟨(Dev.bit_of_f (Dev.f_of_regs hregs _)).trans hbusy', (Dev.f_of_regs hregs _).trans hpoint', (Dev.f_of_regs hregs _).trans hsweep',
    congrArg Imp.startReq himp, p, congrArg Imp.point himp, hp0, hinc, hp0 ▸ hstart, hend⟩

/-! ### What the way of a record to its ring leaves of the sweeps (R211) -/

/-- A field of a VAT block that no impedance record's way changes. -/
def RF.OffImp (r : RF) : Prop :=
  r.lo < 32 ∧ 0x20010000 ≤ r.addr ∧ r.addr < 0x20020000 ∧
    ∀ v : Fin 16, r.addr ≠ Reg.IMP_DROP_at v.1 ∧ ¬(r.addr = Reg.IMP_EVT_at v.1 ∧ r.lo = 1)

theorem RF.OffImp.offEvents {r : RF} (h : r.OffImp) {s : Nat} (hs : s < 64) : r.OffEvents s := by
  obtain ⟨hl, hlo, hhi, -⟩ := h
  unfold RF.OffEvents
  simp only [Reg.SLICE_EVT_at, Reg.DPL_PI_at, Reg.DPL_STAT_at, Reg.SLC_RING_STAT_at, Reg.SLC_EVT_LOST_at]
  omega

/-- From `d` to `e` no sweep's point begins or ends, no closed window leaves, and those fields keep their values. -/
structure Dev.ImpStays (d e : Dev) : Prop where
  f : ∀ r : RF, r.OffImp → e.f r = d.f r
  imp : ∀ v : Fin 16, (e.vats[v]).imp.point = (d.vats[v]).imp.point ∧ (e.vats[v]).imp.fin = (d.vats[v]).imp.fin

section
variable {d e g : Dev}

theorem Dev.ImpStays.refl (d : Dev) : Dev.ImpStays d d := ⟨fun _ _ => rfl, fun _ => ⟨rfl, rfl⟩⟩

theorem Dev.ImpStays.trans (h : Dev.ImpStays d e) (h' : Dev.ImpStays e g) : Dev.ImpStays d g :=
  ⟨fun r hr => (h'.f r hr).trans (h.f r hr), fun v => ⟨(h'.imp v).1.trans (h.imp v).1, (h'.imp v).2.trans (h.imp v).2⟩⟩

theorem Dev.ImpStays.of_vats (hf : ∀ r : RF, r.OffImp → e.f r = d.f r) (hv : e.vats = d.vats) : Dev.ImpStays d e :=
  ⟨hf, fun v => by rw [hv]; exact ⟨rfl, rfl⟩⟩

theorem Dev.impStays_foldl {α : Type} {x : Dev → α → Dev} (hx : ∀ e a, Dev.ImpStays e (x e a)) (l : List α) (d : Dev) :
    Dev.ImpStays d (l.foldl x d) :=
  List.foldlRecOn l x (motive := Dev.ImpStays d) (.refl d) fun g hg a _ => hg.trans (hx g a)

theorem Dev.impStays_modVat (d : Dev) (v : Fin 16) {x : Vat → Vat} (hx : ∀ y, (x y).imp.point = y.imp.point ∧ (x y).imp.fin = y.imp.fin) :
    Dev.ImpStays d (d.modVat v x) := by
  refine ⟨fun _ _ => rfl, fun u => ?_⟩
  rw [Dev.vats_modVat]
  split
  next hu => exact hu ▸ hx _
  next => exact ⟨rfl, rfl⟩

/-- The buffer of records changes, the sweep stays. -/
theorem Dev.impStays_modImp (d : Dev) (v : Fin 16) {x : Imp → Imp} (hx : ∀ i, (x i).point = i.point ∧ (x i).fin = i.fin) :
    Dev.ImpStays d (d.modImp v x) := d.impStays_modVat v fun y => hx y.imp

theorem Dev.impStays_ringPut (d : Dev) (s : Nat) (r : Fin 8) (bs : List Byte) (c : Option Nat) : Dev.ImpStays d (d.ringPut s r bs c) :=
  .of_vats (fun x hx => Dev.keeps_ringPut (s := 0) d s r bs c x (hx.offEvents (by decide))) (d.ringPut_vats s r bs c)

theorem Dev.impStays_ringCheck (d : Dev) {s : Nat} (hs : s < 64) (r : Fin 8) : Dev.ImpStays d (d.ringCheck s r) := by
  unfold Dev.ringCheck
  split
  next a _ =>
    have hstop : Dev.ImpStays d (d.stopRing s r .write a) :=
      .of_vats (fun x hx => Dev.keeps_stopRing d r .write a x (hx.offEvents hs)) (d.engineFail_vats 8 s .write a)
    refine hstop.trans ?_
    unfold Dev.dmaEvent
    split
    · exact .refl _
    · exact .of_vats (fun x hx => Dev.keeps_eventAt _ 8 none r.1 _ _ x (hx.offEvents hs)) (Dev.eventAt_vats _ s 8 none r.1 _ _)
  next => exact .refl d

theorem Dev.impStays_impLose (d : Dev) (v : Fin 16) : Dev.ImpStays d (d.impLose v) := by
  refine .of_vats (fun r hr => ?_) (Dev.raise_vats _ _ _ _)
  obtain ⟨hl, hlo, hhi, hoff⟩ := hr
  obtain ⟨hdrop, hevt⟩ := hoff v
  exact (Dev.f_raise_off _ 1 (by omega) hl (Nat.le_of_ble_eq_true rfl) (by omega) hevt).trans
    (Dev.f_bump_off d 1 (Nat.le_of_ble_eq_true rfl) hl fun hc => hdrop hc.1)

theorem Dev.impStays_impOut (d : Dev) (x : SEntry) : Dev.ImpStays d (d.impOut x) := d.impStays_modImp _ fun _ => ⟨rfl, rfl⟩

theorem Dev.impStays_impKeep (d : Dev) (x : SEntry) : Dev.ImpStays d (d.impKeep x) := by
  unfold Dev.impKeep
  dsimp only
  split
  · exact d.impStays_modImp _ fun _ => ⟨rfl, rfl⟩
  · exact d.impStays_impLose _

theorem Dev.impStays_impDeliver {s : Nat} (hs : s < 64) (x n : Nat) : ∀ d : Dev, Dev.ImpStays d (d.impDeliver s x n) := by
  induction n with
  | zero => exact .refl
  | succ n ih =>
    intro d
    unfold Dev.impDeliver
    split
    next y _ _ =>
      split
      · exact ((d.impStays_impOut y).trans (Dev.impStays_impLose _ _)).trans (ih _)
      · split
        · exact .refl d
        · have hcheck := d.impStays_ringCheck hs (streamRing x)
          dsimp only
          split
          · exact ((hcheck.trans (Dev.impStays_impOut _ y)).trans (Dev.impStays_ringPut _ _ _ _ _)).trans (ih _)
          · exact hcheck.trans (Dev.impStays_foldl (fun e a => (e.impStays_impOut a).trans (Dev.impStays_impKeep _ a)) _ _)
    next => exact .refl d

theorem Dev.impStays_impPut (d : Dev) (v : Fin 16) (x : SEntry) : Dev.ImpStays d (d.impPut v x) := by
  unfold Dev.impPut
  dsimp only
  split
  · exact d.impStays_impLose v
  · refine Dev.ImpStays.trans ?_ (Dev.impStays_impDeliver x.slice.isLt x.ring _ _)
    split
    · exact d.impStays_modImp _ fun _ => ⟨rfl, rfl⟩
    · exact d.impStays_impKeep x

theorem Dev.impStays_impRecord (d : Dev) (v k : Fin 16) (p : ImpPoint) : Dev.ImpStays d (d.impRecord v k p) := by
  have hseq : Dev.ImpStays d (d.modMeas v k (fun m => { m with impSeq := (m.impSeq + 1) % 2 ^ 32 })) := d.impStays_modVat v fun _ => ⟨rfl, rfl⟩
  unfold Dev.impRecord
  dsimp only
  split
  · exact hseq.trans (Dev.impStays_impPut _ _ _)
  · exact hseq.trans (Dev.impStays_impLose _ _)

theorem Dev.impStays_impRecords (d : Dev) (v : Fin 16) (mask : Nat) (p : ImpPoint) : Dev.ImpStays d (d.impRecords v mask p) :=
  Dev.impStays_foldl (fun e k => e.impStays_impRecord v k p) _ d

end

/-! ### The end of a point (R197, R200) -/

/-- What becomes of the closed windows once none is left to close. -/
def Dev.finTaken (d : Dev) (v : Fin 16) : Dev :=
  match (d.vats[v]).imp.fin with
  | p :: rest => if d.impReady v p then (d.modImp v (fun i => { i with fin := rest })).impRecords v p.mask p else d
  | [] => d

theorem Dev.pointEnd_eq (d : Dev) (v : Fin 16) : d.pointEnd v = (d.windowEnd v).finTaken v := rfl

theorem Dev.finTaken_stays (d : Dev) (v : Fin 16) : (∀ r : RF, r.OffImp → (d.finTaken v).f r = d.f r) ∧
    ((d.finTaken v).vats[v]).imp.point = (d.vats[v]).imp.point := by
  unfold Dev.finTaken
  split
  next p rest _ =>
    split
    · have hrec := Dev.impStays_impRecords (d.modImp v (fun i => { i with fin := rest })) v p.mask p
      refine ⟨hrec.f, (hrec.imp v).1.trans ?_⟩
      rw [Dev.imp_modImp]
    · exact ⟨fun _ _ => rfl, rfl⟩
  next => exact ⟨fun _ _ => rfl, rfl⟩

/-- The oldest closed window leaves where its samples are formed. -/
theorem Dev.finTaken_fin {d : Dev} {v : Fin 16} {p : ImpPoint} {rest : List ImpPoint} (h : (d.vats[v]).imp.fin = p :: rest) :
    ((d.finTaken v).vats[v]).imp.fin = if d.impReady v p then rest else p :: rest := by
  unfold Dev.finTaken
  rw [h]
  dsimp only
  split
  · have hrec := Dev.impStays_impRecords (d.modImp v (fun i => { i with fin := rest })) v p.mask p
    refine (hrec.imp v).2.trans ?_
    rw [Dev.imp_modImp]
  · exact h

/-- The last point's window closes: the sweep is over. -/
theorem Dev.closeWindow_last {d : Dev} {v : Fin 16} {p : ImpPoint} (hn : d.f (Reg.IMP_CFG_NPTS v.1) ≤ p.p + 1)
    (hr : d.bit (Reg.IMP_CFG_REPEAT v.1) = false) : ((d.closeWindow v p).vats[v]).imp.point = none ∧
    (d.closeWindow v p).f (Reg.IMP_STAT_BUSY v.1) = 0 ∧ (d.closeWindow v p).tb (Reg.IMP_EVT_DONE v.1) 0 = true := by
  obtain ⟨e, he⟩ : ∃ e, e = d.modImp v (fun i => { i with point := none, fin := i.fin ++ [d.impFreeze v p] }) := ⟨_, rfl⟩
  have himp : (e.vats[v]).imp.point = none := by rw [he, Dev.imp_modImp]
  have hregs : e.regs = d.regs := he ▸ rfl
  have hclose : d.closeWindow v p = (e.setF (Reg.IMP_STAT_BUSY v.1) 0).raise (Reg.IMP_EVT_DONE v.1) 1 v.1 := by
    unfold Dev.closeWindow
    dsimp only
    rw [← he, Dev.f_of_regs hregs, Dev.bit_of_f (Dev.f_of_regs hregs _), hr]
    exact if_neg (by simp only [Bool.false_eq_true, or_false]; omega)
  rw [hclose]
  refine ⟨?_, ?_, ?_⟩
  · rw [Dev.raise_vats]
    exact himp
  · rw [Dev.f_raise_off _ 1 (by omega) (Nat.le_of_ble_eq_true rfl) (Nat.le_of_ble_eq_true rfl)
      (by simp only [Reg.IMP_STAT_BUSY, Reg.IMP_STAT_at]; omega)
      (by simp only [Reg.IMP_STAT_BUSY, Reg.IMP_STAT_at, Reg.IMP_EVT_DONE, Reg.IMP_EVT_at]; omega), Dev.f_setF_same]
    exact Nat.zero_mod _
  · exact Dev.tb_raise _ _ (by omega) (by simp only [Reg.IMP_EVT_DONE, Reg.IMP_EVT_at]; omega) (Nat.le_of_ble_eq_true rfl)
      (Nat.le_of_ble_eq_true rfl) rfl

theorem impField_offImp (v : Fin 16) : (Reg.IMP_STAT_BUSY v.1).OffImp ∧ (Reg.IMP_EVT_DONE v.1).OffImp := by
  refine ⟨⟨Nat.le_of_ble_eq_true rfl, ?_, ?_, fun u => ?_⟩, Nat.le_of_ble_eq_true rfl, ?_, ?_, fun u => ?_⟩ <;>
    simp only [Reg.IMP_STAT_BUSY, Reg.IMP_STAT_at, Reg.IMP_EVT_DONE, Reg.IMP_EVT_at, Reg.IMP_DROP_at] <;> omega

theorem pointEnd_ends {s : State} {v : Fin 16} {p : ImpPoint} (hl : Live s) (hp : (s.dev.vats[v]).imp.point = some p) (hend : p.wEnd ≤ s.dev.now)
    (hdone : s.dev.ticksDone v p.wEnd = true) (hn : s.dev.f (Reg.IMP_CFG_NPTS v.1) ≤ p.p + 1) (hr : s.dev.bit (Reg.IMP_CFG_REPEAT v.1) = false) :
    Answers (.pointEnd v) s (fun t => (t.dev.vats[v]).imp.point = none ∧ t.dev.bit (Reg.IMP_STAT_BUSY v.1) = false ∧
      t.dev.tb (Reg.IMP_EVT_DONE v.1) 0 = true) := by
  obtain ⟨hpoint, hbusy, hevt⟩ := Dev.closeWindow_last (v := v) hn hr
  have hwin : s.dev.windowEnd v = s.dev.closeWindow v p := by
    unfold Dev.windowEnd
    rw [hp]
    dsimp only
    rw [hdone]
    exact if_neg (by simp only [Bool.not_true, Bool.false_eq_true, or_false]; omega)
  have hexec : exec (.pointEnd v) s = s.done ((s.dev.closeWindow v p).finTaken v) := congrArg s.done ((s.dev.pointEnd_eq v).trans (by rw [hwin]))
  generalize s.dev.closeWindow v p = e at hpoint hbusy hevt hexec
  obtain ⟨hf, hsame⟩ := e.finTaken_stays v
  refine .of_done hl hexec ?_
  rw [State.commit_vats, State.commit_bit]
  refine ⟨hsame.trans hpoint, congrArg (· == 1) ((hf _ (impField_offImp v).1).trans hbusy), ?_⟩
  exact (Dev.tb_of_f ((State.commit_f _ _ _).trans (hf _ (impField_offImp v).2)) 0).trans hevt

theorem pointEnd_takes {s : State} {v : Fin 16} {p : ImpPoint} {rest : List ImpPoint} (hl : Live s) (hp : (s.dev.vats[v]).imp.point = none)
    (hfin : (s.dev.vats[v]).imp.fin = p :: rest) :
    Answers (.pointEnd v) s (fun t => (t.dev.vats[v]).imp.fin = if s.dev.impReady v p then rest else p :: rest) := by
  have hwin : s.dev.windowEnd v = s.dev := by
    unfold Dev.windowEnd
    rw [hp]
  have hexec : exec (.pointEnd v) s = s.done (s.dev.finTaken v) := congrArg s.done ((s.dev.pointEnd_eq v).trans (by rw [hwin]))
  refine .of_done hl hexec ?_
  rw [State.commit_vats]
  exact Dev.finTaken_fin hfin

/-! ### The record reaches its ring (R211) -/

theorem Dev.impWaiting_perm (d : Dev) (s x : Nat) :
    (d.impWaiting s x).Perm (d.vats.toList.flatMap (fun v => v.imp.buf.filter (SEntry.inStream (sl s) x))) := by
  have fold : ∀ (vs : List Vat) (acc : List SEntry), (vs.foldl (fun acc v =>
      (v.imp.buf.filter (SEntry.inStream (sl s) x)).foldl (fun acc e => insertSE e acc) acc) acc).Perm
      (vs.flatMap (fun v => v.imp.buf.filter (SEntry.inStream (sl s) x)) ++ acc) := fun vs => by
    induction vs with
    | nil => exact fun acc => .refl _
    | cons v vs ih =>
      intro acc
      refine (ih _).trans ?_
      rw [List.flatMap_cons]
      refine ((foldl_insertSE_perm _ acc).append_left _).trans ?_
      rw [← List.append_assoc]
      exact List.perm_append_comm.append_right acc
  exact (fold d.vats.toList []).trans (by rw [List.append_nil])

/-- Whether any vat's buffered record waits for the ring. -/
theorem Dev.impWaiting_eq_nil {d : Dev} {s x : Nat} :
    d.impWaiting s x = [] ↔ ∀ v : Fin 16, ∀ y ∈ (d.vats[v]).imp.buf, SEntry.inStream (sl s) x y = false := by
  have hnil : d.impWaiting s x = [] ↔ d.vats.toList.flatMap (fun v => v.imp.buf.filter (SEntry.inStream (sl s) x)) = [] :=
    ⟨fun h => List.nil_perm.mp (h ▸ d.impWaiting_perm s x), fun h => List.perm_nil.mp (h ▸ d.impWaiting_perm s x)⟩
  rw [hnil, List.flatMap_eq_nil_iff]
  constructor
  · intro h v y hy
    have hmem : d.vats[v] ∈ d.vats.toList := Vector.mem_toList_iff.mpr (Vector.getElem_mem v.2)
    exact Bool.eq_false_iff.mpr (List.filter_eq_nil_iff.mp (h _ hmem) y hy)
  · intro h w hw
    obtain ⟨n, hn, rfl⟩ := Vector.getElem_of_mem (Vector.mem_toList_iff.mp hw)
    exact List.filter_eq_nil_iff.mpr fun y hy => by rw [h ⟨n, hn⟩ y hy]; decide

/-- A vat whose buffer holds the one record that waits for a ring is the only one to hold any for it. -/
theorem Dev.impWaiting_others {d : Dev} {v : Fin 16} {y : SEntry} {s x : Nat} (hw : d.impWaiting s x = [y]) (hb : (d.vats[v]).imp.buf = [y])
    (hy : SEntry.inStream (sl s) x y = true) {u : Fin 16} (hne : u ≠ v) : ∀ z ∈ (d.vats[u]).imp.buf, SEntry.inStream (sl s) x z = false := by
  obtain ⟨g, hg⟩ : ∃ g : Vat → List SEntry, g = fun w => w.imp.buf.filter (SEntry.inStream (sl s) x) := ⟨_, rfl⟩
  have hlen : (d.vats.toList.flatMap g).length = 1 := by
    rw [hg]
    exact ((d.impWaiting_perm s x).length_eq.symm.trans (congrArg List.length hw))
  have hv : v.1 < d.vats.toList.length := by rw [Vector.length_toList]; exact v.2
  have hu : u.1 < d.vats.toList.length := by rw [Vector.length_toList]; exact u.2
  have hsplit : d.vats.toList = d.vats.toList.take v.1 ++ d.vats[v] :: d.vats.toList.drop (v.1 + 1) := by
    have hat : d.vats.toList[v.1] = d.vats[v] := Vector.getElem_toList hv
    rw [← hat, List.getElem_cons_drop, List.take_append_drop]
  have hown : g d.vats[v] = [y] := by
    rw [hg]
    dsimp only
    rw [hb, List.filter_cons_of_pos hy, List.filter_nil]
  rw [hsplit, List.flatMap_append, List.flatMap_cons, hown, List.length_append, List.length_append, List.length_singleton] at hlen
  have hnil : g d.vats[u] = [] := by
    have hat : d.vats.toList[u.1] = d.vats[u] := Vector.getElem_toList hu
    rw [← hat]
    obtain h | h := Nat.lt_or_gt_of_ne (fun hc => hne (Fin.ext hc))
    · have hz : (d.vats.toList.take v.1).flatMap g = [] := List.length_eq_zero_iff.mp (by omega)
      exact List.flatMap_eq_nil_iff.mp hz _ (List.mem_take_iff_getElem.mpr ⟨u.1, by omega, rfl⟩)
    · have hz : (d.vats.toList.drop (v.1 + 1)).flatMap g = [] := List.length_eq_zero_iff.mp (by omega)
      exact List.flatMap_eq_nil_iff.mp hz _ (List.mem_drop_iff_getElem.mpr ⟨u.1 - (v.1 + 1), by omega, by congr 1; omega⟩)
  rw [hg] at hnil
  exact fun z hz => Bool.eq_false_iff.mpr (List.filter_eq_nil_iff.mp hnil z hz)

section
variable {d : Dev} {v : Fin 16} {y : SEntry} (hb : (d.vats[v]).imp.buf = [y]) (hch : y.ch / 16 = v.1)
include hb hch

theorem Dev.impOut_buf : ((d.impOut y).vats[v]).imp.buf = [] := by
  unfold Dev.impOut v16
  have hv : (⟨y.ch / 16 % 16, Nat.mod_lt _ (by decide)⟩ : Fin 16) = v := Fin.ext (by dsimp only; rw [hch]; exact Nat.mod_eq_of_lt v.2)
  rw [hv, Dev.imp_modImp]
  dsimp only
  rw [hb]
  exact List.erase_cons_head y []

theorem Dev.impOut_waits (hw : d.impWaiting y.slice.1 y.ring = [y]) : (d.impOut y).impWaiting y.slice.1 y.ring = [] := by
  have hy : SEntry.inStream (sl y.slice.1) y.ring y = true := by
    unfold SEntry.inStream
    rw [sl_val, beq_self_eq_true, beq_self_eq_true]
    rfl
  refine Dev.impWaiting_eq_nil.mpr fun u => ?_
  by_cases hu : u = v
  · subst hu
    rw [Dev.impOut_buf hb hch]
    exact fun z hz => absurd hz List.not_mem_nil
  · have hv : v16 (y.ch / 16) = v := Fin.ext (by unfold v16; dsimp only; rw [hch]; exact Nat.mod_eq_of_lt v.2)
    have hsame : ((d.impOut y).vats[u]).imp = (d.vats[u]).imp := by
      unfold Dev.impOut
      rw [hv]
      exact d.imp_modImp_ne hu _
    rw [hsame]
    exact Dev.impWaiting_others hw hb hy hu

/-- The one record that waits is put into its ring. -/
theorem Dev.impDeliver_puts (hdpl : d.bit Reg.DPL_CFG_EN = false) (hring : d.impRing y.slice.1 y.ring = true)
    (hr : d.ringReady y.slice.1 (streamRing y.ring) = true) (ho : d.impInOrder y = true) (hw : d.impWaiting y.slice.1 y.ring = [y]) :
    Dev.PutsEntry (d.impOut y) (d.impDeliver y.slice.1 y.ring 2) y.slice (streamRing y.ring) y.bytes := by
  have hputs := Dev.ringPut_puts (d := d.impOut y) hdpl y.slice (streamRing y.ring) y.bytes (some (ringCause (streamRing y.ring).1))
  have hempty : ((d.impOut y).impWrite y).impWaiting y.slice.1 y.ring = [] := by
    have hnone := Dev.impOut_waits hb hch hw
    unfold Dev.impWaiting at hnone ⊢
    unfold Dev.impWrite
    rw [hputs.vats]
    exact hnone
  have hdeliver : d.impDeliver y.slice.1 y.ring 2 = (d.impOut y).impWrite y := by
    unfold Dev.impDeliver
    rw [hw]
    dsimp only
    rw [hring, ho, Dev.ringCheck_of_ready hr, hr]
    refine (if_neg (by decide)).trans ((if_neg (by decide)).trans ((if_pos rfl).trans ?_))
    unfold Dev.impDeliver
    rw [hempty]
  rw [hdeliver]
  exact hputs

end

theorem impRecordDeliver_writes {s : State} {v : Fin 16} {y : SEntry} (hs : Clean s) (hl : Live s) (hdpl : s.dev.bit Reg.DPL_CFG_EN = false)
    (hb : (s.dev.vats[v]).imp.buf = [y]) (hring : s.dev.impRing y.slice.1 y.ring = true)
    (hr : s.dev.ringReady y.slice.1 (streamRing y.ring) = true) (hch : y.ch / 16 = v.1) (ho : s.dev.impInOrder y = true)
    (hw : s.dev.impWaiting y.slice.1 y.ring = [y]) :
    Answers (.impRecordDeliver v) s (fun t => (t.dev.vats[v]).imp.buf = [] ∧
      Stored s t (s.dev.memKey y.slice.1 (s.dev.f (Reg.SLC_RING_CFG_LOC y.slice.1 (streamRing y.ring).1))
        (s.dev.entryAddr y.slice.1 (streamRing y.ring).1 (s.dev.ringPi y.slice.1 (streamRing y.ring)))) y.bytes) := by
  have hputs := Dev.impDeliver_puts hb hch hdpl hring hr ho hw
  have hbuf := Dev.impOut_buf hb hch
  have hrings : s.dev.impRings v = [(y.slice.1, y.ring)] := by
    unfold Dev.impRings
    rw [hb]
    rfl
  have hexec : exec (.impRecordDeliver v) s = s.done (s.dev.impDeliver y.slice.1 y.ring 2) := by
    refine congrArg s.done ?_
    rw [hrings, List.foldl_cons, List.foldl_nil, hw]
    rfl
  generalize s.dev.impDeliver y.slice.1 y.ring 2 = e at hputs hexec
  refine .of_done hl hexec ⟨?_, ?_⟩
  · rw [State.commit_vats, hputs.vats]
    exact hbuf
  · exact State.commit_stored (hputs.wq.trans (congrArg (· ++ _) hs.1)) (hputs.lost.trans hs.2) hputs.ep

/-- Settles O26: requests are kept for the next loop period, a sweep begins with its first point's times, ends with its last window, and
the record waiting is stored at its ring's next entry. -/
theorem impedanceSweepsRun : Obligations.ImpedanceSweepsRun :=
  ⟨fun _ _ _ _ hr h0 h1 => impStart_asks hr h0 h1, fun _ _ _ _ hr h0 h1 => impStop_asks hr h0 h1,
    fun _ _ _ hl hset hf hstop hb hp hreq ht => pointStart_begins hl hset hf hstop hb hp hreq ht,
    fun _ _ _ hl hp hend hdone hn hr => pointEnd_ends hl hp hend hdone hn hr, fun _ _ _ _ hl hp hfin => pointEnd_takes hl hp hfin,
    fun _ _ _ hs hl hdpl hb hring hr hch ho hw => impRecordDeliver_writes hs hl hdpl hb hring hr hch ho hw⟩

end Sys2Proof.Machine
end

section
/-!
PROOF. Slices move and change (R221, R227, R230, R231): MIGRATE, RESUME, RESIZE and what follows them, and the partition mode.
-/

namespace Sys2Proof.Machine
open Sys2Proof

/-! ### A slice command is taken (R217) -/

section
variable {d : Dev} {src : Src} {w : Nat} {i : Fin 64} (hb : d.bit Reg.SLICE_CMD_STAT_BUSY = false) (hi : bits w 0 6 = i.1)
include hb hi

theorem Dev.sliceCmdWrite_create (hop : bits w 8 3 = 1) : d.sliceCmdWrite src w = d.create i := by
  unfold Dev.sliceCmdWrite
  simp only [hb, Bool.false_eq_true, if_false, hop, hi, sl_val]

theorem Dev.sliceCmdWrite_destroy (hop : bits w 8 3 = 2) : d.sliceCmdWrite src w = d.destroy i := by
  unfold Dev.sliceCmdWrite
  simp only [hb, Bool.false_eq_true, if_false, hop, hi, sl_val]

theorem Dev.sliceCmdWrite_migrate (hop : bits w 8 3 = 4) : d.sliceCmdWrite src w = d.migrate i (bits w 16 1) := by
  unfold Dev.sliceCmdWrite
  simp only [hb, Bool.false_eq_true, if_false, hop, hi, sl_val]

theorem Dev.sliceCmdWrite_resume (hop : bits w 8 3 = 5) : d.sliceCmdWrite src w = d.sliceResume i (bits w 16 1) := by
  unfold Dev.sliceCmdWrite
  simp only [hb, Bool.false_eq_true, if_false, hop, hi, sl_val]

theorem Dev.sliceCmdWrite_resize (hop : bits w 8 3 = 6) : d.sliceCmdWrite src w = d.resize i := by
  unfold Dev.sliceCmdWrite
  simp only [hb, Bool.false_eq_true, if_false, hop, hi, sl_val]

end

/-- A command that goes on writes SLICE_CMD_STAT only. -/
theorem Dev.f_sliceRuns_off (d : Dev) (op s : Nat) {r : RF} (hl : r.lo < 32) (h : r.addr ≠ Reg.SLICE_CMD_STAT_at) : (d.sliceRuns op s).f r = d.f r := by
  unfold Dev.sliceRuns
  rw [Dev.f_setF_addr_ne _ _ h (by decide) hl, Dev.f_setF_addr_ne _ _ h (by decide) hl, Dev.f_setF_addr_ne _ _ h (by decide) hl]
  rfl

theorem Dev.sliceRuns_busy (d : Dev) (op s : Nat) : (d.sliceRuns op s).bit Reg.SLICE_CMD_STAT_BUSY = true := by
  unfold Dev.sliceRuns Dev.bit
  rw [Dev.f_setF_off _ _ (by decide) (by decide) (by decide), Dev.f_setF_off _ _ (by decide) (by decide) (by decide), Dev.f_setF_same]
  rfl

theorem Dev.sliceEnd_busy (d : Dev) (s result : Nat) : (d.sliceEnd s result).bit Reg.SLICE_CMD_STAT_BUSY = false := by
  unfold Dev.sliceEnd Dev.bit
  rw [Dev.f_pend_off _ (by decide) (by decide) (by decide), Dev.f_setF_off _ _ (by decide) (by decide) (by decide),
    Dev.f_setF_off _ _ (by decide) (by decide) (by decide), Dev.f_setF_same]
  rfl

theorem Dev.sliceEnd_cmd (d : Dev) (s result : Nat) : (d.sliceEnd s result).sliceCmd = none := (Dev.pend_same _ 93).sliceCmd

theorem Dev.sliceEnd_keepsSlices (d : Dev) (s result : Nat) : Dev.KeepsSlices d (d.sliceEnd s result) := (Dev.pend_keepsSlices _ 93).after rfl

theorem Dev.review_keepsSlices (d : Dev) : Dev.KeepsSlices d d.review := by
  have hset : Dev.KeepsSlices d ((d.setF Reg.SLICE_STAT_COND d.conds).setB Reg.SLICE_STAT_GUARANTEE d.guaranteed) := .of_slices rfl
  unfold Dev.review
  dsimp only
  split
  · exact (hset.trans (Dev.raise_keepsSlices _ _ _ _)).trans (Dev.log_keepsSlices _ _ _ _ _)
  · exact hset

/-- The guarantees' review leaves SLICE_CMD_STAT and the slices' states. -/
theorem Dev.review_result (d : Dev) : d.review.f Reg.SLICE_CMD_STAT_RESULT = d.f Reg.SLICE_CMD_STAT_RESULT :=
  d.f_review (by decide) (by decide) (by decide) (by decide)

theorem Dev.review_state (d : Dev) (i : Fin 64) : d.review.f (Reg.SLC_STATE_STATE i.1) = d.f (Reg.SLC_STATE_STATE i.1) :=
  d.f_review (Nat.le_of_ble_eq_true rfl) (by simp only [Reg.SLC_STATE_STATE, Reg.SLC_STATE_at]; omega)
    (by simp only [Reg.SLC_STATE_STATE, Reg.SLC_STATE_at, Reg.SLICE_STAT_at]; omega)
    (by simp only [Reg.SLC_STATE_STATE, Reg.SLC_STATE_at, Reg.SLICE_EVT_at]; omega)

theorem Dev.sliceEnd_state (d : Dev) (s result : Nat) (i : Fin 64) :
    (d.sliceEnd s result).f (Reg.SLC_STATE_STATE i.1) = d.f (Reg.SLC_STATE_STATE i.1) :=
  d.f_sliceEnd_off s result (Nat.le_of_ble_eq_true rfl) (by simp only [Reg.SLC_STATE_STATE, Reg.SLC_STATE_at, Reg.SLICE_CMD_STAT_at]; omega)
    (by simp only [Reg.SLC_STATE_STATE, Reg.SLC_STATE_at]; omega)

/-! ### MIGRATE (R230) -/

theorem migrate_starts {s : State} {src : Src} {w : Word} {i : Fin 64} (hr : Reaches s src Reg.SLICE_CMD_at)
    (hb : s.dev.bit Reg.SLICE_CMD_STAT_BUSY = false) (hi : bits w.toNat 0 6 = i.1) (hop : bits w.toNat 8 3 = 4) (h0 : i ≠ 0)
    (hst : s.dev.f (Reg.SLC_STATE_STATE i.1) = 1) (hovf : s.dev.bit Reg.DPL_STAT_OVF = false) (hlink : s.dev.linkUp (bits w.toNat 16 1) = true)
    (hvec : (s.dev.vecBase (bits w.toNat 16 1) (s.dev.f (Reg.SLC_VEC_COUNT i.1))).isSome = true)
    (hid : s.dev.pasidOk i.1 (bits w.toNat 16 1) (s.dev.f (Reg.SLC_MIG_NEW_PASID i.1)) = true) :
    Answers (.migrate src w) s (fun t => (t.dev.slices[i]).migPort = some (bits w.toNat 16 1) ∧
      t.dev.sliceCmd = some (4, i.1, s.dev.now) ∧ t.dev.dmaRuns i.1 = false) := by
  obtain ⟨e, he⟩ : ∃ e, e = (s.dev.answer 0).modSlice i (fun e => { e with migPort := some (bits w.toNat 16 1) }) := ⟨_, rfl⟩
  have hport : (e.slices[i]).migPort = some (bits w.toNat 16 1) := by rw [he, Dev.slices_modSlice_same]
  have hmig : (s.dev.answer 0).migrate i (bits w.toNat 16 1) = e.sliceRuns 4 i.1 := by
    have h1 : ¬(i = 0 ∨ (s.dev.answer 0).f (Reg.SLC_STATE_STATE i.1) ≠ 1 ∨ (s.dev.answer 0).bit Reg.DPL_STAT_OVF = true) := by
      rintro (h | h | h)
      · exact h0 h
      · exact h hst
      · exact absurd (h.symm.trans hovf) (by decide)
    have h2 : ¬((!(s.dev.answer 0).linkUp (bits w.toNat 16 1)) = true ∨
        ((s.dev.answer 0).vecBase (bits w.toNat 16 1) ((s.dev.answer 0).f (Reg.SLC_VEC_COUNT i.1))).isNone = true) := by
      rintro (h | h)
      · exact absurd ((Bool.not_eq_true' _ ▸ h).symm.trans hlink) (by decide)
      · exact absurd (h.symm.trans (Option.isNone_eq_false_iff.mpr hvec)) (by decide)
    have h3 : ¬(!(s.dev.answer 0).pasidOk i.1 (bits w.toNat 16 1) ((s.dev.answer 0).f (Reg.SLC_MIG_NEW_PASID i.1))) = true := fun h =>
      absurd ((Bool.not_eq_true' _ ▸ h).symm.trans hid) (by decide)
    rw [he]
    unfold Dev.migrate
    exact (if_neg h1).trans ((if_neg h2).trans (if_neg h3))
  have hnow : e.now = s.dev.now := he ▸ rfl
  have hexec : exec (.migrate src w) s = s.done (e.sliceRuns 4 i.1) :=
    congrArg s.done ((Dev.onWrite_unguarded hr.2 _).trans ((Dev.sliceCmdWrite_migrate (d := s.dev.answer 0) hb hi hop).trans hmig))
  clear hmig he
  have hslices : (e.sliceRuns 4 i.1).slices = e.slices := rfl
  have hcmd : (e.sliceRuns 4 i.1).sliceCmd = some (4, i.1, e.now) := rfl
  generalize e.sliceRuns 4 i.1 = g at hexec hslices hcmd
  refine .of_done hr.1 hexec ⟨?_, ?_, ?_⟩
  · rw [State.commit_slices, hslices]
    exact hport
  · rw [State.commit_sliceCmd, hcmd, hnow]
  · unfold Dev.dmaRuns Dev.dmaOpen
    rw [State.commit_slices, hslices, Dev.slices_sl, hport]
    simp

/-! ### RESUME (R230) -/

theorem Dev.KeepsSlices.setResp {d e : Dev} (h : Dev.KeepsSlices d e) (x : Resp) : Dev.KeepsSlices d (e.setResp x) := h

/-- An event record keeps what is to be written back of its slice. -/
theorem Dev.engineFail_keepsSlices (d : Dev) (m : Fin 16) (s : Nat) (kind : AccessKind) (a : Nat) : Dev.KeepsSlices d (d.engineFail m s kind a) := by
  have hresp : Dev.KeepsSlices d (d.setResp ⟨0, true⟩) := .of_slices rfl
  have hbad : Dev.KeepsSlices d (d.badAccess (engineSrc m s) (kind == .write) a) := by
    rw [Dev.badAccess_eq]
    exact (hresp.trans (Dev.log_keepsSlices _ _ _ _ _)).trans (Dev.pend_keepsSlices _ _)
  have hnoted : ∀ t, Dev.KeepsSlices d (d.denialNoted t (engineSrc m s) kind a) := fun t => .of_slices rfl
  have hdeny : ∀ t, Dev.KeepsSlices d (d.deny t (engineSrc m s) kind a) := fun t => by
    rw [Dev.deny_eq]
    exact ((hnoted t).trans (Dev.log_keepsSlices _ _ _ _ _)).trans (Dev.pend_keepsSlices _ _)
  unfold Dev.engineFail
  dsimp only
  refine Dev.KeepsSlices.setResp ?_ _
  split
  · exact .ite hbad (hdeny _)
  · exact hbad

theorem Dev.evtCheck_keepsSlices (d : Dev) (s : Nat) : Dev.KeepsSlices d (d.evtCheck s) := by
  unfold Dev.evtCheck
  split
  · exact (d.engineFail_keepsSlices 8 s _ _).trans (.of_slices rfl)
  · exact .refl d

theorem Dev.KeepsSlices.wbDirty {d e : Dev} (h : Dev.KeepsSlices d e) (i : Fin 64) : (e.slices[i]).wbDirty = (d.slices[i]).wbDirty := by
  obtain ⟨x, hx⟩ := h i
  rw [hx]

/-- Where events are told of that were lost, the write-back block is still due (R168). -/
theorem Dev.evtLost_wbDirty {d : Dev} {i : Fin 64} (h : (d.slices[i]).wbDirty = true) : ((d.evtLost i.1).slices[i]).wbDirty = true := by
  have hchecked : ((if (d.slices[sl i.1]).evtLostRun ≠ 0 then d.evtCheck i.1 else d).slices[i]).wbDirty = true := by
    split
    · exact ((d.evtCheck_keepsSlices i.1).wbDirty i).trans h
    · exact h
  have hput : ∀ e : Dev, ∀ bs : List Byte, (((e.ringPut i.1 2 bs (some 1)).modSlice (sl i.1) (fun e => { e with evtLostRun := 0 })).slices[i]).wbDirty =
      true := fun e bs => by
    unfold Dev.ringPut Dev.signal
    rw [sl_val, Dev.slices_modSlice_same, Dev.slices_modSlice_same]
  unfold Dev.evtLost
  dsimp only
  generalize (if (d.slices[sl i.1]).evtLostRun ≠ 0 then d.evtCheck i.1 else d) = c at hchecked ⊢
  split
  · exact hput _ _
  · exact hchecked

/-- A slice that leaves FROZEN, up to the sources it held. -/
def Dev.thawed (d : Dev) (i : Fin 64) : Dev :=
  ((forEach 5 d (fun d x => d.keepDue i.1 x)).setF (Reg.SLC_STATE_STATE i.1) 1).modSlice i (fun e =>
    { e with migPort := none, wbDirty := true, wbFirst := true, cmps := e.cmps.map Cmp.buffered,
             heldVec := if (forEach 5 d (fun d x => d.keepDue i.1 x)).wbEnabled i.1 then (d.slices[i]).heldVec else [],
             wdogAt := (forEach 5 d (fun d x => d.keepDue i.1 x)).now })

/-- The sources it held, sent. -/
def Dev.heldSent (d : Dev) (i : Fin 64) (held : List Nat) : Dev :=
  held.foldl (fun d n => if d.f (Reg.EVT_ROUTE_SLICE n) = i.1 then d.deliver n else d) d

theorem Dev.thaw_eq (d : Dev) (i : Fin 64) : d.thaw i = if (forEach 5 d (fun d x => d.keepDue i.1 x)).wbEnabled i.1 then d.thawed i
    else ((d.thawed i).heldSent i (d.slices[i]).heldVec).evtLost i.1 := rfl

theorem Dev.thawed_slice (d : Dev) (i : Fin 64) : ((d.thawed i).slices[i]).migPort = none ∧ ((d.thawed i).slices[i]).wbDirty = true ∧
    (d.thawed i).f (Reg.SLC_STATE_STATE i.1) = 1 := by
  unfold Dev.thawed
  generalize forEach 5 d (fun d x => d.keepDue i.1 x) = e
  rw [Dev.slices_modSlice_same]
  exact ⟨rfl, rfl, Dev.f_setF_same e (Reg.SLC_STATE_STATE i.1) 1⟩

theorem Dev.heldSent_keeps (d : Dev) (i : Fin 64) (held : List Nat) :
    Dev.KeepsSlices d (d.heldSent i held) ∧ (d.heldSent i held).regs = d.regs := by
  refine List.foldlRecOn held _ (motive := fun e => Dev.KeepsSlices d e ∧ e.regs = d.regs) ⟨.refl d, rfl⟩ fun e he n _ => ?_
  split
  · exact ⟨he.1.trans (e.deliver_keepsSlices n), (e.deliver_regs n).trans he.2⟩
  · exact he

theorem Dev.thaw_slice (d : Dev) (i : Fin 64) : ((d.thaw i).slices[i]).migPort = none ∧ ((d.thaw i).slices[i]).wbDirty = true ∧
    (d.thaw i).f (Reg.SLC_STATE_STATE i.1) = 1 := by
  obtain ⟨hport, hdirty, hst⟩ := d.thawed_slice i
  rw [Dev.thaw_eq]
  generalize d.thawed i = e at hport hdirty hst ⊢
  split
  · exact ⟨hport, hdirty, hst⟩
  · obtain ⟨hkeep, hregs⟩ := e.heldSent_keeps i (d.slices[i]).heldVec
    generalize e.heldSent i (d.slices[i]).heldVec = g at hkeep hregs
    have hg : (g.slices[i]).migPort = none := by
      obtain ⟨x, hx⟩ := hkeep i
      rw [hx]
      exact hport
    refine ⟨?_, Dev.evtLost_wbDirty ((hkeep.wbDirty i).trans hdirty), ?_⟩
    · exact (congrArg SliceEng.migPort (Dev.still_evtLost g i.1 i)).trans hg
    · rw [Dev.keeps_evtLost g _ (Reg.slcState_offEvents i.2 (Nat.le_of_ble_eq_true rfl) rfl), Dev.f_of_regs hregs]
      exact hst

theorem Dev.sliceResume_same {d : Dev} {i : Fin 64} {port : Nat} (hst : d.f (Reg.SLC_STATE_STATE i.1) = 3)
    (hport : port = d.f (Reg.SLC_PASID_PORT i.1)) : d.sliceResume i port = ((d.thaw i).sliceEnd i.1 sOk).review :=
  (if_neg fun h => h hst).trans (if_pos hport)

theorem sliceResume_thaws {s : State} {src : Src} {w : Word} {i : Fin 64} (hr : Reaches s src Reg.SLICE_CMD_at)
    (hb : s.dev.bit Reg.SLICE_CMD_STAT_BUSY = false) (hi : bits w.toNat 0 6 = i.1) (hop : bits w.toNat 8 3 = 5)
    (hst : s.dev.f (Reg.SLC_STATE_STATE i.1) = 3) (hport : bits w.toNat 16 1 = s.dev.f (Reg.SLC_PASID_PORT i.1)) :
    Answers (.sliceResume src w) s (fun t => t.dev.f (Reg.SLC_STATE_STATE i.1) = 1 ∧ (t.dev.slices[i]).migPort = none ∧
      (t.dev.slices[i]).wbDirty = true ∧ t.dev.f Reg.SLICE_CMD_STAT_RESULT = 1) := by
  have hres := Dev.sliceResume_same (d := s.dev.answer 0) hst hport
  have hexec : exec (.sliceResume src w) s = s.done ((((s.dev.answer 0).thaw i).sliceEnd i.1 sOk).review) :=
    congrArg s.done ((Dev.onWrite_unguarded hr.2 _).trans ((Dev.sliceCmdWrite_resume (d := s.dev.answer 0) hb hi hop).trans hres))
  obtain ⟨hmig, hdirty, hstate⟩ := (s.dev.answer 0).thaw_slice i
  generalize (s.dev.answer 0).thaw i = e at hexec hmig hdirty hstate
  have hkeep := (e.sliceEnd_keepsSlices i.1 sOk).trans (Dev.review_keepsSlices _)
  have hstate' := (Dev.review_state _ i).trans ((e.sliceEnd_state i.1 sOk i).trans hstate)
  have hresult := (Dev.review_result _).trans (e.sliceEnd_result i.1 sOk)
  generalize (e.sliceEnd i.1 sOk).review = g at hexec hkeep hstate' hresult
  refine .of_done hr.1 hexec ⟨hstate', ?_, (hkeep.wbDirty i).trans hdirty, hresult⟩
  obtain ⟨x, hx⟩ := hkeep i
  rw [State.commit_slices, hx]
  exact hmig

/-! ### RESIZE (R227) -/

theorem Dev.resizeCheck_of_toMove {d : Dev} {i : Fin 64} {v k : Fin 16} (h : d.toMove i v k = true) : d.resizeCheck i = d := by
  refine if_neg fun hall => ?_
  have hk := List.all_eq_true.mp (List.all_eq_true.mp hall v (List.mem_finRange v)) k (List.mem_finRange k)
  exact absurd ((Bool.not_eq_true' _ ▸ hk).symm.trans h) (by decide)

theorem Reg.slcCh_addr (s : Fin 64) (v : Fin 16) : 0x20031000 ≤ Reg.SLC_CH_at s.1 (v.1 / 2) ∧ Reg.SLC_CH_at s.1 (v.1 / 2) < 0x20040000 := by
  simp only [Reg.SLC_CH_at]
  omega

/-- The channels a slice names are read off its SLC_CH words. -/
theorem Dev.named_of_f {d e : Dev} {s : Fin 64} {v : Fin 16} (h : e.f (Reg.SLC_CH_CH s.1 (v.1 / 2)) = d.f (Reg.SLC_CH_CH s.1 (v.1 / 2)))
    (k : Fin 16) : e.named s.1 v k = d.named s.1 v k := Dev.tb_of_f h _

theorem resize_runs {s : State} {src : Src} {w : Word} {i : Fin 64} (hr : Reaches s src Reg.SLICE_CMD_at)
    (hb : s.dev.bit Reg.SLICE_CMD_STAT_BUSY = false) (hi : bits w.toNat 0 6 = i.1) (hop : bits w.toNat 8 3 = 6) (h0 : i ≠ 0)
    (hst : s.dev.f (Reg.SLC_STATE_STATE i.1) = 1) (hstrict : s.dev.bit Reg.SLICE_MODE_STRICT = false)
    (hleg : s.dev.bit Reg.SLICE_MODE_LEGACY = true) {v k : Fin 16} (hm : s.dev.toMove i v k = true) :
    Answers (.resize src w) s (fun t => t.dev.sliceCmd = some (6, i.1, s.dev.now) ∧ t.dev.bit Reg.SLICE_CMD_STAT_BUSY = true) := by
  have hres : (s.dev.answer 0).resize i = ((s.dev.answer 0).sliceRuns 6 i.1).resizeCheck i := by
    refine if_neg ?_
    rintro (h | h | h | h)
    · exact h0 h
    · exact absurd (h.symm.trans hstrict) (by decide)
    · exact absurd ((Bool.not_eq_true' _ ▸ h).symm.trans hleg) (by decide)
    · exact h hst
  have hnamed : ((s.dev.answer 0).sliceRuns 6 i.1).named i.1 v k = s.dev.named i.1 v k :=
    Dev.named_of_f (d := s.dev.answer 0) (Dev.f_sliceRuns_off (s.dev.answer 0) 6 i.1 (Nat.le_of_ble_eq_true rfl)
      (by have := Reg.slcCh_addr i v; simp only [Reg.SLC_CH_CH, Reg.SLICE_CMD_STAT_at]; omega)) k
  have hmove : ((s.dev.answer 0).sliceRuns 6 i.1).toMove i v k = true := (congrArg (· != ((s.dev.chan v k).owner == some i)) hnamed).trans hm
  have hexec : exec (.resize src w) s = s.done ((s.dev.answer 0).sliceRuns 6 i.1) :=
    congrArg s.done ((Dev.onWrite_unguarded hr.2 _).trans
      ((Dev.sliceCmdWrite_resize (d := s.dev.answer 0) hb hi hop).trans (hres.trans (Dev.resizeCheck_of_toMove hmove))))
  exact .of_done hr.1 hexec ⟨rfl, Dev.sliceRuns_busy _ _ _⟩

/-! ### FREEZE and its limit (R230, R231) -/

theorem Dev.sendCause_now (d : Dev) (s c : Nat) : (d.sendCause s c).now = d.now := by
  unfold Dev.sendCause
  dsimp only
  split
  · rfl
  · split
    · refine List.foldlRecOn _ _ (motive := fun e : Dev => e.now = d.now) rfl fun e he n _ => ?_
      split
      · exact he
      · split <;> exact he
    · rfl

theorem Dev.writeBack_now (d : Dev) (i : Fin 64) : (d.writeBack i).now = d.now := by
  have hsig : ∀ (e : Dev) (l : List Nat), (l.foldl (fun d c => d.sendCause i.1 c) e).now = e.now := fun e l =>
    List.foldlRecOn l _ (motive := fun g : Dev => g.now = e.now) rfl fun g hg c _ => (g.sendCause_now i.1 c).trans hg
  have hheld : ∀ (e : Dev) (l : List Nat), (e.heldSent i l).now = e.now := fun e l =>
    List.foldlRecOn l _ (motive := fun g : Dev => g.now = e.now) rfl fun g hg n _ => by
      split
      · exact (g.deliver_same n).now.trans hg
      · exact hg
  exact (Dev.evtLost_work _ i.2).now.trans ((hheld _ _).trans ((hsig _ _).trans (Dev.write_work _ _ _ _ _).now))

/-- The final write-back block, where it can be written (R230). -/
def Dev.lastBack (d : Dev) (i : Fin 64) : Dev :=
  if d.wbEnabled i.1 && (if d.f (Reg.SLC_RING_CFG_LOC i.1 0) < 2 then d.linkUp (d.f (Reg.SLC_RING_CFG_LOC i.1 0))
      else d.localOpen 8 i.1 .write (d.f64 (Reg.SLC_WB_LO_ADDR i.1) (Reg.SLC_WB_HI_ADDR i.1)) 64) then d.writeBack i else d

theorem Dev.lastBack_now (d : Dev) (i : Fin 64) : (d.lastBack i).now = d.now := by
  have hite : ∀ b : Bool, (if b then d.writeBack i else d).now = d.now := fun b => by
    cases b
    · rfl
    · exact d.writeBack_now i
  exact hite _

/-- A slice FROZEN from now on. -/
def Dev.frozen (d : Dev) (i : Fin 64) : Dev := (d.setF (Reg.SLC_STATE_STATE i.1) 3).modSlice i (fun e => { e with frozenAt := d.now })

theorem Dev.freeze_eq {d : Dev} {i : Fin 64} {t0 : Nat} (h : d.sliceCmd = some (4, i.1, t0)) :
    d.freeze i = (((d.lastBack i).frozen i).sliceEnd i.1 sOk).review := by
  unfold Dev.freeze
  rw [h]
  exact if_neg fun hc => hc rfl

theorem freeze_freezes {s : State} {i : Fin 64} {t0 : Nat} (hl : Live s) (h : s.dev.sliceCmd = some (4, i.1, t0)) :
    Answers (.freeze i) s (fun t => t.dev.f (Reg.SLC_STATE_STATE i.1) = 3 ∧ (t.dev.slices[i]).frozenAt = s.dev.now ∧
      t.dev.f Reg.SLICE_CMD_STAT_RESULT = 1 ∧ t.dev.sliceCmd = none) := by
  have hexec : exec (.freeze i) s = s.done ((((s.dev.lastBack i).frozen i).sliceEnd i.1 sOk).review) := congrArg s.done (Dev.freeze_eq h)
  have hat : (((s.dev.lastBack i).frozen i).slices[i]).frozenAt = s.dev.now := by
    unfold Dev.frozen
    rw [Dev.slices_modSlice_same]
    exact s.dev.lastBack_now i
  have hst : ((s.dev.lastBack i).frozen i).f (Reg.SLC_STATE_STATE i.1) = 3 := Dev.f_setF_same (s.dev.lastBack i) (Reg.SLC_STATE_STATE i.1) 3
  generalize (s.dev.lastBack i).frozen i = e at hexec hat hst
  have hkeep := (e.sliceEnd_keepsSlices i.1 sOk).trans (Dev.review_keepsSlices _)
  have hstate := (Dev.review_state _ i).trans ((e.sliceEnd_state i.1 sOk i).trans hst)
  have hresult := (Dev.review_result _).trans (e.sliceEnd_result i.1 sOk)
  have hcmd := (Dev.review_reports (e.sliceEnd i.1 sOk)).sliceCmd.trans (e.sliceEnd_cmd i.1 sOk)
  generalize (e.sliceEnd i.1 sOk).review = g at hexec hkeep hstate hresult hcmd
  refine .of_done hl hexec ⟨hstate, ?_, hresult, hcmd⟩
  obtain ⟨x, hx⟩ := hkeep i
  rw [State.commit_slices, hx]
  exact hat

theorem freezeMaxExpiry_orphans {s : State} {i : Fin 64} (hl : Live s) (hst : s.dev.f (Reg.SLC_STATE_STATE i.1) = 3)
    (ht : (s.dev.slices[i]).frozenAt + 400000 * s.dev.f (Reg.SLC_WDOG_FREEZE_MAX i.1) ≤ s.dev.now) :
    Answers (.freezeMaxExpiry i) s (fun t => t.dev.bit (Reg.SLC_STATE_ORPHAN i.1) = true ∧ t.dev.f (Reg.SLC_STATE_STATE i.1) = 3) := by
  have hexec : exec (.freezeMaxExpiry i) s = s.done (s.dev.orphanSlice i.1) := congrArg s.done (if_pos ⟨hst, ht⟩)
  have hstate : (s.dev.orphanSlice i.1).f (Reg.SLC_STATE_STATE i.1) = 3 :=
    (s.dev.f_orphanSlice_off i (Reg.slice_offOrphan (Nat.le_of_ble_eq_true rfl) (.inl (by simp only [Reg.SLC_STATE_STATE, Reg.SLC_STATE_at]; omega)))
      (fun hc => absurd hc.2 (by simp only [Reg.SLC_STATE_STATE]; decide))).trans hst
  refine .of_done hl hexec ⟨?_, hstate⟩
  rw [State.commit_bit]
  cases hb : s.dev.bit (Reg.SLC_STATE_ORPHAN i.1) with
  | true => exact (congrArg (fun e : Dev => e.bit (Reg.SLC_STATE_ORPHAN i.1)) (if_pos hb)).trans hb
  | false => exact congrArg (· == 1) (Dev.orphanSlice_flag hb)

/-! ### Channels move (R227) -/

/-- A channel as it is given to a slice. -/
def Chan.given (c : Chan) (s : Fin 64) : Chan := { c with owner := some s, halt := false, stopReq := [], orphan := none, cvHist := [], orHist := [] }

theorem Dev.chan_giveChan_same (d : Dev) (s : Fin 64) (v k : Fin 16) : (d.giveChan s v k).chan v k = (d.chan v k).given s := by
  have hset : ∀ e : Dev, (e.setTb (Reg.VAT_LDG_DIV_CH v.1) k.1 false).chan v k = e.chan v k := fun _ => rfl
  have hkeep : (d.keepTotals v k).chan v k = d.chan v k := rfl
  unfold Dev.giveChan
  dsimp only
  rw [hset, Dev.chan_modMeas, Dev.chan_modChan_same, hkeep]
  rfl

theorem Dev.chan_giveChan_ne (d : Dev) (s : Fin 64) {v k v' k' : Fin 16} (h : (v', k') ≠ (v, k)) :
    (d.giveChan s v k).chan v' k' = d.chan v' k' := by
  have hset : ∀ e : Dev, (e.setTb (Reg.VAT_LDG_DIV_CH v.1) k.1 false).chan v' k' = e.chan v' k' := fun _ => rfl
  unfold Dev.giveChan
  dsimp only
  rw [hset, Dev.chan_modMeas, Dev.chan_modChan_ne _ h]
  rfl

theorem Dev.newChain_vats (d : Dev) (s : Nat) : (d.newChain s).vats = (d.closeBlocks s true).vats := by
  unfold Dev.newChain
  generalize d.closeBlocks s true = e
  rfl

theorem Dev.chan_newChain (d : Dev) (i : Fin 64) (v k : Fin 16) : (d.newChain i.1).chan v k = d.chan v k :=
  (Dev.chan_of_vats (d.newChain_vats i.1) v k).trans ((d.streams_closeBlocks i.2 true).chan v k)

/-- What ends a move changes no channel. -/
theorem Dev.moveEnded_vats (d : Dev) (s : Fin 64) : ((d.resizeCheck s).review).vats = d.vats := by
  refine (Dev.review_reports _).vats.trans ?_
  unfold Dev.resizeCheck
  split
  · exact d.sliceEnd_vats s.1 sOk
  · rfl

/-- A channel as a slice leaves it. -/
def Chan.released (c : Chan) : Chan := { c with owner := none, halt := false, stopReq := [], orphan := none }

section
variable {d : Dev} {v k : Fin 16} {i : Fin 64} {t0 : Nat} (h : d.sliceCmd = some (6, i.1, t0))
include h

theorem Dev.channelMove_joins (hn : d.named i.1 v k = true) (hg : d.givable v k = true) :
    d.channelMove v k = (((d.giveChan i v k).newChain i.1).resizeCheck i).review := by
  have hown : (d.chan v k).owner.isNone = true := by
    unfold Dev.givable at hg
    exact (Bool.and_eq_true_iff.mp (Bool.and_eq_true_iff.mp hg).1).2
  have hmove : d.toMove i v k = true := by
    unfold Dev.toMove
    rw [hn, Option.isNone_iff_eq_none.mp hown]
    rfl
  unfold Dev.channelMove
  simp only [h, sl_val, hmove, hn, hg, Bool.not_true, Bool.false_eq_true, if_false, if_true]

theorem Dev.channelMove_leaves (hn : d.named i.1 v k = false) (hown : (d.chan v k).owner = some i) (hst : (d.chan v k).st = .idle)
    (hq : (d.chan v k).queue = []) (hrun : (d.chan v k).run = none) :
    d.channelMove v k = ((d.modChan v k Chan.released).resizeCheck i).review := by
  have hmove : d.toMove i v k = true := by
    unfold Dev.toMove
    rw [hn, hown, beq_self_eq_true]
    rfl
  unfold Dev.channelMove
  simp only [h, sl_val, hmove, hn, hst, hq, hrun, Bool.not_true, Bool.false_eq_true, if_false, beq_self_eq_true, List.isEmpty_nil,
    Option.isNone_none, Bool.and_self, if_true]
  rfl

end

theorem channelMove_gives {s : State} {v k : Fin 16} {i : Fin 64} {t0 : Nat} (hl : Live s) (h : s.dev.sliceCmd = some (6, i.1, t0))
    (hn : s.dev.named i.1 v k = true) (hg : s.dev.givable v k = true) :
    Answers (.channelMove v k) s (fun t => (t.dev.chan v k).owner = some i ∧ OtherChans s t v k) := by
  have hexec : exec (.channelMove v k) s = s.done ((((s.dev.giveChan i v k).newChain i.1).resizeCheck i).review) :=
    congrArg s.done (Dev.channelMove_joins h hn hg)
  have hvats := ((s.dev.giveChan i v k).newChain i.1).moveEnded_vats i
  generalize (((s.dev.giveChan i v k).newChain i.1).resizeCheck i).review = e at hexec hvats
  have hchan : ∀ v' k', (s.commit e).dev.chan v' k' = (s.dev.giveChan i v k).chan v' k' := fun v' k' =>
    (State.commit_chan s e v' k').trans ((Dev.chan_of_vats hvats v' k').trans (Dev.chan_newChain _ i v' k'))
  refine .of_done hl hexec ⟨?_, fun v' k' hne => (hchan v' k').trans (s.dev.chan_giveChan_ne i hne)⟩
  rw [hchan, Dev.chan_giveChan_same]
  rfl

theorem channelMove_releases {s : State} {v k : Fin 16} {i : Fin 64} {t0 : Nat} (hl : Live s) (h : s.dev.sliceCmd = some (6, i.1, t0))
    (hn : s.dev.named i.1 v k = false) (hown : (s.dev.chan v k).owner = some i) (hst : (s.dev.chan v k).st = .idle)
    (hq : (s.dev.chan v k).queue = []) (hrun : (s.dev.chan v k).run = none) :
    Answers (.channelMove v k) s (fun t => (t.dev.chan v k).owner = none ∧ OtherChans s t v k) := by
  have hexec : exec (.channelMove v k) s = s.done (((s.dev.modChan v k Chan.released).resizeCheck i).review) :=
    congrArg s.done (Dev.channelMove_leaves h hn hown hst hq hrun)
  have hvats := (s.dev.modChan v k Chan.released).moveEnded_vats i
  generalize ((s.dev.modChan v k Chan.released).resizeCheck i).review = e at hexec hvats
  have hchan : ∀ v' k', (s.commit e).dev.chan v' k' = (s.dev.modChan v k Chan.released).chan v' k' := fun v' k' =>
    (State.commit_chan s e v' k').trans (Dev.chan_of_vats hvats v' k')
  refine .of_done hl hexec ⟨?_, fun v' k' hne => (hchan v' k').trans (s.dev.chan_modChan_ne hne _)⟩
  rw [hchan, Dev.chan_modChan_same]
  rfl

theorem resizeTimeout_ends {s : State} {i : Fin 64} {t0 : Nat} (hl : Live s) (h : s.dev.sliceCmd = some (6, i.1, t0))
    (ht : t0 + 4000000000 ≤ s.dev.now) :
    Answers .resizeTimeout s (fun t => t.dev.f Reg.SLICE_CMD_STAT_RESULT = 4 ∧ t.dev.bit Reg.SLICE_CMD_STAT_BUSY = false ∧
      t.dev.sliceCmd = none ∧ ∀ v k : Fin 16, t.dev.chan v k = s.dev.chan v k) := by
  have hexec : exec .resizeTimeout s = s.done (s.dev.sliceEnd i.1 sNotIdle) := by
    refine congrArg s.done ?_
    unfold Dev.resizeTimeout
    simp only [h, ht, if_true]
  have hresult := s.dev.sliceEnd_result i.1 sNotIdle
  have hbusy := s.dev.sliceEnd_busy i.1 sNotIdle
  have hcmd := s.dev.sliceEnd_cmd i.1 sNotIdle
  have hvats := s.dev.sliceEnd_vats i.1 sNotIdle
  generalize s.dev.sliceEnd i.1 sNotIdle = e at hexec hresult hbusy hcmd hvats
  exact .of_done hl hexec ⟨hresult, hbusy, hcmd, fun v k => (State.commit_chan s e v k).trans (Dev.chan_of_vats hvats v k)⟩

/-! ### SLICE_MODE (R221) -/

theorem Dev.sliceMode_set {d : Dev} {src : Src} {w : Nat} (hw : (w.testBit 0 && w.testBit 1) = false)
    (hst : ∀ i : Fin 64, i ≠ 0 → d.f (Reg.SLC_STATE_STATE i.1) = 0) (hch : ∀ v k : Fin 16, (d.chan v k).owner = some 0 → (d.chan v k).st = .idle) :
    (d.sliceMode src w).bit Reg.SLICE_MODE_STRICT = w.testBit 0 ∧ (d.sliceMode src w).bit Reg.SLICE_MODE_LEGACY = w.testBit 1 := by
  have hfree : ((List.range 64).all (fun s => s == 0 || d.f (Reg.SLC_STATE_STATE s) == 0) &&
      allCh (fun v k => (d.chan v k).owner != some 0 || (d.chan v k).st == .idle)) = true := by
    refine Bool.and_eq_true_iff.mpr ⟨List.all_eq_true.mpr fun s hs => ?_, List.all_eq_true.mpr fun v _ => List.all_eq_true.mpr fun k _ => ?_⟩
    · by_cases h0 : s = 0
      · exact Bool.or_eq_true_iff.mpr (.inl (beq_iff_eq.mpr h0))
      · exact Bool.or_eq_true_iff.mpr (.inr (beq_iff_eq.mpr (hst ⟨s, List.mem_range.mp hs⟩ fun hc => h0 (congrArg Fin.val hc))))
    · by_cases h0 : (d.chan v k).owner = some 0
      · exact Bool.or_eq_true_iff.mpr (.inr (beq_iff_eq.mpr (hch v k h0)))
      · exact Bool.or_eq_true_iff.mpr (.inl (bne_iff_ne.mpr h0))
  unfold Dev.sliceMode
  dsimp only
  split
  next hsame =>
    obtain ⟨h0, h1⟩ := Bool.and_eq_true_iff.mp hsame
    exact ⟨(beq_iff_eq.mp h0).symm, (beq_iff_eq.mp h1).symm⟩
  next =>
    rw [if_neg (by rw [hw]; decide)]
    have hrev : ∀ r : RF, r.lo < 32 → r.addr = Reg.SLICE_MODE_at →
        ((d.setB Reg.SLICE_MODE_STRICT (w.testBit 0)).setB Reg.SLICE_MODE_LEGACY (w.testBit 1)).review.bit r =
        ((d.setB Reg.SLICE_MODE_STRICT (w.testBit 0)).setB Reg.SLICE_MODE_LEGACY (w.testBit 1)).bit r := fun r hl ha =>
      Dev.bit_of_f (Dev.f_review _ hl (by rw [ha]; decide) (by rw [ha]; decide) (by rw [ha]; decide))
    rw [hrev _ (by decide) rfl, hrev _ (by decide) rfl]
    refine ⟨?_, Dev.bit_setB_same _ _ _ (by decide)⟩
    exact (Dev.bit_of_f (Dev.f_setB_off _ _ (by decide) (by decide) (by decide))).trans (Dev.bit_setB_same _ _ _ (by decide))

theorem sliceMode_sets {s : State} {src : Src} {w : Word} (hr : Reaches s src Reg.SLICE_MODE_at) (hw : (w.toNat.testBit 0 && w.toNat.testBit 1) = false)
    (hst : ∀ i : Fin 64, i ≠ 0 → s.dev.f (Reg.SLC_STATE_STATE i.1) = 0)
    (hch : ∀ v k : Fin 16, (s.dev.chan v k).owner = some 0 → (s.dev.chan v k).st = .idle) :
    Answers (.sliceModeWrite src w) s (fun t => t.dev.bit Reg.SLICE_MODE_STRICT = w.toNat.testBit 0 ∧
      t.dev.bit Reg.SLICE_MODE_LEGACY = w.toNat.testBit 1) := by
  have hexec : exec (.sliceModeWrite src w) s = s.done ((s.dev.answer 0).sliceMode src w.toNat) :=
    congrArg s.done (Dev.onWrite_unguarded hr.2 _)
  have hset := Dev.sliceMode_set (d := s.dev.answer 0) (src := src) hw hst hch
  generalize (s.dev.answer 0).sliceMode src w.toNat = e at hexec hset
  exact .of_done hr.1 hexec hset

/-- Settles O28: each command passes its own checks and sets the slice's state, and the moves of a RESIZE touch one channel each. -/
theorem slicesMoveAndChange : Obligations.SlicesMoveAndChange :=
  ⟨fun _ _ _ _ hr hb hi =>
    ⟨fun hop h0 hst hovf hlink hvec hid => migrate_starts hr hb hi hop h0 hst hovf hlink hvec hid,
      fun hop hst hport => sliceResume_thaws hr hb hi hop hst hport,
      fun hop h0 hst hstrict hleg ⟨_, _, hm⟩ => resize_runs hr hb hi hop h0 hst hstrict hleg hm⟩,
    fun _ _ _ hl h => freeze_freezes hl h, fun _ _ hl hst ht => freezeMaxExpiry_orphans hl hst ht,
    fun _ _ _ _ _ hl h => ⟨fun hn hg => channelMove_gives hl h hn hg,
      fun hn hown hst hq hrun => channelMove_releases hl h hn hown hst hq hrun⟩,
    fun _ _ _ hl h ht => resizeTimeout_ends hl h ht, fun _ _ _ hr hw hst hch => sliceMode_sets hr hw hst hch⟩

end Sys2Proof.Machine
end

section
/-!
PROOF. Slices come and go (R217, R218, R339): CREATE and DESTROY, step by step.
-/

namespace Sys2Proof.Machine
open Sys2Proof

/-! ### What happens to the channels in a scope -/

/-- Every channel in the scope is changed once; every other stays. -/
theorem Dev.chan_foldScope {F : Dev → Fin 16 → Fin 16 → Dev} {g : Chan → Chan} (hsame : ∀ d v k, (F d v k).chan v k = g (d.chan v k))
    (hne : ∀ d v k v' k', (v', k') ≠ (v, k) → (F d v k).chan v' k' = d.chan v' k') (p : Fin 16 → Fin 16 → Bool) (d : Dev) (v k : Fin 16) :
    (foldScope p d F).chan v k = if p v k then g (d.chan v k) else d.chan v k := by
  refine Dev.chan_eachVat (I := fun _ => True) (F := fun d v k => if p v k then F d v k else d) (G := fun v k c => if p v k then g c else c)
    (fun _ _ _ _ => trivial) (fun d v k _ => ?_) (fun d v k v' k' _ h => ?_) trivial v k
  · split
    · exact hsame d v k
    · rfl
  · split
    · exact hne d v k v' k' h
    · rfl

theorem foldScope_keeps {α : Type} {I : α → Prop} {F : α → Fin 16 → Fin 16 → α} (hI : ∀ a v k, I a → I (F a v k)) (p : Fin 16 → Fin 16 → Bool)
    {a : α} (ha : I a) : I (foldScope p a F) :=
  List.foldlRecOn _ _ (motive := I) ha fun b hb v _ => List.foldlRecOn _ _ (motive := I) hb fun c hc k _ => by
    split
    · exact hI c v k hc
    · exact hc

/-! ### A slice's rings are disabled (R145) -/

theorem Dev.f_disableRing_off (d : Dev) (i : Fin 64) (n : Fin 8) {r : RF} (hl : r.lo < 32) (h : ¬(r.addr = Reg.SLC_RING_CFG_at i.1 n.1 ∧ r.lo = 0))
    (hstat : r.addr ≠ Reg.SLC_RING_STAT_at i.1) : (d.disableRing i n).f r = d.f r := by
  have hen : (d.setF (Reg.SLC_RING_CFG_EN i.1 n.1) 0).f r = d.f r := d.f_setF_off 0 (Nat.le_of_ble_eq_true rfl) hl h
  unfold Dev.disableRing
  dsimp only
  split
  · exact (Dev.f_setF_off _ 0 (Nat.le_of_ble_eq_true rfl) hl fun hc => hstat hc.1).trans hen
  · exact hen

theorem Dev.f_disableRing_en (d : Dev) (i : Fin 64) (n : Fin 8) : (d.disableRing i n).f (Reg.SLC_RING_CFG_EN i.1 n.1) = 0 := by
  have hen : (d.setF (Reg.SLC_RING_CFG_EN i.1 n.1) 0).f (Reg.SLC_RING_CFG_EN i.1 n.1) = 0 := Dev.f_setF_same d _ 0
  unfold Dev.disableRing
  dsimp only
  split
  · refine (Dev.f_setF_off _ 0 (Nat.le_of_ble_eq_true rfl) (Nat.le_of_ble_eq_true rfl) fun hc => ?_).trans hen
    have := hc.1
    simp only [Reg.SLC_RING_CFG_EN, Reg.SLC_RING_CFG_at, Reg.SLC_RING_STAT_CMD_STALL, Reg.SLC_RING_STAT_at] at this
    omega
  · exact hen

theorem Dev.disableRing_vats (d : Dev) (i : Fin 64) (n : Fin 8) : (d.disableRing i n).vats = d.vats := by
  unfold Dev.disableRing
  dsimp only
  split <;> rfl

/-- All of a slice's rings are disabled. -/
def Dev.ringsOff (d : Dev) (i : Fin 64) : Dev := (List.finRange 8).foldl (fun d r => d.disableRing i r) d

theorem Dev.ringsOff_vats (d : Dev) (i : Fin 64) : (d.ringsOff i).vats = d.vats :=
  List.foldlRecOn _ _ (motive := fun e : Dev => e.vats = d.vats) rfl fun e he n _ => (e.disableRing_vats i n).trans he

theorem Dev.disableRing_now (d : Dev) (i : Fin 64) (n : Fin 8) : (d.disableRing i n).now = d.now := by
  unfold Dev.disableRing
  dsimp only
  split <;> rfl

theorem Dev.ringsOff_now (d : Dev) (i : Fin 64) : (d.ringsOff i).now = d.now :=
  List.foldlRecOn _ _ (motive := fun e : Dev => e.now = d.now) rfl fun e he n _ => (e.disableRing_now i n).trans he

theorem Dev.f_ringsOff_off (d : Dev) (i : Fin 64) {r : RF} (hl : r.lo < 32) (h : r.addr < 0x20040000 ∨ 0x20050000 ≤ r.addr) :
    (d.ringsOff i).f r = d.f r :=
  List.foldlRecOn _ _ (motive := fun e : Dev => e.f r = d.f r) rfl fun e he n _ =>
    (e.f_disableRing_off i n hl (by simp only [Reg.SLC_RING_CFG_at]; omega) (by simp only [Reg.SLC_RING_STAT_at]; omega)).trans he

theorem Dev.ringsOff_en (d : Dev) (i : Fin 64) (n : Fin 8) : (d.ringsOff i).f (Reg.SLC_RING_CFG_EN i.1 n.1) = 0 := by
  have hcell := foldl_cell (I := fun _ => True) (F := fun (d : Dev) r => d.disableRing i r)
    (rd := fun (e : Dev) (n : Fin 8) => e.f (Reg.SLC_RING_CFG_EN i.1 n.1)) (G := fun _ _ => 0) (fun _ _ _ => trivial)
    (fun e n _ => e.f_disableRing_en i n) (fun e n m _ hne => e.f_disableRing_off i n (Nat.le_of_ble_eq_true rfl) (fun hc => hne (Fin.ext ?_)) ?_)
    n (List.finRange 8) (List.nodup_finRange 8) d trivial
  · exact hcell.trans (if_pos (List.mem_finRange n))
  · have := hc.1
    simp only [Reg.SLC_RING_CFG_EN, Reg.SLC_RING_CFG_at] at this
    omega
  · simp only [Reg.SLC_RING_CFG_EN, Reg.SLC_RING_CFG_at, Reg.SLC_RING_STAT_at]
    omega

/-! ### CREATE (R217) -/

theorem freeVec_field (p : Nat) : (freeVec p).addr = Reg.SLICE_FREE_VEC_at ∧ (freeVec p).lo < 32 := by
  unfold freeVec
  split <;> exact ⟨rfl, by decide⟩

theorem Dev.f_shares_off (d : Dev) (s : Nat) (take : Bool) {r : RF} (hl : r.lo < 32) (h : r.addr ≠ Reg.SLICE_FREE_VEC_at)
    (h' : r.addr ≠ Reg.SLICE_FREE_RES_at) : (d.shares s take).f r = d.f r := by
  obtain ⟨ha, hlo⟩ := freeVec_field (d.f (Reg.SLC_PASID_PORT s))
  unfold Dev.shares
  rw [Dev.f_setF_off _ _ (by decide) hl fun hc => h' hc.1, Dev.f_setF_off _ _ (by decide) hl fun hc => h' hc.1,
    Dev.f_setF_off _ _ hlo hl fun hc => h (hc.1.trans ha)]

theorem Dev.shares_vats (d : Dev) (s : Nat) (take : Bool) : (d.shares s take).vats = d.vats := rfl

/-- The slice's share of the pools is taken. -/
def Dev.poolsTaken (d : Dev) (i : Fin 64) : Dev :=
  (d.shares i.1 true).setF (Reg.SLC_VEC_BASE i.1) ((d.vecBase (d.f (Reg.SLC_PASID_PORT i.1)) (d.f (Reg.SLC_VEC_COUNT i.1))).getD 0)

/-- The channels it names are its own. -/
def Dev.chansGiven (d : Dev) (i : Fin 64) : Dev := foldScope (fun v k => d.named i.1 v k) d (fun d v k => d.giveChan i v k)

/-- It is shown ACTIVE. -/
def Dev.shownActive (d : Dev) (i : Fin 64) : Dev :=
  (((d.setF (Reg.LDG_CFG_EN i.1) 0).setF (Reg.SLC_STATE_ORPHAN i.1) 0).setF (Reg.SLC_RING_STAT_ORPHAN i.1) 0).setF (Reg.SLC_STATE_STATE i.1) 1

/-- It is ACTIVE, its engine new. -/
def Dev.activated (d : Dev) (i : Fin 64) : Dev := (d.shownActive i).modSlice i (fun _ => { wdogAt := (d.shownActive i).now })

theorem Dev.createNow_eq (d : Dev) (i : Fin 64) :
    d.createNow i = (((((d.poolsTaken i).chansGiven i).ringsOff i).activated i).newChain i.1).review := by
  unfold Dev.createNow Dev.activated Dev.shownActive Dev.ringsOff Dev.chansGiven Dev.poolsTaken
  rfl

theorem Dev.poolsTaken_named (d : Dev) (i : Fin 64) (v k : Fin 16) : (d.poolsTaken i).named i.1 v k = d.named i.1 v k := by
  refine Dev.named_of_f ?_ k
  unfold Dev.poolsTaken
  rw [Dev.f_setF_off _ _ (Nat.le_of_ble_eq_true rfl) (Nat.le_of_ble_eq_true rfl)
      (by simp only [Reg.SLC_CH_CH, Reg.SLC_CH_at, Reg.SLC_VEC_BASE, Reg.SLC_VEC_at]; omega),
    Dev.f_shares_off _ _ _ (Nat.le_of_ble_eq_true rfl) (by simp only [Reg.SLC_CH_CH, Reg.SLC_CH_at, Reg.SLICE_FREE_VEC_at]; omega)
      (by simp only [Reg.SLC_CH_CH, Reg.SLC_CH_at, Reg.SLICE_FREE_RES_at]; omega)]

theorem Dev.poolsTaken_now (d : Dev) (i : Fin 64) : (d.poolsTaken i).now = d.now := rfl

theorem Dev.giveChan_now (d : Dev) (i : Fin 64) (v k : Fin 16) : (d.giveChan i v k).now = d.now := rfl

theorem Dev.chan_chansGiven (d : Dev) (i : Fin 64) (v k : Fin 16) :
    (d.chansGiven i).chan v k = if d.named i.1 v k then (d.chan v k).given i else d.chan v k :=
  Dev.chan_foldScope (F := fun d v k => d.giveChan i v k) (g := fun c => c.given i) (fun d v k => d.chan_giveChan_same i v k)
    (fun d _ _ _ _ h => d.chan_giveChan_ne i h) _ d v k

theorem Dev.activated_en (d : Dev) (i : Fin 64) {n : Nat} (hn : n < 8) :
    (d.activated i).f (Reg.SLC_RING_CFG_EN i.1 n) = d.f (Reg.SLC_RING_CFG_EN i.1 n) := by
  have off : ∀ (e : Dev) (r : RF) (x : Nat), r.lo < 32 → Reg.SLC_RING_CFG_at i.1 n ≠ r.addr →
      (e.setF r x).f (Reg.SLC_RING_CFG_EN i.1 n) = e.f (Reg.SLC_RING_CFG_EN i.1 n) := fun e r x hl hne =>
    e.f_setF_off x hl (Nat.le_of_ble_eq_true rfl) fun hc => hne hc.1
  refine (off _ (Reg.SLC_STATE_STATE i.1) 1 (Nat.le_of_ble_eq_true rfl) ?_).trans
    ((off _ (Reg.SLC_RING_STAT_ORPHAN i.1) 0 (Nat.le_of_ble_eq_true rfl) ?_).trans
    ((off _ (Reg.SLC_STATE_ORPHAN i.1) 0 (Nat.le_of_ble_eq_true rfl) ?_).trans
    (off _ (Reg.LDG_CFG_EN i.1) 0 (Nat.le_of_ble_eq_true rfl) ?_))) <;>
    simp only [Reg.SLC_RING_CFG_at, Reg.SLC_STATE_STATE, Reg.SLC_STATE_at, Reg.SLC_RING_STAT_ORPHAN, Reg.SLC_RING_STAT_at, Reg.SLC_STATE_ORPHAN,
      Reg.LDG_CFG_EN, Reg.LDG_CFG_at] <;> omega

theorem Dev.activated_state (d : Dev) (i : Fin 64) : (d.activated i).f (Reg.SLC_STATE_STATE i.1) = 1 :=
  Dev.f_setF_same (((d.setF (Reg.LDG_CFG_EN i.1) 0).setF (Reg.SLC_STATE_ORPHAN i.1) 0).setF (Reg.SLC_RING_STAT_ORPHAN i.1) 0)
    (Reg.SLC_STATE_STATE i.1) 1

theorem Dev.activated_vats (d : Dev) (i : Fin 64) : (d.activated i).vats = d.vats := rfl

theorem Dev.activated_now (d : Dev) (i : Fin 64) : (d.activated i).now = d.now := rfl

/-- A new chain leaves the fields no delivery of records counts in, but its own number. -/
theorem Dev.f_newChain_off (d : Dev) (i : Fin 64) {r : RF} (h : r.OffStream) (hlo : r.addr ≠ Reg.LDG_CHAIN_LO_at i.1)
    (hhi : r.addr ≠ Reg.LDG_CHAIN_HI_at i.1) : (d.newChain i.1).f r = d.f r := by
  have hclose := (d.streams_closeBlocks i.2 true).f r h
  unfold Dev.newChain
  generalize d.closeBlocks i.1 true = e at hclose ⊢
  refine (Dev.f_setF_off _ _ (Nat.le_of_ble_eq_true rfl) h.1 fun hc => hhi hc.1).trans
    ((Dev.f_setF_off _ _ (Nat.le_of_ble_eq_true rfl) h.1 fun hc => hlo hc.1).trans hclose)

theorem Dev.newChain_now (d : Dev) (i : Fin 64) : (d.newChain i.1).now = d.now := by
  have hclose := (d.streams_closeBlocks i.2 true).now
  unfold Dev.newChain
  generalize d.closeBlocks i.1 true = e at hclose ⊢
  exact hclose

theorem Reg.sliceField_offStream (i : Fin 64) {n : Nat} (hn : n < 8) :
    (Reg.SLC_STATE_STATE i.1).OffStream ∧ (Reg.SLC_RING_CFG_EN i.1 n).OffStream := by
  refine ⟨⟨Nat.le_of_ble_eq_true rfl, .inr (.inl ?_), fun v => ?_⟩, Nat.le_of_ble_eq_true rfl, .inr (.inr ?_), fun v => ?_⟩ <;>
    simp only [Reg.SLC_STATE_STATE, Reg.SLC_STATE_at, Reg.SLC_RING_CFG_EN, Reg.SLC_RING_CFG_at, Reg.VAT_LDG_DROP_at] <;> omega

/-- The slice is created: ACTIVE, its rings disabled, the channels it names its own. -/
theorem Dev.createNow_creates (d : Dev) (i : Fin 64) : (d.createNow i).f (Reg.SLC_STATE_STATE i.1) = 1 ∧
    (∀ n < 8, (d.createNow i).f (Reg.SLC_RING_CFG_EN i.1 n) = 0) ∧ (d.createNow i).now = d.now ∧
    ∀ v k : Fin 16, ((d.createNow i).chan v k).owner = if d.named i.1 v k then some i else (d.chan v k).owner := by
  rw [Dev.createNow_eq]
  have hchan : ∀ v k, ((((d.poolsTaken i).chansGiven i).ringsOff i).activated i).chan v k =
      if d.named i.1 v k then (d.chan v k).given i else d.chan v k := fun v k => by
    rw [← d.poolsTaken_named i v k]
    exact (Dev.chan_of_vats ((Dev.activated_vats _ i).trans (((d.poolsTaken i).chansGiven i).ringsOff_vats i)) v k).trans
      ((d.poolsTaken i).chan_chansGiven i v k)
  have hen : ∀ n < 8, ((((d.poolsTaken i).chansGiven i).ringsOff i).activated i).f (Reg.SLC_RING_CFG_EN i.1 n) = 0 := fun n hn =>
    (Dev.activated_en _ i hn).trans (Dev.ringsOff_en _ i ⟨n, hn⟩)
  have hst := Dev.activated_state (((d.poolsTaken i).chansGiven i).ringsOff i) i
  have hnow : ((((d.poolsTaken i).chansGiven i).ringsOff i).activated i).now = d.now := by
    have hgive : ((d.poolsTaken i).chansGiven i).now = d.now :=
      foldScope_keeps (I := fun e : Dev => e.now = d.now) (fun e v k h => (e.giveChan_now i v k).trans h) _ (d.poolsTaken_now i)
    exact (Dev.activated_now _ i).trans ((Dev.ringsOff_now _ i).trans hgive)
  generalize (((d.poolsTaken i).chansGiven i).ringsOff i).activated i = e at hchan hen hst hnow
  refine ⟨?_, fun n hn => ?_, ?_, fun v k => ?_⟩
  · rw [Dev.review_state, Dev.f_newChain_off e i (Reg.sliceField_offStream i (by decide : 0 < 8)).1
      (by simp only [Reg.SLC_STATE_STATE, Reg.SLC_STATE_at, Reg.LDG_CHAIN_LO_at]; omega)
      (by simp only [Reg.SLC_STATE_STATE, Reg.SLC_STATE_at, Reg.LDG_CHAIN_HI_at]; omega)]
    exact hst
  · rw [Dev.f_review _ (Nat.le_of_ble_eq_true rfl) (by simp only [Reg.SLC_RING_CFG_EN, Reg.SLC_RING_CFG_at]; omega)
        (by simp only [Reg.SLC_RING_CFG_EN, Reg.SLC_RING_CFG_at, Reg.SLICE_STAT_at]; omega)
        (by simp only [Reg.SLC_RING_CFG_EN, Reg.SLC_RING_CFG_at, Reg.SLICE_EVT_at]; omega),
      Dev.f_newChain_off e i (Reg.sliceField_offStream i hn).2
        (by simp only [Reg.SLC_RING_CFG_EN, Reg.SLC_RING_CFG_at, Reg.LDG_CHAIN_LO_at]; omega)
        (by simp only [Reg.SLC_RING_CFG_EN, Reg.SLC_RING_CFG_at, Reg.LDG_CHAIN_HI_at]; omega)]
    exact hen n hn
  · exact (Dev.review_reports _).now.trans ((e.newChain_now i).trans hnow)
  · rw [Dev.chan_of_vats (Dev.review_reports _).vats, Dev.chan_newChain, hchan]
    split <;> rfl

theorem Dev.createFails_lt {d : Dev} {s r : Nat} (h : d.createFails s = some r) : r < 16 := by
  unfold Dev.createFails at h
  dsimp only at h
  split_ifs at h <;> cases h <;> decide

theorem create_answers {s : State} {src : Src} {w : Word} {i : Fin 64} (hr : Reaches s src Reg.SLICE_CMD_at)
    (hb : s.dev.bit Reg.SLICE_CMD_STAT_BUSY = false) (hop : bits w.toNat 8 3 = 1) (hi : bits w.toNat 0 6 = i.1) (h0 : i ≠ 0) :
    Answers (.create src w) s (fun t =>
      match s.dev.createFails i.1 with
      | some r => t.dev.f Reg.SLICE_CMD_STAT_RESULT = r ∧ t.dev.bit Reg.SLICE_CMD_STAT_BUSY = false ∧
          t.dev.f (Reg.SLC_STATE_STATE i.1) = s.dev.f (Reg.SLC_STATE_STATE i.1) ∧ ∀ v k : Fin 16, t.dev.chan v k = s.dev.chan v k
      | none => t.dev.f (Reg.SLC_STATE_STATE i.1) = 1 ∧ t.dev.bit Reg.SLICE_CMD_STAT_BUSY = true ∧
          t.dev.sliceCmd = some (1, i.1, s.dev.now) ∧ (∀ r < 8, t.dev.bit (Reg.SLC_RING_CFG_EN i.1 r) = false) ∧
          ∀ v k : Fin 16, (t.dev.chan v k).owner = if s.dev.named i.1 v k then some i else (s.dev.chan v k).owner) := by
  obtain ⟨d, hd⟩ : ∃ d, d = s.dev.answer 0 := ⟨_, rfl⟩
  have hfails : d.createFails i.1 = s.dev.createFails i.1 := by rw [hd]; rfl
  have hbusy : d.bit Reg.SLICE_CMD_STAT_BUSY = false := by rw [hd]; exact hb
  have hstate : d.f (Reg.SLC_STATE_STATE i.1) = s.dev.f (Reg.SLC_STATE_STATE i.1) := by rw [hd]; rfl
  have hchans : ∀ v k, d.chan v k = s.dev.chan v k := fun v k => by rw [hd]; rfl
  have hnamed : ∀ v k, d.named i.1 v k = s.dev.named i.1 v k := fun v k => by rw [hd]; rfl
  have hnow : d.now = s.dev.now := by rw [hd]; rfl
  have hexec : exec (.create src w) s = s.done (d.create i) :=
    congrArg s.done ((Dev.onWrite_unguarded hr.2 _).trans ((Dev.sliceCmdWrite_create (d := s.dev.answer 0) hb hi hop).trans (by rw [hd])))
  clear hd
  unfold Dev.create at hexec
  rw [if_neg h0, hfails] at hexec
  split
  next r hf =>
    rw [hf] at hexec hfails
    dsimp only at hexec
    have hresult := (d.sliceEnd_result i.1 r).trans (Nat.mod_eq_of_lt (Dev.createFails_lt hfails))
    have hidle := d.sliceEnd_busy i.1 r
    have hst := (d.sliceEnd_state i.1 r i).trans hstate
    have hvats := d.sliceEnd_vats i.1 r
    generalize d.sliceEnd i.1 r = e at hexec hresult hidle hst hvats
    exact .of_done hr.1 hexec ⟨hresult, hidle, hst, fun v k =>
      (State.commit_chan s e v k).trans ((Dev.chan_of_vats hvats v k).trans (hchans v k))⟩
  next hf =>
    rw [hf] at hexec
    dsimp only at hexec
    obtain ⟨hst, hen, hnow', hown⟩ := d.createNow_creates i
    generalize d.createNow i = e at hexec hst hen hnow' hown
    have hst' := (e.f_sliceRuns_off 1 i.1 (r := Reg.SLC_STATE_STATE i.1) (Nat.le_of_ble_eq_true rfl)
      (by simp only [Reg.SLC_STATE_STATE, Reg.SLC_STATE_at, Reg.SLICE_CMD_STAT_at]; omega)).trans hst
    have hen' : ∀ n < 8, (e.sliceRuns 1 i.1).f (Reg.SLC_RING_CFG_EN i.1 n) = 0 := fun n hn =>
      (e.f_sliceRuns_off 1 i.1 (Nat.le_of_ble_eq_true rfl)
        (by simp only [Reg.SLC_RING_CFG_EN, Reg.SLC_RING_CFG_at, Reg.SLICE_CMD_STAT_at]; omega)).trans (hen n hn)
    have hrun := e.sliceRuns_busy 1 i.1
    have hcmd : (e.sliceRuns 1 i.1).sliceCmd = some (1, i.1, e.now) := rfl
    have hvats : (e.sliceRuns 1 i.1).vats = e.vats := rfl
    generalize e.sliceRuns 1 i.1 = g at hexec hst' hen' hrun hcmd hvats
    refine .of_done hr.1 hexec ⟨hst', hrun, ?_, fun n hn => congrArg (· == 1) (hen' n hn), fun v k => ?_⟩
    · rw [State.commit_sliceCmd, hcmd, hnow', hnow]
    · rw [State.commit_chan, Dev.chan_of_vats hvats, hown, hnamed, hchans]

/-! ### The slice's keys (R339) -/

/-- A slot filled shows the state it was filled with. -/
theorem Dev.fillSlot_slotState (d : Dev) (k attr parent kind lcm key : Nat) {state : Nat} (hs : state < 4) (label ctx : List Byte) (hk : kind < 4)
    (hlcm : lcm < 8) : (d.fillSlot k attr parent kind lcm state key label ctx).slotState k = state := by
  have hf : (d.fillSlot k attr parent kind lcm state key label ctx).f (Reg.MORD_K_META_WORD k) =
      (parent % 256 + 2 ^ 8 * state + 2 ^ 10 * kind + 2 ^ 12 * lcm + 2 ^ 16 * (((d.drbg 48).2.meta k 16 16 + 1) % 2 ^ 16)) % 2 ^ 32 :=
    Dev.f_setF_same ((d.drbg 48).2.setF (Reg.MORD_K_ATTR_WORD k) attr) (Reg.MORD_K_META_WORD k) _
  unfold Dev.slotState Dev.meta
  rw [hf]
  unfold bits
  omega

theorem Dev.slotState_of_f {d e : Dev} {k : Nat} (h : e.f (Reg.MORD_K_META_WORD k) = d.f (Reg.MORD_K_META_WORD k)) : e.slotState k = d.slotState k :=
  congrArg (fun x => bits x 8 2) h

theorem Dev.sliceKeys_slotState (d : Dev) (i : Nat) {kl ks : Nat} (hne : kl ≠ ks) (nonce : List Byte) :
    (d.sliceKeys i kl ks nonce).slotState kl = 1 ∧ (d.sliceKeys i kl ks nonce).slotState ks = 1 := by
  unfold Dev.sliceKeys
  refine ⟨(Dev.slotState_of_f (Dev.fillSlot_f _ _ _ _ _ _ _ _ _ _ (Nat.le_of_ble_eq_true rfl) (.inr ?_) (.inr ?_))).trans
    (Dev.fillSlot_slotState _ _ _ _ _ _ _ (by decide) _ _ (by decide) (by decide)), Dev.fillSlot_slotState _ _ _ _ _ _ _ (by decide) _ _ (by decide) (by decide)⟩ <;>
    simp only [Reg.MORD_K_META_WORD, Reg.MORD_K_META_at, Reg.MORD_K_ATTR_at] <;> omega

theorem Dev.emptyKeys_two {d : Dev} {kl ks : Nat} {rest : List Nat} (h : d.emptyKeys = kl :: ks :: rest) : kl < 128 ∧ ks < 128 ∧ kl ≠ ks := by
  have hnodup : d.emptyKeys.Nodup := List.Nodup.filter _ List.nodup_range
  have hlt : ∀ k ∈ d.emptyKeys, k < 128 := fun k hk => List.mem_range.mp (List.mem_filter.mp hk).1
  rw [h] at hnodup hlt
  refine ⟨hlt _ List.mem_cons_self, hlt _ (List.mem_cons_of_mem _ List.mem_cons_self), fun hc => ?_⟩
  exact (List.nodup_cons.mp hnodup).1 (hc ▸ List.mem_cons_self)

/-- The keys of a slice, with its certificate still to be formed. -/
def Dev.keysGiven (d : Dev) (i kl ks : Nat) : Dev :=
  ((((d.drbg 16).2.setMord { (d.drbg 16).2.mord with nonce := put (d.drbg 16).2.mord.nonce (sl i) (d.drbg 16).1 }).sliceKeys i kl ks (d.drbg 16).1).setF
    (Reg.SLC_STATE_KEY_LDG i) kl).setF (Reg.SLC_STATE_KEY_SIG i) ks

theorem Dev.keysGiven_keys (d : Dev) (i : Fin 64) {kl ks : Nat} (hl : kl < 128) (hs : ks < 128) (hne : kl ≠ ks) :
    (d.keysGiven i.1 kl ks).f (Reg.SLC_STATE_KEY_LDG i.1) = kl ∧ (d.keysGiven i.1 kl ks).f (Reg.SLC_STATE_KEY_SIG i.1) = ks ∧
    (d.keysGiven i.1 kl ks).slotState kl = 1 ∧ (d.keysGiven i.1 kl ks).slotState ks = 1 := by
  unfold Dev.keysGiven
  obtain ⟨hkl, hks⟩ := Dev.sliceKeys_slotState
    ((d.drbg 16).2.setMord { (d.drbg 16).2.mord with nonce := put (d.drbg 16).2.mord.nonce (sl i.1) (d.drbg 16).1 }) i.1 hne (d.drbg 16).1
  generalize ((d.drbg 16).2.setMord { (d.drbg 16).2.mord with nonce := put (d.drbg 16).2.mord.nonce (sl i.1) (d.drbg 16).1 }).sliceKeys i.1 kl ks
    (d.drbg 16).1 = e at hkl hks
  have hmeta : ∀ k < 128, ((e.setF (Reg.SLC_STATE_KEY_LDG i.1) kl).setF (Reg.SLC_STATE_KEY_SIG i.1) ks).slotState k = e.slotState k := fun k hk => by
    refine Dev.slotState_of_f ((Dev.f_setF_off _ _ (Nat.le_of_ble_eq_true rfl) (Nat.le_of_ble_eq_true rfl) ?_).trans
      (Dev.f_setF_off _ _ (Nat.le_of_ble_eq_true rfl) (Nat.le_of_ble_eq_true rfl) ?_)) <;>
      simp only [Reg.MORD_K_META_WORD, Reg.MORD_K_META_at, Reg.SLC_STATE_KEY_SIG, Reg.SLC_STATE_KEY_LDG, Reg.SLC_STATE_at] <;> omega
  refine ⟨?_, (Dev.f_setF_same _ _ _).trans (Nat.mod_eq_of_lt hs), (hmeta kl hl).trans hkl, (hmeta ks hs).trans hks⟩
  refine (Dev.f_setF_off _ _ (Nat.le_of_ble_eq_true rfl) (Nat.le_of_ble_eq_true rfl) ?_).trans
    ((Dev.f_setF_same _ _ _).trans (Nat.mod_eq_of_lt hl))
  simp only [Reg.SLC_STATE_KEY_SIG, Reg.SLC_STATE_KEY_LDG]
  omega

theorem Dev.makeKeys_some {d : Dev} {i kl ks : Nat} {rest : List Nat} (hok : d.bit Reg.MORD_STAT_DRBG_OK = true) (hkeys : d.devKeys = true)
    (h : d.emptyKeys = kl :: ks :: rest) : d.makeKeys i = some ((d.keysGiven i kl ks).formCert i (d.keysGiven i kl ks).now) := by
  unfold Dev.makeKeys
  rw [hok, hkeys, h]
  rfl

theorem createComplete_completes {s : State} {i : Fin 64} {t0 kl ks : Nat} {rest : List Nat} (hl : Live s)
    (h : s.dev.sliceCmd = some (1, i.1, t0)) (hok : s.dev.bit Reg.MORD_STAT_DRBG_OK = true) (hkeys : s.dev.devKeys = true)
    (he : s.dev.emptyKeys = kl :: ks :: rest) :
    Answers (.createComplete i) s (fun t => t.dev.f Reg.SLICE_CMD_STAT_RESULT = 1 ∧ t.dev.bit Reg.SLICE_CMD_STAT_BUSY = false ∧
      t.dev.f (Reg.SLC_STATE_KEY_LDG i.1) = kl ∧ t.dev.f (Reg.SLC_STATE_KEY_SIG i.1) = ks ∧
      t.dev.slotState kl = 1 ∧ t.dev.slotState ks = 1) := by
  obtain ⟨hkl, hks, hne⟩ := Dev.emptyKeys_two he
  obtain ⟨hldg, hsig, hvl, hvs⟩ := s.dev.keysGiven_keys i hkl hks hne
  have hexec : exec (.createComplete i) s = s.done (((s.dev.keysGiven i.1 kl ks).formCert i.1 (s.dev.keysGiven i.1 kl ks).now).sliceEnd i.1 sOk) := by
    refine congrArg s.done ?_
    unfold Dev.createComplete
    simp only [h, if_true, Dev.makeKeys_some (i := i.1) hok hkeys he]
  generalize s.dev.keysGiven i.1 kl ks = e at hldg hsig hvl hvs hexec
  have hkept : ∀ r : RF, r.lo < 32 → (r.addr = Reg.SLC_STATE_at i.1 ∨ ∃ k < 128, r.addr = Reg.MORD_K_META_at k) →
      ((e.formCert i.1 e.now).sliceEnd i.1 sOk).f r = e.f r := fun r hlo ha => by
    have hapart : r.addr ≠ Reg.SLICE_CMD_STAT_at ∧ (r.addr < 0x20004000 ∨ 0x20004800 ≤ r.addr) ∧ ∀ w < 64, r.addr ≠ Reg.MORD_SCERT_at i.1 w := by
      obtain ha | ⟨k, hk, ha⟩ := ha <;> rw [ha] <;>
        simp only [Reg.SLC_STATE_at, Reg.MORD_K_META_at, Reg.MORD_SCERT_at, Reg.SLICE_CMD_STAT_at] <;> exact ⟨by omega, by omega, fun w hw => by omega⟩
    exact (Dev.f_sliceEnd_off _ _ _ hlo hapart.1 hapart.2.1).trans (Dev.formCert_f _ _ _ hlo (.inr hapart.2.2))
  have hresult := (e.formCert i.1 e.now).sliceEnd_result i.1 sOk
  have hbusy := (e.formCert i.1 e.now).sliceEnd_busy i.1 sOk
  generalize (e.formCert i.1 e.now).sliceEnd i.1 sOk = g at hexec hkept hresult hbusy
  refine .of_done hl hexec ⟨hresult, hbusy, (hkept _ (Nat.le_of_ble_eq_true rfl) (.inl rfl)).trans hldg,
    (hkept _ (Nat.le_of_ble_eq_true rfl) (.inl rfl)).trans hsig, ?_, ?_⟩
  · exact (Dev.slotState_of_f (hkept (Reg.MORD_K_META_WORD kl) (Nat.le_of_ble_eq_true rfl) (.inr ⟨kl, hkl, rfl⟩))).trans hvl
  · exact (Dev.slotState_of_f (hkept (Reg.MORD_K_META_WORD ks) (Nat.le_of_ble_eq_true rfl) (.inr ⟨ks, hks, rfl⟩))).trans hvs

/-! ### DESTROY (R218) -/

/-- A channel that is to stop for a teardown. -/
def Chan.aborted (c : Chan) : Chan := { c with stopReq := c.stopReq ++ [teardownAbort] }

/-- The teardown begun, up to the channels. -/
def Dev.tearBegun (d : Dev) (i : Fin 64) : Dev :=
  (d.setF (Reg.SLC_STATE_STATE i.1) 2).modSlice i (fun e =>
    { e with tearAt := some (d.setF (Reg.SLC_STATE_STATE i.1) 2).now, closingDone := false, deadline := false, migPort := none, heldVec := [] })

/-- A stop put on every channel the slice holds. -/
def Dev.chansAborted (d : Dev) (i : Fin 64) : Dev := d.eachHeld i (fun d v k => d.modChan v k Chan.aborted)

/-- The sweeps of the vats it holds channels of, asked to end. -/
def Dev.sweepsAsked (d : Dev) (i : Fin 64) : Dev :=
  (List.finRange 16).foldl (fun d v => if d.holdMask v.1 i.1 ≠ 0 then d.impAskStop v else d) d

theorem Dev.destroy_eq {d : Dev} {i : Fin 64} (h0 : i ≠ 0) (hst : d.f (Reg.SLC_STATE_STATE i.1) = 1 ∨ d.f (Reg.SLC_STATE_STATE i.1) = 3) :
    d.destroy i = ((((d.tearBegun i).chansAborted i).sweepsAsked i).sliceRuns 2 i.1).review := by
  refine if_neg ?_
  rintro (h | ⟨h1, h3⟩)
  · exact h0 h
  · exact hst.elim h1 h3

theorem Dev.chan_chansAborted (d : Dev) (i : Fin 64) (v k : Fin 16) :
    (d.chansAborted i).chan v k = if (d.chan v k).owner == some i then (d.chan v k).aborted else d.chan v k :=
  Dev.chan_foldScope (F := fun d v k => d.modChan v k Chan.aborted) (fun d v k => d.chan_modChan_same v k _)
    (fun d _ _ _ _ h => d.chan_modChan_ne h _) _ d v k

theorem Dev.chansAborted_keeps (d : Dev) (i : Fin 64) : (d.chansAborted i).regs = d.regs ∧ (d.chansAborted i).slices = d.slices ∧
    (d.chansAborted i).now = d.now :=
  foldScope_keeps (F := fun d v k => d.modChan v k Chan.aborted) (I := fun e : Dev => e.regs = d.regs ∧ e.slices = d.slices ∧ e.now = d.now) (fun _ _ _ h => h) _ ⟨rfl, rfl, rfl⟩

theorem Dev.sweepsAsked_keeps (d : Dev) (i : Fin 64) : (d.sweepsAsked i).regs = d.regs ∧ (d.sweepsAsked i).slices = d.slices ∧
    (d.sweepsAsked i).now = d.now ∧ ∀ v k : Fin 16, (d.sweepsAsked i).chan v k = d.chan v k := by
  refine List.foldlRecOn _ _ (motive := fun e : Dev => e.regs = d.regs ∧ e.slices = d.slices ∧ e.now = d.now ∧ ∀ v k, e.chan v k = d.chan v k)
    ⟨rfl, rfl, rfl, fun _ _ => rfl⟩ fun e he u _ => ?_
  split
  · exact ⟨he.1, he.2.1, he.2.2.1, fun v k => (e.chan_modImp u v k _).trans (he.2.2.2 v k)⟩
  · exact he

theorem Dev.tearBegun_slice (d : Dev) (i : Fin 64) : (d.tearBegun i).f (Reg.SLC_STATE_STATE i.1) = 2 ∧
    ((d.tearBegun i).slices[i]).tearAt = some d.now ∧ (d.tearBegun i).vats = d.vats ∧ (d.tearBegun i).now = d.now := by
  refine ⟨Dev.f_setF_same d (Reg.SLC_STATE_STATE i.1) 2, ?_, rfl, rfl⟩
  unfold Dev.tearBegun
  rw [Dev.slices_modSlice_same]
  rfl

theorem destroy_begins {s : State} {src : Src} {w : Word} {i : Fin 64} (hr : Reaches s src Reg.SLICE_CMD_at)
    (hb : s.dev.bit Reg.SLICE_CMD_STAT_BUSY = false) (hop : bits w.toNat 8 3 = 2) (hi : bits w.toNat 0 6 = i.1) (h0 : i ≠ 0)
    (hst : s.dev.f (Reg.SLC_STATE_STATE i.1) = 1 ∨ s.dev.f (Reg.SLC_STATE_STATE i.1) = 3) :
    Answers (.destroy src w) s (fun t => t.dev.f (Reg.SLC_STATE_STATE i.1) = 2 ∧ t.dev.sliceCmd = some (2, i.1, s.dev.now) ∧
      (t.dev.slices[i]).tearAt = some s.dev.now ∧
      ∀ v k : Fin 16, (s.dev.chan v k).owner = some i → (t.dev.chan v k).stopReq = (s.dev.chan v k).stopReq ++ [teardownAbort]) := by
  have hexec : exec (.destroy src w) s = s.done ((((((s.dev.answer 0).tearBegun i).chansAborted i).sweepsAsked i).sliceRuns 2 i.1).review) :=
    congrArg s.done ((Dev.onWrite_unguarded hr.2 _).trans ((Dev.sliceCmdWrite_destroy (d := s.dev.answer 0) hb hi hop).trans
      (Dev.destroy_eq (d := s.dev.answer 0) h0 hst)))
  obtain ⟨hst2, htear, hvats, hnow⟩ := (s.dev.answer 0).tearBegun_slice i
  have hown : ∀ v k, ((s.dev.answer 0).tearBegun i).chan v k = s.dev.chan v k := fun v k => Dev.chan_of_vats (d := s.dev) hvats v k
  have hnow' : ((s.dev.answer 0).tearBegun i).now = s.dev.now := hnow
  have htear' : (((s.dev.answer 0).tearBegun i).slices[i]).tearAt = some s.dev.now := htear
  generalize (s.dev.answer 0).tearBegun i = d at hexec hst2 htear' hown hnow'
  obtain ⟨hregs, hslices, hnowa⟩ := d.chansAborted_keeps i
  have hchan := d.chan_chansAborted i
  generalize d.chansAborted i = e at hexec hregs hslices hnowa hchan
  obtain ⟨hregs', hslices', hnowb, hchan'⟩ := e.sweepsAsked_keeps i
  generalize e.sweepsAsked i = g at hexec hregs' hslices' hnowb hchan'
  have hst3 : (g.sliceRuns 2 i.1).f (Reg.SLC_STATE_STATE i.1) = 2 :=
    (g.f_sliceRuns_off 2 i.1 (Nat.le_of_ble_eq_true rfl) (by simp only [Reg.SLC_STATE_STATE, Reg.SLC_STATE_at, Reg.SLICE_CMD_STAT_at]; omega)).trans
      ((Dev.f_of_regs (hregs'.trans hregs) _).trans hst2)
  have hcmd : (g.sliceRuns 2 i.1).sliceCmd = some (2, i.1, g.now) := rfl
  have hsl : (g.sliceRuns 2 i.1).slices = g.slices := rfl
  have hvg : (g.sliceRuns 2 i.1).vats = g.vats := rfl
  generalize g.sliceRuns 2 i.1 = q at hexec hst3 hcmd hsl hvg
  have hrep := q.review_reports
  obtain ⟨x, hx⟩ := q.review_keepsSlices i
  have hst4 := (q.review_state i).trans hst3
  generalize q.review = o at hexec hrep hx hst4
  refine .of_done hr.1 hexec ⟨hst4, ?_, ?_, fun v k ho => ?_⟩
  · rw [State.commit_sliceCmd, hrep.sliceCmd, hcmd, hnowb, hnowa, hnow']
  · rw [State.commit_slices, hx, hsl, hslices', hslices]
    exact htear'
  · rw [State.commit_chan, Dev.chan_of_vats (hrep.vats.trans hvg), hchan', hchan, hown, ho, beq_self_eq_true]
    rfl

/-! ### The closing checkpoint and the deadline (R218) -/

theorem closingCheckpoint_forms {s : State} {i : Fin 64} (hl : Live s) (hst : s.dev.f (Reg.SLC_STATE_STATE i.1) = 2)
    (hdone : (s.dev.slices[i]).closingDone = false) (hen : s.dev.bit (Reg.LDG_CFG_EN i.1) = true) (hrest : s.dev.atRest i = true)
    (hbar : s.dev.ckBarred i.1 = false) (hnow : s.dev.now % 640 = 0) :
    Answers (.closingCheckpoint i) s (fun t => (t.dev.slices[i]).closingDone = true ∧
      ∃ c, (t.dev.slices[i]).ckpt = some c ∧ c.closing = true ∧ c.inst = s.dev.now) := by
  obtain ⟨c, hc, hinst, hclosing, -⟩ := s.dev.formCkpt_formed i s.dev.now true
  have hexec : exec (.closingCheckpoint i) s = s.done ((s.dev.formCkpt i.1 s.dev.now true).modSlice i (fun e => { e with closingDone := true })) := by
    refine congrArg s.done ?_
    unfold Dev.closingCkpt
    rw [if_pos ⟨hst, by rw [hdone]; rfl, hen, hrest, hnow⟩, hbar]
    rfl
  generalize s.dev.formCkpt i.1 s.dev.now true = e at hc hexec
  refine .of_done hl hexec ?_
  rw [State.commit_slices, Dev.slices_modSlice_same]
  exact ⟨rfl, c, hc, hclosing, hinst⟩

/-- What a vat buffers of a slice is discarded and counted. -/
def Dev.vatDiscard (d : Dev) (i : Fin 64) (v : Fin 16) : Dev :=
  ((d.bump (Reg.VAT_LDG_DROP_COUNT v.1) (((d.vats[v]).sbuf.filter (fun y => y.slice == i && y.ordinary)).length)).bump (Reg.IMP_DROP_COUNT v.1)
    (((d.vats[v]).imp.buf.filter (fun y => y.slice == i)).length)).modVat v (fun x =>
      { x with sbuf := x.sbuf.filter (fun y => y.slice != i), imp := { x.imp with buf := x.imp.buf.filter (fun y => y.slice != i) } })

/-- What a vat holds for the rings. -/
def Dev.buffers (d : Dev) (v : Fin 16) : List SEntry × List SEntry := ((d.vats[v]).sbuf, (d.vats[v]).imp.buf)

theorem Dev.vatDiscard_same (d : Dev) (i : Fin 64) (v : Fin 16) : (d.vatDiscard i v).buffers v =
    ((d.buffers v).1.filter (fun y => y.slice != i), (d.buffers v).2.filter (fun y => y.slice != i)) := by
  unfold Dev.buffers Dev.vatDiscard
  rw [Dev.vats_modVat_same]
  rfl

theorem Dev.vatDiscard_ne (d : Dev) (i : Fin 64) {u v : Fin 16} (h : u ≠ v) : (d.vatDiscard i v).buffers u = d.buffers u := by
  unfold Dev.buffers Dev.vatDiscard
  rw [Dev.vats_modVat, if_neg (Ne.symm h)]
  rfl

/-- What every vat buffers of a slice is discarded. -/
def Dev.allDiscarded (d : Dev) (i : Fin 64) : Dev := (List.finRange 16).foldl (fun d v => d.vatDiscard i v) d

theorem Dev.allDiscarded_buffers (d : Dev) (i : Fin 64) (v : Fin 16) : (d.allDiscarded i).buffers v =
    ((d.buffers v).1.filter (fun y => y.slice != i), (d.buffers v).2.filter (fun y => y.slice != i)) :=
  (foldl_cell (I := fun _ => True) (F := fun (d : Dev) v => d.vatDiscard i v) (rd := fun (e : Dev) v => e.buffers v)
    (G := fun _ x => (x.1.filter (fun y => y.slice != i), x.2.filter (fun y => y.slice != i))) (fun _ _ _ => trivial)
    (fun e v _ => e.vatDiscard_same i v) (fun e _ _ _ h => e.vatDiscard_ne i h) v _ (List.nodup_finRange 16) d trivial).trans
    (if_pos (List.mem_finRange v))

theorem Dev.releaseKey_vats (d : Dev) (h : Option (Nat × Nat)) : (d.releaseKey h).vats = d.vats := by
  unfold Dev.releaseKey
  split
  · split
    · dsimp only
      split <;> rfl
    · rfl
  · rfl

theorem Dev.dropCkpt_slice (d : Dev) (i : Fin 64) : ((d.dropCkpt i).slices[i]).ckpt = none ∧ (d.dropCkpt i).vats = d.vats ∧
    ∀ r : RF, r.lo < 32 → r.addr < 0x20080000 → (d.dropCkpt i).f r = d.f r := by
  unfold Dev.dropCkpt
  split
  next c _ =>
    obtain ⟨-, hslices, hf⟩ := (d.modSlice i (fun e => { e with ckpt := none })).releaseKey_spares c.hold
    refine ⟨?_, Dev.releaseKey_vats _ _, hf⟩
    rw [hslices, Dev.slices_modSlice_same]
  next h => exact ⟨h, rfl, fun _ _ _ => rfl⟩

theorem Dev.tearDeadline_eq {d : Dev} {i : Fin 64} {t0 : Nat} (hst : d.f (Reg.SLC_STATE_STATE i.1) = 2) (ht : (d.slices[i]).tearAt = some t0)
    (hnow : t0 + 400000000 ≤ d.now) (hd : (d.slices[i]).deadline = false) :
    d.tearDeadline i = ((d.allDiscarded i).dropCkpt i).modSlice i (fun e => { e with cmps := [], deadline := true }) := by
  unfold Dev.tearDeadline
  dsimp only
  rw [ht]
  exact if_pos ⟨hst, hnow, by rw [hd]; rfl⟩

theorem teardownDeadline_discards {s : State} {i : Fin 64} {t0 : Nat} (hl : Live s) (hst : s.dev.f (Reg.SLC_STATE_STATE i.1) = 2)
    (ht : (s.dev.slices[i]).tearAt = some t0) (hnow : t0 + 400000000 ≤ s.dev.now) (hd : (s.dev.slices[i]).deadline = false) :
    Answers (.teardownDeadline i) s (fun t => (t.dev.slices[i]).cmps = [] ∧ (t.dev.slices[i]).ckpt = none ∧ (t.dev.slices[i]).deadline = true ∧
      ∀ v : Fin 16, (∀ e ∈ (t.dev.vats[v]).sbuf, e.slice ≠ i) ∧ ∀ e ∈ (t.dev.vats[v]).imp.buf, e.slice ≠ i) := by
  have hexec : exec (.teardownDeadline i) s = s.done (((s.dev.allDiscarded i).dropCkpt i).modSlice i (fun e => { e with cmps := [], deadline := true })) :=
    congrArg s.done (Dev.tearDeadline_eq hst ht hnow hd)
  have hbuf := s.dev.allDiscarded_buffers i
  generalize s.dev.allDiscarded i = e at hexec hbuf
  obtain ⟨hck, hvats, -⟩ := e.dropCkpt_slice i
  generalize e.dropCkpt i = g at hexec hck hvats
  have hgone : ∀ l : List SEntry, ∀ y ∈ l.filter (fun y => y.slice != i), y.slice ≠ i := fun l y hy => bne_iff_ne.mp (List.mem_filter.mp hy).2
  refine .of_done hl hexec ?_
  rw [State.commit_slices, State.commit_vats, Dev.slices_modSlice_same]
  refine ⟨rfl, hck, rfl, fun v => ⟨fun y hy => ?_, fun y hy => ?_⟩⟩
  · have hs : (g.vats[v]).sbuf = ((s.dev.buffers v).1.filter (fun y => y.slice != i)) := by
      rw [hvats]
      exact congrArg Prod.fst (hbuf v)
    exact hgone _ y (hs ▸ hy)
  · have hs : (g.vats[v]).imp.buf = ((s.dev.buffers v).2.filter (fun y => y.slice != i)) := by
      rw [hvats]
      exact congrArg Prod.snd (hbuf v)
    exact hgone _ y (hs ▸ hy)

/-! ### The slice is free again (R218) -/

theorem Dev.setMeta_slotState (d : Dev) (k n : Nat) : (d.setMeta k 15 1 0).slotState n = d.slotState n := by
  by_cases hk : n = k
  · subst hk
    unfold Dev.slotState Dev.meta Dev.setMeta
    rw [Dev.f_setF_same, show (Reg.MORD_K_META_WORD n).w = 32 from rfl]
    unfold putBits bits
    omega
  · exact d.slotState_setMeta_ne hk 15 1 0

theorem Dev.releaseKey_slotState (d : Dev) (h : Option (Nat × Nat)) (n : Nat) : (d.releaseKey h).slotState n = d.slotState n := by
  unfold Dev.releaseKey
  split
  next k gen =>
    split
    · dsimp only
      split <;> exact d.setMeta_slotState k n
    · rfl
  next => rfl

theorem Dev.dropCkpt_slotState (d : Dev) (i : Fin 64) (n : Nat) : (d.dropCkpt i).slotState n = d.slotState n := by
  unfold Dev.dropCkpt
  split
  · exact Dev.releaseKey_slotState _ _ n
  · rfl

/-- The slice's share of the pools is given back. -/
def Dev.poolsReturned (d : Dev) (i : Fin 64) : Dev := (d.shares i.1 false).setF (Reg.LDG_CFG_EN i.1) 0

theorem Dev.poolsReturned_vats (d : Dev) (i : Fin 64) : (d.poolsReturned i).vats = d.vats := rfl

/-- Its rings disabled, its pools and channels given back. -/
def Dev.sliceReleased (d : Dev) (i : Fin 64) : Dev := ((d.ringsOff i).poolsReturned i).eachHeld i (fun d v k => d.modChan v k Chan.released)

/-- It is shown FREE. -/
def Dev.shownFree (d : Dev) (i : Fin 64) : Dev :=
  ((d.setF (Reg.SLC_STATE_ORPHAN i.1) 0).setF (Reg.SLC_RING_STAT_ORPHAN i.1) 0).setF (Reg.SLC_STATE_STATE i.1) 0

/-- Its certificate and its engine emptied. -/
def Dev.sliceEmptied (d : Dev) (i : Fin 64) : Dev := ((d.dropCkpt i).setCert i.1 []).modSlice i (fun _ => {})

theorem Dev.freeSlice_eq (d : Dev) (i : Fin 64) : d.freeSlice i = (((d.sliceReleased i).shownFree i).sliceEmptied i).review := rfl

theorem Dev.chan_sliceReleased (d : Dev) (i : Fin 64) (v k : Fin 16) :
    (d.sliceReleased i).chan v k = if (d.chan v k).owner == some i then (d.chan v k).released else d.chan v k := by
  have hvats : ((d.ringsOff i).poolsReturned i).vats = d.vats := (Dev.poolsReturned_vats _ i).trans (d.ringsOff_vats i)
  unfold Dev.sliceReleased
  generalize (d.ringsOff i).poolsReturned i = e at hvats ⊢
  rw [← Dev.chan_of_vats hvats v k]
  exact Dev.chan_foldScope (F := fun d v k => d.modChan v k Chan.released) (fun d v k => d.chan_modChan_same v k _)
    (fun d _ _ _ _ h => d.chan_modChan_ne h _) _ e v k

theorem Dev.sliceReleased_slotState (d : Dev) (i : Fin 64) (n : Nat) : (d.sliceReleased i).slotState n = d.slotState n := by
  refine Dev.slotState_of_f ?_
  unfold Dev.sliceReleased
  have hregs : ∀ e : Dev, (e.eachHeld i (fun d v k => d.modChan v k Chan.released)).regs = e.regs := fun e =>
    foldScope_keeps (F := fun d v k => d.modChan v k Chan.released) (I := fun g : Dev => g.regs = e.regs) (fun _ _ _ h => h) _ rfl
  rw [Dev.f_of_regs (hregs _), Dev.poolsReturned, Dev.f_setF_off _ _ (Nat.le_of_ble_eq_true rfl) (Nat.le_of_ble_eq_true rfl)
      (by simp only [Reg.MORD_K_META_WORD, Reg.MORD_K_META_at, Reg.LDG_CFG_EN, Reg.LDG_CFG_at]; omega),
    Dev.f_shares_off _ _ _ (Nat.le_of_ble_eq_true rfl) (by simp only [Reg.MORD_K_META_WORD, Reg.MORD_K_META_at, Reg.SLICE_FREE_VEC_at]; omega)
      (by simp only [Reg.MORD_K_META_WORD, Reg.MORD_K_META_at, Reg.SLICE_FREE_RES_at]; omega),
    Dev.f_ringsOff_off _ _ (Nat.le_of_ble_eq_true rfl) (by simp only [Reg.MORD_K_META_WORD, Reg.MORD_K_META_at]; omega)]

theorem Dev.shownFree_slotState (d : Dev) (i : Fin 64) (n : Nat) : (d.shownFree i).slotState n = d.slotState n := by
  refine Dev.slotState_of_f ?_
  unfold Dev.shownFree
  rw [Dev.f_setF_off _ _ (Nat.le_of_ble_eq_true rfl) (Nat.le_of_ble_eq_true rfl)
      (by simp only [Reg.MORD_K_META_WORD, Reg.MORD_K_META_at, Reg.SLC_STATE_STATE, Reg.SLC_STATE_at]; omega),
    Dev.f_setF_off _ _ (Nat.le_of_ble_eq_true rfl) (Nat.le_of_ble_eq_true rfl)
      (by simp only [Reg.MORD_K_META_WORD, Reg.MORD_K_META_at, Reg.SLC_RING_STAT_ORPHAN, Reg.SLC_RING_STAT_at]; omega),
    Dev.f_setF_off _ _ (Nat.le_of_ble_eq_true rfl) (Nat.le_of_ble_eq_true rfl)
      (by simp only [Reg.MORD_K_META_WORD, Reg.MORD_K_META_at, Reg.SLC_STATE_ORPHAN, Reg.SLC_STATE_at]; omega)]

theorem Dev.sliceEmptied_slotState (d : Dev) (i : Fin 64) {n : Nat} (hn : n < 128) : (d.sliceEmptied i).slotState n = d.slotState n := by
  have hdrop := d.dropCkpt_slotState i n
  unfold Dev.sliceEmptied
  generalize d.dropCkpt i = e at hdrop ⊢
  have hmod : ∀ g : Dev, (g.modSlice i (fun _ => {})).slotState n = g.slotState n := fun _ => rfl
  refine (hmod _).trans (Eq.trans ?_ hdrop)
  exact Dev.slotState_of_f (Dev.setCert_f _ _ _ (Nat.le_of_ble_eq_true rfl) (.inr fun w hw => by
    simp only [Reg.MORD_K_META_WORD, Reg.MORD_K_META_at, Reg.MORD_SCERT_at]
    omega))

theorem Dev.setCert_vats (d : Dev) (s : Nat) (bs : List Byte) : (d.setCert s bs).vats = d.vats :=
  List.foldlRecOn (motive := fun e : Dev => e.vats = d.vats) _ _ rfl fun _ he _ _ => he

theorem Dev.sliceEmptied_keeps (d : Dev) (i : Fin 64) : (d.sliceEmptied i).vats = d.vats ∧
    (d.sliceEmptied i).f (Reg.SLC_STATE_STATE i.1) = d.f (Reg.SLC_STATE_STATE i.1) := by
  obtain ⟨-, hvats, hf⟩ := d.dropCkpt_slice i
  unfold Dev.sliceEmptied
  generalize d.dropCkpt i = e at hvats hf ⊢
  have hmod : ∀ g : Dev, (g.modSlice i (fun _ => {})).vats = g.vats ∧
      (g.modSlice i (fun _ => {})).f (Reg.SLC_STATE_STATE i.1) = g.f (Reg.SLC_STATE_STATE i.1) := fun _ => ⟨rfl, rfl⟩
  refine ⟨(hmod _).1.trans ((Dev.setCert_vats _ _ _).trans hvats), (hmod _).2.trans ((Dev.setCert_f _ _ _ (Nat.le_of_ble_eq_true rfl) (.inr fun w hw => ?_)).trans
    (hf _ (Nat.le_of_ble_eq_true rfl) ?_))⟩ <;>
    simp only [Reg.SLC_STATE_STATE, Reg.SLC_STATE_at, Reg.MORD_SCERT_at] <;> omega

/-- The slice is FREE, holds no channel, and no slot of a key changes. -/
theorem Dev.freeSlice_frees (d : Dev) (i : Fin 64) : (d.freeSlice i).f (Reg.SLC_STATE_STATE i.1) = 0 ∧
    (∀ v k : Fin 16, ((d.freeSlice i).chan v k).owner ≠ some i) ∧ ∀ n < 128, (d.freeSlice i).slotState n = d.slotState n := by
  rw [Dev.freeSlice_eq]
  have hchan := d.chan_sliceReleased i
  have hslot := d.sliceReleased_slotState i
  generalize d.sliceReleased i = e at hchan hslot
  have hst : (e.shownFree i).f (Reg.SLC_STATE_STATE i.1) = 0 :=
    Dev.f_setF_same ((e.setF (Reg.SLC_STATE_ORPHAN i.1) 0).setF (Reg.SLC_RING_STAT_ORPHAN i.1) 0) (Reg.SLC_STATE_STATE i.1) 0
  have hslot' := e.shownFree_slotState i
  have hvats : (e.shownFree i).vats = e.vats := rfl
  generalize e.shownFree i = g at hst hslot' hvats
  obtain ⟨hvats', hst'⟩ := g.sliceEmptied_keeps i
  have hslot'' := fun n hn => g.sliceEmptied_slotState i (n := n) hn
  generalize g.sliceEmptied i = q at hvats' hst' hslot''
  refine ⟨(q.review_state i).trans (hst'.trans hst), fun v k => ?_, fun n hn => ?_⟩
  · rw [Dev.chan_of_vats (q.review_reports.vats.trans (hvats'.trans hvats)), hchan]
    split
    · exact fun hc => nomatch hc
    next h => exact fun hc => h (beq_iff_eq.mpr hc)
  · refine (Dev.slotState_of_f (q.f_review (Nat.le_of_ble_eq_true rfl) ?_ ?_ ?_)).trans ((hslot'' n hn).trans ((hslot' n).trans (hslot n))) <;>
      simp only [Reg.MORD_K_META_WORD, Reg.MORD_K_META_at, Reg.SLICE_STAT_at, Reg.SLICE_EVT_at] <;> omega

/-- A named slot is not VALID after its invalidation. -/
theorem Dev.invalidate_named (d : Dev) {set n : Nat} (hn : n < 128) (h : set.testBit n = true) : (d.invalidate set).slotState n ≠ 1 := by
  rw [Dev.invalidate_slotState d set hn]
  split
  · decide
  next hc => exact fun h1 => hc ⟨testBit_subtree d 128 set h, h1⟩

theorem Dev.tearDone_eq {d : Dev} {i : Fin 64} (hst : d.f (Reg.SLC_STATE_STATE i.1) = 2) (hrest : d.atRest i = true) (hdel : d.delivered i = true)
    (hdone : (d.slices[i]).closingDone = true) : d.tearDone i = (((d.invalidate (2 ^ d.f (Reg.SLC_STATE_KEY_LDG i.1) |||
      2 ^ d.f (Reg.SLC_STATE_KEY_SIG i.1))).freeSlice i).raise Reg.SLICE_EVT_DONE 1 56).sliceEnd i.1 sOk := by
  have hstill : d.stilled i.1 = true := by
    unfold Dev.atRest at hrest
    exact (Bool.and_eq_true_iff.mp hrest).1
  refine if_pos ⟨hst, hdel, ?_⟩
  rw [hstill, hrest, hdone]
  split <;> rfl

theorem teardownDone_frees {s : State} {i : Fin 64} (hl : Live s) (hst : s.dev.f (Reg.SLC_STATE_STATE i.1) = 2) (hrest : s.dev.atRest i = true)
    (hdel : s.dev.delivered i = true) (hdone : (s.dev.slices[i]).closingDone = true) :
    Answers (.teardownDone i) s (fun t => t.dev.f (Reg.SLC_STATE_STATE i.1) = 0 ∧ t.dev.f Reg.SLICE_CMD_STAT_RESULT = 1 ∧
      (∀ v k : Fin 16, (t.dev.chan v k).owner ≠ some i) ∧
      ∀ n < 128, (n = s.dev.f (Reg.SLC_STATE_KEY_LDG i.1) ∨ n = s.dev.f (Reg.SLC_STATE_KEY_SIG i.1)) → t.dev.slotState n ≠ 1) := by
  have hexec := congrArg s.done (Dev.tearDone_eq hst hrest hdel hdone)
  obtain ⟨set, hset⟩ : ∃ set, set = 2 ^ s.dev.f (Reg.SLC_STATE_KEY_LDG i.1) ||| 2 ^ s.dev.f (Reg.SLC_STATE_KEY_SIG i.1) := ⟨_, rfl⟩
  have hkeys : ∀ n < 128, (n = s.dev.f (Reg.SLC_STATE_KEY_LDG i.1) ∨ n = s.dev.f (Reg.SLC_STATE_KEY_SIG i.1)) →
      (s.dev.invalidate set).slotState n ≠ 1 := fun n hn hk => s.dev.invalidate_named hn (by
    rw [hset, Nat.testBit_or]
    obtain rfl | rfl := hk
    · rw [Nat.testBit_two_pow_self, Bool.true_or]
    · rw [Nat.testBit_two_pow_self, Bool.or_true])
  rw [← hset] at hexec
  generalize s.dev.invalidate set = e at hexec hkeys
  obtain ⟨hfree, hown, hslot⟩ := e.freeSlice_frees i
  generalize e.freeSlice i = g at hexec hfree hown hslot
  have hkept : ∀ r : RF, r.lo < 32 → (r.addr = Reg.SLC_STATE_at i.1 ∨ ∃ k, r.addr = Reg.MORD_K_META_at k) →
      ((g.raise Reg.SLICE_EVT_DONE 1 56).sliceEnd i.1 sOk).f r = g.f r := fun r hlo ha => by
    have hapart : r.addr ≠ Reg.SLICE_CMD_STAT_at ∧ (r.addr < 0x20004000 ∨ 0x20004800 ≤ r.addr) ∧ r.addr ≠ Reg.SLICE_EVT_at := by
      obtain ha | ⟨k, ha⟩ := ha <;> rw [ha] <;>
        simp only [Reg.SLC_STATE_at, Reg.MORD_K_META_at, Reg.SLICE_EVT_at, Reg.SLICE_CMD_STAT_at] <;> omega
    exact (Dev.f_sliceEnd_off _ _ _ hlo hapart.1 hapart.2.1).trans
      (Dev.f_raise_off _ 1 (by decide) hlo (by decide) hapart.2.1 fun hc => hapart.2.2 hc.1)
  have hresult := (g.raise Reg.SLICE_EVT_DONE 1 56).sliceEnd_result i.1 sOk
  have hvats := ((g.raise Reg.SLICE_EVT_DONE 1 56).sliceEnd_vats i.1 sOk).trans (Dev.raise_vats _ _ _ _)
  generalize (g.raise Reg.SLICE_EVT_DONE 1 56).sliceEnd i.1 sOk = q at hexec hkept hresult hvats
  refine .of_done hl hexec ⟨(hkept _ (Nat.le_of_ble_eq_true rfl) (.inl rfl)).trans hfree, hresult, fun v k => ?_, fun n hn hk => ?_⟩
  · rw [State.commit_chan, Dev.chan_of_vats hvats]
    exact hown v k
  · have hmeta : q.slotState n = e.slotState n :=
      (Dev.slotState_of_f (hkept (Reg.MORD_K_META_WORD n) (Nat.le_of_ble_eq_true rfl) (.inr ⟨n, rfl⟩))).trans (hslot n hn)
    have hcommit : (s.commit q).dev.slotState n = q.slotState n := Dev.slotState_of_f (State.commit_f s q _)
    rw [hcommit, hmeta]
    exact hkeys n hn hk

/-- Settles O27: CREATE gives what the slice names at one instant and its keys after it, DESTROY takes it all back step by step. -/
theorem slicesComeAndGo : Obligations.SlicesComeAndGo :=
  ⟨fun _ _ _ _ hr hb hop hi h0 => create_answers hr hb hop hi h0, fun _ _ _ _ _ _ hl h hok hkeys he => createComplete_completes hl h hok hkeys he,
    fun _ _ _ _ hr hb hop hi h0 hst => destroy_begins hr hb hop hi h0 hst,
    fun _ _ hl hst hdone hen hrest hbar hnow => closingCheckpoint_forms hl hst hdone hen hrest hbar hnow,
    fun _ _ _ hl hst ht hnow hd => teardownDeadline_discards hl hst ht hnow hd,
    fun _ _ hl hst hrest hdel hdone => teardownDone_frees hl hst hrest hdel hdone⟩

end Sys2Proof.Machine
end

section
/-!
PROOF. What a lane sends downstream (R45–R73): board register requests, configuration traffic, KILL blocks, and what a slot nothing has
claimed carries (O11).
-/

namespace Sys2Proof.Machine
open Sys2Proof

section
variable {v : Fin 16} {d : Dev}

/-! ### A lane and what changes it -/

@[simp] theorem Dev.lane_modLane (d : Dev) (v : Fin 16) (g : Lane → Lane) : (d.modLane v g).lane v = g (d.lane v) := by
  unfold Dev.lane Dev.modLane
  rw [Dev.vats_modVat_same]

theorem State.commit_lane (s : State) (d : Dev) (v : Fin 16) : (s.commit d).dev.lane v = d.lane v := Dev.lane_of_vats (s.commit_vats d) v

/-- A field of the LANE block as the register table lists it, off the event block. -/
theorem laneBlock_off (v : Fin 16) (x : Nat) (h : 0x20020000 ≤ x ∧ x < 0x20030000) : x < 0x20004000 ∨ 0x20004800 ≤ x := by omega

/-! ### Board register requests (R62) -/

theorem Reg.bregCtl_row (v : Fin 16) : (Reg.row (Reg.LANE_BREG_CTL_at v.1)).any (fun row => row.base == 0x20020048 &&
    row.fields.contains ⟨10, 1, .ro, .const 0, true, [], 0⟩) = true := by
  have h : ∀ v : Fin 16, (Reg.row (Reg.LANE_BREG_CTL_at v.1)).any (fun row => row.base == 0x20020048 &&
    row.fields.contains ⟨10, 1, .ro, .const 0, true, [], 0⟩) = true := by decide +kernel
  exact h v

/-- A write of LANE_BREG_CTL leaves BUSY and every other register of the lane. -/
theorem Dev.bregCtl_written (d : Dev) (src : Src) (v : Fin 16) (w : Nat) :
    (d.writeRest src (Reg.LANE_BREG_CTL_at v.1) w []).f (Reg.LANE_BREG_CTL_BUSY v.1) = d.f (Reg.LANE_BREG_CTL_BUSY v.1) ∧
    (d.writeRest src (Reg.LANE_BREG_CTL_at v.1) w []).laneState v = d.laneState v ∧
    (d.writeRest src (Reg.LANE_BREG_CTL_at v.1) w []).f (Reg.LANE_BREG_DATA_DATA v.1) = d.f (Reg.LANE_BREG_DATA_DATA v.1) := by
  have hrow := (Dev.Within.refl (bs := [(Reg.LANE_BREG_CTL_at v.1, Reg.LANE_BREG_CTL_at v.1 + 1)]) (K := True) d).writeRest src w []
    (InBlocks.of_first ⟨Nat.le_refl _, Nat.lt_succ_self _⟩ : InBlocks _ (Reg.LANE_BREG_CTL_at v.1))
  refine ⟨d.f_writeRowWith_listed src w 0x20020048 ⟨10, 1, .ro, .const 0, true, [], 0⟩ (Reg.bregCtl_row v) rfl
    (laneBlock_off v _ (by simp only [Reg.LANE_BREG_CTL_at]; omega)), hrow.f _ ⟨Nat.le_of_ble_eq_true rfl, fun b hb => ?_⟩,
    hrow.f _ ⟨Nat.le_of_ble_eq_true rfl, fun b hb => ?_⟩⟩
  all_goals
    simp only [List.mem_cons, List.mem_nil_iff, or_false] at hb
    simp only [Reg.LANE_STAT_STATE, Reg.LANE_STAT_at, Reg.LANE_BREG_DATA_DATA, Reg.LANE_BREG_DATA_at, Reg.LANE_BREG_CTL_at] at hb ⊢
    rcases hb with rfl | rfl | rfl | rfl <;> omega

/-- What GO asks for (R61, R62). -/
def bregReq (w data : Nat) : CfgReq := { op := if w.testBit 8 then 1 else 2, addr := bits w 0 8, data := data }

/-- A request queued for the board. -/
def Dev.bregQueued (d : Dev) (v : Fin 16) (q : CfgReq) : Dev :=
  (d.setF (Reg.LANE_BREG_CTL_BUSY v.1) 1).modLane v (fun l => { l with cfgQ := l.cfgQ ++ [q] })

theorem Dev.bregGo_eq {src : Src} (hr : (d.guard src (Reg.LANE_BREG_CTL_at v.1) true).isNone = true) (w : Nat)
    (hb : d.bit (Reg.LANE_BREG_CTL_BUSY v.1) = false) (ha : d.laneState v = laneActive) :
    d.bregGo src v w = ((d.answer 0).writeRest src (Reg.LANE_BREG_CTL_at v.1) w []).bregQueued v (bregReq w (d.f (Reg.LANE_BREG_DATA_DATA v.1))) := by
  obtain ⟨hbusy, hst, hdata⟩ := (d.answer 0).bregCtl_written src v w
  unfold Dev.bregGo
  dsimp only
  rw [Dev.onWrite_unguarded hr]
  have hdata' : d.f (Reg.LANE_BREG_DATA_DATA v.1) = ((d.answer 0).writeRest src (Reg.LANE_BREG_CTL_at v.1) w []).f (Reg.LANE_BREG_DATA_DATA v.1) :=
    hdata.symm
  rw [hdata']
  generalize (d.answer 0).writeRest src (Reg.LANE_BREG_CTL_at v.1) w [] = e at hbusy hst ⊢
  rw [if_neg (by rw [Dev.bit_of_f hbusy]; exact ne_true_of_eq_false hb), if_pos (hst.trans ha)]
  rfl

theorem bregGo_queues {s : State} {src : Src} {w : Nat} {i : Instr} (hi : exec i s = s.done (s.dev.bregGo src v w))
    (hr : Reaches s src (Reg.LANE_BREG_CTL_at v.1)) (hb : s.dev.bit (Reg.LANE_BREG_CTL_BUSY v.1) = false) (ha : s.dev.laneState v = laneActive) :
    Answers i s (fun t => t.dev.bit (Reg.LANE_BREG_CTL_BUSY v.1) = true ∧
      (t.dev.lane v).cfgQ = (s.dev.lane v).cfgQ ++ [bregReq w (s.dev.f (Reg.LANE_BREG_DATA_DATA v.1))]) := by
  rw [Dev.bregGo_eq hr.2 w hb ha] at hi
  have hvats : ((s.dev.answer 0).writeRest src (Reg.LANE_BREG_CTL_at v.1) w []).vats = s.dev.vats :=
    (Dev.writeRest_reports _ src _ w []).vats
  generalize (s.dev.answer 0).writeRest src (Reg.LANE_BREG_CTL_at v.1) w [] = e at hvats hi
  refine .of_done hr.1 hi ⟨?_, ?_⟩
  · rw [State.commit_bit]
    exact (congrArg (· == 1) (Dev.f_setF_same e (Reg.LANE_BREG_CTL_BUSY v.1) 1)).trans rfl
  · rw [State.commit_lane]
    unfold Dev.bregQueued
    rw [Dev.lane_modLane]
    exact congrArg (fun l : Lane => l.cfgQ ++ [_]) (Dev.lane_of_vats hvats v)

/-! ### Configuration traffic (R61, R62) -/

/-- The oldest request leaves under the next TAG. -/
def Dev.cfgSent (d : Dev) (v : Fin 16) (q : CfgReq) (rest : List CfgReq) (tag : Nat) : Dev :=
  (d.modLane v (fun l =>
    { l with cfgQ := rest, cfgOut := some { q with tag := tag, sentAt := some d.now }, tag := tag,
             lastCfg := (q.op, tag, q.addr, q.data) })).takeSlot v (ctlPayload 0x55 (cfgContent q.op tag q.addr q.data)) (.cfg v.1 q.op tag q.addr q.data)

@[simp] theorem Dev.lane_takeSlot (d : Dev) (v : Fin 16) (payload : Nat) (o : Output) :
    (d.takeSlot v payload o).lane v = { d.lane v with claim := some payload } :=
  Dev.lane_modLane d v (fun l => { l with claim := some payload })

theorem Dev.lane_cfgSent (d : Dev) (v : Fin 16) (q : CfgReq) (rest : List CfgReq) (tag : Nat) :
    ((d.cfgSent v q rest tag).lane v).cfgQ = rest ∧ ((d.cfgSent v q rest tag).lane v).cfgOut = some { q with tag := tag, sentAt := some d.now } ∧
    (d.cfgSent v q rest tag).out = .cfg v.1 q.op tag q.addr q.data :: d.out := by
  unfold Dev.cfgSent
  rw [Dev.lane_takeSlot, Dev.lane_modLane]
  exact ⟨rfl, rfl, rfl⟩

theorem Dev.cfgSend_eq {n m : Nat} {q : CfgReq} {rest : List CfgReq} (hn : d.slotNow = some (n, m)) (hq : (d.lane v).cfgQ = q :: rest)
    (ha : d.laneState v = laneActive) (hs : cfgSlot n = true) (ho : (d.lane v).cfgOut = none) (hc : (d.lane v).claim = none)
    (hk : d.dueKills v = []) (hr : d.dueRepeat v = none) (hop : q.op ≠ 3) :
    d.cfgSend v = d.cfgSent v q rest (((d.lane v).tag + 1) % 256) := by
  unfold Dev.cfgSend
  simp only [hn, hq]
  have hop' : (q.op == 3) = false := beq_false_of_ne hop
  simp only [hs, ho, hc, hk, hr, hop', ha, decide_true, Option.isNone_none, List.isEmpty_nil, Bool.false_and, Bool.not_false, Bool.and_true,
    if_true, Dev.cfgSent]

theorem cfgSend_sends {s : State} {n m : Nat} {q : CfgReq} {rest : List CfgReq} (hl : Live s) (hn : s.dev.slotNow = some (n, m))
    (hq : (s.dev.lane v).cfgQ = q :: rest) (ha : s.dev.laneState v = laneActive) (hs : cfgSlot n = true) (ho : (s.dev.lane v).cfgOut = none)
    (hc : (s.dev.lane v).claim = none) (hk : s.dev.dueKills v = []) (hr : s.dev.dueRepeat v = none) (hop : q.op ≠ 3) :
    Answers (.cfgSend v) s (fun t => (t.dev.lane v).cfgQ = rest ∧
      (t.dev.lane v).cfgOut = some { q with tag := ((s.dev.lane v).tag + 1) % 256, sentAt := some s.dev.now } ∧
      t.dev.out = .cfg v.1 q.op (((s.dev.lane v).tag + 1) % 256) q.addr q.data :: s.dev.out) := by
  have hexec : exec (.cfgSend v) s = s.done (s.dev.cfgSent v q rest (((s.dev.lane v).tag + 1) % 256)) :=
    congrArg s.done (Dev.cfgSend_eq hn hq ha hs ho hc hk hr hop)
  refine .of_done hl hexec ?_
  rw [State.commit_lane, State.commit_out]
  exact s.dev.lane_cfgSent v q rest _

/-- The outstanding request is given up for now: it goes back to the head of the queue. -/
theorem cfgTimeout_retries {s : State} {q : CfgReq} {t0 : Nat} (hl : Live s) (ho : (s.dev.lane v).cfgOut = some q) (hs : q.sentAt = some t0)
    (ht : t0 + 1600 ≤ s.dev.now) (htry : q.tries < 3) :
    Answers (.cfgTimeout v) s (fun t => (t.dev.lane v).cfgOut = none ∧
      (t.dev.lane v).cfgQ = { q with tries := q.tries + 1, sentAt := none } :: (s.dev.lane v).cfgQ) := by
  have hexec : exec (.cfgTimeout v) s = s.done (s.dev.modLane v (fun l =>
      { l with cfgOut := none, cfgQ := { q with tries := q.tries + 1, sentAt := none } :: l.cfgQ })) := by
    refine congrArg s.done ?_
    unfold Dev.cfgTimeout
    simp only [ho, hs, Option.getD_some]
    rw [if_neg (Nat.not_lt.mpr ht), if_pos htry]
  refine .of_done hl hexec ?_
  rw [State.commit_lane, Dev.lane_modLane]
  exact ⟨rfl, rfl⟩

/-- A board register access ends without an answer (R62). -/
def Dev.cfgEnded (d : Dev) (v : Fin 16) : Dev :=
  ((((d.modLane v (fun l => { l with cfgOut := none })).laneEvt v (Reg.LANE_EVT_CFG_TIMEOUT v.1)).setF (Reg.LANE_BREG_CTL_BUSY v.1) 0).setF
    (Reg.LANE_BREG_CTL_RESULT v.1) 2)

theorem laneEvt_ne_bregCtl (v : Fin 16) {lo lo' : Nat} : ¬(Reg.LANE_EVT_at v.1 = Reg.LANE_BREG_CTL_at v.1 ∧ lo = lo') := by
  simp only [Reg.LANE_EVT_at, Reg.LANE_BREG_CTL_at]
  omega

/-- An event of a lane is set once it is raised. -/
theorem Dev.tb_laneEvt (d : Dev) (v : Fin 16) (r : RF) (ha : r.addr = Reg.LANE_EVT_at v.1) (hl : r.lo < 32) (hw : 0 < r.w) :
    (d.laneEvt v r).tb r 0 = true :=
  Dev.tb_raise d r (by omega) (laneBlock_off v _ (by rw [ha]; simp only [Reg.LANE_EVT_at]; omega)) hl hw rfl

theorem cfgTimeout_ends {s : State} {q : CfgReq} {t0 : Nat} (hl : Live s) (ho : (s.dev.lane v).cfgOut = some q) (hs : q.sentAt = some t0)
    (ht : t0 + 1600 ≤ s.dev.now) (htry : 3 ≤ q.tries) (hop : q.op ≠ 3) :
    Answers (.cfgTimeout v) s (fun t => (t.dev.lane v).cfgOut = none ∧ t.dev.bit (Reg.LANE_BREG_CTL_BUSY v.1) = false ∧
      t.dev.f (Reg.LANE_BREG_CTL_RESULT v.1) = 2 ∧ t.dev.tb (Reg.LANE_EVT_CFG_TIMEOUT v.1) 0 = true) := by
  have hexec : exec (.cfgTimeout v) s = s.done (s.dev.cfgEnded v) := by
    refine congrArg s.done ?_
    unfold Dev.cfgTimeout
    simp only [ho, hs, Option.getD_some]
    rw [if_neg (Nat.not_lt.mpr ht), if_neg (Nat.not_lt.mpr htry), if_neg hop]
    rfl
  refine .of_done hl hexec ⟨?_, ?_, ?_, ?_⟩
  · rw [State.commit_lane]
    unfold Dev.cfgEnded
    have hvats := Dev.raise_vats (s.dev.modLane v (fun l => { l with cfgOut := none })) (Reg.LANE_EVT_CFG_TIMEOUT v.1) 1 (16 + v.1)
    exact congrArg Lane.cfgOut ((Dev.lane_of_vats hvats v).trans (Dev.lane_modLane _ v _))
  · rw [State.commit_bit]
    refine congrArg (· == 1) ((Dev.f_setF_off _ _ ?_ ?_ ?_).trans (Dev.f_setF_same _ _ _))
    · exact Nat.le_of_ble_eq_true rfl
    · exact Nat.le_of_ble_eq_true rfl
    · exact fun h => absurd h.2 (Nat.ne_of_beq_eq_false rfl)
  · rw [State.commit_f]
    exact Dev.f_setF_same _ _ _
  · rw [State.commit_tb]
    refine (Dev.tb_of_f ?_ 0).trans (Dev.tb_laneEvt (s.dev.modLane v (fun l => { l with cfgOut := none })) v (Reg.LANE_EVT_CFG_TIMEOUT v.1) rfl
      (Nat.le_of_ble_eq_true rfl) Nat.one_pos)
    unfold Dev.cfgEnded
    exact (Dev.f_setF_off _ _ (Nat.le_of_ble_eq_true rfl) (Nat.le_of_ble_eq_true rfl) (laneEvt_ne_bregCtl v)).trans
      (Dev.f_setF_off _ _ (Nat.le_of_ble_eq_true rfl) (Nat.le_of_ble_eq_true rfl) (laneEvt_ne_bregCtl v))

/-! ### KILL blocks (R63, R66) -/

/-- The lane once its due KILLs have gone out as one block. -/
def Lane.killsSent (l : Lane) (v : Fin 16) (d : Dev) (qs : List KillReq) (mask cause kseq : Nat) : Lane :=
  { l with kills := l.kills.filter (fun r => !(r.ready + 10 ≤ d.now)), kseq := kseq, lastKill := (mask, cause, kseq),
           reps := if d.laneState v = laneHeld then l.reps else l.reps ++ [⟨mask, cause, kseq, d.groupNow, 2⟩],
           ack := l.ack ++ (List.finRange 16).filterMap (fun k =>
             if k.1 < d.populated v && mask.testBit k.1 && l.ack.all (fun a => a.1 != k.1) then some (k.1, d.now) else none),
           stopGroup := if cause = 3 then some d.groupNow else l.stopGroup,
           stopKseq := if cause = 3 then kseq else l.stopKseq,
           heldKseq := if qs.any (fun r => r.cause == 2) then kseq else l.heldKseq,
           fenceKillAt := if qs.any (fun r => r.cause == 2) && l.fenceKillAt.isNone then some d.now else l.fenceKillAt }

/-- The KILLs of a list leave as one block. -/
def Dev.killsSent (d : Dev) (v : Fin 16) (qs : List KillReq) (mask cause kseq : Nat) : Dev :=
  ((d.modLane v (fun l => l.killsSent v d qs mask cause kseq)).bump (Reg.LANE_KILL_CNT_COUNT v.1)).sendKill v mask cause kseq

/-- The channels a list of KILLs names, and the cause that leads. -/
def killsMask (qs : List KillReq) : Nat := qs.foldl (fun m r => m ||| r.mask) 0
def killsCause (qs : List KillReq) : Nat := qs.foldl (fun c r => if causeRank c < causeRank r.cause then r.cause else c) 0

theorem Dev.killEmit_eq {n m : Nat} (hn : d.slotNow = some (n, m)) (hk : d.dueKills v ≠ []) (hok : d.killable v = true)
    (hc : (d.lane v).claim = none) :
    d.killEmit v = d.killsSent v (d.dueKills v) (killsMask (d.dueKills v)) (killsCause (d.dueKills v)) (((d.lane v).kseq + 1) % 256) := by
  obtain ⟨q, qs, hqs⟩ := List.exists_cons_of_ne_nil hk
  unfold Dev.killEmit
  simp only [hn, hqs, hok, hc, Option.isNone_none, Bool.and_true, if_true]
  rfl

theorem Dev.killEmit_idle (hk : d.dueKills v = []) : d.killEmit v = d := by
  unfold Dev.killEmit
  rw [hk]
  split <;> [contradiction; rfl]

/-- A KILL block takes the slot; of the lane's kills and their number nothing changes by it. -/
theorem Dev.lane_sendKill (d : Dev) (v : Fin 16) (mask cause kseq : Nat) : ((d.sendKill v mask cause kseq).lane v).kills = (d.lane v).kills ∧
    ((d.sendKill v mask cause kseq).lane v).kseq = (d.lane v).kseq ∧
    (d.sendKill v mask cause kseq).out = .kill v.1 mask (0xFFFF - mask % 2 ^ 16) cause kseq :: d.out := by
  unfold Dev.sendKill
  rw [Dev.lane_takeSlot, Dev.lane_modLane]
  exact ⟨rfl, rfl, rfl⟩

theorem Dev.lane_bump (d : Dev) (r : RF) (n : Nat) (v : Fin 16) : (d.bump r n).lane v = d.lane v := rfl

/-- A bit of the KILL counter's growth below its end. -/
theorem Dev.f_killCnt_bump (d : Dev) (h : d.f (Reg.LANE_KILL_CNT_COUNT v.1) < 2 ^ 32 - 1) :
    (d.bump (Reg.LANE_KILL_CNT_COUNT v.1)).f (Reg.LANE_KILL_CNT_COUNT v.1) = d.f (Reg.LANE_KILL_CNT_COUNT v.1) + 1 := by
  have hw : (Reg.LANE_KILL_CNT_COUNT v.1).w = 32 := rfl
  rw [Dev.bump_eq, Dev.f_setF_same, hw]
  omega

theorem Dev.killsSent_spec (d : Dev) (v : Fin 16) (qs : List KillReq) (mask cause kseq : Nat) (h : d.f (Reg.LANE_KILL_CNT_COUNT v.1) < 2 ^ 32 - 1) :
    (d.killsSent v qs mask cause kseq).f (Reg.LANE_KILL_CNT_COUNT v.1) = d.f (Reg.LANE_KILL_CNT_COUNT v.1) + 1 ∧
    ((d.killsSent v qs mask cause kseq).lane v).kseq = kseq ∧ (d.killsSent v qs mask cause kseq).dueKills v = [] ∧
    (d.killsSent v qs mask cause kseq).out = .kill v.1 mask (0xFFFF - mask % 2 ^ 16) cause kseq :: d.out := by
  obtain ⟨hkills, hkseq, hout⟩ := Dev.lane_sendKill ((d.modLane v (fun l => l.killsSent v d qs mask cause kseq)).bump (Reg.LANE_KILL_CNT_COUNT v.1))
    v mask cause kseq
  rw [Dev.lane_bump, Dev.lane_modLane] at hkills hkseq
  refine ⟨Dev.f_killCnt_bump (d.modLane v (fun l => l.killsSent v d qs mask cause kseq)) h, hkseq, ?_, hout⟩
  unfold Dev.dueKills Dev.killsSent
  rw [hkills]
  show ((d.lane v).kills.filter (fun r => !decide (r.ready + 10 ≤ d.now))).filter (fun q => decide (q.ready + 10 ≤ d.now)) = []
  rw [List.filter_filter, List.filter_eq_nil_iff]
  intro q _
  cases decide (q.ready + 10 ≤ d.now) <;> decide

theorem killEmit_sends {s : State} {n m : Nat} (hl : Live s) (hn : s.dev.slotNow = some (n, m)) (hk : s.dev.dueKills v ≠ [])
    (hok : s.dev.killable v = true) (hc : (s.dev.lane v).claim = none) (hcnt : s.dev.f (Reg.LANE_KILL_CNT_COUNT v.1) < 2 ^ 32 - 1) :
    Answers (.killEmit v) s (fun t => t.dev.f (Reg.LANE_KILL_CNT_COUNT v.1) = s.dev.f (Reg.LANE_KILL_CNT_COUNT v.1) + 1 ∧
      (t.dev.lane v).kseq = ((s.dev.lane v).kseq + 1) % 256 ∧ t.dev.dueKills v = [] ∧
      ∃ cause, t.dev.out = .kill v.1 (killsMask (s.dev.dueKills v)) (0xFFFF - killsMask (s.dev.dueKills v) % 2 ^ 16) cause
        (((s.dev.lane v).kseq + 1) % 256) :: s.dev.out) := by
  obtain ⟨hcount, hkseq, hdue, hout⟩ := s.dev.killsSent_spec v (s.dev.dueKills v) (killsMask (s.dev.dueKills v)) (killsCause (s.dev.dueKills v))
    (((s.dev.lane v).kseq + 1) % 256) hcnt
  have hexec : exec (.killEmit v) s = s.done (s.dev.killsSent v (s.dev.dueKills v) (killsMask (s.dev.dueKills v)) (killsCause (s.dev.dueKills v))
      (((s.dev.lane v).kseq + 1) % 256)) := congrArg s.done (Dev.killEmit_eq hn hk hok hc)
  generalize s.dev.killsSent v (s.dev.dueKills v) (killsMask (s.dev.dueKills v)) (killsCause (s.dev.dueKills v)) (((s.dev.lane v).kseq + 1) % 256) = e
    at hcount hkseq hdue hout hexec
  refine .of_done hl hexec ⟨?_, ?_, ?_, killsCause (s.dev.dueKills v), ?_⟩
  · rw [State.commit_f]
    exact hcount
  · rw [State.commit_lane]
    exact hkseq
  · exact hdue
  · rw [State.commit_out]
    exact hout

/-- A repeat KILL that is due takes a CFG/IDLE slot nothing else takes. -/
theorem Dev.out_killRepeat {n m : Nat} (hn : d.slotNow = some (n, m)) (hs : cfgSlot n = true) (hk : d.dueKills v = [])
    (hc : (d.lane v).claim = none) : (d.killRepeat v).out =
      (d.dueRepeat v).elim d.out (fun r => .kill v.1 r.mask (0xFFFF - r.mask % 2 ^ 16) r.cause r.kseq :: d.out) := by
  unfold Dev.killRepeat
  cases hr : d.dueRepeat v with
  | none =>
    simp only [hn]
    rfl
  | some r =>
    simp only [hn, hs, hk, hc, Option.isNone_none, List.isEmpty_nil, Bool.and_true, if_true]
    exact (Dev.lane_sendKill _ v r.mask r.cause r.kseq).2.2

theorem killRepeat_sends {s : State} {n m : Nat} (hl : Live s) (hn : s.dev.slotNow = some (n, m)) (hs : cfgSlot n = true)
    (hk : s.dev.dueKills v = []) (hc : (s.dev.lane v).claim = none) {o : Option KillRep} (ho : s.dev.dueRepeat v = o) :
    Answers (.killRepeat v) s (fun t => t.dev.out =
      o.elim s.dev.out (fun r => .kill v.1 r.mask (0xFFFF - r.mask % 2 ^ 16) r.cause r.kseq :: s.dev.out)) := by
  refine .of_done hl rfl ?_
  rw [State.commit_out, Dev.out_killRepeat hn hs hk hc, ho]

/-- Of a HELD lane the fence KILL is due for repetition, once it has been sent (R66). -/
theorem Dev.dueRepeat_held (h : d.laneState v = laneHeld) : d.dueRepeat v =
    if (d.lane v).fenceKillAt.isSome then some ⟨0xFFFF, 0x02, (d.lane v).heldKseq, 0, 0⟩ else none := if_pos h

theorem killRepeat_held {s : State} {n m : Nat} (hl : Live s) (hn : s.dev.slotNow = some (n, m)) (hs : cfgSlot n = true)
    (hk : s.dev.dueKills v = []) (hc : (s.dev.lane v).claim = none) (hheld : s.dev.laneState v = laneHeld) :
    Answers (.killRepeat v) s (fun t => t.dev.out =
      if (s.dev.lane v).fenceKillAt.isSome then .kill v.1 0xFFFF 0 0x02 (s.dev.lane v).heldKseq :: s.dev.out else s.dev.out) := by
  have hinv : 0xFFFF - 0xFFFF % 2 ^ 16 = 0 := by decide
  refine .of_done hl rfl ?_
  rw [State.commit_out, Dev.out_killRepeat hn hs hk hc, Dev.dueRepeat_held hheld]
  split
  · rw [Option.elim_some, hinv]
  · exact Option.elim_none _ _

/-- Of an ACTIVE lane without a safe stop the oldest repeat is due, once its group has come (R66). -/
theorem Dev.dueRepeat_active {r : KillRep} {rest : List KillRep} (h : d.laneState v = laneActive) (hs : d.safeStop = false)
    (hr : (d.lane v).reps = r :: rest) (hg : r.group + (3 - r.left) ≤ d.groupNow) : d.dueRepeat v = some r := by
  have hstand : d.stopStands = false := by
    unfold Dev.stopStands
    rw [hs]
    rfl
  have hdue : d.stopDue v = false := by
    unfold Dev.stopDue
    dsimp only
    rw [hstand]
    rfl
  unfold Dev.dueRepeat
  dsimp only
  rw [if_neg (by rw [h]; decide), if_neg (not_not.mpr h), hdue, hstand, hr, if_neg Bool.false_ne_true]
  refine List.find?_cons_of_pos ?_
  simp only [hg, decide_true, Bool.false_and, Bool.not_false, Bool.and_self]

/-! ### KILLs from outside a computation (R66, R109, R140) -/

/-- A channel killed at instant t from outside its computations. -/
def Chan.killedNow (c : Chan) (k : Fin 16) (code t : Nat) : Chan :=
  let c' := { c.stopBy k code t with killedSinceArm := true, killEnd := if c.run.isSome then some (c.killCode k code t) else none }
  if c.st = .fenced then c
  else if c.st = .killed then c'
  else { Chan.quiet { c' with st := .killed, stAt := t, was := c'.st } with gang := none }

theorem Chan.killedNow_spec {c : Chan} (h : c.st ≠ .fenced) (k : Fin 16) (code t : Nat) : (c.killedNow k code t).st = .killed ∧
    (c.killedNow k code t).lastStop = c.stopAs k code t := by
  have hstop := c.stopBy_lastStop k code t
  unfold Chan.killedNow
  dsimp only
  rw [if_neg h]
  split
  next hk => exact ⟨(c.stopBy_st k code t).trans hk, hstop⟩
  next => exact ⟨rfl, hstop⟩

theorem Dev.chan_killNow_same (d : Dev) (v k : Fin 16) (code : Nat) : (d.killNow v k code).chan v k = (d.chan v k).killedNow k code d.now := by
  unfold Dev.killNow Chan.killedNow
  dsimp only
  split
  · rfl
  · split
    · exact Dev.chan_modChan_same _ _ _ _
    · rw [Dev.enterQuiet_chan_same, Dev.chan_modChan_same]
      rfl

theorem Dev.chan_killNow_ne (d : Dev) (v k : Fin 16) (code : Nat) {v' k' : Fin 16} (h : (v', k') ≠ (v, k)) :
    (d.killNow v k code).chan v' k' = d.chan v' k' := by
  unfold Dev.killNow
  dsimp only
  split
  · rfl
  · split
    · exact Dev.chan_modChan_ne _ h _
    · rw [Dev.enterQuiet_chan_ne _ _ _ _ _ h, Dev.chan_modChan_ne _ h]

theorem Dev.queueKill_now (d : Dev) (v : Fin 16) (mask cause : Nat) : (d.queueKill v mask cause).now = d.now := (Dev.queueKill_work d v mask cause).now

/-- What every KILL but a safe stop's does to its channels. -/
theorem Dev.killMask_eq (d : Dev) (v : Fin 16) (mask cause : Nat) {code : Nat} (h : code ≠ 14) :
    d.killMask v mask cause code = (maskList mask).foldl (fun x k => x.killNow v k code) ((d.queueKill v mask cause).withdrawKclr v mask) := by
  unfold Dev.killMask
  simp only [h, false_and, if_false]

/-- Each channel of the mask is killed once; the vat's others are as before. -/
theorem Dev.chan_killMask (d : Dev) (v k : Fin 16) (mask cause : Nat) {code : Nat} (h : code ≠ 14) :
    (d.killMask v mask cause code).chan v k = if mask.testBit k.1 = true then (d.chan v k).killedNow k code d.now else d.chan v k := by
  have hcell := foldl_cell (I := fun e : Dev => e.now = d.now) (F := fun x k => x.killNow v k code) (rd := fun e k => e.chan v k)
    (G := fun k c => c.killedNow k code d.now) (fun e k he => (e.killNow_work v k code).now.trans he)
    (fun e k he => by rw [Dev.chan_killNow_same, he]) (fun e k j _ hne => e.chan_killNow_ne v k code fun hc => hne (congrArg Prod.snd hc))
    k (maskList mask) (maskList_nodup mask) ((d.queueKill v mask cause).withdrawKclr v mask)
    (d.queueKill_now v mask cause)
  rw [Dev.killMask_eq d v mask cause h, hcell, Dev.withdrawKclr_chan, Dev.queueKill_chan]
  simp only [mem_maskList]

/-- What is left of a number without the bits of another holds none of them. -/
theorem testBit_sub_and (k : Nat) : ∀ a m : Nat, m.testBit k = true → (a - (a &&& m)).testBit k = false := by
  induction k with
  | zero =>
    intro a m h
    have hand : (a &&& m).testBit 0 = a.testBit 0 := by rw [Nat.testBit_and, h, Bool.and_true]
    simp only [Nat.testBit_zero, decide_eq_decide, decide_eq_false_iff_not] at hand ⊢
    have hle : a &&& m ≤ a := Nat.and_le_left
    omega
  | succ k ih =>
    intro a m h
    have hlow : (a &&& m) % 2 ≤ a % 2 := by
      have hand : (a &&& m).testBit 0 = (a.testBit 0 && m.testBit 0) := Nat.testBit_and ..
      by_cases ha : a % 2 = 1
      · omega
      · have hf : (a &&& m).testBit 0 = false := by rw [hand, Nat.testBit_zero, decide_eq_false ha, Bool.false_and]
        simp only [Nat.testBit_zero, decide_eq_false_iff_not] at hf
        omega
    have hhalf : (a &&& m) / 2 = a / 2 &&& m / 2 := Nat.and_div_two
    have hle : a &&& m ≤ a := Nat.and_le_left
    have hrest : (a - (a &&& m)) / 2 = a / 2 - (a / 2 &&& m / 2) := by omega
    rw [Nat.testBit_succ] at h ⊢
    rw [hrest]
    exact ih _ _ h

/-- A KILL takes the channels it names, and with them their gangs (R140). -/
theorem Dev.chan_killGangs (d : Dev) {v k : Fin 16} {mask : Nat} (cause rest : Nat) {code : Nat} (h : code ≠ 14) (hk : mask.testBit k.1 = true) :
    (d.killGangs v mask cause rest code).chan v k = (d.chan v k).killedNow k code d.now := by
  have hmask : (d.killMask v mask cause code).chan v k = (d.chan v k).killedNow k code d.now := by
    rw [Dev.chan_killMask d v k mask cause h, if_pos hk]
  unfold Dev.killGangs
  dsimp only
  split
  · exact hmask
  · rw [Dev.chan_killMask _ v k _ rest h, if_neg (ne_true_of_eq_false (testBit_sub_and k.1 _ mask hk))]
    exact hmask

theorem firmwareKill_kills {s : State} {src : Src} {k : Fin 16} {w : Word} (hr : Reaches s src (Reg.LANE_KILL_at v.1)) (ha : s.dev.laneState v = laneActive)
    (hw : w.toNat.testBit k.1 = true) (hst : (s.dev.chan v k).st ≠ .fenced) :
    Answers (.firmwareKill src v w) s (fun t => (t.dev.chan v k).st = .killed ∧ (t.dev.chan v k).lastStop = (s.dev.chan v k).stopAs k 16 s.dev.now) := by
  have hbit : (w.toNat % 2 ^ 16).testBit k.1 = true := by rw [Nat.testBit_mod_two_pow, decide_eq_true k.2, hw]; rfl
  have hm : w.toNat % 2 ^ 16 ≠ 0 := fun h0 => by rw [h0, Nat.zero_testBit] at hbit; exact Bool.noConfusion hbit
  have hexec : exec (.firmwareKill src v w) s = s.done ((s.dev.answer 0).killGangs v (w.toNat % 2 ^ 16) 0x05 0x05 16) :=
    (congrArg s.done (Dev.onWrite_unguarded hr.2 _)).trans (congrArg s.done (if_pos ⟨ha, hm⟩))
  have hchan := (s.dev.answer 0).chan_killGangs (v := v) 0x05 0x05 (code := 16) (by decide) hbit
  refine .of_done hr.1 hexec ?_
  rw [State.commit_chan, hchan]
  exact Chan.killedNow_spec hst k 16 s.dev.now

/-! ### A KILL without acknowledgement (R67, R76) -/

theorem laneEvt_ne_of_lo (v : Fin 16) {lo lo' : Nat} (h : lo ≠ lo') : ¬(Reg.LANE_EVT_at v.1 = Reg.LANE_EVT_at v.1 ∧ lo = lo') := fun hc => h hc.2

/-- A lane that goes down is fenced, and the events it has raised stay. -/
theorem Dev.laneDown_spec (d : Dev) (v : Fin 16) {r : RF} (ha : r.addr = Reg.LANE_EVT_at v.1) (hl : r.lo < 32) (hlo : r.lo ≠ 0) :
    (d.laneDown v).fenced v = true ∧ (d.laneDown v).f r = d.f r := by
  have hoff : r.addr < 0x20004000 ∨ 0x20004800 ≤ r.addr := laneBlock_off v _ (by rw [ha]; simp only [Reg.LANE_EVT_at]; omega)
  have hevt : (d.laneEvt v (Reg.LANE_EVT_DOWN v.1)).f r = d.f r :=
    Dev.f_raise_off d 1 (by omega) hl (Nat.le_of_ble_eq_true rfl) hoff fun hc => hlo hc.2
  unfold Dev.laneDown
  generalize d.laneEvt v (Reg.LANE_EVT_DOWN v.1) = e at hevt ⊢
  by_cases hf : e.fenced v = true
  · rw [Dev.fenceNow_of_fenced hf]
    exact ⟨hf, hevt⟩
  · have hf' := Bool.eq_false_iff.mpr hf
    obtain ⟨hfen, -⟩ := Dev.fenceNow_status hf' 1
    obtain ⟨-, -, hkeep⟩ := Dev.fenceNow_fences hf' 1
    refine ⟨hfen, (hkeep r ⟨hl, .inl (.inr (.inl ha))⟩).trans ((Dev.f_setTb_off e _ _ (by decide) hl fun hc => ?_).trans hevt)⟩
    have hs := hc.1
    rw [ha] at hs
    simp only [Reg.SYS_FENCE_VAT, Reg.SYS_FENCE_at, Reg.LANE_EVT_at] at hs
    omega

/-- The missing acknowledgement is reported once. -/
def Dev.noackShown (d : Dev) (v k : Fin 16) : Dev :=
  (d.modLane v (fun l => { l with ack := l.ack.filter (fun a => a.1 != k.1) })).laneEvt v (Reg.LANE_EVT_KILL_NOACK v.1)

theorem Dev.killNoack_eq {k : Fin 16} {a : Nat × Nat} (ha : (d.lane v).ack.find? (fun a => a.1 == k.1) = some a)
    (ht : a.2 + 800 < ((d.vats[v]).guards[k]).repAt) (hk : d.klatch v k = false) :
    d.killNoack v k = if (d.noackShown v k).laneState v = laneActive then (d.noackShown v k).laneDown v else d.noackShown v k := by
  unfold Dev.killNoack
  rw [ha]
  dsimp only
  rw [hk, if_pos ⟨ht, rfl⟩]
  rfl

theorem killNoack_reports {s : State} {k : Fin 16} {a : Nat × Nat} (hl : Live s) (ha : (s.dev.lane v).ack.find? (fun a => a.1 == k.1) = some a)
    (ht : a.2 + 800 < ((s.dev.vats[v]).guards[k]).repAt) (hk : s.dev.klatch v k = false) :
    Answers (.killNoack v k) s (fun t => t.dev.tb (Reg.LANE_EVT_KILL_NOACK v.1) 0 = true ∧
      (s.dev.laneState v = laneActive → t.dev.fenced v = true)) := by
  have hexec : exec (.killNoack v k) s = s.done (if (s.dev.noackShown v k).laneState v = laneActive then (s.dev.noackShown v k).laneDown v
      else s.dev.noackShown v k) := congrArg s.done (Dev.killNoack_eq ha ht hk)
  have hshown : (s.dev.noackShown v k).tb (Reg.LANE_EVT_KILL_NOACK v.1) 0 = true :=
    Dev.tb_laneEvt _ v _ rfl (Nat.le_of_ble_eq_true rfl) Nat.one_pos
  have hstate : (s.dev.noackShown v k).laneState v = s.dev.laneState v :=
    Dev.f_raise_off _ 1 (by omega) (Nat.le_of_ble_eq_true rfl) (Nat.le_of_ble_eq_true rfl)
      (laneBlock_off v _ (by simp only [Reg.LANE_STAT_STATE, Reg.LANE_STAT_at]; omega))
      (by simp only [Reg.LANE_STAT_STATE, Reg.LANE_STAT_at, Reg.LANE_EVT_KILL_NOACK, Reg.LANE_EVT_at]; omega)
  generalize s.dev.noackShown v k = e at hexec hshown hstate
  obtain ⟨hfen, hkeep⟩ := e.laneDown_spec v (r := Reg.LANE_EVT_KILL_NOACK v.1) rfl (Nat.le_of_ble_eq_true rfl) (Nat.ne_of_beq_eq_false rfl)
  rw [hstate] at hexec
  by_cases hact : s.dev.laneState v = laneActive
  · rw [if_pos hact] at hexec
    exact .of_done hl hexec ⟨(Dev.tb_of_f hkeep 0).trans hshown, fun _ => hfen⟩
  · rw [if_neg hact] at hexec
    exact .of_done hl hexec ⟨hshown, fun h => absurd h hact⟩

/-! ### What a slot nothing has claimed carries (R51, R66, R70–R73) -/

theorem Dev.takeSlot_sendsOn (d : Dev) (v : Fin 16) (payload : Nat) (o : Output) : Dev.SendsOn d (d.takeSlot v payload o) :=
  (Dev.emit_sendsOn (d.modLane v (fun l => { l with claim := some payload })) o).after rfl

theorem Dev.sendCmd_sendsOn (d : Dev) (v k : Fin 16) : Dev.SendsOn d (d.sendCmd v k) := (Dev.takeSlot_sendsOn _ v _ _).after rfl

theorem Dev.sendKill_sendsOn (d : Dev) (v : Fin 16) (mask cause kseq : Nat) : Dev.SendsOn d (d.sendKill v mask cause kseq) :=
  (Dev.takeSlot_sendsOn _ v _ _).after rfl

theorem Dev.killEmit_sendsOn (d : Dev) (v : Fin 16) : Dev.SendsOn d (d.killEmit v) := by
  unfold Dev.killEmit
  split
  · exact .ite ((Dev.sendKill_sendsOn _ v _ _ _).after rfl) (.refl d)
  · exact .refl d

theorem Dev.killRepeat_sendsOn (d : Dev) (v : Fin 16) : Dev.SendsOn d (d.killRepeat v) := by
  unfold Dev.killRepeat
  split
  · exact .ite ((Dev.sendKill_sendsOn _ v _ _ _).after rfl) (.refl d)
  · exact .refl d

theorem Dev.cfgSend_sendsOn (d : Dev) (v : Fin 16) : Dev.SendsOn d (d.cfgSend v) := by
  unfold Dev.cfgSend
  split
  · exact .ite ((Dev.takeSlot_sendsOn _ v _ _).after rfl) (.refl d)
  · exact .refl d

theorem Dev.sendSpare_sendsOn (d : Dev) (v : Fin 16) : Dev.SendsOn d (d.sendSpare v) :=
  have spare : Dev.SendsOn d ((d.killRepeat v).cfgSend v) := (d.killRepeat_sendsOn v).trans (Dev.cfgSend_sendsOn _ v)
  .ite spare (spare.trans (Dev.takeSlot_sendsOn _ v _ _))

theorem Dev.sendSlot_sendsOn (d : Dev) (v : Fin 16) (s n : Nat) : Dev.SendsOn d (d.sendSlot v s n) := by
  refine (d.killEmit_sendsOn v).trans ?_
  unfold Dev.sendSlot
  dsimp only
  refine .ite (.refl _) (.ite (Dev.takeSlot_sendsOn _ v _ _) (.ite (Dev.takeSlot_sendsOn _ v _ _) ?_))
  split
  next k _ =>
    refine (Dev.SendsOn.of_out ?_).trans (Dev.sendCmd_sendsOn _ v k)
    split <;> rfl
  next => exact Dev.sendSpare_sendsOn _ v

theorem Dev.txLane_sendsOn (d : Dev) (v : Fin 16) (s n : Nat) : Dev.SendsOn d (d.txLane v s n) :=
  .ite (.refl d) ((d.sendSlot_sendsOn v s n).trans (.of_out rfl))

/-- What a lane sends changes nothing of another vat or its lane. -/
theorem Dev.inVat_txLane (d : Dev) (v : Fin 16) (s n : Nat) : Dev.InVat v d (d.txLane v s n) := by
  have hkill := (Dev.InVat.refl (v := v) d).killEmit
  have hcmd : ∀ {e : Dev} (k : Fin 16), Dev.InVat v d e → Dev.InVat v d (e.sendCmd v k) := fun k h =>
    ((h.modChan k _).modVat _).takeSlot _ _
  have hslot : Dev.InVat v d (d.sendSlot v s n) := by
    unfold Dev.sendSlot Dev.sendChk Dev.sendSpare
    dsimp only
    split
    · exact hkill
    split
    · exact hkill.takeSlot _ _
    split
    · exact hkill.takeSlot _ _
    split
    next k _ =>
      refine hcmd k ?_
      split
      · exact hkill
      · exact hkill.modChan k _
    next =>
      split
      · exact hkill.killRepeat.cfgSend
      · exact hkill.killRepeat.cfgSend.takeSlot _ _
  unfold Dev.txLane
  split
  · exact .refl d
  · exact hslot.modLane _

/-- From `d` to `e` nothing changed that lane v's sending reads, and what `d` has sent, `e` has sent. -/
structure Dev.SendsElse (v : Fin 16) (d e : Dev) : Prop where
  vat : e.vats[v] = d.vats[v]
  state : e.laneState v = d.laneState v
  desc : e.desc v 3 = d.desc v 3
  now : e.now = d.now

theorem Dev.sendsElse_txLane (d : Dev) {u v : Fin 16} (h : v ≠ u) (s n : Nat) : Dev.SendsElse v d (d.txLane u s n) := by
  have hin := d.inVat_txLane u s n
  have hne : v.1 ≠ u.1 := Fin.val_ne_of_ne h
  refine ⟨hin.others v h, hin.f _ ⟨Nat.le_of_ble_eq_true rfl, fun b hb => ?_⟩, hin.f _ ⟨Nat.le_of_ble_eq_true rfl, fun b hb => ?_⟩,
    (d.txLane_sends u s n).work.now⟩
  all_goals
    simp only [vatBlocks, List.mem_append, List.mem_cons, List.mem_nil_iff, or_false] at hb
    simp only [Reg.LANE_STAT_STATE, Reg.LANE_STAT_at, Reg.LANE_DESC_WORD, Reg.LANE_DESC_at, Reg.SYS_CHAN_AVAIL_at] at hb ⊢
    rcases hb with rfl | rfl | rfl | rfl | rfl | rfl <;> omega

/-- Every lane's block is among what a tick sends. -/
theorem Dev.out_transmit {n m : Nat} {o : Output} (hn : d.slotNow = some (n, m))
    (ho : ∀ e : Dev, Dev.SendsElse v d e → o ∈ (e.txLane v n m).out) : o ∈ d.transmit.out := by
  obtain ⟨l, l', hsplit⟩ := List.append_of_mem (List.mem_finRange v)
  have hnd : (l ++ v :: l').Nodup := hsplit ▸ List.nodup_finRange 16
  have hv : ∀ u ∈ l, v ≠ u := fun u hu he => (List.nodup_append.mp hnd).2.2 u hu v List.mem_cons_self he.symm
  have hbefore : Dev.SendsElse v d (l.foldl (fun d u => d.txLane u n m) d) :=
    List.foldlRecOn l _ (motive := Dev.SendsElse v d) ⟨rfl, rfl, rfl, rfl⟩ (fun e he u hu =>
      have hu := e.sendsElse_txLane (hv u hu) n m
      ⟨hu.vat.trans he.vat, hu.state.trans he.state, hu.desc.trans he.desc, hu.now.trans he.now⟩)
  unfold Dev.transmit
  rw [hn]
  dsimp only
  rw [hsplit, List.foldl_append, List.foldl_cons]
  exact (Dev.SendsOn.foldl (fun d u => d.txLane_sendsOn u n m) l' _).mem (ho _ hbefore)

theorem Dev.SendsElse.lane {e : Dev} (h : Dev.SendsElse v d e) : e.lane v = d.lane v := congrArg Vat.lane h.vat

theorem Dev.SendsElse.dueKills {e : Dev} (h : Dev.SendsElse v d e) : e.dueKills v = d.dueKills v := by
  unfold Dev.dueKills
  rw [h.lane, h.now]

/-- What a lane sends in a slot stays sent as its block joins the group. -/
theorem Dev.out_txLane (hs : d.laneState v ≠ laneOff) (n m : Nat) : (d.txLane v n m).out = (d.sendSlot v n m).out := by
  unfold Dev.txLane
  rw [if_neg hs]
  rfl

theorem Dev.sendSlot_chk {n m : Nat} (hk : d.dueKills v = []) (hc : (d.lane v).claim = none) (h7 : n % 8 = 7) : d.sendSlot v n m = d.sendChk v n m := by
  unfold Dev.sendSlot
  rw [Dev.killEmit_idle hk]
  dsimp only
  rw [hc, if_neg (by decide), if_pos h7]

theorem cmdSlot_lt {n : Nat} {k : Fin 16} (h : cmdSlot n = some k) : n % 8 ≠ 7 := by
  unfold cmdSlot at h
  split_ifs at h <;> omega

theorem Dev.sendSlot_cmd {n m : Nat} {k : Fin 16} (hk : d.dueKills v = []) (hc : (d.lane v).claim = none) (ha : d.laneState v = laneActive)
    (hs : cmdSlot n = some k) : d.sendSlot v n m = d.sendCmd v k := by
  unfold Dev.sendSlot
  rw [Dev.killEmit_idle hk]
  dsimp only
  rw [hc, if_neg (by decide), if_neg (cmdSlot_lt hs), if_neg (by rw [ha]; decide), hs]
  dsimp only
  rw [if_pos ha]

theorem Dev.pass_out (h : d.sup.held = false) : d.pass.out = d.transmit.out := by
  obtain ⟨a, x, he | ⟨r, he⟩⟩ := Dev.pass_live h <;> rw [he] <;> rfl

/-- An idle step of the released logic die sends what the lanes' slots carry. -/
theorem step_idle_sends {s : State} {n m : Nat} {o : Output} (hl : Live s) (he : s.pending = []) (hn : s.dev.slotNow = some (n, m))
    (ho : ∀ e : Dev, Dev.SendsElse v s.dev e → o ∈ (e.txLane v n m).out) : ∃ t, step s = .next t ∧ o ∈ t.dev.out := by
  refine ⟨s.idle, ?_, ?_⟩
  · unfold step
    rw [he]
  · show o ∈ s.dev.pass.out
    rw [Dev.pass_out hl]
    exact Dev.out_transmit hn ho

theorem step_sends_chk {s : State} {n m : Nat} (hl : Live s) (he : s.pending = []) (hn : s.dev.slotNow = some (n, m)) (hk : s.dev.dueKills v = [])
    (hc : (s.dev.lane v).claim = none) (hs : s.dev.laneState v ≠ laneOff) (h7 : n % 8 = 7) :
    ∃ t, step s = .next t ∧ Output.chk v.1 (groupCrc (s.dev.lane v).dn) (n / 8) (m % 65536) (pwmRef m (n / 8) (bits (s.dev.desc v 3) 0 16)) ∈ t.dev.out := by
  refine step_idle_sends (v := v) hl he hn fun e h => ?_
  rw [Dev.out_txLane (by rw [h.state]; exact hs), Dev.sendSlot_chk (h.dueKills.trans hk) ((congrArg Lane.claim h.lane).trans hc) h7]
  unfold Dev.sendChk
  rw [h.lane, h.desc]
  exact List.mem_cons_self

theorem step_sends_cmd {s : State} {k : Fin 16} {n m : Nat} (hl : Live s) (he : s.pending = []) (hn : s.dev.slotNow = some (n, m))
    (hk : s.dev.dueKills v = []) (hc : (s.dev.lane v).claim = none) (ha : s.dev.laneState v = laneActive) (hs : cmdSlot n = some k) :
    ∃ t, step s = .next t ∧ Output.cmd v.1 k.1 (s.dev.chan v k).cmd.mode (s.dev.chan v k).cmd.duty (s.dev.chan v k).cmd.phase
      (((s.dev.chan v k).cmd.seq + 1) % 256) ∈ t.dev.out := by
  refine step_idle_sends (v := v) hl he hn fun e h => ?_
  have hchan : e.chan v k = s.dev.chan v k := congrArg (fun x : Vat => x.chans[k]) h.vat
  rw [Dev.out_txLane (by rw [h.state, ha]; decide), Dev.sendSlot_cmd (h.dueKills.trans hk) ((congrArg Lane.claim h.lane).trans hc) (h.state.trans ha) hs,
    ← hchan]
  exact List.mem_cons_self

end

/-! ### The obligation -/

/-- A request with WR = 0 is a READ, with WR = 1 a WRITE (R62). -/
theorem bregReq_read {w : Nat} (h : w.testBit 8 = false) (data : Nat) : bregReq w data = { op := 2, addr := bits w 0 8, data := data } := by
  unfold bregReq
  rw [h]
  rfl

theorem bregReq_write {w : Nat} (h : w.testBit 8 = true) (data : Nat) : bregReq w data = { op := 1, addr := bits w 0 8, data := data } := by
  unfold bregReq
  rw [h]
  rfl

/-- Settles O11: each command as its own equation gives it; an idle step through what the lanes before and after leave of this one. -/
theorem laneDownstreamTraffic : Obligations.LaneDownstreamTraffic := by
  refine ⟨?read, ?write, ?send, ?again, ?ended, ?kill, ?emit, ?held, ?active, ?noack, ?chk, ?cmd⟩
  case read =>
    intro s src v w hr hgo hwr hb ha
    have hexec : exec (.bregRead src v w) s = s.done (s.dev.bregGo src v w.toNat) := congrArg s.done (if_pos (by rw [hgo, hwr]; rfl))
    have h := bregGo_queues hexec hr hb ha
    rwa [bregReq_read hwr] at h
  case write =>
    intro s src v w hr hgo hwr hb ha
    have hexec : exec (.bregWrite src v w) s = s.done (s.dev.bregGo src v w.toNat) := congrArg s.done (if_pos (by rw [hgo, hwr]; rfl))
    have h := bregGo_queues hexec hr hb ha
    rwa [bregReq_write hwr] at h
  case send => exact fun s v n m q rest hl hn hq ha hs ho hc hk hr hop => cfgSend_sends hl hn hq ha hs ho hc hk hr hop
  case again => exact fun s v q t0 hl ho hs ht htry => cfgTimeout_retries hl ho hs ht htry
  case ended => exact fun s v q t0 hl ho hs ht htry hop => cfgTimeout_ends hl ho hs ht htry hop
  case kill => exact fun s src v k w hr ha hw hst => firmwareKill_kills hr ha hw hst
  case emit => exact fun s v n m hl hn hk hok hc hcnt => killEmit_sends hl hn hk hok hc hcnt
  case held => exact fun s v n m hl hn hs hk hc hheld => killRepeat_held hl hn hs hk hc hheld
  case active =>
    exact fun s v n m r rest hl hn hs hc hk ha hstop hr hg => killRepeat_sends hl hn hs hk hc (Dev.dueRepeat_active ha hstop hr hg)
  case noack => exact fun s v k a hl ha ht hk => killNoack_reports hl ha ht hk
  case chk => exact fun s v n m hl he hn hk hc hs h7 => step_sends_chk hl he hn hk hc hs h7
  case cmd => exact fun s v k n m hl he hn hk hc ha hs => step_sends_cmd hl he hn hk hc ha hs

end Sys2Proof.Machine
end

section
/-!
PROOF. Upstream blocks (R46–R56, R75–R79, R91–R93): what taking a word or ending a group leaves of the lane, the loss of block lock, the trip
(O9).
-/

namespace Sys2Proof.Machine
open Sys2Proof

/-! ### The block slots of a lane are filed by upstream blocks alone (R76) -/

/-- From `d` to `e` the block slots filed of lane v are the same. -/
def Dev.KeepsSlots (v : Fin 16) (d e : Dev) : Prop := (e.lane v).slots = (d.lane v).slots

section
variable {v : Fin 16} {d e g : Dev}

theorem Dev.KeepsSlots.refl (d : Dev) : Dev.KeepsSlots v d d := rfl

theorem Dev.KeepsSlots.trans (h : Dev.KeepsSlots v d e) (h' : Dev.KeepsSlots v e g) : Dev.KeepsSlots v d g := Eq.trans h' h

theorem Dev.KeepsSlots.of_vats (h : e.vats = d.vats) : Dev.KeepsSlots v d e := congrArg Lane.slots (Dev.lane_of_vats h v)

theorem Dev.KeepsSlots.ite {c : Prop} [Decidable c] {a b : Dev} (ha : Dev.KeepsSlots v d a) (hb : Dev.KeepsSlots v d b) :
    Dev.KeepsSlots v d (if c then a else b) := by
  split <;> assumption

theorem Dev.KeepsSlots.foldl {α : Type} {f : Dev → α → Dev} (h : ∀ d x, Dev.KeepsSlots v d (f d x)) (l : List α) (d : Dev) :
    Dev.KeepsSlots v d (l.foldl f d) :=
  List.foldlRecOn l f (motive := Dev.KeepsSlots v d) (.refl d) fun e he x _ => he.trans (h e x)

theorem Dev.keepsSlots_modVat (d : Dev) (u : Fin 16) {x : Vat → Vat} (hx : ∀ y, (x y).lane.slots = y.lane.slots) : Dev.KeepsSlots v d (d.modVat u x) := by
  by_cases hu : u = v
  · subst hu
    unfold Dev.KeepsSlots Dev.lane
    rw [Dev.vats_modVat_same]
    exact hx _
  · unfold Dev.KeepsSlots Dev.lane
    rw [Dev.vats_modVat_ne d hu]

theorem Dev.keepsSlots_modLane (d : Dev) (u : Fin 16) {x : Lane → Lane} (hx : ∀ l, (x l).slots = l.slots) : Dev.KeepsSlots v d (d.modLane u x) :=
  d.keepsSlots_modVat u fun y => hx y.lane

theorem Dev.keepsSlots_modChan (d : Dev) (u k : Fin 16) (x : Chan → Chan) : Dev.KeepsSlots v d (d.modChan u k x) := d.keepsSlots_modVat u fun _ => rfl

theorem Dev.keepsSlots_dropEntry (d : Dev) (u k : Fin 16) (q : QEntry) (status info t : Nat) : Dev.KeepsSlots v d (d.dropEntry u k q status info t) :=
  .of_vats (Dev.addCmp_vats _ _ _)

theorem Dev.keepsSlots_dropQueue (d : Dev) (u k : Fin 16) (status t : Nat) : Dev.KeepsSlots v d (d.dropQueue u k status t) :=
  (Dev.KeepsSlots.foldl (fun d q => d.keepsSlots_dropEntry u k q status 0 t) _ d).trans (Dev.keepsSlots_modChan _ u k _)

theorem Dev.keepsSlots_haltIf (d : Dev) (u k : Fin 16) (x : Desc) (status t : Nat) : Dev.KeepsSlots v d (d.haltIf u k x status t) :=
  .ite (((d.keepsSlots_dropQueue u k 0x3A t).trans (Dev.keepsSlots_modChan _ u k _)).trans (.of_vats (Dev.eventAt_vats _ _ _ _ _ _ _))) (.refl d)

theorem Dev.keepsSlots_settle (u k : Fin 16) (t : Nat) : ∀ (n : Nat) (d : Dev), Dev.KeepsSlots v d (d.settle u k t n)
  | 0, d => .refl d
  | n + 1, d => by
    unfold Dev.settle
    dsimp only
    split
    · exact .refl d
    · exact .ite (((d.keepsSlots_modChan u k _).trans (Dev.keepsSlots_dropEntry _ u k _ 0 0 t)).trans (Dev.keepsSlots_settle u k t n _))
        (.ite (d.keepsSlots_modChan u k _) (.refl d))

theorem Dev.keepsSlots_endStepAt (d : Dev) (u k : Fin 16) (status info tEnd tRange : Nat) (viol : Option (Int × Int)) :
    Dev.KeepsSlots v d (d.endStepAt u k status info tEnd tRange viol) := by
  unfold Dev.endStepAt
  dsimp only
  split
  · exact .refl d
  next r _ =>
    have hranges : ∀ e : Dev, Dev.KeepsSlots v e ((r.d.channels k).foldl (fun d m =>
        (d.endRange u m tRange).modChan u m (fun c => { c with gang := if c.st.drives then c.gang else none, progress := false })) e) := by
      refine .foldl (fun e m => ?_) _
      have hrange : Dev.KeepsSlots v e (e.endRange u m tRange) := e.keepsSlots_modVat u fun _ => rfl
      exact hrange.trans (Dev.keepsSlots_modChan _ u m _)
    have hadd : Dev.KeepsSlots v d (d.addCmp (d.chan u k).slice (d.stepCmp u k r status info tEnd viol)) := .of_vats (Dev.addCmp_vats _ _ _)
    refine ((((hadd.trans (hranges _)).trans ?_).trans (Dev.keepsSlots_haltIf _ u k r.d status tEnd)).trans
      (Dev.keepsSlots_settle u k tRange 9 _)).trans (Dev.keepsSlots_modChan _ u k _)
    exact Dev.keepsSlots_modChan _ u k _

theorem Dev.keepsSlots_endKilled (d : Dev) (u k : Fin 16) (t : Nat) : Dev.KeepsSlots v d (d.endKilled u k t) := by
  unfold Dev.endKilled
  split
  · exact (d.keepsSlots_endStepAt u k _ _ _ _ _).trans (Dev.keepsSlots_modChan _ u k _)
  · exact .refl d

theorem Dev.keepsSlots_enter (d : Dev) (u k : Fin 16) (st : ChSt) (t : Nat) : Dev.KeepsSlots v d (d.enter u k st t) := by
  have hst : Dev.KeepsSlots v d (d.modChan u k (fun c => { c with st := st, stAt := t, was := c.st })) := d.keepsSlots_modChan u k _
  unfold Dev.enter
  dsimp only
  split
  · exact .ite (hst.trans (.of_vats (Dev.eventAt_vats _ _ _ _ _ _ _))) hst
  · exact hst

theorem Dev.keepsSlots_enterQuiet (d : Dev) (u k : Fin 16) (st : ChSt) (t : Nat) : Dev.KeepsSlots v d (d.enterQuiet u k st t) :=
  (d.keepsSlots_enter u k st t).trans (Dev.keepsSlots_modChan _ u k _)

theorem Dev.keepsSlots_fenceChan (d : Dev) (u k : Fin 16) : Dev.KeepsSlots v d (d.fenceChan u k) := by
  unfold Dev.fenceChan
  dsimp only
  have hstop : Dev.KeepsSlots v d (d.modChan u k (fun c => c.stopBy k 13 d.now)) := d.keepsSlots_modChan u k _
  generalize d.modChan u k (fun c => c.stopBy k 13 d.now) = a at hstop ⊢
  have henter : Dev.KeepsSlots v d (if (a.chan u k).st = .arm then a else a.enterQuiet u k .fenced a.now) :=
    .ite hstop (hstop.trans (a.keepsSlots_enterQuiet u k _ _))
  generalize (if (a.chan u k).st = .arm then a else a.enterQuiet u k .fenced a.now) = b at henter ⊢
  have hdropped : Dev.KeepsSlots v b (((((b.modChan u k (fun c => { c with queue := [] })).endKilled u k b.now).endStep u k 0x21 0 b.now).modChan u k
      (fun c => { c with queue := (a.chan u k).queue })).dropQueue u k 0x21
      (((b.modChan u k (fun c => { c with queue := [] })).endKilled u k b.now).endStep u k 0x21 0 b.now).now) :=
    ((((b.keepsSlots_modChan u k _).trans (Dev.keepsSlots_endKilled _ u k _)).trans (Dev.keepsSlots_endStepAt _ u k _ _ _ _ _)).trans
      (Dev.keepsSlots_modChan _ u k _)).trans (Dev.keepsSlots_dropQueue _ u k _ _)
  generalize ((((b.modChan u k (fun c => { c with queue := [] })).endKilled u k b.now).endStep u k 0x21 0 b.now).modChan u k
      (fun c => { c with queue := (a.chan u k).queue })).dropQueue u k 0x21
      (((b.modChan u k (fun c => { c with queue := [] })).endKilled u k b.now).endStep u k 0x21 0 b.now).now = c at hdropped ⊢
  have hlogged : Dev.KeepsSlots v c ((c.modChan u k (fun c => { c with power := [] })).logCv u k c.now) :=
    (c.keepsSlots_modChan u k _).trans (Dev.keepsSlots_modChan _ u k _)
  have hbefore := (henter.trans hdropped).trans hlogged
  exact .ite hbefore (hbefore.trans (Dev.keepsSlots_enterQuiet _ u k _ _))

theorem Dev.keepsSlots_fenceReport (d : Dev) (u : Fin 16) (cause : Nat) : Dev.KeepsSlots v d (d.fenceReport u cause) :=
  (Dev.KeepsSlots.foldl (fun e k => e.keepsSlots_fenceChan u k) _ d).trans (.of_vats (Dev.fenceTold_vats _ u cause))

theorem Dev.keepsSlots_dropSweep (d : Dev) (u : Fin 16) : Dev.KeepsSlots v d (d.dropSweep u) := by
  have himp : ∀ (e : Dev) (x : Imp → Imp), Dev.KeepsSlots v e (e.modImp u x) := fun e x => e.keepsSlots_modVat u fun _ => rfl
  have hdone : ∀ e : Dev, Dev.KeepsSlots v e ((e.setF (Reg.IMP_STAT_BUSY u.1) 0).raise (Reg.IMP_EVT_DONE u.1) 1 u.1) := fun e =>
    .of_vats (Dev.raise_vats (e.setF (Reg.IMP_STAT_BUSY u.1) 0) _ 1 _)
  have hclose : Dev.KeepsSlots v d (d.closeEnded u) := by
    unfold Dev.closeEnded Dev.closeWindow
    dsimp only
    split
    · exact .ite (.ite (himp d _) ((himp d _).trans (hdone _))) (.refl d)
    · exact .refl d
  unfold Dev.dropSweep
  generalize d.closeEnded u = e at hclose ⊢
  have hclear : Dev.KeepsSlots v e (e.modImp u (fun i => { i with point := none, startReq := none, stopReq := none })) := himp e _
  exact hclose.trans hclear

theorem Dev.keepsSlots_abandonCfg (d : Dev) (u : Fin 16) : Dev.KeepsSlots v d (d.abandonCfg u) := by
  have hlane : Dev.KeepsSlots v d (d.modLane u (fun l => { l with cfgQ := [], cfgOut := none })) := d.keepsSlots_modLane u fun _ => rfl
  exact .ite hlane hlane

theorem Dev.keepsSlots_fenceLane (d : Dev) (u : Fin 16) : Dev.KeepsSlots v d (d.fenceLane u) := by
  have hcfg : Dev.KeepsSlots v d (((d.setTb Reg.SYS_FENCE_VAT u.1 true).setAvail u 0).abandonCfg u) := Dev.keepsSlots_abandonCfg _ u
  have hlane : Dev.KeepsSlots v d ((((d.setTb Reg.SYS_FENCE_VAT u.1 true).setAvail u 0).abandonCfg u).modLane u (fun l =>
      { l with kills := l.kills ++ [⟨0xFFFF, 0x02, d.now⟩], reps := [], fenceKillAt := none, fenceAck := 0,
               latchAt := if l.lastGood + 40000 ≤ d.now then some d.now else none })) := hcfg.trans (Dev.keepsSlots_modLane _ u fun _ => rfl)
  exact hlane.trans (Dev.keepsSlots_dropSweep _ u)

theorem Dev.keepsSlots_fenceShown (d : Dev) (u : Fin 16) (cause : Nat) : Dev.KeepsSlots v d (d.fenceShown u cause) := by
  have hlane : Dev.KeepsSlots v d (d.fenceLane u) := d.keepsSlots_fenceLane u
  unfold Dev.fenceShown
  generalize d.fenceLane u = e at hlane ⊢
  exact hlane

theorem Dev.keepsSlots_fenceNow (d : Dev) (u : Fin 16) (cause : Nat) : Dev.KeepsSlots v d (d.fenceNow u cause) := by
  have hrec : Dev.KeepsSlots v d (d.fenceRecorded u) := .foldl (fun e k => .ite (e.keepsSlots_modChan u k _) (.refl e)) _ d
  have hshown : Dev.KeepsSlots v d ((d.fenceRecorded u).fenceShown u cause) := hrec.trans (Dev.keepsSlots_fenceShown _ u cause)
  by_cases hf : d.fenced u = true
  · rw [Dev.fenceNow_of_fenced hf]
    exact .refl d
  · have hf' := Bool.eq_false_iff.mpr hf
    rw [Dev.fenceNow_of_unfenced hf', Dev.fenceVat_eq ((d.fenceRecorded_fenced u).trans hf')]
    exact hshown.trans (Dev.keepsSlots_fenceReport _ u cause)

theorem Dev.keepsSlots_laneDown (d : Dev) (u : Fin 16) : Dev.KeepsSlots v d (d.laneDown u) :=
  (Dev.KeepsSlots.of_vats (Dev.raise_vats d _ 1 _)).trans (Dev.keepsSlots_fenceNow _ u 1)

end

/-! ### What taking words leaves (R52, R75, R78) -/

/-- From `d` to `e` neither the block slots filed of lane v nor the status of the vat and its lane change. -/
structure Dev.Hears (v : Fin 16) (d e : Dev) : Prop where
  slots : Dev.KeepsSlots v d e
  f : ∀ r : RF, r.StatusOf v → e.f r = d.f r

section
variable {v k : Fin 16} {d e g : Dev}

theorem Dev.Hears.refl (d : Dev) : Dev.Hears v d d := ⟨.refl d, fun _ _ => rfl⟩

theorem Dev.Hears.trans (h : Dev.Hears v d e) (h' : Dev.Hears v e g) : Dev.Hears v d g :=
  ⟨h.slots.trans h'.slots, fun r hr => (h'.f r hr).trans (h.f r hr)⟩

theorem Dev.Hears.ite {c : Prop} [Decidable c] {a b : Dev} (ha : Dev.Hears v d a) (hb : Dev.Hears v d b) : Dev.Hears v d (if c then a else b) := by
  split <;> assumption

theorem Dev.hears_modVat (d : Dev) {x : Vat → Vat} (hx : ∀ y, (x y).lane.slots = y.lane.slots) : Dev.Hears v d (d.modVat v x) :=
  ⟨d.keepsSlots_modVat v hx, fun _ _ => rfl⟩

theorem Dev.hears_modLane (d : Dev) {x : Lane → Lane} (hx : ∀ l, (x l).slots = l.slots) : Dev.Hears v d (d.modLane v x) :=
  d.hears_modVat fun y => hx y.lane

theorem Dev.hears_modMeas (d : Dev) (k : Fin 16) (x : Meas → Meas) : Dev.Hears v d (d.modMeas v k x) := d.hears_modVat fun _ => rfl

theorem Dev.hears_modGuard (d : Dev) (k : Fin 16) (x : Guard → Guard) : Dev.Hears v d (d.modGuard v k x) := d.hears_modVat fun _ => rfl

theorem RF.StatusOf.off {r : RF} (h : r.StatusOf v) : r.addr < 0x20004000 ∨ 0x20004800 ≤ r.addr := by
  obtain ⟨-, h | h⟩ := h <;> rw [h] <;> simp only [Reg.VAT_STAT_at, Reg.LANE_STAT_at] <;> omega

/-- The registers upstream blocks write: the lane's error counters and events, and the vat's modulator faults and measurement events. -/
def RF.Upstream (v : Fin 16) (r : RF) : Prop :=
  r.lo < 32 ∧ (r.addr = Reg.LANE_ERR_HDR_at v.1 ∨ r.addr = Reg.LANE_ERR_GRP_at v.1 ∨ r.addr = Reg.LANE_EVT_at v.1 ∨ r.addr = Reg.VAT_MODF_at v.1 ∨
    r.addr = Reg.VAT_MEAS_EVT_at v.1)

theorem RF.Upstream.apart {r r' : RF} (h : r.Upstream v) (h' : r'.StatusOf v) : ¬(r'.addr = r.addr ∧ r'.lo = r.lo) := fun hc => by
  have ha := hc.1
  obtain ⟨-, h | h | h | h | h⟩ := h <;> obtain ⟨-, h' | h'⟩ := h' <;> rw [h, h'] at ha <;>
    simp only [Reg.LANE_ERR_HDR_at, Reg.LANE_ERR_GRP_at, Reg.LANE_EVT_at, Reg.VAT_MODF_at, Reg.VAT_MEAS_EVT_at, Reg.VAT_STAT_at, Reg.LANE_STAT_at] at ha <;>
    omega

theorem Dev.hears_setF (d : Dev) {r : RF} (x : Nat) (hr : r.Upstream v) : Dev.Hears v d (d.setF r x) :=
  ⟨.of_vats rfl, fun _ h' => Dev.f_setF_off d x hr.1 h'.1 (hr.apart h')⟩

theorem Dev.hears_raise (d : Dev) {r : RF} (m : Nat) {i : Nat} (hi : i < 4096) (hr : r.Upstream v) : Dev.Hears v d (d.raise r m i) :=
  ⟨.of_vats (Dev.raise_vats _ _ _ _), fun _ h' => Dev.f_raise_off d m hi h'.1 hr.1 h'.off (hr.apart h')⟩

theorem Dev.hears_laneEvt (d : Dev) {r : RF} (hl : r.lo < 32) (ha : r.addr = Reg.LANE_EVT_at v.1) : Dev.Hears v d (d.laneEvt v r) :=
  d.hears_raise 1 (by omega) ⟨hl, .inr (.inr (.inl ha))⟩

theorem Dev.hears_badBlock (d : Dev) (v : Fin 16) : Dev.Hears v d (d.badBlock v) := by
  have hbump : Dev.Hears v d (d.bump (Reg.LANE_ERR_HDR_COUNT v.1)) := d.hears_setF _ ⟨Nat.le_of_ble_eq_true rfl, .inl rfl⟩
  have hbad : Dev.Hears v (d.bump (Reg.LANE_ERR_HDR_COUNT v.1)) ((d.bump (Reg.LANE_ERR_HDR_COUNT v.1)).modLane v (fun l => { l with grpBad := true })) :=
    Dev.hears_modLane _ fun _ => rfl
  exact (hbump.trans hbad).trans (Dev.hears_laneEvt _ (Nat.le_of_ble_eq_true rfl) rfl)

theorem Dev.hears_setModf (d : Dev) (v k : Fin 16) (cur : Bool) : Dev.Hears v d (d.setModf v k cur) := by
  have hset : Dev.Hears v d (d.setTb (if cur then Reg.VAT_MODF_I v.1 else Reg.VAT_MODF_V v.1) k.1 true) := by
    cases cur <;> exact d.hears_setF _ ⟨Nat.le_of_ble_eq_true rfl, .inr (.inr (.inr (.inl rfl)))⟩
  exact (hset.trans (Dev.hears_modGuard _ k _)).trans (Dev.hears_raise _ _ (by omega) ⟨Nat.le_of_ble_eq_true rfl, .inr (.inr (.inr (.inr rfl)))⟩)

/-- The comparator changes the guard of its channel alone. -/
theorem Dev.compare_guard (d : Dev) (v k : Fin 16) (x y : Int) : ∃ z : Guard → Guard, (d.compare v k x y).1 = d.modGuard v k z := by
  unfold Dev.compare
  dsimp only
  split_ifs
  all_goals
    dsimp only
    exact ⟨_, rfl⟩

theorem Dev.hears_compare (d : Dev) (v k : Fin 16) (x y : Int) : Dev.Hears v d (d.compare v k x y).1 := by
  obtain ⟨z, hz⟩ := d.compare_guard v k x y
  rw [hz]
  exact d.hears_modGuard k z

theorem Dev.hears_currentWord (d : Dev) (v k : Fin 16) (t8 : Nat) (x : Int) (replaced : Bool) : Dev.Hears v d (d.currentWord v k t8 x replaced).1 := by
  unfold Dev.currentWord
  dsimp only
  exact ((Dev.Hears.ite (d.hears_setModf v k true) (d.hears_modGuard k _)).trans (Dev.hears_modMeas _ k _)).trans (Dev.hears_compare _ v k _ _)

theorem Dev.hears_voltageWord (d : Dev) (v k : Fin 16) (t8 : Nat) (x : Int) (replaced : Bool) : Dev.Hears v d (d.voltageWord v k t8 x replaced) := by
  unfold Dev.voltageWord
  dsimp only
  exact (Dev.Hears.ite (d.hears_setModf v k false) (d.hears_modGuard k _)).trans (Dev.hears_modMeas _ k _)

theorem Dev.hears_takeVoltage (d : Dev) (v : Fin 16) (valid : Bool) (ws : List Int) : Dev.Hears v d (d.takeVoltage v valid ws) := by
  have hlane : Dev.Hears v d (d.modLane v (fun l => { l with prevV := ws, lastVAt := (d.lane v).lastIAt, words := l.words ++ [((d.lane v).lastIAt, false, ws)] })) :=
    d.hears_modLane fun _ => rfl
  unfold Dev.takeVoltage
  dsimp only
  exact List.foldlRecOn _ _ (motive := Dev.Hears v d) hlane (fun e he k _ => he.trans (e.hears_voltageWord v k _ _ _))

theorem Dev.hears_killNow (d : Dev) (v k : Fin 16) (code : Nat) : Dev.Hears v d (d.killNow v k code) := by
  refine ⟨?_, fun r hr => (d.killNow_work v k code).f r hr.apart⟩
  unfold Dev.killNow
  dsimp only
  exact .ite (.refl d) (.ite (d.keepsSlots_modChan v k _) ((d.keepsSlots_modChan v k _).trans (Dev.keepsSlots_enterQuiet _ v k _ _)))

theorem Dev.hears_killMask (d : Dev) (v : Fin 16) (mask cause : Nat) {code : Nat} (h : code ≠ 14) : Dev.Hears v d (d.killMask v mask cause code) := by
  have hqueue : Dev.Hears v d (d.queueKill v mask cause) := .ite (d.hears_modLane fun _ => rfl) (.refl d)
  have hkclr : ∀ e : Dev, Dev.Hears v e (e.withdrawKclr v mask) := fun e => e.hears_modLane fun _ => rfl
  rw [Dev.killMask_eq d v mask cause h]
  exact List.foldlRecOn _ _ (motive := Dev.Hears v d) (hqueue.trans (hkclr _)) (fun e he k _ => he.trans (e.hears_killNow v k code))

theorem Dev.hears_killGangs (d : Dev) (v : Fin 16) (mask cause rest : Nat) {code : Nat} (h : code ≠ 14) :
    Dev.Hears v d (d.killGangs v mask cause rest code) :=
  .ite (d.hears_killMask v mask cause h) ((d.hears_killMask v mask cause h).trans (Dev.hears_killMask _ v _ rest h))

/-- The words of an I block, channel by channel: the device and the mask of the channels that trip. -/
def Dev.wordsIn (v : Fin 16) (t8 : Nat) (valid : Bool) (ws : List Int) (l : List (Fin 16)) (r : Dev × Nat) : Dev × Nat :=
  l.foldl (fun r k => ((r.1.currentWord v k t8 (ws.getD k.1 0) (!valid)).1,
    if (r.1.currentWord v k t8 (ws.getD k.1 0) (!valid)).2 then r.2 + 2 ^ k.1 else r.2)) r

/-- The lane as it takes the words of an I block. -/
def Dev.currentsTaken (d : Dev) (v : Fin 16) (t8 : Nat) (ws : List Int) : Dev :=
  d.modLane v (fun l => { l with prevI := ws, lastIAt := t8, words := l.words ++ [(t8, true, ws)] })

/-- What follows the words: the channels that trip are killed. -/
def Dev.tripped (v : Fin 16) (r : Dev × Nat) : Dev :=
  if r.2 = 0 then r.1
  else ((r.1.modLane v (fun l => { l with grpKill := true })).killGangs v r.2 0x01 0x04 12).raise (Reg.VAT_MEAS_EVT_TRIP v.1) r.2 v.1

theorem Dev.takeCurrent_eq (d : Dev) (v : Fin 16) (t8 : Nat) (valid : Bool) (ws : List Int) :
    d.takeCurrent v t8 valid ws = Dev.tripped v (Dev.wordsIn v t8 valid ws ((d.currentsTaken v t8 ws).popList v) (d.currentsTaken v t8 ws, 0)) := rfl

theorem Dev.hears_tripped (r : Dev × Nat) : Dev.Hears v r.1 (Dev.tripped v r) := by
  have hmark : Dev.Hears v r.1 (r.1.modLane v (fun l => { l with grpKill := true })) := r.1.hears_modLane fun _ => rfl
  exact .ite (.refl _) ((hmark.trans (Dev.hears_killGangs _ v _ _ _ (by decide))).trans
    (Dev.hears_raise _ _ (by omega) ⟨Nat.le_of_ble_eq_true rfl, .inr (.inr (.inr (.inr rfl)))⟩))

theorem Dev.hears_takeCurrent (d : Dev) (v : Fin 16) (t8 : Nat) (valid : Bool) (ws : List Int) : Dev.Hears v d (d.takeCurrent v t8 valid ws) := by
  have hlane : Dev.Hears v d (d.currentsTaken v t8 ws) := d.hears_modLane fun _ => rfl
  rw [Dev.takeCurrent_eq]
  refine Dev.Hears.trans ?_ (Dev.hears_tripped _)
  exact List.foldlRecOn _ _ (motive := fun r : Dev × Nat => Dev.Hears v d r.1) hlane (fun r hr k _ => hr.trans (r.1.hears_currentWord v k _ _ _))

theorem Dev.hears_handWords (d : Dev) (v : Fin 16) (failed : Bool) : Dev.Hears v d (d.handWords v failed) := by
  unfold Dev.handWords
  dsimp only
  refine .ite ?_ (.refl d)
  exact List.foldlRecOn _ _ (motive := Dev.Hears v d) (.refl d) (fun e he k _ => he.trans (e.hears_modMeas k _))

end

/-! ### The loss of block lock (R76) -/

/-- A lane in service after `n` empty slots: ACTIVE, or HELD and its vat fenced; while it keeps block lock fewer than 16 slots have come,
which head what is filed. -/
structure Dev.Emptied (v : Fin 16) (n : Nat) (d : Dev) : Prop where
  service : d.laneState v = laneActive ∧ d.fenced v = false ∨ d.laneState v = laneHeld ∧ d.fenced v = true
  locked : d.bit (Reg.LANE_STAT_UP_LOCK v.1) = true → n < 16 ∧ ∃ rest, (d.lane v).slots = List.replicate n false ++ rest
  lost : d.bit (Reg.LANE_STAT_UP_LOCK v.1) = false → d.fenced v = true

section
variable {v : Fin 16} {n : Nat} {d e : Dev}

theorem RF.statusOf_state (v : Fin 16) : RF.StatusOf v (Reg.LANE_STAT_STATE v.1) := ⟨Nat.le_of_ble_eq_true rfl, .inr rfl⟩
theorem RF.statusOf_upLock (v : Fin 16) : RF.StatusOf v (Reg.LANE_STAT_UP_LOCK v.1) := ⟨Nat.le_of_ble_eq_true rfl, .inr rfl⟩
theorem RF.statusOf_fenced (v : Fin 16) : RF.StatusOf v (Reg.VAT_STAT_FENCED v.1) := ⟨Nat.le_of_ble_eq_true rfl, .inl rfl⟩

theorem Dev.Hears.laneState (h : Dev.Hears v d e) : e.laneState v = d.laneState v := h.f _ (RF.statusOf_state v)
theorem Dev.Hears.upLock (h : Dev.Hears v d e) : e.bit (Reg.LANE_STAT_UP_LOCK v.1) = d.bit (Reg.LANE_STAT_UP_LOCK v.1) :=
  Dev.bit_of_f (h.f _ (RF.statusOf_upLock v))
theorem Dev.Hears.fenced (h : Dev.Hears v d e) : e.fenced v = d.fenced v := congrArg (· == 1) (h.f _ (RF.statusOf_fenced v))

theorem Dev.Emptied.hears (hd : d.Emptied v n) (h : Dev.Hears v d e) : e.Emptied v n := by
  obtain ⟨hs, hl, hlost⟩ := hd
  refine ⟨?_, fun hb => ?_, fun hb => ?_⟩
  · rw [h.laneState, h.fenced]
    exact hs
  · obtain ⟨hn, rest, hr⟩ := hl (h.upLock.symm.trans hb)
    exact ⟨hn, rest, Eq.trans h.slots hr⟩
  · rw [h.fenced]
    exact hlost (h.upLock.symm.trans hb)

theorem Dev.Emptied.inService (h : d.Emptied v n) : d.laneState v = laneActive ∨ d.laneState v = laneHeld := h.service.imp And.left And.left

/-- A lane that goes down: HELD, its vat fenced, its locks as they were. -/
theorem Dev.laneDown_status (h : d.fenced v = false) : (d.laneDown v).laneState v = laneHeld ∧ (d.laneDown v).fenced v = true ∧
    (d.laneDown v).bit (Reg.LANE_STAT_UP_LOCK v.1) = d.bit (Reg.LANE_STAT_UP_LOCK v.1) := by
  have hevt := d.hears_laneEvt (v := v) (r := Reg.LANE_EVT_DOWN v.1) (Nat.le_of_ble_eq_true rfl) rfl
  unfold Dev.laneDown
  generalize d.laneEvt v (Reg.LANE_EVT_DOWN v.1) = e at hevt ⊢
  have hf : e.fenced v = false := hevt.fenced.trans h
  obtain ⟨hfen, -, -, -, hst⟩ := Dev.fenceNow_status hf 1
  obtain ⟨-, -, hkeep⟩ := Dev.fenceNow_fences hf 1
  have hlock : (e.fenceNow v 1).f (Reg.LANE_STAT_UP_LOCK v.1) = e.f (Reg.LANE_STAT_UP_LOCK v.1) :=
    (hkeep _ ⟨Nat.le_of_ble_eq_true rfl, .inl (.inr (.inr ⟨rfl, Nat.ne_of_beq_eq_false rfl⟩))⟩).trans
      (Dev.f_setTb_off e _ _ (by decide) (Nat.le_of_ble_eq_true rfl) (by
        simp only [Reg.SYS_FENCE_VAT, Reg.SYS_FENCE_at, Reg.LANE_STAT_UP_LOCK, Reg.LANE_STAT_at]
        omega))
  exact ⟨hst, hfen, (Dev.bit_of_f hlock).trans hevt.upLock⟩

theorem Dev.Emptied.laneDown (hd : d.Emptied v n) (h : d.laneState v = laneActive) : (d.laneDown v).Emptied v n := by
  have hf : d.fenced v = false := by
    obtain ⟨-, hf⟩ | ⟨hst, -⟩ := hd.service
    · exact hf
    · exact absurd (h.symm.trans hst) (by decide)
  obtain ⟨hst, hfen, hlock⟩ := Dev.laneDown_status hf
  refine ⟨.inr ⟨hst, hfen⟩, fun hb => ?_, fun _ => hfen⟩
  obtain ⟨hn, rest, hr⟩ := hd.locked (hlock.symm.trans hb)
  exact ⟨hn, rest, Eq.trans (d.keepsSlots_laneDown v) hr⟩

/-- The end of a group that failed keeps a lane in service where it was, or takes it down. -/
theorem Dev.Emptied.endGroup (hd : d.Emptied v n) : (d.endGroup v false).Emptied v n := by
  have hhand := d.hears_handWords v (!false)
  unfold Dev.endGroup
  dsimp only
  generalize d.handWords v (!false) = e at hhand ⊢
  have hcleared : Dev.Hears v d (e.modLane v (fun l => { l with
      latchAt := if e.fenced v = true then e.latchTime v else none, grp := [], grpBad := false, grpKill := false, words := [],
      failRun := if false = true then 0 else l.failRun + 1, chkOk := if false = true then l.chkOk + 1 else 0,
      lastGood := if false = true then e.now else l.lastGood })) := hhand.trans (e.hears_modLane fun _ => rfl)
  generalize e.modLane v (fun l => { l with
      latchAt := if e.fenced v = true then e.latchTime v else none, grp := [], grpBad := false, grpKill := false, words := [],
      failRun := if false = true then 0 else l.failRun + 1, chkOk := if false = true then l.chkOk + 1 else 0,
      lastGood := if false = true then e.now else l.lastGood }) = g at hcleared ⊢
  have hcount : Dev.Hears v g (g.bump (Reg.LANE_ERR_GRP_COUNT v.1)) := g.hears_setF _ ⟨Nat.le_of_ble_eq_true rfl, .inr (.inl rfl)⟩
  have hreported := (hcleared.trans hcount).trans (Dev.hears_laneEvt _ (r := Reg.LANE_EVT_GRP_ERR v.1) (Nat.le_of_ble_eq_true rfl) rfl)
  have hsuspect := hreported.trans (Dev.Hears.ite (c := (d.lane v).grpKill = true)
    (Dev.hears_laneEvt _ (r := Reg.LANE_EVT_KILL_SUSPECT v.1) (Nat.le_of_ble_eq_true rfl) rfl) (.refl _))
  have hnow := hd.hears hsuspect
  rw [if_neg Bool.false_ne_true]
  generalize (if (d.lane v).grpKill = true then ((g.bump (Reg.LANE_ERR_GRP_COUNT v.1)).laneEvt v (Reg.LANE_EVT_GRP_ERR v.1)).laneEvt v
    (Reg.LANE_EVT_KILL_SUSPECT v.1) else (g.bump (Reg.LANE_ERR_GRP_COUNT v.1)).laneEvt v (Reg.LANE_EVT_GRP_ERR v.1)) = x at hnow ⊢
  obtain hst | hst := hnow.inService
  · rw [if_neg (by rw [hst]; decide), if_neg (by rw [hst]; exact fun hc => absurd hc.1 (by decide))]
    split
    · exact hnow.laneDown hst
    · exact hnow
  · rw [if_neg (by rw [hst]; decide), if_neg (by rw [hst]; exact fun hc => absurd hc.1 (by decide)),
      if_neg (by rw [hst]; exact fun hc => absurd hc.1 (by decide))]
    exact hnow

/-- Sixteen empty slots lose block lock. -/
theorem Lane.blockLock_empty {l : Lane} {rest : List Bool} (h : l.slots = List.replicate 16 false ++ rest) : l.blockLock = false := by
  unfold Lane.blockLock
  rw [h, List.filter_append, List.length_append]
  refine decide_eq_false (Nat.not_lt.mpr (Nat.le_trans ?_ (Nat.le_add_right _ _)))
  decide

/-- An empty slot is filed before those of the lane. -/
def Dev.slotFiled (d : Dev) (v : Fin 16) : Dev := d.modLane v (fun l => { l with slots := (false :: l.slots).take 64 })

theorem Dev.slot_empty (d : Dev) (v : Fin 16) : d.slot v false =
    if !((d.slotFiled v).lane v).blockLock && (d.slotFiled v).bit (Reg.LANE_STAT_UP_LOCK v.1) then (d.slotFiled v).lockLost v else d.slotFiled v := rfl

theorem Dev.lockLost_active (h : d.laneState v = laneActive) : d.lockLost v = (d.setF (Reg.LANE_STAT_UP_LOCK v.1) 0).laneDown v := by
  unfold Dev.lockLost
  rw [h]
  rfl

theorem Dev.lockLost_held (h : d.laneState v = laneHeld) : d.lockLost v = d.setF (Reg.LANE_STAT_UP_LOCK v.1) 0 := by
  unfold Dev.lockLost
  rw [h]
  rfl

/-- A lane in service that loses block lock is HELD, its vat fenced. -/
theorem Dev.Emptied.lockLost (hs : d.laneState v = laneActive ∧ d.fenced v = false ∨ d.laneState v = laneHeld ∧ d.fenced v = true) :
    (d.lockLost v).Emptied v n := by
  have hstate : (d.setF (Reg.LANE_STAT_UP_LOCK v.1) 0).laneState v = d.laneState v :=
    Dev.f_setF_off d 0 (Nat.le_of_ble_eq_true rfl) (Nat.le_of_ble_eq_true rfl) fun hc => absurd hc.2 (Nat.ne_of_beq_eq_false rfl)
  have hfenced : (d.setF (Reg.LANE_STAT_UP_LOCK v.1) 0).fenced v = d.fenced v :=
    congrArg (· == 1) (Dev.f_setF_off d 0 (Nat.le_of_ble_eq_true rfl) (Nat.le_of_ble_eq_true rfl) (by
      simp only [Reg.VAT_STAT_FENCED, Reg.VAT_STAT_at, Reg.LANE_STAT_UP_LOCK, Reg.LANE_STAT_at]
      omega))
  have hlock : (d.setF (Reg.LANE_STAT_UP_LOCK v.1) 0).bit (Reg.LANE_STAT_UP_LOCK v.1) = false :=
    (congrArg (· == 1) (Dev.f_setF_same d (Reg.LANE_STAT_UP_LOCK v.1) 0)).trans rfl
  obtain ⟨hst, hf⟩ | ⟨hst, hf⟩ := hs
  · rw [Dev.lockLost_active hst]
    obtain ⟨hheld, hfen, hkept⟩ := Dev.laneDown_status (hfenced.trans hf)
    exact ⟨.inr ⟨hheld, hfen⟩, fun hb => absurd (hb.symm.trans (hkept.trans hlock)) (by decide), fun _ => hfen⟩
  · rw [Dev.lockLost_held hst]
    exact ⟨.inr ⟨hstate.trans hst, hfenced.trans hf⟩, fun hb => absurd (hb.symm.trans hlock) (by decide), fun _ => hfenced.trans hf⟩

theorem Dev.Emptied.slot (hd : d.Emptied v n) : (d.slot v false).Emptied v (n + 1) := by
  obtain ⟨hs, hl, hlost⟩ := hd
  have hslots : ((d.slotFiled v).lane v).slots = (false :: (d.lane v).slots).take 64 := congrArg Lane.slots (Dev.lane_modLane d v _)
  rw [Dev.slot_empty]
  split
  next hc => exact Dev.Emptied.lockLost hs
  next hc =>
    refine ⟨hs, fun hb => ?_, hlost⟩
    obtain ⟨hn, rest, hr⟩ := hl hb
    have hfiled : ((d.slotFiled v).lane v).slots = List.replicate (n + 1) false ++ rest.take (64 - (n + 1)) := by
      rw [hslots, hr, ← List.cons_append, ← List.replicate_succ, List.take_append, List.length_replicate, List.take_of_length_le]
      rw [List.length_replicate]
      omega
    refine ⟨?_, _, hfiled⟩
    by_contra h16
    have hn16 : n + 1 = 16 := by omega
    rw [hn16] at hfiled
    rw [Lane.blockLock_empty hfiled, hb] at hc
    exact hc rfl

end

section
variable {v : Fin 16} {n : Nat} {d e : Dev}

/-- One empty slot more. -/
theorem Dev.Emptied.emptySlot (hd : d.Emptied v n) (ago : Nat) : (d.emptySlot v ago).Emptied v (n + 1) := by
  have hblock : (d.blockIn v 0 false).Emptied v (n + 1) := (hd.hears (d.hears_badBlock v)).slot
  have hdesc : ∀ {x : Dev} {m : Nat}, x.Emptied v m → ¬x.laneState v < laneDesc := fun hx => by
    obtain hst | hst := hx.inService <;> rw [hst] <;> decide
  have hup : ∀ {x : Dev} {m : Nat}, x.Emptied v m → x.framesUp v = true := fun {x} _ hx => by
    unfold Dev.framesUp
    obtain hst | hst := hx.inService <;> rw [hst] <;> rfl
  unfold Dev.emptySlot
  dsimp only
  rw [if_neg (hdesc hd)]
  generalize d.blockIn v 0 false = b at hblock ⊢
  have hadd : Dev.Hears v b (b.addPayload v 0) := b.hears_modLane fun _ => rfl
  rw [if_neg (hdesc hblock), hup (hblock.hears hadd)]
  split
  · exact hblock.endGroup
  · rw [Bool.not_true, if_neg Bool.false_ne_true]
    split
    · exact hblock.hears (hadd.trans (Dev.hears_takeVoltage _ v _ _))
    · split
      · exact hblock.hears (hadd.trans (Dev.hears_takeCurrent _ v _ _ _))
      · exact hblock.hears hadd

theorem Dev.emptied_forEach (ago : Nat → Nat) (hd : d.Emptied v 0) : ∀ n : Nat, (forEach n d (fun d i => d.emptySlot v (ago i))).Emptied v n
  | 0 => hd
  | n + 1 => by
    unfold forEach
    rw [List.range_succ, List.foldl_append]
    exact (Dev.emptied_forEach ago hd n).emptySlot (ago n)

theorem blockLockLoss_fences {s : State} (hl : Live s) (ha : s.dev.laneState v = laneActive) (hlock : s.dev.bit (Reg.LANE_STAT_UP_LOCK v.1) = true)
    (hf : s.dev.fenced v = false) (hn : 16 ≤ n) :
    Answers (.blockLockLoss v n) s (fun t => t.dev.bit (Reg.LANE_STAT_UP_LOCK v.1) = false ∧ t.dev.fenced v = true) := by
  have hbefore : s.dev.Emptied v 0 := ⟨.inl ⟨ha, hf⟩, fun _ => ⟨by decide, _, rfl⟩, fun hb => absurd (hb.symm.trans hlock) (by decide)⟩
  obtain ⟨-, hlocked, hlost⟩ := Dev.emptied_forEach (fun i => 40 * (n - 1 - i)) hbefore n
  have hexec : exec (.blockLockLoss v n) s = s.done (forEach n s.dev (fun d i => d.emptySlot v (40 * (n - 1 - i)))) := rfl
  generalize forEach n s.dev (fun d i => d.emptySlot v (40 * (n - 1 - i))) = e at hlocked hlost hexec
  have hoff : e.bit (Reg.LANE_STAT_UP_LOCK v.1) = false := Bool.eq_false_iff.mpr fun hb => absurd (hlocked hb).1 (Nat.not_lt.mpr hn)
  exact .of_done hl hexec ⟨hoff, hlost hoff⟩

end

/-! ### Words of an I block (R52, R78, R91) -/

/-- From `d` to `e` neither the lane of vat v, nor a channel's loop state, nor the time changes. -/
structure Dev.Heard (v : Fin 16) (d e : Dev) : Prop where
  lane : e.lane v = d.lane v
  chan : ∀ u j : Fin 16, e.chan u j = d.chan u j
  now : e.now = d.now

section
variable {v k j : Fin 16} {d e g : Dev}

theorem Dev.Heard.refl (d : Dev) : Dev.Heard v d d := ⟨rfl, fun _ _ => rfl, rfl⟩

theorem Dev.Heard.trans (h : Dev.Heard v d e) (h' : Dev.Heard v e g) : Dev.Heard v d g :=
  ⟨h'.lane.trans h.lane, fun u j => (h'.chan u j).trans (h.chan u j), h'.now.trans h.now⟩

theorem Dev.heard_modGuard (d : Dev) (k : Fin 16) (z : Guard → Guard) : Dev.Heard v d (d.modGuard v k z) :=
  ⟨d.lane_modVat v v fun _ => rfl, fun u j => d.chan_modGuard v k u j z, rfl⟩

theorem Dev.heard_modMeas (d : Dev) (k : Fin 16) (z : Meas → Meas) : Dev.Heard v d (d.modMeas v k z) :=
  ⟨d.lane_modVat v v fun _ => rfl, fun u j => d.chan_modMeas v k u j z, rfl⟩

theorem Dev.heard_raise (d : Dev) (r : RF) (m i : Nat) : Dev.Heard v d (d.raise r m i) :=
  ⟨Dev.lane_of_vats (Dev.raise_vats d r m i) v, fun u j => Dev.chan_raise d r m i u j, (Dev.raise_reports d r m i).now⟩

theorem Dev.heard_setTb (d : Dev) (r : RF) (i : Nat) (b : Bool) : Dev.Heard v d (d.setTb r i b) := ⟨rfl, fun _ _ => rfl, rfl⟩

theorem Dev.heard_setModf (d : Dev) (v k : Fin 16) (cur : Bool) : Dev.Heard v d (d.setModf v k cur) :=
  ((d.heard_setTb _ _ _).trans (Dev.heard_modGuard _ k _)).trans (Dev.heard_raise _ _ _ _)

/-- The guards of a vat after a change of one. -/
theorem Dev.guard_modGuard (d : Dev) (v k j : Fin 16) (z : Guard → Guard) :
    ((d.modGuard v k z).vats[v]).guards[j] = if k = j then z ((d.vats[v]).guards[k]) else (d.vats[v]).guards[j] := by
  unfold Dev.modGuard
  rw [Dev.vats_modVat_same]
  exact getElem_put _ _ _ _

theorem Dev.tripArmed_modGuard (d : Dev) (v k : Fin 16) {z : Guard → Guard} (h : ∀ g, (z g).force = g.force ∧ (z g).tripped = g.tripped) (j : Fin 16) :
    (d.modGuard v k z).tripArmed v j = d.tripArmed v j := by
  unfold Dev.tripArmed
  rw [Dev.guard_modGuard]
  split
  next hk =>
    subst hk
    dsimp only
    rw [(h _).1, (h _).2]
  next => rfl

theorem Dev.tripArmed_modGuard_ne (d : Dev) (v : Fin 16) (h : k ≠ j) (z : Guard → Guard) : (d.modGuard v k z).tripArmed v j = d.tripArmed v j := by
  unfold Dev.tripArmed
  rw [Dev.guard_modGuard, if_neg h]

theorem Dev.tripArmed_modMeas (d : Dev) (v k : Fin 16) (z : Meas → Meas) (j : Fin 16) : (d.modMeas v k z).tripArmed v j = d.tripArmed v j := by
  unfold Dev.tripArmed Dev.modMeas
  rw [Dev.vats_modVat_same]

theorem Dev.tripArmed_of_vats (h : e.vats = d.vats) (v j : Fin 16) : e.tripArmed v j = d.tripArmed v j := by
  unfold Dev.tripArmed
  rw [h]

theorem Dev.tripArmed_setModf (d : Dev) (v k : Fin 16) (cur : Bool) (j : Fin 16) : (d.setModf v k cur).tripArmed v j = d.tripArmed v j := by
  unfold Dev.setModf
  dsimp only
  rw [Dev.tripArmed_of_vats (Dev.raise_vats _ _ _ _), Dev.tripArmed_modGuard _ v k fun g => by cases cur <;> exact ⟨rfl, rfl⟩]
  rfl

/-- A word as it enters the fast path, before the comparator. -/
def Dev.wordFiled (d : Dev) (v k : Fin 16) (t8 : Nat) (x : Int) (replaced : Bool) : Dev :=
  (if x = -8 then d.setModf v k true else d.modGuard v k (fun g => { g with lastI := x })).modMeas v k (fun m =>
    { m with fi := m.fi.push (25 * k.1) t8 (if x = -8 then ((d.vats[v]).guards[k]).lastI else x),
             fastMarks := m.mark t8 true replaced (x == -8) })

theorem Dev.currentWord_eq (d : Dev) (v k : Fin 16) (t8 : Nat) (x : Int) (replaced : Bool) : d.currentWord v k t8 x replaced =
    (d.wordFiled v k t8 x replaced).compare v k x (if x = -8 then ((d.vats[v]).guards[k]).lastI else x) := rfl

theorem Dev.heard_wordFiled (d : Dev) (v k : Fin 16) (t8 : Nat) (x : Int) (replaced : Bool) : Dev.Heard v d (d.wordFiled v k t8 x replaced) := by
  refine Dev.Heard.trans ?_ (Dev.heard_modMeas _ k _)
  split
  · exact d.heard_setModf v k true
  · exact d.heard_modGuard k _

theorem Dev.tripArmed_wordFiled (d : Dev) (v k : Fin 16) (t8 : Nat) (x : Int) (replaced : Bool) (j : Fin 16) :
    (d.wordFiled v k t8 x replaced).tripArmed v j = d.tripArmed v j := by
  unfold Dev.wordFiled
  rw [Dev.tripArmed_modMeas]
  split
  · exact d.tripArmed_setModf v k true j
  · refine d.tripArmed_modGuard v k ?_ j
    exact fun _ => ⟨rfl, rfl⟩

theorem Dev.heard_currentWord (d : Dev) (v k : Fin 16) (t8 : Nat) (x : Int) (replaced : Bool) : Dev.Heard v d (d.currentWord v k t8 x replaced).1 := by
  rw [Dev.currentWord_eq]
  obtain ⟨z, hz⟩ := (d.wordFiled v k t8 x replaced).compare_guard v k x (if x = -8 then ((d.vats[v]).guards[k]).lastI else x)
  rw [hz]
  exact (d.heard_wordFiled v k t8 x replaced).trans (Dev.heard_modGuard _ k z)

theorem Dev.tripArmed_currentWord_ne (d : Dev) (v : Fin 16) (h : k ≠ j) (t8 : Nat) (x : Int) (replaced : Bool) :
    (d.currentWord v k t8 x replaced).1.tripArmed v j = d.tripArmed v j := by
  rw [Dev.currentWord_eq]
  obtain ⟨z, hz⟩ := (d.wordFiled v k t8 x replaced).compare_guard v k x (if x = -8 then ((d.vats[v]).guards[k]).lastI else x)
  rw [hz, Dev.tripArmed_modGuard_ne _ v h, Dev.tripArmed_wordFiled]

/-- Without an armed comparator no word trips. -/
theorem Dev.currentWord_unarmed (h : d.tripArmed v k = false) (t8 : Nat) (x : Int) (replaced : Bool) :
    (d.currentWord v k t8 x replaced).2 = false := by
  rw [Dev.currentWord_eq]
  unfold Dev.compare
  dsimp only
  rw [Dev.tripArmed_wordFiled, h, if_neg Bool.false_ne_true]

/-- An armed comparator trips on -8 (R91, R92). -/
theorem Dev.currentWord_trips (h : d.tripArmed v k = true) (t8 : Nat) (replaced : Bool) : (d.currentWord v k t8 (-8) replaced).2 = true := by
  rw [Dev.currentWord_eq]
  unfold Dev.compare
  dsimp only
  rw [Dev.tripArmed_wordFiled, h, if_pos rfl, if_pos (.inl rfl)]

end

/-- A modulator fault once shown stays shown as more words come. -/
theorem Dev.modf_currentWord (d : Dev) (v k j : Fin 16) (t8 : Nat) (x : Int) (replaced : Bool) (h : x = -8 ∧ k = j ∨ d.tb (Reg.VAT_MODF_I v.1) j.1 = true) :
    (d.currentWord v k t8 x replaced).1.tb (Reg.VAT_MODF_I v.1) j.1 = true := by
  rw [Dev.currentWord_eq]
  obtain ⟨z, hz⟩ := (d.wordFiled v k t8 x replaced).compare_guard v k x (if x = -8 then ((d.vats[v]).guards[k]).lastI else x)
  rw [hz]
  show (d.wordFiled v k t8 x replaced).tb (Reg.VAT_MODF_I v.1) j.1 = true
  unfold Dev.wordFiled
  show (if x = -8 then d.setModf v k true else _).tb (Reg.VAT_MODF_I v.1) j.1 = true
  split
  next hx =>
    have hraise : ∀ e : Dev, (e.raise (Reg.VAT_MEAS_EVT_MODF v.1) (2 ^ k.1) v.1).f (Reg.VAT_MODF_I v.1) = e.f (Reg.VAT_MODF_I v.1) := fun e => by
      refine Dev.f_raise_off e _ (by omega) (Nat.le_of_ble_eq_true rfl) (Nat.le_of_ble_eq_true rfl) (.inr ?_) ?_ <;>
        simp only [Reg.VAT_MODF_I, Reg.VAT_MODF_at, Reg.VAT_MEAS_EVT_MODF, Reg.VAT_MEAS_EVT_at] <;> omega
    have hset : (d.setTb (Reg.VAT_MODF_I v.1) k.1 true).tb (Reg.VAT_MODF_I v.1) j.1 = true := by
      rw [Dev.tb_setTb d _ _ _ j.2]
      split
      · rfl
      next hj =>
        obtain ⟨-, hk⟩ | hb := h
        · exact absurd (congrArg Fin.val hk.symm) hj
        · exact hb
    exact (Dev.tb_of_f (hraise _) j.1).trans hset
  next hx =>
    obtain ⟨hx', -⟩ | hb := h
    · exact absurd hx' hx
    · exact hb

/-- Adding a power of two that a number lacks sets that bit and no other. -/
theorem testBit_add_two_pow {j : Nat} : ∀ {m : Nat}, m.testBit j = false → ∀ i, (m + 2 ^ j).testBit i = (m.testBit i || decide (i = j)) := by
  induction j with
  | zero =>
    intro m h i
    rw [Nat.testBit_zero, decide_eq_false_iff_not] at h
    cases i with
    | zero =>
      simp only [Nat.testBit_zero, pow_zero, decide_true, Bool.or_true, decide_eq_true_eq]
      omega
    | succ i =>
      have hhalf : (m + 2 ^ 0) / 2 = m / 2 := by omega
      rw [Nat.testBit_succ, Nat.testBit_succ, hhalf, decide_eq_false (Nat.succ_ne_zero i), Bool.or_false]
  | succ j ih =>
    intro m h i
    rw [Nat.testBit_succ] at h
    have hpow : 2 ^ (j + 1) = 2 * 2 ^ j := Nat.pow_succ'
    cases i with
    | zero =>
      have hlow : (m + 2 ^ (j + 1)) % 2 = m % 2 := by omega
      rw [Nat.testBit_zero, Nat.testBit_zero, hlow, decide_eq_false (Nat.succ_ne_zero j).symm, Bool.or_false]
    | succ i =>
      have hhalf : (m + 2 ^ (j + 1)) / 2 = m / 2 + 2 ^ j := by omega
      rw [Nat.testBit_succ, Nat.testBit_succ, hhalf, ih h]
      simp only [Nat.succ_inj]

section
variable {v k : Fin 16} {t8 : Nat} {valid : Bool} {ws : List Int}

theorem Dev.heard_wordsIn (l : List (Fin 16)) (r : Dev × Nat) : Dev.Heard v r.1 (Dev.wordsIn v t8 valid ws l r).1 :=
  List.foldlRecOn l _ (motive := fun x : Dev × Nat => Dev.Heard v r.1 x.1) (.refl _) (fun x hx k _ => hx.trans (x.1.heard_currentWord v k _ _ _))

/-- Where no comparator of the list is armed, no channel trips. -/
theorem Dev.wordsIn_unarmed : ∀ (l : List (Fin 16)), l.Nodup → ∀ r : Dev × Nat, (∀ j ∈ l, r.1.tripArmed v j = false) → (Dev.wordsIn v t8 valid ws l r).2 = r.2
  | [], _, _, _ => rfl
  | k :: l, hn, r, h => by
    obtain ⟨hk, hn⟩ := List.nodup_cons.mp hn
    have hword := Dev.currentWord_unarmed (h k List.mem_cons_self) t8 (ws.getD k.1 0) (!valid)
    unfold Dev.wordsIn
    rw [List.foldl_cons, hword, if_neg Bool.false_ne_true]
    refine Dev.wordsIn_unarmed l hn _ fun j hj => ?_
    have hne : k ≠ j := fun hc => hk (hc ▸ hj)
    exact (Dev.tripArmed_currentWord_ne _ v hne _ _ _).trans (h j (List.mem_cons_of_mem _ hj))

/-- A channel that has tripped stays among those that do, its fault shown. -/
theorem Dev.wordsIn_tripped : ∀ (l : List (Fin 16)), l.Nodup → ∀ r : Dev × Nat, (∀ j ∈ l, r.2.testBit j.1 = false) → r.2.testBit k.1 = true →
    r.1.tb (Reg.VAT_MODF_I v.1) k.1 = true →
    (Dev.wordsIn v t8 valid ws l r).2.testBit k.1 = true ∧ (Dev.wordsIn v t8 valid ws l r).1.tb (Reg.VAT_MODF_I v.1) k.1 = true
  | [], _, _, _, hk, hm => ⟨hk, hm⟩
  | i :: l, hn, r, h, hk, hm => by
    obtain ⟨hi, hn⟩ := List.nodup_cons.mp hn
    have hne : ∀ j ∈ l, ¬j.1 = i.1 := fun j hj hc => by
      rw [Fin.ext hc] at hj
      exact hi hj
    unfold Dev.wordsIn
    rw [List.foldl_cons]
    have hmodf := r.1.modf_currentWord v i k t8 (ws.getD i.1 0) (!valid) (.inr hm)
    have hadd := testBit_add_two_pow (h i List.mem_cons_self)
    refine Dev.wordsIn_tripped l hn _ (fun j hj => ?_) ?_ hmodf
    · split
      · rw [hadd, h j (List.mem_cons_of_mem _ hj), decide_eq_false (hne j hj)]
        rfl
      · exact h j (List.mem_cons_of_mem _ hj)
    · split
      · rw [hadd, hk]
        rfl
      · exact hk

/-- A channel of the list whose armed comparator meets -8 trips, its fault shown. -/
theorem Dev.wordsIn_trips : ∀ (l : List (Fin 16)), l.Nodup → k ∈ l → ∀ r : Dev × Nat, (∀ j ∈ l, r.2.testBit j.1 = false) → r.1.tripArmed v k = true →
    ws.getD k.1 0 = -8 →
    (Dev.wordsIn v t8 valid ws l r).2.testBit k.1 = true ∧ (Dev.wordsIn v t8 valid ws l r).1.tb (Reg.VAT_MODF_I v.1) k.1 = true
  | [], _, hk, _, _, _, _ => absurd hk List.not_mem_nil
  | i :: l, hn, hk, r, h, ha, hw => by
    obtain ⟨hi, hn⟩ := List.nodup_cons.mp hn
    have hne : ∀ j ∈ l, ¬j.1 = i.1 := fun j hj hc => by
      rw [Fin.ext hc] at hj
      exact hi hj
    have hadd := testBit_add_two_pow (h i List.mem_cons_self)
    have hrest : ∀ j ∈ l, (if (r.1.currentWord v i t8 (ws.getD i.1 0) (!valid)).2 = true then r.2 + 2 ^ i.1 else r.2).testBit j.1 = false := fun j hj => by
      split
      · rw [hadd, h j (List.mem_cons_of_mem _ hj), decide_eq_false (hne j hj)]
        rfl
      · exact h j (List.mem_cons_of_mem _ hj)
    unfold Dev.wordsIn
    rw [List.foldl_cons]
    by_cases hik : i = k
    · subst hik
      have htrip := Dev.currentWord_trips ha t8 (!valid)
      have hmodf := r.1.modf_currentWord v i i t8 (-8) (!valid) (.inl ⟨rfl, rfl⟩)
      rw [hw] at hrest ⊢
      refine Dev.wordsIn_tripped l hn _ hrest ?_ hmodf
      dsimp only
      rw [htrip, if_pos rfl, hadd, decide_eq_true rfl, Bool.or_true]
    · refine Dev.wordsIn_trips l hn ((List.mem_cons.mp hk).resolve_left (Ne.symm hik)) _ hrest ?_ hw
      rw [Dev.tripArmed_currentWord_ne _ v hik]
      exact ha

end

/-! ### Blocks of words (R46, R52, R56) -/

section
variable {v k : Fin 16} {d : Dev} {payload : Nat}

/-- A block with a valid header joins the group. -/
def Dev.blockTaken (d : Dev) (v : Fin 16) (payload : Nat) : Dev :=
  (d.modLane v (fun l => { l with slots := (true :: l.slots).take 64 })).addPayload v payload

theorem Dev.blockIn_valid (d : Dev) (v : Fin 16) {hdr : Nat} (h : (hdr == hdrData || hdr == hdrCtl) = true) :
    d.blockIn v hdr true = d.modLane v (fun l => { l with slots := (true :: l.slots).take 64 }) := by
  unfold Dev.blockIn Dev.slot
  dsimp only
  rw [h, if_pos rfl, if_neg (by simp)]

theorem Dev.blockIn_addPayload (d : Dev) (v : Fin 16) (payload : Nat) {hdr : Nat} (h : (hdr == hdrData || hdr == hdrCtl) = true) :
    (d.blockIn v hdr true).addPayload v payload = d.blockTaken v payload := by
  rw [Dev.blockIn_valid d v h]
  rfl

theorem Dev.lane_blockTaken (d : Dev) (v : Fin 16) (payload : Nat) : ((d.blockTaken v payload).lane v).grp = (d.lane v).grp ++ [payload % 2 ^ 64] ∧
    ((d.blockTaken v payload).lane v).lastIAt = (d.lane v).lastIAt := by
  unfold Dev.blockTaken Dev.addPayload
  rw [Dev.lane_modLane, Dev.lane_modLane]
  exact ⟨rfl, rfl⟩

theorem Dev.iBlock_eq (h : d.framesUp v = true) (payload frac : Nat) : d.iBlock v hdrData payload frac =
    (d.blockTaken v payload).takeCurrent v (d.sampleAt v frac) true ((List.range 16).map (wordOf payload)) := by
  have hup : (d.blockTaken v payload).framesUp v = true := h
  unfold Dev.iBlock
  rw [if_pos h]
  dsimp only
  rw [beq_self_eq_true, Dev.blockIn_addPayload d v payload rfl, if_pos hup]
  rfl

theorem Dev.vBlock_eq (h : d.framesUp v = true) (payload : Nat) : d.vBlock v hdrData payload =
    (d.blockTaken v payload).takeVoltage v true ((List.range 16).map (wordOf payload)) := by
  have hup : (d.blockTaken v payload).framesUp v = true := h
  unfold Dev.vBlock
  rw [if_pos h]
  dsimp only
  rw [beq_self_eq_true, Dev.blockIn_addPayload d v payload rfl, if_pos hup]
  rfl

theorem Dev.lane_currentsTaken (d : Dev) (v : Fin 16) (t8 : Nat) (ws : List Int) : ((d.currentsTaken v t8 ws).lane v).grp = (d.lane v).grp ∧
    ((d.currentsTaken v t8 ws).lane v).prevI = ws ∧ ((d.currentsTaken v t8 ws).lane v).lastIAt = t8 := by
  unfold Dev.currentsTaken
  rw [Dev.lane_modLane]
  exact ⟨rfl, rfl, rfl⟩

theorem Dev.popList_nodup (d : Dev) (v : Fin 16) : (d.popList v).Nodup := (List.nodup_finRange 16).filter _

theorem Dev.mem_popList : k ∈ d.popList v ↔ k.1 < d.populated v := by
  unfold Dev.popList
  simp

theorem Dev.tripArmed_modLane (d : Dev) (v : Fin 16) (z : Lane → Lane) (j : Fin 16) : (d.modLane v z).tripArmed v j = d.tripArmed v j := by
  unfold Dev.tripArmed Dev.modLane
  rw [Dev.vats_modVat_same]

theorem Dev.tripArmed_taken (d : Dev) (v : Fin 16) (payload t8 : Nat) (ws : List Int) (j : Fin 16) :
    ((d.blockTaken v payload).currentsTaken v t8 ws).tripArmed v j = d.tripArmed v j := by
  unfold Dev.currentsTaken Dev.blockTaken Dev.addPayload
  rw [Dev.tripArmed_modLane, Dev.tripArmed_modLane, Dev.tripArmed_modLane]

theorem iBlock_taken {s : State} {frac : Nat} (hl : Live s) (hup : s.dev.framesUp v = true) (ha : ∀ k, s.dev.tripArmed v k = false) :
    Answers (.iBlock v hdrData payload frac) s (fun t =>
      (t.dev.lane v).grp = (s.dev.lane v).grp ++ [payload % 2 ^ 64] ∧
      (t.dev.lane v).prevI = (List.range 16).map (wordOf payload) ∧ (t.dev.lane v).lastIAt = s.dev.sampleAt v frac) := by
  have hexec : exec (.iBlock v hdrData payload frac) s = s.done (Dev.tripped v (Dev.wordsIn v (s.dev.sampleAt v frac) true
      ((List.range 16).map (wordOf payload)) (((s.dev.blockTaken v payload).currentsTaken v (s.dev.sampleAt v frac)
      ((List.range 16).map (wordOf payload))).popList v) ((s.dev.blockTaken v payload).currentsTaken v (s.dev.sampleAt v frac)
      ((List.range 16).map (wordOf payload)), 0))) := congrArg s.done (Dev.iBlock_eq hup payload frac)
  obtain ⟨hgrp, -⟩ := s.dev.lane_blockTaken v payload
  obtain ⟨hgrp', hprev, hat⟩ := (s.dev.blockTaken v payload).lane_currentsTaken v (s.dev.sampleAt v frac) ((List.range 16).map (wordOf payload))
  have harm := fun j => (s.dev.tripArmed_taken v payload (s.dev.sampleAt v frac) ((List.range 16).map (wordOf payload)) j).trans (ha j)
  generalize (s.dev.blockTaken v payload).currentsTaken v (s.dev.sampleAt v frac) ((List.range 16).map (wordOf payload)) = e at hgrp' hprev hat harm hexec
  have hnone := Dev.wordsIn_unarmed (v := v) (t8 := s.dev.sampleAt v frac) (valid := true) (ws := (List.range 16).map (wordOf payload)) (e.popList v)
    (e.popList_nodup v) (e, 0) fun j _ => harm j
  have hlane := (Dev.heard_wordsIn (v := v) (t8 := s.dev.sampleAt v frac) (valid := true) (ws := (List.range 16).map (wordOf payload)) (e.popList v) (e, 0)).lane
  unfold Dev.tripped at hexec
  rw [if_pos hnone] at hexec
  refine .of_done hl hexec ?_
  rw [State.commit_lane, hlane]
  exact ⟨hgrp'.trans hgrp, hprev, hat⟩

/-- The lane as it takes the words of a V block. -/
def Dev.voltagesTaken (d : Dev) (v : Fin 16) (ws : List Int) : Dev :=
  d.modLane v (fun l => { l with prevV := ws, lastVAt := (d.lane v).lastIAt, words := l.words ++ [((d.lane v).lastIAt, false, ws)] })

theorem Dev.heard_voltageWord (d : Dev) (v k : Fin 16) (t8 : Nat) (x : Int) (replaced : Bool) : Dev.Heard v d (d.voltageWord v k t8 x replaced) := by
  unfold Dev.voltageWord
  dsimp only
  refine Dev.Heard.trans ?_ (Dev.heard_modMeas _ k _)
  split
  · exact d.heard_setModf v k false
  · exact d.heard_modGuard k _

theorem vBlock_taken {s : State} (hl : Live s) (hup : s.dev.framesUp v = true) :
    Answers (.vBlock v hdrData payload) s (fun t =>
      (t.dev.lane v).grp = (s.dev.lane v).grp ++ [payload % 2 ^ 64] ∧
      (t.dev.lane v).prevV = (List.range 16).map (wordOf payload) ∧ (t.dev.lane v).lastVAt = (s.dev.lane v).lastIAt) := by
  have hexec : exec (.vBlock v hdrData payload) s = s.done ((s.dev.blockTaken v payload).takeVoltage v true ((List.range 16).map (wordOf payload))) :=
    congrArg s.done (Dev.vBlock_eq hup payload)
  obtain ⟨hgrp, hat⟩ := s.dev.lane_blockTaken v payload
  generalize s.dev.blockTaken v payload = e at hgrp hat hexec
  have hheard : Dev.Heard v (e.voltagesTaken v ((List.range 16).map (wordOf payload))) (e.takeVoltage v true ((List.range 16).map (wordOf payload))) :=
    List.foldlRecOn _ _ (motive := Dev.Heard v _) (.refl _) (fun e he k _ => he.trans (e.heard_voltageWord v k _ _ _))
  refine .of_done hl hexec ?_
  rw [State.commit_lane, hheard.lane]
  unfold Dev.voltagesTaken
  rw [Dev.lane_modLane]
  exact ⟨hgrp, rfl, hat⟩

/-! ### The trip (R91–R93) -/

theorem Dev.killMask_vatWork (d : Dev) (v : Fin 16) (mask cause : Nat) {code : Nat} (h : code ≠ 14) : Dev.VatWork d (d.killMask v mask cause code) := by
  rw [Dev.killMask_eq d v mask cause h]
  exact List.foldlRecOn _ _ (motive := Dev.VatWork d) ((Dev.queueKill_work d v mask cause).trans (Dev.withdrawKclr_work _ v mask))
    (fun e he k _ => he.trans (e.killNow_work v k code))

theorem Dev.killGangs_vatWork (d : Dev) (v : Fin 16) (mask cause rest : Nat) {code : Nat} (h : code ≠ 14) :
    Dev.VatWork d (d.killGangs v mask cause rest code) :=
  .ite _ (d.killMask_vatWork v mask cause h) ((d.killMask_vatWork v mask cause h).trans (Dev.killMask_vatWork _ v _ rest h))

/-- A channel among those that trip is killed; its fault stays shown. -/
theorem Dev.tripped_spec {r : Dev × Nat} (h : r.2.testBit k.1 = true) (hm : r.1.tb (Reg.VAT_MODF_I v.1) k.1 = true) :
    (Dev.tripped v r).chan v k = (r.1.chan v k).killedNow k 12 r.1.now ∧ (Dev.tripped v r).tb (Reg.VAT_MODF_I v.1) k.1 = true := by
  have hne : r.2 ≠ 0 := fun h0 => by rw [h0, Nat.zero_testBit] at h; exact Bool.noConfusion h
  have hwork := (r.1.modLane v (fun l => { l with grpKill := true })).killGangs_vatWork v r.2 0x01 0x04 (code := 12) (by decide)
  have hchan := (r.1.modLane v (fun l => { l with grpKill := true })).chan_killGangs (v := v) 0x01 0x04 (code := 12) (by decide) h
  unfold Dev.tripped
  rw [if_neg hne]
  refine ⟨(Dev.chan_raise _ _ _ _ _ _).trans (hchan.trans ?_), (Dev.tb_of_f ?_ k.1).trans hm⟩
  · rw [Dev.chan_modLane]
    rfl
  · refine (Dev.f_raise_off _ _ (by omega) (Nat.le_of_ble_eq_true rfl) (Nat.le_of_ble_eq_true rfl) (.inr ?_) ?_).trans
      (hwork.f _ ⟨Nat.le_of_ble_eq_true rfl, ?_⟩) <;>
      simp only [Reg.VAT_MODF_I, Reg.VAT_MODF_at, Reg.VAT_MEAS_EVT_TRIP, Reg.VAT_MEAS_EVT_at] <;> omega

theorem iBlock_trips {s : State} {frac : Nat} (hl : Live s) (hup : s.dev.framesUp v = true) (hk : k.1 < s.dev.populated v)
    (ha : s.dev.tripArmed v k = true) (hw : wordOf payload k.1 = -8) (hst : (s.dev.chan v k).st ≠ .fenced) :
    Answers (.iBlock v hdrData payload frac) s (fun t => (t.dev.chan v k).st = .killed ∧ (t.dev.chan v k).lastStop = (s.dev.chan v k).stopAs k 12 s.dev.now ∧
      t.dev.tb (Reg.VAT_MODF_I v.1) k.1 = true) := by
  have hexec : exec (.iBlock v hdrData payload frac) s = s.done (Dev.tripped v (Dev.wordsIn v (s.dev.sampleAt v frac) true
      ((List.range 16).map (wordOf payload)) (((s.dev.blockTaken v payload).currentsTaken v (s.dev.sampleAt v frac)
      ((List.range 16).map (wordOf payload))).popList v) ((s.dev.blockTaken v payload).currentsTaken v (s.dev.sampleAt v frac)
      ((List.range 16).map (wordOf payload)), 0))) := congrArg s.done (Dev.iBlock_eq hup payload frac)
  have harm := (s.dev.tripArmed_taken v payload (s.dev.sampleAt v frac) ((List.range 16).map (wordOf payload)) k).trans ha
  have hpop : k ∈ ((s.dev.blockTaken v payload).currentsTaken v (s.dev.sampleAt v frac) ((List.range 16).map (wordOf payload))).popList v :=
    Dev.mem_popList.mpr hk
  have hchan : ((s.dev.blockTaken v payload).currentsTaken v (s.dev.sampleAt v frac) ((List.range 16).map (wordOf payload))).chan v k = s.dev.chan v k := by
    unfold Dev.currentsTaken Dev.blockTaken Dev.addPayload
    rw [Dev.chan_modLane, Dev.chan_modLane, Dev.chan_modLane]
  have hnow : ((s.dev.blockTaken v payload).currentsTaken v (s.dev.sampleAt v frac) ((List.range 16).map (wordOf payload))).now = s.dev.now := rfl
  generalize (s.dev.blockTaken v payload).currentsTaken v (s.dev.sampleAt v frac) ((List.range 16).map (wordOf payload)) = e
    at harm hpop hchan hnow hexec
  have hword : ((List.range 16).map (wordOf payload)).getD k.1 0 = -8 := by
    rw [List.getD_eq_getElem _ _ (by rw [List.length_map, List.length_range]; exact k.2), List.getElem_map, List.getElem_range]
    exact hw
  obtain ⟨hbit, hmodf⟩ := Dev.wordsIn_trips (v := v) (t8 := s.dev.sampleAt v frac) (valid := true) (e.popList v) (e.popList_nodup v) hpop (e, 0)
    (fun j _ => Nat.zero_testBit j.1) harm hword
  have hheard := Dev.heard_wordsIn (v := v) (t8 := s.dev.sampleAt v frac) (valid := true) (ws := (List.range 16).map (wordOf payload)) (e.popList v) (e, 0)
  generalize Dev.wordsIn v (s.dev.sampleAt v frac) true ((List.range 16).map (wordOf payload)) (e.popList v) (e, 0) = r at hbit hmodf hheard hexec
  obtain ⟨hkilled, hshown⟩ := Dev.tripped_spec hbit hmodf
  rw [hheard.chan, hheard.now, hchan, hnow] at hkilled
  obtain ⟨hdead, hstop⟩ := Chan.killedNow_spec hst k 12 s.dev.now
  refine .of_done hl hexec ⟨?_, ?_, ?_⟩
  · rw [State.commit_chan, hkilled]
    exact hdead
  · rw [State.commit_chan, hkilled]
    exact hstop
  · rw [State.commit_tb]
    exact hshown

end

/-! ### Board and channel reports, groups, modulator faults (R55, R70, R76, R79) -/

section
variable {v k : Fin 16} {d : Dev} {payload : Nat}

theorem Dev.auxReport_eq (h : d.framesUp v = true) (ht : blockType payload = 0x66) (frac : Nat) :
    d.auxReport v hdrCtl payload frac = (d.blockTaken v payload).report v (content payload) frac := by
  have hup : (d.blockTaken v payload).framesUp v = true := h
  unfold Dev.auxReport
  rw [if_pos h]
  dsimp only
  rw [beq_self_eq_true, ht, beq_self_eq_true, Bool.and_self, Dev.blockIn_addPayload d v payload rfl, hup, if_pos (Bool.and_self true)]

theorem Dev.report_board (d : Dev) (v : Fin 16) {c : Nat} (h : c % 256 = 0x10) (frac : Nat) :
    d.report v c frac = d.boardReport v (c / 256 % 2 ^ 48) := by
  unfold Dev.report
  dsimp only
  rw [h, if_neg (by decide), if_pos rfl]

theorem Dev.report_channel (d : Dev) {v k : Fin 16} {c : Nat} (h : c % 256 = k.1) (hk : k.1 < d.populated v) (frac : Nat) :
    d.report v c frac = d.channelReport v k (c / 256 % 2 ^ 48) frac := by
  have hv : v16 k.1 = k := Fin.ext (Nat.mod_eq_of_lt k.2)
  unfold Dev.report
  dsimp only
  rw [h, if_pos k.2, if_pos hk, hv]

/-- A field below a bound is the same without what lies above the bound. -/
theorem bits_mod_of_le {x lo w n : Nat} (h : lo + w ≤ n) : bits (x % 2 ^ n) lo w = bits x lo w := by
  refine Nat.eq_of_testBit_eq fun i => ?_
  unfold bits
  rw [Nat.testBit_mod_two_pow, Nat.testBit_mod_two_pow, Nat.testBit_div_two_pow, Nat.testBit_div_two_pow, Nat.testBit_mod_two_pow]
  by_cases hi : i < w
  · rw [decide_eq_true (show i + lo < n by omega), Bool.true_and]
  · rw [decide_eq_false hi, Bool.false_and, Bool.false_and]

theorem Dev.vbus_boardReport (d : Dev) (v : Fin 16) (p : Nat) : (d.boardReport v p).f (Reg.VAT_VBUS_VBUS v.1) = bits p 0 16 * 1000 := by
  have hlt : bits p 0 16 * 1000 < 2 ^ 32 := by
    have h16 : bits p 0 16 < 2 ^ 16 := Nat.mod_lt _ (by decide)
    omega
  have hset : ∀ x, ((d.setF (Reg.VAT_VBUS_VBUS v.1) (bits p 0 16 * 1000)).setF (Reg.VAT_BRD_TEMP_TEMP v.1) x).f (Reg.VAT_VBUS_VBUS v.1) =
      bits p 0 16 * 1000 := fun x => by
    rw [Dev.f_setF_off _ _ (Nat.le_of_ble_eq_true rfl) (Nat.le_of_ble_eq_true rfl), Dev.f_setF_same]
    · exact Nat.mod_eq_of_lt hlt
    · simp only [Reg.VAT_VBUS_VBUS, Reg.VAT_VBUS_at, Reg.VAT_BRD_TEMP_TEMP, Reg.VAT_BRD_TEMP_at]
      omega
  unfold Dev.boardReport
  dsimp only
  split
  · exact hset _
  · refine (Dev.f_raise_off _ 1 (by omega) (Nat.le_of_ble_eq_true rfl) (Nat.le_of_ble_eq_true rfl) (.inr ?_) ?_).trans (hset _) <;>
      simp only [Reg.VAT_VBUS_VBUS, Reg.VAT_VBUS_at, Reg.LANE_EVT_BRD_FAULT, Reg.LANE_EVT_at] <;> omega

theorem auxReport_vbus {s : State} {frac : Nat} (hl : Live s) (hup : s.dev.framesUp v = true) (ht : blockType payload = 0x66)
    (hs : content payload % 256 = 0x10) :
    Answers (.auxReport v hdrCtl payload frac) s (fun t => t.dev.f (Reg.VAT_VBUS_VBUS v.1) = bits (content payload / 256) 0 16 * 1000) := by
  have hexec : exec (.auxReport v hdrCtl payload frac) s = s.done ((s.dev.blockTaken v payload).boardReport v (content payload / 256 % 2 ^ 48)) :=
    congrArg s.done ((Dev.auxReport_eq hup ht frac).trans (Dev.report_board _ v hs frac))
  have hvbus := (s.dev.blockTaken v payload).vbus_boardReport v (content payload / 256 % 2 ^ 48)
  refine .of_done hl hexec ?_
  rw [State.commit_f, hvbus, bits_mod_of_le (by decide)]

/-- The status of the vat and its lane stays as a channel is armed. -/
theorem Dev.keepsStatus_armed (d : Dev) (v k : Fin 16) (t : Nat) : Dev.Keeps (RF.StatusOf v) d (d.armed v k t) := by
  have henter : ∀ (e : Dev) (m : Fin 16) (st : ChSt), Dev.Keeps (RF.StatusOf v) e (e.enter v m st t) := fun e m st r hr =>
    (e.enter_work v m st t).f r hr.apart
  have hquiet : ∀ (e : Dev) (m : Fin 16) (st : ChSt), Dev.Keeps (RF.StatusOf v) e (e.enterQuiet v m st t) := fun e m st r hr =>
    (e.enterQuiet_work v m st t).f r hr.apart
  have hsoft : ∀ (e : Dev) (ks : List (Fin 16)), Dev.Keeps (RF.StatusOf v) e (e.enterSoft v ks t) := fun e ks => by
    refine .foldl _ (fun g j _ r hr => ?_) e
    exact (henter (g.modChan v j (fun c => { c.quiet with softFirst := true })) j .soft r hr)
  have hafter : ∀ (e : Dev) (m : Fin 16) (x : Desc), Dev.Keeps (RF.StatusOf v) e (e.afterArm v m x t) := fun e m x =>
    .ite (hquiet e m _) (.ite (.foldl _ (fun g j _ => henter g j _) e) (hsoft e _))
  unfold Dev.armed
  dsimp only
  split
  · exact .ite (hafter _ _ _) (.refl _)
  · exact hquiet _ k _

/-- A report's values, past its latch. -/
def Dev.reported (d : Dev) (v k : Fin 16) (p frac : Nat) : Dev :=
  let temp := tempOf (bits p 8 16) (signed 32 (d.f (Reg.VAT_TOFS_OFS v.1 k.1)))
  let seq := bits p 24 8
  let d := d.modGuard v k (fun g =>
    { g with hwOc := p.testBit 3, repModfI := p.testBit 4, repModfV := p.testBit 5, temp := temp, repAt := d.now,
             force := match g.offSeq with
               | some n => g.force && decide (128 ≤ (seq + 256 - n) % 256)
               | none => g.force,
             offSeq := match g.offSeq with
               | some n => if (seq + 256 - n) % 256 < 128 then none else some n
               | none => none })
  let d := d.modMeas v k (fun m => { m with temps := (m.temps ++ [(d.sampleAt v frac / 8, temp)]) })
  d.impTemp v k (d.sampleAt v frac / 8) temp

/-- The modulator faults a report shows. -/
def Dev.reportModf (d : Dev) (v k : Fin 16) (p : Nat) : Dev :=
  let d := if p.testBit 4 then d.setModf v k true else d
  if p.testBit 5 then d.setModf v k false else d

/-- What a report's latch does: an acknowledgement, or the end of arming. -/
def Dev.reportLatch (d : Dev) (v k : Fin 16) (latch : Bool) : Dev :=
  if latch then
    let d := d.modLane v (fun l =>
      { l with ack := l.ack.filter (fun a => a.1 != k.1),
               fenceAck := match l.fenceKillAt with
                 | some t => if t < d.now then setBit l.fenceAck k.1 true else l.fenceAck
                 | none => l.fenceAck })
    let l := d.lane v
    let d := if l.fenceAck &&& d.popMask v = d.popMask v ∧ l.latchAt.isNone ∧ l.fenceKillAt.isSome then
        d.modLane v (fun l => { l with latchAt := some d.now }) else d
    if (d.chan v k).st = .killed then d.enterQuiet v k .idle d.now else d
  else if (d.chan v k).st = .arm ∧ !d.modf v k then d.armed v k d.now
  else d

theorem Dev.channelReport_eq (d : Dev) (v k : Fin 16) (p frac : Nat) : d.channelReport v k p frac =
    (((d.setTb (Reg.LANE_STAT_KLATCH v.1) k.1 (p.testBit 0)).reported v k p frac).reportModf v k p).reportLatch v k (p.testBit 0) := rfl

theorem Dev.keepsStatus_reportLatch (d : Dev) (v k : Fin 16) (latch : Bool) : Dev.Keeps (RF.StatusOf v) d (d.reportLatch v k latch) := by
  have hquiet : ∀ e : Dev, Dev.Keeps (RF.StatusOf v) e (e.enterQuiet v k .idle e.now) := fun e r hr => (e.enterQuiet_work v k _ _).f r hr.apart
  unfold Dev.reportLatch
  dsimp only
  refine .ite ?_ (.ite (d.keepsStatus_armed v k _) (.refl d))
  split
  · exact .ite (hquiet _) (.refl _)
  · exact .ite (hquiet _) (.refl _)

/-- What a report says past its latch leaves the status of the vat and its lane. -/
theorem Dev.keepsStatus_channelReport (d : Dev) (v k : Fin 16) (p frac : Nat) :
    Dev.Keeps (RF.StatusOf v) (d.setTb (Reg.LANE_STAT_KLATCH v.1) k.1 (p.testBit 0)) (d.channelReport v k p frac) := by
  have hmodf : ∀ e : Dev, Dev.Keeps (RF.StatusOf v) e (e.reportModf v k p) := fun e => by
    have h4 : Dev.Keeps (RF.StatusOf v) e (if p.testBit 4 then e.setModf v k true else e) := .ite (e.hears_setModf v k true).f (.refl e)
    exact .ite (h4.trans (Dev.hears_setModf _ v k false).f) h4
  have hrep : ∀ e : Dev, Dev.Keeps (RF.StatusOf v) e (e.reported v k p frac) := fun e _ _ => rfl
  rw [Dev.channelReport_eq]
  exact ((hrep _).trans (hmodf _)).trans (Dev.keepsStatus_reportLatch _ v k _)

theorem auxReport_klatch {s : State} {frac : Nat} (hl : Live s) (hup : s.dev.framesUp v = true) (ht : blockType payload = 0x66)
    (hs : content payload % 256 = k.1) (hk : k.1 < s.dev.populated v) :
    Answers (.auxReport v hdrCtl payload frac) s (fun t => t.dev.klatch v k = (content payload / 256).testBit 0) := by
  have hpop : k.1 < (s.dev.blockTaken v payload).populated v := hk
  have hexec : exec (.auxReport v hdrCtl payload frac) s = s.done ((s.dev.blockTaken v payload).channelReport v k (content payload / 256 % 2 ^ 48) frac) :=
    congrArg s.done ((Dev.auxReport_eq hup ht frac).trans ((s.dev.blockTaken v payload).report_channel hs hpop frac))
  have hkept := (s.dev.blockTaken v payload).keepsStatus_channelReport v k (content payload / 256 % 2 ^ 48) frac
    (Reg.LANE_STAT_KLATCH v.1) ⟨Nat.le_of_ble_eq_true rfl, .inr rfl⟩
  have hset := (s.dev.blockTaken v payload).tb_setTb (Reg.LANE_STAT_KLATCH v.1) k.1 ((content payload / 256 % 2 ^ 48).testBit 0) (j := k.1) k.2
  have hbit : (content payload / 256 % 2 ^ 48).testBit 0 = (content payload / 256).testBit 0 := by
    rw [Nat.testBit_mod_two_pow]
    exact Bool.true_and _
  rw [if_pos rfl] at hset
  have hlatch := (Dev.tb_of_f hkept k.1).trans (hset.trans hbit)
  generalize (s.dev.blockTaken v payload).channelReport v k (content payload / 256 % 2 ^ 48) frac = e at hlatch hexec
  exact .of_done hl hexec hlatch

theorem Dev.heard_handWords (d : Dev) (v : Fin 16) (failed : Bool) : Dev.Heard v d (d.handWords v failed) := by
  unfold Dev.handWords
  dsimp only
  split
  · exact List.foldlRecOn _ _ (motive := Dev.Heard v d) (.refl d) (fun e he k _ => he.trans (e.heard_modMeas k _))
  · exact .refl d

/-- A group whose check passes starts the next one afresh (R70, R76). -/
theorem Dev.lane_endGroup (d : Dev) (v : Fin 16) : ((d.endGroup v true).lane v).grp = [] ∧ ((d.endGroup v true).lane v).words = [] ∧
    ((d.endGroup v true).lane v).chkOk = (d.lane v).chkOk + 1 ∧ ((d.endGroup v true).lane v).failRun = 0 ∧
    ((d.endGroup v true).lane v).lastGood = d.now := by
  have hhand := d.heard_handWords v (!true)
  unfold Dev.endGroup
  dsimp only
  generalize d.handWords v (!true) = e at hhand ⊢
  rw [if_pos rfl, Dev.lane_modLane]
  dsimp only
  rw [hhand.lane, hhand.now]
  exact ⟨rfl, rfl, if_pos rfl, if_pos rfl, if_pos rfl⟩

theorem Dev.groupCheck_eq (hoff : d.laneState v ≠ laneOff) (ht : blockType payload = 0x96) (hbad : (d.lane v).grpBad = false)
    (hlen : (d.lane v).grp.length = 7) (hcrc : groupCrc (d.lane v).grp = bits (content payload) 0 32) :
    d.groupCheck v hdrCtl payload = (d.modLane v (fun l => { l with slots := (true :: l.slots).take 64 })).endGroup v true := by
  have hoff' : (d.modLane v (fun l => { l with slots := (true :: l.slots).take 64 })).laneState v ≠ laneOff := hoff
  unfold Dev.groupCheck
  rw [if_neg hoff]
  dsimp only
  rw [beq_self_eq_true, ht, beq_self_eq_true, Bool.and_self, Dev.blockIn_valid d v rfl, if_neg hoff', Dev.lane_modLane]
  dsimp only
  rw [hbad, hlen, hcrc, beq_self_eq_true, beq_self_eq_true]
  rfl

theorem groupCheck_passes {s : State} (hl : Live s) (hoff : s.dev.laneState v ≠ laneOff) (ht : blockType payload = 0x96)
    (hbad : (s.dev.lane v).grpBad = false) (hlen : (s.dev.lane v).grp.length = 7) (hcrc : groupCrc (s.dev.lane v).grp = bits (content payload) 0 32) :
    Answers (.groupCheck v hdrCtl payload) s (fun t => (t.dev.lane v).grp = [] ∧ (t.dev.lane v).words = [] ∧
      (t.dev.lane v).chkOk = (s.dev.lane v).chkOk + 1 ∧ (t.dev.lane v).failRun = 0 ∧ (t.dev.lane v).lastGood = s.dev.now) := by
  have hexec : exec (.groupCheck v hdrCtl payload) s = s.done ((s.dev.modLane v (fun l => { l with slots := (true :: l.slots).take 64 })).endGroup v true) :=
    congrArg s.done (Dev.groupCheck_eq hoff ht hbad hlen hcrc)
  have hgroup := (s.dev.modLane v (fun l => { l with slots := (true :: l.slots).take 64 })).lane_endGroup v
  rw [Dev.lane_modLane] at hgroup
  refine .of_done hl hexec ?_
  rw [State.commit_lane]
  exact hgroup

theorem Dev.modf_w (v : Fin 16) (cur : Bool) : (if cur then Reg.VAT_MODF_I v.1 else Reg.VAT_MODF_V v.1).w = 16 := by
  cases cur <;> rfl

theorem modfClear_clears {s : State} {cur : Bool} (hl : Live s)
    (hrep : (if cur then ((s.dev.vats[v]).guards[k]).repModfI else ((s.dev.vats[v]).guards[k]).repModfV) = false)
    (hat : 400 * ((if cur then ((s.dev.vats[v]).guards[k]).badI else ((s.dev.vats[v]).guards[k]).badV) / 400 + 2) ≤ s.dev.now) :
    Answers (.modfClear v k cur) s (fun t => t.dev.tb (if cur then Reg.VAT_MODF_I v.1 else Reg.VAT_MODF_V v.1) k.1 = false ∧
      ∀ j : Fin 16, j ≠ k → t.dev.tb (if cur then Reg.VAT_MODF_I v.1 else Reg.VAT_MODF_V v.1) j.1 =
        s.dev.tb (if cur then Reg.VAT_MODF_I v.1 else Reg.VAT_MODF_V v.1) j.1) := by
  have hexec : exec (.modfClear v k cur) s = s.done (s.dev.setTb (if cur then Reg.VAT_MODF_I v.1 else Reg.VAT_MODF_V v.1) k.1 false) := by
    refine congrArg s.done ?_
    unfold Dev.modfClear
    dsimp only
    rw [hrep, decide_eq_true hat, if_pos (by decide)]
  have hset := fun j : Fin 16 => s.dev.tb_setTb (if cur then Reg.VAT_MODF_I v.1 else Reg.VAT_MODF_V v.1) k.1 false (j := j.1)
    (by rw [Dev.modf_w]; exact j.2)
  refine .of_done hl hexec ⟨?_, fun j hj => ?_⟩
  · rw [State.commit_tb, hset k, if_pos rfl]
  · rw [State.commit_tb, hset j, if_neg (Fin.val_ne_of_ne hj)]

end

/-! ### The obligation -/

/-- Settles O9: each block as its own equation gives it; the loss of lock by induction on the empty slots, the trip by induction on the words. -/
theorem upstreamBlocksAreTakenAndTrip : Obligations.UpstreamBlocksAreTakenAndTrip :=
  ⟨⟨fun _ _ _ _ hl hup ha => iBlock_taken hl hup ha,
    fun _ _ _ hl hup => vBlock_taken hl hup,
    fun _ _ _ _ hl hup ht hs => auxReport_vbus hl hup ht hs,
    fun _ _ _ _ _ hl hup ht hs hk => auxReport_klatch hl hup ht hs hk,
    fun _ _ _ hl hoff ht hbad hlen hcrc => groupCheck_passes hl hoff ht hbad hlen hcrc,
    fun _ _ _ hl ha hlock hf hn => blockLockLoss_fences hl ha hlock hf hn,
    fun _ _ _ _ hl hrep hat => modfClear_clears hl hrep hat⟩,
    fun _ _ _ _ _ hl hup hk ha hw hst => iBlock_trips hl hup hk ha hw hst⟩

end Sys2Proof.Machine
end

section
/-!
PROOF. A write that a compared pair holds back acts, once its comparison has matched, as it would have acted at once (R320, R322).
-/

namespace Sys2Proof.Machine
open Sys2Proof

/-! ### What a matched comparison leaves -/

/-- A field a matched comparison does not write: it counts, and records a digest, in the pair's words from 0x08 on (R325). -/
def RF.OffMatched (r : RF) : Prop := r.lo < 32 ∧ (r.addr < 0x200A0000 ∨ 0x200B0000 ≤ r.addr ∨ r.addr % 0x100 = 0)

/-- `e` is `d` but for the pairs' registers of comparison and their delay registers, no pair being newly stalled. -/
structure Dev.Matched (d e : Dev) : Prop where
  keeps : Dev.Keeps RF.OffMatched d e
  stalls : ∀ p : Fin 2, (d.pairs[p]).stallAt = none → (e.pairs[p]).stallAt = none
  sup : e.sup = d.sup
  mad : e.mad = d.mad
  cores : e.cores = d.cores
  up : e.up = d.up

section
variable {d e g : Dev}

theorem Dev.Matched.refl (d : Dev) : Dev.Matched d d := ⟨.refl d, fun _ h => h, rfl, rfl, rfl, rfl⟩

theorem Dev.Matched.trans (h : Dev.Matched d e) (h' : Dev.Matched e g) : Dev.Matched d g :=
  ⟨h.keeps.trans h'.keeps, fun p hp => h'.stalls p (h.stalls p hp), h'.sup.trans h.sup, h'.mad.trans h.mad, h'.cores.trans h.cores,
    h'.up.trans h.up⟩

theorem Dev.Matched.ite {c : Prop} [Decidable c] {a b : Dev} (ha : Dev.Matched d a) (hb : Dev.Matched d b) : Dev.Matched d (if c then a else b) := by
  split <;> assumption

theorem Dev.Matched.setF64 (h : Dev.Matched d e) {lo hi : RF} (x : Nat) (hlo : lo.lo < 32) (hhi : hi.lo < 32)
    (halo : 0x200A0000 ≤ lo.addr ∧ lo.addr < 0x200B0000 ∧ lo.addr % 0x100 ≠ 0)
    (hahi : 0x200A0000 ≤ hi.addr ∧ hi.addr < 0x200B0000 ∧ hi.addr % 0x100 ≠ 0) : Dev.Matched d (e.setF64 lo hi x) := by
  have off : ∀ {r q : RF}, RF.OffMatched q → (0x200A0000 ≤ r.addr ∧ r.addr < 0x200B0000 ∧ r.addr % 0x100 ≠ 0) → q.addr ≠ r.addr := fun hq hr hc => by
    obtain ⟨-, hq⟩ := hq
    rw [hc] at hq
    omega
  have hset : Dev.Keeps RF.OffMatched e (e.setF64 lo hi x) :=
    (Dev.Keeps.setF (fun _ hq => hq.1) e _ hlo (fun _ hq => off hq halo)).trans (.setF (fun _ hq => hq.1) _ _ hhi (fun _ hq => off hq hahi))
  exact ⟨h.keeps.trans hset, h.stalls, h.sup, h.mad, h.cores, h.up⟩

theorem Dev.Matched.modPair (h : Dev.Matched d e) (p : Fin 2) {f : Pair → Pair} (hf : (f e.pairs[p]).stallAt = none ∨ (f e.pairs[p]).stallAt = (e.pairs[p]).stallAt) :
    Dev.Matched d (e.modPair p f) := by
  refine ⟨h.keeps, fun q hq => ?_, h.sup, h.mad, h.cores, h.up⟩
  have hpair : (e.modPair p f).pairs[q] = if p = q then f e.pairs[p] else e.pairs[q] := getElem_put _ _ _ _
  rw [hpair]
  split
  next hpq =>
    subst hpq
    exact hf.elim id (fun he => he.trans (h.stalls _ hq))
  next => exact h.stalls q hq

end

theorem Dev.matched_matched (d : Dev) (p : Fin 2) (digest : Bool) (pv : Nat) : Dev.Matched d (d.matched p digest pv) := by
  have pairReg : ∀ n, 8 ≤ n → n < 0x100 → 0x200A0000 ≤ 0x200A0100 + n + 0x100 * p.1 ∧ 0x200A0100 + n + 0x100 * p.1 < 0x200B0000 ∧
      (0x200A0100 + n + 0x100 * p.1) % 0x100 ≠ 0 := fun n h1 h2 => by omega
  have hcount : Dev.Matched d (d.setF64 (Reg.LS_TCNT_LO_COUNT p.1) (Reg.LS_TCNT_HI_COUNT p.1)
      ((d.f64 (Reg.LS_TCNT_LO_COUNT p.1) (Reg.LS_TCNT_HI_COUNT p.1) + 1) % 2 ^ 64)) :=
    (Dev.Matched.refl d).setF64 _ (Nat.le_of_ble_eq_true rfl) (Nat.le_of_ble_eq_true rfl) (pairReg 8 (by decide) (by decide))
      (pairReg 0xC (by decide) (by decide))
  have hdigest : ∀ {e : Dev}, Dev.Matched d e → ∀ x, Dev.Matched d (e.setF64 (Reg.LS_DIGEST_LO_CRC p.1) (Reg.LS_DIGEST_HI_CRC p.1) x) := fun h x =>
    h.setF64 _ (Nat.le_of_ble_eq_true rfl) (Nat.le_of_ble_eq_true rfl) (pairReg 0x10 (by decide) (by decide)) (pairReg 0x14 (by decide) (by decide))
  have hrecorded := Dev.Matched.ite (c := digest = true) (hdigest hcount (bits pv 40 64)) hcount
  exact .ite (hrecorded.modPair p (.inr rfl)) hrecorded

theorem oddOnes_zero (n : Nat) : oddOnes n 0 = false := by
  unfold oddOnes
  refine List.foldlRecOn _ _ (motive := fun b => b = false) rfl fun b hb i _ => ?_
  rw [hb, Nat.zero_testBit]
  rfl

theorem parityBad_zero (g : Nat) : parityBad g 0 = false := by
  unfold parityBad
  rw [List.any_eq_false]
  intro i _
  rw [Nat.zero_div, oddOnes_zero, Nat.zero_testBit]
  decide

/-- Equal vectors seen by two good comparators match (R326). -/
theorem Dev.judge_equal (d : Dev) (p : Fin 2) {x y : Nat} (h : maskVector x = maskVector y) (digest : Bool) :
    d.judge p x y false false false digest none = d.matched p digest (maskVector x) := by
  unfold Dev.judge
  simp [h]

/-- A held write whose transaction the shadow repeats is set free, the comparison having matched (R322, R325). -/
theorem Dev.compareNext_frees {d : Dev} {p : Fin 2} {vec shadow : Nat} {x : Src × Nat × Word} (hstate : d.f (Reg.LS_STAT_STATE p.1) = 0)
    (hdelay : (d.pairs[p]).delay = [⟨vec, some x⟩]) (htest : d.testDue p = none) (hvec : maskVector vec = maskVector shadow) :
    (d.compareNext p shadow false false 0).2 = some x ∧ Dev.Matched d (d.compareNext p shadow false false 0).1 := by
  unfold Dev.compareNext
  rw [hdelay]
  simp only [parityBad_zero, Nat.zero_div, Nat.zero_mod, Nat.xor_zero, Bool.and_false, Bool.or_false, htest, Option.isSome_none,
    Bool.false_eq_true, if_false]
  rw [Dev.judge_equal _ _ hvec]
  generalize hg : d.modPair p _ = g
  have hgm : Dev.Matched d g := hg ▸ (Dev.Matched.refl d).modPair p (.inl rfl)
  have hm : Dev.Matched d (g.matched p (bits vec 112 3 == 5) (maskVector vec)) := hgm.trans (g.matched_matched p _ _)
  refine ⟨?_, hm⟩
  have hst : (g.matched p (bits vec 112 3 == 5) (maskVector vec)).f (Reg.LS_STAT_STATE p.1) = 0 :=
    (hm.keeps _ ⟨Nat.le_of_ble_eq_true rfl, .inr (.inr (by simp only [Reg.LS_STAT_STATE, Reg.LS_STAT_at]; omega))⟩).trans hstate
  rw [if_pos hst]

/-! ### A setup-space write that reaches its register -/

theorem Dev.guard_none_iff {d : Dev} {src : Src} {a : Nat} : (d.guard src a true).isNone = true ↔
    d.srcOk src = true ∧ (d.inReset src).isNone = true ∧ d.portOff src = false ∧ (bypasses src = true ∨ d.permits 14 src .write a = true) ∧
      d.fencedRange a true = false ∧ d.offRange a = false ∧ ∃ row, Reg.row a = some row ∧ row.auth.admits src = true := by
  cases h1 : d.srcOk src with
  | false => simp [Dev.guard, h1]
  | true =>
    cases h2 : d.inReset src with
    | some e => simp [Dev.guard, h1, h2]
    | none =>
      cases h3 : d.portOff src with
      | true => simp [Dev.guard, h1, h2, h3]
      | false =>
        cases h4 : (!bypasses src && !d.permits 14 src .write a) with
        | true =>
          have hno : ¬(bypasses src = true ∨ d.permits 14 src .write a = true) := by simpa using h4
          simp [Dev.guard, h1, h2, h3, h4, hno]
        | false =>
          have hyes : bypasses src = true ∨ d.permits 14 src .write a = true := by simpa [Classical.or_iff_not_imp_left] using h4
          cases h5 : (d.fencedRange a true || d.offRange a) with
          | true =>
            have hno : ¬(d.fencedRange a true = false ∧ d.offRange a = false) := by simp [← Bool.or_eq_false_iff, h5]
            simp only [Dev.guard, h1, h2, h3, h4, h5, if_true, Bool.not_true, Bool.false_eq_true, if_false]
            simp only [Option.isNone_some, Bool.false_eq_true, false_iff]
            exact fun h => hno ⟨h.2.2.2.2.1, h.2.2.2.2.2.1⟩
          | false =>
            have hyes' := Bool.or_eq_false_iff.mp h5
            cases h6 : Reg.row a with
            | none => simp [Dev.guard, h1, h2, h3, h4, h5, h6]
            | some row =>
              cases h7 : row.auth.admits src with
              | true => simp [Dev.guard, h1, h2, h3, h4, h5, h6, h7, hyes, hyes']
              | false =>
                cases h8 : row.auth.denies src with
                | true => simp [Dev.guard, h1, h2, h3, h4, h5, h6, h7, h8]
                | false => simp [Dev.guard, h1, h2, h3, h4, h5, h6, h7, h8]

/-- A matched comparison stops no source. -/
theorem Dev.Matched.stopped {d e : Dev} (h : Dev.Matched d e) {src : Src} (hs : d.stopped src = false) : e.stopped src = false := by
  have hac : ∀ i, e.tb Reg.SYS_FENCE_AC i = d.tb Reg.SYS_FENCE_AC i := Dev.tb_of_f (h.keeps _ ⟨by decide, .inl (by decide)⟩)
  have hsp : ∀ i, e.tb Reg.SYS_FENCE_SP i = d.tb Reg.SYS_FENCE_SP i := Dev.tb_of_f (h.keeps _ ⟨by decide, .inl (by decide)⟩)
  have hstall : ∀ p : Fin 2, (d.pairs[p]).stallAt.isSome = false → (e.pairs[p]).stallAt.isSome = false := fun p hp => by
    rw [h.stalls p (by simpa using hp)]
    rfl
  unfold Dev.stopped at hs ⊢
  rw [hac, hsp]
  simp only [Bool.or_eq_false_iff, Bool.and_eq_false_iff] at hs ⊢
  obtain ⟨⟨⟨h1, h2⟩, h3⟩, h4⟩ := hs
  exact ⟨⟨⟨h1, h2⟩, h3.imp id (hstall 0)⟩, h4.imp id (hstall 1)⟩

theorem Dev.inReset_isNone {d : Dev} {src : Src} : (d.inReset src).isNone = true ↔
    d.stopped src = false ∧ (d.sup.warm.isSome = true → bar0 src = false ∧ (src.master.1 ≤ 5 && !(src.master == 4 && d.sup.rom)) = false) := by
  unfold Dev.inReset
  cases d.stopped src with
  | true => simp
  | false =>
    cases d.sup.warm.isSome with
    | false => simp
    | true =>
      cases bar0 src with
      | true => simp
      | false => cases h : (decide (src.master.1 ≤ 5) && !(src.master == 4 && d.sup.rom)) <;> simp [h]

/-- What reaches a register of Madder still does after a matched comparison. -/
theorem Dev.Matched.guard {d e : Dev} (h : Dev.Matched d e) {src : Src} {a : Nat} (ha : 0x200C0000 ≤ a ∧ a < 0x200D0000)
    (hg : (d.guard src a true).isNone = true) : (e.guard src a true).isNone = true := by
  obtain ⟨hsrc, hreset, hport, hperm, -, -, hrow⟩ := Dev.guard_none_iff.mp hg
  have low : ∀ {r : RF}, r.lo < 32 → r.addr < 0x200A0000 → e.f r = d.f r := fun hl ha => h.keeps _ ⟨hl, .inl ha⟩
  have hchk : e.permits 14 src .write a = d.permits 14 src .write a := by
    refine Dev.Keeps.permits (h.keeps.mono ?_) (by decide) src a .write
    rintro r ⟨hl, hr | hr | hr⟩
    · exact ⟨hl, .inl (by omega)⟩
    · exact ⟨hl, .inl (by omega)⟩
    · exact ⟨hl, .inr (.inl (by rw [hr]; decide))⟩
  refine Dev.guard_none_iff.mpr ⟨?_, ?_, ?_, hchk ▸ hperm, ?_, ?_, hrow⟩
  · rw [← hsrc]
    unfold Dev.srcOk
    by_cases hm : src.master.1 ≤ 5
    · simp only [hm, if_true]
      rw [Dev.bit_of_f (low (r := Reg.CORE_CTX_WORLD src.master.1) (Nat.le_of_ble_eq_true rfl)
          (by simp only [Reg.CORE_CTX_WORLD, Reg.CORE_CTX_at]; omega)),
        low (r := Reg.CORE_CTX_SLICE src.master.1) (Nat.le_of_ble_eq_true rfl) (by simp only [Reg.CORE_CTX_SLICE, Reg.CORE_CTX_at]; omega)]
    · simp only [hm, if_false]
  · obtain ⟨hs, hw⟩ := Dev.inReset_isNone.mp hreset
    exact Dev.inReset_isNone.mpr ⟨h.stopped hs, by rw [h.sup]; exact hw⟩
  · rw [← hport]
    unfold Dev.portOff
    have hm := src.master.2
    rw [low (r := Reg.PWR_QTAG_STATE (30 + src.master.1)) (Nat.le_of_ble_eq_true rfl) (by simp only [Reg.PWR_QTAG_STATE, Reg.PWR_QTAG_at]; omega)]
  · simp only [Dev.fencedRange, Bool.and_eq_false_iff, decide_eq_false_iff_not]
    omega
  · simp only [Dev.offRange, Bool.or_eq_false_iff, Bool.and_eq_false_iff, decide_eq_false_iff_not]
    omega

/-! ### Writes a compared pair holds back (R322) -/

theorem Dev.Matched.commit {d e : Dev} (h : Dev.Matched d e) (s : State) : Dev.Matched d (s.commit e).dev :=
  ⟨h.keeps, h.stalls, h.sup, h.mad, h.cores, h.up⟩

section
variable {s : State} {src : Src} {a : Nat} {w : Word} {i : Instr} {F : Dev → Dev}

/-- What Madder's own write does to every device a matched comparison can leave, it does at once or once its comparison has matched. -/
theorem WriteDoes.of_madWrite {P : State → Prop} (hr : Reaches s src a) (ha : 0x200C0000 ≤ a ∧ a < 0x200D0000)
    (hi : exec i s = s.pairWrite src a w (s.done (s.dev.onWrite src a F)))
    (hnow : ∀ u : State, Live u → u.storeNow src a w = u.done (u.dev.onWrite src a F))
    (hP : ∀ u : State, Dev.Matched s.dev u.dev → P (u.commit (F (u.dev.answer 0)))) : WriteDoes s src a w i P := by
  refine ⟨fun hh => ?_, fun p vec shadow hchk htest hdelay hvec => ?_⟩
  · have hexec : exec i s = s.done (F (s.dev.answer 0)) := by
      rw [hi, ← Dev.onWrite_unguarded hr.2 F]
      exact if_neg (by rw [hh]; decide)
    exact .of_done hr.1 hexec (hP s (.refl _))
  · have hstate : s.dev.f (Reg.LS_STAT_STATE p.1) = 0 := by
      unfold Dev.checking at hchk
      simp only [Bool.and_eq_true, beq_iff_eq] at hchk
      exact hchk.1.1
    obtain ⟨hfree, hm⟩ := Dev.compareNext_frees hstate hdelay htest hvec
    generalize hd : s.dev.compareNext p (txnVector shadow) false false 0 = r at hfree hm
    have hlive : Live (s.commit r.1) := (congrArg (·.held) hm.sup).trans hr.1
    have hexec : exec (.lockstepCompare p [] (some shadow) false false 0) s = (s.commit r.1).storeNow src a w := by
      have hcmp : exec (.lockstepCompare p [] (some shadow) false false 0) s = s.afterCompare r :=
        (if_pos hchk).trans (congrArg s.afterCompare hd)
      rw [hcmp]
      unfold State.afterCompare
      rw [hfree]
      exact if_neg (by rw [hr.1]; decide)
    have hreach : ((s.commit r.1).dev.guard src a true).isNone = true := (hm.commit s).guard ha hr.2
    refine ⟨(s.commit r.1).commit (F ((s.commit r.1).dev.answer 0)), ?_, rfl, hP (s.commit r.1) (hm.commit s)⟩
    rw [hexec, hnow _ hlive, Dev.onWrite_unguarded hreach F]
    exact (s.commit r.1).done_live _ hlive

/-- What a compared pair holds back waits alone in its delay register, and nothing else changes (R320). -/
theorem WaitsForMatch.of_pairWrite {now : Host.Outcome State Fault Refusal} (hr : Reaches s src a) (hi : exec i s = s.pairWrite src a w now) :
    WaitsForMatch s src a w i := by
  intro p hp hh hdelay
  obtain ⟨hsrc, hreset, -⟩ := Dev.guard_none_iff.mp hr.2
  have hpair : (if src.master = 4 then 0 else 1 : Fin 2) = p := by
    rw [hp]
    fin_cases p <;> rfl
  have hhold : s.dev.holdWrite src a w = s.dev.pairPush p ⟨txnVector (writeTxn src a w), some (src, a, w)⟩ 0 := by
    unfold Dev.holdWrite
    rw [hsrc, Option.isNone_iff_eq_none.mp hreset, hpair]
    rfl
  have hpush : s.dev.holdWrite src a w = s.dev.modPair p (fun x =>
      { x with delay := x.delay ++ [⟨txnVector (writeTxn src a w), some (src, a, w)⟩]
               resp := if takesResp (bits (txnVector (writeTxn src a w)) 112 3) then x.resp ++ [0] else x.resp
               stallAt := if x.delay.length = 1 then some s.dev.up else x.stallAt }) := by
    rw [hhold]
    exact if_neg (by rw [hdelay]; decide)
  refine .of_done hr.1 (hi.trans ((if_pos hh).trans (congrArg s.done hpush))) ⟨?_, rfl, rfl, rfl⟩
  refine (congrArg (fun x : Pair => x.delay) (getElem_put_same _ p _)).trans ?_
  simp only [hdelay]
  rfl

end

/-! ### The three writes of Madder a pair can hold back -/

theorem State.storeNow_mad {s : State} (hl : Live s) {src : Src} {a : Nat} {w : Word}
    (ha : a = Reg.MAD_HB_at ∨ a = Reg.MAD_REQ_at ∨ a = Reg.MAD_CFG_COMMIT_at) {o : Out} (ho : s.storeCore src a w = some o) : s.storeNow src a w = o := by
  have hdev : s.storeDevice src a w = none := by obtain rfl | rfl | rfl := ha <;> rfl
  have hvat : s.storeVat src a w = none := by
    unfold State.storeVat
    obtain rfl | rfl | rfl := ha <;> split <;> rfl
  have hnet : s.storeNet src a w = none := by
    unfold State.storeNet
    obtain rfl | rfl | rfl := ha <;> split <;> rfl
  unfold State.storeNow
  rw [if_neg (by rw [hl]; decide), hdev, hvat, hnet, ho]
  rfl

theorem RF.AtMadder.offMatched {r : RF} (h : r.AtMadder) : r.OffMatched := ⟨h.1, .inr (.inl (Nat.le_trans (by decide) h.2))⟩

section
variable {d e : Dev} (h : Dev.Matched d e)
include h

theorem Dev.Matched.madField {r : RF} (hr : r.AtMadder) : e.f r = d.f r := h.keeps r hr.offMatched
theorem Dev.Matched.sf1 : e.sf1 = d.sf1 := h.madField ⟨by decide, by decide⟩
theorem Dev.Matched.ob (n : Nat) : e.ob n = d.ob n := congrArg (fun x => bits x (2 * n) 2) (h.madField ⟨by decide, by decide⟩)

theorem Dev.Matched.pairState (p : Nat) : e.f (Reg.LS_STAT_STATE p) = d.f (Reg.LS_STAT_STATE p) :=
  h.keeps _ ⟨Nat.le_of_ble_eq_true rfl, .inr (.inr (by simp only [Reg.LS_STAT_STATE, Reg.LS_STAT_at]; omega))⟩

theorem Dev.Matched.expired (n : Fin 6) : (e.cores[n]).expired = (d.cores[n]).expired := by rw [h.cores]

omit h in
/-- The rows of the staged words hold fields of Madder's block only. -/
theorem Reg.madStagedRows : ((List.range 10).all (fun i => match Reg.row (Reg.MAD_IN_CFG_at 0 + 4 * i) with
    | some row => row.fields.all (fun f => (f.sel row.base (Reg.MAD_IN_CFG_at 0 + 4 * i)).lo < 32 &&
        decide (0x200C0000 ≤ (f.sel row.base (Reg.MAD_IN_CFG_at 0 + 4 * i)).addr))
    | none => true)) = true := by
  decide +kernel

theorem Dev.Matched.madStaged : e.madStaged = d.madStaged := by
  refine List.map_congr_left fun i hi => ?_
  have hrow := List.all_eq_true.mp Reg.madStagedRows i hi
  split
  next row heq =>
    rw [heq] at hrow
    unfold Dev.rowWord
    refine List.foldl_ext _ _ _ fun x f hf => ?_
    have hfield := List.all_eq_true.mp hrow f hf
    simp only [Bool.and_eq_true, decide_eq_true_eq] at hfield
    rw [h.madField hfield]
  next => rfl

end

/-! ### Heartbeats (R384) -/

section
variable {d : Dev} {p w : Nat} (hexp : (d.cores[(if p = 0 then 4 else 5 : Fin 6)]).expired = false)
include hexp

/-- The device once a beat has shown whether its pair is compared. -/
def Dev.beatShown (d : Dev) (p : Nat) : Dev := d.setB Reg.MAD_HB_STAT_UNCHECKED (d.f (Reg.LS_STAT_STATE p) == 2)

/-- A beat is accepted (R384). -/
def Dev.BeatGood (d : Dev) (p w : Nat) : Prop :=
  d.f Reg.MAD_HB_STAT_PAIR = p ∧ d.f (Reg.LS_STAT_STATE p) ≠ 2 ∧ bits w 8 8 = 255 - bits w 0 8 ∧
    (d.mad.moved = true ∨ bits w 0 8 = (d.f Reg.MAD_HB_STAT_LAST + 1) % 256)

omit hexp in
theorem Dev.f_beatShown (d : Dev) (p : Nat) {r : RF} (hl : r.lo < 32) (h : ¬(r.addr = Reg.MAD_HB_STAT_at ∧ r.lo = 1)) :
    (d.beatShown p).f r = d.f r := Dev.f_setB_off _ _ (by decide) hl h

theorem Dev.beat_good (hg : d.BeatGood p w) : d.beat p w =
    (((d.beatShown p).setF Reg.MAD_HB_STAT_LAST (bits w 0 8)).setF Reg.MAD_STAT_HB_OK 1).modMad (fun m =>
      { m with beatAt := some d.up, hbActed := false, moved := false }) := by
  obtain ⟨hpair, hstate, hneg, hseq⟩ := hg
  unfold Dev.beat
  rw [if_neg (by rw [hexp]; decide)]
  refine if_pos ⟨?_, by simpa using hstate, hneg, ?_⟩
  · exact (d.f_beatShown p (by decide) (by decide)).trans hpair
  · exact hseq.imp id (fun h => h.trans (congrArg (fun x => (x + 1) % 256) (d.f_beatShown p (by decide) (by decide)).symm))

theorem Dev.beat_bad (hg : ¬d.BeatGood p w) : d.beat p w = (d.beatShown p).bump Reg.MAD_CNT_HB_REJ_COUNT := by
  unfold Dev.beat
  rw [if_neg (by rw [hexp]; decide)]
  refine if_neg fun ⟨hpair, hstate, hneg, hseq⟩ => hg ⟨?_, by simpa using hstate, hneg, ?_⟩
  · exact (d.f_beatShown p (by decide) (by decide)).symm.trans hpair
  · exact hseq.imp id (fun h => h.trans (congrArg (fun x => (x + 1) % 256) (d.f_beatShown p (by decide) (by decide))))

end

theorem Dev.Matched.beatGood {d e : Dev} (h : Dev.Matched d e) {p w : Nat} : e.BeatGood p w ↔ d.BeatGood p w := by
  unfold Dev.BeatGood
  rw [h.madField ⟨by decide, by decide⟩, h.pairState, h.mad, h.madField (r := Reg.MAD_HB_STAT_LAST) ⟨by decide, by decide⟩]

section
variable {s : State} {src : Src} {w : Word} (hr : Reaches s src Reg.MAD_HB_at)
  (hexp : (s.dev.cores[(if src.master.1 - 4 = 0 then 4 else 5 : Fin 6)]).expired = false)
include hr hexp

omit hexp in
theorem heartbeat_writes {P : State → Prop}
    (hP : ∀ u : State, Dev.Matched s.dev u.dev → P (u.commit ((u.dev.answer 0).beat (src.master.1 - 4) w.toNat))) :
    WriteDoes s src Reg.MAD_HB_at w (.heartbeat src w) P :=
  .of_madWrite hr (by decide) rfl (fun _ hu => State.storeNow_mad hu (.inl rfl) rfl) hP

theorem heartbeat_accepted (hg : s.dev.BeatGood (src.master.1 - 4) w.toNat) :
    WriteDoes s src Reg.MAD_HB_at w (.heartbeat src w) (fun t => t.dev.mad.beatAt = some s.dev.up ∧
      t.dev.f Reg.MAD_HB_STAT_LAST = bits w.toNat 0 8 ∧ t.dev.bit Reg.MAD_STAT_HB_OK = true ∧ t.dev.mad.hbActed = false) := by
  refine heartbeat_writes hr fun u hu => ?_
  rw [Dev.beat_good (d := u.dev.answer 0) ((hu.expired _).trans hexp) (hu.beatGood.mpr hg)]
  refine ⟨congrArg some hu.up, ?_, ?_, rfl⟩
  · have hlast : ∀ (e : Dev) (x : Nat), ((e.setF Reg.MAD_HB_STAT_LAST x).setF Reg.MAD_STAT_HB_OK 1).f Reg.MAD_HB_STAT_LAST = x % 2 ^ 8 := fun e x =>
      (Dev.f_setF_off _ _ (by decide) (by decide) (by decide)).trans (Dev.f_setF_same _ _ _)
    exact (hlast _ _).trans (Nat.mod_eq_of_lt (Nat.mod_lt _ (by decide)))
  · exact congrArg (· == 1) (Dev.f_setF_same _ Reg.MAD_STAT_HB_OK 1)

theorem heartbeat_rejected (hg : ¬s.dev.BeatGood (src.master.1 - 4) w.toNat) :
    WriteDoes s src Reg.MAD_HB_at w (.heartbeat src w) (fun t => t.dev.mad = s.dev.mad ∧
      t.dev.f Reg.MAD_CNT_HB_REJ_COUNT = min (2 ^ 32 - 1) (s.dev.f Reg.MAD_CNT_HB_REJ_COUNT + 1)) := by
  refine heartbeat_writes hr fun u hu => ?_
  rw [Dev.beat_bad (d := u.dev.answer 0) ((hu.expired _).trans hexp) (fun h => hg (hu.beatGood.mp h))]
  refine ⟨hu.mad, (Dev.f_bump_same _ _ _).trans (congrArg (fun x => min (2 ^ 32 - 1) (x + 1)) ?_)⟩
  exact ((u.dev.answer 0).f_beatShown _ (by decide) (by decide)).trans (hu.madField ⟨by decide, by decide⟩)

end

/-! ### Safety requests (R386) -/

theorem Dev.safetyRequest_unconfirmed (d : Dev) {src : Src} {w : Nat} (hc : bits w 16 16 ≠ 0x5AFE) : (d.safetyRequest src w).mad = d.mad := by
  unfold Dev.safetyRequest
  rw [if_pos hc]
  exact (d.logR9_reports src Reg.MAD_REQ_at).mad

section
variable {s : State} {src : Src} {w : Word} (hr : Reaches s src Reg.MAD_REQ_at)
include hr

theorem safetyRequest_writes {P : State → Prop}
    (hP : ∀ u : State, Dev.Matched s.dev u.dev → P (u.commit ((u.dev.answer 0).safetyRequest src w.toNat))) :
    WriteDoes s src Reg.MAD_REQ_at w (.safetyRequest src w) P :=
  .of_madWrite hr (by decide) rfl (fun _ hu => State.storeNow_mad hu (.inr (.inl rfl)) rfl) hP

theorem safetyRequest_confirmed (hc : bits w.toNat 16 16 = 0x5AFE) (hn : w.toNat.testBit 0 = true ∨ bits w.toNat 4 4 ≠ 0) :
    WriteDoes s src Reg.MAD_REQ_at w (.safetyRequest src w) (fun t => t.dev.mad.req = some (s.dev.mad.req.getD 0 ||| bits w.toNat 4 4)) := by
  refine safetyRequest_writes hr fun u hu => ?_
  have hreq : (u.dev.answer 0).safetyRequest src w.toNat =
      (u.dev.answer 0).modMad (fun m => { m with req := some (m.req.getD 0 ||| bits w.toNat 4 4) }) :=
    (if_neg (not_not.mpr hc)).trans (if_pos hn)
  rw [hreq]
  exact congrArg (fun m : Mad => some (m.req.getD 0 ||| bits w.toNat 4 4)) hu.mad

theorem safetyRequest_unconfirmed (hc : bits w.toNat 16 16 ≠ 0x5AFE) :
    WriteDoes s src Reg.MAD_REQ_at w (.safetyRequest src w) (fun t => t.dev.mad = s.dev.mad) := by
  exact safetyRequest_writes hr fun u hu => ((u.dev.answer 0).safetyRequest_unconfirmed hc).trans hu.mad

end

/-! ### Putting the staged set in force (R393) -/

/-- The staged set may be put in force (R393). -/
def Dev.CommitOk (d : Dev) : Prop :=
  (d.sf1 = 0 ∨ d.sf1 = 3) ∧ (∀ n < 4, d.ob n = 0 ∨ d.ob n = 3) ∧
    crc32 (d.madStaged.flatMap (leBytes 4)) = d.f Reg.MAD_CFG_CRC_CRC ∧ madRanges d.madStaged = true

theorem Dev.Matched.commitOk {d e : Dev} (h : Dev.Matched d e) : e.CommitOk ↔ d.CommitOk := by
  unfold Dev.CommitOk
  rw [h.sf1, h.madStaged, h.madField ⟨by decide, by decide⟩]
  simp only [h.ob]

theorem allOff_iff (d : Dev) : (List.range 4).all (fun n => d.ob n == 0 || d.ob n == 3) = true ↔ ∀ n < 4, d.ob n = 0 ∨ d.ob n = 3 := by
  simp [List.all_eq_true, List.mem_range]

theorem Dev.madCommit_ok {d : Dev} (h : d.CommitOk) : d.madCommit =
    (if d.mad.beatAt.isNone && !d.mad.moved then
        (d.setF Reg.MAD_CFG_ACT_CRC_CRC (crc32 (d.madStaged.flatMap (leBytes 4)))).setF Reg.MAD_HB_STAT_PAIR (d.madStaged.getD 9 0 % 2)
      else d.setF Reg.MAD_CFG_ACT_CRC_CRC (crc32 (d.madStaged.flatMap (leBytes 4)))).modMad (fun m =>
        { m with cfgA := d.madStaged, cfgB := d.madStaged }) :=
  if_pos ⟨h.1, (allOff_iff d).mpr h.2.1, h.2.2.1, h.2.2.2⟩

theorem Dev.madCommit_refused {d : Dev} (h : ¬d.CommitOk) : d.madCommit = d.madEvt Reg.MAD_EVT_CFG_FAIL :=
  if_neg fun hc => h ⟨hc.1, (allOff_iff d).mp hc.2.1, hc.2.2.1, hc.2.2.2⟩

theorem Dev.madCommit_takes {d : Dev} (h : d.CommitOk) : d.madCommit.mad.cfgA = d.madStaged ∧ d.madCommit.mad.cfgB = d.madStaged ∧
    d.madCommit.f Reg.MAD_CFG_ACT_CRC_CRC = crc32 (d.madStaged.flatMap (leBytes 4)) % 2 ^ 32 := by
  rw [Dev.madCommit_ok h]
  refine ⟨rfl, rfl, ?_⟩
  split
  · exact (Dev.f_setF_off (d.setF _ _) _ (by decide) (by decide) (by decide)).trans (Dev.f_setF_same _ Reg.MAD_CFG_ACT_CRC_CRC _)
  · exact Dev.f_setF_same _ Reg.MAD_CFG_ACT_CRC_CRC _

/-- What Madder reports shows in its event register (R433). -/
theorem Dev.tb_madEvt (d : Dev) {e : RF} (hl : e.lo < 32) (ha : e.addr = Reg.MAD_EVT_at) (hw : e.w = 1) : (d.madEvt e).tb e 0 = true := by
  have hoff : e.addr < 0x20004000 ∨ 0x20004800 ≤ e.addr := .inr (by rw [ha]; decide)
  exact (Dev.tb_of_f (Dev.f_linkLog_off _ _ _ _ _ hl hoff) 0).trans
    (Dev.tb_linkRaise _ _ (by decide) hoff hl (by rw [hw]; decide) (by decide))

section
variable {s : State} {src : Src} {w : Word} (hr : Reaches s src Reg.MAD_CFG_COMMIT_at) (hgo : w.toNat.testBit 0 = true)
include hr hgo

theorem cfgCommit_writes {P : State → Prop} (hP : ∀ u : State, Dev.Matched s.dev u.dev → P (u.commit (u.dev.answer 0).madCommit)) :
    WriteDoes s src Reg.MAD_CFG_COMMIT_at w (.cfgCommit src w) P :=
  .of_madWrite hr (by decide) (F := fun d => if w.toNat.testBit 0 then d.madCommit else d) rfl
    (fun _ hu => State.storeNow_mad hu (.inr (.inr rfl)) rfl) fun u hu => by
      rw [if_pos hgo]
      exact hP u hu

theorem cfgCommit_taken (hok : s.dev.CommitOk) : WriteDoes s src Reg.MAD_CFG_COMMIT_at w (.cfgCommit src w) (fun t =>
    t.dev.mad.cfgA = s.dev.madStaged ∧ t.dev.mad.cfgB = s.dev.madStaged ∧
      t.dev.f Reg.MAD_CFG_ACT_CRC_CRC = crc32 (s.dev.madStaged.flatMap (leBytes 4)) % 2 ^ 32) := by
  refine cfgCommit_writes hr hgo fun u hu => ?_
  have hm : Dev.Matched s.dev (u.dev.answer 0) := hu.trans ⟨.refl _, fun _ h => h, rfl, rfl, rfl, rfl⟩
  have htakes := Dev.madCommit_takes (hm.commitOk.mpr hok)
  rw [hm.madStaged] at htakes
  exact htakes

theorem cfgCommit_refused (hok : ¬s.dev.CommitOk) : WriteDoes s src Reg.MAD_CFG_COMMIT_at w (.cfgCommit src w) (fun t =>
    t.dev.mad = s.dev.mad ∧ t.dev.tb Reg.MAD_EVT_CFG_FAIL 0 = true) := by
  refine cfgCommit_writes hr hgo fun u hu => ?_
  have hm : Dev.Matched s.dev (u.dev.answer 0) := hu.trans ⟨.refl _, fun _ h => h, rfl, rfl, rfl, rfl⟩
  rw [Dev.madCommit_refused fun h => hok (hm.commitOk.mp h)]
  exact ⟨(Dev.madEvt_mad _ _).trans hm.mad, Dev.tb_madEvt _ (by decide) rfl rfl⟩

end

end Sys2Proof.Machine
end

section
/-!
PROOF. Madder's test pulses and the re-arm sequence (R387–R391).
-/

namespace Sys2Proof.Machine
open Sys2Proof

/-! ### Test pulses (R387, R388) -/

theorem Dev.testPulse_due {d : Dev} {o : Fin 8} (hon : d.outOn o = true) (hp : d.mad.pulse = none)
    (ht : (d.mad.testAt[o]) + 40000000 * bits (d.mcfg 8) 8 8 ≤ d.up) : d.testPulse o =
      d.modMad (fun m => { m with pulse := some { out := o, low := m.testLow[o], at_ := d.up }, testAt := put m.testAt o d.up }) := by
  refine if_pos ⟨hon, by rw [hp]; rfl, ?_⟩
  simpa only [msTicks, Nat.reduceMul] using ht

theorem testPulse_starts {s : State} {o : Fin 8} (hon : s.dev.outOn o = true) (hp : s.dev.mad.pulse = none)
    (ht : (s.dev.mad.testAt[o]) + 40000000 * bits (s.dev.mcfg 8) 8 8 ≤ s.dev.up) :
    Answers (.testPulse o) s (fun t => t.dev.mad.pulse = some ⟨o, s.dev.mad.testLow[o], s.dev.up, false⟩ ∧
      t.dev.mad.testAt[o] = s.dev.up) :=
  .of_donePower (congrArg s.donePower (Dev.testPulse_due hon hp ht)) ⟨rfl, getElem_put_same _ _ _⟩

/-- The end of a test pulse: the other level is tested next time (R387, R382). -/
def Dev.pulseOver (d : Dev) (p : MadPulse) : Dev :=
  (if h : 4 ≤ p.out.1 then
    (d.modMad (fun m => { m with pulse := none })).modMad (fun m =>
      { m with obAt := put m.obAt ⟨p.out.1 - 4, by have := p.out.2; omega⟩ d.up })
  else d.modMad (fun m => { m with pulse := none })).modMad (fun m => { m with testLow := put m.testLow p.out (!p.low) })

/-- The device of the result of a test pulse. -/
def Dev.pulseCounted (d : Dev) (p : MadPulse) (ok : Bool) : Dev :=
  if ok then (d.pulseOver p).bump Reg.MAD_CNT_TEST_OK_COUNT else (d.pulseOver p).failOut p.out

theorem Dev.pulseOver_keeps (d : Dev) (p : MadPulse) : (d.pulseOver p).mad.pulse = none ∧ (d.pulseOver p).mad.rearmDue = d.mad.rearmDue ∧
    (d.pulseOver p).mad.testLow[p.out] = !p.low ∧ (d.pulseOver p).regs = d.regs := by
  unfold Dev.pulseOver
  split <;> exact ⟨rfl, rfl, getElem_put_same _ _ _, rfl⟩

/-- What an output's failure leaves of the tests: no pulse and no re-arm sequence begins, and what waits for a pulse and the levels to test stay. -/
structure Dev.SamePulses (d e : Dev) : Prop where
  pulse : d.mad.pulse = none → e.mad.pulse = none
  due : e.mad.rearmDue = d.mad.rearmDue
  low : e.mad.testLow = d.mad.testLow
  rearm : d.mad.rearm = none → e.mad.rearm = none

section
variable {d e g : Dev}

theorem Dev.SamePulses.refl (d : Dev) : Dev.SamePulses d d := ⟨id, rfl, rfl, id⟩

theorem Dev.SamePulses.trans (h : Dev.SamePulses d e) (h' : Dev.SamePulses e g) : Dev.SamePulses d g :=
  ⟨fun hp => h'.pulse (h.pulse hp), h'.due.trans h.due, h'.low.trans h.low, fun hr => h'.rearm (h.rearm hr)⟩

theorem Dev.SamePulses.of_mad (h : e.mad = d.mad) : Dev.SamePulses d e := by
  constructor <;> rw [h]
  · exact id
  · exact id

theorem Dev.SamePulses.ite {c : Prop} [Decidable c] {a b : Dev} (ha : Dev.SamePulses d a) (hb : Dev.SamePulses d b) :
    Dev.SamePulses d (if c then a else b) := by
  split <;> assumption

theorem Dev.SamePulses.foldl {α : Type} {F : Dev → α → Dev} (h : ∀ d x, Dev.SamePulses d (F d x)) (l : List α) (d : Dev) : Dev.SamePulses d (l.foldl F d) :=
  List.foldlRecOn l F (motive := Dev.SamePulses d) (.refl d) (fun e he x _ => he.trans (h e x))

end

theorem Dev.setOb_samePulses (d : Dev) (n : Fin 4) (x : Nat) : Dev.SamePulses d (d.setOb n x) := .ite (.of_mad rfl) ⟨id, rfl, rfl, id⟩

theorem Dev.setSf1_samePulses (d : Dev) (x : Nat) : Dev.SamePulses d (d.setSf1 x) := by
  rw [Dev.setSf1_eq]
  refine .ite (Dev.SamePulses.trans (e := (d.showSf1 x).modMad (fun m => { m with told := false })) ⟨id, rfl, rfl, id⟩ ?_) (.of_mad rfl)
  exact .of_mad (Dev.auxSafeOff_same _).1

theorem Dev.discardPulse_samePulses (d : Dev) (hit : Fin 8 → Bool) : Dev.SamePulses d (d.discardPulse hit) := by
  unfold Dev.discardPulse
  split
  next hp => exact .ite ⟨fun h => absurd (hp.symm.trans h) (by simp), rfl, rfl, id⟩ (.refl d)
  next => exact .refl d

theorem Dev.abandonRearm_samePulses (d : Dev) : Dev.SamePulses d d.abandonRearm := by
  unfold Dev.abandonRearm
  split
  next mask _ =>
    have hstop : Dev.SamePulses d ((List.finRange 4).foldl (fun d n => if mask.testBit n.1 ∧ d.ob n.1 = 2 then d.setOb n 0 else d) d) :=
      .foldl (fun e n => .ite (e.setOb_samePulses n 0) (.refl e)) _ d
    have hmad : ∀ e : Dev, Dev.SamePulses e (e.modMad (fun m => { m with rearm := none })) := fun e => ⟨id, rfl, rfl, fun _ => rfl⟩
    exact (hstop.trans (hmad _)).trans (Dev.discardPulse_samePulses _ _)
  next => exact .refl d

theorem Dev.actSf1_samePulses (d : Dev) : Dev.SamePulses d d.actSf1 :=
  ((d.discardPulse_samePulses _).trans (.ite (Dev.setSf1_samePulses _ 0) (.refl _))).trans (Dev.abandonRearm_samePulses _)

theorem Dev.failOut_samePulses (d : Dev) (o : Fin 8) : Dev.SamePulses d (d.failOut o) := by
  have hcount : Dev.SamePulses d (d.bump Reg.MAD_CNT_TEST_FAIL_COUNT) := .of_mad rfl
  have hflt : ∀ e : Dev, Dev.SamePulses e (e.setTb Reg.MAD_STAT_SOA_FLT o.1 true) := fun _ => .of_mad rfl
  unfold Dev.failOut
  refine Dev.SamePulses.trans (hcount.trans ?_) (.of_mad (Dev.madEvt_mad _ _))
  split
  · exact Dev.setOb_samePulses _ _ _
  · exact ((hflt _).trans (Dev.actSf1_samePulses _)).trans (Dev.setSf1_samePulses _ _)

/-- An output that fails is LOCKED: a Class A one takes SF1 with it (R388). -/
theorem Dev.failOut_locks (d : Dev) (o : Fin 8) : if o.1 < 4 then (d.failOut o).sf1 = 3 else (d.failOut o).ob (o.1 - 4) = 3 := by
  have hevt : ∀ e : Dev, (e.madEvt Reg.MAD_EVT_TEST_FAIL).sf1 = e.sf1 ∧ ∀ n, (e.madEvt Reg.MAD_EVT_TEST_FAIL).ob n = e.ob n := fun e =>
    ⟨e.f_madEvt_off (by decide) (by decide) (by decide) (by decide),
      fun n => congrArg (fun x => bits x (2 * n) 2) (e.f_madEvt_off (by decide) (by decide) (by decide) (by decide))⟩
  split
  next h =>
    unfold Dev.failOut
    rw [(hevt _).1, dif_neg (by omega)]
    exact Dev.sf1_setSf1 _ 3
  next h =>
    unfold Dev.failOut
    rw [(hevt _).2, dif_pos (by omega)]
    exact (Dev.ob_setOb _ _ ⟨o.1 - 4, by omega⟩ (by decide)).trans (if_pos rfl)

theorem Dev.pulseCounted_keeps (d : Dev) (p : MadPulse) (ok : Bool) : (d.pulseCounted p ok).mad.pulse = none ∧
    (d.pulseCounted p ok).mad.rearmDue = d.mad.rearmDue ∧ (d.pulseCounted p ok).mad.testLow[p.out] = !p.low := by
  obtain ⟨hpulse, hdue, hlow, -⟩ := d.pulseOver_keeps p
  have hsame : Dev.SamePulses (d.pulseOver p) (d.pulseCounted p ok) := .ite (.of_mad rfl) (Dev.failOut_samePulses _ _)
  exact ⟨hsame.pulse hpulse, hsame.due.trans hdue, (congrArg (fun l : Vector Bool 8 => l[p.out]) hsame.low).trans hlow⟩

theorem Dev.pulseCounted_passes (d : Dev) (p : MadPulse) :
    (d.pulseCounted p true).f Reg.MAD_CNT_TEST_OK_COUNT = min (2 ^ 32 - 1) (d.f Reg.MAD_CNT_TEST_OK_COUNT + 1) := by
  have hcount : (d.pulseCounted p true).f Reg.MAD_CNT_TEST_OK_COUNT =
      min (2 ^ Reg.MAD_CNT_TEST_OK_COUNT.w - 1) ((d.pulseOver p).f Reg.MAD_CNT_TEST_OK_COUNT + 1) := Dev.f_bump_same _ _ _
  rw [hcount, Dev.f_of_regs (d.pulseOver_keeps p).2.2.2]
  rfl

theorem Dev.pulseCounted_fails (d : Dev) (p : MadPulse) :
    if p.out.1 < 4 then (d.pulseCounted p false).sf1 = 3 else (d.pulseCounted p false).ob (p.out.1 - 4) = 3 := by
  unfold Dev.pulseCounted
  rw [if_neg Bool.false_ne_true]
  exact (d.pulseOver p).failOut_locks p.out

theorem Dev.testPulseEnd_counts {d : Dev} {p : MadPulse} (hp : d.mad.pulse = some p) (hd : p.discard = false) (hdue : d.mad.rearmDue = none)
    (ht : p.at_ + 400 * bits (d.mcfg 8) 16 9 ≤ d.up) (ok : Bool) : d.testPulseEnd ok = d.pulseCounted p ok := by
  unfold Dev.testPulseEnd
  rw [hp]
  simp only [if_neg (Nat.not_lt.mpr ht), hd, Bool.false_eq_true, if_false]
  change (match (d.pulseCounted p ok).mad.rearmDue with
    | some pass => ((d.pulseCounted p ok).modMad (fun m => { m with rearmDue := none })).rearm pass
    | none => d.pulseCounted p ok) = _
  rw [(d.pulseCounted_keeps p ok).2.1, hdue]

theorem testPulse_ends {s : State} {p : MadPulse} {ok : Bool} (hp : s.dev.mad.pulse = some p) (hd : p.discard = false) (hdue : s.dev.mad.rearmDue = none)
    (ht : p.at_ + 400 * bits (s.dev.mcfg 8) 16 9 ≤ s.dev.up) :
    Answers (.testPulseEnd ok) s (fun t => t.dev.mad.pulse = none ∧ t.dev.mad.testLow[p.out] = !p.low ∧
      (ok = true → t.dev.f Reg.MAD_CNT_TEST_OK_COUNT = min (2 ^ 32 - 1) (s.dev.f Reg.MAD_CNT_TEST_OK_COUNT + 1)) ∧
      (ok = false → if p.out.1 < 4 then t.dev.sf1 = 3 else t.dev.ob (p.out.1 - 4) = 3)) := by
  obtain ⟨hpulse, -, hlow⟩ := s.dev.pulseCounted_keeps p ok
  have hexec : exec (.testPulseEnd ok) s = s.donePower (s.dev.pulseCounted p ok) :=
    congrArg s.donePower (Dev.testPulseEnd_counts hp hd hdue ht ok)
  have hpass := s.dev.pulseCounted_passes p
  have hfail := s.dev.pulseCounted_fails p
  refine .of_donePower hexec ⟨hpulse, hlow, fun hok => ?_, fun hok => ?_⟩
  · rw [← hok] at hpass
    exact hpass
  · rw [← hok] at hfail
    exact hfail

/-! ### The re-arm sequence (R389–R391) -/

/-- The conditions of re-arming hold (R391). -/
def Dev.RearmOk (d : Dev) : Prop :=
  d.f Reg.MAD_IN_DEMAND = 0 ∧ d.f Reg.MAD_IN_DISC = 0 ∧ d.mad.beatAt.isSome = true ∧ d.up < d.mad.beatAt.getD 0 + d.hbTo ∧ d.mad.req = none ∧
    d.sup.vaux = true ∧ d.mad.hard = false ∧ ∀ n < 4, d.sobEn n = true → d.tb Reg.MAD_STAT_FB n = true

/-- The test of those conditions. -/
def Dev.rearmTest (d : Dev) : Bool :=
  d.f Reg.MAD_IN_DEMAND == 0 && d.f Reg.MAD_IN_DISC == 0 && d.mad.beatAt.isSome && decide (d.up < d.mad.beatAt.getD 0 + d.hbTo) &&
    d.mad.req.isNone && d.sup.vaux && !d.mad.hard && (List.range 4).all (fun n => !d.sobEn n || d.tb Reg.MAD_STAT_FB n)

theorem Dev.rearmTest_iff (d : Dev) : d.rearmTest = true ↔ d.RearmOk := by
  unfold Dev.rearmTest Dev.RearmOk
  simp only [Bool.and_eq_true, beq_iff_eq, decide_eq_true_eq, Option.isNone_iff_eq_none, Bool.not_eq_true', List.all_eq_true, List.mem_range,
    Bool.or_eq_true, and_assoc]
  simp only [← Bool.not_eq_true, ← imp_iff_not_or]

/-- A Class B output is armed where it is in use and off. -/
def Dev.obArmed (pass : Nat) (d : Dev) (n : Fin 4) : Dev := if d.sobEn n.1 ∧ d.ob n.1 ≠ 2 then d.armOb n pass else d

/-- The Class B outputs armed, the sequence waits for the feedbacks of those it has energized. -/
def Dev.armedFrom (before : Dev) (pass : Nat) : Dev :=
  let d := (List.finRange 4).foldl (Dev.obArmed pass) before
  let mask := ((List.range 4).map (fun n => if d.ob n = 2 ∧ before.ob n ≠ 2 then 2 ^ n else 0)).sum
  d.modMad (fun m => { m with rearm := some (d.up, mask), hbActed := false })

theorem Dev.rearm_eq (d : Dev) (pass : Nat) : d.rearm pass =
    if !d.rearmTest then d.madEvt Reg.MAD_EVT_REARM_REFUSED
    else if d.sf1 = 1 ∨ (d.sf1 = 2 ∧ (List.range 4).all (fun n => !d.sobEn n || d.ob n == 2)) then d
    else (if d.sf1 = 2 then d else d.setSf1 1).armedFrom pass := rfl

theorem Dev.rearm_refused {d : Dev} (h : ¬d.RearmOk) (pass : Nat) : d.rearm pass = d.madEvt Reg.MAD_EVT_REARM_REFUSED := by
  have ht : d.rearmTest = false := Bool.eq_false_iff.mpr fun hc => h (d.rearmTest_iff.mp hc)
  rw [Dev.rearm_eq, ht]
  exact if_pos rfl

theorem Dev.rearm_runs {d : Dev} (h : d.RearmOk) (hs : d.sf1 = 0 ∨ d.sf1 = 3 ∨ (d.sf1 = 2 ∧ ∃ n < 4, d.sobEn n = true ∧ d.ob n = 3)) (pass : Nat) :
    d.rearm pass = (if d.sf1 = 2 then d else d.setSf1 1).armedFrom pass := by
  rw [Dev.rearm_eq, d.rearmTest_iff.mpr h, if_neg (by decide)]
  refine if_neg ?_
  rintro (h1 | ⟨h2, hall⟩)
  · omega
  · obtain h0 | h0 | ⟨-, n, hn, hen, hob⟩ := hs
    · omega
    · omega
    · have hn2 := List.all_eq_true.mp hall n (List.mem_range.mpr hn)
      rw [hen, hob] at hn2
      exact absurd hn2 (by decide)

theorem Dev.setOb_cfg (d : Dev) (n : Fin 4) (x : Nat) : (d.setOb n x).mad.cfgA = d.mad.cfgA := by
  unfold Dev.setOb
  exact apply_ite (fun e : Dev => e.mad.cfgA) _ _ _ |>.trans (ite_self _)

section
variable {pass : Nat} (hpass : ∀ n < 4, pass.testBit (4 + n) = true)
include hpass

theorem Dev.armOb_passes (d : Dev) (n : Fin 4) : (d.armOb n pass).sf1 = d.sf1 ∧ (d.armOb n pass).mad.cfgA = d.mad.cfgA ∧
    ∀ m : Fin 4, (d.armOb n pass).ob m.1 = if m = n then 2 else d.ob m.1 := by
  have harm : ∃ g : Mad → Mad, d.armOb n pass = (d.setOb n 2).modMad g ∧ ∀ m, (g m).cfgA = m.cfgA := by
    refine ⟨_, if_pos ?_, fun _ => rfl⟩
    show pass.testBit (n.1 + 4) = true
    rw [Nat.add_comm]
    exact hpass n.1 n.2
  obtain ⟨g, hg, hcfg⟩ := harm
  rw [hg]
  refine ⟨d.f_setOb_off n 2 (by decide) (by decide), ?_, fun m => d.ob_setOb n m (by decide)⟩
  exact (hcfg _).trans (d.setOb_cfg n 2)

/-- Every Class B output in use is energized once all have passed (R391). -/
theorem Dev.foldl_obArmed (d : Dev) : ((List.finRange 4).foldl (Dev.obArmed pass) d).sf1 = d.sf1 ∧
    ∀ n < 4, d.sobEn n = true → ((List.finRange 4).foldl (Dev.obArmed pass) d).ob n = 2 := by
  have step : ∀ (e : Dev) (n : Fin 4), (Dev.obArmed pass e n).sf1 = e.sf1 ∧ (Dev.obArmed pass e n).mad.cfgA = e.mad.cfgA ∧
      (e.sobEn n.1 = true → (Dev.obArmed pass e n).ob n.1 = 2) ∧ ∀ m : Fin 4, e.ob m.1 = 2 → (Dev.obArmed pass e n).ob m.1 = 2 := fun e n => by
    obtain ⟨hsf, hcfg, hob⟩ := e.armOb_passes hpass n
    unfold Dev.obArmed
    split
    next =>
      refine ⟨hsf, hcfg, fun _ => (hob n).trans (if_pos rfl), fun m hm => ?_⟩
      rw [hob m]
      split
      · rfl
      · exact hm
    next h => exact ⟨rfl, rfl, fun hen => not_not.mp fun hc => h ⟨hen, hc⟩, fun _ hm => hm⟩
  refine ⟨List.foldlRecOn _ _ (motive := fun e : Dev => e.sf1 = d.sf1) rfl fun e he n _ => (step e n).1.trans he, fun n hn hen => ?_⟩
  refine foldl_establishes (I := fun e : Dev => e.mad.cfgA = d.mad.cfgA) (P := fun e : Dev => e.ob n = 2) (a := (⟨n, hn⟩ : Fin 4))
    (fun e m he => (step e m).2.1.trans he) (fun e he => (step e ⟨n, hn⟩).2.2.1 ?_) (fun e m _ he => (step e m).2.2.2 ⟨n, hn⟩ he) _
    (List.mem_finRange _) d rfl
  exact (congrArg (fun l : List Nat => (l.getD 9 0).testBit (1 + n)) he).trans hen

end

theorem Dev.armedFrom_sf1 (d : Dev) (pass : Nat) : (d.armedFrom pass).sf1 = ((List.finRange 4).foldl (Dev.obArmed pass) d).sf1 := rfl
theorem Dev.armedFrom_ob (d : Dev) (pass n : Nat) : (d.armedFrom pass).ob n = ((List.finRange 4).foldl (Dev.obArmed pass) d).ob n := rfl

section
variable {s : State} {us pass : Nat}

theorem srstPulse_ignored (hus : us < 50000 ∨ 3000000 < us) :
    Answers (.srstPulse us pass) s (fun t => t.dev.mad = s.dev.mad ∧ t.dev.sf1 = s.dev.sf1) := by
  have hlog : s.dev.srstPulse us pass = s.dev.linkLog 0x0A 62 (evInfo (Config.logKind 4)) s.dev.sf1 := if_pos hus
  refine .of_donePower (congrArg s.donePower hlog) ⟨Dev.linkLog_mad _ _ _ _ _, ?_⟩
  exact Dev.f_linkLog_off s.dev 0x0A 62 (evInfo (Config.logKind 4)) s.dev.sf1 (r := Reg.MAD_STAT_SF1) (by decide) (by decide)

theorem srstPulse_waits (hlo : 50000 ≤ us) (hhi : us ≤ 3000000) (hp : s.dev.mad.pulse.isSome = true) :
    Answers (.srstPulse us pass) s (fun t => t.dev.mad.rearmDue = some pass ∧ t.dev.sf1 = s.dev.sf1) :=
  .of_donePower (congrArg s.donePower ((if_neg (by omega)).trans (if_pos hp))) ⟨rfl, rfl⟩

/-- A pulse taken at once acts (R389, R390). -/
theorem srstPulse_acts (hlo : 50000 ≤ us) (hhi : us ≤ 3000000) (hp : s.dev.mad.pulse = none) {P : State → Prop}
    (hP : P (s.commit (s.dev.rearm pass))) : Answers (.srstPulse us pass) s P :=
  .of_donePower (congrArg s.donePower ((if_neg (by omega)).trans (if_neg (by rw [hp]; decide)))) hP

theorem srstPulse_refused (hlo : 50000 ≤ us) (hhi : us ≤ 3000000) (hp : s.dev.mad.pulse = none) (hok : ¬s.dev.RearmOk) :
    Answers (.srstPulse us pass) s (fun t => t.dev.mad = s.dev.mad ∧ t.dev.sf1 = s.dev.sf1 ∧ t.dev.tb Reg.MAD_EVT_REARM_REFUSED 0 = true) := by
  refine srstPulse_acts hlo hhi hp ?_
  rw [Dev.rearm_refused hok]
  exact ⟨Dev.madEvt_mad _ _, s.dev.f_madEvt_off (r := Reg.MAD_STAT_SF1) (by decide) (by decide) (by decide) (by decide),
    Dev.tb_madEvt _ (by decide) rfl rfl⟩

/-- Every output of a passing sequence is energized, and it waits for their feedbacks (R391). -/
theorem srstPulse_arms (hlo : 50000 ≤ us) (hhi : us ≤ 3000000) (hp : s.dev.mad.pulse = none) (hok : s.dev.RearmOk)
    (hs : s.dev.sf1 = 0 ∨ s.dev.sf1 = 3 ∨ (s.dev.sf1 = 2 ∧ ∃ n < 4, s.dev.sobEn n = true ∧ s.dev.ob n = 3))
    (hpass : ∀ n < 4, pass.testBit (4 + n) = true) :
    Answers (.srstPulse us pass) s (fun t => t.dev.sf1 = (if s.dev.sf1 = 2 then 2 else 1) ∧ t.dev.mad.rearm.isSome = true ∧
      ∀ n < 4, s.dev.sobEn n = true → t.dev.ob n = 2) := by
  refine srstPulse_acts hlo hhi hp ?_
  rw [Dev.rearm_runs hok hs]
  have hbegun : (if s.dev.sf1 = 2 then s.dev else s.dev.setSf1 1).sf1 = (if s.dev.sf1 = 2 then 2 else 1) ∧
      ∀ n, (if s.dev.sf1 = 2 then s.dev else s.dev.setSf1 1).sobEn n = s.dev.sobEn n := by
    split
    next h => exact ⟨h, fun _ => rfl⟩
    next => exact ⟨Dev.sf1_setSf1 _ 1, fun n => congrArg (fun l : List Nat => (l.getD 9 0).testBit (1 + n)) (s.dev.setSf1_sameTasks 1).cfg⟩
  generalize (if s.dev.sf1 = 2 then s.dev else s.dev.setSf1 1) = e at hbegun ⊢
  obtain ⟨hsf, hob⟩ := e.foldl_obArmed hpass
  refine ⟨?_, rfl, fun n hn hen => ?_⟩
  · rw [State.commit_sf1, Dev.armedFrom_sf1, hsf, hbegun.1]
  · rw [State.commit_ob, Dev.armedFrom_ob]
    exact hob n hn ((hbegun.2 n).trans hen)

end

/-! ### The feedbacks of the sequence (R391) -/

theorem Dev.safeStop_setSf1 (d : Dev) (x : Nat) : (d.setSf1 x).safeStop = (x != 2) := by
  obtain ⟨e, he, heq, -⟩ := d.setSf1_cases x
  unfold Dev.showSf1 at he
  have hbit : e.f Reg.MAD_STAT_SAFE_STOP = if x != 2 then 1 else 0 := (he _ ⟨by decide, by decide⟩).trans (Dev.f_setB_same _ _ _ (by decide))
  rw [heq]
  unfold Dev.safeStop Dev.bit
  rw [hbit]
  cases x != 2 <;> rfl

/-- A failing Class A output locks SF1 and leaves the safe stop in force (R388). -/
theorem Dev.failOut_classA (d : Dev) {o : Fin 8} (ho : o.1 < 4) : (d.failOut o).sf1 = 3 ∧ (d.failOut o).safeStop = true := by
  refine ⟨(if_pos ho).mp (d.failOut_locks o), ?_⟩
  have hevt : ∀ e : Dev, (e.madEvt Reg.MAD_EVT_TEST_FAIL).safeStop = e.safeStop := fun e =>
    Dev.bit_of_f (e.f_madEvt_off (by decide) (by decide) (by decide) (by decide))
  unfold Dev.failOut
  rw [hevt, dif_neg (by omega)]
  exact Dev.safeStop_setSf1 _ 3

/-- The sequence is over, the Class A outputs to be judged. -/
def Dev.sequenceOver (d : Dev) : Dev := (d.modMad (fun m => { m with rearm := none })).setF Reg.MAD_STAT_SOA_FLT 0

/-- The failing Class A outputs fail. -/
def Dev.classAFailed (d : Dev) (pass : Nat) : Dev :=
  (List.finRange 8).foldl (fun d o => if o.1 < 4 ∧ !pass.testBit o.1 then d.failOut o else d) d

theorem classA_failing {pass : Nat} (h : pass % 16 ≠ 15) : ∃ o : Fin 8, o.1 < 4 ∧ (!pass.testBit o.1) = true := by
  by_contra hno
  have hall : ∀ i < 4, (pass % 16).testBit i = true := fun i hi => by
    rw [show (16 : Nat) = 2 ^ 4 from rfl, Nat.testBit_mod_two_pow, decide_eq_true hi, Bool.true_and]
    by_contra hb
    exact hno ⟨⟨i, by omega⟩, hi, by simpa using hb⟩
  have hsmall : ∀ x : Nat, x < 16 → (∀ i < 4, x.testBit i = true) → x = 15 := by decide
  exact h (hsmall _ (Nat.mod_lt _ (by decide)) hall)

theorem Dev.classAFailed_locks (d : Dev) {pass : Nat} (hpass : pass % 16 ≠ 15) (hr : d.mad.rearm = none) :
    (d.classAFailed pass).sf1 = 3 ∧ (d.classAFailed pass).safeStop = true ∧ (d.classAFailed pass).mad.rearm = none := by
  obtain ⟨o, ho, hno⟩ := classA_failing hpass
  have hlock : (d.classAFailed pass).sf1 = 3 ∧ (d.classAFailed pass).safeStop = true := by
    refine foldl_establishes (I := fun _ => True) (P := fun e : Dev => e.sf1 = 3 ∧ e.safeStop = true) (fun _ _ _ => trivial) (fun e _ => ?_)
      (fun e m _ he => ?_) _ (List.mem_finRange o) d trivial
    · rw [if_pos ⟨ho, hno⟩]
      exact e.failOut_classA ho
    · split
      next hm => exact e.failOut_classA hm.1
      next => exact he
  have hsame : Dev.SamePulses d (d.classAFailed pass) := .foldl (fun e o => .ite (e.failOut_samePulses o) (.refl e)) _ d
  exact ⟨hlock.1, hlock.2, hsame.rearm hr⟩

/-- The Class A outputs are energized, the sequence having passed. -/
def Dev.classAEnergized (d : Dev) : Dev :=
  ((d.modMad (fun m => { m with testAt := putAll m.testAt (fun o t => if o.1 < 4 then d.up else t) })).setSf1 2).madEvt Reg.MAD_EVT_REARM_OK

theorem Dev.classAEnergized_spec (d : Dev) (hs : d.sf1 ≠ 2) (hr : d.mad.rearm = none) :
    d.classAEnergized.sf1 = 2 ∧ d.classAEnergized.safeStop = false ∧ d.classAEnergized.mad.rearm = none := by
  unfold Dev.classAEnergized
  generalize he : d.modMad _ = e
  have her : e.mad.rearm = none := by rw [← he]; exact hr
  refine ⟨?_, ?_, ?_⟩
  · exact (Dev.f_madEvt_off _ (r := Reg.MAD_STAT_SF1) (by decide) (by decide) (by decide) (by decide)).trans (Dev.sf1_setSf1 e 2)
  · exact (Dev.bit_of_f (Dev.f_madEvt_off _ (r := Reg.MAD_STAT_SAFE_STOP) (by decide) (by decide) (by decide) (by decide))).trans
      (Dev.safeStop_setSf1 e 2)
  · rw [Dev.madEvt_mad]
    exact (e.setSf1_samePulses 2).rearm her

theorem Dev.rearmFeedback_eq {d : Dev} {t0 mask : Nat} (hr : d.mad.rearm = some (t0, mask)) (fb pass : Nat) : d.rearmFeedback fb pass =
    if (fb &&& mask) % 16 ≠ 0 then d.setF Reg.MAD_STAT_FB fb
    else if (d.setF Reg.MAD_STAT_FB fb).sf1 = 2 then
      ((d.setF Reg.MAD_STAT_FB fb).modMad (fun m => { m with rearm := none })).madEvt Reg.MAD_EVT_REARM_OK
    else if pass % 16 = 15 then (d.setF Reg.MAD_STAT_FB fb).sequenceOver.classAEnergized
    else (d.setF Reg.MAD_STAT_FB fb).sequenceOver.classAFailed pass := by
  unfold Dev.rearmFeedback
  rw [hr]
  rfl

section
variable {s : State} {t0 mask fb pass : Nat} (hr : s.dev.mad.rearm = some (t0, mask))
include hr

theorem rearmFeedback_contradicted (hfb : (fb &&& mask) % 16 ≠ 0) :
    Answers (.rearmFeedback fb pass) s (fun t => t.dev.sf1 = s.dev.sf1 ∧ t.dev.mad = s.dev.mad) := by
  refine .of_donePower (congrArg s.donePower ((Dev.rearmFeedback_eq hr fb pass).trans (if_pos hfb))) ⟨?_, rfl⟩
  exact Dev.f_setF_off s.dev fb (r' := Reg.MAD_STAT_SF1) (by decide) (by decide) (by decide)

theorem rearmFeedback_energized (hfb : (fb &&& mask) % 16 = 0) (hs : s.dev.sf1 = 2) :
    Answers (.rearmFeedback fb pass) s (fun t => t.dev.mad.rearm = none ∧ t.dev.sf1 = 2 ∧ t.dev.tb Reg.MAD_EVT_REARM_OK 0 = true) := by
  have hshown : (s.dev.setF Reg.MAD_STAT_FB fb).sf1 = 2 :=
    (Dev.f_setF_off s.dev fb (r' := Reg.MAD_STAT_SF1) (by decide) (by decide) (by decide)).trans hs
  have heq := (Dev.rearmFeedback_eq hr fb pass).trans ((if_neg (not_not.mpr hfb)).trans (if_pos hshown))
  generalize s.dev.setF Reg.MAD_STAT_FB fb = d at hshown heq
  refine .of_donePower (congrArg s.donePower heq) ⟨?_, ?_, ?_⟩
  · rw [State.commit_mad, Dev.madEvt_mad]
    rfl
  · exact (Dev.f_madEvt_off _ (r := Reg.MAD_STAT_SF1) (by decide) (by decide) (by decide) (by decide)).trans hshown
  · exact Dev.tb_madEvt _ (by decide) rfl rfl

theorem rearmFeedback_tests (hfb : (fb &&& mask) % 16 = 0) (hs : s.dev.sf1 ≠ 2) :
    Answers (.rearmFeedback fb pass) s (fun t => t.dev.mad.rearm = none ∧ t.dev.sf1 = (if pass % 16 = 15 then 2 else 3) ∧
      t.dev.safeStop = !decide (pass % 16 = 15)) := by
  have hshown : (s.dev.setF Reg.MAD_STAT_FB fb).sf1 ≠ 2 := fun hc =>
    hs ((Dev.f_setF_off s.dev fb (r' := Reg.MAD_STAT_SF1) (by decide) (by decide) (by decide)).symm.trans hc)
  have heq := (Dev.rearmFeedback_eq hr fb pass).trans ((if_neg (not_not.mpr hfb)).trans (if_neg hshown))
  generalize s.dev.setF Reg.MAD_STAT_FB fb = d at hshown heq
  have hover : d.sequenceOver.sf1 ≠ 2 := fun hc =>
    hshown ((Dev.f_setF_off _ 0 (r' := Reg.MAD_STAT_SF1) (by decide) (by decide) (by decide)).symm.trans hc)
  by_cases hp : pass % 16 = 15
  · obtain ⟨h1, h2, h3⟩ := d.sequenceOver.classAEnergized_spec hover rfl
    refine .of_donePower (congrArg s.donePower (heq.trans (if_pos hp))) ⟨h3, ?_, ?_⟩
    · rw [if_pos hp]
      exact h1
    · rw [decide_eq_true hp]
      exact h2
  · obtain ⟨h1, h2, h3⟩ := d.sequenceOver.classAFailed_locks hp rfl
    refine .of_donePower (congrArg s.donePower (heq.trans (if_neg hp))) ⟨h3, ?_, ?_⟩
    · rw [if_neg hp]
      exact h1
    · rw [decide_eq_false hp]
      exact h2

end

/-- Settles O48: a held write acts on a device its comparison leaves as it was, and a sequence's outputs are followed to their states. -/
theorem madderTestsAndRearms : Obligations.MadderTestsAndRearms := by
  unfold Obligations.MadderTestsAndRearms
  refine ⟨fun s src w hr hexp => ⟨.of_pairWrite hr rfl, heartbeat_accepted hr hexp, heartbeat_rejected hr hexp⟩,
    fun s src w hr => ⟨.of_pairWrite hr rfl, safetyRequest_confirmed hr, safetyRequest_unconfirmed hr⟩,
    fun s o => testPulse_starts, fun s p ok => testPulse_ends, fun s us pass => ?_, fun s t0 mask fb pass hr =>
      ⟨rearmFeedback_contradicted hr, rearmFeedback_energized hr, rearmFeedback_tests hr⟩,
    fun s src w hr hgo => ⟨.of_pairWrite hr rfl, cfgCommit_taken hr hgo, cfgCommit_refused hr hgo⟩⟩
  refine ⟨srstPulse_ignored, srstPulse_waits, srstPulse_refused, fun hlo hhi hp hok hs hpass => ?_, fun hlo hhi hp hok hs hout hpass => ?_⟩
  · have harm := srstPulse_arms hlo hhi hp hok (hs.imp id .inl) hpass
    rwa [if_neg (by omega)] at harm
  · have harm := srstPulse_arms hlo hhi hp hok (.inr (.inr ⟨hs, hout⟩)) hpass
    rwa [if_pos hs] at harm

end Sys2Proof.Machine
end

section
/-!
PROOF. What a finished command of the key store leaves, and the key store's upkeep (R335–R350).
-/

namespace Sys2Proof.Machine
open Sys2Proof

/-! ### Accesses to local memory (R342) -/

/-- An access that is permitted throughout denies nothing. -/
theorem Dev.memAccess_permitted {d : Dev} {src : Src} {kind : AccessKind} {a n : Nat} (h : (d.memAccess src kind a n).2 = true) :
    (d.memAccess src kind a n).1 = d := by
  revert h
  unfold Dev.memAccess
  refine List.foldlRecOn _ _ (motive := fun r : Dev × Bool => r.2 = true → r.1 = d) (fun _ => rfl) fun r hr i _ => ?_
  split
  next hno => exact fun h => hr h
  next =>
    dsimp only
    generalize (if i = 0 then a else (a / 4096 + i) * 4096) = b
    split
    · split
      · exact fun h => absurd h Bool.false_ne_true
      · split
        · exact hr
        · exact fun h => absurd h Bool.false_ne_true
    · exact fun h => absurd h Bool.false_ne_true

theorem Dev.mordOut_permitted {d : Dev} {c : MCmd} {a : Nat} {bs : List Byte} (h : (d.memAccess c.owner .write a bs.length).2 = true) :
    d.mordOut c a bs = (d.post a bs, rOk) := by
  have hout : d.mordOut c a bs = ((d.memAccess c.owner .write a bs.length).1.post a bs, rOk) := if_pos h
  rw [hout, Dev.memAccess_permitted h]

/-! ### The end of a command (R343, R344) -/

theorem Dev.mordEnd_sparesMem (d : Dev) (c : MCmd) (result : Nat) (orphan : Bool) : Dev.SparesMem d (d.mordEnd c result orphan) := by
  have hevt : ∀ (e : Dev) (r : RF), Dev.SparesMem e (e.mordEvt r) := fun e r => (e.raise_reports r 1 57).sparesMem
  unfold Dev.mordEnd
  dsimp only
  generalize hg : (((d.setF (Reg.MORD_CH_STAT_BUSY c.ch.1) 0).setF (Reg.MORD_CH_STAT_RESULT c.ch.1) result).setB
    (Reg.MORD_CH_STAT_ORPHANED_DURING_USE c.ch.1) orphan) = g
  have hdg : Dev.SparesMem d g := hg ▸ ⟨rfl, rfl, rfl⟩
  have hused : Dev.SparesMem d (if orphan then g.mordEvt Reg.MORD_EVT_ORPHAN_USE else g) := by
    split
    · exact hdg.trans (hevt g _)
    · exact hdg
  refine Dev.SparesMem.trans ?_ (Dev.pend_same _ 81).sparesMem
  split
  · exact ((hused.trans (Dev.setF_sparesMem _ _ _)).trans (hevt _ _)).trans (Dev.log_same _ _ _ _ _).sparesMem
  · exact hused

theorem MSlot.key_remasked (m : MSlot) (x : Nat) (due : Bool) : MSlot.key { m with s0 := m.s0 ^^^ x, s1 := m.s1 ^^^ x, due := due } = m.key := by
  change (m.s0 ^^^ x) ^^^ (m.s1 ^^^ x) = m.s0 ^^^ m.s1
  rw [Nat.xor_comm m.s1 x, ← Nat.xor_assoc, Nat.xor_assoc m.s0 x x, Nat.xor_self, Nat.xor_zero]

/-- A slot put in place of another with the same key leaves every key as it was. -/
theorem Dev.slotKey_put (d : Dev) (k : Fin 128) {m : MSlot} (h : m.key = (d.mord.slots[k]).key) (j : Nat) :
    (d.setMord { d.mord with slots := put d.mord.slots k m }).slotKey j = d.slotKey j := by
  refine (congrArg MSlot.key (getElem_put d.mord.slots k (sk j) m)).trans ?_
  split
  next hk =>
    rw [h, hk]
    rfl
  next => rfl

theorem Dev.remaskSlot_slotKey (d : Dev) (k : Fin 128) (j : Nat) : (d.remaskSlot k).slotKey j = d.slotKey j :=
  ((d.drbg 48).2.slotKey_put k ((d.mord.slots[k]).key_remasked _ false) j).trans rfl

/-- What the release of a key by its command leaves of the store. -/
structure Dev.KeyFreed (d e : Dev) : Prop where
  mem : Dev.SparesMem d e
  run : e.mord.run = d.mord.run
  queue : e.mord.queue = d.mord.queue
  key : ∀ j, e.slotKey j = d.slotKey j

theorem Dev.releaseKey_freed (d : Dev) (h : Option (Nat × Nat)) : Dev.KeyFreed d (d.releaseKey h) := by
  have hmeta : ∀ k, Dev.KeyFreed d (d.setMeta k 15 1 0) := fun k => ⟨⟨rfl, rfl, rfl⟩, rfl, rfl, fun _ => rfl⟩
  unfold Dev.releaseKey
  split
  next k gen =>
    split
    · dsimp only
      split
      · exact ⟨⟨rfl, rfl, rfl⟩, rfl, rfl, (d.setMeta k 15 1 0).remaskSlot_slotKey (sk k)⟩
      · exact hmeta k
    · exact ⟨⟨rfl, rfl, rfl⟩, rfl, rfl, fun _ => rfl⟩
  next => exact ⟨⟨rfl, rfl, rfl⟩, rfl, rfl, fun _ => rfl⟩

/-- The engine idle, the command's key released. -/
def Dev.engineIdled (d : Dev) (r : MRun) : Dev := (d.setMord { d.mord with run := none }).releaseKey r.slot

/-- The command that has run ends with its result. -/
def Dev.runEnded (d : Dev) (r : MRun) (result : Nat) : Dev := (d.engineIdled r).mordEnd r.cmd result r.orphan

/-- What the end of a run leaves: the results in its channel, the memory and the keys as its output left them. -/
theorem Dev.runEnded_spec (d : Dev) (r : MRun) {result : Nat} (hres : result < 16) :
    (d.runEnded r result).mord.run = none ∧ (d.runEnded r result).mord.queue = d.mord.queue ∧
    (d.runEnded r result).f (Reg.MORD_CH_STAT_RESULT r.cmd.ch.1) = result ∧
    (d.runEnded r result).bit (Reg.MORD_CH_STAT_BUSY r.cmd.ch.1) = false ∧ Dev.SparesMem d (d.runEnded r result) ∧
    (∀ k < 128, (d.runEnded r result).slotState k = d.slotState k) ∧ ∀ j, (d.runEnded r result).slotKey j = d.slotKey j := by
  have hfreed := (d.setMord { d.mord with run := none }).releaseKey_freed r.slot
  have hmord : (d.runEnded r result).mord = (d.engineIdled r).mord := (Dev.mordEnd_reports _ _ _ _).2
  refine ⟨(congrArg Mord.run hmord).trans hfreed.run, (congrArg Mord.queue hmord).trans hfreed.queue, Dev.mordEnd_result _ _ hres _,
    Dev.mordEnd_idle _ _ _ _, ?_, fun k hk => ?_, fun j => ?_⟩
  · have hidle : Dev.SparesMem d (d.engineIdled r) := ⟨hfreed.mem.wq, hfreed.mem.lost, hfreed.mem.ep⟩
    exact hidle.trans (Dev.mordEnd_sparesMem _ _ _ _)
  · exact (Dev.mordEnd_slotState _ _ _ _ hk).trans (Dev.releaseKey_slotState _ _ k)
  · exact (congrArg (fun m : Mord => (m.slots[sk j]).key) hmord).trans (hfreed.key j)

/-- The run's output made, with nothing queued it ends and the engine stays idle (R344). -/
theorem State.mordFinish_alone {s : State} {r : MRun} (hrun : s.dev.mord.run = some r) {d : Dev} {result : Nat} (hout : s.mordOutput s.dev r = (d, result))
    (hres : result < 16) (hq : d.mord.queue = []) : s.mordFinish = d.runEnded r result := by
  unfold State.mordFinish
  dsimp only
  rw [hrun]
  dsimp only
  rw [hout]
  exact Dev.mordNext_empty 16 ((d.runEnded_spec r hres).2.1.trans hq)

/-! ### Outputs (R342) -/

/-- The context a child is derived under (R338). -/
def MCmd.context (c : MCmd) : List Byte :=
  leBytes 4 (c.arg 2) ++ leBytes 1 (bits (c.arg 3) 0 2 + 4 * bits (c.arg 3) 2 3) ++ (c.argBytes 8 8).take (bits (c.arg 3) 16 6)

/-- The key of the child a DERIVE makes (R338). -/
def MRun.childKey (r : MRun) : Nat :=
  derived (bits (r.cmd.arg 3) 0 2) (keyBytes r.kind r.key) ((r.cmd.argBytes 4 4).take r.cmd.labelLen) r.cmd.context

/-- The child's slot filled and shown. -/
def Dev.childFilled (d : Dev) (r : MRun) (k : Nat) : Dev :=
  (d.fillSlot k (r.cmd.arg 2) (r.cmd.arg 0) (bits (r.cmd.arg 3) 0 2) (bits (r.cmd.arg 3) 2 3) (if r.orphan then 2 else 1) r.childKey
    ((r.cmd.argBytes 4 4).take r.cmd.labelLen) r.cmd.context).setF (Reg.MORD_CH_STAT_SLOT r.cmd.ch.1) k

theorem Dev.childFilled_slotState (d : Dev) (r : MRun) {k : Nat} (hk : k < 128) :
    (d.childFilled r k).slotState k = if r.orphan then 2 else 1 := by
  refine (Dev.slotState_of_f (Dev.f_setF_off _ _ (Nat.le_of_ble_eq_true rfl) (Nat.le_of_ble_eq_true rfl) ?_)).trans
    (Dev.fillSlot_slotState _ _ _ _ _ _ _ (by split <;> decide) _ _ (Nat.mod_lt _ (by decide)) (Nat.mod_lt _ (by decide)))
  simp only [Reg.MORD_K_META_WORD, Reg.MORD_K_META_at, Reg.MORD_CH_STAT_SLOT, Reg.MORD_CH_STAT_at]
  omega

/-- A slot filled holds the key it was filled with, in two shares (R348). -/
theorem Dev.fillSlot_slotKey (d : Dev) (k attr parent kind lcm state key : Nat) (label ctx : List Byte) :
    (d.fillSlot k attr parent kind lcm state key label ctx).slotKey k = key := by
  refine (congrArg MSlot.key (getElem_put_same _ (sk k) _)).trans ?_
  exact (Nat.xor_assoc _ _ _).trans (by rw [Nat.xor_self, Nat.xor_zero])

theorem Dev.childFilled_slotKey (d : Dev) (r : MRun) (k : Nat) : (d.childFilled r k).slotKey k = r.childKey :=
  Dev.fillSlot_slotKey _ _ _ _ _ _ _ _ _ _

section
variable {s : State} {r : MRun} (hl : Live s) (hrun : s.dev.mord.run = some r)
include hl hrun

theorem mordantDone_output {d : Dev} {result : Nat} (hout : s.mordOutput s.dev r = (d, result)) (hres : result < 16) (hdq : d.mord.queue = [])
    {P : State → Prop} (hP : P (s.commit (d.runEnded r result))) : Answers .mordantCommandDone s P :=
  .of_done hl (congrArg s.done (State.mordFinish_alone hrun hout hres hdq)) hP

variable (hc : Clean s) (hq : s.dev.mord.queue = [])
include hc hq

/-- A command whose output goes to memory, every access permitted, leaves it there and ends with OK. -/
theorem mordantDone_stores {out : List Byte} (hout : s.mordOutput s.dev r = s.dev.mordOut r.cmd (r.cmd.addr 6) out)
    (hw : (s.dev.memAccess r.cmd.owner .write (r.cmd.addr 6) out.length).2 = true) :
    Answers .mordantCommandDone s (fun t => t.dev.mord.run = none ∧ t.dev.f (Reg.MORD_CH_STAT_RESULT r.cmd.ch.1) = 1 ∧
      t.dev.bit (Reg.MORD_CH_STAT_BUSY r.cmd.ch.1) = false ∧ Stored s t (r.cmd.addr 6) out) := by
  obtain ⟨h1, -, h2, h3, hmem, -⟩ := (s.dev.post (r.cmd.addr 6) out).runEnded_spec r (show rOk < 16 by decide)
  refine mordantDone_output hl hrun (hout.trans (Dev.mordOut_permitted hw)) (by decide) hq ⟨h1, h2, h3, ?_⟩
  refine State.commit_stored (hmem.wq.trans ?_) (hmem.lost.trans hc.2) hmem.ep
  exact (congrArg (· ++ [(r.cmd.addr 6, out)]) hc.1)

/-- HMAC, PUBKEY and EXPORT, every access permitted (R342). -/
theorem mordantDone_writes {out : List Byte} (hout : (r.cmd.op = 5 ∧ (s.dev.memAccess r.cmd.owner .read (r.cmd.addr 4) (r.cmd.arg 8)).2 = true ∧
        out = Config.hmac (keyBytes 2 r.key) (s.memBytes (r.cmd.addr 4) (r.cmd.arg 8))) ∨
      (r.cmd.op = 7 ∧ out = Config.ecdsaPublic (keyBytes 3 r.key)) ∨ (r.cmd.op = 10 ∧ out = keyBytes r.kind r.key))
    (hw : (s.dev.memAccess r.cmd.owner .write (r.cmd.addr 6) out.length).2 = true) :
    Answers .mordantCommandDone s (fun t => t.dev.mord.run = none ∧ t.dev.f (Reg.MORD_CH_STAT_RESULT r.cmd.ch.1) = 1 ∧
      t.dev.bit (Reg.MORD_CH_STAT_BUSY r.cmd.ch.1) = false ∧ Stored s t (r.cmd.addr 6) out) := by
  refine mordantDone_stores hl hrun hc hq ?_ hw
  unfold State.mordOutput
  obtain ⟨hop, hread, rfl⟩ | ⟨hop, rfl⟩ | ⟨hop, rfl⟩ := hout
  · have hkept := Dev.memAccess_permitted hread
    simp only [hop, hread, hkept, if_true]
  · simp only [hop]
  · simp only [hop]

/-- A message whose tag differs is not deciphered (R342). -/
theorem mordantDone_refuses (hop : r.cmd.op = 4) (hsrc : (s.dev.memAccess r.cmd.owner .read (r.cmd.addr 4) (r.cmd.arg 8)).2 = true)
    (haad : (s.dev.memAccess r.cmd.owner .read (r.cmd.addr 9) (r.cmd.arg 11)).2 = true)
    (htag : Config.gcmTag (keyBytes 1 r.key) (r.cmd.argBytes 1 3) (s.memBytes (r.cmd.addr 9) (r.cmd.arg 11))
        (Config.gcmPlain (keyBytes 1 r.key) (r.cmd.argBytes 1 3) (s.memBytes (r.cmd.addr 9) (r.cmd.arg 11))
          (s.memBytes (r.cmd.addr 4) (r.cmd.arg 8))) ≠ r.cmd.argBytes 12 4) :
    Answers .mordantCommandDone s (fun t => t.dev.f (Reg.MORD_CH_STAT_RESULT r.cmd.ch.1) = 6 ∧ t.mem = s.mem) := by
  have hout : s.mordOutput s.dev r = (s.dev, rAuthFail) := by
    have h1 := Dev.memAccess_permitted hsrc
    have h2 := Dev.memAccess_permitted haad
    unfold State.mordOutput State.gcmDone
    simp only [hop, h1, h2, hsrc, haad, Bool.not_true, Bool.false_eq_true, or_self, if_false, Nat.reduceEqDiff, if_neg htag]
  obtain ⟨-, -, h2, -, hmem, -⟩ := s.dev.runEnded_spec r (show rAuthFail < 16 by decide)
  exact mordantDone_output hl hrun hout (by decide) hq ⟨h2, State.commit_mem_of_spares hc hmem⟩

omit hc in
/-- DERIVE fills the child's slot (R338, R346). -/
theorem mordantDone_derives {k : Nat} (hop : r.cmd.op = 1) (hk : k < 128)
    (hslot : r.cmd.arg 1 = 0xFF ∧ s.dev.emptyKeys.head? = some k ∨ r.cmd.arg 1 = k ∧ s.dev.slotState k = 0) :
    Answers .mordantCommandDone s (fun t => t.dev.f (Reg.MORD_CH_STAT_RESULT r.cmd.ch.1) = 1 ∧
      t.dev.slotState k = (if r.orphan then 2 else 1) ∧
      t.dev.slotKey k = derived (bits (r.cmd.arg 3) 0 2) (keyBytes r.kind r.key) ((r.cmd.argBytes 4 4).take r.cmd.labelLen)
        (leBytes 4 (r.cmd.arg 2) ++ leBytes 1 (bits (r.cmd.arg 3) 0 2 + 4 * bits (r.cmd.arg 3) 2 3) ++
          (r.cmd.argBytes 8 8).take (bits (r.cmd.arg 3) 16 6))) := by
  have hchild : (if r.cmd.arg 1 = 0xFF then s.dev.emptyKeys.head? else if s.dev.slotState (r.cmd.arg 1) = 0 then some (r.cmd.arg 1) else none) = some k := by
    obtain ⟨hany, hhead⟩ | ⟨hnamed, hempty⟩ := hslot
    · rw [if_pos hany, hhead]
    · rw [hnamed, if_neg (by omega), if_pos hempty]
  have hout : s.mordOutput s.dev r = (s.dev.childFilled r k, rOk) := by
    unfold State.mordOutput Dev.deriveDone
    simp only [hop, hchild]
    rfl
  have hcq : (s.dev.childFilled r k).mord.queue = [] := hq
  obtain ⟨-, -, h2, -, -, hstate, hkey⟩ := (s.dev.childFilled r k).runEnded_spec r (show rOk < 16 by decide)
  refine mordantDone_output hl hrun hout (by decide) hcq ⟨h2, ?_, ?_⟩
  · exact (hstate k hk).trans (s.dev.childFilled_slotState r hk)
  · exact (hkey k).trans (s.dev.childFilled_slotKey r k)

end

/-! ### Upkeep of the slots (R335, R348) -/

/-- A slot emptied: its words cleared but for GEN, its key discarded. -/
def Dev.slotEmptied (d : Dev) (k : Fin 128) : Dev :=
  let e := (d.setF (Reg.MORD_K_META_WORD k.1) (2 ^ 16 * d.meta k.1 16 16)).setF (Reg.MORD_K_ATTR_WORD k.1) 0
  e.setMord { e.mord with slots := put e.mord.slots k {} }

theorem Dev.slotEmptied_word (d : Dev) (k : Fin 128) :
    (d.slotEmptied k).f (Reg.MORD_K_META_WORD k.1) = 2 ^ 16 * d.meta k.1 16 16 % 2 ^ 32 := by
  refine (Dev.f_setF_off (d.setF (Reg.MORD_K_META_WORD k.1) _) (r := Reg.MORD_K_ATTR_WORD k.1) 0 (Nat.le_of_ble_eq_true rfl) (Nat.le_of_ble_eq_true rfl) ?_).trans (Dev.f_setF_same _ (Reg.MORD_K_META_WORD k.1) _)
  simp only [Reg.MORD_K_META_WORD, Reg.MORD_K_META_at, Reg.MORD_K_ATTR_WORD, Reg.MORD_K_ATTR_at]
  omega

theorem Dev.slotEmptied_spec (d : Dev) (k : Fin 128) : (d.slotEmptied k).slotState k.1 = 0 ∧ (d.slotEmptied k).slotKey k.1 = 0 ∧
    (d.slotEmptied k).attr k.1 = 0 ∧ (d.slotEmptied k).meta k.1 16 16 = d.meta k.1 16 16 := by
  have hgen : d.meta k.1 16 16 < 2 ^ 16 := Nat.mod_lt _ (by decide)
  refine ⟨?_, ?_, ?_, ?_⟩
  · unfold Dev.slotState
    rw [show (d.slotEmptied k).meta k.1 8 2 = bits (2 ^ 16 * d.meta k.1 16 16 % 2 ^ 32) 8 2 from congrArg (bits · 8 2) (d.slotEmptied_word k)]
    unfold bits
    omega
  · have hk : sk k.1 = k := Fin.ext (Nat.mod_eq_of_lt k.2)
    have hkey : ∀ j : Fin 128, j = k → ((d.slotEmptied k).mord.slots[j]).key = 0 := by
      rintro _ rfl
      exact congrArg MSlot.key (getElem_put_same _ _ _)
    exact hkey (sk k.1) hk
  · exact Dev.f_setF_same _ (Reg.MORD_K_ATTR_WORD k.1) 0
  · rw [show (d.slotEmptied k).meta k.1 16 16 = bits (2 ^ 16 * d.meta k.1 16 16 % 2 ^ 32) 16 16 from congrArg (bits · 16 16) (d.slotEmptied_word k)]
    generalize d.meta k.1 16 16 = x at hgen
    unfold bits
    omega

theorem slotRelease_empties {s : State} {k : Fin 128} (hl : Live s) (hst : s.dev.slotState k.1 = 2) (huse : s.dev.meta k.1 15 1 = 0) :
    Answers (.slotRelease k) s (fun t => t.dev.slotState k.1 = 0 ∧ t.dev.slotKey k.1 = 0 ∧ t.dev.attr k.1 = 0 ∧
      t.dev.meta k.1 16 16 = s.dev.meta k.1 16 16) :=
  .of_done hl (show exec (.slotRelease k) s = s.done (s.dev.slotEmptied k) from congrArg s.done (if_pos ⟨hst, huse⟩)) (s.dev.slotEmptied_spec k)

/-- One slot of a re-masking pass: masked afresh, or due once its command has finished. -/
def Dev.remaskStep (d : Dev) (k : Fin 128) : Dev :=
  if d.meta k.1 15 1 = 1 then d.setMord { d.mord with slots := put d.mord.slots k { d.mord.slots[k] with due := true } } else d.remaskSlot k

/-- The device keys masked afresh. -/
def Dev.deviceMasked (d : Dev) (i : Fin 3) : Dev :=
  (d.drbg 48).2.setMord { (d.drbg 48).2.mord with dmask := put (d.drbg 48).2.mord.dmask i ((d.drbg 48).2.mord.dmask[i] ^^^ ofLeBytes (d.drbg 48).1) }

/-- Every mask is drawn afresh. -/
def Dev.remasked (d : Dev) : Dev := (List.finRange 3).foldl Dev.deviceMasked ((List.finRange 128).foldl Dev.remaskStep d)

theorem Dev.remasked_keeps (d : Dev) : d.remasked.regs = d.regs ∧ d.remasked.mord.remaskAt = d.mord.remaskAt ∧
    ∀ j, d.remasked.slotKey j = d.slotKey j := by
  have step : ∀ (e : Dev) (k : Fin 128), (e.remaskStep k).regs = e.regs ∧ (e.remaskStep k).mord.remaskAt = e.mord.remaskAt ∧
      ∀ j, (e.remaskStep k).slotKey j = e.slotKey j := fun e k => by
    unfold Dev.remaskStep
    split
    · exact ⟨rfl, rfl, e.slotKey_put k rfl⟩
    · exact ⟨rfl, rfl, e.remaskSlot_slotKey k⟩
  have hslots : ((List.finRange 128).foldl Dev.remaskStep d).regs = d.regs ∧
      ((List.finRange 128).foldl Dev.remaskStep d).mord.remaskAt = d.mord.remaskAt ∧
      ∀ j, ((List.finRange 128).foldl Dev.remaskStep d).slotKey j = d.slotKey j :=
    List.foldlRecOn _ _ (motive := fun e : Dev => e.regs = d.regs ∧ e.mord.remaskAt = d.mord.remaskAt ∧ ∀ j, e.slotKey j = d.slotKey j)
      ⟨rfl, rfl, fun _ => rfl⟩ fun e ⟨hr, ha, hk⟩ k _ => ⟨(step e k).1.trans hr, (step e k).2.1.trans ha, fun j => ((step e k).2.2 j).trans (hk j)⟩
  exact List.foldlRecOn _ _ (motive := fun e : Dev => e.regs = d.regs ∧ e.mord.remaskAt = d.mord.remaskAt ∧ ∀ j, e.slotKey j = d.slotKey j)
    hslots fun e ⟨hr, ha, hk⟩ i _ => ⟨hr, ha, hk⟩

/-- The intervals of re-masking that have passed since the last counted (R348). -/
def Dev.remaskPast (d : Dev) : Nat := (d.up - d.mord.remaskAt) / (40000 * d.f Reg.MORD_CFG_REMASK)

/-- Those intervals are taken. -/
def Dev.remaskTaken (d : Dev) : Dev :=
  d.setMord { d.mord with remaskAt := d.mord.remaskAt + d.remaskPast * (40000 * d.f Reg.MORD_CFG_REMASK) }

theorem Dev.remask_eq (d : Dev) : d.remask = if d.remaskPast = 0 || !d.bit Reg.MORD_STAT_DRBG_OK then d.remaskTaken
    else d.remaskTaken.remasked.bump Reg.MORD_REMASK_CNT_COUNT := rfl

theorem remaskPass_counts {s : State} (hl : Live s) : Answers .remaskPass s (fun t =>
    t.dev.mord.remaskAt = s.dev.mord.remaskAt + s.dev.remaskPast * (40000 * s.dev.f Reg.MORD_CFG_REMASK) ∧
      (∀ k : Fin 128, t.dev.slotKey k.1 = s.dev.slotKey k.1 ∧ t.dev.slotState k.1 = s.dev.slotState k.1) ∧
      t.dev.f Reg.MORD_REMASK_CNT_COUNT = if s.dev.remaskPast ≠ 0 ∧ s.dev.bit Reg.MORD_STAT_DRBG_OK = true
        then min (2 ^ 32 - 1) (s.dev.f Reg.MORD_REMASK_CNT_COUNT + 1) else s.dev.f Reg.MORD_REMASK_CNT_COUNT) := by
  have hexec : exec .remaskPass s = s.done s.dev.remask := rfl
  rw [Dev.remask_eq] at hexec
  by_cases hgo : s.dev.remaskPast ≠ 0 ∧ s.dev.bit Reg.MORD_STAT_DRBG_OK = true
  · obtain ⟨hregs, hat, hkey⟩ := s.dev.remaskTaken.remasked_keeps
    rw [if_neg (by simp [hgo])] at hexec
    generalize s.dev.remaskTaken.remasked = e at hexec hregs hat hkey
    refine .of_done hl hexec ⟨hat, fun k => ⟨hkey k.1, ?_⟩, ?_⟩
    · refine (Dev.slotState_of_f (Dev.f_bump_off e 1 (by decide) (Nat.le_of_ble_eq_true rfl) ?_)).trans (Dev.slotState_of_f (Dev.f_of_regs hregs _))
      simp only [Reg.MORD_K_META_WORD, Reg.MORD_K_META_at, Reg.MORD_REMASK_CNT_COUNT, Reg.MORD_REMASK_CNT_at]
      omega
    · rw [if_pos hgo, State.commit_f, Dev.f_bump_same, Dev.f_of_regs hregs]
      rfl
  · rw [if_pos (by simpa [Classical.or_iff_not_imp_left] using hgo)] at hexec
    refine .of_done hl hexec ⟨rfl, fun k => ⟨rfl, rfl⟩, ?_⟩
    rw [if_neg hgo]
    rfl

/-! ### The DRBG's health, and the fuses (R346, R350) -/

theorem drbgFailure_shows {s : State} (hl : Live s) :
    Answers .drbgFailure s (fun t => t.dev.bit Reg.MORD_STAT_DRBG_OK = false ∧ t.dev.tb Reg.MORD_EVT_DRBG 0 = true) := by
  refine .of_done hl rfl ⟨?_, ?_⟩
  · exact (Dev.bit_of_f ((s.dev.setF Reg.MORD_STAT_DRBG_OK 0).f_raise_off 1 (by decide) (by decide) (by decide) (by decide) (by decide))).trans
      (Dev.bit_setF_zero _ _)
  · exact Dev.tb_raise (s.dev.setF Reg.MORD_STAT_DRBG_OK 0) Reg.MORD_EVT_DRBG (by decide) (by decide) (by decide) (by decide) (by decide)

theorem drbgRecovery_shows {s : State} (hl : Live s) : Answers .drbgHealthRecovery s (fun t => t.dev.bit Reg.MORD_STAT_DRBG_OK = true) :=
  .of_done hl rfl (congrArg (· == 1) (Dev.f_setF_same s.dev Reg.MORD_STAT_DRBG_OK 1))

/-- A write of MORD_LC_REQ acts (R350). -/
def Dev.lcRequested (d : Dev) (src : Src) (w : Nat) : Dev :=
  if pairSecure src ∧ bits w 16 16 = 0x4C43 ∧ lcMove d.fuse.lc (bits w 0 3) ∧ d.sup.fuse.isNone then d.startFuses (.lifeCycle (bits w 0 3))
  else d.log 0x0A 0xFF (accInfo src true (Config.logKind 1)) (bits w 0 3)

theorem Dev.lcRequested_spec (d : Dev) (src : Src) (w : Nat) : (d.lcRequested src w).fuse = d.fuse ∧ (d.lcRequested src w).sup.fuse =
    if pairSecure src = true ∧ bits w 16 16 = 0x4C43 ∧ lcMove d.fuse.lc (bits w 0 3) = true ∧ d.sup.fuse = none
      then some (.lifeCycle (bits w 0 3), d.up) else d.sup.fuse := by
  unfold Dev.lcRequested
  simp only [Option.isNone_iff_eq_none]
  split
  · exact ⟨rfl, rfl⟩
  · exact ⟨Dev.log_fuse _ _ _ _ _, congrArg Sup.fuse (Dev.log_sup _ _ _ _ _)⟩

theorem lcRequest_starts {s : State} {src : Src} {w : Word} (hr : Reaches s src Reg.MORD_LC_REQ_at) :
    Answers (.lcRequest src w) s (fun t => t.dev.fuse = s.dev.fuse ∧
      t.dev.sup.fuse = if pairSecure src = true ∧ bits w.toNat 16 16 = 0x4C43 ∧ lcMove s.dev.fuse.lc (bits w.toNat 0 3) = true ∧ s.dev.sup.fuse = none
        then some (.lifeCycle (bits w.toNat 0 3), s.dev.up) else s.dev.sup.fuse) :=
  .of_done hr.1 (congrArg s.done (Dev.onWrite_unguarded hr.2 (fun d => d.lcRequested src w.toNat))) ((s.dev.answer 0).lcRequested_spec src w.toNat)

/-! ### Programmed fuses take effect (R350, R417) -/

/-- The fuses and what is being programmed into them stay. -/
structure Dev.KeepsFuses (d e : Dev) : Prop where
  fuse : e.fuse = d.fuse
  sup : e.sup = d.sup

section
variable {d e g : Dev}

theorem Dev.KeepsFuses.refl (d : Dev) : Dev.KeepsFuses d d := ⟨rfl, rfl⟩
theorem Dev.KeepsFuses.trans (h : Dev.KeepsFuses d e) (h' : Dev.KeepsFuses e g) : Dev.KeepsFuses d g := ⟨h'.fuse.trans h.fuse, h'.sup.trans h.sup⟩
theorem Dev.KeepsFuses.of_reports (h : Dev.Reports d e) : Dev.KeepsFuses d e := ⟨h.fuse, h.sup⟩

theorem Dev.KeepsFuses.foldl {α : Type} {F : Dev → α → Dev} (h : ∀ d x, Dev.KeepsFuses d (F d x)) (l : List α) (d : Dev) : Dev.KeepsFuses d (l.foldl F d) :=
  List.foldlRecOn l F (motive := Dev.KeepsFuses d) (.refl d) (fun e he x _ => he.trans (h e x))

end

theorem Dev.invalidate_keepsFuses (d : Dev) (set : Nat) : Dev.KeepsFuses d (d.invalidate set) := by
  have hmeta : ∀ (e : Dev) (k lo w v : Nat), Dev.KeepsFuses e (e.setMeta k lo w v) := fun _ _ _ _ _ => ⟨rfl, rfl⟩
  have hslots : ∀ xs : List Nat, Dev.KeepsFuses d (xs.foldl (fun d k => d.setMeta k 8 2 2) d) := fun xs => .foldl (fun e k => hmeta e k 8 2 2) xs d
  have hmarks : ∀ (e : Dev) (m : Mord) (P : Dev → Nat → Bool) (i : Nat → Fin 64) (g : SliceEng → SliceEng),
      Dev.KeepsFuses e (forEach 64 (e.setMord m) (fun d s => if P d s then d.modSlice (i s) g else d)) := fun e m P i g =>
    Dev.KeepsFuses.trans (e := e.setMord m) ⟨rfl, rfl⟩ (.foldl (fun b s => by split <;> exact ⟨rfl, rfl⟩) _ _)
  unfold Dev.invalidate
  dsimp only
  split
  · exact .refl d
  · exact ((hslots _).trans (hmarks _ _ _ _ _)).trans (.of_reports (Dev.raise_reports _ _ _ _))

theorem Dev.invalidateAll_keepsFuses (d : Dev) : Dev.KeepsFuses d d.invalidateAll := by
  have hset : ∀ (e : Dev) (m : Mord), Dev.KeepsFuses e (e.setMord m) := fun _ _ => ⟨rfl, rfl⟩
  exact (d.invalidate_keepsFuses allSlots).trans (hset _ _)

theorem Dev.sliceKeys_keepsFuses (d : Dev) (s kl ks : Nat) (nonce : List Byte) : Dev.KeepsFuses d (d.sliceKeys s kl ks nonce) := by
  have hfill : ∀ (e : Dev) (k attr parent kind lcm state key : Nat) (label ctx : List Byte),
      Dev.KeepsFuses e (e.fillSlot k attr parent kind lcm state key label ctx) := fun e k attr parent kind lcm state key label ctx => ⟨rfl, rfl⟩
  unfold Dev.sliceKeys
  exact (hfill _ _ _ _ _ _ _ _ _ _).trans (hfill _ _ _ _ _ _ _ _ _ _)

theorem Dev.formCert_keepsFuses (d : Dev) (s created : Nat) : Dev.KeepsFuses d (d.formCert s created) := by
  have hcert : ∀ (e : Dev) (bs : List Byte), Dev.KeepsFuses e (e.setCert s bs) := fun e bs =>
    List.foldlRecOn (motive := Dev.KeepsFuses e) _ _ (.refl e) fun b hb w _ => ⟨hb.fuse, hb.sup⟩
  unfold Dev.formCert
  dsimp only
  split
  · exact .refl d
  · exact Dev.KeepsFuses.trans (e := (d.drbg 48).2) ⟨rfl, rfl⟩ (hcert _ _)

theorem Dev.substitute_keepsFuses (d : Dev) : Dev.KeepsFuses d d.substitute := by
  have hroot : Dev.KeepsFuses d (d.invalidateAll.setF Reg.MORD_STAT_TESTROOT 1) := d.invalidateAll_keepsFuses.trans ⟨rfl, rfl⟩
  refine hroot.trans (.foldl (fun e s => ?_) _ _)
  split
  · exact (e.sliceKeys_keepsFuses s _ _ _).trans (Dev.formCert_keepsFuses _ _ _)
  · exact .refl e

theorem Dev.returnRoot_keepsFuses (d : Dev) : Dev.KeepsFuses d d.returnRoot := by
  unfold Dev.returnRoot Dev.testRootIn
  split
  · exact d.substitute_keepsFuses
  · exact d.substitute_keepsFuses.trans (.of_reports (Dev.raise_reports _ _ _ _))

theorem Dev.serviceLost_keepsFuses (d : Dev) : Dev.KeepsFuses d d.serviceLost := ⟨d.serviceLost_work.fuse, d.serviceLost_work.sup⟩

theorem Dev.enterLc_fuses (d : Dev) (c : Nat) : (d.enterLc c).fuse = { d.fuse with lc := c } ∧ (d.enterLc c).sup = d.sup := by
  have hmoved : ∀ e : Dev, e.fuse = { d.fuse with lc := c } → e.sup = d.sup → ∀ g, Dev.KeepsFuses e g →
      g.fuse = { d.fuse with lc := c } ∧ g.sup = d.sup := fun e hf hs g h => ⟨h.fuse.trans hf, h.sup.trans hs⟩
  refine hmoved (d.setFuse { d.fuse with lc := c }) rfl rfl _ ?_
  have hevt : Dev.KeepsFuses (d.setFuse { d.fuse with lc := c }) ((d.setFuse { d.fuse with lc := c }).mordEvt Reg.MORD_EVT_LC) :=
    .of_reports (Dev.raise_reports _ _ _ _)
  unfold Dev.enterLc
  dsimp only
  split
  · exact hevt.trans (Dev.returnRoot_keepsFuses _)
  · split
    · exact hevt.trans ((Dev.invalidateAll_keepsFuses _).trans (Dev.serviceLost_keepsFuses _))
    · exact hevt

/-- The fuses once a job has been programmed. -/
def Fuses.programmed (f : Fuses) : FuseJob → Fuses
  | .lifeCycle c => { f with lc := c }
  | .svn n => { f with svnMin := n }
  | .ownerKey k h => { f with owner := put f.owner k h }
  | .revoke m => { f with revoked := f.revoked ||| m % 16 }

theorem Dev.burn_fuses (d : Dev) (job : FuseJob) : (d.burn job).fuse = d.fuse.programmed job ∧ (d.burn job).sup = d.sup := by
  cases job with
  | lifeCycle c => exact d.enterLc_fuses c
  | svn n => exact ⟨rfl, rfl⟩
  | ownerKey k h => exact ⟨rfl, rfl⟩
  | revoke m => exact ⟨rfl, rfl⟩

theorem Dev.fuseDone_programs {d : Dev} {job : FuseJob} {t0 : Nat} (hf : d.sup.fuse = some (job, t0)) (hw : d.sup.warmWait = none) :
    d.fuseDone = ((d.modSup (fun s => { s with fuse := none })).burn job).review := by
  have hwait : ((d.modSup (fun s => { s with fuse := none })).burn job).review.sup.warmWait = none := by
    rw [(Dev.review_reports _).sup, (Dev.burn_fuses _ job).2]
    exact hw
  unfold Dev.fuseDone
  rw [hf]
  dsimp only
  rw [hwait]

theorem fuseProgramming_done {s : State} {job : FuseJob} {t0 : Nat} (hl : Live s) (hf : s.dev.sup.fuse = some (job, t0)) (hw : s.dev.sup.warmWait = none) :
    Answers .fuseProgrammingDone s (fun t => t.dev.sup.fuse = none ∧ t.dev.fuse = s.dev.fuse.programmed job) := by
  have hburn := Dev.burn_fuses (s.dev.modSup (fun s => { s with fuse := none })) job
  have hrev := Dev.review_reports ((s.dev.modSup (fun s => { s with fuse := none })).burn job)
  refine .of_done hl (congrArg s.done (Dev.fuseDone_programs hf hw)) ⟨?_, hrev.fuse.trans hburn.1⟩
  exact congrArg Sup.fuse (hrev.sup.trans hburn.2)

/-- Settles O43: a run's output is made on the device as it stands, and its end touches neither memory nor keys. -/
theorem keyStoreOutputsAndUpkeep : Obligations.KeyStoreOutputsAndUpkeep := by
  unfold Obligations.KeyStoreOutputsAndUpkeep
  refine ⟨fun s r hl hc hrun hq => ⟨fun out hout hw => mordantDone_writes hl hrun hc hq hout hw,
      fun k hop hk hslot => mordantDone_derives hl hrun hq hop hk hslot,
      fun hop hsrc haad htag => mordantDone_refuses hl hrun hc hq hop hsrc haad htag⟩,
    fun s k hl hst huse => slotRelease_empties hl hst huse, fun s hl => remaskPass_counts hl, fun s hl => ⟨drbgFailure_shows hl, drbgRecovery_shows hl⟩,
    fun s src w hr => lcRequest_starts hr, fun s job t0 hl hf hw => ?_⟩
  obtain ⟨t, hexec, hq, hdone, hfuse⟩ := fuseProgramming_done hl hf hw
  refine ⟨t, hexec, hq, hdone, hfuse.trans ?_⟩
  cases job <;> rfl

end Sys2Proof.Machine
end

section
/-!
PROOF. The queue of a received frame (R234) in a state whose register file holds more than the port's default priority is wide.
-/

namespace Sys2Proof.Machine
open Sys2Proof

/-- The default priority whose place in SW_PCP_MAP, three bits a priority, is the register file's place of port 0's count of received frames. -/
def Reg.strayPcp : Nat := 174464

/-- The released device after reset, with no VLAN that learns, and with that default priority filed for port 0, where 7 is the largest its 3 bits can hold. -/
def State.strayPriority : State :=
  { State.reset with dev := { State.reset.dev with
      sup := { State.reset.dev.sup with held := false }
      sw := { State.reset.dev.sw with vlans := [] }
      regs := [((Reg.SW_P_CFG_DEF_PCP 0).key, Reg.strayPcp)] } }

/-- An untagged frame of 64 bytes, FCS included, to an address that goes to the cores (R235). -/
def coreFrame : List Byte := [0x01, 0x80, 0xC2, 0, 0, 0] ++ List.replicate 54 0

theorem strayPriority_queue :
    (State.strayPriority.dev.frameFor (p8 (0 : Fin 6).1) 6 coreFrame (State.strayPriority.dev.rxStamp (p8 (0 : Fin 6).1) 0)).q = 0 := by decide +kernel

theorem SwPort.queue_nil {P : SwPort} {q q' : Fin 8} (hq : q = q') (h : P.queues[q'] = []) : P.queues[q] = [] := hq ▸ h

theorem strayPriority_unqueued : ((State.strayPriority.dev.frameReceive (p8 (0 : Fin 6).1) coreFrame true 0).port 6).queues[(0 : Fin 8)] = [] := by decide +kernel

/-- Refutes O30, in the clause of FRAME_RECEIVE: the frame's queue is the one SW_PCP_MAP holds for its priority, and of the register file the clause
asks nothing. Where it holds a default priority far above the largest (no command files such a value), the place of that priority in the map is
the place of the port's count of received frames. The count moves on before the frame is classified, so the frame joins queue 1, and queue 0,
which the map held for it before, stays empty. -/
theorem not_switchMovesFrames : ¬ Obligations.SwitchMovesFrames := by
  unfold Obligations.SwitchMovesFrames
  intro ⟨hreceive, _⟩
  obtain ⟨t, hexec, -, id, hqueue⟩ := hreceive State.strayPriority 0 6 coreFrame true 0 rfl (by decide +kernel) (by decide +kernel) (by decide +kernel)
    (by decide +kernel) (by decide +kernel) (by decide +kernel) (by decide +kernel) (by decide +kernel) (by decide +kernel) (by decide +kernel)
    (by decide +kernel) (by decide +kernel) (by decide +kernel)
  have ht : exec (.frameReceive 0 coreFrame true 0) State.strayPriority =
      .next (State.strayPriority.commit (State.strayPriority.dev.frameReceive (p8 (0 : Fin 6).1) coreFrame true 0)) := rfl
  obtain rfl := Host.Outcome.next.inj (hexec.symm.trans ht)
  have hempty := SwPort.queue_nil strayPriority_queue strayPriority_unqueued
  rw [← State.commit_port] at hempty
  exact List.append_ne_nil_of_right_ne_nil _ (List.cons_ne_nil _ _) (hqueue.symm.trans hempty)

end Sys2Proof.Machine
end

section
/-!
PROOF. Fences of cores (R24, R312–R314): what the fence of an application core sets, and what neither it nor a secure watchdog's expiry changes.
The slice it orphans is the one the core's context names, which nothing holds below 64.
-/

namespace Sys2Proof.Machine
open Sys2Proof

/-! ### The parts of a core's fence (R24) -/

/-- The core is shown fenced, with its cause, and its L1 is lost. -/
def Dev.markFenced (d : Dev) (n : Fin 4) (cause : Nat) : Dev :=
  (((d.tally.dropL1 n.1).setF (Reg.CORE_STAT_FENCED n.1) 1).setF (Reg.CORE_STAT_CAUSE n.1) cause).setTb Reg.SYS_FENCE_AC n.1 true

/-- The slice the core served is orphaned. -/
def Dev.orphanServed (d : Dev) (n : Fin 6) : Dev :=
  if d.servesSlice n (d.f (Reg.CORE_CTX_SLICE n.1)) then d.orphanSlice (d.f (Reg.CORE_CTX_SLICE n.1)) else d

/-- Port C goes when no application core is left (R248). -/
def Dev.removeServed (d : Dev) : Dev := if d.f Reg.SYS_FENCE_AC = 15 then d.removePort 6 2 else d

theorem Dev.fenceCore_of_unfenced {d : Dev} {n : Fin 4} (h : d.bit (Reg.CORE_STAT_FENCED n.1) = false) (cause : Nat) :
    d.fenceCore n cause = (((d.markFenced n cause).log 0x05 (if cause = 1 then 0xFF else 70 + n.1) (evInfo n.1) cause).orphanServed
      ⟨n.1, Nat.lt_trans n.2 (by decide)⟩).removeServed := by
  unfold Dev.fenceCore Dev.markFenced Dev.orphanServed Dev.removeServed
  dsimp only
  rw [if_neg (Bool.eq_false_iff.mp h)]

/-! ### What a core's fence shows -/

/-- A field that no orphaning of a slice, whatever its number, no removal of port C and no counter writes. -/
structure RF.OffCoreFence (r : RF) : Prop where
  events : ∀ s, r.OffEvents s
  orphan : ∀ s, ¬(r.addr = Reg.SLC_STATE_at s ∧ r.lo = 2) ∧ ¬(r.addr = Reg.SLC_RING_STAT_at s ∧ r.lo = 3)
  switch : Machine.Apart [(0x20050000, 0x20058000)] r
  port : ¬(r.addr = Reg.SYS_FENCE_at ∧ r.lo = 24)
  counters : r.OffCounters

theorem Reg.core_offCoreFence {r : RF} {n : Fin 6} (hl : r.lo < 32) (hlo : r.lo ≠ 2 ∧ r.lo ≠ 3) (h : r.addr = Reg.CORE_STAT_at n.1 ∨ r.addr = Reg.CORE_CTX_at n.1) :
    r.OffCoreFence := by
  simp only [Reg.CORE_STAT_at, Reg.CORE_CTX_at] at h
  constructor
  · intro s
    simp only [RF.OffEvents, Reg.SLICE_EVT_at, Reg.DPL_PI_at, Reg.DPL_STAT_at, Reg.SLC_RING_STAT_at, Reg.SLC_EVT_LOST_at]
    omega
  · intro s
    omega
  · refine ⟨hl, ?_⟩
    simp only [List.forall_mem_cons, List.not_mem_nil, false_imp_iff, implies_true, and_true]
    omega
  · simp only [Reg.SYS_FENCE_at]
    omega
  · exact ⟨hl, .inr (.inr (by omega))⟩

theorem Reg.fenceAc_offCoreFence : Reg.SYS_FENCE_AC.OffCoreFence := by
  constructor
  · intro s
    simp only [RF.OffEvents, Reg.SYS_FENCE_AC, Reg.SYS_FENCE_at, Reg.SLICE_EVT_at, Reg.DPL_PI_at, Reg.DPL_STAT_at, Reg.SLC_RING_STAT_at, Reg.SLC_EVT_LOST_at]
    omega
  · intro s
    simp only [Reg.SYS_FENCE_AC]
    omega
  · exact ⟨by decide, by decide⟩
  · decide
  · exact ⟨by decide, .inr (.inr (by decide))⟩

theorem RF.OffCoreFence.lo_lt {r : RF} (h : r.OffCoreFence) : r.lo < 32 := h.counters.1

theorem Dev.f_orphanSlice_offCoreFence (d : Dev) (s : Nat) {r : RF} (h : r.OffCoreFence) : (d.orphanSlice s).f r = d.f r := by
  unfold Dev.orphanSlice
  split
  · rfl
  · dsimp only
    refine ((Dev.keeps_eventAt _ _ _ _ _ _) r (h.events s)).trans ?_
    refine (List.foldlRecOn (motive := fun e : Dev => e.f r = d.f r) _ _ (d.f_setOrphan_off 1 h.lo_lt (h.orphan s).1 (h.orphan s).2) ?_)
    intro e he v _
    refine List.foldlRecOn (motive := fun e : Dev => e.f r = d.f r) _ _ he fun g hg k _ => ?_
    split
    · exact hg
    · exact hg

theorem Dev.f_removePort_offCoreFence (d : Dev) (cause : Nat) {r : RF} (h : r.OffCoreFence) : (d.removePort 6 cause).f r = d.f r := by
  cases hp : d.removed 6 with
  | true => exact congrArg (fun e : Dev => e.f r) (if_pos hp)
  | false =>
    have hsw : Covers [(0x20050000, 0x20058000)] 0x20050000 0x20058000 := fun a hlo hhi => .of_first ⟨hlo, hhi⟩
    rw [(Dev.removePort_within (K := False) hsw hp cause).f r h.switch]
    have hne := (InBlocks.of_first (bs := []) (b := (0x20050000, 0x20058000)) (a := Reg.SW_P_STAT_at 6) (by decide)).ne_of_apart h.switch
    rw [Dev.f_setF_off _ _ (by decide) h.lo_lt (fun hc => hne hc.1), Dev.f_setTb_off _ _ _ (by decide) h.lo_lt h.port]

theorem Dev.f_fenceCore_off {d : Dev} {n : Fin 4} (hf : d.bit (Reg.CORE_STAT_FENCED n.1) = false) (cause : Nat) {r : RF} (h : r.OffCoreFence) :
    (d.fenceCore n cause).f r = (d.markFenced n cause).f r := by
  rw [Dev.fenceCore_of_unfenced hf]
  have hlog := (d.markFenced n cause).f_log_off 0x05 (if cause = 1 then 0xFF else 70 + n.1) (evInfo n.1) cause h.lo_lt (h.events 0).outside
  generalize (d.markFenced n cause).log 0x05 (if cause = 1 then 0xFF else 70 + n.1) (evInfo n.1) cause = e at hlog ⊢
  have horphan : (e.orphanServed ⟨n.1, Nat.lt_trans n.2 (by decide)⟩).f r = e.f r := by
    unfold Dev.orphanServed
    split
    · exact e.f_orphanSlice_offCoreFence _ h
    · rfl
  rw [← hlog, ← horphan]
  unfold Dev.removeServed
  split
  · exact Dev.f_removePort_offCoreFence _ 2 h
  · rfl

theorem Dev.dropL1_regs (d : Dev) (n : Nat) : (d.dropL1 n).regs = d.regs := by
  unfold Dev.dropL1
  dsimp only
  refine List.foldlRecOn (motive := fun e : Dev => e.regs = d.regs) _ _ rfl fun e he line _ => ?_
  split
  · exact he
  · exact List.foldlRecOn (motive := fun e : Dev => e.regs = d.regs) _ _ he fun g hg _ _ => hg

/-- What the fence of a core that was not fenced shows; every core's world stays as it was. -/
theorem Dev.fenceCore_shows {d : Dev} {n : Fin 4} (hf : d.bit (Reg.CORE_STAT_FENCED n.1) = false) {cause : Nat} (hc : cause < 8) :
    (d.fenceCore n cause).bit (Reg.CORE_STAT_FENCED n.1) = true ∧ (d.fenceCore n cause).f (Reg.CORE_STAT_CAUSE n.1) = cause ∧
      (d.fenceCore n cause).tb Reg.SYS_FENCE_AC n.1 = true ∧ ∀ m : Fin 6, (d.fenceCore n cause).coreSecure m = d.coreSecure m := by
  have hstat : ∀ {r : RF}, r.lo < 32 → r.lo ≠ 2 ∧ r.lo ≠ 3 → r.addr = Reg.CORE_STAT_at n.1 → r.OffCoreFence := fun hl hlo ha =>
    Reg.core_offCoreFence (n := ⟨n.1, Nat.lt_trans n.2 (by decide)⟩) hl hlo (.inl ha)
  have hfenced : (Reg.CORE_STAT_FENCED n.1).OffCoreFence :=
    hstat (Nat.le_of_ble_eq_true rfl) (by simp only [Reg.CORE_STAT_FENCED]; decide) rfl
  have hcause : (Reg.CORE_STAT_CAUSE n.1).OffCoreFence := hstat (Nat.le_of_ble_eq_true rfl) (by simp only [Reg.CORE_STAT_CAUSE]; decide) rfl
  have hne : ¬((Reg.CORE_STAT_FENCED n.1).addr = (Reg.CORE_STAT_CAUSE n.1).addr ∧ (Reg.CORE_STAT_FENCED n.1).lo = (Reg.CORE_STAT_CAUSE n.1).lo) :=
    fun he => absurd he.2 (by simp only [Reg.CORE_STAT_FENCED, Reg.CORE_STAT_CAUSE]; decide)
  have hac : ∀ r : RF, r.lo < 32 → 0x20098000 ≤ r.addr → (d.markFenced n cause).f r =
      (((d.tally.dropL1 n.1).setF (Reg.CORE_STAT_FENCED n.1) 1).setF (Reg.CORE_STAT_CAUSE n.1) cause).f r := fun r hl ha =>
    Dev.f_setTb_off _ _ _ (by decide) hl (fun he => by simp only [Reg.SYS_FENCE_AC, Reg.SYS_FENCE_at] at he; omega)
  have haddr : ∀ r : RF, r.addr = Reg.CORE_STAT_at n.1 → 0x20098000 ≤ r.addr := fun r ha => by rw [ha]; simp only [Reg.CORE_STAT_at]; omega
  refine ⟨?_, ?_, ?_, fun m => ?_⟩
  · refine beq_iff_eq.mpr ?_
    rw [Dev.f_fenceCore_off hf cause hfenced, hac _ (Nat.le_of_ble_eq_true rfl) (haddr _ rfl),
      Dev.f_setF_off _ _ (Nat.le_of_ble_eq_true rfl) (Nat.le_of_ble_eq_true rfl) hne, Dev.f_setF_same]
    rfl
  · rw [Dev.f_fenceCore_off hf cause hcause, hac _ (Nat.le_of_ble_eq_true rfl) (haddr _ rfl), Dev.f_setF_same]
    exact Nat.mod_eq_of_lt hc
  · rw [Dev.tb_of_f (Dev.f_fenceCore_off hf cause Reg.fenceAc_offCoreFence) n.1]
    exact (Dev.tb_setTb _ _ _ _ n.2).trans (if_pos rfl)
  · refine Dev.bit_of_f ?_
    rw [Dev.f_fenceCore_off hf cause (Reg.core_offCoreFence (n := m) (Nat.le_of_ble_eq_true rfl) (by simp only [Reg.CORE_CTX_WORLD]; decide) (.inr rfl)),
      hac _ (Nat.le_of_ble_eq_true rfl) (by simp only [Reg.CORE_CTX_WORLD, Reg.CORE_CTX_at]; omega),
      Dev.f_setF_off _ _ (Nat.le_of_ble_eq_true rfl) (Nat.le_of_ble_eq_true rfl) (fun he => by simp only [Reg.CORE_CTX_WORLD, Reg.CORE_STAT_CAUSE] at he; omega),
      Dev.f_setF_off _ _ (Nat.le_of_ble_eq_true rfl) (Nat.le_of_ble_eq_true rfl) (fun he => by simp only [Reg.CORE_CTX_WORLD, Reg.CORE_STAT_FENCED] at he; omega),
      Dev.f_of_regs (Dev.dropL1_regs _ _), d.tally_keeps _ (Reg.coreCtx_offHalt (Nat.le_of_ble_eq_true rfl) rfl)]

end Sys2Proof.Machine
end

section
/-!
PROOF. Gates (R301–R304): the entries a core takes into the secure world, and those it is turned away from.
-/

namespace Sys2Proof.Machine
open Sys2Proof

/-! ### Entries into the secure world (R303, R304) -/

/-- A core that has entered the secure world. -/
def Core.enter (c : Core) (next up : Nat) : Core := { c with ret := next, entry := some up }

theorem Dev.enterSecure_eq (d : Dev) (n : Fin 6) (next : Nat) : d.enterSecure n next =
    (((d.tally.setF (Reg.CORE_CTX_WORLD n.1) 1).setF (Reg.CORE_CTX_GATED n.1) 1).modCore n (fun c => c.enter next d.tally.up)) := by
  unfold Dev.enterSecure
  generalize d.tally = e
  rfl

theorem Dev.enterSecure_secure (d : Dev) (n : Fin 6) (next : Nat) : (d.enterSecure n next).coreSecure n = true := by
  rw [Dev.enterSecure_eq]
  generalize d.tally = e
  have hworld : ((e.setF (Reg.CORE_CTX_WORLD n.1) 1).setF (Reg.CORE_CTX_GATED n.1) 1).f (Reg.CORE_CTX_WORLD n.1) = 1 :=
    (Dev.f_setF_off _ _ (Nat.le_of_ble_eq_true rfl) (Nat.le_of_ble_eq_true rfl)
      (fun he => by simp only [Reg.CORE_CTX_WORLD, Reg.CORE_CTX_GATED] at he; omega)).trans (Dev.f_setF_same _ _ _)
  exact beq_iff_eq.mpr hworld

theorem Dev.enterSecure_gated (d : Dev) (n : Fin 6) (next : Nat) : (d.enterSecure n next).bit (Reg.CORE_CTX_GATED n.1) = true := by
  rw [Dev.enterSecure_eq]
  generalize d.tally = e
  have hgated : ((e.setF (Reg.CORE_CTX_WORLD n.1) 1).setF (Reg.CORE_CTX_GATED n.1) 1).f (Reg.CORE_CTX_GATED n.1) = 1 := Dev.f_setF_same _ _ _
  exact beq_iff_eq.mpr hgated

theorem Dev.enterSecure_core (d : Dev) (n : Fin 6) (next : Nat) : (d.enterSecure n next).cores[n] = (d.cores[n]).enter next d.up := by
  rw [Dev.enterSecure_eq, ← d.tally_up, ← d.tally_cores]
  generalize d.tally = e
  exact getElem_put_same _ _ _

/-! ### Gates (R301–R303) -/

theorem Dev.gateDeny_reports (d : Dev) (n : Fin 6) (g : Nat) : Dev.Reports (d.free 8).2 (d.gateDeny n g) :=
  (Dev.log_same _ _ _ _ _).trans (Dev.pend_same _ 68)

theorem Dev.coreTrap_secure (d : Dev) (n m : Fin 6) : (d.coreTrap n).coreSecure m = d.coreSecure m := rfl

theorem Dev.coreTrap_ret (d : Dev) (n : Fin 6) : ((d.coreTrap n).cores[n]).ret = (d.cores[n]).ret := by
  unfold Dev.coreTrap
  dsimp only
  rw [Dev.cores_modCore_same]
  rfl

theorem Dev.gateDeny_keeps (d : Dev) (n : Fin 6) (g : Nat) : Dev.Keeps RF.OffHalt d (d.gateDeny n g) := fun r hr =>
  (Dev.f_pend_off _ (by decide) hr.1.1 hr.2.1).trans (Dev.f_log_off (d.free 8).2 _ _ _ _ hr.1.1 hr.2.1)

/-- A core that a gate turns away stays in its world, its saved address as it was. -/
theorem Dev.gateDenied (d : Dev) (n : Fin 6) (g : Nat) : ((d.coreTrap n).gateDeny n g).coreSecure n = d.coreSecure n ∧
    (((d.coreTrap n).gateDeny n g).cores[n]).ret = (d.cores[n]).ret := by
  refine ⟨(Dev.gateDeny_keeps _ n g).coreSecure n, ?_⟩
  have hcores : ((d.coreTrap n).gateDeny n g).cores = (d.coreTrap n).cores := (Dev.gateDeny_reports _ n g).cores
  rw [hcores]
  exact d.coreTrap_ret n

/-- A table entry that the core may read, valid and of its slice or of all, takes it into the secure world at the entry's address. -/
theorem Dev.gate_entry {d : Dev} {word : Nat → Nat → Nat} {n : Fin 6} {g key : Nat} (next : Nat) (hruns : d.coreRuns n = true) (hsec : d.coreSecure n = false)
    (hg : g < d.f (Reg.CORE_GATE_CNT_CNT n.1))
    (hread : d.readGate n (d.f64 (Reg.CORE_GATE_BASE_LO_ADDR n.1) (Reg.CORE_GATE_BASE_HI_ADDR n.1) % 2 ^ 40 + 16 * g) = (d, some key))
    (hvalid : (word (key + 8) 4).testBit 0 = true)
    (hslice : (word (key + 8) 4).testBit 1 = true ∨ bits (word (key + 8) 4) 8 6 = d.f (Reg.CORE_CTX_SLICE n.1)) :
    d.gate word n g next = (d.enterSecure n next).modCore n (fun c => { c with pc := word key 8 % 2 ^ 40 }) := by
  unfold Dev.gate
  rw [hruns, hsec, if_neg (by decide), if_neg (by decide), if_neg (Nat.not_le.mpr hg), hread]
  exact if_pos ⟨hvalid, hslice⟩

theorem Dev.gate_past {d : Dev} {word : Nat → Nat → Nat} {n : Fin 6} {g : Nat} (next : Nat) (hruns : d.coreRuns n = true) (hsec : d.coreSecure n = false)
    (hg : d.f (Reg.CORE_GATE_CNT_CNT n.1) ≤ g) : d.gate word n g next = (d.coreTrap n).gateDeny n g := by
  unfold Dev.gate
  rw [hruns, hsec, if_neg (by decide), if_neg (by decide), if_pos hg]

/-- The TCM's ranges are behind no checker. -/
theorem tcmKey_of_checker {src : Src} {addr t : Nat} (h : checkerOf addr = some t) : tcmKey src addr = none := by
  have hout : addr < 0x04000000 ∨ 0x040C0000 ≤ addr := by
    by_contra hin
    have hnone : checkerOf addr = none := by
      unfold checkerOf
      rw [if_neg (by omega), if_neg (by omega), if_neg (by omega), if_neg (by omega), if_neg (by omega), if_neg (by omega)]
    rw [hnone] at h
    exact nomatch h
  unfold tcmKey
  rw [if_neg (by omega), if_neg (by omega)]

theorem gateInstr_gate {w : Word} {g : Fin 256} (h : gateWord w = .gate g) (d : Dev) (word : Nat → Nat → Nat) (n : Fin 6) (next : Nat) :
    d.gateInstr word n w next = d.gate word n g.1 next := by
  unfold Dev.gateInstr
  rw [h]

theorem Answers.of_turnedAway {i : Instr} {s : State} {d : Dev} {n : Fin 6} {b : Bool} {next : Nat} (hl : Live s) (hexec : exec i s = s.done d)
    (hworld : d.coreSecure n = b) (hret : (d.cores[n]).ret = next) : Answers i s (fun t => t.dev.coreSecure n = b ∧ (t.dev.cores[n]).ret = next) :=
  .of_done hl hexec ⟨hworld, hret⟩

section
variable {s : State} {n : Fin 6} {w : Word} {g : Fin 256} {next : Nat} (hl : Live s) (hw : gateWord w = .gate g)
  (hruns : s.dev.coreRuns n = true) (hsec : s.dev.coreSecure n = false)
include hl hw hruns hsec

theorem Answers.of_gateEntry {key : Nat} (hg : g.1 < s.dev.f (Reg.CORE_GATE_CNT_CNT n.1))
    (hread : s.dev.readGate n (s.dev.f64 (Reg.CORE_GATE_BASE_LO_ADDR n.1) (Reg.CORE_GATE_BASE_HI_ADDR n.1) % 2 ^ 40 + 16 * g.1) = (s.dev, some key))
    (hvalid : (s.memWord (key + 8) 4).testBit 0 = true)
    (hslice : (s.memWord (key + 8) 4).testBit 1 = true ∨ bits (s.memWord (key + 8) 4) 8 6 = s.dev.f (Reg.CORE_CTX_SLICE n.1)) :
    Answers (.gate n w next) s (fun t => t.dev.coreSecure n = true ∧ t.dev.bit (Reg.CORE_CTX_GATED n.1) = true ∧
      (t.dev.cores[n]).pc = s.memWord key 8 % 2 ^ 40 ∧ (t.dev.cores[n]).ret = next ∧ (t.dev.cores[n]).entry = some s.dev.up) := by
  have hexec : exec (.gate n w next) s = s.done ((s.dev.enterSecure n next).modCore n (fun c => { c with pc := s.memWord key 8 % 2 ^ 40 })) :=
    congrArg s.done ((gateInstr_gate hw _ _ _ _).trans (Dev.gate_entry next hruns hsec hg hread hvalid hslice))
  have hcore := s.dev.enterSecure_core n next
  have hworld := s.dev.enterSecure_secure n next
  have hgated := s.dev.enterSecure_gated n next
  generalize s.dev.enterSecure n next = e at hexec hcore hworld hgated
  refine .of_done hl hexec ⟨hworld, hgated, ?_⟩
  rw [State.commit_cores, Dev.cores_modCore_same, hcore]
  exact ⟨rfl, rfl, rfl⟩

theorem Answers.of_gatePast (hg : s.dev.f (Reg.CORE_GATE_CNT_CNT n.1) ≤ g.1) :
    Answers (.gate n w next) s (fun t => t.dev.coreSecure n = false ∧ (t.dev.cores[n]).ret = (s.dev.cores[n]).ret) := by
  obtain ⟨hworld, hret⟩ := s.dev.gateDenied n g.1
  have hexec : exec (.gate n w next) s = s.done ((s.dev.coreTrap n).gateDeny n g.1) :=
    congrArg s.done ((gateInstr_gate hw _ _ _ _).trans (Dev.gate_past next hruns hsec hg))
  exact .of_turnedAway hl hexec (hworld.trans hsec) hret

end

theorem Answers.of_gateUndefined {s : State} {n : Fin 6} {w : Word} (next : Nat) (hl : Live s) (hw : gateWord w = .undefined) :
    Answers (.gate n w next) s (fun t => t.dev.coreSecure n = s.dev.coreSecure n ∧ (t.dev.cores[n]).ret = (s.dev.cores[n]).ret) := by
  have hexec : exec (.gate n w next) s = s.done (if s.dev.coreRuns n then s.dev.coreTrap n else s.dev) := by
    refine congrArg s.done ?_
    unfold Dev.gateInstr
    rw [hw]
  refine .of_done hl hexec ?_
  split
  · exact ⟨s.dev.coreTrap_secure n n, s.dev.coreTrap_ret n⟩
  · exact ⟨rfl, rfl⟩

/-- The core's identity in the secure world, as its gate table is read. -/
def Dev.gateSrc (d : Dev) (n : Fin 6) : Src := ⟨⟨n.1, Nat.lt_trans n.2 (by decide)⟩, true, sl (d.f (Reg.CORE_CTX_SLICE n.1))⟩

theorem Dev.readGate_tcm {d : Dev} {n : Fin 6} {base key : Nat} {p : Fin 2} (h : tcmKey (d.gateSrc n) base = some (p, key)) :
    d.readGate n base = (d, some key) := by
  unfold Dev.gateSrc at h
  unfold Dev.readGate
  dsimp only
  rw [h]

theorem Dev.readGate_checked {d : Dev} {n : Fin 6} {base t : Nat} (hc : checkerOf base = some t) (hp : d.permits t (d.gateSrc n) .read base = true)
    (hs : d.serves base = true) : d.readGate n base = (d, some base) := by
  unfold Dev.gateSrc at hp
  unfold Dev.readGate
  dsimp only
  rw [tcmKey_of_checker hc, hc]
  dsimp only
  rw [hp, hs, if_neg (by decide), if_pos rfl]

end Sys2Proof.Machine
end

section
/-!
PROOF. The worlds of the cores (R299–R304, R312, R313): gates, returns, interrupts of the secure world, faults and expiries, kicks.
-/

namespace Sys2Proof.Machine
open Sys2Proof

/-! ### Returns (R299, R304) -/

theorem Dev.gateExpiry_early {d : Dev} {n : Fin 6} (h : ∀ t0, (d.cores[n]).entry = some t0 → d.f (Reg.CORE_SWDG_GATE_MAX n.1) = 0 ∨
    d.up < t0 + 400 * d.f (Reg.CORE_SWDG_GATE_MAX n.1)) : d.gateExpiry n = d := by
  unfold Dev.gateExpiry
  dsimp only
  split
  next t0 ht =>
    refine if_neg fun hdue => ?_
    obtain ⟨-, hmax, hup⟩ := hdue
    have := h t0 ht
    omega
  next => rfl

theorem Dev.gateExpiry_due {d : Dev} {n : Fin 6} {t0 : Nat} (ht : d.coreTimed n = true) (he : (d.cores[n]).entry = some t0)
    (hm : d.f (Reg.CORE_SWDG_GATE_MAX n.1) ≠ 0) (hup : t0 + 400 * d.f (Reg.CORE_SWDG_GATE_MAX n.1) ≤ d.up) : d.gateExpiry n = d.coreExpiry n 3 := by
  unfold Dev.gateExpiry
  dsimp only
  rw [he]
  exact if_pos ⟨ht, hm, hup⟩

/-- Where a return leads: the saved address, or CORE_NENTRY when no entry is active (R304). -/
def Dev.retAddr (d : Dev) (n : Fin 6) : Nat :=
  if d.bit (Reg.CORE_CTX_GATED n.1) then (d.cores[n]).ret else d.f64 (Reg.CORE_NENTRY_LO_ADDR n.1) (Reg.CORE_NENTRY_HI_ADDR n.1) % 2 ^ 40

/-- The core is in the normal world, no entry active, and its held interrupts are signalled. -/
def Dev.leaveSecure (d : Dev) (n : Fin 6) : Dev :=
  let d := (d.setF (Reg.CORE_CTX_WORLD n.1) 0).setF (Reg.CORE_CTX_GATED n.1) 0
  if (d.cores[n]).irqN then d.emit (.coreSignal n.1) else d

/-- A core that has returned. -/
def Core.leave (c : Core) (pc : Nat) : Core := { c with pc := pc, entry := none, irqN := false }

theorem Dev.gret_secure {d : Dev} {n : Fin 6} (he : d.gateExpiry n = d) (hruns : d.coreRuns n = true) (hsec : d.coreSecure n = true) :
    d.gret n = ((d.tally.leaveSecure n).modCore n (fun c => c.leave (d.retAddr n))).haltDue n := by
  unfold Dev.gret
  rw [he]
  dsimp only
  rw [hruns, hsec, if_neg (by decide), if_neg (by decide)]
  rfl

theorem Dev.leaveSecure_regs (d : Dev) (n : Fin 6) :
    (d.leaveSecure n).regs = ((d.setF (Reg.CORE_CTX_WORLD n.1) 0).setF (Reg.CORE_CTX_GATED n.1) 0).regs := by
  unfold Dev.leaveSecure
  dsimp only
  split <;> rfl

theorem Dev.leaveSecure_cores (d : Dev) (n : Fin 6) : (d.leaveSecure n).cores = d.cores := by
  unfold Dev.leaveSecure
  dsimp only
  split <;> rfl

theorem Dev.leaveSecure_world (d : Dev) (n : Fin 6) : (d.leaveSecure n).coreSecure n = false ∧ (d.leaveSecure n).bit (Reg.CORE_CTX_GATED n.1) = false := by
  have hworld : (d.leaveSecure n).f (Reg.CORE_CTX_WORLD n.1) = 0 := by
    rw [Dev.f_of_regs (d.leaveSecure_regs n), Dev.f_setF_off _ _ (Nat.le_of_ble_eq_true rfl) (Nat.le_of_ble_eq_true rfl)
      (fun he => by simp only [Reg.CORE_CTX_WORLD, Reg.CORE_CTX_GATED] at he; omega), Dev.f_setF_same, Nat.zero_mod]
  have hgated : (d.leaveSecure n).f (Reg.CORE_CTX_GATED n.1) = 0 := by
    rw [Dev.f_of_regs (d.leaveSecure_regs n), Dev.f_setF_same, Nat.zero_mod]
  exact ⟨beq_eq_false_iff_ne.mpr (by rw [hworld]; decide), beq_eq_false_iff_ne.mpr (by rw [hgated]; decide)⟩

theorem Dev.leaveSecure_signals {d : Dev} {n : Fin 6} (h : (d.cores[n]).irqN = true) : Output.coreSignal n.1 ∈ (d.leaveSecure n).out := by
  unfold Dev.leaveSecure
  dsimp only
  have hirq : (((d.setF (Reg.CORE_CTX_WORLD n.1) 0).setF (Reg.CORE_CTX_GATED n.1) 0).cores[n]).irqN = true := h
  rw [if_pos hirq]
  exact List.mem_cons_self

theorem Dev.breakLockstep_sendsOn (d : Dev) (p : Fin 2) : Dev.SendsOn d (d.breakLockstep p) := by
  unfold Dev.breakLockstep
  split
  · exact (Dev.raise_sendsOn _ Reg.LS_EVT_DBG (2 ^ p.1) 63).after rfl
  · exact .refl d

theorem Dev.haltDue_sendsOn (d : Dev) (n : Fin 6) : Dev.SendsOn d (d.haltDue n) := by
  refine .ite ?_ (.refl d)
  rw [Dev.haltCore_eq]
  have hout := d.tally_out
  generalize d.tally = e at hout ⊢
  exact Dev.SendsOn.after (.ite (Dev.breakLockstep_sendsOn _ 0) (.ite (Dev.breakLockstep_sendsOn _ 1) (.refl _))) hout

theorem Answers.of_gret {s : State} {n : Fin 6} (hl : Live s) (hruns : s.dev.coreRuns n = true) (hsec : s.dev.coreSecure n = true)
    (hearly : ∀ t0, (s.dev.cores[n]).entry = some t0 → s.dev.f (Reg.CORE_SWDG_GATE_MAX n.1) = 0 ∨
      s.dev.up < t0 + 400 * s.dev.f (Reg.CORE_SWDG_GATE_MAX n.1)) :
    Answers (.gret n) s (fun t => t.dev.coreSecure n = false ∧ t.dev.bit (Reg.CORE_CTX_GATED n.1) = false ∧
      (t.dev.cores[n]).irqN = false ∧ ((s.dev.cores[n]).irqN = true → Output.coreSignal n.1 ∈ t.dev.out) ∧ (t.dev.cores[n]).pc = s.dev.retAddr n) := by
  have hexec : exec (.gret n) s = s.done (((s.dev.tally.leaveSecure n).modCore n (fun c => c.leave (s.dev.retAddr n))).haltDue n) :=
    congrArg s.done (Dev.gret_secure (Dev.gateExpiry_early hearly) hruns hsec)
  obtain ⟨hworld, hgated⟩ := s.dev.tally.leaveSecure_world n
  have hsignal : (s.dev.cores[n]).irqN = true → Output.coreSignal n.1 ∈ (s.dev.tally.leaveSecure n).out := fun h =>
    Dev.leaveSecure_signals (by rw [s.dev.tally_cores]; exact h)
  generalize s.dev.tally.leaveSecure n = e at hexec hworld hgated hsignal
  have hkeeps := (e.modCore n (fun c => c.leave (s.dev.retAddr n))).haltDue_keeps n
  have hsends := (e.modCore n (fun c => c.leave (s.dev.retAddr n))).haltDue_sendsOn n
  have hcore := (e.modCore n (fun c => c.leave (s.dev.retAddr n))).haltDue_core n n
  rw [Dev.cores_modCore_same] at hcore
  refine .of_done hl hexec ⟨(hkeeps.coreSecure n).trans hworld,
    (Dev.bit_of_f (hkeeps _ (Reg.coreCtx_offHalt (Nat.le_of_ble_eq_true rfl) rfl))).trans hgated, ?_, fun h => hsends.mem (hsignal h), ?_⟩
  · obtain hcore | ⟨-, hcore⟩ := hcore
    · exact congrArg Core.irqN hcore
    · exact congrArg Core.irqN hcore
  · obtain hcore | ⟨-, hcore⟩ := hcore
    · exact congrArg Core.pc hcore
    · exact congrArg Core.pc hcore

/-! ### Fences, watchdogs and gate timers (R24, R312–R314) -/

theorem Dev.coreTimed_unfenced {d : Dev} {n : Fin 6} (h : d.coreTimed n = true) : d.bit (Reg.CORE_STAT_FENCED n.1) = false := by
  unfold Dev.coreTimed at h
  simp only [Bool.and_eq_true, Bool.not_eq_true'] at h
  exact h.1.2

theorem Dev.f_pend_cores (d : Dev) {i : Nat} (hi : i < 4096) {r : RF} (hl : r.lo < 32) (ha : 0x20098000 ≤ r.addr) : (d.pend i).f r = d.f r :=
  Dev.f_pend_off d hi hl (.inr (by omega))

/-- What an expiry does to an application core whose fence is not shown yet. -/
theorem Dev.coreExpiry_fences {d : Dev} {n : Fin 6} (hn : n.1 < 4) (hf : d.bit (Reg.CORE_STAT_FENCED n.1) = false) {cause : Nat} (hc : cause < 8) :
    (d.coreExpiry n cause).bit (Reg.CORE_STAT_FENCED n.1) = true ∧
      (d.coreExpiry n cause).f (Reg.CORE_STAT_CAUSE n.1) = cause ∧
      ∀ m : Fin 6, (d.coreExpiry n cause).coreSecure m = d.coreSecure m := by
  have heq : d.coreExpiry n cause = (d.fenceCore ⟨n.1, hn⟩ cause).pend (70 + n.1) := by
    unfold Dev.coreExpiry
    dsimp only
    rw [dif_pos hn]
  obtain ⟨hfenced, hcause, -, hworlds⟩ := Dev.fenceCore_shows (n := ⟨n.1, hn⟩) hf hc
  rw [heq]
  generalize d.fenceCore ⟨n.1, hn⟩ cause = e at hfenced hcause hworlds ⊢
  have hkeeps : ∀ r : RF, r.lo < 32 → 0x20098000 ≤ r.addr → (e.pend (70 + n.1)).f r = e.f r := fun r hl ha => e.f_pend_cores (by omega) hl ha
  refine ⟨(Dev.bit_of_f (hkeeps _ (Nat.le_of_ble_eq_true rfl) ?_)).trans hfenced, (hkeeps _ (Nat.le_of_ble_eq_true rfl) ?_).trans hcause, fun m =>
    (Dev.bit_of_f (hkeeps _ (Nat.le_of_ble_eq_true rfl) ?_)).trans (hworlds m)⟩
  · simp only [Reg.CORE_STAT_FENCED, Reg.CORE_STAT_at]; omega
  · simp only [Reg.CORE_STAT_CAUSE, Reg.CORE_STAT_at]; omega
  · simp only [Reg.CORE_CTX_WORLD, Reg.CORE_CTX_at]; omega

theorem Dev.coreExpiry_withholds {d : Dev} {n : Fin 6} (hn : 4 ≤ n.1) (cause : Nat) : ((d.coreExpiry n cause).cores[n]).expired = true := by
  have heq : d.coreExpiry n cause = (d.modCore n (fun c => { c with expired := true })).pend (70 + n.1) := by
    unfold Dev.coreExpiry
    dsimp only
    rw [dif_neg (Nat.not_lt.mpr hn)]
  have hcores := (Dev.pend_same (d.modCore n (fun c => { c with expired := true })) (70 + n.1)).cores
  rw [heq, hcores, Dev.cores_modCore_same]

/-- What an expiry of a core's timer shows: an application core fenced, a Sienna pair that withholds its heartbeat. -/
def Dev.Expired (d : Dev) (n : Fin 6) (cause : Nat) : Prop :=
  (n.1 < 4 → d.bit (Reg.CORE_STAT_FENCED n.1) = true ∧ d.f (Reg.CORE_STAT_CAUSE n.1) = cause) ∧ (4 ≤ n.1 → (d.cores[n]).expired = true)

theorem Dev.coreExpiry_expired {d : Dev} {n : Fin 6} (h : d.coreTimed n = true) {cause : Nat} (hc : cause < 8) : (d.coreExpiry n cause).Expired n cause := by
  refine ⟨fun hn => ?_, fun hn => Dev.coreExpiry_withholds hn cause⟩
  obtain ⟨hfenced, hcause, -⟩ := Dev.coreExpiry_fences hn (Dev.coreTimed_unfenced h) hc
  exact ⟨hfenced, hcause⟩

theorem Answers.of_expiry {i : Instr} {s : State} {n : Fin 6} {cause : Nat} (hl : Live s) (ht : s.dev.coreTimed n = true) (hc : cause < 8)
    (hexec : exec i s = s.done (s.dev.coreExpiry n cause)) : Answers i s (fun t => t.dev.Expired n cause) := by
  have hexp := Dev.coreExpiry_expired ht hc
  generalize s.dev.coreExpiry n cause = d at hexec hexp
  exact .of_done hl hexec hexp

theorem Answers.of_gretExpired {s : State} {n : Fin 6} {t0 : Nat} (hn : n.1 < 4) (hl : Live s) (ht : s.dev.coreTimed n = true)
    (he : (s.dev.cores[n]).entry = some t0) (hm : s.dev.f (Reg.CORE_SWDG_GATE_MAX n.1) ≠ 0)
    (hup : t0 + 400 * s.dev.f (Reg.CORE_SWDG_GATE_MAX n.1) ≤ s.dev.up) :
    Answers (.gret n) s (fun t => t.dev.bit (Reg.CORE_STAT_FENCED n.1) = true ∧ t.dev.f (Reg.CORE_STAT_CAUSE n.1) = 3 ∧
      t.dev.coreSecure n = s.dev.coreSecure n) := by
  obtain ⟨hfenced, hcause, hworlds⟩ := Dev.coreExpiry_fences hn (Dev.coreTimed_unfenced ht) (cause := 3) (by decide)
  have hexec : exec (.gret n) s = s.done (s.dev.coreExpiry n 3) := by
    refine congrArg s.done ?_
    unfold Dev.gret
    rw [Dev.gateExpiry_due ht he hm hup]
    dsimp only
    refine if_pos ?_
    unfold Dev.coreRuns
    dsimp only
    rw [hfenced]
    simp only [Bool.not_true, Bool.and_false, Bool.false_and, Bool.not_false]
  generalize s.dev.coreExpiry n 3 = d at hexec hfenced hcause hworlds
  exact .of_done hl hexec ⟨hfenced, hcause, hworlds _⟩

theorem Answers.of_coreFault {s : State} {n : Fin 4} (hl : Live s) (hf : s.dev.bit (Reg.CORE_STAT_FENCED n.1) = false) :
    Answers (.coreFault n) s (fun t => t.dev.bit (Reg.CORE_STAT_FENCED n.1) = true ∧ t.dev.f (Reg.CORE_STAT_CAUSE n.1) = 1 ∧
      t.dev.tb Reg.SYS_FENCE_AC n.1 = true) := by
  obtain ⟨hfenced, hcause, hac, -⟩ := Dev.fenceCore_shows hf (cause := 1) (by decide)
  have hexec : exec (.coreFault n) s = s.done (s.dev.fenceCore n 1) := rfl
  generalize s.dev.fenceCore n 1 = d at hexec hfenced hcause hac
  exact .of_done hl hexec ⟨hfenced, hcause, hac⟩

/-! ### Interrupts of the secure world (R304) -/

theorem Dev.recordIrq_same (d : Dev) (n : Fin 6) : (d.recordIrq n).regs = d.regs ∧ (d.recordIrq n).cores = d.cores ∧ (d.recordIrq n).up = d.up := by
  unfold Dev.recordIrq
  generalize (if n = 4 then 0 else 1 : Fin 2) = p
  dsimp only
  split
  · exact ⟨rfl, rfl, rfl⟩
  · exact ⟨rfl, rfl, rfl⟩

theorem Dev.coreTrap_entry (d : Dev) (n : Fin 6) : ((d.coreTrap n).cores[n]).entry = (d.cores[n]).entry := by
  unfold Dev.coreTrap
  dsimp only
  rw [Dev.cores_modCore_same]
  rfl

theorem Answers.of_secureInterrupt {s : State} {n : Fin 6} (next : Nat) (hl : Live s) (hruns : s.dev.coreRuns n = true) :
    Answers (.secureInterrupt n next) s (fun t => t.dev.coreSecure n = true ∧
      (t.dev.cores[n]).ret = (if s.dev.coreSecure n then (s.dev.cores[n]).ret else next) ∧
      (t.dev.cores[n]).entry = (if s.dev.coreSecure n then (s.dev.cores[n]).entry else some s.dev.up)) := by
  have hexec : exec (.secureInterrupt n next) s = s.done (if (s.dev.recordIrq n).coreSecure n then (s.dev.recordIrq n).coreTrap n
      else ((s.dev.recordIrq n).enterSecure n next).coreTrap n) := by
    refine congrArg s.done ?_
    unfold Dev.secureInterrupt
    rw [hruns, if_neg (by decide)]
  obtain ⟨hregs, hcores, hup⟩ := s.dev.recordIrq_same n
  have hsec : (s.dev.recordIrq n).coreSecure n = s.dev.coreSecure n := Dev.bit_of_f (Dev.f_of_regs hregs _)
  rw [hsec] at hexec
  rw [← hcores, ← hup]
  generalize s.dev.recordIrq n = d at hexec hsec
  cases hw : s.dev.coreSecure n with
  | true =>
    rw [hw] at hexec hsec
    exact .of_done hl (hexec.trans (congrArg s.done (if_pos rfl))) ⟨(d.coreTrap_secure n n).trans hsec, (d.coreTrap_ret n).trans (if_pos rfl).symm,
      (d.coreTrap_entry n).trans (if_pos rfl).symm⟩
  | false =>
    rw [hw] at hexec
    have hcore := d.enterSecure_core n next
    have hworld := d.enterSecure_secure n next
    have hret := (d.enterSecure n next).coreTrap_ret n
    have hentry := (d.enterSecure n next).coreTrap_entry n
    rw [hcore] at hret hentry
    refine .of_done hl (hexec.trans (congrArg s.done (if_neg Bool.false_ne_true))) ⟨hworld, hret.trans (if_neg Bool.false_ne_true).symm, ?_⟩
    exact hentry.trans (if_neg Bool.false_ne_true).symm

/-! ### Kicks (R312) -/

theorem Dev.kickCore_own {d : Dev} {src : Src} {n : Fin 6} {w : Nat} (hw : w.testBit 0 = true) (hm : src.master.1 = n.1) :
    d.kickCore src n w = (d.swdgExpiry n).modCore n (fun c => { c with wdogAt := d.up }) := by
  unfold Dev.kickCore
  rw [hw, if_neg (by decide), if_pos hm]

theorem Dev.kickCore_other {d : Dev} {src : Src} {n : Fin 6} {w : Nat} (hw : w.testBit 0 = true) (hm : src.master.1 ≠ n.1) :
    d.kickCore src n w = d.logRefused src (Reg.CORE_SWDG_KICK_at n.1) := by
  unfold Dev.kickCore
  rw [hw, if_neg (by decide), if_neg hm]

theorem Dev.swdgExpiry_early {d : Dev} {n : Fin 6} (h : d.coreTimed n = false ∨ d.f (Reg.CORE_SWDG_TIMEOUT n.1) = 0 ∨
    d.up < (d.cores[n]).wdogAt + 400000 * d.f (Reg.CORE_SWDG_TIMEOUT n.1)) : d.swdgExpiry n = d := by
  unfold Dev.swdgExpiry
  refine if_neg fun hdue => ?_
  obtain ⟨htimed, hto, hup⟩ := hdue
  obtain h | h | h := h
  · rw [h] at htimed
    exact Bool.false_ne_true htimed
  · exact hto h
  · omega

theorem Dev.kickCore_wdogAt {d : Dev} {src : Src} {n : Fin 6} {w : Nat} (hw : w.testBit 0 = true) :
    ((d.kickCore src n w).cores[n]).wdogAt = if src.master.1 = n.1 then d.up else (d.cores[n]).wdogAt := by
  by_cases hm : src.master.1 = n.1
  · rw [Dev.kickCore_own hw hm, if_pos hm, Dev.cores_modCore_same]
  · have hcores : (d.logRefused src (Reg.CORE_SWDG_KICK_at n.1)).cores = d.cores := (Dev.log_same _ _ _ _ _).cores
    rw [Dev.kickCore_other hw hm, if_neg hm, hcores]

/-- A kick that finds no expiry due writes the event block alone, to record that it is ignored. -/
theorem Dev.kickCore_within {bs : List (Nat × Nat)} {d : Dev} {src : Src} {n : Fin 6} {w : Nat} (hw : w.testBit 0 = true)
    (h : src.master.1 ≠ n.1 ∨ d.coreTimed n = false ∨ d.f (Reg.CORE_SWDG_TIMEOUT n.1) = 0 ∨
      d.up < (d.cores[n]).wdogAt + 400000 * d.f (Reg.CORE_SWDG_TIMEOUT n.1)) : Dev.Within bs False d (d.kickCore src n w) := by
  by_cases hm : src.master.1 = n.1
  · rw [Dev.kickCore_own hw hm, Dev.swdgExpiry_early (h.resolve_left (fun hne => hne hm))]
    exact ⟨fun _ _ => rfl, rfl, False.elim, ⟨rfl, rfl, rfl⟩⟩
  · rw [Dev.kickCore_other hw hm]
    exact Dev.within_log d _ _ _ _

theorem Answers.of_kickWatchdog {s : State} {src : Src} {n : Fin 6} {w : Word} (hr : Reaches s src (Reg.CORE_SWDG_KICK_at n.1)) (hw : w.toNat.testBit 0 = true) :
    Answers (.kickWatchdog src n w) s (fun t => (t.dev.cores[n]).wdogAt = (if src.master.1 = n.1 then s.dev.up else (s.dev.cores[n]).wdogAt) ∧
      (src.master.1 ≠ n.1 ∨ s.dev.coreTimed n = false ∨ s.dev.f (Reg.CORE_SWDG_TIMEOUT n.1) = 0 ∨
          s.dev.up < (s.dev.cores[n]).wdogAt + 400000 * s.dev.f (Reg.CORE_SWDG_TIMEOUT n.1) → Clean s →
        (∀ r : RF, Apart [(0x20098000, 0x20099000)] r → t.dev.f r = s.dev.f r) ∧ t.dev.vats = s.dev.vats ∧ SameMem s t)) := by
  have hexec : exec (.kickWatchdog src n w) s = s.done ((s.dev.answer 0).kickCore src n w.toNat) := congrArg s.done (Dev.onWrite_unguarded hr.2 _)
  have hat := Dev.kickCore_wdogAt (d := s.dev.answer 0) (src := src) (n := n) hw
  have hwithin := Dev.kickCore_within (bs := [(0x20098000, 0x20099000)]) (d := s.dev.answer 0) (src := src) (n := n) hw
  generalize (s.dev.answer 0).kickCore src n w.toNat = d at hexec hat hwithin
  refine .of_done hr.1 hexec ⟨hat, fun h hs => ?_⟩
  have hanswer : Dev.Within [(0x20098000, 0x20099000)] False s.dev (s.dev.answer 0) := (Dev.Within.refl s.dev).setResp _
  obtain ⟨hf, hvats, -, hmem⟩ := State.within_commit hs (hanswer.trans (hwithin h))
  exact ⟨hf, hvats, hmem⟩

/-- Settles O39: each command does what its clause says of the core it names, and a fence orphans the slice the core's context names, whatever number
stands there, without touching what the fence has shown. -/
theorem worldsOfTheCores : Obligations.WorldsOfTheCores := by
  unfold Obligations.WorldsOfTheCores
  refine ⟨?_, fun s n w next hl hw => .of_gateUndefined next hl hw, fun s n hl hruns hsec hearly => .of_gret hl hruns hsec hearly,
    fun s n t0 hl ht he hm hup => .of_gretExpired n.2 hl ht he hm hup, fun s n next hl hruns => .of_secureInterrupt next hl hruns,
    fun s n hl hf => .of_coreFault hl hf, fun s n hl ht => ⟨fun hto hdue => ?_, fun t0 he hm hup => ?_⟩, fun s src n w hr hw => .of_kickWatchdog hr hw⟩
  · intro s n w g next t_ hl hw hruns hsec
    refine ⟨fun hg hc hp hs hvalid hslice => ?_, fun p key hk hg hvalid hall => ?_, fun hg => .of_gatePast hl hw hruns hsec hg⟩
    · exact .of_gateEntry hl hw hruns hsec hg (Dev.readGate_checked hc hp hs) hvalid hslice
    · obtain ⟨t, hexec, hheld, hworld, -, hpc, hret, -⟩ := Answers.of_gateEntry (next := next) hl hw hruns hsec hg (Dev.readGate_tcm hk) hvalid (.inl hall)
      exact ⟨t, hexec, hheld, hworld, hpc, hret⟩
  · exact .of_expiry hl ht (by decide) (congrArg s.done (if_pos ⟨ht, hto, hdue⟩))
  · exact .of_expiry hl ht (by decide) (congrArg s.done (Dev.gateExpiry_due ht he hm hup))

end Sys2Proof.Machine
end
